-- ==== Sys2Proof/Word.lean ====
section
/-! DEFINITION. Word.lean: the widths the manual gives (R6 to R8): bytes, 32-bit register words, 80-bit device time. -/

namespace Sys2Proof

/-- A byte. -/
abbrev Byte := BitVec 8
/-- One register location (R8): 32 bits. -/
abbrev Word := BitVec 32
/-- Device time (R7): 32 bits of seconds, then a 48-bit fraction; its unit is 2^-48 s. -/
abbrev DevTime := BitVec 80

end Sys2Proof
end

