-- ==== Sys2Proof/Types.lean ====
section
/-! DEFINITION. Types.lean: the things that travel: markers, frames, gap records, Yarenn records. They are operands of
commands, parts of the state and items of the output list. -/

namespace Sys2Proof

/-- The two variants (R1, Table SC-1). -/
inductive Variant where
  | yn9616
  | yn9608
  deriving DecidableEq, Repr

/-- Marker types (R25, Table AC-8). -/
inductive MarkerType where
  | epoch
  | syncReset
  | coefSwap
  | gainSwitch
  | calRamp
  | timeStep
  deriving DecidableEq, Repr

/-- TYPE code of a marker (Table AC-8). -/
def MarkerType.code : MarkerType → Nat
  | .epoch => 1
  | .syncReset => 2
  | .coefSwap => 3
  | .gainSwitch => 4
  | .calRamp => 5
  | .timeStep => 6

/-- Place of a marker type in the order of R28. -/
def MarkerType.rank : MarkerType → Nat
  | .epoch => 0
  | .timeStep => 1
  | .syncReset => 2
  | .coefSwap => 3
  | .gainSwitch => 4
  | .calRamp => 5

/-- A marker (R24, Table AC-7). TARGET FFFFh means every stage. -/
structure Marker where
  type : MarkerType
  late : Bool
  target : BitVec 16
  offset : Word
  time : DevTime
  arg : BitVec 64
  seq : Word
  deriving DecidableEq, Repr

/-- First stages (R23): the AF output stage of an input, the CB input stage, the event-timer block, and every other
first stage that R63 names (the remaining streams carry the marker too). -/
inductive FirstStage where
  | input (n : Nat)
  | cb
  | et
  deriving DecidableEq, Repr

/-- Index of a first stage's MARKER_SEQ. -/
def FirstStage.index : FirstStage → Nat
  | .input n => n
  | .cb => 16
  | .et => 17

/-- A frame (R19, Table AC-4): header fields, its markers and its payload bytes. -/
structure Frame where
  stream : BitVec 16
  epoch : Byte
  flags : Byte
  seq : Word
  time : DevTime
  format : BitVec 16
  excised : BitVec 16
  contrib : BitVec 16
  source : Byte
  markers : List Marker
  payload : List Byte
  deriving DecidableEq, Repr

/-- What a stage says of lost data (R30, R37): the stream that lost it, the device time of the loss, the length in the
stream's own samples, the cause, and whether the stream ends (FINAL). -/
structure GapRec where
  stream : BitVec 16
  time : DevTime
  length : BitVec 48
  cause : BitVec 16
  final : Bool
  deriving DecidableEq, Repr

/-- A Yarenn record (R33, Table AC-10): header fields and payload. MAGIC, VERSION, LENGTH and HEADER_CRC follow from
these. -/
structure YRec where
  type : Byte
  stream : BitVec 16
  hive : BitVec 16
  seq : BitVec 64
  time : DevTime
  flags : BitVec 16
  format : BitVec 16
  gapLength : BitVec 48
  gapCause : BitVec 16
  contrib : BitVec 16
  excised : BitVec 16
  epoch : Byte
  payload : List Byte
  deriving DecidableEq, Repr

/-- The exits that form records (R37): DMA (HS), a volume (BD), a fabric stream or an export flow (KL), and the stages
that form records directly in their own shape (QUIR, COLO, beam and fabric trigger records). -/
inductive Exit where
  | dma
  | volume
  | fabric
  | direct
  deriving DecidableEq, Repr

/-- What a DRAM read of a sector finds (R411, R412): one wrong bit, or more than its code corrects. -/
inductive EccErr where
  | single (bit : Nat)
  | uncorrectable
  deriving DecidableEq, Repr

/-- A capture-memory request as it arrives (R396, R400): a write carries its data; `errs` are the errors its sectors show
when DRAM is read, by sector within the request. -/
structure CmArrival where
  port : Fin 4
  tag : Nat
  write : Bool
  urgent : Bool
  addr : Nat
  len : Nat
  data : List Byte
  errs : List (Nat × EccErr)
  deriving DecidableEq, Repr

/-- One channel's training result (R390, R415): rows per bank, ranks, refresh time and t_XSR in ps. -/
structure DramFound where
  rows : Nat
  ranks : Nat
  trfc : Nat
  txsr : Nat
  deriving DecidableEq, Repr

/-- A trigger record (R237, Table TG-2). REGION 4 is ST. -/
structure TrigRec where
  time : DevTime
  kind : Nat
  unit : Nat
  flags : Byte
  source : BitVec 16
  region : Nat
  detail : Word
  value : Word
  number : Word
  extent : Word
  deriving DecidableEq, Repr

/-- The internal correction of one input (Table CA-1): offsets of cores A and B in 2^-6 LSB, gains in 2^-20, skew in
0.05 ps. -/
structure InCal where
  offA : Int := 0
  offB : Int := 0
  gainA : Int := 1048576
  gainB : Int := 1048576
  skew : Int := 0
  deriving DecidableEq, Repr

/-- A spectrum at CB (R295, R296): its combine input, TIME, spectrum index, elements, zeroed channels, INPUT_OVR, FFT_OVF,
calibrating, SETTLING, and EXCISED count where FLAGS bit 5 was set. -/
structure CeSpec where
  x : Nat
  time : DevTime
  j : Int
  logC : Nat
  els : List (Int × Int)
  zeroed : List Nat
  inOvr : Bool
  ovf : Bool
  cal : Bool
  settling : Bool
  excised : Option Nat
  deriving DecidableEq, Repr

/-! ### Kepalink sideband messages (Tables KL-3, KL-7, KH-1, KH-2) -/

/-- TIME body (Table KL-7). -/
structure TimeMsg where
  seq : BitVec 16
  txPrev : DevTime
  rxLast : DevTime
  rxSeq : BitVec 16
  status : Byte
  deriving DecidableEq, Repr

/-- WAGGLE body (Table KH-2). -/
structure KhWaggle where
  addr : BitVec 16
  serial : BitVec 64
  port : Nat
  health : Byte
  cls : Nat
  prio : Nat
  rootSerial : BitVec 64
  rootAddr : BitVec 16
  rootClass : Nat
  rootPrio : Nat
  rootHops : Nat
  lsaSeq : Word
  deriving DecidableEq, Repr

/-- A link of an LSA: own port, peer address, peer port, WIDTH_NOW, whether UP. -/
structure KhLink where
  port : Nat
  peer : BitVec 16
  peerPort : Nat
  width : Nat
  up : Bool
  deriving DecidableEq, Repr

/-- An LSA fragment (Table KH-1). `serial` is the origin's, by which an address conflict is decided (R361); the body of
Table KH-1 does not show where it travels. -/
structure KhLsa where
  origin : BitVec 16
  serial : BitVec 64
  seq : Word
  frag : Nat
  count : Nat
  health : Byte
  links : List KhLink
  deriving DecidableEq, Repr

/-- A SWARMS fragment. -/
structure KhSwarms where
  origin : BitVec 16
  seq : Word
  frag : Nat
  ids : List Nat
  deriving DecidableEq, Repr

/-- An ANNOUNCE: the context key, destination or swarm, class, BUDGET, LEAD_NS, MAXREC, demand in MB/s, hops so far, sum of
the hops' blocking terms in ps, fewest lanes of a port so far, open or close. -/
structure KhAnnounce where
  hive : BitVec 16
  stream : BitVec 16
  swarm : Bool
  dest : BitVec 16
  cls : Nat
  budget : Nat
  lead : Nat
  maxrec : Nat
  rate : Nat
  hops : Nat
  block : Nat
  lanes : Nat
  opening : Bool
  deriving DecidableEq, Repr

/-- An ANSWER: the context key, reason code, hop that refused, accumulated path bound in ps. -/
structure KhAnswer where
  hive : BitVec 16
  stream : BitVec 16
  reason : Nat
  hop : BitVec 16
  bound : Nat
  deriving DecidableEq, Repr

/-- An MREQ and an MRSP. -/
structure KhMreq where
  target : BitVec 16
  requester : BitVec 16
  tag : BitVec 16
  write : Bool
  offset : BitVec 24
  data : Word
  deriving DecidableEq, Repr
structure KhMrsp where
  requester : BitVec 16
  tag : BitVec 16
  data : Word
  reason : BitVec 16
  deriving DecidableEq, Repr

/-- Sideband messages (Tables KL-3 and KH-1). -/
inductive SbMsg where
  | align (role port : Nat) (hive : BitVec 16) (count : BitVec 48)
  | time (m : TimeMsg)
  | swap (role spare : Nat) (count : BitVec 48)
  | ack (role : Nat) (count : BitVec 48)
  | narrow (width : Nat) (roles : List Nat) (count : BitVec 48)
  | waggle (m : KhWaggle)
  | lsa (m : KhLsa)
  | swarms (m : KhSwarms)
  | announce (m : KhAnnounce)
  | answer (m : KhAnswer)
  | credit (control stream bulk : Word)
  | addrReq (serial : BitVec 64)
  | addrGrant (serial : BitVec 64) (addr : BitVec 16)
  | mreq (m : KhMreq)
  | mrsp (m : KhMrsp)
  deriving DecidableEq, Repr

/-- A codeword as decoded (R326, Table KL-2): symbols corrected, or none when it is uncorrectable; the tags of its link
frames and their bytes; SBCTL and the sideband byte. -/
structure Codeword where
  corrected : Option Nat
  tags : List (Fin 4)
  frames : List (List Byte)
  sbctl : Fin 4
  sb : Byte
  deriving DecidableEq, Repr

/-- A start-up test that did not pass (R593, R594): the block, whether the signature was the expected one, the patterns
applied, the first failure seen. -/
structure BistTest where
  region : Fin 16
  block : Fin 256
  sig : Bool
  count : Word
  array : Fin 256
  addr : Word
  bit : Fin 256
  deriving DecidableEq, Repr

/-- An SRAM row or column that start-up BIST replaced (R594). -/
structure BistRepair where
  region : Fin 16
  block : Fin 256
  array : Fin 65536
  column : Bool
  addr : Word
  spare : Word
  deriving DecidableEq, Repr

/-- A word that the table memories of an image give a region (Table BI-3, section 21h): an equaliser entry and a static mask
word of a broad transform, a point of its user window, a weight of a beam (key as the port's), a notch, a law word. -/
inductive TableWord where
  | eq (n : Fin 16) (i : Fin 131072) (v : BitVec 16)
  | mask (n : Fin 16) (w : Fin 4096) (v : Word)
  | window (n : Fin 16) (i : Fin 16384) (v : BitVec 16)
  | weight (b : Fin 32) (x : Fin 16) (i : Fin 4096) (v : Word)
  | notch (n : Fin 16) (k : Fin 4) (freq shape : Word)
  | law (r : Fin 4) (w : Fin 2048) (v : Word)
  deriving DecidableEq, Repr

/-- What training finds on a flash channel (R421, R422, R436): whether it trained; its targets: excluded, LUNs, unique ID; the
bad-block marks they carry: LUN of the channel, unit. -/
structure BdFound where
  chan : Fin 32
  trained : Bool
  targets : List (Bool × Nat × Nat)
  marks : List (Nat × Nat)
  deriving DecidableEq, Repr

/-- Stage 2's correction of core B against core A beyond what stage 3 applies (R108): offset in LSB, gain, and skew in 0.05 ps,
each in units of 2^-32. -/
structure IlCorr where
  off : Int := 0
  gain : Int := 4294967296
  skew : Int := 0
  deriving DecidableEq, Repr

end Sys2Proof
end

