-- ==== Sys2Proof/Syntax.lean ====
section
/-! DEFINITION. Syntax.lean: the commands the block takes: one constructor for each row of the opcode table, with the
operands the model gives it (the table lists none; assumption 1). -/

namespace Sys2Proof

/-- The commands. -/
inductive Instr where
  /-- POWER_GOOD (R611): Every rail has been in range for 2 ms with POWER_FAIL_N high, so the device declares power-good and enters RESET. Every rail in range for 2 ms with POWER_FAIL_N high (R611). -/
  | powerGood
  /-- SUPPLY_OUT_OF_RANGE (R612): A rail leaves its range after power-good; the device returns to OFF within 1 µs and releases every output. A rail leaves its range (R612). -/
  | supplyOutOfRange
  /-- POWER_FAIL (R447): POWER_FAIL_N stays low for at least 1 µs; BD stops accepting records and programs the power-fail note. POWER_FAIL_N is low for 1 µs (R447). -/
  | powerFail
  /-- FUSE_READ_DONE (R39): The fuse read in RESET completes, fused repairs apply and the device enters LOADER. R39: the fuse read in RESET completes. -/
  | fuseReadDone
  /-- LOADER_SLOT_CHOICE (R512): In LOADER the loader reads the device record, chooses an image slot, checks it and either boots it or stays in LOADER. The loader chooses a slot; `size`: bytes of a supported boot flash, none for another flash (R504, R512). -/
  | loaderSlotChoice (size : Option Word)
  /-- START_BIST_DONE (R592): Start-up BIST in all regions completes or is cut short; results are acted on and the device enters CONFIGURE. R592: start-up BIST completes: tests that did not pass, rows and columns replaced, regions lost, a chip-level fault. -/
  | startBistDone (tests : List BistTest) (repairs : List BistRepair) (gone : List (Fin 16)) (chip : Option (Fin 8))
  /-- SETUP_FIRST_PASS (R541): At entry to CONFIGURE the steward applies the CM_CFG and BD_CFG entries of the setup record before training. R541: the first pass of the setup record. -/
  | setupFirstPass
  /-- DRAM_TRAINING_DONE (R415): Training of every populated DRAM channel completes or fails, setting TRAINED or TRAIN_FAIL. One entry per populated channel; none where it failed. -/
  | dramTrainingDone (found : List (Option DramFound))
  /-- FLASH_TRAINING_DONE (R422): BD finishes identifying and training its flash channels and mounts the spine. What training finds: the channels; erase units of a LUN, pages of a block, rated endurance of the class; whether each spine copy reads as valid. -/
  | flashTrainingDone (fs : List BdFound) (blocks pages rated : Nat) (v0 v1 : Bool)
  /-- FABRIC_TRAINING_DONE (R39): Fabric training of the Kepalink ports in CONFIGURE completes. R39: fabric training completes. -/
  | fabricTrainingDone
  /-- REGION_LOAD_DONE (R515): A region controller's program passes its hash check and its table memories are loaded, so the region reads READY. R515: region k's program and table memories are loaded. -/
  | regionLoadDone (k : Fin 16) (prog : List Byte) (tables : List TableWord)
  /-- SETUP_SECOND_PASS (R541): The steward applies every other setup-record entry in order, commits anything staged and moves to RUN or stays in CONFIGURE. R541: the second pass of the setup record. -/
  | setupSecondPass
  /-- STATE_REQ_RUN (R40): A write of 5h to GLOBAL_STATE_REQ.REQ returns the device from WATCH to RUN, with SYNC_RESET markers on resumed inputs. A write of 5h to GLOBAL_STATE_REQ (R40). -/
  | stateReqRun (p : Fin 5)
  /-- STATE_REQ_WATCH (R41): A write of 6h to GLOBAL_STATE_REQ.REQ moves the device from RUN to WATCH and ends the streams of inputs outside MASK. A write of 6h to GLOBAL_STATE_REQ (R41). -/
  | stateReqWatch (p : Fin 5)
  /-- STATE_REQ_SAFE (R42): A write of 7h to GLOBAL_STATE_REQ.REQ moves the device to SAFE within 20 µs, ending every stream with cause 0011h. A write of 7h to GLOBAL_STATE_REQ (R42). -/
  | stateReqSafe (p : Fin 5)
  /-- STATE_REQ_RESET (R40): A write of 1h to GLOBAL_STATE_REQ.REQ, where accepted, moves the device to RESET after recording volumes close. A write of 1h to GLOBAL_STATE_REQ (R40). -/
  | stateReqReset (p : Fin 5)
  /-- CHIP_LEVEL_FAULT (R591): A chip-level fault occurs; from CONFIGURE onwards the device enters SAFE within 20 µs with SAFE_CAUSE 080Fh. A chip-level fault of KIND 1 to 7 (R591). -/
  | chipLevelFault (kind : Fin 8)
  /-- REGISTER_WRITE (R10): A write to a register that has no row of its own, judged by the page map, access codes and enabled-block rules. R10: a write of `v` at management address `a` on path p. -/
  | registerWrite (p : Fin 5) (a : BitVec 24) (v : Word)
  /-- RC_REGISTER_READ (R10): A read of an RC field returns its value and clears it. R10: a read at `a` on path p. -/
  | rcRegisterRead (p : Fin 5) (a : BitVec 24)
  /-- COUNTER_SNAPSHOT_READ (R81): A read of the low word of a 64-bit counter pair copies both halves into the reading path's snapshot slot. R81: a read of the low word of a 64-bit pair on path p. -/
  | counterSnapshotRead (p : Fin 5) (a : BitVec 24)
  /-- DEVTIME_SNAPSHOT (R68): A read of GLOBAL_DEVTIME_0 copies device time and the COASTING and SLEWING states into the path's slot and increments SNAP_SEQ. -/
  | devtimeSnapshot (p : Fin 5)
  /-- MARKER_INSERT (R24): The first stage inserts a pending marker before the first sample at or after its requested time, setting LATE if needed. The sample of time `t` at index `off` of the frame comes next; `period` is the sample period of a stage other than an input's, 2^-48 s. -/
  | markerInsert (stage : FirstStage) (t : DevTime) (period off : Nat)
  /-- MARKER_EPOCH (R32): An EPOCH marker reaches a consumer, which adopts the new epoch of that stream's source region. A marker on stream `id` at a consumer of `region`. -/
  | markerEpoch (region : Fin 16) (id : BitVec 16) (m : Marker)
  /-- MARKER_TIME_STEP (R63): A TIME_STEP marker passes a stage, which records the realignment, ends trigger holdoff and resets sequencers. -/
  | markerTimeStep (m : Marker)
  /-- MARKER_SYNC_RESET_NOTCH (R130): A SYNC_RESET marker clears the state of every active notch and flags settling. -/
  | markerSyncResetNotch (n : Fin 16)
  /-- MARKER_SYNC_RESET_ZOOM (R161): A SYNC_RESET marker at a zoom path clears its delay lines, loads the NCO and makes the grid origin. -/
  | markerSyncResetZoom (z : Fin 64)
  /-- MARKER_SYNC_RESET_BROAD (R183): A SYNC_RESET marker at a broad transform completes old spectra, clears history and emits settling spectra from j0. -/
  | markerSyncResetBroad (n : Fin 16)
  /-- MARKER_COEF_SWAP_NOTCH (R129): A COEF_SWAP marker at stage 6 exchanges the notch banks and flags settling for new notches. -/
  | markerCoefSwapNotch (n : Fin 16)
  /-- MARKER_COEF_SWAP_ZOOM (R155): A COEF_SWAP marker at a zoom path executes the bank swap or holds it behind a running fade. -/
  | markerCoefSwapZoom (z : Fin 64)
  /-- MARKER_GAIN_SWITCH (R190): A GAIN_SWITCH marker swaps the equaliser tables and static masks, fading or holding as set. -/
  | markerGainSwitch (n : Fin 16)
  /-- MARKER_CAL_RAMP_INPUT (R134): A CAL_RAMP marker at stage 3 begins the stepped application of new system or internal correction values. -/
  | markerCalRampInput (n : Fin 16)
  /-- MARKER_CAL_RAMP_BEAM (R310): A CAL_RAMP marker at a beam begins the weight ramp, or is held while a ramp runs. -/
  | markerCalRampBeam (b : Fin 32)
  /-- EXIT_FRAME_RECEIVE (R37): The first exit stage takes a frame, fences it and forms a Yarenn record from it. `f`: a frame, or a gap record of the stream. -/
  | exitFrameReceive (e : Exit) (inst : Nat) (f : Sum Frame GapRec)
  /-- OUTPUT_BUFFER_FULL (R30): A producer with a full output buffer discards whole frames and counts the discarded samples. -/
  | outputBufferFull (id : BitVec 16)
  /-- GAP_RECORD_EMIT (R30): When a producer can deliver again it emits a gap record with the exact count and cause before its next frame. -/
  | gapRecordEmit (id : BitVec 16)
  /-- SYN_LOCK_DECLARED (R46): A synthesiser's phase error stays within LOCK_WINDOW for LOCK_N cycles; it declares lock and opens its gate. Synthesiser `b` declares lock: phase error in 0.25 ps, the loop's code, cycles held at the ceiling (R46, R48). -/
  | synLockDeclared (b : Fin 16) (err : Int) (code : BitVec 16) (held : Nat)
  /-- SYN_LOCK_LOST (R46): A synthesiser's phase error exceeds LOSS_WINDOW for 8 cycles; it declares loss of lock and gates its island. Synthesiser `b` declares loss of lock (R46). -/
  | synLockLost (b : Fin 16) (err : Int)
  /-- SYN_ENABLE (R646): A write of SYN_CTL.ENABLE stops and gates, or restarts, a synthesiser where permitted. A write of SYN_CTL.ENABLE (R646). -/
  | synEnable (p : Fin 5) (b : Fin 16) (on : Bool)
  /-- SYN_LOCK_WRITE (R50): A write to SYN_LOCK sets the lock rule or is refused with 0112h. A write of SYN_LOCK (R50). -/
  | synLockWrite (p : Fin 5) (b : Fin 16) (v : Word)
  /-- SYN_RAMP_GO (R52): A write of RAMP_GO checks the ramp profile and consistency and starts the ramp, gating the island. A write of SYN_CTL.RAMP_GO (R52). -/
  | synRampGo (p : Fin 5) (b : Fin 16)
  /-- SYN_RAMP_SEGMENT_END (R51): A ramp segment's duration expires and the next segment starts or lock counting begins. The running segment's duration is over (R51). -/
  | synRampSegmentEnd (b : Fin 16)
  /-- DCO_CEIL_UPDATE (R48): Every 100 ms the region controller recomputes DCO_CEIL from the die temperature. Region `k` recomputes DCO_CEIL; `held`: reference cycles for which the loop is then held at a lowered ceiling (R48). -/
  | dcoCeilUpdate (k : Fin 16) (held : Nat)
  /-- REF_CTL_WRITE (R57): A write of ST_REF_CTL changes source, policy or budget, possibly changing the followed reference. `j` ps is the phase measured if another reference is followed. -/
  | refCtlWrite (p : Fin 5) (v : Word) (j : Int)
  /-- REF_QUALIFIED (R55): A reference stays within ±5 ppm for 1 s and qualifies, and the timebase may follow it and measure the jump. `r`: 0 A, 1 B, 2 hive; `j` ps is the phase measured if it is followed. -/
  | refQualified (r : Fin 3) (j : Int)
  /-- REF_LOST (R58): The followed reference misses 4 cycles or leaves ±10 ppm; the timebase switches or starts coasting. As REF_QUALIFIED. -/
  | refLost (r : Fin 3) (j : Int)
  /-- COAST_SECOND (R60): Each second of coasting decrements COAST_LEFT. -/
  | coastSecond
  /-- COAST_EXHAUSTED (R60): COAST_LEFT reaches 0; EXHAUSTED is set and under STOP input and event streams end. -/
  | coastExhausted
  /-- EXHAUSTED_CLEAR (R60): A clear of EXHAUSTED with a qualified reference aligns by STEP and resumes stopped streams. -/
  | exhaustedClear (p : Fin 5)
  /-- SLEW_END (R62): The remaining jump falls to 100 ps or less and the slew ends, clearing SLEWING. -/
  | slewEnd
  /-- TIME_STEP_EXECUTE (R63): At t_s the device-time counter is loaded with the stepped value and AF synthesisers re-lock. -/
  | timeStepExecute
  /-- XO_CORRECTION (R65): Every 100 ms ST corrects the crystal frequency by its temperature model and ageing term. What the temperature model gives, 0.01 ppb. -/
  | xoCorrection (model : Int)
  /-- XO_AGE_LEARN (R66): Every 1,000 s of following, ST updates ST_XO_AGE and appends an ageing entry. Mean loop correction less the temperature model, 0.01 ppb. -/
  | xoAgeLearn (diff : Int)
  /-- XO_AGE_WRITE (R66): A host write of ST_XO_AGE replaces the learned value and appends an ageing entry. -/
  | xoAgeWrite (p : Fin 5) (v : Word)
  /-- TIME_SET_ARM (R69): A write of GLOBAL_TIME_SET_CTL.ARM latches the load and chooses its edge, requesting TIME_STEP markers in RUN. -/
  | timeSetArm (p : Fin 5) (v : Word)
  /-- TIME_LOAD (R69): At the load edge device time is set to the latched seconds with fraction 0 and PENDING clears. -/
  | timeLoad
  /-- PPS_EDGE (R70): A PPS_IN rising edge is stamped and qualifies PPS, steers the loop, or is ignored and counted. -/
  | ppsEdge (t : DevTime)
  /-- PPS_TIMEOUT (R70): Three whole seconds pass without a PPS_IN edge and PPS_OK clears. -/
  | ppsTimeout
  /-- PPS_OUT_RISE (R72): PPS_OUT rises at a whole second of device time. -/
  | ppsOutRise
  /-- PPS_OUT_FALL (R72): PPS_OUT falls 100 ms after its last rise. -/
  | ppsOutFall
  /-- SYNC_OUT_WRITE (R73): A write of ST_SYNC_n_CTL or PERIOD sets the sync output or is refused with 0114h. `period`: the write is of PERIOD, else of CTL. -/
  | syncOutWrite (p : Fin 5) (i : Fin 4) (period : Bool) (v : Word)
  /-- SYNC_OUT_EDGE (R73): A SYNC_OUT output reaches a rising or falling edge of its period. -/
  | syncOutEdge (i : Fin 4)
  /-- ET_CTL_WRITE (R78): A write of ST_ET_CTL_n sets the channel mode or enables it, with reserved values refused. -/
  | etCtlWrite (p : Fin 5) (c : Fin 32) (v : Word)
  /-- ET_EDGE (R89): A selected edge on an event input is stamped or counted as suppressed, and fed to interval, frequency and EXTERNAL units. `v`: the input voltage, microvolts, from then on; `t0`: start of the timebase cycle; `b`: the interpolator bin that holds the crossing. -/
  | etEdge (c : Fin 32) (v : Int) (t0 : DevTime) (b : Fin 64)
  /-- ET_STUCK_TIMEOUT (R90): An input stays at its active level for TIMEOUT; one STUCK entry is written and the event alarm raised. -/
  | etStuckTimeout (c : Fin 32)
  /-- IV_ENABLE (R92): Enabling an interval unit checks its channels and edges. -/
  | ivEnable (p : Fin 5) (k : Fin 16) (v : Word)
  /-- IV_WINDOW_EXPIRE (R93): At start + WINDOW the interval unit pairs the start with the nearest stop and writes an INTERVAL entry. -/
  | ivWindowExpire (k : Fin 16)
  /-- FREQ_GATE_BOUNDARY (R96): The first selected edge at or after a gate boundary closes one gate and opens the next, writing FREQ and FREQ_END. As ET_EDGE. -/
  | freqGateBoundary (c : Fin 32) (v : Int) (t0 : DevTime) (b : Fin 64)
  /-- ET_QW0_READ (R86): A read of ST_ET_QW0_n latches the head entry into the path's slot. -/
  | etQw0Read (p : Fin 5) (c : Fin 32)
  /-- ET_QW3_READ (R86): A read of ST_ET_QW3_n returns word 3 and removes the head when it is still the latched entry. -/
  | etQw3Read (p : Fin 5) (c : Fin 32)
  /-- ET_QUEUE_SPACE_RETURN (R88): Space returns to a full event queue and a back-pressure GAP entry with the discarded count is written. -/
  | etQueueSpaceReturn (c : Fin 32)
  /-- ET_FRAME_CLOSE (R82): An EVNT frame closes at 4,096 entries or 10 µs after its first entry. -/
  | etFrameClose (c : Fin 32)
  /-- ET_BLIND_END (R99): At t_s + 2 µs the event timers write a time-step GAP entry with the edges counted during the step. -/
  | etBlindEnd (c : Fin 32)
  /-- AF_INPUT_ENABLE (R116): Setting AF_IN_CTL_n.ENABLE runs the input check and starts the 20 µs settling. -/
  | afInputEnable (p : Fin 5) (n : Fin 16) (v : Word)
  /-- AF_INPUT_SETTLED (R120): After 20 µs settling the AF output stage inserts SYNC_RESET and emits an input-disabled gap if the input ran before. -/
  | afInputSettled (n : Fin 16)
  /-- AF_INPUT_DISABLE (R120): Clearing ENABLE pauses the RAW stream after the last complete sample pair. -/
  | afInputDisable (p : Fin 5) (n : Fin 16)
  /-- AF_SOURCE_CHANGE (R138): A change of SOURCE takes effect at the next even sample with a SYNC_RESET and settling flags. -/
  | afSourceChange (p : Fin 5) (n : Fin 16) (src : Fin 4)
  /-- AF_SKEW_WRITE (R107): A write of AF_IN_SKEW_n starts a slewed change of the sampling instant. -/
  | afSkewWrite (p : Fin 5) (n : Fin 16) (v : Word)
  /-- AF_RAW_FRAME_CLOSE (R117): The AF output stage closes a RAW frame at 32,768 samples with its beat map. `xs` are the conversions of the cores, `il` the interleave mismatch estimated from the signal. -/
  | afRawFrameClose (n : Fin 16) (xs : List Int) (il : IlCorr)
  /-- OVER6_TRIP (R123): The +6 dBFS comparator trips, extending the over-range tail and counting in OVER6_COUNT. The trip begins at `t` and lasts `k` samples. -/
  | over6Trip (n : Fin 16) (t : DevTime) (k : Nat)
  /-- NOTCH_SWAP_ARM (R127): A write of AF_NOTCH_SWAP_CTL_n.ARM checks the shadow bank and requests a COEF_SWAP marker. -/
  | notchSwapArm (p : Fin 5) (n : Fin 16) (v : Word)
  /-- SYSCAL_GO (R132): A write of AF_SYSCAL_CTL_n.GO starts a ZERO or FULL system-calibration step. -/
  | syscalGo (p : Fin 5) (n : Fin 16) (v : Word)
  /-- SYSCAL_MEAS_DONE (R133): After 2^24 samples the step computes and stages the offset or gain, or refuses the result. -/
  | syscalMeasDone (n : Fin 16)
  /-- SYSCAL_APPLY (R134): A write of APPLY requests a CAL_RAMP marker for the staged system values. -/
  | syscalApply (p : Fin 5) (n : Fin 16)
  /-- SYSCAL_RAMP_STEP (R134): Every 15.625 ms a ramp step moves the applied offset and gain towards the staged values. -/
  | syscalRampStep (n : Fin 16)
  /-- AF_TONE_CTL_WRITE (R136): A write of AF_TONE_CTL enables or disables the region's test tone. -/
  | afToneCtlWrite (p : Fin 5) (i : Fin 4) (v : Word)
  /-- ZP_ENABLE (R152): Setting ZP_CTL_z.ENABLE starts the path at the input's next frame or the AF SYNC_RESET. -/
  | zpEnable (p : Fin 5) (z : Fin 64) (v : Word)
  /-- ZP_DISABLE (R160): Clearing ZP_CTL_z.ENABLE cancels pending requests and ends any fade. -/
  | zpDisable (p : Fin 5) (z : Fin 64)
  /-- ZP_SWAP_ARM (R153): A write of ZP_SWAP_CTL_z.ARM requests a COEF_SWAP marker at the latched time. -/
  | zpSwapArm (p : Fin 5) (z : Fin 64) (v : Word)
  /-- ZP_SYNC_ARM (R159): A write of ZP_SWAP_CTL_z.SYNC_ARM requests a SYNC_RESET marker at the latched time. -/
  | zpSyncArm (p : Fin 5) (z : Fin 64)
  /-- ZP_FADE_END (R157): A zoom cross-fade ends and any held swap executes at the next output sample. -/
  | zpFadeEnd (z : Fin 64)
  /-- ZP_INPUT_GAP (R162): A RAW gap record reaches a zoom path, which discards the incomplete group, emits a gap and resets. -/
  | zpInputGap (z : Fin 64)
  /-- ZP_FRAME_CLOSE (R149): A zoom path closes a frame at 4,096 output samples. -/
  | zpFrameClose (z : Fin 64)
  /-- ZTU_ENABLE (R166): Setting ZP_ZTU_CTL.ENABLE checks the slots and starts the zoom transform unit. -/
  | ztuEnable (p : Fin 5) (i : Fin 4) (v : Word)
  /-- ZTU_TRANSFORM_DONE (R165): A zoom transform slot completes a P-point transform and passes it to detection. -/
  | ztuTransformDone (q : Fin 4) (i : Fin 16)
  /-- BT_ENABLE (R195): Setting BT_CTL_n.ENABLE runs the transform check and starts at the next RAW frame. -/
  | btEnable (p : Fin 5) (n : Fin 16) (v : Word)
  /-- BT_DISABLE (R191): Clearing BT_CTL_n.ENABLE cancels pending requests and ends any equaliser fade. -/
  | btDisable (p : Fin 5) (n : Fin 16)
  /-- BT_EQ_ARM (R188): A write of BT_MK_CTL_n.ARM requests a GAIN_SWITCH marker. -/
  | btEqArm (p : Fin 5) (n : Fin 16) (v : Word)
  /-- BT_SYNC_ARM (R187): A write of BT_MK_CTL_n.SYNC_ARM requests a SYNC_RESET marker. -/
  | btSyncArm (p : Fin 5) (n : Fin 16)
  /-- BT_EQ_FADE_END (R190): An equaliser fade ends and any held swap executes. -/
  | btEqFadeEnd (n : Fin 16)
  /-- BT_INPUT_GAP (R185): A RAW gap record reaches the transform, which emits a gap record and resets after the gap. -/
  | btInputGap (n : Fin 16)
  /-- BT_SPECTRUM_DONE (R180): A spectrum passes its residue checks and leaves as CHAN slices. -/
  | btSpectrumDone (n : Fin 16)
  /-- BT_EQ_DATA_ACCESS (R193): A read or write of BT_EQ_DATA_n accesses two equaliser entries and advances CH. A write of the value, or a read. -/
  | btEqDataAccess (p : Fin 5) (n : Fin 16) (v : Option Word)
  /-- BT_WIN_DATA_ACCESS (R193): A read or write of BT_WIN_DATA_n accesses two user-window points and advances I. A write of the value, or a read. -/
  | btWinDataAccess (p : Fin 5) (n : Fin 16) (v : Option Word)
  /-- PIPELINE_CHECK_FAIL (R199): A butterfly residue check fails; the pipeline holds the spectrum and is taken over by the spare. R199: a butterfly residue check fails in the pipeline that serves input n. -/
  | pipelineCheckFail (n : Fin 16)
  /-- DETECTION_SPECTRUM (R204): A spectrum reaches the detection stage, which accumulates integrators, reads out finished integrations and updates planes. `src`: 0 to 3 a broad input of the region, 16 + slot a zoom slot. -/
  | detectionSpectrum (q : Fin 4) (src : Fin 32)
  /-- DC_INT_FLUSH (R207): With no further spectrum the integrator flushes the open integration within 10 µs as a partial one. -/
  | dcIntFlush (q : Fin 4) (i : Fin 16)
  /-- DC_INT_ENABLE (R228): Setting DC_INT_CTL_I.ENABLE checks and starts an integrator. -/
  | dcIntEnable (p : Fin 5) (q : Fin 4) (i : Fin 16) (v : Word)
  /-- DC_SOURCE_DISABLED (R230): A source of an integrator or plane is disabled; it flushes, disables itself and sets 0362h. -/
  | dcSourceDisabled (q : Fin 4) (src : Fin 32)
  /-- DC_SOURCE_GAP (R214): A source gap or reset flushes integrations and emits SPEC and DENS gap records. `src` as in DETECTION_SPECTRUM. -/
  | dcSourceGap (q : Fin 4) (src : Fin 32)
  /-- DC_PL_ENABLE (R229): Setting DC_PL_CTL_Q.ENABLE checks and starts a density plane. -/
  | dcPlEnable (p : Fin 5) (q : Fin 4) (i : Fin 4) (v : Word)
  /-- DC_PL_CLEAR (R221): A write of CLEAR zeros every plane count between updates and restarts u. -/
  | dcPlClear (p : Fin 5) (q : Fin 4) (i : Fin 4)
  /-- DENS_SNAPSHOT (R222): At each multiple of PERIOD_US a plane reads its columns and emits a 64-frame snapshot. -/
  | densSnapshot (q : Fin 4) (i : Fin 4)
  /-- DC_MASK_DATA_ACCESS (R211): An access of DC_MASK_DATA_n reads or writes a shadow mask word and advances W. A write of the value, or a read. -/
  | dcMaskDataAccess (p : Fin 5) (n : Fin 16) (v : Option Word)
  /-- TG_UNIT_ENABLE (R266): Setting TG_U_CTL_u.ENABLE checks and arms a trigger unit. `r` is 0 to 3 for SP0 to SP3, 4 for ST. -/
  | tgUnitEnable (p : Fin 5) (r : Fin 5) (u : Fin 16) (v : Word)
  /-- TG_UNIT_DISABLE (R267): Disabling a trigger unit, refused when a sequencer names it. -/
  | tgUnitDisable (p : Fin 5) (r : Fin 5) (u : Fin 16)
  /-- TG_UNIT_ARM (R234): A write of ARM re-arms a SINGLE unit within 100 ns. -/
  | tgUnitArm (p : Fin 5) (r : Fin 5) (u : Fin 16)
  /-- TG_LEVEL_CROSSING (R240): A qualified level crossing is interpolated and fires the LEVEL unit. -/
  | tgLevelCrossing (q : Fin 4) (u : Fin 8)
  /-- TG_MASK_EVAL (R243): A spectrum is judged IN or OUT of the mask and the MASK unit fires under COND. Unit 8 + `u`. -/
  | tgMaskEval (q : Fin 4) (u : Fin 4)
  /-- TG_DENSITY_OVER_EVAL (R244): At a plane update the DENSITY_OVER unit sums counts above the mask and fires when enough columns exceed. Unit 8 + `u`. -/
  | tgDensityOverEval (q : Fin 4) (u : Fin 4)
  /-- TG_BAND_EVAL (R245): A band's averaged power over a group crosses its level and the band fires. -/
  | tgBandEval (q : Fin 4) (b : Fin 64)
  /-- TG_DRIFT_STEP_EVAL (R250): When step t + SPAN − 1 completes the drift unit evaluates step t over laws and widths. -/
  | tgDriftStepEval (q : Fin 4)
  /-- TG_DRIFT_CLUSTER_END (R250): At the end of a cluster the drift unit fires once for the most significant result. -/
  | tgDriftClusterEnd (q : Fin 4)
  /-- TG_HOLDOFF_END (R233): A unit's holdoff expires and a CONTINUOUS unit is armed again. -/
  | tgHoldoffEnd (r : Fin 5) (u : Fin 16)
  /-- TG_FABRIC_RECEIVE (R255): A fabric trigger record arrives through RX_SWARM and the FABRIC unit fires. -/
  | tgFabricReceive (swarm : Fin 4096) (y : YRec)
  /-- TG_HOST_FIRE (R256): A write of ST_TG_HO_FIRE.FIRE fires the HOST unit or holds it for a future time. -/
  | tgHostFire (p : Fin 5)
  /-- TG_HOST_DUE (R256): Device time reaches a held host trigger's time and the HOST unit fires. -/
  | tgHostDue
  /-- TG_SEQ_HOLD_RELEASE (R257): Device time reaches a member trigger's TIME + HOLD and the sequencer processes it. Unit 14 + `u`. -/
  | tgSeqHoldRelease (q : Fin 4) (u : Fin 2)
  /-- TG_SEQ_TIMEOUT (R257): Device time passes the window of the present state and the sequencer returns to state 0. Unit 14 + `u`. -/
  | tgSeqTimeout (q : Fin 4) (u : Fin 2)
  /-- TG_SOURCE_GAP (R259): A unit's source carries a gap or reset and the unit writes a BLIND record and resumes. -/
  | tgSourceGap (r : Fin 5) (u : Fin 16)
  /-- TG_QW0_READ (R262): A read of TG_QW0 latches the head trigger record into the path's slot. -/
  | tgQw0Read (p : Fin 5) (r : Fin 5)
  /-- TG_QW7_READ (R262): A read of TG_QW7 returns word 7 and removes the head when still latched. -/
  | tgQw7Read (p : Fin 5) (r : Fin 5)
  /-- TG_QUEUE_SPACE_RETURN (R263): Space returns to a full trigger queue and a GAP record with the discarded count is written. -/
  | tgQueueSpaceReturn (r : Fin 5)
  /-- TG_FRAME_CLOSE (R237): A TRIG frame closes at 512 records or 10 µs after its first record. -/
  | tgFrameClose (r : Fin 5)
  /-- QU_VR_ENABLE (R272): Enabling a voltage ring checks budgets and allocates capture memory. -/
  | quVrEnable (p : Fin 5) (n : Fin 16) (v : Word)
  /-- QU_RING_WRITE_LOSS (R271): Capture memory back-pressures a ring writer, which discards RAW frames from the ring copy and logs the gap. The frame is the newest one the writer holds. -/
  | quRingWriteLoss (n : Fin 16)
  /-- QU_GROUP_ENABLE (R293): Setting QU_G_CTL_g.ENABLE checks and starts a capture group. -/
  | quGroupEnable (p : Fin 5) (g : Fin 64) (v : Word)
  /-- QU_GROUP_DISABLE (R292): Disabling a group stops triggers and closes copying quires with capture-stopped gaps. -/
  | quGroupDisable (p : Fin 5) (g : Fin 64)
  /-- QU_TRIGGER_OFFER (R276): A trigger offered to a group is accepted, ignored or refused and numbered. -/
  | quTriggerOffer (g : Fin 64) (t : TrigRec)
  /-- QU_COPY_START (R284): The copy engine takes the next quire, writes QSEQ OPEN and begins copying. -/
  | quCopyStart (g : Fin 64)
  /-- QU_QUIRE_CLOSE (R284): After the last data write is visible the colophon and QSEQ CLOSED are written. -/
  | quQuireClose (g : Fin 64)
  /-- QU_RELEASE (R286): A write of QU_G_RELEASE_HI_g releases quires up to R, freeing held triggers under KEEP. -/
  | quRelease (p : Fin 5) (g : Fin 64) (v : Word)
  /-- QU_EXPORT_SLICE (R288): The group emits a QUIR slice record, and the COLO record after the last slice. -/
  | quExportSlice (g : Fin 64)
  /-- CE_XS_ENABLE (R321): Setting CE_XS_CTL.ENABLE checks the pair table and starts cross-spectra. -/
  | ceXsEnable (p : Fin 5) (v : Word)
  /-- CE_BM_ENABLE (R322): Setting CE_BM_CTL_b.ENABLE checks a beam and opens its AUTO context. -/
  | ceBmEnable (p : Fin 5) (b : Fin 32) (v : Word)
  /-- CE_SPECTRUM_ARRIVE (R296): A spectrum reaches CB, is matched by TIME and accumulated into pairs and beams. `r` is a record that the hive delivers to a remote input. -/
  | ceSpectrumArrive (x : Fin 32) (r : Option YRec)
  /-- CE_ALIGN_TIMEOUT (R297): ALIGN_US passes since a TIME's first arrival and the TIME completes. -/
  | ceAlignTimeout
  /-- CE_DUMP_TIMEOUT (R300): No spectrum of the next dump arrives within 10 µs after the dump's end, and the dump is read out. -/
  | ceDumpTimeout
  /-- CE_CHILD_RECORD (R311): A child's beam record arrives and is added to its slot or dropped as late or mismatched. -/
  | ceChildRecord (b : Fin 32) (r : YRec)
  /-- CE_SLOT_DEADLINE (R311): A beam slot reaches its ALIGN_US deadline and completes, possibly partial. -/
  | ceSlotDeadline (b : Fin 32)
  /-- CE_BM_ARM (R309): A write of CE_BM_MK_CTL_b.ARM requests a CAL_RAMP marker for a weight swap. -/
  | ceBmArm (p : Fin 5) (b : Fin 32) (v : Word)
  /-- CE_BM_RAMP_STEP (R310): A weight ramp step applies from the first slot at its time, exchanging banks at the last step. -/
  | ceBmRampStep (b : Fin 32)
  /-- CE_WT_DATA_ACCESS (R318): An access of CE_WT_DATA reads or writes a shadow weight point and advances the address. -/
  | ceWtDataAccess (p : Fin 5) (v : Option Word)
  /-- KL_PORT_ENABLE (R354): Setting KL_PORT_CTL_q.ENABLE checks a port and starts training. -/
  | klPortEnable (p : Fin 5) (dp : Fin 64) (v : Word)
  /-- KL_PORT_UP (R334): Training, codeword lock and ALIGN checks complete and the port becomes UP. -/
  | klPortUp (dp : Fin 64)
  /-- KL_PORT_DOWN (R340): A port leaves UP, and training restarts. -/
  | klPortDown (dp : Fin 64)
  /-- KL_CODEWORD_RECEIVE (R326): A codeword is received, decoded and its link frames and sideband byte taken. -/
  | klCodewordReceive (r : Fin 2) (i : Fin 68) (cw : Codeword)
  /-- KL_RECORD_RECEIVE (R328): A Yarenn record arrives whole on a Kepalink port and is forwarded or delivered. `cls`: the class whose buffer it came into. -/
  | klRecordReceive (dp : Fin 64) (cls : Fin 3) (y : YRec)
  /-- KL_RECORD_ABORT (R329): ABORT, an uncorrectable codeword or a bad HEADER_CRC discards the record in progress. -/
  | klRecordAbort (dp : Fin 64)
  /-- KL_ALIGN_SEND (R331): At each multiple of 16,384 codewords a lane sends ALIGN. -/
  | klAlignSend (r : Fin 2) (i : Fin 68)
  /-- KL_SB_ALIGN (R333): An ALIGN message arrives and is used to deskew and check the port's roles. -/
  | klSbAlign (r : Fin 2) (i : Fin 68) (role : Nat) (port : Fin 64) (hive : BitVec 16) (count : BitVec 48)
  /-- KL_SB_SWAP (R337): A SWAP message arrives and the end answers ACK with its switch count. -/
  | klSbSwap (dp : Fin 64) (role spare : Nat) (count : BitVec 48)
  /-- KL_SB_ACK (R337): An ACK message arrives, giving the peer's switch count. -/
  | klSbAck (dp : Fin 64) (role : Nat) (count : BitVec 48)
  /-- KL_SB_NARROW (R340): A NARROW message arrives and the port re-forms at the announced width. -/
  | klSbNarrow (dp : Fin 64) (width : Fin 4) (roles : List Nat) (count : BitVec 48)
  /-- KL_LANE_FAIL (R335): A lane is declared failed and retired; a spare swap or narrowing starts. -/
  | klLaneFail (r : Fin 2) (i : Fin 68)
  /-- KL_SPARE_SWITCH (R337): At the switch count the transmitter or receiver moves the failed role onto the spare. -/
  | klSpareSwitch (dp : Fin 64) (tx : Bool)
  /-- KL_SPARE_ENABLE (R355): Setting KL_SPARE_k.ENABLE checks and trains a spare lane. -/
  | klSpareEnable (p : Fin 5) (r : Fin 2) (k : Fin 4) (v : Word)
  /-- KL_FLOW_ON (R355): Setting KL_XF_CTL_f.ON checks and enables an export flow. -/
  | klFlowOn (p : Fin 5) (r : Fin 2) (f : Fin 64) (v : Word)
  /-- KL_TIME_SEND (R342): Every 10 µs role 0 of a port sends a TIME message. -/
  | klTimeSend (dp : Fin 64) (tx : DevTime)
  /-- KL_SB_TIME (R343): A TIME message arrives and the port computes offset and delay. -/
  | klSbTime (dp : Fin 64) (m : TimeMsg) (rx : DevTime)
  /-- KL_TT_CAL (R346): A write of KL_TT_CTL_q.CAL starts a cable calibration or is refused. -/
  | klTtCal (p : Fin 5) (dp : Fin 64)
  /-- KL_TT_CAL_DONE (R346): After 1 s the calibration writes ASYM and sets CAL_DONE, or lapses. -/
  | klTtCalDone (dp : Fin 64)
  /-- KL_EX_ARP (R349): An ARP request for the port's IPv4 address is answered. -/
  | klExArp (dp : Fin 64) (target asker : BitVec 32)
  /-- KL_EX_NEIGHBOR_SOLICIT (R349): A Neighbor Solicitation for the port's IPv6 address is answered. -/
  | klExNeighborSolicit (dp : Fin 64) (target asker : BitVec 128)
  /-- KL_EX_RX_DROP (R349): Any other received Ethernet frame is dropped and counted. -/
  | klExRxDrop (dp : Fin 64)
  /-- KL_EX_RECORD_SEND (R350): A record reaching an export flow is sent as consecutive UDP datagrams or discarded beyond rate. -/
  | klExRecordSend (r : Fin 2) (f : Fin 64) (y : YRec) (room : Bool)
  /-- KH_WAGGLE_SEND (R362): Every 1 ms a WAGGLE is sent on every UP port. -/
  | khWaggleSend
  /-- KH_WAGGLE_RECEIVE (R366): A WAGGLE arrives and updates neighbour and root election state. -/
  | khWaggleReceive (dp : Fin 64) (w : KhWaggle)
  /-- KH_NEIGHBOUR_LOST (R364): Three waggles are missed and the neighbour is declared lost, with a new LSA. -/
  | khNeighbourLost (dp : Fin 64)
  /-- KH_LSA_SEND (R362): Every 100 ms, or within 10 µs of a change, the device sends its LSA and SWARMS. -/
  | khLsaSend
  /-- KH_LSA_RECEIVE (R363): A newer LSA is stored and flooded, and address conflicts are detected. -/
  | khLsaReceive (dp : Fin 64) (m : KhLsa)
  /-- KH_SWARMS_RECEIVE (R363): A newer SWARMS message is stored and flooded. -/
  | khSwarmsReceive (dp : Fin 64) (m : KhSwarms)
  /-- KH_ROOT_TIMEOUT (R367): No root LSA for 300 ms; the root is forgotten and election runs again. -/
  | khRootTimeout
  /-- KH_ROOT_TAKEOVER (R367): A candidate of higher class holds it for 1 s and takes over as root. -/
  | khRootTakeover
  /-- KH_ROUTE_INSTALL (R382): New routes are installed in the KL regions and contexts move, shed or end. -/
  | khRouteInstall
  /-- KH_ADDR_REQ (R360): An ADDR_REQ arrives and is forwarded toward the root or granted there. -/
  | khAddrReq (dp : Fin 64) (serial : BitVec 64)
  /-- KH_ADDR_GRANT (R360): An ADDR_GRANT arrives and is returned or adopted as the device address. -/
  | khAddrGrant (dp : Fin 64) (serial : BitVec 64) (addr : BitVec 16)
  /-- KH_SC_ON (R376): Setting KH_SC_CTL_c.ON opens an origin context and sends ANNOUNCE. -/
  | khScOn (p : Fin 5) (c : Fin 4096) (v : Word)
  /-- KH_ANNOUNCE (R376): An ANNOUNCE arrives; the hop installs and checks a context and forwards or answers. -/
  | khAnnounce (dp : Fin 64) (m : KhAnnounce)
  /-- KH_ANSWER (R376): An ANSWER arrives and opens or refuses the context along the path. -/
  | khAnswer (dp : Fin 64) (m : KhAnswer)
  /-- KH_CREDIT_SEND (R372): Every 2 µs a port sends CREDIT with frames freed per class. -/
  | khCreditSend (dp : Fin 64)
  /-- KH_CREDIT_RECEIVE (R372): A CREDIT message updates the sender's credit counts. -/
  | khCreditReceive (dp : Fin 64) (control stream bulk : Word)
  /-- KH_RECORD_START (R371): An output port starts the oldest waiting credited record of the highest class, or expires it. -/
  | khRecordStart (dp : Fin 64)
  /-- KH_RECORD_DELIVER (R381): A destination context delivers a record, discarding stale ones and emitting gap records. `room`: the sink can take a record. -/
  | khRecordDeliver (c : Fin 4096) (room : Bool)
  /-- KH_MG_GO (R385): A write of KH_MG_CTL.GO sends an MREQ to the target device. -/
  | khMgGo (p : Fin 5) (v : Word)
  /-- KH_MREQ (R385): An MREQ arrives and the target executes it with the fabric path's domain, answering MRSP. -/
  | khMreq (dp : Fin 64) (m : KhMreq)
  /-- KH_MRSP (R385): An MRSP arrives, clearing BUSY with data and reason. -/
  | khMrsp (dp : Fin 64) (m : KhMrsp)
  /-- KH_MG_TIMEOUT (R385): 10 ms pass without MRSP and BUSY clears with 03B2h. -/
  | khMgTimeout
  /-- KH_NODE_QUERY (R384): A write of KH_NODE_Q makes KH_NODE_INFO show that node within 1 µs. -/
  | khNodeQuery (p : Fin 5) (v : Word)
  /-- CM_REQUEST (R396): A capture-memory request arrives at a channel queue, waking self-refresh if needed. -/
  | cmRequest (r : CmArrival)
  /-- CM_REFRESH_DUE (R404): A refresh falls due and is issued or postponed. -/
  | cmRefreshDue (c : Fin 16) (rank : Fin 2)
  /-- CM_MR4_POLL (R405): Every MR4_POLL µs the controller reads MR4 and applies derating or owed refreshes. `mult` is what MR4 reads: 0 for 1, 1 for 0.5 or below, 2 for 0.25; none when the read fails. -/
  | cmMr4Poll (c : Fin 16) (rank : Fin 2) (mult : Option (Fin 3))
  /-- CM_ROW_IDLE_CLOSE (R402): A bank's idle timer expires and its open row is closed. `bank` is rank * 16 + bank. -/
  | cmRowIdleClose (c : Fin 16) (bank : Nat)
  /-- CM_SR_ENTRY (R407): A channel idle for SR_IDLE clocks with tolerance enough enters self-refresh. -/
  | cmSrEntry (c : Fin 16)
  /-- CM_PATROL_READ (R413): Patrol reads the next allocated sector in idle cycles. -/
  | cmPatrolRead (err : Option EccErr)
  /-- CM_WCK_OSC_CHECK (R415): Every 64 ms the WCK-DQ oscillator runs and the write DQ delay is retrained if drifted. `drift` is in 1/256 unit interval; `stallNs` is the stall the retraining took. -/
  | cmWckOscCheck (c : Fin 16) (rank : Fin 2) (drift : Nat) (stallNs : Nat)
  /-- CM_INIT_DONE (R647): Zero-initialisation of capture memory, or of masked segments after self-refresh, completes. -/
  | cmInitDone
  /-- BD_VS_OPEN (R429): A write of BD_VS_CTL_s.OPEN checks and opens a recording volume. -/
  | bdVsOpen (p : Fin 5) (i : Fin 32) (v : Word)
  /-- BD_VS_CLOSE (R432): A write of CLOSE, or SAFE entry, pads, checkpoints and closes a volume. -/
  | bdVsClose (p : Fin 5) (i : Fin 32)
  /-- BD_RECORD_RECEIVE (R431): A record for a volume key is stored, or discarded with a later gap record. `ok`: MAGIC and HEADER_CRC match; `room`: the volume can take it. -/
  | bdRecordReceive (i : Fin 32) (y : YRec) (ok room : Bool)
  /-- BD_PROGRAM_DONE (R426): A wordline round program completes and is confirmed, or fails. `bad`: channels whose program failed. -/
  | bdProgramDone (i : Fin 32) (f : Fin 31) (bad : List (Fin 32))
  /-- BD_OPERATION_FAIL (R439): A program or erase failure retires a member; LUN or channel failure is declared when due. Channel, LUN, erase unit. -/
  | bdOperationFail (c : Fin 32) (l : Fin 32) (k : Nat)
  /-- BD_LUN_TIMEOUT (R439): An operation on a LUN exceeds 4 times its rated time and the LUN is declared failed. -/
  | bdLunTimeout (c : Fin 32) (l : Fin 32)
  /-- BD_SECTION_FULL (R433): A front needs a new section; BD takes one, wraps, or closes the volume full. -/
  | bdSectionFull (i : Fin 32) (f : Fin 31)
  /-- BD_ERASE_DONE (R434): A background erase of a section completes and its units return to the free pool. `n`: section. -/
  | bdEraseDone (n : Nat)
  /-- BD_CHECKPOINT (R444): After 1 s or 4 GiB of recording BD writes a spine checkpoint. -/
  | bdCheckpoint
  /-- BD_CAT_DEL (R434): A write of BD_CAT_DEL marks a CLOSED volume DELETING. -/
  | bdCatDel (p : Fin 5) (v : Word)
  /-- BD_PATROL_READ (R437): BD patrols leaves of CLOSED sections and schedules relocation when retention warrants. Section, most corrected bits of a codeword, step 3 or later needed. -/
  | bdPatrolRead (n worst : Nat) (soft : Bool)
  /-- BD_AGE_TICK (R437): Each hour the weighted age of every section grows by the temperature factor. -/
  | bdAgeTick
  /-- BD_FLASH_TEMP_WRITE (R437): A host write of BD_FLASH_TEMP sets the flash temperature used for ageing. -/
  | bdFlashTempWrite (p : Fin 5) (v : Word)
  /-- BD_FLASH_TEMP_TIMEOUT (R437): 600 s pass without a BD_FLASH_TEMP write and BD takes 55 °C. -/
  | bdFlashTempTimeout
  /-- BD_RELOCATE_DONE (R438): A relocated section reads back good and the spine mapping switches. -/
  | bdRelocateDone (n : Nat)
  /-- BD_REBUILD_DONE (R441): A section with a retired member is rebuilt onto a free unit. -/
  | bdRebuildDone (n : Nat)
  /-- BD_SPINE_SNAPSHOT (R443): A spine copy reaches 75 % and a snapshot is written into its unused half. -/
  | bdSpineSnapshot (c : Fin 2)
  /-- BD_RECOVERY (R448): After start each RECOVERING volume is scanned, closed at its durable end and given final gap records. Volume, durable end found, in leaves. -/
  | bdRecovery (v : Word) (e : Nat)
  /-- BD_FORMAT (R451): A custodian write of BD_CTL.FORMAT erases the data blocks and writes an empty spine. -/
  | bdFormat (p : Fin 5)
  /-- BD_QUIESCE (R451): A write of QUIESCE closes every recording volume and stops background work. -/
  | bdQuiesce (p : Fin 5)
  /-- BD_RS_GO (R452): A write of BD_RS_CTL_r.GO starts a read session delivering a volume's records. -/
  | bdRsGo (p : Fin 5) (r : Fin 4) (v : Word)
  /-- BD_RS_STOP (R452): A write of STOP ends a read session. -/
  | bdRsStop (p : Fin 5) (r : Fin 4)
  /-- BD_LEAF_READ (R424): A leaf read completes through the read ladder, reconstructed or lost. -/
  | bdLeafRead (r : Fin 4) (lost : Bool)
  /-- PCIE_LINK_UP (R644): PCIe link training completes and UP, speed and width are reported. PCI Express link training completes at `speed` and `width` (R644). -/
  | pcieLinkUp (speed : Fin 8) (width : Fin 16)
  /-- PE_PERST (R634): PE_PERST_N low for at least 1 µs resets HS as a hot reset. PE_PERST_N low for 1 µs or more: a hot reset of HS (R634). -/
  | pePerst
  /-- PCIE_FUNCTION_RESET (R457): A function-level or hot reset stops DMA, empties queues and resets window 15 registers. A function-level or hot reset (R457). -/
  | pcieFunctionReset
  /-- WINDOW_M_REQUEST (R458): A PCIe request to window M is performed as aligned 32-bit management accesses. R458: a request to window M; `bs` a write's bytes. -/
  | windowMRequest (write : Bool) (addr : BitVec 24) (len : Fin 4097) (bs : List Byte)
  /-- WINDOW_D_READ (R459): A PCIe read of window D returns capture-memory data or is denied. A PCI Express read of `n` bytes at offset `o` of window D (R459). -/
  | windowDRead (o : BitVec 36) (n : Fin 4097)
  /-- WINDOW_D_WRITE (R460): A PCIe write of window D writes capture memory or is discarded. A PCI Express write of window D (R460). -/
  | windowDWrite (o : BitVec 36) (bs : List Byte)
  /-- DMA_ENABLE (R468): Setting DMA_CTL_c.ENABLE checks the SHARE sum and completion queue. A write of DMA_CTL_c that sets ENABLE (R468). -/
  | dmaEnable (p : Fin 5) (c : Fin 64) (v : Word)
  /-- DMA_DISABLE (R467): Clearing ENABLE on a running channel lets requests end and leaves it idle. A write of DMA_CTL_c that clears ENABLE (R467). -/
  | dmaDisable (p : Fin 5) (c : Fin 64)
  /-- DMA_GO (R464): A write of DMA_CTL_c.GO starts the channel's descriptor list. A write of DMA_CTL_c.GO (R464). -/
  | dmaGo (p : Fin 5) (c : Fin 64)
  /-- DMA_ABORT (R467): A write of ABORT clears a halt and the list position. A write of DMA_CTL_c.ABORT (R467). -/
  | dmaAbort (p : Fin 5) (c : Fin 64)
  /-- DMA_DESCRIPTOR_FETCHED (R462): A descriptor arrives, is checked and its data requests start, or it is refused and the channel halts. The descriptor's read completes; `host` is what host memory answered (R462). -/
  | dmaDescriptorFetched (c : Fin 64) (host : Option (List Byte))
  /-- DMA_REQUEST_COMPLETION (R466): A data request completes; an error halts the channel with BUS_ERROR and maybe LATE_ERROR. One data request completes; `host` is what host memory answered and `all` says no request is outstanding (R466). -/
  | dmaRequestCompletion (c : Fin 64) (host : Option (List Byte)) (all : Bool)
  /-- DMA_DESCRIPTOR_CONFIRMED (R465): The confirming step succeeds and the channel posts the completion and moves on. The confirming step ends (R465). -/
  | dmaDescriptorConfirmed (c : Fin 64) (ok : Bool)
  /-- DMA_SINK_RECORD (R469): A record reaches a SINK channel and is written into the buffer or discarded. A record reaches a SINK channel (R469). -/
  | dmaSinkRecord (c : Fin 64) (y : YRec)
  /-- DMA_SINK_FLUSH (R469): FLUSH_US passes since a buffer's first byte and the buffer completes. FLUSH_US passes since the buffer's first byte (R469). -/
  | dmaSinkFlush (c : Fin 64)
  /-- DMA_COMPLETION_ROOM (R474): A held completion entry fits its queue and the producer continues. A held completion of a channel or a queue fits its queue (R474). -/
  | dmaCompletionRoom (w : Sum (Fin 64) (Fin 32))
  /-- HQ_ENABLE (R471): Enabling a queue port checks depth, kind and result queue. A write of HQ_CTL_q that sets ENABLE (R471). -/
  | hqEnable (p : Fin 5) (q : Fin 32) (v : Word)
  /-- HQ_LO_READ (R473): A read of LO on an outbound queue latches the entry at P. A read of LO of an outbound queue; `err` counts the wrong bits of the stored entry (R473). -/
  | hqLoRead (q : Fin 32) (aligned : Bool) (err : Fin 3)
  /-- HQ_HI_READ (R473): A read of HI returns the latched entry's bytes 8 to 15 and advances P when V = 1. A read of HI of an outbound queue (R473). -/
  | hqHiRead (q : Fin 32) (aligned : Bool)
  /-- HQ_CMD_MARK (R473): CMD 1h sets the mark M to P. CMD 1h (R473). -/
  | hqCmdMark (q : Fin 32)
  /-- HQ_CMD_REWIND (R473): CMD 2h sets P to M. CMD 2h (R473). -/
  | hqCmdRewind (q : Fin 32)
  /-- HQ_CMD_RELEASE (R473): CMD 3h sets M to P and frees every entry before P. CMD 3h (R473). -/
  | hqCmdRelease (q : Fin 32)
  /-- HQ_LO_WRITE (R475): A write of LO on an inbound queue latches entry bytes 0 to 7. A write of LO of an inbound queue (R475). -/
  | hqLoWrite (q : Fin 32) (aligned : Bool) (v : BitVec 64)
  /-- HQ_HI_WRITE (R475): A write of HI appends the entry, holding the write while the queue is full. A write of HI of an inbound queue (R475). -/
  | hqHiWrite (q : Fin 32) (aligned : Bool) (v : BitVec 64)
  /-- HQ_DESC_START (R476): A DESC entry at the head starts its channel's list once the channel is idle. A DESC queue's head may start its channel (R476). -/
  | hqDescStart (q : Fin 32) (err : Fin 3)
  /-- HQ_MGMT_EXECUTE (R476): A MGMT entry is executed with the window M domain and a result posted when asked. R476: the head of MGMT queue q; `err` as HQ_LO_READ's. -/
  | hqMgmtExecute (q : Fin 32) (err : Fin 3)
  /-- MSIX_UNMASK (R478): Host software unmasks a vector and a pending interrupt is signalled. Host software unmasks vector `v` (R478). -/
  | msixUnmask (v : Fin 256)
  /-- DS_HEAD_ENABLE (R502): Setting DS_CTL_h.ENABLE checks and starts a display head. A write of DS_CTL_h that sets ENABLE (R502). -/
  | dsHeadEnable (p : Fin 5) (h : Fin 2) (v : Word)
  /-- DS_HPD_RISE (R484): HPD rises and the head trains the link. HPD of head h rises (R484). -/
  | dsHpdRise (h : Fin 2)
  /-- DS_HPD_FALL (R484): HPD falls; TRAINED clears and the lanes stop. HPD falls (R484). -/
  | dsHpdFall (h : Fin 2)
  /-- DS_IRQ_HPD (R484): On IRQ_HPD the head reads link status and retrains when lock is lost. IRQ_HPD; `lost`: the sink's link status shows lock lost (R484). -/
  | dsIrqHpd (h : Fin 2) (lost : Bool)
  /-- DS_TRAIN_RETRY (R484): After failed training the head retries every 100 ms. 100 ms after failed training (R484). -/
  | dsTrainRetry (h : Fin 2)
  /-- DS_AUX_GO (R485): A write of DS_AUX_CMD_h.GO starts an AUX transaction. A write of DS_AUX_CMD_h with GO (R485). -/
  | dsAuxGo (p : Fin 5) (h : Fin 2) (v : Word)
  /-- DS_AUX_REPLY (R485): An AUX reply arrives and BUSY clears. The reply to the host's AUX transaction (R485). -/
  | dsAuxReply (h : Fin 2) (reply : Fin 16) (data : List Byte)
  /-- DS_AUX_TIMEOUT (R485): 400 µs pass without reply; TIMEOUT is set. 400 µs without reply (R485). -/
  | dsAuxTimeout (h : Fin 2)
  /-- DS_FRAME_START (R491): A frame starts; surface changes and palettes apply and signatures are checked for freeze. A frame starts (R491). -/
  | dsFrameStart (h : Fin 2)
  /-- DS_UNDERRUN (R497): A layer's data is missing when due; it becomes transparent for the frame. A layer's data for the pixel at raster position `pos` is missing (R497). -/
  | dsUnderrun (h : Fin 2) (l : Fin 4) (pos : BitVec 24)
  /-- DS_DENS_SNAPSHOT (R488): A complete DENS snapshot arrives and is written into the back surface. The frames of a DENS snapshot reach the head (R488). -/
  | dsDensSnapshot (h : Fin 2) (fs : List Frame)
  /-- DS_SPEC_INTEGRATION (R489): A SPEC integration or gap arrives and a spectrogram line or trace is drawn. The slices of a SPEC integration, or a gap record, reach the head (R489). -/
  | dsSpecIntegration (h : Fin 2) (x : Sum (List Frame) GapRec)
  /-- DS_PAL_DATA_ACCESS (R487): An access of DS_PAL_DATA_h reads or writes a shadow palette entry and advances I. A write (with a value) or a read of DS_PAL_DATA_h (R487). -/
  | dsPalDataAccess (p : Fin 5) (h : Fin 2) (v : Option Word)
  /-- BI_OPEN (R517): A write of BI_CTL.OPEN opens an update session and starts erasing the target slot. A write of BI_CTL with OPEN (R517). -/
  | biOpen (p : Fin 5) (v : Word)
  /-- BI_ERASE_DONE (R518): Erasing the target slot completes and the session enters WRITING. The target slot is erased (R518). -/
  | biEraseDone
  /-- BI_DATA_WRITE (R518): A write of BI_DATA appends 4 bytes, held while the program buffer is full. A write of BI_DATA (R518). -/
  | biDataWrite (p : Fin 5) (v : Word)
  /-- BI_COMMIT (R519): A write of COMMIT reads back the slot for checking. A write of BI_CTL with COMMIT and ROLLBACK (R519). -/
  | biCommit (p : Fin 5) (rollback : Bool)
  /-- BI_CHECK_DONE (R519): The read-back check ends and arms the slot or refuses with 0908h. The read-back check ends (R519). -/
  | biCheckDone
  /-- BI_CLOSE (R520): A write of CLOSE ends the session without effect. A write of BI_CTL.CLOSE (R520). -/
  | biClose (p : Fin 5)
  /-- BI_SESSION_EXPIRE (R520): 10 s without access by the holder expire the session. 10 s pass without access by the holder (R520). -/
  | biSessionExpire
  /-- BI_BOOT (R521): A write of BOOT in LOADER checks the slots and leaves for BIST when one passes. A write of BI_CTL.BOOT (R521). -/
  | biBoot (p : Fin 5)
  /-- BI_HOLD_NEXT (R521): A write of HOLD_NEXT appends entry 06h so the next start stays in LOADER. A write of BI_CTL.HOLD_NEXT (R521). -/
  | biHoldNext (p : Fin 5)
  /-- BI_FUSE_BLOW (R522): A custodian write of BI_FUSE.BLOW blows a key slot with the staged hash. A write of BI_FUSE.BLOW for key slot `k` (R522). -/
  | biFuseBlow (p : Fin 5) (k : Fin 4)
  /-- BI_FUSE_REVOKE (R522): A custodian write of BI_FUSE.REVOKE revokes a key slot. A write of BI_FUSE.REVOKE for key slot `k` (R522). -/
  | biFuseRevoke (p : Fin 5) (k : Fin 4)
  /-- I2C_TRANSACTION (R525): An I2C transaction sets the offset, writes or reads a management location. R525: a read transaction, or a write transaction of `bs`. -/
  | i2cTransaction (read : Bool) (bs : List Byte)
  /-- JTAG_MGMT_ACCESS (R526): Update-DR with the MGMT instruction starts one management access. R526: Update-DR with the 64-bit register. -/
  | jtagMgmtAccess (dr : BitVec 64)
  /-- UART_REQUEST (R527): A debug UART request performs a management write or read and replies. R527: a debug UART request. -/
  | uartRequest (op : Byte) (a : BitVec 24) (v : Word)
  /-- PROT_STAGE_WRITE (R535): A custodian write to a staged protection register stages it and takes stage ownership. A write of a protection register at window 0 offset `o` (R535). -/
  | protStageWrite (p : Fin 5) (o : BitVec 12) (v : Word)
  /-- PROT_COMMIT (R536): A write of PROT_COMMIT.COMMIT puts the staged protection set into force at one point. A write of PROT_COMMIT with COMMIT (R536). -/
  | protCommit (p : Fin 5) (v : Word)
  /-- PROT_DISCARD (R535): A write of PROT_COMMIT.DISCARD reverts staged copies to active. A write of PROT_COMMIT.DISCARD (R535). -/
  | protDiscard (p : Fin 5)
  /-- PROT_STAGE_EXPIRE (R535): The stage owner makes no PROT access for 10 s and the stage reverts. The stage owner makes no access for 10 s (R535). -/
  | protStageExpire
  /-- ALARM_HOLD_EXPIRE (R549): 1 ms after an alarm element, held raises of that kind are collapsed into one element. 1 ms passes since the element of kind `a` in a region (R549). -/
  | alarmHoldExpire (region a : Fin 16)
  /-- ALARM_CLEAR (R548): A W1C clear of REGION_ALARM_STATUS clears a bit, re-raised at once for a level kind whose condition holds. A write of ones to REGION_ALARM_STATUS (R548). -/
  | alarmClear (p : Fin 5) (region : Fin 16) (v : BitVec 16)
  /-- CA_GO (R558): A write of CA_CTL.GO starts a calibration run. -/
  | caGo (p : Fin 5)
  /-- CA_INPUT_MEAS_DONE (R562): An input measurement ends; gap records and SYNC_RESET are emitted and the next input starts. `x` is what AF region `i` measured of its present input. -/
  | caInputMeasDone (i : Fin 4) (x : InCal)
  /-- CA_INTERPOLATOR_EXCHANGE (R557): An event channel's measured interpolator is exchanged at a boundary between stamps. Widths in 2^-12 ps, delay in 2^-8 ps. -/
  | caInterpolatorExchange (c : Fin 32) (widths : List Nat) (delay : Int)
  /-- CA_RUN_STORE (R567): At the end of a run results are stored in a slot and CAL_RAMP markers requested. Slope and TDC gain of the synthesisers, in the order of Table FT-9. -/
  | caRunStore (syn : List (Word × Word))
  /-- CA_RAMP_STEP (R570): A calibration ramp step applies to an input from its step time. -/
  | caRampStep (n : Fin 16)
  /-- CA_TEMP_EVAL (R568): Every 100 ms each region evaluates corrections at its die temperature. AF region `i`. -/
  | caTempEval (i : Fin 4)
  /-- SRAM_CORRECTION (R578): A correctable SRAM error is corrected and the word rewritten, with row repair after 16 corrections. R578: a correctable SRAM error in region k. -/
  | sramCorrection (k : Fin 16) (b : Fin 256) (array : Fin 65536) (row : Word)
  /-- BLOCK_CHECK_FAIL (R581): A block's check fails; it declares itself failed and the region controller starts takeover. R581: a check of block b of region k fails. -/
  | blockCheckFail (k : Fin 16) (b : Fin 256) (array : Fin 256) (addr : Word) (bit : Fin 256)
  /-- BLOCK_TAKEOVER_DONE (R581): The spare serves the duty; gap record and EPOCH marker precede its first frame. R581: the spare of region k's running takeover serves the duty. -/
  | blockTakeoverDone (k : Fin 16)
  /-- REGION_POLL_MISS (R590): A region controller misses two steward polls and the region is declared lost. R590: region k's controller misses two polls. -/
  | regionPollMiss (k : Fin 16)
  /-- PATROL_TEST_START (R596): Every PERIOD_S / B a region hands a block's duty to a spare and starts its patrol test. R596: region k's next patrol test; `matched`: a zoom spare's outputs matched. -/
  | patrolTestStart (k : Fin 16) (matched : Bool)
  /-- PATROL_TEST_DONE (R599): A patrol test ends; the block becomes the free spare or is quarantined. R599: a patrol test ends. -/
  | patrolTestDone (k : Fin 16) (sig : Bool) (count : Word) (array : Fin 256) (addr : Word) (bit : Fin 256)
  /-- FT_READMIT (R584): A custodian write of READMIT runs full BIST on a quarantined block. R584: a write of REGION_BIST_CTL. -/
  | ftReadmit (p : Fin 5) (k : Fin 16) (v : Word)
  /-- FT_READMIT_DONE (R584): The readmission BIST ends; the block becomes a free spare or stays quarantined. R584: the readmission BIST ends. -/
  | ftReadmitDone (k : Fin 16) (sig : Bool) (count : Word) (array : Fin 256) (addr : Word) (bit : Fin 256)
  /-- FT_FUSE_BLOW (R602): A custodian write of ST_FT_FUSE.BLOW fuses every unfused soft repair. R602: a write of ST_FT_FUSE.BLOW. -/
  | ftFuseBlow (p : Fin 5)
  /-- FT_TEMP_READ (R605): Every 1 ms ST reads the hottest junction temperature and accounts time above 150 °C. R605: the three junction temperatures, signed, 1/16 degree. -/
  | ftTempRead (t0 t1 t2 : BitVec 16)
  /-- FT_THERMAL_ACCOUNT (R600): Every 60 s the steward appends the thermal account to the repair record. R600: the thermal account, every 60 s. -/
  | ftThermalAccount
  /-- DMA_COMPLETION_TIMEOUT (R466): A PCI Express request of a DMA descriptor receives no completion within the completion timeout; the channel halts with BUS_ERROR, latches the address and signals its vector. A request of the channel receives no completion within the time-out (R466). -/
  | dmaCompletionTimeout (c : Fin 64) (all : Bool)
  /-- DS_LINK_TRAINING_DONE (R484): DisplayPort link training of a head at LANES and RATE ends, setting TRAINED or, on failure, raising the display alarm and scheduling a retry. Link training ends (R484). -/
  | dsLinkTrainingDone (h : Fin 2) (ok : Bool)
  /-- BI_PAGE_PROGRAM_DONE (R518): A boot-flash page program of an update session completes, freeing space in the 4 KiB program buffer and releasing a held BI_DATA write. A page program of `n` bytes completes (R518). -/
  | biPageProgramDone (n : Fin 4097)
  /-- FREQ_GATE_EMPTY_END (R97): A FREQUENCY-mode gate ends holding fewer than two selected edges, and FREQ and FREQ_END entries with the gate-end time and a count of 0 are written. -/
  | freqGateEmptyEnd (c : Fin 32)
  deriving DecidableEq, Repr

end Sys2Proof
end

