-- ==== Sys2Proof/Decode.lean ====
section
/-! DEFINITION. Decode.lean: the opcode table of this block gives bits to none of its rows: its rows are commands from outside, not
encoded instructions. So no word spells a command. -/

namespace Sys2Proof

/-- The command that a word of the opcode table's bits spells: no row gives bits, so none. -/
def decodeTableWord (_nbits _w : Nat) : Option Instr := none

end Sys2Proof
end

