-- ==== Sys2Proof/Config.lean ====
section
/-! DEFINITION. Config.lean: what one implementation fixes and the spec does not state. Every constant here is opaque:
no proof can see its value, so a claim holds whatever it is. -/

namespace Sys2Proof

/-- The free value: bits the spec leaves open, a fresh 64 of them for each value of the counter `State.freshCount`
(assumption 2). -/
opaque Config.freeBits : Nat → BitVec 64

/-- The expected pattern count of the test of block `b` of region `k`: a fixed figure of stepping B0 that the manual does
not list (R606; assumption 17). -/
opaque Config.patternCount : Nat → Nat → BitVec 32

/-- The demand in MB/s that a stream whose records follow events declares (EVNT, TRIG, QUIR, COLO, ALRM): R375 refers to
the owning chapters, which state none (assumption 20). -/
opaque Config.eventRate : Nat → BitVec 16

/-- SHA-384 (R507, R508, R511, R515), named by the spec and not defined in it; the 48 bytes of the digest, first byte in
bits 7:0 (assumption 27). -/
opaque Config.sha384 : List Byte → BitVec 384

/-- ECDSA P-384 verification (Table BI-2): public key, signed bytes, signature (assumption 27). -/
opaque Config.ecdsaP384 : List Byte → List Byte → List Byte → Bool

/-- Which of its two neighbours the word of stage `stage` takes for the exact value `num / den` between them, where the manual
states a word and no rounding (R110, R141; assumption 9). -/
opaque Config.roundUp : Nat → Int → Nat → Bool

/-- Odd-offset coefficient `j` (0 next to the centre) of half-band preset `preset`, 20 bits in units of 2^-19 (R145): the manual
gives the presets' properties and not their coefficients (assumption 10). -/
opaque Config.halfTap : Nat → Nat → BitVec 20

/-- What the interleave correction adds to a sample of core B for a skew in 2^-32 of 0.05 ps, given the sample and those before it,
newest first (R108): the manual gives no interpolation (assumption 43). -/
opaque Config.skewTerm : Int → List Int → Int

/-- One step of a spur notch at sample rate `fs` with FREQ, WIDTH and ORDER: from its state (empty: zero) and its input, its
output and new state (chapter 04, "Spur notches"; assumption 44). -/
opaque Config.notchStep : Nat → Nat → Nat → Nat → List Int → Int → Int × List Int

/-- Peak amplitude in 1/256 code, and phase in 2^-20 turn, of the test tone of an AF region at ATTEN (R135): the manual bounds
the level to 0.5 dB and states no phase (assumption 45). -/
opaque Config.toneLevel : Nat → Nat → Nat
opaque Config.tonePhase : Nat → Nat → Nat

/-- The 496 parity bytes of a leaf's codeword of 4,112 bytes (R423): the manual gives the code's size and reach and not the code
(assumption 60). -/
opaque Config.ldpcParity : List Byte → List Byte

/-- Halvings of a zoom transform of 2^p points from the exact sum to its 24-bit points (R165): the manual gives no scale
(assumption 50). -/
opaque Config.zoomScale : Nat → BitVec 5

end Sys2Proof
end

