-- ==== Sys2Proof/Machine/RegMap.lean ====
section
/-! DEFINITION. Machine/RegMap.lean: the register space of the device (R8 to R10, R545). Every register the
chapters define, with its window class, its offset, its index strides, the access code of each of its bits (Table SC-4)
and its reset value, as the field tables of the spec give them; and one name for every field. Register NAMES are the
spec's; a register's address function has that name, a field constant is REGISTER_FIELD. -/

namespace Sys2Proof.Machine

/-- A field of a register: the register's management address and the field's highest and lowest bit. -/
structure Fld where
  addr : Nat
  hi : Nat
  lo : Nat
  deriving DecidableEq, Repr

/-- The registers of the device, by name. -/
inductive RegName where
  | GLOBAL_DEVSTATE
  | GLOBAL_STATE_REQ
  | GLOBAL_WATCH_INPUTS
  | SYN_CTL
  | SYN_LOCK
  | SYN_STATUS
  | SYN_TARGET
  | SYN_DCO
  | SYN_RAMP
  | SYN_CLAMP_COUNT
  | SYN_SEG_KHZ
  | SYN_SEG_NS
  | ST_REF_CTL
  | ST_REF_STATUS
  | ST_PHASE_JUMP
  | ST_PPS_DELAY
  | ST_XO_AGE
  | GLOBAL_DEVTIME_0
  | GLOBAL_DEVTIME_1
  | GLOBAL_DEVTIME_2
  | GLOBAL_TIME_SET_SEC
  | GLOBAL_TIME_SET_CTL
  | ST_SYNC_CTL
  | ST_SYNC_PERIOD
  | ST_ET_CTL
  | ST_ET_THRESH
  | ST_ET_GATE
  | ST_ET_STUCK
  | ST_ET_QW
  | ST_ET_QLEVEL
  | ST_ET_EDGES_LO
  | ST_ET_EDGES_HI
  | ST_ET_SUPPRESSED
  | ST_ET_DROPPED
  | ST_IV_CTL
  | ST_IV_WINDOW
  | ST_IV_ABANDONED
  | AF_IN_CTL
  | AF_IN_STATUS
  | AF_IN_OVR_CTL
  | AF_IN_OVR_COUNT_LO
  | AF_IN_OVR_COUNT_HI
  | AF_IN_SKEW
  | AF_IN_PATTERN
  | AF_SYSCAL_CTL
  | AF_SYSCAL_FREQ
  | AF_SYSCAL_AMPL
  | AF_SYSCAL_MEAS
  | AF_SYSCAL_OFFSET
  | AF_SYSCAL_GAIN
  | AF_SYSCAL_ACT_GAIN
  | AF_NOTCH_FREQ
  | AF_NOTCH_SHAPE
  | AF_NOTCH_ACT_FREQ
  | AF_NOTCH_ACT_SHAPE
  | AF_NOTCH_SWAP_SEC
  | AF_NOTCH_SWAP_FRAC
  | AF_NOTCH_SWAP_CTL
  | AF_TONE_CTL
  | AF_TONE_SET
  | ZP_CTL
  | ZP_CFG
  | ZP_STATUS
  | ZP_SWAP_SEC
  | ZP_SWAP_FRAC
  | ZP_SWAP_CTL
  | ZP_SAT_COUNT
  | ZP_DEFER_COUNT
  | ZP_DONE_SEC
  | ZP_DONE_FRAC
  | ZP_SH_FTW_LO
  | ZP_SH_FTW_HI
  | ZP_SH_MODE
  | ZP_ACT_FTW_LO
  | ZP_ACT_FTW_HI
  | ZP_ACT_MODE
  | ZP_SH_COEF
  | ZP_ACT_COEF
  | ZP_ZTU_CTL
  | ZP_ZTU_SLOT
  | BT_CTL
  | BT_CFG
  | BT_SHIFT
  | BT_STATUS
  | BT_OVF_COUNT
  | BT_SAT_COUNT
  | BT_MK_CTL
  | BT_MK_SEC
  | BT_MK_FRAC
  | BT_EQ_DONE_SEC
  | BT_EQ_DONE_FRAC
  | BT_EQ_ADDR
  | BT_EQ_DATA
  | BT_WIN_ADDR
  | BT_WIN_DATA
  | BT_PIPE_MAP
  | DC_INT_CTL
  | DC_INT_SRC
  | DC_INT_CFG
  | DC_INT_M
  | DC_INT_SK
  | DC_INT_ID
  | DC_INT_STATUS
  | DC_INT_FLAGGED
  | DC_INT_PARTIALS
  | DC_INT_DONE
  | DC_PL_CTL
  | DC_PL_SRC
  | DC_PL_CFG
  | DC_PL_ROWS
  | DC_PL_DECAY
  | DC_PL_DUMP
  | DC_PL_UPD_LO
  | DC_PL_UPD_HI
  | DC_PL_STATUS
  | DC_PL_SAT_COUNT
  | DC_PL_CLIP_COUNT
  | DC_MASK_ADDR
  | DC_MASK_DATA
  | TG_QW
  | TG_QCTL
  | TG_QLEVEL
  | TG_QDROPPED
  | TG_U_CTL
  | TG_U_HOLDOFF
  | TG_U_STATUS
  | TG_U_FIRED
  | TG_U_SUPPRESSED
  | TG_LV_SRC
  | TG_LV_LEVEL
  | TG_LV_HYST
  | TG_MK_SRC
  | TG_MK_MIN
  | TG_MK_NPTS
  | TG_MK_PADDR
  | TG_MK_PDATA
  | TG_BP_AVG
  | TG_BP_SRC
  | TG_BP_FIRST
  | TG_BP_LAST
  | TG_BP_LEVEL
  | TG_DR_SRC
  | TG_DR_GEOM
  | TG_DR_STEP
  | TG_DR_SPAN
  | TG_DR_THRESH
  | TG_DR_F0_KHZ
  | TG_DR_LAW_ADDR
  | TG_DR_LAW_DATA
  | TG_DR_WIDTHS
  | TG_DR_LAT_NS
  | TG_SQ_CFG
  | TG_SQ_MEMBER
  | TG_SQ_WIN
  | TG_SQ_HOLD
  | TG_SQ_STATE
  | ST_TG_EX_SRC
  | ST_TG_FB_CFG
  | ST_TG_HO_SEC
  | ST_TG_HO_FRAC
  | ST_TG_HO_FIRE
  | QU_VR_CTL
  | QU_VR_SIZE
  | QU_VR_LOST
  | QU_VR_STATUS
  | QU_G_CTL
  | QU_G_INPUTS
  | QU_G_LEN
  | QU_G_PRE
  | QU_G_AREA
  | QU_G_RATE
  | QU_G_TRIG
  | QU_G_NQ
  | QU_G_NEXT_LO
  | QU_G_NEXT_HI
  | QU_G_CLOSED_LO
  | QU_G_CLOSED_HI
  | QU_G_RELEASE_LO
  | QU_G_RELEASE_HI
  | QU_G_IGNORED
  | QU_G_REFUSED
  | QU_G_OVERRUN
  | QU_G_BASE_LO
  | QU_G_BASE_HI
  | QU_G_COLO_LO
  | QU_G_COLO_HI
  | QU_G_STATUS
  | CE_RIN_SRC
  | CE_RIN_CFG
  | CE_RIN_DROP
  | CE_XS_CTL
  | CE_XS_CFG
  | CE_XS_STATUS
  | CE_XS_SAT_COUNT
  | CE_XS_UNMATCHED
  | CE_XS_DONE
  | CE_BM_SAT_COUNT
  | CE_XP_SEL
  | CE_XP_RANGE
  | CE_BM_CTL
  | CE_BM_INPUTS
  | CE_BM_RANGE
  | CE_BM_RED
  | CE_BM_PARENT
  | CE_BM_CHILD
  | CE_BM_MK_CTL
  | CE_BM_MK_SEC
  | CE_BM_MK_FRAC
  | CE_BM_RAMP_NS
  | CE_BM_RAMP_STEPS
  | CE_BM_PARTIAL
  | CE_BM_LATE
  | CE_BM_DONE_SEC
  | CE_BM_DONE_FRAC
  | CE_WT_ADDR
  | CE_WT_DATA
  | KL_LANE_STATUS
  | KL_LANE_CORR_LO
  | KL_LANE_CORR_HI
  | KL_LANE_UNCORR
  | KL_LANE_LIMIT
  | KL_SPARE
  | KL_PORT_CTL
  | KL_PORT_STATUS
  | KL_PORT_PEER
  | KL_PORT_ABORTS
  | KL_PORT_SBERR
  | KL_TT_CTL
  | KL_TT_ASYM
  | KL_TT_OFFSET
  | KL_TT_DELAY
  | KL_TT_STATUS
  | KL_EX_CTL
  | KL_EX_MAC_LO
  | KL_EX_MAC_HI
  | KL_EX_IP4
  | KL_EX_IP6
  | KL_EX_RXDROP
  | KL_XF_CTL
  | KL_XF_DPORT
  | KL_XF_DMAC_LO
  | KL_XF_DMAC_HI
  | KL_XF_DIP4
  | KL_XF_DIP6
  | KL_XF_DGRAMS
  | KL_XF_DROPPED
  | KH_CFG
  | KH_ADDR
  | KH_STATUS
  | KH_ROOT
  | KH_POOL
  | KH_SERIAL_LO
  | KH_SERIAL_HI
  | KH_NODE_Q
  | KH_NODE_INFO
  | KH_EXPIRED
  | KH_NOCTX
  | KH_TOPO
  | KH_MG_CTL
  | KH_MG_DEST
  | KH_MG_ADDR
  | KH_MG_DATA
  | KH_SWARM
  | KH_SC_KEY
  | KH_SC_CTL
  | KH_SC_DEST
  | KH_SC_LAT
  | KH_SC_LEAD
  | KH_SC_SINK
  | KH_SC_STATUS
  | KH_SC_DROP
  | KH_SC_MAXREC
  | KH_SC_RATE
  | CM_CFG
  | CM_SCHED
  | CM_PAGE
  | CM_REF
  | CM_SR
  | CM_STATUS
  | CM_SIZE_MIB
  | CM_CH_STATUS
  | CM_CH_CE
  | CM_CH_UE
  | CM_CH_STALL
  | CM_CH_CROSS
  | CM_CH_RAW
  | CM_CH_WAKE
  | CM_CH_ERR_LO
  | CM_CH_ERR_HI
  | CM_SEG
  | BD_CTL
  | BD_CFG
  | BD_STATUS
  | BD_LIMITS
  | BD_PATROL
  | BD_RETAIN_AGE
  | BD_FLASH_TEMP
  | BD_RATES
  | BD_BUDGET
  | BD_LOST
  | BD_CH_STATUS
  | BD_CH_FREE
  | BD_CH_BAD
  | BD_CH_PE
  | BD_VS_CTL
  | BD_VS_ID
  | BD_VS_CFG
  | BD_VS_SECTIONS
  | BD_VS_LSEQ_LO
  | BD_VS_LSEQ_HI
  | BD_VS_DISCARDED
  | BD_VS_KEYS
  | BD_VS_KEY
  | BD_RS_CTL
  | BD_RS_VOL
  | BD_RS_SEC
  | BD_RS_FRAC
  | BD_RS_SINK
  | BD_RS_RATE
  | BD_CAT_IDX
  | BD_CAT_ID
  | BD_CAT_INFO
  | BD_CAT_DEL
  | BD_CAT_COUNT
  | HS_WD_BASE
  | HS_PCIE_STATUS
  | HS_WD_POISON
  | HS_WD_DENIED
  | DMA_CTL
  | DMA_STATUS
  | DMA_DESC_ADDR_LO
  | DMA_DESC_ADDR_HI
  | DMA_CUR_LO
  | DMA_CUR_HI
  | DMA_ERR_ADDR_LO
  | DMA_ERR_ADDR_HI
  | DMA_DONE
  | DMA_FLUSH
  | DMA_DISCARDED
  | HQ_CTL
  | HQ_STATUS
  | HQ_CE
  | HQ_UE
  | HQ_INVALID
  | HQ_BADACC
  | DS_TOL_NS
  | DS_CTL
  | DS_LINK
  | DS_STATUS
  | DS_WM
  | DS_HTIM
  | DS_HSYNC
  | DS_VTIM
  | DS_VSYNC
  | DS_PCLK
  | DS_BG
  | DS_FREEZE
  | DS_OUT_SIG
  | DS_FRAMES
  | DS_AUX_CMD
  | DS_AUX_STAT
  | DS_AUX_DATA
  | DS_L_CTL
  | DS_L_POS
  | DS_L_SIZE
  | DS_L_SRC
  | DS_L_SCALE
  | DS_L_SURF_LO
  | DS_L_SURF_HI
  | DS_L_SIG
  | DS_L_UNDERRUN
  | DS_L_FREEZES
  | DS_TR
  | DS_PAL_ADDR
  | DS_PAL_DATA
  | BI_STATUS
  | BI_VERSION
  | BI_FLOOR
  | BI_LAST
  | BI_CTL
  | BI_SESSION
  | BI_SIZE
  | BI_CRC
  | BI_WRITTEN
  | BI_DATA
  | BI_FUSE
  | BI_KEYHASH
  | REGION_ID
  | REGION_STATE
  | REGION_EPOCH
  | REGION_ALARM_STATUS
  | REGION_ALARM_MASK
  | REGION_SPARES
  | REGION_BIST_CTL
  | REGION_BIST_RESULT
  | REGION_BIST_COUNT
  | REGION_REFUSAL
  | REGION_REFUSAL_OFFS
  | GLOBAL_IDENT
  | GLOBAL_HEALTH
  | GLOBAL_ALARM_STATUS
  | GLOBAL_ALARM_REGIONS
  | GLOBAL_ALARM_VEC
  | GLOBAL_WHOAMI
  | GLOBAL_SETUP_STATUS
  | GLOBAL_SETUP_FIRST
  | GLOBAL_REFUSAL
  | GLOBAL_REFUSAL_OFFS
  | PROT_PATH_DOMAIN
  | PROT_COMMIT
  | PROT_GEN
  | PROT_CM_DEFAULT
  | PROT_VOL_DEFAULT
  | PROT_PG_ADDR
  | PROT_PG_DATA
  | PROT_CW_BASE
  | PROT_CW_SIZE
  | PROT_CW_ACC
  | PROT_VOL_ID
  | PROT_VOL_ACC
  | CA_CTL
  | CA_SCOPE
  | CA_RAMP_NS
  | CA_RAMP_STEPS
  | CA_STATUS
  | CA_COUNT
  | CA_LAST_SEC
  | CA_LAST_FRAC
  | CA_LAST_TEMP
  | CA_TOL
  | CA_SLOT_TAG
  | CA_IN_OFF
  | CA_IN_GAIN_A
  | CA_IN_GAIN_B
  | CA_IN_SKEW
  | FT_BLK_IDX
  | FT_BLK_STATE
  | FT_LOG_IDX
  | FT_LOG_W0
  | FT_LOG_W1
  | FT_LOG_W2
  | FT_LOG_W3
  | FT_PATROL
  | FT_MASKED
  | FT_CORR
  | FT_FENCED
  | ST_FT_REPLACE
  | ST_FT_CHIP
  | ST_FT_FUSE
  | ST_FT_FUSE_USE
  | ST_FT_THERM
  | ST_FT_THERM_BUDGET
  | ST_FT_TEMP
  deriving DecidableEq, Repr

/-- One register's entry: the windows it lies in, its offset there, the count and stride of its two indexes
(the one of the larger stride first), its reset word where all instances share it, and the masks of its bits by access code:
`rw` for RW and LK, `w1c`, `w1s`, `rc`, `wo`; every other bit is RO or reserved. -/
structure RegRow where
  name : RegName
  wins : List Nat
  off : Nat
  c1 : Nat
  s1 : Nat
  c2 : Nat
  s2 : Nat
  rst : Nat
  rw : Nat
  w1c : Nat
  w1s : Nat
  rc : Nat
  wo : Nat
  deriving DecidableEq, Repr

/-- Registers of window 0, in chapter order. -/
def rowsW0 : List RegRow := [
  ⟨.GLOBAL_DEVSTATE, [0], 0x100, 1, 0x4, 1, 0x4, 0x12, 0x0, 0x0, 0x0, 0x0, 0x0⟩,
  ⟨.GLOBAL_STATE_REQ, [0], 0x104, 1, 0x4, 1, 0x4, 0x0, 0xF, 0x0, 0x0, 0x0, 0x0⟩,
  ⟨.GLOBAL_WATCH_INPUTS, [0], 0x108, 1, 0x4, 1, 0x4, 0xFFFF, 0xFFFF, 0x0, 0x0, 0x0, 0x0⟩,
  ⟨.GLOBAL_DEVTIME_0, [0], 0x200, 1, 0x4, 1, 0x4, 0x0, 0x0, 0x0, 0x0, 0x0, 0x0⟩,
  ⟨.GLOBAL_DEVTIME_1, [0], 0x204, 1, 0x4, 1, 0x4, 0x0, 0x0, 0x0, 0x0, 0x0, 0x0⟩,
  ⟨.GLOBAL_DEVTIME_2, [0], 0x208, 1, 0x4, 1, 0x4, 0x0, 0x0, 0x0, 0x0, 0x0, 0x0⟩,
  ⟨.GLOBAL_TIME_SET_SEC, [0], 0x210, 1, 0x4, 1, 0x4, 0x0, 0xFFFFFFFF, 0x0, 0x0, 0x0, 0x0⟩,
  ⟨.GLOBAL_TIME_SET_CTL, [0], 0x214, 1, 0x4, 1, 0x4, 0x4, 0x4, 0x0, 0x1, 0x0, 0x0⟩,
  ⟨.GLOBAL_IDENT, [0], 0x0, 1, 0x4, 1, 0x4, 0xB000, 0x0, 0x0, 0x0, 0x0, 0x0⟩,
  ⟨.GLOBAL_HEALTH, [0], 0x4, 1, 0x4, 1, 0x4, 0x0, 0x0, 0x0, 0x0, 0x0, 0x0⟩,
  ⟨.GLOBAL_ALARM_STATUS, [0], 0x8, 1, 0x4, 1, 0x4, 0x0, 0x0, 0x0, 0x0, 0x0, 0x0⟩,
  ⟨.GLOBAL_ALARM_REGIONS, [0], 0xC, 1, 0x4, 1, 0x4, 0x0, 0x0, 0x0, 0x0, 0x0, 0x0⟩,
  ⟨.GLOBAL_ALARM_VEC, [0], 0x10, 4, 0x4, 1, 0x4, 0x0, 0xFFFFFFFF, 0x0, 0x0, 0x0, 0x0⟩,
  ⟨.GLOBAL_WHOAMI, [0], 0x20, 1, 0x4, 1, 0x4, 0x0, 0x0, 0x0, 0x0, 0x0, 0x0⟩,
  ⟨.GLOBAL_SETUP_STATUS, [0], 0x24, 1, 0x4, 1, 0x4, 0x0, 0x0, 0x0, 0x0, 0x0, 0x0⟩,
  ⟨.GLOBAL_SETUP_FIRST, [0], 0x28, 1, 0x4, 1, 0x4, 0xFFFFFFFF, 0x0, 0x0, 0x0, 0x0, 0x0⟩,
  ⟨.GLOBAL_REFUSAL, [0], 0x80, 5, 0x8, 1, 0x4, 0x0, 0x0, 0x0, 0x0, 0x0, 0x0⟩,
  ⟨.GLOBAL_REFUSAL_OFFS, [0], 0x84, 5, 0x8, 1, 0x4, 0x0, 0x0, 0x0, 0x0, 0x0, 0x0⟩,
  ⟨.PROT_PATH_DOMAIN, [0], 0x400, 1, 0x4, 1, 0x4, 0x3EF, 0xFF, 0x0, 0x0, 0x0, 0x0⟩,
  ⟨.PROT_COMMIT, [0], 0x404, 1, 0x4, 1, 0x4, 0xF00, 0x8, 0x0, 0x3, 0x0, 0x0⟩,
  ⟨.PROT_GEN, [0], 0x408, 1, 0x4, 1, 0x4, 0x0, 0x0, 0x0, 0x0, 0x0, 0x0⟩,
  ⟨.PROT_CM_DEFAULT, [0], 0x40C, 1, 0x4, 1, 0x4, 0x9, 0xF, 0x0, 0x0, 0x0, 0x0⟩,
  ⟨.PROT_VOL_DEFAULT, [0], 0x410, 1, 0x4, 1, 0x4, 0x9, 0xF, 0x0, 0x0, 0x0, 0x0⟩,
  ⟨.PROT_PG_ADDR, [0], 0x420, 1, 0x4, 1, 0x4, 0x0, 0xFFF, 0x0, 0x0, 0x0, 0x0⟩,
  ⟨.PROT_PG_DATA, [0], 0x424, 1, 0x4, 1, 0x4, 0x99999999, 0xFFFFFFFF, 0x0, 0x0, 0x0, 0x0⟩,
  ⟨.PROT_CW_BASE, [0], 0x800, 64, 0x10, 1, 0x4, 0x0, 0xFFFFFFFF, 0x0, 0x0, 0x0, 0x0⟩,
  ⟨.PROT_CW_SIZE, [0], 0x804, 64, 0x10, 1, 0x4, 0x0, 0xFFFFFFFF, 0x0, 0x0, 0x0, 0x0⟩,
  ⟨.PROT_CW_ACC, [0], 0x808, 64, 0x10, 1, 0x4, 0x9, 0xF, 0x0, 0x0, 0x0, 0x0⟩,
  ⟨.PROT_VOL_ID, [0], 0xC00, 32, 0x8, 1, 0x4, 0x0, 0xFFFFFFFF, 0x0, 0x0, 0x0, 0x0⟩,
  ⟨.PROT_VOL_ACC, [0], 0xC04, 32, 0x8, 1, 0x4, 0x9, 0xF, 0x0, 0x0, 0x0, 0x0⟩]

/-- Registers of every window 1 to 15, in chapter order. -/
def rowsEvery : List RegRow := [
  ⟨.SYN_CTL, [1, 2, 3, 4, 5, 6, 7, 8, 9, 10, 11, 12, 13, 14, 15], 0x100, 1, 0x4, 1, 0x4, 0x1, 0x1, 0x0, 0x4, 0x0, 0x0⟩,
  ⟨.SYN_LOCK, [1, 2, 3, 4, 5, 6, 7, 8, 9, 10, 11, 12, 13, 14, 15], 0x104, 1, 0x4, 1, 0x4, 0x4003205, 0xFFFFFFFF, 0x0, 0x0, 0x0, 0x0⟩,
  ⟨.SYN_STATUS, [1, 2, 3, 4, 5, 6, 7, 8, 9, 10, 11, 12, 13, 14, 15], 0x108, 1, 0x4, 1, 0x4, 0x10, 0x0, 0x22, 0x0, 0x0, 0x0⟩,
  ⟨.SYN_TARGET, [1, 2, 3, 4, 5, 6, 7, 8, 9, 10, 11, 12, 13, 14, 15], 0x10C, 1, 0x4, 1, 0x4, 0x0, 0xFFFFFFFF, 0x0, 0x0, 0x0, 0x0⟩,
  ⟨.SYN_DCO, [1, 2, 3, 4, 5, 6, 7, 8, 9, 10, 11, 12, 13, 14, 15], 0x110, 1, 0x4, 1, 0x4, 0x0, 0x0, 0x0, 0x0, 0x0, 0x0⟩,
  ⟨.SYN_RAMP, [1, 2, 3, 4, 5, 6, 7, 8, 9, 10, 11, 12, 13, 14, 15], 0x114, 1, 0x4, 1, 0x4, 0x0, 0x3F, 0x0, 0x0, 0x0, 0x0⟩,
  ⟨.SYN_CLAMP_COUNT, [1, 2, 3, 4, 5, 6, 7, 8, 9, 10, 11, 12, 13, 14, 15], 0x118, 1, 0x4, 1, 0x4, 0x0, 0x0, 0x0, 0x0, 0xFFFFFFFF, 0x0⟩,
  ⟨.SYN_SEG_KHZ, [1, 2, 3, 4, 5, 6, 7, 8, 9, 10, 11, 12, 13, 14, 15], 0xC00, 64, 0x8, 1, 0x4, 0x0, 0xFFFFFFFF, 0x0, 0x0, 0x0, 0x0⟩,
  ⟨.SYN_SEG_NS, [1, 2, 3, 4, 5, 6, 7, 8, 9, 10, 11, 12, 13, 14, 15], 0xC04, 64, 0x8, 1, 0x4, 0x0, 0xFFFFFFFF, 0x0, 0x0, 0x0, 0x0⟩,
  ⟨.REGION_ID, [1, 2, 3, 4, 5, 6, 7, 8, 9, 10, 11, 12, 13, 14, 15], 0x0, 1, 0x4, 1, 0x4, 0xB0000000, 0x0, 0x0, 0x0, 0x0, 0x0⟩,
  ⟨.REGION_STATE, [1, 2, 3, 4, 5, 6, 7, 8, 9, 10, 11, 12, 13, 14, 15], 0x4, 1, 0x4, 1, 0x4, 0x1, 0x0, 0x0, 0x0, 0x0, 0x0⟩,
  ⟨.REGION_EPOCH, [1, 2, 3, 4, 5, 6, 7, 8, 9, 10, 11, 12, 13, 14, 15], 0x8, 1, 0x4, 1, 0x4, 0x0, 0x0, 0x0, 0x0, 0x0, 0x0⟩,
  ⟨.REGION_ALARM_STATUS, [1, 2, 3, 4, 5, 6, 7, 8, 9, 10, 11, 12, 13, 14, 15], 0xC, 1, 0x4, 1, 0x4, 0x0, 0x0, 0xFFFF, 0x0, 0x0, 0x0⟩,
  ⟨.REGION_ALARM_MASK, [1, 2, 3, 4, 5, 6, 7, 8, 9, 10, 11, 12, 13, 14, 15], 0x10, 1, 0x4, 1, 0x4, 0x0, 0xFFFF, 0x0, 0x0, 0x0, 0x0⟩,
  ⟨.REGION_SPARES, [1, 2, 3, 4, 5, 6, 7, 8, 9, 10, 11, 12, 13, 14, 15], 0x14, 1, 0x4, 1, 0x4, 0x10000, 0xFF0000, 0x0, 0x0, 0x0, 0x0⟩,
  ⟨.REGION_BIST_CTL, [1, 2, 3, 4, 5, 6, 7, 8, 9, 10, 11, 12, 13, 14, 15], 0x18, 1, 0x4, 1, 0x4, 0x4, 0xFF04, 0x0, 0x1, 0x0, 0x0⟩,
  ⟨.REGION_BIST_RESULT, [1, 2, 3, 4, 5, 6, 7, 8, 9, 10, 11, 12, 13, 14, 15], 0x1C, 1, 0x4, 1, 0x4, 0x0, 0x0, 0x0, 0x0, 0x0, 0x0⟩,
  ⟨.REGION_BIST_COUNT, [1, 2, 3, 4, 5, 6, 7, 8, 9, 10, 11, 12, 13, 14, 15], 0x20, 1, 0x4, 1, 0x4, 0x0, 0x0, 0x0, 0x0, 0x0, 0x0⟩,
  ⟨.REGION_REFUSAL, [1, 2, 3, 4, 5, 6, 7, 8, 9, 10, 11, 12, 13, 14, 15], 0x80, 5, 0x8, 1, 0x4, 0x0, 0x0, 0x0, 0x0, 0x0, 0x0⟩,
  ⟨.REGION_REFUSAL_OFFS, [1, 2, 3, 4, 5, 6, 7, 8, 9, 10, 11, 12, 13, 14, 15], 0x84, 5, 0x8, 1, 0x4, 0x0, 0x0, 0x0, 0x0, 0x0, 0x0⟩,
  ⟨.FT_BLK_IDX, [1, 2, 3, 4, 5, 6, 7, 8, 9, 10, 11, 12, 13, 14, 15], 0xE00, 1, 0x4, 1, 0x4, 0x0, 0xFF, 0x0, 0x0, 0x0, 0x0⟩,
  ⟨.FT_BLK_STATE, [1, 2, 3, 4, 5, 6, 7, 8, 9, 10, 11, 12, 13, 14, 15], 0xE04, 1, 0x4, 1, 0x4, 0x0, 0x0, 0x0, 0x0, 0x0, 0x0⟩,
  ⟨.FT_LOG_IDX, [1, 2, 3, 4, 5, 6, 7, 8, 9, 10, 11, 12, 13, 14, 15], 0xE08, 1, 0x4, 1, 0x4, 0x0, 0x3F, 0x0, 0x0, 0x0, 0x0⟩,
  ⟨.FT_LOG_W0, [1, 2, 3, 4, 5, 6, 7, 8, 9, 10, 11, 12, 13, 14, 15], 0xE0C, 1, 0x4, 1, 0x4, 0x0, 0x0, 0x0, 0x0, 0x0, 0x0⟩,
  ⟨.FT_LOG_W1, [1, 2, 3, 4, 5, 6, 7, 8, 9, 10, 11, 12, 13, 14, 15], 0xE10, 1, 0x4, 1, 0x4, 0x0, 0x0, 0x0, 0x0, 0x0, 0x0⟩,
  ⟨.FT_LOG_W2, [1, 2, 3, 4, 5, 6, 7, 8, 9, 10, 11, 12, 13, 14, 15], 0xE14, 1, 0x4, 1, 0x4, 0x0, 0x0, 0x0, 0x0, 0x0, 0x0⟩,
  ⟨.FT_LOG_W3, [1, 2, 3, 4, 5, 6, 7, 8, 9, 10, 11, 12, 13, 14, 15], 0xE18, 1, 0x4, 1, 0x4, 0x0, 0x0, 0x0, 0x0, 0x0, 0x0⟩,
  ⟨.FT_PATROL, [1, 2, 3, 4, 5, 6, 7, 8, 9, 10, 11, 12, 13, 14, 15], 0xE1C, 1, 0x4, 1, 0x4, 0x2580000, 0xFFFF0000, 0x0, 0x0, 0x0, 0x0⟩,
  ⟨.FT_MASKED, [1, 2, 3, 4, 5, 6, 7, 8, 9, 10, 11, 12, 13, 14, 15], 0xE20, 1, 0x4, 1, 0x4, 0x0, 0x0, 0x0, 0x0, 0xFFFFFFFF, 0x0⟩,
  ⟨.FT_CORR, [1, 2, 3, 4, 5, 6, 7, 8, 9, 10, 11, 12, 13, 14, 15], 0xE24, 1, 0x4, 1, 0x4, 0x0, 0x0, 0x0, 0x0, 0xFFFFFFFF, 0x0⟩,
  ⟨.FT_FENCED, [1, 2, 3, 4, 5, 6, 7, 8, 9, 10, 11, 12, 13, 14, 15], 0xE28, 1, 0x4, 1, 0x4, 0x0, 0x0, 0x0, 0x0, 0xFFFFFFFF, 0x0⟩]

/-- Registers of window 1, in chapter order (part 0). -/
def rowsW10 : List RegRow := [
  ⟨.SYN_CTL, [1], 0x140, 1, 0x4, 1, 0x4, 0x1, 0x1, 0x0, 0x4, 0x0, 0x0⟩,
  ⟨.SYN_LOCK, [1], 0x144, 1, 0x4, 1, 0x4, 0x4003205, 0xFFFFFFFF, 0x0, 0x0, 0x0, 0x0⟩,
  ⟨.SYN_STATUS, [1], 0x148, 1, 0x4, 1, 0x4, 0x10, 0x0, 0x22, 0x0, 0x0, 0x0⟩,
  ⟨.SYN_TARGET, [1], 0x14C, 1, 0x4, 1, 0x4, 0x0, 0xFFFFFFFF, 0x0, 0x0, 0x0, 0x0⟩,
  ⟨.SYN_DCO, [1], 0x150, 1, 0x4, 1, 0x4, 0x0, 0x0, 0x0, 0x0, 0x0, 0x0⟩,
  ⟨.SYN_RAMP, [1], 0x154, 1, 0x4, 1, 0x4, 0x0, 0x3F, 0x0, 0x0, 0x0, 0x0⟩,
  ⟨.SYN_CLAMP_COUNT, [1], 0x158, 1, 0x4, 1, 0x4, 0x0, 0x0, 0x0, 0x0, 0xFFFFFFFF, 0x0⟩,
  ⟨.ST_REF_CTL, [1], 0x200, 1, 0x4, 1, 0x4, 0x100A5000, 0x1FFFF307, 0x0, 0x0, 0x0, 0x0⟩,
  ⟨.ST_REF_STATUS, [1], 0x204, 1, 0x4, 1, 0x4, 0xA00004, 0x0, 0x1C00, 0x0, 0x0, 0x0⟩,
  ⟨.ST_PHASE_JUMP, [1], 0x208, 1, 0x4, 1, 0x4, 0x0, 0x0, 0x0, 0x0, 0x0, 0x0⟩,
  ⟨.ST_PPS_DELAY, [1], 0x20C, 1, 0x4, 1, 0x4, 0x0, 0xFFFFFFFF, 0x0, 0x0, 0x0, 0x0⟩,
  ⟨.ST_XO_AGE, [1], 0x210, 1, 0x4, 1, 0x4, 0x0, 0xFFFFFFFF, 0x0, 0x0, 0x0, 0x0⟩,
  ⟨.ST_SYNC_CTL, [1], 0x240, 4, 0x8, 1, 0x4, 0x0, 0xFFFF0001, 0x0, 0x0, 0x0, 0x0⟩,
  ⟨.ST_SYNC_PERIOD, [1], 0x244, 4, 0x8, 1, 0x4, 0x0, 0xFFFFFFFF, 0x0, 0x0, 0x0, 0x0⟩,
  ⟨.ST_ET_CTL, [1], 0x4000, 32, 0x40, 1, 0x4, 0x40, 0xFC1, 0x0, 0x0, 0x0, 0x0⟩,
  ⟨.ST_ET_THRESH, [1], 0x4004, 32, 0x40, 1, 0x4, 0x85000000, 0xBF00FFFF, 0x0, 0x0, 0x0, 0x0⟩,
  ⟨.ST_ET_GATE, [1], 0x4008, 32, 0x40, 1, 0x4, 0xF4240, 0xFFFFFFFF, 0x0, 0x0, 0x0, 0x0⟩,
  ⟨.ST_ET_STUCK, [1], 0x400C, 32, 0x40, 1, 0x4, 0x0, 0xFFFFFFFF, 0x0, 0x0, 0x0, 0x0⟩,
  ⟨.ST_ET_QW, [1], 0x4010, 32, 0x40, 4, 0x4, 0x0, 0x0, 0x0, 0x0, 0x0, 0x0⟩,
  ⟨.ST_ET_QLEVEL, [1], 0x4020, 32, 0x40, 1, 0x4, 0x0, 0x0, 0x0, 0x0, 0x0, 0x0⟩,
  ⟨.ST_ET_EDGES_LO, [1], 0x4024, 32, 0x40, 1, 0x4, 0x0, 0x0, 0x0, 0x0, 0x0, 0x0⟩,
  ⟨.ST_ET_EDGES_HI, [1], 0x4028, 32, 0x40, 1, 0x4, 0x0, 0x0, 0x0, 0x0, 0x0, 0x0⟩,
  ⟨.ST_ET_SUPPRESSED, [1], 0x402C, 32, 0x40, 1, 0x4, 0x0, 0x0, 0x0, 0x0, 0xFFFFFFFF, 0x0⟩,
  ⟨.ST_ET_DROPPED, [1], 0x4030, 32, 0x40, 1, 0x4, 0x0, 0x0, 0x0, 0x0, 0xFFFFFFFF, 0x0⟩,
  ⟨.ST_IV_CTL, [1], 0x4800, 16, 0x10, 1, 0x4, 0x0, 0xFFF1, 0x0, 0x0, 0x0, 0x0⟩,
  ⟨.ST_IV_WINDOW, [1], 0x4804, 16, 0x10, 1, 0x4, 0x3E8, 0xFFFFFFFF, 0x0, 0x0, 0x0, 0x0⟩,
  ⟨.ST_IV_ABANDONED, [1], 0x4808, 16, 0x10, 1, 0x4, 0x0, 0x0, 0x0, 0x0, 0xFFFFFFFF, 0x0⟩,
  ⟨.TG_QW, [1], 0x5800, 8, 0x4, 1, 0x4, 0x0, 0x0, 0x0, 0x0, 0x0, 0x0⟩,
  ⟨.TG_QCTL, [1], 0x5820, 1, 0x4, 1, 0x4, 0x0, 0x1, 0x0, 0x0, 0x0, 0x0⟩,
  ⟨.TG_QLEVEL, [1], 0x5824, 1, 0x4, 1, 0x4, 0x0, 0x0, 0x0, 0x0, 0x0, 0x0⟩,
  ⟨.TG_QDROPPED, [1], 0x5828, 1, 0x4, 1, 0x4, 0x0, 0x0, 0x0, 0x0, 0xFFFFFFFF, 0x0⟩,
  ⟨.TG_U_CTL, [1], 0x5000, 10, 0x40, 1, 0x4, 0x10, 0x39, 0x0, 0x40, 0x0, 0x0⟩,
  ⟨.TG_U_HOLDOFF, [1], 0x5004, 10, 0x40, 1, 0x4, 0x0, 0xFFFFFFFF, 0x0, 0x0, 0x0, 0x0⟩,
  ⟨.TG_U_STATUS, [1], 0x5008, 10, 0x40, 1, 0x4, 0x0, 0x0, 0x0, 0x0, 0x0, 0x0⟩,
  ⟨.TG_U_FIRED, [1], 0x500C, 10, 0x40, 1, 0x4, 0x0, 0x0, 0x0, 0x0, 0x0, 0x0⟩,
  ⟨.TG_U_SUPPRESSED, [1], 0x5010, 10, 0x40, 1, 0x4, 0x0, 0x0, 0x0, 0x0, 0xFFFFFFFF, 0x0⟩,
  ⟨.ST_TG_EX_SRC, [1], 0x5014, 8, 0x40, 1, 0x4, 0x0, 0x11F, 0x0, 0x0, 0x0, 0x0⟩,
  ⟨.ST_TG_FB_CFG, [1], 0x5214, 1, 0x4, 1, 0x4, 0x0, 0xFFF8FFF, 0x0, 0x0, 0x0, 0x0⟩,
  ⟨.ST_TG_HO_SEC, [1], 0x5254, 1, 0x4, 1, 0x4, 0x0, 0xFFFFFFFF, 0x0, 0x0, 0x0, 0x0⟩,
  ⟨.ST_TG_HO_FRAC, [1], 0x5258, 1, 0x4, 1, 0x4, 0x0, 0xFFFFFFFF, 0x0, 0x0, 0x0, 0x0⟩,
  ⟨.ST_TG_HO_FIRE, [1], 0x525C, 1, 0x4, 1, 0x4, 0x0, 0x0, 0x0, 0x1, 0x0, 0x0⟩,
  ⟨.KH_CFG, [1], 0x8000, 1, 0x4, 1, 0x4, 0x8001, 0xFF05, 0x0, 0x0, 0x0, 0x0⟩,
  ⟨.KH_ADDR, [1], 0x8004, 1, 0x4, 1, 0x4, 0x0, 0xFFFF0000, 0x0, 0x0, 0x0, 0x0⟩,
  ⟨.KH_STATUS, [1], 0x8008, 1, 0x4, 1, 0x4, 0x0, 0x0, 0x8, 0x0, 0x0, 0x0⟩,
  ⟨.KH_ROOT, [1], 0x800C, 1, 0x4, 1, 0x4, 0x0, 0x0, 0x0, 0x0, 0x0, 0x0⟩,
  ⟨.KH_POOL, [1], 0x8010, 1, 0x4, 1, 0x4, 0xFEFF0100, 0xFFFFFFFF, 0x0, 0x0, 0x0, 0x0⟩,
  ⟨.KH_SERIAL_LO, [1], 0x8014, 1, 0x4, 1, 0x4, 0x0, 0x0, 0x0, 0x0, 0x0, 0x0⟩,
  ⟨.KH_SERIAL_HI, [1], 0x8018, 1, 0x4, 1, 0x4, 0x0, 0x0, 0x0, 0x0, 0x0, 0x0⟩,
  ⟨.KH_NODE_Q, [1], 0x801C, 1, 0x4, 1, 0x4, 0x0, 0xFFFF, 0x0, 0x0, 0x0, 0x0⟩,
  ⟨.KH_NODE_INFO, [1], 0x8020, 1, 0x4, 1, 0x4, 0x0, 0x0, 0x0, 0x0, 0x0, 0x0⟩]

/-- Registers of window 1, in chapter order (part 1). -/
def rowsW11 : List RegRow := [
  ⟨.KH_EXPIRED, [1], 0x8024, 1, 0x4, 1, 0x4, 0x0, 0x0, 0x0, 0x0, 0xFFFFFFFF, 0x0⟩,
  ⟨.KH_NOCTX, [1], 0x8028, 1, 0x4, 1, 0x4, 0x0, 0x0, 0x0, 0x0, 0xFFFFFFFF, 0x0⟩,
  ⟨.KH_TOPO, [1], 0x802C, 1, 0x4, 1, 0x4, 0x0, 0x0, 0x0, 0x0, 0x0, 0x0⟩,
  ⟨.KH_MG_CTL, [1], 0x8030, 1, 0x4, 1, 0x4, 0x0, 0x2, 0x0, 0x1, 0x0, 0x0⟩,
  ⟨.KH_MG_DEST, [1], 0x8034, 1, 0x4, 1, 0x4, 0x0, 0xFFFF, 0x0, 0x0, 0x0, 0x0⟩,
  ⟨.KH_MG_ADDR, [1], 0x8038, 1, 0x4, 1, 0x4, 0x0, 0xFFFFFF, 0x0, 0x0, 0x0, 0x0⟩,
  ⟨.KH_MG_DATA, [1], 0x803C, 1, 0x4, 1, 0x4, 0x0, 0xFFFFFFFF, 0x0, 0x0, 0x0, 0x0⟩,
  ⟨.KH_SWARM, [1], 0x8400, 128, 0x4, 1, 0x4, 0x0, 0xFFFFFFFF, 0x0, 0x0, 0x0, 0x0⟩,
  ⟨.KH_SC_KEY, [1], 0x10000, 4096, 0x40, 1, 0x4, 0x0, 0xFFFFFFFF, 0x0, 0x0, 0x0, 0x0⟩,
  ⟨.KH_SC_CTL, [1], 0x10004, 4096, 0x40, 1, 0x4, 0x0, 0x1, 0x0, 0x0, 0x0, 0x0⟩,
  ⟨.KH_SC_DEST, [1], 0x10008, 4096, 0x40, 1, 0x4, 0x4000000, 0x8C00FFFF, 0x0, 0x0, 0x0, 0x0⟩,
  ⟨.KH_SC_LAT, [1], 0x1000C, 4096, 0x40, 1, 0x4, 0x0, 0xFFFF, 0x0, 0x0, 0x0, 0x0⟩,
  ⟨.KH_SC_LEAD, [1], 0x10010, 4096, 0x40, 1, 0x4, 0x0, 0xFFFFFFFF, 0x0, 0x0, 0x0, 0x0⟩,
  ⟨.KH_SC_SINK, [1], 0x10014, 4096, 0x40, 1, 0x4, 0x0, 0x7F07, 0x0, 0x0, 0x0, 0x0⟩,
  ⟨.KH_SC_STATUS, [1], 0x10018, 4096, 0x40, 1, 0x4, 0x0, 0x0, 0x0, 0x0, 0x0, 0x0⟩,
  ⟨.KH_SC_DROP, [1], 0x1001C, 4096, 0x40, 1, 0x4, 0x0, 0x0, 0x0, 0x0, 0xFFFFFFFF, 0x0⟩,
  ⟨.KH_SC_MAXREC, [1], 0x10020, 4096, 0x40, 1, 0x4, 0x0, 0x0, 0x0, 0x0, 0x0, 0x0⟩,
  ⟨.KH_SC_RATE, [1], 0x10024, 4096, 0x40, 1, 0x4, 0x0, 0x0, 0x0, 0x0, 0x0, 0x0⟩,
  ⟨.BI_STATUS, [1], 0x6000, 1, 0x4, 1, 0x4, 0x0, 0x0, 0x0, 0x0, 0x0, 0x0⟩,
  ⟨.BI_VERSION, [1], 0x6004, 1, 0x4, 1, 0x4, 0x0, 0x0, 0x0, 0x0, 0x0, 0x0⟩,
  ⟨.BI_FLOOR, [1], 0x6008, 1, 0x4, 1, 0x4, 0x0, 0x0, 0x0, 0x0, 0x0, 0x0⟩,
  ⟨.BI_LAST, [1], 0x600C, 1, 0x4, 1, 0x4, 0x0, 0x0, 0x0, 0x0, 0x0, 0x0⟩,
  ⟨.BI_CTL, [1], 0x6010, 1, 0x4, 1, 0x4, 0x0, 0x10, 0x0, 0x2F, 0x0, 0x0⟩,
  ⟨.BI_SESSION, [1], 0x6014, 1, 0x4, 1, 0x4, 0x0, 0x0, 0x0, 0x0, 0x0, 0x0⟩,
  ⟨.BI_SIZE, [1], 0x6018, 1, 0x4, 1, 0x4, 0x0, 0xFFFFFFFF, 0x0, 0x0, 0x0, 0x0⟩,
  ⟨.BI_CRC, [1], 0x601C, 1, 0x4, 1, 0x4, 0x0, 0xFFFFFFFF, 0x0, 0x0, 0x0, 0x0⟩,
  ⟨.BI_WRITTEN, [1], 0x6020, 1, 0x4, 1, 0x4, 0x0, 0x0, 0x0, 0x0, 0x0, 0x0⟩,
  ⟨.BI_DATA, [1], 0x6024, 1, 0x4, 1, 0x4, 0x0, 0x0, 0x0, 0x0, 0x0, 0xFFFFFFFF⟩,
  ⟨.BI_FUSE, [1], 0x6028, 1, 0x4, 1, 0x4, 0x0, 0xC, 0x0, 0x3, 0x0, 0x0⟩,
  ⟨.BI_KEYHASH, [1], 0x6030, 12, 0x4, 1, 0x4, 0x0, 0xFFFFFFFF, 0x0, 0x0, 0x0, 0x0⟩,
  ⟨.CA_CTL, [1], 0x7000, 1, 0x4, 1, 0x4, 0x0, 0x0, 0x0, 0x1, 0x0, 0x0⟩,
  ⟨.CA_SCOPE, [1], 0x7004, 1, 0x4, 1, 0x4, 0x3FFFF, 0x3FFFF, 0x0, 0x0, 0x0, 0x0⟩,
  ⟨.CA_RAMP_NS, [1], 0x7008, 1, 0x4, 1, 0x4, 0x3B9ACA00, 0xFFFFFFFF, 0x0, 0x0, 0x0, 0x0⟩,
  ⟨.CA_RAMP_STEPS, [1], 0x700C, 1, 0x4, 1, 0x4, 0x40, 0xFFFF, 0x0, 0x0, 0x0, 0x0⟩,
  ⟨.CA_STATUS, [1], 0x7010, 1, 0x4, 1, 0x4, 0x2, 0x0, 0x0, 0x0, 0x0, 0x0⟩,
  ⟨.CA_COUNT, [1], 0x7014, 1, 0x4, 1, 0x4, 0x0, 0x0, 0x0, 0x0, 0x0, 0x0⟩,
  ⟨.CA_LAST_SEC, [1], 0x7018, 1, 0x4, 1, 0x4, 0x0, 0x0, 0x0, 0x0, 0x0, 0x0⟩,
  ⟨.CA_LAST_FRAC, [1], 0x701C, 1, 0x4, 1, 0x4, 0x0, 0x0, 0x0, 0x0, 0x0, 0x0⟩,
  ⟨.CA_LAST_TEMP, [1], 0x7020, 1, 0x4, 1, 0x4, 0x0, 0x0, 0x0, 0x0, 0x0, 0x0⟩,
  ⟨.CA_TOL, [1], 0x7024, 1, 0x4, 1, 0x4, 0x0, 0x0, 0x0, 0x0, 0x0, 0x0⟩,
  ⟨.CA_SLOT_TAG, [1], 0x7040, 8, 0x10, 3, 0x4, 0x0, 0x0, 0x0, 0x0, 0x0, 0x0⟩,
  ⟨.ST_FT_REPLACE, [1], 0xF00, 1, 0x4, 1, 0x4, 0x0, 0x0, 0x0, 0x0, 0x0, 0x0⟩,
  ⟨.ST_FT_CHIP, [1], 0xF04, 1, 0x4, 1, 0x4, 0x0, 0x0, 0x0, 0x0, 0x0, 0x0⟩,
  ⟨.ST_FT_FUSE, [1], 0xF08, 1, 0x4, 1, 0x4, 0x0, 0x0, 0x0, 0x1, 0x0, 0x0⟩,
  ⟨.ST_FT_FUSE_USE, [1], 0xF0C, 1, 0x4, 1, 0x4, 0x0, 0x0, 0x0, 0x0, 0x0, 0x0⟩,
  ⟨.ST_FT_THERM, [1], 0xF10, 1, 0x4, 1, 0x4, 0x0, 0x0, 0x0, 0x0, 0x0, 0x0⟩,
  ⟨.ST_FT_THERM_BUDGET, [1], 0xF14, 1, 0x4, 1, 0x4, 0xE10, 0xFFFFFFFF, 0x0, 0x0, 0x0, 0x0⟩,
  ⟨.ST_FT_TEMP, [1], 0xF18, 1, 0x4, 1, 0x4, 0x0, 0x0, 0x0, 0x0, 0x0, 0x0⟩]

/-- Registers of window 1. -/
def rowsW1 : List RegRow := rowsW10 ++ rowsW11

/-- Registers of windows 2 to 5, in chapter order. -/
def rowsAF : List RegRow := [
  ⟨.AF_IN_CTL, [2, 3, 4, 5], 0x2000, 4, 0x100, 1, 0x4, 0x100, 0x3F7, 0x0, 0x0, 0x0, 0x0⟩,
  ⟨.AF_IN_STATUS, [2, 3, 4, 5], 0x2004, 4, 0x100, 1, 0x4, 0x0, 0x0, 0x0, 0x0, 0x0, 0x0⟩,
  ⟨.AF_IN_OVR_CTL, [2, 3, 4, 5], 0x2008, 4, 0x100, 1, 0x4, 0x8, 0xFF, 0x0, 0x0, 0xFFFF0000, 0x0⟩,
  ⟨.AF_IN_OVR_COUNT_LO, [2, 3, 4, 5], 0x200C, 4, 0x100, 1, 0x4, 0x0, 0x0, 0x0, 0x0, 0x0, 0x0⟩,
  ⟨.AF_IN_OVR_COUNT_HI, [2, 3, 4, 5], 0x2010, 4, 0x100, 1, 0x4, 0x0, 0x0, 0x0, 0x0, 0x0, 0x0⟩,
  ⟨.AF_IN_SKEW, [2, 3, 4, 5], 0x2014, 4, 0x100, 1, 0x4, 0x0, 0xFFFF, 0x0, 0x0, 0x0, 0x0⟩,
  ⟨.AF_IN_PATTERN, [2, 3, 4, 5], 0x2018, 4, 0x100, 1, 0x4, 0x0, 0x30000FFF, 0x0, 0x0, 0x0, 0x0⟩,
  ⟨.AF_SYSCAL_CTL, [2, 3, 4, 5], 0x2020, 4, 0x100, 1, 0x4, 0x0, 0x6, 0x0, 0x11, 0x0, 0x0⟩,
  ⟨.AF_SYSCAL_FREQ, [2, 3, 4, 5], 0x2024, 4, 0x100, 1, 0x4, 0x0, 0xFFFFFFFF, 0x0, 0x0, 0x0, 0x0⟩,
  ⟨.AF_SYSCAL_AMPL, [2, 3, 4, 5], 0x2028, 4, 0x100, 1, 0x4, 0x0, 0xFFFFFFFF, 0x0, 0x0, 0x0, 0x0⟩,
  ⟨.AF_SYSCAL_MEAS, [2, 3, 4, 5], 0x202C, 4, 0x100, 1, 0x4, 0x0, 0x0, 0x0, 0x0, 0x0, 0x0⟩,
  ⟨.AF_SYSCAL_OFFSET, [2, 3, 4, 5], 0x2030, 4, 0x100, 1, 0x4, 0x0, 0x0, 0x0, 0x0, 0x0, 0x0⟩,
  ⟨.AF_SYSCAL_GAIN, [2, 3, 4, 5], 0x2034, 4, 0x100, 1, 0x4, 0x100000, 0x0, 0x0, 0x0, 0x0, 0x0⟩,
  ⟨.AF_SYSCAL_ACT_GAIN, [2, 3, 4, 5], 0x2038, 4, 0x100, 1, 0x4, 0x100000, 0x0, 0x0, 0x0, 0x0, 0x0⟩,
  ⟨.AF_NOTCH_FREQ, [2, 3, 4, 5], 0x2040, 4, 0x100, 4, 0x8, 0x0, 0x3FFFFFFF, 0x0, 0x0, 0x0, 0x0⟩,
  ⟨.AF_NOTCH_SHAPE, [2, 3, 4, 5], 0x2044, 4, 0x100, 4, 0x8, 0x640008, 0xFFFF001F, 0x0, 0x0, 0x0, 0x0⟩,
  ⟨.AF_NOTCH_ACT_FREQ, [2, 3, 4, 5], 0x2060, 4, 0x100, 4, 0x8, 0x0, 0x0, 0x0, 0x0, 0x0, 0x0⟩,
  ⟨.AF_NOTCH_ACT_SHAPE, [2, 3, 4, 5], 0x2064, 4, 0x100, 4, 0x8, 0x640008, 0x0, 0x0, 0x0, 0x0, 0x0⟩,
  ⟨.AF_NOTCH_SWAP_SEC, [2, 3, 4, 5], 0x2080, 4, 0x100, 1, 0x4, 0x0, 0xFFFFFFFF, 0x0, 0x0, 0x0, 0x0⟩,
  ⟨.AF_NOTCH_SWAP_FRAC, [2, 3, 4, 5], 0x2084, 4, 0x100, 1, 0x4, 0x0, 0xFFFFFFFF, 0x0, 0x0, 0x0, 0x0⟩,
  ⟨.AF_NOTCH_SWAP_CTL, [2, 3, 4, 5], 0x2088, 4, 0x100, 1, 0x4, 0x0, 0x0, 0x0, 0x1, 0x0, 0x0⟩,
  ⟨.AF_TONE_CTL, [2, 3, 4, 5], 0x1800, 1, 0x4, 1, 0x4, 0x0, 0x1, 0x0, 0x0, 0x0, 0x0⟩,
  ⟨.AF_TONE_SET, [2, 3, 4, 5], 0x1804, 1, 0x4, 1, 0x4, 0x800001, 0x7FF003F, 0x0, 0x0, 0x0, 0x0⟩,
  ⟨.CA_IN_OFF, [2, 3, 4, 5], 0x3000, 4, 0x100, 1, 0x4, 0x0, 0x0, 0x0, 0x0, 0x0, 0x0⟩,
  ⟨.CA_IN_GAIN_A, [2, 3, 4, 5], 0x3004, 4, 0x100, 1, 0x4, 0x100000, 0x0, 0x0, 0x0, 0x0, 0x0⟩,
  ⟨.CA_IN_GAIN_B, [2, 3, 4, 5], 0x3008, 4, 0x100, 1, 0x4, 0x100000, 0x0, 0x0, 0x0, 0x0, 0x0⟩,
  ⟨.CA_IN_SKEW, [2, 3, 4, 5], 0x300C, 4, 0x100, 1, 0x4, 0x0, 0x0, 0x0, 0x0, 0x0, 0x0⟩]

/-- Registers of windows 6 to 9, in chapter order (part 0). -/
def rowsSP0 : List RegRow := [
  ⟨.ZP_CTL, [6, 7, 8, 9], 0x2000, 16, 0x800, 1, 0x4, 0x0, 0x1, 0x0, 0x0, 0x0, 0x0⟩,
  ⟨.ZP_CFG, [6, 7, 8, 9], 0x2004, 16, 0x800, 1, 0x4, 0x10104, 0xFFFFF0F, 0x0, 0x0, 0x0, 0x0⟩,
  ⟨.ZP_STATUS, [6, 7, 8, 9], 0x2008, 16, 0x800, 1, 0x4, 0x0, 0x0, 0x2, 0x0, 0x0, 0x0⟩,
  ⟨.ZP_SWAP_SEC, [6, 7, 8, 9], 0x200C, 16, 0x800, 1, 0x4, 0x0, 0xFFFFFFFF, 0x0, 0x0, 0x0, 0x0⟩,
  ⟨.ZP_SWAP_FRAC, [6, 7, 8, 9], 0x2010, 16, 0x800, 1, 0x4, 0x0, 0xFFFFFFFF, 0x0, 0x0, 0x0, 0x0⟩,
  ⟨.ZP_SWAP_CTL, [6, 7, 8, 9], 0x2014, 16, 0x800, 1, 0x4, 0x0, 0x0, 0x0, 0x5, 0x0, 0x0⟩,
  ⟨.ZP_SAT_COUNT, [6, 7, 8, 9], 0x2018, 16, 0x800, 1, 0x4, 0x0, 0x0, 0x0, 0x0, 0xFFFFFFFF, 0x0⟩,
  ⟨.ZP_DEFER_COUNT, [6, 7, 8, 9], 0x201C, 16, 0x800, 1, 0x4, 0x0, 0x0, 0x0, 0x0, 0xFFFFFFFF, 0x0⟩,
  ⟨.ZP_DONE_SEC, [6, 7, 8, 9], 0x2020, 16, 0x800, 1, 0x4, 0x0, 0x0, 0x0, 0x0, 0x0, 0x0⟩,
  ⟨.ZP_DONE_FRAC, [6, 7, 8, 9], 0x2024, 16, 0x800, 1, 0x4, 0x0, 0x0, 0x0, 0x0, 0x0, 0x0⟩,
  ⟨.ZP_SH_FTW_LO, [6, 7, 8, 9], 0x2040, 16, 0x800, 1, 0x4, 0x0, 0xFFFFFFFF, 0x0, 0x0, 0x0, 0x0⟩,
  ⟨.ZP_SH_FTW_HI, [6, 7, 8, 9], 0x2044, 16, 0x800, 1, 0x4, 0x0, 0xFFFFFFFF, 0x0, 0x0, 0x0, 0x0⟩,
  ⟨.ZP_SH_MODE, [6, 7, 8, 9], 0x2048, 16, 0x800, 1, 0x4, 0x0, 0x1, 0x0, 0x0, 0x0, 0x0⟩,
  ⟨.ZP_ACT_FTW_LO, [6, 7, 8, 9], 0x2050, 16, 0x800, 1, 0x4, 0x0, 0x0, 0x0, 0x0, 0x0, 0x0⟩,
  ⟨.ZP_ACT_FTW_HI, [6, 7, 8, 9], 0x2054, 16, 0x800, 1, 0x4, 0x0, 0x0, 0x0, 0x0, 0x0, 0x0⟩,
  ⟨.ZP_ACT_MODE, [6, 7, 8, 9], 0x2058, 16, 0x800, 1, 0x4, 0x0, 0x0, 0x0, 0x0, 0x0, 0x0⟩,
  ⟨.ZP_SH_COEF, [6, 7, 8, 9], 0x2400, 16, 0x800, 128, 0x4, 0x0, 0xFFFFFFFF, 0x0, 0x0, 0x0, 0x0⟩,
  ⟨.ZP_ACT_COEF, [6, 7, 8, 9], 0x2600, 16, 0x800, 128, 0x4, 0x0, 0x0, 0x0, 0x0, 0x0, 0x0⟩,
  ⟨.ZP_ZTU_CTL, [6, 7, 8, 9], 0x1000, 1, 0x4, 1, 0x4, 0x0, 0x1, 0x0, 0x0, 0x0, 0x0⟩,
  ⟨.ZP_ZTU_SLOT, [6, 7, 8, 9], 0x1010, 16, 0x4, 1, 0x4, 0x140, 0x80003FEF, 0x0, 0x0, 0x0, 0x0⟩,
  ⟨.BT_CTL, [6, 7, 8, 9], 0xC000, 4, 0x100, 1, 0x4, 0x0, 0x7, 0x0, 0x0, 0x0, 0x0⟩,
  ⟨.BT_CFG, [6, 7, 8, 9], 0xC004, 4, 0x100, 1, 0x4, 0x22D1, 0xF7FDF, 0x0, 0x0, 0x0, 0x0⟩,
  ⟨.BT_SHIFT, [6, 7, 8, 9], 0xC008, 4, 0x100, 1, 0x4, 0x3FFFC, 0x3FFFF, 0x0, 0x0, 0x0, 0x0⟩,
  ⟨.BT_STATUS, [6, 7, 8, 9], 0xC00C, 4, 0x100, 1, 0x4, 0x0, 0x0, 0x20, 0x0, 0x0, 0x0⟩,
  ⟨.BT_OVF_COUNT, [6, 7, 8, 9], 0xC010, 4, 0x100, 1, 0x4, 0x0, 0x0, 0x0, 0x0, 0xFFFFFFFF, 0x0⟩,
  ⟨.BT_SAT_COUNT, [6, 7, 8, 9], 0xC014, 4, 0x100, 1, 0x4, 0x0, 0x0, 0x0, 0x0, 0xFFFFFFFF, 0x0⟩,
  ⟨.BT_MK_CTL, [6, 7, 8, 9], 0xC018, 4, 0x100, 1, 0x4, 0x0, 0x0, 0x0, 0x5, 0x0, 0x0⟩,
  ⟨.BT_MK_SEC, [6, 7, 8, 9], 0xC01C, 4, 0x100, 1, 0x4, 0x0, 0xFFFFFFFF, 0x0, 0x0, 0x0, 0x0⟩,
  ⟨.BT_MK_FRAC, [6, 7, 8, 9], 0xC020, 4, 0x100, 1, 0x4, 0x0, 0xFFFFFFFF, 0x0, 0x0, 0x0, 0x0⟩,
  ⟨.BT_EQ_DONE_SEC, [6, 7, 8, 9], 0xC024, 4, 0x100, 1, 0x4, 0x0, 0x0, 0x0, 0x0, 0x0, 0x0⟩,
  ⟨.BT_EQ_DONE_FRAC, [6, 7, 8, 9], 0xC028, 4, 0x100, 1, 0x4, 0x0, 0x0, 0x0, 0x0, 0x0, 0x0⟩,
  ⟨.BT_EQ_ADDR, [6, 7, 8, 9], 0xC02C, 4, 0x100, 1, 0x4, 0x0, 0x8001FFFF, 0x0, 0x0, 0x0, 0x0⟩,
  ⟨.BT_EQ_DATA, [6, 7, 8, 9], 0xC030, 4, 0x100, 1, 0x4, 0x88008800, 0xFFFFFFFF, 0x0, 0x0, 0x0, 0x0⟩,
  ⟨.BT_WIN_ADDR, [6, 7, 8, 9], 0xC034, 4, 0x100, 1, 0x4, 0x0, 0x3FFF, 0x0, 0x0, 0x0, 0x0⟩,
  ⟨.BT_WIN_DATA, [6, 7, 8, 9], 0xC038, 4, 0x100, 1, 0x4, 0xFFFFFFFF, 0xFFFFFFFF, 0x0, 0x0, 0x0, 0x0⟩,
  ⟨.BT_PIPE_MAP, [6, 7, 8, 9], 0xC800, 1, 0x4, 1, 0x4, 0xF0000, 0x0, 0x0, 0x0, 0x0, 0x0⟩,
  ⟨.DC_INT_CTL, [6, 7, 8, 9], 0xE000, 16, 0x40, 1, 0x4, 0x0, 0x1, 0x0, 0x0, 0x0, 0x0⟩,
  ⟨.DC_INT_SRC, [6, 7, 8, 9], 0xE004, 16, 0x40, 1, 0x4, 0x0, 0x8F0FFFFF, 0x0, 0x0, 0x0, 0x0⟩,
  ⟨.DC_INT_CFG, [6, 7, 8, 9], 0xE008, 16, 0x40, 1, 0x4, 0x11, 0xF371F, 0x0, 0x0, 0x0, 0x0⟩,
  ⟨.DC_INT_M, [6, 7, 8, 9], 0xE00C, 16, 0x40, 1, 0x4, 0x400, 0x1FFFFFF, 0x0, 0x0, 0x0, 0x0⟩,
  ⟨.DC_INT_SK, [6, 7, 8, 9], 0xE010, 16, 0x40, 1, 0x4, 0x4040, 0xFFFF, 0x0, 0x0, 0x0, 0x0⟩,
  ⟨.DC_INT_ID, [6, 7, 8, 9], 0xE014, 16, 0x40, 1, 0x4, 0x0, 0xFFF, 0x0, 0x0, 0x0, 0x0⟩,
  ⟨.DC_INT_STATUS, [6, 7, 8, 9], 0xE018, 16, 0x40, 1, 0x4, 0x0, 0x0, 0x2, 0x0, 0x0, 0x0⟩,
  ⟨.DC_INT_FLAGGED, [6, 7, 8, 9], 0xE01C, 16, 0x40, 1, 0x4, 0x0, 0x0, 0x0, 0x0, 0xFFFFFFFF, 0x0⟩,
  ⟨.DC_INT_PARTIALS, [6, 7, 8, 9], 0xE020, 16, 0x40, 1, 0x4, 0x0, 0x0, 0x0, 0x0, 0xFFFFFFFF, 0x0⟩,
  ⟨.DC_INT_DONE, [6, 7, 8, 9], 0xE024, 16, 0x40, 1, 0x4, 0x0, 0x0, 0x0, 0x0, 0x0, 0x0⟩,
  ⟨.DC_PL_CTL, [6, 7, 8, 9], 0xF000, 4, 0x40, 1, 0x4, 0x0, 0x1, 0x0, 0x4, 0x0, 0x0⟩,
  ⟨.DC_PL_SRC, [6, 7, 8, 9], 0xF004, 4, 0x40, 1, 0x4, 0x0, 0x8F0FFFFF, 0x0, 0x0, 0x0, 0x0⟩,
  ⟨.DC_PL_CFG, [6, 7, 8, 9], 0xF008, 4, 0x40, 1, 0x4, 0x100B, 0xF311F, 0x0, 0x0, 0x0, 0x0⟩,
  ⟨.DC_PL_ROWS, [6, 7, 8, 9], 0xF00C, 4, 0x40, 1, 0x4, 0xFE000040, 0xFFFF03FF, 0x0, 0x0, 0x0, 0x0⟩]

/-- Registers of windows 6 to 9, in chapter order (part 1). -/
def rowsSP1 : List RegRow := [
  ⟨.DC_PL_DECAY, [6, 7, 8, 9], 0xF010, 4, 0x40, 1, 0x4, 0x10000, 0xFFFF000F, 0x0, 0x0, 0x0, 0x0⟩,
  ⟨.DC_PL_DUMP, [6, 7, 8, 9], 0xF014, 4, 0x40, 1, 0x4, 0x3E8, 0xFFFFFFFF, 0x0, 0x0, 0x0, 0x0⟩,
  ⟨.DC_PL_UPD_LO, [6, 7, 8, 9], 0xF018, 4, 0x40, 1, 0x4, 0x0, 0x0, 0x0, 0x0, 0x0, 0x0⟩,
  ⟨.DC_PL_UPD_HI, [6, 7, 8, 9], 0xF01C, 4, 0x40, 1, 0x4, 0x0, 0x0, 0x0, 0x0, 0x0, 0x0⟩,
  ⟨.DC_PL_STATUS, [6, 7, 8, 9], 0xF020, 4, 0x40, 1, 0x4, 0x0, 0x0, 0x4, 0x0, 0x0, 0x0⟩,
  ⟨.DC_PL_SAT_COUNT, [6, 7, 8, 9], 0xF024, 4, 0x40, 1, 0x4, 0x0, 0x0, 0x0, 0x0, 0xFFFFFFFF, 0x0⟩,
  ⟨.DC_PL_CLIP_COUNT, [6, 7, 8, 9], 0xF028, 4, 0x40, 1, 0x4, 0x0, 0x0, 0x0, 0x0, 0xFFFFFFFF, 0x0⟩,
  ⟨.DC_MASK_ADDR, [6, 7, 8, 9], 0xD000, 4, 0x10, 1, 0x4, 0x0, 0x80000FFF, 0x0, 0x0, 0x0, 0x0⟩,
  ⟨.DC_MASK_DATA, [6, 7, 8, 9], 0xD004, 4, 0x10, 1, 0x4, 0x0, 0xFFFFFFFF, 0x0, 0x0, 0x0, 0x0⟩,
  ⟨.TG_QW, [6, 7, 8, 9], 0x10000, 8, 0x4, 1, 0x4, 0x0, 0x0, 0x0, 0x0, 0x0, 0x0⟩,
  ⟨.TG_QCTL, [6, 7, 8, 9], 0x10020, 1, 0x4, 1, 0x4, 0x0, 0x1, 0x0, 0x0, 0x0, 0x0⟩,
  ⟨.TG_QLEVEL, [6, 7, 8, 9], 0x10024, 1, 0x4, 1, 0x4, 0x0, 0x0, 0x0, 0x0, 0x0, 0x0⟩,
  ⟨.TG_QDROPPED, [6, 7, 8, 9], 0x10028, 1, 0x4, 1, 0x4, 0x0, 0x0, 0x0, 0x0, 0xFFFFFFFF, 0x0⟩,
  ⟨.TG_U_CTL, [6, 7, 8, 9], 0x10100, 16, 0x40, 1, 0x4, 0x10, 0x39, 0x0, 0x40, 0x0, 0x0⟩,
  ⟨.TG_U_HOLDOFF, [6, 7, 8, 9], 0x10104, 16, 0x40, 1, 0x4, 0x0, 0xFFFFFFFF, 0x0, 0x0, 0x0, 0x0⟩,
  ⟨.TG_U_STATUS, [6, 7, 8, 9], 0x10108, 16, 0x40, 1, 0x4, 0x0, 0x0, 0x0, 0x0, 0x0, 0x0⟩,
  ⟨.TG_U_FIRED, [6, 7, 8, 9], 0x1010C, 16, 0x40, 1, 0x4, 0x0, 0x0, 0x0, 0x0, 0x0, 0x0⟩,
  ⟨.TG_U_SUPPRESSED, [6, 7, 8, 9], 0x10110, 16, 0x40, 1, 0x4, 0x0, 0x0, 0x0, 0x0, 0xFFFFFFFF, 0x0⟩,
  ⟨.TG_LV_SRC, [6, 7, 8, 9], 0x10114, 8, 0x40, 1, 0x4, 0x0, 0x8303000F, 0x0, 0x0, 0x0, 0x0⟩,
  ⟨.TG_LV_LEVEL, [6, 7, 8, 9], 0x10118, 8, 0x40, 1, 0x4, 0x0, 0xFFFFFFFF, 0x0, 0x0, 0x0, 0x0⟩,
  ⟨.TG_LV_HYST, [6, 7, 8, 9], 0x1011C, 8, 0x40, 1, 0x4, 0x10, 0xFFFFFF, 0x0, 0x0, 0x0, 0x0⟩,
  ⟨.TG_MK_SRC, [6, 7, 8, 9], 0x10314, 4, 0x40, 1, 0x4, 0x30000, 0xC007000F, 0x0, 0x0, 0x0, 0x0⟩,
  ⟨.TG_MK_MIN, [6, 7, 8, 9], 0x10318, 4, 0x40, 1, 0x4, 0x10001, 0xFFFFFFFF, 0x0, 0x0, 0x0, 0x0⟩,
  ⟨.TG_MK_NPTS, [6, 7, 8, 9], 0x1031C, 4, 0x40, 1, 0x4, 0x2, 0x3FFF, 0x0, 0x0, 0x0, 0x0⟩,
  ⟨.TG_MK_PADDR, [6, 7, 8, 9], 0x10320, 4, 0x40, 1, 0x4, 0x0, 0x1FFF, 0x0, 0x0, 0x0, 0x0⟩,
  ⟨.TG_MK_PDATA, [6, 7, 8, 9], 0x10324, 4, 0x40, 1, 0x4, 0x0, 0xFFFFFFFF, 0x0, 0x0, 0x0, 0x0⟩,
  ⟨.TG_BP_AVG, [6, 7, 8, 9], 0x10414, 1, 0x4, 1, 0x4, 0x0, 0xF, 0x0, 0x0, 0x0, 0x0⟩,
  ⟨.TG_BP_SRC, [6, 7, 8, 9], 0x10800, 64, 0x10, 1, 0x4, 0x0, 0xCF010000, 0x0, 0x0, 0x0, 0x0⟩,
  ⟨.TG_BP_FIRST, [6, 7, 8, 9], 0x10804, 64, 0x10, 1, 0x4, 0x0, 0xFFFFF, 0x0, 0x0, 0x0, 0x0⟩,
  ⟨.TG_BP_LAST, [6, 7, 8, 9], 0x10808, 64, 0x10, 1, 0x4, 0x0, 0xFFFFF, 0x0, 0x0, 0x0, 0x0⟩,
  ⟨.TG_BP_LEVEL, [6, 7, 8, 9], 0x1080C, 64, 0x10, 1, 0x4, 0x8, 0xFFFF00FF, 0x0, 0x0, 0x0, 0x0⟩,
  ⟨.TG_DR_SRC, [6, 7, 8, 9], 0x10454, 1, 0x4, 1, 0x4, 0x0, 0xCF000000, 0x0, 0x0, 0x0, 0x0⟩,
  ⟨.TG_DR_GEOM, [6, 7, 8, 9], 0x10458, 1, 0x4, 1, 0x4, 0x0, 0xF00FFFFF, 0x0, 0x0, 0x0, 0x0⟩,
  ⟨.TG_DR_STEP, [6, 7, 8, 9], 0x1045C, 1, 0x4, 1, 0x4, 0xFF0040, 0xFFFFFFF, 0x0, 0x0, 0x0, 0x0⟩,
  ⟨.TG_DR_SPAN, [6, 7, 8, 9], 0x10460, 1, 0x4, 1, 0x4, 0xA, 0x7FF001F, 0x0, 0x0, 0x0, 0x0⟩,
  ⟨.TG_DR_THRESH, [6, 7, 8, 9], 0x10464, 1, 0x4, 1, 0x4, 0x100080, 0xFFF0FFF, 0x0, 0x0, 0x0, 0x0⟩,
  ⟨.TG_DR_F0_KHZ, [6, 7, 8, 9], 0x10468, 1, 0x4, 1, 0x4, 0x0, 0xFFFFFFFF, 0x0, 0x0, 0x0, 0x0⟩,
  ⟨.TG_DR_LAW_ADDR, [6, 7, 8, 9], 0x1046C, 1, 0x4, 1, 0x4, 0x0, 0x7FF, 0x0, 0x0, 0x0, 0x0⟩,
  ⟨.TG_DR_LAW_DATA, [6, 7, 8, 9], 0x10470, 1, 0x4, 1, 0x4, 0x0, 0xFFFFFFFF, 0x0, 0x0, 0x0, 0x0⟩,
  ⟨.TG_DR_WIDTHS, [6, 7, 8, 9], 0x10478, 1, 0x4, 1, 0x4, 0x1, 0x1FF, 0x0, 0x0, 0x0, 0x0⟩,
  ⟨.TG_DR_LAT_NS, [6, 7, 8, 9], 0x1047C, 1, 0x4, 1, 0x4, 0x0, 0x0, 0x0, 0x0, 0x0, 0x0⟩,
  ⟨.TG_SQ_CFG, [6, 7, 8, 9], 0x10494, 2, 0x40, 1, 0x4, 0x0, 0x3, 0x0, 0x0, 0x0, 0x0⟩,
  ⟨.TG_SQ_MEMBER, [6, 7, 8, 9], 0x10498, 2, 0x40, 4, 0x4, 0x0, 0x3FF3FFF, 0x0, 0x0, 0x0, 0x0⟩,
  ⟨.TG_SQ_WIN, [6, 7, 8, 9], 0x104A4, 2, 0x40, 4, 0x4, 0x3E8, 0xFFFFFFFF, 0x0, 0x0, 0x0, 0x0⟩,
  ⟨.TG_SQ_HOLD, [6, 7, 8, 9], 0x104B4, 2, 0x40, 1, 0x4, 0x0, 0x0, 0x0, 0x0, 0x0, 0x0⟩,
  ⟨.TG_SQ_STATE, [6, 7, 8, 9], 0x104B8, 2, 0x40, 1, 0x4, 0x0, 0x0, 0x0, 0x0, 0x0, 0x0⟩]

/-- Registers of windows 6 to 9. -/
def rowsSP : List RegRow := rowsSP0 ++ rowsSP1

/-- Registers of window 10, in chapter order. -/
def rowsCB : List RegRow := [
  ⟨.CE_RIN_SRC, [10], 0x400, 16, 0x10, 1, 0x4, 0x2000, 0xFFFFFFFF, 0x0, 0x0, 0x0, 0x0⟩,
  ⟨.CE_RIN_CFG, [10], 0x404, 16, 0x10, 1, 0x4, 0x4011, 0xE11F, 0x0, 0x0, 0x0, 0x0⟩,
  ⟨.CE_RIN_DROP, [10], 0x408, 16, 0x10, 1, 0x4, 0x0, 0x0, 0x0, 0x0, 0xFFFFFFFF, 0x0⟩,
  ⟨.CE_XS_CTL, [10], 0x1000, 1, 0x4, 1, 0x4, 0x0, 0x1, 0x0, 0x0, 0x0, 0x0⟩,
  ⟨.CE_XS_CFG, [10], 0x1004, 1, 0x4, 1, 0x4, 0x20002710, 0x7FFFFFFF, 0x0, 0x0, 0x0, 0x0⟩,
  ⟨.CE_XS_STATUS, [10], 0x1008, 1, 0x4, 1, 0x4, 0x0, 0x0, 0x6, 0x0, 0x0, 0x0⟩,
  ⟨.CE_XS_SAT_COUNT, [10], 0x100C, 1, 0x4, 1, 0x4, 0x0, 0x0, 0x0, 0x0, 0xFFFFFFFF, 0x0⟩,
  ⟨.CE_XS_UNMATCHED, [10], 0x1010, 1, 0x4, 1, 0x4, 0x0, 0x0, 0x0, 0x0, 0xFFFFFFFF, 0x0⟩,
  ⟨.CE_XS_DONE, [10], 0x1014, 1, 0x4, 1, 0x4, 0x0, 0x0, 0x0, 0x0, 0x0, 0x0⟩,
  ⟨.CE_BM_SAT_COUNT, [10], 0x1018, 1, 0x4, 1, 0x4, 0x0, 0x0, 0x0, 0x0, 0xFFFFFFFF, 0x0⟩,
  ⟨.CE_XP_SEL, [10], 0x2000, 528, 0x8, 1, 0x4, 0x0, 0x80001F1F, 0x0, 0x0, 0x0, 0x0⟩,
  ⟨.CE_XP_RANGE, [10], 0x2004, 528, 0x8, 1, 0x4, 0x700000, 0xFFFFFFF, 0x0, 0x0, 0x0, 0x0⟩,
  ⟨.CE_BM_CTL, [10], 0x4000, 32, 0x80, 1, 0x4, 0x0, 0x3, 0x0, 0x0, 0x0, 0x0⟩,
  ⟨.CE_BM_INPUTS, [10], 0x4004, 32, 0x80, 1, 0x4, 0x0, 0xFFFF, 0x0, 0x0, 0x0, 0x0⟩,
  ⟨.CE_BM_RANGE, [10], 0x4008, 32, 0x80, 1, 0x4, 0x700000, 0x1FFFFFF, 0x0, 0x0, 0x0, 0x0⟩,
  ⟨.CE_BM_RED, [10], 0x400C, 32, 0x80, 1, 0x4, 0x20000040, 0x7F0F1FC7, 0x0, 0x0, 0x0, 0x0⟩,
  ⟨.CE_BM_PARENT, [10], 0x4010, 32, 0x80, 1, 0x4, 0x0, 0xFFFF, 0x0, 0x0, 0x0, 0x0⟩,
  ⟨.CE_BM_CHILD, [10], 0x4014, 32, 0x80, 4, 0x4, 0x0, 0xFFFFFFFF, 0x0, 0x0, 0x0, 0x0⟩,
  ⟨.CE_BM_MK_CTL, [10], 0x4024, 32, 0x80, 1, 0x4, 0x0, 0x0, 0x0, 0x1, 0x0, 0x0⟩,
  ⟨.CE_BM_MK_SEC, [10], 0x4028, 32, 0x80, 1, 0x4, 0x0, 0xFFFFFFFF, 0x0, 0x0, 0x0, 0x0⟩,
  ⟨.CE_BM_MK_FRAC, [10], 0x402C, 32, 0x80, 1, 0x4, 0x0, 0xFFFFFFFF, 0x0, 0x0, 0x0, 0x0⟩,
  ⟨.CE_BM_RAMP_NS, [10], 0x4030, 32, 0x80, 1, 0x4, 0x3B9ACA00, 0xFFFFFFFF, 0x0, 0x0, 0x0, 0x0⟩,
  ⟨.CE_BM_RAMP_STEPS, [10], 0x4034, 32, 0x80, 1, 0x4, 0x40, 0xFFFF, 0x0, 0x0, 0x0, 0x0⟩,
  ⟨.CE_BM_PARTIAL, [10], 0x4038, 32, 0x80, 1, 0x4, 0x0, 0x0, 0x0, 0x0, 0xFFFFFFFF, 0x0⟩,
  ⟨.CE_BM_LATE, [10], 0x403C, 32, 0x80, 1, 0x4, 0x0, 0x0, 0x0, 0x0, 0xFFFFFFFF, 0x0⟩,
  ⟨.CE_BM_DONE_SEC, [10], 0x4040, 32, 0x80, 1, 0x4, 0x0, 0x0, 0x0, 0x0, 0x0, 0x0⟩,
  ⟨.CE_BM_DONE_FRAC, [10], 0x4044, 32, 0x80, 1, 0x4, 0x0, 0x0, 0x0, 0x0, 0x0, 0x0⟩,
  ⟨.CE_WT_ADDR, [10], 0x6000, 1, 0x4, 1, 0x4, 0x0, 0x801FFFFF, 0x0, 0x0, 0x0, 0x0⟩,
  ⟨.CE_WT_DATA, [10], 0x6004, 1, 0x4, 1, 0x4, 0x4000, 0xFFFFFFFF, 0x0, 0x0, 0x0, 0x0⟩]

/-- Registers of window 11, in chapter order. -/
def rowsMEM : List RegRow := [
  ⟨.QU_VR_CTL, [11], 0x10000, 16, 0x10, 1, 0x4, 0x0, 0x1, 0x0, 0x0, 0x0, 0x0⟩,
  ⟨.QU_VR_SIZE, [11], 0x10004, 16, 0x10, 1, 0x4, 0x400, 0xFFFF, 0x0, 0x0, 0x0, 0x0⟩,
  ⟨.QU_VR_LOST, [11], 0x10008, 16, 0x10, 1, 0x4, 0x0, 0x0, 0x0, 0x0, 0xFFFFFFFF, 0x0⟩,
  ⟨.QU_VR_STATUS, [11], 0x1000C, 16, 0x10, 1, 0x4, 0x0, 0x0, 0x0, 0x0, 0x0, 0x0⟩,
  ⟨.QU_G_CTL, [11], 0x20000, 64, 0x80, 1, 0x4, 0x0, 0xF, 0x0, 0x0, 0x0, 0x0⟩,
  ⟨.QU_G_INPUTS, [11], 0x20004, 64, 0x80, 1, 0x4, 0x0, 0xFFFF, 0x0, 0x0, 0x0, 0x0⟩,
  ⟨.QU_G_LEN, [11], 0x20008, 64, 0x80, 1, 0x4, 0x100, 0x1FFFFFF, 0x0, 0x0, 0x0, 0x0⟩,
  ⟨.QU_G_PRE, [11], 0x2000C, 64, 0x80, 1, 0x4, 0x0, 0x1FFFFFF, 0x0, 0x0, 0x0, 0x0⟩,
  ⟨.QU_G_AREA, [11], 0x20010, 64, 0x80, 1, 0x4, 0x40, 0xFFFF, 0x0, 0x0, 0x0, 0x0⟩,
  ⟨.QU_G_RATE, [11], 0x20014, 64, 0x80, 1, 0x4, 0x64, 0xFFF, 0x0, 0x0, 0x0, 0x0⟩,
  ⟨.QU_G_TRIG, [11], 0x20018, 64, 0x80, 5, 0x4, 0x0, 0xFFFF, 0x0, 0x0, 0x0, 0x0⟩,
  ⟨.QU_G_NQ, [11], 0x2002C, 64, 0x80, 1, 0x4, 0x0, 0x0, 0x0, 0x0, 0x0, 0x0⟩,
  ⟨.QU_G_NEXT_LO, [11], 0x20030, 64, 0x80, 1, 0x4, 0x0, 0x0, 0x0, 0x0, 0x0, 0x0⟩,
  ⟨.QU_G_NEXT_HI, [11], 0x20034, 64, 0x80, 1, 0x4, 0x0, 0x0, 0x0, 0x0, 0x0, 0x0⟩,
  ⟨.QU_G_CLOSED_LO, [11], 0x20038, 64, 0x80, 1, 0x4, 0xFFFFFFFF, 0x0, 0x0, 0x0, 0x0, 0x0⟩,
  ⟨.QU_G_CLOSED_HI, [11], 0x2003C, 64, 0x80, 1, 0x4, 0xFFFFFFFF, 0x0, 0x0, 0x0, 0x0, 0x0⟩,
  ⟨.QU_G_RELEASE_LO, [11], 0x20040, 64, 0x80, 1, 0x4, 0xFFFFFFFF, 0xFFFFFFFF, 0x0, 0x0, 0x0, 0x0⟩,
  ⟨.QU_G_RELEASE_HI, [11], 0x20044, 64, 0x80, 1, 0x4, 0xFFFFFFFF, 0xFFFFFFFF, 0x0, 0x0, 0x0, 0x0⟩,
  ⟨.QU_G_IGNORED, [11], 0x20048, 64, 0x80, 1, 0x4, 0x0, 0x0, 0x0, 0x0, 0xFFFFFFFF, 0x0⟩,
  ⟨.QU_G_REFUSED, [11], 0x2004C, 64, 0x80, 1, 0x4, 0x0, 0x0, 0x0, 0x0, 0xFFFFFFFF, 0x0⟩,
  ⟨.QU_G_OVERRUN, [11], 0x20050, 64, 0x80, 1, 0x4, 0x0, 0x0, 0x0, 0x0, 0xFFFFFFFF, 0x0⟩,
  ⟨.QU_G_BASE_LO, [11], 0x20054, 64, 0x80, 1, 0x4, 0x0, 0x0, 0x0, 0x0, 0x0, 0x0⟩,
  ⟨.QU_G_BASE_HI, [11], 0x20058, 64, 0x80, 1, 0x4, 0x0, 0x0, 0x0, 0x0, 0x0, 0x0⟩,
  ⟨.QU_G_COLO_LO, [11], 0x2005C, 64, 0x80, 1, 0x4, 0x0, 0x0, 0x0, 0x0, 0x0, 0x0⟩,
  ⟨.QU_G_COLO_HI, [11], 0x20060, 64, 0x80, 1, 0x4, 0x0, 0x0, 0x0, 0x0, 0x0, 0x0⟩,
  ⟨.QU_G_STATUS, [11], 0x20064, 64, 0x80, 1, 0x4, 0x0, 0x0, 0x0, 0x0, 0x0, 0x0⟩,
  ⟨.CM_CFG, [11], 0x4000, 1, 0x4, 1, 0x4, 0x1348, 0x1FFE, 0x0, 0x0, 0x0, 0x0⟩,
  ⟨.CM_SCHED, [11], 0x4004, 1, 0x4, 1, 0x4, 0xC00040, 0x1FF01FF, 0x0, 0x0, 0x0, 0x0⟩,
  ⟨.CM_PAGE, [11], 0x4008, 1, 0x4, 1, 0x4, 0x10100, 0x11FFF, 0x0, 0x0, 0x0, 0x0⟩,
  ⟨.CM_REF, [11], 0x400C, 1, 0x4, 1, 0x4, 0x8200108, 0xFFE00FFF, 0x0, 0x0, 0x0, 0x0⟩,
  ⟨.CM_SR, [11], 0x4010, 1, 0x4, 1, 0x4, 0x10000003, 0xFFFF000F, 0x0, 0x0, 0x0, 0x0⟩,
  ⟨.CM_STATUS, [11], 0x4014, 1, 0x4, 1, 0x4, 0x0, 0x0, 0x0, 0x0, 0x0, 0x0⟩,
  ⟨.CM_SIZE_MIB, [11], 0x4018, 1, 0x4, 1, 0x4, 0x0, 0x0, 0x0, 0x0, 0x0, 0x0⟩,
  ⟨.CM_CH_STATUS, [11], 0x4400, 16, 0x40, 1, 0x4, 0x0, 0x0, 0x0, 0x0, 0x0, 0x0⟩,
  ⟨.CM_CH_CE, [11], 0x4404, 16, 0x40, 1, 0x4, 0x0, 0x0, 0x0, 0x0, 0xFFFFFFFF, 0x0⟩,
  ⟨.CM_CH_UE, [11], 0x4408, 16, 0x40, 1, 0x4, 0x0, 0x0, 0x0, 0x0, 0xFFFFFFFF, 0x0⟩,
  ⟨.CM_CH_STALL, [11], 0x440C, 16, 0x40, 1, 0x4, 0x0, 0x0, 0x0, 0x0, 0xFFFFFFFF, 0x0⟩,
  ⟨.CM_CH_CROSS, [11], 0x4410, 16, 0x40, 1, 0x4, 0x0, 0x0, 0x0, 0x0, 0xFFFFFFFF, 0x0⟩,
  ⟨.CM_CH_RAW, [11], 0x4414, 16, 0x40, 1, 0x4, 0x0, 0x0, 0x0, 0x0, 0xFFFFFFFF, 0x0⟩,
  ⟨.CM_CH_WAKE, [11], 0x4418, 16, 0x40, 1, 0x4, 0x0, 0x0, 0x0, 0x0, 0xFFFFFFFF, 0x0⟩,
  ⟨.CM_CH_ERR_LO, [11], 0x441C, 16, 0x40, 1, 0x4, 0x0, 0x0, 0x0, 0x0, 0x0, 0x0⟩,
  ⟨.CM_CH_ERR_HI, [11], 0x4420, 16, 0x40, 1, 0x4, 0x0, 0x0, 0x0, 0x0, 0x0, 0x0⟩,
  ⟨.CM_SEG, [11], 0x4800, 16, 0x4, 1, 0x4, 0x0, 0x0, 0x0, 0x0, 0x0, 0x0⟩]

/-- Registers of window 12, in chapter order. -/
def rowsBD : List RegRow := [
  ⟨.BD_CTL, [12], 0x4000, 1, 0x4, 1, 0x4, 0x1, 0x3, 0x0, 0x4, 0x0, 0x0⟩,
  ⟨.BD_CFG, [12], 0x4004, 1, 0x4, 1, 0x4, 0x82, 0xF3, 0x0, 0x0, 0x0, 0x0⟩,
  ⟨.BD_STATUS, [12], 0x4008, 1, 0x4, 1, 0x4, 0x0, 0x0, 0x0, 0x0, 0x0, 0x0⟩,
  ⟨.BD_LIMITS, [12], 0x400C, 1, 0x4, 1, 0x4, 0x100145A, 0xFFFFFFFF, 0x0, 0x0, 0x0, 0x0⟩,
  ⟨.BD_PATROL, [12], 0x4010, 1, 0x4, 1, 0x4, 0xB40007, 0xFFFF00FF, 0x0, 0x0, 0x0, 0x0⟩,
  ⟨.BD_RETAIN_AGE, [12], 0x4014, 1, 0x4, 1, 0x4, 0x2238, 0xFFFFFFFF, 0x0, 0x0, 0x0, 0x0⟩,
  ⟨.BD_FLASH_TEMP, [12], 0x4018, 1, 0x4, 1, 0x4, 0x370, 0xFFFF, 0x0, 0x0, 0x0, 0x0⟩,
  ⟨.BD_RATES, [12], 0x401C, 1, 0x4, 1, 0x4, 0x640032, 0xFFFFFFFF, 0x0, 0x0, 0x0, 0x0⟩,
  ⟨.BD_BUDGET, [12], 0x4020, 1, 0x4, 1, 0x4, 0x1E0, 0x0, 0x0, 0x0, 0x0, 0x0⟩,
  ⟨.BD_LOST, [12], 0x4024, 1, 0x4, 1, 0x4, 0x0, 0x0, 0x0, 0x0, 0xFFFFFFFF, 0x0⟩,
  ⟨.BD_CH_STATUS, [12], 0x4400, 32, 0x10, 1, 0x4, 0x0, 0x0, 0x0, 0x0, 0x0, 0x0⟩,
  ⟨.BD_CH_FREE, [12], 0x4404, 32, 0x10, 1, 0x4, 0x0, 0x0, 0x0, 0x0, 0x0, 0x0⟩,
  ⟨.BD_CH_BAD, [12], 0x4408, 32, 0x10, 1, 0x4, 0x0, 0x0, 0x0, 0x0, 0x0, 0x0⟩,
  ⟨.BD_CH_PE, [12], 0x440C, 32, 0x10, 1, 0x4, 0x0, 0x0, 0x0, 0x0, 0x0, 0x0⟩,
  ⟨.BD_VS_CTL, [12], 0x5000, 32, 0x80, 1, 0x4, 0x0, 0x20, 0x0, 0x3, 0x0, 0x0⟩,
  ⟨.BD_VS_ID, [12], 0x5004, 32, 0x80, 1, 0x4, 0x0, 0x0, 0x0, 0x0, 0x0, 0x0⟩,
  ⟨.BD_VS_CFG, [12], 0x5008, 32, 0x80, 1, 0x4, 0x1, 0xFFFFFF1F, 0x0, 0x0, 0x0, 0x0⟩,
  ⟨.BD_VS_SECTIONS, [12], 0x500C, 32, 0x80, 1, 0x4, 0x0, 0x0, 0x0, 0x0, 0x0, 0x0⟩,
  ⟨.BD_VS_LSEQ_LO, [12], 0x5010, 32, 0x80, 1, 0x4, 0x0, 0x0, 0x0, 0x0, 0x0, 0x0⟩,
  ⟨.BD_VS_LSEQ_HI, [12], 0x5014, 32, 0x80, 1, 0x4, 0x0, 0x0, 0x0, 0x0, 0x0, 0x0⟩,
  ⟨.BD_VS_DISCARDED, [12], 0x5018, 32, 0x80, 1, 0x4, 0x0, 0x0, 0x0, 0x0, 0xFFFFFFFF, 0x0⟩,
  ⟨.BD_VS_KEYS, [12], 0x501C, 32, 0x80, 1, 0x4, 0x0, 0xFFFF, 0x0, 0x0, 0x0, 0x0⟩,
  ⟨.BD_VS_KEY, [12], 0x5040, 32, 0x80, 16, 0x4, 0x0, 0xFFFFFFFF, 0x0, 0x0, 0x0, 0x0⟩,
  ⟨.BD_RS_CTL, [12], 0x6000, 4, 0x40, 1, 0x4, 0x0, 0xC, 0x0, 0x3, 0x0, 0x0⟩,
  ⟨.BD_RS_VOL, [12], 0x6004, 4, 0x40, 1, 0x4, 0x0, 0xFFFFFFFF, 0x0, 0x0, 0x0, 0x0⟩,
  ⟨.BD_RS_SEC, [12], 0x6008, 4, 0x40, 1, 0x4, 0x0, 0xFFFFFFFF, 0x0, 0x0, 0x0, 0x0⟩,
  ⟨.BD_RS_FRAC, [12], 0x600C, 4, 0x40, 1, 0x4, 0x0, 0xFFFFFFFF, 0x0, 0x0, 0x0, 0x0⟩,
  ⟨.BD_RS_SINK, [12], 0x6010, 4, 0x40, 1, 0x4, 0x2, 0x7F07, 0x0, 0x0, 0x0, 0x0⟩,
  ⟨.BD_RS_RATE, [12], 0x6014, 4, 0x40, 1, 0x4, 0x64, 0xFFFF, 0x0, 0x0, 0x0, 0x0⟩,
  ⟨.BD_CAT_IDX, [12], 0x6800, 1, 0x4, 1, 0x4, 0x0, 0xFFFF, 0x0, 0x0, 0x0, 0x0⟩,
  ⟨.BD_CAT_ID, [12], 0x6804, 1, 0x4, 1, 0x4, 0x0, 0x0, 0x0, 0x0, 0x0, 0x0⟩,
  ⟨.BD_CAT_INFO, [12], 0x6808, 1, 0x4, 1, 0x4, 0x0, 0x0, 0x0, 0x0, 0x0, 0x0⟩,
  ⟨.BD_CAT_DEL, [12], 0x680C, 1, 0x4, 1, 0x4, 0x0, 0x0, 0x0, 0x0, 0x0, 0xFFFFFFFF⟩,
  ⟨.BD_CAT_COUNT, [12], 0x6810, 1, 0x4, 1, 0x4, 0x0, 0x0, 0x0, 0x0, 0x0, 0x0⟩]

/-- Registers of windows 13 and 14, in chapter order. Bits 31:16 of KL_EX_MAC_HI and KL_XF_DMAC_HI, of which the manual says nothing, are read and written like the rest
(DESIGN CHOICE, assumption 56). -/
def rowsKL : List RegRow := [
  ⟨.KL_LANE_STATUS, [13, 14], 0x2000, 68, 0x20, 1, 0x4, 0x0, 0x0, 0x0, 0x0, 0x0, 0x0⟩,
  ⟨.KL_LANE_CORR_LO, [13, 14], 0x2004, 68, 0x20, 1, 0x4, 0x0, 0x0, 0x0, 0x0, 0x0, 0x0⟩,
  ⟨.KL_LANE_CORR_HI, [13, 14], 0x2008, 68, 0x20, 1, 0x4, 0x0, 0x0, 0x0, 0x0, 0x0, 0x0⟩,
  ⟨.KL_LANE_UNCORR, [13, 14], 0x200C, 68, 0x20, 1, 0x4, 0x0, 0x0, 0x0, 0x0, 0xFFFFFFFF, 0x0⟩,
  ⟨.KL_LANE_LIMIT, [13, 14], 0x2010, 68, 0x20, 1, 0x4, 0x400C0, 0xFFFF00FF, 0x0, 0x0, 0x0, 0x0⟩,
  ⟨.KL_SPARE, [13, 14], 0x3000, 4, 0x4, 1, 0x4, 0x0, 0x1F1, 0x0, 0x0, 0x0, 0x0⟩,
  ⟨.KL_PORT_CTL, [13, 14], 0x4000, 32, 0x40, 1, 0x4, 0x400, 0x3E7F, 0x0, 0x0, 0x0, 0x0⟩,
  ⟨.KL_PORT_STATUS, [13, 14], 0x4004, 32, 0x40, 1, 0x4, 0x0, 0x0, 0x300, 0x0, 0x0, 0x0⟩,
  ⟨.KL_PORT_PEER, [13, 14], 0x4008, 32, 0x40, 1, 0x4, 0x0, 0x0, 0x0, 0x0, 0x0, 0x0⟩,
  ⟨.KL_PORT_ABORTS, [13, 14], 0x400C, 32, 0x40, 1, 0x4, 0x0, 0x0, 0x0, 0x0, 0xFFFFFFFF, 0x0⟩,
  ⟨.KL_PORT_SBERR, [13, 14], 0x4010, 32, 0x40, 1, 0x4, 0x0, 0x0, 0x0, 0x0, 0xFFFFFFFF, 0x0⟩,
  ⟨.KL_TT_CTL, [13, 14], 0x4020, 32, 0x40, 1, 0x4, 0x1, 0x1, 0x0, 0x2, 0x0, 0x0⟩,
  ⟨.KL_TT_ASYM, [13, 14], 0x4024, 32, 0x40, 1, 0x4, 0x0, 0xFFFFFFFF, 0x0, 0x0, 0x0, 0x0⟩,
  ⟨.KL_TT_OFFSET, [13, 14], 0x4028, 32, 0x40, 1, 0x4, 0x0, 0x0, 0x0, 0x0, 0x0, 0x0⟩,
  ⟨.KL_TT_DELAY, [13, 14], 0x402C, 32, 0x40, 1, 0x4, 0x0, 0x0, 0x0, 0x0, 0x0, 0x0⟩,
  ⟨.KL_TT_STATUS, [13, 14], 0x4030, 32, 0x40, 1, 0x4, 0x0, 0x0, 0x8, 0x0, 0x0, 0x0⟩,
  ⟨.KL_EX_CTL, [13, 14], 0x6000, 32, 0x40, 1, 0x4, 0x4E592328, 0xFFFFBFFF, 0x0, 0x0, 0x0, 0x0⟩,
  ⟨.KL_EX_MAC_LO, [13, 14], 0x6004, 32, 0x40, 1, 0x4, 0x0, 0xFFFFFFFF, 0x0, 0x0, 0x0, 0x0⟩,
  ⟨.KL_EX_MAC_HI, [13, 14], 0x6008, 32, 0x40, 1, 0x4, 0x0, 0xFFFFFFFF, 0x0, 0x0, 0x0, 0x0⟩,
  ⟨.KL_EX_IP4, [13, 14], 0x600C, 32, 0x40, 1, 0x4, 0x0, 0xFFFFFFFF, 0x0, 0x0, 0x0, 0x0⟩,
  ⟨.KL_EX_IP6, [13, 14], 0x6010, 32, 0x40, 4, 0x4, 0x0, 0xFFFFFFFF, 0x0, 0x0, 0x0, 0x0⟩,
  ⟨.KL_EX_RXDROP, [13, 14], 0x6020, 32, 0x40, 1, 0x4, 0x0, 0x0, 0x0, 0x0, 0xFFFFFFFF, 0x0⟩,
  ⟨.KL_XF_CTL, [13, 14], 0x8000, 64, 0x40, 1, 0x4, 0x0, 0xFC1F01, 0x0, 0x0, 0x0, 0x0⟩,
  ⟨.KL_XF_DPORT, [13, 14], 0x8004, 64, 0x40, 1, 0x4, 0x0, 0xFFFF, 0x0, 0x0, 0x0, 0x0⟩,
  ⟨.KL_XF_DMAC_LO, [13, 14], 0x8008, 64, 0x40, 1, 0x4, 0x0, 0xFFFFFFFF, 0x0, 0x0, 0x0, 0x0⟩,
  ⟨.KL_XF_DMAC_HI, [13, 14], 0x800C, 64, 0x40, 1, 0x4, 0x0, 0xFFFFFFFF, 0x0, 0x0, 0x0, 0x0⟩,
  ⟨.KL_XF_DIP4, [13, 14], 0x8010, 64, 0x40, 1, 0x4, 0x0, 0xFFFFFFFF, 0x0, 0x0, 0x0, 0x0⟩,
  ⟨.KL_XF_DIP6, [13, 14], 0x8014, 64, 0x40, 4, 0x4, 0x0, 0xFFFFFFFF, 0x0, 0x0, 0x0, 0x0⟩,
  ⟨.KL_XF_DGRAMS, [13, 14], 0x8024, 64, 0x40, 1, 0x4, 0x0, 0x0, 0x0, 0x0, 0x0, 0x0⟩,
  ⟨.KL_XF_DROPPED, [13, 14], 0x8028, 64, 0x40, 1, 0x4, 0x0, 0x0, 0x0, 0x0, 0xFFFFFFFF, 0x0⟩]

/-- Registers of window 15, in chapter order (part 0). -/
def rowsHS0 : List RegRow := [
  ⟨.HS_WD_BASE, [15], 0x2000, 1, 0x4, 1, 0x4, 0x0, 0x7F, 0x0, 0x0, 0x0, 0x0⟩,
  ⟨.HS_PCIE_STATUS, [15], 0x2004, 1, 0x4, 1, 0x4, 0x0, 0x0, 0x0, 0x0, 0x0, 0x0⟩,
  ⟨.HS_WD_POISON, [15], 0x2008, 1, 0x4, 1, 0x4, 0x0, 0x0, 0x0, 0x0, 0xFFFFFFFF, 0x0⟩,
  ⟨.HS_WD_DENIED, [15], 0x200C, 1, 0x4, 1, 0x4, 0x0, 0x0, 0x0, 0x0, 0xFFFFFFFF, 0x0⟩,
  ⟨.DMA_CTL, [15], 0x10000, 64, 0x40, 1, 0x4, 0xF0000, 0xFFFF1F03, 0x0, 0x18, 0x0, 0x0⟩,
  ⟨.DMA_STATUS, [15], 0x10004, 64, 0x40, 1, 0x4, 0x0, 0x0, 0x0, 0x0, 0x0, 0x0⟩,
  ⟨.DMA_DESC_ADDR_LO, [15], 0x10008, 64, 0x40, 1, 0x4, 0x0, 0xFFFFFFFF, 0x0, 0x0, 0x0, 0x0⟩,
  ⟨.DMA_DESC_ADDR_HI, [15], 0x1000C, 64, 0x40, 1, 0x4, 0x0, 0xFFFFFFFF, 0x0, 0x0, 0x0, 0x0⟩,
  ⟨.DMA_CUR_LO, [15], 0x10010, 64, 0x40, 1, 0x4, 0x0, 0x0, 0x0, 0x0, 0x0, 0x0⟩,
  ⟨.DMA_CUR_HI, [15], 0x10014, 64, 0x40, 1, 0x4, 0x0, 0x0, 0x0, 0x0, 0x0, 0x0⟩,
  ⟨.DMA_ERR_ADDR_LO, [15], 0x10018, 64, 0x40, 1, 0x4, 0x0, 0x0, 0x0, 0x0, 0x0, 0x0⟩,
  ⟨.DMA_ERR_ADDR_HI, [15], 0x1001C, 64, 0x40, 1, 0x4, 0x0, 0x0, 0x0, 0x0, 0x0, 0x0⟩,
  ⟨.DMA_DONE, [15], 0x10020, 64, 0x40, 1, 0x4, 0x0, 0x0, 0x0, 0x0, 0x0, 0x0⟩,
  ⟨.DMA_FLUSH, [15], 0x10024, 64, 0x40, 1, 0x4, 0x64, 0xFFFF, 0x0, 0x0, 0x0, 0x0⟩,
  ⟨.DMA_DISCARDED, [15], 0x10028, 64, 0x40, 1, 0x4, 0x0, 0x0, 0x0, 0x0, 0xFFFFFFFF, 0x0⟩,
  ⟨.HQ_CTL, [15], 0x20000, 32, 0x20, 1, 0x4, 0x10, 0xFFFFFFFF, 0x0, 0x0, 0x0, 0x0⟩,
  ⟨.HQ_STATUS, [15], 0x20004, 32, 0x20, 1, 0x4, 0x0, 0xC0000000, 0x2, 0x0, 0x0, 0x0⟩,
  ⟨.HQ_CE, [15], 0x20008, 32, 0x20, 1, 0x4, 0x0, 0x0, 0x0, 0x0, 0xFFFFFFFF, 0x0⟩,
  ⟨.HQ_UE, [15], 0x2000C, 32, 0x20, 1, 0x4, 0x0, 0x0, 0x0, 0x0, 0xFFFFFFFF, 0x0⟩,
  ⟨.HQ_INVALID, [15], 0x20010, 32, 0x20, 1, 0x4, 0x0, 0x0, 0x0, 0x0, 0xFFFFFFFF, 0x0⟩,
  ⟨.HQ_BADACC, [15], 0x20014, 32, 0x20, 1, 0x4, 0x0, 0x0, 0x0, 0x0, 0xFFFFFFFF, 0x0⟩,
  ⟨.DS_TOL_NS, [15], 0x3000, 1, 0x4, 1, 0x4, 0x0, 0x0, 0x0, 0x0, 0x0, 0x0⟩,
  ⟨.DS_CTL, [15], 0x40000, 2, 0x10000, 1, 0x4, 0x0, 0xF03, 0x0, 0x0, 0x0, 0x0⟩,
  ⟨.DS_LINK, [15], 0x40004, 2, 0x10000, 1, 0x4, 0xB, 0xF, 0x0, 0x0, 0x0, 0x0⟩,
  ⟨.DS_STATUS, [15], 0x40008, 2, 0x10000, 1, 0x4, 0x0, 0x0, 0x60, 0x0, 0x0, 0x0⟩,
  ⟨.DS_WM, [15], 0x4000C, 2, 0x10000, 1, 0x4, 0xC0004, 0xF000F, 0x0, 0x0, 0x0, 0x0⟩,
  ⟨.DS_HTIM, [15], 0x40010, 2, 0x10000, 1, 0x4, 0x8980780, 0xFFFFFFFF, 0x0, 0x0, 0x0, 0x0⟩,
  ⟨.DS_HSYNC, [15], 0x40014, 2, 0x10000, 1, 0x4, 0x2C0058, 0xFFFFFFFF, 0x0, 0x0, 0x0, 0x0⟩,
  ⟨.DS_VTIM, [15], 0x40018, 2, 0x10000, 1, 0x4, 0x4650438, 0xFFFFFFFF, 0x0, 0x0, 0x0, 0x0⟩,
  ⟨.DS_VSYNC, [15], 0x4001C, 2, 0x10000, 1, 0x4, 0x50004, 0xFFFFFFFF, 0x0, 0x0, 0x0, 0x0⟩,
  ⟨.DS_PCLK, [15], 0x40020, 2, 0x10000, 1, 0x4, 0x24414, 0xFFFFF, 0x0, 0x0, 0x0, 0x0⟩,
  ⟨.DS_BG, [15], 0x40024, 2, 0x10000, 1, 0x4, 0x0, 0xFFFFFF, 0x0, 0x0, 0x0, 0x0⟩,
  ⟨.DS_FREEZE, [15], 0x40028, 2, 0x10000, 1, 0x4, 0x3C, 0xFF, 0x0, 0x0, 0x0, 0x0⟩,
  ⟨.DS_OUT_SIG, [15], 0x4002C, 2, 0x10000, 1, 0x4, 0x0, 0x0, 0x0, 0x0, 0x0, 0x0⟩,
  ⟨.DS_FRAMES, [15], 0x40030, 2, 0x10000, 1, 0x4, 0x0, 0x0, 0x0, 0x0, 0x0, 0x0⟩,
  ⟨.DS_AUX_CMD, [15], 0x40040, 2, 0x10000, 1, 0x4, 0x0, 0xFFFFFFF, 0x0, 0x80000000, 0x0, 0x0⟩,
  ⟨.DS_AUX_STAT, [15], 0x40044, 2, 0x10000, 1, 0x4, 0x0, 0x0, 0x0, 0x0, 0x0, 0x0⟩,
  ⟨.DS_AUX_DATA, [15], 0x40050, 2, 0x10000, 4, 0x4, 0x0, 0xFFFFFFFF, 0x0, 0x0, 0x0, 0x0⟩,
  ⟨.DS_L_CTL, [15], 0x40100, 2, 0x10000, 4, 0x40, 0x0, 0x1D, 0x0, 0x0, 0x0, 0x0⟩,
  ⟨.DS_L_POS, [15], 0x40104, 2, 0x10000, 4, 0x40, 0x0, 0xFFFFFFFF, 0x0, 0x0, 0x0, 0x0⟩,
  ⟨.DS_L_SIZE, [15], 0x40108, 2, 0x10000, 4, 0x40, 0x0, 0xFFFFFFFF, 0x0, 0x0, 0x0, 0x0⟩,
  ⟨.DS_L_SRC, [15], 0x4010C, 2, 0x10000, 4, 0x40, 0x0, 0xFFFF, 0x0, 0x0, 0x0, 0x0⟩,
  ⟨.DS_L_SCALE, [15], 0x40110, 2, 0x10000, 4, 0x40, 0xFE000408, 0xFFFFFFFF, 0x0, 0x0, 0x0, 0x0⟩,
  ⟨.DS_L_SURF_LO, [15], 0x40114, 2, 0x10000, 4, 0x40, 0x0, 0x0, 0x0, 0x0, 0x0, 0x0⟩,
  ⟨.DS_L_SURF_HI, [15], 0x40118, 2, 0x10000, 4, 0x40, 0x0, 0x0, 0x0, 0x0, 0x0, 0x0⟩,
  ⟨.DS_L_SIG, [15], 0x4011C, 2, 0x10000, 4, 0x40, 0x0, 0x0, 0x0, 0x0, 0x0, 0x0⟩,
  ⟨.DS_L_UNDERRUN, [15], 0x40120, 2, 0x10000, 4, 0x40, 0x0, 0x0, 0x0, 0x0, 0xFFFFFFFF, 0x0⟩,
  ⟨.DS_L_FREEZES, [15], 0x40124, 2, 0x10000, 4, 0x40, 0x0, 0x0, 0x0, 0x0, 0xFFFFFFFF, 0x0⟩,
  ⟨.DS_TR, [15], 0x40200, 2, 0x10000, 4, 0x4, 0xFF3000, 0x80FFFFFF, 0x0, 0x0, 0x0, 0x0⟩,
  ⟨.DS_PAL_ADDR, [15], 0x40300, 2, 0x10000, 1, 0x4, 0x0, 0x3FF, 0x0, 0x0, 0x0, 0x0⟩]

/-- Registers of window 15, in chapter order (part 1). -/
def rowsHS1 : List RegRow := [
  ⟨.DS_PAL_DATA, [15], 0x40304, 2, 0x10000, 1, 0x4, 0x0, 0x1FFFFFF, 0x0, 0x0, 0x0, 0x0⟩]

/-- Registers of window 15. -/
def rowsHS : List RegRow := rowsHS0 ++ rowsHS1

/-- The register map: the rows of window `w` (Table CP-7). -/
def regRows (w : Nat) : List RegRow :=
  if w = 0 then rowsW0
  else (if w = 1 then rowsW1 else if w ≤ 5 then rowsAF else if w ≤ 9 then rowsSP else if w = 10 then rowsCB
    else if w = 11 then rowsMEM else if w = 12 then rowsBD else if w ≤ 14 then rowsKL else if w = 15 then rowsHS else [])
    ++ rowsEvery

/-- Base address of window k (R545). -/
def winBase (k : Nat) : Nat := k * 0x100000
/-- Base of the synthesiser block b: 0 is the timebase's, k > 0 is region k's (Table TC-1). -/
def synBase (b : Nat) : Nat := if b = 0 then 0x100140 else winBase b + 0x100
/-- Base of the converter registers of input n (R115): 100h per input from window 2 + n / 4. -/
def inBase (n : Nat) : Nat := winBase (2 + n / 4) + 0x100 * (n % 4)
/-- Base of zoom path z (R150): 800h per path from 2000h of window 6 + z / 16. -/
def zpBase (z : Nat) : Nat := winBase (6 + z / 16) + 0x2000 + 0x800 * (z % 16)
/-- Base of the broad transform of input n (R192). -/
def btBase (n : Nat) : Nat := winBase (6 + n / 4) + 0x100 * (n % 4)
/-- Base of the static-mask port of input n (R226). -/
def mkBase (n : Nat) : Nat := winBase (6 + n / 4) + 0x10 * (n % 4)
/-- Base of the trigger queue block of region r: ST or an SP region (R264). -/
def tqBase (r : Nat) : Nat := if r = 1 then 0x105800 else winBase r + 0x10000
/-- Base of trigger unit u of region r (R264). -/
def tuBase (r u : Nat) : Nat := if r = 1 then 0x105000 + 0x40 * u else winBase r + 0x10100 + 0x40 * u

def GLOBAL_DEVSTATE : Nat := 0x100
def GLOBAL_DEVSTATE_SAFE_CAUSE : Fld := ⟨GLOBAL_DEVSTATE, 31, 16⟩
def GLOBAL_DEVSTATE_PREV : Fld := ⟨GLOBAL_DEVSTATE, 7, 4⟩
def GLOBAL_DEVSTATE_STATE : Fld := ⟨GLOBAL_DEVSTATE, 3, 0⟩
def GLOBAL_STATE_REQ : Nat := 0x104
def GLOBAL_STATE_REQ_REASON : Fld := ⟨GLOBAL_STATE_REQ, 31, 16⟩
def GLOBAL_STATE_REQ_REQ : Fld := ⟨GLOBAL_STATE_REQ, 3, 0⟩
def GLOBAL_WATCH_INPUTS : Nat := 0x108
def GLOBAL_WATCH_INPUTS_MASK : Fld := ⟨GLOBAL_WATCH_INPUTS, 15, 0⟩
def SYN_CTL (b : Nat) : Nat := synBase b + 0x0
def SYN_CTL_REASON (b : Nat) : Fld := ⟨(SYN_CTL b), 31, 16⟩
def SYN_CTL_RAMP_GO (b : Nat) : Fld := ⟨(SYN_CTL b), 2, 2⟩
def SYN_CTL_ENABLE (b : Nat) : Fld := ⟨(SYN_CTL b), 0, 0⟩
def SYN_LOCK (b : Nat) : Nat := synBase b + 0x4
def SYN_LOCK_LOCK_N (b : Nat) : Fld := ⟨(SYN_LOCK b), 31, 16⟩
def SYN_LOCK_LOSS_WINDOW (b : Nat) : Fld := ⟨(SYN_LOCK b), 15, 8⟩
def SYN_LOCK_LOCK_WINDOW (b : Nat) : Fld := ⟨(SYN_LOCK b), 7, 0⟩
def SYN_STATUS (b : Nat) : Nat := synBase b + 0x8
def SYN_STATUS_PHASE_ERR (b : Nat) : Fld := ⟨(SYN_STATUS b), 31, 16⟩
def SYN_STATUS_CLAMPED (b : Nat) : Fld := ⟨(SYN_STATUS b), 5, 5⟩
def SYN_STATUS_GATED (b : Nat) : Fld := ⟨(SYN_STATUS b), 4, 4⟩
def SYN_STATUS_RAMPING (b : Nat) : Fld := ⟨(SYN_STATUS b), 3, 3⟩
def SYN_STATUS_COASTING (b : Nat) : Fld := ⟨(SYN_STATUS b), 2, 2⟩
def SYN_STATUS_LOST (b : Nat) : Fld := ⟨(SYN_STATUS b), 1, 1⟩
def SYN_STATUS_LOCKED (b : Nat) : Fld := ⟨(SYN_STATUS b), 0, 0⟩
def SYN_TARGET (b : Nat) : Nat := synBase b + 0xC
def SYN_TARGET_KHZ (b : Nat) : Fld := ⟨(SYN_TARGET b), 31, 0⟩
def SYN_DCO (b : Nat) : Nat := synBase b + 0x10
def SYN_DCO_DCO_CEIL (b : Nat) : Fld := ⟨(SYN_DCO b), 31, 16⟩
def SYN_DCO_DCO_CODE (b : Nat) : Fld := ⟨(SYN_DCO b), 15, 0⟩
def SYN_RAMP (b : Nat) : Nat := synBase b + 0x14
def SYN_RAMP_SEG_NOW (b : Nat) : Fld := ⟨(SYN_RAMP b), 13, 8⟩
def SYN_RAMP_SEGMENTS (b : Nat) : Fld := ⟨(SYN_RAMP b), 5, 0⟩
def SYN_CLAMP_COUNT (b : Nat) : Nat := synBase b + 0x18
def SYN_SEG_KHZ (r i : Nat) : Nat := winBase r + 0xC00 + 0x8 * i
def SYN_SEG_NS (r i : Nat) : Nat := winBase r + 0xC04 + 0x8 * i
def ST_REF_CTL : Nat := 0x100200
def ST_REF_CTL_AGE_LEARN : Fld := ⟨ST_REF_CTL, 28, 28⟩
def ST_REF_CTL_COAST_BUDGET : Fld := ⟨ST_REF_CTL, 27, 16⟩
def ST_REF_CTL_EXHAUST : Fld := ⟨ST_REF_CTL, 15, 15⟩
def ST_REF_CTL_REVERTIVE : Fld := ⟨ST_REF_CTL, 14, 14⟩
def ST_REF_CTL_TIME_POLICY : Fld := ⟨ST_REF_CTL, 13, 13⟩
def ST_REF_CTL_PPS_EN : Fld := ⟨ST_REF_CTL, 12, 12⟩
def ST_REF_CTL_FREQ_B : Fld := ⟨ST_REF_CTL, 9, 9⟩
def ST_REF_CTL_FREQ_A : Fld := ⟨ST_REF_CTL, 8, 8⟩
def ST_REF_CTL_SOURCE : Fld := ⟨ST_REF_CTL, 2, 0⟩
def ST_REF_STATUS : Nat := 0x100204
def ST_REF_STATUS_COAST_LEFT : Fld := ⟨ST_REF_STATUS, 31, 20⟩
def ST_REF_STATUS_PPS_JUMP : Fld := ⟨ST_REF_STATUS, 12, 12⟩
def ST_REF_STATUS_REF_JUMP : Fld := ⟨ST_REF_STATUS, 11, 11⟩
def ST_REF_STATUS_EXHAUSTED : Fld := ⟨ST_REF_STATUS, 10, 10⟩
def ST_REF_STATUS_SLEWING : Fld := ⟨ST_REF_STATUS, 9, 9⟩
def ST_REF_STATUS_COASTING : Fld := ⟨ST_REF_STATUS, 8, 8⟩
def ST_REF_STATUS_PPS_OK : Fld := ⟨ST_REF_STATUS, 6, 6⟩
def ST_REF_STATUS_QUAL_HIVE : Fld := ⟨ST_REF_STATUS, 5, 5⟩
def ST_REF_STATUS_QUAL_B : Fld := ⟨ST_REF_STATUS, 4, 4⟩
def ST_REF_STATUS_QUAL_A : Fld := ⟨ST_REF_STATUS, 3, 3⟩
def ST_REF_STATUS_SELECTED : Fld := ⟨ST_REF_STATUS, 2, 0⟩
def ST_PHASE_JUMP : Nat := 0x100208
def ST_PPS_DELAY : Nat := 0x10020C
def ST_XO_AGE : Nat := 0x100210
def GLOBAL_DEVTIME_0 : Nat := 0x200
def GLOBAL_DEVTIME_0_FRAC_LO : Fld := ⟨GLOBAL_DEVTIME_0, 31, 0⟩
def GLOBAL_DEVTIME_1 : Nat := 0x204
def GLOBAL_DEVTIME_1_SNAP_SEQ : Fld := ⟨GLOBAL_DEVTIME_1, 31, 24⟩
def GLOBAL_DEVTIME_1_SLEWING : Fld := ⟨GLOBAL_DEVTIME_1, 17, 17⟩
def GLOBAL_DEVTIME_1_COASTING : Fld := ⟨GLOBAL_DEVTIME_1, 16, 16⟩
def GLOBAL_DEVTIME_1_FRAC_HI : Fld := ⟨GLOBAL_DEVTIME_1, 15, 0⟩
def GLOBAL_DEVTIME_2 : Nat := 0x208
def GLOBAL_DEVTIME_2_SECONDS : Fld := ⟨GLOBAL_DEVTIME_2, 31, 0⟩
def GLOBAL_TIME_SET_SEC : Nat := 0x210
def GLOBAL_TIME_SET_SEC_SECONDS : Fld := ⟨GLOBAL_TIME_SET_SEC, 31, 0⟩
def GLOBAL_TIME_SET_CTL : Nat := 0x214
def GLOBAL_TIME_SET_CTL_REASON : Fld := ⟨GLOBAL_TIME_SET_CTL, 31, 16⟩
def GLOBAL_TIME_SET_CTL_AT_PPS : Fld := ⟨GLOBAL_TIME_SET_CTL, 2, 2⟩
def GLOBAL_TIME_SET_CTL_PENDING : Fld := ⟨GLOBAL_TIME_SET_CTL, 1, 1⟩
def GLOBAL_TIME_SET_CTL_ARM : Fld := ⟨GLOBAL_TIME_SET_CTL, 0, 0⟩
def ST_SYNC_CTL (i : Nat) : Nat := 0x100240 + 0x8 * i
def ST_SYNC_CTL_WIDTH (i : Nat) : Fld := ⟨(ST_SYNC_CTL i), 31, 16⟩
def ST_SYNC_CTL_ENABLE (i : Nat) : Fld := ⟨(ST_SYNC_CTL i), 0, 0⟩
def ST_SYNC_PERIOD (i : Nat) : Nat := 0x100244 + 0x8 * i
def ST_ET_CTL (i : Nat) : Nat := 0x104000 + 0x40 * i
def ST_ET_CTL_REASON (i : Nat) : Fld := ⟨(ST_ET_CTL i), 31, 16⟩
def ST_ET_CTL_SLOPE (i : Nat) : Fld := ⟨(ST_ET_CTL i), 11, 10⟩
def ST_ET_CTL_MODE (i : Nat) : Fld := ⟨(ST_ET_CTL i), 9, 8⟩
def ST_ET_CTL_ROUTE (i : Nat) : Fld := ⟨(ST_ET_CTL i), 7, 7⟩
def ST_ET_CTL_STAMP_OUT (i : Nat) : Fld := ⟨(ST_ET_CTL i), 6, 6⟩
def ST_ET_CTL_ENABLE (i : Nat) : Fld := ⟨(ST_ET_CTL i), 0, 0⟩
def ST_ET_THRESH (i : Nat) : Nat := 0x104004 + 0x40 * i
def ST_ET_THRESH_TERM (i : Nat) : Fld := ⟨(ST_ET_THRESH i), 31, 31⟩
def ST_ET_THRESH_HYST (i : Nat) : Fld := ⟨(ST_ET_THRESH i), 29, 24⟩
def ST_ET_THRESH_LEVEL (i : Nat) : Fld := ⟨(ST_ET_THRESH i), 15, 0⟩
def ST_ET_GATE (i : Nat) : Nat := 0x104008 + 0x40 * i
def ST_ET_GATE_GATE_US (i : Nat) : Fld := ⟨(ST_ET_GATE i), 31, 0⟩
def ST_ET_STUCK (i : Nat) : Nat := 0x10400C + 0x40 * i
def ST_ET_STUCK_TIMEOUT (i : Nat) : Fld := ⟨(ST_ET_STUCK i), 31, 0⟩
def ST_ET_QW (i j : Nat) : Nat := 0x104010 + 0x40 * i + 0x4 * j
def ST_ET_QLEVEL (i : Nat) : Nat := 0x104020 + 0x40 * i
def ST_ET_QLEVEL_LEVEL (i : Nat) : Fld := ⟨(ST_ET_QLEVEL i), 12, 0⟩
def ST_ET_EDGES_LO (i : Nat) : Nat := 0x104024 + 0x40 * i
def ST_ET_EDGES_HI (i : Nat) : Nat := 0x104028 + 0x40 * i
def ST_ET_SUPPRESSED (i : Nat) : Nat := 0x10402C + 0x40 * i
def ST_ET_DROPPED (i : Nat) : Nat := 0x104030 + 0x40 * i
def ST_IV_CTL (i : Nat) : Nat := 0x104800 + 0x10 * i
def ST_IV_CTL_REASON (i : Nat) : Fld := ⟨(ST_IV_CTL i), 31, 16⟩
def ST_IV_CTL_STOP_CH (i : Nat) : Fld := ⟨(ST_IV_CTL i), 15, 11⟩
def ST_IV_CTL_STOP_EDGE (i : Nat) : Fld := ⟨(ST_IV_CTL i), 10, 10⟩
def ST_IV_CTL_START_CH (i : Nat) : Fld := ⟨(ST_IV_CTL i), 9, 5⟩
def ST_IV_CTL_START_EDGE (i : Nat) : Fld := ⟨(ST_IV_CTL i), 4, 4⟩
def ST_IV_CTL_ENABLE (i : Nat) : Fld := ⟨(ST_IV_CTL i), 0, 0⟩
def ST_IV_WINDOW (i : Nat) : Nat := 0x104804 + 0x10 * i
def ST_IV_WINDOW_NS (i : Nat) : Fld := ⟨(ST_IV_WINDOW i), 31, 0⟩
def ST_IV_ABANDONED (i : Nat) : Nat := 0x104808 + 0x10 * i
def AF_IN_CTL (n : Nat) : Nat := inBase n + 0x2000
def AF_IN_CTL_REASON (n : Nat) : Fld := ⟨(AF_IN_CTL n), 31, 16⟩
def AF_IN_CTL_IL_FREEZE (n : Nat) : Fld := ⟨(AF_IN_CTL n), 9, 9⟩
def AF_IN_CTL_NOTCH_BYPASS (n : Nat) : Fld := ⟨(AF_IN_CTL n), 8, 8⟩
def AF_IN_CTL_SOURCE (n : Nat) : Fld := ⟨(AF_IN_CTL n), 7, 6⟩
def AF_IN_CTL_RAW_BITS (n : Nat) : Fld := ⟨(AF_IN_CTL n), 5, 5⟩
def AF_IN_CTL_ZONE (n : Nat) : Fld := ⟨(AF_IN_CTL n), 4, 4⟩
def AF_IN_CTL_FS (n : Nat) : Fld := ⟨(AF_IN_CTL n), 2, 1⟩
def AF_IN_CTL_ENABLE (n : Nat) : Fld := ⟨(AF_IN_CTL n), 0, 0⟩
def AF_IN_STATUS (n : Nat) : Nat := inBase n + 0x2004
def AF_IN_STATUS_SPARE (n : Nat) : Fld := ⟨(AF_IN_STATUS n), 4, 4⟩
def AF_IN_STATUS_RAMPING (n : Nat) : Fld := ⟨(AF_IN_STATUS n), 3, 3⟩
def AF_IN_STATUS_SETTLING (n : Nat) : Fld := ⟨(AF_IN_STATUS n), 2, 2⟩
def AF_IN_STATUS_OVR_NOW (n : Nat) : Fld := ⟨(AF_IN_STATUS n), 1, 1⟩
def AF_IN_STATUS_RUNNING (n : Nat) : Fld := ⟨(AF_IN_STATUS n), 0, 0⟩
def AF_IN_OVR_CTL (n : Nat) : Nat := inBase n + 0x2008
def AF_IN_OVR_CTL_OVER6_COUNT (n : Nat) : Fld := ⟨(AF_IN_OVR_CTL n), 31, 16⟩
def AF_IN_OVR_CTL_TAIL (n : Nat) : Fld := ⟨(AF_IN_OVR_CTL n), 7, 0⟩
def AF_IN_OVR_COUNT_LO (n : Nat) : Nat := inBase n + 0x200C
def AF_IN_OVR_COUNT_HI (n : Nat) : Nat := inBase n + 0x2010
def AF_IN_SKEW (n : Nat) : Nat := inBase n + 0x2014
def AF_IN_SKEW_SKEW (n : Nat) : Fld := ⟨(AF_IN_SKEW n), 15, 0⟩
def AF_IN_PATTERN (n : Nat) : Nat := inBase n + 0x2018
def AF_IN_PATTERN_KIND (n : Nat) : Fld := ⟨(AF_IN_PATTERN n), 29, 28⟩
def AF_IN_PATTERN_VALUE (n : Nat) : Fld := ⟨(AF_IN_PATTERN n), 11, 0⟩
def AF_SYSCAL_CTL (n : Nat) : Nat := inBase n + 0x2020
def AF_SYSCAL_CTL_REASON (n : Nat) : Fld := ⟨(AF_SYSCAL_CTL n), 31, 16⟩
def AF_SYSCAL_CTL_BUSY (n : Nat) : Fld := ⟨(AF_SYSCAL_CTL n), 5, 5⟩
def AF_SYSCAL_CTL_APPLY (n : Nat) : Fld := ⟨(AF_SYSCAL_CTL n), 4, 4⟩
def AF_SYSCAL_CTL_STEP (n : Nat) : Fld := ⟨(AF_SYSCAL_CTL n), 2, 1⟩
def AF_SYSCAL_CTL_GO (n : Nat) : Fld := ⟨(AF_SYSCAL_CTL n), 0, 0⟩
def AF_SYSCAL_FREQ (n : Nat) : Nat := inBase n + 0x2024
def AF_SYSCAL_AMPL (n : Nat) : Nat := inBase n + 0x2028
def AF_SYSCAL_MEAS (n : Nat) : Nat := inBase n + 0x202C
def AF_SYSCAL_OFFSET (n : Nat) : Nat := inBase n + 0x2030
def AF_SYSCAL_OFFSET_ACTIVE (n : Nat) : Fld := ⟨(AF_SYSCAL_OFFSET n), 31, 16⟩
def AF_SYSCAL_OFFSET_STAGED (n : Nat) : Fld := ⟨(AF_SYSCAL_OFFSET n), 15, 0⟩
def AF_SYSCAL_GAIN (n : Nat) : Nat := inBase n + 0x2034
def AF_SYSCAL_ACT_GAIN (n : Nat) : Nat := inBase n + 0x2038
def AF_NOTCH_FREQ (n i : Nat) : Nat := inBase n + 0x2040 + 0x8 * i
def AF_NOTCH_FREQ_FREQ (n i : Nat) : Fld := ⟨(AF_NOTCH_FREQ n i), 29, 0⟩
def AF_NOTCH_SHAPE (n i : Nat) : Nat := inBase n + 0x2044 + 0x8 * i
def AF_NOTCH_SHAPE_WIDTH (n i : Nat) : Fld := ⟨(AF_NOTCH_SHAPE n i), 31, 16⟩
def AF_NOTCH_SHAPE_ORDER (n i : Nat) : Fld := ⟨(AF_NOTCH_SHAPE n i), 4, 1⟩
def AF_NOTCH_SHAPE_ON (n i : Nat) : Fld := ⟨(AF_NOTCH_SHAPE n i), 0, 0⟩
def AF_NOTCH_ACT_FREQ (n i : Nat) : Nat := inBase n + 0x2060 + 0x8 * i
def AF_NOTCH_ACT_FREQ_FREQ (n i : Nat) : Fld := ⟨(AF_NOTCH_ACT_FREQ n i), 29, 0⟩
def AF_NOTCH_ACT_SHAPE (n i : Nat) : Nat := inBase n + 0x2064 + 0x8 * i
def AF_NOTCH_ACT_SHAPE_WIDTH (n i : Nat) : Fld := ⟨(AF_NOTCH_ACT_SHAPE n i), 31, 16⟩
def AF_NOTCH_ACT_SHAPE_ORDER (n i : Nat) : Fld := ⟨(AF_NOTCH_ACT_SHAPE n i), 4, 1⟩
def AF_NOTCH_ACT_SHAPE_ON (n i : Nat) : Fld := ⟨(AF_NOTCH_ACT_SHAPE n i), 0, 0⟩
def AF_NOTCH_SWAP_SEC (n : Nat) : Nat := inBase n + 0x2080
def AF_NOTCH_SWAP_FRAC (n : Nat) : Nat := inBase n + 0x2084
def AF_NOTCH_SWAP_CTL (n : Nat) : Nat := inBase n + 0x2088
def AF_NOTCH_SWAP_CTL_REASON (n : Nat) : Fld := ⟨(AF_NOTCH_SWAP_CTL n), 31, 16⟩
def AF_NOTCH_SWAP_CTL_PENDING (n : Nat) : Fld := ⟨(AF_NOTCH_SWAP_CTL n), 1, 1⟩
def AF_NOTCH_SWAP_CTL_ARM (n : Nat) : Fld := ⟨(AF_NOTCH_SWAP_CTL n), 0, 0⟩
def AF_TONE_CTL (r : Nat) : Nat := winBase r + 0x1800
def AF_TONE_CTL_REASON (r : Nat) : Fld := ⟨(AF_TONE_CTL r), 31, 16⟩
def AF_TONE_CTL_ENABLE (r : Nat) : Fld := ⟨(AF_TONE_CTL r), 0, 0⟩
def AF_TONE_SET (r : Nat) : Nat := winBase r + 0x1804
def AF_TONE_SET_M (r : Nat) : Fld := ⟨(AF_TONE_SET r), 26, 16⟩
def AF_TONE_SET_ATTEN (r : Nat) : Fld := ⟨(AF_TONE_SET r), 5, 0⟩
def ZP_CTL (z : Nat) : Nat := zpBase z + 0x0
def ZP_CTL_REASON (z : Nat) : Fld := ⟨(ZP_CTL z), 31, 16⟩
def ZP_CTL_ENABLE (z : Nat) : Fld := ⟨(ZP_CTL z), 0, 0⟩
def ZP_CFG (z : Nat) : Nat := zpBase z + 0x4
def ZP_CFG_FADE_LOG (z : Nat) : Fld := ⟨(ZP_CFG z), 27, 24⟩
def ZP_CFG_TAPS (z : Nat) : Fld := ⟨(ZP_CFG z), 23, 16⟩
def ZP_CFG_OUT_GAIN (z : Nat) : Fld := ⟨(ZP_CFG z), 15, 12⟩
def ZP_CFG_OUT_BITS (z : Nat) : Fld := ⟨(ZP_CFG z), 11, 10⟩
def ZP_CFG_PRESET (z : Nat) : Fld := ⟨(ZP_CFG z), 9, 8⟩
def ZP_CFG_STAGES (z : Nat) : Fld := ⟨(ZP_CFG z), 3, 0⟩
def ZP_STATUS (z : Nat) : Nat := zpBase z + 0x8
def ZP_STATUS_HELD (z : Nat) : Fld := ⟨(ZP_STATUS z), 4, 4⟩
def ZP_STATUS_FADING (z : Nat) : Fld := ⟨(ZP_STATUS z), 3, 3⟩
def ZP_STATUS_SETTLING (z : Nat) : Fld := ⟨(ZP_STATUS z), 2, 2⟩
def ZP_STATUS_SATURATED (z : Nat) : Fld := ⟨(ZP_STATUS z), 1, 1⟩
def ZP_STATUS_RUNNING (z : Nat) : Fld := ⟨(ZP_STATUS z), 0, 0⟩
def ZP_SWAP_SEC (z : Nat) : Nat := zpBase z + 0xC
def ZP_SWAP_FRAC (z : Nat) : Nat := zpBase z + 0x10
def ZP_SWAP_CTL (z : Nat) : Nat := zpBase z + 0x14
def ZP_SWAP_CTL_REASON (z : Nat) : Fld := ⟨(ZP_SWAP_CTL z), 31, 16⟩
def ZP_SWAP_CTL_SYNC_PENDING (z : Nat) : Fld := ⟨(ZP_SWAP_CTL z), 3, 3⟩
def ZP_SWAP_CTL_SYNC_ARM (z : Nat) : Fld := ⟨(ZP_SWAP_CTL z), 2, 2⟩
def ZP_SWAP_CTL_PENDING (z : Nat) : Fld := ⟨(ZP_SWAP_CTL z), 1, 1⟩
def ZP_SWAP_CTL_ARM (z : Nat) : Fld := ⟨(ZP_SWAP_CTL z), 0, 0⟩
def ZP_SAT_COUNT (z : Nat) : Nat := zpBase z + 0x18
def ZP_DEFER_COUNT (z : Nat) : Nat := zpBase z + 0x1C
def ZP_DONE_SEC (z : Nat) : Nat := zpBase z + 0x20
def ZP_DONE_FRAC (z : Nat) : Nat := zpBase z + 0x24
def ZP_SH_FTW_LO (z : Nat) : Nat := zpBase z + 0x40
def ZP_SH_FTW_HI (z : Nat) : Nat := zpBase z + 0x44
def ZP_SH_FTW_HI_PHASE (z : Nat) : Fld := ⟨(ZP_SH_FTW_HI z), 31, 16⟩
def ZP_SH_FTW_HI_FTW_HI (z : Nat) : Fld := ⟨(ZP_SH_FTW_HI z), 15, 0⟩
def ZP_SH_MODE (z : Nat) : Nat := zpBase z + 0x48
def ZP_SH_MODE_PHASE_LOAD (z : Nat) : Fld := ⟨(ZP_SH_MODE z), 0, 0⟩
def ZP_ACT_FTW_LO (z : Nat) : Nat := zpBase z + 0x50
def ZP_ACT_FTW_HI (z : Nat) : Nat := zpBase z + 0x54
def ZP_ACT_FTW_HI_PHASE (z : Nat) : Fld := ⟨(ZP_ACT_FTW_HI z), 31, 16⟩
def ZP_ACT_FTW_HI_FTW_HI (z : Nat) : Fld := ⟨(ZP_ACT_FTW_HI z), 15, 0⟩
def ZP_ACT_MODE (z : Nat) : Nat := zpBase z + 0x58
def ZP_ACT_MODE_PHASE_LOAD (z : Nat) : Fld := ⟨(ZP_ACT_MODE z), 0, 0⟩
def ZP_SH_COEF (z i : Nat) : Nat := zpBase z + 0x400 + 0x4 * i
def ZP_SH_COEF_IM (z i : Nat) : Fld := ⟨(ZP_SH_COEF z i), 31, 16⟩
def ZP_SH_COEF_RE (z i : Nat) : Fld := ⟨(ZP_SH_COEF z i), 15, 0⟩
def ZP_ACT_COEF (z i : Nat) : Nat := zpBase z + 0x600 + 0x4 * i
def ZP_ACT_COEF_IM (z i : Nat) : Fld := ⟨(ZP_ACT_COEF z i), 31, 16⟩
def ZP_ACT_COEF_RE (z i : Nat) : Fld := ⟨(ZP_ACT_COEF z i), 15, 0⟩
def ZP_ZTU_CTL (r : Nat) : Nat := winBase r + 0x1000
def ZP_ZTU_CTL_REASON (r : Nat) : Fld := ⟨(ZP_ZTU_CTL r), 31, 16⟩
def ZP_ZTU_CTL_ENABLE (r : Nat) : Fld := ⟨(ZP_ZTU_CTL r), 0, 0⟩
def ZP_ZTU_SLOT (r i : Nat) : Nat := winBase r + 0x1010 + 0x4 * i
def ZP_ZTU_SLOT_ON (r i : Nat) : Fld := ⟨(ZP_ZTU_SLOT r i), 31, 31⟩
def ZP_ZTU_SLOT_OVERLAP (r i : Nat) : Fld := ⟨(ZP_ZTU_SLOT r i), 13, 13⟩
def ZP_ZTU_SLOT_WINDOW (r i : Nat) : Fld := ⟨(ZP_ZTU_SLOT r i), 12, 10⟩
def ZP_ZTU_SLOT_LOG_P (r i : Nat) : Fld := ⟨(ZP_ZTU_SLOT r i), 9, 5⟩
def ZP_ZTU_SLOT_PATH (r i : Nat) : Fld := ⟨(ZP_ZTU_SLOT r i), 3, 0⟩
def BT_CTL (n : Nat) : Nat := btBase n + 0xC000
def BT_CTL_REASON (n : Nat) : Fld := ⟨(BT_CTL n), 31, 16⟩
def BT_CTL_TO_SWITCH (n : Nat) : Fld := ⟨(BT_CTL n), 2, 2⟩
def BT_CTL_TO_CB (n : Nat) : Fld := ⟨(BT_CTL n), 1, 1⟩
def BT_CTL_ENABLE (n : Nat) : Fld := ⟨(BT_CTL n), 0, 0⟩
def BT_CFG (n : Nat) : Nat := btBase n + 0xC004
def BT_CFG_FADE_LOG (n : Nat) : Fld := ⟨(BT_CFG n), 19, 16⟩
def BT_CFG_OUT_BITS (n : Nat) : Fld := ⟨(BT_CFG n), 14, 13⟩
def BT_CFG_WINDOW (n : Nat) : Fld := ⟨(BT_CFG n), 12, 9⟩
def BT_CFG_HOP (n : Nat) : Fld := ⟨(BT_CFG n), 8, 8⟩
def BT_CFG_TAPS (n : Nat) : Fld := ⟨(BT_CFG n), 7, 6⟩
def BT_CFG_LOG_C (n : Nat) : Fld := ⟨(BT_CFG n), 4, 0⟩
def BT_SHIFT (n : Nat) : Nat := btBase n + 0xC008
def BT_SHIFT_SHIFT (n : Nat) : Fld := ⟨(BT_SHIFT n), 17, 0⟩
def BT_STATUS (n : Nat) : Nat := btBase n + 0xC00C
def BT_STATUS_PIPE (n : Nat) : Fld := ⟨(BT_STATUS n), 10, 8⟩
def BT_STATUS_OVF (n : Nat) : Fld := ⟨(BT_STATUS n), 5, 5⟩
def BT_STATUS_HELD (n : Nat) : Fld := ⟨(BT_STATUS n), 4, 4⟩
def BT_STATUS_FADING (n : Nat) : Fld := ⟨(BT_STATUS n), 3, 3⟩
def BT_STATUS_SETTLING (n : Nat) : Fld := ⟨(BT_STATUS n), 2, 2⟩
def BT_STATUS_RUNNING (n : Nat) : Fld := ⟨(BT_STATUS n), 0, 0⟩
def BT_OVF_COUNT (n : Nat) : Nat := btBase n + 0xC010
def BT_SAT_COUNT (n : Nat) : Nat := btBase n + 0xC014
def BT_MK_CTL (n : Nat) : Nat := btBase n + 0xC018
def BT_MK_CTL_REASON (n : Nat) : Fld := ⟨(BT_MK_CTL n), 31, 16⟩
def BT_MK_CTL_SYNC_PENDING (n : Nat) : Fld := ⟨(BT_MK_CTL n), 3, 3⟩
def BT_MK_CTL_SYNC_ARM (n : Nat) : Fld := ⟨(BT_MK_CTL n), 2, 2⟩
def BT_MK_CTL_PENDING (n : Nat) : Fld := ⟨(BT_MK_CTL n), 1, 1⟩
def BT_MK_CTL_ARM (n : Nat) : Fld := ⟨(BT_MK_CTL n), 0, 0⟩
def BT_MK_SEC (n : Nat) : Nat := btBase n + 0xC01C
def BT_MK_FRAC (n : Nat) : Nat := btBase n + 0xC020
def BT_EQ_DONE_SEC (n : Nat) : Nat := btBase n + 0xC024
def BT_EQ_DONE_FRAC (n : Nat) : Nat := btBase n + 0xC028
def BT_EQ_ADDR (n : Nat) : Nat := btBase n + 0xC02C
def BT_EQ_ADDR_BANK (n : Nat) : Fld := ⟨(BT_EQ_ADDR n), 31, 31⟩
def BT_EQ_ADDR_CH (n : Nat) : Fld := ⟨(BT_EQ_ADDR n), 16, 0⟩
def BT_EQ_DATA (n : Nat) : Nat := btBase n + 0xC030
def BT_EQ_DATA_ODD (n : Nat) : Fld := ⟨(BT_EQ_DATA n), 31, 16⟩
def BT_EQ_DATA_EVEN (n : Nat) : Fld := ⟨(BT_EQ_DATA n), 15, 0⟩
def BT_WIN_ADDR (n : Nat) : Nat := btBase n + 0xC034
def BT_WIN_ADDR_I (n : Nat) : Fld := ⟨(BT_WIN_ADDR n), 13, 0⟩
def BT_WIN_DATA (n : Nat) : Nat := btBase n + 0xC038
def BT_WIN_DATA_ODD (n : Nat) : Fld := ⟨(BT_WIN_DATA n), 31, 16⟩
def BT_WIN_DATA_EVEN (n : Nat) : Fld := ⟨(BT_WIN_DATA n), 15, 0⟩
def BT_PIPE_MAP (r : Nat) : Nat := winBase r + 0xC800
def BT_PIPE_MAP_SPARE_FOR (r : Nat) : Fld := ⟨(BT_PIPE_MAP r), 19, 16⟩
def BT_PIPE_MAP_RETIRED (r : Nat) : Fld := ⟨(BT_PIPE_MAP r), 4, 0⟩
def DC_INT_CTL (r i : Nat) : Nat := winBase r + 0xE000 + 0x40 * i
def DC_INT_CTL_REASON (r i : Nat) : Fld := ⟨(DC_INT_CTL r i), 31, 16⟩
def DC_INT_CTL_ENABLE (r i : Nat) : Fld := ⟨(DC_INT_CTL r i), 0, 0⟩
def DC_INT_SRC (r i : Nat) : Nat := winBase r + 0xE004 + 0x40 * i
def DC_INT_SRC_KIND (r i : Nat) : Fld := ⟨(DC_INT_SRC r i), 31, 31⟩
def DC_INT_SRC_INDEX (r i : Nat) : Fld := ⟨(DC_INT_SRC r i), 27, 24⟩
def DC_INT_SRC_FIRST (r i : Nat) : Fld := ⟨(DC_INT_SRC r i), 19, 0⟩
def DC_INT_CFG (r i : Nat) : Nat := winBase r + 0xE008 + 0x40 * i
def DC_INT_CFG_EXCISE (r i : Nat) : Fld := ⟨(DC_INT_CFG r i), 19, 18⟩
def DC_INT_CFG_STATIC_EN (r i : Nat) : Fld := ⟨(DC_INT_CFG r i), 17, 17⟩
def DC_INT_CFG_SK_EN (r i : Nat) : Fld := ⟨(DC_INT_CFG r i), 16, 16⟩
def DC_INT_CFG_DETECTOR (r i : Nat) : Fld := ⟨(DC_INT_CFG r i), 13, 12⟩
def DC_INT_CFG_MERGE_LOG (r i : Nat) : Fld := ⟨(DC_INT_CFG r i), 10, 8⟩
def DC_INT_CFG_LOG_SPAN (r i : Nat) : Fld := ⟨(DC_INT_CFG r i), 4, 0⟩
def DC_INT_M (r i : Nat) : Nat := winBase r + 0xE00C + 0x40 * i
def DC_INT_M_M (r i : Nat) : Fld := ⟨(DC_INT_M r i), 24, 0⟩
def DC_INT_SK (r i : Nat) : Nat := winBase r + 0xE010 + 0x40 * i
def DC_INT_SK_HIGH_SIG (r i : Nat) : Fld := ⟨(DC_INT_SK r i), 15, 8⟩
def DC_INT_SK_LOW_SIG (r i : Nat) : Fld := ⟨(DC_INT_SK r i), 7, 0⟩
def DC_INT_ID (r i : Nat) : Nat := winBase r + 0xE014 + 0x40 * i
def DC_INT_ID_SPEC_ID (r i : Nat) : Fld := ⟨(DC_INT_ID r i), 11, 0⟩
def DC_INT_STATUS (r i : Nat) : Nat := winBase r + 0xE018 + 0x40 * i
def DC_INT_STATUS_SK_VALID (r i : Nat) : Fld := ⟨(DC_INT_STATUS r i), 2, 2⟩
def DC_INT_STATUS_PARTIAL (r i : Nat) : Fld := ⟨(DC_INT_STATUS r i), 1, 1⟩
def DC_INT_STATUS_RUNNING (r i : Nat) : Fld := ⟨(DC_INT_STATUS r i), 0, 0⟩
def DC_INT_FLAGGED (r i : Nat) : Nat := winBase r + 0xE01C + 0x40 * i
def DC_INT_PARTIALS (r i : Nat) : Nat := winBase r + 0xE020 + 0x40 * i
def DC_INT_DONE (r i : Nat) : Nat := winBase r + 0xE024 + 0x40 * i
def DC_PL_CTL (r i : Nat) : Nat := winBase r + 0xF000 + 0x40 * i
def DC_PL_CTL_REASON (r i : Nat) : Fld := ⟨(DC_PL_CTL r i), 31, 16⟩
def DC_PL_CTL_CLEAR (r i : Nat) : Fld := ⟨(DC_PL_CTL r i), 2, 2⟩
def DC_PL_CTL_ENABLE (r i : Nat) : Fld := ⟨(DC_PL_CTL r i), 0, 0⟩
def DC_PL_SRC (r i : Nat) : Nat := winBase r + 0xF004 + 0x40 * i
def DC_PL_SRC_KIND (r i : Nat) : Fld := ⟨(DC_PL_SRC r i), 31, 31⟩
def DC_PL_SRC_SEL (r i : Nat) : Fld := ⟨(DC_PL_SRC r i), 27, 24⟩
def DC_PL_SRC_FIRST (r i : Nat) : Fld := ⟨(DC_PL_SRC r i), 19, 0⟩
def DC_PL_CFG (r i : Nat) : Nat := winBase r + 0xF008 + 0x40 * i
def DC_PL_CFG_PRE_LOG (r i : Nat) : Fld := ⟨(DC_PL_CFG r i), 27, 24⟩
def DC_PL_CFG_PRE_MIN_LOG (r i : Nat) : Fld := ⟨(DC_PL_CFG r i), 19, 16⟩
def DC_PL_CFG_PRECOMB (r i : Nat) : Fld := ⟨(DC_PL_CFG r i), 13, 12⟩
def DC_PL_CFG_COL_DETECT (r i : Nat) : Fld := ⟨(DC_PL_CFG r i), 8, 8⟩
def DC_PL_CFG_LOG_SPAN (r i : Nat) : Fld := ⟨(DC_PL_CFG r i), 4, 0⟩
def DC_PL_ROWS (r i : Nat) : Nat := winBase r + 0xF00C + 0x40 * i
def DC_PL_ROWS_FLOOR (r i : Nat) : Fld := ⟨(DC_PL_ROWS r i), 31, 16⟩
def DC_PL_ROWS_STEP (r i : Nat) : Fld := ⟨(DC_PL_ROWS r i), 9, 0⟩
def DC_PL_DECAY (r i : Nat) : Nat := winBase r + 0xF010 + 0x40 * i
def DC_PL_DECAY_P (r i : Nat) : Fld := ⟨(DC_PL_DECAY r i), 31, 16⟩
def DC_PL_DECAY_K (r i : Nat) : Fld := ⟨(DC_PL_DECAY r i), 3, 0⟩
def DC_PL_DUMP (r i : Nat) : Nat := winBase r + 0xF014 + 0x40 * i
def DC_PL_DUMP_PERIOD_US (r i : Nat) : Fld := ⟨(DC_PL_DUMP r i), 31, 0⟩
def DC_PL_UPD_LO (r i : Nat) : Nat := winBase r + 0xF018 + 0x40 * i
def DC_PL_UPD_HI (r i : Nat) : Nat := winBase r + 0xF01C + 0x40 * i
def DC_PL_STATUS (r i : Nat) : Nat := winBase r + 0xF020 + 0x40 * i
def DC_PL_STATUS_SATURATED (r i : Nat) : Fld := ⟨(DC_PL_STATUS r i), 2, 2⟩
def DC_PL_STATUS_PRECOMBINING (r i : Nat) : Fld := ⟨(DC_PL_STATUS r i), 1, 1⟩
def DC_PL_STATUS_RUNNING (r i : Nat) : Fld := ⟨(DC_PL_STATUS r i), 0, 0⟩
def DC_PL_SAT_COUNT (r i : Nat) : Nat := winBase r + 0xF024 + 0x40 * i
def DC_PL_CLIP_COUNT (r i : Nat) : Nat := winBase r + 0xF028 + 0x40 * i
def DC_MASK_ADDR (n : Nat) : Nat := mkBase n + 0xD000
def DC_MASK_ADDR_BANK (n : Nat) : Fld := ⟨(DC_MASK_ADDR n), 31, 31⟩
def DC_MASK_ADDR_W (n : Nat) : Fld := ⟨(DC_MASK_ADDR n), 11, 0⟩
def DC_MASK_DATA (n : Nat) : Nat := mkBase n + 0xD004
def TG_QW (r i : Nat) : Nat := tqBase r + 0x0 + 0x4 * i
def TG_QCTL (r : Nat) : Nat := tqBase r + 0x20
def TG_QCTL_ROUTE (r : Nat) : Fld := ⟨(TG_QCTL r), 0, 0⟩
def TG_QLEVEL (r : Nat) : Nat := tqBase r + 0x24
def TG_QLEVEL_LEVEL (r : Nat) : Fld := ⟨(TG_QLEVEL r), 14, 0⟩
def TG_QDROPPED (r : Nat) : Nat := tqBase r + 0x28
def TG_U_CTL (r u : Nat) : Nat := tuBase r u + 0x0
def TG_U_CTL_REASON (r u : Nat) : Fld := ⟨(TG_U_CTL r u), 31, 16⟩
def TG_U_CTL_ARM (r u : Nat) : Fld := ⟨(TG_U_CTL r u), 6, 6⟩
def TG_U_CTL_FABRIC_OUT (r u : Nat) : Fld := ⟨(TG_U_CTL r u), 5, 5⟩
def TG_U_CTL_RECORD (r u : Nat) : Fld := ⟨(TG_U_CTL r u), 4, 4⟩
def TG_U_CTL_ARM_MODE (r u : Nat) : Fld := ⟨(TG_U_CTL r u), 3, 3⟩
def TG_U_CTL_ENABLE (r u : Nat) : Fld := ⟨(TG_U_CTL r u), 0, 0⟩
def TG_U_HOLDOFF (r u : Nat) : Nat := tuBase r u + 0x4
def TG_U_STATUS (r u : Nat) : Nat := tuBase r u + 0x8
def TG_U_STATUS_WARM (r u : Nat) : Fld := ⟨(TG_U_STATUS r u), 3, 3⟩
def TG_U_STATUS_HOLDOFF (r u : Nat) : Fld := ⟨(TG_U_STATUS r u), 2, 2⟩
def TG_U_STATUS_ARMED (r u : Nat) : Fld := ⟨(TG_U_STATUS r u), 1, 1⟩
def TG_U_STATUS_RUNNING (r u : Nat) : Fld := ⟨(TG_U_STATUS r u), 0, 0⟩
def TG_U_FIRED (r u : Nat) : Nat := tuBase r u + 0xC
def TG_U_SUPPRESSED (r u : Nat) : Nat := tuBase r u + 0x10
def TG_LV_SRC (r i : Nat) : Nat := winBase r + 0x10114 + 0x40 * i
def TG_LV_SRC_KIND (r i : Nat) : Fld := ⟨(TG_LV_SRC r i), 31, 31⟩
def TG_LV_SRC_PART (r i : Nat) : Fld := ⟨(TG_LV_SRC r i), 25, 24⟩
def TG_LV_SRC_SLOPE (r i : Nat) : Fld := ⟨(TG_LV_SRC r i), 17, 16⟩
def TG_LV_SRC_INDEX (r i : Nat) : Fld := ⟨(TG_LV_SRC r i), 3, 0⟩
def TG_LV_LEVEL (r i : Nat) : Nat := winBase r + 0x10118 + 0x40 * i
def TG_LV_HYST (r i : Nat) : Nat := winBase r + 0x1011C + 0x40 * i
def TG_LV_HYST_HYST (r i : Nat) : Fld := ⟨(TG_LV_HYST r i), 23, 0⟩
def TG_MK_SRC (r i : Nat) : Nat := winBase r + 0x10314 + 0x40 * i
def TG_MK_SRC_KIND (r i : Nat) : Fld := ⟨(TG_MK_SRC r i), 31, 30⟩
def TG_MK_SRC_COND (r i : Nat) : Fld := ⟨(TG_MK_SRC r i), 18, 16⟩
def TG_MK_SRC_INDEX (r i : Nat) : Fld := ⟨(TG_MK_SRC r i), 3, 0⟩
def TG_MK_MIN (r i : Nat) : Nat := winBase r + 0x10318 + 0x40 * i
def TG_MK_MIN_DENS_MIN (r i : Nat) : Fld := ⟨(TG_MK_MIN r i), 31, 16⟩
def TG_MK_MIN_MIN_CH (r i : Nat) : Fld := ⟨(TG_MK_MIN r i), 15, 0⟩
def TG_MK_NPTS (r i : Nat) : Nat := winBase r + 0x1031C + 0x40 * i
def TG_MK_NPTS_N (r i : Nat) : Fld := ⟨(TG_MK_NPTS r i), 13, 0⟩
def TG_MK_PADDR (r i : Nat) : Nat := winBase r + 0x10320 + 0x40 * i
def TG_MK_PADDR_I (r i : Nat) : Fld := ⟨(TG_MK_PADDR r i), 12, 0⟩
def TG_MK_PDATA (r i : Nat) : Nat := winBase r + 0x10324 + 0x40 * i
def TG_MK_PDATA_LEVEL (r i : Nat) : Fld := ⟨(TG_MK_PDATA r i), 31, 20⟩
def TG_MK_PDATA_CH (r i : Nat) : Fld := ⟨(TG_MK_PDATA r i), 19, 0⟩
def TG_BP_AVG (r : Nat) : Nat := winBase r + 0x10414
def TG_BP_AVG_AVG_LOG (r : Nat) : Fld := ⟨(TG_BP_AVG r), 3, 0⟩
def TG_BP_SRC (r i : Nat) : Nat := winBase r + 0x10800 + 0x10 * i
def TG_BP_SRC_ON (r i : Nat) : Fld := ⟨(TG_BP_SRC r i), 31, 31⟩
def TG_BP_SRC_KIND (r i : Nat) : Fld := ⟨(TG_BP_SRC r i), 30, 30⟩
def TG_BP_SRC_INDEX (r i : Nat) : Fld := ⟨(TG_BP_SRC r i), 27, 24⟩
def TG_BP_SRC_DIR (r i : Nat) : Fld := ⟨(TG_BP_SRC r i), 16, 16⟩
def TG_BP_FIRST (r i : Nat) : Nat := winBase r + 0x10804 + 0x10 * i
def TG_BP_LAST (r i : Nat) : Nat := winBase r + 0x10808 + 0x10 * i
def TG_BP_LEVEL (r i : Nat) : Nat := winBase r + 0x1080C + 0x10 * i
def TG_BP_LEVEL_LEVEL (r i : Nat) : Fld := ⟨(TG_BP_LEVEL r i), 31, 16⟩
def TG_BP_LEVEL_HYST (r i : Nat) : Fld := ⟨(TG_BP_LEVEL r i), 7, 0⟩
def TG_DR_SRC (r : Nat) : Nat := winBase r + 0x10454
def TG_DR_SRC_KIND (r : Nat) : Fld := ⟨(TG_DR_SRC r), 31, 31⟩
def TG_DR_SRC_INVERT (r : Nat) : Fld := ⟨(TG_DR_SRC r), 30, 30⟩
def TG_DR_SRC_SEL (r : Nat) : Fld := ⟨(TG_DR_SRC r), 27, 24⟩
def TG_DR_GEOM (r : Nat) : Nat := winBase r + 0x10458
def TG_DR_GEOM_SUB_LOG (r : Nat) : Fld := ⟨(TG_DR_GEOM r), 31, 28⟩
def TG_DR_GEOM_FIRST (r : Nat) : Fld := ⟨(TG_DR_GEOM r), 19, 0⟩
def TG_DR_STEP (r : Nat) : Nat := winBase r + 0x1045C
def TG_DR_STEP_BANDS_M1 (r : Nat) : Fld := ⟨(TG_DR_STEP r), 27, 16⟩
def TG_DR_STEP_STEP_SPECTRA (r : Nat) : Fld := ⟨(TG_DR_STEP r), 15, 0⟩
def TG_DR_SPAN (r : Nat) : Nat := winBase r + 0x10460
def TG_DR_SPAN_LAWS_M1 (r : Nat) : Fld := ⟨(TG_DR_SPAN r), 26, 16⟩
def TG_DR_SPAN_LOG_SPAN (r : Nat) : Fld := ⟨(TG_DR_SPAN r), 4, 0⟩
def TG_DR_THRESH (r : Nat) : Nat := winBase r + 0x10464
def TG_DR_THRESH_CLUSTER (r : Nat) : Fld := ⟨(TG_DR_THRESH r), 27, 16⟩
def TG_DR_THRESH_THRESH (r : Nat) : Fld := ⟨(TG_DR_THRESH r), 11, 0⟩
def TG_DR_F0_KHZ (r : Nat) : Nat := winBase r + 0x10468
def TG_DR_LAW_ADDR (r : Nat) : Nat := winBase r + 0x1046C
def TG_DR_LAW_ADDR_W (r : Nat) : Fld := ⟨(TG_DR_LAW_ADDR r), 10, 0⟩
def TG_DR_LAW_DATA (r : Nat) : Nat := winBase r + 0x10470
def TG_DR_WIDTHS (r : Nat) : Nat := winBase r + 0x10478
def TG_DR_WIDTHS_MASK (r : Nat) : Fld := ⟨(TG_DR_WIDTHS r), 8, 0⟩
def TG_DR_LAT_NS (r : Nat) : Nat := winBase r + 0x1047C
def TG_SQ_CFG (r i : Nat) : Nat := winBase r + 0x10494 + 0x40 * i
def TG_SQ_CFG_STATES_M1 (r i : Nat) : Fld := ⟨(TG_SQ_CFG r i), 1, 0⟩
def TG_SQ_MEMBER (r i j : Nat) : Nat := winBase r + 0x10498 + 0x40 * i + 0x4 * j
def TG_SQ_MEMBER_ST (r i j : Nat) : Fld := ⟨(TG_SQ_MEMBER r i j), 25, 16⟩
def TG_SQ_MEMBER_SP (r i j : Nat) : Fld := ⟨(TG_SQ_MEMBER r i j), 13, 0⟩
def TG_SQ_WIN (r i j : Nat) : Nat := winBase r + 0x104A4 + 0x40 * i + 0x4 * j
def TG_SQ_HOLD (r i : Nat) : Nat := winBase r + 0x104B4 + 0x40 * i
def TG_SQ_STATE (r i : Nat) : Nat := winBase r + 0x104B8 + 0x40 * i
def TG_SQ_STATE_NOW (r i : Nat) : Fld := ⟨(TG_SQ_STATE r i), 1, 0⟩
def ST_TG_EX_SRC (i : Nat) : Nat := 0x105014 + 0x40 * i
def ST_TG_EX_SRC_EDGE (i : Nat) : Fld := ⟨(ST_TG_EX_SRC i), 8, 8⟩
def ST_TG_EX_SRC_CH (i : Nat) : Fld := ⟨(ST_TG_EX_SRC i), 4, 0⟩
def ST_TG_FB_CFG : Nat := 0x105214
def ST_TG_FB_CFG_TX_SWARM : Fld := ⟨ST_TG_FB_CFG, 27, 16⟩
def ST_TG_FB_CFG_RX_EN : Fld := ⟨ST_TG_FB_CFG, 15, 15⟩
def ST_TG_FB_CFG_RX_SWARM : Fld := ⟨ST_TG_FB_CFG, 11, 0⟩
def ST_TG_HO_SEC : Nat := 0x105254
def ST_TG_HO_FRAC : Nat := 0x105258
def ST_TG_HO_FIRE : Nat := 0x10525C
def ST_TG_HO_FIRE_FIRE : Fld := ⟨ST_TG_HO_FIRE, 0, 0⟩
def QU_VR_CTL (i : Nat) : Nat := 0xB10000 + 0x10 * i
def QU_VR_CTL_REASON (i : Nat) : Fld := ⟨(QU_VR_CTL i), 31, 16⟩
def QU_VR_CTL_ENABLE (i : Nat) : Fld := ⟨(QU_VR_CTL i), 0, 0⟩
def QU_VR_SIZE (i : Nat) : Nat := 0xB10004 + 0x10 * i
def QU_VR_SIZE_SIZE (i : Nat) : Fld := ⟨(QU_VR_SIZE i), 15, 0⟩
def QU_VR_LOST (i : Nat) : Nat := 0xB10008 + 0x10 * i
def QU_VR_STATUS (i : Nat) : Nat := 0xB1000C + 0x10 * i
def QU_VR_STATUS_WIDTH (i : Nat) : Fld := ⟨(QU_VR_STATUS i), 1, 1⟩
def QU_VR_STATUS_RUNNING (i : Nat) : Fld := ⟨(QU_VR_STATUS i), 0, 0⟩
def QU_G_CTL (i : Nat) : Nat := 0xB20000 + 0x80 * i
def QU_G_CTL_REASON (i : Nat) : Fld := ⟨(QU_G_CTL i), 31, 16⟩
def QU_G_CTL_EXPORT (i : Nat) : Fld := ⟨(QU_G_CTL i), 3, 3⟩
def QU_G_CTL_RETRIG (i : Nat) : Fld := ⟨(QU_G_CTL i), 2, 2⟩
def QU_G_CTL_KEEP (i : Nat) : Fld := ⟨(QU_G_CTL i), 1, 1⟩
def QU_G_CTL_ENABLE (i : Nat) : Fld := ⟨(QU_G_CTL i), 0, 0⟩
def QU_G_INPUTS (i : Nat) : Nat := 0xB20004 + 0x80 * i
def QU_G_INPUTS_MASK (i : Nat) : Fld := ⟨(QU_G_INPUTS i), 15, 0⟩
def QU_G_LEN (i : Nat) : Nat := 0xB20008 + 0x80 * i
def QU_G_LEN_LEN256 (i : Nat) : Fld := ⟨(QU_G_LEN i), 24, 0⟩
def QU_G_PRE (i : Nat) : Nat := 0xB2000C + 0x80 * i
def QU_G_PRE_PRE256 (i : Nat) : Fld := ⟨(QU_G_PRE i), 24, 0⟩
def QU_G_AREA (i : Nat) : Nat := 0xB20010 + 0x80 * i
def QU_G_AREA_MIB (i : Nat) : Fld := ⟨(QU_G_AREA i), 15, 0⟩
def QU_G_RATE (i : Nat) : Nat := 0xB20014 + 0x80 * i
def QU_G_RATE_RATE (i : Nat) : Fld := ⟨(QU_G_RATE i), 11, 0⟩
def QU_G_TRIG (i j : Nat) : Nat := 0xB20018 + 0x4 * i + 0x80 * j
def QU_G_TRIG_UNITS (i j : Nat) : Fld := ⟨(QU_G_TRIG i j), 15, 0⟩
def QU_G_NQ (i : Nat) : Nat := 0xB2002C + 0x80 * i
def QU_G_NQ_NQ (i : Nat) : Fld := ⟨(QU_G_NQ i), 24, 0⟩
def QU_G_NEXT_LO (i : Nat) : Nat := 0xB20030 + 0x80 * i
def QU_G_NEXT_HI (i : Nat) : Nat := 0xB20034 + 0x80 * i
def QU_G_CLOSED_LO (i : Nat) : Nat := 0xB20038 + 0x80 * i
def QU_G_CLOSED_HI (i : Nat) : Nat := 0xB2003C + 0x80 * i
def QU_G_RELEASE_LO (i : Nat) : Nat := 0xB20040 + 0x80 * i
def QU_G_RELEASE_HI (i : Nat) : Nat := 0xB20044 + 0x80 * i
def QU_G_IGNORED (i : Nat) : Nat := 0xB20048 + 0x80 * i
def QU_G_REFUSED (i : Nat) : Nat := 0xB2004C + 0x80 * i
def QU_G_OVERRUN (i : Nat) : Nat := 0xB20050 + 0x80 * i
def QU_G_BASE_LO (i : Nat) : Nat := 0xB20054 + 0x80 * i
def QU_G_BASE_HI (i : Nat) : Nat := 0xB20058 + 0x80 * i
def QU_G_COLO_LO (i : Nat) : Nat := 0xB2005C + 0x80 * i
def QU_G_COLO_HI (i : Nat) : Nat := 0xB20060 + 0x80 * i
def QU_G_STATUS (i : Nat) : Nat := 0xB20064 + 0x80 * i
def QU_G_STATUS_COPYING (i : Nat) : Fld := ⟨(QU_G_STATUS i), 5, 1⟩
def QU_G_STATUS_RUNNING (i : Nat) : Fld := ⟨(QU_G_STATUS i), 0, 0⟩
def CE_RIN_SRC (i : Nat) : Nat := 0xA00400 + 0x10 * i
def CE_RIN_SRC_HIVE (i : Nat) : Fld := ⟨(CE_RIN_SRC i), 31, 16⟩
def CE_RIN_SRC_STREAM (i : Nat) : Fld := ⟨(CE_RIN_SRC i), 15, 0⟩
def CE_RIN_CFG (i : Nat) : Nat := 0xA00404 + 0x10 * i
def CE_RIN_CFG_REASON (i : Nat) : Fld := ⟨(CE_RIN_CFG i), 31, 16⟩
def CE_RIN_CFG_ON (i : Nat) : Fld := ⟨(CE_RIN_CFG i), 15, 15⟩
def CE_RIN_CFG_BITS (i : Nat) : Fld := ⟨(CE_RIN_CFG i), 14, 13⟩
def CE_RIN_CFG_HOP (i : Nat) : Fld := ⟨(CE_RIN_CFG i), 8, 8⟩
def CE_RIN_CFG_LOG_C (i : Nat) : Fld := ⟨(CE_RIN_CFG i), 4, 0⟩
def CE_RIN_DROP (i : Nat) : Nat := 0xA00408 + 0x10 * i
def CE_XS_CTL : Nat := 0xA01000
def CE_XS_CTL_REASON : Fld := ⟨CE_XS_CTL, 31, 16⟩
def CE_XS_CTL_ENABLE : Fld := ⟨CE_XS_CTL, 0, 0⟩
def CE_XS_CFG : Nat := 0xA01004
def CE_XS_CFG_ALIGN_US : Fld := ⟨CE_XS_CFG, 30, 24⟩
def CE_XS_CFG_DUMP_US : Fld := ⟨CE_XS_CFG, 23, 0⟩
def CE_XS_STATUS : Nat := 0xA01008
def CE_XS_STATUS_LATE : Fld := ⟨CE_XS_STATUS, 2, 2⟩
def CE_XS_STATUS_SAT : Fld := ⟨CE_XS_STATUS, 1, 1⟩
def CE_XS_STATUS_RUNNING : Fld := ⟨CE_XS_STATUS, 0, 0⟩
def CE_XS_SAT_COUNT : Nat := 0xA0100C
def CE_XS_UNMATCHED : Nat := 0xA01010
def CE_XS_DONE : Nat := 0xA01014
def CE_BM_SAT_COUNT : Nat := 0xA01018
def CE_XP_SEL (i : Nat) : Nat := 0xA02000 + 0x8 * i
def CE_XP_SEL_ON (i : Nat) : Fld := ⟨(CE_XP_SEL i), 31, 31⟩
def CE_XP_SEL_B (i : Nat) : Fld := ⟨(CE_XP_SEL i), 12, 8⟩
def CE_XP_SEL_A (i : Nat) : Fld := ⟨(CE_XP_SEL i), 4, 0⟩
def CE_XP_RANGE (i : Nat) : Nat := 0xA02004 + 0x8 * i
def CE_XP_RANGE_MERGE_LOG (i : Nat) : Fld := ⟨(CE_XP_RANGE i), 27, 25⟩
def CE_XP_RANGE_LOG_SPAN (i : Nat) : Fld := ⟨(CE_XP_RANGE i), 24, 20⟩
def CE_XP_RANGE_FIRST (i : Nat) : Fld := ⟨(CE_XP_RANGE i), 19, 0⟩
def CE_BM_CTL (i : Nat) : Nat := 0xA04000 + 0x80 * i
def CE_BM_CTL_REASON (i : Nat) : Fld := ⟨(CE_BM_CTL i), 31, 16⟩
def CE_BM_CTL_ROOT (i : Nat) : Fld := ⟨(CE_BM_CTL i), 1, 1⟩
def CE_BM_CTL_ENABLE (i : Nat) : Fld := ⟨(CE_BM_CTL i), 0, 0⟩
def CE_BM_INPUTS (i : Nat) : Nat := 0xA04004 + 0x80 * i
def CE_BM_INPUTS_MASK (i : Nat) : Fld := ⟨(CE_BM_INPUTS i), 15, 0⟩
def CE_BM_RANGE (i : Nat) : Nat := 0xA04008 + 0x80 * i
def CE_BM_RANGE_LOG_SPAN (i : Nat) : Fld := ⟨(CE_BM_RANGE i), 24, 20⟩
def CE_BM_RANGE_FIRST (i : Nat) : Fld := ⟨(CE_BM_RANGE i), 19, 0⟩
def CE_BM_RED (i : Nat) : Nat := 0xA0400C + 0x80 * i
def CE_BM_RED_ALIGN_US (i : Nat) : Fld := ⟨(CE_BM_RED i), 30, 24⟩
def CE_BM_RED_PS_FRAC (i : Nat) : Fld := ⟨(CE_BM_RED i), 19, 16⟩
def CE_BM_RED_ROOT_SHIFT (i : Nat) : Fld := ⟨(CE_BM_RED i), 12, 8⟩
def CE_BM_RED_OUT_BITS (i : Nat) : Fld := ⟨(CE_BM_RED i), 7, 6⟩
def CE_BM_RED_CHILDREN (i : Nat) : Fld := ⟨(CE_BM_RED i), 2, 0⟩
def CE_BM_PARENT (i : Nat) : Nat := 0xA04010 + 0x80 * i
def CE_BM_PARENT_PARENT (i : Nat) : Fld := ⟨(CE_BM_PARENT i), 15, 0⟩
def CE_BM_CHILD (i j : Nat) : Nat := 0xA04014 + 0x80 * i + 0x4 * j
def CE_BM_CHILD_INPUTS (i j : Nat) : Fld := ⟨(CE_BM_CHILD i j), 31, 16⟩
def CE_BM_CHILD_HIVE (i j : Nat) : Fld := ⟨(CE_BM_CHILD i j), 15, 0⟩
def CE_BM_MK_CTL (i : Nat) : Nat := 0xA04024 + 0x80 * i
def CE_BM_MK_CTL_REASON (i : Nat) : Fld := ⟨(CE_BM_MK_CTL i), 31, 16⟩
def CE_BM_MK_CTL_HELD (i : Nat) : Fld := ⟨(CE_BM_MK_CTL i), 4, 4⟩
def CE_BM_MK_CTL_RAMPING (i : Nat) : Fld := ⟨(CE_BM_MK_CTL i), 3, 3⟩
def CE_BM_MK_CTL_PENDING (i : Nat) : Fld := ⟨(CE_BM_MK_CTL i), 1, 1⟩
def CE_BM_MK_CTL_ARM (i : Nat) : Fld := ⟨(CE_BM_MK_CTL i), 0, 0⟩
def CE_BM_MK_SEC (i : Nat) : Nat := 0xA04028 + 0x80 * i
def CE_BM_MK_FRAC (i : Nat) : Nat := 0xA0402C + 0x80 * i
def CE_BM_RAMP_NS (i : Nat) : Nat := 0xA04030 + 0x80 * i
def CE_BM_RAMP_STEPS (i : Nat) : Nat := 0xA04034 + 0x80 * i
def CE_BM_RAMP_STEPS_STEPS (i : Nat) : Fld := ⟨(CE_BM_RAMP_STEPS i), 15, 0⟩
def CE_BM_PARTIAL (i : Nat) : Nat := 0xA04038 + 0x80 * i
def CE_BM_LATE (i : Nat) : Nat := 0xA0403C + 0x80 * i
def CE_BM_DONE_SEC (i : Nat) : Nat := 0xA04040 + 0x80 * i
def CE_BM_DONE_FRAC (i : Nat) : Nat := 0xA04044 + 0x80 * i
def CE_WT_ADDR : Nat := 0xA06000
def CE_WT_ADDR_BANK : Fld := ⟨CE_WT_ADDR, 31, 31⟩
def CE_WT_ADDR_BEAM : Fld := ⟨CE_WT_ADDR, 20, 16⟩
def CE_WT_ADDR_INPUT : Fld := ⟨CE_WT_ADDR, 15, 12⟩
def CE_WT_ADDR_P : Fld := ⟨CE_WT_ADDR, 11, 0⟩
def CE_WT_DATA : Nat := 0xA06004
def CE_WT_DATA_IM : Fld := ⟨CE_WT_DATA, 31, 16⟩
def CE_WT_DATA_RE : Fld := ⟨CE_WT_DATA, 15, 0⟩
def KL_LANE_STATUS (r i : Nat) : Nat := winBase r + 0x2000 + 0x20 * i
def KL_LANE_STATUS_IN_PORT (r i : Nat) : Fld := ⟨(KL_LANE_STATUS r i), 13, 13⟩
def KL_LANE_STATUS_PORT (r i : Nat) : Fld := ⟨(KL_LANE_STATUS r i), 12, 8⟩
def KL_LANE_STATUS_RETIRED (r i : Nat) : Fld := ⟨(KL_LANE_STATUS r i), 3, 3⟩
def KL_LANE_STATUS_FEC_LOCK (r i : Nat) : Fld := ⟨(KL_LANE_STATUS r i), 2, 2⟩
def KL_LANE_STATUS_TRAINED (r i : Nat) : Fld := ⟨(KL_LANE_STATUS r i), 1, 1⟩
def KL_LANE_STATUS_SIGNAL (r i : Nat) : Fld := ⟨(KL_LANE_STATUS r i), 0, 0⟩
def KL_LANE_CORR_LO (r i : Nat) : Nat := winBase r + 0x2004 + 0x20 * i
def KL_LANE_CORR_HI (r i : Nat) : Nat := winBase r + 0x2008 + 0x20 * i
def KL_LANE_UNCORR (r i : Nat) : Nat := winBase r + 0x200C + 0x20 * i
def KL_LANE_LIMIT (r i : Nat) : Nat := winBase r + 0x2010 + 0x20 * i
def KL_LANE_LIMIT_UNCORR_MAX (r i : Nat) : Fld := ⟨(KL_LANE_LIMIT r i), 31, 16⟩
def KL_LANE_LIMIT_CORR_AVG (r i : Nat) : Fld := ⟨(KL_LANE_LIMIT r i), 7, 0⟩
def KL_SPARE (r i : Nat) : Nat := winBase r + 0x3000 + 0x4 * i
def KL_SPARE_REASON (r i : Nat) : Fld := ⟨(KL_SPARE r i), 31, 16⟩
def KL_SPARE_PORT (r i : Nat) : Fld := ⟨(KL_SPARE r i), 8, 4⟩
def KL_SPARE_IN_USE (r i : Nat) : Fld := ⟨(KL_SPARE r i), 2, 2⟩
def KL_SPARE_TRAINED (r i : Nat) : Fld := ⟨(KL_SPARE r i), 1, 1⟩
def KL_SPARE_ENABLE (r i : Nat) : Fld := ⟨(KL_SPARE r i), 0, 0⟩
def KL_PORT_CTL (r i : Nat) : Nat := winBase r + 0x4000 + 0x40 * i
def KL_PORT_CTL_REASON (r i : Nat) : Fld := ⟨(KL_PORT_CTL r i), 31, 16⟩
def KL_PORT_CTL_MEDIUM (r i : Nat) : Fld := ⟨(KL_PORT_CTL r i), 13, 12⟩
def KL_PORT_CTL_MODE (r i : Nat) : Fld := ⟨(KL_PORT_CTL r i), 11, 11⟩
def KL_PORT_CTL_WIDTH (r i : Nat) : Fld := ⟨(KL_PORT_CTL r i), 10, 9⟩
def KL_PORT_CTL_FIRST (r i : Nat) : Fld := ⟨(KL_PORT_CTL r i), 6, 1⟩
def KL_PORT_CTL_ENABLE (r i : Nat) : Fld := ⟨(KL_PORT_CTL r i), 0, 0⟩
def KL_PORT_STATUS (r i : Nat) : Nat := winBase r + 0x4004 + 0x40 * i
def KL_PORT_STATUS_ROLES (r i : Nat) : Fld := ⟨(KL_PORT_STATUS r i), 23, 16⟩
def KL_PORT_STATUS_MISWIRED (r i : Nat) : Fld := ⟨(KL_PORT_STATUS r i), 12, 12⟩
def KL_PORT_STATUS_WIDTH_NOW (r i : Nat) : Fld := ⟨(KL_PORT_STATUS r i), 11, 10⟩
def KL_PORT_STATUS_NARROWED (r i : Nat) : Fld := ⟨(KL_PORT_STATUS r i), 9, 9⟩
def KL_PORT_STATUS_SWAPPED (r i : Nat) : Fld := ⟨(KL_PORT_STATUS r i), 8, 8⟩
def KL_PORT_STATUS_STATE (r i : Nat) : Fld := ⟨(KL_PORT_STATUS r i), 2, 0⟩
def KL_PORT_PEER (r i : Nat) : Nat := winBase r + 0x4008 + 0x40 * i
def KL_PORT_PEER_HIVE (r i : Nat) : Fld := ⟨(KL_PORT_PEER r i), 31, 16⟩
def KL_PORT_PEER_PORT (r i : Nat) : Fld := ⟨(KL_PORT_PEER r i), 5, 0⟩
def KL_PORT_ABORTS (r i : Nat) : Nat := winBase r + 0x400C + 0x40 * i
def KL_PORT_SBERR (r i : Nat) : Nat := winBase r + 0x4010 + 0x40 * i
def KL_TT_CTL (r i : Nat) : Nat := winBase r + 0x4020 + 0x40 * i
def KL_TT_CTL_REASON (r i : Nat) : Fld := ⟨(KL_TT_CTL r i), 31, 16⟩
def KL_TT_CTL_CAL (r i : Nat) : Fld := ⟨(KL_TT_CTL r i), 1, 1⟩
def KL_TT_CTL_TT_EN (r i : Nat) : Fld := ⟨(KL_TT_CTL r i), 0, 0⟩
def KL_TT_ASYM (r i : Nat) : Nat := winBase r + 0x4024 + 0x40 * i
def KL_TT_OFFSET (r i : Nat) : Nat := winBase r + 0x4028 + 0x40 * i
def KL_TT_DELAY (r i : Nat) : Nat := winBase r + 0x402C + 0x40 * i
def KL_TT_STATUS (r i : Nat) : Nat := winBase r + 0x4030 + 0x40 * i
def KL_TT_STATUS_CAL_DONE (r i : Nat) : Fld := ⟨(KL_TT_STATUS r i), 3, 3⟩
def KL_TT_STATUS_CAL_BUSY (r i : Nat) : Fld := ⟨(KL_TT_STATUS r i), 2, 2⟩
def KL_TT_STATUS_STABLE (r i : Nat) : Fld := ⟨(KL_TT_STATUS r i), 1, 1⟩
def KL_TT_STATUS_PEER_VALID (r i : Nat) : Fld := ⟨(KL_TT_STATUS r i), 0, 0⟩
def KL_EX_CTL (r i : Nat) : Nat := winBase r + 0x6000 + 0x40 * i
def KL_EX_CTL_UDP_SRC (r i : Nat) : Fld := ⟨(KL_EX_CTL r i), 31, 16⟩
def KL_EX_CTL_IPV6 (r i : Nat) : Fld := ⟨(KL_EX_CTL r i), 15, 15⟩
def KL_EX_CTL_MTU (r i : Nat) : Fld := ⟨(KL_EX_CTL r i), 13, 0⟩
def KL_EX_MAC_LO (r i : Nat) : Nat := winBase r + 0x6004 + 0x40 * i
def KL_EX_MAC_HI (r i : Nat) : Nat := winBase r + 0x6008 + 0x40 * i
def KL_EX_IP4 (r i : Nat) : Nat := winBase r + 0x600C + 0x40 * i
def KL_EX_IP6 (r i j : Nat) : Nat := winBase r + 0x6010 + 0x4 * i + 0x40 * j
def KL_EX_RXDROP (r i : Nat) : Nat := winBase r + 0x6020 + 0x40 * i
def KL_XF_CTL (r i : Nat) : Nat := winBase r + 0x8000 + 0x40 * i
def KL_XF_CTL_DSCP (r i : Nat) : Fld := ⟨(KL_XF_CTL r i), 23, 18⟩
def KL_XF_CTL_PORT (r i : Nat) : Fld := ⟨(KL_XF_CTL r i), 12, 8⟩
def KL_XF_CTL_ON (r i : Nat) : Fld := ⟨(KL_XF_CTL r i), 0, 0⟩
def KL_XF_DPORT (r i : Nat) : Nat := winBase r + 0x8004 + 0x40 * i
def KL_XF_DMAC_LO (r i : Nat) : Nat := winBase r + 0x8008 + 0x40 * i
def KL_XF_DMAC_HI (r i : Nat) : Nat := winBase r + 0x800C + 0x40 * i
def KL_XF_DIP4 (r i : Nat) : Nat := winBase r + 0x8010 + 0x40 * i
def KL_XF_DIP6 (r i j : Nat) : Nat := winBase r + 0x8014 + 0x4 * i + 0x40 * j
def KL_XF_DGRAMS (r i : Nat) : Nat := winBase r + 0x8024 + 0x40 * i
def KL_XF_DROPPED (r i : Nat) : Nat := winBase r + 0x8028 + 0x40 * i
def KH_CFG : Nat := 0x108000
def KH_CFG_REASON : Fld := ⟨KH_CFG, 31, 16⟩
def KH_CFG_PRIORITY : Fld := ⟨KH_CFG, 15, 8⟩
def KH_CFG_ADDR_MODE : Fld := ⟨KH_CFG, 2, 2⟩
def KH_CFG_ENABLE : Fld := ⟨KH_CFG, 0, 0⟩
def KH_ADDR : Nat := 0x108004
def KH_ADDR_FIXED : Fld := ⟨KH_ADDR, 31, 16⟩
def KH_ADDR_ADDR : Fld := ⟨KH_ADDR, 15, 0⟩
def KH_STATUS : Nat := 0x108008
def KH_STATUS_HOPS : Fld := ⟨KH_STATUS, 23, 16⟩
def KH_STATUS_TIME_PORT : Fld := ⟨KH_STATUS, 15, 10⟩
def KH_STATUS_ROOT : Fld := ⟨KH_STATUS, 9, 9⟩
def KH_STATUS_ADDR_STATE : Fld := ⟨KH_STATUS, 5, 4⟩
def KH_STATUS_TOPO_CHG : Fld := ⟨KH_STATUS, 3, 3⟩
def KH_ROOT : Nat := 0x10800C
def KH_ROOT_PRIORITY : Fld := ⟨KH_ROOT, 31, 24⟩
def KH_ROOT_CLASS : Fld := ⟨KH_ROOT, 17, 16⟩
def KH_ROOT_ADDR : Fld := ⟨KH_ROOT, 15, 0⟩
def KH_POOL : Nat := 0x108010
def KH_POOL_HI : Fld := ⟨KH_POOL, 31, 16⟩
def KH_POOL_LO : Fld := ⟨KH_POOL, 15, 0⟩
def KH_SERIAL_LO : Nat := 0x108014
def KH_SERIAL_HI : Nat := 0x108018
def KH_NODE_Q : Nat := 0x10801C
def KH_NODE_Q_ADDR : Fld := ⟨KH_NODE_Q, 15, 0⟩
def KH_NODE_INFO : Nat := 0x108020
def KH_NODE_INFO_PRESENT : Fld := ⟨KH_NODE_INFO, 31, 31⟩
def KH_NODE_INFO_ROOT : Fld := ⟨KH_NODE_INFO, 30, 30⟩
def KH_NODE_INFO_HOPS : Fld := ⟨KH_NODE_INFO, 15, 8⟩
def KH_NODE_INFO_HEALTH : Fld := ⟨KH_NODE_INFO, 7, 0⟩
def KH_EXPIRED : Nat := 0x108024
def KH_NOCTX : Nat := 0x108028
def KH_TOPO : Nat := 0x10802C
def KH_MG_CTL : Nat := 0x108030
def KH_MG_CTL_REASON : Fld := ⟨KH_MG_CTL, 31, 16⟩
def KH_MG_CTL_BUSY : Fld := ⟨KH_MG_CTL, 2, 2⟩
def KH_MG_CTL_WRITE : Fld := ⟨KH_MG_CTL, 1, 1⟩
def KH_MG_CTL_GO : Fld := ⟨KH_MG_CTL, 0, 0⟩
def KH_MG_DEST : Nat := 0x108034
def KH_MG_ADDR : Nat := 0x108038
def KH_MG_DATA : Nat := 0x10803C
def KH_SWARM (i : Nat) : Nat := 0x108400 + 0x4 * i
def KH_SC_KEY (i : Nat) : Nat := 0x110000 + 0x40 * i
def KH_SC_KEY_SOURCE_HIVE (i : Nat) : Fld := ⟨(KH_SC_KEY i), 31, 16⟩
def KH_SC_KEY_STREAM_ID (i : Nat) : Fld := ⟨(KH_SC_KEY i), 15, 0⟩
def KH_SC_CTL (i : Nat) : Nat := 0x110004 + 0x40 * i
def KH_SC_CTL_REASON (i : Nat) : Fld := ⟨(KH_SC_CTL i), 31, 16⟩
def KH_SC_CTL_ROLE (i : Nat) : Fld := ⟨(KH_SC_CTL i), 5, 4⟩
def KH_SC_CTL_AUTO (i : Nat) : Fld := ⟨(KH_SC_CTL i), 3, 3⟩
def KH_SC_CTL_ON (i : Nat) : Fld := ⟨(KH_SC_CTL i), 0, 0⟩
def KH_SC_DEST (i : Nat) : Nat := 0x110008 + 0x40 * i
def KH_SC_DEST_SWARM (i : Nat) : Fld := ⟨(KH_SC_DEST i), 31, 31⟩
def KH_SC_DEST_CLASS (i : Nat) : Fld := ⟨(KH_SC_DEST i), 27, 26⟩
def KH_SC_DEST_ADDR (i : Nat) : Fld := ⟨(KH_SC_DEST i), 15, 0⟩
def KH_SC_LAT (i : Nat) : Nat := 0x11000C + 0x40 * i
def KH_SC_LAT_BUDGET (i : Nat) : Fld := ⟨(KH_SC_LAT i), 15, 0⟩
def KH_SC_LEAD (i : Nat) : Nat := 0x110010 + 0x40 * i
def KH_SC_SINK (i : Nat) : Nat := 0x110014 + 0x40 * i
def KH_SC_SINK_INDEX (i : Nat) : Fld := ⟨(KH_SC_SINK i), 14, 8⟩
def KH_SC_SINK_KIND (i : Nat) : Fld := ⟨(KH_SC_SINK i), 2, 0⟩
def KH_SC_STATUS (i : Nat) : Nat := 0x110018 + 0x40 * i
def KH_SC_STATUS_BOUND (i : Nat) : Fld := ⟨(KH_SC_STATUS i), 31, 16⟩
def KH_SC_STATUS_HOPS (i : Nat) : Fld := ⟨(KH_SC_STATUS i), 15, 8⟩
def KH_SC_STATUS_PARTIAL (i : Nat) : Fld := ⟨(KH_SC_STATUS i), 3, 3⟩
def KH_SC_STATUS_SHED (i : Nat) : Fld := ⟨(KH_SC_STATUS i), 2, 2⟩
def KH_SC_STATUS_OPEN (i : Nat) : Fld := ⟨(KH_SC_STATUS i), 1, 1⟩
def KH_SC_STATUS_OPENING (i : Nat) : Fld := ⟨(KH_SC_STATUS i), 0, 0⟩
def KH_SC_DROP (i : Nat) : Nat := 0x11001C + 0x40 * i
def KH_SC_MAXREC (i : Nat) : Nat := 0x110020 + 0x40 * i
def KH_SC_RATE (i : Nat) : Nat := 0x110024 + 0x40 * i
def CM_CFG : Nat := 0xB04000
def CM_CFG_REASON : Fld := ⟨CM_CFG, 31, 16⟩
def CM_CFG_RATE : Fld := ⟨CM_CFG, 12, 10⟩
def CM_CFG_HASH : Fld := ⟨CM_CFG, 9, 9⟩
def CM_CFG_ECC : Fld := ⟨CM_CFG, 8, 8⟩
def CM_CFG_GRAIN_LOG : Fld := ⟨CM_CFG, 7, 4⟩
def CM_CFG_CH_LOG : Fld := ⟨CM_CFG, 3, 1⟩
def CM_SCHED : Nat := 0xB04004
def CM_SCHED_WR_HIGH : Fld := ⟨CM_SCHED, 24, 16⟩
def CM_SCHED_WR_LOW : Fld := ⟨CM_SCHED, 8, 0⟩
def CM_PAGE : Nat := 0xB04008
def CM_PAGE_PRED_EN : Fld := ⟨CM_PAGE, 16, 16⟩
def CM_PAGE_IDLE : Fld := ⟨CM_PAGE, 12, 0⟩
def CM_REF : Nat := 0xB0400C
def CM_REF_MR4_POLL : Fld := ⟨CM_REF, 31, 22⟩
def CM_REF_PATROL : Fld := ⟨CM_REF, 21, 21⟩
def CM_REF_UE_MAX : Fld := ⟨CM_REF, 11, 4⟩
def CM_REF_POSTPONE_MAX : Fld := ⟨CM_REF, 3, 0⟩
def CM_SR : Nat := 0xB04010
def CM_SR_SR_IDLE : Fld := ⟨CM_SR, 31, 16⟩
def CM_SR_RETAIN_SWEEP : Fld := ⟨CM_SR, 3, 3⟩
def CM_SR_RETAIN_RING : Fld := ⟨CM_SR, 2, 2⟩
def CM_SR_PASR_EN : Fld := ⟨CM_SR, 1, 1⟩
def CM_SR_SR_EN : Fld := ⟨CM_SR, 0, 0⟩
def CM_STATUS : Nat := 0xB04014
def CM_STATUS_RANKS_M1 : Fld := ⟨CM_STATUS, 19, 16⟩
def CM_STATUS_LOST : Fld := ⟨CM_STATUS, 3, 3⟩
def CM_STATUS_TRAIN_FAIL : Fld := ⟨CM_STATUS, 2, 2⟩
def CM_STATUS_TRAINED : Fld := ⟨CM_STATUS, 0, 0⟩
def CM_SIZE_MIB : Nat := 0xB04018
def CM_CH_STATUS (i : Nat) : Nat := 0xB04400 + 0x40 * i
def CM_CH_STATUS_OWED (i : Nat) : Fld := ⟨(CM_CH_STATUS i), 11, 8⟩
def CM_CH_STATUS_LOST (i : Nat) : Fld := ⟨(CM_CH_STATUS i), 4, 4⟩
def CM_CH_STATUS_IN_SR (i : Nat) : Fld := ⟨(CM_CH_STATUS i), 3, 3⟩
def CM_CH_STATUS_HOT2 (i : Nat) : Fld := ⟨(CM_CH_STATUS i), 2, 2⟩
def CM_CH_STATUS_HOT (i : Nat) : Fld := ⟨(CM_CH_STATUS i), 1, 1⟩
def CM_CH_STATUS_DRAIN (i : Nat) : Fld := ⟨(CM_CH_STATUS i), 0, 0⟩
def CM_CH_CE (i : Nat) : Nat := 0xB04404 + 0x40 * i
def CM_CH_UE (i : Nat) : Nat := 0xB04408 + 0x40 * i
def CM_CH_STALL (i : Nat) : Nat := 0xB0440C + 0x40 * i
def CM_CH_CROSS (i : Nat) : Nat := 0xB04410 + 0x40 * i
def CM_CH_RAW (i : Nat) : Nat := 0xB04414 + 0x40 * i
def CM_CH_WAKE (i : Nat) : Nat := 0xB04418 + 0x40 * i
def CM_CH_ERR_LO (i : Nat) : Nat := 0xB0441C + 0x40 * i
def CM_CH_ERR_HI (i : Nat) : Nat := 0xB04420 + 0x40 * i
def CM_CH_ERR_HI_BIT (i : Nat) : Fld := ⟨(CM_CH_ERR_HI i), 31, 10⟩
def CM_CH_ERR_HI_OFFS_HI (i : Nat) : Fld := ⟨(CM_CH_ERR_HI i), 9, 0⟩
def CM_SEG (i : Nat) : Nat := 0xB04800 + 0x4 * i
def CM_SEG_KINDS (i : Nat) : Fld := ⟨(CM_SEG i), 4, 0⟩
def BD_CTL : Nat := 0xC04000
def BD_CTL_REASON : Fld := ⟨BD_CTL, 31, 16⟩
def BD_CTL_FORMAT : Fld := ⟨BD_CTL, 2, 2⟩
def BD_CTL_QUIESCE : Fld := ⟨BD_CTL, 1, 1⟩
def BD_CTL_ENABLE : Fld := ⟨BD_CTL, 0, 0⟩
def BD_CFG : Nat := 0xC04004
def BD_CFG_RETRY_MAX : Fld := ⟨BD_CFG, 7, 4⟩
def BD_CFG_RATE : Fld := ⟨BD_CFG, 1, 0⟩
def BD_STATUS : Nat := 0xC04008
def BD_STATUS_FRONTS_USED : Fld := ⟨BD_STATUS, 31, 24⟩
def BD_STATUS_FRONTS_MAX : Fld := ⟨BD_STATUS, 23, 16⟩
def BD_STATUS_LOST : Fld := ⟨BD_STATUS, 7, 7⟩
def BD_STATUS_UNFORMATTED : Fld := ⟨BD_STATUS, 6, 6⟩
def BD_STATUS_SPINE_SINGLE : Fld := ⟨BD_STATUS, 5, 5⟩
def BD_STATUS_REBUILDING : Fld := ⟨BD_STATUS, 4, 4⟩
def BD_STATUS_QUIET : Fld := ⟨BD_STATUS, 3, 3⟩
def BD_STATUS_MEDIA : Fld := ⟨BD_STATUS, 1, 1⟩
def BD_STATUS_MOUNTED : Fld := ⟨BD_STATUS, 0, 0⟩
def BD_LIMITS : Nat := 0xC0400C
def BD_LIMITS_WEAR_SPREAD : Fld := ⟨BD_LIMITS, 31, 16⟩
def BD_LIMITS_GROWN_MAX : Fld := ⟨BD_LIMITS, 15, 8⟩
def BD_LIMITS_WEAR_LIMIT : Fld := ⟨BD_LIMITS, 7, 0⟩
def BD_PATROL : Nat := 0xC04010
def BD_PATROL_RETAIN_BITS : Fld := ⟨BD_PATROL, 31, 16⟩
def BD_PATROL_PATROL_DAYS : Fld := ⟨BD_PATROL, 7, 0⟩
def BD_RETAIN_AGE : Nat := 0xC04014
def BD_FLASH_TEMP : Nat := 0xC04018
def BD_FLASH_TEMP_T : Fld := ⟨BD_FLASH_TEMP, 15, 0⟩
def BD_RATES : Nat := 0xC0401C
def BD_RATES_REBUILD_RATE : Fld := ⟨BD_RATES, 31, 16⟩
def BD_RATES_MOVE_RATE : Fld := ⟨BD_RATES, 15, 0⟩
def BD_BUDGET : Nat := 0xC04020
def BD_BUDGET_DECLARED : Fld := ⟨BD_BUDGET, 31, 16⟩
def BD_BUDGET_BUDGET : Fld := ⟨BD_BUDGET, 15, 0⟩
def BD_LOST : Nat := 0xC04024
def BD_CH_STATUS (i : Nat) : Nat := 0xC04400 + 0x10 * i
def BD_CH_STATUS_EXCLUDED (i : Nat) : Fld := ⟨(BD_CH_STATUS i), 31, 24⟩
def BD_CH_STATUS_TARGETS (i : Nat) : Fld := ⟨(BD_CH_STATUS i), 23, 16⟩
def BD_CH_STATUS_LUNS (i : Nat) : Fld := ⟨(BD_CH_STATUS i), 15, 8⟩
def BD_CH_STATUS_SPINE (i : Nat) : Fld := ⟨(BD_CH_STATUS i), 2, 2⟩
def BD_CH_STATUS_FAILED (i : Nat) : Fld := ⟨(BD_CH_STATUS i), 1, 1⟩
def BD_CH_STATUS_TRAINED (i : Nat) : Fld := ⟨(BD_CH_STATUS i), 0, 0⟩
def BD_CH_FREE (i : Nat) : Nat := 0xC04404 + 0x10 * i
def BD_CH_BAD (i : Nat) : Nat := 0xC04408 + 0x10 * i
def BD_CH_PE (i : Nat) : Nat := 0xC0440C + 0x10 * i
def BD_CH_PE_MAX (i : Nat) : Fld := ⟨(BD_CH_PE i), 31, 16⟩
def BD_CH_PE_MEAN (i : Nat) : Fld := ⟨(BD_CH_PE i), 15, 0⟩
def BD_VS_CTL (i : Nat) : Nat := 0xC05000 + 0x80 * i
def BD_VS_CTL_REASON (i : Nat) : Fld := ⟨(BD_VS_CTL i), 31, 16⟩
def BD_VS_CTL_STATE (i : Nat) : Fld := ⟨(BD_VS_CTL i), 7, 6⟩
def BD_VS_CTL_FULL_MODE (i : Nat) : Fld := ⟨(BD_VS_CTL i), 5, 5⟩
def BD_VS_CTL_CLOSE (i : Nat) : Fld := ⟨(BD_VS_CTL i), 1, 1⟩
def BD_VS_CTL_OPEN (i : Nat) : Fld := ⟨(BD_VS_CTL i), 0, 0⟩
def BD_VS_ID (i : Nat) : Nat := 0xC05004 + 0x80 * i
def BD_VS_CFG (i : Nat) : Nat := 0xC05008 + 0x80 * i
def BD_VS_CFG_MAX_SECTIONS (i : Nat) : Fld := ⟨(BD_VS_CFG i), 31, 8⟩
def BD_VS_CFG_FRONTS (i : Nat) : Fld := ⟨(BD_VS_CFG i), 4, 0⟩
def BD_VS_SECTIONS (i : Nat) : Nat := 0xC0500C + 0x80 * i
def BD_VS_LSEQ_LO (i : Nat) : Nat := 0xC05010 + 0x80 * i
def BD_VS_LSEQ_HI (i : Nat) : Nat := 0xC05014 + 0x80 * i
def BD_VS_DISCARDED (i : Nat) : Nat := 0xC05018 + 0x80 * i
def BD_VS_KEYS (i : Nat) : Nat := 0xC0501C + 0x80 * i
def BD_VS_KEYS_ON (i : Nat) : Fld := ⟨(BD_VS_KEYS i), 15, 0⟩
def BD_VS_KEY (i j : Nat) : Nat := 0xC05040 + 0x80 * i + 0x4 * j
def BD_VS_KEY_SOURCE_HIVE (i j : Nat) : Fld := ⟨(BD_VS_KEY i j), 31, 16⟩
def BD_VS_KEY_STREAM_ID (i j : Nat) : Fld := ⟨(BD_VS_KEY i j), 15, 0⟩
def BD_RS_CTL (i : Nat) : Nat := 0xC06000 + 0x40 * i
def BD_RS_CTL_REASON (i : Nat) : Fld := ⟨(BD_RS_CTL i), 31, 16⟩
def BD_RS_CTL_RUNNING (i : Nat) : Fld := ⟨(BD_RS_CTL i), 4, 4⟩
def BD_RS_CTL_FROM (i : Nat) : Fld := ⟨(BD_RS_CTL i), 3, 2⟩
def BD_RS_CTL_STOP (i : Nat) : Fld := ⟨(BD_RS_CTL i), 1, 1⟩
def BD_RS_CTL_GO (i : Nat) : Fld := ⟨(BD_RS_CTL i), 0, 0⟩
def BD_RS_VOL (i : Nat) : Nat := 0xC06004 + 0x40 * i
def BD_RS_SEC (i : Nat) : Nat := 0xC06008 + 0x40 * i
def BD_RS_FRAC (i : Nat) : Nat := 0xC0600C + 0x40 * i
def BD_RS_SINK (i : Nat) : Nat := 0xC06010 + 0x40 * i
def BD_RS_SINK_INDEX (i : Nat) : Fld := ⟨(BD_RS_SINK i), 14, 8⟩
def BD_RS_SINK_KIND (i : Nat) : Fld := ⟨(BD_RS_SINK i), 2, 0⟩
def BD_RS_RATE (i : Nat) : Nat := 0xC06014 + 0x40 * i
def BD_RS_RATE_RATE (i : Nat) : Fld := ⟨(BD_RS_RATE i), 15, 0⟩
def BD_CAT_IDX : Nat := 0xC06800
def BD_CAT_IDX_I : Fld := ⟨BD_CAT_IDX, 15, 0⟩
def BD_CAT_ID : Nat := 0xC06804
def BD_CAT_INFO : Nat := 0xC06808
def BD_CAT_INFO_STATE : Fld := ⟨BD_CAT_INFO, 31, 30⟩
def BD_CAT_INFO_SECTIONS : Fld := ⟨BD_CAT_INFO, 29, 0⟩
def BD_CAT_DEL : Nat := 0xC0680C
def BD_CAT_COUNT : Nat := 0xC06810
def BD_CAT_COUNT_N : Fld := ⟨BD_CAT_COUNT, 16, 0⟩
def HS_WD_BASE : Nat := 0xF02000
def HS_WD_BASE_BASE_GIB : Fld := ⟨HS_WD_BASE, 6, 0⟩
def HS_PCIE_STATUS : Nat := 0xF02004
def HS_PCIE_STATUS_WIDTH : Fld := ⟨HS_PCIE_STATUS, 7, 4⟩
def HS_PCIE_STATUS_SPEED : Fld := ⟨HS_PCIE_STATUS, 3, 1⟩
def HS_PCIE_STATUS_UP : Fld := ⟨HS_PCIE_STATUS, 0, 0⟩
def HS_WD_POISON : Nat := 0xF02008
def HS_WD_DENIED : Nat := 0xF0200C
def DMA_CTL (i : Nat) : Nat := 0xF10000 + 0x40 * i
def DMA_CTL_VEC (i : Nat) : Fld := ⟨(DMA_CTL i), 31, 24⟩
def DMA_CTL_SHARE_M1 (i : Nat) : Fld := ⟨(DMA_CTL i), 23, 16⟩
def DMA_CTL_CQ (i : Nat) : Fld := ⟨(DMA_CTL i), 12, 8⟩
def DMA_CTL_ABORT (i : Nat) : Fld := ⟨(DMA_CTL i), 4, 4⟩
def DMA_CTL_GO (i : Nat) : Fld := ⟨(DMA_CTL i), 3, 3⟩
def DMA_CTL_MODE (i : Nat) : Fld := ⟨(DMA_CTL i), 1, 1⟩
def DMA_CTL_ENABLE (i : Nat) : Fld := ⟨(DMA_CTL i), 0, 0⟩
def DMA_STATUS (i : Nat) : Nat := 0xF10004 + 0x40 * i
def DMA_STATUS_REASON (i : Nat) : Fld := ⟨(DMA_STATUS i), 31, 16⟩
def DMA_STATUS_DIR (i : Nat) : Fld := ⟨(DMA_STATUS i), 7, 6⟩
def DMA_STATUS_LATE_ERROR (i : Nat) : Fld := ⟨(DMA_STATUS i), 5, 5⟩
def DMA_STATUS_BUS_ERROR (i : Nat) : Fld := ⟨(DMA_STATUS i), 4, 4⟩
def DMA_STATUS_REFUSED (i : Nat) : Fld := ⟨(DMA_STATUS i), 3, 3⟩
def DMA_STATUS_HALTED (i : Nat) : Fld := ⟨(DMA_STATUS i), 1, 1⟩
def DMA_STATUS_RUNNING (i : Nat) : Fld := ⟨(DMA_STATUS i), 0, 0⟩
def DMA_DESC_ADDR_LO (i : Nat) : Nat := 0xF10008 + 0x40 * i
def DMA_DESC_ADDR_HI (i : Nat) : Nat := 0xF1000C + 0x40 * i
def DMA_CUR_LO (i : Nat) : Nat := 0xF10010 + 0x40 * i
def DMA_CUR_HI (i : Nat) : Nat := 0xF10014 + 0x40 * i
def DMA_ERR_ADDR_LO (i : Nat) : Nat := 0xF10018 + 0x40 * i
def DMA_ERR_ADDR_HI (i : Nat) : Nat := 0xF1001C + 0x40 * i
def DMA_DONE (i : Nat) : Nat := 0xF10020 + 0x40 * i
def DMA_FLUSH (i : Nat) : Nat := 0xF10024 + 0x40 * i
def DMA_FLUSH_FLUSH_US (i : Nat) : Fld := ⟨(DMA_FLUSH i), 15, 0⟩
def DMA_DISCARDED (i : Nat) : Nat := 0xF10028 + 0x40 * i
def HQ_CTL (i : Nat) : Nat := 0xF20000 + 0x20 * i
def HQ_CTL_VEC (i : Nat) : Fld := ⟨(HQ_CTL i), 31, 24⟩
def HQ_CTL_WM_M1 (i : Nat) : Fld := ⟨(HQ_CTL i), 23, 10⟩
def HQ_CTL_CQ (i : Nat) : Fld := ⟨(HQ_CTL i), 9, 5⟩
def HQ_CTL_DEPTH_LOG (i : Nat) : Fld := ⟨(HQ_CTL i), 4, 1⟩
def HQ_CTL_ENABLE (i : Nat) : Fld := ⟨(HQ_CTL i), 0, 0⟩
def HQ_STATUS (i : Nat) : Nat := 0xF20004 + 0x20 * i
def HQ_STATUS_KIND (i : Nat) : Fld := ⟨(HQ_STATUS i), 31, 30⟩
def HQ_STATUS_POISON (i : Nat) : Fld := ⟨(HQ_STATUS i), 1, 1⟩
def HQ_STATUS_RUNNING (i : Nat) : Fld := ⟨(HQ_STATUS i), 0, 0⟩
def HQ_CE (i : Nat) : Nat := 0xF20008 + 0x20 * i
def HQ_UE (i : Nat) : Nat := 0xF2000C + 0x20 * i
def HQ_INVALID (i : Nat) : Nat := 0xF20010 + 0x20 * i
def HQ_BADACC (i : Nat) : Nat := 0xF20014 + 0x20 * i
def DS_TOL_NS : Nat := 0xF03000
def DS_CTL (i : Nat) : Nat := 0xF40000 + 0x10000 * i
def DS_CTL_REASON (i : Nat) : Fld := ⟨(DS_CTL i), 31, 16⟩
def DS_CTL_WATCH_LAYERS (i : Nat) : Fld := ⟨(DS_CTL i), 11, 8⟩
def DS_CTL_MODE (i : Nat) : Fld := ⟨(DS_CTL i), 1, 1⟩
def DS_CTL_ENABLE (i : Nat) : Fld := ⟨(DS_CTL i), 0, 0⟩
def DS_LINK (i : Nat) : Nat := 0xF40004 + 0x10000 * i
def DS_LINK_LANES (i : Nat) : Fld := ⟨(DS_LINK i), 3, 2⟩
def DS_LINK_RATE (i : Nat) : Fld := ⟨(DS_LINK i), 1, 0⟩
def DS_STATUS (i : Nat) : Nat := 0xF40008 + 0x10000 * i
def DS_STATUS_FREEZE (i : Nat) : Fld := ⟨(DS_STATUS i), 6, 6⟩
def DS_STATUS_UNDERRUN (i : Nat) : Fld := ⟨(DS_STATUS i), 5, 5⟩
def DS_STATUS_BLANKED (i : Nat) : Fld := ⟨(DS_STATUS i), 4, 4⟩
def DS_STATUS_HPD (i : Nat) : Fld := ⟨(DS_STATUS i), 3, 3⟩
def DS_STATUS_TRAINED (i : Nat) : Fld := ⟨(DS_STATUS i), 2, 2⟩
def DS_STATUS_RUNNING (i : Nat) : Fld := ⟨(DS_STATUS i), 0, 0⟩
def DS_WM (i : Nat) : Nat := 0xF4000C + 0x10000 * i
def DS_WM_HI_WM (i : Nat) : Fld := ⟨(DS_WM i), 19, 16⟩
def DS_WM_LO_WM (i : Nat) : Fld := ⟨(DS_WM i), 3, 0⟩
def DS_HTIM (i : Nat) : Nat := 0xF40010 + 0x10000 * i
def DS_HTIM_TOTAL (i : Nat) : Fld := ⟨(DS_HTIM i), 31, 16⟩
def DS_HTIM_ACTIVE (i : Nat) : Fld := ⟨(DS_HTIM i), 15, 0⟩
def DS_HSYNC (i : Nat) : Nat := 0xF40014 + 0x10000 * i
def DS_HSYNC_NEG (i : Nat) : Fld := ⟨(DS_HSYNC i), 31, 31⟩
def DS_HSYNC_WIDTH (i : Nat) : Fld := ⟨(DS_HSYNC i), 30, 16⟩
def DS_HSYNC_FRONT (i : Nat) : Fld := ⟨(DS_HSYNC i), 15, 0⟩
def DS_VTIM (i : Nat) : Nat := 0xF40018 + 0x10000 * i
def DS_VTIM_TOTAL (i : Nat) : Fld := ⟨(DS_VTIM i), 31, 16⟩
def DS_VTIM_ACTIVE (i : Nat) : Fld := ⟨(DS_VTIM i), 15, 0⟩
def DS_VSYNC (i : Nat) : Nat := 0xF4001C + 0x10000 * i
def DS_VSYNC_NEG (i : Nat) : Fld := ⟨(DS_VSYNC i), 31, 31⟩
def DS_VSYNC_WIDTH (i : Nat) : Fld := ⟨(DS_VSYNC i), 30, 16⟩
def DS_VSYNC_FRONT (i : Nat) : Fld := ⟨(DS_VSYNC i), 15, 0⟩
def DS_PCLK (i : Nat) : Nat := 0xF40020 + 0x10000 * i
def DS_PCLK_KHZ (i : Nat) : Fld := ⟨(DS_PCLK i), 19, 0⟩
def DS_BG (i : Nat) : Nat := 0xF40024 + 0x10000 * i
def DS_BG_RGB (i : Nat) : Fld := ⟨(DS_BG i), 23, 0⟩
def DS_FREEZE (i : Nat) : Nat := 0xF40028 + 0x10000 * i
def DS_FREEZE_K (i : Nat) : Fld := ⟨(DS_FREEZE i), 7, 0⟩
def DS_OUT_SIG (i : Nat) : Nat := 0xF4002C + 0x10000 * i
def DS_FRAMES (i : Nat) : Nat := 0xF40030 + 0x10000 * i
def DS_AUX_CMD (i : Nat) : Nat := 0xF40040 + 0x10000 * i
def DS_AUX_CMD_GO (i : Nat) : Fld := ⟨(DS_AUX_CMD i), 31, 31⟩
def DS_AUX_CMD_REQ (i : Nat) : Fld := ⟨(DS_AUX_CMD i), 27, 24⟩
def DS_AUX_CMD_LEN_M1 (i : Nat) : Fld := ⟨(DS_AUX_CMD i), 23, 20⟩
def DS_AUX_CMD_ADDR (i : Nat) : Fld := ⟨(DS_AUX_CMD i), 19, 0⟩
def DS_AUX_STAT (i : Nat) : Nat := 0xF40044 + 0x10000 * i
def DS_AUX_STAT_REPLY (i : Nat) : Fld := ⟨(DS_AUX_STAT i), 7, 4⟩
def DS_AUX_STAT_TIMEOUT (i : Nat) : Fld := ⟨(DS_AUX_STAT i), 1, 1⟩
def DS_AUX_STAT_BUSY (i : Nat) : Fld := ⟨(DS_AUX_STAT i), 0, 0⟩
def DS_AUX_DATA (i j : Nat) : Nat := 0xF40050 + 0x10000 * i + 0x4 * j
def DS_L_CTL (i j : Nat) : Nat := 0xF40100 + 0x10000 * i + 0x40 * j
def DS_L_CTL_REASON (i j : Nat) : Fld := ⟨(DS_L_CTL i j), 31, 16⟩
def DS_L_CTL_LIVE (i j : Nat) : Fld := ⟨(DS_L_CTL i j), 4, 4⟩
def DS_L_CTL_MAP (i j : Nat) : Fld := ⟨(DS_L_CTL i j), 3, 2⟩
def DS_L_CTL_ON (i j : Nat) : Fld := ⟨(DS_L_CTL i j), 0, 0⟩
def DS_L_POS (i j : Nat) : Nat := 0xF40104 + 0x10000 * i + 0x40 * j
def DS_L_POS_Y (i j : Nat) : Fld := ⟨(DS_L_POS i j), 31, 16⟩
def DS_L_POS_X (i j : Nat) : Fld := ⟨(DS_L_POS i j), 15, 0⟩
def DS_L_SIZE (i j : Nat) : Nat := 0xF40108 + 0x10000 * i + 0x40 * j
def DS_L_SIZE_H (i j : Nat) : Fld := ⟨(DS_L_SIZE i j), 31, 16⟩
def DS_L_SIZE_W (i j : Nat) : Fld := ⟨(DS_L_SIZE i j), 15, 0⟩
def DS_L_SRC (i j : Nat) : Nat := 0xF4010C + 0x10000 * i + 0x40 * j
def DS_L_SRC_STREAM (i j : Nat) : Fld := ⟨(DS_L_SRC i j), 15, 0⟩
def DS_L_SCALE (i j : Nat) : Nat := 0xF40110 + 0x10000 * i + 0x40 * j
def DS_L_SCALE_FLOOR (i j : Nat) : Fld := ⟨(DS_L_SCALE i j), 31, 16⟩
def DS_L_SCALE_STEP (i j : Nat) : Fld := ⟨(DS_L_SCALE i j), 15, 4⟩
def DS_L_SCALE_SHIFT (i j : Nat) : Fld := ⟨(DS_L_SCALE i j), 3, 0⟩
def DS_L_SURF_LO (i j : Nat) : Nat := 0xF40114 + 0x10000 * i + 0x40 * j
def DS_L_SURF_HI (i j : Nat) : Nat := 0xF40118 + 0x10000 * i + 0x40 * j
def DS_L_SIG (i j : Nat) : Nat := 0xF4011C + 0x10000 * i + 0x40 * j
def DS_L_UNDERRUN (i j : Nat) : Nat := 0xF40120 + 0x10000 * i + 0x40 * j
def DS_L_FREEZES (i j : Nat) : Nat := 0xF40124 + 0x10000 * i + 0x40 * j
def DS_TR (i j : Nat) : Nat := 0xF40200 + 0x10000 * i + 0x4 * j
def DS_TR_ON (i j : Nat) : Fld := ⟨(DS_TR i j), 31, 31⟩
def DS_TR_INDEX (i j : Nat) : Fld := ⟨(DS_TR i j), 23, 16⟩
def DS_TR_STREAM (i j : Nat) : Fld := ⟨(DS_TR i j), 15, 0⟩
def DS_PAL_ADDR (i : Nat) : Nat := 0xF40300 + 0x10000 * i
def DS_PAL_ADDR_LAYER (i : Nat) : Fld := ⟨(DS_PAL_ADDR i), 9, 8⟩
def DS_PAL_ADDR_I (i : Nat) : Fld := ⟨(DS_PAL_ADDR i), 7, 0⟩
def DS_PAL_DATA (i : Nat) : Nat := 0xF40304 + 0x10000 * i
def DS_PAL_DATA_TRANSPARENT (i : Nat) : Fld := ⟨(DS_PAL_DATA i), 24, 24⟩
def DS_PAL_DATA_RGB (i : Nat) : Fld := ⟨(DS_PAL_DATA i), 23, 0⟩
def BI_STATUS : Nat := 0x106000
def BI_STATUS_BOOT_REASON : Fld := ⟨BI_STATUS, 31, 16⟩
def BI_STATUS_FLOOR_PENDING : Fld := ⟨BI_STATUS, 15, 15⟩
def BI_STATUS_FLOOR_FULL : Fld := ⟨BI_STATUS, 14, 14⟩
def BI_STATUS_FELL_BACK : Fld := ⟨BI_STATUS, 13, 13⟩
def BI_STATUS_ROLLBACK : Fld := ⟨BI_STATUS, 12, 12⟩
def BI_STATUS_SLOT : Fld := ⟨BI_STATUS, 8, 8⟩
def BI_STATUS_FLOOR_USED : Fld := ⟨BI_STATUS, 6, 0⟩
def BI_VERSION : Nat := 0x106004
def BI_FLOOR : Nat := 0x106008
def BI_LAST : Nat := 0x10600C
def BI_CTL : Nat := 0x106010
def BI_CTL_REASON : Fld := ⟨BI_CTL, 31, 16⟩
def BI_CTL_CLOSE : Fld := ⟨BI_CTL, 5, 5⟩
def BI_CTL_ROLLBACK : Fld := ⟨BI_CTL, 4, 4⟩
def BI_CTL_BOOT : Fld := ⟨BI_CTL, 3, 3⟩
def BI_CTL_HOLD_NEXT : Fld := ⟨BI_CTL, 2, 2⟩
def BI_CTL_COMMIT : Fld := ⟨BI_CTL, 1, 1⟩
def BI_CTL_OPEN : Fld := ⟨BI_CTL, 0, 0⟩
def BI_SESSION : Nat := 0x106014
def BI_SESSION_HOLDER : Fld := ⟨BI_SESSION, 10, 8⟩
def BI_SESSION_STATE : Fld := ⟨BI_SESSION, 2, 0⟩
def BI_SIZE : Nat := 0x106018
def BI_CRC : Nat := 0x10601C
def BI_WRITTEN : Nat := 0x106020
def BI_DATA : Nat := 0x106024
def BI_FUSE : Nat := 0x106028
def BI_FUSE_STATE : Fld := ⟨BI_FUSE, 7, 4⟩
def BI_FUSE_KEY : Fld := ⟨BI_FUSE, 3, 2⟩
def BI_FUSE_REVOKE : Fld := ⟨BI_FUSE, 1, 1⟩
def BI_FUSE_BLOW : Fld := ⟨BI_FUSE, 0, 0⟩
def BI_KEYHASH (i : Nat) : Nat := 0x106030 + 0x4 * i
def REGION_ID (r : Nat) : Nat := winBase r + 0x0
def REGION_ID_STEPPING (r : Nat) : Fld := ⟨(REGION_ID r), 31, 24⟩
def REGION_ID_DIE (r : Nat) : Fld := ⟨(REGION_ID r), 9, 8⟩
def REGION_ID_ID (r : Nat) : Fld := ⟨(REGION_ID r), 7, 0⟩
def REGION_STATE (r : Nat) : Nat := winBase r + 0x4
def REGION_STATE_CAUSE (r : Nat) : Fld := ⟨(REGION_STATE r), 31, 16⟩
def REGION_STATE_STATE (r : Nat) : Fld := ⟨(REGION_STATE r), 3, 0⟩
def REGION_EPOCH (r : Nat) : Nat := winBase r + 0x8
def REGION_EPOCH_EPOCH (r : Nat) : Fld := ⟨(REGION_EPOCH r), 7, 0⟩
def REGION_ALARM_STATUS (r : Nat) : Nat := winBase r + 0xC
def REGION_ALARM_STATUS_ALARMS (r : Nat) : Fld := ⟨(REGION_ALARM_STATUS r), 15, 0⟩
def REGION_ALARM_MASK (r : Nat) : Nat := winBase r + 0x10
def REGION_ALARM_MASK_MASK (r : Nat) : Fld := ⟨(REGION_ALARM_MASK r), 15, 0⟩
def REGION_SPARES (r : Nat) : Nat := winBase r + 0x14
def REGION_SPARES_THRESHOLD (r : Nat) : Fld := ⟨(REGION_SPARES r), 23, 16⟩
def REGION_SPARES_TOTAL (r : Nat) : Fld := ⟨(REGION_SPARES r), 15, 8⟩
def REGION_SPARES_FREE (r : Nat) : Fld := ⟨(REGION_SPARES r), 7, 0⟩
def REGION_BIST_CTL (r : Nat) : Nat := winBase r + 0x18
def REGION_BIST_CTL_REASON (r : Nat) : Fld := ⟨(REGION_BIST_CTL r), 31, 16⟩
def REGION_BIST_CTL_BLOCK (r : Nat) : Fld := ⟨(REGION_BIST_CTL r), 15, 8⟩
def REGION_BIST_CTL_PATROL_EN (r : Nat) : Fld := ⟨(REGION_BIST_CTL r), 2, 2⟩
def REGION_BIST_CTL_READMIT (r : Nat) : Fld := ⟨(REGION_BIST_CTL r), 0, 0⟩
def REGION_BIST_RESULT (r : Nat) : Nat := winBase r + 0x1C
def REGION_BIST_RESULT_BLOCK (r : Nat) : Fld := ⟨(REGION_BIST_RESULT r), 31, 24⟩
def REGION_BIST_RESULT_VERDICT (r : Nat) : Fld := ⟨(REGION_BIST_RESULT r), 19, 16⟩
def REGION_BIST_RESULT_LOGGED (r : Nat) : Fld := ⟨(REGION_BIST_RESULT r), 6, 0⟩
def REGION_BIST_COUNT (r : Nat) : Nat := winBase r + 0x20
def REGION_REFUSAL (r i : Nat) : Nat := winBase r + 0x80 + 0x8 * i
def REGION_REFUSAL_REASON (r i : Nat) : Fld := ⟨(REGION_REFUSAL r i), 31, 16⟩
def REGION_REFUSAL_COUNT (r i : Nat) : Fld := ⟨(REGION_REFUSAL r i), 15, 0⟩
def REGION_REFUSAL_OFFS (r i : Nat) : Nat := winBase r + 0x84 + 0x8 * i
def REGION_REFUSAL_OFFS_WRITE (r i : Nat) : Fld := ⟨(REGION_REFUSAL_OFFS r i), 31, 31⟩
def REGION_REFUSAL_OFFS_OFFSET (r i : Nat) : Fld := ⟨(REGION_REFUSAL_OFFS r i), 19, 0⟩
def GLOBAL_IDENT : Nat := 0x0
def GLOBAL_IDENT_PART : Fld := ⟨GLOBAL_IDENT, 31, 16⟩
def GLOBAL_IDENT_STEPPING : Fld := ⟨GLOBAL_IDENT, 15, 8⟩
def GLOBAL_HEALTH : Nat := 0x4
def GLOBAL_HEALTH_LOST : Fld := ⟨GLOBAL_HEALTH, 31, 16⟩
def GLOBAL_HEALTH_HEALTH : Fld := ⟨GLOBAL_HEALTH, 7, 0⟩
def GLOBAL_ALARM_STATUS : Nat := 0x8
def GLOBAL_ALARM_STATUS_ALARMS : Fld := ⟨GLOBAL_ALARM_STATUS, 15, 0⟩
def GLOBAL_ALARM_REGIONS : Nat := 0xC
def GLOBAL_ALARM_REGIONS_REGIONS : Fld := ⟨GLOBAL_ALARM_REGIONS, 31, 16⟩
def GLOBAL_ALARM_VEC (i : Nat) : Nat := 0x10 + 0x4 * i
def GLOBAL_WHOAMI : Nat := 0x20
def GLOBAL_WHOAMI_DOMAIN : Fld := ⟨GLOBAL_WHOAMI, 5, 4⟩
def GLOBAL_WHOAMI_PATH : Fld := ⟨GLOBAL_WHOAMI, 2, 0⟩
def GLOBAL_SETUP_STATUS : Nat := 0x24
def GLOBAL_SETUP_STATUS_FIRST_REASON : Fld := ⟨GLOBAL_SETUP_STATUS, 31, 16⟩
def GLOBAL_SETUP_STATUS_REFUSALS : Fld := ⟨GLOBAL_SETUP_STATUS, 15, 1⟩
def GLOBAL_SETUP_STATUS_MODE : Fld := ⟨GLOBAL_SETUP_STATUS, 0, 0⟩
def GLOBAL_SETUP_FIRST : Nat := 0x28
def GLOBAL_REFUSAL (i : Nat) : Nat := 0x80 + 0x8 * i
def GLOBAL_REFUSAL_REASON (i : Nat) : Fld := ⟨(GLOBAL_REFUSAL i), 31, 16⟩
def GLOBAL_REFUSAL_COUNT (i : Nat) : Fld := ⟨(GLOBAL_REFUSAL i), 15, 0⟩
def GLOBAL_REFUSAL_OFFS (i : Nat) : Nat := 0x84 + 0x8 * i
def GLOBAL_REFUSAL_OFFS_WRITE (i : Nat) : Fld := ⟨(GLOBAL_REFUSAL_OFFS i), 31, 31⟩
def GLOBAL_REFUSAL_OFFS_OFFSET (i : Nat) : Fld := ⟨(GLOBAL_REFUSAL_OFFS i), 19, 0⟩
def PROT_PATH_DOMAIN : Nat := 0x400
def PROT_PATH_DOMAIN_P4 : Fld := ⟨PROT_PATH_DOMAIN, 9, 8⟩
def PROT_PATH_DOMAIN_P3_P0 : Fld := ⟨PROT_PATH_DOMAIN, 7, 0⟩
def PROT_COMMIT : Nat := 0x404
def PROT_COMMIT_REASON : Fld := ⟨PROT_COMMIT, 31, 16⟩
def PROT_COMMIT_OWNER : Fld := ⟨PROT_COMMIT, 11, 8⟩
def PROT_COMMIT_VIEW : Fld := ⟨PROT_COMMIT, 3, 3⟩
def PROT_COMMIT_STAGED : Fld := ⟨PROT_COMMIT, 2, 2⟩
def PROT_COMMIT_DISCARD : Fld := ⟨PROT_COMMIT, 1, 1⟩
def PROT_COMMIT_COMMIT : Fld := ⟨PROT_COMMIT, 0, 0⟩
def PROT_GEN : Nat := 0x408
def PROT_CM_DEFAULT : Nat := 0x40C
def PROT_VOL_DEFAULT : Nat := 0x410
def PROT_PG_ADDR : Nat := 0x420
def PROT_PG_ADDR_PAGE : Fld := ⟨PROT_PG_ADDR, 11, 0⟩
def PROT_PG_DATA : Nat := 0x424
def PROT_CW_BASE (i : Nat) : Nat := 0x800 + 0x10 * i
def PROT_CW_SIZE (i : Nat) : Nat := 0x804 + 0x10 * i
def PROT_CW_ACC (i : Nat) : Nat := 0x808 + 0x10 * i
def PROT_VOL_ID (i : Nat) : Nat := 0xC00 + 0x8 * i
def PROT_VOL_ACC (i : Nat) : Nat := 0xC04 + 0x8 * i
def CA_CTL : Nat := 0x107000
def CA_CTL_REASON : Fld := ⟨CA_CTL, 31, 16⟩
def CA_CTL_GO : Fld := ⟨CA_CTL, 0, 0⟩
def CA_SCOPE : Nat := 0x107004
def CA_SCOPE_TIMERS : Fld := ⟨CA_SCOPE, 17, 17⟩
def CA_SCOPE_SYNTH : Fld := ⟨CA_SCOPE, 16, 16⟩
def CA_SCOPE_INPUTS : Fld := ⟨CA_SCOPE, 15, 0⟩
def CA_RAMP_NS : Nat := 0x107008
def CA_RAMP_STEPS : Nat := 0x10700C
def CA_RAMP_STEPS_STEPS : Fld := ⟨CA_RAMP_STEPS, 15, 0⟩
def CA_STATUS : Nat := 0x107010
def CA_STATUS_DONE : Fld := ⟨CA_STATUS, 31, 16⟩
def CA_STATUS_RAMPING : Fld := ⟨CA_STATUS, 3, 3⟩
def CA_STATUS_MEASURING : Fld := ⟨CA_STATUS, 2, 2⟩
def CA_STATUS_SLOT_VALID : Fld := ⟨CA_STATUS, 1, 1⟩
def CA_STATUS_BUSY : Fld := ⟨CA_STATUS, 0, 0⟩
def CA_COUNT : Nat := 0x107014
def CA_LAST_SEC : Nat := 0x107018
def CA_LAST_FRAC : Nat := 0x10701C
def CA_LAST_TEMP : Nat := 0x107020
def CA_LAST_TEMP_T : Fld := ⟨CA_LAST_TEMP, 15, 0⟩
def CA_TOL : Nat := 0x107024
def CA_TOL_ITEMS : Fld := ⟨CA_TOL, 17, 0⟩
def CA_SLOT_TAG (i j : Nat) : Nat := 0x107040 + 0x10 * i + 0x4 * j
def CA_SLOT_TAG_VALID (i j : Nat) : Fld := ⟨(CA_SLOT_TAG i j), 31, 31⟩
def CA_SLOT_TAG_T (i j : Nat) : Fld := ⟨(CA_SLOT_TAG i j), 15, 0⟩
def CA_IN_OFF (n : Nat) : Nat := inBase n + 0x3000
def CA_IN_OFF_A (n : Nat) : Fld := ⟨(CA_IN_OFF n), 31, 16⟩
def CA_IN_OFF_B (n : Nat) : Fld := ⟨(CA_IN_OFF n), 15, 0⟩
def CA_IN_GAIN_A (n : Nat) : Nat := inBase n + 0x3004
def CA_IN_GAIN_B (n : Nat) : Nat := inBase n + 0x3008
def CA_IN_SKEW (n : Nat) : Nat := inBase n + 0x300C
def CA_IN_SKEW_SKEW (n : Nat) : Fld := ⟨(CA_IN_SKEW n), 15, 0⟩
def FT_BLK_IDX (r : Nat) : Nat := winBase r + 0xE00
def FT_BLK_IDX_I (r : Nat) : Fld := ⟨(FT_BLK_IDX r), 7, 0⟩
def FT_BLK_STATE (r : Nat) : Nat := winBase r + 0xE04
def FT_BLK_STATE_DUTY (r : Nat) : Fld := ⟨(FT_BLK_STATE r), 15, 8⟩
def FT_BLK_STATE_STATE (r : Nat) : Fld := ⟨(FT_BLK_STATE r), 3, 0⟩
def FT_LOG_IDX (r : Nat) : Nat := winBase r + 0xE08
def FT_LOG_IDX_I (r : Nat) : Fld := ⟨(FT_LOG_IDX r), 5, 0⟩
def FT_LOG_W0 (r : Nat) : Nat := winBase r + 0xE0C
def FT_LOG_W0_BLOCK (r : Nat) : Fld := ⟨(FT_LOG_W0 r), 31, 24⟩
def FT_LOG_W0_ARRAY (r : Nat) : Fld := ⟨(FT_LOG_W0 r), 23, 16⟩
def FT_LOG_W0_VERDICT (r : Nat) : Fld := ⟨(FT_LOG_W0 r), 15, 12⟩
def FT_LOG_W0_KIND (r : Nat) : Fld := ⟨(FT_LOG_W0 r), 11, 8⟩
def FT_LOG_W0_BIT (r : Nat) : Fld := ⟨(FT_LOG_W0 r), 7, 0⟩
def FT_LOG_W1 (r : Nat) : Nat := winBase r + 0xE10
def FT_LOG_W2 (r : Nat) : Nat := winBase r + 0xE14
def FT_LOG_W3 (r : Nat) : Nat := winBase r + 0xE18
def FT_PATROL (r : Nat) : Nat := winBase r + 0xE1C
def FT_PATROL_PERIOD_S (r : Nat) : Fld := ⟨(FT_PATROL r), 31, 16⟩
def FT_MASKED (r : Nat) : Nat := winBase r + 0xE20
def FT_CORR (r : Nat) : Nat := winBase r + 0xE24
def FT_FENCED (r : Nat) : Nat := winBase r + 0xE28
def ST_FT_REPLACE : Nat := 0x100F00
def ST_FT_REPLACE_CAUSES : Fld := ⟨ST_FT_REPLACE, 4, 0⟩
def ST_FT_CHIP : Nat := 0x100F04
def ST_FT_CHIP_KIND : Fld := ⟨ST_FT_CHIP, 3, 0⟩
def ST_FT_FUSE : Nat := 0x100F08
def ST_FT_FUSE_REASON : Fld := ⟨ST_FT_FUSE, 31, 16⟩
def ST_FT_FUSE_BLOW : Fld := ⟨ST_FT_FUSE, 0, 0⟩
def ST_FT_FUSE_USE : Nat := 0x100F0C
def ST_FT_FUSE_USE_FREE : Fld := ⟨ST_FT_FUSE_USE, 26, 16⟩
def ST_FT_FUSE_USE_USED : Fld := ⟨ST_FT_FUSE_USE, 10, 0⟩
def ST_FT_THERM : Nat := 0x100F10
def ST_FT_THERM_BUDGET : Nat := 0x100F14
def ST_FT_TEMP : Nat := 0x100F18
def ST_FT_TEMP_T : Fld := ⟨ST_FT_TEMP, 15, 0⟩

end Sys2Proof.Machine
end

