-- ==== Sys2Proof/Machine/Store.lean ====
section
/-! DEFINITION. Machine/Store.lean: sparse data kept as sorted lists of (key, value) pairs, and the bit-field,
sign and byte-order helpers (R6) that every chapter uses. -/

namespace Sys2Proof.Machine

/-- Sparse data by key: a list of pairs whose keys rise strictly. -/
abbrev KV (α : Type) := List (Nat × α)

/-- The value listed at key `k`. -/
def kvGet {α : Type} : KV α → Nat → Option α
  | [], _ => none
  | (a, v) :: t, k => if a = k then some v else kvGet t k

/-- The list with key `k` holding `v`, in key order. -/
def kvPut {α : Type} : KV α → Nat → α → KV α
  | [], k, v => [(k, v)]
  | (a, w) :: t, k, v =>
    if k < a then (k, v) :: (a, w) :: t
    else if k = a then (k, v) :: t
    else (a, w) :: kvPut t k v

/-- The list without key `k`. -/
def kvDel {α : Type} : KV α → Nat → KV α
  | [], _ => []
  | (a, w) :: t, k => if a = k then kvDel t k else (a, w) :: kvDel t k

/-- The value at key `k`, or `d` where none is listed. -/
def kvGetD {α : Type} (m : KV α) (k : Nat) (d : α) : α := (kvGet m k).getD d

/-- Write `v` at key `k` of data that reads as `d` where unlisted: writing `d` removes the entry. -/
def kvSetD {α : Type} [DecidableEq α] (d : α) (m : KV α) (k : Nat) (v : α) : KV α :=
  if v = d then kvDel m k else kvPut m k v

/-- Apply `f` to the value at key `k` of data that reads as `d` where unlisted. -/
def kvMod {α : Type} (d : α) (m : KV α) (k : Nat) (f : α → α) : KV α :=
  kvPut m k (f (kvGetD m k d))

/-- Keys rise strictly. -/
def kvSorted {α : Type} : KV α → Bool
  | [] => true
  | [_] => true
  | (a, _) :: (b, w) :: t => decide (a < b) && kvSorted ((b, w) :: t)

/-- Bits hi:lo of a number. -/
def bits (v hi lo : Nat) : Nat := (v >>> lo) % 2 ^ (hi + 1 - lo)

/-- `v` with bits hi:lo replaced by the low bits of `x`. -/
def setBits (v hi lo x : Nat) : Nat :=
  v - (bits v hi lo <<< lo) + ((x % 2 ^ (hi + 1 - lo)) <<< lo)

/-- Two's complement reading of the low `w` bits of `v`. -/
def signed (w v : Nat) : Int :=
  let u := v % 2 ^ w
  if 2 * u < 2 ^ w then (u : Int) else (u : Int) - (2 ^ w : Nat)

/-- Two's complement writing of `x` in `w` bits. -/
def unsign (w : Nat) (x : Int) : Nat := (x % ((2 ^ w : Nat) : Int)).toNat

/-- `x` limited to the range of a `w`-bit two's complement number. -/
def clampS (w : Nat) (x : Int) : Int :=
  let m : Int := ((2 ^ (w - 1) : Nat) : Int)
  if x < -m then -m else if x > m - 1 then m - 1 else x

/-- The low `n` bytes of `v`, least significant first (R6). -/
def leBytes : Nat → Nat → List Byte
  | 0, _ => []
  | n + 1, v => BitVec.ofNat 8 v :: leBytes n (v / 256)

/-- The number whose bytes, least significant first, are `bs` (R6). -/
def fromLe : List Byte → Nat
  | [] => 0
  | b :: t => b.toNat + 256 * fromLe t

/-- Pack values of `w` bits each, the first in the lowest bits, into `n` bytes (R21). -/
def packNat (w : Nat) : List Nat → Nat
  | [] => 0
  | v :: t => v % 2 ^ w + 2 ^ w * packNat w t

/-- Elements of `w` bits packed without padding, little-endian (R21). -/
def packElems (w : Nat) (vs : List Int) : List Byte :=
  leBytes ((vs.length * w + 7) / 8) (packNat w (vs.map (unsign w)))

/-- Quotient rounded up. -/
def ceilDiv (a b : Nat) : Nat := (a + b - 1) / b

/-- An exact ratio. -/
structure Ratio where
  num : Int
  den : Nat
  deriving DecidableEq, Repr

/-- A ratio in lowest terms. -/
def ratio (n : Int) (d : Nat) : Ratio :=
  let g := Nat.gcd n.natAbs d
  if g = 0 then ⟨0, 1⟩ else ⟨n / (g : Int), d / g⟩

/-- A whole number as a ratio. -/
def ratioOf (n : Int) : Ratio := ⟨n, 1⟩

def ratioAdd (a b : Ratio) : Ratio := ratio (a.num * b.den + b.num * a.den) (a.den * b.den)
def ratioSub (a b : Ratio) : Ratio := ratio (a.num * b.den - b.num * a.den) (a.den * b.den)
def ratioMul (a b : Ratio) : Ratio := ratio (a.num * b.num) (a.den * b.den)
/-- The largest whole number not above. -/
def ratioFloor (a : Ratio) : Int := a.num / (a.den : Int)
/-- a is below b. -/
def ratioLt (a b : Ratio) : Bool := decide (a.num * b.den < b.num * a.den)
/-- The ratio is a whole number. -/
def ratioWhole (a : Ratio) : Bool := a.num % (a.den : Int) = 0
/-- Nearest whole number, ties away from zero. -/
def ratioRound (a : Ratio) : Int :=
  if a.num < 0 then -((2 * (-a.num) + a.den) / (2 * (a.den : Int))) else (2 * a.num + a.den) / (2 * (a.den : Int))
/-- Linear mix a + (n / d) (b - a). -/
def ratioMix (a b : Ratio) (n d : Nat) : Ratio := ratioAdd a (ratioMul (ratio n d) (ratioSub b a))

/-- Numbers 0 to n - 1. -/
def upto (n : Nat) : List Nat := List.range n

end Sys2Proof.Machine
end

