-- ==== Sys2Proof/Machine/State.lean ====
section
/-! DEFINITION. Machine/State.lean: the state of the device as plain data. Registers live in one sparse map
(Machine/RegMap.lean gives their places and reset values); every other piece of state the spec names has a field here. -/

namespace Sys2Proof.Machine

/-! ### Frames, markers and exits (chapter 01) -/

/-- One stream (R19, R20, R22, R30): whether it is open, the SEQUENCE of its next frame, whether the producer's output
buffer is full, and the loss not yet reported (length in the stream's own samples, cause, device time of its start). -/
structure StreamSt where
  opened : Bool := false
  seq : Word := 0
  full : Bool := false
  lost : Nat := 0
  lostCause : Nat := 0
  lostTime : DevTime := 0
  /-- Markers of discarded frames, which the next frame carries (R25, R29). -/
  markers : List Marker := []
  deriving DecidableEq, Repr

/-- A marker request held by a first stage until its sample arrives (R24, R26). -/
structure MarkerReq where
  stage : FirstStage
  type : MarkerType
  target : BitVec 16
  time : DevTime
  arg : BitVec 64
  /-- It goes before the next sample whatever its time: the stage's own markers, and a TIME_STEP marker whose step or load has
  come (R54, R63, R69). -/
  now : Bool := false
  deriving DecidableEq, Repr

/-- A frame or gap record that waits at a chip-switch output port for its exit (R17): the exit, its instance, the item. -/
structure SwItem where
  exit : Exit
  inst : Nat
  item : Sum Frame GapRec
  deriving DecidableEq, Repr

/-- An output port of the chip switch (R11, R17): what waits, oldest first; the input ports, least recently granted first. -/
structure SwPort where
  held : List SwItem := []
  order : List Nat := []
  deriving DecidableEq, Repr

/-- Streams, markers and exits. -/
structure FlowSt where
  /-- R19, R20, R30: by stream ID. -/
  streams : KV StreamSt := []
  /-- R35: next record sequence by exit and stream (exit instance * 65,536 + stream ID). -/
  exitSeq : KV (BitVec 64) := []
  /-- R24, R26: requests accepted and not yet inserted, oldest first. -/
  requests : List MarkerReq := []
  /-- MARKER_SEQ of Table AC-7, by first stage (0 to 15 inputs, 16 CB, 17 event timers). -/
  markerSeq : KV Word := []
  /-- Markers placed in the frame a first stage is filling (R19, R24). -/
  frameMarkers : KV (List Marker) := []
  /-- R32, R582: the epoch a consuming region holds of a stream (region * 65,536 + stream ID). -/
  held : KV Byte := []
  /-- R642: the switch port a stream is tied to, by region * 65,536 + stream ID, with its demand in bytes per second. -/
  ports : KV (Nat × Ratio) := []
  /-- Streams that ended until the device resumes them (R41, R60). -/
  stopped : List Nat := []
  /-- R17: output ports of the chip switch, by 4 * region + port. -/
  switch : KV SwPort := []
  /-- R11: the streams of a region's blocks, least recently granted the region's switch port first. -/
  blocks : KV (List Nat) := []
  /-- Records handed to the hive and not yet taken up by their context (R255, R313, R376). -/
  hiveOut : List YRec := []
  deriving DecidableEq, Repr

/-- Supplies, start-up and chip state (R38, R611, R612). -/
structure PowerSt where
  /-- Every rail in its range (R611). -/
  rails : Bool := true
  /-- Level of POWER_FAIL_N (R613). -/
  powerFailN : Bool := true
  /-- PCI Express link up in CONFIGURE (R644) is HS_PCIE_STATUS.UP; this is the debug fuse (R526). -/
  debugFuse : Bool := false
  /-- The device is held by the ST fallback controller after a chip-level fault in LOADER or BIST (R591). -/
  chipHeld : Bool := false
  /-- A chip-level fault in RESET holds RESET until the supplies are removed (R591). -/
  resetHeld : Bool := false
  /-- Fabric training in CONFIGURE done (R39 step 5). -/
  fabricTrained : Bool := false
  /-- First pass of the setup record done; second pass done, or application stopped (R541, R542). -/
  setupFirst : Bool := false
  setupSecond : Bool := false
  setupStopped : Bool := false
  /-- Level driven on ALARM_N, REPLACE_N (R550, R604); true is high or not driven. -/
  alarmN : Bool := true
  replaceN : Bool := true
  /-- MEDIA_N (R449). -/
  mediaN : Bool := true
  deriving DecidableEq, Repr

/-! ### Time, references and synthesisers (chapter 02) -/

/-- A path's device-time snapshot slot (R68). -/
structure DevSnap where
  time : DevTime := 0
  coasting : Bool := false
  slewing : Bool := false
  seq : Byte := 0
  deriving DecidableEq, Repr

/-- One SYNC_OUT output (R73): width and period in force, the level, and while it runs the whole second it counts from and
the timebase cycle, from there, of its present or next rise. -/
structure SyncOut where
  width : Nat := 0
  period : Nat := 0
  high : Bool := false
  base : Option DevTime := none
  riseCyc : Nat := 0
  deriving DecidableEq, Repr

/-- One synthesiser beyond its registers (R46 to R54): the frequency it produces in kHz, whether it has been started, and
for an AF region since when its output stages discard samples, with the gap cause to report. -/
structure SynSt where
  /-- Frequency reached by a ramp; none: the nominal one. -/
  khz : Option Nat := none
  /-- End of the ramp segment that runs (R51). -/
  segEnd : DevTime := 0
  discardFrom : Option DevTime := none
  cause : Nat := 4
  /-- Locks lost by both DCOs are a region fault (R590): the spare DCO already serves. -/
  onSpare : Bool := false
  /-- The loop was in lock when its DCO failed: the spare DCO, at the same code, needs no new lock (R577). -/
  spareWait : Bool := false
  deriving DecidableEq, Repr

/-- An armed time load (R69): the latched seconds and AT_PPS, and the load edge once it is known. -/
structure TimeSet where
  sec : Word
  atPps : Bool
  edge : Option DevTime
  deriving DecidableEq, Repr

/-- A STEP chosen and not yet executed (R63): its time and its argument in 2^-48 s. -/
structure StepReq where
  time : DevTime
  arg : Int
  deriving DecidableEq, Repr

/-- The timebase, the references, PPS and device time. -/
structure TimeSt where
  /-- Device time (R7, R67). -/
  now : DevTime := 0
  /-- The 32 fraction bits the adder carries below the LSB (R67). -/
  sub : Word := 0
  /-- Timebase cycles counted in the present second, 0 to 3.2 * 10^9 - 1 (R67). -/
  cyc : Nat := 0
  /-- The timebase has declared lock since start, so device time counts (R641). -/
  started : Bool := false
  /-- Snapshot slots by path (R68). -/
  snaps : KV DevSnap := []
  /-- Changes of "COASTING or SLEWING", newest first. -/
  coastLog : List (DevTime × Bool) := []
  timeSet : Option TimeSet := none
  step : Option StepReq := none
  /-- A reference has been followed since start (R56). -/
  followed : Bool := false
  /-- Remaining jump while slewing, ps (R62). -/
  jumpLeft : Int := 0
  /-- A slew that starts at the next whole second (R71). -/
  slewAt : Option DevTime := none
  /-- Streams stopped by EXHAUST = STOP (R60), and whether the clear of EXHAUSTED has chosen the STEP that resumes them. -/
  stopped : Bool := false
  align : Bool := false
  /-- Since when a reference is followed, or the last ageing update (R66), and the reference followed last (R56). -/
  followFrom : Option DevTime := none
  lastRef : Nat := 4
  /-- Correction of the crystal in force, 0.01 ppb (R65). -/
  xoCorr : Int := 0
  /-- The loop-filter integrator is frozen at its mean (R58). -/
  frozen : Bool := false
  /-- Consecutive PPS edges at 1 s +- 1 us (R70). -/
  ppsGood : Nat := 0
  ppsLast : Option DevTime := none
  /-- Offsets (ps) of the consecutive edges away from whole seconds (R71), newest first. -/
  ppsOff : List Int := []
  /-- Single edges ignored (R71). -/
  ppsIgnored : Nat := 0
  ppsOutHigh : Bool := false
  ppsOutRise : DevTime := 0
  sync : KV SyncOut := []
  /-- Time of the last step or load (R379). -/
  stepped : Option DevTime := none
  syn : KV SynSt := []
  deriving DecidableEq, Repr

/-! ### Event timers (chapter 03) -/

/-- An event entry (Table ET-4), without its channel. -/
structure EtEntry where
  time : DevTime
  kind : Nat
  flags : Nat
  value : Nat
  deriving DecidableEq, Repr

/-- The count of a FREQUENCY channel (R96): the stamped edge that opened the gate, its slope, intervals counted since. -/
structure EtGate where
  first : DevTime
  falling : Bool
  n : Nat
  coast : Bool
  deriving DecidableEq, Repr

/-- A marker waiting for its place in an EVNT stream (R84): the time at or after which it goes, in the present device time, and
the number of entries, since start, that stand before it whatever their TIME (those of before a change of device time). -/
structure EtMark where
  at_ : DevTime
  from_ : Nat
  m : Marker
  deriving DecidableEq, Repr

/-- An event channel beyond its registers. -/
structure EtCh where
  queue : List EtEntry := []
  popped : Nat := 0
  /-- TIME of the last entry written (R88), and when the frame being filled took its first entry (R82). -/
  lastTime : DevTime := 0
  frameAt : Option DevTime := none
  /-- Entries discarded on a full queue and not yet reported (R88). -/
  lost : Nat := 0
  /-- The previous selected edge, and edges counted since the previous stamp with the time of the first (R89). -/
  lastEdge : Option DevTime := none
  since : Nat := 0
  deadFrom : Option DevTime := none
  /-- Level of the input, since when it holds, and whether its STUCK entry was written (R90). -/
  high : Bool := false
  levelFrom : DevTime := 0
  stuck : Bool := false
  /-- R96: the next gate boundary, in whole microseconds of device time; the first gate has begun; selected edges in the gate
  that runs; the stamped edge that counting goes on from; the gate of that edge has ended and awaits its closing edge. -/
  bound : Option Nat := none
  begun : Bool := false
  inGate : Nat := 0
  gate : Option EtGate := none
  waiting : Bool := false
  /-- The blind window of a STEP (R99): its end, edges counted in it. -/
  blind : Option (DevTime × Nat) := none
  /-- Markers waiting for their place in the EVNT stream (R84). -/
  markers : List EtMark := []
  deriving DecidableEq, Repr

/-- An interval unit beyond its registers (R93, R95): starts awaiting resolution and unpaired stops, in order of arrival;
time of the last STEP (R100). -/
structure IvSt where
  starts : List DevTime := []
  stops : List DevTime := []
  stepAt : Option DevTime := none
  deriving DecidableEq, Repr

structure EtSt where
  chans : KV EtCh := []
  units : KV IvSt := []
  /-- Slots by 32 * path + channel (R86): the entry latched and its place in the queue's history; none: all zero. -/
  latch : KV (Option (EtEntry × Nat)) := []
  deriving DecidableEq, Repr

/-! ### Analogue inputs (chapter 04) and calibration (chapter 19) -/

/-- The same five values as ratios, as interpolation and ramps make them (R568, R570). -/
structure InVal where
  offA : Ratio := ⟨0, 1⟩
  offB : Ratio := ⟨0, 1⟩
  gainA : Ratio := ⟨1048576, 1⟩
  gainB : Ratio := ⟨1048576, 1⟩
  skew : Ratio := ⟨0, 1⟩
  deriving DecidableEq, Repr

/-- A movement of the internal correction (R568): linear from `start` over 100 ms. -/
structure CalMove where
  start : DevTime
  from_ : InVal
  to_ : InVal
  deriving DecidableEq, Repr

/-- A movement of the system correction (R134): 64 equal steps, one every 15.625 ms from `start`. -/
structure SysMove where
  start : DevTime
  oOld : Ratio
  gOld : Ratio
  oNew : Int
  gNew : Int
  deriving DecidableEq, Repr

/-- A system-calibration measurement that runs (R133): FULL or ZERO; its first sampling instant; TIME of the last sample
measured; samples so far; sums of the samples z (2^-20 LSB), of z times the tone's cosine and sine, and of these two (2^-40). -/
structure SysMeas where
  full : Bool
  from_ : DevTime
  last : DevTime := 0
  count : Nat := 0
  z : Int := 0
  zc : Int := 0
  zs : Int := 0
  c : Int := 0
  sn : Int := 0
  deriving DecidableEq, Repr

/-- A notch setting (Table CV-6): 10 Hz units, kHz. -/
structure Notch where
  freq : Nat
  width : Nat
  order : Nat
  on : Bool
  deriving DecidableEq, Repr

/-- What happens to the notches at a sampling instant (R129, R130): another bank, or a reset. -/
structure NotchEvt where
  at_ : DevTime
  bank : Option (List Notch)
  deriving DecidableEq, Repr

/-- What a RAW stream brings to the stages it feeds (R23, R140, R168): a frame's start (absolute index of its first instant,
sample rate, 8-bit samples), a sample with the O flag of its beat and the calibrating flag of its frame, a marker before the
next sample, a gap record, the end of a run of samples. -/
inductive InTok where
  | start (k : Int) (fs : Nat) (w8 : Bool)
  | x (v : Int) (ovr cal : Bool)
  | mark (m : Marker)
  | gap (g : GapRec)
  | pause
  deriving DecidableEq, Repr

/-- How a stage waits for its first sample (R152, R197): not at all, for the first frame that starts at or after a time, for a
SYNC_RESET marker, or for the first sample after a gap. -/
inductive InWait where
  | none
  | frame (t : DevTime)
  | sync
  | gap
  deriving DecidableEq, Repr

/-- One input beyond its registers. Its instants are in the device time of its own samples: `lag` is what later loads of device
time add to them. -/
structure AfIn where
  /-- The 20 us of R120 are over: the input forms frames. -/
  runs : Bool := false
  /-- The input has delivered samples since RESET (R120). -/
  ranBefore : Bool := false
  /-- Sample rate of the run of samples under way, Hz. -/
  fs : Nat := 12800000000
  /-- Sampling instant of the last sample delivered. -/
  lastSample : DevTime := 0
  /-- The run of samples ends before this instant (R54, R119, R120); the cause of the gap record of length 0 that follows its
  last frame (R41, R69); the next run follows at once (R69). -/
  endAt : Option DevTime := none
  endGap : Option Nat := none
  endGo : Bool := false
  lag : Int := 0
  /-- ENABLE was set and the 20 us settling runs (R120): its end. -/
  settling : Option DevTime := none
  /-- The device stopped the input's stream: WATCH (R41), exhaustion (R60). -/
  held : Bool := false
  exhausted : Bool := false
  /-- Frames that hold samples of these intervals carry the settling flag (R129, R130, R138): first instant, end. -/
  settles : List (DevTime × DevTime) := []
  /-- Samples since the last clamped one, 256 for long ago (R121). -/
  since : Nat := 256
  /-- Trips of the +6 dBFS comparator (R123): first instant, samples to the end of its longer tail. -/
  over6 : List (DevTime × Nat) := []
  /-- Movements of the system correction, newest first (R134), and the steps of the last one that the registers show. -/
  sys : List SysMove := []
  ramp : Option Nat := none
  meas : Option SysMeas := none
  /-- An APPLY is pending: its CAL_RAMP marker has not arrived. -/
  applyPending : Bool := false
  /-- Movements of the internal correction, newest first (R568, R570). -/
  cal : List CalMove := []
  /-- Interleave correction (R108). -/
  il : IlCorr := {}
  /-- The last samples after stage 1, newest first: what the skew correction interpolates over. -/
  past : List Int := []
  /-- SOURCE in force at stage 1, and its changes not yet reached (R138). -/
  src : Nat := 0
  srcs : List (DevTime × Nat) := []
  /-- Notch bank in force at stage 6, what is to happen to it, and the state of each notch (R126 to R130). -/
  bank : List Notch := []
  evts : List NotchEvt := []
  nst : List (List Int) := []
  /-- Markers inserted whose action at the input's own stages is still to be taken (R25): instant of the sample, marker. -/
  todo : List (DevTime × Marker) := []
  /-- Samples since the change to PATTERN, and the 15-bit register of PRBS, bit 0 being s[1] (R137). -/
  patIdx : Nat := 0
  prbs : BitVec 15 := 0x7FFF
  /-- The skew in force, 0.05 ps, which slews towards SKEW (R107), and since when. -/
  skewNow : Int := 0
  skewSince : DevTime := 0
  deriving DecidableEq, Repr

/-- A temperature slot (R566): tags of the three dies in 1/16 degree, and a value for every item. -/
structure CalSlot where
  tags : List Int
  inputs : KV InCal := []
  /-- By synthesiser s (Table FT-9): slope and TDC gain, binary32. -/
  syn : KV (Word × Word) := []
  /-- By event channel: bin widths in 2^-12 ps, and internal delay in 2^-8 ps. -/
  bins : KV (List Nat) := []
  delays : KV Int := []
  deriving DecidableEq, Repr

/-- One input's part in the result ramp (R570): markers requested, steps taken. -/
structure CalRamp where
  /-- The marker has arrived. -/
  begun : Bool := false
  start : DevTime := 0
  k : Nat := 0
  deriving DecidableEq, Repr

/-- The calibration sequencer. -/
structure CaSt where
  slots : KV CalSlot := []
  /-- The slot set before the last store, while its results ramp in (R570). -/
  oldSlots : KV CalSlot := []
  steps : Nat := 64
  rampNs : Nat := 1000000000
  /-- Inputs still to be measured, by AF region, ascending; the first is being measured. -/
  todo : KV (List Nat) := []
  /-- Scope bits of the run (inputs 15:0, 16 synthesisers, 17 timers). -/
  scope : Nat := 0
  /-- Results of the run so far. -/
  results : KV InCal := []
  synRes : KV (Word × Word) := []
  binRes : KV (List Nat) := []
  delayRes : KV Int := []
  /-- End of each input's measurement (R570). -/
  ends : KV DevTime := []
  /-- First loss of each measured input's stream (R563). -/
  lossFrom : KV DevTime := []
  /-- Ramps of the stored inputs. -/
  ramps : KV CalRamp := []
  /-- Stores made, and the store number of each slot's last store (R601). -/
  stores : Nat := 0
  storeNo : KV Nat := []
  /-- Values fused at test that tolerances refer to (Table CA-1): slope by synthesiser, delay by event channel in 2^-8 ps;
  unlisted ones are 1.0 and 0 (assumption 14). -/
  fusedSlope : KV Word := []
  fusedDelay : KV Int := []
  /-- Event channels whose idle interpolator awaits exchange (R557), and the interpolator each uses. -/
  interp : KV Bool := []
  /-- Temperatures of the three dies, 1/16 degree, as last read. -/
  temps : List Int := [400, 400, 400]
  deriving DecidableEq, Repr

/-! ### Zoom paths (chapter 05) -/

/-- A cross-fade (R156): the coefficients it leaves, its first output, its length in outputs. -/
structure ZpFade where
  old : List (Int × Int)
  from_ : Nat
  len : Nat
  deriving DecidableEq, Repr

/-- One half-band stage (R140, R145): its delay line, newest first, and whether the next word completes a pair. -/
structure ZpStage where
  line : List (Int × Int) := []
  odd : Bool := false
  deriving DecidableEq, Repr

/-- One zoom path beyond its registers. -/
structure ZpSt where
  /-- What the path waits for before it takes samples (R152, R162). -/
  wait : InWait := .none
  /-- Sample rate of the run of samples, grid origin and index of the next input sample (R141). -/
  fs : Nat := 12800000000
  origin : Int := 0
  k : Int := 0
  /-- Index of the next output. -/
  out : Nat := 0
  /-- NCO accumulator at the next input sample (R142, R144). -/
  nco : BitVec 48 := 0
  /-- Half-band stages in order, and the delay line of the user filter, newest first (R140, R161). -/
  stages : List ZpStage := []
  line : List (Int × Int) := []
  fade : Option ZpFade := none
  /-- Outputs from settleFrom to settleTo - 1 settle (R155, R161). -/
  settleFrom : Nat := 0
  settleTo : Nat := 0
  /-- Last input samples of a flagged beat, of a calibrating frame (R149). -/
  lastOvr : Option Int := none
  lastCal : Option Int := none
  /-- The frame being filled (R149): first output, output elements newest first, FLAGS bits so far, markers. -/
  bufFrom : Nat := 0
  buf : List (Int × Int) := []
  /-- Their stage-4 words, newest first, for the LEVEL units that watch the path (R238). -/
  wide : List (Int × Int) := []
  bufFlags : Nat := 0
  markers : List Marker := []
  /-- Grid origins so far. -/
  grid : Nat := 0
  /-- Latched times of the requests held (R153, R159, R160). -/
  swapAt : Option DevTime := none
  syncAt : List DevTime := []
  /-- What the RAW stream brought and the path has not yet taken. -/
  inq : List InTok := []
  deriving DecidableEq, Repr

/-- One slot of a zoom transform unit (R165): the next transform's index from the grid origin, the index of the oldest path output
not yet used up, and these outputs, newest first: internal words, settling, in a flagged beat, calibrating. -/
structure ZtuSlot where
  j : Nat := 0
  first : Nat := 0
  pts : List (Int × Int × Bool × Bool × Bool) := []
  deriving DecidableEq, Repr

/-! ### Broad transforms (chapter 06) -/

/-- An equaliser table with its static mask (R178, R211): it serves from spectrum count `from_` on and fades in over `fade`
spectra (0: at once). Unlisted entries are 8800h, unlisted mask words 0. -/
structure BtBank where
  from_ : Nat
  fade : Nat
  eq : KV (BitVec 16)
  mask : KV Word
  deriving DecidableEq, Repr

/-- One broad transform beyond its registers. -/
structure BtSt where
  /-- What the transform waits for before it takes samples (R185, R197). -/
  wait : InWait := .none
  /-- Sample rate of the run of samples, grid origin, index of the next input sample (R169, R183). -/
  fs : Nat := 12800000000
  origin : Int := 0
  /-- Grid origins so far. -/
  grid : Nat := 0
  k : Int := 0
  w8 : Bool := false
  /-- The input's history segment (R198), newest first: sample on the 12-bit scale, O flag, calibrating. -/
  hist : List (Int × Bool × Bool) := []
  /-- Index of the next spectrum (R169). -/
  next : Int := 0
  /-- Spectra emitted since enable: fades count these (R190). -/
  cnt : Nat := 0
  /-- The active bank, then the one that a fade leaves. -/
  banks : List BtBank := []
  /-- A swap executes at the next spectrum (R190). -/
  swapDue : Bool := false
  /-- Shadow table and mask (R178, R211). -/
  eqSh : KV (BitVec 16) := []
  maskSh : KV Word := []
  /-- User window points; unlisted ones are FFFFh (R174). -/
  win : KV (BitVec 16) := []
  swapAt : Option DevTime := none
  syncAt : List DevTime := []
  /-- Midpoint instant of the last spectrum emitted, counted in the present run of samples, and its TIME (R184). -/
  lastMid : Option (Int × DevTime) := none
  /-- Cause of a gap record due before the next spectrum (R184, R185). -/
  gapCause : Option Nat := none
  /-- A gap record of cause "spare takeover" is due with this length, and spectra whose windows end at or before this instant
  are lost to the takeover (R199). -/
  takeGap : Option Nat := none
  skipTo : Option DevTime := none
  /-- Markers that stand before the next spectrum (R27). -/
  markers : List Marker := []
  /-- What the RAW stream brought and the transform has not yet taken. -/
  inq : List InTok := []
  deriving DecidableEq, Repr

/-! ### Detection (chapter 07) -/

/-- A spectrum on its way to detection (R203): its source's stream, index, TIME, binary32 powers, INPUT_OVR or FFT_OVF,
calibrating, and whether it carries SETTLING or FLAGS bit 2. -/
structure DetSpec where
  stream : BitVec 16
  j : Int
  time : DevTime
  p : List Word
  ovr : Bool
  cal : Bool
  bad : Bool
  /-- Number of the grid origin that `j` counts from, and the first and last sampling instant of its window. -/
  grid : Nat
  lo : DevTime
  hi : DevTime
  /-- The static mask in force for it, by channel (R211, R212), and the markers that stand before it (R27). -/
  static : List Bool := []
  markers : List Marker := []
  deriving DecidableEq, Repr

/-- What a source of spectra brings: a spectrum, or a gap record, one of cause "sync reset" for a reset (R184, R214). -/
inductive DetTok where
  | spec (d : DetSpec)
  | gap (g : GapRec)
  deriving DecidableEq, Repr

/-- Kurtosis flags that excise the CHAN spectra lo to hi of a grid (R213). -/
structure KurtZero where
  grid : Nat
  lo : Int
  hi : Int
  flags : List Bool
  deriving DecidableEq, Repr

/-- An integrator beyond its registers (R204 to R214). -/
structure DcInt where
  /-- Enabled while its source ran, it waits for a spectrum whose index is a multiple of M (R204). -/
  seek : Bool := true
  /-- It has begun: a gap of its source is a gap of its stream. -/
  begun : Bool := false
  /-- An integration is open: its grid, its index, spectra accumulated, TIME of the first. -/
  opened : Bool := false
  grid : Nat := 0
  i : Int := 0
  n : Nat := 0
  time : DevTime := 0
  ovr : Bool := false
  cal : Bool := false
  /-- Comb bins (binary64): one per output channel, or S1 per source channel; and S2 (R206). -/
  acc : List (BitVec 64) := []
  acc2 : List (BitVec 64) := []
  /-- Static mask in force at the first spectrum, by source channel of the span (R212). -/
  mask : List Bool := []
  zero : List KurtZero := []
  /-- Markers for the next SPEC frame (R27, R208). -/
  markers : List Marker := []
  deriving DecidableEq, Repr

/-- An update of a density plane (R219, R220): how many spectra it joins, by channel of the span the exact sum or the largest
power, the TIME of the last, first and last sampling instant, flags and markers. -/
structure PlaneUpd where
  n : Nat
  vals : List Ratio
  time : DevTime
  lo : DevTime
  hi : DevTime
  ovr : Bool
  cal : Bool
  markers : List Marker
  deriving DecidableEq, Repr

/-- A density plane beyond its registers (R217 to R223). -/
structure DcPlane where
  /-- Counts by column * 512 + row; unlisted ones are 0. -/
  counts : KV Nat := []
  u : Nat := 0
  /-- Pre-combining groups by source, with the grid and index of each; updates that wait for their turn (R220). -/
  pre : KV (Nat × Int × PlaneUpd) := []
  held : KV (List PlaneUpd) := []
  /-- Sources in a gap, for which no update waits. -/
  idle : List Nat := []
  snap : Nat := 0
  cleared : Bool := false
  lastTime : DevTime := 0
  /-- Source spectra added since the last snapshot delivered. -/
  added : Nat := 0
  /-- TIME of the first snapshot discarded since then, and the cause (R223). -/
  missed : Option (DevTime × Nat) := none
  markers : List Marker := []
  deriving DecidableEq, Repr

structure DcSt where
  /-- What waits for detection, by region * 32 + source (0 to 3 broad, 16 + slot), oldest first. -/
  queue : KV (List DetTok) := []
  /-- Integrators by region * 16 + I, planes by region * 4 + Q. -/
  ints : KV DcInt := []
  planes : KV DcPlane := []
  deriving DecidableEq, Repr

/-! ### Triggers (chapter 08) -/

/-- What its source brings to a trigger unit: a spectrum, a plane update (counts after it, TIME, first and last sampling instant,
flags), the start of a run of samples (rate of the clock, instant of the first sample, instants from one sample to the next, weight
of an LSB), a sample or word, a gap of a cause, or a marker. -/
inductive TgTok where
  | spec (d : DetSpec)
  | plane (counts : KV Nat) (time lo hi : DevTime) (ovr cal : Bool)
  | start (rate : Nat) (first : Int) (step : Nat) (unit : Int)
  | x (re im : Int) (ovr cal : Bool)
  | gap (t : DevTime) (cause : BitVec 16)
  | mark (m : Marker)
  deriving DecidableEq, Repr

/-- A band of a BAND unit (R245). -/
structure TgBand where
  inq : List TgTok := []
  /-- Grid, index and TIME of the spectrum taken last. -/
  seen : Option (Nat × Int × DevTime) := none
  /-- The open group: spectra summed, their exact sum, TIME of the first, flags. -/
  n : Nat := 0
  acc : Ratio := ⟨0, 1⟩
  time : DevTime := 0
  lo : DevTime := 0
  ovr : Bool := false
  cal : Bool := false
  /-- The interval its source could not test, with the cause (R259). -/
  blind : Option (DevTime × BitVec 16) := none
  /-- An average beyond the hysteresis came since the last firing. -/
  qual : Bool := false
  holdEnd : Option DevTime := none
  deriving DecidableEq, Repr

/-- A drift step being filled (R246): spectra taken, sums by sub-band. -/
structure DrAcc where
  time : DevTime
  lo : DevTime
  hi : DevTime
  got : Nat
  bad : Bool
  ovr : Bool
  cal : Bool
  vals : List Ratio
  deriving DecidableEq, Repr

/-- A valid row of the sweep buffer: P(b, t) by sub-band. -/
structure DrRow where
  time : DevTime
  lo : DevTime
  hi : DevTime
  ovr : Bool
  cal : Bool
  vals : List Word
  deriving DecidableEq, Repr

/-- Running statistics of one law and width (R249): number, sum and sum of squares of the present block, and of up to 64
complete blocks, newest first. -/
structure DrStat where
  n : Nat := 0
  sum : Ratio := ⟨0, 1⟩
  sq : Ratio := ⟨0, 1⟩
  blocks : List (Nat × Ratio × Ratio) := []
  deriving DecidableEq, Repr

/-- A result over threshold: step, law, log2 of the width, square of the significance (none: no finite one). -/
structure DrHit where
  t : Nat
  law : Nat
  w : Nat
  sig2 : Option Ratio
  deriving DecidableEq, Repr

/-- The drift unit beyond its registers (R246 to R253). -/
structure DriftSt where
  /-- d_L(b) by law (R247), set at enable. -/
  laws : List (List Nat) := []
  inq : List (Nat × DetTok) := []
  accs : KV DrAcc := []
  /-- One past the index of the spectrum taken last, by source, and the grid of each. -/
  at_ : KV Int := []
  grids : KV Nat := []
  /-- Sources whose spectra still count from the grid origin that another one has left. -/
  stale : List Nat := []
  rows : KV DrRow := []
  /-- A step whose TIME is known. -/
  ref : Nat × DevTime := (0, 0)
  /-- First step of the statistics' blocks, and the next step to be evaluated. -/
  first : Option Nat := none
  next : Nat := 0
  /-- Complete blocks since enable or since the last long blind interval, and the step at which they began. -/
  blocks : Nat := 0
  blockFrom : Nat := 0
  stats : KV DrStat := []
  /-- The open cluster: its first step and the most significant result so far. -/
  cluster : Option (Nat × DrHit) := none
  warmFrom : Option DevTime := none
  blindFrom : Option DevTime := none
  /-- Cause of the source's last gap. -/
  cause : Option Nat := none
  deriving DecidableEq, Repr

/-- A trigger unit beyond its registers. -/
structure TgUnit where
  /-- End of the holdoff (R233). -/
  holdEnd : Option DevTime := none
  /-- Conditions before this time do not fire a SINGLE unit (R234). -/
  armSince : DevTime := 0
  /-- What its source brought and the unit has not yet taken. -/
  inq : List TgTok := []
  /-- The interval it could not test, with the cause (R259). -/
  blind : Option (DevTime × BitVec 16) := none
  /-- Records that wait for an earlier one of the unit (R236). -/
  out : List TrigRec := []
  /-- A LEVEL unit's run of samples: the clock, the next sample's instant, instants per sample, weight of an LSB (R238). -/
  rate : Nat := 1
  at_ : Int := 0
  step : Nat := 1
  unit : Int := 1
  /-- Its last three samples, newest first: value, flags; samples that qualify a rising and a falling crossing; the crossing
  between the last two that waits for the next sample (true: rising) (R239, R240). -/
  hist : List (Ratio × Bool × Bool) := []
  qualUp : Bool := false
  qualDown : Bool := false
  crossing : Option Bool := none
  /-- OUT or IN of the last spectrum (R243). -/
  isOut : Option Bool := none
  /-- A sequencer's T_0 to T_(s-1) with the unit of each (R257), and the triggers it holds. -/
  times : List (Nat × DevTime) := []
  held : List (Nat × DevTime) := []
  deriving DecidableEq, Repr

/-- A path's slot for a record queue (R86, R262): the record latched and its place in the queue's history; none: the
all-zero record. -/
structure TgLatch where
  rec_ : Option (TrigRec × Nat)
  deriving DecidableEq, Repr

/-- Triggers. Region index r is 0 to 3 for SP, 4 for ST; a unit has key 16 r + u, a band 64 r + b. -/
structure TgSt where
  units : KV TgUnit := []
  bands : KV TgBand := []
  drift : KV DriftSt := []
  /-- Mask points by (4 r + u - 8) * 8192 + I (R242), and law words by 2048 r + W (Table TG-6). -/
  points : KV Word := []
  laws : KV Word := []
  /-- Records written by region (NUMBER of Table TG-2). -/
  number : KV Nat := []
  /-- Queues, oldest first (R262), and records removed from each. -/
  queue : KV (List TrigRec) := []
  popped : KV Nat := []
  /-- Slots by 16 * path + r. -/
  latch : KV TgLatch := []
  /-- Records discarded on a full queue and not yet reported, with the time of the first (R263). -/
  lost : KV (Nat × DevTime) := []
  /-- When the first record of the TRIG frame being filled came, by region (R237). -/
  frameAt : KV DevTime := []
  /-- The host trigger held (R256), with its path. -/
  host : Option (DevTime × Nat) := none
  /-- Markers waiting for their place in a TRIG stream (R261). -/
  markers : KV (List Marker) := []
  /-- EPOCH markers of sources taken last, newest first: several units of a region see each of them. -/
  marked : KV (List Marker) := []
  deriving DecidableEq, Repr

/-! ### Quires (chapter 09) -/

/-- A run of samples of one RAW frame in a voltage ring (R269): absolute index of its first instant, the samples, the O
flag of the beat of each, and whether the frame carried FLAGS bit 4. -/
structure RingRun where
  first : Int
  vals : List Int
  ovr : List Bool
  cal : Bool
  deriving DecidableEq, Repr

/-- A lost interval of a ring's gap log (R271): instants first to last - 1. -/
structure RingGap where
  first : Int
  last : Int
  cause : Nat
  deriving DecidableEq, Repr

/-- A voltage ring beyond its registers. Samples are known by the absolute index of their instant (assumption 7). -/
structure RingSt where
  /-- RING_LEN (R269). -/
  len : Nat := 0
  /-- Sample rate of the samples held, Hz. -/
  fs : Nat := 0
  runs : List RingRun := []
  /-- Oldest first, at most 256 (R271). -/
  log : List RingGap := []
  /-- Instants before this one count as overwritten. -/
  floor : Int := 0
  /-- One past the newest instant; none: empty. -/
  next : Option Int := none
  deriving DecidableEq, Repr

/-- One sample of a quire: code, O flag, calibrating flag, and the cause of its loss (0: held). -/
structure QSample where
  val : Int
  ovr : Bool
  cal : Bool
  cause : Nat
  deriving DecidableEq, Repr

/-- An accepted quire (R276). -/
structure Quire where
  num : Nat
  /-- Absolute index of the instant of sample 0 (R274). -/
  first : Int
  fs : Nat
  trig : List Byte
  coasting : Bool
  /-- Inputs of the group when the quire was accepted, ascending, each with 8-bit samples or not. -/
  ins : List (Nat × Bool)
  /-- LEN256 and PRE256. -/
  len256 : Nat
  pre256 : Nat
  /-- DATA_ADDR, and the address of the colophon (R283). -/
  addr : Nat
  colo : Nat
  /-- Copying has begun, and its rate is accounted for up to this time; none: it waits. -/
  began : Option DevTime := none
  /-- What the rate RATE still allows the engine, in 2^-49 byte (R277). -/
  credit : Nat := 0
  ignored : Nat := 0
  /-- Copied samples, by input of the group in ascending order. -/
  data : List (List QSample) := []
  deriving DecidableEq, Repr

/-- A closed quire on its way out (R288): its bytes' samples, its colophon and gap entries, the next slice, records
discarded. -/
structure QExport where
  quire : Quire
  colophon : List Byte
  gaps : List Byte
  slice : Nat
  lost : Nat
  deriving DecidableEq, Repr

/-- A capture group beyond its registers. -/
structure GroupSt where
  /-- Accepted and not yet closed, by number (R276). -/
  quires : List Quire := []
  /-- Number and first instant of the previous accepted quire. -/
  last : Option (Nat × Int) := none
  closed : Option Nat := none
  released : Option Nat := none
  /-- The low word written to QU_G_RELEASE_LO. -/
  relLo : Word := 0
  exports : List QExport := []
  deriving DecidableEq, Repr

structure QuSt where
  rings : KV RingSt := []
  groups : KV GroupSt := []
  deriving DecidableEq, Repr

/-! ### Combine engine (chapter 10) -/

/-- What waits at a combine input (R295): a spectrum of a local input with its frames' epoch and markers, a local gap record, or a
Yarenn record of a remote input. -/
inductive CeTok where
  | spec (p : CeSpec) (epoch : Byte) (markers : List Marker)
  | gap (cause : Nat)
  | record (r : YRec)
  deriving DecidableEq, Repr

/-- A TIME being aligned (R297): when its first spectrum arrived, the spectra, and whether device time was loaded or stepped since. -/
structure CeTime where
  time : DevTime
  first : DevTime
  specs : List CeSpec
  old : Bool := false
  deriving DecidableEq, Repr

/-- An accumulator (R299): sum, touched by a zeroed element, saturated. -/
structure CeAcc where
  re : Int := 0
  im : Int := 0
  touched : Bool := false
  sat : Bool := false
  deriving DecidableEq, Repr

/-- A pair (R300, R304): the dump it accumulates, matched spectra, TIME of the first, accumulators, flags; empty dumps not
yet reported, with the start of the first and the cause. -/
structure CePair where
  dump : Nat := 0
  n : Nat := 0
  time : DevTime := 0
  acc : List CeAcc := []
  inOvr : Bool := false
  ovr : Bool := false
  cal : Bool := false
  /-- Dumps, from this one on, in which a spectrum of A or B found no partner. -/
  unmatched : List Nat := []
  gap : Nat := 0
  gapTime : DevTime := 0
  gapCause : Option Nat := none
  /-- Cause of the first input gap since the last matched spectrum (R304). -/
  lost : Option Nat := none
  /-- Device time was loaded or stepped since the dump began: the next TIME of another dump starts afresh. -/
  moved : Bool := false
  markers : List Marker := []
  deriving DecidableEq, Repr

/-- A contribution to a beam slot (R306, R312): elements of 16 bits and more, its count, flags, EXCISED. -/
structure CePart where
  els : List (Int × Int)
  count : Nat
  inOvr : Bool
  ovr : Bool
  cal : Bool
  excised : Option Nat
  deriving DecidableEq, Repr

/-- A slot of a beam with children (R311): when its first contribution arrived, whether the own contribution is settled,
and what each child sent (none: nothing). -/
structure CeSlot where
  time : DevTime
  slice : Nat
  j : Int
  first : DevTime
  ownDone : Bool := false
  /-- Device time was loaded or stepped since its spectrum came. -/
  old : Bool := false
  own : Option CePart := none
  kids : KV (Option CePart) := []
  deriving DecidableEq, Repr

/-- A weight ramp (R310): t_x, STEPS, RAMP_NS, the step in force. -/
structure CeRamp where
  tx : DevTime
  steps : Nat
  ns : Nat
  k : Nat
  deriving DecidableEq, Repr

/-- A beam beyond its registers. -/
structure CeBeam where
  times : List CeTime := []
  slots : List CeSlot := []
  /-- Slots completed lately, newest first. -/
  done : List (DevTime × Nat) := []
  /-- Index and TIME of the spectrum of the slot emitted last, and the cause of a local gap since. -/
  lastJ : Option (Int × DevTime) := none
  cause : Option Nat := none
  ramp : Option CeRamp := none
  /-- A marker held (R310): its steps and ramp length. -/
  held : Option (Nat × Nat) := none
  /-- Time of the last accepted ARM (R309). -/
  armAt : Option DevTime := none
  /-- CAL_RAMP markers inserted for the beam whose slot has not come (R309, R310). -/
  acts : List Marker := []
  markers : List Marker := []
  deriving DecidableEq, Repr

structure CeSt where
  /-- TIMEs in alignment for cross-spectra, oldest first, and those completed lately, newest first. -/
  times : List CeTime := []
  done : List DevTime := []
  pairs : KV CePair := []
  beams : KV CeBeam := []
  /-- Newest TIME each combine input delivered: key x. -/
  seen : KV DevTime := []
  /-- What waits at each combine input x, the slices of a remote spectrum taken so far, and child records by beam. -/
  inq : KV (List CeTok) := []
  part : KV (List YRec) := []
  kidq : KV (List YRec) := []
  /-- Weight points by (16 b + i) * 4096 + p: active and shadow; unlisted ones are 4000h + 0j (R307). -/
  wtA : KV Word := []
  wtS : KV Word := []
  deriving DecidableEq, Repr

/-! ### Kepalink lanes and ports (chapter 11) -/

/-- A lane (R326, R330, R331, R335): the sideband message being received; codewords that wait for their role's turn (none:
uncorrectable); the multiple of 16,384 codewords at which it last sent ALIGN. -/
structure KlLane where
  sb : Option (List Byte) := none
  words : List (Option (List (Nat × List Byte))) := []
  sent : Option Nat := none
  /-- Codewords received; which of the last 1 ms were uncorrectable; where the present millisecond of the mean began, the
  corrected codewords in it and their corrected symbols. -/
  count : Nat := 0
  bad : List Nat := []
  winFrom : Nat := 0
  winN : Nat := 0
  winSum : Nat := 0
  deriving DecidableEq, Repr

/-- A spare swap (R337): the failed role and its lane, the spare, the switch counts of transmitter and receiver, which of them
have switched. -/
structure KlSwap where
  role : Nat
  lane : Nat
  spare : Nat
  tx : Nat
  rx : Option Nat := none
  txDone : Bool := false
  rxDone : Bool := false
  deriving DecidableEq, Repr

/-- A port (device port 32 r + q) beyond its registers. -/
structure KlPort where
  /-- Local lane of each role. -/
  map : List Nat := []
  /-- Role whose codeword is next, bytes of the record in progress, whether DATA frames are skipped until another frame
  comes (R328, R329). -/
  turn : Nat := 0
  cur : List Byte := []
  skip : Bool := false
  /-- Transmit codeword count at a time (R331). -/
  tx : Nat := 0
  txAt : DevTime := 0
  /-- The peer's transmit codeword count, as its last ALIGN gave it, and when that came (R331, R337). -/
  peerTx : Nat := 0
  peerAt : DevTime := 0
  /-- Peer seen by each role: hive address, port. -/
  seen : KV (Nat × Nat) := []
  swap : Option KlSwap := none
  /-- Roles whose failure waits for a swap to end (R339). -/
  fails : List Nat := []
  /-- Two-way time transfer (R342, R343): SEQ of the next TIME, departures of the last ones sent, the peer's last message
  with its arrival, STATUS of the peer. -/
  seq : Nat := 0
  /-- When TIME and CREDIT were sent last (R342, R372). -/
  ttAt : Option DevTime := none
  creditAt : Option DevTime := none
  /-- Since when the port is UP with the peer's TIME_VALID and no TIME message missed (R344). -/
  okFrom : DevTime := 0
  sent : KV DevTime := []
  sentLast : DevTime := 0
  peerLast : Option (Nat × DevTime) := none
  peerStatus : Nat := 0
  /-- The last 1,024 exchanges: twice raw, twice delay, in 2^-48 s. -/
  exch : List (Int × Int) := []
  /-- The present second of R343's stability: its start, exchanges, sum and sum of squares of twice theta. -/
  win : DevTime := 0
  winN : Nat := 0
  winSum : Int := 0
  winSq : Int := 0
  /-- A cable calibration (R346): its start, exchanges and sum of twice raw; whether the condition lapsed. -/
  cal : Option (DevTime × Nat × Int × Bool) := none
  /-- Credits (R372): frames sent and the peer's cumulative frees, by class; frames freed here. -/
  used : List Nat := [0, 0, 0]
  got : List Nat := [0, 0, 0]
  freed : List Nat := [0, 0, 0]
  deriving DecidableEq, Repr

structure KlSt where
  /-- By 68 r + i. -/
  lanes : KV KlLane := []
  /-- By 32 r + q. -/
  ports : KV KlPort := []
  /-- DGRAM_SEQ by 64 r + f (R350), and GAP records that a flow owes, in the order of their first loss (R351). -/
  dgram : KV Nat := []
  owed : KV (List YRec) := []
  deriving DecidableEq, Repr

/-! ### The hive (chapter 12) -/

/-- A neighbour on a port (R364): its last waggle and when it came. -/
structure KhNbr where
  w : KhWaggle
  at_ : DevTime
  deriving DecidableEq, Repr

/-- What LSAs and SWARMS say of a node (R363, R369). -/
structure KhNode where
  seq : Word := 0
  serial : BitVec 64 := 0
  health : Byte := 0
  /-- Links by fragment. -/
  links : KV (List KhLink) := []
  swSeq : Word := 0
  swarms : KV (List Nat) := []
  deriving DecidableEq, Repr

/-- The root followed (R366): its serial, address, class, priority, hops to it. -/
structure KhRoot where
  serial : BitVec 64
  addr : BitVec 16
  cls : Nat
  prio : Nat
  hops : Nat
  deriving DecidableEq, Repr

/-- An installed route (R370): next port, hops, cost. -/
structure KhRoute where
  port : Nat
  hops : Nat
  cost : Nat
  deriving DecidableEq, Repr

/-- What a reader of a record stream remembers of it (R381): the record taken last; what TIME rises by for a number of the stream's
own samples, learnt from two records that followed each other; the index of the last spectrum or dump that is counted as lost,
which counts once. -/
structure RecTrack where
  last : Option YRec := none
  pace : Option (Int × Nat) := none
  lostIdx : Option Int := none
  deriving DecidableEq, Repr

/-- A stream context beyond its registers (R374, R376). -/
structure KhCtx where
  /-- Port the ANNOUNCE came on; none at the origin. -/
  inPort : Option Nat := none
  outs : List Nat := []
  /-- Delivers here. -/
  here : Bool := false
  /-- Branches that have not answered, that accepted, the first refusal, the largest bound answered (ps). -/
  wait : Nat := 0
  good : Nat := 0
  bad : Nat := 0
  bound : Nat := 0
  /-- Records for the local sink, oldest first, each with the port it came in on. -/
  queue : List (Option Nat × YRec) := []
  /-- The records taken from the queue; whether a drop note came since the last (R381). -/
  track : RecTrack := {}
  noted : Bool := false
  /-- GAP records to emit before the next record delivered (R373, R381). -/
  owed : List YRec := []
  /-- The origin ended the stream for want of a route (R382). -/
  ended : Bool := false
  deriving DecidableEq, Repr

/-- A record waiting at an output port (R371): class, context, the port it came in on, the record, whether it is a drop
note. -/
structure KhOut where
  cls : Nat
  ctx : Nat
  from_ : Option Nat
  rec_ : YRec
  deriving DecidableEq, Repr

structure KhSt where
  nbrs : KV KhNbr := []
  nodes : KV KhNode := []
  seq : Word := 0
  /-- When waggles and the LSA were sent last, and the links, HEALTH and swarms that the LSA gave (R362, R364). -/
  wagAt : Option DevTime := none
  lsaAt : Option DevTime := none
  lsaWas : List KhLink × Byte × List Nat := ([], 0, [])
  root : Option KhRoot := none
  /-- When an LSA of the root last came; since when a candidate of higher class holds it (R367). -/
  rootSeen : DevTime := 0
  higher : Option (KhRoot × DevTime) := none
  routes : KV KhRoute := []
  /-- Addresses granted, by serial (R360), and the arrival port of requests, by serial. -/
  grants : KV Nat := []
  reqs : KV (Nat × DevTime) := []
  ctx : KV KhCtx := []
  /-- Records waiting, by output port, oldest first; context served last by 3 * port + class. -/
  outs : KV (List KhOut) := []
  served : KV Nat := []
  /-- The management request outstanding (R385): its tag and time; the next tag. -/
  mg : Option (Nat × DevTime) := none
  tag : Nat := 0
  deriving DecidableEq, Repr

/-! ### Capture memory (chapter 13) -/

/-- Allocation kinds (R394, Table CM-2), with the user of that kind as owner. -/
inductive AllocKind where
  | ring | quire | colophon | sweep | display | dma
  deriving DecidableEq, Repr

/-- One contiguous allocation (R394), in MiB. -/
structure Alloc where
  kind : AllocKind
  owner : Nat
  base : Nat
  size : Nat
  deriving DecidableEq, Repr

/-- A request in a channel's queue (R396 to R401). A read carries the data it returns, fixed when it was accepted (R398). -/
structure CmReq where
  /-- Arrival number: a lower one is older. -/
  age : Nat
  port : Nat
  tag : Nat
  write : Bool
  urgent : Bool
  addr : Nat
  len : Nat
  data : List Byte
  poisoned : Bool
  /-- Errors its DRAM accesses show (R411, R412), by sector. -/
  errs : List (Nat × EccErr) := []
  deriving DecidableEq, Repr

/-- Channel modes (R401), with the reason a drain began; an awaited drain names the address of the read that waits. -/
inductive CmMode where
  | read
  | drainHigh
  | drainEmpty
  | drainAwaited (addr : Nat)
  deriving DecidableEq, Repr

/-- A bank (R402): its open row and its close predictor. -/
structure CmBank where
  row : Option Nat := none
  pred : Nat := 0
  deriving DecidableEq, Repr

/-- A rank (R403 to R406): owed refreshes, refresh multiplier in quarters (4, 2, 1), failed mode-register reads in a row. -/
structure CmRank where
  owed : Nat := 0
  mult : Nat := 4
  fails : Nat := 0
  deriving DecidableEq, Repr

/-- A channel beyond its registers. -/
structure CmChan where
  reads : List CmReq := []
  writes : List CmReq := []
  /-- Requests whose handshake is held while a queue is full (R399). -/
  waiting : List CmReq := []
  /-- Ports, least recently granted first (R400). -/
  grant : List Nat := [0, 1, 2, 3]
  mode : CmMode := .read
  banks : KV CmBank := []
  ranks : KV CmRank := []
  /-- Segments masked in self-refresh (R409). -/
  masked : List Nat := []
  /-- Masked segments being initialised after exit (R647). -/
  initSegs : List Nat := []
  /-- When uncorrectable sectors were found within the last ms (R414). -/
  ueTimes : List DevTime := []
  deriving DecidableEq, Repr

/-- Geometry of the installed devices, read at training (R390): rows per bank, ranks, refresh time and t_XSR in ps. -/
structure CmGeom where
  rows : Nat
  ranks : Nat
  trfc : Nat
  txsr : Nat
  deriving DecidableEq, Repr

structure CmSt where
  chans : KV CmChan := []
  geom : Option CmGeom := none
  /-- Training has begun (R418); the channels agree and every one trained (R390). -/
  begun : Bool := false
  usable : Bool := false
  /-- Zero-initialisation after training is complete (R647). -/
  initDone : Bool := false
  /-- Poisoned sectors (R412), by address / 32. -/
  poison : KV Unit := []
  allocs : List Alloc := []
  /-- Declared traffic by user (R395), bytes per second. -/
  traffic : KV Nat := []
  /-- Requests accepted so far. -/
  arrivals : Nat := 0
  /-- Next sector of the patrol (R413), by address / 32. -/
  patrolNext : Nat := 0
  deriving DecidableEq, Repr

/-! ### The bindery (chapter 14) -/

/-- A flash target found at training (R421, R436, R450): whether it is excluded, its LUNs, its unique ID; whether its bad-block
marks are in the spine. -/
structure BdTarget where
  excluded : Bool
  luns : Nat
  uid : Nat
  marked : Bool := false
  deriving DecidableEq, Repr

/-- A LUN: its target, whether it has failed, holds a spine copy, and its grown bad units. -/
structure BdLun where
  target : Nat
  failed : Bool := false
  spine : Bool := false
  grown : Nat := 0
  deriving DecidableEq, Repr

/-- A flash channel. -/
structure BdChan where
  trained : Bool := false
  failed : Bool := false
  targets : List BdTarget := []
  luns : List BdLun := []
  /-- Bad-block marks that its targets carry: LUN, unit (R436). -/
  marks : List (Nat × Nat) := []
  deriving DecidableEq, Repr

/-- An erase unit (R426, R435, R436): its erase count, bad mark, the section that holds it, whether it waits for its erase.
An unlisted unit is good, free, erased and was never erased before. -/
structure BdUnit where
  erases : Nat := 0
  bad : Bool := false
  owner : Option Nat := none
  dirty : Bool := false
  deriving DecidableEq, Repr

/-- A member of a section (R427). -/
structure BdMember where
  chan : Nat
  lun : Nat
  blk : Nat
  retired : Bool := false
  deriving DecidableEq, Repr

/-- A section: its volume (none: DELETING or replaced, it waits for its erase), members in channel order, whether it is
filled, its age in 2^-32 h at 55 degrees (R437), whether it is to be relocated; of a relocated one, the volume and the leaves
it held (R438). -/
structure BdSec where
  vol : Option Nat
  members : List BdMember
  full : Bool := false
  age : Nat := 0
  move : Bool := false
  gone : Option (Nat × List (Nat × Nat)) := none
  deriving DecidableEq, Repr

/-- A wordline round (R426, R427): first data leaf, data leaves, section, stripe position, the members that took part, when its
leaves were formed (Table BD-3). -/
structure BdRound where
  lo : Nat
  n : Nat
  sec : Nat
  pos : Nat
  mem : List Nat
  staged : DevTime
  deriving DecidableEq, Repr

/-- A front (R429): its section, the next stripe position, rounds that await confirmation. -/
structure BdFront where
  sec : Nat
  pos : Nat := 0
  rounds : List BdRound := []
  deriving DecidableEq, Repr

/-- States of a volume (R428). -/
inductive BdState where
  | recording | recovering | closed | deleting
  deriving DecidableEq, Repr

/-- A record in a volume: where it begins in the volume's byte stream (R425), the volume's key it came under, how many of its
stream's own samples it holds. -/
structure BdRec where
  at_ : Nat
  key : Nat
  n : Nat
  r : YRec
  deriving DecidableEq, Repr

/-- A catalogue entry with its volume. -/
structure BdVol where
  state : BdState
  keys : List (Nat × Nat)
  secs : List Nat := []
  rounds : List BdRound := []
  /-- First leaf held (R433), data leaves up to the durable end, bytes of records. -/
  first : Nat := 0
  durable : Nat := 0
  bytes : Nat := 0
  recs : List BdRec := []
  /-- Own samples accepted, by key index (R447). -/
  taken : KV Nat := []
  deriving DecidableEq, Repr

/-- A recording slot: its volume, fronts, the front that takes the next round, the first leaf in no round, confirmed leaves
beyond the durable end, and the GAP records that its streams' losses await (R431). -/
structure BdSlot where
  vol : Nat
  fronts : List BdFront := []
  turn : Nat := 0
  next : Nat := 0
  done : List (Nat × Nat) := []
  lost : List YRec := []
  deriving DecidableEq, Repr

/-- A checkpoint of a volume (R444): durable leaves, TIME of the last record that ends in them, own samples stored by key. -/
structure BdCkpt where
  durable : Nat
  time : DevTime
  stored : KV Nat
  deriving DecidableEq, Repr

/-- A read session (R452): its volume, the next leaf, the first byte it delivers from, and by key the records delivered and the
cause of a loss not yet reported. -/
structure BdRead where
  vol : Nat
  leaf : Nat
  from_ : Nat
  tracks : KV RecTrack := []
  cut : KV Nat := []
  deriving DecidableEq, Repr

/-- A spine copy (R443): valid, its LUN, which half holds it. -/
structure BdSpine where
  valid : Bool := false
  lun : Nat := 0
  half : Bool := false
  deriving DecidableEq, Repr

structure BdSt where
  /-- Interface initialisation has begun (R454). -/
  begun : Bool := false
  chans : KV BdChan := []
  /-- Erase units of a LUN, pages of a block, rated endurance (Table BD-2). -/
  blocks : Nat := 0
  pages : Nat := 0
  rated : Nat := 0
  /-- By (32 * channel + LUN) * 65,536 + unit. -/
  units : KV BdUnit := []
  secs : KV BdSec := []
  nextSec : Nat := 0
  vols : KV BdVol := []
  nextVol : Nat := 1
  slots : KV BdSlot := []
  spine0 : BdSpine := {}
  spine1 : BdSpine := {}
  /-- Checkpoints by volume; the last one's time, data leaves written since. -/
  ckpts : KV BdCkpt := []
  ckptAt : DevTime := 0
  ckptLeaves : Nat := 0
  /-- The power-fail note (R447): t_f, own samples accepted by volume and key. -/
  note : Option (DevTime × KV (KV Nat)) := none
  /-- POWER_FAIL_N fell: BD accepts nothing more. -/
  failing : Bool := false
  reads : KV BdRead := []
  /-- A leaf has been lost (R449); those of a second failed member, by volume (R442). -/
  leafLost : Bool := false
  lostLeaves : KV (List Nat) := []
  /-- When BD_FLASH_TEMP was last written (R437). -/
  tempAt : DevTime := 0
  deriving DecidableEq, Repr

/-! ### MSI-X (chapter 15, Table DQ-1) -/

/-- One MSI-X vector: message address and data, and its mask bit. -/
structure MsixVec where
  addr : BitVec 64 := 0
  data : Word := 0
  masked : Bool := true
  deriving DecidableEq, Repr

structure MsixSt where
  vectors : KV MsixVec := []
  /-- Pending bits (R478): vectors waiting for their unmasking, ascending. -/
  pendingVec : KV Unit := []
  deriving DecidableEq, Repr

/-! ### Host port, DMA and queue ports (chapter 15) -/

/-- A DMA descriptor (Table DQ-2). -/
structure DmaDesc where
  next : Nat
  src : Nat
  dst : Nat
  len : Nat
  ctl : Nat
  tag : Nat
  deriving DecidableEq, Repr

/-- A 16-byte queue entry (Table DQ-4). -/
structure HqEntry where
  lo : BitVec 64
  hi : BitVec 64
  deriving DecidableEq, Repr

/-- What a channel does (R464 to R469): nothing, a descriptor fetch, moving data, holding a sink buffer, the confirming step,
a completion that waits for room. -/
inductive DmaPhase where
  | idle | fetch | move | buffer | confirm | post
  deriving DecidableEq, Repr

/-- A DMA channel beyond its registers: the domain of the path that started its list, the address of its descriptor in the
layout of NEXT, the descriptor, bytes moved or used. -/
structure DmaCh where
  phase : DmaPhase := .idle
  /-- The path that started the list (R531). -/
  path : Nat := 0
  at_ : Nat := 0
  desc : Option DmaDesc := none
  off : Nat := 0
  /-- SINK: when the buffer's first byte was written, whether it holds a GAP record, whether FLUSH_US closed it, bytes of a
  record that runs on into the next buffer. -/
  first : Option DevTime := none
  gap : Bool := false
  flushed : Bool := false
  carry : List Byte := []
  /-- The completion entry that waits for room (R474). -/
  entry : Option HqEntry := none
  /-- The GAP records that the streams of discarded records await (R470). -/
  lost : List YRec := []
  deriving DecidableEq, Repr

/-- A queue (R473, R475): its entries from the release point, M and P from there, the latched entry of an outbound queue (with
whether it is uncorrectable), the latched LO of an inbound one, entries whose write is held, MGMT entries executed, a MGMT
result that waits for room. -/
structure HqSt where
  entries : List HqEntry := []
  m : Nat := 0
  p : Nat := 0
  latch : Option (HqEntry × Bool) := none
  lo : Option (BitVec 64) := none
  held : List HqEntry := []
  done : Nat := 0
  result : Option HqEntry := none
  deriving DecidableEq, Repr

structure HsSt where
  dma : KV DmaCh := []
  queues : KV HqSt := []
  deriving DecidableEq, Repr

/-! ### Display heads (chapter 16) -/

/-- A layer of a head beyond its registers. -/
structure DsLayer where
  /-- The half of the density surface that is shown, whether the other holds a new snapshot (R488, R491); row of the
  spectrogram ring that is shown at the top, lines that wait for a frame start. -/
  half : Bool := false
  swap : Bool := false
  top : Nat := 0
  lines : List (List Nat) := []
  /-- Bytes the layer held when the frame began; none: not shown in this frame. -/
  seen : Option (List Byte) := none
  /-- Raster position from which the layer is switched off in this frame (R497). -/
  cut : Option Nat := none
  /-- Last recorded signature, how many frames in a row had it, whether FREEZE was raised for it (R499). -/
  sig : Option Nat := none
  run : Nat := 0
  raised : Bool := false
  deriving DecidableEq, Repr

/-- A display head beyond its registers. -/
structure DsHead where
  layers : KV DsLayer := []
  /-- Row levels of each trace, none where a column has no value yet; a redraw waits (R489). -/
  traces : KV (List Nat) := []
  redraw : Bool := false
  /-- Palette entries by 256 l + i, shadow and shown; unlisted ones are as R487 gives. -/
  palS : KV Word := []
  pal : KV Word := []
  palNew : Bool := false
  /-- A frame is being composed. -/
  inFrame : Bool := false
  /-- The link is being trained; when a failed training is retried (R484). -/
  training : Bool := false
  retry : Option DevTime := none
  /-- Host AUX transaction: it waits for the head's own; when it began (R485). -/
  auxWait : Bool := false
  auxAt : DevTime := 0
  deriving DecidableEq, Repr

/-! ### Binding image (chapter 17) -/

/-- The state a device-record entry carries (Table BI-4); `active` is the slot number, 0 A, 1 B. -/
structure DevRec where
  active : Nat := 0
  armed : Bool := false
  attempted : Bool := false
  rollback : Bool := false
  holdNext : Bool := false
  lastBooted : Word := 0
  xoAge : Word := 0
  deriving DecidableEq, Repr

/-- A device-record entry: event, ENTRY_SEQ and the state. -/
structure DevEntry where
  event : Nat
  seq : Nat
  rec_ : DevRec
  deriving DecidableEq, Repr

/-- A fused key slot (R508): none is blank; the hash of its public key, and its revoke bit. -/
structure KeySlot where
  hash : Option (BitVec 384) := none
  revoked : Bool := false
  deriving DecidableEq, Repr

/-- An update session (R516 to R520): the path's number, the slot written, the last access of the holder, bytes in the
program buffer, words whose write is held while it is full. -/
structure BiSession where
  holder : Nat
  slot : Nat
  lastAccess : DevTime
  buffered : Nat := 0
  held : List Word := []
  deriving DecidableEq, Repr

/-- The image that runs (R513 to R515): its slot, key slot, version and floor, whether it is a trial. -/
structure BootedImage where
  slot : Nat
  keySlot : Nat
  version : Nat
  floor : Nat
  trial : Bool
  deriving DecidableEq, Repr

structure ImSt where
  /-- The two sectors of the device record (R509), and the one written last. -/
  sector0 : List DevEntry := []
  sector1 : List DevEntry := []
  inSector1 : Bool := false
  keys : KV KeySlot := [(0, { hash := some 0 })]
  /-- Values of the floor slots blown, lowest slot first (R514). -/
  floors : List Nat := []
  session : Option BiSession := none
  booted : Option BootedImage := none
  /-- Size of the boot flash found by the loader (R504), and the bytes the slots hold. -/
  flashSize : Nat := 0
  slotBytes : KV (List Byte) := []
  deriving DecidableEq, Repr

/-! ### Protection and alarms (chapter 18) -/

/-- One set of protection settings (R529, R531, R532, R535): staged or active. Unlisted pages, windows and volume entries
read as their reset values. -/
structure ProtSet where
  pathDomain : BitVec 10 := 0x3EF
  pages : KV (BitVec 4) := []
  cmDefault : BitVec 4 := 9
  volDefault : BitVec 4 := 9
  cwBase : KV Word := []
  cwSize : KV Word := []
  cwAcc : KV (BitVec 4) := []
  volId : KV Word := []
  volAcc : KV (BitVec 4) := []
  deriving DecidableEq, Repr

/-- Who owns the stage (R535). -/
inductive StageOwner where
  | none
  | path (p : Nat)
  | record
  deriving DecidableEq, Repr

structure ProtSt where
  staged : ProtSet := {}
  active : ProtSet := {}
  owner : StageOwner := .none
  /-- Time of the owner's last access to a PROT register (R535). -/
  lastAccess : DevTime := 0
  deriving DecidableEq, Repr

/-- Alarm kinds (R548, Table CP-8). -/
inductive AlarmKind where
  | fenced | reference | event | link | hive | memory | media | combine
  | display | image | spare | replace | thermal | notMasked | calibration | safe
  deriving DecidableEq, Repr

/-- One kind in one region (R549): when its last element left, and the raises held since. -/
structure AlarmHold where
  lastEmit : Option DevTime := none
  count : Nat := 0
  time : DevTime := 0
  reason : Nat := 0
  arg : Nat := 0
  deriving DecidableEq, Repr

/-- A condition of a level alarm that holds (R548): region, kind, the ARG and REASON it raises with. -/
structure LevelCond where
  region : Nat
  kind : AlarmKind
  arg : Nat
  reason : Nat
  deriving DecidableEq, Repr

structure AlarmSt where
  holds : KV AlarmHold := []
  conds : List LevelCond := []
  deriving DecidableEq, Repr

/-- A path's slot for a 64-bit counter pair (R81): the half its low-word read kept. -/
structure PathSlots where
  /-- By path * 2^24 + address of the low word: the high word. -/
  pairs : KV Word := []
  deriving DecidableEq, Repr

/-! ### Management transports (chapter 18) -/

/-- The I2C target's offset (R525); what the next Capture-DR of the JTAG MGMT register loads (R526). -/
structure PortSt where
  i2c : BitVec 24 := 0
  jtag : BitVec 64 := 0
  deriving DecidableEq, Repr

/-! ### Faults and repair (chapter 20) -/

/-- Block states (Table FT-6, FT_BLK_STATE). -/
inductive BlkState where
  | serving | freeSpare | standingIn | underPatrol | quarantined | absent
  deriving DecidableEq, Repr

/-- A physical block: its state and the block whose duty it serves (none: FFh). -/
structure Blk where
  state : BlkState
  duty : Option Nat
  deriving DecidableEq, Repr

/-- An FT_LOG entry (R606). -/
structure FtLog where
  block : Nat
  array : Nat
  verdict : Nat
  kind : Nat
  bit : Nat
  addr : Nat
  applied : Nat
  expected : Nat
  deriving DecidableEq, Repr

/-- A takeover that runs (R581): the failed block, the block that takes its duty, the time of the failed check. -/
structure Takeover where
  failed : Nat
  spare : Nat
  duty : Nat
  t0 : DevTime
  deriving DecidableEq, Repr

/-- A patrol test that runs (R596): the block tested, the spare that stands in (none: tested in place). -/
structure PatrolRun where
  block : Nat
  standIn : Option Nat
  deriving DecidableEq, Repr

/-- Faults and repair in one region. -/
structure FtRegion where
  blocks : KV Blk := []
  /-- FT_LOG (R606), by entry, and how many entries were written since start. -/
  log : KV FtLog := []
  logged : Nat := 0
  takeover : Option Takeover := none
  /-- Faults waiting for the takeover to end (R585), oldest first. -/
  waiting : List Nat := []
  /-- Block whose patrol turn is next, and blocks owed an early test (R598). -/
  patrolNext : Nat := 0
  patrolOwed : List Nat := []
  patrol : Option PatrolRun := none
  readmit : Option Nat := none
  /-- When the next test of the rotation falls due, and whether the rotation waits for a spare (R596). -/
  patrolDue : DevTime := 0
  patrolWait : Bool := false
  /-- Times of the corrections each SRAM row took within 1 s (R578), by (block * 2^16 + array) * 2^32 + row. -/
  rowCorr : KV (List DevTime) := []
  deriving DecidableEq, Repr

/-- A soft or fused repair (Table FT-4). -/
structure Repair where
  region : Nat
  block : Nat
  array : Nat
  column : Bool
  address : Nat
  spare : Nat
  fused : Bool
  deriving DecidableEq, Repr

/-- An entry of the repair record (R600): its type, its region and its bytes 8 to 27. -/
structure RepairEntry where
  type : Nat
  region : Nat
  seq : Nat
  data : List Byte
  deriving DecidableEq, Repr

structure FtSt where
  regions : KV FtRegion := []
  repairs : List Repair := []
  record : List RepairEntry := []
  entrySeq : Nat := 0
  /-- FUSE_VPP present (R602). -/
  fuseVpp : Bool := false
  /-- Consecutive ms above 160 degrees (R591). -/
  hot160 : Nat := 0
  /-- Highest junction temperature since the last thermal account, 1/16 degree (Table FT-10). -/
  peak : Option Int := none
  deriving DecidableEq, Repr

/-! ### What the device sends -/

/-- What leaves a block or the device, in the order in which it leaves. -/
inductive Emission where
  /-- A frame a producer put on its stream (R19). -/
  | frame (f : Frame)
  /-- A gap record a stage emitted (R30). -/
  | gap (g : GapRec)
  /-- A marker a first stage inserted (R24). -/
  | marker (stage : FirstStage) (m : Marker)
  /-- An EPOCH marker placed at an output gate (R582). -/
  | epochMarker (stream : BitVec 16) (epoch : Byte)
  /-- A Yarenn record an exit formed (R37): the exit, its instance, the record. -/
  | record (exit : Exit) (inst : Nat) (r : YRec)
  /-- A signalled MSI-X vector (R478). -/
  | msix (vec : Nat)
  /-- A capture-memory read's data (R397, R412), and the acknowledgement of a write (R398; failed by R414). -/
  | cmData (port tag addr : Nat) (data : List Byte) (poisoned : Bool)
  | cmAck (port tag addr : Nat) (ok : Bool)
  /-- The answer to a management access on a path: address, value read, reason code. -/
  | answer (path addr : Nat) (value : Word) (reason : Nat)
  /-- A sideband message sent on a lane (R330, R331, R362). -/
  | laneMsg (lane : Nat) (m : SbMsg)
  /-- A sideband message received whole with a good CRC goes to the steward (R330): port, TYPE, body. -/
  | sbMessage (port type : Nat) (body : List Byte)
  /-- A Yarenn record started on a device port (R371). -/
  | link (port : Nat) (r : YRec)
  /-- The record in progress on a device port was cut short (R329). -/
  | abort (port : Nat)
  /-- A record delivered to the local sink of a context (R381): kind and index of KH_SC_SINK. -/
  | deliver (kind index : Nat) (r : YRec)
  /-- An Ethernet frame of an export flow, from its destination address to the end of the UDP datagram (R348, R350): region, flow. -/
  | datagram (region flow : Nat) (data : List Byte)
  /-- An ARP reply, a Neighbor Advertisement (R349): device port, the asker's address. -/
  | arpReply (port : Nat) (asker : BitVec 32)
  | neighborAdvert (port : Nat) (asker : BitVec 128)
  /-- A PCI Express read and write the device issues (R461 to R469): channel, address, bytes. -/
  | hostRead (chan addr len : Nat)
  | hostWrite (chan addr : Nat) (data : List Byte)
  /-- A window Q read's data: queue, value, poisoned (R473, R477). -/
  | queueRead (queue : Nat) (v : BitVec 64) (poisoned : Bool)
  /-- A window D read's completion: address, data, poisoned; none is Unsupported Request (R459, R460). -/
  | windowRead (addr : Nat) (data : Option (List Byte)) (poisoned : Bool)
  /-- A member of a section is programmed with the leaves of one of its wordlines (R426): channel, LUN, unit, wordline, the volume
  and the first data leaf of the round. -/
  | flashProgram (chan lun unit wordline vol lo : Nat)
  deriving DecidableEq, Repr

/-! ### The state -/

/-- Faults: none. No meaning of this model ends in a fault: every condition the spec names leaves the device in a state
(a refusal by reason code, an alarm, SAFE, OFF), which is a next state. -/
inductive Fault where
  deriving DecidableEq, Repr

/-- Refusals of a step. -/
inductive Refusal where
  /-- Raised by a row of Machine/Dispatch.lean whose command has no meaning yet; safe: nothing is claimed of it. -/
  | notModelled (mnemonic : String)
  deriving DecidableEq, Repr

/-- The state of the device: every register (by management address), the state that is no register, what has left the
device, the counter of the free values, and the queue of waiting commands. -/
structure State where
  variant : Variant := .yn9616
  /-- Registers, sparse by 24-bit management address; an unlisted register holds its reset value. -/
  regs : KV Word := []
  power : PowerSt := {}
  flow : FlowSt := {}
  time : TimeSt := {}
  prot : ProtSt := {}
  alarm : AlarmSt := {}
  slots : PathSlots := {}
  msix : MsixSt := {}
  ft : FtSt := {}
  /-- Capture memory (chapter 13): sorted by address, no cell listed that reads as 0. -/
  cmem : List Host.Cell := []
  cm : CmSt := {}
  af : KV AfIn := []
  ca : CaSt := {}
  qu : QuSt := {}
  zp : KV ZpSt := []
  /-- Transforms counted by each slot of the zoom transform units, from the path's grid origin (R204): region * 16 + slot. -/
  ztu : KV ZtuSlot := []
  bt : KV BtSt := []
  dc : DcSt := {}
  tg : TgSt := {}
  et : EtSt := {}
  im : ImSt := {}
  ce : CeSt := {}
  kl : KlSt := {}
  kh : KhSt := {}
  bd : BdSt := {}
  hs : HsSt := {}
  mport : PortSt := {}
  ds : KV DsHead := []
  /-- Everything sent, oldest first. -/
  out : List Emission := []
  /-- Free values used so far (the model's own field). -/
  freshCount : Nat := 0
  /-- Commands waiting, first in, first out. -/
  pending : List Instr := []
  deriving DecidableEq, Repr

/-- The machine right after reset: every register at its reset value but for what RESET has already done when LOADER begins
(R39, R643, R645): region 1, the steward, is READY and its synthesiser has locked to the crystal and clocks its island. Power-on
RAM is empty, the queue too (assumption 31). -/
def State.reset : State := { regs := [(0x100004, 4#32), (0x100108, 1#32)] }

end Sys2Proof.Machine
end

