-- ==== Sys2Proof/Machine/Ops.lean ====
section
/-! DEFINITION. Machine/Ops.lean: the named operations every chapter shares: registers and their reset values, device
time, streams with their frames and gap records (R19 to R37), markers (R23 to R29), free values. -/

namespace Sys2Proof.Machine

/-! ### Registers -/

/-- The nominal frequency of synthesiser block `b` in kHz (Table TC-1; 0 is the timebase, k the synthesiser of region
k). -/
def synNominal (b : Nat) : Nat :=
  if b = 0 then 3200000
  else if b = 1 then 800000
  else if b ≤ 5 then 12800000
  else if b ≤ 10 then 1200000
  else if b = 11 then 1333000
  else if b = 12 then 800000
  else if b ≤ 14 then 1328000
  else 1000000

/-- The die of region k (Table CP-7): 0 and 1 the front dies, 2 the processing die. -/
def regionDie (k : Nat) : Nat := if k = 2 ∨ k = 3 then 0 else if k = 4 ∨ k = 5 then 1 else 2

/-- Spare blocks built in region k (Table FT-1). -/
def spareTotal (k : Nat) : Nat :=
  if k = 1 then 1 else if k ≤ 5 then 2 else if k ≤ 9 then 4 else if k = 10 then 3
  else if k = 13 ∨ k = 14 then 5 else 2

/-- Region k does not exist in the variant (R1, R2): AF2, AF3, SP2, SP3 and KL1 of the YN9608. -/
def absentRegion (v : Variant) (k : Nat) : Bool :=
  v = .yn9608 && (k = 4 || k = 5 || k = 8 || k = 9 || k = 14)

/-- Row, window and the two index values of the register at management address `a` (R545). -/
def findIn (win off : Nat) : List RegRow → Option (RegRow × Nat × Nat × Nat)
  | [] => none
  | r :: t =>
    let d := off - r.off
    let i := d / r.s1
    let j := d % r.s1 / r.s2
    if decide (r.off ≤ off) && r.wins.contains win && decide (i < r.c1) && decide (j < r.c2)
        && decide (i * r.s1 + j * r.s2 = d)
    then some (r, win, i, j)
    else findIn win off t

/-- The register at management address `a`, if any (R9). -/
def findReg (a : Nat) : Option (RegRow × Nat × Nat × Nat) :=
  findIn (a / 0x100000) (a % 0x100000) (regRows (a / 0x100000))

/-- Reset values that differ between the instances of one register (the field tables' "by region", "by path", "n mod 4",
"nominal" and the like). -/
def regSpecial (v : Variant) (r : RegRow) (win i j : Nat) : Nat :=
  match r.name with
  | .SYN_TARGET => synNominal (if r.off = 0x14C then 0 else win)
  | .ZP_SH_COEF => if j = 0 then 0x4000 else 0
  | .ZP_ACT_COEF => if j = 0 then 0x4000 else 0
  | .BT_STATUS => i <<< 8
  | .DMA_CTL => r.rst + (i <<< 24)
  | .HQ_CTL => r.rst + ((0x40 + i) <<< 24)
  | .DS_L_CTL => if j = 3 then 0 else 0x10
  | .REGION_ID => 0xB0000000 + (regionDie win <<< 8) + win
  | .REGION_STATE => if absentRegion v win then 0 else 1
  | .REGION_SPARES => r.rst + (spareTotal win <<< 8) + spareTotal win
  | .GLOBAL_IDENT => (if v = .yn9616 then 0x96160000 else 0x96080000) + 0xB000
  | .GLOBAL_ALARM_VEC => 0xC3C2C1C0 + 0x04040404 * i
  | .ST_FT_FUSE_USE => 0x4000000
  | .BI_FUSE => 0xE0
  | .ST_ET_THRESH => if i < 16 then r.rst else 0
  | _ => r.rst

/-- The reset value of the register at `a` (R10); 0 where no register stands (R9). -/
def regReset (v : Variant) (a : Nat) : Word :=
  match findReg a with
  | some (r, win, i, j) => BitVec.ofNat 32 (regSpecial v r win i j)
  | none => 0

/-- The word a register holds. -/
def State.reg (s : State) (a : Nat) : Word := kvGetD s.regs a (regReset s.variant a)

/-- Write a register's word: writing the reset value removes the entry. -/
def State.setReg (s : State) (a : Nat) (v : Word) : State :=
  { s with regs := kvSetD (regReset s.variant a) s.regs a v }

/-- The value of a field. -/
def State.get (s : State) (f : Fld) : Nat := bits (s.reg f.addr).toNat f.hi f.lo

/-- Write a field, leaving the register's other bits. -/
def State.put (s : State) (f : Fld) (x : Nat) : State :=
  s.setReg f.addr (BitVec.ofNat 32 (setBits (s.reg f.addr).toNat f.hi f.lo x))

/-- A one-bit field is set, or a wider one is not 0. -/
def State.on (s : State) (f : Fld) : Bool := s.get f != 0

/-- A field read as a two's complement number. -/
def State.getS (s : State) (f : Fld) : Int := signed (f.hi + 1 - f.lo) (s.get f)

/-- The whole register as a number. -/
def State.val (s : State) (a : Nat) : Nat := (s.reg a).toNat

/-- Write the whole register. -/
def State.setVal (s : State) (a x : Nat) : State := s.setReg a (BitVec.ofNat 32 x)

/-- Add `n` to a 32-bit count, modulo 2^32 (assumption 5). -/
def State.count (s : State) (a n : Nat) : State := s.setVal a (s.val a + n)

/-- Add `n` to a field's count, modulo its width (assumption 5). -/
def State.countF (s : State) (f : Fld) (n : Nat) : State := s.put f (s.get f + n)

/-- Write a 64-bit value to a pair of registers. -/
def State.setPair (s : State) (lo hi x : Nat) : State := (s.setVal lo x).setVal hi (x / 2 ^ 32)

/-- The 64-bit value of a pair of registers. -/
def State.pair (s : State) (lo hi : Nat) : Nat := s.val lo + 2 ^ 32 * s.val hi

/-- Set a REASON field and answer the code. -/
def State.answer (s : State) (f : Fld) (c : Nat) : State × Nat := (s.put f c, c)

/-- Use `f` on the state when `c` holds. -/
def State.ifThen (s : State) (c : Bool) (f : State → State) : State := if c then f s else s

/-- Apply `f` for each element, left to right. -/
def State.each {α : Type} (s : State) (l : List α) (f : State → α → State) : State := l.foldl f s

/-! ### Free values -/

/-- The next free value, 64 bits (assumption 2). -/
def State.freeNow (s : State) : Nat := (Config.freeBits s.freshCount).toNat

/-- The state after one free value was used. -/
def State.useFree (s : State) : State := { s with freshCount := s.freshCount + 1 }

/-- `n` free values of `w` bits each, starting with the next one. -/
def State.freeList (s : State) (n w : Nat) : List Nat :=
  (upto n).map fun k => (Config.freeBits (s.freshCount + k)).toNat % 2 ^ w

/-- The state after `n` free values were used. -/
def State.useFrees (s : State) (n : Nat) : State := { s with freshCount := s.freshCount + n }

/-! ### Device states -/

/-- The present device state's code (Table AC-11). -/
def State.devState (s : State) : Nat := s.get GLOBAL_DEVSTATE_STATE

/-- Move to device state `c`; the old one becomes PREV (Table AC-13). SAFE_CAUSE is 0 outside SAFE. -/
def State.moveTo (s : State) (c : Nat) : State :=
  let old := s.devState
  (((s.put GLOBAL_DEVSTATE_PREV old).put GLOBAL_DEVSTATE_STATE c).put GLOBAL_DEVSTATE_SAFE_CAUSE 0)

/-- The device runs blocks: RUN or WATCH. -/
def State.running (s : State) : Bool := s.devState = 5 || s.devState = 6

/-- Region k's island clock is gated (R47): its handshake channels hold their transfers. -/
def State.gated (s : State) (k : Nat) : Bool := s.on (SYN_STATUS_GATED k)

/-! ### Device time -/

/-- Device time plus `n` units of 2^-48 s, modulo 2^80 (R641). -/
def tAdd (t : DevTime) (n : Nat) : DevTime := t + BitVec.ofNat 80 n

/-- Device time plus a signed number of units of 2^-48 s, modulo 2^80 (R641). -/
def tAddI (t : DevTime) (n : Int) : DevTime := BitVec.ofNat 80 (unsign 80 ((t.toNat : Int) + n))

/-- Signed difference a - b of two device times (R641). -/
def tDiff (a b : DevTime) : Int := signed 80 ((a - b).toNat)

/-- a is at or before b (R641). -/
def tLe (a b : DevTime) : Bool := 0 ≤ tDiff b a

/-- a is before b (R641). -/
def tLt (a b : DevTime) : Bool := 0 < tDiff b a

/-- `n` ns in units of 2^-48 s, rounded down (R67). -/
def nsTicks (n : Nat) : Nat := n * 2 ^ 48 / 1000000000

/-- `n` us in units of 2^-48 s, rounded down. -/
def usTicks (n : Nat) : Nat := nsTicks (1000 * n)

/-- A signed number of ps in units of 2^-48 s, rounded towards minus infinity. -/
def psTicks (n : Int) : Int := n * 2 ^ 48 / 1000000000000

/-- Whole seconds of a device time. -/
def secOf (t : DevTime) : Nat := t.toNat / 2 ^ 48

/-- Fraction of a device time, in 2^-48 s. -/
def fracOf (t : DevTime) : Nat := t.toNat % 2 ^ 48

/-- The device time of whole second `n`. -/
def atSec (n : Nat) : DevTime := BitVec.ofNat 80 (n * 2 ^ 48)

/-- The device time of seconds and a 32-bit fraction (the SEC and FRAC registers of a request). -/
def atSecFrac (sec frac : Nat) : DevTime := BitVec.ofNat 80 (sec * 2 ^ 48 + frac * 2 ^ 16)

/-- The first whole second at or after `t`. -/
def ceilSec (t : DevTime) : DevTime := if fracOf t = 0 then t else atSec (secOf t + 1)

/-- The present device time. -/
def State.now (s : State) : DevTime := s.time.now

/-- What is sent every `us` microseconds is due: it was never sent, or that long ago. -/
def State.due (s : State) (last : Option DevTime) (us : Nat) : Bool :=
  match last with
  | none => true
  | some t => tLe (tAdd t (usTicks us)) s.now

/-- The timebase coasts or slews: the COASTING flag of frames and records (R58, R62). -/
def State.coasting (s : State) : Bool := s.on ST_REF_STATUS_COASTING || s.on ST_REF_STATUS_SLEWING

/-- The timebase coasted or slewed at device time `t` (R58): COASTING of a frame is taken at its first payload sample, of a
record at its TIME. -/
def State.coastAt (s : State) (t : DevTime) : Bool :=
  match s.time.coastLog.find? fun p => tLe p.1 t with
  | some p => p.2
  | none => false

/-- Write SEC and FRAC words of a time. -/
def State.putTime (s : State) (secA fracA : Nat) (t : DevTime) : State :=
  (s.setVal secA (secOf t)).setVal fracA (fracOf t / 2 ^ 16)

/-! ### Output -/

/-- Append to what was sent. -/
def State.emit (s : State) (e : Emission) : State := { s with out := s.out ++ [e] }

/-! ### Streams (R19 to R22, R30) -/

/-- Stream ID of kind `k`, instance `n` (R22). -/
def sid (k n : Nat) : BitVec 16 := BitVec.ofNat 16 (k * 4096 + n)

/-- A stream's state. -/
def State.stream (s : State) (id : BitVec 16) : StreamSt := kvGetD s.flow.streams id.toNat {}

/-- Change a stream's state. -/
def State.modStream (s : State) (id : BitVec 16) (f : StreamSt → StreamSt) : State :=
  { s with flow := { s.flow with streams := kvMod {} s.flow.streams id.toNat f } }

/-- In SAFE all outputs are stopped (R38, Table AC-11). -/
def State.stoppedAll (s : State) : Bool := s.devState = 7

/-- Open a stream. Its SEQUENCE goes on (R20). In SAFE none opens. -/
def State.openStream (s : State) (id : BitVec 16) : State :=
  if s.stoppedAll then s else s.modStream id fun x => { x with opened := true }

/-- Close a stream without a final gap record. -/
def State.closeStream (s : State) (id : BitVec 16) : State := s.modStream id fun x => { x with opened := false }

/-- Present epoch of a region (R32). -/
def State.epoch (s : State) (region : Nat) : Byte := BitVec.ofNat 8 (s.get (REGION_EPOCH_EPOCH region))

/-- Emit a gap record (R30). A final one ends the stream (R31). In SAFE nothing is sent (R38). -/
def State.gap (s : State) (id : BitVec 16) (t : DevTime) (len cause : Nat) (final : Bool := false) : State :=
  (s.ifThen (!s.stoppedAll) fun s => s.emit (.gap ⟨id, t, BitVec.ofNat 48 len, BitVec.ofNat 16 cause, final⟩)).ifThen final
    (fun s => s.closeStream id)

/-- End every open stream with a final gap record of `cause` (R31, R42). -/
def State.endAllStreams (s : State) (cause : Nat) : State :=
  s.each (s.flow.streams.filter fun p => p.2.opened) fun s p =>
    s.gap (BitVec.ofNat 16 p.1) s.now 0 cause true

/-- What a producer gives for a frame. -/
structure FrameSpec where
  region : Nat
  time : DevTime
  format : Nat
  flags : Nat := 0
  excised : Nat := 0
  contrib : Nat := 0
  markers : List Marker := []
  payload : List Byte := []

/-- FLAGS of a frame: the producer's bits, bit 6 when markers are present, bit 7 COASTING at the first payload sample
(Table AC-4, R58). -/
def frameFlags (s : State) (f : FrameSpec) : Byte :=
  BitVec.ofNat 8 (setBits (setBits f.flags 6 6 (if f.markers.isEmpty then 0 else 1)) 7 7
    (if s.coastAt f.time then 1 else 0))

/-- The 32 bytes of a marker (Table AC-7). -/
def markerBytes (m : Marker) : List Byte :=
  [BitVec.ofNat 8 m.type.code, if m.late then 1 else 0] ++ leBytes 2 m.target.toNat ++ leBytes 4 m.offset.toNat
    ++ leBytes 10 m.time.toNat ++ leBytes 8 m.arg.toNat ++ leBytes 4 m.seq.toNat ++ leBytes 2 0

/-- The bytes of a frame (R19): the 32-byte header of Table AC-4, the markers it announces, the payload. -/
def frameBytes (f : Frame) : List Byte :=
  leBytes 2 f.stream.toNat ++ [f.epoch, f.flags] ++ leBytes 4 f.seq.toNat ++ leBytes 10 f.time.toNat
    ++ leBytes 2 f.format.toNat ++ leBytes 4 f.payload.length ++ leBytes 2 f.excised.toNat ++ leBytes 2 f.contrib.toNat
    ++ [BitVec.ofNat 8 f.markers.length, f.source] ++ leBytes 2 0 ++ f.markers.flatMap markerBytes ++ f.payload

/-- A producer completes a frame of `n` of its stream's samples (R20, R30): SEQUENCE rises by 1 for every frame; with a
full output buffer, or while a loss is still to be reported, the frame is discarded and its samples counted; its markers go
into the next frame, before its first sample (R25). A stream that ended (R31) or that the device stopped (R41, R60) has no
frames. -/
def State.sendFrame (s : State) (id : BitVec 16) (n : Nat) (f : FrameSpec) : State :=
  let st := s.stream id
  if s.flow.stopped.contains id.toNat || !st.opened || s.stoppedAll then s
  else if st.full then
    s.modStream id fun x => { x with
      seq := x.seq + 1
      lost := x.lost + n
      lostTime := if x.lost = 0 then f.time else x.lostTime
      markers := x.markers ++ f.markers.map fun m => { m with offset := 0 } }
  else
    let f : FrameSpec := { f with markers := st.markers ++ f.markers }
    (s.emit (.frame {
      stream := id, epoch := s.epoch f.region, flags := frameFlags s f, seq := st.seq, time := f.time
      format := BitVec.ofNat 16 f.format, excised := BitVec.ofNat 16 f.excised
      contrib := BitVec.ofNat 16 f.contrib, source := BitVec.ofNat 8 f.region
      markers := f.markers, payload := f.payload })).modStream id fun x => { x with seq := x.seq + 1, markers := [] }

/-- A frame completed now would leave its producer (R30). -/
def State.delivers (s : State) (id : BitVec 16) : Bool :=
  !(s.flow.stopped.contains id.toNat) && (s.stream id).opened && !s.stoppedAll && !(s.stream id).full

/-- The device stops the open streams that `f` names until it resumes them (R41, R60): each ends with a gap record. -/
def State.stopStreams (s : State) (cause : Nat) (final : Bool) (f : BitVec 16 → Bool) : State :=
  s.each (s.flow.streams.filter fun p => p.2.opened && f (BitVec.ofNat 16 p.1)) fun s p =>
    let s := (s.gap (BitVec.ofNat 16 p.1) s.now 0 cause final).closeStream (BitVec.ofNat 16 p.1)
    { s with flow := { s.flow with stopped := s.flow.stopped ++ [p.1] } }

/-- Resume the stopped streams that `f` names. -/
def State.resumeStreams (s : State) (f : BitVec 16 → Bool) : State :=
  let l := s.flow.stopped.filter fun n => f (BitVec.ofNat 16 n)
  let s : State := { s with flow := { s.flow with stopped := s.flow.stopped.filter fun n => !(f (BitVec.ofNat 16 n)) } }
  s.each l fun s n => s.openStream (BitVec.ofNat 16 n)

/-! ### Markers (R23 to R29) -/

/-- A marker request (R26): refused with the first of 0601h (past), 0602h (less than 100 us ahead) and 0501h (one of the
same type and target pending); otherwise held by the first stage. -/
def State.requestMarker (s : State) (stage : FirstStage) (type : MarkerType) (target : BitVec 16) (t : DevTime)
    (arg : BitVec 64) : State × Nat :=
  if tLt t s.now then (s, 0x0601)
  else if tLt t (tAdd s.now (usTicks 100)) then (s, 0x0602)
  else if s.flow.requests.any (fun q => q.stage = stage && q.type = type && q.target = target) then (s, 0x0501)
  else ({ s with flow := { s.flow with requests := s.flow.requests ++ [⟨stage, type, target, t, arg, false⟩] } }, 0)

/-- Request a marker for a register with REASON field `rf`: a refusal's code goes there; accepted, REASON is 0 and `ok` follows. -/
def State.askMarker (s : State) (rf : Fld) (stage : FirstStage) (type : MarkerType) (target : BitVec 16) (t : DevTime)
    (arg : BitVec 64) (ok : State → State) : State × Nat :=
  let r := s.requestMarker stage type target t arg
  if r.2 != 0 then r.1.answer rf r.2 else (ok (r.1.put rf 0), 0)

/-- Cancel the pending requests of one type for one target. -/
def State.cancelMarker (s : State) (type : MarkerType) (target : BitVec 16) : State :=
  { s with flow := { s.flow with
      requests := s.flow.requests.filter fun q => !(q.type = type && q.target = target) } }

/-- Insert one marker before the sample at index `off` (R24): TIME is the requested time. -/
def State.insertMarker (s : State) (stage : FirstStage) (type : MarkerType) (target : BitVec 16) (t : DevTime)
    (arg : BitVec 64) (late : Bool) (off : Nat) : State :=
  let k := stage.index
  let n := kvGetD s.flow.markerSeq k 0
  let m : Marker := ⟨type, late, target, BitVec.ofNat 32 off, t, arg, n⟩
  ({ s with flow := { s.flow with
      markerSeq := kvPut s.flow.markerSeq k (n + 1)
      frameMarkers := kvPut s.flow.frameMarkers k (kvGetD s.flow.frameMarkers k [] ++ [m]) } } : State).emit (.marker stage m)

/-- The markers that go into a first stage's next frame. -/
def State.frameMarkersOf (s : State) (stage : FirstStage) : List Marker := kvGetD s.flow.frameMarkers stage.index []

/-- The frame took its markers. -/
def State.clearFrameMarkers (s : State) (stage : FirstStage) : State :=
  { s with flow := { s.flow with frameMarkers := kvDel s.flow.frameMarkers stage.index } }

/-! ### Records (R33 to R37) -/

/-- CRC-32C of bytes (reflected polynomial 82F63B78h), used for records, headers and entries. -/
def crcStep (c : Nat) : Nat := if c % 2 = 1 then (c / 2) ^^^ 0x82F63B78 else c / 2

/-- CRC-32C continued over one byte. -/
def crcByte (c b : Nat) : Nat := crcStep (crcStep (crcStep (crcStep (crcStep (crcStep (crcStep (crcStep (c ^^^ b))))))))

/-- CRC-32C of a list of bytes. -/
def crc32c (bs : List Byte) : Nat :=
  (bs.foldl (fun c b => crcByte c b.toNat) 0xFFFFFFFF) ^^^ 0xFFFFFFFF

/-- Bytes 0 to 59 of a record header (Table AC-10). -/
def recHead (r : YRec) : List Byte :=
  [0x59, 0x4E, r.type, 0x01] ++ leBytes 4 r.payload.length ++ leBytes 2 r.stream.toNat ++ leBytes 2 r.hive.toNat
    ++ leBytes 8 r.seq.toNat ++ leBytes 10 r.time.toNat ++ leBytes 2 r.flags.toNat ++ leBytes 2 r.format.toNat
    ++ leBytes 6 r.gapLength.toNat ++ leBytes 2 r.gapCause.toNat ++ leBytes 2 r.contrib.toNat
    ++ leBytes 2 r.excised.toNat ++ [r.epoch] ++ leBytes 13 0

/-- The bytes of a record: header with HEADER_CRC, payload, zero padding to a multiple of 8 (R33). -/
def recBytes (r : YRec) : List Byte :=
  recHead r ++ leBytes 4 (crc32c (recHead r)) ++ r.payload ++ leBytes ((8 - r.payload.length % 8) % 8) 0

/-- Size of a record in bytes. -/
def recSize (r : YRec) : Nat := 64 + (r.payload.length + 7) / 8 * 8

/-- The device's hive address (R37): KH_ADDR.ADDR, 0000h when it has none. -/
def State.hive (s : State) : BitVec 16 := BitVec.ofNat 16 (s.get KH_ADDR_ADDR)

/-- Key of an exit's stream count: exit kind and instance with the stream ID. -/
def exitKey (e : Exit) (inst : Nat) (id : BitVec 16) : Nat :=
  let k := match e with | .dma => 0 | .volume => 1 | .fabric => 2 | .direct => 3
  (k * 65536 + inst) * 65536 + id.toNat

/-- The next SEQUENCE of a stream at an exit (R35). -/
def State.exitSeqOf (s : State) (e : Exit) (inst : Nat) (id : BitVec 16) : BitVec 64 :=
  kvGetD s.flow.exitSeq (exitKey e inst id) 0

/-- An exit opens a stream: its SEQUENCE starts at 0 (R35). -/
def State.exitRestart (s : State) (e : Exit) (inst : Nat) (id : BitVec 16) : State :=
  { s with flow := { s.flow with exitSeq := kvDel s.flow.exitSeq (exitKey e inst id) } }

/-- An exit opens a stream in whichever of its instances forms its records. -/
def State.exitReopen (s : State) (e : Exit) (id : BitVec 16) : State :=
  s.each (upto 64) fun s i => s.exitRestart e i id

/-- Count one record of a stream at an exit (R35). -/
def State.countExit (s : State) (e : Exit) (inst : Nat) (id : BitVec 16) : State :=
  { s with flow := { s.flow with
      exitSeq := kvPut s.flow.exitSeq (exitKey e inst id) (s.exitSeqOf e inst id + 1) } }

/-- The record an exit forms of a frame (R37). -/
def recordOf (s : State) (e : Exit) (inst : Nat) (f : Frame) : YRec where
  type := BitVec.ofNat 8 (f.stream.toNat / 4096)
  stream := f.stream
  hive := s.hive
  seq := s.exitSeqOf e inst f.stream
  time := f.time
  flags := BitVec.ofNat 16 (f.flags.toNat % 64 + (f.flags.toNat / 128) * 128)
  format := f.format
  gapLength := 0
  gapCause := 0
  contrib := f.contrib
  excised := f.excised
  epoch := f.epoch
  payload := f.payload

/-- The record an exit forms of a gap record (R37): TYPE 0Bh, FLAGS bit 0 and bit 8 (FINAL), bit 7 by R58. -/
def recordOfGap (s : State) (e : Exit) (inst : Nat) (region : Nat) (g : GapRec) : YRec where
  type := 0x0B
  stream := g.stream
  hive := s.hive
  seq := s.exitSeqOf e inst g.stream
  time := g.time
  flags := BitVec.ofNat 16 (1 + (if s.coastAt g.time then 128 else 0) + (if g.final then 256 else 0))
  format := 0
  gapLength := g.length
  gapCause := g.cause
  contrib := 0
  excised := 0
  epoch := s.epoch region
  payload := []

/-- An exit emits a record it formed. -/
def State.sendRecord (s : State) (e : Exit) (inst : Nat) (r : YRec) : State :=
  (s.emit (.record e inst r)).countExit e inst r.stream

/-- Epoch a consuming region holds of a stream (R32, R582). -/
def State.heldEpoch (s : State) (region : Nat) (id : BitVec 16) : Byte :=
  kvGetD s.flow.held (region * 65536 + id.toNat) 0

/-- Adopt an epoch of a stream (R582). -/
def State.adoptEpoch (s : State) (region : Nat) (id : BitVec 16) (e : Byte) : State :=
  { s with flow := { s.flow with held := kvPut s.flow.held (region * 65536 + id.toNat) e } }

/-- The consuming region adopts the EPOCH markers that a frame of the stream carries for it (R25, R32, R582). -/
def State.takeEpochs (s : State) (region : Nat) (f : Frame) : State :=
  s.each (f.markers.filter fun m => m.type = .epoch && m.target = f.stream) fun s m =>
    s.adoptEpoch region f.stream (BitVec.ofNat 8 m.arg.toNat)

/-- The frame's epoch is not the one its consumer holds (R32). -/
def State.stale (s : State) (region : Nat) (f : Frame) : Bool := s.heldEpoch region f.stream != f.epoch

/-! ### MSI-X -/

/-- Signal a vector (R478): a masked one sets its pending bit. -/
def State.signal (s : State) (v : Nat) : State :=
  if (kvGetD s.msix.vectors v {}).masked then
    { s with msix := { s.msix with pendingVec := kvPut s.msix.pendingVec v () } }
  else s.emit (.msix v)

end Sys2Proof.Machine
end

