-- ==== Sys2Proof/Machine/Flags.lean ====
section
/-! DEFINITION. Machine/Flags.lean: alarms and the chip-wide status they drive (R548 to R551), the REPLACE criteria (R603,
R604), and the pins they drive. -/

namespace Sys2Proof.Machine

/-- Number of an alarm kind (Table CP-8). -/
def AlarmKind.num : AlarmKind → Nat
  | .fenced => 0 | .reference => 1 | .event => 2 | .link => 3 | .hive => 4 | .memory => 5 | .media => 6
  | .combine => 7 | .display => 8 | .image => 9 | .spare => 10 | .replace => 11 | .thermal => 12
  | .notMasked => 13 | .calibration => 14 | .safe => 15

/-- The kind is a level kind (Table CP-8). -/
def AlarmKind.level : AlarmKind → Bool
  | .reference | .event | .link | .memory | .media | .image | .replace | .thermal | .calibration | .safe => true
  | .fenced | .hive | .combine | .display | .spare | .notMasked => false

/-- The regions, in order. -/
def allRegions : List Nat := [1, 2, 3, 4, 5, 6, 7, 8, 9, 10, 11, 12, 13, 14, 15]

/-- STATUS AND NOT MASK of region k (R550). -/
def State.unmasked (s : State) (k : Nat) : Nat :=
  (s.get (REGION_ALARM_STATUS_ALARMS k)) &&& (0xFFFF - s.get (REGION_ALARM_MASK_MASK k))

/-- OR over all regions of their unmasked alarms (R550). -/
def State.alarmOr (s : State) : Nat := allRegions.foldl (fun a k => a ||| s.unmasked k) 0

/-- Bit k set where region k has an unmasked alarm (Table CP-10). -/
def State.alarmRegions (s : State) : Nat :=
  allRegions.foldl (fun a k => if s.unmasked k = 0 then a else a + 2 ^ k) 0

/-- MSI-X vector of alarm kind a: byte a mod 4 of GLOBAL_ALARM_VEC_(a/4) (Table CP-10). -/
def State.alarmVec (s : State) (a : Nat) : Nat :=
  bits (s.val (GLOBAL_ALARM_VEC (a / 4))) (8 * (a % 4) + 7) (8 * (a % 4))

/-- ALARM_N (R550): low while GLOBAL_ALARM_STATUS is not 0, and in SAFE or while a chip-level fault holds start-up
whatever the masks hold (R591); released in OFF and RESET (R621). REPLACE_N (R604): low while a criterion holds, but
not in OFF and RESET. -/
def State.drivePins (s : State) : State :=
  let off := decide (s.devState ≤ 1)
  { s with power := { s.power with
      alarmN := off || !(s.val GLOBAL_ALARM_STATUS != 0 || s.devState = 7 || s.power.chipHeld)
      replaceN := off || !(s.val ST_FT_REPLACE != 0) } }

/-- Bring GLOBAL_ALARM_STATUS, GLOBAL_ALARM_REGIONS and ALARM_N up to date with the regions (R550), signalling the vector
of each kind whose bit goes from 0 to 1 (R551). -/
def State.updateAlarms (s : State) : State :=
  let old := s.get GLOBAL_ALARM_STATUS_ALARMS
  let new := s.alarmOr
  let s := (s.put GLOBAL_ALARM_STATUS_ALARMS new).put GLOBAL_ALARM_REGIONS_REGIONS s.alarmRegions
  (s.each ((upto 16).filter fun a => bits old a a = 0 && bits new a a = 1) fun s a => s.signal (s.alarmVec a)).drivePins

/-- Key of a kind in a region. -/
def alarmKey (region : Nat) (a : AlarmKind) : Nat := region * 16 + a.num

/-- The 16 bytes of an alarm element (Table CP-9). -/
def alarmBytes (region : Nat) (a : AlarmKind) (h : AlarmHold) : List Byte :=
  leBytes 1 a.num ++ leBytes 1 region ++ leBytes 2 h.reason ++ leBytes 4 h.arg ++ leBytes 4 h.count ++ leBytes 4 0

/-- The steward emits an element as a frame of the ALRM stream C000h + region (R19, R20, R549), which SAFE does not stop. -/
def State.alarmElement (s : State) (region : Nat) (a : AlarmKind) (h : AlarmHold) : State :=
  let id := sid 12 region
  let f : FrameSpec := { region := 1, time := h.time, format := 0x0900 }
  (({ s with alarm := { s.alarm with
      holds := kvPut s.alarm.holds (alarmKey region a) { lastEmit := some s.now } } } : State).emit (.frame {
    stream := id, epoch := s.epoch 1, flags := frameFlags s f, seq := (s.stream id).seq, time := h.time, format := 0x0900
    excised := 0, contrib := 0, source := 1, markers := [], payload := alarmBytes region a h })).modStream id fun x => {
      x with seq := x.seq + 1 }

/-- A raise (R548, R549): bit a of REGION_ALARM_STATUS is set, and an element is emitted, or the raise is held when the
kind's previous element in the region left less than 1 ms ago. -/
def State.raiseAlarm (s : State) (region : Nat) (a : AlarmKind) (arg : Nat := 0) (reason : Nat := 0) : State :=
  let f := REGION_ALARM_STATUS_ALARMS region
  let s := s.put f (s.get f ||| 2 ^ a.num)
  let h := kvGetD s.alarm.holds (alarmKey region a) {}
  let free := match h.lastEmit with
    | none => true
    | some t => decide (h.count = 0) && tLe (tAdd t (usTicks 1000)) s.now
  let s : State := if free then s.alarmElement region a ⟨none, 1, s.now, reason, arg⟩
    else { s with alarm := { s.alarm with
      holds := kvPut s.alarm.holds (alarmKey region a)
        (if h.count = 0 then { h with count := 1, time := s.now, reason := reason, arg := arg }
         else { h with count := h.count + 1 }) } }
  s.updateAlarms

/-- A level condition begins (R548): it is held and its alarm raised. -/
def State.beginLevel (s : State) (region : Nat) (a : AlarmKind) (arg : Nat := 0) (reason : Nat := 0) : State :=
  if s.alarm.conds.any (fun c => c.region = region && c.kind = a && c.arg = arg) then s
  else ({ s with alarm := { s.alarm with conds := s.alarm.conds ++ [⟨region, a, arg, reason⟩] } } : State).raiseAlarm
    region a arg reason

/-- A level condition ends. The alarm bit stays until it is cleared (W1C). -/
def State.endLevel (s : State) (region : Nat) (a : AlarmKind) (arg : Nat := 0) : State :=
  { s with alarm := { s.alarm with
      conds := s.alarm.conds.filter fun c => !(c.region = region && c.kind = a && c.arg = arg) } }

/-- A REPLACE criterion's bit set or cleared (R603, R604): REPLACE_N, GLOBAL_HEALTH bit 0 and the level alarm follow
ST_FT_REPLACE. -/
def State.setReplace (s : State) (bit : Nat) (on : Bool) : State :=
  let old := s.get ST_FT_REPLACE_CAUSES
  let new := setBits old bit bit (if on then 1 else 0)
  let s := s.put ST_FT_REPLACE_CAUSES new
  let h := s.get GLOBAL_HEALTH_HEALTH
  let s := s.put GLOBAL_HEALTH_HEALTH (setBits h 0 0 (if new = 0 then 0 else 1))
  (if old = 0 && new != 0 then s.beginLevel 1 .replace
   else if old != 0 && new = 0 then s.endLevel 1 .replace else s).drivePins

/-- REPLACE criterion 1 (Table FT-5): in some region FREE is below THRESHOLD. -/
def State.spareShort (s : State) : Bool :=
  allRegions.any fun k => !(absentRegion s.variant k) &&
    decide (s.get (REGION_SPARES_FREE k) < s.get (REGION_SPARES_THRESHOLD k))

/-- Bring criterion 1 up to date. -/
def State.checkSpares (s : State) : State := s.setReplace 1 s.spareShort

end Sys2Proof.Machine
end

