-- ==== Sys2Proof/Machine/Blocks.lean ====
section
/-! DEFINITION. Machine/Blocks.lean: physical blocks, duties and spares (R579, R580, Table FT-1). -/

namespace Sys2Proof.Machine

/-- Blocks of one kind in a region: duties lo to hi, then `spN` spares from `spLo`; whether patrol tests them by rotation
(R596). -/
structure BlkKind where
  lo : Nat
  hi : Nat
  spLo : Nat
  spN : Nat
  rot : Bool
  deriving DecidableEq, Repr

/-- The kinds of blocks of region k (Table FT-1). -/
def blkKinds (k : Nat) : List BlkKind :=
  if k = 1 then [⟨0, 0, 0, 0, false⟩, ⟨1, 1, 0, 0, false⟩, ⟨2, 2, 0, 0, false⟩, ⟨8, 8, 9, 1, false⟩]
  else if k ≤ 5 then [⟨0, 3, 4, 1, false⟩, ⟨8, 8, 9, 1, false⟩]
  else if k ≤ 9 then [⟨0, 3, 4, 1, true⟩, ⟨8, 11, 12, 1, true⟩, ⟨16, 17, 18, 1, true⟩, ⟨24, 24, 25, 1, false⟩]
  else if k = 10 then [⟨0, 15, 16, 1, true⟩, ⟨20, 23, 24, 1, true⟩, ⟨28, 28, 29, 1, false⟩]
  else if k = 11 then [⟨0, 15, 16, 1, true⟩, ⟨20, 20, 21, 1, false⟩]
  else if k = 12 then [⟨0, 7, 8, 1, true⟩, ⟨16, 47, 0, 0, false⟩, ⟨52, 52, 53, 1, false⟩]
  else if k ≤ 14 then [⟨0, 63, 64, 4, false⟩, ⟨72, 72, 73, 1, false⟩]
  else [⟨0, 7, 8, 1, true⟩, ⟨16, 17, 0, 0, false⟩, ⟨20, 20, 0, 0, false⟩, ⟨24, 24, 25, 1, false⟩]

/-- b is a spare of kind g; b belongs to kind g. -/
def BlkKind.spare (g : BlkKind) (b : Nat) : Bool := decide (g.spLo ≤ b) && decide (b < g.spLo + g.spN)
def BlkKind.has (g : BlkKind) (b : Nat) : Bool := (decide (g.lo ≤ b) && decide (b ≤ g.hi)) || g.spare b

/-- The kind of block b of region k. -/
def kindOf (k b : Nat) : Option BlkKind := (blkKinds k).find? fun g => g.has b

/-- Every block of the kind, in index order. -/
def BlkKind.all (g : BlkKind) : List Nat :=
  ((upto (g.hi + 1 - g.lo)).map (g.lo + ·)) ++ (upto g.spN).map (g.spLo + ·)

/-- Index of the region's DCO. -/
def dcoOf (k : Nat) : Nat :=
  if k = 1 then 8 else if k ≤ 5 then 8 else if k ≤ 9 then 24 else if k = 10 then 28 else if k = 11 then 20
  else if k = 12 then 52 else if k ≤ 14 then 72 else 24

/-- A block at start: it serves its own duty, or is a free spare. -/
def blkStart (k b : Nat) : Blk :=
  match kindOf k b with
  | none => ⟨.absent, none⟩
  | some g => if g.spare b then ⟨.freeSpare, none⟩ else ⟨.serving, some b⟩

/-- Faults and repair in region k. -/
def State.ftr (s : State) (k : Nat) : FtRegion := kvGetD s.ft.regions k {}

/-- Change them. -/
def State.modFt (s : State) (k : Nat) (f : FtRegion → FtRegion) : State :=
  { s with ft := { s.ft with regions := kvMod {} s.ft.regions k f } }

/-- Block b of region k. -/
def State.blk (s : State) (k b : Nat) : Blk :=
  if absentRegion s.variant k then ⟨.absent, none⟩ else kvGetD (s.ftr k).blocks b (blkStart k b)

/-- Set a block's state. -/
def State.setBlk (s : State) (k b : Nat) (x : Blk) : State :=
  s.modFt k fun r => { r with blocks := kvSetD (blkStart k b) r.blocks b x }

/-- Block b serves duty d. -/
def Blk.serves (x : Blk) (d : Nat) : Bool := (x.state = .serving || x.state = .standingIn) && x.duty = some d

/-- The block that serves duty d of region k (R579). -/
def State.server (s : State) (k d : Nat) : Option Nat :=
  match kindOf k d with
  | none => none
  | some g => g.all.find? fun b => (s.blk k b).serves d

/-- Duty d of region k is served by a block that has not failed, and no takeover of it runs. -/
def State.dutyUp (s : State) (k d : Nat) : Bool :=
  let r := s.ftr k
  (match s.server k d with
    | some b => !(r.waiting.contains b)
    | none => false) && (match r.takeover with
    | some t => t.duty != d
    | none => true)

/-- Code of a block state (Table FT-6). -/
def BlkState.code : BlkState → Nat
  | .serving => 0 | .freeSpare => 1 | .standingIn => 2 | .underPatrol => 3 | .quarantined => 4 | .absent => 5

/-- The word FT_BLK_STATE shows of block b (Table FT-6). -/
def State.blkWord (s : State) (k b : Nat) : Nat :=
  let x := s.blk k b
  (x.duty.getD 255) * 256 + x.state.code

/-- The region and duty that the enable bit of a register starts (R579, R589): inputs, broad and zoom paths, detection and
trigger units, beams, DMA channels, display heads, event channels. Which of two or more like duties serves an integrator,
a plane, a trigger unit, a beam or a channel the spec does not say: by index (assumption 16). -/
def dutyAt (a : Nat) : Option (Nat × Nat) :=
  match findReg a with
  | none => none
  | some (r, w, i, _) =>
    match r.name with
    | .AF_IN_CTL => some (w, i)
    | .BT_CTL => some (w, i)
    | .ZP_CTL => some (w, 8 + i / 4)
    | .DC_INT_CTL => some (w, 16 + i % 2)
    | .DC_PL_CTL => some (w, 16 + i % 2)
    | .TG_U_CTL => if w = 1 then some (1, 1) else some (w, 16 + i % 2)
    | .CE_BM_CTL => some (10, 20 + i % 4)
    | .DMA_CTL => some (15, i % 8)
    | .DS_CTL => some (15, 16 + i)
    | .ST_ET_CTL => some (1, 1)
    | _ => none

/-- The register's duty has no block that serves it: an enable is refused with 080Eh (R589). -/
def State.dutyDead (s : State) (a : Nat) : Bool :=
  match dutyAt a with
  | none => false
  | some (k, d) => (s.server k d).isNone && !(absentRegion s.variant k)

end Sys2Proof.Machine
end

