-- ==== Sys2Proof/Machine/Operands.lean ====
section
/-! DEFINITION. Machine/Operands.lean: how a management access names a register and whether it may touch it: paths and
domains (R524, R528), the page map (R529, R530), absent, lost and unready regions (R2, R547, R595), refusal slots
(R534), access codes (R10). -/

namespace Sys2Proof.Machine

/-- Domains (R528), in rank order: 0 NONE, 1 OBSERVER, 2 OPERATOR, 3 CUSTODIAN. Accessor 5 is the setup record, which acts as
CUSTODIAN (R541). -/
def State.domain (s : State) (p : Nat) : Nat :=
  if 4 ≤ p then 3
  else if p = 1 && s.devState = 2 then 3
  else if p = 3 && s.power.debugFuse then 0
  else bits s.prot.active.pathDomain.toNat (2 * p + 1) (2 * p)

/-- The path answers in the present device state (Table CP-1; R40, R591). -/
def State.answers (s : State) (p : Nat) : Bool :=
  let d := s.devState
  if s.power.chipHeld then p = 1 && decide (2 ≤ d)
  else match p with
    | 0 => d = 5 || d = 6 || d = 7 || (d = 4 && s.on HS_PCIE_STATUS_UP)
    | 1 => decide (2 ≤ d)
    | 2 => decide (4 ≤ d)
    | 3 => decide (2 ≤ d)
    | _ => d = 2

/-- Window and offset of a management address (R545). -/
def winOf (a : Nat) : Nat := a / 0x100000
def offOf (a : Nat) : Nat := a % 0x100000

/-- The page-map entry in force that governs an address (R529). -/
def ProtSet.page (m : ProtSet) (a : Nat) : Nat := (kvGetD m.pages (a / 4096) 9).toNat

/-- READ_MIN and WRITE_MIN of an entry. -/
def readMin (e : Nat) : Nat := e % 4
def writeMin (e : Nat) : Nat := e / 4 % 4

/-- The address is a protection register: window 0, 0400h to 0FFFh (R530). -/
def isProt (a : Nat) : Bool := decide (0x400 ≤ a) && decide (a < 0x1000)

/-- Record a refusal in the path's slot of the window (R534). -/
def State.recordRefusal (s : State) (p a : Nat) (write : Bool) (code : Nat) : State :=
  let k := winOf a
  let o := offOf a + (if write then 2 ^ 31 else 0)
  if k = 0 then
    ((s.put (GLOBAL_REFUSAL_REASON p) code).countF (GLOBAL_REFUSAL_COUNT p) 1).setVal (GLOBAL_REFUSAL_OFFS p) o
  else
    ((s.put (REGION_REFUSAL_REASON k p) code).countF (REGION_REFUSAL_COUNT k p) 1).setVal (REGION_REFUSAL_OFFS k p) o

/-- REGION_STATE.STATE of region k. -/
def State.regionState (s : State) (k : Nat) : Nat := s.get (REGION_STATE_STATE k)

/-- Region k is lost (R547, R590). -/
def State.lost (s : State) (k : Nat) : Bool := decide (1 ≤ k) && s.regionState k = 6

/-- What region k's island does with `f` (R47, R590, R646): while its clock is gated, or once the region is lost, nothing moves. -/
def State.inIsland (s : State) (k : Nat) (f : State → State) : State := if s.gated k || s.lost k then s else f s

/-- Region k is not yet READY (R595, R643): windows 2 to 15. -/
def State.unready (s : State) (k : Nat) : Bool := decide (2 ≤ k) && decide (s.regionState k < 4)

/-- The MSI-X table lies at window 15 offset 8_0000h with its pending bits at 8_1000h (Table DQ-1): per vector the words of
PCI Express, message address low and high, data, and a vector control whose bit 0 masks (assumption 29). -/
def isMsix (a : Nat) : Bool := decide (0xF80000 ≤ a) && decide (a < 0xF81000)
def isMsixPending (a : Nat) : Bool := decide (0xF81000 ≤ a) && decide (a < 0xF81020)

/-- A location with no register: an access there is no refusal (R9, R534). -/
def noRegister (a : Nat) : Bool := (findReg a).isNone && !(isMsix a) && !(isMsixPending a)

/-- Why a write at `a` is refused whatever the register (R529, R530, R547, R595); 0 when it is not. -/
def State.judgeWrite (s : State) (p a : Nat) : Nat :=
  let d := s.domain p
  if noRegister a then 0
  else if isProt a then (if d = 3 then 0 else 0x0402)
  else if d < writeMin (s.prot.active.page a) || d = 0 then 0x0401
  else if s.lost (winOf a) then 0x0801
  else if s.unready (winOf a) && decide (0x100 ≤ offOf a) then 0x070E
  else 0

/-- Why a read at `a` is refused (R528, R529); 0 when it is not. -/
def State.judgeRead (s : State) (p a : Nat) : Nat :=
  let d := s.domain p
  if noRegister a then 0
  else if d = 0 then (if a = GLOBAL_IDENT || a = GLOBAL_WHOAMI then 0 else 0x0403)
  else if d < readMin (s.prot.active.page a) then 0x0403
  else 0

/-- What one bit-mask pass of a write leaves in a register (R10, Table SC-4): RW and LK bits take the value, W1C bits
clear, W1S bits set, all others stay; WO bits hold nothing. -/
def writeWord (r : RegRow) (old v : Nat) : Nat :=
  let keep := old &&& (0xFFFFFFFF - (r.rw ||| r.w1c ||| r.w1s))
  keep ||| (v &&& r.rw) ||| ((old &&& r.w1c) &&& (0xFFFFFFFF - (v &&& r.w1c))) ||| ((old ||| v) &&& r.w1s)

/-- A write's effect on the register alone (R10). -/
def State.plainWrite (s : State) (a v : Nat) : State :=
  match findReg a with
  | some (r, _, _, _) => s.setVal a (writeWord r (s.val a) v)
  | none => s

/-- The RW and LK bits that a write of `v` would change (R194 and its like: "a write that changes an LK field"). -/
def State.changes (s : State) (a v : Nat) : Nat :=
  match findReg a with
  | some (r, _, _, _) => (s.val a ^^^ v) &&& r.rw
  | none => 0

/-- A management write on path `p` at address `a` (R8, R9, R529, R534): `h` is the register's own effect, with the reason
code of a refusal (0 when accepted). -/
def State.gatedWrite (s : State) (p a : Nat) (h : State → State × Nat) : State :=
  if !(s.answers p) || a % 4 != 0 || absentRegion s.variant (winOf a) then s
  else
    let c := s.judgeWrite p a
    if c != 0 then s.recordRefusal p a true c
    else
      let r := h s
      if r.2 = 0 then r.1 else r.1.recordRefusal p a true r.2

/-- A management read on path `p` at address `a` (R8, R9, R529): `h` gives the value and the read's side effects. The
answer is the value returned. -/
def State.gatedRead (s : State) (p a : Nat) (h : State → State × Word) : State × Word :=
  if !(s.answers p) || a % 4 != 0 || absentRegion s.variant (winOf a) then (s, 0)
  else
    let c := s.judgeRead p a
    if c != 0 then (s.recordRefusal p a false c, 0)
    else if s.lost (winOf a) && !(offOf a = 0 || offOf a = 4) then (s, 0)
    else if s.unready (winOf a) && decide (0x100 ≤ offOf a) then (s, 0)
    else h s

/-- The read of a register with no side effect but RC (R10): the value, WO bits as 0, and RC bits cleared. -/
def State.plainRead (s : State) (a : Nat) : State × Word :=
  match findReg a with
  | none => (s, 0)
  | some (r, _, _, _) =>
    let v := s.val a
    let out := BitVec.ofNat 32 (v &&& (0xFFFFFFFF - r.wo))
    if r.rc = 0 then (s, out) else (s.setVal a (v &&& (0xFFFFFFFF - r.rc)), out)

/-- A read on a path that answers: the value (or the refusal's code) goes back on the path. -/
def State.readOut (s : State) (p a : Nat) (h : State → State × Word) : State :=
  if s.answers p then
    let r := s.gatedRead p a h
    r.1.emit (.answer p a r.2 (s.judgeRead p a))
  else s

/-- The first failing check of a list, in order (R539): 0 when none fails. -/
def firstFail : List (Bool × Nat) → Nat
  | [] => 0
  | (bad, code) :: t => if bad then code else firstFail t

/-- A write to a control register whose bit 0 is ENABLE (R539): `lk` judges a change of the other LK fields, `check` runs
on a change from 0 to 1 (after the check of R589 that a block serves the duty), `start` and `stop` are what the change
sets off; `f` is the ENABLE field and `rf` REASON. -/
def State.enableWrite (s : State) (a v : Nat) (f rf : Fld) (lk : State → Nat) (check : State → Nat)
    (start stop : State → State) : State × Nat :=
  let now := s.on f
  let new := decide (bits v 0 0 = 1)
  let chg := s.changes a v
  let l := if chg / 2 * 2 = 0 then 0 else lk s
  if l != 0 then s.answer rf l
  else
    let s1 := s.plainWrite a (v / 2 * 2 + (if now then 1 else 0))
    if !now && new then
      let c := if s.dutyDead a then 0x080E else check s1
      if c = 0 then (start ((s1.put f 1).put rf 0), 0) else s1.answer rf c
    else if now && !new then (stop (s1.put f 0), 0)
    else (s1, 0)

end Sys2Proof.Machine
end

