-- ==== Sys2Proof/Machine/Loss.lean ====
section
/-! DEFINITION. Machine/Loss.lean: unmasked faults and lost regions (R31, R589, R590), with the streams they end. -/

namespace Sys2Proof.Machine

/-- The SP region whose enabled integrator emits SPEC instance `n` (R22: assigned by the setup record). -/
def State.specRegion (s : State) (n : Nat) : Nat :=
  ([6, 7, 8, 9].find? fun r => (upto 16).any fun i =>
    s.on (DC_INT_CTL_ENABLE r i) && s.get (DC_INT_ID_SPEC_ID r i) = n).getD 6

/-- The input a stream is derived from, or the broad or zoom source of an integrator or a plane of SP region r: KIND and
INDEX of its source register. -/
def State.sourceInput (s : State) (r kind index : Nat) : Nat :=
  if kind = 0 then 4 * (r - 6) + index % 4 else 4 * (r - 6) + s.get (ZP_ZTU_SLOT_PATH r index) / 4

/-- The inputs of this device that stream `id` is derived from (R22): a plane of KIND 0 takes those its SEL names, a pair its two, a
beam those of its mask. -/
def State.inputsOf (s : State) (id : BitVec 16) : List Nat :=
  let n := id.toNat % 4096
  match id.toNat / 4096 with
  | 0 => [n]
  | 1 => [n / 4]
  | 2 => [n]
  | 3 =>
    let r := s.specRegion n
    (((upto 16).find? fun i => s.on (DC_INT_CTL_ENABLE r i) && s.get (DC_INT_ID_SPEC_ID r i) = n).map fun i =>
      s.sourceInput r (s.get (DC_INT_SRC_KIND r i)) (s.get (DC_INT_SRC_INDEX r i))).toList
  | 4 =>
    let r := 6 + n / 4
    let sel := s.get (DC_PL_SRC_SEL r (n % 4))
    if s.get (DC_PL_SRC_KIND r (n % 4)) = 0 then ((upto 4).filter fun i => bits sel i i = 1).map fun i => 4 * (n / 4) + i
    else [s.sourceInput r 1 sel]
  | 5 => [s.get (CE_XP_SEL_A n), s.get (CE_XP_SEL_B n)].filter fun x => decide (x < 16)
  | 6 => (upto 16).filter fun i => bits (s.get (CE_BM_INPUTS_MASK n)) i i = 1
  | _ => []

/-- The regions a stream is produced in or passes through before it leaves its producer (R22, R589, Table FT-3): the
producing region first. -/
def State.streamPath (s : State) (id : BitVec 16) : List Nat :=
  let k := id.toNat / 4096
  let n := id.toNat % 4096
  match k with
  | 0 => [2 + n / 4, 6 + n / 4]
  | 1 => [6 + n / 16, 2 + n / 16]
  | 2 => [6 + n / 4, 2 + n / 4]
  | 3 => let r := s.specRegion n; [r, r - 4]
  | 4 => [6 + n / 4, 2 + n / 4]
  | 5 => 10 :: (s.inputsOf id).flatMap fun x => [6 + x / 4, 2 + x / 4]
  | 6 => 10 :: (s.inputsOf id).flatMap fun x => [6 + x / 4, 2 + x / 4]
  | 7 => [1]
  | 8 => if n % 8 < 4 then [6 + n % 8] else [1]
  | 9 => [11]
  | 10 => [11]
  | 12 => [1]
  | _ => [15]

/-- The region that produces a stream. -/
def State.streamRegion (s : State) (id : BitVec 16) : Nat := (s.streamPath id).headD 1

/-- End the open streams among those `f` names, with final gap records of `cause` (R31). -/
def State.endStreams (s : State) (cause : Nat) (f : BitVec 16 → Bool) : State :=
  s.each (s.flow.streams.filter fun p => p.2.opened && f (BitVec.ofNat 16 p.1)) fun s p =>
    s.gap (BitVec.ofNat 16 p.1) s.now 0 cause true

/-- Stream `id` is a stream of duty d of region k (R200, Table FT-3): for an input, a pipeline or a zoom datapath every stream
derived from it, for a channel scheduler every stream through capture memory; which datapath, product block or adder serves what is
by index (assumption 16). -/
def State.dutyHas (s : State) (k d : Nat) (id : BitVec 16) : Bool :=
  let c := id.toNat / 4096
  let n := id.toNat % 4096
  if k = 1 then d = 1 && (c = 7 || (c = 8 && n % 8 = 4))
  else if k ≤ 5 then (s.inputsOf id).contains (4 * (k - 2) + d)
  else if k ≤ 9 then
    let mine := (s.inputsOf id).any fun m => decide (m / 4 = k - 6)
    if d ≤ 3 then
      (s.inputsOf id).contains (4 * (k - 6) + d) && (c = 2 || c = 5 || c = 6 || ((c = 3 && (upto 16).any fun i =>
          s.on (DC_INT_CTL_ENABLE k i) && s.get (DC_INT_ID_SPEC_ID k i) = n && s.get (DC_INT_SRC_KIND k i) = 0)
        || (c = 4 && s.get (DC_PL_SRC_KIND k (n % 4)) = 0)))
    else if d ≤ 11 then
      (s.inputsOf id).contains (4 * (k - 6) + d - 8) && (c = 1 || ((c = 3 && (upto 16).any fun i =>
          s.on (DC_INT_CTL_ENABLE k i) && s.get (DC_INT_ID_SPEC_ID k i) = n && s.get (DC_INT_SRC_KIND k i) = 1)
        || (c = 4 && s.get (DC_PL_SRC_KIND k (n % 4)) = 1)))
    else mine && ((c = 3 && (upto 16).any fun i => s.on (DC_INT_CTL_ENABLE k i) && s.get (DC_INT_ID_SPEC_ID k i) = n
        && i % 2 = d % 2) || (c = 4 && n % 2 = d % 2)) || (c = 8 && n % 8 = k - 6)
  else if k = 10 then (if d ≤ 15 then c = 5 && n % 16 = d else c = 6 && n % 4 = d - 20)
  else k = 11 && decide (d ≤ 15) && (c = 9 || c = 10)

/-- A region is lost (R590): STATE LOST with CAUSE 080Fh, its bit of GLOBAL_HEALTH.LOST, HEALTH bit 6, every stream
produced in or passing through it ended with a final gap record of cause 00FFh, NOT_MASKED raised (R589), and REPLACE
criterion 0. Region ST is never lost. -/
def State.regionLost (s : State) (k : Nat) : State :=
  if k = 0 || k = 1 || s.lost k || absentRegion s.variant k then s
  else
    let s := (s.put (REGION_STATE_STATE k) 6).put (REGION_STATE_CAUSE k) 0x080F
    let s := s.put GLOBAL_HEALTH_LOST (s.get GLOBAL_HEALTH_LOST ||| 2 ^ k)
    let s := s.put GLOBAL_HEALTH_HEALTH (s.get GLOBAL_HEALTH_HEALTH ||| 64)
    let s := s.endStreams 0xFF fun id => (s.streamPath id).contains k
    let s : State := { s with flow := { s.flow with ports := s.flow.ports.filter fun p => p.1 / 65536 % 16 != k } }
    (s.raiseAlarm k .notMasked 0xFFFFFFFF 0x080F).setReplace 0 true

/-- A fault the device does not mask (R589): the streams of the duty end with final gap records of cause 00FFh, and the
region raises NOT_MASKED with the block index. -/
def State.notMasked (s : State) (region block : Nat) (streams : List (BitVec 16)) (reason : Nat := 0) : State :=
  (s.endStreams 0xFF fun id => streams.contains id).raiseAlarm region .notMasked block reason

/-! ### Takeover (R577, R581, R585, R598, R599, R606) -/

/-- An entry of FT_LOG (R606): the oldest is overwritten once 64 are held. -/
def State.ftLog (s : State) (k : Nat) (e : FtLog) : State :=
  s.modFt k fun r => { r with log := kvPut r.log (r.logged % 64) e, logged := r.logged + 1 }

/-- Result registers of a completed or ended test: 1 PASS, 2 FAIL, 3 INCOMPLETE (Table FT-6). -/
def State.testResult (s : State) (k b verdict logged applied : Nat) : State :=
  (((s.put (REGION_BIST_RESULT_BLOCK k) b).put (REGION_BIST_RESULT_VERDICT k) verdict).put
    (REGION_BIST_RESULT_LOGGED k) logged).setVal (REGION_BIST_COUNT k) applied

/-- The next epoch of region k (R32): 01h to FFh, then 01h. -/
def State.nextEpoch (s : State) (k : Nat) : State :=
  let e := s.get (REGION_EPOCH_EPOCH k)
  s.put (REGION_EPOCH_EPOCH k) (if e = 255 then 1 else e + 1)

/-- The region controller places an EPOCH marker in stream `id`, before its next frame (R582). Consumers of that stream adopt the
epoch, so TARGET is the stream; MARKER_SEQ counts the stream's EPOCH markers (DESIGN CHOICE, assumption 54). -/
def State.epochMark (s : State) (k : Nat) (id : BitVec 16) : State :=
  let key := 256 + id.toNat
  let n := kvGetD s.flow.markerSeq key 0
  let m : Marker := ⟨.epoch, false, id, 0, s.now, BitVec.ofNat 64 (s.epoch k).toNat, n⟩
  (({ s with flow := { s.flow with markerSeq := kvPut s.flow.markerSeq key (n + 1) } } : State).modStream id fun x =>
    { x with markers := x.markers ++ [m] }).emit (.epochMarker id (s.epoch k))

/-- EPOCH markers at the output gates of the open streams of region k that `f` names (R582). -/
def State.epochMarkers (s : State) (k : Nat) (f : BitVec 16 → Bool) : State :=
  s.each (s.flow.streams.filter fun p => p.2.opened && s.streamRegion (BitVec.ofNat 16 p.1) = k && f (BitVec.ofNat 16 p.1))
    fun s p => s.epochMark k (BitVec.ofNat 16 p.1)

/-- A free spare is used up or quarantined: FREE falls by 1, SPARE is raised, criterion 1 of Table FT-5 follows. -/
def State.spareGone (s : State) (k b : Nat) : State :=
  ((s.put (REGION_SPARES_FREE k) (s.get (REGION_SPARES_FREE k) - 1)).raiseAlarm k .spare b 0x080E).checkSpares

/-- The patrol test of the kind of block b ends INCOMPLETE, and its block takes the failed duty (R598). The counts of the
test are the device's own figures (assumption 17). -/
def State.patrolCut (s : State) (k : Nat) (g : BlkKind) : Option (Nat × State) :=
  match (s.ftr k).patrol with
  | none => none
  | some t =>
    if !(g.has t.block) then none
    else
      let want := (Config.patternCount k t.block).toNat
      let got := if want = 0 then 0 else s.freeNow % want
      let s := (s.useFree.testResult k t.block 3 1 got).ftLog k ⟨t.block, 255, 3, 1, 255, 0, got, want⟩
      let s := match t.standIn with
        | some sp => s.setBlk k sp ⟨.serving, (s.blk k sp).duty⟩
        | none => s
      some (t.block, s.modFt k fun r => { r with
        patrol := none
        patrolOwed := if t.standIn.isSome then r.patrolOwed ++ [t.block] else r.patrolOwed })

/-- The block that takes over for a block of kind g: the lowest-indexed free spare (Table FT-2), else the block under
patrol (R598). -/
def State.pickSpare (s : State) (k : Nat) (g : BlkKind) : Option (Nat × State) :=
  match g.all.find? fun b => (s.blk k b).state = .freeSpare with
  | some b => some (b, s)
  | none => s.patrolCut k g

/-- Steps 2 and 3 of Table FT-2 for block b, which served duty d; or, with no spare, a fault that is not masked (R589), a
lost region where the block is its DCO (R590). -/
def State.takeoverStart (s : State) (k b : Nat) (g : BlkKind) (d : Nat) : State :=
  match s.pickSpare k g with
  | some (sp, s) =>
    let s := (s.setBlk k b ⟨.quarantined, none⟩).setBlk k sp ⟨.serving, some d⟩
    let s := s.modFt k fun r => { r with takeover := some ⟨b, sp, d, s.now⟩ }
    let s := s.nextEpoch k
    s.epochMarkers k fun id => !(s.dutyHas k d id)
  | none =>
    let s := s.setBlk k b ⟨.quarantined, none⟩
    if d = dcoOf k then s.regionLost k
    else (s.endStreams 0xFF fun id => s.dutyHas k d id).raiseAlarm k .notMasked b 0x080E

/-- A block under test fails a check of its own: its test ends INCOMPLETE and its stand-in keeps the duty (DEDUCED from R598 and R599,
assumption 63). -/
def State.testFault (s : State) (k b : Nat) (g : BlkKind) : State :=
  match s.patrolCut k g with
  | some (_, s) => s.modFt k fun r => { r with patrolOwed := r.patrolOwed.filter (· != b) }
  | none => s

/-- The fault of block b is acted on (R581, R599): a spare that serves nothing is only quarantined. -/
def State.faultStart (s : State) (k b : Nat) (g : BlkKind) : State :=
  let x := s.blk k b
  match x.state with
  | .quarantined | .absent => s
  | .freeSpare => (s.setBlk k b ⟨.quarantined, none⟩).spareGone k b
  | .underPatrol => ((s.testFault k b g).setBlk k b ⟨.quarantined, none⟩).spareGone k b
  | .serving | .standingIn => s.takeoverStart k b g (x.duty.getD b)

/-- A block's check fails (R581, R585, R599): `array`, `addr` and `bit` say where (FFh, 0 and FFh for logic). A fault that
comes while a takeover runs in the region waits until that takeover ends. -/
def State.blockFail (s : State) (k b array addr bit : Nat) : State :=
  if absentRegion s.variant k || s.lost k then s
  else match kindOf k b with
    | none => s
    | some g =>
      let dead := match (s.blk k b).state with
        | .quarantined | .absent => true
        | _ => false
      if dead || (s.ftr k).waiting.contains b then s
      else
        let s := s.ftLog k ⟨b, array, 2, 3, bit, addr, 0, 0⟩
        if (s.ftr k).takeover.isSome then s.modFt k fun r => { r with waiting := r.waiting ++ [b] }
        else s.faultStart k b g

end Sys2Proof.Machine
end

