-- ==== Sys2Proof/Machine/CapMem.lean ====
section
/-! DEFINITION. Machine/CapMem.lean: the capture memory controller (chapter 13, R389 to R419, R647): the address map,
allocation and bandwidth, requests and their queues, refresh, self-refresh, ECC, lost channels. -/

namespace Sys2Proof.Machine

/-! ### Cells -/

/-- The byte of capture memory at an address; a byte never written reads as 0 (R647). -/
def memByte (m : List Host.Cell) (a : Nat) : Byte := kvGetD m a 0

/-- Write one byte, keeping the canonical form. -/
def memPut (m : List Host.Cell) (a : Nat) (b : Byte) : List Host.Cell := kvSetD 0 m a b

/-- Write bytes at rising addresses. -/
def memPutAll : List Host.Cell → Nat → List Byte → List Host.Cell
  | m, _, [] => m
  | m, a, b :: t => memPutAll (memPut m a b) (a + 1) t

/-- Read `n` bytes. -/
def memBytes (m : List Host.Cell) (a n : Nat) : List Byte := (upto n).map fun k => memByte m (a + k)

/-- Sectors (32 bytes, R396) that a byte range touches. -/
def sectors (a n : Nat) : List Nat :=
  if n = 0 then [] else (upto ((a + n - 1) / 32 - a / 32 + 1)).map fun k => a / 32 + k

/-! ### Configuration -/

/-- Data rate in MT/s of CM_CFG.RATE (Table CM-4). -/
def cmRate (code : Nat) : Nat :=
  match code with | 0 => 6400 | 1 => 7500 | 2 => 8533 | 3 => 9600 | _ => 10667

/-- Populated channels N (R390). -/
def State.cmN (s : State) : Nat := 2 ^ s.get CM_CFG_CH_LOG

/-- Data bytes per row D (R391). -/
def State.cmD (s : State) : Nat := if s.on CM_CFG_ECC then 1920 else 2048

/-- Grain G in bytes (R392). -/
def State.cmG (s : State) : Nat := 256 * 2 ^ s.get CM_CFG_GRAIN_LOG

/-- XOR of the first `k` groups of `n` bits of `l` (R392). -/
def foldGroups (n l : Nat) : Nat → Nat
  | 0 => 0
  | k + 1 => (l / 2 ^ (n * k)) % 2 ^ n ^^^ foldGroups n l k

/-- The channel of a capture-memory address (R392). -/
def State.cmChannel (s : State) (a : Nat) : Nat :=
  let n := s.get CM_CFG_CH_LOG
  let l := a / s.cmG
  if n = 0 then 0
  else if s.on CM_CFG_HASH then foldGroups n l (24 / n + 1)
  else l % 2 ^ n

/-- The channel offset of an address (R392). -/
def State.cmOffset (s : State) (a : Nat) : Nat := (a / s.cmG) / s.cmN * s.cmG + a % s.cmG

/-- Bank (0 to 15), row and rank of a channel offset (R393). -/
def State.cmBank (s : State) (o : Nat) : Nat × Nat × Nat :=
  let p := o / s.cmD
  let rb := match s.cm.geom with | some g => g.rows | none => 1
  (p % 16, p / 16 % rb, p / (16 * rb))

/-- Size of the address space in bytes (R391). -/
def State.cmSize (s : State) : Nat := s.val CM_SIZE_MIB * 2 ^ 20

/-- A channel's state. -/
def State.chan (s : State) (c : Nat) : CmChan := kvGetD s.cm.chans c {}

/-- Change a channel's state. -/
def State.modChan (s : State) (c : Nat) (f : CmChan → CmChan) : State :=
  { s with cm := { s.cm with chans := kvMod {} s.cm.chans c f } }

/-- One controller clock in ps: the MEM island clock is the data rate / 8 (R389). -/
def State.cmClockPs (s : State) : Nat := 8000000 / cmRate (s.get CM_CFG_RATE)

/-- Clocks in `ps`, rounded up: ps / (8 * 10^6 / rate) (R389, R406). -/
def State.cmClocks (s : State) (ps : Nat) : Nat := ceilDiv (ps * cmRate (s.get CM_CFG_RATE)) 8000000

/-- The wake bound in ns, rounded up: t_XSR plus 60 clocks (R408). -/
def State.wakeBoundNs (s : State) : Nat :=
  match s.cm.geom with
  | some g => ceilDiv (g.txsr * cmRate (s.get CM_CFG_RATE) + 480000000) (1000 * cmRate (s.get CM_CFG_RATE))
  | none => 0

/-! ### Allocation and traffic (R394, R395) -/

/-- The kind is kept in self-refresh (Table CM-2). -/
def State.kept (s : State) : AllocKind → Bool
  | .ring => s.on CM_SR_RETAIN_RING
  | .sweep => s.on CM_SR_RETAIN_SWEEP
  | .quire | .colophon | .display | .dma => true

/-- Bit of CM_SEG_m.KINDS (Table CM-4). -/
def AllocKind.segBit : AllocKind → Nat
  | .ring => 0 | .quire => 1 | .colophon => 1 | .sweep => 2 | .display => 3 | .dma => 4

/-- No allocation overlaps [b, b + n). -/
def rangeFree (l : List Alloc) (b n : Nat) : Bool :=
  l.all fun x => decide (x.base + x.size ≤ b) || decide (b + n ≤ x.base)

/-- The lowest base at which `n` MiB are free: 0 or the end of an allocation. -/
def lowestFit (l : List Alloc) (total n : Nat) : Option Nat :=
  ((0 :: l.map fun x => x.base + x.size).filter fun b => decide (b + n ≤ total) && rangeFree l b n).min?

/-- The highest base at which `n` MiB are free: the top or below the start of an allocation. -/
def highestFit (l : List Alloc) (total n : Nat) : Option Nat :=
  ((total :: l.map fun x => x.base).filterMap fun e =>
    if n ≤ e ∧ rangeFree l (e - n) n then some (e - n) else none).max?

/-- Address range in bytes of segment s of rank k, m = 8k + s: base and size (R409). -/
def State.segRange (s : State) (m : Nat) : Nat × Nat :=
  let ranks := s.get CM_STATUS_RANKS_M1 + 1
  let size := s.cmSize / (8 * ranks)
  (size * m, size)

/-- The allocation holds some part of segment m. -/
def State.inSeg (s : State) (m : Nat) (x : Alloc) : Bool :=
  let r := s.segRange m
  decide (x.base * 2 ^ 20 < r.1 + r.2) && decide (r.1 < (x.base + x.size) * 2 ^ 20)

/-- Bring CM_SEG_m up to date (R409). -/
def State.updateSegs (s : State) : State :=
  s.each (upto 16) fun s m =>
    let kinds := (s.cm.allocs.filter (s.inSeg m)).foldl (fun v x => v ||| 2 ^ x.kind.segBit) 0
    s.setVal (CM_SEG m) (if m / 8 ≤ s.get CM_STATUS_RANKS_M1 then kinds else 0)

/-- Capture memory serves allocations: trained, consistent, no channel lost (R390, R414, R416). -/
def State.cmServes (s : State) : Bool := s.cm.usable && !(s.on CM_STATUS_LOST)

/-- Reason code of an allocation of `n` MiB (R390, R394): 08C0h, 0224h, or 0. -/
def State.allocCheck (s : State) (k : AllocKind) (n : Nat) : Nat :=
  if !s.cmServes then 0x08C0
  else
    let fit := if s.kept k then lowestFit s.cm.allocs (s.val CM_SIZE_MIB) n
      else highestFit s.cm.allocs (s.val CM_SIZE_MIB) n
    if fit.isNone then 0x0224 else 0

/-- Allocate `n` MiB (R394): kept kinds in the lowest free range that fits, the others in the highest. -/
def State.alloc (s : State) (k : AllocKind) (owner n : Nat) : State :=
  let fit := if s.kept k then lowestFit s.cm.allocs (s.val CM_SIZE_MIB) n
    else highestFit s.cm.allocs (s.val CM_SIZE_MIB) n
  match fit with
  | some b => ({ s with cm := { s.cm with allocs := s.cm.allocs ++ [⟨k, owner, b, n⟩] } } : State).updateSegs
  | none => s

/-- Free an owner's range (R394). -/
def State.free (s : State) (k : AllocKind) (owner : Nat) : State :=
  ({ s with cm := { s.cm with allocs := s.cm.allocs.filter fun x => !(x.kind = k && x.owner = owner) } } : State).updateSegs

/-- Base address in bytes of an owner's range. -/
def State.allocBase (s : State) (k : AllocKind) (owner : Nat) : Nat :=
  match s.cm.allocs.find? fun x => x.kind = k && x.owner = owner with
  | some x => x.base * 2 ^ 20
  | none => 0

/-- Key of a user's declared traffic. -/
def trafficKey (k : AllocKind) (owner : Nat) : Nat :=
  (match k with | .ring => 0 | .quire => 1 | .colophon => 2 | .sweep => 3 | .display => 4 | .dma => 5) * 65536 + owner

/-- Sum of the declared traffic (R395). -/
def State.trafficSum (s : State) : Nat := s.cm.traffic.foldl (fun a p => a + p.2) 0

/-- Adding `n` bytes per second exceeds B = 290 GB/s * (N/16) * (rate / 10,667) (R395). -/
def State.trafficOver (s : State) (n : Nat) : Bool :=
  decide (290000000000 * s.cmN * cmRate (s.get CM_CFG_RATE) < (s.trafficSum + n) * 16 * 10667)

/-- Declare a user's traffic; 0 withdraws it. -/
def State.setTraffic (s : State) (k : AllocKind) (owner n : Nat) : State :=
  { s with cm := { s.cm with traffic := kvSetD 0 s.cm.traffic (trafficKey k owner) n } }

/-! ### Lost channels and poison (R411 to R414) -/

/-- Channel c is lost. -/
def State.chanLost (s : State) (c : Nat) : Bool := s.on (CM_CH_STATUS_LOST c)

/-- A sector is poisoned, or its channel is lost. -/
def State.sectorPoisoned (s : State) (k : Nat) : Bool :=
  (kvGet s.cm.poison k).isSome || s.chanLost (s.cmChannel (32 * k))

/-- Bytes of a range and whether any sector of it reads as poisoned. -/
def State.memRead (s : State) (a n : Nat) : List Byte × Bool :=
  (memBytes s.cmem a n, (sectors a n).any s.sectorPoisoned)

/-- Poison marks after a write of [a, a + n): a wholly written sector is clean (R412). -/
def clearPoison (p : KV Unit) (a n : Nat) : KV Unit :=
  (sectors a n).foldl (fun p k => if a ≤ 32 * k ∧ 32 * k + 32 ≤ a + n then kvDel p k else p) p

/-- Some sector may read as poisoned. -/
def State.anyPoison (s : State) : Bool := !(s.cm.poison.isEmpty) || s.on CM_STATUS_LOST

/-- Whole sectors of [a, a + n) are written anew. -/
def State.memClean (s : State) (a n : Nat) : State :=
  if s.cm.poison.isEmpty then s else { s with cm := { s.cm with poison := clearPoison s.cm.poison a n } }

/-- Write bytes of one sector or of sectors whose channels serve. -/
def State.memStore (s : State) (a : Nat) (bs : List Byte) : State :=
  ({ s with cmem := memPutAll s.cmem a bs } : State).memClean a bs.length

/-- The stream's data passes through capture memory: QUIR and COLO (R288, R414). -/
def State.throughMem (_s : State) (id : BitVec 16) : Bool := id.toNat / 4096 = 9 || id.toNat / 4096 = 10

/-- A channel is declared lost (R414): STATUS bits, every held request completed at once (reads poisoned, writes with a
failed acknowledgement), the streams whose data passes through capture memory ended with final gap records, NOT_MASKED
raised (R589). -/
def State.channelLost (s : State) (c : Nat) : State :=
  if s.chanLost c then s
  else
    let ch := s.chan c
    let s := (s.put (CM_CH_STATUS_LOST c) 1).put CM_STATUS_LOST 1
    let s := s.each (ch.reads ++ ch.writes ++ ch.waiting) fun s q =>
      if q.write then s.emit (.cmAck q.port q.tag q.addr false)
      else s.emit (.cmData q.port q.tag q.addr q.data true)
    let s := s.modChan c fun x => { x with reads := [], writes := [], waiting := [], mode := .read }
    (s.endStreams 0xFF fun id => s.throughMem id).raiseAlarm 11 .notMasked 0xFFFFFFFF

/-- Latch the address and bit of the last error (Table CM-4): all ones when uncorrectable. -/
def State.latchErr (s : State) (c o bit : Nat) : State :=
  ((s.setVal (CM_CH_ERR_LO c) o).put (CM_CH_ERR_HI_OFFS_HI c) (o / 2 ^ 32)).put (CM_CH_ERR_HI_BIT c) bit

/-- An uncorrectable sector is found (R412): UE counted and latched, the memory alarm raised, and the channel lost when
more than UE_MAX are found within 1 ms (R414). -/
def State.foundUe (s : State) (c o : Nat) : State :=
  let s := (s.count (CM_CH_UE c) 1).latchErr c o 0x3FFFFF
  let s := s.raiseAlarm 11 .memory c
  let l := (s.chan c).ueTimes.filter (fun t => tLe s.now (tAdd t (usTicks 1000))) ++ [s.now]
  let s := s.modChan c fun x => { x with ueTimes := l }
  if s.get CM_REF_UE_MAX < l.length then s.channelLost c else s

/-- A DRAM read of sector k shows `err` (R411, R412); nothing with ECC = 0 (R391). A single wrong bit is corrected and
the sector rewritten; an uncorrectable sector is poisoned. -/
def State.sectorError (s : State) (k : Nat) (err : EccErr) : State :=
  if !(s.on CM_CFG_ECC) then s
  else
    let a := 32 * k
    let c := s.cmChannel a
    match err with
    | .single b => (s.count (CM_CH_CE c) 1).latchErr c (s.cmOffset a) b
    | .uncorrectable =>
      ({ s with cm := { s.cm with poison := kvPut s.cm.poison k () } } : State).foundUe c (s.cmOffset a)

/-- A read meets a sector already poisoned: it counts again (R412). -/
def State.sectorRead (s : State) (k : Nat) (errs : List (Nat × EccErr)) : State :=
  match errs.find? fun e => e.1 = k with
  | some e => s.sectorError k e.2
  | none =>
    if s.on CM_CFG_ECC && (kvGet s.cm.poison k).isSome && !(s.chanLost (s.cmChannel (32 * k)))
    then s.foundUe (s.cmChannel (32 * k)) (s.cmOffset (32 * k)) else s

/-! ### Waking, reading and writing (R396, R408 to R414, R647) -/

/-- The oldest instant a ring still holds (R269, R271). -/
def RingSt.oldest (r : RingSt) : Int :=
  match r.next with
  | none => r.floor
  | some n => max r.floor (n - r.len)

/-- The ring restarts empty, with one gap-log entry of cause 0007h over its former contents (R410). -/
def RingSt.memoryLost (r : RingSt) : RingSt :=
  match r.next with
  | none => r
  | some last => { len := r.len, fs := r.fs, log := [⟨r.oldest, last, 7⟩], floor := r.oldest, next := some last }

/-- What could not be tested begins at `t` with cause `c`, unless it has begun, or the time is reported as warming (R249, R253,
R259). -/
def DriftSt.blindAt (x : DriftSt) (t : DevTime) (c : Option Nat) : DriftSt :=
  if x.blocks < 64 then x
  else match x.blindFrom with
    | some _ => x
    | none => { x with blindFrom := some t, cause := c }

/-- The rows of the sweep buffer are gone: blind from the first step not yet tested, with cause 0007h (R410), until rows gathered
from now on can be tested; a blind interval above 1 s then warms the unit again (R249). -/
def DriftSt.memoryLost (x : DriftSt) (now : DevTime) : DriftSt :=
  { x.blindAt (((kvGet x.rows x.next).map fun r => r.time).getD now) (some 7) with rows := [] }

/-- Change the drift unit of region r. -/
def State.modDrift (s : State) (r : Nat) (f : DriftSt → DriftSt) : State :=
  { s with tg := { s.tg with drift := kvMod {} s.tg.drift r f } }

/-- An allocation that lay in a masked segment is reported to its owner as lost (R410). -/
def State.reportLost (s : State) (x : Alloc) : State :=
  match x.kind with
  | .ring => { s with qu := { s.qu with rings := kvMod {} s.qu.rings x.owner RingSt.memoryLost } }
  | .sweep => s.modDrift x.owner fun y => y.memoryLost s.now
  | .quire | .colophon | .display | .dma => s

/-- Self-refresh exit (R408, R410, R647): allocations in masked segments are reported lost, and the channel's sectors of
those segments read as zeros. -/
def State.srExit (s : State) (c : Nat) : State :=
  let segs := (s.chan c).masked
  let inMask (a : Nat) : Bool := s.cmChannel a = c &&
    segs.any fun m => decide ((s.segRange m).1 ≤ a) && decide (a < (s.segRange m).1 + (s.segRange m).2)
  let gone := s.cm.allocs.filter fun x => segs.any fun m => s.inSeg m x
  let s := (s.put (CM_CH_STATUS_IN_SR c) 0).count (CM_CH_WAKE c) 1
  let s : State := { s with
    cmem := s.cmem.filter fun p => !(inMask p.1)
    cm := { s.cm with poison := s.cm.poison.filter fun p => !(inMask (32 * p.1)) } }
  let s := s.modChan c fun x => { x with masked := [], initSegs := segs }
  s.each gone fun s x => s.reportLost x

/-- A request for bytes [a, a + n) wakes the channels it needs (R408). -/
def State.cmWake (s : State) (a n : Nat) : State :=
  s.each ((upto 16).filter fun c => s.on (CM_CH_STATUS_IN_SR c)) fun s c =>
    if n != 0 && (upto ((a + n - 1) / s.cmG - a / s.cmG + 1)).any fun k => s.cmChannel (a / s.cmG * s.cmG + k * s.cmG) = c
    then s.srExit c else s

/-- Sectors that a write of [a, a + n) covers in part (R396). -/
def partSectors (a n : Nat) : List Nat :=
  if n = 0 then []
  else ([a / 32, (a + n - 1) / 32].eraseDups).filter fun k => !(decide (a ≤ 32 * k) && decide (32 * k + 32 ≤ a + n))

/-- Write bytes to capture memory (R396, R412, R414): a sector covered in part is read first; a lost channel discards its part. -/
def State.memWrite (s : State) (a : Nat) (bs : List Byte) (errs : List (Nat × EccErr) := []) : State :=
  let s := s.cmWake a bs.length
  let s := s.each (partSectors a bs.length) fun s k => s.sectorRead k errs
  if s.on CM_STATUS_LOST && (sectors a bs.length).any fun k => s.chanLost (s.cmChannel (32 * k)) then
    s.each ((sectors a bs.length).filter fun k => !(s.chanLost (s.cmChannel (32 * k)))) fun s k =>
      let lo := max a (32 * k)
      s.memStore lo (((bs.drop (lo - a)).take (min (a + bs.length) (32 * k + 32) - lo)))
  else s.memStore a bs

/-- Read bytes of capture memory (R397, R408, R411, R412), and whether some sector is poisoned. What a poisoned sector's bytes are
the spec does not say: free values. -/
def State.memFetch (s : State) (a n : Nat) (errs : List (Nat × EccErr) := []) : State × List Byte × Bool :=
  let s := s.cmWake a n
  let s := s.each (sectors a n) fun s k => s.sectorRead k errs
  let d := s.memRead a n
  if !d.2 then (s, d)
  else
    let fresh := s.freeList n 8
    let bs := ((d.1.zip fresh).zipIdx).map fun p =>
      if s.sectorPoisoned ((a + p.2) / 32) then BitVec.ofNat 8 p.1.2 else p.1.1
    (s.useFrees n, bs, true)

/-! ### Requests (R396 to R402, R408) -/

/-- The request touches a sector of another. -/
def CmReq.overlaps (q r : CmReq) : Bool := (sectors q.addr q.len).any fun k => (sectors r.addr r.len).contains k

/-- A channel takes a request from its port (R398): a write takes effect and is acknowledged; a read's data is fixed. A
read that overlaps a queued write waits for it (R399). -/
def State.cmAccept (s : State) (c : Nat) (q : CmReq) : State :=
  if s.chanLost c then
    if q.write then s.emit (.cmAck q.port q.tag q.addr false)
    else
      let d := s.memFetch q.addr q.len
      d.1.emit (.cmData q.port q.tag q.addr d.2.1 true)
  else
    if q.write then
      let s := (s.memWrite q.addr q.data q.errs).emit (.cmAck q.port q.tag q.addr true)
      s.modChan c fun x =>
        let w := x.writes ++ [q]
        { x with
          writes := w
          grant := x.grant.filter (fun p => p != q.port) ++ [q.port]
          mode := if s.get CM_SCHED_WR_HIGH ≤ w.length then
              (match x.mode with | .drainAwaited a => .drainAwaited a | _ => .drainHigh)
            else if x.reads.isEmpty && x.mode = .read then .drainEmpty else x.mode }
    else
      let d := s.memFetch q.addr q.len q.errs
      let s := d.1
      let q := { q with data := d.2.1, poisoned := d.2.2 }
      let ch := s.chan c
      let waits := ch.writes.any q.overlaps
      let s := if waits then s.count (CM_CH_RAW c) 1 else s
      s.modChan c fun x => { x with
        reads := x.reads ++ [q]
        grant := x.grant.filter (fun p => p != q.port) ++ [q.port]
        mode := if waits then (if x.mode = .drainHigh then .drainHigh else .drainAwaited q.addr)
          else if x.mode = .drainEmpty then .read else x.mode }

/-- Show a channel's mode, owed count and self-refresh in its registers. -/
def State.showChan (s : State) (c : Nat) : State :=
  let ch := s.chan c
  let owed := ch.ranks.foldl (fun a p => max a p.2.owed) 0
  (s.put (CM_CH_STATUS_OWED c) owed).put (CM_CH_STATUS_DRAIN c) (if ch.mode = .read then 0 else 1)

/-- The channel's queue has room for a request (R399). -/
def cmRoom (ch : CmChan) (q : CmReq) : Bool :=
  if q.write then decide (ch.writes.length < 256) else decide (ch.reads.length < 128)

/-- Waiting requests are taken while there is room: the first of each port, ports in least-recently-granted order (R399, R400). -/
def State.cmAdmit (s : State) (c : Nat) : Nat → State
  | 0 => s
  | n + 1 =>
    let ch := s.chan c
    match ch.grant.findSome? fun p => (ch.waiting.find? fun x => x.port = p).filter (cmRoom ch) with
    | none => s
    | some q => ((s.modChan c fun y => { y with waiting := y.waiting.erase q }).cmAccept c q).cmAdmit c n

/-- CM_REQUEST (R396 to R402): the request reaches its channel, wakes it from self-refresh, and enters its queue, or
waits at its port: while the queue is full (R399), behind an earlier one of its port, while MEM's island is gated (R47). -/
def State.cmRequest (s : State) (r : CmArrival) : State :=
  let c := s.cmChannel r.addr
  let q : CmReq := ⟨s.cm.arrivals, r.port, r.tag, r.write, r.urgent, r.addr, r.len, r.data, false,
    r.errs.map fun e => (r.addr / 32 + e.1, e.2)⟩
  let s : State := { s with cm := { s.cm with arrivals := s.cm.arrivals + 1 } }
  if s.gated 11 then s.modChan c fun x => { x with waiting := x.waiting ++ [q] }
  else
    let s := if s.on (CM_CH_STATUS_IN_SR c) then s.srExit c else s
    let ch := s.chan c
    if (!(cmRoom ch q) || ch.waiting.any fun x => x.port = q.port) && !(s.chanLost c) then
      (s.modChan c fun x => { x with waiting := x.waiting ++ [q] }).showChan c
    else (s.cmAccept c q).showChan c

def execCmRequest (r : CmArrival) (s : State) : Host.Outcome State Fault Refusal := .next (s.cmRequest r)

/-- The bank's key: rank * 16 + bank. -/
def State.bankKey (s : State) (q : CmReq) : Nat × Nat :=
  let b := s.cmBank (s.cmOffset q.addr)
  (b.2.2 * 16 + b.1, b.2.1)

/-- The request hits its bank's open row. -/
def State.rowHit (s : State) (ch : CmChan) (q : CmReq) : Bool :=
  let b := s.bankKey q
  (kvGetD ch.banks b.1 {}).row = some b.2

/-- First of a list by preference: row hits before others, oldest first (R401). -/
def State.pick (s : State) (ch : CmChan) (l : List CmReq) : Option CmReq :=
  match l.find? (s.rowHit ch) with
  | some q => some q
  | none => l.head?

/-- A read may be issued: no older queued write overlaps it (R399). -/
def readable (ch : CmChan) (q : CmReq) : Bool := !(ch.writes.any fun w => decide (w.age < q.age) && q.overlaps w)

/-- A write may be issued: no older queued read overlaps it (R399). -/
def writable (ch : CmChan) (q : CmReq) : Bool := !(ch.reads.any fun r => decide (r.age < q.age) && q.overlaps r)

/-- The next read of a channel (R401): URGENT before NORMAL, row hits, then age. -/
def State.nextRead (s : State) (ch : CmChan) (onlyUrgent : Bool) : Option CmReq :=
  let ok := ch.reads.filter (readable ch)
  match s.pick ch (ok.filter fun q => q.urgent) with
  | some q => some q
  | none => if onlyUrgent then none else s.pick ch ok

/-- What a channel issues next, by its mode (R401). -/
def State.nextIssue (s : State) (ch : CmChan) : Option CmReq :=
  match ch.mode with
  | .read => s.nextRead ch false
  | _ =>
    match (if ch.writes.length < 256 then s.nextRead ch true else none) with
    | some q => some q
    | none => s.pick ch (ch.writes.filter (writable ch))

/-- How long a bank with predictor p keeps its row open, in clocks (R402). -/
def State.openClocks (s : State) (p : Nat) : Nat :=
  let idle := s.get CM_PAGE_IDLE
  let p := if s.on CM_PAGE_PRED_EN then p else 0
  if p = 0 then idle else if p = 1 then max (idle / 4) 16 else 0

/-- The bank after an access (R402): PRED falls on a hit and rises when another row was open; the row stays open, or is
closed by auto-precharge unless a further request to it is queued. -/
def State.accessBank (s : State) (ch : CmChan) (q : CmReq) : CmChan :=
  let b := s.bankKey q
  let old := kvGetD ch.banks b.1 {}
  let pred := match old.row with
    | some r => if r = b.2 then old.pred - 1 else min 3 (old.pred + 1)
    | none => old.pred
  let more := (ch.reads ++ ch.writes).any fun x => x != q && s.bankKey x = b
  let row := if s.openClocks pred = 0 && !more then none else some b.2
  { ch with banks := kvPut ch.banks b.1 ⟨row, pred⟩ }

/-- DRAIN mode is entered while a read waits under R399, at WR_HIGH, or when only writes are queued (R401). -/
def State.enterDrain (s : State) (ch : CmChan) : CmMode :=
  match ch.reads.find? fun q => !(readable ch q) with
  | some q => .drainAwaited q.addr
  | none => if s.get CM_SCHED_WR_HIGH ≤ ch.writes.length then .drainHigh
      else if ch.reads.isEmpty && !ch.writes.isEmpty then .drainEmpty else .read

/-- Whether a drain goes on after an issue (R401). -/
def State.keepDrain (s : State) (ch : CmChan) : CmMode :=
  match ch.mode with
  | .read => .read
  | .drainHigh => if ch.writes.length ≤ s.get CM_SCHED_WR_LOW then .read else .drainHigh
  | .drainEmpty => if !ch.reads.isEmpty || ch.writes.isEmpty then .read else .drainEmpty
  | .drainAwaited a =>
    if ch.reads.any (fun q => q.addr = a && !(readable ch q)) then .drainAwaited a
    else if s.get CM_SCHED_WR_HIGH ≤ ch.writes.length then .drainHigh else .read

/-- The mode after an issue (R401). -/
def State.modeAfter (s : State) (ch : CmChan) : CmMode :=
  match s.keepDrain ch with
  | .read => s.enterDrain ch
  | m => m

/-- A channel issues one request (R401): a read returns its data. Then waiting requests take the space
(R400). -/
def State.issueOne (s : State) (c : Nat) : State :=
  let ch := s.chan c
  match s.nextIssue ch with
  | none => s.modChan c fun x => { x with mode := s.modeAfter x }
  | some q =>
    let ch2 := s.accessBank ch q
    let ch3 := { ch2 with
      reads := if q.write then ch2.reads else ch2.reads.erase q
      writes := if q.write then ch2.writes.erase q else ch2.writes }
    let s := s.modChan c fun _ => { ch3 with mode := s.modeAfter ch3 }
    let s := if q.write then s else s.emit (.cmData q.port q.tag q.addr q.data q.poisoned)
    s.cmAdmit c (s.chan c).waiting.length

/-- A rank's refresh (R402, R403): every row of the rank is closed and PRED kept. -/
def closeRank (rank : Nat) (b : KV CmBank) : KV CmBank :=
  b.map fun p => (p.1, if p.1 / 16 = rank then { p.2 with row := none } else p.2)

/-- The rank has a queued read. -/
def State.rankReads (s : State) (ch : CmChan) (rank : Nat) : Bool :=
  ch.reads.any fun q => (s.cmBank (s.cmOffset q.addr)).2.2 = rank

/-- Change a rank. -/
def modRank (rank : Nat) (f : CmRank → CmRank) (ch : CmChan) : CmChan :=
  { ch with ranks := kvMod {} ch.ranks rank f }

/-- Owed refreshes go out while a rank has no queued read (R404), one per scheduling decision. -/
def State.payOwed (s : State) (c : Nat) : State :=
  s.each [0, 1] fun s rank =>
    let ch := s.chan c
    if 0 < (kvGetD ch.ranks rank {}).owed && !(s.rankReads ch rank) then
      s.modChan c fun x => { modRank rank (fun r => { r with owed := r.owed - 1 }) x with banks := closeRank rank x.banks }
    else s

/-- One scheduling decision of every channel that has work (assumption 4); a channel whose scheduler is being taken over, or has no
spare, stalls (Table FT-1). -/
def State.cmTick (s : State) : State :=
  s.inIsland 11 fun s =>
    s.each (s.cm.chans.filter fun p => s.dutyUp 11 p.1 && (!(p.2.reads.isEmpty && p.2.writes.isEmpty && p.2.waiting.isEmpty)
        || p.2.ranks.any fun r => decide (0 < r.2.owed)))
      fun s p => (((s.cmAdmit p.1 (s.chan p.1).waiting.length).issueOne p.1).payOwed p.1).showChan p.1

/-! ### Refresh, temperature, self-refresh (R403 to R410) -/

/-- CM_REFRESH_DUE (R404): postponed while reads for the rank are queued and OWED is below POSTPONE_MAX; otherwise issued,
with every owed one at POSTPONE_MAX. -/
def State.refreshDue (s : State) (c rank : Nat) : State :=
  let ch := s.chan c
  let owed := (kvGetD ch.ranks rank {}).owed
  if s.on (CM_CH_STATUS_IN_SR c) || s.chanLost c then s
  else if s.rankReads ch rank && decide (owed < s.get CM_REF_POSTPONE_MAX) then
    (s.modChan c (modRank rank fun r => { r with owed := r.owed + 1 })).showChan c
  else
    (s.modChan c fun x =>
      { modRank rank (fun r => { r with owed := if s.rankReads ch rank then 0 else r.owed }) x with
        banks := closeRank rank x.banks }).showChan c

def execCmRefreshDue (c : Fin 16) (rank : Fin 2) (s : State) : Host.Outcome State Fault Refusal :=
  .next (s.inIsland 11 fun s => s.refreshDue c rank)

/-- CM_MR4_POLL (R405, R406, R414). -/
def State.mr4Poll (s : State) (c rank : Nat) (mult : Option (Fin 3)) : State :=
  let r := kvGetD (s.chan c).ranks rank {}
  match mult with
  | none =>
    let s := s.modChan c (modRank rank fun r => { r with fails := r.fails + 1 })
    if 3 ≤ r.fails + 1 then s.channelLost c else s
  | some m =>
    let q := if m = 0 then 4 else if m = 1 then 2 else 1
    let cross := decide (q < r.mult) && decide (0 < r.owed)
    let trfc := match s.cm.geom with | some g => g.trfc | none => 0
    let s := if cross then (s.count (CM_CH_STALL c) (s.cmClocks (r.owed * trfc))).count (CM_CH_CROSS c) 1 else s
    let s := s.modChan c fun x =>
      { modRank rank (fun r => { owed := if cross then 0 else r.owed, mult := q, fails := 0 }) x with
        banks := if cross then closeRank rank x.banks else x.banks }
    let all := (s.chan c).ranks
    let hot := all.any fun p => decide (p.2.mult ≤ 2)
    let hot2 := all.any fun p => decide (p.2.mult ≤ 1)
    let s := (s.put (CM_CH_STATUS_HOT c) (if hot then 1 else 0)).put (CM_CH_STATUS_HOT2 c) (if hot2 then 1 else 0)
    (if hot2 then s.beginLevel 11 .memory c else s.endLevel 11 .memory c).showChan c

def execCmMr4Poll (c : Fin 16) (rank : Fin 2) (mult : Option (Fin 3)) (s : State) :
    Host.Outcome State Fault Refusal :=
  .next (s.inIsland 11 fun s => s.mr4Poll c rank mult)

/-- CM_ROW_IDLE_CLOSE (R402): the row closes unless a queued request names it. -/
def State.rowIdleClose (s : State) (c bank : Nat) : State :=
  let ch := s.chan c
  let b := kvGetD ch.banks bank {}
  match b.row with
  | none => s
  | some row =>
    if (ch.reads ++ ch.writes).any fun q => s.bankKey q = (bank, row) then s
    else s.modChan c fun x => { x with banks := kvPut x.banks bank { b with row := none } }

def execCmRowIdleClose (c : Fin 16) (bank : Nat) (s : State) : Host.Outcome State Fault Refusal :=
  .next (s.inIsland 11 fun s => s.rowIdleClose c bank)

/-- Segments that hold no allocation of a kept kind (R409). -/
def State.maskable (s : State) : List Nat :=
  (upto (8 * (s.get CM_STATUS_RANKS_M1 + 1))).filter fun m =>
    !(s.cm.allocs.any fun x => s.kept x.kind && s.inSeg m x)

/-- CM_SR_ENTRY (R407, R409): all conditions hold, so the channel sleeps with its masked segments. -/
def State.srEntry (s : State) (c : Nat) : State :=
  let ch := s.chan c
  let idle := ch.reads.isEmpty && ch.writes.isEmpty && ch.waiting.isEmpty
  let owed := ch.ranks.any fun p => decide (0 < p.2.owed)
  if s.on CM_SR_SR_EN && s.on CM_STATUS_TRAINED && idle && !owed && !(s.chanLost c) && !(s.on (CM_CH_STATUS_IN_SR c))
      && decide (s.wakeBoundNs ≤ s.val DS_TOL_NS) then
    (s.put (CM_CH_STATUS_IN_SR c) 1).modChan c fun x => { x with
      banks := closeRank 1 (closeRank 0 x.banks)
      masked := if s.on CM_SR_PASR_EN then s.maskable else [] }
  else s

def execCmSrEntry (c : Fin 16) (s : State) : Host.Outcome State Fault Refusal := .next (s.inIsland 11 fun s => s.srEntry c)

/-! ### Patrol, training, initialisation (R413, R415, R647) -/

/-- The next allocated sector at or after `k`, wrapping to the lowest (R413). -/
def State.nextSector (s : State) (k : Nat) : Option Nat :=
  let per := 32768
  let after := s.cm.allocs.filterMap fun x =>
    if k < (x.base + x.size) * per then some (max k (x.base * per)) else none
  match after.min? with
  | some n => some n
  | none => (s.cm.allocs.map fun x => x.base * per).min?

/-- CM_PATROL_READ (R413): the next allocated sector is read; with PATROL = 1 and ECC = 1, once initialisation is complete. -/
def State.patrolRead (s : State) (err : Option EccErr) : State :=
  if !(s.on CM_REF_PATROL && s.on CM_CFG_ECC && s.cm.initDone) then s
  else match s.nextSector s.cm.patrolNext with
    | none => s
    | some k =>
      let s : State := { s with cm := { s.cm with patrolNext := k + 1 } }
      s.sectorRead k (match err with | some e => [(k, e)] | none => [])

def execCmPatrolRead (err : Option EccErr) (s : State) : Host.Outcome State Fault Refusal := .next (s.inIsland 11 fun s => s.patrolRead err)

/-- CM_WCK_OSC_CHECK (R415): a drift above 1/16 unit interval retrains the write DQ delay, stalling the rank for at most
200 ns. -/
def execCmWckOscCheck (c : Fin 16) (_rank : Fin 2) (drift stallNs : Nat) (s : State) : Host.Outcome State Fault Refusal :=
  .next (s.inIsland 11 fun s => if 16 < drift then s.count (CM_CH_STALL c) (s.cmClocks (1000 * min stallNs 200)) else s)

/-- CM_INIT_DONE (R647): every sector of capture memory, and of the segments masked in self-refresh, holds zeros. What
they read as does not change: an unwritten sector read as zeros before. -/
def execCmInitDone (s : State) : Host.Outcome State Fault Refusal :=
  .next (if !s.cm.usable then s else { s with cm := { s.cm with
    initDone := true
    chans := s.cm.chans.map fun p => (p.1, { p.2 with initSegs := [] }) } })

/-- CM_CFG's own range check (Table CM-4). -/
def cmCfgBad (v : Nat) : Bool :=
  decide (4 < bits v 12 10) || decide (8 < bits v 7 4) || decide (4 < bits v 3 1)

/-- A write of CM_CFG by the first pass of the setup record (R418, R541). -/
def State.cmCfgSetup (s : State) (v : Nat) : State × Nat :=
  if cmCfgBad v then s.answer CM_CFG_REASON 0x01C0
  else ((s.plainWrite CM_CFG v).put CM_CFG_REASON 0, 0)

/-- A write of CM_CFG on any path (R418). -/
def State.cmCfgWrite (s : State) (_v : Nat) : State × Nat :=
  s.answer CM_CFG_REASON (if s.unready 11 then 0x070E else 0x07C0)

/-- A write of CM_SCHED, CM_PAGE, CM_REF or CM_SR (R418): out of range refused with 01C1h in CM_CFG.REASON. -/
def State.cmSetWrite (s : State) (name : RegName) (a v : Nat) : State × Nat :=
  let bad : Bool := match name with
    | .CM_SCHED => !(decide (bits v 8 0 ≤ 255) && decide (bits v 8 0 + 1 ≤ bits v 24 16) && decide (bits v 24 16 ≤ 256))
    | .CM_PAGE => !(decide (16 ≤ bits v 12 0) && decide (bits v 12 0 ≤ 4096))
    | .CM_REF => !(decide (1 ≤ bits v 31 22) && decide (bits v 31 22 ≤ 1000) && decide (1 ≤ bits v 11 4)
        && decide (bits v 3 0 ≤ 8))
    | .CM_SR => !(decide (256 ≤ bits v 31 16))
    | _ => false
  if bad then s.answer CM_CFG_REASON 0x01C1
  else ((s.plainWrite a v).put CM_CFG_REASON 0, 0)

/-- The channels that were found agree in density and rank count (R390). -/
def allAgree : List DramFound → Bool
  | [] => true
  | x :: t => t.all fun y => y.rows = x.rows && y.ranks = x.ranks

/-- DRAM_TRAINING_DONE (R390, R415, R416): TRAINED when every populated channel trained, TRAIN_FAIL when one failed; the
geometry and the size of the address space (R391). -/
def State.dramTrained (s : State) (found : List (Option DramFound)) : State :=
  let n := s.cmN
  let ok := (found.take n).filterMap id
  let all := decide (n ≤ (found.take n).length) && (found.take n).all Option.isSome
  let g := ok.head?.map fun x => (⟨x.rows, x.ranks, x.trfc, x.txsr⟩ : CmGeom)
  let s : State := { s with cm := { s.cm with begun := true, geom := g, usable := all && allAgree ok } }
  let s := (s.put CM_STATUS_TRAINED (if all then 1 else 0)).put CM_STATUS_TRAIN_FAIL (if all then 0 else 1)
  match g with
  | none => s
  | some g =>
    ((s.put CM_STATUS_RANKS_M1 (g.ranks - 1)).setVal CM_SIZE_MIB
      (n * g.ranks * 16 * g.rows * s.cmD / 2 ^ 20)).updateSegs

/-- DRAM training is over: it has run, or its region is lost. -/
def State.memTrained (s : State) : Bool := s.cm.begun || s.lost 11

/-- With DRAM and fabric trained, the steward starts to load every region controller (R515, R643): the regions read LOADING. -/
def State.loadStart (s : State) : State :=
  if s.memTrained && s.power.fabricTrained then
    s.each ((upto 16).filter fun k => decide (2 ≤ k) && s.regionState k = 3) fun s k => s.put (REGION_STATE_STATE k) 2
  else s

/-- DRAM_TRAINING_DONE: training runs in CONFIGURE. -/
def execDramTrainingDone (found : List (Option DramFound)) (s : State) : Host.Outcome State Fault Refusal :=
  .next (if s.devState = 4 && s.power.setupFirst && s.on (SYN_STATUS_LOCKED 11) then (s.dramTrained found).loadStart else s)

end Sys2Proof.Machine
end

