-- ==== Sys2Proof/Machine/Number.lean ====
section
/-! DEFINITION. Machine/Number.lean: IEEE 754 numbers as exact ratios (R203, R206): rounding to nearest even in binary32
and binary64, and back. -/

namespace Sys2Proof.Machine

/-- floor of log2 of a positive ratio. -/
def ratioLog2 (n d : Nat) : Int :=
  let e : Int := (Nat.log2 n : Int) - Nat.log2 d
  -- 2^e <= n / d ?
  let ok := if 0 ≤ e then decide (d * 2 ^ e.toNat ≤ n) else decide (d ≤ n * 2 ^ (-e).toNat)
  if ok then e else e - 1

/-- n / d rounded to a whole number, ties to even. -/
def roundEven (n d : Nat) : Nat :=
  let q := n / d
  let r := n % d
  if 2 * r < d then q else if d < 2 * r then q + 1 else if q % 2 = 0 then q else q + 1

/-- A number of `m` fraction bits and `w` exponent bits nearest to `x`, ties to even; overflow gives infinity. -/
def floatRound (m w : Nat) (x : Ratio) : Nat :=
  if x.num = 0 then 0
  else
    let sg := if x.num < 0 then 2 ^ (m + w) else 0
    let n := x.num.natAbs
    let bias : Int := ((2 ^ (w - 1) - 1 : Nat) : Int)
    let e := max (ratioLog2 n x.den) (1 - bias)
    -- significand in units of 2^(e - m)
    let sh := (m : Int) - e
    let q := if 0 ≤ sh then roundEven (n * 2 ^ sh.toNat) x.den else roundEven n (x.den * 2 ^ (-sh).toNat)
    let v := (e + bias - 1).toNat * 2 ^ m + q
    sg + min v ((2 ^ w - 1) * 2 ^ m)

/-- The exact value of a finite number; none for infinities and NaNs. -/
def floatVal (m w : Nat) (v : Nat) : Option Ratio :=
  let e := bits v (m + w - 1) m
  let f := bits v (m - 1) 0
  let sg : Int := if bits v (m + w) (m + w) = 1 then -1 else 1
  let bias := 2 ^ (w - 1) - 1
  if e = 2 ^ w - 1 then none
  else if e = 0 then some (ratio (sg * f) (2 ^ (bias + m - 1)))
  else if bias + m ≤ e then some (ratioOf (sg * ((f + 2 ^ m) * 2 ^ (e - bias - m) : Nat)))
  else some (ratio (sg * (f + 2 ^ m : Nat)) (2 ^ (bias + m - e)))

def f32Round (x : Ratio) : Word := BitVec.ofNat 32 (floatRound 23 8 x)
def f64Round (x : Ratio) : BitVec 64 := BitVec.ofNat 64 (floatRound 52 11 x)
def f32Val (v : Word) : Option Ratio := floatVal 23 8 v.toNat
def f64Val (v : BitVec 64) : Option Ratio := floatVal 52 11 v.toNat

/-- The exact value of a finite binary32, 0 for the others. -/
def f32Num (v : Word) : Ratio := (f32Val v).getD ⟨0, 1⟩
def f64Num (v : BitVec 64) : Ratio := (f64Val v).getD ⟨0, 1⟩

/-- The quiet NaN of R205. -/
def f32NaN : Word := 0x7FC00000

/-- Integer square root by binary digits, `k` of them. -/
def isqrtBits (n : Nat) : Nat → Nat → Nat
  | 0, r => r
  | k + 1, r => isqrtBits n k (if (r + 2 ^ k) * (r + 2 ^ k) ≤ n then r + 2 ^ k else r)

/-- floor of the square root. -/
def isqrt (n : Nat) : Nat := isqrtBits n (Nat.log2 n / 2 + 1) 0

/-- The binary32 nearest to the square root of a ratio not below 0. -/
def f32Sqrt (x : Ratio) : Word :=
  if x.num ≤ 0 then 0
  else
    -- 60 fraction bits of the root decide every rounding but an exact tie, which a root of a ratio cannot make
    let e := ratioLog2 x.num.natAbs x.den
    let sh : Nat := if e < 120 then (120 - e).toNat / 2 * 2 else 0
    let r := isqrt (x.num.natAbs * 2 ^ sh / x.den)
    f32Round (ratio (2 * r + (if r * r * x.den = x.num.natAbs * 2 ^ sh then 0 else 1)) (2 ^ (sh / 2 + 1)))

/-- Nearest whole number to a ratio, ties away from zero, then limited to `w` bits. -/
def ratioRoundS (w : Nat) (x : Ratio) : Int := clampS w (ratioRound x)

end Sys2Proof.Machine
end

