-- ==== Sys2Proof/Machine/Sampling.lean ====
section
/-! DEFINITION. Machine/Sampling.lean: sample rates and sampling instants (R106), widths of raw samples (R117), the
declared rates of streams and the switch-port budget (R15, R43, R642), and number formats that several chapters share. -/

namespace Sys2Proof.Machine

/-- The frequency of the synthesiser of region k, kHz. -/
def State.synKhz (s : State) (k : Nat) : Nat := (kvGetD s.time.syn k {}).khz.getD (synNominal k)

/-- Sample rate of input n in Hz (R106). -/
def State.fsHz (s : State) (n : Nat) : Nat := 1000 * s.synKhz (2 + n / 4)

/-- Absolute index of the first sampling instant at or after `t`: instants since second 0 (R106). -/
def instAt (fs : Nat) (t : DevTime) : Int := (secOf t * fs + ceilDiv (fracOf t * fs) (2 ^ 48) : Nat)

/-- TIME of the instant with absolute index `k`: the exact value rounded down to 2^-48 s (R106). -/
def instTime (fs : Nat) (k : Int) : DevTime :=
  BitVec.ofNat 80 (unsign 80 (k / fs * 2 ^ 48 + k % fs * 2 ^ 48 / fs))

/-- Device time a rational number of seconds `n / d` after `t`, rounded down to 2^-48 s. -/
def tAddFrac (t : DevTime) (n : Int) (d : Nat) : DevTime := tAddI t (n * 2 ^ 48 / d)

/-- Input n runs: it is enabled and its 20 us are over (R120). -/
def State.inputRuns (s : State) (n : Nat) : Bool := s.on (AF_IN_CTL_ENABLE n) && (kvGetD s.af n {}).runs

/-- Input n exists in the variant (R1). -/
def State.inputExists (s : State) (n : Nat) : Bool := s.variant = .yn9616 || decide (n < 8)

/-- The input's samples are 8 bits wide (R117). -/
def State.raw8 (s : State) (n : Nat) : Bool := s.on (AF_IN_CTL_RAW_BITS n)

/-- Bytes of two samples: 3 at 12 bits, 2 at 8 bits (R117). -/
def twoSampleBytes (w8 : Bool) : Nat := if w8 then 2 else 3

/-- Raw sample bytes per second of input n. -/
def State.rawRate (s : State) (n : Nat) : Nat := s.fsHz n * twoSampleBytes (s.raw8 n) / 2

/-- 10 log10 of `p` exceeds `n / d` dB, decided exactly: p^(10 d) > 10^n. -/
def dbAbove (p : Ratio) (n : Int) (d : Nat) : Bool :=
  if p.num ≤ 0 then false
  else
    let a := p.num.natAbs ^ (10 * d)
    let b := p.den ^ (10 * d)
    if 0 ≤ n then decide (b * 10 ^ n.natAbs < a) else decide (b < a * 10 ^ n.natAbs)

/-- 10 log10 of `p` is at least `n / d` dB. -/
def dbReaches (p : Ratio) (n : Int) (d : Nat) : Bool :=
  if p.num ≤ 0 then false
  else
    let a := p.num.natAbs ^ (10 * d)
    let b := p.den ^ (10 * d)
    if 0 ≤ n then decide (b * 10 ^ n.natAbs ≤ a) else decide (b ≤ a * 10 ^ n.natAbs)

/-! ### What the RAW stream feeds (R23, R140, R168) -/

/-- Zoom paths of input n. -/
def zoomsOf (n : Nat) : List Nat := (upto 4).map fun i => 4 * n + i

/-- A trigger unit's source brings it `l`; region index 0 to 3 for SP0 to SP3. -/
def State.giveUnit (s : State) (r u : Nat) (l : List TgTok) : State :=
  { s with tg := { s.tg with units := kvMod {} s.tg.units (16 * r + u) fun x => { x with inq := x.inq ++ l } } }

/-- The enabled LEVEL units of SP region 6 + r that watch the RAW samples of an input (KIND 0), or a zoom path (R238). -/
def State.levelUnits (s : State) (r kind index : Nat) : List Nat :=
  (upto 8).filter fun u => s.on (TG_U_CTL_ENABLE (6 + r) u) && s.get (TG_LV_SRC_KIND (6 + r) u) = kind
    && s.get (TG_LV_SRC_INDEX (6 + r) u) = index

/-- What a RAW stream's token is to a LEVEL unit (R238): samples on the 12-bit scale. -/
def InTok.level : InTok → List TgTok
  | .start k fs w8 => [.start fs k 1 (if w8 then 16 else 1)]
  | .x v o c => [.x v 0 o c]
  | .gap g => [.gap g.time g.cause]
  | .mark m => [.mark m]
  | .pause => []

/-- The enabled zoom paths, the enabled broad transform and the LEVEL units of input n take what its RAW stream brings. -/
def State.feed (s : State) (n : Nat) (l : List InTok) : State :=
  let zs := (zoomsOf n).filter fun z => s.on (ZP_CTL_ENABLE z)
  let s := s.each (s.levelUnits (n / 4) 0 (n % 4)) fun s u => s.giveUnit (n / 4) u (l.flatMap InTok.level)
  { s with
    zp := zs.foldl (fun m z => kvMod {} m z fun x => { x with inq := x.inq ++ l }) s.zp
    bt := if s.on (BT_CTL_ENABLE n) then kvMod {} s.bt n fun x => { x with inq := x.inq ++ l } else s.bt }

/-- Key of a source of a detection stage: broad input i (0 to 3) or 16 + slot, of region r. -/
def detKey (r src : Nat) : Nat := r * 32 + src

/-- Pass a spectrum or a gap record to the detection stage of region r. -/
def State.toDetection (s : State) (r src : Nat) (d : DetTok) : State :=
  let k := detKey r src
  { s with dc := { s.dc with queue := kvPut s.dc.queue k (kvGetD s.dc.queue k [] ++ [d]) } }

/-- Pass a token to combine input x of CB, over the direct channel of Table AC-3. -/
def State.toCb (s : State) (x : Nat) (t : CeTok) : State :=
  { s with ce := { s.ce with inq := kvPut s.ce.inq x (kvGetD s.ce.inq x [] ++ [t]) } }

/-- A word from an exact value: one between two words is one of the two, as the implementation rounds at stage `stage`
(assumption 9). -/
def wordAt (stage : Nat) (x : Ratio) : Int :=
  if ratioWhole x then ratioFloor x else ratioFloor x + (if Config.roundUp stage x.num x.den then 1 else 0)

/-! ### Streams of a switch port (R15, R642) -/

/-- Key of a stream at a region. -/
def portKey (region : Nat) (id : BitVec 16) : Nat := region * 65536 + id.toNat

/-- Switch ports of a region that the budget of R43 checks (Table AC-3): two of CB, KL0 and KL1, one of the others. -/
def portCount (region : Nat) : Nat := if region = 10 || region = 13 || region = 14 then 2 else 1

/-- Summed demand, in bytes per second, of the streams that a region's port carries one way. Inward streams are tied under
region + 16. -/
def State.portSum (s : State) (region port : Nat) : Ratio :=
  s.flow.ports.foldl (fun a p => if p.1 / 65536 = region && p.2.1 = port then ratioAdd a p.2.2 else a) (ratioOf 0)

/-- The lowest-numbered port of the region that can take `rate` bytes per second more (R642): none when 128 GB/s would be
exceeded. -/
def State.portFor (s : State) (region : Nat) (rate : Ratio) : Option Nat :=
  (upto (portCount (region % 16))).find? fun p => !(ratioLt (ratioOf 128000000000) (ratioAdd (s.portSum region p) rate))

/-- Tie a stream to its port (R642). -/
def State.tiePort (s : State) (region : Nat) (id : BitVec 16) (rate : Ratio) : State :=
  { s with flow := { s.flow with
      ports := kvPut s.flow.ports (portKey region id) ((s.portFor region rate).getD 0, rate) } }

/-- A tied stream declares another rate; it stays on its port. -/
def State.retiePort (s : State) (region : Nat) (id : BitVec 16) (rate : Ratio) : State :=
  match kvGet s.flow.ports (portKey region id) with
  | none => s
  | some p => { s with flow := { s.flow with ports := kvPut s.flow.ports (portKey region id) (p.1, rate) } }

/-- A region's ports have no room for `rate` bytes per second more (020Dh). -/
def State.portsFull (s : State) (region : Nat) (rate : Ratio) : Bool := (s.portFor region rate).isNone

/-- Tie every stream of a list to a port; none where one finds no room. -/
def State.tieAll (s : State) : List (Nat × BitVec 16 × Ratio) → Option State
  | [] => some s
  | (k, id, n) :: t => if (s.portFor k n).isSome then (s.tiePort k id n).tieAll t else none

/-- The port a stream is tied to at a region. -/
def State.portOf (s : State) (region : Nat) (id : BitVec 16) : Nat :=
  ((kvGet s.flow.ports (portKey region id)).map fun p => p.1).getD 0

/-- Free a stream's port. -/
def State.freePort (s : State) (region : Nat) (id : BitVec 16) : State :=
  { s with flow := { s.flow with ports := kvDel s.flow.ports (portKey region id) } }

/-- A rate in bytes per second as MB/s, rounded up (R375). -/
def mbps (r : Ratio) : Nat := (-(ratioFloor (ratio (-r.num) (r.den * 1000000)))).toNat

end Sys2Proof.Machine
end

