-- ==== Sys2Proof/Machine/Quire.lean ====
section
/-! DEFINITION. Machine/Quire.lean: voltage rings, capture groups, quires, colophons and their export (chapter 09, R269
to R293). -/

namespace Sys2Proof.Machine

/-! ### The voltage ring (R269 to R272) -/

/-- Ring of input n. -/
def State.ring (s : State) (n : Nat) : RingSt := kvGetD s.qu.rings n {}

/-- Change a ring. -/
def State.modRing (s : State) (n : Nat) (f : RingSt → RingSt) : State :=
  { s with qu := { s.qu with rings := kvMod {} s.qu.rings n f } }

/-- Capture group g. -/
def State.group (s : State) (g : Nat) : GroupSt := kvGetD s.qu.groups g {}

/-- Change a group. -/
def State.modGroup (s : State) (g : Nat) (f : GroupSt → GroupSt) : State :=
  { s with qu := { s.qu with groups := kvMod {} s.qu.groups g f } }

/-- RING_LEN: SIZE MiB over the bytes of a sample, rounded down to a multiple of 256 (R269). -/
def ringLen (mib : Nat) (w8 : Bool) : Nat := (mib * 2 ^ 20 * 2 / twoSampleBytes w8) / 256 * 256

/-- At another sample rate the ring starts over: its places count sampling instants of one rate (assumption 7). -/
def RingSt.rate (r : RingSt) (fs : Nat) (first : Int) : RingSt :=
  if r.next.isNone || r.fs != fs then { r with fs := fs, runs := [], log := [], floor := first, next := some first } else r

/-- Enter a lost interval; the 257th entry overwrites the first, and samples older than its end count as overwritten
(R271). -/
def RingSt.lose (r : RingSt) (first last : Int) (cause : Nat) : RingSt :=
  let log := r.log ++ [⟨first, last, cause⟩]
  match log with
  | old :: rest => if 256 < log.length then { r with log := rest, floor := max r.floor old.last, next := some last }
      else { r with log := log, next := some last }
  | [] => r

/-- Store a frame's samples (R269). A change of sample rate, or a device time that went back, leaves the samples at and
after the new first instant out of the ring (assumption 7). -/
def RingSt.store (r : RingSt) (fs : Nat) (run : RingRun) : RingSt :=
  let last := run.first + run.vals.length
  let r := r.rate fs run.first
  let keep := r.runs.filter fun q => decide (q.first + q.vals.length ≤ run.first) && decide (last - r.len < q.first + q.vals.length)
  { r with runs := keep ++ [run], next := some last }

/-- What the ring gives for an instant: its sample, or the cause of its loss (R277). -/
def RingSt.at_ (r : RingSt) (k : Int) : QSample :=
  match r.log.find? fun g => decide (g.first ≤ k) && decide (k < g.last) with
  | some g => ⟨0, false, false, g.cause⟩
  | none =>
    match r.runs.find? fun q => decide (q.first ≤ k) && decide (k < q.first + q.vals.length) with
    | some q =>
      let i := (k - q.first).toNat
      ⟨q.vals.getD i 0, q.ovr.getD i false, q.cal, 0⟩
    | none => ⟨0, false, false, 0xB⟩

/-! ### The copy engine (R277 to R279) -/

/-- LENGTH and PRE of a group (R273). -/
def State.quLen (s : State) (g : Nat) : Nat := 256 * s.get (QU_G_LEN_LEN256 g)
def State.quPre (s : State) (g : Nat) : Nat := 256 * s.get (QU_G_PRE_PRE256 g)

/-- The group's inputs, ascending. -/
def State.quInputs (s : State) (g : Nat) : List Nat :=
  (upto 16).filter fun n => bits (s.get (QU_G_INPUTS_MASK g)) n n = 1

/-- LENGTH of an accepted quire (R273), and how many of its samples are copied. -/
def Quire.len (q : Quire) : Nat := 256 * q.len256
def Quire.done (q : Quire) : Nat := (q.data.headD []).length

/-- What the copy of one sample instant of all the quire's inputs takes of the rate (b_g of R279, in 2^-49 byte). -/
def Quire.cost (q : Quire) : Nat := 2 ^ 48 * q.ins.foldl (fun a p => a + twoSampleBytes p.2) 0

/-- What the copy engine did: the samples per input, samples lost to overrun, sample instants it may still copy, and whether it
waits for the rings. -/
structure CopyRes where
  data : List (List QSample)
  lost : Nat := 0
  left : Nat
  waits : Bool := false

/-- The bytes of capture memory that hold `n` ring samples from instant k on, up to the end of the ring: sample k stands at place
k mod RING_LEN, packed as in R117 (assumption 62). -/
def State.ringSpan (s : State) (n : Nat) (w8 : Bool) (k : Int) (count : Nat) : Nat × Nat :=
  let r := s.ring n
  let b := if w8 then 8 else 12
  let p := (k % max r.len 1).toNat
  let m := min count (r.len - p)
  let lo := p * b / 8
  (s.allocBase .ring n + lo, ((p + m) * b + 7) / 8 - lo)

/-- What the copy engine reads for an instant: a sample of a poisoned sector is lost with cause 000Eh (R412). -/
def State.ringRead (s : State) (n : Nat) (w8 : Bool) (r : RingSt) (k : Int) : QSample :=
  let x := r.at_ k
  if x.cause != 0 || !s.anyPoison then x
  else
    let b := s.ringSpan n w8 k 1
    if (sectors b.1 b.2).any s.sectorPoisoned then ⟨0, false, false, 0xE⟩ else x

/-- Copy from sample `i` on, for all inputs in step, while the rate allows: on an overwritten sample the engine resumes at the
first multiple of 256 at or after the oldest held sample plus RING_LEN / 4, without reading what it skips (R277). -/
def copyRun (s : State) (ins : List (Nat × Bool)) (rings : List RingSt) (first : Int) (len : Nat) : Nat → Nat → CopyRes → CopyRes
  | 0, _, c => c
  | fuel + 1, i, c =>
    if len ≤ i || c.left = 0 then c
    else
      let k := first + i
      if rings.any fun r => match r.next with | none => true | some n => decide (n ≤ k) then { c with waits := true }
      else
        let gone := rings.filter fun r => decide (k < r.oldest)
        if gone.isEmpty then
          copyRun s ins rings first len fuel (i + 1)
            { c with data := (c.data.zip (ins.zip rings)).map fun p => p.1 ++ [s.ringRead p.2.1.1 p.2.1.2 p.2.2 k], left := c.left - 1 }
        else
          let upTo := gone.foldl (fun a r => max a (r.oldest + r.len / 4 - first)) (i + 1 : Int)
          let j := min len (ceilDiv upTo.toNat 256 * 256)
          copyRun s ins rings first len fuel j
            { c with data := c.data.map fun l => l ++ List.replicate (j - i) ⟨0, false, false, 0xB⟩
                     lost := c.lost + (j - i) * rings.length }

/-- BLOCK of an input of 8-bit or 12-bit elements (R280). -/
def quBlock (len : Nat) (w8 : Bool) : Nat := ceilDiv (len * twoSampleBytes w8 / 2 + len / 128) 4096 * 4096

/-- One beat-map bit per 16 samples: an O flag among them (R280). -/
def beatBits : List Bool → Nat → List Bool
  | _, 0 => []
  | l, n + 1 => (l.take 16).any id :: beatBits (l.drop 16) n

/-- Pack bits, bit b mod 8 of byte b / 8 (R117). -/
def packBits (l : List Bool) : List Byte :=
  leBytes (ceilDiv l.length 8) (packNat 1 (l.map fun b => if b then 1 else 0))

/-- The quire's samples from sample `i` on go into its blocks at `addr`, packed as in R117, and with them their beat map (R280):
from the first byte of the samples, and of the beat map, that sample `i` changes. -/
def State.copyWrite (s : State) (len i : Nat) : Nat → List ((Nat × Bool) × List QSample) → State
  | _, [] => s
  | addr, ((_, w8), xs) :: rest =>
    let e := i / 2 * 2
    let m := i / 128 * 128
    let s := s.memWrite (addr + e * twoSampleBytes w8 / 2) (packElems (if w8 then 8 else 12) ((xs.drop e).map fun x => x.val))
    let ovr := (xs.drop m).map fun x => x.ovr
    let s := s.memWrite (addr + len * twoSampleBytes w8 / 2 + m / 128) (packBits (beatBits ovr (ceilDiv ovr.length 16)))
    s.copyWrite len i (addr + quBlock len w8) rest

/-- Bring a group's copying quire up to now: the engine copies up to RATE x 0.1 GB/s of sample bytes, never a sample before the
ring holds it, and what it does not use while it waits is gone (R277). While MEM's island clock is gated it stands still. What it
copies reaches capture memory whenever the model brings it up to now (assumption 6). Once a channel is lost it copies no more, and
the quire is left OPEN (R414). -/
def State.advanceCopy (s : State) (g : Nat) : State :=
  match (s.group g).quires with
  | [] => s
  | q :: rest =>
    if s.on CM_STATUS_LOST then s else
    match q.began with
    | none => s
    | some t0 =>
      let gain := if s.gated 11 then 0 else (tDiff s.now t0).toNat * (s.get (QU_G_RATE_RATE g) * 200000000)
      let credit := q.credit + gain
      let n := credit / q.cost
      let r := copyRun s q.ins (q.ins.map fun p => s.ring p.1) q.first q.len (q.len + 1 - q.done) q.done { data := q.data, left := n }
      let credit := if r.waits then min q.cost (credit - (n - r.left) * q.cost) else credit - (n - r.left) * q.cost
      let q' : Quire := { q with data := r.data, credit := credit, began := some s.now }
      let s := (s.modGroup g fun x => { x with quires := q' :: rest }).count (QU_G_OVERRUN g) r.lost
      if q'.done = q.done then s else s.copyWrite q.len q.done q.addr (q.ins.zip r.data)

/-- Bring every copying group that names input n up to now, before its ring changes. -/
def State.advanceInput (s : State) (n : Nat) : State :=
  s.each (s.qu.groups.filter fun p => p.2.quires.any fun q => q.ins.any fun i => i.1 = n) fun s p => s.advanceCopy p.1

/-- The write of ring samples from instant k on as capture memory sees it: it wakes sleeping channels (R408), and a sector it
covers whole is poisoned no more (R412). -/
def State.ringTouch (s : State) (n : Nat) (k : Int) (count : Nat) : State :=
  let w8 := s.on (QU_VR_STATUS_WIDTH n)
  let a := s.ringSpan n w8 k count
  let rest := count - ((s.ring n).len - (k % max (s.ring n).len 1).toNat)
  let b := s.ringSpan n w8 (k + (count - rest : Nat)) rest
  ((s.cmWake a.1 a.2).ifThen (0 < rest) (·.cmWake b.1 b.2)).memClean a.1 a.2 |>.memClean b.1 b.2

/-- The ring write of a RAW frame of input n, sampled at `fs` Hz (R269, R270). -/
def State.ringWrite (s : State) (n fs : Nat) (run : RingRun) : State :=
  if s.on (QU_VR_CTL_ENABLE n) then
    (((s.advanceInput n).ringTouch n run.first run.vals.length).modRing n fun r => r.store fs run).put (QU_VR_STATUS_RUNNING n) 1
  else s

/-- An interval the RAW stream itself lost enters the ring's gap log with its cause (R271); its instants are those of `fs` Hz. -/
def State.ringLose (s : State) (n fs : Nat) (first last : Int) (cause : Nat) : State :=
  if s.on (QU_VR_CTL_ENABLE n) && (s.ring n).next.isSome && decide (first < last) then
    (s.advanceInput n).modRing n fun r => (r.rate fs first).lose first last cause
  else s

/-- QU_RING_WRITE_LOSS (R271): the writer discards its newest RAW frame from the ring copy alone. -/
def State.ringWriteLoss (s : State) (n : Nat) : State :=
  let r := s.ring n
  match r.runs.getLast? with
  | none => s
  | some q =>
    let last := q.first + q.vals.length
    let s := s.count (QU_VR_LOST n) q.vals.length
    s.modRing n fun r => ({ r with runs := r.runs.dropLast } : RingSt).lose q.first last 1

def execQuRingWriteLoss (n : Fin 16) (s : State) : Host.Outcome State Fault Refusal := .next (s.ringWriteLoss n)

/-- The copy engines keep their times' distance from the present when device time is loaded or stepped. -/
def QuSt.retime (q : QuSt) (d : Int) : QuSt :=
  { q with groups := q.groups.map fun p => (p.1, { p.2 with
      quires := p.2.quires.map fun x => { x with began := x.began.map fun t => tAddI t d } }) }

/-! ### Enabling a ring (R272) -/

/-- The ring restarts empty, with the width and length in force. -/
def State.ringRestart (s : State) (n : Nat) : State :=
  let w := s.raw8 n
  (s.modRing n fun _ => { len := ringLen (s.get (QU_VR_SIZE_SIZE n)) w }).put (QU_VR_STATUS_WIDTH n) (if w then 1 else 0)

/-- Enabled rings that hold 12-bit elements, with ring n: a ring keeps its width while its input is disabled (R270). -/
def State.rings12 (s : State) (n : Nat) : Nat :=
  ((upto 16).filter fun m => if m = n then !(s.raw8 n) else s.on (QU_VR_CTL_ENABLE m) && !(s.on (QU_VR_STATUS_WIDTH m))).length

/-- The check of a ring's enable (R272, then the switch port of R43). -/
def State.ringCheck (s : State) (n : Nat) : Nat :=
  firstFail [
    (decide (12 < s.rings12 n) && !(s.raw8 n), 0x020B),
    (s.trafficOver (s.rawRate n), 0x020A),
    (s.allocCheck .ring (s.get (QU_VR_SIZE_SIZE n)) = 0x0224, 0x0224),
    (s.allocCheck .ring (s.get (QU_VR_SIZE_SIZE n)) != 0, 0x08C0),
    (!(s.inputExists n), 0x0210),
    (s.portsFull (6 + n / 4) (ratioOf (s.rawRate n)), 0x020D)]

/-- A ring starts: memory, declared traffic, its switch port, empty. -/
def State.ringStart (s : State) (n : Nat) : State :=
  ((((s.alloc .ring n (s.get (QU_VR_SIZE_SIZE n))).setTraffic .ring n (s.rawRate n)).tiePort (6 + n / 4) (sid 0 n)
    (ratioOf (s.rawRate n))).ringRestart n).put (QU_VR_STATUS_RUNNING n) (if s.inputRuns n then 1 else 0)

/-- A ring stops and frees its memory. -/
def State.ringStop (s : State) (n : Nat) : State :=
  ((((s.advanceInput n).free .ring n).setTraffic .ring n 0).freePort (6 + n / 4) (sid 0 n)).modRing n (fun _ => {})
    |>.put (QU_VR_STATUS_RUNNING n) 0

/-- A write of QU_VR_CTL_n. -/
def State.quVrCtlWrite (s : State) (n v : Nat) : State × Nat :=
  s.enableWrite (QU_VR_CTL n) v (QU_VR_CTL_ENABLE n) (QU_VR_CTL_REASON n) (fun _ => 0) (·.ringCheck n) (·.ringStart n)
    (·.ringStop n)

/-- A write of QU_VR_SIZE_n: 0780h while enabled (R292), 0180h below 16 MiB. -/
def State.quVrSizeWrite (s : State) (n v : Nat) : State × Nat :=
  if s.on (QU_VR_CTL_ENABLE n) && s.changes (QU_VR_SIZE n) v != 0 then s.answer (QU_VR_CTL_REASON n) 0x0780
  else if bits v 15 0 < 16 then s.answer (QU_VR_CTL_REASON n) 0x0180
  else ((s.plainWrite (QU_VR_SIZE n) v).put (QU_VR_CTL_REASON n) 0, 0)

def execQuVrEnable (p : Fin 5) (n : Fin 16) (v : Word) (s : State) : Host.Outcome State Fault Refusal :=
  .next (s.gatedWrite p (QU_VR_CTL n) fun s => s.quVrCtlWrite n v.toNat)

/-! ### Quire geometry (R280, R283) -/

/-- Z: one block per input and the gap list (R280). -/
def State.quZ (s : State) (g : Nat) : Nat :=
  (s.quInputs g).foldl (fun a n => a + quBlock (s.quLen g) (s.on (QU_VR_STATUS_WIDTH n))) 0 + 4096

/-- NQ (R283). -/
def State.quNq (s : State) (g : Nat) : Nat := min (s.get (QU_G_AREA_MIB g) * 2 ^ 20 / s.quZ g) (2 ^ 24)

/-- MiB of the colophon table. -/
def State.quColoMib (s : State) (g : Nat) : Nat := ceilDiv (128 * s.quNq g) (2 ^ 20)

/-- The check of a group's enable (R293), 0210h before class 03h as R2 asks. -/
def State.groupCheck (s : State) (g : Nat) : Nat :=
  let ins := s.quInputs g
  let len := s.get (QU_G_LEN_LEN256 g)
  let pre := s.get (QU_G_PRE_PRE256 g)
  let trig (r : Nat) := s.get (QU_G_TRIG_UNITS r g)
  let area := s.allocCheck .quire (s.get (QU_G_AREA_MIB g))
  let area2 := (s.alloc .quire g (s.get (QU_G_AREA_MIB g))).allocCheck .colophon (s.quColoMib g)
  firstFail [
    (decide (len < 1) || decide (2 ^ 24 < len) || decide (len < pre) || ins.isEmpty
      || (upto 5).all (fun r => trig r = 0), 0x0180),
    (s.variant = .yn9608 && (ins.any (fun n => decide (8 ≤ n)) || trig 2 != 0 || trig 3 != 0), 0x0210),
    (ins.any (fun n => !(s.on (QU_VR_CTL_ENABLE n))) || ins.any (fun n => s.fsHz n != s.fsHz (ins.headD 0)), 0x0380),
    (ins.any (fun n => decide ((s.ring n).len < 256 * pre)), 0x0225),
    (decide (s.quNq g < 2), 0x0226),
    (area = 0x0224 || area2 = 0x0224, 0x0224),
    (area != 0 || area2 != 0, 0x08C0),
    (s.trafficOver (2 * s.get (QU_G_RATE_RATE g) * 100000000), 0x020A)]

/-- A group starts (R276, R283, R291). Quires of an earlier run still on their way out go on (R288). -/
def State.groupStart (s : State) (g : Nat) : State :=
  let nq := s.quNq g
  let s := ((s.alloc .quire g (s.get (QU_G_AREA_MIB g))).alloc .colophon g (s.quColoMib g)).setTraffic .quire g
    (2 * s.get (QU_G_RATE_RATE g) * 100000000)
  let s := (s.put (QU_G_NQ_NQ g) nq).setPair (QU_G_BASE_LO g) (QU_G_BASE_HI g) (s.allocBase .quire g)
  let s := (s.setPair (QU_G_COLO_LO g) (QU_G_COLO_HI g) (s.allocBase .colophon g)).setPair (QU_G_NEXT_LO g) (QU_G_NEXT_HI g) 0
  let s := (s.setPair (QU_G_CLOSED_LO g) (QU_G_CLOSED_HI g) (2 ^ 64 - 1)).setPair (QU_G_RELEASE_LO g) (QU_G_RELEASE_HI g) (2 ^ 64 - 1)
  let s := (s.setVal (QU_G_STATUS g) 1).modGroup g fun x => { exports := x.exports }
  let s := s.openStream (sid 10 g)
  if s.on (QU_G_CTL_EXPORT g) then s.openStream (sid 9 g) else s

/-- Address of the colophon of quire q. -/
def State.coloAddr (s : State) (g q : Nat) : Nat :=
  s.pair (QU_G_COLO_LO g) (QU_G_COLO_HI g) + 128 * (q % s.get (QU_G_NQ_NQ g))

/-- DATA_ADDR of quire q (R283). -/
def State.quAddr (s : State) (g q : Nat) : Nat :=
  s.pair (QU_G_BASE_LO g) (QU_G_BASE_HI g) + s.quZ g * (q % s.get (QU_G_NQ_NQ g))

/-! ### Triggers offered (R274, R276, R285) -/

/-- Bytes of a trigger record (Table TG-2). -/
def trigBytes (t : TrigRec) : List Byte :=
  leBytes 10 t.time.toNat ++ leBytes 1 (t.kind % 16 + 16 * t.unit) ++ [t.flags] ++ leBytes 2 t.source.toNat
    ++ leBytes 1 t.region ++ [0] ++ leBytes 4 t.detail.toNat ++ leBytes 4 t.value.toNat ++ leBytes 4 t.number.toNat
    ++ leBytes 4 t.extent.toNat

/-- Show how many quires copy. -/
def State.showCopying (s : State) (g : Nat) : State := s.put (QU_G_STATUS_COPYING g) (s.group g).quires.length

/-- With KEEP = 1 quire `q` waits for the release of quire q - NQ (R285). -/
def State.slotFree (s : State) (g q : Nat) : Bool :=
  let nq := s.get (QU_G_NQ_NQ g)
  !(s.on (QU_G_CTL_KEEP g)) || decide (q < nq) ||
    (match (s.group g).released with | some r => decide (q - nq ≤ r) | none => false)

/-- A refused trigger (R276, R285): counted, with a GAP record of the COLO stream. -/
def State.refuseTrigger (s : State) (g cause : Nat) : State :=
  (s.count (QU_G_REFUSED g) 1).gap (sid 10 g) s.now 1 cause

/-- A trigger offered to a running group that watches its unit (R273, R276, R285). -/
def State.offer (s : State) (g : Nat) (t : TrigRec) : State :=
  if !(s.on (QU_G_CTL_ENABLE g)) || bits (s.get (QU_G_TRIG_UNITS t.region g)) t.unit t.unit = 0 then s
  else
    let ins := s.quInputs g
    let fs := s.fsHz (ins.headD 0)
    let len := s.quLen g
    let first := instAt fs t.time - s.quPre g
    let grp := s.group g
    let shares := match grp.last with
      | some l => decide (l.2 < first + len) && decide (first < l.2 + len)
      | none => false
    if !(s.on (QU_G_CTL_RETRIG g)) && shares then
      let lastNum := (grp.last.getD (0, 0)).1
      (s.count (QU_G_IGNORED g) 1).modGroup g fun x => { x with
        quires := x.quires.map fun q => if q.num = lastNum then { q with ignored := q.ignored + 1 } else q }
    else if 16 ≤ grp.quires.length then
      s.refuseTrigger g (match grp.quires.head? with
        | some q => if q.began.isNone && !(s.slotFree g q.num) then 0xC else 1
        | none => 1)
    else
      let num := s.pair (QU_G_NEXT_LO g) (QU_G_NEXT_HI g)
      let q : Quire := {
        num := num, first := first, fs := fs, trig := trigBytes t
        ins := ins.map fun n => (n, s.on (QU_VR_STATUS_WIDTH n))
        len256 := s.get (QU_G_LEN_LEN256 g), pre256 := s.get (QU_G_PRE_PRE256 g)
        addr := s.quAddr g num, colo := s.coloAddr g num
        coasting := bits t.flags.toNat 0 0 = 1 || s.coastAt (instTime fs first) }
      ((s.modGroup g fun x => { x with quires := x.quires ++ [q], last := some (num, first) }).setPair
        (QU_G_NEXT_LO g) (QU_G_NEXT_HI g) ((num + 1) % 2 ^ 56)).showCopying g

/-- A fired trigger is offered to every group (R235). -/
def State.offerGroups (s : State) (t : TrigRec) : State := s.each (upto 64) fun s g => s.offer g t

def execQuTriggerOffer (g : Fin 64) (t : TrigRec) (s : State) : Host.Outcome State Fault Refusal := .next (s.offer g t)

/-! ### Copying and closing (R277, R280 to R284) -/

/-- Write QSEQ with STATE `st` in one 8-byte write (R284). -/
def State.writeQseq (s : State) (q : Quire) (st : Nat) : State :=
  s.memWrite q.colo (leBytes 8 (q.num % 2 ^ 56 + st * 2 ^ 56))

/-- QU_COPY_START (R277, R284, R285): the next quire, when its slot may be taken. -/
def State.copyStart (s : State) (g : Nat) : State :=
  match (s.group g).quires with
  | [] => s
  | q :: rest =>
    if q.began.isSome || !(s.slotFree g q.num) || s.on CM_STATUS_LOST then s
    else
      (s.writeQseq q 1).modGroup g fun x => { x with
        quires := { q with began := some s.now, credit := q.cost, data := q.ins.map fun _ => [] } :: rest }

def execQuCopyStart (g : Fin 64) (s : State) : Host.Outcome State Fault Refusal :=
  .next (s.inIsland 11 fun s => s.copyStart g)

/-- Lost intervals of one input: start, length and cause of each run of samples lost to one cause. -/
def lossRuns : Nat → List QSample → List (Nat × Nat × Nat)
  | _, [] => []
  | i, x :: t =>
    let rest := lossRuns (i + 1) t
    if x.cause = 0 then rest
    else match rest with
      | (a, n, c) :: r => if a = i + 1 ∧ c = x.cause then (i, n + 1, c) :: r else (i, 1, x.cause) :: rest
      | [] => [(i, 1, x.cause)]

/-- A gap list entry (Table QU-1): input, start, length, cause. -/
structure QGap where
  input : Nat
  start : Nat
  len : Nat
  cause : Nat
  deriving DecidableEq, Repr

/-- Lost intervals in order of input and then START (R281). -/
def quireGaps (ins : List Nat) (data : List (List QSample)) : List QGap :=
  (ins.zip data).flatMap fun p => (lossRuns 0 p.2).map fun x => ⟨p.1, x.1, x.2.1, x.2.2⟩

/-- Every interval from the 64th onwards merged into entry 63 (R281), with the samples held between them: the group's inputs
count as standing one after the other, in the order of their blocks. -/
def mergeGaps (ins : List Nat) (len : Nat) (l : List QGap) : List QGap :=
  if l.length ≤ 64 then l
  else
    let a := l.getD 63 ⟨0, 0, 0, 0⟩
    let b := l.getLastD a
    let place (x : QGap) : Nat := ins.idxOf x.input * len + x.start
    l.take 63 ++ [{ a with len := place b + b.len - place a }]

/-- Bytes of a gap entry (Table QU-1). -/
def gapBytes (x : QGap) : List Byte :=
  leBytes 6 x.start ++ leBytes 6 x.len ++ leBytes 1 x.input ++ [0] ++ leBytes 2 x.cause

/-- Samples packed as in R117, then the beat map. -/
def packRaw (w8 : Bool) (vals : List Int) (ovr : List Bool) : List Byte :=
  packElems (if w8 then 8 else 12) vals ++ packBits (beatBits ovr (ceilDiv ovr.length 16))

/-- Pad with zeros to `n` bytes. -/
def padTo (n : Nat) (l : List Byte) : List Byte := l ++ List.replicate (n - l.length) 0

/-- Bytes 8 to 123 of a colophon (Table QU-2). -/
structure ColoSpec where
  seq : Nat
  exportCut : Bool := false
  exportLost : Nat := 0

/-- The quire's inputs, and its gap list (R281). -/
def Quire.inputs (q : Quire) : List Nat := q.ins.map fun p => p.1
def Quire.gapList (q : Quire) : List Byte := (mergeGaps q.inputs q.len (quireGaps q.inputs q.data)).flatMap gapBytes

/-- The 128 bytes of a colophon, CRC included (Table QU-2). ELEMENT and BLOCK are those of the first input. -/
def coloBytes (g : Nat) (q : Quire) (closeTime : DevTime) (c : ColoSpec) : List Byte :=
  let w8 := (q.ins.headD (0, false)).2
  let gaps := quireGaps q.inputs q.data
  let all := q.data.flatMap id
  let flag (b : Nat) (on : Bool) : Nat := if on then 2 ^ b else 0
  let flags := flag 0 (all.any fun x => x.cause = 0xB) + flag 1 (!gaps.isEmpty) + flag 2 (all.any fun x => x.ovr)
    + flag 3 (all.any fun x => x.cal) + flag 4 q.coasting + flag 5 (decide (64 < gaps.length)) + flag 6 c.exportCut
  let body := leBytes 8 c.seq ++ leBytes 10 (instTime q.fs q.first).toNat ++ leBytes 2 g
    ++ leBytes 2 (q.inputs.foldl (fun a n => a + 2 ^ n) 0) ++ leBytes 1 (if w8 then 2 else 1) ++ leBytes 1 flags
    ++ leBytes 4 q.len256 ++ leBytes 4 q.pre256 ++ leBytes 8 q.addr
    ++ leBytes 8 (quBlock q.len w8) ++ q.trig ++ leBytes 6 (gaps.foldl (fun a x => a + x.len) 0)
    ++ leBytes 2 ((gaps.head?.map fun x => x.cause).getD 0) ++ leBytes 2 (min gaps.length 64) ++ leBytes 2 0
    ++ leBytes 4 q.ignored ++ leBytes 10 closeTime.toNat ++ leBytes 2 0 ++ leBytes 8 c.exportLost ++ leBytes 8 0
  body ++ leBytes 4 (crc32c body)

/-- QSEQ of a closed quire. -/
def closedSeq (q : Nat) : Nat := q % 2 ^ 56 + 2 * 2 ^ 56

/-- The quire's bytes: a block per input, then the gap list (R280). -/
def Quire.bytes (q : Quire) : List Byte :=
  ((q.ins.zip q.data).flatMap fun p =>
    padTo (quBlock q.len p.1.2) (packRaw p.1.2 (p.2.map fun x => x.val) (p.2.map fun x => x.ovr)))
  ++ padTo 4096 q.gapList

/-- Close the quire at the head: its last data and the gap list, the colophon, then QSEQ CLOSED (R284); QU_G_CLOSED follows, and
with EXPORT = 1 the quire waits to be sent. -/
def State.closeQuire (s : State) (g : Nat) (q : Quire) (rest : List Quire) : State :=
  let colo := coloBytes g q s.now ⟨closedSeq q.num, false, 0⟩
  let s := s.memWrite q.addr q.bytes
  let s := ((s.memWrite (q.colo + 8) (colo.drop 8)).writeQseq q 2).setPair (QU_G_CLOSED_LO g) (QU_G_CLOSED_HI g) q.num
  let ex := if s.on (QU_G_CTL_EXPORT g) then [(⟨q, colo, q.gapList, 0, 0⟩ : QExport)] else []
  (s.modGroup g fun x => { x with quires := rest, closed := some q.num, exports := x.exports ++ ex }).showCopying g

/-- QU_QUIRE_CLOSE (R284): when the engine has finished the quire. -/
def State.quireClose (s : State) (g : Nat) : State :=
  let s := s.advanceCopy g
  match (s.group g).quires with
  | [] => s
  | q :: rest =>
    if q.began.isSome && decide (q.done = q.len) && !(s.on CM_STATUS_LOST) then s.closeQuire g q rest else s

def execQuQuireClose (g : Fin 64) (s : State) : Host.Outcome State Fault Refusal :=
  .next (s.inIsland 11 fun s => s.quireClose g)

/-! ### Disabling a group (R292) -/

/-- Close the head quire of a group that stops: what is not copied is one gap entry per input of cause "capture stopped";
a quire whose slot is not released is refused (assumption 8); after the loss of a channel a quire stays OPEN (R414). -/
def State.stopQuire (s : State) (g : Nat) : State :=
  match (s.group g).quires with
  | [] => s
  | q :: rest =>
    if s.on CM_STATUS_LOST then (s.modGroup g fun x => { x with quires := rest }).showCopying g
    else if q.began.isNone && !(s.slotFree g q.num) then
      ((s.modGroup g fun x => { x with quires := rest }).refuseTrigger g 0xC).showCopying g
    else
      let s := if q.began.isNone then s.writeQseq q 1 else s
      let d := if q.began.isNone then q.ins.map fun _ => [] else q.data
      let full := d.map fun l => l ++ List.replicate (q.len - l.length) (⟨0, false, false, 0x10⟩ : QSample)
      s.closeQuire g { q with data := full } rest

/-- A group stops (R292). -/
def State.groupStop (s : State) (g : Nat) : State :=
  let s := s.advanceCopy g
  let s := s.each (s.group g).quires fun s _ => s.stopQuire g
  let s := ((s.free .quire g).free .colophon g).setTraffic .quire g 0
  let s := s.setVal (QU_G_STATUS g) 0
  if (s.group g).exports.isEmpty then (s.closeStream (sid 9 g)).closeStream (sid 10 g) else s

/-- A write of QU_G_CTL_g (R292, R293). -/
def State.quGroupCtlWrite (s : State) (g v : Nat) : State × Nat :=
  s.enableWrite (QU_G_CTL g) v (QU_G_CTL_ENABLE g) (QU_G_CTL_REASON g)
    (fun s => if s.on (QU_G_CTL_ENABLE g) then 0x0780 else 0) (·.groupCheck g) (·.groupStart g) (·.groupStop g)

/-- A write of another LK register of a group: 0780h while it is enabled (R292). -/
def State.quGroupSetWrite (s : State) (g a v : Nat) : State × Nat :=
  if s.on (QU_G_CTL_ENABLE g) && s.changes a v != 0 then s.answer (QU_G_CTL_REASON g) 0x0780
  else ((s.plainWrite a v).put (QU_G_CTL_REASON g) 0, 0)

def execQuGroupEnable (p : Fin 5) (g : Fin 64) (v : Word) (s : State) : Host.Outcome State Fault Refusal :=
  .next (s.gatedWrite p (QU_G_CTL g) fun s => s.quGroupCtlWrite g v.toNat)

/-- QU_GROUP_DISABLE (R292): the write of QU_G_CTL_g that clears ENABLE and leaves its other fields. -/
def execQuGroupDisable (p : Fin 5) (g : Fin 64) (s : State) : Host.Outcome State Fault Refusal :=
  .next (s.gatedWrite p (QU_G_CTL g) fun s => s.quGroupCtlWrite g (s.val (QU_G_CTL g) / 2 * 2))

/-! ### Release (R286) -/

/-- A write of QU_G_RELEASE_LO_g: the low word of the coming release number. -/
def State.quRelLoWrite (s : State) (g v : Nat) : State × Nat :=
  (s.modGroup g fun x => { x with relLo := BitVec.ofNat 32 v }, 0)

/-- A write of QU_G_RELEASE_HI_g releases every quire up to R, or is refused with 0580h (R286). -/
def State.quRelHiWrite (s : State) (g v : Nat) : State × Nat :=
  let grp := s.group g
  let r := grp.relLo.toNat + 2 ^ 32 * v
  let bad := match grp.closed with
    | none => true
    | some c => decide (c < r) || r = 2 ^ 64 - 1 || (match grp.released with | some x => decide (r < x) | none => false)
  if bad then s.answer (QU_G_CTL_REASON g) 0x0580
  else
    (((s.modGroup g fun x => { x with released := some r }).setPair (QU_G_RELEASE_LO g) (QU_G_RELEASE_HI g) r).put
      (QU_G_CTL_REASON g) 0, 0)

def execQuRelease (p : Fin 5) (g : Fin 64) (v : Word) (s : State) : Host.Outcome State Fault Refusal :=
  .next (s.gatedWrite p (QU_G_RELEASE_HI g) fun s => s.quRelHiWrite g v.toNat)

/-! ### Export (R288, R289) -/

/-- A record that leaves in its own shape (R37, R288). -/
def State.directRecord (s : State) (id : BitVec 16) (fmt : Nat) (t : DevTime) (region flags : Nat) (payload : List Byte) : State :=
  s.sendRecord .direct 0 {
    type := BitVec.ofNat 8 (id.toNat / 4096), stream := id, hive := s.hive, seq := s.exitSeqOf .direct 0 id, time := t
    flags := BitVec.ofNat 16 flags, format := BitVec.ofNat 16 fmt, gapLength := 0, gapCause := 0, contrib := 0
    excised := 0, epoch := s.epoch region, payload := payload }

/-- FLAGS bit 7 of a record: the timebase coasted or slewed at its TIME (R58). -/
def coastFlag (s : State) (t : DevTime) : Nat := if s.coastAt t then 128 else 0

/-- Samples of a slice (R288). -/
def sliceMax : Nat := 1048576

/-- The loss a stream must report before its next record (R30, R289), as a GAP record of the direct exit. -/
def State.flushLoss (s : State) (id : BitVec 16) : State :=
  let st := s.stream id
  if st.lost = 0 then s
  else
    let s := s.sendRecord .direct 0 (recordOfGap s .direct 0 11
      ⟨id, st.lostTime, BitVec.ofNat 48 st.lost, BitVec.ofNat 16 st.lostCause, false⟩)
    s.modStream id fun x => { x with lost := 0, lostCause := 0 }

/-- The group emits its next QUIR slice, in input order and then slice order, and the COLO record after the last
(R288); a lost channel has ended both streams (R414). With the stream's buffer full the record is discarded and counted (R289). -/
def State.exportSlice (s : State) (g : Nat) : State :=
  match (s.group g).exports with
  | [] => s
  | e :: rest =>
    if s.on CM_STATUS_LOST then s.modGroup g fun x => { x with exports := [] } else
    let per := ceilDiv e.quire.len sliceMax
    let setHead (s : State) (e : QExport) : State := s.modGroup g fun x => { x with exports := e :: rest }
    if e.slice < per * e.quire.ins.length then
      let i := e.slice / per
      let j := e.slice % per
      let (n, w8) := e.quire.ins.getD i (0, false)
      let xs := ((e.quire.data.getD i []).drop (j * sliceMax)).take sliceMax
      let t := instTime e.quire.fs (e.quire.first + j * sliceMax)
      let next := { e with slice := e.slice + 1 }
      if (s.stream (sid 9 g)).full then
        (setHead s { next with lost := e.lost + 1 }).modStream (sid 9 g) fun x => { x with
          lost := x.lost + 1, lostCause := 1, lostTime := if x.lost = 0 then t else x.lostTime }
      else
        let desc := leBytes 8 (e.quire.num % 2 ^ 56) ++ leBytes 1 n ++ [0] ++ leBytes 2 j ++ leBytes 4 xs.length
        setHead ((s.flushLoss (sid 9 g)).directRecord (sid 9 g) (if w8 then 0x0210 else 0x0110) t 11 (coastFlag s t)
          (desc ++ packRaw w8 (xs.map fun x => x.val) (xs.map fun x => x.ovr))) next
    else
      let s := s.modGroup g fun x => { x with exports := rest }
      let s := if (s.stream (sid 10 g)).full then
          s.modStream (sid 10 g) fun x => { x with
            lost := x.lost + 1, lostCause := 1, lostTime := if x.lost = 0 then s.now else x.lostTime }
        else
          let colo := if e.lost = 0 then e.colophon
            else
              let b := e.colophon.take 23 ++ leBytes 1 (setBits ((e.colophon.getD 23 0).toNat) 6 6 1)
                ++ (e.colophon.drop 24).take 84 ++ leBytes 8 e.lost ++ (e.colophon.drop 116).take 8
              b ++ leBytes 4 (crc32c b)
          (s.flushLoss (sid 10 g)).directRecord (sid 10 g) 0x0900 (instTime e.quire.fs e.quire.first) 11
            (coastFlag s (instTime e.quire.fs e.quire.first)) (colo ++ e.gaps)
      if rest.isEmpty && !(s.on (QU_G_CTL_ENABLE g)) then (s.closeStream (sid 9 g)).closeStream (sid 10 g) else s

def execQuExportSlice (g : Fin 64) (s : State) : Host.Outcome State Fault Refusal :=
  .next (s.inIsland 11 fun s => s.exportSlice g)

end Sys2Proof.Machine
end

