-- ==== Sys2Proof/Machine/Front.lean ====
section
/-! DEFINITION. Machine/Front.lean: the analogue inputs from ball to RAW stream (chapter 04, R103 to R138, R569). -/

namespace Sys2Proof.Machine

/-- Input n beyond its registers. -/
def State.inp (s : State) (n : Nat) : AfIn := kvGetD s.af n {}

/-- Change an input. -/
def State.modIn (s : State) (n : Nat) (f : AfIn → AfIn) : State := { s with af := kvMod {} s.af n f }

/-- Full scale in uVpp (Table CV-1). -/
def fullScaleUv (code : Nat) : Nat := if code = 1 then 700000 else if code = 2 then 1400000 else 1000000

/-- Nothing keeps the input from delivering: it runs, the device has not stopped it (R41, R60), it is not being measured
(R563), its synthesiser is neither ramping nor lost (R54), and a converter pair serves it (R580). -/
def State.mayDeliver (s : State) (n : Nat) : Bool :=
  s.inputRuns n && !(s.inp n).held && !(s.inp n).exhausted && (kvGet s.ca.lossFrom n).isNone
    && (kvGetD s.time.syn (2 + n / 4) {}).discardFrom.isNone && !(s.lost (2 + n / 4))
    && s.dutyUp (2 + n / 4) (n % 4)

/-! ### Runs of samples (R24, R30, R54, R119, R120) -/

/-- The present in the device time of the input's samples. -/
def State.inputNow (s : State) (n : Nat) : DevTime := tAddI s.now (-(s.inp n).lag)

/-- Absolute index of the input's next sample. -/
def AfIn.nextInst (x : AfIn) : Int := instAt x.fs x.lastSample + 1

/-- A gap record of a RAW stream (R30), which the stages it feeds take with their samples. -/
def State.rawGap (s : State) (n : Nat) (t : DevTime) (len cause : Nat) : State :=
  (s.gap (sid 0 n) t len cause).feed n [.gap ⟨sid 0 n, t, BitVec.ofNat 48 len, BitVec.ofNat 16 cause, false⟩]

/-- Every instant of the input's present run in another device time. -/
def AfIn.shift (x : AfIn) (d : Int) : AfIn :=
  { x with
    lastSample := tAddI x.lastSample d
    endAt := x.endAt.map fun t => tAddI t d
    settling := x.settling.map fun t => tAddI t d
    settles := x.settles.map fun p => (tAddI p.1 d, tAddI p.2 d)
    over6 := x.over6.map fun p => (tAddI p.1 d, p.2)
    sys := x.sys.map fun m => { m with start := tAddI m.start d }
    cal := x.cal.map fun m => { m with start := tAddI m.start d }
    srcs := x.srcs.map fun p => (tAddI p.1 d, p.2)
    evts := x.evts.map fun e => { e with at_ := tAddI e.at_ d }
    todo := x.todo.map fun p => (tAddI p.1 d, p.2)
    skewSince := tAddI x.skewSince d
    meas := x.meas.map fun m => { m with from_ := tAddI m.from_ d, last := tAddI m.last d } }

/-- The last frame of the run has left: the gap record that follows it at once (R41, R69), the device time of what comes next;
a disabled input stops forming frames. -/
def State.inputTail (s : State) (n : Nat) : State :=
  let x := s.inp n
  let s := match x.endGap with
    | some c => s.rawGap n (instTime x.fs x.nextInst) 0 c
    | none => s.feed n [.pause]
  s.modIn n fun x => { (x.shift x.lag) with
    lag := 0, endGap := none, endGo := false, runs := s.on (AF_IN_CTL_ENABLE n)
    endAt := if x.endGo then none else some (tAddI (instTime x.fs x.nextInst) x.lag) }

/-- The run of samples ends (R54, R119, R120): with the last whole pair sampled so far. `gap` is the cause of a gap record of
length 0 that follows its last frame, `go` says that the next run follows at once (R69). -/
def State.inputEnd (s : State) (n : Nat) (gap : Option Nat := none) (go : Bool := false) : State :=
  let x := s.inp n
  if !x.runs || x.endAt.isSome then s
  else
    let k := instAt x.fs (s.inputNow n) / 2 * 2
    let e := max k x.nextInst
    let s := s.modIn n fun x => { x with endAt := some (instTime x.fs e), endGap := gap, endGo := go }
    let s := if go then s else s.put (AF_IN_STATUS_RUNNING n) 0
    if e = x.nextInst then s.inputTail n else s

/-- Device stop of an input whose streams end with final gap records (R60): nothing of its samples goes on. -/
def State.inputCut (s : State) (n : Nat) : State :=
  let s := (s.modIn n fun x => { (x.shift x.lag) with
    lag := 0, exhausted := true, endGap := none, endGo := false
    endAt := some (tAddI (instTime x.fs x.nextInst) x.lag) }).put (AF_IN_STATUS_RUNNING n) 0
  let r := 6 + n / 4
  let g (id : BitVec 16) : GapRec := ⟨id, s.now, 0, 0xFF, true⟩
  let s := s.toDetection r (n % 4) (.gap (g (sid 2 n)))
  let s := s.each ((upto 16).filter fun i => s.on (ZP_ZTU_SLOT_ON r i) && s.get (ZP_ZTU_SLOT_PATH r i) / 4 = n % 4) fun s i =>
    s.toDetection r (16 + i) (.gap (g (sid 1 (16 * (n / 4) + s.get (ZP_ZTU_SLOT_PATH r i)))))
  let us := s.levelUnits (n / 4) 0 (n % 4) ++ (upto 4).flatMap fun i => s.levelUnits (n / 4) 1 (4 * (n % 4) + i)
  let s := s.each us fun s u => s.giveUnit (n / 4) u [.gap s.now 0xFF]
  { s with
    zp := s.zp.map fun p =>
      if p.1 / 4 = n then (p.1, { p.2 with wait := .sync, inq := [], buf := [], wide := [], markers := [] }) else p
    bt := s.bt.map fun p => if p.1 = n then (p.1, { p.2 with wait := .sync, inq := [], markers := [] }) else p }

/-- What was sampled before the end of the run and never put into a frame is lost: it counts in the gap record that comes next.
Markers inserted before it stand before the first sample that follows. -/
def State.inputFlush (s : State) (n : Nat) : State :=
  let x := s.inp n
  let s := match x.endGap with
    | some c => s.rawGap n (instTime x.fs x.nextInst) 0 c
    | none => s
  let s := s.modIn n fun x => { (x.shift x.lag) with lag := 0, endGap := none, endGo := false, endAt := none }
  { s with flow := { s.flow with frameMarkers := s.flow.frameMarkers.map fun p =>
      if p.1 = n then (p.1, p.2.map fun m => { m with offset := 0 }) else p } }

/-- The AF output stage's own SYNC_RESET marker, to every stage of the input's path, before the sample at `t`; with `now` it is the
next one, and one marker stands there (R41, R54, R60, R63, R120, R138). -/
def State.ownSyncReset (s : State) (n : Nat) (t : DevTime) (now : Bool) : State :=
  { s with flow := { s.flow with
      requests := (s.flow.requests.filter fun q => !(now && q.now && q.stage = .input n && q.type = .syncReset))
        ++ [⟨.input n, .syncReset, 0xFFFF, t, 0, now⟩] } }

/-- The internal correction in force at `t`: it moves linearly over 100 ms (R568). -/
def CalMove.at_ (m : CalMove) (t : DevTime) : InVal :=
  if m.from_ = m.to_ then m.to_
  else
    let d := nsTicks 100000000
    let e := min (tDiff t m.start).toNat d
    let mix (f : InVal → Ratio) : Ratio := ratioMix (f m.from_) (f m.to_) e d
    ⟨mix (·.offA), mix (·.offB), mix (·.gainA), mix (·.gainB), mix (·.skew)⟩
def AfIn.corr (x : AfIn) (t : DevTime) : InVal :=
  match x.cal.find? fun m => tLe m.start t with
  | some m => m.at_ t
  | none => match x.cal.getLast? with
    | some m => m.from_
    | none => {}

/-- The correction moves from its value at `t` to `v`; movements that no sample still to come needs are forgotten. -/
def AfIn.moveCal (x : AfIn) (t : DevTime) (from_ to_ : InVal) : AfIn :=
  let keep := (x.cal.takeWhile fun m => tLt x.lastSample m.start) ++ (x.cal.find? fun m => tLe m.start x.lastSample).toList
  { x with cal := ⟨t, from_, to_⟩ :: keep }

/-- The system correction in force at `t`: offset in 2^-6 LSB, gain in 2^-20 (R134). -/
def SysMove.at_ (m : SysMove) (t : DevTime) : Ratio × Ratio :=
  let k := min 64 ((tDiff t m.start).toNat * 64 / 2 ^ 48)
  (ratioMix m.oOld (ratioOf m.oNew) k 64, ratioMix m.gOld (ratioOf m.gNew) k 64)
def AfIn.sysAt (x : AfIn) (t : DevTime) : Ratio × Ratio :=
  match x.sys.find? fun m => tLe m.start t with
  | some m => m.at_ t
  | none => match x.sys.getLast? with
    | some m => (m.oOld, m.gOld)
    | none => (⟨0, 1⟩, ⟨1048576, 1⟩)

/-! ### Notches (R125 to R131) -/

/-- Notch k of the shadow bank, and of the active bank. -/
def State.shadowNotch (s : State) (n k : Nat) : Notch :=
  ⟨s.get (AF_NOTCH_FREQ_FREQ n k), s.get (AF_NOTCH_SHAPE_WIDTH n k), s.get (AF_NOTCH_SHAPE_ORDER n k),
    s.on (AF_NOTCH_SHAPE_ON n k)⟩
def State.activeNotch (s : State) (n k : Nat) : Notch :=
  ⟨s.get (AF_NOTCH_ACT_FREQ_FREQ n k), s.get (AF_NOTCH_ACT_SHAPE_WIDTH n k), s.get (AF_NOTCH_ACT_SHAPE_ORDER n k),
    s.on (AF_NOTCH_ACT_SHAPE_ON n k)⟩

/-- Why a notch is not valid at sample rate `fs` (R125), in the order of Table CV-10; 0 when it is. -/
def notchFault (fs : Nat) (x : Notch) : Nat :=
  if x.freq * 10 < x.width * 500 || fs < 2 * (x.freq * 10 + x.width * 500) then 0x0130
  else if x.order != 2 && x.order != 4 && x.order != 8 then 0x0131
  else if x.width < 100 || 50000 < x.width then 0x0132
  else 0

/-- The first notch that is ON and not valid (R127). -/
def firstNotchFault (fs : Nat) (l : List Notch) : Nat :=
  match (l.filter fun x => x.on && notchFault fs x != 0).head? with
  | some x => notchFault fs x
  | none => 0

/-- Settling samples of a notch: 0.35 x ORDER / WIDTH seconds, rounded up (R129). -/
def notchSettle (fs : Nat) (x : Notch) : Nat := ceilDiv (35 * x.order * fs) (100 * x.width * 1000)

/-- Frames that hold any of `k` samples from the one at `t` on carry the settling flag. -/
def State.settleFor (s : State) (n : Nat) (t : DevTime) (k : Nat) : State :=
  if k = 0 then s
  else
    (s.modIn n fun x => { x with settles := x.settles ++ [(t, instTime x.fs (instAt x.fs t + k))] }).put
      (AF_IN_STATUS_SETTLING n) 1

/-- A COEF_SWAP marker at stage 6, before the sample at `t` (R129): the banks are exchanged; newly enabled or changed notches
start from zero state and settle. -/
def State.notchSwap (s : State) (n : Nat) (t : DevTime) : State :=
  let old := (upto 4).map (s.activeNotch n)
  let new := (upto 4).map (s.shadowNotch n)
  let fresh := (old.zip new).filter fun p => p.2.on && p.1 != p.2
  let s := s.each (upto 4) fun s k =>
    let f := s.reg (AF_NOTCH_FREQ n k)
    let h := s.reg (AF_NOTCH_SHAPE n k)
    let af := s.reg (AF_NOTCH_ACT_FREQ n k)
    let ah := s.reg (AF_NOTCH_ACT_SHAPE n k)
    (((s.setReg (AF_NOTCH_FREQ n k) af).setReg (AF_NOTCH_SHAPE n k) ah).setReg (AF_NOTCH_ACT_FREQ n k) f).setReg
      (AF_NOTCH_ACT_SHAPE n k) h
  (s.modIn n fun x => { x with evts := x.evts ++ [⟨t, some new⟩] }).settleFor n t
    (fresh.foldl (fun a p => max a (notchSettle (s.inp n).fs p.2)) 0)

/-- A SYNC_RESET marker at stage 6, before the sample at `t` (R130): every active notch starts from zero state and settles. -/
def State.notchReset (s : State) (n : Nat) (t : DevTime) : State :=
  let on := ((upto 4).map (s.activeNotch n)).filter fun x => x.on
  (s.modIn n fun x => { x with evts := x.evts ++ [⟨t, none⟩] }).settleFor n t
    (on.foldl (fun a x => max a (notchSettle (s.inp n).fs x)) 0)

/-- The marker is of type `t` and acts on the stage that produces stream `id`, or on every stage (R24, R25). -/
def aimedAt (m : Marker) (t : MarkerType) (id : BitVec 16) : Bool := m.type = t && (m.target = id || m.target = 0xFFFF)

/-- A write of AF_NOTCH_SWAP_CTL_n (R127): ARM checks the shadow bank and requests the marker. What the W1S bit ARM reads back is
not stated: it always reads 0 (DESIGN CHOICE, assumption 47). -/
def State.notchCtlWrite (s : State) (n v : Nat) : State × Nat :=
  if bits v 0 0 = 0 then (s, 0)
  else
    let rf := AF_NOTCH_SWAP_CTL_REASON n
    let c := firstNotchFault (s.fsHz n) ((upto 4).map (s.shadowNotch n))
    if c != 0 then s.answer rf c
    else
      let t := atSecFrac (s.val (AF_NOTCH_SWAP_SEC n)) (s.val (AF_NOTCH_SWAP_FRAC n))
      s.askMarker rf (.input n) .coefSwap (sid 0 n) t 0 fun s => s.put (AF_NOTCH_SWAP_CTL_PENDING n) 1

/-- A write of the shadow bank: 0530h while PENDING = 1 (R128). -/
def State.notchSetWrite (s : State) (n a v : Nat) : State × Nat :=
  if s.on (AF_NOTCH_SWAP_CTL_PENDING n) then s.answer (AF_NOTCH_SWAP_CTL_REASON n) 0x0530
  else ((s.plainWrite a v).put (AF_NOTCH_SWAP_CTL_REASON n) 0, 0)

def execNotchSwapArm (p : Fin 5) (n : Fin 16) (v : Word) (s : State) : Host.Outcome State Fault Refusal :=
  .next (s.gatedWrite p (AF_NOTCH_SWAP_CTL n) fun s => s.notchCtlWrite n v.toNat)

/-! ### Enable, disable, source (R115, R116, R119, R120, R138) -/

/-- The input's SOURCE is the tone, is the pattern. -/
def State.source (s : State) (n : Nat) : Nat := s.get (AF_IN_CTL_SOURCE n)

/-- Inputs that run at 12 bits and are held by a ring, with input n (R116). -/
def State.raw12 (s : State) (n : Nat) : Nat :=
  ((upto 16).filter fun m => (m = n || s.on (AF_IN_CTL_ENABLE m)) && !(s.raw8 m) && s.on (QU_VR_CTL_ENABLE m)).length

/-- The input's consistency check (R116), and for an input that a ring holds the sums of R43 at the width it now takes (R270). -/
def State.inputCheck (s : State) (n : Nat) : Nat :=
  firstFail [
    (!(s.inputExists n), 0x0210),
    (s.source n = 1 && !(s.on (AF_TONE_CTL_ENABLE (2 + n / 4))), 0x0330),
    (!(s.raw8 n) && s.on (QU_VR_CTL_ENABLE n) && decide (12 < s.raw12 n), 0x020B),
    (true, firstNotchFault (s.fsHz n) ((upto 4).map (s.activeNotch n))),
    (s.on (QU_VR_CTL_ENABLE n) && (s.setTraffic .ring n 0).trafficOver (s.rawRate n), 0x020A),
    (s.on (QU_VR_CTL_ENABLE n) && (s.freePort (6 + n / 4) (sid 0 n)).portsFull (6 + n / 4) (ratioOf (s.rawRate n)), 0x020D)]

/-- ENABLE goes from 0 to 1: samples are withheld for 20 us (R120); what an earlier run never framed is lost; a ring of another
width restarts empty (R270). The interleave correction starts from the present temperature slot (R108, R569). -/
def State.inputStart (s : State) (n : Nat) : State :=
  let s := (s.inputFlush n).modIn n fun x => { x with
    runs := false, settling := some (tAdd s.now (usTicks 20)), since := 256, over6 := [], settles := [], evts := [], past := []
    src := s.get (AF_IN_CTL_SOURCE n), srcs := [], nst := [] }
  if s.on (QU_VR_CTL_ENABLE n) then
    let s := if s.on (QU_VR_STATUS_WIDTH n) != s.raw8 n then s.ringRestart n else s
    (s.setTraffic .ring n (s.rawRate n)).retiePort (6 + n / 4) (sid 0 n) (ratioOf (s.rawRate n))
  else s

/-- ENABLE goes from 1 to 0: the stream pauses after the last complete pair (R120). -/
def State.inputStop (s : State) (n : Nat) : State :=
  (((s.modIn n fun x => { x with settling := none }).inputEnd n).put (AF_IN_STATUS_RUNNING n) 0).put (QU_VR_STATUS_RUNNING n) 0

/-- The first even instant at or after `t`. -/
def evenInst (fs : Nat) (t : DevTime) : Int := (instAt fs t + 1) / 2 * 2

/-- SOURCE changed (R138): on a running input SYNC_RESET before the next even sample, 200 ns of settling, and the new source
from that sample on. -/
def State.sourceChanged (s : State) (n : Nat) : State :=
  let x := s.inp n
  let src := s.get (AF_IN_CTL_SOURCE n)
  if !x.runs then s.modIn n fun x => { x with src := src, patIdx := 0, prbs := 0x7FFF }
  else
    let k := max (evenInst x.fs (s.inputNow n)) x.nextInst
    let t := instTime x.fs k
    let s := (s.ownSyncReset n (tAddI t x.lag) false).settleFor n t (ceilDiv (200 * x.fs) 1000000000)
    s.modIn n fun x => { x with srcs := x.srcs ++ [(t, src)] }

/-- After a write to AF_IN_CTL_n: REASON is the result of the last enable or write (Table CV-5), and a changed SOURCE takes
effect. -/
def afAfter (n src : Nat) (r : State × Nat) : State × Nat :=
  if r.2 != 0 then r
  else
    let s := if r.1.source n != src then r.1.sourceChanged n else r.1
    (s.put (AF_IN_CTL_REASON n) 0, 0)

/-- A write of AF_IN_CTL_n (R115, R116, R120, R138; 0133h for reserved FS and SOURCE; 0330h for a running input that
selects a disabled tone, Table CV-10). -/
def State.afCtlWrite (s : State) (n v : Nat) : State × Nat :=
  let rf := AF_IN_CTL_REASON n
  let en := s.on (AF_IN_CTL_ENABLE n)
  if bits v 2 1 = 3 || bits v 7 6 = 3 then s.answer rf 0x0133
  else if en && bits v 7 6 = 1 && s.source n != 1 && !(s.on (AF_TONE_CTL_ENABLE (2 + n / 4))) then s.answer rf 0x0330
  else
    let src := s.source n
    afAfter n src (s.enableWrite (AF_IN_CTL n) v (AF_IN_CTL_ENABLE n) rf
      (fun s => if en && setBits (setBits (s.changes (AF_IN_CTL n) v) 9 9 0) 7 6 0 / 2 * 2 != 0 then 0x0730 else 0)
      (·.inputCheck n) (·.inputStart n) (·.inputStop n))

/-- AF_SOURCE_CHANGE: the write of AF_IN_CTL_n that changes SOURCE and leaves its other fields. -/
def execAfSourceChange (p : Fin 5) (n : Fin 16) (src : Fin 4) (s : State) : Host.Outcome State Fault Refusal :=
  .next (s.gatedWrite p (AF_IN_CTL n) fun s => s.afCtlWrite n (setBits (s.val (AF_IN_CTL n)) 7 6 src))

/-- The input takes up its stream again at its next even sample: after a gap record of cause `gap` with the exact count, on the RAW
stream and in the ring's log; then the SYNC_RESET marker (R41, R54, R120, R563). For a clock change the count is the interval from
the last sample delivered in periods of the new rate, from the first instant of the new rate at or after that sample: the spec does
not say how an interval that is no whole number of periods counts (DESIGN CHOICE, assumption 39). -/
def State.inputBack (s : State) (n : Nat) (gap : Option Nat) : State :=
  let s := s.inputFlush n
  let x := s.inp n
  let fs := s.fsHz n
  let e := evenInst fs s.now
  let last := instAt fs x.lastSample
  let s := match gap with
    | some c => (s.rawGap n (instTime x.fs x.nextInst) (e - last - (if c = 4 then 0 else 1)).toNat c).ringLose n fs (last + 1) e c
    | none => s
  let s := (s.ownSyncReset n (instTime fs e) true).modIn n fun x => { x with
    runs := true, ranBefore := true, fs := fs, lastSample := instTime fs (e - 1), past := [] }
  let s := s.put (AF_IN_STATUS_RUNNING n) 1
  if s.on (QU_VR_CTL_ENABLE n) then s.put (QU_VR_STATUS_RUNNING n) 1 else s

/-- The input resumes after a loss of `cause`, once nothing else keeps it from delivering. -/
def State.inputResume (s : State) (n cause : Nat) : State :=
  if s.mayDeliver n then s.inputBack n (some cause) else s

/-- AF_INPUT_SETTLED (R120): the 20 us are over; delivery starts at the next even sample, after a gap record of cause "input
disabled" when the input ran before. An input that something else still holds takes up when that ends. -/
def State.inputSettled (s : State) (n : Nat) : State :=
  match (s.inp n).settling with
  | none => s
  | some t =>
    if tLt s.now t then s
    else
      let s := (s.openStream (sid 0 n)).modIn n fun x => { x with
        settling := none, runs := true, endAt := some (tAdd x.lastSample 1)
        il := ⟨0, 4294967296, ratioFloor (ratioMul (x.corr s.now).skew (ratioOf 4294967296))⟩ }
      if !(s.mayDeliver n) then s
      else s.inputBack n (if (s.inp n).ranBefore then some 6 else none)

def execAfInputSettled (n : Fin 16) (s : State) : Host.Outcome State Fault Refusal := .next (s.inputSettled n)

/-! ### Skew, over-range tail, pattern (R107, R121, R123, R137) -/

/-- The skew in force: it slews towards its setting by 0.05 ps per us (R107). -/
def State.skewAt (s : State) (n : Nat) : Int :=
  let x := s.inp n
  let goal := s.getS (AF_IN_SKEW_SKEW n)
  let room := tDiff s.now x.skewSince * 1000000 / 2 ^ 48
  if x.skewNow < goal then min goal (x.skewNow + room) else max goal (x.skewNow - room)

/-- A write of AF_IN_SKEW_n (R107). -/
def State.afSkewWrite (s : State) (n v : Nat) : State × Nat :=
  let x := signed 16 (bits v 15 0)
  if x < -1000 || 1000 < x then s.answer (AF_IN_CTL_REASON n) 0x0139
  else
    let now := s.skewAt n
    (((s.modIn n fun x => { x with skewNow := now, skewSince := s.now }).plainWrite (AF_IN_SKEW n) v).put
      (AF_IN_CTL_REASON n) 0, 0)

def execAfSkewWrite (p : Fin 5) (n : Fin 16) (v : Word) (s : State) : Host.Outcome State Fault Refusal :=
  .next (s.gatedWrite p (AF_IN_SKEW n) fun s => s.afSkewWrite n v.toNat)

/-- A write of AF_IN_OVR_CTL_n: a TAIL below 8 is refused with 0138h. -/
def State.afOvrWrite (s : State) (n v : Nat) : State × Nat :=
  if bits v 7 0 < 8 then s.answer (AF_IN_CTL_REASON n) 0x0138
  else ((s.plainWrite (AF_IN_OVR_CTL n) v).put (AF_IN_CTL_REASON n) 0, 0)

/-- A write of AF_IN_PATTERN_n: KIND 11b is refused with 0133h. -/
def State.afPatternWrite (s : State) (n v : Nat) : State × Nat :=
  if bits v 29 28 = 3 then s.answer (AF_IN_CTL_REASON n) 0x0133
  else ((s.plainWrite (AF_IN_PATTERN n) v).put (AF_IN_CTL_REASON n) 0, 0)

/-- OVER6_TRIP (R123): the comparator trips at the sample at `t` for `k` samples; the longer tail holds for 64 more. -/
def execOver6Trip (n : Fin 16) (t : DevTime) (k : Nat) (s : State) : Host.Outcome State Fault Refusal :=
  .next ((s.modIn n fun x => { x with over6 := x.over6 ++ [(t, k + 64)] }).countF (AF_IN_OVR_CTL_OVER6_COUNT n) 1)

/-- One shift of the PRBS register (R137), bit 0 being s[1]: the new bit is s[14] XOR s[15]. -/
def prbsShift (r : BitVec 15) : BitVec 15 × Nat :=
  let b := (bits r.toNat 13 13 + bits r.toNat 14 14) % 2
  (BitVec.ofNat 15 (2 * r.toNat + b), b)

/-- `k` further output bits, the first in the highest place. -/
def prbsBits : Nat → BitVec 15 → Nat → BitVec 15 × Nat
  | 0, r, acc => (r, acc)
  | k + 1, r, acc => let p := prbsShift r; prbsBits k p.1 (2 * acc + p.2)

/-- PRBS words (R137). -/
def prbsWords : Nat → BitVec 15 → List Int × BitVec 15
  | 0, r => ([], r)
  | k + 1, r =>
    let p := prbsBits 12 r 0
    let t := prbsWords k p.1
    (signed 12 p.2 :: t.1, t.2)

/-! ### Test tone (R135, R136) -/

/-- Inputs of AF region r (window number). -/
def afInputs (r : Nat) : List Nat := (upto 4).map fun i => 4 * (r - 2) + i

/-- A write of AF_TONE_CTL of AF region r (R136). -/
def State.toneCtlWrite (s : State) (r v : Nat) : State × Nat :=
  if s.on (AF_TONE_CTL_ENABLE r) && bits v 0 0 = 0 && (afInputs r).any (fun n => s.source n = 1) then
    s.answer (AF_TONE_CTL_REASON r) 0x0330
  else s.enableWrite (AF_TONE_CTL r) v (AF_TONE_CTL_ENABLE r) (AF_TONE_CTL_REASON r) (fun _ => 0) (fun _ => 0) id id

/-- A write of AF_TONE_SET: M of 0, or ATTEN outside 1 to 40, is refused with 0137h. AF_TONE_CTL.REASON is the
result of the last enable (Table CV-8), so the code goes to the refusal slot alone. -/
def State.toneSetWrite (s : State) (r v : Nat) : State × Nat :=
  if bits v 26 16 = 0 || bits v 5 0 = 0 || 40 < bits v 5 0 then (s, 0x0137) else (s.plainWrite (AF_TONE_SET r) v, 0)

/-- Window of AF region i. -/
def afWin (i : Nat) : Nat := 2 + i

def execAfToneCtlWrite (p : Fin 5) (i : Fin 4) (v : Word) (s : State) : Host.Outcome State Fault Refusal :=
  .next (s.gatedWrite p (AF_TONE_CTL (afWin i)) fun s => s.toneCtlWrite (afWin i) v.toNat)

end Sys2Proof.Machine
end

