-- ==== Sys2Proof/Machine/Record.lean ====
section
/-! DEFINITION. Machine/Record.lean: the repair record (R600, R601, Tables FT-4, FT-8 to FT-10) and the calibration slots it
holds. -/

namespace Sys2Proof.Machine

/-- A bin's nominal width, 4.8828125 ps in 2^-12 ps (Table ET-1). -/
def nominalBin : Nat := 20000

/-- Values of a slot, unlisted ones nominal (assumption 14). -/
def CalSlot.binsOf (x : CalSlot) (c : Nat) : List Nat := kvGetD x.bins c (List.replicate 64 nominalBin)
def CalSlot.delayOf (x : CalSlot) (c : Nat) : Int := kvGetD x.delays c 0
def CalSlot.synOf (x : CalSlot) (k : Nat) : Word × Word := kvGetD x.syn k (0x3F800000, 0x3F800000)
def CalSlot.inputOf (x : CalSlot) (n : Nat) : InCal := kvGetD x.inputs n {}

/-- Bytes 8 to 27 of a calibration slot entry (Table FT-8). -/
def slotEntry (i item part : Nat) (data : List Byte) : List Byte :=
  leBytes 1 i ++ leBytes 1 item ++ leBytes 2 part ++ (data ++ List.replicate (16 - data.length) 0)

/-- The entries of a store of slot i with store number n (R601, Table FT-9): 322 of them. -/
def storeData (i n : Nat) (x : CalSlot) : List (List Byte) :=
  let tag (d : Nat) : List Byte := leBytes 2 (unsign 16 (x.tags.getD d 0))
  [slotEntry i 0xFF 0 (leBytes 4 n ++ tag 0 ++ tag 1 ++ tag 2)]
  ++ ((upto 16).map fun k =>
    let c := x.inputOf k
    slotEntry i k 0 (leBytes 2 (unsign 16 c.offA) ++ leBytes 2 (unsign 16 c.offB) ++ leBytes 4 (unsign 32 c.gainA)
      ++ leBytes 4 (unsign 32 c.gainB) ++ leBytes 2 (unsign 16 c.skew)))
  ++ ((upto 16).map fun k => slotEntry i 0x10 k (leBytes 4 (x.synOf k).1.toNat ++ leBytes 4 (x.synOf k).2.toNat))
  ++ ((upto 32).flatMap fun c =>
    ((upto 8).map fun j => slotEntry i 0x11 (9 * c + j) (((x.binsOf c).drop (8 * j)).take 8 |>.flatMap (leBytes 2)))
      ++ [slotEntry i 0x11 (9 * c + 8) (leBytes 4 (unsign 32 (x.delayOf c)))])
  ++ [slotEntry i 0xFE 0 (leBytes 4 n ++ leBytes 2 322)]

/-- Bytes 8 to 27 of a repair's entry (Table FT-4). -/
def repairData (r : Repair) : List Byte :=
  leBytes 2 r.block ++ leBytes 2 r.array ++ leBytes 1 (if r.column then 2 else 1) ++ leBytes 3 0 ++ leBytes 4 r.address
    ++ leBytes 4 r.spare ++ leBytes 4 0

/-- The 32 bytes of an entry (Table FT-4). -/
def entryBytes (e : RepairEntry) : List Byte :=
  let b := [0x52, 0x50] ++ leBytes 1 e.type ++ leBytes 1 e.region ++ leBytes 4 e.seq ++ e.data
  b ++ leBytes 4 (crc32c b)

/-- Append one entry: ENTRY_SEQ is the previous one plus 1. -/
def State.recordPut (s : State) (type region : Nat) (data : List Byte) : State :=
  { s with ft := { s.ft with
      record := s.ft.record ++ [⟨type, region, s.ft.entrySeq + 1, data⟩], entrySeq := s.ft.entrySeq + 1 } }

/-- Bytes 8 to 27 of the thermal account (Table FT-10). -/
def State.thermData (s : State) : List Byte :=
  leBytes 4 (s.val ST_FT_THERM) ++ leBytes 10 s.now.toNat ++ leBytes 2 (s.ft.peak.elim (s.get ST_FT_TEMP_T) (unsign 16)) ++ leBytes 4 0

/-- Write the present state into the other half (R600): repairs, slots, thermal account. -/
def State.recordCompact (s : State) : State :=
  let s : State := { s with ft := { s.ft with record := [] } }
  let s := s.each s.ft.repairs fun s r => s.recordPut (if r.fused then 2 else 1) r.region (repairData r)
  let s := s.each s.ca.slots fun s p =>
    s.each (storeData p.1 (kvGetD s.ca.storeNo p.1 0) p.2) fun s d => s.recordPut 3 1 d
  s.recordPut 4 1 s.thermData

/-- Append an entry; at 75 % of a half, 10,752 entries, the record moves to the other half (R600). -/
def State.recordAppend (s : State) (type region : Nat) (data : List Byte) : State :=
  let s := s.recordPut type region data
  if 10752 ≤ s.ft.record.length then s.recordCompact else s

/-- Store slot i (R567, R601). -/
def State.storeSlot (s : State) (i : Nat) (x : CalSlot) : State :=
  let n := s.ca.stores + 1
  let s : State := { s with ca := { s.ca with
    slots := kvPut s.ca.slots i x, stores := n, storeNo := kvPut s.ca.storeNo i n } }
  let s := s.each (storeData i n x) fun s d => s.recordAppend 3 1 d
  s.each (upto 3) fun s d => s.setVal (CA_SLOT_TAG i d) (2 ^ 31 + unsign 16 (x.tags.getD d 0))

/-! ### Restoring (R601) -/

/-- One entry's data into a slot. -/
def slotTake (x : CalSlot) (d : List Byte) : CalSlot :=
  let item := (d.getD 1 0).toNat
  let part := fromLe ((d.drop 2).take 2)
  let f (o n : Nat) : Nat := fromLe ((d.drop (4 + o)).take n)
  if item = 0xFF then { x with tags := [signed 16 (f 4 2), signed 16 (f 6 2), signed 16 (f 8 2)] }
  else if item < 16 then
    let c : InCal := ⟨signed 16 (f 0 2), signed 16 (f 2 2), signed 32 (f 4 4), signed 32 (f 8 4), signed 16 (f 12 2)⟩
    { x with inputs := kvPut x.inputs item c }
  else if item = 0x10 then { x with syn := kvPut x.syn part (BitVec.ofNat 32 (f 0 4), BitVec.ofNat 32 (f 4 4)) }
  else if item = 0x11 then
    if part % 9 = 8 then { x with delays := kvPut x.delays (part / 9) (signed 32 (f 0 4)) }
    else
      let old := x.binsOf (part / 9)
      let new := old.take (8 * (part % 9)) ++ ((upto 8).map fun j => f (2 * j) 2) ++ old.drop (8 * (part % 9) + 8)
      { x with bins := kvPut x.bins (part / 9) new }
  else x

/-- A store being read: its number, entries so far, the slot so far. -/
structure SlotLoad where
  num : Nat
  count : Nat
  slot : CalSlot

/-- Slots found so far, with store numbers; stores in progress. -/
structure SlotScan where
  found : KV (CalSlot × Nat) := []
  open_ : KV SlotLoad := []

/-- Read one type 03h entry: a slot keeps the latest store whose commit is present and whose count matches. -/
def scanEntry (a : SlotScan) (d : List Byte) : SlotScan :=
  let i := (d.getD 0 0).toNat
  let item := (d.getD 1 0).toNat
  let num := fromLe ((d.drop 4).take 4)
  if item = 0xFF then { a with open_ := kvPut a.open_ i ⟨num, 1, slotTake { tags := [] } d⟩ }
  else match kvGet a.open_ i with
    | none => a
    | some l =>
      if item = 0xFE then
        if num = l.num && fromLe ((d.drop 8).take 2) = l.count + 1 then
          { found := kvPut a.found i (l.slot, num), open_ := kvDel a.open_ i }
        else { a with open_ := kvDel a.open_ i }
      else { a with open_ := kvPut a.open_ i { l with count := l.count + 1, slot := slotTake l.slot d } }

/-- The repair an entry of type 01h or 02h records (Table FT-4). -/
def repairOf (e : RepairEntry) : Repair :=
  let f (o n : Nat) : Nat := fromLe ((e.data.drop o).take n)
  ⟨e.region, f 0 2, f 2 2, decide (f 4 1 = 2), f 8 4, f 12 4, decide (e.type = 2)⟩

/-- The soft repairs of the record, in record order, besides the fused ones (R592, R602). -/
def State.restoreRepairs (s : State) : State :=
  let fused := s.ft.repairs.filter fun r => r.fused
  let soft := (s.ft.record.filter fun e => e.type = 1).map repairOf
  { s with ft := { s.ft with repairs := fused ++ soft.filter fun r => !(fused.contains { r with fused := true }) } }

/-- Restore the slots and the thermal account before BIST (R567, R601). A device with no saved slots starts with slot 0
holding the values fused at test (assumption 14). -/
def State.restoreRecord (s : State) : State :=
  let s := s.restoreRepairs
  let sc := ((s.ft.record.filter fun e => e.type = 3).map fun e => e.data).foldl scanEntry {}
  let slots : KV CalSlot := if sc.found.isEmpty then [(0, { tags := [400, 400, 400] })] else sc.found.map fun p => (p.1, p.2.1)
  let s : State := { s with ca := { s.ca with
    slots := slots, storeNo := sc.found.map fun p => (p.1, p.2.2), stores := sc.found.foldl (fun a p => max a p.2.2) s.ca.stores } }
  let s := s.each slots fun s p => s.each (upto 3) fun s d => s.setVal (CA_SLOT_TAG p.1 d) (2 ^ 31 + unsign 16 (p.2.tags.getD d 0))
  let s := s.put CA_STATUS_SLOT_VALID 1
  match (s.ft.record.filter fun e => e.type = 4).getLast? with
  | some e => s.setVal ST_FT_THERM (fromLe (e.data.take 4))
  | none => s

end Sys2Proof.Machine
end

