-- ==== Sys2Proof/Machine/Calib.lean ====
section
/-! DEFINITION. Machine/Calib.lean: the calibration sequencer (chapter 19, R554 to R575). -/

namespace Sys2Proof.Machine

/-! ### Temperature slots (R566 to R568) -/

/-- Tag of a slot for a die. -/
def CalSlot.tag (x : CalSlot) (d : Nat) : Int := x.tags.getD d 0

/-- The slot with the largest tag not above T, and the one with the smallest not below. -/
def tagBelow (l : KV CalSlot) (d : Nat) (t : Int) : Option CalSlot :=
  l.foldl (fun a p => if t < p.2.tag d then a else match a with
    | some b => if b.tag d < p.2.tag d then some p.2 else a
    | none => some p.2) none
def tagAbove (l : KV CalSlot) (d : Nat) (t : Int) : Option CalSlot :=
  l.foldl (fun a p => if p.2.tag d < t then a else match a with
    | some b => if p.2.tag d < b.tag d then some p.2 else a
    | none => some p.2) none

/-- The value of an item at temperature T of die d (R568): between the nearest slots on each side, or of the nearest. -/
def slotValue (l : KV CalSlot) (d : Nat) (t : Int) (f : CalSlot → Ratio) : Ratio :=
  match tagBelow l d t, tagAbove l d t with
  | some a, some b =>
    if a.tag d = b.tag d then f a else ratioMix (f a) (f b) (t - a.tag d).toNat (b.tag d - a.tag d).toNat
  | some a, none => f a
  | none, some b => f b
  | none, none => f { tags := [] }

/-- Present temperature of die d, 1/16 degree. -/
def State.temp (s : State) (d : Nat) : Int := s.ca.temps.getD d 0

/-- The die of input n. -/
def inputDie (n : Nat) : Nat := if n < 8 then 0 else 1

/-- Correction of input n over a slot set at the present temperature. -/
def State.inValue (s : State) (l : KV CalSlot) (n : Nat) : InVal :=
  let d := inputDie n
  let t := s.temp d
  let g (f : InCal → Int) : Ratio := slotValue l d t fun x => ratioOf (f (x.inputOf n))
  ⟨g (·.offA), g (·.offB), g (·.gainA), g (·.gainB), g (·.skew)⟩

/-- The mix of two corrections. -/
def InVal.mix (a b : InVal) (n d : Nat) : InVal :=
  ⟨ratioMix a.offA b.offA n d, ratioMix a.offB b.offB n d, ratioMix a.gainA b.gainA n d, ratioMix a.gainB b.gainB n d,
   ratioMix a.skew b.skew n d⟩

/-- The correction of input n now: during a ramp, k steps of the way from the slot set before the store (R570). -/
def State.inTarget (s : State) (n : Nat) : InVal :=
  match kvGet s.ca.ramps n with
  | some r => InVal.mix (s.inValue s.ca.oldSlots n) (s.inValue s.ca.slots n) r.k s.ca.steps
  | none => s.inValue s.ca.slots n

/-- Nearest whole number of each value, as a slot stores them. -/
def InVal.stored (v : InVal) : InCal :=
  ⟨ratioRound v.offA, ratioRound v.offB, ratioRound v.gainA, ratioRound v.gainB, ratioRound v.skew⟩

/-- Bin widths and delay in force of event channel c (R557, R568): what the interpolator exchanged in this run measured,
else the slots'. Widths in 2^-12 ps, delay in 2^-8 ps. -/
def State.etBins (s : State) (c : Nat) : List Ratio :=
  match kvGet s.ca.binRes c with
  | some l => l.map fun w => ratioOf (w : Nat)
  | none => (upto 64).map fun j => slotValue s.ca.slots 2 (s.temp 2) fun x => ratioOf ((x.binsOf c).getD j 0 : Nat)
def State.etDelay (s : State) (c : Nat) : Ratio :=
  match kvGet s.ca.delayRes c with
  | some d => ratioOf d
  | none => slotValue s.ca.slots 2 (s.temp 2) fun x => ratioOf (x.delayOf c)

/-- Slope of synthesiser k in kHz per code (R556): the slots' value at the processing die's temperature. -/
def State.synSlope (s : State) (k : Nat) : Ratio := slotValue s.ca.slots 2 (s.temp 2) fun x => f32Num (x.synOf k).1

/-- Applied values of input n as its registers show them (Table CA-4): the value in force, to the nearest unit. -/
def State.caInWord (s : State) (n k : Nat) : Word :=
  let v := ((s.inp n).corr (s.inputNow n)).stored
  BitVec.ofNat 32 (match k with
    | 0 => unsign 16 v.offA * 2 ^ 16 + unsign 16 v.offB
    | 1 => unsign 32 v.gainA
    | 2 => unsign 32 v.gainB
    | _ => unsign 16 v.skew)

/-- CA_TEMP_EVAL (R568): AF region i evaluates its inputs' corrections; each moves linearly over the next 100 ms. -/
def State.caTempEval (s : State) (i : Nat) : State :=
  s.each ((upto 4).map fun k => 4 * i + k) fun s n =>
    if !(s.inputExists n) then s
    else
      let t := s.inputNow n
      let v := s.inTarget n
      s.modIn n fun x => x.moveCal t (x.corr t) v

def execCaTempEval (i : Fin 4) (s : State) : Host.Outcome State Fault Refusal := .next (s.caTempEval i)

/-! ### Running (R558 to R565) -/

/-- Scope of CA_SCOPE. -/
def State.caInputs (s : State) : List Nat := (upto 16).filter fun n => bits (s.get CA_SCOPE_INPUTS) n n = 1

/-- A system-calibration step or ramp runs on the input (R558). -/
def State.sysCalRuns (s : State) (n : Nat) : Bool :=
  let x := s.inp n
  x.meas.isSome || x.ramp.isSome || x.applyPending

/-- The checks of GO (R558). -/
def State.caGoCheck (s : State) : Nat :=
  let ins := s.caInputs
  let st := s.get CA_RAMP_STEPS_STEPS
  firstFail [
    (s.val CA_SCOPE % 2 ^ 18 = 0 || decide (st < 1) || decide (4096 < st), 0x010D),
    (ins.any fun n => !(s.inputExists n), 0x0210),
    (!s.running || ins.any (fun n => s.on (SYN_STATUS_RAMPING (2 + n / 4))), 0x070D),
    (s.on CA_STATUS_BUSY || ins.any s.sysCalRuns, 0x050D)]

/-- An input that the run measures (R559). -/
def State.caMeasures (s : State) (n : Nat) : Bool :=
  s.on (AF_IN_CTL_ENABLE n) && (s.devState != 6 || bits (s.get GLOBAL_WATCH_INPUTS_MASK) n n = 1)

/-- The measurement of the first input of a region's list starts: its stream ends (R562, R563). -/
def State.caBegin (s : State) (i : Nat) : State :=
  match kvGetD s.ca.todo i [] with
  | [] => { s with ca := { s.ca with todo := kvDel s.ca.todo i } }
  | n :: _ =>
    let s := s.inputEnd n
    { s with ca := { s.ca with lossFrom := kvPut s.ca.lossFrom n s.now } }

/-- A write of CA_CTL (R558). -/
def State.caCtlWrite (s : State) (v : Nat) : State × Nat :=
  if bits v 0 0 = 0 then (s, 0)
  else
    let c := s.caGoCheck
    if c != 0 then s.answer CA_CTL_REASON c
    else
      let ins := s.caInputs.filter s.caMeasures
      let s : State := { s with ca := { s.ca with
        scope := s.val CA_SCOPE % 2 ^ 18, steps := s.get CA_RAMP_STEPS_STEPS, rampNs := s.val CA_RAMP_NS
        results := [], synRes := [], binRes := [], delayRes := [], ends := [], lossFrom := []
        todo := ((upto 4).map fun i => (i, ins.filter fun n => n / 4 = i)).filter fun p => !p.2.isEmpty } }
      let s := s.each (upto 4) fun s i => s.caBegin i
      (((((s.put CA_CTL_REASON 0).put CA_STATUS_BUSY 1).put CA_STATUS_MEASURING 1).put CA_STATUS_DONE 0), 0)

def execCaGo (p : Fin 5) (s : State) : Host.Outcome State Fault Refusal :=
  .next (s.gatedWrite p CA_CTL fun s => s.caCtlWrite 1)

/-- Mark an item in or out of tolerance (R572, R603). -/
def State.caJudge (s : State) (item : Nat) (ok : Bool) : State :=
  let s := s.put CA_TOL_ITEMS (setBits (s.get CA_TOL_ITEMS) item item (if ok then 0 else 1))
  let s := if ok then s.endLevel 1 .calibration item else s.beginLevel 1 .calibration item
  s.setReplace 3 (s.get CA_TOL_ITEMS != 0)

/-- Tolerance of an input's result (Table CA-1). -/
def inTolerance (x : InCal) : Bool :=
  decide (x.offA.natAbs ≤ 1024) && decide (x.offB.natAbs ≤ 1024)
    && decide (996148 ≤ x.gainA) && decide (x.gainA ≤ 1101004) && decide (996148 ≤ x.gainB) && decide (x.gainB ≤ 1101004)
    && decide (x.skew.natAbs ≤ 100)

/-- How long the measurement of input n takes (Table CA-2): 2^28 samples and 2 ms. -/
def State.caTicks (s : State) (n : Nat) : Nat := ceilDiv (2 ^ 76) (s.fsHz n) + usTicks 2000

/-- CA_INPUT_MEAS_DONE (R562, R563, R572): once its time is over, AF region i ends the measurement of its present input with result `x`; the
input's stream takes up again after its gap record and SYNC_RESET, and the region's next input starts. -/
def State.caMeasDone (s : State) (i : Nat) (x : InCal) : State :=
  match kvGetD s.ca.todo i [] with
  | [] => s
  | n :: rest =>
    if tLt s.now (tAdd (kvGetD s.ca.lossFrom n s.now) (s.caTicks n)) then s else
    let s : State := { s with ca := { s.ca with
      todo := if rest.isEmpty then kvDel s.ca.todo i else kvPut s.ca.todo i rest
      lossFrom := kvDel s.ca.lossFrom n, ends := kvPut s.ca.ends n s.now
      results := if inTolerance x then kvPut s.ca.results n x else s.ca.results } }
    let s := s.caJudge n (inTolerance x)
    let s := s.inputResume n 8
    if rest.isEmpty then s else s.caBegin i

def execCaInputMeasDone (i : Fin 4) (x : InCal) (s : State) : Host.Outcome State Fault Refusal := .next (s.caMeasDone i x)

/-- CA_INTERPOLATOR_EXCHANGE (R557): channel c's measured interpolator takes over with its widths and delay. -/
def State.caExchange (s : State) (c : Nat) (widths : List Nat) (delay : Int) : State :=
  if !(s.on CA_STATUS_MEASURING) || bits s.ca.scope 17 17 = 0 then s
  else { s with ca := { s.ca with
    binRes := kvPut s.ca.binRes c ((upto 64).map fun j => widths.getD j 0), delayRes := kvPut s.ca.delayRes c delay
    interp := kvPut s.ca.interp c (!(kvGetD s.ca.interp c false)) } }

def execCaInterpolatorExchange (c : Fin 32) (widths : List Nat) (delay : Int) (s : State) : Host.Outcome State Fault Refusal :=
  .next (s.caExchange c widths delay)

/-! ### Storing (R567, R570, R573) -/

/-- The slot a run's results go to (R567). -/
def State.caSlot (s : State) : Nat :=
  let dist (x : CalSlot) : Nat := (upto 3).foldl (fun a d => max a (x.tag d - s.temp d).natAbs) 0
  match s.ca.slots.find? fun p => decide (dist p.2 ≤ 64) with
  | some p => p.1
  | none => match (upto 8).find? fun i => (kvGet s.ca.slots i).isNone with
    | some i => i
    | none => (s.ca.slots.foldl (fun (a : Nat × Nat) p => if dist p.2 < a.2 then (p.1, dist p.2) else a) (0, 2 ^ 32)).1

/-- Slopes within 20 % of the fused value. -/
def State.synOk (s : State) (res : KV (Word × Word)) : Bool :=
  res.all fun p =>
    let f := f32Num (kvGetD s.ca.fusedSlope p.1 0x3F800000)
    let x := f32Num p.2.1
    !(ratioLt x (ratioMul f (ratio 4 5))) && !(ratioLt (ratioMul f (ratio 6 5)) x)

/-- Bins of 2.0 to 8.0 ps and delays within 50 ps of the fused value. -/
def State.binsOk (s : State) : Bool :=
  s.ca.binRes.all (fun p => p.2.all fun w => decide (8192 ≤ w) && decide (w ≤ 32768))
    && s.ca.delayRes.all fun p => decide ((p.2 - kvGetD s.ca.fusedDelay p.1 0).natAbs ≤ 12800)

/-- The slot's new contents: results, and interpolated values for every other item. -/
def State.caNewSlot (s : State) (syn : Bool) (bins : Bool) : CalSlot where
  tags := [s.temp 0, s.temp 1, s.temp 2]
  inputs := (upto 16).map fun n => (n, (kvGet s.ca.results n).getD (s.inValue s.ca.slots n).stored)
  syn := (upto 16).map fun k =>
    let v (f : CalSlot → Word) : Word := f32Round (slotValue s.ca.slots 2 (s.temp 2) fun x => f32Num (f x))
    (k, match (if syn then kvGet s.ca.synRes k else none) with
        | some r => r
        | none => (v fun x => (x.synOf k).1, v fun x => (x.synOf k).2))
  bins := (upto 32).map fun c =>
    (c, match (if bins then kvGet s.ca.binRes c else none) with
        | some l => l
        | none => (upto 64).map fun j => (ratioRound (slotValue s.ca.slots 2 (s.temp 2) fun x => ratioOf ((x.binsOf c).getD j 0 : Nat))).toNat)
  delays := (upto 32).map fun c =>
    (c, match (if bins then kvGet s.ca.delayRes c else none) with
        | some d => d
        | none => ratioRound (slotValue s.ca.slots 2 (s.temp 2) fun x => ratioOf (x.delayOf c)))

/-- The first whole millisecond at or after `t` (R570). -/
def wholeMs (t : DevTime) : DevTime :=
  let ms := ceilDiv (t.toNat * 1000) (2 ^ 48)
  BitVec.ofNat 80 (ceilDiv (ms * 2 ^ 48) 1000)

/-- CA_RUN_STORE (R567, R570 to R573): every measurement has ended; the synthesisers' results are `syn`, in the order of
Table FT-9. The marker of an input falls at the first whole ms at least 200 us after its measurement, or after the store
where that is later (assumption 15). -/
def State.caStore (s : State) (syn : List (Word × Word)) : State :=
  let timers := bits s.ca.scope 17 17 = 1
  if !(s.on CA_STATUS_MEASURING) || !s.ca.todo.isEmpty || (timers && s.ca.binRes.length < 32) then s
  else
    let synIn := bits s.ca.scope 16 16 = 1
    let s : State := { s with ca := { s.ca with synRes := if synIn then (upto 16).zip syn else [] } }
    let synGood := synIn && s.synOk s.ca.synRes
    let binGood := timers && s.binsOk
    let s := if synIn then s.caJudge 16 synGood else s
    let s := if timers then s.caJudge 17 binGood else s
    let ins := s.ca.results.map fun p => p.1
    let old := s.ca.slots
    let s := s.storeSlot s.caSlot (s.caNewSlot synGood binGood)
    let s : State := { s with ca := { s.ca with oldSlots := old, synRes := [], binRes := [], delayRes := [] } }
    let s := (s.put CA_STATUS_SLOT_VALID 1).put CA_STATUS_MEASURING 0
    let s := s.put CA_STATUS_DONE (ins.foldl (fun a n => a + 2 ^ n) 0)
    let s := ((s.count CA_COUNT 1).putTime CA_LAST_SEC CA_LAST_FRAC s.now).setVal CA_LAST_TEMP (unsign 16 (s.temp 2))
    let s := s.each ins fun s n =>
      let e := kvGetD s.ca.ends n s.now
      let t := wholeMs (tAdd (if tLt e s.now then s.now else e) (usTicks 200))
      let s := (s.requestMarker (.input n) .calRamp (sid 0 n) t
        (BitVec.ofNat 64 (s.ca.steps + s.ca.rampNs * 2 ^ 16))).1
      { s with ca := { s.ca with ramps := kvPut s.ca.ramps n {} } }
    if ins.isEmpty then (s.put CA_STATUS_BUSY 0).put CA_STATUS_RAMPING 0 else s.put CA_STATUS_RAMPING 1

def execCaRunStore (syn : List (Word × Word)) (s : State) : Host.Outcome State Fault Refusal := .next (s.caStore syn)

/-- From the marker to step k of a ramp, in units of 2^-48 s (R570): rounded up, as a step applies from the first sample at or
after it. -/
def State.caStepTicks (s : State) (k : Nat) : Nat := ceilDiv (k * s.ca.rampNs * 2 ^ 48) (1000000000 * s.ca.steps)

/-- Step k of input n's ramp applies (R570, R571). -/
def State.caStep (s : State) (n k : Nat) : State :=
  match kvGet s.ca.ramps n with
  | none => s
  | some r =>
    let s : State := { s with ca := { s.ca with ramps := kvPut s.ca.ramps n { r with k := k } } }
    let v := s.inTarget n
    let t := if s.ca.rampNs = 0 then r.start else tAdd r.start (s.caStepTicks k)
    let s := s.modIn n fun x => x.moveCal (tAddI t (-x.lag)) v v
    if k < s.ca.steps then s
    else
      let s : State := { s with ca := { s.ca with ramps := kvDel s.ca.ramps n } }
      if s.ca.ramps.isEmpty then
        ({ s with ca := { s.ca with oldSlots := [] } } : State).put CA_STATUS_RAMPING 0 |>.put CA_STATUS_BUSY 0
      else s

/-- CA_RAMP_STEP (R570): device time reached the next step of input n's ramp. -/
def State.caRampStep (s : State) (n : Nat) : State :=
  match kvGet s.ca.ramps n with
  | none => s
  | some r =>
    if r.begun && tLe (tAdd r.start (s.caStepTicks (r.k + 1))) s.now then s.caStep n (r.k + 1) else s

def execCaRampStep (n : Fin 16) (s : State) : Host.Outcome State Fault Refusal := .next (s.caRampStep n)

/-- A CAL_RAMP marker of time `mt` at stage 3, before the sample at `t` (R134, R570): a system correction's ramp of 64 steps begins, or the ramp
of a calibration result; with RAMP_NS = 0 that applies at the marker. -/
def State.calRampMarker (s : State) (n : Nat) (t mt : DevTime) : State :=
  let x := s.inp n
  if x.applyPending then
    let old := x.sysAt t
    let keep := (x.sys.takeWhile fun m => tLt x.lastSample m.start) ++ (x.sys.find? fun m => tLe m.start x.lastSample).toList
    (s.modIn n fun y => { y with
      applyPending := false, ramp := some 0
      sys := ⟨t, old.1, old.2, s.getS (AF_SYSCAL_OFFSET_STAGED n), (s.val (AF_SYSCAL_GAIN n) : Int)⟩ :: keep }).put
      (AF_IN_STATUS_RAMPING n) 1
  else match kvGet s.ca.ramps n with
    | some r =>
      let s : State := { s with ca := { s.ca with ramps := kvPut s.ca.ramps n { r with begun := true, start := mt } } }
      if s.ca.rampNs = 0 then s.caStep n s.ca.steps else s
    | none => s

end Sys2Proof.Machine
end

