-- ==== Sys2Proof/Machine/Trig.lean ====
section
/-! DEFINITION. Machine/Trig.lean: sines, cosines, windows and the half-band words as numbers. Where the manual names an exact
real number (a cosine, a window) the model takes it to 2^-80, far below the last place of every word formed from it
(assumption 41). -/

namespace Sys2Proof.Machine

/-- pi in units of 2^-80. -/
def piFix : Nat := 3797952473636338580787994

/-- 2^80: one, in the units of this file. -/
def oneFix : Int := 2 ^ 80

/-- Horner steps of sum (-1)^j x^(2j) / ((a+1)...(a+2j)), `x2` the square of x. -/
def taylorFix (x2 : Int) (a : Nat) : Nat → Int → Int
  | 0, acc => acc
  | j + 1, acc => taylorFix x2 a j (oneFix - x2 * acc / oneFix / ((2 * j + 1 + a) * (2 * j + 2 + a) : Nat))

/-- cos and sin of an angle of 0 to pi/4, in units of 2^-80. -/
def cosSmall (x : Int) : Int := taylorFix (x * x / oneFix) 0 16 oneFix
def sinSmall (x : Int) : Int := x * taylorFix (x * x / oneFix) 1 16 oneFix / oneFix

/-- The angle of n / d turns. -/
def angleFix (n d : Nat) : Int := ((2 * piFix * n + d / 2) / d : Nat)

/-- cos of n / d turns, 0 to a quarter. -/
def cosQuarter (n d : Nat) : Int :=
  if 8 * n ≤ d then cosSmall (angleFix n d) else sinSmall (angleFix (d - 4 * n) (4 * d))

/-- cos of n / d turns. -/
def cosTurn (n : Int) (d : Nat) : Int :=
  let r := (n % d).toNat
  let r := if d < 2 * r then d - r else r
  if 4 * r ≤ d then cosQuarter r d else -(cosQuarter (d - 2 * r) (2 * d))

/-- sin of n / d turns. -/
def sinTurn (n : Int) (d : Nat) : Int := cosTurn (4 * n - d) (4 * d)

/-! ### Windows (R173, R174): w(k / L) for k = 0 to L - 1 -/

/-- Horner steps of the series of I0, sum (q^j / (j!)^2) with q = x^2 / 4. -/
def besselFix (q : Int) : Nat → Int → Int
  | 0, acc => acc
  | j + 1, acc => besselFix q j (oneFix + q * acc / oneFix / ((j + 1) * (j + 1) : Nat))

/-- I0 of the x with x^2 / 4 = q. -/
def besselI0 (q : Int) : Int := besselFix q 60 oneFix

/-- Kaiser window with beta = a pi: I0(beta sqrt(1 - (2x - 1)^2)) / I0(beta). -/
def kaiserFix (a : Nat) (L k : Nat) : Int :=
  let q0 : Int := ((a * piFix) ^ 2 / 2 ^ 82 : Nat)
  let u : Int := 2 * (k : Int) - L
  oneFix * besselI0 (q0 * ((L : Int) * L - u * u) / ((L : Int) * L)) / besselI0 q0

/-- Sum of cosine terms: the coefficients c0, c1, ... of cos 0, cos 2 pi x, cos 4 pi x, ... over 10^8. -/
def cosSumFix (L k : Nat) : List Int → Nat → Int
  | [], _ => 0
  | c :: t, j => c * cosTurn (j * k : Nat) L / 100000000 + cosSumFix L k t (j + 1)

/-- The Chebyshev polynomial T_n(x) by its recurrence, limited far above the values that are used. -/
def chebyFix (x : Int) : Nat → Int → Int → Int
  | 0, a, _ => a
  | n + 1, a, b => chebyFix x n b (min (2 ^ 110) (2 * x * b / oneFix - a))

/-- T_n(x). -/
def chebyT (n : Nat) (x : Int) : Int := chebyFix x n oneFix x

/-- The x0 of 1 to 2 with T_n(x0) = 10^5 (100 dB): 80 steps of bisection. -/
def chebyX0 (n : Nat) : Nat → Int → Int
  | 0, lo => lo
  | j + 1, lo => let m := lo + 2 ^ j; chebyX0 n j (if chebyT n m ≤ 100000 * oneFix then m else lo)

/-- The Dolph-Chebyshev window of 100 dB before it is brought to a largest value of 1: the first L points of the symmetric
window of L + 1 points, which makes it periodic (assumption 42). -/
def chebySum (x0 : Int) (L : Nat) (k : Int) : Nat → Int
  | 0 => chebyT L x0
  | j + 1 => chebySum x0 L k j
      + 2 * (chebyT L (x0 * cosTurn (j + 1 : Nat) (2 * (L + 1)) / oneFix) * cosTurn ((j + 1 : Nat) * k) (L + 1) / oneFix)

def chebyFixWin (L k : Nat) : Int :=
  let x0 := chebyX0 L 80 oneFix
  oneFix * chebySum x0 L ((k : Int) - (L / 2 : Nat)) (L / 2) / chebySum x0 L 0 (L / 2)

/-- Built-in window `kind` (Table BT-2) at point k of L, 2^-80. -/
def windowFix (kind L k : Nat) : Int :=
  match kind with
  | 0 => oneFix
  | 1 => cosSumFix L k [50000000, -50000000] 0
  | 2 => cosSumFix L k [54000000, -46000000] 0
  | 3 => cosSumFix L k [35875000, -48829000, 14128000, -1168000] 0
  | 4 => cosSumFix L k [100000000, -193000000, 129000000, -38800000, 2800000] 0 * 1000 / 4636
  | 5 => kaiserFix 2 L k
  | 6 => kaiserFix 3 L k
  | _ => chebyFixWin L k

/-- The user window at point k of L (R174): linear interpolation of the points u, in 2^-16, mirrored at the midpoint. -/
def userWindowFix (u : Nat → Nat) (L k : Nat) : Int :=
  let k := if L < 2 * k then L - k else k
  let d := L / 2
  let p := k * 16383
  let i := p / d
  let a : Int := u i
  let b : Int := u (i + 1)
  (a * d + (b - a) * (p % d : Nat)) * 2 ^ 64 / d

/-- sinc(n / d) = sin(pi n / d) / (pi n / d), 2^-80 (R173). -/
def sincFix (n : Int) (d : Nat) : Int :=
  if n = 0 then oneFix else sinTurn n (2 * d) * oneFix * d / (piFix * n)

/-- Coefficient k of the prototype (R173): window times sinc, quantised to 2^-16. -/
def protoCoef (kind : Nat) (u : Nat → Nat) (taps c k : Nat) : Int :=
  let L := taps * (2 * c)
  let w := if kind = 8 then userWindowFix u L k else windowFix kind L k
  let v := if taps = 1 then w else w * sincFix ((k : Int) - (L / 2 : Nat)) (2 * c) / oneFix
  ratioRound (ratio v (2 ^ 64))

/-! ### Lists and decibels -/

/-- Entries of even and of odd place. -/
def evens {α : Type} : List α → List α
  | [] => []
  | [a] => [a]
  | a :: _ :: t => a :: evens t
def odds {α : Type} : List α → List α
  | [] => []
  | [_] => []
  | _ :: b :: t => b :: odds t

/-- Binary digits of log2 of `m` / 2^160, of 1 to 2: each squaring gives the next (R237, assumption 41). -/
def logDigits : Nat → Nat → Nat → Nat
  | 0, _, acc => acc
  | k + 1, m, acc =>
    let q := m * m / 2 ^ 160
    if 2 ^ 161 ≤ q then logDigits k (q / 2) (2 * acc + 1) else logDigits k q (2 * acc)

/-- 10 log10 of a positive ratio in units of 2^-80. -/
def dbFix (p : Ratio) : Int :=
  let e := ratioLog2 p.num.natAbs p.den
  let m := if 0 ≤ e then p.num.natAbs * 2 ^ 160 / (p.den * 2 ^ e.toNat) else p.num.natAbs * 2 ^ (160 + (-e).toNat) / p.den
  (e * oneFix + (logDigits 80 m 0 : Nat)) * 3639229342366667330211246 / oneFix

end Sys2Proof.Machine
end

