-- ==== Sys2Proof/Machine/Raw.lean ====
section
/-! DEFINITION. Machine/Raw.lean: markers at an AF output stage, the stages from the converter cores to the RAW frame, and system
calibration (chapters 01 and 04, R23 to R28, R106 to R138, R569). -/

namespace Sys2Proof.Machine

/-! ### Markers at the AF output stage (R24, R28) -/

/-- The list without its first element equal to `q`. -/
def dropFirst (q : MarkerReq) : List MarkerReq → List MarkerReq
  | [] => []
  | a :: l => if a = q then l else a :: dropFirst q l

/-- Registers that say "marker not yet inserted" (Tables CV-6, ZP-5, BT-6): cleared when the marker is inserted. -/
def State.inserted (s : State) (stage : FirstStage) (m : MarkerReq) : State :=
  let c := m.target.toNat / 4096
  let n := m.target.toNat % 4096
  match stage with
  | .input _ =>
    if c = 0 && m.type = .coefSwap then s.put (AF_NOTCH_SWAP_CTL_PENDING n) 0
    else if c = 1 && m.type = .syncReset then s.put (ZP_SWAP_CTL_SYNC_PENDING n) 0
    else if c = 2 && m.type = .syncReset then s.put (BT_MK_CTL_SYNC_PENDING n) 0
    else s
  | _ => s

/-- Index of the sample before which input n inserts a request: the first at or after its time, at the earliest the next one. -/
def AfIn.dueAt (x : AfIn) (q : MarkerReq) : Int :=
  let k0 := match x.endAt with
    | some e => instAt x.fs e
    | none => x.nextInst
  if q.now then k0 else max x.nextInst (instAt x.fs (tAddI q.time (-x.lag)))

/-- The request of input n that comes first among those due before index `lim`: by sample, then in the order of R28, of equal type
the oldest. -/
def AfIn.firstDue (x : AfIn) (n : Nat) (lim : Int) : List MarkerReq → Option (Int × MarkerReq)
  | [] => none
  | q :: l =>
    let r := x.firstDue n lim l
    let k := x.dueAt q
    if q.stage = .input n && decide (k < lim) then
      match r with
      | none => some (k, q)
      | some p => if p.1 < k || (p.1 = k && p.2.type.rank < q.type.rank) then some p else some (k, q)
    else r

/-- Input n inserts the first request due before index `lim` (R24): before its sample, LATE when that sample's time exceeds the
requested time by more than one sample period. What the input's own stages do at it follows. -/
def State.afInsert (s : State) (n : Nat) (lim : Int) : State :=
  let x := s.inp n
  match x.firstDue n lim s.flow.requests with
  | none => s
  | some (k, q) =>
    let t := instTime x.fs k
    let late := decide (((2 ^ 48 / x.fs : Nat) : Int) < tDiff (tAddI t x.lag) q.time)
    let off := (k - x.nextInst).toNat
    let seq := kvGetD s.flow.markerSeq n 0
    let s : State := { s with flow := { s.flow with requests := dropFirst q s.flow.requests } }
    let s := (s.insertMarker (.input n) q.type q.target q.time q.arg late off).inserted (.input n) q
    let m : Marker := ⟨q.type, late, q.target, BitVec.ofNat 32 off, q.time, q.arg, seq⟩
    if q.type != .epoch && q.type != .timeStep && (q.target = sid 0 n || q.target = 0xFFFF) then
      s.modIn n fun x => { x with todo := x.todo ++ [(t, m)] }
    else s

/-- Insert every request due before index `lim`; `fuel` bounds their number. -/
def State.afInsertAll (s : State) (n : Nat) (lim : Int) : Nat → State
  | 0 => s
  | fuel + 1 => (s.afInsert n lim).afInsertAll n lim fuel

/-- The input's stages act on a marker before the sample at `t` (R25): stage 6 on COEF_SWAP and SYNC_RESET, stage 3 on
CAL_RAMP. -/
def State.afAct (s : State) (n : Nat) (p : DevTime × Marker) : State :=
  match p.2.type with
  | .coefSwap => s.notchSwap n p.1
  | .syncReset => s.notchReset n p.1
  | .calRamp => s.calRampMarker n p.1 p.2.time
  | _ => s

/-- Act on every marker that still waits for its action. -/
def State.afActAll (s : State) (n : Nat) : State :=
  let l := (s.inp n).todo
  (s.modIn n fun x => { x with todo := [] }).each l fun s p => s.afAct n p

/-- Act on the first marker that waits, where it is of type `t`: they act in the order of R28. -/
def State.afActNext (s : State) (n : Nat) (t : MarkerType) : State :=
  match (s.inp n).todo with
  | [] => s
  | p :: rest => if p.2.type = t then (s.modIn n fun x => { x with todo := rest }).afAct n p else s

/-- MARKER_COEF_SWAP_NOTCH, MARKER_SYNC_RESET_NOTCH, MARKER_CAL_RAMP_INPUT: the next marker reaches the input's stage 6, or
stage 3. -/
def execMarkerCoefSwapNotch (n : Fin 16) (s : State) : Host.Outcome State Fault Refusal := .next (s.afActNext n .coefSwap)

def execMarkerSyncResetNotch (n : Fin 16) (s : State) : Host.Outcome State Fault Refusal := .next (s.afActNext n .syncReset)

def execMarkerCalRampInput (n : Fin 16) (s : State) : Host.Outcome State Fault Refusal := .next (s.afActNext n .calRamp)

/-! ### The test tone (R135) -/

/-- 2,048 codes in 1/256 code. -/
def fullTone : Nat := 524288

/-- The largest amplitude not above full scale less `a` dB, in `k` binary digits. -/
def toneSearch (a : Nat) : Nat → Nat → Nat
  | 0, v => v
  | k + 1, v => toneSearch a k (if (v + 2 ^ k) ^ 20 * 10 ^ a ≤ fullTone ^ 20 then v + 2 ^ k else v)

/-- Peak amplitude of region r's tone: the implementation's, within 0.5 dB of ATTEN below full scale. -/
def toneAmp (r a : Nat) : Nat :=
  let v := Config.toneLevel r a
  if fullTone ^ 40 ≤ v ^ 40 * 10 ^ (2 * a + 1) && v ^ 40 * 10 ^ (2 * a - 1) ≤ fullTone ^ 40 then v else toneSearch a 20 0

/-- The tone at instant `k`: a sine at fs M / 4,096, to the nearest code. -/
def toneCode (r m a : Nat) (k : Int) : Int :=
  let v := sinTurn (256 * (m * k) + (Config.tonePhase r a % 2 ^ 20 : Nat)) (2 ^ 20)
  ratioRound (ratio (v * toneAmp r a) (2 ^ 88))

/-! ### Stages 1 to 7 (Table CV-2) -/

/-- What the registers fix while a frame is formed. -/
structure AfCfg where
  fs : Nat
  zone : Bool
  bypass : Bool
  tail : Nat
  kind : Nat
  value : Int
  tone : Int → Int
  calHz : Nat

/-- What one sample leaves: its value, the O mark of stage 4, whether it counts as calibrating, as settling. -/
structure AfOut where
  y : Int
  mark : Bool
  cal : Bool
  settle : Bool

/-- Stage 2 (R108): core B, which converts the odd instants, brought to core A. -/
def stage2 (c : IlCorr) (k : Int) (v : Int) (past : List Int) : Ratio :=
  if k % 2 = 0 || c = {} then ratioOf v
  else
    let skew := if c.skew = 0 then 0 else Config.skewTerm c.skew (v :: past)
    ratio (v * c.gain + c.off + skew) 4294967296

/-- Stage 3's internal correction z = g_int (x - o_int), with the core of instant `k` (R106, R569). -/
def stage3Int (v : InVal) (k : Int) (x : Ratio) : Ratio :=
  let o := if k % 2 = 0 then v.offA else v.offB
  let g := if k % 2 = 0 then v.gainA else v.gainB
  ratioMul (ratioMul g ⟨1, 1048576⟩) (ratioSub x (ratioMul o ⟨1, 64⟩))

/-- Stage 3's system correction y = g_sys (z - o_sys) (R134, R569). -/
def stage3Sys (p : Ratio × Ratio) (z : Ratio) : Ratio :=
  ratioMul (ratioMul p.2 ⟨1, 1048576⟩) (ratioSub z (ratioMul p.1 ⟨1, 64⟩))

/-- A 12-bit code from a stage-3 value, clamped outside the range, and whether it was (R121). -/
def codeOf (y : Ratio) : Int × Bool :=
  if ratioLt (ratioOf 2047) y then (2047, true)
  else if ratioLt y (ratioOf (-2048)) then (-2048, true)
  else (clampS 12 (wordAt 0 y), false)

/-- The notches in series (R129): their responses multiply. Each keeps its own state. -/
def notchRun (fs : Nat) : List Notch → List (List Int) → Int → Int × List (List Int)
  | [], _, v => (v, [])
  | b :: t, st, v =>
    let p := if b.on then Config.notchStep fs b.freq b.width b.order (st.headD []) v else (v, [])
    let r := notchRun fs t st.tail (clampS 12 p.1)
    (r.1, p.2 :: r.2)

/-- The notch states after a change of bank: those of a notch ON in both with the same settings stay. -/
def notchKeep : List Notch → List Notch → List (List Int) → List (List Int)
  | _, [], _ => []
  | old, b :: t, st =>
    (if b.on && old.head? = some b then st.headD [] else []) :: notchKeep old.tail t st.tail

/-- What happens to the notches up to the sample at `t`. -/
def AfIn.notchTo (x : AfIn) (t : DevTime) : AfIn :=
  let y := (x.evts.filter fun e => tLe e.at_ t).foldl (fun (y : AfIn) e => match e.bank with
    | some b => { y with bank := b, nst := notchKeep y.bank b y.nst }
    | none => { y with nst := [] }) x
  { y with evts := x.evts.filter fun e => !(tLe e.at_ t) }

/-- SOURCE up to the sample at `t`: each change loads the pattern's counter and register (R137, R138). -/
def AfIn.srcTo (x : AfIn) (t : DevTime) : AfIn :=
  let y := (x.srcs.filter fun p => tLe p.1 t).foldl (fun (y : AfIn) p => { y with src := p.2, patIdx := 0, prbs := 0x7FFF }) x
  { y with srcs := x.srcs.filter fun p => !(tLe p.1 t) }

/-- The pattern's value at this sample, and the register after it (R137). -/
def AfIn.pattern (x : AfIn) (c : AfCfg) : Int × BitVec 15 :=
  match c.kind with
  | 0 => (((x.patIdx % 4096 : Nat) : Int) - 2048, x.prbs)
  | 1 => (c.value, x.prbs)
  | _ => let p := prbsBits 12 x.prbs 0; (signed 12 p.2, p.1)

/-- A measurement takes the sample z of the instant `k` at `t` (R133): from its first instant on, 2^24 consecutive ones; a gap
starts it over. Before system correction and after zone inversion (assumption 46). Answers whether it was measured. -/
def SysMeas.take (m : SysMeas) (c : AfCfg) (k : Int) (t : DevTime) (z : Ratio) : SysMeas × Bool :=
  if tLt t m.from_ || (m.count = 2 ^ 24) then (m, false)
  else
    let m := if m.count != 0 && m.last != instTime c.fs (k - 1) then { m with count := 0, z := 0, zc := 0, zs := 0, c := 0, sn := 0 } else m
    let v := ratioFloor (ratioMul (if c.zone && k % 2 != 0 then ratioSub (ratioOf 0) z else z) (ratioOf 1048576))
    let co := if m.full then cosTurn (c.calHz * k) c.fs / 2 ^ 40 else 0
    let si := if m.full then sinTurn (c.calHz * k) c.fs / 2 ^ 40 else 0
    ({ m with last := t, count := m.count + 1, z := m.z + v, zc := m.zc + v * co, zs := m.zs + v * si, c := m.c + co, sn := m.sn + si },
      true)

/-- One sample through stages 1 to 7: `xin` is what the cores convert, for the tone the cores' noise on top of it. The negative of
-2048 in stage 5 (R111) is clamped to 2047 and marks no beat over-range (DESIGN CHOICE, assumption 66). -/
def AfIn.sample (x : AfIn) (c : AfCfg) (k : Int) (xin : Int) : AfIn × AfOut :=
  let t := instTime c.fs k
  let x := (x.srcTo t).notchTo t
  let c0 := if x.src = 1 then c.tone k + xin else xin
  let c1 := clampS 12 c0
  let z := stage3Int (x.corr t) k (stage2 x.il k c1 x.past)
  let y := codeOf (stage3Sys (x.sysAt t) z)
  let clamp := c1 != c0 || y.2
  let since := if clamp then 0 else min 256 (x.since + 1)
  let long := x.over6.any fun p => tLe p.1 t && decide (k < instAt c.fs p.1 + p.2)
  let mark := decide (since ≤ (if long then max c.tail 64 else c.tail))
  let y5 := if c.zone && k % 2 != 0 then clampS 12 (-y.1) else y.1
  let r := if c.bypass then (y5, x.nst) else notchRun c.fs x.bank x.nst y5
  let p := x.pattern c
  let pat := x.src = 2
  let ms : Option SysMeas × Bool := match x.meas with
    | some m => let q := m.take c k t z; (some q.1, q.2)
    | none => (none, false)
  ({ x with
      since := since, past := (c1 :: x.past).take 16, nst := r.2, meas := ms.1
      patIdx := (if pat then x.patIdx + 1 else x.patIdx), prbs := (if pat then p.2 else x.prbs) },
    ⟨if pat then p.1 else r.1, mark, x.src != 0 || ms.2, x.settles.any fun q => tLe q.1 t && tLt t q.2⟩)

/-- A run of samples from instant `k` on. -/
def AfIn.samples (c : AfCfg) : List Int → Int → AfIn → AfIn × List AfOut
  | [], _, x => (x, [])
  | v :: t, k, x =>
    let p := x.sample c k v
    let r := AfIn.samples c t (k + 1) p.1
    (r.1, p.2 :: r.2)

/-- Every sample of a beat that holds a mark is flagged (R117, R121): `n` beats. -/
def beatFlags (l : List Bool) : Nat → List Bool
  | 0 => []
  | n + 1 => let b := l.take 16; List.replicate b.length (b.any id) ++ beatFlags (l.drop 16) n

/-- 8-bit requantisation: x / 16 to nearest, ties away from zero, clamped (R118). -/
def requant8 (x : Int) : Int := ratioRoundS 8 (ratio x 16)

/-! ### The RAW frame (R117, R119) -/

/-- Samples of input n's next frame (R119): 32,768 that have all been taken, or fewer when the run of samples ends there; 0 while
neither is so. `have_` samples are at hand. -/
def State.rawCount (s : State) (n have_ : Nat) : Nat :=
  let x := s.inp n
  let k0 := x.nextInst
  let lim := instAt x.fs (tAdd (s.inputNow n) 1)
  let cnt := match x.endAt with
    | some e => min 32768 (instAt x.fs e - k0).toNat
    | none => 32768
  if x.runs && decide (cnt ≤ have_) && decide (k0 + cnt ≤ lim) && !(s.lost (2 + n / 4)) then cnt else 0

/-- What the registers fix for a frame of input n. -/
def State.afCfg (s : State) (n : Nat) : AfCfg where
  fs := (s.inp n).fs
  zone := s.on (AF_IN_CTL_ZONE n)
  bypass := s.on (AF_IN_CTL_NOTCH_BYPASS n)
  tail := s.get (AF_IN_OVR_CTL_TAIL n)
  kind := s.get (AF_IN_PATTERN_KIND n)
  value := s.getS (AF_IN_PATTERN_VALUE n)
  tone := toneCode (2 + n / 4) (s.get (AF_TONE_SET_M (2 + n / 4))) (s.get (AF_TONE_SET_ATTEN (2 + n / 4)))
  calHz := (if s.on (AF_IN_CTL_ZONE n) then 10 * s.val (AF_SYSCAL_FREQ n) - (s.inp n).fs / 2 else 10 * s.val (AF_SYSCAL_FREQ n))

/-- Interleave tracking over `cnt` samples towards the mismatch estimated from the signal, with a time constant of 1 s; it holds
with IL_FREEZE = 1 (R108). -/
def ilTrack (c e : IlCorr) (fs cnt : Nat) : IlCorr :=
  let m (a b : Int) : Int := a + (b - a) * cnt / fs
  ⟨m c.off e.off, m c.gain e.gain, m c.skew e.skew⟩

/-- The tokens of a frame: its start, then its samples with each marker before the sample of its OFFSET (R27). -/
def rawToks (ms : List Marker) (cal : Bool) : Nat → List (Int × Bool) → List InTok
  | _, [] => []
  | i, (v, o) :: t => ((ms.filter fun m => m.offset.toNat = i).map InTok.mark) ++ .x v o cal :: rawToks ms cal (i + 1) t

/-- The SP region takes a RAW frame, before every later stage (R32, R583): an EPOCH marker in it is adopted, and a frame of another
epoch is fenced. Others go into the voltage ring and to the stages of the input. -/
def State.feedFrame (s : State) (n fs : Nat) (f : Frame) (run : RingRun) (l : List InTok) : State :=
  let k := 6 + n / 4
  let s := s.takeEpochs k f
  if s.stale k f then (s.count (FT_FENCED k) 1).raiseAlarm k .fenced f.stream.toNat
  else (s.ringWrite n fs run).feed n l

/-- AF_RAW_FRAME_CLOSE: input n's next frame, from what its cores convert (`xs`, any range) and the interleave mismatch estimated
from the signal (`il`). Markers due in it are inserted. A frame that the full output buffer discards goes nowhere (R30). -/
def State.rawFrame (s : State) (n : Nat) (xs : List Int) (il : IlCorr) : State :=
  let cnt := s.rawCount n xs.length
  if cnt = 0 then s
  else
    let k0 := (s.inp n).nextInst
    let s := (s.afInsertAll n (k0 + cnt) s.flow.requests.length).afActAll n
    let x := s.inp n
    let r := AfIn.samples (s.afCfg n) (xs.take cnt) k0 x
    let w8 := s.raw8 n
    let beats := ceilDiv cnt 16
    let flags := beatFlags (r.2.map (·.mark)) beats
    let ys := r.2.map fun o => if w8 then requant8 o.y else o.y
    let ovr := (beatBits flags beats).filter id |>.length
    let cal := r.2.any (·.cal)
    let last := instTime x.fs (k0 + cnt - 1)
    let ms := s.frameMarkersOf (.input n)
    let s := s.setPair (AF_IN_OVR_COUNT_LO n) (AF_IN_OVR_COUNT_HI n)
      (s.pair (AF_IN_OVR_COUNT_LO n) (AF_IN_OVR_COUNT_HI n) + ovr)
    let s := (s.put (AF_IN_STATUS_OVR_NOW n) (if flags.getLastD false then 1 else 0)).put (AF_IN_STATUS_SETTLING n)
      (if r.1.settles.any (fun p => tLt last p.2) then 1 else 0)
    let s := (s.modIn n fun _ => { r.1 with
      lastSample := last
      settles := (r.1.settles.filter fun p => tLt last p.2)
      over6 := (r.1.over6.filter fun p => decide (k0 + cnt < instAt x.fs p.1 + p.2))
      il := if s.on (AF_IN_CTL_IL_FREEZE n) then r.1.il else ilTrack r.1.il il x.fs cnt }).clearFrameMarkers (.input n)
    let spec : FrameSpec := {
      region := 2 + n / 4, time := instTime x.fs k0, format := if w8 then 0x0201 else 0x0101
      flags := (if 0 < ovr then 2 else 0) + (if r.2.any (·.settle) then 4 else 0) + (if cal then 16 else 0)
      markers := ms, payload := packRaw w8 ys flags }
    let st := s.stream (sid 0 n)
    let out := !st.full && st.opened && !(s.flow.stopped.contains n) && !s.stoppedAll
    let s1 := s.sendFrame (sid 0 n) cnt spec
    let s2 := if out then
        s1.feedFrame n x.fs
          { stream := sid 0 n, epoch := s.epoch (2 + n / 4), flags := frameFlags s spec, seq := st.seq, time := spec.time
            format := BitVec.ofNat 16 spec.format, excised := 0, contrib := 0, source := BitVec.ofNat 8 (2 + n / 4)
            markers := st.markers ++ ms, payload := spec.payload }
          ⟨k0, ys, flags, cal⟩ (.start k0 x.fs w8 :: rawToks (st.markers ++ ms) cal 0 (ys.zip flags))
      else s1
    if x.endAt = some (instTime x.fs (k0 + cnt)) then s2.inputTail n else s2

def execAfRawFrameClose (n : Fin 16) (xs : List Int) (il : IlCorr) (s : State) : Host.Outcome State Fault Refusal :=
  .next (s.rawFrame n xs il)

/-! ### System calibration (R132 to R134) -/

/-- The calibration sequencer measures or ramps input n (R561). -/
def State.calOn (s : State) (n : Nat) : Bool :=
  (kvGet s.ca.lossFrom n).isSome || (kvGet s.ca.ramps n).isSome

/-- The tone of a FULL step is out of bounds (R132): amplitude outside -6 to -1 dBFS, FREQ outside the zone, or its stream
frequency too near to 0, to fs/2 or inside an active notch band. -/
def State.sysToneBad (s : State) (n : Nat) : Bool :=
  let a := s.val (AF_SYSCAL_AMPL n)
  let f := fullScaleUv (s.get (AF_IN_CTL_FS n))
  let fs := s.fsHz n
  let hz := 10 * s.val (AF_SYSCAL_FREQ n)
  let z2 := s.on (AF_IN_CTL_ZONE n)
  let st := if z2 then hz - fs / 2 else hz
  decide (a ^ 20 * 10 ^ 6 < f ^ 20) || decide (f ^ 20 < a ^ 20 * 10)
    || (if z2 then decide (2 * hz < fs) || decide (fs < hz) else decide (fs < 2 * hz))
    || decide (st < 10000000) || decide (fs / 2 < st + 10000000)
    || (upto 4).any fun k =>
        let x := s.activeNotch n k
        x.on && decide (10 * x.freq ≤ st + 500 * x.width) && decide (st ≤ 10 * x.freq + 500 * x.width)

/-- The check of GO (R132); STEP 00b and 11b give 0133h. -/
def State.sysGoCheck (s : State) (n : Nat) : Nat :=
  let step := s.get (AF_SYSCAL_CTL_STEP n)
  firstFail [
    (step = 0 || step = 3, 0x0133),
    (!(s.on (AF_IN_CTL_ENABLE n)) || s.source n != 0, 0x0731),
    (s.on (AF_SYSCAL_CTL_BUSY n) || s.on (AF_IN_STATUS_RAMPING n) || s.calOn n, 0x0531),
    (step = 2 && s.sysToneBad n, 0x0134)]

/-- The first whole millisecond of device time at least 200 us after `t` (R134, R570). -/
def calRampTime (t : DevTime) : DevTime :=
  let u := tAdd t (usTicks 200)
  let ms := ceilDiv (fracOf u * 1000) (2 ^ 48)
  BitVec.ofNat 80 (secOf u * 2 ^ 48 + ceilDiv (ms * 2 ^ 48) 1000)

/-- A write of AF_SYSCAL_CTL_n: STEP, GO (R132), APPLY (R134). What the W1S bits GO and APPLY read back is not stated: they always
read 0 (DESIGN CHOICE, assumption 47). -/
def State.syscalCtlWrite (s : State) (n v : Nat) : State × Nat :=
  let rf := AF_SYSCAL_CTL_REASON n
  let s := s.put (AF_SYSCAL_CTL_STEP n) (bits v 2 1)
  if bits v 0 0 = 1 then
    let c := s.sysGoCheck n
    if c != 0 then s.answer rf c
    else
      (((s.put rf 0).put (AF_SYSCAL_CTL_BUSY n) 1).modIn n fun x => { x with
        meas := some { full := s.get (AF_SYSCAL_CTL_STEP n) = 2, from_ := s.inputNow n } }, 0)
  else if bits v 4 4 = 1 then
    if s.on (AF_IN_STATUS_RAMPING n) || s.on (AF_SYSCAL_CTL_BUSY n) || (s.inp n).applyPending || s.calOn n then
      s.answer rf 0x0531
    else
      s.askMarker rf (.input n) .calRamp (sid 0 n) (calRampTime s.now) (BitVec.ofNat 64 (64 + 65536 * 1000000000)) fun s =>
        s.modIn n fun x => { x with applyPending := true }
  else (s.put rf 0, 0)

def execSyscalGo (p : Fin 5) (n : Fin 16) (v : Word) (s : State) : Host.Outcome State Fault Refusal :=
  .next (s.gatedWrite p (AF_SYSCAL_CTL n) fun s => s.syscalCtlWrite n v.toNat)

/-- SYSCAL_APPLY: the write of AF_SYSCAL_CTL_n that sets APPLY alone. -/
def execSyscalApply (p : Fin 5) (n : Fin 16) (s : State) : Host.Outcome State Fault Refusal :=
  .next (s.gatedWrite p (AF_SYSCAL_CTL n) fun s =>
    s.syscalCtlWrite n (16 + 2 * s.get (AF_SYSCAL_CTL_STEP n)))

/-- Result of a measurement (R133): the mean in 2^-6 LSB of a ZERO step; of a FULL step the peak amplitude in 1/256 code, the
correlation with the tone less what the mean contributes to it. -/
def SysMeas.result (m : SysMeas) : Int :=
  let n : Int := 2 ^ 24
  if m.full then
    let i := m.zc * n - m.z * m.c
    let q := m.zs * n - m.z * m.sn
    ratioRound (ratio (512 * (isqrt (i * i + q * q).toNat : Nat)) (2 ^ 108))
  else ratioRound (ratio m.z (2 ^ 38))

/-- SYSCAL_MEAS_DONE (R133): the 2^24 samples have been measured. -/
def State.sysMeasDone (s : State) (n : Nat) : State :=
  match (s.inp n).meas with
  | none => s
  | some m =>
    if m.count != 2 ^ 24 then s else
    let r := m.result
    let rf := AF_SYSCAL_CTL_REASON n
    let s := ((s.put (AF_SYSCAL_CTL_BUSY n) 0).modIn n fun x => { x with meas := none }).setVal (AF_SYSCAL_MEAS n) (unsign 32 r)
    if m.full then
      let a := r.toNat
      let f := fullScaleUv (s.get (AF_IN_CTL_FS n))
      let g := if a = 0 then 2 ^ 32 else (ratioRound (ratio (2048 * s.val (AF_SYSCAL_AMPL n) * 256 * 2 ^ 20) (f * a))).toNat
      if 10 * g < 9 * 2 ^ 20 || 11 * 2 ^ 20 < 10 * g then s.put rf 0x0136
      else (s.setVal (AF_SYSCAL_GAIN n) g).put rf 0
    else if 2048 < r.natAbs then s.put rf 0x0135
    else (s.put (AF_SYSCAL_OFFSET_STAGED n) (unsign 16 r)).put rf 0

def execSyscalMeasDone (n : Fin 16) (s : State) : Host.Outcome State Fault Refusal := .next (s.sysMeasDone n)

/-- SYSCAL_RAMP_STEP (R134): the time of the ramp's next step has come; the registers show it, and the last step ends the ramp. -/
def State.sysRampStep (s : State) (n : Nat) : State :=
  match (s.inp n).ramp, (s.inp n).sys with
  | some k, m :: _ =>
    let t := tAdd m.start ((k + 1) * 2 ^ 42)
    if tLt (s.inputNow n) t then s
    else
      let v := m.at_ t
      let done := decide (64 ≤ k + 1)
      let s := s.modIn n fun x => { x with ramp := if done then none else some (k + 1) }
      let s := (s.put (AF_SYSCAL_OFFSET_ACTIVE n) (unsign 16 (ratioRound v.1))).setVal (AF_SYSCAL_ACT_GAIN n)
        (unsign 32 (ratioRound v.2))
      if done then s.put (AF_IN_STATUS_RAMPING n) 0 else s
  | _, _ => s

def execSyscalRampStep (n : Fin 16) (s : State) : Host.Outcome State Fault Refusal := .next (s.sysRampStep n)

end Sys2Proof.Machine
end

