-- ==== Sys2Proof/Machine/Zoom.lean ====
section
/-! DEFINITION. Machine/Zoom.lean: zoom paths and the zoom transform units (chapter 05, R140 to R166). A path takes what its
input's RAW stream brings, token by token; every row of the opcode table that says something happened in a path lets it take tokens
up to that event. Stages 1 to 4 carry words in units of 2^-12 code (assumption 48). -/

namespace Sys2Proof.Machine

/-- Path z beyond its registers. -/
def State.zpath (s : State) (z : Nat) : ZpSt := kvGetD s.zp z {}

/-- Change a path. -/
def State.modZp (s : State) (z : Nat) (f : ZpSt → ZpSt) : State := { s with zp := kvMod {} s.zp z f }

/-- Decimation 2^D of a path. -/
def State.zpDec (s : State) (z : Nat) : Nat := 2 ^ s.get (ZP_CFG_STAGES z)

/-- Half-band taps N of a preset (Table ZP-2). -/
def presetTaps (p : Nat) : Nat := if p = 0 then 23 else if p = 1 then 43 else 79

/-- Twice the group delay in input samples: 2 G x 2^D (R146). -/
def State.zpDelay2 (s : State) (z : Nat) : Nat :=
  (presetTaps (s.get (ZP_CFG_PRESET z)) - 1) * (s.zpDec z - 1) + (s.get (ZP_CFG_TAPS z) - 1) * s.zpDec z

/-- Settling count S, the group delay in outputs rounded up (R146). -/
def State.zpSettle (s : State) (z : Nat) : Nat := ceilDiv (s.zpDelay2 z) (2 * s.zpDec z)

/-- TIME of output m (R147). -/
def State.zpTime (s : State) (z m : Nat) : DevTime :=
  let i := (m + 1) * s.zpDec z - 1
  instTime (2 * (s.zpath z).fs) (2 * ((s.zpath z).origin + i) - s.zpDelay2 z)

/-- FTW of the active bank. -/
def State.zpFtw (s : State) (z : Nat) : Nat := s.val (ZP_ACT_FTW_LO z) + 2 ^ 32 * s.get (ZP_ACT_FTW_HI_FTW_HI z)

/-- Coefficients of the active bank (2^-14). -/
def State.zpCoefs (s : State) (z : Nat) : List (Int × Int) :=
  (upto (s.get (ZP_CFG_TAPS z))).map fun i => (s.getS (ZP_ACT_COEF_RE z i), s.getS (ZP_ACT_COEF_IM z i))

/-- The stream of path z. -/
def zoomSid (z : Nat) : BitVec 16 := sid 1 z

/-- Zoom path named by slot i of region r. -/
def State.slotPath (s : State) (r i : Nat) : Nat := 16 * (r - 6) + s.get (ZP_ZTU_SLOT_PATH r i)

/-- Points of a slot. -/
def State.slotPoints (s : State) (r i : Nat) : Nat := 2 ^ s.get (ZP_ZTU_SLOT_LOG_P r i)

/-- Outputs from one transform of a slot to the next. -/
def State.slotHop (s : State) (r i : Nat) : Nat :=
  if s.on (ZP_ZTU_SLOT_OVERLAP r i) then s.slotPoints r i / 2 else s.slotPoints r i

/-- Slots of the region's unit, where that runs, that are ON and name path z. -/
def State.slotsFed (s : State) (z : Nat) : List Nat :=
  let r := 6 + z / 16
  if s.on (ZP_ZTU_CTL_ENABLE r) then (upto 16).filter fun i => s.on (ZP_ZTU_SLOT_ON r i) && s.slotPath r i = z else []

/-! ### Transforms of a zoom transform unit (R164, R165) -/

/-- The complex DFT of 2^s points, in 2^-80 of their unit (assumption 41): sum of x[k] e^(-j 2 pi k c / 2^s). -/
def dftFix : Nat → List (Int × Int) → List (Int × Int)
  | 0, l => l.take 1
  | s + 1, l =>
    let e := dftFix s (evens l)
    let o := dftFix s (odds l)
    let z := ((e.zip o).zip (upto (2 ^ s))).map fun p =>
      let c := cosTurn p.2 (2 ^ (s + 1))
      let n := sinTurn p.2 (2 ^ (s + 1))
      let x := p.1.2
      (p.1.1, if x = (0, 0) then (0, 0) else ((x.1 * c + x.2 * n) / oneFix, (x.2 * c - x.1 * n) / oneFix))
    (z.map fun p => (p.1.1 + p.2.1, p.1.2 + p.2.2)) ++ z.map fun p => (p.1.1 - p.2.1, p.1.2 - p.2.2)

/-- The 24+24-bit points of a transform (R165): window times outputs, bins from -r/2 on. The spec gives its scale and its rounding
no value: 2^-h, the least bits free (assumption 50). -/
def ztuPoints (kind logP : Nat) (l : List (Int × Int)) : List (Int × Int) :=
  let p := 2 ^ logP
  let ws := (l.zip (upto p)).map fun x =>
    let w := windowFix kind p x.2
    let m (v : Int) : Int := if v = 0 then 0 else v * w
    (m x.1.1, m x.1.2)
  let y := dftFix logP ws
  let h := (Config.zoomScale logP).toNat
  (y.drop (p / 2) ++ y.take (p / 2)).map fun v =>
    (clampS 24 (wordAt 5 (ratio v.1 (2 ^ (80 + h)))), clampS 24 (wordAt 5 (ratio v.2 (2 ^ (80 + h)))))

/-- The slot completes its next transform, once all its outputs are there (R165, R204): transform j covers outputs j * hop to
j * hop + P - 1 from the path's grid origin; its TIME is that of one of them, which the spec leaves open (assumption 12). -/
def State.ztuDone (s : State) (r i : Nat) : State :=
  let z := s.slotPath r i
  let k := r * 16 + i
  let p := s.slotPoints r i
  match kvGet s.ztu k with
  | none => s
  | some x =>
    let a := x.j * s.slotHop r i
    if x.first + x.pts.length < a + p || a < x.first then s
    else
      let l := (x.pts.reverse.drop (a - x.first)).take p
      let ys := ztuPoints (s.get (ZP_ZTU_SLOT_WINDOW r i)) (s.get (ZP_ZTU_SLOT_LOG_P r i)) (l.map fun e => (e.1, e.2.1))
      let t := s.zpTime z (a + s.freeNow % p)
      let drop := (x.j + 1) * s.slotHop r i - x.first
      let y : ZtuSlot := ⟨x.j + 1, x.first + drop, x.pts.take (x.pts.length - drop)⟩
      let s : State := { s.useFree with ztu := kvPut s.ztu k y }
      s.toDetection r (16 + i) <| .spec {
        stream := zoomSid z, j := x.j, time := t, p := ys.map fun y => f32Round (ratioOf (y.1 * y.1 + y.2 * y.2))
        ovr := l.any (·.2.2.2.1), cal := l.any (·.2.2.2.2), bad := l.any (·.2.2.1), grid := (s.zpath z).grid
        lo := s.zpTime z a, hi := s.zpTime z (a + p - 1) }

/-- The slots that name path z complete the transforms whose outputs are all there. -/
def State.ztuFinish (s : State) (z : Nat) : State :=
  let r := 6 + z / 16
  s.each (s.slotsFed z) fun s i =>
    s.each (upto (((kvGetD s.ztu (r * 16 + i) {}).pts.length) / max 1 (s.slotHop r i))) fun s _ => s.ztuDone r i

/-- The slots of a region's unit that name path z count their transforms anew (R204). -/
def State.ztuRestart (s : State) (z : Nat) : State :=
  let r := 6 + z / 16
  let s := s.ztuFinish z
  { s with ztu := s.ztu.filter fun p => !(p.1 / 16 = r && s.slotPath r (p.1 % 16) = z) }

/-- A gap of the path's outputs, for the slots and the LEVEL units that take them (R214, R259): `len` outputs from `t` on. -/
def State.zpLost (s : State) (z : Nat) (t : DevTime) (len cause : Nat) (final : Bool := false) : State :=
  let r := 6 + z / 16
  let s := s.ztuFinish z
  let s := s.each (s.slotsFed z) fun s i => s.toDetection r (16 + i)
    (.gap ⟨zoomSid z, t, BitVec.ofNat 48 (len / s.slotHop r i), BitVec.ofNat 16 cause, final⟩)
  s.each (s.levelUnits (z / 16) 1 (z % 16)) fun s u => s.giveUnit (z / 16) u [.gap t (BitVec.ofNat 16 cause)]

/-- The path's stream loses `len` outputs from `t` on. -/
def State.zpLoss (s : State) (z : Nat) (t : DevTime) (len cause : Nat) (final : Bool := false) : State :=
  (s.gap (zoomSid z) t len cause final).zpLost z t len cause final

/-- The path restarts before its next input sample, the grid origin (R144, R161): delay lines cleared, NCO loaded, fade ended with
the new bank active, its first S outputs settling. -/
def State.zpReset (s : State) (z : Nat) : State :=
  let s := (s.ztuRestart z).modZp z fun x => { x with
    wait := .none, origin := x.k, grid := x.grid + 1, out := 0, settleFrom := 0, settleTo := s.zpSettle z, line := [], fade := none
    stages := List.replicate (s.get (ZP_CFG_STAGES z)) {}
    nco := BitVec.ofNat 48 (s.get (ZP_ACT_FTW_HI_PHASE z) * 2 ^ 32), lastOvr := none, lastCal := none
    bufFrom := 0, buf := [], wide := [], bufFlags := 0, markers := x.markers.map fun m => { m with offset := 0 } }
  ((s.put (ZP_STATUS_FADING z) 0).put (ZP_STATUS_SETTLING z) (if s.zpSettle z = 0 then 0 else 1)).put (ZP_STATUS_RUNNING z) 1

/-- The banks' registers are exchanged. -/
def State.zpExchange (s : State) (z : Nat) : State :=
  let pairs := [(ZP_SH_FTW_LO z, ZP_ACT_FTW_LO z), (ZP_SH_FTW_HI z, ZP_ACT_FTW_HI z), (ZP_SH_MODE z, ZP_ACT_MODE z)]
    ++ (upto 128).map fun i => (ZP_SH_COEF z i, ZP_ACT_COEF z i)
  s.each pairs fun s p =>
    let a := s.reg p.1
    let b := s.reg p.2
    (s.setReg p.1 b).setReg p.2 a

/-- A swap executes before the next input sample (R155, R156, R158): the new coefficients serve from the next output on. -/
def State.zpSwap (s : State) (z : Nat) : State :=
  let old := s.zpCoefs z
  let ftw := s.zpFtw z
  let s := s.zpExchange z
  let load := s.on (ZP_ACT_MODE_PHASE_LOAD z)
  let m := (s.zpath z).out
  let f := s.get (ZP_CFG_FADE_LOG z)
  let settle := load || s.zpFtw z != ftw
  let s := s.modZp z fun x => { x with
    nco := if load then BitVec.ofNat 48 (s.get (ZP_ACT_FTW_HI_PHASE z) * 2 ^ 32) else x.nco
    fade := if f = 0 then none else some ⟨old, m, 2 ^ f⟩
    settleFrom := if settle then (if x.out < x.settleTo then x.settleFrom else m) else x.settleFrom
    settleTo := if settle then max x.settleTo (m + s.zpSettle z) else x.settleTo, swapAt := none }
  let s := (s.put (ZP_SWAP_CTL_PENDING z) 0).putTime (ZP_DONE_SEC z) (ZP_DONE_FRAC z) (s.zpTime z m)
  let s := (s.put (ZP_STATUS_FADING z) (if f = 0 then 0 else 1)).put (ZP_STATUS_HELD z) 0
  if settle then s.put (ZP_STATUS_SETTLING z) 1 else s

/-! ### Stages 1 to 5 (R140 to R149, R156) -/

/-- A value limited to +-(2^(w-1) - 1), and whether it was (R141). -/
def satSym (w : Nat) (x : Int) : Int × Bool :=
  let m : Int := ((2 ^ (w - 1) - 1 : Nat) : Int)
  if x < -m then (-m, true) else if m < x then (m, true) else (x, false)

/-- A pair of exact values as a stage's 24-bit words, and how many of the two saturated (R141). -/
def words24 (stage : Nat) (re im : Ratio) : (Int × Int) × Nat :=
  let a := satSym 24 (wordAt stage re)
  let b := satSym 24 (wordAt stage im)
  ((a.1, b.1), (if a.2 then 1 else 0) + (if b.2 then 1 else 0))

/-- An amplitude of the NCO: 18 bits, in units of 2^-17 (R143). -/
def ncoWord (v : Int) : Int := clampS 18 (ratioRound (ratio v (2 ^ 63)))

/-- Stage 1 (R140, R142, R143): the sample times 2 e^(-j 2 pi phi), phi the top 20 bits of the accumulator. -/
def zpMix (acc : BitVec 48) (v : Int) : (Int × Int) × Nat :=
  if v = 0 then ((0, 0), 0)
  else
    let a : Nat := acc.toNat / 2 ^ 28
    words24 1 (ratio (v * ncoWord (cosTurn a (2 ^ 20))) 16) (ratio (-(v * ncoWord (sinTurn a (2 ^ 20)))) 16)

/-- Coefficient i of a preset's half-band filter in 2^-19 (R145): the centre is 0.5, other even offsets are 0. -/
def halfBand (preset i : Nat) : Int :=
  let c := (presetTaps preset - 1) / 2
  let d := if i < c then c - i else i - c
  if d = 0 then 2 ^ 18 else if d % 2 = 0 then 0 else signed 20 (Config.halfTap preset (d / 2)).toNat

/-- The sum of a half-band stage over its delay line from tap i on; a word of 0 adds nothing. -/
def halfBandSum (preset : Nat) : Nat → List (Int × Int) → Int × Int
  | _, [] => (0, 0)
  | i, w :: t =>
    let r := halfBandSum preset (i + 1) t
    let m (v : Int) : Int := if v = 0 then 0 else v * halfBand preset i
    (r.1 + m w.1, r.2 + m w.2)

/-- Stage 2 (R140): a word passes the half-band stages, each of which gives one word for every two. Answers the stages, the elements
saturated, and the word that leaves the last. -/
def halfBands (preset : Nat) : List ZpStage → Int × Int → List ZpStage × Nat × Option (Int × Int)
  | [], w => ([], 0, some w)
  | g :: t, w =>
    let line := (w :: g.line).take (presetTaps preset)
    if g.odd then
      let v := halfBandSum preset 0 line
      let y := words24 2 (ratio v.1 (2 ^ 19)) (ratio v.2 (2 ^ 19))
      let r := halfBands preset t y.1
      (⟨line, false⟩ :: r.1, y.2 + r.2.1, r.2.2)
    else (⟨line, true⟩ :: t, 0, none)

/-- Stage 3: the user filter's words over the delay line, newest first, coefficients in 2^-14. -/
def userFilter (coefs line : List (Int × Int)) : (Int × Int) × Nat :=
  let v := (coefs.zip line).foldl (fun (a : Int × Int) p =>
    (a.1 + p.1.1 * p.2.1 - p.1.2 * p.2.2, a.2 + p.1.1 * p.2.2 + p.1.2 * p.2.1)) (0, 0)
  words24 3 (ratio v.1 (2 ^ 14)) (ratio v.2 (2 ^ 14))

/-- Stages 3 and 4 at output m: the active bank, or the fade of R156 from the one before. -/
def zpFilter (coefs : List (Int × Int)) (fade : Option ZpFade) (m : Nat) (line : List (Int × Int)) : (Int × Int) × Nat :=
  let y := userFilter coefs line
  match fade with
  | none => y
  | some f =>
    let j := m - f.from_
    if f.len ≤ j then y
    else
      let o := userFilter f.old line
      let mix (a b : Int) : Ratio := ratio (((f.len - 1 - j : Nat) : Int) * a + ((j + 1 : Nat) : Int) * b) f.len
      let r := words24 4 (mix o.1.1 y.1.1) (mix o.1.2 y.1.2)
      (r.1, y.2 + o.2 + r.2)

/-- One output element of stage 5 (R148), and whether it saturated. -/
def stage5 (bits gain : Nat) (y : Int) : Int × Bool :=
  match bits with
  | 2 => (y, false)
  | b => let w := if b = 0 then 16 else 8
    satSym w (ratioRound (ratio (y * 2 ^ gain) (2 ^ (24 - w))))

/-- FORMAT and element width of OUT_BITS (R148). -/
def zoomFormat (bits : Nat) : Nat × Nat := if bits = 0 then (0x0500, 16) else if bits = 1 then (0x0400, 8) else (0x0700, 32)

/-- The LEVEL units that watch the path take the frame's stage-4 words, with its FLAGS bits 1 and 4 (R238, R240, R241). Output m
stands at instant 2 origin + 2 (m + 1) 2^D - 2 - 2 G 2^D of a clock of 2 fs (R147). -/
def State.zpWatch (s : State) (z : Nat) (x : ZpSt) : State :=
  let d : Int := s.zpDec z
  let first := 2 * (x.origin + (x.bufFrom + 1) * d - 1) - (s.zpDelay2 z : Int)
  let l := x.wide.reverse.map fun w => TgTok.x w.1 w.2 (bits x.bufFlags 1 1 = 1) (bits x.bufFlags 4 4 = 1)
  s.each (s.levelUnits (z / 16) 1 (z % 16)) fun s u =>
    s.giveUnit (z / 16) u (x.markers.map TgTok.mark ++ .start (2 * x.fs) first (2 * s.zpDec z) 1 :: l)

/-- The frame being filled leaves (R149); nothing where it is empty. -/
def State.zpSend (s : State) (z : Nat) : State :=
  let x := s.zpath z
  if x.buf.isEmpty then s
  else
    let fmt := zoomFormat (s.get (ZP_CFG_OUT_BITS z))
    let s := (s.modZp z fun x => { x with buf := [], wide := [], bufFrom := x.out, bufFlags := 0, markers := [] }).zpWatch z x
    s.sendFrame (zoomSid z) x.buf.length {
      region := 6 + z / 16, time := s.zpTime z x.bufFrom, format := fmt.1, flags := x.bufFlags, markers := x.markers,
      payload := packElems fmt.2 (x.buf.reverse.flatMap fun e => [e.1, e.2]) }

/-- Input samples that one output's impulse response spans (R149). -/
def State.zpSpan (s : State) (z : Nat) : Nat := s.zpDelay2 z + 1

/-- The slots of the region's unit that name the path take its output m (R165); one that runs from there on begins with the next
transform whose outputs it takes whole. -/
def State.ztuTake (s : State) (z m : Nat) (p : Int × Int × Bool × Bool × Bool) : State :=
  let r := 6 + z / 16
  { s with ztu := (s.slotsFed z).foldl (fun l i =>
      match kvGet l (r * 16 + i) with
      | some x => kvPut l (r * 16 + i) { x with pts := p :: x.pts }
      | none => kvPut l (r * 16 + i) ⟨ceilDiv m (s.slotHop r i), m, [p]⟩) s.ztu }

/-- Elements of the path saturated (R141). -/
def State.zpSat (s : State) (z n : Nat) : State :=
  if n = 0 then s else (s.count (ZP_SAT_COUNT z) n).put (ZP_STATUS_SATURATED z) 1

/-- The cascade gives a word: output m of the path (R141, R148, R149). The fade's last output ends it, and a swap held behind it
executes at the output that follows (R157). -/
def State.zpOutput (s : State) (z : Nat) (w : Int × Int) : State :=
  let x := s.zpath z
  let m := x.out
  let line := (w :: x.line).take (s.get (ZP_CFG_TAPS z))
  let y := zpFilter (s.zpCoefs z) x.fade m line
  let a := stage5 (s.get (ZP_CFG_OUT_BITS z)) (s.get (ZP_CFG_OUT_GAIN z)) y.1.1
  let b := stage5 (s.get (ZP_CFG_OUT_BITS z)) (s.get (ZP_CFG_OUT_GAIN z)) y.1.2
  let span := s.zpSpan z
  let seen (l : Option Int) : Bool := match l with
    | some i => decide (x.k ≤ i + span)
    | none => false
  let settle := decide (x.settleFrom ≤ m) && decide (m < x.settleTo)
  let fl := (if seen x.lastOvr then 2 else 0) ||| (if settle then 4 else 0) ||| (if seen x.lastCal then 16 else 0)
  let faded := match x.fade with
    | some f => decide (f.from_ + f.len ≤ m + 1)
    | none => false
  let s := s.modZp z fun x => { x with
    out := m + 1, line := line, buf := (a.1, b.1) :: x.buf, wide := y.1 :: x.wide, bufFlags := x.bufFlags ||| fl
    fade := if faded then none else x.fade }
  let s := s.zpSat z (y.2 + (if a.2 then 1 else 0) + (if b.2 then 1 else 0))
  let s := (s.put (ZP_STATUS_SETTLING z) (if m + 1 < x.settleTo then 1 else 0)).ztuTake z m
    (y.1.1, y.1.2, settle, seen x.lastOvr, seen x.lastCal)
  let s : State := if faded then
      let held := s.on (ZP_STATUS_HELD z)
      let s := s.put (ZP_STATUS_FADING z) 0
      if held then s.zpSwap z else s
    else s
  if 4096 ≤ (s.zpath z).buf.length then s.zpSend z else s

/-- The path takes an input sample (R140 to R145). -/
def State.zpSample (s : State) (z : Nat) (v : Int) (ovr cal : Bool) : State :=
  let x := s.zpath z
  let w := zpMix x.nco v
  let r := halfBands (s.get (ZP_CFG_PRESET z)) x.stages w.1
  let s := (s.modZp z fun x => { x with
    k := x.k + 1, nco := x.nco + BitVec.ofNat 48 (s.zpFtw z), stages := r.1
    lastOvr := if ovr then some x.k else x.lastOvr, lastCal := if cal then some x.k else x.lastCal }).zpSat z (w.2 + r.2.1)
  match r.2.2 with
  | some c => s.zpOutput z c
  | none => s

/-- A marker reaches the path (R24, R27, R155, R157, R160, R161). One that waits for its start takes it at a SYNC_RESET. Every marker
goes on at its place before the next output. -/
def State.zpMark (s : State) (z : Nat) (m : Marker) : State :=
  let x := s.zpath z
  let own := m.target = zoomSid z && x.syncAt.contains m.time
  let sync := m.type = .syncReset && (own || m.target = 0xFFFF)
  let put (s : State) : State := s.modZp z fun x => { x with
    markers := x.markers ++ [{ m with offset := BitVec.ofNat 32 x.buf.length }]
    syncAt := if own then x.syncAt.erase m.time else x.syncAt }
  if sync then
    let s := s.zpSend z
    let s := if x.wait = .none then s.zpLost z (s.zpTime z x.out) 0 5 else s
    let s := put ((s.openStream (zoomSid z)).zpReset z)
    if s.on (ZP_STATUS_HELD z) then s.zpSwap z else s
  else if x.wait != .none then s
  else
    let s := put s
    if m.type = .coefSwap && m.target = zoomSid z && x.swapAt = some m.time then
      if s.on (ZP_STATUS_FADING z) then (s.put (ZP_STATUS_HELD z) 1).count (ZP_DEFER_COUNT z) 1 else s.zpSwap z
    else s

/-- A RAW gap record reaches the path (R162): the incomplete decimation group is discarded, the gap passed on in output samples,
and the path resets at the first sample after it; a final one ends the stream (R31). -/
def State.zpGap (s : State) (z : Nat) (g : GapRec) : State :=
  if (s.zpath z).wait != .none then s
  else
    let s := s.zpSend z
    let dec := s.zpDec z
    let x := s.zpath z
    let cut := (x.k - (x.origin + (x.out * dec : Nat))).toNat
    let s := s.zpLoss z (instTime x.fs (x.k - cut)) (ceilDiv (g.length.toNat + cut) dec) g.cause.toNat g.final
    if g.final then (s.put (ZP_STATUS_RUNNING z) 0).modZp z fun x => { x with wait := .sync }
    else s.modZp z fun x => { x with wait := .gap }

/-- A frame starts: a path that waits for it takes its first sample as its grid origin (R152, R162); a swap held behind a fade then
executes (R161). -/
def State.zpFrameStart (s : State) (z : Nat) (k : Int) (fs : Nat) : State :=
  let s := s.modZp z fun x => { x with k := k, fs := fs }
  let go := match (s.zpath z).wait with
    | .gap => true
    | .frame t => tLe t (instTime fs k)
    | _ => false
  if !go then s
  else
    let s := (s.openStream (zoomSid z)).zpReset z
    if s.on (ZP_STATUS_HELD z) then s.zpSwap z else s

/-- The path takes one token. -/
def State.zpToken (s : State) (z : Nat) (t : InTok) : State :=
  match t with
  | .start k fs _ => s.zpFrameStart z k fs
  | .x v ovr cal => if (s.zpath z).wait = .none then s.zpSample z v ovr cal else s.modZp z fun x => { x with k := x.k + 1 }
  | .mark m => s.zpMark z m
  | .gap g => s.zpGap z g
  | .pause => s.zpSend z

/-- Up to what a stage takes its tokens. -/
inductive PullStop where
  | out
  | fade
  | mark (t : MarkerType)
  | gap
  deriving DecidableEq, Repr

/-- A token is the marker or the gap record looked for. -/
def InTok.stops (t : InTok) (p : PullStop) : Bool :=
  match t, p with
  | .mark m, .mark y => m.type = y
  | .gap _, .gap => true
  | _, _ => false

/-- Path z takes tokens until a frame leaves, a fade ends, or the marker or gap record looked for has been taken. -/
def State.zpPull (z : Nat) (p : PullStop) : List InTok → State → State
  | [], s => s.modZp z fun x => { x with inq := [] }
  | t :: rest, s =>
    let r := s.zpToken z t
    let done := t.stops p || (p = .out && decide ((r.zpath z).buf.length < (s.zpath z).buf.length))
      || (p = .fade && s.on (ZP_STATUS_FADING z) && !(r.on (ZP_STATUS_FADING z)))
    if done then r.modZp z fun x => { x with inq := rest } else State.zpPull z p rest r

/-- Path z works on: its island is clocked (R47), its region not lost, a datapath serves it. -/
def State.zpRun (s : State) (z : Nat) (p : PullStop) : State :=
  if !(s.on (ZP_CTL_ENABLE z)) || s.lost (6 + z / 16) || !(s.dutyUp (6 + z / 16) (8 + z % 16 / 4)) then s
  else s.inIsland (6 + z / 16) fun s => State.zpPull z p (s.zpath z).inq s

/-- ZP_FRAME_CLOSE (R141, R148, R149): the path works until its next frame leaves. -/
def execZpFrameClose (z : Fin 64) (s : State) : Host.Outcome State Fault Refusal := .next (s.zpRun z .out)

/-- MARKER_COEF_SWAP_ZOOM (R155, R157): until the next COEF_SWAP marker has reached it. -/
def execMarkerCoefSwapZoom (z : Fin 64) (s : State) : Host.Outcome State Fault Refusal := .next (s.zpRun z (.mark .coefSwap))

/-- MARKER_SYNC_RESET_ZOOM (R161): until the next SYNC_RESET marker has reached it. -/
def execMarkerSyncResetZoom (z : Fin 64) (s : State) : Host.Outcome State Fault Refusal := .next (s.zpRun z (.mark .syncReset))

/-- ZP_FADE_END (R156, R157): until the running fade has ended. -/
def execZpFadeEnd (z : Fin 64) (s : State) : Host.Outcome State Fault Refusal := .next (s.zpRun z .fade)

/-- ZP_INPUT_GAP (R162): until the next RAW gap record has reached it. -/
def execZpInputGap (z : Fin 64) (s : State) : Host.Outcome State Fault Refusal := .next (s.zpRun z .gap)

/-! ### Registers (R151 to R154, R159, R160) -/

/-- A path starts (R152): at the first sample of its input's next frame, or at the SYNC_RESET of R120. -/
def State.zpStart (s : State) (z : Nat) : State :=
  s.modZp z fun _ => { wait := if s.inputRuns (z / 4) then .frame (s.inputNow (z / 4)) else .sync }

/-- A path stops (R160): the frame being filled leaves, requests are cancelled, a fade ends with the new bank active. -/
def State.zpStop (s : State) (z : Nat) : State :=
  let s := s.zpSend z
  let s := ((s.setVal (ZP_STATUS z) (setBits (s.val (ZP_STATUS z)) 4 2 0)).put (ZP_STATUS_RUNNING z) 0)
  let s := (s.put (ZP_SWAP_CTL_PENDING z) 0).put (ZP_SWAP_CTL_SYNC_PENDING z) 0
  let s := (s.cancelMarker .coefSwap (zoomSid z)).cancelMarker .syncReset (zoomSid z)
  s.modZp z fun x => { x with wait := .sync, swapAt := none, syncAt := [], fade := none, inq := [] }

/-- A slot of a running zoom transform unit names the path (R166). -/
def State.ztuUses (s : State) (z : Nat) : Bool :=
  let r := 6 + z / 16
  s.on (ZP_ZTU_CTL_ENABLE r) && (upto 16).any fun i => s.on (ZP_ZTU_SLOT_ON r i) && s.get (ZP_ZTU_SLOT_PATH r i) = z % 16

/-- A write of ZP_CTL_z (R152, R160, R166). -/
def State.zpCtlWrite (s : State) (z v : Nat) : State × Nat :=
  if s.on (ZP_CTL_ENABLE z) && bits v 0 0 = 0 && s.ztuUses z then s.answer (ZP_CTL_REASON z) 0x0340
  else s.enableWrite (ZP_CTL z) v (ZP_CTL_ENABLE z) (ZP_CTL_REASON z) (fun _ => 0)
    (fun s => if s.inputExists (z / 4) then 0 else 0x0210) (·.zpStart z) (·.zpStop z)

/-- A write of ZP_CFG_z: 0740h when it changes a running path's, then the codes of Table ZP-5 (R151). -/
def State.zpCfgWrite (s : State) (z v : Nat) : State × Nat :=
  let rf := ZP_CTL_REASON z
  let f := bits v 27 24
  if s.on (ZP_CTL_ENABLE z) && s.changes (ZP_CFG z) v != 0 then s.answer rf 0x0740
  else if 1 ≤ f && f ≤ 3 then s.answer rf 0x0140
  else if bits v 23 16 < 1 || 128 < bits v 23 16 then s.answer rf 0x0141
  else if bits v 11 10 = 3 || bits v 9 8 = 3 then s.answer rf 0x0142
  else if bits v 3 0 < 1 || 12 < bits v 3 0 then s.answer rf 0x0143
  else ((s.plainWrite (ZP_CFG z) v).put rf 0, 0)

/-- A write of the shadow bank (R154). -/
def State.zpShadowWrite (s : State) (z a v : Nat) : State × Nat :=
  let rf := ZP_SWAP_CTL_REASON z
  if s.on (ZP_SWAP_CTL_PENDING z) then s.answer rf 0x0540
  else if s.on (ZP_STATUS_FADING z) then s.answer rf 0x0541
  else ((s.plainWrite a v).put rf 0, 0)

/-- ARM of ZP_SWAP_CTL_z (R153): 0741h and 0543h before the refusals of R26 (assumption 11). -/
def State.zpArm (s : State) (z : Nat) : State × Nat :=
  let rf := ZP_SWAP_CTL_REASON z
  if !(s.on (ZP_CTL_ENABLE z)) then s.answer rf 0x0741
  else if s.on (ZP_SWAP_CTL_PENDING z) then s.answer rf 0x0543
  else
    let t := atSecFrac (s.val (ZP_SWAP_SEC z)) (s.val (ZP_SWAP_FRAC z))
    s.askMarker rf (.input (z / 4)) .coefSwap (zoomSid z) t 0 fun s =>
      (s.put (ZP_SWAP_CTL_PENDING z) 1).modZp z fun x => { x with swapAt := some t }

/-- SYNC_ARM of ZP_SWAP_CTL_z (R159). -/
def State.zpSyncArm (s : State) (z : Nat) : State × Nat :=
  let rf := ZP_SWAP_CTL_REASON z
  if !(s.on (ZP_CTL_ENABLE z)) then s.answer rf 0x0741
  else
    let t := atSecFrac (s.val (ZP_SWAP_SEC z)) (s.val (ZP_SWAP_FRAC z))
    s.askMarker rf (.input (z / 4)) .syncReset (zoomSid z) t 0 fun s =>
      (s.put (ZP_SWAP_CTL_SYNC_PENDING z) 1).modZp z fun x => { x with syncAt := x.syncAt ++ [t] }

/-- Two requests of one write: the code reported is the first that fails. -/
def bothOf (s : State) (a b : Bool) (f g : State → State × Nat) (rf : Fld) : State × Nat :=
  let r1 := if a then f s else (s, 0)
  let r2 := if b then g r1.1 else (r1.1, 0)
  let c := if r1.2 != 0 then r1.2 else r2.2
  if a || b then (r2.1.put rf c, c) else (s, 0)

/-- A write of ZP_SWAP_CTL_z. -/
def State.zpSwapCtlWrite (s : State) (z v : Nat) : State × Nat :=
  bothOf s (bits v 0 0 = 1) (bits v 2 2 = 1) (·.zpArm z) (·.zpSyncArm z) (ZP_SWAP_CTL_REASON z)

def execZpSwapArm (p : Fin 5) (z : Fin 64) (v : Word) (s : State) : Host.Outcome State Fault Refusal :=
  .next (s.gatedWrite p (ZP_SWAP_CTL z) fun s => s.zpSwapCtlWrite z v.toNat)

/-- ZP_SYNC_ARM: the write of ZP_SWAP_CTL_z that sets SYNC_ARM alone. -/
def execZpSyncArm (p : Fin 5) (z : Fin 64) (s : State) : Host.Outcome State Fault Refusal :=
  .next (s.gatedWrite p (ZP_SWAP_CTL z) fun s => s.zpSwapCtlWrite z 4)

/-! ### The zoom transform unit (R164 to R166) -/

/-- The slots that are ON. -/
def State.slotsOn (s : State) (r : Nat) : List Nat := (upto 16).filter fun i => s.on (ZP_ZTU_SLOT_ON r i)

/-- Load of the unit in units of 1 Hz / 2^12: sum of r (1 + OVERLAP), r = fs / 2^D (R166). -/
def State.ztuLoad (s : State) (r : Nat) : Nat :=
  (s.slotsOn r).foldl (fun a i =>
    let z := s.slotPath r i
    a + s.fsHz (z / 4) * 4096 / s.zpDec z * (if s.on (ZP_ZTU_SLOT_OVERLAP r i) then 2 else 1)) 0

/-- No value stands twice in a list. -/
def noTwice : List Nat → Bool
  | [] => true
  | a :: t => !(t.contains a) && noTwice t

/-- The unit's check (R166). -/
def State.ztuCheck (s : State) (r : Nat) : Nat :=
  firstFail [
    (decide (2 ^ 20 < (s.slotsOn r).foldl (fun a i => a + s.slotPoints r i) 0), 0x0220),
    (decide (800000000 * 4096 < s.ztuLoad r), 0x0203),
    ((s.slotsOn r).any (fun i => !(s.on (ZP_CTL_ENABLE (s.slotPath r i)))), 0x0340),
    (!(noTwice ((s.slotsOn r).map (s.slotPath r))), 0x0542)]

/-- A write of ZP_ZTU_CTL of SP region r. -/
def State.ztuCtlWrite (s : State) (r v : Nat) : State × Nat :=
  s.enableWrite (ZP_ZTU_CTL r) v (ZP_ZTU_CTL_ENABLE r) (ZP_ZTU_CTL_REASON r) (fun _ => 0) (·.ztuCheck r) id
    (fun s => { s with ztu := s.ztu.filter fun p => p.1 / 16 != r })

/-- A write of ZP_ZTU_SLOT_s: LOG_P outside 10 to 20 is refused with 0144h; ZP_ZTU_CTL.REASON is the result of the last enable
(Table ZP-6), so the code goes to the refusal slot alone. -/
def State.ztuSlotWrite (s : State) (r i v : Nat) : State × Nat :=
  if bits v 9 5 < 10 || 20 < bits v 9 5 then (s, 0x0144) else (s.plainWrite (ZP_ZTU_SLOT r i) v, 0)

/-- Window of SP region i. -/
def spWin (i : Nat) : Nat := 6 + i

end Sys2Proof.Machine
end

