-- ==== Sys2Proof/Machine/Broad.lean ====
section
/-! DEFINITION. Machine/Broad.lean: the broad transforms (chapter 06, R168 to R201): prototype, polyphase sums, the radix-2 FFT,
equaliser and CHAN slices. A transform takes what its input's RAW stream brings, token by token; every row of the opcode table that
says something happened in it lets it take tokens up to that event. -/

namespace Sys2Proof.Machine

/-- Transform n beyond its registers. -/
def State.btx (s : State) (n : Nat) : BtSt := kvGetD s.bt n {}

/-- Change a transform. -/
def State.modBt (s : State) (n : Nat) (f : BtSt → BtSt) : State := { s with bt := kvMod {} s.bt n f }

/-- C, T, H and L of a transform (R169). -/
def State.btC (s : State) (n : Nat) : Nat := 2 ^ s.get (BT_CFG_LOG_C n)
def State.btT (s : State) (n : Nat) : Nat := 2 ^ s.get (BT_CFG_TAPS n)
def State.btH (s : State) (n : Nat) : Nat := if s.on (BT_CFG_HOP n) then s.btC n else 2 * s.btC n
def State.btL (s : State) (n : Nat) : Nat := s.btT n * 2 * s.btC n

/-- Bytes of a CHAN element (R180). -/
def State.btElem (s : State) (n : Nat) : Nat := let o := s.get (BT_CFG_OUT_BITS n); if o = 0 then 4 else if o = 1 then 2 else 1

/-- Elements per slice (R180). -/
def State.btS (s : State) (n : Nat) : Nat := min (s.btC n) (32768 / s.btElem n)

/-- Bytes per second of the CHAN stream (R196). -/
def State.chanRate (s : State) (n : Nat) : Ratio :=
  ratio (s.fsHz n * (s.btC n * s.btElem n + 40 * ceilDiv (s.btC n) (s.btS n)) : Nat) (s.btH n)

/-- The stream of transform n. -/
def chanSid (n : Nat) : BitVec 16 := sid 2 n

/-- Midpoint instant of spectrum j (R171). -/
def State.btMid (s : State) (n : Nat) (j : Int) : Int := (s.btx n).origin + j * s.btH n + (s.btL n / 2 : Nat)

/-- TIME of spectrum j (R171). -/
def State.btTime (s : State) (n : Nat) (j : Int) : DevTime := instTime (s.btx n).fs (s.btMid n j)

/-- The first spectrum after a reset: the ceiling of (1 - L) / H (R183). -/
def State.btFirst (s : State) (n : Nat) : Int := -(((s.btL n - 1) / s.btH n : Nat) : Int)

/-- The transform restarts before its next input sample, the grid origin (R183). -/
def State.btReset (s : State) (n : Nat) : State :=
  let j0 := s.btFirst n
  ((s.modBt n fun x => { x with
    wait := .none, origin := x.k, grid := x.grid + 1, next := j0, hist := [] }).put (BT_STATUS_SETTLING n)
    (if j0 < 0 then 1 else 0)).put (BT_STATUS_RUNNING n) 1

/-- A gap record falls due before the next spectrum, with the first cause given (R184, R185). -/
def State.btOweGap (s : State) (n cause : Nat) : State :=
  s.modBt n fun x => { x with gapCause := if x.lastMid.isNone then none else some (x.gapCause.getD cause) }

/-! ### Equaliser (R178, R179, R188, R190) -/

/-- The gain of an entry: MANT x 2^(EXP - 23) (R178). -/
def eqGain (e : BitVec 16) : Ratio := ratio (bits e.toNat 11 0 * 2 ^ bits e.toNat 15 12) (2 ^ 23)

/-- The active bank. -/
def BtSt.active (x : BtSt) : BtBank := x.banks.headD ⟨0, 0, [], []⟩

/-- Entry c of a table. -/
def eqEntry (t : KV (BitVec 16)) (c : Nat) : BitVec 16 := kvGetD t c 0x8800

/-- Gain of channel c for the spectrum with count `k`: the bank in force, or the fade from the one before (R156, R190). -/
def gainAt (banks : List BtBank) (k c : Nat) : Ratio :=
  match banks.filter fun b => decide (b.from_ ≤ k) with
  | [] => eqGain 0x8800
  | [b] => eqGain (eqEntry b.eq c)
  | b :: o :: _ =>
    let j := k - b.from_
    if b.fade ≤ j then eqGain (eqEntry b.eq c)
    else ratioMix (eqGain (eqEntry o.eq c)) (eqGain (eqEntry b.eq c)) (j + 1) b.fade

/-- Static mask bit of channel c for the spectrum with count `k` (R211). -/
def maskAt (banks : List BtBank) (k c : Nat) : Bool :=
  match banks.find? fun b => decide (b.from_ ≤ k) with
  | some b => bits (kvGetD b.mask (c / 32) 0).toNat (c % 32) (c % 32) = 1
  | none => false

/-- The swap that is due executes at the next spectrum (R190): tables and static masks change places, EQ_DONE is its TIME. -/
def State.btSwap (s : State) (n : Nat) : State :=
  let x := s.btx n
  if !x.swapDue then s
  else
    let f := s.get (BT_CFG_FADE_LOG n)
    let old := x.active
    let s := s.modBt n fun x => { x with
      banks := [⟨x.cnt, if f = 0 then 0 else 2 ^ f, x.eqSh, x.maskSh⟩, old]
      eqSh := old.eq, maskSh := old.mask, swapAt := none, swapDue := false }
    let s := (s.put (BT_MK_CTL_PENDING n) 0).putTime (BT_EQ_DONE_SEC n) (BT_EQ_DONE_FRAC n) (s.btTime n x.next)
    (s.put (BT_STATUS_FADING n) (if f = 0 then 0 else 1)).put (BT_STATUS_HELD n) 0

/-- The transform's stream loses `len` spectra from `t` on: a gap record, which detection takes too (R214). -/
def State.btLoss (s : State) (n : Nat) (t : DevTime) (len cause : Nat) (final : Bool := false) : State :=
  let s := (s.gap (chanSid n) t len cause final).toDetection (6 + n / 4) (n % 4)
    (.gap ⟨chanSid n, t, BitVec.ofNat 48 len, BitVec.ofNat 16 cause, final⟩)
  if s.on (BT_CTL_TO_CB n) then s.toCb n (.gap cause) else s

/-- A marker reaches the transform (R27, R183, R190, R191). One that waits for its start takes it at a SYNC_RESET. Every marker goes
on before the next spectrum, the first to which a sample at or after it contributes. -/
def State.btMark (s : State) (n : Nat) (m : Marker) : State :=
  let x := s.btx n
  let own := m.target = chanSid n && x.syncAt.contains m.time
  let put (s : State) : State := s.modBt n fun x => { x with
    markers := x.markers ++ [{ m with offset := 0 }], syncAt := if own then x.syncAt.erase m.time else x.syncAt }
  if m.type = .syncReset && (own || m.target = 0xFFFF) then
    put (((s.openStream (chanSid n)).btOweGap n 5).btReset n)
  else if x.wait != .none then s
  else
    let s := put s
    if m.type = .gainSwitch && m.target = chanSid n && x.swapAt = some m.time then
      if s.on (BT_STATUS_FADING n) then s.put (BT_STATUS_HELD n) 1 else s.modBt n fun x => { x with swapDue := true }
    else s

/-- A RAW gap record reaches the transform (R185): it resets at the first sample after the gap; a final one ends the CHAN stream
(R31). -/
def State.btGap (s : State) (n : Nat) (g : GapRec) : State :=
  if (s.btx n).wait != .none then s
  else if g.final then ((s.btLoss n g.time 0 g.cause.toNat true).put (BT_STATUS_RUNNING n) 0).modBt n fun x => { x with wait := .sync }
  else (s.btOweGap n g.cause.toNat).modBt n fun x => { x with wait := .gap, k := x.k + g.length.toNat }

/-- A frame starts: a transform that waits for it takes its first sample as its grid origin (R185, R197). Where device time was
loaded or the sample rate changed in between, the last spectrum keeps its distance in sampling instants. -/
def State.btFrameStart (s : State) (n : Nat) (k : Int) (fs : Nat) (w8 : Bool) : State :=
  let s := s.modBt n fun x => { x with
    k := k, fs := fs, w8 := w8, lastMid := x.lastMid.map fun m => (m.1 + (k - x.k), m.2) }
  let go := match (s.btx n).wait with
    | .gap => true
    | .frame t => tLe t (instTime fs k)
    | _ => false
  if go then (s.openStream (chanSid n)).btReset n else s

/-! ### The polyphase sums and the FFT (R169, R173 to R177) -/

/-- Point i of the user window of input n. -/
def BtSt.winPoint (x : BtSt) (i : Nat) : Nat := (kvGetD x.win i 0xFFFF).toNat

/-- v[k] (R169, R175): 2^6 times the sum of samples times prototype over the taps, in 2^-16, to the nearest 20-bit value. `xs` holds
the window's samples; one of 0 adds nothing. -/
def pfbSum (h : Nat → Int) (c : Nat) (xs : List Int) (k : Nat) : Nat → Int
  | 0 => 0
  | t + 1 =>
    let i := t * (2 * c) + k
    let x := xs.getD i 0
    pfbSum h c xs k t + (if x = 0 then 0 else x * h i)
def pfbWord (h : Nat → Int) (taps c : Nat) (xs : List Int) (k : Nat) : Int :=
  ratioRoundS 20 (ratio (pfbSum h c xs k taps) (2 ^ 10))

/-- One component of a butterfly: halved where the stage shifts, rounded to nearest with ties away from zero, saturated (R176). -/
def fftWord (shift : Bool) (v : Ratio) : Int × Bool := satSym 20 (ratioRound (if shift then ratioMul v ⟨1, 2⟩ else v))

/-- One output of a butterfly, e + w o with w = e^(-j 2 pi k / n); the words and whether a component saturated. -/
def fftOut (shift : Bool) (n k : Nat) (e o : Int × Int) : (Int × Int) × Bool :=
  let c := cosTurn k n
  let s := sinTurn k n
  let re := if o = (0, 0) then ratioOf e.1 else ratio (e.1 * 2 ^ 80 + (o.1 * c + o.2 * s)) (2 ^ 80)
  let im := if o = (0, 0) then ratioOf e.2 else ratio (e.2 * 2 ^ 80 + (o.2 * c - o.1 * s)) (2 ^ 80)
  let a := fftWord shift re
  let b := fftWord shift im
  ((a.1, b.1), a.2 || b.2)

/-- The FFT of 2^s words in radix-2 stages 0 to s - 1 (R176), decimation in time: stage s - 1 combines the transforms of the words of
even and of odd place (DESIGN CHOICE, assumption 49). Bit i of `sched` halves the output of stage i. Answers the words in order and
whether any stage saturated. -/
def fftStages (sched : Nat) : Nat → List (Int × Int) → List (Int × Int) × Bool
  | 0, l => (l.take 1, false)
  | s + 1, l =>
    let e := fftStages sched s (evens l)
    let o := fftStages sched s (odds l)
    let sh := bits sched s s = 1
    let z := (e.1.zip o.1).zip (upto (2 ^ s))
    let lo := z.map fun p => fftOut sh (2 ^ (s + 1)) p.2 p.1.1 p.1.2
    let hi := z.map fun p => fftOut sh (2 ^ (s + 1)) (p.2 + 2 ^ s) p.1.1 p.1.2
    ((lo ++ hi).map (·.1), e.2 || o.2 || (lo ++ hi).any (·.2))

/-- The words X[c] of a spectrum from its window's samples, channel 0 with an imaginary part of 0 (R169, R170), and whether a stage
saturated. -/
def State.btWords (s : State) (n : Nat) (xs : List Int) : List (Int × Int) × Bool :=
  let c := s.btC n
  let h := protoCoef (s.get (BT_CFG_WINDOW n)) (s.btx n).winPoint (s.btT n) c
  let r := fftStages (s.get (BT_SHIFT_SHIFT n)) (s.get (BT_CFG_LOG_C n) + 1)
    ((upto (2 * c)).map fun k => (pfbWord h (s.btT n) c xs k, 0))
  ((r.1.take c).zip (upto c) |>.map fun p => if p.2 = 0 then (p.1.1, 0) else p.1, r.2)

/-! ### Spectra (R176, R179 to R181, R203, R213) -/

/-- FORMAT and component width of OUT_BITS (R180). -/
def chanFormat (o : Nat) : Nat × Nat := if o = 0 then (0x0501, 16) else if o = 1 then (0x0401, 8) else (0x0301, 4)

/-- Integrators of input n's region that excise its CHAN stream (R213). -/
def State.chanExcisers (s : State) (n : Nat) : List Nat :=
  let r := 6 + n / 4
  (upto 16).filter fun i => s.on (DC_INT_CTL_ENABLE r i) && s.get (DC_INT_SRC_KIND r i) = 0
    && s.get (DC_INT_SRC_INDEX r i) = n % 4 && s.get (DC_INT_CFG_EXCISE r i) = 2

/-- Channel c of spectrum j (count k) is replaced by 0 (R213). -/
def State.chanZero (s : State) (n : Nat) (j : Int) (k c : Nat) : Bool :=
  let r := 6 + n / 4
  (s.chanExcisers n).any fun i =>
    let first := s.get (DC_INT_SRC_FIRST r i)
    decide (first ≤ c) && decide (c < first + 2 ^ s.get (DC_INT_CFG_LOG_SPAN r i)) &&
      ((s.on (DC_INT_CFG_STATIC_EN r i) && maskAt (s.btx n).banks k c)
        || (kvGetD s.dc.ints (r * 16 + i) {}).zero.any fun z =>
            z.grid = (s.btx n).grid && decide (z.lo ≤ j) && decide (j ≤ z.hi) && z.flags.getD (c - first) false)

/-- Slice descriptor (Table BT-4). -/
def sliceDesc (j : Int) (slice status logC : Nat) : List Byte :=
  leBytes 4 (unsign 32 j) ++ leBytes 2 slice ++ leBytes 1 status ++ leBytes 1 logC

/-- The gap record due before the next spectrum (R184, R185, R199). -/
def State.btPayGap (s : State) (n : Nat) (j : Int) : State :=
  let x := s.btx n
  let s := match x.takeGap with
    | some g => (s.btLoss n (s.btTime n (j - g)) g 9).modBt n fun x => { x with takeGap := none }
    | none => s
  match x.gapCause, x.lastMid with
  | some c, some m =>
    let d := (s.btMid n j - m.1).toNat
    (s.btLoss n m.2 (ceilDiv d (s.btH n) - 1) c).modBt n fun x => { x with gapCause := none }
  | _, _ => s

/-- The spectrum for CB's combine input n (R295, R296), with the epoch and the markers of the frames that carry it. -/
def State.btCombine (s : State) (n : Nat) (j : Int) (els : List (Int × Int × Bool × Bool)) (ovr ovf cal : Bool)
    (ms : List Marker) : State :=
  let zeroed := (upto els.length).filter fun c => (els.getD c (0, 0, false, false)).2.2.2
  s.toCb n (.spec {
    x := n, time := s.btTime n j, j := j, logC := s.get (BT_CFG_LOG_C n), els := els.map fun e => (e.1, e.2.1), zeroed := zeroed
    inOvr := ovr, ovf := ovf, cal := cal, settling := decide (j < 0)
    excised := if zeroed.isEmpty then none else some zeroed.length } (s.epoch (6 + n / 4)) ((s.stream (chanSid n)).markers ++ ms))

/-- The slices of a spectrum (R180, R181): `els` by channel, each the two components, whether the element saturated, and
whether it was zeroed. A spectrum that leaves reaches CB where the input feeds it. -/
def State.btSlices (s : State) (n : Nat) (j : Int) (els : List (Int × Int × Bool × Bool)) (ovr ovf cal : Bool)
    (ms : List Marker) : State :=
  let fmt := chanFormat (s.get (BT_CFG_OUT_BITS n))
  let t := s.btTime n j
  let per := s.btS n
  let bit (b : Nat) (on : Bool) : Nat := if on then 2 ^ b else 0
  let zeroing := !(s.chanExcisers n).isEmpty
  let s := if s.on (BT_CTL_TO_CB n) && s.delivers (chanSid n) then s.btCombine n j els ovr ovf cal ms else s
  s.each (upto (ceilDiv (s.btC n) per)) fun s k =>
    let xs := (els.drop (k * per)).take per
    let cut := (xs.filter fun x => x.2.2.2).length
    let req := xs.any fun x => x.2.2.1
    s.sendFrame (chanSid n) (if k = 0 then 1 else 0) {
      region := 6 + n / 4, time := t, format := fmt.1
      flags := bit 1 (ovr || ovf) + bit 2 (decide (j < 0)) + bit 4 cal + bit 5 (zeroing && decide (0 < cut))
      excised := cut, markers := if k = 0 then ms else []
      payload := sliceDesc j k (bit 0 ovr + bit 1 ovf + bit 2 req + bit 3 (decide (j < 0))) (s.get (BT_CFG_LOG_C n))
        ++ packElems fmt.2 (xs.flatMap fun x => [x.1, x.2.1]) }

/-- The fade's last spectrum has left: it ends, and a swap held behind it executes at the spectrum that follows (R190). -/
def State.btFadeStep (s : State) (n : Nat) : State :=
  let x := s.btx n
  let b := x.active
  if s.on (BT_STATUS_FADING n) && decide (b.from_ + b.fade ≤ x.cnt) then
    let held := s.on (BT_STATUS_HELD n)
    (s.put (BT_STATUS_FADING n) 0).modBt n fun x => { x with banks := x.banks.take 1, swapDue := x.swapDue || held }
  else s

/-- The next spectrum, whose window is complete, leaves (R169 to R186): a swap that is due executes; the words, the equaliser, the
slices, and what detection takes. -/
def State.btEmit (s : State) (n : Nat) : State :=
  let s := s.btSwap n
  let x := s.btx n
  let j := x.next
  let c := s.btC n
  let w := (chanFormat (s.get (BT_CFG_OUT_BITS n))).2
  let s := s.btPayGap n j
  let win := (x.hist.take (s.btL n)).reverse
  let xs := List.replicate (s.btL n - win.length) 0 ++ win.map (·.1)
  let ovr := win.any (·.2.1)
  let cal := win.any (·.2.2)
  let fft := s.btWords n xs
  let ovf := fft.2
  let ys := (fft.1.zip (upto c)).map fun p =>
    let g := gainAt x.banks x.cnt p.2
    (ratioMul g (ratioOf p.1.1), ratioMul g (ratioOf p.1.2))
  let els := (ys.zip (upto c)).map fun p =>
    let a := ratioRound p.1.1
    let b := ratioRound p.1.2
    let z := s.chanZero n j x.cnt p.2
    let sat := clampS w a != a || clampS w b != b
    if z then (0, 0, sat, true) else (clampS w a, clampS w b, sat, false)
  let sats := els.foldl (fun k e => if e.2.2.1 then k + 1 else k) 0
  let p := ys.map fun y => f32Round (ratioAdd (ratioMul y.1 y.1) (ratioMul y.2 y.2))
  let s := s.count (BT_SAT_COUNT n) sats
  let s := if ovf then (s.put (BT_STATUS_OVF n) 1).count (BT_OVF_COUNT n) 1 else s
  let s := if s.on (BT_CTL_TO_CB n) || s.on (BT_CTL_TO_SWITCH n) then s.btSlices n j els ovr ovf cal x.markers else s
  let k0 := x.origin + j * (s.btH n : Int)
  let s := s.toDetection (6 + n / 4) (n % 4) <| .spec {
    stream := chanSid n, j := j, time := s.btTime n j, p := p, ovr := ovr || ovf, cal := cal, bad := decide (j < 0)
    grid := x.grid, lo := instTime x.fs k0, hi := instTime x.fs (k0 + (s.btL n : Int) - 1)
    static := (upto c).map fun k => maskAt x.banks x.cnt k, markers := x.markers }
  let s := s.modBt n fun y => { y with
    next := j + 1, cnt := y.cnt + 1, lastMid := some (s.btMid n j, s.btTime n j), markers := [] }
  (s.put (BT_STATUS_SETTLING n) (if j + 1 < 0 then 1 else 0)).btFadeStep n

/-- The transform takes an input sample into its history (R168, R198); when it completes the next spectrum's window, that leaves, or
is lost to a takeover (R199). -/
def State.btSample (s : State) (n : Nat) (v : Int) (ovr cal : Bool) : State :=
  let s := s.modBt n fun x => { x with
    k := x.k + 1, hist := ((if x.w8 then 16 * v else v, ovr, cal) :: x.hist).take (s.btL n) }
  let x := s.btx n
  if x.k != x.origin + x.next * (s.btH n : Int) + (s.btL n : Int) then s
  else
    let lost := match x.skipTo with
      | some t => tLe (instTime x.fs (x.k - 1)) t
      | none => false
    if lost then s.modBt n fun x => { x with next := x.next + 1, takeGap := some (x.takeGap.getD 0 + 1) }
    else (s.modBt n fun x => { x with skipTo := none }).btEmit n

/-- The transform takes one token. -/
def State.btToken (s : State) (n : Nat) (t : InTok) : State :=
  match t with
  | .start k fs w8 => s.btFrameStart n k fs w8
  | .x v ovr cal => if (s.btx n).wait = .none then s.btSample n v ovr cal else s.modBt n fun x => { x with k := x.k + 1 }
  | .mark m => s.btMark n m
  | .gap g => s.btGap n g
  | .pause => s

/-- Transform n takes tokens until a spectrum leaves, a fade ends, or the marker or gap record looked for has been taken. -/
def State.btPull (n : Nat) (p : PullStop) : List InTok → State → State
  | [], s => s.modBt n fun x => { x with inq := [] }
  | t :: rest, s =>
    let r := s.btToken n t
    let done := t.stops p || (p = .out && decide ((s.btx n).cnt < (r.btx n).cnt))
      || (p = .fade && s.on (BT_STATUS_FADING n) && !(r.on (BT_STATUS_FADING n)))
    if done then r.modBt n fun x => { x with inq := rest } else State.btPull n p rest r

/-- Transform n works on: its island is clocked (R47), its region not lost, a pipeline serves it. -/
def State.btRun (s : State) (n : Nat) (p : PullStop) : State :=
  if !(s.on (BT_CTL_ENABLE n)) || s.lost (6 + n / 4) || !(s.dutyUp (6 + n / 4) (n % 4)) then s
  else s.inIsland (6 + n / 4) fun s => State.btPull n p (s.btx n).inq s

/-- BT_SPECTRUM_DONE (R168 to R186): the transform works until its next spectrum leaves. -/
def execBtSpectrumDone (n : Fin 16) (s : State) : Host.Outcome State Fault Refusal := .next (s.btRun n .out)

/-- MARKER_GAIN_SWITCH (R190): until the next GAIN_SWITCH marker has reached it. -/
def execMarkerGainSwitch (n : Fin 16) (s : State) : Host.Outcome State Fault Refusal := .next (s.btRun n (.mark .gainSwitch))

/-- MARKER_SYNC_RESET_BROAD (R183): until the next SYNC_RESET marker has reached it. -/
def execMarkerSyncResetBroad (n : Fin 16) (s : State) : Host.Outcome State Fault Refusal := .next (s.btRun n (.mark .syncReset))

/-- BT_EQ_FADE_END (R190): until the running fade has ended. -/
def execBtEqFadeEnd (n : Fin 16) (s : State) : Host.Outcome State Fault Refusal := .next (s.btRun n .fade)

/-- BT_INPUT_GAP (R185): until the next RAW gap record has reached it. -/
def execBtInputGap (n : Fin 16) (s : State) : Host.Outcome State Fault Refusal := .next (s.btRun n .gap)

/-! ### Registers (R187 to R197) -/

/-- Transform units in use on the device, with transform n (R172, R195). -/
def State.btUnits (s : State) (n : Nat) : Nat :=
  ((upto 16).filter fun m => m = n || s.on (BT_CTL_ENABLE m)).foldl (fun a m => a + (if s.on (BT_CFG_HOP m) then 2 else 1)) 0

/-- CHAN bytes per second to CB from region SP of input n, with transform n (R195). -/
def State.btToCb (s : State) (n : Nat) : Ratio :=
  ((upto 4).map fun i => n / 4 * 4 + i).foldl (fun a m =>
    if (m = n || s.on (BT_CTL_ENABLE m)) && s.on (BT_CTL_TO_CB m) then ratioAdd a (s.chanRate m) else a) (ratioOf 0)

/-- The transform's check (R195). -/
def State.btCheck (s : State) (n : Nat) : Nat :=
  firstFail [
    (!(s.inputExists n), 0x0210),
    (s.on (BT_CFG_HOP n) && s.get (BT_CFG_TAPS n) != 0, 0x0152),
    (decide (1048576 < s.btT n * s.btC n), 0x0202),
    (decide ((if s.variant = .yn9616 then 24 else 12) < s.btUnits n), 0x0201),
    (s.on (BT_CTL_TO_CB n) && ratioLt (ratioOf 64000000000) (s.btToCb n), 0x0221),
    (s.on (BT_CTL_TO_SWITCH n) && s.portsFull (6 + n / 4) (s.chanRate n), 0x020D)]

/-- A transform starts (R197): at the first sample of its input's next frame, or at the SYNC_RESET of R120. -/
def State.btStart (s : State) (n : Nat) : State :=
  let s := s.modBt n fun x => { x with
    wait := if s.inputRuns n then .frame (s.inputNow n) else .sync
    cnt := 0, lastMid := none, gapCause := none, takeGap := none, skipTo := none, markers := [], inq := [], hist := []
    swapDue := false, banks := [{ x.active with from_ := 0, fade := 0 }] }
  if s.on (BT_CTL_TO_SWITCH n) then s.tiePort (6 + n / 4) (chanSid n) (s.chanRate n) else s

/-- A transform stops (R191). -/
def State.btStop (s : State) (n : Nat) : State :=
  let s := s.setVal (BT_STATUS n) (setBits (setBits (s.val (BT_STATUS n)) 4 2 0) 0 0 0)
  let s := (s.put (BT_MK_CTL_PENDING n) 0).put (BT_MK_CTL_SYNC_PENDING n) 0
  let s := ((s.cancelMarker .gainSwitch (chanSid n)).cancelMarker .syncReset (chanSid n)).freePort (6 + n / 4) (chanSid n)
  s.modBt n fun x => { x with
    wait := .sync, swapAt := none, syncAt := [], swapDue := false, inq := []
    banks := [{ x.active with from_ := 0, fade := 0 }] }

/-- A write of BT_CTL_n (R191, R195). -/
def State.btCtlWrite (s : State) (n v : Nat) : State × Nat :=
  s.enableWrite (BT_CTL n) v (BT_CTL_ENABLE n) (BT_CTL_REASON n) (fun _ => 0) (·.btCheck n) (·.btStart n) (·.btStop n)

/-- A write of BT_CFG_n (R194, Table BT-6). -/
def State.btCfgWrite (s : State) (n v : Nat) : State × Nat :=
  let rf := BT_CTL_REASON n
  let f := bits v 19 16
  if s.on (BT_CTL_ENABLE n) && s.changes (BT_CFG n) v != 0 then s.answer rf 0x0750
  else if 1 ≤ f && f ≤ 3 then s.answer rf 0x0153
  else if bits v 14 13 = 3 || 8 < bits v 12 9 then s.answer rf 0x0151
  else if bits v 4 0 < 7 || 17 < bits v 4 0 then s.answer rf 0x0150
  else ((s.plainWrite (BT_CFG n) v).put rf 0, 0)

/-- A write of BT_SHIFT_n (R194). -/
def State.btShiftWrite (s : State) (n v : Nat) : State × Nat :=
  let rf := BT_CTL_REASON n
  if s.on (BT_CTL_ENABLE n) && s.changes (BT_SHIFT n) v != 0 then s.answer rf 0x0750
  else ((s.plainWrite (BT_SHIFT n) v).put rf 0, 0)

/-- ARM of BT_MK_CTL_n (R188); 0752h and 0552h before the refusals of R26 (assumption 11). -/
def State.btArm (s : State) (n : Nat) : State × Nat :=
  let rf := BT_MK_CTL_REASON n
  if !(s.on (BT_CTL_ENABLE n)) then s.answer rf 0x0752
  else if s.on (BT_MK_CTL_PENDING n) then s.answer rf 0x0552
  else
    let t := atSecFrac (s.val (BT_MK_SEC n)) (s.val (BT_MK_FRAC n))
    s.askMarker rf (.input n) .gainSwitch (chanSid n) t 0 fun s =>
      (s.put (BT_MK_CTL_PENDING n) 1).modBt n fun x => { x with swapAt := some t }

/-- SYNC_ARM of BT_MK_CTL_n (R187). -/
def State.btSyncArm (s : State) (n : Nat) : State × Nat :=
  let rf := BT_MK_CTL_REASON n
  if !(s.on (BT_CTL_ENABLE n)) then s.answer rf 0x0752
  else
    let t := atSecFrac (s.val (BT_MK_SEC n)) (s.val (BT_MK_FRAC n))
    s.askMarker rf (.input n) .syncReset (chanSid n) t 0 fun s =>
      (s.put (BT_MK_CTL_SYNC_PENDING n) 1).modBt n fun x => { x with syncAt := x.syncAt ++ [t] }

/-- A write of BT_MK_CTL_n. -/
def State.btMkWrite (s : State) (n v : Nat) : State × Nat :=
  bothOf s (bits v 0 0 = 1) (bits v 2 2 = 1) (·.btArm n) (·.btSyncArm n) (BT_MK_CTL_REASON n)

def execBtEqArm (p : Fin 5) (n : Fin 16) (v : Word) (s : State) : Host.Outcome State Fault Refusal :=
  .next (s.gatedWrite p (BT_MK_CTL n) fun s => s.btMkWrite n v.toNat)

/-- BT_SYNC_ARM: the write of BT_MK_CTL_n that sets SYNC_ARM alone. -/
def execBtSyncArm (p : Fin 5) (n : Fin 16) (s : State) : Host.Outcome State Fault Refusal :=
  .next (s.gatedWrite p (BT_MK_CTL n) fun s => s.btMkWrite n 4)

/-! ### Table ports (R189, R193, R194, R211) -/

/-- Advance the equaliser port. -/
def State.eqAdvance (s : State) (n : Nat) : State := s.put (BT_EQ_ADDR_CH n) ((s.get (BT_EQ_ADDR_CH n) / 2 * 2 + 2) % 131072)

/-- The shadow tables of input n may not be written: 0550h, 0551h (R189); 0 when they may. -/
def State.shadowShut (s : State) (n : Nat) : Nat :=
  if s.on (BT_MK_CTL_PENDING n) then 0x0550 else if s.on (BT_STATUS_FADING n) then 0x0551 else 0

/-- A write of BT_EQ_DATA_n (R189, R193). A refused write has no effect, the advance included. -/
def State.eqDataWrite (s : State) (n v : Nat) : State × Nat :=
  let rf := BT_MK_CTL_REASON n
  if s.on (BT_EQ_ADDR_BANK n) then s.answer rf 0x0753
  else if s.shadowShut n != 0 then s.answer rf (s.shadowShut n)
  else
    let c := s.get (BT_EQ_ADDR_CH n) / 2 * 2
    let s := s.modBt n fun x => { x with
      eqSh := kvSetD 0x8800 (kvSetD 0x8800 x.eqSh c (BitVec.ofNat 16 v)) (c + 1) (BitVec.ofNat 16 (v / 65536)) }
    ((s.put rf 0).eqAdvance n, 0)

/-- A read of BT_EQ_DATA_n (R193). -/
def State.eqDataRead (s : State) (n : Nat) : State × Word :=
  let c := s.get (BT_EQ_ADDR_CH n) / 2 * 2
  let t := if s.on (BT_EQ_ADDR_BANK n) then (s.btx n).active.eq else (s.btx n).eqSh
  (s.eqAdvance n, BitVec.ofNat 32 ((eqEntry t c).toNat + 65536 * (eqEntry t (c + 1)).toNat))

/-- BT_EQ_DATA_ACCESS: a write of `v`, or a read. -/
def execBtEqDataAccess (p : Fin 5) (n : Fin 16) (v : Option Word) (s : State) : Host.Outcome State Fault Refusal :=
  .next (match v with
    | some v => s.gatedWrite p (BT_EQ_DATA n) fun s => s.eqDataWrite n v.toNat
    | none => s.readOut p (BT_EQ_DATA n) fun s => s.eqDataRead n)

/-- Advance the user-window port. -/
def State.winAdvance (s : State) (n : Nat) : State := s.put (BT_WIN_ADDR_I n) ((s.get (BT_WIN_ADDR_I n) / 2 * 2 + 2) % 16384)

/-- A write of BT_WIN_DATA_n (R193, R194). -/
def State.winDataWrite (s : State) (n v : Nat) : State × Nat :=
  let rf := BT_CTL_REASON n
  if s.on (BT_CTL_ENABLE n) && s.get (BT_CFG_WINDOW n) = 8 then s.answer rf 0x0751
  else
    let c := s.get (BT_WIN_ADDR_I n) / 2 * 2
    let s := s.modBt n fun x => { x with
      win := kvSetD 0xFFFF (kvSetD 0xFFFF x.win c (BitVec.ofNat 16 v)) (c + 1) (BitVec.ofNat 16 (v / 65536)) }
    ((s.put rf 0).winAdvance n, 0)

/-- A read of BT_WIN_DATA_n. -/
def State.winDataRead (s : State) (n : Nat) : State × Word :=
  let c := s.get (BT_WIN_ADDR_I n) / 2 * 2
  let w (k : Nat) : Nat := (kvGetD (s.btx n).win k 0xFFFF).toNat
  (s.winAdvance n, BitVec.ofNat 32 (w c + 65536 * w (c + 1)))

def execBtWinDataAccess (p : Fin 5) (n : Fin 16) (v : Option Word) (s : State) : Host.Outcome State Fault Refusal :=
  .next (match v with
    | some v => s.gatedWrite p (BT_WIN_DATA n) fun s => s.winDataWrite n v.toNat
    | none => s.readOut p (BT_WIN_DATA n) fun s => s.winDataRead n)

/-- Advance the static-mask port (Table DC-8). -/
def State.maskAdvance (s : State) (n : Nat) : State := s.put (DC_MASK_ADDR_W n) ((s.get (DC_MASK_ADDR_W n) + 1) % 4096)

/-- A write of DC_MASK_DATA_n (R211, Table DC-8): refused as R189 gives for the shadow table, and reported there. -/
def State.maskDataWrite (s : State) (n v : Nat) : State × Nat :=
  let rf := BT_MK_CTL_REASON n
  if s.on (DC_MASK_ADDR_BANK n) then s.answer rf 0x0761
  else if s.shadowShut n != 0 then s.answer rf (s.shadowShut n)
  else
    let s := s.modBt n fun x => { x with maskSh := kvSetD 0 x.maskSh (s.get (DC_MASK_ADDR_W n)) (BitVec.ofNat 32 v) }
    ((s.put rf 0).maskAdvance n, 0)

/-- A read of DC_MASK_DATA_n. -/
def State.maskDataRead (s : State) (n : Nat) : State × Word :=
  let t := if s.on (DC_MASK_ADDR_BANK n) then (s.btx n).active.mask else (s.btx n).maskSh
  (s.maskAdvance n, kvGetD t (s.get (DC_MASK_ADDR_W n)) 0)

def execDcMaskDataAccess (p : Fin 5) (n : Fin 16) (v : Option Word) (s : State) : Host.Outcome State Fault Refusal :=
  .next (match v with
    | some v => s.gatedWrite p (DC_MASK_DATA n) fun s => s.maskDataWrite n v.toNat
    | none => s.readOut p (DC_MASK_DATA n) fun s => s.maskDataRead n)

end Sys2Proof.Machine
end

