-- ==== Sys2Proof/Machine/Detect.lean ====
section
/-! DEFINITION. Machine/Detect.lean: the detection stage of an SP region: integrators, kurtosis, excision, density planes
(chapter 07, R203 to R230). A source of region r is 0 to 3 for broad input 4 (r - 6) + source, 16 + s for zoom slot s. -/

namespace Sys2Proof.Machine

/-! ### Sources -/

/-- The source an integrator reads: KIND and INDEX. -/
def srcOf (kind index : Nat) : Nat := if kind = 1 then 16 + index else index

/-- Input of broad source i of region r. -/
def srcInput (r i : Nat) : Nat := 4 * (r - 6) + i

/-- The source is enabled (R228). -/
def State.srcOn (s : State) (r src : Nat) : Bool :=
  if src < 16 then s.on (BT_CTL_ENABLE (srcInput r src))
  else s.on (ZP_ZTU_CTL_ENABLE r) && s.on (ZP_ZTU_SLOT_ON r (src - 16))

/-- Channels of a source: C, or P of the slot. -/
def State.srcChans (s : State) (r src : Nat) : Nat :=
  if src < 16 then s.btC (srcInput r src) else s.slotPoints r (src - 16)

/-- Spectra per second of a source. -/
def State.srcRate (s : State) (r src : Nat) : Ratio :=
  if src < 16 then ratio (s.fsHz (srcInput r src)) (s.btH (srcInput r src))
  else
    let z := s.slotPath r (src - 16)
    ratio (s.fsHz (z / 4)) (s.zpDec z * s.slotHop r (src - 16))

/-- The source's stream: 2000h + n, or 1000h + z of the slot's path (Table DC-2). -/
def State.srcStream (s : State) (r src : Nat) : BitVec 16 :=
  if src < 16 then chanSid (srcInput r src) else zoomSid (s.slotPath r (src - 16))

/-- ZTU_TRANSFORM_DONE (R165): slot i of the unit completes its next transform. -/
def execZtuTransformDone (q : Fin 4) (i : Fin 16) (s : State) : Host.Outcome State Fault Refusal :=
  .next (let r := spWin q
    if s.on (ZP_ZTU_CTL_ENABLE r) && s.on (ZP_ZTU_SLOT_ON r i) && !(s.lost r) then s.inIsland r fun s => s.ztuDone r i else s)

/-! ### Integrators (R204 to R216) -/

/-- Settings of an integrator. -/
structure IntCfg where
  src : Nat
  first : Nat
  span : Nat
  k : Nat
  det : Nat
  sk : Bool
  static_ : Bool
  excise : Nat
  m : Nat

/-- Settings of integrator i of region r. -/
def State.intCfg (s : State) (r i : Nat) : IntCfg where
  src := srcOf (s.get (DC_INT_SRC_KIND r i)) (s.get (DC_INT_SRC_INDEX r i))
  first := s.get (DC_INT_SRC_FIRST r i)
  span := 2 ^ s.get (DC_INT_CFG_LOG_SPAN r i)
  k := 2 ^ s.get (DC_INT_CFG_MERGE_LOG r i)
  det := s.get (DC_INT_CFG_DETECTOR r i)
  sk := s.on (DC_INT_CFG_SK_EN r i)
  static_ := s.on (DC_INT_CFG_STATIC_EN r i)
  excise := s.get (DC_INT_CFG_EXCISE r i)
  m := s.get (DC_INT_M_M r i)

/-- Integrator i of region r beyond its registers. -/
def State.intg (s : State) (r i : Nat) : DcInt := kvGetD s.dc.ints (r * 16 + i) {}

/-- Change an integrator. -/
def State.modInt (s : State) (r i : Nat) (f : DcInt → DcInt) : State :=
  { s with dc := { s.dc with ints := kvMod {} s.dc.ints (r * 16 + i) f } }

/-- Cut a list into pieces of `k`, `n` of them. -/
def pieces {α : Type} (k : Nat) : Nat → List α → List (List α)
  | 0, _ => []
  | n + 1, l => l.take k :: pieces k n (l.drop k)

/-- The merged value of a group (R205): `kept` are the powers not excluded; none when every channel is. -/
def mergeGroup (det k : Nat) (kept : List Ratio) : Option Ratio :=
  match kept with
  | [] => none
  | a :: t =>
    match det with
    | 1 => some (t.foldl (fun x y => if ratioLt x y then y else x) a)
    | 2 => some (t.foldl (fun x y => if ratioLt y x then y else x) a)
    | _ => some (ratioMul (t.foldl ratioAdd a) (ratio k kept.length))

/-- Accumulate one value in a comb bin (R205, R206). -/
def binAdd (det : Nat) (fresh : Bool) (bin : BitVec 64) (q : Ratio) : BitVec 64 :=
  if fresh then f64Round q
  else match det with
    | 1 => if ratioLt (f64Num bin) q then f64Round q else bin
    | 2 => if ratioLt q (f64Num bin) then f64Round q else bin
    | _ => f64Round (ratioAdd (f64Num bin) q)

/-- Channels that SPEC values leave out while an integration runs (R210, R212): the static mask, in modes SPEC and
SPEC_CHAN. -/
def IntCfg.cut (c : IntCfg) (x : DcInt) (ch : Nat) : Bool := c.excise != 0 && c.static_ && x.mask.getD ch false

/-- An integrator takes one spectrum's powers. -/
def intTake (c : IntCfg) (x : DcInt) (p : List Word) : DcInt :=
  let ps := (p.drop c.first).take c.span |>.map f32Num
  let fresh := x.n = 0
  if c.sk then
    { x with
      n := x.n + 1
      acc := (upto c.span).map fun k => binAdd 0 fresh (x.acc.getD k 0) (ps.getD k ⟨0, 1⟩)
      acc2 := (upto c.span).map fun k => binAdd 0 fresh (x.acc2.getD k 0) (ratioMul (ps.getD k ⟨0, 1⟩) (ps.getD k ⟨0, 1⟩)) }
  else
    let groups := pieces c.k (c.span / c.k) (ps.zip (upto c.span))
    { x with
      n := x.n + 1
      acc := (upto (c.span / c.k)).map fun g =>
        let kept := ((groups.getD g []).filter fun y => !(c.cut x y.2)).map fun y => y.1
        binAdd c.det fresh (x.acc.getD g 0) ((mergeGroup c.det c.k kept).getD ⟨0, 1⟩) }

/-- Kurtosis flags the channel (R209): exact, with N, S1 and S2. -/
def kurtFlag (n : Nat) (s1 s2 : Ratio) (low high : Nat) : Bool :=
  if n < 64 || s1.num ≤ 0 then false
  else
    let q := ratioMul (ratioMul (ratioOf n) s2) (let y := ratioMul s1 s1; ratio y.den y.num.natAbs)
    let sk := ratioMul (ratio (n + 1) (n - 1)) (ratioSub q ⟨1, 1⟩)
    let d := ratioSub sk ⟨1, 1⟩
    -- |SK - 1| against SIG / (8 sqrt N): compare 64 N d^2 with SIG^2
    let d2 := ratioMul (ratioMul d d) (ratioOf (64 * n))
    if d.num < 0 then ratioLt (ratioOf (low * low)) d2 else ratioLt (ratioOf (high * high)) d2

/-- The flag set of a finished integration, by source channel of the span (R210). -/
def flagSet (c : IntCfg) (x : DcInt) (low high : Nat) : List Bool × List Bool :=
  let kurt := (upto c.span).map fun k => c.sk && kurtFlag x.n (f64Num (x.acc.getD k 0)) (f64Num (x.acc2.getD k 0)) low high
  (kurt, (upto c.span).map fun k => kurt.getD k false || (c.static_ && x.mask.getD k false))

/-- The output value of channel group g (R205, R206). -/
def specValue (c : IntCfg) (x : DcInt) (flags : List Bool) (g : Nat) : Word :=
  if c.sk then
    let chans := (upto c.k).map fun k => g * c.k + k
    let kept := (chans.filter fun k => !(c.excise != 0 && flags.getD k false)).map fun k => f64Num (x.acc.getD k 0)
    match mergeGroup 0 c.k kept with
    | some q => f32Round (ratioMul q (ratio 1 x.n))
    | none => f32NaN
  else
    let any := (upto c.k).any fun k => !(c.cut x (g * c.k + k))
    if !any then f32NaN
    else if c.det = 0 then f32Round (ratioMul (f64Num (x.acc.getD g 0)) (ratio 1 x.n))
    else f32Round (f64Num (x.acc.getD g 0))

/-- The SPEC stream of integrator i of region r. -/
def State.specSid (s : State) (r i : Nat) : BitVec 16 := sid 3 (s.get (DC_INT_ID_SPEC_ID r i))

/-- Slices of a SPEC integration (R208, R216); its markers stand before the first value (R27). -/
def State.specSlices (s : State) (r i : Nat) (c : IntCfg) (x : DcInt) (flags : List Bool) : State :=
  let per := min c.span 8192
  let mode := c.det + 4 * s.get (DC_INT_CFG_MERGE_LOG r i) + (if c.sk && decide (64 ≤ x.n) then 32 else 0) + 64 * c.excise
  s.each (upto (ceilDiv c.span per)) fun s k =>
    let fl := (flags.drop (k * per)).take per
    let cut := if c.excise = 0 then 0 else (fl.filter id_).length
    let vals := (upto (per / c.k)).map fun g => specValue c x flags (k * per / c.k + g)
    s.sendFrame (s.specSid r i) (if k = 0 then 1 else 0) {
      region := r, time := x.time, format := 0x0601
      flags := (if x.ovr then 2 else 0) + (if x.cal then 16 else 0) + (if c.excise = 0 then 0 else 32)
      excised := cut, markers := if k = 0 then x.markers else []
      payload := leBytes 4 (unsign 32 x.i) ++ leBytes 2 k ++ leBytes 1 mode ++ leBytes 1 (Nat.log2 c.span)
        ++ leBytes 4 (c.first + k * per) ++ leBytes 4 c.m ++ leBytes 4 x.n ++ leBytes 2 (s.srcStream r c.src).toNat
        ++ leBytes 2 0 ++ vals.flatMap (fun v => leBytes 4 v.toNat) ++ packBits fl }
where
  id_ (b : Bool) : Bool := b

/-- Read out the open integration (R207, R209, R213): whole, or partial. DC_INT_DONE counts those emitted, not those that
back-pressure discards (R226). -/
def State.intReadOut (s : State) (r i : Nat) : State :=
  let x := s.intg r i
  if !x.opened || x.n = 0 then s
  else
    let c := s.intCfg r i
    let fl := flagSet c x (s.get (DC_INT_SK_LOW_SIG r i)) (s.get (DC_INT_SK_HIGH_SIG r i))
    let live := s.delivers (s.specSid r i)
    let s := s.specSlices r i c x fl.2
    let s := (s.count (DC_INT_FLAGGED r i) (fl.1.filter fun b => b).length).count (DC_INT_DONE r i) (if live then 1 else 0)
    let s := s.put (DC_INT_STATUS_SK_VALID r i) (if 64 ≤ x.n then 1 else 0)
    let s := if x.n < c.m then (s.count (DC_INT_PARTIALS r i) 1).put (DC_INT_STATUS_PARTIAL r i) 1 else s
    s.modInt r i fun y => { y with
      opened := false, n := 0, acc := [], acc2 := [], markers := []
      zero := ((y.zero ++ [(⟨x.grid, (x.i + 1) * c.m + 1, (x.i + 2) * c.m, fl.1⟩ : KurtZero)]).drop (y.zero.length - 1)) }

/-- A source's spectrum reaches an integrator (R204, R207, R212). One enabled in the middle of a run begins at a multiple of M; a
spectrum that is not used (R203) opens nothing and adds nothing. -/
def State.intSpectrum (s : State) (r i : Nat) (d : DetSpec) : State :=
  let c := s.intCfg r i
  let x := s.intg r i
  let idx := d.j / (c.m : Int)
  let s := if x.opened && (idx != x.i || d.grid != x.grid) then s.intReadOut r i else s
  let s := s.modInt r i fun x => { x with
    markers := x.markers ++ d.markers, seek := x.seek && d.j % (c.m : Int) != 0 }
  let x := s.intg r i
  if d.bad || x.seek then s
  else
    let x : DcInt := if x.opened then x
      else { x with
        begun := true, opened := true, grid := d.grid, i := idx, n := 0, time := d.time, ovr := false, cal := false
        acc := [], acc2 := [], mask := (d.static.drop c.first).take c.span }
    let y := intTake c x d.p
    (s.modInt r i fun _ => { y with ovr := y.ovr || d.ovr, cal := y.cal || d.cal }).put (DC_INT_STATUS_RUNNING r i) 1

/-- The source's gap record or reset reaches an integrator (R214): it flushes, passes the gap on in integrations, and goes on with
the first spectrum after it (DEDUCED, assumption 51, where the grid goes on). An integrator that has not begun has none to
report (R204). -/
def State.intGap (s : State) (r i : Nat) (g : GapRec) : State :=
  let s := s.intReadOut r i
  let s := if (s.intg r i).begun || g.final then
      s.gap (s.specSid r i) g.time (g.length.toNat / max 1 (s.intCfg r i).m) g.cause.toNat g.final
    else s
  s.modInt r i fun x => { x with seek := x.seek && g.cause = 9 }

/-- DC_INT_FLUSH (R207): no further spectrum came; the open integration leaves as a partial one. -/
def execDcIntFlush (q : Fin 4) (i : Fin 16) (s : State) : Host.Outcome State Fault Refusal :=
  .next (s.intReadOut (spWin q) i)

/-! ### Density planes (R217 to R223) -/

/-- Plane i of region r beyond its registers. -/
def State.plane (s : State) (r i : Nat) : DcPlane := kvGetD s.dc.planes (r * 4 + i) {}

/-- Change a plane. -/
def State.modPlane (s : State) (r i : Nat) (f : DcPlane → DcPlane) : State :=
  { s with dc := { s.dc with planes := kvMod {} s.dc.planes (r * 4 + i) f } }

/-- Sources of a plane, in input order. -/
def State.planeSrcs (s : State) (r i : Nat) : List Nat :=
  let sel := s.get (DC_PL_SRC_SEL r i)
  if s.on (DC_PL_SRC_KIND r i) then [16 + sel] else (upto 4).filter fun k => bits sel k k = 1

/-- The DENS stream of a plane. -/
def densSid (r i : Nat) : BitVec 16 := sid 4 (4 * (r - 6) + i)

/-- The row of a column value (R218) and whether it was clamped: the rows whose lower edge the value reaches. `rows` is the
number still to be tried. -/
def rowOf (floor16 : Int) (step : Nat) (p : Ratio) : Nat × Bool :=
  if p.num ≤ 0 then (0, false)
  else if !(dbReaches p (16 * floor16) 256) then (0, true)
  else if dbReaches p (16 * floor16 + 512 * step) 256 then (511, true)
  else (search 9 0, false)
where
  search : Nat → Nat → Nat
  | 0, row => row
  | k + 1, row => if dbReaches p (16 * floor16 + (row + 2 ^ k) * step) 256 then search k (row + 2 ^ k) else search k row

/-- Largest of a list of ratios, 0 for none. -/
def ratioMax (l : List Ratio) : Ratio := l.foldl (fun a b => if ratioLt a b then b else a) ⟨0, 1⟩

/-- Column value x of a spectrum's powers over the span (R217). -/
def columnVal (ps : List Ratio) (span : Nat) (mean : Bool) (x : Nat) : Ratio :=
  if 2048 ≤ span then
    let q := span / 2048
    let l := (ps.drop (x * q)).take q
    if mean then ratioMul (l.foldl ratioAdd ⟨0, 1⟩) (ratio 1 q) else ratioMax l
  else ps.getD (x * span / 2048) ⟨0, 1⟩

/-- Decay of a count: c - ceiling of c / 2^K (R219). -/
def decayed (k c : Nat) : Nat := c - ceilDiv c (2 ^ k)

/-- The enabled MASK units that watch the plane take its update (R244). -/
def State.planeWatch (s : State) (r i : Nat) (d : PlaneUpd) : State :=
  let us := (upto 4).filter fun u => s.on (TG_U_CTL_ENABLE r (8 + u)) && s.get (TG_MK_SRC_KIND r u) = 2
    && s.get (TG_MK_SRC_INDEX r u) = i
  let c := (s.plane r i).counts
  s.each us fun s u => s.giveUnit (r - 6) (8 + u) [.plane c d.time d.lo d.hi d.ovr d.cal]

/-- One plane update (R219). -/
def State.planeUpdate (s : State) (r i : Nat) (d : PlaneUpd) : State :=
  let x := s.plane r i
  let span := 2 ^ s.get (DC_PL_CFG_LOG_SPAN r i)
  let mean := s.on (DC_PL_CFG_COL_DETECT r i)
  let fl := s.getS (DC_PL_ROWS_FLOOR r i)
  let step := s.get (DC_PL_ROWS_STEP r i)
  let k := s.get (DC_PL_DECAY_K r i)
  let due := k != 0 && x.u % (max 1 (s.get (DC_PL_DECAY_P r i))) = 0
  let base : KV Nat := if due then (x.counts.map fun c => (c.1, decayed k c.2)).filter fun c => c.2 != 0 else x.counts
  let rows := (upto 2048).map fun c => rowOf fl step (columnVal d.vals span mean c)
  let r2 := (rows.zip (upto 2048)).foldl (fun (a : KV Nat × Nat) y =>
    let key := y.2 * 512 + y.1.1
    let v := kvGetD a.1 key 0
    if 65535 ≤ v then (a.1, a.2 + 1) else (kvPut a.1 key (v + 1), a.2)) (base, 0)
  let clip := rows.any fun y => y.2
  let s := s.modPlane r i fun y => { y with
    counts := r2.1, u := y.u + 1, lastTime := d.time, added := y.added + d.n, markers := y.markers ++ d.markers }
  let s := s.setPair (DC_PL_UPD_LO r i) (DC_PL_UPD_HI r i) (s.pair (DC_PL_UPD_LO r i) (DC_PL_UPD_HI r i) + 1)
  let s := if 0 < r2.2 then (s.count (DC_PL_SAT_COUNT r i) r2.2).put (DC_PL_STATUS_SATURATED r i) 1 else s
  (if clip then s.count (DC_PL_CLIP_COUNT r i) 1 else s).planeWatch r i d

/-- The source runs: spectra of it can still come. -/
def State.srcRuns (s : State) (r src : Nat) : Bool :=
  s.srcOn r src && (if src < 16 then s.on (BT_STATUS_RUNNING (srcInput r src)) else s.on (ZP_STATUS_RUNNING (s.slotPath r (src - 16))))

/-- The held update that comes first: of the earliest TIME, and of equal TIMEs the one of the first source (R220). -/
def earliestUpd : KV (List PlaneUpd) → Option (Nat × PlaneUpd)
  | [] => none
  | (k, l) :: t =>
    match l, earliestUpd t with
    | [], o => o
    | d :: _, none => some (k, d)
    | d :: _, some o => if tLt o.2.time d.time then some o else some (k, d)

/-- Held updates are made in TIME order, at most `n` of them, while no source that runs and is not in a gap could still bring an
earlier one (R220); with `all` every one. -/
def State.planeRelease (s : State) (r i : Nat) (all : Bool) : Nat → State
  | 0 => s
  | n + 1 =>
    let x := s.plane r i
    let waits := (s.planeSrcs r i).any fun src =>
      (kvGetD x.held src []).isEmpty && s.srcRuns r src && !(x.idle.contains src)
    match earliestUpd x.held with
    | none => s
    | some d =>
      if waits && !all then s
      else ((s.modPlane r i fun y => { y with held := kvPut y.held d.1 ((kvGetD y.held d.1 []).drop 1) }).planeUpdate r i d.2).planeRelease
        r i all n

/-- An update of source `src` takes its place in TIME order. -/
def State.planeHold (s : State) (r i src : Nat) (d : PlaneUpd) : State :=
  let s := s.modPlane r i fun x => { x with held := kvPut x.held src (kvGetD x.held src [] ++ [d]) }
  s.planeRelease r i false ((s.plane r i).held.foldl (fun a p => a + p.2.length) 0)

/-- A pre-combined group becomes a plane update (R220). -/
def State.planeClose (s : State) (r i src : Nat) : State :=
  match kvGet (s.plane r i).pre src with
  | none => s
  | some g =>
    let d := g.2.2
    let d : PlaneUpd := if s.get (DC_PL_CFG_PRECOMB r i) = 2 then { d with vals := d.vals.map fun v => ratioMul v (ratio 1 d.n) } else d
    (s.modPlane r i fun x => { x with pre := kvDel x.pre src }).planeHold r i src d

/-- A source's spectrum reaches a plane (R217, R220). -/
def State.planeSpectrum (s : State) (r i src : Nat) (d : DetSpec) : State :=
  if d.bad then s.modPlane r i fun x => { x with markers := x.markers ++ d.markers }
  else
    let span := 2 ^ s.get (DC_PL_CFG_LOG_SPAN r i)
    let ps := ((d.p.drop (s.get (DC_PL_SRC_FIRST r i))).take span).map f32Num
    let rl := s.get (DC_PL_CFG_PRE_LOG r i)
    let new : PlaneUpd := ⟨1, ps, d.time, d.lo, d.hi, d.ovr, d.cal, d.markers⟩
    let s := s.modPlane r i fun x => { x with idle := x.idle.filter fun k => k != src }
    if rl = 0 then s.planeHold r i src new
    else
      let k : Int := ((2 ^ rl : Nat) : Int)
      let idx := d.j / k
      let s := match kvGet (s.plane r i).pre src with
        | some g => if g.1 != d.grid || g.2.1 != idx then s.planeClose r i src else s
        | none => s
      let mean := s.get (DC_PL_CFG_PRECOMB r i) = 2
      let g : PlaneUpd := match kvGet (s.plane r i).pre src with
        | some g =>
          let o := g.2.2
          { o with
            n := o.n + 1, time := d.time, hi := d.hi, ovr := o.ovr || d.ovr, cal := o.cal || d.cal, markers := o.markers ++ d.markers
            vals := (o.vals.zip ps).map fun y => if mean then ratioAdd y.1 y.2 else if ratioLt y.1 y.2 then y.2 else y.1 }
        | none => new
      let s := s.modPlane r i fun x => { x with pre := kvPut x.pre src (d.grid, idx, g) }
      if d.j % k = k - 1 then s.planeClose r i src else s

/-- A source's gap record or reset reaches a plane (R220, R223): its group is used as it stands, and the gap passed on in source
spectra. -/
def State.planeGap (s : State) (r i src : Nat) (g : GapRec) : State :=
  let s := (s.planeClose r i src).modPlane r i fun x => { x with idle := src :: x.idle.filter fun k => k != src }
  let s := s.planeRelease r i false ((s.plane r i).held.foldl (fun a p => a + p.2.length) 0)
  let us := (upto 4).filter fun u => s.on (TG_U_CTL_ENABLE r (8 + u)) && s.get (TG_MK_SRC_KIND r u) = 2
    && s.get (TG_MK_SRC_INDEX r u) = i
  let s := s.each us fun s u => s.giveUnit (r - 6) (8 + u) [.gap g.time g.cause]
  s.gap (densSid r i) g.time g.length.toNat g.cause.toNat (g.final && (s.planeSrcs r i).length = 1)

/-! ### The detection stage -/

/-- Enabled integrators of region r that read `src`. -/
def State.intsOf (s : State) (r src : Nat) : List Nat :=
  (upto 16).filter fun i => s.on (DC_INT_CTL_ENABLE r i) && (s.intCfg r i).src = src

/-- Enabled planes of region r that read `src`. -/
def State.planesOf (s : State) (r src : Nat) : List Nat :=
  (upto 4).filter fun i => s.on (DC_PL_CTL_ENABLE r i) && (s.planeSrcs r i).contains src

/-- The trigger units and bands of the region that watch `src` take what the source brings (R242, R245, R246). -/
def State.detWatch (s : State) (r src : Nat) (t : DetTok) : State :=
  let q := r - 6
  let tok : TgTok := match t with
    | .spec d => .spec d
    | .gap g => .gap g.time g.cause
  let us := (upto 4).filter fun u => s.on (TG_U_CTL_ENABLE r (8 + u)) && s.get (TG_MK_SRC_KIND r u) != 2
    && srcOf (s.get (TG_MK_SRC_KIND r u)) (s.get (TG_MK_SRC_INDEX r u)) = src
  let s := s.each us fun s u => s.giveUnit q (8 + u) [tok]
  let bs := (upto 64).filter fun b => s.on (TG_U_CTL_ENABLE r 12) && s.on (TG_BP_SRC_ON r b)
    && srcOf (s.get (TG_BP_SRC_KIND r b)) (s.get (TG_BP_SRC_INDEX r b)) = src
  let dr := s.on (TG_U_CTL_ENABLE r 13)
    && (if s.on (TG_DR_SRC_KIND r) then src = 16 + s.get (TG_DR_SRC_SEL r)
        else src < 4 && bits (s.get (TG_DR_SRC_SEL r)) src src = 1)
  { s with tg := { s.tg with
    bands := bs.foldl (fun m b => kvMod {} m (64 * q + b) fun x => { x with inq := x.inq ++ [tok] }) s.tg.bands
    drift := if dr then kvMod {} s.tg.drift q fun x => { x with inq := x.inq ++ [(src, t)] } else s.tg.drift } }

/-- The stage takes one spectrum or gap record of a source (R203, R204, R214). -/
def State.detToken (s : State) (r src : Nat) (t : DetTok) : State :=
  let s := match t with
    | .spec d =>
      let s := s.each (s.intsOf r src) fun s i => s.intSpectrum r i d
      s.each (s.planesOf r src) fun s i => s.planeSpectrum r i src d
    | .gap g =>
      let s := s.each (s.intsOf r src) fun s i => s.intGap r i g
      s.each (s.planesOf r src) fun s i => s.planeGap r i src g
  s.detWatch r src t

/-- The stage takes what waits of a source up to its next spectrum, or, with `gap`, its next gap record. -/
def State.detPull (r src : Nat) (gap : Bool) : List DetTok → State → State
  | [], s => { s with dc := { s.dc with queue := kvDel s.dc.queue (detKey r src) } }
  | t :: rest, s =>
    let s := s.detToken r src t
    let done := match t with
      | .spec _ => !gap
      | .gap _ => gap
    if done then { s with dc := { s.dc with queue := kvSetD [] s.dc.queue (detKey r src) rest } } else State.detPull r src gap rest s

/-- The detection stage of region r works on: its island is clocked (R47) and the region not lost. -/
def State.detRun (s : State) (r src : Nat) (gap : Bool) : State :=
  if s.lost r then s else s.inIsland r fun s => State.detPull r src gap (kvGetD s.dc.queue (detKey r src) []) s

/-- DETECTION_SPECTRUM (R203): the source's next spectrum reaches the stage. -/
def execDetectionSpectrum (q : Fin 4) (src : Fin 32) (s : State) : Host.Outcome State Fault Refusal :=
  .next (s.detRun (spWin q) src false)

/-- DC_SOURCE_GAP (R214, R223): its next gap record or reset does. -/
def execDcSourceGap (q : Fin 4) (src : Fin 32) (s : State) : Host.Outcome State Fault Refusal :=
  .next (s.detRun (spWin q) src true)

/-- Everything that waits of a source reaches the stage. -/
def State.detDrain (s : State) (r src : Nat) : State :=
  (kvGetD s.dc.queue (detKey r src) []).foldl (fun s t => s.detToken r src t)
    { s with dc := { s.dc with queue := kvDel s.dc.queue (detKey r src) } }

/-- An integrator stops: open integration flushed. -/
def State.intStop (s : State) (r i : Nat) : State :=
  let id := s.specSid r i
  let s := ((s.intReadOut r i).put (DC_INT_STATUS_RUNNING r i) 0).modInt r i fun _ => {}
  (s.freePort r id).closeStream id

/-- A plane stops. -/
def State.planeStop (s : State) (r i : Nat) : State :=
  let s := s.each (s.planeSrcs r i) fun s src => s.planeClose r i src
  let s := s.planeRelease r i true ((s.plane r i).held.foldl (fun a p => a + p.2.length) 0)
  ((s.put (DC_PL_STATUS_RUNNING r i) 0).freePort r (densSid r i)).closeStream (densSid r i)

/-- Integrators and planes of a disabled source take what it still brought, flush, disable themselves, REASON 0362h (R230). -/
def State.dcSourceOff (s : State) (r src : Nat) : State :=
  if s.srcOn r src || ((s.intsOf r src).isEmpty && (s.planesOf r src).isEmpty) then s
  else
    let s := s.detDrain r src
    let s := s.each (s.intsOf r src) fun s i =>
      ((s.intStop r i).put (DC_INT_CTL_ENABLE r i) 0).put (DC_INT_CTL_REASON r i) 0x0362
    s.each (s.planesOf r src) fun s i =>
      ((s.planeStop r i).put (DC_PL_CTL_ENABLE r i) 0).put (DC_PL_CTL_REASON r i) 0x0362

/-- DC_SOURCE_DISABLED (R230). -/
def execDcSourceDisabled (q : Fin 4) (src : Fin 32) (s : State) : Host.Outcome State Fault Refusal :=
  .next (s.dcSourceOff (spWin q) src)

/-! ### Budgets and enables (R224, R225, R228, R229) -/

/-- Granules of an integrator (R224). -/
def IntCfg.granules (c : IntCfg) : Nat := ceilDiv (8 * (if c.sk then 2 * c.span else c.span / c.k)) 65536

/-- Granules in use in region r, with integrator `withI` and plane `withQ` (16 and 4: none). -/
def State.combUsed (s : State) (r withI withQ : Nat) : Nat :=
  ((upto 16).filter fun i => i = withI || s.on (DC_INT_CTL_ENABLE r i)).foldl (fun a i => a + (s.intCfg r i).granules) 0
    + 32 * ((upto 4).filter fun i => i = withQ || s.on (DC_PL_CTL_ENABLE r i)).length

/-- Accumulation rate of integrator i (R225). -/
def State.accRate (s : State) (r i : Nat) : Ratio :=
  let c := s.intCfg r i
  ratioMul (s.srcRate r c.src) (ratioOf ((if c.sk then 2 else 1) * c.span))

/-- Accumulation rate of region r with integrator i. -/
def State.accSum (s : State) (r i : Nat) : Ratio :=
  ((upto 16).filter fun k => k = i || s.on (DC_INT_CTL_ENABLE r k)).foldl (fun a k => ratioAdd a (s.accRate r k)) ⟨0, 1⟩

/-- SPEC bytes per second: frame header, descriptor, values and flag map of each slice (R216). -/
def State.specRate (s : State) (r i : Nat) : Ratio :=
  let c := s.intCfg r i
  let per := min c.span 8192
  let n := ceilDiv c.span per
  ratioMul (s.srcRate r c.src) (ratio (n * (56 + 4 * (per / c.k) + per / 8)) (max 1 c.m))

/-- Another enabled integrator of the device uses the SPEC instance (R228). -/
def State.specIdUsed (s : State) (r i : Nat) : Bool :=
  [6, 7, 8, 9].any fun k => (upto 16).any fun j => !(k = r && j = i) && s.on (DC_INT_CTL_ENABLE k j)
    && s.get (DC_INT_ID_SPEC_ID k j) = s.get (DC_INT_ID_SPEC_ID r i)

/-- The integrator's check (R228). -/
def State.intCheck (s : State) (r i : Nat) : Nat :=
  let c := s.intCfg r i
  let ls := s.get (DC_INT_CFG_LOG_SPAN r i)
  firstFail [
    (decide (ls < 7) || decide (20 < ls) || decide (s.srcChans r c.src < c.first + c.span) || c.first % c.k != 0, 0x0160),
    (decide (s.get (DC_INT_SK_LOW_SIG r i) < 16) || decide (s.get (DC_INT_SK_HIGH_SIG r i) < 16), 0x0163),
    (c.sk && decide (c.m < 64), 0x0360),
    (c.sk && c.det != 0, 0x0361),
    (!(s.srcOn r c.src), 0x0362),
    (c.excise = 2 && decide (16 ≤ c.src), 0x0363),
    (c.excise = 2 && (upto 16).any (fun k => k != i && s.on (DC_INT_CTL_ENABLE r k) && (s.intCfg r k).src = c.src
      && (s.intCfg r k).excise = 2), 0x0560),
    (s.specIdUsed r i, 0x0561),
    (decide (128 < s.combUsed r i 4), 0x0204),
    (ratioLt (ratioOf 102400000000) (s.accSum r i), 0x0222),
    (s.portsFull r (s.specRate r i), 0x020D)]

/-- An integrator starts. -/
def State.intStart (s : State) (r i : Nat) : State :=
  let id := s.specSid r i
  ((s.modInt r i fun _ => {}).tiePort r id (s.specRate r i)).openStream id

/-- A write of DC_INT_CTL_I. -/
def State.dcIntCtlWrite (s : State) (r i v : Nat) : State × Nat :=
  s.enableWrite (DC_INT_CTL r i) v (DC_INT_CTL_ENABLE r i) (DC_INT_CTL_REASON r i) (fun _ => 0) (·.intCheck r i)
    (·.intStart r i) (·.intStop r i)

def execDcIntEnable (p : Fin 5) (q : Fin 4) (i : Fin 16) (v : Word) (s : State) : Host.Outcome State Fault Refusal :=
  .next (s.gatedWrite p (DC_INT_CTL (spWin q) i) fun s => s.dcIntCtlWrite (spWin q) i v.toNat)

/-- Reserved or out-of-range values of an integrator's registers (Table DC-5). -/
def dcIntBad (name : RegName) (v : Nat) : Nat :=
  match name with
  | .DC_INT_SRC => if bits v 31 31 = 0 && 3 < bits v 27 24 then 0x0160 else 0
  | .DC_INT_CFG => if bits v 19 18 = 3 || bits v 13 12 = 3 || bits v 10 8 = 7 then 0x0161 else 0
  | .DC_INT_M => if bits v 24 0 < 1 || 16777216 < bits v 24 0 then 0x0162 else 0
  | _ => 0

/-- A write of another register of an integrator (R227). -/
def State.dcIntSetWrite (s : State) (name : RegName) (r i a v : Nat) : State × Nat :=
  let rf := DC_INT_CTL_REASON r i
  if s.on (DC_INT_CTL_ENABLE r i) && s.changes a v != 0 then s.answer rf 0x0760
  else if dcIntBad name v != 0 then s.answer rf (dcIntBad name v)
  else ((s.plainWrite a v).put rf 0, 0)

/-- Column updates per second of a plane: U (R220). -/
def State.planeU (s : State) (r i : Nat) : Ratio :=
  ratioMul ((s.planeSrcs r i).foldl (fun a k => ratioAdd a (s.srcRate r k)) ⟨0, 1⟩) (ratioOf 2048)

/-- PRE_LOG: the smallest value of at least PRE_MIN_LOG for which U / R keeps the limit (R220); 11 when none of 10 does. -/
def State.preLog (s : State) (r i : Nat) : Nat :=
  (((upto 11).filter fun k => decide (s.get (DC_PL_CFG_PRE_MIN_LOG r i) ≤ k)).find? fun k =>
    !(ratioLt (ratioOf (25600000000 * 2 ^ k)) (s.planeU r i))).getD 11

/-- DENS bytes per second of a plane (R222). -/
def State.densRate (s : State) (r i : Nat) : Ratio :=
  let p := s.get (DC_PL_DUMP_PERIOD_US r i)
  if p = 0 then ratioOf 0 else ratio (64 * (32 + 32784) * 1000000) p

/-- The plane's check (R229, R220). -/
def State.planeCheck (s : State) (r i : Nat) : Nat :=
  let srcs := s.planeSrcs r i
  let ls := s.get (DC_PL_CFG_LOG_SPAN r i)
  let pl := s.preLog r i
  firstFail [
    (srcs.isEmpty || decide (ls < 7) || decide (20 < ls)
      || srcs.any (fun k => decide (s.srcChans r k < s.get (DC_PL_SRC_FIRST r i) + 2 ^ ls)), 0x0160),
    (srcs.any (fun k => !(s.srcOn r k)), 0x0362),
    (decide (10 < pl) || (s.get (DC_PL_CFG_PRECOMB r i) = 0 && pl != 0), 0x0208),
    (decide (128 < s.combUsed r 16 i), 0x0204),
    (s.portsFull r (s.densRate r i), 0x020D)]

/-- A plane starts. -/
def State.planeStart (s : State) (r i : Nat) : State :=
  let pl := s.preLog r i
  let s := ((s.modPlane r i fun _ => {}).put (DC_PL_CFG_PRE_LOG r i) pl).put (DC_PL_STATUS_PRECOMBINING r i) (if pl = 0 then 0 else 1)
  let s := (s.setPair (DC_PL_UPD_LO r i) (DC_PL_UPD_HI r i) 0).put (DC_PL_STATUS_RUNNING r i) 1
  (s.tiePort r (densSid r i) (s.densRate r i)).openStream (densSid r i)

/-- CLEAR of a plane (R221). -/
def State.planeClear (s : State) (r i : Nat) : State :=
  s.modPlane r i fun x => { x with counts := [], u := 0, cleared := true }

/-- A write of DC_PL_CTL_Q (R221, R229). -/
def State.dcPlCtlWrite (s : State) (r i v : Nat) : State × Nat :=
  let s := if bits v 2 2 = 1 then s.planeClear r i else s
  s.enableWrite (DC_PL_CTL r i) (bits v 0 0) (DC_PL_CTL_ENABLE r i) (DC_PL_CTL_REASON r i) (fun _ => 0) (·.planeCheck r i)
    (·.planeStart r i) (·.planeStop r i)

/-- DC_PL_CLEAR: the write of DC_PL_CTL_Q that sets CLEAR and leaves ENABLE. -/
def execDcPlClear (p : Fin 5) (q : Fin 4) (i : Fin 4) (s : State) : Host.Outcome State Fault Refusal :=
  .next (s.gatedWrite p (DC_PL_CTL (spWin q) i) fun s =>
    s.dcPlCtlWrite (spWin q) i (4 + s.get (DC_PL_CTL_ENABLE (spWin q) i)))

/-- Reserved or out-of-range values of a plane's registers (Table DC-7). -/
def dcPlBad (name : RegName) (v : Nat) : Nat :=
  match name with
  | .DC_PL_CFG => if 10 < bits v 19 16 || bits v 13 12 = 3 then 0x0161 else 0
  | .DC_PL_ROWS =>
    let f := signed 16 (bits v 31 16)
    if f < -2048 || 2047 < f || bits v 9 0 < 16 || 512 < bits v 9 0 then 0x0164 else 0
  | .DC_PL_DECAY => if bits v 31 16 = 0 then 0x0165 else 0
  | .DC_PL_DUMP => if v != 0 && (v < 100 || 10000000 < v) then 0x0165 else 0
  | _ => 0

/-- A write of another register of a plane (R227). -/
def State.dcPlSetWrite (s : State) (name : RegName) (r i a v : Nat) : State × Nat :=
  let rf := DC_PL_CTL_REASON r i
  if s.on (DC_PL_CTL_ENABLE r i) && s.changes a v != 0 then s.answer rf 0x0760
  else if dcPlBad name v != 0 then s.answer rf (dcPlBad name v)
  else ((s.plainWrite a v).put rf 0, 0)

/-- The start of a snapshot is due (R222): a whole multiple of PERIOD_US of device time has passed since the last one. -/
def State.snapDue (s : State) (r i : Nat) : Bool :=
  s.on (DC_PL_CTL_ENABLE r i) && s.get (DC_PL_DUMP_PERIOD_US r i) != 0

/-- DENS_SNAPSHOT (R222, R223): 64 frames of 32 columns; under back-pressure discarded whole, and the gap record before the next
one delivered counts the source spectra added since the last. -/
def State.densSnapshot (s : State) (r i : Nat) : State :=
  if !(s.snapDue r i) then s
  else
    let x := s.plane r i
    let id := densSid r i
    let pl := s.get (DC_PL_CFG_PRE_LOG r i)
    let s := s.modPlane r i fun y => { y with snap := y.snap + 1 }
    if !(s.delivers id) then s.modPlane r i fun y => { y with
      missed := if (s.stream id).full then some (y.missed.getD (x.lastTime, (s.stream id).lostCause)) else y.missed }
    else
      let s := match x.missed with
        | some m => s.gap id m.1 x.added m.2
        | none => s
      let s := s.each (upto 64) fun s f =>
        let cs := (upto 16384).map fun k => kvGetD x.counts (f * 16384 + k) 0
        let fl := (if x.cleared then 1 else 0) + (if pl = 0 then 0 else 2) + (if cs.any (fun c => decide (65535 ≤ c)) then 4 else 0)
        s.sendFrame id 0 {
          region := r, time := x.lastTime, format := 0x0801, markers := if f = 0 then x.markers else []
          payload := leBytes 4 x.snap ++ leBytes 2 (32 * f) ++ leBytes 1 fl ++ leBytes 1 pl ++ leBytes 4 x.u ++ leBytes 4 x.u
            ++ cs.flatMap fun c => leBytes 2 c }
      s.modPlane r i fun y => { y with cleared := false, added := 0, missed := none, markers := [] }

def execDensSnapshot (q : Fin 4) (i : Fin 4) (s : State) : Host.Outcome State Fault Refusal :=
  .next (s.densSnapshot (spWin q) i)

end Sys2Proof.Machine
end

