-- ==== Sys2Proof/Machine/Trigger.lean ====
section
/-! DEFINITION. Machine/Trigger.lean: trigger units, their records and queues (chapter 08, R232 to R268), but for the
drift unit. Region index r is 0 to 3 for SP0 to SP3 and 4 for ST. -/

namespace Sys2Proof.Machine

/-- Window of region index r. -/
def tgWin (r : Nat) : Nat := if r = 4 then 1 else 6 + r

/-- Units of a region (Table TG-1). -/
def tgUnits (r : Nat) : Nat := if r = 4 then 10 else 16

/-- Unit u of region r beyond its registers. -/
def State.tgu (s : State) (r u : Nat) : TgUnit := kvGetD s.tg.units (16 * r + u) {}

/-- Change a unit. -/
def State.modTgu (s : State) (r u : Nat) (f : TgUnit → TgUnit) : State :=
  { s with tg := { s.tg with units := kvMod {} s.tg.units (16 * r + u) f } }

/-- The unit is enabled. -/
def State.tgOn (s : State) (r u : Nat) : Bool := s.on (TG_U_CTL_ENABLE (tgWin r) u)

/-- The region's TRIG stream. -/
def trigSid (r : Nat) : BitVec 16 := sid 8 r

/-! ### The queue (R237, R262, R263) -/

/-- Records waiting in region r's queue, oldest first. -/
def State.tgQueue (s : State) (r : Nat) : List TrigRec := kvGetD s.tg.queue r []

/-- The queue holds `l`; TG_QLEVEL follows. -/
def State.setTgQueue (s : State) (r : Nat) (l : List TrigRec) : State :=
  ({ s with tg := { s.tg with queue := kvSetD [] s.tg.queue r l } } : State).put (TG_QLEVEL_LEVEL (tgWin r)) l.length

/-- NUMBER of the next record. -/
def State.tgNumber (s : State) (r : Nat) : Nat := kvGetD s.tg.number r 0

/-- Append a record with the region's next NUMBER; the first into an empty queue begins a frame (R237). -/
def State.tgAppend (s : State) (r : Nat) (t : TrigRec) : State :=
  let n := s.tgNumber r
  let s : State := if (s.tgQueue r).isEmpty then { s with tg := { s.tg with frameAt := kvPut s.tg.frameAt r s.now } } else s
  let s := s.setTgQueue r (s.tgQueue r ++ [{ t with number := BitVec.ofNat 32 n }])
  { s with tg := { s.tg with number := kvPut s.tg.number r (n + 1) } }

/-- Records discarded and not yet reported. -/
def State.tgLost (s : State) (r : Nat) : Nat × DevTime := kvGetD s.tg.lost r (0, 0)

/-- The region's TRIG stream takes frames: routed, open, not stopped, its output buffer not full. -/
def State.trigLive (s : State) (r : Nat) : Bool := s.on (TG_QCTL_ROUTE (tgWin r)) && s.delivers (trigSid r)

/-- Space returned: the GAP record with the count, or with ROUTE = 1 a Yarenn GAP record (R263). UNIT and SOURCE of a GAP
record are left open: free values. -/
def State.tgSpace (s : State) (r : Nat) : State :=
  let l := s.tgLost r
  let routed := s.on (TG_QCTL_ROUTE (tgWin r))
  if l.1 = 0 || 16384 ≤ (s.tgQueue r).length || (routed && !(s.trigLive r)) then s
  else
    let s : State := { s with tg := { s.tg with lost := kvDel s.tg.lost r } }
    if routed then s.gap (trigSid r) l.2 l.1 1
    else
      let fv := s.freeNow
      s.useFree.tgAppend r {
        time := l.2, kind := 9, unit := fv % 16, flags := if s.coastAt l.2 then 0x81 else 0x80
        source := BitVec.ofNat 16 (fv / 16), region := r, detail := 1, value := 0, number := 0
        extent := BitVec.ofNat 32 (min l.1 0xFFFFFFFF) }

def execTgQueueSpaceReturn (r : Fin 5) (s : State) : Host.Outcome State Fault Refusal := .next (s.tgSpace r)

/-- A unit writes a record to the queue, or it is discarded and counted when the queue, or what the GAP record before it leaves
of it, is full (R263). -/
def State.tgWrite (s : State) (r : Nat) (t : TrigRec) : State :=
  let s := s.tgSpace r
  if 16384 ≤ (s.tgQueue r).length then
    let l := s.tgLost r
    ({ s with tg := { s.tg with lost := kvPut s.tg.lost r (l.1 + 1, if l.1 = 0 then s.now else l.2) } } : State).count
      (TG_QDROPPED (tgWin r)) 1
  else s.tgAppend r t

/-- Remove the queue's first `n` records. -/
def State.tgPop (s : State) (r n : Nat) : State :=
  let s := s.setTgQueue r ((s.tgQueue r).drop n)
  { s with tg := { s.tg with popped := kvPut s.tg.popped r (kvGetD s.tg.popped r 0 + n) } }

/-- A path's slot for region r. -/
def State.tgLatch (s : State) (p r : Nat) : TgLatch := kvGetD s.tg.latch (16 * p + r) ⟨none⟩

/-- A read of TG_QW0 (R86, R87, R262): the head is latched, or the all-zero record. -/
def State.tgQw0Read (s : State) (p r : Nat) : State × Word :=
  let head := if s.on (TG_QCTL_ROUTE (tgWin r)) then none else (s.tgQueue r).head?
  let e := head.map fun t => (t, kvGetD s.tg.popped r 0)
  let s : State := { s with tg := { s.tg with latch := kvPut s.tg.latch (16 * p + r) ⟨e⟩ } }
  (s, match head with | some t => BitVec.ofNat 32 (fromLe ((trigBytes t).take 4)) | none => 0)

/-- Word k of a path's slot. -/
def State.tgSlotWord (s : State) (p r k : Nat) : Word :=
  match (s.tgLatch p r).rec_ with
  | some e => BitVec.ofNat 32 (fromLe (((trigBytes e.1).drop (4 * k)).take 4))
  | none => 0

/-- A read of TG_QW7 (R86, R262): the slot's word 7; the head leaves when it is still the record latched. -/
def State.tgQw7Read (s : State) (p r : Nat) : State × Word :=
  let v := s.tgSlotWord p r 7
  match (s.tgLatch p r).rec_ with
  | some e =>
    if !(s.on (TG_QCTL_ROUTE (tgWin r))) && !(s.tgQueue r).isEmpty && e.2 = kvGetD s.tg.popped r 0 then (s.tgPop r 1, v)
    else (s, v)
  | none => (s, v)

def execTgQw0Read (p : Fin 5) (r : Fin 5) (s : State) : Host.Outcome State Fault Refusal :=
  .next (s.readOut p (TG_QW (tgWin r) 0) fun s => s.tgQw0Read p r)

def execTgQw7Read (p : Fin 5) (r : Fin 5) (s : State) : Host.Outcome State Fault Refusal :=
  .next (s.readOut p (TG_QW (tgWin r) 7) fun s => s.tgQw7Read p r)

/-- A write of TG_QCTL. -/
def State.tgQctlWrite (s : State) (r v : Nat) : State × Nat :=
  let s := s.plainWrite (TG_QCTL (tgWin r)) v
  (if s.on (TG_QCTL_ROUTE (tgWin r)) then s.openStream (trigSid r) else s.closeStream (trigSid r), 0)

/-- Markers whose time is reached by a frame's records, each before the first record at or after its time (R261). -/
def placeMarkers (l : List Marker) (q : List TrigRec) : List Marker × List Marker :=
  l.foldl (fun a m =>
    match q.findIdx? fun t => tLe m.time t.time with
    | some i => (a.1 ++ [{ m with offset := BitVec.ofNat 32 i }], a.2)
    | none => (a.1, a.2 ++ [m])) ([], [])

/-- The frame being filled closes (R237): 512 records, or 10 us after its first one. -/
def State.tgFrameDue (s : State) (r : Nat) : Bool :=
  decide (512 ≤ (s.tgQueue r).length) || (match kvGet s.tg.frameAt r with
    | some t => tLe (tAdd t (usTicks 10)) s.now
    | none => false)

/-- TG_FRAME_CLOSE (R237, R262): up to 512 records leave in a frame. While the stream takes no frame they stay in the queue. -/
def State.tgFrame (s : State) (r : Nat) : State :=
  let q := (s.tgQueue r).take 512
  match q with
  | [] => s
  | t :: _ =>
    if !(s.trigLive r) || !(s.tgFrameDue r) then s
    else
      let ms := placeMarkers (kvGetD s.tg.markers r []) q
      let s : State := { s with tg := { s.tg with
        markers := kvSetD [] s.tg.markers r ms.2, frameAt := kvPut s.tg.frameAt r s.now } }
      let s := (s.tgPop r q.length).sendFrame (trigSid r) q.length {
        region := tgWin r, time := t.time, format := 0x0900, markers := ms.1, payload := q.flatMap trigBytes }
      s.tgSpace r

def execTgFrameClose (r : Fin 5) (s : State) : Host.Outcome State Fault Refusal := .next (s.tgFrame r)

/-! ### Firing (R233 to R236) -/

/-- What a unit's condition gives its record. -/
structure TgFire where
  time : DevTime
  kind : Nat
  ovr : Bool := false
  cal : Bool := false
  /-- COASTING or SLEWING was set at the time or at any of the data. -/
  coast : Bool := false
  source : BitVec 16
  detail : Nat := 0
  value : Word := 0
  extent : Nat := 0

/-- FLAGS of a record (Table TG-2). -/
def tgFlags (f : TgFire) (sent : Bool) : Byte :=
  BitVec.ofNat 8 (128 + (if f.coast then 1 else 0) + (if f.ovr then 2 else 0) + (if f.cal then 4 else 0) + (if sent then 8 else 0))

/-- COASTING or SLEWING was set at some time from `a` to `b`. -/
def State.coastIn (s : State) (a b : DevTime) : Bool :=
  s.coastAt a || s.time.coastLog.any fun p => p.2 && tLt a p.1 && tLe p.1 b

/-- The end of a holdoff that begins at `t` (R233). -/
def State.holdUntil (s : State) (r u : Nat) (t : DevTime) : DevTime :=
  tAdd t (nsTicks (max (s.val (TG_U_HOLDOFF (tgWin r) u)) 100))

/-- Lower bound of the TIMEs of a unit's records to come, where earlier ones may still come (R236): the BAND unit's bands average
over groups that begin at different times, and the drift unit reports what it could not test, and a cluster, at their end. -/
def State.tgBound (s : State) (r u : Nat) : Option DevTime :=
  let least (l : List DevTime) : Option DevTime := l.foldl (fun a t => match a with
    | some b => some (if tLt t b then t else b)
    | none => some t) none
  if r = 4 then none
  else if u = 12 then
    least ((upto 64).filterMap fun b =>
      let x := kvGetD s.tg.bands (64 * r + b) {}
      if !(s.on (TG_BP_SRC_ON (tgWin r) b)) then none
      else if 0 < x.n then some x.time else x.seen.map fun y => y.2.2)
  else if u = 13 then
    let x := kvGetD s.tg.drift r {}
    least (x.blindFrom.toList ++ (x.cluster.map fun c => (kvGetD x.rows c.1 ⟨0, 0, 0, false, false, []⟩).time).toList
      ++ x.warmFrom.toList)
  else none

/-- A record takes its place by TIME among those that wait. -/
def insertRec (t : TrigRec) : List TrigRec → List TrigRec
  | [] => [t]
  | a :: l => if tLt t.time a.time then t :: a :: l else a :: insertRec t l

/-- The waiting records of a unit go into the queue in order of TIME, as far as no earlier one can come (R236). -/
def State.tgRelease (s : State) (r u : Nat) (all : Bool) : State :=
  let b := s.tgBound r u
  let l := (s.tgu r u).out
  let go := l.takeWhile fun t => all || (match b with
    | some b => tLe t.time b
    | none => true)
  if go.isEmpty then s
  else (s.modTgu r u fun x => { x with out := x.out.drop go.length }).each go fun s t => s.tgWrite r t

/-- A unit writes a record, in order of TIME (R236). -/
def State.tgRecord (s : State) (r u : Nat) (t : TrigRec) : State :=
  (s.modTgu r u fun x => { x with out := insertRec t x.out }).tgRelease r u false

/-- Write the BLIND records of an interval of `ns` from `t` (R259): at most FFFF_FFFFh ns each. -/
def State.blindFor (s : State) (r u : Nat) (source : BitVec 16) (cause : Nat) (t : DevTime) (ns : Nat) : State :=
  s.each (upto (ns / 0xFFFFFFFF + 1)) fun s k =>
    let len := min 0xFFFFFFFF (ns - k * 0xFFFFFFFF)
    if len = 0 && k != 0 then s
    else
      let t := tAdd t (nsTicks (k * 0xFFFFFFFF))
      s.tgRecord r u {
        time := t, kind := 8, unit := u, flags := if s.coastIn t (tAdd t (nsTicks len)) then 0x81 else 0x80
        source := source, region := r, detail := BitVec.ofNat 32 cause, value := 0, number := 0
        extent := BitVec.ofNat 32 len }

/-- Whole ns from a to b, 0 where b is not after a. -/
def nsBetween (a b : DevTime) : Nat := (tDiff b a).toNat * 1000000000 / 2 ^ 48

/-- The unit tests again, at `t`: the BLIND record of what it could not test (R259). -/
def State.blindOver (s : State) (r u : Nat) (t : DevTime) (source : BitVec 16) : State :=
  match (s.tgu r u).blind with
  | none => s
  | some b => (s.modTgu r u fun x => { x with blind := none }).blindFor r u source b.2.toNat b.1 (nsBetween b.1 t)

/-- EPOCH markers of a unit's source go into the region's TRIG stream, each once (R261). -/
def State.tgMarks (s : State) (r : Nat) (l : List Marker) : State :=
  s.each (l.filter fun m => m.type = .epoch) fun s m =>
    let old := kvGetD s.tg.marked r []
    if old.contains m then s
    else { s with tg := { s.tg with
      marked := kvPut s.tg.marked r ((m :: old).take 64), markers := kvPut s.tg.markers r (kvGetD s.tg.markers r [] ++ [m]) } }

/-- Some state of sequencer u of SP region r names the unit with code `c`: 0 to 13, or 16 + v for ST unit v (R257). -/
def State.seqNames (s : State) (r u k c : Nat) : Bool :=
  if c < 16 then bits (s.get (TG_SQ_MEMBER_SP (tgWin r) (u - 14) k)) c c = 1
  else bits (s.get (TG_SQ_MEMBER_ST (tgWin r) (u - 14) k)) (c - 16) (c - 16) = 1

/-- States of a sequencer. -/
def State.seqStates (s : State) (r u : Nat) : Nat := s.get (TG_SQ_CFG_STATES_M1 (tgWin r) (u - 14)) + 1

/-- An enabled sequencer of the region names the unit. -/
def State.seqMember (s : State) (r u c : Nat) : Bool :=
  s.tgOn r u && (upto (s.seqStates r u)).any fun k => s.seqNames r u k c

/-- A fired trigger is offered to the sequencers that name its unit (R235, R257): ST triggers in every SP region. -/
def State.offerSeqs (s : State) (r u : Nat) (t : DevTime) : State :=
  let c := if r = 4 then 16 + u else u
  if (r = 4 && 9 < u) || (r != 4 && 13 < u) then s
  else
    s.each (if r = 4 then [0, 1, 2, 3] else [r]) fun s q =>
      s.each ([14, 15].filter fun k => s.seqMember q k c) fun s k =>
        s.modTgu q k fun x => { x with held := x.held ++ [(c, t)] }

/-- ST sends a fabric trigger record to swarm TX_SWARM in the control class (R255). -/
def State.fabricSend (s : State) (r : Nat) (t : TrigRec) : State :=
  let id := sid 8 (8 + r)
  let rec_ : YRec := {
    type := 8, stream := id, hive := s.hive, seq := s.exitSeqOf .direct 0 id, time := t.time
    flags := if bits t.flags.toNat 0 0 = 1 then 0x80 else 0
    format := 0x0900, gapLength := 0, gapCause := 0, contrib := 0, excised := 0, epoch := s.epoch (tgWin r)
    payload := trigBytes t }
  let s := s.countExit .direct 0 id
  { s with flow := { s.flow with hiveOut := s.flow.hiveOut ++ [rec_] } }

/-- A unit fires (R233 to R235): its trigger is offered to the groups, the sequencers and the hive, and recorded with
RECORD = 1. -/
def State.tgEmit (s : State) (r u : Nat) (f : TgFire) : State :=
  let w := tgWin r
  let sent := s.on (TG_U_CTL_FABRIC_OUT w u) && f.kind != 5
  let t : TrigRec := {
    time := f.time, kind := f.kind, unit := u, flags := tgFlags f sent, source := f.source, region := r
    detail := BitVec.ofNat 32 f.detail, value := f.value, number := BitVec.ofNat 32 (s.tgNumber r)
    extent := BitVec.ofNat 32 (min f.extent 0xFFFFFFFF) }
  let s := (s.count (TG_U_FIRED w u) 1).put (TG_U_STATUS_ARMED w u) 0
  let s := (s.offerGroups t).offerSeqs r u f.time
  let s := if sent then s.fabricSend r t else s
  if s.on (TG_U_CTL_RECORD w u) then s.tgRecord r u t else s

/-- Whether a condition of a unit at time `t` fires it, counts as suppressed, or is nothing (R233, R234): the unit's
holdoff ends at `h`. -/
inductive TgJudge where
  | fire | suppress | nothing
  deriving DecidableEq, Repr

/-- Judge a condition (R233, R234). -/
def State.tgJudge (s : State) (r u : Nat) (h : Option DevTime) (t : DevTime) : TgJudge :=
  let w := tgWin r
  let inHold := match h with | some e => tLt t e | none => false
  if !(s.tgOn r u) then .nothing
  else if s.on (TG_U_CTL_ARM_MODE w u) then
    if !(s.on (TG_U_STATUS_ARMED w u)) || tLt t (s.tgu r u).armSince then .nothing
    else if inHold then .suppress else .fire
  else if inHold then .suppress else .fire

/-- A condition of a unit with one holdoff. -/
def State.tgCondition (s : State) (r u : Nat) (f : TgFire) : State :=
  match s.tgJudge r u (s.tgu r u).holdEnd f.time with
  | .nothing => s
  | .suppress => s.count (TG_U_SUPPRESSED (tgWin r) u) 1
  | .fire =>
    let e := s.holdUntil r u f.time
    ((s.modTgu r u fun x => { x with holdEnd := some e }).put (TG_U_STATUS_HOLDOFF (tgWin r) u) 1).tgEmit r u f

/-- TG_HOLDOFF_END (R233, R234): device time reached the end of the holdoff (of every band's, for BAND). -/
def State.tgHoldoffEnd (s : State) (r u : Nat) : State :=
  let past (h : Option DevTime) : Bool := match h with | some e => tLe e s.now | none => true
  let bandsOver := !(r != 4 && u = 12) || (upto 64).all fun b => past (kvGetD s.tg.bands (64 * r + b) {}).holdEnd
  if s.on (TG_U_STATUS_HOLDOFF (tgWin r) u) && past (s.tgu r u).holdEnd && bandsOver then
    let s := s.put (TG_U_STATUS_HOLDOFF (tgWin r) u) 0
    if s.tgOn r u && !(s.on (TG_U_CTL_ARM_MODE (tgWin r) u)) then s.put (TG_U_STATUS_ARMED (tgWin r) u) 1 else s
  else s

def execTgHoldoffEnd (r : Fin 5) (u : Fin 16) (s : State) : Host.Outcome State Fault Refusal := .next (s.tgHoldoffEnd r u)

/-! ### LEVEL (R238 to R241) -/

/-- The cubic through x0 to x3 at positions -1, 0, 1, 2 (R240), at m / 256. -/
def cubicAt (x0 x1 x2 x3 : Ratio) (m : Nat) : Ratio :=
  let k (a b c d : Int) (n : Nat) : Ratio :=
    ratioMul (ratioAdd (ratioAdd (ratioMul (ratioOf a) x0) (ratioMul (ratioOf b) x1))
      (ratioAdd (ratioMul (ratioOf c) x2) (ratioMul (ratioOf d) x3))) (ratio 1 n)
  let p := ratio m 256
  let c1 := k (-2) (-3) 6 (-1) 6
  let c2 := k 3 (-6) 3 0 6
  let c3 := k (-1) 3 (-3) 1 6
  ratioAdd x1 (ratioMul p (ratioAdd c1 (ratioMul p (ratioAdd c2 (ratioMul p c3)))))

/-- The sample a LEVEL unit compares (R238): a RAW sample on the 12-bit scale, or the part of a zoom output. A magnitude
is taken to 2^-40 of a unit, rounded down (assumption 13). -/
def State.levelSample (s : State) (r u : Nat) (re im : Int) : Ratio :=
  if s.on (TG_LV_SRC_KIND (tgWin r) u) then
    match s.get (TG_LV_SRC_PART (tgWin r) u) with
    | 0 => ratioOf re
    | 1 => ratioOf im
    | _ => ratio (isqrt ((re * re + im * im).natAbs * 2 ^ 80)) (2 ^ 40)
  else ratioOf ((s.tgu r u).unit * re)

/-- The stream a LEVEL unit watches. -/
def State.levelStream (s : State) (r u : Nat) : BitVec 16 :=
  let i := s.get (TG_LV_SRC_INDEX (tgWin r) u)
  if s.on (TG_LV_SRC_KIND (tgWin r) u) then zoomSid (16 * r + i) else sid 0 (4 * r + i)

/-- Time of m / 256 sample periods after the sample at instant `k` of the unit's clock (R240): RAW, the exact time rounded down;
ZOOM, the TIME of the output plus the rest. -/
def State.levelTime (s : State) (r u : Nat) (k : Int) (m : Nat) : DevTime :=
  let x := s.tgu r u
  if s.on (TG_LV_SRC_KIND (tgWin r) u) then tAddFrac (instTime x.rate k) (m * x.step : Nat) (256 * x.rate)
  else instTime (256 * x.rate) (256 * k + m * x.step)

/-- The crossing between the last two samples, with the one before them and the one that has come (R240, R241). -/
def State.levelFire (s : State) (r u : Nat) (rise : Bool) (x0 x1 x2 x3 : Ratio × Bool × Bool) : State :=
  let w := tgWin r
  let x := s.tgu r u
  let k := x.at_ - 2 * (x.step : Int)
  let lv := ratioOf (signed 32 (s.val (TG_LV_LEVEL w u)))
  let le (a b : Ratio) : Bool := !(ratioLt b a)
  let m := (((upto 256).map fun i => i + 1).find? fun m =>
    let p := cubicAt x0.1 x1.1 x2.1 x3.1 m
    if rise then le lv p else le p lv).getD 256
  s.tgCondition r u {
    time := s.levelTime r u k m, kind := 0
    ovr := [x0, x1, x2, x3].any (·.2.1), cal := [x0, x1, x2, x3].any (·.2.2)
    coast := s.coastIn (s.levelTime r u (k - x.step) 0) (s.levelTime r u x.at_ 0)
    source := s.levelStream r u, detail := (if rise then 0 else 1) + m % 256 * 256, value := f32Round x2.1 }

/-- A sample reaches a LEVEL unit (R239, R240); the second answer says that a qualified crossing was interpolated. -/
def State.levelTake (s : State) (r u : Nat) (v : Ratio × Bool × Bool) : State × Bool :=
  let w := tgWin r
  let lv := ratioOf (signed 32 (s.val (TG_LV_LEVEL w u)))
  let hy := ratioOf (s.get (TG_LV_HYST_HYST w u))
  let slope := s.get (TG_LV_SRC_SLOPE w u)
  let le (a b : Ratio) : Bool := !(ratioLt b a)
  let s := s.blindOver r u (s.levelTime r u (s.tgu r u).at_ 0) (s.levelStream r u)
  let x := s.tgu r u
  let s := match x.crossing, x.hist with
    | some rise, [c, b, a] => s.levelFire r u rise a b c v
    | _, _ => s
  let fired := x.crossing.isSome && x.hist.length = 3
  let up := match x.hist with
    | p :: _ => ratioLt p.1 lv && le lv v.1
    | [] => false
  let down := match x.hist with
    | p :: _ => ratioLt lv p.1 && le v.1 lv
    | [] => false
  (s.modTgu r u fun y => { y with
    at_ := y.at_ + y.step, hist := (v :: x.hist).take 3
    crossing := if up && x.qualUp && slope != 1 then some true
      else if down && x.qualDown && slope != 0 then some false else none
    qualUp := (x.qualUp && !up) || ratioLt v.1 (ratioSub lv hy)
    qualDown := (x.qualDown && !down) || ratioLt (ratioAdd lv hy) v.1 }, fired)

/-- A LEVEL unit takes what its source brings. A run that does not continue the one before is taken as after enable (R259). -/
def State.levelTok (s : State) (r u : Nat) (t : TgTok) : State × Bool :=
  match t with
  | .start rate first step unit =>
    let x := s.tgu r u
    let on := x.rate = rate && x.at_ = first && x.step = step
    (s.modTgu r u fun y => { y with
      rate := rate, at_ := first, step := step, unit := unit
      hist := if on then y.hist else [], crossing := if on then y.crossing else none
      qualUp := on && y.qualUp, qualDown := on && y.qualDown }, false)
  | .x re im ovr cal => s.levelTake r u (s.levelSample r u re im, ovr, cal)
  | .gap t c => (s.modTgu r u fun y => { y with
      blind := some (y.blind.getD (t, c)), hist := [], crossing := none, qualUp := false, qualDown := false }, false)
  | .mark m => (s.tgMarks r [m], false)
  | _ => (s, false)

/-! ### MASK (R242 to R244) -/

/-- Points of the mask of unit u: channel and level in 1/8 dB. -/
def State.maskPoints (s : State) (r u : Nat) : List (Nat × Int) :=
  (upto (s.get (TG_MK_NPTS_N (tgWin r) (u - 8)))).map fun i =>
    let v := (kvGetD s.tg.points ((4 * r + (u - 8)) * 8192 + i) 0).toNat
    (bits v 19 0, signed 12 (bits v 31 20))

/-- The mask level at channel c in 1/8 dB, by linear interpolation between the points around it (R242); none outside. -/
def maskLevel : List (Nat × Int) → Nat → Option Ratio
  | [], _ => none
  | [(a, l)], c => if a = c then some (ratioOf l) else none
  | (a, l) :: (b, m) :: t, c =>
    if c < a then none
    else if c ≤ b then
      (if a = b then some (ratioOf l) else some (ratioMix (ratioOf l) (ratioOf m) (c - a) (b - a)))
    else maskLevel ((b, m) :: t) c

/-- The source of a MASK unit: a broad input or a zoom slot. -/
def State.maskSrc (s : State) (r u : Nat) : Nat :=
  srcOf (s.get (TG_MK_SRC_KIND (tgWin r) (u - 8))) (s.get (TG_MK_SRC_INDEX (tgWin r) (u - 8)))

/-- The channels of a spectrum whose power is above the mask (R242). -/
def State.maskViols (s : State) (r u : Nat) (d : DetSpec) : List (Word × Nat) :=
  let pts := s.maskPoints r u
  (d.p.zip (upto d.p.length)).filter fun y =>
    match maskLevel pts y.2 with
    | some l => dbAbove (f32Num y.1) l.num (8 * l.den)
    | none => false

/-- The largest excess of violating channels over the mask in dB (Table TG-3). -/
def State.maskExcess (s : State) (r u : Nat) (viol : List (Word × Nat)) : Word :=
  let pts := s.maskPoints r u
  let l := viol.map fun y => dbFix (f32Num y.1) - ratioFloor (ratioMul ((maskLevel pts y.2).getD ⟨0, 1⟩) (ratio oneFix 8))
  f32Round (ratio (l.foldl max (l.headD 0)) (2 ^ 80))

/-- The condition of a MASK unit is met (R243) by a spectrum that is OUT or not, after one that was. -/
def State.maskFires (s : State) (r u : Nat) (was : Option Bool) (out : Bool) : Bool :=
  let c := s.get (TG_MK_SRC_COND (tgWin r) (u - 8))
  if c = 0 then out && was = some false
  else if c = 1 then !out && was = some true
  else if c = 2 then !out
  else out && c = 3

/-- What a MASK unit reports of a spectrum with these violating channels (Table TG-3); `value` is the excess. -/
def State.maskFire (s : State) (d : DetSpec) (viol : List (Word × Nat)) (value : Word) : TgFire := {
  time := d.time, kind := 1, ovr := d.ovr, cal := d.cal, coast := s.coastIn d.lo d.hi || s.coastAt d.time, source := d.stream
  detail := (viol.head?.map fun y => y.2).getD 0, value := value, extent := viol.length }

/-- A MASK unit judges a spectrum (R242, R243); one that carries SETTLING or FLAGS bit 2 is not evaluated. -/
def State.maskTake (s : State) (r u : Nat) (d : DetSpec) : State × Bool :=
  if d.bad then (s, false)
  else
    let s := s.blindOver r u d.time d.stream
    let viol := s.maskViols r u d
    let out := decide (s.get (TG_MK_MIN_MIN_CH (tgWin r) (u - 8)) ≤ viol.length)
    let fires := s.maskFires r u (s.tgu r u).isOut out
    let s := s.modTgu r u fun y => { y with isOut := some out }
    if !fires then (s, true)
    -- an IN spectrum may hold no violating channel: the excess the manual then gives no value is a free one
    else if viol.isEmpty then (s.useFree.tgCondition r u (s.maskFire d viol (BitVec.ofNat 32 s.freeNow)), true)
    else (s.tgCondition r u (s.maskFire d viol (s.maskExcess r u viol)), true)

/-- The row a level in 1/8 dB maps to (R218), within 0 to 511. -/
def levelRow (floor16 : Int) (step : Nat) (l : Ratio) : Nat :=
  let y := ratioSub (ratioMul l (ratioOf 32)) (ratioOf (16 * floor16))
  if step = 0 then 0 else (min (max (ratioFloor (ratioMul y (ratio 1 step))) 0) 511).toNat

/-- Counts of each of 2,048 columns of a density plane above the mask's level, 0 where the mask says nothing. -/
def State.densSums (s : State) (r u w i : Nat) (counts : KV Nat) : List Nat :=
  let span := 2 ^ s.get (DC_PL_CFG_LOG_SPAN w i)
  let first := s.get (DC_PL_SRC_FIRST w i)
  let pts := s.maskPoints r u
  let fl := s.getS (DC_PL_ROWS_FLOOR w i)
  let st := s.get (DC_PL_ROWS_STEP w i)
  (upto 2048).map fun c =>
    let ch := first + (if 2048 ≤ span then c * (span / 2048) else c * span / 2048)
    match maskLevel pts ch with
    | none => 0
    | some l =>
      let row := levelRow fl st l
      ((upto (511 - row)).map fun k => kvGetD counts (c * 512 + row + 1 + k) 0).foldl (· + ·) 0

/-- A MASK unit judges a plane update under DENSITY_OVER (R244). -/
def State.densTake (s : State) (r u : Nat) (counts : KV Nat) (t lo hi : DevTime) (ovr cal : Bool) : State × Bool :=
  let w := tgWin r
  let i := s.get (TG_MK_SRC_INDEX w (u - 8)) % 4
  let s := s.blindOver r u t (densSid w i)
  let sums := s.densSums r u w i counts
  let viol := (sums.zip (upto 2048)).filter fun y => decide (s.get (TG_MK_MIN_DENS_MIN w (u - 8)) ≤ y.1)
  (if s.get (TG_MK_MIN_MIN_CH w (u - 8)) ≤ viol.length then
    s.tgCondition r u {
      time := t, kind := 1, ovr := ovr, cal := cal, coast := s.coastIn lo hi || s.coastAt t, source := densSid w i
      detail := (viol.head?.map fun y => y.2).getD 0
      value := f32Round (ratioOf (sums.foldl max 0 : Nat)), extent := viol.length }
  else s, true)

/-- A MASK unit takes what its source brings (R242 to R244, R259). -/
def State.maskTok (s : State) (r u : Nat) (t : TgTok) : State × Bool :=
  match t with
  | .spec d => (s.tgMarks r d.markers).maskTake r u d
  | .plane c t lo hi ovr cal => s.densTake r u c t lo hi ovr cal
  | .gap t c => (s.modTgu r u fun y => { y with blind := some (y.blind.getD (t, c)), isOut := none }, false)
  | _ => (s, false)

/-- The token is a gap. -/
def TgTok.isGap : TgTok → Bool
  | .gap _ _ => true
  | _ => false

/-- A LEVEL or MASK unit takes what waits until it has evaluated something, or, with `gap`, up to the next gap. -/
def State.unitPull (r u : Nat) (gap : Bool) : List TgTok → State → State
  | [], s => s.modTgu r u fun x => { x with inq := [] }
  | t :: rest, s =>
    let p := if u < 8 then s.levelTok r u t else s.maskTok r u t
    if (if gap then t.isGap else p.2) then p.1.modTgu r u fun x => { x with inq := rest } else State.unitPull r u gap rest p.1

/-- Unit u of SP region 6 + r works on: enabled, its island clocked (R47), the region not lost. -/
def State.unitRun (s : State) (r u : Nat) (gap : Bool) : State :=
  if !(s.tgOn r u) || s.lost (tgWin r) then s else s.inIsland (tgWin r) fun s => State.unitPull r u gap (s.tgu r u).inq s

/-- TG_LEVEL_CROSSING (R239 to R241): the unit takes samples until a qualified crossing has been interpolated. -/
def execTgLevelCrossing (q : Fin 4) (u : Fin 8) (s : State) : Host.Outcome State Fault Refusal := .next (s.unitRun q u false)

/-- TG_MASK_EVAL (R242, R243): the unit judges its source's next spectrum. -/
def execTgMaskEval (q : Fin 4) (u : Fin 4) (s : State) : Host.Outcome State Fault Refusal :=
  .next (if s.get (TG_MK_SRC_KIND (tgWin q) u) = 2 then s else s.unitRun q (8 + u) false)

/-- TG_DENSITY_OVER_EVAL (R244): the unit judges its plane's next update. -/
def execTgDensityOverEval (q : Fin 4) (u : Fin 4) (s : State) : Host.Outcome State Fault Refusal :=
  .next (if s.get (TG_MK_SRC_KIND (tgWin q) u) = 2 then s.unitRun q (8 + u) false else s)

/-! ### BAND (R245) -/

/-- Band b of region r beyond its registers. -/
def State.band (s : State) (r b : Nat) : TgBand := kvGetD s.tg.bands (64 * r + b) {}

/-- Change a band. -/
def State.modBand (s : State) (r b : Nat) (f : TgBand → TgBand) : State :=
  { s with tg := { s.tg with bands := kvMod {} s.tg.bands (64 * r + b) f } }

/-- The source of a band. -/
def State.bandSrc (s : State) (r b : Nat) : Nat :=
  srcOf (s.get (TG_BP_SRC_KIND (tgWin r) b)) (s.get (TG_BP_SRC_INDEX (tgWin r) b))

/-- A band's condition: the BAND unit applies holdoff to each band separately (R233). -/
def State.bandCondition (s : State) (r b : Nat) (f : TgFire) : State :=
  match s.tgJudge r 12 (s.band r b).holdEnd f.time with
  | .nothing => s
  | .suppress => s.count (TG_U_SUPPRESSED (tgWin r) 12) 1
  | .fire =>
    let e := s.holdUntil r 12 f.time
    ((s.modBand r b fun x => { x with holdEnd := some e }).put (TG_U_STATUS_HOLDOFF (tgWin r) 12) 1).tgEmit r 12 f

/-- A group of a band is complete (R245): compare its average. An average of 0 has no decibels: its VALUE is a free value. -/
def State.bandGroup (s : State) (r b : Nat) (x : TgBand) (d : DetSpec) : State :=
  let w := tgWin r
  let avg := ratioMul x.acc (ratio 1 x.n)
  let lv := s.getS (TG_BP_LEVEL_LEVEL w b)
  let hy : Int := (s.get (TG_BP_LEVEL_HYST w b) : Nat)
  let below := s.on (TG_BP_SRC_DIR w b)
  let reached := if below then !(dbAbove avg lv 8) else dbReaches avg lv 8
  let arms := if below then dbAbove avg (lv + hy) 8 else !(dbReaches avg (lv - hy) 8)
  let fire := reached && x.qual
  let s := s.modBand r b fun y => { y with n := 0, acc := ⟨0, 1⟩, qual := (x.qual && !fire) || arms }
  if fire then
    let free := decide (avg.num ≤ 0)
    let v := if free then BitVec.ofNat 32 s.freeNow else f32Round (ratio (dbFix avg) (2 ^ 80))
    (if free then s.useFree else s).bandCondition r b {
      time := x.time, kind := 2, ovr := x.ovr, cal := x.cal, coast := s.coastIn x.lo d.hi || s.coastIn x.time d.time
      source := d.stream, detail := b + (if below then 256 else 0), value := v }
  else s

/-- The first enabled band of a source writes the unit's BLIND records for it (R259). -/
def State.bandSpeaks (s : State) (r b : Nat) : Bool :=
  !((upto b).any fun k => s.on (TG_BP_SRC_ON (tgWin r) k) && s.bandSrc r k = s.bandSrc r b)

/-- A band takes what its source brings (R245, R259); the second answer says that it compared an average. A spectrum that carries
SETTLING or FLAGS bit 2 ends its group as a reset does, as for the MASK units (DEDUCED, assumption 52). -/
def State.bandTok (s : State) (r b : Nat) (t : TgTok) : State × Bool :=
  match t with
  | .spec d =>
   let s := s.tgMarks r d.markers
   if d.bad then (s.modBand r b fun x => { x with seen := some (d.grid, d.j, d.time), n := 0, acc := ⟨0, 1⟩ }, false)
   else
    let x := s.band r b
    let w := tgWin r
    let s := match x.blind with
      | some g => if s.bandSpeaks r b then s.blindFor r 12 d.stream g.2.toNat g.1 (nsBetween g.1 d.time) else s
      | none => s
    let k : Int := ((2 ^ s.get (TG_BP_AVG_AVG_LOG w) : Nat) : Int)
    let first := s.get ⟨TG_BP_FIRST w b, 19, 0⟩
    let last := s.get ⟨TG_BP_LAST w b, 19, 0⟩
    let p := ((d.p.drop first).take (last + 1 - first)).foldl (fun a v => ratioAdd a (f32Num v)) ⟨0, 1⟩
    let goesOn := decide (0 < x.n) && d.j % k != 0 && (match x.seen with | some y => y.1 = d.grid && y.2.1 + 1 = d.j | none => false)
    let seen := some (d.grid, d.j, d.time)
    let y : TgBand :=
      if goesOn then { x with seen := seen, n := x.n + 1, acc := ratioAdd x.acc p, ovr := x.ovr || d.ovr, cal := x.cal || d.cal }
      else if d.j % k = 0 then { x with
        seen := seen, n := 1, acc := p, time := d.time, lo := d.lo, ovr := d.ovr, cal := d.cal, blind := none }
      else { x with seen := seen, n := 0, blind := none }
    let s := s.modBand r b fun _ => y
    if decide (0 < y.n) && (y.n : Int) = k then ((s.bandGroup r b y d).tgRelease r 12 false, true) else (s.tgRelease r 12 false, false)
  | .gap t c => (s.modBand r b fun x => { x with
      blind := some (x.blind.getD (t, c)), seen := none, n := 0, acc := ⟨0, 1⟩, qual := false }, false)
  | _ => (s, false)

/-- A band takes what waits until it has compared an average, or, with `gap`, up to the next gap. -/
def State.bandPull (r b : Nat) (gap : Bool) : List TgTok → State → State
  | [], s => s.modBand r b fun x => { x with inq := [] }
  | t :: rest, s =>
    let p := s.bandTok r b t
    if (if gap then t.isGap else p.2) then p.1.modBand r b fun x => { x with inq := rest } else State.bandPull r b gap rest p.1

/-- Band b works on. -/
def State.bandRun (s : State) (r b : Nat) (gap : Bool) : State :=
  if !(s.tgOn r 12) || s.lost (tgWin r) then s else s.inIsland (tgWin r) fun s => State.bandPull r b gap (s.band r b).inq s

/-- TG_BAND_EVAL (R245): the band takes spectra until a group is complete. -/
def execTgBandEval (q : Fin 4) (b : Fin 64) (s : State) : Host.Outcome State Fault Refusal := .next (s.bandRun q b false)

/-! ### EXTERNAL, FABRIC and HOST (R254 to R256) -/

/-- A stamp of event channel c (R254). -/
def State.tgStamp (s : State) (c edge : Nat) (t : DevTime) : State :=
  s.each (upto 8) fun s u =>
    if s.get (ST_TG_EX_SRC_CH u) = c && s.get (ST_TG_EX_SRC_EDGE u) = edge then
      s.tgCondition 4 u { time := t, kind := 4, coast := s.coastAt t, source := sid 7 c, detail := c + 256 * edge }
    else s

/-- TG_FABRIC_RECEIVE (R255): a fabric trigger record reached the device through a swarm. -/
def State.tgFabric (s : State) (swarm : Nat) (rec_ : YRec) : State :=
  let b (i : Nat) : Nat := (rec_.payload.getD i 0).toNat
  if !(s.tgOn 4 8) || !(s.on ST_TG_FB_CFG_RX_EN) || swarm != s.get ST_TG_FB_CFG_RX_SWARM || rec_.hive = s.hive
      || rec_.type != 8 || rec_.format != 0x0900 || rec_.payload.length != 32 || rec_.stream.toNat % 4096 < 8 then s
  else
    let t : DevTime := BitVec.ofNat 80 (fromLe (rec_.payload.take 10))
    let ku := b 10
    s.tgCondition 4 8 {
      time := t, kind := 5, coast := s.coastAt t, source := 0xFFFF
      detail := rec_.hive.toNat + 2 ^ 16 * (b 14 % 16) + 2 ^ 20 * (ku / 16) + 2 ^ 24 * (ku % 16)
      value := BitVec.ofNat 32 (fromLe ((rec_.payload.drop 20).take 4)), extent := fromLe ((rec_.payload.drop 28).take 4) }

def execTgFabricReceive (swarm : Fin 4096) (rec_ : YRec) (s : State) : Host.Outcome State Fault Refusal :=
  .next (s.tgFabric swarm rec_)

/-- The HOST unit fires for time `t` requested on path `p` (R256). -/
def State.tgHost (s : State) (p : Nat) (t : DevTime) : State :=
  s.tgCondition 4 9 { time := t, kind := 6, coast := s.coastAt t, source := sid 13 p, detail := p }

/-- A write of ST_TG_HO_FIRE (R256): a held trigger is replaced. -/
def State.tgFireWrite (s : State) (p v : Nat) : State × Nat :=
  if bits v 0 0 = 0 then (s, 0)
  else
    let t := atSecFrac (s.val ST_TG_HO_SEC) (s.val ST_TG_HO_FRAC)
    if tLt (tAdd s.now (10 * 2 ^ 48)) t then s.answer (TG_U_CTL_REASON 1 9) 0x0603
    else
      let s := s.put (TG_U_CTL_REASON 1 9) 0
      let s : State := { s with tg := { s.tg with host := none } }
      if tLe t s.now then (s.tgHost p t, 0) else ({ s with tg := { s.tg with host := some (t, p) } }, 0)

def execTgHostFire (p : Fin 5) (s : State) : Host.Outcome State Fault Refusal :=
  .next (s.gatedWrite p ST_TG_HO_FIRE fun s => s.tgFireWrite p 1)

/-- TG_HOST_DUE (R256): device time reached the held trigger's time. -/
def State.tgHostDue (s : State) : State :=
  match s.tg.host with
  | some h => if tLe h.1 s.now then ({ s with tg := { s.tg with host := none } } : State).tgHost h.2 h.1 else s
  | none => s

def execTgHostDue (s : State) : Host.Outcome State Fault Refusal := .next s.tgHostDue

/-! ### SEQUENCE (R257) -/

/-- Present state of a sequencer. -/
def State.seqState (s : State) (r u : Nat) : Nat := s.get (TG_SQ_STATE_NOW (tgWin r) (u - 14))

/-- The sequencer goes to state k. -/
def State.seqGo (s : State) (r u k : Nat) (ts : List (Nat × DevTime)) : State :=
  (s.modTgu r u fun x => { x with times := ts }).put (TG_SQ_STATE_NOW (tgWin r) (u - 14)) k

/-- The sequencer passed a state: it fires after its last (R257). -/
def State.seqPass (s : State) (r u k : Nat) (ts : List (Nat × DevTime)) : State :=
  if k < s.seqStates r u then s.seqGo r u k ts
  else
    let t0 := (ts.headD (0, 0)).2
    let tl := (ts.getLastD (0, 0)).2
    let det := (ts.zip (upto 4)).foldl (fun a y => a + y.1.1 % 32 * 2 ^ (5 * y.2)) 0
    (s.seqGo r u 0 []).tgCondition r u {
      time := t0, kind := 7, coast := s.coastIn t0 tl, source := trigSid r, detail := det
      extent := (tDiff tl t0).toNat * 1000000000 / 2 ^ 48 }

/-- TIME + HOLD of a trigger has been reached. -/
def State.seqHold (s : State) (r u : Nat) : Nat := nsTicks (s.val (TG_SQ_HOLD (tgWin r) (u - 14)))

/-- The held trigger with the earliest TIME. -/
def earliest : List (Nat × DevTime) → Option (Nat × DevTime)
  | [] => none
  | a :: t => match earliest t with
    | some b => if tLt b.2 a.2 then some b else some a
    | none => some a

/-- End of the window of state k after T_(k-1). -/
def State.seqWinEnd (s : State) (r u k : Nat) (t : DevTime) : DevTime :=
  tAdd t (nsTicks (s.val (TG_SQ_WIN (tgWin r) (u - 14) k)))

/-- One trigger taken in TIME order (R257). -/
def State.seqTake (s : State) (r u : Nat) (h : Nat × DevTime) : State :=
  let k := s.seqState r u
  let ts := (s.tgu r u).times
  if k = 0 then (if s.seqNames r u 0 h.1 then s.seqPass r u 1 [h] else s)
  else
    let prev := (ts.getLastD (0, 0)).2
    if s.seqNames r u k h.1 then
      (if tLt prev h.2 && tLe h.2 (s.seqWinEnd r u k prev) then s.seqPass r u (k + 1) (ts ++ [h]) else s)
    else if s.seqNames r u 0 h.1 then s.seqGo r u 1 [h] else s

/-- TG_SEQ_HOLD_RELEASE (R257). -/
def State.seqRelease (s : State) (r u : Nat) : State :=
  match earliest (s.tgu r u).held with
  | none => s
  | some h =>
    if s.tgOn r u && tLe (tAdd h.2 (s.seqHold r u)) s.now then
      (s.modTgu r u fun x => { x with held := x.held.erase h }).seqTake r u h
    else s

def execTgSeqHoldRelease (q : Fin 4) (u : Fin 2) (s : State) : Host.Outcome State Fault Refusal := .next (s.seqRelease q (14 + u))

/-- TG_SEQ_TIMEOUT (R257). -/
def State.seqTimeout (s : State) (r u : Nat) : State :=
  let k := s.seqState r u
  if k = 0 then s
  else
    let prev := ((s.tgu r u).times.getLastD (0, 0)).2
    if tLt (tAdd (s.seqWinEnd r u k prev) (s.seqHold r u)) s.now then s.seqGo r u 0 [] else s

def execTgSeqTimeout (q : Fin 4) (u : Fin 2) (s : State) : Host.Outcome State Fault Refusal := .next (s.seqTimeout q (14 + u))

/-- A TIME_STEP marker passes the units (R260, R261): holdoffs end, sequencers return to state 0. -/
def State.tgTimeStep (s : State) (m : Marker) : State :=
  let s := s.each [0, 1, 2, 3, 4] fun s r =>
    let s : State := { s with tg := { s.tg with markers := kvPut s.tg.markers r (kvGetD s.tg.markers r [] ++ [m]) } }
    let s := s.each (upto (tgUnits r)) fun s u =>
      let s := s.modTgu r u fun x => { x with holdEnd := none }
      if s.on (TG_U_STATUS_HOLDOFF (tgWin r) u) then
        (s.put (TG_U_STATUS_HOLDOFF (tgWin r) u) 0).ifThen (s.tgOn r u && !(s.on (TG_U_CTL_ARM_MODE (tgWin r) u))) fun s =>
          s.put (TG_U_STATUS_ARMED (tgWin r) u) 1
      else s
    if r = 4 then s else s.each [14, 15] fun s u => s.seqGo r u 0 []
  { s with tg := { s.tg with bands := s.tg.bands.map fun p => (p.1, { p.2 with holdEnd := none }) } }

end Sys2Proof.Machine
end

