-- ==== Sys2Proof/Machine/Drift.lean ====
section
/-! DEFINITION. Machine/Drift.lean: the drift trigger (R246 to R253), and the enable, disable, arming and source gaps of
every trigger unit (R234, R259, R265 to R267). -/

namespace Sys2Proof.Machine

/-! ### Geometry (R246, R247) -/

/-- The drift unit of region r beyond its registers. -/
def State.drift (s : State) (r : Nat) : DriftSt := kvGetD s.tg.drift r {}

/-- Its sources: the selected broad inputs, or one zoom slot. -/
def State.driftSrcs (s : State) (r : Nat) : List Nat :=
  let sel := s.get (TG_DR_SRC_SEL (tgWin r))
  if s.on (TG_DR_SRC_KIND (tgWin r)) then [16 + sel] else (upto 4).filter fun k => bits sel k k = 1

/-- STEP_SPECTRA, B, channels per sub-band, FIRST, SPAN, laws, CLUSTER. -/
def State.drStep (s : State) (r : Nat) : Nat := s.get (TG_DR_STEP_STEP_SPECTRA (tgWin r))
def State.drB (s : State) (r : Nat) : Nat := s.get (TG_DR_STEP_BANDS_M1 (tgWin r)) + 1
def State.drSub (s : State) (r : Nat) : Nat := 2 ^ s.get (TG_DR_GEOM_SUB_LOG (tgWin r))
def State.drFirst (s : State) (r : Nat) : Nat := s.get (TG_DR_GEOM_FIRST (tgWin r))
def State.drSpan (s : State) (r : Nat) : Nat := 2 ^ s.get (TG_DR_SPAN_LOG_SPAN (tgWin r))
def State.drLaws (s : State) (r : Nat) : Nat := s.get (TG_DR_SPAN_LAWS_M1 (tgWin r)) + 1
def State.drCluster (s : State) (r : Nat) : Nat := s.get (TG_DR_THRESH_CLUSTER (tgWin r))

/-- log2 of the enabled widths. -/
def State.drWidths (s : State) (r : Nat) : List Nat :=
  (upto 9).filter fun i => bits (s.get (TG_DR_WIDTHS_MASK (tgWin r))) i i = 1

/-- Time per step in seconds (R246). -/
def State.drDt (s : State) (r : Nat) : Ratio :=
  let q := s.srcRate (tgWin r) ((s.driftSrcs r).headD 0)
  if q.num ≤ 0 then ⟨0, 1⟩ else ratio (s.drStep r * q.den) q.num.natAbs

/-- Width of a channel in Hz: fs / 2C, or r / P (R247). -/
def State.drBin (s : State) (r : Nat) : Ratio :=
  let w := tgWin r
  let src := (s.driftSrcs r).headD 0
  if src < 16 then ratio (s.fsHz (srcInput w src)) (2 * s.btC (srcInput w src))
  else
    let z := s.slotPath w (src - 16)
    ratio (s.fsHz (z / 4)) (s.zpDec z * s.slotPoints w (src - 16))

/-- Frequency of sub-band b in Hz (R247). -/
def State.drNu (s : State) (r b : Nat) : Ratio :=
  let n := s.drSub r
  let c := ratio (2 * (s.drFirst r + b * n) + (n - 1) : Nat) 2
  let d := ratioMul c (s.drBin r)
  let f0 := ratioOf (1000 * s.val (TG_DR_F0_KHZ (tgWin r)) : Nat)
  if s.on (TG_DR_SRC_INVERT (tgWin r)) then ratioSub f0 d else ratioAdd f0 d

/-- Inverse of a ratio; 0 of 0. -/
def ratioInv (a : Ratio) : Ratio :=
  if a.num = 0 then ⟨0, 1⟩ else if a.num < 0 then ratio (-(a.den : Int)) a.num.natAbs else ratio a.den a.num.natAbs

/-- Law word W of region r. -/
def State.lawWord (s : State) (r w : Nat) : Word := kvGetD s.tg.laws (2048 * r + w) 0

/-- Law L is NU2 (R247). -/
def State.lawNu2 (s : State) (r l : Nat) : Bool := bits (s.lawWord r (2 * l + 1)).toNat 1 0 = 0

/-- Smallest of a list of ratios. -/
def ratioMin : List Ratio → Ratio
  | [] => ⟨0, 1⟩
  | a :: t => t.foldl (fun x y => if ratioLt y x then y else x) a

/-- d_L(b) for every b (R247); none when the law's parameter gives no finite delay. -/
def State.lawDelays (s : State) (r l : Nat) : Option (List Nat) :=
  match f32Val (s.lawWord r (2 * l)) with
  | none => none
  | some a =>
    let nus := (upto (s.drB r)).map (s.drNu r)
    let dt := s.drDt r
    let delays : Option (List Ratio) :=
      if s.lawNu2 r l then
        let inv2 (v : Ratio) : Ratio := let i := ratioInv v; ratioMul i i
        let top := inv2 (ratioMax nus)
        some (nus.map fun v => ratioMul (ratioMul a (ratioOf (10 ^ 18 : Nat))) (ratioSub (inv2 v) top))
      else if a.num = 0 then none
      else some (let q := nus.map fun v => ratioMul v (ratioInv a); q.map fun x => ratioSub x (ratioMin q))
    delays.map fun ds =>
      let ks := ds.map fun d => ratioRound (ratioMul d (ratioInv dt))
      let lo := ks.foldl min (ks.headD 0)
      ks.map fun k => (k - lo).toNat

/-- D_L. -/
def lawSpan (d : List Nat) : Nat := d.foldl max 0

/-- The latency bound in ns, rounded up (Table TG-4). -/
def State.drLatNs (s : State) (r : Nat) : Nat :=
  let w := tgWin r
  let src := (s.driftSrcs r).headD 0
  let sp := ratioMul (ratioOf (s.drSpan r + s.drCluster r : Nat)) (s.drDt r)
  let half := if src < 16 then ratio (s.btL (srcInput w src)) (2 * s.fsHz (srcInput w src))
    else let z := s.slotPath w (src - 16); ratio (s.slotPoints w (src - 16) * s.zpDec z) (2 * s.fsHz (z / 4))
  let t := ratioAdd (ratioAdd sp half) (ratioInv (s.srcRate w src))
  ((-(ratioFloor (ratioMul t ⟨-1000000000, 1⟩))).toNat + 30000)

/-! ### Steps (R246, R253) -/

/-- One past the last complete step. -/
def State.drDone (s : State) (r : Nat) : Nat :=
  let x := s.drift r
  match s.driftSrcs r with
  | [] => 0
  | a :: t => t.foldl (fun m k => min m ((kvGetD x.at_ k 0).toNat / max 1 (s.drStep r))) ((kvGetD x.at_ a 0).toNat / max 1 (s.drStep r))

/-- TIME of the first spectrum of step t; by the step's length from a step whose TIME is known where it was lost. -/
def State.drTime (s : State) (r t : Nat) : DevTime :=
  let x := s.drift r
  match kvGet x.rows t with
  | some row => row.time
  | none =>
    let d := ratioMul (ratioOf ((t : Int) - x.ref.1)) (s.drDt r)
    tAddFrac x.ref.2 d.num d.den

/-! ### Evaluation (R248 to R251) -/

/-- box_L,w(t) (R248): none when a row it uses is invalid. -/
def boxSum (rows : KV DrRow) (d : List Nat) (t w : Nat) : Option Ratio :=
  let at_ (u : Nat) : Option Ratio :=
    (d.zip (upto d.length)).foldl (fun a p =>
      match a, kvGet rows (u + p.1) with
      | some v, some row => some (ratioAdd v (f32Num (row.vals.getD p.2 0)))
      | _, _ => none) (some ⟨0, 1⟩)
  (upto w).foldl (fun a i => match a, at_ (t + i) with | some v, some y => some (ratioAdd v y) | _, _ => none) (some ⟨0, 1⟩)

/-- Number, sum and sum of squares over the complete blocks. -/
def DrStat.total (x : DrStat) : Nat × Ratio × Ratio :=
  x.blocks.foldl (fun a b => (a.1 + b.1, ratioAdd a.2.1 b.2.1, ratioAdd a.2.2 b.2.2)) (0, ⟨0, 1⟩, ⟨0, 1⟩)

/-- The square of the significance of a value above the mean, over threshold `th` / 16 (R249): none when it is not over.
The inner none is a significance with no finite value. -/
def overThresh (x : DrStat) (v : Ratio) (th : Nat) : Option (Option Ratio) :=
  let t := x.total
  if t.1 = 0 then none
  else
    let mu := ratioMul t.2.1 (ratio 1 t.1)
    let var := ratioSub (ratioMul t.2.2 (ratio 1 t.1)) (ratioMul mu mu)
    let d := ratioSub v mu
    if d.num ≤ 0 then none
    else if var.num ≤ 0 then some none
    else
      let q := ratioMul (ratioMul d d) (ratioInv var)
      if ratioLt q (ratio (th * th) 256) then none else some (some q)

/-- A first significance is larger than a second. -/
def sigLarger : Option Ratio → Option Ratio → Bool
  | none, none => false
  | none, some _ => true
  | some _, none => false
  | some a, some b => ratioLt b a

/-- Statistics key of law L and width 2^i. -/
def statKey (l i : Nat) : Nat := l * 16 + i

/-- What one evaluation gathers: statistics, the best result, whether some box could not be tested. -/
structure DrEval where
  stats : KV DrStat
  best : Option DrHit := none
  untested : Bool := false

/-- Evaluate one law and width at step t. -/
def evalOne (x : DriftSt) (warm : Bool) (th t l i : Nat) (e : DrEval) : DrEval :=
  match boxSum x.rows (x.laws.getD l []) t (2 ^ i) with
  | none => { e with untested := true }
  | some v =>
    let st := kvGetD e.stats (statKey l i) {}
    let past := if warm then none else overThresh st v th
    match past with
    | some q =>
      let better := match e.best with | none => true | some b => sigLarger q b.sig2
      { e with best := if better then some ⟨t, l, i, q⟩ else e.best }
    | none => { e with stats := kvPut e.stats (statKey l i) { st with n := st.n + 1, sum := ratioAdd st.sum v, sq := ratioAdd st.sq (ratioMul v v) } }

/-- Steps per block: NB (R249). -/
def State.drNb (s : State) (r : Nat) : Nat :=
  let q := ratioMul (ratio 15625 1000000) (ratioInv (s.drDt r))
  max 1 (-(ratioFloor (ratioMul q ⟨-1, 1⟩))).toNat

/-- Close the present block of every law and width. -/
def closeBlock (st : KV DrStat) : KV DrStat :=
  st.map fun p => (p.1, { n := 0, sum := ⟨0, 1⟩, sq := ⟨0, 1⟩, blocks := ((p.2.n, p.2.sum, p.2.sq) :: p.2.blocks).take 64 })

/-- The unit's DRIFT source stream: the first selected one. -/
def State.drStream (s : State) (r : Nat) : BitVec 16 := s.srcStream (tgWin r) ((s.driftSrcs r).headD 0)

/-- A time span in whole ns, rounded down. -/
def ratioNs (a : Ratio) : Nat := (ratioFloor (ratioMul a ⟨1000000000, 1⟩)).toNat

/-- The unit's kind (Table TG-3's numbers). -/
def tgKind (r u : Nat) : Nat :=
  if r = 4 then (if u < 8 then 4 else if u = 8 then 5 else 6)
  else if u < 8 then 0 else if u < 12 then 1 else if u = 12 then 2 else if u = 13 then 3 else 7

/-- TG_DRIFT_CLUSTER_END (R250, R251): the cluster is over and the unit fires once for its most significant result. A
cluster that begins in holdoff is suppressed whole. -/
def State.drClusterEnd (s : State) (r : Nat) : State :=
  let x := s.drift r
  match x.cluster with
  | none => s
  | some c =>
    if !(s.tgOn r 13) || x.next < c.1 + s.drCluster r then s
    else
      let s := s.modDrift r fun y => { y with cluster := none }
      match s.tgJudge r 13 (s.tgu r 13).holdEnd (s.drTime r c.1) with
      | .nothing => s
      | .suppress => s.count (TG_U_SUPPRESSED (tgWin r) 13) 1
      | .fire =>
        let h := c.2
        let d := x.laws.getD h.law []
        let low := (d.zip (upto d.length)).foldl (fun a p => if p.1 = 0 then p.2 else a) 0
        let t := s.drTime r h.t
        let n := lawSpan d + 2 ^ h.w
        let used := x.rows.filter fun p => decide (h.t ≤ p.1) && decide (p.1 < h.t + n)
        let fv := s.freeNow
        let s := if h.sig2.isNone then s.useFree else s
        let e := s.holdUntil r 13 t
        ((s.modTgu r 13 fun y => { y with holdEnd := some e }).put (TG_U_STATUS_HOLDOFF (tgWin r) 13) 1).tgEmit r 13 {
          time := t, kind := 3, ovr := used.any fun p => p.2.ovr, cal := used.any fun p => p.2.cal
          coast := s.coastIn t (s.drTime r (h.t + n)) || used.any fun p => s.coastIn p.2.lo p.2.hi
          source := s.drStream r
          detail := h.law + 1024 * h.w + 16384 * low
          value := match h.sig2 with | some q => f32Sqrt q | none => BitVec.ofNat 32 fv
          extent := ratioNs (ratioMul (ratioOf (n : Nat)) (s.drDt r)) }

def execTgDriftClusterEnd (q : Fin 4) (s : State) : Host.Outcome State Fault Refusal := .next (s.drClusterEnd q)

/-- A source's spectra are numbered from a new origin: an open cluster ends, the steps not tested are blind time, and steps are
gathered from the first spectrum on. Sources that have not yet been reset have nothing to add (R246). -/
def State.driftRestart (s : State) (r src : Nat) : State :=
  let s := match (s.drift r).cluster with
    | some c => (s.modDrift r fun x => { x with next := max x.next (c.1 + s.drCluster r) }).drClusterEnd r
    | none => s
  let x := s.drift r
  let t := s.drTime r x.next
  s.modDrift r fun x => { (if x.first.isSome then x.blindAt t x.cause else x) with
    accs := [], rows := [], at_ := [], first := none, stale := (s.driftSrcs r).filter fun k => k != src
    stats := x.stats.map fun p => (p.1, { p.2 with n := 0, sum := ⟨0, 1⟩, sq := ⟨0, 1⟩ }) }

/-- A spectrum of a source reaches the drift unit (R246). A step is complete once every source has passed its last
spectrum; it is a valid row when no spectrum of it was lost or carried SETTLING (R253). An index from another origin starts
the sweep anew. -/
def State.driftTake (s : State) (r src : Nat) (d : DetSpec) : State :=
  let step := s.drStep r
  let srcs := s.driftSrcs r
  if d.j < 0 || step = 0 then s
  else
    let y := s.drift r
    let moved := match kvGet y.grids src with
      | some g => g != d.grid
      | none => false
    let s := if moved && !(y.stale.contains src) then s.driftRestart r src else s
    let s := s.modDrift r fun x => { x with
      grids := kvPut x.grids src d.grid, stale := if moved then x.stale.filter fun k => k != src else x.stale }
    let x := s.drift r
    if x.stale.contains src then s
    else
      let j := d.j.toNat
      let t := j / step
      let s := s.cmWake (s.allocBase .sweep r + 4 * s.drB r * (t % s.drSpan r)) (4 * s.drB r)
      let x := s.drift r
      let n := s.drSub r
      let sums := (upto (s.drB r)).map fun b =>
        ((d.p.drop (s.drFirst r + b * n)).take n).foldl (fun a v => ratioAdd a (f32Num v)) ⟨0, 1⟩
      let a := kvGetD x.accs t
        { time := d.time, lo := d.lo, hi := d.hi, got := 0, bad := false, ovr := false, cal := false, vals := [] }
      let a : DrAcc := { a with
        time := if j % step = 0 then d.time else a.time
        lo := if tLt d.lo a.lo then d.lo else a.lo, hi := if tLt a.hi d.hi then d.hi else a.hi
        got := a.got + 1, bad := a.bad || d.bad, ovr := a.ovr || d.ovr, cal := a.cal || d.cal
        vals := if a.vals.isEmpty then sums else (a.vals.zip sums).map fun y => ratioAdd y.1 y.2 }
      let at_ := kvPut x.at_ src (d.j + 1)
      let done := srcs.foldl (fun m k => min m ((kvGetD at_ k 0).toNat / step)) (j / step + 1)
      let accs := kvPut x.accs t a
      let ready := accs.filter fun p => decide (p.1 < done)
      let good := ready.filter fun p => p.2.got = step * srcs.length && !p.2.bad
      let first := match x.first with | some f => f | none => if j % step = 0 then t else t + 1
      let next := if x.first.isNone then first else x.next
      let rows := good.foldl (fun m p => kvPut m p.1 {
        time := p.2.time, lo := p.2.lo, hi := p.2.hi, ovr := p.2.ovr, cal := p.2.cal, vals := p.2.vals.map f32Round }) x.rows
      s.modDrift r fun x => { x with
        accs := accs.filter fun p => decide (done ≤ p.1)
        at_ := at_
        first := some first
        next := next
        blockFrom := if x.first.isNone then first else x.blockFrom
        rows := rows.filter fun p => decide (next ≤ p.1 + s.drCluster r)
        ref := if j % step = 0 then (t, d.time) else x.ref }

/-- The drift unit takes what waits (R246, R259): a gap record gives the cause of the blind time. -/
def State.driftTok (s : State) (r : Nat) (t : Nat × DetTok) : State :=
  match t.2 with
  | .spec d => (s.tgMarks r d.markers).driftTake r t.1 d
  | .gap g => s.modDrift r fun x => { x with cause := if x.blindFrom.isSome then x.cause else some g.cause.toNat }

/-- The end of an interval that could not be tested (R249, R253): its BLIND record; after more than 1 s the statistics
start anew. -/
def State.drBlindEnd (s : State) (r : Nat) (t : DevTime) : State :=
  let x := s.drift r
  match x.blindFrom with
  | none => s
  | some t0 =>
    let s := (s.modDrift r fun y => { y with blindFrom := none, cause := none }).blindFor r 13 (s.drStream r) (x.cause.getD 0xA) t0
      (nsBetween t0 t)
    if 2 ^ 48 < tDiff t t0 then
      (s.modDrift r fun y => { y with stats := [], blocks := 0, blockFrom := y.next, warmFrom := some t }).put (TG_U_STATUS_WARM (tgWin r) 13) 1
    else s

/-- Some law and width uses an invalid row at step t (R253). -/
def State.drUntested (s : State) (r t : Nat) : Bool :=
  let x := s.drift r
  (upto (s.drLaws r)).any fun l => (s.drWidths r).any fun i => (boxSum x.rows (x.laws.getD l []) t (2 ^ i)).isNone

/-- A result beats the cluster's best (R250): larger significance; of equal ones the lower law, then the smaller width, then the
earlier step. -/
def DrHit.beats (a b : DrHit) : Bool :=
  sigLarger a.sig2 b.sig2 || (!(sigLarger b.sig2 a.sig2) && (decide (a.law < b.law) || (a.law = b.law && decide (a.w < b.w))))

/-- The next step is complete: step t + SPAN - 1 is (R250). -/
def State.drReady (s : State) (r : Nat) : Bool :=
  (s.drift r).first.isSome && decide ((s.drift r).next + s.drSpan r ≤ s.drDone r)

/-- Step t is evaluated (R249, R250). -/
def State.drEval (s : State) (r : Nat) : State :=
  let t := (s.drift r).next
  let s := s.drClusterEnd r
  let tt := s.drTime r t
  let s := if s.drUntested r t then s.modDrift r fun y => y.blindAt tt y.cause else s.drBlindEnd r tt
  let x := s.drift r
  let warm := decide (x.blocks < 64)
  let th := s.get (TG_DR_THRESH_THRESH (tgWin r))
  let e := (upto (s.drLaws r)).foldl (fun e l => (s.drWidths r).foldl (fun e i => evalOne x warm th t l i e) e)
    ({ stats := x.stats } : DrEval)
  let s := s.modDrift r fun y => { y with
    stats := e.stats
    cluster := match e.best with
      | none => y.cluster
      | some h => match y.cluster with
        | none => some (t, h)
        | some c => if h.beats c.2 then some (c.1, h) else some c }
  -- the end of a block
  let s :=
    if (t + 1 - (s.drift r).blockFrom) % s.drNb r = 0 then
      let s := s.modDrift r fun y => { y with stats := closeBlock y.stats, blocks := y.blocks + 1 }
      let y := s.drift r
      if y.blocks = 64 then
        let t1 := s.drTime r (t + 1)
        let t0 := y.warmFrom.getD t1
        ((s.modDrift r fun y => { y with warmFrom := none }).put (TG_U_STATUS_WARM (tgWin r) 13) 0).blindFor r 13 (s.drStream r) 0xA t0
          (nsBetween t0 t1)
      else s
    else s
  (s.modDrift r fun y => { y with next := t + 1 }).tgRelease r 13 false

/-- The unit takes spectra until a step can be evaluated, and evaluates it. -/
def State.drPull (r : Nat) : List (Nat × DetTok) → State → State
  | [], s =>
    let s := s.modDrift r fun x => { x with inq := [] }
    if s.drReady r then s.drEval r else s
  | t :: rest, s =>
    if s.drReady r then (s.modDrift r fun x => { x with inq := t :: rest }).drEval r else State.drPull r rest (s.driftTok r t)

/-- The drift unit works on: enabled, its island clocked (R47), the region not lost. -/
def State.drRun (s : State) (r : Nat) (f : State → State) : State :=
  if !(s.tgOn r 13) || s.lost (tgWin r) then s else s.inIsland (tgWin r) f

/-- TG_DRIFT_STEP_EVAL (R249, R250). -/
def execTgDriftStepEval (q : Fin 4) (s : State) : Host.Outcome State Fault Refusal :=
  .next (s.drRun q fun s => State.drPull q (s.drift q).inq s)

/-- The unit takes what waits up to the next gap record. -/
def State.drGapPull (r : Nat) : List (Nat × DetTok) → State → State
  | [], s => s.modDrift r fun x => { x with inq := [] }
  | t :: rest, s =>
    let s := s.driftTok r t
    match t.2 with
    | .gap _ => s.modDrift r fun x => { x with inq := rest }
    | .spec _ => State.drGapPull r rest s

/-! ### The checks at enable (R266) -/

/-- The event channel is enabled in STAMP mode. -/
def State.chStamps (s : State) (c : Nat) : Bool := s.on (ST_ET_CTL_ENABLE c) && s.get (ST_ET_CTL_MODE c) = 1

/-- A LEVEL unit's source runs. -/
def State.levelOn (s : State) (r u : Nat) : Bool :=
  let i := s.get (TG_LV_SRC_INDEX (tgWin r) u)
  if s.on (TG_LV_SRC_KIND (tgWin r) u) then s.on (ZP_CTL_ENABLE (16 * r + i)) else s.on (AF_IN_CTL_ENABLE (4 * r + i))

/-- A MASK unit's source runs. -/
def State.maskOn (s : State) (r u : Nat) : Bool :=
  let i := s.get (TG_MK_SRC_INDEX (tgWin r) (u - 8))
  if s.get (TG_MK_SRC_KIND (tgWin r) (u - 8)) = 2 then s.on (DC_PL_CTL_ENABLE (tgWin r) (i % 4))
  else s.srcOn (tgWin r) (s.maskSrc r u)

/-- Bands in use. -/
def State.bandsOn (s : State) (r : Nat) : List Nat := (upto 64).filter fun b => s.on (TG_BP_SRC_ON (tgWin r) b)

/-- The source of a unit is enabled (R266, R267). -/
def State.tgSourceOn (s : State) (r u : Nat) : Bool :=
  match tgKind r u with
  | 0 => s.levelOn r u
  | 1 => s.maskOn r u
  | 2 => (s.bandsOn r).all fun b => s.srcOn (tgWin r) (s.bandSrc r b)
  | 3 => (s.driftSrcs r).all fun k => s.srcOn (tgWin r) k
  | 4 => s.chStamps (s.get (ST_TG_EX_SRC_CH u))
  | _ => true

/-- A reserved value (0170h). -/
def State.tgReserved (s : State) (r u : Nat) : Bool :=
  let w := tgWin r
  match tgKind r u with
  | 0 => s.get (TG_LV_SRC_PART w u) = 3 || s.get (TG_LV_SRC_SLOPE w u) = 3
  | 1 =>
    let k := s.get (TG_MK_SRC_KIND w (u - 8))
    let c := s.get (TG_MK_SRC_COND w (u - 8))
    k = 3 || decide (4 < c) || (decide (c = 4) != decide (k = 2))
  | 2 => decide (10 < s.get (TG_BP_AVG_AVG_LOG w))
  | 3 => (upto (s.drLaws r)).any fun l => decide (1 < bits (s.lawWord r (2 * l + 1)).toNat 1 0)
  | _ => false

/-- A source index or channel range outside its source (0174h). -/
def State.tgOutside (s : State) (r u : Nat) : Bool :=
  let w := tgWin r
  match tgKind r u with
  | 0 => !(s.on (TG_LV_SRC_KIND w u)) && decide (3 < s.get (TG_LV_SRC_INDEX w u))
  | 1 =>
    let i := s.get (TG_MK_SRC_INDEX w (u - 8))
    s.get (TG_MK_SRC_KIND w (u - 8)) != 1 && decide (3 < i)
  | 2 => (s.bandsOn r).any fun b =>
      let f := s.get ⟨TG_BP_FIRST w b, 19, 0⟩
      let l := s.get ⟨TG_BP_LAST w b, 19, 0⟩
      (!(s.on (TG_BP_SRC_KIND w b)) && decide (3 < s.get (TG_BP_SRC_INDEX w b))) || decide (l < f)
        || decide (s.srcChans w (s.bandSrc r b) ≤ l)
  | 3 => decide (10 < s.get (TG_DR_GEOM_SUB_LOG w)) || (s.driftSrcs r).any fun k =>
      decide (s.srcChans w k < s.drFirst r + s.drB r * s.drSub r)
  | _ => false

/-- Mask points fewer than 2, more than 8,192, or not strictly increasing (0172h). -/
def State.tgPointsBad (s : State) (r u : Nat) : Bool :=
  tgKind r u = 1 &&
    (let n := s.get (TG_MK_NPTS_N (tgWin r) (u - 8))
     decide (n < 2) || decide (8192 < n) ||
       (let l := (s.maskPoints r u).map fun p => p.1
        (l.zip (l.drop 1)).any fun p => decide (p.2 ≤ p.1)))

/-- MIN_CH, DENS_MIN, THRESH, CLUSTER or a window out of range (0173h). -/
def State.tgRangeBad (s : State) (r u : Nat) : Bool :=
  let w := tgWin r
  match tgKind r u with
  | 1 => s.get (TG_MK_MIN_MIN_CH w (u - 8)) = 0 || s.get (TG_MK_MIN_DENS_MIN w (u - 8)) = 0
  | 3 => decide (s.get (TG_DR_THRESH_THRESH w) < 16) || s.drCluster r = 0
  | 7 => ([1, 2, 3].filter fun k => decide (k < s.seqStates r u)).any fun k => decide (s.val (TG_SQ_WIN w (u - 14) k) < 100)
  | _ => false

/-- Drift step, frequency or span out of range (0171h). -/
def State.driftBad (s : State) (r : Nat) : Bool :=
  let dt := s.drDt r
  let ls := s.get (TG_DR_SPAN_LOG_SPAN (tgWin r))
  let wide := 2 ^ ((s.drWidths r).foldl max 0)
  ratioLt dt (ratio 1 1000000) || ratioLt (ratio 1 100) dt || decide (ls < 8) || decide (16 < ls)
    || ((upto (s.drLaws r)).any (fun l => s.lawNu2 r l) && (upto (s.drB r)).any fun b => decide ((s.drNu r b).num ≤ 0))
    || (upto (s.drLaws r)).any fun l => match s.lawDelays r l with | none => true | some d => decide (s.drSpan r < lawSpan d + wide)

/-- Drift sources unequal or empty (0371h). -/
def State.driftUnequal (s : State) (r : Nat) : Bool :=
  let w := tgWin r
  !(s.on (TG_DR_SRC_KIND w)) &&
    (match s.driftSrcs r with
     | [] => true
     | a :: t => t.any fun k => s.btC (srcInput w k) != s.btC (srcInput w a) || s.btH (srcInput w k) != s.btH (srcInput w a))

/-- Codes of the units a sequencer names: 0 to 13, or 16 + v. -/
def State.seqMembers (s : State) (r u : Nat) : List Nat :=
  ((upto 14) ++ ((upto 10).map fun v => 16 + v)).filter fun c => (upto (s.seqStates r u)).any fun k => s.seqNames r u k c

/-- Unit code c of region r is enabled. -/
def State.codeOn (s : State) (r c : Nat) : Bool := if c < 16 then s.tgOn r c else s.tgOn 4 (c - 16)

/-- MiB of the sweep buffer, and its traffic in bytes per second (R252). -/
def State.sweepMib (s : State) (r : Nat) : Nat := ceilDiv (s.drB r * s.drSpan r * 4) (2 ^ 20)
def State.sweepRate (s : State) (r : Nat) : Nat :=
  (-(ratioFloor (ratioMul (ratioMul (ratioOf (8 * s.drB r : Nat)) (ratioInv (s.drDt r))) ⟨-1, 1⟩))).toNat

/-- What the sweep moves through the SP region's switch port (R252, R642): each row out to capture memory and back. -/
def State.sweepStreams (s : State) (r : Nat) : List (Nat × BitVec 16 × Ratio) :=
  let n := ratioMul (ratioOf (s.sweepRate r : Nat)) ⟨1, 2⟩
  [(tgWin r, sid 14 (8 + r), n), (tgWin r + 16, sid 14 (8 + r), n)]

/-- The consistency check of a unit's enable (R266), then the switch port (R43, assumption 65). -/
def State.tgCheck (s : State) (r u : Nat) : Nat :=
  let k := tgKind r u
  firstFail [
    (s.variant = .yn9608 && (r = 2 || r = 3), 0x0210),
    (s.tgReserved r u, 0x0170),
    (s.tgOutside r u, 0x0174),
    (s.tgPointsBad r u, 0x0172),
    (s.tgRangeBad r u, 0x0173),
    (k = 3 && !(s.driftUnequal r) && s.driftBad r, 0x0171),
    (!(s.tgSourceOn r u), 0x0370),
    ((k = 3 && s.driftUnequal r) || (k = 7 && (s.seqMembers r u).any fun c => !(s.codeOn r c)), 0x0371),
    (k = 3 && ratioLt (ratioMul (ratioOf 410000000) (s.drDt r)) (ratioOf (s.drB r : Nat)), 0x0209),
    (k = 3 && s.trafficOver (s.sweepRate r), 0x020A),
    (k = 3 && s.allocCheck .sweep (s.sweepMib r) != 0, 0x0223),
    (k = 3 && (s.tieAll (s.sweepStreams r)).isNone, 0x020D)]

/-- Latency bound of a unit in ns (Table TG-4). That of FABRIC rests on the originating device: a free value. -/
def State.tgLatNs (s : State) (r c : Nat) : Nat :=
  match tgKind (if c < 16 then r else 4) (c % 16) with
  | 0 => 300
  | 1 => 4000
  | 2 => 4000
  | 3 => s.val (TG_DR_LAT_NS (tgWin r))
  | 4 => 300
  | 5 => s.freeNow % 2 ^ 32
  | _ => 1000

/-- A unit starts: running and armed (R264, R266). -/
def State.tgStart (s : State) (r u : Nat) : State :=
  let w := tgWin r
  let others := (upto (tgUnits r)).any fun k => k != u && s.tgOn r k
  let s : State := if others then s else { s with tg := { s.tg with number := kvDel s.tg.number r } }
  let s := (s.modTgu r u fun _ => {}).setVal (TG_U_STATUS w u) 3
  match tgKind r u with
  | 2 => s.each (upto 64) fun s b => s.modBand r b fun _ => {}
  | 3 =>
    let laws := (upto (s.drLaws r)).map fun l => (s.lawDelays r l).getD []
    let s := (s.tieAll (s.sweepStreams r)).getD s
    let s := (s.alloc .sweep r (s.sweepMib r)).setTraffic .sweep r (s.sweepRate r)
    let s := (s.setVal (TG_DR_LAT_NS w) (s.drLatNs r)).put (TG_U_STATUS_WARM w u) 1
    s.modDrift r fun _ => { laws := laws, warmFrom := some s.now }
  | 7 =>
    let ms := s.seqMembers r u
    let hold := ms.foldl (fun a c => max a (s.tgLatNs r c)) 0
    let s := if ms.contains 24 then s.useFree else s
    (s.setVal (TG_SQ_HOLD w (u - 14)) hold).put (TG_SQ_STATE_NOW w (u - 14)) 0
  | _ => s

/-- A unit stops; records that waited for an earlier one leave. -/
def State.tgStop (s : State) (r u : Nat) : State :=
  let w := tgWin r
  let s := s.tgRelease r u true
  let s := ((s.put (TG_U_CTL_ENABLE w u) 0).setVal (TG_U_STATUS w u) 0).modTgu r u fun _ => {}
  match tgKind r u with
  | 2 => s.each (upto 64) fun s b => s.modBand r b fun _ => {}
  | 3 =>
    let s := (s.freePort w (sid 14 (8 + r))).freePort (w + 16) (sid 14 (8 + r))
    ((s.free .sweep r).setTraffic .sweep r 0).modDrift r fun _ => {}
  | 6 => { s with tg := { s.tg with host := none } }
  | 7 => s.put (TG_SQ_STATE_NOW w (u - 14)) 0
  | _ => s

/-- An enabled sequencer names the unit (R267). -/
def State.tgNamed (s : State) (r u : Nat) : Bool :=
  (if r = 4 then [0, 1, 2, 3] else [r]).any fun q => [14, 15].any fun k =>
    decide (u < (if r = 4 then 10 else 14)) && s.seqMember q k (if r = 4 then 16 + u else u)

/-- ARM (R234, R265): 0771h for a CONTINUOUS or disabled unit; no effect on an armed one. -/
def State.tgArm (s : State) (r u : Nat) : State × Nat :=
  let w := tgWin r
  let rf := TG_U_CTL_REASON w u
  if !(s.tgOn r u) || !(s.on (TG_U_CTL_ARM_MODE w u)) then s.answer rf 0x0771
  else if s.on (TG_U_STATUS_ARMED w u) then (s.put rf 0, 0)
  else (((s.modTgu r u fun x => { x with armSince := s.now }).put (TG_U_STATUS_ARMED w u) 1).put rf 0, 0)

/-- A write of TG_U_CTL_u (R234, R265 to R267). -/
def State.tgCtlWrite (s : State) (r u v : Nat) : State × Nat :=
  let w := tgWin r
  let a := TG_U_CTL w u
  let rf := TG_U_CTL_REASON w u
  let was := s.tgOn r u
  let want := decide (bits v 0 0 = 1)
  let v0 := setBits v 6 6 0
  if was && bits (s.changes a v) 4 3 != 0 then s.answer rf 0x0770
  else if was && !want && s.tgNamed r u then s.answer rf 0x0371
  else
    let s1 := s.plainWrite a (setBits v0 0 0 (if was then 1 else 0))
    let c := if !was && want then s1.tgCheck r u else 0
    if c != 0 then s1.answer rf c
    else
      let s2 := if !was && want then ((s1.put (TG_U_CTL_ENABLE w u) 1).tgStart r u).put rf 0
        else if was && !want then (s1.tgStop r u).put rf 0
        else s1.put rf 0
      if bits v 6 6 = 1 then s2.tgArm r u else (s2, 0)

/-- TG_UNIT_ARM: the write of TG_U_CTL_u that sets ARM and leaves its other fields. -/
def execTgUnitArm (p : Fin 5) (r : Fin 5) (u : Fin 16) (s : State) : Host.Outcome State Fault Refusal :=
  .next (if r.val = 4 && decide (9 < u.val) then s
    else s.gatedWrite p (TG_U_CTL (tgWin r) u) fun s => s.tgCtlWrite r u (setBits (s.val (TG_U_CTL (tgWin r) u)) 6 6 1))

/-- Reserved values that a write of a unit's register is refused with 0170h for (Table TG-6). -/
def tgSetBad (name : RegName) (v : Nat) : Bool :=
  match name with
  | .TG_LV_SRC => bits v 25 24 = 3 || bits v 17 16 = 3
  | .TG_MK_SRC => bits v 31 30 = 3 || decide (4 < bits v 18 16)
  | .TG_BP_AVG => decide (10 < bits v 3 0)
  | _ => false

/-- A write of another register of a unit: 0770h while it is enabled (R265), 0170h for a reserved value. -/
def State.tgSetWrite (s : State) (name : RegName) (r u a v : Nat) : State × Nat :=
  let rf := TG_U_CTL_REASON (tgWin r) u
  if s.tgOn r u && s.changes a v != 0 then s.answer rf 0x0770
  else if tgSetBad name v then s.answer rf 0x0170
  else ((s.plainWrite a v).put rf 0, 0)

/-- A write or read of TG_MK_PDATA_u: each access advances I. -/
def State.pdataWrite (s : State) (r u v : Nat) : State × Nat :=
  let f := TG_MK_PADDR_I (tgWin r) (u - 8)
  let rf := TG_U_CTL_REASON (tgWin r) u
  if s.tgOn r u then s.answer rf 0x0770
  else
    let k := (4 * r + (u - 8)) * 8192 + s.get f
    ((({ s with tg := { s.tg with points := kvSetD 0 s.tg.points k (BitVec.ofNat 32 v) } } : State).put f ((s.get f + 1) % 8192)).put rf 0, 0)

def State.pdataRead (s : State) (r u : Nat) : State × Word :=
  let f := TG_MK_PADDR_I (tgWin r) (u - 8)
  (s.put f ((s.get f + 1) % 8192), kvGetD s.tg.points ((4 * r + (u - 8)) * 8192 + s.get f) 0)

/-- A write or read of TG_DR_LAW_DATA: each access advances W. -/
def State.lawWrite (s : State) (r v : Nat) : State × Nat :=
  let f := TG_DR_LAW_ADDR_W (tgWin r)
  let rf := TG_U_CTL_REASON (tgWin r) 13
  if s.tgOn r 13 then s.answer rf 0x0770
  else
    let k := 2048 * r + s.get f
    ((({ s with tg := { s.tg with laws := kvSetD 0 s.tg.laws k (BitVec.ofNat 32 v) } } : State).put f ((s.get f + 1) % 2048)).put rf 0, 0)

def State.lawRead (s : State) (r : Nat) : State × Word :=
  let f := TG_DR_LAW_ADDR_W (tgWin r)
  (s.put f ((s.get f + 1) % 2048), s.lawWord r (s.get f))

/-! ### Source gaps (R259, R267) -/

/-- The stream whose data a unit watches (Table TG-2, R237). -/
def State.tgStream (s : State) (r u : Nat) : BitVec 16 :=
  match tgKind r u with
  | 0 => s.levelStream r u
  | 1 => if s.get (TG_MK_SRC_KIND (tgWin r) (u - 8)) = 2 then densSid (tgWin r) (s.get (TG_MK_SRC_INDEX (tgWin r) (u - 8)) % 4)
      else s.srcStream (tgWin r) (s.maskSrc r u)
  | 2 => s.srcStream (tgWin r) (((s.bandsOn r).map (s.bandSrc r)).headD 0)
  | 3 => s.drStream r
  | 4 => sid 7 (s.get (ST_TG_EX_SRC_CH u))
  | 5 => 0xFFFF
  | 6 => sid 13 0
  | _ => trigSid r

/-- TG_SOURCE_GAP (R259): the unit takes what waits of its source up to its next gap record or reset; for the BAND unit each band
does. -/
def State.tgSourceGap (s : State) (r u : Nat) : State :=
  match tgKind r u with
  | 0 | 1 => s.unitRun r u true
  | 2 => s.each (upto 64) fun s b => s.bandRun r b true
  | 3 => s.drRun r fun s => State.drGapPull r (s.drift r).inq s
  | _ => s

def execTgSourceGap (r : Fin 5) (u : Fin 16) (s : State) : Host.Outcome State Fault Refusal := .next (s.tgSourceGap r u)

/-- The unit takes everything that still waits. -/
def State.tgDrain (s : State) (r u : Nat) : State :=
  match tgKind r u with
  | 0 => ((s.tgu r u).inq.foldl (fun s t => (s.levelTok r u t).1) s).modTgu r u fun x => { x with inq := [] }
  | 1 => ((s.tgu r u).inq.foldl (fun s t => (s.maskTok r u t).1) s).modTgu r u fun x => { x with inq := [] }
  | 2 => s.each (upto 64) fun s b =>
      ((s.band r b).inq.foldl (fun s t => (s.bandTok r b t).1) s).modBand r b fun x => { x with inq := [] }
  | 3 =>
    let l := (s.drift r).inq
    let s := l.foldl (fun s t => s.driftTok r t) s
    let s := s.modDrift r fun x => { x with inq := [] }
    s.each (upto (s.drDone r + 1 - ((s.drift r).next + s.drSpan r))) fun s _ => if s.drReady r then s.drEval r else s
  | _ => s

/-- A unit whose source is disabled (R267) takes what still waits, writes a BLIND record of the time since it could not test, of cause
"input disabled" unless a gap gave another (assumption 53), disables itself and sets REASON to 0370h. -/
def State.tgSourceOff (s : State) (r u : Nat) : State :=
  if !(s.tgOn r u) || s.tgSourceOn r u then s
  else
    let s := s.tgDrain r u
    let b : Option (DevTime × BitVec 16) := match tgKind r u with
      | 2 => (((s.bandsOn r).filterMap fun b => (s.band r b).blind).head?)
      | 3 => (s.drift r).blindFrom.map fun t => (t, BitVec.ofNat 16 ((s.drift r).cause.getD 0xA))
      | _ => (s.tgu r u).blind
    let b := b.getD (s.now, 6)
    let s := s.blindFor r u (s.tgStream r u) b.2.toNat b.1 (nsBetween b.1 s.now)
    (s.tgStop r u).put (TG_U_CTL_REASON (tgWin r) u) 0x0370

/-- Every integrator, plane and trigger unit whose source has been disabled goes with it (R230, R267). -/
def State.sourcesOff (s : State) : State :=
  let s := s.each [6, 7, 8, 9] fun s r => s.each (upto 32) fun s src => s.dcSourceOff r src
  s.each [0, 1, 2, 3, 4] fun s r => s.each (upto (tgUnits r)) fun s u => s.tgSourceOff r u

/-- A register write after which sources may be gone. -/
def State.sourceWrite (s : State) (p a : Nat) (f : State → State × Nat) : State :=
  (s.gatedWrite p a f).sourcesOff

end Sys2Proof.Machine
end

