-- ==== Sys2Proof/Machine/Sources.lean ====
section
/-! DEFINITION. Machine/Sources.lean: the commands that enable or disable a source of samples, spectra or density (R115, R120,
R152, R160, R166, R191, R195, R229): with a source that goes, the integrators, planes and trigger units that read it go too
(R230, R267). -/

namespace Sys2Proof.Machine

def execAfInputEnable (p : Fin 5) (n : Fin 16) (v : Word) (s : State) : Host.Outcome State Fault Refusal :=
  .next (s.sourceWrite p (AF_IN_CTL n) fun s => s.afCtlWrite n v.toNat)

/-- AF_INPUT_DISABLE: the write of AF_IN_CTL_n that clears ENABLE and leaves its other fields. -/
def execAfInputDisable (p : Fin 5) (n : Fin 16) (s : State) : Host.Outcome State Fault Refusal :=
  .next (s.sourceWrite p (AF_IN_CTL n) fun s => s.afCtlWrite n (s.val (AF_IN_CTL n) / 2 * 2))

def execZpEnable (p : Fin 5) (z : Fin 64) (v : Word) (s : State) : Host.Outcome State Fault Refusal :=
  .next (s.sourceWrite p (ZP_CTL z) fun s => s.zpCtlWrite z v.toNat)

/-- ZP_DISABLE: the write of ZP_CTL_z that clears ENABLE. -/
def execZpDisable (p : Fin 5) (z : Fin 64) (s : State) : Host.Outcome State Fault Refusal :=
  .next (s.sourceWrite p (ZP_CTL z) fun s => s.zpCtlWrite z 0)

def execZtuEnable (p : Fin 5) (i : Fin 4) (v : Word) (s : State) : Host.Outcome State Fault Refusal :=
  .next (s.sourceWrite p (ZP_ZTU_CTL (spWin i)) fun s => s.ztuCtlWrite (spWin i) v.toNat)

def execBtEnable (p : Fin 5) (n : Fin 16) (v : Word) (s : State) : Host.Outcome State Fault Refusal :=
  .next (s.sourceWrite p (BT_CTL n) fun s => s.btCtlWrite n v.toNat)

/-- BT_DISABLE: the write of BT_CTL_n that clears ENABLE and leaves its routes. -/
def execBtDisable (p : Fin 5) (n : Fin 16) (s : State) : Host.Outcome State Fault Refusal :=
  .next (s.sourceWrite p (BT_CTL n) fun s => s.btCtlWrite n (s.val (BT_CTL n) / 2 * 2))

def execDcPlEnable (p : Fin 5) (q : Fin 4) (i : Fin 4) (v : Word) (s : State) : Host.Outcome State Fault Refusal :=
  .next (s.sourceWrite p (DC_PL_CTL (spWin q) i) fun s => s.dcPlCtlWrite (spWin q) i v.toNat)

end Sys2Proof.Machine
end

