-- ==== Sys2Proof/Machine/DevRecord.lean ====
section
/-! DEFINITION. Machine/DevRecord.lean: the device record of the boot flash (R509, Table BI-4). -/

namespace Sys2Proof.Machine

/-- The present entry: the one with the highest ENTRY_SEQ of either sector (R509). -/
def State.devEntry (s : State) : Option DevEntry :=
  (s.im.sector0 ++ s.im.sector1).foldl (fun a e => match a with
    | some b => if b.seq < e.seq then some e else a
    | none => some e) none

/-- The present state of the record; that of an empty record is all clear. -/
def State.devRec (s : State) : DevRec := (s.devEntry.map fun e => e.rec_).getD {}

/-- Append an entry with the whole state (R509): a sector takes 1,024 entries, then the other is erased and started. -/
def State.devAppend (s : State) (event : Nat) (f : DevRec → DevRec) : State :=
  let e : DevEntry := ⟨event, (s.devEntry.map fun e => e.seq + 1).getD 0, f s.devRec⟩
  let cur := if s.im.inSector1 then s.im.sector1 else s.im.sector0
  if cur.length < 1024 then
    { s with im := { s.im with
        sector0 := if s.im.inSector1 then s.im.sector0 else cur ++ [e]
        sector1 := if s.im.inSector1 then cur ++ [e] else s.im.sector1 } }
  else
    { s with im := { s.im with
        sector0 := if s.im.inSector1 then [e] else s.im.sector0
        sector1 := if s.im.inSector1 then s.im.sector1 else [e]
        inSector1 := !s.im.inSector1 } }

/-- STATE byte of an entry (Table BI-4). -/
def DevRec.stateByte (r : DevRec) : Nat :=
  r.active + (if r.armed then 2 else 0) + (if r.attempted then 4 else 0) + (if r.rollback then 8 else 0)
    + (if r.holdNext then 16 else 0)

/-- The 64 bytes of an entry. -/
def devBytes (e : DevEntry) : List Byte :=
  let b := [0x44, 0x52] ++ leBytes 1 e.event ++ leBytes 1 e.rec_.stateByte ++ leBytes 4 e.seq
    ++ leBytes 4 e.rec_.lastBooted.toNat ++ leBytes 4 e.rec_.xoAge.toNat ++ List.replicate 44 0
  b ++ leBytes 4 (crc32c b)

/-- The ageing entry (R510): ST_XO_AGE was updated. -/
def State.appendAgeing (s : State) : State := s.devAppend 4 fun r => { r with xoAge := s.reg ST_XO_AGE }

end Sys2Proof.Machine
end

