-- ==== Sys2Proof/Machine/Events.lean ====
section
/-! DEFINITION. Machine/Events.lean: the event timers (chapter 03, R75 to R102). -/

namespace Sys2Proof.Machine

/-- Channel c beyond its registers. -/
def State.etc (s : State) (c : Nat) : EtCh := kvGetD s.et.chans c {}

/-- Change a channel. -/
def State.modEt (s : State) (c : Nat) (f : EtCh → EtCh) : State :=
  { s with et := { s.et with chans := kvMod {} s.et.chans c f } }

/-- Interval unit k beyond its registers, and a change of one. -/
def State.iv (s : State) (k : Nat) : IvSt := kvGetD s.et.units k {}
def State.modIv (s : State) (k : Nat) (f : IvSt → IvSt) : State :=
  { s with et := { s.et with units := kvMod {} s.et.units k f } }

/-- The channel's EVNT stream (R75). -/
def evntSid (c : Nat) : BitVec 16 := sid 7 c

/-- The channel runs in STAMP or FREQUENCY mode (R78). -/
def State.etRuns (s : State) (c : Nat) : Bool :=
  s.on (ST_ET_CTL_ENABLE c) && s.get (ST_ET_CTL_MODE c) != 0 && (s.server 1 1).isSome

/-! ### Entries and queues (R82 to R88) -/

/-- Flag bits of an entry other than GAP (Table ET-4). -/
def etFlags (edge coast unresolved order noStop : Bool) : Nat :=
  let b (k : Nat) (x : Bool) : Nat := if x then 2 ^ k else 0
  128 + b 0 edge + b 1 coast + b 2 unresolved + b 3 order + b 4 noStop

/-- The 16 bytes of an entry. -/
def etBytes (c : Nat) (e : EtEntry) : List Byte :=
  leBytes 10 e.time.toNat ++ leBytes 1 (e.kind * 32 + c) ++ leBytes 1 e.flags ++ leBytes 4 e.value

/-- A GAP entry: cause 1 suppressed edges, 2 back-pressure, 3 time step. -/
def etGap (t : DevTime) (cause n : Nat) : EtEntry := ⟨t, 5, 128 + cause, min n 0xFFFFFFFF⟩

/-- The device-wide gap cause of an entry's cause (R83, Table QU-3). -/
def etCause (c : Nat) : Nat := if c = 1 then 2 else if c = 2 then 1 else 3

/-- The queue of a channel; ST_ET_QLEVEL follows. -/
def State.setEtQueue (s : State) (c : Nat) (q : List EtEntry) : State :=
  (s.modEt c fun x => { x with queue := q }).put (ST_ET_QLEVEL_LEVEL c) q.length

/-- Put entries into the queue; the first into an empty queue begins a frame (R82). -/
def State.etPush (s : State) (c : Nat) (l : List EtEntry) : State :=
  let x := s.etc c
  (s.setEtQueue c (x.queue ++ l)).modEt c fun y => { y with
    lastTime := (l.getLast?.map fun e => e.time).getD y.lastTime
    frameAt := if x.queue.isEmpty then some s.now else y.frameAt }

/-- Space returned: the GAP entry of cause back-pressure (R88). Its TIME is that of the entry it follows (Table ET-5). -/
def State.etSpace (s : State) (c : Nat) : State :=
  let x := s.etc c
  if x.lost = 0 || 4096 ≤ x.queue.length then s
  else (s.etPush c [etGap x.lastTime 2 x.lost]).modEt c fun y => { y with lost := 0 }

def execEtQueueSpaceReturn (c : Fin 32) (s : State) : Host.Outcome State Fault Refusal := .next (s.etSpace c)

/-- Write entries that stand together (R83), or discard and count them when the queue has no room for all (R88). -/
def State.etWriteAll (s : State) (c : Nat) (l : List EtEntry) : State :=
  let s := s.etSpace c
  if 4096 < (s.etc c).queue.length + l.length then
    (s.count (ST_ET_DROPPED c) l.length).modEt c fun x => { x with lost := x.lost + l.length }
  else s.etPush c l

/-- Write an entry, or discard and count it when the queue is full (R88). -/
def State.etWrite (s : State) (c : Nat) (e : EtEntry) : State := s.etWriteAll c [e]

/-- Remove the queue's first `n` entries. -/
def State.etPop (s : State) (c n : Nat) : State :=
  (s.setEtQueue c ((s.etc c).queue.drop n)).modEt c fun x => { x with popped := x.popped + n }

/-- A read of ST_ET_QW0 (R86, R87). -/
def State.etQw0Read (s : State) (p c : Nat) : State × Word :=
  let x := s.etc c
  let head := if s.on (ST_ET_CTL_ROUTE c) then none else x.queue.head?
  let s : State := { s with et := { s.et with latch := kvPut s.et.latch (32 * p + c) (head.map fun e => (e, x.popped)) } }
  (s, match head with | some e => BitVec.ofNat 32 (fromLe ((etBytes c e).take 4)) | none => 0)

/-- Word k of a path's slot. -/
def State.etSlotWord (s : State) (p c k : Nat) : Word :=
  match kvGetD s.et.latch (32 * p + c) none with
  | some e => BitVec.ofNat 32 (fromLe (((etBytes c e.1).drop (4 * k)).take 4))
  | none => 0

/-- A read of ST_ET_QW3 (R86). -/
def State.etQw3Read (s : State) (p c : Nat) : State × Word :=
  let v := s.etSlotWord p c 3
  match kvGetD s.et.latch (32 * p + c) none with
  | some e =>
    if !(s.on (ST_ET_CTL_ROUTE c)) && !(s.etc c).queue.isEmpty && e.2 = (s.etc c).popped then (s.etPop c 1, v) else (s, v)
  | none => (s, v)

def execEtQw0Read (p : Fin 5) (c : Fin 32) (s : State) : Host.Outcome State Fault Refusal :=
  .next (s.readOut p (ST_ET_QW c 0) fun s => s.etQw0Read p c)

def execEtQw3Read (p : Fin 5) (c : Fin 32) (s : State) : Host.Outcome State Fault Refusal :=
  .next (s.readOut p (ST_ET_QW c 3) fun s => s.etQw3Read p c)

/-- Markers placed before the first entry at or after their time (R84), and those that wait on; `base` entries were removed
before the first of `q`. -/
def placeEtMarkers (l : List EtMark) (base : Nat) (q : List EtEntry) : List Marker × List EtMark :=
  l.foldl (fun a m =>
    match (q.zipIdx.find? fun p => decide (m.from_ ≤ base + p.2) && tLe m.at_ p.1.time) with
    | some p => (a.1 ++ [{ m.m with offset := BitVec.ofNat 32 p.2 }], a.2)
    | none => (a.1, a.2 ++ [m])) ([], [])

/-- Entries of the next frame: up to 4,096 before the next GAP entry, a FREQ never without its FREQ_END (R82, R83). -/
def etFrameEntries (q : List EtEntry) : List EtEntry :=
  let l := (q.takeWhile fun e => e.kind != 5).take 4096
  match l.getLast? with
  | some e => if e.kind = 2 then l.dropLast else l
  | none => l

/-- The frame being filled closes (R82): it holds 4,096 entries, or 10 us have passed since its first entry; a GAP entry, which
becomes a gap record between frames (R83), closes it too. -/
def State.etFrameDue (s : State) (c : Nat) : Bool :=
  let x := s.etc c
  (match x.frameAt with
   | some t => tLe (tAdd t (usTicks 10)) s.now
   | none => false)
  || decide (4096 ≤ x.queue.length) || x.queue.any fun e => e.kind = 5

/-- The channel's EVNT stream takes frames: routed, open, not stopped, its output buffer not full. -/
def State.evntOpen (s : State) (c : Nat) : Bool :=
  let st := s.stream (evntSid c)
  s.on (ST_ET_CTL_ROUTE c) && st.opened && !st.full && !s.stoppedAll && !(s.flow.stopped.contains (evntSid c).toNat)

/-- ET_FRAME_CLOSE (R82, R83, R85): a frame of the queue's first entries leaves, then the GAP entries that follow it leave
as gap records. While the stream takes no frame the entries stay in the queue. -/
def State.etFrame (s : State) (c : Nat) : State :=
  if !(s.evntOpen c) || !(s.etFrameDue c) then s
  else
    let x := s.etc c
    let l := etFrameEntries x.queue
    let s := match l with
      | [] => s
      | e :: _ =>
        let ms := placeEtMarkers x.markers x.popped l
        ((s.etPop c l.length).modEt c fun y => { y with markers := ms.2 }).sendFrame (evntSid c) l.length {
          region := 1, time := e.time, format := 0x0900, markers := ms.1, payload := l.flatMap (etBytes c) }
    let g := (s.etc c).queue.takeWhile fun e => e.kind = 5
    let s := s.each g fun s e => s.gap (evntSid c) e.time e.value (etCause (e.flags % 16))
    ((s.etPop c g.length).modEt c fun y => { y with
      frameAt := if y.queue.isEmpty then none else some s.now }).etSpace c

def execEtFrameClose (c : Fin 32) (s : State) : Host.Outcome State Fault Refusal := .next (s.etFrame c)

/-! ### Edges (R77, R89, R90) -/

/-- The stamp of an edge in bin `b` of the timebase cycle that begins at `t0` (R77): the start of the bin, less the
channel's internal delay, rounded down to 2^-48 s. -/
def State.etStamp (s : State) (c : Nat) (t0 : DevTime) (b : Nat) : DevTime :=
  let w := ((s.etBins c).take b).foldl ratioAdd ⟨0, 1⟩
  let ps := ratioSub (ratioMul w (ratio 1 4096)) (ratioMul (s.etDelay c) (ratio 1 256))
  tAddI t0 (ratioFloor (ratioMul ps (ratio (2 ^ 48 : Nat) 1000000000000)))

/-- The edge is of a selected slope (Table ET-3). -/
def State.etSelected (s : State) (c : Nat) (falling : Bool) : Bool :=
  match s.get (ST_ET_CTL_SLOPE c) with
  | 0 => !falling
  | 1 => falling
  | _ => true

/-- 2.5 ns lie between the two times (R89). -/
def deadOver (a b : DevTime) : Bool := decide (25 * 2 ^ 48 ≤ tDiff b a * 10000000000)

/-- The device time of whole microsecond `n`, rounded up to 2^-48 s: what is at or after it is so compared. -/
def usTime (n : Nat) : DevTime := BitVec.ofNat 80 (ceilDiv (n * 2 ^ 48) 1000000)

/-- The first whole microsecond at or after `t`, and the last one at or before it. -/
def usCeil (t : DevTime) : Nat := ceilDiv (t.toNat * 1000000) (2 ^ 48)
def usFloor (t : DevTime) : Nat := t.toNat * 1000000 / 2 ^ 48

/-- A stamp reaches the interval units that name its channel and edge (R91 to R95, R100). -/
def State.ivStamp (s : State) (c : Nat) (falling : Bool) (t : DevTime) : State :=
  s.each ((upto 16).filter fun k => s.on (ST_IV_CTL_ENABLE k)) fun s k =>
    let w := nsTicks (s.val (ST_IV_WINDOW k))
    let s := if s.get (ST_IV_CTL_STOP_CH k) = c && s.on (ST_IV_CTL_STOP_EDGE k) = falling then
        s.modIv k fun x => { x with stops := (x.stops.filter fun q => tLt t (tAdd q (2 * w))) ++ [t] }
      else s
    if s.get (ST_IV_CTL_START_CH k) = c && s.on (ST_IV_CTL_START_EDGE k) = falling then
      let x := s.iv k
      let spans := match x.stepAt with | some q => tLe q t && tLt t (tAdd q w) | none => false
      if 16 ≤ x.starts.length || spans then s.count (ST_IV_ABANDONED k) 1
      else s.modIv k fun x => { x with starts := x.starts ++ [t] }
    else s

/-- The EXTERNAL units on channel c could not test from `a` to `b`, because their source carries a gap of device-wide cause `cause`:
BLIND records (R259). -/
def State.extBlind (s : State) (c cause : Nat) (a b : DevTime) : State :=
  s.each ((upto 8).filter fun u => s.tgOn 4 u && s.get (ST_TG_EX_SRC_CH u) = c) fun s u =>
    s.blindFor 4 u (evntSid c) cause a (nsBetween a b)

/-- An edge is stamped in STAMP mode (R89). -/
def State.etStampEdge (s : State) (c : Nat) (falling : Bool) (t : DevTime) : State :=
  let n := (s.etc c).since
  let s := match (s.etc c).deadFrom with
    | some a => s.extBlind c 2 a t
    | none => s
  let s := s.modEt c fun x => { x with lastEdge := some t, since := 0, deadFrom := none }
  let s := if s.on (ST_ET_CTL_STAMP_OUT c) then s.etWrite c ⟨t, 0, etFlags falling (s.coastAt t) false false false, 0⟩ else s
  let s := if n = 0 then s else s.etWrite c (etGap t 1 n)
  (s.ivStamp c falling t).tgStamp c (if falling then 1 else 0) t

/-- Write FREQ and FREQ_END (R96, R97): each carries the slope of its own edge. -/
def State.etFreq (s : State) (c n : Nat) (a b : DevTime) (fa fb coast : Bool) : State :=
  if s.on (ST_ET_CTL_STAMP_OUT c) then
    s.etWriteAll c [⟨a, 2, etFlags fa coast false false false, n % 2 ^ 32⟩,
      ⟨b, 3, etFlags fb coast false false false, n / 2 ^ 32⟩]
  else s

/-- The gate boundary `b` passes (R96, R97): the first one begins the first gate. At the end of a gate with two selected edges
or more its count waits for the closing edge; one with fewer gives FREQ and FREQ_END of the gate-end time and count 0, whose
EDGE bit the spec leaves open: 0 (DESIGN CHOICE, assumption 34). A GATE_US written meanwhile counts from here
(assumption 34). -/
def State.etBoundary (s : State) (c b : Nat) : State :=
  let x := s.etc c
  let next (y : EtCh) : EtCh := { y with bound := some (b + max 1 (s.val (ST_ET_GATE c))), begun := true, inGate := 0 }
  if !x.begun then s.modEt c next
  else if 2 ≤ x.inGate then s.modEt c fun y => { next y with waiting := true }
  else
    let t := usTime b
    (s.etFreq c 0 t t false false (s.coastAt t)).modEt c fun y => { next y with
      gate := if y.inGate = 1 then none else y.gate }

/-- The boundaries up to `t` pass, at most `k` of them. -/
def State.etRoll (s : State) (c : Nat) (t : DevTime) : Nat → State
  | 0 => s
  | k + 1 => match (s.etc c).bound with
    | some b => if tLe (usTime b) t then (s.etBoundary c b).etRoll c t k else s
    | none => s

/-- Boundaries of the channel that lie at or before `t`. -/
def State.etPassed (s : State) (c : Nat) (t : DevTime) : Nat :=
  match (s.etc c).bound with
  | some b => if tLe (usTime b) t then (tDiff t (usTime b)).toNat * 1000000 / 2 ^ 48 / max 1 (s.val (ST_ET_GATE c)) + 1 else 0
  | none => 0

/-- FREQ_GATE_EMPTY_END (R97): a gate has ended with fewer than two selected edges. -/
def State.etGateEmpty (s : State) (c : Nat) : State :=
  let x := s.etc c
  match x.bound with
  | none => s
  | some b =>
    if s.etRuns c && s.get (ST_ET_CTL_MODE c) = 2 && x.begun && decide (x.inGate < 2) && tLe (usTime b) s.now then
      s.etBoundary c b
    else s

def execFreqGateEmptyEnd (c : Fin 32) (s : State) : Host.Outcome State Fault Refusal := .next (s.etGateEmpty c)

/-- A selected edge in FREQUENCY mode (R96, R100): the first at or after a boundary closes one gate and opens the next. -/
def State.etFreqEdge (s : State) (c : Nat) (falling : Bool) (t : DevTime) : State :=
  let s := s.etRoll c t (s.etPassed c t)
  let x := s.etc c
  let co := s.coastAt t
  if !x.begun then s
  else if x.inGate = 0 then
    let s := match x.gate with
      | some g => if x.waiting then s.etFreq c (g.n + 1) g.first t g.falling falling (g.coast || co) else s
      | none => s
    s.modEt c fun y => { y with gate := some ⟨t, falling, 0, co⟩, waiting := false, inGate := 1 }
  else s.modEt c fun y => { y with
    gate := y.gate.map fun g => { g with n := g.n + 1, coast := g.coast || co }
    inGate := y.inGate + 1 }

/-- The comparator of input c at `v` microvolts, V(EVP_P) - V(EVP_N) or V(EVL) (R76, R620): a precision input goes high above
LEVEL + HYST/2 and low below LEVEL - HYST/2; a logic input is high at VIH, low at VIL, and what it shows between them is not
stated: a free bit. -/
def State.etLevel (s : State) (c : Nat) (v : Int) : State × Bool :=
  if c < 16 then
    let level := 500 * s.getS (ST_ET_THRESH_LEVEL c)
    let half : Int := 1000 * s.get (ST_ET_THRESH_HYST c)
    (s, decide (level + half < v) || ((s.etc c).high && !(decide (v < level - half))))
  else if 1170000 ≤ v then (s, true)
  else if v ≤ 630000 then (s, false)
  else (s.useFree, s.freeNow % 2 = 1)

/-- The active level of channel c (R90): high, or low for SLOPE falling. -/
def State.etActive (s : State) (c : Nat) (high : Bool) : Bool := high != decide (s.get (ST_ET_CTL_SLOPE c) = 1)

/-- The comparator of input c changes to `high` (R77, R78, R89, R90, R96, R99), at bin `b` of the timebase cycle that begins at
`t0`. -/
def State.etEdge (s : State) (c : Nat) (falling : Bool) (t0 : DevTime) (b : Nat) : State :=
  let t := s.etStamp c t0 b
  let s := s.modEt c fun x => { x with high := !falling, levelFrom := t }
  let s := if s.etActive c (!falling) then s
    else (s.modEt c fun x => { x with stuck := false }).endLevel 1 .event c
  if !(s.etRuns c) || !(s.etSelected c falling) then s
  else
    let lo := ST_ET_EDGES_LO c
    let hi := ST_ET_EDGES_HI c
    let s := s.setPair lo hi (s.pair lo hi + 1)
    let x := s.etc c
    let inBlind := match x.blind with | some q => tLt t q.1 | none => false
    if inBlind then
      (s.count (ST_ET_SUPPRESSED c) 1).modEt c fun y => { y with
        lastEdge := some t, blind := y.blind.map fun q => (q.1, q.2 + 1) }
    else if s.get (ST_ET_CTL_MODE c) = 2 then s.etFreqEdge c falling t
    else
      let ok := match x.lastEdge with | some p => deadOver p t | none => true
      if ok then s.etStampEdge c falling t
      else (s.count (ST_ET_SUPPRESSED c) 1).modEt c fun y => { y with
          lastEdge := some t, since := y.since + 1, deadFrom := some (y.deadFrom.getD t) }

/-- The input voltage is `v` microvolts from that bin on (R76): an edge when the comparator changes. -/
def State.etInput (s : State) (c : Nat) (v : Int) (t0 : DevTime) (b : Nat) : State :=
  let l := s.etLevel c v
  if l.2 = (s.etc c).high then l.1 else l.1.etEdge c (!l.2) t0 b

def execEtEdge (c : Fin 32) (v : Int) (t0 : DevTime) (b : Fin 64) (s : State) : Host.Outcome State Fault Refusal :=
  .next (s.etInput c v t0 b)

/-- FREQ_GATE_BOUNDARY (R96): an edge at or after the gate boundary of a FREQUENCY channel. -/
def execFreqGateBoundary (c : Fin 32) (v : Int) (t0 : DevTime) (b : Fin 64) (s : State) : Host.Outcome State Fault Refusal :=
  .next (
    let due := match (s.etc c).bound with | some q => tLe (usTime q) (s.etStamp c t0 b) | none => false
    if s.get (ST_ET_CTL_MODE c) = 2 && due then s.etInput c v t0 b else s)

/-- ET_STUCK_TIMEOUT (R90). The EDGE bit of a STUCK entry is not given: 1 for an active low level (DESIGN CHOICE,
assumption 35). -/
def State.etStuck (s : State) (c : Nat) : State :=
  let x := s.etc c
  let n := s.val (ST_ET_STUCK c)
  let t := tAdd x.levelFrom (nsTicks (100 * n))
  if s.etRuns c && n != 0 && s.etActive c x.high && !x.stuck && tLe t s.now then
    ((s.modEt c fun y => { y with stuck := true }).etWrite c ⟨t, 4, etFlags (!x.high) (s.coastAt t) false false false, 0⟩).beginLevel
      1 .event c
  else s

def execEtStuckTimeout (c : Fin 32) (s : State) : Host.Outcome State Fault Refusal := .next (s.etStuck c)

/-! ### Channel and unit control (R78 to R80, R92) -/

/-- Disabling or reconfiguring a channel disables the interval units that name it (R92). -/
def State.ivDrop (s : State) (c : Nat) : State :=
  s.each ((upto 16).filter fun k => s.on (ST_IV_CTL_ENABLE k)
      && (s.get (ST_IV_CTL_START_CH k) = c || s.get (ST_IV_CTL_STOP_CH k) = c)) fun s k =>
    ((s.put (ST_IV_CTL_ENABLE k) 0).put (ST_IV_CTL_REASON k) 0x0320).modIv k fun _ => {}

/-- A channel starts, or goes on in another mode or with another slope: dead time and gates from now, the level time-out of a
channel that starts too. Entries that wait in the queue stay; edges suppressed since the last stamp are dropped from the next
GAP entry: the spec does not say (DESIGN CHOICE, assumption 36). The blind window of a STEP goes on (R99). -/
def State.etStart (s : State) (c : Nat) (ran : Bool) : State :=
  s.modEt c fun x => { x with
    lastEdge := none, since := 0, deadFrom := none, gate := none, waiting := false, begun := false, inGate := 0
    levelFrom := if ran then x.levelFrom else s.now
    stuck := x.stuck && s.etActive c x.high
    bound := if s.get (ST_ET_CTL_MODE c) = 2 then some (usCeil s.now) else none }

/-- A write of ST_ET_CTL_n (Table ET-3). -/
def State.etCtlWrite (s : State) (c v : Nat) : State × Nat :=
  let a := ST_ET_CTL c
  let rf := ST_ET_CTL_REASON c
  if bits v 11 10 = 3 || bits v 9 8 = 3 then s.answer rf 0x0120
  else if bits v 0 0 = 1 && !(s.on (ST_ET_CTL_ENABLE c)) && s.dutyDead a then s.answer rf 0x080E
  else
    let was := s.etRuns c
    let chg := s.changes a v
    let s := (s.plainWrite a v).put rf 0
    let re := bits chg 11 8 != 0 || bits chg 0 0 = 1
    let s := if chg != 0 then s.ivDrop c else s
    let s := if s.etRuns c && re then s.etStart c was else s
    let s := if s.etRuns c && s.on (ST_ET_CTL_ROUTE c) then s.openStream (evntSid c)
      else if was || bits chg 7 7 = 1 then s.closeStream (evntSid c) else s
    (s, 0)

def execEtCtlWrite (p : Fin 5) (c : Fin 32) (v : Word) (s : State) : Host.Outcome State Fault Refusal :=
  .next (s.sourceWrite p (ST_ET_CTL c) fun s => s.etCtlWrite c v.toNat)

/-- A write of ST_ET_THRESH_n (R80, 0121h), ST_ET_GATE_n (0122h) or ST_ET_STUCK_n: a changed channel ends the interval units
that name it (R92). -/
def State.etThreshWrite (s : State) (c v : Nat) : State × Nat :=
  if 16 ≤ c then (s, 0)
  else if 2000 < (signed 16 v).natAbs then s.answer (ST_ET_CTL_REASON c) 0x0121
  else ((s.ifThen (s.changes (ST_ET_THRESH c) v != 0) fun s => s.ivDrop c).plainWrite (ST_ET_THRESH c) v, 0)
def State.etGateWrite (s : State) (c v : Nat) : State × Nat :=
  if v < 1 || 1000000000 < v then s.answer (ST_ET_CTL_REASON c) 0x0122
  else ((s.ifThen (s.changes (ST_ET_GATE c) v != 0) fun s => s.ivDrop c).plainWrite (ST_ET_GATE c) v, 0)
def State.etStuckWrite (s : State) (c v : Nat) : State × Nat :=
  ((s.ifThen (s.changes (ST_ET_STUCK c) v != 0) fun s => s.ivDrop c).plainWrite (ST_ET_STUCK c) v, 0)

/-- A named edge is among the channel's selected slopes. -/
def State.ivEdgeOk (s : State) (c : Nat) (falling : Bool) : Bool := s.etSelected c falling

/-- The check of an interval unit's enable (R92). -/
def State.ivCheck (s : State) (k : Nat) : Nat :=
  let a := s.get (ST_IV_CTL_START_CH k)
  let b := s.get (ST_IV_CTL_STOP_CH k)
  firstFail [
    (!(s.chStamps a) || !(s.chStamps b), 0x0320),
    (!(s.etSelected a (s.on (ST_IV_CTL_START_EDGE k))) || !(s.etSelected b (s.on (ST_IV_CTL_STOP_EDGE k))), 0x0321)]

/-- A write of ST_IV_CTL_k. A change of channels or edges of a running unit is not judged by the spec: it is accepted, and the unit
goes on with the new ones (DESIGN CHOICE, assumption 37). -/
def State.ivCtlWrite (s : State) (k v : Nat) : State × Nat :=
  s.enableWrite (ST_IV_CTL k) v (ST_IV_CTL_ENABLE k) (ST_IV_CTL_REASON k) (fun _ => 0) (·.ivCheck k)
    (fun s => s.modIv k fun _ => {}) (fun s => s.modIv k fun _ => {})

def execIvEnable (p : Fin 5) (k : Fin 16) (v : Word) (s : State) : Host.Outcome State Fault Refusal :=
  .next (s.gatedWrite p (ST_IV_CTL k) fun s => s.ivCtlWrite k v.toNat)

/-- A write of ST_IV_WINDOW_k (0123h). -/
def State.ivWindowWrite (s : State) (k v : Nat) : State × Nat :=
  if v < 10 || 10000000 < v then s.answer (ST_IV_CTL_REASON k) 0x0123 else (s.plainWrite (ST_IV_WINDOW k) v, 0)

/-! ### Intervals (R93, R94) -/

/-- The nearest stop within the window of a start: when two are equally near, the later (R93). -/
def nearestStop (a : DevTime) (w : Nat) (l : List DevTime) : Option DevTime :=
  l.foldl (fun best t =>
    let d := (tDiff t a).natAbs
    if w < d then best
    else match best with
      | none => some t
      | some b => if d < (tDiff b a).natAbs || (d = (tDiff b a).natAbs && tLt b t) then some t else best) none

/-- The first of the earliest of a list of times. -/
def firstTime : List DevTime → Option DevTime
  | [] => none
  | a :: l => match firstTime l with
    | some b => if tLt b a then some b else some a
    | none => some a

/-- An interval in bins of 1 / 204.8 GHz. The bins that calibration gives are unequal, and the spec does not say how a difference
of stamps becomes a whole number of them: the nearest one (DESIGN CHOICE, assumption 38). -/
def binsBetween (a b : DevTime) : Int := ratioRound (ratio (tDiff b a * 204800000000) (2 ^ 48))

/-- The stamps lie 1 bin or less apart (R94): as each is rounded down to 2^-48 s (R77), one bin of 1,374.39 units shows as 1,374
or 1,375 (DEDUCED, assumption 38). -/
def withinBin (a b : DevTime) : Bool := decide ((tDiff b a).natAbs ≤ 1375)

/-- IV_WINDOW_EXPIRE (R93, R94): the earliest start is resolved. -/
def State.ivExpire (s : State) (k : Nat) : State :=
  let x := s.iv k
  match firstTime x.starts with
  | none => s
  | some a =>
    let w := nsTicks (s.val (ST_IV_WINDOW k))
    if !(s.on (ST_IV_CTL_ENABLE k)) || tLt s.now (tAdd a w) then s
    else
      let c := s.get (ST_IV_CTL_START_CH k)
      let e := s.on (ST_IV_CTL_START_EDGE k)
      match nearestStop a w x.stops with
      | none =>
        (s.modIv k fun y => { y with starts := y.starts.erase a }).etWrite c
          ⟨a, 1, etFlags e (s.coastAt a) false false true, 0⟩
      | some b =>
        let n := binsBetween a b
        let coast := s.coastAt a || s.coastAt b
        (s.modIv k fun y => { y with starts := y.starts.erase a, stops := y.stops.erase b }).etWrite c
          (if withinBin a b then ⟨a, 1, etFlags e coast true false false, 0⟩
           else ⟨a, 1, etFlags e coast false (decide (n < 0)) false, unsign 32 n⟩)

def execIvWindowExpire (k : Fin 16) (s : State) : Host.Outcome State Fault Refusal := .next (s.ivExpire k)

/-! ### Time steps (R84, R99 to R101) -/

/-- A marker at the event-timer block goes to every EVNT stream. -/
def State.etMarker (s : State) (m : Marker) : State :=
  s.each ((upto 32).filter fun c => s.etRuns c && s.on (ST_ET_CTL_ROUTE c)) fun s c =>
    s.modEt c fun x => { x with markers := x.markers ++ [⟨m.time, 0, m⟩] }

/-- Resolve the starts of unit k whose window is over, at most `n`. -/
def State.ivResolve (s : State) (k : Nat) : Nat → State
  | 0 => s
  | n + 1 => (s.ivExpire k).ivResolve k n

/-- Resolve every interval whose window is over: before device time changes. -/
def State.ivSettle (s : State) : State :=
  s.each (upto 16) fun s k => s.ivResolve k (s.iv k).starts.length

/-- A channel's instants in the new time. Entries written before stay before the markers that wait. -/
def EtCh.shift (x : EtCh) (d : Int) : EtCh :=
  { x with
    lastTime := tAddI x.lastTime d
    frameAt := x.frameAt.map fun t => tAddI t d
    lastEdge := x.lastEdge.map fun t => tAddI t d
    deadFrom := x.deadFrom.map fun t => tAddI t d
    levelFrom := tAddI x.levelFrom d
    bound := x.bound.map fun b => usCeil (tAddI (usTime b) d)
    gate := x.gate.map fun g => { g with first := tAddI g.first d }
    blind := x.blind.map fun q => (tAddI q.1 d, q.2)
    markers := x.markers.map fun m => { m with at_ := tAddI m.at_ d, from_ := x.popped + x.queue.length } }

/-- A unit's instants in the new time. -/
def IvSt.shift (x : IvSt) (d : Int) : IvSt :=
  { starts := x.starts.map fun t => tAddI t d
    stops := x.stops.map fun t => tAddI t d
    stepAt := x.stepAt.map fun t => tAddI t d }

/-- Every instant the event timers remember, in the new time (R101: open intervals and gates continue). -/
def EtSt.shift (x : EtSt) (d : Int) : EtSt :=
  { x with
    chans := x.chans.map fun p => (p.1, p.2.shift d)
    units := x.units.map fun p => (p.1, p.2.shift d) }

/-- A STEP at `t`, in the new time (R99, R100): edges are counted and not stamped for 2 us, open gates and intervals end
without entries. Gates run again from the last whole microsecond at or before the end of the 2 us, so that the first edge
after it opens one (DESIGN CHOICE, assumption 34). -/
def State.etStep (s : State) (t : DevTime) : State :=
  let e := tAdd t (usTicks 2)
  let s := s.each (upto 32) fun s c =>
    s.modEt c fun x => { x with
      blind := some (e, 0), gate := none, waiting := false, begun := false, inGate := 0
      bound := x.bound.map fun _ => usFloor e }
  s.each (upto 16) fun s k =>
    (s.count (ST_IV_ABANDONED k) (s.iv k).starts.length).modIv k fun _ => { stepAt := some t }

/-- A whole-second load (R101): a GAP record of length 0 in each EVNT stream. -/
def State.etLoad (s : State) (t : DevTime) : State :=
  s.each ((upto 32).filter s.etRuns) fun s c =>
    (if s.on (ST_ET_CTL_ROUTE c) then s.etWrite c (etGap t 3 0) else s).extBlind c 3 t t

/-- ET_BLIND_END (R99): the GAP entry of the blind window of a running channel. -/
def State.etBlindEnd (s : State) (c : Nat) : State :=
  match (s.etc c).blind with
  | none => s
  | some q =>
    if tLt s.now q.1 then s
    else
      let s := s.modEt c fun x => { x with blind := none }
      if s.etRuns c then (s.etWrite c (etGap q.1 3 q.2)).extBlind c 3 (tAddI q.1 (-(usTicks 2 : Int))) q.1 else s

def execEtBlindEnd (c : Fin 32) (s : State) : Host.Outcome State Fault Refusal := .next (s.etBlindEnd c)

end Sys2Proof.Machine
end

