-- ==== Sys2Proof/Machine/Flow.lean ====
section
/-! DEFINITION. Machine/Flow.lean: markers at the first stages, epochs at consumers, back-pressure and the exits (chapter 01,
R23 to R37, R582, R583). -/

namespace Sys2Proof.Machine

/-! ### Markers -/

/-- Request a precedes request b before the same sample (R28). -/
def MarkerReq.before (a b : MarkerReq) : Bool := decide (a.type.rank < b.type.rank)

/-- The due request of a stage that comes first in the order of R28; of equal type the oldest. -/
def firstDue (stage : FirstStage) (t : DevTime) : List MarkerReq → Option MarkerReq
  | [] => none
  | q :: l =>
    let r := firstDue stage t l
    if q.stage = stage && (q.now || tLe q.time t) then
      match r with
      | none => some q
      | some r => if r.before q then some r else some q
    else r

/-- Index before which an AF output stage may insert a marker now: a sample of the frame being filled that has been taken. -/
def State.insertLimit (s : State) (n : Nat) : Int :=
  let x := s.inp n
  let lim := min (instAt x.fs (tAdd (s.inputNow n) 1)) (x.nextInst + 32768)
  match x.endAt with
  | some e => min lim (instAt x.fs e)
  | none => lim

/-- A marker that CB's input stage inserted stands in every XSPC and BEAM stream (R304), and acts at the beam it targets (R309). -/
def CeSt.mark (c : CeSt) (m : Marker) : CeSt :=
  { c with
    pairs := c.pairs.map fun p => (p.1, { p.2 with markers := p.2.markers ++ [m] })
    beams := c.beams.map fun p => (p.1, { p.2 with
      markers := p.2.markers ++ [m]
      acts := if m.type = .calRamp && m.target = sid 6 p.1 then p.2.acts ++ [m] else p.2.acts }) }

/-- MARKER_INSERT (R24, R28) at the CB input stage or the event timers: before the sample of time `t`, at index `off` of the frame
being filled, the stage inserts the first due request; LATE when the sample's time exceeds the requested time by more than one
sample period. -/
def State.markerInsert (s : State) (stage : FirstStage) (t : DevTime) (p : Nat) (off : Nat) : State :=
  match firstDue stage t s.flow.requests with
  | none => s
  | some q =>
    let late := decide ((p : Int) < tDiff t q.time)
    let n := kvGetD s.flow.markerSeq stage.index 0
    let s : State := { s with flow := { s.flow with requests := dropFirst q s.flow.requests } }
    let s := (s.insertMarker stage q.type q.target q.time q.arg late off).inserted stage q
    match stage with
    | .et => s.etMarker ⟨q.type, late, q.target, BitVec.ofNat 32 off, q.time, q.arg, n⟩
    | .cb => { s with ce := s.ce.mark ⟨q.type, late, q.target, BitVec.ofNat 32 off, q.time, q.arg, n⟩ }
    | _ => s

/-- CB's input stage inserts every marker due before the spectrum of TIME t, whose stream has one spectrum in `p` (R24, R309). -/
def State.cbInsert (t : DevTime) (p : Nat) : Nat → State → State
  | 0, s => s
  | fuel + 1, s =>
    match firstDue .cb t s.flow.requests with
    | none => s
    | some _ => State.cbInsert t p fuel (s.markerInsert .cb t p 0)

def execMarkerInsert (stage : FirstStage) (t : DevTime) (period off : Nat) (s : State) : Host.Outcome State Fault Refusal :=
  .next (match stage with
    | .input n => if (s.inp n).runs then s.afInsert n (s.insertLimit n) else s
    | _ => s.markerInsert stage t period off)

/-- MARKER_EPOCH (R32, R582): the consumer's region adopts the new epoch of the stream. -/
def execMarkerEpoch (region : Fin 16) (id : BitVec 16) (m : Marker) (s : State) : Host.Outcome State Fault Refusal :=
  .next (if m.type = .epoch then s.adoptEpoch region id (BitVec.ofNat 8 m.arg.toNat) else s)

/-- MARKER_TIME_STEP (R63, R260, R261): the marker passes the trigger stages. -/
def execMarkerTimeStep (m : Marker) (s : State) : Host.Outcome State Fault Refusal :=
  .next (if m.type = .timeStep then s.tgTimeStep m else s)

/-! ### Exits -/

/-- Region of an exit's stage: HS for DMA, BD for a volume, KL for fabric streams and export flows (R37); stages that form
records directly consume nothing. -/
def exitRegion (e : Exit) (inst : Nat) : Nat :=
  match e with
  | .dma => 15
  | .volume => 12
  | .fabric => if inst % 2 = 0 then 13 else 14
  | .direct => 1

/-- The consumer that fences a frame (R583): for a stream produced in an AF region the SP region of the same index. -/
def State.fenceRegion (s : State) (e : Exit) (inst : Nat) (id : BitVec 16) : Nat :=
  let k := s.streamRegion id
  if 2 ≤ k && k ≤ 5 then k + 4 else exitRegion e inst

/-- A consumer fences a frame of another epoch (R32, R583). -/
def State.fence (s : State) (k : Nat) (id : BitVec 16) : State :=
  (s.count (FT_FENCED k) 1).raiseAlarm k .fenced id.toNat

/-- A record formed at an exit leaves it; one for a fabric stream enters the hive. -/
def State.exitSend (s : State) (e : Exit) (inst : Nat) (r : YRec) : State :=
  let s := s.sendRecord e inst r
  if e = .fabric then { s with flow := { s.flow with hiveOut := s.flow.hiveOut ++ [r] } } else s

/-- EXIT_FRAME_RECEIVE (R37): the exit's first stage fences the frame, then forms a record of it; of a gap record it forms a
GAP record. -/
def State.exitFrame (s : State) (e : Exit) (inst : Nat) (x : Sum Frame GapRec) : State :=
  match x with
  | .inl f =>
    let k := s.fenceRegion e inst f.stream
    let s := s.takeEpochs k f
    if s.stale k f then s.fence k f.stream
    else s.exitSend e inst (recordOf s e inst f)
  | .inr g => s.exitSend e inst (recordOfGap s e inst (s.streamRegion g.stream) g)

/-! ### The chip switch (R11, R17) -/

/-- The stream of what waits at an output port. -/
def SwItem.stream (i : SwItem) : BitVec 16 :=
  match i.item with
  | .inl f => f.stream
  | .inr g => g.stream

/-- The least recently granted of the candidates: one never granted first, of several the lowest, else the first in the order. -/
def leastGranted (order cands : List Nat) : Option Nat :=
  match (cands.filter fun c => !(order.contains c)).min? with
  | some c => some c
  | none => order.find? cands.contains

/-- A grant makes its user the most recently granted. -/
def granted (order : List Nat) (k : Nat) : List Nat := order.filter (fun x => x != k) ++ [k]

/-- The region that a switch port belongs to can accept: its island is clocked (R47) and it is not lost. -/
def State.accepts (s : State) (k : Nat) : Bool := !(s.gated k) && !(s.lost k)

/-- One grant of output port `k` (R17): the input port least recently granted among those with flits pending; behind it the block
that its region's arbiter chooses in the same way (R11); of that stream the oldest item. -/
def State.swGrant (s : State) (k : Nat) : State :=
  let p := kvGetD s.flow.switch k {}
  match leastGranted p.order (p.held.map fun i => s.streamRegion i.stream) with
  | none => s
  | some r =>
    let blocks := kvGetD s.flow.blocks r []
    match leastGranted blocks ((p.held.filter fun i => s.streamRegion i.stream = r).map fun i => i.stream.toNat) with
    | none => s
    | some b =>
      match p.held.find? fun i => i.stream.toNat = b with
      | none => s
      | some i =>
        let s : State := { s with flow := { s.flow with
          switch := kvPut s.flow.switch k { held := p.held.erase i, order := granted p.order r }
          blocks := kvPut s.flow.blocks r (granted blocks b) } }
        s.exitFrame i.exit i.inst i.item

/-- An output port delivers everything that it holds, while its region accepts; otherwise it holds the handshake open (R17). -/
def State.swRun (s : State) (k : Nat) : Nat → State
  | 0 => s
  | n + 1 => if s.accepts (k / 4) then (s.swGrant k).swRun k n else s

/-- Items that an output port holds. -/
def State.swHeld (s : State) (k : Nat) : List SwItem := (kvGetD s.flow.switch k {}).held

/-- Every output port of region r delivers what it holds. -/
def State.swResume (s : State) (r : Nat) : State :=
  s.each ((upto 2).map fun p => 4 * r + p) fun s k => s.swRun k (s.swHeld k).length

/-- What a stage sends for an exit reaches the exit's output port of the switch: the one its stream is tied to (R642). -/
def State.swArrive (s : State) (e : Exit) (inst : Nat) (x : Sum Frame GapRec) : State :=
  let i : SwItem := ⟨e, inst, x⟩
  let r := exitRegion e inst
  let k := 4 * r + s.portOf (16 + r) i.stream
  let p := kvGetD s.flow.switch k {}
  let s : State := { s with flow := { s.flow with switch := kvPut s.flow.switch k { p with held := p.held ++ [i] } } }
  s.swRun k (s.swHeld k).length

def execExitFrameReceive (e : Exit) (inst : Nat) (f : Sum Frame GapRec) (s : State) : Host.Outcome State Fault Refusal :=
  .next (s.swArrive e inst f)

/-! ### What a lost record held (R30, R35, R381) -/

/-- Samples of a RAW payload of 12-bit or 8-bit elements with its beat map (R117). -/
def rawSamples (w8 : Bool) (len : Nat) : Nat :=
  let one := if w8 then 129 else 193
  let r := len % one
  len / one * 128 + (if r = 0 then 0 else if w8 then r - 1 else (r - 1) * 2 / 3)

/-- Bytes of a complex element by FORMAT[15:8] (Table AC-5). -/
def elemBytes (format : Nat) : Nat :=
  let k := format / 256
  if k = 3 then 1 else if k = 4 then 2 else if k = 7 then 8 else 4

/-- A field of a record's payload. -/
def recField (r : YRec) (off n : Nat) : Nat := fromLe ((r.payload.drop off).take n)

/-- Source spectra that a plane update of a DENS record stands for (Table DC-3). -/
def recUnit (r : YRec) : Nat := if bits (recField r 6 1) 1 1 = 1 then 2 ^ recField r 7 1 else 1

/-- The stream's own samples (R35) that a record lost alone held; `again`: a slice of the same spectrum or dump was counted
already, which counts once (R381). A lost DENS record counts the updates up to it from the record `last` before it. -/
def recSamples (last : Option YRec) (r : YRec) (again : Bool) : Nat :=
  let k := r.stream.toNat / 4096
  if r.type = 0x0B then r.gapLength.toNat
  else if k = 0 then rawSamples (r.format.toNat / 256 = 2) r.payload.length
  else if k = 1 then r.payload.length / elemBytes r.format.toNat
  else if k = 4 then
    if again then 0 else match last.filter (fun l => l.type != 0x0B) with
      | some l => max 1 ((recField r 8 4 + 2 ^ 32 - recField l 12 4) % 2 ^ 32 * recUnit r)
      | none => max 1 (recField r 12 4 * recUnit r)
  else if k ≤ 6 then (if again then 0 else 1)
  else 1

/-! ### Back-pressure (R30) -/

/-- Cause of a loss to back-pressure in a producer of region k: its own takeover, else back-pressure (R580). -/
def State.fullCause (s : State) (k : Nat) : Nat := if (s.ftr k).takeover.isSome then 9 else 1

/-- OUTPUT_BUFFER_FULL (R30): from now on the producer discards whole frames. -/
def execOutputBufferFull (id : BitVec 16) (s : State) : Host.Outcome State Fault Refusal :=
  .next (s.modStream id fun x => if x.full then x else
    { x with full := true, lost := 0, lostCause := s.fullCause (s.streamRegion id), lostTime := s.now })

/-- GAP_RECORD_EMIT (R30): the producer can deliver again; the gap record gives the exact count discarded. -/
def State.gapEmit (s : State) (id : BitVec 16) : State :=
  let x := s.stream id
  if !x.full then s
  else
    let s := if x.lost = 0 then s
      else if id.toNat < 16 then
        let fs := (s.inp id.toNat).fs
        let k := instAt fs x.lostTime
        (s.rawGap id.toNat x.lostTime x.lost x.lostCause).ringLose id.toNat fs k (k + x.lost) x.lostCause
      else
        let s := s.gap id x.lostTime x.lost x.lostCause
        let n := id.toNat % 4096
        if id.toNat / 4096 = 2 && s.on (BT_CTL_TO_CB n) then s.toCb n (.gap x.lostCause) else s
    s.modStream id fun x => { x with full := false, lost := 0, lostCause := 0 }

def execGapRecordEmit (id : BitVec 16) (s : State) : Host.Outcome State Fault Refusal := .next (s.gapEmit id)

end Sys2Proof.Machine
end

