-- ==== Sys2Proof/Machine/Retime.lean ====
section
/-! DEFINITION. Machine/Retime.lean: what a load or step of device time by `d` does to the instants from which the blocks measure
delays and periods (R63, R69): each keeps its distance from the present. Times that the device reports, and times that a request
names, stay as they are. -/

namespace Sys2Proof.Machine

/-- An instant that may be absent. -/
def moveBy (d : Int) (t : Option DevTime) : Option DevTime := t.map fun x => tAddI x d

/-- Trigger units: holdoffs, arming, blind intervals, warm-up, frames being filled (R233, R234, R237, R249, R259). -/
def TgSt.retime (x : TgSt) (d : Int) : TgSt :=
  { x with
    units := x.units.map fun p => (p.1, { p.2 with holdEnd := moveBy d p.2.holdEnd, armSince := tAddI p.2.armSince d, blind := p.2.blind.map fun b => (tAddI b.1 d, b.2) })
    bands := x.bands.map fun p => (p.1, { p.2 with
      holdEnd := moveBy d p.2.holdEnd, blind := p.2.blind.map fun b => (tAddI b.1 d, b.2) })
    drift := x.drift.map fun p => (p.1, { p.2 with warmFrom := moveBy d p.2.warmFrom, blindFrom := moveBy d p.2.blindFrom })
    frameAt := x.frameAt.map fun p => (p.1, tAddI p.2 d) }

/-- A Kepalink port: codeword counts, exchanges, the second of a window, a cable calibration (R331, R342 to R346). -/
def KlPort.retime (x : KlPort) (d : Int) : KlPort :=
  { x with
    txAt := tAddI x.txAt d
    peerAt := tAddI x.peerAt d
    sent := x.sent.map fun p => (p.1, tAddI p.2 d)
    sentLast := tAddI x.sentLast d
    peerLast := x.peerLast.map fun p => (p.1, tAddI p.2 d)
    win := tAddI x.win d
    okFrom := tAddI x.okFrom d
    ttAt := moveBy d x.ttAt
    creditAt := moveBy d x.creditAt
    cal := x.cal.map fun p => (tAddI p.1 d, p.2) }

/-- The hive: neighbours, the root's LSAs, candidates, address requests, the management request (R360, R364, R367, R385). -/
def KhSt.retime (x : KhSt) (d : Int) : KhSt :=
  { x with
    nbrs := x.nbrs.map fun p => (p.1, { p.2 with at_ := tAddI p.2.at_ d })
    rootSeen := tAddI x.rootSeen d
    wagAt := moveBy d x.wagAt
    lsaAt := moveBy d x.lsaAt
    higher := x.higher.map fun p => (p.1, tAddI p.2 d)
    reqs := x.reqs.map fun p => (p.1, (p.2.1, tAddI p.2.2 d))
    mg := x.mg.map fun p => (p.1, tAddI p.2 d) }

/-- A display head: a training to retry, an AUX transaction (R484, R485). -/
def DsHead.retime (x : DsHead) (d : Int) : DsHead := { x with retry := moveBy d x.retry, auxAt := tAddI x.auxAt d }

/-- A region's takeover, rotation and row corrections (R578, R581, R596). -/
def FtRegion.retime (x : FtRegion) (d : Int) : FtRegion :=
  { x with
    takeover := x.takeover.map fun t => { t with t0 := tAddI t.t0 d }
    patrolDue := tAddI x.patrolDue d
    rowCorr := x.rowCorr.map fun p => (p.1, p.2.map fun t => tAddI t d) }

/-- The blocks of the chapters from triggers to repair. -/
def State.retimeBlocks (s : State) (d : Int) : State :=
  { s with
    tg := s.tg.retime d
    kl := { s.kl with ports := s.kl.ports.map fun p => (p.1, p.2.retime d) }
    kh := s.kh.retime d
    cm := { s.cm with chans := s.cm.chans.map fun p => (p.1, { p.2 with ueTimes := p.2.ueTimes.map fun t => tAddI t d }) }
    bd := { s.bd with ckptAt := tAddI s.bd.ckptAt d, tempAt := tAddI s.bd.tempAt d }
    hs := { s.hs with dma := s.hs.dma.map fun p => (p.1, { p.2 with first := moveBy d p.2.first }) }
    ds := s.ds.map fun p => (p.1, p.2.retime d)
    im := { s.im with session := s.im.session.map fun x => { x with lastAccess := tAddI x.lastAccess d } }
    prot := { s.prot with lastAccess := tAddI s.prot.lastAccess d }
    alarm := { s.alarm with holds := s.alarm.holds.map fun p => (p.1, { p.2 with lastEmit := moveBy d p.2.lastEmit }) }
    ft := { s.ft with regions := s.ft.regions.map fun p => (p.1, p.2.retime d) } }

end Sys2Proof.Machine
end

