-- ==== Sys2Proof/Machine/Clock.lean ====
section
/-! DEFINITION. Machine/Clock.lean: references, coasting, device time, PPS and SYNC_OUT (chapter 02, R55 to R73). -/

namespace Sys2Proof.Machine

/-- Change the time fields. -/
def State.modTime (s : State) (f : TimeSt → TimeSt) : State := { s with time := f s.time }

/-! ### Coasting and slewing (R58, R62) -/

/-- Write COASTING or SLEWING, noting the time when "coasting or slewing" changes. -/
def State.setCoast (s : State) (f : State → State) : State :=
  let a := s.coasting
  let s := f s
  if s.coasting = a then s else s.modTime fun t => { t with coastLog := (s.now, s.coasting) :: t.coastLog }

/-- The timebase starts or stops coasting (R58): the loop-filter integrator is frozen meanwhile. -/
def State.setCoasting (s : State) (on : Bool) : State :=
  s.setCoast fun s =>
    ((s.put ST_REF_STATUS_COASTING (if on then 1 else 0)).put (SYN_STATUS_COASTING 0) (if on then 1 else 0)).modTime
      fun t => { t with frozen := on }

/-- A slew that removes `j` ps begins or ends (R62). -/
def State.setSlewing (s : State) (on : Bool) (j : Int) : State :=
  s.setCoast fun s => (s.put ST_REF_STATUS_SLEWING (if on then 1 else 0)).modTime fun t => { t with jumpLeft := j }

/-! ### STEP (R63, R69) -/

/-- Every first stage (R23): the AF output stages of the inputs present, the CB input stage, the event-timer block. -/
def State.firstStages (s : State) : List FirstStage :=
  ((upto 16).filter s.inputExists).map FirstStage.input ++ [.cb, .et]

/-- Request a TIME_STEP marker of argument `arg` at `t` from every first stage. The spec does not say what a step chosen while
a time load is pending does to the load's requests: the new ones take their place (DESIGN CHOICE, assumption 33). -/
def State.stepMarkers (s : State) (t : DevTime) (arg : Int) : State :=
  let s := s.cancelMarker .timeStep 0xFFFF
  s.each s.firstStages fun s st => (s.requestMarker st .timeStep 0xFFFF t (BitVec.ofNat 64 (unsign 64 arg))).1

/-- ST chooses a step that removes `j` ps: t_s is the first whole millisecond at least 200 us ahead (R63). -/
def State.stepRequest (s : State) (j : Int) : State :=
  let t := calRampTime s.now
  let arg := psTicks (-j)
  (s.stepMarkers t arg).modTime fun x => { x with step := some ⟨t, arg⟩ }

/-- The measured jump goes to ST_PHASE_JUMP; what that register shows of a jump beyond its 32 bits is not stated, so it is
a free value. -/
def State.putJump (s : State) (j : Int) : State :=
  if -(2 ^ 31) ≤ j && j < 2 ^ 31 then s.setVal ST_PHASE_JUMP (unsign 32 j)
  else (s.setVal ST_PHASE_JUMP s.freeNow).useFree

/-- Apply a jump by TIME_POLICY (R61): SLEW or STEP. -/
def State.applyPolicy (s : State) (j : Int) : State :=
  if s.on (⟨ST_REF_CTL, 13, 13⟩ : Fld) then s.stepRequest j else s.setSlewing true j

/-- A reference is followed again with device time `j` ps ahead of it (R61): 100 ps or less is absorbed; a larger jump is
reported and applied. While streams are stopped by exhaustion the step awaits the clear of EXHAUSTED (R60). -/
def State.returned (s : State) (j : Int) : State :=
  if j.natAbs ≤ 100 then (if s.time.stopped then s.modTime fun t => { t with jumpLeft := j } else s)
  else
    let s := ((s.putJump j).put ST_REF_STATUS_REF_JUMP 1).raiseAlarm 1 .reference
    if s.time.stopped then s.modTime fun t => { t with jumpLeft := j } else s.applyPolicy j

/-! ### References (R55 to R60) -/

/-- Reference r (1 A, 2 B, 3 hive) is qualified. -/
def State.qualified (s : State) (r : Nat) : Bool := s.on (⟨ST_REF_STATUS, 2 + r, 2 + r⟩ : Fld)

/-- The reference followed at present: none while coasting or on the crystal. -/
def State.following (s : State) : Option Nat :=
  let c := s.get ST_REF_STATUS_SELECTED
  if s.on ST_REF_STATUS_COASTING || c = 4 || c = 0 then none else some c

/-- The reference that R56 selects, given the one followed. -/
def State.wanted (s : State) : Option Nat :=
  let src := s.get ST_REF_CTL_SOURCE
  let first := [1, 2, 3].find? s.qualified
  if src = 0 then
    match s.following with
    | some c => if s.qualified c && !(s.on ST_REF_CTL_REVERTIVE) then some c else first
    | none => first
  else if src ≤ 3 then (if s.qualified src then some src else none)
  else none

/-- Bring the followed reference up to date (R56 to R58): `j` is what ST measures if another reference is taken up. -/
def State.updateRef (s : State) (j : Int) : State :=
  if s.get ST_REF_CTL_SOURCE = 4 then
    (((s.setCoasting false).put ST_REF_STATUS_SELECTED 4).modTime fun t => { t with followFrom := none })
  else match s.wanted with
    | some r =>
      if s.following = some r then s
      else
        let s := ((s.setCoasting false).put ST_REF_STATUS_SELECTED r).put ST_REF_STATUS_COAST_LEFT
          (s.get ST_REF_CTL_COAST_BUDGET)
        (s.modTime fun t => { t with followed := true, followFrom := some s.now, lastRef := r }).returned j
    | none =>
      if s.on ST_REF_STATUS_COASTING || !s.time.followed then s
      else ((s.put ST_REF_STATUS_SELECTED s.time.lastRef).setCoasting true).modTime fun t => { t with followFrom := none }

/-- The time port (R368) is there, UP, and its peer's TIME_VALID is 1 (R344): never at the root, which has 0 hops. -/
def State.hiveClock (s : State) : Bool :=
  let p := s.get KH_STATUS_TIME_PORT
  s.get KH_STATUS_HOPS != 0 && s.get (KL_PORT_STATUS_STATE (13 + p / 32) (p % 32)) = 3
    && s.on (KL_TT_STATUS_PEER_VALID (13 + p / 32) (p % 32))

/-- The hive clock can qualify: for 1 s the port was UP, TIME_VALID held, no TIME message was missed and theta was stable
(R344). -/
def State.hiveStable (s : State) : Bool :=
  let p := s.get KH_STATUS_TIME_PORT
  s.hiveClock && s.on (KL_TT_STATUS_STABLE (13 + p / 32) (p % 32))
    && tLe (tAdd (kvGetD s.kl.ports p {}).okFrom (2 ^ 48)) s.now

/-- The hive clock is lost; the phase measured if another reference is followed is a free value. -/
def State.hiveLost (s : State) : State :=
  if s.qualified 3 then
    ((s.put (⟨ST_REF_STATUS, 5, 5⟩ : Fld) 0).updateRef (signed 32 (s.freeNow % 2 ^ 32))).useFree
  else s

/-- The hive clock is lost when its port leaves UP, the peer clears TIME_VALID, or this device becomes root (R344, R368). -/
def State.hiveWatch (s : State) : State := if s.hiveClock then s else s.hiveLost

/-- REF_QUALIFIED (R55, R344): reference `r` (0 A, 1 B, 2 hive) qualifies; `j` ps is the phase measured if it is followed. -/
def execRefQualified (r : Fin 3) (j : Int) (s : State) : Host.Outcome State Fault Refusal :=
  .next (if s.qualified (r + 1) || (r.val = 2 && !s.hiveStable) then s else (s.put (⟨ST_REF_STATUS, 3 + r, 3 + r⟩ : Fld) 1).updateRef j)

/-- REF_LOST (R55, R58): reference `r` is lost; `j` ps is the phase measured if another is followed. -/
def execRefLost (r : Fin 3) (j : Int) (s : State) : Host.Outcome State Fault Refusal :=
  .next (if s.qualified (r + 1) then (s.put (⟨ST_REF_STATUS, 3 + r, 3 + r⟩ : Fld) 0).updateRef j else s)

/-- A pending load on a PPS_IN edge is cancelled (R69). -/
def State.cancelLoad (s : State) : State :=
  let s := (s.put GLOBAL_TIME_SET_CTL_PENDING 0).put GLOBAL_TIME_SET_CTL_REASON 0x0310
  (s.cancelMarker .timeStep 0xFFFF).modTime fun t => { t with timeSet := none }

/-- A write of ST_REF_CTL (Table TC-4, R57, R60, R69): 0113h, then 0116h; it has no REASON field. -/
def State.refCtlWrite (s : State) (v : Nat) (j : Int) : State × Nat :=
  if 4 < bits v 2 0 then (s, 0x0113)
  else if bits v 27 16 = 0 then (s, 0x0116)
  else
    let s := s.plainWrite ST_REF_CTL v
    let s := if s.on ST_REF_STATUS_COASTING then s else s.put ST_REF_STATUS_COAST_LEFT (bits v 27 16)
    let s := if bits v 12 12 = 0 then
        let s := (s.put ST_REF_STATUS_PPS_OK 0).modTime fun t => { t with ppsGood := 0, ppsLast := none, ppsOff := [] }
        match s.time.timeSet with
        | some x => if x.atPps then s.cancelLoad else s
        | none => s
      else s
    (s.updateRef j, 0)

def execRefCtlWrite (p : Fin 5) (v : Word) (j : Int) (s : State) : Host.Outcome State Fault Refusal :=
  .next (s.gatedWrite p ST_REF_CTL fun s => s.refCtlWrite v.toNat j)

/-- COAST_SECOND (R60). -/
def execCoastSecond (s : State) : Host.Outcome State Fault Refusal :=
  .next (if s.on ST_REF_STATUS_COASTING then s.put ST_REF_STATUS_COAST_LEFT (s.get ST_REF_STATUS_COAST_LEFT - 1) else s)

/-- COAST_EXHAUSTED (R60, R589): EXHAUSTED and the reference alarm; under STOP every stream derived from the inputs and the
event timers ends with a final gap record, and ST raises NOT_MASKED. -/
def State.coastExhausted (s : State) : State :=
  if !(s.on ST_REF_STATUS_COASTING) || s.get ST_REF_STATUS_COAST_LEFT != 0 || s.on ST_REF_STATUS_EXHAUSTED then s
  else
    let s := (s.put ST_REF_STATUS_EXHAUSTED 1).beginLevel 1 .reference
    if s.on (⟨ST_REF_CTL, 15, 15⟩ : Fld) then s
    else
      let s := s.stopStreams 0xFF true fun id => decide (id.toNat / 4096 ≤ 10)
      let s := s.each (upto 16) fun s n => if s.on (AF_IN_CTL_ENABLE n) then s.inputCut n else s
      (s.modTime fun t => { t with stopped := true, align := false, jumpLeft := 0 }).raiseAlarm 1 .notMasked 0xFFFFFFFF

def execCoastExhausted (s : State) : Host.Outcome State Fault Refusal := .next s.coastExhausted

/-- A write of ST_REF_STATUS: PPS_JUMP and REF_JUMP clear; EXHAUSTED clears only while a reference is qualified, and then
stopped streams are aligned by STEP and resume (R60). -/
def State.refStatusWrite (s : State) (v : Nat) : State × Nat :=
  let clr := s.on ST_REF_STATUS_EXHAUSTED && bits v 10 10 = 1 && [1, 2, 3].any s.qualified
  let s := s.plainWrite ST_REF_STATUS (setBits v 10 10 (if clr then 1 else 0))
  if !clr then (s, 0)
  else
    let s := s.endLevel 1 .reference
    if s.time.stopped then ((s.stepRequest s.time.jumpLeft).modTime fun t => { t with align := true }, 0) else (s, 0)

def execExhaustedClear (p : Fin 5) (s : State) : Host.Outcome State Fault Refusal :=
  .next (s.gatedWrite p ST_REF_STATUS fun s => s.refStatusWrite 0x400)

/-- SLEW_END (R62): the remaining jump is 100 ps or less. -/
def execSlewEnd (s : State) : Host.Outcome State Fault Refusal :=
  .next (if s.on ST_REF_STATUS_SLEWING then s.setSlewing false 0 else s)

/-! ### Device time (R67 to R69, R641) -/

/-- Timebase cycles that fit between the last whole second and `t` (R67). -/
def cycAt (t : DevTime) : Nat := fracOf t * 3200000000 / 2 ^ 48

/-- An input in the new time: samples of the old one that wait for their last frame keep it until that frame has left. -/
def AfIn.retime (x : AfIn) (d : Int) : AfIn :=
  match x.endAt with
  | some e => if x.nextInst < instAt x.fs e then { x with lag := x.lag + d } else x.shift d
  | none => x.shift d

/-- A synthesiser's instants in the new time. -/
def SynSt.shift (x : SynSt) (d : Int) : SynSt :=
  { x with segEnd := tAddI x.segEnd d, discardFrom := x.discardFrom.map fun t => tAddI t d }

/-- The combine engine after a load or step of device time by `d`: instants keep their distance from the present. -/
def CeSt.retime (c : CeSt) (d : Int) : CeSt :=
  let old (g : CeTime) : CeTime := { g with first := tAddI g.first d, old := true }
  { c with
    times := c.times.map old
    done := []
    seen := []
    pairs := c.pairs.map fun p => (p.1, { p.2 with moved := true })
    beams := c.beams.map fun p => (p.1, { p.2 with
      times := p.2.times.map old
      done := []
      slots := p.2.slots.map fun x => { x with first := tAddI x.first d, old := true }
      lastJ := p.2.lastJ.map fun x => (x.1, tAddI x.2 d)
      ramp := p.2.ramp.map fun r => { r with tx := tAddI r.tx d } }) }

/-- Load device time with `t` (R63, R69): running outputs start again at the first whole second of the new time (R72, R73);
every instant the device remembers keeps its distance from the present; the TIME_STEP markers asked for stand before the next
sample. -/
def State.loadTime (s : State) (t : DevTime) : State :=
  let d := tDiff t s.now
  let s := s.modTime fun x => { x with
    now := t
    cyc := cycAt t
    sub := 0
    stepped := some t
    coastLog := x.coastLog.map fun p => (tAddI p.1 d, p.2)
    followFrom := x.followFrom.map fun e => tAddI e d
    slewAt := x.slewAt.map fun _ => ceilSec (tAdd t 1)
    syn := x.syn.map fun p => (p.1, p.2.shift d)
    ppsLast := x.ppsLast.map fun e => tAddI e d
    ppsOutRise := tAddI x.ppsOutRise d
    sync := x.sync.map fun p => (p.1, match p.2.base with
      | some _ => { p.2 with base := some (ceilSec t), riseCyc := 0, high := false }
      | none => p.2) }
  let s := s.retimeBlocks d
  { s with
    flow := { s.flow with requests := s.flow.requests.map fun q =>
      if q.type = .timeStep && tLe q.time (tAddI t (-d)) then { q with now := true } else q }
    af := s.af.map fun p => (p.1, p.2.retime d)
    et := s.et.shift d
    qu := s.qu.retime d
    ce := s.ce.retime d
    ca := { s.ca with
      lossFrom := s.ca.lossFrom.map fun p => (p.1, tAddI p.2 d)
      ends := s.ca.ends.map fun p => (p.1, tAddI p.2 d)
      ramps := s.ca.ramps.map fun p => (p.1, { p.2 with start := tAddI p.2.start d }) } }

/-- Gap records of cause "time step" and length 0 on the open streams that `f` names (R63, R69). -/
def State.stepGaps (s : State) (f : Nat → Bool) : State :=
  s.each (s.flow.streams.filter fun p => p.2.opened && f (p.1 / 4096)) fun s p =>
    s.gap (BitVec.ofNat 16 p.1) s.now 0 3

/-- An AF synthesiser loses its lock: its output stages discard samples from now on, to report `cause` (R54, R63). -/
def State.afUnlock (s : State) (k cause : Nat) : State :=
  let s := s.each ((upto 4).map fun i => 4 * (k - 2) + i) fun s n => s.inputEnd n
  let s := (s.put (SYN_STATUS_LOCKED k) 0).put (SYN_STATUS_GATED k) 1
  s.modTime fun t => { t with syn := kvMod {} t.syn k fun x =>
    if x.discardFrom.isSome then x else { x with discardFrom := some s.now, cause := cause } }

/-- The STEP that R60 asks for after the clear of EXHAUSTED: stopped streams open again; the inputs take up at the lock that
follows, counting what they discard from here. -/
def State.resumeStopped (s : State) : State :=
  let s := (s.resumeStreams fun _ => true).modTime fun t => { t with stopped := false, align := false, jumpLeft := 0 }
  s.each ((upto 16).filter fun n => (s.inp n).exhausted) fun s n =>
    let fs := s.fsHz n
    let last := instAt fs (s.inp n).lastSample
    let k := instAt fs s.now
    (s.ringLose n fs (last + 1) k 0xFF).modIn n fun x => { x with
      exhausted := false, lastSample := instTime fs (k - 1), endAt := some (instTime fs k) }

/-- TIME_STEP_EXECUTE (R63): at t_s. -/
def State.timeStepExecute (s : State) : State :=
  match s.time.step with
  | none => s
  | some r =>
    if tLt s.now r.time then s
    else
      let s := s.each ([2, 3, 4, 5].filter fun k => s.on (SYN_STATUS_LOCKED k)) fun s k => s.afUnlock k 3
      let s := (s.ivSettle.loadTime (tAddI s.now r.arg)).modTime fun t => { t with step := none }
      let s := s.etStep s.now
      let s := s.stepGaps fun c => c = 5 || c = 6 || (8 ≤ c && c ≤ 13)
      if s.time.align then s.resumeStopped else s

def execTimeStepExecute (s : State) : Host.Outcome State Fault Refusal := .next s.timeStepExecute

/-- ARM of a time load in RUN or WATCH (R69): the load edge is the first whole second at least 200 us ahead; every first
stage is asked for a TIME_STEP marker. -/
def State.loadChoose (s : State) (sec : Word) (atPps : Bool) : State :=
  let e := ceilSec (tAdd s.now (usTicks 200))
  (s.stepMarkers e (tDiff (atSec sec.toNat) e)).modTime fun t => { t with timeSet := some ⟨sec, atPps, some e⟩ }

/-- A write of GLOBAL_TIME_SET_CTL (R69). -/
def State.timeSetCtlWrite (s : State) (v : Nat) : State × Nat :=
  let s := s.put GLOBAL_TIME_SET_CTL_AT_PPS (bits v 2 2)
  if bits v 0 0 = 0 then (s, 0)
  else
    let rf := GLOBAL_TIME_SET_CTL_REASON
    let pps := bits v 2 2 = 1
    let c := firstFail [
      (s.time.timeSet.isSome || s.time.step.isSome, 0x0511),
      (pps && !(s.on ST_REF_CTL_PPS_EN), 0x0310),
      (pps && s.running && !(s.on ST_REF_STATUS_PPS_OK), 0x0310)]
    if c != 0 then s.answer rf c
    else
      let s := (s.put rf 0).put GLOBAL_TIME_SET_CTL_PENDING 1
      let sec := s.reg GLOBAL_TIME_SET_SEC
      if s.running then (s.loadChoose sec pps, 0)
      else (s.modTime fun t => { t with timeSet := some ⟨sec, pps, if pps then none else some (atSec (secOf s.now + 1))⟩ }, 0)

def execTimeSetArm (p : Fin 5) (v : Word) (s : State) : Host.Outcome State Fault Refusal :=
  .next (s.gatedWrite p GLOBAL_TIME_SET_CTL fun s => s.timeSetCtlWrite v.toNat)

/-- Entry to RUN from CONFIGURE with a load pending (R69): it is chosen again, or cancelled. -/
def State.loadAtRun (s : State) : State :=
  match s.time.timeSet with
  | none => s
  | some x => if x.atPps && !(s.on ST_REF_STATUS_PPS_OK) then s.cancelLoad else s.loadChoose x.sec x.atPps

/-- TIME_LOAD (R69): the load edge has come: the whole second chosen at ARM, or, outside RUN and WATCH with AT_PPS = 1, the
first PPS_IN edge after ARM, less ST_PPS_DELAY. From that edge on device time counts from the latched second. -/
def State.timeLoad (s : State) : State :=
  match s.time.timeSet with
  | none => s
  | some x =>
    match x.edge with
    | none => s
    | some e =>
      if tLt s.now e then s
      else
        let run := s.running
        let s := (s.put GLOBAL_TIME_SET_CTL_PENDING 0).modTime fun t => { t with timeSet := none }
        let s := if run then s.each (upto 16) fun s n => s.inputEnd n (some 3) true else s
        let s := s.ivSettle.loadTime (tAddI (atSec x.sec.toNat) (tDiff s.now e))
        if run then (s.stepGaps fun c => decide (3 ≤ c) && c != 7).etLoad s.now else s

def execTimeLoad (s : State) : Host.Outcome State Fault Refusal := .next s.timeLoad

/-- A path's snapshot slot. -/
def State.snap (s : State) (p : Nat) : DevSnap := kvGetD s.time.snaps p {}

/-- Words of GLOBAL_DEVTIME_0 to 2 as the slot of path p shows them (Table TC-5). -/
def State.devTimeWord (s : State) (p k : Nat) : Word :=
  let x := s.snap p
  let t := x.time.toNat
  if k = 0 then BitVec.ofNat 32 (bits t 31 0)
  else if k = 1 then BitVec.ofNat 32 (bits t 47 32 + (if x.coasting then 2 ^ 16 else 0) + (if x.slewing then 2 ^ 17 else 0)
    + x.seq.toNat * 2 ^ 24)
  else BitVec.ofNat 32 (bits t 79 48)

/-- A read of GLOBAL_DEVTIME_0 (R68). -/
def State.devTimeRead (s : State) (p : Nat) : State × Word :=
  let x := s.snap p
  let y : DevSnap := ⟨s.now, s.on ST_REF_STATUS_COASTING, s.on ST_REF_STATUS_SLEWING, x.seq + 1⟩
  let s := s.modTime fun t => { t with snaps := kvPut t.snaps p y }
  (s, s.devTimeWord p 0)

def execDevtimeSnapshot (p : Fin 5) (s : State) : Host.Outcome State Fault Refusal :=
  .next (s.readOut p GLOBAL_DEVTIME_0 fun s => s.devTimeRead p)

/-! ### The crystal (R65, R66) -/

/-- XO_CORRECTION (R65): `model` is what the cubic temperature model gives, 0.01 ppb. -/
def execXoCorrection (model : Int) (s : State) : Host.Outcome State Fault Refusal :=
  .next (s.modTime fun t => { t with xoCorr := model + signed 32 (s.val ST_XO_AGE) })

/-- XO_AGE_LEARN (R66): `diff`, 0.01 ppb, is the mean loop correction of the interval less the temperature model. An eighth
that is no whole step is rounded by a free bit (assumption 9). -/
def State.xoAgeLearn (s : State) (diff : Int) : State :=
  match s.time.followFrom with
  | none => s
  | some t =>
    if !(s.on ST_REF_CTL_AGE_LEARN) || s.following.isNone || tLt s.now (tAdd t (1000 * 2 ^ 48)) then s
    else
      let whole := diff % 8 = 0
      let e := diff / 8 + (if whole then 0 else ((s.freeNow % 2 : Nat) : Int))
      let s := if whole then s else s.useFree
      let s := s.setVal ST_XO_AGE (unsign 32 (signed 32 (s.val ST_XO_AGE) + e))
      (s.modTime fun x => { x with followFrom := some s.now }).appendAgeing

def execXoAgeLearn (diff : Int) (s : State) : Host.Outcome State Fault Refusal := .next (s.xoAgeLearn diff)

/-- A write of ST_XO_AGE (R66). -/
def State.xoAgeWrite (s : State) (v : Nat) : State × Nat := ((s.plainWrite ST_XO_AGE v).appendAgeing, 0)

def execXoAgeWrite (p : Fin 5) (v : Word) (s : State) : Host.Outcome State Fault Refusal :=
  .next (s.gatedWrite p ST_XO_AGE fun s => s.xoAgeWrite v.toNat)

/-! ### PPS (R70 to R72) -/

/-- Signed distance of `t` from the nearest whole second, 2^-48 s. -/
def offSecond (t : DevTime) : Int := signed 48 (fracOf t)

/-- A difference in 2^-48 s, in ps rounded to nearest. -/
def toPs (d : Int) : Int := ratioRound (ratio (d * 1000000000000) (2 ^ 48))

/-- Three offsets lie within 10 ns of one another. -/
def close3 : List Int → Bool
  | a :: b :: c :: _ => max a (max b c) - min a (min b c) ≤ 10000
  | _ => false

/-- A PPS_IN edge at `e` is the load edge of an armed load with AT_PPS = 1 outside RUN and WATCH (R69). -/
def State.loadEdge (s : State) (e : DevTime) : State :=
  if s.running then s
  else s.modTime fun x => { x with timeSet := x.timeSet.map fun q =>
    if q.atPps && q.edge.isNone then { q with edge := some e } else q }

/-- PPS_EDGE (R70, R71): a rising edge at device time `t`. -/
def State.ppsEdge (s : State) (t : DevTime) : State :=
  if !(s.on ST_REF_CTL_PPS_EN) then s
  else
    let e := tAddI t (-(psTicks (signed 32 (s.val ST_PPS_DELAY))))
    let s := s.loadEdge e
    let good := match s.time.ppsLast with
      | none => false
      | some l => (tDiff e l - 2 ^ 48).natAbs ≤ usTicks 1
    let n := if good then s.time.ppsGood + 1 else 1
    let ok := s.on ST_REF_STATUS_PPS_OK
    let s := s.modTime fun x => { x with ppsLast := some e, ppsGood := n }
    if !ok then (if 3 ≤ n then (s.put ST_REF_STATUS_PPS_OK 1).modTime fun x => { x with ppsOff := [] } else s)
    else
      let o := offSecond e
      if o.natAbs ≤ nsTicks 100 then s.modTime fun x => { x with ppsOff := [] }
      else
        let offs := (toPs o :: s.time.ppsOff).take 3
        let s := s.modTime fun x => { x with ppsOff := offs, ppsIgnored := x.ppsIgnored + 1 }
        if !(close3 offs) then s
        else
          let s := (((s.putJump (toPs o)).put ST_REF_STATUS_PPS_JUMP 1).raiseAlarm 1 .reference).modTime
            fun x => { x with ppsOff := [] }
          if s.on (⟨ST_REF_CTL, 13, 13⟩ : Fld) then s.stepRequest (toPs o)
          else s.modTime fun x => { x with jumpLeft := toPs o, slewAt := some (atSec (secOf s.now + 1)) }

def execPpsEdge (t : DevTime) (s : State) : Host.Outcome State Fault Refusal := .next (s.ppsEdge t)

/-- PPS_TIMEOUT (R70): 3 whole seconds of device time have passed with no edge. -/
def State.ppsTimeout (s : State) : State :=
  let gone := match s.time.ppsLast with
    | none => true
    | some l => decide (4 * 2 ^ 48 ≤ tDiff (atSec (secOf s.now)) (atSec (secOf l)))
  if s.on ST_REF_STATUS_PPS_OK && gone then
    (s.put ST_REF_STATUS_PPS_OK 0).modTime fun x => { x with ppsGood := 0, ppsLast := none, ppsOff := [] }
  else s

def execPpsTimeout (s : State) : Host.Outcome State Fault Refusal := .next s.ppsTimeout

/-- PPS_OUT_RISE (R72): a whole second of device time, from LOADER onwards. -/
def execPpsOutRise (s : State) : Host.Outcome State Fault Refusal :=
  .next (if 2 ≤ s.devState && fracOf s.now = 0 then
    s.modTime fun x => { x with ppsOutHigh := true, ppsOutRise := s.now } else s)

/-- PPS_OUT_FALL (R72): 100 ms after the last rise. -/
def execPpsOutFall (s : State) : Host.Outcome State Fault Refusal :=
  .next (if s.time.ppsOutHigh && tLe (tAdd s.time.ppsOutRise (usTicks 100000)) s.now then
    s.modTime fun x => { x with ppsOutHigh := false } else s)

/-! ### SYNC_OUT (R73) -/

/-- Device time of timebase cycle `c` after whole second `b`. -/
def cycTime (b : DevTime) (c : Nat) : DevTime := tAdd b (c * 3125 * 2 ^ 48 / 10000000000000)

/-- A SYNC_OUT output. -/
def State.syncOut (s : State) (i : Nat) : SyncOut := kvGetD s.time.sync i {}

/-- A write of ST_SYNC_i_CTL, or of ST_SYNC_i_PERIOD. -/
def State.syncWrite (s : State) (i : Nat) (period : Bool) (v : Nat) : State × Nat :=
  let w := if period then s.get (ST_SYNC_CTL_WIDTH i) else bits v 31 16
  let q := if period then v else s.val (ST_SYNC_PERIOD i)
  let was := s.on (ST_SYNC_CTL_ENABLE i)
  let en := if period then was else bits v 0 0 = 1
  if en && decide (q ≤ w) then (s, 0x0114)
  else
    let s := s.plainWrite (if period then ST_SYNC_PERIOD i else ST_SYNC_CTL i) v
    let set (x : SyncOut) : State := s.modTime fun t => { t with sync := kvPut t.sync i x }
    if en && !was then (set ⟨w, q, false, some (ceilSec (tAdd s.now 1)), 0⟩, 0)
    else if was && !en then (set {}, 0)
    else (s, 0)

def execSyncOutWrite (p : Fin 5) (i : Fin 4) (period : Bool) (v : Word) (s : State) : Host.Outcome State Fault Refusal :=
  .next (s.gatedWrite p (if period then ST_SYNC_PERIOD i else ST_SYNC_CTL i) fun s => s.syncWrite i period v.toNat)

/-- SYNC_OUT_EDGE: a rise takes up the WIDTH and PERIOD written since the last one. -/
def State.syncEdge (s : State) (i : Nat) : State :=
  let x := s.syncOut i
  match x.base with
  | none => s
  | some b =>
    let set (x : SyncOut) : State := s.modTime fun t => { t with sync := kvPut t.sync i x }
    if x.high then
      if tLt s.now (cycTime b (x.riseCyc + x.width)) then s
      else set { x with high := false, riseCyc := x.riseCyc + x.period }
    else if tLt s.now (cycTime b x.riseCyc) then s
    else set { x with high := true, width := s.get (ST_SYNC_CTL_WIDTH i), period := s.val (ST_SYNC_PERIOD i) }

def execSyncOutEdge (i : Fin 4) (s : State) : Host.Outcome State Fault Refusal := .next (s.syncEdge i)

end Sys2Proof.Machine
end

