-- ==== Sys2Proof/Machine/Combine.lean ====
section
/-! DEFINITION. Machine/Combine.lean: the combine engine: cross-spectra and beams (chapter 10, R295 to R322). -/

namespace Sys2Proof.Machine

/-- Change the engine's state. -/
def State.modCe (s : State) (f : CeSt → CeSt) : State := { s with ce := f s.ce }

/-- Pair k and beam b beyond their registers. -/
def State.cePair (s : State) (k : Nat) : CePair := kvGetD s.ce.pairs k {}
def State.modPair (s : State) (k : Nat) (f : CePair → CePair) : State :=
  s.modCe fun c => { c with pairs := kvMod {} c.pairs k f }
def State.ceBeam (s : State) (b : Nat) : CeBeam := kvGetD s.ce.beams b {}
def State.modBeam (s : State) (b : Nat) (f : CeBeam → CeBeam) : State :=
  s.modCe fun c => { c with beams := kvMod {} c.beams b f }

/-- Streams of pair k and beam b. -/
def xspcSid (k : Nat) : BitVec 16 := sid 5 k
def beamSid (b : Nat) : BitVec 16 := sid 6 b

/-! ### Combine inputs (R295, R296) -/

/-- Settings of a combine input: log2 C, half hop, OUT_BITS code, sample rate in Hz. What a remote input's sample rate is
no register says; the nominal one is taken (assumption 18). -/
structure CeCfg where
  logC : Nat
  half : Bool
  bits : Nat
  fs : Nat
  deriving DecidableEq, Repr

def State.ceCfg (s : State) (x : Nat) : CeCfg :=
  if x < 16 then ⟨s.get (BT_CFG_LOG_C x), s.on (BT_CFG_HOP x), s.get (BT_CFG_OUT_BITS x), s.fsHz x⟩
  else
    let r := x - 16
    ⟨s.get (CE_RIN_CFG_LOG_C r), s.on (CE_RIN_CFG_HOP r), s.get (CE_RIN_CFG_BITS r), 1000 * synNominal 2⟩

/-- Hop in samples: C at half hop, 2C at critical hop (R169). -/
def CeCfg.hop (c : CeCfg) : Nat := if c.half then 2 ^ c.logC else 2 ^ (c.logC + 1)

/-- Bytes of a CHAN element at CB: 1 for 4+4, 2 for 8+8. -/
def CeCfg.elem (c : CeCfg) : Nat := if c.bits = 2 then 1 else 2

/-- Elements of a CHAN slice, and slices of a spectrum (R180). -/
def CeCfg.per (c : CeCfg) : Nat := min (2 ^ c.logC) (32768 / c.elem)
def CeCfg.slices (c : CeCfg) : Nat := ceilDiv (2 ^ c.logC) c.per

/-- 2^18 times the spectra per second. -/
def CeCfg.rate18 (c : CeCfg) : Nat := c.fs * 2 ^ 18 / c.hop

/-- The input can deliver: its transform enabled with TO_CB, or the remote input ON. -/
def State.ceOn (s : State) (x : Nat) : Bool :=
  if x < 16 then s.on (BT_CTL_ENABLE x) && s.on (BT_CTL_TO_CB x) else s.on (CE_RIN_CFG_ON (x - 16))

/-- Pairs that are ON; combine inputs they name; one of them is remote (R297). -/
def State.pairsOn (s : State) : List Nat := (upto 528).filter fun k => s.on (CE_XP_SEL_ON k)
def State.xsNamed (s : State) : List Nat :=
  let l := s.pairsOn
  (upto 32).filter fun x => l.any fun k => s.get (CE_XP_SEL_A k) = x || s.get (CE_XP_SEL_B k) = x
def State.xsRemote (s : State) : Bool := s.xsNamed.any fun x => decide (16 ≤ x)

/-! ### Cross-spectra (R297 to R304) -/

/-- Index of the dump of TIME t, and the start of dump d (R300). -/
def State.dumpOf (s : State) (t : DevTime) : Nat := t.toNat * 1000000 / (2 ^ 48 * max 1 (s.get CE_XS_CFG_DUMP_US))
def State.dumpStart (s : State) (d : Nat) : DevTime :=
  BitVec.ofNat 80 (ceilDiv (d * s.get CE_XS_CFG_DUMP_US * 2 ^ 48) 1000000)

/-- Accumulators of pair k: 2^LOG_SPAN / K. -/
def State.pairAccs (s : State) (k : Nat) : Nat :=
  2 ^ (s.get (CE_XP_RANGE_LOG_SPAN k) - s.get (CE_XP_RANGE_MERGE_LOG k))

/-- Symmetric 32-bit saturation (R299). -/
def satAcc (x : Int) : Int × Bool :=
  if 2147483647 < x then (2147483647, true) else if x < -2147483647 then (-2147483647, true) else (x, false)

/-- An element of a spectrum: zero where the channel was excised (R296). -/
def specEl (p : CeSpec) (c : Nat) : Int × Int := if p.zeroed.contains c then (0, 0) else p.els.getD c (0, 0)

/-- Sum of x_A conj(x_B) over `n` channels from `c` (R299), real and imaginary. -/
def crossSum (a b : CeSpec) : Nat → Nat → Int × Int
  | 0, _ => (0, 0)
  | n + 1, c =>
    let x := specEl a c
    let y := specEl b c
    let r := crossSum a b n (c + 1)
    (x.1 * y.1 + x.2 * y.2 + r.1, x.2 * y.1 - x.1 * y.2 + r.2)

/-- Accumulate one matched spectrum; answers the saturations too. -/
def accAll (a b : CeSpec) (first k : Nat) : Nat → List CeAcc → Nat → List CeAcc × Nat
  | 0, _, _ => ([], 0)
  | n + 1, accs, m =>
    let x : CeAcc := accs.headD {}
    let c := first + m * k
    let d := crossSum a b k c
    let re := satAcc (x.re + d.1)
    let im := satAcc (x.im + d.2)
    let t := (upto k).any fun i => a.zeroed.contains (c + i) || b.zeroed.contains (c + i)
    let r := accAll a b first k n accs.tail (m + 1)
    (⟨re.1, im.1, x.touched || t, x.sat || re.2 || im.2⟩ :: r.1,
      r.2 + (if re.2 then 1 else 0) + (if im.2 then 1 else 0))

/-- Bytes of a map of flags, bit m mod 8 of byte m / 8, in whole groups of 8 bytes (R303). -/
def flagMap (l : List Bool) : List Byte :=
  leBytes (ceilDiv l.length 64 * 8) (packNat 1 (l.map fun b => if b then 1 else 0))

/-- Markers that stand before what has TIME `t`, and the later ones (R304): a TIME_STEP marker stands before the first dump or slot
that did not begin before its step, as what is `old` did. -/
def markersTo (old : Bool) (t : DevTime) (l : List Marker) : List Marker × List Marker :=
  let due (m : Marker) : Bool := if m.type = .timeStep then !old else tLe m.time t
  (l.filter due, l.filter fun m => !(due m))

/-- Emit dump `p.dump` of pair k (R303), after the gap record of the empty dumps before it (R304). -/
def State.dumpOut (s : State) (k : Nat) : State :=
  let p := s.cePair k
  let s := if p.gap = 0 then s else s.gap (xspcSid k) p.gapTime p.gap (p.gapCause.getD 0x000D)
  let m := s.pairAccs k
  let a := min m 4096
  let first := s.get (CE_XP_RANGE_FIRST k)
  let kk := 2 ^ s.get (CE_XP_RANGE_MERGE_LOG k)
  let ms := markersTo p.moved p.time p.markers
  let s := s.each (upto (ceilDiv m a)) fun s sl =>
    let accs := (p.acc.drop (sl * a)).take a
    let touched := (accs.filter fun x => x.touched).length
    let status := (if p.inOvr then 1 else 0) + (if accs.any fun x => x.sat then 2 else 0) + (if p.unmatched.contains p.dump then 4 else 0)
    let desc := leBytes 4 p.dump ++ leBytes 2 sl ++ leBytes 1 (s.get (CE_XP_SEL_A k)) ++ leBytes 1 (s.get (CE_XP_SEL_B k))
      ++ leBytes 4 (first + sl * a * kk) ++ leBytes 1 (s.get (CE_XP_RANGE_MERGE_LOG k))
      ++ leBytes 1 (s.get (CE_XP_RANGE_LOG_SPAN k)) ++ leBytes 1 status ++ leBytes 1 0 ++ leBytes 4 p.n ++ leBytes 4 0
    s.sendFrame (xspcSid k) (if sl = 0 then 1 else 0) {
      region := 10, time := p.time, format := 0x0701
      flags := (if p.ovr then 2 else 0) + (if p.cal then 16 else 0) + (if touched = 0 then 0 else 32)
      excised := touched
      markers := if sl = 0 then ms.1 else []
      payload := desc ++ packElems 32 (accs.foldr (fun x l => x.re :: x.im :: l) []) ++ flagMap (accs.map fun x => x.touched) }
  s.modPair k fun q => { q with gap := 0, gapCause := none, markers := ms.2 }

/-- Pair k moves on to dump d: its present dump is read out, or counted as empty (R300, R304). After a load or step of device time
the dumps start afresh at d. -/
def State.pairTo (s : State) (k d : Nat) : State :=
  let p := s.cePair k
  if p.moved && d != p.dump then
    (if p.n = 0 then s else s.dumpOut k).modPair k fun q => { q with
      dump := d, n := 0, acc := [], inOvr := false, ovr := false, cal := false, moved := false
      unmatched := q.unmatched.filter fun u => u = d }
  else if d ≤ p.dump then s
  else
    let s := if p.n = 0 then s else s.dumpOut k
    let from_ := if p.n = 0 then p.dump else p.dump + 1
    let off := !(s.ceOn (s.get (CE_XP_SEL_A k))) || !(s.ceOn (s.get (CE_XP_SEL_B k)))
    s.modPair k fun q => { q with
      dump := d, n := 0, acc := [], inOvr := false, ovr := false, cal := false
      unmatched := q.unmatched.filter fun u => decide (d ≤ u)
      gapTime := if q.gap = 0 then s.dumpStart from_ else q.gapTime
      gapCause := if q.gapCause.isSome || d ≤ from_ then q.gapCause else if off then some 6 else q.lost
      gap := q.gap + (d - from_) }

/-- Dumps that every ON pair has completed. -/
def State.dumpsDone (s : State) : Nat := (s.pairsOn.map fun k => (s.cePair k).dump).foldl min (2 ^ 80)

/-- Use `f`, counting the dumps completed in CE_XS_DONE. -/
def State.countDumps (s : State) (f : State → State) : State :=
  let a := s.dumpsDone
  let s := f s
  s.count CE_XS_DONE (s.dumpsDone - a)

/-- Pair k takes a matched pair of spectra (R299). -/
def State.pairAdd (s : State) (k : Nat) (a b : CeSpec) : State :=
  let d := s.dumpOf a.time
  let s := s.pairTo k d
  let p := s.cePair k
  if d < p.dump then s
  else
    let r := accAll a b (s.get (CE_XP_RANGE_FIRST k)) (2 ^ s.get (CE_XP_RANGE_MERGE_LOG k)) (s.pairAccs k) p.acc 0
    let s := s.modPair k fun q => { q with
      n := q.n + 1
      time := if q.n = 0 then a.time else q.time
      acc := r.1
      inOvr := q.inOvr || a.inOvr || b.inOvr
      ovr := q.ovr || a.inOvr || b.inOvr || a.ovf || b.ovf
      cal := q.cal || a.cal || b.cal
      lost := none }
    if r.2 = 0 then s else (s.count CE_XS_SAT_COUNT r.2).put CE_XS_STATUS_SAT 1

/-- A TIME has completed: it is among the last 256 that have, or before all of them. -/
def timeDone (l : List DevTime) (t : DevTime) : Bool :=
  l.contains t || match l[255]? with
    | some u => tLt t u
    | none => false

/-- A TIME is complete (R296, R297): every ON pair with both inputs takes it, where a product block serves the pair; spectra that no
pair uses are counted. -/
def State.xsTime (s : State) (g : CeTime) : State :=
  let specs := g.specs.filter fun p => !p.settling
  let get (x : Nat) : Option CeSpec := specs.find? fun p => p.x = x
  let s := s.countDumps fun s => s.each s.pairsOn fun s k =>
    match get (s.get (CE_XP_SEL_A k)), get (s.get (CE_XP_SEL_B k)) with
    | some a, some b => if s.dutyUp 10 (k % 16) then s.pairAdd k a b else s
    | none, none => s
    | _, _ => s.modPair k fun q => { q with unmatched := s.dumpOf g.time :: q.unmatched }
  let lone := specs.filter fun p => !(s.pairsOn.any fun k =>
    let a := s.get (CE_XP_SEL_A k)
    let b := s.get (CE_XP_SEL_B k)
    (a = p.x && (get b).isSome) || (b = p.x && (get a).isSome))
  let s := if lone.isEmpty then s else s.count CE_XS_UNMATCHED lone.length
  s.modCe fun c => { c with done := (g.time :: c.done).take 256 }

/-- Input x will not deliver TIME g any more: it delivered a later one, or nothing of it waits and its transform is off or its
stream has ended (R320). -/
def State.cePast (s : State) (x : Nat) (t : DevTime) (old : Bool := false) : Bool :=
  ((kvGetD s.ce.inq x []).isEmpty && (!(s.ceOn x) || (decide (x < 16) && !(s.stream (sid 2 x)).opened)))
    || (match kvGet s.ce.seen x with
      | some u => old || tLt t u
      | none => false)

/-- TIME g is complete (R297): with a remote input named, when every named input delivered it; without one, when none of
them can still deliver it, since a stream's spectra come in order (assumption 19). -/
def State.xsComplete (s : State) (g : CeTime) : Bool :=
  s.xsNamed.all fun x => g.specs.any (fun p => p.x = x) || (!s.xsRemote && s.cePast x g.time g.old)

/-- Complete the TIMEs that `f` names. -/
def State.xsFinish (s : State) (f : CeTime → Bool) : State :=
  let l := s.ce.times.filter f
  let s := s.modCe fun c => { c with times := c.times.filter fun g => !(f g) }
  s.each l fun s g => s.xsTime g

/-- Add a spectrum to the group of its TIME. -/
def addSpec (now : DevTime) (p : CeSpec) (l : List CeTime) : List CeTime :=
  if l.any fun g => g.time = p.time then l.map fun g => if g.time = p.time then { g with specs := g.specs ++ [p] } else g
  else l ++ [⟨p.time, now, [p], false⟩]

/-- A spectrum reaches the cross-spectra (R297). -/
def State.xsArrive (s : State) (p : CeSpec) : State :=
  if !(s.on CE_XS_STATUS_RUNNING) || !(s.xsNamed.contains p.x) then s
  else if timeDone s.ce.done p.time then
    (if p.x < 16 then s.put CE_XS_STATUS_LATE 1 else s.count (CE_RIN_DROP (p.x - 16)) (s.ceCfg p.x).slices)
  else
    let s := s.modCe fun c => { c with times := addSpec s.now p c.times }
    s.xsFinish s.xsComplete

/-- CE_ALIGN_TIMEOUT (R297): ALIGN_US have passed since the first spectrum of a TIME arrived. -/
def State.alignTimeout (s : State) : State :=
  if s.xsRemote then s.xsFinish fun g => tLe (tAdd g.first (usTicks (s.get CE_XS_CFG_ALIGN_US))) s.now else s

def execCeAlignTimeout (s : State) : Host.Outcome State Fault Refusal := .next (s.inIsland 10 State.alignTimeout)

/-- CE_DUMP_TIMEOUT (R300): dumps whose end lies 10 us back are read out. -/
def State.dumpTimeout (s : State) : State :=
  if !(s.on CE_XS_STATUS_RUNNING) then s
  else
    let d := s.dumpOf (tAddI s.now (-(usTicks 10 : Int)))
    let s := s.xsFinish fun g => tLt g.time (s.dumpStart d)
    s.countDumps fun s => s.each s.pairsOn fun s k => s.pairTo k d

def execCeDumpTimeout (s : State) : Host.Outcome State Fault Refusal := .next (s.inIsland 10 State.dumpTimeout)

/-! ### Beams: weights (R307, R310) -/

/-- A weight point of a bank: real and imaginary, 2^-14. -/
def wtPoint (m : KV Word) (b i p : Nat) : Int × Int :=
  let w := (kvGetD m ((16 * b + i) * 4096 + p) 0x4000).toNat
  (signed 16 (bits w 15 0), signed 16 (bits w 31 16))

/-- w_i at relative channel r of a span of 2^ls (R307). -/
def wtAt (m : KV Word) (b i ls r : Nat) : Int × Int :=
  let den := 2 ^ ls - 1
  let u := r * 4095
  let p := u / den
  let e := u % den
  let x := wtPoint m b i p
  let y := wtPoint m b i (min (p + 1) 4095)
  let f (a c : Int) : Int := ratioRound (ratio (a * den + (e : Int) * (c - a)) den)
  (f x.1 y.1, f x.2 y.2)

/-- The weight in force at a slot (R310): between the old and the new value while a ramp runs. -/
def State.weight (s : State) (b i ls r : Nat) : Int × Int :=
  let a := wtAt s.ce.wtA b i ls r
  match (s.ceBeam b).ramp with
  | none => a
  | some x =>
    let n := wtAt s.ce.wtS b i ls r
    let f (o w : Int) : Int := ratioRound (ratio (o * x.steps + (x.k : Int) * (w - o)) x.steps)
    (f a.1 n.1, f a.2 n.2)

/-- Exchange the banks of beam b. -/
def State.wtExchange (s : State) (b : Nat) : State :=
  let mine (p : Nat × Word) : Bool := decide (p.1 / 65536 = b)
  s.modCe fun c => { c with
    wtA := (c.wtS.filter mine).foldr (fun p m => kvPut m p.1 p.2) (c.wtA.filter fun p => !(mine p))
    wtS := (c.wtA.filter mine).foldr (fun p m => kvPut m p.1 p.2) (c.wtS.filter fun p => !(mine p)) }

/-- The swap executes at the slot of TIME t (R310). -/
def State.beamSwap (s : State) (b : Nat) (t : DevTime) (steps ns : Nat) : State :=
  let s := ((s.put (CE_BM_MK_CTL_PENDING b) 0).put (CE_BM_MK_CTL_HELD b) 0).putTime (CE_BM_DONE_SEC b) (CE_BM_DONE_FRAC b) t
  let s := s.modBeam b fun x => { x with held := none }
  if ns = 0 || steps = 0 then s.wtExchange b
  else (s.put (CE_BM_MK_CTL_RAMPING b) 1).modBeam b fun x => { x with ramp := some ⟨t, steps, ns, 0⟩ }

/-- The markers that stand before the slot of TIME t act on beam b (R310): each swaps the banks there, or is held while a ramp
runs. A swap held behind a ramp that has ended executes first. -/
def State.beamActs (s : State) (b : Nat) (t : DevTime) : State :=
  let s := match (s.ceBeam b).held with
    | some (steps, ns) => if s.on (CE_BM_MK_CTL_RAMPING b) then s else s.beamSwap b t steps ns
    | none => s
  let l := (s.ceBeam b).acts.filter fun m => tLe m.time t
  let s := s.modBeam b fun x => { x with acts := x.acts.filter fun m => !(tLe m.time t) }
  s.each l fun s m =>
    let steps := bits m.arg.toNat 15 0
    let ns := bits m.arg.toNat 47 16
    if s.on (CE_BM_MK_CTL_RAMPING b) then
      (s.put (CE_BM_MK_CTL_HELD b) 1).modBeam b fun x => { x with held := some (steps, ns) }
    else s.beamSwap b t steps ns

/-- The step of beam b's ramp in force at the slot of TIME t (R310): the largest k with t_x + k RAMP_NS / STEPS at or before t. At
step STEPS the banks are exchanged and the ramp ends. -/
def State.beamStep (s : State) (b : Nat) (t : DevTime) : State :=
  match (s.ceBeam b).ramp with
  | none => s
  | some r =>
    let k := ((tDiff t r.tx).toNat * r.steps * 1000000000) / (r.ns * 2 ^ 48)
    if k < r.steps then s.modBeam b fun x => { x with ramp := some { r with k := k } }
    else ((s.wtExchange b).put (CE_BM_MK_CTL_RAMPING b) 0).modBeam b fun x => { x with ramp := none }

/-- TIME of the slot that beam b forms next: that of its oldest spectrum in alignment. -/
def State.beamNext (s : State) (b : Nat) : Option DevTime := (s.ceBeam b).times.head?.map fun g => g.time

/-- MARKER_CAL_RAMP_BEAM (R310): the markers before the slot that beam b forms next act. -/
def execMarkerCalRampBeam (b : Fin 32) (s : State) : Host.Outcome State Fault Refusal :=
  .next (match s.beamNext b with
    | some t => s.inIsland 10 fun s => s.beamActs b t
    | none => s)

/-- CE_BM_RAMP_STEP (R310): beam b's ramp moves to the step of the slot that it forms next. -/
def execCeBmRampStep (b : Fin 32) (s : State) : Host.Outcome State Fault Refusal :=
  .next (match s.beamNext b with
    | some t => s.inIsland 10 fun s => s.beamStep b t
    | none => s)

/-! ### Beams: slots (R305, R306, R311 to R316) -/

/-- Local inputs of a beam, its span, slice size and number of slices, its children. -/
def State.beamInputs (s : State) (b : Nat) : List Nat := (upto 16).filter fun i => bits (s.get (CE_BM_INPUTS_MASK b)) i i = 1
def State.beamSpan (s : State) (b : Nat) : Nat := 2 ^ s.get (CE_BM_RANGE_LOG_SPAN b)
def State.beamS (s : State) (b : Nat) : Nat := min (s.beamSpan b) 8192
def State.beamSlices (s : State) (b : Nat) : Nat := ceilDiv (s.beamSpan b) (s.beamS b)
def State.beamKids (s : State) (b : Nat) : List Nat := upto (min (s.get (CE_BM_RED_CHILDREN b)) 4)
def State.beamCfg (s : State) (b : Nat) : CeCfg := s.ceCfg ((s.beamInputs b).headD 0)

/-- L(c) times 2^14: the weighted sum over the present inputs (R306). -/
def State.beamSum (s : State) (b : Nat) (specs : List CeSpec) (ls first r : Nat) : Int × Int :=
  specs.foldl (fun a p =>
    let x := specEl p (first + r)
    let w := s.weight b p.x ls r
    (a.1 + w.1 * x.1 - w.2 * x.2, a.2 + w.1 * x.2 + w.2 * x.1)) (0, 0)

/-- The beam's own contribution to slice `sl` (R306, R312). -/
def State.ownPart (s : State) (b sl : Nat) (specs : List CeSpec) : Option CePart :=
  if specs.isEmpty then none
  else
    let ls := s.get (CE_BM_RANGE_LOG_SPAN b)
    let first := s.get (CE_BM_RANGE_FIRST b)
    let ps := s.get (CE_BM_RED_PS_FRAC b)
    let rnd (x : Int) : Int := ratioRound (ratio (x * (2 ^ ps : Nat)) (2 ^ 14))
    some {
      els := (upto (s.beamS b)).map fun c =>
        let l := s.beamSum b specs ls first (sl * s.beamS b + c)
        (rnd l.1, rnd l.2)
      count := specs.length
      inOvr := specs.any fun p => p.inOvr
      ovr := specs.any fun p => p.inOvr || p.ovf
      cal := specs.any fun p => p.cal
      excised := specs.foldl (fun a p => match a, p.excised with
        | none, e => e
        | a, none => a
        | some x, some y => some (max x y)) none }

/-- Sum of the contributions, saturated once per component (R306); answers the saturations. -/
def beamTotal (n : Nat) (parts : List CePart) : List (Int × Int) × Nat :=
  let raw := (upto n).map fun c => parts.foldl (fun a p => let e := p.els.getD c (0, 0); (a.1 + e.1, a.2 + e.2)) ((0, 0) : Int × Int)
  let cl (x : Int) : Int := if 32767 < x then 32767 else if x < -32767 then -32767 else x
  let sats := raw.foldl (fun a e => a + (if cl e.1 = e.1 then 0 else 1) + (if cl e.2 = e.2 then 0 else 1)) 0
  (raw.map fun e => (cl e.1, cl e.2), sats)

/-- Symmetric saturation to `w` bits of x / 2^k rounded to nearest, ties away from zero (R314). -/
def rootEl (w k : Nat) (x : Int) : Int :=
  let m : Int := ((2 ^ (w - 1) - 1 : Nat) : Int)
  let y := ratioRound (ratio x (2 ^ k))
  if m < y then m else if y < -m then -m else y

/-- W and FORMAT of a root's elements (R314). -/
def beamFormat (o : Nat) : Nat × Nat := if o = 2 then (4, 0x0302) else if o = 1 then (8, 0x0402) else (16, 0x0502)

/-- Hand a record that a stage formed to the hive (R313, R355). -/
def State.toHive (s : State) (inst : Nat) (r : YRec) : State :=
  let s := s.sendRecord .direct inst r
  { s with flow := { s.flow with hiveOut := s.flow.hiveOut ++ [r] } }

/-- The gap record of slots that had no contribution (R315), before the slot of TIME t: in a root's stream, or to the parent. -/
def State.beamGap (s : State) (b : Nat) (t : DevTime) : State :=
  match (s.ceBeam b).lastJ with
  | none => s
  | some (_, u) =>
    let c := s.beamCfg b
    let n := (ratioRound (ratio (tDiff t u * c.fs) (2 ^ 48 * c.hop)) - 1).toNat
    if n = 0 then s
    else
      let cause := (s.ceBeam b).cause.getD 0x000D
      let at_ := tAddFrac u c.hop c.fs
      if s.on (CE_BM_CTL_ROOT b) then s.gap (beamSid b) at_ n cause
      else s.toHive b (recordOfGap s .direct b 10 ⟨beamSid b, at_, BitVec.ofNat 48 n, BitVec.ofNat 16 cause, false⟩)

/-- Full count of a slot (R312). -/
def State.beamFull (s : State) (b : Nat) : Nat :=
  (s.beamKids b).foldl (fun a k => a + s.get (CE_BM_CHILD_INPUTS b k)) (s.beamInputs b).length

/-- A slot of beam b has completed: it is among the last 256 that have, or before all of them. -/
def CeBeam.slotDone (y : CeBeam) (t : DevTime) (sl : Nat) : Bool :=
  y.done.contains (t, sl) || match y.done[255]? with
    | some u => tLt t u.1
    | none => false

/-- No contribution to a slot has come. -/
def CeSlot.bare (x : CeSlot) : Bool := x.own.isNone && !(x.kids.any fun p => p.2.isSome)

/-- Emit a complete slot (R312 to R316), or nothing where it has no contribution. -/
def State.slotOut (s : State) (b : Nat) (x : CeSlot) : State :=
  let parts := x.own.toList ++ x.kids.filterMap fun p => p.2
  let s := s.modBeam b fun y => { y with done := ((x.time, x.slice) :: y.done).take 256 }
  if parts.isEmpty then s
  else
    let s := if x.slice = 0 then s.beamGap b x.time else s
    let n := s.beamS b
    let t := beamTotal n parts
    let s := if t.2 = 0 then s else s.count CE_BM_SAT_COUNT t.2
    let count := parts.foldl (fun a p => a + p.count) 0
    let partial_ := decide (count < s.beamFull b)
    let s := if partial_ then s.count (CE_BM_PARTIAL b) 1 else s
    let inOvr := parts.any fun p => p.inOvr
    let exc := parts.foldl (fun a p => match p.excised with
      | some e => some (max e (a.getD 0))
      | none => a) (none : Option Nat)
    let desc := leBytes 4 (unsign 32 x.j) ++ leBytes 2 x.slice
      ++ leBytes 1 ((if inOvr then 1 else 0) + (if t.2 = 0 then 0 else 2)) ++ leBytes 1 (s.beamCfg b).logC
    let flags := (if parts.any fun p => p.ovr then 2 else 0) + (if partial_ then 8 else 0)
      + (if parts.any fun p => p.cal then 16 else 0) + (if exc.isSome then 32 else 0)
    let contrib := if partial_ then count else 0
    let s :=
      if s.on (CE_BM_CTL_ROOT b) then
        let w := beamFormat (s.get (CE_BM_RED_OUT_BITS b))
        let sh := s.get (CE_BM_RED_ROOT_SHIFT b)
        let ms := markersTo x.old x.time (s.ceBeam b).markers
        let s := s.modBeam b fun y => { y with markers := ms.2 }
        s.sendFrame (beamSid b) (if x.slice = 0 then 1 else 0) {
          region := 10, time := x.time, format := w.2, flags := flags, excised := exc.getD 0, contrib := contrib
          markers := ms.1
          payload := desc ++ packElems w.1 (t.1.foldr (fun e l => rootEl w.1 sh e.1 :: rootEl w.1 sh e.2 :: l) []) }
      else s.toHive b {
        type := 6, stream := beamSid b, hive := s.hive, seq := s.exitSeqOf .direct b (beamSid b), time := x.time
        flags := BitVec.ofNat 16 (flags + (if s.coastAt x.time then 128 else 0))
        format := BitVec.ofNat 16 (0x0510 + s.get (CE_BM_RED_PS_FRAC b)), gapLength := 0, gapCause := 0
        contrib := BitVec.ofNat 16 contrib, excised := BitVec.ofNat 16 (exc.getD 0), epoch := s.epoch 10
        payload := desc ++ packElems 16 (t.1.foldr (fun e l => e.1 :: e.2 :: l) []) }
    s.modBeam b fun y => { y with lastJ := some (x.j, x.time), cause := none }

/-- Emit the slots of beam b that `f` finds complete. -/
def State.slotsFinish (s : State) (b : Nat) (f : CeSlot → Bool) : State :=
  let l := (s.ceBeam b).slots.filter f
  let s := s.modBeam b fun y => { y with slots := y.slots.filter fun x => !(f x) }
  s.each l fun s x => s.slotOut b x

/-- A slot is complete (R311). -/
def State.slotFull (s : State) (b : Nat) (x : CeSlot) : Bool :=
  x.ownDone && (s.beamKids b).all fun k => (kvGet x.kids k).isSome

/-- Change the slot of (time, slice), making it where it is new. -/
def State.modSlot (s : State) (b : Nat) (t : DevTime) (sl : Nat) (j : Int) (f : CeSlot → CeSlot) : State :=
  s.modBeam b fun y =>
    if y.slots.any fun x => x.time = t && x.slice = sl then
      { y with slots := y.slots.map fun x => if x.time = t && x.slice = sl then f x else x }
    else { y with slots := y.slots ++ [f { time := t, slice := sl, j := j, first := s.now }] }

/-- The beam's own contribution to every slot of a TIME is settled (R311). -/
def State.beamOwn (s : State) (b : Nat) (g : CeTime) : State :=
  let specs := g.specs.filter fun p => !p.settling
  let s := (s.beamActs b g.time).beamStep b g.time
  let j := match g.specs.head? with
    | some p => p.j
    | none => 0
  s.each (upto (s.beamSlices b)) fun s sl =>
    if (s.ceBeam b).slotDone g.time sl then s
    else s.modSlot b g.time sl j fun x => { x with
      ownDone := true, own := s.ownPart b sl specs, old := x.old || g.old, first := if x.bare then s.now else x.first }

/-- Every named input has lost the TIME of a slot that children opened. -/
def State.slotsSettle (s : State) (b : Nat) : State :=
  let f (y : CeBeam) (x : CeSlot) : CeSlot :=
    if !x.ownDone && !(y.times.any fun g => g.time = x.time) && (s.beamInputs b).all fun i => s.cePast i x.time
    then { x with ownDone := true } else x
  s.modBeam b fun y => { y with slots := y.slots.map (f y) }

/-- Settle what has become complete at beam b. -/
def State.beamSettle (s : State) (b : Nat) : State :=
  let full (g : CeTime) : Bool := (s.beamInputs b).all fun i => g.specs.any (fun p => p.x = i) || s.cePast i g.time g.old
  let l := (s.ceBeam b).times.filter full
  let s := s.modBeam b fun y => { y with times := y.times.filter fun g => !(full g) }
  let s := (s.each l fun s g => s.beamOwn b g).slotsSettle b
  s.slotsFinish b (s.slotFull b)

/-- A spectrum of a local input reaches beam b. -/
def State.beamArrive (s : State) (b : Nat) (p : CeSpec) : State :=
  if !(s.on (CE_BM_CTL_ENABLE b)) || !((s.beamInputs b).contains p.x) || !(s.dutyUp 10 (20 + b % 4)) then s
  else (s.modBeam b fun y => { y with times := addSpec s.now p y.times }).beamSettle b

/-- A gap record of cause c on combine input x: the cause of the dumps and slots that it leaves empty (R304, R315). -/
def State.ceGap (s : State) (x c : Nat) : State :=
  let fp (q : Nat × CePair) : Nat × CePair :=
    if s.get (CE_XP_SEL_A q.1) = x || s.get (CE_XP_SEL_B q.1) = x then
      (q.1, { q.2 with
        lost := some (q.2.lost.getD c)
        gapCause := if 0 < q.2.gap then some (q.2.gapCause.getD c) else q.2.gapCause })
    else q
  let fb (q : Nat × CeBeam) : Nat × CeBeam :=
    if (s.beamInputs q.1).contains x && q.2.cause.isNone then (q.1, { q.2 with cause := some c }) else q
  s.modCe fun e => { e with pairs := e.pairs.map fp, beams := e.beams.map fb }

/-- A spectrum reaches the cross-spectra and the beams (R295 to R297, R306), behind the markers due before it. -/
def State.ceSpec (s : State) (p : CeSpec) : State :=
  let c := s.ceCfg p.x
  let s := State.cbInsert p.time (c.hop * 2 ^ 48 / c.fs) s.flow.requests.length s
  let s := s.modCe fun c => { c with seen := kvPut c.seen p.x p.time }
  let s := s.xsArrive p
  if p.x < 16 then s.each (upto 32) fun s b => s.beamArrive b p else s

/-- The spectrum that the slices of a remote input make (R180, R181): an element 0 + 0j of a slice with excised channels counts as
zeroed (DESIGN CHOICE, assumption 55). -/
def remoteSpec (x w : Nat) (c : CeCfg) (l : List YRec) : CeSpec :=
  let (t, j) := match l with
    | q :: _ => (q.time, signed 32 (fromLe (q.payload.take 4)))
    | [] => (0, 0)
  let el (q : YRec) (i : Nat) : Int × Int :=
    let v := fromLe (q.payload.drop 8)
    (signed w (bits v (2 * w * i + w - 1) (2 * w * i)), signed w (bits v (2 * w * i + 2 * w - 1) (2 * w * i + w)))
  let els := l.flatMap fun q => (upto c.per).map fun i => (el q i, decide (bits q.flags.toNat 5 5 = 1))
  let status (q : YRec) : Nat := fromLe ((q.payload.drop 6).take 1)
  { x := x, time := t, j := j, logC := c.logC, els := els.map (·.1)
    zeroed := (upto els.length).filter fun i => els.getD i ((1, 0), false) = ((0, 0), true)
    inOvr := l.any fun q => bits (status q) 0 0 = 1
    ovf := l.any fun q => bits (status q) 1 1 = 1
    cal := l.any fun q => bits q.flags.toNat 4 4 = 1
    settling := l.any fun q => bits q.flags.toNat 2 2 = 1
    excised := if l.any fun q => bits q.flags.toNat 5 5 = 1 then some (l.foldl (fun a q => a + q.excised.toNat) 0) else none }

/-- A Yarenn record reaches remote input x (R295): a slice of a spectrum, whole when its last slice has come. One whose settings are
not those of CE_RIN_CFG is dropped and counted. -/
def State.rinRecord (s : State) (x : Nat) (r : YRec) : State :=
  let i := x - 16
  let c := s.ceCfg x
  let fmt := chanFormat c.bits
  if r.hive.toNat != s.get (CE_RIN_SRC_HIVE i) || r.stream.toNat != s.get (CE_RIN_SRC_STREAM i) then s
  else if r.type = 0x0B then s.ceGap x r.gapCause.toNat
  else
    let sl := fromLe ((r.payload.drop 4).take 2)
    if r.format.toNat != fmt.1 || fromLe ((r.payload.drop 7).take 1) != c.logC || r.payload.length != 8 + c.per * c.elem
        || decide (c.slices ≤ sl) then s.count (CE_RIN_DROP i) 1
    else
      let l := (kvGetD s.ce.part x []).filter (fun q => q.time = r.time) ++ [r]
      let set (l : List YRec) : State := s.modCe fun e => { e with part := kvPut e.part x l }
      if l.length < c.slices then set l else (set []).ceSpec (remoteSpec x fmt.2 c l)

/-- CB takes a token of combine input x: it adopts the epochs of the stream's markers and fences frames of another epoch (R32). -/
def State.ceToken (s : State) (x : Nat) (t : CeTok) : State :=
  match t with
  | .gap c => s.ceGap x c
  | .record r => s.rinRecord x r
  | .spec p e ms =>
    let id := sid 2 x
    let s := s.each (ms.filter fun m => m.type = .epoch && m.target = id) fun s m =>
      s.adoptEpoch 10 id (BitVec.ofNat 8 m.arg.toNat)
    if s.heldEpoch 10 id != e then s.fence 10 id else if s.ceOn x then s.ceSpec p else s

/-- CE_SPECTRUM_ARRIVE (R295 to R297, R306): CB takes what waits at combine input x, behind it the record `r` that the hive delivers
to a remote input. -/
def State.ceArrive (s : State) (x : Nat) (r : Option YRec) : State :=
  let s := match r with
    | some r => if 16 ≤ x && s.ceOn x then s.toCb x (.record r) else s
    | none => s
  if s.lost 10 then s
  else s.inIsland 10 fun s =>
    let l := kvGetD s.ce.inq x []
    (s.modCe fun e => { e with inq := kvDel e.inq x }).each l fun s t => s.ceToken x t

def execCeSpectrumArrive (x : Fin 32) (r : Option YRec) (s : State) : Host.Outcome State Fault Refusal := .next (s.ceArrive x r)

/-- The child that a record of beam b comes from. -/
def State.beamChild (s : State) (b : Nat) (h : BitVec 16) : Option Nat :=
  (s.beamKids b).find? fun k => s.get (CE_BM_CHILD_HIVE b k) = h.toNat

/-- A child's gap record (R315): it has nothing for the slots of those spectra. -/
def State.childGap (s : State) (b k : Nat) (r : YRec) : State :=
  let c := s.beamCfg b
  let e := tAddFrac r.time ((r.gapLength.toNat * c.hop : Nat) : Int) c.fs
  let f (x : CeSlot) : CeSlot :=
    if tLe r.time x.time && tLt x.time e && (kvGet x.kids k).isNone then { x with kids := kvPut x.kids k none } else x
  let s := s.modBeam b fun y => { y with slots := y.slots.map f }
  s.slotsFinish b (s.slotFull b)

/-- A child's record at beam b (R311 to R313). -/
def State.childRecord (s : State) (b : Nat) (r : YRec) : State :=
  if !(s.on (CE_BM_CTL_ENABLE b)) then s
  else match s.beamChild b r.hive with
    | none => s
    | some k =>
      if r.type = 0x0B then s.childGap b k r
      else
        let n := s.beamS b
        let sl := fromLe ((r.payload.drop 4).take 2)
        let bad := r.format.toNat != 0x0510 + s.get (CE_BM_RED_PS_FRAC b) || r.payload.length != 8 + 4 * n
          || fromLe ((r.payload.drop 7).take 1) != (s.beamCfg b).logC || decide (s.beamSlices b ≤ sl)
        if bad then
          (s.count (CE_BM_LATE b) 1).raiseAlarm 10 .combine b
        else if (s.ceBeam b).slotDone r.time sl then s.count (CE_BM_LATE b) 1
        else
          let v := fromLe (r.payload.drop 8)
          let f := r.flags.toNat
          let part : CePart := {
            els := (upto n).map fun i => (signed 16 (bits v (32 * i + 15) (32 * i)), signed 16 (bits v (32 * i + 31) (32 * i + 16)))
            count := if bits f 3 3 = 1 then r.contrib.toNat else s.get (CE_BM_CHILD_INPUTS b k)
            inOvr := decide (bits (fromLe ((r.payload.drop 6).take 1)) 0 0 = 1)
            ovr := decide (bits f 1 1 = 1)
            cal := decide (bits f 4 4 = 1)
            excised := if bits f 5 5 = 1 then some r.excised.toNat else none }
          let s := s.modSlot b r.time sl (signed 32 (fromLe (r.payload.take 4))) fun x =>
            { x with kids := kvPut x.kids k (some part), first := if x.bare then s.now else x.first }
          (s.slotsSettle b).slotsFinish b (s.slotFull b)

/-- CE_CHILD_RECORD: the beam takes the records of its children that have come. -/
def State.childArrive (s : State) (b : Nat) (r : YRec) : State :=
  let l := kvGetD s.ce.kidq b [] ++ [r]
  if s.lost 10 then s
  else if s.gated 10 then s.modCe fun e => { e with kidq := kvPut e.kidq b l }
  else (s.modCe fun e => { e with kidq := kvDel e.kidq b }).each l fun s r => s.childRecord b r

def execCeChildRecord (b : Fin 32) (r : YRec) (s : State) : Host.Outcome State Fault Refusal := .next (s.childArrive b r)

/-- CE_SLOT_DEADLINE (R311): ALIGN_US after a slot's first contribution it is complete. -/
def execCeSlotDeadline (b : Fin 32) (s : State) : Host.Outcome State Fault Refusal :=
  .next (s.inIsland 10 fun s => s.slotsFinish b fun x => !x.bare && tLe (tAdd x.first (usTicks (s.get (CE_BM_RED_ALIGN_US b)))) s.now)

/-! ### Budgets (R301, R302, R308, R317) -/

/-- Alignment depth D in spectra (R302). -/
def CeCfg.depth (c : CeCfg) (us : Nat) : Nat := ceilDiv (us * c.fs) (c.hop * 1000000) + 1

/-- Granules of the cross-spectra (R302). -/
def State.xsGranules (s : State) : Nat :=
  let acc := s.pairsOn.foldl (fun a k => a + s.pairAccs k) 0
  ceilDiv (8 * acc) 65536 + (if s.xsRemote then
    s.xsNamed.foldl (fun a x =>
      let c := s.ceCfg x
      a + ceilDiv (c.depth (s.get CE_XS_CFG_ALIGN_US) * 2 ^ c.logC * c.elem) 65536) 0 else 0)

/-- Granules of beam b (R302). -/
def State.beamGranules (s : State) (b : Nat) : Nat :=
  let n := s.get (CE_BM_RED_CHILDREN b)
  if n = 0 then 0
  else ceilDiv ((n + 1) * (s.beamCfg b).depth (s.get (CE_BM_RED_ALIGN_US b)) * s.beamSpan b * 4) 65536

/-- Granules of the beams enabled, without b. -/
def State.otherBeams (s : State) (b : Nat) : List Nat := (upto 32).filter fun i => i != b && s.on (CE_BM_CTL_ENABLE i)
def sumOf (l : List Nat) (f : Nat → Nat) : Nat := l.foldl (fun a x => a + f x) 0

/-- Cross-spectra demand times 2^18 (R301). -/
def State.xsDemand (s : State) : Nat :=
  sumOf s.pairsOn fun k =>
    let a := s.ceCfg (s.get (CE_XP_SEL_A k))
    let b := s.ceCfg (s.get (CE_XP_SEL_B k))
    (if a.bits = 2 && b.bits = 2 then 1 else 4) * 2 ^ s.get (CE_XP_RANGE_LOG_SPAN k) * a.rate18

/-- Bytes per second of pair k's stream with its frame headers (R303). -/
def State.xspcRate (s : State) (k : Nat) : Ratio :=
  let m := s.pairAccs k
  let a := min m 4096
  ratio (ceilDiv m a * (32 + 24 + 8 * a + ceilDiv a 64 * 8) * 1000000 : Nat) (max 1 (s.get CE_XS_CFG_DUMP_US))

/-- Bytes per second of remote CHAN input r (R196). -/
def State.rinRate (s : State) (r : Nat) : Ratio :=
  let c := s.ceCfg (16 + r)
  let n := 2 ^ c.logC
  ratio (c.fs * (n * c.elem + 40 * ceilDiv n (32768 / c.elem)) : Nat) c.hop

/-- Streams that the cross-spectra send and receive through CB's switch ports, with their demands in bytes per second (R642). -/
def State.xsStreams (s : State) : List (Nat × BitVec 16 × Ratio) :=
  (s.pairsOn.map fun k => (10, xspcSid k, s.xspcRate k))
    ++ (s.xsNamed.filter fun x => decide (16 ≤ x)).map fun x => (26, sid 2 (1000 + x), s.rinRate (x - 16))

/-- Range of a span within C, and its log2 within 7 to 17. -/
def rangeBad (first ls logC : Nat) : Bool := decide (ls < 7) || decide (17 < ls) || decide (2 ^ logC < first + 2 ^ ls)

/-- The check of CE_XS_CTL.ENABLE (R321). An input that the variant lacks is refused with class 02h (R2), before its missing
transform. -/
def State.xsCheck (s : State) : Nat :=
  let on := s.pairsOn
  let named := s.xsNamed
  let du := s.get CE_XS_CFG_DUMP_US
  let al := s.get CE_XS_CFG_ALIGN_US
  firstFail [
    (on.isEmpty || du < 1000 || 10000000 < du || al = 0 || 64 < al, 0x0191),
    (on.any fun k =>
      let f := s.get (CE_XP_RANGE_FIRST k)
      let ls := s.get (CE_XP_RANGE_LOG_SPAN k)
      f % 2 ^ s.get (CE_XP_RANGE_MERGE_LOG k) != 0 || rangeBad f ls (s.ceCfg (s.get (CE_XP_SEL_A k))).logC
        || rangeBad f ls (s.ceCfg (s.get (CE_XP_SEL_B k))).logC, 0x0190),
    (named.any fun x => decide (x < 16) && !(s.inputExists x), 0x0210),
    (named.any fun x => !(s.ceOn x), 0x0390),
    (named.any fun x => (s.ceCfg x).bits = 0, 0x0391),
    (on.any fun k =>
      let a := s.ceCfg (s.get (CE_XP_SEL_A k))
      let b := s.ceCfg (s.get (CE_XP_SEL_B k))
      a.logC != b.logC || a.half != b.half, 0x0392),
    (decide (218000000000000 * 2 ^ 18 < s.xsDemand), 0x0206),
    (decide (256 < s.xsGranules + sumOf (s.otherBeams 32) s.beamGranules), 0x0205),
    ((s.tieAll s.xsStreams).isNone, 0x020D)]

/-- Cross-spectra start. -/
def State.xsStart (s : State) : State :=
  let s := (s.tieAll s.xsStreams).getD s
  let d := s.dumpOf s.now
  let s := s.modCe fun c => { c with times := [], done := [], pairs := [] }
  let s := s.each s.pairsOn fun s k => (s.modPair k fun q => { q with dump := d }).openStream (xspcSid k)
  s.put CE_XS_STATUS_RUNNING 1

/-- Cross-spectra stop: dumps not read out are lost with the engine's disable. -/
def State.xsStop (s : State) : State :=
  let s := s.each s.xsStreams fun s x => s.freePort x.1 x.2.1
  let s := s.each s.pairsOn fun s k => s.closeStream (xspcSid k)
  (s.modCe fun c => { c with times := [], pairs := [] }).put CE_XS_STATUS_RUNNING 0

/-- A write of CE_XS_CTL. -/
def State.xsCtlWrite (s : State) (v : Nat) : State × Nat :=
  s.enableWrite CE_XS_CTL v CE_XS_CTL_ENABLE CE_XS_CTL_REASON (fun _ => 0) (·.xsCheck) (·.xsStart) (·.xsStop)

def execCeXsEnable (p : Fin 5) (v : Word) (s : State) : Host.Outcome State Fault Refusal :=
  .next (s.gatedWrite p CE_XS_CTL fun s => s.xsCtlWrite v.toNat)

/-- A write of CE_XS_CFG or of the pair table (R320, Table CE-3). -/
def State.xsSetWrite (s : State) (range : Bool) (a v : Nat) : State × Nat :=
  let rf := CE_XS_CTL_REASON
  if s.on CE_XS_CTL_ENABLE && s.changes a v != 0 then s.answer rf 0x0790
  else if range && bits v 27 25 = 7 then s.answer rf 0x0191
  else ((s.plainWrite a v).put rf 0, 0)

/-- A write of CE_RIN_SRC_i or CE_RIN_CFG_i (R320, Table CE-3). -/
def State.rinWrite (s : State) (i : Nat) (cfg : Bool) (v : Nat) : State × Nat :=
  let rf := CE_RIN_CFG_REASON i
  let a := if cfg then CE_RIN_CFG i else CE_RIN_SRC i
  if s.on CE_XS_CTL_ENABLE && s.changes a v != 0 then s.answer rf 0x0790
  else if cfg && bits v 14 13 = 0 then s.answer rf 0x0391
  else if cfg && bits v 14 13 = 3 then s.answer rf 0x0191
  else ((s.plainWrite a v).put rf 0, 0)

/-! ### Beam enable (R317, R322) -/

/-- Lanes in force of a device port. -/
def State.portLanes (s : State) (dp : Nat) : Nat := 2 ^ s.get (KL_PORT_STATUS_WIDTH_NOW (13 + dp / 32) (dp % 32))

/-- Port of the installed route to an address. -/
def State.routePort (s : State) (h : Nat) : Option Nat := (kvGet s.kh.routes h).map fun r => r.port

/-- Fabric demand of member beam b in bytes per second (R317). -/
def State.beamDemand (s : State) (b : Nat) : Ratio :=
  let c := s.beamCfg b
  ratio (c.fs * s.beamSlices b * (72 + 4 * s.beamS b) : Nat) c.hop

/-- R317: the demand through the port toward the parent exceeds its payload. -/
def State.beamOver (s : State) (b : Nat) : Bool :=
  match s.routePort (s.get (CE_BM_PARENT_PARENT b)) with
  | none => false
  | some dp =>
    let l := (s.otherBeams b).filter fun i =>
      !(s.on (CE_BM_CTL_ROOT i)) && s.routePort (s.get (CE_BM_PARENT_PARENT i)) = some dp
    ratioLt (ratioOf (s.portLanes dp * 12500000000 : Nat)) (l.foldl (fun a i => ratioAdd a (s.beamDemand i)) (s.beamDemand b))

/-- Bytes per second of a root's BEAM stream. -/
def State.rootRate (s : State) (b : Nat) : Ratio :=
  let c := s.beamCfg b
  ratio (c.fs * s.beamSlices b * (40 + s.beamS b * 2 * (beamFormat (s.get (CE_BM_RED_OUT_BITS b))).1 / 8) : Nat) c.hop

/-- The check of CE_BM_CTL_b.ENABLE (R322), 0210h before class 03h as R2 asks. -/
def State.beamCheck (s : State) (b : Nat) : Nat :=
  let ins := s.beamInputs b
  let c := s.beamCfg b
  let al := s.get (CE_BM_RED_ALIGN_US b)
  let root := s.on (CE_BM_CTL_ROOT b)
  let par := s.get (CE_BM_PARENT_PARENT b)
  let others := s.otherBeams b
  let band (i : Nat) : Nat := s.beamSpan i * (s.beamCfg i).rate18
  firstFail [
    (ins.isEmpty || rangeBad (s.get (CE_BM_RANGE_FIRST b)) (s.get (CE_BM_RANGE_LOG_SPAN b)) c.logC, 0x0190),
    (4 < s.get (CE_BM_RED_CHILDREN b) || 8 < s.get (CE_BM_RED_PS_FRAC b) || 15 < s.get (CE_BM_RED_ROOT_SHIFT b)
      || al = 0 || 64 < al || s.get (CE_BM_RED_OUT_BITS b) = 3, 0x0191),
    (ins.any fun x => !(s.inputExists x), 0x0210),
    (ins.any fun x => !(s.ceOn x), 0x0390),
    (ins.any fun x => (s.ceCfg x).bits = 0, 0x0391),
    (ins.any fun x => (s.ceCfg x).logC != c.logC || (s.ceCfg x).half != c.half, 0x0392),
    ((!root && (par = 0 || par = 0xFFFF)) || (s.beamKids b).any fun k =>
      s.get (CE_BM_CHILD_HIVE b k) = 0 || s.get (CE_BM_CHILD_INPUTS b k) = 0, 0x0393),
    (decide (204800000000 * 2 ^ 18 < band b + sumOf others band), 0x0207),
    (decide (256 < (if s.on CE_XS_CTL_ENABLE then s.xsGranules else 0) + s.beamGranules b + sumOf others s.beamGranules), 0x0205),
    (!root && s.beamOver b, 0x020E),
    (root && s.portsFull 10 (s.rootRate b), 0x020D)]

/-- A beam starts; the time of its last accepted ARM stays (R309). -/
def State.beamStart (s : State) (b : Nat) : State :=
  let s := s.modBeam b fun x => { armAt := x.armAt }
  let s := s.openStream (beamSid b)
  if s.on (CE_BM_CTL_ROOT b) then s.tiePort 10 (beamSid b) (s.rootRate b) else s

/-- A beam stops. -/
def State.beamStop (s : State) (b : Nat) : State :=
  let s := ((s.closeStream (beamSid b)).freePort 10 (beamSid b)).cancelMarker .calRamp (beamSid b)
  let s := s.modBeam b fun x => { armAt := x.armAt }
  ((s.put (CE_BM_MK_CTL_PENDING b) 0).put (CE_BM_MK_CTL_RAMPING b) 0).put (CE_BM_MK_CTL_HELD b) 0

/-- A write of a beam's settings (R320; STEPS outside 1 to 4,096 and OUT_BITS 11b refused with 0191h): the ramp words may be
written at any time. -/
def State.beamSetWrite (s : State) (name : RegName) (b a v : Nat) : State × Nat :=
  let rf := CE_BM_CTL_REASON b
  let free := name = .CE_BM_MK_SEC || name = .CE_BM_MK_FRAC || name = .CE_BM_RAMP_NS || name = .CE_BM_RAMP_STEPS
  if !free && s.on (CE_BM_CTL_ENABLE b) && s.changes a v != 0 then s.answer rf 0x0790
  else if name = .CE_BM_RAMP_STEPS && (bits v 15 0 = 0 || 4096 < bits v 15 0) then s.answer rf 0x0191
  else if name = .CE_BM_RED && bits v 7 6 = 3 then s.answer rf 0x0191
  else ((s.plainWrite a v).put rf 0, 0)

/-- A write of CE_BM_MK_CTL_b (R309): 0791h, 0592h and 0690h before the refusals of R26 (assumption 11). -/
def State.beamMkWrite (s : State) (b v : Nat) : State × Nat :=
  if bits v 0 0 = 0 then (s, 0)
  else
    let rf := CE_BM_MK_CTL_REASON b
    let t := atSecFrac (s.val (CE_BM_MK_SEC b)) (s.val (CE_BM_MK_FRAC b))
    let near := match (s.ceBeam b).armAt with
      | none => false
      | some u => tLt t (tAdd u (usTicks 1000))
    let c := firstFail [
      (!(s.on (CE_BM_CTL_ENABLE b)), 0x0791),
      (s.on (CE_BM_MK_CTL_PENDING b), 0x0592),
      (near, 0x0690)]
    if c != 0 then s.answer rf c
    else
      let arg := s.get (CE_BM_RAMP_STEPS_STEPS b) + s.val (CE_BM_RAMP_NS b) * 2 ^ 16
      s.askMarker rf .cb .calRamp (beamSid b) t (BitVec.ofNat 64 arg) fun s =>
        (s.put (CE_BM_MK_CTL_PENDING b) 1).modBeam b fun x => { x with armAt := some t }

def execCeBmArm (p : Fin 5) (b : Fin 32) (v : Word) (s : State) : Host.Outcome State Fault Refusal :=
  .next (s.gatedWrite p (CE_BM_MK_CTL b) fun s => s.beamMkWrite b v.toNat)

/-! ### The weight port (R309, R318) -/

/-- Advance P, then INPUT, then BEAM. -/
def State.wtAdvance (s : State) : State :=
  let n := (s.get CE_WT_ADDR_BEAM * 16 + s.get CE_WT_ADDR_INPUT) * 4096 + s.get CE_WT_ADDR_P + 1
  ((s.put CE_WT_ADDR_P n).put CE_WT_ADDR_INPUT (n / 4096)).put CE_WT_ADDR_BEAM (n / 65536)

/-- Key of the point that CE_WT_ADDR names. -/
def State.wtKey (s : State) : Nat := (s.get CE_WT_ADDR_BEAM * 16 + s.get CE_WT_ADDR_INPUT) * 4096 + s.get CE_WT_ADDR_P

/-- A write of CE_WT_DATA: 0792h for the active bank, 0590h and 0591h (R309). -/
def State.wtDataWrite (s : State) (v : Nat) : State × Nat :=
  let b := s.get CE_WT_ADDR_BEAM
  let rf := CE_BM_MK_CTL_REASON b
  if s.on CE_WT_ADDR_BANK then s.answer rf 0x0792
  else if s.on (CE_BM_MK_CTL_PENDING b) then s.answer rf 0x0590
  else if s.on (CE_BM_MK_CTL_RAMPING b) then s.answer rf 0x0591
  else
    let k := s.wtKey
    (((s.modCe fun c => { c with wtS := kvSetD 0x4000 c.wtS k (BitVec.ofNat 32 v) }).put rf 0).wtAdvance, 0)

/-- A read of CE_WT_DATA. -/
def State.wtDataRead (s : State) : State × Word :=
  (s.wtAdvance, kvGetD (if s.on CE_WT_ADDR_BANK then s.ce.wtA else s.ce.wtS) s.wtKey 0x4000)

def execCeWtDataAccess (p : Fin 5) (v : Option Word) (s : State) : Host.Outcome State Fault Refusal :=
  .next (match v with
    | some v => s.gatedWrite p CE_WT_DATA fun s => s.wtDataWrite v.toNat
    | none => s.readOut p CE_WT_DATA fun s => s.wtDataRead)

end Sys2Proof.Machine
end

