-- ==== Sys2Proof/Machine/Link.lean ====
section
/-! DEFINITION. Machine/Link.lean: Kepalink lanes and ports, spares, time transfer, Ethernet export (chapter 11, R324 to
R356). Device port dp is 32 r + q (R332). -/

namespace Sys2Proof.Machine

/-! ### Lanes and ports -/

/-- Window of a device port, and its index in its region. -/
def kw (dp : Nat) : Nat := 13 + dp / 32
def kq (dp : Nat) : Nat := dp % 32

def State.modKl (s : State) (f : KlSt → KlSt) : State := { s with kl := f s.kl }
def State.klPort (s : State) (dp : Nat) : KlPort := kvGetD s.kl.ports dp {}
def State.modKlPort (s : State) (dp : Nat) (f : KlPort → KlPort) : State :=
  s.modKl fun k => { k with ports := kvMod {} k.ports dp f }

/-- Port state (Table KL-10): 0 DOWN, 1 TRAINING, 2 ALIGNING, 3 UP. -/
def State.klState (s : State) (dp : Nat) : Nat := s.get (KL_PORT_STATUS_STATE (kw dp) (kq dp))
def State.klOn (s : State) (dp : Nat) : Bool := s.on (KL_PORT_CTL_ENABLE (kw dp) (kq dp)) && !(s.lost (kw dp))
def State.klEther (s : State) (dp : Nat) : Bool := s.on (KL_PORT_CTL_MODE (kw dp) (kq dp))
/-- A Kepalink port that is UP. -/
def State.klUp (s : State) (dp : Nat) : Bool := s.klOn dp && !(s.klEther dp) && s.klState dp = 3

/-- Device ports present (R1, R324). -/
def State.klPorts (s : State) : List Nat := upto (if s.variant = .yn9616 then 64 else 32)

/-- Lane i of region window w is retired (R335). -/
def State.laneDead (s : State) (w i : Nat) : Bool := s.on (KL_LANE_STATUS_RETIRED w i)

/-- Lane i of region window w carries nothing: it is retired, or a spare that is not enabled (R335, R336). -/
def State.laneOut (s : State) (w i : Nat) : Bool := s.laneDead w i || (decide (64 ≤ i) && !(s.on (KL_SPARE_ENABLE w (i - 64))))

/-- The lane that serves for port lane i: the spare in use in its place, where one is (R336, R337). -/
def State.laneFor (s : State) (w i : Nat) : Nat :=
  match s.server w i with
  | some b => if decide (64 ≤ b) && s.on (KL_SPARE_IN_USE w (b - 64)) then b else i
  | none => i

/-- The first and the number of lanes a port is configured with. -/
def State.klFirst (s : State) (dp : Nat) : Nat := s.get (KL_PORT_CTL_FIRST (kw dp) (kq dp))
def State.klWidth (s : State) (dp : Nat) : Nat := 2 ^ s.get (KL_PORT_CTL_WIDTH (kw dp) (kq dp))

/-- log2 of the largest of 8, 4, 2 and 1 that `n` healthy lanes allow (R340). -/
def widthFor (n : Nat) : Nat := if 8 ≤ n then 3 else if 4 ≤ n then 2 else if 2 ≤ n then 1 else 0

/-- Own transmit codeword count now (R331): one codeword takes 51.2 ns. -/
def State.txCount (s : State) (dp : Nat) : Nat :=
  let p := s.klPort dp
  p.tx + (tDiff s.now p.txAt).toNat * 10000000000 / (512 * 2 ^ 48)

/-- The peer's transmit codeword count now. -/
def State.peerCount (s : State) (dp : Nat) : Nat :=
  let p := s.klPort dp
  p.peerTx + (tDiff s.now p.peerAt).toNat * 10000000000 / (512 * 2 ^ 48)

/-- The role a sideband message travels on (R342, R362): TIME and CREDIT on role 0, hive messages on the last; NARROW and its
ACK, whose role is left open, on the lowest healthy one (assumption 58). -/
def State.sbRole (s : State) (dp : Nat) (m : SbMsg) : Nat :=
  let lanes := (s.klPort dp).map
  match m with
  | .time _ | .credit _ _ _ => 0
  | .narrow _ _ _ | .ack _ _ => ((upto lanes.length).find? fun j => !(s.laneOut (kw dp) (lanes.getD j 0))).getD 0
  | _ => lanes.length - 1

/-- Send a sideband message from a port. -/
def State.sideband (s : State) (dp : Nat) (m : SbMsg) : State :=
  match (s.klPort dp).map[s.sbRole dp m]? with
  | some i => s.emit (.laneMsg (68 * (dp / 32) + i) m)
  | none => s

/-- The level of the link alarm (Table CP-8): the port is miswired, or narrower than it is set. -/
def State.linkLevel (s : State) (dp : Nat) : State :=
  let w := kw dp
  let q := kq dp
  if s.klOn dp && (s.on (KL_PORT_STATUS_MISWIRED w q)
      || decide (s.get (KL_PORT_STATUS_WIDTH_NOW w q) < s.get (KL_PORT_CTL_WIDTH w q))) then s.beginLevel w .link dp
  else s.endLevel w .link dp

/-- The first multiple of 16 at least 3 us ahead (R337). -/
def State.switchCount (s : State) (dp : Nat) : Nat := ceilDiv (s.txCount dp + ceilDiv 30000 512) 16 * 16

/-- Show the roles that are healthy, by the lanes in force. -/
def State.putRoles (s : State) (dp : Nat) : State :=
  s.put (KL_PORT_STATUS_ROLES (kw dp) (kq dp)) (((s.klPort dp).map.zip (upto 8)).foldl (fun a p =>
    if s.laneOut (kw dp) p.1 then a else a + 2 ^ p.2) 0)

/-- IN_PORT and PORT of a lane: the port it serves, if any (Table KL-10). -/
def State.laneServes (s : State) (w i : Nat) (q : Option Nat) : State :=
  (s.put (KL_LANE_STATUS_IN_PORT w i) (if q.isSome then 1 else 0)).put (KL_LANE_STATUS_PORT w i) (q.getD 0)

/-- The record in progress on a port is discarded (R329). -/
def State.dropRecord (s : State) (dp : Nat) : State :=
  if (s.klPort dp).cur.isEmpty then s
  else (s.count (KL_PORT_ABORTS (kw dp) (kq dp)) 1).modKlPort dp fun p => { p with cur := [] }

/-- A port leaves UP, or never reached it: its neighbour is gone (R364), the hive clock with it (R344), and it trains again, the
lanes without link training and codeword lock (R334). -/
def State.klDown (s : State) (dp : Nat) (state : Nat) : State :=
  let s := (s.dropRecord dp).put (KL_PORT_STATUS_STATE (kw dp) (kq dp)) state
  let s := s.each (s.klPort dp).map fun s i => (s.put (KL_LANE_STATUS_TRAINED (kw dp) i) 0).put (KL_LANE_STATUS_FEC_LOCK (kw dp) i) 0
  let s := s.modKlPort dp fun p => { p with seen := [], swap := none, fails := [], turn := 0, peerLast := none }
  ({ s with kh := { s.kh with nbrs := kvDel s.kh.nbrs dp } } : State).hiveWatch

/-- Form a port of its healthy lanes (R334, R340): `w` is log2 of the width. -/
def State.klForm (s : State) (dp w : Nat) (lanes : List Nat) : State :=
  let s := s.each (s.klPort dp).map fun s i => s.laneServes (kw dp) i none
  let s := s.each (lanes.take (2 ^ w)) fun s i => s.laneServes (kw dp) i (some (kq dp))
  (((s.modKlPort dp fun p => { p with map := lanes.take (2 ^ w), turn := 0, seen := [], fails := [] }).put
    (KL_PORT_STATUS_WIDTH_NOW (kw dp) (kq dp)) w).putRoles dp).linkLevel dp

/-- The check of KL_PORT_CTL.ENABLE (R354). -/
def State.klPortCheck (s : State) (dp : Nat) : Nat :=
  let w := kw dp
  let q := kq dp
  let first := s.klFirst dp
  let n := s.klWidth dp
  let mtu := s.get (KL_EX_CTL_MTU w q)
  let others := (upto 32).filter fun i => i != q && s.on (KL_PORT_CTL_ENABLE w i)
  let ether := (s.klPorts.filter fun d => d != dp && s.on (KL_PORT_CTL_ENABLE (kw d) (kq d)) && s.klEther d).length
  firstFail [
    (w = 14 && s.variant = .yn9608, 0x0210),
    (first % n != 0, 0x01A1),
    (s.klEther dp && n != 4, 0x01A4),
    (mtu < 1280 || 9000 < mtu, 0x01A2),
    (others.any fun i =>
      let d := 32 * (w - 13) + i
      decide (s.klFirst d < first + n) && decide (first < s.klFirst d + s.klWidth d), 0x05A0),
    (s.klEther dp && decide (8 ≤ ether), 0x0227)]

/-- A port starts training (R334), a spare in use in the place of the lane it stands for. Short of lanes, a Kepalink port narrows
(R340) and an Ethernet port, which has no spare and one width, is DOWN (R347). -/
def State.klPortStart (s : State) (dp : Nat) : State :=
  let w := kw dp
  let all := (upto (s.klWidth dp)).map (s.klFirst dp + ·)
  let lanes := if s.klEther dp then all else all.map (s.laneFor w)
  let good := lanes.filter fun i => !(s.laneOut w i)
  let s := s.modKlPort dp fun _ => { txAt := s.now, peerAt := s.now, win := s.now }
  let s := s.each lanes fun s i => s.modKl fun k => { k with lanes := kvDel k.lanes (68 * (w - 13) + i) }
  let s := if good.length = lanes.length || s.klEther dp then s.klForm dp (s.get (KL_PORT_CTL_WIDTH w (kq dp))) lanes
    else (s.klForm dp (widthFor good.length) good).put (KL_PORT_STATUS_NARROWED w (kq dp)) 1
  s.put (KL_PORT_STATUS_STATE w (kq dp)) (if good.isEmpty || (s.klEther dp && good.length != lanes.length) then 0 else 1)

/-- A port stops. -/
def State.klPortStop (s : State) (dp : Nat) : State :=
  let w := kw dp
  let all := (upto (s.klWidth dp)).map (s.klFirst dp + ·) ++ (s.klPort dp).map
  let s := ((s.klDown dp 0).put (KL_PORT_STATUS_ROLES w (kq dp)) 0).put (KL_PORT_STATUS_MISWIRED w (kq dp)) 0
  let s := s.each all fun s i => s.setVal (KL_LANE_STATUS w i) (s.val (KL_LANE_STATUS w i) &&& 8)
  s.linkLevel dp

/-- A write of KL_PORT_CTL_q (R353, R354; 01A0h for a reserved MEDIUM). -/
def State.klPortWrite (s : State) (dp v : Nat) : State × Nat :=
  let w := kw dp
  let q := kq dp
  let rf := KL_PORT_CTL_REASON w q
  if bits v 13 13 = 1 then s.answer rf 0x01A0
  else s.enableWrite (KL_PORT_CTL w q) v (KL_PORT_CTL_ENABLE w q) rf
    (fun s => if s.on (KL_PORT_CTL_ENABLE w q) then 0x07A0 else 0) (·.klPortCheck dp) (·.klPortStart dp) (·.klPortStop dp)

/-- Every role has seen ALIGN of its own role from one peer port (R333). -/
def State.klAligned (s : State) (dp : Nat) : Bool :=
  let p := s.klPort dp
  match kvGet p.seen 0 with
  | none => false
  | some a => (upto p.map.length).all fun i => kvGet p.seen i = some a

/-- KL_PORT_UP (R333, R334): training, codeword lock and the ALIGN checks are complete. -/
def State.klPortUp (s : State) (dp : Nat) : State :=
  let w := kw dp
  let q := kq dp
  if !(s.klOn dp) || s.klState dp = 3 || s.klState dp = 0 || !(s.klEther dp || s.klAligned dp) then s
  else
    let s := s.each (s.klPort dp).map fun s i => s.setVal (KL_LANE_STATUS w i) (s.val (KL_LANE_STATUS w i) ||| 7)
    let s := ((s.put (KL_PORT_STATUS_STATE w q) 3).put (KL_PORT_STATUS_MISWIRED w q) 0).putRoles dp
    s.modKlPort dp fun p => { p with used := [0, 0, 0], got := [0, 0, 0], freed := [0, 0, 0], turn := 0, cur := [], okFrom := s.now }

def execKlPortUp (dp : Fin 64) (s : State) : Host.Outcome State Fault Refusal := .next (s.klPortUp dp)

/-! ### ALIGN (R331, R333, R336) -/

/-- The port that lane i of window w has a role in, with the role. -/
def State.laneRole (s : State) (w i : Nat) : Option (Nat × Nat) :=
  ((upto 32).filterMap fun q =>
    let dp := 32 * (w - 13) + q
    if s.klOn dp && !(s.klEther dp) then
      (((s.klPort dp).map.zip (upto 8)).find? fun p => p.1 = i).map fun p => (dp, p.2)
    else none).head?

/-- A codeword has been decoded on lane i of window w: the lane has signal, link training and codeword lock, and its port is
ALIGNING once every lane of it has (R334, Table KL-4). -/
def State.laneLock (s : State) (w i : Nat) : State :=
  let at_ := s.laneRole w i
  if s.laneOut w i || (at_.isNone && decide (i < 64)) then s
  else
    let s := s.setVal (KL_LANE_STATUS w i) (s.val (KL_LANE_STATUS w i) ||| 7)
    match at_ with
    | none => s
    | some (dp, _) =>
      if s.klState dp = 1 && (s.klPort dp).map.all fun j => s.on (KL_LANE_STATUS_FEC_LOCK w j)
      then s.put (KL_PORT_STATUS_STATE w (kq dp)) 2 else s

/-- KL_SB_ALIGN: an ALIGN message on lane i of region r. A spare without a role is checked by its peer port (R336), a lane with
one, a spare in use among them, by its role (assumption 185). -/
def State.sbAlign (s : State) (w i role port hive count : Nat) : State :=
  if s.laneOut w i then s
  else match s.laneRole w i with
    | none =>
      if i < 64 then s
      else
        let k := i - 64
        let s := s.laneLock w i
        let dp := 32 * (w - 13) + s.get (KL_SPARE_PORT w k)
        let ok := decide (8 ≤ role) && s.get (KL_PORT_PEER_PORT (kw dp) (kq dp)) = port
          && s.get (KL_PORT_PEER_HIVE (kw dp) (kq dp)) = hive
        s.put (KL_SPARE_TRAINED w k) (if ok then 1 else 0)
    | some (dp, own) =>
      let q := kq dp
      let s := s.laneLock w i
      let p := s.klPort dp
      let other := (p.seen.filter fun x => x.1 != own).any fun x => x.2 != (hive, port)
      if role != own || other then
        if s.klState dp = 3 then s
        else ((s.put (KL_PORT_STATUS_MISWIRED w q) 1).modKlPort dp fun p => { p with seen := kvDel p.seen own }).linkLevel dp
      else
        let s := (s.modKlPort dp fun p => { p with
          seen := kvPut p.seen own (hive, port), peerTx := count, peerAt := s.now }).setVal (KL_PORT_PEER w q) (hive * 65536 + port)
        if s.klAligned dp then (s.put (KL_PORT_STATUS_MISWIRED w q) 0).linkLevel dp else s

def execKlSbAlign (r : Fin 2) (i : Fin 68) (role : Nat) (port : Fin 64) (hive : BitVec 16) (count : BitVec 48) (s : State) :
    Host.Outcome State Fault Refusal :=
  .next (s.sbAlign (13 + r) i role port hive.toNat count.toNat)

def State.klLane (s : State) (r i : Nat) : KlLane := kvGetD s.kl.lanes (68 * r + i) {}
def State.modLane (s : State) (r i : Nat) (f : KlLane → KlLane) : State :=
  s.modKl fun k => { k with lanes := kvMod {} k.lanes (68 * r + i) f }

/-- KL_ALIGN_SEND (R331): a lane sends ALIGN once for every multiple of 16,384 codewords that its port's count has reached. -/
def State.alignSend (s : State) (w i : Nat) : State :=
  let send (s : State) (dp role : Nat) : State :=
    let c := s.txCount dp / 16384
    if s.laneOut w i || (s.klLane (w - 13) i).sent = some c then s
    else (s.modLane (w - 13) i fun l => { l with sent := some c }).emit
      (.laneMsg (68 * (w - 13) + i) (.align role dp s.hive (BitVec.ofNat 48 (c * 16384))))
  match s.laneRole w i with
    | some (dp, role) => if 2 ≤ s.klState dp then send s dp role else s
    | none => if 64 ≤ i then send s (32 * (w - 13) + s.get (KL_SPARE_PORT w (i - 64))) (8 + (i - 64)) else s

def execKlAlignSend (r : Fin 2) (i : Fin 68) (s : State) : Host.Outcome State Fault Refusal := .next (s.alignSend (13 + r) i)

/-! ### Lane failure, spares, narrowing (R335 to R340) -/

/-- The lowest trained free spare that serves a port. -/
def State.freeSpareLane (s : State) (dp : Nat) : Option Nat :=
  (upto 4).find? fun k => s.on (KL_SPARE_ENABLE (kw dp) k) && s.on (KL_SPARE_TRAINED (kw dp) k)
    && !(s.on (KL_SPARE_IN_USE (kw dp) k)) && s.get (KL_SPARE_PORT (kw dp) k) = kq dp && !(s.laneDead (kw dp) (64 + k))

/-- The port narrows to its healthy lanes (R340); with none it goes DOWN. -/
def State.klNarrow (s : State) (dp : Nat) : State :=
  let w := kw dp
  let m := (s.klPort dp).map
  let good := m.filter fun i => !(s.laneOut w i)
  let s := s.modKlPort dp fun p => { p with swap := none }
  if good.isEmpty then (s.klDown dp 0).put (KL_PORT_STATUS_ROLES w (kq dp)) 0
  else
    let wd := widthFor good.length
    let roles := (upto 8).filter fun r => match m[r]? with
      | some i => !(s.laneOut w i)
      | none => false
    let c := s.switchCount dp
    let s := s.sideband dp (.narrow wd (roles.take (2 ^ wd)) (BitVec.ofNat 48 c))
    (s.klForm dp wd good).put (KL_PORT_STATUS_NARROWED w (kq dp)) 1

/-- A role of a port has failed: a spare takes it, or the port narrows (R337, R340). A failure during a swap waits
(R339). -/
def State.roleFail (s : State) (dp role : Nat) : State :=
  if (s.klPort dp).swap.isSome then s.modKlPort dp fun p => { p with fails := p.fails ++ [role] }
  else match s.freeSpareLane dp with
    | some k =>
      let c := s.switchCount dp
      let lane := (s.klPort dp).map.getD role 0
      (s.modKlPort dp fun p => { p with swap := some { role := role, lane := lane, spare := k, tx := c } }).emit
        (.laneMsg (68 * (dp / 32) + 64 + k) (.swap role k (BitVec.ofNat 48 c)))
    | none => (s.count (FT_MASKED (kw dp)) 1).klNarrow dp

/-- Lane i of window w is retired in both directions. -/
def State.retireLane (s : State) (w i : Nat) : State :=
  let free := (s.blk w i).state = .freeSpare
  let s := (((s.put (KL_LANE_STATUS_RETIRED w i) 1).put (KL_LANE_STATUS_FEC_LOCK w i) 0).put (KL_LANE_STATUS_TRAINED w i) 0).setBlk
    w i ⟨.quarantined, none⟩
  if free then s.spareGone w i else s

/-- The Ethernet port that lane i of window w belongs to. -/
def State.laneEther (s : State) (w i : Nat) : Option Nat :=
  ((upto 32).map (32 * (w - 13) + ·)).find? fun dp => s.klOn dp && s.klEther dp && (s.klPort dp).map.contains i

/-- Lane i of window w is out: its role, if it has one, has failed. -/
def State.laneGone (s : State) (w i : Nat) : State :=
  match s.laneRole w i with
  | none => s
  | some (dp, role) => ((s.dropRecord dp).putRoles dp).roleFail dp role

/-- A swap of the port onto spare k runs. -/
def State.swapsTo (s : State) (dp k : Nat) : Bool :=
  match (s.klPort dp).swap with
  | some x => x.spare = k
  | none => false

/-- Spare k is out: a swap onto it ends and the port narrows (R339); the role that it holds has failed. -/
def State.spareOut (s : State) (w k : Nat) : State :=
  let s := (s.put (KL_SPARE_TRAINED w k) 0).put (KL_SPARE_IN_USE w k) 0
  let dp := 32 * (w - 13) + s.get (KL_SPARE_PORT w k)
  if s.swapsTo dp k then (s.dropRecord dp).klNarrow dp else s.laneGone w (64 + k)

/-- KL_LANE_FAIL (R335): an end declares lane i of region r failed; an Ethernet port goes DOWN with it (R347). -/
def State.laneFail (s : State) (w i : Nat) : State :=
  if s.laneDead w i then s
  else match s.laneEther w i with
    | some dp => ((s.retireLane w i).klDown dp 0).put (KL_PORT_STATUS_ROLES w (kq dp)) 0
    | none => if 64 ≤ i then (s.retireLane w i).spareOut w (i - 64) else (s.retireLane w i).laneGone w i

/-- The count at which the transmitter or the receiver switches has come (R337): its own, or the one the peer announced. -/
def State.switchDue (s : State) (dp : Nat) (tx : Bool) (x : KlSwap) : Bool :=
  if tx then decide (x.tx ≤ s.txCount dp) else match x.rx with
    | some c => decide (c ≤ s.peerCount dp)
    | none => false

/-- KL_SPARE_SWITCH (R337): at the switch count the transmitter (`tx`) or the receiver moves the failed role onto the spare;
once both have, the port is whole. -/
def State.spareSwitch (s : State) (dp : Nat) (tx : Bool) : State :=
  let w := kw dp
  match (s.klPort dp).swap with
  | none => s
  | some x =>
    if !(s.switchDue dp tx x) then s
    else
      let b := 64 + x.spare
      let s := if tx then s else s.modKlPort dp fun p => { p with map := p.map.set x.role b }
      let x : KlSwap := if tx then { x with txDone := true } else { x with rxDone := true }
      if !(x.txDone && x.rxDone) then s.modKlPort dp fun p => { p with swap := some x }
      else
        let lane := x.lane
        let fails := (s.klPort dp).fails
        let s := s.modKlPort dp fun p => { p with swap := none, fails := p.fails.drop 1 }
        let s := ((s.put (KL_SPARE_IN_USE w x.spare) 1).put (KL_PORT_STATUS_SWAPPED w (kq dp)) 1).putRoles dp
        let s := ((s.laneServes w b (some (kq dp))).laneServes w lane none).setBlk w b ⟨.serving, some lane⟩
        let s := (s.count (FT_MASKED w) 1).spareGone w lane
        match fails with
        | [] => s
        | role :: _ => s.roleFail dp role

/-- KL_SB_SWAP (R337): the peer announces a swap; this end answers with its own switch count. -/
def State.sbSwap (s : State) (dp role spare count : Nat) : State :=
  let w := kw dp
  if !(s.klOn dp) || 4 ≤ spare then s
  else
    let s := match (s.klPort dp).map[role]? with
      | some i => if s.laneDead w i then s else ((s.retireLane w i).dropRecord dp).putRoles dp
      | none => s
    let c := match (s.klPort dp).swap with
      | some x => x.tx
      | none => s.switchCount dp
    let s := s.modKlPort dp fun p => { p with swap := some (match p.swap with
      | some x => { x with rx := some count }
      | none => { role := role, lane := p.map.getD role 0, spare := spare, tx := c, rx := some count }) }
    s.emit (.laneMsg (68 * (dp / 32) + 64 + spare) (.ack role (BitVec.ofNat 48 c)))

def execKlSbSwap (dp : Fin 64) (role spare : Nat) (count : BitVec 48) (s : State) : Host.Outcome State Fault Refusal :=
  .next (s.sbSwap dp role spare count.toNat)

/-- KL_SB_ACK (R337): the peer's switch count. -/
def execKlSbAck (dp : Fin 64) (role : Nat) (count : BitVec 48) (s : State) : Host.Outcome State Fault Refusal :=
  .next (match (s.klPort dp).swap with
    | some x => if x.role = role then s.modKlPort dp fun p => { p with swap := some { x with rx := some count.toNat } } else s
    | none => s)

/-- KL_SB_NARROW (R340): the port re-forms at the announced width with the announced roles. -/
def State.sbNarrow (s : State) (dp width : Nat) (roles : List Nat) : State :=
  if !(s.klOn dp) then s
  else
    let m := (s.klPort dp).map
    let lanes := roles.filterMap fun r => m[r]?
    let c := s.switchCount dp
    let s := ((s.dropRecord dp).klForm dp width lanes).put (KL_PORT_STATUS_NARROWED (kw dp) (kq dp)) 1
    s.sideband dp (.ack 0 (BitVec.ofNat 48 c))

def execKlSbNarrow (dp : Fin 64) (width : Fin 4) (roles : List Nat) (_count : BitVec 48) (s : State) :
    Host.Outcome State Fault Refusal :=
  .next (s.sbNarrow dp width roles)

/-- KL_RECORD_ABORT (R329): ABORT, an uncorrectable codeword or a bad HEADER_CRC. -/
def execKlRecordAbort (dp : Fin 64) (s : State) : Host.Outcome State Fault Refusal :=
  .next (if s.klUp dp then (s.count (KL_PORT_ABORTS (kw dp) (kq dp)) 1).modKlPort dp fun p => { p with cur := [] } else s)

/-- Spare k stops: it is free, and a role that it holds has failed (R337, R340, assumption 185). -/
def State.klSpareStop (s : State) (w k : Nat) : State :=
  (if s.on (KL_SPARE_IN_USE w k) then s.setBlk w (64 + k) ⟨.freeSpare, none⟩ else s).spareOut w k

/-- A write of KL_SPARE_k (R353, R355). -/
def State.klSpareWrite (s : State) (w k v : Nat) : State × Nat :=
  let f := KL_SPARE_ENABLE w k
  s.enableWrite (KL_SPARE w k) v f (KL_SPARE_REASON w k) (fun s => if s.on f then 0x07A0 else 0)
    (fun s =>
      let dp := 32 * (w - 13) + s.get (KL_SPARE_PORT w k)
      if s.klOn dp && !(s.klEther dp) then 0 else 0x03A0)
    id (·.klSpareStop w k)

/-- A write of KL_LANE_LIMIT_i (R356): no REASON field of the lane exists, so the path's refusal slot alone shows 01A3h. -/
def State.klLimitWrite (s : State) (w i v : Nat) : State × Nat :=
  if bits v 31 16 = 0 || bits v 7 0 < 16 || 240 < bits v 7 0 then (s, 0x01A3)
  else (s.plainWrite (KL_LANE_LIMIT w i) v, 0)

/-! ### Two-way time transfer (R342 to R346) -/

/-- STATUS of Table KL-7. -/
def State.timeStatus (s : State) : Nat :=
  let c := s.get ST_REF_STATUS_SELECTED
  let coast := s.on ST_REF_STATUS_COASTING
  let valid := s.following.isSome || (s.get ST_REF_CTL_SOURCE = 4 && !coast)
  (if valid then 1 else 0) + (if (c = 1 || c = 2) && !coast then 2 else 0) + (if s.on ST_REF_STATUS_PPS_OK then 4 else 0)
    + (if coast then 8 else 0)

/-- STATUS reports EXTERNAL and PPS_OK and not COASTING (R346). -/
def calStatus (n : Nat) : Bool := bits n 3 1 = 3

/-- KL_TIME_SEND (R342): every 10 us role 0 sends TIME, which departs at `tx`. -/
def State.timeSend (s : State) (dp : Nat) (tx : DevTime) : State :=
  if !(s.klUp dp) || !(s.on (KL_TT_CTL_TT_EN (kw dp) (kq dp))) || !(s.due (s.klPort dp).ttAt 10) then s
  else
    let p := s.klPort dp
    let rx := p.peerLast.getD (0, 0)
    let m : TimeMsg := ⟨BitVec.ofNat 16 p.seq, p.sentLast, rx.2, BitVec.ofNat 16 rx.1, BitVec.ofNat 8 s.timeStatus⟩
    (s.modKlPort dp fun p => { p with
      ttAt := some s.now
      seq := (p.seq + 1) % 65536
      sentLast := tx
      sent := kvPut (p.sent.filter fun x => (p.seq + 65536 - x.1) % 65536 < 16) p.seq tx }).sideband dp (.time m)

def execKlTimeSend (dp : Fin 64) (tx : DevTime) (s : State) : Host.Outcome State Fault Refusal := .next (s.timeSend dp tx)

/-- Nearest number of 0.25 ps units in `x / d` units of 2^-48 s. -/
def quarterPs (x : Int) (d : Nat) : Int := ratioRound (ratio (x * 4000000000000) (d * 2 ^ 48))

/-- Twice ASYM / 2 in 2^-48 s: ASYM. -/
def State.asym (s : State) (dp : Nat) : Int := psTicks (signed 32 (s.val (KL_TT_ASYM (kw dp) (kq dp))))

/-- Theta deviates by at most 5 ps rms over `n` exchanges with sum and sum of squares of twice theta. -/
def stable (n : Nat) (sum sq : Int) : Bool :=
  decide ((((n : Int) * sq - sum * sum) * 10 ^ 22) ≤ (n : Int) * n * 2 ^ 96)

/-- One exchange (R343): t1 and t4 are own stamps, t2 and t3 the peer's. -/
def State.exchange (s : State) (dp : Nat) (t1 t2 t3 t4 : DevTime) : State :=
  let w := kw dp
  let q := kq dp
  let a := tDiff t2 t1
  let b := tDiff t4 t3
  let p := s.klPort dp
  let ex := ((a - b, a + b) :: p.exch).take 1024
  let n := ex.length
  let raw := ex.foldl (fun x e => x + e.1) 0
  let del := ex.foldl (fun x e => x + e.2) 0
  let th := a - b - s.asym dp
  let full := decide ((2 ^ 48 : Int) ≤ tDiff s.now p.win)
  let ok := calStatus s.timeStatus && calStatus p.peerStatus
  let s := s.modKlPort dp fun p => { p with
    exch := ex
    win := if full then s.now else p.win
    winN := if full then 1 else p.winN + 1
    winSum := if full then th else p.winSum + th
    winSq := if full then th * th else p.winSq + th * th
    cal := p.cal.map fun c => (c.1, c.2.1 + 1, c.2.2.1 + (a - b), c.2.2.2 || !ok) }
  let s := (s.setVal (KL_TT_OFFSET w q) (unsign 32 (quarterPs (raw - (n : Int) * s.asym dp) (2 * n)))).setVal
    (KL_TT_DELAY w q) (unsign 32 (quarterPs del (2 * n)))
  if full && 0 < p.winN then s.put (KL_TT_STATUS_STABLE w q) (if stable p.winN p.winSum p.winSq then 1 else 0) else s

/-- KL_SB_TIME (R342, R343): a TIME message arrives at `rx`. -/
def State.sbTime (s : State) (dp : Nat) (m : TimeMsg) (rx : DevTime) : State :=
  if !(s.klUp dp) || !(s.on (KL_TT_CTL_TT_EN (kw dp) (kq dp))) then s
  else
    let p := s.klPort dp
    let missed := match p.peerLast with
      | some (n, _) => (m.seq.toNat + 65535 - n) % 65536
      | none => 0
    let fresh := missed != 0 || !(s.on (KL_TT_STATUS_PEER_VALID (kw dp) (kq dp)))
    let s := ((s.put (KL_TT_STATUS_PEER_VALID (kw dp) (kq dp)) (bits m.status.toNat 0 0)).modKlPort dp fun p => { p with
      peerStatus := m.status.toNat, peerLast := some (m.seq.toNat, rx), okFrom := if fresh then s.now else p.okFrom })
    let s := if decide (4 ≤ missed) && s.get KH_STATUS_TIME_PORT = dp then s.hiveLost else s.hiveWatch
    match p.peerLast, kvGet p.sent m.rxSeq.toNat with
    | some (n, t4), some t1 =>
      if (n + 1) % 65536 = m.seq.toNat then s.exchange dp t1 m.rxLast m.txPrev t4 else s
    | _, _ => s

def execKlSbTime (dp : Fin 64) (m : TimeMsg) (rx : DevTime) (s : State) : Host.Outcome State Fault Refusal :=
  .next (s.sbTime dp m rx)

/-- A write of KL_TT_CTL_q (R346). -/
def State.ttCtlWrite (s : State) (dp v : Nat) : State × Nat :=
  let w := kw dp
  let q := kq dp
  let rf := KL_TT_CTL_REASON w q
  if s.klOn dp && bits v 0 0 != s.get (KL_TT_CTL_TT_EN w q) then s.answer rf 0x07A0
  else
    let s := s.put (KL_TT_CTL_TT_EN w q) (bits v 0 0)
    if bits v 1 1 = 0 then (s, 0)
    else
      let c := firstFail [
        (!(calStatus s.timeStatus && calStatus (s.klPort dp).peerStatus), 0x03A1),
        (s.on (KL_TT_STATUS_CAL_BUSY w q), 0x05A1)]
      if c != 0 then s.answer rf c
      else (((s.put rf 0).put (KL_TT_STATUS_CAL_BUSY w q) 1).modKlPort dp fun p =>
        { p with cal := some (s.now, 0, 0, false) }, 0)

def execKlTtCal (p : Fin 5) (dp : Fin 64) (s : State) : Host.Outcome State Fault Refusal :=
  .next (s.gatedWrite p (KL_TT_CTL (kw dp) (kq dp)) fun s => s.ttCtlWrite dp (2 + s.get (KL_TT_CTL_TT_EN (kw dp) (kq dp))))

/-- KL_TT_CAL_DONE (R346): 1 s after CAL, or when its condition lapses. -/
def State.ttCalDone (s : State) (dp : Nat) : State :=
  let w := kw dp
  let q := kq dp
  match (s.klPort dp).cal with
  | none => s
  | some (t, n, sum, lapsed) =>
    let ok := calStatus s.timeStatus && calStatus (s.klPort dp).peerStatus && !lapsed
    if ok && tLt s.now (tAdd t (2 ^ 48)) then s
    else
      let s := (s.put (KL_TT_STATUS_CAL_BUSY w q) 0).modKlPort dp fun p => { p with cal := none }
      if !ok || n = 0 then s.put (KL_TT_CTL_REASON w q) 0x03A1
      else (s.setVal (KL_TT_ASYM w q) (unsign 32 (ratioRound (ratio (sum * 1000000000000) (n * 2 ^ 48))))).put
        (KL_TT_STATUS_CAL_DONE w q) 1

def execKlTtCalDone (dp : Fin 64) (s : State) : Host.Outcome State Fault Refusal := .next (s.ttCalDone dp)

/-! ### Ethernet export (R347 to R351) -/

/-- An Ethernet port that is UP. -/
def State.exUp (s : State) (dp : Nat) : Bool := s.klOn dp && s.klEther dp && s.klState dp = 3

/-- KL_EX_RX_DROP (R349). -/
def State.exDrop (s : State) (dp : Nat) : State := if s.exUp dp then s.count (KL_EX_RXDROP (kw dp) (kq dp)) 1 else s
def execKlExRxDrop (dp : Fin 64) (s : State) : Host.Outcome State Fault Refusal := .next (s.exDrop dp)

/-- KL_EX_ARP (R349): an ARP request for `target` from `asker`. -/
def execKlExArp (dp : Fin 64) (target asker : BitVec 32) (s : State) : Host.Outcome State Fault Refusal :=
  .next (if s.exUp dp && s.val (KL_EX_IP4 (kw dp) (kq dp)) = target.toNat then
    s.emit (.arpReply dp asker) else s.exDrop dp)

/-- The port's IPv6 address, most significant word at _0. -/
def State.exIp6 (s : State) (dp : Nat) : Nat :=
  (upto 4).foldl (fun a j => a * 2 ^ 32 + s.val (KL_EX_IP6 (kw dp) (kq dp) j)) 0

/-- KL_EX_NEIGHBOR_SOLICIT (R349): a Neighbor Solicitation for `target`, sent to the port's address or its solicited-node
multicast address. -/
def execKlExNeighborSolicit (dp : Fin 64) (target asker : BitVec 128) (s : State) : Host.Outcome State Fault Refusal :=
  .next (if s.exUp dp && s.exIp6 dp = target.toNat then
    s.emit (.neighborAdvert dp asker) else s.exDrop dp)

/-- Chunk limit of a port (R350). -/
def State.exChunk (s : State) (dp : Nat) : Nat :=
  s.get (KL_EX_CTL_MTU (kw dp) (kq dp)) - (if s.on (KL_EX_CTL_IPV6 (kw dp) (kq dp)) then 40 else 20) - 24

/-- The export header (Table KL-8). -/
def exHeader (first last : Bool) (seq off len : Nat) : List Byte :=
  [0x59, 0x45, 0x01] ++ leBytes 1 ((if first then 1 else 0) + (if last then 2 else 0)) ++ leBytes 4 seq ++ leBytes 4 off
    ++ leBytes 4 len

/-- The `n` bytes of a number in network order. -/
def beBytes (n x : Nat) : List Byte := (leBytes n x).reverse

/-- Sum of 16-bit words in network order, an odd last byte padded with zero. -/
def netSum : List Byte → Nat
  | a :: b :: l => a.toNat * 256 + b.toNat + netSum l
  | [a] => a.toNat * 256
  | [] => 0

/-- Internet checksum: the ones' complement of the ones' complement sum. -/
def netCheck (bs : List Byte) : Nat := let n := netSum bs % 65535; 65535 - (if n = 0 && netSum bs != 0 then 65535 else n)

/-- Address registers of a flow's destination as one number, most significant word at _0. -/
def State.xfDip6 (s : State) (w f : Nat) : Nat := (upto 4).foldl (fun a j => a * 2 ^ 32 + s.val (KL_XF_DIP6 w f j)) 0

/-- A MAC address: bits [47:40] leave first (assumption 59). -/
def macBytes (hi lo : Nat) : List Byte := beBytes 2 (hi % 65536) ++ beBytes 4 lo

/-- The Ethernet II frame of a datagram of flow f with this UDP payload (R348), without its FCS: IPv4 with DF, TTL 64 and
identification 0, or IPv6 with hop limit 64 and flow label 0; the flow's DSCP; a UDP checksum, FFFFh in place of 0. -/
def State.exFrame (s : State) (w f : Nat) (data : List Byte) : List Byte :=
  let q := s.get (KL_XF_CTL_PORT w f)
  let dp := 32 * (w - 13) + q
  let v6 := s.on (KL_EX_CTL_IPV6 w q)
  let udp := 8 + data.length
  let src := if v6 then beBytes 16 (s.exIp6 dp) else beBytes 4 (s.val (KL_EX_IP4 w q))
  let dst := if v6 then beBytes 16 (s.xfDip6 w f) else beBytes 4 (s.val (KL_XF_DIP4 w f))
  let ports := beBytes 2 (s.get (KL_EX_CTL_UDP_SRC w q)) ++ beBytes 2 (s.val (KL_XF_DPORT w f)) ++ beBytes 2 udp
  let pseudo := src ++ dst ++ beBytes 4 17 ++ beBytes 4 udp
  let sum := netCheck (pseudo ++ ports ++ data)
  let dscp := s.get (KL_XF_CTL_DSCP w f)
  let head4 := [0x45, BitVec.ofNat 8 (4 * dscp)] ++ beBytes 2 (20 + udp) ++ beBytes 2 0 ++ beBytes 2 0x4000 ++ [64, 17]
  let ip := if v6 then beBytes 4 (0x60000000 + dscp * 2 ^ 22) ++ beBytes 2 udp ++ [17, 64] ++ src ++ dst
    else head4 ++ beBytes 2 (netCheck (head4 ++ src ++ dst)) ++ src ++ dst
  macBytes (s.val (KL_XF_DMAC_HI w f)) (s.val (KL_XF_DMAC_LO w f)) ++ macBytes (s.val (KL_EX_MAC_HI w q)) (s.val (KL_EX_MAC_LO w q))
    ++ beBytes 2 (if v6 then 0x86DD else 0x0800) ++ ip ++ ports ++ beBytes 2 (if sum = 0 then 65535 else sum) ++ data

/-- Send the bytes of a record as consecutive datagrams of at most `c` bytes; at most `n` of them. -/
def State.exSend (s : State) (w f c len : Nat) : Nat → Nat → List Byte → State
  | 0, _, _ => s
  | n + 1, off, bs =>
    if bs.isEmpty then s
    else
      let k := 64 * (w - 13) + f
      let seq := kvGetD s.kl.dgram k 0
      let chunk := bs.take c
      let s := (s.emit (.datagram w f (s.exFrame w f (exHeader (off = 0) (decide (len ≤ off + c)) seq off len ++ chunk)))).count
        (KL_XF_DGRAMS w f) 1
      (s.modKl fun x => { x with dgram := kvPut x.dgram k (seq + 1) }).exSend w f c len n (off + c) (bs.drop c)

/-- A GAP record in the place of lost ones (R37, R58, R381). -/
def State.gapRecOf (s : State) (r : YRec) (seq : BitVec 64) (time : DevTime) (len cause : Nat) : YRec :=
  { r with
    type := 0x0B, seq := seq, time := time, flags := BitVec.ofNat 16 (1 + (if s.coastAt time then 128 else 0))
    format := 0, gapLength := BitVec.ofNat 48 len, gapCause := BitVec.ofNat 16 cause, contrib := 0, excised := 0
    payload := [] }

/-- A record of a spectrum, integration or dump in slices, and its index and slice (Tables BT-4, DC-2, CE-1, CE-2). -/
def recSliced (r : YRec) : Bool :=
  let k := r.stream.toNat / 4096
  r.type != 0x0B && (k = 2 || k = 3 || k = 5 || k = 6)
def recIndex (r : YRec) : Int := signed 32 (recField r 0 4)
def recSlice (r : YRec) : Nat := recField r 4 2

/-- The index that a run of lost records has counted already, after one more record is lost. -/
def lostIndex (r : YRec) (had : Option Int) : Option Int := if recSliced r then some (recIndex r) else had

/-- A record is discarded whole at a producer's exit (R30): the GAP record that takes its place, one for the records of a stream
that are lost one after another. -/
def State.owe (s : State) (l : List YRec) (r : YRec) : List YRec :=
  match l.find? fun g => g.stream = r.stream && g.hive = r.hive with
  | none => l ++ [s.gapRecOf r r.seq r.time (recSamples none r false) 1]
  | some _ => l.map fun g => if g.stream = r.stream && g.hive = r.hive then
      { g with gapLength := g.gapLength + BitVec.ofNat 48 (recSamples none r (decide (recSliced r ∧ 0 < recSlice r))) } else g

/-- The GAP record owed for the stream of `r`, and the others. -/
def owedFor (l : List YRec) (r : YRec) : Option YRec := l.find? fun g => g.stream = r.stream && g.hive = r.hive
def owedRest (l : List YRec) (r : YRec) : List YRec := l.filter fun g => !(g.stream = r.stream && g.hive = r.hive)

/-- One record leaves on a flow. -/
def State.exOut (s : State) (w f : Nat) (r : YRec) : State :=
  let bs := recBytes r
  s.exSend w f (s.exChunk (32 * (w - 13) + s.get (KL_XF_CTL_PORT w f))) bs.length bs.length 0 bs

/-- KL_EX_RECORD_SEND (R350, R351): a record reaches flow f; beyond the port's rate (`room` false) it is discarded whole, and
a GAP record of cause 0001h takes its place before the next one. -/
def State.exRecord (s : State) (w f : Nat) (r : YRec) (room : Bool) : State :=
  let dp := 32 * (w - 13) + s.get (KL_XF_CTL_PORT w f)
  let k := 64 * (w - 13) + f
  if !(s.on (KL_XF_CTL_ON w f)) || !(s.exUp dp) then s
  else if room then
    let l := kvGetD s.kl.owed k []
    ((s.modKl fun x => { x with owed := kvDel x.owed k }).each l fun s g => s.exOut w f g).exOut w f r
  else (s.count (KL_XF_DROPPED w f) 1).modKl fun x => { x with owed := kvPut x.owed k (s.owe (kvGetD x.owed k []) r) }

def execKlExRecordSend (r : Fin 2) (f : Fin 64) (y : YRec) (room : Bool) (s : State) : Host.Outcome State Fault Refusal :=
  .next (s.inIsland (13 + r) fun s => s.exRecord (13 + r) f y room)

/-- Origin contexts whose records leave by flow f of window w (R350). -/
def State.flowCtxs (s : State) (w f : Nat) : List Nat :=
  (s.kh.ctx.map fun p => p.1).filter fun c => s.on (KH_SC_CTL_ON c) && s.get (KH_SC_SINK_KIND c) = 4
    && s.get (KH_SC_SINK_INDEX c) = 64 * (w - 13) + f && (s.get (KH_SC_CTL_ROLE c) = 0 || s.get (KH_SC_CTL_ROLE c) = 3)

/-- A write of KL_XF_CTL_f (R353, R355): it has no REASON field. ON opens its streams at this exit, from SEQUENCE 0 (R35). -/
def State.xfCtlWrite (s : State) (w f v : Nat) : State × Nat :=
  let on := s.on (KL_XF_CTL_ON w f)
  if on && s.changes (KL_XF_CTL w f) v / 2 != 0 then (s, 0x07A0)
  else if !on && bits v 0 0 = 1 then
    let dp := 32 * (w - 13) + bits v 12 8
    if s.klOn dp && s.klEther dp then
      let s := s.each (s.flowCtxs w f) fun s c => s.exitReopen .fabric (BitVec.ofNat 16 (s.get (KH_SC_KEY_STREAM_ID c)))
      ((s.plainWrite (KL_XF_CTL w f) v).modKl fun k => { k with
        dgram := kvDel k.dgram (64 * (w - 13) + f), owed := kvDel k.owed (64 * (w - 13) + f) }, 0)
    else (s, 0x03A0)
  else (s.plainWrite (KL_XF_CTL w f) v, 0)

def execKlFlowOn (p : Fin 5) (r : Fin 2) (f : Fin 64) (v : Word) (s : State) : Host.Outcome State Fault Refusal :=
  .next (s.gatedWrite p (KL_XF_CTL (13 + r) f) fun s => s.xfCtlWrite (13 + r) f v.toNat)

/-- A write of a setting of an ON flow (R353). -/
def State.xfSetWrite (s : State) (w f a v : Nat) : State × Nat :=
  if s.on (KL_XF_CTL_ON w f) && s.changes a v != 0 then (s, 0x07A0) else (s.plainWrite a v, 0)

end Sys2Proof.Machine
end

