-- ==== Sys2Proof/Machine/Hive.lean ====
section
/-! DEFINITION. Machine/Hive.lean: the hive's neighbours, root, addresses and routes (chapter 12, R358 to R370, R384). -/

namespace Sys2Proof.Machine

def State.modKh (s : State) (f : KhSt → KhSt) : State := { s with kh := f s.kh }

/-- The device takes part in the hive (R358). -/
def State.khIn (s : State) : Bool := s.on KH_CFG_ENABLE && decide (4 ≤ s.devState) && decide (s.devState ≤ 7)

/-- Serial from fuses, and the present address (0: none). -/
def State.khSerial (s : State) : Nat := s.pair KH_SERIAL_LO KH_SERIAL_HI
def State.khAddr (s : State) : Nat := s.get KH_ADDR_ADDR

/-- A list of flags as bits from `n` up. -/
def flagBits (l : List (Nat × Bool)) : Nat := l.foldl (fun a p => if p.2 then a + 2 ^ p.1 else a) 0

/-- HEALTH byte (Table KH-2): REPLACE, MEDIA and region lost as GLOBAL_HEALTH holds them. FIXED is taken to be ADDR_MODE
(assumption 21). -/
def State.khHealth (s : State) : Nat :=
  let h := s.get GLOBAL_HEALTH_HEALTH
  flagBits [(0, bits h 0 0 = 1), (1, bits h 1 1 = 1), (2, s.devState = 7), (3, s.devState = 6),
    (4, s.on ST_REF_STATUS_COASTING), (5, s.on KH_CFG_ADDR_MODE), (6, bits h 6 6 = 1)]

/-- Election class (R365). -/
def State.khClass (s : State) : Nat :=
  match s.following with
  | some r => if 2 < r then 0 else if s.on ST_REF_STATUS_PPS_OK then 2 else 1
  | none => 0

/-- Kepalink ports that are UP. -/
def State.khPorts (s : State) : List Nat := s.klPorts.filter s.klUp

/-- Send a message on every UP port but `not`. -/
def State.flood (s : State) (not : Option Nat) (m : SbMsg) : State :=
  s.each (s.khPorts.filter fun dp => some dp != not) fun s dp => s.sideband dp m

/-! ### Graph and routes (R369, R370) -/

/-- Own links: UP ports with a neighbour. -/
def State.khLinks (s : State) : List KhLink :=
  s.khPorts.filterMap fun dp => (kvGet s.kh.nbrs dp).map fun n => ⟨dp, n.w.addr, n.w.port, s.portLanes dp, true⟩

/-- Every node known, this device included: address, whether in SAFE, links. -/
def State.khView (s : State) : List (Nat × Bool × List KhLink) :=
  let own := s.khAddr
  (if own = 0 then [] else [(own, decide (s.devState = 7), s.khLinks)])
    ++ (s.kh.nodes.filter fun p => p.1 != own).map fun p => (p.1, decide (bits p.2.health.toNat 2 2 = 1), p.2.links.flatMap fun f => f.2)

/-- A link in one direction: from u by its port to v, at a cost. -/
structure KhEdge where
  u : Nat
  port : Nat
  v : Nat
  cost : Nat

/-- Links that both ends announce UP, neither being in SAFE. -/
def State.khEdges (s : State) : List KhEdge :=
  let view := s.khView.filter fun n => !n.2.1
  view.flatMap fun a => (a.2.2.filter fun l => l.up).filterMap fun l =>
    match (view.find? fun b => b.1 = l.peer.toNat) with
    | none => none
    | some b =>
      (b.2.2.find? fun k => k.up && k.port = l.peerPort && k.peer.toNat = a.1 && k.peerPort = l.port).map fun k =>
        ⟨a.1, l.port, b.1, 2 + 16 / max 1 (min l.width k.width)⟩

/-- One round of relaxation towards a destination. -/
def khRelax (es : List KhEdge) (d : KV Nat) : KV Nat :=
  es.foldl (fun d e => match kvGet d e.v with
    | none => d
    | some x => match kvGet d e.u with
      | none => kvPut d e.u (x + e.cost)
      | some y => if x + e.cost < y then kvPut d e.u (x + e.cost) else d) d

/-- `n` rounds. -/
def khRounds (es : List KhEdge) : Nat → KV Nat → KV Nat
  | 0, d => d
  | n + 1, d => khRounds es n (khRelax es d)

/-- Least cost from every node to `dest`. -/
def khDist (es : List KhEdge) (dest : Nat) : KV Nat := khRounds es (es.length + 1) [(dest, 0)]

/-- The next hop of R370 at u: least cost, then lower next address, then lower own port. -/
def khNext (es : List KhEdge) (d : KV Nat) (u : Nat) : Option KhEdge :=
  (es.filter fun e => e.u = u).foldl (fun a e => match kvGet d e.v with
    | none => a
    | some x => match a with
      | none => some { e with cost := x + e.cost }
      | some b =>
        let c := x + e.cost
        if c < b.cost || (c = b.cost && (e.v < b.v || (e.v = b.v && e.port < b.port))) then some { e with cost := c }
        else a) none

/-- The hops of the route from u to the destination of `d`, at most `n`. -/
def khPath (es : List KhEdge) (d : KV Nat) : Nat → Nat → List KhEdge
  | 0, _ => []
  | n + 1, u => match khNext es d u with
    | none => []
    | some e => e :: (if kvGet d e.v = some 0 then [] else khPath es d n e.v)

/-- Routes from this device to every other address. -/
def State.khRoutes (s : State) : KV KhRoute :=
  let es := s.khEdges
  let own := s.khAddr
  (s.khView.filter fun n => n.1 != own).foldl (fun r n =>
    let d := khDist es n.1
    match khNext es d own with
    | none => r
    | some e => kvPut r n.1 ⟨e.port, (khPath es d (es.length + 1) own).length, e.cost⟩) []

/-- Members of swarm w among the nodes known, this device included. -/
def State.swarmMembers (s : State) (w : Nat) : List Nat :=
  let own := s.khAddr
  (if own != 0 && bits (s.val (KH_SWARM (w / 32))) (w % 32) (w % 32) = 1 then [own] else [])
    ++ ((s.kh.nodes.filter fun p => p.1 != own && (p.2.swarms.any fun f => f.2.contains w)).map fun p => p.1)

/-- Ports through which the tree of (source, swarm) reaches members from this device (R383). -/
def State.swarmOuts (s : State) (source w : Nat) : List Nat :=
  let es := s.khEdges
  let own := s.khAddr
  let hit := (s.swarmMembers w).filterMap fun m =>
    if m = source || m = own then none
    else
      let d := khDist es m
      let path := khPath es d (es.length + 1) source
      if own = source || (path.any fun e => e.v = own) then (khNext es d own).map fun e => e.port else none
  (upto 64).filter hit.contains

/-! ### The root (R365 to R368) -/

/-- a is a better candidate than b (R365). -/
def KhRoot.better (a b : KhRoot) : Bool :=
  decide (b.cls < a.cls) || (a.cls = b.cls && (decide (b.prio < a.prio)
    || (a.prio = b.prio && decide (a.serial.toNat < b.serial.toNat))))

/-- This device as a candidate. -/
def State.khSelf (s : State) : Option KhRoot :=
  if s.get KH_CFG_PRIORITY = 0 then none
  else some ⟨BitVec.ofNat 64 s.khSerial, BitVec.ofNat 16 s.khAddr, s.khClass, s.get KH_CFG_PRIORITY, 0⟩

/-- Roots that neighbours report with ROOT_HOPS below 64, with this device's hops to them. -/
def State.khReports (s : State) : List KhRoot :=
  (s.kh.nbrs.filter fun p => p.2.w.rootHops < 64 && p.2.w.rootPrio != 0
      && p.2.w.rootSerial.toNat != s.khSerial).map fun p =>
    ⟨p.2.w.rootSerial, p.2.w.rootAddr, p.2.w.rootClass, p.2.w.rootPrio, p.2.w.rootHops + 1⟩

/-- The UP port on a least-cost route to an address, the lowest such (R368). -/
def State.costPort (s : State) (a : Nat) : Option Nat :=
  let es := s.khEdges
  let d := khDist es a
  let outs := (es.filter fun e => e.u = s.khAddr).filterMap fun e => (kvGet d e.v).map fun x => (x + e.cost, e.port)
  match (outs.map fun o => o.1).min? with
  | none => none
  | some c => ((outs.filter fun o => o.1 = c).map fun o => o.2).min?

/-- The port towards the root: the route's, else the neighbour of fewest hops that reports it. -/
def State.khRootPort (s : State) : Option Nat :=
  match s.kh.root with
  | none => none
  | some r => match s.routePort r.addr.toNat with
    | some p => some p
    | none =>
      (s.kh.nbrs.foldl (fun (a : Option (Nat × Nat)) p =>
        if p.2.w.rootSerial != r.serial then a
        else match a with
          | none => some (p.2.w.rootHops, p.1)
          | some b => if p.2.w.rootHops < b.1 then some (p.2.w.rootHops, p.1) else a) none).map fun b => b.2

/-- This device is root. -/
def State.khIsRoot (s : State) : Bool :=
  match s.kh.root with
  | some r => r.serial.toNat = s.khSerial && r.hops = 0
  | none => false

/-- The time port (R368). -/
def State.timePort (s : State) : Nat :=
  match s.kh.root with
  | none => 0
  | some r => if s.khIsRoot then 0 else ((s.costPort r.addr.toNat).orElse fun _ => s.khRootPort).getD 0

/-- Another time port is another followed reference while the hive clock is followed: a return, whose measured phase is a free
value (R57, R368). -/
def State.portMoved (s : State) (p : Nat) : State :=
  if s.get KH_STATUS_TIME_PORT = p then s
  else
    let s := s.put KH_STATUS_TIME_PORT p
    if s.following = some 3 && s.hiveClock then (s.returned (signed 32 (s.freeNow % 2 ^ 32))).useFree else s

/-- Show the root and the time port (R368). -/
def State.showRoot (s : State) : State :=
  match s.kh.root with
  | none =>
    ((((s.setVal KH_ROOT 0).put KH_STATUS_HOPS 0).put KH_STATUS_TIME_PORT 0).put KH_STATUS_ROOT 0).hiveWatch
  | some r =>
    let own := s.khIsRoot
    let s := ((s.put KH_ROOT_PRIORITY r.prio).put KH_ROOT_CLASS r.cls).put KH_ROOT_ADDR r.addr.toNat
    let s := (s.put KH_STATUS_HOPS r.hops).put KH_STATUS_ROOT (if own then 1 else 0)
    (s.portMoved s.timePort).hiveWatch

/-- The root's grant to a serial (R360): the address granted to it before, else the lowest address of the pool that no LSA
shows in use and that was not granted to another. -/
def State.khGrant (s : State) (serial : Nat) : Option (Nat × State) :=
  match kvGet s.kh.grants serial with
  | some a => some (a, s)
  | none =>
    let lo := s.get KH_POOL_LO
    let used (a : Nat) : Bool := a = s.khAddr || (kvGet s.kh.nodes a).isSome || s.kh.grants.any fun p => p.2 = a
    match (upto (s.get KH_POOL_HI + 1 - lo)).find? fun i => !(used (lo + i)) with
    | none => none
    | some i => some (lo + i, s.modKh fun k => { k with grants := kvPut k.grants serial (lo + i) })

/-- Take an address. -/
def State.khTake (s : State) (a : Nat) : State := (s.put KH_ADDR_ADDR a).put KH_STATUS_ADDR_STATE 2

/-- A device without an address asks for one once it knows a root (R360); the root grants its own. -/
def State.khAsk (s : State) : State :=
  if s.khAddr != 0 || s.on KH_CFG_ADDR_MODE then s
  else if s.khIsRoot then
    match s.khGrant s.khSerial with
    | some r =>
      let s := r.2.khTake r.1
      s.modKh fun k => { k with root := s.khSelf }
    | none => s
  else match s.khRootPort with
    | none => s
    | some p =>
      let s := if s.get KH_STATUS_ADDR_STATE = 3 then s else s.put KH_STATUS_ADDR_STATE 1
      s.sideband p (.addrReq (BitVec.ofNat 64 s.khSerial))

/-- Follow a root. -/
def State.khFollow (s : State) (r : KhRoot) : State :=
  let same := match s.kh.root with
    | some q => decide (q.serial = r.serial)
    | none => false
  let s := s.modKh fun k => { k with root := some r, rootSeen := if same then k.rootSeen else s.now, higher := none }
  if same then s.showRoot else s.showRoot.khAsk.showRoot

/-- This device as a candidate against the roots reported (R366, R367): as root it stands at once; while others report a root
it stands only on a class above the one it follows, which takes over after 1 s (assumption 22). -/
def State.khStands (s : State) : Option KhRoot :=
  if s.khIsRoot || s.khReports.isEmpty then s.khSelf
  else match s.khSelf, s.kh.root with
    | some c, some r => if r.cls < c.cls then some c else none
    | _, _ => none

/-- The election (R366, R367): of several roots the best is followed, one of equal class at once and one of higher class once it
has kept it for 1 s; a root that nobody reports any more is kept until its LSAs cease (assumption 22). -/
def State.khElect (s : State) : State :=
  if !s.khIn then s
  else
    let cs := s.khStands.toList ++ s.khReports
    let best := cs.foldl (fun (a : Option KhRoot) r => match a with
      | none => some r
      | some b => if r.better b || (r.serial = b.serial && decide (r.hops < b.hops)) then some r else a) none
    let cur : Option KhRoot := match s.kh.root with
      | none => none
      | some q =>
        if q.serial.toNat = s.khSerial then s.khSelf
        else
          let same := cs.filter fun r => r.serial = q.serial
          some (same.foldl (fun a r => if r.hops < a.hops then r else a) (same.headD q))
    match cur, best with
    | none, none => (s.modKh fun k => { k with root := none, higher := none }).showRoot
    | none, some b => s.khFollow b
    | some r, none => (s.modKh fun k => { k with root := some r }).showRoot
    | some r, some b =>
      let s := (s.modKh fun k => { k with root := some r }).showRoot
      if b.serial = r.serial || !(b.better r) then s.modKh fun k => { k with higher := none }
      else if b.cls = r.cls then s.khFollow b
      else s.modKh fun k => { k with higher := match k.higher with
        | some h => if h.1.serial = b.serial then some (b, h.2) else some (b, s.now)
        | none => some (b, s.now) }

/-- KH_ROOT_TAKEOVER (R367). -/
def execKhRootTakeover (s : State) : Host.Outcome State Fault Refusal :=
  .next (match s.kh.higher with
    | some (b, t) => if s.khIn && tLe (tAdd t (2 ^ 48)) s.now then s.khFollow b else s
    | none => s)

/-- KH_ROOT_TIMEOUT (R367): no LSA of the root for 300 ms. -/
def execKhRootTimeout (s : State) : Host.Outcome State Fault Refusal :=
  .next (match s.kh.root with
    | none => s
    | some r =>
      if !s.khIn || s.khIsRoot || tLt s.now (tAdd s.kh.rootSeen (usTicks 300000)) then s
      else (s.modKh fun k => { k with
        root := none, higher := none, nbrs := k.nbrs.filter fun p => p.2.w.rootSerial != r.serial || p.2.w.serial = r.serial }).khElect)

/-! ### Waggles (R362, R364, Table KH-2) -/

/-- The WAGGLE sent on a port. -/
def State.waggle (s : State) (dp : Nat) : KhWaggle :=
  let r : KhRoot := s.kh.root.getD ⟨0, 0, 0, 0, 0⟩
  { addr := BitVec.ofNat 16 s.khAddr, serial := BitVec.ofNat 64 s.khSerial, port := dp
    health := BitVec.ofNat 8 s.khHealth, cls := s.khClass, prio := s.get KH_CFG_PRIORITY, rootSerial := r.serial
    rootAddr := r.addr, rootClass := r.cls, rootPrio := r.prio, rootHops := r.hops, lsaSeq := s.kh.seq }

/-- KH_WAGGLE_SEND (R362): every 1 ms. -/
def State.waggleSend (s : State) : State :=
  if s.khIn && s.due s.kh.wagAt 1000 then
    (s.each s.khPorts fun s dp => s.sideband dp (.waggle (s.waggle dp))).modKh fun k => { k with wagAt := some s.now }
  else s

def execKhWaggleSend (s : State) : Host.Outcome State Fault Refusal := .next s.waggleSend

/-- KH_WAGGLE_RECEIVE (R364 to R366). -/
def State.waggleIn (s : State) (dp : Nat) (w : KhWaggle) : State :=
  if !s.khIn || !(s.klUp dp) then s
  else (s.modKh fun k => { k with nbrs := kvPut k.nbrs dp ⟨w, s.now⟩ }).khElect

def execKhWaggleReceive (dp : Fin 64) (w : KhWaggle) (s : State) : Host.Outcome State Fault Refusal :=
  .next (s.waggleIn dp w)

/-! ### Link-state messages (R362, R363) -/

/-- A list in fragments of `n`, at least one, at most `m`. -/
def fragments {α : Type} (n : Nat) : Nat → List α → List (List α)
  | 0, _ => []
  | m + 1, l => l.take n :: (if (l.drop n).isEmpty then [] else fragments n m (l.drop n))

/-- Own swarms. -/
def State.khSwarms (s : State) : List Nat :=
  (upto 4096).filter fun w => bits (s.val (KH_SWARM (w / 32))) (w % 32) (w % 32) = 1

/-- What the LSA and SWARMS of this device say now: its links, HEALTH and swarms (R362, R364). -/
def State.lsaSays (s : State) : List KhLink × Byte × List Nat := (s.khLinks, BitVec.ofNat 8 s.khHealth, s.khSwarms)

/-- Send LSA and SWARMS. A device without an address, which an origin address names, sends none. -/
def State.lsaSend (s : State) : State :=
  if !s.khIn || s.khAddr = 0 then s
  else
    let own := BitVec.ofNat 16 s.khAddr
    let s := s.modKh fun k => { k with
      seq := k.seq + 1, rootSeen := if s.khIsRoot then s.now else k.rootSeen, lsaAt := some s.now, lsaWas := s.lsaSays }
    let ls := fragments 7 64 s.khLinks
    let s := s.each (ls.zip (upto ls.length)) fun s p => s.flood none
      (.lsa ⟨own, BitVec.ofNat 64 s.khSerial, s.kh.seq, p.2, ls.length, BitVec.ofNat 8 s.khHealth, p.1⟩)
    let ws := fragments 35 128 s.khSwarms
    s.each (ws.zip (upto ws.length)) fun s p => s.flood none (.swarms ⟨own, s.kh.seq, p.2, p.1⟩)

/-- KH_LSA_SEND (R362): every 100 ms, and on a change. -/
def execKhLsaSend (s : State) : Host.Outcome State Fault Refusal :=
  .next (if s.due s.kh.lsaAt 100000 || s.kh.lsaWas != s.lsaSays then s.lsaSend else s)

/-- KH_NEIGHBOUR_LOST (R364): three waggles failed to arrive on the port. -/
def execKhNeighbourLost (dp : Fin 64) (s : State) : Host.Outcome State Fault Refusal :=
  .next (match kvGet s.kh.nbrs dp with
    | none => s
    | some n =>
      if !s.khIn || tLt s.now (tAdd n.at_ (usTicks 3000)) then s
      else ((s.modKh fun k => { k with nbrs := kvDel k.nbrs dp }).khElect).lsaSend)

/-- A sequence is newer (R363). -/
def seqNewer (a b : Word) : Bool := decide (0 < signed 32 (a - b).toNat)

/-- KH_SWARMS_RECEIVE (R363). -/
def State.swarmsIn (s : State) (dp : Nat) (m : KhSwarms) : State :=
  let own := decide (m.origin.toNat = s.khAddr)
  let n := kvGetD s.kh.nodes m.origin.toNat {}
  let fresh := n.swarms.isEmpty || seqNewer m.seq n.swSeq
  let add := m.seq = n.swSeq && (kvGet n.swarms m.frag).isNone
  if !s.khIn || !(s.klUp dp) || own || !(fresh || add) then s
  else
    let n : KhNode := { n with swSeq := m.seq, swarms := kvPut (if fresh then [] else n.swarms) m.frag m.ids }
    (s.modKh fun k => { k with nodes := kvPut k.nodes m.origin.toNat n }).flood (some dp) (.swarms m)

def execKhSwarmsReceive (dp : Fin 64) (m : KhSwarms) (s : State) : Host.Outcome State Fault Refusal :=
  .next (s.swarmsIn dp m)

/-! ### Addresses (R360) -/

/-- KH_ADDR_REQ: granted at the root, else forwarded along the route to it. -/
def State.addrReq (s : State) (dp serial : Nat) : State :=
  if !s.khIn || !(s.klUp dp) then s
  else if s.khIsRoot then
    match s.khGrant serial with
    | some r => r.2.sideband dp (.addrGrant (BitVec.ofNat 64 serial) (BitVec.ofNat 16 r.1))
    | none => s
  else match s.khRootPort with
    | none => s
    | some p => (s.modKh fun k => { k with reqs := kvPut k.reqs serial (dp, s.now) }).sideband
        p (.addrReq (BitVec.ofNat 64 serial))

def execKhAddrReq (dp : Fin 64) (serial : BitVec 64) (s : State) : Host.Outcome State Fault Refusal :=
  .next (s.addrReq dp serial.toNat)

/-- KH_ADDR_GRANT: the device's own address, or returned along the recorded port within 10 ms. -/
def State.addrGrant (s : State) (dp serial addr : Nat) : State :=
  if !s.khIn || !(s.klUp dp) then s
  else if serial = s.khSerial then
    if s.khAddr = 0 && !(s.on KH_CFG_ADDR_MODE) && decide (1 ≤ addr) && decide (addr ≤ 0xFEFF) then s.khTake addr else s
  else match kvGet s.kh.reqs serial with
    | none => s
    | some (p, t) =>
      let s := s.modKh fun k => { k with reqs := kvDel k.reqs serial }
      if tLt (tAdd t (usTicks 10000)) s.now then s
      else s.sideband p (.addrGrant (BitVec.ofNat 64 serial) (BitVec.ofNat 16 addr))

def execKhAddrGrant (dp : Fin 64) (serial : BitVec 64) (addr : BitVec 16) (s : State) : Host.Outcome State Fault Refusal :=
  .next (s.addrGrant dp serial.toNat addr.toNat)

/-- The device joins the hive: at hive enable, and at entry to CONFIGURE with ENABLE set (R358, R360). -/
def State.khJoin (s : State) : State :=
  let s := if s.on KH_CFG_ADDR_MODE && s.get KH_ADDR_FIXED != 0 then s.khTake (s.get KH_ADDR_FIXED) else s
  s.khElect

/-- After a change of a port: a neighbour that went with it is gone from the election and the links (R364, R366). -/
def State.khKeep (s t : State) : State :=
  if t.kh.nbrs.map (fun p => p.1) = s.kh.nbrs.map (fun p => p.1) then t else t.khElect.lsaSend

/-- The same after a register write, with its reason code. -/
def State.khKept (s : State) (r : State × Nat) : State × Nat := (s.khKeep r.1, r.2)

/-- A write of KL_PORT_CTL_q. -/
def State.klPortSet (s : State) (dp v : Nat) : State × Nat := s.khKept (s.klPortWrite dp v)

def execKlPortEnable (p : Fin 5) (dp : Fin 64) (v : Word) (s : State) : Host.Outcome State Fault Refusal :=
  .next (s.gatedWrite p (KL_PORT_CTL (kw dp) (kq dp)) fun s => s.klPortSet dp v.toNat)

/-- KL_PORT_DOWN (R334, R340): the port leaves UP and trains again. -/
def execKlPortDown (dp : Fin 64) (s : State) : Host.Outcome State Fault Refusal :=
  .next (s.khKeep (if s.klOn dp && s.klState dp != 0 then s.klDown dp 1 else s))

/-- A write of KL_SPARE_k. -/
def State.klSpareSet (s : State) (w k v : Nat) : State × Nat := s.khKept (s.klSpareWrite w k v)

def execKlSpareEnable (p : Fin 5) (r : Fin 2) (k : Fin 4) (v : Word) (s : State) : Host.Outcome State Fault Refusal :=
  .next (s.gatedWrite p (KL_SPARE (13 + r) k) fun s => s.klSpareSet (13 + r) k v.toNat)

def execKlSpareSwitch (dp : Fin 64) (tx : Bool) (s : State) : Host.Outcome State Fault Refusal :=
  .next (s.khKeep (s.spareSwitch dp tx))

def execKlLaneFail (r : Fin 2) (i : Fin 68) (s : State) : Host.Outcome State Fault Refusal :=
  .next (s.khKeep (s.laneFail (13 + r) i))

/-! ### Node query (R384) -/

/-- KH_NODE_INFO shows the node KH_NODE_Q names. -/
def State.nodeShow (s : State) : State :=
  let a := s.get KH_NODE_Q_ADDR
  let own := a != 0 && a = s.khAddr
  let r := kvGet s.kh.routes a
  let n := kvGetD s.kh.nodes a {}
  let root := match s.kh.root with
    | some q => decide (a ≠ 0) && q.addr.toNat = a
    | none => false
  let w := flagBits [(31, own || r.isSome), (30, root)] + 256 * (if own then 0 else (r.map fun x => x.hops).getD 0 % 256)
    + (if own then s.khHealth else n.health.toNat)
  s.setVal KH_NODE_INFO w

def execKhNodeQuery (p : Fin 5) (v : Word) (s : State) : Host.Outcome State Fault Refusal :=
  .next (s.gatedWrite p KH_NODE_Q fun s => ((s.plainWrite KH_NODE_Q v.toNat).nodeShow, 0))

end Sys2Proof.Machine
end

