-- ==== Sys2Proof/Machine/HiveCtx.lean ====
section
/-! DEFINITION. Machine/HiveCtx.lean: stream contexts of the hive (chapter 12, R371 to R383, R387). -/

namespace Sys2Proof.Machine

/-! ### What a stream can produce (R375) -/

/-- Largest payload of a stream in bytes under its present settings: as the owning chapters give for RAW (R117), ZOOM (R149),
CHAN (R180), SPEC (R216), DENS (R222), XSPC, BEAM (R313), EVNT (R82), TRIG (R237, R255), QUIR (R288); COLO and ALRM by their
elements. -/
def State.streamPayload (s : State) (id : BitVec 16) : Nat :=
  let n := id.toNat % 4096
  match id.toNat / 4096 with
  | 0 => 16384 * twoSampleBytes (s.raw8 n) + 256
  | 1 => 4096 * (let o := s.get (ZP_CFG_OUT_BITS n); if o = 1 then 2 else if o = 2 then 8 else 4)
  | 2 => 8 + s.btS n * s.btElem n
  | 3 =>
    let r := s.specRegion n
    match (upto 16).find? fun i => s.on (DC_INT_CTL_ENABLE r i) && s.get (DC_INT_ID_SPEC_ID r i) = n with
    | none => 0
    | some i => let c := s.intCfg r i; let per := min c.span 8192; 24 + 4 * (per / c.k) + per / 8
  | 4 => 32784
  | 5 => let a := min (s.pairAccs n) 4096; 24 + 8 * a + ceilDiv a 64 * 8
  | 6 => if s.on (CE_BM_CTL_ROOT n) then 8 + s.beamS n * 2 * (beamFormat (s.get (CE_BM_RED_OUT_BITS n))).1 / 8
    else 8 + 4 * s.beamS n
  | 7 => 65536
  | 8 => if n < 8 then 16384 else 32
  | 9 => 16 + 524288 * 3 + 8192
  | 10 => 4096
  | _ => 16

/-- MAXREC: the largest record with its header and padding. -/
def State.streamMax (s : State) (id : BitVec 16) : Nat := 64 + (s.streamPayload id + 7) / 8 * 8

/-- RATE in MB/s: bytes of records per second, rounded up. -/
def State.streamRate (s : State) (id : BitVec 16) : Nat :=
  let n := id.toNat % 4096
  match id.toNat / 4096 with
  | 0 => mbps (ratio (s.fsHz n * s.streamMax id : Nat) 32768)
  | 1 => mbps (ratio (s.fsHz (n / 4) * s.streamMax id : Nat) (4096 * s.zpDec n))
  | 2 => mbps (s.chanRate n)
  | 3 =>
    let r := s.specRegion n
    match (upto 16).find? fun i => s.on (DC_INT_CTL_ENABLE r i) && s.get (DC_INT_ID_SPEC_ID r i) = n with
    | none => 0
    | some i => mbps (s.specRate r i)
  | 4 => mbps (s.densRate (6 + n / 4) (n % 4))
  | 5 => mbps (s.xspcRate n)
  | 6 => mbps (if s.on (CE_BM_CTL_ROOT n) then s.rootRate n else s.beamDemand n)
  | _ => (Config.eventRate id.toNat).toNat

/-- Records per second of a stream under its present settings: what R351 counts. -/
def State.recRate (s : State) (id : BitVec 16) : Ratio :=
  let n := id.toNat % 4096
  match id.toNat / 4096 with
  | 0 => ratio (s.fsHz n) 32768
  | 1 => ratio (s.fsHz (n / 4)) (4096 * s.zpDec n)
  | 2 => ratio (s.fsHz n * ceilDiv (s.btC n) (s.btS n) : Nat) (s.btH n)
  | 3 =>
    let r := s.specRegion n
    match (upto 16).find? fun i => s.on (DC_INT_CTL_ENABLE r i) && s.get (DC_INT_ID_SPEC_ID r i) = n with
    | none => ratioOf 0
    | some i =>
      let c := s.intCfg r i
      ratioMul (s.srcRate r c.src) (ratio (ceilDiv c.span (min c.span 8192) : Nat) (max 1 c.m))
  | 4 =>
    let p := s.get (DC_PL_DUMP_PERIOD_US (6 + n / 4) (n % 4))
    if p = 0 then ratioOf 0 else ratio 64000000 p
  | 5 =>
    let m := s.pairAccs n
    ratio (ceilDiv m (max 1 (min m 4096)) * 1000000 : Nat) (max 1 (s.get CE_XS_CFG_DUMP_US))
  | 6 => let c := s.beamCfg n; ratio (c.fs * s.beamSlices n : Nat) (max 1 c.hop)
  | _ => ratio ((Config.eventRate id.toNat).toNat * 1000000 : Nat) (s.streamMax id)

/-! ### Contexts (R374) -/

def State.ctxOf (s : State) (c : Nat) : KhCtx := kvGetD s.kh.ctx c {}
def State.modCtx (s : State) (c : Nat) (f : KhCtx → KhCtx) : State :=
  s.modKh fun k => { k with ctx := kvMod {} k.ctx c f }

/-- A context is open or opening. -/
def State.ctxOn (s : State) (c : Nat) : Bool := s.on (KH_SC_CTL_ON c)

/-- Its key: source address (this device's own for 0) and stream. -/
def State.ctxHive (s : State) (c : Nat) : Nat :=
  let h := s.get (KH_SC_KEY_SOURCE_HIVE c)
  if h = 0 then s.khAddr else h
def State.ctxStream (s : State) (c : Nat) : BitVec 16 := BitVec.ofNat 16 (s.get (KH_SC_KEY_STREAM_ID c))

/-- Contexts in use, ascending. -/
def State.ctxs (s : State) : List Nat := (s.kh.ctx.map fun p => p.1).filter s.ctxOn

/-- The context that holds a key. -/
def State.ctxFind (s : State) (hive : Nat) (stream : BitVec 16) : Option Nat :=
  s.ctxs.find? fun c => s.ctxHive c = hive && s.ctxStream c = stream

/-- The lowest free context: not ON, no key set in it. -/
def State.ctxFree (s : State) : Option Nat := (upto 4096).find? fun c => !(s.ctxOn c) && s.val (KH_SC_KEY c) = 0

/-- Roles (R374): origin 0, transit 1, destination 2, origin and destination 3. -/
def State.ctxRole (s : State) (c : Nat) : Nat := s.get (KH_SC_CTL_ROLE c)
def State.ctxOrigin (s : State) (c : Nat) : Bool := s.ctxRole c = 0 || s.ctxRole c = 3

/-! ### Checks of a port and a sink (R351, R376, R378, R470) -/

/-- Summed RATE through a port, `not` left out. -/
def State.portLoad (s : State) (dp not : Nat) : Nat :=
  sumOf (s.ctxs.filter fun c => c != not && (s.ctxOf c).outs.contains dp) fun c => s.val (KH_SC_RATE c)

/-- The port's payload rate holds `rate` MB/s more. -/
def State.portFits (s : State) (dp not rate : Nat) : Bool := decide (s.portLoad dp not + rate ≤ s.portLanes dp * 12500)

/-- B_q in ps (R378), with a context of `maxrec` bytes through the port. -/
def State.portBlock (s : State) (dp maxrec : Nat) : Nat :=
  let m := (s.ctxs.filter fun c => (s.ctxOf c).outs.contains dp).foldl (fun a c => max a (s.val (KH_SC_MAXREC c))) maxrec
  ceilDiv (m * 80) (s.portLanes dp)

/-- The path bound in ps (R378). -/
def pathBound (hops block maxrec lanes : Nat) : Nat := hops * 260000 + block + ceilDiv (maxrec * 80) (max 1 lanes)

/-- Records per second of context c: of an own stream its own, of another device's RATE over MAXREC. -/
def State.ctxRecs (s : State) (c : Nat) : Ratio :=
  if s.ctxHive c = s.khAddr then s.recRate (s.ctxStream c)
  else ratio (s.val (KH_SC_RATE c) * 1000000 : Nat) (max 1 (s.val (KH_SC_MAXREC c)))

/-- Contexts whose sink is an export flow of a port. -/
def State.exCtxs (s : State) (w port not : Nat) : List Nat :=
  s.ctxs.filter fun k => k != not && s.get (KH_SC_SINK_KIND k) = 4 && 13 + s.get (KH_SC_SINK_INDEX k) / 64 = w
    && s.get (KL_XF_CTL_PORT w (s.get (KH_SC_SINK_INDEX k) % 64)) = port && s.ctxRole k != 1

/-- Export demand of a port in bits per second, with a stream of `recs` records per second of `maxrec` bytes added (R351). -/
def State.exDemand (s : State) (w port not : Nat) (recs : Ratio) (maxrec : Nat) : Ratio :=
  let c := s.exChunk (32 * (w - 13) + port)
  let e := if s.on (KL_EX_CTL_IPV6 w port) then 102 else 82
  let one (recs : Ratio) (maxrec : Nat) : Ratio := ratioMul recs (ratioOf (8 * (maxrec + e * ceilDiv maxrec (max 1 c)) : Nat))
  (s.exCtxs w port not).foldl (fun a k => ratioAdd a (one (s.ctxRecs k) (s.val (KH_SC_MAXREC k)))) (one recs maxrec)

/-- Why the sink of a context cannot take its stream: 02E1h for the share of a DMA channel (R470), 020Eh for an export port
(R351); 0 when it can. -/
def State.sinkCheck (s : State) (kind index not rate maxrec : Nat) (recs : Ratio) : Nat :=
  if kind = 2 then
    let sum := sumOf (s.ctxs.filter fun k => k != not && s.get (KH_SC_SINK_KIND k) = 2 && s.get (KH_SC_SINK_INDEX k) = index)
      fun k => s.val (KH_SC_RATE k)
    if (s.get (DMA_CTL_SHARE_M1 (index % 64)) + 1) * 500 < sum + rate then 0x02E1 else 0
  else if kind = 4 then
    let w := 13 + index / 64
    if ratioLt (ratioOf 400000000000) (s.exDemand w (s.get (KL_XF_CTL_PORT w (index % 64))) not recs maxrec) then 0x020E else 0
  else 0

/-! ### Switch ports of KL0 and KL1 (R642) -/

/-- The port key of context c's stream at a region of the hive's path. -/
def ctxTie (c : Nat) : BitVec 16 := sid 13 c

/-- Where a sink takes its stream from the switch: HS, BD, or the KL region of an export flow; CB declares its remote inputs
itself (R642, Table AC-3). -/
def sinkPorts (kind index : Nat) : List Nat :=
  if kind = 2 then [16 + 15] else if kind = 3 then [16 + 12] else if kind = 4 then [16 + 13 + index / 64] else []

/-- A record of this stream passes between CB and the KL regions on the direct channels (Table AC-3): a member's beam. -/
def State.beamPath (s : State) (id : BitVec 16) : Bool :=
  id.toNat / 4096 = 6 && !(s.on (CE_BM_CTL_ROOT (id.toNat % 4096)))

/-- Switch ports that a stream takes through the KL regions: in from the device's own blocks, between the two regions, out to a
sink. -/
def State.ctxPorts (s : State) (id : BitVec 16) (inPort : Option Nat) (outs : List Nat) (here : Bool) (kind index : Nat) : List Nat :=
  let regs := ([13, 14] : List Nat).filter fun w => outs.any fun dp => kw dp = w
  match inPort with
  | none => (if s.beamPath id then [] else regs.map (16 + ·)) ++ (if here then sinkPorts kind index else [])
  | some dp =>
    let other := regs.filter (fun w => w != kw dp)
    let sink := if here then (sinkPorts kind index).filter fun k => k != 16 + kw dp else []
    (if other.isEmpty && sink.isEmpty then [] else [kw dp]) ++ other.map (16 + ·) ++ sink

/-- Free the switch ports of context c. -/
def State.ctxUntie (s : State) (c : Nat) : State :=
  s.each [13, 14, 28, 29, 30, 31] fun s k => s.freePort k (ctxTie c)

/-- Tie context c's stream of `rate` MB/s to ports; none where one finds no room (020Dh). -/
def State.ctxTied (s : State) (c rate : Nat) (ks : List Nat) : Option State :=
  (s.ctxUntie c).tieAll (ks.map fun k => (k, ctxTie c, ratioOf (rate * 1000000 : Nat)))

/-- Contexts with a KH_SC_SINK register that is set, ascending: an unlisted one reads 0, KIND none. -/
def State.sinkCtxs (s : State) : List Nat :=
  s.regs.filterMap fun q =>
    if KH_SC_SINK 0 ≤ q.1 ∧ q.1 < KH_SC_SINK 4096 ∧ (q.1 - KH_SC_SINK 0) % 0x40 = 0 then some ((q.1 - KH_SC_SINK 0) / 0x40) else none

/-- The sink that has claimed a key (R377): a context set up with the key and a sink but not ON, with its number; CB's remote
inputs and children; a recording volume; the FABRIC unit for the trigger streams of its swarm (KIND 0). -/
def State.sinkOf (s : State) (hive : Nat) (stream : BitVec 16) (swarm : Option Nat) : Option (Nat × Nat × Option Nat) :=
  match s.sinkCtxs.find? fun c => !(s.ctxOn c) && s.on (KH_SC_SINK_KIND c) && s.get (KH_SC_KEY_SOURCE_HIVE c) = hive
      && s.ctxStream c = stream with
  | some c => some (s.get (KH_SC_SINK_KIND c), s.get (KH_SC_SINK_INDEX c), some c)
  | none =>
    let n := stream.toNat
    if ((upto 16).any fun i => s.on (CE_RIN_CFG_ON i) && s.get (CE_RIN_SRC_HIVE i) = hive && s.get (CE_RIN_SRC_STREAM i) = n)
        || ((upto 32).any fun b => n = 0x6000 + b && s.on (CE_BM_CTL_ENABLE b)
          && (s.beamKids b).any fun k => s.get (CE_BM_CHILD_HIVE b k) = hive) then some (1, 0, none)
    else match (upto 32).find? fun v => s.get (BD_VS_CTL_STATE v) = 1 && (upto 16).any fun k =>
        bits (s.get (BD_VS_KEYS_ON v)) k k = 1 && s.get (BD_VS_KEY_SOURCE_HIVE v k) = hive
          && s.get (BD_VS_KEY_STREAM_ID v k) = n with
      | some v => some (3, v, none)
      | none =>
        if s.tgOn 4 8 && s.on ST_TG_FB_CFG_RX_EN && swarm = some (s.get ST_TG_FB_CFG_RX_SWARM) && decide (0x8008 ≤ n)
          && decide (n ≤ 0x800C) then some (0, 0, none) else none

/-! ### Opening at the origin (R376, R387) -/

/-- An ANNOUNCE for context c, before its first hop. -/
def State.ctxAnnounce (s : State) (c : Nat) (opening : Bool) : KhAnnounce :=
  { hive := BitVec.ofNat 16 (s.ctxHive c), stream := s.ctxStream c, swarm := s.on (KH_SC_DEST_SWARM c)
    dest := BitVec.ofNat 16 (s.get (KH_SC_DEST_ADDR c)), cls := s.get (KH_SC_DEST_CLASS c)
    budget := s.get (KH_SC_LAT_BUDGET c), lead := s.val (KH_SC_LEAD c), maxrec := s.val (KH_SC_MAXREC c)
    rate := s.val (KH_SC_RATE c), hops := 0, block := 0, lanes := 8, opening := opening }

/-- Send an ANNOUNCE on out of a port: one hop, the port's blocking term and its lanes are added. -/
def State.sendAnnounce (s : State) (dp : Nat) (m : KhAnnounce) : State :=
  s.sideband dp (.announce { m with
    hops := m.hops + 1, block := m.block + s.portBlock dp m.maxrec, lanes := min m.lanes (s.portLanes dp) })

/-- Ports that context c's stream leaves on by the present routes, and whether it is delivered here: for a swarm, not back on
the port it comes in on. -/
def State.ctxOuts (s : State) (c : Nat) : List Nat :=
  let d := s.get (KH_SC_DEST_ADDR c)
  if s.on (KH_SC_DEST_SWARM c) then
    (s.swarmOuts (s.ctxHive c) (d % 4096)).filter fun dp => some dp != (s.ctxOf c).inPort
  else if d = s.khAddr then []
  else (s.routePort d).toList

/-- Switch ports of context c by the present routes, at its origin. -/
def State.ctxWay (s : State) (c : Nat) : List Nat :=
  s.ctxPorts (s.ctxStream c) none (s.ctxOuts c) (!(s.on (KH_SC_DEST_SWARM c)) && s.get (KH_SC_DEST_ADDR c) = s.khAddr)
    (s.get (KH_SC_SINK_KIND c)) (s.get (KH_SC_SINK_INDEX c))

/-- The check of ON (R387, R375), then the origin's own resources (R376). -/
def State.ctxCheck (s : State) (c : Nat) : Nat :=
  let d := s.get (KH_SC_DEST_ADDR c)
  let sw := s.on (KH_SC_DEST_SWARM c)
  let outs := s.ctxOuts c
  let here := !sw && d = s.khAddr
  let rate := s.val (KH_SC_RATE c)
  let kind := s.get (KH_SC_SINK_KIND c)
  let base := firstFail [
    (!sw && (d = 0 || decide (0xFF00 ≤ d)), 0x01B0),
    (s.get (KH_SC_DEST_CLASS c) = 3 || (s.get (KH_SC_DEST_CLASS c) = 0 && decide (4096 < s.val (KH_SC_MAXREC c))), 0x01B1),
    (s.khAddr = 0 || (!here && outs.isEmpty), 0x03B0),
    ((s.ctxs.any fun k => k != c && s.ctxHive k = s.ctxHive c && s.ctxStream k = s.ctxStream c), 0x05B1),
    ((outs.any fun dp => !(s.portFits dp c rate)), 0x020E),
    (here && kind = 0, 0x03B1)]
  if base != 0 then base
  else
    let e := if here then s.sinkCheck kind (s.get (KH_SC_SINK_INDEX c)) c rate (s.val (KH_SC_MAXREC c)) (s.ctxRecs c) else 0
    if e != 0 then e else if (s.ctxTied c rate (s.ctxWay c)).isNone then 0x020D else 0

/-- Exit that a sink kind stands for (R37). -/
def sinkExit (kind : Nat) : Exit := if kind = 2 then .dma else if kind = 3 then .volume else .fabric

/-- Open context c: its exit opens the stream, from SEQUENCE 0 (R35); its ANNOUNCE leaves; a context delivered here is open at
once. -/
def State.ctxOpen (s : State) (c : Nat) : State :=
  let outs := s.ctxOuts c
  let here := !(s.on (KH_SC_DEST_SWARM c)) && s.get (KH_SC_DEST_ADDR c) = s.khAddr
  let hops := (outs.map fun dp => (s.kh.routes.filter fun r => r.2.port = dp).foldl (fun a r => max a r.2.hops) 1).foldl max 0
  let hops := if s.on (KH_SC_DEST_SWARM c) then hops
    else ((kvGet s.kh.routes (s.get (KH_SC_DEST_ADDR c))).map fun r => r.hops).getD 0
  let s := (s.ctxTied c (s.val (KH_SC_RATE c)) (s.ctxWay c)).getD s
  let s := s.exitReopen (if here then sinkExit (s.get (KH_SC_SINK_KIND c)) else .fabric) (s.ctxStream c)
  let s := (s.modKh fun k => { k with ctx := kvPut k.ctx c { outs := outs, here := here, wait := outs.length } })
  let s := ((s.put (KH_SC_CTL_ON c) 1).put (KH_SC_CTL_ROLE c) (if here then 3 else 0)).setVal (KH_SC_STATUS c)
    (256 * (hops % 256) + (if outs.isEmpty then 2 else 1))
  let s := s.put (KH_SC_CTL_REASON c) 0
  s.each outs fun s dp => s.sendAnnounce dp (s.ctxAnnounce c true)

/-- Forget context c: its waiting records go, its register says closed. -/
def State.ctxRemove (s : State) (c : Nat) : State :=
  let s := (s.ctxUntie c).modKh fun k => { k with
    ctx := kvDel k.ctx c, outs := k.outs.map fun p => (p.1, p.2.filter fun o => o.ctx != c) }
  let keep := s.ctxOrigin c && !(s.on (KH_SC_CTL_AUTO c))
  let s := (s.put (KH_SC_CTL_ON c) 0).setVal (KH_SC_STATUS c) 0
  if keep then s
  else
    -- a context the device opened returns to its reset values; one set up as a claim keeps its key and sink
    let s := (s.put (KH_SC_CTL_ROLE c) 0).put (KH_SC_CTL_AUTO c) 0
    let s := s.each [KH_SC_LAT c, KH_SC_LEAD c, KH_SC_MAXREC c, KH_SC_RATE c] fun s a => s.setVal a 0
    s.setReg (KH_SC_DEST c) (regReset s.variant (KH_SC_DEST c))

/-- A context opened by the device itself or by ANNOUNCE frees its key as well. -/
def State.ctxForget (s : State) (c : Nat) (claim : Bool) : State :=
  let s := s.ctxRemove c
  if claim then s else (s.setVal (KH_SC_KEY c) 0).setVal (KH_SC_SINK c) 0

/-- Close origin context c: the close travels along its path. -/
def State.ctxClose (s : State) (c : Nat) : State :=
  let s := s.each (s.ctxOf c).outs fun s dp => s.sendAnnounce dp (s.ctxAnnounce c false)
  let auto := s.on (KH_SC_CTL_AUTO c)
  let s := s.ctxRemove c
  if auto then (s.setVal (KH_SC_KEY c) 0).setVal (KH_SC_SINK c) 0 else s

/-- A write of KH_SC_CTL_c (R376, R387): MAXREC and RATE are taken at the open. -/
def State.ctxCtlWrite (s : State) (c v : Nat) : State × Nat :=
  let rf := KH_SC_CTL_REASON c
  let on := s.ctxOn c
  let set := decide (bits v 0 0 = 1)
  if on && (s.on (KH_SC_CTL_AUTO c) || s.ctxRole c = 1 || s.ctxRole c = 2) then s.answer rf 0x07B0
  else if on && !set then (((s.ctxClose c).put rf 0), 0)
  else if !on && set then
    let s := (s.setVal (KH_SC_MAXREC c) (s.streamMax (s.ctxStream c))).setVal (KH_SC_RATE c) (s.streamRate (s.ctxStream c))
    let e := s.ctxCheck c
    if e != 0 then s.answer rf e else (s.ctxOpen c, 0)
  else (s, 0)

def execKhScOn (p : Fin 5) (c : Fin 4096) (v : Word) (s : State) : Host.Outcome State Fault Refusal :=
  .next (s.gatedWrite p (KH_SC_CTL c) fun s => s.ctxCtlWrite c v.toNat)

/-- A write of another register of context c (R387, Table KH-5). -/
def State.ctxSetWrite (s : State) (name : RegName) (c a v : Nat) : State × Nat :=
  let rf := KH_SC_CTL_REASON c
  if s.ctxOn c && (s.changes a v != 0 || s.on (KH_SC_CTL_AUTO c) || s.ctxRole c = 1 || s.ctxRole c = 2) then s.answer rf 0x07B0
  else if name = .KH_SC_DEST && bits v 27 26 = 3 then s.answer rf 0x01B1
  else if name = .KH_SC_SINK && s.variant = .yn9608 && bits v 2 0 = 4 && bits v 14 14 = 1 then s.answer rf 0x0210
  else ((s.plainWrite a v).put rf 0, 0)

/-! ### AUTO contexts (R377, R431, R490) -/

/-- Open an AUTO origin context; the reason of a refusal, 0 when it opens or awaits answers. -/
def State.ctxAuto (s : State) (stream : BitVec 16) (dest cls budget lead maxrec rate kind index : Nat) : State × Nat :=
  match s.ctxFree with
  | none => (s, 0x020F)
  | some c =>
    let t := (s.setVal (KH_SC_KEY c) (65536 * s.khAddr + stream.toNat)).setVal (KH_SC_DEST c) (dest + cls * 2 ^ 26)
    let t := ((t.setVal (KH_SC_LAT c) budget).setVal (KH_SC_LEAD c) lead).setVal (KH_SC_SINK c) (kind + 256 * index)
    let t := ((t.setVal (KH_SC_MAXREC c) maxrec).setVal (KH_SC_RATE c) rate).put (KH_SC_CTL_AUTO c) 1
    let e := t.ctxCheck c
    if e = 0 then (t.ctxOpen c, 0) else (s, e)

/-- The AUTO context of an own stream. -/
def State.ctxAutoOf (s : State) (stream : BitVec 16) (kind : Nat) : Option Nat :=
  s.ctxs.find? fun c => s.on (KH_SC_CTL_AUTO c) && s.ctxHive c = s.khAddr && s.ctxStream c = stream
    && s.get (KH_SC_SINK_KIND c) = kind

/-- Close it. -/
def State.ctxAutoClose (s : State) (stream : BitVec 16) (kind : Nat) : State :=
  match s.ctxAutoOf stream kind with
  | some c => s.ctxClose c
  | none => s

/-- An AUTO context of role origin and destination for an own stream and a sink (R431, R490): the stream does not enter the
hive, and no check of a port applies. It is left out where no context is free or the key is held. -/
def State.ctxAutoLocal (s : State) (stream : BitVec 16) (kind index : Nat) : State :=
  match s.ctxFree with
  | none => s
  | some c =>
    let s := (s.setVal (KH_SC_KEY c) (65536 * s.khAddr + stream.toNat)).setVal (KH_SC_SINK c) (kind + 256 * index)
    let s := (s.setVal (KH_SC_DEST c) (s.khAddr + 2 ^ 26)).setVal (KH_SC_MAXREC c) (s.streamMax stream)
    let s := ((s.setVal (KH_SC_RATE c) (s.streamRate stream)).put (KH_SC_CTL_AUTO c) 1).put (KH_SC_CTL_ROLE c) 3
    ((s.put (KH_SC_CTL_ON c) 1).setVal (KH_SC_STATUS c) 2).modCtx c fun _ => { here := true }

/-- Context of member beam b (R377). -/
def State.beamAuto (s : State) (b : Nat) : State × Nat :=
  let c := s.beamCfg b
  let al := s.get (CE_BM_RED_ALIGN_US b)
  let taps := 2 ^ s.get (BT_CFG_TAPS ((s.beamInputs b).headD 0))
  let span := taps * 2 ^ (c.logC + 1)
  let lead := ceilDiv ((span + 2 * c.hop) * 1000000000) (2 * max 1 c.fs) + 8000
    + (if s.get (CE_BM_RED_CHILDREN b) = 0 then 0 else 1000 * al)
  s.ctxAuto (beamSid b) (s.get (CE_BM_PARENT_PARENT b)) 1 (al * 100) lead (s.streamMax (beamSid b))
    (mbps (s.beamDemand b)) 0 0

/-- A write of CE_BM_CTL_b (R320, R322, R377): a member's enable opens its context, whose refusal refuses the enable. -/
def State.beamCtlWrite (s : State) (b v : Nat) : State × Nat :=
  let f := CE_BM_CTL_ENABLE b
  s.enableWrite (CE_BM_CTL b) v f (CE_BM_CTL_REASON b) (fun s => if s.on f then 0x0790 else 0)
    (fun s =>
      let c := s.beamCheck b
      if c != 0 || s.on (CE_BM_CTL_ROOT b) then c else (s.beamAuto b).2)
    (fun s =>
      let s := s.beamStart b
      if s.on (CE_BM_CTL_ROOT b) then s else (s.beamAuto b).1)
    (fun s => (s.beamStop b).ctxAutoClose (beamSid b) 0)

def execCeBmEnable (p : Fin 5) (b : Fin 32) (v : Word) (s : State) : Host.Outcome State Fault Refusal :=
  .next (s.gatedWrite p (CE_BM_CTL b) fun s => s.beamCtlWrite b v.toNat)

/-- The fabric trigger context of region r (R377): open while an enabled unit of the region has FABRIC_OUT. -/
def State.fabricAuto (s : State) (r : Nat) : State :=
  let want := (upto (tgUnits r)).any fun u => s.tgOn r u && s.on (TG_U_CTL_FABRIC_OUT (tgWin r) u)
  let id := sid 8 (8 + r)
  match s.ctxAutoOf id 0 with
  | some c => if want then s else s.ctxClose c
  | none => if want then
      (s.ctxAuto id (2 ^ 31 + s.get ST_TG_FB_CFG_TX_SWARM) 0 0 0 96 (Config.eventRate id.toNat).toNat 0 0).1
    else s

/-- A write of TG_U_CTL_u with the region's context brought up to date. -/
def State.tgUnitWrite (s : State) (r u v : Nat) : State × Nat :=
  let x := s.tgCtlWrite r u v
  (x.1.fabricAuto r, x.2)

def execTgUnitEnable (p : Fin 5) (r : Fin 5) (u : Fin 16) (v : Word) (s : State) : Host.Outcome State Fault Refusal :=
  .next (if r.val = 4 && decide (9 < u.val) then s
    else s.gatedWrite p (TG_U_CTL (tgWin r) u) fun s => s.tgUnitWrite r u v.toNat)

/-- TG_UNIT_DISABLE: the write of TG_U_CTL_u that clears ENABLE and leaves its other fields. -/
def execTgUnitDisable (p : Fin 5) (r : Fin 5) (u : Fin 16) (s : State) : Host.Outcome State Fault Refusal :=
  .next (if r.val = 4 && decide (9 < u.val) then s
    else s.gatedWrite p (TG_U_CTL (tgWin r) u) fun s => s.tgUnitWrite r u (s.val (TG_U_CTL (tgWin r) u) / 2 * 2))

/-! ### ANNOUNCE and ANSWER (R376) -/

/-- Answer an ANNOUNCE. -/
def State.khAnswer (s : State) (dp : Nat) (m : KhAnnounce) (reason bound : Nat) : State :=
  s.sideband dp (.answer ⟨m.hive, m.stream, reason, BitVec.ofNat 16 (if reason = 0 then 0 else s.khAddr), bound⟩)

/-- Install context c for an ANNOUNCE. -/
def State.ctxInstall (s : State) (c dp : Nat) (m : KhAnnounce) (outs : List Nat) (here : Bool) (sink : Nat × Nat) (claim : Bool) :
    State :=
  let s := if claim then s else (s.setVal (KH_SC_KEY c) (65536 * m.hive.toNat + m.stream.toNat)).setVal (KH_SC_SINK c)
    (if here then sink.1 + 256 * sink.2 else 0)
  let s := (s.setVal (KH_SC_DEST c) (m.dest.toNat + m.cls * 2 ^ 26 + (if m.swarm then 2 ^ 31 else 0))).setVal (KH_SC_LAT c) m.budget
  let s := ((s.setVal (KH_SC_LEAD c) m.lead).setVal (KH_SC_MAXREC c) m.maxrec).setVal (KH_SC_RATE c) m.rate
  let s := ((s.put (KH_SC_CTL_ON c) 1).put (KH_SC_CTL_ROLE c) (if here && outs.isEmpty then 2 else 1)).setVal (KH_SC_STATUS c)
    (256 * (m.hops % 256) + 2)
  let s := (s.ctxTied c m.rate (s.ctxPorts m.stream (some dp) outs here sink.1 sink.2)).getD s
  s.modCtx c fun x => { x with
    inPort := some dp, outs := outs, here := here, wait := outs.length, good := 0, bad := 0, bound := 0, ended := false }

/-- An ANNOUNCE that closes: forwarded, and the context removed. -/
def State.announceClose (s : State) (dp : Nat) (m : KhAnnounce) : State :=
  match s.ctxFind m.hive.toNat m.stream with
  | none => s
  | some c =>
    if (s.ctxOf c).inPort != some dp then s
    else
      let s := s.each (s.ctxOf c).outs fun s p => s.sendAnnounce p m
      s.ctxForget c (s.on (KH_SC_SINK_KIND c) && (s.ctxOf c).here)

/-- KH_ANNOUNCE: checks in the order R376 gives. -/
def State.announceIn (s : State) (dp : Nat) (m : KhAnnounce) : State :=
  if !s.khIn || !(s.klUp dp) || m.hive.toNat = s.khAddr then s
  else if !m.opening then s.announceClose dp m
  else
    let old := s.ctxFind m.hive.toNat m.stream
    let d := m.dest.toNat
    let member := if m.swarm then (s.swarmMembers (d % 4096)).contains s.khAddr else decide (d = s.khAddr)
    let outs := if m.swarm then (s.swarmOuts m.hive.toNat (d % 4096)).filter fun p => p != dp
      else if member then [] else (s.routePort d).toList
    let sink := if member then
        match old with
        | some c => if (s.ctxOf c).here then some (s.get (KH_SC_SINK_KIND c), s.get (KH_SC_SINK_INDEX c), none)
            else s.sinkOf m.hive.toNat m.stream (if m.swarm then some (d % 4096) else none)
        | none => s.sinkOf m.hive.toNat m.stream (if m.swarm then some (d % 4096) else none)
      else none
    let here := member && sink.isSome
    let place := match old with
      | some c => some c
      | none => match sink with
        | some (_, _, some c) => some c
        | _ => s.ctxFree
    let bad := firstFail [
      (place.isNone, 0x020F),
      (!member && outs.isEmpty, 0x03B0),
      ((outs.any fun p => !(s.portFits p (place.getD 4096) m.rate)), 0x020E),
      (member && !here && outs.isEmpty, 0x03B1)]
    let sk : Nat × Nat := match sink with
      | some (k, i, _) => (k, i)
      | none => (0, 0)
    let bad := if bad != 0 || !here then bad
      else s.sinkCheck sk.1 sk.2 (place.getD 4096) m.rate m.maxrec (ratio (m.rate * 1000000 : Nat) (max 1 m.maxrec))
    let bad := if bad = 0 && (s.ctxTied (place.getD 4095) m.rate (s.ctxPorts m.stream (some dp) outs here sk.1 sk.2)).isNone
      then 0x020D else bad
    let bound := pathBound m.hops m.block m.maxrec m.lanes
    let bad := if bad = 0 && here && old.isNone && m.budget != 0 && decide (m.budget * 10000 < bound) then 0x06B0 else bad
    if bad != 0 then s.khAnswer dp m bad bound
    else
      let claim := match sink with
        | some (_, _, some _) => true
        | _ => false
      let s := s.ctxInstall (place.getD 0) dp m outs here sk claim
      if outs.isEmpty then s.khAnswer dp m 0 bound
      else
        let s := s.modCtx (place.getD 0) fun x => { x with
          good := if here then 1 else 0, bound := if here then bound else 0, bad := if member && !here then 0x03B1 else 0 }
        s.each outs fun s p => s.sendAnnounce p m

def execKhAnnounce (dp : Fin 64) (m : KhAnnounce) (s : State) : Host.Outcome State Fault Refusal :=
  .next (s.announceIn dp m)

/-- Every branch of context c has answered. -/
def State.ctxAnswered (s : State) (c : Nat) : State :=
  let x := s.ctxOf c
  let up (s : State) (reason : Nat) : State := match x.inPort with
    | none => s
    | some dp => s.sideband dp (.answer ⟨BitVec.ofNat 16 (s.ctxHive c), s.ctxStream c, reason,
        BitVec.ofNat 16 (if reason = 0 then 0 else s.khAddr), x.bound⟩)
  let b := if x.inPort.isSome then none else (upto 32).find? fun b => s.on (KH_SC_CTL_AUTO c) && s.ctxStream c = beamSid b
  if 0 < x.good then
    let s := (s.put (KH_SC_STATUS_OPENING c) 0).put (KH_SC_STATUS_OPEN c) 1
    let s := s.put (KH_SC_STATUS_BOUND c) (ceilDiv x.bound 10000)
    let s := if x.inPort.isSome then s
      else (s.put (KH_SC_STATUS_PARTIAL c) (if x.bad = 0 then 0 else 1)).put (KH_SC_CTL_REASON c) x.bad
    up s 0
  else
    let s := up s x.bad
    if x.inPort.isSome then s.ctxForget c false
    else match b with
      | some b =>
        if s.on (CE_BM_CTL_ENABLE b) then
          (((s.ctxClose c).put (CE_BM_CTL_ENABLE b) 0).beamStop b).put (CE_BM_CTL_REASON b) x.bad
        else s.ctxClose c
      | none => ((s.ctxClose c).put (KH_SC_CTL_REASON c) x.bad)

/-- KH_ANSWER: from the port the branch leaves on. -/
def State.answerIn (s : State) (dp : Nat) (m : KhAnswer) : State :=
  if !s.khIn || !(s.klUp dp) then s
  else match s.ctxFind m.hive.toNat m.stream with
    | none => s
    | some c =>
      let x := s.ctxOf c
      if x.wait = 0 || !(x.outs.contains dp) then s
      else
        let s := s.modCtx c fun x => { x with
          wait := x.wait - 1
          good := if m.reason = 0 then x.good + 1 else x.good
          bad := if m.reason != 0 && x.bad = 0 then m.reason else x.bad
          bound := if m.reason = 0 then max x.bound m.bound else x.bound
          outs := if m.reason = 0 then x.outs else x.outs.filter fun p => p != dp }
        if x.wait = 1 then s.ctxAnswered c else s

def execKhAnswer (dp : Fin 64) (m : KhAnswer) (s : State) : Host.Outcome State Fault Refusal :=
  .next (s.answerIn dp m)

/-! ### Routes change (R382) -/

/-- Frames that a record takes, and those of each class buffer (R372). -/
def recFrames (r : YRec) : Nat := ceilDiv (recSize r) 128
def classBuf (cls : Nat) : Nat := if cls = 0 then 256 else if cls = 1 then 3072 else 768

/-- A drop note (R380). -/
def isNote (r : YRec) : Bool := r.gapCause = 0x0D && r.payload.isEmpty && r.type != 0x0B
def dropNote (r : YRec) : YRec := { r with payload := [], gapCause := 0x0D }

/-- Frames of a port's receive buffer are free again. -/
def State.khFreed (s : State) (from_ : Option Nat) (cls : Nat) (r : YRec) : State :=
  match from_ with
  | none => s
  | some dp => s.modKlPort dp fun p => { p with freed := p.freed.set cls ((p.freed.getD cls 0 + recFrames r) % 2 ^ 32) }

/-- A record that came in on a port waits nowhere any more: its frames are free. -/
def State.khDone (s : State) (from_ : Option Nat) (c cls : Nat) (r : YRec) : State :=
  let busy := (s.kh.outs.any fun p => p.2.any fun o => o.ctx = c && o.from_ = from_ && o.rec_.seq = r.seq)
    || (s.ctxOf c).queue.any fun q => q.1 = from_ && q.2.seq = r.seq
  if busy then s else s.khFreed from_ cls r

/-- The stream of context c ends with a final gap record of cause 00FFh (R361, R382): at its origin as a record of its exit, at
its destination to the sink, in the place of what waits there. -/
def State.ctxEnd (s : State) (c : Nat) : State :=
  let x := s.ctxOf c
  let id := s.ctxStream c
  let s := if s.ctxOrigin c && !x.here then
      s.sendRecord .fabric 0 (recordOfGap s .fabric 0 (s.streamRegion id) ⟨id, s.now, 0, 0xFF, true⟩)
    else s
  let s := if x.here then
      s.emit (.deliver (s.get (KH_SC_SINK_KIND c)) (s.get (KH_SC_SINK_INDEX c)) {
        type := 0x0B, stream := id, hive := BitVec.ofNat 16 (s.ctxHive c), seq := (x.track.last.map fun r => r.seq + 1).getD 0
        time := s.now, flags := BitVec.ofNat 16 (0x101 + (if s.coastAt s.now then 128 else 0)), format := 0, gapLength := 0
        gapCause := 0xFF, contrib := 0, excised := 0, epoch := s.epoch 13, payload := [] })
    else s
  let cls := s.get (KH_SC_DEST_CLASS c)
  let s := (s.modCtx c fun x => { x with ended := true, queue := [], owed := [] }).put (KH_SC_STATUS_OPEN c) 0
  s.each x.queue fun s q => s.khDone q.1 c cls q.2

/-- Context c after new routes: moved, shed, ended or reopened. A device that moves a context announces it on the new port and
closes it on the old (assumption 23). -/
def State.ctxMove (s : State) (c : Nat) : State :=
  let x := s.ctxOf c
  let outs := s.ctxOuts c
  if s.ctxOrigin c && x.here then s
  else if x.ended then
    if s.ctxOrigin c && !outs.isEmpty && s.ctxCheck c = 0 then s.ctxOpen c else s
  else if outs.isEmpty && s.ctxOrigin c then s.ctxEnd c
  else if outs = x.outs && !(s.on (KH_SC_STATUS_SHED c)) then s
  else if outs.all fun dp => x.outs.contains dp || s.portFits dp c (s.val (KH_SC_RATE c)) then
    let s := s.each (outs.filter fun p => !(x.outs.contains p)) fun s p => s.sendAnnounce p (s.ctxAnnounce c true)
    let s := s.each (x.outs.filter fun p => !(outs.contains p)) fun s p => s.sendAnnounce p (s.ctxAnnounce c false)
    let s := (s.ctxTied c (s.val (KH_SC_RATE c)) (s.ctxPorts (s.ctxStream c) x.inPort outs x.here (s.get (KH_SC_SINK_KIND c))
      (s.get (KH_SC_SINK_INDEX c)))).getD s
    (s.modCtx c fun x => { x with outs := outs }).put (KH_SC_STATUS_SHED c) 0
  else if s.on (KH_SC_STATUS_SHED c) then s
  else (s.put (KH_SC_STATUS_SHED c) 1).raiseAlarm 1 .hive c

/-- An open context of this device comes from node `a` or goes to it. -/
def State.ctxNode (s : State) (a : Nat) : Bool :=
  s.ctxs.any fun c => s.ctxHive c = a || (!(s.on (KH_SC_DEST_SWARM c)) && s.get (KH_SC_DEST_ADDR c) = a)

/-- KH_ROUTE_INSTALL (R370, R382); the hive alarm for a node with an open context that is unreachable now (R384). -/
def State.routeInstall (s : State) : State :=
  let rs := s.khRoutes
  if !s.khIn || rs = s.kh.routes then s
  else
    let gone := (s.kh.routes.filter fun p => (kvGet rs p.1).isNone && s.ctxNode p.1).map fun p => p.1
    let s := s.each gone fun s a => s.raiseAlarm 1 .hive a
    let s := ((s.modKh fun k => { k with routes := rs }).count KH_TOPO 1).put KH_STATUS_TOPO_CHG 1
    let s := s.showRoot
    (s.each s.ctxs fun s c => s.ctxMove c).nodeShow

def execKhRouteInstall (s : State) : Host.Outcome State Fault Refusal := .next s.routeInstall

/-! ### LSAs (R361, R363, R384) -/

/-- The device gives up its address (R361). -/
def State.addrConflict (s : State) : State :=
  let a := s.khAddr
  let s := s.each (s.ctxs.filter fun c => s.ctxOrigin c || s.ctxRole c = 2) fun s c => s.ctxEnd c
  let s := ((s.put KH_ADDR_ADDR 0).put KH_STATUS_ADDR_STATE 3).put KH_CFG_REASON 0x05B0
  (s.raiseAlarm 1 .hive a 0x05B0).khAsk

/-- KH_LSA_RECEIVE: a newer LSA is stored and flooded. -/
def State.lsaIn (s : State) (dp : Nat) (m : KhLsa) : State :=
  if !s.khIn || !(s.klUp dp) then s
  else if m.origin.toNat = s.khAddr then
    if m.serial.toNat = s.khSerial then s
    else if m.serial.toNat < s.khSerial then s.addrConflict else s
  else
    let n := kvGetD s.kh.nodes m.origin.toNat {}
    let fresh := n.links.isEmpty || seqNewer m.seq n.seq
    let add := m.seq = n.seq && (kvGet n.links m.frag).isNone
    if !(fresh || add) then s
    else
      let root := match s.kh.root with
        | some r => decide (r.addr = m.origin)
        | none => false
      let safe := bits m.health.toNat 2 2 = 1 && bits n.health.toNat 2 2 = 0
      let n : KhNode := { n with
        seq := m.seq, serial := m.serial, health := m.health, links := kvPut (if fresh then [] else n.links) m.frag m.links }
      let s := s.modKh fun k => { k with
        nodes := kvPut k.nodes m.origin.toNat n, rootSeen := if root then s.now else k.rootSeen }
      let s := s.flood (some dp) (.lsa m)
      if safe then s.raiseAlarm 1 .hive m.origin.toNat else s

def execKhLsaReceive (dp : Fin 64) (m : KhLsa) (s : State) : Host.Outcome State Fault Refusal := .next (s.lsaIn dp m)

/-! ### Records (R371 to R373, R379 to R381) -/

/-- A record of context c goes to its output ports and its sink (R383). -/
def State.ctxRecord (s : State) (c : Nat) (from_ : Option Nat) (r : YRec) : State :=
  let x := s.ctxOf c
  let cls := s.get (KH_SC_DEST_CLASS c)
  let s := s.each (x.outs.filter fun dp => some dp != from_) fun s dp =>
    s.modKh fun k => { k with outs := kvPut k.outs dp (kvGetD k.outs dp [] ++ [⟨cls, c, from_, r⟩]) }
  if x.here then s.modCtx c fun x => { x with queue := x.queue ++ [(from_, r)] } else s

/-- Records handed to the hive enter their origin contexts (R374, R376, R382): without a context they are counted in
KH_NOCTX; one that still opens keeps them waiting; one that is shed discards them whole with cause 0001h. -/
def State.hivePull (s : State) : State :=
  let l := s.flow.hiveOut
  let s : State := { s with flow := { s.flow with hiveOut := [] } }
  s.each l fun s r =>
    match s.ctxFind s.khAddr r.stream with
    | none => s.count KH_NOCTX 1
    | some c =>
      if s.on (KH_SC_STATUS_OPENING c) then { s with flow := { s.flow with hiveOut := s.flow.hiveOut ++ [r] } }
      else if s.on (KH_SC_STATUS_SHED c) then
        (s.count (KH_SC_DROP c) 1).modCtx c fun x => { x with owed := s.owe x.owed r }
      else if !(s.on (KH_SC_STATUS_OPEN c)) then s.count KH_NOCTX 1
      else
        let s := s.each (s.ctxOf c).owed fun s g => s.ctxRecord c none g
        (s.modCtx c fun x => { x with owed := [] }).ctxRecord c none r

/-- The record has expired (R379). -/
def State.khExpired (s : State) (c : Nat) (r : YRec) : Bool :=
  let b := s.get (KH_SC_LAT_BUDGET c)
  let held := match s.time.stepped with
    | some t => tLt s.now (tAdd t (usTicks 1000))
    | none => false
  b != 0 && !(isNote r) && !held && tLe (tAdd r.time (nsTicks (s.val (KH_SC_LEAD c) + 10 * b))) s.now

/-- Credit of a class on a port holds a record (R372). -/
def State.khCredit (s : State) (dp cls : Nat) (r : YRec) : Bool :=
  let p := s.klPort dp
  let out := (p.used.getD cls 0 + 2 ^ 32 - p.got.getD cls 0) % 2 ^ 32
  decide (out + min (recFrames r) (classBuf cls) ≤ classBuf cls)

/-- The record that a class starts next on a port: contexts in turn, the oldest of each (R371). -/
def State.khPick (s : State) (dp cls : Nat) : Option KhOut :=
  let l := (kvGetD s.kh.outs dp []).filter fun o => o.cls = cls
  let cs := l.foldl (fun a o => if a.contains o.ctx then a else a ++ [o.ctx]) ([] : List Nat)
  let last := kvGetD s.kh.served (3 * dp + cls) 4095
  let order (c : Nat) : Nat := (c + 4096 - last - 1) % 4096
  match cs with
  | [] => none
  | c :: t =>
    let n := t.foldl (fun a c => if order c < order a then c else a) c
    l.find? fun o => o.ctx = n

/-- KH_RECORD_START (R371, R372, R379): one record starts, or expires and leaves its drop note. -/
def State.recordStart (s : State) (dp : Nat) : State :=
  if !s.khIn || !(s.klUp dp) || !s.running then s
  else
    let s := s.hivePull
    match ([0, 1, 2].filterMap (s.khPick dp)).find? fun o => s.khCredit dp o.cls o.rec_ with
    | none => s
    | some o =>
      let put (s : State) (f : List KhOut → List KhOut) : State :=
        s.modKh fun k => { k with outs := kvMod [] k.outs dp f }
      let drop (l : List KhOut) : List KhOut :=
        (l.takeWhile fun q => q != o) ++ (l.dropWhile fun q => q != o).drop 1
      if s.khExpired o.ctx o.rec_ then
        let n : KhOut := { o with rec_ := dropNote o.rec_ }
        let s := (s.count (KH_SC_DROP o.ctx) 1).count KH_EXPIRED 1
        let s := put s fun l => l.map fun q => if q = o then n else q
        s
      else
        let s := (put s drop).modKh fun k => { k with served := kvPut k.served (3 * dp + o.cls) o.ctx }
        let s := s.modKlPort dp fun p => { p with
          used := p.used.set o.cls ((p.used.getD o.cls 0 + recFrames o.rec_) % 2 ^ 32) }
        (s.emit (.link dp o.rec_)).khDone o.from_ o.ctx o.cls o.rec_

def execKhRecordStart (dp : Fin 64) (s : State) : Host.Outcome State Fault Refusal := .next (s.inIsland (kw dp) fun s => s.recordStart dp)

/-- KL_RECORD_RECEIVE (R328, R358, R374): a record arrives whole; `cls` is the class whose buffer a record without a context
frees. -/
def State.recordIn (s : State) (dp cls : Nat) (r : YRec) : State :=
  if !(s.klUp dp) then s
  else if !s.khIn || !s.running then s.khFreed (some dp) cls r
  else match (if r.hive.toNat = s.khAddr then none else s.ctxFind r.hive.toNat r.stream) with
    | none => (s.count KH_NOCTX 1).khFreed (some dp) cls r
    | some c =>
      if s.on (KH_SC_STATUS_SHED c) then (s.count (KH_SC_DROP c) 1).khFreed (some dp) (s.get (KH_SC_DEST_CLASS c)) r
      else (s.ctxRecord c (some dp) r).khDone (some dp) c (s.get (KH_SC_DEST_CLASS c)) r

def execKlRecordReceive (dp : Fin 64) (cls : Fin 3) (r : YRec) (s : State) : Host.Outcome State Fault Refusal :=
  .next (s.inIsland (kw dp) fun s => s.recordIn dp cls r)

/-- Spectra or dumps of which a slice is missing between two records: with S slices each, which the fields of the two records
and the count of records between give; one counted before, `had`, does not count again. None where they do not give S. -/
def slicesMissing (a b : YRec) (had : Option Int) : Option Nat :=
  let n := (b.seq - a.seq).toNat
  let ja := recIndex a
  let jb := recIndex b
  let d := (jb - ja).toNat
  let first := if had = some ja then 0 else 1
  if !(recSliced a) || !(recSliced b) then none
  else if jb = ja then (if recSlice b = recSlice a + n then some first else none)
  else if jb < ja || (n + recSlice a - recSlice b) % d != 0 || n + recSlice a < recSlice b then none
  else
    let slices := (n + recSlice a - recSlice b) / d
    if slices ≤ recSlice a || slices ≤ recSlice b then none
    else some ((if recSlice a + 1 < slices then first else 0) + (d - 1) + (if recSlice b = 0 then 0 else 1))

/-- Own samples that stand between the TIMEs of two records, by a pace. -/
def paceSpan (p : Int × Nat) (a b : YRec) : Nat := (ratioRound (ratio (tDiff b.time a.time * p.2) p.1.toNat)).toNat

/-- The stream's own samples in the records missing between `a` and `b` (R381): for spectra and dumps from SPECTRUM and SLICE,
for DENS from the update counts, for events and quires from SEQUENCE, else from TIME by the pace of the stream; a free value
where no two records that followed each other have shown the pace. -/
def State.missing (s : State) (x : RecTrack) (a b : YRec) : Nat :=
  let k := b.stream.toNat / 4096
  match slicesMissing a b x.lostIdx with
  | some n => n
  | none =>
    if 7 ≤ k then (b.seq - a.seq).toNat - 1
    else if k = 4 && a.type != 0x0B && b.type != 0x0B then
      max 1 ((recField b 8 4 + 2 ^ 32 - recField a 12 4) % 2 ^ 32 * recUnit b)
    else match x.pace with
      | some p => paceSpan p a b - recSamples none a false
      | none => s.freeNow % 2 ^ 48

/-- When the first of the missing samples after record `a` would have come: its own TIME where its spectrum or dump goes on,
else a pace for each of its samples later; its own TIME while no pace is known. -/
def missTime (x : RecTrack) (a b : YRec) : DevTime :=
  if recSliced a && recSliced b && recIndex a = recIndex b then a.time
  else match x.pace with
    | some p => tAddI a.time (ratioFloor (ratio (p.1 * recSamples none a false) p.2))
    | none => a.time

/-- The pace of a stream, renewed by two records that follow each other. -/
def paceOf (old : Option (Int × Nat)) (a b : YRec) : Option (Int × Nat) :=
  let n := if recSliced a && recSliced b then (recIndex b - recIndex a).toNat
    else if a.stream.toNat / 4096 ≤ 1 || a.type = 0x0B then recSamples none a false else 0
  let d := tDiff b.time a.time
  if 0 < n && 0 < d && b.seq = a.seq + 1 then some (d, n) else old

/-- The track after record `r` was taken: a slice of it lost, or all of it (`whole`), counts its spectrum. -/
def RecTrack.take (x : RecTrack) (r : YRec) (whole : Bool) : RecTrack :=
  let cut := match x.last with
    | some l => r.seq != l.seq + 1 && recSliced r && decide (0 < recSlice r)
    | none => false
  let had := if cut then some (recIndex r) else x.lostIdx
  { last := some r
    lostIdx := if whole then lostIndex r had else had
    pace := match x.last with
      | some l => paceOf x.pace l r
      | none => x.pace }

/-- Own samples that record `r` held when it is lost whole. -/
def RecTrack.held (x : RecTrack) (r : YRec) : Nat :=
  recSamples x.last r (recSliced r && (x.take r false).lostIdx = some (recIndex r))

/-- A GAP record is owed to the sink before the next record; a loss to the sink itself adds to the one before it. -/
def State.ctxOwe (s : State) (c : Nat) (g : YRec) : State :=
  s.modCtx c fun x => { x with owed := match x.owed.getLast? with
    | some h => if h.gapCause = g.gapCause && g.gapCause = 1 then
        x.owed.dropLast ++ [{ h with gapLength := h.gapLength + g.gapLength }] else x.owed ++ [g]
    | none => [g] }

/-- KH_RECORD_DELIVER (R373, R381): the oldest record of context c is delivered, discarded as stale, or discarded because
the sink has no room. -/
def State.recordDeliver (s : State) (c : Nat) (room : Bool) : State :=
  if !s.khIn || !s.running || !(s.ctxOn c) then s
  else
    let s := s.hivePull
    let x := s.ctxOf c
    let cls := s.get (KH_SC_DEST_CLASS c)
    match x.queue with
    | [] => s
    | (from_, r) :: t =>
      let s := (s.modCtx c fun x => { x with queue := t }).khDone from_ c cls r
      let kind := s.get (KH_SC_SINK_KIND c)
      let index := s.get (KH_SC_SINK_INDEX c)
      let stale := match x.track.last with
        | some l => decide (r.seq ≤ l.seq)
        | none => false
      if isNote r then s.modCtx c fun x => { x with noted := true }
      else if stale then s.count (KH_SC_DROP c) 1
      else if s.khExpired c r then
        (((s.count (KH_SC_DROP c) 1).count KH_EXPIRED 1).modCtx c fun x => { x with noted := true })
      else
        let s := match x.track.last with
          | some l => if r.seq = l.seq + 1 then s
              else (s.ctxOwe c (s.gapRecOf r (l.seq + 1) (missTime x.track l r) (s.missing x.track l r) (if x.noted then 0x0D else 0x0E))).useFree
          | none => s
        let s := s.modCtx c fun y => { y with track := x.track.take r (!room), noted := false }
        if !room then (s.count (KH_SC_DROP c) 1).ctxOwe c (s.gapRecOf r r.seq r.time (x.track.held r) 1)
        else
          let s := s.each (s.ctxOf c).owed fun s g => s.emit (.deliver kind index g)
          (s.modCtx c fun x => { x with owed := [] }).emit (.deliver kind index r)

def execKhRecordDeliver (c : Fin 4096) (room : Bool) (s : State) : Host.Outcome State Fault Refusal :=
  .next (s.recordDeliver c room)

/-- KH_CREDIT_SEND, KH_CREDIT_RECEIVE (R372). -/
def execKhCreditSend (dp : Fin 64) (s : State) : Host.Outcome State Fault Refusal :=
  .next (if s.khIn && s.klUp dp && s.due (s.klPort dp).creditAt 2 then
    let f (k : Nat) : Word := BitVec.ofNat 32 ((s.klPort dp).freed.getD k 0)
    (s.modKlPort dp fun p => { p with creditAt := some s.now }).sideband dp (.credit (f 0) (f 1) (f 2))
  else s)

def execKhCreditReceive (dp : Fin 64) (control stream bulk : Word) (s : State) : Host.Outcome State Fault Refusal :=
  .next (if s.khIn && s.klUp dp then
    s.modKlPort dp fun p => { p with got := [control.toNat, stream.toNat, bulk.toNat] }
  else s)

/-! ### Hive settings (R387) -/

/-- The device leaves the hive: its contexts end. -/
def State.khLeave (s : State) : State :=
  let s := s.each s.ctxs fun s c => s.ctxEnd c
  (s.modKh fun k => { k with nbrs := [], nodes := [], root := none, higher := none, routes := [] }).showRoot

/-- A write of KH_CFG. -/
def State.khCfgWrite (s : State) (v : Nat) : State × Nat :=
  s.enableWrite KH_CFG v KH_CFG_ENABLE KH_CFG_REASON (fun s => if s.on KH_CFG_ENABLE then 0x07B0 else 0) (fun _ => 0)
    (fun s => if s.khIn then s.khJoin else s) (·.khLeave)

/-- A write of KH_ADDR or KH_POOL. -/
def State.khRangeWrite (s : State) (a v : Nat) : State × Nat :=
  let lo := v % 65536
  let hi := v / 65536 % 65536
  let bad (x : Nat) : Bool := x = 0 || decide (0xFEFF < x)
  if s.on KH_CFG_ENABLE && s.changes a v != 0 then s.answer KH_CFG_REASON 0x07B0
  else if (a = KH_ADDR && bad hi) || (a = KH_POOL && (bad lo || bad hi || decide (hi < lo))) then s.answer KH_CFG_REASON 0x01B0
  else ((s.plainWrite a v).put KH_CFG_REASON 0, 0)

/-! ### Management requests (R385) -/

/-- A write of KH_MG_CTL. -/
def State.mgCtlWrite (s : State) (v : Nat) : State × Nat :=
  if bits v 0 0 = 1 && s.on KH_MG_CTL_BUSY then s.answer KH_MG_CTL_REASON 0x05B2
  else
    let s := s.put KH_MG_CTL_WRITE (bits v 1 1)
    if bits v 0 0 = 0 then (s, 0)
    else
      let tag := s.kh.tag
      let d := s.val KH_MG_DEST % 65536
      let m : KhMreq := ⟨BitVec.ofNat 16 d, BitVec.ofNat 16 s.khAddr, BitVec.ofNat 16 tag, decide (bits v 1 1 = 1),
        BitVec.ofNat 24 (s.val KH_MG_ADDR), s.reg KH_MG_DATA⟩
      let s := ((s.modKh fun k => { k with mg := some (tag, s.now), tag := (tag + 1) % 65536 }).put KH_MG_CTL_BUSY 1).put
        KH_MG_CTL_REASON 0
      (match s.routePort d with
        | some dp => if s.khIn && s.khAddr != 0 then s.sideband dp (.mreq m) else s
        | none => s, 0)

def execKhMgGo (p : Fin 5) (v : Word) (s : State) : Host.Outcome State Fault Refusal :=
  .next (s.gatedWrite p KH_MG_CTL fun s => s.mgCtlWrite v.toNat)

/-- KH_MRSP: for this device's request, or forwarded. -/
def State.mrspIn (s : State) (dp : Nat) (m : KhMrsp) : State :=
  if !s.khIn || !(s.klUp dp) then s
  else if m.requester.toNat != s.khAddr then
    match s.routePort m.requester.toNat with
    | some p => s.sideband p (.mrsp m)
    | none => s
  else match s.kh.mg with
    | none => s
    | some (tag, _) =>
      if tag != m.tag.toNat then s
      else
        let s := ((s.modKh fun k => { k with mg := none }).put KH_MG_CTL_BUSY 0).put KH_MG_CTL_REASON m.reason.toNat
        if s.on KH_MG_CTL_WRITE then s else s.setReg KH_MG_DATA m.data

def execKhMrsp (dp : Fin 64) (m : KhMrsp) (s : State) : Host.Outcome State Fault Refusal := .next (s.mrspIn dp m)

/-- KH_MG_TIMEOUT: 10 ms without MRSP. -/
def execKhMgTimeout (s : State) : Host.Outcome State Fault Refusal :=
  .next (match s.kh.mg with
    | none => s
    | some (_, t) =>
      if tLt s.now (tAdd t (usTicks 10000)) then s
      else ((s.modKh fun k => { k with mg := none }).put KH_MG_CTL_BUSY 0).put KH_MG_CTL_REASON 0x03B2)

end Sys2Proof.Machine
end

