-- ==== Sys2Proof/Machine/Codeword.lean ====
section
/-! DEFINITION. Machine/Codeword.lean: codewords as they arrive on a lane: sideband messages and the records of link frames
(R326 to R330). -/

namespace Sys2Proof.Machine

/-- One bit of CRC-16, polynomial 1021h, most significant bit first. -/
def crc16Bit (c : Nat) : Nat := if bits c 15 15 = 1 then ((c * 2) ^^^ 0x1021) % 65536 else c * 2 % 65536
def crc16Byte (c b : Nat) : Nat :=
  let c := c ^^^ (b * 256)
  crc16Bit (crc16Bit (crc16Bit (crc16Bit (crc16Bit (crc16Bit (crc16Bit (crc16Bit c)))))))

/-- CRC-16 of R330, initial value FFFFh. -/
def crc16 (bs : List Byte) : Nat := bs.foldl (fun c b => crc16Byte c b.toNat) 0xFFFF

/-- A message type that is not reserved (Tables KL-3, KH-1). -/
def sbKnown (t : Nat) : Bool := (decide (1 ≤ t) && decide (t ≤ 5)) || (decide (0x10 ≤ t) && decide (t ≤ 0x19))

/-- The port that lane i of region r belongs to: by its role, or the port its spare serves. -/
def State.lanePort (s : State) (r i : Nat) : Nat :=
  match s.laneRole (13 + r) i with
  | some (dp, _) => dp
  | none => 32 * r + (if 64 ≤ i then s.get (KL_SPARE_PORT (13 + r) (i - 64)) else s.get (KL_LANE_STATUS_PORT (13 + r) i))

/-- Take a sideband byte (R330): a message is complete at TYPE, LEN, LEN bytes and CRC, here least significant byte first. -/
def State.sbByte (s : State) (r i ctl : Nat) (b : Byte) : State :=
  let dp := s.lanePort r i
  let err (s : State) : State := (s.count (KL_PORT_SBERR (kw dp) (kq dp)) 1).modLane r i fun l => { l with sb := none }
  let cur := if ctl = 1 then some [b] else if ctl = 0 then (s.klLane r i).sb.map fun l => l ++ [b] else (s.klLane r i).sb
  match cur with
  | none => s
  | some l =>
    let len := (l.getD 1 0).toNat
    if ctl != 0 && ctl != 1 then s
    else if l.length < 2 then s.modLane r i fun x => { x with sb := some l }
    else if 60 < len then err s
    else if l.length < len + 4 then s.modLane r i fun x => { x with sb := some l }
    else
      let body := l.take (len + 2)
      let t := (l.getD 0 0).toNat
      if fromLe (l.drop (len + 2)) != crc16 body || !(sbKnown t) then err s
      else (s.modLane r i fun x => { x with sb := none }).emit (.sbMessage dp t (body.drop 2))

/-- The record whose bytes these are (Table AC-10). -/
def recParse (bs : List Byte) : YRec :=
  let f (o n : Nat) : Nat := fromLe ((bs.drop o).take n)
  { type := BitVec.ofNat 8 (f 2 1), stream := BitVec.ofNat 16 (f 8 2), hive := BitVec.ofNat 16 (f 10 2)
    seq := BitVec.ofNat 64 (f 12 8), time := BitVec.ofNat 80 (f 20 10), flags := BitVec.ofNat 16 (f 30 2)
    format := BitVec.ofNat 16 (f 32 2), gapLength := BitVec.ofNat 48 (f 34 6), gapCause := BitVec.ofNat 16 (f 40 2)
    contrib := BitVec.ofNat 16 (f 42 2), excised := BitVec.ofNat 16 (f 44 2), epoch := BitVec.ofNat 8 (f 46 1)
    payload := (bs.drop 64).take (f 4 4) }

/-- MAGIC and HEADER_CRC match, and VERSION is the one known (R36, Table AC-10). -/
def headOk (bs : List Byte) : Bool :=
  decide (64 ≤ bs.length) && bs.take 2 = [0x59, 0x4E] && bs.getD 3 0 = 1 && fromLe ((bs.drop 60).take 4) = crc32c (bs.take 60)

/-- The record in progress on a port is lost; frames are skipped until one that is not DATA. -/
def State.recAbort (s : State) (dp : Nat) (skip : Bool) : State :=
  (if (s.klPort dp).cur.isEmpty then s else s.count (KL_PORT_ABORTS (kw dp) (kq dp)) 1).modKlPort dp fun p =>
    { p with cur := [], skip := skip }

/-- Take whole records off the front of a port's byte stream, at most `n`. -/
def State.recTake (s : State) (dp : Nat) : Nat → State
  | 0 => s
  | n + 1 =>
    let bs := (s.klPort dp).cur
    if bs.length < 8 then s
    else if bs.take 2 = [0, 0] then s.modKlPort dp fun p => { p with cur := [] }
    else if bs.length < 64 then s
    else if !(headOk bs) then s.recAbort dp true
    else
      let size := 64 + (fromLe ((bs.drop 4).take 4) + 7) / 8 * 8
      if bs.length < size then s
      else ((s.modKlPort dp fun p => { p with cur := bs.drop size }).recordIn dp 1 (recParse bs)).recTake dp n

/-- One link frame of a port (R327, R328). -/
def State.linkFrame (s : State) (dp tag : Nat) (bs : List Byte) : State :=
  let p := s.klPort dp
  if tag = 0 then s.modKlPort dp fun p => { p with skip := false }
  else if tag != 1 then s.recAbort dp false
  else if p.skip then s
  else (s.modKlPort dp fun p => { p with cur := p.cur ++ bs }).recTake dp 16

/-- The codeword of the role whose turn it is: the next received on its lane; of a failed lane, until another takes its role,
none, once a lane of the port has one after it (R337: its frames are discarded). -/
def State.klNext (s : State) (dp i : Nat) : Option (Option (List (Nat × List Byte))) :=
  if s.laneOut (kw dp) i then
    if (s.klPort dp).map.any fun k => !(s.klLane (dp / 32) k).words.isEmpty then some none else none
  else (s.klLane (dp / 32) i).words.head?

/-- Codewords in the order of R332: role by role, while the role whose turn it is has one; at most `n`. -/
def State.klDrain (s : State) (dp : Nat) : Nat → State
  | 0 => s
  | n + 1 =>
    let p := s.klPort dp
    match p.map[p.turn]? with
    | none => s
    | some i =>
      match s.klNext dp i with
      | none => s
      | some w =>
        let s := s.modLane (dp / 32) i fun l => { l with words := l.words.drop 1 }
        let s := s.modKlPort dp fun p => { p with turn := (p.turn + 1) % p.map.length }
        let s := match w with
          | none => s.recAbort dp true
          | some fs => s.each fs fun s f => s.linkFrame dp f.1 f.2
        s.klDrain dp n

/-- Codewords of 51.2 ns in 1 ms (assumption 57). -/
def msWords : Nat := 19531

/-- The counts of R335 after one more codeword, and whether they declare the lane failed: UNCORR_MAX uncorrectable codewords
within 1 ms, or a mean of corrected symbols over a millisecond above CORR_AVG / 16. -/
def KlLane.watch (l : KlLane) (corrected : Option Nat) (maxBad avg : Nat) : KlLane × Bool :=
  let c := l.count + 1
  let bad := (if corrected.isNone then l.bad ++ [c] else l.bad).filter fun x => decide (c ≤ x + msWords)
  let n := l.winN + (if corrected.isSome then 1 else 0)
  let sum := l.winSum + corrected.getD 0
  let full := decide (l.winFrom + msWords ≤ c)
  ({ l with
    count := c, bad := bad, winFrom := if full then c else l.winFrom, winN := if full then 0 else n
    winSum := if full then 0 else sum },
   (corrected.isNone && decide (maxBad ≤ bad.length)) || (full && decide (avg * n < 16 * sum)))

/-- A lane whose codewords fail the thresholds of R335 is declared failed. -/
def State.laneWatch (s : State) (r i : Nat) (corrected : Option Nat) : State :=
  let w := 13 + r
  let x := (s.klLane r i).watch corrected (s.get (KL_LANE_LIMIT_UNCORR_MAX w i)) (s.get (KL_LANE_LIMIT_CORR_AVG w i))
  let s := s.modLane r i fun _ => x.1
  if x.2 then s.laneFail w i else s

/-- KL_CODEWORD_RECEIVE (R326 to R330, R335): lane i of region r receives a codeword. -/
def State.codeword (s : State) (r i : Nat) (cw : Codeword) : State :=
  let w := 13 + r
  if s.lost w || absentRegion s.variant w || s.laneDead w i then s
  else
    let s := match cw.corrected with
      | none => s.count (KL_LANE_UNCORR w i) 1
      | some n => s.setPair (KL_LANE_CORR_LO w i) (KL_LANE_CORR_HI w i)
          ((s.pair (KL_LANE_CORR_LO w i) (KL_LANE_CORR_HI w i) + n) % 2 ^ 64)
    let s := if cw.corrected.isSome then (s.laneLock w i).sbByte r i cw.sbctl cw.sb else s
    let s := match s.laneRole w i with
      | none => s
      | some (dp, _) =>
        if !(s.klUp dp) then s
        else
          let word := cw.corrected.map fun _ => (cw.tags.map fun (t : Fin 4) => t.val).zip cw.frames
          (s.modLane r i fun l => { l with words := l.words ++ [word] }).klDrain dp 64
    s.laneWatch r i cw.corrected

def execKlCodewordReceive (r : Fin 2) (i : Fin 68) (cw : Codeword) (s : State) : Host.Outcome State Fault Refusal :=
  .next (s.khKeep (s.codeword r i cw))

end Sys2Proof.Machine
end

