-- ==== Sys2Proof/Machine/Bindery.lean ====
section
/-! DEFINITION. Machine/Bindery.lean: recording to raw flash (chapter 14, R420 to R455). A volume's byte stream is held as its
records with their places; leaves, stripes and parity follow from these and from the rounds (R423 to R427). -/

namespace Sys2Proof.Machine

def State.modBd (s : State) (f : BdSt → BdSt) : State := { s with bd := f s.bd }
def State.bdChan (s : State) (c : Nat) : BdChan := kvGetD s.bd.chans c {}
def State.modFlash (s : State) (c : Nat) (f : BdChan → BdChan) : State :=
  s.modBd fun b => { b with chans := kvMod {} b.chans c f }
def unitKey (c l k : Nat) : Nat := (32 * c + l) * 65536 + k
def State.bdUnit (s : State) (u : Nat) : BdUnit := kvGetD s.bd.units u {}
def State.modUnit (s : State) (u : Nat) (f : BdUnit → BdUnit) : State :=
  s.modBd fun b => { b with units := kvSetD {} b.units u (f (kvGetD b.units u {})) }
def State.bdSec (s : State) (n : Nat) : BdSec := kvGetD s.bd.secs n { vol := none, members := [] }
def State.modSec (s : State) (n : Nat) (f : BdSec → BdSec) : State :=
  match kvGet s.bd.secs n with
  | some x => s.modBd fun b => { b with secs := kvPut b.secs n (f x) }
  | none => s
def State.modVol (s : State) (v : Nat) (f : BdVol → BdVol) : State :=
  match kvGet s.bd.vols v with
  | some x => s.modBd fun b => { b with vols := kvPut b.vols v (f x) }
  | none => s
def State.modVolSlot (s : State) (i : Nat) (f : BdSlot → BdSlot) : State :=
  match kvGet s.bd.slots i with
  | some x => s.modBd fun b => { b with slots := kvPut b.slots i (f x) }
  | none => s

/-- Key of a stream in a volume. -/
def volKey (hive stream : Nat) : Nat := hive * 65536 + stream

/-! ### Channels, units, MEDIA -/

/-- LUNs of channel c that can hold data: not failed, no spine copy. -/
def State.dataLuns (s : State) (c : Nat) : List Nat :=
  let x := s.bdChan c
  if x.failed || !x.trained then []
  else ((x.luns.zip (upto 32)).filter fun p => !p.1.failed && !p.1.spine).map fun p => p.2

/-- Units of channel c that are listed, with their keys. -/
def State.chanUnits (s : State) (c : Nat) : KV BdUnit := s.bd.units.filter fun p => p.1 / 65536 / 32 = c

/-- Free erased units of channel c. -/
def State.freeUnits (s : State) (c : Nat) : Nat :=
  let ls := s.dataLuns c
  ls.length * s.bd.blocks - ((s.chanUnits c).filter fun p => ls.contains (p.1 / 65536 % 32)
    && (p.2.bad || p.2.dirty || p.2.owner.isSome)).length

/-- Channels that hold members of new sections. -/
def State.bdChans (s : State) : List Nat := (upto 32).filter fun c => !(s.dataLuns c).isEmpty

/-- Sections that can still be formed (R429). -/
def State.freeSections (s : State) : Nat :=
  match s.bdChans with
  | [] => 0
  | c :: t => t.foldl (fun a c => min a (s.freeUnits c)) (s.freeUnits c)

/-- The registers of channel c. -/
def State.showFlash (s : State) (c : Nat) : State :=
  let x := s.bdChan c
  let es := (s.chanUnits c).map fun p => p.2.erases
  let all := x.luns.length * s.bd.blocks
  let tmask (f : BdTarget → Bool) : Nat := flagBits (((upto 8).zip x.targets).map fun p => (p.1, f p.2))
  let st := flagBits [(0, x.trained), (1, x.failed), (2, x.luns.any fun l => l.spine)] + 256 * (s.dataLuns c).length
    + 65536 * tmask (fun _ => true) + 2 ^ 24 * tmask (fun t => t.excluded)
  let s := (s.setVal (BD_CH_STATUS c) st).setVal (BD_CH_FREE c) (s.freeUnits c)
  let s := s.setVal (BD_CH_BAD c) (x.luns.foldl (fun a l => a + l.grown) 0)
  s.setVal (BD_CH_PE c) (65536 * (es.foldl max 0 % 65536) + es.foldl (· + ·) 0 / max 1 all % 65536)

/-- A condition of R449 on channel c. -/
def State.chanMedia (s : State) (c : Nat) : Bool :=
  let x := s.bdChan c
  let all := x.luns.length * s.bd.blocks
  let grown := x.luns.foldl (fun a l => a + l.grown) 0
  let es := (s.chanUnits c).foldl (fun a p => a + p.2.erases) 0
  x.failed || (x.luns.any fun l => l.failed) || decide (s.get BD_LIMITS_GROWN_MAX * all < 1000 * grown)
    || decide (s.get BD_LIMITS_WEAR_LIMIT * s.bd.rated * all < 100 * es)

/-- Bring the channel registers, MEDIA, MEDIA_N and its alarm up to date (R449). -/
def State.showMedia (s : State) : State :=
  let s := s.each (s.bd.chans.map fun p => p.1) fun s c => s.showFlash c
  let fronts := match s.bdChans with
    | [] => 0
    | c :: t => t.foldl (fun a c => min a (s.dataLuns c).length) (s.dataLuns c).length
  let s := s.put BD_STATUS_FRONTS_MAX fronts
  let cs := (upto 32).filter s.chanMedia
  let whole := s.bd.leafLost || s.on BD_STATUS_SPINE_SINGLE
  let on := whole || !cs.isEmpty
  let s := s.each (upto 32) fun s c => if cs.contains c then s.beginLevel 12 .media c else s.endLevel 12 .media c
  let s := if whole then s.beginLevel 12 .media 0xFFFFFFFF else s.endLevel 12 .media 0xFFFFFFFF
  let s := (s.put BD_STATUS_MEDIA (if on then 1 else 0)).put GLOBAL_HEALTH_HEALTH
    (setBits (s.get GLOBAL_HEALTH_HEALTH) 1 1 (if on then 1 else 0))
  { s with power := { s.power with mediaN := !on } }

/-- Catalogue registers: entry I, and the count. -/
def State.showCat (s : State) : State :=
  let s := s.put BD_CAT_COUNT_N s.bd.vols.length
  match s.bd.vols[s.get BD_CAT_IDX_I]? with
  | none => (s.setVal BD_CAT_ID 0).setVal BD_CAT_INFO 0
  | some (id, v) =>
    let st := match v.state with
      | .recording | .recovering => 0
      | .closed => 1
      | .deleting => 2
    (s.setVal BD_CAT_ID id).setVal BD_CAT_INFO (st * 2 ^ 30 + v.secs.length)

/-- Fronts in use, declared rate. -/
def State.frontsUsed (s : State) : Nat := sumOf (s.bd.slots.map fun p => p.1) fun i => s.get (BD_VS_CFG_FRONTS i)

/-- Enabled keys of slot i. -/
def State.slotKeys (s : State) (i : Nat) : List (Nat × Nat) :=
  ((upto 16).filter fun k => bits (s.get (BD_VS_KEYS_ON i)) k k = 1).map fun k =>
    (s.get (BD_VS_KEY_SOURCE_HIVE i k), s.get (BD_VS_KEY_STREAM_ID i k))

/-- Declared rate of a key in MB/s (R430). -/
def State.keyRate (s : State) (k : Nat × Nat) : Nat :=
  if k.1 = 0 then s.streamRate (BitVec.ofNat 16 k.2)
  else match s.ctxFind k.1 (BitVec.ofNat 16 k.2) with
    | some c => s.val (KH_SC_RATE c)
    | none => 0
def State.slotRate (s : State) (i : Nat) : Nat := (s.slotKeys i).foldl (fun a k => a + s.keyRate k) 0

/-- Bindery budget in MB/s (R430). -/
def State.bdBudget (s : State) : Nat := 48000 * (1600 + 400 * s.get BD_CFG_RATE) / 2400

def State.showRates (s : State) : State :=
  let sum := sumOf (s.bd.slots.map fun p => p.1) s.slotRate
  ((s.put BD_STATUS_FRONTS_USED s.frontsUsed).put BD_BUDGET_DECLARED (ceilDiv sum 100)).put BD_BUDGET_BUDGET (s.bdBudget / 100)

/-! ### Sections (R426, R427, R435) -/

/-- The free unit with the lowest erase count on channel c, on a LUN not in `not` where one has a free unit. -/
def State.pickUnit (s : State) (c : Nat) (not : List Nat) : Option (Nat × Nat) :=
  let ok (l k : Nat) : Bool :=
    let u := s.bdUnit (unitKey c l k)
    !u.bad && !u.dirty && u.owner.isNone
  let best (ls : List Nat) : Option (Nat × Nat × Nat) := ls.foldl (fun a l => (upto s.bd.blocks).foldl (fun a k =>
    if !(ok l k) then a
    else
      let e := (s.bdUnit (unitKey c l k)).erases
      match a with
      | none => some (e, l, k)
      | some b => if e < b.1 then some (e, l, k) else a) a) none
  let ls := s.dataLuns c
  match best (ls.filter fun l => !(not.contains l)) with
  | some b => some b.2
  | none => (best ls).map fun b => b.2

/-- Form a section for volume v; `not` are the LUNs of each channel that the volume's open fronts use. None where some channel
has no free unit. -/
def State.formSection (s : State) (v : Nat) (open_ : List Nat) : Option (Nat × State) :=
  let used (c : Nat) : List Nat := open_.flatMap fun n => ((s.bdSec n).members.filter fun m => m.chan = c).map fun m => m.lun
  let ms := s.bdChans.map fun c => (s.pickUnit c (used c)).map fun p => (⟨c, p.1, p.2, false⟩ : BdMember)
  if s.bdChans.isEmpty || ms.any fun m => m.isNone then none
  else
    let n := s.bd.nextSec
    let mem := ms.filterMap id
    let s := s.each mem fun s m => s.modUnit (unitKey m.chan m.lun m.blk) fun u => { u with owner := some n }
    some (n, s.modBd fun b => { b with nextSec := n + 1, secs := kvPut b.secs n { vol := some v, members := mem } })

/-- Indices of the members that are not retired. -/
def BdSec.live (x : BdSec) : List Nat :=
  (upto x.members.length).filter fun k => match x.members[k]? with
    | some a => !a.retired
    | none => false

/-- Index of the member that holds the parity of stripe i of section `num` of `m` members, `mem` taking part (R427). -/
def parityOf (m num i : Nat) (mem : List Nat) : Nat :=
  let p := (i + num) % max 1 m
  (((upto m).map fun k => (p + k) % max 1 m).find? mem.contains).getD p

/-- Data leaves of a stripe: the members that are not retired, but one. -/
def BdSec.perStripe (x : BdSec) : Nat := x.live.length - 1

/-- Data leaves of a wordline round. -/
def BdSec.perRound (x : BdSec) : Nat := 12 * x.perStripe

/-- Stripes of a section: 4 planes of `pages`. -/
def State.secStripes (s : State) : Nat := 4 * s.bd.pages

/-- The section is one of a recording volume's fronts. -/
def State.secOpen (s : State) (n : Nat) : Bool := s.bd.slots.any fun p => p.2.fronts.any fun f => f.sec = n

/-- Sections that wait for rebuild (R441). -/
def State.showRebuild (s : State) : State :=
  s.put BD_STATUS_REBUILDING (if s.bd.secs.any fun p => p.2.vol.isSome && p.2.members.any fun m => m.retired then 1 else 0)

/-- A section is given up: its units wait for their erase. -/
def State.dropSection (s : State) (n : Nat) : State :=
  let s := s.each (s.bdSec n).members fun s m => s.modUnit (unitKey m.chan m.lun m.blk) fun u => { u with dirty := !u.bad }
  s.modSec n fun x => { x with vol := none }

/-- The data leaf that member k holds in stripe `i` (0 to 11) of a round (R427): data leaves lie in ascending member order beside
the parity. -/
def BdRound.leafAt (r : BdRound) (m k i : Nat) : Option Nat :=
  let data := r.mem.filter fun q => q != parityOf m r.sec (r.pos + i) r.mem
  match data.zip (upto data.length) |>.find? fun p => p.1 = k with
  | some p => some (r.lo + i * data.length + p.2)
  | none => none

/-- Where data leaf `q` of a round lies: member, stripe of the section. -/
def BdRound.place (r : BdRound) (m q : Nat) : Option (Nat × Nat) :=
  (((upto 12).flatMap fun i => r.mem.map fun k => (k, i)).find? fun p => r.leafAt m p.1 p.2 = some q).map fun p =>
    (p.1, r.pos + p.2)

/-- Rounds of a volume, confirmed or not. -/
def State.volAllRounds (s : State) (v : Nat) : List BdRound :=
  ((kvGet s.bd.vols v).map fun x => x.rounds).getD []
    ++ (s.bd.slots.filter fun p => p.2.vol = v).flatMap fun p => p.2.fronts.flatMap fun f => f.rounds

/-- Leaves that member k of section n holds in stripes that lack another member already are lost (R442). -/
def State.loseLeaves (s : State) (n k : Nat) : State :=
  let x := s.bdSec n
  match x.vol with
  | none => s
  | some v =>
    let dead := (upto x.members.length).filter fun j => j != k && !(x.live.contains j)
    let lost := ((s.volAllRounds v).filter fun r => r.sec = n && dead.any r.mem.contains).flatMap fun r =>
      (upto 12).filterMap fun i => r.leafAt x.members.length k i
    if lost.isEmpty then s
    else (s.count BD_LOST lost.length).modBd fun b => { b with
      leafLost := true, lostLeaves := kvMod [] b.lostLeaves v (· ++ lost) }

/-- A member is retired (R439, R440, R442): the second of a section is a fault that is not masked, and the front moves to a
new section. -/
def State.retireMember (s : State) (n c : Nat) : State :=
  let x := s.bdSec n
  match (x.members.zip (upto 64)).find? fun p => p.1.chan = c && !p.1.retired with
  | none => s
  | some (_, k) =>
    let second := x.members.any fun m => m.retired
    let s := if second then s.loseLeaves n k else s
    let s := s.modSec n fun x => { x with members := x.members.map fun m => if m.chan = c then { m with retired := true } else m }
    let s := if second then s.modBd fun b => { b with slots := b.slots.map fun p => (p.1, { p.2 with
        fronts := p.2.fronts.map fun f => if f.sec = n then { f with pos := s.secStripes } else f }) } else s
    s.showRebuild

/-- Every member on a LUN is retired. -/
def State.retireLun (s : State) (c l : Nat) : State :=
  s.each ((s.bd.secs.filter fun p => p.2.vol.isSome && p.2.members.any fun m => m.chan = c && m.lun = l && !m.retired).map fun p => p.1)
    fun s n => s.retireMember n c

/-- The first healthy LUN of a channel, in order of target then LUN, holds its spine copy (R443). -/
def BdChan.withSpine (x : BdChan) : BdChan :=
  match (x.luns.zip (upto 64)).find? fun p => !p.1.failed with
  | none => x
  | some (l, k) => { x with luns := (x.luns.map fun q => { q with spine := false }).set k { l with spine := true } }

/-- The stream of a key ends at a volume's exit with a final gap record of cause 00FFh (R31, R445). -/
def State.keyEnd (s : State) (i : Nat) (k : Nat × Nat) : State :=
  let id := BitVec.ofNat 16 k.2
  let r := recordOfGap s .volume i 12 ⟨id, s.now, 0, 0xFF, true⟩
  s.sendRecord .volume i (if k.1 = 0 then r else { r with hive := BitVec.ofNat 16 k.1 })

/-- BD is lost (R445): every recording volume stops. -/
def State.bdGone (s : State) : State :=
  let s := s.each s.bd.slots fun s p =>
    let keys := ((kvGet s.bd.vols p.2.vol).map fun v => v.keys).getD []
    let s := s.each keys fun s k => s.keyEnd p.1 k
    let s := s.each (keys.filter fun k => k.1 = 0) fun s k =>
      (s.ctxAutoClose (BitVec.ofNat 16 k.2) 3).freePort 28 (BitVec.ofNat 16 k.2)
    (((s.put (BD_VS_CTL_STATE p.1) 0).setVal (BD_VS_ID p.1) 0).setVal (BD_VS_SECTIONS p.1) 0).setPair (BD_VS_LSEQ_LO p.1)
      (BD_VS_LSEQ_HI p.1) 0
  (s.modBd fun b => { b with slots := [] }).put BD_STATUS_LOST 1

/-- Section x has a member on LUN l of channel c. -/
def BdSec.onLun (x : BdSec) (c l : Nat) : Bool := x.vol.isSome && x.members.any fun m => m.chan = c && m.lun = l && !m.retired

/-- The LUN of channel c that holds, or is to hold, a spine copy. -/
def State.spineLun (s : State) (c : Nat) : Option Nat :=
  (((s.bdChan c).luns.zip (upto 64)).find? fun p => p.1.spine).map fun p => p.2

/-- The LUN that is to hold the lost spine copy of channel c is cleared first: its sections are to be relocated (R445). -/
def State.clearSpine (s : State) (c : Nat) : State :=
  match s.spineLun c with
  | none => s
  | some l => s.modBd fun b => { b with secs := b.secs.map fun p => (p.1, { p.2 with move := p.2.move || p.2.onLun c l }) }

/-- No section is left on the LUN of channel c that is to hold a spine copy. -/
def State.spineClear (s : State) (c : Nat) : Bool :=
  match s.spineLun c with
  | none => true
  | some l => s.bd.secs.all fun p => !(p.2.onLun c l)

/-- A spine copy is lost with its LUN (R445): with the other copy valid it is rebuilt on the next healthy LUN, SPINE_SINGLE set
meanwhile; with both lost BD is lost. -/
def State.spineFail (s : State) (c : Nat) : State :=
  let s := s.modBd fun b => if c = 0 then { b with spine0 := { b.spine0 with valid := false } }
    else { b with spine1 := { b.spine1 with valid := false } }
  if s.bd.spine0.valid || s.bd.spine1.valid then ((s.modFlash c BdChan.withSpine).clearSpine c).put BD_STATUS_SPINE_SINGLE 1
  else s.bdGone

/-- A LUN has failed (R439). -/
def State.lunFail (s : State) (c l : Nat) : State :=
  match (s.bdChan c).luns[l]? with
  | none => s
  | some x =>
    if x.failed then s
    else
      let s := s.modFlash c fun y => { y with luns := y.luns.set l { x with failed := true } }
      let s := if x.spine then s.spineFail c else s
      (s.retireLun c l).showMedia

/-- A channel has failed (R439). -/
def State.flashChanFail (s : State) (c : Nat) : State :=
  if (s.bdChan c).failed then s
  else
    let s := s.modFlash c fun y => { y with failed := true }
    let s := if (s.bdChan c).luns.any fun l => l.spine then s.spineFail c else s
    (s.each (upto (s.bdChan c).luns.length) fun s l => s.retireLun c l).showMedia

/-- BD_OPERATION_FAIL (R436, R439): a program or an erase of a unit failed. Its block is a grown bad block, its member is
retired; the 16th of a LUN is a failed LUN. -/
def State.unitFail (s : State) (c l k : Nat) : State :=
  let u := s.bdUnit (unitKey c l k)
  if u.bad || (s.bdChan c).luns.length ≤ l || s.bd.blocks ≤ k then s
  else
    let s := s.modUnit (unitKey c l k) fun u => { u with bad := true, dirty := false }
    let s := s.modFlash c fun y => { y with luns := match y.luns[l]? with
      | some x => y.luns.set l { x with grown := x.grown + 1 }
      | none => y.luns }
    let s := match u.owner with
      | some n => s.retireMember n c
      | none => s
    let s := match (s.bdChan c).luns[l]? with
      | some x => if 16 ≤ x.grown then s.lunFail c l else s
      | none => s
    s.showMedia

def execBdOperationFail (c : Fin 32) (l : Fin 32) (k : Nat) (s : State) : Host.Outcome State Fault Refusal :=
  .next (s.unitFail c l k)

/-- BD_LUN_TIMEOUT (R439). -/
def execBdLunTimeout (c : Fin 32) (l : Fin 32) (s : State) : Host.Outcome State Fault Refusal := .next (s.lunFail c l)

/-! ### Opening and closing a volume (R428 to R432) -/

/-- BD answers a volume command: 0, or 08D0h when it is lost (R445). -/
def State.bdLost (s : State) : Bool := s.on BD_STATUS_LOST

/-- Own streams that a slot brings to BD's switch port, with their rates (R642). -/
def State.slotPorts (s : State) (i : Nat) : List (Nat × BitVec 16 × Ratio) :=
  ((s.slotKeys i).filter fun k => k.1 = 0).map fun k => (28, BitVec.ofNat 16 k.2, ratioOf (s.keyRate k * 1000000 : Nat))

/-- The check of OPEN (R429, R433), in the order given, then the switch port (R642). -/
def State.volCheck (s : State) (i : Nat) : Nat :=
  let keys := s.slotKeys i
  let fronts := s.get (BD_VS_CFG_FRONTS i)
  let others := (s.bd.slots.map fun p => p.1).filter fun k => k != i
  firstFail [
    (s.bdLost, 0x08D0),
    (fronts = 0 || keys.isEmpty || (s.on (BD_VS_CTL_FULL_MODE i) && s.get (BD_VS_CFG_MAX_SECTIONS i) = 0), 0x01D0),
    (keys.any fun k => others.any fun j => (s.slotKeys j).contains k, 0x05D0),
    (decide (fronts * 3000 < s.slotRate i), 0x02D0),
    (decide (s.get BD_STATUS_FRONTS_MAX < fronts + sumOf others fun j => s.get (BD_VS_CFG_FRONTS j)), 0x02D1),
    (decide (s.bdBudget < s.slotRate i + sumOf others s.slotRate), 0x020C),
    (decide (65536 ≤ s.bd.vols.length) || decide (s.freeSections < fronts), 0x02D2),
    (!(s.on BD_STATUS_MOUNTED) || s.get (BD_VS_CTL_STATE i) != 0, 0x07D1),
    ((s.tieAll (s.slotPorts i)).isNone, 0x020D)]

/-- Give slot i `n` fronts, each with a section. -/
def State.volFronts (s : State) (i v : Nat) : Nat → State
  | 0 => s
  | n + 1 =>
    let open_ := ((kvGet s.bd.slots i).map fun x => x.fronts.map fun f => f.sec).getD []
    match s.formSection v open_ with
    | none => s
    | some (k, s) =>
      let s := s.modVolSlot i fun x => { x with fronts := x.fronts ++ [{ sec := k }] }
      (s.modVol v fun x => { x with secs := x.secs ++ [k] }).volFronts i v n

/-- Slot registers that follow its volume. -/
def State.showSlot (s : State) (i : Nat) : State :=
  match kvGet s.bd.slots i with
  | none => (((s.setVal (BD_VS_ID i) 0).setVal (BD_VS_SECTIONS i) 0).setPair (BD_VS_LSEQ_LO i) (BD_VS_LSEQ_HI i) 0)
  | some x => match kvGet s.bd.vols x.vol with
    | none => s
    | some v =>
      ((s.setVal (BD_VS_ID i) x.vol).setVal (BD_VS_SECTIONS i) v.secs.length).setPair (BD_VS_LSEQ_LO i) (BD_VS_LSEQ_HI i)
        (v.durable - 1)

/-- OPEN is accepted (R431): its exit opens the keys' streams, from SEQUENCE 0 (R35). -/
def State.volOpen (s : State) (i : Nat) : State :=
  let v := s.bd.nextVol
  let keys := s.slotKeys i
  let s := s.modBd fun b => { b with
    nextVol := v + 1, vols := kvPut b.vols v { state := .recording, keys := keys }, slots := kvPut b.slots i { vol := v } }
  let s := s.volFronts i v (s.get (BD_VS_CFG_FRONTS i))
  let s := (s.put (BD_VS_CTL_STATE i) 1).put (BD_VS_CTL_REASON i) 0
  let s := (s.tieAll (s.slotPorts i)).getD s
  let s := s.each keys fun s k => s.exitRestart .volume i (BitVec.ofNat 16 k.2)
  let s := s.each (keys.filter fun k => k.1 = 0) fun s k => s.ctxAutoLocal (BitVec.ofNat 16 k.2) 3 i
  (((s.showSlot i).showRates).showMedia).showCat

/-- Write a checkpoint (R444). -/
def State.checkpoint (s : State) : State :=
  s.modBd fun b => { b with
    ckpts := (b.vols.filter fun p => p.2.state = .recording).map fun p =>
      let whole := p.2.recs.filter fun r => r.at_ + recSize r.r ≤ 16384 * p.2.durable
      (p.1, ⟨p.2.durable, (whole.getLast?.map fun r => r.r.time).getD 0,
        whole.foldl (fun a r => kvMod 0 a r.key (· + r.n)) []⟩)
    ckptAt := s.now
    ckptLeaves := 0 }

/-- The wordline round that a front's section takes next: leaves from `lo` on. -/
def State.nextRound (s : State) (f : BdFront) (lo : Nat) : BdRound :=
  let x := s.bdSec f.sec
  ⟨lo, x.perRound, f.sec, f.pos, x.live, s.now⟩

/-- The programs of a round leave for the flash (R426). -/
def State.program (s : State) (v : Nat) (r : BdRound) : State :=
  let x := s.bdSec r.sec
  s.each (r.mem.filterMap fun k => x.members[k]?) fun s m => s.emit (.flashProgram m.chan m.lun m.blk (r.pos / 12) v r.lo)

/-- The rest of the open rounds is filled with PAD leaves (R432): leaves not yet in a round go into one of a front that has room;
at most `n` rounds. -/
def State.padRounds (s : State) (i v : Nat) : Nat → State
  | 0 => s
  | n + 1 =>
    match kvGet s.bd.slots i, kvGet s.bd.vols v with
    | some x, some y =>
      if y.bytes ≤ 16384 * x.next then s
      else match (x.fronts.zip (upto 32)).find? fun p =>
          decide (p.1.pos + 12 ≤ s.secStripes) && decide (0 < (s.bdSec p.1.sec).perRound) with
        | none => s
        | some (f, k) =>
          let rd := s.nextRound f x.next
          let s := s.modVolSlot i fun x => { x with
            fronts := x.fronts.set k { f with pos := f.pos + 12, rounds := f.rounds ++ [rd] }, next := x.next + rd.n }
          (s.program v rd).padRounds i v n
    | _, _ => s

/-- A volume closes (R432): every open round is filled and confirmed, the claims are released (assumption 61). -/
def State.volClose (s : State) (i reason : Nat) : State :=
  match kvGet s.bd.slots i with
  | none => s
  | some y =>
    let keys := ((kvGet s.bd.vols y.vol).map fun v => v.keys).getD []
    let s := s.padRounds i y.vol 32
    let x := (kvGet s.bd.slots i).getD y
    let s := s.modVol x.vol fun v => { v with
      state := .closed
      durable := x.next
      rounds := v.rounds ++ x.fronts.flatMap fun f => f.rounds }
    let s := s.each (x.fronts.map fun f => f.sec) fun s n => s.modSec n fun y => { y with full := true }
    let s := s.checkpoint
    let s := s.modBd fun b => { b with slots := kvDel b.slots i }
    let s := (s.put (BD_VS_CTL_STATE i) 0).put (BD_VS_CTL_REASON i) reason
    let s := s.each (keys.filter fun k => k.1 = 0) fun s k =>
      (s.ctxAutoClose (BitVec.ofNat 16 k.2) 3).freePort 28 (BitVec.ofNat 16 k.2)
    ((((s.showSlot i).showRates).showMedia).showRebuild).showCat

/-- A write of BD_VS_CTL_s. -/
def State.volCtlWrite (s : State) (i v : Nat) : State × Nat :=
  let rf := BD_VS_CTL_REASON i
  if s.get (BD_VS_CTL_STATE i) != 0 && bits v 5 5 != s.get (BD_VS_CTL_FULL_MODE i) then s.answer rf 0x07D0
  else
    let s := s.put (BD_VS_CTL_FULL_MODE i) (bits v 5 5)
    if bits v 0 0 = 1 then
      let c := s.volCheck i
      if c != 0 then s.answer rf c else (s.volOpen i, 0)
    else if bits v 1 1 = 1 then
      if s.bdLost then s.answer rf 0x08D0 else (s.volClose i 0, 0)
    else (s, 0)

def execBdVsOpen (p : Fin 5) (i : Fin 32) (v : Word) (s : State) : Host.Outcome State Fault Refusal :=
  .next (s.gatedWrite p (BD_VS_CTL i) fun s => s.volCtlWrite i v.toNat)

/-- BD_VS_CLOSE: the write of BD_VS_CTL_s that sets CLOSE and leaves its other fields. -/
def execBdVsClose (p : Fin 5) (i : Fin 32) (s : State) : Host.Outcome State Fault Refusal :=
  .next (s.gatedWrite p (BD_VS_CTL i) fun s => s.volCtlWrite i (2 + 32 * s.get (BD_VS_CTL_FULL_MODE i)))

/-- Every recording volume closes (R42, R451). -/
def State.closeVolumes (s : State) : State := s.each (s.bd.slots.map fun p => p.1) fun s i => s.volClose i 0

/-! ### Recording (R425, R426, R431) -/

/-- Assign full leaves to rounds: the fronts take turns, a round each (assumption 24); at most `n` rounds. -/
def State.volRounds (s : State) (i : Nat) : Nat → State
  | 0 => s
  | n + 1 =>
    match kvGet s.bd.slots i with
    | none => s
    | some x => match x.fronts[x.turn]?, kvGet s.bd.vols x.vol with
      | some f, some v =>
        let per := (s.bdSec f.sec).perRound
        if per = 0 || s.secStripes < f.pos + 12 || v.bytes / 16384 < x.next + per then s
        else
          let rd := s.nextRound f x.next
          let s := s.modVolSlot i fun x => { x with
            fronts := x.fronts.set x.turn { f with pos := f.pos + 12, rounds := f.rounds ++ [rd] }
            turn := (x.turn + 1) % x.fronts.length
            next := x.next + per }
          (s.program x.vol rd).volRounds i n
      | _, _ => s

/-- A WRAP volume gives up its oldest section, which is erased for reuse, and its first leaf becomes that of the next-oldest
(R433); none while a front other than `f` fills it, or a round in it awaits confirmation. -/
def State.wrapDrop (s : State) (i : Nat) (f : Option Nat) : Option State :=
  match kvGet s.bd.slots i with
  | none => none
  | some x => match kvGet s.bd.vols x.vol with
    | none => none
    | some v => match v.secs with
      | [] => none
      | old :: rest =>
        let busy := (x.fronts.zip (upto 32)).any fun p => (p.1.sec = old && some p.2 != f) || p.1.rounds.any fun r => r.sec = old
        if (s.bdSec old).members.isEmpty || busy then none
        else
          let s := s.each (s.bdSec old).members fun s m => s.modUnit (unitKey m.chan m.lun m.blk) fun u =>
            { u with owner := none, erases := u.erases + (if u.bad then 0 else 1) }
          let stop := (v.rounds.filter fun r => r.sec = old).foldl (fun a r => max a (r.lo + r.n)) v.first
          let next := (s.volAllRounds x.vol).filter fun r => some r.sec = rest.head?
          let first := max v.first (((next.map fun r => r.lo).min?).getD stop)
          let s := s.modBd fun b => { b with secs := kvDel b.secs old }
          some (s.modVol x.vol fun v => { v with
            secs := rest, rounds := v.rounds.filter fun r => r.sec != old, first := first
            recs := v.recs.filter fun r => decide (16384 * first < r.at_ + recSize r.r) })

/-- A WRAP volume that has no section to form erases its oldest one when a front has filled half of its present section (R433). -/
def State.wrapAhead (s : State) (i : Nat) : State :=
  match kvGet s.bd.slots i with
  | none => s
  | some x =>
    let held := ((kvGet s.bd.vols x.vol).map fun v => v.secs.length).getD 0
    if s.on (BD_VS_CTL_FULL_MODE i) && (x.fronts.any fun f => decide (s.secStripes ≤ 2 * f.pos))
        && (decide (s.get (BD_VS_CFG_MAX_SECTIONS i) ≤ held) || s.freeSections = 0) then
      match s.wrapDrop i none with
      | some s => s.showSlot i
      | none => s
    else s

/-- Full leaves of a volume go to the flash. -/
def State.volAdvance (s : State) (i : Nat) : State := (s.volRounds i 4096).wrapAhead i

/-- Append a record to the volume of slot i under its key k; `n` of the stream's own samples. -/
def State.volAppend (s : State) (i k n : Nat) (r : YRec) : State :=
  match kvGet s.bd.slots i with
  | none => s
  | some x =>
    let s := s.modVol x.vol fun v => { v with
      recs := v.recs ++ [⟨v.bytes, k, n, r⟩]
      bytes := v.bytes + recSize r
      taken := kvMod 0 v.taken k (· + n) }
    s.volAdvance i

/-- Own samples that a record adds to its stream's count: a spectrum or dump counts with its first slice. -/
def State.volSamples (s : State) (v k : Nat) (r : YRec) : Nat :=
  let last := ((kvGet s.bd.vols v).map fun x => (x.recs.filter fun q => q.key = k).getLast?).getD none
  recSamples (last.map fun q => q.r) r (recSliced r && decide (0 < recSlice r))

/-- BD_RECORD_RECEIVE (R431): a record for slot i; `ok`: its MAGIC and HEADER_CRC match; `room`: the volume can take it. -/
def State.volRecord (s : State) (i : Nat) (r : YRec) (ok room : Bool) : State :=
  match kvGet s.bd.slots i with
  | none => s
  | some x =>
    let keys := ((kvGet s.bd.vols x.vol).map fun v => v.keys).getD []
    let hive := r.hive.toNat
    let mine (q : Nat × Nat) : Bool := q.2 = r.stream.toNat && (q.1 = hive || (q.1 = 0 && hive = s.khAddr))
    match (keys.zip (upto 16)).find? fun p => mine p.1 with
    | none => s
    | some (_, k) =>
      if s.bd.failing then s
      else if !ok then s.count (BD_VS_DISCARDED i) 1
      else if !room then
        (s.count (BD_VS_DISCARDED i) 1).modVolSlot i fun x => { x with lost := s.owe x.lost r }
      else
        let n := s.volSamples x.vol k r
        let s := match owedFor x.lost r with
          | some g => (s.modVolSlot i fun x => { x with lost := owedRest x.lost r }).volAppend i k 0 g
          | none => s
        s.volAppend i k n r

def execBdRecordReceive (i : Fin 32) (y : YRec) (ok room : Bool) (s : State) : Host.Outcome State Fault Refusal :=
  .next (s.inIsland 12 fun s => s.volRecord i y ok room)

/-! ### Leaves (R423, R425, R427) -/

/-- The 16,384 bytes of data leaf `q` of a volume: its records in order, then zeros. -/
def BdVol.leafData (v : BdVol) (q : Nat) : List Byte :=
  let a := 16384 * q
  let bs := (v.recs.filter fun x => decide (x.at_ < a + 16384) && decide (a < x.at_ + recSize x.r)).foldl (fun (bs : List Byte) x =>
    bs ++ List.replicate (x.at_ - a - bs.length) 0 ++ ((recBytes x.r).drop (a - x.at_)).take (a + 16384 - max a x.at_)) []
  bs ++ List.replicate (16384 - bs.length) 0

/-- The header of data leaf `q` (Table BD-3), of a round `r` that places it on member `k` at stripe `pos`. -/
def State.leafHeader (s : State) (vol q : Nat) (r : BdRound) (k pos : Nat) : List Byte :=
  let v := kvGetD s.bd.vols vol { state := .closed, keys := [] }
  let a := 16384 * q
  let first := v.recs.find? fun x => decide (a ≤ x.at_) && decide (x.at_ < a + 16384)
  let m : BdMember := ((s.bdSec r.sec).members[k]?).getD ⟨0, 0, 0, true⟩
  let flags := (if v.bytes < a + 16384 then 1 else 0) + (if v.state = .closed && q + 1 = v.durable then 2 else 0)
  let head := [0x59, 0x4C, 0x01, 0x01] ++ leBytes 4 vol ++ leBytes 6 q ++ leBytes 2 ((first.map fun x => x.at_ - a).getD 0xFFFF)
    ++ leBytes 4 r.sec ++ leBytes 2 pos ++ leBytes 1 m.chan ++ leBytes 1 flags
    ++ leBytes 10 ((first.map fun x => x.r.time.toNat).getD 0) ++ leBytes 10 r.staged.toNat
    ++ leBytes 4 (s.bdUnit (unitKey m.chan m.lun m.blk)).erases ++ List.replicate 12 0
  head ++ leBytes 4 (crc32c head)

/-- Header and data area of data leaf `q`: the 16,448 bytes that its codewords protect. -/
def State.leafBody (s : State) (vol q : Nat) (r : BdRound) : List Byte :=
  match r.place (s.bdSec r.sec).members.length q, kvGet s.bd.vols vol with
  | some (k, pos), some v => s.leafHeader vol q r k pos ++ v.leafData q
  | _, _ => []

/-- Bytewise exclusive or, of the longer length. -/
def xorBytes : List Byte → List Byte → List Byte
  | a :: l, b :: k => (a ^^^ b) :: xorBytes l k
  | [], k => k
  | l, [] => l

/-- The parity leaf of stripe `i` of a round (R427). -/
def State.parityBody (s : State) (vol : Nat) (r : BdRound) (i : Nat) : List Byte :=
  (r.mem.filterMap fun k => r.leafAt (s.bdSec r.sec).members.length k i).foldl (fun a q => xorBytes a (s.leafBody vol q r))
    (List.replicate 16448 0)

/-- Bytes 0 to 18,431 of a flash page: header and data area, then the parity of its four codewords (R423). -/
def leafPage (body : List Byte) : List Byte :=
  body ++ (upto 4).flatMap fun k => Config.ldpcParity ((body.drop (4112 * k)).take 4112)

/-- A page read as data leaf `q` is accepted (R424): its codewords decode, HEADER_CRC matches, and VOLUME, LSEQ, SECTION, POSITION
and CHANNEL are those of the position read. -/
def State.leafOk (s : State) (vol q : Nat) (r : BdRound) (body : List Byte) : Bool :=
  match r.place (s.bdSec r.sec).members.length q with
  | none => false
  | some (k, pos) =>
    let m : BdMember := ((s.bdSec r.sec).members[k]?).getD ⟨0, 0, 0, true⟩
    let f (o n : Nat) : Nat := fromLe ((body.drop o).take n)
    f 60 4 = crc32c (body.take 60) && f 4 4 = vol && f 8 6 = q && f 16 4 = r.sec && f 20 2 = pos && f 22 1 = m.chan

/-- Move the durable end over confirmed rounds that join it; at most `n`. -/
def joinDone (e : Nat) (l : List (Nat × Nat)) : Nat → Nat
  | 0 => e
  | n + 1 => match l.find? fun p => p.1 = e with
    | some p => joinDone (e + p.2) l n
    | none => e

/-- BD_PROGRAM_DONE (R426, R440): the oldest round of front f is confirmed; `bad` are the channels whose program failed. -/
def State.programDone (s : State) (i f : Nat) (bad : List Nat) : State :=
  match kvGet s.bd.slots i with
  | none => s
  | some x => match x.fronts[f]? with
    | none => s
    | some fr => match fr.rounds with
      | [] => s
      | rd :: t =>
        if s.bd.failing then s
        else
          let s := s.modVolSlot i fun x => { x with
            fronts := x.fronts.set f { fr with rounds := t }, done := x.done ++ [(rd.lo, rd.n)] }
          let x := (kvGet s.bd.slots i).getD x
          let s := s.modVol x.vol fun v => { v with rounds := v.rounds ++ [rd], durable := joinDone v.durable x.done x.done.length }
          let e := ((kvGet s.bd.vols x.vol).map fun v => v.durable).getD 0
          let s := s.modVolSlot i fun x => { x with done := x.done.filter fun p => decide (e ≤ p.1) }
          let s := s.modBd fun b => { b with ckptLeaves := b.ckptLeaves + rd.n }
          let ms := (s.bdSec rd.sec).members.filter fun m => bad.contains m.chan
          (s.each ms fun s m => s.unitFail m.chan m.lun m.blk).showSlot i

def execBdProgramDone (i : Fin 32) (f : Fin 31) (bad : List (Fin 32)) (s : State) : Host.Outcome State Fault Refusal :=
  .next (s.inIsland 12 fun s => s.programDone i f (bad.map fun c => c.val))

/-- A new section for front f of slot i, where one may (`free`) and can be formed. -/
def State.sectionTake (s : State) (free : Bool) (i f : Nat) (fr : BdFront) (v : Nat) (open_ : List Nat) : Option State :=
  match (if free then s.formSection v open_ else none) with
  | none => none
  | some (k, s) =>
    let s := s.modVolSlot i fun x => { x with fronts := x.fronts.set f { fr with sec := k, pos := 0 } }
    some (((s.modVol v fun v => { v with secs := v.secs ++ [k] }).volAdvance i).showSlot i)

/-- BD_SECTION_FULL (R433): front f of slot i needs a new section. -/
def State.sectionFull (s : State) (i f : Nat) : State :=
  match kvGet s.bd.slots i with
  | none => s
  | some x => match x.fronts[f]?, kvGet s.bd.vols x.vol with
    | some fr, some v =>
      if fr.pos + 12 ≤ s.secStripes then s
      else
        let s := s.modSec fr.sec fun y => { y with full := true }
        let most := s.get (BD_VS_CFG_MAX_SECTIONS i)
        let open_ := (x.fronts.map fun g => g.sec).filter fun n => n != fr.sec
        let free := decide (most = 0) || decide (v.secs.length < most)
        let s := match s.sectionTake free i f fr x.vol open_ with
          | some s => s
          | none =>
            if !(s.on (BD_VS_CTL_FULL_MODE i)) then s.volClose i 0x0AD0
            else if fr.rounds.any fun r => some r.sec = v.secs.head? then s
            else match s.wrapDrop i (some f) with
              | none => s.volClose i 0x0AD0
              | some s => (s.sectionTake true i f fr x.vol open_).getD (s.volClose i 0x0AD0)
        (s.showRebuild).showMedia
    | _, _ => s

def execBdSectionFull (i : Fin 32) (f : Fin 31) (s : State) : Host.Outcome State Fault Refusal := .next (s.inIsland 12 fun s => s.sectionFull i f)

/-- BD_CHECKPOINT (R444): after 1 s of recording or 4 GiB of data leaves. -/
def execBdCheckpoint (s : State) : Host.Outcome State Fault Refusal :=
  .next (s.inIsland 12 fun s => if !s.bd.slots.isEmpty && (tLe (tAdd s.bd.ckptAt (2 ^ 48)) s.now || decide (2 ^ 18 ≤ s.bd.ckptLeaves)) then s.checkpoint
    else s)

/-! ### Deleting, ageing, relocation, rebuild (R434 to R442) -/

/-- The entry of the volume map that governs a volume (R532). -/
def State.volEntry (s : State) (v : Nat) : Nat :=
  match (upto 32).find? fun k => v != 0 && (kvGetD s.prot.active.volId k 0).toNat = v with
  | some k => (kvGetD s.prot.active.volAcc k 9).toNat
  | none => s.prot.active.volDefault.toNat

/-- Domain d may delete the volume, or read it. -/
def State.volMayDelete (s : State) (d v : Nat) : Bool := decide (writeMin (s.volEntry v) ≤ d)
def State.volMayRead (s : State) (d v : Nat) : Bool := decide (readMin (s.volEntry v) ≤ d)

/-- A read session reads the volume. -/
def State.volRead (s : State) (v : Nat) : Bool := s.bd.reads.any fun p => p.2.vol = v

/-- A write of BD_CAT_DEL by domain d (R434). -/
def State.catDelWrite (s : State) (d v : Nat) : State × Nat :=
  let c := firstFail [
    (s.bdLost, 0x08D0),
    (!(s.on BD_STATUS_MOUNTED), 0x07D1),
    (!(s.volMayDelete d v), 0x04D0),
    (s.volRead v, 0x05D1),
    ((match kvGet s.bd.vols v with
      | some x => x.state != .closed
      | none => true), 0x07D1)]
  if c != 0 then s.answer BD_CTL_REASON c
  else
    let secs := ((kvGet s.bd.vols v).map fun x => x.secs).getD []
    let s := s.each secs fun s n => s.dropSection n
    (((s.modVol v fun x => { x with state := .deleting }).put BD_CTL_REASON 0).showCat, 0)

def execBdCatDel (p : Fin 5) (v : Word) (s : State) : Host.Outcome State Fault Refusal :=
  .next (s.gatedWrite p BD_CAT_DEL fun s => s.catDelWrite (s.domain p) v.toNat)

/-- Wear levelling (R435): the CLOSED section that holds channel c's least-erased unit is relocated when the spread of the
channel's erase counts exceeds WEAR_SPREAD. -/
def State.wearCheck (s : State) (c : Nat) : State :=
  let us := s.chanUnits c
  let hi := us.foldl (fun a p => max a p.2.erases) 0
  let held := us.filter fun p => match p.2.owner with
    | some n => (match (s.bdSec n).vol with
      | some v => ((kvGet s.bd.vols v).map fun x => x.state) = some .closed
      | none => false)
    | none => false
  let lo : Option (Nat × BdUnit) := match held with
    | [] => none
    | q :: t => some (t.foldl (fun a p => if p.2.erases < a.2.erases then p else a) q)
  match lo with
  | some q => if s.get BD_LIMITS_WEAR_SPREAD < hi - q.2.erases then
      (match q.2.owner with
        | some n => s.modSec n fun x => { x with move := true }
        | none => s)
    else s
  | none => s

/-- A read session is inside a relocated section (R438). -/
def State.secRead (s : State) (x : BdSec) : Bool :=
  match x.gone with
  | none => false
  | some (v, l) => s.bd.reads.any fun p => p.2.vol = v && l.any fun r => decide (r.1 ≤ p.2.leaf) && decide (p.2.leaf < r.1 + r.2)

/-- BD_ERASE_DONE: the units of a given-up section are erased and free (R434, R438); a volume whose last section is erased
leaves the catalogue. -/
def State.eraseDone (s : State) (n : Nat) : State :=
  match kvGet s.bd.secs n with
  | none => s
  | some x =>
    if x.vol.isSome || s.secRead x then s
    else
      let s := s.each x.members fun s m => s.modUnit (unitKey m.chan m.lun m.blk) fun u =>
        if u.bad then { u with owner := none, dirty := false }
        else { u with owner := none, dirty := false, erases := u.erases + 1 }
      let s := s.modBd fun b => { b with secs := kvDel b.secs n }
      let s := s.modBd fun b => { b with
        vols := (b.vols.map fun p => (p.1, { p.2 with secs := p.2.secs.filter fun k => k != n })).filter fun p =>
          !(p.2.state = .deleting && p.2.secs.isEmpty) }
      let s := s.each (x.members.map fun m => m.chan) fun s c => s.wearCheck c
      (s.showMedia).showCat

def execBdEraseDone (n : Nat) (s : State) : Host.Outcome State Fault Refusal := .next (s.inIsland 12 fun s => s.eraseDone n)

/-- BD_PATROL_READ (R437): the worst codeword of section n needed `worst` corrected bits, `soft`: step 3 of the ladder or
later. -/
def State.flashPatrol (s : State) (n worst : Nat) (soft : Bool) : State :=
  let x := s.bdSec n
  let closed := match x.vol with
    | some v => ((kvGet s.bd.vols v).map fun y => y.state) = some .closed
    | none => false
  let old := decide (s.val BD_RETAIN_AGE * 2 ^ 32 < x.age)
  if closed && !(s.on BD_STATUS_QUIET) && (soft || old || decide (s.get BD_PATROL_RETAIN_BITS < worst)) then
    s.modSec n fun x => { x with move := true }
  else s

def execBdPatrolRead (n worst : Nat) (soft : Bool) (s : State) : Host.Outcome State Fault Refusal :=
  .next (s.inIsland 12 fun s => s.flashPatrol n worst soft)

/-- Sum of `k` terms of the exponential series of a / b, in 2^-96: `i` is the index of `term`. -/
def expSum (a b : Nat) : Nat → Nat → Nat → Nat
  | 0, _, _ => 0
  | k + 1, i, term => term + expSum a b k (i + 1) (term * a / (b * (i + 1)))

/-- exp(a / b) for a / b >= 0 in 2^-96. -/
def expPos (a b : Nat) : Nat := expSum a b 400 0 (2 ^ 96)

/-- Growth of weighted age in one hour at t sixteenths of a degree (R437), in 2^-32 h, rounded down. -/
def ageGrowth (t : Int) : Nat :=
  -- 12,765 (1/328.15 - 1/(t/16 + 273.15)) = 12,765 (100/32,815 - 1,600/(100 t + 437,040))
  let d := 100 * t + 437040
  if d ≤ 0 then 0
  else
    let n : Int := 12765 * (100 * d - 1600 * 32815)
    let b := 32815 * d.toNat
    if 0 ≤ n then expPos n.toNat b / 2 ^ 64 else 2 ^ 128 / expPos (-n).toNat b

/-- BD_AGE_TICK (R437): each hour; the last bit of the growth is free (assumption 9). -/
def State.ageTick (s : State) : State :=
  let g := ageGrowth (s.getS BD_FLASH_TEMP_T) + s.freeNow % 2
  (s.modBd fun b => { b with secs := b.secs.map fun p => (p.1, { p.2 with age := p.2.age + g }) }).useFree

def execBdAgeTick (s : State) : Host.Outcome State Fault Refusal := .next s.ageTick

/-- A write of BD_FLASH_TEMP (R437). -/
def State.flashTempWrite (s : State) (v : Nat) : State × Nat :=
  ((s.plainWrite BD_FLASH_TEMP v).modBd fun b => { b with tempAt := s.now }, 0)

def execBdFlashTempWrite (p : Fin 5) (v : Word) (s : State) : Host.Outcome State Fault Refusal :=
  .next (s.gatedWrite p BD_FLASH_TEMP fun s => s.flashTempWrite v.toNat)

/-- BD_FLASH_TEMP_TIMEOUT (R437): 600 s without a write; T = 55 degrees. -/
def execBdFlashTempTimeout (s : State) : Host.Outcome State Fault Refusal :=
  .next (if tLe (tAdd s.bd.tempAt (600 * 2 ^ 48)) s.now then s.put BD_FLASH_TEMP_T 0x370 else s)

/-- BD_RELOCATE_DONE (R438): the copy of section n has read back good; the mapping switches, and the old section waits for
its erase. -/
def State.relocateDone (s : State) (n : Nat) : State :=
  let x := s.bdSec n
  match x.vol with
  | none => s
  | some v =>
    if !x.move || s.secOpen n || s.on BD_STATUS_QUIET then s
    else match s.formSection v [] with
      | none => s
      | some (k, s) =>
        let s := s.modVol v fun y => { y with
          secs := y.secs.map fun q => if q = n then k else q
          rounds := y.rounds.map fun r => if r.sec = n then { r with sec := k } else r }
        let held := ((s.volAllRounds v).filter fun r => r.sec = k).map fun r => (r.lo, r.n)
        let s := (s.modSec k fun y => { y with full := true }).dropSection n
        let s := s.modSec n fun y => { y with gone := some (v, held) }
        (s.showRebuild).showMedia

def execBdRelocateDone (n : Nat) (s : State) : Host.Outcome State Fault Refusal := .next (s.inIsland 12 fun s => s.relocateDone n)

/-- BD_REBUILD_DONE (R441): the retired members of section n are rebuilt, each onto a free unit of its channel, or of another
where its channel has failed. -/
def State.rebuildDone (s : State) (n : Nat) : State :=
  let x := s.bdSec n
  if x.vol.isNone || s.secOpen n || s.on BD_STATUS_QUIET then s
  else
    let place (s : State) (m : BdMember) : Option (Nat × Nat × Nat) :=
      if (s.bdChan m.chan).failed then (s.bdChans.filterMap fun c => (s.pickUnit c []).map fun p => (c, p)).head?
      else (s.pickUnit m.chan []).map fun p => (m.chan, p)
    let one (s : State) (m : BdMember) : State := match place s m with
      | none => s
      | some (c, l, k) =>
        let s := s.modUnit (unitKey m.chan m.lun m.blk) fun u => { u with dirty := !u.bad, owner := none }
        let s := s.modUnit (unitKey c l k) fun u => { u with owner := some n }
        s.modSec n fun x => { x with members := x.members.map fun q => if q = m then ⟨c, l, k, false⟩ else q }
    ((s.each (x.members.filter fun m => m.retired) one).showRebuild).showMedia

def execBdRebuildDone (n : Nat) (s : State) : Host.Outcome State Fault Refusal := .next (s.inIsland 12 fun s => s.rebuildDone n)

/-! ### The spine, mount and recovery (R443 to R451) -/

/-- BD_SPINE_SNAPSHOT (R443): the copy's other half holds the snapshot; the old half is erased. A lost copy is whole again when
one has been written to it from the other, its LUN cleared (R445). -/
def State.spineSnapshot (s : State) (c : Nat) : State :=
  if !(s.on BD_STATUS_MOUNTED) || s.bdLost || !(s.spineClear (16 * c)) then s
  else
    let f (x : BdSpine) : BdSpine := { x with valid := true, half := !x.half }
    let s := s.modBd fun b => if c = 0 then { b with spine0 := f b.spine0 } else { b with spine1 := f b.spine1 }
    (s.put BD_STATUS_SPINE_SINGLE (if s.bd.spine0.valid && s.bd.spine1.valid then 0 else 1)).showMedia

def execBdSpineSnapshot (c : Fin 2) (s : State) : Host.Outcome State Fault Refusal := .next (s.spineSnapshot c)

/-- The bad-block marks of a LUN's blocks go into the spine (R436): BD forms no unit from them. -/
def State.markBad (s : State) (c l : Nat) : State :=
  s.each ((s.bdChan c).marks.filter fun m => m.1 = l) fun s m => s.modUnit (unitKey c l m.2) fun u => { u with bad := true }

/-- The first FORMAT of a target reads its bad-block marks (R436). -/
def State.markFirst (s : State) (c : Nat) : State :=
  let x := s.bdChan c
  let new := (x.luns.zip (upto 64)).filter fun p => match x.targets[p.1.target]? with
    | some t => !t.marked
    | none => false
  (s.each (new.map fun p => p.2) fun s l => s.markBad c l).modFlash c fun y =>
    { y with targets := y.targets.map fun t => { t with marked := true } }

/-- Training of the flash channels and the mount (R421, R422, R445, R450): `fs` are the channels found, `blocks`, `pages` and
`rated` the geometry of the class, `v0` and `v1` whether the spine copies read as valid. -/
def State.flashTrained (s : State) (fs : List BdFound) (blocks pages rated : Nat) (v0 v1 : Bool) : State :=
  let one (s : State) (f : BdFound) : State :=
    let c := f.chan.val
    let old := s.bdChan c
    let ts : List BdTarget := f.targets.map fun t => { excluded := t.1, luns := t.2.1, uid := t.2.2 }
    let swap (t : Nat) : Bool := match old.targets[t]?, ts[t]? with
      | some a, some b => a.uid != b.uid
      | _, _ => false
    let ts := (ts.zip (upto 8)).map fun p => { p.1 with marked := match old.targets[p.2]? with
      | some a => a.marked || swap p.2
      | none => false }
    let luns := ((ts.zip (upto 8)).filter fun p => !p.1.excluded).flatMap fun p => (upto p.1.luns).map fun k =>
      match (old.luns.filter fun l => l.target = p.2)[k]? with
      | some l => if swap p.2 then ({ target := p.2 } : BdLun) else l
      | none => ({ target := p.2 } : BdLun)
    let s := s.modFlash c fun _ => { trained := f.trained, failed := !f.trained, targets := ts, luns := luns, marks := f.marks }
    let gone := ((luns.zip (upto 64)).filter fun p => swap p.1.target).map fun p => p.2
    let s := s.each gone fun s l => s.retireLun c l
    let s := s.each gone fun s l => s.markBad c l
    if f.trained then s else s.each (upto luns.length) fun s l => s.retireLun c l
  let s := s.modBd fun b => { b with begun := true, blocks := blocks, pages := pages, rated := rated, failing := false }
  let s := s.each fs one
  let s := (s.modFlash 0 BdChan.withSpine).modFlash 16 BdChan.withSpine
  let s := s.modBd fun b => { b with spine0 := { b.spine0 with valid := v0 }, spine1 := { b.spine1 with valid := v1 } }
  let s := if v0 then s else s.clearSpine 0
  let s := if v1 then s else s.clearSpine 16
  let s := (((s.put BD_STATUS_MOUNTED (if v0 || v1 then 1 else 0)).put BD_STATUS_UNFORMATTED (if v0 || v1 then 0 else 1)).put
    BD_STATUS_SPINE_SINGLE (if v0 != v1 then 1 else 0))
  let s := s.modBd fun b => { b with
    slots := []
    vols := b.vols.map fun p => (p.1, if p.2.state = .recording then { p.2 with state := .recovering } else p.2) }
  (((s.showRates).showMedia).showRebuild).showCat

/-- FLASH_TRAINING_DONE (R422): in CONFIGURE. -/
def execFlashTrainingDone (fs : List BdFound) (blocks pages rated : Nat) (v0 v1 : Bool) (s : State) :
    Host.Outcome State Fault Refusal :=
  .next (if s.devState = 4 && s.power.setupFirst && !s.bd.begun then s.flashTrained fs blocks pages rated v0 v1 else s)

/-- BD_RECOVERY (R448): volume v is closed at the durable end of `e` leaves that the scan found, with a final GAP record for
each key. -/
def State.volRecover (s : State) (v e : Nat) : State :=
  match kvGet s.bd.vols v with
  | none => s
  | some x =>
    if x.state != .recovering then s
    else
      let whole := x.recs.filter fun r => r.at_ + recSize r.r ≤ 16384 * e
      let stop := whole.foldl (fun a r => max a (r.at_ + recSize r.r)) 0
      let count (k : Nat) : Nat := (whole.filter fun r => r.key = k).foldl (fun a r => a + r.n) 0
      let note := match s.bd.note with
        | some n => kvGet n.2 v
        | none => none
      let gap (p : (Nat × Nat) × Nat) : BdRec :=
        let last := (whole.filter fun r => r.key = p.2).getLast?
        ⟨0, p.2, 0, {
          type := 0x0B, stream := BitVec.ofNat 16 p.1.2
          hive := (last.map fun r => r.r.hive).getD (BitVec.ofNat 16 (if p.1.1 = 0 then s.khAddr else p.1.1))
          seq := (last.map fun r => r.r.seq + 1).getD 0, time := (last.map fun r => r.r.time).getD 0
          flags := 0x101, format := 0
          gapLength := match note with
            | some n => BitVec.ofNat 48 (kvGetD n p.2 0 - count p.2)
            | none => 0xFFFFFFFFFFFF
          gapCause := 0x0F, contrib := 0, excised := 0, epoch := s.epoch 12, payload := [] }⟩
      let gs := (x.keys.zip (upto 16)).map gap
      let recs := gs.foldl (fun (a : List BdRec × Nat) g => (a.1 ++ [{ g with at_ := a.2 }], a.2 + recSize g.r)) (whole, stop)
      let s := s.modVol v fun x => { x with
        state := .closed, recs := recs.1, bytes := recs.2, durable := ceilDiv recs.2 16384
        rounds := x.rounds.filter fun r => decide (r.lo < e) }
      (s.showRebuild).showCat

def execBdRecovery (v : Word) (e : Nat) (s : State) : Host.Outcome State Fault Refusal := .next (s.volRecover v.toNat e)

/-- POWER_FAIL_N fell (R447): no further record, and a note of the own samples accepted. -/
def State.bdPowerFail (s : State) : State :=
  s.modBd fun b => { b with
    failing := true
    note := some (s.now, (b.vols.filter fun p => p.2.state = .recording).map fun p => (p.1, p.2.taken)) }

/-- A write of BD_CTL by domain d (R451): FORMAT is the custodian's. -/
def State.bdCtlWrite (s : State) (d v : Nat) : State × Nat :=
  let rf := BD_CTL_REASON
  let busy := s.bd.vols.any fun p => p.2.state = .recording || p.2.state = .recovering
  if s.bdLost then s.answer rf 0x08D0
  else if bits v 2 2 = 1 && d != 3 then s.answer rf 0x0401
  else if bits v 2 2 = 1 && (busy || !s.bd.reads.isEmpty) then s.answer rf 0x07D1
  else
    let s := (s.put BD_CTL_ENABLE (bits v 0 0)).put rf 0
    let s := if bits v 2 2 = 0 then s
      else
        let s := s.modBd fun b => { b with
          vols := [], secs := [], ckpts := [], note := none, leafLost := false, lostLeaves := []
          units := b.units.filterMap fun p =>
            let u : BdUnit := { p.2 with owner := none, dirty := false, erases := if p.2.bad then p.2.erases else p.2.erases + 1 }
            some (p.1, u)
          spine0 := { b.spine0 with valid := true }, spine1 := { b.spine1 with valid := true } }
        let s := ((s.put BD_STATUS_MOUNTED 1).put BD_STATUS_UNFORMATTED 0).put BD_STATUS_SPINE_SINGLE 0
        let s := s.each (s.bd.chans.map fun p => p.1) fun s c => s.markFirst c
        ((s.showMedia).showRebuild).showCat
    let s := (if bits v 1 1 = 1 && !(s.on BD_CTL_QUIESCE) then s.closeVolumes else s).put BD_CTL_QUIESCE (bits v 1 1)
    (s.put BD_STATUS_QUIET (bits v 1 1), 0)

/-- BD_FORMAT: the write of BD_CTL that sets FORMAT and leaves its other fields. -/
def execBdFormat (p : Fin 5) (s : State) : Host.Outcome State Fault Refusal :=
  .next (s.gatedWrite p BD_CTL fun s => s.bdCtlWrite (s.domain p) (4 + 2 * s.get BD_CTL_QUIESCE + s.get BD_CTL_ENABLE))

/-- BD_QUIESCE: the write of BD_CTL that sets QUIESCE and leaves its other fields. -/
def execBdQuiesce (p : Fin 5) (s : State) : Host.Outcome State Fault Refusal :=
  .next (s.gatedWrite p BD_CTL fun s => s.bdCtlWrite (s.domain p) (2 + s.get BD_CTL_ENABLE))

/-! ### Read sessions (R452) -/

/-- The sink of session r is enabled. -/
def State.rsSink (s : State) (r : Nat) : Bool :=
  let i := s.get (BD_RS_SINK_INDEX r)
  if s.get (BD_RS_SINK_KIND r) = 2 then s.on (DMA_CTL_ENABLE (i % 64)) && s.on (DMA_CTL_MODE (i % 64))
  else s.on (KL_XF_CTL_ON (13 + i / 64) (i % 64))

/-- First byte that session r delivers from. -/
def State.rsFrom (s : State) (r : Nat) (v : BdVol) : Nat :=
  let sec := s.val (BD_RS_SEC r)
  let frac := s.val (BD_RS_FRAC r)
  let base := 16384 * v.first
  match s.get (BD_RS_CTL_FROM r) with
  | 0 => base
  | 1 =>
    let t := atSecFrac sec frac
    ((v.recs.find? fun x => tLe t x.r.time).map fun x => x.at_).getD v.bytes
  | _ => max base (16384 * (sec + 2 ^ 32 * (frac % 65536)))

/-- A write of BD_RS_CTL_r by domain d (R452, R454, R532). -/
def State.rsCtlWrite (s : State) (d r v : Nat) : State × Nat :=
  let rf := BD_RS_CTL_REASON r
  let run := s.on (BD_RS_CTL_RUNNING r)
  if run && bits v 3 2 != s.get (BD_RS_CTL_FROM r) then s.answer rf 0x07D0
  else if bits v 3 2 = 3 then s.answer rf 0x01D0
  else
    let s := s.put (BD_RS_CTL_FROM r) (bits v 3 2)
    if bits v 1 1 = 1 then
      ((s.put (BD_RS_CTL_RUNNING r) 0).modBd fun b => { b with reads := kvDel b.reads r }, 0)
    else if bits v 0 0 = 0 then (s, 0)
    else
      let vol := s.val (BD_RS_VOL r)
      let x := kvGet s.bd.vols vol
      let c := firstFail [
        (s.bdLost, 0x08D0),
        (run, 0x07D0),
        (!(s.rsSink r), 0x03D0),
        (!(s.on BD_STATUS_MOUNTED) || (match x with
          | some y => y.state = .recovering || y.state = .deleting
          | none => true), 0x07D1),
        (!(s.volMayRead d vol), 0x04D0)]
      match x with
      | some y =>
        if c != 0 then s.answer rf c
        else
          let from_ := s.rsFrom r y
          (((s.put (BD_RS_CTL_RUNNING r) 1).put rf 0).modBd fun b =>
            { b with reads := kvPut b.reads r { vol := vol, leaf := from_ / 16384, from_ := from_ } }, 0)
      | none => s.answer rf c

def execBdRsGo (p : Fin 5) (r : Fin 4) (v : Word) (s : State) : Host.Outcome State Fault Refusal :=
  .next (s.gatedWrite p (BD_RS_CTL r) fun s => s.rsCtlWrite (s.domain p) r v.toNat)

/-- BD_RS_STOP: the write of BD_RS_CTL_r that sets STOP and leaves its other fields. -/
def execBdRsStop (p : Fin 5) (r : Fin 4) (s : State) : Host.Outcome State Fault Refusal :=
  .next (s.gatedWrite p (BD_RS_CTL r) fun s => s.rsCtlWrite (s.domain p) r (2 + 4 * s.get (BD_RS_CTL_FROM r)))

/-- Leaf q of a volume was erased for reuse, with the section that held it (R433). -/
def BdVol.erased (v : BdVol) (q : Nat) : Bool :=
  (v.rounds.any fun r => decide (q < r.lo + r.n)) && !(v.rounds.any fun r => decide (r.lo ≤ q) && decide (q < r.lo + r.n))

/-- A session delivers one record, after the GAP record of a loss on its stream. -/
def State.rsDeliver (s : State) (r : Nat) (x : BdRec) : State :=
  match kvGet s.bd.reads r with
  | none => s
  | some y =>
    let k := volKey x.r.hive.toNat x.r.stream.toNat
    let kind := s.get (BD_RS_SINK_KIND r)
    let i := s.get (BD_RS_SINK_INDEX r)
    let s := match kvGet y.cut k with
      | none => s
      | some cause =>
        let tr := kvGetD y.tracks k {}
        let g := match tr.last with
          | some l => s.gapRecOf x.r (l.seq + 1) (missTime tr l x.r) (s.missing tr l x.r) cause
          | none => s.gapRecOf x.r x.r.seq x.r.time (s.freeNow % 2 ^ 48) cause
        (s.emit (.deliver kind i g)).useFree
    let s := s.modBd fun b => { b with reads := kvMod y b.reads r fun y =>
      { y with tracks := kvMod {} y.tracks k fun t => t.take x.r false, cut := kvDel y.cut k } }
    s.emit (.deliver kind i x.r)

/-- BD_LEAF_READ (R424, R452): session r reads its next leaf; `lost`: no step of the ladder recovered it. Records that end in
the leaf are delivered; those a lost leaf touches are skipped. -/
def State.leafRead (s : State) (r : Nat) (lost : Bool) : State :=
  match kvGet s.bd.reads r with
  | none => s
  | some y => match kvGet s.bd.vols y.vol with
    | none => s
    | some v =>
      let setCut (s : State) (l : List BdRec) (cause : Nat) : State :=
        s.modBd fun b => { b with reads := kvMod y b.reads r fun y => { y with
          cut := l.foldl (fun a x => kvPut a (volKey x.r.hive.toNat x.r.stream.toNat) cause) y.cut } }
      let past := decide (y.leaf < v.first)
      let s := if past then setCut (s.modBd fun b => { b with reads := kvMod y b.reads r fun y =>
          { y with leaf := v.first, from_ := max y.from_ (16384 * v.first) } }) v.recs 0x0B
        else s
      let leaf := max y.leaf v.first
      let from_ := max y.from_ (16384 * v.first)
      let finish (s : State) : State :=
        (s.put (BD_RS_CTL_RUNNING r) 0).modBd fun b => { b with reads := kvDel b.reads r }
      if v.durable ≤ leaf then (if v.state = .closed then finish s else s)
      else
        let a := 16384 * leaf
        let e := a + 16384
        let s := s.modBd fun b => { b with reads := kvMod y b.reads r fun y => { y with leaf := leaf + 1 } }
        let gone := (kvGetD s.bd.lostLeaves y.vol []).contains leaf
        let touched := v.recs.filter fun x => decide (x.at_ < e) && decide (a < x.at_ + recSize x.r) && decide (from_ ≤ x.at_)
        let skip (s : State) (cause : Nat) : State :=
          let stop := touched.foldl (fun m x => max m (x.at_ + recSize x.r)) from_
          (setCut s touched cause).modBd fun b => { b with reads := kvMod y b.reads r fun y => { y with from_ := stop } }
        let s :=
          if v.erased leaf then skip s 0x0B
          else if lost || gone then
            (skip ((if gone then s else s.count BD_LOST 1).modBd fun b => { b with leafLost := true }) 0x0F).showMedia
          else s.each (touched.filter fun x => decide (x.at_ + recSize x.r ≤ e)) fun s x => s.rsDeliver r x
        if v.durable ≤ leaf + 1 && v.state = .closed then finish s else s

def execBdLeafRead (r : Fin 4) (lost : Bool) (s : State) : Host.Outcome State Fault Refusal := .next (s.inIsland 12 fun s => s.leafRead r lost)

/-! ### Settings (R454, Table BD-7) -/

/-- A write of another bindery register. -/
def State.bdSetWrite (s : State) (name : RegName) (i a v : Nat) : State × Nat :=
  let out (lo hi x : Nat) : Bool := decide (x < lo) || decide (hi < x)
  match name with
  | .BD_CFG =>
    if bits v 1 0 = 3 || out 1 15 (bits v 7 4) then s.answer BD_CTL_REASON 0x01D0
    else if s.bd.begun && bits v 1 0 != s.get BD_CFG_RATE then s.answer BD_CTL_REASON 0x07D0
    else (((s.plainWrite a v).put BD_CTL_REASON 0).showRates, 0)
  | .BD_LIMITS =>
    if out 16 65535 (bits v 31 16) || out 1 255 (bits v 15 8) || out 50 100 (bits v 7 0) then s.answer BD_CTL_REASON 0x01D0
    else (((s.plainWrite a v).put BD_CTL_REASON 0).showMedia, 0)
  | .BD_PATROL =>
    if out 16 368 (bits v 31 16) || out 1 255 (bits v 7 0) then s.answer BD_CTL_REASON 0x01D0
    else ((s.plainWrite a v).put BD_CTL_REASON 0, 0)
  | .BD_RETAIN_AGE => if v = 0 then s.answer BD_CTL_REASON 0x01D0 else ((s.plainWrite a v).put BD_CTL_REASON 0, 0)
  | .BD_RATES =>
    if out 1 4800 (bits v 31 16) || out 1 4800 (bits v 15 0) then s.answer BD_CTL_REASON 0x01D0
    else ((s.plainWrite a v).put BD_CTL_REASON 0, 0)
  | .BD_VS_CFG | .BD_VS_KEYS | .BD_VS_KEY =>
    if s.get (BD_VS_CTL_STATE i) != 0 && s.changes a v != 0 then s.answer (BD_VS_CTL_REASON i) 0x07D0
    else ((s.plainWrite a v).put (BD_VS_CTL_REASON i) 0, 0)
  | .BD_RS_VOL | .BD_RS_SEC | .BD_RS_FRAC | .BD_RS_SINK | .BD_RS_RATE =>
    let rf := BD_RS_CTL_REASON i
    if s.on (BD_RS_CTL_RUNNING i) && s.changes a v != 0 then s.answer rf 0x07D0
    else if name = .BD_RS_SINK && bits v 2 0 != 2 && bits v 2 0 != 4 then s.answer rf 0x01D0
    else if name = .BD_RS_SINK && bits v 2 0 = 4 && bits v 14 14 = 1 && s.variant = .yn9608 then s.answer rf 0x0210
    else if name = .BD_RS_RATE && out 1 480 (bits v 15 0) then s.answer rf 0x01D0
    else ((s.plainWrite a v).put rf 0, 0)
  | .BD_CAT_IDX => ((s.plainWrite a v).showCat, 0)
  | _ => (s.plainWrite a v, 0)

end Sys2Proof.Machine
end

