-- ==== Sys2Proof/Machine/HostPort.lean ====
section
/-! DEFINITION. Machine/HostPort.lean: the PCI Express endpoint, window D, DMA channels and queue ports (chapter 15, R456 to
R480). -/

namespace Sys2Proof.Machine

def State.modHs (s : State) (f : HsSt → HsSt) : State := { s with hs := f s.hs }
def State.dma (s : State) (c : Nat) : DmaCh := kvGetD s.hs.dma c {}
def State.modDma (s : State) (c : Nat) (f : DmaCh → DmaCh) : State :=
  s.modHs fun h => { h with dma := kvMod {} h.dma c f }
def State.hq (s : State) (q : Nat) : HqSt := kvGetD s.hs.queues q {}
def State.modHq (s : State) (q : Nat) (f : HqSt → HqSt) : State :=
  s.modHs fun h => { h with queues := kvMod {} h.queues q f }

/-! ### Capture windows (R531) -/

/-- The entry that governs capture-memory MiB m. -/
def ProtSet.cmEntry (x : ProtSet) (m : Nat) : Nat :=
  match (upto 64).find? fun w =>
    let b := (kvGetD x.cwBase w 0).toNat
    decide (b ≤ m) && decide (m < b + (kvGetD x.cwSize w 0).toNat) with
  | some w => (kvGetD x.cwAcc w 9).toNat
  | none => x.cmDefault.toNat

/-- Domain d may read (write) every byte of a range. -/
def State.cmAllowed (s : State) (d a n : Nat) (write : Bool) : Bool :=
  (upto ((a + max n 1 - 1) / 2 ^ 20 - a / 2 ^ 20 + 1)).all fun k =>
    let e := s.prot.active.cmEntry (a / 2 ^ 20 + k)
    decide ((if write then writeMin e else readMin e) ≤ d)

/-! ### Window D (R459, R460) -/

/-- WINDOW_D_READ: `n` bytes at offset o. -/
def State.windowDRead (s : State) (o n : Nat) : State :=
  if !(s.answers 0) then s
  else
    let a := s.get HS_WD_BASE_BASE_GIB * 2 ^ 30 + o
    if s.cmSize < a + n || !(s.cmAllowed (s.domain 0) a n false) then
      (s.count HS_WD_DENIED 1).emit (.windowRead a none false)
    else
      let d := s.memFetch a n
      let s := if d.2.2 then d.1.count HS_WD_POISON 1 else d.1
      s.emit (.windowRead a (some d.2.1) d.2.2)

def execWindowDRead (o : BitVec 36) (n : Fin 4097) (s : State) : Host.Outcome State Fault Refusal :=
  .next (s.inIsland 15 fun s => s.inIsland 11 fun s => s.windowDRead o.toNat n)

/-- WINDOW_D_WRITE. -/
def State.windowDWrite (s : State) (o : Nat) (bs : List Byte) : State :=
  if !(s.answers 0) then s
  else
    let a := s.get HS_WD_BASE_BASE_GIB * 2 ^ 30 + o
    if s.cmSize < a + bs.length || !(s.cmAllowed (s.domain 0) a bs.length true) then s.count HS_WD_DENIED 1
    else s.memWrite a bs

def execWindowDWrite (o : BitVec 36) (bs : List Byte) (s : State) : Host.Outcome State Fault Refusal :=
  .next (s.inIsland 15 fun s => s.inIsland 11 fun s => s.windowDWrite o.toNat bs)

/-! ### Queues (R471 to R478) -/

/-- Kinds (Table DQ-3): 0 COMPLETION, 1 DESC, 2 MGMT. -/
def State.hqKind (s : State) (q : Nat) : Nat := s.get (HQ_STATUS_KIND q)
def State.hqOn (s : State) (q : Nat) : Bool := s.on (HQ_CTL_ENABLE q)
def State.hqDepth (s : State) (q : Nat) : Nat := 2 ^ s.get (HQ_CTL_DEPTH_LOG q)

/-- LEVEL: entries from P to the write point of an outbound queue, free entries of an inbound one. -/
def State.hqLevel (s : State) (q : Nat) : Nat :=
  let x := s.hq q
  if s.hqKind q = 0 then x.entries.length - x.p else s.hqDepth q - x.entries.length

/-- Signal the queue's vector when LEVEL rose to WM or above (R478). -/
def State.hqRaise (s : State) (q old : Nat) : State :=
  let wm := s.get (HQ_CTL_WM_M1 q) + 1
  if old < wm && wm ≤ s.hqLevel q then s.signal (s.get (HQ_CTL_VEC q)) else s

/-- Put an entry on a completion queue; none where it has no free entry (R474). -/
def State.hqPush (s : State) (q : Nat) (e : HqEntry) : Option State :=
  if s.hqDepth q ≤ (s.hq q).entries.length then none
  else
    let old := s.hqLevel q
    some ((s.modHq q fun x => { x with entries := x.entries ++ [e] }).hqRaise q old)

/-- The completion entry of Table DQ-4. -/
def hqCompletion (tag count source type flags reason seq : Nat) : HqEntry :=
  ⟨BitVec.ofNat 64 (tag % 2 ^ 32 + 2 ^ 32 * (count % 2 ^ 32)),
    BitVec.ofNat 64 (source % 256 + 256 * (type % 256) + 2 ^ 24 * (128 + flags % 4) + 2 ^ 32 * (reason % 65536)
      + 2 ^ 48 * (seq % 65536))⟩

/-- An entry's V and its byte k. -/
def HqEntry.valid (e : HqEntry) : Bool := bits e.hi.toNat 31 31 = 1
def HqEntry.hiByte (e : HqEntry) (k : Nat) : Nat := bits e.hi.toNat (8 * k + 7) (8 * k)

/-- The queue is named as a result queue by an enabled channel or an enabled MGMT queue. -/
def State.hqNamed (s : State) (q : Nat) : Bool :=
  ((upto 64).any fun c => s.on (DMA_CTL_ENABLE c) && s.get (DMA_CTL_CQ c) = q)
    || (upto 32).any fun k => k != q && s.hqOn k && s.hqKind k = 2 && s.get (HQ_CTL_CQ k) = q

/-- An enabled COMPLETION queue. -/
def State.cqOk (s : State) (q : Nat) : Bool := s.hqOn q && s.hqKind q = 0

/-- The check of HQ_CTL_q.ENABLE (R471, R480). -/
def State.hqCheck (s : State) (q : Nat) : Nat :=
  let d := s.get (HQ_CTL_DEPTH_LOG q)
  let others := (upto 32).filter fun k => k != q && s.hqOn k
  firstFail [
    (s.hqKind q = 3 || d < 8 || 14 < d || 2 ^ d < s.get (HQ_CTL_WM_M1 q) + 1, 0x01E2),
    (decide (65536 < s.hqDepth q + sumOf others s.hqDepth), 0x02E2),
    (s.hqKind q = 2 && !(s.cqOk (s.get (HQ_CTL_CQ q))), 0x03E0)]

/-- A write of HQ_CTL_q: its refusals show in the slot alone (R480). -/
def State.hqCtlWrite (s : State) (q v : Nat) : State × Nat :=
  let on := s.hqOn q
  let want := decide (bits v 0 0 = 1)
  let a := HQ_CTL q
  if on && s.changes a v / 2 != 0 then (s, 0x07E0)
  else if on && !want then
    if s.hqKind q = 0 && s.hqNamed q then (s, 0x03E0)
    else (((s.put (HQ_CTL_ENABLE q) 0).put (HQ_STATUS_RUNNING q) 0).modHq q fun _ => {}, 0)
  else
    let t := s.plainWrite a (v / 2 * 2 + (if on then 1 else 0))
    if !on && want then
      let c := t.hqCheck q
      if c != 0 then (t, c)
      else (((t.put (HQ_CTL_ENABLE q) 1).put (HQ_STATUS_RUNNING q) 1).modHq q fun _ => {}, 0)
    else (t, 0)

def execHqEnable (p : Fin 5) (q : Fin 32) (v : Word) (s : State) : Host.Outcome State Fault Refusal :=
  .next (s.gatedWrite p (HQ_CTL q) fun s => s.hqCtlWrite q v.toNat)

/-- A write of HQ_STATUS_q (KIND, POISON). -/
def State.hqStatusWrite (s : State) (q v : Nat) : State × Nat :=
  if s.hqOn q && s.changes (HQ_STATUS q) v != 0 then (s, 0x07E0) else (s.plainWrite (HQ_STATUS q) v, 0)

/-- Window Q of queue q answers a read or a write of path 0 (R472, R533). -/
def State.windowQ (s : State) (q : Nat) (write : Bool) : State × Bool :=
  let a := HQ_CTL q
  if !(s.answers 0) then (s, false)
  else
    let c := if write then s.judgeWrite 0 a else s.judgeRead 0 a
    if c != 0 then (s.recordRefusal 0 a write c, false) else (s, true)

/-- An access of LO or HI that is not an aligned 8-byte word (R472). -/
def State.hqBad (s : State) (q : Nat) (write : Bool) : State :=
  let s := s.count (HQ_BADACC q) 1
  if write then s else s.emit (.queueRead q 0 false)

/-- HQ_LO_READ (R473, R477): `err` 0 no error, 1 a single wrong bit, 2 an uncorrectable word. -/
def State.hqLoRead (s : State) (q : Nat) (aligned : Bool) (err : Nat) : State :=
  let g := s.windowQ q false
  if !g.2 then g.1.emit (.queueRead q 0 false)
  else if !aligned || s.hqKind q != 0 || !(s.hqOn q) then g.1.hqBad q false
  else
    let x := s.hq q
    match x.entries[x.p]? with
    | none => (s.modHq q fun x => { x with latch := some (⟨0, 0⟩, false) }).emit (.queueRead q 0 false)
    | some e =>
      if err = 2 then
        let s := ((s.count (HQ_UE q) 1).put (HQ_STATUS_POISON q) 1).modHq q fun x =>
          { x with latch := some (⟨0xFFFFFFFFFFFFFFFF, 0xFFFFFFFFFFFFFFFF⟩, true) }
        s.emit (.queueRead q 0xFFFFFFFFFFFFFFFF true)
      else
        let s := if err = 1 then s.count (HQ_CE q) 1 else s
        (s.modHq q fun x => { x with latch := some (e, false) }).emit (.queueRead q e.lo false)

def execHqLoRead (q : Fin 32) (aligned : Bool) (err : Fin 3) (s : State) : Host.Outcome State Fault Refusal :=
  .next (s.inIsland 15 fun s => s.hqLoRead q aligned err)

/-- HQ_HI_READ: P advances when the latched entry has V = 1, as one that is all ones has. -/
def State.hqHiRead (s : State) (q : Nat) (aligned : Bool) : State :=
  let g := s.windowQ q false
  if !g.2 then g.1.emit (.queueRead q 0 false)
  else if !aligned || s.hqKind q != 0 || !(s.hqOn q) then g.1.hqBad q false
  else match (s.hq q).latch with
    | none => s.emit (.queueRead q 0 false)
    | some (e, bad) =>
      let s := s.emit (.queueRead q e.hi bad)
      if e.valid then s.modHq q fun x => { x with p := min (x.p + 1) x.entries.length } else s

def execHqHiRead (q : Fin 32) (aligned : Bool) (s : State) : Host.Outcome State Fault Refusal := .next (s.inIsland 15 fun s => s.hqHiRead q aligned)

/-- A command on an outbound queue (R473): 1 MARK, 2 REWIND, 3 RELEASE. -/
def State.hqCmd (s : State) (q cmd : Nat) : State :=
  let g := s.windowQ q true
  if !g.2 || s.hqKind q != 0 || !(s.hqOn q) then g.1
  else
    let old := s.hqLevel q
    let s := s.modHq q fun x =>
      if cmd = 1 then { x with m := x.p }
      else if cmd = 2 then { x with p := x.m }
      else { x with entries := x.entries.drop x.p, m := 0, p := 0 }
    s.hqRaise q old

def execHqCmdMark (q : Fin 32) (s : State) : Host.Outcome State Fault Refusal := .next (s.inIsland 15 fun s => s.hqCmd q 1)
def execHqCmdRewind (q : Fin 32) (s : State) : Host.Outcome State Fault Refusal := .next (s.inIsland 15 fun s => s.hqCmd q 2)
def execHqCmdRelease (q : Fin 32) (s : State) : Host.Outcome State Fault Refusal := .next (s.inIsland 15 fun s => s.hqCmd q 3)

/-- HQ_LO_WRITE (R475). -/
def State.hqLoWrite (s : State) (q : Nat) (aligned : Bool) (v : BitVec 64) : State :=
  let g := s.windowQ q true
  if !g.2 then g.1
  else if !aligned || s.hqKind q = 0 || !(s.hqOn q) then g.1.hqBad q true
  else s.modHq q fun x => { x with lo := some v }

def execHqLoWrite (q : Fin 32) (aligned : Bool) (v : BitVec 64) (s : State) : Host.Outcome State Fault Refusal :=
  .next (s.inIsland 15 fun s => s.hqLoWrite q aligned v)

/-- HQ_HI_WRITE (R475, R476): appended, or held while the queue is full; in SAFE discarded. -/
def State.hqHiWrite (s : State) (q : Nat) (aligned : Bool) (v : BitVec 64) : State :=
  let g := s.windowQ q true
  if !g.2 then g.1
  else if !aligned || s.hqKind q = 0 || !(s.hqOn q) then g.1.hqBad q true
  else
    let x := s.hq q
    let e : HqEntry := ⟨x.lo.getD 0, v⟩
    if s.devState = 7 then s.modHq q fun x => { x with lo := none }
    else if s.hqDepth q ≤ x.entries.length then s.modHq q fun x => { x with lo := none, held := x.held ++ [e] }
    else s.modHq q fun x => { x with lo := none, entries := x.entries ++ [e] }

def execHqHiWrite (q : Fin 32) (aligned : Bool) (v : BitVec 64) (s : State) : Host.Outcome State Fault Refusal :=
  .next (s.inIsland 15 fun s => s.hqHiWrite q aligned v)

/-- The head of an inbound queue is consumed; a held write takes the room. -/
def State.hqPop (s : State) (q : Nat) : State :=
  let old := s.hqLevel q
  (s.modHq q fun x => { x with entries := x.entries.drop 1 ++ x.held.take 1, held := x.held.drop 1 }).hqRaise q old

/-- SAFE empties the inbound queues (R476). -/
def State.hqSafe (s : State) : State :=
  s.each (upto 32) fun s q =>
    if s.hqKind q = 0 then s else (s.modHq q fun x => { x with entries := [], held := [] }).hqRaise q (s.hqLevel q)

/-- What a word error does to the head of an inbound queue (R477): `some s` when it is discarded. -/
def State.hqInError (s : State) (q err : Nat) : State × Bool :=
  if err = 2 then ((((s.count (HQ_UE q) 1).put (HQ_STATUS_POISON q) 1).hqPop q), true)
  else (if err = 1 then s.count (HQ_CE q) 1 else s, false)

/-! ### DMA channels (R461 to R470) -/

/-- The completion's vector. -/
def State.dmaSignal (s : State) (c : Nat) : State := s.signal (s.get (DMA_CTL_VEC c))

/-- The channel halts (R462, R466, R478). -/
def State.dmaHalt (s : State) (c : Nat) : State :=
  let s := (s.modDma c fun x => { phase := .idle, lost := x.lost }).put (DMA_STATUS_RUNNING c) 0
  (s.put (DMA_STATUS_HALTED c) 1).dmaSignal c

/-- A descriptor is refused (R462). -/
def State.dmaRefuse (s : State) (c code : Nat) : State :=
  ((s.put (DMA_STATUS_REFUSED c) 1).put (DMA_STATUS_REASON c) code).dmaHalt c

/-- A request is answered with an error (R466): direction, address, whether the count had reached zero. -/
def State.dmaError (s : State) (c dir addr : Nat) (late : Bool) : State :=
  let s := (s.setVal (DMA_ERR_ADDR_LO c) addr).setVal (DMA_ERR_ADDR_HI c) (addr / 2 ^ 32)
  (((s.put (DMA_STATUS_DIR c) dir).put (DMA_STATUS_BUS_ERROR c) 1).put (DMA_STATUS_LATE_ERROR c) (if late then 1 else 0)).dmaHalt c

/-- Start the list at an address in the layout of NEXT, for a path (R464): an address with END set names no descriptor. -/
def State.dmaStart (s : State) (c path addr : Nat) : State :=
  if bits addr 1 1 = 1 then s else
  let s := (s.modDma c fun x => { phase := .fetch, path := path, at_ := addr, lost := x.lost }).put (DMA_STATUS_RUNNING c) 1
  let s := (s.setVal (DMA_CUR_LO c) addr).setVal (DMA_CUR_HI c) (addr / 2 ^ 32)
  if bits addr 0 0 = 1 then s else s.emit (.hostRead c (addr / 64 * 64) 64)

/-- Fetch the next descriptor. -/
def State.dmaNext (s : State) (c : Nat) (d : DmaDesc) : State :=
  if bits d.next 1 1 = 1 then (s.modDma c fun x => { phase := .idle, lost := x.lost }).put (DMA_STATUS_RUNNING c) 0
  else
    let s := s.modDma c fun x => { x with
      phase := .fetch, at_ := d.next, desc := none, off := 0, first := none, gap := false, flushed := false, entry := none }
    let s := (s.setVal (DMA_CUR_LO c) d.next).setVal (DMA_CUR_HI c) (d.next / 2 ^ 32)
    if bits d.next 0 0 = 1 then s else s.emit (.hostRead c (d.next / 64 * 64) 64)

/-- SINK mode. -/
def State.dmaSink (s : State) (c : Nat) : Bool := s.on (DMA_CTL_MODE c)

/-- A descriptor has succeeded (R465): counted, its completion posted or held, its vector signalled. -/
def State.dmaPost (s : State) (c : Nat) : State :=
  let x := s.dma c
  match x.desc with
  | none => s
  | some d =>
    let s := s.count (DMA_DONE c) 1
    let s := if bits d.ctl 4 4 = 1 then s.dmaSignal c else s
    if bits d.ctl 5 5 = 0 then s.dmaNext c d
    else
      let e := hqCompletion d.tag x.off c (if s.dmaSink c then 2 else 1)
        ((if x.flushed then 1 else 0) + (if x.gap then 2 else 0)) 0 (s.val (DMA_DONE c))
      match s.hqPush (s.get (DMA_CTL_CQ c)) e with
      | some s => s.dmaNext c d
      | none => s.modDma c fun x => { x with phase := .post, entry := some e }

/-- Every byte is moved: the confirming step of R465, or none. -/
def State.dmaConfirm (s : State) (c : Nat) (d : DmaDesc) : State :=
  let n := (s.dma c).off
  if bits d.ctl 1 1 = 1 then s.modDma c fun x => { x with phase := .confirm }
  else if bits d.ctl 3 3 = 1 || n = 0 then s.dmaPost c
  else
    let k := min 4 n
    (s.modDma c fun x => { x with phase := .confirm }).emit (.hostRead c (d.dst + n - k) k)

/-- Copying runs from the top down (R463). -/
def DmaDesc.down (d : DmaDesc) : Bool :=
  bits d.ctl 2 0 = 7 && decide (d.src < d.dst) && decide (d.dst < d.src + d.len)

/-- The next part to move: its offset and size. -/
def DmaDesc.part (d : DmaDesc) (off : Nat) : Nat × Nat :=
  let n := min 512 (d.len - off)
  (if d.down then d.len - off - n else off, n)

/-- Issue the request for the next part of a copy. -/
def State.dmaAsk (s : State) (c : Nat) : State :=
  let x := s.dma c
  match x.desc with
  | none => s
  | some d =>
    let p := d.part x.off
    if bits d.ctl 0 0 = 1 then s else s.emit (.hostRead c (d.src + p.1) p.2)

/-- A write of [a, a + n) fails: a channel that holds some of it is lost (R414). -/
def State.memGone (s : State) (a n : Nat) : Bool :=
  s.on CM_STATUS_LOST && (sectors a n).any fun k => s.chanLost (s.cmChannel (32 * k))

/-- Put bytes into the sink buffer from `at_` on; what does not fit runs on into the next (R469); a write that a lost channel fails
halts the channel (R414, R466). -/
def State.sinkPut (s : State) (c : Nat) (d : DmaDesc) (bs : List Byte) : State :=
  let x := s.dma c
  let pos := (d.dst + x.off + 7) / 8 * 8 - d.dst
  let n := min bs.length (d.len - pos)
  let now := bs.take n
  if bits d.ctl 1 1 = 1 && s.memGone (d.dst + pos) n then s.dmaError c 1 (d.dst + pos) (decide (d.len ≤ pos + n)) else
  let s := if n = 0 then s
    else if bits d.ctl 1 1 = 1 then s.memWrite (d.dst + pos) now else s.emit (.hostWrite c (d.dst + pos) now)
  let s := s.modDma c fun x => { x with
    off := if n = 0 then x.off else pos + n, carry := bs.drop n, first := match x.first with
      | none => if n = 0 then none else some s.now
      | some t => some t }
  if n < bs.length || d.len ≤ pos + n then s.dmaConfirm c d else s

/-- What the engine of channel c does with `f`: while its duty is being taken over, or has no block, nothing moves, and the spare
continues from there (R580, Table FT-1). -/
def State.inEngine (s : State) (c : Nat) (f : State → State) : State :=
  s.inIsland 15 fun s => if s.dutyUp 15 (c % 8) then f s else s

/-- DMA_DESCRIPTOR_FETCHED (R461, R462): its 64 bytes as they arrive from host memory, none on an error; a descriptor in
capture memory is read there. -/
def State.dmaFetched (s : State) (c : Nat) (host : Option (List Byte)) : State :=
  let x := s.dma c
  if x.phase != .fetch then s
  else
    let a := x.at_ / 64 * 64
    let cm := bits x.at_ 0 0 = 1
    if cm && s.gated 11 then s else
    let size := s.cmSize
    if cm && size < a + 64 then s.dmaRefuse c 0x01E0
    else if cm && !(s.cmAllowed (s.domain x.path) a 64 false) then s.dmaRefuse c 0x04E0
    else
      let d := s.memFetch a 64
      let s := if cm then d.1 else s
      let got : Option (List Byte) := if cm then (if d.2.2 then none else some d.2.1) else host.filter fun l => l.length = 64
      match got with
      | none => s.dmaError c 2 a false
      | some bs =>
        let f (o n : Nat) : Nat := fromLe ((bs.drop o).take n)
        let d : DmaDesc := ⟨f 0 8, f 8 8, f 16 8, f 24 4, f 28 4, f 32 4⟩
        let sink := s.dmaSink c
        let sc := !sink && bits d.ctl 0 0 = 1
        let dc := bits d.ctl 1 1 = 1
        let code := firstFail [
          (d.len = 0 || bits d.next 5 2 != 0 || bits d.ctl 31 6 != 0 || f 36 28 != 0 || (sc && decide (size < d.src + d.len))
            || (dc && decide (size < d.dst + d.len)), 0x01E0),
          (!sink && !sc && !dc, 0x01E1),
          ((sc && !(s.cmAllowed (s.domain x.path) d.src d.len false)) || (dc && !(s.cmAllowed (s.domain x.path) d.dst d.len true)), 0x04E0),
          (sc && dc && bits d.ctl 2 2 = 0 && decide (d.src < d.dst + d.len) && decide (d.dst < d.src + d.len), 0x05E0)]
        if code != 0 then s.dmaRefuse c code
        else
          let s := s.modDma c fun x => { x with
            phase := if sink then .buffer else .move, desc := some d, off := 0, first := none, gap := false, flushed := false }
          if sink then (if x.carry.isEmpty then s else s.sinkPut c d x.carry) else s.dmaAsk c

def execDmaDescriptorFetched (c : Fin 64) (host : Option (List Byte)) (s : State) : Host.Outcome State Fault Refusal :=
  .next (s.inEngine c fun s => s.dmaFetched c host)

/-- DMA_REQUEST_COMPLETION (R465, R466): the next part of a copy, its data when it came from host memory, none on an error;
`all`: the request for the last byte had been issued. Requests complete in the order of their addresses (assumption 25). In
SINK mode: a buffer write into capture memory failed. -/
def State.dmaPart (s : State) (c : Nat) (host : Option (List Byte)) (all : Bool) : State :=
  let x := s.dma c
  match x.desc with
  | none => s
  | some d =>
    if x.phase = .buffer then (if host.isNone then s.dmaError c 1 d.dst all else s)
    else if x.phase != .move then s
    else
      let p := d.part x.off
      let cm := bits d.ctl 0 0 = 1
      if bits d.ctl 1 0 != 0 && s.gated 11 then s else
      let r := s.memFetch (d.src + p.1) p.2
      let s := if cm then r.1 else s
      let got : Option (List Byte) := if cm then (if r.2.2 then none else some r.2.1) else host.filter fun l => l.length = p.2
      match got with
      | none => s.dmaError c 0 (d.src + p.1) (all || decide (d.len ≤ x.off + p.2))
      | some bs =>
        if bits d.ctl 1 1 = 1 && s.memGone (d.dst + p.1) p.2 then
          s.dmaError c 1 (d.dst + p.1) (all || decide (d.len ≤ x.off + p.2)) else
        let s := if bits d.ctl 1 1 = 1 then s.memWrite (d.dst + p.1) bs else s.emit (.hostWrite c (d.dst + p.1) bs)
        let s := s.modDma c fun x => { x with off := x.off + p.2 }
        if d.len ≤ x.off + p.2 then s.dmaConfirm c d else s.dmaAsk c

def execDmaRequestCompletion (c : Fin 64) (host : Option (List Byte)) (all : Bool) (s : State) :
    Host.Outcome State Fault Refusal :=
  .next (s.inEngine c fun s => s.dmaPart c host all)

/-- DMA_COMPLETION_TIMEOUT (R466): the outstanding request is answered by nothing. -/
def execDmaCompletionTimeout (c : Fin 64) (all : Bool) (s : State) : Host.Outcome State Fault Refusal :=
  .next (
    let x := s.dma c
    match x.phase with
    | .fetch => if bits x.at_ 0 0 = 1 then s else s.dmaError c 2 (x.at_ / 64 * 64) false
    | .move => match x.desc with
      | some d =>
        if bits d.ctl 0 0 = 1 then s
        else s.dmaError c 0 (d.src + (d.part x.off).1) (all || decide (d.len ≤ x.off + (d.part x.off).2))
      | none => s
    | .confirm => match x.desc with
      | some d => if bits d.ctl 1 1 = 1 then s else s.dmaError c 3 (d.dst + x.off - min 4 x.off) true
      | none => s
    | _ => s)

/-- DMA_DESCRIPTOR_CONFIRMED (R465, R466): the read-back, or the acknowledgement of the capture-memory writes; `ok` false when
it failed. -/
def State.dmaConfirmed (s : State) (c : Nat) (ok : Bool) : State :=
  let x := s.dma c
  match x.desc with
  | none => s
  | some d =>
    if x.phase != .confirm then s
    else if ok then s.dmaPost c
    else if bits d.ctl 1 1 = 1 then s.dmaError c 1 d.dst true
    else s.dmaError c 3 (d.dst + x.off - min 4 x.off) true

def execDmaDescriptorConfirmed (c : Fin 64) (ok : Bool) (s : State) : Host.Outcome State Fault Refusal :=
  .next (s.inEngine c fun s => s.dmaConfirmed c ok)

/-- DMA_SINK_RECORD (R469, R470): a record reaches the channel. -/
def State.dmaRecord (s : State) (c : Nat) (r : YRec) : State :=
  let x := s.dma c
  let discard (s : State) : State := (s.count (DMA_DISCARDED c) 1).modDma c fun x => { x with lost := s.owe x.lost r }
  if !(s.dmaSink c) then s
  else match x.desc with
    | none => discard s
    | some d =>
      if !(s.on (DMA_CTL_ENABLE c)) || x.phase != .buffer || !x.carry.isEmpty then discard s
      else
        let g := owedFor x.lost r
        let bs := (match g with
          | some g => recBytes g
          | none => []) ++ recBytes r
        let s := s.modDma c fun x => { x with lost := owedRest x.lost r, gap := x.gap || g.isSome || r.type = 0x0B }
        s.sinkPut c d bs

def execDmaSinkRecord (c : Fin 64) (y : YRec) (s : State) : Host.Outcome State Fault Refusal :=
  .next (s.inEngine c fun s => s.dmaRecord c y)

/-- DMA_SINK_FLUSH (R469): FLUSH_US since the first byte. -/
def execDmaSinkFlush (c : Fin 64) (s : State) : Host.Outcome State Fault Refusal :=
  .next (s.inEngine c fun s =>
    let x := s.dma c
    match x.desc, x.first with
    | some d, some t =>
      if x.phase != .buffer || tLt s.now (tAdd t (usTicks (s.get (DMA_FLUSH_FLUSH_US c)))) then s
      else (s.modDma c fun x => { x with flushed := true }).dmaConfirm c d
    | _, _ => s)

/-- DMA_COMPLETION_ROOM (R474): a held completion of channel c, or a held result of MGMT queue q, fits. -/
def State.completionRoom (s : State) (w : Sum (Fin 64) (Fin 32)) : State :=
  match w with
  | .inl c =>
    let x := s.dma c
    match x.phase, x.entry, x.desc with
    | .post, some e, some d => (s.hqPush (s.get (DMA_CTL_CQ c)) e).elim s fun s => s.dmaNext c d
    | _, _, _ => s
  | .inr q => match (s.hq q).result with
    | some e => (s.hqPush (s.get (HQ_CTL_CQ q)) e).elim s fun s => s.modHq q fun x => { x with result := none }
    | none => s

def execDmaCompletionRoom (w : Sum (Fin 64) (Fin 32)) (s : State) : Host.Outcome State Fault Refusal :=
  .next (s.inIsland 15 fun s => s.completionRoom w)

/-- The channel is enabled, idle and not halted. -/
def State.dmaIdle (s : State) (c : Nat) : Bool :=
  s.on (DMA_CTL_ENABLE c) && !(s.on (DMA_STATUS_RUNNING c)) && !(s.on (DMA_STATUS_HALTED c))

/-- What a channel moves through HS's switch port (R468, R642): its share either way; what reaches a SINK channel is tied by the
streams' contexts. -/
def State.dmaStreams (s : State) (c : Nat) : List (Nat × BitVec 16 × Ratio) :=
  let n := ratioOf ((s.get (DMA_CTL_SHARE_M1 c) + 1) * 500000000 : Nat)
  (15, sid 14 (64 + c), n) :: (if s.dmaSink c then [] else [(31, sid 14 (64 + c), n)])

/-- Free a channel's ties. -/
def State.dmaUntie (s : State) (c : Nat) : State := (s.freePort 15 (sid 14 (64 + c))).freePort 31 (sid 14 (64 + c))

/-- The check of DMA_CTL_c.ENABLE (R43, R468, R480). -/
def State.dmaCheck (s : State) (c : Nat) : Nat :=
  let others := (upto 64).filter fun k => k != c && s.on (DMA_CTL_ENABLE k)
  firstFail [
    (s.dutyDead (DMA_CTL c), 0x080E),
    (decide (256 < s.get (DMA_CTL_SHARE_M1 c) + 1 + sumOf others fun k => s.get (DMA_CTL_SHARE_M1 k) + 1), 0x02E0),
    ((s.tieAll (s.dmaStreams c)).isNone, 0x020D),
    (!(s.cqOk (s.get (DMA_CTL_CQ c))), 0x03E0)]

/-- A write of DMA_CTL_c on path p (R464, R467, R480): ENABLE, then ABORT, then GO. -/
def State.dmaCtlWrite (s : State) (p c v : Nat) : State × Nat :=
  let a := DMA_CTL c
  let rf := DMA_STATUS_REASON c
  let on := s.on (DMA_CTL_ENABLE c)
  let want := decide (bits v 0 0 = 1)
  if on && s.changes a v / 2 != 0 then s.answer rf 0x07E0
  else
    let v0 := setBits (setBits v 4 3 0) 0 0 (if on then 1 else 0)
    let s := s.plainWrite a v0
    let c0 := if !on && want then s.dmaCheck c else 0
    if c0 != 0 then s.answer rf c0
    else
      let s := if !on && want then ((s.tieAll (s.dmaStreams c)).getD s).put (DMA_CTL_ENABLE c) 1
        else if on && !want then
          (((s.dmaUntie c).put (DMA_CTL_ENABLE c) 0).put (DMA_STATUS_RUNNING c) 0).modDma c fun x => { phase := .idle, lost := x.lost }
        else s
      let s := if bits v 4 4 = 0 then s
        else
          let s := ((s.put (DMA_STATUS_REFUSED c) 0).put (DMA_STATUS_BUS_ERROR c) 0).put (DMA_STATUS_LATE_ERROR c) 0
          let s := (s.put (DMA_STATUS_HALTED c) 0).put (DMA_STATUS_RUNNING c) 0
          s.modDma c fun x => { phase := .idle, lost := x.lost }
      if bits v 3 3 = 0 || !want then (s, 0)
      else if s.dmaIdle c then (s.dmaStart c p (s.pair (DMA_DESC_ADDR_LO c) (DMA_DESC_ADDR_HI c)), 0)
      else s.answer rf 0x05E1

def execDmaEnable (p : Fin 5) (c : Fin 64) (v : Word) (s : State) : Host.Outcome State Fault Refusal :=
  .next (s.gatedWrite p (DMA_CTL c) fun s => s.dmaCtlWrite p c v.toNat)

/-- The writes of DMA_CTL_c that clear ENABLE, set GO or set ABORT and leave the other fields. -/
def execDmaDisable (p : Fin 5) (c : Fin 64) (s : State) : Host.Outcome State Fault Refusal :=
  .next (s.gatedWrite p (DMA_CTL c) fun s => s.dmaCtlWrite p c (s.val (DMA_CTL c) / 2 * 2))
def execDmaGo (p : Fin 5) (c : Fin 64) (s : State) : Host.Outcome State Fault Refusal :=
  .next (s.gatedWrite p (DMA_CTL c) fun s => s.dmaCtlWrite p c (setBits (s.val (DMA_CTL c)) 3 3 1))
def execDmaAbort (p : Fin 5) (c : Fin 64) (s : State) : Host.Outcome State Fault Refusal :=
  .next (s.gatedWrite p (DMA_CTL c) fun s => s.dmaCtlWrite p c (setBits (s.val (DMA_CTL c)) 4 4 1))

/-- A write of another register of a channel (R480). -/
def State.dmaSetWrite (s : State) (c a v : Nat) : State × Nat :=
  if s.on (DMA_CTL_ENABLE c) && s.changes a v != 0 then
    s.answer (DMA_STATUS_REASON c) 0x07E0
  else (s.plainWrite a v, 0)

/-- HQ_DESC_START (R476): the head of a DESC queue; it waits while its channel is not enabled, idle and not halted. -/
def State.descStart (s : State) (q err : Nat) : State :=
  if !(s.hqOn q) || s.hqKind q != 1 then s
  else match (s.hq q).entries with
    | [] => s
    | e :: _ =>
      let g := s.hqInError q err
      if g.2 then g.1
      else if !e.valid then (g.1.count (HQ_INVALID q) 1).hqPop q
      else
        let c := e.hiByte 0 % 64
        if s.dmaIdle c then (g.1.hqPop q).dmaStart c 0 e.lo.toNat else s

def execHqDescStart (q : Fin 32) (err : Fin 3) (s : State) : Host.Outcome State Fault Refusal := .next (s.inIsland 15 fun s => s.descStart q err)

/-! ### Link, resets, MSI-X (R457, R478, R634, R644) -/

/-- PCIE_LINK_UP (R644). -/
def execPcieLinkUp (speed : Fin 8) (width : Fin 16) (s : State) : Host.Outcome State Fault Refusal :=
  .next (if 2 ≤ s.devState && s.dutyUp 15 20 then
    ((s.put HS_PCIE_STATUS_SPEED speed).put HS_PCIE_STATUS_WIDTH width).put HS_PCIE_STATUS_UP 1 else s)

/-- A function-level or hot reset (R457): channels stop, queues empty, HS's registers but HS_WD_BASE return to their reset
values; the link's state stays as the link has it, and so does what a sink's streams have lost (R30). -/
def State.hsReset (s : State) : State :=
  let regs := s.regs.filter fun p => !(p.1 == HS_WD_POISON || p.1 == HS_WD_DENIED
    || (decide (0xF10000 ≤ p.1) && decide (p.1 < 0xF30000)))
  let s : State := { s with regs := regs, msix := {} }
  (s.each (upto 64) fun s c => s.dmaUntie c).modHs fun h => {
    dma := (h.dma.filter fun p => !(p.2.lost.isEmpty)).map fun p => (p.1, { lost := p.2.lost }) }

/-- PCIE_FUNCTION_RESET (R457). -/
def execPcieFunctionReset (s : State) : Host.Outcome State Fault Refusal := .next (if 2 ≤ s.devState then s.hsReset else s)

/-- PE_PERST (R634): a hot reset; the link trains again. -/
def execPePerst (s : State) : Host.Outcome State Fault Refusal :=
  .next (if 2 ≤ s.devState then s.hsReset.setVal HS_PCIE_STATUS 0 else s)

/-- MSIX_UNMASK (R478): a pending vector is signalled. -/
def State.unmask (s : State) (v : Nat) : State :=
  let s : State := { s with msix := { s.msix with vectors := kvMod {} s.msix.vectors v fun x => { x with masked := false } } }
  if (kvGet s.msix.pendingVec v).isSome then
    ({ s with msix := { s.msix with pendingVec := kvDel s.msix.pendingVec v } } : State).emit (.msix v)
  else s

def execMsixUnmask (v : Fin 256) (s : State) : Host.Outcome State Fault Refusal := .next (s.unmask v)

end Sys2Proof.Machine
end

