-- ==== Sys2Proof/Machine/Display.lean ====
section
/-! DEFINITION. Machine/Display.lean: the two display heads of HS (chapter 16): link and AUX port, layers, palettes,
surfaces in capture memory, underrun, signatures and freeze. -/

namespace Sys2Proof.Machine

def State.dsHead (s : State) (h : Nat) : DsHead := kvGetD s.ds h {}
def State.modHead (s : State) (h : Nat) (f : DsHead → DsHead) : State := { s with ds := kvMod {} s.ds h f }
def State.dsLayer (s : State) (h l : Nat) : DsLayer := kvGetD (s.dsHead h).layers l {}
def State.modLayer (s : State) (h l : Nat) (f : DsLayer → DsLayer) : State :=
  s.modHead h fun x => { x with layers := kvMod {} x.layers l f }

/-! ### Geometry and rates (R483, R492 to R494) -/

/-- Pixels of a raster: PCLK / (HTOTAL * VTOTAL) frames per second. -/
def State.dsTotal (s : State) (h : Nat) : Nat := max 1 (s.get (DS_HTIM_TOTAL h) * s.get (DS_VTIM_TOTAL h))
def State.dsHz (s : State) (h : Nat) : Nat := 1000 * s.get (DS_PCLK_KHZ h)

/-- The layers that are ON. -/
def State.dsOn (s : State) (h : Nat) : List Nat := (upto 4).filter fun l => s.on (DS_L_CTL_ON h l)

/-- Bytes of a layer's surface. -/
def State.dsBytes (s : State) (h l : Nat) : Nat := s.get (DS_L_SIZE_W h l) * s.get (DS_L_SIZE_H h l)

/-- Bytes per frame of some layers. -/
def State.dsSum (s : State) (h : Nat) (ls : List Nat) : Nat := ls.foldl (fun a l => a + s.dsBytes h l) 0

/-- The fetch rate of some layers exceeds 256 MB/s (R494). -/
def State.dsFast (s : State) (h : Nat) (ls : List Nat) : Bool :=
  decide (256000000 * s.dsTotal h < s.dsHz h * s.dsSum h ls)

/-- Layers fetched in the frame that starts now (R496): none once a channel of capture memory is lost (R414). -/
def State.dsKept (s : State) (h : Nat) : List Nat :=
  if s.on CM_STATUS_LOST then []
  else if s.devState = 6 then
    let ls := (s.dsOn h).filter fun l => bits (s.get (DS_CTL_WATCH_LAYERS h)) l l = 1
    if s.dsFast h ls then [] else ls
  else s.dsOn h

/-- The traces that are ON. -/
def State.dsTraces (s : State) (h : Nat) : List Nat := (upto 4).filter fun k => s.on (DS_TR_ON h k)

/-- Source streams of a head (Table DS-2), without repeats. -/
def State.dsSources (s : State) (h : Nat) : List (Nat × Nat) :=
  let on := s.dsOn h
  ((if on.contains 0 then [(4, s.get (DS_L_SRC_STREAM h 0))] else [])
    ++ (if on.contains 1 then [(3, s.get (DS_L_SRC_STREAM h 1))] else [])
    ++ (if on.contains 2 then (s.dsTraces h).map fun k => (3, s.get (DS_TR_STREAM h k)) else [])).eraseDups

/-- A source stream is enabled and of its kind (R502). -/
def State.dsSourceOk (s : State) (x : Nat × Nat) : Bool :=
  x.2 / 4096 = x.1 && (s.stream (BitVec.ofNat 16 x.2)).opened

/-- Integrations per second of a local SPEC stream, rounded up. -/
def State.specPerS (s : State) (id : Nat) : Nat :=
  let n := id % 4096
  let r := s.specRegion n
  match (upto 16).find? fun i => s.on (DC_INT_CTL_ENABLE r i) && s.get (DC_INT_ID_SPEC_ID r i) = n with
  | none => 0
  | some i => let c := s.intCfg r i
              (ratioFloor (ratioMul (s.srcRate r c.src) (ratio 1 (max 1 c.m)))).toNat + 1

/-- Declared traffic of a head in bytes per second, each part rounded up (R492). -/
def State.dsTraffic (s : State) (h : Nat) : Nat :=
  let on := s.dsOn h
  let d := s.get (DS_L_SRC_STREAM h 0) % 4096
  let us := s.val (DC_PL_DUMP (6 + d / 4) (d % 4))
  ceilDiv (s.dsHz h * s.dsSum h on) (s.dsTotal h)
    + (if on.contains 0 && us != 0 then ceilDiv (1000000 * s.dsBytes h 0) us else 0)
    + (if on.contains 1 then s.get (DS_L_SIZE_W h 1) * s.specPerS (s.get (DS_L_SRC_STREAM h 1)) else 0)
    + (if on.contains 2 then ceilDiv (s.dsHz h * s.dsBytes h 2) (s.dsTotal h) else 0)

/-- What a head moves through HS's switch port, in bytes per second (R492, R642): its sources and its fetch inward, its surface
writes outward. -/
def State.dsStreams (s : State) (h : Nat) : List (Nat × BitVec 16 × Ratio) :=
  let fetch := ceilDiv (s.dsHz h * s.dsSum h (s.dsOn h)) (s.dsTotal h)
  let src := (s.dsSources h).foldl (fun a x => s.flow.ports.foldl (fun a p =>
    if p.1 % 65536 = x.2 && p.1 / 65536 < 16 then ratioAdd a p.2.2 else a) a) (ratioOf (fetch : Nat))
  [(31, sid 14 h, src), (15, sid 14 h, ratioOf (s.dsTraffic h - fetch : Nat))]

/-- MiB of a layer's surface (R492, R394). -/
def State.dsMib (s : State) (h l : Nat) : Nat := ceilDiv (s.dsBytes h l * (if l = 0 then 2 else 1)) 1048576

/-- Tolerance in ns of a head whose shares of the 512 KiB are full (R493, R494); none where it fetches nothing. -/
def State.dsTolMax (s : State) (h : Nat) : Option Nat :=
  let ls := (s.dsKept h).filter fun l => s.dsBytes h l != 0
  let sum := s.dsSum h ls
  (ls.map fun l =>
    128 * s.dsBytes h l / sum * 4096 * s.dsTotal h * 1000000000 / (s.dsBytes h l * s.dsHz h) - 2000).min?

/-- DS_TOL_NS (R494, R495): 0 while an enabled head fetches in LARGE, and with no head enabled (its reset value). Else the
bytes held are not fixed by the spec at any one moment: a free value, at most what full shares give. -/
def State.showTol (s : State) : State :=
  let heads := (upto 2).filter fun h => s.on (DS_CTL_ENABLE h)
  if heads.isEmpty || (heads.any fun h => s.on (DS_CTL_MODE h) && s.devState != 6 && !(s.dsKept h).isEmpty) then
    s.setVal DS_TOL_NS 0
  else match (heads.filterMap s.dsTolMax).min? with
    | some m => (s.setVal DS_TOL_NS (s.freeNow % (m + 1))).useFree
    | none => (s.setVal DS_TOL_NS s.freeNow).useFree

/-! ### Link and AUX (R484, R485) -/

/-- Start training when the head is enabled and HPD is high. -/
def State.dsTrain (s : State) (h : Nat) : State :=
  if s.on (DS_CTL_ENABLE h) && s.on (DS_STATUS_HPD h) then
    s.modHead h fun x => { x with training := true, retry := none }
  else s

/-- The head's own AUX transaction ends: a host transaction that waited starts (R485). -/
def State.auxFree (s : State) (h : Nat) : State :=
  s.modHead h fun x => { x with
    training := false, auxWait := false, auxAt := if x.auxWait then s.now else x.auxAt }

/-- DS_HPD_RISE. -/
def execDsHpdRise (h : Fin 2) (s : State) : Host.Outcome State Fault Refusal :=
  .next ((s.put (DS_STATUS_HPD h) 1).dsTrain h)

/-- DS_HPD_FALL (R484): TRAINED clears and the lanes stop. -/
def execDsHpdFall (h : Fin 2) (s : State) : Host.Outcome State Fault Refusal :=
  .next ((((s.put (DS_STATUS_HPD h) 0).put (DS_STATUS_TRAINED h) 0).auxFree h).modHead h fun x => { x with retry := none })

/-- DS_IRQ_HPD (R484): the head reads the sink's link status and retrains when lock is lost. -/
def State.irqHpd (s : State) (h : Nat) (lost : Bool) : State :=
  if s.on (DS_STATUS_HPD h) && s.on (DS_CTL_ENABLE h) && s.on (DS_STATUS_TRAINED h) && lost then
    (s.put (DS_STATUS_TRAINED h) 0).dsTrain h
  else s

def execDsIrqHpd (h : Fin 2) (lost : Bool) (s : State) : Host.Outcome State Fault Refusal := .next (s.irqHpd h lost)

/-- DS_LINK_TRAINING_DONE (R484). -/
def State.trainDone (s : State) (h : Nat) (ok : Bool) : State :=
  if !(s.dsHead h).training then s
  else if ok then (s.auxFree h).put (DS_STATUS_TRAINED h) 1
  else
    let s := (s.auxFree h).modHead h fun x => { x with retry := some (tAdd s.now (usTicks 100000)) }
    (s.put (DS_STATUS_TRAINED h) 0).raiseAlarm 15 .display h

def execDsLinkTrainingDone (h : Fin 2) (ok : Bool) (s : State) : Host.Outcome State Fault Refusal := .next (s.trainDone h ok)

/-- DS_TRAIN_RETRY (R484): 100 ms after a failed training. -/
def State.trainRetry (s : State) (h : Nat) : State :=
  match (s.dsHead h).retry with
  | some t => if tLe t s.now then s.dsTrain h else s
  | none => s

def execDsTrainRetry (h : Fin 2) (s : State) : Host.Outcome State Fault Refusal := .next (s.trainRetry h)

/-- A write of DS_AUX_CMD_h: with GO it starts a transaction, or is refused with 05F0h while one is in progress (R485). -/
def State.auxCmdWrite (s : State) (h v : Nat) : State × Nat :=
  if bits v 31 31 = 0 then (s.plainWrite (DS_AUX_CMD h) v, 0)
  else if s.on (DS_AUX_STAT_BUSY h) then s.answer (DS_CTL_REASON h) 0x05F0
  else
    let s := (s.plainWrite (DS_AUX_CMD h) v).put (DS_AUX_CMD_GO h) 0
    let s := s.setVal (DS_AUX_STAT h) 1
    (s.modHead h fun x => { x with auxWait := x.training, auxAt := s.now }, 0)

def execDsAuxGo (p : Fin 5) (h : Fin 2) (v : Word) (s : State) : Host.Outcome State Fault Refusal :=
  .next (s.gatedWrite p (DS_AUX_CMD h) fun s => s.auxCmdWrite h (setBits v.toNat 31 31 1))

/-- The host's transaction runs. -/
def State.auxRuns (s : State) (h : Nat) : Bool := s.on (DS_AUX_STAT_BUSY h) && !(s.dsHead h).auxWait

/-- DS_AUX_REPLY (R485): the reply command, and the bytes of a read in DS_AUX_DATA. -/
def State.auxReply (s : State) (h reply : Nat) (data : List Byte) : State :=
  if s.auxRuns h then
    let s := s.setVal (DS_AUX_STAT h) (16 * reply)
    s.each (upto ((min data.length 16 + 3) / 4)) fun s n =>
      s.setVal (DS_AUX_DATA h n) (fromLe (((data.take 16).drop (4 * n)).take 4))
  else s

def execDsAuxReply (h : Fin 2) (reply : Fin 16) (data : List Byte) (s : State) : Host.Outcome State Fault Refusal :=
  .next (s.auxReply h reply data)

/-- DS_AUX_TIMEOUT (R485): 400 us without reply. -/
def State.auxTimeout (s : State) (h : Nat) : State :=
  if s.auxRuns h && tLe (tAdd (s.dsHead h).auxAt (usTicks 400)) s.now then s.setVal (DS_AUX_STAT h) 2 else s

def execDsAuxTimeout (h : Fin 2) (s : State) : Host.Outcome State Fault Refusal := .next (s.auxTimeout h)

/-! ### Enabling (R492, R501, R502) -/

/-- Settings out of range (R502, 01F0h). -/
def State.dsBad (s : State) (h : Nat) : Bool :=
  let ha := s.get (DS_HTIM_ACTIVE h)
  let va := s.get (DS_VTIM_ACTIVE h)
  let ht := s.get (DS_HTIM_TOTAL h)
  let vt := s.get (DS_VTIM_TOTAL h)
  let sync := decide (ht - ha < s.get (DS_HSYNC_FRONT h) + s.get (DS_HSYNC_WIDTH h))
    || decide (vt - va < s.get (DS_VSYNC_FRONT h) + s.get (DS_VSYNC_WIDTH h))
  let pclk := decide (s.get (DS_PCLK_KHZ h) < 25000) || decide (600000 < s.get (DS_PCLK_KHZ h))
  let layer := (s.dsOn h).any fun l =>
    decide (s.get (DS_L_SCALE_STEP h l) < 16) || decide (2 ≤ s.get (DS_L_CTL_MAP h l))
      || decide (ha < s.get (DS_L_POS_X h l) + s.get (DS_L_SIZE_W h l))
      || decide (va < s.get (DS_L_POS_Y h l) + s.get (DS_L_SIZE_H h l))
  s.get (DS_LINK_LANES h) = 3 || decide (ht ≤ ha) || decide (vt ≤ va) || sync || decide (3840 < ha) || decide (2160 < va)
    || pclk || decide (s.get (DS_WM_HI_WM h) ≤ s.get (DS_WM_LO_WM h)) || layer

/-- Link rate in kb/s of one lane (Table DS-4). -/
def dsLinkRate (code : Nat) : Nat :=
  if code = 0 then 1620000 else if code = 1 then 2700000 else if code = 2 then 5400000 else 8100000

/-- Allocate the surfaces of some layers in order; none where one does not fit (R492). -/
def State.dsAlloc (s : State) (h : Nat) : List Nat → State × Nat
  | [] => (s, 0)
  | l :: t =>
    let c := s.allocCheck .display (s.dsMib h l)
    if c = 0 then (s.alloc .display (4 * h + l) (s.dsMib h l)).dsAlloc h t else (s, c)

/-- The checks of R502, in the order it gives, then the switch port of R43. -/
def State.dsCheck (s : State) (h : Nat) : Nat :=
  let k := s.get (DS_FREEZE_K h)
  firstFail [
    (s.dsBad h, 0x01F0),
    (decide (k < 2), 0x01F1),
    (decide (8 * 2 ^ s.get (DS_LINK_LANES h) * dsLinkRate (s.get (DS_LINK_RATE h)) < 240 * s.get (DS_PCLK_KHZ h)), 0x02F1),
    (!(s.on (DS_CTL_MODE h)) && s.dsFast h (s.dsOn h), 0x02F0),
    ((s.dsSources h).any fun x => !(s.dsSourceOk x), 0x03F0),
    (s.trafficOver (s.dsTraffic h), 0x020A),
    ((s.dsAlloc h (s.dsOn h)).2 != 0, (s.dsAlloc h (s.dsOn h)).2),
    ((s.tieAll (s.dsStreams h)).isNone, 0x020D)]

/-- Base address of a layer's surface (or of its first half). -/
def State.dsBase (s : State) (h l : Nat) : Nat := s.allocBase .display (4 * h + l)

/-- A head starts: surfaces, traffic, AUTO contexts (R490), training. -/
def State.dsStart (s : State) (h : Nat) : State :=
  let s := (s.tieAll (s.dsStreams h)).getD s
  let s := (s.dsAlloc h (s.dsOn h)).1.setTraffic .display (4 * h) (s.dsTraffic h)
  let s := s.each (s.dsOn h) fun s l => s.setPair (DS_L_SURF_LO h l) (DS_L_SURF_HI h l) (s.dsBase h l)
  let s := s.each (s.dsSources h) fun s x => s.ctxAutoLocal (BitVec.ofNat 16 x.2) 2 h
  let s := s.modHead h fun x => { x with layers := [], traces := [], redraw := false, palNew := true, inFrame := false }
  ((s.put (DS_STATUS_RUNNING h) 1).dsTrain h).showTol

/-- A head stops and frees what it held. -/
def State.dsStop (s : State) (h : Nat) : State :=
  let s := s.each (upto 4) fun s l => s.free .display (4 * h + l)
  let s := ((s.setTraffic .display (4 * h) 0).freePort 15 (sid 14 h)).freePort 31 (sid 14 h)
  let s := s.each (s.dsSources h) fun s x =>
    match s.ctxs.find? fun c => s.on (KH_SC_CTL_AUTO c) && s.ctxHive c = s.khAddr && (s.ctxStream c).toNat = x.2
        && s.get (KH_SC_SINK_KIND c) = 2 && s.get (KH_SC_SINK_INDEX c) = h with
    | some c => s.ctxClose c
    | none => s
  let s := ((s.put (DS_STATUS_RUNNING h) 0).put (DS_STATUS_TRAINED h) 0).put (DS_STATUS_BLANKED h) 0
  ((s.auxFree h).modHead h fun x => { x with retry := none, inFrame := false }).showTol

/-- A write of DS_CTL_h (R501, R502). -/
def State.dsCtlWrite (s : State) (h v : Nat) : State × Nat :=
  s.enableWrite (DS_CTL h) v (DS_CTL_ENABLE h) (DS_CTL_REASON h)
    (fun s => if s.on (DS_CTL_ENABLE h) then 0x07F0 else 0) (fun s => s.dsCheck h) (fun s => s.dsStart h)
    (fun s => s.dsStop h)

def execDsHeadEnable (p : Fin 5) (h : Fin 2) (v : Word) (s : State) : Host.Outcome State Fault Refusal :=
  .next (s.gatedWrite p (DS_CTL h) fun s => s.dsCtlWrite h v.toNat)

/-- A write of another register of head h (R501): LIVE, DS_FREEZE, DS_BG and the AUX data may change while it runs. -/
def State.dsSetWrite (s : State) (name : RegName) (h l a v : Nat) : State × Nat :=
  let layer := name = .DS_L_CTL || name = .DS_L_POS || name = .DS_L_SIZE || name = .DS_L_SRC || name = .DS_L_SCALE
  let rf := if layer then DS_L_CTL_REASON h l else DS_CTL_REASON h
  let chg := s.changes a v
  let lk := if name = .DS_L_CTL then chg &&& 0xD else if name = .DS_FREEZE || name = .DS_BG then 0 else chg
  if name = .DS_AUX_DATA then (s.plainWrite a v, 0)
  else if name = .DS_LINK && bits v 3 2 = 3 then s.answer rf 0x01F0
  else if name = .DS_L_CTL && decide (2 ≤ bits v 3 2) then s.answer rf 0x01F0
  else if s.on (DS_CTL_ENABLE h) && lk != 0 then s.answer rf 0x07F0
  else
    let s := s.plainWrite a v
    (if layer then s.put rf 0 else s, 0)

/-! ### Palettes (R487) -/

/-- Palette entry i at reset: entry 0 transparent, entry i the grey i * 010101h. -/
def palReset (k : Nat) : Word := if k % 256 = 0 then 0x1000000 else BitVec.ofNat 32 (k % 256 * 0x10101)

/-- The entry DS_PAL_ADDR points at. -/
def State.palAt (s : State) (h : Nat) : Nat := 256 * s.get (DS_PAL_ADDR_LAYER h) + s.get (DS_PAL_ADDR_I h)

/-- Each access of DS_PAL_DATA advances I, wrapping within the layer. -/
def State.palNext (s : State) (h : Nat) : State := s.put (DS_PAL_ADDR_I h) (s.get (DS_PAL_ADDR_I h) + 1)

/-- A read and a write of DS_PAL_DATA_h. -/
def State.palRead (s : State) (h : Nat) : State × Word :=
  (s.palNext h, kvGetD (s.dsHead h).palS (s.palAt h) (palReset (s.palAt h)))

def State.palWrite (s : State) (h v : Nat) : State × Nat :=
  let k := s.palAt h
  ((s.modHead h fun x => { x with
    palS := kvSetD (palReset k) x.palS k (BitVec.ofNat 32 (v % 2 ^ 25)), palNew := true }).palNext h, 0)

/-- DS_PAL_DATA_ACCESS: a write with a value, a read without one. -/
def execDsPalDataAccess (p : Fin 5) (h : Fin 2) (v : Option Word) (s : State) : Host.Outcome State Fault Refusal :=
  .next (match v with
    | some w => s.gatedWrite p (DS_PAL_DATA h) fun s => s.palWrite h w.toNat
    | none => s.readOut p (DS_PAL_DATA h) fun s => s.palRead h)

/-- An entry that is shown: its colour, none when transparent. -/
def DsHead.color (x : DsHead) (l i : Nat) : Option Nat :=
  let w := (kvGetD x.pal (256 * l + i) (palReset (256 * l + i))).toNat
  if bits w 24 24 = 1 then none else some (w % 2 ^ 24)

/-! ### Device-written surfaces (R488, R489) -/

/-- HS adopts the epochs that frames announce and fences a frame of another epoch (R32, R582, R583): whether one was fenced. -/
def State.dsFence (s : State) (fs : List Frame) : State × Bool :=
  fs.foldl (fun a f =>
    let s := a.1.takeEpochs 15 f
    if s.stale 15 f then (s.fence 15 f.stream, true) else (s, a.2)) (s, false)

/-- Count of plane column `c`, row `r` in a snapshot's frames (R222). -/
def densCount (fs : List Frame) (c r : Nat) : Nat :=
  match fs.find? fun f => fromLe ((f.payload.drop 4).take 2) = c / 32 * 32 with
  | some f => fromLe ((f.payload.drop (16 + 2 * (c % 32 * 512 + r))).take 2)
  | none => 0

/-- All 64 frames of one snapshot have arrived. -/
def densWhole (fs : List Frame) : Bool :=
  (upto 64).all (fun k => fs.any fun f => fromLe ((f.payload.drop 4).take 2) = 32 * k)
    && fs.all fun f => f.payload.take 4 = ((fs.head?.map fun g => g.payload).getD []).take 4

/-- Palette index of a count (R488): LOG min(255, ⌊16 log2(c + 1)⌋), LINEAR min(255, c >> SHIFT). -/
def densIndex (linear : Bool) (shift c : Nat) : Nat :=
  min 255 (if linear then c >>> shift else Nat.log2 ((c + 1) ^ 16))

/-- Largest of a list of numbers. -/
def maxOf (l : List Nat) : Nat := l.foldl Nat.max 0

/-- Numbers a to b. -/
def span (a b : Nat) : List Nat := (upto (b + 1 - a)).map fun k => a + k

/-- Index of pixel (x, y) of a density surface of w by h pixels (R488). -/
def densPixel (fs : List Frame) (linear : Bool) (shift w h x y : Nat) : Nat :=
  let cols := span (x * 2048 / w) (ceilDiv ((x + 1) * 2048) w - 1)
  let rows := span (512 - ceilDiv ((y + 1) * 512) h) (511 - y * 512 / h)
  maxOf (cols.flatMap fun c => rows.map fun r => densIndex linear shift (densCount fs c r))

/-- DS_DENS_SNAPSHOT (R488): a complete snapshot is written into the back surface. -/
def State.dsDens (s : State) (h : Nat) (fs : List Frame) : State :=
  let mine := s.on (DS_STATUS_RUNNING h) && s.on (DS_L_CTL_ON h 0)
    && fs.all fun f => f.stream.toNat = s.get (DS_L_SRC_STREAM h 0)
  if !mine then s
  else
    let g := s.dsFence fs
    if g.2 || !(densWhole fs) then g.1
    else
      let w := s.get (DS_L_SIZE_W h 0)
      let ht := s.get (DS_L_SIZE_H h 0)
      let lin := s.get (DS_L_CTL_MAP h 0) = 1
      let px := (upto (w * ht)).map fun k =>
        BitVec.ofNat 8 (densPixel fs lin (s.get (DS_L_SCALE_SHIFT h 0)) w ht (k % w) (k / w))
      let back := s.dsBase h 0 + (if (s.dsLayer h 0).half then 0 else w * ht)
      (g.1.memWrite back px).modLayer h 0 fun x => { x with swap := true }

def execDsDensSnapshot (h : Fin 2) (fs : List Frame) (s : State) : Host.Outcome State Fault Refusal := .next (s.inIsland 15 fun s => s.dsDens h fs)

/-- The values of an integration's slices, in order (R216). -/
def specValues (fs : List Frame) : List Word :=
  fs.flatMap fun f =>
    let mode := fromLe ((f.payload.drop 6).take 1)
    let n := min (2 ^ fromLe ((f.payload.drop 7).take 1)) 8192 / 2 ^ bits mode 4 2
    (upto n).map fun k => BitVec.ofNat 32 (fromLe ((f.payload.drop (24 + 4 * k)).take 4))

/-- A binary32 NaN. -/
def f32IsNaN (v : Word) : Bool := bits v.toNat 30 23 = 255 && bits v.toNat 22 0 != 0

/-- v is at or above 10^(e/2560): v^2560 ≥ 10^e, exactly; an infinity of positive sign is above every level. -/
def atLevel (v : Word) (e : Int) : Bool :=
  if bits v.toNat 30 23 = 255 then bits v.toNat 31 31 = 0
  else
    let x := f32Num v
    if x.num ≤ 0 then false
    else
      let n := x.num.natAbs ^ 2560
      let d := x.den ^ 2560
      if 0 ≤ e then decide (d * 10 ^ e.toNat ≤ n) else decide (d ≤ n * 10 ^ (-e).toNat)

/-- Bisection for the largest level k from lo to hi that `v` reaches, lo being taken as reached. -/
def levelBis (v : Word) (floor : Int) (step : Nat) : Nat → Nat → Nat → Nat
  | 0, lo, _ => lo
  | n + 1, lo, hi =>
    if hi ≤ lo then lo
    else
      let m := (lo + hi + 1) / 2
      if atLevel v (160 * floor + 10 * (step : Int) * m) then levelBis v floor step n m hi else levelBis v floor step n lo (m - 1)

/-- min(max(n, 0), limit) of the level n = ⌊(10 log10 v − FLOOR/16)/(STEP/256)⌋ (R489): v reaches level k when
v^2560 ≥ 10^(16 FLOOR + k STEP). -/
def specLevel (v : Word) (floor : Int) (step limit : Nat) : Nat := levelBis v floor step 17 0 limit

/-- Order of binary32 values that are no NaN. -/
def f32Lt (a b : Word) : Bool :=
  let inf (v : Word) : Int := if bits v.toNat 30 23 = 255 then (if bits v.toNat 31 31 = 1 then -1 else 1) else 0
  if inf a != 0 || inf b != 0 then decide (inf a < inf b) else ratioLt (f32Num a) (f32Num b)

/-- Largest of some values, NaNs left out unless all are (assumption 26). -/
def f32Max (l : List Word) : Word :=
  (l.filter fun v => !(f32IsNaN v)).foldl (fun a v => if f32IsNaN a || f32Lt a v then v else a) f32NaN

/-- The value shown at pixel x of a line of w pixels (R489). -/
def linePixel (vs : List Word) (w x : Nat) : Word :=
  let n := vs.length
  let a := x * n / w
  f32Max ((vs.drop a).take (max a (ceilDiv ((x + 1) * n) w - 1) + 1 - a))

/-- A spectrogram line (R489). -/
def State.specLine (s : State) (h : Nat) (vs : List Word) : List Nat :=
  let w := s.get (DS_L_SIZE_W h 1)
  (upto w).map fun x =>
    let v := linePixel vs w x
    if f32IsNaN v then 0
    else max 2 (specLevel v (s.getS (DS_L_SCALE_FLOOR h 1)) (s.get (DS_L_SCALE_STEP h 1)) 255)

/-- Rows of a trace by column (R489); a column whose value is a NaN has a free row. -/
def State.traceRows (s : State) (h : Nat) (vs : List Word) : List Nat :=
  let w := s.get (DS_L_SIZE_W h 2)
  let ht := s.get (DS_L_SIZE_H h 2)
  (upto w).map fun x =>
    let v := linePixel vs w x
    if f32IsNaN v then (Config.freeBits (s.freshCount + x)).toNat % (max 1 ht)
    else ht - 1 - specLevel v (s.getS (DS_L_SCALE_FLOOR h 2)) (s.get (DS_L_SCALE_STEP h 2)) (ht - 1)

/-- DS_SPEC_INTEGRATION (R489): the slices of an integration, or a gap record, of a source. -/
def State.dsSpec (s : State) (h : Nat) (x : Sum (List Frame) GapRec) : State :=
  let g := match x with
    | .inl fs => s.dsFence fs
    | .inr _ => (s, false)
  let id := match x with
    | .inl fs => (fs.head?.map fun f => f.stream.toNat).getD 0
    | .inr r => r.stream.toNat
  if !(s.on (DS_STATUS_RUNNING h)) then s
  else if g.2 then g.1
  else
    let s := if s.on (DS_L_CTL_ON h 1) && s.get (DS_L_SRC_STREAM h 1) = id then
        let line := match x with
          | .inl fs => s.specLine h (specValues fs)
          | .inr _ => List.replicate (s.get (DS_L_SIZE_W h 1)) 1
        s.modLayer h 1 fun y => { y with lines := y.lines ++ [line] }
      else s
    match x with
    | .inr _ => s
    | .inl fs =>
      if s.on (DS_L_CTL_ON h 2) then
        s.each ((s.dsTraces h).filter fun k => s.get (DS_TR_STREAM h k) = id) fun s k =>
          (s.modHead h fun y => { y with
            traces := kvPut y.traces k (s.traceRows h (specValues fs)), redraw := true }).useFrees (s.get (DS_L_SIZE_W h 2))
      else s

def execDsSpecIntegration (h : Fin 2) (x : Sum (List Frame) GapRec) (s : State) : Host.Outcome State Fault Refusal :=
  .next (s.inIsland 15 fun s => s.dsSpec h x)

/-- Row r of column x lies on a trace: its own row, or the vertical run from the column before. -/
def onTrace (rows : List Nat) (x r : Nat) : Bool :=
  let b := rows.getD x 0
  let a := if x = 0 then b else rows.getD (x - 1) b
  decide (min a b ≤ r) && decide (r ≤ max a b)

/-- The redrawn trace surface: higher traces over lower ones, all else 0. -/
def State.traceSurface (s : State) (h : Nat) : List Byte :=
  let w := s.get (DS_L_SIZE_W h 2)
  (upto (s.dsBytes h 2)).map fun k =>
    let v := (s.dsHead h).traces.foldl (fun a t =>
      if s.on (DS_TR_ON h t.1) && onTrace t.2 (k % w) (k / w) then s.get (DS_TR_INDEX h t.1) else a) 0
    BitVec.ofNat 8 v

/-! ### Frames (R486, R491, R497 to R499) -/

/-- The parts of capture memory that hold a layer's surface, in raster order. -/
def State.dsParts (s : State) (h l : Nat) : List (Nat × Nat) :=
  let n := s.dsBytes h l
  let x := s.dsLayer h l
  if l = 0 then [(s.dsBase h 0 + (if x.half then n else 0), n)]
  else if l = 1 then
    let a := x.top * s.get (DS_L_SIZE_W h l)
    [(s.dsBase h 1 + a, n - a), (s.dsBase h 1, a)]
  else [(s.dsBase h l, n)]

/-- Fetch a layer's surface: its bytes in raster order. -/
def State.dsFetch (s : State) (h l : Nat) : State × List Byte :=
  (s.dsParts h l).foldl (fun a p =>
    let r := a.1.memFetch p.1 p.2
    (r.1, a.2 ++ r.2.1)) (s, [])

/-- Composed colour of active pixel (px, py) (R486). -/
def State.dsPixel (s : State) (h px py : Nat) : Nat :=
  let pos := py * s.get (DS_HTIM_ACTIVE h) + px
  let hd := s.dsHead h
  (upto 4).foldl (fun c l =>
    let x := kvGetD hd.layers l {}
    let X := s.get (DS_L_POS_X h l)
    let Y := s.get (DS_L_POS_Y h l)
    let w := s.get (DS_L_SIZE_W h l)
    let covers := decide (X ≤ px) && decide (px < X + w) && decide (Y ≤ py) && decide (py < Y + s.get (DS_L_SIZE_H h l))
    let cut := match x.cut with
      | some p => decide (p ≤ pos)
      | none => false
    match x.seen with
    | some bs =>
      if covers && !cut then (hd.color l (bs.getD ((py - Y) * w + (px - X)) 0).toNat).getD c else c
    | none => c) (s.get (DS_BG_RGB h))

/-- Signature of the composed frame (R498): the 24-bit pixels in raster order, least significant byte first. -/
def State.dsOutSig (s : State) (h : Nat) : Nat :=
  let ha := s.get (DS_HTIM_ACTIVE h)
  crc32c ((upto (ha * s.get (DS_VTIM_ACTIVE h))).flatMap fun k => leBytes 3 (s.dsPixel h (k % ha) (k / ha)))

/-- A recorded signature of layer l, and freeze (R499). -/
def State.layerSig (s : State) (h l sig : Nat) : State :=
  let x := s.dsLayer h l
  let same := x.sig = some sig
  let run := if same then x.run + 1 else 1
  let raised := same && x.raised
  let s := s.setVal (DS_L_SIG h l) sig
  let raise := s.on (DS_L_CTL_LIVE h l) && !raised && decide (s.get (DS_FREEZE_K h) ≤ run)
  let s := s.modLayer h l fun x => { x with sig := some sig, run := run, raised := raised || raise }
  if raise then
    ((s.put (DS_STATUS_FREEZE h) 1).count (DS_L_FREEZES h l) 1).raiseAlarm 15 .display (256 * l + h)
  else s

/-- The frame in progress ends: signatures of its layers and of the composed output. An overlay that changed during the
frame was fetched partly before and partly after: its signature and the output's are free. -/
def State.frameEnd (s : State) (h : Nat) : State :=
  let shown := (upto 4).filter fun l => (s.dsLayer h l).seen.isSome
  let torn := shown.contains 3 && (s.dsLayer h 3).seen != some (s.dsFetch h 3).2
  let out := if torn then s.freeNow else s.dsOutSig h
  let s := (s.setVal (DS_OUT_SIG h) out).useFrees (if torn then 1 else 0)
  s.each (shown.filter fun l => (s.dsLayer h l).cut.isNone) fun s l =>
    let sig := if l = 3 && torn then s.freeNow % 2 ^ 32 else crc32c ((s.dsLayer h l).seen.getD [])
    (s.useFrees (if l = 3 && torn then 1 else 0)).layerSig h l sig

/-- Surface changes and palettes become visible (R487, R491). -/
def State.frameSwap (s : State) (h : Nat) : State :=
  let s := s.modLayer h 0 fun x => { x with half := x.half != x.swap, swap := false }
  let w := s.get (DS_L_SIZE_W h 1)
  let ht := max 1 (s.get (DS_L_SIZE_H h 1))
  let s := s.each (s.dsLayer h 1).lines fun s line =>
    let top := ((s.dsLayer h 1).top + ht - 1) % ht
    (s.memWrite (s.dsBase h 1 + top * w) (line.map (BitVec.ofNat 8))).modLayer h 1 fun x => { x with top := top }
  let s := s.modLayer h 1 fun x => { x with lines := [] }
  let s := if (s.dsHead h).redraw then s.memWrite (s.dsBase h 2) (s.traceSurface h) else s
  s.modHead h fun x => { x with redraw := false, pal := x.palS, palNew := false }

/-- DS_FRAME_START (R491, R496, R497); a head whose block has failed shows nothing more (R589). -/
def State.frameStart (s : State) (h : Nat) : State :=
  if !(s.on (DS_STATUS_RUNNING h)) || !(s.dutyUp 15 (16 + h)) then s
  else
    let s := if (s.dsHead h).inFrame then s.frameEnd h else s
    let s := s.frameSwap h
    let kept := s.dsKept h
    let s := s.each (upto 4) fun s l =>
      if kept.contains l then
        let r := s.dsFetch h l
        r.1.modLayer h l fun x => { x with cut := none, seen := some r.2 }
      else s.modLayer h l fun x => { x with cut := none, seen := none }
    let want := (s.dsOn h).filter fun l => bits (s.get (DS_CTL_WATCH_LAYERS h)) l l = 1
    let s := s.put (DS_STATUS_BLANKED h) (if s.devState = 6 && s.dsFast h want then 1 else 0)
    ((s.modHead h fun x => { x with inFrame := true }).count (DS_FRAMES h) 1).showTol

def execDsFrameStart (h : Fin 2) (s : State) : Host.Outcome State Fault Refusal := .next (s.frameStart h)

/-- DS_UNDERRUN (R497): the data of layer l for the pixel at raster position `pos` is missing. -/
def State.underrun (s : State) (h l pos : Nat) : State :=
  let x := s.dsLayer h l
  if s.on (DS_STATUS_RUNNING h) && (s.dsHead h).inFrame && x.seen.isSome && x.cut.isNone then
    ((s.modLayer h l fun x => { x with cut := some pos }).count (DS_L_UNDERRUN h l) 1).put (DS_STATUS_UNDERRUN h) 1
  else s

def execDsUnderrun (h : Fin 2) (l : Fin 4) (pos : BitVec 24) (s : State) : Host.Outcome State Fault Refusal :=
  .next (s.underrun h l pos.toNat)

end Sys2Proof.Machine
end

