-- ==== Sys2Proof/Machine/Protect.lean ====
section
/-! DEFINITION. Machine/Protect.lean: the protection map (R528 to R538) and the alarm commands (R548, R549). Accessor 5 is
the setup record (R535). -/

namespace Sys2Proof.Machine

/-- OWNER and STAGED of PROT_COMMIT (Table CP-11). -/
def State.showStage (s : State) : State :=
  let o := match s.prot.owner with
    | .none => 15
    | .path p => p
    | .record => 14
  (s.put PROT_COMMIT_OWNER o).put PROT_COMMIT_STAGED (if s.prot.staged = s.prot.active then 0 else 1)

/-- The accessor is the stage's owner. -/
def StageOwner.isOwner (o : StageOwner) (p : Nat) : Bool :=
  match o with
  | .none => false
  | .path q => q = p
  | .record => p = 5

/-- Somebody else owns the stage. -/
def State.stageHeld (s : State) (p : Nat) : Bool := s.prot.owner != .none && !(s.prot.owner.isOwner p)

/-- An access to a PROT register by the owner (R535). -/
def State.protTouch (s : State) (p : Nat) : State :=
  if s.prot.owner.isOwner p then { s with prot := { s.prot with lastAccess := s.now } } else s

/-- Give up the stage; staged copies not in force revert. -/
def State.stageRevert (s : State) : State :=
  ({ s with prot := { s.prot with staged := s.prot.active, owner := .none } } : State).showStage

/-- A staging write (R535): refused with 0502h when another accessor owns the stage; the first makes its path the owner. -/
def State.stageWrite (s : State) (p : Nat) (f : ProtSet → ProtSet) : State × Nat :=
  if s.stageHeld p then (s, 0x0502)
  else
    let o : StageOwner := if p = 5 then .record else .path p
    (({ s with prot := { s.prot with staged := f s.prot.staged, owner := o, lastAccess := s.now } } : State).showStage, 0)

/-- Value of a register of the set (Table CP-11); `j` is its index. -/
def ProtSet.value (m : ProtSet) (name : RegName) (j : Nat) : Nat :=
  match name with
  | .PROT_PATH_DOMAIN => m.pathDomain.toNat
  | .PROT_CM_DEFAULT => m.cmDefault.toNat
  | .PROT_VOL_DEFAULT => m.volDefault.toNat
  | .PROT_CW_BASE => (kvGetD m.cwBase j 0).toNat
  | .PROT_CW_SIZE => (kvGetD m.cwSize j 0).toNat
  | .PROT_CW_ACC => (kvGetD m.cwAcc j 9).toNat
  | .PROT_VOL_ID => (kvGetD m.volId j 0).toNat
  | .PROT_VOL_ACC => (kvGetD m.volAcc j 9).toNat
  | _ => 0

/-- The set with a register of it written. -/
def ProtSet.set (m : ProtSet) (name : RegName) (j v : Nat) : ProtSet :=
  match name with
  | .PROT_PATH_DOMAIN => { m with pathDomain := BitVec.ofNat 10 (768 + v % 256) }
  | .PROT_CM_DEFAULT => { m with cmDefault := BitVec.ofNat 4 v }
  | .PROT_VOL_DEFAULT => { m with volDefault := BitVec.ofNat 4 v }
  | .PROT_CW_BASE => { m with cwBase := kvSetD 0 m.cwBase j (BitVec.ofNat 32 v) }
  | .PROT_CW_SIZE => { m with cwSize := kvSetD 0 m.cwSize j (BitVec.ofNat 32 v) }
  | .PROT_CW_ACC => { m with cwAcc := kvSetD 9 m.cwAcc j (BitVec.ofNat 4 v) }
  | .PROT_VOL_ID => { m with volId := kvSetD 0 m.volId j (BitVec.ofNat 32 v) }
  | .PROT_VOL_ACC => { m with volAcc := kvSetD 9 m.volAcc j (BitVec.ofNat 4 v) }
  | _ => m

/-- The register is one of the set. -/
def stagedName (name : RegName) : Bool :=
  name = .PROT_PATH_DOMAIN || name = .PROT_CM_DEFAULT || name = .PROT_VOL_DEFAULT || name = .PROT_CW_BASE
    || name = .PROT_CW_SIZE || name = .PROT_CW_ACC || name = .PROT_VOL_ID || name = .PROT_VOL_ACC

/-- The page-map word that starts at page `g` (a multiple of 8). -/
def ProtSet.pageWord (m : ProtSet) (g : Nat) : Nat :=
  (upto 8).foldl (fun a i => a + (kvGetD m.pages (g + i) 9).toNat * 16 ^ i) 0

/-- The set with 8 page entries written. -/
def ProtSet.setPages (m : ProtSet) (g v : Nat) : ProtSet :=
  (upto 8).foldl (fun m i => { m with pages := kvSetD 9 m.pages (g + i) (BitVec.ofNat 4 (bits v (4 * i + 3) (4 * i))) }) m

/-- The copies that reads show (R552). -/
def State.protView (s : State) : ProtSet := if s.on PROT_COMMIT_VIEW then s.prot.active else s.prot.staged

/-- First page of the word PROT_PG_ADDR points at. -/
def State.pageAt (s : State) : Nat := s.get PROT_PG_ADDR_PAGE / 8 * 8

/-- Each access of PROT_PG_DATA advances PAGE by 8. -/
def State.pageNext (s : State) : State := s.put PROT_PG_ADDR_PAGE (s.get PROT_PG_ADDR_PAGE + 8)

/-- A read of a PROT register by accessor p. -/
def State.protRead (s : State) (p : Nat) (name : RegName) (j a : Nat) : State × Word :=
  let s := s.protTouch p
  if name = .PROT_PG_DATA then (s.pageNext, BitVec.ofNat 32 (s.protView.pageWord s.pageAt))
  else if stagedName name then (s, BitVec.ofNat 32 (s.protView.value name j))
  else s.plainRead a

/-- An entry's minimum is the reserved 00b (R529). -/
def badEntry (e : BitVec 4) : Bool := readMin e.toNat = 0 || writeMin e.toNat = 0

/-- Why a COMMIT is refused (R537); 0 when it is not. -/
def ProtSet.commitCheck (m : ProtSet) : Nat :=
  let dom (p : Nat) : Nat := bits m.pathDomain.toNat (2 * p + 1) (2 * p)
  let bad := badEntry m.cmDefault || badEntry m.volDefault || (m.pages.any fun e => badEntry e.2)
    || (m.cwAcc.any fun e => badEntry e.2) || m.volAcc.any fun e => badEntry e.2
  let far := (upto 64).any fun w =>
    let n := (kvGetD m.cwSize w 0).toNat
    decide (0 < n) && decide (131072 < (kvGetD m.cwBase w 0).toNat + n)
  firstFail [(dom 0 != 3 && dom 1 != 3 && dom 2 != 3, 0x0301), (bad, 0x0101), (far, 0x0102)]

/-- COMMIT (R536, R537): with nothing staged it only gives up the stage. -/
def State.protCommit (s : State) : State × Nat :=
  if s.prot.staged = s.prot.active then (s.stageRevert.put PROT_COMMIT_REASON 0, 0)
  else
    let c := s.prot.staged.commitCheck
    if c != 0 then s.answer PROT_COMMIT_REASON c
    else
      let s : State := { s with prot := { s.prot with active := s.prot.staged, owner := .none } }
      (((s.count PROT_GEN 1).showStage).put PROT_COMMIT_REASON 0, 0)

/-- A write of PROT_COMMIT by accessor p (R535 to R537). -/
def State.protCtlWrite (s : State) (p v : Nat) : State × Nat :=
  let c := bits v 0 0 = 1
  let d := bits v 1 1 = 1
  if (c || d) && s.stageHeld p then (if c then s.answer PROT_COMMIT_REASON 0x0502 else (s, 0x0502))
  else if c && d then s.answer PROT_COMMIT_REASON 0x0105
  else
    let r := if c then s.protCommit else if d then (s.stageRevert, 0) else (s, 0)
    if r.2 = 0 then (r.1.put PROT_COMMIT_VIEW (bits v 3 3), 0) else r

/-- A write of a PROT register by accessor p. -/
def State.protWrite (s : State) (p : Nat) (name : RegName) (j a v : Nat) : State × Nat :=
  let s := s.protTouch p
  if name = .PROT_COMMIT then s.protCtlWrite p v
  else if name = .PROT_PG_DATA then
    let r := s.stageWrite p fun m => m.setPages s.pageAt v
    if r.2 = 0 then (r.1.pageNext, 0) else r
  else if stagedName name then s.stageWrite p fun m => m.set name j v
  else (s.plainWrite a v, 0)

/-- A write at a PROT address: no register there, no effect (R9). -/
def State.protWriteAt (s : State) (p a v : Nat) : State × Nat :=
  match findReg a with
  | some (r, _, i, _) => if isProt a then s.protWrite p r.name i a v else (s, 0)
  | none => (s, 0)

/-- PROT_STAGE_WRITE (R535): a write to a protection register at window 0 offset `o`. -/
def execProtStageWrite (p : Fin 5) (o : BitVec 12) (v : Word) (s : State) : Host.Outcome State Fault Refusal :=
  .next (s.gatedWrite p o.toNat fun s => s.protWriteAt p o.toNat v.toNat)

/-- PROT_COMMIT and PROT_DISCARD. -/
def execProtCommit (p : Fin 5) (v : Word) (s : State) : Host.Outcome State Fault Refusal :=
  .next (s.gatedWrite p PROT_COMMIT fun s => s.protWriteAt p PROT_COMMIT (setBits v.toNat 0 0 1))
def execProtDiscard (p : Fin 5) (s : State) : Host.Outcome State Fault Refusal :=
  .next (s.gatedWrite p PROT_COMMIT fun s => s.protWriteAt p PROT_COMMIT (2 + 8 * s.get PROT_COMMIT_VIEW))

/-- PROT_STAGE_EXPIRE (R535): 10 s without an access by the owner; it does not run for the record. -/
def State.stageExpire (s : State) : State :=
  match s.prot.owner with
  | .path _ => if tLe (tAdd s.prot.lastAccess (10 * 2 ^ 48)) s.now then s.stageRevert else s
  | _ => s

def execProtStageExpire (s : State) : Host.Outcome State Fault Refusal := .next s.stageExpire

/-! ### Alarms (R548, R549) -/

/-- The kind with a number. -/
def alarmKinds : List AlarmKind :=
  [.fenced, .reference, .event, .link, .hive, .memory, .media, .combine, .display, .image, .spare, .replace, .thermal,
    .notMasked, .calibration, .safe]

/-- ALARM_HOLD_EXPIRE (R549): 1 ms after the previous element, the held raises leave as one. -/
def State.holdExpire (s : State) (region : Nat) (a : AlarmKind) : State :=
  let h := kvGetD s.alarm.holds (alarmKey region a) {}
  match h.lastEmit with
  | some t => if h.count != 0 && tLe (tAdd t (usTicks 1000)) s.now then s.alarmElement region a h else s
  | none => s

def execAlarmHoldExpire (region a : Fin 16) (s : State) : Host.Outcome State Fault Refusal :=
  .next (s.holdExpire region (alarmKinds.getD a .fenced))

/-- A W1C write of REGION_ALARM_STATUS (R548): a level kind whose condition holds is raised again at once. -/
def State.alarmClear (s : State) (region v : Nat) : State :=
  let old := s.get (REGION_ALARM_STATUS_ALARMS region)
  let s := (s.put (REGION_ALARM_STATUS_ALARMS region) (old &&& (65535 - v % 65536))).updateAlarms
  s.each alarmKinds fun s a =>
    if bits (old &&& v) a.num a.num = 1 then
      match s.alarm.conds.find? fun c => c.region = region && c.kind = a with
      | some c => s.raiseAlarm region a c.arg c.reason
      | none => s
    else s

def execAlarmClear (p : Fin 5) (region : Fin 16) (v : BitVec 16) (s : State) : Host.Outcome State Fault Refusal :=
  .next (if region.val = 0 then s else s.gatedWrite p (REGION_ALARM_STATUS region) fun s => (s.alarmClear region v.toNat, 0))

end Sys2Proof.Machine
end

