-- ==== Sys2Proof/Machine/Image.lean ====
section
/-! DEFINITION. Machine/Image.lean: the binding image (chapter 17): checking and choosing a slot, the device record's use,
update sessions, fused keys and floors. -/

namespace Sys2Proof.Machine

def State.modIm (s : State) (f : ImSt → ImSt) : State := { s with im := f s.im }

/-- S of R505 and the largest image. -/
def State.slotSize (s : State) : Nat := (s.im.flashSize - 1048576) / 2 / 65536 * 65536
def State.imageMax (s : State) : Nat := min s.slotSize 67108864

/-- Bytes of slot i. -/
def State.slotOf (s : State) (i : Nat) : List Byte := kvGetD s.im.slotBytes i []

/-- The fuse floor (R514). -/
def State.fuseFloor (s : State) : Nat := s.im.floors.getLast?.getD 0

/-! ### The image (R507, R511) -/

/-- A field of an image. -/
def imgField (bs : List Byte) (o n : Nat) : Nat := fromLe ((bs.drop o).take n)

/-- An entry of the section table: type, offset, length, hash. -/
structure ImgSec where
  type : Nat
  off : Nat
  len : Nat
  hash : BitVec 384
  deriving DecidableEq, Repr

def imgSections (bs : List Byte) : List ImgSec :=
  (upto (imgField bs 7 1)).map fun k =>
    let o := 256 + 60 * k
    ⟨imgField bs o 1, imgField bs (o + 4) 4, imgField bs (o + 8) 4, BitVec.ofNat 384 (imgField bs (o + 12) 48)⟩

/-- Section types and counts of Table BI-3. -/
def imgTypesOk (l : List ImgSec) : Bool :=
  let n (t : Nat) : Nat := (l.filter fun x => x.type = t).length
  let once := 1 :: 0x20 :: (upto 8).map fun k => 0x10 + k
  (once.all fun t => n t = 1) && decide (n 0x21 ≤ 1) && decide (n 0x22 ≤ 1)
    && l.all fun x => once.contains x.type || x.type = 0x21 || x.type = 0x22

/-- Content of a section. -/
def imgContent (bs : List Byte) (x : ImgSec) : List Byte := (bs.drop x.off).take x.len

/-- A section's hash is right. -/
def imgHashOk (bs : List Byte) (x : ImgSec) : Bool := Config.sha384 (imgContent bs x) = x.hash

/-- The first failure of R511, in its order; 0 when the slot passes. -/
def State.slotCheck (s : State) (i : Nat) : Nat :=
  let bs := s.slotOf i
  let secs := imgSections bs
  let version := imgField bs 8 4
  let len := imgField bs 16 4
  let variant := if s.variant = .yn9616 then bits (imgField bs 20 1) 0 0 else bits (imgField bs 20 1) 1 1
  let key := kvGetD s.im.keys (imgField bs 6 1) {}
  let malformed := bs.take 4 != [0x59, 0x4E, 0x42, 0x49] || imgField bs 4 2 != 1
    || secs.isEmpty || decide (32 < secs.length) || !(imgTypesOk secs) || decide (s.imageMax < len) || decide (bs.length < len)
    || decide (len < 4096) || variant = 0
  let badKey := decide (3 < imgField bs 6 1) || key.revoked || key.hash != some (Config.sha384 ((bs.drop 32).take 97))
  let signed_ := bs.take 160 ++ (bs.drop 256).take 3840
  let badSig := !(Config.ecdsaP384 ((bs.drop 32).take 97) signed_ ((bs.drop 160).take 96))
  firstFail [
    (malformed, 0x0904), (badKey, 0x0901), (badSig, 0x0902),
    (decide (version < s.fuseFloor), 0x0903),
    (decide (version < s.devRec.lastBooted.toNat) && !s.devRec.rollback, 0x0907),
    (!(secs.all (imgHashOk bs)), 0x0905)]

/-! ### Choosing a slot (R512) -/

/-- Note the first rejection (R512). -/
def State.bootReject (s : State) (c : Nat) : State :=
  if s.get BI_STATUS_BOOT_REASON = 0 then s.put BI_STATUS_BOOT_REASON c else s

/-- Show the record's and the fuses' values. -/
def State.showImage (s : State) : State :=
  let blank := (upto 4).foldl (fun a k => if (kvGetD s.im.keys k {}).hash.isNone then a + 2 ^ k else a) 0
  (((s.setVal BI_LAST s.devRec.lastBooted.toNat).setVal BI_FLOOR s.fuseFloor).put BI_STATUS_FLOOR_USED s.im.floors.length).put
    BI_FUSE_STATE blank

/-- Entry to BIST from LOADER (R515, R592, R643): the repair record is restored, the regions read BIST, their synthesisers
start at the nominal frequency (R645). -/
def State.toBist (s : State) : State :=
  let s := s.restoreRecord
  let s := s.each (allRegions.drop 1) fun s k => if absentRegion s.variant k then s else s.put (REGION_STATE_STATE k) 3
  s.moveTo 3

/-- Slot i passed: its image boots. -/
def State.bootSlot (s : State) (i : Nat) (trial : Bool) : State :=
  let bs := s.slotOf i
  let v := imgField bs 8 4
  let rb := s.devRec.rollback
  let s := s.modIm fun m => { m with
    booted := some ⟨i, imgField bs 6 1, v, imgField bs 12 4, trial⟩, session := none }
  let s := ((s.put BI_STATUS_SLOT i).put BI_STATUS_ROLLBACK (if trial && rb then 1 else 0)).setVal BI_VERSION v
  s.showImage.toBist

/-- Entry 05h: the trial is abandoned. -/
def State.abandon (s : State) : State :=
  s.devAppend 5 fun r => { r with armed := false, attempted := false, rollback := false }

/-- Steps 4 to 6 of Table BI-5. -/
def State.bootActive (s : State) : State :=
  let a := s.devRec.active
  let c := s.slotCheck a
  if c = 0 then s.bootSlot a false
  else
    let s := s.bootReject c
    let o := 1 - a
    let c := s.slotCheck o
    if c = 0 then
      (s.devAppend 3 fun r => { r with
        active := o, lastBooted := BitVec.ofNat 32 (imgField (s.slotOf o) 8 4)
        armed := false, attempted := false, rollback := false }).bootSlot o false
    else s.bootReject c

/-- Steps 3 to 6 of Table BI-5. -/
def State.bootFrom3 (s : State) : State :=
  let r := s.devRec
  if r.armed && !r.attempted then
    let s := s.devAppend 2 fun r => { r with attempted := true }
    let o := 1 - r.active
    let c := s.slotCheck o
    if c = 0 then s.bootSlot o true
    else (((s.bootReject c).abandon).put BI_STATUS_FELL_BACK 1).bootActive
  else s.bootActive

/-- LOADER_SLOT_CHOICE (R504, R510, R512). `size`: the size of a supported flash in bytes, none for another flash. -/
def State.slotChoice (s : State) (size : Option Nat) : State :=
  if s.devState != 2 || s.im.booted.isSome || s.power.chipHeld then s
  else match size with
    | none => s.put BI_STATUS_BOOT_REASON 0x0906
    | some n =>
      if n < 33554432 || 536870912 < n then s.put BI_STATUS_BOOT_REASON 0x0906
      else
        let s := s.modIm fun m => { m with flashSize := n }
        let s := ((s.setReg ST_XO_AGE s.devRec.xoAge).put BI_STATUS_BOOT_REASON 0).showImage
        let r := s.devRec
        if r.holdNext then s.devAppend 6 fun r => { r with holdNext := false }
        else if r.armed && r.attempted then ((s.abandon).put BI_STATUS_FELL_BACK 1).bootActive
        else s.bootFrom3

def execLoaderSlotChoice (size : Option Word) (s : State) : Host.Outcome State Fault Refusal :=
  .next (s.slotChoice (size.map BitVec.toNat))

/-! ### At RUN (R513, R514) -/

/-- The confirmed image's floor is fused when it is above the fuse floor (R514). -/
def State.raiseFloor (s : State) (floor : Nat) : State :=
  if floor ≤ s.fuseFloor then s
  else if 96 ≤ s.im.floors.length then (s.put BI_STATUS_FLOOR_FULL 1).beginLevel 1 .image
  else if !s.ft.fuseVpp then s.put BI_STATUS_FLOOR_PENDING 1
  else (((s.modIm fun m => { m with floors := m.floors ++ [floor] }).put BI_STATUS_FLOOR_PENDING 0)).showImage

/-- The device reaches RUN: a trial is confirmed (R513), the floor raised. -/
def State.imageAtRun (s : State) : State :=
  match s.im.booted with
  | none => s
  | some b =>
    let s := if b.trial then
        ((s.devAppend 3 fun r => { r with
          active := b.slot, lastBooted := BitVec.ofNat 32 b.version
          armed := false, attempted := false, rollback := false }).modIm fun m => { m with
            booted := some { b with trial := false } }).showImage
      else s
    s.raiseFloor b.floor

/-! ### Update sessions (R516 to R521) -/

/-- A refusal the spec gives no code for: any code but 0000h. -/
def State.anyRefusal (s : State) (f : Fld) : State × Nat :=
  (s.useFree).answer f (1 + s.freeNow % 65535)

/-- An access to a BI register on the holding path keeps the session (R520). -/
def State.biTouch (s : State) (p : Nat) : State :=
  match s.im.session with
  | some x => if x.holder = p then s.modIm fun m => { m with session := some { x with lastAccess := s.now } } else s
  | none => s

/-- A session may be opened on path p now (R516). -/
def State.biMayOpen (s : State) (p : Nat) : Bool :=
  if s.devState = 2 then p = 1 || p = 4 else decide (4 ≤ s.devState) && decide (p < 4)

/-- OPEN (R517, R518). -/
def State.biOpen (s : State) (p : Nat) : State × Nat :=
  match s.im.session with
  | some x =>
    if x.holder = p then s.answer BI_CTL_REASON 0x0708 else s.answer BI_CTL_REASON (0x0508 + x.holder)
  | none =>
    let n := s.val BI_SIZE
    if !(s.biMayOpen p) || decide (n < 4096) || decide (s.imageMax < n) then s.anyRefusal BI_CTL_REASON
    else
      let s := (s.abandon).modIm fun m => { m with session := some ⟨p, 1 - s.devRec.active, s.now, 0, []⟩ }
      ((((s.put BI_SESSION_HOLDER p).put BI_SESSION_STATE 1).setVal BI_WRITTEN 0).put BI_CTL_REASON 0, 0)

/-- The session of the writing path, or the code of a refusal. -/
def State.biHeld (s : State) (p : Nat) : Option BiSession × Nat :=
  match s.im.session with
  | some x => if x.holder = p then (some x, 0) else (none, 0x0508 + x.holder)
  | none => (none, 1 + s.freeNow % 65535)

/-- COMMIT (R519) by domain d. -/
def State.biCommit (s : State) (p d : Nat) : State × Nat :=
  match s.biHeld p with
  | (none, c) => (s.ifThen s.im.session.isNone State.useFree).answer BI_CTL_REASON c
  | (some x, _) =>
    if s.on BI_CTL_ROLLBACK && d != 3 then s.answer BI_CTL_REASON 0x0408
    else if s.get BI_SESSION_STATE != 2 || s.val BI_WRITTEN != s.val BI_SIZE || !x.held.isEmpty then s.anyRefusal BI_CTL_REASON
    else ((s.put BI_SESSION_STATE 3).put BI_CTL_REASON 0, 0)

/-- CLOSE (R520). -/
def State.biClose (s : State) (p : Nat) : State × Nat :=
  match s.biHeld p with
  | (none, c) => (s.ifThen s.im.session.isNone State.useFree).answer BI_CTL_REASON c
  | (some _, _) => (((s.modIm fun m => { m with session := none }).put BI_SESSION_STATE 0).put BI_CTL_REASON 0, 0)

/-- BOOT (R521); without a supported flash nothing can be checked (R504). -/
def State.biBoot (s : State) : State × Nat :=
  if s.devState != 2 || s.im.session.isSome then s.answer BI_CTL_REASON 0x0708
  else if s.im.flashSize = 0 then ((s.put BI_STATUS_BOOT_REASON 0x0906).put BI_CTL_REASON 0, 0)
  else (((s.put BI_STATUS_BOOT_REASON 0).put BI_CTL_REASON 0).bootFrom3, 0)

/-- HOLD_NEXT (R521). -/
def State.biHold (s : State) : State × Nat :=
  if s.devState < 4 then s.anyRefusal BI_CTL_REASON
  else ((s.devAppend 6 fun r => { r with holdNext := true }).put BI_CTL_REASON 0, 0)

/-- Do the actions whose bits are set, in bit order, up to the first refusal. -/
def State.biActs (s : State) : List (Bool × (State → State × Nat)) → State × Nat
  | [] => (s, 0)
  | (on, f) :: t =>
    if on then
      let r := f s
      if r.2 = 0 then r.1.biActs t else r
    else s.biActs t

/-- A write of BI_CTL on path p by domain d; a refused one leaves ROLLBACK. -/
def State.biCtlWrite (s : State) (p d v : Nat) : State × Nat :=
  let old := s.get BI_CTL_ROLLBACK
  let r := ((s.biTouch p).put BI_CTL_ROLLBACK (bits v 4 4)).biActs [
    (bits v 0 0 = 1, fun s => s.biOpen p), (bits v 1 1 = 1, fun s => s.biCommit p d),
    (bits v 2 2 = 1, fun s => s.biHold), (bits v 3 3 = 1, fun s => s.biBoot), (bits v 5 5 = 1, fun s => s.biClose p)]
  if r.2 = 0 then r else (r.1.put BI_CTL_ROLLBACK old, r.2)

def execBiOpen (p : Fin 5) (v : Word) (s : State) : Host.Outcome State Fault Refusal :=
  .next (s.gatedWrite p BI_CTL fun s => s.biCtlWrite p (s.domain p) (setBits v.toNat 0 0 1))
def execBiCommit (p : Fin 5) (rollback : Bool) (s : State) : Host.Outcome State Fault Refusal :=
  .next (s.gatedWrite p BI_CTL fun s => s.biCtlWrite p (s.domain p) (2 + if rollback then 16 else 0))
def execBiHoldNext (p : Fin 5) (s : State) : Host.Outcome State Fault Refusal :=
  .next (s.gatedWrite p BI_CTL fun s => s.biCtlWrite p (s.domain p) (setBits (s.val BI_CTL) 2 2 1 % 32))
def execBiBoot (p : Fin 5) (s : State) : Host.Outcome State Fault Refusal :=
  .next (s.gatedWrite p BI_CTL fun s => s.biCtlWrite p (s.domain p) (setBits (s.val BI_CTL) 3 3 1 % 32))
def execBiClose (p : Fin 5) (s : State) : Host.Outcome State Fault Refusal :=
  .next (s.gatedWrite p BI_CTL fun s => s.biCtlWrite p (s.domain p) (setBits (s.val BI_CTL) 5 5 1 % 64))

/-- BI_ERASE_DONE (R518). -/
def State.biErased (s : State) : State :=
  match s.im.session with
  | some x =>
    if s.get BI_SESSION_STATE = 1 then
      (s.modIm fun m => { m with
        slotBytes := kvPut m.slotBytes x.slot [], session := some { x with lastAccess := s.now } }).put BI_SESSION_STATE 2
    else s
  | none => s

def execBiEraseDone (s : State) : Host.Outcome State Fault Refusal := .next s.biErased

/-- Append a word to the target slot. -/
def State.biAppend (s : State) (x : BiSession) (v : Word) : State :=
  (s.modIm fun m => { m with
    slotBytes := kvPut m.slotBytes x.slot (s.slotOf x.slot ++ leBytes 4 v.toNat)
    session := some { x with buffered := x.buffered + 4 } }).setVal BI_WRITTEN (s.val BI_WRITTEN + 4)

/-- A write of BI_DATA (R518). -/
def State.biData (s : State) (p : Nat) (v : Word) : State × Nat :=
  match (s.biTouch p).biHeld p with
  | (none, c) => (s.ifThen s.im.session.isNone State.useFree).answer BI_CTL_REASON c
  | (some x, _) =>
    let s := s.biTouch p
    if s.get BI_SESSION_STATE != 2 then s.anyRefusal BI_CTL_REASON
    else if s.val BI_SIZE < s.val BI_WRITTEN + 4 * x.held.length + 4 then s.answer BI_CTL_REASON 0x0909
    else if 4096 < x.buffered + 4 || !x.held.isEmpty then
      (s.modIm fun m => { m with session := some { x with held := x.held ++ [v] } }, 0)
    else (s.biAppend x v, 0)

def execBiDataWrite (p : Fin 5) (v : Word) (s : State) : Host.Outcome State Fault Refusal :=
  .next (s.gatedWrite p BI_DATA fun s => s.biData p v)

/-- Held words enter the program buffer while it has room. -/
def State.biRelease (s : State) : List Word → State
  | [] => s
  | v :: t =>
    match s.im.session with
    | some x => if x.buffered + 4 ≤ 4096 then (s.biAppend { x with held := t } v).biRelease t else s
    | none => s

/-- BI_PAGE_PROGRAM_DONE (R518): `n` bytes of the program buffer are in the flash. -/
def State.biPageDone (s : State) (n : Nat) : State :=
  match s.im.session with
  | some x =>
    let s := s.modIm fun m => { m with session := some { x with
      buffered := x.buffered - n, lastAccess := if x.held.isEmpty then x.lastAccess else s.now } }
    s.biRelease x.held
  | none => s

def execBiPageProgramDone (n : Fin 4097) (s : State) : Host.Outcome State Fault Refusal := .next (s.biPageDone n)

/-- BI_CHECK_DONE (R519): the slot as read back. -/
def State.biCheckDone (s : State) : State :=
  match s.im.session with
  | some x =>
    if s.get BI_SESSION_STATE != 3 then s
    else
      let bs := s.slotOf x.slot
      if crc32c bs = s.val BI_CRC && bs.take 4 = [0x59, 0x4E, 0x42, 0x49] then
        let s := s.devAppend 1 fun r => { r with armed := true, attempted := false, rollback := s.on BI_CTL_ROLLBACK }
        (s.modIm fun m => { m with session := none }).put BI_SESSION_STATE 4
      else
        let s := s.modIm fun m => { m with
          slotBytes := kvPut m.slotBytes x.slot []
          session := some { x with lastAccess := s.now, buffered := 0 } }
        ((s.put BI_SESSION_STATE 2).setVal BI_WRITTEN 0).put BI_CTL_REASON 0x0908
  | none => s

def execBiCheckDone (s : State) : Host.Outcome State Fault Refusal := .next s.biCheckDone

/-- BI_SESSION_EXPIRE (R520). -/
def State.biExpire (s : State) : State :=
  match s.im.session with
  | some x =>
    if s.get BI_SESSION_STATE = 2 && x.held.isEmpty && tLe (tAdd x.lastAccess (10 * 2 ^ 48)) s.now then
      (s.modIm fun m => { m with session := none }).put BI_SESSION_STATE 5
    else s
  | none => s

def execBiSessionExpire (s : State) : Host.Outcome State Fault Refusal := .next s.biExpire

/-! ### Keys (R508, R522) -/

/-- BLOW of key slot k by domain d. -/
def State.keyBlow (s : State) (d k : Nat) : State × Nat :=
  if !s.ft.fuseVpp then (s, 0x0309)
  else if d != 3 then (s, 0x0409)
  else if (kvGetD s.im.keys k {}).hash.isSome then (s, 0x0709)
  else
    let h := BitVec.ofNat 384 (fromLe ((upto 12).flatMap fun n => leBytes 4 (s.val (BI_KEYHASH n))))
    ((s.modIm fun m => { m with keys := kvMod {} m.keys k fun x => { x with hash := some h } }).showImage, 0)

/-- REVOKE of key slot k. -/
def State.keyRevoke (s : State) (d k : Nat) : State × Nat :=
  if !s.ft.fuseVpp then (s, 0x0309)
  else if d != 3 then (s, 0x0409)
  else if (s.im.booted.map fun b => b.keySlot) = some k then (s, 0x0709)
  else (s.modIm fun m => { m with keys := kvMod {} m.keys k fun x => { x with revoked := true } }, 0)

/-- A write of BI_FUSE (R522). -/
def State.biFuseWrite (s : State) (p d v : Nat) : State × Nat :=
  let k := bits v 3 2
  let s := (s.biTouch p).put BI_FUSE_KEY k
  s.biActs [(bits v 0 0 = 1, fun s => s.keyBlow d k), (bits v 1 1 = 1, fun s => s.keyRevoke d k)]

def execBiFuseBlow (p : Fin 5) (k : Fin 4) (s : State) : Host.Outcome State Fault Refusal :=
  .next (s.gatedWrite p BI_FUSE fun s => s.biFuseWrite p (s.domain p) (4 * k + 1))
def execBiFuseRevoke (p : Fin 5) (k : Fin 4) (s : State) : Host.Outcome State Fault Refusal :=
  .next (s.gatedWrite p BI_FUSE fun s => s.biFuseWrite p (s.domain p) (4 * k + 2))

end Sys2Proof.Machine
end

