-- ==== Sys2Proof/Machine/Safe.lean ====
section
/-! DEFINITION. Machine/Safe.lean: state requests (R40 to R42), entry to SAFE and chip-level faults (R42, R591), RESET and
OFF (R611, R612). -/

namespace Sys2Proof.Machine

/-- What outlives RESET and the loss of power: the variant and fuses, the boot flash (device record, repair record, slots),
the flash media, FUSE_VPP and the supplies; and the model's own fields. Every other piece of state is as at reset. -/
def State.cold (s : State) : State :=
  { variant := s.variant
    power := {
      rails := s.power.rails
      powerFailN := s.power.powerFailN
      debugFuse := s.power.debugFuse
      resetHeld := s.power.resetHeld }
    im := { s.im with session := none, booted := none, flashSize := 0 }
    ft := {
      repairs := s.ft.repairs.filter fun r => r.fused
      record := s.ft.record
      entrySeq := s.ft.entrySeq
      fuseVpp := s.ft.fuseVpp }
    bd := { s.bd with begun := false, slots := [], reads := [], failing := false }
    out := s.out
    freshCount := s.freshCount
    pending := s.pending }

/-- The device is in RESET, with state `prev` before it; no region's controller runs. -/
def State.toReset (s : State) (prev : Nat) : State :=
  ((s.cold.put GLOBAL_DEVSTATE_PREV prev).put GLOBAL_DEVSTATE_STATE 1).drivePins

/-- OFF (R612): every output is released, and no stream ends in an orderly way. -/
def State.toOff (s : State) : State :=
  ((({ s.cold with power := { s.cold.power with resetHeld := false } } : State).put GLOBAL_DEVSTATE_PREV s.devState).put
    GLOBAL_DEVSTATE_STATE 0).drivePins

/-- Entry to SAFE (R42): every open stream ends with a final gap record of `gap`, recording volumes close (R432), inbound
queues are emptied (R476), ALARM_N is low. -/
def State.enterSafe (s : State) (cause gap : Nat) : State :=
  let s := s.endAllStreams gap
  let s : State := { s with flow := { s.flow with stopped := [], requests := [] } }
  let s := (s.closeVolumes).moveTo 7
  (((s.put GLOBAL_DEVSTATE_SAFE_CAUSE cause).hqSafe).beginLevel 1 .safe 0 cause).drivePins

/-- A chip-level fault of KIND `kind` (R591, Table FT-6): SAFE from CONFIGURE onwards; in LOADER and BIST the device stays
where it is, held by the fallback controller; in RESET until its supplies are removed. -/
def State.chipFault (s : State) (kind : Nat) : State :=
  let d := s.devState
  let s := if d = 0 then s else s.put ST_FT_CHIP_KIND kind
  if d = 0 then s
  else if d = 1 then { s with power := { s.power with resetHeld := true } }
  else if d < 4 then ({ s with power := { s.power with chipHeld := true } } : State).drivePins
  else if d = 7 then s.put GLOBAL_DEVSTATE_SAFE_CAUSE 0x080F
  else (s.raiseAlarm 1 .notMasked 0xFFFFFFFF 0x080F).enterSafe 0x080F 0xFF

/-- CHIP_LEVEL_FAULT, of kinds 1 to 7. -/
def execChipLevelFault (kind : Fin 8) (s : State) : Host.Outcome State Fault Refusal :=
  .next (if kind.val = 0 then s else s.chipFault kind)

/-! ### WATCH and RUN (R41) -/

/-- Input n keeps running in WATCH. -/
def State.watched (s : State) (n : Nat) : Bool := bits (s.get GLOBAL_WATCH_INPUTS_MASK) n n = 1

/-- Entry to WATCH: each input outside MASK ends its stream with a gap record of cause "watch", behind its last frame; what it
feeds follows it. -/
def State.enterWatch (s : State) : State :=
  let s := s.each ((upto 16).filter fun n => !(s.watched n) && s.on (AF_IN_CTL_ENABLE n)) fun s n =>
    let s := s.modIn n fun x => { x with held := true }
    if (s.inp n).runs && (s.inp n).endAt.isSome then s.rawGap n s.now 0 7 else s.inputEnd n (some 7)
  s.moveTo 6

/-- Return to RUN: the inputs that were held take up again at their next even sample, behind a SYNC_RESET marker. -/
def State.leaveWatch (s : State) : State :=
  let s := s.moveTo 5
  s.each ((upto 16).filter fun n => (s.inp n).held) fun s n =>
    let s := s.modIn n fun x => { x with held := false }
    if s.mayDeliver n then
      let fs := s.fsHz n
      let s := s.inputFlush n
      (s.ringLose n fs (instAt fs (s.inp n).lastSample + 1) (evenInst fs s.now) 7).inputBack n none
    else s

/-- A write of `v` to GLOBAL_STATE_REQ (R40): REQ reads the last value written; REASON is the request's result. The
transition is complete when the write is, so no request meets one in progress (0702h). -/
def State.stateReq (s : State) (v : Nat) : State × Nat :=
  let q := v % 16
  let d := s.devState
  let ok := (q = 1 && (d = 2 || (d = 3 && s.power.chipHeld) || decide (4 ≤ d))) || (q = 6 && d = 5) || (q = 5 && d = 6)
    || (q = 7 && (d = 5 || d = 6))
  let s := s.put GLOBAL_STATE_REQ_REQ q
  if !ok then s.answer GLOBAL_STATE_REQ_REASON 0x0701
  else
    let s := s.put GLOBAL_STATE_REQ_REASON 0
    (if q = 1 then (s.closeVolumes).toReset d
     else if q = 5 then s.leaveWatch
     else if q = 6 then s.enterWatch
     else s.enterSafe 0 0x11, 0)

def execStateReqRun (p : Fin 5) (s : State) : Host.Outcome State Fault Refusal :=
  .next (s.gatedWrite p GLOBAL_STATE_REQ fun s => s.stateReq 5)
def execStateReqWatch (p : Fin 5) (s : State) : Host.Outcome State Fault Refusal :=
  .next (s.gatedWrite p GLOBAL_STATE_REQ fun s => s.stateReq 6)
def execStateReqSafe (p : Fin 5) (s : State) : Host.Outcome State Fault Refusal :=
  .next (s.gatedWrite p GLOBAL_STATE_REQ fun s => s.stateReq 7)
def execStateReqReset (p : Fin 5) (s : State) : Host.Outcome State Fault Refusal :=
  .next (s.gatedWrite p GLOBAL_STATE_REQ fun s => s.stateReq 1)

/-! ### Supplies (R447, R611 to R613) -/

/-- POWER_GOOD (R611): from OFF. -/
def State.powerGood (s : State) : State :=
  if s.devState != 0 then s
  else ({ s with power := { s.power with rails := true, powerFailN := true } } : State).toReset 0

def execPowerGood (s : State) : Host.Outcome State Fault Refusal := .next s.powerGood

/-- SUPPLY_OUT_OF_RANGE (R612). -/
def execSupplyOutOfRange (s : State) : Host.Outcome State Fault Refusal :=
  .next (if s.devState = 0 then s else ({ s with power := { s.power with rails := false } } : State).toOff)

/-- POWER_FAIL (R447, R613): POWER_FAIL_N low for 1 µs or more. -/
def execPowerFail (s : State) : Host.Outcome State Fault Refusal :=
  .next (if s.devState = 0 || !s.power.powerFailN then s
    else ({ s with power := { s.power with powerFailN := false } } : State).ifThen (decide (4 ≤ s.devState)) State.bdPowerFail)

end Sys2Proof.Machine
end

