-- ==== Sys2Proof/Machine/Synth.lean ====
section
/-! DEFINITION. Machine/Synth.lean: the synthesisers (R44 to R54, R645, R646): lock, loss of lock, enable, ramps, the DCO
ceiling. Synthesiser 0 is the timebase, k that of region k. -/

namespace Sys2Proof.Machine

/-- Range and f_max in kHz of a synthesiser that may ramp (Table TC-1); none: a fixed frequency. -/
def synRange (b : Nat) : Option (Nat × Nat × Nat) :=
  if b = 0 then none
  else if b = 1 then some (400000, 800000, 880000)
  else if b ≤ 5 then some (8000000, 12800000, 14080000)
  else if b ≤ 10 then some (600000, 1200000, 1320000)
  else if b = 11 then some (800000, 1333000, 1400000)
  else if b = 12 then some (400000, 800000, 880000)
  else if b ≤ 14 then none
  else some (500000, 1000000, 1100000)

/-- Change a synthesiser's state. -/
def State.modSyn (s : State) (b : Nat) (f : SynSt → SynSt) : State :=
  s.modTime fun t => { t with syn := kvMod {} t.syn b f }
def State.syn (s : State) (b : Nat) : SynSt := kvGetD s.time.syn b {}

/-- The region of a synthesiser does not exist or is lost. -/
def State.synGone (s : State) (b : Nat) : Bool := decide (1 ≤ b) && (absentRegion s.variant b || s.lost b)

/-- Inputs take up again after a loss of `cause` (R54, R580, R646). -/
def State.afResume (s : State) (cause : Nat) (l : List Nat) : State := s.each l fun s n => s.inputResume n cause

/-- The island of synthesiser b is clocked again: what waited for it moves on (R17, R47). -/
def State.ungate (s : State) (b : Nat) : State :=
  let s := (s.put (SYN_STATUS_LOCKED b) 1).put (SYN_STATUS_GATED b) 0
  let x := s.syn b
  let s := s.modSyn b fun x => { x with discardFrom := none, cause := 4, spareWait := false }
  let s := s.swResume b
  if decide (2 ≤ b) && decide (b ≤ 5) && x.discardFrom.isSome then
    s.afResume x.cause ((upto 4).map fun i => 4 * (b - 2) + i)
  else s

/-- Device time starts with the timebase's first lock (R641). -/
def State.timeStart (s : State) : State :=
  if s.time.started then s else s.modTime fun t => { t with started := true, now := 0, sub := 0, cyc := 0 }

/-- The loop asks for DCO code `code`, and has been held at the ceiling for `held` reference cycles (R48): a code above
DCO_CEIL, which stands from BIST on, is held there, for one reference cycle at least. -/
def State.setCode (s : State) (b code held : Nat) : State :=
  let clamp := 3 ≤ s.devState && decide (s.get (SYN_DCO_DCO_CEIL b) < code)
  let n := if clamp then max 1 held else held
  let s := s.put (SYN_DCO_DCO_CODE b) (if clamp then s.get (SYN_DCO_DCO_CEIL b) else code)
  if n = 0 then s else (s.count (SYN_CLAMP_COUNT b) n).put (SYN_STATUS_CLAMPED b) 1

/-- SYN_LOCK_DECLARED (R46, R48): the phase error, in 0.25 ps, stayed below LOCK_WINDOW; `code` is the code the loop asks
for and `held` the reference cycles for which it was held at DCO_CEIL. -/
def State.lockDeclared (s : State) (b : Nat) (err : Int) (code held : Nat) : State :=
  if s.synGone b || !(s.on (SYN_CTL_ENABLE b)) || s.on (SYN_STATUS_LOCKED b) || s.on (SYN_STATUS_RAMPING b)
      || decide (4 * s.get (SYN_LOCK_LOCK_WINDOW b) ≤ err.natAbs) || decide (s.devState = 0) then s
  else
    let s := (s.put (SYN_STATUS_PHASE_ERR b) (unsign 16 err)).setCode b code held
    (if b = 0 then s.timeStart else s).ungate b

def execSynLockDeclared (b : Fin 16) (err : Int) (code : BitVec 16) (held : Nat) (s : State) : Host.Outcome State Fault Refusal :=
  .next (s.lockDeclared b err code.toNat held)

/-- SYN_LOCK_LOST (R46, R47): the island is gated; with a qualified reference it is a fault of the DCO's block (R48, R590),
which the timebase meets with its spare DCO, and with both lost by coasting (R580). -/
def State.lockLost (s : State) (b : Nat) (err : Int) : State :=
  if s.synGone b || !(s.on (SYN_STATUS_LOCKED b)) || decide (err.natAbs ≤ 4 * s.get (SYN_LOCK_LOSS_WINDOW b)) then s
  else
    let s := (s.put (SYN_STATUS_PHASE_ERR b) (unsign 16 err)).put (SYN_STATUS_LOST b) 1
    let good := b = 1 || s.following.isSome
    if b = 0 then
      if !good then s.put (SYN_STATUS_LOCKED b) 0
      else if !(s.syn 0).onSpare then s.modSyn 0 fun x => { x with onSpare := true }
      else
        ((s.put (SYN_STATUS_LOCKED b) 0).setCoasting true).modTime fun t => { t with followFrom := none }
    else
      let s : State := if decide (2 ≤ b) && decide (b ≤ 5) then s.afUnlock b (if good then 9 else 4)
        else (s.put (SYN_STATUS_LOCKED b) 0).put (SYN_STATUS_GATED b) 1
      if !good then s
      else
        let s := s.modSyn b fun x => { x with spareWait := true }
        match s.server b (dcoOf b) with
        | none => if b = 1 then s.chipFault 7 else s
        | some d => if b = 1 && (s.blk 1 9).state != .freeSpare then s.chipFault 7 else s.blockFail b d 0xFF 0 0xFF

def execSynLockLost (b : Fin 16) (err : Int) (s : State) : Host.Outcome State Fault Refusal := .next (s.lockLost b err)

/-- A write of SYN_LOCK_b (R50). -/
def State.synLockWrite (s : State) (b v : Nat) : State × Nat :=
  let w := bits v 7 0
  if bits v 31 16 < 16 || w = 0 || bits v 15 8 < 2 * w then s.answer (SYN_CTL_REASON b) 0x0112
  else (s.plainWrite (SYN_LOCK b) v, 0)

def execSynLockWrite (p : Fin 5) (b : Fin 16) (v : Word) (s : State) : Host.Outcome State Fault Refusal :=
  .next (s.gatedWrite p (SYN_LOCK b) fun s => s.synLockWrite b v.toNat)

/-! ### Ramps (R51 to R54) -/

/-- End frequencies and durations of a profile's segments. -/
def State.synSegs (s : State) (b : Nat) : List (Nat × Nat) :=
  (upto (s.get (SYN_RAMP_SEGMENTS b) + 1)).map fun n => (s.val (SYN_SEG_KHZ b n), s.val (SYN_SEG_NS b n))

/-- Some segment changes frequency faster than 0.1 % of f_max per µs. -/
def tooSteep (fmax : Nat) : Nat → List (Nat × Nat) → Bool
  | _, [] => false
  | f, (g, ns) :: t => decide (fmax * ns < (if f ≤ g then g - f else f - g) * 1000000) || tooSteep fmax g t

/-- The checks of every enabled block fed by the inputs of AF region k, each without what it holds itself; the first code
that refuses, or 0 (R53). A notch of the active bank is a block at work whatever its input's ENABLE (R131); an enabled capture
group that names an input of the region refuses every ramp (R275). -/
def State.fedChecks (s : State) (k : Nat) : Nat :=
  let r := k + 4
  let ns := (upto 4).map fun i => 4 * (k - 2) + i
  let own (n : Nat) : Bool := n / 4 = k - 2
  let firstOf (l : List Nat) : Nat := (l.find? fun c => c != 0).getD 0
  let sp (i : Nat) : BitVec 16 := BitVec.ofNat 16 (3 * 4096 + s.get (DC_INT_ID_SPEC_ID r i))
  firstOf (
    (ns.map fun n => if s.on (AF_IN_CTL_ENABLE n) then s.inputCheck n
        else firstNotchFault (s.fsHz n) ((upto 4).map (s.activeNotch n)))
    ++ ((ns.filter fun n => s.on (BT_CTL_ENABLE n)).map fun n => (s.freePort r (chanSid n)).btCheck n)
    ++ (if s.on (ZP_ZTU_CTL_ENABLE r) then [s.ztuCheck r] else [])
    ++ (((upto 16).filter fun i => s.on (DC_INT_CTL_ENABLE r i)).map fun i => (s.freePort r (sp i)).intCheck r i)
    ++ (((upto 4).filter fun i => s.on (DC_PL_CTL_ENABLE r i)).map fun i => (s.freePort r (densSid r i)).planeCheck r i)
    ++ (((upto 16).filter fun u => s.tgOn (k - 2) u).map fun u =>
        (if tgKind (k - 2) u = 3 then (s.setTraffic .sweep (k - 2) 0).free .sweep (k - 2) else s).tgCheck (k - 2) u)
    ++ ((ns.filter fun n => s.on (QU_VR_CTL_ENABLE n)).map fun n =>
        (((s.setTraffic .ring n 0).free .ring n).freePort r (sid 0 n)).ringCheck n)
    ++ (((upto 16).filter fun g => s.on (QU_G_CTL_ENABLE g) && (s.quInputs g).any own).map fun _ => 0x0380)
    ++ (if s.on CE_XS_CTL_ENABLE && s.xsNamed.any (fun x => decide (x < 16) && own x) then
          [(s.each s.xsStreams fun s x => s.freePort x.1 x.2.1).xsCheck] else [])
    ++ (((upto 32).filter fun b => s.on (CE_BM_CTL_ENABLE b) && (s.beamInputs b).any own).map fun b =>
        (s.freePort 10 (beamSid b)).beamCheck b))

/-- A write of RAMP_GO (R52, R53, R560): the checks in order, then the ramp begins. -/
def State.synRamp (s : State) (b : Nat) : State × Nat :=
  let rf := SYN_CTL_REASON b
  let segs := s.synSegs b
  let goal := s.val (SYN_TARGET b)
  let af := decide (2 ≤ b) && decide (b ≤ 5)
  let c := if s.on (SYN_STATUS_RAMPING b) then 0x0510
    else match synRange b with
      | none => 0x0111
      | some (lo, hi, fmax) =>
        if segs.any fun x => decide (x.1 < lo) || decide (hi < x.1) then 0x0111
        else if (segs.getLast?.map fun x => x.1) != some goal then 0x0115
        else if tooSteep fmax (s.synKhz b) segs then 0x0110
        else if af && !(kvGetD s.ca.todo (b - 2) []).isEmpty then 0x070D
        else if af then (s.modSyn b fun x => { x with khz := some goal }).fedChecks b
        else 0
  if c != 0 then s.answer rf c
  else
    let s := ((s.put (SYN_CTL_RAMP_GO b) 1).put (SYN_STATUS_RAMPING b) 1).put (SYN_RAMP_SEG_NOW b) 0
    let s := if af then s.afUnlock b 4 else (s.put (SYN_STATUS_LOCKED b) 0).put (SYN_STATUS_GATED b) 1
    let s := s.modSyn b fun x => { x with segEnd := tAdd s.now (nsTicks (s.val (SYN_SEG_NS b 0))), spareWait := false }
    (s.put rf 0, 0)

/-- The rings of AF region b's inputs declare their demand at the present sample rate (R272). -/
def State.ringRates (s : State) (b : Nat) : State :=
  if b < 2 || 5 < b then s
  else s.each (((upto 4).map fun i => 4 * (b - 2) + i).filter fun n => s.on (QU_VR_CTL_ENABLE n)) fun s n =>
    (s.setTraffic .ring n (s.rawRate n)).retiePort (6 + n / 4) (sid 0 n) (ratioOf (s.rawRate n))

/-- A write of SYN_CTL_b (R52, R646). -/
def State.synCtlWrite (s : State) (b v : Nat) : State × Nat :=
  let rf := SYN_CTL_REASON b
  let now := s.on (SYN_CTL_ENABLE b)
  let new := bits v 0 0 = 1
  let may := decide (2 ≤ b) && decide (b ≤ 10)
  if now && !new && !may then s.answer rf 0x0710
  else
    let s := if now && !new then
        let s := (((s.put (SYN_CTL_ENABLE b) 0).put (SYN_STATUS_RAMPING b) 0).put (SYN_CTL_RAMP_GO b) 0).modSyn b fun x => { x with
          spareWait := false }
        if b ≤ 5 then s.afUnlock b 4 else (s.put (SYN_STATUS_LOCKED b) 0).put (SYN_STATUS_GATED b) 1
      else if !now && new then
        ((s.put (SYN_CTL_ENABLE b) 1).modSyn b fun x => { x with khz := some (s.val (SYN_TARGET b)) }).ringRates b
      else s
    if bits v 2 2 = 1 then s.synRamp b else (s.put rf 0, 0)

/-- SYN_ENABLE: a write of SYN_CTL_b with ENABLE as given and RAMP_GO clear. -/
def execSynEnable (p : Fin 5) (b : Fin 16) (on : Bool) (s : State) : Host.Outcome State Fault Refusal :=
  .next (s.gatedWrite p (SYN_CTL b) fun s => s.synCtlWrite b (if on then 1 else 0))

/-- SYN_RAMP_GO: a write of SYN_CTL_b that sets RAMP_GO and leaves ENABLE. -/
def execSynRampGo (p : Fin 5) (b : Fin 16) (s : State) : Host.Outcome State Fault Refusal :=
  .next (s.gatedWrite p (SYN_CTL b) fun s => s.synCtlWrite b (4 + s.get (SYN_CTL_ENABLE b)))

/-- SYN_RAMP_SEGMENT_END (R51): the next segment starts, or the profile ends and lock counting begins. Whether segment registers
or SEGMENTS written during a running ramp affect it is not stated: each is read when it is used (DESIGN CHOICE,
assumption 40). At a new sample rate the rings declare their new demand (R272). -/
def State.segmentEnd (s : State) (b : Nat) : State :=
  let x := s.syn b
  if !(s.on (SYN_STATUS_RAMPING b)) || tLt s.now x.segEnd then s
  else
    let n := s.get (SYN_RAMP_SEG_NOW b)
    if n < s.get (SYN_RAMP_SEGMENTS b) then
      (s.put (SYN_RAMP_SEG_NOW b) (n + 1)).modSyn b fun y => { y with
        segEnd := tAdd x.segEnd (nsTicks (s.val (SYN_SEG_NS b (n + 1)))) }
    else
      (((s.put (SYN_STATUS_RAMPING b) 0).put (SYN_CTL_RAMP_GO b) 0).modSyn b fun y => { y with
        khz := some (s.val (SYN_SEG_KHZ b n)) }).ringRates b

def execSynRampSegmentEnd (b : Fin 16) (s : State) : Host.Outcome State Fault Refusal := .next (s.segmentEnd b)

/-- Recompute DCO_CEIL of synthesiser b (R48). The timebase has no f_max, so no code is too high. The others' ceiling follows
from the calibrated frequency of each code, of which the manual gives a slope and no origin: a free value. A code above the
new ceiling comes down to it. -/
def State.dcoCeil (s : State) (b held : Nat) : State :=
  if b = 0 then s.put (SYN_DCO_DCO_CEIL 0) 0xFFFF
  else if s.synGone b then s
  else
    let s := (s.put (SYN_DCO_DCO_CEIL b) (s.freeNow % 65536)).useFree
    if s.get (SYN_DCO_DCO_CEIL b) < s.get (SYN_DCO_DCO_CODE b) then s.setCode b (s.get (SYN_DCO_DCO_CODE b)) held else s

/-- DCO_CEIL_UPDATE (R48): region k's controller, every 100 ms from BIST on; `held` is for how many reference cycles the loop is
then held at a lowered ceiling. -/
def execDcoCeilUpdate (k : Fin 16) (held : Nat) (s : State) : Host.Outcome State Fault Refusal :=
  .next (if s.devState < 3 || k.val = 0 then s
    else if k.val = 1 then (s.dcoCeil 0 0).dcoCeil 1 held else s.dcoCeil k held)

end Sys2Proof.Machine
end

