-- ==== Sys2Proof/Machine/Repair.lean ====
section
/-! DEFINITION. Machine/Repair.lean: failed blocks and their takeover (R199 to R201, R577 to R591), SRAM corrections (R578),
patrol (R596 to R599), readmission (R584, R607), fused repairs (R602), the thermal account (R600, R605). -/

namespace Sys2Proof.Machine

/-! ### What takeovers do to the streams (Table FT-1) -/

/-- BT_PIPE_MAP and BT_STATUS.PIPE of SP region r, and AF_IN_STATUS.SPARE of AF region r, follow its blocks. -/
def State.pipeMap (s : State) (r : Nat) : State :=
  if decide (2 ≤ r) && decide (r ≤ 5) then
    s.each (upto 4) fun s i => s.put (AF_IN_STATUS_SPARE (4 * (r - 2) + i)) (if s.server r i = some 4 then 1 else 0)
  else if r < 6 || 9 < r then s
  else
    let held := match (s.blk r 4).state, (s.blk r 4).duty with
      | .serving, some d | .standingIn, some d => d
      | _, _ => 15
    let gone := ((upto 5).filter fun i => (s.blk r i).state = .quarantined).foldl (fun a i => a + 2 ^ i) 0
    let s := (s.put (BT_PIPE_MAP_SPARE_FOR r) held).put (BT_PIPE_MAP_RETIRED r) gone
    s.each (upto 4) fun s i => match s.server r i with
      | some b => s.put (BT_STATUS_PIPE (4 * (r - 6) + i)) b
      | none => s

/-- The spare pipeline serves input n (R199): at critical hop it recomputes what was not released and loses nothing; at half hop the
spectra whose windows end before now are lost. The gap record precedes its first spectrum. -/
def State.pipeTaken (s : State) (n : Nat) : State :=
  if !(s.on (BT_STATUS_RUNNING n)) then s
  else s.modBt n fun x => { x with
    takeGap := some (x.takeGap.getD 0), skipTo := if s.on (BT_CFG_HOP n) then some (s.inputNow n) else none }

/-- The spare zoom datapath serves path z: reset as R161 at the first sample of its input's next frame; the outputs of the frame
being filled and of the samples not yet taken are lost, and counted. -/
def State.zoomTaken (s : State) (z : Nat) : State :=
  let x := s.zpath z
  if !(s.on (ZP_STATUS_RUNNING z)) || x.wait != .none then s
  else
    let dec := s.zpDec z
    let base := x.origin + (x.bufFrom * dec : Nat)
    let len := x.inq.foldl (fun (a : Int) t => match t with
      | .x _ _ _ => a + 1
      | .gap g => a + g.length.toNat
      | _ => a) (x.k - base)
    (s.zpLoss z (instTime x.fs base) (ceilDiv len.toNat dec) 9).modZp z fun x => { x with
      wait := .gap, inq := [], buf := [], wide := [], bufFlags := 0 }

/-- The spare product block serves pair q: the open dump is discarded whole. -/
def State.pairTaken (s : State) (q : Nat) : State :=
  let p := s.cePair q
  let s := if p.gap = 0 then s else s.gap (xspcSid q) p.gapTime p.gap (p.gapCause.getD 0x000D)
  (s.gap (xspcSid q) (s.dumpStart p.dump) 1 9).modPair q fun y => { y with
    dump := p.dump + 1, n := 0, acc := [], inOvr := false, ovr := false, cal := false, unmatched := y.unmatched.filter fun u => decide (p.dump < u)
    gap := 0, gapCause := none }

/-- The spare adder serves beam b: its open slots are lost; the gap record before its next slot counts them. -/
def State.adderTaken (s : State) (b : Nat) : State :=
  if !(s.on (CE_BM_CTL_ENABLE b)) then s
  else
    let open_ (y : CeBeam) : List (DevTime × Nat) := (y.slots.map fun x => (x.time, x.slice))
      ++ y.times.flatMap fun g => (upto (s.beamSlices b)).map fun sl => (g.time, sl)
    s.modBeam b fun y => { y with
      slots := [], times := [], done := (open_ y ++ y.done).take 256
      cause := if (open_ y).isEmpty then y.cause else some 9 }

/-- What step 5 of Table FT-2 does to the streams of duty d of region k. -/
def State.dutyTaken (s : State) (k d : Nat) : State :=
  if d = dcoOf k then (if (s.syn k).spareWait then s.ungate k else s)
  else if decide (2 ≤ k) && decide (k ≤ 5) then s.afResume 9 [4 * (k - 2) + d]
  else if decide (6 ≤ k) && decide (k ≤ 9) then
    if d ≤ 3 then s.pipeTaken (4 * (k - 6) + d)
    else if decide (8 ≤ d) && decide (d ≤ 11) then
      s.each (upto 4) fun s i => s.zoomTaken (16 * (k - 6) + 4 * (d - 8) + i)
    else s
  else if k = 10 then
    if d ≤ 15 then
      if s.on CE_XS_STATUS_RUNNING then
        s.countDumps fun s => s.each (s.pairsOn.filter fun q => q % 16 = d) fun s q => s.pairTaken q
      else s
    else s.each ((upto 32).filter fun b => b % 4 = d - 20) fun s b => s.adderTaken b
  else s

/-! ### Failures -/

/-- A DCO's block has failed: its island is gated until the spare serves (Table FT-1). -/
def State.dcoGate (s : State) (k : Nat) : State :=
  if !(s.on (SYN_STATUS_LOCKED k)) then s
  else
    (if decide (2 ≤ k) && decide (k ≤ 5) then s.afUnlock k 9
     else (s.put (SYN_STATUS_LOCKED k) 0).put (SYN_STATUS_GATED k) 1).modSyn k fun x => { x with spareWait := true }

/-- What the loss of region k, `was` not lost before, does beyond its streams (R590): recording volumes stop with final gap records as
R445 gives, and streams that came in over the lost ports end at their sinks on this device (DEDUCED, assumption 64). -/
def State.afterLoss (was s : State) (k : Nat) : State :=
  if was.lost k || !(s.lost k) then s
  else if k = 12 then s.bdGone
  else if k = 13 || k = 14 then
    s.each (s.ctxs.filter fun c => (s.ctxOf c).here && ((s.ctxOf c).inPort.map fun dp => kw dp) = some k) fun s c => s.ctxEnd c
  else s

/-- The PCIe endpoint of HS has no spare: with it the link is gone (DEDUCED from R589, assumption 64). -/
def State.endpointGone (s : State) (k b : Nat) : State :=
  if k = 15 && b = 20 && (s.blk 15 20).state = .quarantined then s.setVal HS_PCIE_STATUS 0 else s

/-- The event-timer block has failed (R591): the EXTERNAL units lose their source (R267). -/
def State.timerLost (s : State) : State :=
  s.each ((upto 8).filter fun u => s.tgOn 4 u) fun s u =>
    ((s.blindFor 4 u (BitVec.ofNat 16 (0x7000 + s.get (ST_TG_EX_SRC_CH u))) 0xFF s.now 0).tgStop 4 u).put (TG_U_CTL_REASON 1 u) 0x0370

/-- A block of region k fails a check (R577, R581, R589, R591, Table FT-1). -/
def State.checkFail (s : State) (k b array addr bit : Nat) : State :=
  if k = 0 || s.devState < 2 then s
  else if k = 1 && b = 0 then s.chipFault 1
  else if k = 1 && b = 2 then s.chipFault 2
  else if k = 1 && b = 1 then
    let s1 := s.blockFail 1 1 array addr bit
    if (s.blk 1 1).state = .serving then s1.timerLost else s1
  else if decide (13 ≤ k) && decide (k ≤ 14) && decide (b ≤ 67) then
    if s.lost k || absentRegion s.variant k then s else s.laneFail k b
  else if k = 12 && decide (16 ≤ b) && decide (b ≤ 47) then
    if s.lost 12 || (s.blk 12 b).state = .quarantined then s
    else ((s.ftLog 12 ⟨b, array, 2, 3, bit, addr, 0, 0⟩).setBlk 12 b ⟨.quarantined, none⟩).flashChanFail (b - 16)
  else
    let dco := s.server k (dcoOf k) = some b
    let spare := (kindOf k b).any fun g => g.all.any fun c => (s.blk k c).state = .freeSpare
    if k = 1 && dco && !spare then s.chipFault 7
    else
      let was := s
      let s := was.afterLoss (s.blockFail k b array addr bit) k
      ((if dco && !(s.lost k) then s.dcoGate k else s).endpointGone k b).pipeMap k

/-- BLOCK_CHECK_FAIL: the check of block b of region k fails at bit `bit` of word `addr` of SRAM array `array` (FFh, 0 and FFh for
a failed residue, parity or compare check). -/
def execBlockCheckFail (k : Fin 16) (b : Fin 256) (array : Fin 256) (addr : Word) (bit : Fin 256) (s : State) :
    Host.Outcome State Fault Refusal := .next (s.checkFail k b array addr.toNat bit)

/-- PIPELINE_CHECK_FAIL (R199, R200): a residue check fails in the pipeline that serves input n. -/
def execPipelineCheckFail (n : Fin 16) (s : State) : Host.Outcome State Fault Refusal :=
  .next (match s.server (6 + n / 4) (n % 4) with
    | some b => s.checkFail (6 + n / 4) b 0xFF 0 0xFF
    | none => s)

/-- The next waiting fault of region k starts (R585). -/
def State.nextFault (s : State) (k : Nat) : State :=
  match (s.ftr k).waiting with
  | [] => s
  | b :: t =>
    let s := s.modFt k fun r => { r with waiting := t }
    match kindOf k b with
    | none => s
    | some g =>
      let dco := s.server k (dcoOf k) = some b
      let was := s
      let s := was.afterLoss (s.faultStart k b g) k
      (if dco && !(s.lost k) then s.dcoGate k else s).endpointGone k b

/-- BLOCK_TAKEOVER_DONE (R581, R582): the spare serves the duty. -/
def State.takeoverDone (s : State) (k : Nat) : State :=
  match (s.ftr k).takeover with
  | none => s
  | some t =>
    let s := (s.modFt k fun r => { r with takeover := none }).count (FT_MASKED k) 1
    let s := (s.spareGone k t.spare).pipeMap k
    let s := s.epochMarkers k fun id => s.dutyHas k t.duty id
    ((s.dutyTaken k t.duty).nextFault k).pipeMap k

def execBlockTakeoverDone (k : Fin 16) (s : State) : Host.Outcome State Fault Refusal := .next (s.takeoverDone k)

/-- REGION_POLL_MISS (R590, R591). -/
def execRegionPollMiss (k : Fin 16) (s : State) : Host.Outcome State Fault Refusal :=
  .next (if k.val = 0 || s.devState < 2 then s else if k.val = 1 then s.chipFault 1
    else s.afterLoss (s.regionLost k) k)

/-! ### SRAM corrections (R578) -/

/-- A soft repair is recorded (R600). -/
def State.softRepair (s : State) (r : Repair) : State :=
  ({ s with ft := { s.ft with repairs := s.ft.repairs ++ [r] } } : State).recordAppend 1 r.region (repairData r)

/-- SRAM_CORRECTION: a word of row `row` of array `array` of block b is corrected; the 16th correction of a row within 1 s
moves the row to a spare row, the first the array has left (assumption 28). -/
def State.sramCorrection (s : State) (k b array row : Nat) : State :=
  if k = 0 || absentRegion s.variant k || s.lost k || s.devState < 2 then s
  else
    let s := s.count (FT_CORR k) 1
    let key := (b * 65536 + array) * 2 ^ 32 + row
    let l := s.now :: ((kvGetD (s.ftr k).rowCorr key []).filter fun t => tLt s.now (tAdd t (usTicks 1000000)))
    if l.length < 16 then s.modFt k fun r => { r with rowCorr := kvPut r.rowCorr key l }
    else
      let used := (s.ft.repairs.filter fun r => r.region = k && r.block = b && r.array = array && !r.column).length
      (s.modFt k fun r => { r with rowCorr := kvDel r.rowCorr key }).softRepair ⟨k, b, array, false, row, used, false⟩

def execSramCorrection (k : Fin 16) (b : Fin 256) (array : Fin 65536) (row : Word) (s : State) : Host.Outcome State Fault Refusal :=
  .next (s.sramCorrection k b array row.toNat)

/-! ### Tests (R593, R596 to R599) -/

/-- The verdict of a test (R593): 1 PASS, 2 FAIL, 3 INCOMPLETE. `sig` says that the signature equals its expected value. -/
def verdict (want count : Nat) (sig : Bool) : Nat := if count < want then 3 else if sig && count = want then 1 else 2

/-- A failed test's result: LOGGED and FT_LOG (R606). -/
def State.testDone (s : State) (k b kind : Nat) (sig : Bool) (count array addr bit : Nat) : State × Nat :=
  let want := (Config.patternCount k b).toNat
  let v := verdict want count sig
  let s := s.testResult k b v (if v = 1 then 0 else 1) count
  (if v = 1 then s else s.ftLog k ⟨b, array, v, kind, bit, addr, count, want⟩, v)

/-- Blocks of region k in its rotation, in index order (R596). -/
def rotation (k : Nat) : List Nat := (blkKinds k).flatMap fun g => if g.rot then g.all else []

/-- Time between two tests of a rotation (R596). -/
def State.patrolStep (s : State) (k : Nat) : Nat :=
  s.get (FT_PATROL_PERIOD_S k) * 2 ^ 48 / max 1 (rotation k).length

/-- A free spare of block b's kind. -/
def State.spareFor (s : State) (k b : Nat) : Option Nat :=
  match kindOf k b with
  | none => none
  | some g => g.all.find? fun c => (s.blk k c).state = .freeSpare

/-- The block whose test is next: one owed an early test whose kind has a free spare (R598), else the next in order. -/
def State.patrolPick (s : State) (k : Nat) : Option Nat :=
  let may (b : Nat) : Bool := match (s.blk k b).state with
    | .serving | .freeSpare => true
    | _ => false
  match (s.ftr k).patrolOwed.find? fun b => may b && (s.spareFor k b).isSome with
  | some b => some b
  | none =>
    let l := rotation k
    let n := (s.ftr k).patrolNext
    (l.filter fun b => decide (n ≤ b)) ++ (l.filter fun b => decide (b < n)) |>.find? may

/-- PATROL_TEST_START (R596, R597, R201): `matched` says, for a zoom datapath, that the spare's outputs matched in time; else
the spare itself is tested. -/
def State.patrolStart (s : State) (k : Nat) (matched : Bool) : State :=
  let r := s.ftr k
  if k = 0 || absentRegion s.variant k || s.lost k || !s.running || !(s.on (REGION_BIST_CTL_PATROL_EN k)) || r.patrol.isSome
      || r.takeover.isSome || tLt s.now r.patrolDue then s
  else match s.patrolPick k with
    | none => s
    | some b =>
      let due := tAdd (if r.patrolWait then s.now else r.patrolDue) (s.patrolStep k)
      let go (s : State) (t : PatrolRun) : State :=
        (s.modFt k fun r => { r with
          patrol := some t, patrolDue := due, patrolWait := false, patrolNext := b + 1
          patrolOwed := r.patrolOwed.filter (· != b) }).put (REGION_BIST_RESULT_VERDICT k) 4
      let x := s.blk k b
      if x.state = .freeSpare then (go (s.setBlk k b ⟨.underPatrol, none⟩) ⟨b, none⟩).pipeMap k
      else match s.spareFor k b with
        | none => s.modFt k fun r => { r with patrolWait := true }
        | some sp =>
          let zoom := decide (6 ≤ k) && decide (k ≤ 9) && decide (8 ≤ b) && decide (b ≤ 12)
          if zoom && !matched then (go (s.setBlk k sp ⟨.underPatrol, none⟩) ⟨sp, none⟩)
          else (go ((s.setBlk k b ⟨.underPatrol, none⟩).setBlk k sp ⟨.standingIn, x.duty⟩) ⟨b, some sp⟩).pipeMap k

def execPatrolTestStart (k : Fin 16) (matched : Bool) (s : State) : Host.Outcome State Fault Refusal :=
  .next (s.patrolStart k matched)

/-- PATROL_TEST_DONE (R596, R599): the test ends with `count` patterns applied, `sig` the expected signature, and the first
failure seen. -/
def State.patrolDone (s : State) (k : Nat) (sig : Bool) (count array addr bit : Nat) : State :=
  match (s.ftr k).patrol with
  | none => s
  | some t =>
    let r := s.testDone k t.block 1 sig count array addr bit
    let s := r.1.modFt k fun x => { x with patrol := none }
    let s := match t.standIn with
      | some sp => s.setBlk k sp ⟨.serving, (s.blk k sp).duty⟩
      | none => s
    let s := if r.2 = 1 then s.setBlk k t.block ⟨.freeSpare, none⟩
      else (s.setBlk k t.block ⟨.quarantined, none⟩).spareGone k t.block
    s.pipeMap k

def execPatrolTestDone (k : Fin 16) (sig : Bool) (count : Word) (array : Fin 256) (addr : Word) (bit : Fin 256) (s : State) :
    Host.Outcome State Fault Refusal := .next (s.patrolDone k sig count.toNat array addr.toNat bit)

/-! ### Readmission (R584, R607) -/

/-- A write of `v` to REGION_BIST_CTL of region k from domain d. -/
def State.bistCtlWrite (s : State) (k d v : Nat) : State × Nat :=
  let s := (s.put (REGION_BIST_CTL_BLOCK k) (bits v 15 8)).put (REGION_BIST_CTL_PATROL_EN k) (bits v 2 2)
  if bits v 0 0 = 0 then (s, 0)
  else
    let b := bits v 15 8
    let c := firstFail [
      (d != 3, 0x040E),
      ((kindOf k b).isNone, 0x010E),
      ((s.blk k b).state != .quarantined, 0x070E),
      ((s.ftr k).readmit.isSome, 0x050E)]
    if c != 0 then s.answer (REGION_BIST_CTL_REASON k) c
    else (((s.modFt k fun r => { r with readmit := some b }).put (REGION_BIST_CTL_READMIT k) 1).put (REGION_BIST_RESULT_VERDICT k) 4, 0)

/-- FT_READMIT: a write of `v` to REGION_BIST_CTL. -/
def execFtReadmit (p : Fin 5) (k : Fin 16) (v : Word) (s : State) : Host.Outcome State Fault Refusal :=
  .next (if k.val = 0 then s else s.gatedWrite p (REGION_BIST_CTL k) fun s => s.bistCtlWrite k (s.domain p) v.toNat)

/-- FT_READMIT_DONE (R584). -/
def State.readmitDone (s : State) (k : Nat) (sig : Bool) (count array addr bit : Nat) : State :=
  match (s.ftr k).readmit with
  | none => s
  | some b =>
    let r := s.testDone k b 2 sig count array addr bit
    let s := (r.1.modFt k fun x => { x with readmit := none }).put (REGION_BIST_CTL_READMIT k) 0
    if r.2 != 1 then s.put (REGION_BIST_CTL_REASON k) 0x080E
    else
      let s := (s.put (REGION_BIST_CTL_REASON k) 0).setBlk k b ⟨.freeSpare, none⟩
      let s := if decide (13 ≤ k) && decide (k ≤ 14) && decide (b ≤ 67) then s.put (KL_LANE_STATUS_RETIRED k b) 0 else s
      ((s.put (REGION_SPARES_FREE k) (s.get (REGION_SPARES_FREE k) + 1)).checkSpares).pipeMap k

def execFtReadmitDone (k : Fin 16) (sig : Bool) (count : Word) (array : Fin 256) (addr : Word) (bit : Fin 256) (s : State) :
    Host.Outcome State Fault Refusal := .next (s.readmitDone k sig count.toNat array addr.toNat bit)

/-! ### Fused repairs (R602) -/

/-- Fuse the soft repairs, in record order, while a free entry is left. -/
def State.fuseAll (s : State) : State :=
  let n := s.get ST_FT_FUSE_USE_FREE
  let soft := (s.ft.repairs.filter fun r => !r.fused).take n
  let left := (s.ft.repairs.filter fun r => !r.fused).drop n
  let done := soft.map fun r => { r with fused := true }
  let s : State := { s with ft := { s.ft with repairs := (s.ft.repairs.filter fun r => r.fused) ++ done ++ left } }
  let s := s.each done fun s r => s.recordAppend 2 r.region (repairData r)
  let s := (s.put ST_FT_FUSE_USE_FREE (n - done.length)).countF ST_FT_FUSE_USE_USED done.length
  if n = done.length then s.setReplace 2 true else s

/-- A write of `v` to ST_FT_FUSE from domain d. -/
def State.fuseWrite (s : State) (d v : Nat) : State × Nat :=
  if bits v 0 0 = 0 then (s, 0)
  else
    let c := firstFail [
      (!s.ft.fuseVpp, 0x030E), (d != 3, 0x040E), (s.get ST_FT_FUSE_USE_FREE = 0, 0x0228)]
    if c != 0 then s.answer ST_FT_FUSE_REASON c else (s.fuseAll.put ST_FT_FUSE_REASON 0, 0)

/-- FT_FUSE_BLOW: a write of ST_FT_FUSE that sets BLOW. -/
def execFtFuseBlow (p : Fin 5) (s : State) : Host.Outcome State Fault Refusal :=
  .next (s.gatedWrite p ST_FT_FUSE fun s => s.fuseWrite (s.domain p) 1)

/-! ### Temperature (R591, R600, R605) -/

/-- FT_TEMP_READ: the three junction temperatures, in 1/16 degree. -/
def State.tempRead (s : State) (t0 t1 t2 : Int) : State :=
  if s.devState < 2 then s
  else
    let t := max t0 (max t1 t2)
    let s : State := { s with
      ca := { s.ca with temps := [t0, t1, t2] }
      ft := { s.ft with peak := some (max t (s.ft.peak.getD t)), hot160 := if 2560 < t then s.ft.hot160 + 1 else 0 } }
    let s := s.put ST_FT_TEMP_T (unsign 16 t)
    let s := if 2400 < t then
        let s := (s.beginLevel 1 .thermal).count ST_FT_THERM 1
        if s.val ST_FT_THERM_BUDGET * 1000 < s.val ST_FT_THERM then s.setReplace 4 true else s
      else s.endLevel 1 .thermal
    if s.ft.hot160 = 10 then s.chipFault 6 else s

def execFtTempRead (t0 t1 t2 : BitVec 16) (s : State) : Host.Outcome State Fault Refusal :=
  .next (s.tempRead t0.toInt t1.toInt t2.toInt)

/-- FT_THERMAL_ACCOUNT: every 60 s. -/
def execFtThermalAccount (s : State) : Host.Outcome State Fault Refusal :=
  .next (if s.devState < 2 then s
    else
      let s := s.recordAppend 4 1 s.thermData
      { s with ft := { s.ft with peak := none } })

end Sys2Proof.Machine
end

