-- ==== Sys2Proof/Machine/Mgmt.lean ====
section
/-! DEFINITION. Machine/Mgmt.lean: what a management access does to the register it names, on every path (R8 to R10, R524,
R539): the registers with an effect of their own, and the plain ones; then the paths' own commands (R385, R458, R476, R525
to R527). -/

namespace Sys2Proof.Machine

/-! ### Writes -/

/-- Window 0. -/
def State.writeGlobal (s : State) (p : Nat) (name : RegName) (a v : Nat) : State × Nat :=
  match name with
  | .GLOBAL_STATE_REQ => s.stateReq v
  | .GLOBAL_TIME_SET_CTL => s.timeSetCtlWrite v
  | _ => if isProt a then s.protWriteAt p a v else (s.plainWrite a v, 0)

/-- The common region block and FT_* of region k (R546, R606). -/
def State.writeCommon (s : State) (d : Nat) (name : RegName) (k a v : Nat) : State × Nat :=
  match name with
  | .REGION_ALARM_STATUS => (s.alarmClear k v, 0)
  | .REGION_ALARM_MASK => ((s.plainWrite a v).updateAlarms, 0)
  | .REGION_SPARES => ((s.plainWrite a v).checkSpares, 0)
  | .REGION_BIST_CTL => s.bistCtlWrite k d v
  | .FT_PATROL => if bits v 31 16 < 60 then (s, 0x010E) else (s.plainWrite a v, 0)
  | _ => (s.plainWrite a v, 0)

/-- Synthesisers; b is 0 for the timebase. -/
def State.writeSyn (s : State) (name : RegName) (b a v : Nat) : State × Nat :=
  match name with
  | .SYN_CTL => s.synCtlWrite b v
  | .SYN_LOCK => s.synLockWrite b v
  | _ => (s.plainWrite a v, 0)

/-- Window 1: references and outputs, event timers, image, calibration, hive. -/
def State.writeSt (s : State) (p d : Nat) (name : RegName) (i a v : Nat) : State × Nat :=
  match name with
  | .ST_REF_CTL => s.useFree.refCtlWrite v (signed 64 s.freeNow)
  | .ST_REF_STATUS => s.refStatusWrite v
  | .ST_XO_AGE => s.xoAgeWrite v
  | .ST_SYNC_CTL => s.syncWrite i false v
  | .ST_SYNC_PERIOD => s.syncWrite i true v
  | .ST_ET_CTL => s.etCtlWrite i v
  | .ST_ET_THRESH => s.etThreshWrite i v
  | .ST_ET_GATE => s.etGateWrite i v
  | .ST_ET_STUCK => s.etStuckWrite i v
  | .ST_IV_CTL => s.ivCtlWrite i v
  | .ST_IV_WINDOW => s.ivWindowWrite i v
  | .BI_CTL => s.biCtlWrite p d v
  | .BI_DATA => s.biData p (BitVec.ofNat 32 v)
  | .BI_FUSE => s.biFuseWrite p d v
  | .BI_SIZE | .BI_CRC | .BI_KEYHASH => ((s.biTouch p).plainWrite a v, 0)
  | .CA_CTL => s.caCtlWrite v
  | .KH_CFG => s.khCfgWrite v
  | .KH_ADDR | .KH_POOL => s.khRangeWrite a v
  | .KH_NODE_Q => ((s.plainWrite a v).nodeShow, 0)
  | .KH_MG_CTL => s.mgCtlWrite v
  | .KH_SC_CTL => s.ctxCtlWrite i v
  | .KH_SC_KEY | .KH_SC_DEST | .KH_SC_LAT | .KH_SC_LEAD | .KH_SC_SINK => s.ctxSetWrite name i a v
  | .ST_FT_FUSE => s.fuseWrite d v
  | .ST_FT_THERM_BUDGET => if v = 0 then (s, 0x010E) else (s.plainWrite a v, 0)
  | _ => (s.plainWrite a v, 0)

/-- Inputs of AF region w (chapter 04). -/
def State.writeAf (s : State) (name : RegName) (w n a v : Nat) : State × Nat :=
  match name with
  | .AF_IN_CTL => s.afCtlWrite n v
  | .AF_IN_OVR_CTL => s.afOvrWrite n v
  | .AF_IN_SKEW => s.afSkewWrite n v
  | .AF_IN_PATTERN => s.afPatternWrite n v
  | .AF_SYSCAL_CTL => s.syscalCtlWrite n v
  | .AF_NOTCH_FREQ | .AF_NOTCH_SHAPE => s.notchSetWrite n a v
  | .AF_NOTCH_SWAP_CTL => s.notchCtlWrite n v
  | .AF_TONE_CTL => s.toneCtlWrite w v
  | .AF_TONE_SET => s.toneSetWrite w v
  | _ => (s.plainWrite a v, 0)

/-- Zoom paths, broad transforms and detection of SP region w (chapters 05 to 07). -/
def State.writeSp (s : State) (name : RegName) (w i a v : Nat) : State × Nat :=
  let z := 16 * (w - 6) + i
  let n := 4 * (w - 6) + i
  match name with
  | .ZP_CTL => s.zpCtlWrite z v
  | .ZP_CFG => s.zpCfgWrite z v
  | .ZP_SWAP_CTL => s.zpSwapCtlWrite z v
  | .ZP_SH_FTW_LO | .ZP_SH_FTW_HI | .ZP_SH_MODE | .ZP_SH_COEF => s.zpShadowWrite z a v
  | .ZP_ZTU_CTL => s.ztuCtlWrite w v
  | .ZP_ZTU_SLOT => s.ztuSlotWrite w i v
  | .BT_CTL => s.btCtlWrite n v
  | .BT_CFG => s.btCfgWrite n v
  | .BT_SHIFT => s.btShiftWrite n v
  | .BT_MK_CTL => s.btMkWrite n v
  | .BT_EQ_DATA => s.eqDataWrite n v
  | .BT_WIN_DATA => s.winDataWrite n v
  | .DC_MASK_DATA => s.maskDataWrite n v
  | .DC_INT_CTL => s.dcIntCtlWrite w i v
  | .DC_INT_SRC | .DC_INT_CFG | .DC_INT_M | .DC_INT_SK | .DC_INT_ID => s.dcIntSetWrite name w i a v
  | .DC_PL_CTL => s.dcPlCtlWrite w i v
  | .DC_PL_SRC | .DC_PL_CFG | .DC_PL_ROWS | .DC_PL_DECAY | .DC_PL_DUMP => s.dcPlSetWrite name w i a v
  | _ => (s.plainWrite a v, 0)

/-- Trigger units of region r, 4 being ST (chapter 08). -/
def State.writeTg (s : State) (p : Nat) (name : RegName) (r i a v : Nat) : State × Nat :=
  match name with
  | .TG_QCTL => s.tgQctlWrite r v
  | .TG_U_CTL => s.tgUnitWrite r i v
  | .TG_U_HOLDOFF | .TG_LV_SRC | .TG_LV_LEVEL | .TG_LV_HYST | .ST_TG_EX_SRC => s.tgSetWrite name r i a v
  | .TG_MK_SRC | .TG_MK_MIN | .TG_MK_NPTS | .TG_MK_PADDR => s.tgSetWrite name r (8 + i) a v
  | .TG_MK_PDATA => s.pdataWrite r (8 + i) v
  | .TG_BP_AVG | .TG_BP_SRC | .TG_BP_FIRST | .TG_BP_LAST | .TG_BP_LEVEL => s.tgSetWrite name r 12 a v
  | .TG_DR_SRC | .TG_DR_GEOM | .TG_DR_STEP | .TG_DR_SPAN | .TG_DR_THRESH | .TG_DR_F0_KHZ | .TG_DR_LAW_ADDR
  | .TG_DR_WIDTHS => s.tgSetWrite name r 13 a v
  | .TG_DR_LAW_DATA => s.lawWrite r v
  | .TG_SQ_CFG | .TG_SQ_MEMBER | .TG_SQ_WIN => s.tgSetWrite name r (14 + i) a v
  | .ST_TG_FB_CFG => s.tgSetWrite name r 8 a v
  | .ST_TG_HO_SEC | .ST_TG_HO_FRAC => s.tgSetWrite name r 9 a v
  | .ST_TG_HO_FIRE => s.tgFireWrite p v
  | _ => (s.plainWrite a v, 0)

/-- Windows 10 to 12: combine engine, capture memory and quires, bindery. -/
def State.writeStore (s : State) (d : Nat) (name : RegName) (i a v : Nat) : State × Nat :=
  match name with
  | .CE_RIN_SRC => s.rinWrite i false v
  | .CE_RIN_CFG => s.rinWrite i true v
  | .CE_XS_CTL => s.xsCtlWrite v
  | .CE_XS_CFG | .CE_XP_SEL => s.xsSetWrite false a v
  | .CE_XP_RANGE => s.xsSetWrite true a v
  | .CE_BM_CTL => s.beamCtlWrite i v
  | .CE_BM_MK_CTL => s.beamMkWrite i v
  | .CE_BM_INPUTS | .CE_BM_RANGE | .CE_BM_RED | .CE_BM_PARENT | .CE_BM_CHILD | .CE_BM_MK_SEC | .CE_BM_MK_FRAC
  | .CE_BM_RAMP_NS | .CE_BM_RAMP_STEPS => s.beamSetWrite name i a v
  | .CE_WT_DATA => s.wtDataWrite v
  | .QU_VR_CTL => s.quVrCtlWrite i v
  | .QU_VR_SIZE => s.quVrSizeWrite i v
  | .QU_G_CTL => s.quGroupCtlWrite i v
  | .QU_G_INPUTS | .QU_G_LEN | .QU_G_PRE | .QU_G_AREA | .QU_G_RATE | .QU_G_TRIG => s.quGroupSetWrite i a v
  | .QU_G_RELEASE_LO => s.quRelLoWrite i v
  | .QU_G_RELEASE_HI => s.quRelHiWrite i v
  | .CM_CFG => s.cmCfgWrite v
  | .CM_SCHED | .CM_PAGE | .CM_REF | .CM_SR => s.cmSetWrite name a v
  | .BD_CTL => s.bdCtlWrite d v
  | .BD_FLASH_TEMP => s.flashTempWrite v
  | .BD_VS_CTL => s.volCtlWrite i v
  | .BD_RS_CTL => s.rsCtlWrite d i v
  | .BD_CAT_DEL => s.catDelWrite d v
  | .BD_CFG | .BD_LIMITS | .BD_PATROL | .BD_RETAIN_AGE | .BD_RATES | .BD_VS_CFG | .BD_VS_KEYS | .BD_VS_KEY | .BD_RS_VOL
  | .BD_RS_SEC | .BD_RS_FRAC | .BD_RS_SINK | .BD_RS_RATE | .BD_CAT_IDX => s.bdSetWrite name i a v
  | _ => (s.plainWrite a v, 0)

/-- Lanes, ports and flows of KL region w (chapter 11). The address registers of an Ethernet port may be written at any time
(R353). -/
def State.writeKl (s : State) (name : RegName) (w i a v : Nat) : State × Nat :=
  let dp := 32 * (w - 13) + i
  match name with
  | .KL_LANE_LIMIT => s.klLimitWrite w i v
  | .KL_SPARE => s.klSpareSet w i v
  | .KL_PORT_CTL => s.klPortSet dp v
  | .KL_TT_CTL => s.ttCtlWrite dp v
  | .KL_EX_CTL => if s.on (KL_PORT_CTL_ENABLE w i) && s.changes a v != 0 then (s, 0x07A0) else (s.plainWrite a v, 0)
  | .KL_XF_CTL => s.xfCtlWrite w i v
  | .KL_XF_DPORT | .KL_XF_DMAC_LO | .KL_XF_DMAC_HI | .KL_XF_DIP4 | .KL_XF_DIP6 => s.xfSetWrite w i a v
  | _ => (s.plainWrite a v, 0)

/-- Window 15: host port, display heads (chapters 15, 16). -/
def State.writeHs (s : State) (p : Nat) (name : RegName) (i j a v : Nat) : State × Nat :=
  match name with
  | .DMA_CTL => s.dmaCtlWrite p i v
  | .DMA_DESC_ADDR_LO | .DMA_DESC_ADDR_HI | .DMA_FLUSH => s.dmaSetWrite i a v
  | .HQ_CTL => s.hqCtlWrite i v
  | .HQ_STATUS => s.hqStatusWrite i v
  | .DS_CTL => s.dsCtlWrite i v
  | .DS_AUX_CMD => s.auxCmdWrite i v
  | .DS_LINK | .DS_WM | .DS_HTIM | .DS_HSYNC | .DS_VTIM | .DS_VSYNC | .DS_PCLK | .DS_BG | .DS_FREEZE | .DS_AUX_DATA
  | .DS_L_CTL | .DS_L_POS | .DS_L_SIZE | .DS_L_SRC | .DS_L_SCALE | .DS_TR => s.dsSetWrite name i j a v
  | .DS_PAL_DATA => s.palWrite i v
  | _ => (s.plainWrite a v, 0)

/-- A write of word `a` of the MSI-X table. -/
def State.msixWrite (s : State) (a v : Nat) : State :=
  let k := (a - 0xF80000) / 16
  let set (f : MsixVec → MsixVec) : State :=
    { s with msix := { s.msix with vectors := kvMod {} s.msix.vectors k f } }
  match a % 16 / 4 with
  | 0 => set fun x => { x with addr := BitVec.ofNat 64 (setBits x.addr.toNat 31 0 v) }
  | 1 => set fun x => { x with addr := BitVec.ofNat 64 (setBits x.addr.toNat 63 32 v) }
  | 2 => set fun x => { x with data := BitVec.ofNat 32 v }
  | _ => if bits v 0 0 = 1 then set fun x => { x with masked := true }
    else if (kvGetD s.msix.vectors k {}).masked then s.unmask k else s

/-- A read of word `a` of the MSI-X table, or of its pending bits. -/
def State.msixRead (s : State) (a : Nat) : Word :=
  let x := kvGetD s.msix.vectors ((a - 0xF80000) / 16) {}
  if a < 0xF81000 then
    match a % 16 / 4 with
    | 0 => BitVec.ofNat 32 (bits x.addr.toNat 31 0)
    | 1 => BitVec.ofNat 32 (bits x.addr.toNat 63 32)
    | 2 => x.data
    | _ => if x.masked then 1 else 0
  else
    let w := (a - 0xF81000) / 4
    BitVec.ofNat 32 (((upto 32).filter fun b => (kvGet s.msix.pendingVec (32 * w + b)).isSome).foldl (fun n b => n + 2 ^ b) 0)

/-- The effect of a write of `v` at `a` by accessor `p` in domain `d` on the register it names, with the code of a refusal. -/
def State.namedWrite (s : State) (p d a v : Nat) : State × Nat :=
  if isMsix a then (s.msixWrite a v, 0)
  else match findReg a with
    | none => (s, 0)
    | some (r, w, i, j) =>
      if w = 0 then s.writeGlobal p r.name a v
      else if offOf a < 0x100 || (decide (0xE00 ≤ offOf a) && decide (offOf a < 0xF00)) then s.writeCommon d r.name w a v
      else if offOf a < 0x13C || (decide (0xC00 ≤ offOf a) && decide (offOf a < 0xE00)) then s.writeSyn r.name w a v
      else if w = 1 && decide (offOf a < 0x200) then s.writeSyn r.name 0 a v
      else if w = 1 then
        if decide (0x5000 ≤ offOf a) && decide (offOf a < 0x6000) then s.writeTg p r.name 4 i a v
        else s.writeSt p d r.name i a v
      else if w ≤ 5 then s.writeAf r.name w (4 * (w - 2) + i) a v
      else if w ≤ 9 then
        if 0x10000 ≤ offOf a then s.writeTg p r.name (w - 6) i a v else s.writeSp r.name w i a v
      else if w ≤ 12 then s.writeStore d r.name i a v
      else if w ≤ 14 then s.writeKl r.name w i a v
      else s.writeHs p r.name i j a v

/-- The registers that enable a source of samples, spectra, density or timer entries (chapters 03 to 07). -/
def sourceName (name : RegName) : Bool :=
  [RegName.ST_ET_CTL, .AF_IN_CTL, .ZP_CTL, .ZP_ZTU_CTL, .BT_CTL, .DC_PL_CTL].contains name

/-- The effect of a write: the register's own, and what follows for the units whose source it disabled (R230, R267). -/
def State.regWrite (s : State) (p d a v : Nat) : State × Nat :=
  let r := s.namedWrite p d a v
  ((if (findReg a).any fun x => sourceName x.1.name then r.1.sourcesOff else r.1), r.2)

/-! ### Reads -/

/-- The address of the low word, when `a` is the low or the high word of a 64-bit pair that R81 reads through a slot. -/
def pairOf (name : RegName) (a : Nat) : Option (Nat × Bool) :=
  match name with
  | .ST_ET_EDGES_LO | .AF_IN_OVR_COUNT_LO | .DC_PL_UPD_LO | .QU_G_NEXT_LO | .QU_G_CLOSED_LO | .QU_G_RELEASE_LO
  | .QU_G_BASE_LO | .QU_G_COLO_LO | .KL_LANE_CORR_LO | .BD_VS_LSEQ_LO => some (a, true)
  | .ST_ET_EDGES_HI | .AF_IN_OVR_COUNT_HI | .DC_PL_UPD_HI | .QU_G_NEXT_HI | .QU_G_CLOSED_HI | .QU_G_RELEASE_HI
  | .QU_G_BASE_HI | .QU_G_COLO_HI | .KL_LANE_CORR_HI | .BD_VS_LSEQ_HI => some (a - 4, false)
  | _ => none

/-- A read of either word of a pair on path p (R81, R114, R291). -/
def State.pairRead (s : State) (p lo : Nat) (low : Bool) : State × Word :=
  let k := p * 2 ^ 24 + lo
  if low then ({ s with slots := { s.slots with pairs := kvPut s.slots.pairs k (s.reg (lo + 4)) } }, s.reg lo)
  else (s, kvGetD s.slots.pairs k 0)

/-- FT_LOG_W0 to W3 of the entry shown. -/
def FtLog.word (e : FtLog) (k : Nat) : Nat :=
  if k = 0 then e.block * 2 ^ 24 + e.array * 2 ^ 16 + e.verdict * 2 ^ 12 + e.kind * 256 + e.bit
  else if k = 1 then e.addr else if k = 2 then e.applied else e.expected

/-- A register computed from the state: the word it shows (R529, Table CA-4, Table FT-6, Table CP-10). -/
def State.shown (s : State) (p : Nat) (name : RegName) (w i j : Nat) : Option Nat :=
  let log (k : Nat) : Nat := match kvGet (s.ftr w).log (s.get (FT_LOG_IDX_I w)) with
    | some e => e.word k
    | none => 0
  let cal : InVal := (s.inp (4 * (w - 2) + i)).corr s.now
  match name with
  | .GLOBAL_WHOAMI => some (16 * s.domain p + p)
  | .GLOBAL_HEALTH => some (65536 * s.get GLOBAL_HEALTH_LOST + s.khHealth)
  | .GLOBAL_DEVTIME_1 => some (s.devTimeWord p 1).toNat
  | .GLOBAL_DEVTIME_2 => some (s.devTimeWord p 2).toNat
  | .ST_ET_QW => if j = 1 || j = 2 then some (s.etSlotWord p i j).toNat else none
  | .TG_QW => if i != 0 && i != 7 then some (s.tgSlotWord p (if w = 1 then 4 else w - 6) i).toNat else none
  | .KH_NODE_INFO => some (s.nodeShow.val KH_NODE_INFO)
  | .CA_IN_OFF => some (unsign 16 (ratioRound cal.offA) * 65536 + unsign 16 (ratioRound cal.offB))
  | .CA_IN_GAIN_A => some (unsign 32 (ratioRound cal.gainA))
  | .CA_IN_GAIN_B => some (unsign 32 (ratioRound cal.gainB))
  | .CA_IN_SKEW => some (unsign 16 (ratioRound cal.skew))
  | .FT_BLK_STATE => some (s.blkWord w (s.get (FT_BLK_IDX_I w)))
  | .FT_LOG_W0 => some (log 0)
  | .FT_LOG_W1 => some (log 1)
  | .FT_LOG_W2 => some (log 2)
  | .FT_LOG_W3 => some (log 3)
  | _ => none

/-- The binding image's registers: any access keeps the session alive (R520). -/
def biPort : List RegName :=
  [.BI_STATUS, .BI_VERSION, .BI_FLOOR, .BI_LAST, .BI_CTL, .BI_SESSION, .BI_SIZE, .BI_CRC, .BI_WRITTEN, .BI_DATA, .BI_FUSE, .BI_KEYHASH]

/-- A read with side effects of its own: the value and the state after it. -/
def State.portRead (s : State) (p : Nat) (name : RegName) (w i j a : Nat) : Option (State × Word) :=
  if name = .GLOBAL_DEVTIME_0 then some (s.devTimeRead p)
  else if name = .ST_ET_QW then some (if j = 0 then s.etQw0Read p i else s.etQw3Read p i)
  else if name = .TG_QW then some (if i = 0 then s.tgQw0Read p (if w = 1 then 4 else w - 6) else s.tgQw7Read p (if w = 1 then 4 else w - 6))
  else if name = .BT_EQ_DATA then some (s.eqDataRead (4 * (w - 6) + i))
  else if name = .BT_WIN_DATA then some (s.winDataRead (4 * (w - 6) + i))
  else if name = .DC_MASK_DATA then some (s.maskDataRead (4 * (w - 6) + i))
  else if name = .TG_MK_PDATA then some (s.pdataRead (w - 6) (8 + i))
  else if name = .TG_DR_LAW_DATA then some (s.lawRead (w - 6))
  else if name = .CE_WT_DATA then some s.wtDataRead
  else if name = .DS_PAL_DATA then some (s.palRead i)
  else if biPort.contains name then some ((s.biTouch p).plainRead a)
  else if isProt a && w = 0 then some (s.protRead p name i a) else none

/-- A read of the register at `a` by path p: the value and the side effects (R10, R68, R81, R86, R535). -/
def State.regRead (s : State) (p a : Nat) : State × Word :=
  if isMsix a || isMsixPending a then (s, s.msixRead a)
  else match findReg a with
    | none => (s, 0)
    | some (r, w, i, j) =>
      match s.shown p r.name w i j with
      | some v => (s, BitVec.ofNat 32 v)
      | none =>
        match s.portRead p r.name w i j a with
        | some x => x
        | none =>
          match pairOf r.name a with
          | some (lo, low) => s.pairRead p lo low
          | none => s.plainRead a

/-! ### Accesses -/

/-- A write at `a` on path p: the state after it and the reason code (R529, R534). -/
def State.mgmtWrite (s : State) (p a v : Nat) : State × Nat :=
  if !(s.answers p) || a % 4 != 0 || absentRegion s.variant (winOf a) then (s, 0)
  else
    let c := s.judgeWrite p a
    if c != 0 then (s.recordRefusal p a true c, c)
    else
      let r := s.regWrite p (s.domain p) a v
      if r.2 = 0 then r else (r.1.recordRefusal p a true r.2, r.2)

/-- A read at `a` on path p: the state after it, the value, the reason code. -/
def State.mgmtRead (s : State) (p a : Nat) : State × Word × Nat :=
  let r := s.gatedRead p a fun s => s.regRead p a
  (r.1, r.2, if s.answers p && a % 4 = 0 && !(absentRegion s.variant (winOf a)) then s.judgeRead p a else 0)

/-- REGISTER_WRITE. -/
def execRegisterWrite (p : Fin 5) (a : BitVec 24) (v : Word) (s : State) : Host.Outcome State Fault Refusal :=
  .next (s.mgmtWrite p a.toNat v.toNat).1

/-- A read of any register on a path that answers: the value goes back on the path. -/
def State.readAt (s : State) (p a : Nat) : State :=
  if s.answers p then
    let r := s.mgmtRead p a
    r.1.emit (.answer p a r.2.1 r.2.2)
  else s

/-- RC_REGISTER_READ: a read that clears the RC fields (R10); of any register without a row of its own. -/
def execRcRegisterRead (p : Fin 5) (a : BitVec 24) (s : State) : Host.Outcome State Fault Refusal := .next (s.readAt p a.toNat)

/-- COUNTER_SNAPSHOT_READ (R81): a read of the low word of a 64-bit pair. -/
def execCounterSnapshotRead (p : Fin 5) (a : BitVec 24) (s : State) : Host.Outcome State Fault Refusal :=
  .next (match findReg a.toNat with
    | some (r, _, _, _) => if (pairOf r.name a.toNat).any fun x => x.2 then s.readAt p a.toNat else s
    | none => s)

/-! ### Fabric management (R385) -/

/-- KH_MREQ: for this device, or forwarded. -/
def State.mreqIn (s : State) (dp : Nat) (m : KhMreq) : State :=
  if !s.khIn || !(s.klUp dp) then s
  else if m.target.toNat != s.khAddr then
    match s.routePort m.target.toNat with
    | some p => s.sideband p (.mreq m)
    | none => s
  else if !(s.answers 2) then s
  else
    let a := m.offset.toNat
    let r : State × Word × Nat :=
      if m.write then
        let w := s.mgmtWrite 2 a m.data.toNat
        (w.1, m.data, w.2)
      else s.mgmtRead 2 a
    match r.1.routePort m.requester.toNat with
    | some p => r.1.sideband p (.mrsp ⟨m.requester, m.tag, r.2.1, BitVec.ofNat 16 r.2.2⟩)
    | none => r.1

def execKhMreq (dp : Fin 64) (m : KhMreq) (s : State) : Host.Outcome State Fault Refusal := .next (s.mreqIn dp m)

/-! ### Window M (R458) -/

/-- The four bytes of the aligned word at `w` from a request's bytes, when it holds them all. -/
def wordFrom (addr : Nat) (bs : List Byte) (w : Nat) : Option Nat :=
  if w < addr || addr + bs.length < w + 4 then none else some (fromLe ((bs.drop (w - addr)).take 4))

/-- WINDOW_M_REQUEST: successive aligned words in address order; a word that the request covers in part reads as 0 and is not
written (R8). -/
def State.windowM (s : State) (write : Bool) (addr len : Nat) (bs : List Byte) : State :=
  let first := addr / 4 * 4
  let bs := if write then bs.take len else List.replicate len 0
  s.each ((upto ((addr + bs.length - first + 3) / 4)).map fun k => first + 4 * k) fun s w =>
    match wordFrom addr bs w with
    | none => if write || !(s.answers 0) then s else s.emit (.answer 0 w 0 0)
    | some v => if write then (s.mgmtWrite 0 (w % 2 ^ 24) v).1 else s.readAt 0 (w % 2 ^ 24)

def execWindowMRequest (write : Bool) (addr : BitVec 24) (len : Fin 4097) (bs : List Byte) (s : State) :
    Host.Outcome State Fault Refusal := .next (s.windowM write addr.toNat len bs)

/-! ### MGMT queues (R476) -/

/-- Post the result that waits on queue q, if its result queue has room. -/
def State.hqResult (s : State) (q : Nat) : State :=
  match (s.hq q).result with
  | none => s
  | some e => match s.hqPush (s.get (HQ_CTL_CQ q)) e with
    | some s => s.modHq q fun x => { x with result := none }
    | none => s

/-- HQ_MGMT_EXECUTE: the head of MGMT queue q. An OP that Table DQ-4 does not list makes no access, and its result's reason is
a free value. -/
def State.hqMgmt (s : State) (q err : Nat) : State :=
  if !(s.hqOn q) || s.hqKind q != 2 || s.lost 15 || !(s.answers 0) || s.devState = 7 then s
  else
    let s := s.hqResult q
    if (s.hq q).result.isSome then s
    else match (s.hq q).entries with
      | [] => s
      | e :: _ =>
        let g := s.hqInError q err
        if g.2 then g.1
        else if !e.valid then (g.1.count (HQ_INVALID q) 1).hqPop q
        else
          let s := g.1.hqPop q
          let a := bits e.lo.toNat 23 0
          let v := bits e.lo.toNat 63 32
          let op := e.hiByte 0
          let w : State × Nat := if op = 1 || op = 3 then s.mgmtWrite 0 a v else (s, 0)
          let r : State × Word × Nat := if op = 2 || op = 3 then w.1.mgmtRead 0 a else (w.1, 0, 0)
          let known := op = 1 || op = 2 || op = 3
          let code := if known then (if w.2 != 0 then w.2 else r.2.2) else s.freeNow % 65536
          let s := if known then r.1 else r.1.useFree
          let s := s.modHq q fun x => { x with done := x.done + 1 }
          if bits e.hi.toNat 24 24 = 0 then s
          else (s.modHq q fun x => { x with
            result := some (hqCompletion (bits e.hi.toNat 63 32) r.2.1.toNat (0x40 + q) 3 0 code (s.hq q).done) }).hqResult q

def execHqMgmtExecute (q : Fin 32) (err : Fin 3) (s : State) : Host.Outcome State Fault Refusal := .next (s.hqMgmt q err)

/-! ### I2C, JTAG, UART (R525 to R527) -/

/-- I2C_TRANSACTION: a write transaction of 7 bytes or of 3, or a read transaction. -/
def State.i2c (s : State) (read : Bool) (bs : List Byte) : State :=
  if !(s.answers 1) then s
  else if read then
    let a := s.mport.i2c
    let s := s.readAt 1 a.toNat
    { s with mport := { s.mport with i2c := a + 4 } }
  else if bs.length = 3 || bs.length = 7 then
    let a := fromLe (bs.take 3)
    let s : State := { s with mport := { s.mport with i2c := BitVec.ofNat 24 a } }
    if bs.length = 7 then (s.mgmtWrite 1 a (fromLe (bs.drop 3))).1 else s
  else s

def execI2cTransaction (read : Bool) (bs : List Byte) (s : State) : Host.Outcome State Fault Refusal := .next (s.i2c read bs)

/-- JTAG_MGMT_ACCESS: Update-DR with the MGMT register holding `dr`. -/
def State.jtag (s : State) (dr : BitVec 64) : State :=
  if s.power.debugFuse || !(s.answers 3) then { s with mport := { s.mport with jtag := 0 } }
  else
    let a := bits dr.toNat 23 0
    let r : State × Word × Nat :=
      if bits dr.toNat 24 24 = 1 then
        let w := s.mgmtWrite 3 a (bits dr.toNat 63 32)
        (w.1, 0, w.2)
      else s.mgmtRead 3 a
    let s := r.1.emit (.answer 3 a r.2.1 r.2.2)
    { s with mport := { s.mport with jtag := BitVec.ofNat 64 (r.2.1.toNat * 2 ^ 32 + r.2.2 * 2 ^ 16 + 1) } }

def execJtagMgmtAccess (dr : BitVec 64) (s : State) : Host.Outcome State Fault Refusal := .next (s.jtag dr)

/-- UART_REQUEST: op 01h writes, 02h reads; the reply carries the data and the reason code. -/
def State.uart (s : State) (op a v : Nat) : State :=
  if !(s.answers 4) then s
  else if op = 1 then
    let w := s.mgmtWrite 4 a v
    w.1.emit (.answer 4 a 0 w.2)
  else if op = 2 then s.readAt 4 a
  else s

def execUartRequest (op : Byte) (a : BitVec 24) (v : Word) (s : State) : Host.Outcome State Fault Refusal :=
  .next (s.uart op.toNat a.toNat v.toNat)

end Sys2Proof.Machine
end

