-- ==== Sys2Proof/Machine/Start.lean ====
section
/-! DEFINITION. Machine/Start.lean: the start of the device (R39, Table AC-12): the fuse read, start-up BIST, the two passes of the
setup record, training, the region controllers' programs, entry to RUN. -/

namespace Sys2Proof.Machine

/-! ### RESET to LOADER (R592, R643, R645) -/

/-- The fuse array's counts (R602), from the repairs it holds. -/
def State.fuseShow (s : State) : State :=
  let n := (s.ft.repairs.filter fun r => r.fused).length
  (s.put ST_FT_FUSE_USE_FREE (1024 - n)).put ST_FT_FUSE_USE_USED n

/-- FUSE_READ_DONE: the ST island's synthesiser has locked to the crystal, the fused repairs apply, the steward runs. -/
def State.fuseRead (s : State) : State :=
  if s.devState != 1 || s.power.resetHeld then s
  else
    let s := ((s.put (SYN_STATUS_LOCKED 1) 1).put (SYN_STATUS_GATED 1) 0).put (REGION_STATE_STATE 1) 4
    (s.fuseShow.showImage).moveTo 2

def execFuseReadDone (s : State) : Host.Outcome State Fault Refusal := .next s.fuseRead

/-! ### Start-up BIST (R592 to R594, R604, R645) -/

/-- A block failed its test: quarantined, its duty given to a free spare before release. -/
def State.bistFail (s : State) (k b : Nat) : State :=
  match kindOf k b with
  | none => s
  | some g =>
    let x := s.blk k b
    let lane := decide (13 ≤ k) && decide (k ≤ 14) && decide (b ≤ 67)
    let s := if lane then s.put (KL_LANE_STATUS_RETIRED k b) 1 else s
    let s := s.setBlk k b ⟨.quarantined, none⟩
    match x.state, x.duty with
    | .freeSpare, _ => s.spareGone k b
    | .serving, some d =>
      match g.all.find? fun c => (s.blk k c).state = .freeSpare with
      | some sp => (s.setBlk k sp ⟨.serving, some d⟩).spareGone k sp
      | none =>
        if k = 1 && d = 0 then s.chipFault 1
        else if k = 1 && d = 2 then s.chipFault 2
        else if d = dcoOf k then (if k = 1 then s.chipFault 7 else s.regionLost k)
        else s.raiseAlarm k .notMasked b 0x080E
    | _, _ => s

/-- The criteria of Table FT-5 that persist, by the end of BIST (R604). -/
def State.bistCriteria (s : State) : State :=
  let s := s.checkSpares
  let s := if s.get ST_FT_FUSE_USE_FREE = 0 then s.setReplace 2 true else s
  let s := if s.val CA_TOL != 0 then s.setReplace 3 true else s
  if s.val ST_FT_THERM_BUDGET * 1000 < s.val ST_FT_THERM then s.setReplace 4 true else s

/-- START_BIST_DONE: `tests` are the tests that did not pass, `repairs` the rows and columns replaced, `gone` the regions whose
controller, arbiter or synthesiser failed, `chip` the KIND of a chip-level fault. A region whose synthesiser has not
declared lock is lost too (R645); without the lock of the timebase or of the ST island the fault is chip-level, of kind 7. -/
def State.bistDone (s : State) (tests : List BistTest) (repairs : List BistRepair) (gone : List (Fin 16))
    (chip : Option (Fin 8)) : State :=
  if s.devState != 3 || s.power.chipHeld then s
  else if !(s.on (SYN_STATUS_LOCKED 0)) || !(s.on (SYN_STATUS_LOCKED 1)) then s.chipFault 7
  else match chip with
    | some k => s.chipFault k
    | none =>
      let s := s.each repairs fun s r =>
        s.softRepair ⟨r.region, r.block, r.array, r.column, r.addr.toNat, r.spare.toNat, false⟩
      let s := s.each tests fun s t =>
        let k := t.region.val
        if k = 0 || absentRegion s.variant k then s
        else
          let r := s.testDone k t.block 0 t.sig t.count.toNat t.array t.addr.toNat t.bit
          if r.2 = 1 then r.1 else r.1.bistFail k t.block
      if s.power.chipHeld then s
      else
        let dead (k : Nat) : Bool := gone.any (fun g => g.val = k) || !(s.on (SYN_STATUS_LOCKED k))
        let s := s.each ((allRegions.drop 1).filter dead) fun s k => s.regionLost k
        if gone.any fun g => g.val = 1 then s.chipFault 7
        else
          let s := s.each (0 :: allRegions) fun s b => s.dcoCeil b 1
          let s := s.each [2, 3, 4, 5, 6, 7, 8, 9] fun s k => if absentRegion s.variant k then s else s.pipeMap k
          let s := s.bistCriteria.moveTo 4
          if s.khIn then s.khJoin else s

def execStartBistDone (tests : List BistTest) (repairs : List BistRepair) (gone : List (Fin 16)) (chip : Option (Fin 8))
    (s : State) : Host.Outcome State Fault Refusal := .next (s.bistDone tests repairs gone chip)

/-! ### The setup record (R541, R542) -/

/-- The setup record of the booted image: section 20h. -/
def State.setupBytes (s : State) : List Byte :=
  match s.im.booted with
  | none => []
  | some b =>
    let bs := s.slotOf b.slot
    match (imgSections bs).find? fun x => x.type = 0x20 with
    | some x => imgContent bs x
    | none => []

/-- The header is right: MAGIC, FORMAT, ENTRIES, the record's length, MODE. -/
def setupHeaderOk (bs : List Byte) : Bool :=
  bs.take 2 = [0x53, 0x52] && imgField bs 2 2 = 1 && decide (1 ≤ imgField bs 4 4) && decide (imgField bs 4 4 ≤ 1048576)
    && decide (16 + 12 * imgField bs 4 4 ≤ bs.length) && decide (imgField bs 8 1 ≤ 1)

/-- An entry: OFFSET, VALUE, MASK. -/
def setupEntry (bs : List Byte) (i : Nat) : Nat × Nat × Nat :=
  (imgField bs (16 + 12 * i) 4, imgField bs (20 + 12 * i) 4, imgField bs (24 + 12 * i) 4)

/-- The record's mode (R542). -/
def State.strict (s : State) : Bool := !(s.on GLOBAL_SETUP_STATUS_MODE)

/-- A setup refusal with entry index `i` (R542): counted, the first kept; under STRICT application stops. -/
def State.setupRefuse (s : State) (i code : Nat) : State :=
  let n := s.get GLOBAL_SETUP_STATUS_REFUSALS
  let s := if n = 0 then (s.put GLOBAL_SETUP_STATUS_FIRST_REASON code).setVal GLOBAL_SETUP_FIRST i else s
  let s := s.put GLOBAL_SETUP_STATUS_REFUSALS (min (n + 1) 32767)
  if s.strict then { s with power := { s.power with setupStopped := true } } else s

/-- The value of the RW and LK bits at `a`, without a read's side effects. -/
def State.present (s : State) (a : Nat) : Nat :=
  match findReg a with
  | some (r, _, _, _) => (s.regRead 5 a).2.toNat &&& r.rw
  | none => 0

/-- One entry's write (R541): its code, 0 when accepted. -/
def State.setupWrite (s : State) (off v mask : Nat) (first : Bool) : State × Nat :=
  if 2 ^ 24 ≤ off || off % 4 != 0 then (s, 0x0104)
  else if absentRegion s.variant (winOf off) then (s, 0)
  else
    let w := (s.present off &&& (0xFFFFFFFF - mask)) ||| (v &&& mask)
    if s.lost (winOf off) then (s, 0x0801)
    else if first && off = CM_CFG then
      s.cmCfgSetup w
    else if !first && s.unready (winOf off) && decide (0x100 ≤ offOf off) then (s, 0x070E)
    else s.regWrite 5 3 off w

/-- An entry of the first pass. -/
def firstPass (off : Nat) : Bool := off = CM_CFG || off = BD_CFG

/-- Apply the entries of one pass in record order. -/
def State.setupPass (s : State) (bs : List Byte) (first : Bool) : State :=
  s.each (upto (imgField bs 4 4)) fun s i =>
    let e := setupEntry bs i
    if s.power.setupStopped || firstPass e.1 != first then s
    else
      let r := s.setupWrite e.1 e.2.1 e.2.2 first
      if r.2 = 0 then r.1 else r.1.setupRefuse i r.2

/-- The record takes the stage, or gives it up (R535). -/
def State.stageTake (s : State) : State :=
  ({ s with prot := { s.prot with owner := .record } } : State).showStage

/-- SETUP_FIRST_PASS: the header is checked, CM_CFG and BD_CFG are written, the MEM synthesiser moves to RATE / 8 (R645). -/
def State.setupFirstPass (s : State) : State :=
  if s.devState != 4 || s.power.setupFirst then s
  else
    let bs := s.setupBytes
    let s : State := { s with power := { s.power with setupFirst := true } }
    let s := s.put GLOBAL_SETUP_STATUS_MODE (if imgField bs 8 1 = 1 then 1 else 0)
    let s := if setupHeaderOk bs then s.stageTake.setupPass bs true else s.setupRefuse 0xFFFFFFFE 0x0103
    let s := if s.power.setupStopped then s.stageRevert else s
    let r := s.get CM_CFG_RATE
    if s.lost 11 then s
    else
      let s := (s.put (SYN_STATUS_LOCKED 11) 0).put (SYN_STATUS_GATED 11) 1
      s.modSyn 11 fun x => { x with khz := some (if r = 4 then synNominal 11 else cmRate r * 125) }

def execSetupFirstPass (s : State) : Host.Outcome State Fault Refusal := .next s.setupFirstPass

/-! ### Training and programs (R39, R515, R643) -/

/-- FABRIC_TRAINING_DONE: step 5 of Table AC-12. -/
def execFabricTrainingDone (s : State) : Host.Outcome State Fault Refusal :=
  .next (if s.devState = 4 then ({ s with power := { s.power with fabricTrained := true } } : State).loadStart else s)

/-- The section that holds region k's program (Table BI-3). -/
def programSection (k : Nat) : Nat :=
  if k = 1 then 0x17 else if k ≤ 5 then 0x10 else if k ≤ 9 then 0x11 else if k = 10 then 0x12 else if k = 11 then 0x13
  else if k = 12 then 0x14 else if k ≤ 14 then 0x15 else 0x16

/-- Put one word into the table memories of region k. Section 21h has no layout in the manual and names no bank: the word goes
into both banks of a table that has two (assumption 30). -/
def State.tableLoad (s : State) (k : Nat) (t : TableWord) : State :=
  match t with
  | .eq n i v => if k = 6 + n / 4 then s.modBt n fun x => { x with
      eqSh := kvSetD 0x8800 x.eqSh i v, banks := [{ x.active with eq := kvSetD 0x8800 x.active.eq i v }] } else s
  | .mask n w v => if k = 6 + n / 4 then s.modBt n fun x => { x with
      maskSh := kvSetD 0 x.maskSh w v, banks := [{ x.active with mask := kvSetD 0 x.active.mask w v }] } else s
  | .window n i v => if k = 6 + n / 4 then s.modBt n fun x => { x with win := kvSetD 0xFFFF x.win i v } else s
  | .weight b x i v =>
    let key := (b.val * 16 + x.val) * 4096 + i.val
    if k = 10 then s.modCe fun c => { c with wtA := kvSetD 0x4000 c.wtA key v, wtS := kvSetD 0x4000 c.wtS key v } else s
  | .notch n j f h =>
    if k = 2 + n / 4 then
      (((s.setReg (AF_NOTCH_FREQ n j) f).setReg (AF_NOTCH_SHAPE n j) h).setReg (AF_NOTCH_ACT_FREQ n j) f).setReg
        (AF_NOTCH_ACT_SHAPE n j) h
    else s
  | .law r w v => if k = 6 + r then { s with tg := { s.tg with laws := kvSetD 0 s.tg.laws (2048 * r + w) v } } else s

/-- REGION_LOAD_DONE: region k's controller checks its program `prog`, and its table memories take `tables`. -/
def State.regionLoad (s : State) (k : Nat) (prog : List Byte) (tables : List TableWord) : State :=
  if s.devState != 4 || k < 2 || absentRegion s.variant k || s.lost k || 4 ≤ s.regionState k || !(s.memTrained && s.power.fabricTrained) then s
  else match s.im.booted with
    | none => s
    | some b =>
      match (imgSections (s.slotOf b.slot)).find? fun x => x.type = programSection k with
      | none => s.regionLost k
      | some x =>
        if Config.sha384 prog != x.hash then s.regionLost k
        else (s.each tables fun s t => s.tableLoad k t).put (REGION_STATE_STATE k) 4

def execRegionLoadDone (k : Fin 16) (prog : List Byte) (tables : List TableWord) (s : State) :
    Host.Outcome State Fault Refusal := .next (s.regionLoad k prog tables)

/-! ### Second pass and entry to RUN -/

/-- The device reaches RUN (R39, R69, R513, R596, R643). -/
def State.toRun (s : State) : State :=
  let s := s.moveTo 5
  let s := s.each allRegions fun s k => if absentRegion s.variant k || s.lost k then s else s.put (REGION_STATE_STATE k) 5
  let s := s.each allRegions fun s k => s.modFt k fun r => { r with patrolDue := tAdd s.now (s.patrolStep k) }
  s.loadAtRun.imageAtRun

/-- What the record leaves staged is committed (R541); then it gives up the stage (R535). -/
def State.setupCommit (s : State) (entries : Nat) : State :=
  if s.power.setupStopped then s.stageRevert
  else
    let r := s.protCommit
    if r.2 = 0 then r.1.stageRevert else (r.1.setupRefuse entries r.2).stageRevert

/-- SETUP_SECOND_PASS: after the regions are loaded and capture memory is initialised (R647). Under STRICT a refusal or a failed training (R416) keeps the device in
CONFIGURE. -/
def State.setupSecondPass (s : State) : State :=
  let waits := (allRegions.drop 1).any fun k => !(absentRegion s.variant k) && decide (s.regionState k < 4)
  let waits := waits || (s.cmServes && !s.cm.initDone)
  if s.devState != 4 || !s.power.setupFirst || s.power.setupSecond || waits then s
  else
    let bs := s.setupBytes
    let s : State := { s with power := { s.power with setupSecond := true } }
    let s := if setupHeaderOk bs then (s.setupPass bs false).setupCommit (imgField bs 4 4) else s
    if s.strict && (s.get GLOBAL_SETUP_STATUS_REFUSALS != 0 || s.on CM_STATUS_TRAIN_FAIL) then s else s.toRun

def execSetupSecondPass (s : State) : Host.Outcome State Fault Refusal := .next s.setupSecondPass

end Sys2Proof.Machine
end

