-- ==== Sys2Proof/Machine/Meanings.lean ====
section
/-! DEFINITION. Machine/Meanings.lean: every family file, gathered for Machine/Dispatch.lean. -/
end

