-- ==== Sys2Proof/Machine/Dispatch.lean ====
section
/-! DEFINITION. Machine/Dispatch.lean: one arm for each command. -/

namespace Sys2Proof.Machine

def exec (cmd : Instr) (s : State) : Host.Outcome State Fault Refusal :=
  match cmd with
  | .powerGood => Sys2Proof.Machine.execPowerGood s
  | .supplyOutOfRange => Sys2Proof.Machine.execSupplyOutOfRange s
  | .powerFail => Sys2Proof.Machine.execPowerFail s
  | .fuseReadDone => Sys2Proof.Machine.execFuseReadDone s
  | .loaderSlotChoice size => Sys2Proof.Machine.execLoaderSlotChoice size s
  | .startBistDone tests repairs gone chip => Sys2Proof.Machine.execStartBistDone tests repairs gone chip s
  | .setupFirstPass => Sys2Proof.Machine.execSetupFirstPass s
  | .dramTrainingDone found => Sys2Proof.Machine.execDramTrainingDone found s
  | .flashTrainingDone fs blocks pages rated v0 v1 => Sys2Proof.Machine.execFlashTrainingDone fs blocks pages rated v0 v1 s
  | .fabricTrainingDone => Sys2Proof.Machine.execFabricTrainingDone s
  | .regionLoadDone k prog tables => Sys2Proof.Machine.execRegionLoadDone k prog tables s
  | .setupSecondPass => Sys2Proof.Machine.execSetupSecondPass s
  | .stateReqRun p => Sys2Proof.Machine.execStateReqRun p s
  | .stateReqWatch p => Sys2Proof.Machine.execStateReqWatch p s
  | .stateReqSafe p => Sys2Proof.Machine.execStateReqSafe p s
  | .stateReqReset p => Sys2Proof.Machine.execStateReqReset p s
  | .chipLevelFault kind => Sys2Proof.Machine.execChipLevelFault kind s
  | .registerWrite p a v => Sys2Proof.Machine.execRegisterWrite p a v s
  | .rcRegisterRead p a => Sys2Proof.Machine.execRcRegisterRead p a s
  | .counterSnapshotRead p a => Sys2Proof.Machine.execCounterSnapshotRead p a s
  | .devtimeSnapshot p => Sys2Proof.Machine.execDevtimeSnapshot p s
  | .markerInsert stage t period off => Sys2Proof.Machine.execMarkerInsert stage t period off s
  | .markerEpoch region id m => Sys2Proof.Machine.execMarkerEpoch region id m s
  | .markerTimeStep m => Sys2Proof.Machine.execMarkerTimeStep m s
  | .markerSyncResetNotch n => Sys2Proof.Machine.execMarkerSyncResetNotch n s
  | .markerSyncResetZoom z => Sys2Proof.Machine.execMarkerSyncResetZoom z s
  | .markerSyncResetBroad n => Sys2Proof.Machine.execMarkerSyncResetBroad n s
  | .markerCoefSwapNotch n => Sys2Proof.Machine.execMarkerCoefSwapNotch n s
  | .markerCoefSwapZoom z => Sys2Proof.Machine.execMarkerCoefSwapZoom z s
  | .markerGainSwitch n => Sys2Proof.Machine.execMarkerGainSwitch n s
  | .markerCalRampInput n => Sys2Proof.Machine.execMarkerCalRampInput n s
  | .markerCalRampBeam b => Sys2Proof.Machine.execMarkerCalRampBeam b s
  | .exitFrameReceive e inst f => Sys2Proof.Machine.execExitFrameReceive e inst f s
  | .outputBufferFull id => Sys2Proof.Machine.execOutputBufferFull id s
  | .gapRecordEmit id => Sys2Proof.Machine.execGapRecordEmit id s
  | .synLockDeclared b err code held => Sys2Proof.Machine.execSynLockDeclared b err code held s
  | .synLockLost b err => Sys2Proof.Machine.execSynLockLost b err s
  | .synEnable p b on => Sys2Proof.Machine.execSynEnable p b on s
  | .synLockWrite p b v => Sys2Proof.Machine.execSynLockWrite p b v s
  | .synRampGo p b => Sys2Proof.Machine.execSynRampGo p b s
  | .synRampSegmentEnd b => Sys2Proof.Machine.execSynRampSegmentEnd b s
  | .dcoCeilUpdate k held => Sys2Proof.Machine.execDcoCeilUpdate k held s
  | .refCtlWrite p v j => Sys2Proof.Machine.execRefCtlWrite p v j s
  | .refQualified r j => Sys2Proof.Machine.execRefQualified r j s
  | .refLost r j => Sys2Proof.Machine.execRefLost r j s
  | .coastSecond => Sys2Proof.Machine.execCoastSecond s
  | .coastExhausted => Sys2Proof.Machine.execCoastExhausted s
  | .exhaustedClear p => Sys2Proof.Machine.execExhaustedClear p s
  | .slewEnd => Sys2Proof.Machine.execSlewEnd s
  | .timeStepExecute => Sys2Proof.Machine.execTimeStepExecute s
  | .xoCorrection model => Sys2Proof.Machine.execXoCorrection model s
  | .xoAgeLearn diff => Sys2Proof.Machine.execXoAgeLearn diff s
  | .xoAgeWrite p v => Sys2Proof.Machine.execXoAgeWrite p v s
  | .timeSetArm p v => Sys2Proof.Machine.execTimeSetArm p v s
  | .timeLoad => Sys2Proof.Machine.execTimeLoad s
  | .ppsEdge t => Sys2Proof.Machine.execPpsEdge t s
  | .ppsTimeout => Sys2Proof.Machine.execPpsTimeout s
  | .ppsOutRise => Sys2Proof.Machine.execPpsOutRise s
  | .ppsOutFall => Sys2Proof.Machine.execPpsOutFall s
  | .syncOutWrite p i period v => Sys2Proof.Machine.execSyncOutWrite p i period v s
  | .syncOutEdge i => Sys2Proof.Machine.execSyncOutEdge i s
  | .etCtlWrite p c v => Sys2Proof.Machine.execEtCtlWrite p c v s
  | .etEdge c v t0 b => Sys2Proof.Machine.execEtEdge c v t0 b s
  | .etStuckTimeout c => Sys2Proof.Machine.execEtStuckTimeout c s
  | .ivEnable p k v => Sys2Proof.Machine.execIvEnable p k v s
  | .ivWindowExpire k => Sys2Proof.Machine.execIvWindowExpire k s
  | .freqGateBoundary c v t0 b => Sys2Proof.Machine.execFreqGateBoundary c v t0 b s
  | .etQw0Read p c => Sys2Proof.Machine.execEtQw0Read p c s
  | .etQw3Read p c => Sys2Proof.Machine.execEtQw3Read p c s
  | .etQueueSpaceReturn c => Sys2Proof.Machine.execEtQueueSpaceReturn c s
  | .etFrameClose c => Sys2Proof.Machine.execEtFrameClose c s
  | .etBlindEnd c => Sys2Proof.Machine.execEtBlindEnd c s
  | .afInputEnable p n v => Sys2Proof.Machine.execAfInputEnable p n v s
  | .afInputSettled n => Sys2Proof.Machine.execAfInputSettled n s
  | .afInputDisable p n => Sys2Proof.Machine.execAfInputDisable p n s
  | .afSourceChange p n src => Sys2Proof.Machine.execAfSourceChange p n src s
  | .afSkewWrite p n v => Sys2Proof.Machine.execAfSkewWrite p n v s
  | .afRawFrameClose n xs il => Sys2Proof.Machine.execAfRawFrameClose n xs il s
  | .over6Trip n t k => Sys2Proof.Machine.execOver6Trip n t k s
  | .notchSwapArm p n v => Sys2Proof.Machine.execNotchSwapArm p n v s
  | .syscalGo p n v => Sys2Proof.Machine.execSyscalGo p n v s
  | .syscalMeasDone n => Sys2Proof.Machine.execSyscalMeasDone n s
  | .syscalApply p n => Sys2Proof.Machine.execSyscalApply p n s
  | .syscalRampStep n => Sys2Proof.Machine.execSyscalRampStep n s
  | .afToneCtlWrite p i v => Sys2Proof.Machine.execAfToneCtlWrite p i v s
  | .zpEnable p z v => Sys2Proof.Machine.execZpEnable p z v s
  | .zpDisable p z => Sys2Proof.Machine.execZpDisable p z s
  | .zpSwapArm p z v => Sys2Proof.Machine.execZpSwapArm p z v s
  | .zpSyncArm p z => Sys2Proof.Machine.execZpSyncArm p z s
  | .zpFadeEnd z => Sys2Proof.Machine.execZpFadeEnd z s
  | .zpInputGap z => Sys2Proof.Machine.execZpInputGap z s
  | .zpFrameClose z => Sys2Proof.Machine.execZpFrameClose z s
  | .ztuEnable p i v => Sys2Proof.Machine.execZtuEnable p i v s
  | .ztuTransformDone q i => Sys2Proof.Machine.execZtuTransformDone q i s
  | .btEnable p n v => Sys2Proof.Machine.execBtEnable p n v s
  | .btDisable p n => Sys2Proof.Machine.execBtDisable p n s
  | .btEqArm p n v => Sys2Proof.Machine.execBtEqArm p n v s
  | .btSyncArm p n => Sys2Proof.Machine.execBtSyncArm p n s
  | .btEqFadeEnd n => Sys2Proof.Machine.execBtEqFadeEnd n s
  | .btInputGap n => Sys2Proof.Machine.execBtInputGap n s
  | .btSpectrumDone n => Sys2Proof.Machine.execBtSpectrumDone n s
  | .btEqDataAccess p n v => Sys2Proof.Machine.execBtEqDataAccess p n v s
  | .btWinDataAccess p n v => Sys2Proof.Machine.execBtWinDataAccess p n v s
  | .pipelineCheckFail n => Sys2Proof.Machine.execPipelineCheckFail n s
  | .detectionSpectrum q src => Sys2Proof.Machine.execDetectionSpectrum q src s
  | .dcIntFlush q i => Sys2Proof.Machine.execDcIntFlush q i s
  | .dcIntEnable p q i v => Sys2Proof.Machine.execDcIntEnable p q i v s
  | .dcSourceDisabled q src => Sys2Proof.Machine.execDcSourceDisabled q src s
  | .dcSourceGap q src => Sys2Proof.Machine.execDcSourceGap q src s
  | .dcPlEnable p q i v => Sys2Proof.Machine.execDcPlEnable p q i v s
  | .dcPlClear p q i => Sys2Proof.Machine.execDcPlClear p q i s
  | .densSnapshot q i => Sys2Proof.Machine.execDensSnapshot q i s
  | .dcMaskDataAccess p n v => Sys2Proof.Machine.execDcMaskDataAccess p n v s
  | .tgUnitEnable p r u v => Sys2Proof.Machine.execTgUnitEnable p r u v s
  | .tgUnitDisable p r u => Sys2Proof.Machine.execTgUnitDisable p r u s
  | .tgUnitArm p r u => Sys2Proof.Machine.execTgUnitArm p r u s
  | .tgLevelCrossing q u => Sys2Proof.Machine.execTgLevelCrossing q u s
  | .tgMaskEval q u => Sys2Proof.Machine.execTgMaskEval q u s
  | .tgDensityOverEval q u => Sys2Proof.Machine.execTgDensityOverEval q u s
  | .tgBandEval q b => Sys2Proof.Machine.execTgBandEval q b s
  | .tgDriftStepEval q => Sys2Proof.Machine.execTgDriftStepEval q s
  | .tgDriftClusterEnd q => Sys2Proof.Machine.execTgDriftClusterEnd q s
  | .tgHoldoffEnd r u => Sys2Proof.Machine.execTgHoldoffEnd r u s
  | .tgFabricReceive swarm y => Sys2Proof.Machine.execTgFabricReceive swarm y s
  | .tgHostFire p => Sys2Proof.Machine.execTgHostFire p s
  | .tgHostDue => Sys2Proof.Machine.execTgHostDue s
  | .tgSeqHoldRelease q u => Sys2Proof.Machine.execTgSeqHoldRelease q u s
  | .tgSeqTimeout q u => Sys2Proof.Machine.execTgSeqTimeout q u s
  | .tgSourceGap r u => Sys2Proof.Machine.execTgSourceGap r u s
  | .tgQw0Read p r => Sys2Proof.Machine.execTgQw0Read p r s
  | .tgQw7Read p r => Sys2Proof.Machine.execTgQw7Read p r s
  | .tgQueueSpaceReturn r => Sys2Proof.Machine.execTgQueueSpaceReturn r s
  | .tgFrameClose r => Sys2Proof.Machine.execTgFrameClose r s
  | .quVrEnable p n v => Sys2Proof.Machine.execQuVrEnable p n v s
  | .quRingWriteLoss n => Sys2Proof.Machine.execQuRingWriteLoss n s
  | .quGroupEnable p g v => Sys2Proof.Machine.execQuGroupEnable p g v s
  | .quGroupDisable p g => Sys2Proof.Machine.execQuGroupDisable p g s
  | .quTriggerOffer g t => Sys2Proof.Machine.execQuTriggerOffer g t s
  | .quCopyStart g => Sys2Proof.Machine.execQuCopyStart g s
  | .quQuireClose g => Sys2Proof.Machine.execQuQuireClose g s
  | .quRelease p g v => Sys2Proof.Machine.execQuRelease p g v s
  | .quExportSlice g => Sys2Proof.Machine.execQuExportSlice g s
  | .ceXsEnable p v => Sys2Proof.Machine.execCeXsEnable p v s
  | .ceBmEnable p b v => Sys2Proof.Machine.execCeBmEnable p b v s
  | .ceSpectrumArrive x r => Sys2Proof.Machine.execCeSpectrumArrive x r s
  | .ceAlignTimeout => Sys2Proof.Machine.execCeAlignTimeout s
  | .ceDumpTimeout => Sys2Proof.Machine.execCeDumpTimeout s
  | .ceChildRecord b r => Sys2Proof.Machine.execCeChildRecord b r s
  | .ceSlotDeadline b => Sys2Proof.Machine.execCeSlotDeadline b s
  | .ceBmArm p b v => Sys2Proof.Machine.execCeBmArm p b v s
  | .ceBmRampStep b => Sys2Proof.Machine.execCeBmRampStep b s
  | .ceWtDataAccess p v => Sys2Proof.Machine.execCeWtDataAccess p v s
  | .klPortEnable p dp v => Sys2Proof.Machine.execKlPortEnable p dp v s
  | .klPortUp dp => Sys2Proof.Machine.execKlPortUp dp s
  | .klPortDown dp => Sys2Proof.Machine.execKlPortDown dp s
  | .klCodewordReceive r i cw => Sys2Proof.Machine.execKlCodewordReceive r i cw s
  | .klRecordReceive dp cls y => Sys2Proof.Machine.execKlRecordReceive dp cls y s
  | .klRecordAbort dp => Sys2Proof.Machine.execKlRecordAbort dp s
  | .klAlignSend r i => Sys2Proof.Machine.execKlAlignSend r i s
  | .klSbAlign r i role port hive count => Sys2Proof.Machine.execKlSbAlign r i role port hive count s
  | .klSbSwap dp role spare count => Sys2Proof.Machine.execKlSbSwap dp role spare count s
  | .klSbAck dp role count => Sys2Proof.Machine.execKlSbAck dp role count s
  | .klSbNarrow dp width roles count => Sys2Proof.Machine.execKlSbNarrow dp width roles count s
  | .klLaneFail r i => Sys2Proof.Machine.execKlLaneFail r i s
  | .klSpareSwitch dp tx => Sys2Proof.Machine.execKlSpareSwitch dp tx s
  | .klSpareEnable p r k v => Sys2Proof.Machine.execKlSpareEnable p r k v s
  | .klFlowOn p r f v => Sys2Proof.Machine.execKlFlowOn p r f v s
  | .klTimeSend dp tx => Sys2Proof.Machine.execKlTimeSend dp tx s
  | .klSbTime dp m rx => Sys2Proof.Machine.execKlSbTime dp m rx s
  | .klTtCal p dp => Sys2Proof.Machine.execKlTtCal p dp s
  | .klTtCalDone dp => Sys2Proof.Machine.execKlTtCalDone dp s
  | .klExArp dp target asker => Sys2Proof.Machine.execKlExArp dp target asker s
  | .klExNeighborSolicit dp target asker => Sys2Proof.Machine.execKlExNeighborSolicit dp target asker s
  | .klExRxDrop dp => Sys2Proof.Machine.execKlExRxDrop dp s
  | .klExRecordSend r f y room => Sys2Proof.Machine.execKlExRecordSend r f y room s
  | .khWaggleSend => Sys2Proof.Machine.execKhWaggleSend s
  | .khWaggleReceive dp w => Sys2Proof.Machine.execKhWaggleReceive dp w s
  | .khNeighbourLost dp => Sys2Proof.Machine.execKhNeighbourLost dp s
  | .khLsaSend => Sys2Proof.Machine.execKhLsaSend s
  | .khLsaReceive dp m => Sys2Proof.Machine.execKhLsaReceive dp m s
  | .khSwarmsReceive dp m => Sys2Proof.Machine.execKhSwarmsReceive dp m s
  | .khRootTimeout => Sys2Proof.Machine.execKhRootTimeout s
  | .khRootTakeover => Sys2Proof.Machine.execKhRootTakeover s
  | .khRouteInstall => Sys2Proof.Machine.execKhRouteInstall s
  | .khAddrReq dp serial => Sys2Proof.Machine.execKhAddrReq dp serial s
  | .khAddrGrant dp serial addr => Sys2Proof.Machine.execKhAddrGrant dp serial addr s
  | .khScOn p c v => Sys2Proof.Machine.execKhScOn p c v s
  | .khAnnounce dp m => Sys2Proof.Machine.execKhAnnounce dp m s
  | .khAnswer dp m => Sys2Proof.Machine.execKhAnswer dp m s
  | .khCreditSend dp => Sys2Proof.Machine.execKhCreditSend dp s
  | .khCreditReceive dp control stream bulk => Sys2Proof.Machine.execKhCreditReceive dp control stream bulk s
  | .khRecordStart dp => Sys2Proof.Machine.execKhRecordStart dp s
  | .khRecordDeliver c room => Sys2Proof.Machine.execKhRecordDeliver c room s
  | .khMgGo p v => Sys2Proof.Machine.execKhMgGo p v s
  | .khMreq dp m => Sys2Proof.Machine.execKhMreq dp m s
  | .khMrsp dp m => Sys2Proof.Machine.execKhMrsp dp m s
  | .khMgTimeout => Sys2Proof.Machine.execKhMgTimeout s
  | .khNodeQuery p v => Sys2Proof.Machine.execKhNodeQuery p v s
  | .cmRequest r => Sys2Proof.Machine.execCmRequest r s
  | .cmRefreshDue c rank => Sys2Proof.Machine.execCmRefreshDue c rank s
  | .cmMr4Poll c rank mult => Sys2Proof.Machine.execCmMr4Poll c rank mult s
  | .cmRowIdleClose c bank => Sys2Proof.Machine.execCmRowIdleClose c bank s
  | .cmSrEntry c => Sys2Proof.Machine.execCmSrEntry c s
  | .cmPatrolRead err => Sys2Proof.Machine.execCmPatrolRead err s
  | .cmWckOscCheck c rank drift stallNs => Sys2Proof.Machine.execCmWckOscCheck c rank drift stallNs s
  | .cmInitDone => Sys2Proof.Machine.execCmInitDone s
  | .bdVsOpen p i v => Sys2Proof.Machine.execBdVsOpen p i v s
  | .bdVsClose p i => Sys2Proof.Machine.execBdVsClose p i s
  | .bdRecordReceive i y ok room => Sys2Proof.Machine.execBdRecordReceive i y ok room s
  | .bdProgramDone i f bad => Sys2Proof.Machine.execBdProgramDone i f bad s
  | .bdOperationFail c l k => Sys2Proof.Machine.execBdOperationFail c l k s
  | .bdLunTimeout c l => Sys2Proof.Machine.execBdLunTimeout c l s
  | .bdSectionFull i f => Sys2Proof.Machine.execBdSectionFull i f s
  | .bdEraseDone n => Sys2Proof.Machine.execBdEraseDone n s
  | .bdCheckpoint => Sys2Proof.Machine.execBdCheckpoint s
  | .bdCatDel p v => Sys2Proof.Machine.execBdCatDel p v s
  | .bdPatrolRead n worst soft => Sys2Proof.Machine.execBdPatrolRead n worst soft s
  | .bdAgeTick => Sys2Proof.Machine.execBdAgeTick s
  | .bdFlashTempWrite p v => Sys2Proof.Machine.execBdFlashTempWrite p v s
  | .bdFlashTempTimeout => Sys2Proof.Machine.execBdFlashTempTimeout s
  | .bdRelocateDone n => Sys2Proof.Machine.execBdRelocateDone n s
  | .bdRebuildDone n => Sys2Proof.Machine.execBdRebuildDone n s
  | .bdSpineSnapshot c => Sys2Proof.Machine.execBdSpineSnapshot c s
  | .bdRecovery v e => Sys2Proof.Machine.execBdRecovery v e s
  | .bdFormat p => Sys2Proof.Machine.execBdFormat p s
  | .bdQuiesce p => Sys2Proof.Machine.execBdQuiesce p s
  | .bdRsGo p r v => Sys2Proof.Machine.execBdRsGo p r v s
  | .bdRsStop p r => Sys2Proof.Machine.execBdRsStop p r s
  | .bdLeafRead r lost => Sys2Proof.Machine.execBdLeafRead r lost s
  | .pcieLinkUp speed width => Sys2Proof.Machine.execPcieLinkUp speed width s
  | .pePerst => Sys2Proof.Machine.execPePerst s
  | .pcieFunctionReset => Sys2Proof.Machine.execPcieFunctionReset s
  | .windowMRequest write addr len bs => Sys2Proof.Machine.execWindowMRequest write addr len bs s
  | .windowDRead o n => Sys2Proof.Machine.execWindowDRead o n s
  | .windowDWrite o bs => Sys2Proof.Machine.execWindowDWrite o bs s
  | .dmaEnable p c v => Sys2Proof.Machine.execDmaEnable p c v s
  | .dmaDisable p c => Sys2Proof.Machine.execDmaDisable p c s
  | .dmaGo p c => Sys2Proof.Machine.execDmaGo p c s
  | .dmaAbort p c => Sys2Proof.Machine.execDmaAbort p c s
  | .dmaDescriptorFetched c host => Sys2Proof.Machine.execDmaDescriptorFetched c host s
  | .dmaRequestCompletion c host all => Sys2Proof.Machine.execDmaRequestCompletion c host all s
  | .dmaDescriptorConfirmed c ok => Sys2Proof.Machine.execDmaDescriptorConfirmed c ok s
  | .dmaSinkRecord c y => Sys2Proof.Machine.execDmaSinkRecord c y s
  | .dmaSinkFlush c => Sys2Proof.Machine.execDmaSinkFlush c s
  | .dmaCompletionRoom w => Sys2Proof.Machine.execDmaCompletionRoom w s
  | .hqEnable p q v => Sys2Proof.Machine.execHqEnable p q v s
  | .hqLoRead q aligned err => Sys2Proof.Machine.execHqLoRead q aligned err s
  | .hqHiRead q aligned => Sys2Proof.Machine.execHqHiRead q aligned s
  | .hqCmdMark q => Sys2Proof.Machine.execHqCmdMark q s
  | .hqCmdRewind q => Sys2Proof.Machine.execHqCmdRewind q s
  | .hqCmdRelease q => Sys2Proof.Machine.execHqCmdRelease q s
  | .hqLoWrite q aligned v => Sys2Proof.Machine.execHqLoWrite q aligned v s
  | .hqHiWrite q aligned v => Sys2Proof.Machine.execHqHiWrite q aligned v s
  | .hqDescStart q err => Sys2Proof.Machine.execHqDescStart q err s
  | .hqMgmtExecute q err => Sys2Proof.Machine.execHqMgmtExecute q err s
  | .msixUnmask v => Sys2Proof.Machine.execMsixUnmask v s
  | .dsHeadEnable p h v => Sys2Proof.Machine.execDsHeadEnable p h v s
  | .dsHpdRise h => Sys2Proof.Machine.execDsHpdRise h s
  | .dsHpdFall h => Sys2Proof.Machine.execDsHpdFall h s
  | .dsIrqHpd h lost => Sys2Proof.Machine.execDsIrqHpd h lost s
  | .dsTrainRetry h => Sys2Proof.Machine.execDsTrainRetry h s
  | .dsAuxGo p h v => Sys2Proof.Machine.execDsAuxGo p h v s
  | .dsAuxReply h reply data => Sys2Proof.Machine.execDsAuxReply h reply data s
  | .dsAuxTimeout h => Sys2Proof.Machine.execDsAuxTimeout h s
  | .dsFrameStart h => Sys2Proof.Machine.execDsFrameStart h s
  | .dsUnderrun h l pos => Sys2Proof.Machine.execDsUnderrun h l pos s
  | .dsDensSnapshot h fs => Sys2Proof.Machine.execDsDensSnapshot h fs s
  | .dsSpecIntegration h x => Sys2Proof.Machine.execDsSpecIntegration h x s
  | .dsPalDataAccess p h v => Sys2Proof.Machine.execDsPalDataAccess p h v s
  | .biOpen p v => Sys2Proof.Machine.execBiOpen p v s
  | .biEraseDone => Sys2Proof.Machine.execBiEraseDone s
  | .biDataWrite p v => Sys2Proof.Machine.execBiDataWrite p v s
  | .biCommit p rollback => Sys2Proof.Machine.execBiCommit p rollback s
  | .biCheckDone => Sys2Proof.Machine.execBiCheckDone s
  | .biClose p => Sys2Proof.Machine.execBiClose p s
  | .biSessionExpire => Sys2Proof.Machine.execBiSessionExpire s
  | .biBoot p => Sys2Proof.Machine.execBiBoot p s
  | .biHoldNext p => Sys2Proof.Machine.execBiHoldNext p s
  | .biFuseBlow p k => Sys2Proof.Machine.execBiFuseBlow p k s
  | .biFuseRevoke p k => Sys2Proof.Machine.execBiFuseRevoke p k s
  | .i2cTransaction read bs => Sys2Proof.Machine.execI2cTransaction read bs s
  | .jtagMgmtAccess dr => Sys2Proof.Machine.execJtagMgmtAccess dr s
  | .uartRequest op a v => Sys2Proof.Machine.execUartRequest op a v s
  | .protStageWrite p o v => Sys2Proof.Machine.execProtStageWrite p o v s
  | .protCommit p v => Sys2Proof.Machine.execProtCommit p v s
  | .protDiscard p => Sys2Proof.Machine.execProtDiscard p s
  | .protStageExpire => Sys2Proof.Machine.execProtStageExpire s
  | .alarmHoldExpire region a => Sys2Proof.Machine.execAlarmHoldExpire region a s
  | .alarmClear p region v => Sys2Proof.Machine.execAlarmClear p region v s
  | .caGo p => Sys2Proof.Machine.execCaGo p s
  | .caInputMeasDone i x => Sys2Proof.Machine.execCaInputMeasDone i x s
  | .caInterpolatorExchange c widths delay => Sys2Proof.Machine.execCaInterpolatorExchange c widths delay s
  | .caRunStore syn => Sys2Proof.Machine.execCaRunStore syn s
  | .caRampStep n => Sys2Proof.Machine.execCaRampStep n s
  | .caTempEval i => Sys2Proof.Machine.execCaTempEval i s
  | .sramCorrection k b array row => Sys2Proof.Machine.execSramCorrection k b array row s
  | .blockCheckFail k b array addr bit => Sys2Proof.Machine.execBlockCheckFail k b array addr bit s
  | .blockTakeoverDone k => Sys2Proof.Machine.execBlockTakeoverDone k s
  | .regionPollMiss k => Sys2Proof.Machine.execRegionPollMiss k s
  | .patrolTestStart k matched => Sys2Proof.Machine.execPatrolTestStart k matched s
  | .patrolTestDone k sig count array addr bit => Sys2Proof.Machine.execPatrolTestDone k sig count array addr bit s
  | .ftReadmit p k v => Sys2Proof.Machine.execFtReadmit p k v s
  | .ftReadmitDone k sig count array addr bit => Sys2Proof.Machine.execFtReadmitDone k sig count array addr bit s
  | .ftFuseBlow p => Sys2Proof.Machine.execFtFuseBlow p s
  | .ftTempRead t0 t1 t2 => Sys2Proof.Machine.execFtTempRead t0 t1 t2 s
  | .ftThermalAccount => Sys2Proof.Machine.execFtThermalAccount s
  | .dmaCompletionTimeout c all => Sys2Proof.Machine.execDmaCompletionTimeout c all s
  | .dsLinkTrainingDone h ok => Sys2Proof.Machine.execDsLinkTrainingDone h ok s
  | .biPageProgramDone n => Sys2Proof.Machine.execBiPageProgramDone n s
  | .freqGateEmptyEnd c => Sys2Proof.Machine.execFreqGateEmptyEnd c s

end Sys2Proof.Machine
end

