-- ==== Sys2Proof/Machine/Idle.lean ====
section
/-! DEFINITION. Machine/Idle.lean: what passes while no command waits: one cycle of the timebase (R67), the start of a slew that
awaits its whole second (R71), one scheduling decision of every memory channel (assumptions 3 and 4). -/

namespace Sys2Proof.Machine

/-- 312.5 ps in units of 2^-80 s, rounded down: what the adder of R67 adds in each timebase cycle. The rounding is the model's
(assumption 3). -/
def timebaseStep : Nat := 2 ^ 80 / 3200000000

/-- One timebase cycle (R67, R641): the fraction is exactly zero at each whole second, after 3.2 * 10^9 cycles. -/
def State.timebaseCycle (s : State) : State :=
  if !s.time.started || s.devState = 0 then s
  else if s.time.cyc + 1 = 3200000000 then
    s.modTime fun t => { t with now := atSec (secOf t.now + 1), sub := 0, cyc := 0 }
  else
    s.modTime fun t =>
      let x := t.now.toNat * 2 ^ 32 + t.sub.toNat + timebaseStep
      { t with now := BitVec.ofNat 80 (x / 2 ^ 32), sub := BitVec.ofNat 32 x, cyc := t.cyc + 1 }

/-- A slew chosen by R71 starts at its whole second. -/
def State.slewDue (s : State) : State :=
  match s.time.slewAt with
  | some t =>
    if tLe t s.now then (s.setSlewing true s.time.jumpLeft).modTime fun x => { x with slewAt := none } else s
  | none => s

/-- An empty queue: time passes by one timebase cycle. -/
def State.idle (s : State) : State := s.timebaseCycle.slewDue.cmTick

end Sys2Proof.Machine
end

