-- ==== Sys2Proof/Safety.lean ====
section
/-! DEFINITION. Safety.lean: what the state keeps whatever commands arrive: the one canonical form of capture memory and of the
register file, a queue served in order, a list of what was sent that only grows. -/

set_option Elab.async false

namespace Sys2Proof.Machine

/-- Capture memory is in its canonical form: addresses rise strictly, and no cell is listed that reads as an unlisted one does
(0, assumption 32). -/
def Memory.wf (m : List Host.Cell) : Bool := kvSorted m && m.all fun c => decide (c.2 ≠ 0)

/-- The register file is in its canonical form: addresses rise strictly, and no register is listed that holds its reset value
(R10). -/
def regsWf (v : Variant) (m : KV Word) : Bool := kvSorted m && m.all fun p => decide (p.2 ≠ regReset v p.1)

/-- The canonical forms of a state. -/
def State.canonical (s : State) : Bool := regsWf s.variant s.regs && Memory.wf s.cmem

/-- What every command keeps of a state, whatever it does: `t` comes after `s`. The variant never changes; a command never touches
the queue it came from; what was sent stays sent; free values are drawn onwards; the canonical forms stay. -/
structure Keeps (s t : State) : Prop where
  variant : t.variant = s.variant
  pending : t.pending = s.pending
  out : s.out <+: t.out
  fresh : s.freshCount ≤ t.freshCount
  regs : regsWf s.variant s.regs = true → regsWf t.variant t.regs = true
  mem : Memory.wf s.cmem = true → Memory.wf t.cmem = true

/-- The parts of a state that commands change. -/
inductive Part where
  /-- registers -/
  | regs
  /-- supplies, start-up and chip state, pins -/
  | power
  /-- streams, markers, exits -/
  | flow
  /-- device time, references, synthesisers -/
  | time
  /-- protection settings -/
  | prot
  /-- held alarms and level conditions -/
  | alarm
  /-- paths' slots of counter pairs -/
  | slots
  /-- interrupt vectors -/
  | msix
  /-- faults and repair -/
  | ft
  /-- the bytes of capture memory -/
  | cmem
  /-- channels of capture memory -/
  | cm
  /-- inputs -/
  | af
  /-- calibration -/
  | ca
  /-- rings and quires -/
  | qu
  /-- zoom paths -/
  | zp
  /-- zoom transform counts -/
  | ztu
  /-- broad transforms -/
  | bt
  /-- detection -/
  | dc
  /-- triggers -/
  | tg
  /-- event timers -/
  | et
  /-- binding image -/
  | im
  /-- combine engine -/
  | ce
  /-- Kepalink lanes and ports -/
  | kl
  /-- the hive -/
  | kh
  /-- the bindery -/
  | bd
  /-- DMA and queues -/
  | hs
  /-- I2C and JTAG ports -/
  | mport
  /-- display heads -/
  | ds
  /-- what was sent -/
  | out
  /-- free values drawn -/
  | fresh
  deriving DecidableEq, Repr

/-- Part p is the same in both states. -/
def Part.same (s t : State) : Part → Prop
  | .regs => t.regs = s.regs
  | .power => t.power = s.power
  | .flow => t.flow = s.flow
  | .time => t.time = s.time
  | .prot => t.prot = s.prot
  | .alarm => t.alarm = s.alarm
  | .slots => t.slots = s.slots
  | .msix => t.msix = s.msix
  | .ft => t.ft = s.ft
  | .cmem => t.cmem = s.cmem
  | .cm => t.cm = s.cm
  | .af => t.af = s.af
  | .ca => t.ca = s.ca
  | .qu => t.qu = s.qu
  | .zp => t.zp = s.zp
  | .ztu => t.ztu = s.ztu
  | .bt => t.bt = s.bt
  | .dc => t.dc = s.dc
  | .tg => t.tg = s.tg
  | .et => t.et = s.et
  | .im => t.im = s.im
  | .ce => t.ce = s.ce
  | .kl => t.kl = s.kl
  | .kh => t.kh = s.kh
  | .bd => t.bd = s.bd
  | .hs => t.hs = s.hs
  | .mport => t.mport = s.mport
  | .ds => t.ds = s.ds
  | .out => t.out = s.out
  | .fresh => t.freshCount = s.freshCount

/-- `t` differs from `s` in the listed parts only. -/
def SameBut (l : List Part) (s t : State) : Prop := ∀ p : Part, p ∉ l → p.same s t

/-! ### Management accesses (R9, R529, R530, R547) -/

/-- Path p may write the register at a: the path answers, the address is aligned and its region exists, no rule refuses. -/
def State.mayWrite (s : State) (p a : Nat) : Bool :=
  s.answers p && decide (a % 4 = 0) && !(absentRegion s.variant (winOf a)) && decide (s.judgeWrite p a = 0)

/-- Path p may read the register at a, and its region's controller answers. -/
def State.mayRead (s : State) (p a : Nat) : Bool :=
  s.answers p && decide (a % 4 = 0) && !(absentRegion s.variant (winOf a)) && decide (s.judgeRead p a = 0)
    && !(s.lost (winOf a) && !(offOf a = 0 || offOf a = 4)) && !(s.unready (winOf a) && decide (0x100 ≤ offOf a))

/-- Region r is clocked and not lost, and a block serves its duty d (R47, R580, R590). -/
def State.works (s : State) (r d : Nat) : Bool := !(s.gated r) && !(s.lost r) && s.dutyUp r d

/-- Zoom path z works: it is enabled, clocked, its region not lost, its datapath served. -/
def State.zpWorks (s : State) (z : Nat) : Bool := s.on (ZP_CTL_ENABLE z) && s.works (6 + z / 16) (8 + z % 16 / 4)

/-- Broad transform n works: it is enabled, clocked, its region not lost, its pipeline served. -/
def State.btWorks (s : State) (n : Nat) : Bool := s.on (BT_CTL_ENABLE n) && s.works (6 + n / 4) (n % 4)

/-- Stream, index and TIME of a spectrum on its way to detection. -/
def DetTok.brief : DetTok → Option (BitVec 16 × Int × DevTime)
  | .spec d => some (d.stream, d.j, d.time)
  | .gap _ => none

/-- The window of transform n once it takes sample v: oldest first, 0 before the grid origin (R169, R183). -/
def State.btWindow (s : State) (n : Nat) (v : Int) : List Int :=
  let l := (((if (s.btx n).w8 then 16 * v else v) :: (s.btx n).hist.map (·.1)).take (s.btL n)).reverse
  List.replicate (s.btL n - l.length) 0 ++ l

/-- What a port sends to carry a sideband message: it leaves on the lane of the role it travels on (R342, R362). -/
def State.sends (s : State) (dp : Nat) (m : SbMsg) : List Emission :=
  ((s.klPort dp).map[s.sbRole dp m]?).toList.map fun i => .laneMsg (68 * (dp / 32) + i) m

/-! ### What was sent, in brief -/

/-- Stream, SEQUENCE, TIME and FORMAT of a sent frame. -/
def Emission.brief : Emission → Option (BitVec 16 × Word × DevTime × Nat)
  | .frame f => some (f.stream, f.seq, f.time, f.format.toNat)
  | _ => none

/-- The payload of a frame that was sent. -/
def Emission.payload : Emission → Option (List Byte)
  | .frame f => some f.payload
  | _ => none

/-- Stream, length, cause and end of a gap record that was sent. -/
def Emission.gapOf : Emission → Option (BitVec 16 × BitVec 48 × BitVec 16 × Bool)
  | .gap g => some (g.stream, g.length, g.cause, g.final)
  | _ => none

/-- Lane, key, destination, hops and direction of a sent ANNOUNCE: lane, hive address, stream, destination, hops, opening. -/
def Emission.announced : Emission → Option (Nat × BitVec 16 × BitVec 16 × BitVec 16 × Nat × Bool)
  | .laneMsg lane (.announce m) => some (lane, m.hive, m.stream, m.dest, m.hops, m.opening)
  | _ => none

/-- Unit u of region r may fire at `time` and records it: R233 and R234 let it fire, RECORD is set, no record of it waits,
the queue has room and no loss is to be reported. -/
def State.mayFire (s : State) (r u : Nat) (time : DevTime) : Bool :=
  decide (s.tgJudge r u (s.tgu r u).holdEnd time = .fire) && s.on (TG_U_CTL_RECORD (tgWin r) u)
    && (s.tgu r u).out.isEmpty && decide ((s.tgQueue r).length < 16384) && decide ((s.tgLost r).1 = 0)

/-- Time, kind, unit and NUMBER of the records that wait in region r's queue. -/
def State.tgBrief (s : State) (r : Nat) : List (DevTime × Nat × Nat × Word) :=
  (s.tgQueue r).map fun q => (q.time, q.kind, q.unit, q.number)

/-- From s to t, unit u of region r fired at `time` with a record of `kind` (R233, R234, R237): the record is the queue's
last, FIRED rose by 1, the holdoff runs from `time`, and the unit is no longer armed. -/
abbrev Fired (s t : State) (r u : Nat) (time : DevTime) (kind : Nat) : Prop :=
  t.tgBrief r = s.tgBrief r ++ [(time, kind, u, BitVec.ofNat 32 (s.tgNumber r))] ∧
    t.val (TG_U_FIRED (tgWin r) u) = (s.val (TG_U_FIRED (tgWin r) u) + 1) % 2 ^ 32 ∧
    (t.tgu r u).holdEnd = some (s.holdUntil r u time) ∧
    t.on (TG_U_STATUS_HOLDOFF (tgWin r) u) = true ∧ t.on (TG_U_STATUS_ARMED (tgWin r) u) = false

/-- Every part. -/
def allParts : List Part := [.regs, .power, .flow, .time, .prot, .alarm, .slots, .msix, .ft, .cmem, .cm, .af, .ca, .qu, .zp, .ztu, .bt, .dc,
  .tg, .et, .im, .ce, .kl, .kh, .bd, .hs, .mport, .ds, .out, .fresh]

/-- The parts of the state that a command may change; it leaves every other part as it is. -/
def touches : Instr → List Part
  | .powerGood => allParts
  | .supplyOutOfRange => allParts
  | .powerFail => [.power, .bd]
  | .fuseReadDone => [.regs]
  | .loaderSlotChoice .. => [.regs, .ft, .ca, .im]
  | .startBistDone .. => [.regs, .power, .flow, .time, .alarm, .msix, .ft, .kh, .bd, .hs, .out, .fresh]
  | .setupFirstPass => allParts
  | .dramTrainingDone .. => [.regs, .cm]
  | .flashTrainingDone .. => [.regs, .power, .flow, .alarm, .msix, .bd, .out]
  | .fabricTrainingDone => [.regs, .power]
  | .regionLoadDone .. => [.regs, .power, .flow, .alarm, .msix, .bt, .tg, .ce, .out]
  | .setupSecondPass => allParts
  | .stateReqRun .. => allParts
  | .stateReqWatch .. => allParts
  | .stateReqSafe .. => allParts
  | .stateReqReset .. => allParts
  | .chipLevelFault .. => [.regs, .power, .flow, .alarm, .msix, .kh, .bd, .hs, .out]
  | .registerWrite .. => allParts
  | .rcRegisterRead .. => [.regs, .time, .prot, .slots, .tg, .et, .im, .out]
  | .counterSnapshotRead .. => [.regs, .time, .prot, .slots, .tg, .et, .im, .out]
  | .devtimeSnapshot .. => [.regs, .time, .out]
  | .markerInsert .. => [.regs, .flow, .af, .et, .ce, .out]
  | .markerEpoch .. => [.flow]
  | .markerTimeStep .. => [.regs, .tg]
  | .markerSyncResetNotch .. => [.regs, .af, .ca]
  | .markerSyncResetZoom .. => [.regs, .flow, .zp, .ztu, .dc, .tg, .out, .fresh]
  | .markerSyncResetBroad .. => [.regs, .flow, .bt, .dc, .ce, .out]
  | .markerCoefSwapNotch .. => [.regs, .af, .ca]
  | .markerCoefSwapZoom .. => [.regs, .flow, .zp, .ztu, .dc, .tg, .out, .fresh]
  | .markerGainSwitch .. => [.regs, .flow, .bt, .dc, .ce, .out]
  | .markerCalRampInput .. => [.regs, .af, .ca]
  | .markerCalRampBeam .. => [.regs, .ce]
  | .exitFrameReceive .. => [.regs, .power, .flow, .alarm, .msix, .out]
  | .outputBufferFull .. => [.flow]
  | .gapRecordEmit .. => [.regs, .power, .flow, .alarm, .msix, .cmem, .cm, .qu, .zp, .bt, .tg, .ce, .out]
  | .synLockDeclared .. => [.regs, .power, .flow, .time, .alarm, .msix, .cmem, .cm, .af, .qu, .zp, .bt, .tg, .out]
  | .synLockLost .. => [.regs, .power, .flow, .time, .alarm, .msix, .ft, .af, .zp, .bt, .tg, .kh, .bd, .hs, .out, .fresh]
  | .synEnable .. => [.regs, .flow, .time, .cm, .af, .zp, .bt, .tg, .out]
  | .synLockWrite .. => [.regs]
  | .synRampGo .. => [.regs, .flow, .time, .cm, .af, .zp, .bt, .tg, .out]
  | .synRampSegmentEnd .. => [.regs, .flow, .time, .cm]
  | .dcoCeilUpdate .. => [.regs, .fresh]
  | .refCtlWrite .. => [.regs, .power, .flow, .time, .alarm, .msix, .out, .fresh]
  | .refQualified .. => [.regs, .power, .flow, .time, .alarm, .msix, .out, .fresh]
  | .refLost .. => [.regs, .power, .flow, .time, .alarm, .msix, .out, .fresh]
  | .coastSecond => [.regs]
  | .coastExhausted => [.regs, .power, .flow, .time, .alarm, .msix, .af, .zp, .bt, .dc, .tg, .out]
  | .exhaustedClear .. => [.regs, .flow, .time, .alarm]
  | .slewEnd => [.regs, .time]
  | .timeStepExecute => [.regs, .power, .flow, .time, .prot, .alarm, .msix, .ft, .cmem, .cm, .af, .ca, .qu, .zp, .bt, .tg, .et, .im, .ce, .kl, .kh, .bd, .hs, .ds, .out]
  | .xoCorrection .. => [.time]
  | .xoAgeLearn .. => [.regs, .time, .im, .fresh]
  | .xoAgeWrite .. => [.regs, .im]
  | .timeSetArm .. => [.regs, .flow, .time]
  | .timeLoad => [.regs, .flow, .time, .prot, .alarm, .ft, .cm, .af, .ca, .qu, .zp, .bt, .tg, .et, .im, .ce, .kl, .kh, .bd, .hs, .ds, .out, .fresh]
  | .ppsEdge .. => [.regs, .power, .flow, .time, .alarm, .msix, .out, .fresh]
  | .ppsTimeout => [.regs, .time]
  | .ppsOutRise => [.time]
  | .ppsOutFall => [.time]
  | .syncOutWrite .. => [.regs, .time]
  | .syncOutEdge .. => [.time]
  | .etCtlWrite .. => [.regs, .flow, .cmem, .cm, .qu, .dc, .tg, .et, .out, .fresh]
  | .etEdge .. => [.regs, .flow, .alarm, .qu, .tg, .et, .out, .fresh]
  | .etStuckTimeout .. => [.regs, .power, .flow, .alarm, .msix, .et, .out]
  | .ivEnable .. => [.regs, .et]
  | .ivWindowExpire .. => [.regs, .et]
  | .freqGateBoundary .. => [.regs, .flow, .alarm, .qu, .tg, .et, .out, .fresh]
  | .etQw0Read .. => [.regs, .et, .out]
  | .etQw3Read .. => [.regs, .et, .out]
  | .etQueueSpaceReturn .. => [.regs, .et]
  | .etFrameClose .. => [.regs, .flow, .et, .out]
  | .etBlindEnd .. => [.regs, .flow, .tg, .et, .out, .fresh]
  | .afInputEnable .. => [.regs, .flow, .cmem, .cm, .af, .qu, .zp, .bt, .dc, .tg, .out, .fresh]
  | .afInputSettled .. => [.regs, .power, .flow, .alarm, .msix, .cmem, .cm, .af, .qu, .zp, .bt, .tg, .out]
  | .afInputDisable .. => [.regs, .flow, .cmem, .cm, .af, .qu, .zp, .bt, .dc, .tg, .out, .fresh]
  | .afSourceChange .. => [.regs, .flow, .cm, .af, .qu, .zp, .bt, .tg, .out]
  | .afSkewWrite .. => [.regs, .af]
  | .afRawFrameClose .. => [.regs, .power, .flow, .alarm, .msix, .cmem, .cm, .af, .ca, .qu, .zp, .bt, .tg, .out]
  | .over6Trip .. => [.regs, .af]
  | .notchSwapArm .. => [.regs, .flow]
  | .syscalGo .. => [.regs, .flow, .af]
  | .syscalMeasDone .. => [.regs, .af]
  | .syscalApply .. => [.regs, .flow, .af]
  | .syscalRampStep .. => [.regs, .af]
  | .afToneCtlWrite .. => [.regs]
  | .zpEnable .. => [.regs, .flow, .cmem, .cm, .qu, .zp, .dc, .tg, .out, .fresh]
  | .zpDisable .. => [.regs, .flow, .cmem, .cm, .qu, .zp, .dc, .tg, .out, .fresh]
  | .zpSwapArm .. => [.regs, .flow, .zp]
  | .zpSyncArm .. => [.regs, .flow, .zp]
  | .zpFadeEnd .. => [.regs, .flow, .zp, .ztu, .dc, .tg, .out, .fresh]
  | .zpInputGap .. => [.regs, .flow, .zp, .ztu, .dc, .tg, .out, .fresh]
  | .zpFrameClose .. => [.regs, .flow, .zp, .ztu, .dc, .tg, .out, .fresh]
  | .ztuEnable .. => [.regs, .flow, .cmem, .cm, .qu, .ztu, .dc, .tg, .out, .fresh]
  | .ztuTransformDone .. => [.ztu, .dc, .fresh]
  | .btEnable .. => [.regs, .flow, .cmem, .cm, .qu, .bt, .dc, .tg, .out, .fresh]
  | .btDisable .. => [.regs, .flow, .cmem, .cm, .qu, .bt, .dc, .tg, .out, .fresh]
  | .btEqArm .. => [.regs, .flow, .bt]
  | .btSyncArm .. => [.regs, .flow, .bt]
  | .btEqFadeEnd .. => [.regs, .flow, .bt, .dc, .ce, .out]
  | .btInputGap .. => [.regs, .flow, .bt, .dc, .ce, .out]
  | .btSpectrumDone .. => [.regs, .flow, .bt, .dc, .ce, .out]
  | .btEqDataAccess .. => [.regs, .bt, .out]
  | .btWinDataAccess .. => [.regs, .bt, .out]
  | .pipelineCheckFail .. => [.regs, .power, .flow, .time, .alarm, .msix, .ft, .cm, .af, .zp, .bt, .tg, .kl, .kh, .bd, .hs, .out, .fresh]
  | .detectionSpectrum .. => [.regs, .flow, .dc, .tg, .out]
  | .dcIntFlush .. => [.regs, .flow, .dc, .out]
  | .dcIntEnable .. => [.regs, .flow, .dc, .out]
  | .dcSourceDisabled .. => [.regs, .flow, .dc, .tg, .out]
  | .dcSourceGap .. => [.regs, .flow, .dc, .tg, .out]
  | .dcPlEnable .. => [.regs, .flow, .cmem, .cm, .qu, .dc, .tg, .out, .fresh]
  | .dcPlClear .. => [.regs, .flow, .dc, .tg]
  | .densSnapshot .. => [.flow, .dc, .out]
  | .dcMaskDataAccess .. => [.regs, .bt, .out]
  | .tgUnitEnable .. => [.regs, .flow, .cm, .tg, .kh, .out, .fresh]
  | .tgUnitDisable .. => [.regs, .flow, .cm, .tg, .kh, .out, .fresh]
  | .tgUnitArm .. => [.regs, .flow, .cm, .tg, .out, .fresh]
  | .tgLevelCrossing .. => [.regs, .flow, .qu, .tg, .out, .fresh]
  | .tgMaskEval .. => [.regs, .flow, .qu, .tg, .out, .fresh]
  | .tgDensityOverEval .. => [.regs, .flow, .qu, .tg, .out, .fresh]
  | .tgBandEval .. => [.regs, .flow, .cm, .qu, .tg, .out, .fresh]
  | .tgDriftStepEval .. => [.regs, .flow, .cmem, .cm, .qu, .tg, .out, .fresh]
  | .tgDriftClusterEnd .. => [.regs, .flow, .qu, .tg, .out, .fresh]
  | .tgHoldoffEnd .. => [.regs]
  | .tgFabricReceive .. => [.regs, .flow, .qu, .tg, .out, .fresh]
  | .tgHostFire .. => [.regs, .flow, .qu, .tg, .out, .fresh]
  | .tgHostDue => [.regs, .flow, .qu, .tg, .out, .fresh]
  | .tgSeqHoldRelease .. => [.regs, .flow, .qu, .tg, .out, .fresh]
  | .tgSeqTimeout .. => [.regs, .tg]
  | .tgSourceGap .. => [.regs, .flow, .cmem, .cm, .qu, .tg, .out, .fresh]
  | .tgQw0Read .. => [.regs, .tg, .out]
  | .tgQw7Read .. => [.regs, .tg, .out]
  | .tgQueueSpaceReturn .. => [.regs, .flow, .tg, .out, .fresh]
  | .tgFrameClose .. => [.regs, .flow, .tg, .out, .fresh]
  | .quVrEnable .. => [.regs, .power, .flow, .alarm, .msix, .cmem, .cm, .qu, .tg, .out]
  | .quRingWriteLoss .. => [.regs, .qu]
  | .quGroupEnable .. => [.regs, .power, .flow, .alarm, .msix, .cmem, .cm, .qu, .tg, .out]
  | .quGroupDisable .. => [.regs, .power, .flow, .alarm, .msix, .cmem, .cm, .qu, .tg, .out]
  | .quTriggerOffer .. => [.regs, .flow, .qu, .out]
  | .quCopyStart .. => [.regs, .power, .flow, .alarm, .msix, .cmem, .cm, .qu, .tg, .out]
  | .quQuireClose .. => [.regs, .power, .flow, .alarm, .msix, .cmem, .cm, .qu, .tg, .out]
  | .quRelease .. => [.regs, .qu]
  | .quExportSlice .. => [.flow, .qu, .out]
  | .ceXsEnable .. => [.regs, .flow, .ce]
  | .ceBmEnable .. => [.regs, .flow, .ce, .kh, .out]
  | .ceSpectrumArrive .. => [.regs, .power, .flow, .alarm, .msix, .et, .ce, .out]
  | .ceAlignTimeout => [.regs, .flow, .ce, .out]
  | .ceDumpTimeout => [.regs, .flow, .ce, .out]
  | .ceChildRecord .. => [.regs, .power, .flow, .alarm, .msix, .ce, .out]
  | .ceSlotDeadline .. => [.regs, .flow, .ce, .out]
  | .ceBmArm .. => [.regs, .flow, .ce]
  | .ceBmRampStep .. => [.regs, .ce]
  | .ceWtDataAccess .. => [.regs, .ce, .out]
  | .klPortEnable .. => [.regs, .power, .flow, .time, .alarm, .msix, .kl, .kh, .out, .fresh]
  | .klPortUp .. => [.regs, .kl]
  | .klPortDown .. => [.regs, .power, .flow, .time, .alarm, .msix, .kl, .kh, .out, .fresh]
  | .klCodewordReceive .. => [.regs, .power, .flow, .time, .alarm, .msix, .ft, .cm, .kl, .kh, .out, .fresh]
  | .klRecordReceive .. => [.regs, .kl, .kh]
  | .klRecordAbort .. => [.regs, .kl]
  | .klAlignSend .. => [.kl, .out]
  | .klSbAlign .. => [.regs, .power, .flow, .alarm, .msix, .kl, .out]
  | .klSbSwap .. => [.regs, .power, .flow, .alarm, .msix, .ft, .cm, .kl, .out]
  | .klSbAck .. => [.regs, .kl]
  | .klSbNarrow .. => [.regs, .power, .flow, .alarm, .msix, .kl, .out]
  | .klLaneFail .. => [.regs, .power, .flow, .time, .alarm, .msix, .ft, .cm, .kl, .kh, .out, .fresh]
  | .klSpareSwitch .. => [.regs, .power, .flow, .time, .alarm, .msix, .ft, .kl, .kh, .out, .fresh]
  | .klSpareEnable .. => [.regs, .power, .flow, .time, .alarm, .msix, .ft, .kl, .kh, .out, .fresh]
  | .klFlowOn .. => [.regs, .flow, .kl]
  | .klTimeSend .. => [.kl, .out]
  | .klSbTime .. => [.regs, .power, .flow, .time, .alarm, .msix, .kl, .out, .fresh]
  | .klTtCal .. => [.regs, .kl]
  | .klTtCalDone .. => [.regs, .kl]
  | .klExArp .. => [.regs, .out]
  | .klExNeighborSolicit .. => [.regs, .out]
  | .klExRxDrop .. => [.regs]
  | .klExRecordSend .. => [.regs, .kl, .out]
  | .khWaggleSend => [.kh, .out]
  | .khWaggleReceive .. => [.regs, .power, .flow, .time, .alarm, .msix, .kh, .out, .fresh]
  | .khNeighbourLost .. => [.regs, .power, .flow, .time, .alarm, .msix, .kh, .out, .fresh]
  | .khLsaSend => [.kh, .out]
  | .khLsaReceive .. => [.regs, .power, .flow, .alarm, .msix, .kl, .kh, .out]
  | .khSwarmsReceive .. => [.kh, .out]
  | .khRootTimeout => [.regs, .power, .flow, .time, .alarm, .msix, .kh, .out, .fresh]
  | .khRootTakeover => [.regs, .power, .flow, .time, .alarm, .msix, .kh, .out, .fresh]
  | .khRouteInstall => [.regs, .power, .flow, .time, .alarm, .msix, .kl, .kh, .out, .fresh]
  | .khAddrReq .. => [.kh, .out]
  | .khAddrGrant .. => [.regs, .kh, .out]
  | .khScOn .. => [.regs, .flow, .kh, .out]
  | .khAnnounce .. => [.regs, .flow, .kh, .out]
  | .khAnswer .. => [.regs, .flow, .ce, .kh, .out]
  | .khCreditSend .. => [.kl, .out]
  | .khCreditReceive .. => [.kl]
  | .khRecordStart .. => [.regs, .flow, .kl, .kh, .out]
  | .khRecordDeliver .. => [.regs, .flow, .kl, .kh, .out, .fresh]
  | .khMgGo .. => [.regs, .kh, .out]
  | .khMreq .. => allParts
  | .khMrsp .. => [.regs, .kh, .out]
  | .khMgTimeout => [.regs, .kh]
  | .khNodeQuery .. => [.regs]
  | .cmRequest .. => [.regs, .power, .flow, .alarm, .msix, .cmem, .cm, .qu, .tg, .out, .fresh]
  | .cmRefreshDue .. => [.regs, .cm]
  | .cmMr4Poll .. => [.regs, .power, .flow, .alarm, .msix, .cm, .out]
  | .cmRowIdleClose .. => [.cm]
  | .cmSrEntry .. => [.regs, .cm]
  | .cmPatrolRead .. => [.regs, .power, .flow, .alarm, .msix, .cm, .out]
  | .cmWckOscCheck .. => [.regs]
  | .cmInitDone => [.cm]
  | .bdVsOpen .. => [.regs, .power, .flow, .alarm, .msix, .kh, .bd, .out]
  | .bdVsClose .. => [.regs, .power, .flow, .alarm, .msix, .kh, .bd, .out]
  | .bdRecordReceive .. => [.regs, .bd, .out]
  | .bdProgramDone .. => [.regs, .power, .flow, .alarm, .msix, .kh, .bd, .out]
  | .bdOperationFail .. => [.regs, .power, .flow, .alarm, .msix, .kh, .bd, .out]
  | .bdLunTimeout .. => [.regs, .power, .flow, .alarm, .msix, .kh, .bd, .out]
  | .bdSectionFull .. => [.regs, .power, .flow, .alarm, .msix, .cm, .kh, .bd, .out]
  | .bdEraseDone .. => [.regs, .power, .flow, .alarm, .msix, .bd, .out]
  | .bdCheckpoint => [.bd]
  | .bdCatDel .. => [.regs, .bd]
  | .bdPatrolRead .. => [.bd]
  | .bdAgeTick => [.bd, .fresh]
  | .bdFlashTempWrite .. => [.regs, .bd]
  | .bdFlashTempTimeout => [.regs]
  | .bdRelocateDone .. => [.regs, .power, .flow, .alarm, .msix, .bd, .out]
  | .bdRebuildDone .. => [.regs, .power, .flow, .alarm, .msix, .bd, .out]
  | .bdSpineSnapshot .. => [.regs, .power, .flow, .alarm, .msix, .bd, .out]
  | .bdRecovery .. => [.regs, .flow, .bd, .out]
  | .bdFormat .. => [.regs, .power, .flow, .alarm, .msix, .kh, .bd, .out]
  | .bdQuiesce .. => [.regs, .power, .flow, .alarm, .msix, .kh, .bd, .out]
  | .bdRsGo .. => [.regs, .bd]
  | .bdRsStop .. => [.regs, .bd]
  | .bdLeafRead .. => [.regs, .power, .flow, .alarm, .msix, .bd, .out, .fresh]
  | .pcieLinkUp .. => [.regs]
  | .pePerst => [.regs, .flow, .msix, .hs]
  | .pcieFunctionReset => [.regs, .flow, .msix, .hs]
  | .windowMRequest .. => allParts
  | .windowDRead .. => [.regs, .power, .flow, .alarm, .msix, .cmem, .cm, .qu, .tg, .out, .fresh]
  | .windowDWrite .. => [.regs, .power, .flow, .alarm, .msix, .cmem, .cm, .qu, .tg, .out]
  | .dmaEnable .. => [.regs, .flow, .hs, .out]
  | .dmaDisable .. => [.regs, .flow, .hs, .out]
  | .dmaGo .. => [.regs, .flow, .hs, .out]
  | .dmaAbort .. => [.regs, .flow, .hs, .out]
  | .dmaDescriptorFetched .. => [.regs, .power, .flow, .alarm, .msix, .cmem, .cm, .qu, .tg, .hs, .out, .fresh]
  | .dmaRequestCompletion .. => [.regs, .power, .flow, .alarm, .msix, .cmem, .cm, .qu, .tg, .hs, .out, .fresh]
  | .dmaDescriptorConfirmed .. => [.regs, .flow, .msix, .hs, .out]
  | .dmaSinkRecord .. => [.regs, .power, .flow, .alarm, .msix, .cmem, .cm, .qu, .tg, .hs, .out]
  | .dmaSinkFlush .. => [.regs, .flow, .msix, .hs, .out]
  | .dmaCompletionRoom .. => [.regs, .msix, .hs, .out]
  | .hqEnable .. => [.regs, .hs]
  | .hqLoRead .. => [.regs, .hs, .out]
  | .hqHiRead .. => [.regs, .hs, .out]
  | .hqCmdMark .. => [.regs, .msix, .hs, .out]
  | .hqCmdRewind .. => [.regs, .msix, .hs, .out]
  | .hqCmdRelease .. => [.regs, .msix, .hs, .out]
  | .hqLoWrite .. => [.regs, .hs, .out]
  | .hqHiWrite .. => [.regs, .hs, .out]
  | .hqDescStart .. => [.regs, .msix, .hs, .out]
  | .hqMgmtExecute .. => allParts
  | .msixUnmask .. => [.msix, .out]
  | .dsHeadEnable .. => [.regs, .flow, .cm, .kh, .ds, .out, .fresh]
  | .dsHpdRise .. => [.regs, .ds]
  | .dsHpdFall .. => [.regs, .ds]
  | .dsIrqHpd .. => [.regs, .ds]
  | .dsTrainRetry .. => [.ds]
  | .dsAuxGo .. => [.regs, .ds]
  | .dsAuxReply .. => [.regs]
  | .dsAuxTimeout .. => [.regs]
  | .dsFrameStart .. => [.regs, .power, .flow, .alarm, .msix, .cmem, .cm, .qu, .tg, .ds, .out, .fresh]
  | .dsUnderrun .. => [.regs, .ds]
  | .dsDensSnapshot .. => [.regs, .power, .flow, .alarm, .msix, .cmem, .cm, .qu, .tg, .ds, .out]
  | .dsSpecIntegration .. => [.regs, .power, .flow, .alarm, .msix, .ds, .out, .fresh]
  | .dsPalDataAccess .. => [.regs, .ds, .out]
  | .biOpen .. => [.regs, .ft, .ca, .im, .fresh]
  | .biEraseDone => [.regs, .im]
  | .biDataWrite .. => [.regs, .im, .fresh]
  | .biCommit .. => [.regs, .ft, .ca, .im, .fresh]
  | .biCheckDone => [.regs, .im]
  | .biClose .. => [.regs, .ft, .ca, .im, .fresh]
  | .biSessionExpire => [.regs, .im]
  | .biBoot .. => [.regs, .ft, .ca, .im, .fresh]
  | .biHoldNext .. => [.regs, .ft, .ca, .im, .fresh]
  | .biFuseBlow .. => [.regs, .im]
  | .biFuseRevoke .. => [.regs, .im]
  | .i2cTransaction .. => allParts
  | .jtagMgmtAccess .. => allParts
  | .uartRequest .. => allParts
  | .protStageWrite .. => [.regs, .prot]
  | .protCommit .. => [.regs, .prot]
  | .protDiscard .. => [.regs, .prot]
  | .protStageExpire => [.regs, .prot]
  | .alarmHoldExpire .. => [.regs, .flow, .alarm, .out]
  | .alarmClear .. => [.regs, .power, .flow, .alarm, .msix, .out]
  | .caGo .. => [.regs, .flow, .af, .ca, .zp, .bt, .tg, .out]
  | .caInputMeasDone .. => [.regs, .power, .flow, .alarm, .msix, .cmem, .cm, .af, .ca, .qu, .zp, .bt, .tg, .out]
  | .caInterpolatorExchange .. => [.ca]
  | .caRunStore .. => [.regs, .power, .flow, .alarm, .msix, .ft, .ca, .out]
  | .caRampStep .. => [.regs, .af, .ca]
  | .caTempEval .. => [.af]
  | .sramCorrection .. => [.regs, .ft]
  | .blockCheckFail .. => [.regs, .power, .flow, .time, .alarm, .msix, .ft, .cm, .af, .zp, .bt, .tg, .kl, .kh, .bd, .hs, .out, .fresh]
  | .blockTakeoverDone .. => [.regs, .power, .flow, .time, .alarm, .msix, .ft, .cmem, .cm, .af, .qu, .zp, .ztu, .bt, .dc, .tg, .ce, .kl, .kh, .bd, .out, .fresh]
  | .regionPollMiss .. => [.regs, .power, .flow, .alarm, .msix, .kl, .kh, .bd, .hs, .out]
  | .patrolTestStart .. => [.regs, .ft]
  | .patrolTestDone .. => [.regs, .power, .flow, .alarm, .msix, .ft, .out]
  | .ftReadmit .. => [.regs, .ft]
  | .ftReadmitDone .. => [.regs, .power, .flow, .alarm, .msix, .ft, .out]
  | .ftFuseBlow .. => [.regs, .power, .flow, .alarm, .msix, .ft, .out]
  | .ftTempRead .. => [.regs, .power, .flow, .alarm, .msix, .ft, .ca, .kh, .bd, .hs, .out]
  | .ftThermalAccount => [.ft]
  | .dmaCompletionTimeout .. => [.regs, .msix, .hs, .out]
  | .dsLinkTrainingDone .. => [.regs, .power, .flow, .alarm, .msix, .ds, .out]
  | .biPageProgramDone .. => [.regs, .im]
  | .freqGateEmptyEnd .. => [.regs, .et]

end Sys2Proof.Machine
end

