-- ==== Sys2Proof/Certificates/Slice0/Obligations.lean ====
section
/-! DEFINITION. Certificates/Slice0/Obligations.lean: what the provers prove of the model. Each statement names the rules of the
spec it rests on. -/

open Sys2Proof Sys2Proof.Machine

/-- The step takes the front command and runs it on the state whose queue is the rest. -/
def Obligations.StepRunsFrontCommand : Prop :=
  ∀ (c : Instr) (rest : List Instr) (s : State),
    step { s with pending := c :: rest } = exec c { s with pending := rest }

/-- No command ends a run. -/
def Obligations.EveryCommandCompletes : Prop :=
  ∀ (c : Instr) (s : State), ∃ t, exec c s = .next t

/-- The frame of every command, over the parts of the state (Safety.lean lists them). -/
def Obligations.EveryCommandsFrame : Prop :=
  ∀ (c : Instr) (s t : State), exec c s = .next t → SameBut (touches c) s t

/-- Output only grows, in order; the variant and the waiting commands are left alone. -/
def Obligations.CommandsKeepQueueAndOutput : Prop :=
  ∀ (c : Instr) (s t : State), exec c s = .next t →
    t.variant = s.variant ∧ t.pending = s.pending ∧ s.out <+: t.out ∧ s.freshCount ≤ t.freshCount

/-- The invariant of every step, an idle one included. -/
def Obligations.EveryStepKeepsCanonicalForm : Prop :=
  ∀ s t : State, s.canonical = true → step s = .next t → t.canonical = true

/-- The invariant holds at the start. -/
def Obligations.ResetStateIsCanonical : Prop := State.reset.canonical = true

/-- Supplies and the way out of RESET (R447, R592, R611 to R613, R621, R643, R645). -/
def Obligations.SuppliesMoveDeviceState : Prop :=
  (∀ s : State, s.devState = 0 → ∃ t, exec .powerGood s = .next t ∧ t.devState = 1 ∧ t.get GLOBAL_DEVSTATE_PREV = 0 ∧
    t.power.rails = true ∧ t.power.powerFailN = true ∧ t.cmem = [] ∧ t.flow = {} ∧ t.im.keys = s.im.keys ∧ t.bd.vols = s.bd.vols ∧
    t.ft.record = s.ft.record ∧ t.out = s.out) ∧
  (∀ s : State, s.devState ≠ 0 → ∃ t, exec .supplyOutOfRange s = .next t ∧ t.devState = 0 ∧
    t.get GLOBAL_DEVSTATE_PREV = s.devState ∧ t.power.rails = false ∧ t.power.alarmN = true ∧ t.power.replaceN = true ∧
    t.out = s.out ∧ t.bd.vols = s.bd.vols ∧ t.im.keys = s.im.keys) ∧
  (∀ s : State, s.devState ≠ 0 → s.power.powerFailN = true → ∃ t, exec .powerFail s = .next t ∧ t.power.powerFailN = false ∧
    t.regs = s.regs ∧ t.cmem = s.cmem ∧ t.out = s.out ∧ t.bd.vols = s.bd.vols ∧
    (4 ≤ s.devState → t.bd.failing = true ∧
      t.bd.note = some (s.now, (s.bd.vols.filter fun p => p.2.state = .recording).map fun p => (p.1, p.2.taken)))) ∧
  (∀ s : State, s.devState = 1 → s.power.resetHeld = false → ∃ t, exec .fuseReadDone s = .next t ∧ t.devState = 2 ∧
    t.get GLOBAL_DEVSTATE_PREV = 1 ∧ t.get (REGION_STATE_STATE 1) = 4 ∧ t.on (SYN_STATUS_LOCKED 1) = true ∧
    t.on (SYN_STATUS_GATED 1) = false ∧ t.cmem = s.cmem ∧ t.out = s.out)

/-- LOADER_SLOT_CHOICE (R504, R511, R512, R515, R521). -/
def Obligations.LoaderChoosesSlot : Prop :=
  (∀ s : State, s.devState = 2 → s.im.booted = none → s.power.chipHeld = false →
    ∃ t, exec (.loaderSlotChoice none) s = .next t ∧ t.get BI_STATUS_BOOT_REASON = 0x0906 ∧ t.devState = 2 ∧ t.im = s.im) ∧
  (∀ (s : State) (n : Word), s.devState = 2 → s.im.booted = none → s.power.chipHeld = false →
    33554432 ≤ n.toNat → n.toNat ≤ 536870912 → s.devRec.holdNext = false → s.devRec.armed = false →
    ∃ t, exec (.loaderSlotChoice (some n)) s = .next t ∧
      (let u : State := { s with im := { s.im with flashSize := n.toNat } }
       let a := s.devRec.active
       (u.slotCheck a = 0 → t.devState = 3 ∧ t.im.booted.map (fun b => b.slot) = some a ∧ t.get BI_STATUS_SLOT = a % 2) ∧
       (u.slotCheck a ≠ 0 → u.slotCheck (1 - a) = 0 →
         t.devState = 3 ∧ t.im.booted.map (fun b => b.slot) = some (1 - a) ∧ t.get BI_STATUS_BOOT_REASON ≠ 0) ∧
       (u.slotCheck a ≠ 0 → u.slotCheck (1 - a) ≠ 0 →
         t.devState = 2 ∧ t.im.booted = none ∧ t.get BI_STATUS_BOOT_REASON = u.slotCheck a))) ∧
  (∀ (s : State) (n : Word), s.devState = 2 → s.im.booted = none → s.power.chipHeld = false →
    33554432 ≤ n.toNat → n.toNat ≤ 536870912 → s.devRec.holdNext = true →
    ∃ t, exec (.loaderSlotChoice (some n)) s = .next t ∧ t.devState = 2 ∧ t.im.booted = none ∧ t.devRec.holdNext = false)

/-- The way from BIST to RUN (R39, R515, R541, R542, R592, R643, R645). -/
def Obligations.StartupReachesRun : Prop :=
  (∀ s : State, s.devState = 3 → s.power.chipHeld = false → s.on (SYN_STATUS_LOCKED 0) = true →
    (∀ k ∈ allRegions, absentRegion s.variant k = false → s.on (SYN_STATUS_LOCKED k) = true) →
    ∃ t, exec (.startBistDone [] [] [] none) s = .next t ∧ t.devState = 4 ∧ t.get GLOBAL_DEVSTATE_PREV = 3 ∧ t.cmem = s.cmem) ∧
  (∀ s : State, s.devState = 4 →
    ∃ t, exec .fabricTrainingDone s = .next t ∧ t.power.fabricTrained = true ∧ t.devState = 4 ∧ t.cmem = s.cmem ∧ t.out = s.out) ∧
  (∀ (s : State) (k : Fin 16) (prog : List Byte) (b : BootedImage) (x : ImgSec), s.devState = 4 → 2 ≤ k.val →
    absentRegion s.variant k = false → s.lost k = false → s.regionState k < 4 → s.memTrained = true →
    s.power.fabricTrained = true → s.im.booted = some b →
    (imgSections (s.slotOf b.slot)).find? (fun y => y.type = programSection k) = some x →
    ∃ t, exec (.regionLoadDone k prog []) s = .next t ∧
      (Config.sha384 prog = x.hash → t.regionState k = 4 ∧ t.cmem = s.cmem ∧ t.out = s.out) ∧
      (Config.sha384 prog ≠ x.hash → t.lost k = true)) ∧
  (∀ s : State, s.devState = 4 → s.power.setupFirst = false → s.power.setupStopped = false → setupHeaderOk s.setupBytes = true →
    s.lost 11 = false → s.get GLOBAL_SETUP_STATUS_REFUSALS = 0 →
    (∀ i, i < imgField s.setupBytes 4 4 → firstPass (setupEntry s.setupBytes i).1 = false) →
    ∃ t, exec .setupFirstPass s = .next t ∧ t.power.setupFirst = true ∧ t.prot.owner = .record ∧
      t.get GLOBAL_SETUP_STATUS_MODE = imgField s.setupBytes 8 1 ∧ t.get GLOBAL_SETUP_STATUS_REFUSALS = 0 ∧
      t.on (SYN_STATUS_GATED 11) = true ∧ t.on (SYN_STATUS_LOCKED 11) = false ∧
      (t.syn 11).khz = some (if s.get CM_CFG_RATE = 4 then synNominal 11 else cmRate (s.get CM_CFG_RATE) * 125) ∧
      t.devState = 4 ∧ t.cmem = s.cmem ∧ t.out = s.out) ∧
  (∀ s : State, s.devState = 4 → s.power.setupFirst = false → setupHeaderOk s.setupBytes = false → s.lost 11 = false →
    s.get GLOBAL_SETUP_STATUS_REFUSALS = 0 →
    ∃ t, exec .setupFirstPass s = .next t ∧ t.power.setupFirst = true ∧ t.get GLOBAL_SETUP_STATUS_REFUSALS = 1 ∧
      t.get GLOBAL_SETUP_STATUS_FIRST_REASON = 0x0103 ∧ t.val GLOBAL_SETUP_FIRST = 0xFFFFFFFE ∧
      t.on (SYN_STATUS_GATED 11) = true ∧ t.on (SYN_STATUS_LOCKED 11) = false) ∧
  (∀ s : State, s.devState = 4 → s.power.setupFirst = true → s.power.setupSecond = false →
    (∀ k ∈ allRegions.drop 1, absentRegion s.variant k = false → 4 ≤ s.regionState k) →
    s.cmServes = false ∨ s.cm.initDone = true → setupHeaderOk s.setupBytes = false →
    ∃ t, exec .setupSecondPass s = .next t ∧
      (s.strict = true → s.get GLOBAL_SETUP_STATUS_REFUSALS ≠ 0 → t.devState = 4 ∧ t.power.setupSecond = true) ∧
      (s.strict = false → t.devState = 5 ∧ t.power.setupSecond = true))

/-- State requests and chip-level faults (R38, R40 to R42, R591). -/
def Obligations.StateRequestsFollowTable : Prop :=
  (∀ (s : State) (p : Fin 5), s.mayWrite p GLOBAL_STATE_REQ = true → s.devState = 6 →
    ∃ t, exec (.stateReqRun p) s = .next t ∧ t.devState = 5 ∧ t.get GLOBAL_STATE_REQ_REASON = 0 ∧ t.get GLOBAL_DEVSTATE_PREV = 6) ∧
  (∀ (s : State) (p : Fin 5), s.mayWrite p GLOBAL_STATE_REQ = true → s.devState = 5 →
    ∃ t, exec (.stateReqWatch p) s = .next t ∧ t.devState = 6 ∧ t.get GLOBAL_STATE_REQ_REASON = 0 ∧ t.get GLOBAL_DEVSTATE_PREV = 5) ∧
  (∀ (s : State) (p : Fin 5), s.mayWrite p GLOBAL_STATE_REQ = true → s.devState = 5 ∨ s.devState = 6 →
    ∃ t, exec (.stateReqSafe p) s = .next t ∧ t.devState = 7 ∧ t.get GLOBAL_STATE_REQ_REASON = 0 ∧
      t.get GLOBAL_DEVSTATE_PREV = s.devState ∧ t.get GLOBAL_DEVSTATE_SAFE_CAUSE = 0 ∧ t.power.alarmN = false) ∧
  (∀ (s : State) (p : Fin 5), s.mayWrite p GLOBAL_STATE_REQ = true →
    s.devState = 2 ∨ s.devState = 4 ∨ s.devState = 5 ∨ s.devState = 6 ∨ s.devState = 7 ∨ (s.devState = 3 ∧ s.power.chipHeld = true) →
    ∃ t, exec (.stateReqReset p) s = .next t ∧ t.devState = 1 ∧ t.get GLOBAL_DEVSTATE_PREV = s.devState ∧ t.cmem = [] ∧
      t.im.keys = s.im.keys) ∧
  (∀ (s : State) (p : Fin 5), s.mayWrite p GLOBAL_STATE_REQ = true → s.devState ≠ 6 →
    ∃ t, exec (.stateReqRun p) s = .next t ∧ t.devState = s.devState ∧ t.get GLOBAL_STATE_REQ_REASON = 0x0701 ∧
      t.get (GLOBAL_REFUSAL_REASON p) = 0x0701 ∧ t.cmem = s.cmem ∧ t.out = s.out) ∧
  (∀ (s : State) (p : Fin 5), s.mayWrite p GLOBAL_STATE_REQ = true → s.devState ≠ 5 →
    ∃ t, exec (.stateReqWatch p) s = .next t ∧ t.devState = s.devState ∧ t.get GLOBAL_STATE_REQ_REASON = 0x0701 ∧
      t.get (GLOBAL_REFUSAL_REASON p) = 0x0701 ∧ t.cmem = s.cmem ∧ t.out = s.out) ∧
  (∀ (s : State) (p : Fin 5), s.mayWrite p GLOBAL_STATE_REQ = true → s.devState ≠ 5 → s.devState ≠ 6 →
    ∃ t, exec (.stateReqSafe p) s = .next t ∧ t.devState = s.devState ∧ t.get GLOBAL_STATE_REQ_REASON = 0x0701 ∧
      t.get (GLOBAL_REFUSAL_REASON p) = 0x0701 ∧ t.cmem = s.cmem ∧ t.out = s.out) ∧
  (∀ (s : State) (p : Fin 5), s.mayWrite p GLOBAL_STATE_REQ = true → s.devState = 3 → s.power.chipHeld = false →
    ∃ t, exec (.stateReqReset p) s = .next t ∧ t.devState = 3 ∧ t.get GLOBAL_STATE_REQ_REASON = 0x0701 ∧
      t.get (GLOBAL_REFUSAL_REASON p) = 0x0701 ∧ t.cmem = s.cmem ∧ t.out = s.out) ∧
  (∀ (s : State) (kind : Fin 8), kind.val ≠ 0 → 4 ≤ s.devState → s.devState ≠ 7 →
    ∃ t, exec (.chipLevelFault kind) s = .next t ∧ t.devState = 7 ∧ t.get GLOBAL_DEVSTATE_SAFE_CAUSE = 0x080F ∧
      t.get ST_FT_CHIP_KIND = kind.val ∧ t.power.alarmN = false) ∧
  (∀ (s : State) (kind : Fin 8), kind.val ≠ 0 → s.devState = 2 ∨ s.devState = 3 →
    ∃ t, exec (.chipLevelFault kind) s = .next t ∧ t.devState = s.devState ∧ t.power.chipHeld = true ∧ t.power.alarmN = false ∧
      t.get ST_FT_CHIP_KIND = kind.val)

/-- Markers at a first stage (R24, R28). -/
def Obligations.MarkerInsertionOrder : Prop :=
  (∀ (s : State) (st : FirstStage) (t : DevTime) (period off : Nat) (q : MarkerReq), st = .cb ∨ st = .et →
    firstDue st t s.flow.requests = some q →
    ∃ u, exec (.markerInsert st t period off) s = .next u ∧
      u.out = s.out ++ [.marker st ⟨q.type, decide ((period : Int) < tDiff t q.time), q.target, BitVec.ofNat 32 off, q.time, q.arg,
         kvGetD s.flow.markerSeq st.index 0⟩] ∧
      u.flow.requests = dropFirst q s.flow.requests ∧
      kvGetD u.flow.markerSeq st.index 0 = kvGetD s.flow.markerSeq st.index 0 + 1 ∧ u.cmem = s.cmem) ∧
  (∀ (st : FirstStage) (t : DevTime) (l : List MarkerReq) (q : MarkerReq), firstDue st t l = some q →
    (q ∈ l ∧ q.stage = st ∧ (q.now = true ∨ tLe q.time t = true) ∧
      ∀ r ∈ l, r.stage = st → r.now = true ∨ tLe r.time t = true → q.type.rank ≤ r.type.rank)) ∧
  (∀ (s : State) (st : FirstStage) (t : DevTime) (period off : Nat), st = .cb ∨ st = .et →
    firstDue st t s.flow.requests = none → exec (.markerInsert st t period off) s = .next s) ∧
  (∀ (s : State) (n : Nat) (t : DevTime) (period off : Nat) (k : Int) (q : MarkerReq), (s.inp n).runs = true →
    (s.inp n).firstDue n (s.insertLimit n) s.flow.requests = some (k, q) →
    ∃ u, exec (.markerInsert (.input n) t period off) s = .next u ∧
      u.out = s.out ++ [.marker (.input n) ⟨q.type,
         decide (((2 ^ 48 / (s.inp n).fs : Nat) : Int) < tDiff (tAddI (instTime (s.inp n).fs k) (s.inp n).lag) q.time), q.target,
         BitVec.ofNat 32 (k - (s.inp n).nextInst).toNat, q.time, q.arg, kvGetD s.flow.markerSeq n 0⟩] ∧
      u.flow.requests = dropFirst q s.flow.requests ∧
      kvGetD u.flow.markerSeq n 0 = kvGetD s.flow.markerSeq n 0 + 1 ∧ u.cmem = s.cmem) ∧
  (∀ (x : AfIn) (n : Nat) (lim : Int) (l : List MarkerReq) (k : Int) (q : MarkerReq), x.firstDue n lim l = some (k, q) →
    (q ∈ l ∧ q.stage = .input n ∧ k = x.dueAt q ∧ k < lim ∧
      ∀ r ∈ l, r.stage = .input n → k ≤ x.dueAt r ∧ (k = x.dueAt r → q.type.rank ≤ r.type.rank)))

/-- Markers at consumers, exits and back-pressure (R17, R30, R32, R35, R37, R260, R582, R583). -/
def Obligations.ExitsFenceAndCount : Prop :=
  (∀ (s : State) (k : Fin 16) (id : BitVec 16) (m : Marker), m.type = .epoch →
    ∃ t, exec (.markerEpoch k id m) s = .next t ∧ t.heldEpoch k id = BitVec.ofNat 8 m.arg.toNat ∧ t.regs = s.regs ∧ t.out = s.out ∧
      (∀ j : Fin 16, j ≠ k → t.heldEpoch j id = s.heldEpoch j id)) ∧
  (∀ (s : State) (m : Marker), m.type = .timeStep →
    ∃ t, exec (.markerTimeStep m) s = .next t ∧ (∀ r ∈ [0, 1, 2, 3, 4], kvGetD t.tg.markers r [] = kvGetD s.tg.markers r [] ++ [m]) ∧
      (∀ p ∈ t.tg.bands, p.2.holdEnd = none) ∧ (∀ r ∈ [0, 1, 2, 3, 4], ∀ u : Fin 16, u.val < tgUnits r → (t.tgu r u).holdEnd = none) ∧
      t.cmem = s.cmem) ∧
  (∀ (s : State) (e : Exit) (inst : Nat) (f : Frame), s.accepts (exitRegion e inst) = true →
    s.swHeld (4 * exitRegion e inst + s.portOf (16 + exitRegion e inst) f.stream) = [] → (∀ m ∈ f.markers, m.type ≠ .epoch) →
    s.heldEpoch (s.fenceRegion e inst f.stream) f.stream = f.epoch →
    ∃ t, exec (.exitFrameReceive e inst (.inl f)) s = .next t ∧ t.out = s.out ++ [.record e inst (recordOf s e inst f)] ∧
      t.exitSeqOf e inst f.stream = s.exitSeqOf e inst f.stream + 1 ∧ t.regs = s.regs) ∧
  (∀ (s : State) (e : Exit) (inst : Nat) (f : Frame), s.accepts (exitRegion e inst) = true →
    s.swHeld (4 * exitRegion e inst + s.portOf (16 + exitRegion e inst) f.stream) = [] → (∀ m ∈ f.markers, m.type ≠ .epoch) →
    s.heldEpoch (s.fenceRegion e inst f.stream) f.stream ≠ f.epoch →
    ∃ t, exec (.exitFrameReceive e inst (.inl f)) s = .next t ∧ t.flow.exitSeq = s.flow.exitSeq ∧
      t.flow.hiveOut = s.flow.hiveOut ∧
      (s.fenceRegion e inst f.stream < 16 → t.val (FT_FENCED (s.fenceRegion e inst f.stream)) =
        (s.val (FT_FENCED (s.fenceRegion e inst f.stream)) + 1) % 2 ^ 32)) ∧
  (∀ (s : State) (e : Exit) (inst : Nat) (g : GapRec), s.accepts (exitRegion e inst) = true →
    s.swHeld (4 * exitRegion e inst + s.portOf (16 + exitRegion e inst) g.stream) = [] →
    ∃ t, exec (.exitFrameReceive e inst (.inr g)) s = .next t ∧
      (let r := recordOfGap s e inst (s.streamRegion g.stream) g
       t.out = s.out ++ [.record e inst r] ∧ r.type = 0x0B ∧ r.stream = g.stream ∧ r.gapLength = g.length ∧
       r.gapCause = g.cause ∧ r.seq = s.exitSeqOf e inst g.stream) ∧
      t.exitSeqOf e inst g.stream = s.exitSeqOf e inst g.stream + 1) ∧
  (∀ (s : State) (e : Exit) (inst : Nat) (x : Sum Frame GapRec), s.accepts (exitRegion e inst) = false →
    ∃ t, exec (.exitFrameReceive e inst x) s = .next t ∧ t.out = s.out ∧ t.flow.exitSeq = s.flow.exitSeq ∧
      (let k := 4 * exitRegion e inst + s.portOf (16 + exitRegion e inst) (SwItem.stream ⟨e, inst, x⟩)
       t.swHeld k = s.swHeld k ++ [⟨e, inst, x⟩])) ∧
  (∀ (s : State) (id : BitVec 16), (s.stream id).full = false →
    ∃ t, exec (.outputBufferFull id) s = .next t ∧ (t.stream id).full = true ∧ (t.stream id).lost = 0 ∧ t.out = s.out ∧ t.regs = s.regs) ∧
  (∀ (s : State) (id : BitVec 16), (s.stream id).full = true → s.stoppedAll = false →
    ∃ t, exec (.gapRecordEmit id) s = .next t ∧ (t.stream id).full = false ∧ (t.stream id).lost = 0 ∧
      t.out = s.out ++ (if (s.stream id).lost = 0 then [] else
        [.gap ⟨id, (s.stream id).lostTime, BitVec.ofNat 48 (s.stream id).lost, BitVec.ofNat 16 (s.stream id).lostCause, false⟩]))

/-- References (R55 to R58, R60, R62). -/
def Obligations.ReferencesSelectAndCoast : Prop :=
  (∀ (s : State) (r : Fin 3) (j : Int), s.get ST_REF_CTL_SOURCE = 0 → s.following = none → s.qualified 1 = false →
    s.qualified 2 = false → s.qualified 3 = false → (r.val = 2 → s.hiveStable = true) →
    ∃ t, exec (.refQualified r j) s = .next t ∧ t.qualified (r + 1) = true ∧ t.get ST_REF_STATUS_SELECTED = r.val + 1 ∧
      t.on ST_REF_STATUS_COASTING = false ∧ t.get ST_REF_STATUS_COAST_LEFT = s.get ST_REF_CTL_COAST_BUDGET) ∧
  (∀ (s : State) (r : Fin 3) (j : Int), s.get ST_REF_CTL_SOURCE < 4 → s.time.followed = true → s.qualified (r + 1) = true →
    (∀ k ∈ [1, 2, 3], k ≠ r.val + 1 → s.qualified k = false) →
    ∃ t, exec (.refLost r j) s = .next t ∧ t.qualified (r + 1) = false ∧ t.on ST_REF_STATUS_COASTING = true ∧ t.out = s.out) ∧
  (∀ (s : State) (p : Fin 5) (v : Word) (j : Int), s.mayWrite p ST_REF_CTL = true → bits v.toNat 2 0 ≤ 4 → bits v.toNat 27 16 ≠ 0 →
    ∃ t, exec (.refCtlWrite p v j) s = .next t ∧ t.get ST_REF_CTL_SOURCE = bits v.toNat 2 0 ∧
      t.get ST_REF_CTL_COAST_BUDGET = bits v.toNat 27 16) ∧
  (∀ (s : State) (p : Fin 5) (v : Word) (j : Int), s.mayWrite p ST_REF_CTL = true → 4 < bits v.toNat 2 0 ∨ bits v.toNat 27 16 = 0 →
    exec (.refCtlWrite p v j) s = .next (s.recordRefusal p ST_REF_CTL true (if 4 < bits v.toNat 2 0 then 0x0113 else 0x0116))) ∧
  (∀ s : State, s.on ST_REF_STATUS_COASTING = true →
    ∃ t, exec .coastSecond s = .next t ∧ t.get ST_REF_STATUS_COAST_LEFT = s.get ST_REF_STATUS_COAST_LEFT - 1 ∧
      t.on ST_REF_STATUS_COASTING = true ∧ (∀ a, a ≠ ST_REF_STATUS → t.reg a = s.reg a)) ∧
  (∀ s : State, s.on ST_REF_STATUS_COASTING = true → s.get ST_REF_STATUS_COAST_LEFT = 0 → s.on ST_REF_STATUS_EXHAUSTED = false →
    ∃ t, exec .coastExhausted s = .next t ∧ t.on ST_REF_STATUS_EXHAUSTED = true ∧
      (bits (s.val ST_REF_CTL) 15 15 = 0 → t.time.stopped = true ∧
        ∀ p ∈ s.flow.streams, p.2.opened = true → p.1 / 4096 ≤ 10 → p.1 ∈ t.flow.stopped ∧ (t.stream (BitVec.ofNat 16 p.1)).opened = false) ∧ (bits (s.val ST_REF_CTL) 15 15 = 1 → t.flow = s.flow)) ∧
  (∀ (s : State) (p : Fin 5), s.mayWrite p ST_REF_STATUS = true → s.on ST_REF_STATUS_EXHAUSTED = true →
    ∃ t, exec (.exhaustedClear p) s = .next t ∧ t.on ST_REF_STATUS_EXHAUSTED = !([1, 2, 3].any s.qualified)) ∧
  (∀ s : State, s.on ST_REF_STATUS_SLEWING = true →
    ∃ t, exec .slewEnd s = .next t ∧ t.on ST_REF_STATUS_SLEWING = false ∧ t.time.jumpLeft = 0 ∧ t.time.now = s.time.now ∧
      (∀ a, a ≠ ST_REF_STATUS → t.reg a = s.reg a))

/-- Device time (R63, R65 to R69, R510). The idle clause rests on assumption 3: an empty queue passes one timebase cycle. -/
def Obligations.DeviceTimeMoves : Prop :=
  (∀ (s : State) (r : StepReq), s.time.step = some r → tLt s.now r.time = false →
    ∃ t, exec .timeStepExecute s = .next t ∧ t.now = tAddI s.now r.arg ∧ t.time.step = none ∧ t.time.sub = 0) ∧
  (∀ (s : State) (r : StepReq), s.time.step = some r → tLt s.now r.time = true → exec .timeStepExecute s = .next s) ∧
  (∀ (s : State) (p : Fin 5) (v : Word), s.mayWrite p GLOBAL_TIME_SET_CTL = true → s.running = true → bits v.toNat 0 0 = 1 →
    bits v.toNat 2 2 = 0 → s.time.timeSet = none → s.time.step = none →
    ∃ t, exec (.timeSetArm p v) s = .next t ∧ t.on GLOBAL_TIME_SET_CTL_PENDING = true ∧ t.get GLOBAL_TIME_SET_CTL_REASON = 0 ∧
      t.time.timeSet = some ⟨s.reg GLOBAL_TIME_SET_SEC, false, some (ceilSec (tAdd s.now (usTicks 200)))⟩ ∧ t.now = s.now) ∧
  (∀ (s : State) (p : Fin 5) (v : Word), s.mayWrite p GLOBAL_TIME_SET_CTL = true → s.running = false → bits v.toNat 0 0 = 1 →
    bits v.toNat 2 2 = 0 → s.time.timeSet = none → s.time.step = none →
    ∃ t, exec (.timeSetArm p v) s = .next t ∧ t.on GLOBAL_TIME_SET_CTL_PENDING = true ∧ t.get GLOBAL_TIME_SET_CTL_REASON = 0 ∧
      t.time.timeSet = some ⟨s.reg GLOBAL_TIME_SET_SEC, false, some (atSec (secOf s.now + 1))⟩ ∧ t.now = s.now) ∧
  (∀ (s : State) (p : Fin 5) (v : Word), s.mayWrite p GLOBAL_TIME_SET_CTL = true → bits v.toNat 0 0 = 1 →
    s.time.timeSet ≠ none ∨ s.time.step ≠ none →
    ∃ t, exec (.timeSetArm p v) s = .next t ∧ t.get GLOBAL_TIME_SET_CTL_REASON = 0x0511 ∧ t.time = s.time) ∧
  (∀ (s : State) (x : TimeSet) (e : DevTime), s.time.timeSet = some x → x.edge = some e → tLt s.now e = false →
    ∃ t, exec .timeLoad s = .next t ∧ t.now = tAddI (atSec x.sec.toNat) (tDiff s.now e) ∧ t.time.timeSet = none ∧
      t.on GLOBAL_TIME_SET_CTL_PENDING = false ∧ t.time.cyc = cycAt t.now) ∧
  (∀ (s : State) (x : TimeSet), s.time.timeSet = some x → x.edge = none ∨ x.edge.any (fun e => tLt s.now e) = true →
    exec .timeLoad s = .next s) ∧
  (∀ (s : State) (p : Fin 5), s.mayRead p GLOBAL_DEVTIME_0 = true →
    ∃ t, exec (.devtimeSnapshot p) s = .next t ∧
      t.out = s.out ++ [.answer p GLOBAL_DEVTIME_0 (BitVec.ofNat 32 s.now.toNat) 0] ∧ (t.snap p).time = s.now ∧
      (t.snap p).seq = (s.snap p).seq + 1 ∧ (t.snap p).coasting = s.on ST_REF_STATUS_COASTING ∧ t.regs = s.regs) ∧
  (∀ (s : State) (m : Int),
    ∃ t, exec (.xoCorrection m) s = .next t ∧ t.time.xoCorr = m + signed 32 (s.val ST_XO_AGE) ∧ t.now = s.now ∧ t.regs = s.regs) ∧
  (∀ (s : State) (d : Int) (e : DevTime), s.time.followFrom = some e → s.on ST_REF_CTL_AGE_LEARN = true →
    s.following.isSome = true → tLt s.now (tAdd e (1000 * 2 ^ 48)) = false → d % 8 = 0 →
    ∃ t, exec (.xoAgeLearn d) s = .next t ∧ t.val ST_XO_AGE = unsign 32 (signed 32 (s.val ST_XO_AGE) + d / 8) ∧
      t.time.followFrom = some s.now ∧ t.devRec.xoAge = t.reg ST_XO_AGE ∧ t.freshCount = s.freshCount) ∧
  (∀ (s : State) (p : Fin 5) (v : Word), s.mayWrite p ST_XO_AGE = true →
    ∃ t, exec (.xoAgeWrite p v) s = .next t ∧ t.reg ST_XO_AGE = v ∧ t.devRec.xoAge = v ∧
      (∀ a, a ≠ ST_XO_AGE → t.reg a = s.reg a)) ∧
  (∀ s : State, s.pending = [] → s.time.started = true → s.devState ≠ 0 → s.time.cyc + 1 = 3200000000 → s.time.slewAt = none →
    ∃ t, step s = .next t ∧ t.now = atSec (secOf s.now + 1) ∧ t.time.cyc = 0)

/-- PPS and SYNC_OUT (R70 to R73). -/
def Obligations.PulsesInAndOut : Prop :=
  (∀ (s : State) (t0 l : DevTime), s.on ST_REF_CTL_PPS_EN = true → s.time.ppsLast = some l → 2 ≤ s.time.ppsGood →
    (tDiff (tAddI t0 (-(psTicks (signed 32 (s.val ST_PPS_DELAY))))) l - 2 ^ 48).natAbs ≤ usTicks 1 →
    ∃ t, exec (.ppsEdge t0) s = .next t ∧ t.on ST_REF_STATUS_PPS_OK = true ∧ t.time.ppsGood = s.time.ppsGood + 1 ∧
      t.time.ppsLast = some (tAddI t0 (-(psTicks (signed 32 (s.val ST_PPS_DELAY)))))) ∧
  (∀ s : State, s.on ST_REF_STATUS_PPS_OK = true → s.time.ppsLast.all (fun l => decide (4 * 2 ^ 48 ≤ tDiff (atSec (secOf s.now)) (atSec (secOf l)))) = true →
    ∃ t, exec .ppsTimeout s = .next t ∧ t.on ST_REF_STATUS_PPS_OK = false ∧ t.time.ppsGood = 0 ∧ t.time.ppsLast = none ∧
      (∀ a, a ≠ ST_REF_STATUS → t.reg a = s.reg a)) ∧
  (∀ s : State, 2 ≤ s.devState → fracOf s.now = 0 →
    ∃ t, exec .ppsOutRise s = .next t ∧ t.time.ppsOutHigh = true ∧ t.time.ppsOutRise = s.now ∧ t.regs = s.regs) ∧
  (∀ s : State, s.time.ppsOutHigh = true → tLe (tAdd s.time.ppsOutRise (usTicks 100000)) s.now = true →
    ∃ t, exec .ppsOutFall s = .next t ∧ t.time.ppsOutHigh = false ∧ t.regs = s.regs) ∧
  (∀ (s : State) (p : Fin 5) (i : Fin 4) (v : Word), s.mayWrite p (ST_SYNC_CTL i) = true → bits v.toNat 0 0 = 1 →
    s.on (ST_SYNC_CTL_ENABLE i) = false → bits v.toNat 31 16 < s.val (ST_SYNC_PERIOD i) →
    ∃ t, exec (.syncOutWrite p i false v) s = .next t ∧ t.on (ST_SYNC_CTL_ENABLE i) = true ∧
      t.syncOut i = ⟨bits v.toNat 31 16, s.val (ST_SYNC_PERIOD i), false, some (ceilSec (tAdd s.now 1)), 0⟩) ∧
  (∀ (s : State) (p : Fin 5) (i : Fin 4) (v : Word), s.mayWrite p (ST_SYNC_CTL i) = true → bits v.toNat 0 0 = 1 →
    s.val (ST_SYNC_PERIOD i) ≤ bits v.toNat 31 16 →
    exec (.syncOutWrite p i false v) s = .next (s.recordRefusal p (ST_SYNC_CTL i) true 0x0114)) ∧
  (∀ (s : State) (i : Fin 4) (b : DevTime), (s.syncOut i).base = some b → (s.syncOut i).high = false →
    tLt s.now (cycTime b (s.syncOut i).riseCyc) = false →
    ∃ t, exec (.syncOutEdge i) s = .next t ∧ (t.syncOut i).high = true ∧ (t.syncOut i).width = s.get (ST_SYNC_CTL_WIDTH i) ∧
      (t.syncOut i).period = s.val (ST_SYNC_PERIOD i) ∧ t.regs = s.regs) ∧
  (∀ (s : State) (i : Fin 4) (b : DevTime), (s.syncOut i).base = some b → (s.syncOut i).high = true →
    tLt s.now (cycTime b ((s.syncOut i).riseCyc + (s.syncOut i).width)) = false →
    ∃ t, exec (.syncOutEdge i) s = .next t ∧ (t.syncOut i).high = false ∧
      (t.syncOut i).riseCyc = (s.syncOut i).riseCyc + (s.syncOut i).period ∧ t.regs = s.regs)

/-- Synthesisers (R46 to R53, R646). -/
def Obligations.SynthesisersLockAndRamp : Prop :=
  (∀ (s : State) (b : Fin 16) (e : Int) (code : BitVec 16) (held : Nat), s.synGone b = false → s.on (SYN_CTL_ENABLE b) = true →
    s.on (SYN_STATUS_LOCKED b) = false → s.on (SYN_STATUS_RAMPING b) = false →
    e.natAbs < 4 * s.get (SYN_LOCK_LOCK_WINDOW b) → s.devState ≠ 0 →
    ∃ t, exec (.synLockDeclared b e code held) s = .next t ∧ t.on (SYN_STATUS_LOCKED b) = true ∧
      t.on (SYN_STATUS_GATED b) = false ∧ t.get (SYN_STATUS_PHASE_ERR b) = unsign 16 e ∧
      t.get (SYN_DCO_DCO_CODE b) = (if 3 ≤ s.devState then min code.toNat (s.get (SYN_DCO_DCO_CEIL b)) else code.toNat)) ∧
  (∀ (s : State) (b : Fin 16) (e : Int), s.synGone b = false → s.on (SYN_STATUS_LOCKED b) = true → 2 ≤ b.val →
    4 * s.get (SYN_LOCK_LOSS_WINDOW b) < e.natAbs → s.following = none →
    ∃ t, exec (.synLockLost b e) s = .next t ∧ t.on (SYN_STATUS_LOCKED b) = false ∧ t.on (SYN_STATUS_GATED b) = true ∧
      t.on (SYN_STATUS_LOST b) = true ∧ t.out = s.out) ∧
  (∀ (s : State) (p : Fin 5) (b : Fin 16), s.mayWrite p (SYN_CTL b) = true → s.on (SYN_CTL_ENABLE b) = true →
    2 ≤ b.val ∧ b.val ≤ 10 →
    ∃ t, exec (.synEnable p b false) s = .next t ∧ t.on (SYN_CTL_ENABLE b) = false ∧ t.on (SYN_STATUS_LOCKED b) = false ∧
      t.on (SYN_STATUS_GATED b) = true ∧ t.get (SYN_CTL_REASON b) = 0) ∧
  (∀ (s : State) (p : Fin 5) (b : Fin 16), s.mayWrite p (SYN_CTL b) = true → s.on (SYN_CTL_ENABLE b) = true →
    b.val < 2 ∨ 10 < b.val →
    ∃ t, exec (.synEnable p b false) s = .next t ∧ t.on (SYN_CTL_ENABLE b) = true ∧ t.get (SYN_CTL_REASON b) = 0x0710 ∧
      t.time = s.time) ∧
  (∀ (s : State) (p : Fin 5) (b : Fin 16), s.mayWrite p (SYN_CTL b) = true → s.on (SYN_CTL_ENABLE b) = false →
    ∃ t, exec (.synEnable p b true) s = .next t ∧ t.on (SYN_CTL_ENABLE b) = true ∧ (t.syn b).khz = some (s.val (SYN_TARGET b)) ∧
      t.get (SYN_CTL_REASON b) = 0) ∧
  (∀ (s : State) (p : Fin 5) (b : Fin 16) (v : Word), s.mayWrite p (SYN_LOCK b) = true → 16 ≤ bits v.toNat 31 16 →
    bits v.toNat 7 0 ≠ 0 → 2 * bits v.toNat 7 0 ≤ bits v.toNat 15 8 →
    exec (.synLockWrite p b v) s = .next (s.plainWrite (SYN_LOCK b) v.toNat)) ∧
  (∀ (s : State) (p : Fin 5) (b : Fin 16) (v : Word), s.mayWrite p (SYN_LOCK b) = true →
    bits v.toNat 31 16 < 16 ∨ bits v.toNat 7 0 = 0 ∨ bits v.toNat 15 8 < 2 * bits v.toNat 7 0 →
    ∃ t, exec (.synLockWrite p b v) s = .next t ∧ t.get (SYN_CTL_REASON b) = 0x0112 ∧ t.reg (SYN_LOCK b) = s.reg (SYN_LOCK b)) ∧
  (∀ (s : State) (p : Fin 5) (b : Fin 16), s.mayWrite p (SYN_CTL b) = true → s.on (SYN_STATUS_RAMPING b) = false →
    synRange b = none →
    ∃ t, exec (.synRampGo p b) s = .next t ∧ t.get (SYN_CTL_REASON b) = 0x0111 ∧ t.on (SYN_STATUS_RAMPING b) = false ∧
      t.time = s.time) ∧
  (∀ (s : State) (p : Fin 5) (b : Fin 16), s.mayWrite p (SYN_CTL b) = true → s.on (SYN_STATUS_RAMPING b) = false →
    s.on (SYN_CTL_ENABLE b) = true → 6 ≤ b.val → b.val ≤ 10 → s.get (SYN_RAMP_SEGMENTS b) = 0 →
    s.val (SYN_SEG_KHZ b 0) = s.val (SYN_TARGET b) → 600000 ≤ s.val (SYN_TARGET b) → s.val (SYN_TARGET b) ≤ 1200000 →
    (s.synKhz b - s.val (SYN_TARGET b)) + (s.val (SYN_TARGET b) - s.synKhz b) ≤ 1320000 * s.val (SYN_SEG_NS b 0) / 1000000 →
    ∃ t, exec (.synRampGo p b) s = .next t ∧ t.on (SYN_STATUS_RAMPING b) = true ∧ t.on (SYN_STATUS_LOCKED b) = false ∧
      t.on (SYN_STATUS_GATED b) = true ∧ t.get (SYN_CTL_REASON b) = 0 ∧
      (t.syn b).segEnd = tAdd s.now (nsTicks (s.val (SYN_SEG_NS b 0)))) ∧
  (∀ (s : State) (b : Fin 16), s.on (SYN_STATUS_RAMPING b) = true → tLt s.now (s.syn b).segEnd = false →
    ∃ t, exec (.synRampSegmentEnd b) s = .next t ∧
      (s.get (SYN_RAMP_SEG_NOW b) < s.get (SYN_RAMP_SEGMENTS b) →
        t.get (SYN_RAMP_SEG_NOW b) = s.get (SYN_RAMP_SEG_NOW b) + 1 ∧ t.on (SYN_STATUS_RAMPING b) = true) ∧
      (s.get (SYN_RAMP_SEGMENTS b) ≤ s.get (SYN_RAMP_SEG_NOW b) →
        t.on (SYN_STATUS_RAMPING b) = false ∧ (t.syn b).khz = some (s.val (SYN_SEG_KHZ b (s.get (SYN_RAMP_SEG_NOW b)))))) ∧
  (∀ (s : State) (k : Fin 16) (held : Nat), 3 ≤ s.devState → 2 ≤ k.val → s.synGone k = false →
    ∃ t, exec (.dcoCeilUpdate k held) s = .next t ∧ t.get (SYN_DCO_DCO_CEIL k) = s.freeNow % 65536 ∧
      t.freshCount = s.freshCount + 1 ∧
      t.get (SYN_DCO_DCO_CODE k) = min (s.get (SYN_DCO_DCO_CODE k)) (s.freeNow % 65536) ∧
      (s.freeNow % 65536 < s.get (SYN_DCO_DCO_CODE k) → t.on (SYN_STATUS_CLAMPED k) = true ∧
        t.val (SYN_CLAMP_COUNT k) = (s.val (SYN_CLAMP_COUNT k) + max 1 held) % 2 ^ 32) ∧
      (s.get (SYN_DCO_DCO_CODE k) ≤ s.freeNow % 65536 → ∀ a, a ≠ SYN_DCO k → t.reg a = s.reg a)) ∧
  (∀ (s : State) (held : Nat), 3 ≤ s.devState → s.synGone 1 = false →
    ∃ t, exec (.dcoCeilUpdate 1 held) s = .next t ∧ t.get (SYN_DCO_DCO_CEIL 0) = 0xFFFF ∧
      t.get (SYN_DCO_DCO_CEIL 1) = s.freeNow % 65536)

/-- Inputs start, stop and change source (R115, R116, R120, R138). -/
def Obligations.InputsStartAndStop : Prop :=
  (∀ (s : State) (p : Fin 5) (n : Fin 16) (v : Word), s.mayWrite p (AF_IN_CTL n) = true → s.on (AF_IN_CTL_ENABLE n) = false →
    bits v.toNat 0 0 = 1 → bits v.toNat 2 1 ≠ 3 → bits v.toNat 7 6 ≠ 3 → s.dutyDead (AF_IN_CTL n) = false →
    (s.inp n).endGap = none →
    (s.plainWrite (AF_IN_CTL n) (v.toNat / 2 * 2)).inputCheck n = 0 →
    ∃ t, exec (.afInputEnable p n v) s = .next t ∧ t.on (AF_IN_CTL_ENABLE n) = true ∧ t.get (AF_IN_CTL_REASON n) = 0 ∧
      (t.inp n).settling = some (tAdd s.now (usTicks 20)) ∧ (t.inp n).runs = false ∧ t.out = s.out) ∧
  (∀ (s : State) (p : Fin 5) (n : Fin 16) (v : Word), s.mayWrite p (AF_IN_CTL n) = true → s.on (AF_IN_CTL_ENABLE n) = false →
    bits v.toNat 0 0 = 1 → bits v.toNat 2 1 ≠ 3 → bits v.toNat 7 6 ≠ 3 → s.dutyDead (AF_IN_CTL n) = false →
    (s.plainWrite (AF_IN_CTL n) (v.toNat / 2 * 2)).inputCheck n ≠ 0 →
    ∃ t, exec (.afInputEnable p n v) s = .next t ∧ t.on (AF_IN_CTL_ENABLE n) = false ∧ t.af = s.af ∧
      t.get (AF_IN_CTL_REASON n) = (s.plainWrite (AF_IN_CTL n) (v.toNat / 2 * 2)).inputCheck n % 65536) ∧
  (∀ (s : State) (p : Fin 5) (n : Fin 16) (v : Word), s.mayWrite p (AF_IN_CTL n) = true →
    bits v.toNat 2 1 = 3 ∨ bits v.toNat 7 6 = 3 →
    ∃ t, exec (.afInputEnable p n v) s = .next t ∧ t.get (AF_IN_CTL_REASON n) = 0x0133 ∧
      t.get (REGION_REFUSAL_REASON (2 + n / 4) p) = 0x0133 ∧ t.on (AF_IN_CTL_ENABLE n) = s.on (AF_IN_CTL_ENABLE n) ∧ t.af = s.af) ∧
  (∀ (s : State) (n : Fin 16) (e : DevTime), (s.inp n).settling = some e → tLt s.now e = false → s.stoppedAll = false →
    ((s.openStream (sid 0 n)).modIn n fun x => { x with settling := none, runs := true }).mayDeliver n = true →
    (s.inp n).endGap = none →
    ∃ t, exec (.afInputSettled n) s = .next t ∧ t.on (AF_IN_STATUS_RUNNING n) = true ∧ (t.stream (sid 0 n)).opened = true ∧
      (t.inp n).settling = none ∧ (t.inp n).runs = true ∧ (t.inp n).ranBefore = true ∧
      (t.inp n).lastSample = instTime (s.fsHz n) (evenInst (s.fsHz n) s.now - 1) ∧
      ⟨.input n, .syncReset, 0xFFFF, instTime (s.fsHz n) (evenInst (s.fsHz n) s.now), 0, true⟩ ∈ t.flow.requests ∧
      ((s.inp n).ranBefore = false → t.out = s.out) ∧
      ((s.inp n).ranBefore = true → (t.out.drop s.out.length).map (fun e => e.gapOf.map fun g => (g.1, g.2.2)) = [some (sid 0 n, 6, false)])) ∧
  (∀ (s : State) (n : Fin 16) (e : DevTime), (s.inp n).settling = some e → tLt s.now e = true →
    exec (.afInputSettled n) s = .next s) ∧
  (∀ (s : State) (p : Fin 5) (n : Fin 16), s.mayWrite p (AF_IN_CTL n) = true → s.on (AF_IN_CTL_ENABLE n) = true →
    s.get (AF_IN_CTL_FS n) ≠ 3 → s.source n ≠ 3 →
    ∃ t, exec (.afInputDisable p n) s = .next t ∧ t.on (AF_IN_CTL_ENABLE n) = false ∧ t.on (AF_IN_STATUS_RUNNING n) = false ∧
      (t.inp n).settling = none ∧ t.get (AF_IN_CTL_REASON n) = 0 ∧ t.cmem = s.cmem) ∧
  (∀ (s : State) (p : Fin 5) (n : Fin 16) (src : Fin 4), s.mayWrite p (AF_IN_CTL n) = true →
    s.on (AF_IN_CTL_ENABLE n) = true → (s.inp n).runs = true → s.get (AF_IN_CTL_FS n) ≠ 3 → src ≠ 3 → src.val ≠ s.source n →
    (src = 1 → s.on (AF_TONE_CTL_ENABLE (2 + n / 4)) = true) →
    ∃ t, exec (.afSourceChange p n src) s = .next t ∧
      (let x := s.inp n
       let at_ := instTime x.fs (max (evenInst x.fs (s.inputNow n)) x.nextInst)
       t.source n = src ∧ t.on (AF_IN_CTL_ENABLE n) = true ∧ (t.inp n).srcs = x.srcs ++ [(at_, src.val)] ∧
       t.flow.requests = s.flow.requests ++ [⟨.input n, .syncReset, 0xFFFF, tAddI at_ x.lag, 0, false⟩] ∧
       t.on (AF_IN_STATUS_SETTLING n) = decide (x.fs ≠ 0 ∨ s.on (AF_IN_STATUS_SETTLING n) = true)) ∧ t.out = s.out) ∧
  (∀ (x : AfIn) (at_ : DevTime) (src : Nat), x.srcs = [(at_, src)] →
    ((x.srcTo at_).src = src ∧ (x.srcTo at_).patIdx = 0 ∧ (x.srcTo at_).prbs = 0x7FFF ∧ (x.srcTo at_).srcs = []))

/-- RAW frames (R106, R117, R119, R121), over-range trips (R123) and the skew (R107). -/
def Obligations.RawFramesAndOverRange : Prop :=
  (∀ (s : State) (n : Fin 16) (xs : List Int) (il : IlCorr), s.rawCount n xs.length ≠ 0 → (s.inp n).endGap = none →
    (∀ q ∈ s.flow.requests, q.stage ≠ .input n) → (s.inp n).todo = [] → s.delivers (sid 0 n) = true →
    (s.stream (sid 0 n)).markers = [] → s.frameMarkersOf (.input n) = [] →
    s.heldEpoch (6 + n / 4) (sid 0 n) = s.epoch (2 + n / 4) →
    ∃ t, exec (.afRawFrameClose n xs il) s = .next t ∧
      (let x := s.inp n
       let cnt := s.rawCount n xs.length
       let r := AfIn.samples (s.afCfg n) (xs.take cnt) x.nextInst x
       (t.out.drop s.out.length).map Emission.brief =
         [some (sid 0 n, (s.stream (sid 0 n)).seq, instTime x.fs x.nextInst, if s.raw8 n then 0x0201 else 0x0101)] ∧
       (t.out.drop s.out.length).map Emission.payload =
         [some (packRaw (s.raw8 n) (r.2.map fun o => if s.raw8 n then requant8 o.y else o.y)
           (beatFlags (r.2.map (·.mark)) (ceilDiv cnt 16)))] ∧
       (t.stream (sid 0 n)).seq = (s.stream (sid 0 n)).seq + 1 ∧
       t.pair (AF_IN_OVR_COUNT_LO n) (AF_IN_OVR_COUNT_HI n) = (s.pair (AF_IN_OVR_COUNT_LO n) (AF_IN_OVR_COUNT_HI n) +
         ((beatBits (beatFlags (r.2.map (·.mark)) (ceilDiv cnt 16)) (ceilDiv cnt 16)).filter id).length) % 2 ^ 64 ∧
       (x.endAt = none → (t.inp n).lastSample = instTime x.fs (x.nextInst + cnt - 1)))) ∧
  (∀ (s : State) (n : Fin 16) (xs : List Int) (il : IlCorr), s.rawCount n xs.length = 0 →
    exec (.afRawFrameClose n xs il) s = .next s) ∧
  (∀ (s : State) (n : Fin 16) (h : Nat), s.rawCount n h ≤ 32768 ∧ ((s.inp n).endAt = none → s.rawCount n h = 0 ∨ s.rawCount n h = 32768)) ∧
  (∀ y : Ratio, (ratioLt (ratioOf 2047) y = true → codeOf y = (2047, true)) ∧
    (ratioLt (ratioOf 2047) y = false → ratioLt y (ratioOf (-2048)) = true → codeOf y = (-2048, true)) ∧
    (ratioLt (ratioOf 2047) y = false → ratioLt y (ratioOf (-2048)) = false → (codeOf y).2 = false)) ∧
  (∀ (x : AfIn) (c : AfCfg) (k v : Int), x.src = 2 → x.srcs = [] → x.evts = [] → c.kind = 0 →
    ((x.sample c k v).2.y = ((x.patIdx % 4096 : Nat) : Int) - 2048 ∧ (x.sample c k v).1.patIdx = x.patIdx + 1)) ∧
  (∀ (s : State) (n : Fin 16) (at_ : DevTime) (k : Nat),
    ∃ t, exec (.over6Trip n at_ k) s = .next t ∧ (t.inp n).over6 = (s.inp n).over6 ++ [(at_, k + 64)] ∧
      t.get (AF_IN_OVR_CTL_OVER6_COUNT n) = (s.get (AF_IN_OVR_CTL_OVER6_COUNT n) + 1) % 65536 ∧
      t.get (AF_IN_OVR_CTL_TAIL n) = s.get (AF_IN_OVR_CTL_TAIL n) ∧ t.out = s.out ∧
      (∀ a, a ≠ AF_IN_OVR_CTL n → t.reg a = s.reg a)) ∧
  (∀ (s : State) (p : Fin 5) (n : Fin 16) (v : Word), s.mayWrite p (AF_IN_SKEW n) = true →
    -1000 ≤ signed 16 (bits v.toNat 15 0) → signed 16 (bits v.toNat 15 0) ≤ 1000 →
    ∃ t, exec (.afSkewWrite p n v) s = .next t ∧ t.getS (AF_IN_SKEW_SKEW n) = signed 16 (bits v.toNat 15 0) ∧
      t.get (AF_IN_CTL_REASON n) = 0 ∧ (t.inp n).skewNow = s.skewAt n ∧ (t.inp n).skewSince = s.now ∧
      (∀ a, a ≠ AF_IN_SKEW n → a ≠ AF_IN_CTL n → t.reg a = s.reg a)) ∧
  (∀ (s : State) (p : Fin 5) (n : Fin 16) (v : Word), s.mayWrite p (AF_IN_SKEW n) = true →
    signed 16 (bits v.toNat 15 0) < -1000 ∨ 1000 < signed 16 (bits v.toNat 15 0) →
    exec (.afSkewWrite p n v) s = .next ((s.put (AF_IN_CTL_REASON n) 0x0139).recordRefusal p (AF_IN_SKEW n) true 0x0139))

/-- Notches (R125 to R130), system calibration (R132 to R134), the test tone (R135, R136). -/
def Obligations.NotchesAndSystemCalibration : Prop :=
  (∀ (s : State) (p : Fin 5) (n : Fin 16) (v : Word), s.mayWrite p (AF_NOTCH_SWAP_CTL n) = true → bits v.toNat 0 0 = 1 →
    firstNotchFault (s.fsHz n) ((upto 4).map (s.shadowNotch n)) = 0 →
    tLt (atSecFrac (s.val (AF_NOTCH_SWAP_SEC n)) (s.val (AF_NOTCH_SWAP_FRAC n))) s.now = false →
    tLt (atSecFrac (s.val (AF_NOTCH_SWAP_SEC n)) (s.val (AF_NOTCH_SWAP_FRAC n))) (tAdd s.now (usTicks 100)) = false →
    s.flow.requests.any (fun q => q.stage = .input n && q.type = .coefSwap && q.target = sid 0 n) = false →
    ∃ t, exec (.notchSwapArm p n v) s = .next t ∧ t.on (AF_NOTCH_SWAP_CTL_PENDING n) = true ∧
      t.get (AF_NOTCH_SWAP_CTL_REASON n) = 0 ∧ t.flow.requests = s.flow.requests ++ [⟨.input n, .coefSwap, sid 0 n,
        atSecFrac (s.val (AF_NOTCH_SWAP_SEC n)) (s.val (AF_NOTCH_SWAP_FRAC n)), 0, false⟩] ∧
      (∀ a, a ≠ AF_NOTCH_SWAP_CTL n → t.reg a = s.reg a)) ∧
  (∀ (s : State) (p : Fin 5) (n : Fin 16) (v : Word), s.mayWrite p (AF_NOTCH_SWAP_CTL n) = true → bits v.toNat 0 0 = 1 →
    firstNotchFault (s.fsHz n) ((upto 4).map (s.shadowNotch n)) = 0 →
    tLt (atSecFrac (s.val (AF_NOTCH_SWAP_SEC n)) (s.val (AF_NOTCH_SWAP_FRAC n))) s.now = true →
    ∃ t, exec (.notchSwapArm p n v) s = .next t ∧ t.get (AF_NOTCH_SWAP_CTL_REASON n) = 0x0601 ∧
      t.flow.requests = s.flow.requests) ∧
  (∀ (s : State) (n : Fin 16) (i : DevTime) (m : Marker) (rest : List (DevTime × Marker)), (s.inp n).todo = (i, m) :: rest →
    m.type = .coefSwap →
    ∃ t, exec (.markerCoefSwapNotch n) s = .next t ∧
      (∀ k : Fin 4, t.activeNotch n k = s.shadowNotch n k ∧ t.shadowNotch n k = s.activeNotch n k) ∧
      (t.inp n).todo = rest ∧ (t.inp n).evts = (s.inp n).evts ++ [⟨i, some ((upto 4).map (s.shadowNotch n))⟩] ∧
      t.flow = s.flow ∧ t.out = s.out) ∧
  (∀ (s : State) (n : Fin 16) (i : DevTime) (m : Marker) (rest : List (DevTime × Marker)), (s.inp n).todo = (i, m) :: rest →
    m.type = .syncReset →
    ∃ t, exec (.markerSyncResetNotch n) s = .next t ∧
      (∀ k : Fin 4, t.activeNotch n k = s.activeNotch n k ∧ t.shadowNotch n k = s.shadowNotch n k) ∧
      (t.inp n).todo = rest ∧ (t.inp n).evts = (s.inp n).evts ++ [⟨i, none⟩] ∧ t.flow = s.flow ∧ t.out = s.out) ∧
  (∀ (s : State) (n : Fin 16), (s.inp n).todo.head?.all (fun p => p.2.type != .coefSwap && p.2.type != .syncReset) = true →
    (exec (.markerCoefSwapNotch n) s = .next s ∧ exec (.markerSyncResetNotch n) s = .next s)) ∧
  (∀ (s : State) (p : Fin 5) (n : Fin 16) (v : Word), s.mayWrite p (AF_SYSCAL_CTL n) = true → bits v.toNat 0 0 = 1 →
    bits v.toNat 2 1 = 1 → s.on (AF_IN_CTL_ENABLE n) = true → s.source n = 0 → s.on (AF_SYSCAL_CTL_BUSY n) = false →
    s.on (AF_IN_STATUS_RAMPING n) = false → s.calOn n = false →
    ∃ t, exec (.syscalGo p n v) s = .next t ∧ t.on (AF_SYSCAL_CTL_BUSY n) = true ∧ t.get (AF_SYSCAL_CTL_REASON n) = 0 ∧
      (t.inp n).meas = some { full := false, from_ := s.inputNow n } ∧ t.out = s.out) ∧
  (∀ (s : State) (p : Fin 5) (n : Fin 16) (v : Word), s.mayWrite p (AF_SYSCAL_CTL n) = true → bits v.toNat 0 0 = 1 →
    bits v.toNat 2 1 = 1 → s.on (AF_IN_CTL_ENABLE n) = false →
    ∃ t, exec (.syscalGo p n v) s = .next t ∧ t.get (AF_SYSCAL_CTL_REASON n) = 0x0731 ∧ t.af = s.af) ∧
  (∀ (s : State) (n : Fin 16) (m : SysMeas), (s.inp n).meas = some m → m.full = false → m.count = 2 ^ 24 →
    m.result.natAbs ≤ 2048 →
    ∃ t, exec (.syscalMeasDone n) s = .next t ∧ t.on (AF_SYSCAL_CTL_BUSY n) = false ∧ t.get (AF_SYSCAL_CTL_REASON n) = 0 ∧
      t.get (AF_SYSCAL_OFFSET_STAGED n) = unsign 16 m.result ∧ t.val (AF_SYSCAL_MEAS n) = unsign 32 m.result ∧
      (t.inp n).meas = none) ∧
  (∀ (s : State) (n : Fin 16) (m : SysMeas), (s.inp n).meas = some m → m.full = false → m.count = 2 ^ 24 →
    2048 < m.result.natAbs →
    ∃ t, exec (.syscalMeasDone n) s = .next t ∧ t.on (AF_SYSCAL_CTL_BUSY n) = false ∧ t.get (AF_SYSCAL_CTL_REASON n) = 0x0135 ∧
      t.get (AF_SYSCAL_OFFSET_STAGED n) = s.get (AF_SYSCAL_OFFSET_STAGED n)) ∧
  (∀ (s : State) (n : Fin 16) (m : SysMeas) (g : Nat), (s.inp n).meas = some m → m.full = true → m.count = 2 ^ 24 →
    0 < m.result.toNat → g = (ratioRound (ratio (2048 * s.val (AF_SYSCAL_AMPL n) * 256 * 2 ^ 20)
      (fullScaleUv (s.get (AF_IN_CTL_FS n)) * m.result.toNat))).toNat →
    ∃ t, exec (.syscalMeasDone n) s = .next t ∧ t.on (AF_SYSCAL_CTL_BUSY n) = false ∧
      t.get (AF_SYSCAL_CTL_REASON n) = (if 10 * g < 9 * 2 ^ 20 ∨ 11 * 2 ^ 20 < 10 * g then 0x0136 else 0) ∧
      t.val (AF_SYSCAL_GAIN n) = (if 10 * g < 9 * 2 ^ 20 ∨ 11 * 2 ^ 20 < 10 * g then s.val (AF_SYSCAL_GAIN n) else g)) ∧
  (∀ (s : State) (p : Fin 5) (n : Fin 16), s.mayWrite p (AF_SYSCAL_CTL n) = true → s.on (AF_SYSCAL_CTL_BUSY n) = false →
    s.on (AF_IN_STATUS_RAMPING n) = false → s.calOn n = false → (s.inp n).applyPending = false →
    tLt (calRampTime s.now) s.now = false → tLt (calRampTime s.now) (tAdd s.now (usTicks 100)) = false →
    s.flow.requests.any (fun q => q.stage = .input n && q.type = .calRamp && q.target = sid 0 n) = false →
    ∃ t, exec (.syscalApply p n) s = .next t ∧ (t.inp n).applyPending = true ∧ t.get (AF_SYSCAL_CTL_REASON n) = 0 ∧
      t.flow.requests.map (fun q => (q.stage, q.type, q.target, q.time)) =
        s.flow.requests.map (fun q => (q.stage, q.type, q.target, q.time)) ++ [(.input n, .calRamp, sid 0 n, calRampTime s.now)]) ∧
  (∀ (s : State) (n : Fin 16) (k : Nat) (m : SysMove) (rest : List SysMove), (s.inp n).ramp = some k → (s.inp n).sys = m :: rest →
    tLt (s.inputNow n) (tAdd m.start ((k + 1) * 2 ^ 42)) = false →
    ∃ t, exec (.syscalRampStep n) s = .next t ∧
      t.get (AF_SYSCAL_OFFSET_ACTIVE n) = unsign 16 (ratioRound (m.at_ (tAdd m.start ((k + 1) * 2 ^ 42))).1) ∧
      t.val (AF_SYSCAL_ACT_GAIN n) = unsign 32 (ratioRound (m.at_ (tAdd m.start ((k + 1) * 2 ^ 42))).2) ∧
      (64 ≤ k + 1 → (t.inp n).ramp = none ∧ t.on (AF_IN_STATUS_RAMPING n) = false) ∧
      (k + 1 < 64 → (t.inp n).ramp = some (k + 1) ∧ t.on (AF_IN_STATUS_RAMPING n) = s.on (AF_IN_STATUS_RAMPING n)) ∧
      t.out = s.out) ∧
  (∀ (s : State) (n : Fin 16) (k : Nat) (m : SysMove) (rest : List SysMove), (s.inp n).ramp = some k → (s.inp n).sys = m :: rest →
    tLt (s.inputNow n) (tAdd m.start ((k + 1) * 2 ^ 42)) = true → exec (.syscalRampStep n) s = .next s) ∧
  (∀ (s : State) (p : Fin 5) (i : Fin 4) (v : Word), s.mayWrite p (AF_TONE_CTL (afWin i)) = true →
    s.on (AF_TONE_CTL_ENABLE (afWin i)) = false → bits v.toNat 0 0 = 1 → s.dutyDead (AF_TONE_CTL (afWin i)) = false →
    ∃ t, exec (.afToneCtlWrite p i v) s = .next t ∧ t.on (AF_TONE_CTL_ENABLE (afWin i)) = true ∧
      t.get (AF_TONE_CTL_REASON (afWin i)) = 0 ∧ (∀ a, a ≠ AF_TONE_CTL (afWin i) → t.reg a = s.reg a)) ∧
  (∀ (s : State) (p : Fin 5) (i : Fin 4) (v : Word) (n : Nat), s.mayWrite p (AF_TONE_CTL (afWin i)) = true →
    s.on (AF_TONE_CTL_ENABLE (afWin i)) = true → bits v.toNat 0 0 = 0 → n ∈ afInputs (afWin i) → s.source n = 1 →
    ∃ t, exec (.afToneCtlWrite p i v) s = .next t ∧ t.on (AF_TONE_CTL_ENABLE (afWin i)) = true ∧
      t.get (AF_TONE_CTL_REASON (afWin i)) = 0x0330)

/-- Zoom paths' registers (R151 to R160, R166). -/
def Obligations.ZoomPathsAreCommanded : Prop :=
  (∀ (s : State) (p : Fin 5) (z : Fin 64) (v : Word), s.mayWrite p (ZP_CTL z) = true → s.on (ZP_CTL_ENABLE z) = false →
    bits v.toNat 0 0 = 1 → s.dutyDead (ZP_CTL z) = false → s.inputExists (z / 4) = true → s.inputRuns (z / 4) = true →
    ∃ t, exec (.zpEnable p z v) s = .next t ∧ t.on (ZP_CTL_ENABLE z) = true ∧ t.get (ZP_CTL_REASON z) = 0 ∧
      t.zpath z = { wait := .frame (s.inputNow (z / 4)) } ∧ t.flow.requests = s.flow.requests ∧ t.cmem = s.cmem) ∧
  (∀ (s : State) (p : Fin 5) (z : Fin 64) (v : Word), s.mayWrite p (ZP_CTL z) = true → s.on (ZP_CTL_ENABLE z) = false →
    bits v.toNat 0 0 = 1 → s.dutyDead (ZP_CTL z) = false → s.inputExists (z / 4) = true → s.inputRuns (z / 4) = false →
    ∃ t, exec (.zpEnable p z v) s = .next t ∧ t.on (ZP_CTL_ENABLE z) = true ∧ t.zpath z = { wait := .sync } ∧ t.flow.requests = s.flow.requests ∧ t.cmem = s.cmem) ∧
  (∀ (s : State) (p : Fin 5) (z : Fin 64), s.mayWrite p (ZP_CTL z) = true → s.on (ZP_CTL_ENABLE z) = true →
    s.ztuUses z = false → (s.zpath z).buf = [] →
    ∃ t, exec (.zpDisable p z) s = .next t ∧ t.on (ZP_CTL_ENABLE z) = false ∧ t.on (ZP_STATUS_RUNNING z) = false ∧
      t.on (ZP_SWAP_CTL_PENDING z) = false ∧ t.on (ZP_SWAP_CTL_SYNC_PENDING z) = false ∧ t.on (ZP_STATUS_FADING z) = false ∧
      t.flow.requests = s.flow.requests.filter (fun q =>
        !(q.target = zoomSid z && (q.type = .coefSwap || q.type = .syncReset))) ∧
      (t.zpath z).wait = .sync ∧ (t.zpath z).inq = []) ∧
  (∀ (s : State) (p : Fin 5) (z : Fin 64), s.mayWrite p (ZP_CTL z) = true → s.on (ZP_CTL_ENABLE z) = true →
    s.ztuUses z = true →
    ∃ t, exec (.zpDisable p z) s = .next t ∧ t.on (ZP_CTL_ENABLE z) = true ∧ t.get (ZP_CTL_REASON z) = 0x0340 ∧ t.zpath z = s.zpath z) ∧
  (∀ (s : State) (p : Fin 5) (z : Fin 64) (v : Word), s.mayWrite p (ZP_SWAP_CTL z) = true → bits v.toNat 0 0 = 1 →
    bits v.toNat 2 2 = 0 → s.on (ZP_CTL_ENABLE z) = true → s.on (ZP_SWAP_CTL_PENDING z) = false →
    tLt (atSecFrac (s.val (ZP_SWAP_SEC z)) (s.val (ZP_SWAP_FRAC z))) s.now = false →
    tLt (atSecFrac (s.val (ZP_SWAP_SEC z)) (s.val (ZP_SWAP_FRAC z))) (tAdd s.now (usTicks 100)) = false →
    s.flow.requests.any (fun q => q.stage = .input (z / 4) && q.type = .coefSwap && q.target = zoomSid z) = false →
    ∃ t, exec (.zpSwapArm p z v) s = .next t ∧ t.on (ZP_SWAP_CTL_PENDING z) = true ∧ t.get (ZP_SWAP_CTL_REASON z) = 0 ∧
      (t.zpath z).swapAt = some (atSecFrac (s.val (ZP_SWAP_SEC z)) (s.val (ZP_SWAP_FRAC z))) ∧
      t.flow.requests = s.flow.requests ++ [⟨.input (z / 4), .coefSwap, zoomSid z,
        atSecFrac (s.val (ZP_SWAP_SEC z)) (s.val (ZP_SWAP_FRAC z)), 0, false⟩] ∧
      (∀ a, a ≠ ZP_SWAP_CTL z → t.reg a = s.reg a)) ∧
  (∀ (s : State) (p : Fin 5) (z : Fin 64) (v : Word), s.mayWrite p (ZP_SWAP_CTL z) = true → bits v.toNat 0 0 = 1 →
    bits v.toNat 2 2 = 0 → s.on (ZP_CTL_ENABLE z) = false ∨ s.on (ZP_SWAP_CTL_PENDING z) = true →
    ∃ t, exec (.zpSwapArm p z v) s = .next t ∧ t.flow = s.flow ∧ t.zp = s.zp ∧
      t.get (ZP_SWAP_CTL_REASON z) = if s.on (ZP_CTL_ENABLE z) then 0x0543 else 0x0741) ∧
  (∀ (s : State) (p : Fin 5) (z : Fin 64), s.mayWrite p (ZP_SWAP_CTL z) = true → s.on (ZP_CTL_ENABLE z) = true →
    tLt (atSecFrac (s.val (ZP_SWAP_SEC z)) (s.val (ZP_SWAP_FRAC z))) s.now = false →
    tLt (atSecFrac (s.val (ZP_SWAP_SEC z)) (s.val (ZP_SWAP_FRAC z))) (tAdd s.now (usTicks 100)) = false →
    s.flow.requests.any (fun q => q.stage = .input (z / 4) && q.type = .syncReset && q.target = zoomSid z) = false →
    ∃ t, exec (.zpSyncArm p z) s = .next t ∧ t.on (ZP_SWAP_CTL_SYNC_PENDING z) = true ∧ t.get (ZP_SWAP_CTL_REASON z) = 0 ∧
      (t.zpath z).syncAt = (s.zpath z).syncAt ++ [atSecFrac (s.val (ZP_SWAP_SEC z)) (s.val (ZP_SWAP_FRAC z))] ∧
      (t.zpath z).swapAt = (s.zpath z).swapAt ∧ (∀ a, a ≠ ZP_SWAP_CTL z → t.reg a = s.reg a)) ∧
  (∀ (s : State) (p : Fin 5) (i : Fin 4) (v : Word), s.mayWrite p (ZP_ZTU_CTL (spWin i)) = true →
    s.on (ZP_ZTU_CTL_ENABLE (spWin i)) = false → bits v.toNat 0 0 = 1 → s.dutyDead (ZP_ZTU_CTL (spWin i)) = false →
    (s.plainWrite (ZP_ZTU_CTL (spWin i)) (v.toNat / 2 * 2)).ztuCheck (spWin i) = 0 →
    ∃ t, exec (.ztuEnable p i v) s = .next t ∧ t.on (ZP_ZTU_CTL_ENABLE (spWin i)) = true ∧
      t.get (ZP_ZTU_CTL_REASON (spWin i)) = 0 ∧ t.zp = s.zp ∧ t.ztu = s.ztu)

/-- Zoom paths' data (R141 to R149, R155 to R162, R165). -/
def Obligations.ZoomPathsSwapAndSend : Prop :=
  (∀ (s : State) (z : Fin 64) (m : Marker) (rest : List InTok), s.zpWorks z = true → (s.zpath z).inq = .mark m :: rest →
    (s.zpath z).wait = .none → m.type = .coefSwap → m.target = zoomSid z → (s.zpath z).swapAt = some m.time →
    s.on (ZP_STATUS_FADING z) = false →
    ∃ t, exec (.markerCoefSwapZoom z) s = .next t ∧ t.on (ZP_SWAP_CTL_PENDING z) = false ∧
      t.on (ZP_STATUS_FADING z) = decide (s.get (ZP_CFG_FADE_LOG z) ≠ 0) ∧
      t.zpFtw z = s.val (ZP_SH_FTW_LO z) + 2 ^ 32 * s.get (ZP_SH_FTW_HI_FTW_HI z) ∧
      (∀ i : Fin 128, t.reg (ZP_ACT_COEF z i) = s.reg (ZP_SH_COEF z i) ∧ t.reg (ZP_SH_COEF z i) = s.reg (ZP_ACT_COEF z i)) ∧
      (t.zpath z).swapAt = none ∧ (t.zpath z).inq = rest ∧
      (t.zpath z).markers = (s.zpath z).markers ++ [{ m with offset := BitVec.ofNat 32 (s.zpath z).buf.length }] ∧ t.out = s.out) ∧
  (∀ (s : State) (z : Fin 64) (m : Marker) (rest : List InTok), s.zpWorks z = true → (s.zpath z).inq = .mark m :: rest →
    (s.zpath z).wait = .none → m.type = .coefSwap → m.target = zoomSid z → (s.zpath z).swapAt = some m.time →
    s.on (ZP_STATUS_FADING z) = true →
    ∃ t, exec (.markerCoefSwapZoom z) s = .next t ∧ t.on (ZP_STATUS_HELD z) = true ∧
      t.val (ZP_DEFER_COUNT z) = (s.val (ZP_DEFER_COUNT z) + 1) % 2 ^ 32 ∧
      (∀ a, a ≠ ZP_STATUS z → a ≠ ZP_DEFER_COUNT z → t.reg a = s.reg a)) ∧
  (∀ (s : State) (z : Fin 64) (m : Marker) (rest : List InTok), s.zpWorks z = true → (s.zpath z).inq = .mark m :: rest →
    m.type = .syncReset → m.target = 0xFFFF → s.on (ZP_STATUS_HELD z) = false → s.stoppedAll = false →
    ∃ t, exec (.markerSyncResetZoom z) s = .next t ∧ t.on (ZP_STATUS_RUNNING z) = true ∧ t.on (ZP_STATUS_FADING z) = false ∧
      (t.zpath z).origin = (s.zpath z).k ∧ (t.zpath z).out = 0 ∧ (t.zpath z).line = [] ∧
      (t.zpath z).stages = List.replicate (s.get (ZP_CFG_STAGES z)) {} ∧
      (t.zpath z).nco = BitVec.ofNat 48 (s.get (ZP_ACT_FTW_HI_PHASE z) * 2 ^ 32) ∧
      (t.zpath z).settleTo = s.zpSettle z ∧ (t.zpath z).wait = .none ∧ (t.zpath z).inq = rest ∧
      (t.stream (zoomSid z)).opened = true) ∧
  (∀ (s : State) (z : Fin 64) (m : Marker) (rest : List InTok), s.zpWorks z = true → (s.zpath z).inq = .mark m :: rest →
    (s.zpath z).wait = .none → m.type = .syncReset → m.target ≠ 0xFFFF → m.target ≠ zoomSid z →
    ∃ t, exec (.markerSyncResetZoom z) s = .next t ∧ t.regs = s.regs ∧ (t.zpath z).origin = (s.zpath z).origin ∧
      (t.zpath z).markers = (s.zpath z).markers ++ [{ m with offset := BitVec.ofNat 32 (s.zpath z).buf.length }]) ∧
  (∀ (s : State) (z : Fin 64) (g : GapRec) (rest : List InTok), s.zpWorks z = true → (s.zpath z).inq = .gap g :: rest →
    (s.zpath z).wait = .none → (s.zpath z).buf = [] → g.final = false → s.stoppedAll = false →
    (s.zpath z).k = (s.zpath z).origin + ((s.zpath z).out * s.zpDec z : Nat) →
    ∃ t, exec (.zpInputGap z) s = .next t ∧
      t.out = s.out ++ [.gap ⟨zoomSid z, instTime (s.zpath z).fs (s.zpath z).k,
        BitVec.ofNat 48 (ceilDiv g.length.toNat (s.zpDec z)), g.cause, false⟩] ∧
      (t.zpath z).wait = .gap ∧ (t.zpath z).inq = rest) ∧
  (∀ (s : State) (z : Nat) (k : Int) (fs : Nat), (s.zpath z).wait = .gap → s.on (ZP_STATUS_HELD z) = false →
    (((s.zpFrameStart z k fs).zpath z).origin = k ∧ ((s.zpFrameStart z k fs).zpath z).out = 0 ∧
      ((s.zpFrameStart z k fs).zpath z).wait = .none ∧ (s.zpFrameStart z k fs).on (ZP_STATUS_RUNNING z) = true)) ∧
  (∀ (s : State) (z : Fin 64) (g : GapRec) (rest : List InTok), s.zpWorks z = true → (s.zpath z).inq = .gap g :: rest →
    (s.zpath z).wait = .none → g.final = true →
    ∃ t, exec (.zpInputGap z) s = .next t ∧ t.on (ZP_STATUS_RUNNING z) = false ∧ (t.stream (zoomSid z)).opened = false ∧
      (t.zpath z).wait = .sync) ∧
  (∀ (s : State) (z : Fin 64) (v : Int) (ovr cal : Bool) (rest : List InTok) (f : ZpFade) (c : Int × Int), s.zpWorks z = true →
    (s.zpath z).inq = .x v ovr cal :: rest → (s.zpath z).wait = .none →
    (halfBands (s.get (ZP_CFG_PRESET z)) (s.zpath z).stages (zpMix (s.zpath z).nco v).1).2.2 = some c →
    (s.zpath z).fade = some f → f.from_ + f.len ≤ (s.zpath z).out + 1 → s.on (ZP_STATUS_FADING z) = true →
    s.on (ZP_STATUS_HELD z) = false →
    ∃ t, exec (.zpFadeEnd z) s = .next t ∧ t.on (ZP_STATUS_FADING z) = false ∧ (t.zpath z).fade = none ∧
      (t.zpath z).out = (s.zpath z).out + 1 ∧ (t.zpath z).k = (s.zpath z).k + 1 ∧
      (t.zpath z).nco = (s.zpath z).nco + BitVec.ofNat 48 (s.zpFtw z) ∧ (t.zpath z).inq = rest) ∧
  (∀ (s : State) (z : Fin 64) (rest : List InTok), s.zpWorks z = true → (s.zpath z).inq = .pause :: rest →
    (s.zpath z).buf ≠ [] → s.delivers (zoomSid z) = true → (s.stream (zoomSid z)).markers = [] →
    ∃ t, exec (.zpFrameClose z) s = .next t ∧
      (t.out.drop s.out.length).map Emission.brief =
        [some (zoomSid z, (s.stream (zoomSid z)).seq, s.zpTime z (s.zpath z).bufFrom, (zoomFormat (s.get (ZP_CFG_OUT_BITS z))).1)] ∧
      (t.out.drop s.out.length).map Emission.payload = [some (packElems (zoomFormat (s.get (ZP_CFG_OUT_BITS z))).2
        ((s.zpath z).buf.reverse.flatMap fun e => [e.1, e.2]))] ∧
      (t.stream (zoomSid z)).seq = (s.stream (zoomSid z)).seq + 1 ∧
      (t.zpath z).buf = [] ∧ (t.zpath z).bufFrom = (s.zpath z).out ∧ (t.zpath z).markers = [] ∧ t.cmem = s.cmem) ∧
  (∀ (s : State) (z : Fin 64) (v : Int) (ovr cal : Bool) (rest : List InTok) (c : Int × Int), s.zpWorks z = true →
    (s.zpath z).inq = .x v ovr cal :: rest → (s.zpath z).wait = .none →
    (halfBands (s.get (ZP_CFG_PRESET z)) (s.zpath z).stages (zpMix (s.zpath z).nco v).1).2.2 = some c →
    (s.zpath z).buf.length = 4095 → (s.zpath z).fade = none → s.delivers (zoomSid z) = true →
    ∃ t, exec (.zpFrameClose z) s = .next t ∧
      (t.out.drop s.out.length).map Emission.brief =
        [some (zoomSid z, (s.stream (zoomSid z)).seq, s.zpTime z (s.zpath z).bufFrom, (zoomFormat (s.get (ZP_CFG_OUT_BITS z))).1)] ∧
      (t.zpath z).out = (s.zpath z).out + 1 ∧ (t.zpath z).buf = [] ∧ (t.zpath z).bufFrom = (s.zpath z).out + 1) ∧
  (∀ (s : State) (i : Fin 4) (k : Fin 16) (x : ZtuSlot), s.on (ZP_ZTU_CTL_ENABLE (spWin i)) = true →
    s.on (ZP_ZTU_SLOT_ON (spWin i) k) = true → s.lost (spWin i) = false → s.gated (spWin i) = false →
    kvGet s.ztu (spWin i * 16 + k) = some x → x.first ≤ x.j * s.slotHop (spWin i) k →
    x.j * s.slotHop (spWin i) k + s.slotPoints (spWin i) k ≤ x.first + x.pts.length →
    ∃ t, exec (.ztuTransformDone i k) s = .next t ∧
      (kvGetD t.ztu (spWin i * 16 + k) {}).j = x.j + 1 ∧
      (kvGetD t.dc.queue (detKey (spWin i) (16 + k)) []).length = (kvGetD s.dc.queue (detKey (spWin i) (16 + k)) []).length + 1 ∧
      t.regs = s.regs ∧ t.out = s.out) ∧
  (∀ (s : State) (i : Fin 4) (k : Fin 16) (x : ZtuSlot), kvGet s.ztu (spWin i * 16 + k) = some x →
    x.first + x.pts.length < x.j * s.slotHop (spWin i) k + s.slotPoints (spWin i) k →
    exec (.ztuTransformDone i k) s = .next s)

/-- Broad transforms' registers (R187, R188, R191, R195, R197). -/
def Obligations.BroadTransformsAreCommanded : Prop :=
  (∀ (s : State) (p : Fin 5) (n : Fin 16) (v : Word), s.mayWrite p (BT_CTL n) = true → s.on (BT_CTL_ENABLE n) = false →
    bits v.toNat 0 0 = 1 → s.dutyDead (BT_CTL n) = false → (s.plainWrite (BT_CTL n) (v.toNat / 2 * 2)).btCheck n = 0 →
    s.inputRuns n = true →
    ∃ t, exec (.btEnable p n v) s = .next t ∧ t.on (BT_CTL_ENABLE n) = true ∧ t.get (BT_CTL_REASON n) = 0 ∧
      (t.btx n).wait = .frame (s.inputNow n) ∧ (t.btx n).hist = [] ∧ (t.btx n).cnt = 0 ∧ (t.btx n).inq = [] ∧
      (t.btx n).eqSh = (s.btx n).eqSh ∧ (t.btx n).active.eq = (s.btx n).active.eq ∧ t.cmem = s.cmem) ∧
  (∀ (s : State) (p : Fin 5) (n : Fin 16) (v : Word), s.mayWrite p (BT_CTL n) = true → s.on (BT_CTL_ENABLE n) = false →
    bits v.toNat 0 0 = 1 → s.dutyDead (BT_CTL n) = false → (s.plainWrite (BT_CTL n) (v.toNat / 2 * 2)).btCheck n ≠ 0 →
    ∃ t, exec (.btEnable p n v) s = .next t ∧ t.on (BT_CTL_ENABLE n) = false ∧ t.bt = s.bt ∧ t.flow.requests = s.flow.requests ∧
      t.get (BT_CTL_REASON n) = (s.plainWrite (BT_CTL n) (v.toNat / 2 * 2)).btCheck n % 65536) ∧
  (∀ (s : State) (p : Fin 5) (n : Fin 16), s.mayWrite p (BT_CTL n) = true → s.on (BT_CTL_ENABLE n) = true →
    ∃ t, exec (.btDisable p n) s = .next t ∧ t.on (BT_CTL_ENABLE n) = false ∧ t.on (BT_STATUS_RUNNING n) = false ∧
      t.on (BT_STATUS_FADING n) = false ∧ t.on (BT_STATUS_HELD n) = false ∧ t.on (BT_MK_CTL_PENDING n) = false ∧
      t.on (BT_MK_CTL_SYNC_PENDING n) = false ∧ t.flow.requests = s.flow.requests.filter (fun q =>
        !(q.target = chanSid n && (q.type = .gainSwitch || q.type = .syncReset))) ∧
      t.on (BT_CTL_TO_CB n) = s.on (BT_CTL_TO_CB n) ∧ (t.btx n).wait = .sync ∧ (t.btx n).inq = []) ∧
  (∀ (s : State) (p : Fin 5) (n : Fin 16) (v : Word), s.mayWrite p (BT_MK_CTL n) = true → bits v.toNat 0 0 = 1 →
    bits v.toNat 2 2 = 0 → s.on (BT_CTL_ENABLE n) = true → s.on (BT_MK_CTL_PENDING n) = false →
    tLt (atSecFrac (s.val (BT_MK_SEC n)) (s.val (BT_MK_FRAC n))) s.now = false →
    tLt (atSecFrac (s.val (BT_MK_SEC n)) (s.val (BT_MK_FRAC n))) (tAdd s.now (usTicks 100)) = false →
    s.flow.requests.any (fun q => q.stage = .input n && q.type = .gainSwitch && q.target = chanSid n) = false →
    ∃ t, exec (.btEqArm p n v) s = .next t ∧ t.on (BT_MK_CTL_PENDING n) = true ∧ t.get (BT_MK_CTL_REASON n) = 0 ∧
      (t.btx n).swapAt = some (atSecFrac (s.val (BT_MK_SEC n)) (s.val (BT_MK_FRAC n))) ∧
      t.flow.requests = s.flow.requests ++ [⟨.input n, .gainSwitch, chanSid n,
        atSecFrac (s.val (BT_MK_SEC n)) (s.val (BT_MK_FRAC n)), 0, false⟩] ∧ (∀ a, a ≠ BT_MK_CTL n → t.reg a = s.reg a)) ∧
  (∀ (s : State) (p : Fin 5) (n : Fin 16) (v : Word), s.mayWrite p (BT_MK_CTL n) = true → bits v.toNat 0 0 = 1 →
    bits v.toNat 2 2 = 0 → s.on (BT_CTL_ENABLE n) = false ∨ s.on (BT_MK_CTL_PENDING n) = true →
    ∃ t, exec (.btEqArm p n v) s = .next t ∧ t.flow = s.flow ∧ t.bt = s.bt ∧
      t.get (BT_MK_CTL_REASON n) = if s.on (BT_CTL_ENABLE n) then 0x0552 else 0x0752) ∧
  (∀ (s : State) (p : Fin 5) (n : Fin 16), s.mayWrite p (BT_MK_CTL n) = true → s.on (BT_CTL_ENABLE n) = true →
    tLt (atSecFrac (s.val (BT_MK_SEC n)) (s.val (BT_MK_FRAC n))) s.now = false →
    tLt (atSecFrac (s.val (BT_MK_SEC n)) (s.val (BT_MK_FRAC n))) (tAdd s.now (usTicks 100)) = false →
    s.flow.requests.any (fun q => q.stage = .input n && q.type = .syncReset && q.target = chanSid n) = false →
    ∃ t, exec (.btSyncArm p n) s = .next t ∧ t.on (BT_MK_CTL_SYNC_PENDING n) = true ∧ t.get (BT_MK_CTL_REASON n) = 0 ∧
      (t.btx n).syncAt = (s.btx n).syncAt ++ [atSecFrac (s.val (BT_MK_SEC n)) (s.val (BT_MK_FRAC n))] ∧
      (t.btx n).swapAt = (s.btx n).swapAt ∧ (∀ a, a ≠ BT_MK_CTL n → t.reg a = s.reg a))

/-- Broad transforms' data (R169 to R194, R211). -/
def Obligations.BroadTransformsRun : Prop :=
  (∀ (s : State) (n : Fin 16) (m : Marker) (rest : List InTok), s.btWorks n = true → (s.btx n).inq = .mark m :: rest →
    (s.btx n).wait = .none → m.type = .gainSwitch → m.target = chanSid n → (s.btx n).swapAt = some m.time →
    s.on (BT_STATUS_FADING n) = false →
    ∃ t, exec (.markerGainSwitch n) s = .next t ∧ (t.btx n).swapDue = true ∧ (t.btx n).inq = rest ∧ t.regs = s.regs ∧
      (t.btx n).markers = (s.btx n).markers ++ [{ m with offset := 0 }] ∧ t.out = s.out) ∧
  (∀ (s : State) (n : Nat), (s.btx n).swapDue = true →
    ((s.btSwap n).on (BT_MK_CTL_PENDING n) = false ∧
      (s.btSwap n).on (BT_STATUS_FADING n) = decide (s.get (BT_CFG_FADE_LOG n) ≠ 0) ∧
      ((s.btSwap n).btx n).active.eq = (s.btx n).eqSh ∧ ((s.btSwap n).btx n).active.mask = (s.btx n).maskSh ∧
      ((s.btSwap n).btx n).eqSh = (s.btx n).active.eq ∧ ((s.btSwap n).btx n).maskSh = (s.btx n).active.mask ∧
      ((s.btSwap n).btx n).swapAt = none ∧ ((s.btSwap n).btx n).swapDue = false ∧ (s.btSwap n).out = s.out)) ∧
  (∀ (s : State) (n : Fin 16) (m : Marker) (rest : List InTok), s.btWorks n = true → (s.btx n).inq = .mark m :: rest →
    (s.btx n).wait = .none → m.type = .gainSwitch → m.target = chanSid n → (s.btx n).swapAt = some m.time →
    s.on (BT_STATUS_FADING n) = true →
    ∃ t, exec (.markerGainSwitch n) s = .next t ∧ t.on (BT_STATUS_HELD n) = true ∧ (t.btx n).eqSh = (s.btx n).eqSh ∧
      (∀ a, a ≠ BT_STATUS n → t.reg a = s.reg a)) ∧
  (∀ (s : State) (n : Fin 16) (m : Marker) (rest : List InTok), s.btWorks n = true → (s.btx n).inq = .mark m :: rest →
    m.type = .syncReset → m.target = 0xFFFF → s.stoppedAll = false →
    ∃ t, exec (.markerSyncResetBroad n) s = .next t ∧ t.on (BT_STATUS_RUNNING n) = true ∧
      (t.btx n).origin = (s.btx n).k ∧ (t.btx n).next = s.btFirst n ∧ (t.btx n).hist = [] ∧ (t.btx n).wait = .none ∧
      (t.stream (chanSid n)).opened = true ∧ (t.btx n).markers = (s.btx n).markers ++ [{ m with offset := 0 }] ∧
      (∀ a, a ≠ BT_STATUS n → t.reg a = s.reg a)) ∧
  (∀ (s : State) (n : Fin 16) (g : GapRec) (rest : List InTok), s.btWorks n = true → (s.btx n).inq = .gap g :: rest →
    (s.btx n).wait = .none → g.final = false →
    ∃ t, exec (.btInputGap n) s = .next t ∧ (t.btx n).wait = .gap ∧ (t.btx n).k = (s.btx n).k + g.length.toNat ∧ t.out = s.out ∧
      t.regs = s.regs ∧
      ((s.btx n).lastMid.isSome = true → (t.btx n).gapCause = some ((s.btx n).gapCause.getD g.cause.toNat))) ∧
  (∀ (s : State) (n : Nat) (k : Int) (fs : Nat) (w8 : Bool), (s.btx n).wait = .gap →
    (((s.btFrameStart n k fs w8).btx n).origin = k ∧ ((s.btFrameStart n k fs w8).btx n).next = s.btFirst n ∧
      ((s.btFrameStart n k fs w8).btx n).wait = .none ∧ (s.btFrameStart n k fs w8).on (BT_STATUS_RUNNING n) = true)) ∧
  (∀ (s : State) (n : Fin 16) (g : GapRec) (rest : List InTok), s.btWorks n = true → (s.btx n).inq = .gap g :: rest →
    (s.btx n).wait = .none → g.final = true → s.stoppedAll = false →
    ∃ t, exec (.btInputGap n) s = .next t ∧ t.on (BT_STATUS_RUNNING n) = false ∧
      t.out = s.out ++ [.gap ⟨chanSid n, g.time, 0, g.cause, true⟩] ∧ (t.stream (chanSid n)).opened = false) ∧
  (∀ (s : State) (n : Fin 16) (v : Int) (ovr cal : Bool) (rest : List InTok), s.btWorks n = true →
    (s.btx n).inq = .x v ovr cal :: rest → (s.btx n).wait = .none → (s.btx n).skipTo = none → (s.btx n).swapDue = false →
    (s.btx n).gapCause = none → (s.btx n).takeGap = none →
    (s.btx n).k + 1 = (s.btx n).origin + (s.btx n).next * (s.btH n : Int) + (s.btL n : Int) →
    ∃ t, exec (.btSpectrumDone n) s = .next t ∧ (t.btx n).next = (s.btx n).next + 1 ∧ (t.btx n).cnt = (s.btx n).cnt + 1 ∧
      (t.btx n).lastMid = some (s.btMid n (s.btx n).next, s.btTime n (s.btx n).next) ∧ (t.btx n).markers = [] ∧
      (kvGetD t.dc.queue (detKey (6 + n / 4) (n % 4)) []).map DetTok.brief =
        (kvGetD s.dc.queue (detKey (6 + n / 4) (n % 4)) []).map DetTok.brief ++
          [some (chanSid n, (s.btx n).next, s.btTime n (s.btx n).next)] ∧
      t.val (BT_OVF_COUNT n) = (s.val (BT_OVF_COUNT n) + if (s.btWords n (s.btWindow n v)).2 then 1 else 0) % 2 ^ 32 ∧
      t.on (BT_STATUS_SETTLING n) = decide ((s.btx n).next + 1 < 0)) ∧
  (∀ (s : State) (n : Fin 16) (v : Int) (ovr cal : Bool) (rest : List InTok), s.btWorks n = true →
    (s.btx n).inq = .x v ovr cal :: rest → (s.btx n).wait = .none → (s.btx n).skipTo = none → (s.btx n).swapDue = false →
    (s.btx n).k + 1 = (s.btx n).origin + (s.btx n).next * (s.btH n : Int) + (s.btL n : Int) →
    s.on (BT_STATUS_FADING n) = true → s.on (BT_STATUS_HELD n) = false →
    (s.btx n).active.from_ + (s.btx n).active.fade ≤ (s.btx n).cnt + 1 →
    ∃ t, exec (.btEqFadeEnd n) s = .next t ∧ t.on (BT_STATUS_FADING n) = false ∧ (t.btx n).banks = (s.btx n).banks.take 1 ∧
      (t.btx n).next = (s.btx n).next + 1 ∧ (t.btx n).inq = rest) ∧
  (∀ (s : State) (p : Fin 5) (n : Fin 16) (v : Word), s.mayWrite p (BT_EQ_DATA n) = true → s.on (BT_EQ_ADDR_BANK n) = false →
    s.on (BT_MK_CTL_PENDING n) = false → s.on (BT_STATUS_FADING n) = false →
    ∃ t, exec (.btEqDataAccess p n (some v)) s = .next t ∧
      (eqEntry (t.btx n).eqSh (s.get (BT_EQ_ADDR_CH n) / 2 * 2)).toNat = v.toNat % 65536 ∧
      (eqEntry (t.btx n).eqSh (s.get (BT_EQ_ADDR_CH n) / 2 * 2 + 1)).toNat = v.toNat / 65536 ∧
      t.get (BT_EQ_ADDR_CH n) = (s.get (BT_EQ_ADDR_CH n) / 2 * 2 + 2) % 131072 ∧ t.get (BT_MK_CTL_REASON n) = 0 ∧
      (t.btx n).active = (s.btx n).active) ∧
  (∀ (s : State) (p : Fin 5) (n : Fin 16) (v : Word), s.mayWrite p (BT_EQ_DATA n) = true → s.on (BT_EQ_ADDR_BANK n) = true →
    ∃ t, exec (.btEqDataAccess p n (some v)) s = .next t ∧ t.bt = s.bt ∧ t.get (BT_MK_CTL_REASON n) = 0x0753 ∧
      t.reg (BT_EQ_ADDR n) = s.reg (BT_EQ_ADDR n)) ∧
  (∀ (s : State) (p : Fin 5) (n : Fin 16), s.mayRead p (BT_EQ_DATA n) = true → s.on (BT_EQ_ADDR_BANK n) = false →
    ∃ t, exec (.btEqDataAccess p n none) s = .next t ∧
      t.out = s.out ++ [.answer p (BT_EQ_DATA n) (BitVec.ofNat 32 ((eqEntry (s.btx n).eqSh (s.get (BT_EQ_ADDR_CH n) / 2 * 2)).toNat
        + 65536 * (eqEntry (s.btx n).eqSh (s.get (BT_EQ_ADDR_CH n) / 2 * 2 + 1)).toNat)) 0] ∧
      t.get (BT_EQ_ADDR_CH n) = (s.get (BT_EQ_ADDR_CH n) / 2 * 2 + 2) % 131072 ∧ t.bt = s.bt) ∧
  (∀ (s : State) (p : Fin 5) (n : Fin 16) (v : Word), s.mayWrite p (BT_WIN_DATA n) = true → s.on (BT_CTL_ENABLE n) = false →
    ∃ t, exec (.btWinDataAccess p n (some v)) s = .next t ∧
      (kvGetD (t.btx n).win (s.get (BT_WIN_ADDR_I n) / 2 * 2) 0xFFFF).toNat = v.toNat % 65536 ∧
      (kvGetD (t.btx n).win (s.get (BT_WIN_ADDR_I n) / 2 * 2 + 1) 0xFFFF).toNat = v.toNat / 65536 ∧
      t.get (BT_WIN_ADDR_I n) = (s.get (BT_WIN_ADDR_I n) / 2 * 2 + 2) % 16384 ∧ t.get (BT_CTL_REASON n) = 0) ∧
  (∀ (s : State) (p : Fin 5) (n : Fin 16), s.mayRead p (BT_WIN_DATA n) = true →
    ∃ t, exec (.btWinDataAccess p n none) s = .next t ∧
      t.out = s.out ++ [.answer p (BT_WIN_DATA n) (BitVec.ofNat 32 ((s.btx n).winPoint (s.get (BT_WIN_ADDR_I n) / 2 * 2)
        + 65536 * (s.btx n).winPoint (s.get (BT_WIN_ADDR_I n) / 2 * 2 + 1))) 0] ∧
      t.get (BT_WIN_ADDR_I n) = (s.get (BT_WIN_ADDR_I n) / 2 * 2 + 2) % 16384 ∧ t.bt = s.bt) ∧
  (∀ (s : State) (p : Fin 5) (n : Fin 16) (v : Word), s.mayWrite p (DC_MASK_DATA n) = true → s.on (DC_MASK_ADDR_BANK n) = false →
    s.on (BT_MK_CTL_PENDING n) = false → s.on (BT_STATUS_FADING n) = false →
    ∃ t, exec (.dcMaskDataAccess p n (some v)) s = .next t ∧ kvGetD (t.btx n).maskSh (s.get (DC_MASK_ADDR_W n)) 0 = v ∧
      (∀ k, k ≠ s.get (DC_MASK_ADDR_W n) → kvGetD (t.btx n).maskSh k 0 = kvGetD (s.btx n).maskSh k 0) ∧
      t.get (DC_MASK_ADDR_W n) = (s.get (DC_MASK_ADDR_W n) + 1) % 4096 ∧ (t.btx n).active = (s.btx n).active) ∧
  (∀ (s : State) (p : Fin 5) (n : Fin 16) (v : Word), s.mayWrite p (DC_MASK_DATA n) = true → s.on (DC_MASK_ADDR_BANK n) = true →
    ∃ t, exec (.dcMaskDataAccess p n (some v)) s = .next t ∧ t.bt = s.bt ∧ t.get (BT_MK_CTL_REASON n) = 0x0761 ∧
      t.reg (DC_MASK_ADDR n) = s.reg (DC_MASK_ADDR n)) ∧
  (∀ (s : State) (p : Fin 5) (n : Fin 16), s.mayRead p (DC_MASK_DATA n) = true → s.on (DC_MASK_ADDR_BANK n) = false →
    ∃ t, exec (.dcMaskDataAccess p n none) s = .next t ∧
      t.out = s.out ++ [.answer p (DC_MASK_DATA n) (kvGetD (s.btx n).maskSh (s.get (DC_MASK_ADDR_W n)) 0) 0] ∧
      t.get (DC_MASK_ADDR_W n) = (s.get (DC_MASK_ADDR_W n) + 1) % 4096 ∧ t.bt = s.bt)

/-- Integrators (R203 to R214, R226 to R230). -/
def Obligations.DetectionIntegrates : Prop :=
  (∀ (s : State) (q : Fin 4) (src : Fin 32) (d : DetSpec) (rest : List DetTok) (i : Nat), s.gated (spWin q) = false →
    s.lost (spWin q) = false → kvGetD s.dc.queue (detKey (spWin q) src) [] = .spec d :: rest → d.bad = false →
    s.intsOf (spWin q) src = [i] → s.planesOf (spWin q) src = [] → (s.intg (spWin q) i).opened = false →
    (s.intg (spWin q) i).seek = false ∨ d.j % ((s.intCfg (spWin q) i).m : Int) = 0 →
    ∃ t, exec (.detectionSpectrum q src) s = .next t ∧ kvGetD t.dc.queue (detKey (spWin q) src) [] = rest ∧
      (t.intg (spWin q) i).opened = true ∧ (t.intg (spWin q) i).n = 1 ∧ (t.intg (spWin q) i).time = d.time ∧
      (t.intg (spWin q) i).i = d.j / ((s.intCfg (spWin q) i).m : Int) ∧ (t.intg (spWin q) i).grid = d.grid ∧
      (t.intg (spWin q) i).markers = (s.intg (spWin q) i).markers ++ d.markers ∧
      t.on (DC_INT_STATUS_RUNNING (spWin q) i) = true ∧ t.out = s.out) ∧
  (∀ (s : State) (q : Fin 4) (src : Fin 32) (d : DetSpec) (rest : List DetTok), s.gated (spWin q) = false →
    s.lost (spWin q) = false → kvGetD s.dc.queue (detKey (spWin q) src) [] = .spec d :: rest → d.bad = true →
    (∀ i ∈ s.intsOf (spWin q) src, (s.intg (spWin q) i).opened = false) →
    ∃ t, exec (.detectionSpectrum q src) s = .next t ∧ kvGetD t.dc.queue (detKey (spWin q) src) [] = rest ∧
      (∀ i, (t.intg (spWin q) i).opened = (s.intg (spWin q) i).opened ∧ (t.plane (spWin q) i).counts = (s.plane (spWin q) i).counts) ∧
      t.regs = s.regs ∧ t.out = s.out) ∧
  (∀ (s : State) (q : Fin 4) (i : Fin 16), (s.intg (spWin q) i).opened = true → 0 < (s.intg (spWin q) i).n →
    ∃ t, exec (.dcIntFlush q i) s = .next t ∧ (t.intg (spWin q) i).opened = false ∧ (t.intg (spWin q) i).n = 0 ∧
      t.val (DC_INT_DONE (spWin q) i) = (s.val (DC_INT_DONE (spWin q) i) +
        if s.delivers (s.specSid (spWin q) i) then 1 else 0) % 2 ^ 32 ∧
      t.val (DC_INT_PARTIALS (spWin q) i) = (s.val (DC_INT_PARTIALS (spWin q) i) +
        if (s.intg (spWin q) i).n < s.get (DC_INT_M_M (spWin q) i) then 1 else 0) % 2 ^ 32 ∧
      (s.delivers (s.specSid (spWin q) i) = true → (s.intCfg (spWin q) i).span ≤ 8192 → (s.stream (s.specSid (spWin q) i)).markers = [] →
        (t.out.drop s.out.length).map Emission.brief = [some (s.specSid (spWin q) i, (s.stream (s.specSid (spWin q) i)).seq,
          (s.intg (spWin q) i).time, 0x0601)])) ∧
  (∀ (s : State) (q : Fin 4) (i : Fin 16), (s.intg (spWin q) i).opened = false →
    exec (.dcIntFlush q i) s = .next s) ∧
  (∀ (s : State) (p : Fin 5) (q : Fin 4) (i : Fin 16) (v : Word), s.mayWrite p (DC_INT_CTL (spWin q) i) = true →
    s.on (DC_INT_CTL_ENABLE (spWin q) i) = false → bits v.toNat 0 0 = 1 → s.dutyDead (DC_INT_CTL (spWin q) i) = false →
    (s.plainWrite (DC_INT_CTL (spWin q) i) (v.toNat / 2 * 2)).intCheck (spWin q) i = 0 → s.stoppedAll = false →
    ∃ t, exec (.dcIntEnable p q i v) s = .next t ∧ t.on (DC_INT_CTL_ENABLE (spWin q) i) = true ∧
      t.get (DC_INT_CTL_REASON (spWin q) i) = 0 ∧ (t.stream (s.specSid (spWin q) i)).opened = true ∧
      (t.intg (spWin q) i).opened = false ∧ (t.intg (spWin q) i).seek = true ∧ t.out = s.out) ∧
  (∀ (s : State) (p : Fin 5) (q : Fin 4) (i : Fin 16) (v : Word), s.mayWrite p (DC_INT_CTL (spWin q) i) = true →
    s.on (DC_INT_CTL_ENABLE (spWin q) i) = false → bits v.toNat 0 0 = 1 → s.dutyDead (DC_INT_CTL (spWin q) i) = false →
    (s.plainWrite (DC_INT_CTL (spWin q) i) (v.toNat / 2 * 2)).intCheck (spWin q) i ≠ 0 →
    ∃ t, exec (.dcIntEnable p q i v) s = .next t ∧ t.on (DC_INT_CTL_ENABLE (spWin q) i) = false ∧
      t.get (DC_INT_CTL_REASON (spWin q) i) =
        (s.plainWrite (DC_INT_CTL (spWin q) i) (v.toNat / 2 * 2)).intCheck (spWin q) i % 65536 ∧ t.dc = s.dc ∧ t.flow = s.flow) ∧
  (∀ (s : State) (q : Fin 4) (src : Fin 32) (i : Nat), s.srcOn (spWin q) src = false → s.intsOf (spWin q) src = [i] →
    s.planesOf (spWin q) src = [] →
    ∃ t, exec (.dcSourceDisabled q src) s = .next t ∧ t.on (DC_INT_CTL_ENABLE (spWin q) i) = false ∧
      t.get (DC_INT_CTL_REASON (spWin q) i) = 0x0362 ∧ (t.intg (spWin q) i).opened = false) ∧
  (∀ (s : State) (q : Fin 4) (src : Fin 32), s.srcOn (spWin q) src = true →
    exec (.dcSourceDisabled q src) s = .next s) ∧
  (∀ (s : State) (q : Fin 4) (src : Fin 32) (g : GapRec) (rest : List DetTok) (i : Nat), s.gated (spWin q) = false →
    s.lost (spWin q) = false → kvGetD s.dc.queue (detKey (spWin q) src) [] = .gap g :: rest → s.intsOf (spWin q) src = [i] →
    s.planesOf (spWin q) src = [] → (s.intg (spWin q) i).opened = false → (s.intg (spWin q) i).begun = true →
    s.stoppedAll = false →
    ∃ t, exec (.dcSourceGap q src) s = .next t ∧ kvGetD t.dc.queue (detKey (spWin q) src) [] = rest ∧
      t.out = s.out ++ [.gap ⟨s.specSid (spWin q) i, g.time,
        BitVec.ofNat 48 (g.length.toNat / max 1 (s.intCfg (spWin q) i).m), g.cause, g.final⟩] ∧ t.regs = s.regs) ∧
  (∀ (s : State) (q : Fin 4) (src : Fin 32), kvGetD s.dc.queue (detKey (spWin q) src) [] = [] →
    ∃ t, exec (.dcSourceGap q src) s = .next t ∧ t.dc.ints = s.dc.ints ∧ t.dc.planes = s.dc.planes ∧ t.regs = s.regs ∧
      t.flow = s.flow ∧ t.out = s.out)

/-- Density planes (R217 to R223, R229). -/
def Obligations.DensityPlanesAreSent : Prop :=
  (∀ (s : State) (p : Fin 5) (q i : Fin 4) (v : Word), s.mayWrite p (DC_PL_CTL (spWin q) i) = true →
    s.on (DC_PL_CTL_ENABLE (spWin q) i) = false → bits v.toNat 0 0 = 1 → bits v.toNat 2 2 = 0 → s.stoppedAll = false →
    s.dutyDead (DC_PL_CTL (spWin q) i) = false → (s.plainWrite (DC_PL_CTL (spWin q) i) 0).planeCheck (spWin q) i = 0 →
    ∃ t, exec (.dcPlEnable p q i v) s = .next t ∧ t.on (DC_PL_CTL_ENABLE (spWin q) i) = true ∧
      t.get (DC_PL_CTL_REASON (spWin q) i) = 0 ∧ t.on (DC_PL_STATUS_RUNNING (spWin q) i) = true ∧
      t.get (DC_PL_CFG_PRE_LOG (spWin q) i) = s.preLog (spWin q) i ∧
      t.val (DC_PL_UPD_LO (spWin q) i) = 0 ∧ (t.plane (spWin q) i).counts = [] ∧
      (t.stream (densSid (spWin q) i)).opened = true ∧ t.cmem = s.cmem) ∧
  (∀ (s : State) (p : Fin 5) (q i : Fin 4) (v : Word), s.mayWrite p (DC_PL_CTL (spWin q) i) = true →
    s.on (DC_PL_CTL_ENABLE (spWin q) i) = false → bits v.toNat 0 0 = 1 → bits v.toNat 2 2 = 0 →
    s.dutyDead (DC_PL_CTL (spWin q) i) = false → (s.plainWrite (DC_PL_CTL (spWin q) i) 0).planeCheck (spWin q) i ≠ 0 →
    ∃ t, exec (.dcPlEnable p q i v) s = .next t ∧ t.on (DC_PL_CTL_ENABLE (spWin q) i) = false ∧ t.dc.planes = s.dc.planes ∧
      t.get (DC_PL_CTL_REASON (spWin q) i) = (s.plainWrite (DC_PL_CTL (spWin q) i) 0).planeCheck (spWin q) i % 65536) ∧
  (∀ (s : State) (p : Fin 5) (q i : Fin 4), s.mayWrite p (DC_PL_CTL (spWin q) i) = true →
    ∃ t, exec (.dcPlClear p q i) s = .next t ∧ (t.plane (spWin q) i).counts = [] ∧ (t.plane (spWin q) i).u = 0 ∧
      (t.plane (spWin q) i).cleared = true ∧ (t.plane (spWin q) i).snap = (s.plane (spWin q) i).snap ∧
      t.on (DC_PL_CTL_ENABLE (spWin q) i) = s.on (DC_PL_CTL_ENABLE (spWin q) i) ∧ t.out = s.out ∧
      (∀ a, a ≠ DC_PL_CTL (spWin q) i → t.reg a = s.reg a)) ∧
  (∀ (s : State) (q i : Fin 4), s.on (DC_PL_CTL_ENABLE (spWin q) i) = true → s.on (DC_PL_DUMP_PERIOD_US (spWin q) i) = true →
    s.delivers (densSid (spWin q) i) = true → (s.plane (spWin q) i).missed = none → (s.plane (spWin q) i).markers = [] →
    (s.stream (densSid (spWin q) i)).markers = [] →
    ∃ t, exec (.densSnapshot q i) s = .next t ∧
      (t.out.drop s.out.length).map Emission.brief = (List.range 64).map (fun f => some (densSid (spWin q) i,
        (s.stream (densSid (spWin q) i)).seq + BitVec.ofNat 32 f, (s.plane (spWin q) i).lastTime, 0x0801)) ∧
      (t.plane (spWin q) i).snap = (s.plane (spWin q) i).snap + 1 ∧ (t.plane (spWin q) i).cleared = false ∧
      (t.plane (spWin q) i).added = 0 ∧ (t.plane (spWin q) i).counts = (s.plane (spWin q) i).counts ∧ t.regs = s.regs) ∧
  (∀ (s : State) (q i : Fin 4) (at_ : DevTime) (c : Nat), s.on (DC_PL_CTL_ENABLE (spWin q) i) = true →
    s.on (DC_PL_DUMP_PERIOD_US (spWin q) i) = true → s.delivers (densSid (spWin q) i) = true →
    (s.plane (spWin q) i).missed = some (at_, c) →
    ∃ t, exec (.densSnapshot q i) s = .next t ∧
      (t.out.drop s.out.length).head? = some (.gap ⟨densSid (spWin q) i, at_, BitVec.ofNat 48 (s.plane (spWin q) i).added,
        BitVec.ofNat 16 c, false⟩) ∧
      (t.plane (spWin q) i).missed = none ∧ (t.plane (spWin q) i).added = 0) ∧
  (∀ (s : State) (q i : Fin 4), s.on (DC_PL_CTL_ENABLE (spWin q) i) = true → s.on (DC_PL_DUMP_PERIOD_US (spWin q) i) = true →
    s.delivers (densSid (spWin q) i) = false → (s.stream (densSid (spWin q) i)).full = true →
    (s.plane (spWin q) i).missed = none →
    ∃ t, exec (.densSnapshot q i) s = .next t ∧ t.out = s.out ∧ t.regs = s.regs ∧
      (t.plane (spWin q) i).snap = (s.plane (spWin q) i).snap + 1 ∧
      (t.plane (spWin q) i).missed = some ((s.plane (spWin q) i).lastTime, (s.stream (densSid (spWin q) i)).lostCause) ∧
      (t.plane (spWin q) i).added = (s.plane (spWin q) i).added) ∧
  (∀ (s : State) (q i : Fin 4), s.get (DC_PL_DUMP_PERIOD_US (spWin q) i) = 0 →
    exec (.densSnapshot q i) s = .next s)

/-- Trigger units (R233, R234, R257, R259, R264 to R267). -/
def Obligations.TriggerUnitsRun : Prop :=
  (∀ (s : State) (p r : Fin 5) (u : Fin 16) (v : Word), (r = 4 → u.val ≤ 9) → s.mayWrite p (TG_U_CTL (tgWin r) u) = true →
    s.tgOn r u = false → bits v.toNat 0 0 = 1 → bits v.toNat 6 6 = 0 →
    (s.plainWrite (TG_U_CTL (tgWin r) u) (setBits v.toNat 0 0 0)).tgCheck r u = 0 →
    ∃ t, exec (.tgUnitEnable p r u v) s = .next t ∧ t.tgOn r u = true ∧ t.get (TG_U_CTL_REASON (tgWin r) u) = 0 ∧
      t.on (TG_U_STATUS_ARMED (tgWin r) u) = true ∧ t.on (TG_U_STATUS_HOLDOFF (tgWin r) u) = false ∧ (t.tgu r u).holdEnd = none ∧
      t.tgQueue r = s.tgQueue r) ∧
  (∀ (s : State) (p r : Fin 5) (u : Fin 16) (v : Word), (r = 4 → u.val ≤ 9) → s.mayWrite p (TG_U_CTL (tgWin r) u) = true →
    s.tgOn r u = false → bits v.toNat 0 0 = 1 → bits v.toNat 6 6 = 0 →
    (s.plainWrite (TG_U_CTL (tgWin r) u) (setBits v.toNat 0 0 0)).tgCheck r u ≠ 0 →
    ∃ t, exec (.tgUnitEnable p r u v) s = .next t ∧ t.tgOn r u = false ∧ t.tg = s.tg ∧
      t.get (TG_U_CTL_REASON (tgWin r) u) =
        (s.plainWrite (TG_U_CTL (tgWin r) u) (setBits v.toNat 0 0 0)).tgCheck r u % 65536) ∧
  (∀ (s : State) (p r : Fin 5) (u : Fin 16), (r = 4 → u.val ≤ 9) → s.mayWrite p (TG_U_CTL (tgWin r) u) = true →
    s.tgOn r u = true → s.tgNamed r u = false → (s.tgu r u).out = [] →
    ∃ t, exec (.tgUnitDisable p r u) s = .next t ∧ t.tgOn r u = false ∧ t.val (TG_U_STATUS (tgWin r) u) = 0 ∧
      t.get (TG_U_CTL_REASON (tgWin r) u) = 0 ∧ t.tgQueue r = s.tgQueue r) ∧
  (∀ (s : State) (p r : Fin 5) (u : Fin 16), (r = 4 → u.val ≤ 9) → s.mayWrite p (TG_U_CTL (tgWin r) u) = true →
    s.tgOn r u = true → s.on (TG_U_CTL_ARM_MODE (tgWin r) u) = true → s.on (TG_U_STATUS_ARMED (tgWin r) u) = false →
    ∃ t, exec (.tgUnitArm p r u) s = .next t ∧ t.on (TG_U_STATUS_ARMED (tgWin r) u) = true ∧ (t.tgu r u).armSince = s.now ∧
      t.get (TG_U_CTL_REASON (tgWin r) u) = 0 ∧ t.tgOn r u = true ∧ t.out = s.out) ∧
  (∀ (s : State) (p r : Fin 5) (u : Fin 16), (r = 4 → u.val ≤ 9) → s.mayWrite p (TG_U_CTL (tgWin r) u) = true →
    s.on (TG_U_CTL_ARM_MODE (tgWin r) u) = false →
    ∃ t, exec (.tgUnitArm p r u) s = .next t ∧ t.get (TG_U_CTL_REASON (tgWin r) u) = 0x0771 ∧ t.tg = s.tg ∧
      t.reg (TG_U_STATUS (tgWin r) u) = s.reg (TG_U_STATUS (tgWin r) u)) ∧
  (∀ (s : State) (r : Fin 5) (u : Fin 16) (e : DevTime), s.on (TG_U_STATUS_HOLDOFF (tgWin r) u) = true →
    (s.tgu r u).holdEnd = some e → tLe e s.now = true → r = 4 ∨ u ≠ 12 →
    ∃ t, exec (.tgHoldoffEnd r u) s = .next t ∧ t.on (TG_U_STATUS_HOLDOFF (tgWin r) u) = false ∧
      t.on (TG_U_STATUS_ARMED (tgWin r) u) =
        (s.on (TG_U_STATUS_ARMED (tgWin r) u) || (s.tgOn r u && !(s.on (TG_U_CTL_ARM_MODE (tgWin r) u)))) ∧
      (∀ a, a ≠ TG_U_STATUS (tgWin r) u → t.reg a = s.reg a)) ∧
  (∀ (s : State) (r : Fin 5) (u : Fin 16) (e : DevTime), (s.tgu r u).holdEnd = some e → tLe e s.now = false →
    exec (.tgHoldoffEnd r u) s = .next s) ∧
  (∀ (s : State) (q : Fin 5) (u : Fin 16) (b : DevTime) (cause : BitVec 16) (rest : List TgTok), q.val < 4 → u.val < 12 → s.tgOn q u = true →
    s.gated (tgWin q) = false → s.lost (tgWin q) = false → (s.tgu q u).inq = .gap b cause :: rest →
    ∃ t, exec (.tgSourceGap q u) s = .next t ∧ (t.tgu q u).inq = rest ∧
      (t.tgu q u).blind = some ((s.tgu q u).blind.getD (b, cause)) ∧ (t.tgu q u).isOut = (if u.val < 8 then (s.tgu q u).isOut else none) ∧
      (u.val < 8 → (t.tgu q u).hist = [] ∧ (t.tgu q u).crossing = none) ∧ t.tgQueue q = s.tgQueue q ∧ t.regs = s.regs) ∧
  (∀ (s : State) (q : Fin 4) (u : Fin 8) (re im : Int) (ovr cal : Bool) (b : DevTime) (cause : BitVec 16), s.tgOn q u = true →
    s.gated (tgWin q) = false → s.lost (tgWin q) = false → (s.tgu q u).inq = [.x re im ovr cal] → (s.tgu q u).crossing = none →
    (s.tgu q u).blind = some (b, cause) → (s.tgu q u).out = [] → (s.tgQueue q).length < 16384 → (s.tgLost q).1 = 0 →
    nsBetween b (s.levelTime q u (s.tgu q u).at_ 0) < 0xFFFFFFFF →
    ∃ t, exec (.tgLevelCrossing q u) s = .next t ∧
      t.tgBrief q = s.tgBrief q ++ [(tAdd b (nsTicks 0), 8, u.val, BitVec.ofNat 32 (s.tgNumber q))] ∧ t.tgOn q u = true ∧
      (t.tgQueue q).getLast?.map (fun x => (x.detail, x.extent, x.source)) =
        some (cause.zeroExtend 32, BitVec.ofNat 32 (nsBetween b (s.levelTime q u (s.tgu q u).at_ 0)), s.levelStream q u) ∧
      (t.tgu q u).blind = none) ∧
  (∀ (s : State) (r u : Nat), s.tgOn r u = true → s.tgSourceOn r u = false →
    ((s.tgSourceOff r u).tgOn r u = false ∧ (s.tgSourceOff r u).get (TG_U_CTL_REASON (tgWin r) u) = 0x0370)) ∧
  (∀ (s : State) (q : Fin 4) (u : Fin 2) (h : Nat × DevTime), s.tgOn q (14 + u) = true → (s.tgu q (14 + u)).held = [h] →
    tLe (tAdd h.2 (s.seqHold q (14 + u))) s.now = true → s.seqState q (14 + u) = 0 → s.seqNames q (14 + u) 0 h.1 = true →
    1 < s.seqStates q (14 + u) →
    ∃ t, exec (.tgSeqHoldRelease q u) s = .next t ∧ t.seqState q (14 + u) = 1 ∧ (t.tgu q (14 + u)).times = [h] ∧
      (t.tgu q (14 + u)).held = [] ∧ t.tgQueue q = s.tgQueue q ∧
      (∀ a, a ≠ (TG_SQ_STATE_NOW (tgWin q) u).addr → t.reg a = s.reg a)) ∧
  (∀ (s : State) (q : Fin 4) (u : Fin 2) (l : Nat × DevTime), s.seqState q (14 + u) ≠ 0 →
    (s.tgu q (14 + u)).times.getLast? = some l →
    tLt (tAdd (s.seqWinEnd q (14 + u) (s.seqState q (14 + u)) l.2) (s.seqHold q (14 + u))) s.now = true →
    ∃ t, exec (.tgSeqTimeout q u) s = .next t ∧ t.seqState q (14 + u) = 0 ∧ (t.tgu q (14 + u)).times = [] ∧
      (t.tgu q (14 + u)).held = (s.tgu q (14 + u)).held ∧ t.tgQueue q = s.tgQueue q)

/-- What fires a unit (R235 to R256). -/
def Obligations.ConditionsFireTriggers : Prop :=
  (∀ (s : State) (q : Fin 4) (u : Fin 8) (re im : Int) (ovr cal : Bool) (rest : List TgTok) (x0 x1 x2 : Ratio × Bool × Bool),
    s.gated (tgWin q) = false → s.lost (tgWin q) = false → (s.tgu q u).inq = .x re im ovr cal :: rest →
    (s.tgu q u).hist = [x2, x1, x0] → (s.tgu q u).crossing = some true → (s.tgu q u).blind = none →
    (∀ m ∈ List.range 257, s.mayFire q u (s.levelTime q u ((s.tgu q u).at_ - 2 * ((s.tgu q u).step : Int)) m) = true) →
    ∃ t, exec (.tgLevelCrossing q u) s = .next t ∧ (t.tgu q u).inq = rest ∧
      ∃ m ∈ List.range 257, 1 ≤ m ∧
        (m = 256 ∨ ratioLt (cubicAt x0.1 x1.1 x2.1 (s.levelSample q u re im) m)
          (ratioOf (signed 32 (s.val (TG_LV_LEVEL (tgWin q) u)))) = false) ∧
        (∀ k ∈ List.range m, k = 0 ∨ ratioLt (cubicAt x0.1 x1.1 x2.1 (s.levelSample q u re im) k)
          (ratioOf (signed 32 (s.val (TG_LV_LEVEL (tgWin q) u)))) = true) ∧
        Fired s t q u (s.levelTime q u ((s.tgu q u).at_ - 2 * ((s.tgu q u).step : Int)) m) 0) ∧
  (∀ (s : State) (r u : Nat) (v p : Ratio × Bool × Bool) (l : List (Ratio × Bool × Bool)), (s.tgu r u).hist = p :: l →
    (s.tgu r u).qualUp = true → s.get (TG_LV_SRC_SLOPE (tgWin r) u) ≠ 1 →
    ratioLt p.1 (ratioOf (signed 32 (s.val (TG_LV_LEVEL (tgWin r) u)))) = true →
    ratioLt v.1 (ratioOf (signed 32 (s.val (TG_LV_LEVEL (tgWin r) u)))) = false →
    (((s.levelTake r u v).1.tgu r u).crossing = some true ∧ ((s.levelTake r u v).1.tgu r u).hist = (v :: p :: l).take 3)) ∧
  (∀ (s : State) (q u : Fin 4) (d : DetSpec) (rest : List TgTok), s.gated (tgWin q) = false → s.lost (tgWin q) = false →
    (s.tgu q (8 + u)).inq = .spec d :: rest → d.bad = false → (s.tgu q (8 + u)).blind = none →
    s.get (TG_MK_SRC_KIND (tgWin q) u) ≠ 2 → s.get (TG_MK_SRC_COND (tgWin q) u) = 3 →
    s.get (TG_MK_MIN_MIN_CH (tgWin q) u) ≤ (s.maskViols q (8 + u) d).length → s.mayFire q (8 + u) d.time = true →
    ∃ t, exec (.tgMaskEval q u) s = .next t ∧ Fired s t q (8 + u) d.time 1 ∧ (t.tgu q (8 + u)).isOut = some true ∧
      (t.tgu q (8 + u)).inq = rest) ∧
  (∀ (s : State) (q u : Fin 4) (c : KV Nat) (time lo hi : DevTime) (ovr cal : Bool) (rest : List TgTok), s.gated (tgWin q) = false →
    s.lost (tgWin q) = false → (s.tgu q (8 + u)).inq = .plane c time lo hi ovr cal :: rest → (s.tgu q (8 + u)).blind = none →
    s.get (TG_MK_SRC_KIND (tgWin q) u) = 2 → s.get (TG_MK_MIN_MIN_CH (tgWin q) u) ≤
      ((s.densSums q (8 + u) (tgWin q) (s.get (TG_MK_SRC_INDEX (tgWin q) u) % 4) c).filter fun n =>
        decide (s.get (TG_MK_MIN_DENS_MIN (tgWin q) u) ≤ n)).length → s.mayFire q (8 + u) time = true →
    ∃ t, exec (.tgDensityOverEval q u) s = .next t ∧ Fired s t q (8 + u) time 1 ∧ (t.tgu q (8 + u)).inq = rest) ∧
  (∀ (s : State) (q : Fin 4) (b : Fin 64) (d : DetSpec) (rest : List TgTok), s.gated (tgWin q) = false → s.lost (tgWin q) = false →
    (s.band q b).inq = .spec d :: rest → d.bad = false → (s.band q b).blind = none →
    (∀ k : Fin 64, k ≠ b → s.on (TG_BP_SRC_ON (tgWin q) k) = false) → s.get (TG_BP_AVG_AVG_LOG (tgWin q)) = 0 →
    s.on (TG_BP_SRC_DIR (tgWin q) b) = false → (s.band q b).qual = true →
    dbReaches (ratioMul (((d.p.drop (s.get ⟨TG_BP_FIRST (tgWin q) b, 19, 0⟩)).take (s.get ⟨TG_BP_LAST (tgWin q) b, 19, 0⟩ + 1
      - s.get ⟨TG_BP_FIRST (tgWin q) b, 19, 0⟩)).foldl (fun a v => ratioAdd a (f32Num v)) ⟨0, 1⟩) (ratio 1 1))
      (s.getS (TG_BP_LEVEL_LEVEL (tgWin q) b)) 8 = true →
    s.tgJudge q 12 (s.band q b).holdEnd d.time = .fire → s.on (TG_U_CTL_RECORD (tgWin q) 12) = true →
    (s.tgu q 12).out = [] → (s.tgQueue q).length < 16384 → (s.tgLost q).1 = 0 →
    ∃ t, exec (.tgBandEval q b) s = .next t ∧ t.tgBrief q = s.tgBrief q ++ [(d.time, 2, 12, BitVec.ofNat 32 (s.tgNumber q))] ∧
      (t.band q b).holdEnd = some (s.holdUntil q 12 d.time) ∧ (t.band q b).seen = some (d.grid, d.j, d.time) ∧
      (t.band q b).n = 0 ∧ (t.band q b).inq = rest) ∧
  (∀ (s : State) (swarm : Fin 4096) (r : YRec), s.on ST_TG_FB_CFG_RX_EN = true → swarm.val = s.get ST_TG_FB_CFG_RX_SWARM →
    r.hive ≠ s.hive → r.type = 8 → r.format = 0x0900 → r.payload.length = 32 → 8 ≤ r.stream.toNat % 4096 →
    s.mayFire 4 8 (BitVec.ofNat 80 (fromLe (r.payload.take 10))) = true →
    ∃ t, exec (.tgFabricReceive swarm r) s = .next t ∧ Fired s t 4 8 (BitVec.ofNat 80 (fromLe (r.payload.take 10))) 5) ∧
  (∀ (s : State) (p : Fin 5), s.mayWrite p ST_TG_HO_FIRE = true →
    tLe (atSecFrac (s.val ST_TG_HO_SEC) (s.val ST_TG_HO_FRAC)) s.now = true →
    tLt (tAdd s.now (10 * 2 ^ 48)) (atSecFrac (s.val ST_TG_HO_SEC) (s.val ST_TG_HO_FRAC)) = false →
    s.mayFire 4 9 (atSecFrac (s.val ST_TG_HO_SEC) (s.val ST_TG_HO_FRAC)) = true →
    ∃ t, exec (.tgHostFire p) s = .next t ∧ Fired s t 4 9 (atSecFrac (s.val ST_TG_HO_SEC) (s.val ST_TG_HO_FRAC)) 6 ∧
      t.get (TG_U_CTL_REASON 1 9) = 0) ∧
  (∀ (s : State) (p : Fin 5), s.mayWrite p ST_TG_HO_FIRE = true →
    tLe (atSecFrac (s.val ST_TG_HO_SEC) (s.val ST_TG_HO_FRAC)) s.now = false →
    ∃ t, exec (.tgHostFire p) s = .next t ∧ t.tgQueue 4 = s.tgQueue 4 ∧
      (if tLt (tAdd s.now (10 * 2 ^ 48)) (atSecFrac (s.val ST_TG_HO_SEC) (s.val ST_TG_HO_FRAC)) then
          t.get (TG_U_CTL_REASON 1 9) = 0x0603 ∧ t.tg.host = s.tg.host
        else t.tg.host = some (atSecFrac (s.val ST_TG_HO_SEC) (s.val ST_TG_HO_FRAC), p.val) ∧ t.get (TG_U_CTL_REASON 1 9) = 0)) ∧
  (∀ (s : State) (h : DevTime × Nat), s.tg.host = some h → tLe h.1 s.now = true → s.mayFire 4 9 h.1 = true →
    ∃ t, exec .tgHostDue s = .next t ∧ Fired s t 4 9 h.1 6 ∧ t.tg.host = none) ∧
  (∀ (s : State) (h : DevTime × Nat), s.tg.host = some h → tLe h.1 s.now = false → exec .tgHostDue s = .next s) ∧
  (∀ (s : State) (q : Fin 4) (c : Nat × DrHit), (s.drift q).cluster = some c → c.1 + s.drCluster q ≤ (s.drift q).next →
    s.mayFire q 13 (s.drTime q c.1) = true → (s.drift q).blindFrom = none → (s.drift q).warmFrom = none →
    ∃ t, exec (.tgDriftClusterEnd q) s = .next t ∧ Fired s t q 13 (s.drTime q c.2.t) 3 ∧ (t.drift q).cluster = none) ∧
  (∀ (s : State) (q : Fin 4) (f : Nat), s.gated (tgWin q) = false → s.lost (tgWin q) = false → s.tgOn q 13 = true →
    (s.drift q).first = some f → (s.drift q).next + s.drSpan q ≤ s.drDone q →
    ∃ t, exec (.tgDriftStepEval q) s = .next t ∧ (t.drift q).next = (s.drift q).next + 1 ∧ (t.drift q).first = some f ∧
      (t.drift q).rows = (s.drift q).rows ∧ t.tgOn q 13 = true) ∧
  (∀ (s : State) (q : Fin 4), (s.drift q).inq = [] → s.drDone q < (s.drift q).next + s.drSpan q →
    ∃ t, exec (.tgDriftStepEval q) s = .next t ∧ t.drift q = s.drift q ∧ t.regs = s.regs ∧ t.tgQueue q = s.tgQueue q ∧
      t.out = s.out)

/-- Trigger queues (R86, R87, R237, R261 to R263). -/
def Obligations.TriggerQueuesAreRead : Prop :=
  (∀ (s : State) (p r : Fin 5) (x : TrigRec) (l : List TrigRec), s.mayRead p (TG_QW (tgWin r) 0) = true → s.tgQueue r = x :: l →
    s.on (TG_QCTL_ROUTE (tgWin r)) = false →
    ∃ t, exec (.tgQw0Read p r) s = .next t ∧
      t.out = s.out ++ [.answer p (TG_QW (tgWin r) 0) (BitVec.ofNat 32 (fromLe ((trigBytes x).take 4))) 0] ∧
      t.tgQueue r = s.tgQueue r ∧ t.regs = s.regs ∧ (∀ k : Fin 8, t.tgSlotWord p r k =
        BitVec.ofNat 32 (fromLe (((trigBytes x).drop (4 * k)).take 4)))) ∧
  (∀ (s : State) (p r : Fin 5), s.mayRead p (TG_QW (tgWin r) 0) = true → s.tgQueue r = [] →
    ∃ t, exec (.tgQw0Read p r) s = .next t ∧ t.out = s.out ++ [.answer p (TG_QW (tgWin r) 0) 0 0] ∧ t.regs = s.regs) ∧
  (∀ (s : State) (p r : Fin 5) (x : TrigRec) (l : List TrigRec), s.mayRead p (TG_QW (tgWin r) 7) = true → s.tgQueue r = x :: l →
    s.on (TG_QCTL_ROUTE (tgWin r)) = false → (s.tgLatch p r).rec_ = some (x, kvGetD s.tg.popped r 0) →
    ∃ t, exec (.tgQw7Read p r) s = .next t ∧ t.tgQueue r = l ∧ t.get (TG_QLEVEL_LEVEL (tgWin r)) = l.length % 32768 ∧
      t.out = s.out ++ [.answer p (TG_QW (tgWin r) 7) (BitVec.ofNat 32 (fromLe (((trigBytes x).drop 28).take 4))) 0] ∧
      kvGetD t.tg.popped r 0 = kvGetD s.tg.popped r 0 + 1) ∧
  (∀ (s : State) (p r : Fin 5) (x : TrigRec) (k : Nat), s.mayRead p (TG_QW (tgWin r) 7) = true →
    (s.tgLatch p r).rec_ = some (x, k) → k ≠ kvGetD s.tg.popped r 0 →
    ∃ t, exec (.tgQw7Read p r) s = .next t ∧ t.tgQueue r = s.tgQueue r ∧ t.regs = s.regs ∧
      t.out = s.out ++ [.answer p (TG_QW (tgWin r) 7) (BitVec.ofNat 32 (fromLe (((trigBytes x).drop 28).take 4))) 0]) ∧
  (∀ (s : State) (r : Fin 5), (s.tgLost r).1 ≠ 0 → (s.tgQueue r).length < 16384 → s.on (TG_QCTL_ROUTE (tgWin r)) = false →
    ∃ t, exec (.tgQueueSpaceReturn r) s = .next t ∧ (t.tgLost r).1 = 0 ∧
      (t.tgQueue r).map (fun x => (x.time, x.kind, x.extent, x.number)) = (s.tgQueue r).map (fun x => (x.time, x.kind, x.extent, x.number))
        ++ [((s.tgLost r).2, 9, BitVec.ofNat 32 (min (s.tgLost r).1 0xFFFFFFFF), BitVec.ofNat 32 (s.tgNumber r))] ∧ t.out = s.out) ∧
  (∀ (s : State) (r : Fin 5), (s.tgLost r).1 ≠ 0 → (s.tgQueue r).length < 16384 → s.trigLive r = true →
    ∃ t, exec (.tgQueueSpaceReturn r) s = .next t ∧ (t.tgLost r).1 = 0 ∧ t.tgQueue r = s.tgQueue r ∧
      t.out = s.out ++ [.gap ⟨trigSid r, (s.tgLost r).2, BitVec.ofNat 48 (s.tgLost r).1, 1, false⟩]) ∧
  (∀ (s : State) (r : Fin 5) (x : TrigRec) (l : List TrigRec), s.tgQueue r = x :: l → s.trigLive r = true → s.tgFrameDue r = true →
    (s.stream (trigSid r)).markers = [] → (s.tgLost r).1 = 0 →
    ∃ t, exec (.tgFrameClose r) s = .next t ∧ t.tgQueue r = (s.tgQueue r).drop 512 ∧
      (t.out.drop s.out.length).map Emission.brief = [some (trigSid r, (s.stream (trigSid r)).seq, x.time, 0x0900)]) ∧
  (∀ (s : State) (r : Fin 5), s.on (TG_QCTL_ROUTE (tgWin r)) = false → exec (.tgFrameClose r) s = .next s)

/-- Event channels (R76 to R79, R89, R90, R96, R97). The EDGE bits of a pair of an empty gate and of a STUCK entry are the model's
choice (assumptions 34, 35). -/
def Obligations.EventChannelsStamp : Prop :=
  (∀ (s : State) (p : Fin 5) (c : Fin 32) (v : Word), s.mayWrite p (ST_ET_CTL c) = true → bits v.toNat 11 10 ≠ 3 →
    bits v.toNat 9 8 ≠ 3 → s.dutyDead (ST_ET_CTL c) = false →
    ∃ t, exec (.etCtlWrite p c v) s = .next t ∧ t.get (ST_ET_CTL_MODE c) = bits v.toNat 9 8 ∧
      t.get (ST_ET_CTL_SLOPE c) = bits v.toNat 11 10 ∧ t.get (ST_ET_CTL_ENABLE c) = bits v.toNat 0 0 ∧
      t.get (ST_ET_CTL_REASON c) = 0 ∧ (t.etc c).queue = (s.etc c).queue ∧ (t.etc c).blind = (s.etc c).blind) ∧
  (∀ (s : State) (p : Fin 5) (c : Fin 32) (v : Word), s.mayWrite p (ST_ET_CTL c) = true →
    bits v.toNat 11 10 = 3 ∨ bits v.toNat 9 8 = 3 →
    ∃ t, exec (.etCtlWrite p c v) s = .next t ∧ t.get (ST_ET_CTL_REASON c) = 0x0120 ∧
      t.get (ST_ET_CTL_MODE c) = s.get (ST_ET_CTL_MODE c) ∧ t.get (ST_ET_CTL_SLOPE c) = s.get (ST_ET_CTL_SLOPE c) ∧
      t.get (ST_ET_CTL_ENABLE c) = s.get (ST_ET_CTL_ENABLE c) ∧ t.et = s.et ∧ t.get (REGION_REFUSAL_REASON 1 p) = 0x0120) ∧
  (∀ (s : State) (c : Fin 32) (v : Int) (t0 : DevTime) (b : Fin 64), c.val < 16 →
    ∃ t, exec (.etEdge c v t0 b) s = .next t ∧
      (500 * s.getS (ST_ET_THRESH_LEVEL c) + 1000 * (s.get (ST_ET_THRESH_HYST c) : Int) < v → (t.etc c).high = true) ∧
      (v < 500 * s.getS (ST_ET_THRESH_LEVEL c) - 1000 * (s.get (ST_ET_THRESH_HYST c) : Int) → (t.etc c).high = false) ∧
      (500 * s.getS (ST_ET_THRESH_LEVEL c) - 1000 * (s.get (ST_ET_THRESH_HYST c) : Int) ≤ v →
        v ≤ 500 * s.getS (ST_ET_THRESH_LEVEL c) + 1000 * (s.get (ST_ET_THRESH_HYST c) : Int) → t = s)) ∧
  (∀ (s : State) (c : Fin 32) (v : Int) (f : Bool) (t0 : DevTime) (b : Fin 64), (s.etLevel c v).2 = !f → (s.etc c).high = f →
    s.etRuns c = true → s.etSelected c f = true → (s.etc c).blind = none → s.get (ST_ET_CTL_MODE c) = 1 →
    (match (s.etc c).lastEdge with | some p => deadOver p (s.etStamp c t0 b) | none => true) = true → (s.etc c).since = 0 →
    s.on (ST_ET_CTL_STAMP_OUT c) = true → (s.etc c).queue.length < 4096 → (s.etc c).lost = 0 →
    ∃ t, exec (.etEdge c v t0 b) s = .next t ∧
      (t.etc c).queue = (s.etc c).queue ++ [⟨s.etStamp c t0 b, 0, etFlags f (s.coastAt (s.etStamp c t0 b)) false false false, 0⟩] ∧
      (t.etc c).lastEdge = some (s.etStamp c t0 b) ∧ (t.etc c).high = !f ∧
      t.pair (ST_ET_EDGES_LO c) (ST_ET_EDGES_HI c) = (s.pair (ST_ET_EDGES_LO c) (ST_ET_EDGES_HI c) + 1) % 2 ^ 64 ∧
      t.get (ST_ET_QLEVEL_LEVEL c) = (s.etc c).queue.length + 1) ∧
  (∀ (s : State) (c : Fin 32) (v : Int) (f : Bool) (t0 e : DevTime) (b : Fin 64), (s.etLevel c v).2 = !f → (s.etc c).high = f →
    s.etRuns c = true → s.etSelected c f = true → (s.etc c).blind = none → s.get (ST_ET_CTL_MODE c) = 1 →
    (s.etc c).lastEdge = some e → deadOver e (s.etStamp c t0 b) = false →
    ∃ t, exec (.etEdge c v t0 b) s = .next t ∧ (t.etc c).queue = (s.etc c).queue ∧ (t.etc c).since = (s.etc c).since + 1 ∧
      (t.etc c).lastEdge = some (s.etStamp c t0 b) ∧
      t.pair (ST_ET_EDGES_LO c) (ST_ET_EDGES_HI c) = (s.pair (ST_ET_EDGES_LO c) (ST_ET_EDGES_HI c) + 1) % 2 ^ 64 ∧
      t.val (ST_ET_SUPPRESSED c) = (s.val (ST_ET_SUPPRESSED c) + 1) % 2 ^ 32) ∧
  (∀ (s : State) (c : Fin 32) (v : Int) (f : Bool) (t0 : DevTime) (b : Fin 64), (s.etLevel c v).2 = !f → (s.etc c).high = f →
    s.etSelected c f = false →
    ∃ t, exec (.etEdge c v t0 b) s = .next t ∧ (t.etc c).queue = (s.etc c).queue ∧ (t.etc c).high = !f ∧
      t.pair (ST_ET_EDGES_LO c) (ST_ET_EDGES_HI c) = s.pair (ST_ET_EDGES_LO c) (ST_ET_EDGES_HI c)) ∧
  (∀ (s : State) (c : Fin 32) (v : Int) (f : Bool) (t0 : DevTime) (b : Fin 64) (g : EtGate), (s.etLevel c v).2 = !f →
    (s.etc c).high = f → s.etRuns c = true → s.etSelected c f = true → (s.etc c).blind = none → s.get (ST_ET_CTL_MODE c) = 2 →
    (s.etc c).begun = true → s.etPassed c (s.etStamp c t0 b) = 0 → 1 ≤ (s.etc c).inGate → (s.etc c).gate = some g →
    ∃ t, exec (.etEdge c v t0 b) s = .next t ∧ (t.etc c).queue = (s.etc c).queue ∧ (t.etc c).inGate = (s.etc c).inGate + 1 ∧
      (t.etc c).gate = some ⟨g.first, g.falling, g.n + 1, g.coast || s.coastAt (s.etStamp c t0 b)⟩) ∧
  (∀ (s : State) (c : Fin 32) (v : Int) (f : Bool) (t0 : DevTime) (b : Fin 64) (g : EtGate) (q : Nat), (s.etLevel c v).2 = !f →
    (s.etc c).high = f → s.etRuns c = true → s.etSelected c f = true → (s.etc c).blind = none → s.get (ST_ET_CTL_MODE c) = 2 →
    (s.etc c).begun = true → (s.etc c).bound = some q → s.etPassed c (s.etStamp c t0 b) = 1 → 2 ≤ (s.etc c).inGate →
    (s.etc c).gate = some g → s.on (ST_ET_CTL_STAMP_OUT c) = true → (s.etc c).queue.length < 4095 → (s.etc c).lost = 0 →
    ∃ t, exec (.freqGateBoundary c v t0 b) s = .next t ∧
      (t.etc c).queue = (s.etc c).queue ++
        [⟨g.first, 2, etFlags g.falling (g.coast || s.coastAt (s.etStamp c t0 b)) false false false, (g.n + 1) % 2 ^ 32⟩,
         ⟨s.etStamp c t0 b, 3, etFlags f (g.coast || s.coastAt (s.etStamp c t0 b)) false false false, (g.n + 1) / 2 ^ 32⟩] ∧
      (t.etc c).gate = some ⟨s.etStamp c t0 b, f, 0, s.coastAt (s.etStamp c t0 b)⟩ ∧ (t.etc c).inGate = 1 ∧
      (t.etc c).bound = some (q + max 1 (s.val (ST_ET_GATE c)))) ∧
  (∀ (s : State) (c : Fin 32) (v : Int) (t0 : DevTime) (b : Fin 64) (q : Nat), (s.etc c).bound = some q →
    tLe (usTime q) (s.etStamp c t0 b) = false → exec (.freqGateBoundary c v t0 b) s = .next s) ∧
  (∀ (s : State) (c : Fin 32) (q : Nat), s.etRuns c = true → s.get (ST_ET_CTL_MODE c) = 2 → (s.etc c).bound = some q →
    tLe (usTime q) s.now = true → (s.etc c).begun = true → (s.etc c).inGate < 2 → s.on (ST_ET_CTL_STAMP_OUT c) = true →
    (s.etc c).queue.length < 4095 → (s.etc c).lost = 0 →
    ∃ t, exec (.freqGateEmptyEnd c) s = .next t ∧ (t.etc c).queue = (s.etc c).queue ++
        [⟨usTime q, 2, etFlags false (s.coastAt (usTime q)) false false false, 0⟩,
         ⟨usTime q, 3, etFlags false (s.coastAt (usTime q)) false false false, 0⟩] ∧
      (t.etc c).bound = some (q + max 1 (s.val (ST_ET_GATE c))) ∧ (t.etc c).inGate = 0) ∧
  (∀ (s : State) (c : Fin 32), s.etRuns c = true → s.val (ST_ET_STUCK c) ≠ 0 → s.etActive c (s.etc c).high = true →
    (s.etc c).stuck = false → tLe (tAdd (s.etc c).levelFrom (nsTicks (100 * s.val (ST_ET_STUCK c)))) s.now = true →
    (s.etc c).queue.length < 4096 → (s.etc c).lost = 0 →
    ∃ t, exec (.etStuckTimeout c) s = .next t ∧ (t.etc c).stuck = true ∧ (t.etc c).queue = (s.etc c).queue ++
      [⟨tAdd (s.etc c).levelFrom (nsTicks (100 * s.val (ST_ET_STUCK c))), 4, etFlags (!(s.etc c).high)
        (s.coastAt (tAdd (s.etc c).levelFrom (nsTicks (100 * s.val (ST_ET_STUCK c))))) false false false, 0⟩]) ∧
  (∀ (s : State) (c : Fin 32), s.val (ST_ET_STUCK c) = 0 → exec (.etStuckTimeout c) s = .next s)

/-- Intervals and queues of the event timers (R82 to R88, R92 to R94, R99). -/
def Obligations.EventQueuesAndIntervals : Prop :=
  (∀ (s : State) (p : Fin 5) (k : Fin 16) (v : Word), s.mayWrite p (ST_IV_CTL k) = true → s.on (ST_IV_CTL_ENABLE k) = false →
    bits v.toNat 0 0 = 1 → s.dutyDead (ST_IV_CTL k) = false → (s.plainWrite (ST_IV_CTL k) (v.toNat / 2 * 2)).ivCheck k = 0 →
    ∃ t, exec (.ivEnable p k v) s = .next t ∧ t.on (ST_IV_CTL_ENABLE k) = true ∧ t.get (ST_IV_CTL_REASON k) = 0 ∧
      (t.iv k).starts = [] ∧ (t.iv k).stops = [] ∧ (∀ a, a ≠ ST_IV_CTL k → t.reg a = s.reg a)) ∧
  (∀ (s : State) (p : Fin 5) (k : Fin 16) (v : Word), s.mayWrite p (ST_IV_CTL k) = true → s.on (ST_IV_CTL_ENABLE k) = false →
    bits v.toNat 0 0 = 1 → s.dutyDead (ST_IV_CTL k) = false → (s.plainWrite (ST_IV_CTL k) (v.toNat / 2 * 2)).ivCheck k ≠ 0 →
    ∃ t, exec (.ivEnable p k v) s = .next t ∧ t.on (ST_IV_CTL_ENABLE k) = false ∧ t.et = s.et ∧
      t.get (ST_IV_CTL_REASON k) = (s.plainWrite (ST_IV_CTL k) (v.toNat / 2 * 2)).ivCheck k % 65536) ∧
  (∀ (s : State) (k : Fin 16) (a : DevTime), (s.iv k).starts = [a] → (s.iv k).stops = [] → s.on (ST_IV_CTL_ENABLE k) = true →
    tLt s.now (tAdd a (nsTicks (s.val (ST_IV_WINDOW k)))) = false → (s.etc (s.get (ST_IV_CTL_START_CH k))).queue.length < 4096 →
    (s.etc (s.get (ST_IV_CTL_START_CH k))).lost = 0 →
    ∃ t, exec (.ivWindowExpire k) s = .next t ∧ (t.iv k).starts = [] ∧
      (t.etc (s.get (ST_IV_CTL_START_CH k))).queue = (s.etc (s.get (ST_IV_CTL_START_CH k))).queue ++
        [⟨a, 1, etFlags (s.on (ST_IV_CTL_START_EDGE k)) (s.coastAt a) false false true, 0⟩]) ∧
  (∀ (s : State) (k : Fin 16) (a b : DevTime), (s.iv k).starts = [a] → (s.iv k).stops = [b] → s.on (ST_IV_CTL_ENABLE k) = true →
    tLt s.now (tAdd a (nsTicks (s.val (ST_IV_WINDOW k)))) = false → (tDiff b a).natAbs ≤ nsTicks (s.val (ST_IV_WINDOW k)) →
    withinBin a b = false → (s.etc (s.get (ST_IV_CTL_START_CH k))).queue.length < 4096 →
    (s.etc (s.get (ST_IV_CTL_START_CH k))).lost = 0 →
    ∃ t, exec (.ivWindowExpire k) s = .next t ∧ (t.iv k).starts = [] ∧ (t.iv k).stops = [] ∧
      (t.etc (s.get (ST_IV_CTL_START_CH k))).queue = (s.etc (s.get (ST_IV_CTL_START_CH k))).queue ++
        [⟨a, 1, etFlags (s.on (ST_IV_CTL_START_EDGE k)) (s.coastAt a || s.coastAt b) false (decide (binsBetween a b < 0)) false,
          unsign 32 (binsBetween a b)⟩]) ∧
  (∀ (s : State) (p : Fin 5) (c : Fin 32) (e : EtEntry) (l : List EtEntry), s.mayRead p (ST_ET_QW c 0) = true →
    (s.etc c).queue = e :: l → s.on (ST_ET_CTL_ROUTE c) = false →
    ∃ t, exec (.etQw0Read p c) s = .next t ∧ t.regs = s.regs ∧ (t.etc c).queue = e :: l ∧
      t.out = s.out ++ [.answer p (ST_ET_QW c 0) (BitVec.ofNat 32 (fromLe ((etBytes c e).take 4))) 0] ∧
      (∀ k : Fin 4, t.etSlotWord p c k = BitVec.ofNat 32 (fromLe (((etBytes c e).drop (4 * k)).take 4)))) ∧
  (∀ (s : State) (p : Fin 5) (c : Fin 32) (e : EtEntry) (l : List EtEntry), s.mayRead p (ST_ET_QW c 3) = true →
    (s.etc c).queue = e :: l → s.on (ST_ET_CTL_ROUTE c) = false →
    kvGetD s.et.latch (32 * p + c) none = some (e, (s.etc c).popped) →
    ∃ t, exec (.etQw3Read p c) s = .next t ∧ (t.etc c).queue = l ∧ (t.etc c).popped = (s.etc c).popped + 1 ∧
      t.out = s.out ++ [.answer p (ST_ET_QW c 3) (BitVec.ofNat 32 (fromLe (((etBytes c e).drop 12).take 4))) 0]) ∧
  (∀ (s : State) (k : Fin 16) (a b : DevTime), (s.iv k).starts = [a] → (s.iv k).stops = [b] → s.on (ST_IV_CTL_ENABLE k) = true →
    tLt s.now (tAdd a (nsTicks (s.val (ST_IV_WINDOW k)))) = false → (tDiff b a).natAbs ≤ nsTicks (s.val (ST_IV_WINDOW k)) →
    withinBin a b = true → (s.etc (s.get (ST_IV_CTL_START_CH k))).queue.length < 4096 →
    (s.etc (s.get (ST_IV_CTL_START_CH k))).lost = 0 →
    ∃ t, exec (.ivWindowExpire k) s = .next t ∧ (t.iv k).starts = [] ∧ (t.iv k).stops = [] ∧
      (t.etc (s.get (ST_IV_CTL_START_CH k))).queue = (s.etc (s.get (ST_IV_CTL_START_CH k))).queue ++
        [⟨a, 1, etFlags (s.on (ST_IV_CTL_START_EDGE k)) (s.coastAt a || s.coastAt b) true false false, 0⟩]) ∧
  (∀ (s : State) (c : Fin 32), (s.etc c).lost ≠ 0 → (s.etc c).queue.length < 4096 →
    ∃ t, exec (.etQueueSpaceReturn c) s = .next t ∧ (t.etc c).lost = 0 ∧
      (t.etc c).queue = (s.etc c).queue ++ [⟨(s.etc c).lastTime, 5, 130, min (s.etc c).lost 0xFFFFFFFF⟩] ∧ t.out = s.out) ∧
  (∀ (s : State) (c : Fin 32), (s.etc c).lost = 0 → exec (.etQueueSpaceReturn c) s = .next s) ∧
  (∀ (s : State) (c : Fin 32) (e : EtEntry), s.evntOpen c = true → s.etFrameDue c = true →
    (s.stream (evntSid c)).markers = [] → (s.etc c).queue = [e] → e.kind = 0 → (s.etc c).lost = 0 → (s.etc c).markers = [] →
    ∃ t, exec (.etFrameClose c) s = .next t ∧ (t.etc c).queue = [] ∧
      (t.out.drop s.out.length).map Emission.brief = [some (evntSid c, (s.stream (evntSid c)).seq, e.time, 0x0900)]) ∧
  (∀ (s : State) (c : Fin 32) (e : EtEntry), s.evntOpen c = true → (s.etc c).queue = [e] → e.kind = 5 → (s.etc c).lost = 0 →
    ∃ t, exec (.etFrameClose c) s = .next t ∧ (t.etc c).queue = [] ∧
      t.out = s.out ++ [.gap ⟨evntSid c, e.time, BitVec.ofNat 48 e.value, BitVec.ofNat 16 (etCause (e.flags % 16)), false⟩]) ∧
  (∀ (s : State) (c : Fin 32) (q : DevTime × Nat), s.etRuns c = true → (s.etc c).blind = some q → tLt s.now q.1 = false →
    (s.etc c).queue.length < 4096 → (s.etc c).lost = 0 →
    ∃ t, exec (.etBlindEnd c) s = .next t ∧ (t.etc c).blind = none ∧
      (t.etc c).queue = (s.etc c).queue ++ [⟨q.1, 5, 131, min q.2 0xFFFFFFFF⟩])

/-- Rings and offered triggers (R269 to R276). -/
def Obligations.RingsHoldAndGroupsAccept : Prop :=
  (∀ (s : State) (p : Fin 5) (n : Fin 16) (v : Word), s.mayWrite p (QU_VR_CTL n) = true → s.on (QU_VR_CTL_ENABLE n) = false →
    bits v.toNat 0 0 = 1 → s.dutyDead (QU_VR_CTL n) = false → (s.plainWrite (QU_VR_CTL n) (v.toNat / 2 * 2)).ringCheck n = 0 →
    ∃ t, exec (.quVrEnable p n v) s = .next t ∧ t.on (QU_VR_CTL_ENABLE n) = true ∧ t.get (QU_VR_CTL_REASON n) = 0 ∧
      t.ring n = { len := ringLen (s.get (QU_VR_SIZE_SIZE n)) (s.raw8 n) } ∧ t.on (QU_VR_STATUS_WIDTH n) = s.raw8 n ∧
      t.on (QU_VR_STATUS_RUNNING n) = s.inputRuns n ∧ t.cmem = s.cmem) ∧
  (∀ (s : State) (p : Fin 5) (n : Fin 16) (v : Word), s.mayWrite p (QU_VR_CTL n) = true → s.on (QU_VR_CTL_ENABLE n) = false →
    bits v.toNat 0 0 = 1 → s.dutyDead (QU_VR_CTL n) = false → (s.plainWrite (QU_VR_CTL n) (v.toNat / 2 * 2)).ringCheck n ≠ 0 →
    ∃ t, exec (.quVrEnable p n v) s = .next t ∧ t.on (QU_VR_CTL_ENABLE n) = false ∧ t.cm = s.cm ∧ t.qu = s.qu ∧
      t.get (QU_VR_CTL_REASON n) = (s.plainWrite (QU_VR_CTL n) (v.toNat / 2 * 2)).ringCheck n % 65536) ∧
  (∀ (s : State) (n : Fin 16) (q : RingRun), (s.ring n).runs.getLast? = some q → (s.ring n).log.length < 256 →
    ∃ t, exec (.quRingWriteLoss n) s = .next t ∧ (t.ring n).runs = (s.ring n).runs.dropLast ∧
      (t.ring n).log = (s.ring n).log ++ [⟨q.first, q.first + q.vals.length, 1⟩] ∧
      t.val (QU_VR_LOST n) = (s.val (QU_VR_LOST n) + q.vals.length) % 2 ^ 32 ∧
      (∀ a, a ≠ QU_VR_LOST n → t.reg a = s.reg a) ∧ t.out = s.out) ∧
  (∀ (s : State) (n : Fin 16), (s.ring n).runs = [] → exec (.quRingWriteLoss n) s = .next s) ∧
  (∀ (s : State) (g : Fin 64) (x : TrigRec), s.on (QU_G_CTL_ENABLE g) = true → x.unit < 16 →
    bits (s.get (QU_G_TRIG_UNITS x.region g)) x.unit x.unit = 1 → (s.group g).last = none → (s.group g).quires = [] →
    ∃ t, exec (.quTriggerOffer g x) s = .next t ∧
      (t.group g).quires.map (fun q => (q.num, q.first, q.trig, q.began)) =
        [(s.pair (QU_G_NEXT_LO g) (QU_G_NEXT_HI g),
          instAt (s.fsHz ((s.quInputs g).headD 0)) x.time - s.quPre g, trigBytes x, none)] ∧
      t.pair (QU_G_NEXT_LO g) (QU_G_NEXT_HI g) = (s.pair (QU_G_NEXT_LO g) (QU_G_NEXT_HI g) + 1) % 2 ^ 56 ∧
      t.get (QU_G_STATUS_COPYING g) = 1 ∧ t.out = s.out) ∧
  (∀ (s : State) (g : Fin 64) (x : TrigRec) (k : Nat) (f : Int), s.on (QU_G_CTL_ENABLE g) = true →
    bits (s.get (QU_G_TRIG_UNITS x.region g)) x.unit x.unit = 1 → s.on (QU_G_CTL_RETRIG g) = false →
    (s.group g).last = some (k, f) → f < instAt (s.fsHz ((s.quInputs g).headD 0)) x.time - s.quPre g + s.quLen g →
    instAt (s.fsHz ((s.quInputs g).headD 0)) x.time - s.quPre g < f + s.quLen g →
    ∃ t, exec (.quTriggerOffer g x) s = .next t ∧ t.val (QU_G_IGNORED g) = (s.val (QU_G_IGNORED g) + 1) % 2 ^ 32 ∧
      (t.group g).quires.length = (s.group g).quires.length ∧ (∀ a, a ≠ QU_G_IGNORED g → t.reg a = s.reg a) ∧ t.out = s.out) ∧
  (∀ (s : State) (g : Fin 64) (x : TrigRec), s.on (QU_G_CTL_ENABLE g) = true →
    bits (s.get (QU_G_TRIG_UNITS x.region g)) x.unit x.unit = 1 → s.on (QU_G_CTL_RETRIG g) = true →
    16 ≤ (s.group g).quires.length → s.on (QU_G_CTL_KEEP g) = false → s.stoppedAll = false →
    ∃ t, exec (.quTriggerOffer g x) s = .next t ∧ t.val (QU_G_REFUSED g) = (s.val (QU_G_REFUSED g) + 1) % 2 ^ 32 ∧
      (t.group g).quires = (s.group g).quires ∧ t.out = s.out ++ [.gap ⟨sid 10 g, s.now, 1, 1, false⟩])

/-- Quires (R277, R284 to R293). -/
def Obligations.QuiresCloseAndLeave : Prop :=
  (∀ (s : State) (g : Fin 64) (q : Quire) (l : List Quire), s.gated 11 = false → s.lost 11 = false →
    s.on CM_STATUS_LOST = false → (s.group g).quires = q :: l → q.began = none → s.slotFree g q.num = true →
    (∀ k ∈ List.range 128, s.chanLost k = false) →
    ∃ t, exec (.quCopyStart g) s = .next t ∧
      (t.group g).quires = { q with began := some s.now, credit := q.cost, data := q.ins.map fun _ => [] } :: l ∧
      memBytes t.cmem (q.colo) 8 = leBytes 8 (q.num % 2 ^ 56 + 2 ^ 56) ∧
      (∀ a, a < q.colo ∨ q.colo + 8 ≤ a → memByte t.cmem a = memByte s.cmem a) ∧
      t.regs = s.regs ∧ t.out = s.out) ∧
  (∀ (s : State) (g : Fin 64) (q : Quire) (l : List Quire), (s.group g).quires = q :: l → q.began = none →
    s.slotFree g q.num = false → exec (.quCopyStart g) s = .next s) ∧
  (∀ (s : State) (g : Fin 64) (q : Quire) (l : List Quire), s.gated 11 = false → s.lost 11 = false →
    s.on CM_STATUS_LOST = false → (s.group g).quires = q :: l → q.began.isSome = true → q.done = q.len → q.num < 2 ^ 56 → (∀ k ∈ List.range 128, s.chanLost k = false) →
    ∃ t, exec (.quQuireClose g) s = .next t ∧ (t.group g).quires = l ∧ (t.group g).closed = some q.num ∧
      t.pair (QU_G_CLOSED_LO g) (QU_G_CLOSED_HI g) = q.num ∧
      memBytes t.cmem (q.colo) 8 = leBytes 8 (closedSeq q.num) ∧ t.out = s.out ∧
      (t.group g).exports.length = (s.group g).exports.length + if s.on (QU_G_CTL_EXPORT g) then 1 else 0) ∧
  (∀ (s : State) (g : Fin 64) (q : Quire) (l : List Quire), (s.group g).quires = q :: l → q.began = none →
    exec (.quQuireClose g) s = .next s) ∧
  (∀ (s : State) (p : Fin 5) (g : Fin 64) (v : Word) (c : Nat), s.mayWrite p (QU_G_RELEASE_HI g) = true →
    (s.group g).closed = some c → (s.group g).relLo.toNat + 2 ^ 32 * v.toNat ≤ c → c < 2 ^ 64 - 1 →
    (∀ x, (s.group g).released = some x → x ≤ (s.group g).relLo.toNat + 2 ^ 32 * v.toNat) →
    ∃ t, exec (.quRelease p g v) s = .next t ∧ (t.group g).released = some ((s.group g).relLo.toNat + 2 ^ 32 * v.toNat) ∧
      t.val (QU_G_RELEASE_LO g) = (s.group g).relLo.toNat ∧ t.reg (QU_G_RELEASE_HI g) = v ∧ t.get (QU_G_CTL_REASON g) = 0 ∧
      (t.group g).quires = (s.group g).quires) ∧
  (∀ (s : State) (p : Fin 5) (g : Fin 64) (v : Word) (c : Nat), s.mayWrite p (QU_G_RELEASE_HI g) = true →
    (s.group g).closed = some c → c < (s.group g).relLo.toNat + 2 ^ 32 * v.toNat →
    ∃ t, exec (.quRelease p g v) s = .next t ∧ t.get (QU_G_CTL_REASON g) = 0x0580 ∧ t.qu = s.qu) ∧
  (∀ (s : State) (g : Fin 64) (e : QExport) (l : List QExport), s.gated 11 = false → s.lost 11 = false →
    s.on CM_STATUS_LOST = false → (s.group g).exports = e :: l → e.slice < ceilDiv e.quire.len sliceMax * e.quire.ins.length → (s.stream (sid 9 g)).full = false →
    (s.stream (sid 9 g)).lost = 0 →
    ∃ t, exec (.quExportSlice g) s = .next t ∧ (t.group g).exports = { e with slice := e.slice + 1 } :: l ∧
      t.out.length = s.out.length + 1 ∧ t.exitSeqOf .direct 0 (sid 9 g) = s.exitSeqOf .direct 0 (sid 9 g) + 1 ∧
      t.regs = s.regs) ∧
  (∀ (s : State) (g : Fin 64) (e : QExport) (l : List QExport), s.gated 11 = false → s.lost 11 = false →
    s.on CM_STATUS_LOST = false → (s.group g).exports = e :: l → ceilDiv e.quire.len sliceMax * e.quire.ins.length ≤ e.slice → (s.stream (sid 10 g)).full = false →
    (s.stream (sid 10 g)).lost = 0 → e.lost = 0 →
    ∃ t, exec (.quExportSlice g) s = .next t ∧ (t.group g).exports = l ∧ t.out.length = s.out.length + 1 ∧
      t.exitSeqOf .direct 0 (sid 10 g) = s.exitSeqOf .direct 0 (sid 10 g) + 1 ∧ t.regs = s.regs) ∧
  (∀ (s : State) (p : Fin 5) (g : Fin 64) (v : Word), s.mayWrite p (QU_G_CTL g) = true → s.on (QU_G_CTL_ENABLE g) = false →
    bits v.toNat 0 0 = 1 → s.dutyDead (QU_G_CTL g) = false → (s.plainWrite (QU_G_CTL g) (v.toNat / 2 * 2)).groupCheck g = 0 →
    s.stoppedAll = false →
    ∃ t, exec (.quGroupEnable p g v) s = .next t ∧ t.on (QU_G_CTL_ENABLE g) = true ∧ t.get (QU_G_CTL_REASON g) = 0 ∧
      t.pair (QU_G_NEXT_LO g) (QU_G_NEXT_HI g) = 0 ∧ t.pair (QU_G_CLOSED_LO g) (QU_G_CLOSED_HI g) = 2 ^ 64 - 1 ∧
      t.group g = { exports := (s.group g).exports } ∧ (t.stream (sid 10 g)).opened = true ∧ t.val (QU_G_STATUS g) = 1 ∧ t.cmem = s.cmem) ∧
  (∀ (s : State) (p : Fin 5) (g : Fin 64), s.mayWrite p (QU_G_CTL g) = true → s.on (QU_G_CTL_ENABLE g) = true →
    (s.group g).quires = [] →
    ∃ t, exec (.quGroupDisable p g) s = .next t ∧ t.on (QU_G_CTL_ENABLE g) = false ∧ t.val (QU_G_STATUS g) = 0 ∧
      (t.group g).exports = (s.group g).exports ∧ t.cmem = s.cmem ∧ t.out = s.out)

/-- Cross-spectra (R295 to R303, R321). -/
def Obligations.CrossSpectraAlignAndDump : Prop :=
  (∀ (s : State) (p : Fin 5) (v : Word), s.mayWrite p CE_XS_CTL = true → s.on CE_XS_CTL_ENABLE = false →
    bits v.toNat 0 0 = 1 → s.dutyDead CE_XS_CTL = false → (s.plainWrite CE_XS_CTL (v.toNat / 2 * 2)).xsCheck = 0 → s.stoppedAll = false →
    ∃ t, exec (.ceXsEnable p v) s = .next t ∧ t.on CE_XS_CTL_ENABLE = true ∧ t.on CE_XS_STATUS_RUNNING = true ∧
      t.get CE_XS_CTL_REASON = 0 ∧ t.ce.times = [] ∧ (∀ k ∈ s.pairsOn, (t.stream (xspcSid k)).opened = true) ∧ t.out = s.out) ∧
  (∀ (s : State) (p : Fin 5) (v : Word), s.mayWrite p CE_XS_CTL = true → s.on CE_XS_CTL_ENABLE = false →
    bits v.toNat 0 0 = 1 → s.dutyDead CE_XS_CTL = false → (s.plainWrite CE_XS_CTL (v.toNat / 2 * 2)).xsCheck ≠ 0 →
    ∃ t, exec (.ceXsEnable p v) s = .next t ∧ t.on CE_XS_CTL_ENABLE = false ∧ t.ce = s.ce ∧ t.flow = s.flow ∧
      t.get CE_XS_CTL_REASON = (s.plainWrite CE_XS_CTL (v.toNat / 2 * 2)).xsCheck % 65536) ∧
  (∀ (s : State) (x : Fin 32) (d : CeSpec), s.gated 10 = false → s.lost 10 = false → kvGetD s.ce.inq x [] = [.spec d (s.heldEpoch 10 (sid 2 x)) []] →
    d.x = x.val → s.ceOn x = true → s.flow.requests.all (fun q => q.stage != .cb) = true → s.on CE_XS_STATUS_RUNNING = true →
    x.val ∈ s.xsNamed → timeDone s.ce.done d.time = false → s.ce.times = [] → (∀ b ∈ List.range 32, s.on (CE_BM_CTL_ENABLE b) = false) →
    s.xsNamed.any (fun y => decide (y ≠ x.val) && (s.xsRemote || !(s.cePast y d.time))) = true →
    ∃ t, exec (.ceSpectrumArrive x none) s = .next t ∧ t.ce.times = [⟨d.time, s.now, [d], false⟩] ∧
      kvGet t.ce.seen x = some d.time ∧ kvGetD t.ce.inq x [] = [] ∧ t.regs = s.regs ∧ t.out = s.out) ∧
  (∀ (s : State) (x : Fin 32) (d : CeSpec), s.gated 10 = false → s.lost 10 = false → kvGetD s.ce.inq x [] = [.spec d (s.heldEpoch 10 (sid 2 x)) []] →
    d.x = x.val → x.val < 16 → s.ceOn x = true → s.flow.requests.all (fun q => q.stage != .cb) = true →
    s.on CE_XS_STATUS_RUNNING = true → x.val ∈ s.xsNamed → d.time ∈ s.ce.done →
    (∀ b ∈ List.range 32, s.on (CE_BM_CTL_ENABLE b) = false) →
    ∃ t, exec (.ceSpectrumArrive x none) s = .next t ∧ t.on CE_XS_STATUS_LATE = true ∧ t.ce.times = s.ce.times ∧
      (∀ a, a ≠ CE_XS_STATUS → t.reg a = s.reg a) ∧ t.out = s.out) ∧
  (∀ (s : State) (x : Fin 32) (d : CeSpec) (e : Byte), s.gated 10 = false → s.lost 10 = false → kvGetD s.ce.inq x [] = [.spec d e []] →
    s.heldEpoch 10 (sid 2 x) ≠ e →
    ∃ t, exec (.ceSpectrumArrive x none) s = .next t ∧ t.ce.times = s.ce.times ∧ t.ce.pairs = s.ce.pairs ∧
      t.ce.beams = s.ce.beams ∧ kvGet t.ce.seen x = kvGet s.ce.seen x ∧ kvGetD t.ce.inq x [] = []) ∧
  (∀ (s : State) (x : Fin 32) (r : YRec), s.gated 10 = false → s.lost 10 = false → 16 ≤ x.val → s.ceOn x = true →
    kvGetD s.ce.inq x [] = [] → r.hive.toNat = s.get (CE_RIN_SRC_HIVE (x - 16)) → r.stream.toNat = s.get (CE_RIN_SRC_STREAM (x - 16)) →
    r.type ≠ 0x0B → r.format.toNat ≠ (chanFormat (s.ceCfg x).bits).1 →
    ∃ t, exec (.ceSpectrumArrive x (some r)) s = .next t ∧ t.ce.times = s.ce.times ∧
      t.val (CE_RIN_DROP (x - 16)) = (s.val (CE_RIN_DROP (x - 16)) + 1) % 2 ^ 32 ∧
      (∀ a, a ≠ CE_RIN_DROP (x - 16) → t.reg a = s.reg a) ∧ t.out = s.out) ∧
  (∀ (s : State) (x : Fin 32) (r : Option YRec), s.ceOn x = false → kvGetD s.ce.inq x [] = [] →
    ∃ t, exec (.ceSpectrumArrive x r) s = .next t ∧ t.ce.times = s.ce.times ∧ t.ce.seen = s.ce.seen ∧ t.regs = s.regs ∧
      t.flow = s.flow ∧ t.out = s.out) ∧
  (∀ (s : State) (g : CeTime), s.gated 10 = false → s.lost 10 = false → s.xsRemote = true → s.ce.times = [g] →
    tLe (tAdd g.first (usTicks (s.get CE_XS_CFG_ALIGN_US))) s.now = true →
    ∃ t, exec .ceAlignTimeout s = .next t ∧ t.ce.times = [] ∧ g.time ∈ t.ce.done) ∧
  (∀ s : State, s.xsRemote = false → exec .ceAlignTimeout s = .next s) ∧
  (∀ (s : State) (k : Nat), s.gated 10 = false → s.lost 10 = false → s.on CE_XS_STATUS_RUNNING = true → s.pairsOn = [k] →
    s.ce.times = [] → (s.cePair k).n ≠ 0 → (s.cePair k).moved = false → (s.cePair k).gap = 0 → (s.cePair k).markers = [] →
    (s.cePair k).dump < s.dumpOf (tAddI s.now (-(usTicks 10 : Int))) → s.pairAccs k ≤ 4096 → s.delivers (xspcSid k) = true →
    (s.stream (xspcSid k)).markers = [] →
    ∃ t, exec .ceDumpTimeout s = .next t ∧ (t.cePair k).dump = s.dumpOf (tAddI s.now (-(usTicks 10 : Int))) ∧
      (t.cePair k).n = 0 ∧ (t.cePair k).acc = [] ∧
      (t.out.drop s.out.length).map Emission.brief = [some (xspcSid k, (s.stream (xspcSid k)).seq, (s.cePair k).time, 0x0701)] ∧
      t.val CE_XS_DONE = (s.val CE_XS_DONE + ((t.cePair k).dump - (s.cePair k).dump)) % 2 ^ 32)

/-- Beams (R306 to R318, R322). -/
def Obligations.BeamsWeighAndSend : Prop :=
  (∀ (s : State) (p : Fin 5) (b : Fin 32) (v : Word), s.mayWrite p (CE_BM_CTL b) = true → s.on (CE_BM_CTL_ENABLE b) = false →
    bits v.toNat 1 0 = 3 → s.dutyDead (CE_BM_CTL b) = false → (s.plainWrite (CE_BM_CTL b) (v.toNat / 2 * 2)).beamCheck b = 0 →
    s.stoppedAll = false →
    ∃ t, exec (.ceBmEnable p b v) s = .next t ∧ t.on (CE_BM_CTL_ENABLE b) = true ∧ t.on (CE_BM_CTL_ROOT b) = true ∧
      t.get (CE_BM_CTL_REASON b) = 0 ∧ t.ceBeam b = { armAt := (s.ceBeam b).armAt } ∧ (t.stream (beamSid b)).opened = true ∧ t.out = s.out) ∧
  (∀ (s : State) (b : Fin 32) (r : YRec) (k : Nat), s.gated 10 = false → s.lost 10 = false →
    kvGetD s.ce.kidq b [] = [] → s.on (CE_BM_CTL_ENABLE b) = true → s.beamChild b r.hive = some k → r.type ≠ 0x0B →
    r.format.toNat = 0x0510 + s.get (CE_BM_RED_PS_FRAC b) → r.payload.length = 8 + 4 * s.beamS b →
    fromLe ((r.payload.drop 7).take 1) = (s.beamCfg b).logC → fromLe ((r.payload.drop 4).take 2) < s.beamSlices b →
    (r.time, fromLe ((r.payload.drop 4).take 2)) ∈ (s.ceBeam b).done →
    ∃ t, exec (.ceChildRecord b r) s = .next t ∧ t.val (CE_BM_LATE b) = (s.val (CE_BM_LATE b) + 1) % 2 ^ 32 ∧ t.ce = s.ce ∧
      (∀ a, a ≠ CE_BM_LATE b → t.reg a = s.reg a) ∧ t.out = s.out) ∧
  (∀ (s : State) (b : Fin 32) (r : YRec) (k : Nat), s.gated 10 = false → s.lost 10 = false →
    kvGetD s.ce.kidq b [] = [] → s.on (CE_BM_CTL_ENABLE b) = true → s.beamChild b r.hive = some k → r.type ≠ 0x0B →
    r.format.toNat = 0x0510 + s.get (CE_BM_RED_PS_FRAC b) → r.payload.length = 8 + 4 * s.beamS b →
    fromLe ((r.payload.drop 7).take 1) = (s.beamCfg b).logC → fromLe ((r.payload.drop 4).take 2) < s.beamSlices b →
    (s.ceBeam b).slotDone r.time (fromLe ((r.payload.drop 4).take 2)) = false → (s.ceBeam b).slots = [] →
    (s.beamInputs b).all (fun i => s.cePast i r.time) = false →
    ∃ t, exec (.ceChildRecord b r) s = .next t ∧ (t.ceBeam b).slots.map (fun x => (x.time, x.slice, x.first, x.ownDone)) =
        [(r.time, fromLe ((r.payload.drop 4).take 2), s.now, false)] ∧
      (∀ x ∈ (t.ceBeam b).slots, (kvGet x.kids k).isSome = true) ∧ t.regs = s.regs ∧ t.out = s.out) ∧
  (∀ (s : State) (b : Fin 32) (r : YRec) (k : Nat), s.gated 10 = false → s.lost 10 = false →
    kvGetD s.ce.kidq b [] = [] → s.on (CE_BM_CTL_ENABLE b) = true → s.beamChild b r.hive = some k → r.type ≠ 0x0B →
    r.format.toNat ≠ 0x0510 + s.get (CE_BM_RED_PS_FRAC b) →
    ∃ t, exec (.ceChildRecord b r) s = .next t ∧ t.val (CE_BM_LATE b) = (s.val (CE_BM_LATE b) + 1) % 2 ^ 32 ∧ t.ce = s.ce) ∧
  (∀ (s : State) (b : Fin 32) (x : CeSlot) (q : CePart), s.gated 10 = false → s.lost 10 = false → (s.ceBeam b).slots = [x] → x.own = some q → x.kids = [] →
    (s.ceBeam b).lastJ = none → tLe (tAdd x.first (usTicks (s.get (CE_BM_RED_ALIGN_US b)))) s.now = true →
    s.on (CE_BM_CTL_ROOT b) = true → s.delivers (beamSid b) = true → (s.stream (beamSid b)).markers = [] →
    (s.ceBeam b).markers = [] →
    ∃ t, exec (.ceSlotDeadline b) s = .next t ∧ (t.ceBeam b).slots = [] ∧ (x.time, x.slice) ∈ (t.ceBeam b).done ∧
      (t.out.drop s.out.length).map Emission.brief =
        [some (beamSid b, (s.stream (beamSid b)).seq, x.time, (beamFormat (s.get (CE_BM_RED_OUT_BITS b))).2)] ∧
      (t.ceBeam b).lastJ = some (x.j, x.time)) ∧
  (∀ (s : State) (p : Fin 5) (b : Fin 32) (v : Word), s.mayWrite p (CE_BM_MK_CTL b) = true → bits v.toNat 0 0 = 1 →
    s.on (CE_BM_CTL_ENABLE b) = true → s.on (CE_BM_MK_CTL_PENDING b) = false → (s.ceBeam b).armAt = none →
    tLt (atSecFrac (s.val (CE_BM_MK_SEC b)) (s.val (CE_BM_MK_FRAC b))) s.now = false →
    tLt (atSecFrac (s.val (CE_BM_MK_SEC b)) (s.val (CE_BM_MK_FRAC b))) (tAdd s.now (usTicks 100)) = false →
    s.flow.requests.any (fun q => q.stage = .cb && q.type = .calRamp && q.target = beamSid b) = false →
    ∃ t, exec (.ceBmArm p b v) s = .next t ∧ t.on (CE_BM_MK_CTL_PENDING b) = true ∧ t.get (CE_BM_MK_CTL_REASON b) = 0 ∧
      t.flow.requests = s.flow.requests ++ [⟨.cb, .calRamp, beamSid b, atSecFrac (s.val (CE_BM_MK_SEC b)) (s.val (CE_BM_MK_FRAC b)),
        BitVec.ofNat 64 (s.get (CE_BM_RAMP_STEPS_STEPS b) + s.val (CE_BM_RAMP_NS b) * 2 ^ 16), false⟩] ∧
      (t.ceBeam b).armAt = some (atSecFrac (s.val (CE_BM_MK_SEC b)) (s.val (CE_BM_MK_FRAC b)))) ∧
  (∀ (s : State) (p : Fin 5) (b : Fin 32) (v : Word), s.mayWrite p (CE_BM_MK_CTL b) = true → bits v.toNat 0 0 = 1 →
    s.on (CE_BM_CTL_ENABLE b) = false →
    ∃ t, exec (.ceBmArm p b v) s = .next t ∧ t.get (CE_BM_MK_CTL_REASON b) = 0x0791 ∧ t.flow = s.flow ∧ t.ce = s.ce) ∧
  (∀ (s : State) (b : Fin 32) (m : Marker) (u : DevTime), s.gated 10 = false → s.lost 10 = false → s.beamNext b = some u →
    (s.ceBeam b).acts = [m] → tLe m.time u = true → (s.ceBeam b).held = none → s.on (CE_BM_MK_CTL_RAMPING b) = false →
    bits m.arg.toNat 47 16 = 0 →
    ∃ t, exec (.markerCalRampBeam b) s = .next t ∧ t.on (CE_BM_MK_CTL_PENDING b) = false ∧ (t.ceBeam b).acts = [] ∧
      (∀ (i : Fin 16) (k : Nat), k < 4096 → wtPoint t.ce.wtA b i k = wtPoint s.ce.wtS b i k ∧
        wtPoint t.ce.wtS b i k = wtPoint s.ce.wtA b i k) ∧
      t.val (CE_BM_DONE_SEC b) = secOf u % 2 ^ 32 ∧ t.out = s.out) ∧
  (∀ (s : State) (b : Fin 32) (m : Marker) (u : DevTime), s.gated 10 = false → s.lost 10 = false → s.beamNext b = some u →
    (s.ceBeam b).acts = [m] → tLe m.time u = true → (s.ceBeam b).held = none → s.on (CE_BM_MK_CTL_RAMPING b) = false →
    bits m.arg.toNat 47 16 ≠ 0 → bits m.arg.toNat 15 0 ≠ 0 →
    ∃ t, exec (.markerCalRampBeam b) s = .next t ∧ t.on (CE_BM_MK_CTL_RAMPING b) = true ∧ t.on (CE_BM_MK_CTL_PENDING b) = false ∧
      (t.ceBeam b).ramp = some ⟨u, bits m.arg.toNat 15 0, bits m.arg.toNat 47 16, 0⟩ ∧ t.ce.wtA = s.ce.wtA ∧ t.ce.wtS = s.ce.wtS) ∧
  (∀ (s : State) (b : Fin 32) (m : Marker) (u : DevTime), s.gated 10 = false → s.lost 10 = false → s.beamNext b = some u →
    (s.ceBeam b).acts = [m] → tLe m.time u = true → s.on (CE_BM_MK_CTL_RAMPING b) = true →
    ∃ t, exec (.markerCalRampBeam b) s = .next t ∧ t.on (CE_BM_MK_CTL_HELD b) = true ∧
      (t.ceBeam b).held = some (bits m.arg.toNat 15 0, bits m.arg.toNat 47 16) ∧ (t.ceBeam b).ramp = (s.ceBeam b).ramp ∧
      (∀ a, a ≠ CE_BM_MK_CTL b → t.reg a = s.reg a)) ∧
  (∀ (s : State) (b : Fin 32), s.beamNext b = none → exec (.markerCalRampBeam b) s = .next s ∧ exec (.ceBmRampStep b) s = .next s) ∧
  (∀ (s : State) (b : Fin 32) (u : DevTime) (r : CeRamp), s.gated 10 = false → s.lost 10 = false → s.beamNext b = some u →
    (s.ceBeam b).ramp = some r → (tDiff u r.tx).toNat * r.steps * 1000000000 / (r.ns * 2 ^ 48) < r.steps →
    ∃ t, exec (.ceBmRampStep b) s = .next t ∧ (t.ceBeam b).ramp = some { r with k := (tDiff u r.tx).toNat * r.steps * 1000000000 / (r.ns * 2 ^ 48) } ∧
      t.regs = s.regs ∧ t.ce.wtA = s.ce.wtA ∧ t.ce.wtS = s.ce.wtS) ∧
  (∀ (s : State) (b : Fin 32) (u : DevTime) (r : CeRamp), s.gated 10 = false → s.lost 10 = false → s.beamNext b = some u →
    (s.ceBeam b).ramp = some r → r.steps ≤ (tDiff u r.tx).toNat * r.steps * 1000000000 / (r.ns * 2 ^ 48) →
    ∃ t, exec (.ceBmRampStep b) s = .next t ∧ (t.ceBeam b).ramp = none ∧ t.on (CE_BM_MK_CTL_RAMPING b) = false ∧
      (∀ (i : Fin 16) (k : Nat), k < 4096 → wtPoint t.ce.wtA b i k = wtPoint s.ce.wtS b i k) ∧
      (∀ a, a ≠ CE_BM_MK_CTL b → t.reg a = s.reg a)) ∧
  (∀ (s : State) (p : Fin 5) (v : Word), s.mayWrite p CE_WT_DATA = true → s.on CE_WT_ADDR_BANK = false →
    s.on (CE_BM_MK_CTL_PENDING (s.get CE_WT_ADDR_BEAM)) = false → s.on (CE_BM_MK_CTL_RAMPING (s.get CE_WT_ADDR_BEAM)) = false →
    ∃ t, exec (.ceWtDataAccess p (some v)) s = .next t ∧ kvGetD t.ce.wtS s.wtKey 0x4000 = v ∧
      (∀ k, k ≠ s.wtKey → kvGetD t.ce.wtS k 0x4000 = kvGetD s.ce.wtS k 0x4000) ∧ t.ce.wtA = s.ce.wtA ∧
      t.wtKey = (s.wtKey + 1) % 2 ^ 21) ∧
  (∀ (s : State) (p : Fin 5), s.mayRead p CE_WT_DATA = true → s.on CE_WT_ADDR_BANK = false →
    ∃ t, exec (.ceWtDataAccess p none) s = .next t ∧ t.ce = s.ce ∧ t.wtKey = (s.wtKey + 1) % 2 ^ 21 ∧
      t.out = s.out ++ [.answer p CE_WT_DATA (kvGetD s.ce.wtS s.wtKey 0x4000) 0])

/-- Kepalink ports and lanes (R328 to R340, R354). -/
def Obligations.PortsAlignSwapAndNarrow : Prop :=
  (∀ (s u : State) (p : Fin 5) (dp : Fin 64) (v : Word), s.mayWrite p (KL_PORT_CTL (kw dp) (kq dp)) = true →
    s.on (KL_PORT_CTL_ENABLE (kw dp) (kq dp)) = false → bits v.toNat 0 0 = 1 → bits v.toNat 13 13 = 0 →
    s.dutyDead (KL_PORT_CTL (kw dp) (kq dp)) = false → u = s.plainWrite (KL_PORT_CTL (kw dp) (kq dp)) (v.toNat / 2 * 2) →
    u.klPortCheck dp = 0 → (∀ i ∈ List.range (u.klWidth dp), s.laneDead (kw dp) (u.klFirst dp + i) = false ∧
      s.laneFor (kw dp) (u.klFirst dp + i) = u.klFirst dp + i) →
    ∃ t, exec (.klPortEnable p dp v) s = .next t ∧ t.on (KL_PORT_CTL_ENABLE (kw dp) (kq dp)) = true ∧
      t.get (KL_PORT_CTL_REASON (kw dp) (kq dp)) = 0 ∧ t.klState dp = 1 ∧
      (t.klPort dp).map = (List.range (u.klWidth dp)).map (u.klFirst dp + ·) ∧
      t.get (KL_PORT_STATUS_WIDTH_NOW (kw dp) (kq dp)) = bits v.toNat 10 9 ∧
      (∀ i ∈ (t.klPort dp).map, t.on (KL_LANE_STATUS_IN_PORT (kw dp) i) = true ∧ t.get (KL_LANE_STATUS_PORT (kw dp) i) = kq dp) ∧
      t.out = s.out) ∧
  (∀ (s : State) (p : Fin 5) (dp : Fin 64) (v : Word), s.mayWrite p (KL_PORT_CTL (kw dp) (kq dp)) = true →
    s.on (KL_PORT_CTL_ENABLE (kw dp) (kq dp)) = false → bits v.toNat 0 0 = 1 → bits v.toNat 13 13 = 0 →
    s.dutyDead (KL_PORT_CTL (kw dp) (kq dp)) = false → (s.plainWrite (KL_PORT_CTL (kw dp) (kq dp)) (v.toNat / 2 * 2)).klPortCheck dp ≠ 0 →
    ∃ t, exec (.klPortEnable p dp v) s = .next t ∧ t.on (KL_PORT_CTL_ENABLE (kw dp) (kq dp)) = false ∧ t.kl = s.kl ∧
      t.get (KL_PORT_CTL_REASON (kw dp) (kq dp)) =
        (s.plainWrite (KL_PORT_CTL (kw dp) (kq dp)) (v.toNat / 2 * 2)).klPortCheck dp % 65536) ∧
  (∀ (s : State) (dp : Fin 64), s.klOn dp = true → s.klState dp ≠ 3 → s.klState dp ≠ 0 → s.klAligned dp = true →
    ∃ t, exec (.klPortUp dp) s = .next t ∧ t.klState dp = 3 ∧ t.on (KL_PORT_STATUS_MISWIRED (kw dp) (kq dp)) = false ∧
      (t.klPort dp).used = [0, 0, 0] ∧ (t.klPort dp).got = [0, 0, 0] ∧ (t.klPort dp).map = (s.klPort dp).map ∧ t.out = s.out) ∧
  (∀ (s : State) (dp : Fin 64), s.klEther dp = false → s.klAligned dp = false → exec (.klPortUp dp) s = .next s) ∧
  (∀ (s : State) (dp : Fin 64), s.klOn dp = true → s.klState dp ≠ 0 →
    ∃ t, exec (.klPortDown dp) s = .next t ∧ t.klState dp = 1 ∧ (t.klPort dp).cur = [] ∧ (t.klPort dp).seen = [] ∧
      (t.klPort dp).swap = none ∧ kvGet t.kh.nbrs dp = none ∧
      (kvGet s.kh.nbrs dp = none → s.qualified 3 = false → t.out = s.out)) ∧
  (∀ (s : State) (dp : Fin 64), s.klUp dp = true →
    ∃ t, exec (.klRecordAbort dp) s = .next t ∧ (t.klPort dp).cur = [] ∧ t.out = s.out ∧
      t.val (KL_PORT_ABORTS (kw dp) (kq dp)) = (s.val (KL_PORT_ABORTS (kw dp) (kq dp)) + 1) % 2 ^ 32 ∧
      (∀ a, a ≠ KL_PORT_ABORTS (kw dp) (kq dp) → t.reg a = s.reg a)) ∧
  (∀ (s : State) (dp : Fin 64), s.klUp dp = false → exec (.klRecordAbort dp) s = .next s) ∧
  (∀ (s : State) (r : Fin 2) (i : Fin 68) (dp role : Nat), i.val < 64 → s.laneRole (13 + r) i = some (dp, role) → 2 ≤ s.klState dp →
    s.laneDead (13 + r) i = false → (s.klLane r i).sent ≠ some (s.txCount dp / 16384) →
    ∃ t, exec (.klAlignSend r i) s = .next t ∧ t.regs = s.regs ∧ (t.klLane r i).sent = some (s.txCount dp / 16384) ∧
      t.out = s.out ++ [.laneMsg (68 * r + i) (.align role dp s.hive (BitVec.ofNat 48 (s.txCount dp / 16384 * 16384)))]) ∧
  (∀ (s : State) (r : Fin 2) (i : Fin 68) (dp role : Nat), i.val < 64 → s.laneRole (13 + r) i = some (dp, role) →
    (s.klLane r i).sent = some (s.txCount dp / 16384) → exec (.klAlignSend r i) s = .next s) ∧
  (∀ (s : State) (r : Fin 2) (i : Fin 68) (k dp : Nat), i.val = 64 + k → s.on (KL_SPARE_ENABLE (13 + r) k) = true →
    s.laneRole (13 + r) i = none → dp = 32 * r + s.get (KL_SPARE_PORT (13 + r) k) → s.laneDead (13 + r) i = false →
    (s.klLane r i).sent ≠ some (s.txCount dp / 16384) →
    ∃ t, exec (.klAlignSend r i) s = .next t ∧ t.regs = s.regs ∧ t.out = s.out ++
      [.laneMsg (68 * r + i) (.align (8 + k) dp s.hive (BitVec.ofNat 48 (s.txCount dp / 16384 * 16384)))]) ∧
  (∀ (s : State) (r : Fin 2) (i : Fin 68) (role dp : Nat) (port : Fin 64) (h : BitVec 16) (c : BitVec 48), i.val < 64 →
    s.laneDead (13 + r) i = false → s.laneRole (13 + r) i = some (dp, role) → (s.klPort dp).seen.all (fun x => x.1 = role || x.2 = (h.toNat, port.val)) = true →
    s.on (KL_PORT_STATUS_MISWIRED (kw dp) (kq dp)) = false →
    s.get (KL_PORT_CTL_WIDTH (kw dp) (kq dp)) ≤ s.get (KL_PORT_STATUS_WIDTH_NOW (kw dp) (kq dp)) →
    ∃ t, exec (.klSbAlign r i role port h c) s = .next t ∧ kvGet (t.klPort dp).seen role = some (h.toNat, port.val) ∧
      t.get (KL_PORT_PEER_HIVE (kw dp) (kq dp)) = h.toNat ∧ t.get (KL_PORT_PEER_PORT (kw dp) (kq dp)) = port.val ∧
      (t.klPort dp).peerTx = c.toNat ∧ (t.klPort dp).peerAt = s.now ∧
      t.klState dp = (if s.klState dp = 1 ∧ (s.klPort dp).map.all (fun x => x = i.val || s.on (KL_LANE_STATUS_FEC_LOCK (13 + r) x)) = true
        then 2 else s.klState dp) ∧ t.out = s.out) ∧
  (∀ (s : State) (r : Fin 2) (i : Fin 68) (role own dp : Nat) (port : Fin 64) (h : BitVec 16) (c : BitVec 48), i.val < 64 →
    s.laneDead (13 + r) i = false → s.laneRole (13 + r) i = some (dp, own) → role ≠ own → s.klState dp ≠ 3 →
    ∃ t, exec (.klSbAlign r i role port h c) s = .next t ∧ kvGet (t.klPort dp).seen own = none ∧
      t.on (KL_PORT_STATUS_MISWIRED (kw dp) (kq dp)) = true ∧
      t.alarm.conds.any (fun x => x.region = 13 + r.val && x.kind = .link && x.arg = dp) = true) ∧
  (∀ (s : State) (r : Fin 2) (i : Fin 68) (k role dp : Nat) (port : Fin 64) (h : BitVec 16) (c : BitVec 48), i.val = 64 + k →
    dp = 32 * r + s.get (KL_SPARE_PORT (13 + r) k) → s.on (KL_SPARE_ENABLE (13 + r) k) = true → s.laneDead (13 + r) i = false →
    s.laneRole (13 + r) i = none → 8 ≤ role →
    ∃ t, exec (.klSbAlign r i role port h c) s = .next t ∧ t.kl = s.kl ∧ t.out = s.out ∧
      (t.on (KL_SPARE_TRAINED (13 + r) k) = true ↔ s.get (KL_PORT_PEER_PORT (kw dp) (kq dp)) = port.val ∧
        s.get (KL_PORT_PEER_HIVE (kw dp) (kq dp)) = h.toNat)) ∧
  (∀ (s : State) (r : Fin 2) (i : Fin 68) (dp role k : Nat), i.val < 64 → s.laneDead (13 + r) i = false →
    s.laneRole (13 + r) i = some (dp, role) → s.freeSpareLane dp = some k → (s.klPort dp).swap = none →
    (∀ q ∈ List.range 32, (s.klOn (32 * r + q) && s.klEther (32 * r + q) && (s.klPort (32 * r + q)).map.contains i) = false) →
    ∃ t, exec (.klLaneFail r i) s = .next t ∧ t.laneDead (13 + r) i = true ∧
      (t.klPort dp).swap = some { role := role, lane := (s.klPort dp).map.getD role 0, spare := k, tx := s.switchCount dp } ∧ (t.klPort dp).map = (s.klPort dp).map ∧
      t.klState dp = s.klState dp ∧
      t.out.getLast? = some (.laneMsg (68 * r + 64 + k) (.swap role k (BitVec.ofNat 48 (s.switchCount dp))))) ∧
  (∀ (s : State) (r : Fin 2) (i : Fin 68) (dp role : Nat) (good : List Nat), i.val < 64 → s.laneDead (13 + r) i = false →
    s.laneRole (13 + r) i = some (dp, role) → s.freeSpareLane dp = none → (s.klPort dp).swap = none →
    (s.klPort dp).map.all (fun x => decide (x < 68)) = true →
    good = (s.klPort dp).map.filter (fun x => !(s.laneOut (13 + r) x) && x != i.val) → good ≠ [] →
    (∀ q ∈ List.range 32, (s.klOn (32 * r + q) && s.klEther (32 * r + q) && (s.klPort (32 * r + q)).map.contains i) = false) →
    ∃ t, exec (.klLaneFail r i) s = .next t ∧ t.laneDead (13 + r) i = true ∧
      (t.klPort dp).map = good.take (2 ^ widthFor good.length) ∧
      t.get (KL_PORT_STATUS_WIDTH_NOW (kw dp) (kq dp)) = widthFor good.length ∧
      t.on (KL_PORT_STATUS_NARROWED (kw dp) (kq dp)) = true ∧
      (widthFor good.length < s.get (KL_PORT_CTL_WIDTH (kw dp) (kq dp)) →
        t.alarm.conds.any (fun x => x.region = 13 + r.val && x.kind = .link && x.arg = dp) = true)) ∧
  (∀ (s : State) (r : Fin 2) (i : Fin 68) (k dp : Nat) (x : KlSwap) (good : List Nat), i.val = 64 + k → s.laneDead (13 + r) i = false →
    dp = 32 * r + s.get (KL_SPARE_PORT (13 + r) k) → (s.klPort dp).swap = some x → x.spare = k →
    (s.klPort dp).map.all (fun j => decide (j < 68)) = true →
    good = (s.klPort dp).map.filter (fun j => !(s.laneOut (13 + r) j) && j != i.val) → good ≠ [] →
    (∀ q ∈ List.range 32, (s.klOn (32 * r + q) && s.klEther (32 * r + q) && (s.klPort (32 * r + q)).map.contains i) = false) →
    ∃ t, exec (.klLaneFail r i) s = .next t ∧ t.laneDead (13 + r) i = true ∧ (t.klPort dp).swap = none ∧
      (t.klPort dp).map = good.take (2 ^ widthFor good.length) ∧ t.on (KL_SPARE_TRAINED (13 + r) k) = false ∧
      t.on (KL_PORT_STATUS_NARROWED (kw dp) (kq dp)) = true) ∧
  (∀ (s : State) (r : Fin 2) (i : Fin 68), s.laneDead (13 + r) i = true → exec (.klLaneFail r i) s = .next s) ∧
  (∀ (s : State) (dp : Fin 64) (x : KlSwap), (s.klPort dp).swap = some x → x.rxDone = false → x.tx ≤ s.txCount dp →
    ∃ t, exec (.klSpareSwitch dp true) s = .next t ∧ (t.klPort dp).swap = some { x with txDone := true } ∧
      (t.klPort dp).map = (s.klPort dp).map ∧ t.regs = s.regs ∧ t.out = s.out) ∧
  (∀ (s : State) (dp : Fin 64) (x : KlSwap) (c : Nat), (s.klPort dp).swap = some x → x.txDone = false → x.rx = some c →
    c ≤ s.peerCount dp →
    ∃ t, exec (.klSpareSwitch dp false) s = .next t ∧ (t.klPort dp).swap = some { x with rxDone := true } ∧
      (t.klPort dp).map = (s.klPort dp).map.set x.role (64 + x.spare) ∧ t.regs = s.regs ∧ t.out = s.out) ∧
  (∀ (s : State) (dp : Fin 64) (x : KlSwap) (c : Nat), (s.klPort dp).swap = some x → x.txDone = true → x.rx = some c →
    c ≤ s.peerCount dp → x.spare < 4 → x.lane < 64 → (s.klPort dp).fails = [] →
    ∃ t, exec (.klSpareSwitch dp false) s = .next t ∧ (t.klPort dp).swap = none ∧
      (t.klPort dp).map = (s.klPort dp).map.set x.role (64 + x.spare) ∧
      t.on (KL_SPARE_IN_USE (kw dp) x.spare) = true ∧ t.on (KL_PORT_STATUS_SWAPPED (kw dp) (kq dp)) = true ∧
      t.on (KL_LANE_STATUS_IN_PORT (kw dp) (64 + x.spare)) = true ∧ t.on (KL_LANE_STATUS_IN_PORT (kw dp) x.lane) = false ∧
      t.blk (kw dp) (64 + x.spare) = ⟨.serving, some x.lane⟩) ∧
  (∀ (s : State) (dp : Fin 64) (x : KlSwap), (s.klPort dp).swap = some x → s.txCount dp < x.tx →
    exec (.klSpareSwitch dp true) s = .next s) ∧
  (∀ (s : State) (dp : Fin 64), (s.klPort dp).swap = none → exec (.klSpareSwitch dp true) s = .next s) ∧
  (∀ (s : State) (dp : Fin 64) (role k i : Nat) (c : BitVec 48), s.klOn dp = true → k < 4 → (s.klPort dp).swap = none →
    (s.klPort dp).map[role]? = some i → i < 68 →
    ∃ t, exec (.klSbSwap dp role k c) s = .next t ∧ t.laneDead (kw dp) i = true ∧
      (t.klPort dp).swap = some { role := role, lane := i, spare := k, tx := s.switchCount dp, rx := some c.toNat } ∧
      t.out.getLast? = some (.laneMsg (68 * (dp / 32) + 64 + k) (.ack role (BitVec.ofNat 48 (s.switchCount dp))))) ∧
  (∀ (s : State) (dp : Fin 64) (c : BitVec 48) (x : KlSwap), (s.klPort dp).swap = some x →
    ∃ t, exec (.klSbAck dp x.role c) s = .next t ∧ (t.klPort dp).swap = some { x with rx := some c.toNat } ∧
      t.regs = s.regs ∧ t.out = s.out) ∧
  (∀ (s : State) (dp : Fin 64) (w : Fin 4) (roles : List Nat) (c : BitVec 48) (i : Nat), s.klOn dp = true →
    (s.klPort dp).map.all (fun x => decide (x < 68)) = true → i < 64 →
    (roles.filterMap fun r => (s.klPort dp).map[r]?).head? = some i → s.laneDead (kw dp) i = false →
    ∃ t, exec (.klSbNarrow dp w roles c) s = .next t ∧ t.get (KL_PORT_STATUS_WIDTH_NOW (kw dp) (kq dp)) = w ∧
      t.on (KL_PORT_STATUS_NARROWED (kw dp) (kq dp)) = true ∧
      (t.klPort dp).map = (roles.filterMap fun r => (s.klPort dp).map[r]?).take (2 ^ w.val) ∧
      (w.val < s.get (KL_PORT_CTL_WIDTH (kw dp) (kq dp)) →
        t.alarm.conds.any (fun x => x.region = kw dp && x.kind = .link && x.arg = dp.val) = true) ∧
      t.out.getLast? = some (.laneMsg (68 * (dp / 32) + i) (.ack 0 (BitVec.ofNat 48 (s.switchCount dp))))) ∧
  (∀ (s : State) (r : Fin 2) (i : Fin 68) (cw : Codeword) (n : Nat), s.lost (13 + r) = false → absentRegion s.variant (13 + r) = false →
    s.laneDead (13 + r) i = false → s.laneRole (13 + r) i = none → cw.corrected = some n → 2 ≤ cw.sbctl.val →
    ((s.klLane r i).watch cw.corrected (s.get (KL_LANE_LIMIT_UNCORR_MAX (13 + r) i)) (s.get (KL_LANE_LIMIT_CORR_AVG (13 + r) i))).2 = false →
    ∃ t, exec (.klCodewordReceive r i cw) s = .next t ∧ t.out = s.out ∧ t.kl.ports = s.kl.ports ∧
      (t.klLane r i).sb = (s.klLane r i).sb ∧
      t.pair (KL_LANE_CORR_LO (13 + r) i) (KL_LANE_CORR_HI (13 + r) i) =
        (s.pair (KL_LANE_CORR_LO (13 + r) i) (KL_LANE_CORR_HI (13 + r) i) + n) % 2 ^ 64) ∧
  (∀ (s : State) (r : Fin 2) (i : Fin 68) (cw : Codeword) (dp : Nat), s.lost (13 + r) = false → absentRegion s.variant (13 + r) = false →
    s.laneDead (13 + r) i = false → s.laneRole (13 + r) i = some (dp, 0) → cw.corrected = none → s.klUp dp = true →
    (s.klPort dp).map = [i.val] → (s.klPort dp).turn = 0 → (s.klLane r i).words = [] → (s.klPort dp).cur ≠ [] →
    ((s.klLane r i).watch cw.corrected (s.get (KL_LANE_LIMIT_UNCORR_MAX (13 + r) i)) (s.get (KL_LANE_LIMIT_CORR_AVG (13 + r) i))).2 = false →
    ∃ t, exec (.klCodewordReceive r i cw) s = .next t ∧ (t.klPort dp).cur = [] ∧ (t.klPort dp).skip = true ∧ t.out = s.out ∧
      t.val (KL_LANE_UNCORR (13 + r) i) = (s.val (KL_LANE_UNCORR (13 + r) i) + 1) % 2 ^ 32 ∧
      t.val (KL_PORT_ABORTS (kw dp) (kq dp)) = (s.val (KL_PORT_ABORTS (kw dp) (kq dp)) + 1) % 2 ^ 32) ∧
  (∀ (s : State) (r : Fin 2) (i : Fin 68) (cw : Codeword) (n : Nat) (l m : List Byte), s.lost (13 + r) = false →
    absentRegion s.variant (13 + r) = false → s.laneDead (13 + r) i = false → s.laneRole (13 + r) i = none →
    cw.corrected = some n → cw.sbctl = 0 → (s.klLane r i).sb = some l → m = l ++ [cw.sb] → (m.getD 1 0).toNat ≤ 60 →
    m.length = (m.getD 1 0).toNat + 4 → fromLe (m.drop ((m.getD 1 0).toNat + 2)) = crc16 (m.take ((m.getD 1 0).toNat + 2)) →
    sbKnown (m.getD 0 0).toNat = true →
    ((s.klLane r i).watch cw.corrected (s.get (KL_LANE_LIMIT_UNCORR_MAX (13 + r) i)) (s.get (KL_LANE_LIMIT_CORR_AVG (13 + r) i))).2 = false →
    ∃ t, exec (.klCodewordReceive r i cw) s = .next t ∧ (t.klLane r i).sb = none ∧ t.out = s.out ++
      [.sbMessage (s.lanePort r i) (m.getD 0 0).toNat ((m.take ((m.getD 1 0).toNat + 2)).drop 2)])

/-- R355. -/
def Obligations.SparesAndFlowsNeedTheirPort : Prop :=
  (∀ (s : State) (p : Fin 5) (r : Fin 2) (k : Fin 4) (v : Word), s.mayWrite p (KL_SPARE (13 + r) k) = true →
    s.on (KL_SPARE_ENABLE (13 + r) k) = false → bits v.toNat 0 0 = 1 → s.dutyDead (KL_SPARE (13 + r) k) = false →
    s.on (KL_PORT_CTL_ENABLE (13 + r) (bits v.toNat 8 4)) = false ∨ s.on (KL_PORT_CTL_MODE (13 + r) (bits v.toNat 8 4)) = true →
    ∃ t, exec (.klSpareEnable p r k v) s = .next t ∧ t.on (KL_SPARE_ENABLE (13 + r) k) = false ∧
      t.get (KL_SPARE_REASON (13 + r) k) = 0x03A0 ∧ t.get (REGION_REFUSAL_REASON (13 + r) p) = 0x03A0 ∧ t.kl = s.kl ∧ t.out = s.out) ∧
  (∀ (s : State) (p : Fin 5) (r : Fin 2) (k : Fin 4) (v : Word), s.mayWrite p (KL_SPARE (13 + r) k) = true →
    s.on (KL_SPARE_ENABLE (13 + r) k) = false → bits v.toNat 0 0 = 1 → s.dutyDead (KL_SPARE (13 + r) k) = false →
    s.on (KL_PORT_CTL_ENABLE (13 + r) (bits v.toNat 8 4)) = true → s.on (KL_PORT_CTL_MODE (13 + r) (bits v.toNat 8 4)) = false →
    s.lost (13 + r) = false →
    ∃ t, exec (.klSpareEnable p r k v) s = .next t ∧ t.on (KL_SPARE_ENABLE (13 + r) k) = true ∧
      t.get (KL_SPARE_PORT (13 + r) k) = bits v.toNat 8 4 ∧ t.get (KL_SPARE_REASON (13 + r) k) = 0 ∧ t.out = s.out ∧
      (∀ a, a ≠ KL_SPARE (13 + r) k → t.reg a = s.reg a)) ∧
  (∀ (s : State) (p : Fin 5) (r : Fin 2) (f : Fin 64) (v : Word), s.mayWrite p (KL_XF_CTL (13 + r) f) = true →
    s.on (KL_XF_CTL_ON (13 + r) f) = false → bits v.toNat 0 0 = 1 →
    s.on (KL_PORT_CTL_ENABLE (13 + r) (bits v.toNat 12 8)) = false ∨ s.on (KL_PORT_CTL_MODE (13 + r) (bits v.toNat 12 8)) = false →
    exec (.klFlowOn p r f v) s = .next (s.recordRefusal p (KL_XF_CTL (13 + r) f) true 0x03A0)) ∧
  (∀ (s : State) (p : Fin 5) (r : Fin 2) (f : Fin 64) (v : Word), s.mayWrite p (KL_XF_CTL (13 + r) f) = true →
    s.on (KL_XF_CTL_ON (13 + r) f) = false → bits v.toNat 0 0 = 1 →
    s.on (KL_PORT_CTL_ENABLE (13 + r) (bits v.toNat 12 8)) = true → s.on (KL_PORT_CTL_MODE (13 + r) (bits v.toNat 12 8)) = true →
    s.lost (13 + r) = false →
    ∃ t, exec (.klFlowOn p r f v) s = .next t ∧ t.on (KL_XF_CTL_ON (13 + r) f) = true ∧
      t.get (KL_XF_CTL_PORT (13 + r) f) = bits v.toNat 12 8 ∧ kvGetD t.kl.dgram (64 * r + f) 0 = 0 ∧ t.out = s.out ∧
      (∀ a, a ≠ KL_XF_CTL (13 + r) f → t.reg a = s.reg a))

/-- Time transfer and export (R342 to R351). -/
def Obligations.TimeIsTransferredAndRecordsExported : Prop :=
  (∀ (s : State) (dp : Fin 64) (tx : DevTime) (i : Nat), s.klUp dp = true → s.on (KL_TT_CTL_TT_EN (kw dp) (kq dp)) = true →
    s.due (s.klPort dp).ttAt 10 = true → (s.klPort dp).map.head? = some i →
    ∃ t, exec (.klTimeSend dp tx) s = .next t ∧ t.regs = s.regs ∧ (t.klPort dp).sentLast = tx ∧
      (t.klPort dp).seq = ((s.klPort dp).seq + 1) % 65536 ∧ kvGet (t.klPort dp).sent (s.klPort dp).seq = some tx ∧
      t.out = s.out ++ [.laneMsg (68 * (dp / 32) + i) (.time ⟨BitVec.ofNat 16 (s.klPort dp).seq, (s.klPort dp).sentLast,
        ((s.klPort dp).peerLast.getD (0, 0)).2, BitVec.ofNat 16 ((s.klPort dp).peerLast.getD (0, 0)).1,
        BitVec.ofNat 8 s.timeStatus⟩)]) ∧
  (∀ (s : State) (dp : Fin 64) (tx : DevTime), s.klUp dp = false → exec (.klTimeSend dp tx) s = .next s) ∧
  (∀ (s : State) (dp : Fin 64) (m : TimeMsg) (rx : DevTime), s.klUp dp = true → s.on (KL_TT_CTL_TT_EN (kw dp) (kq dp)) = true →
    (s.klPort dp).peerLast = none → s.qualified 3 = false →
    ∃ t, exec (.klSbTime dp m rx) s = .next t ∧ (t.klPort dp).peerLast = some (m.seq.toNat, rx) ∧
      (t.klPort dp).peerStatus = m.status.toNat ∧ t.get (KL_TT_STATUS_PEER_VALID (kw dp) (kq dp)) = bits m.status.toNat 0 0 ∧
      (∀ a, a ≠ KL_TT_STATUS (kw dp) (kq dp) → t.reg a = s.reg a) ∧ t.out = s.out) ∧
  (∀ (s : State) (dp : Fin 64) (m : TimeMsg) (rx t1 t4 : DevTime) (n : Nat), s.klUp dp = true →
    s.on (KL_TT_CTL_TT_EN (kw dp) (kq dp)) = true → (s.klPort dp).peerLast = some (n, t4) →
    kvGet (s.klPort dp).sent m.rxSeq.toNat = some t1 → (n + 1) % 65536 = m.seq.toNat → (s.klPort dp).exch = [] → s.qualified 3 = false →
    ∃ t, exec (.klSbTime dp m rx) s = .next t ∧ (t.klPort dp).peerLast = some (m.seq.toNat, rx) ∧
      (t.klPort dp).exch = [(tDiff m.rxLast t1 - tDiff t4 m.txPrev, tDiff m.rxLast t1 + tDiff t4 m.txPrev)] ∧
      t.val (KL_TT_OFFSET (kw dp) (kq dp)) = unsign 32 (quarterPs (tDiff m.rxLast t1 - tDiff t4 m.txPrev - s.asym dp) 2) ∧
      t.val (KL_TT_DELAY (kw dp) (kq dp)) = unsign 32 (quarterPs (tDiff m.rxLast t1 + tDiff t4 m.txPrev) 2) ∧ t.out = s.out) ∧
  (∀ (s : State) (p : Fin 5) (dp : Fin 64), s.mayWrite p (KL_TT_CTL (kw dp) (kq dp)) = true →
    calStatus s.timeStatus = true → calStatus (s.klPort dp).peerStatus = true → s.on (KL_TT_STATUS_CAL_BUSY (kw dp) (kq dp)) = false →
    ∃ t, exec (.klTtCal p dp) s = .next t ∧ t.on (KL_TT_STATUS_CAL_BUSY (kw dp) (kq dp)) = true ∧
      t.get (KL_TT_CTL_REASON (kw dp) (kq dp)) = 0 ∧ (t.klPort dp).cal = some (s.now, 0, 0, false) ∧
      t.val (KL_TT_ASYM (kw dp) (kq dp)) = s.val (KL_TT_ASYM (kw dp) (kq dp)) ∧ t.out = s.out) ∧
  (∀ (s : State) (p : Fin 5) (dp : Fin 64), s.mayWrite p (KL_TT_CTL (kw dp) (kq dp)) = true →
    (calStatus s.timeStatus && calStatus (s.klPort dp).peerStatus) = false →
    ∃ t, exec (.klTtCal p dp) s = .next t ∧ t.get (KL_TT_CTL_REASON (kw dp) (kq dp)) = 0x03A1 ∧ t.kl = s.kl ∧
      t.val (KL_TT_STATUS (kw dp) (kq dp)) = s.val (KL_TT_STATUS (kw dp) (kq dp))) ∧
  (∀ (s : State) (p : Fin 5) (dp : Fin 64), s.mayWrite p (KL_TT_CTL (kw dp) (kq dp)) = true →
    calStatus s.timeStatus = true → calStatus (s.klPort dp).peerStatus = true → s.on (KL_TT_STATUS_CAL_BUSY (kw dp) (kq dp)) = true →
    ∃ t, exec (.klTtCal p dp) s = .next t ∧ t.get (KL_TT_CTL_REASON (kw dp) (kq dp)) = 0x05A1 ∧ t.kl = s.kl) ∧
  (∀ (s : State) (dp : Fin 64) (a : DevTime) (n : Nat) (sum : Int), (s.klPort dp).cal = some (a, n, sum, false) → n ≠ 0 →
    calStatus s.timeStatus = true → calStatus (s.klPort dp).peerStatus = true → tLt s.now (tAdd a (2 ^ 48)) = false →
    ∃ t, exec (.klTtCalDone dp) s = .next t ∧ t.on (KL_TT_STATUS_CAL_DONE (kw dp) (kq dp)) = true ∧
      t.on (KL_TT_STATUS_CAL_BUSY (kw dp) (kq dp)) = false ∧ (t.klPort dp).cal = none ∧
      t.val (KL_TT_ASYM (kw dp) (kq dp)) = unsign 32 (ratioRound (ratio (sum * 1000000000000) (n * 2 ^ 48))) ∧ t.out = s.out) ∧
  (∀ (s : State) (dp : Fin 64) (a : DevTime) (n : Nat) (sum : Int), (s.klPort dp).cal = some (a, n, sum, true) →
    ∃ t, exec (.klTtCalDone dp) s = .next t ∧ t.get (KL_TT_CTL_REASON (kw dp) (kq dp)) = 0x03A1 ∧
      t.on (KL_TT_STATUS_CAL_BUSY (kw dp) (kq dp)) = false ∧ (t.klPort dp).cal = none ∧
      t.val (KL_TT_ASYM (kw dp) (kq dp)) = s.val (KL_TT_ASYM (kw dp) (kq dp))) ∧
  (∀ (s : State) (dp : Fin 64), (s.klPort dp).cal = none → exec (.klTtCalDone dp) s = .next s) ∧
  (∀ (s : State) (dp : Fin 64) (x a : BitVec 32), s.exUp dp = true →
    s.reg (KL_EX_IP4 (kw dp) (kq dp)) = x → exec (.klExArp dp x a) s = .next (s.emit (.arpReply dp a))) ∧
  (∀ (s : State) (dp : Fin 64) (x a : BitVec 32), s.exUp dp = true → s.reg (KL_EX_IP4 (kw dp) (kq dp)) ≠ x →
    exec (.klExArp dp x a) s = .next (s.count (KL_EX_RXDROP (kw dp) (kq dp)) 1)) ∧
  (∀ (s : State) (dp : Fin 64) (x a : BitVec 128), s.exUp dp = true →
    s.exIp6 dp = x.toNat → exec (.klExNeighborSolicit dp x a) s = .next (s.emit (.neighborAdvert dp a))) ∧
  (∀ (s : State) (dp : Fin 64), s.exUp dp = true → exec (.klExRxDrop dp) s = .next (s.count (KL_EX_RXDROP (kw dp) (kq dp)) 1)) ∧
  (∀ (s : State) (r : Fin 2) (f : Fin 64) (y : YRec), s.lost (13 + r) = false → s.gated (13 + r) = false →
    s.on (KL_XF_CTL_ON (13 + r) f) = true → s.exUp (32 * r + s.get (KL_XF_CTL_PORT (13 + r) f)) = true →
    (recBytes y).length ≤ s.exChunk (32 * r + s.get (KL_XF_CTL_PORT (13 + r) f)) → kvGetD s.kl.owed (64 * r + f) [] = [] →
    ∃ t, exec (.klExRecordSend r f y true) s = .next t ∧
      t.out = s.out ++ [.datagram (13 + r) f (s.exFrame (13 + r) f
        (exHeader true true (kvGetD s.kl.dgram (64 * r + f) 0) 0 (recBytes y).length ++ recBytes y))] ∧
      kvGetD t.kl.dgram (64 * r + f) 0 = kvGetD s.kl.dgram (64 * r + f) 0 + 1 ∧
      t.val (KL_XF_DGRAMS (13 + r) f) = (s.val (KL_XF_DGRAMS (13 + r) f) + 1) % 2 ^ 32) ∧
  (∀ (s : State) (r : Fin 2) (f : Fin 64) (y : YRec), s.lost (13 + r) = false → s.gated (13 + r) = false →
    s.on (KL_XF_CTL_ON (13 + r) f) = true → s.exUp (32 * r + s.get (KL_XF_CTL_PORT (13 + r) f)) = true →
    ∃ t, exec (.klExRecordSend r f y false) s = .next t ∧ t.out = s.out ∧
      t.val (KL_XF_DROPPED (13 + r) f) = (s.val (KL_XF_DROPPED (13 + r) f) + 1) % 2 ^ 32 ∧ t.kl.ports = s.kl.ports ∧
      (kvGetD t.kl.owed (64 * r + f) []).any (fun g => g.type = 0x0B && g.stream = y.stream && g.hive = y.hive) = true) ∧
  (∀ (s : State) (r : Fin 2) (f : Fin 64) (y : YRec) (room : Bool), s.on (KL_XF_CTL_ON (13 + r) f) = false →
    exec (.klExRecordSend r f y room) s = .next s)

/-- Requests to capture memory (R396, R398, R399, R412, R414, R647). -/
def Obligations.CapMemRequests : Prop :=
  (∀ (s : State) (r : CmArrival), s.gated 11 = false → (∀ c ∈ List.range 16, s.on (CM_CH_STATUS_IN_SR c) = false) →
    (s.chan (s.cmChannel r.addr)).waiting.any (fun x => decide (x.port = r.port)) = false →
    s.chanLost (s.cmChannel r.addr) = false → r.write = true → (s.chan (s.cmChannel r.addr)).writes.length < 256 →
    r.addr % 32 = 0 → r.len % 32 = 0 → r.data.length = r.len →
    (sectors r.addr r.len).any (fun k => s.chanLost (s.cmChannel (32 * k))) = false →
    ∃ t, exec (.cmRequest r) s = .next t ∧ t.out = s.out ++ [.cmAck r.port r.tag r.addr true] ∧
      (∀ i, i < r.len → memByte t.cmem (r.addr + i) = r.data.getD i 0) ∧
      (∀ a, a < r.addr ∨ r.addr + r.len ≤ a → memByte t.cmem a = memByte s.cmem a)) ∧
  (∀ (s : State) (r : CmArrival), s.gated 11 = false → (∀ c ∈ List.range 16, s.on (CM_CH_STATUS_IN_SR c) = false) →
    (s.chan (s.cmChannel r.addr)).waiting.any (fun x => decide (x.port = r.port)) = false →
    s.chanLost (s.cmChannel r.addr) = false → r.write = false → (s.chan (s.cmChannel r.addr)).reads.length < 128 →
    r.errs = [] → (sectors r.addr r.len).any s.sectorPoisoned = false →
    ∃ t, exec (.cmRequest r) s = .next t ∧ t.cmem = s.cmem ∧ t.out = s.out ∧
      (t.chan (s.cmChannel r.addr)).reads = (s.chan (s.cmChannel r.addr)).reads ++
        [⟨s.cm.arrivals, r.port, r.tag, false, r.urgent, r.addr, r.len, memBytes s.cmem r.addr r.len, false, []⟩]) ∧
  (∀ (s : State) (r : CmArrival), s.gated 11 = false → s.on (CM_CH_STATUS_IN_SR (s.cmChannel r.addr)) = false →
    s.chanLost (s.cmChannel r.addr) = true → r.write = true →
    ∃ t, exec (.cmRequest r) s = .next t ∧ t.out = s.out ++ [.cmAck r.port r.tag r.addr false] ∧ t.cmem = s.cmem) ∧
  (∀ s : State, s.cm.usable = true → ∃ t, exec .cmInitDone s = .next t ∧ t.cm.initDone = true ∧ t.regs = s.regs ∧ t.out = s.out ∧
    (∀ a, memByte t.cmem a = memByte s.cmem a))

/-- The rest of the controller (R390, R402 to R409, R412 to R416). -/
def Obligations.CapMemUpkeep : Prop :=
  (∀ (s : State) (c : Fin 16) (k : Fin 2), s.gated 11 = false → s.lost 11 = false → s.on (CM_CH_STATUS_IN_SR c) = false → s.chanLost c = false →
    s.rankReads (s.chan c) k = true → (kvGetD (s.chan c).ranks k {}).owed < s.get CM_REF_POSTPONE_MAX →
    ∃ t, exec (.cmRefreshDue c k) s = .next t ∧
      (kvGetD (t.chan c).ranks k {}).owed = (kvGetD (s.chan c).ranks k {}).owed + 1 ∧ (t.chan c).banks = (s.chan c).banks ∧
      t.cmem = s.cmem) ∧
  (∀ (s : State) (c : Fin 16) (k : Fin 2), s.gated 11 = false → s.lost 11 = false → s.on (CM_CH_STATUS_IN_SR c) = false → s.chanLost c = false →
    s.rankReads (s.chan c) k = false →
    ∃ t, exec (.cmRefreshDue c k) s = .next t ∧ (∀ p ∈ (t.chan c).banks, p.1 / 16 = k.val → p.2.row = none) ∧
      (t.chan c).reads = (s.chan c).reads ∧ t.cmem = s.cmem) ∧
  (∀ (s : State) (c : Fin 16) (k : Fin 2) (m : Fin 3), s.gated 11 = false → s.lost 11 = false → ∃ t, exec (.cmMr4Poll c k (some m)) s = .next t ∧
    (kvGetD (t.chan c).ranks k {}).mult = [4, 2, 1].getD m 0 ∧ (kvGetD (t.chan c).ranks k {}).fails = 0 ∧ t.cmem = s.cmem) ∧
  (∀ (s : State) (c : Fin 16) (k : Fin 2), s.gated 11 = false → s.lost 11 = false → (kvGetD (s.chan c).ranks k {}).fails = 2 → s.chanLost c = false →
    ∃ t, exec (.cmMr4Poll c k none) s = .next t ∧ t.chanLost c = true ∧ t.on CM_STATUS_LOST = true ∧
      (t.chan c).reads = [] ∧ (t.chan c).writes = [] ∧ t.cmem = s.cmem) ∧
  (∀ (s : State) (c : Fin 16) (b r : Nat), s.gated 11 = false → s.lost 11 = false → (kvGetD (s.chan c).banks b {}).row = some r →
    ((s.chan c).reads ++ (s.chan c).writes).any (fun q => s.bankKey q = (b, r)) = false →
    ∃ t, exec (.cmRowIdleClose c b) s = .next t ∧ (kvGetD (t.chan c).banks b {}).row = none ∧
      (kvGetD (t.chan c).banks b {}).pred = (kvGetD (s.chan c).banks b {}).pred ∧ t.regs = s.regs) ∧
  (∀ (s : State) (c : Fin 16), s.gated 11 = false → s.lost 11 = false → s.on CM_SR_SR_EN = true → s.on CM_STATUS_TRAINED = true →
    (s.chan c).reads = [] → (s.chan c).writes = [] → (s.chan c).waiting = [] →
    (s.chan c).ranks.any (fun p => decide (0 < p.2.owed)) = false → s.chanLost c = false →
    s.on (CM_CH_STATUS_IN_SR c) = false → s.wakeBoundNs ≤ s.val DS_TOL_NS →
    ∃ t, exec (.cmSrEntry c) s = .next t ∧ t.on (CM_CH_STATUS_IN_SR c) = true ∧
      (t.chan c).masked = (if s.on CM_SR_PASR_EN then s.maskable else []) ∧ t.cmem = s.cmem) ∧
  (∀ (s : State) (k : Nat), s.gated 11 = false → s.lost 11 = false → s.on CM_REF_PATROL = true → s.on CM_CFG_ECC = true →
    s.cm.initDone = true → s.nextSector s.cm.patrolNext = some k →
    s.sectorPoisoned k = false →
    exec (.cmPatrolRead none) s = .next { s with cm := { s.cm with patrolNext := k + 1 } }) ∧
  (∀ (s : State) (k : Nat), s.gated 11 = false → s.lost 11 = false → s.on CM_REF_PATROL = true → s.on CM_CFG_ECC = true →
    s.cm.initDone = true → s.nextSector s.cm.patrolNext = some k →
    ∃ t, exec (.cmPatrolRead (some .uncorrectable)) s = .next t ∧ (kvGet t.cm.poison k).isSome = true ∧
      t.val (CM_CH_UE (s.cmChannel (32 * k))) = (s.val (CM_CH_UE (s.cmChannel (32 * k))) + 1) % 2 ^ 32 ∧ t.cmem = s.cmem) ∧
  (∀ (s : State) (c : Fin 16) (k : Fin 2) (drift stall : Nat), s.gated 11 = false → s.lost 11 = false → 16 < drift →
    ∃ t, exec (.cmWckOscCheck c k drift stall) s = .next t ∧
      t.val (CM_CH_STALL c) = (s.val (CM_CH_STALL c) + s.cmClocks (1000 * min stall 200)) % 2 ^ 32 ∧
      (∀ a, a ≠ CM_CH_STALL c → t.reg a = s.reg a)) ∧
  (∀ (s : State) (found : List (Option DramFound)), s.devState = 4 → s.power.setupFirst = true →
    s.on (SYN_STATUS_LOCKED 11) = true →
    ∃ t, exec (.dramTrainingDone found) s = .next t ∧ t.cm.begun = true ∧
      (s.cmN ≤ found.length → (found.take s.cmN).all Option.isSome = true →
        t.on CM_STATUS_TRAINED = true ∧ t.on CM_STATUS_TRAIN_FAIL = false) ∧
      ((found.take s.cmN).any Option.isNone = true →
        t.on CM_STATUS_TRAINED = false ∧ t.on CM_STATUS_TRAIN_FAIL = true ∧ t.cm.usable = false))

/-- The hive's nodes (R358 to R370, R384). The election's tie rules are assumption 22. -/
def Obligations.HiveFindsRootAndRoutes : Prop :=
  (∀ s : State, s.khIn = true → s.due s.kh.wagAt 1000 = true →
    ∃ t, exec .khWaggleSend s = .next t ∧ t.regs = s.regs ∧ t.kh = { s.kh with wagAt := some s.now } ∧
    t.out = s.out ++ s.khPorts.flatMap fun dp => s.sends dp (.waggle (s.waggle dp))) ∧
  (∀ s : State, s.khIn = false ∨ s.due s.kh.wagAt 1000 = false → exec .khWaggleSend s = .next s) ∧
  (∀ (s : State) (dp : Fin 64) (w : KhWaggle), s.khIn = true → s.klUp dp = true → s.kh.root = none → s.kh.nbrs = [] →
    s.get KH_CFG_PRIORITY = 0 → w.rootHops < 64 → w.rootPrio ≠ 0 → w.rootSerial.toNat ≠ s.khSerial → s.khAddr ≠ 0 →
    s.qualified 3 = false → s.following ≠ some 3 →
    ∃ t, exec (.khWaggleReceive dp w) s = .next t ∧ kvGet t.kh.nbrs dp = some ⟨w, s.now⟩ ∧
      t.kh.root = some ⟨w.rootSerial, w.rootAddr, w.rootClass, w.rootPrio, w.rootHops + 1⟩ ∧
      t.get KH_ROOT_ADDR = w.rootAddr.toNat ∧ t.get KH_STATUS_HOPS = w.rootHops + 1 ∧ t.on KH_STATUS_ROOT = false ∧ t.out = s.out) ∧
  (∀ (s : State) (dp : Fin 64) (w : KhWaggle), s.khIn = true → s.klUp dp = true → s.kh.root = none → s.kh.nbrs = [] →
    s.get KH_CFG_PRIORITY = 0 → w.rootHops < 64 → w.rootPrio ≠ 0 → w.rootSerial.toNat ≠ s.khSerial → s.khAddr = 0 →
    s.on KH_CFG_ADDR_MODE = false → s.kh.routes = [] → s.qualified 3 = false → s.following ≠ some 3 →
    ∃ t, exec (.khWaggleReceive dp w) s = .next t ∧ t.kh.root.map (·.serial) = some w.rootSerial ∧
      t.out = s.out ++ s.sends dp (.addrReq (BitVec.ofNat 64 s.khSerial))) ∧
  (∀ (s : State) (dp : Fin 64) (w : KhWaggle), s.khIn = true → s.klUp dp = true → s.kh.root = none → s.kh.nbrs = [] →
    s.get KH_CFG_PRIORITY ≠ 0 → w.rootPrio = 0 → s.khAddr ≠ 0 →
    s.qualified 3 = false → s.following ≠ some 3 →
    ∃ t, exec (.khWaggleReceive dp w) s = .next t ∧ t.khIsRoot = true ∧ t.on KH_STATUS_ROOT = true ∧
      t.get KH_ROOT_ADDR = s.khAddr ∧ t.get KH_STATUS_HOPS = 0 ∧ t.out = s.out) ∧
  (∀ (s : State) (dp : Fin 64) (w : KhWaggle), s.klUp dp = false → exec (.khWaggleReceive dp w) s = .next s) ∧
  (∀ (s : State) (dp : Fin 64) (n : KhNbr), kvGet s.kh.nbrs dp = some n → s.khIn = true → s.khAddr ≠ 0 →
    tLt s.now (tAdd n.at_ (usTicks 3000)) = false →
    ∃ t, exec (.khNeighbourLost dp) s = .next t ∧ kvGet t.kh.nbrs dp = none ∧ t.kh.seq = s.kh.seq + 1) ∧
  (∀ (s : State) (dp : Fin 64) (n : KhNbr), kvGet s.kh.nbrs dp = some n → tLt s.now (tAdd n.at_ (usTicks 3000)) = true →
    exec (.khNeighbourLost dp) s = .next s) ∧
  (∀ s : State, s.khIn = true → s.khAddr ≠ 0 → s.due s.kh.lsaAt 100000 = true ∨ s.kh.lsaWas ≠ s.lsaSays → s.khLinks.length ≤ 7 →
    ∃ t, exec .khLsaSend s = .next t ∧ t.kh.seq = s.kh.seq + 1 ∧ t.regs = s.regs ∧ (s.out ++ s.khPorts.flatMap fun dp =>
      s.sends dp (.lsa ⟨BitVec.ofNat 16 s.khAddr, BitVec.ofNat 64 s.khSerial, s.kh.seq + 1, 0, 1, BitVec.ofNat 8 s.khHealth, s.khLinks⟩)) <+: t.out) ∧
  (∀ (s : State) (dp : Fin 64) (m : KhLsa) (n : KhNode), s.khIn = true → s.klUp dp = true → m.origin.toNat ≠ s.khAddr →
    n = kvGetD s.kh.nodes m.origin.toNat {} → n.links = [] ∨ seqNewer m.seq n.seq = true → bits m.health.toNat 2 2 = 0 →
    ∃ t, exec (.khLsaReceive dp m) s = .next t ∧ t.regs = s.regs ∧ kvGet t.kh.nodes m.origin.toNat =
        some { n with seq := m.seq, serial := m.serial, health := m.health, links := [(m.frag, m.links)] } ∧
      t.out = s.out ++ (s.khPorts.filter fun q => some q != some dp.val).flatMap fun q => s.sends q (.lsa m)) ∧
  (∀ (s : State) (dp : Fin 64) (m : KhLsa) (n : KhNode), m.origin.toNat ≠ s.khAddr → n = kvGetD s.kh.nodes m.origin.toNat {} →
    n.links ≠ [] → seqNewer m.seq n.seq = false → m.seq ≠ n.seq → exec (.khLsaReceive dp m) s = .next s) ∧
  (∀ (s : State) (dp : Fin 64) (m : KhLsa), s.khIn = true → s.klUp dp = true → m.origin.toNat = s.khAddr →
    m.serial.toNat < s.khSerial → s.khIsRoot = false →
    ∃ t, exec (.khLsaReceive dp m) s = .next t ∧ t.khAddr = 0 ∧ t.get KH_STATUS_ADDR_STATE = 3 ∧ t.get KH_CFG_REASON = 0x05B0) ∧
  (∀ (s : State) (dp : Fin 64) (m : KhSwarms) (n : KhNode), s.khIn = true → s.klUp dp = true → m.origin.toNat ≠ s.khAddr →
    n = kvGetD s.kh.nodes m.origin.toNat {} → n.swarms = [] ∨ seqNewer m.seq n.swSeq = true →
    ∃ t, exec (.khSwarmsReceive dp m) s = .next t ∧ t.regs = s.regs ∧
      kvGet t.kh.nodes m.origin.toNat = some { n with swSeq := m.seq, swarms := [(m.frag, m.ids)] } ∧
      t.out = s.out ++ (s.khPorts.filter fun q => some q != some dp.val).flatMap fun q => s.sends q (.swarms m)) ∧
  (∀ (s : State) (r : KhRoot), s.kh.root = some r → s.khIn = true → s.khIsRoot = false →
    tLt s.now (tAdd s.kh.rootSeen (usTicks 300000)) = false → s.kh.nbrs = [] → s.get KH_CFG_PRIORITY = 0 →
    s.qualified 3 = false →
    ∃ t, exec .khRootTimeout s = .next t ∧ t.kh.root = none ∧ t.val KH_ROOT = 0 ∧ t.get KH_STATUS_HOPS = 0 ∧ t.out = s.out) ∧
  (∀ (s : State) (r : KhRoot), s.kh.root = some r → tLt s.now (tAdd s.kh.rootSeen (usTicks 300000)) = true →
    exec .khRootTimeout s = .next s) ∧
  (∀ (s : State) (b : KhRoot) (u : DevTime), s.kh.higher = some (b, u) → s.khIn = true → tLe (tAdd u (2 ^ 48)) s.now = true →
    s.khAddr ≠ 0 → s.qualified 3 = false → s.following ≠ some 3 →
    ∃ t, exec .khRootTakeover s = .next t ∧ t.kh.root = some b ∧ t.kh.higher = none ∧ t.get KH_ROOT_ADDR = b.addr.toNat ∧ t.out = s.out) ∧
  (∀ (s : State) (b : KhRoot) (u : DevTime), s.kh.higher = some (b, u) → tLe (tAdd u (2 ^ 48)) s.now = false →
    exec .khRootTakeover s = .next s) ∧
  (∀ s : State, s.khIn = true → s.khRoutes ≠ s.kh.routes →
    ∃ t, exec .khRouteInstall s = .next t ∧ t.kh.routes = s.khRoutes ∧ t.val KH_TOPO = (s.val KH_TOPO + 1) % 2 ^ 32 ∧
      t.on KH_STATUS_TOPO_CHG = true) ∧
  (∀ s : State, s.khRoutes = s.kh.routes → exec .khRouteInstall s = .next s) ∧
  (∀ (s : State) (dp : Fin 64) (n : BitVec 64), s.khIn = true → s.klUp dp = true → s.khIsRoot = true → kvGet s.kh.grants n.toNat = none →
    s.get KH_POOL_LO ≤ s.get KH_POOL_HI → s.khAddr ≠ s.get KH_POOL_LO → kvGet s.kh.nodes (s.get KH_POOL_LO) = none →
    s.kh.grants.any (fun q => q.2 = s.get KH_POOL_LO) = false →
    ∃ t, exec (.khAddrReq dp n) s = .next t ∧ kvGet t.kh.grants n.toNat = some (s.get KH_POOL_LO) ∧ t.regs = s.regs ∧
      t.out = s.out ++ s.sends dp (.addrGrant n (BitVec.ofNat 16 (s.get KH_POOL_LO)))) ∧
  (∀ (s : State) (dp : Fin 64) (n : BitVec 64) (a : Nat), s.khIn = true → s.klUp dp = true → s.khIsRoot = true →
    kvGet s.kh.grants n.toNat = some a →
    exec (.khAddrReq dp n) s = .next { s with out := s.out ++ s.sends dp (.addrGrant n (BitVec.ofNat 16 a)) }) ∧
  (∀ (s : State) (dp : Fin 64) (n : BitVec 64) (q : Nat), s.khIn = true → s.klUp dp = true → s.khIsRoot = false → s.khRootPort = some q →
    ∃ t, exec (.khAddrReq dp n) s = .next t ∧ kvGet t.kh.reqs n.toNat = some (dp.val, s.now) ∧ t.regs = s.regs ∧
      t.out = s.out ++ s.sends q (.addrReq n)) ∧
  (∀ (s : State) (dp : Fin 64) (n : BitVec 64) (a : BitVec 16), s.khIn = true → s.klUp dp = true → n.toNat = s.khSerial →
    s.khAddr = 0 → s.on KH_CFG_ADDR_MODE = false → 1 ≤ a.toNat → a.toNat ≤ 0xFEFF →
    ∃ t, exec (.khAddrGrant dp n a) s = .next t ∧ t.khAddr = a.toNat ∧ t.get KH_STATUS_ADDR_STATE = 2 ∧ t.out = s.out) ∧
  (∀ (s : State) (dp : Fin 64) (n : BitVec 64) (a : BitVec 16) (q : Nat) (u : DevTime), s.khIn = true → s.klUp dp = true →
    n.toNat ≠ s.khSerial → kvGet s.kh.reqs n.toNat = some (q, u) →
    ∃ t, exec (.khAddrGrant dp n a) s = .next t ∧ kvGet t.kh.reqs n.toNat = none ∧ t.regs = s.regs ∧
      t.out = s.out ++ (if tLt (tAdd u (usTicks 10000)) s.now then [] else s.sends q (.addrGrant n a))) ∧
  (∀ (s : State) (p : Fin 5) (v : Word), s.mayWrite p KH_NODE_Q = true → bits v.toNat 15 0 ≠ 0 → bits v.toNat 15 0 = s.khAddr →
    ∃ t, exec (.khNodeQuery p v) s = .next t ∧ t.on KH_NODE_INFO_PRESENT = true ∧ t.get KH_NODE_INFO_HOPS = 0 ∧
      t.get KH_NODE_Q_ADDR = bits v.toNat 15 0 ∧ (∀ a, a ≠ KH_NODE_Q → a ≠ KH_NODE_INFO → t.reg a = s.reg a) ∧ t.out = s.out) ∧
  (∀ (s : State) (p : Fin 5) (v : Word) (r : KhRoute), s.mayWrite p KH_NODE_Q = true → bits v.toNat 15 0 ≠ s.khAddr →
    kvGet s.kh.routes (bits v.toNat 15 0) = some r →
    ∃ t, exec (.khNodeQuery p v) s = .next t ∧ t.on KH_NODE_INFO_PRESENT = true ∧ t.get KH_NODE_INFO_HOPS = r.hops % 256 ∧
      t.get KH_NODE_INFO_HEALTH = (kvGetD s.kh.nodes (bits v.toNat 15 0) {}).health.toNat) ∧
  (∀ (s : State) (p : Fin 5) (v : Word), s.mayWrite p KH_NODE_Q = true → bits v.toNat 15 0 ≠ s.khAddr →
    kvGet s.kh.routes (bits v.toNat 15 0) = none →
    ∃ t, exec (.khNodeQuery p v) s = .next t ∧ t.on KH_NODE_INFO_PRESENT = false)

/-- Stream contexts (R374 to R378, R387). -/
def Obligations.ContextsOpenAndClose : Prop :=
  (∀ (s u : State) (p : Fin 5) (c : Fin 4096) (v : Word) (dp i : Nat), s.mayWrite p (KH_SC_CTL c) = true → s.ctxOn c = false →
    bits v.toNat 0 0 = 1 →
    u = (s.setVal (KH_SC_MAXREC c) (s.streamMax (s.ctxStream c))).setVal (KH_SC_RATE c) (s.streamRate (s.ctxStream c)) →
    u.ctxCheck c = 0 → s.on (KH_SC_DEST_SWARM c) = false → s.get (KH_SC_DEST_ADDR c) ≠ s.khAddr →
    s.routePort (s.get (KH_SC_DEST_ADDR c)) = some dp → (s.klPort dp).map.getLast? = some i →
    ∃ t, exec (.khScOn p c v) s = .next t ∧ t.ctxOn c = true ∧ t.ctxRole c = 0 ∧ t.get (KH_SC_CTL_REASON c) = 0 ∧
      t.on (KH_SC_STATUS_OPENING c) = true ∧ (t.ctxOf c).outs = [dp] ∧ (t.ctxOf c).wait = 1 ∧
      t.val (KH_SC_MAXREC c) = s.streamMax (s.ctxStream c) % 2 ^ 32 ∧ t.val (KH_SC_RATE c) = s.streamRate (s.ctxStream c) % 2 ^ 32 ∧
      (t.out.drop s.out.length).map Emission.announced = [some (68 * (dp / 32) + i, BitVec.ofNat 16 (s.ctxHive c), s.ctxStream c,
        BitVec.ofNat 16 (s.get (KH_SC_DEST_ADDR c)), 1, true)]) ∧
  (∀ (s u : State) (p : Fin 5) (c : Fin 4096) (v : Word), s.mayWrite p (KH_SC_CTL c) = true → s.ctxOn c = false →
    bits v.toNat 0 0 = 1 →
    u = (s.setVal (KH_SC_MAXREC c) (s.streamMax (s.ctxStream c))).setVal (KH_SC_RATE c) (s.streamRate (s.ctxStream c)) →
    u.ctxCheck c ≠ 0 →
    ∃ t, exec (.khScOn p c v) s = .next t ∧ t.ctxOn c = false ∧ t.kh = s.kh ∧ t.out = s.out ∧
      t.get (KH_SC_CTL_REASON c) = u.ctxCheck c % 65536) ∧
  (∀ (s : State) (p : Fin 5) (c : Fin 4096) (v : Word), s.mayWrite p (KH_SC_CTL c) = true → s.ctxOn c = true →
    s.on (KH_SC_CTL_AUTO c) = false → s.ctxRole c = 0 → bits v.toNat 0 0 = 0 →
    ∃ t, exec (.khScOn p c v) s = .next t ∧ t.ctxOn c = false ∧ t.get (KH_SC_CTL_REASON c) = 0 ∧ kvGet t.kh.ctx c = none ∧
      (t.out.drop s.out.length).map Emission.announced = (s.ctxOf c).outs.filterMap fun dp =>
        (s.klPort dp).map.getLast?.map fun i => some (68 * (dp / 32) + i, BitVec.ofNat 16 (s.ctxHive c), s.ctxStream c,
          BitVec.ofNat 16 (s.get (KH_SC_DEST_ADDR c)), 1, false)) ∧
  (∀ (s : State) (p : Fin 5) (c : Fin 4096) (v : Word), s.mayWrite p (KH_SC_CTL c) = true → s.ctxOn c = true →
    s.on (KH_SC_CTL_AUTO c) = true →
    exec (.khScOn p c v) s = .next ((s.put (KH_SC_CTL_REASON c) 0x07B0).recordRefusal p (KH_SC_CTL c) true 0x07B0)) ∧
  (∀ (s : State) (p : Fin 5) (c : Fin 4096) (v : Word), s.mayWrite p (KH_SC_CTL c) = true → s.ctxOn c = decide (bits v.toNat 0 0 = 1) →
    s.on (KH_SC_CTL_AUTO c) = false → s.ctxRole c = 0 → exec (.khScOn p c v) s = .next s) ∧
  (∀ (s : State) (dp : Fin 64) (m : KhAnnounce) (k i c : Nat), s.khIn = true → s.klUp dp = true → m.hive.toNat ≠ s.khAddr →
    m.opening = true → m.swarm = false → m.dest.toNat = s.khAddr → s.ctxFind m.hive.toNat m.stream = none →
    s.sinkOf m.hive.toNat m.stream none = some (k, i, some c) → s.sinkCheck k i c m.rate m.maxrec (ratio (m.rate * 1000000 : Nat) (max 1 m.maxrec)) = 0 →
    (s.ctxTied c m.rate (s.ctxPorts m.stream (some dp.val) [] true k i)).isSome = true → m.budget = 0 →
    ∃ t, exec (.khAnnounce dp m) s = .next t ∧ t.ctxOn c = true ∧ t.ctxRole c = 2 ∧ t.on (KH_SC_STATUS_OPEN c) = true ∧
      (t.ctxOf c).here = true ∧ (t.ctxOf c).inPort = some dp.val ∧ t.val (KH_SC_RATE c) = m.rate % 2 ^ 32 ∧
      t.out = s.out ++ s.sends dp (.answer ⟨m.hive, m.stream, 0, 0, pathBound m.hops m.block m.maxrec m.lanes⟩)) ∧
  (∀ (s : State) (dp : Fin 64) (m : KhAnnounce) (c : Nat), s.khIn = true → s.klUp dp = true → m.hive.toNat ≠ s.khAddr →
    m.opening = true → m.swarm = false → m.dest.toNat = s.khAddr → s.ctxFind m.hive.toNat m.stream = none → s.ctxFree = some c →
    s.sinkOf m.hive.toNat m.stream none = none →
    exec (.khAnnounce dp m) s = .next { s with out := s.out ++ s.sends dp (.answer
      ⟨m.hive, m.stream, 0x03B1, BitVec.ofNat 16 s.khAddr, pathBound m.hops m.block m.maxrec m.lanes⟩) }) ∧
  (∀ (s : State) (dp : Fin 64) (m : KhAnnounce) (c q i : Nat), s.khIn = true → s.klUp dp = true → m.hive.toNat ≠ s.khAddr →
    m.opening = true → m.swarm = false → m.dest.toNat ≠ s.khAddr → s.ctxFind m.hive.toNat m.stream = none → s.ctxFree = some c →
    s.routePort m.dest.toNat = some q → s.portFits q c m.rate = true → (s.klPort q).map.getLast? = some i →
    (s.ctxTied c m.rate (s.ctxPorts m.stream (some dp.val) [q] false 0 0)).isSome = true →
    ∃ t, exec (.khAnnounce dp m) s = .next t ∧ t.ctxOn c = true ∧ t.ctxRole c = 1 ∧ (t.ctxOf c).outs = [q] ∧
      (t.ctxOf c).inPort = some dp.val ∧ t.ctxStream c = m.stream ∧
      (t.out.drop s.out.length).map Emission.announced =
        [some (68 * (q / 32) + i, m.hive, m.stream, m.dest, m.hops + 1, true)]) ∧
  (∀ (s : State) (dp : Fin 64) (m : KhAnnounce) (c : Nat), s.khIn = true → s.klUp dp = true → m.hive.toNat ≠ s.khAddr →
    m.opening = false → s.ctxFind m.hive.toNat m.stream = some c → (s.ctxOf c).inPort = some dp.val →
    ∃ t, exec (.khAnnounce dp m) s = .next t ∧ t.ctxOn c = false ∧ kvGet t.kh.ctx c = none ∧
      (t.out.drop s.out.length).map Emission.announced = (s.ctxOf c).outs.filterMap fun q =>
        (s.klPort q).map.getLast?.map fun i => some (68 * (q / 32) + i, m.hive, m.stream, m.dest, m.hops + 1, false)) ∧
  (∀ (s : State) (dp : Fin 64) (m : KhAnnounce), s.klUp dp = false → exec (.khAnnounce dp m) s = .next s) ∧
  (∀ (s : State) (dp : Fin 64) (m : KhAnswer) (c : Nat), s.khIn = true → s.klUp dp = true → s.ctxFind m.hive.toNat m.stream = some c →
    (s.ctxOf c).wait = 1 → (s.ctxOf c).outs = [dp.val] → (s.ctxOf c).inPort = none → (s.ctxOf c).bad = 0 → (s.ctxOf c).bound = 0 →
    m.reason = 0 →
    ∃ t, exec (.khAnswer dp m) s = .next t ∧ t.on (KH_SC_STATUS_OPEN c) = true ∧ t.on (KH_SC_STATUS_OPENING c) = false ∧
      t.on (KH_SC_STATUS_PARTIAL c) = false ∧ t.get (KH_SC_STATUS_BOUND c) = ceilDiv m.bound 10000 % 65536 ∧ t.out = s.out) ∧
  (∀ (s : State) (dp : Fin 64) (m : KhAnswer) (c : Nat), s.khIn = true → s.klUp dp = true → s.ctxFind m.hive.toNat m.stream = some c →
    (s.ctxOf c).wait = 1 → (s.ctxOf c).outs = [dp.val] → (s.ctxOf c).inPort = none → (s.ctxOf c).bad = 0 → (s.ctxOf c).good = 0 →
    m.reason ≠ 0 → s.on (KH_SC_CTL_AUTO c) = false → s.ctxRole c = 0 →
    ∃ t, exec (.khAnswer dp m) s = .next t ∧ t.ctxOn c = false ∧ t.get (KH_SC_CTL_REASON c) = m.reason % 65536 ∧
      kvGet t.kh.ctx c = none ∧ t.out = s.out) ∧
  (∀ (s : State) (dp : Fin 64) (m : KhAnswer), s.ctxFind m.hive.toNat m.stream = none → exec (.khAnswer dp m) s = .next s)

/-- Records, credits and management requests of the hive (R371 to R385). -/
def Obligations.RecordsPassTheHive : Prop :=
  (∀ (s : State) (dp : Fin 64) (k : Fin 3) (r : YRec) (c : Nat), s.gated (kw dp) = false → s.klUp dp = true → s.khIn = true → s.running = true →
    r.hive.toNat ≠ s.khAddr → s.ctxFind r.hive.toNat r.stream = some c → s.on (KH_SC_STATUS_SHED c) = false →
    (s.ctxOf c).outs = [] → (s.ctxOf c).here = true →
    ∃ t, exec (.klRecordReceive dp k r) s = .next t ∧ (t.ctxOf c).queue = (s.ctxOf c).queue ++ [(some dp.val, r)] ∧
      t.regs = s.regs ∧ t.out = s.out ∧ t.kl = s.kl) ∧
  (∀ (s : State) (dp : Fin 64) (k : Fin 3) (r : YRec), s.gated (kw dp) = false → s.klUp dp = true → s.khIn = true → s.running = true →
    s.ctxFind r.hive.toNat r.stream = none →
    ∃ t, exec (.klRecordReceive dp k r) s = .next t ∧ t.val KH_NOCTX = (s.val KH_NOCTX + 1) % 2 ^ 32 ∧ t.kh = s.kh ∧
      (t.klPort dp).freed = (s.klPort dp).freed.set k (((s.klPort dp).freed.getD k 0 + recFrames r) % 2 ^ 32) ∧ t.out = s.out) ∧
  (∀ (s : State) (dp : Fin 64) (k : Fin 3) (r : YRec), s.klUp dp = false → exec (.klRecordReceive dp k r) s = .next s) ∧
  (∀ (s : State) (dp : Fin 64) (o : KhOut), s.gated (kw dp) = false → s.khIn = true → s.klUp dp = true → s.running = true →
    s.flow.hiveOut = [] →
    kvGetD s.kh.outs dp [] = [o] → o.cls < 3 → s.khCredit dp o.cls o.rec_ = true → s.khExpired o.ctx o.rec_ = false →
    ∃ t, exec (.khRecordStart dp) s = .next t ∧ kvGetD t.kh.outs dp [] = [] ∧ t.regs = s.regs ∧
      t.out = s.out ++ [.link dp o.rec_] ∧
      (t.klPort dp).used = (s.klPort dp).used.set o.cls (((s.klPort dp).used.getD o.cls 0 + recFrames o.rec_) % 2 ^ 32)) ∧
  (∀ (s : State) (dp : Fin 64) (o : KhOut), s.gated (kw dp) = false → s.khIn = true → s.klUp dp = true → s.running = true →
    s.flow.hiveOut = [] →
    kvGetD s.kh.outs dp [] = [o] → o.cls < 3 → s.khCredit dp o.cls o.rec_ = true → s.khExpired o.ctx o.rec_ = true → o.ctx < 4096 →
    ∃ t, exec (.khRecordStart dp) s = .next t ∧ kvGetD t.kh.outs dp [] = [{ o with rec_ := dropNote o.rec_ }] ∧ t.out = s.out ∧
      t.val KH_EXPIRED = (s.val KH_EXPIRED + 1) % 2 ^ 32 ∧ t.val (KH_SC_DROP o.ctx) = (s.val (KH_SC_DROP o.ctx) + 1) % 2 ^ 32) ∧
  (∀ (s : State) (c : Fin 4096) (f : Option Nat) (r : YRec) (l : List (Option Nat × YRec)), s.khIn = true → s.running = true →
    s.ctxOn c = true → s.flow.hiveOut = [] → (s.ctxOf c).queue = (f, r) :: l → (s.ctxOf c).track.last = none → (s.ctxOf c).owed = [] →
    isNote r = false → s.khExpired c r = false →
    ∃ t, exec (.khRecordDeliver c true) s = .next t ∧ (t.ctxOf c).queue = l ∧ (t.ctxOf c).track.last = some r ∧ t.regs = s.regs ∧
      t.out = s.out ++ [.deliver (s.get (KH_SC_SINK_KIND c)) (s.get (KH_SC_SINK_INDEX c)) r]) ∧
  (∀ (s : State) (c : Fin 4096) (f : Option Nat) (r a : YRec) (l : List (Option Nat × YRec)), s.khIn = true → s.running = true →
    s.ctxOn c = true → s.flow.hiveOut = [] → (s.ctxOf c).queue = (f, r) :: l → (s.ctxOf c).track.last = some a → (s.ctxOf c).owed = [] →
    (s.ctxOf c).noted = false → a.seq < r.seq → r.seq ≠ a.seq + 1 → isNote r = false → s.khExpired c r = false →
    ∃ t, exec (.khRecordDeliver c true) s = .next t ∧ (t.ctxOf c).queue = l ∧ (t.ctxOf c).track.last = some r ∧
      t.out = s.out ++ [.deliver (s.get (KH_SC_SINK_KIND c)) (s.get (KH_SC_SINK_INDEX c))
          (s.gapRecOf r (a.seq + 1) (missTime (s.ctxOf c).track a r) (s.missing (s.ctxOf c).track a r) 0x0E),
        .deliver (s.get (KH_SC_SINK_KIND c)) (s.get (KH_SC_SINK_INDEX c)) r]) ∧
  (∀ (s : State) (c : Fin 4096) (f : Option Nat) (r a : YRec) (l : List (Option Nat × YRec)) (room : Bool), s.khIn = true →
    s.running = true → s.ctxOn c = true → s.flow.hiveOut = [] → (s.ctxOf c).queue = (f, r) :: l → (s.ctxOf c).track.last = some a →
    r.seq ≤ a.seq → isNote r = false →
    ∃ t, exec (.khRecordDeliver c room) s = .next t ∧ (t.ctxOf c).queue = l ∧ (t.ctxOf c).track.last = some a ∧ t.out = s.out ∧
      t.val (KH_SC_DROP c) = (s.val (KH_SC_DROP c) + 1) % 2 ^ 32) ∧
  (∀ (s : State) (dp : Fin 64), s.khIn = true → s.klUp dp = true → s.due (s.klPort dp).creditAt 2 = true →
    exec (.khCreditSend dp) s = .next { s.modKlPort dp (fun p => { p with creditAt := some s.now }) with out := s.out ++ s.sends dp (.credit
    (BitVec.ofNat 32 ((s.klPort dp).freed.getD 0 0)) (BitVec.ofNat 32 ((s.klPort dp).freed.getD 1 0))
    (BitVec.ofNat 32 ((s.klPort dp).freed.getD 2 0))) }) ∧
  (∀ (s : State) (dp : Fin 64) (a b d : Word), s.khIn = true → s.klUp dp = true →
    ∃ t, exec (.khCreditReceive dp a b d) s = .next t ∧ (t.klPort dp).got = [a.toNat, b.toNat, d.toNat] ∧
      (t.klPort dp).used = (s.klPort dp).used ∧ t.regs = s.regs ∧ t.kh = s.kh ∧ t.out = s.out) ∧
  (∀ (s : State) (p : Fin 5) (v : Word) (dp : Nat), s.mayWrite p KH_MG_CTL = true → bits v.toNat 0 0 = 1 →
    s.on KH_MG_CTL_BUSY = false → s.khIn = true → s.khAddr ≠ 0 → s.routePort (s.val KH_MG_DEST % 65536) = some dp →
    ∃ t, exec (.khMgGo p v) s = .next t ∧ t.on KH_MG_CTL_BUSY = true ∧ t.get KH_MG_CTL_REASON = 0 ∧ t.kh.mg = some (s.kh.tag, s.now) ∧
      t.out = s.out ++ s.sends dp (.mreq ⟨BitVec.ofNat 16 (s.val KH_MG_DEST % 65536), BitVec.ofNat 16 s.khAddr,
        BitVec.ofNat 16 s.kh.tag, decide (bits v.toNat 1 1 = 1), BitVec.ofNat 24 (s.val KH_MG_ADDR), s.reg KH_MG_DATA⟩)) ∧
  (∀ (s : State) (p : Fin 5) (v : Word), s.mayWrite p KH_MG_CTL = true → bits v.toNat 0 0 = 1 → s.on KH_MG_CTL_BUSY = true →
    exec (.khMgGo p v) s = .next ((s.put KH_MG_CTL_REASON 0x05B2).recordRefusal p KH_MG_CTL true 0x05B2)) ∧
  (∀ (s : State) (dp : Fin 64) (m : KhMrsp) (tag : Nat) (u : DevTime), s.khIn = true → s.klUp dp = true →
    m.requester.toNat = s.khAddr → s.kh.mg = some (tag, u) → tag = m.tag.toNat →
    ∃ t, exec (.khMrsp dp m) s = .next t ∧ t.kh.mg = none ∧ t.on KH_MG_CTL_BUSY = false ∧ t.get KH_MG_CTL_REASON = m.reason.toNat ∧
      t.reg KH_MG_DATA = (if s.on KH_MG_CTL_WRITE then s.reg KH_MG_DATA else m.data) ∧ t.out = s.out) ∧
  (∀ (s : State) (dp : Fin 64) (m : KhMrsp) (q : Nat), s.khIn = true → s.klUp dp = true → m.requester.toNat ≠ s.khAddr →
    s.routePort m.requester.toNat = some q → exec (.khMrsp dp m) s = .next { s with out := s.out ++ s.sends q (.mrsp m) }) ∧
  (∀ (s : State) (tag : Nat) (u : DevTime), s.kh.mg = some (tag, u) → tLt s.now (tAdd u (usTicks 10000)) = false →
    ∃ t, exec .khMgTimeout s = .next t ∧ t.kh.mg = none ∧ t.on KH_MG_CTL_BUSY = false ∧ t.get KH_MG_CTL_REASON = 0x03B2 ∧
      t.out = s.out) ∧
  (∀ (s : State) (tag : Nat) (u : DevTime), s.kh.mg = some (tag, u) → tLt s.now (tAdd u (usTicks 10000)) = true →
    exec .khMgTimeout s = .next s)

/-- Volumes (R422 to R434, R444, R448). What the last data of a closed volume hold is the model's choice (NOTES). -/
def Obligations.VolumesRecordAndClose : Prop :=
  (∀ (s : State) (fs : List BdFound) (b pg rt : Nat) (v0 v1 : Bool), s.devState = 4 → s.power.setupFirst = true → s.bd.begun = false →
    s.bd.chans.all (fun q => decide (q.1 < 32)) = true →
    ∃ t, exec (.flashTrainingDone fs b pg rt v0 v1) s = .next t ∧ t.bd.begun = true ∧ t.bd.blocks = b ∧ t.bd.pages = pg ∧
      t.bd.slots = [] ∧ t.bd.spine0.valid = v0 ∧ t.bd.spine1.valid = v1 ∧ t.on BD_STATUS_MOUNTED = (v0 || v1) ∧
      t.on BD_STATUS_UNFORMATTED = !(v0 || v1) ∧ t.on BD_STATUS_SPINE_SINGLE = (v0 != v1)) ∧
  (∀ (s : State) (fs : List BdFound) (b pg rt : Nat) (v0 v1 : Bool), s.bd.begun = true →
    exec (.flashTrainingDone fs b pg rt v0 v1) s = .next s) ∧
  (∀ (s : State) (p : Fin 5) (i : Fin 32) (v : Word), s.mayWrite p (BD_VS_CTL i) = true → s.get (BD_VS_CTL_STATE i) = 0 →
    bits v.toNat 0 0 = 1 → (s.put (BD_VS_CTL_FULL_MODE i) (bits v.toNat 5 5)).volCheck i = 0 →
    s.bd.chans.all (fun q => decide (q.1 < 32)) = true →
    ∃ t, exec (.bdVsOpen p i v) s = .next t ∧ t.get (BD_VS_CTL_STATE i) = 1 ∧ t.get (BD_VS_CTL_REASON i) = 0 ∧
      (kvGet t.bd.slots i).map (·.vol) = some s.bd.nextVol ∧ t.bd.nextVol = s.bd.nextVol + 1 ∧
      (kvGet t.bd.vols s.bd.nextVol).map (fun x => (x.state, x.keys, x.bytes)) = some (.recording, s.slotKeys i, 0)) ∧
  (∀ (s : State) (p : Fin 5) (i : Fin 32) (v : Word), s.mayWrite p (BD_VS_CTL i) = true → s.get (BD_VS_CTL_STATE i) = 0 →
    bits v.toNat 0 0 = 1 → (s.put (BD_VS_CTL_FULL_MODE i) (bits v.toNat 5 5)).volCheck i ≠ 0 →
    ∃ t, exec (.bdVsOpen p i v) s = .next t ∧ t.get (BD_VS_CTL_STATE i) = 0 ∧ t.bd = s.bd ∧ t.kh = s.kh ∧
      t.get (BD_VS_CTL_REASON i) = (s.put (BD_VS_CTL_FULL_MODE i) (bits v.toNat 5 5)).volCheck i % 65536) ∧
  (∀ (s : State) (p : Fin 5) (i : Fin 32) (x : BdSlot) (v : BdVol), s.mayWrite p (BD_VS_CTL i) = true →
    s.on BD_STATUS_LOST = false → kvGet s.bd.slots i = some x → kvGet s.bd.vols x.vol = some v →
    s.bd.chans.all (fun q => decide (q.1 < 32)) = true → s.kh.ctx.all (fun q => decide (q.1 < 4096)) = true →
    ∃ t, exec (.bdVsClose p i) s = .next t ∧ t.get (BD_VS_CTL_STATE i) = 0 ∧ t.get (BD_VS_CTL_REASON i) = 0 ∧
      kvGet t.bd.slots i = none ∧
      (kvGet t.bd.vols x.vol).map (fun y => (y.state, y.bytes, y.recs)) = some (.closed, v.bytes, v.recs) ∧
      (v.bytes ≤ 16384 * x.next → (kvGet t.bd.vols x.vol).map (fun y => (y.durable, y.rounds)) =
        some (x.next, v.rounds ++ x.fronts.flatMap (·.rounds)))) ∧
  (∀ (s : State) (p : Fin 5) (i : Fin 32), s.mayWrite p (BD_VS_CTL i) = true → s.on BD_STATUS_LOST = true →
    ∃ t, exec (.bdVsClose p i) s = .next t ∧ t.get (BD_VS_CTL_REASON i) = 0x08D0 ∧ t.bd = s.bd) ∧
  (∀ (s : State) (i : Fin 32) (r : YRec) (x : BdSlot) (v : BdVol) (q : (Nat × Nat) × Nat), s.gated 12 = false → s.lost 12 = false →
    kvGet s.bd.slots i = some x → kvGet s.bd.vols x.vol = some v → s.bd.failing = false →
    (v.keys.zip (List.range 16)).find? (fun k => k.1.2 = r.stream.toNat && (k.1.1 = r.hive.toNat || (k.1.1 = 0 && r.hive.toNat = s.khAddr))) =
      some q → owedFor x.lost r = none →
    (∀ f ∈ x.fronts, (v.bytes + recSize r) / 16384 < x.next + (s.bdSec f.sec).perRound) →
    s.on (BD_VS_CTL_FULL_MODE i) = false ∨ x.fronts.all (fun f => decide (2 * f.pos < s.secStripes)) = true →
    ∃ t, exec (.bdRecordReceive i r true true) s = .next t ∧ t.regs = s.regs ∧ t.out = s.out ∧
      (kvGet t.bd.vols x.vol).map (fun y => (y.bytes, y.recs, y.durable)) =
        some (v.bytes + recSize r, v.recs ++ [⟨v.bytes, q.2, s.volSamples x.vol q.2 r, r⟩], v.durable)) ∧
  (∀ (s : State) (i : Fin 32) (r : YRec) (room : Bool) (x : BdSlot) (v : BdVol) (q : (Nat × Nat) × Nat), s.gated 12 = false → s.lost 12 = false →
    kvGet s.bd.slots i = some x → kvGet s.bd.vols x.vol = some v → s.bd.failing = false →
    (v.keys.zip (List.range 16)).find? (fun k => k.1.2 = r.stream.toNat && (k.1.1 = r.hive.toNat || (k.1.1 = 0 && r.hive.toNat = s.khAddr))) =
      some q →
    exec (.bdRecordReceive i r false room) s = .next (s.count (BD_VS_DISCARDED i) 1)) ∧
  (∀ (s : State) (i : Fin 32) (r : YRec) (x : BdSlot) (v : BdVol) (q : (Nat × Nat) × Nat), s.gated 12 = false → s.lost 12 = false →
    kvGet s.bd.slots i = some x → kvGet s.bd.vols x.vol = some v → s.bd.failing = false →
    (v.keys.zip (List.range 16)).find? (fun k => k.1.2 = r.stream.toNat && (k.1.1 = r.hive.toNat || (k.1.1 = 0 && r.hive.toNat = s.khAddr))) =
      some q → x.lost = [] →
    ∃ t, exec (.bdRecordReceive i r true false) s = .next t ∧ t.bd.vols = s.bd.vols ∧ t.out = s.out ∧
      (kvGet t.bd.slots i).map (·.lost) = some [s.gapRecOf r r.seq r.time (recSamples none r false) 1] ∧
      t.val (BD_VS_DISCARDED i) = (s.val (BD_VS_DISCARDED i) + 1) % 2 ^ 32) ∧
  (∀ (s : State) (i : Fin 32) (r : YRec) (ok room : Bool), kvGet s.bd.slots i = none →
    exec (.bdRecordReceive i r ok room) s = .next s) ∧
  (∀ (s : State) (i : Fin 32) (f : Fin 31) (x : BdSlot) (v : BdVol) (fr : BdFront) (rd : BdRound) (l : List BdRound),
    s.gated 12 = false → s.lost 12 = false → kvGet s.bd.slots i = some x → kvGet s.bd.vols x.vol = some v → x.fronts[f.val]? = some fr → fr.rounds = rd :: l → x.done = [] →
    v.durable = rd.lo → s.bd.failing = false →
    ∃ t, exec (.bdProgramDone i f []) s = .next t ∧ t.out = s.out ∧ t.bd.ckptLeaves = s.bd.ckptLeaves + rd.n ∧
      (kvGet t.bd.vols x.vol).map (fun y => (y.durable, y.rounds)) = some (rd.lo + rd.n, v.rounds ++ [rd]) ∧
      t.pair (BD_VS_LSEQ_LO i) (BD_VS_LSEQ_HI i) = (rd.lo + rd.n - 1) % 2 ^ 64) ∧
  (∀ (s w : State) (i : Fin 32) (f : Fin 31) (x : BdSlot) (v : BdVol) (fr : BdFront) (k : Nat), s.gated 12 = false → s.lost 12 = false →
    kvGet s.bd.slots i = some x →
    kvGet s.bd.vols x.vol = some v → x.fronts[f.val]? = some fr → s.secStripes < fr.pos + 12 →
    s.get (BD_VS_CFG_MAX_SECTIONS i) = 0 → s.on (BD_VS_CTL_FULL_MODE i) = false →
    (s.modSec fr.sec fun y => { y with full := true }).formSection x.vol ((x.fronts.map (·.sec)).filter (· != fr.sec)) = some (k, w) →
    ∃ t, exec (.bdSectionFull i f) s = .next t ∧ (kvGet t.bd.vols x.vol).map (fun y => (y.state, y.secs)) = some (v.state, v.secs ++ [k])) ∧
  (∀ (s : State) (i : Fin 32) (f : Fin 31) (x : BdSlot) (v : BdVol) (fr : BdFront), s.gated 12 = false → s.lost 12 = false →
    kvGet s.bd.slots i = some x →
    kvGet s.bd.vols x.vol = some v → x.fronts[f.val]? = some fr → s.secStripes < fr.pos + 12 →
    s.get (BD_VS_CFG_MAX_SECTIONS i) ≠ 0 → s.get (BD_VS_CFG_MAX_SECTIONS i) ≤ v.secs.length →
    s.on (BD_VS_CTL_FULL_MODE i) = false → s.bd.chans.all (fun q => decide (q.1 < 32)) = true →
    s.kh.ctx.all (fun q => decide (q.1 < 4096)) = true →
    ∃ t, exec (.bdSectionFull i f) s = .next t ∧ t.get (BD_VS_CTL_STATE i) = 0 ∧ t.get (BD_VS_CTL_REASON i) = 0x0AD0 ∧
      kvGet t.bd.slots i = none ∧ (kvGet t.bd.vols x.vol).map (·.state) = some .closed) ∧
  (∀ (s w u : State) (i : Fin 32) (f : Fin 31) (x : BdSlot) (v : BdVol) (fr : BdFront) (k : Nat), s.gated 12 = false → s.lost 12 = false →
    kvGet s.bd.slots i = some x → kvGet s.bd.vols x.vol = some v → x.fronts[f.val]? = some fr → s.secStripes < fr.pos + 12 →
    s.get (BD_VS_CFG_MAX_SECTIONS i) ≠ 0 → s.get (BD_VS_CFG_MAX_SECTIONS i) ≤ v.secs.length →
    s.on (BD_VS_CTL_FULL_MODE i) = true → (fr.rounds.any fun r => some r.sec = v.secs.head?) = false →
    (s.modSec fr.sec fun y => { y with full := true }).wrapDrop i (some f) = some w →
    w.formSection x.vol ((x.fronts.map (·.sec)).filter (· != fr.sec)) = some (k, u) →
    ∃ t, exec (.bdSectionFull i f) s = .next t ∧
      (kvGet t.bd.vols x.vol).map (fun y => (y.state, y.secs.getLast?)) = some (v.state, some k) ∧
      (kvGet t.bd.slots i).isSome = true) ∧
  (∀ (s : State) (i : Fin 32) (f : Fin 31) (x : BdSlot) (fr : BdFront), kvGet s.bd.slots i = some x → x.fronts[f.val]? = some fr →
    fr.pos + 12 ≤ s.secStripes → exec (.bdSectionFull i f) s = .next s) ∧
  (∀ s : State, s.gated 12 = false → s.lost 12 = false → s.bd.slots ≠ [] → tLe (tAdd s.bd.ckptAt (2 ^ 48)) s.now = true →
    ∃ t, exec .bdCheckpoint s = .next t ∧ t.bd.ckptAt = s.now ∧ t.bd.ckptLeaves = 0 ∧ t.bd.vols = s.bd.vols ∧ t.regs = s.regs ∧
      t.bd.ckpts.map (·.1) = (s.bd.vols.filter fun q => q.2.state = .recording).map (·.1)) ∧
  (∀ s : State, s.bd.slots = [] → exec .bdCheckpoint s = .next s) ∧
  (∀ (s : State) (p : Fin 5) (v : Word) (x : BdVol), s.mayWrite p BD_CAT_DEL = true → s.on BD_STATUS_LOST = false →
    s.on BD_STATUS_MOUNTED = true → s.volMayDelete (s.domain p) v.toNat = true → s.volRead v.toNat = false →
    kvGet s.bd.vols v.toNat = some x → x.state = .closed →
    ∃ t, exec (.bdCatDel p v) s = .next t ∧ (kvGet t.bd.vols v.toNat).map (·.state) = some .deleting ∧
      t.get BD_CTL_REASON = 0 ∧ (∀ n ∈ x.secs, (t.bdSec n).vol = none) ∧ t.out = s.out) ∧
  (∀ (s : State) (p : Fin 5) (v : Word), s.mayWrite p BD_CAT_DEL = true → s.on BD_STATUS_LOST = false →
    s.on BD_STATUS_MOUNTED = true → s.volMayDelete (s.domain p) v.toNat = false →
    exec (.bdCatDel p v) s = .next ((s.put BD_CTL_REASON 0x04D0).recordRefusal p BD_CAT_DEL true 0x04D0)) ∧
  (∀ (s : State) (n : Nat) (x : BdSec) (m : BdMember), s.gated 12 = false → s.lost 12 = false →
    kvGet s.bd.secs n = some x → x.vol = none → s.secRead x = false → x.members = [m] →
    (s.bdUnit (unitKey m.chan m.lun m.blk)).bad = false →
    ∃ t, exec (.bdEraseDone n) s = .next t ∧ kvGet t.bd.secs n = none ∧
      t.bdUnit (unitKey m.chan m.lun m.blk) = { erases := (s.bdUnit (unitKey m.chan m.lun m.blk)).erases + 1 }) ∧
  (∀ (s : State) (n k : Nat) (x : BdSec), kvGet s.bd.secs n = some x → x.vol = some k → exec (.bdEraseDone n) s = .next s) ∧
  (∀ (s : State) (v : Word) (e : Nat) (x : BdVol), kvGet s.bd.vols v.toNat = some x → x.state = .recovering →
    ∃ t, exec (.bdRecovery v e) s = .next t ∧ t.out = s.out ∧
      (kvGet t.bd.vols v.toNat).map (fun y => (y.state, y.recs.take (x.recs.filter fun r => r.at_ + recSize r.r ≤ 16384 * e).length)) =
        some (.closed, x.recs.filter fun r => r.at_ + recSize r.r ≤ 16384 * e) ∧
      (kvGet t.bd.vols v.toNat).map (fun y => (y.recs.drop (x.recs.filter fun r => r.at_ + recSize r.r ≤ 16384 * e).length).map
        fun r => (r.key, r.r.gapCause)) = some ((x.keys.zip (List.range 16)).map fun k => (k.2, 0x0F))) ∧
  (∀ (s : State) (v : Word) (e : Nat) (x : BdVol), kvGet s.bd.vols v.toNat = some x → x.state ≠ .recovering →
    exec (.bdRecovery v e) s = .next s)

/-- Flash (R436 to R452). The last bit of the growth of age is free (assumption 9). -/
def Obligations.FlashAgesAndIsRead : Prop :=
  (∀ (s : State) (c l : Fin 32) (k : Nat) (x : BdLun), (s.bdChan c).luns[l.val]? = some x → k < s.bd.blocks → x.grown < 15 →
    (s.bdUnit (unitKey c l k)).bad = false →
    ∃ t, exec (.bdOperationFail c l k) s = .next t ∧ (t.bdUnit (unitKey c l k)).bad = true ∧
      (t.bdUnit (unitKey c l k)).dirty = false ∧ (t.bdChan c).luns[l.val]? = some { x with grown := x.grown + 1 }) ∧
  (∀ (s : State) (c l : Fin 32) (k : Nat), (s.bdUnit (unitKey c l k)).bad = true → exec (.bdOperationFail c l k) s = .next s) ∧
  (∀ (s : State) (c l : Fin 32) (x : BdLun), (s.bdChan c).luns[l.val]? = some x → x.failed = false → x.spine = false →
    ∃ t, exec (.bdLunTimeout c l) s = .next t ∧ (t.bdChan c).luns = (s.bdChan c).luns.set l { x with failed := true } ∧
      t.bd.units = s.bd.units ∧ t.bd.vols = s.bd.vols) ∧
  (∀ (s : State) (c l : Fin 32) (x : BdLun), (s.bdChan c).luns[l.val]? = some x → x.failed = true →
    exec (.bdLunTimeout c l) s = .next s) ∧
  (∀ (s : State) (n w v : Nat) (x : BdSec), s.gated 12 = false → s.lost 12 = false →
    kvGet s.bd.secs n = some x → x.vol = some v → s.on BD_STATUS_QUIET = false →
    (kvGet s.bd.vols v).map (·.state) = some .closed →
    ∃ t, exec (.bdPatrolRead n w true) s = .next t ∧ kvGet t.bd.secs n = some { x with move := true } ∧ t.regs = s.regs ∧
      t.out = s.out) ∧
  (∀ (s : State) (n w : Nat) (b : Bool), s.on BD_STATUS_QUIET = true → exec (.bdPatrolRead n w b) s = .next s) ∧
  (∀ s : State, ∃ t, exec .bdAgeTick s = .next t ∧ t.regs = s.regs ∧ t.freshCount = s.freshCount + 1 ∧ t.bd.vols = s.bd.vols ∧
    t.bd.secs = s.bd.secs.map fun q => (q.1, { q.2 with age := q.2.age + (ageGrowth (s.getS BD_FLASH_TEMP_T) + s.freeNow % 2) })) ∧
  (∀ (s : State) (p : Fin 5) (v : Word), s.mayWrite p BD_FLASH_TEMP = true →
    ∃ t, exec (.bdFlashTempWrite p v) s = .next t ∧ t.get BD_FLASH_TEMP_T = bits v.toNat 15 0 ∧ t.bd.tempAt = s.now ∧
      (∀ a, a ≠ BD_FLASH_TEMP → t.reg a = s.reg a) ∧ t.out = s.out) ∧
  (∀ s : State, exec .bdFlashTempTimeout s =
    .next (if tLe (tAdd s.bd.tempAt (600 * 2 ^ 48)) s.now then s.put BD_FLASH_TEMP_T (55 * 16) else s)) ∧
  (∀ (s w : State) (n v k : Nat) (x : BdSec) (y : BdVol), s.gated 12 = false → s.lost 12 = false →
    kvGet s.bd.secs n = some x → x.vol = some v → x.move = true →
    s.secOpen n = false → s.on BD_STATUS_QUIET = false → s.formSection v [] = some (k, w) → k ≠ n → kvGet s.bd.vols v = some y →
    ∃ t, exec (.bdRelocateDone n) s = .next t ∧ (t.bdSec n).vol = none ∧ (t.bdSec k).full = true ∧ (t.bdSec k).vol = some v ∧
      (kvGet t.bd.vols v).map (fun z => (z.secs, z.recs)) = some (y.secs.map fun q => if q = n then k else q, y.recs)) ∧
  (∀ (s : State) (n : Nat), s.on BD_STATUS_QUIET = true → exec (.bdRelocateDone n) s = .next s) ∧
  (∀ (s : State) (n v l k : Nat) (x : BdSec) (m : BdMember), s.gated 12 = false → s.lost 12 = false →
    kvGet s.bd.secs n = some x → x.vol = some v → s.secOpen n = false →
    s.on BD_STATUS_QUIET = false → (x.members.filter fun q => q.retired) = [m] → (s.bdChan m.chan).failed = false →
    s.pickUnit m.chan [] = some (l, k) →
    ∃ t, exec (.bdRebuildDone n) s = .next t ∧ (t.bdUnit (unitKey m.chan l k)).owner = some n ∧
      (t.bdSec n).members = x.members.map fun q => if q = m then ⟨m.chan, l, k, false⟩ else q) ∧
  (∀ (s : State) (n : Nat), s.on BD_STATUS_QUIET = true → exec (.bdRebuildDone n) s = .next s) ∧
  (∀ s : State, s.on BD_STATUS_MOUNTED = true → s.on BD_STATUS_LOST = false → s.spineClear 0 = true →
    s.bd.chans.all (fun q => decide (q.1 < 32)) = true →
    ∃ t, exec (.bdSpineSnapshot 0) s = .next t ∧ t.bd.spine0 = { s.bd.spine0 with valid := true, half := !s.bd.spine0.half } ∧
      t.bd.spine1 = s.bd.spine1 ∧ t.on BD_STATUS_SPINE_SINGLE = !s.bd.spine1.valid) ∧
  (∀ s : State, s.on BD_STATUS_MOUNTED = true → s.on BD_STATUS_LOST = false → s.spineClear 16 = true →
    s.bd.chans.all (fun q => decide (q.1 < 32)) = true →
    ∃ t, exec (.bdSpineSnapshot 1) s = .next t ∧ t.bd.spine1 = { s.bd.spine1 with valid := true, half := !s.bd.spine1.half } ∧
      t.bd.spine0 = s.bd.spine0 ∧ t.on BD_STATUS_SPINE_SINGLE = !s.bd.spine0.valid) ∧
  (∀ (s : State) (c : Fin 2), s.on BD_STATUS_MOUNTED = false → exec (.bdSpineSnapshot c) s = .next s) ∧
  (∀ (s : State) (p : Fin 5), s.mayWrite p BD_CTL = true → s.domain p = 3 → s.on BD_STATUS_LOST = false → s.bd.reads = [] →
    s.bd.vols.all (fun q => decide (q.2.state ≠ .recording) && decide (q.2.state ≠ .recovering)) = true →
    s.bd.chans.all (fun q => decide (q.1 < 32)) = true →
    ∃ t, exec (.bdFormat p) s = .next t ∧ t.bd.vols = [] ∧ t.bd.secs = [] ∧ t.bd.ckpts = [] ∧ t.on BD_STATUS_MOUNTED = true ∧
      t.on BD_STATUS_UNFORMATTED = false ∧ t.get BD_CTL_REASON = 0 ∧ t.get BD_CTL_QUIESCE = s.get BD_CTL_QUIESCE) ∧
  (∀ (s : State) (p : Fin 5), s.mayWrite p BD_CTL = true → s.domain p ≠ 3 → s.on BD_STATUS_LOST = false →
    exec (.bdFormat p) s = .next ((s.put BD_CTL_REASON 0x0401).recordRefusal p BD_CTL true 0x0401)) ∧
  (∀ (s : State) (p : Fin 5), s.mayWrite p BD_CTL = true → s.on BD_STATUS_LOST = false → s.on BD_CTL_QUIESCE = false →
    ∃ t, exec (.bdQuiesce p) s = .next t ∧ t.on BD_CTL_QUIESCE = true ∧ t.on BD_STATUS_QUIET = true ∧ t.bd.slots = []) ∧
  (∀ (s u : State) (p : Fin 5) (r : Fin 4) (v : Word) (y : BdVol), s.mayWrite p (BD_RS_CTL r) = true →
    s.on (BD_RS_CTL_RUNNING r) = false → bits v.toNat 3 2 ≠ 3 → bits v.toNat 1 0 = 1 → s.on BD_STATUS_LOST = false →
    s.rsSink r = true → s.on BD_STATUS_MOUNTED = true → kvGet s.bd.vols (s.val (BD_RS_VOL r)) = some y → y.state ≠ .recovering →
    y.state ≠ .deleting → s.volMayRead (s.domain p) (s.val (BD_RS_VOL r)) = true → u = s.put (BD_RS_CTL_FROM r) (bits v.toNat 3 2) →
    ∃ t, exec (.bdRsGo p r v) s = .next t ∧ t.on (BD_RS_CTL_RUNNING r) = true ∧ t.get (BD_RS_CTL_REASON r) = 0 ∧ t.out = s.out ∧
      t.get (BD_RS_CTL_FROM r) = bits v.toNat 3 2 ∧
      kvGet t.bd.reads r = some { vol := s.val (BD_RS_VOL r), leaf := u.rsFrom r y / 16384, from_ := u.rsFrom r y }) ∧
  (∀ (s : State) (p : Fin 5) (r : Fin 4) (v : Word) (y : BdVol), s.mayWrite p (BD_RS_CTL r) = true →
    s.on (BD_RS_CTL_RUNNING r) = false → bits v.toNat 3 2 ≠ 3 → bits v.toNat 1 0 = 1 → s.on BD_STATUS_LOST = false →
    s.rsSink r = true → s.on BD_STATUS_MOUNTED = true → kvGet s.bd.vols (s.val (BD_RS_VOL r)) = some y → y.state = .closed →
    s.volMayRead (s.domain p) (s.val (BD_RS_VOL r)) = false →
    ∃ t, exec (.bdRsGo p r v) s = .next t ∧ t.on (BD_RS_CTL_RUNNING r) = false ∧ t.get (BD_RS_CTL_REASON r) = 0x04D0 ∧ t.bd = s.bd) ∧
  (∀ (s : State) (p : Fin 5) (r : Fin 4), s.mayWrite p (BD_RS_CTL r) = true → s.get (BD_RS_CTL_FROM r) ≠ 3 →
    ∃ t, exec (.bdRsStop p r) s = .next t ∧ t.on (BD_RS_CTL_RUNNING r) = false ∧ kvGet t.bd.reads r = none ∧ t.out = s.out ∧
      t.bd.vols = s.bd.vols) ∧
  (∀ (s : State) (r : Fin 4) (y : BdRead) (v : BdVol) (x : BdRec), s.gated 12 = false → s.lost 12 = false →
    kvGet s.bd.reads r = some y → kvGet s.bd.vols y.vol = some v →
    v.first ≤ y.leaf → y.leaf + 1 < v.durable → v.recs = [x] → y.from_ ≤ x.at_ → 16384 * v.first ≤ x.at_ → 16384 * y.leaf ≤ x.at_ →
    x.at_ + recSize x.r ≤ 16384 * (y.leaf + 1) → y.cut = [] →
    (kvGetD s.bd.lostLeaves y.vol []).contains y.leaf = false → v.erased y.leaf = false →
    ∃ t, exec (.bdLeafRead r false) s = .next t ∧ (kvGet t.bd.reads r).map (·.leaf) = some (y.leaf + 1) ∧ t.regs = s.regs ∧
      t.out = s.out ++ [.deliver (s.get (BD_RS_SINK_KIND r)) (s.get (BD_RS_SINK_INDEX r)) x.r]) ∧
  (∀ (s : State) (r : Fin 4) (y : BdRead) (v : BdVol), s.gated 12 = false → s.lost 12 = false →
    kvGet s.bd.reads r = some y → kvGet s.bd.vols y.vol = some v →
    v.first ≤ y.leaf → y.leaf + 1 < v.durable → s.bd.chans.all (fun q => decide (q.1 < 32)) = true →
    (kvGetD s.bd.lostLeaves y.vol []).contains y.leaf = false → v.erased y.leaf = false →
    ∃ t, exec (.bdLeafRead r true) s = .next t ∧ t.bd.leafLost = true ∧ t.on BD_STATUS_MEDIA = true ∧
      t.val BD_LOST = (s.val BD_LOST + 1) % 2 ^ 32 ∧ (kvGet t.bd.reads r).map (·.leaf) = some (y.leaf + 1)) ∧
  (∀ (s : State) (r : Fin 4) (y : BdRead) (v : BdVol), s.gated 12 = false → s.lost 12 = false →
    kvGet s.bd.reads r = some y → kvGet s.bd.vols y.vol = some v →
    v.first ≤ y.leaf → v.durable ≤ y.leaf → v.state = .closed →
    ∃ t, exec (.bdLeafRead r false) s = .next t ∧ t.on (BD_RS_CTL_RUNNING r) = false ∧ kvGet t.bd.reads r = none ∧ t.out = s.out) ∧
  (∀ (s : State) (r : Fin 4) (b : Bool), kvGet s.bd.reads r = none → exec (.bdLeafRead r b) s = .next s)

/-- R460. -/
def Obligations.WindowDIsGuarded : Prop :=
  (∀ (s : State) (o : BitVec 36) (n : Fin 4097) (a : Nat), s.gated 15 = false → s.lost 15 = false → s.gated 11 = false → s.lost 11 = false →
    s.answers 0 = true → a = s.get HS_WD_BASE_BASE_GIB * 2 ^ 30 + o.toNat →
    s.cmSize < a + n.val ∨ s.cmAllowed (s.domain 0) a n false = false →
    ∃ t, exec (.windowDRead o n) s = .next t ∧ t.out = s.out ++ [.windowRead a none false] ∧ t.cmem = s.cmem ∧
      t.val HS_WD_DENIED = (s.val HS_WD_DENIED + 1) % 2 ^ 32 ∧ (∀ b, b ≠ HS_WD_DENIED → t.reg b = s.reg b)) ∧
  (∀ (s : State) (o : BitVec 36) (bs : List Byte) (a : Nat), s.gated 15 = false → s.lost 15 = false → s.gated 11 = false → s.lost 11 = false →
    s.answers 0 = true → a = s.get HS_WD_BASE_BASE_GIB * 2 ^ 30 + o.toNat →
    s.cmSize < a + bs.length ∨ s.cmAllowed (s.domain 0) a bs.length true = false →
    ∃ t, exec (.windowDWrite o bs) s = .next t ∧ t.out = s.out ∧ t.cmem = s.cmem ∧
      t.val HS_WD_DENIED = (s.val HS_WD_DENIED + 1) % 2 ^ 32 ∧ (∀ b, b ≠ HS_WD_DENIED → t.reg b = s.reg b)) ∧
  (∀ (s : State) (o : BitVec 36) (n : Fin 4097) (a : Nat), s.gated 15 = false → s.lost 15 = false → s.gated 11 = false → s.lost 11 = false →
    s.answers 0 = true → a = s.get HS_WD_BASE_BASE_GIB * 2 ^ 30 + o.toNat →
    a + n.val ≤ s.cmSize → s.cmAllowed (s.domain 0) a n false = true → (s.memRead a n).2 = false →
    (∀ c ∈ List.range 16, s.on (CM_CH_STATUS_IN_SR c) = false) →
    exec (.windowDRead o n) s = .next (s.emit (.windowRead a (some (memBytes s.cmem a n)) false))) ∧
  (∀ (s : State) (o : BitVec 36) (bs : List Byte) (a : Nat), s.gated 15 = false → s.lost 15 = false → s.gated 11 = false → s.lost 11 = false →
    s.answers 0 = true → a = s.get HS_WD_BASE_BASE_GIB * 2 ^ 30 + o.toNat →
    a + bs.length ≤ s.cmSize → s.cmAllowed (s.domain 0) a bs.length true = true →
    (sectors a bs.length).any s.sectorPoisoned = false → (∀ c ∈ List.range 16, s.on (CM_CH_STATUS_IN_SR c) = false) →
    ∃ t, exec (.windowDWrite o bs) s = .next t ∧ t.cmem = memPutAll s.cmem a bs ∧ t.regs = s.regs ∧ t.out = s.out)

/-- DMA channels (R457 to R470). Requests complete one at a time, in parts of 512 bytes (assumption 25). -/
def Obligations.DmaChannelsRun : Prop :=
  (∀ (s : State) (v : Fin 8) (w : Fin 16), 2 ≤ s.devState → s.dutyUp 15 20 = true → ∃ t, exec (.pcieLinkUp v w) s = .next t ∧
    t.on HS_PCIE_STATUS_UP = true ∧ t.get HS_PCIE_STATUS_SPEED = v ∧ t.get HS_PCIE_STATUS_WIDTH = w ∧
    (∀ a, a ≠ HS_PCIE_STATUS → t.reg a = s.reg a) ∧ t.out = s.out) ∧
  (∀ s : State, 2 ≤ s.devState → ∃ t, exec .pePerst s = .next t ∧ t.hs.queues = [] ∧ t.msix = {} ∧ (∀ c, (t.dma c).phase = .idle) ∧ t.val HS_PCIE_STATUS = 0 ∧
    t.val HS_WD_BASE = s.val HS_WD_BASE ∧ (∀ a ∈ List.range 0xF000, t.reg (a * 256) = s.reg (a * 256)) ∧ t.out = s.out) ∧
  (∀ s : State, 2 ≤ s.devState → ∃ t, exec .pcieFunctionReset s = .next t ∧ t.hs.queues = [] ∧ t.msix = {} ∧
    (∀ c, (t.dma c).phase = .idle) ∧ t.val HS_WD_BASE = s.val HS_WD_BASE ∧ (∀ c ∈ List.range 64, t.reg (DMA_CTL c) = regReset s.variant (DMA_CTL c)) ∧
    (∀ q ∈ List.range 32, t.reg (HQ_CTL q) = regReset s.variant (HQ_CTL q)) ∧ t.flow.streams = s.flow.streams ∧ t.out = s.out) ∧
  (∀ (s u : State) (p : Fin 5) (c : Fin 64) (v : Word), s.mayWrite p (DMA_CTL c) = true → s.on (DMA_CTL_ENABLE c) = false →
    bits v.toNat 0 0 = 1 → bits v.toNat 4 3 = 0 → u = s.plainWrite (DMA_CTL c) (setBits (setBits v.toNat 4 3 0) 0 0 0) →
    u.dmaCheck c = 0 →
    ∃ t, exec (.dmaEnable p c v) s = .next t ∧ t.on (DMA_CTL_ENABLE c) = true ∧ t.hs = s.hs ∧ t.out = s.out ∧
      t.get (DMA_CTL_CQ c) = bits v.toNat 12 8 ∧ (∀ a, a ≠ DMA_CTL c → t.reg a = s.reg a)) ∧
  (∀ (s u : State) (p : Fin 5) (c : Fin 64) (v : Word), s.mayWrite p (DMA_CTL c) = true → s.on (DMA_CTL_ENABLE c) = false →
    bits v.toNat 0 0 = 1 → u = s.plainWrite (DMA_CTL c) (setBits (setBits v.toNat 4 3 0) 0 0 0) → u.dmaCheck c ≠ 0 →
    ∃ t, exec (.dmaEnable p c v) s = .next t ∧ t.on (DMA_CTL_ENABLE c) = false ∧ t.hs = s.hs ∧
      t.get (DMA_STATUS_REASON c) = u.dmaCheck c % 65536) ∧
  (∀ (s : State) (p : Fin 5) (c : Fin 64), s.mayWrite p (DMA_CTL c) = true → s.on (DMA_CTL_ENABLE c) = true →
    ∃ t, exec (.dmaDisable p c) s = .next t ∧ t.on (DMA_CTL_ENABLE c) = false ∧ t.on (DMA_STATUS_RUNNING c) = false ∧
      (t.dma c).phase = .idle ∧ t.val (DMA_DONE c) = s.val (DMA_DONE c) ∧ t.out = s.out) ∧
  (∀ (s : State) (p : Fin 5) (c : Fin 64) (a : Nat), s.mayWrite p (DMA_CTL c) = true → s.dmaIdle c = true →
    bits (s.val (DMA_CTL c)) 4 4 = 0 → a = s.pair (DMA_DESC_ADDR_LO c) (DMA_DESC_ADDR_HI c) → bits a 1 1 = 0 →
    ∃ t, exec (.dmaGo p c) s = .next t ∧ t.on (DMA_STATUS_RUNNING c) = true ∧ (t.dma c).phase = .fetch ∧ (t.dma c).at_ = a ∧
      (t.dma c).path = p.val ∧ t.pair (DMA_CUR_LO c) (DMA_CUR_HI c) = a ∧
      t.out = s.out ++ (if bits a 0 0 = 1 then [] else [.hostRead c (a / 64 * 64) 64])) ∧
  (∀ (s : State) (p : Fin 5) (c : Fin 64), s.mayWrite p (DMA_CTL c) = true → s.dmaIdle c = false → s.on (DMA_CTL_ENABLE c) = true →
    bits (s.val (DMA_CTL c)) 4 4 = 0 →
    ∃ t, exec (.dmaGo p c) s = .next t ∧ t.get (DMA_STATUS_REASON c) = 0x05E1 ∧ t.hs = s.hs ∧ t.out = s.out) ∧
  (∀ (s : State) (p : Fin 5) (c : Fin 64), s.mayWrite p (DMA_CTL c) = true → s.on (DMA_CTL_ENABLE c) = true →
    bits (s.val (DMA_CTL c)) 3 3 = 0 →
    ∃ t, exec (.dmaAbort p c) s = .next t ∧ t.on (DMA_STATUS_HALTED c) = false ∧ t.on (DMA_STATUS_REFUSED c) = false ∧
      t.on (DMA_STATUS_BUS_ERROR c) = false ∧ t.on (DMA_STATUS_LATE_ERROR c) = false ∧ (t.dma c).phase = .idle ∧
      t.get (DMA_STATUS_REASON c) = s.get (DMA_STATUS_REASON c) ∧ t.get (DMA_STATUS_DIR c) = s.get (DMA_STATUS_DIR c) ∧ t.out = s.out) ∧
  (∀ (s : State) (c : Fin 64) (d : DmaDesc) (bs : List Byte), s.gated 15 = false → s.lost 15 = false → s.dutyUp 15 (c % 8) = true →
    (s.dma c).phase = .fetch → bits (s.dma c).at_ 0 0 = 0 →
    bs = leBytes 8 d.next ++ leBytes 8 d.src ++ leBytes 8 d.dst ++ leBytes 4 d.len ++ leBytes 4 d.ctl ++ leBytes 4 d.tag ++ leBytes 28 0 →
    d.next < 2 ^ 64 → d.src < 2 ^ 64 → d.dst < 2 ^ 64 → d.len < 2 ^ 32 → d.tag < 2 ^ 32 → d.ctl < 64 → s.dmaSink c = false →
    d.len ≠ 0 → bits d.next 5 2 = 0 → bits d.ctl 0 0 = 0 → bits d.ctl 1 1 = 1 → d.dst + d.len ≤ s.cmSize →
    s.cmAllowed (s.domain (s.dma c).path) d.dst d.len true = true →
    ∃ t, exec (.dmaDescriptorFetched c (some bs)) s = .next t ∧ (t.dma c).phase = .move ∧ (t.dma c).desc = some d ∧
      (t.dma c).off = 0 ∧ t.regs = s.regs ∧ t.out = s.out ++ [.hostRead c (d.src + (d.part 0).1) (d.part 0).2]) ∧
  (∀ (s : State) (c : Fin 64) (bs : List Byte), s.gated 15 = false → s.lost 15 = false → s.dutyUp 15 (c % 8) = true →
    (s.dma c).phase = .fetch → bits (s.dma c).at_ 0 0 = 0 → bs.length = 64 →
    fromLe ((bs.drop 24).take 4) = 0 →
    ∃ t, exec (.dmaDescriptorFetched c (some bs)) s = .next t ∧ t.on (DMA_STATUS_REFUSED c) = true ∧
      t.on (DMA_STATUS_HALTED c) = true ∧ t.get (DMA_STATUS_REASON c) = 0x01E0 ∧ (t.dma c).phase = .idle ∧ t.cmem = s.cmem) ∧
  (∀ (s : State) (c : Fin 64), s.gated 15 = false → s.lost 15 = false → s.dutyUp 15 (c % 8) = true →
    (s.dma c).phase = .fetch → bits (s.dma c).at_ 0 0 = 0 →
    ∃ t, exec (.dmaDescriptorFetched c none) s = .next t ∧ t.on (DMA_STATUS_BUS_ERROR c) = true ∧
      t.on (DMA_STATUS_HALTED c) = true ∧ t.get (DMA_STATUS_DIR c) = 2 ∧ (t.dma c).phase = .idle) ∧
  (∀ (s : State) (c : Fin 64) (h : Option (List Byte)), (s.dma c).phase = .idle → exec (.dmaDescriptorFetched c h) s = .next s) ∧
  (∀ (s : State) (c : Fin 64) (d : DmaDesc) (bs : List Byte) (all : Bool), s.gated 15 = false → s.lost 15 = false → s.dutyUp 15 (c % 8) = true →
    (s.dma c).desc = some d → (s.dma c).phase = .move →
    bits d.ctl 0 0 = 0 → bits d.ctl 1 1 = 1 → bs.length = (d.part (s.dma c).off).2 → d.len ≤ (s.dma c).off + bs.length →
    s.gated 11 = false → s.memGone (d.dst + (d.part (s.dma c).off).1) bs.length = false →
    ∃ t, exec (.dmaRequestCompletion c (some bs) all) s = .next t ∧ (t.dma c).phase = .confirm ∧
      (t.dma c).off = (s.dma c).off + bs.length ∧ t.cmem = (s.memWrite (d.dst + (d.part (s.dma c).off).1) bs).cmem ∧
      t.regs = (s.memWrite (d.dst + (d.part (s.dma c).off).1) bs).regs) ∧
  (∀ (s : State) (c : Fin 64) (d : DmaDesc) (all : Bool), s.gated 15 = false → s.lost 15 = false → s.dutyUp 15 (c % 8) = true →
    (s.dma c).desc = some d → (s.dma c).phase = .move → bits d.ctl 0 0 = 0 →
    s.gated 11 = false →
    ∃ t, exec (.dmaRequestCompletion c none all) s = .next t ∧ t.on (DMA_STATUS_BUS_ERROR c) = true ∧
      t.on (DMA_STATUS_HALTED c) = true ∧ t.get (DMA_STATUS_DIR c) = 0 ∧ t.cmem = s.cmem ∧ t.val (DMA_DONE c) = s.val (DMA_DONE c) ∧
      t.val (DMA_ERR_ADDR_LO c) = (d.src + (d.part (s.dma c).off).1) % 2 ^ 32) ∧
  (∀ (s : State) (c : Fin 64) (h : Option (List Byte)) (all : Bool), (s.dma c).desc = none →
    exec (.dmaRequestCompletion c h all) s = .next s) ∧
  (∀ (s : State) (c : Fin 64) (d : DmaDesc), s.gated 15 = false → s.lost 15 = false → s.dutyUp 15 (c % 8) = true →
    (s.dma c).desc = some d → (s.dma c).phase = .confirm → bits d.ctl 5 4 = 0 →
    bits d.next 1 1 = 1 →
    ∃ t, exec (.dmaDescriptorConfirmed c true) s = .next t ∧ t.val (DMA_DONE c) = (s.val (DMA_DONE c) + 1) % 2 ^ 32 ∧
      (t.dma c).phase = .idle ∧ t.on (DMA_STATUS_RUNNING c) = false ∧ t.hs.queues = s.hs.queues ∧ t.out = s.out) ∧
  (∀ (s : State) (c : Fin 64) (d : DmaDesc), s.gated 15 = false → s.lost 15 = false → s.dutyUp 15 (c % 8) = true →
    (s.dma c).desc = some d → (s.dma c).phase = .confirm → bits d.ctl 5 4 = 2 →
    bits d.next 1 1 = 1 → (s.hq (s.get (DMA_CTL_CQ c))).entries.length < s.hqDepth (s.get (DMA_CTL_CQ c)) →
    ∃ t, exec (.dmaDescriptorConfirmed c true) s = .next t ∧ (t.dma c).phase = .idle ∧
      (t.hq (s.get (DMA_CTL_CQ c))).entries = (s.hq (s.get (DMA_CTL_CQ c))).entries ++
        [hqCompletion d.tag (s.dma c).off c (if s.dmaSink c then 2 else 1)
          ((if (s.dma c).flushed then 1 else 0) + (if (s.dma c).gap then 2 else 0)) 0 ((s.val (DMA_DONE c) + 1) % 2 ^ 32)]) ∧
  (∀ (s : State) (c : Fin 64) (d : DmaDesc), s.gated 15 = false → s.lost 15 = false → s.dutyUp 15 (c % 8) = true →
    (s.dma c).desc = some d → (s.dma c).phase = .confirm →
    ∃ t, exec (.dmaDescriptorConfirmed c false) s = .next t ∧ t.on (DMA_STATUS_LATE_ERROR c) = true ∧
      t.on (DMA_STATUS_BUS_ERROR c) = true ∧ t.on (DMA_STATUS_HALTED c) = true ∧ t.val (DMA_DONE c) = s.val (DMA_DONE c)) ∧
  (∀ (s : State) (c : Fin 64) (d : DmaDesc) (r : YRec), s.gated 15 = false → s.lost 15 = false → s.dutyUp 15 (c % 8) = true →
    s.dmaSink c = true → s.on (DMA_CTL_ENABLE c) = true →
    (s.dma c).desc = some d → (s.dma c).phase = .buffer → (s.dma c).carry = [] → (s.dma c).lost = [] → bits d.ctl 1 1 = 0 →
    d.dst % 8 = 0 → (s.dma c).off % 8 = 0 → (s.dma c).off + (recBytes r).length < d.len →
    ∃ t, exec (.dmaSinkRecord c r) s = .next t ∧ t.out = s.out ++ [.hostWrite c (d.dst + (s.dma c).off) (recBytes r)] ∧
      (t.dma c).off = (s.dma c).off + (recBytes r).length ∧ (t.dma c).phase = .buffer ∧ t.regs = s.regs) ∧
  (∀ (s : State) (c : Fin 64) (r : YRec), s.gated 15 = false → s.lost 15 = false → s.dutyUp 15 (c % 8) = true →
    s.dmaSink c = true → (s.dma c).desc = none → (s.dma c).lost = [] →
    ∃ t, exec (.dmaSinkRecord c r) s = .next t ∧ t.val (DMA_DISCARDED c) = (s.val (DMA_DISCARDED c) + 1) % 2 ^ 32 ∧
      (t.dma c).lost = [s.gapRecOf r r.seq r.time (recSamples none r false) 1] ∧ t.out = s.out) ∧
  (∀ (s : State) (c : Fin 64) (r : YRec), s.dmaSink c = false → exec (.dmaSinkRecord c r) s = .next s) ∧
  (∀ (s : State) (c : Fin 64) (d : DmaDesc) (u : DevTime), s.gated 15 = false → s.lost 15 = false → s.dutyUp 15 (c % 8) = true →
    (s.dma c).desc = some d → (s.dma c).first = some u →
    (s.dma c).phase = .buffer → tLt s.now (tAdd u (usTicks (s.get (DMA_FLUSH_FLUSH_US c)))) = false → bits d.ctl 1 1 = 1 →
    ∃ t, exec (.dmaSinkFlush c) s = .next t ∧ (t.dma c).phase = .confirm ∧ (t.dma c).flushed = true ∧ t.regs = s.regs) ∧
  (∀ (s : State) (c : Fin 64), (s.dma c).first = none → exec (.dmaSinkFlush c) s = .next s) ∧
  (∀ (s : State) (c : Fin 64) (d : DmaDesc) (e : HqEntry), s.gated 15 = false → s.lost 15 = false →
    (s.dma c).phase = .post → (s.dma c).entry = some e →
    (s.dma c).desc = some d → bits d.next 1 1 = 1 → (s.hq (s.get (DMA_CTL_CQ c))).entries.length < s.hqDepth (s.get (DMA_CTL_CQ c)) →
    ∃ t, exec (.dmaCompletionRoom (.inl c)) s = .next t ∧ (t.dma c).phase = .idle ∧
      (t.hq (s.get (DMA_CTL_CQ c))).entries = (s.hq (s.get (DMA_CTL_CQ c))).entries ++ [e]) ∧
  (∀ (s : State) (q : Fin 32) (e : HqEntry), s.gated 15 = false → s.lost 15 = false →
    (s.hq q).result = some e → s.get (HQ_CTL_CQ q) ≠ q.val →
    (s.hq (s.get (HQ_CTL_CQ q))).entries.length < s.hqDepth (s.get (HQ_CTL_CQ q)) →
    ∃ t, exec (.dmaCompletionRoom (.inr q)) s = .next t ∧ (t.hq q).result = none ∧
      (t.hq (s.get (HQ_CTL_CQ q))).entries = (s.hq (s.get (HQ_CTL_CQ q))).entries ++ [e]) ∧
  (∀ (s : State) (c : Fin 64) (all : Bool), (s.dma c).phase = .fetch → bits (s.dma c).at_ 0 0 = 0 →
    ∃ t, exec (.dmaCompletionTimeout c all) s = .next t ∧ t.on (DMA_STATUS_BUS_ERROR c) = true ∧
      t.on (DMA_STATUS_HALTED c) = true ∧ t.get (DMA_STATUS_DIR c) = 2 ∧ (t.dma c).phase = .idle) ∧
  (∀ (s : State) (c : Fin 64) (all : Bool), (s.dma c).phase = .idle → exec (.dmaCompletionTimeout c all) s = .next s)

/-- Queue ports (R471 to R478). -/
def Obligations.QueuePortsServe : Prop :=
  (∀ (s : State) (p : Fin 5) (q : Fin 32) (v : Word), s.mayWrite p (HQ_CTL q) = true → s.hqOn q = false → bits v.toNat 0 0 = 1 →
    (s.plainWrite (HQ_CTL q) (v.toNat / 2 * 2)).hqCheck q = 0 →
    ∃ t, exec (.hqEnable p q v) s = .next t ∧ t.hqOn q = true ∧ t.on (HQ_STATUS_RUNNING q) = true ∧ t.hq q = {} ∧
      t.hs.dma = s.hs.dma ∧ t.out = s.out ∧ (∀ a, a ≠ HQ_CTL q → a ≠ HQ_STATUS q → t.reg a = s.reg a)) ∧
  (∀ (s : State) (p : Fin 5) (q : Fin 32) (v : Word), s.mayWrite p (HQ_CTL q) = true → s.hqOn q = false → bits v.toNat 0 0 = 1 →
    (s.plainWrite (HQ_CTL q) (v.toNat / 2 * 2)).hqCheck q ≠ 0 →
    ∃ t, exec (.hqEnable p q v) s = .next t ∧ t.hqOn q = false ∧ t.hs = s.hs ∧
      t.get (REGION_REFUSAL_REASON 15 p) = (s.plainWrite (HQ_CTL q) (v.toNat / 2 * 2)).hqCheck q % 65536) ∧
  (∀ (s : State) (q : Fin 32) (e : HqEntry), s.gated 15 = false → s.lost 15 = false →
    s.windowQ q false = (s, true) → s.hqKind q = 0 → s.hqOn q = true →
    (s.hq q).entries[(s.hq q).p]? = some e →
    ∃ t, exec (.hqLoRead q true 0) s = .next t ∧ (t.hq q).latch = some (e, false) ∧ (t.hq q).p = (s.hq q).p ∧
      (t.hq q).entries = (s.hq q).entries ∧ t.regs = s.regs ∧ t.out = s.out ++ [.queueRead q e.lo false]) ∧
  (∀ (s : State) (q : Fin 32), s.gated 15 = false → s.lost 15 = false →
    s.windowQ q false = (s, true) → s.hqKind q = 0 → s.hqOn q = true →
    (s.hq q).entries[(s.hq q).p]? = none →
    ∃ t, exec (.hqLoRead q true 0) s = .next t ∧ (t.hq q).latch = some (⟨0, 0⟩, false) ∧ t.regs = s.regs ∧
      t.out = s.out ++ [.queueRead q 0 false]) ∧
  (∀ (s : State) (q : Fin 32) (e : HqEntry), s.gated 15 = false → s.lost 15 = false →
    s.windowQ q false = (s, true) → s.hqKind q = 0 → s.hqOn q = true →
    (s.hq q).entries[(s.hq q).p]? = some e →
    ∃ t, exec (.hqLoRead q true 2) s = .next t ∧ t.on (HQ_STATUS_POISON q) = true ∧ t.val (HQ_UE q) = (s.val (HQ_UE q) + 1) % 2 ^ 32 ∧
      t.out = s.out ++ [.queueRead q 0xFFFFFFFFFFFFFFFF true]) ∧
  (∀ (s : State) (q : Fin 32) (e : HqEntry) (b : Bool), s.gated 15 = false → s.lost 15 = false →
    s.windowQ q false = (s, true) → s.hqKind q = 0 → s.hqOn q = true →
    (s.hq q).latch = some (e, b) → e.valid = true →
    ∃ t, exec (.hqHiRead q true) s = .next t ∧ (t.hq q).p = min ((s.hq q).p + 1) (s.hq q).entries.length ∧
      (t.hq q).entries = (s.hq q).entries ∧ (t.hq q).m = (s.hq q).m ∧ t.regs = s.regs ∧ t.out = s.out ++ [.queueRead q e.hi b]) ∧
  (∀ (s : State) (q : Fin 32) (e : HqEntry) (b : Bool), s.gated 15 = false → s.lost 15 = false →
    s.windowQ q false = (s, true) → s.hqKind q = 0 → s.hqOn q = true →
    (s.hq q).latch = some (e, b) → e.valid = false → exec (.hqHiRead q true) s = .next (s.emit (.queueRead q e.hi b))) ∧
  (∀ (s : State) (q : Fin 32), s.gated 15 = false → s.lost 15 = false →
    s.windowQ q true = (s, true) → s.hqKind q = 0 → s.hqOn q = true →
    ∃ t, exec (.hqCmdMark q) s = .next t ∧ (t.hq q).m = (s.hq q).p ∧ (t.hq q).p = (s.hq q).p ∧
      (t.hq q).entries = (s.hq q).entries ∧ t.regs = s.regs) ∧
  (∀ (s : State) (q : Fin 32), s.gated 15 = false → s.lost 15 = false →
    s.windowQ q true = (s, true) → s.hqKind q = 0 → s.hqOn q = true →
    ∃ t, exec (.hqCmdRewind q) s = .next t ∧ (t.hq q).p = (s.hq q).m ∧ (t.hq q).m = (s.hq q).m ∧
      (t.hq q).entries = (s.hq q).entries ∧ t.regs = s.regs) ∧
  (∀ (s : State) (q : Fin 32), s.gated 15 = false → s.lost 15 = false →
    s.windowQ q true = (s, true) → s.hqKind q = 0 → s.hqOn q = true →
    ∃ t, exec (.hqCmdRelease q) s = .next t ∧ (t.hq q).entries = (s.hq q).entries.drop (s.hq q).p ∧ (t.hq q).p = 0 ∧
      (t.hq q).m = 0 ∧ t.regs = s.regs) ∧
  (∀ (s : State) (q : Fin 32) (v : BitVec 64), s.gated 15 = false → s.lost 15 = false →
    s.windowQ q true = (s, true) → s.hqKind q ≠ 0 → s.hqOn q = true →
    ∃ t, exec (.hqLoWrite q true v) s = .next t ∧ (t.hq q).lo = some v ∧ (t.hq q).entries = (s.hq q).entries ∧ t.regs = s.regs ∧
      t.out = s.out) ∧
  (∀ (s : State) (q : Fin 32) (v : BitVec 64), s.gated 15 = false → s.lost 15 = false →
    s.windowQ q true = (s, true) → s.hqKind q = 0 →
    exec (.hqLoWrite q true v) s = .next (s.count (HQ_BADACC q) 1)) ∧
  (∀ (s : State) (q : Fin 32) (v w : BitVec 64), s.gated 15 = false → s.lost 15 = false →
    s.windowQ q true = (s, true) → s.hqKind q ≠ 0 → s.hqOn q = true →
    s.devState ≠ 7 → (s.hq q).lo = some w → (s.hq q).entries.length < s.hqDepth q →
    ∃ t, exec (.hqHiWrite q true v) s = .next t ∧ (t.hq q).entries = (s.hq q).entries ++ [⟨w, v⟩] ∧ (t.hq q).lo = none ∧
      (t.hq q).held = (s.hq q).held ∧ t.regs = s.regs ∧ t.out = s.out) ∧
  (∀ (s : State) (q : Fin 32) (v w : BitVec 64), s.gated 15 = false → s.lost 15 = false →
    s.windowQ q true = (s, true) → s.hqKind q ≠ 0 → s.hqOn q = true →
    s.devState ≠ 7 → (s.hq q).lo = some w → s.hqDepth q ≤ (s.hq q).entries.length →
    ∃ t, exec (.hqHiWrite q true v) s = .next t ∧ (t.hq q).entries = (s.hq q).entries ∧ (t.hq q).held = (s.hq q).held ++ [⟨w, v⟩]) ∧
  (∀ (s : State) (q : Fin 32) (e : HqEntry) (l : List HqEntry), s.gated 15 = false → s.lost 15 = false →
    s.hqOn q = true → s.hqKind q = 1 → (s.hq q).entries = e :: l →
    (s.hq q).held = [] → e.valid = true → s.dmaIdle (e.hiByte 0 % 64) = true → bits e.lo.toNat 1 1 = 0 →
    ∃ t, exec (.hqDescStart q 0) s = .next t ∧ (t.hq q).entries = l ∧ (t.dma (e.hiByte 0 % 64)).phase = .fetch ∧
      (t.dma (e.hiByte 0 % 64)).at_ = e.lo.toNat ∧ (t.dma (e.hiByte 0 % 64)).path = 0 ∧
      t.on (DMA_STATUS_RUNNING (e.hiByte 0 % 64)) = true) ∧
  (∀ (s : State) (q : Fin 32) (e : HqEntry) (l : List HqEntry), s.gated 15 = false → s.lost 15 = false →
    s.hqOn q = true → s.hqKind q = 1 → (s.hq q).entries = e :: l →
    (s.hq q).held = [] → e.valid = false →
    ∃ t, exec (.hqDescStart q 0) s = .next t ∧ (t.hq q).entries = l ∧ t.hs.dma = s.hs.dma ∧
      t.val (HQ_INVALID q) = (s.val (HQ_INVALID q) + 1) % 2 ^ 32) ∧
  (∀ (s : State) (q : Fin 32) (e : HqEntry) (l : List HqEntry), s.hqOn q = true → s.hqKind q = 1 → (s.hq q).entries = e :: l →
    e.valid = true → s.dmaIdle (e.hiByte 0 % 64) = false → exec (.hqDescStart q 0) s = .next s) ∧
  (∀ (s : State) (v : Fin 256), kvGet s.msix.pendingVec v = some () →
    ∃ t, exec (.msixUnmask v) s = .next t ∧ kvGet t.msix.pendingVec v = none ∧ (kvGetD t.msix.vectors v {}).masked = false ∧
      t.out = s.out ++ [.msix v] ∧ t.regs = s.regs) ∧
  (∀ (s : State) (v : Fin 256), kvGet s.msix.pendingVec v = none →
    ∃ t, exec (.msixUnmask v) s = .next t ∧ (kvGetD t.msix.vectors v {}).masked = false ∧ t.out = s.out ∧ t.regs = s.regs)

/-- Links and palettes of the display heads (R484 to R487, R501, R502). -/
def Obligations.DisplayLinksTrain : Prop :=
  (∀ (s : State) (p : Fin 5) (h : Fin 2) (v : Word), s.mayWrite p (DS_CTL h) = true → s.on (DS_CTL_ENABLE h) = false →
    bits v.toNat 0 0 = 1 → s.dutyDead (DS_CTL h) = false → (s.plainWrite (DS_CTL h) (v.toNat / 2 * 2)).dsCheck h = 0 →
    ∃ t, exec (.dsHeadEnable p h v) s = .next t ∧ t.on (DS_CTL_ENABLE h) = true ∧ t.get (DS_CTL_REASON h) = 0 ∧
      t.on (DS_STATUS_RUNNING h) = true ∧ (t.dsHead h).inFrame = false ∧ (t.dsHead h).layers = [] ∧
      ((t.dsHead h).training = true ↔ s.on (DS_STATUS_HPD h) = true ∨ (s.dsHead h).training = true)) ∧
  (∀ (s : State) (p : Fin 5) (h : Fin 2) (v : Word), s.mayWrite p (DS_CTL h) = true → s.on (DS_CTL_ENABLE h) = false →
    bits v.toNat 0 0 = 1 → s.dutyDead (DS_CTL h) = false → (s.plainWrite (DS_CTL h) (v.toNat / 2 * 2)).dsCheck h ≠ 0 →
    ∃ t, exec (.dsHeadEnable p h v) s = .next t ∧ t.on (DS_CTL_ENABLE h) = false ∧ t.ds = s.ds ∧ t.cm = s.cm ∧
      t.get (DS_CTL_REASON h) = (s.plainWrite (DS_CTL h) (v.toNat / 2 * 2)).dsCheck h % 65536) ∧
  (∀ (s : State) (h : Fin 2), s.on (DS_CTL_ENABLE h) = true →
    ∃ t, exec (.dsHpdRise h) s = .next t ∧ t.on (DS_STATUS_HPD h) = true ∧ (t.dsHead h).training = true ∧
      (∀ a, a ≠ DS_STATUS h → t.reg a = s.reg a) ∧ t.out = s.out) ∧
  (∀ (s : State) (h : Fin 2), s.on (DS_CTL_ENABLE h) = false → exec (.dsHpdRise h) s = .next (s.put (DS_STATUS_HPD h) 1)) ∧
  (∀ (s : State) (h : Fin 2), ∃ t, exec (.dsHpdFall h) s = .next t ∧ t.on (DS_STATUS_HPD h) = false ∧
    t.on (DS_STATUS_TRAINED h) = false ∧ (t.dsHead h).training = false ∧ (t.dsHead h).retry = none ∧
    (∀ a, a ≠ DS_STATUS h → t.reg a = s.reg a) ∧ t.out = s.out) ∧
  (∀ (s : State) (h : Fin 2), s.on (DS_STATUS_HPD h) = true → s.on (DS_CTL_ENABLE h) = true → s.on (DS_STATUS_TRAINED h) = true →
    ∃ t, exec (.dsIrqHpd h true) s = .next t ∧ t.on (DS_STATUS_TRAINED h) = false ∧ (t.dsHead h).training = true ∧ t.out = s.out) ∧
  (∀ (s : State) (h : Fin 2), exec (.dsIrqHpd h false) s = .next s) ∧
  (∀ (s : State) (h : Fin 2), (s.dsHead h).training = true →
    ∃ t, exec (.dsLinkTrainingDone h true) s = .next t ∧ t.on (DS_STATUS_TRAINED h) = true ∧ (t.dsHead h).training = false ∧
      (∀ a, a ≠ DS_STATUS h → t.reg a = s.reg a) ∧ t.out = s.out) ∧
  (∀ (s : State) (h : Fin 2), (s.dsHead h).training = true →
    ∃ t, exec (.dsLinkTrainingDone h false) s = .next t ∧ t.on (DS_STATUS_TRAINED h) = false ∧ (t.dsHead h).training = false ∧
      (t.dsHead h).retry = some (tAdd s.now (usTicks 100000)) ∧ bits (t.get (REGION_ALARM_STATUS_ALARMS 15)) 8 8 = 1) ∧
  (∀ (s : State) (h : Fin 2) (b : Bool), (s.dsHead h).training = false → exec (.dsLinkTrainingDone h b) s = .next s) ∧
  (∀ (s : State) (h : Fin 2) (u : DevTime), (s.dsHead h).retry = some u → tLe u s.now = true → s.on (DS_CTL_ENABLE h) = true →
    s.on (DS_STATUS_HPD h) = true →
    ∃ t, exec (.dsTrainRetry h) s = .next t ∧ (t.dsHead h).training = true ∧ (t.dsHead h).retry = none ∧ t.regs = s.regs ∧
      t.out = s.out) ∧
  (∀ (s : State) (h : Fin 2) (u : DevTime), (s.dsHead h).retry = some u → tLe u s.now = false → exec (.dsTrainRetry h) s = .next s) ∧
  (∀ (s : State) (p : Fin 5) (h : Fin 2) (v : Word), s.mayWrite p (DS_AUX_CMD h) = true → s.on (DS_AUX_STAT_BUSY h) = false →
    ∃ t, exec (.dsAuxGo p h v) s = .next t ∧ t.val (DS_AUX_STAT h) = 1 ∧ (t.dsHead h).auxAt = s.now ∧
      (t.dsHead h).auxWait = (s.dsHead h).training ∧ t.get (DS_AUX_CMD_ADDR h) = bits v.toNat 19 0 ∧
      t.get (DS_AUX_CMD_REQ h) = bits v.toNat 27 24 ∧ t.out = s.out) ∧
  (∀ (s : State) (p : Fin 5) (h : Fin 2) (v : Word), s.mayWrite p (DS_AUX_CMD h) = true → s.on (DS_AUX_STAT_BUSY h) = true →
    exec (.dsAuxGo p h v) s = .next ((s.put (DS_CTL_REASON h) 0x05F0).recordRefusal p (DS_AUX_CMD h) true 0x05F0)) ∧
  (∀ (s : State) (h : Fin 2) (r : Fin 16) (d : List Byte), s.auxRuns h = true → d ≠ [] →
    ∃ t, exec (.dsAuxReply h r d) s = .next t ∧ t.val (DS_AUX_STAT h) = 16 * r ∧
      t.val (DS_AUX_DATA h 0) = fromLe (d.take 4) ∧ t.ds = s.ds ∧ t.out = s.out) ∧
  (∀ (s : State) (h : Fin 2) (r : Fin 16) (d : List Byte), s.auxRuns h = false → exec (.dsAuxReply h r d) s = .next s) ∧
  (∀ (s : State) (h : Fin 2), s.auxRuns h = true → tLe (tAdd (s.dsHead h).auxAt (usTicks 400)) s.now = true →
    exec (.dsAuxTimeout h) s = .next (s.setVal (DS_AUX_STAT h) 2)) ∧
  (∀ (s : State) (h : Fin 2), tLe (tAdd (s.dsHead h).auxAt (usTicks 400)) s.now = false → exec (.dsAuxTimeout h) s = .next s) ∧
  (∀ (s : State) (p : Fin 5) (h : Fin 2) (v : Word), s.mayWrite p (DS_PAL_DATA h) = true →
    ∃ t, exec (.dsPalDataAccess p h (some v)) s = .next t ∧
      kvGetD (t.dsHead h).palS (s.palAt h) (palReset (s.palAt h)) = BitVec.ofNat 32 (v.toNat % 2 ^ 25) ∧
      (t.dsHead h).pal = (s.dsHead h).pal ∧ t.get (DS_PAL_ADDR_LAYER h) = s.get (DS_PAL_ADDR_LAYER h) ∧
      t.get (DS_PAL_ADDR_I h) = (s.get (DS_PAL_ADDR_I h) + 1) % 256 ∧ (∀ a, a ≠ DS_PAL_ADDR h → t.reg a = s.reg a) ∧ t.out = s.out) ∧
  (∀ (s : State) (p : Fin 5) (h : Fin 2), s.mayRead p (DS_PAL_DATA h) = true →
    ∃ t, exec (.dsPalDataAccess p h none) s = .next t ∧ t.ds = s.ds ∧ t.get (DS_PAL_ADDR_I h) = (s.get (DS_PAL_ADDR_I h) + 1) % 256 ∧
      t.out = s.out ++ [.answer p (DS_PAL_DATA h) (kvGetD (s.dsHead h).palS (s.palAt h) (palReset (s.palAt h))) 0])

/-- Frames of the display heads (R487 to R498, R583). -/
def Obligations.DisplayFramesCompose : Prop :=
  (∀ (s : State) (h : Fin 2), s.on (DS_STATUS_RUNNING h) = true → s.dutyUp 15 (16 + h) = true →
    ∃ t, exec (.dsFrameStart h) s = .next t ∧ t.val (DS_FRAMES h) = (s.val (DS_FRAMES h) + 1) % 2 ^ 32 ∧
      (t.dsHead h).inFrame = true ∧ (t.dsHead h).pal = (s.dsHead h).palS ∧ (t.dsHead h).palS = (s.dsHead h).palS ∧
      (s.devState ≠ 6 → s.anyPoison = false → (∀ l ∈ List.range 4, (t.dsLayer h l).seen.isSome = s.on (DS_L_CTL_ON h l)))) ∧
  (∀ (s : State) (h : Fin 2) (l : Fin 3) (bs : List Byte), s.on (DS_STATUS_RUNNING h) = true → s.dutyUp 15 (16 + h) = true →
    (s.dsHead h).inFrame = true →
    (s.dsLayer h l).seen = some bs → (s.dsLayer h l).cut = none →
    ∃ t, exec (.dsFrameStart h) s = .next t ∧ t.val (DS_L_SIG h l) = crc32c bs % 2 ^ 32) ∧
  (∀ (s : State) (h : Fin 2), s.on (DS_STATUS_RUNNING h) = false → exec (.dsFrameStart h) s = .next s) ∧
  (∀ (s : State) (h : Fin 2) (l : Fin 4) (pos : BitVec 24) (bs : List Byte), s.on (DS_STATUS_RUNNING h) = true →
    (s.dsHead h).inFrame = true → (s.dsLayer h l).seen = some bs → (s.dsLayer h l).cut = none →
    ∃ t, exec (.dsUnderrun h l pos) s = .next t ∧ t.on (DS_STATUS_UNDERRUN h) = true ∧ (t.dsLayer h l).cut = some pos.toNat ∧
      t.val (DS_L_UNDERRUN h l) = (s.val (DS_L_UNDERRUN h l) + 1) % 2 ^ 32 ∧ t.out = s.out ∧
      (∀ a, a ≠ DS_L_UNDERRUN h l → a ≠ DS_STATUS h → t.reg a = s.reg a)) ∧
  (∀ (s : State) (h : Fin 2) (l : Fin 4) (pos : BitVec 24), (s.dsLayer h l).seen = none → exec (.dsUnderrun h l pos) s = .next s) ∧
  (∀ (s : State) (h : Fin 2) (fs : List Frame), s.gated 15 = false → s.lost 15 = false → s.on (DS_STATUS_RUNNING h) = true →
    s.on (DS_L_CTL_ON h 0) = true →
    fs.all (fun f => decide (f.stream.toNat = s.get (DS_L_SRC_STREAM h 0))) = true → densWhole fs = true →
    fs.all (fun f => f.markers.isEmpty && decide (s.heldEpoch 15 f.stream = f.epoch)) = true →
    s.anyPoison = false → (∀ c ∈ List.range 16, s.on (CM_CH_STATUS_IN_SR c) = false) →
    ∃ t, exec (.dsDensSnapshot h fs) s = .next t ∧ (t.dsLayer h 0).swap = true ∧ (t.dsLayer h 0).half = (s.dsLayer h 0).half ∧
      t.regs = s.regs ∧ t.out = s.out) ∧
  (∀ (s : State) (h : Fin 2) (f : Frame), s.gated 15 = false → s.lost 15 = false → s.on (DS_STATUS_RUNNING h) = true → s.on (DS_L_CTL_ON h 0) = true →
    f.stream.toNat = s.get (DS_L_SRC_STREAM h 0) → f.markers = [] → s.heldEpoch 15 f.stream ≠ f.epoch →
    ∃ t, exec (.dsDensSnapshot h [f]) s = .next t ∧ t.ds = s.ds ∧ t.cmem = s.cmem ∧
      t.val (FT_FENCED 15) = (s.val (FT_FENCED 15) + 1) % 2 ^ 32) ∧
  (∀ (s : State) (h : Fin 2) (fs : List Frame), s.on (DS_STATUS_RUNNING h) = false → exec (.dsDensSnapshot h fs) s = .next s) ∧
  (∀ (s : State) (h : Fin 2) (g : GapRec), s.gated 15 = false → s.lost 15 = false → s.on (DS_STATUS_RUNNING h) = true → s.on (DS_L_CTL_ON h 1) = true →
    s.get (DS_L_SRC_STREAM h 1) = g.stream.toNat →
    ∃ t, exec (.dsSpecIntegration h (.inr g)) s = .next t ∧ t.regs = s.regs ∧ t.out = s.out ∧
      (t.dsLayer h 1).lines = (s.dsLayer h 1).lines ++ [List.replicate (s.get (DS_L_SIZE_W h 1)) 1]) ∧
  (∀ (s : State) (h : Fin 2) (f : Frame) (fs : List Frame), s.gated 15 = false → s.lost 15 = false →
    s.on (DS_STATUS_RUNNING h) = true → s.on (DS_L_CTL_ON h 1) = true →
    s.get (DS_L_SRC_STREAM h 1) = f.stream.toNat → (f :: fs).all (fun f => f.markers.isEmpty && decide (s.heldEpoch 15 f.stream = f.epoch)) = true →
    ∃ t, exec (.dsSpecIntegration h (.inl (f :: fs))) s = .next t ∧ t.regs = s.regs ∧ t.out = s.out ∧
      (t.dsLayer h 1).lines = (s.dsLayer h 1).lines ++ [s.specLine h (specValues (f :: fs))]) ∧
  (∀ (s : State) (h : Fin 2) (x : Sum (List Frame) GapRec), s.on (DS_STATUS_RUNNING h) = false →
    exec (.dsSpecIntegration h x) s = .next s)

/-- R517; where a session may be opened is R516. -/
def Obligations.OnePathHoldsTheUpdateSession : Prop :=
  (∀ (s : State) (p : Fin 5) (v : Word), s.mayWrite p BI_CTL = true → s.im.session = none → s.biMayOpen p = true →
    4096 ≤ s.val BI_SIZE → s.val BI_SIZE ≤ s.imageMax → bits v.toNat 3 1 = 0 → bits v.toNat 5 5 = 0 →
    ∃ t, exec (.biOpen p v) s = .next t ∧ t.im.session.map (fun x => x.holder) = some p.val ∧ t.get BI_SESSION_HOLDER = p.val ∧
      t.get BI_SESSION_STATE = 1 ∧ t.val BI_WRITTEN = 0 ∧ t.get BI_CTL_REASON = 0 ∧ t.out = s.out ∧
      (∀ a, a ≠ BI_CTL → a ≠ BI_SESSION → a ≠ BI_WRITTEN → t.reg a = s.reg a)) ∧
  (∀ (s : State) (p : Fin 5) (v : Word) (x : BiSession), s.mayWrite p BI_CTL = true → s.im.session = some x → x.holder = p.val →
    ∃ t, exec (.biOpen p v) s = .next t ∧ t.get BI_CTL_REASON = 0x0708 ∧ t.get BI_SESSION_STATE = s.get BI_SESSION_STATE ∧
      t.im.session.map (fun y => y.holder) = some x.holder ∧ t.im.slotBytes = s.im.slotBytes ∧ t.devRec = s.devRec ∧ t.out = s.out) ∧
  (∀ (s : State) (p : Fin 5) (v : Word) (x : BiSession), s.mayWrite p BI_CTL = true → s.im.session = some x → x.holder ≠ p.val →
    x.holder < 5 →
    ∃ t, exec (.biOpen p v) s = .next t ∧ t.get BI_CTL_REASON = 0x0508 + x.holder ∧ t.im = s.im ∧
      t.get BI_SESSION_STATE = s.get BI_SESSION_STATE ∧ t.out = s.out) ∧
  (∀ (s : State) (p q : Fin 5) (v w : Word), s.mayWrite p BI_CTL = true → s.mayWrite q BI_CTL = true → s.im.session = none →
    s.biMayOpen p = true → p ≠ q → 4096 ≤ s.val BI_SIZE → s.val BI_SIZE ≤ s.imageMax → bits v.toNat 3 1 = 0 →
    bits v.toNat 5 5 = 0 →
    ∃ t, exec (.biOpen p v) s = .next t ∧ ∃ u, exec (.biOpen q w) t = .next u ∧
      u.im.session.map (fun x => x.holder) = some p.val ∧ u.get BI_CTL_REASON = 0x0508 + p.val)

/-- R518 to R521. Which code answers where the spec gives none is open (assumption 2). -/
def Obligations.ImagesAreWrittenAndCommitted : Prop :=
  (∀ (s : State) (p : Fin 5) (v : Word), s.mayWrite p BI_CTL = true → s.im.session = none →
    s.biMayOpen p = false ∨ s.val BI_SIZE < 4096 ∨ s.imageMax < s.val BI_SIZE →
    ∃ t, exec (.biOpen p v) s = .next t ∧ t.get BI_CTL_REASON ≠ 0 ∧ t.im = s.im ∧ t.out = s.out) ∧
  (∀ (s : State) (x : BiSession), s.im.session = some x → s.get BI_SESSION_STATE = 1 →
    ∃ t, exec .biEraseDone s = .next t ∧ t.slotOf x.slot = [] ∧ t.get BI_SESSION_STATE = 2 ∧
      (∀ a, a ≠ BI_SESSION → t.reg a = s.reg a) ∧ t.im.session.isSome = true ∧ t.devRec = s.devRec ∧ t.out = s.out) ∧
  (∀ (s : State) (p : Fin 5) (v : Word) (x : BiSession), s.mayWrite p BI_DATA = true → s.im.session = some x → x.holder = p.val →
    s.get BI_SESSION_STATE = 2 → s.val BI_WRITTEN + 4 ≤ s.val BI_SIZE → x.held = [] → x.buffered + 4 ≤ 4096 →
    ∃ t, exec (.biDataWrite p v) s = .next t ∧ t.slotOf x.slot = s.slotOf x.slot ++ leBytes 4 v.toNat ∧
      t.val BI_WRITTEN = s.val BI_WRITTEN + 4 ∧ (∀ a, a ≠ BI_WRITTEN → t.reg a = s.reg a) ∧ t.out = s.out) ∧
  (∀ (s : State) (p : Fin 5) (v : Word) (x : BiSession), s.mayWrite p BI_DATA = true → s.im.session = some x → x.holder = p.val →
    s.get BI_SESSION_STATE = 2 → s.val BI_SIZE < s.val BI_WRITTEN + 4 →
    ∃ t, exec (.biDataWrite p v) s = .next t ∧ t.get BI_CTL_REASON = 0x0909 ∧ t.im.slotBytes = s.im.slotBytes ∧
      t.val BI_WRITTEN = s.val BI_WRITTEN ∧ t.out = s.out) ∧
  (∀ (s : State) (p : Fin 5) (v : Word) (x : BiSession), s.mayWrite p BI_DATA = true → s.im.session = some x → x.holder = p.val →
    s.get BI_SESSION_STATE = 2 → s.val BI_WRITTEN + 4 ≤ s.val BI_SIZE → x.held = [] → 4096 < x.buffered + 4 →
    ∃ t, exec (.biDataWrite p v) s = .next t ∧ t.im.slotBytes = s.im.slotBytes ∧ t.regs = s.regs ∧ t.out = s.out ∧
      t.im.session.map (fun y => y.held) = some [v]) ∧
  (∀ (s : State) (n : Fin 4097) (v : Word) (x : BiSession), s.im.session = some x → x.held = [v] → x.buffered - n.val + 4 ≤ 4096 →
    s.val BI_WRITTEN + 4 < 2 ^ 32 →
    ∃ t, exec (.biPageProgramDone n) s = .next t ∧ t.slotOf x.slot = s.slotOf x.slot ++ leBytes 4 v.toNat ∧
      t.val BI_WRITTEN = s.val BI_WRITTEN + 4 ∧ t.im.session.map (fun y => y.held) = some [] ∧
      (∀ a, a ≠ BI_WRITTEN → t.reg a = s.reg a) ∧ t.out = s.out) ∧
  (∀ (s : State) (n : Fin 4097) (x : BiSession), s.im.session = some x → x.held = [] →
    exec (.biPageProgramDone n) s =
      .next (s.modIm fun m => { m with session := some { x with buffered := x.buffered - n } })) ∧
  (∀ (s : State) (p : Fin 5) (x : BiSession) (r : Bool), s.mayWrite p BI_CTL = true → s.im.session = some x → x.holder = p.val →
    (r = false ∨ s.domain p = 3) → s.get BI_SESSION_STATE = 2 → s.val BI_WRITTEN = s.val BI_SIZE → x.held = [] →
    ∃ t, exec (.biCommit p r) s = .next t ∧ t.get BI_SESSION_STATE = 3 ∧ t.get BI_CTL_REASON = 0 ∧ t.on BI_CTL_ROLLBACK = r ∧
      t.devRec = s.devRec ∧ t.im.slotBytes = s.im.slotBytes ∧ (∀ a, a ≠ BI_CTL → a ≠ BI_SESSION → t.reg a = s.reg a) ∧ t.out = s.out) ∧
  (∀ (s : State) (p : Fin 5) (x : BiSession), s.mayWrite p BI_CTL = true → s.im.session = some x → x.holder = p.val →
    s.domain p ≠ 3 →
    ∃ t, exec (.biCommit p true) s = .next t ∧ t.get BI_CTL_REASON = 0x0408 ∧ t.get BI_SESSION_STATE = s.get BI_SESSION_STATE ∧
      t.devRec = s.devRec ∧ t.out = s.out) ∧
  (∀ (s : State) (x : BiSession), s.im.session = some x → s.get BI_SESSION_STATE = 3 → crc32c (s.slotOf x.slot) = s.val BI_CRC →
    (s.slotOf x.slot).take 4 = [0x59, 0x4E, 0x42, 0x49] →
    ∃ t, exec .biCheckDone s = .next t ∧ t.get BI_SESSION_STATE = 4 ∧ t.im.session = none ∧ t.devRec.armed = true ∧
      t.devRec.rollback = s.on BI_CTL_ROLLBACK ∧ t.devRec.active = s.devRec.active ∧ t.devRec.lastBooted = s.devRec.lastBooted ∧
      t.im.slotBytes = s.im.slotBytes ∧ (∀ a, a ≠ BI_SESSION → t.reg a = s.reg a) ∧ t.out = s.out) ∧
  (∀ (s : State) (x : BiSession), s.im.session = some x → s.get BI_SESSION_STATE = 3 → crc32c (s.slotOf x.slot) ≠ s.val BI_CRC →
    ∃ t, exec .biCheckDone s = .next t ∧ t.get BI_SESSION_STATE = 2 ∧ t.get BI_CTL_REASON = 0x0908 ∧ t.val BI_WRITTEN = 0 ∧
      t.devRec = s.devRec ∧ t.im.session.map (fun y => y.holder) = some x.holder ∧ t.out = s.out) ∧
  (∀ (s : State) (p : Fin 5) (x : BiSession), s.mayWrite p BI_CTL = true → s.im.session = some x → x.holder = p.val →
    bits (s.val BI_CTL) 3 0 = 0 →
    ∃ t, exec (.biClose p) s = .next t ∧ t.im.session = none ∧ t.get BI_SESSION_STATE = 0 ∧ t.get BI_CTL_REASON = 0 ∧
      t.devRec = s.devRec ∧ t.im.slotBytes = s.im.slotBytes ∧ t.out = s.out) ∧
  (∀ (s : State) (x : BiSession), s.im.session = some x → s.get BI_SESSION_STATE = 2 → x.held = [] →
    tLe (tAdd x.lastAccess (10 * 2 ^ 48)) s.now = true →
    ∃ t, exec .biSessionExpire s = .next t ∧ t.im.session = none ∧ t.get BI_SESSION_STATE = 5 ∧ t.devRec = s.devRec ∧
      (∀ a, a ≠ BI_SESSION → t.reg a = s.reg a) ∧ t.out = s.out) ∧
  (∀ s : State, s.get BI_SESSION_STATE = 1 → exec .biSessionExpire s = .next s) ∧
  (∀ (s : State) (p : Fin 5), s.mayWrite p BI_CTL = true → s.im.session = none → 4 ≤ s.devState → bits (s.val BI_CTL) 3 0 = 0 →
    bits (s.val BI_CTL) 5 5 = 0 →
    ∃ t, exec (.biHoldNext p) s = .next t ∧ t.devRec = { s.devRec with holdNext := true } ∧ t.get BI_CTL_REASON = 0 ∧
      (∀ a, a ≠ BI_CTL → t.reg a = s.reg a) ∧ t.im.slotBytes = s.im.slotBytes ∧ t.out = s.out) ∧
  (∀ (s : State) (p : Fin 5), s.mayWrite p BI_CTL = true → s.devState ≠ 2 ∨ s.im.session.isSome = true → bits (s.val BI_CTL) 3 0 = 0 →
    ∃ t, exec (.biBoot p) s = .next t ∧ t.get BI_CTL_REASON = 0x0708 ∧ t.devState = s.devState ∧ t.devRec = s.devRec ∧ t.out = s.out) ∧
  (∀ (s : State) (p : Fin 5), s.mayWrite p BI_CTL = true → s.devState = 2 → s.im.session = none → bits (s.val BI_CTL) 3 0 = 0 →
    bits (s.val BI_CTL) 5 5 = 0 → s.im.flashSize ≠ 0 → s.devRec.armed = false → s.devRec.active < 2 →
    ∃ t, exec (.biBoot p) s = .next t ∧ t.get BI_CTL_REASON = 0 ∧ t.out = s.out ∧
      (s.slotCheck s.devRec.active = 0 →
        t.devState = 3 ∧ t.get BI_STATUS_SLOT = s.devRec.active ∧ t.get BI_STATUS_BOOT_REASON = 0 ∧ t.devRec = s.devRec) ∧
      (s.slotCheck s.devRec.active ≠ 0 → s.slotCheck (1 - s.devRec.active) = 0 →
        t.devState = 3 ∧ t.get BI_STATUS_SLOT = 1 - s.devRec.active ∧ t.devRec.active = 1 - s.devRec.active ∧
        t.get BI_STATUS_BOOT_REASON = s.slotCheck s.devRec.active % 65536) ∧
      (s.slotCheck s.devRec.active ≠ 0 → s.slotCheck (1 - s.devRec.active) ≠ 0 →
        t.devState = 2 ∧ t.devRec = s.devRec ∧ t.get BI_STATUS_BOOT_REASON = s.slotCheck s.devRec.active % 65536)) ∧
  (∀ (s : State) (p : Fin 5), s.mayWrite p BI_CTL = true → s.devState = 2 → s.im.session = none → bits (s.val BI_CTL) 3 0 = 0 →
    bits (s.val BI_CTL) 5 5 = 0 → s.im.flashSize = 0 →
    ∃ t, exec (.biBoot p) s = .next t ∧ t.get BI_STATUS_BOOT_REASON = 0x0906 ∧ t.devState = 2 ∧ t.devRec = s.devRec ∧ t.out = s.out)

/-- R522. A refused write's exact next state shows only the KEY field and the path's refusal slot changed. -/
def Obligations.KeySlotsAreBlownAndRevoked : Prop :=
  (∀ (s : State) (p : Fin 5) (k : Fin 4), s.mayWrite p BI_FUSE = true → s.ft.fuseVpp = true → s.domain p = 3 →
    (kvGetD s.im.keys k {}).hash = none →
    ∃ t, exec (.biFuseBlow p k) s = .next t ∧
      (kvGetD t.im.keys k {}).hash =
        some (BitVec.ofNat 384 (fromLe ((List.range 12).flatMap fun n => leBytes 4 (s.val (BI_KEYHASH n))))) ∧
      (kvGetD t.im.keys k {}).revoked = (kvGetD s.im.keys k {}).revoked ∧ bits (t.get BI_FUSE_STATE) k k = 0 ∧
      (∀ j ∈ List.range 4, j = k.val ∨ kvGetD t.im.keys j {} = kvGetD s.im.keys j {}) ∧ t.devRec = s.devRec ∧ t.out = s.out) ∧
  (∀ (s : State) (p : Fin 5) (k : Fin 4), s.mayWrite p BI_FUSE = true → s.ft.fuseVpp = true → s.domain p = 3 →
    (s.im.booted.map fun b => b.keySlot) ≠ some k.val →
    ∃ t, exec (.biFuseRevoke p k) s = .next t ∧ (kvGetD t.im.keys k {}).revoked = true ∧
      (kvGetD t.im.keys k {}).hash = (kvGetD s.im.keys k {}).hash ∧
      (∀ j ∈ List.range 4, j = k.val ∨ kvGetD t.im.keys j {} = kvGetD s.im.keys j {}) ∧ t.devRec = s.devRec ∧ t.out = s.out) ∧
  (∀ (s : State) (p : Fin 5) (k : Fin 4), s.mayWrite p BI_FUSE = true → s.ft.fuseVpp = false →
    exec (.biFuseBlow p k) s = .next (((s.biTouch p).put BI_FUSE_KEY k).recordRefusal p BI_FUSE true 0x0309) ∧
    exec (.biFuseRevoke p k) s = .next (((s.biTouch p).put BI_FUSE_KEY k).recordRefusal p BI_FUSE true 0x0309)) ∧
  (∀ (s : State) (p : Fin 5) (k : Fin 4), s.mayWrite p BI_FUSE = true → s.ft.fuseVpp = true → s.domain p ≠ 3 →
    exec (.biFuseBlow p k) s = .next (((s.biTouch p).put BI_FUSE_KEY k).recordRefusal p BI_FUSE true 0x0409) ∧
    exec (.biFuseRevoke p k) s = .next (((s.biTouch p).put BI_FUSE_KEY k).recordRefusal p BI_FUSE true 0x0409)) ∧
  (∀ (s : State) (p : Fin 5) (k : Fin 4), s.mayWrite p BI_FUSE = true → s.ft.fuseVpp = true → s.domain p = 3 →
    (kvGetD s.im.keys k {}).hash ≠ none →
    exec (.biFuseBlow p k) s = .next (((s.biTouch p).put BI_FUSE_KEY k).recordRefusal p BI_FUSE true 0x0709)) ∧
  (∀ (s : State) (p : Fin 5) (k : Fin 4), s.mayWrite p BI_FUSE = true → s.ft.fuseVpp = true → s.domain p = 3 →
    (s.im.booted.map fun b => b.keySlot) = some k.val →
    exec (.biFuseRevoke p k) s = .next (((s.biTouch p).put BI_FUSE_KEY k).recordRefusal p BI_FUSE true 0x0709))

/-- R529, R530; the windows of lost and absent regions are R547 and R2 (a write the page map denies is refused with 0401h first,
DEDUCED). -/
def Obligations.AccessesAreJudgedByThePageMap : Prop :=
  (∀ (s : State) (p : Fin 5) (a : BitVec 24) (v : Word), s.answers p = true → a.toNat % 4 = 0 →
    absentRegion s.variant (winOf a.toNat) = false → noRegister a.toNat = false → isProt a.toNat = false →
    s.domain p < bits (s.prot.active.page a.toNat) 3 2 ∨ s.domain p = 0 →
    exec (.registerWrite p a v) s = .next (s.recordRefusal p a.toNat true 0x0401)) ∧
  (∀ (s : State) (p : Fin 5) (a : BitVec 24), s.answers p = true → a.toNat % 4 = 0 →
    absentRegion s.variant (winOf a.toNat) = false → noRegister a.toNat = false →
    (s.domain p < bits (s.prot.active.page a.toNat) 1 0 ∧ s.domain p ≠ 0) ∨
      (s.domain p = 0 ∧ a.toNat ≠ GLOBAL_IDENT ∧ a.toNat ≠ GLOBAL_WHOAMI) →
    exec (.rcRegisterRead p a) s = .next ((s.recordRefusal p a.toNat false 0x0403).emit (.answer p a.toNat 0 0x0403))) ∧
  (∀ (s : State) (p : Fin 5) (a : BitVec 24) (o : BitVec 12) (v : Word), s.answers p = true → o.toNat % 4 = 0 → isProt o.toNat = true →
    a.toNat = o.toNat → noRegister a.toNat = false → s.domain p ≠ 3 →
    exec (.registerWrite p a v) s = .next (s.recordRefusal p a.toNat true 0x0402) ∧
    exec (.protStageWrite p o v) s = .next (s.recordRefusal p a.toNat true 0x0402)) ∧
  (∀ (s : State) (p : Fin 5) (a : Nat), s.domain p = 3 → s.judgeRead p a = 0 ∧
    (s.judgeWrite p a = 0 ∨ s.judgeWrite p a = 0x0801 ∨ s.judgeWrite p a = 0x070E)) ∧
  (∀ (s : State) (p : Fin 5) (a : BitVec 24) (v : Word), s.answers p = true → a.toNat % 4 = 0 →
    absentRegion s.variant (winOf a.toNat) = false → s.lost (winOf a.toNat) = true → noRegister a.toNat = false →
    bits (s.prot.active.page a.toNat) 3 2 ≤ s.domain p → s.domain p ≠ 0 →
    exec (.registerWrite p a v) s = .next (s.recordRefusal p a.toNat true 0x0801)) ∧
  (∀ (s : State) (p : Fin 5) (a : BitVec 24), s.answers p = true → a.toNat % 4 = 0 →
    absentRegion s.variant (winOf a.toNat) = false → s.lost (winOf a.toNat) = true → offOf a.toNat ≠ 0 → offOf a.toNat ≠ 4 → noRegister a.toNat = false →
    bits (s.prot.active.page a.toNat) 1 0 ≤ s.domain p → s.domain p ≠ 0 →
    exec (.rcRegisterRead p a) s = .next (s.emit (.answer p a.toNat 0 0))) ∧
  (∀ (s : State) (p : Fin 5) (k : Fin 16), k ≠ 0 → s.lost k = true → s.answers p = true → absentRegion s.variant k = false →
    bits (s.prot.active.page (REGION_STATE k)) 1 0 ≤ s.domain p → s.domain p ≠ 0 →
    exec (.rcRegisterRead p (BitVec.ofNat 24 (REGION_STATE k))) s = .next (s.emit (.answer p (REGION_STATE k) (s.reg (REGION_STATE k)) 0)) ∧
    exec (.rcRegisterRead p (BitVec.ofNat 24 (REGION_ID k))) s = .next (s.emit (.answer p (REGION_ID k) (s.reg (REGION_ID k)) 0))) ∧
  (∀ (s : State) (p : Fin 5) (a : BitVec 24) (v : Word), s.answers p = true → absentRegion s.variant (winOf a.toNat) = true →
    exec (.registerWrite p a v) s = .next s ∧
    exec (.rcRegisterRead p a) s = .next (s.emit (.answer p a.toNat 0 0))) ∧
  (∀ (s : State) (p : Fin 5) (a : BitVec 24), s.answers p = true → a.toNat % 4 = 0 → noRegister a.toNat = true →
    exec (.rcRegisterRead p a) s = .next (s.emit (.answer p a.toNat 0 0))) ∧
  (∀ a : Nat, a < 2 ^ 24 → State.reset.prot.active.page a = 9)

/-- R535 to R537. COMMIT with nothing staged gives up the stage, and a refused write of PROT_COMMIT leaves VIEW: the model's
readings (DEDUCED). -/
def Obligations.TheStageHasOneOwner : Prop :=
  (∀ (s : State) (p : Fin 5) (v : Word), s.mayWrite p 0x400 = true → s.prot.owner = .none ∨ s.prot.owner = .path p →
    ∃ t, exec (.protStageWrite p (BitVec.ofNat 12 PROT_CM_DEFAULT) v) s = .next t ∧ t.prot.owner = .path p ∧
      t.prot.staged = { s.prot.staged with cmDefault := BitVec.ofNat 4 v.toNat } ∧ t.prot.active = s.prot.active ∧
      t.prot.lastAccess = s.now ∧ t.get PROT_COMMIT_OWNER = p.val ∧ t.out = s.out ∧
      (∀ a, a ≠ PROT_COMMIT → t.reg a = s.reg a)) ∧
  (∀ (s : State) (p : Fin 5) (w : Fin 64) (v : Word), s.mayWrite p 0x400 = true → s.prot.owner = .none ∨ s.prot.owner = .path p →
    ∃ t, exec (.protStageWrite p (BitVec.ofNat 12 (PROT_CW_SIZE w)) v) s = .next t ∧ t.prot.owner = .path p ∧
      kvGetD t.prot.staged.cwSize w 0 = v ∧ t.prot.active = s.prot.active ∧ t.out = s.out) ∧
  (∀ (s : State) (p : Fin 5) (o : BitVec 12) (v : Word), s.mayWrite p o.toNat = true →
    o.toNat = PROT_CM_DEFAULT ∨ o.toNat = PROT_VOL_DEFAULT ∨ o.toNat = PROT_PATH_DOMAIN ∨ o.toNat = PROT_PG_DATA →
    s.stageHeld p = true →
    exec (.protStageWrite p o v) s = .next (s.recordRefusal p o.toNat true 0x0502)) ∧
  (∀ (s : State) (p : Fin 5) (v : Word), s.mayWrite p PROT_COMMIT = true → s.stageHeld p = true →
    exec (.protCommit p v) s = .next ((s.put PROT_COMMIT_REASON 0x0502).recordRefusal p PROT_COMMIT true 0x0502) ∧
    exec (.protDiscard p) s = .next (s.recordRefusal p PROT_COMMIT true 0x0502)) ∧
  (∀ (s : State) (p : Fin 5) (v : Word), s.mayWrite p PROT_COMMIT = true → s.stageHeld p = false → bits v.toNat 1 1 = 0 →
    s.prot.staged ≠ s.prot.active → s.prot.staged.commitCheck = 0 →
    ∃ t, exec (.protCommit p v) s = .next t ∧ t.prot.active = s.prot.staged ∧ t.prot.staged = s.prot.staged ∧
      t.prot.owner = .none ∧ t.val PROT_GEN = (s.val PROT_GEN + 1) % 2 ^ 32 ∧ t.get PROT_COMMIT_REASON = 0 ∧
      t.get PROT_COMMIT_OWNER = 15 ∧ t.get PROT_COMMIT_STAGED = 0 ∧ t.get PROT_COMMIT_VIEW = bits v.toNat 3 3 ∧
      (∀ a, a ≠ PROT_COMMIT → a ≠ PROT_GEN → t.reg a = s.reg a) ∧ t.out = s.out) ∧
  (∀ (s : State) (p : Fin 5) (v : Word), s.mayWrite p PROT_COMMIT = true → s.stageHeld p = false → bits v.toNat 1 1 = 0 →
    s.prot.staged ≠ s.prot.active → s.prot.staged.commitCheck ≠ 0 →
    ∃ t, exec (.protCommit p v) s = .next t ∧ t.prot.active = s.prot.active ∧ t.prot.staged = s.prot.staged ∧
      t.prot.owner = s.prot.owner ∧ t.get PROT_COMMIT_REASON = s.prot.staged.commitCheck ∧ t.val PROT_GEN = s.val PROT_GEN ∧
      t.out = s.out) ∧
  (∀ (s : State) (p : Fin 5) (v : Word), s.mayWrite p PROT_COMMIT = true → s.stageHeld p = false → bits v.toNat 1 1 = 1 →
    ∃ t, exec (.protCommit p v) s = .next t ∧ t.prot.active = s.prot.active ∧ t.prot.staged = s.prot.staged ∧
      t.prot.owner = s.prot.owner ∧ t.get PROT_COMMIT_REASON = 0x0105 ∧ t.out = s.out) ∧
  (∀ (s : State) (p : Fin 5) (v : Word), s.mayWrite p PROT_COMMIT = true → s.stageHeld p = false → bits v.toNat 1 1 = 0 →
    s.prot.staged = s.prot.active →
    ∃ t, exec (.protCommit p v) s = .next t ∧ t.prot.active = s.prot.active ∧ t.val PROT_GEN = s.val PROT_GEN ∧
      t.get PROT_COMMIT_REASON = 0 ∧ t.out = s.out) ∧
  (∀ (m : ProtSet), bits m.pathDomain.toNat 1 0 ≠ 3 → bits m.pathDomain.toNat 3 2 ≠ 3 → bits m.pathDomain.toNat 5 4 ≠ 3 →
    m.commitCheck = 0x0301) ∧
  (∀ (m : ProtSet), bits m.pathDomain.toNat 1 0 = 3 → bits m.cmDefault.toNat 1 0 = 0 ∨ bits m.cmDefault.toNat 3 2 = 0 →
    m.commitCheck = 0x0101) ∧
  (∀ (s : State) (p : Fin 5), s.mayWrite p PROT_COMMIT = true → s.stageHeld p = false →
    ∃ t, exec (.protDiscard p) s = .next t ∧ t.prot.staged = s.prot.active ∧ t.prot.active = s.prot.active ∧
      t.prot.owner = .none ∧ t.get PROT_COMMIT_OWNER = 15 ∧ t.get PROT_COMMIT_STAGED = 0 ∧
      (∀ a, a ≠ PROT_COMMIT → t.reg a = s.reg a) ∧ t.out = s.out) ∧
  (∀ (s : State) (p : Nat), s.prot.owner = .path p → tLe (tAdd s.prot.lastAccess (10 * 2 ^ 48)) s.now = true →
    ∃ t, exec .protStageExpire s = .next t ∧ t.prot.staged = s.prot.active ∧ t.prot.active = s.prot.active ∧
      t.prot.owner = .none ∧ (∀ a, a ≠ PROT_COMMIT → t.reg a = s.reg a) ∧ t.out = s.out) ∧
  (∀ (s : State) (p : Nat), s.prot.owner = .path p → tLe (tAdd s.prot.lastAccess (10 * 2 ^ 48)) s.now = false →
    exec .protStageExpire s = .next s) ∧
  (∀ s : State, s.prot.owner = .record ∨ s.prot.owner = .none → exec .protStageExpire s = .next s)

/-- R548, R549. -/
def Obligations.AlarmsAreCollapsedAndRaisedAgain : Prop :=
  (∀ (s : State) (r a : Fin 16) (h : AlarmHold) (u : DevTime), kvGetD s.alarm.holds (16 * r + a) {} = h → h.lastEmit = some u →
    h.count ≠ 0 → tLe (tAdd u (usTicks 1000)) s.now = true →
    ∃ t, exec (.alarmHoldExpire r a) s = .next t ∧
      t.out = s.out ++ [.frame ⟨sid 12 r, s.epoch 1, frameFlags s { region := 1, time := h.time, format := 0x0900 },
        (s.stream (sid 12 r)).seq, h.time, 0x0900, 0, 0, 1, [], leBytes 1 a ++ leBytes 1 r ++ leBytes 2 h.reason ++
          leBytes 4 h.arg ++ leBytes 4 h.count ++ leBytes 4 0⟩] ∧
      kvGetD t.alarm.holds (16 * r + a) {} = { lastEmit := some s.now } ∧ t.alarm.conds = s.alarm.conds ∧ t.regs = s.regs) ∧
  (∀ (s : State) (r a : Fin 16) (h : AlarmHold) (u : DevTime), kvGetD s.alarm.holds (16 * r + a) {} = h → h.lastEmit = some u →
    h.count = 0 ∨ tLe (tAdd u (usTicks 1000)) s.now = false → exec (.alarmHoldExpire r a) s = .next s) ∧
  (∀ (s : State) (p : Fin 5) (k : Fin 16) (v : BitVec 16), k ≠ 0 → s.mayWrite p (REGION_ALARM_STATUS k) = true →
    s.alarm.conds.all (fun c => decide (c.region ≠ k.val)) = true →
    ∃ t, exec (.alarmClear p k v) s = .next t ∧
      t.get (REGION_ALARM_STATUS_ALARMS k) = s.get (REGION_ALARM_STATUS_ALARMS k) &&& (65535 - v.toNat) ∧
      (∀ j ∈ allRegions, j = k.val ∨ t.reg (REGION_ALARM_STATUS j) = s.reg (REGION_ALARM_STATUS j)) ∧
      t.get GLOBAL_ALARM_STATUS_ALARMS = t.alarmOr ∧ t.alarm = s.alarm) ∧
  (∀ (s : State) (p : Fin 5) (k : Fin 16) (v : BitVec 16) (c : LevelCond), k ≠ 0 → s.mayWrite p (REGION_ALARM_STATUS k) = true →
    c ∈ s.alarm.conds → c.region = k.val → bits (s.get (REGION_ALARM_STATUS_ALARMS k)) c.kind.num c.kind.num = 1 →
    bits v.toNat c.kind.num c.kind.num = 1 →
    ∃ t, exec (.alarmClear p k v) s = .next t ∧ bits (t.get (REGION_ALARM_STATUS_ALARMS k)) c.kind.num c.kind.num = 1 ∧
      t.alarm.conds = s.alarm.conds)

/-- R81. -/
def Obligations.CountersAreReadWhole : Prop :=
  (∀ (s : State) (p : Fin 5) (n : Fin 32), s.mayRead p (ST_ET_EDGES_LO n) = true →
    ∃ t, exec (.counterSnapshotRead p (BitVec.ofNat 24 (ST_ET_EDGES_LO n))) s = .next t ∧
      t.out = s.out ++ [.answer p (ST_ET_EDGES_LO n) (s.reg (ST_ET_EDGES_LO n)) 0] ∧ t.regs = s.regs ∧
      kvGetD t.slots.pairs (p * 2 ^ 24 + ST_ET_EDGES_LO n) 0 = s.reg (ST_ET_EDGES_HI n) ∧
      (∀ q : Fin 5, q = p ∨ kvGetD t.slots.pairs (q * 2 ^ 24 + ST_ET_EDGES_LO n) 0 = kvGetD s.slots.pairs (q * 2 ^ 24 + ST_ET_EDGES_LO n) 0)) ∧
  (∀ (s : State) (p : Fin 5) (n : Fin 32), s.mayRead p (ST_ET_EDGES_HI n) = true →
    exec (.rcRegisterRead p (BitVec.ofNat 24 (ST_ET_EDGES_HI n))) s =
      .next (s.emit (.answer p (ST_ET_EDGES_HI n) (kvGetD s.slots.pairs (p * 2 ^ 24 + ST_ET_EDGES_LO n) 0) 0))) ∧
  (∀ (s : State) (p q : Fin 5) (n : Fin 32) (v : Word), s.mayRead p (ST_ET_EDGES_LO n) = true → q ≠ p →
    s.mayRead q (ST_ET_EDGES_LO n) = true →
    ∃ t, exec (.counterSnapshotRead p (BitVec.ofNat 24 (ST_ET_EDGES_LO n))) s = .next t ∧
      ∃ u, exec (.counterSnapshotRead q (BitVec.ofNat 24 (ST_ET_EDGES_LO n))) (t.setReg (ST_ET_EDGES_HI n) v) = .next u ∧
        kvGetD u.slots.pairs (p * 2 ^ 24 + ST_ET_EDGES_LO n) 0 = s.reg (ST_ET_EDGES_HI n) ∧
        kvGetD u.slots.pairs (q * 2 ^ 24 + ST_ET_EDGES_LO n) 0 = v)

/-- R8 to R10, R385, R458, R476, R525 to R527. -/
def Obligations.ManagementPathsReachTheRegisters : Prop :=
  (∀ (s : State) (p : Fin 5) (v : Word), s.mayWrite p (BT_WIN_ADDR 5) = true →
    ∃ t, exec (.registerWrite p (BitVec.ofNat 24 (BT_WIN_ADDR 5)) v) s = .next t ∧ t.val (BT_WIN_ADDR 5) = v.toNat % 2 ^ 14 +
      s.val (BT_WIN_ADDR 5) / 2 ^ 14 * 2 ^ 14 ∧ (∀ a, a ≠ (BT_WIN_ADDR 5) → t.reg a = s.reg a) ∧ t.out = s.out) ∧
  (∀ (s : State) (p : Fin 5) (a : BitVec 24) (v : Word), s.mayWrite p a.toNat = true → findReg a.toNat = none →
    isMsix a.toNat = false → exec (.registerWrite p a v) s = .next s) ∧
  (∀ (s : State) (p : Fin 5) (o : BitVec 12) (v : Word), isProt o.toNat = true →
    exec (.registerWrite p (BitVec.ofNat 24 o.toNat) v) s = exec (.protStageWrite p o v) s) ∧
  (∀ (s : State) (p : Fin 5) (v : Word), exec (.registerWrite p (BitVec.ofNat 24 BI_DATA) v) s = exec (.biDataWrite p v) s) ∧
  (∀ (s : State) (p : Fin 5) (k : Fin 2) (i : Fin 68) (v : Word), s.mayWrite p (KL_LANE_LIMIT (13 + k) i) = true →
    bits v.toNat 31 16 = 0 ∨ bits v.toNat 7 0 < 16 ∨ 240 < bits v.toNat 7 0 →
    exec (.registerWrite p (BitVec.ofNat 24 (KL_LANE_LIMIT (13 + k) i)) v) s =
      .next (s.recordRefusal p (KL_LANE_LIMIT (13 + k) i) true 0x01A3)) ∧
  (∀ (s : State) (p : Fin 5) (k : Fin 2) (i : Fin 68) (v : Word), s.mayWrite p (KL_LANE_LIMIT (13 + k) i) = true →
    bits v.toNat 31 16 ≠ 0 → 16 ≤ bits v.toNat 7 0 → bits v.toNat 7 0 ≤ 240 →
    ∃ t, exec (.registerWrite p (BitVec.ofNat 24 (KL_LANE_LIMIT (13 + k) i)) v) s = .next t ∧
      t.get (KL_LANE_LIMIT_UNCORR_MAX (13 + k) i) = bits v.toNat 31 16 ∧ t.get (KL_LANE_LIMIT_CORR_AVG (13 + k) i) = bits v.toNat 7 0 ∧
      (∀ a, a ≠ KL_LANE_LIMIT (13 + k) i → t.reg a = s.reg a) ∧ t.out = s.out) ∧
  (∀ (s : State) (p : Fin 5) (k : Fin 16), k ≠ 0 → s.mayRead p (FT_CORR k) = true →
    ∃ t, exec (.rcRegisterRead p (BitVec.ofNat 24 (FT_CORR k))) s = .next t ∧
      t.out = s.out ++ [.answer p (FT_CORR k) (s.reg (FT_CORR k)) 0] ∧ t.val (FT_CORR k) = 0 ∧
      (∀ a, a ≠ FT_CORR k → t.reg a = s.reg a)) ∧
  (∀ (s : State) (p : Fin 5) (a : BitVec 24), s.mayRead p a.toNat = true → findReg a.toNat = none →
    a.toNat < 0xF80000 ∨ 0xF81020 ≤ a.toNat →
    exec (.rcRegisterRead p a) s = .next (s.emit (.answer p a.toNat 0 0))) ∧
  (∀ (s u : State) (c : Nat) (dp : Fin 64) (m : KhMreq), s.khIn = true → s.klUp dp = true → m.target.toNat = s.khAddr → m.write = true →
    s.answers 2 = true → s.mgmtWrite 2 m.offset.toNat m.data.toNat = (u, c) →
    exec (.khMreq dp m) s = .next (match u.routePort m.requester.toNat with
      | some q => { u with out := u.out ++ u.sends q (.mrsp ⟨m.requester, m.tag, m.data, BitVec.ofNat 16 c⟩) }
      | none => u)) ∧
  (∀ (s u : State) (w : Word) (c : Nat) (dp : Fin 64) (m : KhMreq), s.khIn = true → s.klUp dp = true → m.target.toNat = s.khAddr →
    m.write = false → s.answers 2 = true → s.mgmtRead 2 m.offset.toNat = (u, w, c) →
    exec (.khMreq dp m) s = .next (match u.routePort m.requester.toNat with
      | some q => { u with out := u.out ++ u.sends q (.mrsp ⟨m.requester, m.tag, w, BitVec.ofNat 16 c⟩) }
      | none => u)) ∧
  (∀ (s : State) (dp : Fin 64) (m : KhMreq) (q : Nat), s.khIn = true → s.klUp dp = true → m.target.toNat ≠ s.khAddr →
    s.routePort m.target.toNat = some q → exec (.khMreq dp m) s = .next { s with out := s.out ++ s.sends q (.mreq m) }) ∧
  (∀ (s : State) (a : BitVec 24) (v w : Word), a.toNat % 4 = 0 → a.toNat + 8 ≤ 2 ^ 24 →
    exec (.windowMRequest true a 8 (leBytes 4 v.toNat ++ leBytes 4 w.toNat)) s =
      .next ((s.mgmtWrite 0 a.toNat v.toNat).1.mgmtWrite 0 (a.toNat + 4) w.toNat).1) ∧
  (∀ (s : State) (a : BitVec 24), a.toNat % 4 = 0 → exec (.windowMRequest false a 4 []) s = .next (s.readAt 0 a.toNat)) ∧
  (∀ (s : State) (a : BitVec 24) (bs : List Byte), a.toNat % 4 = 0 → bs.length < 4 →
    exec (.windowMRequest true a 4 bs) s = .next s) ∧
  (∀ (s : State) (q : Fin 32) (e : HqEntry), s.hqOn q = true → s.hqKind q = 2 → s.lost 15 = false → s.answers 0 = true →
    s.devState ≠ 7 → (s.hq q).result = none → (s.hq q).entries = [e] → (s.hq q).held = [] → e.valid = false → 0 < s.hqDepth q →
    s.get (HQ_CTL_WM_M1 q) + 1 ≤ s.hqDepth q - 1 →
    ∃ t, exec (.hqMgmtExecute q 0) s = .next t ∧ (t.hq q).entries = [] ∧ t.val (HQ_INVALID q) = (s.val (HQ_INVALID q) + 1) % 2 ^ 32 ∧
      (∀ a, a ≠ HQ_INVALID q → t.reg a = s.reg a) ∧ t.out = s.out) ∧
  (∀ (s : State) (q : Fin 32) (e : HqEntry) (a : Nat), s.hqOn q = true → s.hqKind q = 2 → s.lost 15 = false → s.answers 0 = true →
    s.devState ≠ 7 → (s.hq q).result = none → (s.hq q).entries = [e] → (s.hq q).held = [] → e.valid = true → e.hiByte 0 = 2 →
    bits e.hi.toNat 24 24 = 1 → a = ST_XO_AGE → bits e.lo.toNat 23 0 = a → s.mayRead 0 a = true → s.get (HQ_CTL_CQ q) ≠ q.val →
    s.get (HQ_CTL_CQ q) < 32 → (s.hq (s.get (HQ_CTL_CQ q))).entries.length < s.hqDepth (s.get (HQ_CTL_CQ q)) →
    ∃ t, exec (.hqMgmtExecute q 0) s = .next t ∧ (t.hq q).entries = [] ∧ t.regs = s.regs ∧
      (t.hq (s.get (HQ_CTL_CQ q))).entries = (s.hq (s.get (HQ_CTL_CQ q))).entries ++
        [hqCompletion (bits e.hi.toNat 63 32) (s.val a) (0x40 + q) 3 0 0 ((s.hq q).done + 1)]) ∧
  (∀ (s : State) (q : Fin 32) (e : Fin 3), s.hqOn q = false → exec (.hqMgmtExecute q e) s = .next s) ∧
  (∀ (s : State) (a : BitVec 24) (v : Word), s.answers 1 = true →
    ∃ t, exec (.i2cTransaction false (leBytes 3 a.toNat ++ leBytes 4 v.toNat)) s = .next t ∧ t.mport.i2c = a ∧
      t.regs = (s.mgmtWrite 1 a.toNat v.toNat).1.regs) ∧
  (∀ (s : State) (a : BitVec 24), s.answers 1 = true →
    exec (.i2cTransaction false (leBytes 3 a.toNat)) s = .next { s with mport := { s.mport with i2c := a } }) ∧
  (∀ (s : State), s.answers 1 = true → s.mayRead 1 ST_XO_AGE = true → s.mport.i2c = BitVec.ofNat 24 ST_XO_AGE →
    ∃ t, exec (.i2cTransaction true []) s = .next t ∧ t.mport.i2c = BitVec.ofNat 24 (ST_XO_AGE + 4) ∧ t.regs = s.regs ∧
      t.out = s.out ++ [.answer 1 ST_XO_AGE (s.reg ST_XO_AGE) 0]) ∧
  (∀ (s : State) (dr : BitVec 64), s.power.debugFuse = true →
    exec (.jtagMgmtAccess dr) s = .next { s with mport := { s.mport with jtag := 0 } }) ∧
  (∀ (s : State) (dr : BitVec 64), s.power.debugFuse = false → bits dr.toNat 24 24 = 0 → bits dr.toNat 23 0 = ST_XO_AGE →
    s.mayRead 3 ST_XO_AGE = true →
    ∃ t, exec (.jtagMgmtAccess dr) s = .next t ∧ t.mport.jtag.toNat = s.val ST_XO_AGE * 2 ^ 32 + 1 ∧ t.regs = s.regs) ∧
  (∀ (s : State) (a : BitVec 24) (v : Word), s.answers 4 = true →
    ∃ t, exec (.uartRequest 1 a v) s = .next t ∧ t.regs = (s.mgmtWrite 4 a.toNat v.toNat).1.regs ∧
      t.out.getLast? = some (.answer 4 a.toNat 0 (s.mgmtWrite 4 a.toNat v.toNat).2)) ∧
  (∀ (s : State) (a : BitVec 24) (v : Word), s.answers 4 = true → exec (.uartRequest 2 a v) s = .next (s.readAt 4 a.toNat)) ∧
  (∀ (s : State) (op : Byte) (a : BitVec 24) (v : Word), s.answers 4 = false ∨ op.toNat = 0 ∨ 2 < op.toNat →
    exec (.uartRequest op a v) s = .next s)

/-- R558, whole; the course of a run in the model's terms (R557, R563, R567, R568, R570 to R573). -/
def Obligations.CalibrationRunsMeasureStoreAndRamp : Prop :=
  (∀ (s : State) (p : Fin 5), s.mayWrite p CA_CTL = true → s.val CA_SCOPE % 2 ^ 18 ≠ 0 → 1 ≤ s.get CA_RAMP_STEPS_STEPS →
    s.get CA_RAMP_STEPS_STEPS ≤ 4096 → s.running = true → s.on CA_STATUS_BUSY = false →
    s.caInputs.all (fun n => s.inputExists n && !(s.on (SYN_STATUS_RAMPING (2 + n / 4))) && !(s.sysCalRuns n)) = true →
    ∃ t, exec (.caGo p) s = .next t ∧ t.get CA_CTL_REASON = 0 ∧ t.on CA_STATUS_BUSY = true ∧ t.on CA_STATUS_MEASURING = true ∧
      t.get CA_STATUS_DONE = 0 ∧ t.ca.scope = s.val CA_SCOPE % 2 ^ 18 ∧ t.ca.results = [] ∧ t.ca.slots = s.ca.slots ∧
      (∀ i ∈ List.range 4, kvGetD t.ca.todo i [] = s.caInputs.filter (fun n => s.caMeasures n && decide (n / 4 = i))) ∧
      (∀ i ∈ List.range 4, ∀ n, (kvGetD t.ca.todo i []).head? = some n →
        kvGet t.ca.lossFrom n = some s.now ∧ ((s.inp n).runs = true → t.on (AF_IN_STATUS_RUNNING n) = false ∨ (s.inp n).endAt.isSome = true)) ∧
      (∀ a, a ≠ CA_CTL → a ≠ CA_STATUS → (∀ n ∈ List.range 16, a ≠ AF_IN_STATUS n) → t.reg a = s.reg a) ∧ t.out = s.out) ∧
  (∀ (s : State) (p : Fin 5), s.mayWrite p CA_CTL = true →
    s.val CA_SCOPE % 2 ^ 18 = 0 ∨ s.get CA_RAMP_STEPS_STEPS < 1 ∨ 4096 < s.get CA_RAMP_STEPS_STEPS →
    exec (.caGo p) s = .next ((s.put CA_CTL_REASON 0x010D).recordRefusal p CA_CTL true 0x010D)) ∧
  (∀ (s : State) (p : Fin 5), s.mayWrite p CA_CTL = true → s.val CA_SCOPE % 2 ^ 18 ≠ 0 → 1 ≤ s.get CA_RAMP_STEPS_STEPS →
    s.get CA_RAMP_STEPS_STEPS ≤ 4096 → s.caInputs.any (fun n => !(s.inputExists n)) = true →
    exec (.caGo p) s = .next ((s.put CA_CTL_REASON 0x0210).recordRefusal p CA_CTL true 0x0210)) ∧
  (∀ (s : State) (p : Fin 5), s.mayWrite p CA_CTL = true → s.val CA_SCOPE % 2 ^ 18 ≠ 0 → 1 ≤ s.get CA_RAMP_STEPS_STEPS →
    s.get CA_RAMP_STEPS_STEPS ≤ 4096 → s.caInputs.all (fun n => s.inputExists n) = true →
    s.running = false ∨ s.caInputs.any (fun n => s.on (SYN_STATUS_RAMPING (2 + n / 4))) = true →
    exec (.caGo p) s = .next ((s.put CA_CTL_REASON 0x070D).recordRefusal p CA_CTL true 0x070D)) ∧
  (∀ (s : State) (p : Fin 5), s.mayWrite p CA_CTL = true → s.val CA_SCOPE % 2 ^ 18 ≠ 0 → 1 ≤ s.get CA_RAMP_STEPS_STEPS →
    s.get CA_RAMP_STEPS_STEPS ≤ 4096 → s.running = true →
    s.caInputs.all (fun n => s.inputExists n && !(s.on (SYN_STATUS_RAMPING (2 + n / 4)))) = true →
    s.on CA_STATUS_BUSY = true ∨ s.caInputs.any (fun n => s.sysCalRuns n) = true →
    exec (.caGo p) s = .next ((s.put CA_CTL_REASON 0x050D).recordRefusal p CA_CTL true 0x050D)) ∧
  (∀ (s : State) (i : Fin 4) (x : InCal) (n : Nat) (l : List Nat), kvGetD s.ca.todo i [] = n :: l → n < 16 → inTolerance x = true →
    tLt s.now (tAdd (kvGetD s.ca.lossFrom n s.now) (s.caTicks n)) = false →
    ∃ t, exec (.caInputMeasDone i x) s = .next t ∧ kvGet t.ca.results n = some x ∧ kvGet t.ca.ends n = some s.now ∧
      kvGetD t.ca.todo i [] = l ∧ bits (t.get CA_TOL_ITEMS) n n = 0 ∧ t.ca.slots = s.ca.slots ∧
      kvGet t.ca.lossFrom n = none ∧
      (l = [] → s.inputRuns n = true → (s.inp n).held = false → (s.inp n).exhausted = false → s.lost (2 + n / 4) = false →
        (kvGetD s.time.syn (2 + n / 4) {}).discardFrom = none → s.dutyUp (2 + n / 4) (n % 4) = true → s.stoppedAll = false →
        t.on (AF_IN_STATUS_RUNNING n) = true ∧ (t.inp n).lastSample = instTime (s.fsHz n) (evenInst (s.fsHz n) s.now - 1) ∧
        ⟨.input n, .syncReset, 0xFFFF, instTime (s.fsHz n) (evenInst (s.fsHz n) s.now), 0, true⟩ ∈ t.flow.requests ∧
        (t.out.drop s.out.length).any (fun e => e.gapOf.map (fun g => (g.1, g.2.2)) = some (sid 0 n, 8, false)) = true)) ∧
  (∀ (s : State) (i : Fin 4) (x : InCal) (n : Nat) (l : List Nat), kvGetD s.ca.todo i [] = n :: l → n < 16 → inTolerance x = false →
    tLt s.now (tAdd (kvGetD s.ca.lossFrom n s.now) (s.caTicks n)) = false →
    ∃ t, exec (.caInputMeasDone i x) s = .next t ∧ t.ca.results = s.ca.results ∧ kvGetD t.ca.todo i [] = l ∧
      bits (t.get CA_TOL_ITEMS) n n = 1 ∧ t.ca.slots = s.ca.slots ∧
      t.alarm.conds.any (fun c => decide (c.region = 1 ∧ c.kind = .calibration ∧ c.arg = n)) = true) ∧
  (∀ (s : State) (i : Fin 4) (x : InCal),
    (kvGetD s.ca.todo i []).head?.all (fun n => tLt s.now (tAdd (kvGetD s.ca.lossFrom n s.now) (s.caTicks n))) = true →
    exec (.caInputMeasDone i x) s = .next s) ∧
  (∀ (s : State) (c : Fin 32) (ws : List Nat) (d : Int), s.on CA_STATUS_MEASURING = true → bits s.ca.scope 17 17 = 1 → ws.length = 64 →
    ∃ t, exec (.caInterpolatorExchange c ws d) s = .next t ∧ t.etBins c = ws.map (fun w => ratioOf (w : Nat)) ∧
      t.etDelay c = ratioOf d ∧ kvGetD t.ca.interp c false = (!(kvGetD s.ca.interp c false)) ∧ t.et = s.et ∧
      t.regs = s.regs ∧ t.out = s.out) ∧
  (∀ (s : State) (c : Fin 32) (ws : List Nat) (d : Int), s.on CA_STATUS_MEASURING = false ∨ bits s.ca.scope 17 17 = 0 →
    exec (.caInterpolatorExchange c ws d) s = .next s) ∧
  (∀ (s : State) (syn : List (Word × Word)), s.on CA_STATUS_MEASURING = true → s.ca.todo = [] →
    bits s.ca.scope 17 17 = 0 ∨ 32 ≤ s.ca.binRes.length →
    ∃ t, exec (.caRunStore syn) s = .next t ∧ t.on CA_STATUS_MEASURING = false ∧ t.on CA_STATUS_SLOT_VALID = true ∧
      t.val CA_COUNT = (s.val CA_COUNT + 1) % 2 ^ 32 ∧ t.ca.stores = s.ca.stores + 1 ∧ t.ca.oldSlots = s.ca.slots ∧
      (kvGet t.ca.slots s.caSlot).map (fun x => x.tags) = some [s.temp 0, s.temp 1, s.temp 2] ∧
      (s.ca.results = [] → t.on CA_STATUS_BUSY = false ∧ t.on CA_STATUS_RAMPING = false) ∧
      (s.ca.results ≠ [] → t.on CA_STATUS_RAMPING = true ∧ t.on CA_STATUS_BUSY = s.on CA_STATUS_BUSY) ∧
      (∀ n ∈ List.range 16, (kvGet s.ca.results n).isSome = true → kvGet t.ca.ramps n = some {})) ∧
  (∀ (s : State) (syn : List (Word × Word)), s.on CA_STATUS_MEASURING = false ∨ s.ca.todo ≠ [] →
    exec (.caRunStore syn) s = .next s) ∧
  (∀ (s : State) (n : Fin 16) (i : DevTime) (m : Marker) (rest : List (DevTime × Marker)) (r : CalRamp),
    (s.inp n).todo = (i, m) :: rest → m.type = .calRamp → (s.inp n).applyPending = false → kvGet s.ca.ramps n = some r →
    s.ca.rampNs ≠ 0 →
    ∃ t, exec (.markerCalRampInput n) s = .next t ∧ kvGet t.ca.ramps n = some { r with begun := true, start := m.time } ∧
      t.regs = s.regs ∧ t.inp n = { s.inp n with todo := rest } ∧ t.out = s.out) ∧
  (∀ (s : State) (n : Fin 16) (i : DevTime) (m : Marker) (rest : List (DevTime × Marker)),
    (s.inp n).todo = (i, m) :: rest → m.type = .calRamp → (s.inp n).applyPending = true →
    ∃ t, exec (.markerCalRampInput n) s = .next t ∧ (t.inp n).applyPending = false ∧ t.on (AF_IN_STATUS_RAMPING n) = true ∧
      (t.inp n).sys.head? = some ⟨i, ((s.inp n).sysAt i).1, ((s.inp n).sysAt i).2, s.getS (AF_SYSCAL_OFFSET_STAGED n),
        (s.val (AF_SYSCAL_GAIN n) : Int)⟩ ∧ (t.inp n).todo = rest ∧ t.ca = s.ca ∧ t.out = s.out ∧
      (∀ a, a ≠ AF_IN_STATUS n → t.reg a = s.reg a)) ∧
  (∀ (s : State) (n : Fin 16), (s.inp n).todo.head?.all (fun p => p.2.type != .calRamp) = true →
    exec (.markerCalRampInput n) s = .next s) ∧
  (∀ (s : State) (n : Fin 16) (r : CalRamp), kvGet s.ca.ramps n = some r → r.begun = true →
    tLe (tAdd r.start (s.caStepTicks (r.k + 1))) s.now = true → r.k + 1 < s.ca.steps →
    ∃ t, exec (.caRampStep n) s = .next t ∧ kvGet t.ca.ramps n = some { r with k := r.k + 1 } ∧
      (s.ca.rampNs ≠ 0 → (t.inp n).cal.head? = some ⟨tAddI (tAdd r.start (s.caStepTicks (r.k + 1)))
        (-(s.inp n).lag), t.inTarget n, t.inTarget n⟩) ∧ t.regs = s.regs ∧ t.out = s.out) ∧
  (∀ (s : State) (n : Fin 16) (r : CalRamp), s.ca.ramps = [(n.val, r)] → r.begun = true →
    tLe (tAdd r.start (s.caStepTicks (r.k + 1))) s.now = true → s.ca.steps ≤ r.k + 1 →
    ∃ t, exec (.caRampStep n) s = .next t ∧ t.ca.ramps = [] ∧ t.ca.oldSlots = [] ∧ t.on CA_STATUS_RAMPING = false ∧
      t.on CA_STATUS_BUSY = false ∧ (∀ a, a ≠ CA_STATUS → t.reg a = s.reg a) ∧ t.out = s.out) ∧
  (∀ (s : State) (n : Fin 16) (r : CalRamp), kvGet s.ca.ramps n = some r → r.begun = false → exec (.caRampStep n) s = .next s) ∧
  (∀ (s : State) (i : Fin 4), ∃ t, exec (.caTempEval i) s = .next t ∧ t.regs = s.regs ∧ t.ca = s.ca ∧ t.out = s.out ∧
    (∀ k ∈ List.range 4, s.inputExists (4 * i + k) = true →
      (t.inp (4 * i + k)).cal.head? = some ⟨s.inputNow (4 * i + k), (s.inp (4 * i + k)).corr (s.inputNow (4 * i + k)),
        s.inTarget (4 * i + k)⟩))

/-- Faults and takeovers (R577 to R591). -/
def Obligations.FailedBlocksAreTakenOver : Prop :=
  (∀ (s : State) (k : Fin 16) (b c : Fin 256) (d : Nat) (g : BlkKind) (ar bit : Fin 256) (ad : Word), 2 ≤ k.val → 2 ≤ s.devState →
    ¬(13 ≤ k.val ∧ k.val ≤ 14 ∧ b.val ≤ 67) → ¬(k.val = 12 ∧ 16 ≤ b.val ∧ b.val ≤ 47) → absentRegion s.variant k = false →
    s.lost k = false → kindOf k b = some g → s.blk k b = ⟨.serving, some d⟩ → d ≠ dcoOf k → (s.ftr k).takeover = none →
    (s.ftr k).waiting = [] → g.all.find? (fun j => (s.blk k j).state = .freeSpare) = some c.val →
    ∃ t, exec (.blockCheckFail k b ar ad bit) s = .next t ∧ t.blk k b = ⟨.quarantined, none⟩ ∧ t.blk k c = ⟨.serving, some d⟩ ∧
      (t.ftr k).takeover = some ⟨b, c, d, s.now⟩ ∧
      t.get (REGION_EPOCH_EPOCH k) = (if s.get (REGION_EPOCH_EPOCH k) = 255 then 1 else s.get (REGION_EPOCH_EPOCH k) + 1) ∧
      kvGet (t.ftr k).log ((s.ftr k).logged % 64) = some ⟨b, ar, 2, 3, bit, ad.toNat, 0, 0⟩ ∧
      t.get (REGION_SPARES_FREE k) = s.get (REGION_SPARES_FREE k) ∧ t.flow.requests = s.flow.requests ∧
      (∀ id : BitVec 16, (s.stream id).opened = true → s.streamRegion id = k.val → s.dutyHas k d id = false →
        (t.stream id).markers.any (fun m => decide (m.type = .epoch ∧ m.target = id ∧ m.time = s.now ∧
          m.arg = BitVec.ofNat 64 (t.epoch k).toNat)) = true)) ∧
  (∀ (s : State) (k : Fin 16) (b : Fin 256) (g : BlkKind) (x : Takeover) (ar bit : Fin 256) (ad : Word), 2 ≤ k.val → 2 ≤ s.devState →
    ¬(13 ≤ k.val ∧ k.val ≤ 14 ∧ b.val ≤ 67) → ¬(k.val = 12 ∧ 16 ≤ b.val ∧ b.val ≤ 47) → absentRegion s.variant k = false →
    s.lost k = false → kindOf k b = some g → (s.blk k b).state = .serving → (s.ftr k).takeover = some x →
    (s.ftr k).waiting.contains b.val = false →
    ∃ t, exec (.blockCheckFail k b ar ad bit) s = .next t ∧ (t.ftr k).waiting = (s.ftr k).waiting ++ [b.val] ∧
      (t.ftr k).takeover = some x ∧ t.blk k b = s.blk k b ∧ t.get (REGION_EPOCH_EPOCH k) = s.get (REGION_EPOCH_EPOCH k)) ∧
  (∀ (s : State) (k : Fin 16) (b : Fin 256) (d : Nat) (g : BlkKind) (ar bit : Fin 256) (ad : Word), 2 ≤ k.val → 2 ≤ s.devState →
    ¬(13 ≤ k.val ∧ k.val ≤ 14 ∧ b.val ≤ 67) → ¬(k.val = 12 ∧ 16 ≤ b.val ∧ b.val ≤ 47) → absentRegion s.variant k = false →
    s.lost k = false → kindOf k b = some g → s.blk k b = ⟨.serving, some d⟩ → d ≠ dcoOf k → (s.ftr k).takeover = none →
    (s.ftr k).waiting = [] → (s.ftr k).patrol = none → g.all.find? (fun j => (s.blk k j).state = .freeSpare) = none →
    ∃ t, exec (.blockCheckFail k b ar ad bit) s = .next t ∧ t.blk k b = ⟨.quarantined, none⟩ ∧ (t.ftr k).takeover = none ∧
      bits (t.get (REGION_ALARM_STATUS_ALARMS k)) 13 13 = 1 ∧ t.get (REGION_EPOCH_EPOCH k) = s.get (REGION_EPOCH_EPOCH k)) ∧
  (∀ (s : State) (b : Fin 256) (ar bit : Fin 256) (ad : Word), b.val = 0 ∨ b.val = 2 → 4 ≤ s.devState → s.devState ≤ 6 →
    ∃ t, exec (.blockCheckFail 1 b ar ad bit) s = .next t ∧ t.devState = 7 ∧ t.get GLOBAL_DEVSTATE_SAFE_CAUSE = 0x080F ∧
      t.get ST_FT_CHIP_KIND = (if b.val = 0 then 1 else 2)) ∧
  (∀ (s : State) (k : Fin 16) (b : Fin 256) (ar bit : Fin 256) (ad : Word), k.val = 0 ∨ s.devState < 2 →
    exec (.blockCheckFail k b ar ad bit) s = .next s) ∧
  (∀ (s : State) (n : Fin 16) (k : Fin 16) (b c : Fin 256), k.val = 6 + n.val / 4 → 2 ≤ s.devState →
    absentRegion s.variant k = false → s.lost k = false → s.server k (n % 4) = some b.val → b.val ≤ 4 →
    s.blk k b = ⟨.serving, some (n % 4)⟩ → (s.ftr k).takeover = none → (s.ftr k).waiting = [] →
    (List.range 5).find? (fun j => (s.blk k j).state = .freeSpare) = some c.val →
    ∃ t, exec (.pipelineCheckFail n) s = .next t ∧ t.blk k b = ⟨.quarantined, none⟩ ∧ t.blk k c = ⟨.serving, some (n % 4)⟩ ∧
      (t.ftr k).takeover = some ⟨b, c, n % 4, s.now⟩ ∧ t.get (BT_STATUS_PIPE n) = c.val) ∧
  (∀ (s : State) (n : Fin 16), s.server (6 + n / 4) (n % 4) = none → exec (.pipelineCheckFail n) s = .next s) ∧
  (∀ (s : State) (k : Fin 16) (x : Takeover), k ≠ 0 → (s.ftr k).takeover = some x → (s.ftr k).waiting = [] → x.spare < 256 →
    ∃ t, exec (.blockTakeoverDone k) s = .next t ∧ (t.ftr k).takeover = none ∧
      t.val (FT_MASKED k) = (s.val (FT_MASKED k) + 1) % 2 ^ 32 ∧ t.get (REGION_SPARES_FREE k) = s.get (REGION_SPARES_FREE k) - 1 ∧
      (∀ j ∈ List.range 80, t.blk k j = s.blk k j) ∧ t.get (REGION_EPOCH_EPOCH k) = s.get (REGION_EPOCH_EPOCH k) ∧
      bits (t.get (REGION_ALARM_STATUS_ALARMS k)) 10 10 = 1) ∧
  (∀ (s : State) (k : Fin 16), (s.ftr k).takeover = none → exec (.blockTakeoverDone k) s = .next s) ∧
  (∀ (s : State) (k : Fin 16), 2 ≤ k.val → 2 ≤ s.devState → s.lost k = false → absentRegion s.variant k = false →
    ∃ t, exec (.regionPollMiss k) s = .next t ∧ t.lost k = true ∧ t.get (REGION_STATE_CAUSE k) = 0x080F ∧
      bits (t.get GLOBAL_HEALTH_LOST) k k = 1 ∧ bits (t.get GLOBAL_HEALTH_HEALTH) 6 6 = 1 ∧
      bits (t.get ST_FT_REPLACE_CAUSES) 0 0 = 1 ∧ bits (t.get (REGION_ALARM_STATUS_ALARMS k)) 13 13 = 1 ∧
      t.devState = s.devState ∧ (∀ j ∈ allRegions, j = k.val ∨ t.regionState j = s.regionState j)) ∧
  (∀ (s : State) (k : Fin 16), k.val = 0 ∨ s.devState < 2 ∨ (2 ≤ k.val ∧ s.lost k = true) → exec (.regionPollMiss k) s = .next s) ∧
  (∀ (s : State) (k : Fin 16) (b : Fin 256) (ar : Fin 65536) (row : Word) (l : List DevTime), k ≠ 0 → 2 ≤ s.devState →
    absentRegion s.variant k = false → s.lost k = false →
    l = (kvGetD (s.ftr k).rowCorr ((b * 65536 + ar) * 2 ^ 32 + row.toNat) []).filter
      (fun u => tLt s.now (tAdd u (usTicks 1000000))) → l.length < 15 →
    ∃ t, exec (.sramCorrection k b ar row) s = .next t ∧ t.val (FT_CORR k) = (s.val (FT_CORR k) + 1) % 2 ^ 32 ∧
      (∀ a, a ≠ FT_CORR k → t.reg a = s.reg a) ∧ t.ft.repairs = s.ft.repairs ∧ t.out = s.out ∧ t.flow = s.flow ∧
      kvGetD (t.ftr k).rowCorr ((b * 65536 + ar) * 2 ^ 32 + row.toNat) [] = s.now :: l) ∧
  (∀ (s : State) (k : Fin 16) (b : Fin 256) (ar : Fin 65536) (row : Word) (l : List DevTime), k ≠ 0 → 2 ≤ s.devState →
    absentRegion s.variant k = false → s.lost k = false →
    l = (kvGetD (s.ftr k).rowCorr ((b * 65536 + ar) * 2 ^ 32 + row.toNat) []).filter
      (fun u => tLt s.now (tAdd u (usTicks 1000000))) → 15 ≤ l.length →
    ∃ t, exec (.sramCorrection k b ar row) s = .next t ∧ t.val (FT_CORR k) = (s.val (FT_CORR k) + 1) % 2 ^ 32 ∧
      (∀ a, a ≠ FT_CORR k → t.reg a = s.reg a) ∧ t.out = s.out ∧
      t.ft.repairs.map (fun r => (r.region, r.block, r.array, r.address, r.fused)) =
        s.ft.repairs.map (fun r => (r.region, r.block, r.array, r.address, r.fused)) ++ [(k.val, b.val, ar.val, row.toNat, false)])

/-- R607, whole; and R584, R593, R596, R599, R600, R602, R605 in the model's terms. -/
def Obligations.ReadmissionTestsFusesAndHeat : Prop :=
  (∀ (s : State) (p : Fin 5) (k : Fin 16) (v : Word) (b : Nat), k ≠ 0 → s.mayWrite p (REGION_BIST_CTL k) = true → bits v.toNat 0 0 = 1 →
    b = bits v.toNat 15 8 → s.domain p = 3 → (kindOf k b).isSome = true → (s.blk k b).state = .quarantined →
    (s.ftr k).readmit = none →
    ∃ t, exec (.ftReadmit p k v) s = .next t ∧ (t.ftr k).readmit = some b ∧ t.on (REGION_BIST_CTL_READMIT k) = true ∧
      t.get (REGION_BIST_RESULT_VERDICT k) = 4 ∧ t.blk k b = s.blk k b ∧ t.get (REGION_BIST_CTL_BLOCK k) = b ∧
      (∀ a, a ≠ REGION_BIST_CTL k → a ≠ REGION_BIST_RESULT k → t.reg a = s.reg a) ∧ t.out = s.out) ∧
  (∀ (s u : State) (p : Fin 5) (k : Fin 16) (v : Word), k ≠ 0 → s.mayWrite p (REGION_BIST_CTL k) = true → bits v.toNat 0 0 = 1 →
    u = (s.put (REGION_BIST_CTL_BLOCK k) (bits v.toNat 15 8)).put (REGION_BIST_CTL_PATROL_EN k) (bits v.toNat 2 2) →
    s.domain p ≠ 3 →
    exec (.ftReadmit p k v) s = .next ((u.put (REGION_BIST_CTL_REASON k) 0x040E).recordRefusal p (REGION_BIST_CTL k) true 0x040E)) ∧
  (∀ (s u : State) (p : Fin 5) (k : Fin 16) (v : Word), k ≠ 0 → s.mayWrite p (REGION_BIST_CTL k) = true → bits v.toNat 0 0 = 1 →
    u = (s.put (REGION_BIST_CTL_BLOCK k) (bits v.toNat 15 8)).put (REGION_BIST_CTL_PATROL_EN k) (bits v.toNat 2 2) →
    s.domain p = 3 → kindOf k (bits v.toNat 15 8) = none →
    exec (.ftReadmit p k v) s = .next ((u.put (REGION_BIST_CTL_REASON k) 0x010E).recordRefusal p (REGION_BIST_CTL k) true 0x010E)) ∧
  (∀ (s u : State) (p : Fin 5) (k : Fin 16) (v : Word), k ≠ 0 → s.mayWrite p (REGION_BIST_CTL k) = true → bits v.toNat 0 0 = 1 →
    u = (s.put (REGION_BIST_CTL_BLOCK k) (bits v.toNat 15 8)).put (REGION_BIST_CTL_PATROL_EN k) (bits v.toNat 2 2) →
    s.domain p = 3 → (kindOf k (bits v.toNat 15 8)).isSome = true → (s.blk k (bits v.toNat 15 8)).state ≠ .quarantined →
    exec (.ftReadmit p k v) s = .next ((u.put (REGION_BIST_CTL_REASON k) 0x070E).recordRefusal p (REGION_BIST_CTL k) true 0x070E)) ∧
  (∀ (s u : State) (p : Fin 5) (k : Fin 16) (v : Word), k ≠ 0 → s.mayWrite p (REGION_BIST_CTL k) = true → bits v.toNat 0 0 = 1 →
    u = (s.put (REGION_BIST_CTL_BLOCK k) (bits v.toNat 15 8)).put (REGION_BIST_CTL_PATROL_EN k) (bits v.toNat 2 2) →
    s.domain p = 3 → (kindOf k (bits v.toNat 15 8)).isSome = true → (s.blk k (bits v.toNat 15 8)).state = .quarantined →
    (s.ftr k).readmit.isSome = true →
    exec (.ftReadmit p k v) s = .next ((u.put (REGION_BIST_CTL_REASON k) 0x050E).recordRefusal p (REGION_BIST_CTL k) true 0x050E)) ∧
  (∀ (s : State) (p : Fin 5) (k : Fin 16) (v : Word), k ≠ 0 → s.mayWrite p (FT_PATROL k) = true → bits v.toNat 31 16 < 60 →
    exec (.registerWrite p (BitVec.ofNat 24 (FT_PATROL k)) v) s = .next (s.recordRefusal p (FT_PATROL k) true 0x010E)) ∧
  (∀ (s : State) (p : Fin 5), s.mayWrite p ST_FT_THERM_BUDGET = true →
    exec (.registerWrite p (BitVec.ofNat 24 ST_FT_THERM_BUDGET) 0) s = .next (s.recordRefusal p ST_FT_THERM_BUDGET true 0x010E)) ∧
  (∀ (s : State) (p : Fin 5) (c : Nat), s.mayWrite p ST_FT_FUSE = true →
    c = (if s.ft.fuseVpp = false then 0x030E else if s.domain p ≠ 3 then 0x040E else if s.get ST_FT_FUSE_USE_FREE = 0 then 0x0228 else 0) →
    c ≠ 0 → exec (.ftFuseBlow p) s = .next ((s.put ST_FT_FUSE_REASON c).recordRefusal p ST_FT_FUSE true c)) ∧
  (∀ (s : State) (p : Fin 5) (n : Nat), s.mayWrite p ST_FT_FUSE = true → s.ft.fuseVpp = true → s.domain p = 3 →
    s.get ST_FT_FUSE_USE_FREE ≠ 0 → n = (s.ft.repairs.filter (fun r => !r.fused)).length → n ≤ s.get ST_FT_FUSE_USE_FREE →
    ∃ t, exec (.ftFuseBlow p) s = .next t ∧ t.ft.repairs.all (fun r => r.fused) = true ∧ t.ft.repairs.length = s.ft.repairs.length ∧
      t.get ST_FT_FUSE_USE_FREE = s.get ST_FT_FUSE_USE_FREE - n ∧ t.get ST_FT_FUSE_REASON = 0) ∧
  (∀ (s : State) (k : Fin 16) (b : Nat) (ar bit : Fin 256) (ad : Word), k ≠ 0 → (s.ftr k).readmit = some b → kindOf k b ≠ none →
    absentRegion s.variant k = false →
    ∃ t, exec (.ftReadmitDone k true (Config.patternCount k b) ar ad bit) s = .next t ∧ (t.ftr k).readmit = none ∧
      t.blk k b = ⟨.freeSpare, none⟩ ∧ t.get (REGION_BIST_RESULT_VERDICT k) = 1 ∧ t.get (REGION_BIST_CTL_REASON k) = 0 ∧
      t.on (REGION_BIST_CTL_READMIT k) = false ∧ t.get (REGION_SPARES_FREE k) = (s.get (REGION_SPARES_FREE k) + 1) % 256) ∧
  (∀ (s : State) (k : Fin 16) (b : Nat) (n : Word) (ar bit : Fin 256) (ad : Word), k ≠ 0 → (s.ftr k).readmit = some b →
    ∃ t, exec (.ftReadmitDone k false n ar ad bit) s = .next t ∧ (t.ftr k).readmit = none ∧ t.blk k b = s.blk k b ∧
      t.get (REGION_BIST_RESULT_VERDICT k) = (if n.toNat < (Config.patternCount k b).toNat then 3 else 2) ∧
      t.get (REGION_BIST_CTL_REASON k) = 0x080E ∧ t.get (REGION_SPARES_FREE k) = s.get (REGION_SPARES_FREE k)) ∧
  (∀ (s : State) (k : Fin 16) (x : Bool) (n : Word) (ar bit : Fin 256) (ad : Word), (s.ftr k).readmit = none →
    exec (.ftReadmitDone k x n ar ad bit) s = .next s) ∧
  (∀ (s : State) (k : Fin 16) (b sp d : Nat) (m : Bool), k ≠ 0 → absentRegion s.variant k = false → s.lost k = false → s.running = true →
    s.on (REGION_BIST_CTL_PATROL_EN k) = true → (s.ftr k).patrol = none → (s.ftr k).takeover = none →
    tLt s.now (s.ftr k).patrolDue = false → s.patrolPick k = some b → s.blk k b = ⟨.serving, some d⟩ → s.spareFor k b = some sp →
    (m = true ∨ k.val < 6 ∨ 9 < k.val ∨ b < 8 ∨ 12 < b) →
    ∃ t, exec (.patrolTestStart k m) s = .next t ∧ t.blk k b = ⟨.underPatrol, none⟩ ∧ t.blk k sp = ⟨.standingIn, some d⟩ ∧
      (t.ftr k).patrol = some ⟨b, some sp⟩ ∧ t.get (REGION_BIST_RESULT_VERDICT k) = 4 ∧
      t.get (REGION_EPOCH_EPOCH k) = s.get (REGION_EPOCH_EPOCH k) ∧ t.flow = s.flow ∧ t.out = s.out) ∧
  (∀ (s : State) (k : Fin 16) (m : Bool), tLt s.now (s.ftr k).patrolDue = true ∨ s.running = false ∨
    s.on (REGION_BIST_CTL_PATROL_EN k) = false → exec (.patrolTestStart k m) s = .next s) ∧
  (∀ (s : State) (k : Fin 16) (b sp d : Nat) (ar bit : Fin 256) (ad : Word), k ≠ 0 → absentRegion s.variant k = false →
    (s.ftr k).patrol = some ⟨b, some sp⟩ → b ≠ sp → s.blk k sp = ⟨.standingIn, some d⟩ →
    ∃ t, exec (.patrolTestDone k true (Config.patternCount k b) ar ad bit) s = .next t ∧ t.blk k b = ⟨.freeSpare, none⟩ ∧
      t.blk k sp = ⟨.serving, some d⟩ ∧ (t.ftr k).patrol = none ∧ t.get (REGION_BIST_RESULT_VERDICT k) = 1 ∧
      t.get (REGION_SPARES_FREE k) = s.get (REGION_SPARES_FREE k) ∧ t.flow = s.flow ∧ t.out = s.out) ∧
  (∀ (s : State) (k : Fin 16) (b sp d : Nat) (n : Word) (ar bit : Fin 256) (ad : Word), k ≠ 0 → absentRegion s.variant k = false →
    (s.ftr k).patrol = some ⟨b, some sp⟩ → b ≠ sp → s.blk k sp = ⟨.standingIn, some d⟩ →
    ∃ t, exec (.patrolTestDone k false n ar ad bit) s = .next t ∧ t.blk k b = ⟨.quarantined, none⟩ ∧
      t.blk k sp = ⟨.serving, some d⟩ ∧ (t.ftr k).patrol = none ∧ t.get (REGION_SPARES_FREE k) = s.get (REGION_SPARES_FREE k) - 1 ∧
      (t.ftr k).logged = (s.ftr k).logged + 1 ∧ t.val (FT_MASKED k) = s.val (FT_MASKED k) ∧
      bits (t.get (REGION_ALARM_STATUS_ALARMS k)) 10 10 = 1 ∧ t.flow.requests = s.flow.requests ∧ t.cmem = s.cmem) ∧
  (∀ (s : State) (k : Fin 16) (x : Bool) (n : Word) (ar bit : Fin 256) (ad : Word), (s.ftr k).patrol = none →
    exec (.patrolTestDone k x n ar ad bit) s = .next s) ∧
  (∀ (s : State) (a b c : BitVec 16), 2 ≤ s.devState → a.toInt ≤ 2400 → b.toInt ≤ 2400 → c.toInt ≤ 2400 →
    ∃ t, exec (.ftTempRead a b c) s = .next t ∧ t.get ST_FT_TEMP_T = unsign 16 (max a.toInt (max b.toInt c.toInt)) ∧
      t.ca.temps = [a.toInt, b.toInt, c.toInt] ∧ t.ft.hot160 = 0 ∧
      t.alarm.conds.all (fun x => decide (¬(x.region = 1 ∧ x.kind = .thermal ∧ x.arg = 0))) = true ∧
      (∀ r, r ≠ ST_FT_TEMP → t.reg r = s.reg r) ∧ t.out = s.out) ∧
  (∀ (s : State) (a b c : BitVec 16), 2 ≤ s.devState → 2400 < max a.toInt (max b.toInt c.toInt) →
    max a.toInt (max b.toInt c.toInt) ≤ 2560 ∨ s.ft.hot160 ≠ 9 →
    ∃ t, exec (.ftTempRead a b c) s = .next t ∧ t.val ST_FT_THERM = (s.val ST_FT_THERM + 1) % 2 ^ 32 ∧
      t.alarm.conds.any (fun x => decide (x.region = 1 ∧ x.kind = .thermal)) = true ∧ t.devState = s.devState) ∧
  (∀ (s : State) (a b c : BitVec 16), 4 ≤ s.devState → s.devState ≤ 6 → 2560 < max a.toInt (max b.toInt c.toInt) →
    s.ft.hot160 = 9 →
    ∃ t, exec (.ftTempRead a b c) s = .next t ∧ t.devState = 7 ∧ t.get ST_FT_CHIP_KIND = 6) ∧
  (∀ s : State, 2 ≤ s.devState → s.ft.record.length < 10751 →
    ∃ t, exec .ftThermalAccount s = .next t ∧ t.ft.record = s.ft.record ++ [⟨4, 1, s.ft.entrySeq + 1, s.thermData⟩] ∧
      t.ft.peak = none ∧ t.regs = s.regs ∧ t.out = s.out)
end

