-- ==== Sys2Proof/Laws/Store.lean ====
section
/-! SUPPORT. Laws/Store.lean: the sorted lists of Machine/Store.lean: what a read gives after a write, and that every operation
keeps the canonical form (keys rise strictly, nothing listed that reads as an unlisted key does). -/

namespace Sys2Proof.Machine

/-! ### Read after write -/

@[simp] theorem kvGet_nil {α : Type} (k : Nat) : kvGet ([] : KV α) k = none := rfl

@[simp] theorem kvGet_kvPut_self {α : Type} (m : KV α) (k : Nat) (v : α) : kvGet (kvPut m k v) k = some v := by
  induction m with
  | nil => simp [kvPut, kvGet]
  | cons p t ih =>
    obtain ⟨a, w⟩ := p
    simp only [kvPut]
    split
    · simp [kvGet]
    · split
      · simp [kvGet]
      · rename_i h1 h2
        simp [kvGet, Ne.symm h2, ih]

theorem kvGet_kvPut_ne {α : Type} (m : KV α) (k j : Nat) (v : α) (h : j ≠ k) : kvGet (kvPut m k v) j = kvGet m j := by
  induction m with
  | nil => simp [kvPut, kvGet, Ne.symm h]
  | cons p t ih =>
    obtain ⟨a, w⟩ := p
    simp only [kvPut]
    split
    · simp [kvGet, Ne.symm h]
    · split
      · rename_i h1 h2
        subst h2
        simp [kvGet, Ne.symm h]
      · by_cases ha : a = j <;> simp [kvGet, ha, ih]

@[simp] theorem kvGet_kvDel_self {α : Type} (m : KV α) (k : Nat) : kvGet (kvDel m k) k = none := by
  induction m with
  | nil => rfl
  | cons p t ih =>
    obtain ⟨a, w⟩ := p
    simp only [kvDel]
    split
    · exact ih
    · rename_i h
      simp [kvGet, h, ih]

theorem kvGet_kvDel_ne {α : Type} (m : KV α) (k j : Nat) (h : j ≠ k) : kvGet (kvDel m k) j = kvGet m j := by
  induction m with
  | nil => rfl
  | cons p t ih =>
    obtain ⟨a, w⟩ := p
    simp only [kvDel]
    split
    · rename_i ha
      subst ha
      simp [kvGet, Ne.symm h, ih]
    · by_cases ha : a = j <;> simp [kvGet, ha, ih]

@[simp] theorem kvGetD_kvPut_self {α : Type} (m : KV α) (k : Nat) (v d : α) : kvGetD (kvPut m k v) k d = v := by
  simp [kvGetD]

theorem kvGetD_kvPut_ne {α : Type} (m : KV α) (k j : Nat) (v d : α) (h : j ≠ k) :
    kvGetD (kvPut m k v) j d = kvGetD m j d := by
  simp [kvGetD, kvGet_kvPut_ne m k j v h]

@[simp] theorem kvGetD_kvSetD_self {α : Type} [DecidableEq α] (d : α) (m : KV α) (k : Nat) (v : α) :
    kvGetD (kvSetD d m k v) k d = v := by
  unfold kvSetD
  split
  · rename_i h
    simp [kvGetD, h]
  · simp

theorem kvGetD_kvSetD_ne {α : Type} [DecidableEq α] (d e : α) (m : KV α) (k j : Nat) (v : α) (h : j ≠ k) :
    kvGetD (kvSetD d m k v) j e = kvGetD m j e := by
  unfold kvSetD
  split
  · simp [kvGetD, kvGet_kvDel_ne m k j h]
  · exact kvGetD_kvPut_ne m k j v e h

@[simp] theorem kvGetD_kvMod_self {α : Type} (d : α) (m : KV α) (k : Nat) (f : α → α) :
    kvGetD (kvMod d m k f) k d = f (kvGetD m k d) := by
  simp [kvMod]

theorem kvGetD_kvMod_ne {α : Type} (d e : α) (m : KV α) (k j : Nat) (f : α → α) (h : j ≠ k) :
    kvGetD (kvMod d m k f) j e = kvGetD m j e := kvGetD_kvPut_ne m k j _ e h

/-! ### The canonical form, as propositions -/

/-- Every key of `m` is above `k`. -/
def kvAbove {α : Type} (k : Nat) (m : KV α) : Prop := ∀ p ∈ m, k < p.1

theorem kvSorted_cons {α : Type} (p : Nat × α) (t : KV α) : kvSorted (p :: t) = true ↔ kvAbove p.1 t ∧ kvSorted t = true := by
  induction t generalizing p with
  | nil => simp [kvSorted, kvAbove]
  | cons q u ih =>
    obtain ⟨a, v⟩ := p
    obtain ⟨b, w⟩ := q
    simp only [kvSorted, Bool.and_eq_true, decide_eq_true_eq]
    constructor
    · rintro ⟨hab, hs⟩
      refine ⟨?_, hs⟩
      intro r hr
      rcases List.mem_cons.1 hr with rfl | hr
      · exact hab
      · exact Nat.lt_trans hab (((ih (b, w)).1 hs).1 r hr)
    · rintro ⟨ha, hs⟩
      exact ⟨ha (b, w) (by simp), hs⟩

theorem mem_kvPut {α : Type} {m : KV α} {k : Nat} {v : α} {p : Nat × α} (h : p ∈ kvPut m k v) : p = (k, v) ∨ p ∈ m := by
  induction m with
  | nil => simpa [kvPut] using h
  | cons q t ih =>
    obtain ⟨a, w⟩ := q
    simp only [kvPut] at h
    split at h
    · simpa using h
    · split at h
      · rcases List.mem_cons.1 h with rfl | h
        · exact .inl rfl
        · exact .inr (List.mem_cons_of_mem _ h)
      · rcases List.mem_cons.1 h with rfl | h
        · exact .inr (by simp)
        · exact (ih h).imp id (List.mem_cons_of_mem _)

theorem mem_kvDel {α : Type} {m : KV α} {k : Nat} {p : Nat × α} (h : p ∈ kvDel m k) : p ∈ m := by
  induction m with
  | nil => simp [kvDel] at h
  | cons q t ih =>
    obtain ⟨a, w⟩ := q
    simp only [kvDel] at h
    split at h
    · exact List.mem_cons_of_mem _ (ih h)
    · rcases List.mem_cons.1 h with rfl | h
      · simp
      · exact List.mem_cons_of_mem _ (ih h)

theorem kvSorted_kvPut {α : Type} (m : KV α) (k : Nat) (v : α) (h : kvSorted m = true) : kvSorted (kvPut m k v) = true := by
  induction m with
  | nil => rfl
  | cons p t ih =>
    obtain ⟨a, w⟩ := p
    have ⟨ha, ht⟩ := (kvSorted_cons _ _).1 h
    simp only [kvPut]
    split
    · rename_i hk
      refine (kvSorted_cons _ _).2 ⟨?_, h⟩
      intro q hq
      rcases List.mem_cons.1 hq with rfl | hq
      · exact hk
      · exact Nat.lt_trans hk (ha q hq)
    · split
      · rename_i hk
        subst hk
        exact (kvSorted_cons _ _).2 ⟨ha, ht⟩
      · rename_i h1 h2
        refine (kvSorted_cons _ _).2 ⟨?_, ih ht⟩
        intro q hq
        rcases mem_kvPut hq with rfl | hq
        · show a < k
          omega
        · exact ha q hq

theorem kvSorted_kvDel {α : Type} (m : KV α) (k : Nat) (h : kvSorted m = true) : kvSorted (kvDel m k) = true := by
  induction m with
  | nil => rfl
  | cons p t ih =>
    obtain ⟨a, w⟩ := p
    have ⟨ha, ht⟩ := (kvSorted_cons _ _).1 h
    simp only [kvDel]
    split
    · exact ih ht
    · exact (kvSorted_cons _ _).2 ⟨fun q hq => ha q (mem_kvDel hq), ih ht⟩

theorem kvSorted_filter {α : Type} (m : KV α) (f : Nat × α → Bool) (h : kvSorted m = true) : kvSorted (m.filter f) = true := by
  induction m with
  | nil => rfl
  | cons p t ih =>
    have ⟨ha, ht⟩ := (kvSorted_cons _ _).1 h
    simp only [List.filter]
    split
    · exact (kvSorted_cons _ _).2 ⟨fun q hq => ha q (List.mem_filter.1 hq).1, ih ht⟩
    · exact ih ht

/-! ### Capture memory -/

theorem Memory.wf_kvSetD (m : List Host.Cell) (k : Nat) (v : Byte) (h : Memory.wf m = true) :
    Memory.wf (kvSetD 0 m k v) = true := by
  simp only [Memory.wf, Bool.and_eq_true, List.all_eq_true, decide_eq_true_eq] at h ⊢
  unfold kvSetD
  split
  · exact ⟨kvSorted_kvDel m k h.1, fun p hp => h.2 p (mem_kvDel hp)⟩
  · rename_i hv
    refine ⟨kvSorted_kvPut m k v h.1, fun p hp => ?_⟩
    rcases mem_kvPut hp with rfl | hp
    · exact hv
    · exact h.2 p hp

theorem Memory.wf_filter (m : List Host.Cell) (f : Host.Cell → Bool) (h : Memory.wf m = true) :
    Memory.wf (m.filter f) = true := by
  simp only [Memory.wf, Bool.and_eq_true, List.all_eq_true, decide_eq_true_eq] at h ⊢
  exact ⟨kvSorted_filter m f h.1, fun p hp => h.2 p (List.mem_filter.1 hp).1⟩

/-! ### The register file -/

theorem regsWf_filter (x : Variant) (m : KV Word) (f : Nat × Word → Bool) (h : regsWf x m = true) :
    regsWf x (m.filter f) = true := by
  simp only [regsWf, Bool.and_eq_true, List.all_eq_true, decide_eq_true_eq] at h ⊢
  exact ⟨kvSorted_filter m f h.1, fun p hp => h.2 p (List.mem_filter.1 hp).1⟩

theorem regsWf_kvSetD (x : Variant) (m : KV Word) (k : Nat) (v : Word) (h : regsWf x m = true) :
    regsWf x (kvSetD (regReset x k) m k v) = true := by
  simp only [regsWf, Bool.and_eq_true, List.all_eq_true, decide_eq_true_eq] at h ⊢
  unfold kvSetD
  split
  · exact ⟨kvSorted_kvDel m k h.1, fun p hp => h.2 p (mem_kvDel hp)⟩
  · rename_i hv
    refine ⟨kvSorted_kvPut m k v h.1, fun p hp => ?_⟩
    rcases mem_kvPut hp with rfl | hp
    · exact hv
    · exact h.2 p hp

end Sys2Proof.Machine
end

