-- ==== Sys2Proof/Laws/Keeps.lean ====
section
/-! SUPPORT. Laws/Keeps.lean: what every command keeps (`Keeps`, Safety.lean) is a preorder that the state's basic updates
respect: said once here, for the laws of every shared operation. -/

namespace Sys2Proof.Machine

theorem Keeps.refl (s : State) : Keeps s s := ⟨rfl, rfl, List.prefix_rfl, Nat.le_refl _, id, id⟩

theorem Keeps.trans {s t u : State} (h : Keeps s t) (k : Keeps t u) : Keeps s u :=
  ⟨k.variant.trans h.variant, k.pending.trans h.pending, h.out.trans k.out, Nat.le_trans h.fresh k.fresh,
    k.regs ∘ h.regs, k.mem ∘ h.mem⟩

theorem Keeps.ofEq {t u : State} (hv : u.variant = t.variant) (hp : u.pending = t.pending)
    (ho : u.out = t.out) (hf : u.freshCount = t.freshCount) (hr : u.regs = t.regs) (hm : u.cmem = t.cmem) : Keeps t u :=
  ⟨hv, hp, ho ▸ List.prefix_rfl, Nat.le_of_eq hf.symm, by rw [hv, hr]; exact id, by rw [hm]; exact id⟩

/-! ### Frames -/

/-- Place of a part in a mask. -/
def Part.bit : Part → Nat
  | .regs => 0
  | .power => 1
  | .flow => 2
  | .time => 3
  | .prot => 4
  | .alarm => 5
  | .slots => 6
  | .msix => 7
  | .ft => 8
  | .cmem => 9
  | .cm => 10
  | .af => 11
  | .ca => 12
  | .qu => 13
  | .zp => 14
  | .ztu => 15
  | .bt => 16
  | .dc => 17
  | .tg => 18
  | .et => 19
  | .im => 20
  | .ce => 21
  | .kl => 22
  | .kh => 23
  | .bd => 24
  | .hs => 25
  | .mport => 26
  | .ds => 27
  | .out => 28
  | .fresh => 29

/-- Mask a is within mask m. -/
@[irreducible] def Sub (a m : Nat) : Prop := Nat.land a m = a

theorem Sub.refl (a : Nat) : Sub a a := by
  unfold Sub
  exact Nat.and_self a

theorem Sub.mono {a b m : Nat} (h : Sub a m) (hc : Nat.land b a = b) : Sub b m := by
  unfold Sub at *
  have h' : a &&& m = a := h
  have hc' : b &&& a = b := hc
  change b &&& m = b
  rw [← hc', Nat.and_assoc, h']

/-- What `Keeps` says, and that only the parts of the mask change. -/
structure Fr (m : Nat) (s t : State) : Prop where
  keeps : Keeps s t
  same : ∀ p : Part, m.testBit p.bit = false → p.same s t

theorem Part.same_refl (s : State) (p : Part) : p.same s s := by cases p <;> rfl

theorem Part.same_trans {s t u : State} (p : Part) (h : p.same s t) (k : p.same t u) : p.same s u := by
  cases p <;> exact Eq.trans k h

theorem Fr.refl (m : Nat) (s : State) : Fr m s s := ⟨.refl s, fun p _ => p.same_refl s⟩

/-- One part changes. -/
theorem Fr.step {m : Nat} {s t u : State} (h : Fr m s t) (k : Keeps t u) (b : Part) (hm : Sub (2 ^ b.bit) m)
    (hs : ∀ p : Part, p ≠ b → p.same t u) : Fr m s u := by
  refine ⟨h.keeps.trans k, fun p hp => ?_⟩
  refine p.same_trans (h.same p hp) (hs p ?_)
  rintro rfl
  have : (2 ^ p.bit &&& m).testBit p.bit = true := by
    have : (2 ^ p.bit &&& m) = 2 ^ p.bit := by unfold Sub at hm; exact hm
    rw [this, Nat.testBit_two_pow_self]
  rw [Nat.testBit_and, hp, Bool.and_false] at this
  cases this

/-- Two parts change. -/
theorem Fr.step2 {m : Nat} {s t u : State} (h : Fr m s t) (k : Keeps t u) (a b : Part) (ha : Sub (2 ^ a.bit) m)
    (hb : Sub (2 ^ b.bit) m) (hs : ∀ p : Part, p ≠ a → p ≠ b → p.same t u) : Fr m s u := by
  have hne (c : Part) (hc : Sub (2 ^ c.bit) m) (p : Part) (hp : m.testBit p.bit = false) : p ≠ c := by
    rintro rfl
    have : (2 ^ p.bit &&& m).testBit p.bit = true := by
      have : (2 ^ p.bit &&& m) = 2 ^ p.bit := by unfold Sub at hc; exact hc
      rw [this, Nat.testBit_two_pow_self]
    rw [Nat.testBit_and, hp, Bool.and_false] at this
    cases this
  exact ⟨h.keeps.trans k, fun p hp => p.same_trans (h.same p hp) (hs p (hne a ha p hp) (hne b hb p hp))⟩

/-- Every part changes. -/
theorem Fr.stepAll {m : Nat} {s t u : State} (h : Fr m s t) (k : Keeps t u) (hm : Sub (2 ^ 30 - 1) m) : Fr m s u := by
  refine ⟨h.keeps.trans k, fun p hp => ?_⟩
  have h1 : ((2 ^ 30 - 1) &&& m).testBit p.bit = true := by
    have : (2 ^ 30 - 1) &&& m = 2 ^ 30 - 1 := by unfold Sub at hm; exact hm
    rw [this]
    cases p <;> decide
  rw [Nat.testBit_and, hp, Bool.and_false] at h1
  cases h1

/-- The parts a mask leaves out of a list. -/
theorem Fr.sameBut {m : Nat} {s t : State} {l : List Part} (h : Fr m s t)
    (hl : ∀ p : Part, p ∉ l → m.testBit p.bit = false) : SameBut l s t := fun p hp => h.same p (hl p hp)

theorem keeps_power {msk : Nat} {s0 t : State} (x : PowerSt) (h : Fr msk s0 t)
    (hm : Sub 2 msk := by exact Sub.mono (by assumption) rfl) : Fr msk s0 { t with power := x } :=
  h.step (.ofEq rfl rfl rfl rfl rfl rfl) .power hm (fun p hp => by cases p <;> first | rfl | exact absurd rfl hp)

theorem keeps_flow {msk : Nat} {s0 t : State} (x : FlowSt) (h : Fr msk s0 t)
    (hm : Sub 4 msk := by exact Sub.mono (by assumption) rfl) : Fr msk s0 { t with flow := x } :=
  h.step (.ofEq rfl rfl rfl rfl rfl rfl) .flow hm (fun p hp => by cases p <;> first | rfl | exact absurd rfl hp)

theorem keeps_time {msk : Nat} {s0 t : State} (x : TimeSt) (h : Fr msk s0 t)
    (hm : Sub 8 msk := by exact Sub.mono (by assumption) rfl) : Fr msk s0 { t with time := x } :=
  h.step (.ofEq rfl rfl rfl rfl rfl rfl) .time hm (fun p hp => by cases p <;> first | rfl | exact absurd rfl hp)

theorem keeps_prot {msk : Nat} {s0 t : State} (x : ProtSt) (h : Fr msk s0 t)
    (hm : Sub 16 msk := by exact Sub.mono (by assumption) rfl) : Fr msk s0 { t with prot := x } :=
  h.step (.ofEq rfl rfl rfl rfl rfl rfl) .prot hm (fun p hp => by cases p <;> first | rfl | exact absurd rfl hp)

theorem keeps_alarm {msk : Nat} {s0 t : State} (x : AlarmSt) (h : Fr msk s0 t)
    (hm : Sub 32 msk := by exact Sub.mono (by assumption) rfl) : Fr msk s0 { t with alarm := x } :=
  h.step (.ofEq rfl rfl rfl rfl rfl rfl) .alarm hm (fun p hp => by cases p <;> first | rfl | exact absurd rfl hp)

theorem keeps_slots {msk : Nat} {s0 t : State} (x : PathSlots) (h : Fr msk s0 t)
    (hm : Sub 64 msk := by exact Sub.mono (by assumption) rfl) : Fr msk s0 { t with slots := x } :=
  h.step (.ofEq rfl rfl rfl rfl rfl rfl) .slots hm (fun p hp => by cases p <;> first | rfl | exact absurd rfl hp)

theorem keeps_msix {msk : Nat} {s0 t : State} (x : MsixSt) (h : Fr msk s0 t)
    (hm : Sub 128 msk := by exact Sub.mono (by assumption) rfl) : Fr msk s0 { t with msix := x } :=
  h.step (.ofEq rfl rfl rfl rfl rfl rfl) .msix hm (fun p hp => by cases p <;> first | rfl | exact absurd rfl hp)

theorem keeps_ft {msk : Nat} {s0 t : State} (x : FtSt) (h : Fr msk s0 t)
    (hm : Sub 256 msk := by exact Sub.mono (by assumption) rfl) : Fr msk s0 { t with ft := x } :=
  h.step (.ofEq rfl rfl rfl rfl rfl rfl) .ft hm (fun p hp => by cases p <;> first | rfl | exact absurd rfl hp)

theorem keeps_cm {msk : Nat} {s0 t : State} (x : CmSt) (h : Fr msk s0 t)
    (hm : Sub 1024 msk := by exact Sub.mono (by assumption) rfl) : Fr msk s0 { t with cm := x } :=
  h.step (.ofEq rfl rfl rfl rfl rfl rfl) .cm hm (fun p hp => by cases p <;> first | rfl | exact absurd rfl hp)

theorem keeps_af {msk : Nat} {s0 t : State} (x : KV AfIn) (h : Fr msk s0 t)
    (hm : Sub 2048 msk := by exact Sub.mono (by assumption) rfl) : Fr msk s0 { t with af := x } :=
  h.step (.ofEq rfl rfl rfl rfl rfl rfl) .af hm (fun p hp => by cases p <;> first | rfl | exact absurd rfl hp)

theorem keeps_ca {msk : Nat} {s0 t : State} (x : CaSt) (h : Fr msk s0 t)
    (hm : Sub 4096 msk := by exact Sub.mono (by assumption) rfl) : Fr msk s0 { t with ca := x } :=
  h.step (.ofEq rfl rfl rfl rfl rfl rfl) .ca hm (fun p hp => by cases p <;> first | rfl | exact absurd rfl hp)

theorem keeps_qu {msk : Nat} {s0 t : State} (x : QuSt) (h : Fr msk s0 t)
    (hm : Sub 8192 msk := by exact Sub.mono (by assumption) rfl) : Fr msk s0 { t with qu := x } :=
  h.step (.ofEq rfl rfl rfl rfl rfl rfl) .qu hm (fun p hp => by cases p <;> first | rfl | exact absurd rfl hp)

theorem keeps_zp {msk : Nat} {s0 t : State} (x : KV ZpSt) (h : Fr msk s0 t)
    (hm : Sub 16384 msk := by exact Sub.mono (by assumption) rfl) : Fr msk s0 { t with zp := x } :=
  h.step (.ofEq rfl rfl rfl rfl rfl rfl) .zp hm (fun p hp => by cases p <;> first | rfl | exact absurd rfl hp)

theorem keeps_ztu {msk : Nat} {s0 t : State} (x : KV ZtuSlot) (h : Fr msk s0 t)
    (hm : Sub 32768 msk := by exact Sub.mono (by assumption) rfl) : Fr msk s0 { t with ztu := x } :=
  h.step (.ofEq rfl rfl rfl rfl rfl rfl) .ztu hm (fun p hp => by cases p <;> first | rfl | exact absurd rfl hp)

theorem keeps_bt {msk : Nat} {s0 t : State} (x : KV BtSt) (h : Fr msk s0 t)
    (hm : Sub 65536 msk := by exact Sub.mono (by assumption) rfl) : Fr msk s0 { t with bt := x } :=
  h.step (.ofEq rfl rfl rfl rfl rfl rfl) .bt hm (fun p hp => by cases p <;> first | rfl | exact absurd rfl hp)

theorem keeps_dc {msk : Nat} {s0 t : State} (x : DcSt) (h : Fr msk s0 t)
    (hm : Sub 131072 msk := by exact Sub.mono (by assumption) rfl) : Fr msk s0 { t with dc := x } :=
  h.step (.ofEq rfl rfl rfl rfl rfl rfl) .dc hm (fun p hp => by cases p <;> first | rfl | exact absurd rfl hp)

theorem keeps_tg {msk : Nat} {s0 t : State} (x : TgSt) (h : Fr msk s0 t)
    (hm : Sub 262144 msk := by exact Sub.mono (by assumption) rfl) : Fr msk s0 { t with tg := x } :=
  h.step (.ofEq rfl rfl rfl rfl rfl rfl) .tg hm (fun p hp => by cases p <;> first | rfl | exact absurd rfl hp)

theorem keeps_et {msk : Nat} {s0 t : State} (x : EtSt) (h : Fr msk s0 t)
    (hm : Sub 524288 msk := by exact Sub.mono (by assumption) rfl) : Fr msk s0 { t with et := x } :=
  h.step (.ofEq rfl rfl rfl rfl rfl rfl) .et hm (fun p hp => by cases p <;> first | rfl | exact absurd rfl hp)

theorem keeps_im {msk : Nat} {s0 t : State} (x : ImSt) (h : Fr msk s0 t)
    (hm : Sub 1048576 msk := by exact Sub.mono (by assumption) rfl) : Fr msk s0 { t with im := x } :=
  h.step (.ofEq rfl rfl rfl rfl rfl rfl) .im hm (fun p hp => by cases p <;> first | rfl | exact absurd rfl hp)

theorem keeps_ce {msk : Nat} {s0 t : State} (x : CeSt) (h : Fr msk s0 t)
    (hm : Sub 2097152 msk := by exact Sub.mono (by assumption) rfl) : Fr msk s0 { t with ce := x } :=
  h.step (.ofEq rfl rfl rfl rfl rfl rfl) .ce hm (fun p hp => by cases p <;> first | rfl | exact absurd rfl hp)

theorem keeps_kl {msk : Nat} {s0 t : State} (x : KlSt) (h : Fr msk s0 t)
    (hm : Sub 4194304 msk := by exact Sub.mono (by assumption) rfl) : Fr msk s0 { t with kl := x } :=
  h.step (.ofEq rfl rfl rfl rfl rfl rfl) .kl hm (fun p hp => by cases p <;> first | rfl | exact absurd rfl hp)

theorem keeps_kh {msk : Nat} {s0 t : State} (x : KhSt) (h : Fr msk s0 t)
    (hm : Sub 8388608 msk := by exact Sub.mono (by assumption) rfl) : Fr msk s0 { t with kh := x } :=
  h.step (.ofEq rfl rfl rfl rfl rfl rfl) .kh hm (fun p hp => by cases p <;> first | rfl | exact absurd rfl hp)

theorem keeps_bd {msk : Nat} {s0 t : State} (x : BdSt) (h : Fr msk s0 t)
    (hm : Sub 16777216 msk := by exact Sub.mono (by assumption) rfl) : Fr msk s0 { t with bd := x } :=
  h.step (.ofEq rfl rfl rfl rfl rfl rfl) .bd hm (fun p hp => by cases p <;> first | rfl | exact absurd rfl hp)

theorem keeps_hs {msk : Nat} {s0 t : State} (x : HsSt) (h : Fr msk s0 t)
    (hm : Sub 33554432 msk := by exact Sub.mono (by assumption) rfl) : Fr msk s0 { t with hs := x } :=
  h.step (.ofEq rfl rfl rfl rfl rfl rfl) .hs hm (fun p hp => by cases p <;> first | rfl | exact absurd rfl hp)

theorem keeps_mport {msk : Nat} {s0 t : State} (x : PortSt) (h : Fr msk s0 t)
    (hm : Sub 67108864 msk := by exact Sub.mono (by assumption) rfl) : Fr msk s0 { t with mport := x } :=
  h.step (.ofEq rfl rfl rfl rfl rfl rfl) .mport hm (fun p hp => by cases p <;> first | rfl | exact absurd rfl hp)

theorem keeps_ds {msk : Nat} {s0 t : State} (x : KV DsHead) (h : Fr msk s0 t)
    (hm : Sub 134217728 msk := by exact Sub.mono (by assumption) rfl) : Fr msk s0 { t with ds := x } :=
  h.step (.ofEq rfl rfl rfl rfl rfl rfl) .ds hm (fun p hp => by cases p <;> first | rfl | exact absurd rfl hp)


theorem keeps_ca_ft {msk : Nat} {s0 t : State} (x : CaSt) (y : FtSt) (h : Fr msk s0 t)
    (hm : Sub 4352 msk := by exact Sub.mono (by assumption) rfl) : Fr msk s0 { t with ca := x, ft := y } :=
  keeps_ft y (keeps_ca x h)

/-! ### Basic updates -/

variable {msk : Nat} {s0 s : State}

theorem keeps_setReg (a : Nat) (v : Word) (h : Fr msk s0 s) (hm : Sub 1 msk := by exact Sub.mono (by assumption) rfl) :
    Fr msk s0 (s.setReg a v) :=
  h.step ⟨rfl, rfl, List.prefix_rfl, Nat.le_refl _, fun hr => regsWf_kvSetD _ _ _ _ hr, id⟩ .regs hm
    (fun p hp => by cases p <;> first | rfl | exact absurd rfl hp)

theorem keeps_emit (e : Emission) (h : Fr msk s0 s)
    (hm : Sub 268435456 msk := by exact Sub.mono (by assumption) rfl) : Fr msk s0 (s.emit e) :=
  h.step ⟨rfl, rfl, List.prefix_append _ _, Nat.le_refl _, id, id⟩ .out hm
    (fun p hp => by cases p <;> first | rfl | exact absurd rfl hp)

theorem keeps_useFree (h : Fr msk s0 s) (hm : Sub 536870912 msk := by exact Sub.mono (by assumption) rfl) :
    Fr msk s0 s.useFree :=
  h.step ⟨rfl, rfl, List.prefix_rfl, Nat.le_succ _, id, id⟩ .fresh hm
    (fun p hp => by cases p <;> first | rfl | exact absurd rfl hp)

theorem keeps_useFrees (n : Nat) (h : Fr msk s0 s)
    (hm : Sub 536870912 msk := by exact Sub.mono (by assumption) rfl) : Fr msk s0 (s.useFrees n) :=
  h.step ⟨rfl, rfl, List.prefix_rfl, Nat.le_add_right _ _, id, id⟩ .fresh hm
    (fun p hp => by cases p <;> first | rfl | exact absurd rfl hp)

theorem keeps_each {α : Type} (l : List α) (f : State → α → State) (hf : ∀ t a, Fr msk s0 t → Fr msk s0 (f t a))
    (h : Fr msk s0 s) : Fr msk s0 (s.each l f) := by
  unfold State.each
  induction l generalizing s with
  | nil => exact h
  | cons a t ih => exact ih (hf s a h)

/-- The state of an answer. Not an abbreviation: two answers are compared as they stand, never by what they compute. -/
def stOf {α : Type} (x : State × α) : State := x.1

/-- A fold over states by steps that keep. -/
theorem keeps_foldl {α : Type} (l : List α) (f : State → α → State) (hf : ∀ t a, Fr msk s0 t → Fr msk s0 (f t a))
    (h : Fr msk s0 s) : Fr msk s0 (l.foldl f s) := by
  induction l generalizing s with
  | nil => exact h
  | cons a l ih => exact ih (hf _ _ h)

/-- A fold over states that carries something more. -/
theorem keeps_foldl_fst {α β : Type} (l : List α) (f : State × β → α → State × β)
    (hf : ∀ t a, Fr msk s0 (stOf t) → Fr msk s0 (stOf (f t a))) {x : State × β} (h : Fr msk s0 (stOf x)) :
    Fr msk s0 (stOf (l.foldl f x)) := by
  induction l generalizing x with
  | nil => exact h
  | cons a l ih => exact ih (hf _ _ h)

theorem keeps_ifThen (c : Bool) (f : State → State) (hf : ∀ t, Fr msk s0 t → Fr msk s0 (f t)) (h : Fr msk s0 s) :
    Fr msk s0 (s.ifThen c f) := by
  unfold State.ifThen
  split
  · exact hf s h
  · exact h

/-! ### The shapes of a definition's body -/

theorem keeps_ite {c : Prop} [Decidable c] {a b : State} (ha : Fr msk s0 a) (hb : Fr msk s0 b) :
    Fr msk s0 (if c then a else b) := by
  split
  · exact ha
  · exact hb

theorem keeps_fst {α : Type} {x : State × α} (h : Fr msk s0 (stOf x)) : Fr msk s0 x.1 := h

theorem stOf_mk {α : Type} (a : State) (x : α) : stOf (a, x) = a := rfl

theorem keeps_pair {α : Type} {a : State} {x : α} (h : Fr msk s0 a) : Fr msk s0 (stOf (a, x)) := h

theorem keeps_ite_fst {α : Type} {c : Prop} [Decidable c] {a b : State × α} (ha : Fr msk s0 (stOf a)) (hb : Fr msk s0 (stOf b)) :
    Fr msk s0 (stOf (if c then a else b)) := by
  split
  · exact ha
  · exact hb

theorem keeps_id (h : Fr msk s0 s) : Fr msk s0 (id s) := h

theorem keeps_have {x : State} {B : Prop} (h : Fr msk s0 x) (k : Fr msk s0 x → B) : B := k h

/-- Marks a local function of a body, which is then substituted. -/
theorem keeps_fun {α β : Type} {x : α → β} {B : Prop} (k : B) : B := match x with | _ => k

theorem keeps_have_fst {α : Type} {x : State × α} {B : Prop} (h : Fr msk s0 (stOf x)) (k : Fr msk s0 (stOf x) → B) : B := k h

theorem keeps_have_snd {α : Type} {x : α × State} {B : Prop} (h : Fr msk s0 x.2) (k : Fr msk s0 x.2 → B) : B := k h

theorem keeps_ite_snd {α : Type} {c : Prop} [Decidable c] {a b : α × State} (ha : Fr msk s0 a.2) (hb : Fr msk s0 b.2) :
    Fr msk s0 (if c then a else b).2 := by
  split
  · exact ha
  · exact hb

theorem keeps_next {x t : State} (e : (Host.Outcome.next x : Host.Outcome State Fault Refusal) = .next t) (h : Fr msk s0 x) :
    Fr msk s0 t := Host.Outcome.next.inj e ▸ h

theorem keeps_getD {o : Option State} {a : State} (hf : ∀ x, o = some x → Fr msk s0 x) (ha : Fr msk s0 a) :
    Fr msk s0 (o.getD a) := by
  cases o with
  | none => exact ha
  | some x => exact hf x rfl

theorem keeps_elim {α : Type} {o : Option α} {a : State} {f : α → State} (hf : ∀ x, o = some x → Fr msk s0 (f x)) (ha : Fr msk s0 a) :
    Fr msk s0 (o.elim a f) := by
  cases o with
  | none => exact ha
  | some x => exact hf x rfl

end Sys2Proof.Machine
end

