-- ==== Sys2Proof/Laws/KeepsCore.lean ====
section
/-! SUPPORT. Laws/KeepsCore.lean: every operation of the model keeps what `Keeps` (Safety.lean) says; here registers, streams, markers, blocks, flags, refusals, capture memory, the device record, protection.
Each lemma follows the body of its operation: a let, a branch, a fold, a record update, or the law of the operation it calls. -/

set_option linter.all false

namespace Sys2Proof.Machine

set_option Elab.async false

theorem keeps_flow_af_et_qu_ce_ca {msk : Nat} {s0 t : State} (flow' : FlowSt) (af' : KV AfIn) (et' : EtSt) (qu' : QuSt) (ce' : CeSt) (ca' : CaSt) (h : Fr msk s0 t)
    (hm : Sub 2635780 msk := by exact Sub.mono (by assumption) rfl) : Fr msk s0 { t with flow := flow', af := af', et := et', qu := qu', ce := ce', ca := ca' } :=
  keeps_ca ca' (keeps_ce ce' (keeps_qu qu' (keeps_et et' (keeps_af af' (keeps_flow flow' h (Sub.mono hm rfl)) (Sub.mono hm rfl)) (Sub.mono hm rfl)) (Sub.mono hm rfl)) (Sub.mono hm rfl)) (Sub.mono hm rfl)

theorem keeps_tg_kl_kh_cm_bd_hs_ds_im_prot_alarm_ft {msk : Nat} {s0 t : State} (tg' : TgSt) (kl' : KlSt) (kh' : KhSt) (cm' : CmSt) (bd' : BdSt) (hs' : HsSt) (ds' : KV DsHead) (im' : ImSt) (prot' : ProtSt) (alarm' : AlarmSt) (ft' : FtSt) (h : Fr msk s0 t)
    (hm : Sub 198444336 msk := by exact Sub.mono (by assumption) rfl) : Fr msk s0 { t with tg := tg', kl := kl', kh := kh', cm := cm', bd := bd', hs := hs', ds := ds', im := im', prot := prot', alarm := alarm', ft := ft' } :=
  keeps_ft ft' (keeps_alarm alarm' (keeps_prot prot' (keeps_im im' (keeps_ds ds' (keeps_hs hs' (keeps_bd bd' (keeps_cm cm' (keeps_kh kh' (keeps_kl kl' (keeps_tg tg' h (Sub.mono hm rfl)) (Sub.mono hm rfl)) (Sub.mono hm rfl)) (Sub.mono hm rfl)) (Sub.mono hm rfl)) (Sub.mono hm rfl)) (Sub.mono hm rfl)) (Sub.mono hm rfl)) (Sub.mono hm rfl)) (Sub.mono hm rfl)) (Sub.mono hm rfl)

theorem keeps_zp_bt {msk : Nat} {s0 t : State} (zp' : KV ZpSt) (bt' : KV BtSt) (h : Fr msk s0 t)
    (hm : Sub 81920 msk := by exact Sub.mono (by assumption) rfl) : Fr msk s0 { t with zp := zp', bt := bt' } :=
  keeps_bt bt' (keeps_zp zp' h (Sub.mono hm rfl)) (Sub.mono hm rfl)

/-! ### Ops -/

theorem keeps_put {msk : Nat} {s0 s : State} (f : Fld) (x : Nat) (hk : Fr msk s0 s)
    (hm : Sub 1 msk := by exact Sub.mono (by assumption) rfl) :
    Fr msk s0 (State.put s f x) := by
  unfold State.put
  repeat' first
    | with_reducible assumption | (exact Sub.mono hm rfl) | intro _ | with_reducible apply keeps_setReg | dsimp only

theorem keeps_setVal {msk : Nat} {s0 s : State} (a : Nat) (x : Nat) (hk : Fr msk s0 s)
    (hm : Sub 1 msk := by exact Sub.mono (by assumption) rfl) :
    Fr msk s0 (State.setVal s a x) := by
  unfold State.setVal
  repeat' first
    | with_reducible assumption | (exact Sub.mono hm rfl) | intro _ | with_reducible apply keeps_setReg | dsimp only

theorem keeps_count {msk : Nat} {s0 s : State} (a : Nat) (n : Nat) (hk : Fr msk s0 s)
    (hm : Sub 1 msk := by exact Sub.mono (by assumption) rfl) :
    Fr msk s0 (State.count s a n) := by
  unfold State.count
  repeat' first
    | with_reducible assumption | (exact Sub.mono hm rfl) | intro _ | with_reducible apply keeps_setVal | dsimp only

theorem keeps_countF {msk : Nat} {s0 s : State} (f : Fld) (n : Nat) (hk : Fr msk s0 s)
    (hm : Sub 1 msk := by exact Sub.mono (by assumption) rfl) :
    Fr msk s0 (State.countF s f n) := by
  unfold State.countF
  repeat' first | with_reducible assumption | (exact Sub.mono hm rfl) | intro _ | with_reducible apply keeps_put | dsimp only

theorem keeps_setPair {msk : Nat} {s0 s : State} (lo : Nat) (hi : Nat) (x : Nat) (hk : Fr msk s0 s)
    (hm : Sub 1 msk := by exact Sub.mono (by assumption) rfl) :
    Fr msk s0 (State.setPair s lo hi x) := by
  unfold State.setPair
  repeat' first
    | with_reducible assumption | (exact Sub.mono hm rfl) | intro _ | with_reducible apply keeps_setVal | dsimp only

theorem keeps_answer {msk : Nat} {s0 s : State} (f : Fld) (c : Nat) (hk : Fr msk s0 s)
    (hm : Sub 1 msk := by exact Sub.mono (by assumption) rfl) :
    Fr msk s0 (stOf (State.answer s f c)) := by
  unfold State.answer
  repeat' first
    | with_reducible assumption | (exact Sub.mono hm rfl) | intro _ | with_reducible apply keeps_put | (simp only [stOf_mk])
    | with_reducible apply keeps_fst | dsimp only

theorem keeps_moveTo {msk : Nat} {s0 s : State} (c : Nat) (hk : Fr msk s0 s)
    (hm : Sub 1 msk := by exact Sub.mono (by assumption) rfl) :
    Fr msk s0 (State.moveTo s c) := by
  unfold State.moveTo
  repeat' first
    | with_reducible assumption | (exact Sub.mono hm rfl) | intro _
    | (extract_lets +onlyGivenNames x; refine keeps_have (msk := msk) (s0 := s0) (x := x) ?_ ?_; rotate_left; clear_value x; intro hx; rotate_right; subst x)
    | (extract_lets +onlyGivenNames x; clear_value x) | with_reducible apply keeps_put | dsimp only

theorem keeps_putTime {msk : Nat} {s0 s : State} (secA : Nat) (fracA : Nat) (t : DevTime) (hk : Fr msk s0 s)
    (hm : Sub 1 msk := by exact Sub.mono (by assumption) rfl) :
    Fr msk s0 (State.putTime s secA fracA t) := by
  unfold State.putTime
  repeat' first
    | with_reducible assumption | (exact Sub.mono hm rfl) | intro _ | with_reducible apply keeps_setVal | dsimp only

theorem keeps_modStream {msk : Nat} {s0 s : State} (id : BitVec 16) (f : StreamSt → StreamSt) (hk : Fr msk s0 s)
    (hm : Sub 4 msk := by exact Sub.mono (by assumption) rfl) :
    Fr msk s0 (State.modStream s id f) := by
  unfold State.modStream
  repeat' first
    | with_reducible assumption | (exact Sub.mono hm rfl) | intro _
    | (extract_lets +onlyGivenNames x; refine keeps_have (msk := msk) (s0 := s0) (x := x) ?_ ?_; rotate_left; clear_value x; intro hx; rotate_right; subst x)
    | (extract_lets +onlyGivenNames x; clear_value x) | (with_reducible apply keeps_id) | dsimp only
    | with_reducible apply keeps_flow

theorem keeps_openStream {msk : Nat} {s0 s : State} (id : BitVec 16) (hk : Fr msk s0 s)
    (hm : Sub 4 msk := by exact Sub.mono (by assumption) rfl) :
    Fr msk s0 (State.openStream s id) := by
  unfold State.openStream
  repeat' first
    | with_reducible assumption | (exact Sub.mono hm rfl) | intro _
    | (extract_lets +onlyGivenNames x; refine keeps_have (msk := msk) (s0 := s0) (x := x) ?_ ?_; rotate_left; clear_value x; intro hx; rotate_right; subst x)
    | (extract_lets +onlyGivenNames x; clear_value x) | with_reducible apply keeps_modStream | with_reducible apply keeps_ite
    | (with_reducible apply keeps_id) | dsimp only

theorem keeps_closeStream {msk : Nat} {s0 s : State} (id : BitVec 16) (hk : Fr msk s0 s)
    (hm : Sub 4 msk := by exact Sub.mono (by assumption) rfl) :
    Fr msk s0 (State.closeStream s id) := by
  unfold State.closeStream
  repeat' first
    | with_reducible assumption | (exact Sub.mono hm rfl) | intro _
    | (extract_lets +onlyGivenNames x; refine keeps_have (msk := msk) (s0 := s0) (x := x) ?_ ?_; rotate_left; clear_value x; intro hx; rotate_right; subst x)
    | (extract_lets +onlyGivenNames x; clear_value x) | with_reducible apply keeps_modStream
    | (with_reducible apply keeps_id) | dsimp only

theorem keeps_gap {msk : Nat} {s0 s : State} (id : BitVec 16) (t : DevTime) (len : Nat) (cause : Nat) (final : Bool) (hk : Fr msk s0 s)
    (hm : Sub 268435460 msk := by exact Sub.mono (by assumption) rfl) :
    Fr msk s0 (State.gap s id t len cause final) := by
  unfold State.gap
  repeat' first
    | with_reducible assumption | (exact Sub.mono hm rfl) | intro _ | with_reducible apply keeps_closeStream
    | with_reducible apply keeps_emit | with_reducible apply keeps_ifThen | (with_reducible apply keeps_id) | dsimp only

theorem keeps_endAllStreams {msk : Nat} {s0 s : State} (cause : Nat) (hk : Fr msk s0 s)
    (hm : Sub 268435460 msk := by exact Sub.mono (by assumption) rfl) :
    Fr msk s0 (State.endAllStreams s cause) := by
  unfold State.endAllStreams
  repeat' first
    | with_reducible assumption | (exact Sub.mono hm rfl) | intro _ | with_reducible apply keeps_each
    | with_reducible apply keeps_gap | (simp only [stOf_mk]) | with_reducible apply keeps_fst | dsimp only

theorem keeps_sendFrame {msk : Nat} {s0 s : State} (id : BitVec 16) (n : Nat) (f : FrameSpec) (hk : Fr msk s0 s)
    (hm : Sub 268435460 msk := by exact Sub.mono (by assumption) rfl) :
    Fr msk s0 (State.sendFrame s id n f) := by
  unfold State.sendFrame
  repeat' first
    | with_reducible assumption | (exact Sub.mono hm rfl) | intro _
    | (extract_lets +onlyGivenNames x; refine keeps_have (msk := msk) (s0 := s0) (x := x) ?_ ?_; rotate_left; clear_value x; intro hx; rotate_right; subst x)
    | (extract_lets +onlyGivenNames x; clear_value x) | with_reducible apply keeps_emit
    | with_reducible apply keeps_modStream | with_reducible apply keeps_ite | split | (with_reducible apply keeps_id)
    | dsimp only

theorem keeps_stopStreams {msk : Nat} {s0 s : State} (cause : Nat) (final : Bool) (f : BitVec 16 → Bool) (hk : Fr msk s0 s)
    (hm : Sub 268435460 msk := by exact Sub.mono (by assumption) rfl) :
    Fr msk s0 (State.stopStreams s cause final f) := by
  unfold State.stopStreams
  repeat' first
    | with_reducible assumption | (exact Sub.mono hm rfl) | intro _
    | (extract_lets +onlyGivenNames x; refine keeps_have (msk := msk) (s0 := s0) (x := x) ?_ ?_; rotate_left; clear_value x; intro hx; rotate_right; subst x)
    | (extract_lets +onlyGivenNames x; refine keeps_have_fst (msk := msk) (s0 := s0) (x := x) ?_ ?_; rotate_left; clear_value x; intro hx; rotate_right; subst x)
    | (extract_lets +onlyGivenNames x; clear_value x) | with_reducible apply keeps_closeStream
    | with_reducible apply keeps_each | with_reducible apply keeps_gap | (simp only [stOf_mk])
    | with_reducible apply keeps_fst | dsimp only | with_reducible apply keeps_flow

theorem keeps_resumeStreams {msk : Nat} {s0 s : State} (f : BitVec 16 → Bool) (hk : Fr msk s0 s)
    (hm : Sub 4 msk := by exact Sub.mono (by assumption) rfl) :
    Fr msk s0 (State.resumeStreams s f) := by
  unfold State.resumeStreams
  repeat' first
    | with_reducible assumption | (exact Sub.mono hm rfl) | intro _
    | (extract_lets +onlyGivenNames x; refine keeps_have (msk := msk) (s0 := s0) (x := x) ?_ ?_; rotate_left; clear_value x; intro hx; rotate_right; subst x)
    | (extract_lets +onlyGivenNames x; clear_value x) | with_reducible apply keeps_each
    | with_reducible apply keeps_openStream | dsimp only | with_reducible apply keeps_flow

theorem keeps_requestMarker {msk : Nat} {s0 s : State} (stage : FirstStage) (type : MarkerType) (target : BitVec 16) (t : DevTime) (arg : BitVec 64) (hk : Fr msk s0 s)
    (hm : Sub 4 msk := by exact Sub.mono (by assumption) rfl) :
    Fr msk s0 (stOf (State.requestMarker s stage type target t arg)) := by
  unfold State.requestMarker
  repeat' first
    | with_reducible assumption | (exact Sub.mono hm rfl) | intro _
    | (extract_lets +onlyGivenNames x; refine keeps_have (msk := msk) (s0 := s0) (x := x) ?_ ?_; rotate_left; clear_value x; intro hx; rotate_right; subst x)
    | (extract_lets +onlyGivenNames x; refine keeps_have_fst (msk := msk) (s0 := s0) (x := x) ?_ ?_; rotate_left; clear_value x; intro hx; rotate_right; subst x)
    | (extract_lets +onlyGivenNames x; clear_value x) | with_reducible apply keeps_ite | with_reducible apply keeps_ite_fst
    | (simp only [stOf_mk]) | with_reducible apply keeps_fst | dsimp only | with_reducible apply keeps_flow

theorem keeps_askMarker {msk : Nat} {s0 s : State} (rf : Fld) (stage : FirstStage) (type : MarkerType) (target : BitVec 16) (t : DevTime)
    (arg : BitVec 64) (ok : State → State) (hf : ∀ u, Fr msk s0 u → Fr msk s0 (ok u)) (hk : Fr msk s0 s)
    (hm : Sub 5 msk := by exact Sub.mono (by assumption) rfl) :
    Fr msk s0 (stOf (State.askMarker s rf stage type target t arg ok)) := by
  have h := keeps_requestMarker stage type target t arg hk
  unfold State.askMarker
  revert h
  generalize s.requestMarker stage type target t arg = r
  intro h
  dsimp only
  split
  · exact keeps_pair (keeps_put _ _ (keeps_fst h))
  · exact keeps_pair (hf _ (keeps_put _ _ (keeps_fst h)))

theorem keeps_cancelMarker {msk : Nat} {s0 s : State} (type : MarkerType) (target : BitVec 16) (hk : Fr msk s0 s)
    (hm : Sub 4 msk := by exact Sub.mono (by assumption) rfl) :
    Fr msk s0 (State.cancelMarker s type target) := by
  unfold State.cancelMarker
  repeat' first
    | with_reducible assumption | (exact Sub.mono hm rfl) | intro _
    | (extract_lets +onlyGivenNames x; refine keeps_have (msk := msk) (s0 := s0) (x := x) ?_ ?_; rotate_left; clear_value x; intro hx; rotate_right; subst x)
    | (extract_lets +onlyGivenNames x; clear_value x) | dsimp only | with_reducible apply keeps_flow

theorem keeps_insertMarker {msk : Nat} {s0 s : State} (stage : FirstStage) (type : MarkerType) (target : BitVec 16) (t : DevTime) (arg : BitVec 64) (late : Bool) (off : Nat) (hk : Fr msk s0 s)
    (hm : Sub 268435460 msk := by exact Sub.mono (by assumption) rfl) :
    Fr msk s0 (State.insertMarker s stage type target t arg late off) := by
  unfold State.insertMarker
  repeat' first
    | with_reducible assumption | (exact Sub.mono hm rfl) | intro _
    | (extract_lets +onlyGivenNames x; refine keeps_have (msk := msk) (s0 := s0) (x := x) ?_ ?_; rotate_left; clear_value x; intro hx; rotate_right; subst x)
    | (extract_lets +onlyGivenNames x; clear_value x) | with_reducible apply keeps_emit | dsimp only
    | with_reducible apply keeps_flow

theorem keeps_clearFrameMarkers {msk : Nat} {s0 s : State} (stage : FirstStage) (hk : Fr msk s0 s)
    (hm : Sub 4 msk := by exact Sub.mono (by assumption) rfl) :
    Fr msk s0 (State.clearFrameMarkers s stage) := by
  unfold State.clearFrameMarkers
  repeat' first
    | with_reducible assumption | (exact Sub.mono hm rfl) | intro _
    | (extract_lets +onlyGivenNames x; refine keeps_have (msk := msk) (s0 := s0) (x := x) ?_ ?_; rotate_left; clear_value x; intro hx; rotate_right; subst x)
    | (extract_lets +onlyGivenNames x; clear_value x) | dsimp only | with_reducible apply keeps_flow

theorem keeps_exitRestart {msk : Nat} {s0 s : State} (e : Exit) (inst : Nat) (id : BitVec 16) (hk : Fr msk s0 s)
    (hm : Sub 4 msk := by exact Sub.mono (by assumption) rfl) :
    Fr msk s0 (State.exitRestart s e inst id) := by
  unfold State.exitRestart
  repeat' first
    | with_reducible assumption | (exact Sub.mono hm rfl) | intro _
    | (extract_lets +onlyGivenNames x; refine keeps_have (msk := msk) (s0 := s0) (x := x) ?_ ?_; rotate_left; clear_value x; intro hx; rotate_right; subst x)
    | (extract_lets +onlyGivenNames x; clear_value x) | (with_reducible apply keeps_id) | dsimp only
    | with_reducible apply keeps_flow

theorem keeps_exitReopen {msk : Nat} {s0 s : State} (e : Exit) (id : BitVec 16) (hk : Fr msk s0 s)
    (hm : Sub 4 msk := by exact Sub.mono (by assumption) rfl) :
    Fr msk s0 (State.exitReopen s e id) := by
  unfold State.exitReopen
  repeat' first
    | with_reducible assumption | (exact Sub.mono hm rfl) | intro _ | with_reducible apply keeps_each
    | with_reducible apply keeps_exitRestart | (with_reducible apply keeps_id) | dsimp only

theorem keeps_countExit {msk : Nat} {s0 s : State} (e : Exit) (inst : Nat) (id : BitVec 16) (hk : Fr msk s0 s)
    (hm : Sub 4 msk := by exact Sub.mono (by assumption) rfl) :
    Fr msk s0 (State.countExit s e inst id) := by
  unfold State.countExit
  repeat' first
    | with_reducible assumption | (exact Sub.mono hm rfl) | intro _
    | (extract_lets +onlyGivenNames x; refine keeps_have (msk := msk) (s0 := s0) (x := x) ?_ ?_; rotate_left; clear_value x; intro hx; rotate_right; subst x)
    | (extract_lets +onlyGivenNames x; clear_value x) | (with_reducible apply keeps_id) | dsimp only
    | with_reducible apply keeps_flow

theorem keeps_sendRecord {msk : Nat} {s0 s : State} (e : Exit) (inst : Nat) (r : YRec) (hk : Fr msk s0 s)
    (hm : Sub 268435460 msk := by exact Sub.mono (by assumption) rfl) :
    Fr msk s0 (State.sendRecord s e inst r) := by
  unfold State.sendRecord
  repeat' first
    | with_reducible assumption | (exact Sub.mono hm rfl) | intro _ | with_reducible apply keeps_countExit
    | with_reducible apply keeps_emit | dsimp only

theorem keeps_adoptEpoch {msk : Nat} {s0 s : State} (region : Nat) (id : BitVec 16) (e : Byte) (hk : Fr msk s0 s)
    (hm : Sub 4 msk := by exact Sub.mono (by assumption) rfl) :
    Fr msk s0 (State.adoptEpoch s region id e) := by
  unfold State.adoptEpoch
  repeat' first
    | with_reducible assumption | (exact Sub.mono hm rfl) | intro _
    | (extract_lets +onlyGivenNames x; refine keeps_have (msk := msk) (s0 := s0) (x := x) ?_ ?_; rotate_left; clear_value x; intro hx; rotate_right; subst x)
    | (extract_lets +onlyGivenNames x; clear_value x) | (with_reducible apply keeps_id) | dsimp only
    | with_reducible apply keeps_flow

theorem keeps_takeEpochs {msk : Nat} {s0 s : State} (region : Nat) (f : Frame) (hk : Fr msk s0 s)
    (hm : Sub 4 msk := by exact Sub.mono (by assumption) rfl) :
    Fr msk s0 (State.takeEpochs s region f) := by
  unfold State.takeEpochs
  repeat' first
    | with_reducible assumption | (exact Sub.mono hm rfl) | intro _ | with_reducible apply keeps_adoptEpoch
    | with_reducible apply keeps_each | dsimp only

theorem keeps_signal {msk : Nat} {s0 s : State} (v : Nat) (hk : Fr msk s0 s)
    (hm : Sub 268435584 msk := by exact Sub.mono (by assumption) rfl) :
    Fr msk s0 (State.signal s v) := by
  unfold State.signal
  repeat' first
    | with_reducible assumption | (exact Sub.mono hm rfl) | intro _
    | (extract_lets +onlyGivenNames x; refine keeps_have (msk := msk) (s0 := s0) (x := x) ?_ ?_; rotate_left; clear_value x; intro hx; rotate_right; subst x)
    | (extract_lets +onlyGivenNames x; clear_value x) | with_reducible apply keeps_emit | with_reducible apply keeps_ite
    | dsimp only | with_reducible apply keeps_msix

/-! ### Flags -/

theorem keeps_drivePins {msk : Nat} {s0 s : State}  (hk : Fr msk s0 s)
    (hm : Sub 2 msk := by exact Sub.mono (by assumption) rfl) :
    Fr msk s0 (State.drivePins s) := by
  unfold State.drivePins
  repeat' first
    | with_reducible assumption | (exact Sub.mono hm rfl) | intro _
    | (extract_lets +onlyGivenNames x; refine keeps_have (msk := msk) (s0 := s0) (x := x) ?_ ?_; rotate_left; clear_value x; intro hx; rotate_right; subst x)
    | (extract_lets +onlyGivenNames x; clear_value x) | split | dsimp only | with_reducible apply keeps_power

theorem keeps_updateAlarms {msk : Nat} {s0 s : State}  (hk : Fr msk s0 s)
    (hm : Sub 268435587 msk := by exact Sub.mono (by assumption) rfl) :
    Fr msk s0 (State.updateAlarms s) := by
  unfold State.updateAlarms
  repeat' first
    | with_reducible assumption | (exact Sub.mono hm rfl) | intro _
    | (extract_lets +onlyGivenNames x; refine keeps_have (msk := msk) (s0 := s0) (x := x) ?_ ?_; rotate_left; clear_value x; intro hx; rotate_right; subst x)
    | (extract_lets +onlyGivenNames x; clear_value x) | with_reducible apply keeps_drivePins
    | with_reducible apply keeps_each | with_reducible apply keeps_put | with_reducible apply keeps_signal | dsimp only

theorem keeps_alarmElement {msk : Nat} {s0 s : State} (region : Nat) (a : AlarmKind) (h : AlarmHold) (hk : Fr msk s0 s)
    (hm : Sub 268435492 msk := by exact Sub.mono (by assumption) rfl) :
    Fr msk s0 (State.alarmElement s region a h) := by
  unfold State.alarmElement
  repeat' first
    | with_reducible assumption | (exact Sub.mono hm rfl) | intro _
    | (extract_lets +onlyGivenNames x; refine keeps_have (msk := msk) (s0 := s0) (x := x) ?_ ?_; rotate_left; clear_value x; intro hx; rotate_right; subst x)
    | (extract_lets +onlyGivenNames x; clear_value x) | with_reducible apply keeps_emit
    | with_reducible apply keeps_modStream | (with_reducible apply keeps_id) | dsimp only | with_reducible apply keeps_alarm

theorem keeps_raiseAlarm {msk : Nat} {s0 s : State} (region : Nat) (a : AlarmKind) (arg : Nat) (reason : Nat) (hk : Fr msk s0 s)
    (hm : Sub 268435623 msk := by exact Sub.mono (by assumption) rfl) :
    Fr msk s0 (State.raiseAlarm s region a arg reason) := by
  unfold State.raiseAlarm
  repeat' first
    | with_reducible assumption | (exact Sub.mono hm rfl) | intro _
    | (extract_lets +onlyGivenNames x; refine keeps_have (msk := msk) (s0 := s0) (x := x) ?_ ?_; rotate_left; clear_value x; intro hx; rotate_right; subst x)
    | (extract_lets +onlyGivenNames x; clear_value x) | with_reducible apply keeps_alarmElement
    | with_reducible apply keeps_count | with_reducible apply keeps_put | with_reducible apply keeps_updateAlarms
    | with_reducible apply keeps_ite | split | dsimp only | with_reducible apply keeps_alarm

theorem keeps_beginLevel {msk : Nat} {s0 s : State} (region : Nat) (a : AlarmKind) (arg : Nat) (reason : Nat) (hk : Fr msk s0 s)
    (hm : Sub 268435623 msk := by exact Sub.mono (by assumption) rfl) :
    Fr msk s0 (State.beginLevel s region a arg reason) := by
  unfold State.beginLevel
  repeat' first
    | with_reducible assumption | (exact Sub.mono hm rfl) | intro _
    | (extract_lets +onlyGivenNames x; refine keeps_have (msk := msk) (s0 := s0) (x := x) ?_ ?_; rotate_left; clear_value x; intro hx; rotate_right; subst x)
    | (extract_lets +onlyGivenNames x; clear_value x) | with_reducible apply keeps_raiseAlarm
    | with_reducible apply keeps_ite | dsimp only | with_reducible apply keeps_alarm

theorem keeps_endLevel {msk : Nat} {s0 s : State} (region : Nat) (a : AlarmKind) (arg : Nat) (hk : Fr msk s0 s)
    (hm : Sub 32 msk := by exact Sub.mono (by assumption) rfl) :
    Fr msk s0 (State.endLevel s region a arg) := by
  unfold State.endLevel
  repeat' first
    | with_reducible assumption | (exact Sub.mono hm rfl) | intro _
    | (extract_lets +onlyGivenNames x; refine keeps_have (msk := msk) (s0 := s0) (x := x) ?_ ?_; rotate_left; clear_value x; intro hx; rotate_right; subst x)
    | (extract_lets +onlyGivenNames x; clear_value x) | dsimp only | with_reducible apply keeps_alarm

theorem keeps_setReplace {msk : Nat} {s0 s : State} (bit : Nat) (on : Bool) (hk : Fr msk s0 s)
    (hm : Sub 268435623 msk := by exact Sub.mono (by assumption) rfl) :
    Fr msk s0 (State.setReplace s bit on) := by
  unfold State.setReplace
  repeat' first
    | with_reducible assumption | (exact Sub.mono hm rfl) | intro _
    | (extract_lets +onlyGivenNames x; refine keeps_have (msk := msk) (s0 := s0) (x := x) ?_ ?_; rotate_left; clear_value x; intro hx; rotate_right; subst x)
    | (extract_lets +onlyGivenNames x; clear_value x) | with_reducible apply keeps_beginLevel
    | with_reducible apply keeps_drivePins | with_reducible apply keeps_endLevel | with_reducible apply keeps_put
    | with_reducible apply keeps_ite | dsimp only

theorem keeps_checkSpares {msk : Nat} {s0 s : State}  (hk : Fr msk s0 s)
    (hm : Sub 268435623 msk := by exact Sub.mono (by assumption) rfl) :
    Fr msk s0 (State.checkSpares s) := by
  unfold State.checkSpares
  repeat' first
    | with_reducible assumption | (exact Sub.mono hm rfl) | intro _ | with_reducible apply keeps_setReplace | dsimp only

/-! ### Blocks -/

theorem keeps_modFt {msk : Nat} {s0 s : State} (k : Nat) (f : FtRegion → FtRegion) (hk : Fr msk s0 s)
    (hm : Sub 256 msk := by exact Sub.mono (by assumption) rfl) :
    Fr msk s0 (State.modFt s k f) := by
  unfold State.modFt
  repeat' first
    | with_reducible assumption | (exact Sub.mono hm rfl) | intro _
    | (extract_lets +onlyGivenNames x; refine keeps_have (msk := msk) (s0 := s0) (x := x) ?_ ?_; rotate_left; clear_value x; intro hx; rotate_right; subst x)
    | (extract_lets +onlyGivenNames x; clear_value x) | dsimp only | with_reducible apply keeps_ft

theorem keeps_setBlk {msk : Nat} {s0 s : State} (k : Nat) (b : Nat) (x : Blk) (hk : Fr msk s0 s)
    (hm : Sub 256 msk := by exact Sub.mono (by assumption) rfl) :
    Fr msk s0 (State.setBlk s k b x) := by
  unfold State.setBlk
  repeat' first
    | with_reducible assumption | (exact Sub.mono hm rfl) | intro _
    | (extract_lets +onlyGivenNames x; refine keeps_have (msk := msk) (s0 := s0) (x := x) ?_ ?_; rotate_left; clear_value x; intro hx; rotate_right; subst x)
    | (extract_lets +onlyGivenNames x; clear_value x) | with_reducible apply keeps_modFt | dsimp only

/-! ### Operands -/

theorem keeps_recordRefusal {msk : Nat} {s0 s : State} (p : Nat) (a : Nat) (write : Bool) (code : Nat) (hk : Fr msk s0 s)
    (hm : Sub 1 msk := by exact Sub.mono (by assumption) rfl) :
    Fr msk s0 (State.recordRefusal s p a write code) := by
  unfold State.recordRefusal
  repeat' first
    | with_reducible assumption | (exact Sub.mono hm rfl) | intro _
    | (extract_lets +onlyGivenNames x; refine keeps_have (msk := msk) (s0 := s0) (x := x) ?_ ?_; rotate_left; clear_value x; intro hx; rotate_right; subst x)
    | (extract_lets +onlyGivenNames x; clear_value x) | with_reducible apply keeps_countF | with_reducible apply keeps_put
    | with_reducible apply keeps_setVal | with_reducible apply keeps_ite | dsimp only

theorem keeps_inIsland {msk : Nat} {s0 s : State} (k : Nat) (f : State → State) (h_f : ∀ t , Fr msk s0 t → Fr msk s0 (f t )) (hk : Fr msk s0 s)
    (hm : Sub 0 msk := by exact Sub.mono (by assumption) rfl) :
    Fr msk s0 (State.inIsland s k f) := by
  unfold State.inIsland
  repeat' first
    | with_reducible assumption | (exact Sub.mono hm rfl) | intro _ | with_reducible apply h_f
    | with_reducible apply keeps_ite | split | dsimp only

theorem keeps_plainWrite {msk : Nat} {s0 s : State} (a : Nat) (v : Nat) (hk : Fr msk s0 s)
    (hm : Sub 1 msk := by exact Sub.mono (by assumption) rfl) :
    Fr msk s0 (State.plainWrite s a v) := by
  unfold State.plainWrite
  repeat' first
    | with_reducible assumption | (exact Sub.mono hm rfl) | intro _
    | (extract_lets +onlyGivenNames x; refine keeps_have (msk := msk) (s0 := s0) (x := x) ?_ ?_; rotate_left; clear_value x; intro hx; rotate_right; subst x)
    | (extract_lets +onlyGivenNames x; clear_value x) | with_reducible apply keeps_setVal | split | dsimp only

theorem keeps_gatedWrite {msk : Nat} {s0 s : State} (p : Nat) (a : Nat) (h : State → State × Nat) (h_h : ∀ t , Fr msk s0 t → Fr msk s0 (stOf (h t ))) (hk : Fr msk s0 s)
    (hm : Sub 1 msk := by exact Sub.mono (by assumption) rfl) :
    Fr msk s0 (State.gatedWrite s p a h) := by
  unfold State.gatedWrite
  repeat' first
    | with_reducible assumption | (exact Sub.mono hm rfl) | intro _
    | (extract_lets +onlyGivenNames x; refine keeps_have (msk := msk) (s0 := s0) (x := x) ?_ ?_; rotate_left; clear_value x; intro hx; rotate_right; subst x)
    | (extract_lets +onlyGivenNames x; refine keeps_have_fst (msk := msk) (s0 := s0) (x := x) ?_ ?_; rotate_left; clear_value x; intro hx; rotate_right; subst x)
    | (extract_lets +onlyGivenNames x; clear_value x) | with_reducible apply keeps_recordRefusal | with_reducible apply h_h
    | with_reducible apply keeps_ite | with_reducible apply keeps_ite_fst | (simp only [stOf_mk]) | split
    | with_reducible apply keeps_fst | dsimp only

theorem keeps_gatedRead {msk : Nat} {s0 s : State} (p : Nat) (a : Nat) (h : State → State × Word) (h_h : ∀ t , Fr msk s0 t → Fr msk s0 (stOf (h t ))) (hk : Fr msk s0 s)
    (hm : Sub 1 msk := by exact Sub.mono (by assumption) rfl) :
    Fr msk s0 (stOf (State.gatedRead s p a h)) := by
  unfold State.gatedRead
  repeat' first
    | with_reducible assumption | (exact Sub.mono hm rfl) | intro _
    | (extract_lets +onlyGivenNames x; refine keeps_have (msk := msk) (s0 := s0) (x := x) ?_ ?_; rotate_left; clear_value x; intro hx; rotate_right; subst x)
    | (extract_lets +onlyGivenNames x; refine keeps_have_fst (msk := msk) (s0 := s0) (x := x) ?_ ?_; rotate_left; clear_value x; intro hx; rotate_right; subst x)
    | (extract_lets +onlyGivenNames x; clear_value x) | with_reducible apply keeps_recordRefusal | with_reducible apply h_h
    | with_reducible apply keeps_ite | with_reducible apply keeps_ite_fst | (simp only [stOf_mk]) | split
    | with_reducible apply keeps_fst | dsimp only

theorem keeps_plainRead {msk : Nat} {s0 s : State} (a : Nat) (hk : Fr msk s0 s)
    (hm : Sub 1 msk := by exact Sub.mono (by assumption) rfl) :
    Fr msk s0 (stOf (State.plainRead s a)) := by
  unfold State.plainRead
  repeat' first
    | with_reducible assumption | (exact Sub.mono hm rfl) | intro _
    | (extract_lets +onlyGivenNames x; refine keeps_have (msk := msk) (s0 := s0) (x := x) ?_ ?_; rotate_left; clear_value x; intro hx; rotate_right; subst x)
    | (extract_lets +onlyGivenNames x; refine keeps_have_fst (msk := msk) (s0 := s0) (x := x) ?_ ?_; rotate_left; clear_value x; intro hx; rotate_right; subst x)
    | (extract_lets +onlyGivenNames x; clear_value x) | with_reducible apply keeps_setVal | with_reducible apply keeps_ite
    | with_reducible apply keeps_ite_fst | (simp only [stOf_mk]) | split | with_reducible apply keeps_fst | dsimp only

theorem keeps_readOut {msk : Nat} {s0 s : State} (p : Nat) (a : Nat) (h : State → State × Word) (h_h : ∀ t , Fr msk s0 t → Fr msk s0 (stOf (h t ))) (hk : Fr msk s0 s)
    (hm : Sub 268435457 msk := by exact Sub.mono (by assumption) rfl) :
    Fr msk s0 (State.readOut s p a h) := by
  unfold State.readOut
  repeat' first
    | with_reducible assumption | (exact Sub.mono hm rfl) | intro _
    | (extract_lets +onlyGivenNames x; refine keeps_have (msk := msk) (s0 := s0) (x := x) ?_ ?_; rotate_left; clear_value x; intro hx; rotate_right; subst x)
    | (extract_lets +onlyGivenNames x; refine keeps_have_fst (msk := msk) (s0 := s0) (x := x) ?_ ?_; rotate_left; clear_value x; intro hx; rotate_right; subst x)
    | (extract_lets +onlyGivenNames x; clear_value x) | with_reducible apply keeps_answer | with_reducible apply keeps_emit
    | with_reducible apply keeps_gatedRead | with_reducible apply h_h | with_reducible apply keeps_ite
    | with_reducible apply keeps_ite_fst | (simp only [stOf_mk]) | with_reducible apply keeps_fst | dsimp only

theorem keeps_enableWrite {msk : Nat} {s0 s : State} (a : Nat) (v : Nat) (f : Fld) (rf : Fld) (lk : State → Nat) (check : State → Nat) (start : State → State) (stop : State → State) (h_start : ∀ t , Fr msk s0 t → Fr msk s0 (start t )) (h_stop : ∀ t , Fr msk s0 t → Fr msk s0 (stop t )) (hk : Fr msk s0 s)
    (hm : Sub 1 msk := by exact Sub.mono (by assumption) rfl) :
    Fr msk s0 (stOf (State.enableWrite s a v f rf lk check start stop)) := by
  unfold State.enableWrite
  repeat' first
    | with_reducible assumption | (exact Sub.mono hm rfl) | intro _
    | (extract_lets +onlyGivenNames x; refine keeps_have (msk := msk) (s0 := s0) (x := x) ?_ ?_; rotate_left; clear_value x; intro hx; rotate_right; subst x)
    | (extract_lets +onlyGivenNames x; refine keeps_have_fst (msk := msk) (s0 := s0) (x := x) ?_ ?_; rotate_left; clear_value x; intro hx; rotate_right; subst x)
    | (extract_lets +onlyGivenNames x; clear_value x) | with_reducible apply keeps_answer
    | with_reducible apply keeps_plainWrite | with_reducible apply keeps_put | with_reducible apply h_start
    | with_reducible apply h_stop | with_reducible apply keeps_ite | with_reducible apply keeps_ite_fst
    | (simp only [stOf_mk]) | with_reducible apply keeps_fst | dsimp only

/-! ### Loss -/

theorem keeps_endStreams {msk : Nat} {s0 s : State} (cause : Nat) (f : BitVec 16 → Bool) (hk : Fr msk s0 s)
    (hm : Sub 268435460 msk := by exact Sub.mono (by assumption) rfl) :
    Fr msk s0 (State.endStreams s cause f) := by
  unfold State.endStreams
  repeat' first
    | with_reducible assumption | (exact Sub.mono hm rfl) | intro _ | with_reducible apply keeps_each
    | with_reducible apply keeps_gap | (simp only [stOf_mk]) | with_reducible apply keeps_fst | dsimp only

theorem keeps_regionLost {msk : Nat} {s0 s : State} (k : Nat) (hk : Fr msk s0 s)
    (hm : Sub 268435623 msk := by exact Sub.mono (by assumption) rfl) :
    Fr msk s0 (State.regionLost s k) := by
  unfold State.regionLost
  repeat' first
    | with_reducible assumption | (exact Sub.mono hm rfl) | intro _
    | (extract_lets +onlyGivenNames x; refine keeps_have (msk := msk) (s0 := s0) (x := x) ?_ ?_; rotate_left; clear_value x; intro hx; rotate_right; subst x)
    | (extract_lets +onlyGivenNames x; refine keeps_have_fst (msk := msk) (s0 := s0) (x := x) ?_ ?_; rotate_left; clear_value x; intro hx; rotate_right; subst x)
    | (extract_lets +onlyGivenNames x; clear_value x) | with_reducible apply keeps_endStreams
    | with_reducible apply keeps_put | with_reducible apply keeps_raiseAlarm | with_reducible apply keeps_setReplace
    | with_reducible apply keeps_ite | with_reducible apply keeps_ite_fst | (simp only [stOf_mk]) | split
    | (with_reducible apply keeps_id) | with_reducible apply keeps_fst | dsimp only | with_reducible apply keeps_flow

theorem keeps_notMasked {msk : Nat} {s0 s : State} (region : Nat) (block : Nat) (streams : List (BitVec 16)) (reason : Nat) (hk : Fr msk s0 s)
    (hm : Sub 268435623 msk := by exact Sub.mono (by assumption) rfl) :
    Fr msk s0 (State.notMasked s region block streams reason) := by
  unfold State.notMasked
  repeat' first
    | with_reducible assumption | (exact Sub.mono hm rfl) | intro _ | with_reducible apply keeps_endStreams
    | with_reducible apply keeps_raiseAlarm | (with_reducible apply keeps_id) | dsimp only

theorem keeps_ftLog {msk : Nat} {s0 s : State} (k : Nat) (e : FtLog) (hk : Fr msk s0 s)
    (hm : Sub 256 msk := by exact Sub.mono (by assumption) rfl) :
    Fr msk s0 (State.ftLog s k e) := by
  unfold State.ftLog
  repeat' first
    | with_reducible assumption | (exact Sub.mono hm rfl) | intro _
    | (extract_lets +onlyGivenNames x; refine keeps_have (msk := msk) (s0 := s0) (x := x) ?_ ?_; rotate_left; clear_value x; intro hx; rotate_right; subst x)
    | (extract_lets +onlyGivenNames x; clear_value x) | with_reducible apply keeps_modFt | dsimp only

theorem keeps_testResult {msk : Nat} {s0 s : State} (k : Nat) (b : Nat) (verdict : Nat) (logged : Nat) (applied : Nat) (hk : Fr msk s0 s)
    (hm : Sub 1 msk := by exact Sub.mono (by assumption) rfl) :
    Fr msk s0 (State.testResult s k b verdict logged applied) := by
  unfold State.testResult
  repeat' first
    | with_reducible assumption | (exact Sub.mono hm rfl) | intro _ | with_reducible apply keeps_put
    | with_reducible apply keeps_setVal | dsimp only

theorem keeps_nextEpoch {msk : Nat} {s0 s : State} (k : Nat) (hk : Fr msk s0 s)
    (hm : Sub 1 msk := by exact Sub.mono (by assumption) rfl) :
    Fr msk s0 (State.nextEpoch s k) := by
  unfold State.nextEpoch
  repeat' first
    | with_reducible assumption | (exact Sub.mono hm rfl) | intro _
    | (extract_lets +onlyGivenNames x; refine keeps_have (msk := msk) (s0 := s0) (x := x) ?_ ?_; rotate_left; clear_value x; intro hx; rotate_right; subst x)
    | (extract_lets +onlyGivenNames x; clear_value x) | with_reducible apply keeps_put | with_reducible apply keeps_ite
    | dsimp only

theorem keeps_epochMark {msk : Nat} {s0 s : State} (k : Nat) (id : BitVec 16) (hk : Fr msk s0 s)
    (hm : Sub 268435460 msk := by exact Sub.mono (by assumption) rfl) :
    Fr msk s0 (State.epochMark s k id) := by
  unfold State.epochMark
  repeat' first
    | with_reducible assumption | (exact Sub.mono hm rfl) | intro _
    | (extract_lets +onlyGivenNames x; refine keeps_have (msk := msk) (s0 := s0) (x := x) ?_ ?_; rotate_left; clear_value x; intro hx; rotate_right; subst x)
    | (extract_lets +onlyGivenNames x; clear_value x) | with_reducible apply keeps_emit
    | with_reducible apply keeps_modStream | (with_reducible apply keeps_id) | dsimp only | with_reducible apply keeps_flow

theorem keeps_epochMarkers {msk : Nat} {s0 s : State} (k : Nat) (f : BitVec 16 → Bool) (hk : Fr msk s0 s)
    (hm : Sub 268435460 msk := by exact Sub.mono (by assumption) rfl) :
    Fr msk s0 (State.epochMarkers s k f) := by
  unfold State.epochMarkers
  repeat' first
    | with_reducible assumption | (exact Sub.mono hm rfl) | intro _ | with_reducible apply keeps_each
    | with_reducible apply keeps_epochMark | (simp only [stOf_mk]) | with_reducible apply keeps_fst | dsimp only

theorem keeps_spareGone {msk : Nat} {s0 s : State} (k : Nat) (b : Nat) (hk : Fr msk s0 s)
    (hm : Sub 268435623 msk := by exact Sub.mono (by assumption) rfl) :
    Fr msk s0 (State.spareGone s k b) := by
  unfold State.spareGone
  repeat' first
    | with_reducible assumption | (exact Sub.mono hm rfl) | intro _ | with_reducible apply keeps_checkSpares
    | with_reducible apply keeps_put | with_reducible apply keeps_raiseAlarm | dsimp only

theorem keeps_patrolCut {msk : Nat} {s0 s t : State} {k b : Nat} {g : BlkKind} (e : s.patrolCut k g = some (b, t)) (hk : Fr msk s0 s)
    (hm : Sub 536871169 msk := by exact Sub.mono (by assumption) rfl) :
    Fr msk s0 t := by
  unfold State.patrolCut at e
  split at e
  · cases e
  · split at e
    · cases e
    · simp only [Option.some.injEq, Prod.mk.injEq] at e
      rw [← e.2]
      repeat' first
        | with_reducible assumption | (exact Sub.mono hm rfl) | intro _
        | (extract_lets +onlyGivenNames x; refine keeps_have (msk := msk) (s0 := s0) (x := x) ?_ ?_; rotate_left; clear_value x; intro hx; rotate_right; subst x)
        | (extract_lets +onlyGivenNames x; refine keeps_have_fst (msk := msk) (s0 := s0) (x := x) ?_ ?_; rotate_left; clear_value x; intro hx; rotate_right; subst x)
        | (extract_lets +onlyGivenNames x; clear_value x) | with_reducible apply keeps_modFt
        | with_reducible apply keeps_setBlk | with_reducible apply keeps_ftLog | with_reducible apply keeps_testResult
        | with_reducible apply keeps_useFree | with_reducible apply keeps_ite | with_reducible apply keeps_ite_fst
        | (simp only [stOf_mk]) | split | with_reducible apply keeps_fst | dsimp only

theorem keeps_pickSpare {msk : Nat} {s0 s t : State} {k b : Nat} {g : BlkKind} (e : s.pickSpare k g = some (b, t)) (hk : Fr msk s0 s)
    (hm : Sub 536871169 msk := by exact Sub.mono (by assumption) rfl) :
    Fr msk s0 t := by
  unfold State.pickSpare at e
  split at e
  · simp only [Option.some.injEq, Prod.mk.injEq] at e
    rw [← e.2]
    exact hk
  · exact keeps_patrolCut e hk

theorem keeps_takeoverStart {msk : Nat} {s0 s : State} (k : Nat) (b : Nat) (g : BlkKind) (d : Nat) (hk : Fr msk s0 s)
    (hm : Sub 805306791 msk := by exact Sub.mono (by assumption) rfl) :
    Fr msk s0 (State.takeoverStart s k b g d) := by
  unfold State.takeoverStart
  repeat' first
    | with_reducible assumption | (exact Sub.mono hm rfl) | intro _
    | (extract_lets +onlyGivenNames x; refine keeps_have (msk := msk) (s0 := s0) (x := x) ?_ ?_; rotate_left; clear_value x; intro hx; rotate_right; subst x)
    | (extract_lets +onlyGivenNames x; clear_value x) | with_reducible apply keeps_endStreams
    | with_reducible apply keeps_epochMarkers | with_reducible apply keeps_modFt | with_reducible apply keeps_nextEpoch
    | with_reducible apply keeps_notMasked | (with_reducible refine keeps_pickSpare (by with_reducible assumption) ?_)
    | with_reducible apply keeps_raiseAlarm | with_reducible apply keeps_regionLost | with_reducible apply keeps_setBlk
    | with_reducible apply keeps_ite | split | (with_reducible apply keeps_id) | dsimp only

theorem keeps_testFault {msk : Nat} {s0 s : State} (k : Nat) (b : Nat) (g : BlkKind) (hk : Fr msk s0 s)
    (hm : Sub 536871169 msk := by exact Sub.mono (by assumption) rfl) :
    Fr msk s0 (State.testFault s k b g) := by
  unfold State.testFault
  repeat' first
    | with_reducible assumption | (exact Sub.mono hm rfl) | intro _
    | (extract_lets +onlyGivenNames x; refine keeps_have (msk := msk) (s0 := s0) (x := x) ?_ ?_; rotate_left; clear_value x; intro hx; rotate_right; subst x)
    | (extract_lets +onlyGivenNames x; clear_value x) | with_reducible apply keeps_modFt
    | (with_reducible refine keeps_patrolCut (by with_reducible assumption) ?_) | split | dsimp only

theorem keeps_faultStart {msk : Nat} {s0 s : State} (k : Nat) (b : Nat) (g : BlkKind) (hk : Fr msk s0 s)
    (hm : Sub 805306791 msk := by exact Sub.mono (by assumption) rfl) :
    Fr msk s0 (State.faultStart s k b g) := by
  unfold State.faultStart
  repeat' first
    | with_reducible assumption | (exact Sub.mono hm rfl) | intro _
    | (extract_lets +onlyGivenNames x; refine keeps_have (msk := msk) (s0 := s0) (x := x) ?_ ?_; rotate_left; clear_value x; intro hx; rotate_right; subst x)
    | (extract_lets +onlyGivenNames x; clear_value x) | with_reducible apply keeps_setBlk
    | with_reducible apply keeps_spareGone | with_reducible apply keeps_takeoverStart | with_reducible apply keeps_testFault
    | split | dsimp only

theorem keeps_blockFail {msk : Nat} {s0 s : State} (k : Nat) (b : Nat) (array : Nat) (addr : Nat) (bit : Nat) (hk : Fr msk s0 s)
    (hm : Sub 805306791 msk := by exact Sub.mono (by assumption) rfl) :
    Fr msk s0 (State.blockFail s k b array addr bit) := by
  unfold State.blockFail
  repeat' first
    | with_reducible assumption | (exact Sub.mono hm rfl) | intro _
    | (extract_lets +onlyGivenNames x; refine keeps_have (msk := msk) (s0 := s0) (x := x) ?_ ?_; rotate_left; clear_value x; intro hx; rotate_right; subst x)
    | (extract_lets +onlyGivenNames x; clear_value x) | with_reducible apply keeps_faultStart
    | with_reducible apply keeps_ftLog | with_reducible apply keeps_modFt | with_reducible apply keeps_ite | split
    | dsimp only

/-! ### CapMem -/

theorem keeps_modChan {msk : Nat} {s0 s : State} (c : Nat) (f : CmChan → CmChan) (hk : Fr msk s0 s)
    (hm : Sub 1024 msk := by exact Sub.mono (by assumption) rfl) :
    Fr msk s0 (State.modChan s c f) := by
  unfold State.modChan
  repeat' first
    | with_reducible assumption | (exact Sub.mono hm rfl) | intro _
    | (extract_lets +onlyGivenNames x; refine keeps_have (msk := msk) (s0 := s0) (x := x) ?_ ?_; rotate_left; clear_value x; intro hx; rotate_right; subst x)
    | (extract_lets +onlyGivenNames x; clear_value x) | dsimp only | with_reducible apply keeps_cm

theorem keeps_updateSegs {msk : Nat} {s0 s : State}  (hk : Fr msk s0 s)
    (hm : Sub 1 msk := by exact Sub.mono (by assumption) rfl) :
    Fr msk s0 (State.updateSegs s) := by
  unfold State.updateSegs
  repeat' first
    | with_reducible assumption | (exact Sub.mono hm rfl) | intro _
    | (extract_lets +onlyGivenNames x; refine keeps_have (msk := msk) (s0 := s0) (x := x) ?_ ?_; rotate_left; clear_value x; intro hx; rotate_right; subst x)
    | (extract_lets +onlyGivenNames x; clear_value x) | with_reducible apply keeps_each | with_reducible apply keeps_setVal
    | with_reducible apply keeps_foldl | with_reducible apply keeps_foldl_fst | with_reducible apply keeps_ite | split
    | dsimp only

theorem keeps_alloc {msk : Nat} {s0 s : State} (k : AllocKind) (owner : Nat) (n : Nat) (hk : Fr msk s0 s)
    (hm : Sub 1025 msk := by exact Sub.mono (by assumption) rfl) :
    Fr msk s0 (State.alloc s k owner n) := by
  unfold State.alloc
  repeat' first
    | with_reducible assumption | (exact Sub.mono hm rfl) | intro _
    | (extract_lets +onlyGivenNames x; refine keeps_have (msk := msk) (s0 := s0) (x := x) ?_ ?_; rotate_left; clear_value x; intro hx; rotate_right; subst x)
    | (extract_lets +onlyGivenNames x; clear_value x) | with_reducible apply keeps_updateSegs
    | with_reducible apply keeps_ite | split | dsimp only | with_reducible apply keeps_cm

theorem keeps_free {msk : Nat} {s0 s : State} (k : AllocKind) (owner : Nat) (hk : Fr msk s0 s)
    (hm : Sub 1025 msk := by exact Sub.mono (by assumption) rfl) :
    Fr msk s0 (State.free s k owner) := by
  unfold State.free
  repeat' first
    | with_reducible assumption | (exact Sub.mono hm rfl) | intro _
    | (extract_lets +onlyGivenNames x; refine keeps_have (msk := msk) (s0 := s0) (x := x) ?_ ?_; rotate_left; clear_value x; intro hx; rotate_right; subst x)
    | (extract_lets +onlyGivenNames x; clear_value x) | with_reducible apply keeps_updateSegs | dsimp only
    | with_reducible apply keeps_cm

theorem keeps_setTraffic {msk : Nat} {s0 s : State} (k : AllocKind) (owner : Nat) (n : Nat) (hk : Fr msk s0 s)
    (hm : Sub 1024 msk := by exact Sub.mono (by assumption) rfl) :
    Fr msk s0 (State.setTraffic s k owner n) := by
  unfold State.setTraffic
  repeat' first
    | with_reducible assumption | (exact Sub.mono hm rfl) | intro _
    | (extract_lets +onlyGivenNames x; refine keeps_have (msk := msk) (s0 := s0) (x := x) ?_ ?_; rotate_left; clear_value x; intro hx; rotate_right; subst x)
    | (extract_lets +onlyGivenNames x; clear_value x) | dsimp only | with_reducible apply keeps_cm

theorem keeps_memClean {msk : Nat} {s0 s : State} (a : Nat) (n : Nat) (hk : Fr msk s0 s)
    (hm : Sub 1024 msk := by exact Sub.mono (by assumption) rfl) :
    Fr msk s0 (State.memClean s a n) := by
  unfold State.memClean
  repeat' first
    | with_reducible assumption | (exact Sub.mono hm rfl) | intro _
    | (extract_lets +onlyGivenNames x; refine keeps_have (msk := msk) (s0 := s0) (x := x) ?_ ?_; rotate_left; clear_value x; intro hx; rotate_right; subst x)
    | (extract_lets +onlyGivenNames x; clear_value x) | with_reducible apply keeps_ite | dsimp only
    | with_reducible apply keeps_cm

theorem memPutAll_wf (m : List Host.Cell) (a : Nat) (bs : List Byte) (h : Memory.wf m = true) :
    Memory.wf (memPutAll m a bs) = true := by
  induction bs generalizing m a with
  | nil => exact h
  | cons b t ih => exact ih _ _ (Memory.wf_kvSetD m a b h)

theorem keeps_memStore {msk : Nat} {s0 s : State} (a : Nat) (bs : List Byte) (hk : Fr msk s0 s)
    (hm : Sub 1536 msk := by exact Sub.mono (by assumption) rfl) : Fr msk s0 (State.memStore s a bs) := by
  unfold State.memStore
  refine keeps_memClean _ _ ?_
  exact hk.step ⟨rfl, rfl, List.prefix_rfl, Nat.le_refl _, id, fun h => memPutAll_wf _ _ _ h⟩ .cmem
      (by exact Sub.mono (by assumption) rfl) (fun p hp => by cases p <;> first | rfl | exact absurd rfl hp)

theorem keeps_channelLost {msk : Nat} {s0 s : State} (c : Nat) (hk : Fr msk s0 s)
    (hm : Sub 268436647 msk := by exact Sub.mono (by assumption) rfl) :
    Fr msk s0 (State.channelLost s c) := by
  unfold State.channelLost
  repeat' first
    | with_reducible assumption | (exact Sub.mono hm rfl) | intro _
    | (extract_lets +onlyGivenNames x; refine keeps_have (msk := msk) (s0 := s0) (x := x) ?_ ?_; rotate_left; clear_value x; intro hx; rotate_right; subst x)
    | (extract_lets +onlyGivenNames x; clear_value x) | with_reducible apply keeps_each | with_reducible apply keeps_emit
    | with_reducible apply keeps_endStreams | with_reducible apply keeps_modChan | with_reducible apply keeps_notMasked
    | with_reducible apply keeps_put | with_reducible apply keeps_raiseAlarm | with_reducible apply keeps_ite
    | (with_reducible apply keeps_id) | dsimp only

theorem keeps_latchErr {msk : Nat} {s0 s : State} (c : Nat) (o : Nat) (bit : Nat) (hk : Fr msk s0 s)
    (hm : Sub 1 msk := by exact Sub.mono (by assumption) rfl) :
    Fr msk s0 (State.latchErr s c o bit) := by
  unfold State.latchErr
  repeat' first
    | with_reducible assumption | (exact Sub.mono hm rfl) | intro _ | with_reducible apply keeps_put
    | with_reducible apply keeps_setVal | dsimp only

theorem keeps_foundUe {msk : Nat} {s0 s : State} (c : Nat) (o : Nat) (hk : Fr msk s0 s)
    (hm : Sub 268436647 msk := by exact Sub.mono (by assumption) rfl) :
    Fr msk s0 (State.foundUe s c o) := by
  unfold State.foundUe
  repeat' first
    | with_reducible assumption | (exact Sub.mono hm rfl) | intro _
    | (extract_lets +onlyGivenNames x; refine keeps_have (msk := msk) (s0 := s0) (x := x) ?_ ?_; rotate_left; clear_value x; intro hx; rotate_right; subst x)
    | (extract_lets +onlyGivenNames x; clear_value x) | with_reducible apply keeps_channelLost
    | with_reducible apply keeps_count | with_reducible apply keeps_latchErr | with_reducible apply keeps_modChan
    | with_reducible apply keeps_raiseAlarm | with_reducible apply keeps_ite | dsimp only

theorem keeps_sectorError {msk : Nat} {s0 s : State} (k : Nat) (err : EccErr) (hk : Fr msk s0 s)
    (hm : Sub 268436647 msk := by exact Sub.mono (by assumption) rfl) :
    Fr msk s0 (State.sectorError s k err) := by
  unfold State.sectorError
  repeat' first
    | with_reducible assumption | (exact Sub.mono hm rfl) | intro _
    | (extract_lets +onlyGivenNames x; refine keeps_have (msk := msk) (s0 := s0) (x := x) ?_ ?_; rotate_left; clear_value x; intro hx; rotate_right; subst x)
    | (extract_lets +onlyGivenNames x; clear_value x) | with_reducible apply keeps_count | with_reducible apply keeps_foundUe
    | with_reducible apply keeps_latchErr | with_reducible apply keeps_ite | split | dsimp only
    | with_reducible apply keeps_cm

theorem keeps_sectorRead {msk : Nat} {s0 s : State} (k : Nat) (errs : List (Nat × EccErr)) (hk : Fr msk s0 s)
    (hm : Sub 268436647 msk := by exact Sub.mono (by assumption) rfl) :
    Fr msk s0 (State.sectorRead s k errs) := by
  unfold State.sectorRead
  repeat' first
    | with_reducible assumption | (exact Sub.mono hm rfl) | intro _
    | (extract_lets +onlyGivenNames x; refine keeps_have (msk := msk) (s0 := s0) (x := x) ?_ ?_; rotate_left; clear_value x; intro hx; rotate_right; subst x)
    | (extract_lets +onlyGivenNames x; refine keeps_have_fst (msk := msk) (s0 := s0) (x := x) ?_ ?_; rotate_left; clear_value x; intro hx; rotate_right; subst x)
    | (extract_lets +onlyGivenNames x; clear_value x) | with_reducible apply keeps_foundUe
    | with_reducible apply keeps_sectorError | with_reducible apply keeps_ite | with_reducible apply keeps_ite_fst
    | (simp only [stOf_mk]) | split | with_reducible apply keeps_fst | dsimp only

theorem keeps_modDrift {msk : Nat} {s0 s : State} (r : Nat) (f : DriftSt → DriftSt) (hk : Fr msk s0 s)
    (hm : Sub 262144 msk := by exact Sub.mono (by assumption) rfl) :
    Fr msk s0 (State.modDrift s r f) := by
  unfold State.modDrift
  repeat' first
    | with_reducible assumption | (exact Sub.mono hm rfl) | intro _
    | (extract_lets +onlyGivenNames x; refine keeps_have (msk := msk) (s0 := s0) (x := x) ?_ ?_; rotate_left; clear_value x; intro hx; rotate_right; subst x)
    | (extract_lets +onlyGivenNames x; clear_value x) | dsimp only | with_reducible apply keeps_tg

theorem keeps_reportLost {msk : Nat} {s0 s : State} (x : Alloc) (hk : Fr msk s0 s)
    (hm : Sub 270336 msk := by exact Sub.mono (by assumption) rfl) :
    Fr msk s0 (State.reportLost s x) := by
  unfold State.reportLost
  repeat' first
    | with_reducible assumption | (exact Sub.mono hm rfl) | intro _
    | (extract_lets +onlyGivenNames x; refine keeps_have (msk := msk) (s0 := s0) (x := x) ?_ ?_; rotate_left; clear_value x; intro hx; rotate_right; subst x)
    | (extract_lets +onlyGivenNames x; clear_value x) | with_reducible apply keeps_modDrift | split | dsimp only
    | with_reducible apply keeps_qu

theorem keeps_memDrop {msk : Nat} {s0 s : State} (f : Host.Cell → Bool) (c : CmSt) (hk : Fr msk s0 s)
    (hm : Sub 271873 msk := by exact Sub.mono (by assumption) rfl) :
    Fr msk s0 ({ s with cmem := s.cmem.filter f, cm := c } : State) :=
  hk.step2 ⟨rfl, rfl, List.prefix_rfl, Nat.le_refl _, id, fun h => Memory.wf_filter _ f h⟩ .cmem .cm
      (by exact Sub.mono (by assumption) rfl) (by exact Sub.mono (by assumption) rfl)
      (fun p hp hq => by cases p <;> first | rfl | exact absurd rfl hp | exact absurd rfl hq)

theorem keeps_srExit {msk : Nat} {s0 s : State} (c : Nat) (hk : Fr msk s0 s)
    (hm : Sub 271873 msk := by exact Sub.mono (by assumption) rfl) : Fr msk s0 (State.srExit s c) := by
  unfold State.srExit
  refine keeps_each _ _ (fun t a ht => keeps_reportLost _ ht) (keeps_modChan _ _ (keeps_memDrop _ _ ?_))
  exact keeps_count _ _ (keeps_put _ _ hk)

theorem keeps_cmWake {msk : Nat} {s0 s : State} (a : Nat) (n : Nat) (hk : Fr msk s0 s)
    (hm : Sub 271873 msk := by exact Sub.mono (by assumption) rfl) :
    Fr msk s0 (State.cmWake s a n) := by
  unfold State.cmWake
  repeat' first
    | with_reducible assumption | (exact Sub.mono hm rfl) | intro _ | with_reducible apply keeps_each
    | with_reducible apply keeps_srExit | with_reducible apply keeps_ite | dsimp only

theorem keeps_memWrite {msk : Nat} {s0 s : State} (a : Nat) (bs : List Byte) (errs : List (Nat × EccErr)) (hk : Fr msk s0 s)
    (hm : Sub 268707495 msk := by exact Sub.mono (by assumption) rfl) :
    Fr msk s0 (State.memWrite s a bs errs) := by
  unfold State.memWrite
  repeat' first
    | with_reducible assumption | (exact Sub.mono hm rfl) | intro _
    | (extract_lets +onlyGivenNames x; refine keeps_have (msk := msk) (s0 := s0) (x := x) ?_ ?_; rotate_left; clear_value x; intro hx; rotate_right; subst x)
    | (extract_lets +onlyGivenNames x; clear_value x) | with_reducible apply keeps_cmWake | with_reducible apply keeps_each
    | with_reducible apply keeps_memStore | with_reducible apply keeps_sectorRead | with_reducible apply keeps_ite
    | dsimp only

theorem keeps_memFetch {msk : Nat} {s0 s : State} (a : Nat) (n : Nat) (errs : List (Nat × EccErr)) (hk : Fr msk s0 s)
    (hm : Sub 805578407 msk := by exact Sub.mono (by assumption) rfl) :
    Fr msk s0 (stOf (State.memFetch s a n errs)) := by
  unfold State.memFetch
  repeat' first
    | with_reducible assumption | (exact Sub.mono hm rfl) | intro _
    | (extract_lets +onlyGivenNames x; refine keeps_have (msk := msk) (s0 := s0) (x := x) ?_ ?_; rotate_left; clear_value x; intro hx; rotate_right; subst x)
    | (extract_lets +onlyGivenNames x; refine keeps_have_fst (msk := msk) (s0 := s0) (x := x) ?_ ?_; rotate_left; clear_value x; intro hx; rotate_right; subst x)
    | (extract_lets +onlyGivenNames x; clear_value x) | with_reducible apply keeps_cmWake | with_reducible apply keeps_each
    | with_reducible apply keeps_sectorRead | with_reducible apply keeps_useFrees | with_reducible apply keeps_ite
    | with_reducible apply keeps_ite_fst | (simp only [stOf_mk]) | with_reducible apply keeps_fst | dsimp only

theorem keeps_cmAccept {msk : Nat} {s0 s : State} (c : Nat) (q : CmReq) (hk : Fr msk s0 s)
    (hm : Sub 805578407 msk := by exact Sub.mono (by assumption) rfl) :
    Fr msk s0 (State.cmAccept s c q) := by
  unfold State.cmAccept
  repeat' first
    | with_reducible assumption | (exact Sub.mono hm rfl) | intro _
    | (extract_lets +onlyGivenNames x; refine keeps_have (msk := msk) (s0 := s0) (x := x) ?_ ?_; rotate_left; clear_value x; intro hx; rotate_right; subst x)
    | (extract_lets +onlyGivenNames x; refine keeps_have_fst (msk := msk) (s0 := s0) (x := x) ?_ ?_; rotate_left; clear_value x; intro hx; rotate_right; subst x)
    | (extract_lets +onlyGivenNames x; clear_value x) | with_reducible apply keeps_count | with_reducible apply keeps_emit
    | with_reducible apply keeps_memFetch | with_reducible apply keeps_memWrite | with_reducible apply keeps_modChan
    | with_reducible apply keeps_ite | with_reducible apply keeps_ite_fst | (simp only [stOf_mk]) | split
    | with_reducible apply keeps_fst | dsimp only

theorem keeps_showChan {msk : Nat} {s0 s : State} (c : Nat) (hk : Fr msk s0 s)
    (hm : Sub 1 msk := by exact Sub.mono (by assumption) rfl) :
    Fr msk s0 (State.showChan s c) := by
  unfold State.showChan
  repeat' first
    | with_reducible assumption | (exact Sub.mono hm rfl) | intro _
    | (extract_lets +onlyGivenNames x; refine keeps_have (msk := msk) (s0 := s0) (x := x) ?_ ?_; rotate_left; clear_value x; intro hx; rotate_right; subst x)
    | (extract_lets +onlyGivenNames x; refine keeps_have_fst (msk := msk) (s0 := s0) (x := x) ?_ ?_; rotate_left; clear_value x; intro hx; rotate_right; subst x)
    | (extract_lets +onlyGivenNames x; clear_value x) | with_reducible apply keeps_put | with_reducible apply keeps_foldl
    | with_reducible apply keeps_foldl_fst | with_reducible apply keeps_ite | with_reducible apply keeps_ite_fst
    | (simp only [stOf_mk]) | with_reducible apply keeps_fst | dsimp only

theorem keeps_cmAdmit {msk : Nat} {s0 s : State} (c : Nat) (x0 : Nat) (hk : Fr msk s0 s)
    (hm : Sub 805578407 msk := by exact Sub.mono (by assumption) rfl) : Fr msk s0 (State.cmAdmit s c x0) := by
  induction x0 generalizing s with
  | zero =>
    unfold State.cmAdmit
    repeat' first
      | with_reducible assumption | (exact Sub.mono hm rfl) | intro _
      | (extract_lets +onlyGivenNames x; refine keeps_have (msk := msk) (s0 := s0) (x := x) ?_ ?_; rotate_left; clear_value x; intro hx; rotate_right; subst x)
      | (extract_lets +onlyGivenNames x; clear_value x) | with_reducible apply keeps_cmAccept
      | with_reducible apply keeps_modChan | split | dsimp only
  | succ n ih =>
    unfold State.cmAdmit
    repeat' first
      | with_reducible assumption | (exact Sub.mono hm rfl) | intro _
      | (extract_lets +onlyGivenNames x; refine keeps_have (msk := msk) (s0 := s0) (x := x) ?_ ?_; rotate_left; clear_value x; intro hx; rotate_right; subst x)
      | (extract_lets +onlyGivenNames x; clear_value x) | with_reducible apply ih | with_reducible apply keeps_cmAccept
      | with_reducible apply keeps_modChan | split | dsimp only

theorem keeps_cmRequest {msk : Nat} {s0 s : State} (r : CmArrival) (hk : Fr msk s0 s)
    (hm : Sub 805578407 msk := by exact Sub.mono (by assumption) rfl) :
    Fr msk s0 (State.cmRequest s r) := by
  unfold State.cmRequest
  repeat' first
    | with_reducible assumption | (exact Sub.mono hm rfl) | intro _
    | (extract_lets +onlyGivenNames x; refine keeps_have (msk := msk) (s0 := s0) (x := x) ?_ ?_; rotate_left; clear_value x; intro hx; rotate_right; subst x)
    | (extract_lets +onlyGivenNames x; refine keeps_have_fst (msk := msk) (s0 := s0) (x := x) ?_ ?_; rotate_left; clear_value x; intro hx; rotate_right; subst x)
    | (extract_lets +onlyGivenNames x; clear_value x) | with_reducible apply keeps_cmAccept
    | with_reducible apply keeps_modChan | with_reducible apply keeps_showChan | with_reducible apply keeps_srExit
    | with_reducible apply keeps_ite | with_reducible apply keeps_ite_fst | (simp only [stOf_mk]) | split
    | with_reducible apply keeps_fst | dsimp only | with_reducible apply keeps_cm

theorem keeps_execCmRequest {r : CmArrival} {s s' : State}
    (e : execCmRequest r s = .next s') : Fr 805578407 s s' := by
  unfold execCmRequest at e
  refine keeps_next e ?_
  clear e
  have hk := Fr.refl 805578407 s
  have hm : Sub 805578407 805578407 := Sub.refl _
  repeat' first
    | with_reducible assumption | (exact Sub.mono hm rfl) | intro _ | with_reducible apply keeps_cmRequest | dsimp only

theorem keeps_issueOne {msk : Nat} {s0 s : State} (c : Nat) (hk : Fr msk s0 s)
    (hm : Sub 805578407 msk := by exact Sub.mono (by assumption) rfl) :
    Fr msk s0 (State.issueOne s c) := by
  unfold State.issueOne
  repeat' first
    | with_reducible assumption | (exact Sub.mono hm rfl) | intro _
    | (extract_lets +onlyGivenNames x; refine keeps_have (msk := msk) (s0 := s0) (x := x) ?_ ?_; rotate_left; clear_value x; intro hx; rotate_right; subst x)
    | (extract_lets +onlyGivenNames x; clear_value x) | with_reducible apply keeps_cmAdmit | with_reducible apply keeps_emit
    | with_reducible apply keeps_modChan | with_reducible apply keeps_ite | split | dsimp only

theorem keeps_payOwed {msk : Nat} {s0 s : State} (c : Nat) (hk : Fr msk s0 s)
    (hm : Sub 1024 msk := by exact Sub.mono (by assumption) rfl) :
    Fr msk s0 (State.payOwed s c) := by
  unfold State.payOwed
  repeat' first
    | with_reducible assumption | (exact Sub.mono hm rfl) | intro _
    | (extract_lets +onlyGivenNames x; refine keeps_have (msk := msk) (s0 := s0) (x := x) ?_ ?_; rotate_left; clear_value x; intro hx; rotate_right; subst x)
    | (extract_lets +onlyGivenNames x; clear_value x) | with_reducible apply keeps_each | with_reducible apply keeps_modChan
    | with_reducible apply keeps_ite | dsimp only

theorem keeps_cmTick {msk : Nat} {s0 s : State}  (hk : Fr msk s0 s)
    (hm : Sub 805578407 msk := by exact Sub.mono (by assumption) rfl) :
    Fr msk s0 (State.cmTick s) := by
  unfold State.cmTick
  repeat' first
    | with_reducible assumption | (exact Sub.mono hm rfl) | intro _ | with_reducible apply keeps_cmAdmit
    | with_reducible apply keeps_each | with_reducible apply keeps_inIsland | with_reducible apply keeps_issueOne
    | with_reducible apply keeps_payOwed | with_reducible apply keeps_showChan | (simp only [stOf_mk]) | split
    | with_reducible apply keeps_fst | dsimp only

theorem keeps_refreshDue {msk : Nat} {s0 s : State} (c : Nat) (rank : Nat) (hk : Fr msk s0 s)
    (hm : Sub 1025 msk := by exact Sub.mono (by assumption) rfl) :
    Fr msk s0 (State.refreshDue s c rank) := by
  unfold State.refreshDue
  repeat' first
    | with_reducible assumption | (exact Sub.mono hm rfl) | intro _
    | (extract_lets +onlyGivenNames x; refine keeps_have (msk := msk) (s0 := s0) (x := x) ?_ ?_; rotate_left; clear_value x; intro hx; rotate_right; subst x)
    | (extract_lets +onlyGivenNames x; clear_value x) | with_reducible apply keeps_modChan
    | with_reducible apply keeps_showChan | with_reducible apply keeps_ite | split | dsimp only

theorem keeps_execCmRefreshDue {c : Fin 16} {rank : Fin 2} {s s' : State}
    (e : execCmRefreshDue c rank s = .next s') : Fr 1025 s s' := by
  unfold execCmRefreshDue at e
  refine keeps_next e ?_
  clear e
  have hk := Fr.refl 1025 s
  have hm : Sub 1025 1025 := Sub.refl _
  repeat' first
    | with_reducible assumption | (exact Sub.mono hm rfl) | intro _ | with_reducible apply keeps_inIsland
    | with_reducible apply keeps_refreshDue | dsimp only

theorem keeps_mr4Poll {msk : Nat} {s0 s : State} (c : Nat) (rank : Nat) (mult : Option (Fin 3)) (hk : Fr msk s0 s)
    (hm : Sub 268436647 msk := by exact Sub.mono (by assumption) rfl) :
    Fr msk s0 (State.mr4Poll s c rank mult) := by
  unfold State.mr4Poll
  repeat' first
    | with_reducible assumption | (exact Sub.mono hm rfl) | intro _
    | (extract_lets +onlyGivenNames x; refine keeps_have (msk := msk) (s0 := s0) (x := x) ?_ ?_; rotate_left; clear_value x; intro hx; rotate_right; subst x)
    | (extract_lets +onlyGivenNames x; refine keeps_have_fst (msk := msk) (s0 := s0) (x := x) ?_ ?_; rotate_left; clear_value x; intro hx; rotate_right; subst x)
    | (extract_lets +onlyGivenNames x; clear_value x) | with_reducible apply keeps_beginLevel
    | with_reducible apply keeps_channelLost | with_reducible apply keeps_count | with_reducible apply keeps_endLevel
    | with_reducible apply keeps_modChan | with_reducible apply keeps_put | with_reducible apply keeps_showChan
    | with_reducible apply keeps_ite | with_reducible apply keeps_ite_fst | (simp only [stOf_mk]) | split
    | with_reducible apply keeps_fst | dsimp only

theorem keeps_execCmMr4Poll {c : Fin 16} {rank : Fin 2} {mult : Option (Fin 3)} {s s' : State}
    (e : execCmMr4Poll c rank mult s = .next s') : Fr 268436647 s s' := by
  unfold execCmMr4Poll at e
  refine keeps_next e ?_
  clear e
  have hk := Fr.refl 268436647 s
  have hm : Sub 268436647 268436647 := Sub.refl _
  repeat' first
    | with_reducible assumption | (exact Sub.mono hm rfl) | intro _ | with_reducible apply keeps_inIsland
    | with_reducible apply keeps_mr4Poll | dsimp only

theorem keeps_rowIdleClose {msk : Nat} {s0 s : State} (c : Nat) (bank : Nat) (hk : Fr msk s0 s)
    (hm : Sub 1024 msk := by exact Sub.mono (by assumption) rfl) :
    Fr msk s0 (State.rowIdleClose s c bank) := by
  unfold State.rowIdleClose
  repeat' first
    | with_reducible assumption | (exact Sub.mono hm rfl) | intro _
    | (extract_lets +onlyGivenNames x; refine keeps_have (msk := msk) (s0 := s0) (x := x) ?_ ?_; rotate_left; clear_value x; intro hx; rotate_right; subst x)
    | (extract_lets +onlyGivenNames x; clear_value x) | with_reducible apply keeps_modChan | with_reducible apply keeps_ite
    | split | dsimp only

theorem keeps_execCmRowIdleClose {c : Fin 16} {bank : Nat} {s s' : State}
    (e : execCmRowIdleClose c bank s = .next s') : Fr 1024 s s' := by
  unfold execCmRowIdleClose at e
  refine keeps_next e ?_
  clear e
  have hk := Fr.refl 1024 s
  have hm : Sub 1024 1024 := Sub.refl _
  repeat' first
    | with_reducible assumption | (exact Sub.mono hm rfl) | intro _ | with_reducible apply keeps_inIsland
    | with_reducible apply keeps_rowIdleClose | dsimp only

theorem keeps_srEntry {msk : Nat} {s0 s : State} (c : Nat) (hk : Fr msk s0 s)
    (hm : Sub 1025 msk := by exact Sub.mono (by assumption) rfl) :
    Fr msk s0 (State.srEntry s c) := by
  unfold State.srEntry
  repeat' first
    | with_reducible assumption | (exact Sub.mono hm rfl) | intro _
    | (extract_lets +onlyGivenNames x; refine keeps_have (msk := msk) (s0 := s0) (x := x) ?_ ?_; rotate_left; clear_value x; intro hx; rotate_right; subst x)
    | (extract_lets +onlyGivenNames x; refine keeps_have_fst (msk := msk) (s0 := s0) (x := x) ?_ ?_; rotate_left; clear_value x; intro hx; rotate_right; subst x)
    | (extract_lets +onlyGivenNames x; clear_value x) | with_reducible apply keeps_modChan | with_reducible apply keeps_put
    | with_reducible apply keeps_ite | with_reducible apply keeps_ite_fst | (simp only [stOf_mk])
    | with_reducible apply keeps_fst | dsimp only

theorem keeps_execCmSrEntry {c : Fin 16} {s s' : State}
    (e : execCmSrEntry c s = .next s') : Fr 1025 s s' := by
  unfold execCmSrEntry at e
  refine keeps_next e ?_
  clear e
  have hk := Fr.refl 1025 s
  have hm : Sub 1025 1025 := Sub.refl _
  repeat' first
    | with_reducible assumption | (exact Sub.mono hm rfl) | intro _ | with_reducible apply keeps_inIsland
    | with_reducible apply keeps_srEntry | dsimp only

theorem keeps_patrolRead {msk : Nat} {s0 s : State} (err : Option EccErr) (hk : Fr msk s0 s)
    (hm : Sub 268436647 msk := by exact Sub.mono (by assumption) rfl) :
    Fr msk s0 (State.patrolRead s err) := by
  unfold State.patrolRead
  repeat' first
    | with_reducible assumption | (exact Sub.mono hm rfl) | intro _
    | (extract_lets +onlyGivenNames x; refine keeps_have (msk := msk) (s0 := s0) (x := x) ?_ ?_; rotate_left; clear_value x; intro hx; rotate_right; subst x)
    | (extract_lets +onlyGivenNames x; clear_value x) | with_reducible apply keeps_sectorRead
    | with_reducible apply keeps_ite | split | dsimp only | with_reducible apply keeps_cm

theorem keeps_execCmPatrolRead {err : Option EccErr} {s s' : State}
    (e : execCmPatrolRead err s = .next s') : Fr 268436647 s s' := by
  unfold execCmPatrolRead at e
  refine keeps_next e ?_
  clear e
  have hk := Fr.refl 268436647 s
  have hm : Sub 268436647 268436647 := Sub.refl _
  repeat' first
    | with_reducible assumption | (exact Sub.mono hm rfl) | intro _ | with_reducible apply keeps_inIsland
    | with_reducible apply keeps_patrolRead | dsimp only

theorem keeps_execCmWckOscCheck {c : Fin 16} {_rank : Fin 2} {drift : Nat} {stallNs : Nat} {s s' : State}
    (e : execCmWckOscCheck c _rank drift stallNs s = .next s') : Fr 1 s s' := by
  unfold execCmWckOscCheck at e
  refine keeps_next e ?_
  clear e
  have hk := Fr.refl 1 s
  have hm : Sub 1 1 := Sub.refl _
  repeat' first
    | with_reducible assumption | (exact Sub.mono hm rfl) | intro _ | with_reducible apply keeps_count
    | with_reducible apply keeps_inIsland | with_reducible apply keeps_ite | dsimp only

theorem keeps_execCmInitDone  {s s' : State}
    (e : execCmInitDone  s = .next s') : Fr 1024 s s' := by
  unfold execCmInitDone at e
  refine keeps_next e ?_
  clear e
  have hk := Fr.refl 1024 s
  have hm : Sub 1024 1024 := Sub.refl _
  repeat' first
    | with_reducible assumption | (exact Sub.mono hm rfl) | intro _
    | (extract_lets +onlyGivenNames x; refine keeps_have (msk := 1024) (s0 := s) (x := x) ?_ ?_; rotate_left; clear_value x; intro hx; rotate_right; subst x)
    | (extract_lets +onlyGivenNames x; refine keeps_have_fst (msk := 1024) (s0 := s) (x := x) ?_ ?_; rotate_left; clear_value x; intro hx; rotate_right; subst x)
    | (extract_lets +onlyGivenNames x; clear_value x) | with_reducible apply keeps_ite | with_reducible apply keeps_ite_fst
    | (simp only [stOf_mk]) | with_reducible apply keeps_fst | dsimp only | with_reducible apply keeps_cm

theorem keeps_cmCfgSetup {msk : Nat} {s0 s : State} (v : Nat) (hk : Fr msk s0 s)
    (hm : Sub 1 msk := by exact Sub.mono (by assumption) rfl) :
    Fr msk s0 (stOf (State.cmCfgSetup s v)) := by
  unfold State.cmCfgSetup
  repeat' first
    | with_reducible assumption | (exact Sub.mono hm rfl) | intro _ | with_reducible apply keeps_answer
    | with_reducible apply keeps_plainWrite | with_reducible apply keeps_put | with_reducible apply keeps_ite
    | with_reducible apply keeps_ite_fst | (simp only [stOf_mk]) | with_reducible apply keeps_fst | dsimp only

theorem keeps_cmCfgWrite {msk : Nat} {s0 s : State} (_v : Nat) (hk : Fr msk s0 s)
    (hm : Sub 1 msk := by exact Sub.mono (by assumption) rfl) :
    Fr msk s0 (stOf (State.cmCfgWrite s _v)) := by
  unfold State.cmCfgWrite
  repeat' first
    | with_reducible assumption | (exact Sub.mono hm rfl) | intro _ | with_reducible apply keeps_answer
    | with_reducible apply keeps_ite | with_reducible apply keeps_ite_fst | (simp only [stOf_mk])
    | with_reducible apply keeps_fst | dsimp only

theorem keeps_cmSetWrite {msk : Nat} {s0 s : State} (name : RegName) (a : Nat) (v : Nat) (hk : Fr msk s0 s)
    (hm : Sub 1 msk := by exact Sub.mono (by assumption) rfl) :
    Fr msk s0 (stOf (State.cmSetWrite s name a v)) := by
  unfold State.cmSetWrite
  repeat' first
    | with_reducible assumption | (exact Sub.mono hm rfl) | intro _
    | (extract_lets +onlyGivenNames x; refine keeps_have (msk := msk) (s0 := s0) (x := x) ?_ ?_; rotate_left; clear_value x; intro hx; rotate_right; subst x)
    | (extract_lets +onlyGivenNames x; refine keeps_have_fst (msk := msk) (s0 := s0) (x := x) ?_ ?_; rotate_left; clear_value x; intro hx; rotate_right; subst x)
    | (extract_lets +onlyGivenNames x; clear_value x) | with_reducible apply keeps_answer
    | with_reducible apply keeps_plainWrite | with_reducible apply keeps_put | with_reducible apply keeps_ite
    | with_reducible apply keeps_ite_fst | (simp only [stOf_mk]) | split | with_reducible apply keeps_fst | dsimp only

theorem keeps_dramTrained {msk : Nat} {s0 s : State} (found : List (Option DramFound)) (hk : Fr msk s0 s)
    (hm : Sub 1025 msk := by exact Sub.mono (by assumption) rfl) :
    Fr msk s0 (State.dramTrained s found) := by
  unfold State.dramTrained
  repeat' first
    | with_reducible assumption | (exact Sub.mono hm rfl) | intro _
    | (extract_lets +onlyGivenNames x; refine keeps_have (msk := msk) (s0 := s0) (x := x) ?_ ?_; rotate_left; clear_value x; intro hx; rotate_right; subst x)
    | (extract_lets +onlyGivenNames x; clear_value x) | with_reducible apply keeps_put | with_reducible apply keeps_setVal
    | with_reducible apply keeps_updateSegs | with_reducible apply keeps_ite | split | (with_reducible apply keeps_id)
    | dsimp only | with_reducible apply keeps_cm

theorem keeps_loadStart {msk : Nat} {s0 s : State}  (hk : Fr msk s0 s)
    (hm : Sub 1 msk := by exact Sub.mono (by assumption) rfl) :
    Fr msk s0 (State.loadStart s) := by
  unfold State.loadStart
  repeat' first
    | with_reducible assumption | (exact Sub.mono hm rfl) | intro _ | with_reducible apply keeps_each
    | with_reducible apply keeps_put | with_reducible apply keeps_ite | dsimp only

theorem keeps_execDramTrainingDone {found : List (Option DramFound)} {s s' : State}
    (e : execDramTrainingDone found s = .next s') : Fr 1025 s s' := by
  unfold execDramTrainingDone at e
  refine keeps_next e ?_
  clear e
  have hk := Fr.refl 1025 s
  have hm : Sub 1025 1025 := Sub.refl _
  repeat' first
    | with_reducible assumption | (exact Sub.mono hm rfl) | intro _ | with_reducible apply keeps_dramTrained
    | with_reducible apply keeps_loadStart | with_reducible apply keeps_ite | dsimp only

/-! ### Sampling -/

theorem keeps_giveUnit {msk : Nat} {s0 s : State} (r : Nat) (u : Nat) (l : List TgTok) (hk : Fr msk s0 s)
    (hm : Sub 262144 msk := by exact Sub.mono (by assumption) rfl) :
    Fr msk s0 (State.giveUnit s r u l) := by
  unfold State.giveUnit
  repeat' first
    | with_reducible assumption | (exact Sub.mono hm rfl) | intro _
    | (extract_lets +onlyGivenNames x; refine keeps_have (msk := msk) (s0 := s0) (x := x) ?_ ?_; rotate_left; clear_value x; intro hx; rotate_right; subst x)
    | (extract_lets +onlyGivenNames x; clear_value x) | dsimp only | with_reducible apply keeps_tg

theorem keeps_feed {msk : Nat} {s0 s : State} (n : Nat) (l : List InTok) (hk : Fr msk s0 s)
    (hm : Sub 344064 msk := by exact Sub.mono (by assumption) rfl) :
    Fr msk s0 (State.feed s n l) := by
  unfold State.feed
  repeat' first
    | with_reducible assumption | (exact Sub.mono hm rfl) | intro _
    | (extract_lets +onlyGivenNames x; refine keeps_have (msk := msk) (s0 := s0) (x := x) ?_ ?_; rotate_left; clear_value x; intro hx; rotate_right; subst x)
    | (extract_lets +onlyGivenNames x; clear_value x) | with_reducible apply keeps_each | with_reducible apply keeps_giveUnit
    | with_reducible apply keeps_foldl | with_reducible apply keeps_foldl_fst | with_reducible apply keeps_ite | dsimp only
    | with_reducible apply keeps_zp_bt

theorem keeps_toDetection {msk : Nat} {s0 s : State} (r : Nat) (src : Nat) (d : DetTok) (hk : Fr msk s0 s)
    (hm : Sub 131072 msk := by exact Sub.mono (by assumption) rfl) :
    Fr msk s0 (State.toDetection s r src d) := by
  unfold State.toDetection
  repeat' first
    | with_reducible assumption | (exact Sub.mono hm rfl) | intro _
    | (extract_lets +onlyGivenNames x; refine keeps_have (msk := msk) (s0 := s0) (x := x) ?_ ?_; rotate_left; clear_value x; intro hx; rotate_right; subst x)
    | (extract_lets +onlyGivenNames x; clear_value x) | dsimp only | with_reducible apply keeps_dc

theorem keeps_toCb {msk : Nat} {s0 s : State} (x : Nat) (t : CeTok) (hk : Fr msk s0 s)
    (hm : Sub 2097152 msk := by exact Sub.mono (by assumption) rfl) :
    Fr msk s0 (State.toCb s x t) := by
  unfold State.toCb
  repeat' first
    | with_reducible assumption | (exact Sub.mono hm rfl) | intro _
    | (extract_lets +onlyGivenNames x; refine keeps_have (msk := msk) (s0 := s0) (x := x) ?_ ?_; rotate_left; clear_value x; intro hx; rotate_right; subst x)
    | (extract_lets +onlyGivenNames x; clear_value x) | dsimp only | with_reducible apply keeps_ce

theorem keeps_tiePort {msk : Nat} {s0 s : State} (region : Nat) (id : BitVec 16) (rate : Ratio) (hk : Fr msk s0 s)
    (hm : Sub 4 msk := by exact Sub.mono (by assumption) rfl) :
    Fr msk s0 (State.tiePort s region id rate) := by
  unfold State.tiePort
  repeat' first
    | with_reducible assumption | (exact Sub.mono hm rfl) | intro _
    | (extract_lets +onlyGivenNames x; refine keeps_have (msk := msk) (s0 := s0) (x := x) ?_ ?_; rotate_left; clear_value x; intro hx; rotate_right; subst x)
    | (extract_lets +onlyGivenNames x; clear_value x) | (with_reducible apply keeps_id) | dsimp only
    | with_reducible apply keeps_flow

theorem keeps_retiePort {msk : Nat} {s0 s : State} (region : Nat) (id : BitVec 16) (rate : Ratio) (hk : Fr msk s0 s)
    (hm : Sub 4 msk := by exact Sub.mono (by assumption) rfl) :
    Fr msk s0 (State.retiePort s region id rate) := by
  unfold State.retiePort
  repeat' first
    | with_reducible assumption | (exact Sub.mono hm rfl) | intro _
    | (extract_lets +onlyGivenNames x; refine keeps_have (msk := msk) (s0 := s0) (x := x) ?_ ?_; rotate_left; clear_value x; intro hx; rotate_right; subst x)
    | (extract_lets +onlyGivenNames x; refine keeps_have_fst (msk := msk) (s0 := s0) (x := x) ?_ ?_; rotate_left; clear_value x; intro hx; rotate_right; subst x)
    | (extract_lets +onlyGivenNames x; clear_value x) | (simp only [stOf_mk]) | split | (with_reducible apply keeps_id)
    | with_reducible apply keeps_fst | dsimp only | with_reducible apply keeps_flow

theorem keeps_tieAll {msk : Nat} {s0 s t : State} {l : List (Nat × BitVec 16 × Ratio)} (e : s.tieAll l = some t) (hk : Fr msk s0 s)
    (hm : Sub 4 msk := by exact Sub.mono (by assumption) rfl) :
    Fr msk s0 t := by
  induction l generalizing s with
  | nil => rw [← Option.some.inj e]; exact hk
  | cons a l ih =>
    unfold State.tieAll at e
    split at e
    · refine ih e ?_
      repeat' first
        | with_reducible assumption | (exact Sub.mono hm rfl) | intro _ | with_reducible apply keeps_tiePort
        | with_reducible apply keeps_ite | with_reducible apply keeps_ite_fst | (simp only [stOf_mk]) | split
        | (with_reducible apply keeps_id) | with_reducible apply keeps_fst | dsimp only
    · cases e

theorem keeps_tieAllD {msk : Nat} {s0 s : State} (l : List (Nat × BitVec 16 × Ratio)) (hk : Fr msk s0 s)
    (hm : Sub 4 msk := by exact Sub.mono (by assumption) rfl) :
    Fr msk s0 ((s.tieAll l).getD s) := by
  cases e : s.tieAll l with
  | none => exact hk
  | some t => exact keeps_tieAll e hk

theorem keeps_freePort {msk : Nat} {s0 s : State} (region : Nat) (id : BitVec 16) (hk : Fr msk s0 s)
    (hm : Sub 4 msk := by exact Sub.mono (by assumption) rfl) :
    Fr msk s0 (State.freePort s region id) := by
  unfold State.freePort
  repeat' first
    | with_reducible assumption | (exact Sub.mono hm rfl) | intro _
    | (extract_lets +onlyGivenNames x; refine keeps_have (msk := msk) (s0 := s0) (x := x) ?_ ?_; rotate_left; clear_value x; intro hx; rotate_right; subst x)
    | (extract_lets +onlyGivenNames x; clear_value x) | (with_reducible apply keeps_id) | dsimp only
    | with_reducible apply keeps_flow

/-! ### Record -/

theorem keeps_recordPut {msk : Nat} {s0 s : State} (type : Nat) (region : Nat) (data : List Byte) (hk : Fr msk s0 s)
    (hm : Sub 256 msk := by exact Sub.mono (by assumption) rfl) :
    Fr msk s0 (State.recordPut s type region data) := by
  unfold State.recordPut
  repeat' first
    | with_reducible assumption | (exact Sub.mono hm rfl) | intro _
    | (extract_lets +onlyGivenNames x; refine keeps_have (msk := msk) (s0 := s0) (x := x) ?_ ?_; rotate_left; clear_value x; intro hx; rotate_right; subst x)
    | (extract_lets +onlyGivenNames x; clear_value x) | dsimp only | with_reducible apply keeps_ft

theorem keeps_recordCompact {msk : Nat} {s0 s : State}  (hk : Fr msk s0 s)
    (hm : Sub 256 msk := by exact Sub.mono (by assumption) rfl) :
    Fr msk s0 (State.recordCompact s) := by
  unfold State.recordCompact
  repeat' first
    | with_reducible assumption | (exact Sub.mono hm rfl) | intro _
    | (extract_lets +onlyGivenNames x; refine keeps_have (msk := msk) (s0 := s0) (x := x) ?_ ?_; rotate_left; clear_value x; intro hx; rotate_right; subst x)
    | (extract_lets +onlyGivenNames x; refine keeps_have_fst (msk := msk) (s0 := s0) (x := x) ?_ ?_; rotate_left; clear_value x; intro hx; rotate_right; subst x)
    | (extract_lets +onlyGivenNames x; clear_value x) | with_reducible apply keeps_each
    | with_reducible apply keeps_recordPut | with_reducible apply keeps_ite | with_reducible apply keeps_ite_fst
    | (simp only [stOf_mk]) | with_reducible apply keeps_fst | dsimp only | with_reducible apply keeps_ft

theorem keeps_recordAppend {msk : Nat} {s0 s : State} (type : Nat) (region : Nat) (data : List Byte) (hk : Fr msk s0 s)
    (hm : Sub 256 msk := by exact Sub.mono (by assumption) rfl) :
    Fr msk s0 (State.recordAppend s type region data) := by
  unfold State.recordAppend
  repeat' first
    | with_reducible assumption | (exact Sub.mono hm rfl) | intro _
    | (extract_lets +onlyGivenNames x; refine keeps_have (msk := msk) (s0 := s0) (x := x) ?_ ?_; rotate_left; clear_value x; intro hx; rotate_right; subst x)
    | (extract_lets +onlyGivenNames x; clear_value x) | with_reducible apply keeps_recordCompact
    | with_reducible apply keeps_recordPut | with_reducible apply keeps_ite | dsimp only

theorem keeps_storeSlot {msk : Nat} {s0 s : State} (i : Nat) (x : CalSlot) (hk : Fr msk s0 s)
    (hm : Sub 4353 msk := by exact Sub.mono (by assumption) rfl) :
    Fr msk s0 (State.storeSlot s i x) := by
  unfold State.storeSlot
  repeat' first
    | with_reducible assumption | (exact Sub.mono hm rfl) | intro _
    | (extract_lets +onlyGivenNames x; refine keeps_have (msk := msk) (s0 := s0) (x := x) ?_ ?_; rotate_left; clear_value x; intro hx; rotate_right; subst x)
    | (extract_lets +onlyGivenNames x; clear_value x) | with_reducible apply keeps_each
    | with_reducible apply keeps_recordAppend | with_reducible apply keeps_setVal | dsimp only
    | with_reducible apply keeps_ca

theorem keeps_restoreRepairs {msk : Nat} {s0 s : State}  (hk : Fr msk s0 s)
    (hm : Sub 256 msk := by exact Sub.mono (by assumption) rfl) :
    Fr msk s0 (State.restoreRepairs s) := by
  unfold State.restoreRepairs
  repeat' first
    | with_reducible assumption | (exact Sub.mono hm rfl) | intro _
    | (extract_lets +onlyGivenNames x; refine keeps_have (msk := msk) (s0 := s0) (x := x) ?_ ?_; rotate_left; clear_value x; intro hx; rotate_right; subst x)
    | (extract_lets +onlyGivenNames x; clear_value x) | dsimp only | with_reducible apply keeps_ft

theorem keeps_restoreRecord {msk : Nat} {s0 s : State}  (hk : Fr msk s0 s)
    (hm : Sub 4353 msk := by exact Sub.mono (by assumption) rfl) :
    Fr msk s0 (State.restoreRecord s) := by
  unfold State.restoreRecord
  repeat' first
    | with_reducible assumption | (exact Sub.mono hm rfl) | intro _
    | (extract_lets +onlyGivenNames x; refine keeps_have (msk := msk) (s0 := s0) (x := x) ?_ ?_; rotate_left; clear_value x; intro hx; rotate_right; subst x)
    | (extract_lets +onlyGivenNames x; refine keeps_have_fst (msk := msk) (s0 := s0) (x := x) ?_ ?_; rotate_left; clear_value x; intro hx; rotate_right; subst x)
    | (extract_lets +onlyGivenNames x; clear_value x) | with_reducible apply keeps_each | with_reducible apply keeps_put
    | with_reducible apply keeps_restoreRepairs | with_reducible apply keeps_setVal | with_reducible apply keeps_foldl
    | with_reducible apply keeps_foldl_fst | with_reducible apply keeps_ite | with_reducible apply keeps_ite_fst
    | (simp only [stOf_mk]) | split | with_reducible apply keeps_fst | dsimp only | with_reducible apply keeps_ca

/-! ### DevRecord -/

theorem keeps_devAppend {msk : Nat} {s0 s : State} (event : Nat) (f : DevRec → DevRec) (hk : Fr msk s0 s)
    (hm : Sub 1048576 msk := by exact Sub.mono (by assumption) rfl) :
    Fr msk s0 (State.devAppend s event f) := by
  unfold State.devAppend
  repeat' first
    | with_reducible assumption | (exact Sub.mono hm rfl) | intro _
    | (extract_lets +onlyGivenNames x; refine keeps_have (msk := msk) (s0 := s0) (x := x) ?_ ?_; rotate_left; clear_value x; intro hx; rotate_right; subst x)
    | (extract_lets +onlyGivenNames x; clear_value x) | with_reducible apply keeps_ite | dsimp only
    | with_reducible apply keeps_im

theorem keeps_appendAgeing {msk : Nat} {s0 s : State}  (hk : Fr msk s0 s)
    (hm : Sub 1048576 msk := by exact Sub.mono (by assumption) rfl) :
    Fr msk s0 (State.appendAgeing s) := by
  unfold State.appendAgeing
  repeat' first
    | with_reducible assumption | (exact Sub.mono hm rfl) | intro _
    | (extract_lets +onlyGivenNames x; refine keeps_have (msk := msk) (s0 := s0) (x := x) ?_ ?_; rotate_left; clear_value x; intro hx; rotate_right; subst x)
    | (extract_lets +onlyGivenNames x; clear_value x) | with_reducible apply keeps_devAppend | dsimp only

/-! ### Protect -/

theorem keeps_showStage {msk : Nat} {s0 s : State}  (hk : Fr msk s0 s)
    (hm : Sub 1 msk := by exact Sub.mono (by assumption) rfl) :
    Fr msk s0 (State.showStage s) := by
  unfold State.showStage
  repeat' first
    | with_reducible assumption | (exact Sub.mono hm rfl) | intro _
    | (extract_lets +onlyGivenNames x; refine keeps_have (msk := msk) (s0 := s0) (x := x) ?_ ?_; rotate_left; clear_value x; intro hx; rotate_right; subst x)
    | (extract_lets +onlyGivenNames x; clear_value x) | with_reducible apply keeps_put | with_reducible apply keeps_ite
    | split | dsimp only

theorem keeps_protTouch {msk : Nat} {s0 s : State} (p : Nat) (hk : Fr msk s0 s)
    (hm : Sub 16 msk := by exact Sub.mono (by assumption) rfl) :
    Fr msk s0 (State.protTouch s p) := by
  unfold State.protTouch
  repeat' first
    | with_reducible assumption | (exact Sub.mono hm rfl) | intro _
    | (extract_lets +onlyGivenNames x; refine keeps_have (msk := msk) (s0 := s0) (x := x) ?_ ?_; rotate_left; clear_value x; intro hx; rotate_right; subst x)
    | (extract_lets +onlyGivenNames x; clear_value x) | with_reducible apply keeps_ite | dsimp only
    | with_reducible apply keeps_prot

theorem keeps_stageRevert {msk : Nat} {s0 s : State}  (hk : Fr msk s0 s)
    (hm : Sub 17 msk := by exact Sub.mono (by assumption) rfl) :
    Fr msk s0 (State.stageRevert s) := by
  unfold State.stageRevert
  repeat' first
    | with_reducible assumption | (exact Sub.mono hm rfl) | intro _
    | (extract_lets +onlyGivenNames x; refine keeps_have (msk := msk) (s0 := s0) (x := x) ?_ ?_; rotate_left; clear_value x; intro hx; rotate_right; subst x)
    | (extract_lets +onlyGivenNames x; clear_value x) | with_reducible apply keeps_showStage | dsimp only
    | with_reducible apply keeps_prot

theorem keeps_stageWrite {msk : Nat} {s0 s : State} (p : Nat) (f : ProtSet → ProtSet) (hk : Fr msk s0 s)
    (hm : Sub 17 msk := by exact Sub.mono (by assumption) rfl) :
    Fr msk s0 (stOf (State.stageWrite s p f)) := by
  unfold State.stageWrite
  repeat' first
    | with_reducible assumption | (exact Sub.mono hm rfl) | intro _
    | (extract_lets +onlyGivenNames x; refine keeps_have (msk := msk) (s0 := s0) (x := x) ?_ ?_; rotate_left; clear_value x; intro hx; rotate_right; subst x)
    | (extract_lets +onlyGivenNames x; refine keeps_have_fst (msk := msk) (s0 := s0) (x := x) ?_ ?_; rotate_left; clear_value x; intro hx; rotate_right; subst x)
    | (extract_lets +onlyGivenNames x; clear_value x) | with_reducible apply keeps_showStage | with_reducible apply keeps_ite
    | with_reducible apply keeps_ite_fst | (simp only [stOf_mk]) | with_reducible apply keeps_fst | dsimp only
    | with_reducible apply keeps_prot

theorem keeps_pageNext {msk : Nat} {s0 s : State}  (hk : Fr msk s0 s)
    (hm : Sub 1 msk := by exact Sub.mono (by assumption) rfl) :
    Fr msk s0 (State.pageNext s) := by
  unfold State.pageNext
  repeat' first | with_reducible assumption | (exact Sub.mono hm rfl) | intro _ | with_reducible apply keeps_put | dsimp only

theorem keeps_protRead {msk : Nat} {s0 s : State} (p : Nat) (name : RegName) (j : Nat) (a : Nat) (hk : Fr msk s0 s)
    (hm : Sub 17 msk := by exact Sub.mono (by assumption) rfl) :
    Fr msk s0 (stOf (State.protRead s p name j a)) := by
  unfold State.protRead
  repeat' first
    | with_reducible assumption | (exact Sub.mono hm rfl) | intro _
    | (extract_lets +onlyGivenNames x; refine keeps_have (msk := msk) (s0 := s0) (x := x) ?_ ?_; rotate_left; clear_value x; intro hx; rotate_right; subst x)
    | (extract_lets +onlyGivenNames x; refine keeps_have_fst (msk := msk) (s0 := s0) (x := x) ?_ ?_; rotate_left; clear_value x; intro hx; rotate_right; subst x)
    | (extract_lets +onlyGivenNames x; clear_value x) | with_reducible apply keeps_pageNext
    | with_reducible apply keeps_plainRead | with_reducible apply keeps_protTouch | with_reducible apply keeps_ite
    | with_reducible apply keeps_ite_fst | (simp only [stOf_mk]) | with_reducible apply keeps_fst | dsimp only

theorem keeps_protCommit {msk : Nat} {s0 s : State}  (hk : Fr msk s0 s)
    (hm : Sub 17 msk := by exact Sub.mono (by assumption) rfl) :
    Fr msk s0 (stOf (State.protCommit s)) := by
  unfold State.protCommit
  repeat' first
    | with_reducible assumption | (exact Sub.mono hm rfl) | intro _
    | (extract_lets +onlyGivenNames x; refine keeps_have (msk := msk) (s0 := s0) (x := x) ?_ ?_; rotate_left; clear_value x; intro hx; rotate_right; subst x)
    | (extract_lets +onlyGivenNames x; refine keeps_have_fst (msk := msk) (s0 := s0) (x := x) ?_ ?_; rotate_left; clear_value x; intro hx; rotate_right; subst x)
    | (extract_lets +onlyGivenNames x; clear_value x) | with_reducible apply keeps_answer | with_reducible apply keeps_count
    | with_reducible apply keeps_put | with_reducible apply keeps_showStage | with_reducible apply keeps_stageRevert
    | with_reducible apply keeps_ite | with_reducible apply keeps_ite_fst | (simp only [stOf_mk])
    | with_reducible apply keeps_fst | dsimp only | with_reducible apply keeps_prot

theorem keeps_protCtlWrite {msk : Nat} {s0 s : State} (p : Nat) (v : Nat) (hk : Fr msk s0 s)
    (hm : Sub 17 msk := by exact Sub.mono (by assumption) rfl) :
    Fr msk s0 (stOf (State.protCtlWrite s p v)) := by
  unfold State.protCtlWrite
  repeat' first
    | with_reducible assumption | (exact Sub.mono hm rfl) | intro _
    | (extract_lets +onlyGivenNames x; refine keeps_have (msk := msk) (s0 := s0) (x := x) ?_ ?_; rotate_left; clear_value x; intro hx; rotate_right; subst x)
    | (extract_lets +onlyGivenNames x; refine keeps_have_fst (msk := msk) (s0 := s0) (x := x) ?_ ?_; rotate_left; clear_value x; intro hx; rotate_right; subst x)
    | (extract_lets +onlyGivenNames x; clear_value x) | with_reducible apply keeps_answer
    | with_reducible apply keeps_protCommit | with_reducible apply keeps_put | with_reducible apply keeps_stageRevert
    | with_reducible apply keeps_ite | with_reducible apply keeps_ite_fst | (simp only [stOf_mk]) | split
    | with_reducible apply keeps_fst | dsimp only

theorem keeps_protWrite {msk : Nat} {s0 s : State} (p : Nat) (name : RegName) (j : Nat) (a : Nat) (v : Nat) (hk : Fr msk s0 s)
    (hm : Sub 17 msk := by exact Sub.mono (by assumption) rfl) :
    Fr msk s0 (stOf (State.protWrite s p name j a v)) := by
  unfold State.protWrite
  repeat' first
    | with_reducible assumption | (exact Sub.mono hm rfl) | intro _
    | (extract_lets +onlyGivenNames x; refine keeps_have (msk := msk) (s0 := s0) (x := x) ?_ ?_; rotate_left; clear_value x; intro hx; rotate_right; subst x)
    | (extract_lets +onlyGivenNames x; refine keeps_have_fst (msk := msk) (s0 := s0) (x := x) ?_ ?_; rotate_left; clear_value x; intro hx; rotate_right; subst x)
    | (extract_lets +onlyGivenNames x; clear_value x) | with_reducible apply keeps_pageNext
    | with_reducible apply keeps_plainWrite | with_reducible apply keeps_protCtlWrite | with_reducible apply keeps_protTouch
    | with_reducible apply keeps_stageWrite | with_reducible apply keeps_ite | with_reducible apply keeps_ite_fst
    | (simp only [stOf_mk]) | with_reducible apply keeps_fst | dsimp only

theorem keeps_protWriteAt {msk : Nat} {s0 s : State} (p : Nat) (a : Nat) (v : Nat) (hk : Fr msk s0 s)
    (hm : Sub 17 msk := by exact Sub.mono (by assumption) rfl) :
    Fr msk s0 (stOf (State.protWriteAt s p a v)) := by
  unfold State.protWriteAt
  repeat' first
    | with_reducible assumption | (exact Sub.mono hm rfl) | intro _
    | (extract_lets +onlyGivenNames x; refine keeps_have (msk := msk) (s0 := s0) (x := x) ?_ ?_; rotate_left; clear_value x; intro hx; rotate_right; subst x)
    | (extract_lets +onlyGivenNames x; refine keeps_have_fst (msk := msk) (s0 := s0) (x := x) ?_ ?_; rotate_left; clear_value x; intro hx; rotate_right; subst x)
    | (extract_lets +onlyGivenNames x; clear_value x) | with_reducible apply keeps_protWrite | with_reducible apply keeps_ite
    | with_reducible apply keeps_ite_fst | (simp only [stOf_mk]) | split | with_reducible apply keeps_fst | dsimp only

theorem keeps_execProtStageWrite {p : Fin 5} {o : BitVec 12} {v : Word} {s s' : State}
    (e : execProtStageWrite p o v s = .next s') : Fr 17 s s' := by
  unfold execProtStageWrite at e
  refine keeps_next e ?_
  clear e
  have hk := Fr.refl 17 s
  have hm : Sub 17 17 := Sub.refl _
  repeat' first
    | with_reducible assumption | (exact Sub.mono hm rfl) | intro _ | with_reducible apply keeps_gatedWrite
    | with_reducible apply keeps_protWriteAt | dsimp only

theorem keeps_execProtCommit {p : Fin 5} {v : Word} {s s' : State}
    (e : execProtCommit p v s = .next s') : Fr 17 s s' := by
  unfold execProtCommit at e
  refine keeps_next e ?_
  clear e
  have hk := Fr.refl 17 s
  have hm : Sub 17 17 := Sub.refl _
  repeat' first
    | with_reducible assumption | (exact Sub.mono hm rfl) | intro _ | with_reducible apply keeps_gatedWrite
    | with_reducible apply keeps_protWriteAt | dsimp only

theorem keeps_execProtDiscard {p : Fin 5} {s s' : State}
    (e : execProtDiscard p s = .next s') : Fr 17 s s' := by
  unfold execProtDiscard at e
  refine keeps_next e ?_
  clear e
  have hk := Fr.refl 17 s
  have hm : Sub 17 17 := Sub.refl _
  repeat' first
    | with_reducible assumption | (exact Sub.mono hm rfl) | intro _ | with_reducible apply keeps_gatedWrite
    | with_reducible apply keeps_protWriteAt | dsimp only

theorem keeps_stageExpire {msk : Nat} {s0 s : State}  (hk : Fr msk s0 s)
    (hm : Sub 17 msk := by exact Sub.mono (by assumption) rfl) :
    Fr msk s0 (State.stageExpire s) := by
  unfold State.stageExpire
  repeat' first
    | with_reducible assumption | (exact Sub.mono hm rfl) | intro _
    | (extract_lets +onlyGivenNames x; refine keeps_have (msk := msk) (s0 := s0) (x := x) ?_ ?_; rotate_left; clear_value x; intro hx; rotate_right; subst x)
    | (extract_lets +onlyGivenNames x; clear_value x) | with_reducible apply keeps_stageRevert
    | with_reducible apply keeps_ite | split | dsimp only

theorem keeps_execProtStageExpire  {s s' : State}
    (e : execProtStageExpire  s = .next s') : Fr 17 s s' := by
  unfold execProtStageExpire at e
  refine keeps_next e ?_
  clear e
  have hk := Fr.refl 17 s
  have hm : Sub 17 17 := Sub.refl _
  repeat' first
    | with_reducible assumption | (exact Sub.mono hm rfl) | intro _ | with_reducible apply keeps_stageExpire | dsimp only

theorem keeps_holdExpire {msk : Nat} {s0 s : State} (region : Nat) (a : AlarmKind) (hk : Fr msk s0 s)
    (hm : Sub 268435493 msk := by exact Sub.mono (by assumption) rfl) :
    Fr msk s0 (State.holdExpire s region a) := by
  unfold State.holdExpire
  repeat' first
    | with_reducible assumption | (exact Sub.mono hm rfl) | intro _
    | (extract_lets +onlyGivenNames x; refine keeps_have (msk := msk) (s0 := s0) (x := x) ?_ ?_; rotate_left; clear_value x; intro hx; rotate_right; subst x)
    | (extract_lets +onlyGivenNames x; clear_value x) | with_reducible apply keeps_alarmElement
    | with_reducible apply keeps_count | with_reducible apply keeps_ite | split | dsimp only

theorem keeps_execAlarmHoldExpire {region : Fin 16} {a : Fin 16} {s s' : State}
    (e : execAlarmHoldExpire region a s = .next s') : Fr 268435493 s s' := by
  unfold execAlarmHoldExpire at e
  refine keeps_next e ?_
  clear e
  have hk := Fr.refl 268435493 s
  have hm : Sub 268435493 268435493 := Sub.refl _
  repeat' first
    | with_reducible assumption | (exact Sub.mono hm rfl) | intro _ | with_reducible apply keeps_holdExpire | dsimp only

theorem keeps_alarmClear {msk : Nat} {s0 s : State} (region : Nat) (v : Nat) (hk : Fr msk s0 s)
    (hm : Sub 268435623 msk := by exact Sub.mono (by assumption) rfl) :
    Fr msk s0 (State.alarmClear s region v) := by
  unfold State.alarmClear
  repeat' first
    | with_reducible assumption | (exact Sub.mono hm rfl) | intro _
    | (extract_lets +onlyGivenNames x; refine keeps_have (msk := msk) (s0 := s0) (x := x) ?_ ?_; rotate_left; clear_value x; intro hx; rotate_right; subst x)
    | (extract_lets +onlyGivenNames x; clear_value x) | with_reducible apply keeps_each | with_reducible apply keeps_put
    | with_reducible apply keeps_raiseAlarm | with_reducible apply keeps_updateAlarms | with_reducible apply keeps_ite
    | split | dsimp only

theorem keeps_execAlarmClear {p : Fin 5} {region : Fin 16} {v : BitVec 16} {s s' : State}
    (e : execAlarmClear p region v s = .next s') : Fr 268435623 s s' := by
  unfold execAlarmClear at e
  refine keeps_next e ?_
  clear e
  have hk := Fr.refl 268435623 s
  have hm : Sub 268435623 268435623 := Sub.refl _
  repeat' first
    | with_reducible assumption | (exact Sub.mono hm rfl) | intro _ | with_reducible apply keeps_alarmClear
    | with_reducible apply keeps_gatedWrite | with_reducible apply keeps_ite | (simp only [stOf_mk]) | dsimp only

end Sys2Proof.Machine
end

