-- ==== Sys2Proof/Laws/KeepsSignal.lean ====
section
/-! SUPPORT. Laws/KeepsSignal.lean: every operation of the model keeps what `Keeps` (Safety.lean) says; here the signal path: rings and quires, converters, zoom paths, broad transform, detection.
Each lemma follows the body of its operation: a let, a branch, a fold, a record update, or the law of the operation it calls. -/

set_option linter.all false

namespace Sys2Proof.Machine

set_option Elab.async false

/-! ### Quire -/

theorem keeps_modRing {msk : Nat} {s0 s : State} (n : Nat) (f : RingSt → RingSt) (hk : Fr msk s0 s)
    (hm : Sub 8192 msk := by exact Sub.mono (by assumption) rfl) :
    Fr msk s0 (State.modRing s n f) := by
  unfold State.modRing
  repeat' first
    | with_reducible assumption | (exact Sub.mono hm rfl) | intro _
    | (extract_lets +onlyGivenNames x; refine keeps_have (msk := msk) (s0 := s0) (x := x) ?_ ?_; rotate_left; clear_value x; intro hx; rotate_right; subst x)
    | (extract_lets +onlyGivenNames x; clear_value x) | dsimp only | with_reducible apply keeps_qu

theorem keeps_modGroup {msk : Nat} {s0 s : State} (g : Nat) (f : GroupSt → GroupSt) (hk : Fr msk s0 s)
    (hm : Sub 8192 msk := by exact Sub.mono (by assumption) rfl) :
    Fr msk s0 (State.modGroup s g f) := by
  unfold State.modGroup
  repeat' first
    | with_reducible assumption | (exact Sub.mono hm rfl) | intro _
    | (extract_lets +onlyGivenNames x; refine keeps_have (msk := msk) (s0 := s0) (x := x) ?_ ?_; rotate_left; clear_value x; intro hx; rotate_right; subst x)
    | (extract_lets +onlyGivenNames x; clear_value x) | dsimp only | with_reducible apply keeps_qu

theorem keeps_copyWrite {msk : Nat} {s0 s : State} (len : Nat) (i : Nat) (x0 : Nat) (x1 : List ((Nat × Bool) × List QSample)) (hk : Fr msk s0 s)
    (hm : Sub 268707495 msk := by exact Sub.mono (by assumption) rfl) : Fr msk s0 (State.copyWrite s len i x0 x1) := by
  induction x1 generalizing s x0 with
  | nil =>
    unfold State.copyWrite
    repeat' first
      | with_reducible assumption | (exact Sub.mono hm rfl) | intro _
      | (extract_lets +onlyGivenNames x; refine keeps_have (msk := msk) (s0 := s0) (x := x) ?_ ?_; rotate_left; clear_value x; intro hx; rotate_right; subst x)
      | (extract_lets +onlyGivenNames x; clear_value x) | with_reducible apply keeps_memWrite
      | with_reducible apply keeps_ite | split | dsimp only
  | cons a l ih =>
    unfold State.copyWrite
    repeat' first
      | with_reducible assumption | (exact Sub.mono hm rfl) | intro _
      | (extract_lets +onlyGivenNames x; refine keeps_have (msk := msk) (s0 := s0) (x := x) ?_ ?_; rotate_left; clear_value x; intro hx; rotate_right; subst x)
      | (extract_lets +onlyGivenNames x; clear_value x) | with_reducible apply ih | with_reducible apply keeps_memWrite
      | with_reducible apply keeps_ite | split | dsimp only

theorem keeps_advanceCopy {msk : Nat} {s0 s : State} (g : Nat) (hk : Fr msk s0 s)
    (hm : Sub 268707495 msk := by exact Sub.mono (by assumption) rfl) :
    Fr msk s0 (State.advanceCopy s g) := by
  unfold State.advanceCopy
  repeat' first
    | with_reducible assumption | (exact Sub.mono hm rfl) | intro _
    | (extract_lets +onlyGivenNames x; refine keeps_have (msk := msk) (s0 := s0) (x := x) ?_ ?_; rotate_left; clear_value x; intro hx; rotate_right; subst x)
    | (extract_lets +onlyGivenNames x; refine keeps_have_fst (msk := msk) (s0 := s0) (x := x) ?_ ?_; rotate_left; clear_value x; intro hx; rotate_right; subst x)
    | (extract_lets +onlyGivenNames x; clear_value x) | with_reducible apply keeps_copyWrite
    | with_reducible apply keeps_count | with_reducible apply keeps_modGroup | with_reducible apply keeps_ite
    | with_reducible apply keeps_ite_fst | (simp only [stOf_mk]) | split | with_reducible apply keeps_fst | dsimp only

theorem keeps_advanceInput {msk : Nat} {s0 s : State} (n : Nat) (hk : Fr msk s0 s)
    (hm : Sub 268707495 msk := by exact Sub.mono (by assumption) rfl) :
    Fr msk s0 (State.advanceInput s n) := by
  unfold State.advanceInput
  repeat' first
    | with_reducible assumption | (exact Sub.mono hm rfl) | intro _ | with_reducible apply keeps_advanceCopy
    | with_reducible apply keeps_each | (simp only [stOf_mk]) | with_reducible apply keeps_fst | dsimp only

theorem keeps_ringTouch {msk : Nat} {s0 s : State} (n : Nat) (k : Int) (count : Nat) (hk : Fr msk s0 s)
    (hm : Sub 271873 msk := by exact Sub.mono (by assumption) rfl) :
    Fr msk s0 (State.ringTouch s n k count) := by
  unfold State.ringTouch
  repeat' first
    | with_reducible assumption | (exact Sub.mono hm rfl) | intro _
    | (extract_lets +onlyGivenNames x; refine keeps_have (msk := msk) (s0 := s0) (x := x) ?_ ?_; rotate_left; clear_value x; intro hx; rotate_right; subst x)
    | (extract_lets +onlyGivenNames x; refine keeps_have_fst (msk := msk) (s0 := s0) (x := x) ?_ ?_; rotate_left; clear_value x; intro hx; rotate_right; subst x)
    | (extract_lets +onlyGivenNames x; clear_value x) | with_reducible apply keeps_cmWake | with_reducible apply keeps_count
    | with_reducible apply keeps_ifThen | with_reducible apply keeps_memClean | (simp only [stOf_mk])
    | with_reducible apply keeps_fst | dsimp only

theorem keeps_ringWrite {msk : Nat} {s0 s : State} (n : Nat) (fs : Nat) (run : RingRun) (hk : Fr msk s0 s)
    (hm : Sub 268707495 msk := by exact Sub.mono (by assumption) rfl) :
    Fr msk s0 (State.ringWrite s n fs run) := by
  unfold State.ringWrite
  repeat' first
    | with_reducible assumption | (exact Sub.mono hm rfl) | intro _ | with_reducible apply keeps_advanceInput
    | with_reducible apply keeps_modRing | with_reducible apply keeps_put | with_reducible apply keeps_ringTouch
    | with_reducible apply keeps_ite | dsimp only

theorem keeps_ringLose {msk : Nat} {s0 s : State} (n : Nat) (fs : Nat) (first : Int) (last : Int) (cause : Nat) (hk : Fr msk s0 s)
    (hm : Sub 268707495 msk := by exact Sub.mono (by assumption) rfl) :
    Fr msk s0 (State.ringLose s n fs first last cause) := by
  unfold State.ringLose
  repeat' first
    | with_reducible assumption | (exact Sub.mono hm rfl) | intro _ | with_reducible apply keeps_advanceInput
    | with_reducible apply keeps_modRing | with_reducible apply keeps_ite | dsimp only

theorem keeps_ringWriteLoss {msk : Nat} {s0 s : State} (n : Nat) (hk : Fr msk s0 s)
    (hm : Sub 8193 msk := by exact Sub.mono (by assumption) rfl) :
    Fr msk s0 (State.ringWriteLoss s n) := by
  unfold State.ringWriteLoss
  repeat' first
    | with_reducible assumption | (exact Sub.mono hm rfl) | intro _
    | (extract_lets +onlyGivenNames x; refine keeps_have (msk := msk) (s0 := s0) (x := x) ?_ ?_; rotate_left; clear_value x; intro hx; rotate_right; subst x)
    | (extract_lets +onlyGivenNames x; clear_value x) | with_reducible apply keeps_count | with_reducible apply keeps_modRing
    | split | dsimp only

theorem keeps_execQuRingWriteLoss {n : Fin 16} {s s' : State}
    (e : execQuRingWriteLoss n s = .next s') : Fr 8193 s s' := by
  unfold execQuRingWriteLoss at e
  refine keeps_next e ?_
  clear e
  have hk := Fr.refl 8193 s
  have hm : Sub 8193 8193 := Sub.refl _
  repeat' first
    | with_reducible assumption | (exact Sub.mono hm rfl) | intro _ | with_reducible apply keeps_ringWriteLoss | dsimp only

theorem keeps_ringRestart {msk : Nat} {s0 s : State} (n : Nat) (hk : Fr msk s0 s)
    (hm : Sub 8193 msk := by exact Sub.mono (by assumption) rfl) :
    Fr msk s0 (State.ringRestart s n) := by
  unfold State.ringRestart
  repeat' first
    | with_reducible assumption | (exact Sub.mono hm rfl) | intro _
    | (extract_lets +onlyGivenNames x; refine keeps_have (msk := msk) (s0 := s0) (x := x) ?_ ?_; rotate_left; clear_value x; intro hx; rotate_right; subst x)
    | (extract_lets +onlyGivenNames x; clear_value x) | with_reducible apply keeps_modRing | with_reducible apply keeps_put
    | with_reducible apply keeps_ite | dsimp only

theorem keeps_ringStart {msk : Nat} {s0 s : State} (n : Nat) (hk : Fr msk s0 s)
    (hm : Sub 9221 msk := by exact Sub.mono (by assumption) rfl) :
    Fr msk s0 (State.ringStart s n) := by
  unfold State.ringStart
  repeat' first
    | with_reducible assumption | (exact Sub.mono hm rfl) | intro _ | with_reducible apply keeps_alloc
    | with_reducible apply keeps_put | with_reducible apply keeps_ringRestart | with_reducible apply keeps_setTraffic
    | with_reducible apply keeps_tiePort | with_reducible apply keeps_ite | dsimp only

theorem keeps_ringStop {msk : Nat} {s0 s : State} (n : Nat) (hk : Fr msk s0 s)
    (hm : Sub 268707495 msk := by exact Sub.mono (by assumption) rfl) :
    Fr msk s0 (State.ringStop s n) := by
  unfold State.ringStop
  repeat' first
    | with_reducible assumption | (exact Sub.mono hm rfl) | intro _ | with_reducible apply keeps_advanceInput
    | with_reducible apply keeps_free | with_reducible apply keeps_freePort | with_reducible apply keeps_modRing
    | with_reducible apply keeps_put | with_reducible apply keeps_setTraffic | dsimp only

theorem keeps_quVrCtlWrite {msk : Nat} {s0 s : State} (n : Nat) (v : Nat) (hk : Fr msk s0 s)
    (hm : Sub 268707495 msk := by exact Sub.mono (by assumption) rfl) :
    Fr msk s0 (stOf (State.quVrCtlWrite s n v)) := by
  unfold State.quVrCtlWrite
  repeat' first
    | with_reducible assumption | (exact Sub.mono hm rfl) | intro _ | with_reducible apply keeps_enableWrite
    | with_reducible apply keeps_ringStart | with_reducible apply keeps_ringStop | (simp only [stOf_mk])
    | with_reducible apply keeps_fst | dsimp only

theorem keeps_quVrSizeWrite {msk : Nat} {s0 s : State} (n : Nat) (v : Nat) (hk : Fr msk s0 s)
    (hm : Sub 1 msk := by exact Sub.mono (by assumption) rfl) :
    Fr msk s0 (stOf (State.quVrSizeWrite s n v)) := by
  unfold State.quVrSizeWrite
  repeat' first
    | with_reducible assumption | (exact Sub.mono hm rfl) | intro _ | with_reducible apply keeps_answer
    | with_reducible apply keeps_plainWrite | with_reducible apply keeps_put | with_reducible apply keeps_ite
    | with_reducible apply keeps_ite_fst | (simp only [stOf_mk]) | with_reducible apply keeps_fst | dsimp only

theorem keeps_execQuVrEnable {p : Fin 5} {n : Fin 16} {v : Word} {s s' : State}
    (e : execQuVrEnable p n v s = .next s') : Fr 268707495 s s' := by
  unfold execQuVrEnable at e
  refine keeps_next e ?_
  clear e
  have hk := Fr.refl 268707495 s
  have hm : Sub 268707495 268707495 := Sub.refl _
  repeat' first
    | with_reducible assumption | (exact Sub.mono hm rfl) | intro _ | with_reducible apply keeps_gatedWrite
    | with_reducible apply keeps_quVrCtlWrite | dsimp only

theorem keeps_groupStart {msk : Nat} {s0 s : State} (g : Nat) (hk : Fr msk s0 s)
    (hm : Sub 9221 msk := by exact Sub.mono (by assumption) rfl) :
    Fr msk s0 (State.groupStart s g) := by
  unfold State.groupStart
  repeat' first
    | with_reducible assumption | (exact Sub.mono hm rfl) | intro _
    | (extract_lets +onlyGivenNames x; refine keeps_have (msk := msk) (s0 := s0) (x := x) ?_ ?_; rotate_left; clear_value x; intro hx; rotate_right; subst x)
    | (extract_lets +onlyGivenNames x; clear_value x) | with_reducible apply keeps_alloc
    | with_reducible apply keeps_modGroup | with_reducible apply keeps_openStream | with_reducible apply keeps_put
    | with_reducible apply keeps_setPair | with_reducible apply keeps_setTraffic | with_reducible apply keeps_setVal
    | with_reducible apply keeps_ite | dsimp only

theorem keeps_showCopying {msk : Nat} {s0 s : State} (g : Nat) (hk : Fr msk s0 s)
    (hm : Sub 1 msk := by exact Sub.mono (by assumption) rfl) :
    Fr msk s0 (State.showCopying s g) := by
  unfold State.showCopying
  repeat' first | with_reducible assumption | (exact Sub.mono hm rfl) | intro _ | with_reducible apply keeps_put | dsimp only

theorem keeps_refuseTrigger {msk : Nat} {s0 s : State} (g : Nat) (cause : Nat) (hk : Fr msk s0 s)
    (hm : Sub 268435461 msk := by exact Sub.mono (by assumption) rfl) :
    Fr msk s0 (State.refuseTrigger s g cause) := by
  unfold State.refuseTrigger
  repeat' first
    | with_reducible assumption | (exact Sub.mono hm rfl) | intro _ | with_reducible apply keeps_count
    | with_reducible apply keeps_gap | dsimp only

theorem keeps_offer {msk : Nat} {s0 s : State} (g : Nat) (t : TrigRec) (hk : Fr msk s0 s)
    (hm : Sub 268443653 msk := by exact Sub.mono (by assumption) rfl) :
    Fr msk s0 (State.offer s g t) := by
  unfold State.offer
  repeat' first
    | with_reducible assumption | (exact Sub.mono hm rfl) | intro _
    | (extract_lets +onlyGivenNames x; refine keeps_have (msk := msk) (s0 := s0) (x := x) ?_ ?_; rotate_left; clear_value x; intro hx; rotate_right; subst x)
    | (extract_lets +onlyGivenNames x; refine keeps_have_fst (msk := msk) (s0 := s0) (x := x) ?_ ?_; rotate_left; clear_value x; intro hx; rotate_right; subst x)
    | (extract_lets +onlyGivenNames x; clear_value x) | with_reducible apply keeps_count
    | with_reducible apply keeps_modGroup | with_reducible apply keeps_refuseTrigger | with_reducible apply keeps_setPair
    | with_reducible apply keeps_showCopying | with_reducible apply keeps_getD | with_reducible apply keeps_ite
    | with_reducible apply keeps_ite_fst | (simp only [stOf_mk]) | split | with_reducible apply keeps_fst | dsimp only

theorem keeps_offerGroups {msk : Nat} {s0 s : State} (t : TrigRec) (hk : Fr msk s0 s)
    (hm : Sub 268443653 msk := by exact Sub.mono (by assumption) rfl) :
    Fr msk s0 (State.offerGroups s t) := by
  unfold State.offerGroups
  repeat' first
    | with_reducible assumption | (exact Sub.mono hm rfl) | intro _ | with_reducible apply keeps_each
    | with_reducible apply keeps_offer | dsimp only

theorem keeps_execQuTriggerOffer {g : Fin 64} {t : TrigRec} {s s' : State}
    (e : execQuTriggerOffer g t s = .next s') : Fr 268443653 s s' := by
  unfold execQuTriggerOffer at e
  refine keeps_next e ?_
  clear e
  have hk := Fr.refl 268443653 s
  have hm : Sub 268443653 268443653 := Sub.refl _
  repeat' first
    | with_reducible assumption | (exact Sub.mono hm rfl) | intro _ | with_reducible apply keeps_offer | dsimp only

theorem keeps_writeQseq {msk : Nat} {s0 s : State} (q : Quire) (st : Nat) (hk : Fr msk s0 s)
    (hm : Sub 268707495 msk := by exact Sub.mono (by assumption) rfl) :
    Fr msk s0 (State.writeQseq s q st) := by
  unfold State.writeQseq
  repeat' first
    | with_reducible assumption | (exact Sub.mono hm rfl) | intro _ | with_reducible apply keeps_memWrite | dsimp only

theorem keeps_copyStart {msk : Nat} {s0 s : State} (g : Nat) (hk : Fr msk s0 s)
    (hm : Sub 268707495 msk := by exact Sub.mono (by assumption) rfl) :
    Fr msk s0 (State.copyStart s g) := by
  unfold State.copyStart
  repeat' first
    | with_reducible assumption | (exact Sub.mono hm rfl) | intro _
    | (extract_lets +onlyGivenNames x; refine keeps_have (msk := msk) (s0 := s0) (x := x) ?_ ?_; rotate_left; clear_value x; intro hx; rotate_right; subst x)
    | (extract_lets +onlyGivenNames x; clear_value x) | with_reducible apply keeps_modGroup
    | with_reducible apply keeps_writeQseq | with_reducible apply keeps_ite | split | dsimp only

theorem keeps_execQuCopyStart {g : Fin 64} {s s' : State}
    (e : execQuCopyStart g s = .next s') : Fr 268707495 s s' := by
  unfold execQuCopyStart at e
  refine keeps_next e ?_
  clear e
  have hk := Fr.refl 268707495 s
  have hm : Sub 268707495 268707495 := Sub.refl _
  repeat' first
    | with_reducible assumption | (exact Sub.mono hm rfl) | intro _ | with_reducible apply keeps_copyStart
    | with_reducible apply keeps_inIsland | dsimp only

theorem keeps_closeQuire {msk : Nat} {s0 s : State} (g : Nat) (q : Quire) (rest : List Quire) (hk : Fr msk s0 s)
    (hm : Sub 268707495 msk := by exact Sub.mono (by assumption) rfl) :
    Fr msk s0 (State.closeQuire s g q rest) := by
  unfold State.closeQuire
  repeat' first
    | with_reducible assumption | (exact Sub.mono hm rfl) | intro _
    | (extract_lets +onlyGivenNames x; refine keeps_have (msk := msk) (s0 := s0) (x := x) ?_ ?_; rotate_left; clear_value x; intro hx; rotate_right; subst x)
    | (extract_lets +onlyGivenNames x; clear_value x) | with_reducible apply keeps_memWrite
    | with_reducible apply keeps_modGroup | with_reducible apply keeps_setPair | with_reducible apply keeps_showCopying
    | with_reducible apply keeps_writeQseq | with_reducible apply keeps_ite | dsimp only

theorem keeps_quireClose {msk : Nat} {s0 s : State} (g : Nat) (hk : Fr msk s0 s)
    (hm : Sub 268707495 msk := by exact Sub.mono (by assumption) rfl) :
    Fr msk s0 (State.quireClose s g) := by
  unfold State.quireClose
  repeat' first
    | with_reducible assumption | (exact Sub.mono hm rfl) | intro _
    | (extract_lets +onlyGivenNames x; refine keeps_have (msk := msk) (s0 := s0) (x := x) ?_ ?_; rotate_left; clear_value x; intro hx; rotate_right; subst x)
    | (extract_lets +onlyGivenNames x; clear_value x) | with_reducible apply keeps_advanceCopy
    | with_reducible apply keeps_closeQuire | with_reducible apply keeps_ite | split | dsimp only

theorem keeps_execQuQuireClose {g : Fin 64} {s s' : State}
    (e : execQuQuireClose g s = .next s') : Fr 268707495 s s' := by
  unfold execQuQuireClose at e
  refine keeps_next e ?_
  clear e
  have hk := Fr.refl 268707495 s
  have hm : Sub 268707495 268707495 := Sub.refl _
  repeat' first
    | with_reducible assumption | (exact Sub.mono hm rfl) | intro _ | with_reducible apply keeps_inIsland
    | with_reducible apply keeps_quireClose | dsimp only

theorem keeps_stopQuire {msk : Nat} {s0 s : State} (g : Nat) (hk : Fr msk s0 s)
    (hm : Sub 268707495 msk := by exact Sub.mono (by assumption) rfl) :
    Fr msk s0 (State.stopQuire s g) := by
  unfold State.stopQuire
  repeat' first
    | with_reducible assumption | (exact Sub.mono hm rfl) | intro _
    | (extract_lets +onlyGivenNames x; refine keeps_have (msk := msk) (s0 := s0) (x := x) ?_ ?_; rotate_left; clear_value x; intro hx; rotate_right; subst x)
    | (extract_lets +onlyGivenNames x; clear_value x) | with_reducible apply keeps_closeQuire
    | with_reducible apply keeps_modGroup | with_reducible apply keeps_refuseTrigger | with_reducible apply keeps_showCopying
    | with_reducible apply keeps_writeQseq | with_reducible apply keeps_ite | split | dsimp only

theorem keeps_groupStop {msk : Nat} {s0 s : State} (g : Nat) (hk : Fr msk s0 s)
    (hm : Sub 268707495 msk := by exact Sub.mono (by assumption) rfl) :
    Fr msk s0 (State.groupStop s g) := by
  unfold State.groupStop
  repeat' first
    | with_reducible assumption | (exact Sub.mono hm rfl) | intro _
    | (extract_lets +onlyGivenNames x; refine keeps_have (msk := msk) (s0 := s0) (x := x) ?_ ?_; rotate_left; clear_value x; intro hx; rotate_right; subst x)
    | (extract_lets +onlyGivenNames x; clear_value x) | with_reducible apply keeps_advanceCopy
    | with_reducible apply keeps_closeStream | with_reducible apply keeps_each | with_reducible apply keeps_free
    | with_reducible apply keeps_setTraffic | with_reducible apply keeps_setVal | with_reducible apply keeps_stopQuire
    | with_reducible apply keeps_ite | dsimp only

theorem keeps_quGroupCtlWrite {msk : Nat} {s0 s : State} (g : Nat) (v : Nat) (hk : Fr msk s0 s)
    (hm : Sub 268707495 msk := by exact Sub.mono (by assumption) rfl) :
    Fr msk s0 (stOf (State.quGroupCtlWrite s g v)) := by
  unfold State.quGroupCtlWrite
  repeat' first
    | with_reducible assumption | (exact Sub.mono hm rfl) | intro _ | with_reducible apply keeps_enableWrite
    | with_reducible apply keeps_groupStart | with_reducible apply keeps_groupStop | with_reducible apply keeps_ite
    | with_reducible apply keeps_ite_fst | (simp only [stOf_mk]) | with_reducible apply keeps_fst | dsimp only

theorem keeps_quGroupSetWrite {msk : Nat} {s0 s : State} (g : Nat) (a : Nat) (v : Nat) (hk : Fr msk s0 s)
    (hm : Sub 1 msk := by exact Sub.mono (by assumption) rfl) :
    Fr msk s0 (stOf (State.quGroupSetWrite s g a v)) := by
  unfold State.quGroupSetWrite
  repeat' first
    | with_reducible assumption | (exact Sub.mono hm rfl) | intro _ | with_reducible apply keeps_answer
    | with_reducible apply keeps_plainWrite | with_reducible apply keeps_put | with_reducible apply keeps_ite
    | with_reducible apply keeps_ite_fst | (simp only [stOf_mk]) | with_reducible apply keeps_fst | dsimp only

theorem keeps_execQuGroupEnable {p : Fin 5} {g : Fin 64} {v : Word} {s s' : State}
    (e : execQuGroupEnable p g v s = .next s') : Fr 268707495 s s' := by
  unfold execQuGroupEnable at e
  refine keeps_next e ?_
  clear e
  have hk := Fr.refl 268707495 s
  have hm : Sub 268707495 268707495 := Sub.refl _
  repeat' first
    | with_reducible assumption | (exact Sub.mono hm rfl) | intro _ | with_reducible apply keeps_gatedWrite
    | with_reducible apply keeps_quGroupCtlWrite | dsimp only

theorem keeps_execQuGroupDisable {p : Fin 5} {g : Fin 64} {s s' : State}
    (e : execQuGroupDisable p g s = .next s') : Fr 268707495 s s' := by
  unfold execQuGroupDisable at e
  refine keeps_next e ?_
  clear e
  have hk := Fr.refl 268707495 s
  have hm : Sub 268707495 268707495 := Sub.refl _
  repeat' first
    | with_reducible assumption | (exact Sub.mono hm rfl) | intro _ | with_reducible apply keeps_gatedWrite
    | with_reducible apply keeps_quGroupCtlWrite | dsimp only

theorem keeps_quRelLoWrite {msk : Nat} {s0 s : State} (g : Nat) (v : Nat) (hk : Fr msk s0 s)
    (hm : Sub 8192 msk := by exact Sub.mono (by assumption) rfl) :
    Fr msk s0 (stOf (State.quRelLoWrite s g v)) := by
  unfold State.quRelLoWrite
  repeat' first
    | with_reducible assumption | (exact Sub.mono hm rfl) | intro _
    | (extract_lets +onlyGivenNames x; refine keeps_have (msk := msk) (s0 := s0) (x := x) ?_ ?_; rotate_left; clear_value x; intro hx; rotate_right; subst x)
    | (extract_lets +onlyGivenNames x; refine keeps_have_fst (msk := msk) (s0 := s0) (x := x) ?_ ?_; rotate_left; clear_value x; intro hx; rotate_right; subst x)
    | (extract_lets +onlyGivenNames x; clear_value x) | with_reducible apply keeps_modGroup | (simp only [stOf_mk])
    | with_reducible apply keeps_fst | dsimp only

theorem keeps_quRelHiWrite {msk : Nat} {s0 s : State} (g : Nat) (v : Nat) (hk : Fr msk s0 s)
    (hm : Sub 8193 msk := by exact Sub.mono (by assumption) rfl) :
    Fr msk s0 (stOf (State.quRelHiWrite s g v)) := by
  unfold State.quRelHiWrite
  repeat' first
    | with_reducible assumption | (exact Sub.mono hm rfl) | intro _
    | (extract_lets +onlyGivenNames x; refine keeps_have (msk := msk) (s0 := s0) (x := x) ?_ ?_; rotate_left; clear_value x; intro hx; rotate_right; subst x)
    | (extract_lets +onlyGivenNames x; refine keeps_have_fst (msk := msk) (s0 := s0) (x := x) ?_ ?_; rotate_left; clear_value x; intro hx; rotate_right; subst x)
    | (extract_lets +onlyGivenNames x; clear_value x) | with_reducible apply keeps_answer
    | with_reducible apply keeps_modGroup | with_reducible apply keeps_put | with_reducible apply keeps_setPair
    | with_reducible apply keeps_ite | with_reducible apply keeps_ite_fst | (simp only [stOf_mk]) | split
    | with_reducible apply keeps_fst | dsimp only

theorem keeps_execQuRelease {p : Fin 5} {g : Fin 64} {v : Word} {s s' : State}
    (e : execQuRelease p g v s = .next s') : Fr 8193 s s' := by
  unfold execQuRelease at e
  refine keeps_next e ?_
  clear e
  have hk := Fr.refl 8193 s
  have hm : Sub 8193 8193 := Sub.refl _
  repeat' first
    | with_reducible assumption | (exact Sub.mono hm rfl) | intro _ | with_reducible apply keeps_gatedWrite
    | with_reducible apply keeps_quRelHiWrite | dsimp only

theorem keeps_directRecord {msk : Nat} {s0 s : State} (id : BitVec 16) (fmt : Nat) (t : DevTime) (region : Nat) (flags : Nat) (payload : List Byte) (hk : Fr msk s0 s)
    (hm : Sub 268435460 msk := by exact Sub.mono (by assumption) rfl) :
    Fr msk s0 (State.directRecord s id fmt t region flags payload) := by
  unfold State.directRecord
  repeat' first
    | with_reducible assumption | (exact Sub.mono hm rfl) | intro _ | with_reducible apply keeps_sendRecord
    | (with_reducible apply keeps_id) | dsimp only

theorem keeps_flushLoss {msk : Nat} {s0 s : State} (id : BitVec 16) (hk : Fr msk s0 s)
    (hm : Sub 268435460 msk := by exact Sub.mono (by assumption) rfl) :
    Fr msk s0 (State.flushLoss s id) := by
  unfold State.flushLoss
  repeat' first
    | with_reducible assumption | (exact Sub.mono hm rfl) | intro _
    | (extract_lets +onlyGivenNames x; refine keeps_have (msk := msk) (s0 := s0) (x := x) ?_ ?_; rotate_left; clear_value x; intro hx; rotate_right; subst x)
    | (extract_lets +onlyGivenNames x; clear_value x) | with_reducible apply keeps_modStream
    | with_reducible apply keeps_sendRecord | with_reducible apply keeps_ite | (with_reducible apply keeps_id) | dsimp only

theorem keeps_exportSlice {msk : Nat} {s0 s : State} (g : Nat) (hk : Fr msk s0 s)
    (hm : Sub 268443652 msk := by exact Sub.mono (by assumption) rfl) :
    Fr msk s0 (State.exportSlice s g) := by
  unfold State.exportSlice
  repeat' first
    | with_reducible assumption | with_reducible apply keeps_closeStream | with_reducible apply keeps_directRecord
    | with_reducible apply keeps_flushLoss | with_reducible apply keeps_modGroup | with_reducible apply keeps_modStream
    | (extract_lets +onlyGivenNames x; refine keeps_fun (x := x) ?_; subst x) | (exact Sub.mono hm rfl) | intro _
    | (extract_lets +onlyGivenNames x; refine keeps_have (msk := msk) (s0 := s0) (x := x) ?_ ?_; rotate_left; clear_value x; intro hx; rotate_right; subst x)
    | (extract_lets +onlyGivenNames x; clear_value x) | with_reducible apply keeps_ite | split | dsimp only

theorem keeps_execQuExportSlice {g : Fin 64} {s s' : State}
    (e : execQuExportSlice g s = .next s') : Fr 268443652 s s' := by
  unfold execQuExportSlice at e
  refine keeps_next e ?_
  clear e
  have hk := Fr.refl 268443652 s
  have hm : Sub 268443652 268443652 := Sub.refl _
  repeat' first
    | with_reducible assumption | (exact Sub.mono hm rfl) | intro _ | with_reducible apply keeps_exportSlice
    | with_reducible apply keeps_inIsland | dsimp only

/-! ### Front -/

theorem keeps_modIn {msk : Nat} {s0 s : State} (n : Nat) (f : AfIn → AfIn) (hk : Fr msk s0 s)
    (hm : Sub 2048 msk := by exact Sub.mono (by assumption) rfl) :
    Fr msk s0 (State.modIn s n f) := by
  unfold State.modIn
  repeat' first
    | with_reducible assumption | (exact Sub.mono hm rfl) | intro _
    | (extract_lets +onlyGivenNames x; refine keeps_have (msk := msk) (s0 := s0) (x := x) ?_ ?_; rotate_left; clear_value x; intro hx; rotate_right; subst x)
    | (extract_lets +onlyGivenNames x; clear_value x) | dsimp only | with_reducible apply keeps_af

theorem keeps_rawGap {msk : Nat} {s0 s : State} (n : Nat) (t : DevTime) (len : Nat) (cause : Nat) (hk : Fr msk s0 s)
    (hm : Sub 268779524 msk := by exact Sub.mono (by assumption) rfl) :
    Fr msk s0 (State.rawGap s n t len cause) := by
  unfold State.rawGap
  repeat' first
    | with_reducible assumption | (exact Sub.mono hm rfl) | intro _ | with_reducible apply keeps_feed
    | with_reducible apply keeps_gap | dsimp only

theorem keeps_inputTail {msk : Nat} {s0 s : State} (n : Nat) (hk : Fr msk s0 s)
    (hm : Sub 268781572 msk := by exact Sub.mono (by assumption) rfl) :
    Fr msk s0 (State.inputTail s n) := by
  unfold State.inputTail
  repeat' first
    | with_reducible assumption | (exact Sub.mono hm rfl) | intro _
    | (extract_lets +onlyGivenNames x; refine keeps_have (msk := msk) (s0 := s0) (x := x) ?_ ?_; rotate_left; clear_value x; intro hx; rotate_right; subst x)
    | (extract_lets +onlyGivenNames x; clear_value x) | with_reducible apply keeps_feed | with_reducible apply keeps_modIn
    | with_reducible apply keeps_rawGap | with_reducible apply keeps_ite | split | dsimp only

theorem keeps_inputEnd {msk : Nat} {s0 s : State} (n : Nat) (gap : Option Nat) (go : Bool) (hk : Fr msk s0 s)
    (hm : Sub 268781573 msk := by exact Sub.mono (by assumption) rfl) :
    Fr msk s0 (State.inputEnd s n gap go) := by
  unfold State.inputEnd
  repeat' first
    | with_reducible assumption | (exact Sub.mono hm rfl) | intro _
    | (extract_lets +onlyGivenNames x; refine keeps_have (msk := msk) (s0 := s0) (x := x) ?_ ?_; rotate_left; clear_value x; intro hx; rotate_right; subst x)
    | (extract_lets +onlyGivenNames x; clear_value x) | with_reducible apply keeps_gap | with_reducible apply keeps_inputTail
    | with_reducible apply keeps_modIn | with_reducible apply keeps_put | with_reducible apply keeps_ite | split | dsimp only

theorem keeps_inputCut {msk : Nat} {s0 s : State} (n : Nat) (hk : Fr msk s0 s)
    (hm : Sub 268912645 msk := by exact Sub.mono (by assumption) rfl) :
    Fr msk s0 (State.inputCut s n) := by
  unfold State.inputCut
  repeat' first
    | with_reducible assumption | with_reducible apply keeps_each | with_reducible apply keeps_gap
    | with_reducible apply keeps_giveUnit | with_reducible apply keeps_modIn | with_reducible apply keeps_put
    | with_reducible apply keeps_toDetection | (extract_lets +onlyGivenNames x; refine keeps_fun (x := x) ?_; subst x)
    | (exact Sub.mono hm rfl) | intro _
    | (extract_lets +onlyGivenNames x; refine keeps_have (msk := msk) (s0 := s0) (x := x) ?_ ?_; rotate_left; clear_value x; intro hx; rotate_right; subst x)
    | (extract_lets +onlyGivenNames x; refine keeps_have_fst (msk := msk) (s0 := s0) (x := x) ?_ ?_; rotate_left; clear_value x; intro hx; rotate_right; subst x)
    | (extract_lets +onlyGivenNames x; clear_value x) | with_reducible apply keeps_ite | with_reducible apply keeps_ite_fst
    | (simp only [stOf_mk]) | (with_reducible apply keeps_id) | with_reducible apply keeps_fst | dsimp only
    | with_reducible apply keeps_zp_bt

theorem keeps_inputFlush {msk : Nat} {s0 s : State} (n : Nat) (hk : Fr msk s0 s)
    (hm : Sub 268781572 msk := by exact Sub.mono (by assumption) rfl) :
    Fr msk s0 (State.inputFlush s n) := by
  unfold State.inputFlush
  repeat' first
    | with_reducible assumption | (exact Sub.mono hm rfl) | intro _
    | (extract_lets +onlyGivenNames x; refine keeps_have (msk := msk) (s0 := s0) (x := x) ?_ ?_; rotate_left; clear_value x; intro hx; rotate_right; subst x)
    | (extract_lets +onlyGivenNames x; refine keeps_have_fst (msk := msk) (s0 := s0) (x := x) ?_ ?_; rotate_left; clear_value x; intro hx; rotate_right; subst x)
    | (extract_lets +onlyGivenNames x; clear_value x) | with_reducible apply keeps_modIn | with_reducible apply keeps_rawGap
    | with_reducible apply keeps_ite | with_reducible apply keeps_ite_fst | (simp only [stOf_mk]) | split
    | with_reducible apply keeps_fst | dsimp only | with_reducible apply keeps_flow

theorem keeps_ownSyncReset {msk : Nat} {s0 s : State} (n : Nat) (t : DevTime) (now : Bool) (hk : Fr msk s0 s)
    (hm : Sub 4 msk := by exact Sub.mono (by assumption) rfl) :
    Fr msk s0 (State.ownSyncReset s n t now) := by
  unfold State.ownSyncReset
  repeat' first
    | with_reducible assumption | (exact Sub.mono hm rfl) | intro _
    | (extract_lets +onlyGivenNames x; refine keeps_have (msk := msk) (s0 := s0) (x := x) ?_ ?_; rotate_left; clear_value x; intro hx; rotate_right; subst x)
    | (extract_lets +onlyGivenNames x; clear_value x) | dsimp only | with_reducible apply keeps_flow

theorem keeps_settleFor {msk : Nat} {s0 s : State} (n : Nat) (t : DevTime) (k : Nat) (hk : Fr msk s0 s)
    (hm : Sub 2049 msk := by exact Sub.mono (by assumption) rfl) :
    Fr msk s0 (State.settleFor s n t k) := by
  unfold State.settleFor
  repeat' first
    | with_reducible assumption | (exact Sub.mono hm rfl) | intro _
    | (extract_lets +onlyGivenNames x; refine keeps_have (msk := msk) (s0 := s0) (x := x) ?_ ?_; rotate_left; clear_value x; intro hx; rotate_right; subst x)
    | (extract_lets +onlyGivenNames x; clear_value x) | with_reducible apply keeps_modIn | with_reducible apply keeps_put
    | with_reducible apply keeps_ite | dsimp only

theorem keeps_notchSwap {msk : Nat} {s0 s : State} (n : Nat) (t : DevTime) (hk : Fr msk s0 s)
    (hm : Sub 2049 msk := by exact Sub.mono (by assumption) rfl) :
    Fr msk s0 (State.notchSwap s n t) := by
  unfold State.notchSwap
  repeat' first
    | with_reducible assumption | (exact Sub.mono hm rfl) | intro _
    | (extract_lets +onlyGivenNames x; refine keeps_have (msk := msk) (s0 := s0) (x := x) ?_ ?_; rotate_left; clear_value x; intro hx; rotate_right; subst x)
    | (extract_lets +onlyGivenNames x; refine keeps_have_fst (msk := msk) (s0 := s0) (x := x) ?_ ?_; rotate_left; clear_value x; intro hx; rotate_right; subst x)
    | (extract_lets +onlyGivenNames x; clear_value x) | with_reducible apply keeps_each | with_reducible apply keeps_modIn
    | with_reducible apply keeps_setReg | with_reducible apply keeps_settleFor | with_reducible apply keeps_foldl
    | with_reducible apply keeps_foldl_fst | (simp only [stOf_mk]) | with_reducible apply keeps_fst | dsimp only

theorem keeps_notchReset {msk : Nat} {s0 s : State} (n : Nat) (t : DevTime) (hk : Fr msk s0 s)
    (hm : Sub 2049 msk := by exact Sub.mono (by assumption) rfl) :
    Fr msk s0 (State.notchReset s n t) := by
  unfold State.notchReset
  repeat' first
    | with_reducible assumption | (exact Sub.mono hm rfl) | intro _
    | (extract_lets +onlyGivenNames x; refine keeps_have (msk := msk) (s0 := s0) (x := x) ?_ ?_; rotate_left; clear_value x; intro hx; rotate_right; subst x)
    | (extract_lets +onlyGivenNames x; clear_value x) | with_reducible apply keeps_modIn
    | with_reducible apply keeps_settleFor | with_reducible apply keeps_foldl | with_reducible apply keeps_foldl_fst
    | dsimp only

theorem keeps_notchCtlWrite {msk : Nat} {s0 s : State} (n : Nat) (v : Nat) (hk : Fr msk s0 s)
    (hm : Sub 5 msk := by exact Sub.mono (by assumption) rfl) :
    Fr msk s0 (stOf (State.notchCtlWrite s n v)) := by
  unfold State.notchCtlWrite
  repeat' first
    | with_reducible assumption | (exact Sub.mono hm rfl) | intro _
    | (extract_lets +onlyGivenNames x; refine keeps_have (msk := msk) (s0 := s0) (x := x) ?_ ?_; rotate_left; clear_value x; intro hx; rotate_right; subst x)
    | (extract_lets +onlyGivenNames x; refine keeps_have_fst (msk := msk) (s0 := s0) (x := x) ?_ ?_; rotate_left; clear_value x; intro hx; rotate_right; subst x)
    | (extract_lets +onlyGivenNames x; clear_value x) | with_reducible apply keeps_answer
    | with_reducible apply keeps_askMarker | with_reducible apply keeps_put | with_reducible apply keeps_ite
    | with_reducible apply keeps_ite_fst | (simp only [stOf_mk]) | with_reducible apply keeps_fst | dsimp only

theorem keeps_notchSetWrite {msk : Nat} {s0 s : State} (n : Nat) (a : Nat) (v : Nat) (hk : Fr msk s0 s)
    (hm : Sub 1 msk := by exact Sub.mono (by assumption) rfl) :
    Fr msk s0 (stOf (State.notchSetWrite s n a v)) := by
  unfold State.notchSetWrite
  repeat' first
    | with_reducible assumption | (exact Sub.mono hm rfl) | intro _ | with_reducible apply keeps_answer
    | with_reducible apply keeps_plainWrite | with_reducible apply keeps_put | with_reducible apply keeps_ite
    | with_reducible apply keeps_ite_fst | (simp only [stOf_mk]) | with_reducible apply keeps_fst | dsimp only

theorem keeps_execNotchSwapArm {p : Fin 5} {n : Fin 16} {v : Word} {s s' : State}
    (e : execNotchSwapArm p n v s = .next s') : Fr 5 s s' := by
  unfold execNotchSwapArm at e
  refine keeps_next e ?_
  clear e
  have hk := Fr.refl 5 s
  have hm : Sub 5 5 := Sub.refl _
  repeat' first
    | with_reducible assumption | (exact Sub.mono hm rfl) | intro _ | with_reducible apply keeps_gatedWrite
    | with_reducible apply keeps_notchCtlWrite | dsimp only

theorem keeps_inputStart {msk : Nat} {s0 s : State} (n : Nat) (hk : Fr msk s0 s)
    (hm : Sub 268790789 msk := by exact Sub.mono (by assumption) rfl) :
    Fr msk s0 (State.inputStart s n) := by
  unfold State.inputStart
  repeat' first
    | with_reducible assumption | (exact Sub.mono hm rfl) | intro _
    | (extract_lets +onlyGivenNames x; refine keeps_have (msk := msk) (s0 := s0) (x := x) ?_ ?_; rotate_left; clear_value x; intro hx; rotate_right; subst x)
    | (extract_lets +onlyGivenNames x; clear_value x) | with_reducible apply keeps_inputFlush
    | with_reducible apply keeps_modIn | with_reducible apply keeps_retiePort | with_reducible apply keeps_ringRestart
    | with_reducible apply keeps_setTraffic | with_reducible apply keeps_ite | dsimp only

theorem keeps_inputStop {msk : Nat} {s0 s : State} (n : Nat) (hk : Fr msk s0 s)
    (hm : Sub 268781573 msk := by exact Sub.mono (by assumption) rfl) :
    Fr msk s0 (State.inputStop s n) := by
  unfold State.inputStop
  repeat' first
    | with_reducible assumption | (exact Sub.mono hm rfl) | intro _
    | (extract_lets +onlyGivenNames x; refine keeps_have (msk := msk) (s0 := s0) (x := x) ?_ ?_; rotate_left; clear_value x; intro hx; rotate_right; subst x)
    | (extract_lets +onlyGivenNames x; clear_value x) | with_reducible apply keeps_inputEnd
    | with_reducible apply keeps_modIn | with_reducible apply keeps_put | dsimp only

theorem keeps_sourceChanged {msk : Nat} {s0 s : State} (n : Nat) (hk : Fr msk s0 s)
    (hm : Sub 2053 msk := by exact Sub.mono (by assumption) rfl) :
    Fr msk s0 (State.sourceChanged s n) := by
  unfold State.sourceChanged
  repeat' first
    | with_reducible assumption | (exact Sub.mono hm rfl) | intro _
    | (extract_lets +onlyGivenNames x; refine keeps_have (msk := msk) (s0 := s0) (x := x) ?_ ?_; rotate_left; clear_value x; intro hx; rotate_right; subst x)
    | (extract_lets +onlyGivenNames x; clear_value x) | with_reducible apply keeps_modIn
    | with_reducible apply keeps_ownSyncReset | with_reducible apply keeps_settleFor | with_reducible apply keeps_ite
    | dsimp only

theorem keeps_afAfter {msk : Nat} {s0 : State} (n src : Nat) (r : State × Nat) (hr : Fr msk s0 (stOf r))
    (hm : Sub 268790789 msk := by exact Sub.mono (by assumption) rfl) :
    Fr msk s0 (stOf (afAfter n src r)) := by
  unfold afAfter
  split
  · exact hr
  · refine keeps_pair (keeps_put _ _ (keeps_ite (keeps_sourceChanged _ hr) hr))

theorem keeps_afCtlWrite {msk : Nat} {s0 s : State} (n v : Nat) (hk : Fr msk s0 s)
    (hm : Sub 268790789 msk := by exact Sub.mono (by assumption) rfl) : Fr msk s0 (stOf (State.afCtlWrite s n v)) := by
  unfold State.afCtlWrite
  dsimp only
  split
  · exact keeps_answer _ _ hk
  · split
    · exact keeps_answer _ _ hk
    · exact keeps_afAfter _ _ _ (keeps_enableWrite _ _ _ _ _ _ _ _ (fun u hu => keeps_inputStart _ hu)
        (fun u hu => keeps_inputStop _ hu) hk)

theorem keeps_execAfSourceChange {p : Fin 5} {n : Fin 16} {src : Fin 4} {s s' : State}
    (e : execAfSourceChange p n src s = .next s') : Fr 268790789 s s' := by
  unfold execAfSourceChange at e
  refine keeps_next e ?_
  clear e
  have hk := Fr.refl 268790789 s
  have hm : Sub 268790789 268790789 := Sub.refl _
  repeat' first
    | with_reducible assumption | (exact Sub.mono hm rfl) | intro _ | with_reducible apply keeps_afCtlWrite
    | with_reducible apply keeps_gatedWrite | dsimp only

theorem keeps_inputBack {msk : Nat} {s0 s : State} (n : Nat) (gap : Option Nat) (hk : Fr msk s0 s)
    (hm : Sub 268791463 msk := by exact Sub.mono (by assumption) rfl) :
    Fr msk s0 (State.inputBack s n gap) := by
  unfold State.inputBack
  repeat' first
    | with_reducible assumption | (exact Sub.mono hm rfl) | intro _
    | (extract_lets +onlyGivenNames x; refine keeps_have (msk := msk) (s0 := s0) (x := x) ?_ ?_; rotate_left; clear_value x; intro hx; rotate_right; subst x)
    | (extract_lets +onlyGivenNames x; clear_value x) | with_reducible apply keeps_gap
    | with_reducible apply keeps_inputFlush | with_reducible apply keeps_modIn | with_reducible apply keeps_ownSyncReset
    | with_reducible apply keeps_put | with_reducible apply keeps_rawGap | with_reducible apply keeps_ringLose
    | with_reducible apply keeps_ite | split | dsimp only

theorem keeps_inputResume {msk : Nat} {s0 s : State} (n : Nat) (cause : Nat) (hk : Fr msk s0 s)
    (hm : Sub 268791463 msk := by exact Sub.mono (by assumption) rfl) :
    Fr msk s0 (State.inputResume s n cause) := by
  unfold State.inputResume
  repeat' first
    | with_reducible assumption | (exact Sub.mono hm rfl) | intro _ | with_reducible apply keeps_inputBack
    | with_reducible apply keeps_ite | dsimp only

theorem keeps_inputSettled {msk : Nat} {s0 s : State} (n : Nat) (hk : Fr msk s0 s)
    (hm : Sub 268791463 msk := by exact Sub.mono (by assumption) rfl) :
    Fr msk s0 (State.inputSettled s n) := by
  unfold State.inputSettled
  repeat' first
    | with_reducible assumption | (exact Sub.mono hm rfl) | intro _
    | (extract_lets +onlyGivenNames x; refine keeps_have (msk := msk) (s0 := s0) (x := x) ?_ ?_; rotate_left; clear_value x; intro hx; rotate_right; subst x)
    | (extract_lets +onlyGivenNames x; clear_value x) | with_reducible apply keeps_inputBack
    | with_reducible apply keeps_modIn | with_reducible apply keeps_openStream | with_reducible apply keeps_ite | split
    | dsimp only

theorem keeps_execAfInputSettled {n : Fin 16} {s s' : State}
    (e : execAfInputSettled n s = .next s') : Fr 268791463 s s' := by
  unfold execAfInputSettled at e
  refine keeps_next e ?_
  clear e
  have hk := Fr.refl 268791463 s
  have hm : Sub 268791463 268791463 := Sub.refl _
  repeat' first
    | with_reducible assumption | (exact Sub.mono hm rfl) | intro _ | with_reducible apply keeps_inputSettled | dsimp only

theorem keeps_afSkewWrite {msk : Nat} {s0 s : State} (n : Nat) (v : Nat) (hk : Fr msk s0 s)
    (hm : Sub 2049 msk := by exact Sub.mono (by assumption) rfl) :
    Fr msk s0 (stOf (State.afSkewWrite s n v)) := by
  unfold State.afSkewWrite
  repeat' first
    | with_reducible assumption | (exact Sub.mono hm rfl) | intro _
    | (extract_lets +onlyGivenNames x; refine keeps_have (msk := msk) (s0 := s0) (x := x) ?_ ?_; rotate_left; clear_value x; intro hx; rotate_right; subst x)
    | (extract_lets +onlyGivenNames x; refine keeps_have_fst (msk := msk) (s0 := s0) (x := x) ?_ ?_; rotate_left; clear_value x; intro hx; rotate_right; subst x)
    | (extract_lets +onlyGivenNames x; clear_value x) | with_reducible apply keeps_answer | with_reducible apply keeps_modIn
    | with_reducible apply keeps_plainWrite | with_reducible apply keeps_put | with_reducible apply keeps_ite
    | with_reducible apply keeps_ite_fst | (simp only [stOf_mk]) | split | with_reducible apply keeps_fst | dsimp only

theorem keeps_execAfSkewWrite {p : Fin 5} {n : Fin 16} {v : Word} {s s' : State}
    (e : execAfSkewWrite p n v s = .next s') : Fr 2049 s s' := by
  unfold execAfSkewWrite at e
  refine keeps_next e ?_
  clear e
  have hk := Fr.refl 2049 s
  have hm : Sub 2049 2049 := Sub.refl _
  repeat' first
    | with_reducible assumption | (exact Sub.mono hm rfl) | intro _ | with_reducible apply keeps_afSkewWrite
    | with_reducible apply keeps_gatedWrite | dsimp only

theorem keeps_afOvrWrite {msk : Nat} {s0 s : State} (n : Nat) (v : Nat) (hk : Fr msk s0 s)
    (hm : Sub 1 msk := by exact Sub.mono (by assumption) rfl) :
    Fr msk s0 (stOf (State.afOvrWrite s n v)) := by
  unfold State.afOvrWrite
  repeat' first
    | with_reducible assumption | (exact Sub.mono hm rfl) | intro _ | with_reducible apply keeps_answer
    | with_reducible apply keeps_plainWrite | with_reducible apply keeps_put | with_reducible apply keeps_ite
    | with_reducible apply keeps_ite_fst | (simp only [stOf_mk]) | with_reducible apply keeps_fst | dsimp only

theorem keeps_afPatternWrite {msk : Nat} {s0 s : State} (n : Nat) (v : Nat) (hk : Fr msk s0 s)
    (hm : Sub 1 msk := by exact Sub.mono (by assumption) rfl) :
    Fr msk s0 (stOf (State.afPatternWrite s n v)) := by
  unfold State.afPatternWrite
  repeat' first
    | with_reducible assumption | (exact Sub.mono hm rfl) | intro _ | with_reducible apply keeps_answer
    | with_reducible apply keeps_plainWrite | with_reducible apply keeps_put | with_reducible apply keeps_ite
    | with_reducible apply keeps_ite_fst | (simp only [stOf_mk]) | with_reducible apply keeps_fst | dsimp only

theorem keeps_execOver6Trip {n : Fin 16} {t : DevTime} {k : Nat} {s s' : State}
    (e : execOver6Trip n t k s = .next s') : Fr 2049 s s' := by
  unfold execOver6Trip at e
  refine keeps_next e ?_
  clear e
  have hk := Fr.refl 2049 s
  have hm : Sub 2049 2049 := Sub.refl _
  repeat' first
    | with_reducible assumption | (exact Sub.mono hm rfl) | intro _
    | (extract_lets +onlyGivenNames x; refine keeps_have (msk := 2049) (s0 := s) (x := x) ?_ ?_; rotate_left; clear_value x; intro hx; rotate_right; subst x)
    | (extract_lets +onlyGivenNames x; clear_value x) | with_reducible apply keeps_countF | with_reducible apply keeps_modIn
    | dsimp only

theorem keeps_toneCtlWrite {msk : Nat} {s0 s : State} (r : Nat) (v : Nat) (hk : Fr msk s0 s)
    (hm : Sub 1 msk := by exact Sub.mono (by assumption) rfl) :
    Fr msk s0 (stOf (State.toneCtlWrite s r v)) := by
  unfold State.toneCtlWrite
  repeat' first
    | with_reducible assumption | (exact Sub.mono hm rfl) | intro _ | with_reducible apply keeps_answer
    | with_reducible apply keeps_enableWrite | with_reducible apply keeps_ite | with_reducible apply keeps_ite_fst
    | (simp only [stOf_mk]) | (with_reducible apply keeps_id) | with_reducible apply keeps_fst | dsimp only

theorem keeps_toneSetWrite {msk : Nat} {s0 s : State} (r v : Nat) (hk : Fr msk s0 s)
    (hm : Sub 1 msk := by exact Sub.mono (by assumption) rfl) :
    Fr msk s0 (stOf (State.toneSetWrite s r v)) :=
  keeps_ite_fst (keeps_pair hk) (keeps_pair (keeps_plainWrite _ _ hk))

theorem keeps_execAfToneCtlWrite {p : Fin 5} {i : Fin 4} {v : Word} {s s' : State}
    (e : execAfToneCtlWrite p i v s = .next s') : Fr 1 s s' := by
  unfold execAfToneCtlWrite at e
  refine keeps_next e ?_
  clear e
  have hk := Fr.refl 1 s
  have hm : Sub 1 1 := Sub.refl _
  repeat' first
    | with_reducible assumption | (exact Sub.mono hm rfl) | intro _ | with_reducible apply keeps_gatedWrite
    | with_reducible apply keeps_toneCtlWrite | dsimp only

/-! ### Calib -/

theorem keeps_caTempEval {msk : Nat} {s0 s : State} (i : Nat) (hk : Fr msk s0 s)
    (hm : Sub 2048 msk := by exact Sub.mono (by assumption) rfl) :
    Fr msk s0 (State.caTempEval s i) := by
  unfold State.caTempEval
  repeat' first
    | with_reducible assumption | (exact Sub.mono hm rfl) | intro _
    | (extract_lets +onlyGivenNames x; refine keeps_have (msk := msk) (s0 := s0) (x := x) ?_ ?_; rotate_left; clear_value x; intro hx; rotate_right; subst x)
    | (extract_lets +onlyGivenNames x; clear_value x) | with_reducible apply keeps_each | with_reducible apply keeps_modIn
    | with_reducible apply keeps_ite | dsimp only

theorem keeps_execCaTempEval {i : Fin 4} {s s' : State}
    (e : execCaTempEval i s = .next s') : Fr 2048 s s' := by
  unfold execCaTempEval at e
  refine keeps_next e ?_
  clear e
  have hk := Fr.refl 2048 s
  have hm : Sub 2048 2048 := Sub.refl _
  repeat' first
    | with_reducible assumption | (exact Sub.mono hm rfl) | intro _ | with_reducible apply keeps_caTempEval | dsimp only

theorem keeps_caBegin {msk : Nat} {s0 s : State} (i : Nat) (hk : Fr msk s0 s)
    (hm : Sub 268785669 msk := by exact Sub.mono (by assumption) rfl) :
    Fr msk s0 (State.caBegin s i) := by
  unfold State.caBegin
  repeat' first
    | with_reducible assumption | (exact Sub.mono hm rfl) | intro _
    | (extract_lets +onlyGivenNames x; refine keeps_have (msk := msk) (s0 := s0) (x := x) ?_ ?_; rotate_left; clear_value x; intro hx; rotate_right; subst x)
    | (extract_lets +onlyGivenNames x; clear_value x) | with_reducible apply keeps_inputEnd | split | dsimp only
    | with_reducible apply keeps_ca

theorem keeps_caCtlWrite {msk : Nat} {s0 s : State} (v : Nat) (hk : Fr msk s0 s)
    (hm : Sub 268785669 msk := by exact Sub.mono (by assumption) rfl) :
    Fr msk s0 (stOf (State.caCtlWrite s v)) := by
  unfold State.caCtlWrite
  repeat' first
    | with_reducible assumption | (exact Sub.mono hm rfl) | intro _
    | (extract_lets +onlyGivenNames x; refine keeps_have (msk := msk) (s0 := s0) (x := x) ?_ ?_; rotate_left; clear_value x; intro hx; rotate_right; subst x)
    | (extract_lets +onlyGivenNames x; refine keeps_have_fst (msk := msk) (s0 := s0) (x := x) ?_ ?_; rotate_left; clear_value x; intro hx; rotate_right; subst x)
    | (extract_lets +onlyGivenNames x; clear_value x) | with_reducible apply keeps_answer
    | with_reducible apply keeps_caBegin | with_reducible apply keeps_each | with_reducible apply keeps_put
    | with_reducible apply keeps_ite | with_reducible apply keeps_ite_fst | (simp only [stOf_mk])
    | with_reducible apply keeps_fst | dsimp only | with_reducible apply keeps_ca

theorem keeps_execCaGo {p : Fin 5} {s s' : State}
    (e : execCaGo p s = .next s') : Fr 268785669 s s' := by
  unfold execCaGo at e
  refine keeps_next e ?_
  clear e
  have hk := Fr.refl 268785669 s
  have hm : Sub 268785669 268785669 := Sub.refl _
  repeat' first
    | with_reducible assumption | (exact Sub.mono hm rfl) | intro _ | with_reducible apply keeps_caCtlWrite
    | with_reducible apply keeps_gatedWrite | dsimp only

theorem keeps_caJudge {msk : Nat} {s0 s : State} (item : Nat) (ok : Bool) (hk : Fr msk s0 s)
    (hm : Sub 268435623 msk := by exact Sub.mono (by assumption) rfl) :
    Fr msk s0 (State.caJudge s item ok) := by
  unfold State.caJudge
  repeat' first
    | with_reducible assumption | (exact Sub.mono hm rfl) | intro _
    | (extract_lets +onlyGivenNames x; refine keeps_have (msk := msk) (s0 := s0) (x := x) ?_ ?_; rotate_left; clear_value x; intro hx; rotate_right; subst x)
    | (extract_lets +onlyGivenNames x; clear_value x) | with_reducible apply keeps_beginLevel
    | with_reducible apply keeps_endLevel | with_reducible apply keeps_put | with_reducible apply keeps_setReplace
    | with_reducible apply keeps_ite | dsimp only

theorem keeps_caMeasDone {msk : Nat} {s0 s : State} (i : Nat) (x : InCal) (hk : Fr msk s0 s)
    (hm : Sub 268795559 msk := by exact Sub.mono (by assumption) rfl) :
    Fr msk s0 (State.caMeasDone s i x) := by
  unfold State.caMeasDone
  repeat' first
    | with_reducible assumption | (exact Sub.mono hm rfl) | intro _
    | (extract_lets +onlyGivenNames x; refine keeps_have (msk := msk) (s0 := s0) (x := x) ?_ ?_; rotate_left; clear_value x; intro hx; rotate_right; subst x)
    | (extract_lets +onlyGivenNames x; clear_value x) | with_reducible apply keeps_caBegin
    | with_reducible apply keeps_caJudge | with_reducible apply keeps_inputResume | with_reducible apply keeps_ite | split
    | dsimp only | with_reducible apply keeps_ca

theorem keeps_execCaInputMeasDone {i : Fin 4} {x : InCal} {s s' : State}
    (e : execCaInputMeasDone i x s = .next s') : Fr 268795559 s s' := by
  unfold execCaInputMeasDone at e
  refine keeps_next e ?_
  clear e
  have hk := Fr.refl 268795559 s
  have hm : Sub 268795559 268795559 := Sub.refl _
  repeat' first
    | with_reducible assumption | (exact Sub.mono hm rfl) | intro _ | with_reducible apply keeps_caMeasDone | dsimp only

theorem keeps_caExchange {msk : Nat} {s0 s : State} (c : Nat) (widths : List Nat) (delay : Int) (hk : Fr msk s0 s)
    (hm : Sub 4096 msk := by exact Sub.mono (by assumption) rfl) :
    Fr msk s0 (State.caExchange s c widths delay) := by
  unfold State.caExchange
  repeat' first
    | with_reducible assumption | (exact Sub.mono hm rfl) | intro _
    | (extract_lets +onlyGivenNames x; refine keeps_have (msk := msk) (s0 := s0) (x := x) ?_ ?_; rotate_left; clear_value x; intro hx; rotate_right; subst x)
    | (extract_lets +onlyGivenNames x; clear_value x) | with_reducible apply keeps_ite | split | dsimp only
    | with_reducible apply keeps_ca

theorem keeps_execCaInterpolatorExchange {c : Fin 32} {widths : List Nat} {delay : Int} {s s' : State}
    (e : execCaInterpolatorExchange c widths delay s = .next s') : Fr 4096 s s' := by
  unfold execCaInterpolatorExchange at e
  refine keeps_next e ?_
  clear e
  have hk := Fr.refl 4096 s
  have hm : Sub 4096 4096 := Sub.refl _
  repeat' first
    | with_reducible assumption | (exact Sub.mono hm rfl) | intro _ | with_reducible apply keeps_caExchange | dsimp only

theorem keeps_caStore {msk : Nat} {s0 s : State} (syn : List (Word × Word)) (hk : Fr msk s0 s)
    (hm : Sub 268439975 msk := by exact Sub.mono (by assumption) rfl) :
    Fr msk s0 (State.caStore s syn) := by
  unfold State.caStore
  repeat' first
    | with_reducible assumption | (exact Sub.mono hm rfl) | intro _
    | (extract_lets +onlyGivenNames x; refine keeps_have (msk := msk) (s0 := s0) (x := x) ?_ ?_; rotate_left; clear_value x; intro hx; rotate_right; subst x)
    | (extract_lets +onlyGivenNames x; refine keeps_have_fst (msk := msk) (s0 := s0) (x := x) ?_ ?_; rotate_left; clear_value x; intro hx; rotate_right; subst x)
    | (extract_lets +onlyGivenNames x; clear_value x) | with_reducible apply keeps_caJudge | with_reducible apply keeps_count
    | with_reducible apply keeps_each | with_reducible apply keeps_put | with_reducible apply keeps_putTime
    | with_reducible apply keeps_requestMarker | with_reducible apply keeps_setVal | with_reducible apply keeps_storeSlot
    | with_reducible apply keeps_foldl | with_reducible apply keeps_foldl_fst | with_reducible apply keeps_ite
    | with_reducible apply keeps_ite_fst | (simp only [stOf_mk]) | split | with_reducible apply keeps_fst | dsimp only
    | with_reducible apply keeps_ca

theorem keeps_execCaRunStore {syn : List (Word × Word)} {s s' : State}
    (e : execCaRunStore syn s = .next s') : Fr 268439975 s s' := by
  unfold execCaRunStore at e
  refine keeps_next e ?_
  clear e
  have hk := Fr.refl 268439975 s
  have hm : Sub 268439975 268439975 := Sub.refl _
  repeat' first
    | with_reducible assumption | (exact Sub.mono hm rfl) | intro _ | with_reducible apply keeps_caStore | dsimp only

theorem keeps_caStep {msk : Nat} {s0 s : State} (n : Nat) (k : Nat) (hk : Fr msk s0 s)
    (hm : Sub 6145 msk := by exact Sub.mono (by assumption) rfl) :
    Fr msk s0 (State.caStep s n k) := by
  unfold State.caStep
  repeat' first
    | with_reducible assumption | (exact Sub.mono hm rfl) | intro _
    | (extract_lets +onlyGivenNames x; refine keeps_have (msk := msk) (s0 := s0) (x := x) ?_ ?_; rotate_left; clear_value x; intro hx; rotate_right; subst x)
    | (extract_lets +onlyGivenNames x; clear_value x) | with_reducible apply keeps_modIn | with_reducible apply keeps_put
    | with_reducible apply keeps_ite | split | dsimp only | with_reducible apply keeps_ca

theorem keeps_caRampStep {msk : Nat} {s0 s : State} (n : Nat) (hk : Fr msk s0 s)
    (hm : Sub 6145 msk := by exact Sub.mono (by assumption) rfl) :
    Fr msk s0 (State.caRampStep s n) := by
  unfold State.caRampStep
  repeat' first
    | with_reducible assumption | (exact Sub.mono hm rfl) | intro _
    | (extract_lets +onlyGivenNames x; refine keeps_have (msk := msk) (s0 := s0) (x := x) ?_ ?_; rotate_left; clear_value x; intro hx; rotate_right; subst x)
    | (extract_lets +onlyGivenNames x; clear_value x) | with_reducible apply keeps_caStep | with_reducible apply keeps_ite
    | split | dsimp only

theorem keeps_execCaRampStep {n : Fin 16} {s s' : State}
    (e : execCaRampStep n s = .next s') : Fr 6145 s s' := by
  unfold execCaRampStep at e
  refine keeps_next e ?_
  clear e
  have hk := Fr.refl 6145 s
  have hm : Sub 6145 6145 := Sub.refl _
  repeat' first
    | with_reducible assumption | (exact Sub.mono hm rfl) | intro _ | with_reducible apply keeps_caRampStep | dsimp only

theorem keeps_calRampMarker {msk : Nat} {s0 s : State} (n : Nat) (t : DevTime) (mt : DevTime) (hk : Fr msk s0 s)
    (hm : Sub 6145 msk := by exact Sub.mono (by assumption) rfl) :
    Fr msk s0 (State.calRampMarker s n t mt) := by
  unfold State.calRampMarker
  repeat' first
    | with_reducible assumption | (exact Sub.mono hm rfl) | intro _
    | (extract_lets +onlyGivenNames x; refine keeps_have (msk := msk) (s0 := s0) (x := x) ?_ ?_; rotate_left; clear_value x; intro hx; rotate_right; subst x)
    | (extract_lets +onlyGivenNames x; refine keeps_have_fst (msk := msk) (s0 := s0) (x := x) ?_ ?_; rotate_left; clear_value x; intro hx; rotate_right; subst x)
    | (extract_lets +onlyGivenNames x; clear_value x) | with_reducible apply keeps_caStep | with_reducible apply keeps_modIn
    | with_reducible apply keeps_put | with_reducible apply keeps_ite | with_reducible apply keeps_ite_fst
    | (simp only [stOf_mk]) | split | with_reducible apply keeps_fst | dsimp only | with_reducible apply keeps_ca

/-! ### Raw -/

theorem keeps_inserted {msk : Nat} {s0 s : State} (stage : FirstStage) (m : MarkerReq) (hk : Fr msk s0 s)
    (hm : Sub 1 msk := by exact Sub.mono (by assumption) rfl) :
    Fr msk s0 (State.inserted s stage m) := by
  unfold State.inserted
  repeat' first
    | with_reducible assumption | (exact Sub.mono hm rfl) | intro _
    | (extract_lets +onlyGivenNames x; refine keeps_have (msk := msk) (s0 := s0) (x := x) ?_ ?_; rotate_left; clear_value x; intro hx; rotate_right; subst x)
    | (extract_lets +onlyGivenNames x; clear_value x) | with_reducible apply keeps_put | with_reducible apply keeps_ite
    | split | dsimp only

theorem keeps_afInsert {msk : Nat} {s0 s : State} (n : Nat) (lim : Int) (hk : Fr msk s0 s)
    (hm : Sub 268437509 msk := by exact Sub.mono (by assumption) rfl) :
    Fr msk s0 (State.afInsert s n lim) := by
  unfold State.afInsert
  repeat' first
    | with_reducible assumption | (exact Sub.mono hm rfl) | intro _
    | (extract_lets +onlyGivenNames x; refine keeps_have (msk := msk) (s0 := s0) (x := x) ?_ ?_; rotate_left; clear_value x; intro hx; rotate_right; subst x)
    | (extract_lets +onlyGivenNames x; clear_value x) | with_reducible apply keeps_insertMarker
    | with_reducible apply keeps_inserted | with_reducible apply keeps_modIn | with_reducible apply keeps_ite | split
    | dsimp only | with_reducible apply keeps_flow

theorem keeps_afInsertAll {msk : Nat} {s0 s : State} (n : Nat) (lim : Int) (x0 : Nat) (hk : Fr msk s0 s)
    (hm : Sub 268437509 msk := by exact Sub.mono (by assumption) rfl) : Fr msk s0 (State.afInsertAll s n lim x0) := by
  induction x0 generalizing s with
  | zero =>
    unfold State.afInsertAll
    repeat' first
      | with_reducible assumption | (exact Sub.mono hm rfl) | intro _ | with_reducible apply keeps_afInsert | split
      | dsimp only
  | succ n ih =>
    unfold State.afInsertAll
    repeat' first
      | with_reducible assumption | (exact Sub.mono hm rfl) | intro _ | with_reducible apply ih
      | with_reducible apply keeps_afInsert | split | dsimp only

theorem keeps_afAct {msk : Nat} {s0 s : State} (n : Nat) (p : DevTime × Marker) (hk : Fr msk s0 s)
    (hm : Sub 6145 msk := by exact Sub.mono (by assumption) rfl) :
    Fr msk s0 (State.afAct s n p) := by
  unfold State.afAct
  repeat' first
    | with_reducible assumption | (exact Sub.mono hm rfl) | intro _
    | (extract_lets +onlyGivenNames x; refine keeps_have (msk := msk) (s0 := s0) (x := x) ?_ ?_; rotate_left; clear_value x; intro hx; rotate_right; subst x)
    | (extract_lets +onlyGivenNames x; refine keeps_have_fst (msk := msk) (s0 := s0) (x := x) ?_ ?_; rotate_left; clear_value x; intro hx; rotate_right; subst x)
    | (extract_lets +onlyGivenNames x; clear_value x) | with_reducible apply keeps_calRampMarker
    | with_reducible apply keeps_notchReset | with_reducible apply keeps_notchSwap | (simp only [stOf_mk]) | split
    | with_reducible apply keeps_fst | dsimp only

theorem keeps_afActAll {msk : Nat} {s0 s : State} (n : Nat) (hk : Fr msk s0 s)
    (hm : Sub 6145 msk := by exact Sub.mono (by assumption) rfl) :
    Fr msk s0 (State.afActAll s n) := by
  unfold State.afActAll
  repeat' first
    | with_reducible assumption | (exact Sub.mono hm rfl) | intro _
    | (extract_lets +onlyGivenNames x; refine keeps_have (msk := msk) (s0 := s0) (x := x) ?_ ?_; rotate_left; clear_value x; intro hx; rotate_right; subst x)
    | (extract_lets +onlyGivenNames x; clear_value x) | with_reducible apply keeps_afAct | with_reducible apply keeps_each
    | with_reducible apply keeps_modIn | dsimp only

theorem keeps_afActNext {msk : Nat} {s0 s : State} (n : Nat) (t : MarkerType) (hk : Fr msk s0 s)
    (hm : Sub 6145 msk := by exact Sub.mono (by assumption) rfl) :
    Fr msk s0 (State.afActNext s n t) := by
  unfold State.afActNext
  repeat' first
    | with_reducible assumption | (exact Sub.mono hm rfl) | intro _
    | (extract_lets +onlyGivenNames x; refine keeps_have (msk := msk) (s0 := s0) (x := x) ?_ ?_; rotate_left; clear_value x; intro hx; rotate_right; subst x)
    | (extract_lets +onlyGivenNames x; refine keeps_have_fst (msk := msk) (s0 := s0) (x := x) ?_ ?_; rotate_left; clear_value x; intro hx; rotate_right; subst x)
    | (extract_lets +onlyGivenNames x; clear_value x) | with_reducible apply keeps_afAct | with_reducible apply keeps_modIn
    | with_reducible apply keeps_ite | with_reducible apply keeps_ite_fst | (simp only [stOf_mk]) | split
    | with_reducible apply keeps_fst | dsimp only

theorem keeps_execMarkerCoefSwapNotch {n : Fin 16} {s s' : State}
    (e : execMarkerCoefSwapNotch n s = .next s') : Fr 6145 s s' := by
  unfold execMarkerCoefSwapNotch at e
  refine keeps_next e ?_
  clear e
  have hk := Fr.refl 6145 s
  have hm : Sub 6145 6145 := Sub.refl _
  repeat' first
    | with_reducible assumption | (exact Sub.mono hm rfl) | intro _ | with_reducible apply keeps_afActNext | dsimp only

theorem keeps_execMarkerSyncResetNotch {n : Fin 16} {s s' : State}
    (e : execMarkerSyncResetNotch n s = .next s') : Fr 6145 s s' := by
  unfold execMarkerSyncResetNotch at e
  refine keeps_next e ?_
  clear e
  have hk := Fr.refl 6145 s
  have hm : Sub 6145 6145 := Sub.refl _
  repeat' first
    | with_reducible assumption | (exact Sub.mono hm rfl) | intro _ | with_reducible apply keeps_afActNext | dsimp only

theorem keeps_execMarkerCalRampInput {n : Fin 16} {s s' : State}
    (e : execMarkerCalRampInput n s = .next s') : Fr 6145 s s' := by
  unfold execMarkerCalRampInput at e
  refine keeps_next e ?_
  clear e
  have hk := Fr.refl 6145 s
  have hm : Sub 6145 6145 := Sub.refl _
  repeat' first
    | with_reducible assumption | (exact Sub.mono hm rfl) | intro _ | with_reducible apply keeps_afActNext | dsimp only

theorem keeps_feedFrame {msk : Nat} {s0 s : State} (n : Nat) (fs : Nat) (f : Frame) (run : RingRun) (l : List InTok) (hk : Fr msk s0 s)
    (hm : Sub 268789415 msk := by exact Sub.mono (by assumption) rfl) :
    Fr msk s0 (State.feedFrame s n fs f run l) := by
  unfold State.feedFrame
  repeat' first
    | with_reducible assumption | (exact Sub.mono hm rfl) | intro _
    | (extract_lets +onlyGivenNames x; refine keeps_have (msk := msk) (s0 := s0) (x := x) ?_ ?_; rotate_left; clear_value x; intro hx; rotate_right; subst x)
    | (extract_lets +onlyGivenNames x; clear_value x) | with_reducible apply keeps_count | with_reducible apply keeps_feed
    | with_reducible apply keeps_raiseAlarm | with_reducible apply keeps_ringWrite | with_reducible apply keeps_takeEpochs
    | with_reducible apply keeps_ite | dsimp only

theorem keeps_rawFrame {msk : Nat} {s0 s : State} (n : Nat) (xs : List Int) (il : IlCorr) (hk : Fr msk s0 s)
    (hm : Sub 268795559 msk := by exact Sub.mono (by assumption) rfl) :
    Fr msk s0 (State.rawFrame s n xs il) := by
  unfold State.rawFrame
  repeat' first
    | with_reducible assumption | (exact Sub.mono hm rfl) | intro _
    | (extract_lets +onlyGivenNames x; refine keeps_have (msk := msk) (s0 := s0) (x := x) ?_ ?_; rotate_left; clear_value x; intro hx; rotate_right; subst x)
    | (extract_lets +onlyGivenNames x; refine keeps_have_fst (msk := msk) (s0 := s0) (x := x) ?_ ?_; rotate_left; clear_value x; intro hx; rotate_right; subst x)
    | (extract_lets +onlyGivenNames x; clear_value x) | with_reducible apply keeps_afActAll
    | with_reducible apply keeps_afInsertAll | with_reducible apply keeps_clearFrameMarkers
    | with_reducible apply keeps_feedFrame | with_reducible apply keeps_inputTail | with_reducible apply keeps_modIn
    | with_reducible apply keeps_put | with_reducible apply keeps_sendFrame | with_reducible apply keeps_setPair
    | with_reducible apply keeps_ite | with_reducible apply keeps_ite_fst | (simp only [stOf_mk])
    | (with_reducible apply keeps_id) | with_reducible apply keeps_fst | dsimp only

theorem keeps_execAfRawFrameClose {n : Fin 16} {xs : List Int} {il : IlCorr} {s s' : State}
    (e : execAfRawFrameClose n xs il s = .next s') : Fr 268795559 s s' := by
  unfold execAfRawFrameClose at e
  refine keeps_next e ?_
  clear e
  have hk := Fr.refl 268795559 s
  have hm : Sub 268795559 268795559 := Sub.refl _
  repeat' first
    | with_reducible assumption | (exact Sub.mono hm rfl) | intro _ | with_reducible apply keeps_rawFrame | dsimp only

theorem keeps_syscalCtlWrite {msk : Nat} {s0 s : State} (n : Nat) (v : Nat) (hk : Fr msk s0 s)
    (hm : Sub 2053 msk := by exact Sub.mono (by assumption) rfl) :
    Fr msk s0 (stOf (State.syscalCtlWrite s n v)) := by
  unfold State.syscalCtlWrite
  repeat' first
    | with_reducible assumption | (exact Sub.mono hm rfl) | intro _
    | (extract_lets +onlyGivenNames x; refine keeps_have (msk := msk) (s0 := s0) (x := x) ?_ ?_; rotate_left; clear_value x; intro hx; rotate_right; subst x)
    | (extract_lets +onlyGivenNames x; refine keeps_have_fst (msk := msk) (s0 := s0) (x := x) ?_ ?_; rotate_left; clear_value x; intro hx; rotate_right; subst x)
    | (extract_lets +onlyGivenNames x; clear_value x) | with_reducible apply keeps_answer
    | with_reducible apply keeps_askMarker | with_reducible apply keeps_modIn | with_reducible apply keeps_put
    | with_reducible apply keeps_ite | with_reducible apply keeps_ite_fst | (simp only [stOf_mk]) | split
    | with_reducible apply keeps_fst | dsimp only

theorem keeps_execSyscalGo {p : Fin 5} {n : Fin 16} {v : Word} {s s' : State}
    (e : execSyscalGo p n v s = .next s') : Fr 2053 s s' := by
  unfold execSyscalGo at e
  refine keeps_next e ?_
  clear e
  have hk := Fr.refl 2053 s
  have hm : Sub 2053 2053 := Sub.refl _
  repeat' first
    | with_reducible assumption | (exact Sub.mono hm rfl) | intro _ | with_reducible apply keeps_gatedWrite
    | with_reducible apply keeps_syscalCtlWrite | dsimp only

theorem keeps_execSyscalApply {p : Fin 5} {n : Fin 16} {s s' : State}
    (e : execSyscalApply p n s = .next s') : Fr 2053 s s' := by
  unfold execSyscalApply at e
  refine keeps_next e ?_
  clear e
  have hk := Fr.refl 2053 s
  have hm : Sub 2053 2053 := Sub.refl _
  repeat' first
    | with_reducible assumption | (exact Sub.mono hm rfl) | intro _ | with_reducible apply keeps_gatedWrite
    | with_reducible apply keeps_syscalCtlWrite | dsimp only

theorem keeps_sysMeasDone {msk : Nat} {s0 s : State} (n : Nat) (hk : Fr msk s0 s)
    (hm : Sub 2049 msk := by exact Sub.mono (by assumption) rfl) :
    Fr msk s0 (State.sysMeasDone s n) := by
  unfold State.sysMeasDone
  repeat' first
    | with_reducible assumption | (exact Sub.mono hm rfl) | intro _
    | (extract_lets +onlyGivenNames x; refine keeps_have (msk := msk) (s0 := s0) (x := x) ?_ ?_; rotate_left; clear_value x; intro hx; rotate_right; subst x)
    | (extract_lets +onlyGivenNames x; clear_value x) | with_reducible apply keeps_count | with_reducible apply keeps_modIn
    | with_reducible apply keeps_put | with_reducible apply keeps_setVal | with_reducible apply keeps_ite | split
    | dsimp only

theorem keeps_execSyscalMeasDone {n : Fin 16} {s s' : State}
    (e : execSyscalMeasDone n s = .next s') : Fr 2049 s s' := by
  unfold execSyscalMeasDone at e
  refine keeps_next e ?_
  clear e
  have hk := Fr.refl 2049 s
  have hm : Sub 2049 2049 := Sub.refl _
  repeat' first
    | with_reducible assumption | (exact Sub.mono hm rfl) | intro _ | with_reducible apply keeps_sysMeasDone | dsimp only

theorem keeps_sysRampStep {msk : Nat} {s0 s : State} (n : Nat) (hk : Fr msk s0 s)
    (hm : Sub 2049 msk := by exact Sub.mono (by assumption) rfl) :
    Fr msk s0 (State.sysRampStep s n) := by
  unfold State.sysRampStep
  repeat' first
    | with_reducible assumption | (exact Sub.mono hm rfl) | intro _
    | (extract_lets +onlyGivenNames x; refine keeps_have (msk := msk) (s0 := s0) (x := x) ?_ ?_; rotate_left; clear_value x; intro hx; rotate_right; subst x)
    | (extract_lets +onlyGivenNames x; refine keeps_have_fst (msk := msk) (s0 := s0) (x := x) ?_ ?_; rotate_left; clear_value x; intro hx; rotate_right; subst x)
    | (extract_lets +onlyGivenNames x; clear_value x) | with_reducible apply keeps_modIn | with_reducible apply keeps_put
    | with_reducible apply keeps_setVal | with_reducible apply keeps_ite | with_reducible apply keeps_ite_fst
    | (simp only [stOf_mk]) | split | with_reducible apply keeps_fst | dsimp only

theorem keeps_execSyscalRampStep {n : Fin 16} {s s' : State}
    (e : execSyscalRampStep n s = .next s') : Fr 2049 s s' := by
  unfold execSyscalRampStep at e
  refine keeps_next e ?_
  clear e
  have hk := Fr.refl 2049 s
  have hm : Sub 2049 2049 := Sub.refl _
  repeat' first
    | with_reducible assumption | (exact Sub.mono hm rfl) | intro _ | with_reducible apply keeps_sysRampStep | dsimp only

/-! ### Zoom -/

theorem keeps_modZp {msk : Nat} {s0 s : State} (z : Nat) (f : ZpSt → ZpSt) (hk : Fr msk s0 s)
    (hm : Sub 16384 msk := by exact Sub.mono (by assumption) rfl) :
    Fr msk s0 (State.modZp s z f) := by
  unfold State.modZp
  repeat' first
    | with_reducible assumption | (exact Sub.mono hm rfl) | intro _
    | (extract_lets +onlyGivenNames x; refine keeps_have (msk := msk) (s0 := s0) (x := x) ?_ ?_; rotate_left; clear_value x; intro hx; rotate_right; subst x)
    | (extract_lets +onlyGivenNames x; clear_value x) | dsimp only | with_reducible apply keeps_zp

theorem keeps_ztuDone {msk : Nat} {s0 s : State} (r : Nat) (i : Nat) (hk : Fr msk s0 s)
    (hm : Sub 537034752 msk := by exact Sub.mono (by assumption) rfl) :
    Fr msk s0 (State.ztuDone s r i) := by
  unfold State.ztuDone
  repeat' first
    | with_reducible assumption | (exact Sub.mono hm rfl) | intro _
    | (extract_lets +onlyGivenNames x; refine keeps_have (msk := msk) (s0 := s0) (x := x) ?_ ?_; rotate_left; clear_value x; intro hx; rotate_right; subst x)
    | (extract_lets +onlyGivenNames x; refine keeps_have_fst (msk := msk) (s0 := s0) (x := x) ?_ ?_; rotate_left; clear_value x; intro hx; rotate_right; subst x)
    | (extract_lets +onlyGivenNames x; clear_value x) | with_reducible apply keeps_toDetection
    | with_reducible apply keeps_useFree | with_reducible apply keeps_ite | with_reducible apply keeps_ite_fst
    | (simp only [stOf_mk]) | split | with_reducible apply keeps_fst | dsimp only | with_reducible apply keeps_ztu

theorem keeps_ztuFinish {msk : Nat} {s0 s : State} (z : Nat) (hk : Fr msk s0 s)
    (hm : Sub 537034752 msk := by exact Sub.mono (by assumption) rfl) :
    Fr msk s0 (State.ztuFinish s z) := by
  unfold State.ztuFinish
  repeat' first
    | with_reducible assumption | (exact Sub.mono hm rfl) | intro _
    | (extract_lets +onlyGivenNames x; refine keeps_have (msk := msk) (s0 := s0) (x := x) ?_ ?_; rotate_left; clear_value x; intro hx; rotate_right; subst x)
    | (extract_lets +onlyGivenNames x; clear_value x) | with_reducible apply keeps_each | with_reducible apply keeps_ztuDone
    | dsimp only

theorem keeps_ztuRestart {msk : Nat} {s0 s : State} (z : Nat) (hk : Fr msk s0 s)
    (hm : Sub 537034752 msk := by exact Sub.mono (by assumption) rfl) :
    Fr msk s0 (State.ztuRestart s z) := by
  unfold State.ztuRestart
  repeat' first
    | with_reducible assumption | (exact Sub.mono hm rfl) | intro _
    | (extract_lets +onlyGivenNames x; refine keeps_have (msk := msk) (s0 := s0) (x := x) ?_ ?_; rotate_left; clear_value x; intro hx; rotate_right; subst x)
    | (extract_lets +onlyGivenNames x; refine keeps_have_fst (msk := msk) (s0 := s0) (x := x) ?_ ?_; rotate_left; clear_value x; intro hx; rotate_right; subst x)
    | (extract_lets +onlyGivenNames x; clear_value x) | with_reducible apply keeps_ztuFinish | (simp only [stOf_mk])
    | with_reducible apply keeps_fst | dsimp only | with_reducible apply keeps_ztu

theorem keeps_zpLost {msk : Nat} {s0 s : State} (z : Nat) (t : DevTime) (len : Nat) (cause : Nat) (final : Bool) (hk : Fr msk s0 s)
    (hm : Sub 805732356 msk := by exact Sub.mono (by assumption) rfl) :
    Fr msk s0 (State.zpLost s z t len cause final) := by
  unfold State.zpLost
  repeat' first
    | with_reducible assumption | (exact Sub.mono hm rfl) | intro _
    | (extract_lets +onlyGivenNames x; refine keeps_have (msk := msk) (s0 := s0) (x := x) ?_ ?_; rotate_left; clear_value x; intro hx; rotate_right; subst x)
    | (extract_lets +onlyGivenNames x; clear_value x) | with_reducible apply keeps_each | with_reducible apply keeps_gap
    | with_reducible apply keeps_giveUnit | with_reducible apply keeps_toDetection | with_reducible apply keeps_ztuFinish
    | dsimp only

theorem keeps_zpLoss {msk : Nat} {s0 s : State} (z : Nat) (t : DevTime) (len : Nat) (cause : Nat) (final : Bool) (hk : Fr msk s0 s)
    (hm : Sub 805732356 msk := by exact Sub.mono (by assumption) rfl) :
    Fr msk s0 (State.zpLoss s z t len cause final) := by
  unfold State.zpLoss
  repeat' first
    | with_reducible assumption | (exact Sub.mono hm rfl) | intro _ | with_reducible apply keeps_gap
    | with_reducible apply keeps_zpLost | dsimp only

theorem keeps_zpReset {msk : Nat} {s0 s : State} (z : Nat) (hk : Fr msk s0 s)
    (hm : Sub 537051137 msk := by exact Sub.mono (by assumption) rfl) :
    Fr msk s0 (State.zpReset s z) := by
  unfold State.zpReset
  repeat' first
    | with_reducible assumption | (exact Sub.mono hm rfl) | intro _
    | (extract_lets +onlyGivenNames x; refine keeps_have (msk := msk) (s0 := s0) (x := x) ?_ ?_; rotate_left; clear_value x; intro hx; rotate_right; subst x)
    | (extract_lets +onlyGivenNames x; clear_value x) | with_reducible apply keeps_modZp | with_reducible apply keeps_put
    | with_reducible apply keeps_ztuRestart | with_reducible apply keeps_ite | dsimp only

theorem keeps_zpExchange {msk : Nat} {s0 s : State} (z : Nat) (hk : Fr msk s0 s)
    (hm : Sub 1 msk := by exact Sub.mono (by assumption) rfl) :
    Fr msk s0 (State.zpExchange s z) := by
  unfold State.zpExchange
  repeat' first
    | with_reducible assumption | (exact Sub.mono hm rfl) | intro _
    | (extract_lets +onlyGivenNames x; refine keeps_have (msk := msk) (s0 := s0) (x := x) ?_ ?_; rotate_left; clear_value x; intro hx; rotate_right; subst x)
    | (extract_lets +onlyGivenNames x; refine keeps_have_fst (msk := msk) (s0 := s0) (x := x) ?_ ?_; rotate_left; clear_value x; intro hx; rotate_right; subst x)
    | (extract_lets +onlyGivenNames x; clear_value x) | with_reducible apply keeps_each | with_reducible apply keeps_setReg
    | (simp only [stOf_mk]) | with_reducible apply keeps_fst | dsimp only

theorem keeps_zpSwap {msk : Nat} {s0 s : State} (z : Nat) (hk : Fr msk s0 s)
    (hm : Sub 16385 msk := by exact Sub.mono (by assumption) rfl) :
    Fr msk s0 (State.zpSwap s z) := by
  unfold State.zpSwap
  repeat' first
    | with_reducible assumption | (exact Sub.mono hm rfl) | intro _
    | (extract_lets +onlyGivenNames x; refine keeps_have (msk := msk) (s0 := s0) (x := x) ?_ ?_; rotate_left; clear_value x; intro hx; rotate_right; subst x)
    | (extract_lets +onlyGivenNames x; clear_value x) | with_reducible apply keeps_modZp | with_reducible apply keeps_put
    | with_reducible apply keeps_putTime | with_reducible apply keeps_zpExchange | with_reducible apply keeps_ite | split
    | dsimp only

theorem keeps_zpWatch {msk : Nat} {s0 s : State} (z : Nat) (x : ZpSt) (hk : Fr msk s0 s)
    (hm : Sub 262144 msk := by exact Sub.mono (by assumption) rfl) :
    Fr msk s0 (State.zpWatch s z x) := by
  unfold State.zpWatch
  repeat' first
    | with_reducible assumption | (exact Sub.mono hm rfl) | intro _
    | (extract_lets +onlyGivenNames x; refine keeps_have (msk := msk) (s0 := s0) (x := x) ?_ ?_; rotate_left; clear_value x; intro hx; rotate_right; subst x)
    | (extract_lets +onlyGivenNames x; refine keeps_have_fst (msk := msk) (s0 := s0) (x := x) ?_ ?_; rotate_left; clear_value x; intro hx; rotate_right; subst x)
    | (extract_lets +onlyGivenNames x; clear_value x) | with_reducible apply keeps_each | with_reducible apply keeps_giveUnit
    | (simp only [stOf_mk]) | with_reducible apply keeps_fst | dsimp only

theorem keeps_zpSend {msk : Nat} {s0 s : State} (z : Nat) (hk : Fr msk s0 s)
    (hm : Sub 268713988 msk := by exact Sub.mono (by assumption) rfl) :
    Fr msk s0 (State.zpSend s z) := by
  unfold State.zpSend
  repeat' first
    | with_reducible assumption | (exact Sub.mono hm rfl) | intro _
    | (extract_lets +onlyGivenNames x; refine keeps_have (msk := msk) (s0 := s0) (x := x) ?_ ?_; rotate_left; clear_value x; intro hx; rotate_right; subst x)
    | (extract_lets +onlyGivenNames x; refine keeps_have_fst (msk := msk) (s0 := s0) (x := x) ?_ ?_; rotate_left; clear_value x; intro hx; rotate_right; subst x)
    | (extract_lets +onlyGivenNames x; clear_value x) | with_reducible apply keeps_modZp
    | with_reducible apply keeps_sendFrame | with_reducible apply keeps_zpWatch | with_reducible apply keeps_ite
    | with_reducible apply keeps_ite_fst | (simp only [stOf_mk]) | with_reducible apply keeps_fst | dsimp only

theorem keeps_ztuTake {msk : Nat} {s0 s : State} (z : Nat) (m : Nat) (p : Int × Int × Bool × Bool × Bool) (hk : Fr msk s0 s)
    (hm : Sub 32768 msk := by exact Sub.mono (by assumption) rfl) :
    Fr msk s0 (State.ztuTake s z m p) := by
  unfold State.ztuTake
  repeat' first
    | with_reducible assumption | (exact Sub.mono hm rfl) | intro _
    | (extract_lets +onlyGivenNames x; refine keeps_have (msk := msk) (s0 := s0) (x := x) ?_ ?_; rotate_left; clear_value x; intro hx; rotate_right; subst x)
    | (extract_lets +onlyGivenNames x; clear_value x) | with_reducible apply keeps_foldl
    | with_reducible apply keeps_foldl_fst | split | dsimp only | with_reducible apply keeps_ztu

theorem keeps_zpSat {msk : Nat} {s0 s : State} (z : Nat) (n : Nat) (hk : Fr msk s0 s)
    (hm : Sub 1 msk := by exact Sub.mono (by assumption) rfl) :
    Fr msk s0 (State.zpSat s z n) := by
  unfold State.zpSat
  repeat' first
    | with_reducible assumption | (exact Sub.mono hm rfl) | intro _ | with_reducible apply keeps_count
    | with_reducible apply keeps_put | with_reducible apply keeps_ite | dsimp only

theorem keeps_zpOutput {msk : Nat} {s0 s : State} (z : Nat) (w : Int × Int) (hk : Fr msk s0 s)
    (hm : Sub 268746757 msk := by exact Sub.mono (by assumption) rfl) :
    Fr msk s0 (State.zpOutput s z w) := by
  unfold State.zpOutput
  repeat' first
    | with_reducible assumption | with_reducible apply keeps_modZp | with_reducible apply keeps_put
    | with_reducible apply keeps_zpSat | with_reducible apply keeps_zpSend | with_reducible apply keeps_zpSwap
    | with_reducible apply keeps_ztuTake | (extract_lets +onlyGivenNames x; refine keeps_fun (x := x) ?_; subst x)
    | (exact Sub.mono hm rfl) | intro _
    | (extract_lets +onlyGivenNames x; refine keeps_have (msk := msk) (s0 := s0) (x := x) ?_ ?_; rotate_left; clear_value x; intro hx; rotate_right; subst x)
    | (extract_lets +onlyGivenNames x; refine keeps_have_fst (msk := msk) (s0 := s0) (x := x) ?_ ?_; rotate_left; clear_value x; intro hx; rotate_right; subst x)
    | (extract_lets +onlyGivenNames x; clear_value x) | with_reducible apply keeps_ite | with_reducible apply keeps_ite_fst
    | (simp only [stOf_mk]) | split | with_reducible apply keeps_fst | dsimp only

theorem keeps_zpSample {msk : Nat} {s0 s : State} (z : Nat) (v : Int) (ovr : Bool) (cal : Bool) (hk : Fr msk s0 s)
    (hm : Sub 268746757 msk := by exact Sub.mono (by assumption) rfl) :
    Fr msk s0 (State.zpSample s z v ovr cal) := by
  unfold State.zpSample
  repeat' first
    | with_reducible assumption | (exact Sub.mono hm rfl) | intro _
    | (extract_lets +onlyGivenNames x; refine keeps_have (msk := msk) (s0 := s0) (x := x) ?_ ?_; rotate_left; clear_value x; intro hx; rotate_right; subst x)
    | (extract_lets +onlyGivenNames x; refine keeps_have_fst (msk := msk) (s0 := s0) (x := x) ?_ ?_; rotate_left; clear_value x; intro hx; rotate_right; subst x)
    | (extract_lets +onlyGivenNames x; clear_value x) | with_reducible apply keeps_modZp
    | with_reducible apply keeps_zpOutput | with_reducible apply keeps_zpSat | with_reducible apply keeps_ite
    | with_reducible apply keeps_ite_fst | (simp only [stOf_mk]) | split | with_reducible apply keeps_fst | dsimp only

theorem keeps_zpMark {msk : Nat} {s0 s : State} (z : Nat) (m : Marker) (hk : Fr msk s0 s)
    (hm : Sub 805748741 msk := by exact Sub.mono (by assumption) rfl) :
    Fr msk s0 (State.zpMark s z m) := by
  unfold State.zpMark
  repeat' first
    | with_reducible assumption | with_reducible apply keeps_count | with_reducible apply keeps_modZp
    | with_reducible apply keeps_openStream | with_reducible apply keeps_put | with_reducible apply keeps_zpLost
    | with_reducible apply keeps_zpReset | with_reducible apply keeps_zpSend | with_reducible apply keeps_zpSwap
    | (extract_lets +onlyGivenNames x; refine keeps_fun (x := x) ?_; subst x) | (exact Sub.mono hm rfl) | intro _
    | (extract_lets +onlyGivenNames x; refine keeps_have (msk := msk) (s0 := s0) (x := x) ?_ ?_; rotate_left; clear_value x; intro hx; rotate_right; subst x)
    | (extract_lets +onlyGivenNames x; clear_value x) | with_reducible apply keeps_ite | split | dsimp only

theorem keeps_zpGap {msk : Nat} {s0 s : State} (z : Nat) (g : GapRec) (hk : Fr msk s0 s)
    (hm : Sub 805748741 msk := by exact Sub.mono (by assumption) rfl) :
    Fr msk s0 (State.zpGap s z g) := by
  unfold State.zpGap
  repeat' first
    | with_reducible assumption | (exact Sub.mono hm rfl) | intro _
    | (extract_lets +onlyGivenNames x; refine keeps_have (msk := msk) (s0 := s0) (x := x) ?_ ?_; rotate_left; clear_value x; intro hx; rotate_right; subst x)
    | (extract_lets +onlyGivenNames x; clear_value x) | with_reducible apply keeps_gap | with_reducible apply keeps_modZp
    | with_reducible apply keeps_put | with_reducible apply keeps_zpLoss | with_reducible apply keeps_zpSend
    | with_reducible apply keeps_ite | dsimp only

theorem keeps_zpFrameStart {msk : Nat} {s0 s : State} (z : Nat) (k : Int) (fs : Nat) (hk : Fr msk s0 s)
    (hm : Sub 805486597 msk := by exact Sub.mono (by assumption) rfl) :
    Fr msk s0 (State.zpFrameStart s z k fs) := by
  unfold State.zpFrameStart
  repeat' first
    | with_reducible assumption | (exact Sub.mono hm rfl) | intro _
    | (extract_lets +onlyGivenNames x; refine keeps_have (msk := msk) (s0 := s0) (x := x) ?_ ?_; rotate_left; clear_value x; intro hx; rotate_right; subst x)
    | (extract_lets +onlyGivenNames x; clear_value x) | with_reducible apply keeps_gap | with_reducible apply keeps_modZp
    | with_reducible apply keeps_openStream | with_reducible apply keeps_zpReset | with_reducible apply keeps_zpSwap
    | with_reducible apply keeps_ite | split | dsimp only

theorem keeps_zpToken {msk : Nat} {s0 s : State} (z : Nat) (t : InTok) (hk : Fr msk s0 s)
    (hm : Sub 805748741 msk := by exact Sub.mono (by assumption) rfl) :
    Fr msk s0 (State.zpToken s z t) := by
  unfold State.zpToken
  repeat' first
    | with_reducible assumption | (exact Sub.mono hm rfl) | intro _
    | (extract_lets +onlyGivenNames x; refine keeps_have (msk := msk) (s0 := s0) (x := x) ?_ ?_; rotate_left; clear_value x; intro hx; rotate_right; subst x)
    | (extract_lets +onlyGivenNames x; clear_value x) | with_reducible apply keeps_gap | with_reducible apply keeps_modZp
    | with_reducible apply keeps_zpFrameStart | with_reducible apply keeps_zpGap | with_reducible apply keeps_zpMark
    | with_reducible apply keeps_zpSample | with_reducible apply keeps_zpSend | with_reducible apply keeps_ite | split
    | dsimp only

theorem keeps_zpPull {msk : Nat} {s0 s : State} (z : Nat) (p : PullStop) (x0 : List InTok) (hk : Fr msk s0 s)
    (hm : Sub 805748741 msk := by exact Sub.mono (by assumption) rfl) : Fr msk s0 (State.zpPull z p x0 s) := by
  induction x0 generalizing s with
  | nil =>
    unfold State.zpPull
    repeat' first
      | with_reducible assumption | (exact Sub.mono hm rfl) | intro _
      | (extract_lets +onlyGivenNames x; refine keeps_have (msk := msk) (s0 := s0) (x := x) ?_ ?_; rotate_left; clear_value x; intro hx; rotate_right; subst x)
      | (extract_lets +onlyGivenNames x; clear_value x) | with_reducible apply keeps_modZp
      | with_reducible apply keeps_zpToken | with_reducible apply keeps_ite | split | dsimp only
  | cons a l ih =>
    unfold State.zpPull
    repeat' first
      | with_reducible assumption | (exact Sub.mono hm rfl) | intro _
      | (extract_lets +onlyGivenNames x; refine keeps_have (msk := msk) (s0 := s0) (x := x) ?_ ?_; rotate_left; clear_value x; intro hx; rotate_right; subst x)
      | (extract_lets +onlyGivenNames x; clear_value x) | with_reducible apply ih | with_reducible apply keeps_modZp
      | with_reducible apply keeps_zpToken | with_reducible apply keeps_ite | split | dsimp only

theorem keeps_zpRun {msk : Nat} {s0 s : State} (z : Nat) (p : PullStop) (hk : Fr msk s0 s)
    (hm : Sub 805748741 msk := by exact Sub.mono (by assumption) rfl) :
    Fr msk s0 (State.zpRun s z p) := by
  unfold State.zpRun
  repeat' first
    | with_reducible assumption | (exact Sub.mono hm rfl) | intro _ | with_reducible apply keeps_inIsland
    | with_reducible apply keeps_zpPull | with_reducible apply keeps_ite | split | dsimp only

theorem keeps_execZpFrameClose {z : Fin 64} {s s' : State}
    (e : execZpFrameClose z s = .next s') : Fr 805748741 s s' := by
  unfold execZpFrameClose at e
  refine keeps_next e ?_
  clear e
  have hk := Fr.refl 805748741 s
  have hm : Sub 805748741 805748741 := Sub.refl _
  repeat' first
    | with_reducible assumption | (exact Sub.mono hm rfl) | intro _ | with_reducible apply keeps_zpRun | dsimp only

theorem keeps_execMarkerCoefSwapZoom {z : Fin 64} {s s' : State}
    (e : execMarkerCoefSwapZoom z s = .next s') : Fr 805748741 s s' := by
  unfold execMarkerCoefSwapZoom at e
  refine keeps_next e ?_
  clear e
  have hk := Fr.refl 805748741 s
  have hm : Sub 805748741 805748741 := Sub.refl _
  repeat' first
    | with_reducible assumption | (exact Sub.mono hm rfl) | intro _ | with_reducible apply keeps_zpRun | dsimp only

theorem keeps_execMarkerSyncResetZoom {z : Fin 64} {s s' : State}
    (e : execMarkerSyncResetZoom z s = .next s') : Fr 805748741 s s' := by
  unfold execMarkerSyncResetZoom at e
  refine keeps_next e ?_
  clear e
  have hk := Fr.refl 805748741 s
  have hm : Sub 805748741 805748741 := Sub.refl _
  repeat' first
    | with_reducible assumption | (exact Sub.mono hm rfl) | intro _ | with_reducible apply keeps_zpRun | dsimp only

theorem keeps_execZpFadeEnd {z : Fin 64} {s s' : State}
    (e : execZpFadeEnd z s = .next s') : Fr 805748741 s s' := by
  unfold execZpFadeEnd at e
  refine keeps_next e ?_
  clear e
  have hk := Fr.refl 805748741 s
  have hm : Sub 805748741 805748741 := Sub.refl _
  repeat' first
    | with_reducible assumption | (exact Sub.mono hm rfl) | intro _ | with_reducible apply keeps_zpRun | dsimp only

theorem keeps_execZpInputGap {z : Fin 64} {s s' : State}
    (e : execZpInputGap z s = .next s') : Fr 805748741 s s' := by
  unfold execZpInputGap at e
  refine keeps_next e ?_
  clear e
  have hk := Fr.refl 805748741 s
  have hm : Sub 805748741 805748741 := Sub.refl _
  repeat' first
    | with_reducible assumption | (exact Sub.mono hm rfl) | intro _ | with_reducible apply keeps_gap
    | with_reducible apply keeps_zpRun | dsimp only

theorem keeps_zpStart {msk : Nat} {s0 s : State} (z : Nat) (hk : Fr msk s0 s)
    (hm : Sub 16384 msk := by exact Sub.mono (by assumption) rfl) :
    Fr msk s0 (State.zpStart s z) := by
  unfold State.zpStart
  repeat' first
    | with_reducible assumption | (exact Sub.mono hm rfl) | intro _ | with_reducible apply keeps_modZp
    | with_reducible apply keeps_ite | dsimp only

theorem keeps_zpStop {msk : Nat} {s0 s : State} (z : Nat) (hk : Fr msk s0 s)
    (hm : Sub 268713989 msk := by exact Sub.mono (by assumption) rfl) :
    Fr msk s0 (State.zpStop s z) := by
  unfold State.zpStop
  repeat' first
    | with_reducible assumption | (exact Sub.mono hm rfl) | intro _
    | (extract_lets +onlyGivenNames x; refine keeps_have (msk := msk) (s0 := s0) (x := x) ?_ ?_; rotate_left; clear_value x; intro hx; rotate_right; subst x)
    | (extract_lets +onlyGivenNames x; clear_value x) | with_reducible apply keeps_cancelMarker
    | with_reducible apply keeps_modZp | with_reducible apply keeps_put | with_reducible apply keeps_setVal
    | with_reducible apply keeps_zpSend | dsimp only

theorem keeps_zpCtlWrite {msk : Nat} {s0 s : State} (z : Nat) (v : Nat) (hk : Fr msk s0 s)
    (hm : Sub 268713989 msk := by exact Sub.mono (by assumption) rfl) :
    Fr msk s0 (stOf (State.zpCtlWrite s z v)) := by
  unfold State.zpCtlWrite
  repeat' first
    | with_reducible assumption | (exact Sub.mono hm rfl) | intro _ | with_reducible apply keeps_answer
    | with_reducible apply keeps_enableWrite | with_reducible apply keeps_zpStart | with_reducible apply keeps_zpStop
    | with_reducible apply keeps_ite | with_reducible apply keeps_ite_fst | (simp only [stOf_mk])
    | with_reducible apply keeps_fst | dsimp only

theorem keeps_zpCfgWrite {msk : Nat} {s0 s : State} (z : Nat) (v : Nat) (hk : Fr msk s0 s)
    (hm : Sub 1 msk := by exact Sub.mono (by assumption) rfl) :
    Fr msk s0 (stOf (State.zpCfgWrite s z v)) := by
  unfold State.zpCfgWrite
  repeat' first
    | with_reducible assumption | (exact Sub.mono hm rfl) | intro _
    | (extract_lets +onlyGivenNames x; refine keeps_have (msk := msk) (s0 := s0) (x := x) ?_ ?_; rotate_left; clear_value x; intro hx; rotate_right; subst x)
    | (extract_lets +onlyGivenNames x; refine keeps_have_fst (msk := msk) (s0 := s0) (x := x) ?_ ?_; rotate_left; clear_value x; intro hx; rotate_right; subst x)
    | (extract_lets +onlyGivenNames x; clear_value x) | with_reducible apply keeps_answer
    | with_reducible apply keeps_plainWrite | with_reducible apply keeps_put | with_reducible apply keeps_ite
    | with_reducible apply keeps_ite_fst | (simp only [stOf_mk]) | split | with_reducible apply keeps_fst | dsimp only

theorem keeps_zpShadowWrite {msk : Nat} {s0 s : State} (z : Nat) (a : Nat) (v : Nat) (hk : Fr msk s0 s)
    (hm : Sub 1 msk := by exact Sub.mono (by assumption) rfl) :
    Fr msk s0 (stOf (State.zpShadowWrite s z a v)) := by
  unfold State.zpShadowWrite
  repeat' first
    | with_reducible assumption | (exact Sub.mono hm rfl) | intro _
    | (extract_lets +onlyGivenNames x; refine keeps_have (msk := msk) (s0 := s0) (x := x) ?_ ?_; rotate_left; clear_value x; intro hx; rotate_right; subst x)
    | (extract_lets +onlyGivenNames x; refine keeps_have_fst (msk := msk) (s0 := s0) (x := x) ?_ ?_; rotate_left; clear_value x; intro hx; rotate_right; subst x)
    | (extract_lets +onlyGivenNames x; clear_value x) | with_reducible apply keeps_answer
    | with_reducible apply keeps_plainWrite | with_reducible apply keeps_put | with_reducible apply keeps_ite
    | with_reducible apply keeps_ite_fst | (simp only [stOf_mk]) | with_reducible apply keeps_fst | dsimp only

theorem keeps_zpArm {msk : Nat} {s0 s : State} (z : Nat) (hk : Fr msk s0 s)
    (hm : Sub 16389 msk := by exact Sub.mono (by assumption) rfl) :
    Fr msk s0 (stOf (State.zpArm s z)) := by
  unfold State.zpArm
  repeat' first
    | with_reducible assumption | (exact Sub.mono hm rfl) | intro _
    | (extract_lets +onlyGivenNames x; refine keeps_have (msk := msk) (s0 := s0) (x := x) ?_ ?_; rotate_left; clear_value x; intro hx; rotate_right; subst x)
    | (extract_lets +onlyGivenNames x; refine keeps_have_fst (msk := msk) (s0 := s0) (x := x) ?_ ?_; rotate_left; clear_value x; intro hx; rotate_right; subst x)
    | (extract_lets +onlyGivenNames x; clear_value x) | with_reducible apply keeps_answer
    | with_reducible apply keeps_askMarker | with_reducible apply keeps_modZp | with_reducible apply keeps_put
    | with_reducible apply keeps_ite | with_reducible apply keeps_ite_fst | (simp only [stOf_mk])
    | with_reducible apply keeps_fst | dsimp only

theorem keeps_zpSyncArm {msk : Nat} {s0 s : State} (z : Nat) (hk : Fr msk s0 s)
    (hm : Sub 16389 msk := by exact Sub.mono (by assumption) rfl) :
    Fr msk s0 (stOf (State.zpSyncArm s z)) := by
  unfold State.zpSyncArm
  repeat' first
    | with_reducible assumption | (exact Sub.mono hm rfl) | intro _
    | (extract_lets +onlyGivenNames x; refine keeps_have (msk := msk) (s0 := s0) (x := x) ?_ ?_; rotate_left; clear_value x; intro hx; rotate_right; subst x)
    | (extract_lets +onlyGivenNames x; refine keeps_have_fst (msk := msk) (s0 := s0) (x := x) ?_ ?_; rotate_left; clear_value x; intro hx; rotate_right; subst x)
    | (extract_lets +onlyGivenNames x; clear_value x) | with_reducible apply keeps_answer
    | with_reducible apply keeps_askMarker | with_reducible apply keeps_modZp | with_reducible apply keeps_put
    | with_reducible apply keeps_ite | with_reducible apply keeps_ite_fst | (simp only [stOf_mk])
    | with_reducible apply keeps_fst | dsimp only

theorem keeps_bothOf {msk : Nat} {s0 s : State} (a : Bool) (b : Bool) (f : State → State × Nat) (g : State → State × Nat) (rf : Fld) (h_f : ∀ t , Fr msk s0 t → Fr msk s0 (stOf (f t ))) (h_g : ∀ t , Fr msk s0 t → Fr msk s0 (stOf (g t ))) (hk : Fr msk s0 s)
    (hm : Sub 1 msk := by exact Sub.mono (by assumption) rfl) :
    Fr msk s0 (stOf (bothOf s a b f g rf)) := by
  unfold bothOf
  repeat' first
    | with_reducible assumption | (exact Sub.mono hm rfl) | intro _
    | (extract_lets +onlyGivenNames x; refine keeps_have (msk := msk) (s0 := s0) (x := x) ?_ ?_; rotate_left; clear_value x; intro hx; rotate_right; subst x)
    | (extract_lets +onlyGivenNames x; refine keeps_have_fst (msk := msk) (s0 := s0) (x := x) ?_ ?_; rotate_left; clear_value x; intro hx; rotate_right; subst x)
    | (extract_lets +onlyGivenNames x; clear_value x) | with_reducible apply keeps_put | with_reducible apply h_f
    | with_reducible apply h_g | with_reducible apply keeps_ite | with_reducible apply keeps_ite_fst | (simp only [stOf_mk])
    | split | with_reducible apply keeps_fst | dsimp only

theorem keeps_zpSwapCtlWrite {msk : Nat} {s0 s : State} (z : Nat) (v : Nat) (hk : Fr msk s0 s)
    (hm : Sub 16389 msk := by exact Sub.mono (by assumption) rfl) :
    Fr msk s0 (stOf (State.zpSwapCtlWrite s z v)) := by
  unfold State.zpSwapCtlWrite
  repeat' first
    | with_reducible assumption | (exact Sub.mono hm rfl) | intro _ | with_reducible apply keeps_bothOf
    | with_reducible apply keeps_zpArm | with_reducible apply keeps_zpSyncArm | (simp only [stOf_mk])
    | with_reducible apply keeps_fst | dsimp only

theorem keeps_execZpSwapArm {p : Fin 5} {z : Fin 64} {v : Word} {s s' : State}
    (e : execZpSwapArm p z v s = .next s') : Fr 16389 s s' := by
  unfold execZpSwapArm at e
  refine keeps_next e ?_
  clear e
  have hk := Fr.refl 16389 s
  have hm : Sub 16389 16389 := Sub.refl _
  repeat' first
    | with_reducible assumption | (exact Sub.mono hm rfl) | intro _ | with_reducible apply keeps_gatedWrite
    | with_reducible apply keeps_zpSwapCtlWrite | dsimp only

theorem keeps_execZpSyncArm {p : Fin 5} {z : Fin 64} {s s' : State}
    (e : execZpSyncArm p z s = .next s') : Fr 16389 s s' := by
  unfold execZpSyncArm at e
  refine keeps_next e ?_
  clear e
  have hk := Fr.refl 16389 s
  have hm : Sub 16389 16389 := Sub.refl _
  repeat' first
    | with_reducible assumption | (exact Sub.mono hm rfl) | intro _ | with_reducible apply keeps_gatedWrite
    | with_reducible apply keeps_zpSwapCtlWrite | dsimp only

theorem keeps_ztuCtlWrite {msk : Nat} {s0 s : State} (r : Nat) (v : Nat) (hk : Fr msk s0 s)
    (hm : Sub 32769 msk := by exact Sub.mono (by assumption) rfl) :
    Fr msk s0 (stOf (State.ztuCtlWrite s r v)) := by
  unfold State.ztuCtlWrite
  repeat' first
    | with_reducible assumption | (exact Sub.mono hm rfl) | intro _
    | (extract_lets +onlyGivenNames x; refine keeps_have (msk := msk) (s0 := s0) (x := x) ?_ ?_; rotate_left; clear_value x; intro hx; rotate_right; subst x)
    | (extract_lets +onlyGivenNames x; refine keeps_have_fst (msk := msk) (s0 := s0) (x := x) ?_ ?_; rotate_left; clear_value x; intro hx; rotate_right; subst x)
    | (extract_lets +onlyGivenNames x; clear_value x) | with_reducible apply keeps_enableWrite | (simp only [stOf_mk])
    | (with_reducible apply keeps_id) | with_reducible apply keeps_fst | dsimp only | with_reducible apply keeps_ztu

theorem keeps_ztuSlotWrite {msk : Nat} {s0 s : State} (r i v : Nat) (hk : Fr msk s0 s)
    (hm : Sub 1 msk := by exact Sub.mono (by assumption) rfl) :
    Fr msk s0 (stOf (State.ztuSlotWrite s r i v)) :=
  keeps_ite_fst (keeps_pair hk) (keeps_pair (keeps_plainWrite _ _ hk))

/-! ### Broad -/

theorem keeps_modBt {msk : Nat} {s0 s : State} (n : Nat) (f : BtSt → BtSt) (hk : Fr msk s0 s)
    (hm : Sub 65536 msk := by exact Sub.mono (by assumption) rfl) :
    Fr msk s0 (State.modBt s n f) := by
  unfold State.modBt
  repeat' first
    | with_reducible assumption | (exact Sub.mono hm rfl) | intro _
    | (extract_lets +onlyGivenNames x; refine keeps_have (msk := msk) (s0 := s0) (x := x) ?_ ?_; rotate_left; clear_value x; intro hx; rotate_right; subst x)
    | (extract_lets +onlyGivenNames x; clear_value x) | dsimp only | with_reducible apply keeps_bt

theorem keeps_btReset {msk : Nat} {s0 s : State} (n : Nat) (hk : Fr msk s0 s)
    (hm : Sub 65537 msk := by exact Sub.mono (by assumption) rfl) :
    Fr msk s0 (State.btReset s n) := by
  unfold State.btReset
  repeat' first
    | with_reducible assumption | (exact Sub.mono hm rfl) | intro _
    | (extract_lets +onlyGivenNames x; refine keeps_have (msk := msk) (s0 := s0) (x := x) ?_ ?_; rotate_left; clear_value x; intro hx; rotate_right; subst x)
    | (extract_lets +onlyGivenNames x; clear_value x) | with_reducible apply keeps_modBt | with_reducible apply keeps_put
    | with_reducible apply keeps_ite | dsimp only

theorem keeps_btOweGap {msk : Nat} {s0 s : State} (n : Nat) (cause : Nat) (hk : Fr msk s0 s)
    (hm : Sub 65536 msk := by exact Sub.mono (by assumption) rfl) :
    Fr msk s0 (State.btOweGap s n cause) := by
  unfold State.btOweGap
  repeat' first
    | with_reducible assumption | (exact Sub.mono hm rfl) | intro _
    | (extract_lets +onlyGivenNames x; refine keeps_have (msk := msk) (s0 := s0) (x := x) ?_ ?_; rotate_left; clear_value x; intro hx; rotate_right; subst x)
    | (extract_lets +onlyGivenNames x; clear_value x) | with_reducible apply keeps_modBt | with_reducible apply keeps_ite
    | dsimp only

theorem keeps_btSwap {msk : Nat} {s0 s : State} (n : Nat) (hk : Fr msk s0 s)
    (hm : Sub 65537 msk := by exact Sub.mono (by assumption) rfl) :
    Fr msk s0 (State.btSwap s n) := by
  unfold State.btSwap
  repeat' first
    | with_reducible assumption | (exact Sub.mono hm rfl) | intro _
    | (extract_lets +onlyGivenNames x; refine keeps_have (msk := msk) (s0 := s0) (x := x) ?_ ?_; rotate_left; clear_value x; intro hx; rotate_right; subst x)
    | (extract_lets +onlyGivenNames x; clear_value x) | with_reducible apply keeps_modBt | with_reducible apply keeps_put
    | with_reducible apply keeps_putTime | with_reducible apply keeps_ite | dsimp only

theorem keeps_btLoss {msk : Nat} {s0 s : State} (n : Nat) (t : DevTime) (len : Nat) (cause : Nat) (final : Bool) (hk : Fr msk s0 s)
    (hm : Sub 270663684 msk := by exact Sub.mono (by assumption) rfl) :
    Fr msk s0 (State.btLoss s n t len cause final) := by
  unfold State.btLoss
  repeat' first
    | with_reducible assumption | (exact Sub.mono hm rfl) | intro _
    | (extract_lets +onlyGivenNames x; refine keeps_have (msk := msk) (s0 := s0) (x := x) ?_ ?_; rotate_left; clear_value x; intro hx; rotate_right; subst x)
    | (extract_lets +onlyGivenNames x; clear_value x) | with_reducible apply keeps_gap | with_reducible apply keeps_toCb
    | with_reducible apply keeps_toDetection | with_reducible apply keeps_ite | dsimp only

theorem keeps_btMark {msk : Nat} {s0 s : State} (n : Nat) (m : Marker) (hk : Fr msk s0 s)
    (hm : Sub 65541 msk := by exact Sub.mono (by assumption) rfl) :
    Fr msk s0 (State.btMark s n m) := by
  unfold State.btMark
  repeat' first
    | with_reducible assumption | with_reducible apply keeps_btOweGap | with_reducible apply keeps_btReset
    | with_reducible apply keeps_modBt | with_reducible apply keeps_openStream | with_reducible apply keeps_put
    | (extract_lets +onlyGivenNames x; refine keeps_fun (x := x) ?_; subst x) | (exact Sub.mono hm rfl) | intro _
    | (extract_lets +onlyGivenNames x; refine keeps_have (msk := msk) (s0 := s0) (x := x) ?_ ?_; rotate_left; clear_value x; intro hx; rotate_right; subst x)
    | (extract_lets +onlyGivenNames x; clear_value x) | with_reducible apply keeps_ite | split | dsimp only

theorem keeps_btGap {msk : Nat} {s0 s : State} (n : Nat) (g : GapRec) (hk : Fr msk s0 s)
    (hm : Sub 270729221 msk := by exact Sub.mono (by assumption) rfl) :
    Fr msk s0 (State.btGap s n g) := by
  unfold State.btGap
  repeat' first
    | with_reducible assumption | (exact Sub.mono hm rfl) | intro _
    | (extract_lets +onlyGivenNames x; refine keeps_have (msk := msk) (s0 := s0) (x := x) ?_ ?_; rotate_left; clear_value x; intro hx; rotate_right; subst x)
    | (extract_lets +onlyGivenNames x; clear_value x) | with_reducible apply keeps_btLoss
    | with_reducible apply keeps_btOweGap | with_reducible apply keeps_gap | with_reducible apply keeps_modBt
    | with_reducible apply keeps_put | with_reducible apply keeps_ite | dsimp only

theorem keeps_btFrameStart {msk : Nat} {s0 s : State} (n : Nat) (k : Int) (fs : Nat) (w8 : Bool) (hk : Fr msk s0 s)
    (hm : Sub 268500997 msk := by exact Sub.mono (by assumption) rfl) :
    Fr msk s0 (State.btFrameStart s n k fs w8) := by
  unfold State.btFrameStart
  repeat' first
    | with_reducible assumption | (exact Sub.mono hm rfl) | intro _
    | (extract_lets +onlyGivenNames x; refine keeps_have (msk := msk) (s0 := s0) (x := x) ?_ ?_; rotate_left; clear_value x; intro hx; rotate_right; subst x)
    | (extract_lets +onlyGivenNames x; refine keeps_have_fst (msk := msk) (s0 := s0) (x := x) ?_ ?_; rotate_left; clear_value x; intro hx; rotate_right; subst x)
    | (extract_lets +onlyGivenNames x; clear_value x) | with_reducible apply keeps_btReset | with_reducible apply keeps_gap
    | with_reducible apply keeps_modBt | with_reducible apply keeps_openStream | with_reducible apply keeps_ite
    | with_reducible apply keeps_ite_fst | (simp only [stOf_mk]) | split | with_reducible apply keeps_fst | dsimp only

theorem keeps_btPayGap {msk : Nat} {s0 s : State} (n : Nat) (j : Int) (hk : Fr msk s0 s)
    (hm : Sub 270729220 msk := by exact Sub.mono (by assumption) rfl) :
    Fr msk s0 (State.btPayGap s n j) := by
  unfold State.btPayGap
  repeat' first
    | with_reducible assumption | (exact Sub.mono hm rfl) | intro _
    | (extract_lets +onlyGivenNames x; refine keeps_have (msk := msk) (s0 := s0) (x := x) ?_ ?_; rotate_left; clear_value x; intro hx; rotate_right; subst x)
    | (extract_lets +onlyGivenNames x; refine keeps_have_fst (msk := msk) (s0 := s0) (x := x) ?_ ?_; rotate_left; clear_value x; intro hx; rotate_right; subst x)
    | (extract_lets +onlyGivenNames x; clear_value x) | with_reducible apply keeps_btLoss | with_reducible apply keeps_modBt
    | (simp only [stOf_mk]) | split | with_reducible apply keeps_fst | dsimp only

theorem keeps_btCombine {msk : Nat} {s0 s : State} (n : Nat) (j : Int) (els : List (Int × Int × Bool × Bool)) (ovr : Bool) (ovf : Bool) (cal : Bool) (ms : List Marker) (hk : Fr msk s0 s)
    (hm : Sub 2097152 msk := by exact Sub.mono (by assumption) rfl) :
    Fr msk s0 (State.btCombine s n j els ovr ovf cal ms) := by
  unfold State.btCombine
  repeat' first
    | with_reducible assumption | (exact Sub.mono hm rfl) | intro _
    | (extract_lets +onlyGivenNames x; refine keeps_have (msk := msk) (s0 := s0) (x := x) ?_ ?_; rotate_left; clear_value x; intro hx; rotate_right; subst x)
    | (extract_lets +onlyGivenNames x; refine keeps_have_fst (msk := msk) (s0 := s0) (x := x) ?_ ?_; rotate_left; clear_value x; intro hx; rotate_right; subst x)
    | (extract_lets +onlyGivenNames x; clear_value x) | with_reducible apply keeps_toCb | with_reducible apply keeps_ite
    | with_reducible apply keeps_ite_fst | (simp only [stOf_mk]) | with_reducible apply keeps_fst | dsimp only

theorem keeps_btSlices {msk : Nat} {s0 s : State} (n : Nat) (j : Int) (els : List (Int × Int × Bool × Bool)) (ovr : Bool) (ovf : Bool) (cal : Bool) (ms : List Marker) (hk : Fr msk s0 s)
    (hm : Sub 270532612 msk := by exact Sub.mono (by assumption) rfl) :
    Fr msk s0 (State.btSlices s n j els ovr ovf cal ms) := by
  unfold State.btSlices
  repeat' first
    | with_reducible assumption | with_reducible apply keeps_btCombine | with_reducible apply keeps_each
    | with_reducible apply keeps_sendFrame | (extract_lets +onlyGivenNames x; refine keeps_fun (x := x) ?_; subst x)
    | (exact Sub.mono hm rfl) | intro _
    | (extract_lets +onlyGivenNames x; refine keeps_have (msk := msk) (s0 := s0) (x := x) ?_ ?_; rotate_left; clear_value x; intro hx; rotate_right; subst x)
    | (extract_lets +onlyGivenNames x; refine keeps_have_fst (msk := msk) (s0 := s0) (x := x) ?_ ?_; rotate_left; clear_value x; intro hx; rotate_right; subst x)
    | (extract_lets +onlyGivenNames x; clear_value x) | with_reducible apply keeps_ite | with_reducible apply keeps_ite_fst
    | (simp only [stOf_mk]) | split | with_reducible apply keeps_fst | dsimp only

theorem keeps_btFadeStep {msk : Nat} {s0 s : State} (n : Nat) (hk : Fr msk s0 s)
    (hm : Sub 65537 msk := by exact Sub.mono (by assumption) rfl) :
    Fr msk s0 (State.btFadeStep s n) := by
  unfold State.btFadeStep
  repeat' first
    | with_reducible assumption | (exact Sub.mono hm rfl) | intro _
    | (extract_lets +onlyGivenNames x; refine keeps_have (msk := msk) (s0 := s0) (x := x) ?_ ?_; rotate_left; clear_value x; intro hx; rotate_right; subst x)
    | (extract_lets +onlyGivenNames x; clear_value x) | with_reducible apply keeps_modBt | with_reducible apply keeps_put
    | with_reducible apply keeps_ite | split | dsimp only

theorem keeps_btEmit {msk : Nat} {s0 s : State} (n : Nat) (hk : Fr msk s0 s)
    (hm : Sub 270729221 msk := by exact Sub.mono (by assumption) rfl) :
    Fr msk s0 (State.btEmit s n) := by
  unfold State.btEmit
  repeat' first
    | with_reducible assumption | (exact Sub.mono hm rfl) | intro _
    | (extract_lets +onlyGivenNames x; refine keeps_have (msk := msk) (s0 := s0) (x := x) ?_ ?_; rotate_left; clear_value x; intro hx; rotate_right; subst x)
    | (extract_lets +onlyGivenNames x; refine keeps_have_fst (msk := msk) (s0 := s0) (x := x) ?_ ?_; rotate_left; clear_value x; intro hx; rotate_right; subst x)
    | (extract_lets +onlyGivenNames x; clear_value x) | with_reducible apply keeps_btFadeStep
    | with_reducible apply keeps_btPayGap | with_reducible apply keeps_btSlices | with_reducible apply keeps_btSwap
    | with_reducible apply keeps_count | with_reducible apply keeps_modBt | with_reducible apply keeps_put
    | with_reducible apply keeps_toDetection | with_reducible apply keeps_foldl | with_reducible apply keeps_foldl_fst
    | with_reducible apply keeps_ite | with_reducible apply keeps_ite_fst | (simp only [stOf_mk]) | split
    | with_reducible apply keeps_fst | dsimp only

theorem keeps_btSample {msk : Nat} {s0 s : State} (n : Nat) (v : Int) (ovr : Bool) (cal : Bool) (hk : Fr msk s0 s)
    (hm : Sub 270729221 msk := by exact Sub.mono (by assumption) rfl) :
    Fr msk s0 (State.btSample s n v ovr cal) := by
  unfold State.btSample
  repeat' first
    | with_reducible assumption | (exact Sub.mono hm rfl) | intro _
    | (extract_lets +onlyGivenNames x; refine keeps_have (msk := msk) (s0 := s0) (x := x) ?_ ?_; rotate_left; clear_value x; intro hx; rotate_right; subst x)
    | (extract_lets +onlyGivenNames x; clear_value x) | with_reducible apply keeps_btEmit | with_reducible apply keeps_modBt
    | with_reducible apply keeps_ite | split | dsimp only

theorem keeps_btToken {msk : Nat} {s0 s : State} (n : Nat) (t : InTok) (hk : Fr msk s0 s)
    (hm : Sub 270729221 msk := by exact Sub.mono (by assumption) rfl) :
    Fr msk s0 (State.btToken s n t) := by
  unfold State.btToken
  repeat' first
    | with_reducible assumption | (exact Sub.mono hm rfl) | intro _
    | (extract_lets +onlyGivenNames x; refine keeps_have (msk := msk) (s0 := s0) (x := x) ?_ ?_; rotate_left; clear_value x; intro hx; rotate_right; subst x)
    | (extract_lets +onlyGivenNames x; clear_value x) | with_reducible apply keeps_btFrameStart
    | with_reducible apply keeps_btGap | with_reducible apply keeps_btMark | with_reducible apply keeps_btSample
    | with_reducible apply keeps_gap | with_reducible apply keeps_modBt | with_reducible apply keeps_ite | split | dsimp only

theorem keeps_btPull {msk : Nat} {s0 s : State} (n : Nat) (p : PullStop) (x0 : List InTok) (hk : Fr msk s0 s)
    (hm : Sub 270729221 msk := by exact Sub.mono (by assumption) rfl) : Fr msk s0 (State.btPull n p x0 s) := by
  induction x0 generalizing s with
  | nil =>
    unfold State.btPull
    repeat' first
      | with_reducible assumption | (exact Sub.mono hm rfl) | intro _
      | (extract_lets +onlyGivenNames x; refine keeps_have (msk := msk) (s0 := s0) (x := x) ?_ ?_; rotate_left; clear_value x; intro hx; rotate_right; subst x)
      | (extract_lets +onlyGivenNames x; clear_value x) | with_reducible apply keeps_btToken
      | with_reducible apply keeps_modBt | with_reducible apply keeps_ite | split | dsimp only
  | cons a l ih =>
    unfold State.btPull
    repeat' first
      | with_reducible assumption | (exact Sub.mono hm rfl) | intro _
      | (extract_lets +onlyGivenNames x; refine keeps_have (msk := msk) (s0 := s0) (x := x) ?_ ?_; rotate_left; clear_value x; intro hx; rotate_right; subst x)
      | (extract_lets +onlyGivenNames x; clear_value x) | with_reducible apply ih | with_reducible apply keeps_btToken
      | with_reducible apply keeps_modBt | with_reducible apply keeps_ite | split | dsimp only

theorem keeps_btRun {msk : Nat} {s0 s : State} (n : Nat) (p : PullStop) (hk : Fr msk s0 s)
    (hm : Sub 270729221 msk := by exact Sub.mono (by assumption) rfl) :
    Fr msk s0 (State.btRun s n p) := by
  unfold State.btRun
  repeat' first
    | with_reducible assumption | (exact Sub.mono hm rfl) | intro _ | with_reducible apply keeps_btPull
    | with_reducible apply keeps_inIsland | with_reducible apply keeps_ite | split | dsimp only

theorem keeps_execBtSpectrumDone {n : Fin 16} {s s' : State}
    (e : execBtSpectrumDone n s = .next s') : Fr 270729221 s s' := by
  unfold execBtSpectrumDone at e
  refine keeps_next e ?_
  clear e
  have hk := Fr.refl 270729221 s
  have hm : Sub 270729221 270729221 := Sub.refl _
  repeat' first
    | with_reducible assumption | (exact Sub.mono hm rfl) | intro _ | with_reducible apply keeps_btRun | dsimp only

theorem keeps_execMarkerGainSwitch {n : Fin 16} {s s' : State}
    (e : execMarkerGainSwitch n s = .next s') : Fr 270729221 s s' := by
  unfold execMarkerGainSwitch at e
  refine keeps_next e ?_
  clear e
  have hk := Fr.refl 270729221 s
  have hm : Sub 270729221 270729221 := Sub.refl _
  repeat' first
    | with_reducible assumption | (exact Sub.mono hm rfl) | intro _ | with_reducible apply keeps_btRun | dsimp only

theorem keeps_execMarkerSyncResetBroad {n : Fin 16} {s s' : State}
    (e : execMarkerSyncResetBroad n s = .next s') : Fr 270729221 s s' := by
  unfold execMarkerSyncResetBroad at e
  refine keeps_next e ?_
  clear e
  have hk := Fr.refl 270729221 s
  have hm : Sub 270729221 270729221 := Sub.refl _
  repeat' first
    | with_reducible assumption | (exact Sub.mono hm rfl) | intro _ | with_reducible apply keeps_btRun | dsimp only

theorem keeps_execBtEqFadeEnd {n : Fin 16} {s s' : State}
    (e : execBtEqFadeEnd n s = .next s') : Fr 270729221 s s' := by
  unfold execBtEqFadeEnd at e
  refine keeps_next e ?_
  clear e
  have hk := Fr.refl 270729221 s
  have hm : Sub 270729221 270729221 := Sub.refl _
  repeat' first
    | with_reducible assumption | (exact Sub.mono hm rfl) | intro _ | with_reducible apply keeps_btRun | dsimp only

theorem keeps_execBtInputGap {n : Fin 16} {s s' : State}
    (e : execBtInputGap n s = .next s') : Fr 270729221 s s' := by
  unfold execBtInputGap at e
  refine keeps_next e ?_
  clear e
  have hk := Fr.refl 270729221 s
  have hm : Sub 270729221 270729221 := Sub.refl _
  repeat' first
    | with_reducible assumption | (exact Sub.mono hm rfl) | intro _ | with_reducible apply keeps_btRun
    | with_reducible apply keeps_gap | dsimp only

theorem keeps_btStart {msk : Nat} {s0 s : State} (n : Nat) (hk : Fr msk s0 s)
    (hm : Sub 65540 msk := by exact Sub.mono (by assumption) rfl) :
    Fr msk s0 (State.btStart s n) := by
  unfold State.btStart
  repeat' first
    | with_reducible assumption | (exact Sub.mono hm rfl) | intro _
    | (extract_lets +onlyGivenNames x; refine keeps_have (msk := msk) (s0 := s0) (x := x) ?_ ?_; rotate_left; clear_value x; intro hx; rotate_right; subst x)
    | (extract_lets +onlyGivenNames x; clear_value x) | with_reducible apply keeps_modBt | with_reducible apply keeps_tiePort
    | with_reducible apply keeps_ite | dsimp only

theorem keeps_btStop {msk : Nat} {s0 s : State} (n : Nat) (hk : Fr msk s0 s)
    (hm : Sub 65541 msk := by exact Sub.mono (by assumption) rfl) :
    Fr msk s0 (State.btStop s n) := by
  unfold State.btStop
  repeat' first
    | with_reducible assumption | (exact Sub.mono hm rfl) | intro _
    | (extract_lets +onlyGivenNames x; refine keeps_have (msk := msk) (s0 := s0) (x := x) ?_ ?_; rotate_left; clear_value x; intro hx; rotate_right; subst x)
    | (extract_lets +onlyGivenNames x; clear_value x) | with_reducible apply keeps_cancelMarker
    | with_reducible apply keeps_freePort | with_reducible apply keeps_modBt | with_reducible apply keeps_put
    | with_reducible apply keeps_setVal | dsimp only

theorem keeps_btCtlWrite {msk : Nat} {s0 s : State} (n : Nat) (v : Nat) (hk : Fr msk s0 s)
    (hm : Sub 65541 msk := by exact Sub.mono (by assumption) rfl) :
    Fr msk s0 (stOf (State.btCtlWrite s n v)) := by
  unfold State.btCtlWrite
  repeat' first
    | with_reducible assumption | (exact Sub.mono hm rfl) | intro _ | with_reducible apply keeps_btStart
    | with_reducible apply keeps_btStop | with_reducible apply keeps_enableWrite | (simp only [stOf_mk])
    | with_reducible apply keeps_fst | dsimp only

theorem keeps_btCfgWrite {msk : Nat} {s0 s : State} (n : Nat) (v : Nat) (hk : Fr msk s0 s)
    (hm : Sub 1 msk := by exact Sub.mono (by assumption) rfl) :
    Fr msk s0 (stOf (State.btCfgWrite s n v)) := by
  unfold State.btCfgWrite
  repeat' first
    | with_reducible assumption | (exact Sub.mono hm rfl) | intro _
    | (extract_lets +onlyGivenNames x; refine keeps_have (msk := msk) (s0 := s0) (x := x) ?_ ?_; rotate_left; clear_value x; intro hx; rotate_right; subst x)
    | (extract_lets +onlyGivenNames x; refine keeps_have_fst (msk := msk) (s0 := s0) (x := x) ?_ ?_; rotate_left; clear_value x; intro hx; rotate_right; subst x)
    | (extract_lets +onlyGivenNames x; clear_value x) | with_reducible apply keeps_answer
    | with_reducible apply keeps_plainWrite | with_reducible apply keeps_put | with_reducible apply keeps_ite
    | with_reducible apply keeps_ite_fst | (simp only [stOf_mk]) | split | with_reducible apply keeps_fst | dsimp only

theorem keeps_btShiftWrite {msk : Nat} {s0 s : State} (n : Nat) (v : Nat) (hk : Fr msk s0 s)
    (hm : Sub 1 msk := by exact Sub.mono (by assumption) rfl) :
    Fr msk s0 (stOf (State.btShiftWrite s n v)) := by
  unfold State.btShiftWrite
  repeat' first
    | with_reducible assumption | (exact Sub.mono hm rfl) | intro _
    | (extract_lets +onlyGivenNames x; refine keeps_have (msk := msk) (s0 := s0) (x := x) ?_ ?_; rotate_left; clear_value x; intro hx; rotate_right; subst x)
    | (extract_lets +onlyGivenNames x; refine keeps_have_fst (msk := msk) (s0 := s0) (x := x) ?_ ?_; rotate_left; clear_value x; intro hx; rotate_right; subst x)
    | (extract_lets +onlyGivenNames x; clear_value x) | with_reducible apply keeps_answer
    | with_reducible apply keeps_plainWrite | with_reducible apply keeps_put | with_reducible apply keeps_ite
    | with_reducible apply keeps_ite_fst | (simp only [stOf_mk]) | with_reducible apply keeps_fst | dsimp only

theorem keeps_btArm {msk : Nat} {s0 s : State} (n : Nat) (hk : Fr msk s0 s)
    (hm : Sub 65541 msk := by exact Sub.mono (by assumption) rfl) :
    Fr msk s0 (stOf (State.btArm s n)) := by
  unfold State.btArm
  repeat' first
    | with_reducible assumption | (exact Sub.mono hm rfl) | intro _
    | (extract_lets +onlyGivenNames x; refine keeps_have (msk := msk) (s0 := s0) (x := x) ?_ ?_; rotate_left; clear_value x; intro hx; rotate_right; subst x)
    | (extract_lets +onlyGivenNames x; refine keeps_have_fst (msk := msk) (s0 := s0) (x := x) ?_ ?_; rotate_left; clear_value x; intro hx; rotate_right; subst x)
    | (extract_lets +onlyGivenNames x; clear_value x) | with_reducible apply keeps_answer
    | with_reducible apply keeps_askMarker | with_reducible apply keeps_modBt | with_reducible apply keeps_put
    | with_reducible apply keeps_ite | with_reducible apply keeps_ite_fst | (simp only [stOf_mk])
    | with_reducible apply keeps_fst | dsimp only

theorem keeps_btSyncArm {msk : Nat} {s0 s : State} (n : Nat) (hk : Fr msk s0 s)
    (hm : Sub 65541 msk := by exact Sub.mono (by assumption) rfl) :
    Fr msk s0 (stOf (State.btSyncArm s n)) := by
  unfold State.btSyncArm
  repeat' first
    | with_reducible assumption | (exact Sub.mono hm rfl) | intro _
    | (extract_lets +onlyGivenNames x; refine keeps_have (msk := msk) (s0 := s0) (x := x) ?_ ?_; rotate_left; clear_value x; intro hx; rotate_right; subst x)
    | (extract_lets +onlyGivenNames x; refine keeps_have_fst (msk := msk) (s0 := s0) (x := x) ?_ ?_; rotate_left; clear_value x; intro hx; rotate_right; subst x)
    | (extract_lets +onlyGivenNames x; clear_value x) | with_reducible apply keeps_answer
    | with_reducible apply keeps_askMarker | with_reducible apply keeps_modBt | with_reducible apply keeps_put
    | with_reducible apply keeps_ite | with_reducible apply keeps_ite_fst | (simp only [stOf_mk])
    | with_reducible apply keeps_fst | dsimp only

theorem keeps_btMkWrite {msk : Nat} {s0 s : State} (n : Nat) (v : Nat) (hk : Fr msk s0 s)
    (hm : Sub 65541 msk := by exact Sub.mono (by assumption) rfl) :
    Fr msk s0 (stOf (State.btMkWrite s n v)) := by
  unfold State.btMkWrite
  repeat' first
    | with_reducible assumption | (exact Sub.mono hm rfl) | intro _ | with_reducible apply keeps_bothOf
    | with_reducible apply keeps_btArm | with_reducible apply keeps_btSyncArm | (simp only [stOf_mk])
    | with_reducible apply keeps_fst | dsimp only

theorem keeps_execBtEqArm {p : Fin 5} {n : Fin 16} {v : Word} {s s' : State}
    (e : execBtEqArm p n v s = .next s') : Fr 65541 s s' := by
  unfold execBtEqArm at e
  refine keeps_next e ?_
  clear e
  have hk := Fr.refl 65541 s
  have hm : Sub 65541 65541 := Sub.refl _
  repeat' first
    | with_reducible assumption | (exact Sub.mono hm rfl) | intro _ | with_reducible apply keeps_btMkWrite
    | with_reducible apply keeps_gatedWrite | dsimp only

theorem keeps_execBtSyncArm {p : Fin 5} {n : Fin 16} {s s' : State}
    (e : execBtSyncArm p n s = .next s') : Fr 65541 s s' := by
  unfold execBtSyncArm at e
  refine keeps_next e ?_
  clear e
  have hk := Fr.refl 65541 s
  have hm : Sub 65541 65541 := Sub.refl _
  repeat' first
    | with_reducible assumption | (exact Sub.mono hm rfl) | intro _ | with_reducible apply keeps_btMkWrite
    | with_reducible apply keeps_gatedWrite | dsimp only

theorem keeps_eqAdvance {msk : Nat} {s0 s : State} (n : Nat) (hk : Fr msk s0 s)
    (hm : Sub 1 msk := by exact Sub.mono (by assumption) rfl) :
    Fr msk s0 (State.eqAdvance s n) := by
  unfold State.eqAdvance
  repeat' first | with_reducible assumption | (exact Sub.mono hm rfl) | intro _ | with_reducible apply keeps_put | dsimp only

theorem keeps_eqDataWrite {msk : Nat} {s0 s : State} (n : Nat) (v : Nat) (hk : Fr msk s0 s)
    (hm : Sub 65537 msk := by exact Sub.mono (by assumption) rfl) :
    Fr msk s0 (stOf (State.eqDataWrite s n v)) := by
  unfold State.eqDataWrite
  repeat' first
    | with_reducible assumption | (exact Sub.mono hm rfl) | intro _
    | (extract_lets +onlyGivenNames x; refine keeps_have (msk := msk) (s0 := s0) (x := x) ?_ ?_; rotate_left; clear_value x; intro hx; rotate_right; subst x)
    | (extract_lets +onlyGivenNames x; refine keeps_have_fst (msk := msk) (s0 := s0) (x := x) ?_ ?_; rotate_left; clear_value x; intro hx; rotate_right; subst x)
    | (extract_lets +onlyGivenNames x; clear_value x) | with_reducible apply keeps_answer
    | with_reducible apply keeps_eqAdvance | with_reducible apply keeps_modBt | with_reducible apply keeps_put
    | with_reducible apply keeps_ite | with_reducible apply keeps_ite_fst | (simp only [stOf_mk])
    | with_reducible apply keeps_fst | dsimp only

theorem keeps_eqDataRead {msk : Nat} {s0 s : State} (n : Nat) (hk : Fr msk s0 s)
    (hm : Sub 1 msk := by exact Sub.mono (by assumption) rfl) :
    Fr msk s0 (stOf (State.eqDataRead s n)) := by
  unfold State.eqDataRead
  repeat' first
    | with_reducible assumption | (exact Sub.mono hm rfl) | intro _
    | (extract_lets +onlyGivenNames x; refine keeps_have (msk := msk) (s0 := s0) (x := x) ?_ ?_; rotate_left; clear_value x; intro hx; rotate_right; subst x)
    | (extract_lets +onlyGivenNames x; refine keeps_have_fst (msk := msk) (s0 := s0) (x := x) ?_ ?_; rotate_left; clear_value x; intro hx; rotate_right; subst x)
    | (extract_lets +onlyGivenNames x; clear_value x) | with_reducible apply keeps_eqAdvance | with_reducible apply keeps_ite
    | with_reducible apply keeps_ite_fst | (simp only [stOf_mk]) | with_reducible apply keeps_fst | dsimp only

theorem keeps_execBtEqDataAccess {p : Fin 5} {n : Fin 16} {v : Option Word} {s s' : State}
    (e : execBtEqDataAccess p n v s = .next s') : Fr 268500993 s s' := by
  unfold execBtEqDataAccess at e
  refine keeps_next e ?_
  clear e
  have hk := Fr.refl 268500993 s
  have hm : Sub 268500993 268500993 := Sub.refl _
  repeat' first
    | with_reducible assumption | (exact Sub.mono hm rfl) | intro _
    | (extract_lets +onlyGivenNames x; refine keeps_have (msk := 268500993) (s0 := s) (x := x) ?_ ?_; rotate_left; clear_value x; intro hx; rotate_right; subst x)
    | (extract_lets +onlyGivenNames x; clear_value x) | with_reducible apply keeps_eqDataRead
    | with_reducible apply keeps_eqDataWrite | with_reducible apply keeps_gatedWrite | with_reducible apply keeps_readOut
    | split | dsimp only

theorem keeps_winAdvance {msk : Nat} {s0 s : State} (n : Nat) (hk : Fr msk s0 s)
    (hm : Sub 1 msk := by exact Sub.mono (by assumption) rfl) :
    Fr msk s0 (State.winAdvance s n) := by
  unfold State.winAdvance
  repeat' first | with_reducible assumption | (exact Sub.mono hm rfl) | intro _ | with_reducible apply keeps_put | dsimp only

theorem keeps_winDataWrite {msk : Nat} {s0 s : State} (n : Nat) (v : Nat) (hk : Fr msk s0 s)
    (hm : Sub 65537 msk := by exact Sub.mono (by assumption) rfl) :
    Fr msk s0 (stOf (State.winDataWrite s n v)) := by
  unfold State.winDataWrite
  repeat' first
    | with_reducible assumption | (exact Sub.mono hm rfl) | intro _
    | (extract_lets +onlyGivenNames x; refine keeps_have (msk := msk) (s0 := s0) (x := x) ?_ ?_; rotate_left; clear_value x; intro hx; rotate_right; subst x)
    | (extract_lets +onlyGivenNames x; refine keeps_have_fst (msk := msk) (s0 := s0) (x := x) ?_ ?_; rotate_left; clear_value x; intro hx; rotate_right; subst x)
    | (extract_lets +onlyGivenNames x; clear_value x) | with_reducible apply keeps_answer | with_reducible apply keeps_modBt
    | with_reducible apply keeps_put | with_reducible apply keeps_winAdvance | with_reducible apply keeps_ite
    | with_reducible apply keeps_ite_fst | (simp only [stOf_mk]) | with_reducible apply keeps_fst | dsimp only

theorem keeps_winDataRead {msk : Nat} {s0 s : State} (n : Nat) (hk : Fr msk s0 s)
    (hm : Sub 1 msk := by exact Sub.mono (by assumption) rfl) :
    Fr msk s0 (stOf (State.winDataRead s n)) := by
  unfold State.winDataRead
  repeat' first
    | with_reducible assumption | with_reducible apply keeps_winAdvance
    | (extract_lets +onlyGivenNames x; refine keeps_fun (x := x) ?_; subst x) | (exact Sub.mono hm rfl) | intro _
    | (extract_lets +onlyGivenNames x; refine keeps_have (msk := msk) (s0 := s0) (x := x) ?_ ?_; rotate_left; clear_value x; intro hx; rotate_right; subst x)
    | (extract_lets +onlyGivenNames x; refine keeps_have_fst (msk := msk) (s0 := s0) (x := x) ?_ ?_; rotate_left; clear_value x; intro hx; rotate_right; subst x)
    | (extract_lets +onlyGivenNames x; clear_value x) | (simp only [stOf_mk]) | with_reducible apply keeps_fst | dsimp only

theorem keeps_execBtWinDataAccess {p : Fin 5} {n : Fin 16} {v : Option Word} {s s' : State}
    (e : execBtWinDataAccess p n v s = .next s') : Fr 268500993 s s' := by
  unfold execBtWinDataAccess at e
  refine keeps_next e ?_
  clear e
  have hk := Fr.refl 268500993 s
  have hm : Sub 268500993 268500993 := Sub.refl _
  repeat' first
    | with_reducible assumption | (exact Sub.mono hm rfl) | intro _
    | (extract_lets +onlyGivenNames x; refine keeps_have (msk := 268500993) (s0 := s) (x := x) ?_ ?_; rotate_left; clear_value x; intro hx; rotate_right; subst x)
    | (extract_lets +onlyGivenNames x; clear_value x) | with_reducible apply keeps_gatedWrite
    | with_reducible apply keeps_readOut | with_reducible apply keeps_winDataRead | with_reducible apply keeps_winDataWrite
    | split | dsimp only

theorem keeps_maskAdvance {msk : Nat} {s0 s : State} (n : Nat) (hk : Fr msk s0 s)
    (hm : Sub 1 msk := by exact Sub.mono (by assumption) rfl) :
    Fr msk s0 (State.maskAdvance s n) := by
  unfold State.maskAdvance
  repeat' first | with_reducible assumption | (exact Sub.mono hm rfl) | intro _ | with_reducible apply keeps_put | dsimp only

theorem keeps_maskDataWrite {msk : Nat} {s0 s : State} (n : Nat) (v : Nat) (hk : Fr msk s0 s)
    (hm : Sub 65537 msk := by exact Sub.mono (by assumption) rfl) :
    Fr msk s0 (stOf (State.maskDataWrite s n v)) := by
  unfold State.maskDataWrite
  repeat' first
    | with_reducible assumption | (exact Sub.mono hm rfl) | intro _
    | (extract_lets +onlyGivenNames x; refine keeps_have (msk := msk) (s0 := s0) (x := x) ?_ ?_; rotate_left; clear_value x; intro hx; rotate_right; subst x)
    | (extract_lets +onlyGivenNames x; refine keeps_have_fst (msk := msk) (s0 := s0) (x := x) ?_ ?_; rotate_left; clear_value x; intro hx; rotate_right; subst x)
    | (extract_lets +onlyGivenNames x; clear_value x) | with_reducible apply keeps_answer
    | with_reducible apply keeps_maskAdvance | with_reducible apply keeps_modBt | with_reducible apply keeps_put
    | with_reducible apply keeps_ite | with_reducible apply keeps_ite_fst | (simp only [stOf_mk])
    | with_reducible apply keeps_fst | dsimp only

theorem keeps_maskDataRead {msk : Nat} {s0 s : State} (n : Nat) (hk : Fr msk s0 s)
    (hm : Sub 1 msk := by exact Sub.mono (by assumption) rfl) :
    Fr msk s0 (stOf (State.maskDataRead s n)) := by
  unfold State.maskDataRead
  repeat' first
    | with_reducible assumption | (exact Sub.mono hm rfl) | intro _
    | (extract_lets +onlyGivenNames x; refine keeps_have (msk := msk) (s0 := s0) (x := x) ?_ ?_; rotate_left; clear_value x; intro hx; rotate_right; subst x)
    | (extract_lets +onlyGivenNames x; refine keeps_have_fst (msk := msk) (s0 := s0) (x := x) ?_ ?_; rotate_left; clear_value x; intro hx; rotate_right; subst x)
    | (extract_lets +onlyGivenNames x; clear_value x) | with_reducible apply keeps_maskAdvance
    | with_reducible apply keeps_ite | with_reducible apply keeps_ite_fst | (simp only [stOf_mk])
    | with_reducible apply keeps_fst | dsimp only

theorem keeps_execDcMaskDataAccess {p : Fin 5} {n : Fin 16} {v : Option Word} {s s' : State}
    (e : execDcMaskDataAccess p n v s = .next s') : Fr 268500993 s s' := by
  unfold execDcMaskDataAccess at e
  refine keeps_next e ?_
  clear e
  have hk := Fr.refl 268500993 s
  have hm : Sub 268500993 268500993 := Sub.refl _
  repeat' first
    | with_reducible assumption | (exact Sub.mono hm rfl) | intro _
    | (extract_lets +onlyGivenNames x; refine keeps_have (msk := 268500993) (s0 := s) (x := x) ?_ ?_; rotate_left; clear_value x; intro hx; rotate_right; subst x)
    | (extract_lets +onlyGivenNames x; clear_value x) | with_reducible apply keeps_gatedWrite
    | with_reducible apply keeps_maskDataRead | with_reducible apply keeps_maskDataWrite | with_reducible apply keeps_readOut
    | split | dsimp only

/-! ### Detect -/

theorem keeps_execZtuTransformDone {q : Fin 4} {i : Fin 16} {s s' : State}
    (e : execZtuTransformDone q i s = .next s') : Fr 537034752 s s' := by
  unfold execZtuTransformDone at e
  refine keeps_next e ?_
  clear e
  have hk := Fr.refl 537034752 s
  have hm : Sub 537034752 537034752 := Sub.refl _
  repeat' first
    | with_reducible assumption | (exact Sub.mono hm rfl) | intro _
    | (extract_lets +onlyGivenNames x; refine keeps_have (msk := 537034752) (s0 := s) (x := x) ?_ ?_; rotate_left; clear_value x; intro hx; rotate_right; subst x)
    | (extract_lets +onlyGivenNames x; clear_value x) | with_reducible apply keeps_inIsland
    | with_reducible apply keeps_ztuDone | with_reducible apply keeps_ite | dsimp only

theorem keeps_modInt {msk : Nat} {s0 s : State} (r : Nat) (i : Nat) (f : DcInt → DcInt) (hk : Fr msk s0 s)
    (hm : Sub 131072 msk := by exact Sub.mono (by assumption) rfl) :
    Fr msk s0 (State.modInt s r i f) := by
  unfold State.modInt
  repeat' first
    | with_reducible assumption | (exact Sub.mono hm rfl) | intro _
    | (extract_lets +onlyGivenNames x; refine keeps_have (msk := msk) (s0 := s0) (x := x) ?_ ?_; rotate_left; clear_value x; intro hx; rotate_right; subst x)
    | (extract_lets +onlyGivenNames x; clear_value x) | dsimp only | with_reducible apply keeps_dc

theorem keeps_specSlices {msk : Nat} {s0 s : State} (r : Nat) (i : Nat) (c : IntCfg) (x : DcInt) (flags : List Bool) (hk : Fr msk s0 s)
    (hm : Sub 268435460 msk := by exact Sub.mono (by assumption) rfl) :
    Fr msk s0 (State.specSlices s r i c x flags) := by
  unfold State.specSlices
  repeat' first
    | with_reducible assumption | (exact Sub.mono hm rfl) | intro _
    | (extract_lets +onlyGivenNames x; refine keeps_have (msk := msk) (s0 := s0) (x := x) ?_ ?_; rotate_left; clear_value x; intro hx; rotate_right; subst x)
    | (extract_lets +onlyGivenNames x; clear_value x) | with_reducible apply keeps_each
    | with_reducible apply keeps_sendFrame | with_reducible apply keeps_ite | dsimp only

theorem keeps_intReadOut {msk : Nat} {s0 s : State} (r : Nat) (i : Nat) (hk : Fr msk s0 s)
    (hm : Sub 268566533 msk := by exact Sub.mono (by assumption) rfl) :
    Fr msk s0 (State.intReadOut s r i) := by
  unfold State.intReadOut
  repeat' first
    | with_reducible assumption | (exact Sub.mono hm rfl) | intro _
    | (extract_lets +onlyGivenNames x; refine keeps_have (msk := msk) (s0 := s0) (x := x) ?_ ?_; rotate_left; clear_value x; intro hx; rotate_right; subst x)
    | (extract_lets +onlyGivenNames x; refine keeps_have_fst (msk := msk) (s0 := s0) (x := x) ?_ ?_; rotate_left; clear_value x; intro hx; rotate_right; subst x)
    | (extract_lets +onlyGivenNames x; clear_value x) | with_reducible apply keeps_count | with_reducible apply keeps_modInt
    | with_reducible apply keeps_put | with_reducible apply keeps_specSlices | with_reducible apply keeps_ite
    | with_reducible apply keeps_ite_fst | (simp only [stOf_mk]) | split | with_reducible apply keeps_fst | dsimp only

theorem keeps_intSpectrum {msk : Nat} {s0 s : State} (r : Nat) (i : Nat) (d : DetSpec) (hk : Fr msk s0 s)
    (hm : Sub 268566533 msk := by exact Sub.mono (by assumption) rfl) :
    Fr msk s0 (State.intSpectrum s r i d) := by
  unfold State.intSpectrum
  repeat' first
    | with_reducible assumption | (exact Sub.mono hm rfl) | intro _
    | (extract_lets +onlyGivenNames x; refine keeps_have (msk := msk) (s0 := s0) (x := x) ?_ ?_; rotate_left; clear_value x; intro hx; rotate_right; subst x)
    | (extract_lets +onlyGivenNames x; clear_value x) | with_reducible apply keeps_intReadOut
    | with_reducible apply keeps_modInt | with_reducible apply keeps_put | with_reducible apply keeps_ite | split
    | dsimp only

theorem keeps_intGap {msk : Nat} {s0 s : State} (r : Nat) (i : Nat) (g : GapRec) (hk : Fr msk s0 s)
    (hm : Sub 268566533 msk := by exact Sub.mono (by assumption) rfl) :
    Fr msk s0 (State.intGap s r i g) := by
  unfold State.intGap
  repeat' first
    | with_reducible assumption | (exact Sub.mono hm rfl) | intro _
    | (extract_lets +onlyGivenNames x; refine keeps_have (msk := msk) (s0 := s0) (x := x) ?_ ?_; rotate_left; clear_value x; intro hx; rotate_right; subst x)
    | (extract_lets +onlyGivenNames x; clear_value x) | with_reducible apply keeps_gap
    | with_reducible apply keeps_intReadOut | with_reducible apply keeps_modInt | with_reducible apply keeps_ite | split
    | dsimp only

theorem keeps_execDcIntFlush {q : Fin 4} {i : Fin 16} {s s' : State}
    (e : execDcIntFlush q i s = .next s') : Fr 268566533 s s' := by
  unfold execDcIntFlush at e
  refine keeps_next e ?_
  clear e
  have hk := Fr.refl 268566533 s
  have hm : Sub 268566533 268566533 := Sub.refl _
  repeat' first
    | with_reducible assumption | (exact Sub.mono hm rfl) | intro _ | with_reducible apply keeps_intReadOut | dsimp only

theorem keeps_modPlane {msk : Nat} {s0 s : State} (r : Nat) (i : Nat) (f : DcPlane → DcPlane) (hk : Fr msk s0 s)
    (hm : Sub 131072 msk := by exact Sub.mono (by assumption) rfl) :
    Fr msk s0 (State.modPlane s r i f) := by
  unfold State.modPlane
  repeat' first
    | with_reducible assumption | (exact Sub.mono hm rfl) | intro _
    | (extract_lets +onlyGivenNames x; refine keeps_have (msk := msk) (s0 := s0) (x := x) ?_ ?_; rotate_left; clear_value x; intro hx; rotate_right; subst x)
    | (extract_lets +onlyGivenNames x; clear_value x) | dsimp only | with_reducible apply keeps_dc

theorem keeps_planeWatch {msk : Nat} {s0 s : State} (r : Nat) (i : Nat) (d : PlaneUpd) (hk : Fr msk s0 s)
    (hm : Sub 262144 msk := by exact Sub.mono (by assumption) rfl) :
    Fr msk s0 (State.planeWatch s r i d) := by
  unfold State.planeWatch
  repeat' first
    | with_reducible assumption | (exact Sub.mono hm rfl) | intro _
    | (extract_lets +onlyGivenNames x; refine keeps_have (msk := msk) (s0 := s0) (x := x) ?_ ?_; rotate_left; clear_value x; intro hx; rotate_right; subst x)
    | (extract_lets +onlyGivenNames x; clear_value x) | with_reducible apply keeps_each | with_reducible apply keeps_giveUnit
    | dsimp only

theorem keeps_planeUpdate {msk : Nat} {s0 s : State} (r : Nat) (i : Nat) (d : PlaneUpd) (hk : Fr msk s0 s)
    (hm : Sub 393217 msk := by exact Sub.mono (by assumption) rfl) :
    Fr msk s0 (State.planeUpdate s r i d) := by
  unfold State.planeUpdate
  repeat' first
    | with_reducible assumption | (exact Sub.mono hm rfl) | intro _
    | (extract_lets +onlyGivenNames x; refine keeps_have (msk := msk) (s0 := s0) (x := x) ?_ ?_; rotate_left; clear_value x; intro hx; rotate_right; subst x)
    | (extract_lets +onlyGivenNames x; refine keeps_have_fst (msk := msk) (s0 := s0) (x := x) ?_ ?_; rotate_left; clear_value x; intro hx; rotate_right; subst x)
    | (extract_lets +onlyGivenNames x; clear_value x) | with_reducible apply keeps_count
    | with_reducible apply keeps_modPlane | with_reducible apply keeps_planeWatch | with_reducible apply keeps_put
    | with_reducible apply keeps_setPair | with_reducible apply keeps_foldl | with_reducible apply keeps_foldl_fst
    | with_reducible apply keeps_ite | with_reducible apply keeps_ite_fst | (simp only [stOf_mk])
    | with_reducible apply keeps_fst | dsimp only

theorem keeps_planeRelease {msk : Nat} {s0 s : State} (r : Nat) (i : Nat) (all : Bool) (x0 : Nat) (hk : Fr msk s0 s)
    (hm : Sub 393217 msk := by exact Sub.mono (by assumption) rfl) : Fr msk s0 (State.planeRelease s r i all x0) := by
  induction x0 generalizing s with
  | zero =>
    unfold State.planeRelease
    repeat' first
      | with_reducible assumption | (exact Sub.mono hm rfl) | intro _
      | (extract_lets +onlyGivenNames x; refine keeps_have (msk := msk) (s0 := s0) (x := x) ?_ ?_; rotate_left; clear_value x; intro hx; rotate_right; subst x)
      | (extract_lets +onlyGivenNames x; refine keeps_have_fst (msk := msk) (s0 := s0) (x := x) ?_ ?_; rotate_left; clear_value x; intro hx; rotate_right; subst x)
      | (extract_lets +onlyGivenNames x; clear_value x) | with_reducible apply keeps_modPlane
      | with_reducible apply keeps_planeUpdate | with_reducible apply keeps_ite | with_reducible apply keeps_ite_fst
      | (simp only [stOf_mk]) | split | with_reducible apply keeps_fst | dsimp only
  | succ n ih =>
    unfold State.planeRelease
    repeat' first
      | with_reducible assumption | (exact Sub.mono hm rfl) | intro _
      | (extract_lets +onlyGivenNames x; refine keeps_have (msk := msk) (s0 := s0) (x := x) ?_ ?_; rotate_left; clear_value x; intro hx; rotate_right; subst x)
      | (extract_lets +onlyGivenNames x; refine keeps_have_fst (msk := msk) (s0 := s0) (x := x) ?_ ?_; rotate_left; clear_value x; intro hx; rotate_right; subst x)
      | (extract_lets +onlyGivenNames x; clear_value x) | with_reducible apply ih | with_reducible apply keeps_modPlane
      | with_reducible apply keeps_planeUpdate | with_reducible apply keeps_ite | with_reducible apply keeps_ite_fst
      | (simp only [stOf_mk]) | split | with_reducible apply keeps_fst | dsimp only

theorem keeps_planeHold {msk : Nat} {s0 s : State} (r : Nat) (i : Nat) (src : Nat) (d : PlaneUpd) (hk : Fr msk s0 s)
    (hm : Sub 393217 msk := by exact Sub.mono (by assumption) rfl) :
    Fr msk s0 (State.planeHold s r i src d) := by
  unfold State.planeHold
  repeat' first
    | with_reducible assumption | (exact Sub.mono hm rfl) | intro _
    | (extract_lets +onlyGivenNames x; refine keeps_have (msk := msk) (s0 := s0) (x := x) ?_ ?_; rotate_left; clear_value x; intro hx; rotate_right; subst x)
    | (extract_lets +onlyGivenNames x; refine keeps_have_fst (msk := msk) (s0 := s0) (x := x) ?_ ?_; rotate_left; clear_value x; intro hx; rotate_right; subst x)
    | (extract_lets +onlyGivenNames x; clear_value x) | with_reducible apply keeps_modPlane
    | with_reducible apply keeps_planeRelease | with_reducible apply keeps_foldl | with_reducible apply keeps_foldl_fst
    | (simp only [stOf_mk]) | with_reducible apply keeps_fst | dsimp only

theorem keeps_planeClose {msk : Nat} {s0 s : State} (r : Nat) (i : Nat) (src : Nat) (hk : Fr msk s0 s)
    (hm : Sub 393217 msk := by exact Sub.mono (by assumption) rfl) :
    Fr msk s0 (State.planeClose s r i src) := by
  unfold State.planeClose
  repeat' first
    | with_reducible assumption | (exact Sub.mono hm rfl) | intro _
    | (extract_lets +onlyGivenNames x; refine keeps_have (msk := msk) (s0 := s0) (x := x) ?_ ?_; rotate_left; clear_value x; intro hx; rotate_right; subst x)
    | (extract_lets +onlyGivenNames x; refine keeps_have_fst (msk := msk) (s0 := s0) (x := x) ?_ ?_; rotate_left; clear_value x; intro hx; rotate_right; subst x)
    | (extract_lets +onlyGivenNames x; clear_value x) | with_reducible apply keeps_modPlane
    | with_reducible apply keeps_planeHold | with_reducible apply keeps_ite | with_reducible apply keeps_ite_fst
    | (simp only [stOf_mk]) | split | with_reducible apply keeps_fst | dsimp only

theorem keeps_planeSpectrum {msk : Nat} {s0 s : State} (r : Nat) (i : Nat) (src : Nat) (d : DetSpec) (hk : Fr msk s0 s)
    (hm : Sub 393217 msk := by exact Sub.mono (by assumption) rfl) :
    Fr msk s0 (State.planeSpectrum s r i src d) := by
  unfold State.planeSpectrum
  repeat' first
    | with_reducible assumption | (exact Sub.mono hm rfl) | intro _
    | (extract_lets +onlyGivenNames x; refine keeps_have (msk := msk) (s0 := s0) (x := x) ?_ ?_; rotate_left; clear_value x; intro hx; rotate_right; subst x)
    | (extract_lets +onlyGivenNames x; refine keeps_have_fst (msk := msk) (s0 := s0) (x := x) ?_ ?_; rotate_left; clear_value x; intro hx; rotate_right; subst x)
    | (extract_lets +onlyGivenNames x; clear_value x) | with_reducible apply keeps_modPlane
    | with_reducible apply keeps_planeClose | with_reducible apply keeps_planeHold | with_reducible apply keeps_ite
    | with_reducible apply keeps_ite_fst | (simp only [stOf_mk]) | split | with_reducible apply keeps_fst | dsimp only

theorem keeps_planeGap {msk : Nat} {s0 s : State} (r : Nat) (i : Nat) (src : Nat) (g : GapRec) (hk : Fr msk s0 s)
    (hm : Sub 268828677 msk := by exact Sub.mono (by assumption) rfl) :
    Fr msk s0 (State.planeGap s r i src g) := by
  unfold State.planeGap
  repeat' first
    | with_reducible assumption | (exact Sub.mono hm rfl) | intro _
    | (extract_lets +onlyGivenNames x; refine keeps_have (msk := msk) (s0 := s0) (x := x) ?_ ?_; rotate_left; clear_value x; intro hx; rotate_right; subst x)
    | (extract_lets +onlyGivenNames x; refine keeps_have_fst (msk := msk) (s0 := s0) (x := x) ?_ ?_; rotate_left; clear_value x; intro hx; rotate_right; subst x)
    | (extract_lets +onlyGivenNames x; clear_value x) | with_reducible apply keeps_each | with_reducible apply keeps_gap
    | with_reducible apply keeps_giveUnit | with_reducible apply keeps_modPlane | with_reducible apply keeps_planeClose
    | with_reducible apply keeps_planeRelease | with_reducible apply keeps_foldl | with_reducible apply keeps_foldl_fst
    | (simp only [stOf_mk]) | with_reducible apply keeps_fst | dsimp only

theorem keeps_detWatch {msk : Nat} {s0 s : State} (r : Nat) (src : Nat) (t : DetTok) (hk : Fr msk s0 s)
    (hm : Sub 268697604 msk := by exact Sub.mono (by assumption) rfl) :
    Fr msk s0 (State.detWatch s r src t) := by
  unfold State.detWatch
  repeat' first
    | with_reducible assumption | (exact Sub.mono hm rfl) | intro _
    | (extract_lets +onlyGivenNames x; refine keeps_have (msk := msk) (s0 := s0) (x := x) ?_ ?_; rotate_left; clear_value x; intro hx; rotate_right; subst x)
    | (extract_lets +onlyGivenNames x; clear_value x) | with_reducible apply keeps_each | with_reducible apply keeps_gap
    | with_reducible apply keeps_giveUnit | with_reducible apply keeps_foldl | with_reducible apply keeps_foldl_fst
    | with_reducible apply keeps_ite | split | dsimp only | with_reducible apply keeps_tg

theorem keeps_detToken {msk : Nat} {s0 s : State} (r : Nat) (src : Nat) (t : DetTok) (hk : Fr msk s0 s)
    (hm : Sub 268828677 msk := by exact Sub.mono (by assumption) rfl) :
    Fr msk s0 (State.detToken s r src t) := by
  unfold State.detToken
  repeat' first
    | with_reducible assumption | (exact Sub.mono hm rfl) | intro _
    | (extract_lets +onlyGivenNames x; refine keeps_have (msk := msk) (s0 := s0) (x := x) ?_ ?_; rotate_left; clear_value x; intro hx; rotate_right; subst x)
    | (extract_lets +onlyGivenNames x; clear_value x) | with_reducible apply keeps_detWatch | with_reducible apply keeps_each
    | with_reducible apply keeps_gap | with_reducible apply keeps_intGap | with_reducible apply keeps_intSpectrum
    | with_reducible apply keeps_planeGap | with_reducible apply keeps_planeSpectrum | split | dsimp only

theorem keeps_detPull {msk : Nat} {s0 s : State} (r : Nat) (src : Nat) (gap : Bool) (x0 : List DetTok) (hk : Fr msk s0 s)
    (hm : Sub 268828677 msk := by exact Sub.mono (by assumption) rfl) : Fr msk s0 (State.detPull r src gap x0 s) := by
  induction x0 generalizing s with
  | nil =>
    unfold State.detPull
    repeat' first
      | with_reducible assumption | (exact Sub.mono hm rfl) | intro _
      | (extract_lets +onlyGivenNames x; refine keeps_have (msk := msk) (s0 := s0) (x := x) ?_ ?_; rotate_left; clear_value x; intro hx; rotate_right; subst x)
      | (extract_lets +onlyGivenNames x; clear_value x) | with_reducible apply keeps_detToken
      | with_reducible apply keeps_gap | with_reducible apply keeps_ite | split | dsimp only | with_reducible apply keeps_dc
  | cons a l ih =>
    unfold State.detPull
    repeat' first
      | with_reducible assumption | (exact Sub.mono hm rfl) | intro _
      | (extract_lets +onlyGivenNames x; refine keeps_have (msk := msk) (s0 := s0) (x := x) ?_ ?_; rotate_left; clear_value x; intro hx; rotate_right; subst x)
      | (extract_lets +onlyGivenNames x; clear_value x) | with_reducible apply ih | with_reducible apply keeps_detToken
      | with_reducible apply keeps_gap | with_reducible apply keeps_ite | split | dsimp only | with_reducible apply keeps_dc

theorem keeps_detRun {msk : Nat} {s0 s : State} (r : Nat) (src : Nat) (gap : Bool) (hk : Fr msk s0 s)
    (hm : Sub 268828677 msk := by exact Sub.mono (by assumption) rfl) :
    Fr msk s0 (State.detRun s r src gap) := by
  unfold State.detRun
  repeat' first
    | with_reducible assumption | (exact Sub.mono hm rfl) | intro _ | with_reducible apply keeps_detPull
    | with_reducible apply keeps_gap | with_reducible apply keeps_inIsland | with_reducible apply keeps_ite | dsimp only

theorem keeps_execDetectionSpectrum {q : Fin 4} {src : Fin 32} {s s' : State}
    (e : execDetectionSpectrum q src s = .next s') : Fr 268828677 s s' := by
  unfold execDetectionSpectrum at e
  refine keeps_next e ?_
  clear e
  have hk := Fr.refl 268828677 s
  have hm : Sub 268828677 268828677 := Sub.refl _
  repeat' first
    | with_reducible assumption | (exact Sub.mono hm rfl) | intro _ | with_reducible apply keeps_detRun | dsimp only

theorem keeps_execDcSourceGap {q : Fin 4} {src : Fin 32} {s s' : State}
    (e : execDcSourceGap q src s = .next s') : Fr 268828677 s s' := by
  unfold execDcSourceGap at e
  refine keeps_next e ?_
  clear e
  have hk := Fr.refl 268828677 s
  have hm : Sub 268828677 268828677 := Sub.refl _
  repeat' first
    | with_reducible assumption | (exact Sub.mono hm rfl) | intro _ | with_reducible apply keeps_detRun | dsimp only

theorem keeps_detDrain {msk : Nat} {s0 s : State} (r : Nat) (src : Nat) (hk : Fr msk s0 s)
    (hm : Sub 268828677 msk := by exact Sub.mono (by assumption) rfl) :
    Fr msk s0 (State.detDrain s r src) := by
  unfold State.detDrain
  repeat' first
    | with_reducible assumption | (exact Sub.mono hm rfl) | intro _
    | (extract_lets +onlyGivenNames x; refine keeps_have (msk := msk) (s0 := s0) (x := x) ?_ ?_; rotate_left; clear_value x; intro hx; rotate_right; subst x)
    | (extract_lets +onlyGivenNames x; clear_value x) | with_reducible apply keeps_detToken
    | with_reducible apply keeps_foldl | with_reducible apply keeps_foldl_fst | dsimp only | with_reducible apply keeps_dc

theorem keeps_intStop {msk : Nat} {s0 s : State} (r : Nat) (i : Nat) (hk : Fr msk s0 s)
    (hm : Sub 268566533 msk := by exact Sub.mono (by assumption) rfl) :
    Fr msk s0 (State.intStop s r i) := by
  unfold State.intStop
  repeat' first
    | with_reducible assumption | (exact Sub.mono hm rfl) | intro _
    | (extract_lets +onlyGivenNames x; refine keeps_have (msk := msk) (s0 := s0) (x := x) ?_ ?_; rotate_left; clear_value x; intro hx; rotate_right; subst x)
    | (extract_lets +onlyGivenNames x; clear_value x) | with_reducible apply keeps_closeStream
    | with_reducible apply keeps_freePort | with_reducible apply keeps_intReadOut | with_reducible apply keeps_modInt
    | with_reducible apply keeps_put | (with_reducible apply keeps_id) | dsimp only

theorem keeps_planeStop {msk : Nat} {s0 s : State} (r : Nat) (i : Nat) (hk : Fr msk s0 s)
    (hm : Sub 393221 msk := by exact Sub.mono (by assumption) rfl) :
    Fr msk s0 (State.planeStop s r i) := by
  unfold State.planeStop
  repeat' first
    | with_reducible assumption | (exact Sub.mono hm rfl) | intro _
    | (extract_lets +onlyGivenNames x; refine keeps_have (msk := msk) (s0 := s0) (x := x) ?_ ?_; rotate_left; clear_value x; intro hx; rotate_right; subst x)
    | (extract_lets +onlyGivenNames x; refine keeps_have_fst (msk := msk) (s0 := s0) (x := x) ?_ ?_; rotate_left; clear_value x; intro hx; rotate_right; subst x)
    | (extract_lets +onlyGivenNames x; clear_value x) | with_reducible apply keeps_closeStream
    | with_reducible apply keeps_each | with_reducible apply keeps_freePort | with_reducible apply keeps_planeClose
    | with_reducible apply keeps_planeRelease | with_reducible apply keeps_put | with_reducible apply keeps_foldl
    | with_reducible apply keeps_foldl_fst | (simp only [stOf_mk]) | with_reducible apply keeps_fst | dsimp only

theorem keeps_dcSourceOff {msk : Nat} {s0 s : State} (r : Nat) (src : Nat) (hk : Fr msk s0 s)
    (hm : Sub 268828677 msk := by exact Sub.mono (by assumption) rfl) :
    Fr msk s0 (State.dcSourceOff s r src) := by
  unfold State.dcSourceOff
  repeat' first
    | with_reducible assumption | (exact Sub.mono hm rfl) | intro _
    | (extract_lets +onlyGivenNames x; refine keeps_have (msk := msk) (s0 := s0) (x := x) ?_ ?_; rotate_left; clear_value x; intro hx; rotate_right; subst x)
    | (extract_lets +onlyGivenNames x; clear_value x) | with_reducible apply keeps_detDrain | with_reducible apply keeps_each
    | with_reducible apply keeps_intStop | with_reducible apply keeps_planeStop | with_reducible apply keeps_put
    | with_reducible apply keeps_ite | split | dsimp only

theorem keeps_execDcSourceDisabled {q : Fin 4} {src : Fin 32} {s s' : State}
    (e : execDcSourceDisabled q src s = .next s') : Fr 268828677 s s' := by
  unfold execDcSourceDisabled at e
  refine keeps_next e ?_
  clear e
  have hk := Fr.refl 268828677 s
  have hm : Sub 268828677 268828677 := Sub.refl _
  repeat' first
    | with_reducible assumption | (exact Sub.mono hm rfl) | intro _ | with_reducible apply keeps_dcSourceOff | dsimp only

theorem keeps_intStart {msk : Nat} {s0 s : State} (r : Nat) (i : Nat) (hk : Fr msk s0 s)
    (hm : Sub 131076 msk := by exact Sub.mono (by assumption) rfl) :
    Fr msk s0 (State.intStart s r i) := by
  unfold State.intStart
  repeat' first
    | with_reducible assumption | (exact Sub.mono hm rfl) | intro _
    | (extract_lets +onlyGivenNames x; refine keeps_have (msk := msk) (s0 := s0) (x := x) ?_ ?_; rotate_left; clear_value x; intro hx; rotate_right; subst x)
    | (extract_lets +onlyGivenNames x; clear_value x) | with_reducible apply keeps_modInt
    | with_reducible apply keeps_openStream | with_reducible apply keeps_tiePort | (with_reducible apply keeps_id)
    | dsimp only

theorem keeps_dcIntCtlWrite {msk : Nat} {s0 s : State} (r : Nat) (i : Nat) (v : Nat) (hk : Fr msk s0 s)
    (hm : Sub 268566533 msk := by exact Sub.mono (by assumption) rfl) :
    Fr msk s0 (stOf (State.dcIntCtlWrite s r i v)) := by
  unfold State.dcIntCtlWrite
  repeat' first
    | with_reducible assumption | (exact Sub.mono hm rfl) | intro _ | with_reducible apply keeps_enableWrite
    | with_reducible apply keeps_intStart | with_reducible apply keeps_intStop | (simp only [stOf_mk])
    | with_reducible apply keeps_fst | dsimp only

theorem keeps_execDcIntEnable {p : Fin 5} {q : Fin 4} {i : Fin 16} {v : Word} {s s' : State}
    (e : execDcIntEnable p q i v s = .next s') : Fr 268566533 s s' := by
  unfold execDcIntEnable at e
  refine keeps_next e ?_
  clear e
  have hk := Fr.refl 268566533 s
  have hm : Sub 268566533 268566533 := Sub.refl _
  repeat' first
    | with_reducible assumption | (exact Sub.mono hm rfl) | intro _ | with_reducible apply keeps_dcIntCtlWrite
    | with_reducible apply keeps_gatedWrite | dsimp only

theorem keeps_dcIntSetWrite {msk : Nat} {s0 s : State} (name : RegName) (r : Nat) (i : Nat) (a : Nat) (v : Nat) (hk : Fr msk s0 s)
    (hm : Sub 1 msk := by exact Sub.mono (by assumption) rfl) :
    Fr msk s0 (stOf (State.dcIntSetWrite s name r i a v)) := by
  unfold State.dcIntSetWrite
  repeat' first
    | with_reducible assumption | (exact Sub.mono hm rfl) | intro _
    | (extract_lets +onlyGivenNames x; refine keeps_have (msk := msk) (s0 := s0) (x := x) ?_ ?_; rotate_left; clear_value x; intro hx; rotate_right; subst x)
    | (extract_lets +onlyGivenNames x; refine keeps_have_fst (msk := msk) (s0 := s0) (x := x) ?_ ?_; rotate_left; clear_value x; intro hx; rotate_right; subst x)
    | (extract_lets +onlyGivenNames x; clear_value x) | with_reducible apply keeps_answer
    | with_reducible apply keeps_plainWrite | with_reducible apply keeps_put | with_reducible apply keeps_ite
    | with_reducible apply keeps_ite_fst | (simp only [stOf_mk]) | with_reducible apply keeps_fst | dsimp only

theorem keeps_planeStart {msk : Nat} {s0 s : State} (r : Nat) (i : Nat) (hk : Fr msk s0 s)
    (hm : Sub 131077 msk := by exact Sub.mono (by assumption) rfl) :
    Fr msk s0 (State.planeStart s r i) := by
  unfold State.planeStart
  repeat' first
    | with_reducible assumption | (exact Sub.mono hm rfl) | intro _
    | (extract_lets +onlyGivenNames x; refine keeps_have (msk := msk) (s0 := s0) (x := x) ?_ ?_; rotate_left; clear_value x; intro hx; rotate_right; subst x)
    | (extract_lets +onlyGivenNames x; clear_value x) | with_reducible apply keeps_modPlane
    | with_reducible apply keeps_openStream | with_reducible apply keeps_put | with_reducible apply keeps_setPair
    | with_reducible apply keeps_tiePort | with_reducible apply keeps_ite | dsimp only

theorem keeps_planeClear {msk : Nat} {s0 s : State} (r : Nat) (i : Nat) (hk : Fr msk s0 s)
    (hm : Sub 131072 msk := by exact Sub.mono (by assumption) rfl) :
    Fr msk s0 (State.planeClear s r i) := by
  unfold State.planeClear
  repeat' first
    | with_reducible assumption | (exact Sub.mono hm rfl) | intro _
    | (extract_lets +onlyGivenNames x; refine keeps_have (msk := msk) (s0 := s0) (x := x) ?_ ?_; rotate_left; clear_value x; intro hx; rotate_right; subst x)
    | (extract_lets +onlyGivenNames x; clear_value x) | with_reducible apply keeps_modPlane | dsimp only

theorem keeps_dcPlCtlWrite {msk : Nat} {s0 s : State} (r : Nat) (i : Nat) (v : Nat) (hk : Fr msk s0 s)
    (hm : Sub 393221 msk := by exact Sub.mono (by assumption) rfl) :
    Fr msk s0 (stOf (State.dcPlCtlWrite s r i v)) := by
  unfold State.dcPlCtlWrite
  repeat' first
    | with_reducible assumption | (exact Sub.mono hm rfl) | intro _
    | (extract_lets +onlyGivenNames x; refine keeps_have (msk := msk) (s0 := s0) (x := x) ?_ ?_; rotate_left; clear_value x; intro hx; rotate_right; subst x)
    | (extract_lets +onlyGivenNames x; refine keeps_have_fst (msk := msk) (s0 := s0) (x := x) ?_ ?_; rotate_left; clear_value x; intro hx; rotate_right; subst x)
    | (extract_lets +onlyGivenNames x; clear_value x) | with_reducible apply keeps_enableWrite
    | with_reducible apply keeps_planeClear | with_reducible apply keeps_planeStart | with_reducible apply keeps_planeStop
    | with_reducible apply keeps_ite | with_reducible apply keeps_ite_fst | (simp only [stOf_mk])
    | with_reducible apply keeps_fst | dsimp only

theorem keeps_execDcPlClear {p : Fin 5} {q : Fin 4} {i : Fin 4} {s s' : State}
    (e : execDcPlClear p q i s = .next s') : Fr 393221 s s' := by
  unfold execDcPlClear at e
  refine keeps_next e ?_
  clear e
  have hk := Fr.refl 393221 s
  have hm : Sub 393221 393221 := Sub.refl _
  repeat' first
    | with_reducible assumption | (exact Sub.mono hm rfl) | intro _ | with_reducible apply keeps_dcPlCtlWrite
    | with_reducible apply keeps_gatedWrite | dsimp only

theorem keeps_dcPlSetWrite {msk : Nat} {s0 s : State} (name : RegName) (r : Nat) (i : Nat) (a : Nat) (v : Nat) (hk : Fr msk s0 s)
    (hm : Sub 1 msk := by exact Sub.mono (by assumption) rfl) :
    Fr msk s0 (stOf (State.dcPlSetWrite s name r i a v)) := by
  unfold State.dcPlSetWrite
  repeat' first
    | with_reducible assumption | (exact Sub.mono hm rfl) | intro _
    | (extract_lets +onlyGivenNames x; refine keeps_have (msk := msk) (s0 := s0) (x := x) ?_ ?_; rotate_left; clear_value x; intro hx; rotate_right; subst x)
    | (extract_lets +onlyGivenNames x; refine keeps_have_fst (msk := msk) (s0 := s0) (x := x) ?_ ?_; rotate_left; clear_value x; intro hx; rotate_right; subst x)
    | (extract_lets +onlyGivenNames x; clear_value x) | with_reducible apply keeps_answer
    | with_reducible apply keeps_plainWrite | with_reducible apply keeps_put | with_reducible apply keeps_ite
    | with_reducible apply keeps_ite_fst | (simp only [stOf_mk]) | with_reducible apply keeps_fst | dsimp only

theorem keeps_densSnapshot {msk : Nat} {s0 s : State} (r : Nat) (i : Nat) (hk : Fr msk s0 s)
    (hm : Sub 268566532 msk := by exact Sub.mono (by assumption) rfl) :
    Fr msk s0 (State.densSnapshot s r i) := by
  unfold State.densSnapshot
  repeat' first
    | with_reducible assumption | (exact Sub.mono hm rfl) | intro _
    | (extract_lets +onlyGivenNames x; refine keeps_have (msk := msk) (s0 := s0) (x := x) ?_ ?_; rotate_left; clear_value x; intro hx; rotate_right; subst x)
    | (extract_lets +onlyGivenNames x; refine keeps_have_fst (msk := msk) (s0 := s0) (x := x) ?_ ?_; rotate_left; clear_value x; intro hx; rotate_right; subst x)
    | (extract_lets +onlyGivenNames x; clear_value x) | with_reducible apply keeps_each | with_reducible apply keeps_gap
    | with_reducible apply keeps_modPlane | with_reducible apply keeps_sendFrame | with_reducible apply keeps_getD
    | with_reducible apply keeps_ite | with_reducible apply keeps_ite_fst | (simp only [stOf_mk]) | split
    | (with_reducible apply keeps_id) | with_reducible apply keeps_fst | dsimp only

theorem keeps_execDensSnapshot {q : Fin 4} {i : Fin 4} {s s' : State}
    (e : execDensSnapshot q i s = .next s') : Fr 268566532 s s' := by
  unfold execDensSnapshot at e
  refine keeps_next e ?_
  clear e
  have hk := Fr.refl 268566532 s
  have hm : Sub 268566532 268566532 := Sub.refl _
  repeat' first
    | with_reducible assumption | (exact Sub.mono hm rfl) | intro _ | with_reducible apply keeps_densSnapshot | dsimp only

end Sys2Proof.Machine
end

