-- ==== Sys2Proof/Laws/KeepsTrigger.lean ====
section
/-! SUPPORT. Laws/KeepsTrigger.lean: every operation of the model keeps what `Keeps` (Safety.lean) says; here triggers, drift, calibration, event timers, flow, references and device time.
Each lemma follows the body of its operation: a let, a branch, a fold, a record update, or the law of the operation it calls. -/

set_option linter.all false

namespace Sys2Proof.Machine

set_option Elab.async false

/-! ### Trigger -/

theorem keeps_modTgu {msk : Nat} {s0 s : State} (r : Nat) (u : Nat) (f : TgUnit → TgUnit) (hk : Fr msk s0 s)
    (hm : Sub 262144 msk := by exact Sub.mono (by assumption) rfl) :
    Fr msk s0 (State.modTgu s r u f) := by
  unfold State.modTgu
  repeat' first
    | with_reducible assumption | (exact Sub.mono hm rfl) | intro _
    | (extract_lets +onlyGivenNames x; refine keeps_have (msk := msk) (s0 := s0) (x := x) ?_ ?_; rotate_left; clear_value x; intro hx; rotate_right; subst x)
    | (extract_lets +onlyGivenNames x; clear_value x) | dsimp only | with_reducible apply keeps_tg

theorem keeps_setTgQueue {msk : Nat} {s0 s : State} (r : Nat) (l : List TrigRec) (hk : Fr msk s0 s)
    (hm : Sub 262145 msk := by exact Sub.mono (by assumption) rfl) :
    Fr msk s0 (State.setTgQueue s r l) := by
  unfold State.setTgQueue
  repeat' first
    | with_reducible assumption | (exact Sub.mono hm rfl) | intro _
    | (extract_lets +onlyGivenNames x; refine keeps_have (msk := msk) (s0 := s0) (x := x) ?_ ?_; rotate_left; clear_value x; intro hx; rotate_right; subst x)
    | (extract_lets +onlyGivenNames x; clear_value x) | with_reducible apply keeps_put | dsimp only
    | with_reducible apply keeps_tg

theorem keeps_tgAppend {msk : Nat} {s0 s : State} (r : Nat) (t : TrigRec) (hk : Fr msk s0 s)
    (hm : Sub 262145 msk := by exact Sub.mono (by assumption) rfl) :
    Fr msk s0 (State.tgAppend s r t) := by
  unfold State.tgAppend
  repeat' first
    | with_reducible assumption | (exact Sub.mono hm rfl) | intro _
    | (extract_lets +onlyGivenNames x; refine keeps_have (msk := msk) (s0 := s0) (x := x) ?_ ?_; rotate_left; clear_value x; intro hx; rotate_right; subst x)
    | (extract_lets +onlyGivenNames x; clear_value x) | with_reducible apply keeps_setTgQueue
    | with_reducible apply keeps_ite | dsimp only | with_reducible apply keeps_tg

theorem keeps_tgSpace {msk : Nat} {s0 s : State} (r : Nat) (hk : Fr msk s0 s)
    (hm : Sub 805568517 msk := by exact Sub.mono (by assumption) rfl) :
    Fr msk s0 (State.tgSpace s r) := by
  unfold State.tgSpace
  repeat' first
    | with_reducible assumption | (exact Sub.mono hm rfl) | intro _
    | (extract_lets +onlyGivenNames x; refine keeps_have (msk := msk) (s0 := s0) (x := x) ?_ ?_; rotate_left; clear_value x; intro hx; rotate_right; subst x)
    | (extract_lets +onlyGivenNames x; refine keeps_have_fst (msk := msk) (s0 := s0) (x := x) ?_ ?_; rotate_left; clear_value x; intro hx; rotate_right; subst x)
    | (extract_lets +onlyGivenNames x; clear_value x) | with_reducible apply keeps_gap | with_reducible apply keeps_tgAppend
    | with_reducible apply keeps_useFree | with_reducible apply keeps_ite | with_reducible apply keeps_ite_fst
    | (simp only [stOf_mk]) | split | with_reducible apply keeps_fst | dsimp only | with_reducible apply keeps_tg

theorem keeps_execTgQueueSpaceReturn {r : Fin 5} {s s' : State}
    (e : execTgQueueSpaceReturn r s = .next s') : Fr 805568517 s s' := by
  unfold execTgQueueSpaceReturn at e
  refine keeps_next e ?_
  clear e
  have hk := Fr.refl 805568517 s
  have hm : Sub 805568517 805568517 := Sub.refl _
  repeat' first
    | with_reducible assumption | (exact Sub.mono hm rfl) | intro _ | with_reducible apply keeps_tgSpace | dsimp only

theorem keeps_tgWrite {msk : Nat} {s0 s : State} (r : Nat) (t : TrigRec) (hk : Fr msk s0 s)
    (hm : Sub 805568517 msk := by exact Sub.mono (by assumption) rfl) :
    Fr msk s0 (State.tgWrite s r t) := by
  unfold State.tgWrite
  repeat' first
    | with_reducible assumption | (exact Sub.mono hm rfl) | intro _
    | (extract_lets +onlyGivenNames x; refine keeps_have (msk := msk) (s0 := s0) (x := x) ?_ ?_; rotate_left; clear_value x; intro hx; rotate_right; subst x)
    | (extract_lets +onlyGivenNames x; refine keeps_have_fst (msk := msk) (s0 := s0) (x := x) ?_ ?_; rotate_left; clear_value x; intro hx; rotate_right; subst x)
    | (extract_lets +onlyGivenNames x; clear_value x) | with_reducible apply keeps_count
    | with_reducible apply keeps_tgAppend | with_reducible apply keeps_tgSpace | with_reducible apply keeps_ite
    | with_reducible apply keeps_ite_fst | (simp only [stOf_mk]) | with_reducible apply keeps_fst | dsimp only
    | with_reducible apply keeps_tg

theorem keeps_tgPop {msk : Nat} {s0 s : State} (r : Nat) (n : Nat) (hk : Fr msk s0 s)
    (hm : Sub 262145 msk := by exact Sub.mono (by assumption) rfl) :
    Fr msk s0 (State.tgPop s r n) := by
  unfold State.tgPop
  repeat' first
    | with_reducible assumption | (exact Sub.mono hm rfl) | intro _
    | (extract_lets +onlyGivenNames x; refine keeps_have (msk := msk) (s0 := s0) (x := x) ?_ ?_; rotate_left; clear_value x; intro hx; rotate_right; subst x)
    | (extract_lets +onlyGivenNames x; clear_value x) | with_reducible apply keeps_setTgQueue | dsimp only
    | with_reducible apply keeps_tg

theorem keeps_tgQw0Read {msk : Nat} {s0 s : State} (p : Nat) (r : Nat) (hk : Fr msk s0 s)
    (hm : Sub 262144 msk := by exact Sub.mono (by assumption) rfl) :
    Fr msk s0 (stOf (State.tgQw0Read s p r)) := by
  unfold State.tgQw0Read
  repeat' first
    | with_reducible assumption | (exact Sub.mono hm rfl) | intro _
    | (extract_lets +onlyGivenNames x; refine keeps_have (msk := msk) (s0 := s0) (x := x) ?_ ?_; rotate_left; clear_value x; intro hx; rotate_right; subst x)
    | (extract_lets +onlyGivenNames x; refine keeps_have_fst (msk := msk) (s0 := s0) (x := x) ?_ ?_; rotate_left; clear_value x; intro hx; rotate_right; subst x)
    | (extract_lets +onlyGivenNames x; clear_value x) | with_reducible apply keeps_ite | with_reducible apply keeps_ite_fst
    | (simp only [stOf_mk]) | split | with_reducible apply keeps_fst | dsimp only | with_reducible apply keeps_tg

theorem keeps_tgQw7Read {msk : Nat} {s0 s : State} (p : Nat) (r : Nat) (hk : Fr msk s0 s)
    (hm : Sub 262145 msk := by exact Sub.mono (by assumption) rfl) :
    Fr msk s0 (stOf (State.tgQw7Read s p r)) := by
  unfold State.tgQw7Read
  repeat' first
    | with_reducible assumption | (exact Sub.mono hm rfl) | intro _
    | (extract_lets +onlyGivenNames x; refine keeps_have (msk := msk) (s0 := s0) (x := x) ?_ ?_; rotate_left; clear_value x; intro hx; rotate_right; subst x)
    | (extract_lets +onlyGivenNames x; refine keeps_have_fst (msk := msk) (s0 := s0) (x := x) ?_ ?_; rotate_left; clear_value x; intro hx; rotate_right; subst x)
    | (extract_lets +onlyGivenNames x; clear_value x) | with_reducible apply keeps_tgPop | with_reducible apply keeps_ite
    | with_reducible apply keeps_ite_fst | (simp only [stOf_mk]) | split | with_reducible apply keeps_fst | dsimp only

theorem keeps_execTgQw0Read {p : Fin 5} {r : Fin 5} {s s' : State}
    (e : execTgQw0Read p r s = .next s') : Fr 268697601 s s' := by
  unfold execTgQw0Read at e
  refine keeps_next e ?_
  clear e
  have hk := Fr.refl 268697601 s
  have hm : Sub 268697601 268697601 := Sub.refl _
  repeat' first
    | with_reducible assumption | (exact Sub.mono hm rfl) | intro _ | with_reducible apply keeps_readOut
    | with_reducible apply keeps_tgQw0Read | dsimp only

theorem keeps_execTgQw7Read {p : Fin 5} {r : Fin 5} {s s' : State}
    (e : execTgQw7Read p r s = .next s') : Fr 268697601 s s' := by
  unfold execTgQw7Read at e
  refine keeps_next e ?_
  clear e
  have hk := Fr.refl 268697601 s
  have hm : Sub 268697601 268697601 := Sub.refl _
  repeat' first
    | with_reducible assumption | (exact Sub.mono hm rfl) | intro _ | with_reducible apply keeps_readOut
    | with_reducible apply keeps_tgQw7Read | dsimp only

theorem keeps_tgQctlWrite {msk : Nat} {s0 s : State} (r : Nat) (v : Nat) (hk : Fr msk s0 s)
    (hm : Sub 5 msk := by exact Sub.mono (by assumption) rfl) :
    Fr msk s0 (stOf (State.tgQctlWrite s r v)) := by
  unfold State.tgQctlWrite
  repeat' first
    | with_reducible assumption | (exact Sub.mono hm rfl) | intro _
    | (extract_lets +onlyGivenNames x; refine keeps_have (msk := msk) (s0 := s0) (x := x) ?_ ?_; rotate_left; clear_value x; intro hx; rotate_right; subst x)
    | (extract_lets +onlyGivenNames x; refine keeps_have_fst (msk := msk) (s0 := s0) (x := x) ?_ ?_; rotate_left; clear_value x; intro hx; rotate_right; subst x)
    | (extract_lets +onlyGivenNames x; clear_value x) | with_reducible apply keeps_closeStream
    | with_reducible apply keeps_openStream | with_reducible apply keeps_plainWrite | with_reducible apply keeps_ite
    | with_reducible apply keeps_ite_fst | (simp only [stOf_mk]) | with_reducible apply keeps_fst | dsimp only

theorem keeps_tgFrame {msk : Nat} {s0 s : State} (r : Nat) (hk : Fr msk s0 s)
    (hm : Sub 805568517 msk := by exact Sub.mono (by assumption) rfl) :
    Fr msk s0 (State.tgFrame s r) := by
  unfold State.tgFrame
  repeat' first
    | with_reducible assumption | (exact Sub.mono hm rfl) | intro _
    | (extract_lets +onlyGivenNames x; refine keeps_have (msk := msk) (s0 := s0) (x := x) ?_ ?_; rotate_left; clear_value x; intro hx; rotate_right; subst x)
    | (extract_lets +onlyGivenNames x; refine keeps_have_fst (msk := msk) (s0 := s0) (x := x) ?_ ?_; rotate_left; clear_value x; intro hx; rotate_right; subst x)
    | (extract_lets +onlyGivenNames x; clear_value x) | with_reducible apply keeps_sendFrame
    | with_reducible apply keeps_tgPop | with_reducible apply keeps_tgSpace | with_reducible apply keeps_ite
    | with_reducible apply keeps_ite_fst | (simp only [stOf_mk]) | split | with_reducible apply keeps_fst | dsimp only
    | with_reducible apply keeps_tg

theorem keeps_execTgFrameClose {r : Fin 5} {s s' : State}
    (e : execTgFrameClose r s = .next s') : Fr 805568517 s s' := by
  unfold execTgFrameClose at e
  refine keeps_next e ?_
  clear e
  have hk := Fr.refl 805568517 s
  have hm : Sub 805568517 805568517 := Sub.refl _
  repeat' first
    | with_reducible assumption | (exact Sub.mono hm rfl) | intro _ | with_reducible apply keeps_tgFrame | dsimp only

theorem keeps_tgRelease {msk : Nat} {s0 s : State} (r : Nat) (u : Nat) (all : Bool) (hk : Fr msk s0 s)
    (hm : Sub 805568517 msk := by exact Sub.mono (by assumption) rfl) :
    Fr msk s0 (State.tgRelease s r u all) := by
  unfold State.tgRelease
  repeat' first
    | with_reducible assumption | (exact Sub.mono hm rfl) | intro _
    | (extract_lets +onlyGivenNames x; refine keeps_have (msk := msk) (s0 := s0) (x := x) ?_ ?_; rotate_left; clear_value x; intro hx; rotate_right; subst x)
    | (extract_lets +onlyGivenNames x; clear_value x) | with_reducible apply keeps_each | with_reducible apply keeps_modTgu
    | with_reducible apply keeps_tgWrite | with_reducible apply keeps_ite | split | dsimp only

theorem keeps_tgRecord {msk : Nat} {s0 s : State} (r : Nat) (u : Nat) (t : TrigRec) (hk : Fr msk s0 s)
    (hm : Sub 805568517 msk := by exact Sub.mono (by assumption) rfl) :
    Fr msk s0 (State.tgRecord s r u t) := by
  unfold State.tgRecord
  repeat' first
    | with_reducible assumption | (exact Sub.mono hm rfl) | intro _
    | (extract_lets +onlyGivenNames x; refine keeps_have (msk := msk) (s0 := s0) (x := x) ?_ ?_; rotate_left; clear_value x; intro hx; rotate_right; subst x)
    | (extract_lets +onlyGivenNames x; clear_value x) | with_reducible apply keeps_modTgu
    | with_reducible apply keeps_tgRelease | dsimp only

theorem keeps_blindFor {msk : Nat} {s0 s : State} (r : Nat) (u : Nat) (source : BitVec 16) (cause : Nat) (t : DevTime) (ns : Nat) (hk : Fr msk s0 s)
    (hm : Sub 805568517 msk := by exact Sub.mono (by assumption) rfl) :
    Fr msk s0 (State.blindFor s r u source cause t ns) := by
  unfold State.blindFor
  repeat' first
    | with_reducible assumption | (exact Sub.mono hm rfl) | intro _
    | (extract_lets +onlyGivenNames x; refine keeps_have (msk := msk) (s0 := s0) (x := x) ?_ ?_; rotate_left; clear_value x; intro hx; rotate_right; subst x)
    | (extract_lets +onlyGivenNames x; clear_value x) | with_reducible apply keeps_each | with_reducible apply keeps_tgRecord
    | with_reducible apply keeps_ite | dsimp only

theorem keeps_blindOver {msk : Nat} {s0 s : State} (r : Nat) (u : Nat) (t : DevTime) (source : BitVec 16) (hk : Fr msk s0 s)
    (hm : Sub 805568517 msk := by exact Sub.mono (by assumption) rfl) :
    Fr msk s0 (State.blindOver s r u t source) := by
  unfold State.blindOver
  repeat' first
    | with_reducible assumption | (exact Sub.mono hm rfl) | intro _
    | (extract_lets +onlyGivenNames x; refine keeps_have (msk := msk) (s0 := s0) (x := x) ?_ ?_; rotate_left; clear_value x; intro hx; rotate_right; subst x)
    | (extract_lets +onlyGivenNames x; refine keeps_have_fst (msk := msk) (s0 := s0) (x := x) ?_ ?_; rotate_left; clear_value x; intro hx; rotate_right; subst x)
    | (extract_lets +onlyGivenNames x; clear_value x) | with_reducible apply keeps_blindFor
    | with_reducible apply keeps_modTgu | (simp only [stOf_mk]) | split | with_reducible apply keeps_fst | dsimp only

theorem keeps_tgMarks {msk : Nat} {s0 s : State} (r : Nat) (l : List Marker) (hk : Fr msk s0 s)
    (hm : Sub 262144 msk := by exact Sub.mono (by assumption) rfl) :
    Fr msk s0 (State.tgMarks s r l) := by
  unfold State.tgMarks
  repeat' first
    | with_reducible assumption | (exact Sub.mono hm rfl) | intro _
    | (extract_lets +onlyGivenNames x; refine keeps_have (msk := msk) (s0 := s0) (x := x) ?_ ?_; rotate_left; clear_value x; intro hx; rotate_right; subst x)
    | (extract_lets +onlyGivenNames x; clear_value x) | with_reducible apply keeps_each | with_reducible apply keeps_ite
    | dsimp only | with_reducible apply keeps_tg

theorem keeps_offerSeqs {msk : Nat} {s0 s : State} (r : Nat) (u : Nat) (t : DevTime) (hk : Fr msk s0 s)
    (hm : Sub 262144 msk := by exact Sub.mono (by assumption) rfl) :
    Fr msk s0 (State.offerSeqs s r u t) := by
  unfold State.offerSeqs
  repeat' first
    | with_reducible assumption | (exact Sub.mono hm rfl) | intro _
    | (extract_lets +onlyGivenNames x; refine keeps_have (msk := msk) (s0 := s0) (x := x) ?_ ?_; rotate_left; clear_value x; intro hx; rotate_right; subst x)
    | (extract_lets +onlyGivenNames x; clear_value x) | with_reducible apply keeps_each | with_reducible apply keeps_modTgu
    | with_reducible apply keeps_ite | split | dsimp only

theorem keeps_fabricSend {msk : Nat} {s0 s : State} (r : Nat) (t : TrigRec) (hk : Fr msk s0 s)
    (hm : Sub 4 msk := by exact Sub.mono (by assumption) rfl) :
    Fr msk s0 (State.fabricSend s r t) := by
  unfold State.fabricSend
  repeat' first
    | with_reducible assumption | (exact Sub.mono hm rfl) | intro _
    | (extract_lets +onlyGivenNames x; refine keeps_have (msk := msk) (s0 := s0) (x := x) ?_ ?_; rotate_left; clear_value x; intro hx; rotate_right; subst x)
    | (extract_lets +onlyGivenNames x; clear_value x) | with_reducible apply keeps_countExit | with_reducible apply keeps_ite
    | (with_reducible apply keeps_id) | dsimp only | with_reducible apply keeps_flow

theorem keeps_tgEmit {msk : Nat} {s0 s : State} (r : Nat) (u : Nat) (f : TgFire) (hk : Fr msk s0 s)
    (hm : Sub 805576709 msk := by exact Sub.mono (by assumption) rfl) :
    Fr msk s0 (State.tgEmit s r u f) := by
  unfold State.tgEmit
  repeat' first
    | with_reducible assumption | (exact Sub.mono hm rfl) | intro _
    | (extract_lets +onlyGivenNames x; refine keeps_have (msk := msk) (s0 := s0) (x := x) ?_ ?_; rotate_left; clear_value x; intro hx; rotate_right; subst x)
    | (extract_lets +onlyGivenNames x; clear_value x) | with_reducible apply keeps_count
    | with_reducible apply keeps_fabricSend | with_reducible apply keeps_offerGroups | with_reducible apply keeps_offerSeqs
    | with_reducible apply keeps_put | with_reducible apply keeps_tgRecord | with_reducible apply keeps_ite | dsimp only

theorem keeps_tgCondition {msk : Nat} {s0 s : State} (r : Nat) (u : Nat) (f : TgFire) (hk : Fr msk s0 s)
    (hm : Sub 805576709 msk := by exact Sub.mono (by assumption) rfl) :
    Fr msk s0 (State.tgCondition s r u f) := by
  unfold State.tgCondition
  repeat' first
    | with_reducible assumption | (exact Sub.mono hm rfl) | intro _
    | (extract_lets +onlyGivenNames x; refine keeps_have (msk := msk) (s0 := s0) (x := x) ?_ ?_; rotate_left; clear_value x; intro hx; rotate_right; subst x)
    | (extract_lets +onlyGivenNames x; clear_value x) | with_reducible apply keeps_count | with_reducible apply keeps_modTgu
    | with_reducible apply keeps_put | with_reducible apply keeps_tgEmit | split | dsimp only

theorem keeps_tgHoldoffEnd {msk : Nat} {s0 s : State} (r : Nat) (u : Nat) (hk : Fr msk s0 s)
    (hm : Sub 1 msk := by exact Sub.mono (by assumption) rfl) :
    Fr msk s0 (State.tgHoldoffEnd s r u) := by
  unfold State.tgHoldoffEnd
  repeat' first
    | with_reducible assumption | with_reducible apply keeps_put
    | (extract_lets +onlyGivenNames x; refine keeps_fun (x := x) ?_; subst x) | (exact Sub.mono hm rfl) | intro _
    | (extract_lets +onlyGivenNames x; refine keeps_have (msk := msk) (s0 := s0) (x := x) ?_ ?_; rotate_left; clear_value x; intro hx; rotate_right; subst x)
    | (extract_lets +onlyGivenNames x; clear_value x) | with_reducible apply keeps_ite | split | dsimp only

theorem keeps_execTgHoldoffEnd {r : Fin 5} {u : Fin 16} {s s' : State}
    (e : execTgHoldoffEnd r u s = .next s') : Fr 1 s s' := by
  unfold execTgHoldoffEnd at e
  refine keeps_next e ?_
  clear e
  have hk := Fr.refl 1 s
  have hm : Sub 1 1 := Sub.refl _
  repeat' first
    | with_reducible assumption | (exact Sub.mono hm rfl) | intro _ | with_reducible apply keeps_tgHoldoffEnd | dsimp only

theorem keeps_levelFire {msk : Nat} {s0 s : State} (r : Nat) (u : Nat) (rise : Bool) (x0 : Ratio × Bool × Bool) (x1 : Ratio × Bool × Bool) (x2 : Ratio × Bool × Bool) (x3 : Ratio × Bool × Bool) (hk : Fr msk s0 s)
    (hm : Sub 805576709 msk := by exact Sub.mono (by assumption) rfl) :
    Fr msk s0 (State.levelFire s r u rise x0 x1 x2 x3) := by
  unfold State.levelFire
  repeat' first
    | with_reducible assumption | with_reducible apply keeps_tgCondition
    | (extract_lets +onlyGivenNames x; refine keeps_fun (x := x) ?_; subst x) | (exact Sub.mono hm rfl) | intro _
    | (extract_lets +onlyGivenNames x; refine keeps_have (msk := msk) (s0 := s0) (x := x) ?_ ?_; rotate_left; clear_value x; intro hx; rotate_right; subst x)
    | (extract_lets +onlyGivenNames x; refine keeps_have_fst (msk := msk) (s0 := s0) (x := x) ?_ ?_; rotate_left; clear_value x; intro hx; rotate_right; subst x)
    | (extract_lets +onlyGivenNames x; clear_value x) | with_reducible apply keeps_ite | with_reducible apply keeps_ite_fst
    | (simp only [stOf_mk]) | with_reducible apply keeps_fst | dsimp only

theorem keeps_levelTake {msk : Nat} {s0 s : State} (r : Nat) (u : Nat) (v : Ratio × Bool × Bool) (hk : Fr msk s0 s)
    (hm : Sub 805576709 msk := by exact Sub.mono (by assumption) rfl) :
    Fr msk s0 (stOf (State.levelTake s r u v)) := by
  unfold State.levelTake
  repeat' first
    | with_reducible assumption | with_reducible apply keeps_blindOver | with_reducible apply keeps_levelFire
    | with_reducible apply keeps_modTgu | (extract_lets +onlyGivenNames x; refine keeps_fun (x := x) ?_; subst x)
    | (exact Sub.mono hm rfl) | intro _
    | (extract_lets +onlyGivenNames x; refine keeps_have (msk := msk) (s0 := s0) (x := x) ?_ ?_; rotate_left; clear_value x; intro hx; rotate_right; subst x)
    | (extract_lets +onlyGivenNames x; refine keeps_have_fst (msk := msk) (s0 := s0) (x := x) ?_ ?_; rotate_left; clear_value x; intro hx; rotate_right; subst x)
    | (extract_lets +onlyGivenNames x; clear_value x) | with_reducible apply keeps_ite | with_reducible apply keeps_ite_fst
    | (simp only [stOf_mk]) | split | with_reducible apply keeps_fst | dsimp only

theorem keeps_levelTok {msk : Nat} {s0 s : State} (r : Nat) (u : Nat) (t : TgTok) (hk : Fr msk s0 s)
    (hm : Sub 805576709 msk := by exact Sub.mono (by assumption) rfl) :
    Fr msk s0 (stOf (State.levelTok s r u t)) := by
  unfold State.levelTok
  repeat' first
    | with_reducible assumption | (exact Sub.mono hm rfl) | intro _
    | (extract_lets +onlyGivenNames x; refine keeps_have (msk := msk) (s0 := s0) (x := x) ?_ ?_; rotate_left; clear_value x; intro hx; rotate_right; subst x)
    | (extract_lets +onlyGivenNames x; refine keeps_have_fst (msk := msk) (s0 := s0) (x := x) ?_ ?_; rotate_left; clear_value x; intro hx; rotate_right; subst x)
    | (extract_lets +onlyGivenNames x; clear_value x) | with_reducible apply keeps_gap | with_reducible apply keeps_levelTake
    | with_reducible apply keeps_modTgu | with_reducible apply keeps_tgMarks | with_reducible apply keeps_getD
    | with_reducible apply keeps_ite | with_reducible apply keeps_ite_fst | (simp only [stOf_mk]) | split
    | with_reducible apply keeps_fst | dsimp only

theorem keeps_maskTake {msk : Nat} {s0 s : State} (r : Nat) (u : Nat) (d : DetSpec) (hk : Fr msk s0 s)
    (hm : Sub 805576709 msk := by exact Sub.mono (by assumption) rfl) :
    Fr msk s0 (stOf (State.maskTake s r u d)) := by
  unfold State.maskTake
  repeat' first
    | with_reducible assumption | (exact Sub.mono hm rfl) | intro _
    | (extract_lets +onlyGivenNames x; refine keeps_have (msk := msk) (s0 := s0) (x := x) ?_ ?_; rotate_left; clear_value x; intro hx; rotate_right; subst x)
    | (extract_lets +onlyGivenNames x; refine keeps_have_fst (msk := msk) (s0 := s0) (x := x) ?_ ?_; rotate_left; clear_value x; intro hx; rotate_right; subst x)
    | (extract_lets +onlyGivenNames x; clear_value x) | with_reducible apply keeps_blindOver
    | with_reducible apply keeps_modTgu | with_reducible apply keeps_tgCondition | with_reducible apply keeps_useFree
    | with_reducible apply keeps_ite | with_reducible apply keeps_ite_fst | (simp only [stOf_mk])
    | with_reducible apply keeps_fst | dsimp only

theorem keeps_densTake {msk : Nat} {s0 s : State} (r : Nat) (u : Nat) (counts : KV Nat) (t : DevTime) (lo : DevTime) (hi : DevTime) (ovr : Bool) (cal : Bool) (hk : Fr msk s0 s)
    (hm : Sub 805576709 msk := by exact Sub.mono (by assumption) rfl) :
    Fr msk s0 (stOf (State.densTake s r u counts t lo hi ovr cal)) := by
  unfold State.densTake
  repeat' first
    | with_reducible assumption | (exact Sub.mono hm rfl) | intro _
    | (extract_lets +onlyGivenNames x; refine keeps_have (msk := msk) (s0 := s0) (x := x) ?_ ?_; rotate_left; clear_value x; intro hx; rotate_right; subst x)
    | (extract_lets +onlyGivenNames x; refine keeps_have_fst (msk := msk) (s0 := s0) (x := x) ?_ ?_; rotate_left; clear_value x; intro hx; rotate_right; subst x)
    | (extract_lets +onlyGivenNames x; clear_value x) | with_reducible apply keeps_blindOver
    | with_reducible apply keeps_tgCondition | with_reducible apply keeps_foldl | with_reducible apply keeps_foldl_fst
    | with_reducible apply keeps_ite | with_reducible apply keeps_ite_fst | (simp only [stOf_mk]) | split
    | with_reducible apply keeps_fst | dsimp only

theorem keeps_maskTok {msk : Nat} {s0 s : State} (r : Nat) (u : Nat) (t : TgTok) (hk : Fr msk s0 s)
    (hm : Sub 805576709 msk := by exact Sub.mono (by assumption) rfl) :
    Fr msk s0 (stOf (State.maskTok s r u t)) := by
  unfold State.maskTok
  repeat' first
    | with_reducible assumption | (exact Sub.mono hm rfl) | intro _
    | (extract_lets +onlyGivenNames x; refine keeps_have (msk := msk) (s0 := s0) (x := x) ?_ ?_; rotate_left; clear_value x; intro hx; rotate_right; subst x)
    | (extract_lets +onlyGivenNames x; refine keeps_have_fst (msk := msk) (s0 := s0) (x := x) ?_ ?_; rotate_left; clear_value x; intro hx; rotate_right; subst x)
    | (extract_lets +onlyGivenNames x; clear_value x) | with_reducible apply keeps_densTake | with_reducible apply keeps_gap
    | with_reducible apply keeps_maskTake | with_reducible apply keeps_modTgu | with_reducible apply keeps_tgMarks
    | with_reducible apply keeps_getD | (simp only [stOf_mk]) | split | with_reducible apply keeps_fst | dsimp only

theorem keeps_unitPull {msk : Nat} {s0 s : State} (r : Nat) (u : Nat) (gap : Bool) (x0 : List TgTok) (hk : Fr msk s0 s)
    (hm : Sub 805576709 msk := by exact Sub.mono (by assumption) rfl) : Fr msk s0 (State.unitPull r u gap x0 s) := by
  induction x0 generalizing s with
  | nil =>
    unfold State.unitPull
    repeat' first
      | with_reducible assumption | (exact Sub.mono hm rfl) | intro _
      | (extract_lets +onlyGivenNames x; refine keeps_have (msk := msk) (s0 := s0) (x := x) ?_ ?_; rotate_left; clear_value x; intro hx; rotate_right; subst x)
      | (extract_lets +onlyGivenNames x; refine keeps_have_fst (msk := msk) (s0 := s0) (x := x) ?_ ?_; rotate_left; clear_value x; intro hx; rotate_right; subst x)
      | (extract_lets +onlyGivenNames x; clear_value x) | with_reducible apply keeps_gap
      | with_reducible apply keeps_levelTok | with_reducible apply keeps_maskTok | with_reducible apply keeps_modTgu
      | with_reducible apply keeps_ite | with_reducible apply keeps_ite_fst | (simp only [stOf_mk]) | split
      | with_reducible apply keeps_fst | dsimp only
  | cons a l ih =>
    unfold State.unitPull
    repeat' first
      | with_reducible assumption | (exact Sub.mono hm rfl) | intro _
      | (extract_lets +onlyGivenNames x; refine keeps_have (msk := msk) (s0 := s0) (x := x) ?_ ?_; rotate_left; clear_value x; intro hx; rotate_right; subst x)
      | (extract_lets +onlyGivenNames x; refine keeps_have_fst (msk := msk) (s0 := s0) (x := x) ?_ ?_; rotate_left; clear_value x; intro hx; rotate_right; subst x)
      | (extract_lets +onlyGivenNames x; clear_value x) | with_reducible apply ih | with_reducible apply keeps_gap
      | with_reducible apply keeps_levelTok | with_reducible apply keeps_maskTok | with_reducible apply keeps_modTgu
      | with_reducible apply keeps_ite | with_reducible apply keeps_ite_fst | (simp only [stOf_mk]) | split
      | with_reducible apply keeps_fst | dsimp only

theorem keeps_unitRun {msk : Nat} {s0 s : State} (r : Nat) (u : Nat) (gap : Bool) (hk : Fr msk s0 s)
    (hm : Sub 805576709 msk := by exact Sub.mono (by assumption) rfl) :
    Fr msk s0 (State.unitRun s r u gap) := by
  unfold State.unitRun
  repeat' first
    | with_reducible assumption | (exact Sub.mono hm rfl) | intro _ | with_reducible apply keeps_gap
    | with_reducible apply keeps_inIsland | with_reducible apply keeps_unitPull | with_reducible apply keeps_ite | split
    | dsimp only

theorem keeps_execTgLevelCrossing {q : Fin 4} {u : Fin 8} {s s' : State}
    (e : execTgLevelCrossing q u s = .next s') : Fr 805576709 s s' := by
  unfold execTgLevelCrossing at e
  refine keeps_next e ?_
  clear e
  have hk := Fr.refl 805576709 s
  have hm : Sub 805576709 805576709 := Sub.refl _
  repeat' first
    | with_reducible assumption | (exact Sub.mono hm rfl) | intro _ | with_reducible apply keeps_unitRun | dsimp only

theorem keeps_execTgMaskEval {q : Fin 4} {u : Fin 4} {s s' : State}
    (e : execTgMaskEval q u s = .next s') : Fr 805576709 s s' := by
  unfold execTgMaskEval at e
  refine keeps_next e ?_
  clear e
  have hk := Fr.refl 805576709 s
  have hm : Sub 805576709 805576709 := Sub.refl _
  repeat' first
    | with_reducible assumption | (exact Sub.mono hm rfl) | intro _ | with_reducible apply keeps_unitRun
    | with_reducible apply keeps_ite | dsimp only

theorem keeps_execTgDensityOverEval {q : Fin 4} {u : Fin 4} {s s' : State}
    (e : execTgDensityOverEval q u s = .next s') : Fr 805576709 s s' := by
  unfold execTgDensityOverEval at e
  refine keeps_next e ?_
  clear e
  have hk := Fr.refl 805576709 s
  have hm : Sub 805576709 805576709 := Sub.refl _
  repeat' first
    | with_reducible assumption | (exact Sub.mono hm rfl) | intro _ | with_reducible apply keeps_unitRun
    | with_reducible apply keeps_ite | dsimp only

theorem keeps_modBand {msk : Nat} {s0 s : State} (r : Nat) (b : Nat) (f : TgBand → TgBand) (hk : Fr msk s0 s)
    (hm : Sub 262144 msk := by exact Sub.mono (by assumption) rfl) :
    Fr msk s0 (State.modBand s r b f) := by
  unfold State.modBand
  repeat' first
    | with_reducible assumption | (exact Sub.mono hm rfl) | intro _
    | (extract_lets +onlyGivenNames x; refine keeps_have (msk := msk) (s0 := s0) (x := x) ?_ ?_; rotate_left; clear_value x; intro hx; rotate_right; subst x)
    | (extract_lets +onlyGivenNames x; clear_value x) | dsimp only | with_reducible apply keeps_tg

theorem keeps_bandCondition {msk : Nat} {s0 s : State} (r : Nat) (b : Nat) (f : TgFire) (hk : Fr msk s0 s)
    (hm : Sub 805576709 msk := by exact Sub.mono (by assumption) rfl) :
    Fr msk s0 (State.bandCondition s r b f) := by
  unfold State.bandCondition
  repeat' first
    | with_reducible assumption | (exact Sub.mono hm rfl) | intro _
    | (extract_lets +onlyGivenNames x; refine keeps_have (msk := msk) (s0 := s0) (x := x) ?_ ?_; rotate_left; clear_value x; intro hx; rotate_right; subst x)
    | (extract_lets +onlyGivenNames x; clear_value x) | with_reducible apply keeps_count | with_reducible apply keeps_modBand
    | with_reducible apply keeps_put | with_reducible apply keeps_tgEmit | split | dsimp only

theorem keeps_bandGroup {msk : Nat} {s0 s : State} (r : Nat) (b : Nat) (x : TgBand) (d : DetSpec) (hk : Fr msk s0 s)
    (hm : Sub 805577733 msk := by exact Sub.mono (by assumption) rfl) :
    Fr msk s0 (State.bandGroup s r b x d) := by
  unfold State.bandGroup
  repeat' first
    | with_reducible assumption | (exact Sub.mono hm rfl) | intro _
    | (extract_lets +onlyGivenNames x; refine keeps_have (msk := msk) (s0 := s0) (x := x) ?_ ?_; rotate_left; clear_value x; intro hx; rotate_right; subst x)
    | (extract_lets +onlyGivenNames x; clear_value x) | with_reducible apply keeps_bandCondition
    | with_reducible apply keeps_free | with_reducible apply keeps_modBand | with_reducible apply keeps_useFree
    | with_reducible apply keeps_ite | split | dsimp only

theorem keeps_bandTok {msk : Nat} {s0 s : State} (r : Nat) (b : Nat) (t : TgTok) (hk : Fr msk s0 s)
    (hm : Sub 805577733 msk := by exact Sub.mono (by assumption) rfl) :
    Fr msk s0 (stOf (State.bandTok s r b t)) := by
  unfold State.bandTok
  repeat' first
    | with_reducible assumption | (exact Sub.mono hm rfl) | intro _
    | (extract_lets +onlyGivenNames x; refine keeps_have (msk := msk) (s0 := s0) (x := x) ?_ ?_; rotate_left; clear_value x; intro hx; rotate_right; subst x)
    | (extract_lets +onlyGivenNames x; refine keeps_have_fst (msk := msk) (s0 := s0) (x := x) ?_ ?_; rotate_left; clear_value x; intro hx; rotate_right; subst x)
    | (extract_lets +onlyGivenNames x; clear_value x) | with_reducible apply keeps_bandGroup
    | with_reducible apply keeps_blindFor | with_reducible apply keeps_gap | with_reducible apply keeps_modBand
    | with_reducible apply keeps_tgMarks | with_reducible apply keeps_tgRelease | with_reducible apply keeps_foldl
    | with_reducible apply keeps_foldl_fst | with_reducible apply keeps_getD | with_reducible apply keeps_ite
    | with_reducible apply keeps_ite_fst | (simp only [stOf_mk]) | split | with_reducible apply keeps_fst | dsimp only

theorem keeps_bandPull {msk : Nat} {s0 s : State} (r : Nat) (b : Nat) (gap : Bool) (x0 : List TgTok) (hk : Fr msk s0 s)
    (hm : Sub 805577733 msk := by exact Sub.mono (by assumption) rfl) : Fr msk s0 (State.bandPull r b gap x0 s) := by
  induction x0 generalizing s with
  | nil =>
    unfold State.bandPull
    repeat' first
      | with_reducible assumption | (exact Sub.mono hm rfl) | intro _
      | (extract_lets +onlyGivenNames x; refine keeps_have (msk := msk) (s0 := s0) (x := x) ?_ ?_; rotate_left; clear_value x; intro hx; rotate_right; subst x)
      | (extract_lets +onlyGivenNames x; refine keeps_have_fst (msk := msk) (s0 := s0) (x := x) ?_ ?_; rotate_left; clear_value x; intro hx; rotate_right; subst x)
      | (extract_lets +onlyGivenNames x; clear_value x) | with_reducible apply keeps_bandTok | with_reducible apply keeps_gap
      | with_reducible apply keeps_modBand | with_reducible apply keeps_ite | with_reducible apply keeps_ite_fst
      | (simp only [stOf_mk]) | split | with_reducible apply keeps_fst | dsimp only
  | cons a l ih =>
    unfold State.bandPull
    repeat' first
      | with_reducible assumption | (exact Sub.mono hm rfl) | intro _
      | (extract_lets +onlyGivenNames x; refine keeps_have (msk := msk) (s0 := s0) (x := x) ?_ ?_; rotate_left; clear_value x; intro hx; rotate_right; subst x)
      | (extract_lets +onlyGivenNames x; refine keeps_have_fst (msk := msk) (s0 := s0) (x := x) ?_ ?_; rotate_left; clear_value x; intro hx; rotate_right; subst x)
      | (extract_lets +onlyGivenNames x; clear_value x) | with_reducible apply ih | with_reducible apply keeps_bandTok
      | with_reducible apply keeps_gap | with_reducible apply keeps_modBand | with_reducible apply keeps_ite
      | with_reducible apply keeps_ite_fst | (simp only [stOf_mk]) | split | with_reducible apply keeps_fst | dsimp only

theorem keeps_bandRun {msk : Nat} {s0 s : State} (r : Nat) (b : Nat) (gap : Bool) (hk : Fr msk s0 s)
    (hm : Sub 805577733 msk := by exact Sub.mono (by assumption) rfl) :
    Fr msk s0 (State.bandRun s r b gap) := by
  unfold State.bandRun
  repeat' first
    | with_reducible assumption | (exact Sub.mono hm rfl) | intro _ | with_reducible apply keeps_bandPull
    | with_reducible apply keeps_gap | with_reducible apply keeps_inIsland | with_reducible apply keeps_ite | split
    | dsimp only

theorem keeps_execTgBandEval {q : Fin 4} {b : Fin 64} {s s' : State}
    (e : execTgBandEval q b s = .next s') : Fr 805577733 s s' := by
  unfold execTgBandEval at e
  refine keeps_next e ?_
  clear e
  have hk := Fr.refl 805577733 s
  have hm : Sub 805577733 805577733 := Sub.refl _
  repeat' first
    | with_reducible assumption | (exact Sub.mono hm rfl) | intro _ | with_reducible apply keeps_bandRun | dsimp only

theorem keeps_tgStamp {msk : Nat} {s0 s : State} (c : Nat) (edge : Nat) (t : DevTime) (hk : Fr msk s0 s)
    (hm : Sub 805576709 msk := by exact Sub.mono (by assumption) rfl) :
    Fr msk s0 (State.tgStamp s c edge t) := by
  unfold State.tgStamp
  repeat' first
    | with_reducible assumption | (exact Sub.mono hm rfl) | intro _ | with_reducible apply keeps_each
    | with_reducible apply keeps_tgCondition | with_reducible apply keeps_ite | dsimp only

theorem keeps_tgFabric {msk : Nat} {s0 s : State} (swarm : Nat) (rec_ : YRec) (hk : Fr msk s0 s)
    (hm : Sub 805576709 msk := by exact Sub.mono (by assumption) rfl) :
    Fr msk s0 (State.tgFabric s swarm rec_) := by
  unfold State.tgFabric
  repeat' first
    | with_reducible assumption | with_reducible apply keeps_tgCondition
    | (extract_lets +onlyGivenNames x; refine keeps_fun (x := x) ?_; subst x) | (exact Sub.mono hm rfl) | intro _
    | (extract_lets +onlyGivenNames x; refine keeps_have (msk := msk) (s0 := s0) (x := x) ?_ ?_; rotate_left; clear_value x; intro hx; rotate_right; subst x)
    | (extract_lets +onlyGivenNames x; clear_value x) | with_reducible apply keeps_ite | split | dsimp only

theorem keeps_execTgFabricReceive {swarm : Fin 4096} {rec_ : YRec} {s s' : State}
    (e : execTgFabricReceive swarm rec_ s = .next s') : Fr 805576709 s s' := by
  unfold execTgFabricReceive at e
  refine keeps_next e ?_
  clear e
  have hk := Fr.refl 805576709 s
  have hm : Sub 805576709 805576709 := Sub.refl _
  repeat' first
    | with_reducible assumption | (exact Sub.mono hm rfl) | intro _ | with_reducible apply keeps_tgFabric | dsimp only

theorem keeps_tgHost {msk : Nat} {s0 s : State} (p : Nat) (t : DevTime) (hk : Fr msk s0 s)
    (hm : Sub 805576709 msk := by exact Sub.mono (by assumption) rfl) :
    Fr msk s0 (State.tgHost s p t) := by
  unfold State.tgHost
  repeat' first
    | with_reducible assumption | (exact Sub.mono hm rfl) | intro _ | with_reducible apply keeps_tgCondition | dsimp only

theorem keeps_tgFireWrite {msk : Nat} {s0 s : State} (p : Nat) (v : Nat) (hk : Fr msk s0 s)
    (hm : Sub 805576709 msk := by exact Sub.mono (by assumption) rfl) :
    Fr msk s0 (stOf (State.tgFireWrite s p v)) := by
  unfold State.tgFireWrite
  repeat' first
    | with_reducible assumption | (exact Sub.mono hm rfl) | intro _
    | (extract_lets +onlyGivenNames x; refine keeps_have (msk := msk) (s0 := s0) (x := x) ?_ ?_; rotate_left; clear_value x; intro hx; rotate_right; subst x)
    | (extract_lets +onlyGivenNames x; refine keeps_have_fst (msk := msk) (s0 := s0) (x := x) ?_ ?_; rotate_left; clear_value x; intro hx; rotate_right; subst x)
    | (extract_lets +onlyGivenNames x; clear_value x) | with_reducible apply keeps_answer | with_reducible apply keeps_put
    | with_reducible apply keeps_tgHost | with_reducible apply keeps_ite | with_reducible apply keeps_ite_fst
    | (simp only [stOf_mk]) | with_reducible apply keeps_fst | dsimp only | with_reducible apply keeps_tg

theorem keeps_execTgHostFire {p : Fin 5} {s s' : State}
    (e : execTgHostFire p s = .next s') : Fr 805576709 s s' := by
  unfold execTgHostFire at e
  refine keeps_next e ?_
  clear e
  have hk := Fr.refl 805576709 s
  have hm : Sub 805576709 805576709 := Sub.refl _
  repeat' first
    | with_reducible assumption | (exact Sub.mono hm rfl) | intro _ | with_reducible apply keeps_gatedWrite
    | with_reducible apply keeps_tgFireWrite | dsimp only

theorem keeps_tgHostDue {msk : Nat} {s0 s : State}  (hk : Fr msk s0 s)
    (hm : Sub 805576709 msk := by exact Sub.mono (by assumption) rfl) :
    Fr msk s0 (State.tgHostDue s) := by
  unfold State.tgHostDue
  repeat' first
    | with_reducible assumption | (exact Sub.mono hm rfl) | intro _
    | (extract_lets +onlyGivenNames x; refine keeps_have (msk := msk) (s0 := s0) (x := x) ?_ ?_; rotate_left; clear_value x; intro hx; rotate_right; subst x)
    | (extract_lets +onlyGivenNames x; refine keeps_have_fst (msk := msk) (s0 := s0) (x := x) ?_ ?_; rotate_left; clear_value x; intro hx; rotate_right; subst x)
    | (extract_lets +onlyGivenNames x; clear_value x) | with_reducible apply keeps_tgHost | with_reducible apply keeps_ite
    | with_reducible apply keeps_ite_fst | (simp only [stOf_mk]) | split | with_reducible apply keeps_fst | dsimp only
    | with_reducible apply keeps_tg

theorem keeps_execTgHostDue  {s s' : State}
    (e : execTgHostDue  s = .next s') : Fr 805576709 s s' := by
  unfold execTgHostDue at e
  refine keeps_next e ?_
  clear e
  have hk := Fr.refl 805576709 s
  have hm : Sub 805576709 805576709 := Sub.refl _
  repeat' first
    | with_reducible assumption | (exact Sub.mono hm rfl) | intro _ | with_reducible apply keeps_tgHostDue | dsimp only

theorem keeps_seqGo {msk : Nat} {s0 s : State} (r : Nat) (u : Nat) (k : Nat) (ts : List (Nat × DevTime)) (hk : Fr msk s0 s)
    (hm : Sub 262145 msk := by exact Sub.mono (by assumption) rfl) :
    Fr msk s0 (State.seqGo s r u k ts) := by
  unfold State.seqGo
  repeat' first
    | with_reducible assumption | (exact Sub.mono hm rfl) | intro _
    | (extract_lets +onlyGivenNames x; refine keeps_have (msk := msk) (s0 := s0) (x := x) ?_ ?_; rotate_left; clear_value x; intro hx; rotate_right; subst x)
    | (extract_lets +onlyGivenNames x; clear_value x) | with_reducible apply keeps_modTgu | with_reducible apply keeps_put
    | dsimp only

theorem keeps_seqPass {msk : Nat} {s0 s : State} (r : Nat) (u : Nat) (k : Nat) (ts : List (Nat × DevTime)) (hk : Fr msk s0 s)
    (hm : Sub 805576709 msk := by exact Sub.mono (by assumption) rfl) :
    Fr msk s0 (State.seqPass s r u k ts) := by
  unfold State.seqPass
  repeat' first
    | with_reducible assumption | (exact Sub.mono hm rfl) | intro _
    | (extract_lets +onlyGivenNames x; refine keeps_have (msk := msk) (s0 := s0) (x := x) ?_ ?_; rotate_left; clear_value x; intro hx; rotate_right; subst x)
    | (extract_lets +onlyGivenNames x; refine keeps_have_fst (msk := msk) (s0 := s0) (x := x) ?_ ?_; rotate_left; clear_value x; intro hx; rotate_right; subst x)
    | (extract_lets +onlyGivenNames x; clear_value x) | with_reducible apply keeps_seqGo
    | with_reducible apply keeps_tgCondition | with_reducible apply keeps_foldl | with_reducible apply keeps_foldl_fst
    | with_reducible apply keeps_ite | with_reducible apply keeps_ite_fst | (simp only [stOf_mk])
    | with_reducible apply keeps_fst | dsimp only

theorem keeps_seqTake {msk : Nat} {s0 s : State} (r : Nat) (u : Nat) (h : Nat × DevTime) (hk : Fr msk s0 s)
    (hm : Sub 805576709 msk := by exact Sub.mono (by assumption) rfl) :
    Fr msk s0 (State.seqTake s r u h) := by
  unfold State.seqTake
  repeat' first
    | with_reducible assumption | (exact Sub.mono hm rfl) | intro _
    | (extract_lets +onlyGivenNames x; refine keeps_have (msk := msk) (s0 := s0) (x := x) ?_ ?_; rotate_left; clear_value x; intro hx; rotate_right; subst x)
    | (extract_lets +onlyGivenNames x; refine keeps_have_fst (msk := msk) (s0 := s0) (x := x) ?_ ?_; rotate_left; clear_value x; intro hx; rotate_right; subst x)
    | (extract_lets +onlyGivenNames x; clear_value x) | with_reducible apply keeps_seqGo | with_reducible apply keeps_seqPass
    | with_reducible apply keeps_ite | with_reducible apply keeps_ite_fst | (simp only [stOf_mk])
    | with_reducible apply keeps_fst | dsimp only

theorem keeps_seqRelease {msk : Nat} {s0 s : State} (r : Nat) (u : Nat) (hk : Fr msk s0 s)
    (hm : Sub 805576709 msk := by exact Sub.mono (by assumption) rfl) :
    Fr msk s0 (State.seqRelease s r u) := by
  unfold State.seqRelease
  repeat' first
    | with_reducible assumption | (exact Sub.mono hm rfl) | intro _
    | (extract_lets +onlyGivenNames x; refine keeps_have (msk := msk) (s0 := s0) (x := x) ?_ ?_; rotate_left; clear_value x; intro hx; rotate_right; subst x)
    | (extract_lets +onlyGivenNames x; refine keeps_have_fst (msk := msk) (s0 := s0) (x := x) ?_ ?_; rotate_left; clear_value x; intro hx; rotate_right; subst x)
    | (extract_lets +onlyGivenNames x; clear_value x) | with_reducible apply keeps_modTgu
    | with_reducible apply keeps_seqTake | with_reducible apply keeps_ite | with_reducible apply keeps_ite_fst
    | (simp only [stOf_mk]) | split | with_reducible apply keeps_fst | dsimp only

theorem keeps_execTgSeqHoldRelease {q : Fin 4} {u : Fin 2} {s s' : State}
    (e : execTgSeqHoldRelease q u s = .next s') : Fr 805576709 s s' := by
  unfold execTgSeqHoldRelease at e
  refine keeps_next e ?_
  clear e
  have hk := Fr.refl 805576709 s
  have hm : Sub 805576709 805576709 := Sub.refl _
  repeat' first
    | with_reducible assumption | (exact Sub.mono hm rfl) | intro _ | with_reducible apply keeps_seqRelease | dsimp only

theorem keeps_seqTimeout {msk : Nat} {s0 s : State} (r : Nat) (u : Nat) (hk : Fr msk s0 s)
    (hm : Sub 262145 msk := by exact Sub.mono (by assumption) rfl) :
    Fr msk s0 (State.seqTimeout s r u) := by
  unfold State.seqTimeout
  repeat' first
    | with_reducible assumption | (exact Sub.mono hm rfl) | intro _
    | (extract_lets +onlyGivenNames x; refine keeps_have (msk := msk) (s0 := s0) (x := x) ?_ ?_; rotate_left; clear_value x; intro hx; rotate_right; subst x)
    | (extract_lets +onlyGivenNames x; refine keeps_have_fst (msk := msk) (s0 := s0) (x := x) ?_ ?_; rotate_left; clear_value x; intro hx; rotate_right; subst x)
    | (extract_lets +onlyGivenNames x; clear_value x) | with_reducible apply keeps_seqGo | with_reducible apply keeps_ite
    | with_reducible apply keeps_ite_fst | (simp only [stOf_mk]) | with_reducible apply keeps_fst | dsimp only

theorem keeps_execTgSeqTimeout {q : Fin 4} {u : Fin 2} {s s' : State}
    (e : execTgSeqTimeout q u s = .next s') : Fr 262145 s s' := by
  unfold execTgSeqTimeout at e
  refine keeps_next e ?_
  clear e
  have hk := Fr.refl 262145 s
  have hm : Sub 262145 262145 := Sub.refl _
  repeat' first
    | with_reducible assumption | (exact Sub.mono hm rfl) | intro _ | with_reducible apply keeps_seqTimeout | dsimp only

theorem keeps_tgTimeStep {msk : Nat} {s0 s : State} (m : Marker) (hk : Fr msk s0 s)
    (hm : Sub 262145 msk := by exact Sub.mono (by assumption) rfl) :
    Fr msk s0 (State.tgTimeStep s m) := by
  unfold State.tgTimeStep
  repeat' first
    | with_reducible assumption | (exact Sub.mono hm rfl) | intro _
    | (extract_lets +onlyGivenNames x; refine keeps_have (msk := msk) (s0 := s0) (x := x) ?_ ?_; rotate_left; clear_value x; intro hx; rotate_right; subst x)
    | (extract_lets +onlyGivenNames x; refine keeps_have_fst (msk := msk) (s0 := s0) (x := x) ?_ ?_; rotate_left; clear_value x; intro hx; rotate_right; subst x)
    | (extract_lets +onlyGivenNames x; clear_value x) | with_reducible apply keeps_each | with_reducible apply keeps_ifThen
    | with_reducible apply keeps_modTgu | with_reducible apply keeps_put | with_reducible apply keeps_seqGo
    | with_reducible apply keeps_ite | with_reducible apply keeps_ite_fst | (simp only [stOf_mk])
    | with_reducible apply keeps_fst | dsimp only | with_reducible apply keeps_tg

/-! ### Drift -/

theorem keeps_drClusterEnd {msk : Nat} {s0 s : State} (r : Nat) (hk : Fr msk s0 s)
    (hm : Sub 805576709 msk := by exact Sub.mono (by assumption) rfl) :
    Fr msk s0 (State.drClusterEnd s r) := by
  unfold State.drClusterEnd
  repeat' first
    | with_reducible assumption | (exact Sub.mono hm rfl) | intro _
    | (extract_lets +onlyGivenNames x; refine keeps_have (msk := msk) (s0 := s0) (x := x) ?_ ?_; rotate_left; clear_value x; intro hx; rotate_right; subst x)
    | (extract_lets +onlyGivenNames x; refine keeps_have_fst (msk := msk) (s0 := s0) (x := x) ?_ ?_; rotate_left; clear_value x; intro hx; rotate_right; subst x)
    | (extract_lets +onlyGivenNames x; clear_value x) | with_reducible apply keeps_count
    | with_reducible apply keeps_modDrift | with_reducible apply keeps_modTgu | with_reducible apply keeps_put
    | with_reducible apply keeps_tgEmit | with_reducible apply keeps_useFree | with_reducible apply keeps_foldl
    | with_reducible apply keeps_foldl_fst | with_reducible apply keeps_ite | with_reducible apply keeps_ite_fst
    | (simp only [stOf_mk]) | split | with_reducible apply keeps_fst | dsimp only

theorem keeps_execTgDriftClusterEnd {q : Fin 4} {s s' : State}
    (e : execTgDriftClusterEnd q s = .next s') : Fr 805576709 s s' := by
  unfold execTgDriftClusterEnd at e
  refine keeps_next e ?_
  clear e
  have hk := Fr.refl 805576709 s
  have hm : Sub 805576709 805576709 := Sub.refl _
  repeat' first
    | with_reducible assumption | (exact Sub.mono hm rfl) | intro _ | with_reducible apply keeps_drClusterEnd | dsimp only

theorem keeps_driftRestart {msk : Nat} {s0 s : State} (r : Nat) (src : Nat) (hk : Fr msk s0 s)
    (hm : Sub 805576709 msk := by exact Sub.mono (by assumption) rfl) :
    Fr msk s0 (State.driftRestart s r src) := by
  unfold State.driftRestart
  repeat' first
    | with_reducible assumption | (exact Sub.mono hm rfl) | intro _
    | (extract_lets +onlyGivenNames x; refine keeps_have (msk := msk) (s0 := s0) (x := x) ?_ ?_; rotate_left; clear_value x; intro hx; rotate_right; subst x)
    | (extract_lets +onlyGivenNames x; refine keeps_have_fst (msk := msk) (s0 := s0) (x := x) ?_ ?_; rotate_left; clear_value x; intro hx; rotate_right; subst x)
    | (extract_lets +onlyGivenNames x; clear_value x) | with_reducible apply keeps_drClusterEnd
    | with_reducible apply keeps_modDrift | with_reducible apply keeps_ite | with_reducible apply keeps_ite_fst
    | (simp only [stOf_mk]) | split | with_reducible apply keeps_fst | dsimp only

theorem keeps_driftTake {msk : Nat} {s0 s : State} (r : Nat) (src : Nat) (d : DetSpec) (hk : Fr msk s0 s)
    (hm : Sub 805578245 msk := by exact Sub.mono (by assumption) rfl) :
    Fr msk s0 (State.driftTake s r src d) := by
  unfold State.driftTake
  repeat' first
    | with_reducible assumption | (exact Sub.mono hm rfl) | intro _
    | (extract_lets +onlyGivenNames x; refine keeps_have (msk := msk) (s0 := s0) (x := x) ?_ ?_; rotate_left; clear_value x; intro hx; rotate_right; subst x)
    | (extract_lets +onlyGivenNames x; refine keeps_have_fst (msk := msk) (s0 := s0) (x := x) ?_ ?_; rotate_left; clear_value x; intro hx; rotate_right; subst x)
    | (extract_lets +onlyGivenNames x; clear_value x) | with_reducible apply keeps_cmWake
    | with_reducible apply keeps_driftRestart | with_reducible apply keeps_modDrift | with_reducible apply keeps_foldl
    | with_reducible apply keeps_foldl_fst | with_reducible apply keeps_ite | with_reducible apply keeps_ite_fst
    | (simp only [stOf_mk]) | split | with_reducible apply keeps_fst | dsimp only

theorem keeps_driftTok {msk : Nat} {s0 s : State} (r : Nat) (t : Nat × DetTok) (hk : Fr msk s0 s)
    (hm : Sub 805578245 msk := by exact Sub.mono (by assumption) rfl) :
    Fr msk s0 (State.driftTok s r t) := by
  unfold State.driftTok
  repeat' first
    | with_reducible assumption | (exact Sub.mono hm rfl) | intro _
    | (extract_lets +onlyGivenNames x; refine keeps_have (msk := msk) (s0 := s0) (x := x) ?_ ?_; rotate_left; clear_value x; intro hx; rotate_right; subst x)
    | (extract_lets +onlyGivenNames x; refine keeps_have_fst (msk := msk) (s0 := s0) (x := x) ?_ ?_; rotate_left; clear_value x; intro hx; rotate_right; subst x)
    | (extract_lets +onlyGivenNames x; clear_value x) | with_reducible apply keeps_driftTake | with_reducible apply keeps_gap
    | with_reducible apply keeps_modDrift | with_reducible apply keeps_tgMarks | with_reducible apply keeps_ite
    | with_reducible apply keeps_ite_fst | (simp only [stOf_mk]) | split | with_reducible apply keeps_fst | dsimp only

theorem keeps_drBlindEnd {msk : Nat} {s0 s : State} (r : Nat) (t : DevTime) (hk : Fr msk s0 s)
    (hm : Sub 805568517 msk := by exact Sub.mono (by assumption) rfl) :
    Fr msk s0 (State.drBlindEnd s r t) := by
  unfold State.drBlindEnd
  repeat' first
    | with_reducible assumption | (exact Sub.mono hm rfl) | intro _
    | (extract_lets +onlyGivenNames x; refine keeps_have (msk := msk) (s0 := s0) (x := x) ?_ ?_; rotate_left; clear_value x; intro hx; rotate_right; subst x)
    | (extract_lets +onlyGivenNames x; clear_value x) | with_reducible apply keeps_blindFor
    | with_reducible apply keeps_modDrift | with_reducible apply keeps_put | with_reducible apply keeps_ite | split
    | dsimp only

theorem keeps_drEval {msk : Nat} {s0 s : State} (r : Nat) (hk : Fr msk s0 s)
    (hm : Sub 805576709 msk := by exact Sub.mono (by assumption) rfl) :
    Fr msk s0 (State.drEval s r) := by
  unfold State.drEval
  repeat' first
    | with_reducible assumption | (exact Sub.mono hm rfl) | intro _
    | (extract_lets +onlyGivenNames x; refine keeps_have (msk := msk) (s0 := s0) (x := x) ?_ ?_; rotate_left; clear_value x; intro hx; rotate_right; subst x)
    | (extract_lets +onlyGivenNames x; refine keeps_have_fst (msk := msk) (s0 := s0) (x := x) ?_ ?_; rotate_left; clear_value x; intro hx; rotate_right; subst x)
    | (extract_lets +onlyGivenNames x; clear_value x) | with_reducible apply keeps_blindFor
    | with_reducible apply keeps_drBlindEnd | with_reducible apply keeps_drClusterEnd | with_reducible apply keeps_modDrift
    | with_reducible apply keeps_put | with_reducible apply keeps_tgRelease | with_reducible apply keeps_foldl
    | with_reducible apply keeps_foldl_fst | with_reducible apply keeps_ite | with_reducible apply keeps_ite_fst
    | (simp only [stOf_mk]) | split | with_reducible apply keeps_fst | dsimp only

theorem keeps_drPull {msk : Nat} {s0 s : State} (r : Nat) (x0 : List (Nat × DetTok)) (hk : Fr msk s0 s)
    (hm : Sub 805578245 msk := by exact Sub.mono (by assumption) rfl) : Fr msk s0 (State.drPull r x0 s) := by
  induction x0 generalizing s with
  | nil =>
    unfold State.drPull
    repeat' first
      | with_reducible assumption | (exact Sub.mono hm rfl) | intro _
      | (extract_lets +onlyGivenNames x; refine keeps_have (msk := msk) (s0 := s0) (x := x) ?_ ?_; rotate_left; clear_value x; intro hx; rotate_right; subst x)
      | (extract_lets +onlyGivenNames x; clear_value x) | with_reducible apply keeps_drEval
      | with_reducible apply keeps_driftTok | with_reducible apply keeps_modDrift | with_reducible apply keeps_ite | split
      | dsimp only
  | cons a l ih =>
    unfold State.drPull
    repeat' first
      | with_reducible assumption | (exact Sub.mono hm rfl) | intro _
      | (extract_lets +onlyGivenNames x; refine keeps_have (msk := msk) (s0 := s0) (x := x) ?_ ?_; rotate_left; clear_value x; intro hx; rotate_right; subst x)
      | (extract_lets +onlyGivenNames x; clear_value x) | with_reducible apply ih | with_reducible apply keeps_drEval
      | with_reducible apply keeps_driftTok | with_reducible apply keeps_modDrift | with_reducible apply keeps_ite | split
      | dsimp only

theorem keeps_drRun {msk : Nat} {s0 s : State} (r : Nat) (f : State → State) (h_f : ∀ t , Fr msk s0 t → Fr msk s0 (f t )) (hk : Fr msk s0 s)
    (hm : Sub 0 msk := by exact Sub.mono (by assumption) rfl) :
    Fr msk s0 (State.drRun s r f) := by
  unfold State.drRun
  repeat' first
    | with_reducible assumption | (exact Sub.mono hm rfl) | intro _ | with_reducible apply keeps_inIsland
    | with_reducible apply h_f | with_reducible apply keeps_ite | split | dsimp only

theorem keeps_execTgDriftStepEval {q : Fin 4} {s s' : State}
    (e : execTgDriftStepEval q s = .next s') : Fr 805578245 s s' := by
  unfold execTgDriftStepEval at e
  refine keeps_next e ?_
  clear e
  have hk := Fr.refl 805578245 s
  have hm : Sub 805578245 805578245 := Sub.refl _
  repeat' first
    | with_reducible assumption | (exact Sub.mono hm rfl) | intro _ | with_reducible apply keeps_drPull
    | with_reducible apply keeps_drRun | dsimp only

theorem keeps_drGapPull {msk : Nat} {s0 s : State} (r : Nat) (x0 : List (Nat × DetTok)) (hk : Fr msk s0 s)
    (hm : Sub 805578245 msk := by exact Sub.mono (by assumption) rfl) : Fr msk s0 (State.drGapPull r x0 s) := by
  induction x0 generalizing s with
  | nil =>
    unfold State.drGapPull
    repeat' first
      | with_reducible assumption | (exact Sub.mono hm rfl) | intro _
      | (extract_lets +onlyGivenNames x; refine keeps_have (msk := msk) (s0 := s0) (x := x) ?_ ?_; rotate_left; clear_value x; intro hx; rotate_right; subst x)
      | (extract_lets +onlyGivenNames x; refine keeps_have_fst (msk := msk) (s0 := s0) (x := x) ?_ ?_; rotate_left; clear_value x; intro hx; rotate_right; subst x)
      | (extract_lets +onlyGivenNames x; clear_value x) | with_reducible apply keeps_driftTok
      | with_reducible apply keeps_gap | with_reducible apply keeps_modDrift | (simp only [stOf_mk]) | split
      | with_reducible apply keeps_fst | dsimp only
  | cons a l ih =>
    unfold State.drGapPull
    repeat' first
      | with_reducible assumption | (exact Sub.mono hm rfl) | intro _
      | (extract_lets +onlyGivenNames x; refine keeps_have (msk := msk) (s0 := s0) (x := x) ?_ ?_; rotate_left; clear_value x; intro hx; rotate_right; subst x)
      | (extract_lets +onlyGivenNames x; refine keeps_have_fst (msk := msk) (s0 := s0) (x := x) ?_ ?_; rotate_left; clear_value x; intro hx; rotate_right; subst x)
      | (extract_lets +onlyGivenNames x; clear_value x) | with_reducible apply ih | with_reducible apply keeps_driftTok
      | with_reducible apply keeps_gap | with_reducible apply keeps_modDrift | (simp only [stOf_mk]) | split
      | with_reducible apply keeps_fst | dsimp only

theorem keeps_tgStart {msk : Nat} {s0 s : State} (r : Nat) (u : Nat) (hk : Fr msk s0 s)
    (hm : Sub 537134085 msk := by exact Sub.mono (by assumption) rfl) :
    Fr msk s0 (State.tgStart s r u) := by
  unfold State.tgStart
  repeat' first
    | with_reducible assumption | (exact Sub.mono hm rfl) | intro _
    | (extract_lets +onlyGivenNames x; refine keeps_have (msk := msk) (s0 := s0) (x := x) ?_ ?_; rotate_left; clear_value x; intro hx; rotate_right; subst x)
    | (extract_lets +onlyGivenNames x; clear_value x) | with_reducible apply keeps_alloc | with_reducible apply keeps_each
    | with_reducible apply keeps_modBand | with_reducible apply keeps_modDrift | with_reducible apply keeps_modTgu
    | with_reducible apply keeps_put | with_reducible apply keeps_setTraffic | with_reducible apply keeps_setVal
    | with_reducible apply keeps_tieAllD | with_reducible apply keeps_useFree | with_reducible apply keeps_foldl
    | with_reducible apply keeps_foldl_fst | with_reducible apply keeps_ite | split | dsimp only
    | with_reducible apply keeps_tg

theorem keeps_tgStop {msk : Nat} {s0 s : State} (r : Nat) (u : Nat) (hk : Fr msk s0 s)
    (hm : Sub 805569541 msk := by exact Sub.mono (by assumption) rfl) :
    Fr msk s0 (State.tgStop s r u) := by
  unfold State.tgStop
  repeat' first
    | with_reducible assumption | (exact Sub.mono hm rfl) | intro _
    | (extract_lets +onlyGivenNames x; refine keeps_have (msk := msk) (s0 := s0) (x := x) ?_ ?_; rotate_left; clear_value x; intro hx; rotate_right; subst x)
    | (extract_lets +onlyGivenNames x; clear_value x) | with_reducible apply keeps_each | with_reducible apply keeps_free
    | with_reducible apply keeps_freePort | with_reducible apply keeps_modBand | with_reducible apply keeps_modDrift
    | with_reducible apply keeps_modTgu | with_reducible apply keeps_put | with_reducible apply keeps_setTraffic
    | with_reducible apply keeps_setVal | with_reducible apply keeps_tgRelease | split | dsimp only
    | with_reducible apply keeps_tg

theorem keeps_tgArm {msk : Nat} {s0 s : State} (r : Nat) (u : Nat) (hk : Fr msk s0 s)
    (hm : Sub 262145 msk := by exact Sub.mono (by assumption) rfl) :
    Fr msk s0 (stOf (State.tgArm s r u)) := by
  unfold State.tgArm
  repeat' first
    | with_reducible assumption | (exact Sub.mono hm rfl) | intro _
    | (extract_lets +onlyGivenNames x; refine keeps_have (msk := msk) (s0 := s0) (x := x) ?_ ?_; rotate_left; clear_value x; intro hx; rotate_right; subst x)
    | (extract_lets +onlyGivenNames x; refine keeps_have_fst (msk := msk) (s0 := s0) (x := x) ?_ ?_; rotate_left; clear_value x; intro hx; rotate_right; subst x)
    | (extract_lets +onlyGivenNames x; clear_value x) | with_reducible apply keeps_answer | with_reducible apply keeps_modTgu
    | with_reducible apply keeps_put | with_reducible apply keeps_ite | with_reducible apply keeps_ite_fst
    | (simp only [stOf_mk]) | split | with_reducible apply keeps_fst | dsimp only

theorem keeps_tgCtlWrite {msk : Nat} {s0 s : State} (r : Nat) (u : Nat) (v : Nat) (hk : Fr msk s0 s)
    (hm : Sub 805569541 msk := by exact Sub.mono (by assumption) rfl) :
    Fr msk s0 (stOf (State.tgCtlWrite s r u v)) := by
  unfold State.tgCtlWrite
  repeat' first
    | with_reducible assumption | (exact Sub.mono hm rfl) | intro _
    | (extract_lets +onlyGivenNames x; refine keeps_have (msk := msk) (s0 := s0) (x := x) ?_ ?_; rotate_left; clear_value x; intro hx; rotate_right; subst x)
    | (extract_lets +onlyGivenNames x; refine keeps_have_fst (msk := msk) (s0 := s0) (x := x) ?_ ?_; rotate_left; clear_value x; intro hx; rotate_right; subst x)
    | (extract_lets +onlyGivenNames x; clear_value x) | with_reducible apply keeps_answer
    | with_reducible apply keeps_plainWrite | with_reducible apply keeps_put | with_reducible apply keeps_tgArm
    | with_reducible apply keeps_tgStart | with_reducible apply keeps_tgStop | with_reducible apply keeps_ite
    | with_reducible apply keeps_ite_fst | (simp only [stOf_mk]) | with_reducible apply keeps_fst | dsimp only

theorem keeps_execTgUnitArm {p : Fin 5} {r : Fin 5} {u : Fin 16} {s s' : State}
    (e : execTgUnitArm p r u s = .next s') : Fr 805569541 s s' := by
  unfold execTgUnitArm at e
  refine keeps_next e ?_
  clear e
  have hk := Fr.refl 805569541 s
  have hm : Sub 805569541 805569541 := Sub.refl _
  repeat' first
    | with_reducible assumption | (exact Sub.mono hm rfl) | intro _ | with_reducible apply keeps_gatedWrite
    | with_reducible apply keeps_tgCtlWrite | with_reducible apply keeps_ite | dsimp only

theorem keeps_tgSetWrite {msk : Nat} {s0 s : State} (name : RegName) (r : Nat) (u : Nat) (a : Nat) (v : Nat) (hk : Fr msk s0 s)
    (hm : Sub 1 msk := by exact Sub.mono (by assumption) rfl) :
    Fr msk s0 (stOf (State.tgSetWrite s name r u a v)) := by
  unfold State.tgSetWrite
  repeat' first
    | with_reducible assumption | (exact Sub.mono hm rfl) | intro _
    | (extract_lets +onlyGivenNames x; refine keeps_have (msk := msk) (s0 := s0) (x := x) ?_ ?_; rotate_left; clear_value x; intro hx; rotate_right; subst x)
    | (extract_lets +onlyGivenNames x; refine keeps_have_fst (msk := msk) (s0 := s0) (x := x) ?_ ?_; rotate_left; clear_value x; intro hx; rotate_right; subst x)
    | (extract_lets +onlyGivenNames x; clear_value x) | with_reducible apply keeps_answer
    | with_reducible apply keeps_plainWrite | with_reducible apply keeps_put | with_reducible apply keeps_ite
    | with_reducible apply keeps_ite_fst | (simp only [stOf_mk]) | with_reducible apply keeps_fst | dsimp only

theorem keeps_pdataWrite {msk : Nat} {s0 s : State} (r : Nat) (u : Nat) (v : Nat) (hk : Fr msk s0 s)
    (hm : Sub 262145 msk := by exact Sub.mono (by assumption) rfl) :
    Fr msk s0 (stOf (State.pdataWrite s r u v)) := by
  unfold State.pdataWrite
  repeat' first
    | with_reducible assumption | (exact Sub.mono hm rfl) | intro _
    | (extract_lets +onlyGivenNames x; refine keeps_have (msk := msk) (s0 := s0) (x := x) ?_ ?_; rotate_left; clear_value x; intro hx; rotate_right; subst x)
    | (extract_lets +onlyGivenNames x; refine keeps_have_fst (msk := msk) (s0 := s0) (x := x) ?_ ?_; rotate_left; clear_value x; intro hx; rotate_right; subst x)
    | (extract_lets +onlyGivenNames x; clear_value x) | with_reducible apply keeps_answer | with_reducible apply keeps_put
    | with_reducible apply keeps_ite | with_reducible apply keeps_ite_fst | (simp only [stOf_mk])
    | with_reducible apply keeps_fst | dsimp only | with_reducible apply keeps_tg

theorem keeps_pdataRead {msk : Nat} {s0 s : State} (r : Nat) (u : Nat) (hk : Fr msk s0 s)
    (hm : Sub 1 msk := by exact Sub.mono (by assumption) rfl) :
    Fr msk s0 (stOf (State.pdataRead s r u)) := by
  unfold State.pdataRead
  repeat' first
    | with_reducible assumption | (exact Sub.mono hm rfl) | intro _
    | (extract_lets +onlyGivenNames x; refine keeps_have (msk := msk) (s0 := s0) (x := x) ?_ ?_; rotate_left; clear_value x; intro hx; rotate_right; subst x)
    | (extract_lets +onlyGivenNames x; refine keeps_have_fst (msk := msk) (s0 := s0) (x := x) ?_ ?_; rotate_left; clear_value x; intro hx; rotate_right; subst x)
    | (extract_lets +onlyGivenNames x; clear_value x) | with_reducible apply keeps_put | (simp only [stOf_mk])
    | with_reducible apply keeps_fst | dsimp only

theorem keeps_lawWrite {msk : Nat} {s0 s : State} (r : Nat) (v : Nat) (hk : Fr msk s0 s)
    (hm : Sub 262145 msk := by exact Sub.mono (by assumption) rfl) :
    Fr msk s0 (stOf (State.lawWrite s r v)) := by
  unfold State.lawWrite
  repeat' first
    | with_reducible assumption | (exact Sub.mono hm rfl) | intro _
    | (extract_lets +onlyGivenNames x; refine keeps_have (msk := msk) (s0 := s0) (x := x) ?_ ?_; rotate_left; clear_value x; intro hx; rotate_right; subst x)
    | (extract_lets +onlyGivenNames x; refine keeps_have_fst (msk := msk) (s0 := s0) (x := x) ?_ ?_; rotate_left; clear_value x; intro hx; rotate_right; subst x)
    | (extract_lets +onlyGivenNames x; clear_value x) | with_reducible apply keeps_answer | with_reducible apply keeps_put
    | with_reducible apply keeps_ite | with_reducible apply keeps_ite_fst | (simp only [stOf_mk])
    | with_reducible apply keeps_fst | dsimp only | with_reducible apply keeps_tg

theorem keeps_lawRead {msk : Nat} {s0 s : State} (r : Nat) (hk : Fr msk s0 s)
    (hm : Sub 1 msk := by exact Sub.mono (by assumption) rfl) :
    Fr msk s0 (stOf (State.lawRead s r)) := by
  unfold State.lawRead
  repeat' first
    | with_reducible assumption | (exact Sub.mono hm rfl) | intro _
    | (extract_lets +onlyGivenNames x; refine keeps_have (msk := msk) (s0 := s0) (x := x) ?_ ?_; rotate_left; clear_value x; intro hx; rotate_right; subst x)
    | (extract_lets +onlyGivenNames x; refine keeps_have_fst (msk := msk) (s0 := s0) (x := x) ?_ ?_; rotate_left; clear_value x; intro hx; rotate_right; subst x)
    | (extract_lets +onlyGivenNames x; clear_value x) | with_reducible apply keeps_put | (simp only [stOf_mk])
    | with_reducible apply keeps_fst | dsimp only

theorem keeps_tgSourceGap {msk : Nat} {s0 s : State} (r : Nat) (u : Nat) (hk : Fr msk s0 s)
    (hm : Sub 805578245 msk := by exact Sub.mono (by assumption) rfl) :
    Fr msk s0 (State.tgSourceGap s r u) := by
  unfold State.tgSourceGap
  repeat' first
    | with_reducible assumption | (exact Sub.mono hm rfl) | intro _
    | (extract_lets +onlyGivenNames x; refine keeps_have (msk := msk) (s0 := s0) (x := x) ?_ ?_; rotate_left; clear_value x; intro hx; rotate_right; subst x)
    | (extract_lets +onlyGivenNames x; clear_value x) | with_reducible apply keeps_bandRun
    | with_reducible apply keeps_drGapPull | with_reducible apply keeps_drRun | with_reducible apply keeps_each
    | with_reducible apply keeps_unitRun | split | dsimp only

theorem keeps_execTgSourceGap {r : Fin 5} {u : Fin 16} {s s' : State}
    (e : execTgSourceGap r u s = .next s') : Fr 805578245 s s' := by
  unfold execTgSourceGap at e
  refine keeps_next e ?_
  clear e
  have hk := Fr.refl 805578245 s
  have hm : Sub 805578245 805578245 := Sub.refl _
  repeat' first
    | with_reducible assumption | (exact Sub.mono hm rfl) | intro _ | with_reducible apply keeps_tgSourceGap | dsimp only

theorem keeps_tgDrain {msk : Nat} {s0 s : State} (r : Nat) (u : Nat) (hk : Fr msk s0 s)
    (hm : Sub 805578245 msk := by exact Sub.mono (by assumption) rfl) :
    Fr msk s0 (State.tgDrain s r u) := by
  unfold State.tgDrain
  repeat' first
    | with_reducible assumption | (exact Sub.mono hm rfl) | intro _
    | (extract_lets +onlyGivenNames x; refine keeps_have (msk := msk) (s0 := s0) (x := x) ?_ ?_; rotate_left; clear_value x; intro hx; rotate_right; subst x)
    | (extract_lets +onlyGivenNames x; refine keeps_have_fst (msk := msk) (s0 := s0) (x := x) ?_ ?_; rotate_left; clear_value x; intro hx; rotate_right; subst x)
    | (extract_lets +onlyGivenNames x; clear_value x) | with_reducible apply keeps_bandTok
    | with_reducible apply keeps_drEval | with_reducible apply keeps_driftTok | with_reducible apply keeps_each
    | with_reducible apply keeps_levelTok | with_reducible apply keeps_maskTok | with_reducible apply keeps_modBand
    | with_reducible apply keeps_modDrift | with_reducible apply keeps_modTgu | with_reducible apply keeps_foldl
    | with_reducible apply keeps_foldl_fst | with_reducible apply keeps_ite | with_reducible apply keeps_ite_fst
    | (simp only [stOf_mk]) | split | with_reducible apply keeps_fst | dsimp only

theorem keeps_tgSourceOff {msk : Nat} {s0 s : State} (r : Nat) (u : Nat) (hk : Fr msk s0 s)
    (hm : Sub 805578245 msk := by exact Sub.mono (by assumption) rfl) :
    Fr msk s0 (State.tgSourceOff s r u) := by
  unfold State.tgSourceOff
  repeat' first
    | with_reducible assumption | (exact Sub.mono hm rfl) | intro _
    | (extract_lets +onlyGivenNames x; refine keeps_have (msk := msk) (s0 := s0) (x := x) ?_ ?_; rotate_left; clear_value x; intro hx; rotate_right; subst x)
    | (extract_lets +onlyGivenNames x; refine keeps_have_fst (msk := msk) (s0 := s0) (x := x) ?_ ?_; rotate_left; clear_value x; intro hx; rotate_right; subst x)
    | (extract_lets +onlyGivenNames x; clear_value x) | with_reducible apply keeps_blindFor | with_reducible apply keeps_put
    | with_reducible apply keeps_tgDrain | with_reducible apply keeps_tgStop | with_reducible apply keeps_getD
    | with_reducible apply keeps_ite | with_reducible apply keeps_ite_fst | (simp only [stOf_mk]) | split
    | with_reducible apply keeps_fst | dsimp only

theorem keeps_sourcesOff {msk : Nat} {s0 s : State}  (hk : Fr msk s0 s)
    (hm : Sub 805709317 msk := by exact Sub.mono (by assumption) rfl) :
    Fr msk s0 (State.sourcesOff s) := by
  unfold State.sourcesOff
  repeat' first
    | with_reducible assumption | (exact Sub.mono hm rfl) | intro _
    | (extract_lets +onlyGivenNames x; refine keeps_have (msk := msk) (s0 := s0) (x := x) ?_ ?_; rotate_left; clear_value x; intro hx; rotate_right; subst x)
    | (extract_lets +onlyGivenNames x; clear_value x) | with_reducible apply keeps_dcSourceOff
    | with_reducible apply keeps_each | with_reducible apply keeps_tgSourceOff | dsimp only

theorem keeps_sourceWrite {msk : Nat} {s0 s : State} (p : Nat) (a : Nat) (f : State → State × Nat) (h_f : ∀ t , Fr msk s0 t → Fr msk s0 (stOf (f t ))) (hk : Fr msk s0 s)
    (hm : Sub 805709317 msk := by exact Sub.mono (by assumption) rfl) :
    Fr msk s0 (State.sourceWrite s p a f) := by
  unfold State.sourceWrite
  repeat' first
    | with_reducible assumption | (exact Sub.mono hm rfl) | intro _ | with_reducible apply keeps_gatedWrite
    | with_reducible apply keeps_sourcesOff | with_reducible apply h_f | dsimp only

/-! ### Sources -/

theorem keeps_execAfInputEnable {p : Fin 5} {n : Fin 16} {v : Word} {s s' : State}
    (e : execAfInputEnable p n v s = .next s') : Fr 805793285 s s' := by
  unfold execAfInputEnable at e
  refine keeps_next e ?_
  clear e
  have hk := Fr.refl 805793285 s
  have hm : Sub 805793285 805793285 := Sub.refl _
  repeat' first
    | with_reducible assumption | (exact Sub.mono hm rfl) | intro _ | with_reducible apply keeps_afCtlWrite
    | with_reducible apply keeps_sourceWrite | dsimp only

theorem keeps_execAfInputDisable {p : Fin 5} {n : Fin 16} {s s' : State}
    (e : execAfInputDisable p n s = .next s') : Fr 805793285 s s' := by
  unfold execAfInputDisable at e
  refine keeps_next e ?_
  clear e
  have hk := Fr.refl 805793285 s
  have hm : Sub 805793285 805793285 := Sub.refl _
  repeat' first
    | with_reducible assumption | (exact Sub.mono hm rfl) | intro _ | with_reducible apply keeps_afCtlWrite
    | with_reducible apply keeps_sourceWrite | dsimp only

theorem keeps_execZpEnable {p : Fin 5} {z : Fin 64} {v : Word} {s s' : State}
    (e : execZpEnable p z v s = .next s') : Fr 805725701 s s' := by
  unfold execZpEnable at e
  refine keeps_next e ?_
  clear e
  have hk := Fr.refl 805725701 s
  have hm : Sub 805725701 805725701 := Sub.refl _
  repeat' first
    | with_reducible assumption | (exact Sub.mono hm rfl) | intro _ | with_reducible apply keeps_sourceWrite
    | with_reducible apply keeps_zpCtlWrite | dsimp only

theorem keeps_execZpDisable {p : Fin 5} {z : Fin 64} {s s' : State}
    (e : execZpDisable p z s = .next s') : Fr 805725701 s s' := by
  unfold execZpDisable at e
  refine keeps_next e ?_
  clear e
  have hk := Fr.refl 805725701 s
  have hm : Sub 805725701 805725701 := Sub.refl _
  repeat' first
    | with_reducible assumption | (exact Sub.mono hm rfl) | intro _ | with_reducible apply keeps_sourceWrite
    | with_reducible apply keeps_zpCtlWrite | dsimp only

theorem keeps_execZtuEnable {p : Fin 5} {i : Fin 4} {v : Word} {s s' : State}
    (e : execZtuEnable p i v s = .next s') : Fr 805742085 s s' := by
  unfold execZtuEnable at e
  refine keeps_next e ?_
  clear e
  have hk := Fr.refl 805742085 s
  have hm : Sub 805742085 805742085 := Sub.refl _
  repeat' first
    | with_reducible assumption | (exact Sub.mono hm rfl) | intro _ | with_reducible apply keeps_sourceWrite
    | with_reducible apply keeps_ztuCtlWrite | dsimp only

theorem keeps_execBtEnable {p : Fin 5} {n : Fin 16} {v : Word} {s s' : State}
    (e : execBtEnable p n v s = .next s') : Fr 805774853 s s' := by
  unfold execBtEnable at e
  refine keeps_next e ?_
  clear e
  have hk := Fr.refl 805774853 s
  have hm : Sub 805774853 805774853 := Sub.refl _
  repeat' first
    | with_reducible assumption | (exact Sub.mono hm rfl) | intro _ | with_reducible apply keeps_btCtlWrite
    | with_reducible apply keeps_sourceWrite | dsimp only

theorem keeps_execBtDisable {p : Fin 5} {n : Fin 16} {s s' : State}
    (e : execBtDisable p n s = .next s') : Fr 805774853 s s' := by
  unfold execBtDisable at e
  refine keeps_next e ?_
  clear e
  have hk := Fr.refl 805774853 s
  have hm : Sub 805774853 805774853 := Sub.refl _
  repeat' first
    | with_reducible assumption | (exact Sub.mono hm rfl) | intro _ | with_reducible apply keeps_btCtlWrite
    | with_reducible apply keeps_sourceWrite | dsimp only

theorem keeps_execDcPlEnable {p : Fin 5} {q : Fin 4} {i : Fin 4} {v : Word} {s s' : State}
    (e : execDcPlEnable p q i v s = .next s') : Fr 805709317 s s' := by
  unfold execDcPlEnable at e
  refine keeps_next e ?_
  clear e
  have hk := Fr.refl 805709317 s
  have hm : Sub 805709317 805709317 := Sub.refl _
  repeat' first
    | with_reducible assumption | (exact Sub.mono hm rfl) | intro _ | with_reducible apply keeps_dcPlCtlWrite
    | with_reducible apply keeps_sourceWrite | dsimp only

/-! ### Events -/

theorem keeps_modEt {msk : Nat} {s0 s : State} (c : Nat) (f : EtCh → EtCh) (hk : Fr msk s0 s)
    (hm : Sub 524288 msk := by exact Sub.mono (by assumption) rfl) :
    Fr msk s0 (State.modEt s c f) := by
  unfold State.modEt
  repeat' first
    | with_reducible assumption | (exact Sub.mono hm rfl) | intro _
    | (extract_lets +onlyGivenNames x; refine keeps_have (msk := msk) (s0 := s0) (x := x) ?_ ?_; rotate_left; clear_value x; intro hx; rotate_right; subst x)
    | (extract_lets +onlyGivenNames x; clear_value x) | dsimp only | with_reducible apply keeps_et

theorem keeps_modIv {msk : Nat} {s0 s : State} (k : Nat) (f : IvSt → IvSt) (hk : Fr msk s0 s)
    (hm : Sub 524288 msk := by exact Sub.mono (by assumption) rfl) :
    Fr msk s0 (State.modIv s k f) := by
  unfold State.modIv
  repeat' first
    | with_reducible assumption | (exact Sub.mono hm rfl) | intro _
    | (extract_lets +onlyGivenNames x; refine keeps_have (msk := msk) (s0 := s0) (x := x) ?_ ?_; rotate_left; clear_value x; intro hx; rotate_right; subst x)
    | (extract_lets +onlyGivenNames x; clear_value x) | dsimp only | with_reducible apply keeps_et

theorem keeps_setEtQueue {msk : Nat} {s0 s : State} (c : Nat) (q : List EtEntry) (hk : Fr msk s0 s)
    (hm : Sub 524289 msk := by exact Sub.mono (by assumption) rfl) :
    Fr msk s0 (State.setEtQueue s c q) := by
  unfold State.setEtQueue
  repeat' first
    | with_reducible assumption | (exact Sub.mono hm rfl) | intro _
    | (extract_lets +onlyGivenNames x; refine keeps_have (msk := msk) (s0 := s0) (x := x) ?_ ?_; rotate_left; clear_value x; intro hx; rotate_right; subst x)
    | (extract_lets +onlyGivenNames x; clear_value x) | with_reducible apply keeps_modEt | with_reducible apply keeps_put
    | dsimp only

theorem keeps_etPush {msk : Nat} {s0 s : State} (c : Nat) (l : List EtEntry) (hk : Fr msk s0 s)
    (hm : Sub 524289 msk := by exact Sub.mono (by assumption) rfl) :
    Fr msk s0 (State.etPush s c l) := by
  unfold State.etPush
  repeat' first
    | with_reducible assumption | (exact Sub.mono hm rfl) | intro _
    | (extract_lets +onlyGivenNames x; refine keeps_have (msk := msk) (s0 := s0) (x := x) ?_ ?_; rotate_left; clear_value x; intro hx; rotate_right; subst x)
    | (extract_lets +onlyGivenNames x; clear_value x) | with_reducible apply keeps_modEt
    | with_reducible apply keeps_setEtQueue | with_reducible apply keeps_ite | dsimp only

theorem keeps_etSpace {msk : Nat} {s0 s : State} (c : Nat) (hk : Fr msk s0 s)
    (hm : Sub 524289 msk := by exact Sub.mono (by assumption) rfl) :
    Fr msk s0 (State.etSpace s c) := by
  unfold State.etSpace
  repeat' first
    | with_reducible assumption | (exact Sub.mono hm rfl) | intro _
    | (extract_lets +onlyGivenNames x; refine keeps_have (msk := msk) (s0 := s0) (x := x) ?_ ?_; rotate_left; clear_value x; intro hx; rotate_right; subst x)
    | (extract_lets +onlyGivenNames x; clear_value x) | with_reducible apply keeps_etPush | with_reducible apply keeps_modEt
    | with_reducible apply keeps_ite | split | dsimp only

theorem keeps_execEtQueueSpaceReturn {c : Fin 32} {s s' : State}
    (e : execEtQueueSpaceReturn c s = .next s') : Fr 524289 s s' := by
  unfold execEtQueueSpaceReturn at e
  refine keeps_next e ?_
  clear e
  have hk := Fr.refl 524289 s
  have hm : Sub 524289 524289 := Sub.refl _
  repeat' first
    | with_reducible assumption | (exact Sub.mono hm rfl) | intro _ | with_reducible apply keeps_etSpace | dsimp only

theorem keeps_etWriteAll {msk : Nat} {s0 s : State} (c : Nat) (l : List EtEntry) (hk : Fr msk s0 s)
    (hm : Sub 524289 msk := by exact Sub.mono (by assumption) rfl) :
    Fr msk s0 (State.etWriteAll s c l) := by
  unfold State.etWriteAll
  repeat' first
    | with_reducible assumption | (exact Sub.mono hm rfl) | intro _
    | (extract_lets +onlyGivenNames x; refine keeps_have (msk := msk) (s0 := s0) (x := x) ?_ ?_; rotate_left; clear_value x; intro hx; rotate_right; subst x)
    | (extract_lets +onlyGivenNames x; clear_value x) | with_reducible apply keeps_count | with_reducible apply keeps_etPush
    | with_reducible apply keeps_etSpace | with_reducible apply keeps_modEt | with_reducible apply keeps_ite | dsimp only

theorem keeps_etWrite {msk : Nat} {s0 s : State} (c : Nat) (e : EtEntry) (hk : Fr msk s0 s)
    (hm : Sub 524289 msk := by exact Sub.mono (by assumption) rfl) :
    Fr msk s0 (State.etWrite s c e) := by
  unfold State.etWrite
  repeat' first
    | with_reducible assumption | (exact Sub.mono hm rfl) | intro _ | with_reducible apply keeps_etWriteAll | dsimp only

theorem keeps_etPop {msk : Nat} {s0 s : State} (c : Nat) (n : Nat) (hk : Fr msk s0 s)
    (hm : Sub 524289 msk := by exact Sub.mono (by assumption) rfl) :
    Fr msk s0 (State.etPop s c n) := by
  unfold State.etPop
  repeat' first
    | with_reducible assumption | (exact Sub.mono hm rfl) | intro _
    | (extract_lets +onlyGivenNames x; refine keeps_have (msk := msk) (s0 := s0) (x := x) ?_ ?_; rotate_left; clear_value x; intro hx; rotate_right; subst x)
    | (extract_lets +onlyGivenNames x; clear_value x) | with_reducible apply keeps_modEt
    | with_reducible apply keeps_setEtQueue | dsimp only

theorem keeps_etQw0Read {msk : Nat} {s0 s : State} (p : Nat) (c : Nat) (hk : Fr msk s0 s)
    (hm : Sub 524288 msk := by exact Sub.mono (by assumption) rfl) :
    Fr msk s0 (stOf (State.etQw0Read s p c)) := by
  unfold State.etQw0Read
  repeat' first
    | with_reducible assumption | (exact Sub.mono hm rfl) | intro _
    | (extract_lets +onlyGivenNames x; refine keeps_have (msk := msk) (s0 := s0) (x := x) ?_ ?_; rotate_left; clear_value x; intro hx; rotate_right; subst x)
    | (extract_lets +onlyGivenNames x; refine keeps_have_fst (msk := msk) (s0 := s0) (x := x) ?_ ?_; rotate_left; clear_value x; intro hx; rotate_right; subst x)
    | (extract_lets +onlyGivenNames x; clear_value x) | with_reducible apply keeps_ite | with_reducible apply keeps_ite_fst
    | (simp only [stOf_mk]) | split | with_reducible apply keeps_fst | dsimp only | with_reducible apply keeps_et

theorem keeps_etQw3Read {msk : Nat} {s0 s : State} (p : Nat) (c : Nat) (hk : Fr msk s0 s)
    (hm : Sub 524289 msk := by exact Sub.mono (by assumption) rfl) :
    Fr msk s0 (stOf (State.etQw3Read s p c)) := by
  unfold State.etQw3Read
  repeat' first
    | with_reducible assumption | (exact Sub.mono hm rfl) | intro _
    | (extract_lets +onlyGivenNames x; refine keeps_have (msk := msk) (s0 := s0) (x := x) ?_ ?_; rotate_left; clear_value x; intro hx; rotate_right; subst x)
    | (extract_lets +onlyGivenNames x; refine keeps_have_fst (msk := msk) (s0 := s0) (x := x) ?_ ?_; rotate_left; clear_value x; intro hx; rotate_right; subst x)
    | (extract_lets +onlyGivenNames x; clear_value x) | with_reducible apply keeps_etPop | with_reducible apply keeps_ite
    | with_reducible apply keeps_ite_fst | (simp only [stOf_mk]) | split | with_reducible apply keeps_fst | dsimp only

theorem keeps_execEtQw0Read {p : Fin 5} {c : Fin 32} {s s' : State}
    (e : execEtQw0Read p c s = .next s') : Fr 268959745 s s' := by
  unfold execEtQw0Read at e
  refine keeps_next e ?_
  clear e
  have hk := Fr.refl 268959745 s
  have hm : Sub 268959745 268959745 := Sub.refl _
  repeat' first
    | with_reducible assumption | (exact Sub.mono hm rfl) | intro _ | with_reducible apply keeps_etQw0Read
    | with_reducible apply keeps_readOut | dsimp only

theorem keeps_execEtQw3Read {p : Fin 5} {c : Fin 32} {s s' : State}
    (e : execEtQw3Read p c s = .next s') : Fr 268959745 s s' := by
  unfold execEtQw3Read at e
  refine keeps_next e ?_
  clear e
  have hk := Fr.refl 268959745 s
  have hm : Sub 268959745 268959745 := Sub.refl _
  repeat' first
    | with_reducible assumption | (exact Sub.mono hm rfl) | intro _ | with_reducible apply keeps_etQw3Read
    | with_reducible apply keeps_readOut | dsimp only

theorem keeps_etFrame {msk : Nat} {s0 s : State} (c : Nat) (hk : Fr msk s0 s)
    (hm : Sub 268959749 msk := by exact Sub.mono (by assumption) rfl) :
    Fr msk s0 (State.etFrame s c) := by
  unfold State.etFrame
  repeat' first
    | with_reducible assumption | (exact Sub.mono hm rfl) | intro _
    | (extract_lets +onlyGivenNames x; refine keeps_have (msk := msk) (s0 := s0) (x := x) ?_ ?_; rotate_left; clear_value x; intro hx; rotate_right; subst x)
    | (extract_lets +onlyGivenNames x; refine keeps_have_fst (msk := msk) (s0 := s0) (x := x) ?_ ?_; rotate_left; clear_value x; intro hx; rotate_right; subst x)
    | (extract_lets +onlyGivenNames x; clear_value x) | with_reducible apply keeps_each | with_reducible apply keeps_etPop
    | with_reducible apply keeps_etSpace | with_reducible apply keeps_gap | with_reducible apply keeps_modEt
    | with_reducible apply keeps_sendFrame | with_reducible apply keeps_ite | with_reducible apply keeps_ite_fst
    | (simp only [stOf_mk]) | split | with_reducible apply keeps_fst | dsimp only

theorem keeps_execEtFrameClose {c : Fin 32} {s s' : State}
    (e : execEtFrameClose c s = .next s') : Fr 268959749 s s' := by
  unfold execEtFrameClose at e
  refine keeps_next e ?_
  clear e
  have hk := Fr.refl 268959749 s
  have hm : Sub 268959749 268959749 := Sub.refl _
  repeat' first
    | with_reducible assumption | (exact Sub.mono hm rfl) | intro _ | with_reducible apply keeps_etFrame | dsimp only

theorem keeps_ivStamp {msk : Nat} {s0 s : State} (c : Nat) (falling : Bool) (t : DevTime) (hk : Fr msk s0 s)
    (hm : Sub 524289 msk := by exact Sub.mono (by assumption) rfl) :
    Fr msk s0 (State.ivStamp s c falling t) := by
  unfold State.ivStamp
  repeat' first
    | with_reducible assumption | (exact Sub.mono hm rfl) | intro _
    | (extract_lets +onlyGivenNames x; refine keeps_have (msk := msk) (s0 := s0) (x := x) ?_ ?_; rotate_left; clear_value x; intro hx; rotate_right; subst x)
    | (extract_lets +onlyGivenNames x; clear_value x) | with_reducible apply keeps_count | with_reducible apply keeps_each
    | with_reducible apply keeps_modIv | with_reducible apply keeps_ite | split | dsimp only

theorem keeps_extBlind {msk : Nat} {s0 s : State} (c : Nat) (cause : Nat) (a : DevTime) (b : DevTime) (hk : Fr msk s0 s)
    (hm : Sub 805568517 msk := by exact Sub.mono (by assumption) rfl) :
    Fr msk s0 (State.extBlind s c cause a b) := by
  unfold State.extBlind
  repeat' first
    | with_reducible assumption | (exact Sub.mono hm rfl) | intro _ | with_reducible apply keeps_blindFor
    | with_reducible apply keeps_each | dsimp only

theorem keeps_etStampEdge {msk : Nat} {s0 s : State} (c : Nat) (falling : Bool) (t : DevTime) (hk : Fr msk s0 s)
    (hm : Sub 806100997 msk := by exact Sub.mono (by assumption) rfl) :
    Fr msk s0 (State.etStampEdge s c falling t) := by
  unfold State.etStampEdge
  repeat' first
    | with_reducible assumption | (exact Sub.mono hm rfl) | intro _
    | (extract_lets +onlyGivenNames x; refine keeps_have (msk := msk) (s0 := s0) (x := x) ?_ ?_; rotate_left; clear_value x; intro hx; rotate_right; subst x)
    | (extract_lets +onlyGivenNames x; clear_value x) | with_reducible apply keeps_etWrite
    | with_reducible apply keeps_extBlind | with_reducible apply keeps_ivStamp | with_reducible apply keeps_modEt
    | with_reducible apply keeps_tgStamp | with_reducible apply keeps_ite | split | dsimp only

theorem keeps_etFreq {msk : Nat} {s0 s : State} (c : Nat) (n : Nat) (a : DevTime) (b : DevTime) (fa : Bool) (fb : Bool) (coast : Bool) (hk : Fr msk s0 s)
    (hm : Sub 524289 msk := by exact Sub.mono (by assumption) rfl) :
    Fr msk s0 (State.etFreq s c n a b fa fb coast) := by
  unfold State.etFreq
  repeat' first
    | with_reducible assumption | (exact Sub.mono hm rfl) | intro _ | with_reducible apply keeps_etWriteAll
    | with_reducible apply keeps_ite | dsimp only

theorem keeps_etBoundary {msk : Nat} {s0 s : State} (c : Nat) (b : Nat) (hk : Fr msk s0 s)
    (hm : Sub 524289 msk := by exact Sub.mono (by assumption) rfl) :
    Fr msk s0 (State.etBoundary s c b) := by
  unfold State.etBoundary
  repeat' first
    | with_reducible assumption | with_reducible apply keeps_etFreq | with_reducible apply keeps_modEt
    | (extract_lets +onlyGivenNames x; refine keeps_fun (x := x) ?_; subst x) | (exact Sub.mono hm rfl) | intro _
    | (extract_lets +onlyGivenNames x; refine keeps_have (msk := msk) (s0 := s0) (x := x) ?_ ?_; rotate_left; clear_value x; intro hx; rotate_right; subst x)
    | (extract_lets +onlyGivenNames x; clear_value x) | with_reducible apply keeps_ite | dsimp only

theorem keeps_etRoll {msk : Nat} {s0 s : State} (c : Nat) (t : DevTime) (x0 : Nat) (hk : Fr msk s0 s)
    (hm : Sub 524289 msk := by exact Sub.mono (by assumption) rfl) : Fr msk s0 (State.etRoll s c t x0) := by
  induction x0 generalizing s with
  | zero =>
    unfold State.etRoll
    repeat' first
      | with_reducible assumption | (exact Sub.mono hm rfl) | intro _
      | (extract_lets +onlyGivenNames x; refine keeps_have (msk := msk) (s0 := s0) (x := x) ?_ ?_; rotate_left; clear_value x; intro hx; rotate_right; subst x)
      | (extract_lets +onlyGivenNames x; clear_value x) | with_reducible apply keeps_etBoundary
      | with_reducible apply keeps_ite | split | dsimp only
  | succ n ih =>
    unfold State.etRoll
    repeat' first
      | with_reducible assumption | (exact Sub.mono hm rfl) | intro _
      | (extract_lets +onlyGivenNames x; refine keeps_have (msk := msk) (s0 := s0) (x := x) ?_ ?_; rotate_left; clear_value x; intro hx; rotate_right; subst x)
      | (extract_lets +onlyGivenNames x; clear_value x) | with_reducible apply ih | with_reducible apply keeps_etBoundary
      | with_reducible apply keeps_ite | split | dsimp only

theorem keeps_etGateEmpty {msk : Nat} {s0 s : State} (c : Nat) (hk : Fr msk s0 s)
    (hm : Sub 524289 msk := by exact Sub.mono (by assumption) rfl) :
    Fr msk s0 (State.etGateEmpty s c) := by
  unfold State.etGateEmpty
  repeat' first
    | with_reducible assumption | (exact Sub.mono hm rfl) | intro _
    | (extract_lets +onlyGivenNames x; refine keeps_have (msk := msk) (s0 := s0) (x := x) ?_ ?_; rotate_left; clear_value x; intro hx; rotate_right; subst x)
    | (extract_lets +onlyGivenNames x; clear_value x) | with_reducible apply keeps_etBoundary
    | with_reducible apply keeps_ite | split | dsimp only

theorem keeps_execFreqGateEmptyEnd {c : Fin 32} {s s' : State}
    (e : execFreqGateEmptyEnd c s = .next s') : Fr 524289 s s' := by
  unfold execFreqGateEmptyEnd at e
  refine keeps_next e ?_
  clear e
  have hk := Fr.refl 524289 s
  have hm : Sub 524289 524289 := Sub.refl _
  repeat' first
    | with_reducible assumption | (exact Sub.mono hm rfl) | intro _ | with_reducible apply keeps_etGateEmpty | dsimp only

theorem keeps_etFreqEdge {msk : Nat} {s0 s : State} (c : Nat) (falling : Bool) (t : DevTime) (hk : Fr msk s0 s)
    (hm : Sub 524289 msk := by exact Sub.mono (by assumption) rfl) :
    Fr msk s0 (State.etFreqEdge s c falling t) := by
  unfold State.etFreqEdge
  repeat' first
    | with_reducible assumption | (exact Sub.mono hm rfl) | intro _
    | (extract_lets +onlyGivenNames x; refine keeps_have (msk := msk) (s0 := s0) (x := x) ?_ ?_; rotate_left; clear_value x; intro hx; rotate_right; subst x)
    | (extract_lets +onlyGivenNames x; clear_value x) | with_reducible apply keeps_etFreq | with_reducible apply keeps_etRoll
    | with_reducible apply keeps_modEt | with_reducible apply keeps_ite | split | dsimp only

theorem keeps_etLevel {msk : Nat} {s0 s : State} (c : Nat) (v : Int) (hk : Fr msk s0 s)
    (hm : Sub 536870912 msk := by exact Sub.mono (by assumption) rfl) :
    Fr msk s0 (stOf (State.etLevel s c v)) := by
  unfold State.etLevel
  repeat' first
    | with_reducible assumption | (exact Sub.mono hm rfl) | intro _
    | (extract_lets +onlyGivenNames x; refine keeps_have (msk := msk) (s0 := s0) (x := x) ?_ ?_; rotate_left; clear_value x; intro hx; rotate_right; subst x)
    | (extract_lets +onlyGivenNames x; refine keeps_have_fst (msk := msk) (s0 := s0) (x := x) ?_ ?_; rotate_left; clear_value x; intro hx; rotate_right; subst x)
    | (extract_lets +onlyGivenNames x; clear_value x) | with_reducible apply keeps_useFree | with_reducible apply keeps_ite
    | with_reducible apply keeps_ite_fst | (simp only [stOf_mk]) | split | with_reducible apply keeps_fst | dsimp only

theorem keeps_etEdge {msk : Nat} {s0 s : State} (c : Nat) (falling : Bool) (t0 : DevTime) (b : Nat) (hk : Fr msk s0 s)
    (hm : Sub 806101029 msk := by exact Sub.mono (by assumption) rfl) :
    Fr msk s0 (State.etEdge s c falling t0 b) := by
  unfold State.etEdge
  repeat' first
    | with_reducible assumption | (exact Sub.mono hm rfl) | intro _
    | (extract_lets +onlyGivenNames x; refine keeps_have (msk := msk) (s0 := s0) (x := x) ?_ ?_; rotate_left; clear_value x; intro hx; rotate_right; subst x)
    | (extract_lets +onlyGivenNames x; refine keeps_have_fst (msk := msk) (s0 := s0) (x := x) ?_ ?_; rotate_left; clear_value x; intro hx; rotate_right; subst x)
    | (extract_lets +onlyGivenNames x; clear_value x) | with_reducible apply keeps_count
    | with_reducible apply keeps_endLevel | with_reducible apply keeps_etFreqEdge | with_reducible apply keeps_etStampEdge
    | with_reducible apply keeps_modEt | with_reducible apply keeps_setPair | with_reducible apply keeps_ite
    | with_reducible apply keeps_ite_fst | (simp only [stOf_mk]) | split | with_reducible apply keeps_fst | dsimp only

theorem keeps_etInput {msk : Nat} {s0 s : State} (c : Nat) (v : Int) (t0 : DevTime) (b : Nat) (hk : Fr msk s0 s)
    (hm : Sub 806101029 msk := by exact Sub.mono (by assumption) rfl) :
    Fr msk s0 (State.etInput s c v t0 b) := by
  unfold State.etInput
  repeat' first
    | with_reducible assumption | (exact Sub.mono hm rfl) | intro _
    | (extract_lets +onlyGivenNames x; refine keeps_have (msk := msk) (s0 := s0) (x := x) ?_ ?_; rotate_left; clear_value x; intro hx; rotate_right; subst x)
    | (extract_lets +onlyGivenNames x; refine keeps_have_fst (msk := msk) (s0 := s0) (x := x) ?_ ?_; rotate_left; clear_value x; intro hx; rotate_right; subst x)
    | (extract_lets +onlyGivenNames x; clear_value x) | with_reducible apply keeps_etEdge
    | with_reducible apply keeps_etLevel | with_reducible apply keeps_ite | with_reducible apply keeps_ite_fst
    | (simp only [stOf_mk]) | with_reducible apply keeps_fst | dsimp only

theorem keeps_execEtEdge {c : Fin 32} {v : Int} {t0 : DevTime} {b : Fin 64} {s s' : State}
    (e : execEtEdge c v t0 b s = .next s') : Fr 806101029 s s' := by
  unfold execEtEdge at e
  refine keeps_next e ?_
  clear e
  have hk := Fr.refl 806101029 s
  have hm : Sub 806101029 806101029 := Sub.refl _
  repeat' first
    | with_reducible assumption | (exact Sub.mono hm rfl) | intro _ | with_reducible apply keeps_etInput | dsimp only

theorem keeps_execFreqGateBoundary {c : Fin 32} {v : Int} {t0 : DevTime} {b : Fin 64} {s s' : State}
    (e : execFreqGateBoundary c v t0 b s = .next s') : Fr 806101029 s s' := by
  unfold execFreqGateBoundary at e
  refine keeps_next e ?_
  clear e
  have hk := Fr.refl 806101029 s
  have hm : Sub 806101029 806101029 := Sub.refl _
  repeat' first
    | with_reducible assumption | (exact Sub.mono hm rfl) | intro _
    | (extract_lets +onlyGivenNames x; refine keeps_have (msk := 806101029) (s0 := s) (x := x) ?_ ?_; rotate_left; clear_value x; intro hx; rotate_right; subst x)
    | (extract_lets +onlyGivenNames x; clear_value x) | with_reducible apply keeps_etInput | with_reducible apply keeps_ite
    | split | dsimp only

theorem keeps_etStuck {msk : Nat} {s0 s : State} (c : Nat) (hk : Fr msk s0 s)
    (hm : Sub 268959911 msk := by exact Sub.mono (by assumption) rfl) :
    Fr msk s0 (State.etStuck s c) := by
  unfold State.etStuck
  repeat' first
    | with_reducible assumption | (exact Sub.mono hm rfl) | intro _
    | (extract_lets +onlyGivenNames x; refine keeps_have (msk := msk) (s0 := s0) (x := x) ?_ ?_; rotate_left; clear_value x; intro hx; rotate_right; subst x)
    | (extract_lets +onlyGivenNames x; clear_value x) | with_reducible apply keeps_beginLevel
    | with_reducible apply keeps_etWrite | with_reducible apply keeps_modEt | with_reducible apply keeps_ite | dsimp only

theorem keeps_execEtStuckTimeout {c : Fin 32} {s s' : State}
    (e : execEtStuckTimeout c s = .next s') : Fr 268959911 s s' := by
  unfold execEtStuckTimeout at e
  refine keeps_next e ?_
  clear e
  have hk := Fr.refl 268959911 s
  have hm : Sub 268959911 268959911 := Sub.refl _
  repeat' first
    | with_reducible assumption | (exact Sub.mono hm rfl) | intro _ | with_reducible apply keeps_etStuck | dsimp only

theorem keeps_ivDrop {msk : Nat} {s0 s : State} (c : Nat) (hk : Fr msk s0 s)
    (hm : Sub 524289 msk := by exact Sub.mono (by assumption) rfl) :
    Fr msk s0 (State.ivDrop s c) := by
  unfold State.ivDrop
  repeat' first
    | with_reducible assumption | (exact Sub.mono hm rfl) | intro _ | with_reducible apply keeps_each
    | with_reducible apply keeps_modIv | with_reducible apply keeps_put | split | dsimp only

theorem keeps_etStart {msk : Nat} {s0 s : State} (c : Nat) (ran : Bool) (hk : Fr msk s0 s)
    (hm : Sub 524288 msk := by exact Sub.mono (by assumption) rfl) :
    Fr msk s0 (State.etStart s c ran) := by
  unfold State.etStart
  repeat' first
    | with_reducible assumption | (exact Sub.mono hm rfl) | intro _
    | (extract_lets +onlyGivenNames x; refine keeps_have (msk := msk) (s0 := s0) (x := x) ?_ ?_; rotate_left; clear_value x; intro hx; rotate_right; subst x)
    | (extract_lets +onlyGivenNames x; clear_value x) | with_reducible apply keeps_modEt | with_reducible apply keeps_ite
    | dsimp only

theorem keeps_etCtlWrite {msk : Nat} {s0 s : State} (c : Nat) (v : Nat) (hk : Fr msk s0 s)
    (hm : Sub 524293 msk := by exact Sub.mono (by assumption) rfl) :
    Fr msk s0 (stOf (State.etCtlWrite s c v)) := by
  unfold State.etCtlWrite
  repeat' first
    | with_reducible assumption | (exact Sub.mono hm rfl) | intro _
    | (extract_lets +onlyGivenNames x; refine keeps_have (msk := msk) (s0 := s0) (x := x) ?_ ?_; rotate_left; clear_value x; intro hx; rotate_right; subst x)
    | (extract_lets +onlyGivenNames x; refine keeps_have_fst (msk := msk) (s0 := s0) (x := x) ?_ ?_; rotate_left; clear_value x; intro hx; rotate_right; subst x)
    | (extract_lets +onlyGivenNames x; clear_value x) | with_reducible apply keeps_answer
    | with_reducible apply keeps_closeStream | with_reducible apply keeps_etStart | with_reducible apply keeps_ivDrop
    | with_reducible apply keeps_openStream | with_reducible apply keeps_plainWrite | with_reducible apply keeps_put
    | with_reducible apply keeps_ite | with_reducible apply keeps_ite_fst | (simp only [stOf_mk]) | split
    | with_reducible apply keeps_fst | dsimp only

theorem keeps_execEtCtlWrite {p : Fin 5} {c : Fin 32} {v : Word} {s s' : State}
    (e : execEtCtlWrite p c v s = .next s') : Fr 806233605 s s' := by
  unfold execEtCtlWrite at e
  refine keeps_next e ?_
  clear e
  have hk := Fr.refl 806233605 s
  have hm : Sub 806233605 806233605 := Sub.refl _
  repeat' first
    | with_reducible assumption | (exact Sub.mono hm rfl) | intro _ | with_reducible apply keeps_etCtlWrite
    | with_reducible apply keeps_sourceWrite | dsimp only

theorem keeps_etThreshWrite {msk : Nat} {s0 s : State} (c : Nat) (v : Nat) (hk : Fr msk s0 s)
    (hm : Sub 524289 msk := by exact Sub.mono (by assumption) rfl) :
    Fr msk s0 (stOf (State.etThreshWrite s c v)) := by
  unfold State.etThreshWrite
  repeat' first
    | with_reducible assumption | (exact Sub.mono hm rfl) | intro _ | with_reducible apply keeps_answer
    | with_reducible apply keeps_ifThen | with_reducible apply keeps_ivDrop | with_reducible apply keeps_plainWrite
    | with_reducible apply keeps_ite | with_reducible apply keeps_ite_fst | (simp only [stOf_mk])
    | with_reducible apply keeps_fst | dsimp only

theorem keeps_etGateWrite {msk : Nat} {s0 s : State} (c : Nat) (v : Nat) (hk : Fr msk s0 s)
    (hm : Sub 524289 msk := by exact Sub.mono (by assumption) rfl) :
    Fr msk s0 (stOf (State.etGateWrite s c v)) := by
  unfold State.etGateWrite
  repeat' first
    | with_reducible assumption | (exact Sub.mono hm rfl) | intro _ | with_reducible apply keeps_answer
    | with_reducible apply keeps_ifThen | with_reducible apply keeps_ivDrop | with_reducible apply keeps_plainWrite
    | with_reducible apply keeps_ite | with_reducible apply keeps_ite_fst | (simp only [stOf_mk]) | split
    | with_reducible apply keeps_fst | dsimp only

theorem keeps_etStuckWrite {msk : Nat} {s0 s : State} (c : Nat) (v : Nat) (hk : Fr msk s0 s)
    (hm : Sub 524289 msk := by exact Sub.mono (by assumption) rfl) :
    Fr msk s0 (stOf (State.etStuckWrite s c v)) := by
  unfold State.etStuckWrite
  repeat' first
    | with_reducible assumption | (exact Sub.mono hm rfl) | intro _ | with_reducible apply keeps_ifThen
    | with_reducible apply keeps_ivDrop | with_reducible apply keeps_plainWrite | (simp only [stOf_mk])
    | with_reducible apply keeps_fst | dsimp only

theorem keeps_ivCtlWrite {msk : Nat} {s0 s : State} (k : Nat) (v : Nat) (hk : Fr msk s0 s)
    (hm : Sub 524289 msk := by exact Sub.mono (by assumption) rfl) :
    Fr msk s0 (stOf (State.ivCtlWrite s k v)) := by
  unfold State.ivCtlWrite
  repeat' first
    | with_reducible assumption | (exact Sub.mono hm rfl) | intro _ | with_reducible apply keeps_enableWrite
    | with_reducible apply keeps_modIv | (simp only [stOf_mk]) | with_reducible apply keeps_fst | dsimp only

theorem keeps_execIvEnable {p : Fin 5} {k : Fin 16} {v : Word} {s s' : State}
    (e : execIvEnable p k v s = .next s') : Fr 524289 s s' := by
  unfold execIvEnable at e
  refine keeps_next e ?_
  clear e
  have hk := Fr.refl 524289 s
  have hm : Sub 524289 524289 := Sub.refl _
  repeat' first
    | with_reducible assumption | (exact Sub.mono hm rfl) | intro _ | with_reducible apply keeps_gatedWrite
    | with_reducible apply keeps_ivCtlWrite | dsimp only

theorem keeps_ivWindowWrite {msk : Nat} {s0 s : State} (k : Nat) (v : Nat) (hk : Fr msk s0 s)
    (hm : Sub 1 msk := by exact Sub.mono (by assumption) rfl) :
    Fr msk s0 (stOf (State.ivWindowWrite s k v)) := by
  unfold State.ivWindowWrite
  repeat' first
    | with_reducible assumption | (exact Sub.mono hm rfl) | intro _ | with_reducible apply keeps_answer
    | with_reducible apply keeps_plainWrite | with_reducible apply keeps_ite | with_reducible apply keeps_ite_fst
    | (simp only [stOf_mk]) | split | with_reducible apply keeps_fst | dsimp only

theorem keeps_ivExpire {msk : Nat} {s0 s : State} (k : Nat) (hk : Fr msk s0 s)
    (hm : Sub 524289 msk := by exact Sub.mono (by assumption) rfl) :
    Fr msk s0 (State.ivExpire s k) := by
  unfold State.ivExpire
  repeat' first
    | with_reducible assumption | (exact Sub.mono hm rfl) | intro _
    | (extract_lets +onlyGivenNames x; refine keeps_have (msk := msk) (s0 := s0) (x := x) ?_ ?_; rotate_left; clear_value x; intro hx; rotate_right; subst x)
    | (extract_lets +onlyGivenNames x; clear_value x) | with_reducible apply keeps_etWrite | with_reducible apply keeps_modIv
    | with_reducible apply keeps_ite | split | dsimp only

theorem keeps_execIvWindowExpire {k : Fin 16} {s s' : State}
    (e : execIvWindowExpire k s = .next s') : Fr 524289 s s' := by
  unfold execIvWindowExpire at e
  refine keeps_next e ?_
  clear e
  have hk := Fr.refl 524289 s
  have hm : Sub 524289 524289 := Sub.refl _
  repeat' first
    | with_reducible assumption | (exact Sub.mono hm rfl) | intro _ | with_reducible apply keeps_ivExpire | dsimp only

theorem keeps_etMarker {msk : Nat} {s0 s : State} (m : Marker) (hk : Fr msk s0 s)
    (hm : Sub 524288 msk := by exact Sub.mono (by assumption) rfl) :
    Fr msk s0 (State.etMarker s m) := by
  unfold State.etMarker
  repeat' first
    | with_reducible assumption | (exact Sub.mono hm rfl) | intro _
    | (extract_lets +onlyGivenNames x; refine keeps_have (msk := msk) (s0 := s0) (x := x) ?_ ?_; rotate_left; clear_value x; intro hx; rotate_right; subst x)
    | (extract_lets +onlyGivenNames x; clear_value x) | with_reducible apply keeps_each | with_reducible apply keeps_modEt
    | dsimp only

theorem keeps_ivResolve {msk : Nat} {s0 s : State} (k : Nat) (x0 : Nat) (hk : Fr msk s0 s)
    (hm : Sub 524289 msk := by exact Sub.mono (by assumption) rfl) : Fr msk s0 (State.ivResolve s k x0) := by
  induction x0 generalizing s with
  | zero =>
    unfold State.ivResolve
    repeat' first
      | with_reducible assumption | (exact Sub.mono hm rfl) | intro _ | with_reducible apply keeps_ivExpire | split
      | dsimp only
  | succ n ih =>
    unfold State.ivResolve
    repeat' first
      | with_reducible assumption | (exact Sub.mono hm rfl) | intro _ | with_reducible apply ih
      | with_reducible apply keeps_ivExpire | split | dsimp only

theorem keeps_ivSettle {msk : Nat} {s0 s : State}  (hk : Fr msk s0 s)
    (hm : Sub 524289 msk := by exact Sub.mono (by assumption) rfl) :
    Fr msk s0 (State.ivSettle s) := by
  unfold State.ivSettle
  repeat' first
    | with_reducible assumption | (exact Sub.mono hm rfl) | intro _ | with_reducible apply keeps_each
    | with_reducible apply keeps_ivResolve | dsimp only

theorem keeps_etStep {msk : Nat} {s0 s : State} (t : DevTime) (hk : Fr msk s0 s)
    (hm : Sub 524289 msk := by exact Sub.mono (by assumption) rfl) :
    Fr msk s0 (State.etStep s t) := by
  unfold State.etStep
  repeat' first
    | with_reducible assumption | (exact Sub.mono hm rfl) | intro _
    | (extract_lets +onlyGivenNames x; refine keeps_have (msk := msk) (s0 := s0) (x := x) ?_ ?_; rotate_left; clear_value x; intro hx; rotate_right; subst x)
    | (extract_lets +onlyGivenNames x; clear_value x) | with_reducible apply keeps_count | with_reducible apply keeps_each
    | with_reducible apply keeps_modEt | with_reducible apply keeps_modIv | (simp only [stOf_mk]) | dsimp only

theorem keeps_etLoad {msk : Nat} {s0 s : State} (t : DevTime) (hk : Fr msk s0 s)
    (hm : Sub 806092805 msk := by exact Sub.mono (by assumption) rfl) :
    Fr msk s0 (State.etLoad s t) := by
  unfold State.etLoad
  repeat' first
    | with_reducible assumption | (exact Sub.mono hm rfl) | intro _ | with_reducible apply keeps_each
    | with_reducible apply keeps_etWrite | with_reducible apply keeps_extBlind | with_reducible apply keeps_ite | dsimp only

theorem keeps_etBlindEnd {msk : Nat} {s0 s : State} (c : Nat) (hk : Fr msk s0 s)
    (hm : Sub 806092805 msk := by exact Sub.mono (by assumption) rfl) :
    Fr msk s0 (State.etBlindEnd s c) := by
  unfold State.etBlindEnd
  repeat' first
    | with_reducible assumption | (exact Sub.mono hm rfl) | intro _
    | (extract_lets +onlyGivenNames x; refine keeps_have (msk := msk) (s0 := s0) (x := x) ?_ ?_; rotate_left; clear_value x; intro hx; rotate_right; subst x)
    | (extract_lets +onlyGivenNames x; refine keeps_have_fst (msk := msk) (s0 := s0) (x := x) ?_ ?_; rotate_left; clear_value x; intro hx; rotate_right; subst x)
    | (extract_lets +onlyGivenNames x; clear_value x) | with_reducible apply keeps_etWrite
    | with_reducible apply keeps_extBlind | with_reducible apply keeps_modEt | with_reducible apply keeps_ite
    | with_reducible apply keeps_ite_fst | (simp only [stOf_mk]) | split | with_reducible apply keeps_fst | dsimp only

theorem keeps_execEtBlindEnd {c : Fin 32} {s s' : State}
    (e : execEtBlindEnd c s = .next s') : Fr 806092805 s s' := by
  unfold execEtBlindEnd at e
  refine keeps_next e ?_
  clear e
  have hk := Fr.refl 806092805 s
  have hm : Sub 806092805 806092805 := Sub.refl _
  repeat' first
    | with_reducible assumption | (exact Sub.mono hm rfl) | intro _ | with_reducible apply keeps_etBlindEnd | dsimp only

/-! ### Flow -/

theorem keeps_markerInsert {msk : Nat} {s0 s : State} (stage : FirstStage) (t : DevTime) (p : Nat) (off : Nat) (hk : Fr msk s0 s)
    (hm : Sub 271056901 msk := by exact Sub.mono (by assumption) rfl) :
    Fr msk s0 (State.markerInsert s stage t p off) := by
  unfold State.markerInsert
  repeat' first
    | with_reducible assumption | (exact Sub.mono hm rfl) | intro _
    | (extract_lets +onlyGivenNames x; refine keeps_have (msk := msk) (s0 := s0) (x := x) ?_ ?_; rotate_left; clear_value x; intro hx; rotate_right; subst x)
    | (extract_lets +onlyGivenNames x; clear_value x) | with_reducible apply keeps_etMarker
    | with_reducible apply keeps_insertMarker | with_reducible apply keeps_inserted | split | dsimp only
    | with_reducible apply keeps_ce | with_reducible apply keeps_flow

theorem keeps_cbInsert {msk : Nat} {s0 s : State} (t : DevTime) (p : Nat) (x0 : Nat) (hk : Fr msk s0 s)
    (hm : Sub 271056901 msk := by exact Sub.mono (by assumption) rfl) : Fr msk s0 (State.cbInsert t p x0 s) := by
  induction x0 generalizing s with
  | zero =>
    unfold State.cbInsert
    repeat' first
      | with_reducible assumption | (exact Sub.mono hm rfl) | intro _
      | (extract_lets +onlyGivenNames x; refine keeps_have (msk := msk) (s0 := s0) (x := x) ?_ ?_; rotate_left; clear_value x; intro hx; rotate_right; subst x)
      | (extract_lets +onlyGivenNames x; clear_value x) | with_reducible apply keeps_markerInsert | split | dsimp only
  | succ n ih =>
    unfold State.cbInsert
    repeat' first
      | with_reducible assumption | (exact Sub.mono hm rfl) | intro _
      | (extract_lets +onlyGivenNames x; refine keeps_have (msk := msk) (s0 := s0) (x := x) ?_ ?_; rotate_left; clear_value x; intro hx; rotate_right; subst x)
      | (extract_lets +onlyGivenNames x; clear_value x) | with_reducible apply ih | with_reducible apply keeps_markerInsert
      | split | dsimp only

theorem keeps_execMarkerInsert {stage : FirstStage} {t : DevTime} {period : Nat} {off : Nat} {s s' : State}
    (e : execMarkerInsert stage t period off s = .next s') : Fr 271058949 s s' := by
  unfold execMarkerInsert at e
  refine keeps_next e ?_
  clear e
  have hk := Fr.refl 271058949 s
  have hm : Sub 271058949 271058949 := Sub.refl _
  repeat' first
    | with_reducible assumption | (exact Sub.mono hm rfl) | intro _
    | (extract_lets +onlyGivenNames x; refine keeps_have (msk := 271058949) (s0 := s) (x := x) ?_ ?_; rotate_left; clear_value x; intro hx; rotate_right; subst x)
    | (extract_lets +onlyGivenNames x; clear_value x) | with_reducible apply keeps_afInsert
    | with_reducible apply keeps_markerInsert | with_reducible apply keeps_ite | split | dsimp only

theorem keeps_execMarkerEpoch {region : Fin 16} {id : BitVec 16} {m : Marker} {s s' : State}
    (e : execMarkerEpoch region id m s = .next s') : Fr 4 s s' := by
  unfold execMarkerEpoch at e
  refine keeps_next e ?_
  clear e
  have hk := Fr.refl 4 s
  have hm : Sub 4 4 := Sub.refl _
  repeat' first
    | with_reducible assumption | (exact Sub.mono hm rfl) | intro _ | with_reducible apply keeps_adoptEpoch
    | with_reducible apply keeps_ite | (with_reducible apply keeps_id) | dsimp only

theorem keeps_execMarkerTimeStep {m : Marker} {s s' : State}
    (e : execMarkerTimeStep m s = .next s') : Fr 262145 s s' := by
  unfold execMarkerTimeStep at e
  refine keeps_next e ?_
  clear e
  have hk := Fr.refl 262145 s
  have hm : Sub 262145 262145 := Sub.refl _
  repeat' first
    | with_reducible assumption | (exact Sub.mono hm rfl) | intro _ | with_reducible apply keeps_tgTimeStep
    | with_reducible apply keeps_ite | dsimp only

theorem keeps_fence {msk : Nat} {s0 s : State} (k : Nat) (id : BitVec 16) (hk : Fr msk s0 s)
    (hm : Sub 268435623 msk := by exact Sub.mono (by assumption) rfl) :
    Fr msk s0 (State.fence s k id) := by
  unfold State.fence
  repeat' first
    | with_reducible assumption | (exact Sub.mono hm rfl) | intro _ | with_reducible apply keeps_count
    | with_reducible apply keeps_raiseAlarm | (with_reducible apply keeps_id) | dsimp only

theorem keeps_exitSend {msk : Nat} {s0 s : State} (e : Exit) (inst : Nat) (r : YRec) (hk : Fr msk s0 s)
    (hm : Sub 268435460 msk := by exact Sub.mono (by assumption) rfl) :
    Fr msk s0 (State.exitSend s e inst r) := by
  unfold State.exitSend
  repeat' first
    | with_reducible assumption | (exact Sub.mono hm rfl) | intro _
    | (extract_lets +onlyGivenNames x; refine keeps_have (msk := msk) (s0 := s0) (x := x) ?_ ?_; rotate_left; clear_value x; intro hx; rotate_right; subst x)
    | (extract_lets +onlyGivenNames x; clear_value x) | with_reducible apply keeps_sendRecord
    | with_reducible apply keeps_ite | dsimp only | with_reducible apply keeps_flow

theorem keeps_exitFrame {msk : Nat} {s0 s : State} (e : Exit) (inst : Nat) (x : Sum Frame GapRec) (hk : Fr msk s0 s)
    (hm : Sub 268435623 msk := by exact Sub.mono (by assumption) rfl) :
    Fr msk s0 (State.exitFrame s e inst x) := by
  unfold State.exitFrame
  repeat' first
    | with_reducible assumption | (exact Sub.mono hm rfl) | intro _
    | (extract_lets +onlyGivenNames x; refine keeps_have (msk := msk) (s0 := s0) (x := x) ?_ ?_; rotate_left; clear_value x; intro hx; rotate_right; subst x)
    | (extract_lets +onlyGivenNames x; clear_value x) | with_reducible apply keeps_exitSend
    | with_reducible apply keeps_fence | with_reducible apply keeps_takeEpochs | with_reducible apply keeps_ite | split
    | dsimp only

theorem keeps_swGrant {msk : Nat} {s0 s : State} (k : Nat) (hk : Fr msk s0 s)
    (hm : Sub 268435623 msk := by exact Sub.mono (by assumption) rfl) :
    Fr msk s0 (State.swGrant s k) := by
  unfold State.swGrant
  repeat' first
    | with_reducible assumption | (exact Sub.mono hm rfl) | intro _
    | (extract_lets +onlyGivenNames x; refine keeps_have (msk := msk) (s0 := s0) (x := x) ?_ ?_; rotate_left; clear_value x; intro hx; rotate_right; subst x)
    | (extract_lets +onlyGivenNames x; clear_value x) | with_reducible apply keeps_exitFrame | split | dsimp only
    | with_reducible apply keeps_flow

theorem keeps_swRun {msk : Nat} {s0 s : State} (k : Nat) (x0 : Nat) (hk : Fr msk s0 s)
    (hm : Sub 268435623 msk := by exact Sub.mono (by assumption) rfl) : Fr msk s0 (State.swRun s k x0) := by
  induction x0 generalizing s with
  | zero =>
    unfold State.swRun
    repeat' first
      | with_reducible assumption | (exact Sub.mono hm rfl) | intro _ | with_reducible apply keeps_swGrant
      | with_reducible apply keeps_ite | split | dsimp only
  | succ n ih =>
    unfold State.swRun
    repeat' first
      | with_reducible assumption | (exact Sub.mono hm rfl) | intro _ | with_reducible apply ih
      | with_reducible apply keeps_swGrant | with_reducible apply keeps_ite | split | dsimp only

theorem keeps_swResume {msk : Nat} {s0 s : State} (r : Nat) (hk : Fr msk s0 s)
    (hm : Sub 268435623 msk := by exact Sub.mono (by assumption) rfl) :
    Fr msk s0 (State.swResume s r) := by
  unfold State.swResume
  repeat' first
    | with_reducible assumption | (exact Sub.mono hm rfl) | intro _ | with_reducible apply keeps_each
    | with_reducible apply keeps_swRun | dsimp only

theorem keeps_swArrive {msk : Nat} {s0 s : State} (e : Exit) (inst : Nat) (x : Sum Frame GapRec) (hk : Fr msk s0 s)
    (hm : Sub 268435623 msk := by exact Sub.mono (by assumption) rfl) :
    Fr msk s0 (State.swArrive s e inst x) := by
  unfold State.swArrive
  repeat' first
    | with_reducible assumption | (exact Sub.mono hm rfl) | intro _
    | (extract_lets +onlyGivenNames x; refine keeps_have (msk := msk) (s0 := s0) (x := x) ?_ ?_; rotate_left; clear_value x; intro hx; rotate_right; subst x)
    | (extract_lets +onlyGivenNames x; clear_value x) | with_reducible apply keeps_swRun | dsimp only
    | with_reducible apply keeps_flow

theorem keeps_execExitFrameReceive {e : Exit} {inst : Nat} {f : Sum Frame GapRec} {s s' : State}
    (e : execExitFrameReceive e inst f s = .next s') : Fr 268435623 s s' := by
  unfold execExitFrameReceive at e
  refine keeps_next e ?_
  clear e
  have hk := Fr.refl 268435623 s
  have hm : Sub 268435623 268435623 := Sub.refl _
  repeat' first
    | with_reducible assumption | (exact Sub.mono hm rfl) | intro _ | with_reducible apply keeps_swArrive | dsimp only

theorem keeps_execOutputBufferFull {id : BitVec 16} {s s' : State}
    (e : execOutputBufferFull id s = .next s') : Fr 4 s s' := by
  unfold execOutputBufferFull at e
  refine keeps_next e ?_
  clear e
  have hk := Fr.refl 4 s
  have hm : Sub 4 4 := Sub.refl _
  repeat' first
    | with_reducible assumption | (exact Sub.mono hm rfl) | intro _
    | (extract_lets +onlyGivenNames x; refine keeps_have (msk := 4) (s0 := s) (x := x) ?_ ?_; rotate_left; clear_value x; intro hx; rotate_right; subst x)
    | (extract_lets +onlyGivenNames x; clear_value x) | with_reducible apply keeps_modStream | with_reducible apply keeps_ite
    | (with_reducible apply keeps_id) | dsimp only

theorem keeps_gapEmit {msk : Nat} {s0 s : State} (id : BitVec 16) (hk : Fr msk s0 s)
    (hm : Sub 270886567 msk := by exact Sub.mono (by assumption) rfl) :
    Fr msk s0 (State.gapEmit s id) := by
  unfold State.gapEmit
  repeat' first
    | with_reducible assumption | (exact Sub.mono hm rfl) | intro _
    | (extract_lets +onlyGivenNames x; refine keeps_have (msk := msk) (s0 := s0) (x := x) ?_ ?_; rotate_left; clear_value x; intro hx; rotate_right; subst x)
    | (extract_lets +onlyGivenNames x; clear_value x) | with_reducible apply keeps_gap | with_reducible apply keeps_modStream
    | with_reducible apply keeps_rawGap | with_reducible apply keeps_ringLose | with_reducible apply keeps_toCb
    | with_reducible apply keeps_ite | (with_reducible apply keeps_id) | dsimp only

theorem keeps_execGapRecordEmit {id : BitVec 16} {s s' : State}
    (e : execGapRecordEmit id s = .next s') : Fr 270886567 s s' := by
  unfold execGapRecordEmit at e
  refine keeps_next e ?_
  clear e
  have hk := Fr.refl 270886567 s
  have hm : Sub 270886567 270886567 := Sub.refl _
  repeat' first
    | with_reducible assumption | (exact Sub.mono hm rfl) | intro _ | with_reducible apply keeps_gapEmit
    | (with_reducible apply keeps_id) | dsimp only

/-! ### Retime -/

theorem keeps_retimeBlocks {msk : Nat} {s0 s : State} (d : Int) (hk : Fr msk s0 s)
    (hm : Sub 198444336 msk := by exact Sub.mono (by assumption) rfl) :
    Fr msk s0 (State.retimeBlocks s d) := by
  unfold State.retimeBlocks
  repeat' first
    | with_reducible assumption | (exact Sub.mono hm rfl) | intro _
    | (extract_lets +onlyGivenNames x; refine keeps_have (msk := msk) (s0 := s0) (x := x) ?_ ?_; rotate_left; clear_value x; intro hx; rotate_right; subst x)
    | (extract_lets +onlyGivenNames x; refine keeps_have_fst (msk := msk) (s0 := s0) (x := x) ?_ ?_; rotate_left; clear_value x; intro hx; rotate_right; subst x)
    | (extract_lets +onlyGivenNames x; clear_value x) | (simp only [stOf_mk]) | with_reducible apply keeps_fst | dsimp only
    | with_reducible apply keeps_tg_kl_kh_cm_bd_hs_ds_im_prot_alarm_ft

/-! ### Clock -/

theorem keeps_modTime {msk : Nat} {s0 s : State} (f : TimeSt → TimeSt) (hk : Fr msk s0 s)
    (hm : Sub 8 msk := by exact Sub.mono (by assumption) rfl) :
    Fr msk s0 (State.modTime s f) := by
  unfold State.modTime
  repeat' first
    | with_reducible assumption | (exact Sub.mono hm rfl) | intro _
    | (extract_lets +onlyGivenNames x; refine keeps_have (msk := msk) (s0 := s0) (x := x) ?_ ?_; rotate_left; clear_value x; intro hx; rotate_right; subst x)
    | (extract_lets +onlyGivenNames x; clear_value x) | dsimp only | with_reducible apply keeps_time

theorem keeps_setCoast {msk : Nat} {s0 s : State} (f : State → State) (h_f : ∀ t , Fr msk s0 t → Fr msk s0 (f t )) (hk : Fr msk s0 s)
    (hm : Sub 8 msk := by exact Sub.mono (by assumption) rfl) :
    Fr msk s0 (State.setCoast s f) := by
  unfold State.setCoast
  repeat' first
    | with_reducible assumption | (exact Sub.mono hm rfl) | intro _
    | (extract_lets +onlyGivenNames x; refine keeps_have (msk := msk) (s0 := s0) (x := x) ?_ ?_; rotate_left; clear_value x; intro hx; rotate_right; subst x)
    | (extract_lets +onlyGivenNames x; clear_value x) | with_reducible apply keeps_modTime | with_reducible apply h_f
    | with_reducible apply keeps_ite | dsimp only

theorem keeps_setCoasting {msk : Nat} {s0 s : State} (on : Bool) (hk : Fr msk s0 s)
    (hm : Sub 9 msk := by exact Sub.mono (by assumption) rfl) :
    Fr msk s0 (State.setCoasting s on) := by
  unfold State.setCoasting
  repeat' first
    | with_reducible assumption | (exact Sub.mono hm rfl) | intro _
    | (extract_lets +onlyGivenNames x; refine keeps_have (msk := msk) (s0 := s0) (x := x) ?_ ?_; rotate_left; clear_value x; intro hx; rotate_right; subst x)
    | (extract_lets +onlyGivenNames x; clear_value x) | with_reducible apply keeps_modTime | with_reducible apply keeps_put
    | with_reducible apply keeps_setCoast | with_reducible apply keeps_ite | dsimp only

theorem keeps_setSlewing {msk : Nat} {s0 s : State} (on : Bool) (j : Int) (hk : Fr msk s0 s)
    (hm : Sub 9 msk := by exact Sub.mono (by assumption) rfl) :
    Fr msk s0 (State.setSlewing s on j) := by
  unfold State.setSlewing
  repeat' first
    | with_reducible assumption | (exact Sub.mono hm rfl) | intro _
    | (extract_lets +onlyGivenNames x; refine keeps_have (msk := msk) (s0 := s0) (x := x) ?_ ?_; rotate_left; clear_value x; intro hx; rotate_right; subst x)
    | (extract_lets +onlyGivenNames x; clear_value x) | with_reducible apply keeps_modTime | with_reducible apply keeps_put
    | with_reducible apply keeps_setCoast | with_reducible apply keeps_ite | (simp only [stOf_mk]) | dsimp only

theorem keeps_stepMarkers {msk : Nat} {s0 s : State} (t : DevTime) (arg : Int) (hk : Fr msk s0 s)
    (hm : Sub 4 msk := by exact Sub.mono (by assumption) rfl) :
    Fr msk s0 (State.stepMarkers s t arg) := by
  unfold State.stepMarkers
  repeat' first
    | with_reducible assumption | (exact Sub.mono hm rfl) | intro _
    | (extract_lets +onlyGivenNames x; refine keeps_have (msk := msk) (s0 := s0) (x := x) ?_ ?_; rotate_left; clear_value x; intro hx; rotate_right; subst x)
    | (extract_lets +onlyGivenNames x; refine keeps_have_fst (msk := msk) (s0 := s0) (x := x) ?_ ?_; rotate_left; clear_value x; intro hx; rotate_right; subst x)
    | (extract_lets +onlyGivenNames x; clear_value x) | with_reducible apply keeps_cancelMarker
    | with_reducible apply keeps_each | with_reducible apply keeps_requestMarker | (simp only [stOf_mk])
    | with_reducible apply keeps_fst | dsimp only

theorem keeps_stepRequest {msk : Nat} {s0 s : State} (j : Int) (hk : Fr msk s0 s)
    (hm : Sub 12 msk := by exact Sub.mono (by assumption) rfl) :
    Fr msk s0 (State.stepRequest s j) := by
  unfold State.stepRequest
  repeat' first
    | with_reducible assumption | (exact Sub.mono hm rfl) | intro _
    | (extract_lets +onlyGivenNames x; refine keeps_have (msk := msk) (s0 := s0) (x := x) ?_ ?_; rotate_left; clear_value x; intro hx; rotate_right; subst x)
    | (extract_lets +onlyGivenNames x; clear_value x) | with_reducible apply keeps_modTime
    | with_reducible apply keeps_stepMarkers | dsimp only

theorem keeps_putJump {msk : Nat} {s0 s : State} (j : Int) (hk : Fr msk s0 s)
    (hm : Sub 536870913 msk := by exact Sub.mono (by assumption) rfl) :
    Fr msk s0 (State.putJump s j) := by
  unfold State.putJump
  repeat' first
    | with_reducible assumption | (exact Sub.mono hm rfl) | intro _ | with_reducible apply keeps_setVal
    | with_reducible apply keeps_useFree | with_reducible apply keeps_ite | dsimp only

theorem keeps_applyPolicy {msk : Nat} {s0 s : State} (j : Int) (hk : Fr msk s0 s)
    (hm : Sub 13 msk := by exact Sub.mono (by assumption) rfl) :
    Fr msk s0 (State.applyPolicy s j) := by
  unfold State.applyPolicy
  repeat' first
    | with_reducible assumption | (exact Sub.mono hm rfl) | intro _ | with_reducible apply keeps_setSlewing
    | with_reducible apply keeps_stepRequest | with_reducible apply keeps_ite | dsimp only

theorem keeps_returned {msk : Nat} {s0 s : State} (j : Int) (hk : Fr msk s0 s)
    (hm : Sub 805306543 msk := by exact Sub.mono (by assumption) rfl) :
    Fr msk s0 (State.returned s j) := by
  unfold State.returned
  repeat' first
    | with_reducible assumption | (exact Sub.mono hm rfl) | intro _
    | (extract_lets +onlyGivenNames x; refine keeps_have (msk := msk) (s0 := s0) (x := x) ?_ ?_; rotate_left; clear_value x; intro hx; rotate_right; subst x)
    | (extract_lets +onlyGivenNames x; clear_value x) | with_reducible apply keeps_applyPolicy
    | with_reducible apply keeps_modTime | with_reducible apply keeps_put | with_reducible apply keeps_putJump
    | with_reducible apply keeps_raiseAlarm | with_reducible apply keeps_ite | dsimp only

theorem keeps_updateRef {msk : Nat} {s0 s : State} (j : Int) (hk : Fr msk s0 s)
    (hm : Sub 805306543 msk := by exact Sub.mono (by assumption) rfl) :
    Fr msk s0 (State.updateRef s j) := by
  unfold State.updateRef
  repeat' first
    | with_reducible assumption | (exact Sub.mono hm rfl) | intro _
    | (extract_lets +onlyGivenNames x; refine keeps_have (msk := msk) (s0 := s0) (x := x) ?_ ?_; rotate_left; clear_value x; intro hx; rotate_right; subst x)
    | (extract_lets +onlyGivenNames x; clear_value x) | with_reducible apply keeps_modTime | with_reducible apply keeps_put
    | with_reducible apply keeps_returned | with_reducible apply keeps_setCoasting | with_reducible apply keeps_ite | split
    | dsimp only

theorem keeps_hiveLost {msk : Nat} {s0 s : State}  (hk : Fr msk s0 s)
    (hm : Sub 805306543 msk := by exact Sub.mono (by assumption) rfl) :
    Fr msk s0 (State.hiveLost s) := by
  unfold State.hiveLost
  repeat' first
    | with_reducible assumption | (exact Sub.mono hm rfl) | intro _ | with_reducible apply keeps_put
    | with_reducible apply keeps_updateRef | with_reducible apply keeps_useFree | with_reducible apply keeps_ite | dsimp only

theorem keeps_hiveWatch {msk : Nat} {s0 s : State}  (hk : Fr msk s0 s)
    (hm : Sub 805306543 msk := by exact Sub.mono (by assumption) rfl) :
    Fr msk s0 (State.hiveWatch s) := by
  unfold State.hiveWatch
  repeat' first
    | with_reducible assumption | (exact Sub.mono hm rfl) | intro _ | with_reducible apply keeps_hiveLost
    | with_reducible apply keeps_ite | dsimp only

theorem keeps_execRefQualified {r : Fin 3} {j : Int} {s s' : State}
    (e : execRefQualified r j s = .next s') : Fr 805306543 s s' := by
  unfold execRefQualified at e
  refine keeps_next e ?_
  clear e
  have hk := Fr.refl 805306543 s
  have hm : Sub 805306543 805306543 := Sub.refl _
  repeat' first
    | with_reducible assumption | (exact Sub.mono hm rfl) | intro _ | with_reducible apply keeps_put
    | with_reducible apply keeps_updateRef | with_reducible apply keeps_ite | split | dsimp only

theorem keeps_execRefLost {r : Fin 3} {j : Int} {s s' : State}
    (e : execRefLost r j s = .next s') : Fr 805306543 s s' := by
  unfold execRefLost at e
  refine keeps_next e ?_
  clear e
  have hk := Fr.refl 805306543 s
  have hm : Sub 805306543 805306543 := Sub.refl _
  repeat' first
    | with_reducible assumption | (exact Sub.mono hm rfl) | intro _ | with_reducible apply keeps_put
    | with_reducible apply keeps_updateRef | with_reducible apply keeps_ite | dsimp only

theorem keeps_cancelLoad {msk : Nat} {s0 s : State}  (hk : Fr msk s0 s)
    (hm : Sub 13 msk := by exact Sub.mono (by assumption) rfl) :
    Fr msk s0 (State.cancelLoad s) := by
  unfold State.cancelLoad
  repeat' first
    | with_reducible assumption | (exact Sub.mono hm rfl) | intro _
    | (extract_lets +onlyGivenNames x; refine keeps_have (msk := msk) (s0 := s0) (x := x) ?_ ?_; rotate_left; clear_value x; intro hx; rotate_right; subst x)
    | (extract_lets +onlyGivenNames x; clear_value x) | with_reducible apply keeps_cancelMarker
    | with_reducible apply keeps_modTime | with_reducible apply keeps_put | dsimp only

theorem keeps_refCtlWrite {msk : Nat} {s0 s : State} (v : Nat) (j : Int) (hk : Fr msk s0 s)
    (hm : Sub 805306543 msk := by exact Sub.mono (by assumption) rfl) :
    Fr msk s0 (stOf (State.refCtlWrite s v j)) := by
  unfold State.refCtlWrite
  repeat' first
    | with_reducible assumption | (exact Sub.mono hm rfl) | intro _
    | (extract_lets +onlyGivenNames x; refine keeps_have (msk := msk) (s0 := s0) (x := x) ?_ ?_; rotate_left; clear_value x; intro hx; rotate_right; subst x)
    | (extract_lets +onlyGivenNames x; refine keeps_have_fst (msk := msk) (s0 := s0) (x := x) ?_ ?_; rotate_left; clear_value x; intro hx; rotate_right; subst x)
    | (extract_lets +onlyGivenNames x; clear_value x) | with_reducible apply keeps_cancelLoad
    | with_reducible apply keeps_modTime | with_reducible apply keeps_plainWrite | with_reducible apply keeps_put
    | with_reducible apply keeps_updateRef | with_reducible apply keeps_ite | with_reducible apply keeps_ite_fst
    | (simp only [stOf_mk]) | split | with_reducible apply keeps_fst | dsimp only

theorem keeps_execRefCtlWrite {p : Fin 5} {v : Word} {j : Int} {s s' : State}
    (e : execRefCtlWrite p v j s = .next s') : Fr 805306543 s s' := by
  unfold execRefCtlWrite at e
  refine keeps_next e ?_
  clear e
  have hk := Fr.refl 805306543 s
  have hm : Sub 805306543 805306543 := Sub.refl _
  repeat' first
    | with_reducible assumption | (exact Sub.mono hm rfl) | intro _ | with_reducible apply keeps_gatedWrite
    | with_reducible apply keeps_refCtlWrite | dsimp only

theorem keeps_execCoastSecond  {s s' : State}
    (e : execCoastSecond  s = .next s') : Fr 1 s s' := by
  unfold execCoastSecond at e
  refine keeps_next e ?_
  clear e
  have hk := Fr.refl 1 s
  have hm : Sub 1 1 := Sub.refl _
  repeat' first
    | with_reducible assumption | (exact Sub.mono hm rfl) | intro _ | with_reducible apply keeps_put
    | with_reducible apply keeps_ite | dsimp only

theorem keeps_coastExhausted {msk : Nat} {s0 s : State}  (hk : Fr msk s0 s)
    (hm : Sub 268912815 msk := by exact Sub.mono (by assumption) rfl) :
    Fr msk s0 (State.coastExhausted s) := by
  unfold State.coastExhausted
  repeat' first
    | with_reducible assumption | (exact Sub.mono hm rfl) | intro _
    | (extract_lets +onlyGivenNames x; refine keeps_have (msk := msk) (s0 := s0) (x := x) ?_ ?_; rotate_left; clear_value x; intro hx; rotate_right; subst x)
    | (extract_lets +onlyGivenNames x; clear_value x) | with_reducible apply keeps_beginLevel
    | with_reducible apply keeps_each | with_reducible apply keeps_inputCut | with_reducible apply keeps_modTime
    | with_reducible apply keeps_notMasked | with_reducible apply keeps_put | with_reducible apply keeps_raiseAlarm
    | with_reducible apply keeps_stopStreams | with_reducible apply keeps_ite | split | (with_reducible apply keeps_id)
    | dsimp only

theorem keeps_execCoastExhausted  {s s' : State}
    (e : execCoastExhausted  s = .next s') : Fr 268912815 s s' := by
  unfold execCoastExhausted at e
  refine keeps_next e ?_
  clear e
  have hk := Fr.refl 268912815 s
  have hm : Sub 268912815 268912815 := Sub.refl _
  repeat' first
    | with_reducible assumption | (exact Sub.mono hm rfl) | intro _ | with_reducible apply keeps_coastExhausted | dsimp only

theorem keeps_refStatusWrite {msk : Nat} {s0 s : State} (v : Nat) (hk : Fr msk s0 s)
    (hm : Sub 45 msk := by exact Sub.mono (by assumption) rfl) :
    Fr msk s0 (stOf (State.refStatusWrite s v)) := by
  unfold State.refStatusWrite
  repeat' first
    | with_reducible assumption | (exact Sub.mono hm rfl) | intro _
    | (extract_lets +onlyGivenNames x; refine keeps_have (msk := msk) (s0 := s0) (x := x) ?_ ?_; rotate_left; clear_value x; intro hx; rotate_right; subst x)
    | (extract_lets +onlyGivenNames x; refine keeps_have_fst (msk := msk) (s0 := s0) (x := x) ?_ ?_; rotate_left; clear_value x; intro hx; rotate_right; subst x)
    | (extract_lets +onlyGivenNames x; clear_value x) | with_reducible apply keeps_endLevel
    | with_reducible apply keeps_modTime | with_reducible apply keeps_plainWrite | with_reducible apply keeps_stepRequest
    | with_reducible apply keeps_ite | with_reducible apply keeps_ite_fst | (simp only [stOf_mk])
    | with_reducible apply keeps_fst | dsimp only

theorem keeps_execExhaustedClear {p : Fin 5} {s s' : State}
    (e : execExhaustedClear p s = .next s') : Fr 45 s s' := by
  unfold execExhaustedClear at e
  refine keeps_next e ?_
  clear e
  have hk := Fr.refl 45 s
  have hm : Sub 45 45 := Sub.refl _
  repeat' first
    | with_reducible assumption | (exact Sub.mono hm rfl) | intro _ | with_reducible apply keeps_gatedWrite
    | with_reducible apply keeps_refStatusWrite | dsimp only

theorem keeps_execSlewEnd  {s s' : State}
    (e : execSlewEnd  s = .next s') : Fr 9 s s' := by
  unfold execSlewEnd at e
  refine keeps_next e ?_
  clear e
  have hk := Fr.refl 9 s
  have hm : Sub 9 9 := Sub.refl _
  repeat' first
    | with_reducible assumption | (exact Sub.mono hm rfl) | intro _ | with_reducible apply keeps_setSlewing
    | with_reducible apply keeps_ite | dsimp only

theorem keeps_loadTime {msk : Nat} {s0 s : State} (t : DevTime) (hk : Fr msk s0 s)
    (hm : Sub 201080124 msk := by exact Sub.mono (by assumption) rfl) :
    Fr msk s0 (State.loadTime s t) := by
  unfold State.loadTime
  repeat' first
    | with_reducible assumption | (exact Sub.mono hm rfl) | intro _
    | (extract_lets +onlyGivenNames x; refine keeps_have (msk := msk) (s0 := s0) (x := x) ?_ ?_; rotate_left; clear_value x; intro hx; rotate_right; subst x)
    | (extract_lets +onlyGivenNames x; refine keeps_have_fst (msk := msk) (s0 := s0) (x := x) ?_ ?_; rotate_left; clear_value x; intro hx; rotate_right; subst x)
    | (extract_lets +onlyGivenNames x; clear_value x) | with_reducible apply keeps_modTime
    | with_reducible apply keeps_retimeBlocks | with_reducible apply keeps_ite | with_reducible apply keeps_ite_fst
    | (simp only [stOf_mk]) | split | with_reducible apply keeps_fst | dsimp only
    | with_reducible apply keeps_flow_af_et_qu_ce_ca

theorem keeps_stepGaps {msk : Nat} {s0 s : State} (f : Nat → Bool) (hk : Fr msk s0 s)
    (hm : Sub 268435460 msk := by exact Sub.mono (by assumption) rfl) :
    Fr msk s0 (State.stepGaps s f) := by
  unfold State.stepGaps
  repeat' first
    | with_reducible assumption | (exact Sub.mono hm rfl) | intro _ | with_reducible apply keeps_each
    | with_reducible apply keeps_gap | (simp only [stOf_mk]) | with_reducible apply keeps_fst | dsimp only

theorem keeps_afUnlock {msk : Nat} {s0 s : State} (k : Nat) (cause : Nat) (hk : Fr msk s0 s)
    (hm : Sub 268781581 msk := by exact Sub.mono (by assumption) rfl) :
    Fr msk s0 (State.afUnlock s k cause) := by
  unfold State.afUnlock
  repeat' first
    | with_reducible assumption | (exact Sub.mono hm rfl) | intro _
    | (extract_lets +onlyGivenNames x; refine keeps_have (msk := msk) (s0 := s0) (x := x) ?_ ?_; rotate_left; clear_value x; intro hx; rotate_right; subst x)
    | (extract_lets +onlyGivenNames x; clear_value x) | with_reducible apply keeps_each | with_reducible apply keeps_inputEnd
    | with_reducible apply keeps_modTime | with_reducible apply keeps_put | with_reducible apply keeps_ite | dsimp only

theorem keeps_resumeStopped {msk : Nat} {s0 s : State}  (hk : Fr msk s0 s)
    (hm : Sub 268709551 msk := by exact Sub.mono (by assumption) rfl) :
    Fr msk s0 (State.resumeStopped s) := by
  unfold State.resumeStopped
  repeat' first
    | with_reducible assumption | (exact Sub.mono hm rfl) | intro _
    | (extract_lets +onlyGivenNames x; refine keeps_have (msk := msk) (s0 := s0) (x := x) ?_ ?_; rotate_left; clear_value x; intro hx; rotate_right; subst x)
    | (extract_lets +onlyGivenNames x; clear_value x) | with_reducible apply keeps_each | with_reducible apply keeps_modIn
    | with_reducible apply keeps_modTime | with_reducible apply keeps_resumeStreams | with_reducible apply keeps_ringLose
    | dsimp only

theorem keeps_timeStepExecute {msk : Nat} {s0 s : State}  (hk : Fr msk s0 s)
    (hm : Sub 469598143 msk := by exact Sub.mono (by assumption) rfl) :
    Fr msk s0 (State.timeStepExecute s) := by
  unfold State.timeStepExecute
  repeat' first
    | with_reducible assumption | (exact Sub.mono hm rfl) | intro _
    | (extract_lets +onlyGivenNames x; refine keeps_have (msk := msk) (s0 := s0) (x := x) ?_ ?_; rotate_left; clear_value x; intro hx; rotate_right; subst x)
    | (extract_lets +onlyGivenNames x; clear_value x) | with_reducible apply keeps_afUnlock | with_reducible apply keeps_each
    | with_reducible apply keeps_etStep | with_reducible apply keeps_ivSettle | with_reducible apply keeps_loadTime
    | with_reducible apply keeps_modTime | with_reducible apply keeps_resumeStopped | with_reducible apply keeps_stepGaps
    | with_reducible apply keeps_ite | split | dsimp only

theorem keeps_execTimeStepExecute  {s s' : State}
    (e : execTimeStepExecute  s = .next s') : Fr 469598143 s s' := by
  unfold execTimeStepExecute at e
  refine keeps_next e ?_
  clear e
  have hk := Fr.refl 469598143 s
  have hm : Sub 469598143 469598143 := Sub.refl _
  repeat' first
    | with_reducible assumption | (exact Sub.mono hm rfl) | intro _ | with_reducible apply keeps_timeStepExecute | dsimp only

theorem keeps_loadChoose {msk : Nat} {s0 s : State} (sec : Word) (atPps : Bool) (hk : Fr msk s0 s)
    (hm : Sub 12 msk := by exact Sub.mono (by assumption) rfl) :
    Fr msk s0 (State.loadChoose s sec atPps) := by
  unfold State.loadChoose
  repeat' first
    | with_reducible assumption | (exact Sub.mono hm rfl) | intro _
    | (extract_lets +onlyGivenNames x; refine keeps_have (msk := msk) (s0 := s0) (x := x) ?_ ?_; rotate_left; clear_value x; intro hx; rotate_right; subst x)
    | (extract_lets +onlyGivenNames x; clear_value x) | with_reducible apply keeps_modTime
    | with_reducible apply keeps_stepMarkers | dsimp only

theorem keeps_timeSetCtlWrite {msk : Nat} {s0 s : State} (v : Nat) (hk : Fr msk s0 s)
    (hm : Sub 13 msk := by exact Sub.mono (by assumption) rfl) :
    Fr msk s0 (stOf (State.timeSetCtlWrite s v)) := by
  unfold State.timeSetCtlWrite
  repeat' first
    | with_reducible assumption | (exact Sub.mono hm rfl) | intro _
    | (extract_lets +onlyGivenNames x; refine keeps_have (msk := msk) (s0 := s0) (x := x) ?_ ?_; rotate_left; clear_value x; intro hx; rotate_right; subst x)
    | (extract_lets +onlyGivenNames x; refine keeps_have_fst (msk := msk) (s0 := s0) (x := x) ?_ ?_; rotate_left; clear_value x; intro hx; rotate_right; subst x)
    | (extract_lets +onlyGivenNames x; clear_value x) | with_reducible apply keeps_answer
    | with_reducible apply keeps_loadChoose | with_reducible apply keeps_modTime | with_reducible apply keeps_put
    | with_reducible apply keeps_ite | with_reducible apply keeps_ite_fst | (simp only [stOf_mk]) | split
    | with_reducible apply keeps_fst | dsimp only

theorem keeps_execTimeSetArm {p : Fin 5} {v : Word} {s s' : State}
    (e : execTimeSetArm p v s = .next s') : Fr 13 s s' := by
  unfold execTimeSetArm at e
  refine keeps_next e ?_
  clear e
  have hk := Fr.refl 13 s
  have hm : Sub 13 13 := Sub.refl _
  repeat' first
    | with_reducible assumption | (exact Sub.mono hm rfl) | intro _ | with_reducible apply keeps_gatedWrite
    | with_reducible apply keeps_timeSetCtlWrite | dsimp only

theorem keeps_loadAtRun {msk : Nat} {s0 s : State}  (hk : Fr msk s0 s)
    (hm : Sub 13 msk := by exact Sub.mono (by assumption) rfl) :
    Fr msk s0 (State.loadAtRun s) := by
  unfold State.loadAtRun
  repeat' first
    | with_reducible assumption | (exact Sub.mono hm rfl) | intro _
    | (extract_lets +onlyGivenNames x; refine keeps_have (msk := msk) (s0 := s0) (x := x) ?_ ?_; rotate_left; clear_value x; intro hx; rotate_right; subst x)
    | (extract_lets +onlyGivenNames x; clear_value x) | with_reducible apply keeps_cancelLoad
    | with_reducible apply keeps_loadChoose | with_reducible apply keeps_ite | split | dsimp only

theorem keeps_timeLoad {msk : Nat} {s0 s : State}  (hk : Fr msk s0 s)
    (hm : Sub 1006468413 msk := by exact Sub.mono (by assumption) rfl) :
    Fr msk s0 (State.timeLoad s) := by
  unfold State.timeLoad
  repeat' first
    | with_reducible assumption | (exact Sub.mono hm rfl) | intro _
    | (extract_lets +onlyGivenNames x; refine keeps_have (msk := msk) (s0 := s0) (x := x) ?_ ?_; rotate_left; clear_value x; intro hx; rotate_right; subst x)
    | (extract_lets +onlyGivenNames x; clear_value x) | with_reducible apply keeps_each | with_reducible apply keeps_etLoad
    | with_reducible apply keeps_inputEnd | with_reducible apply keeps_ivSettle | with_reducible apply keeps_loadTime
    | with_reducible apply keeps_modTime | with_reducible apply keeps_put | with_reducible apply keeps_stepGaps
    | with_reducible apply keeps_ite | split | dsimp only

theorem keeps_execTimeLoad  {s s' : State}
    (e : execTimeLoad  s = .next s') : Fr 1006468413 s s' := by
  unfold execTimeLoad at e
  refine keeps_next e ?_
  clear e
  have hk := Fr.refl 1006468413 s
  have hm : Sub 1006468413 1006468413 := Sub.refl _
  repeat' first
    | with_reducible assumption | (exact Sub.mono hm rfl) | intro _ | with_reducible apply keeps_timeLoad | dsimp only

theorem keeps_devTimeRead {msk : Nat} {s0 s : State} (p : Nat) (hk : Fr msk s0 s)
    (hm : Sub 8 msk := by exact Sub.mono (by assumption) rfl) :
    Fr msk s0 (stOf (State.devTimeRead s p)) := by
  unfold State.devTimeRead
  repeat' first
    | with_reducible assumption | (exact Sub.mono hm rfl) | intro _
    | (extract_lets +onlyGivenNames x; refine keeps_have (msk := msk) (s0 := s0) (x := x) ?_ ?_; rotate_left; clear_value x; intro hx; rotate_right; subst x)
    | (extract_lets +onlyGivenNames x; refine keeps_have_fst (msk := msk) (s0 := s0) (x := x) ?_ ?_; rotate_left; clear_value x; intro hx; rotate_right; subst x)
    | (extract_lets +onlyGivenNames x; clear_value x) | with_reducible apply keeps_modTime | (simp only [stOf_mk])
    | with_reducible apply keeps_fst | dsimp only

theorem keeps_execDevtimeSnapshot {p : Fin 5} {s s' : State}
    (e : execDevtimeSnapshot p s = .next s') : Fr 268435465 s s' := by
  unfold execDevtimeSnapshot at e
  refine keeps_next e ?_
  clear e
  have hk := Fr.refl 268435465 s
  have hm : Sub 268435465 268435465 := Sub.refl _
  repeat' first
    | with_reducible assumption | (exact Sub.mono hm rfl) | intro _ | with_reducible apply keeps_devTimeRead
    | with_reducible apply keeps_readOut | dsimp only

theorem keeps_execXoCorrection {model : Int} {s s' : State}
    (e : execXoCorrection model s = .next s') : Fr 8 s s' := by
  unfold execXoCorrection at e
  refine keeps_next e ?_
  clear e
  have hk := Fr.refl 8 s
  have hm : Sub 8 8 := Sub.refl _
  repeat' first
    | with_reducible assumption | (exact Sub.mono hm rfl) | intro _
    | (extract_lets +onlyGivenNames x; refine keeps_have (msk := 8) (s0 := s) (x := x) ?_ ?_; rotate_left; clear_value x; intro hx; rotate_right; subst x)
    | (extract_lets +onlyGivenNames x; clear_value x) | with_reducible apply keeps_modTime | dsimp only

theorem keeps_xoAgeLearn {msk : Nat} {s0 s : State} (diff : Int) (hk : Fr msk s0 s)
    (hm : Sub 537919497 msk := by exact Sub.mono (by assumption) rfl) :
    Fr msk s0 (State.xoAgeLearn s diff) := by
  unfold State.xoAgeLearn
  repeat' first
    | with_reducible assumption | (exact Sub.mono hm rfl) | intro _
    | (extract_lets +onlyGivenNames x; refine keeps_have (msk := msk) (s0 := s0) (x := x) ?_ ?_; rotate_left; clear_value x; intro hx; rotate_right; subst x)
    | (extract_lets +onlyGivenNames x; clear_value x) | with_reducible apply keeps_appendAgeing
    | with_reducible apply keeps_modTime | with_reducible apply keeps_setVal | with_reducible apply keeps_useFree
    | with_reducible apply keeps_ite | split | dsimp only

theorem keeps_execXoAgeLearn {diff : Int} {s s' : State}
    (e : execXoAgeLearn diff s = .next s') : Fr 537919497 s s' := by
  unfold execXoAgeLearn at e
  refine keeps_next e ?_
  clear e
  have hk := Fr.refl 537919497 s
  have hm : Sub 537919497 537919497 := Sub.refl _
  repeat' first
    | with_reducible assumption | (exact Sub.mono hm rfl) | intro _ | with_reducible apply keeps_xoAgeLearn | dsimp only

theorem keeps_xoAgeWrite {msk : Nat} {s0 s : State} (v : Nat) (hk : Fr msk s0 s)
    (hm : Sub 1048577 msk := by exact Sub.mono (by assumption) rfl) :
    Fr msk s0 (stOf (State.xoAgeWrite s v)) := by
  unfold State.xoAgeWrite
  repeat' first
    | with_reducible assumption | (exact Sub.mono hm rfl) | intro _ | with_reducible apply keeps_appendAgeing
    | with_reducible apply keeps_plainWrite | (simp only [stOf_mk]) | with_reducible apply keeps_fst | dsimp only

theorem keeps_execXoAgeWrite {p : Fin 5} {v : Word} {s s' : State}
    (e : execXoAgeWrite p v s = .next s') : Fr 1048577 s s' := by
  unfold execXoAgeWrite at e
  refine keeps_next e ?_
  clear e
  have hk := Fr.refl 1048577 s
  have hm : Sub 1048577 1048577 := Sub.refl _
  repeat' first
    | with_reducible assumption | (exact Sub.mono hm rfl) | intro _ | with_reducible apply keeps_gatedWrite
    | with_reducible apply keeps_xoAgeWrite | dsimp only

theorem keeps_loadEdge {msk : Nat} {s0 s : State} (e : DevTime) (hk : Fr msk s0 s)
    (hm : Sub 8 msk := by exact Sub.mono (by assumption) rfl) :
    Fr msk s0 (State.loadEdge s e) := by
  unfold State.loadEdge
  repeat' first
    | with_reducible assumption | (exact Sub.mono hm rfl) | intro _
    | (extract_lets +onlyGivenNames x; refine keeps_have (msk := msk) (s0 := s0) (x := x) ?_ ?_; rotate_left; clear_value x; intro hx; rotate_right; subst x)
    | (extract_lets +onlyGivenNames x; clear_value x) | with_reducible apply keeps_modTime | with_reducible apply keeps_ite
    | dsimp only

theorem keeps_ppsEdge {msk : Nat} {s0 s : State} (t : DevTime) (hk : Fr msk s0 s)
    (hm : Sub 805306543 msk := by exact Sub.mono (by assumption) rfl) :
    Fr msk s0 (State.ppsEdge s t) := by
  unfold State.ppsEdge
  repeat' first
    | with_reducible assumption | (exact Sub.mono hm rfl) | intro _
    | (extract_lets +onlyGivenNames x; refine keeps_have (msk := msk) (s0 := s0) (x := x) ?_ ?_; rotate_left; clear_value x; intro hx; rotate_right; subst x)
    | (extract_lets +onlyGivenNames x; clear_value x) | with_reducible apply keeps_loadEdge
    | with_reducible apply keeps_modTime | with_reducible apply keeps_put | with_reducible apply keeps_putJump
    | with_reducible apply keeps_raiseAlarm | with_reducible apply keeps_stepRequest | with_reducible apply keeps_ite | split
    | dsimp only

theorem keeps_execPpsEdge {t : DevTime} {s s' : State}
    (e : execPpsEdge t s = .next s') : Fr 805306543 s s' := by
  unfold execPpsEdge at e
  refine keeps_next e ?_
  clear e
  have hk := Fr.refl 805306543 s
  have hm : Sub 805306543 805306543 := Sub.refl _
  repeat' first
    | with_reducible assumption | (exact Sub.mono hm rfl) | intro _ | with_reducible apply keeps_ppsEdge | dsimp only

theorem keeps_ppsTimeout {msk : Nat} {s0 s : State}  (hk : Fr msk s0 s)
    (hm : Sub 9 msk := by exact Sub.mono (by assumption) rfl) :
    Fr msk s0 (State.ppsTimeout s) := by
  unfold State.ppsTimeout
  repeat' first
    | with_reducible assumption | (exact Sub.mono hm rfl) | intro _
    | (extract_lets +onlyGivenNames x; refine keeps_have (msk := msk) (s0 := s0) (x := x) ?_ ?_; rotate_left; clear_value x; intro hx; rotate_right; subst x)
    | (extract_lets +onlyGivenNames x; clear_value x) | with_reducible apply keeps_modTime | with_reducible apply keeps_put
    | with_reducible apply keeps_ite | split | dsimp only

theorem keeps_execPpsTimeout  {s s' : State}
    (e : execPpsTimeout  s = .next s') : Fr 9 s s' := by
  unfold execPpsTimeout at e
  refine keeps_next e ?_
  clear e
  have hk := Fr.refl 9 s
  have hm : Sub 9 9 := Sub.refl _
  repeat' first
    | with_reducible assumption | (exact Sub.mono hm rfl) | intro _ | with_reducible apply keeps_ppsTimeout | dsimp only

theorem keeps_execPpsOutRise  {s s' : State}
    (e : execPpsOutRise  s = .next s') : Fr 8 s s' := by
  unfold execPpsOutRise at e
  refine keeps_next e ?_
  clear e
  have hk := Fr.refl 8 s
  have hm : Sub 8 8 := Sub.refl _
  repeat' first
    | with_reducible assumption | (exact Sub.mono hm rfl) | intro _
    | (extract_lets +onlyGivenNames x; refine keeps_have (msk := 8) (s0 := s) (x := x) ?_ ?_; rotate_left; clear_value x; intro hx; rotate_right; subst x)
    | (extract_lets +onlyGivenNames x; clear_value x) | with_reducible apply keeps_modTime | with_reducible apply keeps_ite
    | dsimp only

theorem keeps_execPpsOutFall  {s s' : State}
    (e : execPpsOutFall  s = .next s') : Fr 8 s s' := by
  unfold execPpsOutFall at e
  refine keeps_next e ?_
  clear e
  have hk := Fr.refl 8 s
  have hm : Sub 8 8 := Sub.refl _
  repeat' first
    | with_reducible assumption | (exact Sub.mono hm rfl) | intro _
    | (extract_lets +onlyGivenNames x; refine keeps_have (msk := 8) (s0 := s) (x := x) ?_ ?_; rotate_left; clear_value x; intro hx; rotate_right; subst x)
    | (extract_lets +onlyGivenNames x; clear_value x) | with_reducible apply keeps_modTime | with_reducible apply keeps_ite
    | dsimp only

theorem keeps_syncWrite {msk : Nat} {s0 s : State} (i : Nat) (period : Bool) (v : Nat) (hk : Fr msk s0 s)
    (hm : Sub 9 msk := by exact Sub.mono (by assumption) rfl) :
    Fr msk s0 (stOf (State.syncWrite s i period v)) := by
  unfold State.syncWrite
  repeat' first
    | with_reducible assumption | with_reducible apply keeps_modTime | with_reducible apply keeps_plainWrite
    | (extract_lets +onlyGivenNames x; refine keeps_fun (x := x) ?_; subst x) | (exact Sub.mono hm rfl) | intro _
    | (extract_lets +onlyGivenNames x; refine keeps_have (msk := msk) (s0 := s0) (x := x) ?_ ?_; rotate_left; clear_value x; intro hx; rotate_right; subst x)
    | (extract_lets +onlyGivenNames x; refine keeps_have_fst (msk := msk) (s0 := s0) (x := x) ?_ ?_; rotate_left; clear_value x; intro hx; rotate_right; subst x)
    | (extract_lets +onlyGivenNames x; clear_value x) | with_reducible apply keeps_ite | with_reducible apply keeps_ite_fst
    | (simp only [stOf_mk]) | with_reducible apply keeps_fst | dsimp only

theorem keeps_execSyncOutWrite {p : Fin 5} {i : Fin 4} {period : Bool} {v : Word} {s s' : State}
    (e : execSyncOutWrite p i period v s = .next s') : Fr 9 s s' := by
  unfold execSyncOutWrite at e
  refine keeps_next e ?_
  clear e
  have hk := Fr.refl 9 s
  have hm : Sub 9 9 := Sub.refl _
  repeat' first
    | with_reducible assumption | (exact Sub.mono hm rfl) | intro _ | with_reducible apply keeps_gatedWrite
    | with_reducible apply keeps_syncWrite | with_reducible apply keeps_ite | dsimp only

theorem keeps_syncEdge {msk : Nat} {s0 s : State} (i : Nat) (hk : Fr msk s0 s)
    (hm : Sub 8 msk := by exact Sub.mono (by assumption) rfl) :
    Fr msk s0 (State.syncEdge s i) := by
  unfold State.syncEdge
  repeat' first
    | with_reducible assumption | with_reducible apply keeps_modTime
    | (extract_lets +onlyGivenNames x; refine keeps_fun (x := x) ?_; subst x) | (exact Sub.mono hm rfl) | intro _
    | (extract_lets +onlyGivenNames x; refine keeps_have (msk := msk) (s0 := s0) (x := x) ?_ ?_; rotate_left; clear_value x; intro hx; rotate_right; subst x)
    | (extract_lets +onlyGivenNames x; clear_value x) | with_reducible apply keeps_ite | split | dsimp only

theorem keeps_execSyncOutEdge {i : Fin 4} {s s' : State}
    (e : execSyncOutEdge i s = .next s') : Fr 8 s s' := by
  unfold execSyncOutEdge at e
  refine keeps_next e ?_
  clear e
  have hk := Fr.refl 8 s
  have hm : Sub 8 8 := Sub.refl _
  repeat' first
    | with_reducible assumption | (exact Sub.mono hm rfl) | intro _ | with_reducible apply keeps_syncEdge | dsimp only

end Sys2Proof.Machine
end

