-- ==== Sys2Proof/Laws/KeepsHive.lean ====
section
/-! SUPPORT. Laws/KeepsHive.lean: every operation of the model keeps what `Keeps` (Safety.lean) says; here the combine engine, Kepalink lanes and ports, the hive.
Each lemma follows the body of its operation: a let, a branch, a fold, a record update, or the law of the operation it calls. -/

set_option linter.all false

namespace Sys2Proof.Machine

set_option Elab.async false

/-! ### Combine -/

theorem keeps_modCe {msk : Nat} {s0 s : State} (f : CeSt → CeSt) (hk : Fr msk s0 s)
    (hm : Sub 2097152 msk := by exact Sub.mono (by assumption) rfl) :
    Fr msk s0 (State.modCe s f) := by
  unfold State.modCe
  repeat' first
    | with_reducible assumption | (exact Sub.mono hm rfl) | intro _
    | (extract_lets +onlyGivenNames x; refine keeps_have (msk := msk) (s0 := s0) (x := x) ?_ ?_; rotate_left; clear_value x; intro hx; rotate_right; subst x)
    | (extract_lets +onlyGivenNames x; clear_value x) | dsimp only | with_reducible apply keeps_ce

theorem keeps_modPair {msk : Nat} {s0 s : State} (k : Nat) (f : CePair → CePair) (hk : Fr msk s0 s)
    (hm : Sub 2097152 msk := by exact Sub.mono (by assumption) rfl) :
    Fr msk s0 (State.modPair s k f) := by
  unfold State.modPair
  repeat' first
    | with_reducible assumption | (exact Sub.mono hm rfl) | intro _
    | (extract_lets +onlyGivenNames x; refine keeps_have (msk := msk) (s0 := s0) (x := x) ?_ ?_; rotate_left; clear_value x; intro hx; rotate_right; subst x)
    | (extract_lets +onlyGivenNames x; clear_value x) | with_reducible apply keeps_modCe | dsimp only

theorem keeps_modBeam {msk : Nat} {s0 s : State} (b : Nat) (f : CeBeam → CeBeam) (hk : Fr msk s0 s)
    (hm : Sub 2097152 msk := by exact Sub.mono (by assumption) rfl) :
    Fr msk s0 (State.modBeam s b f) := by
  unfold State.modBeam
  repeat' first
    | with_reducible assumption | (exact Sub.mono hm rfl) | intro _
    | (extract_lets +onlyGivenNames x; refine keeps_have (msk := msk) (s0 := s0) (x := x) ?_ ?_; rotate_left; clear_value x; intro hx; rotate_right; subst x)
    | (extract_lets +onlyGivenNames x; clear_value x) | with_reducible apply keeps_modCe | dsimp only

theorem keeps_dumpOut {msk : Nat} {s0 s : State} (k : Nat) (hk : Fr msk s0 s)
    (hm : Sub 270532612 msk := by exact Sub.mono (by assumption) rfl) :
    Fr msk s0 (State.dumpOut s k) := by
  unfold State.dumpOut
  repeat' first
    | with_reducible assumption | (exact Sub.mono hm rfl) | intro _
    | (extract_lets +onlyGivenNames x; refine keeps_have (msk := msk) (s0 := s0) (x := x) ?_ ?_; rotate_left; clear_value x; intro hx; rotate_right; subst x)
    | (extract_lets +onlyGivenNames x; refine keeps_have_fst (msk := msk) (s0 := s0) (x := x) ?_ ?_; rotate_left; clear_value x; intro hx; rotate_right; subst x)
    | (extract_lets +onlyGivenNames x; clear_value x) | with_reducible apply keeps_each | with_reducible apply keeps_gap
    | with_reducible apply keeps_modPair | with_reducible apply keeps_sendFrame | with_reducible apply keeps_ite
    | with_reducible apply keeps_ite_fst | (simp only [stOf_mk]) | with_reducible apply keeps_fst | dsimp only

theorem keeps_pairTo {msk : Nat} {s0 s : State} (k : Nat) (d : Nat) (hk : Fr msk s0 s)
    (hm : Sub 270532612 msk := by exact Sub.mono (by assumption) rfl) :
    Fr msk s0 (State.pairTo s k d) := by
  unfold State.pairTo
  repeat' first
    | with_reducible assumption | (exact Sub.mono hm rfl) | intro _
    | (extract_lets +onlyGivenNames x; refine keeps_have (msk := msk) (s0 := s0) (x := x) ?_ ?_; rotate_left; clear_value x; intro hx; rotate_right; subst x)
    | (extract_lets +onlyGivenNames x; clear_value x) | with_reducible apply keeps_dumpOut | with_reducible apply keeps_gap
    | with_reducible apply keeps_modPair | with_reducible apply keeps_ite | split | dsimp only

theorem keeps_countDumps {msk : Nat} {s0 s : State} (f : State → State) (h_f : ∀ t , Fr msk s0 t → Fr msk s0 (f t )) (hk : Fr msk s0 s)
    (hm : Sub 1 msk := by exact Sub.mono (by assumption) rfl) :
    Fr msk s0 (State.countDumps s f) := by
  unfold State.countDumps
  repeat' first
    | with_reducible assumption | (exact Sub.mono hm rfl) | intro _
    | (extract_lets +onlyGivenNames x; refine keeps_have (msk := msk) (s0 := s0) (x := x) ?_ ?_; rotate_left; clear_value x; intro hx; rotate_right; subst x)
    | (extract_lets +onlyGivenNames x; clear_value x) | with_reducible apply keeps_count | with_reducible apply h_f
    | dsimp only

theorem keeps_pairAdd {msk : Nat} {s0 s : State} (k : Nat) (a : CeSpec) (b : CeSpec) (hk : Fr msk s0 s)
    (hm : Sub 270532613 msk := by exact Sub.mono (by assumption) rfl) :
    Fr msk s0 (State.pairAdd s k a b) := by
  unfold State.pairAdd
  repeat' first
    | with_reducible assumption | (exact Sub.mono hm rfl) | intro _
    | (extract_lets +onlyGivenNames x; refine keeps_have (msk := msk) (s0 := s0) (x := x) ?_ ?_; rotate_left; clear_value x; intro hx; rotate_right; subst x)
    | (extract_lets +onlyGivenNames x; refine keeps_have_fst (msk := msk) (s0 := s0) (x := x) ?_ ?_; rotate_left; clear_value x; intro hx; rotate_right; subst x)
    | (extract_lets +onlyGivenNames x; clear_value x) | with_reducible apply keeps_count | with_reducible apply keeps_modPair
    | with_reducible apply keeps_pairTo | with_reducible apply keeps_put | with_reducible apply keeps_ite
    | with_reducible apply keeps_ite_fst | (simp only [stOf_mk]) | split | with_reducible apply keeps_fst | dsimp only

theorem keeps_xsTime {msk : Nat} {s0 s : State} (g : CeTime) (hk : Fr msk s0 s)
    (hm : Sub 270532613 msk := by exact Sub.mono (by assumption) rfl) :
    Fr msk s0 (State.xsTime s g) := by
  unfold State.xsTime
  repeat' first
    | with_reducible assumption | with_reducible apply keeps_count | with_reducible apply keeps_countDumps
    | with_reducible apply keeps_each | with_reducible apply keeps_modCe | with_reducible apply keeps_modPair
    | with_reducible apply keeps_pairAdd | (extract_lets +onlyGivenNames x; refine keeps_fun (x := x) ?_; subst x)
    | (exact Sub.mono hm rfl) | intro _
    | (extract_lets +onlyGivenNames x; refine keeps_have (msk := msk) (s0 := s0) (x := x) ?_ ?_; rotate_left; clear_value x; intro hx; rotate_right; subst x)
    | (extract_lets +onlyGivenNames x; clear_value x) | with_reducible apply keeps_ite | split | dsimp only

theorem keeps_xsFinish {msk : Nat} {s0 s : State} (f : CeTime → Bool) (hk : Fr msk s0 s)
    (hm : Sub 270532613 msk := by exact Sub.mono (by assumption) rfl) :
    Fr msk s0 (State.xsFinish s f) := by
  unfold State.xsFinish
  repeat' first
    | with_reducible assumption | (exact Sub.mono hm rfl) | intro _
    | (extract_lets +onlyGivenNames x; refine keeps_have (msk := msk) (s0 := s0) (x := x) ?_ ?_; rotate_left; clear_value x; intro hx; rotate_right; subst x)
    | (extract_lets +onlyGivenNames x; clear_value x) | with_reducible apply keeps_each | with_reducible apply keeps_modCe
    | with_reducible apply keeps_xsTime | dsimp only

theorem keeps_xsArrive {msk : Nat} {s0 s : State} (p : CeSpec) (hk : Fr msk s0 s)
    (hm : Sub 270532613 msk := by exact Sub.mono (by assumption) rfl) :
    Fr msk s0 (State.xsArrive s p) := by
  unfold State.xsArrive
  repeat' first
    | with_reducible assumption | (exact Sub.mono hm rfl) | intro _
    | (extract_lets +onlyGivenNames x; refine keeps_have (msk := msk) (s0 := s0) (x := x) ?_ ?_; rotate_left; clear_value x; intro hx; rotate_right; subst x)
    | (extract_lets +onlyGivenNames x; clear_value x) | with_reducible apply keeps_count | with_reducible apply keeps_modCe
    | with_reducible apply keeps_put | with_reducible apply keeps_xsFinish | with_reducible apply keeps_ite | split
    | dsimp only

theorem keeps_alignTimeout {msk : Nat} {s0 s : State}  (hk : Fr msk s0 s)
    (hm : Sub 270532613 msk := by exact Sub.mono (by assumption) rfl) :
    Fr msk s0 (State.alignTimeout s) := by
  unfold State.alignTimeout
  repeat' first
    | with_reducible assumption | (exact Sub.mono hm rfl) | intro _ | with_reducible apply keeps_xsFinish
    | with_reducible apply keeps_ite | dsimp only

theorem keeps_execCeAlignTimeout  {s s' : State}
    (e : execCeAlignTimeout  s = .next s') : Fr 270532613 s s' := by
  unfold execCeAlignTimeout at e
  refine keeps_next e ?_
  clear e
  have hk := Fr.refl 270532613 s
  have hm : Sub 270532613 270532613 := Sub.refl _
  repeat' first
    | with_reducible assumption | (exact Sub.mono hm rfl) | intro _ | with_reducible apply keeps_alignTimeout
    | with_reducible apply keeps_inIsland | dsimp only

theorem keeps_dumpTimeout {msk : Nat} {s0 s : State}  (hk : Fr msk s0 s)
    (hm : Sub 270532613 msk := by exact Sub.mono (by assumption) rfl) :
    Fr msk s0 (State.dumpTimeout s) := by
  unfold State.dumpTimeout
  repeat' first
    | with_reducible assumption | (exact Sub.mono hm rfl) | intro _
    | (extract_lets +onlyGivenNames x; refine keeps_have (msk := msk) (s0 := s0) (x := x) ?_ ?_; rotate_left; clear_value x; intro hx; rotate_right; subst x)
    | (extract_lets +onlyGivenNames x; clear_value x) | with_reducible apply keeps_countDumps
    | with_reducible apply keeps_each | with_reducible apply keeps_pairTo | with_reducible apply keeps_xsFinish
    | with_reducible apply keeps_ite | dsimp only

theorem keeps_execCeDumpTimeout  {s s' : State}
    (e : execCeDumpTimeout  s = .next s') : Fr 270532613 s s' := by
  unfold execCeDumpTimeout at e
  refine keeps_next e ?_
  clear e
  have hk := Fr.refl 270532613 s
  have hm : Sub 270532613 270532613 := Sub.refl _
  repeat' first
    | with_reducible assumption | (exact Sub.mono hm rfl) | intro _ | with_reducible apply keeps_dumpTimeout
    | with_reducible apply keeps_inIsland | dsimp only

theorem keeps_wtExchange {msk : Nat} {s0 s : State} (b : Nat) (hk : Fr msk s0 s)
    (hm : Sub 2097152 msk := by exact Sub.mono (by assumption) rfl) :
    Fr msk s0 (State.wtExchange s b) := by
  unfold State.wtExchange
  repeat' first
    | with_reducible assumption | with_reducible apply keeps_modCe
    | (extract_lets +onlyGivenNames x; refine keeps_fun (x := x) ?_; subst x) | (exact Sub.mono hm rfl) | intro _
    | (extract_lets +onlyGivenNames x; refine keeps_have (msk := msk) (s0 := s0) (x := x) ?_ ?_; rotate_left; clear_value x; intro hx; rotate_right; subst x)
    | (extract_lets +onlyGivenNames x; refine keeps_have_fst (msk := msk) (s0 := s0) (x := x) ?_ ?_; rotate_left; clear_value x; intro hx; rotate_right; subst x)
    | (extract_lets +onlyGivenNames x; clear_value x) | (simp only [stOf_mk]) | with_reducible apply keeps_fst | dsimp only

theorem keeps_beamSwap {msk : Nat} {s0 s : State} (b : Nat) (t : DevTime) (steps : Nat) (ns : Nat) (hk : Fr msk s0 s)
    (hm : Sub 2097153 msk := by exact Sub.mono (by assumption) rfl) :
    Fr msk s0 (State.beamSwap s b t steps ns) := by
  unfold State.beamSwap
  repeat' first
    | with_reducible assumption | (exact Sub.mono hm rfl) | intro _
    | (extract_lets +onlyGivenNames x; refine keeps_have (msk := msk) (s0 := s0) (x := x) ?_ ?_; rotate_left; clear_value x; intro hx; rotate_right; subst x)
    | (extract_lets +onlyGivenNames x; clear_value x) | with_reducible apply keeps_modBeam | with_reducible apply keeps_put
    | with_reducible apply keeps_putTime | with_reducible apply keeps_wtExchange | with_reducible apply keeps_ite | split
    | dsimp only

theorem keeps_beamActs {msk : Nat} {s0 s : State} (b : Nat) (t : DevTime) (hk : Fr msk s0 s)
    (hm : Sub 2097153 msk := by exact Sub.mono (by assumption) rfl) :
    Fr msk s0 (State.beamActs s b t) := by
  unfold State.beamActs
  repeat' first
    | with_reducible assumption | (exact Sub.mono hm rfl) | intro _
    | (extract_lets +onlyGivenNames x; refine keeps_have (msk := msk) (s0 := s0) (x := x) ?_ ?_; rotate_left; clear_value x; intro hx; rotate_right; subst x)
    | (extract_lets +onlyGivenNames x; clear_value x) | with_reducible apply keeps_beamSwap | with_reducible apply keeps_each
    | with_reducible apply keeps_modBeam | with_reducible apply keeps_put | with_reducible apply keeps_ite | split
    | dsimp only

theorem keeps_beamStep {msk : Nat} {s0 s : State} (b : Nat) (t : DevTime) (hk : Fr msk s0 s)
    (hm : Sub 2097153 msk := by exact Sub.mono (by assumption) rfl) :
    Fr msk s0 (State.beamStep s b t) := by
  unfold State.beamStep
  repeat' first
    | with_reducible assumption | (exact Sub.mono hm rfl) | intro _
    | (extract_lets +onlyGivenNames x; refine keeps_have (msk := msk) (s0 := s0) (x := x) ?_ ?_; rotate_left; clear_value x; intro hx; rotate_right; subst x)
    | (extract_lets +onlyGivenNames x; clear_value x) | with_reducible apply keeps_modBeam | with_reducible apply keeps_put
    | with_reducible apply keeps_wtExchange | with_reducible apply keeps_ite | split | dsimp only

theorem keeps_execMarkerCalRampBeam {b : Fin 32} {s s' : State}
    (e : execMarkerCalRampBeam b s = .next s') : Fr 2097153 s s' := by
  unfold execMarkerCalRampBeam at e
  refine keeps_next e ?_
  clear e
  have hk := Fr.refl 2097153 s
  have hm : Sub 2097153 2097153 := Sub.refl _
  repeat' first
    | with_reducible assumption | (exact Sub.mono hm rfl) | intro _
    | (extract_lets +onlyGivenNames x; refine keeps_have (msk := 2097153) (s0 := s) (x := x) ?_ ?_; rotate_left; clear_value x; intro hx; rotate_right; subst x)
    | (extract_lets +onlyGivenNames x; clear_value x) | with_reducible apply keeps_beamActs
    | with_reducible apply keeps_inIsland | split | dsimp only

theorem keeps_execCeBmRampStep {b : Fin 32} {s s' : State}
    (e : execCeBmRampStep b s = .next s') : Fr 2097153 s s' := by
  unfold execCeBmRampStep at e
  refine keeps_next e ?_
  clear e
  have hk := Fr.refl 2097153 s
  have hm : Sub 2097153 2097153 := Sub.refl _
  repeat' first
    | with_reducible assumption | (exact Sub.mono hm rfl) | intro _
    | (extract_lets +onlyGivenNames x; refine keeps_have (msk := 2097153) (s0 := s) (x := x) ?_ ?_; rotate_left; clear_value x; intro hx; rotate_right; subst x)
    | (extract_lets +onlyGivenNames x; clear_value x) | with_reducible apply keeps_beamStep
    | with_reducible apply keeps_inIsland | split | dsimp only

theorem keeps_toHive {msk : Nat} {s0 s : State} (inst : Nat) (r : YRec) (hk : Fr msk s0 s)
    (hm : Sub 268435460 msk := by exact Sub.mono (by assumption) rfl) :
    Fr msk s0 (State.toHive s inst r) := by
  unfold State.toHive
  repeat' first
    | with_reducible assumption | (exact Sub.mono hm rfl) | intro _
    | (extract_lets +onlyGivenNames x; refine keeps_have (msk := msk) (s0 := s0) (x := x) ?_ ?_; rotate_left; clear_value x; intro hx; rotate_right; subst x)
    | (extract_lets +onlyGivenNames x; clear_value x) | with_reducible apply keeps_sendRecord | dsimp only
    | with_reducible apply keeps_flow

theorem keeps_beamGap {msk : Nat} {s0 s : State} (b : Nat) (t : DevTime) (hk : Fr msk s0 s)
    (hm : Sub 268435460 msk := by exact Sub.mono (by assumption) rfl) :
    Fr msk s0 (State.beamGap s b t) := by
  unfold State.beamGap
  repeat' first
    | with_reducible assumption | (exact Sub.mono hm rfl) | intro _
    | (extract_lets +onlyGivenNames x; refine keeps_have (msk := msk) (s0 := s0) (x := x) ?_ ?_; rotate_left; clear_value x; intro hx; rotate_right; subst x)
    | (extract_lets +onlyGivenNames x; clear_value x) | with_reducible apply keeps_gap | with_reducible apply keeps_toHive
    | with_reducible apply keeps_ite | split | dsimp only

theorem keeps_slotOut {msk : Nat} {s0 s : State} (b : Nat) (x : CeSlot) (hk : Fr msk s0 s)
    (hm : Sub 270532613 msk := by exact Sub.mono (by assumption) rfl) :
    Fr msk s0 (State.slotOut s b x) := by
  unfold State.slotOut
  repeat' first
    | with_reducible assumption | (exact Sub.mono hm rfl) | intro _
    | (extract_lets +onlyGivenNames x; refine keeps_have (msk := msk) (s0 := s0) (x := x) ?_ ?_; rotate_left; clear_value x; intro hx; rotate_right; subst x)
    | (extract_lets +onlyGivenNames x; refine keeps_have_fst (msk := msk) (s0 := s0) (x := x) ?_ ?_; rotate_left; clear_value x; intro hx; rotate_right; subst x)
    | (extract_lets +onlyGivenNames x; clear_value x) | with_reducible apply keeps_beamGap | with_reducible apply keeps_count
    | with_reducible apply keeps_modBeam | with_reducible apply keeps_sendFrame | with_reducible apply keeps_toHive
    | with_reducible apply keeps_foldl | with_reducible apply keeps_foldl_fst | with_reducible apply keeps_ite
    | with_reducible apply keeps_ite_fst | (simp only [stOf_mk]) | split | with_reducible apply keeps_fst | dsimp only

theorem keeps_slotsFinish {msk : Nat} {s0 s : State} (b : Nat) (f : CeSlot → Bool) (hk : Fr msk s0 s)
    (hm : Sub 270532613 msk := by exact Sub.mono (by assumption) rfl) :
    Fr msk s0 (State.slotsFinish s b f) := by
  unfold State.slotsFinish
  repeat' first
    | with_reducible assumption | (exact Sub.mono hm rfl) | intro _
    | (extract_lets +onlyGivenNames x; refine keeps_have (msk := msk) (s0 := s0) (x := x) ?_ ?_; rotate_left; clear_value x; intro hx; rotate_right; subst x)
    | (extract_lets +onlyGivenNames x; clear_value x) | with_reducible apply keeps_each | with_reducible apply keeps_modBeam
    | with_reducible apply keeps_slotOut | dsimp only

theorem keeps_modSlot {msk : Nat} {s0 s : State} (b : Nat) (t : DevTime) (sl : Nat) (j : Int) (f : CeSlot → CeSlot) (hk : Fr msk s0 s)
    (hm : Sub 2097152 msk := by exact Sub.mono (by assumption) rfl) :
    Fr msk s0 (State.modSlot s b t sl j f) := by
  unfold State.modSlot
  repeat' first
    | with_reducible assumption | (exact Sub.mono hm rfl) | intro _
    | (extract_lets +onlyGivenNames x; refine keeps_have (msk := msk) (s0 := s0) (x := x) ?_ ?_; rotate_left; clear_value x; intro hx; rotate_right; subst x)
    | (extract_lets +onlyGivenNames x; clear_value x) | with_reducible apply keeps_modBeam | with_reducible apply keeps_ite
    | dsimp only

theorem keeps_beamOwn {msk : Nat} {s0 s : State} (b : Nat) (g : CeTime) (hk : Fr msk s0 s)
    (hm : Sub 2097153 msk := by exact Sub.mono (by assumption) rfl) :
    Fr msk s0 (State.beamOwn s b g) := by
  unfold State.beamOwn
  repeat' first
    | with_reducible assumption | (exact Sub.mono hm rfl) | intro _
    | (extract_lets +onlyGivenNames x; refine keeps_have (msk := msk) (s0 := s0) (x := x) ?_ ?_; rotate_left; clear_value x; intro hx; rotate_right; subst x)
    | (extract_lets +onlyGivenNames x; clear_value x) | with_reducible apply keeps_beamActs
    | with_reducible apply keeps_beamStep | with_reducible apply keeps_each | with_reducible apply keeps_modSlot
    | with_reducible apply keeps_ite | split | dsimp only

theorem keeps_slotsSettle {msk : Nat} {s0 s : State} (b : Nat) (hk : Fr msk s0 s)
    (hm : Sub 2097152 msk := by exact Sub.mono (by assumption) rfl) :
    Fr msk s0 (State.slotsSettle s b) := by
  unfold State.slotsSettle
  repeat' first
    | with_reducible assumption | with_reducible apply keeps_modBeam
    | (extract_lets +onlyGivenNames x; refine keeps_fun (x := x) ?_; subst x) | (exact Sub.mono hm rfl) | intro _
    | (extract_lets +onlyGivenNames x; refine keeps_have (msk := msk) (s0 := s0) (x := x) ?_ ?_; rotate_left; clear_value x; intro hx; rotate_right; subst x)
    | (extract_lets +onlyGivenNames x; clear_value x) | with_reducible apply keeps_ite | dsimp only

theorem keeps_beamSettle {msk : Nat} {s0 s : State} (b : Nat) (hk : Fr msk s0 s)
    (hm : Sub 270532613 msk := by exact Sub.mono (by assumption) rfl) :
    Fr msk s0 (State.beamSettle s b) := by
  unfold State.beamSettle
  repeat' first
    | with_reducible assumption | with_reducible apply keeps_beamOwn | with_reducible apply keeps_each
    | with_reducible apply keeps_modBeam | with_reducible apply keeps_slotsFinish | with_reducible apply keeps_slotsSettle
    | (extract_lets +onlyGivenNames x; refine keeps_fun (x := x) ?_; subst x) | (exact Sub.mono hm rfl) | intro _
    | (extract_lets +onlyGivenNames x; refine keeps_have (msk := msk) (s0 := s0) (x := x) ?_ ?_; rotate_left; clear_value x; intro hx; rotate_right; subst x)
    | (extract_lets +onlyGivenNames x; clear_value x) | split | dsimp only

theorem keeps_beamArrive {msk : Nat} {s0 s : State} (b : Nat) (p : CeSpec) (hk : Fr msk s0 s)
    (hm : Sub 270532613 msk := by exact Sub.mono (by assumption) rfl) :
    Fr msk s0 (State.beamArrive s b p) := by
  unfold State.beamArrive
  repeat' first
    | with_reducible assumption | (exact Sub.mono hm rfl) | intro _
    | (extract_lets +onlyGivenNames x; refine keeps_have (msk := msk) (s0 := s0) (x := x) ?_ ?_; rotate_left; clear_value x; intro hx; rotate_right; subst x)
    | (extract_lets +onlyGivenNames x; clear_value x) | with_reducible apply keeps_beamSettle
    | with_reducible apply keeps_modBeam | with_reducible apply keeps_ite | split | dsimp only

theorem keeps_ceGap {msk : Nat} {s0 s : State} (x : Nat) (c : Nat) (hk : Fr msk s0 s)
    (hm : Sub 270532612 msk := by exact Sub.mono (by assumption) rfl) :
    Fr msk s0 (State.ceGap s x c) := by
  unfold State.ceGap
  repeat' first
    | with_reducible assumption | with_reducible apply keeps_gap | with_reducible apply keeps_modCe
    | (extract_lets +onlyGivenNames x; refine keeps_fun (x := x) ?_; subst x) | (exact Sub.mono hm rfl) | intro _
    | (extract_lets +onlyGivenNames x; refine keeps_have (msk := msk) (s0 := s0) (x := x) ?_ ?_; rotate_left; clear_value x; intro hx; rotate_right; subst x)
    | (extract_lets +onlyGivenNames x; refine keeps_have_fst (msk := msk) (s0 := s0) (x := x) ?_ ?_; rotate_left; clear_value x; intro hx; rotate_right; subst x)
    | (extract_lets +onlyGivenNames x; clear_value x) | with_reducible apply keeps_ite | with_reducible apply keeps_ite_fst
    | (simp only [stOf_mk]) | split | with_reducible apply keeps_fst | dsimp only

theorem keeps_ceSpec {msk : Nat} {s0 s : State} (p : CeSpec) (hk : Fr msk s0 s)
    (hm : Sub 271056901 msk := by exact Sub.mono (by assumption) rfl) :
    Fr msk s0 (State.ceSpec s p) := by
  unfold State.ceSpec
  repeat' first
    | with_reducible assumption | (exact Sub.mono hm rfl) | intro _
    | (extract_lets +onlyGivenNames x; refine keeps_have (msk := msk) (s0 := s0) (x := x) ?_ ?_; rotate_left; clear_value x; intro hx; rotate_right; subst x)
    | (extract_lets +onlyGivenNames x; clear_value x) | with_reducible apply keeps_beamArrive
    | with_reducible apply keeps_cbInsert | with_reducible apply keeps_each | with_reducible apply keeps_modCe
    | with_reducible apply keeps_xsArrive | with_reducible apply keeps_ite | dsimp only

theorem keeps_rinRecord {msk : Nat} {s0 s : State} (x : Nat) (r : YRec) (hk : Fr msk s0 s)
    (hm : Sub 271056901 msk := by exact Sub.mono (by assumption) rfl) :
    Fr msk s0 (State.rinRecord s x r) := by
  unfold State.rinRecord
  repeat' first
    | with_reducible assumption | with_reducible apply keeps_ceGap | with_reducible apply keeps_ceSpec
    | with_reducible apply keeps_count | with_reducible apply keeps_modCe
    | (extract_lets +onlyGivenNames x; refine keeps_fun (x := x) ?_; subst x) | (exact Sub.mono hm rfl) | intro _
    | (extract_lets +onlyGivenNames x; refine keeps_have (msk := msk) (s0 := s0) (x := x) ?_ ?_; rotate_left; clear_value x; intro hx; rotate_right; subst x)
    | (extract_lets +onlyGivenNames x; refine keeps_have_fst (msk := msk) (s0 := s0) (x := x) ?_ ?_; rotate_left; clear_value x; intro hx; rotate_right; subst x)
    | (extract_lets +onlyGivenNames x; clear_value x) | with_reducible apply keeps_ite | with_reducible apply keeps_ite_fst
    | (simp only [stOf_mk]) | split | with_reducible apply keeps_fst | dsimp only

theorem keeps_ceToken {msk : Nat} {s0 s : State} (x : Nat) (t : CeTok) (hk : Fr msk s0 s)
    (hm : Sub 271057063 msk := by exact Sub.mono (by assumption) rfl) :
    Fr msk s0 (State.ceToken s x t) := by
  unfold State.ceToken
  repeat' first
    | with_reducible assumption | (exact Sub.mono hm rfl) | intro _
    | (extract_lets +onlyGivenNames x; refine keeps_have (msk := msk) (s0 := s0) (x := x) ?_ ?_; rotate_left; clear_value x; intro hx; rotate_right; subst x)
    | (extract_lets +onlyGivenNames x; clear_value x) | with_reducible apply keeps_adoptEpoch
    | with_reducible apply keeps_ceGap | with_reducible apply keeps_ceSpec | with_reducible apply keeps_each
    | with_reducible apply keeps_fence | with_reducible apply keeps_gap | with_reducible apply keeps_rinRecord
    | with_reducible apply keeps_ite | split | (with_reducible apply keeps_id) | dsimp only

theorem keeps_ceArrive {msk : Nat} {s0 s : State} (x : Nat) (r : Option YRec) (hk : Fr msk s0 s)
    (hm : Sub 271057063 msk := by exact Sub.mono (by assumption) rfl) :
    Fr msk s0 (State.ceArrive s x r) := by
  unfold State.ceArrive
  repeat' first
    | with_reducible assumption | (exact Sub.mono hm rfl) | intro _
    | (extract_lets +onlyGivenNames x; refine keeps_have (msk := msk) (s0 := s0) (x := x) ?_ ?_; rotate_left; clear_value x; intro hx; rotate_right; subst x)
    | (extract_lets +onlyGivenNames x; clear_value x) | with_reducible apply keeps_ceToken | with_reducible apply keeps_each
    | with_reducible apply keeps_inIsland | with_reducible apply keeps_modCe | with_reducible apply keeps_toCb
    | with_reducible apply keeps_ite | split | dsimp only

theorem keeps_execCeSpectrumArrive {x : Fin 32} {r : Option YRec} {s s' : State}
    (e : execCeSpectrumArrive x r s = .next s') : Fr 271057063 s s' := by
  unfold execCeSpectrumArrive at e
  refine keeps_next e ?_
  clear e
  have hk := Fr.refl 271057063 s
  have hm : Sub 271057063 271057063 := Sub.refl _
  repeat' first
    | with_reducible assumption | (exact Sub.mono hm rfl) | intro _ | with_reducible apply keeps_ceArrive | dsimp only

theorem keeps_childGap {msk : Nat} {s0 s : State} (b : Nat) (k : Nat) (r : YRec) (hk : Fr msk s0 s)
    (hm : Sub 270532613 msk := by exact Sub.mono (by assumption) rfl) :
    Fr msk s0 (State.childGap s b k r) := by
  unfold State.childGap
  repeat' first
    | with_reducible assumption | with_reducible apply keeps_modBeam | with_reducible apply keeps_slotsFinish
    | (extract_lets +onlyGivenNames x; refine keeps_fun (x := x) ?_; subst x) | (exact Sub.mono hm rfl) | intro _
    | (extract_lets +onlyGivenNames x; refine keeps_have (msk := msk) (s0 := s0) (x := x) ?_ ?_; rotate_left; clear_value x; intro hx; rotate_right; subst x)
    | (extract_lets +onlyGivenNames x; clear_value x) | with_reducible apply keeps_ite | dsimp only

theorem keeps_childRecord {msk : Nat} {s0 s : State} (b : Nat) (r : YRec) (hk : Fr msk s0 s)
    (hm : Sub 270532775 msk := by exact Sub.mono (by assumption) rfl) :
    Fr msk s0 (State.childRecord s b r) := by
  unfold State.childRecord
  repeat' first
    | with_reducible assumption | (exact Sub.mono hm rfl) | intro _
    | (extract_lets +onlyGivenNames x; refine keeps_have (msk := msk) (s0 := s0) (x := x) ?_ ?_; rotate_left; clear_value x; intro hx; rotate_right; subst x)
    | (extract_lets +onlyGivenNames x; clear_value x) | with_reducible apply keeps_childGap
    | with_reducible apply keeps_count | with_reducible apply keeps_modSlot | with_reducible apply keeps_raiseAlarm
    | with_reducible apply keeps_slotsFinish | with_reducible apply keeps_slotsSettle | with_reducible apply keeps_ite
    | split | dsimp only

theorem keeps_childArrive {msk : Nat} {s0 s : State} (b : Nat) (r : YRec) (hk : Fr msk s0 s)
    (hm : Sub 270532775 msk := by exact Sub.mono (by assumption) rfl) :
    Fr msk s0 (State.childArrive s b r) := by
  unfold State.childArrive
  repeat' first
    | with_reducible assumption | (exact Sub.mono hm rfl) | intro _
    | (extract_lets +onlyGivenNames x; refine keeps_have (msk := msk) (s0 := s0) (x := x) ?_ ?_; rotate_left; clear_value x; intro hx; rotate_right; subst x)
    | (extract_lets +onlyGivenNames x; clear_value x) | with_reducible apply keeps_childRecord
    | with_reducible apply keeps_each | with_reducible apply keeps_modCe | with_reducible apply keeps_ite | dsimp only

theorem keeps_execCeChildRecord {b : Fin 32} {r : YRec} {s s' : State}
    (e : execCeChildRecord b r s = .next s') : Fr 270532775 s s' := by
  unfold execCeChildRecord at e
  refine keeps_next e ?_
  clear e
  have hk := Fr.refl 270532775 s
  have hm : Sub 270532775 270532775 := Sub.refl _
  repeat' first
    | with_reducible assumption | (exact Sub.mono hm rfl) | intro _ | with_reducible apply keeps_childArrive | dsimp only

theorem keeps_execCeSlotDeadline {b : Fin 32} {s s' : State}
    (e : execCeSlotDeadline b s = .next s') : Fr 270532613 s s' := by
  unfold execCeSlotDeadline at e
  refine keeps_next e ?_
  clear e
  have hk := Fr.refl 270532613 s
  have hm : Sub 270532613 270532613 := Sub.refl _
  repeat' first
    | with_reducible assumption | (exact Sub.mono hm rfl) | intro _ | with_reducible apply keeps_inIsland
    | with_reducible apply keeps_slotsFinish | dsimp only

theorem keeps_xsStart {msk : Nat} {s0 s : State}  (hk : Fr msk s0 s)
    (hm : Sub 2097157 msk := by exact Sub.mono (by assumption) rfl) :
    Fr msk s0 (State.xsStart s) := by
  unfold State.xsStart
  repeat' first
    | with_reducible assumption | (exact Sub.mono hm rfl) | intro _
    | (extract_lets +onlyGivenNames x; refine keeps_have (msk := msk) (s0 := s0) (x := x) ?_ ?_; rotate_left; clear_value x; intro hx; rotate_right; subst x)
    | (extract_lets +onlyGivenNames x; clear_value x) | with_reducible apply keeps_each | with_reducible apply keeps_modCe
    | with_reducible apply keeps_modPair | with_reducible apply keeps_openStream | with_reducible apply keeps_put
    | with_reducible apply keeps_tieAllD | dsimp only

theorem keeps_xsStop {msk : Nat} {s0 s : State}  (hk : Fr msk s0 s)
    (hm : Sub 2097157 msk := by exact Sub.mono (by assumption) rfl) :
    Fr msk s0 (State.xsStop s) := by
  unfold State.xsStop
  repeat' first
    | with_reducible assumption | (exact Sub.mono hm rfl) | intro _
    | (extract_lets +onlyGivenNames x; refine keeps_have (msk := msk) (s0 := s0) (x := x) ?_ ?_; rotate_left; clear_value x; intro hx; rotate_right; subst x)
    | (extract_lets +onlyGivenNames x; refine keeps_have_fst (msk := msk) (s0 := s0) (x := x) ?_ ?_; rotate_left; clear_value x; intro hx; rotate_right; subst x)
    | (extract_lets +onlyGivenNames x; clear_value x) | with_reducible apply keeps_closeStream
    | with_reducible apply keeps_each | with_reducible apply keeps_freePort | with_reducible apply keeps_modCe
    | with_reducible apply keeps_put | (simp only [stOf_mk]) | with_reducible apply keeps_fst | dsimp only

theorem keeps_xsCtlWrite {msk : Nat} {s0 s : State} (v : Nat) (hk : Fr msk s0 s)
    (hm : Sub 2097157 msk := by exact Sub.mono (by assumption) rfl) :
    Fr msk s0 (stOf (State.xsCtlWrite s v)) := by
  unfold State.xsCtlWrite
  repeat' first
    | with_reducible assumption | (exact Sub.mono hm rfl) | intro _ | with_reducible apply keeps_enableWrite
    | with_reducible apply keeps_xsStart | with_reducible apply keeps_xsStop | (simp only [stOf_mk])
    | with_reducible apply keeps_fst | dsimp only

theorem keeps_execCeXsEnable {p : Fin 5} {v : Word} {s s' : State}
    (e : execCeXsEnable p v s = .next s') : Fr 2097157 s s' := by
  unfold execCeXsEnable at e
  refine keeps_next e ?_
  clear e
  have hk := Fr.refl 2097157 s
  have hm : Sub 2097157 2097157 := Sub.refl _
  repeat' first
    | with_reducible assumption | (exact Sub.mono hm rfl) | intro _ | with_reducible apply keeps_gatedWrite
    | with_reducible apply keeps_xsCtlWrite | dsimp only

theorem keeps_xsSetWrite {msk : Nat} {s0 s : State} (range : Bool) (a : Nat) (v : Nat) (hk : Fr msk s0 s)
    (hm : Sub 1 msk := by exact Sub.mono (by assumption) rfl) :
    Fr msk s0 (stOf (State.xsSetWrite s range a v)) := by
  unfold State.xsSetWrite
  repeat' first
    | with_reducible assumption | (exact Sub.mono hm rfl) | intro _
    | (extract_lets +onlyGivenNames x; refine keeps_have (msk := msk) (s0 := s0) (x := x) ?_ ?_; rotate_left; clear_value x; intro hx; rotate_right; subst x)
    | (extract_lets +onlyGivenNames x; refine keeps_have_fst (msk := msk) (s0 := s0) (x := x) ?_ ?_; rotate_left; clear_value x; intro hx; rotate_right; subst x)
    | (extract_lets +onlyGivenNames x; clear_value x) | with_reducible apply keeps_answer
    | with_reducible apply keeps_plainWrite | with_reducible apply keeps_put | with_reducible apply keeps_ite
    | with_reducible apply keeps_ite_fst | (simp only [stOf_mk]) | with_reducible apply keeps_fst | dsimp only

theorem keeps_rinWrite {msk : Nat} {s0 s : State} (i : Nat) (cfg : Bool) (v : Nat) (hk : Fr msk s0 s)
    (hm : Sub 1 msk := by exact Sub.mono (by assumption) rfl) :
    Fr msk s0 (stOf (State.rinWrite s i cfg v)) := by
  unfold State.rinWrite
  repeat' first
    | with_reducible assumption | (exact Sub.mono hm rfl) | intro _
    | (extract_lets +onlyGivenNames x; refine keeps_have (msk := msk) (s0 := s0) (x := x) ?_ ?_; rotate_left; clear_value x; intro hx; rotate_right; subst x)
    | (extract_lets +onlyGivenNames x; refine keeps_have_fst (msk := msk) (s0 := s0) (x := x) ?_ ?_; rotate_left; clear_value x; intro hx; rotate_right; subst x)
    | (extract_lets +onlyGivenNames x; clear_value x) | with_reducible apply keeps_answer
    | with_reducible apply keeps_plainWrite | with_reducible apply keeps_put | with_reducible apply keeps_ite
    | with_reducible apply keeps_ite_fst | (simp only [stOf_mk]) | with_reducible apply keeps_fst | dsimp only

theorem keeps_beamStart {msk : Nat} {s0 s : State} (b : Nat) (hk : Fr msk s0 s)
    (hm : Sub 2097156 msk := by exact Sub.mono (by assumption) rfl) :
    Fr msk s0 (State.beamStart s b) := by
  unfold State.beamStart
  repeat' first
    | with_reducible assumption | (exact Sub.mono hm rfl) | intro _
    | (extract_lets +onlyGivenNames x; refine keeps_have (msk := msk) (s0 := s0) (x := x) ?_ ?_; rotate_left; clear_value x; intro hx; rotate_right; subst x)
    | (extract_lets +onlyGivenNames x; clear_value x) | with_reducible apply keeps_modBeam
    | with_reducible apply keeps_openStream | with_reducible apply keeps_tiePort | with_reducible apply keeps_ite
    | dsimp only

theorem keeps_beamStop {msk : Nat} {s0 s : State} (b : Nat) (hk : Fr msk s0 s)
    (hm : Sub 2097157 msk := by exact Sub.mono (by assumption) rfl) :
    Fr msk s0 (State.beamStop s b) := by
  unfold State.beamStop
  repeat' first
    | with_reducible assumption | (exact Sub.mono hm rfl) | intro _
    | (extract_lets +onlyGivenNames x; refine keeps_have (msk := msk) (s0 := s0) (x := x) ?_ ?_; rotate_left; clear_value x; intro hx; rotate_right; subst x)
    | (extract_lets +onlyGivenNames x; clear_value x) | with_reducible apply keeps_cancelMarker
    | with_reducible apply keeps_closeStream | with_reducible apply keeps_freePort | with_reducible apply keeps_modBeam
    | with_reducible apply keeps_put | dsimp only

theorem keeps_beamSetWrite {msk : Nat} {s0 s : State} (name : RegName) (b : Nat) (a : Nat) (v : Nat) (hk : Fr msk s0 s)
    (hm : Sub 1025 msk := by exact Sub.mono (by assumption) rfl) :
    Fr msk s0 (stOf (State.beamSetWrite s name b a v)) := by
  unfold State.beamSetWrite
  repeat' first
    | with_reducible assumption | (exact Sub.mono hm rfl) | intro _
    | (extract_lets +onlyGivenNames x; refine keeps_have (msk := msk) (s0 := s0) (x := x) ?_ ?_; rotate_left; clear_value x; intro hx; rotate_right; subst x)
    | (extract_lets +onlyGivenNames x; refine keeps_have_fst (msk := msk) (s0 := s0) (x := x) ?_ ?_; rotate_left; clear_value x; intro hx; rotate_right; subst x)
    | (extract_lets +onlyGivenNames x; clear_value x) | with_reducible apply keeps_answer | with_reducible apply keeps_free
    | with_reducible apply keeps_plainWrite | with_reducible apply keeps_put | with_reducible apply keeps_ite
    | with_reducible apply keeps_ite_fst | (simp only [stOf_mk]) | split | with_reducible apply keeps_fst | dsimp only

theorem keeps_beamMkWrite {msk : Nat} {s0 s : State} (b : Nat) (v : Nat) (hk : Fr msk s0 s)
    (hm : Sub 2097157 msk := by exact Sub.mono (by assumption) rfl) :
    Fr msk s0 (stOf (State.beamMkWrite s b v)) := by
  unfold State.beamMkWrite
  repeat' first
    | with_reducible assumption | (exact Sub.mono hm rfl) | intro _
    | (extract_lets +onlyGivenNames x; refine keeps_have (msk := msk) (s0 := s0) (x := x) ?_ ?_; rotate_left; clear_value x; intro hx; rotate_right; subst x)
    | (extract_lets +onlyGivenNames x; refine keeps_have_fst (msk := msk) (s0 := s0) (x := x) ?_ ?_; rotate_left; clear_value x; intro hx; rotate_right; subst x)
    | (extract_lets +onlyGivenNames x; clear_value x) | with_reducible apply keeps_answer
    | with_reducible apply keeps_askMarker | with_reducible apply keeps_modBeam | with_reducible apply keeps_put
    | with_reducible apply keeps_ite | with_reducible apply keeps_ite_fst | (simp only [stOf_mk]) | split
    | with_reducible apply keeps_fst | dsimp only

theorem keeps_execCeBmArm {p : Fin 5} {b : Fin 32} {v : Word} {s s' : State}
    (e : execCeBmArm p b v s = .next s') : Fr 2097157 s s' := by
  unfold execCeBmArm at e
  refine keeps_next e ?_
  clear e
  have hk := Fr.refl 2097157 s
  have hm : Sub 2097157 2097157 := Sub.refl _
  repeat' first
    | with_reducible assumption | (exact Sub.mono hm rfl) | intro _ | with_reducible apply keeps_beamMkWrite
    | with_reducible apply keeps_gatedWrite | dsimp only

theorem keeps_wtAdvance {msk : Nat} {s0 s : State}  (hk : Fr msk s0 s)
    (hm : Sub 1 msk := by exact Sub.mono (by assumption) rfl) :
    Fr msk s0 (State.wtAdvance s) := by
  unfold State.wtAdvance
  repeat' first
    | with_reducible assumption | (exact Sub.mono hm rfl) | intro _
    | (extract_lets +onlyGivenNames x; refine keeps_have (msk := msk) (s0 := s0) (x := x) ?_ ?_; rotate_left; clear_value x; intro hx; rotate_right; subst x)
    | (extract_lets +onlyGivenNames x; clear_value x) | with_reducible apply keeps_put | dsimp only

theorem keeps_wtDataWrite {msk : Nat} {s0 s : State} (v : Nat) (hk : Fr msk s0 s)
    (hm : Sub 2097153 msk := by exact Sub.mono (by assumption) rfl) :
    Fr msk s0 (stOf (State.wtDataWrite s v)) := by
  unfold State.wtDataWrite
  repeat' first
    | with_reducible assumption | (exact Sub.mono hm rfl) | intro _
    | (extract_lets +onlyGivenNames x; refine keeps_have (msk := msk) (s0 := s0) (x := x) ?_ ?_; rotate_left; clear_value x; intro hx; rotate_right; subst x)
    | (extract_lets +onlyGivenNames x; refine keeps_have_fst (msk := msk) (s0 := s0) (x := x) ?_ ?_; rotate_left; clear_value x; intro hx; rotate_right; subst x)
    | (extract_lets +onlyGivenNames x; clear_value x) | with_reducible apply keeps_answer | with_reducible apply keeps_modCe
    | with_reducible apply keeps_put | with_reducible apply keeps_wtAdvance | with_reducible apply keeps_ite
    | with_reducible apply keeps_ite_fst | (simp only [stOf_mk]) | with_reducible apply keeps_fst | dsimp only

theorem keeps_wtDataRead {msk : Nat} {s0 s : State}  (hk : Fr msk s0 s)
    (hm : Sub 1 msk := by exact Sub.mono (by assumption) rfl) :
    Fr msk s0 (stOf (State.wtDataRead s)) := by
  unfold State.wtDataRead
  repeat' first
    | with_reducible assumption | (exact Sub.mono hm rfl) | intro _ | with_reducible apply keeps_wtAdvance
    | with_reducible apply keeps_ite | with_reducible apply keeps_ite_fst | (simp only [stOf_mk])
    | with_reducible apply keeps_fst | dsimp only

theorem keeps_execCeWtDataAccess {p : Fin 5} {v : Option Word} {s s' : State}
    (e : execCeWtDataAccess p v s = .next s') : Fr 270532609 s s' := by
  unfold execCeWtDataAccess at e
  refine keeps_next e ?_
  clear e
  have hk := Fr.refl 270532609 s
  have hm : Sub 270532609 270532609 := Sub.refl _
  repeat' first
    | with_reducible assumption | (exact Sub.mono hm rfl) | intro _
    | (extract_lets +onlyGivenNames x; refine keeps_have (msk := 270532609) (s0 := s) (x := x) ?_ ?_; rotate_left; clear_value x; intro hx; rotate_right; subst x)
    | (extract_lets +onlyGivenNames x; clear_value x) | with_reducible apply keeps_gatedWrite
    | with_reducible apply keeps_readOut | with_reducible apply keeps_wtDataRead | with_reducible apply keeps_wtDataWrite
    | split | dsimp only

/-! ### Link -/

theorem keeps_modKl {msk : Nat} {s0 s : State} (f : KlSt → KlSt) (hk : Fr msk s0 s)
    (hm : Sub 4194304 msk := by exact Sub.mono (by assumption) rfl) :
    Fr msk s0 (State.modKl s f) := by
  unfold State.modKl
  repeat' first
    | with_reducible assumption | (exact Sub.mono hm rfl) | intro _
    | (extract_lets +onlyGivenNames x; refine keeps_have (msk := msk) (s0 := s0) (x := x) ?_ ?_; rotate_left; clear_value x; intro hx; rotate_right; subst x)
    | (extract_lets +onlyGivenNames x; clear_value x) | dsimp only | with_reducible apply keeps_kl

theorem keeps_modKlPort {msk : Nat} {s0 s : State} (dp : Nat) (f : KlPort → KlPort) (hk : Fr msk s0 s)
    (hm : Sub 4194304 msk := by exact Sub.mono (by assumption) rfl) :
    Fr msk s0 (State.modKlPort s dp f) := by
  unfold State.modKlPort
  repeat' first
    | with_reducible assumption | (exact Sub.mono hm rfl) | intro _
    | (extract_lets +onlyGivenNames x; refine keeps_have (msk := msk) (s0 := s0) (x := x) ?_ ?_; rotate_left; clear_value x; intro hx; rotate_right; subst x)
    | (extract_lets +onlyGivenNames x; clear_value x) | with_reducible apply keeps_modKl | dsimp only

theorem keeps_sideband {msk : Nat} {s0 s : State} (dp : Nat) (m : SbMsg) (hk : Fr msk s0 s)
    (hm : Sub 268435456 msk := by exact Sub.mono (by assumption) rfl) :
    Fr msk s0 (State.sideband s dp m) := by
  unfold State.sideband
  repeat' first
    | with_reducible assumption | (exact Sub.mono hm rfl) | intro _
    | (extract_lets +onlyGivenNames x; refine keeps_have (msk := msk) (s0 := s0) (x := x) ?_ ?_; rotate_left; clear_value x; intro hx; rotate_right; subst x)
    | (extract_lets +onlyGivenNames x; clear_value x) | with_reducible apply keeps_emit | split | dsimp only

theorem keeps_linkLevel {msk : Nat} {s0 s : State} (dp : Nat) (hk : Fr msk s0 s)
    (hm : Sub 268435623 msk := by exact Sub.mono (by assumption) rfl) :
    Fr msk s0 (State.linkLevel s dp) := by
  unfold State.linkLevel
  repeat' first
    | with_reducible assumption | (exact Sub.mono hm rfl) | intro _
    | (extract_lets +onlyGivenNames x; refine keeps_have (msk := msk) (s0 := s0) (x := x) ?_ ?_; rotate_left; clear_value x; intro hx; rotate_right; subst x)
    | (extract_lets +onlyGivenNames x; clear_value x) | with_reducible apply keeps_beginLevel
    | with_reducible apply keeps_endLevel | with_reducible apply keeps_ite | split | dsimp only

theorem keeps_putRoles {msk : Nat} {s0 s : State} (dp : Nat) (hk : Fr msk s0 s)
    (hm : Sub 1 msk := by exact Sub.mono (by assumption) rfl) :
    Fr msk s0 (State.putRoles s dp) := by
  unfold State.putRoles
  repeat' first
    | with_reducible assumption | (exact Sub.mono hm rfl) | intro _ | with_reducible apply keeps_put
    | with_reducible apply keeps_foldl | with_reducible apply keeps_foldl_fst | with_reducible apply keeps_ite
    | with_reducible apply keeps_ite_fst | (simp only [stOf_mk]) | with_reducible apply keeps_fst | dsimp only

theorem keeps_laneServes {msk : Nat} {s0 s : State} (w : Nat) (i : Nat) (q : Option Nat) (hk : Fr msk s0 s)
    (hm : Sub 1 msk := by exact Sub.mono (by assumption) rfl) :
    Fr msk s0 (State.laneServes s w i q) := by
  unfold State.laneServes
  repeat' first
    | with_reducible assumption | (exact Sub.mono hm rfl) | intro _ | with_reducible apply keeps_put
    | with_reducible apply keeps_ite | dsimp only

theorem keeps_dropRecord {msk : Nat} {s0 s : State} (dp : Nat) (hk : Fr msk s0 s)
    (hm : Sub 4194305 msk := by exact Sub.mono (by assumption) rfl) :
    Fr msk s0 (State.dropRecord s dp) := by
  unfold State.dropRecord
  repeat' first
    | with_reducible assumption | (exact Sub.mono hm rfl) | intro _
    | (extract_lets +onlyGivenNames x; refine keeps_have (msk := msk) (s0 := s0) (x := x) ?_ ?_; rotate_left; clear_value x; intro hx; rotate_right; subst x)
    | (extract_lets +onlyGivenNames x; clear_value x) | with_reducible apply keeps_count
    | with_reducible apply keeps_modKlPort | with_reducible apply keeps_ite | dsimp only

theorem keeps_klDown {msk : Nat} {s0 s : State} (dp : Nat) (state : Nat) (hk : Fr msk s0 s)
    (hm : Sub 817889455 msk := by exact Sub.mono (by assumption) rfl) :
    Fr msk s0 (State.klDown s dp state) := by
  unfold State.klDown
  repeat' first
    | with_reducible assumption | (exact Sub.mono hm rfl) | intro _
    | (extract_lets +onlyGivenNames x; refine keeps_have (msk := msk) (s0 := s0) (x := x) ?_ ?_; rotate_left; clear_value x; intro hx; rotate_right; subst x)
    | (extract_lets +onlyGivenNames x; clear_value x) | with_reducible apply keeps_dropRecord
    | with_reducible apply keeps_each | with_reducible apply keeps_hiveWatch | with_reducible apply keeps_modKlPort
    | with_reducible apply keeps_put | dsimp only | with_reducible apply keeps_kh

theorem keeps_klForm {msk : Nat} {s0 s : State} (dp : Nat) (w : Nat) (lanes : List Nat) (hk : Fr msk s0 s)
    (hm : Sub 272629927 msk := by exact Sub.mono (by assumption) rfl) :
    Fr msk s0 (State.klForm s dp w lanes) := by
  unfold State.klForm
  repeat' first
    | with_reducible assumption | (exact Sub.mono hm rfl) | intro _
    | (extract_lets +onlyGivenNames x; refine keeps_have (msk := msk) (s0 := s0) (x := x) ?_ ?_; rotate_left; clear_value x; intro hx; rotate_right; subst x)
    | (extract_lets +onlyGivenNames x; clear_value x) | with_reducible apply keeps_each
    | with_reducible apply keeps_laneServes | with_reducible apply keeps_linkLevel | with_reducible apply keeps_modKlPort
    | with_reducible apply keeps_put | with_reducible apply keeps_putRoles | dsimp only

theorem keeps_klPortStart {msk : Nat} {s0 s : State} (dp : Nat) (hk : Fr msk s0 s)
    (hm : Sub 272629927 msk := by exact Sub.mono (by assumption) rfl) :
    Fr msk s0 (State.klPortStart s dp) := by
  unfold State.klPortStart
  repeat' first
    | with_reducible assumption | (exact Sub.mono hm rfl) | intro _
    | (extract_lets +onlyGivenNames x; refine keeps_have (msk := msk) (s0 := s0) (x := x) ?_ ?_; rotate_left; clear_value x; intro hx; rotate_right; subst x)
    | (extract_lets +onlyGivenNames x; clear_value x) | with_reducible apply keeps_each | with_reducible apply keeps_klForm
    | with_reducible apply keeps_modKl | with_reducible apply keeps_modKlPort | with_reducible apply keeps_put
    | with_reducible apply keeps_ite | split | dsimp only

theorem keeps_klPortStop {msk : Nat} {s0 s : State} (dp : Nat) (hk : Fr msk s0 s)
    (hm : Sub 817889455 msk := by exact Sub.mono (by assumption) rfl) :
    Fr msk s0 (State.klPortStop s dp) := by
  unfold State.klPortStop
  repeat' first
    | with_reducible assumption | (exact Sub.mono hm rfl) | intro _
    | (extract_lets +onlyGivenNames x; refine keeps_have (msk := msk) (s0 := s0) (x := x) ?_ ?_; rotate_left; clear_value x; intro hx; rotate_right; subst x)
    | (extract_lets +onlyGivenNames x; clear_value x) | with_reducible apply keeps_each | with_reducible apply keeps_klDown
    | with_reducible apply keeps_linkLevel | with_reducible apply keeps_put | with_reducible apply keeps_setVal | dsimp only

theorem keeps_klPortWrite {msk : Nat} {s0 s : State} (dp : Nat) (v : Nat) (hk : Fr msk s0 s)
    (hm : Sub 817889455 msk := by exact Sub.mono (by assumption) rfl) :
    Fr msk s0 (stOf (State.klPortWrite s dp v)) := by
  unfold State.klPortWrite
  repeat' first
    | with_reducible assumption | (exact Sub.mono hm rfl) | intro _
    | (extract_lets +onlyGivenNames x; refine keeps_have (msk := msk) (s0 := s0) (x := x) ?_ ?_; rotate_left; clear_value x; intro hx; rotate_right; subst x)
    | (extract_lets +onlyGivenNames x; refine keeps_have_fst (msk := msk) (s0 := s0) (x := x) ?_ ?_; rotate_left; clear_value x; intro hx; rotate_right; subst x)
    | (extract_lets +onlyGivenNames x; clear_value x) | with_reducible apply keeps_answer
    | with_reducible apply keeps_enableWrite | with_reducible apply keeps_klPortStart | with_reducible apply keeps_klPortStop
    | with_reducible apply keeps_ite | with_reducible apply keeps_ite_fst | (simp only [stOf_mk])
    | with_reducible apply keeps_fst | dsimp only

theorem keeps_klPortUp {msk : Nat} {s0 s : State} (dp : Nat) (hk : Fr msk s0 s)
    (hm : Sub 4194305 msk := by exact Sub.mono (by assumption) rfl) :
    Fr msk s0 (State.klPortUp s dp) := by
  unfold State.klPortUp
  repeat' first
    | with_reducible assumption | (exact Sub.mono hm rfl) | intro _
    | (extract_lets +onlyGivenNames x; refine keeps_have (msk := msk) (s0 := s0) (x := x) ?_ ?_; rotate_left; clear_value x; intro hx; rotate_right; subst x)
    | (extract_lets +onlyGivenNames x; clear_value x) | with_reducible apply keeps_each
    | with_reducible apply keeps_modKlPort | with_reducible apply keeps_put | with_reducible apply keeps_putRoles
    | with_reducible apply keeps_setVal | with_reducible apply keeps_ite | split | dsimp only

theorem keeps_execKlPortUp {dp : Fin 64} {s s' : State}
    (e : execKlPortUp dp s = .next s') : Fr 4194305 s s' := by
  unfold execKlPortUp at e
  refine keeps_next e ?_
  clear e
  have hk := Fr.refl 4194305 s
  have hm : Sub 4194305 4194305 := Sub.refl _
  repeat' first
    | with_reducible assumption | (exact Sub.mono hm rfl) | intro _ | with_reducible apply keeps_klPortUp | dsimp only

theorem keeps_laneLock {msk : Nat} {s0 s : State} (w : Nat) (i : Nat) (hk : Fr msk s0 s)
    (hm : Sub 1 msk := by exact Sub.mono (by assumption) rfl) :
    Fr msk s0 (State.laneLock s w i) := by
  unfold State.laneLock
  repeat' first
    | with_reducible assumption | (exact Sub.mono hm rfl) | intro _
    | (extract_lets +onlyGivenNames x; refine keeps_have (msk := msk) (s0 := s0) (x := x) ?_ ?_; rotate_left; clear_value x; intro hx; rotate_right; subst x)
    | (extract_lets +onlyGivenNames x; clear_value x) | with_reducible apply keeps_put | with_reducible apply keeps_setVal
    | with_reducible apply keeps_ite | split | dsimp only

theorem keeps_sbAlign {msk : Nat} {s0 s : State} (w : Nat) (i : Nat) (role : Nat) (port : Nat) (hive : Nat) (count : Nat) (hk : Fr msk s0 s)
    (hm : Sub 272629927 msk := by exact Sub.mono (by assumption) rfl) :
    Fr msk s0 (State.sbAlign s w i role port hive count) := by
  unfold State.sbAlign
  repeat' first
    | with_reducible assumption | (exact Sub.mono hm rfl) | intro _
    | (extract_lets +onlyGivenNames x; refine keeps_have (msk := msk) (s0 := s0) (x := x) ?_ ?_; rotate_left; clear_value x; intro hx; rotate_right; subst x)
    | (extract_lets +onlyGivenNames x; refine keeps_have_fst (msk := msk) (s0 := s0) (x := x) ?_ ?_; rotate_left; clear_value x; intro hx; rotate_right; subst x)
    | (extract_lets +onlyGivenNames x; clear_value x) | with_reducible apply keeps_count
    | with_reducible apply keeps_laneLock | with_reducible apply keeps_linkLevel | with_reducible apply keeps_modKlPort
    | with_reducible apply keeps_put | with_reducible apply keeps_setVal | with_reducible apply keeps_ite
    | with_reducible apply keeps_ite_fst | (simp only [stOf_mk]) | split | with_reducible apply keeps_fst | dsimp only

theorem keeps_execKlSbAlign {r : Fin 2} {i : Fin 68} {role : Nat} {port : Fin 64} {hive : BitVec 16} {count : BitVec 48} {s s' : State}
    (e : execKlSbAlign r i role port hive count s = .next s') : Fr 272629927 s s' := by
  unfold execKlSbAlign at e
  refine keeps_next e ?_
  clear e
  have hk := Fr.refl 272629927 s
  have hm : Sub 272629927 272629927 := Sub.refl _
  repeat' first
    | with_reducible assumption | (exact Sub.mono hm rfl) | intro _ | with_reducible apply keeps_count
    | with_reducible apply keeps_sbAlign | dsimp only

theorem keeps_modLane {msk : Nat} {s0 s : State} (r : Nat) (i : Nat) (f : KlLane → KlLane) (hk : Fr msk s0 s)
    (hm : Sub 4194304 msk := by exact Sub.mono (by assumption) rfl) :
    Fr msk s0 (State.modLane s r i f) := by
  unfold State.modLane
  repeat' first
    | with_reducible assumption | (exact Sub.mono hm rfl) | intro _
    | (extract_lets +onlyGivenNames x; refine keeps_have (msk := msk) (s0 := s0) (x := x) ?_ ?_; rotate_left; clear_value x; intro hx; rotate_right; subst x)
    | (extract_lets +onlyGivenNames x; clear_value x) | with_reducible apply keeps_modKl | dsimp only

theorem keeps_alignSend {msk : Nat} {s0 s : State} (w : Nat) (i : Nat) (hk : Fr msk s0 s)
    (hm : Sub 272629760 msk := by exact Sub.mono (by assumption) rfl) :
    Fr msk s0 (State.alignSend s w i) := by
  unfold State.alignSend
  repeat' first
    | with_reducible assumption | with_reducible apply keeps_emit | with_reducible apply keeps_modLane
    | (extract_lets +onlyGivenNames x; refine keeps_fun (x := x) ?_; subst x) | (exact Sub.mono hm rfl) | intro _
    | (extract_lets +onlyGivenNames x; refine keeps_have (msk := msk) (s0 := s0) (x := x) ?_ ?_; rotate_left; clear_value x; intro hx; rotate_right; subst x)
    | (extract_lets +onlyGivenNames x; clear_value x) | with_reducible apply keeps_ite | split | dsimp only

theorem keeps_execKlAlignSend {r : Fin 2} {i : Fin 68} {s s' : State}
    (e : execKlAlignSend r i s = .next s') : Fr 272629760 s s' := by
  unfold execKlAlignSend at e
  refine keeps_next e ?_
  clear e
  have hk := Fr.refl 272629760 s
  have hm : Sub 272629760 272629760 := Sub.refl _
  repeat' first
    | with_reducible assumption | (exact Sub.mono hm rfl) | intro _ | with_reducible apply keeps_alignSend | dsimp only

theorem keeps_klNarrow {msk : Nat} {s0 s : State} (dp : Nat) (hk : Fr msk s0 s)
    (hm : Sub 817889455 msk := by exact Sub.mono (by assumption) rfl) :
    Fr msk s0 (State.klNarrow s dp) := by
  unfold State.klNarrow
  repeat' first
    | with_reducible assumption | (exact Sub.mono hm rfl) | intro _
    | (extract_lets +onlyGivenNames x; refine keeps_have (msk := msk) (s0 := s0) (x := x) ?_ ?_; rotate_left; clear_value x; intro hx; rotate_right; subst x)
    | (extract_lets +onlyGivenNames x; clear_value x) | with_reducible apply keeps_klDown | with_reducible apply keeps_klForm
    | with_reducible apply keeps_modKlPort | with_reducible apply keeps_put | with_reducible apply keeps_sideband
    | with_reducible apply keeps_ite | split | dsimp only

theorem keeps_roleFail {msk : Nat} {s0 s : State} (dp : Nat) (role : Nat) (hk : Fr msk s0 s)
    (hm : Sub 817889455 msk := by exact Sub.mono (by assumption) rfl) :
    Fr msk s0 (State.roleFail s dp role) := by
  unfold State.roleFail
  repeat' first
    | with_reducible assumption | (exact Sub.mono hm rfl) | intro _
    | (extract_lets +onlyGivenNames x; refine keeps_have (msk := msk) (s0 := s0) (x := x) ?_ ?_; rotate_left; clear_value x; intro hx; rotate_right; subst x)
    | (extract_lets +onlyGivenNames x; clear_value x) | with_reducible apply keeps_count | with_reducible apply keeps_emit
    | with_reducible apply keeps_klNarrow | with_reducible apply keeps_modKlPort | with_reducible apply keeps_ite | split
    | dsimp only

theorem keeps_retireLane {msk : Nat} {s0 s : State} (w : Nat) (i : Nat) (hk : Fr msk s0 s)
    (hm : Sub 268436903 msk := by exact Sub.mono (by assumption) rfl) :
    Fr msk s0 (State.retireLane s w i) := by
  unfold State.retireLane
  repeat' first
    | with_reducible assumption | (exact Sub.mono hm rfl) | intro _
    | (extract_lets +onlyGivenNames x; refine keeps_have (msk := msk) (s0 := s0) (x := x) ?_ ?_; rotate_left; clear_value x; intro hx; rotate_right; subst x)
    | (extract_lets +onlyGivenNames x; clear_value x) | with_reducible apply keeps_free | with_reducible apply keeps_put
    | with_reducible apply keeps_setBlk | with_reducible apply keeps_spareGone | with_reducible apply keeps_ite | dsimp only

theorem keeps_laneGone {msk : Nat} {s0 s : State} (w : Nat) (i : Nat) (hk : Fr msk s0 s)
    (hm : Sub 817889455 msk := by exact Sub.mono (by assumption) rfl) :
    Fr msk s0 (State.laneGone s w i) := by
  unfold State.laneGone
  repeat' first
    | with_reducible assumption | (exact Sub.mono hm rfl) | intro _
    | (extract_lets +onlyGivenNames x; refine keeps_have (msk := msk) (s0 := s0) (x := x) ?_ ?_; rotate_left; clear_value x; intro hx; rotate_right; subst x)
    | (extract_lets +onlyGivenNames x; clear_value x) | with_reducible apply keeps_dropRecord
    | with_reducible apply keeps_putRoles | with_reducible apply keeps_roleFail | split | dsimp only

theorem keeps_spareOut {msk : Nat} {s0 s : State} (w : Nat) (k : Nat) (hk : Fr msk s0 s)
    (hm : Sub 817889455 msk := by exact Sub.mono (by assumption) rfl) :
    Fr msk s0 (State.spareOut s w k) := by
  unfold State.spareOut
  repeat' first
    | with_reducible assumption | (exact Sub.mono hm rfl) | intro _
    | (extract_lets +onlyGivenNames x; refine keeps_have (msk := msk) (s0 := s0) (x := x) ?_ ?_; rotate_left; clear_value x; intro hx; rotate_right; subst x)
    | (extract_lets +onlyGivenNames x; clear_value x) | with_reducible apply keeps_dropRecord
    | with_reducible apply keeps_klNarrow | with_reducible apply keeps_laneGone | with_reducible apply keeps_put
    | with_reducible apply keeps_ite | dsimp only

theorem keeps_laneFail {msk : Nat} {s0 s : State} (w : Nat) (i : Nat) (hk : Fr msk s0 s)
    (hm : Sub 817890735 msk := by exact Sub.mono (by assumption) rfl) :
    Fr msk s0 (State.laneFail s w i) := by
  unfold State.laneFail
  repeat' first
    | with_reducible assumption | (exact Sub.mono hm rfl) | intro _
    | (extract_lets +onlyGivenNames x; refine keeps_have (msk := msk) (s0 := s0) (x := x) ?_ ?_; rotate_left; clear_value x; intro hx; rotate_right; subst x)
    | (extract_lets +onlyGivenNames x; clear_value x) | with_reducible apply keeps_klDown
    | with_reducible apply keeps_laneGone | with_reducible apply keeps_put | with_reducible apply keeps_retireLane
    | with_reducible apply keeps_spareOut | with_reducible apply keeps_ite | split | dsimp only

theorem keeps_spareSwitch {msk : Nat} {s0 s : State} (dp : Nat) (tx : Bool) (hk : Fr msk s0 s)
    (hm : Sub 817889711 msk := by exact Sub.mono (by assumption) rfl) :
    Fr msk s0 (State.spareSwitch s dp tx) := by
  unfold State.spareSwitch
  repeat' first
    | with_reducible assumption | (exact Sub.mono hm rfl) | intro _
    | (extract_lets +onlyGivenNames x; refine keeps_have (msk := msk) (s0 := s0) (x := x) ?_ ?_; rotate_left; clear_value x; intro hx; rotate_right; subst x)
    | (extract_lets +onlyGivenNames x; clear_value x) | with_reducible apply keeps_count
    | with_reducible apply keeps_laneServes | with_reducible apply keeps_modKlPort | with_reducible apply keeps_put
    | with_reducible apply keeps_putRoles | with_reducible apply keeps_roleFail | with_reducible apply keeps_setBlk
    | with_reducible apply keeps_spareGone | with_reducible apply keeps_ite | split | dsimp only

theorem keeps_sbSwap {msk : Nat} {s0 s : State} (dp : Nat) (role : Nat) (spare : Nat) (count : Nat) (hk : Fr msk s0 s)
    (hm : Sub 272631207 msk := by exact Sub.mono (by assumption) rfl) :
    Fr msk s0 (State.sbSwap s dp role spare count) := by
  unfold State.sbSwap
  repeat' first
    | with_reducible assumption | (exact Sub.mono hm rfl) | intro _
    | (extract_lets +onlyGivenNames x; refine keeps_have (msk := msk) (s0 := s0) (x := x) ?_ ?_; rotate_left; clear_value x; intro hx; rotate_right; subst x)
    | (extract_lets +onlyGivenNames x; clear_value x) | with_reducible apply keeps_count
    | with_reducible apply keeps_dropRecord | with_reducible apply keeps_emit | with_reducible apply keeps_modKlPort
    | with_reducible apply keeps_putRoles | with_reducible apply keeps_retireLane | with_reducible apply keeps_ite | split
    | dsimp only

theorem keeps_execKlSbSwap {dp : Fin 64} {role : Nat} {spare : Nat} {count : BitVec 48} {s s' : State}
    (e : execKlSbSwap dp role spare count s = .next s') : Fr 272631207 s s' := by
  unfold execKlSbSwap at e
  refine keeps_next e ?_
  clear e
  have hk := Fr.refl 272631207 s
  have hm : Sub 272631207 272631207 := Sub.refl _
  repeat' first
    | with_reducible assumption | (exact Sub.mono hm rfl) | intro _ | with_reducible apply keeps_count
    | with_reducible apply keeps_sbSwap | dsimp only

theorem keeps_execKlSbAck {dp : Fin 64} {role : Nat} {count : BitVec 48} {s s' : State}
    (e : execKlSbAck dp role count s = .next s') : Fr 4194305 s s' := by
  unfold execKlSbAck at e
  refine keeps_next e ?_
  clear e
  have hk := Fr.refl 4194305 s
  have hm : Sub 4194305 4194305 := Sub.refl _
  repeat' first
    | with_reducible assumption | (exact Sub.mono hm rfl) | intro _
    | (extract_lets +onlyGivenNames x; refine keeps_have (msk := 4194305) (s0 := s) (x := x) ?_ ?_; rotate_left; clear_value x; intro hx; rotate_right; subst x)
    | (extract_lets +onlyGivenNames x; clear_value x) | with_reducible apply keeps_count
    | with_reducible apply keeps_modKlPort | with_reducible apply keeps_ite | split | dsimp only

theorem keeps_sbNarrow {msk : Nat} {s0 s : State} (dp : Nat) (width : Nat) (roles : List Nat) (hk : Fr msk s0 s)
    (hm : Sub 272629927 msk := by exact Sub.mono (by assumption) rfl) :
    Fr msk s0 (State.sbNarrow s dp width roles) := by
  unfold State.sbNarrow
  repeat' first
    | with_reducible assumption | (exact Sub.mono hm rfl) | intro _
    | (extract_lets +onlyGivenNames x; refine keeps_have (msk := msk) (s0 := s0) (x := x) ?_ ?_; rotate_left; clear_value x; intro hx; rotate_right; subst x)
    | (extract_lets +onlyGivenNames x; clear_value x) | with_reducible apply keeps_dropRecord
    | with_reducible apply keeps_klForm | with_reducible apply keeps_put | with_reducible apply keeps_sideband
    | with_reducible apply keeps_ite | dsimp only

theorem keeps_execKlSbNarrow {dp : Fin 64} {width : Fin 4} {roles : List Nat} {_count : BitVec 48} {s s' : State}
    (e : execKlSbNarrow dp width roles _count s = .next s') : Fr 272629927 s s' := by
  unfold execKlSbNarrow at e
  refine keeps_next e ?_
  clear e
  have hk := Fr.refl 272629927 s
  have hm : Sub 272629927 272629927 := Sub.refl _
  repeat' first
    | with_reducible assumption | (exact Sub.mono hm rfl) | intro _ | with_reducible apply keeps_sbNarrow | dsimp only

theorem keeps_execKlRecordAbort {dp : Fin 64} {s s' : State}
    (e : execKlRecordAbort dp s = .next s') : Fr 4194305 s s' := by
  unfold execKlRecordAbort at e
  refine keeps_next e ?_
  clear e
  have hk := Fr.refl 4194305 s
  have hm : Sub 4194305 4194305 := Sub.refl _
  repeat' first
    | with_reducible assumption | (exact Sub.mono hm rfl) | intro _
    | (extract_lets +onlyGivenNames x; refine keeps_have (msk := 4194305) (s0 := s) (x := x) ?_ ?_; rotate_left; clear_value x; intro hx; rotate_right; subst x)
    | (extract_lets +onlyGivenNames x; clear_value x) | with_reducible apply keeps_count
    | with_reducible apply keeps_modKlPort | with_reducible apply keeps_ite | dsimp only

theorem keeps_klSpareStop {msk : Nat} {s0 s : State} (w : Nat) (k : Nat) (hk : Fr msk s0 s)
    (hm : Sub 817889711 msk := by exact Sub.mono (by assumption) rfl) :
    Fr msk s0 (State.klSpareStop s w k) := by
  unfold State.klSpareStop
  repeat' first
    | with_reducible assumption | (exact Sub.mono hm rfl) | intro _ | with_reducible apply keeps_setBlk
    | with_reducible apply keeps_spareOut | with_reducible apply keeps_ite | dsimp only

theorem keeps_klSpareWrite {msk : Nat} {s0 s : State} (w : Nat) (k : Nat) (v : Nat) (hk : Fr msk s0 s)
    (hm : Sub 817889711 msk := by exact Sub.mono (by assumption) rfl) :
    Fr msk s0 (stOf (State.klSpareWrite s w k v)) := by
  unfold State.klSpareWrite
  repeat' first
    | with_reducible assumption | (exact Sub.mono hm rfl) | intro _
    | (extract_lets +onlyGivenNames x; refine keeps_have (msk := msk) (s0 := s0) (x := x) ?_ ?_; rotate_left; clear_value x; intro hx; rotate_right; subst x)
    | (extract_lets +onlyGivenNames x; refine keeps_have_fst (msk := msk) (s0 := s0) (x := x) ?_ ?_; rotate_left; clear_value x; intro hx; rotate_right; subst x)
    | (extract_lets +onlyGivenNames x; clear_value x) | with_reducible apply keeps_enableWrite
    | with_reducible apply keeps_klSpareStop | with_reducible apply keeps_ite | with_reducible apply keeps_ite_fst
    | (simp only [stOf_mk]) | (with_reducible apply keeps_id) | with_reducible apply keeps_fst | dsimp only

theorem keeps_klLimitWrite {msk : Nat} {s0 s : State} (w i v : Nat) (hk : Fr msk s0 s)
    (hm : Sub 1 msk := by exact Sub.mono (by assumption) rfl) :
    Fr msk s0 (stOf (State.klLimitWrite s w i v)) :=
  keeps_ite_fst (keeps_pair hk) (keeps_pair (keeps_plainWrite _ _ hk))

theorem keeps_timeSend {msk : Nat} {s0 s : State} (dp : Nat) (tx : DevTime) (hk : Fr msk s0 s)
    (hm : Sub 272629760 msk := by exact Sub.mono (by assumption) rfl) :
    Fr msk s0 (State.timeSend s dp tx) := by
  unfold State.timeSend
  repeat' first
    | with_reducible assumption | (exact Sub.mono hm rfl) | intro _
    | (extract_lets +onlyGivenNames x; refine keeps_have (msk := msk) (s0 := s0) (x := x) ?_ ?_; rotate_left; clear_value x; intro hx; rotate_right; subst x)
    | (extract_lets +onlyGivenNames x; refine keeps_have_fst (msk := msk) (s0 := s0) (x := x) ?_ ?_; rotate_left; clear_value x; intro hx; rotate_right; subst x)
    | (extract_lets +onlyGivenNames x; clear_value x) | with_reducible apply keeps_modKlPort
    | with_reducible apply keeps_sideband | with_reducible apply keeps_getD | with_reducible apply keeps_ite
    | with_reducible apply keeps_ite_fst | (simp only [stOf_mk]) | split | with_reducible apply keeps_fst | dsimp only

theorem keeps_execKlTimeSend {dp : Fin 64} {tx : DevTime} {s s' : State}
    (e : execKlTimeSend dp tx s = .next s') : Fr 272629760 s s' := by
  unfold execKlTimeSend at e
  refine keeps_next e ?_
  clear e
  have hk := Fr.refl 272629760 s
  have hm : Sub 272629760 272629760 := Sub.refl _
  repeat' first
    | with_reducible assumption | (exact Sub.mono hm rfl) | intro _ | with_reducible apply keeps_timeSend | dsimp only

theorem keeps_exchange {msk : Nat} {s0 s : State} (dp : Nat) (t1 : DevTime) (t2 : DevTime) (t3 : DevTime) (t4 : DevTime) (hk : Fr msk s0 s)
    (hm : Sub 4194305 msk := by exact Sub.mono (by assumption) rfl) :
    Fr msk s0 (State.exchange s dp t1 t2 t3 t4) := by
  unfold State.exchange
  repeat' first
    | with_reducible assumption | (exact Sub.mono hm rfl) | intro _
    | (extract_lets +onlyGivenNames x; refine keeps_have (msk := msk) (s0 := s0) (x := x) ?_ ?_; rotate_left; clear_value x; intro hx; rotate_right; subst x)
    | (extract_lets +onlyGivenNames x; refine keeps_have_fst (msk := msk) (s0 := s0) (x := x) ?_ ?_; rotate_left; clear_value x; intro hx; rotate_right; subst x)
    | (extract_lets +onlyGivenNames x; clear_value x) | with_reducible apply keeps_modKlPort | with_reducible apply keeps_put
    | with_reducible apply keeps_setVal | with_reducible apply keeps_foldl | with_reducible apply keeps_foldl_fst
    | with_reducible apply keeps_ite | with_reducible apply keeps_ite_fst | (simp only [stOf_mk]) | split
    | with_reducible apply keeps_fst | dsimp only

theorem keeps_sbTime {msk : Nat} {s0 s : State} (dp : Nat) (m : TimeMsg) (rx : DevTime) (hk : Fr msk s0 s)
    (hm : Sub 809500847 msk := by exact Sub.mono (by assumption) rfl) :
    Fr msk s0 (State.sbTime s dp m rx) := by
  unfold State.sbTime
  repeat' first
    | with_reducible assumption | (exact Sub.mono hm rfl) | intro _
    | (extract_lets +onlyGivenNames x; refine keeps_have (msk := msk) (s0 := s0) (x := x) ?_ ?_; rotate_left; clear_value x; intro hx; rotate_right; subst x)
    | (extract_lets +onlyGivenNames x; clear_value x) | with_reducible apply keeps_exchange
    | with_reducible apply keeps_hiveLost | with_reducible apply keeps_hiveWatch | with_reducible apply keeps_modKlPort
    | with_reducible apply keeps_put | with_reducible apply keeps_ite | split | dsimp only

theorem keeps_execKlSbTime {dp : Fin 64} {m : TimeMsg} {rx : DevTime} {s s' : State}
    (e : execKlSbTime dp m rx s = .next s') : Fr 809500847 s s' := by
  unfold execKlSbTime at e
  refine keeps_next e ?_
  clear e
  have hk := Fr.refl 809500847 s
  have hm : Sub 809500847 809500847 := Sub.refl _
  repeat' first
    | with_reducible assumption | (exact Sub.mono hm rfl) | intro _ | with_reducible apply keeps_sbTime | dsimp only

theorem keeps_ttCtlWrite {msk : Nat} {s0 s : State} (dp : Nat) (v : Nat) (hk : Fr msk s0 s)
    (hm : Sub 4194305 msk := by exact Sub.mono (by assumption) rfl) :
    Fr msk s0 (stOf (State.ttCtlWrite s dp v)) := by
  unfold State.ttCtlWrite
  repeat' first
    | with_reducible assumption | (exact Sub.mono hm rfl) | intro _
    | (extract_lets +onlyGivenNames x; refine keeps_have (msk := msk) (s0 := s0) (x := x) ?_ ?_; rotate_left; clear_value x; intro hx; rotate_right; subst x)
    | (extract_lets +onlyGivenNames x; refine keeps_have_fst (msk := msk) (s0 := s0) (x := x) ?_ ?_; rotate_left; clear_value x; intro hx; rotate_right; subst x)
    | (extract_lets +onlyGivenNames x; clear_value x) | with_reducible apply keeps_answer
    | with_reducible apply keeps_modKlPort | with_reducible apply keeps_put | with_reducible apply keeps_ite
    | with_reducible apply keeps_ite_fst | (simp only [stOf_mk]) | with_reducible apply keeps_fst | dsimp only

theorem keeps_execKlTtCal {p : Fin 5} {dp : Fin 64} {s s' : State}
    (e : execKlTtCal p dp s = .next s') : Fr 4194305 s s' := by
  unfold execKlTtCal at e
  refine keeps_next e ?_
  clear e
  have hk := Fr.refl 4194305 s
  have hm : Sub 4194305 4194305 := Sub.refl _
  repeat' first
    | with_reducible assumption | (exact Sub.mono hm rfl) | intro _ | with_reducible apply keeps_gatedWrite
    | with_reducible apply keeps_ttCtlWrite | dsimp only

theorem keeps_ttCalDone {msk : Nat} {s0 s : State} (dp : Nat) (hk : Fr msk s0 s)
    (hm : Sub 4194305 msk := by exact Sub.mono (by assumption) rfl) :
    Fr msk s0 (State.ttCalDone s dp) := by
  unfold State.ttCalDone
  repeat' first
    | with_reducible assumption | (exact Sub.mono hm rfl) | intro _
    | (extract_lets +onlyGivenNames x; refine keeps_have (msk := msk) (s0 := s0) (x := x) ?_ ?_; rotate_left; clear_value x; intro hx; rotate_right; subst x)
    | (extract_lets +onlyGivenNames x; clear_value x) | with_reducible apply keeps_modKlPort | with_reducible apply keeps_put
    | with_reducible apply keeps_setVal | with_reducible apply keeps_ite | split | dsimp only

theorem keeps_execKlTtCalDone {dp : Fin 64} {s s' : State}
    (e : execKlTtCalDone dp s = .next s') : Fr 4194305 s s' := by
  unfold execKlTtCalDone at e
  refine keeps_next e ?_
  clear e
  have hk := Fr.refl 4194305 s
  have hm : Sub 4194305 4194305 := Sub.refl _
  repeat' first
    | with_reducible assumption | (exact Sub.mono hm rfl) | intro _ | with_reducible apply keeps_ttCalDone | dsimp only

theorem keeps_exDrop {msk : Nat} {s0 s : State} (dp : Nat) (hk : Fr msk s0 s)
    (hm : Sub 1 msk := by exact Sub.mono (by assumption) rfl) :
    Fr msk s0 (State.exDrop s dp) := by
  unfold State.exDrop
  repeat' first
    | with_reducible assumption | (exact Sub.mono hm rfl) | intro _ | with_reducible apply keeps_count
    | with_reducible apply keeps_ite | dsimp only

theorem keeps_execKlExRxDrop {dp : Fin 64} {s s' : State}
    (e : execKlExRxDrop dp s = .next s') : Fr 1 s s' := by
  unfold execKlExRxDrop at e
  refine keeps_next e ?_
  clear e
  have hk := Fr.refl 1 s
  have hm : Sub 1 1 := Sub.refl _
  repeat' first
    | with_reducible assumption | (exact Sub.mono hm rfl) | intro _ | with_reducible apply keeps_exDrop | dsimp only

theorem keeps_execKlExArp {dp : Fin 64} {target : BitVec 32} {asker : BitVec 32} {s s' : State}
    (e : execKlExArp dp target asker s = .next s') : Fr 268435457 s s' := by
  unfold execKlExArp at e
  refine keeps_next e ?_
  clear e
  have hk := Fr.refl 268435457 s
  have hm : Sub 268435457 268435457 := Sub.refl _
  repeat' first
    | with_reducible assumption | (exact Sub.mono hm rfl) | intro _ | with_reducible apply keeps_emit
    | with_reducible apply keeps_exDrop | with_reducible apply keeps_ite | dsimp only

theorem keeps_execKlExNeighborSolicit {dp : Fin 64} {target : BitVec 128} {asker : BitVec 128} {s s' : State}
    (e : execKlExNeighborSolicit dp target asker s = .next s') : Fr 268435457 s s' := by
  unfold execKlExNeighborSolicit at e
  refine keeps_next e ?_
  clear e
  have hk := Fr.refl 268435457 s
  have hm : Sub 268435457 268435457 := Sub.refl _
  repeat' first
    | with_reducible assumption | (exact Sub.mono hm rfl) | intro _ | with_reducible apply keeps_emit
    | with_reducible apply keeps_exDrop | with_reducible apply keeps_ite | dsimp only

theorem keeps_exSend {msk : Nat} {s0 s : State} (w f c len n off : Nat) (bs : List Byte) (hk : Fr msk s0 s)
    (hm : Sub 272629761 msk := by exact Sub.mono (by assumption) rfl) :
    Fr msk s0 (State.exSend s w f c len n off bs) := by
  induction n generalizing s off bs with
  | zero => exact hk
  | succ n ih =>
    unfold State.exSend
    repeat' first
      | with_reducible assumption | (exact Sub.mono hm rfl) | intro _
      | (extract_lets +onlyGivenNames x; refine keeps_have (msk := msk) (s0 := s0) (x := x) ?_ ?_; rotate_left; clear_value x; intro hx; rotate_right; subst x)
      | (extract_lets +onlyGivenNames x; refine keeps_have_fst (msk := msk) (s0 := s0) (x := x) ?_ ?_; rotate_left; clear_value x; intro hx; rotate_right; subst x)
      | (extract_lets +onlyGivenNames x; clear_value x) | with_reducible apply ih | with_reducible apply keeps_modKl
      | with_reducible apply keeps_emit | with_reducible apply keeps_count | with_reducible apply keeps_ite
      | with_reducible apply keeps_ite_fst | (simp only [stOf_mk]) | split | with_reducible apply keeps_fst | dsimp only

theorem keeps_exOut {msk : Nat} {s0 s : State} (w : Nat) (f : Nat) (r : YRec) (hk : Fr msk s0 s)
    (hm : Sub 272629761 msk := by exact Sub.mono (by assumption) rfl) :
    Fr msk s0 (State.exOut s w f r) := by
  unfold State.exOut
  repeat' first
    | with_reducible assumption | (exact Sub.mono hm rfl) | intro _
    | (extract_lets +onlyGivenNames x; refine keeps_have (msk := msk) (s0 := s0) (x := x) ?_ ?_; rotate_left; clear_value x; intro hx; rotate_right; subst x)
    | (extract_lets +onlyGivenNames x; clear_value x) | with_reducible apply keeps_exSend | dsimp only

theorem keeps_exRecord {msk : Nat} {s0 s : State} (w : Nat) (f : Nat) (r : YRec) (room : Bool) (hk : Fr msk s0 s)
    (hm : Sub 272629761 msk := by exact Sub.mono (by assumption) rfl) :
    Fr msk s0 (State.exRecord s w f r room) := by
  unfold State.exRecord
  repeat' first
    | with_reducible assumption | (exact Sub.mono hm rfl) | intro _
    | (extract_lets +onlyGivenNames x; refine keeps_have (msk := msk) (s0 := s0) (x := x) ?_ ?_; rotate_left; clear_value x; intro hx; rotate_right; subst x)
    | (extract_lets +onlyGivenNames x; clear_value x) | with_reducible apply keeps_count | with_reducible apply keeps_each
    | with_reducible apply keeps_exOut | with_reducible apply keeps_modKl | with_reducible apply keeps_ite | split
    | dsimp only

theorem keeps_execKlExRecordSend {r : Fin 2} {f : Fin 64} {y : YRec} {room : Bool} {s s' : State}
    (e : execKlExRecordSend r f y room s = .next s') : Fr 272629761 s s' := by
  unfold execKlExRecordSend at e
  refine keeps_next e ?_
  clear e
  have hk := Fr.refl 272629761 s
  have hm : Sub 272629761 272629761 := Sub.refl _
  repeat' first
    | with_reducible assumption | (exact Sub.mono hm rfl) | intro _ | with_reducible apply keeps_exRecord
    | with_reducible apply keeps_inIsland | dsimp only

theorem keeps_xfCtlWrite {msk : Nat} {s0 s : State} (w f v : Nat) (hk : Fr msk s0 s)
    (hm : Sub 4194309 msk := by exact Sub.mono (by assumption) rfl) :
    Fr msk s0 (stOf (State.xfCtlWrite s w f v)) :=
  keeps_ite_fst (keeps_pair hk) (keeps_ite_fst (keeps_ite_fst (keeps_pair (keeps_modKl _ (keeps_plainWrite _ _
    (keeps_each _ _ (fun _ _ ht => keeps_exitReopen _ _ ht) hk)))) (keeps_pair hk)) (keeps_pair (keeps_plainWrite _ _ hk)))

theorem keeps_execKlFlowOn {p : Fin 5} {r : Fin 2} {f : Fin 64} {v : Word} {s s' : State}
    (e : execKlFlowOn p r f v s = .next s') : Fr 4194309 s s' := by
  unfold execKlFlowOn at e
  refine keeps_next e ?_
  clear e
  have hk := Fr.refl 4194309 s
  have hm : Sub 4194309 4194309 := Sub.refl _
  repeat' first
    | with_reducible assumption | (exact Sub.mono hm rfl) | intro _ | with_reducible apply keeps_gatedWrite
    | with_reducible apply keeps_xfCtlWrite | dsimp only

theorem keeps_xfSetWrite {msk : Nat} {s0 s : State} (w : Nat) (f : Nat) (a : Nat) (v : Nat) (hk : Fr msk s0 s)
    (hm : Sub 1 msk := by exact Sub.mono (by assumption) rfl) :
    Fr msk s0 (stOf (State.xfSetWrite s w f a v)) := by
  unfold State.xfSetWrite
  repeat' first
    | with_reducible assumption | (exact Sub.mono hm rfl) | intro _ | with_reducible apply keeps_plainWrite
    | with_reducible apply keeps_ite | with_reducible apply keeps_ite_fst | (simp only [stOf_mk])
    | with_reducible apply keeps_fst | dsimp only

/-! ### Hive -/

theorem keeps_modKh {msk : Nat} {s0 s : State} (f : KhSt → KhSt) (hk : Fr msk s0 s)
    (hm : Sub 8388608 msk := by exact Sub.mono (by assumption) rfl) :
    Fr msk s0 (State.modKh s f) := by
  unfold State.modKh
  repeat' first
    | with_reducible assumption | (exact Sub.mono hm rfl) | intro _
    | (extract_lets +onlyGivenNames x; refine keeps_have (msk := msk) (s0 := s0) (x := x) ?_ ?_; rotate_left; clear_value x; intro hx; rotate_right; subst x)
    | (extract_lets +onlyGivenNames x; clear_value x) | dsimp only | with_reducible apply keeps_kh

theorem keeps_flood {msk : Nat} {s0 s : State} (not : Option Nat) (m : SbMsg) (hk : Fr msk s0 s)
    (hm : Sub 268435456 msk := by exact Sub.mono (by assumption) rfl) :
    Fr msk s0 (State.flood s not m) := by
  unfold State.flood
  repeat' first
    | with_reducible assumption | (exact Sub.mono hm rfl) | intro _ | with_reducible apply keeps_each
    | with_reducible apply keeps_sideband | dsimp only

theorem keeps_portMoved {msk : Nat} {s0 s : State} (p : Nat) (hk : Fr msk s0 s)
    (hm : Sub 805306543 msk := by exact Sub.mono (by assumption) rfl) :
    Fr msk s0 (State.portMoved s p) := by
  unfold State.portMoved
  repeat' first
    | with_reducible assumption | (exact Sub.mono hm rfl) | intro _
    | (extract_lets +onlyGivenNames x; refine keeps_have (msk := msk) (s0 := s0) (x := x) ?_ ?_; rotate_left; clear_value x; intro hx; rotate_right; subst x)
    | (extract_lets +onlyGivenNames x; clear_value x) | with_reducible apply keeps_put | with_reducible apply keeps_returned
    | with_reducible apply keeps_useFree | with_reducible apply keeps_ite | dsimp only

theorem keeps_showRoot {msk : Nat} {s0 s : State}  (hk : Fr msk s0 s)
    (hm : Sub 805306543 msk := by exact Sub.mono (by assumption) rfl) :
    Fr msk s0 (State.showRoot s) := by
  unfold State.showRoot
  repeat' first
    | with_reducible assumption | (exact Sub.mono hm rfl) | intro _
    | (extract_lets +onlyGivenNames x; refine keeps_have (msk := msk) (s0 := s0) (x := x) ?_ ?_; rotate_left; clear_value x; intro hx; rotate_right; subst x)
    | (extract_lets +onlyGivenNames x; clear_value x) | with_reducible apply keeps_hiveWatch
    | with_reducible apply keeps_portMoved | with_reducible apply keeps_put | with_reducible apply keeps_setVal
    | with_reducible apply keeps_ite | split | dsimp only

theorem keeps_khGrant {msk : Nat} {s0 s : State} {n : Nat} {p : Nat × State} (e : s.khGrant n = some p) (hk : Fr msk s0 s)
    (hm : Sub 8388608 msk := by exact Sub.mono (by assumption) rfl) :
    Fr msk s0 p.2 := by
  unfold State.khGrant at e
  split at e
  · rw [← Option.some.inj e]
    exact hk
  · simp only [] at e
    split at e
    · cases e
    · rw [← Option.some.inj e]
      repeat' first
        | with_reducible assumption | (exact Sub.mono hm rfl) | intro _
        | (extract_lets +onlyGivenNames x; refine keeps_have (msk := msk) (s0 := s0) (x := x) ?_ ?_; rotate_left; clear_value x; intro hx; rotate_right; subst x)
        | (extract_lets +onlyGivenNames x; refine keeps_have_fst (msk := msk) (s0 := s0) (x := x) ?_ ?_; rotate_left; clear_value x; intro hx; rotate_right; subst x)
        | (extract_lets +onlyGivenNames x; clear_value x) | with_reducible apply keeps_modKh | (simp only [stOf_mk]) | split
        | with_reducible apply keeps_fst | dsimp only

theorem keeps_khTake {msk : Nat} {s0 s : State} (a : Nat) (hk : Fr msk s0 s)
    (hm : Sub 1 msk := by exact Sub.mono (by assumption) rfl) :
    Fr msk s0 (State.khTake s a) := by
  unfold State.khTake
  repeat' first | with_reducible assumption | (exact Sub.mono hm rfl) | intro _ | with_reducible apply keeps_put | dsimp only

theorem keeps_khAsk {msk : Nat} {s0 s : State}  (hk : Fr msk s0 s)
    (hm : Sub 276824065 msk := by exact Sub.mono (by assumption) rfl) :
    Fr msk s0 (State.khAsk s) := by
  unfold State.khAsk
  repeat' first
    | with_reducible assumption | (exact Sub.mono hm rfl) | intro _
    | (extract_lets +onlyGivenNames x; refine keeps_have (msk := msk) (s0 := s0) (x := x) ?_ ?_; rotate_left; clear_value x; intro hx; rotate_right; subst x)
    | (extract_lets +onlyGivenNames x; refine keeps_have_fst (msk := msk) (s0 := s0) (x := x) ?_ ?_; rotate_left; clear_value x; intro hx; rotate_right; subst x)
    | (extract_lets +onlyGivenNames x; clear_value x)
    | (with_reducible refine keeps_khGrant (by with_reducible assumption) ?_) | with_reducible apply keeps_khTake
    | with_reducible apply keeps_modKh | with_reducible apply keeps_put | with_reducible apply keeps_sideband
    | with_reducible apply keeps_ite | with_reducible apply keeps_ite_fst | (simp only [stOf_mk]) | split
    | with_reducible apply keeps_fst | dsimp only

theorem keeps_khFollow {msk : Nat} {s0 s : State} (r : KhRoot) (hk : Fr msk s0 s)
    (hm : Sub 813695151 msk := by exact Sub.mono (by assumption) rfl) :
    Fr msk s0 (State.khFollow s r) := by
  unfold State.khFollow
  repeat' first
    | with_reducible assumption | (exact Sub.mono hm rfl) | intro _
    | (extract_lets +onlyGivenNames x; refine keeps_have (msk := msk) (s0 := s0) (x := x) ?_ ?_; rotate_left; clear_value x; intro hx; rotate_right; subst x)
    | (extract_lets +onlyGivenNames x; clear_value x) | with_reducible apply keeps_khAsk | with_reducible apply keeps_modKh
    | with_reducible apply keeps_showRoot | with_reducible apply keeps_ite | split | dsimp only

theorem keeps_khElect {msk : Nat} {s0 s : State}  (hk : Fr msk s0 s)
    (hm : Sub 813695151 msk := by exact Sub.mono (by assumption) rfl) :
    Fr msk s0 (State.khElect s) := by
  unfold State.khElect
  repeat' first
    | with_reducible assumption | (exact Sub.mono hm rfl) | intro _
    | (extract_lets +onlyGivenNames x; refine keeps_have (msk := msk) (s0 := s0) (x := x) ?_ ?_; rotate_left; clear_value x; intro hx; rotate_right; subst x)
    | (extract_lets +onlyGivenNames x; refine keeps_have_fst (msk := msk) (s0 := s0) (x := x) ?_ ?_; rotate_left; clear_value x; intro hx; rotate_right; subst x)
    | (extract_lets +onlyGivenNames x; clear_value x) | with_reducible apply keeps_khFollow
    | with_reducible apply keeps_modKh | with_reducible apply keeps_showRoot | with_reducible apply keeps_foldl
    | with_reducible apply keeps_foldl_fst | with_reducible apply keeps_ite | with_reducible apply keeps_ite_fst
    | (simp only [stOf_mk]) | split | with_reducible apply keeps_fst | dsimp only

theorem keeps_execKhRootTakeover  {s s' : State}
    (e : execKhRootTakeover  s = .next s') : Fr 813695151 s s' := by
  unfold execKhRootTakeover at e
  refine keeps_next e ?_
  clear e
  have hk := Fr.refl 813695151 s
  have hm : Sub 813695151 813695151 := Sub.refl _
  repeat' first
    | with_reducible assumption | (exact Sub.mono hm rfl) | intro _
    | (extract_lets +onlyGivenNames x; refine keeps_have (msk := 813695151) (s0 := s) (x := x) ?_ ?_; rotate_left; clear_value x; intro hx; rotate_right; subst x)
    | (extract_lets +onlyGivenNames x; clear_value x) | with_reducible apply keeps_khFollow | with_reducible apply keeps_ite
    | split | dsimp only

theorem keeps_execKhRootTimeout  {s s' : State}
    (e : execKhRootTimeout  s = .next s') : Fr 813695151 s s' := by
  unfold execKhRootTimeout at e
  refine keeps_next e ?_
  clear e
  have hk := Fr.refl 813695151 s
  have hm : Sub 813695151 813695151 := Sub.refl _
  repeat' first
    | with_reducible assumption | (exact Sub.mono hm rfl) | intro _
    | (extract_lets +onlyGivenNames x; refine keeps_have (msk := 813695151) (s0 := s) (x := x) ?_ ?_; rotate_left; clear_value x; intro hx; rotate_right; subst x)
    | (extract_lets +onlyGivenNames x; refine keeps_have_fst (msk := 813695151) (s0 := s) (x := x) ?_ ?_; rotate_left; clear_value x; intro hx; rotate_right; subst x)
    | (extract_lets +onlyGivenNames x; clear_value x) | with_reducible apply keeps_khElect | with_reducible apply keeps_modKh
    | with_reducible apply keeps_ite | with_reducible apply keeps_ite_fst | (simp only [stOf_mk]) | split
    | with_reducible apply keeps_fst | dsimp only

theorem keeps_waggleSend {msk : Nat} {s0 s : State}  (hk : Fr msk s0 s)
    (hm : Sub 276824064 msk := by exact Sub.mono (by assumption) rfl) :
    Fr msk s0 (State.waggleSend s) := by
  unfold State.waggleSend
  repeat' first
    | with_reducible assumption | (exact Sub.mono hm rfl) | intro _
    | (extract_lets +onlyGivenNames x; refine keeps_have (msk := msk) (s0 := s0) (x := x) ?_ ?_; rotate_left; clear_value x; intro hx; rotate_right; subst x)
    | (extract_lets +onlyGivenNames x; clear_value x) | with_reducible apply keeps_each | with_reducible apply keeps_modKh
    | with_reducible apply keeps_sideband | with_reducible apply keeps_ite | dsimp only

theorem keeps_execKhWaggleSend  {s s' : State}
    (e : execKhWaggleSend  s = .next s') : Fr 276824064 s s' := by
  unfold execKhWaggleSend at e
  refine keeps_next e ?_
  clear e
  have hk := Fr.refl 276824064 s
  have hm : Sub 276824064 276824064 := Sub.refl _
  repeat' first
    | with_reducible assumption | (exact Sub.mono hm rfl) | intro _ | with_reducible apply keeps_waggleSend | dsimp only

theorem keeps_waggleIn {msk : Nat} {s0 s : State} (dp : Nat) (w : KhWaggle) (hk : Fr msk s0 s)
    (hm : Sub 813695151 msk := by exact Sub.mono (by assumption) rfl) :
    Fr msk s0 (State.waggleIn s dp w) := by
  unfold State.waggleIn
  repeat' first
    | with_reducible assumption | (exact Sub.mono hm rfl) | intro _
    | (extract_lets +onlyGivenNames x; refine keeps_have (msk := msk) (s0 := s0) (x := x) ?_ ?_; rotate_left; clear_value x; intro hx; rotate_right; subst x)
    | (extract_lets +onlyGivenNames x; clear_value x) | with_reducible apply keeps_khElect | with_reducible apply keeps_modKh
    | with_reducible apply keeps_ite | split | dsimp only

theorem keeps_execKhWaggleReceive {dp : Fin 64} {w : KhWaggle} {s s' : State}
    (e : execKhWaggleReceive dp w s = .next s') : Fr 813695151 s s' := by
  unfold execKhWaggleReceive at e
  refine keeps_next e ?_
  clear e
  have hk := Fr.refl 813695151 s
  have hm : Sub 813695151 813695151 := Sub.refl _
  repeat' first
    | with_reducible assumption | (exact Sub.mono hm rfl) | intro _ | with_reducible apply keeps_waggleIn | dsimp only

theorem keeps_lsaSend {msk : Nat} {s0 s : State}  (hk : Fr msk s0 s)
    (hm : Sub 276824064 msk := by exact Sub.mono (by assumption) rfl) :
    Fr msk s0 (State.lsaSend s) := by
  unfold State.lsaSend
  repeat' first
    | with_reducible assumption | (exact Sub.mono hm rfl) | intro _
    | (extract_lets +onlyGivenNames x; refine keeps_have (msk := msk) (s0 := s0) (x := x) ?_ ?_; rotate_left; clear_value x; intro hx; rotate_right; subst x)
    | (extract_lets +onlyGivenNames x; refine keeps_have_fst (msk := msk) (s0 := s0) (x := x) ?_ ?_; rotate_left; clear_value x; intro hx; rotate_right; subst x)
    | (extract_lets +onlyGivenNames x; clear_value x) | with_reducible apply keeps_each | with_reducible apply keeps_flood
    | with_reducible apply keeps_modKh | with_reducible apply keeps_ite | with_reducible apply keeps_ite_fst
    | (simp only [stOf_mk]) | split | with_reducible apply keeps_fst | dsimp only

theorem keeps_execKhLsaSend  {s s' : State}
    (e : execKhLsaSend  s = .next s') : Fr 276824064 s s' := by
  unfold execKhLsaSend at e
  refine keeps_next e ?_
  clear e
  have hk := Fr.refl 276824064 s
  have hm : Sub 276824064 276824064 := Sub.refl _
  repeat' first
    | with_reducible assumption | (exact Sub.mono hm rfl) | intro _ | with_reducible apply keeps_lsaSend
    | with_reducible apply keeps_ite | split | dsimp only

theorem keeps_execKhNeighbourLost {dp : Fin 64} {s s' : State}
    (e : execKhNeighbourLost dp s = .next s') : Fr 813695151 s s' := by
  unfold execKhNeighbourLost at e
  refine keeps_next e ?_
  clear e
  have hk := Fr.refl 813695151 s
  have hm : Sub 813695151 813695151 := Sub.refl _
  repeat' first
    | with_reducible assumption | (exact Sub.mono hm rfl) | intro _
    | (extract_lets +onlyGivenNames x; refine keeps_have (msk := 813695151) (s0 := s) (x := x) ?_ ?_; rotate_left; clear_value x; intro hx; rotate_right; subst x)
    | (extract_lets +onlyGivenNames x; clear_value x) | with_reducible apply keeps_khElect
    | with_reducible apply keeps_lsaSend | with_reducible apply keeps_modKh | with_reducible apply keeps_ite | split
    | dsimp only

theorem keeps_swarmsIn {msk : Nat} {s0 s : State} (dp : Nat) (m : KhSwarms) (hk : Fr msk s0 s)
    (hm : Sub 276824064 msk := by exact Sub.mono (by assumption) rfl) :
    Fr msk s0 (State.swarmsIn s dp m) := by
  unfold State.swarmsIn
  repeat' first
    | with_reducible assumption | (exact Sub.mono hm rfl) | intro _
    | (extract_lets +onlyGivenNames x; refine keeps_have (msk := msk) (s0 := s0) (x := x) ?_ ?_; rotate_left; clear_value x; intro hx; rotate_right; subst x)
    | (extract_lets +onlyGivenNames x; clear_value x) | with_reducible apply keeps_flood | with_reducible apply keeps_modKh
    | with_reducible apply keeps_ite | split | dsimp only

theorem keeps_execKhSwarmsReceive {dp : Fin 64} {m : KhSwarms} {s s' : State}
    (e : execKhSwarmsReceive dp m s = .next s') : Fr 276824064 s s' := by
  unfold execKhSwarmsReceive at e
  refine keeps_next e ?_
  clear e
  have hk := Fr.refl 276824064 s
  have hm : Sub 276824064 276824064 := Sub.refl _
  repeat' first
    | with_reducible assumption | (exact Sub.mono hm rfl) | intro _ | with_reducible apply keeps_swarmsIn | dsimp only

theorem keeps_addrReq {msk : Nat} {s0 s : State} (dp : Nat) (serial : Nat) (hk : Fr msk s0 s)
    (hm : Sub 276824064 msk := by exact Sub.mono (by assumption) rfl) :
    Fr msk s0 (State.addrReq s dp serial) := by
  unfold State.addrReq
  repeat' first
    | with_reducible assumption | (exact Sub.mono hm rfl) | intro _
    | (extract_lets +onlyGivenNames x; refine keeps_have (msk := msk) (s0 := s0) (x := x) ?_ ?_; rotate_left; clear_value x; intro hx; rotate_right; subst x)
    | (extract_lets +onlyGivenNames x; refine keeps_have_fst (msk := msk) (s0 := s0) (x := x) ?_ ?_; rotate_left; clear_value x; intro hx; rotate_right; subst x)
    | (extract_lets +onlyGivenNames x; clear_value x)
    | (with_reducible refine keeps_khGrant (by with_reducible assumption) ?_) | with_reducible apply keeps_modKh
    | with_reducible apply keeps_sideband | with_reducible apply keeps_ite | with_reducible apply keeps_ite_fst
    | (simp only [stOf_mk]) | split | with_reducible apply keeps_fst | dsimp only

theorem keeps_execKhAddrReq {dp : Fin 64} {serial : BitVec 64} {s s' : State}
    (e : execKhAddrReq dp serial s = .next s') : Fr 276824064 s s' := by
  unfold execKhAddrReq at e
  refine keeps_next e ?_
  clear e
  have hk := Fr.refl 276824064 s
  have hm : Sub 276824064 276824064 := Sub.refl _
  repeat' first
    | with_reducible assumption | (exact Sub.mono hm rfl) | intro _ | with_reducible apply keeps_addrReq | dsimp only

theorem keeps_addrGrant {msk : Nat} {s0 s : State} (dp : Nat) (serial : Nat) (addr : Nat) (hk : Fr msk s0 s)
    (hm : Sub 276824065 msk := by exact Sub.mono (by assumption) rfl) :
    Fr msk s0 (State.addrGrant s dp serial addr) := by
  unfold State.addrGrant
  repeat' first
    | with_reducible assumption | (exact Sub.mono hm rfl) | intro _
    | (extract_lets +onlyGivenNames x; refine keeps_have (msk := msk) (s0 := s0) (x := x) ?_ ?_; rotate_left; clear_value x; intro hx; rotate_right; subst x)
    | (extract_lets +onlyGivenNames x; clear_value x) | with_reducible apply keeps_khTake | with_reducible apply keeps_modKh
    | with_reducible apply keeps_sideband | with_reducible apply keeps_ite | split | dsimp only

theorem keeps_execKhAddrGrant {dp : Fin 64} {serial : BitVec 64} {addr : BitVec 16} {s s' : State}
    (e : execKhAddrGrant dp serial addr s = .next s') : Fr 276824065 s s' := by
  unfold execKhAddrGrant at e
  refine keeps_next e ?_
  clear e
  have hk := Fr.refl 276824065 s
  have hm : Sub 276824065 276824065 := Sub.refl _
  repeat' first
    | with_reducible assumption | (exact Sub.mono hm rfl) | intro _ | with_reducible apply keeps_addrGrant | dsimp only

theorem keeps_khJoin {msk : Nat} {s0 s : State}  (hk : Fr msk s0 s)
    (hm : Sub 813695151 msk := by exact Sub.mono (by assumption) rfl) :
    Fr msk s0 (State.khJoin s) := by
  unfold State.khJoin
  repeat' first
    | with_reducible assumption | (exact Sub.mono hm rfl) | intro _
    | (extract_lets +onlyGivenNames x; refine keeps_have (msk := msk) (s0 := s0) (x := x) ?_ ?_; rotate_left; clear_value x; intro hx; rotate_right; subst x)
    | (extract_lets +onlyGivenNames x; clear_value x) | with_reducible apply keeps_khElect
    | with_reducible apply keeps_khTake | with_reducible apply keeps_ite | dsimp only

theorem keeps_khKeep {msk : Nat} {s0 s t : State} (hk : Fr msk s0 t)
    (hm : Sub 813695151 msk := by exact Sub.mono (by assumption) rfl) : Fr msk s0 (State.khKeep s t) := by
  unfold State.khKeep
  repeat' first
    | with_reducible assumption | (exact Sub.mono hm rfl) | intro _ | with_reducible apply keeps_khElect
    | with_reducible apply keeps_lsaSend | with_reducible apply keeps_ite | with_reducible apply keeps_ite_fst
    | (simp only [stOf_mk]) | with_reducible apply keeps_fst | dsimp only

theorem keeps_khKept {msk : Nat} {s0 s : State} {r : State × Nat} (hr : Fr msk s0 (stOf r))
    (hm : Sub 813695151 msk := by exact Sub.mono (by assumption) rfl) : Fr msk s0 (stOf (State.khKept s r)) := by
  unfold State.khKept
  exact keeps_pair (keeps_khKeep hr)

theorem keeps_klPortSet {msk : Nat} {s0 s : State} (dp : Nat) (v : Nat) (hk : Fr msk s0 s)
    (hm : Sub 817889455 msk := by exact Sub.mono (by assumption) rfl) :
    Fr msk s0 (stOf (State.klPortSet s dp v)) := by
  unfold State.klPortSet
  repeat' first
    | with_reducible assumption | (exact Sub.mono hm rfl) | intro _ | with_reducible apply keeps_khKept
    | with_reducible apply keeps_klPortWrite | (simp only [stOf_mk]) | with_reducible apply keeps_fst | dsimp only

theorem keeps_execKlPortEnable {p : Fin 5} {dp : Fin 64} {v : Word} {s s' : State}
    (e : execKlPortEnable p dp v s = .next s') : Fr 817889455 s s' := by
  unfold execKlPortEnable at e
  refine keeps_next e ?_
  clear e
  have hk := Fr.refl 817889455 s
  have hm : Sub 817889455 817889455 := Sub.refl _
  repeat' first
    | with_reducible assumption | (exact Sub.mono hm rfl) | intro _ | with_reducible apply keeps_gatedWrite
    | with_reducible apply keeps_klPortSet | dsimp only

theorem keeps_execKlPortDown {dp : Fin 64} {s s' : State}
    (e : execKlPortDown dp s = .next s') : Fr 817889455 s s' := by
  unfold execKlPortDown at e
  refine keeps_next e ?_
  clear e
  have hk := Fr.refl 817889455 s
  have hm : Sub 817889455 817889455 := Sub.refl _
  repeat' first
    | with_reducible assumption | (exact Sub.mono hm rfl) | intro _ | with_reducible apply keeps_khKeep
    | with_reducible apply keeps_klDown | with_reducible apply keeps_ite | dsimp only

theorem keeps_klSpareSet {msk : Nat} {s0 s : State} (w : Nat) (k : Nat) (v : Nat) (hk : Fr msk s0 s)
    (hm : Sub 817889711 msk := by exact Sub.mono (by assumption) rfl) :
    Fr msk s0 (stOf (State.klSpareSet s w k v)) := by
  unfold State.klSpareSet
  repeat' first
    | with_reducible assumption | (exact Sub.mono hm rfl) | intro _ | with_reducible apply keeps_khKept
    | with_reducible apply keeps_klSpareWrite | (simp only [stOf_mk]) | with_reducible apply keeps_fst | dsimp only

theorem keeps_execKlSpareEnable {p : Fin 5} {r : Fin 2} {k : Fin 4} {v : Word} {s s' : State}
    (e : execKlSpareEnable p r k v s = .next s') : Fr 817889711 s s' := by
  unfold execKlSpareEnable at e
  refine keeps_next e ?_
  clear e
  have hk := Fr.refl 817889711 s
  have hm : Sub 817889711 817889711 := Sub.refl _
  repeat' first
    | with_reducible assumption | (exact Sub.mono hm rfl) | intro _ | with_reducible apply keeps_gatedWrite
    | with_reducible apply keeps_klSpareSet | dsimp only

theorem keeps_execKlSpareSwitch {dp : Fin 64} {tx : Bool} {s s' : State}
    (e : execKlSpareSwitch dp tx s = .next s') : Fr 817889711 s s' := by
  unfold execKlSpareSwitch at e
  refine keeps_next e ?_
  clear e
  have hk := Fr.refl 817889711 s
  have hm : Sub 817889711 817889711 := Sub.refl _
  repeat' first
    | with_reducible assumption | (exact Sub.mono hm rfl) | intro _ | with_reducible apply keeps_khKeep
    | with_reducible apply keeps_spareSwitch | dsimp only

theorem keeps_execKlLaneFail {r : Fin 2} {i : Fin 68} {s s' : State}
    (e : execKlLaneFail r i s = .next s') : Fr 817890735 s s' := by
  unfold execKlLaneFail at e
  refine keeps_next e ?_
  clear e
  have hk := Fr.refl 817890735 s
  have hm : Sub 817890735 817890735 := Sub.refl _
  repeat' first
    | with_reducible assumption | (exact Sub.mono hm rfl) | intro _ | with_reducible apply keeps_khKeep
    | with_reducible apply keeps_laneFail | dsimp only

theorem keeps_nodeShow {msk : Nat} {s0 s : State}  (hk : Fr msk s0 s)
    (hm : Sub 1 msk := by exact Sub.mono (by assumption) rfl) :
    Fr msk s0 (State.nodeShow s) := by
  unfold State.nodeShow
  repeat' first
    | with_reducible assumption | (exact Sub.mono hm rfl) | intro _
    | (extract_lets +onlyGivenNames x; refine keeps_have (msk := msk) (s0 := s0) (x := x) ?_ ?_; rotate_left; clear_value x; intro hx; rotate_right; subst x)
    | (extract_lets +onlyGivenNames x; clear_value x) | with_reducible apply keeps_setVal | with_reducible apply keeps_ite
    | split | dsimp only

theorem keeps_execKhNodeQuery {p : Fin 5} {v : Word} {s s' : State}
    (e : execKhNodeQuery p v s = .next s') : Fr 1 s s' := by
  unfold execKhNodeQuery at e
  refine keeps_next e ?_
  clear e
  have hk := Fr.refl 1 s
  have hm : Sub 1 1 := Sub.refl _
  repeat' first
    | with_reducible assumption | (exact Sub.mono hm rfl) | intro _ | with_reducible apply keeps_gatedWrite
    | with_reducible apply keeps_nodeShow | with_reducible apply keeps_plainWrite | (simp only [stOf_mk]) | dsimp only

/-! ### HiveCtx -/

theorem keeps_modCtx {msk : Nat} {s0 s : State} (c : Nat) (f : KhCtx → KhCtx) (hk : Fr msk s0 s)
    (hm : Sub 8388608 msk := by exact Sub.mono (by assumption) rfl) :
    Fr msk s0 (State.modCtx s c f) := by
  unfold State.modCtx
  repeat' first
    | with_reducible assumption | (exact Sub.mono hm rfl) | intro _
    | (extract_lets +onlyGivenNames x; refine keeps_have (msk := msk) (s0 := s0) (x := x) ?_ ?_; rotate_left; clear_value x; intro hx; rotate_right; subst x)
    | (extract_lets +onlyGivenNames x; clear_value x) | with_reducible apply keeps_modKh | dsimp only

theorem keeps_ctxUntie {msk : Nat} {s0 s : State} (c : Nat) (hk : Fr msk s0 s)
    (hm : Sub 4 msk := by exact Sub.mono (by assumption) rfl) :
    Fr msk s0 (State.ctxUntie s c) := by
  unfold State.ctxUntie
  repeat' first
    | with_reducible assumption | (exact Sub.mono hm rfl) | intro _ | with_reducible apply keeps_each
    | with_reducible apply keeps_freePort | dsimp only

theorem keeps_ctxTiedD {msk : Nat} {s0 s : State} (c rate : Nat) (ks : List Nat) (hk : Fr msk s0 s)
    (hm : Sub 4 msk := by exact Sub.mono (by assumption) rfl) :
    Fr msk s0 ((s.ctxTied c rate ks).getD s) := by
  unfold State.ctxTied
  cases e : (s.ctxUntie c).tieAll (ks.map fun k => (k, ctxTie c, ratioOf (rate * 1000000 : Nat))) with
  | none => exact hk
  | some t => exact keeps_tieAll e (keeps_ctxUntie _ hk)

theorem keeps_sendAnnounce {msk : Nat} {s0 s : State} (dp : Nat) (m : KhAnnounce) (hk : Fr msk s0 s)
    (hm : Sub 268435456 msk := by exact Sub.mono (by assumption) rfl) :
    Fr msk s0 (State.sendAnnounce s dp m) := by
  unfold State.sendAnnounce
  repeat' first
    | with_reducible assumption | (exact Sub.mono hm rfl) | intro _
    | (extract_lets +onlyGivenNames x; refine keeps_have (msk := msk) (s0 := s0) (x := x) ?_ ?_; rotate_left; clear_value x; intro hx; rotate_right; subst x)
    | (extract_lets +onlyGivenNames x; clear_value x) | with_reducible apply keeps_sideband | dsimp only

theorem keeps_ctxOpen {msk : Nat} {s0 s : State} (c : Nat) (hk : Fr msk s0 s)
    (hm : Sub 276824069 msk := by exact Sub.mono (by assumption) rfl) :
    Fr msk s0 (State.ctxOpen s c) := by
  unfold State.ctxOpen
  repeat' first
    | with_reducible assumption | (exact Sub.mono hm rfl) | intro _
    | (extract_lets +onlyGivenNames x; refine keeps_have (msk := msk) (s0 := s0) (x := x) ?_ ?_; rotate_left; clear_value x; intro hx; rotate_right; subst x)
    | (extract_lets +onlyGivenNames x; refine keeps_have_fst (msk := msk) (s0 := s0) (x := x) ?_ ?_; rotate_left; clear_value x; intro hx; rotate_right; subst x)
    | (extract_lets +onlyGivenNames x; clear_value x) | with_reducible apply keeps_ctxTiedD | with_reducible apply keeps_each
    | with_reducible apply keeps_exitReopen | with_reducible apply keeps_modKh | with_reducible apply keeps_put
    | with_reducible apply keeps_sendAnnounce | with_reducible apply keeps_setVal | with_reducible apply keeps_foldl
    | with_reducible apply keeps_foldl_fst | with_reducible apply keeps_ite | with_reducible apply keeps_ite_fst
    | (simp only [stOf_mk]) | with_reducible apply keeps_fst | dsimp only

theorem keeps_ctxRemove {msk : Nat} {s0 s : State} (c : Nat) (hk : Fr msk s0 s)
    (hm : Sub 8388613 msk := by exact Sub.mono (by assumption) rfl) :
    Fr msk s0 (State.ctxRemove s c) := by
  unfold State.ctxRemove
  repeat' first
    | with_reducible assumption | (exact Sub.mono hm rfl) | intro _
    | (extract_lets +onlyGivenNames x; refine keeps_have (msk := msk) (s0 := s0) (x := x) ?_ ?_; rotate_left; clear_value x; intro hx; rotate_right; subst x)
    | (extract_lets +onlyGivenNames x; refine keeps_have_fst (msk := msk) (s0 := s0) (x := x) ?_ ?_; rotate_left; clear_value x; intro hx; rotate_right; subst x)
    | (extract_lets +onlyGivenNames x; clear_value x) | with_reducible apply keeps_ctxUntie | with_reducible apply keeps_each
    | with_reducible apply keeps_modKh | with_reducible apply keeps_put | with_reducible apply keeps_setReg
    | with_reducible apply keeps_setVal | with_reducible apply keeps_ite | with_reducible apply keeps_ite_fst
    | (simp only [stOf_mk]) | with_reducible apply keeps_fst | dsimp only

theorem keeps_ctxForget {msk : Nat} {s0 s : State} (c : Nat) (claim : Bool) (hk : Fr msk s0 s)
    (hm : Sub 8388613 msk := by exact Sub.mono (by assumption) rfl) :
    Fr msk s0 (State.ctxForget s c claim) := by
  unfold State.ctxForget
  repeat' first
    | with_reducible assumption | (exact Sub.mono hm rfl) | intro _
    | (extract_lets +onlyGivenNames x; refine keeps_have (msk := msk) (s0 := s0) (x := x) ?_ ?_; rotate_left; clear_value x; intro hx; rotate_right; subst x)
    | (extract_lets +onlyGivenNames x; clear_value x) | with_reducible apply keeps_ctxRemove
    | with_reducible apply keeps_setVal | with_reducible apply keeps_ite | dsimp only

theorem keeps_ctxClose {msk : Nat} {s0 s : State} (c : Nat) (hk : Fr msk s0 s)
    (hm : Sub 276824069 msk := by exact Sub.mono (by assumption) rfl) :
    Fr msk s0 (State.ctxClose s c) := by
  unfold State.ctxClose
  repeat' first
    | with_reducible assumption | (exact Sub.mono hm rfl) | intro _
    | (extract_lets +onlyGivenNames x; refine keeps_have (msk := msk) (s0 := s0) (x := x) ?_ ?_; rotate_left; clear_value x; intro hx; rotate_right; subst x)
    | (extract_lets +onlyGivenNames x; clear_value x) | with_reducible apply keeps_ctxRemove
    | with_reducible apply keeps_each | with_reducible apply keeps_sendAnnounce | with_reducible apply keeps_setVal
    | with_reducible apply keeps_ite | dsimp only

theorem keeps_ctxCtlWrite {msk : Nat} {s0 s : State} (c : Nat) (v : Nat) (hk : Fr msk s0 s)
    (hm : Sub 276824069 msk := by exact Sub.mono (by assumption) rfl) :
    Fr msk s0 (stOf (State.ctxCtlWrite s c v)) := by
  unfold State.ctxCtlWrite
  repeat' first
    | with_reducible assumption | (exact Sub.mono hm rfl) | intro _
    | (extract_lets +onlyGivenNames x; refine keeps_have (msk := msk) (s0 := s0) (x := x) ?_ ?_; rotate_left; clear_value x; intro hx; rotate_right; subst x)
    | (extract_lets +onlyGivenNames x; refine keeps_have_fst (msk := msk) (s0 := s0) (x := x) ?_ ?_; rotate_left; clear_value x; intro hx; rotate_right; subst x)
    | (extract_lets +onlyGivenNames x; clear_value x) | with_reducible apply keeps_answer
    | with_reducible apply keeps_ctxClose | with_reducible apply keeps_ctxOpen | with_reducible apply keeps_put
    | with_reducible apply keeps_setVal | with_reducible apply keeps_ite | with_reducible apply keeps_ite_fst
    | (simp only [stOf_mk]) | split | with_reducible apply keeps_fst | dsimp only

theorem keeps_execKhScOn {p : Fin 5} {c : Fin 4096} {v : Word} {s s' : State}
    (e : execKhScOn p c v s = .next s') : Fr 276824069 s s' := by
  unfold execKhScOn at e
  refine keeps_next e ?_
  clear e
  have hk := Fr.refl 276824069 s
  have hm : Sub 276824069 276824069 := Sub.refl _
  repeat' first
    | with_reducible assumption | (exact Sub.mono hm rfl) | intro _ | with_reducible apply keeps_ctxCtlWrite
    | with_reducible apply keeps_gatedWrite | dsimp only

theorem keeps_ctxSetWrite {msk : Nat} {s0 s : State} (name : RegName) (c : Nat) (a : Nat) (v : Nat) (hk : Fr msk s0 s)
    (hm : Sub 1 msk := by exact Sub.mono (by assumption) rfl) :
    Fr msk s0 (stOf (State.ctxSetWrite s name c a v)) := by
  unfold State.ctxSetWrite
  repeat' first
    | with_reducible assumption | (exact Sub.mono hm rfl) | intro _
    | (extract_lets +onlyGivenNames x; refine keeps_have (msk := msk) (s0 := s0) (x := x) ?_ ?_; rotate_left; clear_value x; intro hx; rotate_right; subst x)
    | (extract_lets +onlyGivenNames x; refine keeps_have_fst (msk := msk) (s0 := s0) (x := x) ?_ ?_; rotate_left; clear_value x; intro hx; rotate_right; subst x)
    | (extract_lets +onlyGivenNames x; clear_value x) | with_reducible apply keeps_answer
    | with_reducible apply keeps_plainWrite | with_reducible apply keeps_put | with_reducible apply keeps_ite
    | with_reducible apply keeps_ite_fst | (simp only [stOf_mk]) | split | with_reducible apply keeps_fst | dsimp only

theorem keeps_ctxAuto {msk : Nat} {s0 s : State} (stream : BitVec 16) (dest : Nat) (cls : Nat) (budget : Nat) (lead : Nat) (maxrec : Nat) (rate : Nat) (kind : Nat) (index : Nat) (hk : Fr msk s0 s)
    (hm : Sub 276824069 msk := by exact Sub.mono (by assumption) rfl) :
    Fr msk s0 (stOf (State.ctxAuto s stream dest cls budget lead maxrec rate kind index)) := by
  unfold State.ctxAuto
  repeat' first
    | with_reducible assumption | (exact Sub.mono hm rfl) | intro _
    | (extract_lets +onlyGivenNames x; refine keeps_have (msk := msk) (s0 := s0) (x := x) ?_ ?_; rotate_left; clear_value x; intro hx; rotate_right; subst x)
    | (extract_lets +onlyGivenNames x; refine keeps_have_fst (msk := msk) (s0 := s0) (x := x) ?_ ?_; rotate_left; clear_value x; intro hx; rotate_right; subst x)
    | (extract_lets +onlyGivenNames x; clear_value x) | with_reducible apply keeps_ctxOpen | with_reducible apply keeps_put
    | with_reducible apply keeps_setVal | with_reducible apply keeps_ite | with_reducible apply keeps_ite_fst
    | (simp only [stOf_mk]) | split | with_reducible apply keeps_fst | dsimp only

theorem keeps_ctxAutoClose {msk : Nat} {s0 s : State} (stream : BitVec 16) (kind : Nat) (hk : Fr msk s0 s)
    (hm : Sub 276824069 msk := by exact Sub.mono (by assumption) rfl) :
    Fr msk s0 (State.ctxAutoClose s stream kind) := by
  unfold State.ctxAutoClose
  repeat' first
    | with_reducible assumption | (exact Sub.mono hm rfl) | intro _
    | (extract_lets +onlyGivenNames x; refine keeps_have (msk := msk) (s0 := s0) (x := x) ?_ ?_; rotate_left; clear_value x; intro hx; rotate_right; subst x)
    | (extract_lets +onlyGivenNames x; clear_value x) | with_reducible apply keeps_ctxClose | split | dsimp only

theorem keeps_ctxAutoLocal {msk : Nat} {s0 s : State} (stream : BitVec 16) (kind : Nat) (index : Nat) (hk : Fr msk s0 s)
    (hm : Sub 8388609 msk := by exact Sub.mono (by assumption) rfl) :
    Fr msk s0 (State.ctxAutoLocal s stream kind index) := by
  unfold State.ctxAutoLocal
  repeat' first
    | with_reducible assumption | (exact Sub.mono hm rfl) | intro _
    | (extract_lets +onlyGivenNames x; refine keeps_have (msk := msk) (s0 := s0) (x := x) ?_ ?_; rotate_left; clear_value x; intro hx; rotate_right; subst x)
    | (extract_lets +onlyGivenNames x; clear_value x) | with_reducible apply keeps_modCtx | with_reducible apply keeps_put
    | with_reducible apply keeps_setVal | split | dsimp only

theorem keeps_beamAuto {msk : Nat} {s0 s : State} (b : Nat) (hk : Fr msk s0 s)
    (hm : Sub 276824069 msk := by exact Sub.mono (by assumption) rfl) :
    Fr msk s0 (stOf (State.beamAuto s b)) := by
  unfold State.beamAuto
  repeat' first
    | with_reducible assumption | (exact Sub.mono hm rfl) | intro _
    | (extract_lets +onlyGivenNames x; refine keeps_have (msk := msk) (s0 := s0) (x := x) ?_ ?_; rotate_left; clear_value x; intro hx; rotate_right; subst x)
    | (extract_lets +onlyGivenNames x; refine keeps_have_fst (msk := msk) (s0 := s0) (x := x) ?_ ?_; rotate_left; clear_value x; intro hx; rotate_right; subst x)
    | (extract_lets +onlyGivenNames x; clear_value x) | with_reducible apply keeps_ctxAuto | with_reducible apply keeps_ite
    | with_reducible apply keeps_ite_fst | (simp only [stOf_mk]) | with_reducible apply keeps_fst | dsimp only

theorem keeps_beamCtlWrite {msk : Nat} {s0 s : State} (b : Nat) (v : Nat) (hk : Fr msk s0 s)
    (hm : Sub 278921221 msk := by exact Sub.mono (by assumption) rfl) :
    Fr msk s0 (stOf (State.beamCtlWrite s b v)) := by
  unfold State.beamCtlWrite
  repeat' first
    | with_reducible assumption | (exact Sub.mono hm rfl) | intro _
    | (extract_lets +onlyGivenNames x; refine keeps_have (msk := msk) (s0 := s0) (x := x) ?_ ?_; rotate_left; clear_value x; intro hx; rotate_right; subst x)
    | (extract_lets +onlyGivenNames x; refine keeps_have_fst (msk := msk) (s0 := s0) (x := x) ?_ ?_; rotate_left; clear_value x; intro hx; rotate_right; subst x)
    | (extract_lets +onlyGivenNames x; clear_value x) | with_reducible apply keeps_beamAuto
    | with_reducible apply keeps_beamStart | with_reducible apply keeps_beamStop | with_reducible apply keeps_ctxAutoClose
    | with_reducible apply keeps_enableWrite | with_reducible apply keeps_ite | with_reducible apply keeps_ite_fst
    | (simp only [stOf_mk]) | split | with_reducible apply keeps_fst | dsimp only

theorem keeps_execCeBmEnable {p : Fin 5} {b : Fin 32} {v : Word} {s s' : State}
    (e : execCeBmEnable p b v s = .next s') : Fr 278921221 s s' := by
  unfold execCeBmEnable at e
  refine keeps_next e ?_
  clear e
  have hk := Fr.refl 278921221 s
  have hm : Sub 278921221 278921221 := Sub.refl _
  repeat' first
    | with_reducible assumption | (exact Sub.mono hm rfl) | intro _ | with_reducible apply keeps_beamCtlWrite
    | with_reducible apply keeps_gatedWrite | dsimp only

theorem keeps_fabricAuto {msk : Nat} {s0 s : State} (r : Nat) (hk : Fr msk s0 s)
    (hm : Sub 276824069 msk := by exact Sub.mono (by assumption) rfl) :
    Fr msk s0 (State.fabricAuto s r) := by
  unfold State.fabricAuto
  repeat' first
    | with_reducible assumption | (exact Sub.mono hm rfl) | intro _
    | (extract_lets +onlyGivenNames x; refine keeps_have (msk := msk) (s0 := s0) (x := x) ?_ ?_; rotate_left; clear_value x; intro hx; rotate_right; subst x)
    | (extract_lets +onlyGivenNames x; refine keeps_have_fst (msk := msk) (s0 := s0) (x := x) ?_ ?_; rotate_left; clear_value x; intro hx; rotate_right; subst x)
    | (extract_lets +onlyGivenNames x; clear_value x) | with_reducible apply keeps_ctxAuto
    | with_reducible apply keeps_ctxClose | with_reducible apply keeps_ite | with_reducible apply keeps_ite_fst
    | (simp only [stOf_mk]) | split | (with_reducible apply keeps_id) | with_reducible apply keeps_fst | dsimp only

theorem keeps_tgUnitWrite {msk : Nat} {s0 s : State} (r : Nat) (u : Nat) (v : Nat) (hk : Fr msk s0 s)
    (hm : Sub 813958149 msk := by exact Sub.mono (by assumption) rfl) :
    Fr msk s0 (stOf (State.tgUnitWrite s r u v)) := by
  unfold State.tgUnitWrite
  repeat' first
    | with_reducible assumption | (exact Sub.mono hm rfl) | intro _
    | (extract_lets +onlyGivenNames x; refine keeps_have (msk := msk) (s0 := s0) (x := x) ?_ ?_; rotate_left; clear_value x; intro hx; rotate_right; subst x)
    | (extract_lets +onlyGivenNames x; refine keeps_have_fst (msk := msk) (s0 := s0) (x := x) ?_ ?_; rotate_left; clear_value x; intro hx; rotate_right; subst x)
    | (extract_lets +onlyGivenNames x; clear_value x) | with_reducible apply keeps_fabricAuto
    | with_reducible apply keeps_tgCtlWrite | (simp only [stOf_mk]) | with_reducible apply keeps_fst | dsimp only

theorem keeps_execTgUnitEnable {p : Fin 5} {r : Fin 5} {u : Fin 16} {v : Word} {s s' : State}
    (e : execTgUnitEnable p r u v s = .next s') : Fr 813958149 s s' := by
  unfold execTgUnitEnable at e
  refine keeps_next e ?_
  clear e
  have hk := Fr.refl 813958149 s
  have hm : Sub 813958149 813958149 := Sub.refl _
  repeat' first
    | with_reducible assumption | (exact Sub.mono hm rfl) | intro _ | with_reducible apply keeps_gatedWrite
    | with_reducible apply keeps_tgUnitWrite | with_reducible apply keeps_ite | dsimp only

theorem keeps_execTgUnitDisable {p : Fin 5} {r : Fin 5} {u : Fin 16} {s s' : State}
    (e : execTgUnitDisable p r u s = .next s') : Fr 813958149 s s' := by
  unfold execTgUnitDisable at e
  refine keeps_next e ?_
  clear e
  have hk := Fr.refl 813958149 s
  have hm : Sub 813958149 813958149 := Sub.refl _
  repeat' first
    | with_reducible assumption | (exact Sub.mono hm rfl) | intro _ | with_reducible apply keeps_gatedWrite
    | with_reducible apply keeps_tgUnitWrite | with_reducible apply keeps_ite | dsimp only

theorem keeps_khAnswer {msk : Nat} {s0 s : State} (dp : Nat) (m : KhAnnounce) (reason : Nat) (bound : Nat) (hk : Fr msk s0 s)
    (hm : Sub 268435457 msk := by exact Sub.mono (by assumption) rfl) :
    Fr msk s0 (State.khAnswer s dp m reason bound) := by
  unfold State.khAnswer
  repeat' first
    | with_reducible assumption | (exact Sub.mono hm rfl) | intro _ | with_reducible apply keeps_answer
    | with_reducible apply keeps_sideband | with_reducible apply keeps_ite | dsimp only

theorem keeps_ctxInstall {msk : Nat} {s0 s : State} (c : Nat) (dp : Nat) (m : KhAnnounce) (outs : List Nat) (here : Bool) (sink : Nat × Nat) (claim : Bool) (hk : Fr msk s0 s)
    (hm : Sub 8388613 msk := by exact Sub.mono (by assumption) rfl) :
    Fr msk s0 (State.ctxInstall s c dp m outs here sink claim) := by
  unfold State.ctxInstall
  repeat' first
    | with_reducible assumption | (exact Sub.mono hm rfl) | intro _
    | (extract_lets +onlyGivenNames x; refine keeps_have (msk := msk) (s0 := s0) (x := x) ?_ ?_; rotate_left; clear_value x; intro hx; rotate_right; subst x)
    | (extract_lets +onlyGivenNames x; refine keeps_have_fst (msk := msk) (s0 := s0) (x := x) ?_ ?_; rotate_left; clear_value x; intro hx; rotate_right; subst x)
    | (extract_lets +onlyGivenNames x; clear_value x) | with_reducible apply keeps_ctxTiedD
    | with_reducible apply keeps_modCtx | with_reducible apply keeps_put | with_reducible apply keeps_setVal
    | with_reducible apply keeps_ite | with_reducible apply keeps_ite_fst | (simp only [stOf_mk])
    | with_reducible apply keeps_fst | dsimp only

theorem keeps_announceClose {msk : Nat} {s0 s : State} (dp : Nat) (m : KhAnnounce) (hk : Fr msk s0 s)
    (hm : Sub 276824069 msk := by exact Sub.mono (by assumption) rfl) :
    Fr msk s0 (State.announceClose s dp m) := by
  unfold State.announceClose
  repeat' first
    | with_reducible assumption | (exact Sub.mono hm rfl) | intro _
    | (extract_lets +onlyGivenNames x; refine keeps_have (msk := msk) (s0 := s0) (x := x) ?_ ?_; rotate_left; clear_value x; intro hx; rotate_right; subst x)
    | (extract_lets +onlyGivenNames x; clear_value x) | with_reducible apply keeps_ctxForget
    | with_reducible apply keeps_each | with_reducible apply keeps_sendAnnounce | with_reducible apply keeps_ite | split
    | dsimp only

theorem keeps_announceIn {msk : Nat} {s0 s : State} (dp : Nat) (m : KhAnnounce) (hk : Fr msk s0 s)
    (hm : Sub 276824069 msk := by exact Sub.mono (by assumption) rfl) :
    Fr msk s0 (State.announceIn s dp m) := by
  unfold State.announceIn
  repeat' first
    | with_reducible assumption | (exact Sub.mono hm rfl) | intro _
    | (extract_lets +onlyGivenNames x; refine keeps_have (msk := msk) (s0 := s0) (x := x) ?_ ?_; rotate_left; clear_value x; intro hx; rotate_right; subst x)
    | (extract_lets +onlyGivenNames x; refine keeps_have_fst (msk := msk) (s0 := s0) (x := x) ?_ ?_; rotate_left; clear_value x; intro hx; rotate_right; subst x)
    | (extract_lets +onlyGivenNames x; clear_value x) | with_reducible apply keeps_announceClose
    | with_reducible apply keeps_ctxInstall | with_reducible apply keeps_ctxTiedD | with_reducible apply keeps_each
    | with_reducible apply keeps_khAnswer | with_reducible apply keeps_modCtx | with_reducible apply keeps_sendAnnounce
    | with_reducible apply keeps_ite | with_reducible apply keeps_ite_fst | (simp only [stOf_mk]) | split
    | with_reducible apply keeps_fst | dsimp only

theorem keeps_execKhAnnounce {dp : Fin 64} {m : KhAnnounce} {s s' : State}
    (e : execKhAnnounce dp m s = .next s') : Fr 276824069 s s' := by
  unfold execKhAnnounce at e
  refine keeps_next e ?_
  clear e
  have hk := Fr.refl 276824069 s
  have hm : Sub 276824069 276824069 := Sub.refl _
  repeat' first
    | with_reducible assumption | (exact Sub.mono hm rfl) | intro _ | with_reducible apply keeps_announceIn | dsimp only

theorem keeps_ctxAnswered {msk : Nat} {s0 s : State} (c : Nat) (hk : Fr msk s0 s)
    (hm : Sub 278921221 msk := by exact Sub.mono (by assumption) rfl) :
    Fr msk s0 (State.ctxAnswered s c) := by
  unfold State.ctxAnswered
  repeat' first
    | with_reducible assumption | with_reducible apply keeps_answer | with_reducible apply keeps_beamStop
    | with_reducible apply keeps_ctxClose | with_reducible apply keeps_ctxForget | with_reducible apply keeps_put
    | with_reducible apply keeps_sideband | (extract_lets +onlyGivenNames x; refine keeps_fun (x := x) ?_; subst x)
    | (exact Sub.mono hm rfl) | intro _
    | (extract_lets +onlyGivenNames x; refine keeps_have (msk := msk) (s0 := s0) (x := x) ?_ ?_; rotate_left; clear_value x; intro hx; rotate_right; subst x)
    | (extract_lets +onlyGivenNames x; clear_value x) | with_reducible apply keeps_ite | split | dsimp only

theorem keeps_answerIn {msk : Nat} {s0 s : State} (dp : Nat) (m : KhAnswer) (hk : Fr msk s0 s)
    (hm : Sub 278921221 msk := by exact Sub.mono (by assumption) rfl) :
    Fr msk s0 (State.answerIn s dp m) := by
  unfold State.answerIn
  repeat' first
    | with_reducible assumption | (exact Sub.mono hm rfl) | intro _
    | (extract_lets +onlyGivenNames x; refine keeps_have (msk := msk) (s0 := s0) (x := x) ?_ ?_; rotate_left; clear_value x; intro hx; rotate_right; subst x)
    | (extract_lets +onlyGivenNames x; clear_value x) | with_reducible apply keeps_ctxAnswered
    | with_reducible apply keeps_modCtx | with_reducible apply keeps_ite | split | dsimp only

theorem keeps_execKhAnswer {dp : Fin 64} {m : KhAnswer} {s s' : State}
    (e : execKhAnswer dp m s = .next s') : Fr 278921221 s s' := by
  unfold execKhAnswer at e
  refine keeps_next e ?_
  clear e
  have hk := Fr.refl 278921221 s
  have hm : Sub 278921221 278921221 := Sub.refl _
  repeat' first
    | with_reducible assumption | (exact Sub.mono hm rfl) | intro _ | with_reducible apply keeps_answerIn | dsimp only

theorem keeps_khFreed {msk : Nat} {s0 s : State} (from_ : Option Nat) (cls : Nat) (r : YRec) (hk : Fr msk s0 s)
    (hm : Sub 4194304 msk := by exact Sub.mono (by assumption) rfl) :
    Fr msk s0 (State.khFreed s from_ cls r) := by
  unfold State.khFreed
  repeat' first
    | with_reducible assumption | (exact Sub.mono hm rfl) | intro _
    | (extract_lets +onlyGivenNames x; refine keeps_have (msk := msk) (s0 := s0) (x := x) ?_ ?_; rotate_left; clear_value x; intro hx; rotate_right; subst x)
    | (extract_lets +onlyGivenNames x; clear_value x) | with_reducible apply keeps_modKlPort | split | dsimp only

theorem keeps_khDone {msk : Nat} {s0 s : State} (from_ : Option Nat) (c : Nat) (cls : Nat) (r : YRec) (hk : Fr msk s0 s)
    (hm : Sub 4194304 msk := by exact Sub.mono (by assumption) rfl) :
    Fr msk s0 (State.khDone s from_ c cls r) := by
  unfold State.khDone
  repeat' first
    | with_reducible assumption | (exact Sub.mono hm rfl) | intro _
    | (extract_lets +onlyGivenNames x; refine keeps_have (msk := msk) (s0 := s0) (x := x) ?_ ?_; rotate_left; clear_value x; intro hx; rotate_right; subst x)
    | (extract_lets +onlyGivenNames x; refine keeps_have_fst (msk := msk) (s0 := s0) (x := x) ?_ ?_; rotate_left; clear_value x; intro hx; rotate_right; subst x)
    | (extract_lets +onlyGivenNames x; clear_value x) | with_reducible apply keeps_khFreed | with_reducible apply keeps_ite
    | with_reducible apply keeps_ite_fst | (simp only [stOf_mk]) | split | with_reducible apply keeps_fst | dsimp only

theorem keeps_ctxEnd {msk : Nat} {s0 s : State} (c : Nat) (hk : Fr msk s0 s)
    (hm : Sub 281018373 msk := by exact Sub.mono (by assumption) rfl) :
    Fr msk s0 (State.ctxEnd s c) := by
  unfold State.ctxEnd
  repeat' first
    | with_reducible assumption | (exact Sub.mono hm rfl) | intro _
    | (extract_lets +onlyGivenNames x; refine keeps_have (msk := msk) (s0 := s0) (x := x) ?_ ?_; rotate_left; clear_value x; intro hx; rotate_right; subst x)
    | (extract_lets +onlyGivenNames x; refine keeps_have_fst (msk := msk) (s0 := s0) (x := x) ?_ ?_; rotate_left; clear_value x; intro hx; rotate_right; subst x)
    | (extract_lets +onlyGivenNames x; clear_value x) | with_reducible apply keeps_each | with_reducible apply keeps_emit
    | with_reducible apply keeps_khDone | with_reducible apply keeps_modCtx | with_reducible apply keeps_put
    | with_reducible apply keeps_sendRecord | with_reducible apply keeps_ite | with_reducible apply keeps_ite_fst
    | (simp only [stOf_mk]) | (with_reducible apply keeps_id) | with_reducible apply keeps_fst | dsimp only

theorem keeps_ctxMove {msk : Nat} {s0 s : State} (c : Nat) (hk : Fr msk s0 s)
    (hm : Sub 281018535 msk := by exact Sub.mono (by assumption) rfl) :
    Fr msk s0 (State.ctxMove s c) := by
  unfold State.ctxMove
  repeat' first
    | with_reducible assumption | (exact Sub.mono hm rfl) | intro _
    | (extract_lets +onlyGivenNames x; refine keeps_have (msk := msk) (s0 := s0) (x := x) ?_ ?_; rotate_left; clear_value x; intro hx; rotate_right; subst x)
    | (extract_lets +onlyGivenNames x; clear_value x) | with_reducible apply keeps_ctxEnd
    | with_reducible apply keeps_ctxOpen | with_reducible apply keeps_ctxTiedD | with_reducible apply keeps_each
    | with_reducible apply keeps_modCtx | with_reducible apply keeps_put | with_reducible apply keeps_raiseAlarm
    | with_reducible apply keeps_sendAnnounce | with_reducible apply keeps_ite | split | dsimp only

theorem keeps_routeInstall {msk : Nat} {s0 s : State}  (hk : Fr msk s0 s)
    (hm : Sub 817889455 msk := by exact Sub.mono (by assumption) rfl) :
    Fr msk s0 (State.routeInstall s) := by
  unfold State.routeInstall
  repeat' first
    | with_reducible assumption | (exact Sub.mono hm rfl) | intro _
    | (extract_lets +onlyGivenNames x; refine keeps_have (msk := msk) (s0 := s0) (x := x) ?_ ?_; rotate_left; clear_value x; intro hx; rotate_right; subst x)
    | (extract_lets +onlyGivenNames x; refine keeps_have_fst (msk := msk) (s0 := s0) (x := x) ?_ ?_; rotate_left; clear_value x; intro hx; rotate_right; subst x)
    | (extract_lets +onlyGivenNames x; clear_value x) | with_reducible apply keeps_count | with_reducible apply keeps_ctxMove
    | with_reducible apply keeps_each | with_reducible apply keeps_modKh | with_reducible apply keeps_nodeShow
    | with_reducible apply keeps_put | with_reducible apply keeps_raiseAlarm | with_reducible apply keeps_showRoot
    | with_reducible apply keeps_ite | with_reducible apply keeps_ite_fst | (simp only [stOf_mk]) | split
    | with_reducible apply keeps_fst | dsimp only

theorem keeps_execKhRouteInstall  {s s' : State}
    (e : execKhRouteInstall  s = .next s') : Fr 817889455 s s' := by
  unfold execKhRouteInstall at e
  refine keeps_next e ?_
  clear e
  have hk := Fr.refl 817889455 s
  have hm : Sub 817889455 817889455 := Sub.refl _
  repeat' first
    | with_reducible assumption | (exact Sub.mono hm rfl) | intro _ | with_reducible apply keeps_routeInstall | dsimp only

theorem keeps_addrConflict {msk : Nat} {s0 s : State}  (hk : Fr msk s0 s)
    (hm : Sub 281018535 msk := by exact Sub.mono (by assumption) rfl) :
    Fr msk s0 (State.addrConflict s) := by
  unfold State.addrConflict
  repeat' first
    | with_reducible assumption | (exact Sub.mono hm rfl) | intro _
    | (extract_lets +onlyGivenNames x; refine keeps_have (msk := msk) (s0 := s0) (x := x) ?_ ?_; rotate_left; clear_value x; intro hx; rotate_right; subst x)
    | (extract_lets +onlyGivenNames x; clear_value x) | with_reducible apply keeps_ctxEnd | with_reducible apply keeps_each
    | with_reducible apply keeps_khAsk | with_reducible apply keeps_put | with_reducible apply keeps_raiseAlarm | split
    | dsimp only

theorem keeps_lsaIn {msk : Nat} {s0 s : State} (dp : Nat) (m : KhLsa) (hk : Fr msk s0 s)
    (hm : Sub 281018535 msk := by exact Sub.mono (by assumption) rfl) :
    Fr msk s0 (State.lsaIn s dp m) := by
  unfold State.lsaIn
  repeat' first
    | with_reducible assumption | (exact Sub.mono hm rfl) | intro _
    | (extract_lets +onlyGivenNames x; refine keeps_have (msk := msk) (s0 := s0) (x := x) ?_ ?_; rotate_left; clear_value x; intro hx; rotate_right; subst x)
    | (extract_lets +onlyGivenNames x; clear_value x) | with_reducible apply keeps_addrConflict
    | with_reducible apply keeps_flood | with_reducible apply keeps_modKh | with_reducible apply keeps_raiseAlarm
    | with_reducible apply keeps_ite | split | dsimp only

theorem keeps_execKhLsaReceive {dp : Fin 64} {m : KhLsa} {s s' : State}
    (e : execKhLsaReceive dp m s = .next s') : Fr 281018535 s s' := by
  unfold execKhLsaReceive at e
  refine keeps_next e ?_
  clear e
  have hk := Fr.refl 281018535 s
  have hm : Sub 281018535 281018535 := Sub.refl _
  repeat' first
    | with_reducible assumption | (exact Sub.mono hm rfl) | intro _ | with_reducible apply keeps_lsaIn | dsimp only

theorem keeps_ctxRecord {msk : Nat} {s0 s : State} (c : Nat) (from_ : Option Nat) (r : YRec) (hk : Fr msk s0 s)
    (hm : Sub 8388608 msk := by exact Sub.mono (by assumption) rfl) :
    Fr msk s0 (State.ctxRecord s c from_ r) := by
  unfold State.ctxRecord
  repeat' first
    | with_reducible assumption | (exact Sub.mono hm rfl) | intro _
    | (extract_lets +onlyGivenNames x; refine keeps_have (msk := msk) (s0 := s0) (x := x) ?_ ?_; rotate_left; clear_value x; intro hx; rotate_right; subst x)
    | (extract_lets +onlyGivenNames x; clear_value x) | with_reducible apply keeps_each | with_reducible apply keeps_modCtx
    | with_reducible apply keeps_modKh | with_reducible apply keeps_ite | dsimp only

theorem keeps_hivePull {msk : Nat} {s0 s : State}  (hk : Fr msk s0 s)
    (hm : Sub 8388613 msk := by exact Sub.mono (by assumption) rfl) :
    Fr msk s0 (State.hivePull s) := by
  unfold State.hivePull
  repeat' first
    | with_reducible assumption | (exact Sub.mono hm rfl) | intro _
    | (extract_lets +onlyGivenNames x; refine keeps_have (msk := msk) (s0 := s0) (x := x) ?_ ?_; rotate_left; clear_value x; intro hx; rotate_right; subst x)
    | (extract_lets +onlyGivenNames x; clear_value x) | with_reducible apply keeps_count
    | with_reducible apply keeps_ctxRecord | with_reducible apply keeps_each | with_reducible apply keeps_modCtx
    | with_reducible apply keeps_ite | split | dsimp only | with_reducible apply keeps_flow

theorem keeps_recordStart {msk : Nat} {s0 s : State} (dp : Nat) (hk : Fr msk s0 s)
    (hm : Sub 281018373 msk := by exact Sub.mono (by assumption) rfl) :
    Fr msk s0 (State.recordStart s dp) := by
  unfold State.recordStart
  repeat' first
    | with_reducible assumption | with_reducible apply keeps_count | with_reducible apply keeps_emit
    | with_reducible apply keeps_hivePull | with_reducible apply keeps_khDone | with_reducible apply keeps_modKh
    | with_reducible apply keeps_modKlPort | with_reducible apply keeps_put
    | (extract_lets +onlyGivenNames x; refine keeps_fun (x := x) ?_; subst x) | (exact Sub.mono hm rfl) | intro _
    | (extract_lets +onlyGivenNames x; refine keeps_have (msk := msk) (s0 := s0) (x := x) ?_ ?_; rotate_left; clear_value x; intro hx; rotate_right; subst x)
    | (extract_lets +onlyGivenNames x; clear_value x) | with_reducible apply keeps_ite | split | dsimp only

theorem keeps_execKhRecordStart {dp : Fin 64} {s s' : State}
    (e : execKhRecordStart dp s = .next s') : Fr 281018373 s s' := by
  unfold execKhRecordStart at e
  refine keeps_next e ?_
  clear e
  have hk := Fr.refl 281018373 s
  have hm : Sub 281018373 281018373 := Sub.refl _
  repeat' first
    | with_reducible assumption | (exact Sub.mono hm rfl) | intro _ | with_reducible apply keeps_inIsland
    | with_reducible apply keeps_recordStart | dsimp only

theorem keeps_recordIn {msk : Nat} {s0 s : State} (dp : Nat) (cls : Nat) (r : YRec) (hk : Fr msk s0 s)
    (hm : Sub 12582913 msk := by exact Sub.mono (by assumption) rfl) :
    Fr msk s0 (State.recordIn s dp cls r) := by
  unfold State.recordIn
  repeat' first
    | with_reducible assumption | (exact Sub.mono hm rfl) | intro _
    | (extract_lets +onlyGivenNames x; refine keeps_have (msk := msk) (s0 := s0) (x := x) ?_ ?_; rotate_left; clear_value x; intro hx; rotate_right; subst x)
    | (extract_lets +onlyGivenNames x; clear_value x) | with_reducible apply keeps_count
    | with_reducible apply keeps_ctxRecord | with_reducible apply keeps_khDone | with_reducible apply keeps_khFreed
    | with_reducible apply keeps_ite | split | dsimp only

theorem keeps_execKlRecordReceive {dp : Fin 64} {cls : Fin 3} {r : YRec} {s s' : State}
    (e : execKlRecordReceive dp cls r s = .next s') : Fr 12582913 s s' := by
  unfold execKlRecordReceive at e
  refine keeps_next e ?_
  clear e
  have hk := Fr.refl 12582913 s
  have hm : Sub 12582913 12582913 := Sub.refl _
  repeat' first
    | with_reducible assumption | (exact Sub.mono hm rfl) | intro _ | with_reducible apply keeps_inIsland
    | with_reducible apply keeps_recordIn | dsimp only

theorem keeps_ctxOwe {msk : Nat} {s0 s : State} (c : Nat) (g : YRec) (hk : Fr msk s0 s)
    (hm : Sub 8388608 msk := by exact Sub.mono (by assumption) rfl) :
    Fr msk s0 (State.ctxOwe s c g) := by
  unfold State.ctxOwe
  repeat' first
    | with_reducible assumption | (exact Sub.mono hm rfl) | intro _
    | (extract_lets +onlyGivenNames x; refine keeps_have (msk := msk) (s0 := s0) (x := x) ?_ ?_; rotate_left; clear_value x; intro hx; rotate_right; subst x)
    | (extract_lets +onlyGivenNames x; clear_value x) | with_reducible apply keeps_modCtx | with_reducible apply keeps_ite
    | split | dsimp only

theorem keeps_recordDeliver {msk : Nat} {s0 s : State} (c : Nat) (room : Bool) (hk : Fr msk s0 s)
    (hm : Sub 817889285 msk := by exact Sub.mono (by assumption) rfl) :
    Fr msk s0 (State.recordDeliver s c room) := by
  unfold State.recordDeliver
  repeat' first
    | with_reducible assumption | (exact Sub.mono hm rfl) | intro _
    | (extract_lets +onlyGivenNames x; refine keeps_have (msk := msk) (s0 := s0) (x := x) ?_ ?_; rotate_left; clear_value x; intro hx; rotate_right; subst x)
    | (extract_lets +onlyGivenNames x; clear_value x) | with_reducible apply keeps_count | with_reducible apply keeps_ctxOwe
    | with_reducible apply keeps_each | with_reducible apply keeps_emit | with_reducible apply keeps_hivePull
    | with_reducible apply keeps_khDone | with_reducible apply keeps_modCtx | with_reducible apply keeps_useFree
    | with_reducible apply keeps_ite | split | dsimp only

theorem keeps_execKhRecordDeliver {c : Fin 4096} {room : Bool} {s s' : State}
    (e : execKhRecordDeliver c room s = .next s') : Fr 817889285 s s' := by
  unfold execKhRecordDeliver at e
  refine keeps_next e ?_
  clear e
  have hk := Fr.refl 817889285 s
  have hm : Sub 817889285 817889285 := Sub.refl _
  repeat' first
    | with_reducible assumption | (exact Sub.mono hm rfl) | intro _ | with_reducible apply keeps_recordDeliver | dsimp only

theorem keeps_execKhCreditSend {dp : Fin 64} {s s' : State}
    (e : execKhCreditSend dp s = .next s') : Fr 272629760 s s' := by
  unfold execKhCreditSend at e
  refine keeps_next e ?_
  clear e
  have hk := Fr.refl 272629760 s
  have hm : Sub 272629760 272629760 := Sub.refl _
  repeat' first
    | with_reducible assumption | (exact Sub.mono hm rfl) | intro _
    | (extract_lets +onlyGivenNames x; refine keeps_have (msk := 272629760) (s0 := s) (x := x) ?_ ?_; rotate_left; clear_value x; intro hx; rotate_right; subst x)
    | (extract_lets +onlyGivenNames x; clear_value x) | with_reducible apply keeps_modKlPort
    | with_reducible apply keeps_sideband | with_reducible apply keeps_ite | dsimp only

theorem keeps_execKhCreditReceive {dp : Fin 64} {control : Word} {stream : Word} {bulk : Word} {s s' : State}
    (e : execKhCreditReceive dp control stream bulk s = .next s') : Fr 4194304 s s' := by
  unfold execKhCreditReceive at e
  refine keeps_next e ?_
  clear e
  have hk := Fr.refl 4194304 s
  have hm : Sub 4194304 4194304 := Sub.refl _
  repeat' first
    | with_reducible assumption | (exact Sub.mono hm rfl) | intro _
    | (extract_lets +onlyGivenNames x; refine keeps_have (msk := 4194304) (s0 := s) (x := x) ?_ ?_; rotate_left; clear_value x; intro hx; rotate_right; subst x)
    | (extract_lets +onlyGivenNames x; clear_value x) | with_reducible apply keeps_modKlPort | with_reducible apply keeps_ite
    | dsimp only

theorem keeps_khLeave {msk : Nat} {s0 s : State}  (hk : Fr msk s0 s)
    (hm : Sub 817889455 msk := by exact Sub.mono (by assumption) rfl) :
    Fr msk s0 (State.khLeave s) := by
  unfold State.khLeave
  repeat' first
    | with_reducible assumption | (exact Sub.mono hm rfl) | intro _
    | (extract_lets +onlyGivenNames x; refine keeps_have (msk := msk) (s0 := s0) (x := x) ?_ ?_; rotate_left; clear_value x; intro hx; rotate_right; subst x)
    | (extract_lets +onlyGivenNames x; clear_value x) | with_reducible apply keeps_ctxEnd | with_reducible apply keeps_each
    | with_reducible apply keeps_modKh | with_reducible apply keeps_showRoot | dsimp only

theorem keeps_khCfgWrite {msk : Nat} {s0 s : State} (v : Nat) (hk : Fr msk s0 s)
    (hm : Sub 817889455 msk := by exact Sub.mono (by assumption) rfl) :
    Fr msk s0 (stOf (State.khCfgWrite s v)) := by
  unfold State.khCfgWrite
  repeat' first
    | with_reducible assumption | (exact Sub.mono hm rfl) | intro _ | with_reducible apply keeps_enableWrite
    | with_reducible apply keeps_khJoin | with_reducible apply keeps_khLeave | with_reducible apply keeps_ite
    | with_reducible apply keeps_ite_fst | (simp only [stOf_mk]) | with_reducible apply keeps_fst | dsimp only

theorem keeps_khRangeWrite {msk : Nat} {s0 s : State} (a : Nat) (v : Nat) (hk : Fr msk s0 s)
    (hm : Sub 1 msk := by exact Sub.mono (by assumption) rfl) :
    Fr msk s0 (stOf (State.khRangeWrite s a v)) := by
  unfold State.khRangeWrite
  repeat' first
    | with_reducible assumption | with_reducible apply keeps_answer | with_reducible apply keeps_plainWrite
    | with_reducible apply keeps_put | (extract_lets +onlyGivenNames x; refine keeps_fun (x := x) ?_; subst x)
    | (exact Sub.mono hm rfl) | intro _
    | (extract_lets +onlyGivenNames x; refine keeps_have (msk := msk) (s0 := s0) (x := x) ?_ ?_; rotate_left; clear_value x; intro hx; rotate_right; subst x)
    | (extract_lets +onlyGivenNames x; refine keeps_have_fst (msk := msk) (s0 := s0) (x := x) ?_ ?_; rotate_left; clear_value x; intro hx; rotate_right; subst x)
    | (extract_lets +onlyGivenNames x; clear_value x) | with_reducible apply keeps_ite | with_reducible apply keeps_ite_fst
    | (simp only [stOf_mk]) | split | with_reducible apply keeps_fst | dsimp only

theorem keeps_mgCtlWrite {msk : Nat} {s0 s : State} (v : Nat) (hk : Fr msk s0 s)
    (hm : Sub 276824065 msk := by exact Sub.mono (by assumption) rfl) :
    Fr msk s0 (stOf (State.mgCtlWrite s v)) := by
  unfold State.mgCtlWrite
  repeat' first
    | with_reducible assumption | (exact Sub.mono hm rfl) | intro _
    | (extract_lets +onlyGivenNames x; refine keeps_have (msk := msk) (s0 := s0) (x := x) ?_ ?_; rotate_left; clear_value x; intro hx; rotate_right; subst x)
    | (extract_lets +onlyGivenNames x; refine keeps_have_fst (msk := msk) (s0 := s0) (x := x) ?_ ?_; rotate_left; clear_value x; intro hx; rotate_right; subst x)
    | (extract_lets +onlyGivenNames x; clear_value x) | with_reducible apply keeps_answer | with_reducible apply keeps_modKh
    | with_reducible apply keeps_put | with_reducible apply keeps_sideband | with_reducible apply keeps_ite
    | with_reducible apply keeps_ite_fst | (simp only [stOf_mk]) | split | with_reducible apply keeps_fst | dsimp only

theorem keeps_execKhMgGo {p : Fin 5} {v : Word} {s s' : State}
    (e : execKhMgGo p v s = .next s') : Fr 276824065 s s' := by
  unfold execKhMgGo at e
  refine keeps_next e ?_
  clear e
  have hk := Fr.refl 276824065 s
  have hm : Sub 276824065 276824065 := Sub.refl _
  repeat' first
    | with_reducible assumption | (exact Sub.mono hm rfl) | intro _ | with_reducible apply keeps_gatedWrite
    | with_reducible apply keeps_mgCtlWrite | dsimp only

theorem keeps_mrspIn {msk : Nat} {s0 s : State} (dp : Nat) (m : KhMrsp) (hk : Fr msk s0 s)
    (hm : Sub 276824065 msk := by exact Sub.mono (by assumption) rfl) :
    Fr msk s0 (State.mrspIn s dp m) := by
  unfold State.mrspIn
  repeat' first
    | with_reducible assumption | (exact Sub.mono hm rfl) | intro _
    | (extract_lets +onlyGivenNames x; refine keeps_have (msk := msk) (s0 := s0) (x := x) ?_ ?_; rotate_left; clear_value x; intro hx; rotate_right; subst x)
    | (extract_lets +onlyGivenNames x; clear_value x) | with_reducible apply keeps_modKh | with_reducible apply keeps_put
    | with_reducible apply keeps_setReg | with_reducible apply keeps_sideband | with_reducible apply keeps_ite | split
    | dsimp only

theorem keeps_execKhMrsp {dp : Fin 64} {m : KhMrsp} {s s' : State}
    (e : execKhMrsp dp m s = .next s') : Fr 276824065 s s' := by
  unfold execKhMrsp at e
  refine keeps_next e ?_
  clear e
  have hk := Fr.refl 276824065 s
  have hm : Sub 276824065 276824065 := Sub.refl _
  repeat' first
    | with_reducible assumption | (exact Sub.mono hm rfl) | intro _ | with_reducible apply keeps_mrspIn | dsimp only

theorem keeps_execKhMgTimeout  {s s' : State}
    (e : execKhMgTimeout  s = .next s') : Fr 8388609 s s' := by
  unfold execKhMgTimeout at e
  refine keeps_next e ?_
  clear e
  have hk := Fr.refl 8388609 s
  have hm : Sub 8388609 8388609 := Sub.refl _
  repeat' first
    | with_reducible assumption | (exact Sub.mono hm rfl) | intro _
    | (extract_lets +onlyGivenNames x; refine keeps_have (msk := 8388609) (s0 := s) (x := x) ?_ ?_; rotate_left; clear_value x; intro hx; rotate_right; subst x)
    | (extract_lets +onlyGivenNames x; clear_value x) | with_reducible apply keeps_modKh | with_reducible apply keeps_put
    | with_reducible apply keeps_ite | split | dsimp only

/-! ### Codeword -/

theorem keeps_sbByte {msk : Nat} {s0 s : State} (r : Nat) (i : Nat) (ctl : Nat) (b : Byte) (hk : Fr msk s0 s)
    (hm : Sub 272629761 msk := by exact Sub.mono (by assumption) rfl) :
    Fr msk s0 (State.sbByte s r i ctl b) := by
  unfold State.sbByte
  repeat' first
    | with_reducible assumption | with_reducible apply keeps_count | with_reducible apply keeps_emit
    | with_reducible apply keeps_modLane | (extract_lets +onlyGivenNames x; refine keeps_fun (x := x) ?_; subst x)
    | (exact Sub.mono hm rfl) | intro _
    | (extract_lets +onlyGivenNames x; refine keeps_have (msk := msk) (s0 := s0) (x := x) ?_ ?_; rotate_left; clear_value x; intro hx; rotate_right; subst x)
    | (extract_lets +onlyGivenNames x; clear_value x) | with_reducible apply keeps_ite | split | dsimp only

theorem keeps_recAbort {msk : Nat} {s0 s : State} (dp : Nat) (skip : Bool) (hk : Fr msk s0 s)
    (hm : Sub 4194305 msk := by exact Sub.mono (by assumption) rfl) :
    Fr msk s0 (State.recAbort s dp skip) := by
  unfold State.recAbort
  repeat' first
    | with_reducible assumption | (exact Sub.mono hm rfl) | intro _
    | (extract_lets +onlyGivenNames x; refine keeps_have (msk := msk) (s0 := s0) (x := x) ?_ ?_; rotate_left; clear_value x; intro hx; rotate_right; subst x)
    | (extract_lets +onlyGivenNames x; clear_value x) | with_reducible apply keeps_count
    | with_reducible apply keeps_modKlPort | with_reducible apply keeps_ite | dsimp only

theorem keeps_recTake {msk : Nat} {s0 s : State} (dp n : Nat) (hk : Fr msk s0 s)
    (hm : Sub 12582913 msk := by exact Sub.mono (by assumption) rfl) : Fr msk s0 (State.recTake s dp n) := by
  induction n generalizing s with
  | zero => exact hk
  | succ n ih =>
    unfold State.recTake
    repeat' first
      | with_reducible assumption | (exact Sub.mono hm rfl) | intro _
      | (extract_lets +onlyGivenNames x; refine keeps_have (msk := msk) (s0 := s0) (x := x) ?_ ?_; rotate_left; clear_value x; intro hx; rotate_right; subst x)
      | (extract_lets +onlyGivenNames x; refine keeps_have_fst (msk := msk) (s0 := s0) (x := x) ?_ ?_; rotate_left; clear_value x; intro hx; rotate_right; subst x)
      | (extract_lets +onlyGivenNames x; clear_value x) | with_reducible apply ih | with_reducible apply keeps_modKlPort
      | with_reducible apply keeps_recAbort | with_reducible apply keeps_recordIn | with_reducible apply keeps_ite
      | with_reducible apply keeps_ite_fst | (simp only [stOf_mk]) | split | with_reducible apply keeps_fst | dsimp only

theorem keeps_linkFrame {msk : Nat} {s0 s : State} (dp : Nat) (tag : Nat) (bs : List Byte) (hk : Fr msk s0 s)
    (hm : Sub 12582913 msk := by exact Sub.mono (by assumption) rfl) :
    Fr msk s0 (State.linkFrame s dp tag bs) := by
  unfold State.linkFrame
  repeat' first
    | with_reducible assumption | (exact Sub.mono hm rfl) | intro _
    | (extract_lets +onlyGivenNames x; refine keeps_have (msk := msk) (s0 := s0) (x := x) ?_ ?_; rotate_left; clear_value x; intro hx; rotate_right; subst x)
    | (extract_lets +onlyGivenNames x; clear_value x) | with_reducible apply keeps_modKlPort
    | with_reducible apply keeps_recAbort | with_reducible apply keeps_recTake | with_reducible apply keeps_ite | dsimp only

theorem keeps_klDrain {msk : Nat} {s0 s : State} (dp n : Nat) (hk : Fr msk s0 s)
    (hm : Sub 12582913 msk := by exact Sub.mono (by assumption) rfl) : Fr msk s0 (State.klDrain s dp n) := by
  induction n generalizing s with
  | zero => exact hk
  | succ n ih =>
    unfold State.klDrain
    repeat' first
      | with_reducible assumption | (exact Sub.mono hm rfl) | intro _
      | (extract_lets +onlyGivenNames x; refine keeps_have (msk := msk) (s0 := s0) (x := x) ?_ ?_; rotate_left; clear_value x; intro hx; rotate_right; subst x)
      | (extract_lets +onlyGivenNames x; refine keeps_have_fst (msk := msk) (s0 := s0) (x := x) ?_ ?_; rotate_left; clear_value x; intro hx; rotate_right; subst x)
      | (extract_lets +onlyGivenNames x; clear_value x) | with_reducible apply ih | with_reducible apply keeps_modKlPort
      | with_reducible apply keeps_modLane | with_reducible apply keeps_recAbort | with_reducible apply keeps_each
      | with_reducible apply keeps_linkFrame | (simp only [stOf_mk]) | split | with_reducible apply keeps_fst | dsimp only

theorem keeps_laneWatch {msk : Nat} {s0 s : State} (r : Nat) (i : Nat) (corrected : Option Nat) (hk : Fr msk s0 s)
    (hm : Sub 817890735 msk := by exact Sub.mono (by assumption) rfl) :
    Fr msk s0 (State.laneWatch s r i corrected) := by
  unfold State.laneWatch
  repeat' first
    | with_reducible assumption | (exact Sub.mono hm rfl) | intro _
    | (extract_lets +onlyGivenNames x; refine keeps_have (msk := msk) (s0 := s0) (x := x) ?_ ?_; rotate_left; clear_value x; intro hx; rotate_right; subst x)
    | (extract_lets +onlyGivenNames x; refine keeps_have_fst (msk := msk) (s0 := s0) (x := x) ?_ ?_; rotate_left; clear_value x; intro hx; rotate_right; subst x)
    | (extract_lets +onlyGivenNames x; clear_value x) | with_reducible apply keeps_laneFail
    | with_reducible apply keeps_modLane | with_reducible apply keeps_ite | with_reducible apply keeps_ite_fst
    | (simp only [stOf_mk]) | with_reducible apply keeps_fst | dsimp only

theorem keeps_codeword {msk : Nat} {s0 s : State} (r : Nat) (i : Nat) (cw : Codeword) (hk : Fr msk s0 s)
    (hm : Sub 817890735 msk := by exact Sub.mono (by assumption) rfl) :
    Fr msk s0 (State.codeword s r i cw) := by
  unfold State.codeword
  repeat' first
    | with_reducible assumption | (exact Sub.mono hm rfl) | intro _
    | (extract_lets +onlyGivenNames x; refine keeps_have (msk := msk) (s0 := s0) (x := x) ?_ ?_; rotate_left; clear_value x; intro hx; rotate_right; subst x)
    | (extract_lets +onlyGivenNames x; clear_value x) | with_reducible apply keeps_count | with_reducible apply keeps_klDrain
    | with_reducible apply keeps_laneLock | with_reducible apply keeps_laneWatch | with_reducible apply keeps_modLane
    | with_reducible apply keeps_sbByte | with_reducible apply keeps_setPair | with_reducible apply keeps_ite | split
    | dsimp only

theorem keeps_execKlCodewordReceive {r : Fin 2} {i : Fin 68} {cw : Codeword} {s s' : State}
    (e : execKlCodewordReceive r i cw s = .next s') : Fr 817890735 s s' := by
  unfold execKlCodewordReceive at e
  refine keeps_next e ?_
  clear e
  have hk := Fr.refl 817890735 s
  have hm : Sub 817890735 817890735 := Sub.refl _
  repeat' first
    | with_reducible assumption | (exact Sub.mono hm rfl) | intro _ | with_reducible apply keeps_codeword
    | with_reducible apply keeps_khKeep | dsimp only

end Sys2Proof.Machine
end

