-- ==== Sys2Proof/Laws/KeepsHost.lean ====
section
/-! SUPPORT. Laws/KeepsHost.lean: every operation of the model keeps what `Keeps` (Safety.lean) says; here the bindery, DMA and queues, display, the binding image.
Each lemma follows the body of its operation: a let, a branch, a fold, a record update, or the law of the operation it calls. -/

set_option linter.all false

namespace Sys2Proof.Machine

set_option Elab.async false

/-! ### Bindery -/

theorem keeps_modBd {msk : Nat} {s0 s : State} (f : BdSt → BdSt) (hk : Fr msk s0 s)
    (hm : Sub 16777216 msk := by exact Sub.mono (by assumption) rfl) :
    Fr msk s0 (State.modBd s f) := by
  unfold State.modBd
  repeat' first
    | with_reducible assumption | (exact Sub.mono hm rfl) | intro _
    | (extract_lets +onlyGivenNames x; refine keeps_have (msk := msk) (s0 := s0) (x := x) ?_ ?_; rotate_left; clear_value x; intro hx; rotate_right; subst x)
    | (extract_lets +onlyGivenNames x; clear_value x) | dsimp only | with_reducible apply keeps_bd

theorem keeps_modFlash {msk : Nat} {s0 s : State} (c : Nat) (f : BdChan → BdChan) (hk : Fr msk s0 s)
    (hm : Sub 16777216 msk := by exact Sub.mono (by assumption) rfl) :
    Fr msk s0 (State.modFlash s c f) := by
  unfold State.modFlash
  repeat' first
    | with_reducible assumption | (exact Sub.mono hm rfl) | intro _
    | (extract_lets +onlyGivenNames x; refine keeps_have (msk := msk) (s0 := s0) (x := x) ?_ ?_; rotate_left; clear_value x; intro hx; rotate_right; subst x)
    | (extract_lets +onlyGivenNames x; clear_value x) | with_reducible apply keeps_modBd | dsimp only

theorem keeps_modUnit {msk : Nat} {s0 s : State} (u : Nat) (f : BdUnit → BdUnit) (hk : Fr msk s0 s)
    (hm : Sub 16777216 msk := by exact Sub.mono (by assumption) rfl) :
    Fr msk s0 (State.modUnit s u f) := by
  unfold State.modUnit
  repeat' first
    | with_reducible assumption | (exact Sub.mono hm rfl) | intro _
    | (extract_lets +onlyGivenNames x; refine keeps_have (msk := msk) (s0 := s0) (x := x) ?_ ?_; rotate_left; clear_value x; intro hx; rotate_right; subst x)
    | (extract_lets +onlyGivenNames x; clear_value x) | with_reducible apply keeps_modBd | dsimp only

theorem keeps_modSec {msk : Nat} {s0 s : State} (n : Nat) (f : BdSec → BdSec) (hk : Fr msk s0 s)
    (hm : Sub 16777216 msk := by exact Sub.mono (by assumption) rfl) :
    Fr msk s0 (State.modSec s n f) := by
  unfold State.modSec
  repeat' first
    | with_reducible assumption | (exact Sub.mono hm rfl) | intro _
    | (extract_lets +onlyGivenNames x; refine keeps_have (msk := msk) (s0 := s0) (x := x) ?_ ?_; rotate_left; clear_value x; intro hx; rotate_right; subst x)
    | (extract_lets +onlyGivenNames x; clear_value x) | with_reducible apply keeps_modBd | split | dsimp only

theorem keeps_modVol {msk : Nat} {s0 s : State} (v : Nat) (f : BdVol → BdVol) (hk : Fr msk s0 s)
    (hm : Sub 16777216 msk := by exact Sub.mono (by assumption) rfl) :
    Fr msk s0 (State.modVol s v f) := by
  unfold State.modVol
  repeat' first
    | with_reducible assumption | (exact Sub.mono hm rfl) | intro _
    | (extract_lets +onlyGivenNames x; refine keeps_have (msk := msk) (s0 := s0) (x := x) ?_ ?_; rotate_left; clear_value x; intro hx; rotate_right; subst x)
    | (extract_lets +onlyGivenNames x; clear_value x) | with_reducible apply keeps_modBd | split | dsimp only

theorem keeps_modVolSlot {msk : Nat} {s0 s : State} (i : Nat) (f : BdSlot → BdSlot) (hk : Fr msk s0 s)
    (hm : Sub 16777216 msk := by exact Sub.mono (by assumption) rfl) :
    Fr msk s0 (State.modVolSlot s i f) := by
  unfold State.modVolSlot
  repeat' first
    | with_reducible assumption | (exact Sub.mono hm rfl) | intro _
    | (extract_lets +onlyGivenNames x; refine keeps_have (msk := msk) (s0 := s0) (x := x) ?_ ?_; rotate_left; clear_value x; intro hx; rotate_right; subst x)
    | (extract_lets +onlyGivenNames x; clear_value x) | with_reducible apply keeps_modBd | split | dsimp only

theorem keeps_showFlash {msk : Nat} {s0 s : State} (c : Nat) (hk : Fr msk s0 s)
    (hm : Sub 1 msk := by exact Sub.mono (by assumption) rfl) :
    Fr msk s0 (State.showFlash s c) := by
  unfold State.showFlash
  repeat' first
    | with_reducible assumption | with_reducible apply keeps_setVal | with_reducible apply keeps_foldl
    | with_reducible apply keeps_foldl_fst | (extract_lets +onlyGivenNames x; refine keeps_fun (x := x) ?_; subst x)
    | (exact Sub.mono hm rfl) | intro _
    | (extract_lets +onlyGivenNames x; refine keeps_have (msk := msk) (s0 := s0) (x := x) ?_ ?_; rotate_left; clear_value x; intro hx; rotate_right; subst x)
    | (extract_lets +onlyGivenNames x; refine keeps_have_fst (msk := msk) (s0 := s0) (x := x) ?_ ?_; rotate_left; clear_value x; intro hx; rotate_right; subst x)
    | (extract_lets +onlyGivenNames x; clear_value x) | (simp only [stOf_mk]) | with_reducible apply keeps_fst | dsimp only

theorem keeps_showMedia {msk : Nat} {s0 s : State}  (hk : Fr msk s0 s)
    (hm : Sub 268435623 msk := by exact Sub.mono (by assumption) rfl) :
    Fr msk s0 (State.showMedia s) := by
  unfold State.showMedia
  repeat' first
    | with_reducible assumption | (exact Sub.mono hm rfl) | intro _
    | (extract_lets +onlyGivenNames x; refine keeps_have (msk := msk) (s0 := s0) (x := x) ?_ ?_; rotate_left; clear_value x; intro hx; rotate_right; subst x)
    | (extract_lets +onlyGivenNames x; refine keeps_have_fst (msk := msk) (s0 := s0) (x := x) ?_ ?_; rotate_left; clear_value x; intro hx; rotate_right; subst x)
    | (extract_lets +onlyGivenNames x; clear_value x) | with_reducible apply keeps_beginLevel
    | with_reducible apply keeps_each | with_reducible apply keeps_endLevel | with_reducible apply keeps_put
    | with_reducible apply keeps_showFlash | with_reducible apply keeps_foldl | with_reducible apply keeps_foldl_fst
    | with_reducible apply keeps_ite | with_reducible apply keeps_ite_fst | (simp only [stOf_mk]) | split
    | with_reducible apply keeps_fst | dsimp only | with_reducible apply keeps_power

theorem keeps_showCat {msk : Nat} {s0 s : State}  (hk : Fr msk s0 s)
    (hm : Sub 1 msk := by exact Sub.mono (by assumption) rfl) :
    Fr msk s0 (State.showCat s) := by
  unfold State.showCat
  repeat' first
    | with_reducible assumption | (exact Sub.mono hm rfl) | intro _
    | (extract_lets +onlyGivenNames x; refine keeps_have (msk := msk) (s0 := s0) (x := x) ?_ ?_; rotate_left; clear_value x; intro hx; rotate_right; subst x)
    | (extract_lets +onlyGivenNames x; clear_value x) | with_reducible apply keeps_put | with_reducible apply keeps_setVal
    | split | (with_reducible apply keeps_id) | dsimp only

theorem keeps_showRates {msk : Nat} {s0 s : State}  (hk : Fr msk s0 s)
    (hm : Sub 1 msk := by exact Sub.mono (by assumption) rfl) :
    Fr msk s0 (State.showRates s) := by
  unfold State.showRates
  repeat' first
    | with_reducible assumption | (exact Sub.mono hm rfl) | intro _
    | (extract_lets +onlyGivenNames x; refine keeps_have (msk := msk) (s0 := s0) (x := x) ?_ ?_; rotate_left; clear_value x; intro hx; rotate_right; subst x)
    | (extract_lets +onlyGivenNames x; refine keeps_have_fst (msk := msk) (s0 := s0) (x := x) ?_ ?_; rotate_left; clear_value x; intro hx; rotate_right; subst x)
    | (extract_lets +onlyGivenNames x; clear_value x) | with_reducible apply keeps_put | (simp only [stOf_mk])
    | with_reducible apply keeps_fst | dsimp only

theorem keeps_formSection {msk : Nat} {s0 s t : State} {v n : Nat} {l : List Nat} (e : s.formSection v l = some (n, t)) (hk : Fr msk s0 s)
    (hm : Sub 16777216 msk := by exact Sub.mono (by assumption) rfl) :
    Fr msk s0 t := by
  unfold State.formSection at e
  simp only [] at e
  split at e
  · cases e
  · simp only [Option.some.injEq, Prod.mk.injEq] at e
    rw [← e.2]
    repeat' first
      | with_reducible assumption | (exact Sub.mono hm rfl) | intro _
      | (extract_lets +onlyGivenNames x; refine keeps_have (msk := msk) (s0 := s0) (x := x) ?_ ?_; rotate_left; clear_value x; intro hx; rotate_right; subst x)
      | (extract_lets +onlyGivenNames x; refine keeps_have_fst (msk := msk) (s0 := s0) (x := x) ?_ ?_; rotate_left; clear_value x; intro hx; rotate_right; subst x)
      | (extract_lets +onlyGivenNames x; clear_value x) | with_reducible apply keeps_modBd
      | with_reducible apply keeps_modUnit | with_reducible apply keeps_each | with_reducible apply keeps_ite
      | with_reducible apply keeps_ite_fst | (simp only [stOf_mk]) | split | (with_reducible apply keeps_id)
      | with_reducible apply keeps_fst | dsimp only

theorem keeps_showRebuild {msk : Nat} {s0 s : State}  (hk : Fr msk s0 s)
    (hm : Sub 1 msk := by exact Sub.mono (by assumption) rfl) :
    Fr msk s0 (State.showRebuild s) := by
  unfold State.showRebuild
  repeat' first
    | with_reducible assumption | (exact Sub.mono hm rfl) | intro _ | with_reducible apply keeps_put
    | with_reducible apply keeps_ite | with_reducible apply keeps_ite_fst | (simp only [stOf_mk])
    | with_reducible apply keeps_fst | dsimp only

theorem keeps_dropSection {msk : Nat} {s0 s : State} (n : Nat) (hk : Fr msk s0 s)
    (hm : Sub 16777216 msk := by exact Sub.mono (by assumption) rfl) :
    Fr msk s0 (State.dropSection s n) := by
  unfold State.dropSection
  repeat' first
    | with_reducible assumption | (exact Sub.mono hm rfl) | intro _
    | (extract_lets +onlyGivenNames x; refine keeps_have (msk := msk) (s0 := s0) (x := x) ?_ ?_; rotate_left; clear_value x; intro hx; rotate_right; subst x)
    | (extract_lets +onlyGivenNames x; clear_value x) | with_reducible apply keeps_each | with_reducible apply keeps_modSec
    | with_reducible apply keeps_modUnit | dsimp only

theorem keeps_loseLeaves {msk : Nat} {s0 s : State} (n : Nat) (k : Nat) (hk : Fr msk s0 s)
    (hm : Sub 16777217 msk := by exact Sub.mono (by assumption) rfl) :
    Fr msk s0 (State.loseLeaves s n k) := by
  unfold State.loseLeaves
  repeat' first
    | with_reducible assumption | (exact Sub.mono hm rfl) | intro _
    | (extract_lets +onlyGivenNames x; refine keeps_have (msk := msk) (s0 := s0) (x := x) ?_ ?_; rotate_left; clear_value x; intro hx; rotate_right; subst x)
    | (extract_lets +onlyGivenNames x; clear_value x) | with_reducible apply keeps_count | with_reducible apply keeps_modBd
    | with_reducible apply keeps_ite | split | dsimp only

theorem keeps_retireMember {msk : Nat} {s0 s : State} (n : Nat) (c : Nat) (hk : Fr msk s0 s)
    (hm : Sub 16777217 msk := by exact Sub.mono (by assumption) rfl) :
    Fr msk s0 (State.retireMember s n c) := by
  unfold State.retireMember
  repeat' first
    | with_reducible assumption | (exact Sub.mono hm rfl) | intro _
    | (extract_lets +onlyGivenNames x; refine keeps_have (msk := msk) (s0 := s0) (x := x) ?_ ?_; rotate_left; clear_value x; intro hx; rotate_right; subst x)
    | (extract_lets +onlyGivenNames x; refine keeps_have_fst (msk := msk) (s0 := s0) (x := x) ?_ ?_; rotate_left; clear_value x; intro hx; rotate_right; subst x)
    | (extract_lets +onlyGivenNames x; clear_value x) | with_reducible apply keeps_loseLeaves
    | with_reducible apply keeps_modBd | with_reducible apply keeps_modSec | with_reducible apply keeps_showRebuild
    | with_reducible apply keeps_ite | with_reducible apply keeps_ite_fst | (simp only [stOf_mk]) | split
    | with_reducible apply keeps_fst | dsimp only

theorem keeps_retireLun {msk : Nat} {s0 s : State} (c : Nat) (l : Nat) (hk : Fr msk s0 s)
    (hm : Sub 16777217 msk := by exact Sub.mono (by assumption) rfl) :
    Fr msk s0 (State.retireLun s c l) := by
  unfold State.retireLun
  repeat' first
    | with_reducible assumption | (exact Sub.mono hm rfl) | intro _ | with_reducible apply keeps_each
    | with_reducible apply keeps_retireMember | (simp only [stOf_mk]) | with_reducible apply keeps_fst | dsimp only

theorem keeps_keyEnd {msk : Nat} {s0 s : State} (i : Nat) (k : Nat × Nat) (hk : Fr msk s0 s)
    (hm : Sub 268435460 msk := by exact Sub.mono (by assumption) rfl) :
    Fr msk s0 (State.keyEnd s i k) := by
  unfold State.keyEnd
  repeat' first
    | with_reducible assumption | (exact Sub.mono hm rfl) | intro _
    | (extract_lets +onlyGivenNames x; refine keeps_have (msk := msk) (s0 := s0) (x := x) ?_ ?_; rotate_left; clear_value x; intro hx; rotate_right; subst x)
    | (extract_lets +onlyGivenNames x; refine keeps_have_fst (msk := msk) (s0 := s0) (x := x) ?_ ?_; rotate_left; clear_value x; intro hx; rotate_right; subst x)
    | (extract_lets +onlyGivenNames x; clear_value x) | with_reducible apply keeps_sendRecord
    | with_reducible apply keeps_ite | with_reducible apply keeps_ite_fst | (simp only [stOf_mk])
    | (with_reducible apply keeps_id) | with_reducible apply keeps_fst | dsimp only

theorem keeps_bdGone {msk : Nat} {s0 s : State}  (hk : Fr msk s0 s)
    (hm : Sub 293601285 msk := by exact Sub.mono (by assumption) rfl) :
    Fr msk s0 (State.bdGone s) := by
  unfold State.bdGone
  repeat' first
    | with_reducible assumption | (exact Sub.mono hm rfl) | intro _
    | (extract_lets +onlyGivenNames x; refine keeps_have (msk := msk) (s0 := s0) (x := x) ?_ ?_; rotate_left; clear_value x; intro hx; rotate_right; subst x)
    | (extract_lets +onlyGivenNames x; refine keeps_have_fst (msk := msk) (s0 := s0) (x := x) ?_ ?_; rotate_left; clear_value x; intro hx; rotate_right; subst x)
    | (extract_lets +onlyGivenNames x; clear_value x) | with_reducible apply keeps_ctxAutoClose
    | with_reducible apply keeps_each | with_reducible apply keeps_freePort | with_reducible apply keeps_keyEnd
    | with_reducible apply keeps_modBd | with_reducible apply keeps_put | with_reducible apply keeps_setPair
    | with_reducible apply keeps_setVal | (simp only [stOf_mk]) | with_reducible apply keeps_fst | dsimp only

theorem keeps_clearSpine {msk : Nat} {s0 s : State} (c : Nat) (hk : Fr msk s0 s)
    (hm : Sub 16777216 msk := by exact Sub.mono (by assumption) rfl) :
    Fr msk s0 (State.clearSpine s c) := by
  unfold State.clearSpine
  repeat' first
    | with_reducible assumption | (exact Sub.mono hm rfl) | intro _
    | (extract_lets +onlyGivenNames x; refine keeps_have (msk := msk) (s0 := s0) (x := x) ?_ ?_; rotate_left; clear_value x; intro hx; rotate_right; subst x)
    | (extract_lets +onlyGivenNames x; refine keeps_have_fst (msk := msk) (s0 := s0) (x := x) ?_ ?_; rotate_left; clear_value x; intro hx; rotate_right; subst x)
    | (extract_lets +onlyGivenNames x; clear_value x) | with_reducible apply keeps_modBd | (simp only [stOf_mk]) | split
    | with_reducible apply keeps_fst | dsimp only

theorem keeps_spineFail {msk : Nat} {s0 s : State} (c : Nat) (hk : Fr msk s0 s)
    (hm : Sub 293601285 msk := by exact Sub.mono (by assumption) rfl) :
    Fr msk s0 (State.spineFail s c) := by
  unfold State.spineFail
  repeat' first
    | with_reducible assumption | (exact Sub.mono hm rfl) | intro _
    | (extract_lets +onlyGivenNames x; refine keeps_have (msk := msk) (s0 := s0) (x := x) ?_ ?_; rotate_left; clear_value x; intro hx; rotate_right; subst x)
    | (extract_lets +onlyGivenNames x; clear_value x) | with_reducible apply keeps_bdGone
    | with_reducible apply keeps_clearSpine | with_reducible apply keeps_modBd | with_reducible apply keeps_modFlash
    | with_reducible apply keeps_put | with_reducible apply keeps_ite | split | dsimp only

theorem keeps_lunFail {msk : Nat} {s0 s : State} (c : Nat) (l : Nat) (hk : Fr msk s0 s)
    (hm : Sub 293601447 msk := by exact Sub.mono (by assumption) rfl) :
    Fr msk s0 (State.lunFail s c l) := by
  unfold State.lunFail
  repeat' first
    | with_reducible assumption | (exact Sub.mono hm rfl) | intro _
    | (extract_lets +onlyGivenNames x; refine keeps_have (msk := msk) (s0 := s0) (x := x) ?_ ?_; rotate_left; clear_value x; intro hx; rotate_right; subst x)
    | (extract_lets +onlyGivenNames x; clear_value x) | with_reducible apply keeps_modFlash
    | with_reducible apply keeps_retireLun | with_reducible apply keeps_showMedia | with_reducible apply keeps_spineFail
    | with_reducible apply keeps_ite | split | dsimp only

theorem keeps_flashChanFail {msk : Nat} {s0 s : State} (c : Nat) (hk : Fr msk s0 s)
    (hm : Sub 293601447 msk := by exact Sub.mono (by assumption) rfl) :
    Fr msk s0 (State.flashChanFail s c) := by
  unfold State.flashChanFail
  repeat' first
    | with_reducible assumption | (exact Sub.mono hm rfl) | intro _
    | (extract_lets +onlyGivenNames x; refine keeps_have (msk := msk) (s0 := s0) (x := x) ?_ ?_; rotate_left; clear_value x; intro hx; rotate_right; subst x)
    | (extract_lets +onlyGivenNames x; clear_value x) | with_reducible apply keeps_each | with_reducible apply keeps_modFlash
    | with_reducible apply keeps_retireLun | with_reducible apply keeps_showMedia | with_reducible apply keeps_spineFail
    | with_reducible apply keeps_ite | dsimp only

theorem keeps_unitFail {msk : Nat} {s0 s : State} (c : Nat) (l : Nat) (k : Nat) (hk : Fr msk s0 s)
    (hm : Sub 293601447 msk := by exact Sub.mono (by assumption) rfl) :
    Fr msk s0 (State.unitFail s c l k) := by
  unfold State.unitFail
  repeat' first
    | with_reducible assumption | (exact Sub.mono hm rfl) | intro _
    | (extract_lets +onlyGivenNames x; refine keeps_have (msk := msk) (s0 := s0) (x := x) ?_ ?_; rotate_left; clear_value x; intro hx; rotate_right; subst x)
    | (extract_lets +onlyGivenNames x; clear_value x) | with_reducible apply keeps_lunFail
    | with_reducible apply keeps_modFlash | with_reducible apply keeps_modUnit | with_reducible apply keeps_retireMember
    | with_reducible apply keeps_showMedia | with_reducible apply keeps_ite | split | dsimp only

theorem keeps_execBdOperationFail {c : Fin 32} {l : Fin 32} {k : Nat} {s s' : State}
    (e : execBdOperationFail c l k s = .next s') : Fr 293601447 s s' := by
  unfold execBdOperationFail at e
  refine keeps_next e ?_
  clear e
  have hk := Fr.refl 293601447 s
  have hm : Sub 293601447 293601447 := Sub.refl _
  repeat' first
    | with_reducible assumption | (exact Sub.mono hm rfl) | intro _ | with_reducible apply keeps_unitFail | dsimp only

theorem keeps_execBdLunTimeout {c : Fin 32} {l : Fin 32} {s s' : State}
    (e : execBdLunTimeout c l s = .next s') : Fr 293601447 s s' := by
  unfold execBdLunTimeout at e
  refine keeps_next e ?_
  clear e
  have hk := Fr.refl 293601447 s
  have hm : Sub 293601447 293601447 := Sub.refl _
  repeat' first
    | with_reducible assumption | (exact Sub.mono hm rfl) | intro _ | with_reducible apply keeps_lunFail | dsimp only

theorem keeps_volFronts {msk : Nat} {s0 s : State} (i v n : Nat) (hk : Fr msk s0 s)
    (hm : Sub 16777216 msk := by exact Sub.mono (by assumption) rfl) : Fr msk s0 (State.volFronts s i v n) := by
  induction n generalizing s with
  | zero => exact hk
  | succ n ih =>
    unfold State.volFronts
    repeat' first
      | with_reducible assumption | (exact Sub.mono hm rfl) | intro _
      | (extract_lets +onlyGivenNames x; refine keeps_have (msk := msk) (s0 := s0) (x := x) ?_ ?_; rotate_left; clear_value x; intro hx; rotate_right; subst x)
      | (extract_lets +onlyGivenNames x; refine keeps_have_fst (msk := msk) (s0 := s0) (x := x) ?_ ?_; rotate_left; clear_value x; intro hx; rotate_right; subst x)
      | (extract_lets +onlyGivenNames x; clear_value x) | with_reducible apply ih | with_reducible apply keeps_modVol
      | with_reducible apply keeps_modVolSlot | (with_reducible refine keeps_formSection (by with_reducible assumption) ?_)
      | (simp only [stOf_mk]) | split | with_reducible apply keeps_fst | dsimp only

theorem keeps_showSlot {msk : Nat} {s0 s : State} (i : Nat) (hk : Fr msk s0 s)
    (hm : Sub 1 msk := by exact Sub.mono (by assumption) rfl) :
    Fr msk s0 (State.showSlot s i) := by
  unfold State.showSlot
  repeat' first
    | with_reducible assumption | (exact Sub.mono hm rfl) | intro _
    | (extract_lets +onlyGivenNames x; refine keeps_have (msk := msk) (s0 := s0) (x := x) ?_ ?_; rotate_left; clear_value x; intro hx; rotate_right; subst x)
    | (extract_lets +onlyGivenNames x; clear_value x) | with_reducible apply keeps_setPair
    | with_reducible apply keeps_setVal | split | dsimp only

theorem keeps_volOpen {msk : Nat} {s0 s : State} (i : Nat) (hk : Fr msk s0 s)
    (hm : Sub 293601447 msk := by exact Sub.mono (by assumption) rfl) :
    Fr msk s0 (State.volOpen s i) := by
  unfold State.volOpen
  repeat' first
    | with_reducible assumption | (exact Sub.mono hm rfl) | intro _
    | (extract_lets +onlyGivenNames x; refine keeps_have (msk := msk) (s0 := s0) (x := x) ?_ ?_; rotate_left; clear_value x; intro hx; rotate_right; subst x)
    | (extract_lets +onlyGivenNames x; refine keeps_have_fst (msk := msk) (s0 := s0) (x := x) ?_ ?_; rotate_left; clear_value x; intro hx; rotate_right; subst x)
    | (extract_lets +onlyGivenNames x; clear_value x) | with_reducible apply keeps_ctxAutoLocal
    | with_reducible apply keeps_each | with_reducible apply keeps_exitRestart | with_reducible apply keeps_modBd
    | with_reducible apply keeps_put | with_reducible apply keeps_showCat | with_reducible apply keeps_showMedia
    | with_reducible apply keeps_showRates | with_reducible apply keeps_showSlot | with_reducible apply keeps_tieAllD
    | with_reducible apply keeps_volFronts | (simp only [stOf_mk]) | with_reducible apply keeps_fst | dsimp only

theorem keeps_checkpoint {msk : Nat} {s0 s : State}  (hk : Fr msk s0 s)
    (hm : Sub 16777216 msk := by exact Sub.mono (by assumption) rfl) :
    Fr msk s0 (State.checkpoint s) := by
  unfold State.checkpoint
  repeat' first
    | with_reducible assumption | (exact Sub.mono hm rfl) | intro _
    | (extract_lets +onlyGivenNames x; refine keeps_have (msk := msk) (s0 := s0) (x := x) ?_ ?_; rotate_left; clear_value x; intro hx; rotate_right; subst x)
    | (extract_lets +onlyGivenNames x; refine keeps_have_fst (msk := msk) (s0 := s0) (x := x) ?_ ?_; rotate_left; clear_value x; intro hx; rotate_right; subst x)
    | (extract_lets +onlyGivenNames x; clear_value x) | with_reducible apply keeps_modBd | with_reducible apply keeps_foldl
    | with_reducible apply keeps_foldl_fst | (simp only [stOf_mk]) | with_reducible apply keeps_fst | dsimp only

theorem keeps_program {msk : Nat} {s0 s : State} (v : Nat) (r : BdRound) (hk : Fr msk s0 s)
    (hm : Sub 268435456 msk := by exact Sub.mono (by assumption) rfl) :
    Fr msk s0 (State.program s v r) := by
  unfold State.program
  repeat' first
    | with_reducible assumption | (exact Sub.mono hm rfl) | intro _
    | (extract_lets +onlyGivenNames x; refine keeps_have (msk := msk) (s0 := s0) (x := x) ?_ ?_; rotate_left; clear_value x; intro hx; rotate_right; subst x)
    | (extract_lets +onlyGivenNames x; clear_value x) | with_reducible apply keeps_each | with_reducible apply keeps_emit
    | dsimp only

theorem keeps_padRounds {msk : Nat} {s0 s : State} (i : Nat) (v : Nat) (x0 : Nat) (hk : Fr msk s0 s)
    (hm : Sub 285212672 msk := by exact Sub.mono (by assumption) rfl) : Fr msk s0 (State.padRounds s i v x0) := by
  induction x0 generalizing s with
  | zero =>
    unfold State.padRounds
    repeat' first
      | with_reducible assumption | (exact Sub.mono hm rfl) | intro _
      | (extract_lets +onlyGivenNames x; refine keeps_have (msk := msk) (s0 := s0) (x := x) ?_ ?_; rotate_left; clear_value x; intro hx; rotate_right; subst x)
      | (extract_lets +onlyGivenNames x; refine keeps_have_fst (msk := msk) (s0 := s0) (x := x) ?_ ?_; rotate_left; clear_value x; intro hx; rotate_right; subst x)
      | (extract_lets +onlyGivenNames x; clear_value x) | with_reducible apply keeps_modVolSlot
      | with_reducible apply keeps_program | with_reducible apply keeps_ite | with_reducible apply keeps_ite_fst
      | (simp only [stOf_mk]) | split | with_reducible apply keeps_fst | dsimp only
  | succ n ih =>
    unfold State.padRounds
    repeat' first
      | with_reducible assumption | (exact Sub.mono hm rfl) | intro _
      | (extract_lets +onlyGivenNames x; refine keeps_have (msk := msk) (s0 := s0) (x := x) ?_ ?_; rotate_left; clear_value x; intro hx; rotate_right; subst x)
      | (extract_lets +onlyGivenNames x; refine keeps_have_fst (msk := msk) (s0 := s0) (x := x) ?_ ?_; rotate_left; clear_value x; intro hx; rotate_right; subst x)
      | (extract_lets +onlyGivenNames x; clear_value x) | with_reducible apply ih | with_reducible apply keeps_modVolSlot
      | with_reducible apply keeps_program | with_reducible apply keeps_ite | with_reducible apply keeps_ite_fst
      | (simp only [stOf_mk]) | split | with_reducible apply keeps_fst | dsimp only

theorem keeps_volClose {msk : Nat} {s0 s : State} (i : Nat) (reason : Nat) (hk : Fr msk s0 s)
    (hm : Sub 293601447 msk := by exact Sub.mono (by assumption) rfl) :
    Fr msk s0 (State.volClose s i reason) := by
  unfold State.volClose
  repeat' first
    | with_reducible assumption | (exact Sub.mono hm rfl) | intro _
    | (extract_lets +onlyGivenNames x; refine keeps_have (msk := msk) (s0 := s0) (x := x) ?_ ?_; rotate_left; clear_value x; intro hx; rotate_right; subst x)
    | (extract_lets +onlyGivenNames x; refine keeps_have_fst (msk := msk) (s0 := s0) (x := x) ?_ ?_; rotate_left; clear_value x; intro hx; rotate_right; subst x)
    | (extract_lets +onlyGivenNames x; clear_value x) | with_reducible apply keeps_checkpoint
    | with_reducible apply keeps_ctxAutoClose | with_reducible apply keeps_each | with_reducible apply keeps_freePort
    | with_reducible apply keeps_modBd | with_reducible apply keeps_modSec | with_reducible apply keeps_modVol
    | with_reducible apply keeps_padRounds | with_reducible apply keeps_put | with_reducible apply keeps_showCat
    | with_reducible apply keeps_showMedia | with_reducible apply keeps_showRates | with_reducible apply keeps_showRebuild
    | with_reducible apply keeps_showSlot | (simp only [stOf_mk]) | split | with_reducible apply keeps_fst | dsimp only

theorem keeps_volCtlWrite {msk : Nat} {s0 s : State} (i : Nat) (v : Nat) (hk : Fr msk s0 s)
    (hm : Sub 293601447 msk := by exact Sub.mono (by assumption) rfl) :
    Fr msk s0 (stOf (State.volCtlWrite s i v)) := by
  unfold State.volCtlWrite
  repeat' first
    | with_reducible assumption | (exact Sub.mono hm rfl) | intro _
    | (extract_lets +onlyGivenNames x; refine keeps_have (msk := msk) (s0 := s0) (x := x) ?_ ?_; rotate_left; clear_value x; intro hx; rotate_right; subst x)
    | (extract_lets +onlyGivenNames x; refine keeps_have_fst (msk := msk) (s0 := s0) (x := x) ?_ ?_; rotate_left; clear_value x; intro hx; rotate_right; subst x)
    | (extract_lets +onlyGivenNames x; clear_value x) | with_reducible apply keeps_answer | with_reducible apply keeps_put
    | with_reducible apply keeps_volClose | with_reducible apply keeps_volOpen | with_reducible apply keeps_ite
    | with_reducible apply keeps_ite_fst | (simp only [stOf_mk]) | with_reducible apply keeps_fst | dsimp only

theorem keeps_execBdVsOpen {p : Fin 5} {i : Fin 32} {v : Word} {s s' : State}
    (e : execBdVsOpen p i v s = .next s') : Fr 293601447 s s' := by
  unfold execBdVsOpen at e
  refine keeps_next e ?_
  clear e
  have hk := Fr.refl 293601447 s
  have hm : Sub 293601447 293601447 := Sub.refl _
  repeat' first
    | with_reducible assumption | (exact Sub.mono hm rfl) | intro _ | with_reducible apply keeps_gatedWrite
    | with_reducible apply keeps_volCtlWrite | dsimp only

theorem keeps_execBdVsClose {p : Fin 5} {i : Fin 32} {s s' : State}
    (e : execBdVsClose p i s = .next s') : Fr 293601447 s s' := by
  unfold execBdVsClose at e
  refine keeps_next e ?_
  clear e
  have hk := Fr.refl 293601447 s
  have hm : Sub 293601447 293601447 := Sub.refl _
  repeat' first
    | with_reducible assumption | (exact Sub.mono hm rfl) | intro _ | with_reducible apply keeps_gatedWrite
    | with_reducible apply keeps_volCtlWrite | dsimp only

theorem keeps_closeVolumes {msk : Nat} {s0 s : State}  (hk : Fr msk s0 s)
    (hm : Sub 293601447 msk := by exact Sub.mono (by assumption) rfl) :
    Fr msk s0 (State.closeVolumes s) := by
  unfold State.closeVolumes
  repeat' first
    | with_reducible assumption | (exact Sub.mono hm rfl) | intro _ | with_reducible apply keeps_each
    | with_reducible apply keeps_volClose | (simp only [stOf_mk]) | with_reducible apply keeps_fst | dsimp only

theorem keeps_volRounds {msk : Nat} {s0 s : State} (i : Nat) (x0 : Nat) (hk : Fr msk s0 s)
    (hm : Sub 285212672 msk := by exact Sub.mono (by assumption) rfl) : Fr msk s0 (State.volRounds s i x0) := by
  induction x0 generalizing s with
  | zero =>
    unfold State.volRounds
    repeat' first
      | with_reducible assumption | (exact Sub.mono hm rfl) | intro _
      | (extract_lets +onlyGivenNames x; refine keeps_have (msk := msk) (s0 := s0) (x := x) ?_ ?_; rotate_left; clear_value x; intro hx; rotate_right; subst x)
      | (extract_lets +onlyGivenNames x; clear_value x) | with_reducible apply keeps_modVolSlot
      | with_reducible apply keeps_program | with_reducible apply keeps_ite | split | dsimp only
  | succ n ih =>
    unfold State.volRounds
    repeat' first
      | with_reducible assumption | (exact Sub.mono hm rfl) | intro _
      | (extract_lets +onlyGivenNames x; refine keeps_have (msk := msk) (s0 := s0) (x := x) ?_ ?_; rotate_left; clear_value x; intro hx; rotate_right; subst x)
      | (extract_lets +onlyGivenNames x; clear_value x) | with_reducible apply ih | with_reducible apply keeps_modVolSlot
      | with_reducible apply keeps_program | with_reducible apply keeps_ite | split | dsimp only

theorem keeps_wrapDrop {msk : Nat} {s0 s t : State} {i : Nat} {f : Option Nat} (e : s.wrapDrop i f = some t) (hk : Fr msk s0 s)
    (hm : Sub 16777216 msk := by exact Sub.mono (by assumption) rfl) : Fr msk s0 t := by
  unfold State.wrapDrop at e
  split at e
  · cases e
  split at e
  · cases e
  split at e
  · cases e
  dsimp only at e
  split at e
  · cases e
  rw [← Option.some.inj e]
  repeat' first
    | with_reducible assumption | (exact Sub.mono hm rfl) | intro _
    | (extract_lets +onlyGivenNames x; refine keeps_have (msk := msk) (s0 := s0) (x := x) ?_ ?_; rotate_left; clear_value x; intro hx; rotate_right; subst x)
    | (extract_lets +onlyGivenNames x; refine keeps_have_fst (msk := msk) (s0 := s0) (x := x) ?_ ?_; rotate_left; clear_value x; intro hx; rotate_right; subst x)
    | (extract_lets +onlyGivenNames x; clear_value x) | with_reducible apply keeps_modVol | with_reducible apply keeps_modBd
    | with_reducible apply keeps_modUnit | with_reducible apply keeps_each | with_reducible apply keeps_ite
    | with_reducible apply keeps_ite_fst | (simp only [stOf_mk]) | split | with_reducible apply keeps_fst | dsimp only

theorem keeps_wrapAhead {msk : Nat} {s0 s : State} (i : Nat) (hk : Fr msk s0 s)
    (hm : Sub 16777217 msk := by exact Sub.mono (by assumption) rfl) :
    Fr msk s0 (State.wrapAhead s i) := by
  unfold State.wrapAhead
  repeat' first
    | with_reducible assumption | (exact Sub.mono hm rfl) | intro _
    | (extract_lets +onlyGivenNames x; refine keeps_have (msk := msk) (s0 := s0) (x := x) ?_ ?_; rotate_left; clear_value x; intro hx; rotate_right; subst x)
    | (extract_lets +onlyGivenNames x; clear_value x) | with_reducible apply keeps_showSlot
    | (with_reducible refine keeps_wrapDrop (by with_reducible assumption) ?_) | with_reducible apply keeps_ite | split
    | dsimp only

theorem keeps_volAdvance {msk : Nat} {s0 s : State} (i : Nat) (hk : Fr msk s0 s)
    (hm : Sub 285212673 msk := by exact Sub.mono (by assumption) rfl) :
    Fr msk s0 (State.volAdvance s i) := by
  unfold State.volAdvance
  repeat' first
    | with_reducible assumption | (exact Sub.mono hm rfl) | intro _ | with_reducible apply keeps_volRounds
    | with_reducible apply keeps_wrapAhead | dsimp only

theorem keeps_volAppend {msk : Nat} {s0 s : State} (i : Nat) (k : Nat) (n : Nat) (r : YRec) (hk : Fr msk s0 s)
    (hm : Sub 285212673 msk := by exact Sub.mono (by assumption) rfl) :
    Fr msk s0 (State.volAppend s i k n r) := by
  unfold State.volAppend
  repeat' first
    | with_reducible assumption | (exact Sub.mono hm rfl) | intro _
    | (extract_lets +onlyGivenNames x; refine keeps_have (msk := msk) (s0 := s0) (x := x) ?_ ?_; rotate_left; clear_value x; intro hx; rotate_right; subst x)
    | (extract_lets +onlyGivenNames x; clear_value x) | with_reducible apply keeps_modVol
    | with_reducible apply keeps_volAdvance | split | dsimp only

theorem keeps_volRecord {msk : Nat} {s0 s : State} (i : Nat) (r : YRec) (ok : Bool) (room : Bool) (hk : Fr msk s0 s)
    (hm : Sub 285212673 msk := by exact Sub.mono (by assumption) rfl) :
    Fr msk s0 (State.volRecord s i r ok room) := by
  unfold State.volRecord
  repeat' first
    | with_reducible assumption | with_reducible apply keeps_count | with_reducible apply keeps_modVolSlot
    | with_reducible apply keeps_volAppend | (extract_lets +onlyGivenNames x; refine keeps_fun (x := x) ?_; subst x)
    | (exact Sub.mono hm rfl) | intro _
    | (extract_lets +onlyGivenNames x; refine keeps_have (msk := msk) (s0 := s0) (x := x) ?_ ?_; rotate_left; clear_value x; intro hx; rotate_right; subst x)
    | (extract_lets +onlyGivenNames x; refine keeps_have_fst (msk := msk) (s0 := s0) (x := x) ?_ ?_; rotate_left; clear_value x; intro hx; rotate_right; subst x)
    | (extract_lets +onlyGivenNames x; clear_value x) | with_reducible apply keeps_ite | with_reducible apply keeps_ite_fst
    | (simp only [stOf_mk]) | split | with_reducible apply keeps_fst | dsimp only

theorem keeps_execBdRecordReceive {i : Fin 32} {y : YRec} {ok : Bool} {room : Bool} {s s' : State}
    (e : execBdRecordReceive i y ok room s = .next s') : Fr 285212673 s s' := by
  unfold execBdRecordReceive at e
  refine keeps_next e ?_
  clear e
  have hk := Fr.refl 285212673 s
  have hm : Sub 285212673 285212673 := Sub.refl _
  repeat' first
    | with_reducible assumption | (exact Sub.mono hm rfl) | intro _ | with_reducible apply keeps_inIsland
    | with_reducible apply keeps_volRecord | dsimp only

theorem keeps_programDone {msk : Nat} {s0 s : State} (i : Nat) (f : Nat) (bad : List Nat) (hk : Fr msk s0 s)
    (hm : Sub 293601447 msk := by exact Sub.mono (by assumption) rfl) :
    Fr msk s0 (State.programDone s i f bad) := by
  unfold State.programDone
  repeat' first
    | with_reducible assumption | (exact Sub.mono hm rfl) | intro _
    | (extract_lets +onlyGivenNames x; refine keeps_have (msk := msk) (s0 := s0) (x := x) ?_ ?_; rotate_left; clear_value x; intro hx; rotate_right; subst x)
    | (extract_lets +onlyGivenNames x; refine keeps_have_fst (msk := msk) (s0 := s0) (x := x) ?_ ?_; rotate_left; clear_value x; intro hx; rotate_right; subst x)
    | (extract_lets +onlyGivenNames x; clear_value x) | with_reducible apply keeps_each | with_reducible apply keeps_modBd
    | with_reducible apply keeps_modVol | with_reducible apply keeps_modVolSlot | with_reducible apply keeps_showSlot
    | with_reducible apply keeps_unitFail | with_reducible apply keeps_ite | with_reducible apply keeps_ite_fst
    | (simp only [stOf_mk]) | split | with_reducible apply keeps_fst | dsimp only

theorem keeps_execBdProgramDone {i : Fin 32} {f : Fin 31} {bad : List (Fin 32)} {s s' : State}
    (e : execBdProgramDone i f bad s = .next s') : Fr 293601447 s s' := by
  unfold execBdProgramDone at e
  refine keeps_next e ?_
  clear e
  have hk := Fr.refl 293601447 s
  have hm : Sub 293601447 293601447 := Sub.refl _
  repeat' first
    | with_reducible assumption | (exact Sub.mono hm rfl) | intro _ | with_reducible apply keeps_inIsland
    | with_reducible apply keeps_programDone | dsimp only

theorem keeps_sectionTake {msk : Nat} {s0 s t : State} {free : Bool} {i f v : Nat} {fr : BdFront} {l : List Nat}
    (e : s.sectionTake free i f fr v l = some t) (hk : Fr msk s0 s)
    (hm : Sub 285213697 msk := by exact Sub.mono (by assumption) rfl) : Fr msk s0 t := by
  unfold State.sectionTake at e
  split at e
  · cases e
  · rename_i k u hu
    have h : Fr msk s0 u := by
      split at hu
      · exact keeps_formSection hu hk
      · cases hu
    rw [← Option.some.inj e]
    repeat' first
      | with_reducible assumption | (exact Sub.mono hm rfl) | intro _
      | (extract_lets +onlyGivenNames x; refine keeps_have (msk := msk) (s0 := s0) (x := x) ?_ ?_; rotate_left; clear_value x; intro hx; rotate_right; subst x)
      | (extract_lets +onlyGivenNames x; refine keeps_have_fst (msk := msk) (s0 := s0) (x := x) ?_ ?_; rotate_left; clear_value x; intro hx; rotate_right; subst x)
      | (extract_lets +onlyGivenNames x; clear_value x) | with_reducible apply keeps_showSlot
      | with_reducible apply keeps_volAdvance | with_reducible apply keeps_modVol | with_reducible apply keeps_modVolSlot
      | with_reducible apply keeps_ite | with_reducible apply keeps_ite_fst | (simp only [stOf_mk]) | split
      | with_reducible apply keeps_fst | dsimp only

theorem keeps_sectionFull {msk : Nat} {s0 s : State} (i : Nat) (f : Nat) (hk : Fr msk s0 s)
    (hm : Sub 293602471 msk := by exact Sub.mono (by assumption) rfl) :
    Fr msk s0 (State.sectionFull s i f) := by
  unfold State.sectionFull
  repeat' first
    | with_reducible assumption | (exact Sub.mono hm rfl) | intro _
    | (extract_lets +onlyGivenNames x; refine keeps_have (msk := msk) (s0 := s0) (x := x) ?_ ?_; rotate_left; clear_value x; intro hx; rotate_right; subst x)
    | (extract_lets +onlyGivenNames x; clear_value x) | with_reducible apply keeps_free | with_reducible apply keeps_modSec
    | (with_reducible refine keeps_sectionTake (by with_reducible assumption) ?_) | with_reducible apply keeps_showMedia
    | with_reducible apply keeps_showRebuild | with_reducible apply keeps_volClose
    | (with_reducible refine keeps_wrapDrop (by with_reducible assumption) ?_) | with_reducible apply keeps_getD
    | with_reducible apply keeps_ite | split | dsimp only

theorem keeps_execBdSectionFull {i : Fin 32} {f : Fin 31} {s s' : State}
    (e : execBdSectionFull i f s = .next s') : Fr 293602471 s s' := by
  unfold execBdSectionFull at e
  refine keeps_next e ?_
  clear e
  have hk := Fr.refl 293602471 s
  have hm : Sub 293602471 293602471 := Sub.refl _
  repeat' first
    | with_reducible assumption | (exact Sub.mono hm rfl) | intro _ | with_reducible apply keeps_inIsland
    | with_reducible apply keeps_sectionFull | dsimp only

theorem keeps_execBdCheckpoint  {s s' : State}
    (e : execBdCheckpoint  s = .next s') : Fr 16777216 s s' := by
  unfold execBdCheckpoint at e
  refine keeps_next e ?_
  clear e
  have hk := Fr.refl 16777216 s
  have hm : Sub 16777216 16777216 := Sub.refl _
  repeat' first
    | with_reducible assumption | (exact Sub.mono hm rfl) | intro _ | with_reducible apply keeps_checkpoint
    | with_reducible apply keeps_inIsland | with_reducible apply keeps_ite | split | dsimp only

theorem keeps_catDelWrite {msk : Nat} {s0 s : State} (d : Nat) (v : Nat) (hk : Fr msk s0 s)
    (hm : Sub 16777217 msk := by exact Sub.mono (by assumption) rfl) :
    Fr msk s0 (stOf (State.catDelWrite s d v)) := by
  unfold State.catDelWrite
  repeat' first
    | with_reducible assumption | (exact Sub.mono hm rfl) | intro _
    | (extract_lets +onlyGivenNames x; refine keeps_have (msk := msk) (s0 := s0) (x := x) ?_ ?_; rotate_left; clear_value x; intro hx; rotate_right; subst x)
    | (extract_lets +onlyGivenNames x; refine keeps_have_fst (msk := msk) (s0 := s0) (x := x) ?_ ?_; rotate_left; clear_value x; intro hx; rotate_right; subst x)
    | (extract_lets +onlyGivenNames x; clear_value x) | with_reducible apply keeps_answer
    | with_reducible apply keeps_dropSection | with_reducible apply keeps_each | with_reducible apply keeps_modVol
    | with_reducible apply keeps_put | with_reducible apply keeps_showCat | with_reducible apply keeps_ite
    | with_reducible apply keeps_ite_fst | (simp only [stOf_mk]) | split | with_reducible apply keeps_fst | dsimp only

theorem keeps_execBdCatDel {p : Fin 5} {v : Word} {s s' : State}
    (e : execBdCatDel p v s = .next s') : Fr 16777217 s s' := by
  unfold execBdCatDel at e
  refine keeps_next e ?_
  clear e
  have hk := Fr.refl 16777217 s
  have hm : Sub 16777217 16777217 := Sub.refl _
  repeat' first
    | with_reducible assumption | (exact Sub.mono hm rfl) | intro _ | with_reducible apply keeps_catDelWrite
    | with_reducible apply keeps_gatedWrite | dsimp only

theorem keeps_wearCheck {msk : Nat} {s0 s : State} (c : Nat) (hk : Fr msk s0 s)
    (hm : Sub 16777216 msk := by exact Sub.mono (by assumption) rfl) :
    Fr msk s0 (State.wearCheck s c) := by
  unfold State.wearCheck
  repeat' first
    | with_reducible assumption | (exact Sub.mono hm rfl) | intro _
    | (extract_lets +onlyGivenNames x; refine keeps_have (msk := msk) (s0 := s0) (x := x) ?_ ?_; rotate_left; clear_value x; intro hx; rotate_right; subst x)
    | (extract_lets +onlyGivenNames x; refine keeps_have_fst (msk := msk) (s0 := s0) (x := x) ?_ ?_; rotate_left; clear_value x; intro hx; rotate_right; subst x)
    | (extract_lets +onlyGivenNames x; clear_value x) | with_reducible apply keeps_modSec | with_reducible apply keeps_foldl
    | with_reducible apply keeps_foldl_fst | with_reducible apply keeps_ite | with_reducible apply keeps_ite_fst
    | (simp only [stOf_mk]) | split | with_reducible apply keeps_fst | dsimp only

theorem keeps_eraseDone {msk : Nat} {s0 s : State} (n : Nat) (hk : Fr msk s0 s)
    (hm : Sub 285212839 msk := by exact Sub.mono (by assumption) rfl) :
    Fr msk s0 (State.eraseDone s n) := by
  unfold State.eraseDone
  repeat' first
    | with_reducible assumption | (exact Sub.mono hm rfl) | intro _
    | (extract_lets +onlyGivenNames x; refine keeps_have (msk := msk) (s0 := s0) (x := x) ?_ ?_; rotate_left; clear_value x; intro hx; rotate_right; subst x)
    | (extract_lets +onlyGivenNames x; refine keeps_have_fst (msk := msk) (s0 := s0) (x := x) ?_ ?_; rotate_left; clear_value x; intro hx; rotate_right; subst x)
    | (extract_lets +onlyGivenNames x; clear_value x) | with_reducible apply keeps_each | with_reducible apply keeps_modBd
    | with_reducible apply keeps_modUnit | with_reducible apply keeps_showCat | with_reducible apply keeps_showMedia
    | with_reducible apply keeps_wearCheck | with_reducible apply keeps_ite | with_reducible apply keeps_ite_fst
    | (simp only [stOf_mk]) | split | with_reducible apply keeps_fst | dsimp only

theorem keeps_execBdEraseDone {n : Nat} {s s' : State}
    (e : execBdEraseDone n s = .next s') : Fr 285212839 s s' := by
  unfold execBdEraseDone at e
  refine keeps_next e ?_
  clear e
  have hk := Fr.refl 285212839 s
  have hm : Sub 285212839 285212839 := Sub.refl _
  repeat' first
    | with_reducible assumption | (exact Sub.mono hm rfl) | intro _ | with_reducible apply keeps_eraseDone
    | with_reducible apply keeps_inIsland | dsimp only

theorem keeps_flashPatrol {msk : Nat} {s0 s : State} (n : Nat) (worst : Nat) (soft : Bool) (hk : Fr msk s0 s)
    (hm : Sub 16777216 msk := by exact Sub.mono (by assumption) rfl) :
    Fr msk s0 (State.flashPatrol s n worst soft) := by
  unfold State.flashPatrol
  repeat' first
    | with_reducible assumption | (exact Sub.mono hm rfl) | intro _
    | (extract_lets +onlyGivenNames x; refine keeps_have (msk := msk) (s0 := s0) (x := x) ?_ ?_; rotate_left; clear_value x; intro hx; rotate_right; subst x)
    | (extract_lets +onlyGivenNames x; clear_value x) | with_reducible apply keeps_modSec | with_reducible apply keeps_ite
    | split | dsimp only

theorem keeps_execBdPatrolRead {n : Nat} {worst : Nat} {soft : Bool} {s s' : State}
    (e : execBdPatrolRead n worst soft s = .next s') : Fr 16777216 s s' := by
  unfold execBdPatrolRead at e
  refine keeps_next e ?_
  clear e
  have hk := Fr.refl 16777216 s
  have hm : Sub 16777216 16777216 := Sub.refl _
  repeat' first
    | with_reducible assumption | (exact Sub.mono hm rfl) | intro _ | with_reducible apply keeps_flashPatrol
    | with_reducible apply keeps_inIsland | dsimp only

theorem keeps_ageTick {msk : Nat} {s0 s : State}  (hk : Fr msk s0 s)
    (hm : Sub 553648128 msk := by exact Sub.mono (by assumption) rfl) :
    Fr msk s0 (State.ageTick s) := by
  unfold State.ageTick
  repeat' first
    | with_reducible assumption | (exact Sub.mono hm rfl) | intro _
    | (extract_lets +onlyGivenNames x; refine keeps_have (msk := msk) (s0 := s0) (x := x) ?_ ?_; rotate_left; clear_value x; intro hx; rotate_right; subst x)
    | (extract_lets +onlyGivenNames x; refine keeps_have_fst (msk := msk) (s0 := s0) (x := x) ?_ ?_; rotate_left; clear_value x; intro hx; rotate_right; subst x)
    | (extract_lets +onlyGivenNames x; clear_value x) | with_reducible apply keeps_modBd | with_reducible apply keeps_useFree
    | (simp only [stOf_mk]) | with_reducible apply keeps_fst | dsimp only

theorem keeps_execBdAgeTick  {s s' : State}
    (e : execBdAgeTick  s = .next s') : Fr 553648128 s s' := by
  unfold execBdAgeTick at e
  refine keeps_next e ?_
  clear e
  have hk := Fr.refl 553648128 s
  have hm : Sub 553648128 553648128 := Sub.refl _
  repeat' first
    | with_reducible assumption | (exact Sub.mono hm rfl) | intro _ | with_reducible apply keeps_ageTick | dsimp only

theorem keeps_flashTempWrite {msk : Nat} {s0 s : State} (v : Nat) (hk : Fr msk s0 s)
    (hm : Sub 16777217 msk := by exact Sub.mono (by assumption) rfl) :
    Fr msk s0 (stOf (State.flashTempWrite s v)) := by
  unfold State.flashTempWrite
  repeat' first
    | with_reducible assumption | (exact Sub.mono hm rfl) | intro _
    | (extract_lets +onlyGivenNames x; refine keeps_have (msk := msk) (s0 := s0) (x := x) ?_ ?_; rotate_left; clear_value x; intro hx; rotate_right; subst x)
    | (extract_lets +onlyGivenNames x; refine keeps_have_fst (msk := msk) (s0 := s0) (x := x) ?_ ?_; rotate_left; clear_value x; intro hx; rotate_right; subst x)
    | (extract_lets +onlyGivenNames x; clear_value x) | with_reducible apply keeps_modBd
    | with_reducible apply keeps_plainWrite | (simp only [stOf_mk]) | with_reducible apply keeps_fst | dsimp only

theorem keeps_execBdFlashTempWrite {p : Fin 5} {v : Word} {s s' : State}
    (e : execBdFlashTempWrite p v s = .next s') : Fr 16777217 s s' := by
  unfold execBdFlashTempWrite at e
  refine keeps_next e ?_
  clear e
  have hk := Fr.refl 16777217 s
  have hm : Sub 16777217 16777217 := Sub.refl _
  repeat' first
    | with_reducible assumption | (exact Sub.mono hm rfl) | intro _ | with_reducible apply keeps_flashTempWrite
    | with_reducible apply keeps_gatedWrite | dsimp only

theorem keeps_execBdFlashTempTimeout  {s s' : State}
    (e : execBdFlashTempTimeout  s = .next s') : Fr 1 s s' := by
  unfold execBdFlashTempTimeout at e
  refine keeps_next e ?_
  clear e
  have hk := Fr.refl 1 s
  have hm : Sub 1 1 := Sub.refl _
  repeat' first
    | with_reducible assumption | (exact Sub.mono hm rfl) | intro _ | with_reducible apply keeps_put
    | with_reducible apply keeps_ite | dsimp only

theorem keeps_relocateDone {msk : Nat} {s0 s : State} (n : Nat) (hk : Fr msk s0 s)
    (hm : Sub 285212839 msk := by exact Sub.mono (by assumption) rfl) :
    Fr msk s0 (State.relocateDone s n) := by
  unfold State.relocateDone
  repeat' first
    | with_reducible assumption | (exact Sub.mono hm rfl) | intro _
    | (extract_lets +onlyGivenNames x; refine keeps_have (msk := msk) (s0 := s0) (x := x) ?_ ?_; rotate_left; clear_value x; intro hx; rotate_right; subst x)
    | (extract_lets +onlyGivenNames x; clear_value x) | with_reducible apply keeps_dropSection
    | (with_reducible refine keeps_formSection (by with_reducible assumption) ?_) | with_reducible apply keeps_modSec
    | with_reducible apply keeps_modVol | with_reducible apply keeps_showMedia | with_reducible apply keeps_showRebuild
    | with_reducible apply keeps_ite | split | dsimp only

theorem keeps_execBdRelocateDone {n : Nat} {s s' : State}
    (e : execBdRelocateDone n s = .next s') : Fr 285212839 s s' := by
  unfold execBdRelocateDone at e
  refine keeps_next e ?_
  clear e
  have hk := Fr.refl 285212839 s
  have hm : Sub 285212839 285212839 := Sub.refl _
  repeat' first
    | with_reducible assumption | (exact Sub.mono hm rfl) | intro _ | with_reducible apply keeps_inIsland
    | with_reducible apply keeps_relocateDone | dsimp only

theorem keeps_rebuildDone {msk : Nat} {s0 s : State} (n : Nat) (hk : Fr msk s0 s)
    (hm : Sub 285212839 msk := by exact Sub.mono (by assumption) rfl) :
    Fr msk s0 (State.rebuildDone s n) := by
  unfold State.rebuildDone
  repeat' first
    | with_reducible assumption | with_reducible apply keeps_each | with_reducible apply keeps_modSec
    | with_reducible apply keeps_modUnit | with_reducible apply keeps_showMedia | with_reducible apply keeps_showRebuild
    | (extract_lets +onlyGivenNames x; refine keeps_fun (x := x) ?_; subst x) | (exact Sub.mono hm rfl) | intro _
    | (extract_lets +onlyGivenNames x; refine keeps_have (msk := msk) (s0 := s0) (x := x) ?_ ?_; rotate_left; clear_value x; intro hx; rotate_right; subst x)
    | (extract_lets +onlyGivenNames x; clear_value x) | with_reducible apply keeps_ite | split | dsimp only

theorem keeps_execBdRebuildDone {n : Nat} {s s' : State}
    (e : execBdRebuildDone n s = .next s') : Fr 285212839 s s' := by
  unfold execBdRebuildDone at e
  refine keeps_next e ?_
  clear e
  have hk := Fr.refl 285212839 s
  have hm : Sub 285212839 285212839 := Sub.refl _
  repeat' first
    | with_reducible assumption | (exact Sub.mono hm rfl) | intro _ | with_reducible apply keeps_inIsland
    | with_reducible apply keeps_rebuildDone | dsimp only

theorem keeps_spineSnapshot {msk : Nat} {s0 s : State} (c : Nat) (hk : Fr msk s0 s)
    (hm : Sub 285212839 msk := by exact Sub.mono (by assumption) rfl) :
    Fr msk s0 (State.spineSnapshot s c) := by
  unfold State.spineSnapshot
  repeat' first
    | with_reducible assumption | with_reducible apply keeps_modBd | with_reducible apply keeps_put
    | with_reducible apply keeps_showMedia | (extract_lets +onlyGivenNames x; refine keeps_fun (x := x) ?_; subst x)
    | (exact Sub.mono hm rfl) | intro _
    | (extract_lets +onlyGivenNames x; refine keeps_have (msk := msk) (s0 := s0) (x := x) ?_ ?_; rotate_left; clear_value x; intro hx; rotate_right; subst x)
    | (extract_lets +onlyGivenNames x; clear_value x) | with_reducible apply keeps_ite | split | dsimp only

theorem keeps_execBdSpineSnapshot {c : Fin 2} {s s' : State}
    (e : execBdSpineSnapshot c s = .next s') : Fr 285212839 s s' := by
  unfold execBdSpineSnapshot at e
  refine keeps_next e ?_
  clear e
  have hk := Fr.refl 285212839 s
  have hm : Sub 285212839 285212839 := Sub.refl _
  repeat' first
    | with_reducible assumption | (exact Sub.mono hm rfl) | intro _ | with_reducible apply keeps_spineSnapshot | dsimp only

theorem keeps_markBad {msk : Nat} {s0 s : State} (c : Nat) (l : Nat) (hk : Fr msk s0 s)
    (hm : Sub 16777216 msk := by exact Sub.mono (by assumption) rfl) :
    Fr msk s0 (State.markBad s c l) := by
  unfold State.markBad
  repeat' first
    | with_reducible assumption | (exact Sub.mono hm rfl) | intro _
    | (extract_lets +onlyGivenNames x; refine keeps_have (msk := msk) (s0 := s0) (x := x) ?_ ?_; rotate_left; clear_value x; intro hx; rotate_right; subst x)
    | (extract_lets +onlyGivenNames x; refine keeps_have_fst (msk := msk) (s0 := s0) (x := x) ?_ ?_; rotate_left; clear_value x; intro hx; rotate_right; subst x)
    | (extract_lets +onlyGivenNames x; clear_value x) | with_reducible apply keeps_each | with_reducible apply keeps_modUnit
    | (simp only [stOf_mk]) | with_reducible apply keeps_fst | dsimp only

theorem keeps_markFirst {msk : Nat} {s0 s : State} (c : Nat) (hk : Fr msk s0 s)
    (hm : Sub 16777216 msk := by exact Sub.mono (by assumption) rfl) :
    Fr msk s0 (State.markFirst s c) := by
  unfold State.markFirst
  repeat' first
    | with_reducible assumption | (exact Sub.mono hm rfl) | intro _
    | (extract_lets +onlyGivenNames x; refine keeps_have (msk := msk) (s0 := s0) (x := x) ?_ ?_; rotate_left; clear_value x; intro hx; rotate_right; subst x)
    | (extract_lets +onlyGivenNames x; refine keeps_have_fst (msk := msk) (s0 := s0) (x := x) ?_ ?_; rotate_left; clear_value x; intro hx; rotate_right; subst x)
    | (extract_lets +onlyGivenNames x; clear_value x) | with_reducible apply keeps_each | with_reducible apply keeps_markBad
    | with_reducible apply keeps_modFlash | (simp only [stOf_mk]) | split | with_reducible apply keeps_fst | dsimp only

theorem keeps_flashTrained {msk : Nat} {s0 s : State} (fs : List BdFound) (blocks : Nat) (pages : Nat) (rated : Nat) (v0 : Bool) (v1 : Bool) (hk : Fr msk s0 s)
    (hm : Sub 285212839 msk := by exact Sub.mono (by assumption) rfl) :
    Fr msk s0 (State.flashTrained s fs blocks pages rated v0 v1) := by
  unfold State.flashTrained
  repeat' first
    | with_reducible assumption | with_reducible apply keeps_clearSpine | with_reducible apply keeps_each
    | with_reducible apply keeps_markBad | with_reducible apply keeps_modBd | with_reducible apply keeps_modFlash
    | with_reducible apply keeps_put | with_reducible apply keeps_retireLun | with_reducible apply keeps_showCat
    | with_reducible apply keeps_showMedia | with_reducible apply keeps_showRates | with_reducible apply keeps_showRebuild
    | (extract_lets +onlyGivenNames x; refine keeps_fun (x := x) ?_; subst x) | (exact Sub.mono hm rfl) | intro _
    | (extract_lets +onlyGivenNames x; refine keeps_have (msk := msk) (s0 := s0) (x := x) ?_ ?_; rotate_left; clear_value x; intro hx; rotate_right; subst x)
    | (extract_lets +onlyGivenNames x; refine keeps_have_fst (msk := msk) (s0 := s0) (x := x) ?_ ?_; rotate_left; clear_value x; intro hx; rotate_right; subst x)
    | (extract_lets +onlyGivenNames x; clear_value x) | with_reducible apply keeps_ite | with_reducible apply keeps_ite_fst
    | (simp only [stOf_mk]) | split | with_reducible apply keeps_fst | dsimp only

theorem keeps_execFlashTrainingDone {fs : List BdFound} {blocks : Nat} {pages : Nat} {rated : Nat} {v0 : Bool} {v1 : Bool} {s s' : State}
    (e : execFlashTrainingDone fs blocks pages rated v0 v1 s = .next s') : Fr 285212839 s s' := by
  unfold execFlashTrainingDone at e
  refine keeps_next e ?_
  clear e
  have hk := Fr.refl 285212839 s
  have hm : Sub 285212839 285212839 := Sub.refl _
  repeat' first
    | with_reducible assumption | (exact Sub.mono hm rfl) | intro _ | with_reducible apply keeps_flashTrained
    | with_reducible apply keeps_ite | dsimp only

theorem keeps_volRecover {msk : Nat} {s0 s : State} (v : Nat) (e : Nat) (hk : Fr msk s0 s)
    (hm : Sub 285212677 msk := by exact Sub.mono (by assumption) rfl) :
    Fr msk s0 (State.volRecover s v e) := by
  unfold State.volRecover
  repeat' first
    | with_reducible assumption | with_reducible apply keeps_count | with_reducible apply keeps_gap
    | with_reducible apply keeps_modVol | with_reducible apply keeps_showCat | with_reducible apply keeps_showRebuild
    | with_reducible apply keeps_foldl | with_reducible apply keeps_foldl_fst | with_reducible apply keeps_getD
    | (extract_lets +onlyGivenNames x; refine keeps_fun (x := x) ?_; subst x) | (exact Sub.mono hm rfl) | intro _
    | (extract_lets +onlyGivenNames x; refine keeps_have (msk := msk) (s0 := s0) (x := x) ?_ ?_; rotate_left; clear_value x; intro hx; rotate_right; subst x)
    | (extract_lets +onlyGivenNames x; refine keeps_have_fst (msk := msk) (s0 := s0) (x := x) ?_ ?_; rotate_left; clear_value x; intro hx; rotate_right; subst x)
    | (extract_lets +onlyGivenNames x; clear_value x) | with_reducible apply keeps_ite | with_reducible apply keeps_ite_fst
    | (simp only [stOf_mk]) | split | with_reducible apply keeps_fst | dsimp only

theorem keeps_execBdRecovery {v : Word} {e : Nat} {s s' : State}
    (e : execBdRecovery v e s = .next s') : Fr 285212677 s s' := by
  unfold execBdRecovery at e
  refine keeps_next e ?_
  clear e
  have hk := Fr.refl 285212677 s
  have hm : Sub 285212677 285212677 := Sub.refl _
  repeat' first
    | with_reducible assumption | (exact Sub.mono hm rfl) | intro _ | with_reducible apply keeps_volRecover | dsimp only

theorem keeps_bdPowerFail {msk : Nat} {s0 s : State}  (hk : Fr msk s0 s)
    (hm : Sub 16777216 msk := by exact Sub.mono (by assumption) rfl) :
    Fr msk s0 (State.bdPowerFail s) := by
  unfold State.bdPowerFail
  repeat' first
    | with_reducible assumption | (exact Sub.mono hm rfl) | intro _
    | (extract_lets +onlyGivenNames x; refine keeps_have (msk := msk) (s0 := s0) (x := x) ?_ ?_; rotate_left; clear_value x; intro hx; rotate_right; subst x)
    | (extract_lets +onlyGivenNames x; refine keeps_have_fst (msk := msk) (s0 := s0) (x := x) ?_ ?_; rotate_left; clear_value x; intro hx; rotate_right; subst x)
    | (extract_lets +onlyGivenNames x; clear_value x) | with_reducible apply keeps_modBd | (simp only [stOf_mk])
    | with_reducible apply keeps_fst | dsimp only

theorem keeps_bdCtlWrite {msk : Nat} {s0 s : State} (d : Nat) (v : Nat) (hk : Fr msk s0 s)
    (hm : Sub 293601447 msk := by exact Sub.mono (by assumption) rfl) :
    Fr msk s0 (stOf (State.bdCtlWrite s d v)) := by
  unfold State.bdCtlWrite
  repeat' first
    | with_reducible assumption | (exact Sub.mono hm rfl) | intro _
    | (extract_lets +onlyGivenNames x; refine keeps_have (msk := msk) (s0 := s0) (x := x) ?_ ?_; rotate_left; clear_value x; intro hx; rotate_right; subst x)
    | (extract_lets +onlyGivenNames x; refine keeps_have_fst (msk := msk) (s0 := s0) (x := x) ?_ ?_; rotate_left; clear_value x; intro hx; rotate_right; subst x)
    | (extract_lets +onlyGivenNames x; clear_value x) | with_reducible apply keeps_answer
    | with_reducible apply keeps_closeVolumes | with_reducible apply keeps_each | with_reducible apply keeps_markFirst
    | with_reducible apply keeps_modBd | with_reducible apply keeps_put | with_reducible apply keeps_showCat
    | with_reducible apply keeps_showMedia | with_reducible apply keeps_showRebuild | with_reducible apply keeps_ite
    | with_reducible apply keeps_ite_fst | (simp only [stOf_mk]) | split | with_reducible apply keeps_fst | dsimp only

theorem keeps_execBdFormat {p : Fin 5} {s s' : State}
    (e : execBdFormat p s = .next s') : Fr 293601447 s s' := by
  unfold execBdFormat at e
  refine keeps_next e ?_
  clear e
  have hk := Fr.refl 293601447 s
  have hm : Sub 293601447 293601447 := Sub.refl _
  repeat' first
    | with_reducible assumption | (exact Sub.mono hm rfl) | intro _ | with_reducible apply keeps_bdCtlWrite
    | with_reducible apply keeps_gatedWrite | dsimp only

theorem keeps_execBdQuiesce {p : Fin 5} {s s' : State}
    (e : execBdQuiesce p s = .next s') : Fr 293601447 s s' := by
  unfold execBdQuiesce at e
  refine keeps_next e ?_
  clear e
  have hk := Fr.refl 293601447 s
  have hm : Sub 293601447 293601447 := Sub.refl _
  repeat' first
    | with_reducible assumption | (exact Sub.mono hm rfl) | intro _ | with_reducible apply keeps_bdCtlWrite
    | with_reducible apply keeps_gatedWrite | dsimp only

theorem keeps_rsCtlWrite {msk : Nat} {s0 s : State} (d : Nat) (r : Nat) (v : Nat) (hk : Fr msk s0 s)
    (hm : Sub 16777217 msk := by exact Sub.mono (by assumption) rfl) :
    Fr msk s0 (stOf (State.rsCtlWrite s d r v)) := by
  unfold State.rsCtlWrite
  repeat' first
    | with_reducible assumption | (exact Sub.mono hm rfl) | intro _
    | (extract_lets +onlyGivenNames x; refine keeps_have (msk := msk) (s0 := s0) (x := x) ?_ ?_; rotate_left; clear_value x; intro hx; rotate_right; subst x)
    | (extract_lets +onlyGivenNames x; refine keeps_have_fst (msk := msk) (s0 := s0) (x := x) ?_ ?_; rotate_left; clear_value x; intro hx; rotate_right; subst x)
    | (extract_lets +onlyGivenNames x; clear_value x) | with_reducible apply keeps_answer | with_reducible apply keeps_modBd
    | with_reducible apply keeps_put | with_reducible apply keeps_ite | with_reducible apply keeps_ite_fst
    | (simp only [stOf_mk]) | split | with_reducible apply keeps_fst | dsimp only

theorem keeps_execBdRsGo {p : Fin 5} {r : Fin 4} {v : Word} {s s' : State}
    (e : execBdRsGo p r v s = .next s') : Fr 16777217 s s' := by
  unfold execBdRsGo at e
  refine keeps_next e ?_
  clear e
  have hk := Fr.refl 16777217 s
  have hm : Sub 16777217 16777217 := Sub.refl _
  repeat' first
    | with_reducible assumption | (exact Sub.mono hm rfl) | intro _ | with_reducible apply keeps_gatedWrite
    | with_reducible apply keeps_rsCtlWrite | dsimp only

theorem keeps_execBdRsStop {p : Fin 5} {r : Fin 4} {s s' : State}
    (e : execBdRsStop p r s = .next s') : Fr 16777217 s s' := by
  unfold execBdRsStop at e
  refine keeps_next e ?_
  clear e
  have hk := Fr.refl 16777217 s
  have hm : Sub 16777217 16777217 := Sub.refl _
  repeat' first
    | with_reducible assumption | (exact Sub.mono hm rfl) | intro _ | with_reducible apply keeps_gatedWrite
    | with_reducible apply keeps_rsCtlWrite | dsimp only

theorem keeps_rsDeliver {msk : Nat} {s0 s : State} (r : Nat) (x : BdRec) (hk : Fr msk s0 s)
    (hm : Sub 822083584 msk := by exact Sub.mono (by assumption) rfl) :
    Fr msk s0 (State.rsDeliver s r x) := by
  unfold State.rsDeliver
  repeat' first
    | with_reducible assumption | (exact Sub.mono hm rfl) | intro _
    | (extract_lets +onlyGivenNames x; refine keeps_have (msk := msk) (s0 := s0) (x := x) ?_ ?_; rotate_left; clear_value x; intro hx; rotate_right; subst x)
    | (extract_lets +onlyGivenNames x; clear_value x) | with_reducible apply keeps_emit | with_reducible apply keeps_modBd
    | with_reducible apply keeps_useFree | split | dsimp only

theorem keeps_leafRead {msk : Nat} {s0 s : State} (r : Nat) (lost : Bool) (hk : Fr msk s0 s)
    (hm : Sub 822083751 msk := by exact Sub.mono (by assumption) rfl) :
    Fr msk s0 (State.leafRead s r lost) := by
  unfold State.leafRead
  repeat' first
    | with_reducible assumption | with_reducible apply keeps_count | with_reducible apply keeps_each
    | with_reducible apply keeps_modBd | with_reducible apply keeps_put | with_reducible apply keeps_rsDeliver
    | with_reducible apply keeps_showMedia | with_reducible apply keeps_foldl | with_reducible apply keeps_foldl_fst
    | (extract_lets +onlyGivenNames x; refine keeps_fun (x := x) ?_; subst x) | (exact Sub.mono hm rfl) | intro _
    | (extract_lets +onlyGivenNames x; refine keeps_have (msk := msk) (s0 := s0) (x := x) ?_ ?_; rotate_left; clear_value x; intro hx; rotate_right; subst x)
    | (extract_lets +onlyGivenNames x; clear_value x) | with_reducible apply keeps_ite | split | dsimp only

theorem keeps_execBdLeafRead {r : Fin 4} {lost : Bool} {s s' : State}
    (e : execBdLeafRead r lost s = .next s') : Fr 822083751 s s' := by
  unfold execBdLeafRead at e
  refine keeps_next e ?_
  clear e
  have hk := Fr.refl 822083751 s
  have hm : Sub 822083751 822083751 := Sub.refl _
  repeat' first
    | with_reducible assumption | (exact Sub.mono hm rfl) | intro _ | with_reducible apply keeps_inIsland
    | with_reducible apply keeps_leafRead | dsimp only

theorem keeps_bdSetWrite {msk : Nat} {s0 s : State} (name : RegName) (i : Nat) (a : Nat) (v : Nat) (hk : Fr msk s0 s)
    (hm : Sub 268435623 msk := by exact Sub.mono (by assumption) rfl) :
    Fr msk s0 (stOf (State.bdSetWrite s name i a v)) := by
  unfold State.bdSetWrite
  repeat' first
    | with_reducible assumption | with_reducible apply keeps_answer | with_reducible apply keeps_plainWrite
    | with_reducible apply keeps_put | with_reducible apply keeps_showCat | with_reducible apply keeps_showMedia
    | with_reducible apply keeps_showRates | (extract_lets +onlyGivenNames x; refine keeps_fun (x := x) ?_; subst x)
    | (exact Sub.mono hm rfl) | intro _
    | (extract_lets +onlyGivenNames x; refine keeps_have (msk := msk) (s0 := s0) (x := x) ?_ ?_; rotate_left; clear_value x; intro hx; rotate_right; subst x)
    | (extract_lets +onlyGivenNames x; refine keeps_have_fst (msk := msk) (s0 := s0) (x := x) ?_ ?_; rotate_left; clear_value x; intro hx; rotate_right; subst x)
    | (extract_lets +onlyGivenNames x; clear_value x) | with_reducible apply keeps_ite | with_reducible apply keeps_ite_fst
    | (simp only [stOf_mk]) | split | with_reducible apply keeps_fst | dsimp only

/-! ### HostPort -/

theorem keeps_modHs {msk : Nat} {s0 s : State} (f : HsSt → HsSt) (hk : Fr msk s0 s)
    (hm : Sub 33554432 msk := by exact Sub.mono (by assumption) rfl) :
    Fr msk s0 (State.modHs s f) := by
  unfold State.modHs
  repeat' first
    | with_reducible assumption | (exact Sub.mono hm rfl) | intro _
    | (extract_lets +onlyGivenNames x; refine keeps_have (msk := msk) (s0 := s0) (x := x) ?_ ?_; rotate_left; clear_value x; intro hx; rotate_right; subst x)
    | (extract_lets +onlyGivenNames x; clear_value x) | dsimp only | with_reducible apply keeps_hs

theorem keeps_modDma {msk : Nat} {s0 s : State} (c : Nat) (f : DmaCh → DmaCh) (hk : Fr msk s0 s)
    (hm : Sub 33554432 msk := by exact Sub.mono (by assumption) rfl) :
    Fr msk s0 (State.modDma s c f) := by
  unfold State.modDma
  repeat' first
    | with_reducible assumption | (exact Sub.mono hm rfl) | intro _
    | (extract_lets +onlyGivenNames x; refine keeps_have (msk := msk) (s0 := s0) (x := x) ?_ ?_; rotate_left; clear_value x; intro hx; rotate_right; subst x)
    | (extract_lets +onlyGivenNames x; clear_value x) | with_reducible apply keeps_modHs | dsimp only

theorem keeps_modHq {msk : Nat} {s0 s : State} (q : Nat) (f : HqSt → HqSt) (hk : Fr msk s0 s)
    (hm : Sub 33554432 msk := by exact Sub.mono (by assumption) rfl) :
    Fr msk s0 (State.modHq s q f) := by
  unfold State.modHq
  repeat' first
    | with_reducible assumption | (exact Sub.mono hm rfl) | intro _
    | (extract_lets +onlyGivenNames x; refine keeps_have (msk := msk) (s0 := s0) (x := x) ?_ ?_; rotate_left; clear_value x; intro hx; rotate_right; subst x)
    | (extract_lets +onlyGivenNames x; clear_value x) | with_reducible apply keeps_modHs | dsimp only

theorem keeps_windowDRead {msk : Nat} {s0 s : State} (o : Nat) (n : Nat) (hk : Fr msk s0 s)
    (hm : Sub 805578407 msk := by exact Sub.mono (by assumption) rfl) :
    Fr msk s0 (State.windowDRead s o n) := by
  unfold State.windowDRead
  repeat' first
    | with_reducible assumption | (exact Sub.mono hm rfl) | intro _
    | (extract_lets +onlyGivenNames x; refine keeps_have (msk := msk) (s0 := s0) (x := x) ?_ ?_; rotate_left; clear_value x; intro hx; rotate_right; subst x)
    | (extract_lets +onlyGivenNames x; refine keeps_have_fst (msk := msk) (s0 := s0) (x := x) ?_ ?_; rotate_left; clear_value x; intro hx; rotate_right; subst x)
    | (extract_lets +onlyGivenNames x; clear_value x) | with_reducible apply keeps_count | with_reducible apply keeps_emit
    | with_reducible apply keeps_memFetch | with_reducible apply keeps_ite | with_reducible apply keeps_ite_fst
    | (simp only [stOf_mk]) | split | with_reducible apply keeps_fst | dsimp only

theorem keeps_execWindowDRead {o : BitVec 36} {n : Fin 4097} {s s' : State}
    (e : execWindowDRead o n s = .next s') : Fr 805578407 s s' := by
  unfold execWindowDRead at e
  refine keeps_next e ?_
  clear e
  have hk := Fr.refl 805578407 s
  have hm : Sub 805578407 805578407 := Sub.refl _
  repeat' first
    | with_reducible assumption | (exact Sub.mono hm rfl) | intro _ | with_reducible apply keeps_inIsland
    | with_reducible apply keeps_windowDRead | dsimp only

theorem keeps_windowDWrite {msk : Nat} {s0 s : State} (o : Nat) (bs : List Byte) (hk : Fr msk s0 s)
    (hm : Sub 268707495 msk := by exact Sub.mono (by assumption) rfl) :
    Fr msk s0 (State.windowDWrite s o bs) := by
  unfold State.windowDWrite
  repeat' first
    | with_reducible assumption | (exact Sub.mono hm rfl) | intro _
    | (extract_lets +onlyGivenNames x; refine keeps_have (msk := msk) (s0 := s0) (x := x) ?_ ?_; rotate_left; clear_value x; intro hx; rotate_right; subst x)
    | (extract_lets +onlyGivenNames x; clear_value x) | with_reducible apply keeps_count
    | with_reducible apply keeps_memWrite | with_reducible apply keeps_ite | split | dsimp only

theorem keeps_execWindowDWrite {o : BitVec 36} {bs : List Byte} {s s' : State}
    (e : execWindowDWrite o bs s = .next s') : Fr 268707495 s s' := by
  unfold execWindowDWrite at e
  refine keeps_next e ?_
  clear e
  have hk := Fr.refl 268707495 s
  have hm : Sub 268707495 268707495 := Sub.refl _
  repeat' first
    | with_reducible assumption | (exact Sub.mono hm rfl) | intro _ | with_reducible apply keeps_inIsland
    | with_reducible apply keeps_windowDWrite | dsimp only

theorem keeps_hqRaise {msk : Nat} {s0 s : State} (q : Nat) (old : Nat) (hk : Fr msk s0 s)
    (hm : Sub 268435584 msk := by exact Sub.mono (by assumption) rfl) :
    Fr msk s0 (State.hqRaise s q old) := by
  unfold State.hqRaise
  repeat' first
    | with_reducible assumption | (exact Sub.mono hm rfl) | intro _
    | (extract_lets +onlyGivenNames x; refine keeps_have (msk := msk) (s0 := s0) (x := x) ?_ ?_; rotate_left; clear_value x; intro hx; rotate_right; subst x)
    | (extract_lets +onlyGivenNames x; clear_value x) | with_reducible apply keeps_signal | with_reducible apply keeps_ite
    | dsimp only

theorem keeps_hqPush {msk : Nat} {s0 s t : State} {q : Nat} {x : HqEntry} (e : s.hqPush q x = some t) (hk : Fr msk s0 s)
    (hm : Sub 301990016 msk := by exact Sub.mono (by assumption) rfl) : Fr msk s0 t := by
  unfold State.hqPush at e
  split at e
  · cases e
  · rw [← Option.some.inj e]
    repeat' first
      | with_reducible assumption | (exact Sub.mono hm rfl) | intro _
      | (extract_lets +onlyGivenNames x; refine keeps_have (msk := msk) (s0 := s0) (x := x) ?_ ?_; rotate_left; clear_value x; intro hx; rotate_right; subst x)
      | (extract_lets +onlyGivenNames x; refine keeps_have_fst (msk := msk) (s0 := s0) (x := x) ?_ ?_; rotate_left; clear_value x; intro hx; rotate_right; subst x)
      | (extract_lets +onlyGivenNames x; clear_value x) | with_reducible apply keeps_modHq
      | with_reducible apply keeps_hqRaise | with_reducible apply keeps_ite | with_reducible apply keeps_ite_fst
      | (simp only [stOf_mk]) | with_reducible apply keeps_fst | dsimp only

theorem keeps_hqCtlWrite {msk : Nat} {s0 s : State} (q : Nat) (v : Nat) (hk : Fr msk s0 s)
    (hm : Sub 33554433 msk := by exact Sub.mono (by assumption) rfl) :
    Fr msk s0 (stOf (State.hqCtlWrite s q v)) := by
  unfold State.hqCtlWrite
  repeat' first
    | with_reducible assumption | (exact Sub.mono hm rfl) | intro _
    | (extract_lets +onlyGivenNames x; refine keeps_have (msk := msk) (s0 := s0) (x := x) ?_ ?_; rotate_left; clear_value x; intro hx; rotate_right; subst x)
    | (extract_lets +onlyGivenNames x; refine keeps_have_fst (msk := msk) (s0 := s0) (x := x) ?_ ?_; rotate_left; clear_value x; intro hx; rotate_right; subst x)
    | (extract_lets +onlyGivenNames x; clear_value x) | with_reducible apply keeps_modHq
    | with_reducible apply keeps_plainWrite | with_reducible apply keeps_put | with_reducible apply keeps_ite
    | with_reducible apply keeps_ite_fst | (simp only [stOf_mk]) | with_reducible apply keeps_fst | dsimp only

theorem keeps_execHqEnable {p : Fin 5} {q : Fin 32} {v : Word} {s s' : State}
    (e : execHqEnable p q v s = .next s') : Fr 33554433 s s' := by
  unfold execHqEnable at e
  refine keeps_next e ?_
  clear e
  have hk := Fr.refl 33554433 s
  have hm : Sub 33554433 33554433 := Sub.refl _
  repeat' first
    | with_reducible assumption | (exact Sub.mono hm rfl) | intro _ | with_reducible apply keeps_gatedWrite
    | with_reducible apply keeps_hqCtlWrite | dsimp only

theorem keeps_hqStatusWrite {msk : Nat} {s0 s : State} (q : Nat) (v : Nat) (hk : Fr msk s0 s)
    (hm : Sub 1 msk := by exact Sub.mono (by assumption) rfl) :
    Fr msk s0 (stOf (State.hqStatusWrite s q v)) := by
  unfold State.hqStatusWrite
  repeat' first
    | with_reducible assumption | (exact Sub.mono hm rfl) | intro _ | with_reducible apply keeps_plainWrite
    | with_reducible apply keeps_ite | with_reducible apply keeps_ite_fst | (simp only [stOf_mk])
    | with_reducible apply keeps_fst | dsimp only

theorem keeps_windowQ {msk : Nat} {s0 s : State} (q : Nat) (write : Bool) (hk : Fr msk s0 s)
    (hm : Sub 1 msk := by exact Sub.mono (by assumption) rfl) :
    Fr msk s0 (stOf (State.windowQ s q write)) := by
  unfold State.windowQ
  repeat' first
    | with_reducible assumption | (exact Sub.mono hm rfl) | intro _
    | (extract_lets +onlyGivenNames x; refine keeps_have (msk := msk) (s0 := s0) (x := x) ?_ ?_; rotate_left; clear_value x; intro hx; rotate_right; subst x)
    | (extract_lets +onlyGivenNames x; refine keeps_have_fst (msk := msk) (s0 := s0) (x := x) ?_ ?_; rotate_left; clear_value x; intro hx; rotate_right; subst x)
    | (extract_lets +onlyGivenNames x; clear_value x) | with_reducible apply keeps_recordRefusal
    | with_reducible apply keeps_ite | with_reducible apply keeps_ite_fst | (simp only [stOf_mk])
    | with_reducible apply keeps_fst | dsimp only

theorem keeps_hqBad {msk : Nat} {s0 s : State} (q : Nat) (write : Bool) (hk : Fr msk s0 s)
    (hm : Sub 268435457 msk := by exact Sub.mono (by assumption) rfl) :
    Fr msk s0 (State.hqBad s q write) := by
  unfold State.hqBad
  repeat' first
    | with_reducible assumption | (exact Sub.mono hm rfl) | intro _
    | (extract_lets +onlyGivenNames x; refine keeps_have (msk := msk) (s0 := s0) (x := x) ?_ ?_; rotate_left; clear_value x; intro hx; rotate_right; subst x)
    | (extract_lets +onlyGivenNames x; clear_value x) | with_reducible apply keeps_count | with_reducible apply keeps_emit
    | with_reducible apply keeps_ite | dsimp only

theorem keeps_hqLoRead {msk : Nat} {s0 s : State} (q : Nat) (aligned : Bool) (err : Nat) (hk : Fr msk s0 s)
    (hm : Sub 301989889 msk := by exact Sub.mono (by assumption) rfl) :
    Fr msk s0 (State.hqLoRead s q aligned err) := by
  unfold State.hqLoRead
  repeat' first
    | with_reducible assumption | (exact Sub.mono hm rfl) | intro _
    | (extract_lets +onlyGivenNames x; refine keeps_have (msk := msk) (s0 := s0) (x := x) ?_ ?_; rotate_left; clear_value x; intro hx; rotate_right; subst x)
    | (extract_lets +onlyGivenNames x; refine keeps_have_fst (msk := msk) (s0 := s0) (x := x) ?_ ?_; rotate_left; clear_value x; intro hx; rotate_right; subst x)
    | (extract_lets +onlyGivenNames x; clear_value x) | with_reducible apply keeps_count | with_reducible apply keeps_emit
    | with_reducible apply keeps_hqBad | with_reducible apply keeps_modHq | with_reducible apply keeps_put
    | with_reducible apply keeps_windowQ | with_reducible apply keeps_ite | with_reducible apply keeps_ite_fst
    | (simp only [stOf_mk]) | split | with_reducible apply keeps_fst | dsimp only

theorem keeps_execHqLoRead {q : Fin 32} {aligned : Bool} {err : Fin 3} {s s' : State}
    (e : execHqLoRead q aligned err s = .next s') : Fr 301989889 s s' := by
  unfold execHqLoRead at e
  refine keeps_next e ?_
  clear e
  have hk := Fr.refl 301989889 s
  have hm : Sub 301989889 301989889 := Sub.refl _
  repeat' first
    | with_reducible assumption | (exact Sub.mono hm rfl) | intro _ | with_reducible apply keeps_hqLoRead
    | with_reducible apply keeps_inIsland | dsimp only

theorem keeps_hqHiRead {msk : Nat} {s0 s : State} (q : Nat) (aligned : Bool) (hk : Fr msk s0 s)
    (hm : Sub 301989889 msk := by exact Sub.mono (by assumption) rfl) :
    Fr msk s0 (State.hqHiRead s q aligned) := by
  unfold State.hqHiRead
  repeat' first
    | with_reducible assumption | (exact Sub.mono hm rfl) | intro _
    | (extract_lets +onlyGivenNames x; refine keeps_have (msk := msk) (s0 := s0) (x := x) ?_ ?_; rotate_left; clear_value x; intro hx; rotate_right; subst x)
    | (extract_lets +onlyGivenNames x; refine keeps_have_fst (msk := msk) (s0 := s0) (x := x) ?_ ?_; rotate_left; clear_value x; intro hx; rotate_right; subst x)
    | (extract_lets +onlyGivenNames x; clear_value x) | with_reducible apply keeps_emit | with_reducible apply keeps_hqBad
    | with_reducible apply keeps_modHq | with_reducible apply keeps_windowQ | with_reducible apply keeps_ite
    | with_reducible apply keeps_ite_fst | (simp only [stOf_mk]) | split | with_reducible apply keeps_fst | dsimp only

theorem keeps_execHqHiRead {q : Fin 32} {aligned : Bool} {s s' : State}
    (e : execHqHiRead q aligned s = .next s') : Fr 301989889 s s' := by
  unfold execHqHiRead at e
  refine keeps_next e ?_
  clear e
  have hk := Fr.refl 301989889 s
  have hm : Sub 301989889 301989889 := Sub.refl _
  repeat' first
    | with_reducible assumption | (exact Sub.mono hm rfl) | intro _ | with_reducible apply keeps_hqHiRead
    | with_reducible apply keeps_inIsland | dsimp only

theorem keeps_hqCmd {msk : Nat} {s0 s : State} (q : Nat) (cmd : Nat) (hk : Fr msk s0 s)
    (hm : Sub 301990017 msk := by exact Sub.mono (by assumption) rfl) :
    Fr msk s0 (State.hqCmd s q cmd) := by
  unfold State.hqCmd
  repeat' first
    | with_reducible assumption | (exact Sub.mono hm rfl) | intro _
    | (extract_lets +onlyGivenNames x; refine keeps_have (msk := msk) (s0 := s0) (x := x) ?_ ?_; rotate_left; clear_value x; intro hx; rotate_right; subst x)
    | (extract_lets +onlyGivenNames x; refine keeps_have_fst (msk := msk) (s0 := s0) (x := x) ?_ ?_; rotate_left; clear_value x; intro hx; rotate_right; subst x)
    | (extract_lets +onlyGivenNames x; clear_value x) | with_reducible apply keeps_hqRaise | with_reducible apply keeps_modHq
    | with_reducible apply keeps_windowQ | with_reducible apply keeps_ite | with_reducible apply keeps_ite_fst
    | (simp only [stOf_mk]) | split | with_reducible apply keeps_fst | dsimp only

theorem keeps_execHqCmdMark {q : Fin 32} {s s' : State}
    (e : execHqCmdMark q s = .next s') : Fr 301990017 s s' := by
  unfold execHqCmdMark at e
  refine keeps_next e ?_
  clear e
  have hk := Fr.refl 301990017 s
  have hm : Sub 301990017 301990017 := Sub.refl _
  repeat' first
    | with_reducible assumption | (exact Sub.mono hm rfl) | intro _ | with_reducible apply keeps_hqCmd
    | with_reducible apply keeps_inIsland | dsimp only

theorem keeps_execHqCmdRewind {q : Fin 32} {s s' : State}
    (e : execHqCmdRewind q s = .next s') : Fr 301990017 s s' := by
  unfold execHqCmdRewind at e
  refine keeps_next e ?_
  clear e
  have hk := Fr.refl 301990017 s
  have hm : Sub 301990017 301990017 := Sub.refl _
  repeat' first
    | with_reducible assumption | (exact Sub.mono hm rfl) | intro _ | with_reducible apply keeps_hqCmd
    | with_reducible apply keeps_inIsland | dsimp only

theorem keeps_execHqCmdRelease {q : Fin 32} {s s' : State}
    (e : execHqCmdRelease q s = .next s') : Fr 301990017 s s' := by
  unfold execHqCmdRelease at e
  refine keeps_next e ?_
  clear e
  have hk := Fr.refl 301990017 s
  have hm : Sub 301990017 301990017 := Sub.refl _
  repeat' first
    | with_reducible assumption | (exact Sub.mono hm rfl) | intro _ | with_reducible apply keeps_hqCmd
    | with_reducible apply keeps_inIsland | dsimp only

theorem keeps_hqLoWrite {msk : Nat} {s0 s : State} (q : Nat) (aligned : Bool) (v : BitVec 64) (hk : Fr msk s0 s)
    (hm : Sub 301989889 msk := by exact Sub.mono (by assumption) rfl) :
    Fr msk s0 (State.hqLoWrite s q aligned v) := by
  unfold State.hqLoWrite
  repeat' first
    | with_reducible assumption | (exact Sub.mono hm rfl) | intro _
    | (extract_lets +onlyGivenNames x; refine keeps_have (msk := msk) (s0 := s0) (x := x) ?_ ?_; rotate_left; clear_value x; intro hx; rotate_right; subst x)
    | (extract_lets +onlyGivenNames x; refine keeps_have_fst (msk := msk) (s0 := s0) (x := x) ?_ ?_; rotate_left; clear_value x; intro hx; rotate_right; subst x)
    | (extract_lets +onlyGivenNames x; clear_value x) | with_reducible apply keeps_hqBad | with_reducible apply keeps_modHq
    | with_reducible apply keeps_windowQ | with_reducible apply keeps_ite | with_reducible apply keeps_ite_fst
    | (simp only [stOf_mk]) | split | with_reducible apply keeps_fst | dsimp only

theorem keeps_execHqLoWrite {q : Fin 32} {aligned : Bool} {v : BitVec 64} {s s' : State}
    (e : execHqLoWrite q aligned v s = .next s') : Fr 301989889 s s' := by
  unfold execHqLoWrite at e
  refine keeps_next e ?_
  clear e
  have hk := Fr.refl 301989889 s
  have hm : Sub 301989889 301989889 := Sub.refl _
  repeat' first
    | with_reducible assumption | (exact Sub.mono hm rfl) | intro _ | with_reducible apply keeps_hqLoWrite
    | with_reducible apply keeps_inIsland | dsimp only

theorem keeps_hqHiWrite {msk : Nat} {s0 s : State} (q : Nat) (aligned : Bool) (v : BitVec 64) (hk : Fr msk s0 s)
    (hm : Sub 301989889 msk := by exact Sub.mono (by assumption) rfl) :
    Fr msk s0 (State.hqHiWrite s q aligned v) := by
  unfold State.hqHiWrite
  repeat' first
    | with_reducible assumption | (exact Sub.mono hm rfl) | intro _
    | (extract_lets +onlyGivenNames x; refine keeps_have (msk := msk) (s0 := s0) (x := x) ?_ ?_; rotate_left; clear_value x; intro hx; rotate_right; subst x)
    | (extract_lets +onlyGivenNames x; refine keeps_have_fst (msk := msk) (s0 := s0) (x := x) ?_ ?_; rotate_left; clear_value x; intro hx; rotate_right; subst x)
    | (extract_lets +onlyGivenNames x; clear_value x) | with_reducible apply keeps_hqBad | with_reducible apply keeps_modHq
    | with_reducible apply keeps_windowQ | with_reducible apply keeps_ite | with_reducible apply keeps_ite_fst
    | (simp only [stOf_mk]) | split | with_reducible apply keeps_fst | dsimp only

theorem keeps_execHqHiWrite {q : Fin 32} {aligned : Bool} {v : BitVec 64} {s s' : State}
    (e : execHqHiWrite q aligned v s = .next s') : Fr 301989889 s s' := by
  unfold execHqHiWrite at e
  refine keeps_next e ?_
  clear e
  have hk := Fr.refl 301989889 s
  have hm : Sub 301989889 301989889 := Sub.refl _
  repeat' first
    | with_reducible assumption | (exact Sub.mono hm rfl) | intro _ | with_reducible apply keeps_hqHiWrite
    | with_reducible apply keeps_inIsland | dsimp only

theorem keeps_hqPop {msk : Nat} {s0 s : State} (q : Nat) (hk : Fr msk s0 s)
    (hm : Sub 301990016 msk := by exact Sub.mono (by assumption) rfl) :
    Fr msk s0 (State.hqPop s q) := by
  unfold State.hqPop
  repeat' first
    | with_reducible assumption | (exact Sub.mono hm rfl) | intro _
    | (extract_lets +onlyGivenNames x; refine keeps_have (msk := msk) (s0 := s0) (x := x) ?_ ?_; rotate_left; clear_value x; intro hx; rotate_right; subst x)
    | (extract_lets +onlyGivenNames x; clear_value x) | with_reducible apply keeps_hqRaise | with_reducible apply keeps_modHq
    | dsimp only

theorem keeps_hqSafe {msk : Nat} {s0 s : State}  (hk : Fr msk s0 s)
    (hm : Sub 301990016 msk := by exact Sub.mono (by assumption) rfl) :
    Fr msk s0 (State.hqSafe s) := by
  unfold State.hqSafe
  repeat' first
    | with_reducible assumption | (exact Sub.mono hm rfl) | intro _
    | (extract_lets +onlyGivenNames x; refine keeps_have (msk := msk) (s0 := s0) (x := x) ?_ ?_; rotate_left; clear_value x; intro hx; rotate_right; subst x)
    | (extract_lets +onlyGivenNames x; clear_value x) | with_reducible apply keeps_each | with_reducible apply keeps_hqRaise
    | with_reducible apply keeps_modHq | with_reducible apply keeps_ite | dsimp only

theorem keeps_hqInError {msk : Nat} {s0 s : State} (q : Nat) (err : Nat) (hk : Fr msk s0 s)
    (hm : Sub 301990017 msk := by exact Sub.mono (by assumption) rfl) :
    Fr msk s0 (stOf (State.hqInError s q err)) := by
  unfold State.hqInError
  repeat' first
    | with_reducible assumption | (exact Sub.mono hm rfl) | intro _ | with_reducible apply keeps_count
    | with_reducible apply keeps_hqPop | with_reducible apply keeps_put | with_reducible apply keeps_ite
    | with_reducible apply keeps_ite_fst | (simp only [stOf_mk]) | with_reducible apply keeps_fst | dsimp only

theorem keeps_dmaSignal {msk : Nat} {s0 s : State} (c : Nat) (hk : Fr msk s0 s)
    (hm : Sub 268435584 msk := by exact Sub.mono (by assumption) rfl) :
    Fr msk s0 (State.dmaSignal s c) := by
  unfold State.dmaSignal
  repeat' first
    | with_reducible assumption | (exact Sub.mono hm rfl) | intro _ | with_reducible apply keeps_signal | dsimp only

theorem keeps_dmaHalt {msk : Nat} {s0 s : State} (c : Nat) (hk : Fr msk s0 s)
    (hm : Sub 301990017 msk := by exact Sub.mono (by assumption) rfl) :
    Fr msk s0 (State.dmaHalt s c) := by
  unfold State.dmaHalt
  repeat' first
    | with_reducible assumption | (exact Sub.mono hm rfl) | intro _
    | (extract_lets +onlyGivenNames x; refine keeps_have (msk := msk) (s0 := s0) (x := x) ?_ ?_; rotate_left; clear_value x; intro hx; rotate_right; subst x)
    | (extract_lets +onlyGivenNames x; clear_value x) | with_reducible apply keeps_dmaSignal
    | with_reducible apply keeps_modDma | with_reducible apply keeps_put | dsimp only

theorem keeps_dmaRefuse {msk : Nat} {s0 s : State} (c : Nat) (code : Nat) (hk : Fr msk s0 s)
    (hm : Sub 301990017 msk := by exact Sub.mono (by assumption) rfl) :
    Fr msk s0 (State.dmaRefuse s c code) := by
  unfold State.dmaRefuse
  repeat' first
    | with_reducible assumption | (exact Sub.mono hm rfl) | intro _ | with_reducible apply keeps_dmaHalt
    | with_reducible apply keeps_put | dsimp only

theorem keeps_dmaError {msk : Nat} {s0 s : State} (c : Nat) (dir : Nat) (addr : Nat) (late : Bool) (hk : Fr msk s0 s)
    (hm : Sub 301990017 msk := by exact Sub.mono (by assumption) rfl) :
    Fr msk s0 (State.dmaError s c dir addr late) := by
  unfold State.dmaError
  repeat' first
    | with_reducible assumption | (exact Sub.mono hm rfl) | intro _
    | (extract_lets +onlyGivenNames x; refine keeps_have (msk := msk) (s0 := s0) (x := x) ?_ ?_; rotate_left; clear_value x; intro hx; rotate_right; subst x)
    | (extract_lets +onlyGivenNames x; clear_value x) | with_reducible apply keeps_dmaHalt | with_reducible apply keeps_put
    | with_reducible apply keeps_setVal | with_reducible apply keeps_ite | dsimp only

theorem keeps_dmaStart {msk : Nat} {s0 s : State} (c : Nat) (path : Nat) (addr : Nat) (hk : Fr msk s0 s)
    (hm : Sub 301989889 msk := by exact Sub.mono (by assumption) rfl) :
    Fr msk s0 (State.dmaStart s c path addr) := by
  unfold State.dmaStart
  repeat' first
    | with_reducible assumption | (exact Sub.mono hm rfl) | intro _
    | (extract_lets +onlyGivenNames x; refine keeps_have (msk := msk) (s0 := s0) (x := x) ?_ ?_; rotate_left; clear_value x; intro hx; rotate_right; subst x)
    | (extract_lets +onlyGivenNames x; clear_value x) | with_reducible apply keeps_emit | with_reducible apply keeps_modDma
    | with_reducible apply keeps_put | with_reducible apply keeps_setVal | with_reducible apply keeps_ite | dsimp only

theorem keeps_dmaNext {msk : Nat} {s0 s : State} (c : Nat) (d : DmaDesc) (hk : Fr msk s0 s)
    (hm : Sub 301989889 msk := by exact Sub.mono (by assumption) rfl) :
    Fr msk s0 (State.dmaNext s c d) := by
  unfold State.dmaNext
  repeat' first
    | with_reducible assumption | (exact Sub.mono hm rfl) | intro _
    | (extract_lets +onlyGivenNames x; refine keeps_have (msk := msk) (s0 := s0) (x := x) ?_ ?_; rotate_left; clear_value x; intro hx; rotate_right; subst x)
    | (extract_lets +onlyGivenNames x; clear_value x) | with_reducible apply keeps_emit | with_reducible apply keeps_gap
    | with_reducible apply keeps_modDma | with_reducible apply keeps_put | with_reducible apply keeps_setVal
    | with_reducible apply keeps_ite | dsimp only

theorem keeps_dmaPost {msk : Nat} {s0 s : State} (c : Nat) (hk : Fr msk s0 s)
    (hm : Sub 301990021 msk := by exact Sub.mono (by assumption) rfl) :
    Fr msk s0 (State.dmaPost s c) := by
  unfold State.dmaPost
  repeat' first
    | with_reducible assumption | (exact Sub.mono hm rfl) | intro _
    | (extract_lets +onlyGivenNames x; refine keeps_have (msk := msk) (s0 := s0) (x := x) ?_ ?_; rotate_left; clear_value x; intro hx; rotate_right; subst x)
    | (extract_lets +onlyGivenNames x; clear_value x) | with_reducible apply keeps_count | with_reducible apply keeps_dmaNext
    | with_reducible apply keeps_dmaSignal | with_reducible apply keeps_gap
    | (with_reducible refine keeps_hqPush (by with_reducible assumption) ?_) | with_reducible apply keeps_modDma
    | with_reducible apply keeps_ite | split | dsimp only

theorem keeps_dmaConfirm {msk : Nat} {s0 s : State} (c : Nat) (d : DmaDesc) (hk : Fr msk s0 s)
    (hm : Sub 301990021 msk := by exact Sub.mono (by assumption) rfl) :
    Fr msk s0 (State.dmaConfirm s c d) := by
  unfold State.dmaConfirm
  repeat' first
    | with_reducible assumption | (exact Sub.mono hm rfl) | intro _
    | (extract_lets +onlyGivenNames x; refine keeps_have (msk := msk) (s0 := s0) (x := x) ?_ ?_; rotate_left; clear_value x; intro hx; rotate_right; subst x)
    | (extract_lets +onlyGivenNames x; clear_value x) | with_reducible apply keeps_dmaPost | with_reducible apply keeps_emit
    | with_reducible apply keeps_modDma | with_reducible apply keeps_ite | split | dsimp only

theorem keeps_dmaAsk {msk : Nat} {s0 s : State} (c : Nat) (hk : Fr msk s0 s)
    (hm : Sub 268435456 msk := by exact Sub.mono (by assumption) rfl) :
    Fr msk s0 (State.dmaAsk s c) := by
  unfold State.dmaAsk
  repeat' first
    | with_reducible assumption | (exact Sub.mono hm rfl) | intro _
    | (extract_lets +onlyGivenNames x; refine keeps_have (msk := msk) (s0 := s0) (x := x) ?_ ?_; rotate_left; clear_value x; intro hx; rotate_right; subst x)
    | (extract_lets +onlyGivenNames x; refine keeps_have_fst (msk := msk) (s0 := s0) (x := x) ?_ ?_; rotate_left; clear_value x; intro hx; rotate_right; subst x)
    | (extract_lets +onlyGivenNames x; clear_value x) | with_reducible apply keeps_emit | with_reducible apply keeps_ite
    | with_reducible apply keeps_ite_fst | (simp only [stOf_mk]) | split | with_reducible apply keeps_fst | dsimp only

theorem keeps_sinkPut {msk : Nat} {s0 s : State} (c : Nat) (d : DmaDesc) (bs : List Byte) (hk : Fr msk s0 s)
    (hm : Sub 302261927 msk := by exact Sub.mono (by assumption) rfl) :
    Fr msk s0 (State.sinkPut s c d bs) := by
  unfold State.sinkPut
  repeat' first
    | with_reducible assumption | (exact Sub.mono hm rfl) | intro _
    | (extract_lets +onlyGivenNames x; refine keeps_have (msk := msk) (s0 := s0) (x := x) ?_ ?_; rotate_left; clear_value x; intro hx; rotate_right; subst x)
    | (extract_lets +onlyGivenNames x; clear_value x) | with_reducible apply keeps_dmaConfirm
    | with_reducible apply keeps_dmaError | with_reducible apply keeps_emit | with_reducible apply keeps_memWrite
    | with_reducible apply keeps_modDma | with_reducible apply keeps_ite | split | dsimp only

theorem keeps_inEngine {msk : Nat} {s0 s : State} (c : Nat) (f : State → State) (h_f : ∀ t , Fr msk s0 t → Fr msk s0 (f t )) (hk : Fr msk s0 s)
    (hm : Sub 0 msk := by exact Sub.mono (by assumption) rfl) :
    Fr msk s0 (State.inEngine s c f) := by
  unfold State.inEngine
  repeat' first
    | with_reducible assumption | (exact Sub.mono hm rfl) | intro _ | with_reducible apply keeps_inIsland
    | with_reducible apply h_f | with_reducible apply keeps_ite | dsimp only

theorem keeps_dmaFetched {msk : Nat} {s0 s : State} (c : Nat) (host : Option (List Byte)) (hk : Fr msk s0 s)
    (hm : Sub 839132839 msk := by exact Sub.mono (by assumption) rfl) :
    Fr msk s0 (State.dmaFetched s c host) := by
  unfold State.dmaFetched
  repeat' first
    | with_reducible assumption | with_reducible apply keeps_dmaAsk | with_reducible apply keeps_dmaError
    | with_reducible apply keeps_dmaRefuse | with_reducible apply keeps_gap | with_reducible apply keeps_memFetch
    | with_reducible apply keeps_modDma | with_reducible apply keeps_sinkPut
    | (extract_lets +onlyGivenNames x; refine keeps_fun (x := x) ?_; subst x) | (exact Sub.mono hm rfl) | intro _
    | (extract_lets +onlyGivenNames x; refine keeps_have (msk := msk) (s0 := s0) (x := x) ?_ ?_; rotate_left; clear_value x; intro hx; rotate_right; subst x)
    | (extract_lets +onlyGivenNames x; refine keeps_have_fst (msk := msk) (s0 := s0) (x := x) ?_ ?_; rotate_left; clear_value x; intro hx; rotate_right; subst x)
    | (extract_lets +onlyGivenNames x; clear_value x) | with_reducible apply keeps_ite | with_reducible apply keeps_ite_fst
    | (simp only [stOf_mk]) | split | with_reducible apply keeps_fst | dsimp only

theorem keeps_execDmaDescriptorFetched {c : Fin 64} {host : Option (List Byte)} {s s' : State}
    (e : execDmaDescriptorFetched c host s = .next s') : Fr 839132839 s s' := by
  unfold execDmaDescriptorFetched at e
  refine keeps_next e ?_
  clear e
  have hk := Fr.refl 839132839 s
  have hm : Sub 839132839 839132839 := Sub.refl _
  repeat' first
    | with_reducible assumption | (exact Sub.mono hm rfl) | intro _ | with_reducible apply keeps_dmaFetched
    | with_reducible apply keeps_inEngine | dsimp only

theorem keeps_dmaPart {msk : Nat} {s0 s : State} (c : Nat) (host : Option (List Byte)) (all : Bool) (hk : Fr msk s0 s)
    (hm : Sub 839132839 msk := by exact Sub.mono (by assumption) rfl) :
    Fr msk s0 (State.dmaPart s c host all) := by
  unfold State.dmaPart
  repeat' first
    | with_reducible assumption | (exact Sub.mono hm rfl) | intro _
    | (extract_lets +onlyGivenNames x; refine keeps_have (msk := msk) (s0 := s0) (x := x) ?_ ?_; rotate_left; clear_value x; intro hx; rotate_right; subst x)
    | (extract_lets +onlyGivenNames x; refine keeps_have_fst (msk := msk) (s0 := s0) (x := x) ?_ ?_; rotate_left; clear_value x; intro hx; rotate_right; subst x)
    | (extract_lets +onlyGivenNames x; clear_value x) | with_reducible apply keeps_dmaAsk
    | with_reducible apply keeps_dmaConfirm | with_reducible apply keeps_dmaError | with_reducible apply keeps_emit
    | with_reducible apply keeps_memFetch | with_reducible apply keeps_memWrite | with_reducible apply keeps_modDma
    | with_reducible apply keeps_ite | with_reducible apply keeps_ite_fst | (simp only [stOf_mk]) | split
    | with_reducible apply keeps_fst | dsimp only

theorem keeps_execDmaRequestCompletion {c : Fin 64} {host : Option (List Byte)} {all : Bool} {s s' : State}
    (e : execDmaRequestCompletion c host all s = .next s') : Fr 839132839 s s' := by
  unfold execDmaRequestCompletion at e
  refine keeps_next e ?_
  clear e
  have hk := Fr.refl 839132839 s
  have hm : Sub 839132839 839132839 := Sub.refl _
  repeat' first
    | with_reducible assumption | (exact Sub.mono hm rfl) | intro _ | with_reducible apply keeps_dmaPart
    | with_reducible apply keeps_inEngine | dsimp only

theorem keeps_execDmaCompletionTimeout {c : Fin 64} {all : Bool} {s s' : State}
    (e : execDmaCompletionTimeout c all s = .next s') : Fr 301990017 s s' := by
  unfold execDmaCompletionTimeout at e
  refine keeps_next e ?_
  clear e
  have hk := Fr.refl 301990017 s
  have hm : Sub 301990017 301990017 := Sub.refl _
  repeat' first
    | with_reducible assumption | (exact Sub.mono hm rfl) | intro _
    | (extract_lets +onlyGivenNames x; refine keeps_have (msk := 301990017) (s0 := s) (x := x) ?_ ?_; rotate_left; clear_value x; intro hx; rotate_right; subst x)
    | (extract_lets +onlyGivenNames x; refine keeps_have_fst (msk := 301990017) (s0 := s) (x := x) ?_ ?_; rotate_left; clear_value x; intro hx; rotate_right; subst x)
    | (extract_lets +onlyGivenNames x; clear_value x) | with_reducible apply keeps_dmaError | with_reducible apply keeps_ite
    | with_reducible apply keeps_ite_fst | (simp only [stOf_mk]) | split | with_reducible apply keeps_fst | dsimp only

theorem keeps_dmaConfirmed {msk : Nat} {s0 s : State} (c : Nat) (ok : Bool) (hk : Fr msk s0 s)
    (hm : Sub 301990021 msk := by exact Sub.mono (by assumption) rfl) :
    Fr msk s0 (State.dmaConfirmed s c ok) := by
  unfold State.dmaConfirmed
  repeat' first
    | with_reducible assumption | (exact Sub.mono hm rfl) | intro _
    | (extract_lets +onlyGivenNames x; refine keeps_have (msk := msk) (s0 := s0) (x := x) ?_ ?_; rotate_left; clear_value x; intro hx; rotate_right; subst x)
    | (extract_lets +onlyGivenNames x; clear_value x) | with_reducible apply keeps_dmaError
    | with_reducible apply keeps_dmaPost | with_reducible apply keeps_ite | split | dsimp only

theorem keeps_execDmaDescriptorConfirmed {c : Fin 64} {ok : Bool} {s s' : State}
    (e : execDmaDescriptorConfirmed c ok s = .next s') : Fr 301990021 s s' := by
  unfold execDmaDescriptorConfirmed at e
  refine keeps_next e ?_
  clear e
  have hk := Fr.refl 301990021 s
  have hm : Sub 301990021 301990021 := Sub.refl _
  repeat' first
    | with_reducible assumption | (exact Sub.mono hm rfl) | intro _ | with_reducible apply keeps_dmaConfirmed
    | with_reducible apply keeps_inEngine | dsimp only

theorem keeps_dmaRecord {msk : Nat} {s0 s : State} (c : Nat) (r : YRec) (hk : Fr msk s0 s)
    (hm : Sub 302261927 msk := by exact Sub.mono (by assumption) rfl) :
    Fr msk s0 (State.dmaRecord s c r) := by
  unfold State.dmaRecord
  repeat' first
    | with_reducible assumption | with_reducible apply keeps_count | with_reducible apply keeps_gap
    | with_reducible apply keeps_modDma | with_reducible apply keeps_sinkPut
    | (extract_lets +onlyGivenNames x; refine keeps_fun (x := x) ?_; subst x) | (exact Sub.mono hm rfl) | intro _
    | (extract_lets +onlyGivenNames x; refine keeps_have (msk := msk) (s0 := s0) (x := x) ?_ ?_; rotate_left; clear_value x; intro hx; rotate_right; subst x)
    | (extract_lets +onlyGivenNames x; clear_value x) | with_reducible apply keeps_ite | split | dsimp only

theorem keeps_execDmaSinkRecord {c : Fin 64} {y : YRec} {s s' : State}
    (e : execDmaSinkRecord c y s = .next s') : Fr 302261927 s s' := by
  unfold execDmaSinkRecord at e
  refine keeps_next e ?_
  clear e
  have hk := Fr.refl 302261927 s
  have hm : Sub 302261927 302261927 := Sub.refl _
  repeat' first
    | with_reducible assumption | (exact Sub.mono hm rfl) | intro _ | with_reducible apply keeps_dmaRecord
    | with_reducible apply keeps_inEngine | dsimp only

theorem keeps_execDmaSinkFlush {c : Fin 64} {s s' : State}
    (e : execDmaSinkFlush c s = .next s') : Fr 301990021 s s' := by
  unfold execDmaSinkFlush at e
  refine keeps_next e ?_
  clear e
  have hk := Fr.refl 301990021 s
  have hm : Sub 301990021 301990021 := Sub.refl _
  repeat' first
    | with_reducible assumption | (exact Sub.mono hm rfl) | intro _
    | (extract_lets +onlyGivenNames x; refine keeps_have (msk := 301990021) (s0 := s) (x := x) ?_ ?_; rotate_left; clear_value x; intro hx; rotate_right; subst x)
    | (extract_lets +onlyGivenNames x; clear_value x) | with_reducible apply keeps_dmaConfirm
    | with_reducible apply keeps_inEngine | with_reducible apply keeps_modDma | with_reducible apply keeps_ite | split
    | dsimp only

theorem keeps_completionRoom {msk : Nat} {s0 s : State} (w : Sum (Fin 64) (Fin 32)) (hk : Fr msk s0 s)
    (hm : Sub 301990017 msk := by exact Sub.mono (by assumption) rfl) :
    Fr msk s0 (State.completionRoom s w) := by
  unfold State.completionRoom
  repeat' first
    | with_reducible assumption | (exact Sub.mono hm rfl) | intro _
    | (extract_lets +onlyGivenNames x; refine keeps_have (msk := msk) (s0 := s0) (x := x) ?_ ?_; rotate_left; clear_value x; intro hx; rotate_right; subst x)
    | (extract_lets +onlyGivenNames x; clear_value x) | with_reducible apply keeps_dmaNext
    | (with_reducible refine keeps_hqPush (by with_reducible assumption) ?_) | with_reducible apply keeps_modHq
    | with_reducible apply keeps_elim | split | dsimp only

theorem keeps_execDmaCompletionRoom {w : Sum (Fin 64) (Fin 32)} {s s' : State}
    (e : execDmaCompletionRoom w s = .next s') : Fr 301990017 s s' := by
  unfold execDmaCompletionRoom at e
  refine keeps_next e ?_
  clear e
  have hk := Fr.refl 301990017 s
  have hm : Sub 301990017 301990017 := Sub.refl _
  repeat' first
    | with_reducible assumption | (exact Sub.mono hm rfl) | intro _ | with_reducible apply keeps_completionRoom
    | with_reducible apply keeps_inIsland | dsimp only

theorem keeps_dmaUntie {msk : Nat} {s0 s : State} (c : Nat) (hk : Fr msk s0 s)
    (hm : Sub 4 msk := by exact Sub.mono (by assumption) rfl) :
    Fr msk s0 (State.dmaUntie s c) := by
  unfold State.dmaUntie
  repeat' first
    | with_reducible assumption | (exact Sub.mono hm rfl) | intro _ | with_reducible apply keeps_freePort | dsimp only

theorem keeps_dmaCtlWrite {msk : Nat} {s0 s : State} (p : Nat) (c : Nat) (v : Nat) (hk : Fr msk s0 s)
    (hm : Sub 301989893 msk := by exact Sub.mono (by assumption) rfl) :
    Fr msk s0 (stOf (State.dmaCtlWrite s p c v)) := by
  unfold State.dmaCtlWrite
  repeat' first
    | with_reducible assumption | (exact Sub.mono hm rfl) | intro _
    | (extract_lets +onlyGivenNames x; refine keeps_have (msk := msk) (s0 := s0) (x := x) ?_ ?_; rotate_left; clear_value x; intro hx; rotate_right; subst x)
    | (extract_lets +onlyGivenNames x; refine keeps_have_fst (msk := msk) (s0 := s0) (x := x) ?_ ?_; rotate_left; clear_value x; intro hx; rotate_right; subst x)
    | (extract_lets +onlyGivenNames x; clear_value x) | with_reducible apply keeps_answer
    | with_reducible apply keeps_dmaStart | with_reducible apply keeps_dmaUntie | with_reducible apply keeps_modDma
    | with_reducible apply keeps_plainWrite | with_reducible apply keeps_put | with_reducible apply keeps_tieAllD
    | with_reducible apply keeps_ite | with_reducible apply keeps_ite_fst | (simp only [stOf_mk]) | split
    | with_reducible apply keeps_fst | dsimp only

theorem keeps_execDmaEnable {p : Fin 5} {c : Fin 64} {v : Word} {s s' : State}
    (e : execDmaEnable p c v s = .next s') : Fr 301989893 s s' := by
  unfold execDmaEnable at e
  refine keeps_next e ?_
  clear e
  have hk := Fr.refl 301989893 s
  have hm : Sub 301989893 301989893 := Sub.refl _
  repeat' first
    | with_reducible assumption | (exact Sub.mono hm rfl) | intro _ | with_reducible apply keeps_dmaCtlWrite
    | with_reducible apply keeps_gatedWrite | dsimp only

theorem keeps_execDmaDisable {p : Fin 5} {c : Fin 64} {s s' : State}
    (e : execDmaDisable p c s = .next s') : Fr 301989893 s s' := by
  unfold execDmaDisable at e
  refine keeps_next e ?_
  clear e
  have hk := Fr.refl 301989893 s
  have hm : Sub 301989893 301989893 := Sub.refl _
  repeat' first
    | with_reducible assumption | (exact Sub.mono hm rfl) | intro _ | with_reducible apply keeps_dmaCtlWrite
    | with_reducible apply keeps_gatedWrite | dsimp only

theorem keeps_execDmaGo {p : Fin 5} {c : Fin 64} {s s' : State}
    (e : execDmaGo p c s = .next s') : Fr 301989893 s s' := by
  unfold execDmaGo at e
  refine keeps_next e ?_
  clear e
  have hk := Fr.refl 301989893 s
  have hm : Sub 301989893 301989893 := Sub.refl _
  repeat' first
    | with_reducible assumption | (exact Sub.mono hm rfl) | intro _ | with_reducible apply keeps_dmaCtlWrite
    | with_reducible apply keeps_gatedWrite | dsimp only

theorem keeps_execDmaAbort {p : Fin 5} {c : Fin 64} {s s' : State}
    (e : execDmaAbort p c s = .next s') : Fr 301989893 s s' := by
  unfold execDmaAbort at e
  refine keeps_next e ?_
  clear e
  have hk := Fr.refl 301989893 s
  have hm : Sub 301989893 301989893 := Sub.refl _
  repeat' first
    | with_reducible assumption | (exact Sub.mono hm rfl) | intro _ | with_reducible apply keeps_dmaCtlWrite
    | with_reducible apply keeps_gatedWrite | dsimp only

theorem keeps_dmaSetWrite {msk : Nat} {s0 s : State} (c : Nat) (a : Nat) (v : Nat) (hk : Fr msk s0 s)
    (hm : Sub 1 msk := by exact Sub.mono (by assumption) rfl) :
    Fr msk s0 (stOf (State.dmaSetWrite s c a v)) := by
  unfold State.dmaSetWrite
  repeat' first
    | with_reducible assumption | (exact Sub.mono hm rfl) | intro _ | with_reducible apply keeps_answer
    | with_reducible apply keeps_plainWrite | with_reducible apply keeps_ite | with_reducible apply keeps_ite_fst
    | (simp only [stOf_mk]) | with_reducible apply keeps_fst | dsimp only

theorem keeps_descStart {msk : Nat} {s0 s : State} (q : Nat) (err : Nat) (hk : Fr msk s0 s)
    (hm : Sub 301990017 msk := by exact Sub.mono (by assumption) rfl) :
    Fr msk s0 (State.descStart s q err) := by
  unfold State.descStart
  repeat' first
    | with_reducible assumption | (exact Sub.mono hm rfl) | intro _
    | (extract_lets +onlyGivenNames x; refine keeps_have (msk := msk) (s0 := s0) (x := x) ?_ ?_; rotate_left; clear_value x; intro hx; rotate_right; subst x)
    | (extract_lets +onlyGivenNames x; refine keeps_have_fst (msk := msk) (s0 := s0) (x := x) ?_ ?_; rotate_left; clear_value x; intro hx; rotate_right; subst x)
    | (extract_lets +onlyGivenNames x; clear_value x) | with_reducible apply keeps_count
    | with_reducible apply keeps_dmaStart | with_reducible apply keeps_hqInError | with_reducible apply keeps_hqPop
    | with_reducible apply keeps_ite | with_reducible apply keeps_ite_fst | (simp only [stOf_mk]) | split
    | with_reducible apply keeps_fst | dsimp only

theorem keeps_execHqDescStart {q : Fin 32} {err : Fin 3} {s s' : State}
    (e : execHqDescStart q err s = .next s') : Fr 301990017 s s' := by
  unfold execHqDescStart at e
  refine keeps_next e ?_
  clear e
  have hk := Fr.refl 301990017 s
  have hm : Sub 301990017 301990017 := Sub.refl _
  repeat' first
    | with_reducible assumption | (exact Sub.mono hm rfl) | intro _ | with_reducible apply keeps_descStart
    | with_reducible apply keeps_inIsland | dsimp only

theorem keeps_execPcieLinkUp {speed : Fin 8} {width : Fin 16} {s s' : State}
    (e : execPcieLinkUp speed width s = .next s') : Fr 1 s s' := by
  unfold execPcieLinkUp at e
  refine keeps_next e ?_
  clear e
  have hk := Fr.refl 1 s
  have hm : Sub 1 1 := Sub.refl _
  repeat' first
    | with_reducible assumption | (exact Sub.mono hm rfl) | intro _ | with_reducible apply keeps_put
    | with_reducible apply keeps_ite | dsimp only

theorem keeps_regsDrop {msk : Nat} {s0 s : State} (f : Nat × Word → Bool) (m : MsixSt) (hk : Fr msk s0 s)
    (hm : Sub 33554565 msk := by exact Sub.mono (by assumption) rfl) :
    Fr msk s0 ({ s with regs := s.regs.filter f, msix := m } : State) :=
  hk.step2 ⟨rfl, rfl, List.prefix_rfl, Nat.le_refl _, fun h => regsWf_filter _ _ f h, id⟩ .regs .msix
      (by exact Sub.mono (by assumption) rfl) (by exact Sub.mono (by assumption) rfl)
      (fun p hp hq => by cases p <;> first | rfl | exact absurd rfl hp | exact absurd rfl hq)

theorem keeps_hsReset {msk : Nat} {s0 s : State} (hk : Fr msk s0 s)
    (hm : Sub 33554565 msk := by exact Sub.mono (by assumption) rfl) : Fr msk s0 (State.hsReset s) := by
  unfold State.hsReset
  exact keeps_modHs _ (keeps_each _ _ (fun _ _ ht => keeps_dmaUntie _ ht) (keeps_regsDrop _ _ hk))

theorem keeps_execPcieFunctionReset  {s s' : State}
    (e : execPcieFunctionReset  s = .next s') : Fr 33554565 s s' := by
  unfold execPcieFunctionReset at e
  refine keeps_next e ?_
  clear e
  have hk := Fr.refl 33554565 s
  have hm : Sub 33554565 33554565 := Sub.refl _
  repeat' first
    | with_reducible assumption | (exact Sub.mono hm rfl) | intro _ | with_reducible apply keeps_hsReset
    | with_reducible apply keeps_ite | dsimp only

theorem keeps_execPePerst  {s s' : State}
    (e : execPePerst  s = .next s') : Fr 33554565 s s' := by
  unfold execPePerst at e
  refine keeps_next e ?_
  clear e
  have hk := Fr.refl 33554565 s
  have hm : Sub 33554565 33554565 := Sub.refl _
  repeat' first
    | with_reducible assumption | (exact Sub.mono hm rfl) | intro _ | with_reducible apply keeps_hsReset
    | with_reducible apply keeps_setVal | with_reducible apply keeps_ite | dsimp only

theorem keeps_unmask {msk : Nat} {s0 s : State} (v : Nat) (hk : Fr msk s0 s)
    (hm : Sub 268435584 msk := by exact Sub.mono (by assumption) rfl) :
    Fr msk s0 (State.unmask s v) := by
  unfold State.unmask
  repeat' first
    | with_reducible assumption | (exact Sub.mono hm rfl) | intro _
    | (extract_lets +onlyGivenNames x; refine keeps_have (msk := msk) (s0 := s0) (x := x) ?_ ?_; rotate_left; clear_value x; intro hx; rotate_right; subst x)
    | (extract_lets +onlyGivenNames x; clear_value x) | with_reducible apply keeps_emit | with_reducible apply keeps_ite
    | dsimp only | with_reducible apply keeps_msix

theorem keeps_execMsixUnmask {v : Fin 256} {s s' : State}
    (e : execMsixUnmask v s = .next s') : Fr 268435584 s s' := by
  unfold execMsixUnmask at e
  refine keeps_next e ?_
  clear e
  have hk := Fr.refl 268435584 s
  have hm : Sub 268435584 268435584 := Sub.refl _
  repeat' first
    | with_reducible assumption | (exact Sub.mono hm rfl) | intro _ | with_reducible apply keeps_unmask | dsimp only

/-! ### Display -/

theorem keeps_modHead {msk : Nat} {s0 s : State} (h : Nat) (f : DsHead → DsHead) (hk : Fr msk s0 s)
    (hm : Sub 134217728 msk := by exact Sub.mono (by assumption) rfl) :
    Fr msk s0 (State.modHead s h f) := by
  unfold State.modHead
  repeat' first
    | with_reducible assumption | (exact Sub.mono hm rfl) | intro _
    | (extract_lets +onlyGivenNames x; refine keeps_have (msk := msk) (s0 := s0) (x := x) ?_ ?_; rotate_left; clear_value x; intro hx; rotate_right; subst x)
    | (extract_lets +onlyGivenNames x; clear_value x) | dsimp only | with_reducible apply keeps_ds

theorem keeps_modLayer {msk : Nat} {s0 s : State} (h : Nat) (l : Nat) (f : DsLayer → DsLayer) (hk : Fr msk s0 s)
    (hm : Sub 134217728 msk := by exact Sub.mono (by assumption) rfl) :
    Fr msk s0 (State.modLayer s h l f) := by
  unfold State.modLayer
  repeat' first
    | with_reducible assumption | (exact Sub.mono hm rfl) | intro _
    | (extract_lets +onlyGivenNames x; refine keeps_have (msk := msk) (s0 := s0) (x := x) ?_ ?_; rotate_left; clear_value x; intro hx; rotate_right; subst x)
    | (extract_lets +onlyGivenNames x; clear_value x) | with_reducible apply keeps_modHead | dsimp only

theorem keeps_showTol {msk : Nat} {s0 s : State}  (hk : Fr msk s0 s)
    (hm : Sub 536870913 msk := by exact Sub.mono (by assumption) rfl) :
    Fr msk s0 (State.showTol s) := by
  unfold State.showTol
  repeat' first
    | with_reducible assumption | (exact Sub.mono hm rfl) | intro _
    | (extract_lets +onlyGivenNames x; refine keeps_have (msk := msk) (s0 := s0) (x := x) ?_ ?_; rotate_left; clear_value x; intro hx; rotate_right; subst x)
    | (extract_lets +onlyGivenNames x; clear_value x) | with_reducible apply keeps_setVal
    | with_reducible apply keeps_useFree | with_reducible apply keeps_ite | split | dsimp only

theorem keeps_dsTrain {msk : Nat} {s0 s : State} (h : Nat) (hk : Fr msk s0 s)
    (hm : Sub 134217728 msk := by exact Sub.mono (by assumption) rfl) :
    Fr msk s0 (State.dsTrain s h) := by
  unfold State.dsTrain
  repeat' first
    | with_reducible assumption | (exact Sub.mono hm rfl) | intro _
    | (extract_lets +onlyGivenNames x; refine keeps_have (msk := msk) (s0 := s0) (x := x) ?_ ?_; rotate_left; clear_value x; intro hx; rotate_right; subst x)
    | (extract_lets +onlyGivenNames x; clear_value x) | with_reducible apply keeps_modHead | with_reducible apply keeps_ite
    | dsimp only

theorem keeps_auxFree {msk : Nat} {s0 s : State} (h : Nat) (hk : Fr msk s0 s)
    (hm : Sub 134217728 msk := by exact Sub.mono (by assumption) rfl) :
    Fr msk s0 (State.auxFree s h) := by
  unfold State.auxFree
  repeat' first
    | with_reducible assumption | (exact Sub.mono hm rfl) | intro _
    | (extract_lets +onlyGivenNames x; refine keeps_have (msk := msk) (s0 := s0) (x := x) ?_ ?_; rotate_left; clear_value x; intro hx; rotate_right; subst x)
    | (extract_lets +onlyGivenNames x; clear_value x) | with_reducible apply keeps_modHead | with_reducible apply keeps_ite
    | dsimp only

theorem keeps_execDsHpdRise {h : Fin 2} {s s' : State}
    (e : execDsHpdRise h s = .next s') : Fr 134217729 s s' := by
  unfold execDsHpdRise at e
  refine keeps_next e ?_
  clear e
  have hk := Fr.refl 134217729 s
  have hm : Sub 134217729 134217729 := Sub.refl _
  repeat' first
    | with_reducible assumption | (exact Sub.mono hm rfl) | intro _ | with_reducible apply keeps_dsTrain
    | with_reducible apply keeps_put | dsimp only

theorem keeps_execDsHpdFall {h : Fin 2} {s s' : State}
    (e : execDsHpdFall h s = .next s') : Fr 134217729 s s' := by
  unfold execDsHpdFall at e
  refine keeps_next e ?_
  clear e
  have hk := Fr.refl 134217729 s
  have hm : Sub 134217729 134217729 := Sub.refl _
  repeat' first
    | with_reducible assumption | (exact Sub.mono hm rfl) | intro _
    | (extract_lets +onlyGivenNames x; refine keeps_have (msk := 134217729) (s0 := s) (x := x) ?_ ?_; rotate_left; clear_value x; intro hx; rotate_right; subst x)
    | (extract_lets +onlyGivenNames x; clear_value x) | with_reducible apply keeps_auxFree
    | with_reducible apply keeps_modHead | with_reducible apply keeps_put | dsimp only

theorem keeps_irqHpd {msk : Nat} {s0 s : State} (h : Nat) (lost : Bool) (hk : Fr msk s0 s)
    (hm : Sub 134217729 msk := by exact Sub.mono (by assumption) rfl) :
    Fr msk s0 (State.irqHpd s h lost) := by
  unfold State.irqHpd
  repeat' first
    | with_reducible assumption | (exact Sub.mono hm rfl) | intro _ | with_reducible apply keeps_dsTrain
    | with_reducible apply keeps_put | with_reducible apply keeps_ite | dsimp only

theorem keeps_execDsIrqHpd {h : Fin 2} {lost : Bool} {s s' : State}
    (e : execDsIrqHpd h lost s = .next s') : Fr 134217729 s s' := by
  unfold execDsIrqHpd at e
  refine keeps_next e ?_
  clear e
  have hk := Fr.refl 134217729 s
  have hm : Sub 134217729 134217729 := Sub.refl _
  repeat' first
    | with_reducible assumption | (exact Sub.mono hm rfl) | intro _ | with_reducible apply keeps_irqHpd | dsimp only

theorem keeps_trainDone {msk : Nat} {s0 s : State} (h : Nat) (ok : Bool) (hk : Fr msk s0 s)
    (hm : Sub 402653351 msk := by exact Sub.mono (by assumption) rfl) :
    Fr msk s0 (State.trainDone s h ok) := by
  unfold State.trainDone
  repeat' first
    | with_reducible assumption | (exact Sub.mono hm rfl) | intro _
    | (extract_lets +onlyGivenNames x; refine keeps_have (msk := msk) (s0 := s0) (x := x) ?_ ?_; rotate_left; clear_value x; intro hx; rotate_right; subst x)
    | (extract_lets +onlyGivenNames x; clear_value x) | with_reducible apply keeps_auxFree
    | with_reducible apply keeps_modHead | with_reducible apply keeps_put | with_reducible apply keeps_raiseAlarm
    | with_reducible apply keeps_ite | dsimp only

theorem keeps_execDsLinkTrainingDone {h : Fin 2} {ok : Bool} {s s' : State}
    (e : execDsLinkTrainingDone h ok s = .next s') : Fr 402653351 s s' := by
  unfold execDsLinkTrainingDone at e
  refine keeps_next e ?_
  clear e
  have hk := Fr.refl 402653351 s
  have hm : Sub 402653351 402653351 := Sub.refl _
  repeat' first
    | with_reducible assumption | (exact Sub.mono hm rfl) | intro _ | with_reducible apply keeps_trainDone | dsimp only

theorem keeps_trainRetry {msk : Nat} {s0 s : State} (h : Nat) (hk : Fr msk s0 s)
    (hm : Sub 134217728 msk := by exact Sub.mono (by assumption) rfl) :
    Fr msk s0 (State.trainRetry s h) := by
  unfold State.trainRetry
  repeat' first
    | with_reducible assumption | (exact Sub.mono hm rfl) | intro _
    | (extract_lets +onlyGivenNames x; refine keeps_have (msk := msk) (s0 := s0) (x := x) ?_ ?_; rotate_left; clear_value x; intro hx; rotate_right; subst x)
    | (extract_lets +onlyGivenNames x; clear_value x) | with_reducible apply keeps_dsTrain | with_reducible apply keeps_ite
    | split | dsimp only

theorem keeps_execDsTrainRetry {h : Fin 2} {s s' : State}
    (e : execDsTrainRetry h s = .next s') : Fr 134217728 s s' := by
  unfold execDsTrainRetry at e
  refine keeps_next e ?_
  clear e
  have hk := Fr.refl 134217728 s
  have hm : Sub 134217728 134217728 := Sub.refl _
  repeat' first
    | with_reducible assumption | (exact Sub.mono hm rfl) | intro _ | with_reducible apply keeps_trainRetry | dsimp only

theorem keeps_auxCmdWrite {msk : Nat} {s0 s : State} (h : Nat) (v : Nat) (hk : Fr msk s0 s)
    (hm : Sub 134217729 msk := by exact Sub.mono (by assumption) rfl) :
    Fr msk s0 (stOf (State.auxCmdWrite s h v)) := by
  unfold State.auxCmdWrite
  repeat' first
    | with_reducible assumption | (exact Sub.mono hm rfl) | intro _
    | (extract_lets +onlyGivenNames x; refine keeps_have (msk := msk) (s0 := s0) (x := x) ?_ ?_; rotate_left; clear_value x; intro hx; rotate_right; subst x)
    | (extract_lets +onlyGivenNames x; refine keeps_have_fst (msk := msk) (s0 := s0) (x := x) ?_ ?_; rotate_left; clear_value x; intro hx; rotate_right; subst x)
    | (extract_lets +onlyGivenNames x; clear_value x) | with_reducible apply keeps_answer
    | with_reducible apply keeps_modHead | with_reducible apply keeps_plainWrite | with_reducible apply keeps_put
    | with_reducible apply keeps_setVal | with_reducible apply keeps_ite | with_reducible apply keeps_ite_fst
    | (simp only [stOf_mk]) | with_reducible apply keeps_fst | dsimp only

theorem keeps_execDsAuxGo {p : Fin 5} {h : Fin 2} {v : Word} {s s' : State}
    (e : execDsAuxGo p h v s = .next s') : Fr 134217729 s s' := by
  unfold execDsAuxGo at e
  refine keeps_next e ?_
  clear e
  have hk := Fr.refl 134217729 s
  have hm : Sub 134217729 134217729 := Sub.refl _
  repeat' first
    | with_reducible assumption | (exact Sub.mono hm rfl) | intro _ | with_reducible apply keeps_auxCmdWrite
    | with_reducible apply keeps_gatedWrite | dsimp only

theorem keeps_auxReply {msk : Nat} {s0 s : State} (h : Nat) (reply : Nat) (data : List Byte) (hk : Fr msk s0 s)
    (hm : Sub 1 msk := by exact Sub.mono (by assumption) rfl) :
    Fr msk s0 (State.auxReply s h reply data) := by
  unfold State.auxReply
  repeat' first
    | with_reducible assumption | (exact Sub.mono hm rfl) | intro _
    | (extract_lets +onlyGivenNames x; refine keeps_have (msk := msk) (s0 := s0) (x := x) ?_ ?_; rotate_left; clear_value x; intro hx; rotate_right; subst x)
    | (extract_lets +onlyGivenNames x; clear_value x) | with_reducible apply keeps_each | with_reducible apply keeps_setVal
    | with_reducible apply keeps_ite | dsimp only

theorem keeps_execDsAuxReply {h : Fin 2} {reply : Fin 16} {data : List Byte} {s s' : State}
    (e : execDsAuxReply h reply data s = .next s') : Fr 1 s s' := by
  unfold execDsAuxReply at e
  refine keeps_next e ?_
  clear e
  have hk := Fr.refl 1 s
  have hm : Sub 1 1 := Sub.refl _
  repeat' first
    | with_reducible assumption | (exact Sub.mono hm rfl) | intro _ | with_reducible apply keeps_auxReply | dsimp only

theorem keeps_auxTimeout {msk : Nat} {s0 s : State} (h : Nat) (hk : Fr msk s0 s)
    (hm : Sub 1 msk := by exact Sub.mono (by assumption) rfl) :
    Fr msk s0 (State.auxTimeout s h) := by
  unfold State.auxTimeout
  repeat' first
    | with_reducible assumption | (exact Sub.mono hm rfl) | intro _ | with_reducible apply keeps_setVal
    | with_reducible apply keeps_ite | dsimp only

theorem keeps_execDsAuxTimeout {h : Fin 2} {s s' : State}
    (e : execDsAuxTimeout h s = .next s') : Fr 1 s s' := by
  unfold execDsAuxTimeout at e
  refine keeps_next e ?_
  clear e
  have hk := Fr.refl 1 s
  have hm : Sub 1 1 := Sub.refl _
  repeat' first
    | with_reducible assumption | (exact Sub.mono hm rfl) | intro _ | with_reducible apply keeps_auxTimeout | dsimp only

theorem keeps_dsAlloc {msk : Nat} {s0 s : State} (h : Nat) (l : List Nat) (hk : Fr msk s0 s)
    (hm : Sub 1025 msk := by exact Sub.mono (by assumption) rfl) : Fr msk s0 (stOf (State.dsAlloc s h l)) := by
  induction l generalizing s with
  | nil => exact hk
  | cons a l ih =>
    unfold State.dsAlloc
    repeat' first
      | with_reducible assumption | (exact Sub.mono hm rfl) | intro _
      | (extract_lets +onlyGivenNames x; refine keeps_have (msk := msk) (s0 := s0) (x := x) ?_ ?_; rotate_left; clear_value x; intro hx; rotate_right; subst x)
      | (extract_lets +onlyGivenNames x; refine keeps_have_fst (msk := msk) (s0 := s0) (x := x) ?_ ?_; rotate_left; clear_value x; intro hx; rotate_right; subst x)
      | (extract_lets +onlyGivenNames x; clear_value x) | with_reducible apply ih | with_reducible apply keeps_alloc
      | with_reducible apply keeps_ite | with_reducible apply keeps_ite_fst | (simp only [stOf_mk]) | split
      | with_reducible apply keeps_fst | dsimp only

theorem keeps_dsStart {msk : Nat} {s0 s : State} (h : Nat) (hk : Fr msk s0 s)
    (hm : Sub 679478277 msk := by exact Sub.mono (by assumption) rfl) :
    Fr msk s0 (State.dsStart s h) := by
  unfold State.dsStart
  repeat' first
    | with_reducible assumption | (exact Sub.mono hm rfl) | intro _
    | (extract_lets +onlyGivenNames x; refine keeps_have (msk := msk) (s0 := s0) (x := x) ?_ ?_; rotate_left; clear_value x; intro hx; rotate_right; subst x)
    | (extract_lets +onlyGivenNames x; refine keeps_have_fst (msk := msk) (s0 := s0) (x := x) ?_ ?_; rotate_left; clear_value x; intro hx; rotate_right; subst x)
    | (extract_lets +onlyGivenNames x; clear_value x) | with_reducible apply keeps_ctxAutoLocal
    | with_reducible apply keeps_dsAlloc | with_reducible apply keeps_dsTrain | with_reducible apply keeps_each
    | with_reducible apply keeps_modHead | with_reducible apply keeps_put | with_reducible apply keeps_setPair
    | with_reducible apply keeps_setTraffic | with_reducible apply keeps_showTol | with_reducible apply keeps_tieAllD
    | (simp only [stOf_mk]) | with_reducible apply keeps_fst | dsimp only

theorem keeps_dsStop {msk : Nat} {s0 s : State} (h : Nat) (hk : Fr msk s0 s)
    (hm : Sub 947913733 msk := by exact Sub.mono (by assumption) rfl) :
    Fr msk s0 (State.dsStop s h) := by
  unfold State.dsStop
  repeat' first
    | with_reducible assumption | (exact Sub.mono hm rfl) | intro _
    | (extract_lets +onlyGivenNames x; refine keeps_have (msk := msk) (s0 := s0) (x := x) ?_ ?_; rotate_left; clear_value x; intro hx; rotate_right; subst x)
    | (extract_lets +onlyGivenNames x; refine keeps_have_fst (msk := msk) (s0 := s0) (x := x) ?_ ?_; rotate_left; clear_value x; intro hx; rotate_right; subst x)
    | (extract_lets +onlyGivenNames x; clear_value x) | with_reducible apply keeps_auxFree
    | with_reducible apply keeps_ctxClose | with_reducible apply keeps_each | with_reducible apply keeps_free
    | with_reducible apply keeps_freePort | with_reducible apply keeps_modHead | with_reducible apply keeps_put
    | with_reducible apply keeps_setTraffic | with_reducible apply keeps_showTol | (simp only [stOf_mk]) | split
    | with_reducible apply keeps_fst | dsimp only

theorem keeps_dsCtlWrite {msk : Nat} {s0 s : State} (h : Nat) (v : Nat) (hk : Fr msk s0 s)
    (hm : Sub 947913733 msk := by exact Sub.mono (by assumption) rfl) :
    Fr msk s0 (stOf (State.dsCtlWrite s h v)) := by
  unfold State.dsCtlWrite
  repeat' first
    | with_reducible assumption | (exact Sub.mono hm rfl) | intro _ | with_reducible apply keeps_dsStart
    | with_reducible apply keeps_dsStop | with_reducible apply keeps_enableWrite | with_reducible apply keeps_ite
    | with_reducible apply keeps_ite_fst | (simp only [stOf_mk]) | with_reducible apply keeps_fst | dsimp only

theorem keeps_execDsHeadEnable {p : Fin 5} {h : Fin 2} {v : Word} {s s' : State}
    (e : execDsHeadEnable p h v s = .next s') : Fr 947913733 s s' := by
  unfold execDsHeadEnable at e
  refine keeps_next e ?_
  clear e
  have hk := Fr.refl 947913733 s
  have hm : Sub 947913733 947913733 := Sub.refl _
  repeat' first
    | with_reducible assumption | (exact Sub.mono hm rfl) | intro _ | with_reducible apply keeps_dsCtlWrite
    | with_reducible apply keeps_gatedWrite | dsimp only

theorem keeps_dsSetWrite {msk : Nat} {s0 s : State} (name : RegName) (h : Nat) (l : Nat) (a : Nat) (v : Nat) (hk : Fr msk s0 s)
    (hm : Sub 1 msk := by exact Sub.mono (by assumption) rfl) :
    Fr msk s0 (stOf (State.dsSetWrite s name h l a v)) := by
  unfold State.dsSetWrite
  repeat' first
    | with_reducible assumption | (exact Sub.mono hm rfl) | intro _
    | (extract_lets +onlyGivenNames x; refine keeps_have (msk := msk) (s0 := s0) (x := x) ?_ ?_; rotate_left; clear_value x; intro hx; rotate_right; subst x)
    | (extract_lets +onlyGivenNames x; refine keeps_have_fst (msk := msk) (s0 := s0) (x := x) ?_ ?_; rotate_left; clear_value x; intro hx; rotate_right; subst x)
    | (extract_lets +onlyGivenNames x; clear_value x) | with_reducible apply keeps_answer
    | with_reducible apply keeps_plainWrite | with_reducible apply keeps_put | with_reducible apply keeps_ite
    | with_reducible apply keeps_ite_fst | (simp only [stOf_mk]) | split | with_reducible apply keeps_fst | dsimp only

theorem keeps_palNext {msk : Nat} {s0 s : State} (h : Nat) (hk : Fr msk s0 s)
    (hm : Sub 1 msk := by exact Sub.mono (by assumption) rfl) :
    Fr msk s0 (State.palNext s h) := by
  unfold State.palNext
  repeat' first | with_reducible assumption | (exact Sub.mono hm rfl) | intro _ | with_reducible apply keeps_put | dsimp only

theorem keeps_palRead {msk : Nat} {s0 s : State} (h : Nat) (hk : Fr msk s0 s)
    (hm : Sub 1 msk := by exact Sub.mono (by assumption) rfl) :
    Fr msk s0 (stOf (State.palRead s h)) := by
  unfold State.palRead
  repeat' first
    | with_reducible assumption | (exact Sub.mono hm rfl) | intro _ | with_reducible apply keeps_palNext
    | (simp only [stOf_mk]) | with_reducible apply keeps_fst | dsimp only

theorem keeps_palWrite {msk : Nat} {s0 s : State} (h : Nat) (v : Nat) (hk : Fr msk s0 s)
    (hm : Sub 134217729 msk := by exact Sub.mono (by assumption) rfl) :
    Fr msk s0 (stOf (State.palWrite s h v)) := by
  unfold State.palWrite
  repeat' first
    | with_reducible assumption | (exact Sub.mono hm rfl) | intro _
    | (extract_lets +onlyGivenNames x; refine keeps_have (msk := msk) (s0 := s0) (x := x) ?_ ?_; rotate_left; clear_value x; intro hx; rotate_right; subst x)
    | (extract_lets +onlyGivenNames x; refine keeps_have_fst (msk := msk) (s0 := s0) (x := x) ?_ ?_; rotate_left; clear_value x; intro hx; rotate_right; subst x)
    | (extract_lets +onlyGivenNames x; clear_value x) | with_reducible apply keeps_modHead
    | with_reducible apply keeps_palNext | (simp only [stOf_mk]) | with_reducible apply keeps_fst | dsimp only

theorem keeps_execDsPalDataAccess {p : Fin 5} {h : Fin 2} {v : Option Word} {s s' : State}
    (e : execDsPalDataAccess p h v s = .next s') : Fr 402653185 s s' := by
  unfold execDsPalDataAccess at e
  refine keeps_next e ?_
  clear e
  have hk := Fr.refl 402653185 s
  have hm : Sub 402653185 402653185 := Sub.refl _
  repeat' first
    | with_reducible assumption | (exact Sub.mono hm rfl) | intro _
    | (extract_lets +onlyGivenNames x; refine keeps_have (msk := 402653185) (s0 := s) (x := x) ?_ ?_; rotate_left; clear_value x; intro hx; rotate_right; subst x)
    | (extract_lets +onlyGivenNames x; clear_value x) | with_reducible apply keeps_gatedWrite
    | with_reducible apply keeps_palRead | with_reducible apply keeps_palWrite | with_reducible apply keeps_readOut | split
    | dsimp only

theorem keeps_dsFence {msk : Nat} {s0 s : State} (fs : List Frame) (hk : Fr msk s0 s)
    (hm : Sub 268435623 msk := by exact Sub.mono (by assumption) rfl) :
    Fr msk s0 (stOf (State.dsFence s fs)) := by
  unfold State.dsFence
  repeat' first
    | with_reducible assumption | (exact Sub.mono hm rfl) | intro _
    | (extract_lets +onlyGivenNames x; refine keeps_have (msk := msk) (s0 := s0) (x := x) ?_ ?_; rotate_left; clear_value x; intro hx; rotate_right; subst x)
    | (extract_lets +onlyGivenNames x; refine keeps_have_fst (msk := msk) (s0 := s0) (x := x) ?_ ?_; rotate_left; clear_value x; intro hx; rotate_right; subst x)
    | (extract_lets +onlyGivenNames x; clear_value x) | with_reducible apply keeps_fence
    | with_reducible apply keeps_takeEpochs | with_reducible apply keeps_foldl | with_reducible apply keeps_foldl_fst
    | with_reducible apply keeps_ite | with_reducible apply keeps_ite_fst | (simp only [stOf_mk])
    | with_reducible apply keeps_fst | dsimp only

theorem keeps_dsDens {msk : Nat} {s0 s : State} (h : Nat) (fs : List Frame) (hk : Fr msk s0 s)
    (hm : Sub 402925223 msk := by exact Sub.mono (by assumption) rfl) :
    Fr msk s0 (State.dsDens s h fs) := by
  unfold State.dsDens
  repeat' first
    | with_reducible assumption | (exact Sub.mono hm rfl) | intro _
    | (extract_lets +onlyGivenNames x; refine keeps_have (msk := msk) (s0 := s0) (x := x) ?_ ?_; rotate_left; clear_value x; intro hx; rotate_right; subst x)
    | (extract_lets +onlyGivenNames x; refine keeps_have_fst (msk := msk) (s0 := s0) (x := x) ?_ ?_; rotate_left; clear_value x; intro hx; rotate_right; subst x)
    | (extract_lets +onlyGivenNames x; clear_value x) | with_reducible apply keeps_dsFence
    | with_reducible apply keeps_memWrite | with_reducible apply keeps_modLayer | with_reducible apply keeps_ite
    | with_reducible apply keeps_ite_fst | (simp only [stOf_mk]) | split | with_reducible apply keeps_fst | dsimp only

theorem keeps_execDsDensSnapshot {h : Fin 2} {fs : List Frame} {s s' : State}
    (e : execDsDensSnapshot h fs s = .next s') : Fr 402925223 s s' := by
  unfold execDsDensSnapshot at e
  refine keeps_next e ?_
  clear e
  have hk := Fr.refl 402925223 s
  have hm : Sub 402925223 402925223 := Sub.refl _
  repeat' first
    | with_reducible assumption | (exact Sub.mono hm rfl) | intro _ | with_reducible apply keeps_dsDens
    | with_reducible apply keeps_inIsland | dsimp only

theorem keeps_dsSpec {msk : Nat} {s0 s : State} (h : Nat) (x : Sum (List Frame) GapRec) (hk : Fr msk s0 s)
    (hm : Sub 939524263 msk := by exact Sub.mono (by assumption) rfl) :
    Fr msk s0 (State.dsSpec s h x) := by
  unfold State.dsSpec
  repeat' first
    | with_reducible assumption | (exact Sub.mono hm rfl) | intro _
    | (extract_lets +onlyGivenNames x; refine keeps_have (msk := msk) (s0 := s0) (x := x) ?_ ?_; rotate_left; clear_value x; intro hx; rotate_right; subst x)
    | (extract_lets +onlyGivenNames x; refine keeps_have_fst (msk := msk) (s0 := s0) (x := x) ?_ ?_; rotate_left; clear_value x; intro hx; rotate_right; subst x)
    | (extract_lets +onlyGivenNames x; clear_value x) | with_reducible apply keeps_dsFence | with_reducible apply keeps_each
    | with_reducible apply keeps_modHead | with_reducible apply keeps_modLayer | with_reducible apply keeps_useFrees
    | with_reducible apply keeps_ite | with_reducible apply keeps_ite_fst | (simp only [stOf_mk]) | split
    | (with_reducible apply keeps_id) | with_reducible apply keeps_fst | dsimp only

theorem keeps_execDsSpecIntegration {h : Fin 2} {x : Sum (List Frame) GapRec} {s s' : State}
    (e : execDsSpecIntegration h x s = .next s') : Fr 939524263 s s' := by
  unfold execDsSpecIntegration at e
  refine keeps_next e ?_
  clear e
  have hk := Fr.refl 939524263 s
  have hm : Sub 939524263 939524263 := Sub.refl _
  repeat' first
    | with_reducible assumption | (exact Sub.mono hm rfl) | intro _ | with_reducible apply keeps_dsSpec
    | with_reducible apply keeps_inIsland | dsimp only

theorem keeps_dsFetch {msk : Nat} {s0 s : State} (h : Nat) (l : Nat) (hk : Fr msk s0 s)
    (hm : Sub 805578407 msk := by exact Sub.mono (by assumption) rfl) :
    Fr msk s0 (stOf (State.dsFetch s h l)) := by
  unfold State.dsFetch
  repeat' first
    | with_reducible assumption | (exact Sub.mono hm rfl) | intro _
    | (extract_lets +onlyGivenNames x; refine keeps_have (msk := msk) (s0 := s0) (x := x) ?_ ?_; rotate_left; clear_value x; intro hx; rotate_right; subst x)
    | (extract_lets +onlyGivenNames x; refine keeps_have_fst (msk := msk) (s0 := s0) (x := x) ?_ ?_; rotate_left; clear_value x; intro hx; rotate_right; subst x)
    | (extract_lets +onlyGivenNames x; clear_value x) | with_reducible apply keeps_memFetch
    | with_reducible apply keeps_foldl | with_reducible apply keeps_foldl_fst | (simp only [stOf_mk])
    | with_reducible apply keeps_fst | dsimp only

theorem keeps_layerSig {msk : Nat} {s0 s : State} (h : Nat) (l : Nat) (sig : Nat) (hk : Fr msk s0 s)
    (hm : Sub 402653351 msk := by exact Sub.mono (by assumption) rfl) :
    Fr msk s0 (State.layerSig s h l sig) := by
  unfold State.layerSig
  repeat' first
    | with_reducible assumption | (exact Sub.mono hm rfl) | intro _
    | (extract_lets +onlyGivenNames x; refine keeps_have (msk := msk) (s0 := s0) (x := x) ?_ ?_; rotate_left; clear_value x; intro hx; rotate_right; subst x)
    | (extract_lets +onlyGivenNames x; clear_value x) | with_reducible apply keeps_count
    | with_reducible apply keeps_modLayer | with_reducible apply keeps_put | with_reducible apply keeps_raiseAlarm
    | with_reducible apply keeps_setVal | with_reducible apply keeps_ite | split | dsimp only

theorem keeps_frameEnd {msk : Nat} {s0 s : State} (h : Nat) (hk : Fr msk s0 s)
    (hm : Sub 939796135 msk := by exact Sub.mono (by assumption) rfl) :
    Fr msk s0 (State.frameEnd s h) := by
  unfold State.frameEnd
  repeat' first
    | with_reducible assumption | (exact Sub.mono hm rfl) | intro _
    | (extract_lets +onlyGivenNames x; refine keeps_have (msk := msk) (s0 := s0) (x := x) ?_ ?_; rotate_left; clear_value x; intro hx; rotate_right; subst x)
    | (extract_lets +onlyGivenNames x; refine keeps_have_fst (msk := msk) (s0 := s0) (x := x) ?_ ?_; rotate_left; clear_value x; intro hx; rotate_right; subst x)
    | (extract_lets +onlyGivenNames x; clear_value x) | with_reducible apply keeps_dsFetch | with_reducible apply keeps_each
    | with_reducible apply keeps_layerSig | with_reducible apply keeps_setVal | with_reducible apply keeps_useFrees
    | with_reducible apply keeps_ite | with_reducible apply keeps_ite_fst | (simp only [stOf_mk])
    | with_reducible apply keeps_fst | dsimp only

theorem keeps_frameSwap {msk : Nat} {s0 s : State} (h : Nat) (hk : Fr msk s0 s)
    (hm : Sub 402925223 msk := by exact Sub.mono (by assumption) rfl) :
    Fr msk s0 (State.frameSwap s h) := by
  unfold State.frameSwap
  repeat' first
    | with_reducible assumption | (exact Sub.mono hm rfl) | intro _
    | (extract_lets +onlyGivenNames x; refine keeps_have (msk := msk) (s0 := s0) (x := x) ?_ ?_; rotate_left; clear_value x; intro hx; rotate_right; subst x)
    | (extract_lets +onlyGivenNames x; clear_value x) | with_reducible apply keeps_each | with_reducible apply keeps_memWrite
    | with_reducible apply keeps_modHead | with_reducible apply keeps_modLayer | with_reducible apply keeps_ite | dsimp only

theorem keeps_frameStart {msk : Nat} {s0 s : State} (h : Nat) (hk : Fr msk s0 s)
    (hm : Sub 939796135 msk := by exact Sub.mono (by assumption) rfl) :
    Fr msk s0 (State.frameStart s h) := by
  unfold State.frameStart
  repeat' first
    | with_reducible assumption | (exact Sub.mono hm rfl) | intro _
    | (extract_lets +onlyGivenNames x; refine keeps_have (msk := msk) (s0 := s0) (x := x) ?_ ?_; rotate_left; clear_value x; intro hx; rotate_right; subst x)
    | (extract_lets +onlyGivenNames x; refine keeps_have_fst (msk := msk) (s0 := s0) (x := x) ?_ ?_; rotate_left; clear_value x; intro hx; rotate_right; subst x)
    | (extract_lets +onlyGivenNames x; clear_value x) | with_reducible apply keeps_count | with_reducible apply keeps_dsFetch
    | with_reducible apply keeps_each | with_reducible apply keeps_frameEnd | with_reducible apply keeps_frameSwap
    | with_reducible apply keeps_modHead | with_reducible apply keeps_modLayer | with_reducible apply keeps_put
    | with_reducible apply keeps_showTol | with_reducible apply keeps_ite | with_reducible apply keeps_ite_fst
    | (simp only [stOf_mk]) | split | with_reducible apply keeps_fst | dsimp only

theorem keeps_execDsFrameStart {h : Fin 2} {s s' : State}
    (e : execDsFrameStart h s = .next s') : Fr 939796135 s s' := by
  unfold execDsFrameStart at e
  refine keeps_next e ?_
  clear e
  have hk := Fr.refl 939796135 s
  have hm : Sub 939796135 939796135 := Sub.refl _
  repeat' first
    | with_reducible assumption | (exact Sub.mono hm rfl) | intro _ | with_reducible apply keeps_frameStart | dsimp only

theorem keeps_underrun {msk : Nat} {s0 s : State} (h : Nat) (l : Nat) (pos : Nat) (hk : Fr msk s0 s)
    (hm : Sub 134217729 msk := by exact Sub.mono (by assumption) rfl) :
    Fr msk s0 (State.underrun s h l pos) := by
  unfold State.underrun
  repeat' first
    | with_reducible assumption | (exact Sub.mono hm rfl) | intro _
    | (extract_lets +onlyGivenNames x; refine keeps_have (msk := msk) (s0 := s0) (x := x) ?_ ?_; rotate_left; clear_value x; intro hx; rotate_right; subst x)
    | (extract_lets +onlyGivenNames x; clear_value x) | with_reducible apply keeps_count
    | with_reducible apply keeps_modLayer | with_reducible apply keeps_put | with_reducible apply keeps_ite | dsimp only

theorem keeps_execDsUnderrun {h : Fin 2} {l : Fin 4} {pos : BitVec 24} {s s' : State}
    (e : execDsUnderrun h l pos s = .next s') : Fr 134217729 s s' := by
  unfold execDsUnderrun at e
  refine keeps_next e ?_
  clear e
  have hk := Fr.refl 134217729 s
  have hm : Sub 134217729 134217729 := Sub.refl _
  repeat' first
    | with_reducible assumption | (exact Sub.mono hm rfl) | intro _ | with_reducible apply keeps_underrun | dsimp only

/-! ### Image -/

theorem keeps_modIm {msk : Nat} {s0 s : State} (f : ImSt → ImSt) (hk : Fr msk s0 s)
    (hm : Sub 1048576 msk := by exact Sub.mono (by assumption) rfl) :
    Fr msk s0 (State.modIm s f) := by
  unfold State.modIm
  repeat' first
    | with_reducible assumption | (exact Sub.mono hm rfl) | intro _
    | (extract_lets +onlyGivenNames x; refine keeps_have (msk := msk) (s0 := s0) (x := x) ?_ ?_; rotate_left; clear_value x; intro hx; rotate_right; subst x)
    | (extract_lets +onlyGivenNames x; clear_value x) | dsimp only | with_reducible apply keeps_im

theorem keeps_bootReject {msk : Nat} {s0 s : State} (c : Nat) (hk : Fr msk s0 s)
    (hm : Sub 1 msk := by exact Sub.mono (by assumption) rfl) :
    Fr msk s0 (State.bootReject s c) := by
  unfold State.bootReject
  repeat' first
    | with_reducible assumption | (exact Sub.mono hm rfl) | intro _ | with_reducible apply keeps_put
    | with_reducible apply keeps_ite | dsimp only

theorem keeps_showImage {msk : Nat} {s0 s : State}  (hk : Fr msk s0 s)
    (hm : Sub 1 msk := by exact Sub.mono (by assumption) rfl) :
    Fr msk s0 (State.showImage s) := by
  unfold State.showImage
  repeat' first
    | with_reducible assumption | (exact Sub.mono hm rfl) | intro _
    | (extract_lets +onlyGivenNames x; refine keeps_have (msk := msk) (s0 := s0) (x := x) ?_ ?_; rotate_left; clear_value x; intro hx; rotate_right; subst x)
    | (extract_lets +onlyGivenNames x; clear_value x) | with_reducible apply keeps_put | with_reducible apply keeps_setVal
    | with_reducible apply keeps_foldl | with_reducible apply keeps_foldl_fst | with_reducible apply keeps_ite | dsimp only

theorem keeps_toBist {msk : Nat} {s0 s : State}  (hk : Fr msk s0 s)
    (hm : Sub 4353 msk := by exact Sub.mono (by assumption) rfl) :
    Fr msk s0 (State.toBist s) := by
  unfold State.toBist
  repeat' first
    | with_reducible assumption | (exact Sub.mono hm rfl) | intro _
    | (extract_lets +onlyGivenNames x; refine keeps_have (msk := msk) (s0 := s0) (x := x) ?_ ?_; rotate_left; clear_value x; intro hx; rotate_right; subst x)
    | (extract_lets +onlyGivenNames x; clear_value x) | with_reducible apply keeps_each | with_reducible apply keeps_moveTo
    | with_reducible apply keeps_put | with_reducible apply keeps_restoreRecord | with_reducible apply keeps_ite | dsimp only

theorem keeps_bootSlot {msk : Nat} {s0 s : State} (i : Nat) (trial : Bool) (hk : Fr msk s0 s)
    (hm : Sub 1052929 msk := by exact Sub.mono (by assumption) rfl) :
    Fr msk s0 (State.bootSlot s i trial) := by
  unfold State.bootSlot
  repeat' first
    | with_reducible assumption | (exact Sub.mono hm rfl) | intro _
    | (extract_lets +onlyGivenNames x; refine keeps_have (msk := msk) (s0 := s0) (x := x) ?_ ?_; rotate_left; clear_value x; intro hx; rotate_right; subst x)
    | (extract_lets +onlyGivenNames x; clear_value x) | with_reducible apply keeps_modIm | with_reducible apply keeps_put
    | with_reducible apply keeps_setVal | with_reducible apply keeps_showImage | with_reducible apply keeps_toBist
    | with_reducible apply keeps_ite | dsimp only

theorem keeps_abandon {msk : Nat} {s0 s : State}  (hk : Fr msk s0 s)
    (hm : Sub 1048576 msk := by exact Sub.mono (by assumption) rfl) :
    Fr msk s0 (State.abandon s) := by
  unfold State.abandon
  repeat' first
    | with_reducible assumption | (exact Sub.mono hm rfl) | intro _
    | (extract_lets +onlyGivenNames x; refine keeps_have (msk := msk) (s0 := s0) (x := x) ?_ ?_; rotate_left; clear_value x; intro hx; rotate_right; subst x)
    | (extract_lets +onlyGivenNames x; clear_value x) | with_reducible apply keeps_devAppend | dsimp only

theorem keeps_bootActive {msk : Nat} {s0 s : State}  (hk : Fr msk s0 s)
    (hm : Sub 1052929 msk := by exact Sub.mono (by assumption) rfl) :
    Fr msk s0 (State.bootActive s) := by
  unfold State.bootActive
  repeat' first
    | with_reducible assumption | (exact Sub.mono hm rfl) | intro _
    | (extract_lets +onlyGivenNames x; refine keeps_have (msk := msk) (s0 := s0) (x := x) ?_ ?_; rotate_left; clear_value x; intro hx; rotate_right; subst x)
    | (extract_lets +onlyGivenNames x; clear_value x) | with_reducible apply keeps_bootReject
    | with_reducible apply keeps_bootSlot | with_reducible apply keeps_devAppend | with_reducible apply keeps_ite
    | dsimp only

theorem keeps_bootFrom3 {msk : Nat} {s0 s : State}  (hk : Fr msk s0 s)
    (hm : Sub 1052929 msk := by exact Sub.mono (by assumption) rfl) :
    Fr msk s0 (State.bootFrom3 s) := by
  unfold State.bootFrom3
  repeat' first
    | with_reducible assumption | (exact Sub.mono hm rfl) | intro _
    | (extract_lets +onlyGivenNames x; refine keeps_have (msk := msk) (s0 := s0) (x := x) ?_ ?_; rotate_left; clear_value x; intro hx; rotate_right; subst x)
    | (extract_lets +onlyGivenNames x; clear_value x) | with_reducible apply keeps_abandon
    | with_reducible apply keeps_bootActive | with_reducible apply keeps_bootReject | with_reducible apply keeps_bootSlot
    | with_reducible apply keeps_devAppend | with_reducible apply keeps_put | with_reducible apply keeps_ite | dsimp only

theorem keeps_slotChoice {msk : Nat} {s0 s : State} (size : Option Nat) (hk : Fr msk s0 s)
    (hm : Sub 1052929 msk := by exact Sub.mono (by assumption) rfl) :
    Fr msk s0 (State.slotChoice s size) := by
  unfold State.slotChoice
  repeat' first
    | with_reducible assumption | (exact Sub.mono hm rfl) | intro _
    | (extract_lets +onlyGivenNames x; refine keeps_have (msk := msk) (s0 := s0) (x := x) ?_ ?_; rotate_left; clear_value x; intro hx; rotate_right; subst x)
    | (extract_lets +onlyGivenNames x; clear_value x) | with_reducible apply keeps_abandon
    | with_reducible apply keeps_bootActive | with_reducible apply keeps_bootFrom3 | with_reducible apply keeps_devAppend
    | with_reducible apply keeps_modIm | with_reducible apply keeps_put | with_reducible apply keeps_setReg
    | with_reducible apply keeps_showImage | with_reducible apply keeps_ite | split | dsimp only

theorem keeps_execLoaderSlotChoice {size : Option Word} {s s' : State}
    (e : execLoaderSlotChoice size s = .next s') : Fr 1052929 s s' := by
  unfold execLoaderSlotChoice at e
  refine keeps_next e ?_
  clear e
  have hk := Fr.refl 1052929 s
  have hm : Sub 1052929 1052929 := Sub.refl _
  repeat' first
    | with_reducible assumption | (exact Sub.mono hm rfl) | intro _ | with_reducible apply keeps_slotChoice | dsimp only

theorem keeps_raiseFloor {msk : Nat} {s0 s : State} (floor : Nat) (hk : Fr msk s0 s)
    (hm : Sub 269484199 msk := by exact Sub.mono (by assumption) rfl) :
    Fr msk s0 (State.raiseFloor s floor) := by
  unfold State.raiseFloor
  repeat' first
    | with_reducible assumption | (exact Sub.mono hm rfl) | intro _
    | (extract_lets +onlyGivenNames x; refine keeps_have (msk := msk) (s0 := s0) (x := x) ?_ ?_; rotate_left; clear_value x; intro hx; rotate_right; subst x)
    | (extract_lets +onlyGivenNames x; clear_value x) | with_reducible apply keeps_beginLevel
    | with_reducible apply keeps_modIm | with_reducible apply keeps_put | with_reducible apply keeps_showImage
    | with_reducible apply keeps_ite | dsimp only

theorem keeps_imageAtRun {msk : Nat} {s0 s : State}  (hk : Fr msk s0 s)
    (hm : Sub 269484199 msk := by exact Sub.mono (by assumption) rfl) :
    Fr msk s0 (State.imageAtRun s) := by
  unfold State.imageAtRun
  repeat' first
    | with_reducible assumption | (exact Sub.mono hm rfl) | intro _
    | (extract_lets +onlyGivenNames x; refine keeps_have (msk := msk) (s0 := s0) (x := x) ?_ ?_; rotate_left; clear_value x; intro hx; rotate_right; subst x)
    | (extract_lets +onlyGivenNames x; clear_value x) | with_reducible apply keeps_devAppend
    | with_reducible apply keeps_modIm | with_reducible apply keeps_raiseFloor | with_reducible apply keeps_showImage
    | with_reducible apply keeps_ite | split | dsimp only

theorem keeps_anyRefusal {msk : Nat} {s0 s : State} (f : Fld) (hk : Fr msk s0 s)
    (hm : Sub 536870913 msk := by exact Sub.mono (by assumption) rfl) :
    Fr msk s0 (stOf (State.anyRefusal s f)) := by
  unfold State.anyRefusal
  repeat' first
    | with_reducible assumption | (exact Sub.mono hm rfl) | intro _ | with_reducible apply keeps_answer
    | with_reducible apply keeps_useFree | (simp only [stOf_mk]) | with_reducible apply keeps_fst | dsimp only

theorem keeps_biTouch {msk : Nat} {s0 s : State} (p : Nat) (hk : Fr msk s0 s)
    (hm : Sub 1048576 msk := by exact Sub.mono (by assumption) rfl) :
    Fr msk s0 (State.biTouch s p) := by
  unfold State.biTouch
  repeat' first
    | with_reducible assumption | (exact Sub.mono hm rfl) | intro _
    | (extract_lets +onlyGivenNames x; refine keeps_have (msk := msk) (s0 := s0) (x := x) ?_ ?_; rotate_left; clear_value x; intro hx; rotate_right; subst x)
    | (extract_lets +onlyGivenNames x; clear_value x) | with_reducible apply keeps_modIm | with_reducible apply keeps_ite
    | split | dsimp only

theorem keeps_biOpen {msk : Nat} {s0 s : State} (p : Nat) (hk : Fr msk s0 s)
    (hm : Sub 537919489 msk := by exact Sub.mono (by assumption) rfl) :
    Fr msk s0 (stOf (State.biOpen s p)) := by
  unfold State.biOpen
  repeat' first
    | with_reducible assumption | (exact Sub.mono hm rfl) | intro _
    | (extract_lets +onlyGivenNames x; refine keeps_have (msk := msk) (s0 := s0) (x := x) ?_ ?_; rotate_left; clear_value x; intro hx; rotate_right; subst x)
    | (extract_lets +onlyGivenNames x; refine keeps_have_fst (msk := msk) (s0 := s0) (x := x) ?_ ?_; rotate_left; clear_value x; intro hx; rotate_right; subst x)
    | (extract_lets +onlyGivenNames x; clear_value x) | with_reducible apply keeps_abandon
    | with_reducible apply keeps_answer | with_reducible apply keeps_anyRefusal | with_reducible apply keeps_modIm
    | with_reducible apply keeps_put | with_reducible apply keeps_setVal | with_reducible apply keeps_ite
    | with_reducible apply keeps_ite_fst | (simp only [stOf_mk]) | split | with_reducible apply keeps_fst | dsimp only

theorem keeps_biCommit {msk : Nat} {s0 s : State} (p : Nat) (d : Nat) (hk : Fr msk s0 s)
    (hm : Sub 536870913 msk := by exact Sub.mono (by assumption) rfl) :
    Fr msk s0 (stOf (State.biCommit s p d)) := by
  unfold State.biCommit
  repeat' first
    | with_reducible assumption | (exact Sub.mono hm rfl) | intro _
    | (extract_lets +onlyGivenNames x; refine keeps_have (msk := msk) (s0 := s0) (x := x) ?_ ?_; rotate_left; clear_value x; intro hx; rotate_right; subst x)
    | (extract_lets +onlyGivenNames x; refine keeps_have_fst (msk := msk) (s0 := s0) (x := x) ?_ ?_; rotate_left; clear_value x; intro hx; rotate_right; subst x)
    | (extract_lets +onlyGivenNames x; clear_value x) | with_reducible apply keeps_answer
    | with_reducible apply keeps_anyRefusal | with_reducible apply keeps_ifThen | with_reducible apply keeps_put
    | with_reducible apply keeps_useFree | with_reducible apply keeps_ite | with_reducible apply keeps_ite_fst
    | (simp only [stOf_mk]) | split | with_reducible apply keeps_fst | dsimp only

theorem keeps_biClose {msk : Nat} {s0 s : State} (p : Nat) (hk : Fr msk s0 s)
    (hm : Sub 537919489 msk := by exact Sub.mono (by assumption) rfl) :
    Fr msk s0 (stOf (State.biClose s p)) := by
  unfold State.biClose
  repeat' first
    | with_reducible assumption | (exact Sub.mono hm rfl) | intro _
    | (extract_lets +onlyGivenNames x; refine keeps_have (msk := msk) (s0 := s0) (x := x) ?_ ?_; rotate_left; clear_value x; intro hx; rotate_right; subst x)
    | (extract_lets +onlyGivenNames x; refine keeps_have_fst (msk := msk) (s0 := s0) (x := x) ?_ ?_; rotate_left; clear_value x; intro hx; rotate_right; subst x)
    | (extract_lets +onlyGivenNames x; clear_value x) | with_reducible apply keeps_answer | with_reducible apply keeps_ifThen
    | with_reducible apply keeps_modIm | with_reducible apply keeps_put | with_reducible apply keeps_useFree
    | (simp only [stOf_mk]) | split | with_reducible apply keeps_fst | dsimp only

theorem keeps_biBoot {msk : Nat} {s0 s : State}  (hk : Fr msk s0 s)
    (hm : Sub 1052929 msk := by exact Sub.mono (by assumption) rfl) :
    Fr msk s0 (stOf (State.biBoot s)) := by
  unfold State.biBoot
  repeat' first
    | with_reducible assumption | (exact Sub.mono hm rfl) | intro _ | with_reducible apply keeps_answer
    | with_reducible apply keeps_bootFrom3 | with_reducible apply keeps_put | with_reducible apply keeps_ite
    | with_reducible apply keeps_ite_fst | (simp only [stOf_mk]) | split | with_reducible apply keeps_fst | dsimp only

theorem keeps_biHold {msk : Nat} {s0 s : State}  (hk : Fr msk s0 s)
    (hm : Sub 537919489 msk := by exact Sub.mono (by assumption) rfl) :
    Fr msk s0 (stOf (State.biHold s)) := by
  unfold State.biHold
  repeat' first
    | with_reducible assumption | (exact Sub.mono hm rfl) | intro _
    | (extract_lets +onlyGivenNames x; refine keeps_have (msk := msk) (s0 := s0) (x := x) ?_ ?_; rotate_left; clear_value x; intro hx; rotate_right; subst x)
    | (extract_lets +onlyGivenNames x; refine keeps_have_fst (msk := msk) (s0 := s0) (x := x) ?_ ?_; rotate_left; clear_value x; intro hx; rotate_right; subst x)
    | (extract_lets +onlyGivenNames x; clear_value x) | with_reducible apply keeps_anyRefusal
    | with_reducible apply keeps_devAppend | with_reducible apply keeps_put | with_reducible apply keeps_ite
    | with_reducible apply keeps_ite_fst | (simp only [stOf_mk]) | with_reducible apply keeps_fst | dsimp only

theorem keeps_biActs {msk : Nat} {s0 s : State} (l : List (Bool × (State → State × Nat)))
    (hf : ∀ p ∈ l, ∀ t, Fr msk s0 t → Fr msk s0 (stOf (p.2 t))) (hk : Fr msk s0 s)
    (hm : Sub 0 msk := by exact Sub.mono (by assumption) rfl) : Fr msk s0 (stOf (State.biActs s l)) := by
  induction l generalizing s with
  | nil => exact hk
  | cons a l ih =>
    obtain ⟨on, f⟩ := a
    have hl := fun p hp => hf p (List.mem_cons_of_mem _ hp)
    have h1 := hf (on, f) (List.mem_cons_self ..) s hk
    unfold State.biActs
    simp only []
    split
    · split
      · exact ih hl (keeps_fst h1)
      · exact h1
    · exact ih hl hk

theorem keeps_biCtlWrite {msk : Nat} {s0 s : State} (p d v : Nat) (hk : Fr msk s0 s)
    (hm : Sub 537923841 msk := by exact Sub.mono (by assumption) rfl) :
    Fr msk s0 (stOf (State.biCtlWrite s p d v)) := by
  unfold State.biCtlWrite
  have h : Fr msk s0 (stOf (((s.biTouch p).put BI_CTL_ROLLBACK (bits v 4 4)).biActs [
      (bits v 0 0 = 1, fun s => s.biOpen p), (bits v 1 1 = 1, fun s => s.biCommit p d),
      (bits v 2 2 = 1, fun s => s.biHold), (bits v 3 3 = 1, fun s => s.biBoot), (bits v 5 5 = 1, fun s => s.biClose p)])) := by
    refine keeps_biActs _ ?_ (keeps_put _ _ (keeps_biTouch _ hk))
    intro x hx t ht
    simp only [List.mem_cons, List.not_mem_nil, or_false] at hx
    rcases hx with rfl | rfl | rfl | rfl | rfl
    · exact keeps_biOpen _ ht
    · exact keeps_biCommit _ _ ht
    · exact keeps_biHold ht
    · exact keeps_biBoot ht
    · exact keeps_biClose _ ht
  dsimp only
  exact keeps_ite_fst h (keeps_pair (keeps_put _ _ h))

theorem keeps_execBiOpen {p : Fin 5} {v : Word} {s s' : State}
    (e : execBiOpen p v s = .next s') : Fr 537923841 s s' := by
  unfold execBiOpen at e
  refine keeps_next e ?_
  clear e
  have hk := Fr.refl 537923841 s
  have hm : Sub 537923841 537923841 := Sub.refl _
  repeat' first
    | with_reducible assumption | (exact Sub.mono hm rfl) | intro _ | with_reducible apply keeps_biCtlWrite
    | with_reducible apply keeps_gatedWrite | dsimp only

theorem keeps_execBiCommit {p : Fin 5} {rollback : Bool} {s s' : State}
    (e : execBiCommit p rollback s = .next s') : Fr 537923841 s s' := by
  unfold execBiCommit at e
  refine keeps_next e ?_
  clear e
  have hk := Fr.refl 537923841 s
  have hm : Sub 537923841 537923841 := Sub.refl _
  repeat' first
    | with_reducible assumption | (exact Sub.mono hm rfl) | intro _ | with_reducible apply keeps_biCtlWrite
    | with_reducible apply keeps_gatedWrite | with_reducible apply keeps_ite | dsimp only

theorem keeps_execBiHoldNext {p : Fin 5} {s s' : State}
    (e : execBiHoldNext p s = .next s') : Fr 537923841 s s' := by
  unfold execBiHoldNext at e
  refine keeps_next e ?_
  clear e
  have hk := Fr.refl 537923841 s
  have hm : Sub 537923841 537923841 := Sub.refl _
  repeat' first
    | with_reducible assumption | (exact Sub.mono hm rfl) | intro _ | with_reducible apply keeps_biCtlWrite
    | with_reducible apply keeps_gatedWrite | dsimp only

theorem keeps_execBiBoot {p : Fin 5} {s s' : State}
    (e : execBiBoot p s = .next s') : Fr 537923841 s s' := by
  unfold execBiBoot at e
  refine keeps_next e ?_
  clear e
  have hk := Fr.refl 537923841 s
  have hm : Sub 537923841 537923841 := Sub.refl _
  repeat' first
    | with_reducible assumption | (exact Sub.mono hm rfl) | intro _ | with_reducible apply keeps_biCtlWrite
    | with_reducible apply keeps_gatedWrite | dsimp only

theorem keeps_execBiClose {p : Fin 5} {s s' : State}
    (e : execBiClose p s = .next s') : Fr 537923841 s s' := by
  unfold execBiClose at e
  refine keeps_next e ?_
  clear e
  have hk := Fr.refl 537923841 s
  have hm : Sub 537923841 537923841 := Sub.refl _
  repeat' first
    | with_reducible assumption | (exact Sub.mono hm rfl) | intro _ | with_reducible apply keeps_biCtlWrite
    | with_reducible apply keeps_gatedWrite | dsimp only

theorem keeps_biErased {msk : Nat} {s0 s : State}  (hk : Fr msk s0 s)
    (hm : Sub 1048577 msk := by exact Sub.mono (by assumption) rfl) :
    Fr msk s0 (State.biErased s) := by
  unfold State.biErased
  repeat' first
    | with_reducible assumption | (exact Sub.mono hm rfl) | intro _
    | (extract_lets +onlyGivenNames x; refine keeps_have (msk := msk) (s0 := s0) (x := x) ?_ ?_; rotate_left; clear_value x; intro hx; rotate_right; subst x)
    | (extract_lets +onlyGivenNames x; clear_value x) | with_reducible apply keeps_modIm | with_reducible apply keeps_put
    | with_reducible apply keeps_ite | split | dsimp only

theorem keeps_execBiEraseDone  {s s' : State}
    (e : execBiEraseDone  s = .next s') : Fr 1048577 s s' := by
  unfold execBiEraseDone at e
  refine keeps_next e ?_
  clear e
  have hk := Fr.refl 1048577 s
  have hm : Sub 1048577 1048577 := Sub.refl _
  repeat' first
    | with_reducible assumption | (exact Sub.mono hm rfl) | intro _ | with_reducible apply keeps_biErased | dsimp only

theorem keeps_biAppend {msk : Nat} {s0 s : State} (x : BiSession) (v : Word) (hk : Fr msk s0 s)
    (hm : Sub 1048577 msk := by exact Sub.mono (by assumption) rfl) :
    Fr msk s0 (State.biAppend s x v) := by
  unfold State.biAppend
  repeat' first
    | with_reducible assumption | (exact Sub.mono hm rfl) | intro _
    | (extract_lets +onlyGivenNames x; refine keeps_have (msk := msk) (s0 := s0) (x := x) ?_ ?_; rotate_left; clear_value x; intro hx; rotate_right; subst x)
    | (extract_lets +onlyGivenNames x; clear_value x) | with_reducible apply keeps_modIm | with_reducible apply keeps_setVal
    | dsimp only

theorem keeps_biData {msk : Nat} {s0 s : State} (p : Nat) (v : Word) (hk : Fr msk s0 s)
    (hm : Sub 537919489 msk := by exact Sub.mono (by assumption) rfl) :
    Fr msk s0 (stOf (State.biData s p v)) := by
  unfold State.biData
  repeat' first
    | with_reducible assumption | (exact Sub.mono hm rfl) | intro _
    | (extract_lets +onlyGivenNames x; refine keeps_have (msk := msk) (s0 := s0) (x := x) ?_ ?_; rotate_left; clear_value x; intro hx; rotate_right; subst x)
    | (extract_lets +onlyGivenNames x; refine keeps_have_fst (msk := msk) (s0 := s0) (x := x) ?_ ?_; rotate_left; clear_value x; intro hx; rotate_right; subst x)
    | (extract_lets +onlyGivenNames x; clear_value x) | with_reducible apply keeps_answer
    | with_reducible apply keeps_anyRefusal | with_reducible apply keeps_biAppend | with_reducible apply keeps_biTouch
    | with_reducible apply keeps_ifThen | with_reducible apply keeps_modIm | with_reducible apply keeps_useFree
    | with_reducible apply keeps_ite | with_reducible apply keeps_ite_fst | (simp only [stOf_mk]) | split
    | with_reducible apply keeps_fst | dsimp only

theorem keeps_execBiDataWrite {p : Fin 5} {v : Word} {s s' : State}
    (e : execBiDataWrite p v s = .next s') : Fr 537919489 s s' := by
  unfold execBiDataWrite at e
  refine keeps_next e ?_
  clear e
  have hk := Fr.refl 537919489 s
  have hm : Sub 537919489 537919489 := Sub.refl _
  repeat' first
    | with_reducible assumption | (exact Sub.mono hm rfl) | intro _ | with_reducible apply keeps_biData
    | with_reducible apply keeps_gatedWrite | dsimp only

theorem keeps_biRelease {msk : Nat} {s0 s : State} (l : List Word) (hk : Fr msk s0 s)
    (hm : Sub 1048577 msk := by exact Sub.mono (by assumption) rfl) : Fr msk s0 (State.biRelease s l) := by
  induction l generalizing s with
  | nil => exact hk
  | cons a l ih =>
    unfold State.biRelease
    repeat' first
      | with_reducible assumption | (exact Sub.mono hm rfl) | intro _
      | (extract_lets +onlyGivenNames x; refine keeps_have (msk := msk) (s0 := s0) (x := x) ?_ ?_; rotate_left; clear_value x; intro hx; rotate_right; subst x)
      | (extract_lets +onlyGivenNames x; refine keeps_have_fst (msk := msk) (s0 := s0) (x := x) ?_ ?_; rotate_left; clear_value x; intro hx; rotate_right; subst x)
      | (extract_lets +onlyGivenNames x; clear_value x) | with_reducible apply ih | with_reducible apply keeps_biAppend
      | with_reducible apply keeps_ite | with_reducible apply keeps_ite_fst | (simp only [stOf_mk]) | split
      | with_reducible apply keeps_fst | dsimp only

theorem keeps_biPageDone {msk : Nat} {s0 s : State} (n : Nat) (hk : Fr msk s0 s)
    (hm : Sub 1048577 msk := by exact Sub.mono (by assumption) rfl) :
    Fr msk s0 (State.biPageDone s n) := by
  unfold State.biPageDone
  repeat' first
    | with_reducible assumption | (exact Sub.mono hm rfl) | intro _
    | (extract_lets +onlyGivenNames x; refine keeps_have (msk := msk) (s0 := s0) (x := x) ?_ ?_; rotate_left; clear_value x; intro hx; rotate_right; subst x)
    | (extract_lets +onlyGivenNames x; clear_value x) | with_reducible apply keeps_biRelease
    | with_reducible apply keeps_modIm | with_reducible apply keeps_ite | split | dsimp only

theorem keeps_execBiPageProgramDone {n : Fin 4097} {s s' : State}
    (e : execBiPageProgramDone n s = .next s') : Fr 1048577 s s' := by
  unfold execBiPageProgramDone at e
  refine keeps_next e ?_
  clear e
  have hk := Fr.refl 1048577 s
  have hm : Sub 1048577 1048577 := Sub.refl _
  repeat' first
    | with_reducible assumption | (exact Sub.mono hm rfl) | intro _ | with_reducible apply keeps_biPageDone | dsimp only

theorem keeps_biCheckDone {msk : Nat} {s0 s : State}  (hk : Fr msk s0 s)
    (hm : Sub 1048577 msk := by exact Sub.mono (by assumption) rfl) :
    Fr msk s0 (State.biCheckDone s) := by
  unfold State.biCheckDone
  repeat' first
    | with_reducible assumption | (exact Sub.mono hm rfl) | intro _
    | (extract_lets +onlyGivenNames x; refine keeps_have (msk := msk) (s0 := s0) (x := x) ?_ ?_; rotate_left; clear_value x; intro hx; rotate_right; subst x)
    | (extract_lets +onlyGivenNames x; clear_value x) | with_reducible apply keeps_devAppend
    | with_reducible apply keeps_modIm | with_reducible apply keeps_put | with_reducible apply keeps_setVal
    | with_reducible apply keeps_ite | split | dsimp only

theorem keeps_execBiCheckDone  {s s' : State}
    (e : execBiCheckDone  s = .next s') : Fr 1048577 s s' := by
  unfold execBiCheckDone at e
  refine keeps_next e ?_
  clear e
  have hk := Fr.refl 1048577 s
  have hm : Sub 1048577 1048577 := Sub.refl _
  repeat' first
    | with_reducible assumption | (exact Sub.mono hm rfl) | intro _ | with_reducible apply keeps_biCheckDone | dsimp only

theorem keeps_biExpire {msk : Nat} {s0 s : State}  (hk : Fr msk s0 s)
    (hm : Sub 1048577 msk := by exact Sub.mono (by assumption) rfl) :
    Fr msk s0 (State.biExpire s) := by
  unfold State.biExpire
  repeat' first
    | with_reducible assumption | (exact Sub.mono hm rfl) | intro _
    | (extract_lets +onlyGivenNames x; refine keeps_have (msk := msk) (s0 := s0) (x := x) ?_ ?_; rotate_left; clear_value x; intro hx; rotate_right; subst x)
    | (extract_lets +onlyGivenNames x; clear_value x) | with_reducible apply keeps_modIm | with_reducible apply keeps_put
    | with_reducible apply keeps_ite | split | dsimp only

theorem keeps_execBiSessionExpire  {s s' : State}
    (e : execBiSessionExpire  s = .next s') : Fr 1048577 s s' := by
  unfold execBiSessionExpire at e
  refine keeps_next e ?_
  clear e
  have hk := Fr.refl 1048577 s
  have hm : Sub 1048577 1048577 := Sub.refl _
  repeat' first
    | with_reducible assumption | (exact Sub.mono hm rfl) | intro _ | with_reducible apply keeps_biExpire | dsimp only

theorem keeps_keyBlow {msk : Nat} {s0 s : State} (d : Nat) (k : Nat) (hk : Fr msk s0 s)
    (hm : Sub 1048577 msk := by exact Sub.mono (by assumption) rfl) :
    Fr msk s0 (stOf (State.keyBlow s d k)) := by
  unfold State.keyBlow
  repeat' first
    | with_reducible assumption | (exact Sub.mono hm rfl) | intro _
    | (extract_lets +onlyGivenNames x; refine keeps_have (msk := msk) (s0 := s0) (x := x) ?_ ?_; rotate_left; clear_value x; intro hx; rotate_right; subst x)
    | (extract_lets +onlyGivenNames x; refine keeps_have_fst (msk := msk) (s0 := s0) (x := x) ?_ ?_; rotate_left; clear_value x; intro hx; rotate_right; subst x)
    | (extract_lets +onlyGivenNames x; clear_value x) | with_reducible apply keeps_modIm
    | with_reducible apply keeps_showImage | with_reducible apply keeps_ite | with_reducible apply keeps_ite_fst
    | (simp only [stOf_mk]) | with_reducible apply keeps_fst | dsimp only

theorem keeps_keyRevoke {msk : Nat} {s0 s : State} (d : Nat) (k : Nat) (hk : Fr msk s0 s)
    (hm : Sub 1048576 msk := by exact Sub.mono (by assumption) rfl) :
    Fr msk s0 (stOf (State.keyRevoke s d k)) := by
  unfold State.keyRevoke
  repeat' first
    | with_reducible assumption | (exact Sub.mono hm rfl) | intro _
    | (extract_lets +onlyGivenNames x; refine keeps_have (msk := msk) (s0 := s0) (x := x) ?_ ?_; rotate_left; clear_value x; intro hx; rotate_right; subst x)
    | (extract_lets +onlyGivenNames x; refine keeps_have_fst (msk := msk) (s0 := s0) (x := x) ?_ ?_; rotate_left; clear_value x; intro hx; rotate_right; subst x)
    | (extract_lets +onlyGivenNames x; clear_value x) | with_reducible apply keeps_modIm | with_reducible apply keeps_ite
    | with_reducible apply keeps_ite_fst | (simp only [stOf_mk]) | with_reducible apply keeps_fst | dsimp only

theorem keeps_biFuseWrite {msk : Nat} {s0 s : State} (p d v : Nat) (hk : Fr msk s0 s)
    (hm : Sub 1048577 msk := by exact Sub.mono (by assumption) rfl) : Fr msk s0 (stOf (State.biFuseWrite s p d v)) := by
  unfold State.biFuseWrite
  refine keeps_biActs _ ?_ (keeps_put _ _ (keeps_biTouch _ hk))
  intro x hx t ht
  simp only [List.mem_cons, List.not_mem_nil, or_false] at hx
  rcases hx with rfl | rfl
  · exact keeps_keyBlow _ _ ht
  · exact keeps_keyRevoke _ _ ht

theorem keeps_execBiFuseBlow {p : Fin 5} {k : Fin 4} {s s' : State}
    (e : execBiFuseBlow p k s = .next s') : Fr 1048577 s s' := by
  unfold execBiFuseBlow at e
  refine keeps_next e ?_
  clear e
  have hk := Fr.refl 1048577 s
  have hm : Sub 1048577 1048577 := Sub.refl _
  repeat' first
    | with_reducible assumption | (exact Sub.mono hm rfl) | intro _ | with_reducible apply keeps_biFuseWrite
    | with_reducible apply keeps_gatedWrite | dsimp only

theorem keeps_execBiFuseRevoke {p : Fin 5} {k : Fin 4} {s s' : State}
    (e : execBiFuseRevoke p k s = .next s') : Fr 1048577 s s' := by
  unfold execBiFuseRevoke at e
  refine keeps_next e ?_
  clear e
  have hk := Fr.refl 1048577 s
  have hm : Sub 1048577 1048577 := Sub.refl _
  repeat' first
    | with_reducible assumption | (exact Sub.mono hm rfl) | intro _ | with_reducible apply keeps_biFuseWrite
    | with_reducible apply keeps_gatedWrite | dsimp only

end Sys2Proof.Machine
end

