-- ==== Sys2Proof/Laws/KeepsDevice.lean ====
section
/-! SUPPORT. Laws/KeepsDevice.lean: every operation of the model keeps what `Keeps` (Safety.lean) says; here state requests, synthesisers, faults and repair, management access, start-up, idling.
Each lemma follows the body of its operation: a let, a branch, a fold, a record update, or the law of the operation it calls. -/

set_option linter.all false

namespace Sys2Proof.Machine

set_option Elab.async false

/-! ### Safe -/

theorem keeps_cold {msk : Nat} {s0 s : State} (hk : Fr msk s0 s)
    (hm : Sub 1073741823 msk := by exact Sub.mono (by assumption) rfl) : Fr msk s0 (State.cold s) :=
  hk.stepAll ⟨rfl, rfl, List.prefix_rfl, Nat.le_refl _, fun _ => rfl, fun _ => rfl⟩ hm

theorem keeps_toReset {msk : Nat} {s0 s : State} (prev : Nat) (hk : Fr msk s0 s)
    (hm : Sub 1073741823 msk := by exact Sub.mono (by assumption) rfl) :
    Fr msk s0 (State.toReset s prev) := by
  unfold State.toReset
  repeat' first
    | with_reducible assumption | (exact Sub.mono hm rfl) | intro _ | with_reducible apply keeps_cold
    | with_reducible apply keeps_drivePins | with_reducible apply keeps_put | dsimp only

theorem keeps_toOff {msk : Nat} {s0 s : State}  (hk : Fr msk s0 s)
    (hm : Sub 1073741823 msk := by exact Sub.mono (by assumption) rfl) :
    Fr msk s0 (State.toOff s) := by
  unfold State.toOff
  repeat' first
    | with_reducible assumption | (exact Sub.mono hm rfl) | intro _
    | (extract_lets +onlyGivenNames x; refine keeps_have (msk := msk) (s0 := s0) (x := x) ?_ ?_; rotate_left; clear_value x; intro hx; rotate_right; subst x)
    | (extract_lets +onlyGivenNames x; clear_value x) | with_reducible apply keeps_cold
    | with_reducible apply keeps_drivePins | with_reducible apply keeps_put | dsimp only | with_reducible apply keeps_power

theorem keeps_enterSafe {msk : Nat} {s0 s : State} (cause : Nat) (gap : Nat) (hk : Fr msk s0 s)
    (hm : Sub 327155879 msk := by exact Sub.mono (by assumption) rfl) :
    Fr msk s0 (State.enterSafe s cause gap) := by
  unfold State.enterSafe
  repeat' first
    | with_reducible assumption | (exact Sub.mono hm rfl) | intro _
    | (extract_lets +onlyGivenNames x; refine keeps_have (msk := msk) (s0 := s0) (x := x) ?_ ?_; rotate_left; clear_value x; intro hx; rotate_right; subst x)
    | (extract_lets +onlyGivenNames x; clear_value x) | with_reducible apply keeps_beginLevel
    | with_reducible apply keeps_closeVolumes | with_reducible apply keeps_drivePins
    | with_reducible apply keeps_endAllStreams | with_reducible apply keeps_gap | with_reducible apply keeps_hqSafe
    | with_reducible apply keeps_moveTo | with_reducible apply keeps_put | dsimp only | with_reducible apply keeps_flow

theorem keeps_chipFault {msk : Nat} {s0 s : State} (kind : Nat) (hk : Fr msk s0 s)
    (hm : Sub 327155879 msk := by exact Sub.mono (by assumption) rfl) :
    Fr msk s0 (State.chipFault s kind) := by
  unfold State.chipFault
  repeat' first
    | with_reducible assumption | (exact Sub.mono hm rfl) | intro _
    | (extract_lets +onlyGivenNames x; refine keeps_have (msk := msk) (s0 := s0) (x := x) ?_ ?_; rotate_left; clear_value x; intro hx; rotate_right; subst x)
    | (extract_lets +onlyGivenNames x; clear_value x) | with_reducible apply keeps_drivePins
    | with_reducible apply keeps_enterSafe | with_reducible apply keeps_notMasked | with_reducible apply keeps_put
    | with_reducible apply keeps_raiseAlarm | with_reducible apply keeps_ite | dsimp only | with_reducible apply keeps_power

theorem keeps_execChipLevelFault {kind : Fin 8} {s s' : State}
    (e : execChipLevelFault kind s = .next s') : Fr 327155879 s s' := by
  unfold execChipLevelFault at e
  refine keeps_next e ?_
  clear e
  have hk := Fr.refl 327155879 s
  have hm : Sub 327155879 327155879 := Sub.refl _
  repeat' first
    | with_reducible assumption | (exact Sub.mono hm rfl) | intro _ | with_reducible apply keeps_chipFault
    | with_reducible apply keeps_ite | dsimp only

theorem keeps_enterWatch {msk : Nat} {s0 s : State}  (hk : Fr msk s0 s)
    (hm : Sub 268781573 msk := by exact Sub.mono (by assumption) rfl) :
    Fr msk s0 (State.enterWatch s) := by
  unfold State.enterWatch
  repeat' first
    | with_reducible assumption | (exact Sub.mono hm rfl) | intro _
    | (extract_lets +onlyGivenNames x; refine keeps_have (msk := msk) (s0 := s0) (x := x) ?_ ?_; rotate_left; clear_value x; intro hx; rotate_right; subst x)
    | (extract_lets +onlyGivenNames x; clear_value x) | with_reducible apply keeps_each | with_reducible apply keeps_inputEnd
    | with_reducible apply keeps_modIn | with_reducible apply keeps_moveTo | with_reducible apply keeps_rawGap
    | with_reducible apply keeps_ite | dsimp only

theorem keeps_leaveWatch {msk : Nat} {s0 s : State}  (hk : Fr msk s0 s)
    (hm : Sub 268791463 msk := by exact Sub.mono (by assumption) rfl) :
    Fr msk s0 (State.leaveWatch s) := by
  unfold State.leaveWatch
  repeat' first
    | with_reducible assumption | (exact Sub.mono hm rfl) | intro _
    | (extract_lets +onlyGivenNames x; refine keeps_have (msk := msk) (s0 := s0) (x := x) ?_ ?_; rotate_left; clear_value x; intro hx; rotate_right; subst x)
    | (extract_lets +onlyGivenNames x; clear_value x) | with_reducible apply keeps_each
    | with_reducible apply keeps_inputBack | with_reducible apply keeps_inputFlush | with_reducible apply keeps_modIn
    | with_reducible apply keeps_moveTo | with_reducible apply keeps_ringLose | with_reducible apply keeps_ite | dsimp only

theorem keeps_stateReq {msk : Nat} {s0 s : State} (v : Nat) (hk : Fr msk s0 s)
    (hm : Sub 1073741823 msk := by exact Sub.mono (by assumption) rfl) :
    Fr msk s0 (stOf (State.stateReq s v)) := by
  unfold State.stateReq
  repeat' first
    | with_reducible assumption | (exact Sub.mono hm rfl) | intro _
    | (extract_lets +onlyGivenNames x; refine keeps_have (msk := msk) (s0 := s0) (x := x) ?_ ?_; rotate_left; clear_value x; intro hx; rotate_right; subst x)
    | (extract_lets +onlyGivenNames x; refine keeps_have_fst (msk := msk) (s0 := s0) (x := x) ?_ ?_; rotate_left; clear_value x; intro hx; rotate_right; subst x)
    | (extract_lets +onlyGivenNames x; clear_value x) | with_reducible apply keeps_answer
    | with_reducible apply keeps_closeVolumes | with_reducible apply keeps_enterSafe | with_reducible apply keeps_enterWatch
    | with_reducible apply keeps_leaveWatch | with_reducible apply keeps_put | with_reducible apply keeps_toReset
    | with_reducible apply keeps_ite | with_reducible apply keeps_ite_fst | (simp only [stOf_mk]) | split
    | with_reducible apply keeps_fst | dsimp only

theorem keeps_execStateReqRun {p : Fin 5} {s s' : State}
    (e : execStateReqRun p s = .next s') : Fr 1073741823 s s' := by
  unfold execStateReqRun at e
  refine keeps_next e ?_
  clear e
  have hk := Fr.refl 1073741823 s
  have hm : Sub 1073741823 1073741823 := Sub.refl _
  repeat' first
    | with_reducible assumption | (exact Sub.mono hm rfl) | intro _ | with_reducible apply keeps_gatedWrite
    | with_reducible apply keeps_stateReq | dsimp only

theorem keeps_execStateReqWatch {p : Fin 5} {s s' : State}
    (e : execStateReqWatch p s = .next s') : Fr 1073741823 s s' := by
  unfold execStateReqWatch at e
  refine keeps_next e ?_
  clear e
  have hk := Fr.refl 1073741823 s
  have hm : Sub 1073741823 1073741823 := Sub.refl _
  repeat' first
    | with_reducible assumption | (exact Sub.mono hm rfl) | intro _ | with_reducible apply keeps_gatedWrite
    | with_reducible apply keeps_stateReq | dsimp only

theorem keeps_execStateReqSafe {p : Fin 5} {s s' : State}
    (e : execStateReqSafe p s = .next s') : Fr 1073741823 s s' := by
  unfold execStateReqSafe at e
  refine keeps_next e ?_
  clear e
  have hk := Fr.refl 1073741823 s
  have hm : Sub 1073741823 1073741823 := Sub.refl _
  repeat' first
    | with_reducible assumption | (exact Sub.mono hm rfl) | intro _ | with_reducible apply keeps_gatedWrite
    | with_reducible apply keeps_stateReq | dsimp only

theorem keeps_execStateReqReset {p : Fin 5} {s s' : State}
    (e : execStateReqReset p s = .next s') : Fr 1073741823 s s' := by
  unfold execStateReqReset at e
  refine keeps_next e ?_
  clear e
  have hk := Fr.refl 1073741823 s
  have hm : Sub 1073741823 1073741823 := Sub.refl _
  repeat' first
    | with_reducible assumption | (exact Sub.mono hm rfl) | intro _ | with_reducible apply keeps_gatedWrite
    | with_reducible apply keeps_stateReq | dsimp only

theorem keeps_powerGood {msk : Nat} {s0 s : State}  (hk : Fr msk s0 s)
    (hm : Sub 1073741823 msk := by exact Sub.mono (by assumption) rfl) :
    Fr msk s0 (State.powerGood s) := by
  unfold State.powerGood
  repeat' first
    | with_reducible assumption | (exact Sub.mono hm rfl) | intro _
    | (extract_lets +onlyGivenNames x; refine keeps_have (msk := msk) (s0 := s0) (x := x) ?_ ?_; rotate_left; clear_value x; intro hx; rotate_right; subst x)
    | (extract_lets +onlyGivenNames x; clear_value x) | with_reducible apply keeps_toReset | with_reducible apply keeps_ite
    | dsimp only | with_reducible apply keeps_power

theorem keeps_execPowerGood  {s s' : State}
    (e : execPowerGood  s = .next s') : Fr 1073741823 s s' := by
  unfold execPowerGood at e
  refine keeps_next e ?_
  clear e
  have hk := Fr.refl 1073741823 s
  have hm : Sub 1073741823 1073741823 := Sub.refl _
  repeat' first
    | with_reducible assumption | (exact Sub.mono hm rfl) | intro _ | with_reducible apply keeps_powerGood | dsimp only

theorem keeps_execSupplyOutOfRange  {s s' : State}
    (e : execSupplyOutOfRange  s = .next s') : Fr 1073741823 s s' := by
  unfold execSupplyOutOfRange at e
  refine keeps_next e ?_
  clear e
  have hk := Fr.refl 1073741823 s
  have hm : Sub 1073741823 1073741823 := Sub.refl _
  repeat' first
    | with_reducible assumption | (exact Sub.mono hm rfl) | intro _
    | (extract_lets +onlyGivenNames x; refine keeps_have (msk := 1073741823) (s0 := s) (x := x) ?_ ?_; rotate_left; clear_value x; intro hx; rotate_right; subst x)
    | (extract_lets +onlyGivenNames x; clear_value x) | with_reducible apply keeps_toOff | with_reducible apply keeps_ite
    | dsimp only | with_reducible apply keeps_power

theorem keeps_execPowerFail  {s s' : State}
    (e : execPowerFail  s = .next s') : Fr 16777218 s s' := by
  unfold execPowerFail at e
  refine keeps_next e ?_
  clear e
  have hk := Fr.refl 16777218 s
  have hm : Sub 16777218 16777218 := Sub.refl _
  repeat' first
    | with_reducible assumption | (exact Sub.mono hm rfl) | intro _
    | (extract_lets +onlyGivenNames x; refine keeps_have (msk := 16777218) (s0 := s) (x := x) ?_ ?_; rotate_left; clear_value x; intro hx; rotate_right; subst x)
    | (extract_lets +onlyGivenNames x; clear_value x) | with_reducible apply keeps_bdPowerFail
    | with_reducible apply keeps_ifThen | with_reducible apply keeps_ite | split | dsimp only
    | with_reducible apply keeps_power

/-! ### Synth -/

theorem keeps_modSyn {msk : Nat} {s0 s : State} (b : Nat) (f : SynSt → SynSt) (hk : Fr msk s0 s)
    (hm : Sub 8 msk := by exact Sub.mono (by assumption) rfl) :
    Fr msk s0 (State.modSyn s b f) := by
  unfold State.modSyn
  repeat' first
    | with_reducible assumption | (exact Sub.mono hm rfl) | intro _
    | (extract_lets +onlyGivenNames x; refine keeps_have (msk := msk) (s0 := s0) (x := x) ?_ ?_; rotate_left; clear_value x; intro hx; rotate_right; subst x)
    | (extract_lets +onlyGivenNames x; clear_value x) | with_reducible apply keeps_modTime | dsimp only

theorem keeps_afResume {msk : Nat} {s0 s : State} (cause : Nat) (l : List Nat) (hk : Fr msk s0 s)
    (hm : Sub 268791463 msk := by exact Sub.mono (by assumption) rfl) :
    Fr msk s0 (State.afResume s cause l) := by
  unfold State.afResume
  repeat' first
    | with_reducible assumption | (exact Sub.mono hm rfl) | intro _ | with_reducible apply keeps_each
    | with_reducible apply keeps_inputResume | dsimp only

theorem keeps_ungate {msk : Nat} {s0 s : State} (b : Nat) (hk : Fr msk s0 s)
    (hm : Sub 268791471 msk := by exact Sub.mono (by assumption) rfl) :
    Fr msk s0 (State.ungate s b) := by
  unfold State.ungate
  repeat' first
    | with_reducible assumption | (exact Sub.mono hm rfl) | intro _
    | (extract_lets +onlyGivenNames x; refine keeps_have (msk := msk) (s0 := s0) (x := x) ?_ ?_; rotate_left; clear_value x; intro hx; rotate_right; subst x)
    | (extract_lets +onlyGivenNames x; clear_value x) | with_reducible apply keeps_afResume
    | with_reducible apply keeps_modSyn | with_reducible apply keeps_put | with_reducible apply keeps_swResume
    | with_reducible apply keeps_ite | dsimp only

theorem keeps_timeStart {msk : Nat} {s0 s : State}  (hk : Fr msk s0 s)
    (hm : Sub 8 msk := by exact Sub.mono (by assumption) rfl) :
    Fr msk s0 (State.timeStart s) := by
  unfold State.timeStart
  repeat' first
    | with_reducible assumption | (exact Sub.mono hm rfl) | intro _
    | (extract_lets +onlyGivenNames x; refine keeps_have (msk := msk) (s0 := s0) (x := x) ?_ ?_; rotate_left; clear_value x; intro hx; rotate_right; subst x)
    | (extract_lets +onlyGivenNames x; clear_value x) | with_reducible apply keeps_modTime | with_reducible apply keeps_ite
    | dsimp only

theorem keeps_setCode {msk : Nat} {s0 s : State} (b : Nat) (code : Nat) (held : Nat) (hk : Fr msk s0 s)
    (hm : Sub 1 msk := by exact Sub.mono (by assumption) rfl) :
    Fr msk s0 (State.setCode s b code held) := by
  unfold State.setCode
  repeat' first
    | with_reducible assumption | (exact Sub.mono hm rfl) | intro _
    | (extract_lets +onlyGivenNames x; refine keeps_have (msk := msk) (s0 := s0) (x := x) ?_ ?_; rotate_left; clear_value x; intro hx; rotate_right; subst x)
    | (extract_lets +onlyGivenNames x; clear_value x) | with_reducible apply keeps_count | with_reducible apply keeps_put
    | with_reducible apply keeps_ite | dsimp only

theorem keeps_lockDeclared {msk : Nat} {s0 s : State} (b : Nat) (err : Int) (code : Nat) (held : Nat) (hk : Fr msk s0 s)
    (hm : Sub 268791471 msk := by exact Sub.mono (by assumption) rfl) :
    Fr msk s0 (State.lockDeclared s b err code held) := by
  unfold State.lockDeclared
  repeat' first
    | with_reducible assumption | (exact Sub.mono hm rfl) | intro _
    | (extract_lets +onlyGivenNames x; refine keeps_have (msk := msk) (s0 := s0) (x := x) ?_ ?_; rotate_left; clear_value x; intro hx; rotate_right; subst x)
    | (extract_lets +onlyGivenNames x; clear_value x) | with_reducible apply keeps_put | with_reducible apply keeps_setCode
    | with_reducible apply keeps_timeStart | with_reducible apply keeps_ungate | with_reducible apply keeps_ite | split
    | dsimp only

theorem keeps_execSynLockDeclared {b : Fin 16} {err : Int} {code : BitVec 16} {held : Nat} {s s' : State}
    (e : execSynLockDeclared b err code held s = .next s') : Fr 268791471 s s' := by
  unfold execSynLockDeclared at e
  refine keeps_next e ?_
  clear e
  have hk := Fr.refl 268791471 s
  have hm : Sub 268791471 268791471 := Sub.refl _
  repeat' first
    | with_reducible assumption | (exact Sub.mono hm rfl) | intro _ | with_reducible apply keeps_lockDeclared | dsimp only

theorem keeps_lockLost {msk : Nat} {s0 s : State} (b : Nat) (err : Int) (hk : Fr msk s0 s)
    (hm : Sub 864373167 msk := by exact Sub.mono (by assumption) rfl) :
    Fr msk s0 (State.lockLost s b err) := by
  unfold State.lockLost
  repeat' first
    | with_reducible assumption | (exact Sub.mono hm rfl) | intro _
    | (extract_lets +onlyGivenNames x; refine keeps_have (msk := msk) (s0 := s0) (x := x) ?_ ?_; rotate_left; clear_value x; intro hx; rotate_right; subst x)
    | (extract_lets +onlyGivenNames x; clear_value x) | with_reducible apply keeps_afUnlock
    | with_reducible apply keeps_blockFail | with_reducible apply keeps_chipFault | with_reducible apply keeps_modSyn
    | with_reducible apply keeps_modTime | with_reducible apply keeps_put | with_reducible apply keeps_setCoasting
    | with_reducible apply keeps_ite | split | dsimp only

theorem keeps_execSynLockLost {b : Fin 16} {err : Int} {s s' : State}
    (e : execSynLockLost b err s = .next s') : Fr 864373167 s s' := by
  unfold execSynLockLost at e
  refine keeps_next e ?_
  clear e
  have hk := Fr.refl 864373167 s
  have hm : Sub 864373167 864373167 := Sub.refl _
  repeat' first
    | with_reducible assumption | (exact Sub.mono hm rfl) | intro _ | with_reducible apply keeps_lockLost | dsimp only

theorem keeps_synLockWrite {msk : Nat} {s0 s : State} (b : Nat) (v : Nat) (hk : Fr msk s0 s)
    (hm : Sub 1 msk := by exact Sub.mono (by assumption) rfl) :
    Fr msk s0 (stOf (State.synLockWrite s b v)) := by
  unfold State.synLockWrite
  repeat' first
    | with_reducible assumption | (exact Sub.mono hm rfl) | intro _
    | (extract_lets +onlyGivenNames x; refine keeps_have (msk := msk) (s0 := s0) (x := x) ?_ ?_; rotate_left; clear_value x; intro hx; rotate_right; subst x)
    | (extract_lets +onlyGivenNames x; refine keeps_have_fst (msk := msk) (s0 := s0) (x := x) ?_ ?_; rotate_left; clear_value x; intro hx; rotate_right; subst x)
    | (extract_lets +onlyGivenNames x; clear_value x) | with_reducible apply keeps_answer
    | with_reducible apply keeps_plainWrite | with_reducible apply keeps_ite | with_reducible apply keeps_ite_fst
    | (simp only [stOf_mk]) | split | with_reducible apply keeps_fst | dsimp only

theorem keeps_execSynLockWrite {p : Fin 5} {b : Fin 16} {v : Word} {s s' : State}
    (e : execSynLockWrite p b v s = .next s') : Fr 1 s s' := by
  unfold execSynLockWrite at e
  refine keeps_next e ?_
  clear e
  have hk := Fr.refl 1 s
  have hm : Sub 1 1 := Sub.refl _
  repeat' first
    | with_reducible assumption | (exact Sub.mono hm rfl) | intro _ | with_reducible apply keeps_gatedWrite
    | with_reducible apply keeps_synLockWrite | dsimp only

theorem keeps_synRamp {msk : Nat} {s0 s : State} (b : Nat) (hk : Fr msk s0 s)
    (hm : Sub 268781581 msk := by exact Sub.mono (by assumption) rfl) :
    Fr msk s0 (stOf (State.synRamp s b)) := by
  unfold State.synRamp
  repeat' first
    | with_reducible assumption | (exact Sub.mono hm rfl) | intro _
    | (extract_lets +onlyGivenNames x; refine keeps_have (msk := msk) (s0 := s0) (x := x) ?_ ?_; rotate_left; clear_value x; intro hx; rotate_right; subst x)
    | (extract_lets +onlyGivenNames x; refine keeps_have_fst (msk := msk) (s0 := s0) (x := x) ?_ ?_; rotate_left; clear_value x; intro hx; rotate_right; subst x)
    | (extract_lets +onlyGivenNames x; clear_value x) | with_reducible apply keeps_afUnlock
    | with_reducible apply keeps_answer | with_reducible apply keeps_modSyn | with_reducible apply keeps_put
    | with_reducible apply keeps_ite | with_reducible apply keeps_ite_fst | (simp only [stOf_mk]) | split
    | with_reducible apply keeps_fst | dsimp only

theorem keeps_ringRates {msk : Nat} {s0 s : State} (b : Nat) (hk : Fr msk s0 s)
    (hm : Sub 1028 msk := by exact Sub.mono (by assumption) rfl) :
    Fr msk s0 (State.ringRates s b) := by
  unfold State.ringRates
  repeat' first
    | with_reducible assumption | (exact Sub.mono hm rfl) | intro _ | with_reducible apply keeps_each
    | with_reducible apply keeps_retiePort | with_reducible apply keeps_setTraffic | with_reducible apply keeps_ite | split
    | dsimp only

theorem keeps_synCtlWrite {msk : Nat} {s0 s : State} (b : Nat) (v : Nat) (hk : Fr msk s0 s)
    (hm : Sub 268782605 msk := by exact Sub.mono (by assumption) rfl) :
    Fr msk s0 (stOf (State.synCtlWrite s b v)) := by
  unfold State.synCtlWrite
  repeat' first
    | with_reducible assumption | (exact Sub.mono hm rfl) | intro _
    | (extract_lets +onlyGivenNames x; refine keeps_have (msk := msk) (s0 := s0) (x := x) ?_ ?_; rotate_left; clear_value x; intro hx; rotate_right; subst x)
    | (extract_lets +onlyGivenNames x; refine keeps_have_fst (msk := msk) (s0 := s0) (x := x) ?_ ?_; rotate_left; clear_value x; intro hx; rotate_right; subst x)
    | (extract_lets +onlyGivenNames x; clear_value x) | with_reducible apply keeps_afUnlock
    | with_reducible apply keeps_answer | with_reducible apply keeps_modSyn | with_reducible apply keeps_put
    | with_reducible apply keeps_ringRates | with_reducible apply keeps_synRamp | with_reducible apply keeps_ite
    | with_reducible apply keeps_ite_fst | (simp only [stOf_mk]) | with_reducible apply keeps_fst | dsimp only

theorem keeps_execSynEnable {p : Fin 5} {b : Fin 16} {on : Bool} {s s' : State}
    (e : execSynEnable p b on s = .next s') : Fr 268782605 s s' := by
  unfold execSynEnable at e
  refine keeps_next e ?_
  clear e
  have hk := Fr.refl 268782605 s
  have hm : Sub 268782605 268782605 := Sub.refl _
  repeat' first
    | with_reducible assumption | (exact Sub.mono hm rfl) | intro _ | with_reducible apply keeps_gatedWrite
    | with_reducible apply keeps_synCtlWrite | with_reducible apply keeps_ite | dsimp only

theorem keeps_execSynRampGo {p : Fin 5} {b : Fin 16} {s s' : State}
    (e : execSynRampGo p b s = .next s') : Fr 268782605 s s' := by
  unfold execSynRampGo at e
  refine keeps_next e ?_
  clear e
  have hk := Fr.refl 268782605 s
  have hm : Sub 268782605 268782605 := Sub.refl _
  repeat' first
    | with_reducible assumption | (exact Sub.mono hm rfl) | intro _ | with_reducible apply keeps_gatedWrite
    | with_reducible apply keeps_synCtlWrite | dsimp only

theorem keeps_segmentEnd {msk : Nat} {s0 s : State} (b : Nat) (hk : Fr msk s0 s)
    (hm : Sub 1037 msk := by exact Sub.mono (by assumption) rfl) :
    Fr msk s0 (State.segmentEnd s b) := by
  unfold State.segmentEnd
  repeat' first
    | with_reducible assumption | (exact Sub.mono hm rfl) | intro _
    | (extract_lets +onlyGivenNames x; refine keeps_have (msk := msk) (s0 := s0) (x := x) ?_ ?_; rotate_left; clear_value x; intro hx; rotate_right; subst x)
    | (extract_lets +onlyGivenNames x; clear_value x) | with_reducible apply keeps_modSyn | with_reducible apply keeps_put
    | with_reducible apply keeps_ringRates | with_reducible apply keeps_ite | split | dsimp only

theorem keeps_execSynRampSegmentEnd {b : Fin 16} {s s' : State}
    (e : execSynRampSegmentEnd b s = .next s') : Fr 1037 s s' := by
  unfold execSynRampSegmentEnd at e
  refine keeps_next e ?_
  clear e
  have hk := Fr.refl 1037 s
  have hm : Sub 1037 1037 := Sub.refl _
  repeat' first
    | with_reducible assumption | (exact Sub.mono hm rfl) | intro _ | with_reducible apply keeps_segmentEnd | dsimp only

theorem keeps_dcoCeil {msk : Nat} {s0 s : State} (b : Nat) (held : Nat) (hk : Fr msk s0 s)
    (hm : Sub 536870913 msk := by exact Sub.mono (by assumption) rfl) :
    Fr msk s0 (State.dcoCeil s b held) := by
  unfold State.dcoCeil
  repeat' first
    | with_reducible assumption | (exact Sub.mono hm rfl) | intro _
    | (extract_lets +onlyGivenNames x; refine keeps_have (msk := msk) (s0 := s0) (x := x) ?_ ?_; rotate_left; clear_value x; intro hx; rotate_right; subst x)
    | (extract_lets +onlyGivenNames x; clear_value x) | with_reducible apply keeps_put | with_reducible apply keeps_setCode
    | with_reducible apply keeps_useFree | with_reducible apply keeps_ite | dsimp only

theorem keeps_execDcoCeilUpdate {k : Fin 16} {held : Nat} {s s' : State}
    (e : execDcoCeilUpdate k held s = .next s') : Fr 536870913 s s' := by
  unfold execDcoCeilUpdate at e
  refine keeps_next e ?_
  clear e
  have hk := Fr.refl 536870913 s
  have hm : Sub 536870913 536870913 := Sub.refl _
  repeat' first
    | with_reducible assumption | (exact Sub.mono hm rfl) | intro _ | with_reducible apply keeps_dcoCeil
    | with_reducible apply keeps_ite | split | dsimp only

/-! ### Repair -/

theorem keeps_pipeMap {msk : Nat} {s0 s : State} (r : Nat) (hk : Fr msk s0 s)
    (hm : Sub 1 msk := by exact Sub.mono (by assumption) rfl) :
    Fr msk s0 (State.pipeMap s r) := by
  unfold State.pipeMap
  repeat' first
    | with_reducible assumption | (exact Sub.mono hm rfl) | intro _
    | (extract_lets +onlyGivenNames x; refine keeps_have (msk := msk) (s0 := s0) (x := x) ?_ ?_; rotate_left; clear_value x; intro hx; rotate_right; subst x)
    | (extract_lets +onlyGivenNames x; clear_value x) | with_reducible apply keeps_each | with_reducible apply keeps_put
    | with_reducible apply keeps_foldl | with_reducible apply keeps_foldl_fst | with_reducible apply keeps_ite | split
    | dsimp only

theorem keeps_pipeTaken {msk : Nat} {s0 s : State} (n : Nat) (hk : Fr msk s0 s)
    (hm : Sub 65536 msk := by exact Sub.mono (by assumption) rfl) :
    Fr msk s0 (State.pipeTaken s n) := by
  unfold State.pipeTaken
  repeat' first
    | with_reducible assumption | (exact Sub.mono hm rfl) | intro _
    | (extract_lets +onlyGivenNames x; refine keeps_have (msk := msk) (s0 := s0) (x := x) ?_ ?_; rotate_left; clear_value x; intro hx; rotate_right; subst x)
    | (extract_lets +onlyGivenNames x; clear_value x) | with_reducible apply keeps_modBt | with_reducible apply keeps_ite
    | dsimp only

theorem keeps_zoomTaken {msk : Nat} {s0 s : State} (z : Nat) (hk : Fr msk s0 s)
    (hm : Sub 805748740 msk := by exact Sub.mono (by assumption) rfl) :
    Fr msk s0 (State.zoomTaken s z) := by
  unfold State.zoomTaken
  repeat' first
    | with_reducible assumption | (exact Sub.mono hm rfl) | intro _
    | (extract_lets +onlyGivenNames x; refine keeps_have (msk := msk) (s0 := s0) (x := x) ?_ ?_; rotate_left; clear_value x; intro hx; rotate_right; subst x)
    | (extract_lets +onlyGivenNames x; clear_value x) | with_reducible apply keeps_gap | with_reducible apply keeps_modZp
    | with_reducible apply keeps_zpLoss | with_reducible apply keeps_foldl | with_reducible apply keeps_foldl_fst
    | with_reducible apply keeps_ite | split | dsimp only

theorem keeps_pairTaken {msk : Nat} {s0 s : State} (q : Nat) (hk : Fr msk s0 s)
    (hm : Sub 270532612 msk := by exact Sub.mono (by assumption) rfl) :
    Fr msk s0 (State.pairTaken s q) := by
  unfold State.pairTaken
  repeat' first
    | with_reducible assumption | (exact Sub.mono hm rfl) | intro _
    | (extract_lets +onlyGivenNames x; refine keeps_have (msk := msk) (s0 := s0) (x := x) ?_ ?_; rotate_left; clear_value x; intro hx; rotate_right; subst x)
    | (extract_lets +onlyGivenNames x; clear_value x) | with_reducible apply keeps_gap | with_reducible apply keeps_modPair
    | with_reducible apply keeps_ite | dsimp only

theorem keeps_adderTaken {msk : Nat} {s0 s : State} (b : Nat) (hk : Fr msk s0 s)
    (hm : Sub 2097152 msk := by exact Sub.mono (by assumption) rfl) :
    Fr msk s0 (State.adderTaken s b) := by
  unfold State.adderTaken
  repeat' first
    | with_reducible assumption | with_reducible apply keeps_modBeam
    | (extract_lets +onlyGivenNames x; refine keeps_fun (x := x) ?_; subst x) | (exact Sub.mono hm rfl) | intro _
    | (extract_lets +onlyGivenNames x; refine keeps_have (msk := msk) (s0 := s0) (x := x) ?_ ?_; rotate_left; clear_value x; intro hx; rotate_right; subst x)
    | (extract_lets +onlyGivenNames x; clear_value x) | with_reducible apply keeps_ite | dsimp only

theorem keeps_dutyTaken {msk : Nat} {s0 s : State} (k : Nat) (d : Nat) (hk : Fr msk s0 s)
    (hm : Sub 807923375 msk := by exact Sub.mono (by assumption) rfl) :
    Fr msk s0 (State.dutyTaken s k d) := by
  unfold State.dutyTaken
  repeat' first
    | with_reducible assumption | (exact Sub.mono hm rfl) | intro _ | with_reducible apply keeps_adderTaken
    | with_reducible apply keeps_afResume | with_reducible apply keeps_countDumps | with_reducible apply keeps_each
    | with_reducible apply keeps_pairTaken | with_reducible apply keeps_pipeTaken | with_reducible apply keeps_ungate
    | with_reducible apply keeps_zoomTaken | with_reducible apply keeps_ite | dsimp only

theorem keeps_dcoGate {msk : Nat} {s0 s : State} (k : Nat) (hk : Fr msk s0 s)
    (hm : Sub 268781581 msk := by exact Sub.mono (by assumption) rfl) :
    Fr msk s0 (State.dcoGate s k) := by
  unfold State.dcoGate
  repeat' first
    | with_reducible assumption | (exact Sub.mono hm rfl) | intro _
    | (extract_lets +onlyGivenNames x; refine keeps_have (msk := msk) (s0 := s0) (x := x) ?_ ?_; rotate_left; clear_value x; intro hx; rotate_right; subst x)
    | (extract_lets +onlyGivenNames x; clear_value x) | with_reducible apply keeps_afUnlock
    | with_reducible apply keeps_modSyn | with_reducible apply keeps_put | with_reducible apply keeps_ite | dsimp only

theorem keeps_afterLoss {msk : Nat} {s0 was s : State} (k : Nat) (hk : Fr msk s0 s)
    (hm : Sub 297795589 msk := by exact Sub.mono (by assumption) rfl) : Fr msk s0 (State.afterLoss was s k) := by
  unfold State.afterLoss
  repeat' first
    | with_reducible assumption | (exact Sub.mono hm rfl) | intro _ | with_reducible apply keeps_bdGone
    | with_reducible apply keeps_ctxEnd | with_reducible apply keeps_each | with_reducible apply keeps_ite
    | with_reducible apply keeps_ite_fst | (simp only [stOf_mk]) | split | with_reducible apply keeps_fst | dsimp only

theorem keeps_endpointGone {msk : Nat} {s0 s : State} (k : Nat) (b : Nat) (hk : Fr msk s0 s)
    (hm : Sub 1 msk := by exact Sub.mono (by assumption) rfl) :
    Fr msk s0 (State.endpointGone s k b) := by
  unfold State.endpointGone
  repeat' first
    | with_reducible assumption | (exact Sub.mono hm rfl) | intro _ | with_reducible apply keeps_setVal
    | with_reducible apply keeps_ite | dsimp only

theorem keeps_timerLost {msk : Nat} {s0 s : State}  (hk : Fr msk s0 s)
    (hm : Sub 805569541 msk := by exact Sub.mono (by assumption) rfl) :
    Fr msk s0 (State.timerLost s) := by
  unfold State.timerLost
  repeat' first
    | with_reducible assumption | (exact Sub.mono hm rfl) | intro _ | with_reducible apply keeps_blindFor
    | with_reducible apply keeps_each | with_reducible apply keeps_put | with_reducible apply keeps_tgStop | dsimp only

theorem keeps_checkFail {msk : Nat} {s0 s : State} (k : Nat) (b : Nat) (array : Nat) (addr : Nat) (bit : Nat) (hk : Fr msk s0 s)
    (hm : Sub 868568495 msk := by exact Sub.mono (by assumption) rfl) :
    Fr msk s0 (State.checkFail s k b array addr bit) := by
  unfold State.checkFail
  repeat' first
    | with_reducible assumption | (exact Sub.mono hm rfl) | intro _
    | (extract_lets +onlyGivenNames x; refine keeps_have (msk := msk) (s0 := s0) (x := x) ?_ ?_; rotate_left; clear_value x; intro hx; rotate_right; subst x)
    | (extract_lets +onlyGivenNames x; clear_value x) | with_reducible apply keeps_afterLoss
    | with_reducible apply keeps_blockFail | with_reducible apply keeps_chipFault | with_reducible apply keeps_dcoGate
    | with_reducible apply keeps_endpointGone | with_reducible apply keeps_flashChanFail | with_reducible apply keeps_ftLog
    | with_reducible apply keeps_laneFail | with_reducible apply keeps_pipeMap | with_reducible apply keeps_setBlk
    | with_reducible apply keeps_timerLost | with_reducible apply keeps_ite | split | dsimp only

theorem keeps_execBlockCheckFail {k : Fin 16} {b : Fin 256} {array : Fin 256} {addr : Word} {bit : Fin 256} {s s' : State}
    (e : execBlockCheckFail k b array addr bit s = .next s') : Fr 868568495 s s' := by
  unfold execBlockCheckFail at e
  refine keeps_next e ?_
  clear e
  have hk := Fr.refl 868568495 s
  have hm : Sub 868568495 868568495 := Sub.refl _
  repeat' first
    | with_reducible assumption | (exact Sub.mono hm rfl) | intro _ | with_reducible apply keeps_checkFail | dsimp only

theorem keeps_execPipelineCheckFail {n : Fin 16} {s s' : State}
    (e : execPipelineCheckFail n s = .next s') : Fr 868568495 s s' := by
  unfold execPipelineCheckFail at e
  refine keeps_next e ?_
  clear e
  have hk := Fr.refl 868568495 s
  have hm : Sub 868568495 868568495 := Sub.refl _
  repeat' first
    | with_reducible assumption | (exact Sub.mono hm rfl) | intro _
    | (extract_lets +onlyGivenNames x; refine keeps_have (msk := 868568495) (s0 := s) (x := x) ?_ ?_; rotate_left; clear_value x; intro hx; rotate_right; subst x)
    | (extract_lets +onlyGivenNames x; clear_value x) | with_reducible apply keeps_checkFail | split | dsimp only

theorem keeps_nextFault {msk : Nat} {s0 s : State} (k : Nat) (hk : Fr msk s0 s)
    (hm : Sub 835013039 msk := by exact Sub.mono (by assumption) rfl) :
    Fr msk s0 (State.nextFault s k) := by
  unfold State.nextFault
  repeat' first
    | with_reducible assumption | (exact Sub.mono hm rfl) | intro _
    | (extract_lets +onlyGivenNames x; refine keeps_have (msk := msk) (s0 := s0) (x := x) ?_ ?_; rotate_left; clear_value x; intro hx; rotate_right; subst x)
    | (extract_lets +onlyGivenNames x; clear_value x) | with_reducible apply keeps_afterLoss
    | with_reducible apply keeps_dcoGate | with_reducible apply keeps_endpointGone | with_reducible apply keeps_faultStart
    | with_reducible apply keeps_modFt | with_reducible apply keeps_ite | split | dsimp only

theorem keeps_takeoverDone {msk : Nat} {s0 s : State} (k : Nat) (hk : Fr msk s0 s)
    (hm : Sub 837283759 msk := by exact Sub.mono (by assumption) rfl) :
    Fr msk s0 (State.takeoverDone s k) := by
  unfold State.takeoverDone
  repeat' first
    | with_reducible assumption | (exact Sub.mono hm rfl) | intro _
    | (extract_lets +onlyGivenNames x; refine keeps_have (msk := msk) (s0 := s0) (x := x) ?_ ?_; rotate_left; clear_value x; intro hx; rotate_right; subst x)
    | (extract_lets +onlyGivenNames x; clear_value x) | with_reducible apply keeps_count
    | with_reducible apply keeps_dutyTaken | with_reducible apply keeps_epochMarkers | with_reducible apply keeps_modFt
    | with_reducible apply keeps_nextFault | with_reducible apply keeps_pipeMap | with_reducible apply keeps_spareGone
    | split | (with_reducible apply keeps_id) | dsimp only

theorem keeps_execBlockTakeoverDone {k : Fin 16} {s s' : State}
    (e : execBlockTakeoverDone k s = .next s') : Fr 837283759 s s' := by
  unfold execBlockTakeoverDone at e
  refine keeps_next e ?_
  clear e
  have hk := Fr.refl 837283759 s
  have hm : Sub 837283759 837283759 := Sub.refl _
  repeat' first
    | with_reducible assumption | (exact Sub.mono hm rfl) | intro _ | with_reducible apply keeps_takeoverDone | dsimp only

theorem keeps_execRegionPollMiss {k : Fin 16} {s s' : State}
    (e : execRegionPollMiss k s = .next s') : Fr 331350183 s s' := by
  unfold execRegionPollMiss at e
  refine keeps_next e ?_
  clear e
  have hk := Fr.refl 331350183 s
  have hm : Sub 331350183 331350183 := Sub.refl _
  repeat' first
    | with_reducible assumption | (exact Sub.mono hm rfl) | intro _ | with_reducible apply keeps_afterLoss
    | with_reducible apply keeps_chipFault | with_reducible apply keeps_regionLost | with_reducible apply keeps_ite | split
    | dsimp only

theorem keeps_softRepair {msk : Nat} {s0 s : State} (r : Repair) (hk : Fr msk s0 s)
    (hm : Sub 256 msk := by exact Sub.mono (by assumption) rfl) :
    Fr msk s0 (State.softRepair s r) := by
  unfold State.softRepair
  repeat' first
    | with_reducible assumption | (exact Sub.mono hm rfl) | intro _
    | (extract_lets +onlyGivenNames x; refine keeps_have (msk := msk) (s0 := s0) (x := x) ?_ ?_; rotate_left; clear_value x; intro hx; rotate_right; subst x)
    | (extract_lets +onlyGivenNames x; clear_value x) | with_reducible apply keeps_recordAppend | dsimp only
    | with_reducible apply keeps_ft

theorem keeps_sramCorrection {msk : Nat} {s0 s : State} (k : Nat) (b : Nat) (array : Nat) (row : Nat) (hk : Fr msk s0 s)
    (hm : Sub 257 msk := by exact Sub.mono (by assumption) rfl) :
    Fr msk s0 (State.sramCorrection s k b array row) := by
  unfold State.sramCorrection
  repeat' first
    | with_reducible assumption | (exact Sub.mono hm rfl) | intro _
    | (extract_lets +onlyGivenNames x; refine keeps_have (msk := msk) (s0 := s0) (x := x) ?_ ?_; rotate_left; clear_value x; intro hx; rotate_right; subst x)
    | (extract_lets +onlyGivenNames x; clear_value x) | with_reducible apply keeps_count | with_reducible apply keeps_modFt
    | with_reducible apply keeps_softRepair | with_reducible apply keeps_ite | split | dsimp only

theorem keeps_execSramCorrection {k : Fin 16} {b : Fin 256} {array : Fin 65536} {row : Word} {s s' : State}
    (e : execSramCorrection k b array row s = .next s') : Fr 257 s s' := by
  unfold execSramCorrection at e
  refine keeps_next e ?_
  clear e
  have hk := Fr.refl 257 s
  have hm : Sub 257 257 := Sub.refl _
  repeat' first
    | with_reducible assumption | (exact Sub.mono hm rfl) | intro _ | with_reducible apply keeps_sramCorrection | dsimp only

theorem keeps_testDone {msk : Nat} {s0 s : State} (k : Nat) (b : Nat) (kind : Nat) (sig : Bool) (count : Nat) (array : Nat) (addr : Nat) (bit : Nat) (hk : Fr msk s0 s)
    (hm : Sub 257 msk := by exact Sub.mono (by assumption) rfl) :
    Fr msk s0 (stOf (State.testDone s k b kind sig count array addr bit)) := by
  unfold State.testDone
  repeat' first
    | with_reducible assumption | (exact Sub.mono hm rfl) | intro _
    | (extract_lets +onlyGivenNames x; refine keeps_have (msk := msk) (s0 := s0) (x := x) ?_ ?_; rotate_left; clear_value x; intro hx; rotate_right; subst x)
    | (extract_lets +onlyGivenNames x; refine keeps_have_fst (msk := msk) (s0 := s0) (x := x) ?_ ?_; rotate_left; clear_value x; intro hx; rotate_right; subst x)
    | (extract_lets +onlyGivenNames x; clear_value x) | with_reducible apply keeps_count | with_reducible apply keeps_ftLog
    | with_reducible apply keeps_testResult | with_reducible apply keeps_ite | with_reducible apply keeps_ite_fst
    | (simp only [stOf_mk]) | with_reducible apply keeps_fst | dsimp only

theorem keeps_patrolStart {msk : Nat} {s0 s : State} (k : Nat) (matched : Bool) (hk : Fr msk s0 s)
    (hm : Sub 257 msk := by exact Sub.mono (by assumption) rfl) :
    Fr msk s0 (State.patrolStart s k matched) := by
  unfold State.patrolStart
  repeat' first
    | with_reducible assumption | with_reducible apply keeps_modFt | with_reducible apply keeps_pipeMap
    | with_reducible apply keeps_put | with_reducible apply keeps_setBlk
    | (extract_lets +onlyGivenNames x; refine keeps_fun (x := x) ?_; subst x) | (exact Sub.mono hm rfl) | intro _
    | (extract_lets +onlyGivenNames x; refine keeps_have (msk := msk) (s0 := s0) (x := x) ?_ ?_; rotate_left; clear_value x; intro hx; rotate_right; subst x)
    | (extract_lets +onlyGivenNames x; clear_value x) | with_reducible apply keeps_ite | split | dsimp only

theorem keeps_execPatrolTestStart {k : Fin 16} {matched : Bool} {s s' : State}
    (e : execPatrolTestStart k matched s = .next s') : Fr 257 s s' := by
  unfold execPatrolTestStart at e
  refine keeps_next e ?_
  clear e
  have hk := Fr.refl 257 s
  have hm : Sub 257 257 := Sub.refl _
  repeat' first
    | with_reducible assumption | (exact Sub.mono hm rfl) | intro _ | with_reducible apply keeps_patrolStart | dsimp only

theorem keeps_patrolDone {msk : Nat} {s0 s : State} (k : Nat) (sig : Bool) (count : Nat) (array : Nat) (addr : Nat) (bit : Nat) (hk : Fr msk s0 s)
    (hm : Sub 268435879 msk := by exact Sub.mono (by assumption) rfl) :
    Fr msk s0 (State.patrolDone s k sig count array addr bit) := by
  unfold State.patrolDone
  repeat' first
    | with_reducible assumption | (exact Sub.mono hm rfl) | intro _
    | (extract_lets +onlyGivenNames x; refine keeps_have (msk := msk) (s0 := s0) (x := x) ?_ ?_; rotate_left; clear_value x; intro hx; rotate_right; subst x)
    | (extract_lets +onlyGivenNames x; refine keeps_have_fst (msk := msk) (s0 := s0) (x := x) ?_ ?_; rotate_left; clear_value x; intro hx; rotate_right; subst x)
    | (extract_lets +onlyGivenNames x; clear_value x) | with_reducible apply keeps_count | with_reducible apply keeps_modFt
    | with_reducible apply keeps_pipeMap | with_reducible apply keeps_setBlk | with_reducible apply keeps_spareGone
    | with_reducible apply keeps_testDone | with_reducible apply keeps_ite | with_reducible apply keeps_ite_fst
    | (simp only [stOf_mk]) | split | with_reducible apply keeps_fst | dsimp only

theorem keeps_execPatrolTestDone {k : Fin 16} {sig : Bool} {count : Word} {array : Fin 256} {addr : Word} {bit : Fin 256} {s s' : State}
    (e : execPatrolTestDone k sig count array addr bit s = .next s') : Fr 268435879 s s' := by
  unfold execPatrolTestDone at e
  refine keeps_next e ?_
  clear e
  have hk := Fr.refl 268435879 s
  have hm : Sub 268435879 268435879 := Sub.refl _
  repeat' first
    | with_reducible assumption | (exact Sub.mono hm rfl) | intro _ | with_reducible apply keeps_count
    | with_reducible apply keeps_patrolDone | dsimp only

theorem keeps_bistCtlWrite {msk : Nat} {s0 s : State} (k : Nat) (d : Nat) (v : Nat) (hk : Fr msk s0 s)
    (hm : Sub 257 msk := by exact Sub.mono (by assumption) rfl) :
    Fr msk s0 (stOf (State.bistCtlWrite s k d v)) := by
  unfold State.bistCtlWrite
  repeat' first
    | with_reducible assumption | (exact Sub.mono hm rfl) | intro _
    | (extract_lets +onlyGivenNames x; refine keeps_have (msk := msk) (s0 := s0) (x := x) ?_ ?_; rotate_left; clear_value x; intro hx; rotate_right; subst x)
    | (extract_lets +onlyGivenNames x; refine keeps_have_fst (msk := msk) (s0 := s0) (x := x) ?_ ?_; rotate_left; clear_value x; intro hx; rotate_right; subst x)
    | (extract_lets +onlyGivenNames x; clear_value x) | with_reducible apply keeps_answer | with_reducible apply keeps_modFt
    | with_reducible apply keeps_put | with_reducible apply keeps_ite | with_reducible apply keeps_ite_fst
    | (simp only [stOf_mk]) | with_reducible apply keeps_fst | dsimp only

theorem keeps_execFtReadmit {p : Fin 5} {k : Fin 16} {v : Word} {s s' : State}
    (e : execFtReadmit p k v s = .next s') : Fr 257 s s' := by
  unfold execFtReadmit at e
  refine keeps_next e ?_
  clear e
  have hk := Fr.refl 257 s
  have hm : Sub 257 257 := Sub.refl _
  repeat' first
    | with_reducible assumption | (exact Sub.mono hm rfl) | intro _ | with_reducible apply keeps_bistCtlWrite
    | with_reducible apply keeps_gatedWrite | with_reducible apply keeps_ite | dsimp only

theorem keeps_readmitDone {msk : Nat} {s0 s : State} (k : Nat) (sig : Bool) (count : Nat) (array : Nat) (addr : Nat) (bit : Nat) (hk : Fr msk s0 s)
    (hm : Sub 268435879 msk := by exact Sub.mono (by assumption) rfl) :
    Fr msk s0 (State.readmitDone s k sig count array addr bit) := by
  unfold State.readmitDone
  repeat' first
    | with_reducible assumption | (exact Sub.mono hm rfl) | intro _
    | (extract_lets +onlyGivenNames x; refine keeps_have (msk := msk) (s0 := s0) (x := x) ?_ ?_; rotate_left; clear_value x; intro hx; rotate_right; subst x)
    | (extract_lets +onlyGivenNames x; refine keeps_have_fst (msk := msk) (s0 := s0) (x := x) ?_ ?_; rotate_left; clear_value x; intro hx; rotate_right; subst x)
    | (extract_lets +onlyGivenNames x; clear_value x) | with_reducible apply keeps_checkSpares
    | with_reducible apply keeps_count | with_reducible apply keeps_modFt | with_reducible apply keeps_pipeMap
    | with_reducible apply keeps_put | with_reducible apply keeps_setBlk | with_reducible apply keeps_testDone
    | with_reducible apply keeps_ite | with_reducible apply keeps_ite_fst | (simp only [stOf_mk]) | split
    | with_reducible apply keeps_fst | dsimp only

theorem keeps_execFtReadmitDone {k : Fin 16} {sig : Bool} {count : Word} {array : Fin 256} {addr : Word} {bit : Fin 256} {s s' : State}
    (e : execFtReadmitDone k sig count array addr bit s = .next s') : Fr 268435879 s s' := by
  unfold execFtReadmitDone at e
  refine keeps_next e ?_
  clear e
  have hk := Fr.refl 268435879 s
  have hm : Sub 268435879 268435879 := Sub.refl _
  repeat' first
    | with_reducible assumption | (exact Sub.mono hm rfl) | intro _ | with_reducible apply keeps_count
    | with_reducible apply keeps_readmitDone | dsimp only

theorem keeps_fuseAll {msk : Nat} {s0 s : State}  (hk : Fr msk s0 s)
    (hm : Sub 268435879 msk := by exact Sub.mono (by assumption) rfl) :
    Fr msk s0 (State.fuseAll s) := by
  unfold State.fuseAll
  repeat' first
    | with_reducible assumption | (exact Sub.mono hm rfl) | intro _
    | (extract_lets +onlyGivenNames x; refine keeps_have (msk := msk) (s0 := s0) (x := x) ?_ ?_; rotate_left; clear_value x; intro hx; rotate_right; subst x)
    | (extract_lets +onlyGivenNames x; clear_value x) | with_reducible apply keeps_countF | with_reducible apply keeps_each
    | with_reducible apply keeps_put | with_reducible apply keeps_recordAppend | with_reducible apply keeps_setReplace
    | with_reducible apply keeps_ite | dsimp only | with_reducible apply keeps_ft

theorem keeps_fuseWrite {msk : Nat} {s0 s : State} (d : Nat) (v : Nat) (hk : Fr msk s0 s)
    (hm : Sub 268435879 msk := by exact Sub.mono (by assumption) rfl) :
    Fr msk s0 (stOf (State.fuseWrite s d v)) := by
  unfold State.fuseWrite
  repeat' first
    | with_reducible assumption | (exact Sub.mono hm rfl) | intro _
    | (extract_lets +onlyGivenNames x; refine keeps_have (msk := msk) (s0 := s0) (x := x) ?_ ?_; rotate_left; clear_value x; intro hx; rotate_right; subst x)
    | (extract_lets +onlyGivenNames x; refine keeps_have_fst (msk := msk) (s0 := s0) (x := x) ?_ ?_; rotate_left; clear_value x; intro hx; rotate_right; subst x)
    | (extract_lets +onlyGivenNames x; clear_value x) | with_reducible apply keeps_answer
    | with_reducible apply keeps_fuseAll | with_reducible apply keeps_put | with_reducible apply keeps_ite
    | with_reducible apply keeps_ite_fst | (simp only [stOf_mk]) | with_reducible apply keeps_fst | dsimp only

theorem keeps_execFtFuseBlow {p : Fin 5} {s s' : State}
    (e : execFtFuseBlow p s = .next s') : Fr 268435879 s s' := by
  unfold execFtFuseBlow at e
  refine keeps_next e ?_
  clear e
  have hk := Fr.refl 268435879 s
  have hm : Sub 268435879 268435879 := Sub.refl _
  repeat' first
    | with_reducible assumption | (exact Sub.mono hm rfl) | intro _ | with_reducible apply keeps_fuseWrite
    | with_reducible apply keeps_gatedWrite | dsimp only

theorem keeps_tempRead {msk : Nat} {s0 s : State} (t0 : Int) (t1 : Int) (t2 : Int) (hk : Fr msk s0 s)
    (hm : Sub 327160231 msk := by exact Sub.mono (by assumption) rfl) :
    Fr msk s0 (State.tempRead s t0 t1 t2) := by
  unfold State.tempRead
  repeat' first
    | with_reducible assumption | (exact Sub.mono hm rfl) | intro _
    | (extract_lets +onlyGivenNames x; refine keeps_have (msk := msk) (s0 := s0) (x := x) ?_ ?_; rotate_left; clear_value x; intro hx; rotate_right; subst x)
    | (extract_lets +onlyGivenNames x; clear_value x) | with_reducible apply keeps_beginLevel
    | with_reducible apply keeps_chipFault | with_reducible apply keeps_count | with_reducible apply keeps_endLevel
    | with_reducible apply keeps_put | with_reducible apply keeps_setReplace | with_reducible apply keeps_ite | dsimp only
    | with_reducible apply keeps_ca_ft

theorem keeps_execFtTempRead {t0 : BitVec 16} {t1 : BitVec 16} {t2 : BitVec 16} {s s' : State}
    (e : execFtTempRead t0 t1 t2 s = .next s') : Fr 327160231 s s' := by
  unfold execFtTempRead at e
  refine keeps_next e ?_
  clear e
  have hk := Fr.refl 327160231 s
  have hm : Sub 327160231 327160231 := Sub.refl _
  repeat' first
    | with_reducible assumption | (exact Sub.mono hm rfl) | intro _ | with_reducible apply keeps_tempRead | dsimp only

theorem keeps_execFtThermalAccount  {s s' : State}
    (e : execFtThermalAccount  s = .next s') : Fr 256 s s' := by
  unfold execFtThermalAccount at e
  refine keeps_next e ?_
  clear e
  have hk := Fr.refl 256 s
  have hm : Sub 256 256 := Sub.refl _
  repeat' first
    | with_reducible assumption | (exact Sub.mono hm rfl) | intro _
    | (extract_lets +onlyGivenNames x; refine keeps_have (msk := 256) (s0 := s) (x := x) ?_ ?_; rotate_left; clear_value x; intro hx; rotate_right; subst x)
    | (extract_lets +onlyGivenNames x; clear_value x) | with_reducible apply keeps_recordAppend
    | with_reducible apply keeps_ite | dsimp only | with_reducible apply keeps_ft

/-! ### Mgmt -/

theorem keeps_writeGlobal {msk : Nat} {s0 s : State} (p : Nat) (name : RegName) (a : Nat) (v : Nat) (hk : Fr msk s0 s)
    (hm : Sub 1073741823 msk := by exact Sub.mono (by assumption) rfl) :
    Fr msk s0 (stOf (State.writeGlobal s p name a v)) := by
  unfold State.writeGlobal
  repeat' first
    | with_reducible assumption | (exact Sub.mono hm rfl) | intro _
    | (extract_lets +onlyGivenNames x; refine keeps_have (msk := msk) (s0 := s0) (x := x) ?_ ?_; rotate_left; clear_value x; intro hx; rotate_right; subst x)
    | (extract_lets +onlyGivenNames x; refine keeps_have_fst (msk := msk) (s0 := s0) (x := x) ?_ ?_; rotate_left; clear_value x; intro hx; rotate_right; subst x)
    | (extract_lets +onlyGivenNames x; clear_value x) | with_reducible apply keeps_plainWrite
    | with_reducible apply keeps_protWriteAt | with_reducible apply keeps_stateReq
    | with_reducible apply keeps_timeSetCtlWrite | with_reducible apply keeps_ite | with_reducible apply keeps_ite_fst
    | (simp only [stOf_mk]) | split | with_reducible apply keeps_fst | dsimp only

theorem keeps_writeCommon {msk : Nat} {s0 s : State} (d : Nat) (name : RegName) (k : Nat) (a : Nat) (v : Nat) (hk : Fr msk s0 s)
    (hm : Sub 268435879 msk := by exact Sub.mono (by assumption) rfl) :
    Fr msk s0 (stOf (State.writeCommon s d name k a v)) := by
  unfold State.writeCommon
  repeat' first
    | with_reducible assumption | (exact Sub.mono hm rfl) | intro _
    | (extract_lets +onlyGivenNames x; refine keeps_have (msk := msk) (s0 := s0) (x := x) ?_ ?_; rotate_left; clear_value x; intro hx; rotate_right; subst x)
    | (extract_lets +onlyGivenNames x; refine keeps_have_fst (msk := msk) (s0 := s0) (x := x) ?_ ?_; rotate_left; clear_value x; intro hx; rotate_right; subst x)
    | (extract_lets +onlyGivenNames x; clear_value x) | with_reducible apply keeps_alarmClear
    | with_reducible apply keeps_bistCtlWrite | with_reducible apply keeps_checkSpares
    | with_reducible apply keeps_plainWrite | with_reducible apply keeps_updateAlarms | with_reducible apply keeps_ite
    | with_reducible apply keeps_ite_fst | (simp only [stOf_mk]) | split | with_reducible apply keeps_fst | dsimp only

theorem keeps_writeSyn {msk : Nat} {s0 s : State} (name : RegName) (b : Nat) (a : Nat) (v : Nat) (hk : Fr msk s0 s)
    (hm : Sub 268782605 msk := by exact Sub.mono (by assumption) rfl) :
    Fr msk s0 (stOf (State.writeSyn s name b a v)) := by
  unfold State.writeSyn
  repeat' first
    | with_reducible assumption | (exact Sub.mono hm rfl) | intro _
    | (extract_lets +onlyGivenNames x; refine keeps_have (msk := msk) (s0 := s0) (x := x) ?_ ?_; rotate_left; clear_value x; intro hx; rotate_right; subst x)
    | (extract_lets +onlyGivenNames x; refine keeps_have_fst (msk := msk) (s0 := s0) (x := x) ?_ ?_; rotate_left; clear_value x; intro hx; rotate_right; subst x)
    | (extract_lets +onlyGivenNames x; clear_value x) | with_reducible apply keeps_plainWrite
    | with_reducible apply keeps_synCtlWrite | with_reducible apply keeps_synLockWrite | (simp only [stOf_mk]) | split
    | with_reducible apply keeps_fst | dsimp only

theorem keeps_writeSt {msk : Nat} {s0 s : State} (p : Nat) (d : Nat) (name : RegName) (i : Nat) (a : Nat) (v : Nat) (hk : Fr msk s0 s)
    (hm : Sub 819812783 msk := by exact Sub.mono (by assumption) rfl) :
    Fr msk s0 (stOf (State.writeSt s p d name i a v)) := by
  unfold State.writeSt
  repeat' first
    | with_reducible assumption | (exact Sub.mono hm rfl) | intro _
    | (extract_lets +onlyGivenNames x; refine keeps_have (msk := msk) (s0 := s0) (x := x) ?_ ?_; rotate_left; clear_value x; intro hx; rotate_right; subst x)
    | (extract_lets +onlyGivenNames x; refine keeps_have_fst (msk := msk) (s0 := s0) (x := x) ?_ ?_; rotate_left; clear_value x; intro hx; rotate_right; subst x)
    | (extract_lets +onlyGivenNames x; clear_value x) | with_reducible apply keeps_biCtlWrite
    | with_reducible apply keeps_biData | with_reducible apply keeps_biFuseWrite | with_reducible apply keeps_biTouch
    | with_reducible apply keeps_caCtlWrite | with_reducible apply keeps_ctxCtlWrite | with_reducible apply keeps_ctxSetWrite
    | with_reducible apply keeps_etCtlWrite | with_reducible apply keeps_etGateWrite
    | with_reducible apply keeps_etStuckWrite | with_reducible apply keeps_etThreshWrite
    | with_reducible apply keeps_fuseWrite | with_reducible apply keeps_ivCtlWrite | with_reducible apply keeps_ivWindowWrite
    | with_reducible apply keeps_khCfgWrite | with_reducible apply keeps_khRangeWrite | with_reducible apply keeps_mgCtlWrite
    | with_reducible apply keeps_nodeShow | with_reducible apply keeps_plainWrite | with_reducible apply keeps_refCtlWrite
    | with_reducible apply keeps_refStatusWrite | with_reducible apply keeps_syncWrite | with_reducible apply keeps_useFree
    | with_reducible apply keeps_xoAgeWrite | with_reducible apply keeps_ite | with_reducible apply keeps_ite_fst
    | (simp only [stOf_mk]) | split | with_reducible apply keeps_fst | dsimp only

theorem keeps_writeAf {msk : Nat} {s0 s : State} (name : RegName) (w : Nat) (n : Nat) (a : Nat) (v : Nat) (hk : Fr msk s0 s)
    (hm : Sub 268790789 msk := by exact Sub.mono (by assumption) rfl) :
    Fr msk s0 (stOf (State.writeAf s name w n a v)) := by
  unfold State.writeAf
  repeat' first
    | with_reducible assumption | (exact Sub.mono hm rfl) | intro _
    | (extract_lets +onlyGivenNames x; refine keeps_have (msk := msk) (s0 := s0) (x := x) ?_ ?_; rotate_left; clear_value x; intro hx; rotate_right; subst x)
    | (extract_lets +onlyGivenNames x; refine keeps_have_fst (msk := msk) (s0 := s0) (x := x) ?_ ?_; rotate_left; clear_value x; intro hx; rotate_right; subst x)
    | (extract_lets +onlyGivenNames x; clear_value x) | with_reducible apply keeps_afCtlWrite
    | with_reducible apply keeps_afOvrWrite | with_reducible apply keeps_afPatternWrite
    | with_reducible apply keeps_afSkewWrite | with_reducible apply keeps_notchCtlWrite
    | with_reducible apply keeps_notchSetWrite | with_reducible apply keeps_plainWrite
    | with_reducible apply keeps_syscalCtlWrite | with_reducible apply keeps_toneCtlWrite
    | with_reducible apply keeps_toneSetWrite | (simp only [stOf_mk]) | split | with_reducible apply keeps_fst | dsimp only

theorem keeps_writeSp {msk : Nat} {s0 s : State} (name : RegName) (w : Nat) (i : Nat) (a : Nat) (v : Nat) (hk : Fr msk s0 s)
    (hm : Sub 268943365 msk := by exact Sub.mono (by assumption) rfl) :
    Fr msk s0 (stOf (State.writeSp s name w i a v)) := by
  unfold State.writeSp
  repeat' first
    | with_reducible assumption | (exact Sub.mono hm rfl) | intro _
    | (extract_lets +onlyGivenNames x; refine keeps_have (msk := msk) (s0 := s0) (x := x) ?_ ?_; rotate_left; clear_value x; intro hx; rotate_right; subst x)
    | (extract_lets +onlyGivenNames x; refine keeps_have_fst (msk := msk) (s0 := s0) (x := x) ?_ ?_; rotate_left; clear_value x; intro hx; rotate_right; subst x)
    | (extract_lets +onlyGivenNames x; clear_value x) | with_reducible apply keeps_btCfgWrite
    | with_reducible apply keeps_btCtlWrite | with_reducible apply keeps_btMkWrite | with_reducible apply keeps_btShiftWrite
    | with_reducible apply keeps_dcIntCtlWrite | with_reducible apply keeps_dcIntSetWrite
    | with_reducible apply keeps_dcPlCtlWrite | with_reducible apply keeps_dcPlSetWrite
    | with_reducible apply keeps_eqDataWrite | with_reducible apply keeps_maskDataWrite
    | with_reducible apply keeps_plainWrite | with_reducible apply keeps_winDataWrite | with_reducible apply keeps_zpCfgWrite
    | with_reducible apply keeps_zpCtlWrite | with_reducible apply keeps_zpShadowWrite
    | with_reducible apply keeps_zpSwapCtlWrite | with_reducible apply keeps_ztuCtlWrite
    | with_reducible apply keeps_ztuSlotWrite | (simp only [stOf_mk]) | split | with_reducible apply keeps_fst | dsimp only

theorem keeps_writeTg {msk : Nat} {s0 s : State} (p : Nat) (name : RegName) (r : Nat) (i : Nat) (a : Nat) (v : Nat) (hk : Fr msk s0 s)
    (hm : Sub 813966341 msk := by exact Sub.mono (by assumption) rfl) :
    Fr msk s0 (stOf (State.writeTg s p name r i a v)) := by
  unfold State.writeTg
  repeat' first
    | with_reducible assumption | (exact Sub.mono hm rfl) | intro _
    | (extract_lets +onlyGivenNames x; refine keeps_have (msk := msk) (s0 := s0) (x := x) ?_ ?_; rotate_left; clear_value x; intro hx; rotate_right; subst x)
    | (extract_lets +onlyGivenNames x; refine keeps_have_fst (msk := msk) (s0 := s0) (x := x) ?_ ?_; rotate_left; clear_value x; intro hx; rotate_right; subst x)
    | (extract_lets +onlyGivenNames x; clear_value x) | with_reducible apply keeps_lawWrite
    | with_reducible apply keeps_pdataWrite | with_reducible apply keeps_plainWrite | with_reducible apply keeps_tgFireWrite
    | with_reducible apply keeps_tgQctlWrite | with_reducible apply keeps_tgSetWrite | with_reducible apply keeps_tgUnitWrite
    | (simp only [stOf_mk]) | split | with_reducible apply keeps_fst | dsimp only

theorem keeps_writeStore {msk : Nat} {s0 s : State} (d : Nat) (name : RegName) (i : Nat) (a : Nat) (v : Nat) (hk : Fr msk s0 s)
    (hm : Sub 295970471 msk := by exact Sub.mono (by assumption) rfl) :
    Fr msk s0 (stOf (State.writeStore s d name i a v)) := by
  unfold State.writeStore
  repeat' first
    | with_reducible assumption | (exact Sub.mono hm rfl) | intro _
    | (extract_lets +onlyGivenNames x; refine keeps_have (msk := msk) (s0 := s0) (x := x) ?_ ?_; rotate_left; clear_value x; intro hx; rotate_right; subst x)
    | (extract_lets +onlyGivenNames x; refine keeps_have_fst (msk := msk) (s0 := s0) (x := x) ?_ ?_; rotate_left; clear_value x; intro hx; rotate_right; subst x)
    | (extract_lets +onlyGivenNames x; clear_value x) | with_reducible apply keeps_bdCtlWrite
    | with_reducible apply keeps_bdSetWrite | with_reducible apply keeps_beamCtlWrite
    | with_reducible apply keeps_beamMkWrite | with_reducible apply keeps_beamSetWrite
    | with_reducible apply keeps_catDelWrite | with_reducible apply keeps_cmCfgWrite | with_reducible apply keeps_cmSetWrite
    | with_reducible apply keeps_flashTempWrite | with_reducible apply keeps_plainWrite
    | with_reducible apply keeps_quGroupCtlWrite | with_reducible apply keeps_quGroupSetWrite
    | with_reducible apply keeps_quRelHiWrite | with_reducible apply keeps_quRelLoWrite
    | with_reducible apply keeps_quVrCtlWrite | with_reducible apply keeps_quVrSizeWrite
    | with_reducible apply keeps_rinWrite | with_reducible apply keeps_rsCtlWrite | with_reducible apply keeps_volCtlWrite
    | with_reducible apply keeps_wtDataWrite | with_reducible apply keeps_xsCtlWrite | with_reducible apply keeps_xsSetWrite
    | (simp only [stOf_mk]) | split | with_reducible apply keeps_fst | dsimp only

theorem keeps_writeKl {msk : Nat} {s0 s : State} (name : RegName) (w : Nat) (i : Nat) (a : Nat) (v : Nat) (hk : Fr msk s0 s)
    (hm : Sub 817889711 msk := by exact Sub.mono (by assumption) rfl) :
    Fr msk s0 (stOf (State.writeKl s name w i a v)) := by
  unfold State.writeKl
  repeat' first
    | with_reducible assumption | (exact Sub.mono hm rfl) | intro _
    | (extract_lets +onlyGivenNames x; refine keeps_have (msk := msk) (s0 := s0) (x := x) ?_ ?_; rotate_left; clear_value x; intro hx; rotate_right; subst x)
    | (extract_lets +onlyGivenNames x; refine keeps_have_fst (msk := msk) (s0 := s0) (x := x) ?_ ?_; rotate_left; clear_value x; intro hx; rotate_right; subst x)
    | (extract_lets +onlyGivenNames x; clear_value x) | with_reducible apply keeps_klLimitWrite
    | with_reducible apply keeps_klPortSet | with_reducible apply keeps_klSpareSet | with_reducible apply keeps_plainWrite
    | with_reducible apply keeps_ttCtlWrite | with_reducible apply keeps_xfCtlWrite | with_reducible apply keeps_xfSetWrite
    | with_reducible apply keeps_ite | with_reducible apply keeps_ite_fst | (simp only [stOf_mk]) | split
    | with_reducible apply keeps_fst | dsimp only

theorem keeps_writeHs {msk : Nat} {s0 s : State} (p : Nat) (name : RegName) (i : Nat) (j : Nat) (a : Nat) (v : Nat) (hk : Fr msk s0 s)
    (hm : Sub 981468165 msk := by exact Sub.mono (by assumption) rfl) :
    Fr msk s0 (stOf (State.writeHs s p name i j a v)) := by
  unfold State.writeHs
  repeat' first
    | with_reducible assumption | (exact Sub.mono hm rfl) | intro _
    | (extract_lets +onlyGivenNames x; refine keeps_have (msk := msk) (s0 := s0) (x := x) ?_ ?_; rotate_left; clear_value x; intro hx; rotate_right; subst x)
    | (extract_lets +onlyGivenNames x; refine keeps_have_fst (msk := msk) (s0 := s0) (x := x) ?_ ?_; rotate_left; clear_value x; intro hx; rotate_right; subst x)
    | (extract_lets +onlyGivenNames x; clear_value x) | with_reducible apply keeps_auxCmdWrite
    | with_reducible apply keeps_dmaCtlWrite | with_reducible apply keeps_dmaSetWrite | with_reducible apply keeps_dsCtlWrite
    | with_reducible apply keeps_dsSetWrite | with_reducible apply keeps_hqCtlWrite
    | with_reducible apply keeps_hqStatusWrite | with_reducible apply keeps_palWrite | with_reducible apply keeps_plainWrite
    | (simp only [stOf_mk]) | split | with_reducible apply keeps_fst | dsimp only

theorem keeps_msixWrite {msk : Nat} {s0 s : State} (a : Nat) (v : Nat) (hk : Fr msk s0 s)
    (hm : Sub 268435584 msk := by exact Sub.mono (by assumption) rfl) :
    Fr msk s0 (State.msixWrite s a v) := by
  unfold State.msixWrite
  repeat' first
    | with_reducible assumption | with_reducible apply keeps_unmask
    | (extract_lets +onlyGivenNames x; refine keeps_fun (x := x) ?_; subst x) | (exact Sub.mono hm rfl) | intro _
    | (extract_lets +onlyGivenNames x; refine keeps_have (msk := msk) (s0 := s0) (x := x) ?_ ?_; rotate_left; clear_value x; intro hx; rotate_right; subst x)
    | (extract_lets +onlyGivenNames x; clear_value x) | with_reducible apply keeps_ite | split | dsimp only
    | with_reducible apply keeps_msix

theorem keeps_namedWrite {msk : Nat} {s0 s : State} (p : Nat) (d : Nat) (a : Nat) (v : Nat) (hk : Fr msk s0 s)
    (hm : Sub 1073741823 msk := by exact Sub.mono (by assumption) rfl) :
    Fr msk s0 (stOf (State.namedWrite s p d a v)) := by
  unfold State.namedWrite
  repeat' first
    | with_reducible assumption | (exact Sub.mono hm rfl) | intro _
    | (extract_lets +onlyGivenNames x; refine keeps_have (msk := msk) (s0 := s0) (x := x) ?_ ?_; rotate_left; clear_value x; intro hx; rotate_right; subst x)
    | (extract_lets +onlyGivenNames x; refine keeps_have_fst (msk := msk) (s0 := s0) (x := x) ?_ ?_; rotate_left; clear_value x; intro hx; rotate_right; subst x)
    | (extract_lets +onlyGivenNames x; clear_value x) | with_reducible apply keeps_msixWrite
    | with_reducible apply keeps_writeAf | with_reducible apply keeps_writeCommon | with_reducible apply keeps_writeGlobal
    | with_reducible apply keeps_writeHs | with_reducible apply keeps_writeKl | with_reducible apply keeps_writeSp
    | with_reducible apply keeps_writeSt | with_reducible apply keeps_writeStore | with_reducible apply keeps_writeSyn
    | with_reducible apply keeps_writeTg | with_reducible apply keeps_ite | with_reducible apply keeps_ite_fst
    | (simp only [stOf_mk]) | split | with_reducible apply keeps_fst | dsimp only

theorem keeps_regWrite {msk : Nat} {s0 s : State} (p : Nat) (d : Nat) (a : Nat) (v : Nat) (hk : Fr msk s0 s)
    (hm : Sub 1073741823 msk := by exact Sub.mono (by assumption) rfl) :
    Fr msk s0 (stOf (State.regWrite s p d a v)) := by
  unfold State.regWrite
  repeat' first
    | with_reducible assumption | (exact Sub.mono hm rfl) | intro _
    | (extract_lets +onlyGivenNames x; refine keeps_have (msk := msk) (s0 := s0) (x := x) ?_ ?_; rotate_left; clear_value x; intro hx; rotate_right; subst x)
    | (extract_lets +onlyGivenNames x; refine keeps_have_fst (msk := msk) (s0 := s0) (x := x) ?_ ?_; rotate_left; clear_value x; intro hx; rotate_right; subst x)
    | (extract_lets +onlyGivenNames x; clear_value x) | with_reducible apply keeps_namedWrite
    | with_reducible apply keeps_sourcesOff | with_reducible apply keeps_ite | with_reducible apply keeps_ite_fst
    | (simp only [stOf_mk]) | with_reducible apply keeps_fst | dsimp only

theorem keeps_pairRead {msk : Nat} {s0 s : State} (p : Nat) (lo : Nat) (low : Bool) (hk : Fr msk s0 s)
    (hm : Sub 64 msk := by exact Sub.mono (by assumption) rfl) :
    Fr msk s0 (stOf (State.pairRead s p lo low)) := by
  unfold State.pairRead
  repeat' first
    | with_reducible assumption | (exact Sub.mono hm rfl) | intro _
    | (extract_lets +onlyGivenNames x; refine keeps_have (msk := msk) (s0 := s0) (x := x) ?_ ?_; rotate_left; clear_value x; intro hx; rotate_right; subst x)
    | (extract_lets +onlyGivenNames x; refine keeps_have_fst (msk := msk) (s0 := s0) (x := x) ?_ ?_; rotate_left; clear_value x; intro hx; rotate_right; subst x)
    | (extract_lets +onlyGivenNames x; clear_value x) | with_reducible apply keeps_ite | with_reducible apply keeps_ite_fst
    | (simp only [stOf_mk]) | with_reducible apply keeps_fst | dsimp only | with_reducible apply keeps_slots

theorem keeps_some {msk : Nat} {s0 : State} {α : Type} {x : State × α} (h : Fr msk s0 (stOf x)) : ∀ y, some x = some y → Fr msk s0 (stOf y) :=
  fun _ e => Option.some.inj e ▸ h

theorem keeps_ite_some {msk : Nat} {s0 : State} {α : Type} {c : Prop} [Decidable c] {a b : Option (State × α)} (ha : ∀ y, a = some y → Fr msk s0 (stOf y))
    (hb : ∀ y, b = some y → Fr msk s0 (stOf y)) : ∀ y, (if c then a else b) = some y → Fr msk s0 (stOf y) := by
  split
  · exact ha
  · exact hb

theorem keeps_portRead {msk : Nat} {s0 s : State} {p : Nat} {name : RegName} {w i j a : Nat} {x : State × Word}
    (e : s.portRead p name w i j a = some x) (hk : Fr msk s0 s)
    (hm : Sub 1835033 msk := by exact Sub.mono (by assumption) rfl) : Fr msk s0 (stOf x) := by
  refine (?_ : ∀ y, s.portRead p name w i j a = some y → Fr msk s0 (stOf y)) x e
  clear e
  unfold State.portRead
  refine keeps_ite_some (keeps_some (keeps_devTimeRead _ hk)) ?_
  refine keeps_ite_some (keeps_some (keeps_ite_fst (keeps_etQw0Read _ _ hk) (keeps_etQw3Read _ _ hk))) ?_
  refine keeps_ite_some (keeps_some (keeps_ite_fst (keeps_tgQw0Read _ _ hk) (keeps_tgQw7Read _ _ hk))) ?_
  refine keeps_ite_some (keeps_some (keeps_eqDataRead _ hk)) ?_
  refine keeps_ite_some (keeps_some (keeps_winDataRead _ hk)) ?_
  refine keeps_ite_some (keeps_some (keeps_maskDataRead _ hk)) ?_
  refine keeps_ite_some (keeps_some (keeps_pdataRead _ _ hk)) ?_
  refine keeps_ite_some (keeps_some (keeps_lawRead _ hk)) ?_
  refine keeps_ite_some (keeps_some (keeps_wtDataRead hk)) ?_
  refine keeps_ite_some (keeps_some (keeps_palRead _ hk)) ?_
  refine keeps_ite_some (keeps_some (keeps_plainRead _ (keeps_biTouch _ hk))) ?_
  refine keeps_ite_some (keeps_some (keeps_protRead _ _ _ _ hk)) ?_
  intro _ e
  cases e

theorem keeps_regRead {msk : Nat} {s0 s : State} (p : Nat) (a : Nat) (hk : Fr msk s0 s)
    (hm : Sub 1835097 msk := by exact Sub.mono (by assumption) rfl) :
    Fr msk s0 (stOf (State.regRead s p a)) := by
  unfold State.regRead
  repeat' first
    | with_reducible assumption | (exact Sub.mono hm rfl) | intro _
    | (extract_lets +onlyGivenNames x; refine keeps_have (msk := msk) (s0 := s0) (x := x) ?_ ?_; rotate_left; clear_value x; intro hx; rotate_right; subst x)
    | (extract_lets +onlyGivenNames x; refine keeps_have_fst (msk := msk) (s0 := s0) (x := x) ?_ ?_; rotate_left; clear_value x; intro hx; rotate_right; subst x)
    | (extract_lets +onlyGivenNames x; clear_value x) | with_reducible apply keeps_pairRead
    | with_reducible apply keeps_plainRead | (with_reducible refine keeps_portRead (by with_reducible assumption) ?_)
    | with_reducible apply keeps_ite | with_reducible apply keeps_ite_fst | (simp only [stOf_mk]) | split
    | with_reducible apply keeps_fst | dsimp only

theorem keeps_mgmtWrite {msk : Nat} {s0 s : State} (p : Nat) (a : Nat) (v : Nat) (hk : Fr msk s0 s)
    (hm : Sub 1073741823 msk := by exact Sub.mono (by assumption) rfl) :
    Fr msk s0 (stOf (State.mgmtWrite s p a v)) := by
  unfold State.mgmtWrite
  repeat' first
    | with_reducible assumption | (exact Sub.mono hm rfl) | intro _
    | (extract_lets +onlyGivenNames x; refine keeps_have (msk := msk) (s0 := s0) (x := x) ?_ ?_; rotate_left; clear_value x; intro hx; rotate_right; subst x)
    | (extract_lets +onlyGivenNames x; refine keeps_have_fst (msk := msk) (s0 := s0) (x := x) ?_ ?_; rotate_left; clear_value x; intro hx; rotate_right; subst x)
    | (extract_lets +onlyGivenNames x; clear_value x) | with_reducible apply keeps_recordRefusal
    | with_reducible apply keeps_regWrite | with_reducible apply keeps_ite | with_reducible apply keeps_ite_fst
    | (simp only [stOf_mk]) | split | with_reducible apply keeps_fst | dsimp only

theorem keeps_mgmtRead {msk : Nat} {s0 s : State} (p : Nat) (a : Nat) (hk : Fr msk s0 s)
    (hm : Sub 1835097 msk := by exact Sub.mono (by assumption) rfl) :
    Fr msk s0 (stOf (State.mgmtRead s p a)) := by
  unfold State.mgmtRead
  repeat' first
    | with_reducible assumption | (exact Sub.mono hm rfl) | intro _
    | (extract_lets +onlyGivenNames x; refine keeps_have (msk := msk) (s0 := s0) (x := x) ?_ ?_; rotate_left; clear_value x; intro hx; rotate_right; subst x)
    | (extract_lets +onlyGivenNames x; refine keeps_have_fst (msk := msk) (s0 := s0) (x := x) ?_ ?_; rotate_left; clear_value x; intro hx; rotate_right; subst x)
    | (extract_lets +onlyGivenNames x; clear_value x) | with_reducible apply keeps_gatedRead
    | with_reducible apply keeps_regRead | with_reducible apply keeps_ite | with_reducible apply keeps_ite_fst
    | (simp only [stOf_mk]) | with_reducible apply keeps_fst | dsimp only

theorem keeps_execRegisterWrite {p : Fin 5} {a : BitVec 24} {v : Word} {s s' : State}
    (e : execRegisterWrite p a v s = .next s') : Fr 1073741823 s s' := by
  unfold execRegisterWrite at e
  refine keeps_next e ?_
  clear e
  have hk := Fr.refl 1073741823 s
  have hm : Sub 1073741823 1073741823 := Sub.refl _
  repeat' first
    | with_reducible assumption | (exact Sub.mono hm rfl) | intro _ | with_reducible apply keeps_mgmtWrite
    | (simp only [stOf_mk]) | with_reducible apply keeps_fst | dsimp only

theorem keeps_readAt {msk : Nat} {s0 s : State} (p : Nat) (a : Nat) (hk : Fr msk s0 s)
    (hm : Sub 270270553 msk := by exact Sub.mono (by assumption) rfl) :
    Fr msk s0 (State.readAt s p a) := by
  unfold State.readAt
  repeat' first
    | with_reducible assumption | (exact Sub.mono hm rfl) | intro _
    | (extract_lets +onlyGivenNames x; refine keeps_have (msk := msk) (s0 := s0) (x := x) ?_ ?_; rotate_left; clear_value x; intro hx; rotate_right; subst x)
    | (extract_lets +onlyGivenNames x; refine keeps_have_fst (msk := msk) (s0 := s0) (x := x) ?_ ?_; rotate_left; clear_value x; intro hx; rotate_right; subst x)
    | (extract_lets +onlyGivenNames x; clear_value x) | with_reducible apply keeps_answer | with_reducible apply keeps_emit
    | with_reducible apply keeps_mgmtRead | with_reducible apply keeps_ite | with_reducible apply keeps_ite_fst
    | (simp only [stOf_mk]) | with_reducible apply keeps_fst | dsimp only

theorem keeps_execRcRegisterRead {p : Fin 5} {a : BitVec 24} {s s' : State}
    (e : execRcRegisterRead p a s = .next s') : Fr 270270553 s s' := by
  unfold execRcRegisterRead at e
  refine keeps_next e ?_
  clear e
  have hk := Fr.refl 270270553 s
  have hm : Sub 270270553 270270553 := Sub.refl _
  repeat' first
    | with_reducible assumption | (exact Sub.mono hm rfl) | intro _ | with_reducible apply keeps_readAt | dsimp only

theorem keeps_execCounterSnapshotRead {p : Fin 5} {a : BitVec 24} {s s' : State}
    (e : execCounterSnapshotRead p a s = .next s') : Fr 270270553 s s' := by
  unfold execCounterSnapshotRead at e
  refine keeps_next e ?_
  clear e
  have hk := Fr.refl 270270553 s
  have hm : Sub 270270553 270270553 := Sub.refl _
  repeat' first
    | with_reducible assumption | (exact Sub.mono hm rfl) | intro _
    | (extract_lets +onlyGivenNames x; refine keeps_have (msk := 270270553) (s0 := s) (x := x) ?_ ?_; rotate_left; clear_value x; intro hx; rotate_right; subst x)
    | (extract_lets +onlyGivenNames x; refine keeps_have_fst (msk := 270270553) (s0 := s) (x := x) ?_ ?_; rotate_left; clear_value x; intro hx; rotate_right; subst x)
    | (extract_lets +onlyGivenNames x; clear_value x) | with_reducible apply keeps_readAt | with_reducible apply keeps_ite
    | with_reducible apply keeps_ite_fst | (simp only [stOf_mk]) | split | with_reducible apply keeps_fst | dsimp only

theorem keeps_mreqIn {msk : Nat} {s0 s : State} (dp : Nat) (m : KhMreq) (hk : Fr msk s0 s)
    (hm : Sub 1073741823 msk := by exact Sub.mono (by assumption) rfl) :
    Fr msk s0 (State.mreqIn s dp m) := by
  unfold State.mreqIn
  repeat' first
    | with_reducible assumption | (exact Sub.mono hm rfl) | intro _
    | (extract_lets +onlyGivenNames x; refine keeps_have (msk := msk) (s0 := s0) (x := x) ?_ ?_; rotate_left; clear_value x; intro hx; rotate_right; subst x)
    | (extract_lets +onlyGivenNames x; refine keeps_have_fst (msk := msk) (s0 := s0) (x := x) ?_ ?_; rotate_left; clear_value x; intro hx; rotate_right; subst x)
    | (extract_lets +onlyGivenNames x; clear_value x) | with_reducible apply keeps_mgmtRead
    | with_reducible apply keeps_mgmtWrite | with_reducible apply keeps_sideband | with_reducible apply keeps_ite
    | with_reducible apply keeps_ite_fst | (simp only [stOf_mk]) | split | with_reducible apply keeps_fst | dsimp only

theorem keeps_execKhMreq {dp : Fin 64} {m : KhMreq} {s s' : State}
    (e : execKhMreq dp m s = .next s') : Fr 1073741823 s s' := by
  unfold execKhMreq at e
  refine keeps_next e ?_
  clear e
  have hk := Fr.refl 1073741823 s
  have hm : Sub 1073741823 1073741823 := Sub.refl _
  repeat' first
    | with_reducible assumption | (exact Sub.mono hm rfl) | intro _ | with_reducible apply keeps_mreqIn | dsimp only

theorem keeps_windowM {msk : Nat} {s0 s : State} (write : Bool) (addr : Nat) (len : Nat) (bs : List Byte) (hk : Fr msk s0 s)
    (hm : Sub 1073741823 msk := by exact Sub.mono (by assumption) rfl) :
    Fr msk s0 (State.windowM s write addr len bs) := by
  unfold State.windowM
  repeat' first
    | with_reducible assumption | (exact Sub.mono hm rfl) | intro _
    | (extract_lets +onlyGivenNames x; refine keeps_have (msk := msk) (s0 := s0) (x := x) ?_ ?_; rotate_left; clear_value x; intro hx; rotate_right; subst x)
    | (extract_lets +onlyGivenNames x; refine keeps_have_fst (msk := msk) (s0 := s0) (x := x) ?_ ?_; rotate_left; clear_value x; intro hx; rotate_right; subst x)
    | (extract_lets +onlyGivenNames x; clear_value x) | with_reducible apply keeps_answer | with_reducible apply keeps_each
    | with_reducible apply keeps_emit | with_reducible apply keeps_mgmtWrite | with_reducible apply keeps_readAt
    | with_reducible apply keeps_ite | with_reducible apply keeps_ite_fst | (simp only [stOf_mk]) | split
    | with_reducible apply keeps_fst | dsimp only

theorem keeps_execWindowMRequest {write : Bool} {addr : BitVec 24} {len : Fin 4097} {bs : List Byte} {s s' : State}
    (e : execWindowMRequest write addr len bs s = .next s') : Fr 1073741823 s s' := by
  unfold execWindowMRequest at e
  refine keeps_next e ?_
  clear e
  have hk := Fr.refl 1073741823 s
  have hm : Sub 1073741823 1073741823 := Sub.refl _
  repeat' first
    | with_reducible assumption | (exact Sub.mono hm rfl) | intro _ | with_reducible apply keeps_windowM | dsimp only

theorem keeps_hqResult {msk : Nat} {s0 s : State} (q : Nat) (hk : Fr msk s0 s)
    (hm : Sub 301990016 msk := by exact Sub.mono (by assumption) rfl) :
    Fr msk s0 (State.hqResult s q) := by
  unfold State.hqResult
  repeat' first
    | with_reducible assumption | (exact Sub.mono hm rfl) | intro _
    | (extract_lets +onlyGivenNames x; refine keeps_have (msk := msk) (s0 := s0) (x := x) ?_ ?_; rotate_left; clear_value x; intro hx; rotate_right; subst x)
    | (extract_lets +onlyGivenNames x; clear_value x)
    | (with_reducible refine keeps_hqPush (by with_reducible assumption) ?_) | with_reducible apply keeps_modHq | split
    | dsimp only

theorem keeps_hqMgmt {msk : Nat} {s0 s : State} (q : Nat) (err : Nat) (hk : Fr msk s0 s)
    (hm : Sub 1073741823 msk := by exact Sub.mono (by assumption) rfl) :
    Fr msk s0 (State.hqMgmt s q err) := by
  unfold State.hqMgmt
  repeat' first
    | with_reducible assumption | (exact Sub.mono hm rfl) | intro _
    | (extract_lets +onlyGivenNames x; refine keeps_have (msk := msk) (s0 := s0) (x := x) ?_ ?_; rotate_left; clear_value x; intro hx; rotate_right; subst x)
    | (extract_lets +onlyGivenNames x; refine keeps_have_fst (msk := msk) (s0 := s0) (x := x) ?_ ?_; rotate_left; clear_value x; intro hx; rotate_right; subst x)
    | (extract_lets +onlyGivenNames x; clear_value x) | with_reducible apply keeps_count
    | with_reducible apply keeps_hqInError | with_reducible apply keeps_hqPop | with_reducible apply keeps_hqResult
    | with_reducible apply keeps_mgmtRead | with_reducible apply keeps_mgmtWrite | with_reducible apply keeps_modHq
    | with_reducible apply keeps_useFree | with_reducible apply keeps_ite | with_reducible apply keeps_ite_fst
    | (simp only [stOf_mk]) | split | with_reducible apply keeps_fst | dsimp only

theorem keeps_execHqMgmtExecute {q : Fin 32} {err : Fin 3} {s s' : State}
    (e : execHqMgmtExecute q err s = .next s') : Fr 1073741823 s s' := by
  unfold execHqMgmtExecute at e
  refine keeps_next e ?_
  clear e
  have hk := Fr.refl 1073741823 s
  have hm : Sub 1073741823 1073741823 := Sub.refl _
  repeat' first
    | with_reducible assumption | (exact Sub.mono hm rfl) | intro _ | with_reducible apply keeps_hqMgmt | dsimp only

theorem keeps_i2c {msk : Nat} {s0 s : State} (read : Bool) (bs : List Byte) (hk : Fr msk s0 s)
    (hm : Sub 1073741823 msk := by exact Sub.mono (by assumption) rfl) :
    Fr msk s0 (State.i2c s read bs) := by
  unfold State.i2c
  repeat' first
    | with_reducible assumption | (exact Sub.mono hm rfl) | intro _
    | (extract_lets +onlyGivenNames x; refine keeps_have (msk := msk) (s0 := s0) (x := x) ?_ ?_; rotate_left; clear_value x; intro hx; rotate_right; subst x)
    | (extract_lets +onlyGivenNames x; refine keeps_have_fst (msk := msk) (s0 := s0) (x := x) ?_ ?_; rotate_left; clear_value x; intro hx; rotate_right; subst x)
    | (extract_lets +onlyGivenNames x; clear_value x) | with_reducible apply keeps_mgmtWrite
    | with_reducible apply keeps_readAt | with_reducible apply keeps_ite | with_reducible apply keeps_ite_fst
    | (simp only [stOf_mk]) | split | with_reducible apply keeps_fst | dsimp only | with_reducible apply keeps_mport

theorem keeps_execI2cTransaction {read : Bool} {bs : List Byte} {s s' : State}
    (e : execI2cTransaction read bs s = .next s') : Fr 1073741823 s s' := by
  unfold execI2cTransaction at e
  refine keeps_next e ?_
  clear e
  have hk := Fr.refl 1073741823 s
  have hm : Sub 1073741823 1073741823 := Sub.refl _
  repeat' first | with_reducible assumption | (exact Sub.mono hm rfl) | intro _ | with_reducible apply keeps_i2c | dsimp only

theorem keeps_jtag {msk : Nat} {s0 s : State} (dr : BitVec 64) (hk : Fr msk s0 s)
    (hm : Sub 1073741823 msk := by exact Sub.mono (by assumption) rfl) :
    Fr msk s0 (State.jtag s dr) := by
  unfold State.jtag
  repeat' first
    | with_reducible assumption | (exact Sub.mono hm rfl) | intro _
    | (extract_lets +onlyGivenNames x; refine keeps_have (msk := msk) (s0 := s0) (x := x) ?_ ?_; rotate_left; clear_value x; intro hx; rotate_right; subst x)
    | (extract_lets +onlyGivenNames x; refine keeps_have_fst (msk := msk) (s0 := s0) (x := x) ?_ ?_; rotate_left; clear_value x; intro hx; rotate_right; subst x)
    | (extract_lets +onlyGivenNames x; clear_value x) | with_reducible apply keeps_answer | with_reducible apply keeps_emit
    | with_reducible apply keeps_mgmtRead | with_reducible apply keeps_mgmtWrite | with_reducible apply keeps_ite
    | with_reducible apply keeps_ite_fst | (simp only [stOf_mk]) | split | with_reducible apply keeps_fst | dsimp only
    | with_reducible apply keeps_mport

theorem keeps_execJtagMgmtAccess {dr : BitVec 64} {s s' : State}
    (e : execJtagMgmtAccess dr s = .next s') : Fr 1073741823 s s' := by
  unfold execJtagMgmtAccess at e
  refine keeps_next e ?_
  clear e
  have hk := Fr.refl 1073741823 s
  have hm : Sub 1073741823 1073741823 := Sub.refl _
  repeat' first
    | with_reducible assumption | (exact Sub.mono hm rfl) | intro _ | with_reducible apply keeps_jtag | dsimp only

theorem keeps_uart {msk : Nat} {s0 s : State} (op : Nat) (a : Nat) (v : Nat) (hk : Fr msk s0 s)
    (hm : Sub 1073741823 msk := by exact Sub.mono (by assumption) rfl) :
    Fr msk s0 (State.uart s op a v) := by
  unfold State.uart
  repeat' first
    | with_reducible assumption | (exact Sub.mono hm rfl) | intro _
    | (extract_lets +onlyGivenNames x; refine keeps_have (msk := msk) (s0 := s0) (x := x) ?_ ?_; rotate_left; clear_value x; intro hx; rotate_right; subst x)
    | (extract_lets +onlyGivenNames x; refine keeps_have_fst (msk := msk) (s0 := s0) (x := x) ?_ ?_; rotate_left; clear_value x; intro hx; rotate_right; subst x)
    | (extract_lets +onlyGivenNames x; clear_value x) | with_reducible apply keeps_answer | with_reducible apply keeps_emit
    | with_reducible apply keeps_mgmtWrite | with_reducible apply keeps_readAt | with_reducible apply keeps_ite
    | with_reducible apply keeps_ite_fst | (simp only [stOf_mk]) | with_reducible apply keeps_fst | dsimp only

theorem keeps_execUartRequest {op : Byte} {a : BitVec 24} {v : Word} {s s' : State}
    (e : execUartRequest op a v s = .next s') : Fr 1073741823 s s' := by
  unfold execUartRequest at e
  refine keeps_next e ?_
  clear e
  have hk := Fr.refl 1073741823 s
  have hm : Sub 1073741823 1073741823 := Sub.refl _
  repeat' first
    | with_reducible assumption | (exact Sub.mono hm rfl) | intro _ | with_reducible apply keeps_uart | dsimp only

/-! ### Start -/

theorem keeps_fuseShow {msk : Nat} {s0 s : State}  (hk : Fr msk s0 s)
    (hm : Sub 1 msk := by exact Sub.mono (by assumption) rfl) :
    Fr msk s0 (State.fuseShow s) := by
  unfold State.fuseShow
  repeat' first
    | with_reducible assumption | (exact Sub.mono hm rfl) | intro _
    | (extract_lets +onlyGivenNames x; refine keeps_have (msk := msk) (s0 := s0) (x := x) ?_ ?_; rotate_left; clear_value x; intro hx; rotate_right; subst x)
    | (extract_lets +onlyGivenNames x; clear_value x) | with_reducible apply keeps_put | dsimp only

theorem keeps_fuseRead {msk : Nat} {s0 s : State}  (hk : Fr msk s0 s)
    (hm : Sub 1 msk := by exact Sub.mono (by assumption) rfl) :
    Fr msk s0 (State.fuseRead s) := by
  unfold State.fuseRead
  repeat' first
    | with_reducible assumption | (exact Sub.mono hm rfl) | intro _
    | (extract_lets +onlyGivenNames x; refine keeps_have (msk := msk) (s0 := s0) (x := x) ?_ ?_; rotate_left; clear_value x; intro hx; rotate_right; subst x)
    | (extract_lets +onlyGivenNames x; clear_value x) | with_reducible apply keeps_fuseShow
    | with_reducible apply keeps_moveTo | with_reducible apply keeps_put | with_reducible apply keeps_showImage
    | with_reducible apply keeps_ite | split | dsimp only

theorem keeps_execFuseReadDone  {s s' : State}
    (e : execFuseReadDone  s = .next s') : Fr 1 s s' := by
  unfold execFuseReadDone at e
  refine keeps_next e ?_
  clear e
  have hk := Fr.refl 1 s
  have hm : Sub 1 1 := Sub.refl _
  repeat' first
    | with_reducible assumption | (exact Sub.mono hm rfl) | intro _ | with_reducible apply keeps_fuseRead | dsimp only

theorem keeps_bistFail {msk : Nat} {s0 s : State} (k : Nat) (b : Nat) (hk : Fr msk s0 s)
    (hm : Sub 327156135 msk := by exact Sub.mono (by assumption) rfl) :
    Fr msk s0 (State.bistFail s k b) := by
  unfold State.bistFail
  repeat' first
    | with_reducible assumption | (exact Sub.mono hm rfl) | intro _
    | (extract_lets +onlyGivenNames x; refine keeps_have (msk := msk) (s0 := s0) (x := x) ?_ ?_; rotate_left; clear_value x; intro hx; rotate_right; subst x)
    | (extract_lets +onlyGivenNames x; clear_value x) | with_reducible apply keeps_chipFault
    | with_reducible apply keeps_notMasked | with_reducible apply keeps_put | with_reducible apply keeps_raiseAlarm
    | with_reducible apply keeps_regionLost | with_reducible apply keeps_setBlk | with_reducible apply keeps_spareGone
    | with_reducible apply keeps_ite | split | dsimp only

theorem keeps_bistCriteria {msk : Nat} {s0 s : State}  (hk : Fr msk s0 s)
    (hm : Sub 268435623 msk := by exact Sub.mono (by assumption) rfl) :
    Fr msk s0 (State.bistCriteria s) := by
  unfold State.bistCriteria
  repeat' first
    | with_reducible assumption | (exact Sub.mono hm rfl) | intro _
    | (extract_lets +onlyGivenNames x; refine keeps_have (msk := msk) (s0 := s0) (x := x) ?_ ?_; rotate_left; clear_value x; intro hx; rotate_right; subst x)
    | (extract_lets +onlyGivenNames x; clear_value x) | with_reducible apply keeps_checkSpares
    | with_reducible apply keeps_setReplace | with_reducible apply keeps_ite | dsimp only

theorem keeps_bistDone {msk : Nat} {s0 s : State} (tests : List BistTest) (repairs : List BistRepair) (gone : List (Fin 16)) (chip : Option (Fin 8)) (hk : Fr msk s0 s)
    (hm : Sub 864027055 msk := by exact Sub.mono (by assumption) rfl) :
    Fr msk s0 (State.bistDone s tests repairs gone chip) := by
  unfold State.bistDone
  repeat' first
    | with_reducible assumption | with_reducible apply keeps_bistCriteria | with_reducible apply keeps_bistFail
    | with_reducible apply keeps_chipFault | with_reducible apply keeps_count | with_reducible apply keeps_dcoCeil
    | with_reducible apply keeps_each | with_reducible apply keeps_khJoin | with_reducible apply keeps_moveTo
    | with_reducible apply keeps_pipeMap | with_reducible apply keeps_regionLost | with_reducible apply keeps_softRepair
    | with_reducible apply keeps_testDone | (extract_lets +onlyGivenNames x; refine keeps_fun (x := x) ?_; subst x)
    | (exact Sub.mono hm rfl) | intro _
    | (extract_lets +onlyGivenNames x; refine keeps_have (msk := msk) (s0 := s0) (x := x) ?_ ?_; rotate_left; clear_value x; intro hx; rotate_right; subst x)
    | (extract_lets +onlyGivenNames x; refine keeps_have_fst (msk := msk) (s0 := s0) (x := x) ?_ ?_; rotate_left; clear_value x; intro hx; rotate_right; subst x)
    | (extract_lets +onlyGivenNames x; clear_value x) | with_reducible apply keeps_ite | with_reducible apply keeps_ite_fst
    | (simp only [stOf_mk]) | split | with_reducible apply keeps_fst | dsimp only

theorem keeps_execStartBistDone {tests : List BistTest} {repairs : List BistRepair} {gone : List (Fin 16)} {chip : Option (Fin 8)} {s s' : State}
    (e : execStartBistDone tests repairs gone chip s = .next s') : Fr 864027055 s s' := by
  unfold execStartBistDone at e
  refine keeps_next e ?_
  clear e
  have hk := Fr.refl 864027055 s
  have hm : Sub 864027055 864027055 := Sub.refl _
  repeat' first
    | with_reducible assumption | (exact Sub.mono hm rfl) | intro _ | with_reducible apply keeps_bistDone | dsimp only

theorem keeps_setupRefuse {msk : Nat} {s0 s : State} (i : Nat) (code : Nat) (hk : Fr msk s0 s)
    (hm : Sub 3 msk := by exact Sub.mono (by assumption) rfl) :
    Fr msk s0 (State.setupRefuse s i code) := by
  unfold State.setupRefuse
  repeat' first
    | with_reducible assumption | (exact Sub.mono hm rfl) | intro _
    | (extract_lets +onlyGivenNames x; refine keeps_have (msk := msk) (s0 := s0) (x := x) ?_ ?_; rotate_left; clear_value x; intro hx; rotate_right; subst x)
    | (extract_lets +onlyGivenNames x; clear_value x) | with_reducible apply keeps_put | with_reducible apply keeps_setVal
    | with_reducible apply keeps_ite | dsimp only | with_reducible apply keeps_power

theorem keeps_setupWrite {msk : Nat} {s0 s : State} (off : Nat) (v : Nat) (mask : Nat) (first : Bool) (hk : Fr msk s0 s)
    (hm : Sub 1073741823 msk := by exact Sub.mono (by assumption) rfl) :
    Fr msk s0 (stOf (State.setupWrite s off v mask first)) := by
  unfold State.setupWrite
  repeat' first
    | with_reducible assumption | (exact Sub.mono hm rfl) | intro _
    | (extract_lets +onlyGivenNames x; refine keeps_have (msk := msk) (s0 := s0) (x := x) ?_ ?_; rotate_left; clear_value x; intro hx; rotate_right; subst x)
    | (extract_lets +onlyGivenNames x; refine keeps_have_fst (msk := msk) (s0 := s0) (x := x) ?_ ?_; rotate_left; clear_value x; intro hx; rotate_right; subst x)
    | (extract_lets +onlyGivenNames x; clear_value x) | with_reducible apply keeps_cmCfgSetup
    | with_reducible apply keeps_regWrite | with_reducible apply keeps_ite | with_reducible apply keeps_ite_fst
    | (simp only [stOf_mk]) | split | with_reducible apply keeps_fst | dsimp only

theorem keeps_setupPass {msk : Nat} {s0 s : State} (bs : List Byte) (first : Bool) (hk : Fr msk s0 s)
    (hm : Sub 1073741823 msk := by exact Sub.mono (by assumption) rfl) :
    Fr msk s0 (State.setupPass s bs first) := by
  unfold State.setupPass
  repeat' first
    | with_reducible assumption | (exact Sub.mono hm rfl) | intro _
    | (extract_lets +onlyGivenNames x; refine keeps_have (msk := msk) (s0 := s0) (x := x) ?_ ?_; rotate_left; clear_value x; intro hx; rotate_right; subst x)
    | (extract_lets +onlyGivenNames x; refine keeps_have_fst (msk := msk) (s0 := s0) (x := x) ?_ ?_; rotate_left; clear_value x; intro hx; rotate_right; subst x)
    | (extract_lets +onlyGivenNames x; clear_value x) | with_reducible apply keeps_each
    | with_reducible apply keeps_setupRefuse | with_reducible apply keeps_setupWrite | with_reducible apply keeps_ite
    | with_reducible apply keeps_ite_fst | (simp only [stOf_mk]) | split | with_reducible apply keeps_fst | dsimp only

theorem keeps_stageTake {msk : Nat} {s0 s : State}  (hk : Fr msk s0 s)
    (hm : Sub 17 msk := by exact Sub.mono (by assumption) rfl) :
    Fr msk s0 (State.stageTake s) := by
  unfold State.stageTake
  repeat' first
    | with_reducible assumption | (exact Sub.mono hm rfl) | intro _
    | (extract_lets +onlyGivenNames x; refine keeps_have (msk := msk) (s0 := s0) (x := x) ?_ ?_; rotate_left; clear_value x; intro hx; rotate_right; subst x)
    | (extract_lets +onlyGivenNames x; clear_value x) | with_reducible apply keeps_showStage | dsimp only
    | with_reducible apply keeps_prot

theorem keeps_setupFirstPass {msk : Nat} {s0 s : State}  (hk : Fr msk s0 s)
    (hm : Sub 1073741823 msk := by exact Sub.mono (by assumption) rfl) :
    Fr msk s0 (State.setupFirstPass s) := by
  unfold State.setupFirstPass
  repeat' first
    | with_reducible assumption | (exact Sub.mono hm rfl) | intro _
    | (extract_lets +onlyGivenNames x; refine keeps_have (msk := msk) (s0 := s0) (x := x) ?_ ?_; rotate_left; clear_value x; intro hx; rotate_right; subst x)
    | (extract_lets +onlyGivenNames x; clear_value x) | with_reducible apply keeps_modSyn | with_reducible apply keeps_put
    | with_reducible apply keeps_setupPass | with_reducible apply keeps_setupRefuse | with_reducible apply keeps_stageRevert
    | with_reducible apply keeps_stageTake | with_reducible apply keeps_ite | split | dsimp only
    | with_reducible apply keeps_power

theorem keeps_execSetupFirstPass  {s s' : State}
    (e : execSetupFirstPass  s = .next s') : Fr 1073741823 s s' := by
  unfold execSetupFirstPass at e
  refine keeps_next e ?_
  clear e
  have hk := Fr.refl 1073741823 s
  have hm : Sub 1073741823 1073741823 := Sub.refl _
  repeat' first
    | with_reducible assumption | (exact Sub.mono hm rfl) | intro _ | with_reducible apply keeps_setupFirstPass | dsimp only

theorem keeps_execFabricTrainingDone  {s s' : State}
    (e : execFabricTrainingDone  s = .next s') : Fr 3 s s' := by
  unfold execFabricTrainingDone at e
  refine keeps_next e ?_
  clear e
  have hk := Fr.refl 3 s
  have hm : Sub 3 3 := Sub.refl _
  repeat' first
    | with_reducible assumption | (exact Sub.mono hm rfl) | intro _
    | (extract_lets +onlyGivenNames x; refine keeps_have (msk := 3) (s0 := s) (x := x) ?_ ?_; rotate_left; clear_value x; intro hx; rotate_right; subst x)
    | (extract_lets +onlyGivenNames x; clear_value x) | with_reducible apply keeps_loadStart | with_reducible apply keeps_ite
    | dsimp only | with_reducible apply keeps_power

theorem keeps_tableLoad {msk : Nat} {s0 s : State} (k : Nat) (t : TableWord) (hk : Fr msk s0 s)
    (hm : Sub 2424833 msk := by exact Sub.mono (by assumption) rfl) :
    Fr msk s0 (State.tableLoad s k t) := by
  unfold State.tableLoad
  repeat' first
    | with_reducible assumption | (exact Sub.mono hm rfl) | intro _
    | (extract_lets +onlyGivenNames x; refine keeps_have (msk := msk) (s0 := s0) (x := x) ?_ ?_; rotate_left; clear_value x; intro hx; rotate_right; subst x)
    | (extract_lets +onlyGivenNames x; clear_value x) | with_reducible apply keeps_modBt | with_reducible apply keeps_modCe
    | with_reducible apply keeps_setReg | with_reducible apply keeps_ite | split | dsimp only | with_reducible apply keeps_tg

theorem keeps_regionLoad {msk : Nat} {s0 s : State} (k : Nat) (prog : List Byte) (tables : List TableWord) (hk : Fr msk s0 s)
    (hm : Sub 270860455 msk := by exact Sub.mono (by assumption) rfl) :
    Fr msk s0 (State.regionLoad s k prog tables) := by
  unfold State.regionLoad
  repeat' first
    | with_reducible assumption | (exact Sub.mono hm rfl) | intro _
    | (extract_lets +onlyGivenNames x; refine keeps_have (msk := msk) (s0 := s0) (x := x) ?_ ?_; rotate_left; clear_value x; intro hx; rotate_right; subst x)
    | (extract_lets +onlyGivenNames x; clear_value x) | with_reducible apply keeps_each | with_reducible apply keeps_put
    | with_reducible apply keeps_regionLost | with_reducible apply keeps_tableLoad | with_reducible apply keeps_ite | split
    | dsimp only

theorem keeps_execRegionLoadDone {k : Fin 16} {prog : List Byte} {tables : List TableWord} {s s' : State}
    (e : execRegionLoadDone k prog tables s = .next s') : Fr 270860455 s s' := by
  unfold execRegionLoadDone at e
  refine keeps_next e ?_
  clear e
  have hk := Fr.refl 270860455 s
  have hm : Sub 270860455 270860455 := Sub.refl _
  repeat' first
    | with_reducible assumption | (exact Sub.mono hm rfl) | intro _ | with_reducible apply keeps_regionLoad | dsimp only

theorem keeps_toRun {msk : Nat} {s0 s : State}  (hk : Fr msk s0 s)
    (hm : Sub 269484463 msk := by exact Sub.mono (by assumption) rfl) :
    Fr msk s0 (State.toRun s) := by
  unfold State.toRun
  repeat' first
    | with_reducible assumption | (exact Sub.mono hm rfl) | intro _
    | (extract_lets +onlyGivenNames x; refine keeps_have (msk := msk) (s0 := s0) (x := x) ?_ ?_; rotate_left; clear_value x; intro hx; rotate_right; subst x)
    | (extract_lets +onlyGivenNames x; clear_value x) | with_reducible apply keeps_each
    | with_reducible apply keeps_imageAtRun | with_reducible apply keeps_loadAtRun | with_reducible apply keeps_modFt
    | with_reducible apply keeps_moveTo | with_reducible apply keeps_put | with_reducible apply keeps_ite | split
    | dsimp only

theorem keeps_setupCommit {msk : Nat} {s0 s : State} (entries : Nat) (hk : Fr msk s0 s)
    (hm : Sub 19 msk := by exact Sub.mono (by assumption) rfl) :
    Fr msk s0 (State.setupCommit s entries) := by
  unfold State.setupCommit
  repeat' first
    | with_reducible assumption | (exact Sub.mono hm rfl) | intro _
    | (extract_lets +onlyGivenNames x; refine keeps_have (msk := msk) (s0 := s0) (x := x) ?_ ?_; rotate_left; clear_value x; intro hx; rotate_right; subst x)
    | (extract_lets +onlyGivenNames x; refine keeps_have_fst (msk := msk) (s0 := s0) (x := x) ?_ ?_; rotate_left; clear_value x; intro hx; rotate_right; subst x)
    | (extract_lets +onlyGivenNames x; clear_value x) | with_reducible apply keeps_protCommit
    | with_reducible apply keeps_setupRefuse | with_reducible apply keeps_stageRevert | with_reducible apply keeps_ite
    | with_reducible apply keeps_ite_fst | (simp only [stOf_mk]) | with_reducible apply keeps_fst | dsimp only

theorem keeps_setupSecondPass {msk : Nat} {s0 s : State}  (hk : Fr msk s0 s)
    (hm : Sub 1073741823 msk := by exact Sub.mono (by assumption) rfl) :
    Fr msk s0 (State.setupSecondPass s) := by
  unfold State.setupSecondPass
  repeat' first
    | with_reducible assumption | (exact Sub.mono hm rfl) | intro _
    | (extract_lets +onlyGivenNames x; refine keeps_have (msk := msk) (s0 := s0) (x := x) ?_ ?_; rotate_left; clear_value x; intro hx; rotate_right; subst x)
    | (extract_lets +onlyGivenNames x; clear_value x) | with_reducible apply keeps_setupCommit
    | with_reducible apply keeps_setupPass | with_reducible apply keeps_toRun | with_reducible apply keeps_ite | split
    | dsimp only | with_reducible apply keeps_power

theorem keeps_execSetupSecondPass  {s s' : State}
    (e : execSetupSecondPass  s = .next s') : Fr 1073741823 s s' := by
  unfold execSetupSecondPass at e
  refine keeps_next e ?_
  clear e
  have hk := Fr.refl 1073741823 s
  have hm : Sub 1073741823 1073741823 := Sub.refl _
  repeat' first
    | with_reducible assumption | (exact Sub.mono hm rfl) | intro _ | with_reducible apply keeps_setupSecondPass | dsimp only

/-! ### Idle -/

theorem keeps_timebaseCycle {msk : Nat} {s0 s : State}  (hk : Fr msk s0 s)
    (hm : Sub 8 msk := by exact Sub.mono (by assumption) rfl) :
    Fr msk s0 (State.timebaseCycle s) := by
  unfold State.timebaseCycle
  repeat' first
    | with_reducible assumption | (exact Sub.mono hm rfl) | intro _
    | (extract_lets +onlyGivenNames x; refine keeps_have (msk := msk) (s0 := s0) (x := x) ?_ ?_; rotate_left; clear_value x; intro hx; rotate_right; subst x)
    | (extract_lets +onlyGivenNames x; clear_value x) | with_reducible apply keeps_modTime | with_reducible apply keeps_ite
    | split | dsimp only

theorem keeps_slewDue {msk : Nat} {s0 s : State}  (hk : Fr msk s0 s)
    (hm : Sub 9 msk := by exact Sub.mono (by assumption) rfl) :
    Fr msk s0 (State.slewDue s) := by
  unfold State.slewDue
  repeat' first
    | with_reducible assumption | (exact Sub.mono hm rfl) | intro _
    | (extract_lets +onlyGivenNames x; refine keeps_have (msk := msk) (s0 := s0) (x := x) ?_ ?_; rotate_left; clear_value x; intro hx; rotate_right; subst x)
    | (extract_lets +onlyGivenNames x; clear_value x) | with_reducible apply keeps_modTime
    | with_reducible apply keeps_setSlewing | with_reducible apply keeps_ite | split | dsimp only

theorem keeps_idle {msk : Nat} {s0 s : State}  (hk : Fr msk s0 s)
    (hm : Sub 805578415 msk := by exact Sub.mono (by assumption) rfl) :
    Fr msk s0 (State.idle s) := by
  unfold State.idle
  repeat' first
    | with_reducible assumption | (exact Sub.mono hm rfl) | intro _ | with_reducible apply keeps_cmTick
    | with_reducible apply keeps_slewDue | with_reducible apply keeps_timebaseCycle | dsimp only

end Sys2Proof.Machine
end

