-- ==== Sys2Proof/Laws/State.lean ====
section
/-! SUPPORT. Laws/State.lean: what the basic updates of a state leave and change: one law per field per update, and the laws of
registers and their fields. -/

namespace Sys2Proof.Machine

/-! ### Registers -/

@[simp] theorem State.reg_setReg_self (s : State) (a : Nat) (v : Word) : (s.setReg a v).reg a = v := by
  simp [State.reg, State.setReg]

theorem State.reg_setReg_ne (s : State) {a b : Nat} (v : Word) (h : b ≠ a) : (s.setReg a v).reg b = s.reg b := by
  simp only [State.reg, State.setReg]
  exact kvGetD_kvSetD_ne _ _ _ _ _ _ h

theorem State.reg_put_ne (s : State) {f : Fld} {b : Nat} (x : Nat) (h : b ≠ f.addr) : (s.put f x).reg b = s.reg b :=
  s.reg_setReg_ne _ h

theorem State.val_lt (s : State) (a : Nat) : s.val a < 2 ^ 32 := (s.reg a).isLt

@[simp] theorem State.val_setVal_self (s : State) (a x : Nat) : (s.setVal a x).val a = x % 2 ^ 32 := by
  simp [State.val, State.setVal]

theorem State.val_setVal_ne (s : State) {a b : Nat} (x : Nat) (h : b ≠ a) : (s.setVal a x).val b = s.val b := by
  simp only [State.val, State.setVal, s.reg_setReg_ne _ h]

/-! ### Fields -/

theorem bits_lt (v hi lo : Nat) : bits v hi lo < 2 ^ (hi + 1 - lo) := Nat.mod_lt _ (Nat.two_pow_pos _)

theorem bits_mul_le (v hi lo : Nat) : bits v hi lo <<< lo ≤ v := by
  rw [bits, Nat.shiftLeft_eq, Nat.shiftRight_eq_div_pow]
  exact Nat.le_trans (Nat.mul_le_mul_right _ (Nat.mod_le _ _)) (Nat.div_mul_le_self _ _)

theorem testBit_bits (v hi lo i : Nat) : (bits v hi lo).testBit i = (decide (i < hi + 1 - lo) && v.testBit (i + lo)) := by
  rw [bits, Nat.testBit_mod_two_pow, Nat.testBit_shiftRight, Nat.add_comm lo i]

/-- Bit i of a number whose bits hi:lo were replaced. -/
theorem testBit_setBits (v hi lo x i : Nat) (h : lo ≤ hi) :
    (setBits v hi lo x).testBit i = if lo ≤ i ∧ i ≤ hi then x.testBit (i - lo) else v.testBit i := by
  have h2 : setBits v hi lo x
      = 2 ^ (hi + 1) * (v >>> (hi + 1)) + (2 ^ lo * (x % 2 ^ (hi + 1 - lo)) + v % 2 ^ lo) := by
    have e1 : v = 2 ^ (hi + 1) * (v >>> (hi + 1)) + (2 ^ lo * bits v hi lo + v % 2 ^ lo) := by
      have a : v = 2 ^ lo * (v / 2 ^ lo) + v % 2 ^ lo := (Nat.div_add_mod _ _).symm
      have b : v / 2 ^ lo = 2 ^ (hi + 1 - lo) * (v / 2 ^ lo / 2 ^ (hi + 1 - lo)) + v / 2 ^ lo % 2 ^ (hi + 1 - lo) :=
        (Nat.div_add_mod _ _).symm
      have c : v / 2 ^ lo / 2 ^ (hi + 1 - lo) = v >>> (hi + 1) := by
        rw [Nat.div_div_eq_div_mul, ← Nat.pow_add, Nat.shiftRight_eq_div_pow]
        congr 2
        omega
      have d : v / 2 ^ lo % 2 ^ (hi + 1 - lo) = bits v hi lo := by rw [bits, Nat.shiftRight_eq_div_pow]
      rw [c, d] at b
      have e : lo + (hi + 1 - lo) = hi + 1 := by omega
      have ab : 2 ^ lo * (v / 2 ^ lo) = 2 ^ (hi + 1) * (v >>> (hi + 1)) + 2 ^ lo * bits v hi lo := by
        rw [b, Nat.mul_add, ← Nat.mul_assoc, ← Nat.pow_add, e]
      omega
    unfold setBits
    rw [Nat.shiftLeft_eq, Nat.shiftLeft_eq, Nat.mul_comm (bits v hi lo), Nat.mul_comm (x % _)]
    omega
  have hb : 2 ^ lo * (x % 2 ^ (hi + 1 - lo)) + v % 2 ^ lo < 2 ^ (hi + 1) := by
    have a : x % 2 ^ (hi + 1 - lo) < 2 ^ (hi + 1 - lo) := Nat.mod_lt _ (Nat.two_pow_pos _)
    have b : v % 2 ^ lo < 2 ^ lo := Nat.mod_lt _ (Nat.two_pow_pos _)
    calc 2 ^ lo * (x % 2 ^ (hi + 1 - lo)) + v % 2 ^ lo
        < 2 ^ lo * (x % 2 ^ (hi + 1 - lo)) + 2 ^ lo := by omega
      _ = 2 ^ lo * (x % 2 ^ (hi + 1 - lo) + 1) := by rw [Nat.mul_add, Nat.mul_one]
      _ ≤ 2 ^ lo * 2 ^ (hi + 1 - lo) := Nat.mul_le_mul_left _ a
      _ = 2 ^ (hi + 1) := by rw [← Nat.pow_add]; congr 1; omega
  have hv : v % 2 ^ lo < 2 ^ lo := Nat.mod_lt _ (Nat.two_pow_pos _)
  rw [h2, Nat.testBit_two_pow_mul_add _ hb]
  by_cases hi1 : i < hi + 1
  · rw [if_pos hi1, Nat.testBit_two_pow_mul_add _ hv]
    by_cases hl : i < lo
    · rw [if_pos hl, if_neg (by omega), Nat.testBit_mod_two_pow]
      simp [hl]
    · rw [if_neg hl, if_pos (by omega), Nat.testBit_mod_two_pow]
      have : i - lo < hi + 1 - lo := by omega
      simp [this]
  · rw [if_neg hi1, if_neg (by omega), Nat.testBit_shiftRight]
    congr 1
    omega

theorem bits_setBits_self (v hi lo x : Nat) (h : lo ≤ hi) : bits (setBits v hi lo x) hi lo = x % 2 ^ (hi + 1 - lo) := by
  apply Nat.eq_of_testBit_eq
  intro i
  rw [testBit_bits, Nat.testBit_mod_two_pow, testBit_setBits _ _ _ _ _ h]
  by_cases hi1 : i < hi + 1 - lo
  · rw [if_pos (by omega)]
    congr 2
    omega
  · simp [hi1]

theorem bits_setBits_off (v hi lo x hi' lo' : Nat) (h : lo ≤ hi) (hd : hi' < lo ∨ hi < lo') :
    bits (setBits v hi lo x) hi' lo' = bits v hi' lo' := by
  apply Nat.eq_of_testBit_eq
  intro i
  rw [testBit_bits, testBit_bits, testBit_setBits _ _ _ _ _ h]
  by_cases hi1 : i < hi' + 1 - lo'
  · rw [if_neg (by omega)]
  · simp [hi1]

theorem setBits_lt (v hi lo x : Nat) (h : lo ≤ hi) (hh : hi < 32) (hv : v < 2 ^ 32) : setBits v hi lo x < 2 ^ 32 := by
  apply Nat.lt_pow_two_of_testBit
  intro i hi2
  rw [testBit_setBits _ _ _ _ _ h, if_neg (by omega)]
  exact Nat.testBit_lt_two_pow (Nat.lt_of_lt_of_le hv (Nat.pow_le_pow_right (by omega) hi2))

/-- A field after it was written. -/
theorem State.get_put_self (s : State) (f : Fld) (x : Nat) (h : f.lo ≤ f.hi) (hh : f.hi < 32) :
    (s.put f x).get f = x % 2 ^ (f.hi + 1 - f.lo) := by
  simp only [State.get, State.put, State.reg_setReg_self, BitVec.toNat_ofNat]
  rw [Nat.mod_eq_of_lt (setBits_lt _ _ _ _ h hh (s.reg f.addr).isLt), bits_setBits_self _ _ _ _ h]

/-- A field of another register. -/
theorem State.get_put_ne (s : State) {f g : Fld} (x : Nat) (h : g.addr ≠ f.addr) : (s.put f x).get g = s.get g := by
  simp only [State.get, s.reg_put_ne x h]

/-- Another field of the same register. -/
theorem State.get_put_off (s : State) {f g : Fld} (x : Nat) (ha : g.addr = f.addr) (h : f.lo ≤ f.hi) (hh : f.hi < 32)
    (hd : g.hi < f.lo ∨ f.hi < g.lo) : (s.put f x).get g = s.get g := by
  simp only [State.get, State.put, ha, State.reg_setReg_self, BitVec.toNat_ofNat]
  rw [Nat.mod_eq_of_lt (setBits_lt _ _ _ _ h hh (s.reg f.addr).isLt), bits_setBits_off _ _ _ _ _ _ h hd]

theorem State.get_setReg_ne (s : State) {f : Fld} {a : Nat} (v : Word) (h : f.addr ≠ a) : (s.setReg a v).get f = s.get f := by
  simp only [State.get, s.reg_setReg_ne v h]

theorem State.get_setVal_ne (s : State) {f : Fld} {a : Nat} (x : Nat) (h : f.addr ≠ a) : (s.setVal a x).get f = s.get f :=
  s.get_setReg_ne _ h

/-- An update of another part leaves every register. -/
theorem State.reg_congr {s t : State} (hv : t.variant = s.variant) (hr : t.regs = s.regs) (a : Nat) : t.reg a = s.reg a := by
  simp only [State.reg, hv, hr]

theorem State.get_congr {s t : State} (hv : t.variant = s.variant) (hr : t.regs = s.regs) (f : Fld) : t.get f = s.get f := by
  simp only [State.get, State.reg_congr hv hr]

/-! ### Management accesses (R9, R529, R534) -/

/-- A write on a path that may make it is the register's own effect; a refusal is recorded. -/
theorem State.gatedWrite_of_mayWrite {s : State} {p a : Nat} (h : State → State × Nat) (hw : s.mayWrite p a = true) :
    s.gatedWrite p a h = if (h s).2 = 0 then (h s).1 else (h s).1.recordRefusal p a true (h s).2 := by
  simp only [State.mayWrite, Bool.and_eq_true, decide_eq_true_eq, Bool.not_eq_true'] at hw
  obtain ⟨⟨⟨h1, h2⟩, h3⟩, h4⟩ := hw
  simp [State.gatedWrite, h1, h2, h3, h4]

/-- A read on a path that may make it. -/
theorem State.gatedRead_of_mayRead {s : State} {p a : Nat} (h : State → State × Word) (hr : s.mayRead p a = true) :
    s.gatedRead p a h = h s := by
  simp only [State.mayRead, Bool.and_eq_true, decide_eq_true_eq, Bool.not_eq_true'] at hr
  obtain ⟨⟨⟨⟨⟨h1, h2⟩, h3⟩, h4⟩, h5⟩, h6⟩ := hr
  unfold State.gatedRead
  rw [if_neg (by simp [h1, h2, h3])]
  simp only [h4, h5, h6, Bool.false_eq_true, if_false, bne_self_eq_false]

/-- The value goes back on the path. -/
theorem State.readOut_of_mayRead {s : State} {p a : Nat} (h : State → State × Word) (hr : s.mayRead p a = true) :
    s.readOut p a h = (h s).1.emit (.answer p a (h s).2 0) := by
  have hg := s.gatedRead_of_mayRead h hr
  simp only [State.mayRead, Bool.and_eq_true, decide_eq_true_eq, Bool.not_eq_true'] at hr
  obtain ⟨⟨⟨⟨⟨h1, _⟩, _⟩, h4⟩, _⟩, _⟩ := hr
  simp [State.readOut, h1, h4, hg]

/-! ### One law per field per update -/

@[simp] theorem State.setReg_variant (s : State) (a : Nat) (v : Word) : (s.setReg a v).variant = s.variant := rfl
@[simp] theorem State.setReg_power (s : State) (a : Nat) (v : Word) : (s.setReg a v).power = s.power := rfl
@[simp] theorem State.setReg_flow (s : State) (a : Nat) (v : Word) : (s.setReg a v).flow = s.flow := rfl
@[simp] theorem State.setReg_time (s : State) (a : Nat) (v : Word) : (s.setReg a v).time = s.time := rfl
@[simp] theorem State.setReg_prot (s : State) (a : Nat) (v : Word) : (s.setReg a v).prot = s.prot := rfl
@[simp] theorem State.setReg_alarm (s : State) (a : Nat) (v : Word) : (s.setReg a v).alarm = s.alarm := rfl
@[simp] theorem State.setReg_slots (s : State) (a : Nat) (v : Word) : (s.setReg a v).slots = s.slots := rfl
@[simp] theorem State.setReg_msix (s : State) (a : Nat) (v : Word) : (s.setReg a v).msix = s.msix := rfl
@[simp] theorem State.setReg_ft (s : State) (a : Nat) (v : Word) : (s.setReg a v).ft = s.ft := rfl
@[simp] theorem State.setReg_cmem (s : State) (a : Nat) (v : Word) : (s.setReg a v).cmem = s.cmem := rfl
@[simp] theorem State.setReg_cm (s : State) (a : Nat) (v : Word) : (s.setReg a v).cm = s.cm := rfl
@[simp] theorem State.setReg_af (s : State) (a : Nat) (v : Word) : (s.setReg a v).af = s.af := rfl
@[simp] theorem State.setReg_ca (s : State) (a : Nat) (v : Word) : (s.setReg a v).ca = s.ca := rfl
@[simp] theorem State.setReg_qu (s : State) (a : Nat) (v : Word) : (s.setReg a v).qu = s.qu := rfl
@[simp] theorem State.setReg_zp (s : State) (a : Nat) (v : Word) : (s.setReg a v).zp = s.zp := rfl
@[simp] theorem State.setReg_ztu (s : State) (a : Nat) (v : Word) : (s.setReg a v).ztu = s.ztu := rfl
@[simp] theorem State.setReg_bt (s : State) (a : Nat) (v : Word) : (s.setReg a v).bt = s.bt := rfl
@[simp] theorem State.setReg_dc (s : State) (a : Nat) (v : Word) : (s.setReg a v).dc = s.dc := rfl
@[simp] theorem State.setReg_tg (s : State) (a : Nat) (v : Word) : (s.setReg a v).tg = s.tg := rfl
@[simp] theorem State.setReg_et (s : State) (a : Nat) (v : Word) : (s.setReg a v).et = s.et := rfl
@[simp] theorem State.setReg_im (s : State) (a : Nat) (v : Word) : (s.setReg a v).im = s.im := rfl
@[simp] theorem State.setReg_ce (s : State) (a : Nat) (v : Word) : (s.setReg a v).ce = s.ce := rfl
@[simp] theorem State.setReg_kl (s : State) (a : Nat) (v : Word) : (s.setReg a v).kl = s.kl := rfl
@[simp] theorem State.setReg_kh (s : State) (a : Nat) (v : Word) : (s.setReg a v).kh = s.kh := rfl
@[simp] theorem State.setReg_bd (s : State) (a : Nat) (v : Word) : (s.setReg a v).bd = s.bd := rfl
@[simp] theorem State.setReg_hs (s : State) (a : Nat) (v : Word) : (s.setReg a v).hs = s.hs := rfl
@[simp] theorem State.setReg_mport (s : State) (a : Nat) (v : Word) : (s.setReg a v).mport = s.mport := rfl
@[simp] theorem State.setReg_ds (s : State) (a : Nat) (v : Word) : (s.setReg a v).ds = s.ds := rfl
@[simp] theorem State.setReg_out (s : State) (a : Nat) (v : Word) : (s.setReg a v).out = s.out := rfl
@[simp] theorem State.setReg_freshCount (s : State) (a : Nat) (v : Word) : (s.setReg a v).freshCount = s.freshCount := rfl
@[simp] theorem State.setReg_pending (s : State) (a : Nat) (v : Word) : (s.setReg a v).pending = s.pending := rfl

@[simp] theorem State.put_variant (s : State) (f : Fld) (x : Nat) : (s.put f x).variant = s.variant := rfl
@[simp] theorem State.put_power (s : State) (f : Fld) (x : Nat) : (s.put f x).power = s.power := rfl
@[simp] theorem State.put_flow (s : State) (f : Fld) (x : Nat) : (s.put f x).flow = s.flow := rfl
@[simp] theorem State.put_time (s : State) (f : Fld) (x : Nat) : (s.put f x).time = s.time := rfl
@[simp] theorem State.put_prot (s : State) (f : Fld) (x : Nat) : (s.put f x).prot = s.prot := rfl
@[simp] theorem State.put_alarm (s : State) (f : Fld) (x : Nat) : (s.put f x).alarm = s.alarm := rfl
@[simp] theorem State.put_slots (s : State) (f : Fld) (x : Nat) : (s.put f x).slots = s.slots := rfl
@[simp] theorem State.put_msix (s : State) (f : Fld) (x : Nat) : (s.put f x).msix = s.msix := rfl
@[simp] theorem State.put_ft (s : State) (f : Fld) (x : Nat) : (s.put f x).ft = s.ft := rfl
@[simp] theorem State.put_cmem (s : State) (f : Fld) (x : Nat) : (s.put f x).cmem = s.cmem := rfl
@[simp] theorem State.put_cm (s : State) (f : Fld) (x : Nat) : (s.put f x).cm = s.cm := rfl
@[simp] theorem State.put_af (s : State) (f : Fld) (x : Nat) : (s.put f x).af = s.af := rfl
@[simp] theorem State.put_ca (s : State) (f : Fld) (x : Nat) : (s.put f x).ca = s.ca := rfl
@[simp] theorem State.put_qu (s : State) (f : Fld) (x : Nat) : (s.put f x).qu = s.qu := rfl
@[simp] theorem State.put_zp (s : State) (f : Fld) (x : Nat) : (s.put f x).zp = s.zp := rfl
@[simp] theorem State.put_ztu (s : State) (f : Fld) (x : Nat) : (s.put f x).ztu = s.ztu := rfl
@[simp] theorem State.put_bt (s : State) (f : Fld) (x : Nat) : (s.put f x).bt = s.bt := rfl
@[simp] theorem State.put_dc (s : State) (f : Fld) (x : Nat) : (s.put f x).dc = s.dc := rfl
@[simp] theorem State.put_tg (s : State) (f : Fld) (x : Nat) : (s.put f x).tg = s.tg := rfl
@[simp] theorem State.put_et (s : State) (f : Fld) (x : Nat) : (s.put f x).et = s.et := rfl
@[simp] theorem State.put_im (s : State) (f : Fld) (x : Nat) : (s.put f x).im = s.im := rfl
@[simp] theorem State.put_ce (s : State) (f : Fld) (x : Nat) : (s.put f x).ce = s.ce := rfl
@[simp] theorem State.put_kl (s : State) (f : Fld) (x : Nat) : (s.put f x).kl = s.kl := rfl
@[simp] theorem State.put_kh (s : State) (f : Fld) (x : Nat) : (s.put f x).kh = s.kh := rfl
@[simp] theorem State.put_bd (s : State) (f : Fld) (x : Nat) : (s.put f x).bd = s.bd := rfl
@[simp] theorem State.put_hs (s : State) (f : Fld) (x : Nat) : (s.put f x).hs = s.hs := rfl
@[simp] theorem State.put_mport (s : State) (f : Fld) (x : Nat) : (s.put f x).mport = s.mport := rfl
@[simp] theorem State.put_ds (s : State) (f : Fld) (x : Nat) : (s.put f x).ds = s.ds := rfl
@[simp] theorem State.put_out (s : State) (f : Fld) (x : Nat) : (s.put f x).out = s.out := rfl
@[simp] theorem State.put_freshCount (s : State) (f : Fld) (x : Nat) : (s.put f x).freshCount = s.freshCount := rfl
@[simp] theorem State.put_pending (s : State) (f : Fld) (x : Nat) : (s.put f x).pending = s.pending := rfl

@[simp] theorem State.setVal_variant (s : State) (a x : Nat) : (s.setVal a x).variant = s.variant := rfl
@[simp] theorem State.setVal_power (s : State) (a x : Nat) : (s.setVal a x).power = s.power := rfl
@[simp] theorem State.setVal_flow (s : State) (a x : Nat) : (s.setVal a x).flow = s.flow := rfl
@[simp] theorem State.setVal_time (s : State) (a x : Nat) : (s.setVal a x).time = s.time := rfl
@[simp] theorem State.setVal_prot (s : State) (a x : Nat) : (s.setVal a x).prot = s.prot := rfl
@[simp] theorem State.setVal_alarm (s : State) (a x : Nat) : (s.setVal a x).alarm = s.alarm := rfl
@[simp] theorem State.setVal_slots (s : State) (a x : Nat) : (s.setVal a x).slots = s.slots := rfl
@[simp] theorem State.setVal_msix (s : State) (a x : Nat) : (s.setVal a x).msix = s.msix := rfl
@[simp] theorem State.setVal_ft (s : State) (a x : Nat) : (s.setVal a x).ft = s.ft := rfl
@[simp] theorem State.setVal_cmem (s : State) (a x : Nat) : (s.setVal a x).cmem = s.cmem := rfl
@[simp] theorem State.setVal_cm (s : State) (a x : Nat) : (s.setVal a x).cm = s.cm := rfl
@[simp] theorem State.setVal_af (s : State) (a x : Nat) : (s.setVal a x).af = s.af := rfl
@[simp] theorem State.setVal_ca (s : State) (a x : Nat) : (s.setVal a x).ca = s.ca := rfl
@[simp] theorem State.setVal_qu (s : State) (a x : Nat) : (s.setVal a x).qu = s.qu := rfl
@[simp] theorem State.setVal_zp (s : State) (a x : Nat) : (s.setVal a x).zp = s.zp := rfl
@[simp] theorem State.setVal_ztu (s : State) (a x : Nat) : (s.setVal a x).ztu = s.ztu := rfl
@[simp] theorem State.setVal_bt (s : State) (a x : Nat) : (s.setVal a x).bt = s.bt := rfl
@[simp] theorem State.setVal_dc (s : State) (a x : Nat) : (s.setVal a x).dc = s.dc := rfl
@[simp] theorem State.setVal_tg (s : State) (a x : Nat) : (s.setVal a x).tg = s.tg := rfl
@[simp] theorem State.setVal_et (s : State) (a x : Nat) : (s.setVal a x).et = s.et := rfl
@[simp] theorem State.setVal_im (s : State) (a x : Nat) : (s.setVal a x).im = s.im := rfl
@[simp] theorem State.setVal_ce (s : State) (a x : Nat) : (s.setVal a x).ce = s.ce := rfl
@[simp] theorem State.setVal_kl (s : State) (a x : Nat) : (s.setVal a x).kl = s.kl := rfl
@[simp] theorem State.setVal_kh (s : State) (a x : Nat) : (s.setVal a x).kh = s.kh := rfl
@[simp] theorem State.setVal_bd (s : State) (a x : Nat) : (s.setVal a x).bd = s.bd := rfl
@[simp] theorem State.setVal_hs (s : State) (a x : Nat) : (s.setVal a x).hs = s.hs := rfl
@[simp] theorem State.setVal_mport (s : State) (a x : Nat) : (s.setVal a x).mport = s.mport := rfl
@[simp] theorem State.setVal_ds (s : State) (a x : Nat) : (s.setVal a x).ds = s.ds := rfl
@[simp] theorem State.setVal_out (s : State) (a x : Nat) : (s.setVal a x).out = s.out := rfl
@[simp] theorem State.setVal_freshCount (s : State) (a x : Nat) : (s.setVal a x).freshCount = s.freshCount := rfl
@[simp] theorem State.setVal_pending (s : State) (a x : Nat) : (s.setVal a x).pending = s.pending := rfl

@[simp] theorem State.emit_variant (s : State) (e : Emission) : (s.emit e).variant = s.variant := rfl
@[simp] theorem State.emit_regs (s : State) (e : Emission) : (s.emit e).regs = s.regs := rfl
@[simp] theorem State.emit_power (s : State) (e : Emission) : (s.emit e).power = s.power := rfl
@[simp] theorem State.emit_flow (s : State) (e : Emission) : (s.emit e).flow = s.flow := rfl
@[simp] theorem State.emit_time (s : State) (e : Emission) : (s.emit e).time = s.time := rfl
@[simp] theorem State.emit_prot (s : State) (e : Emission) : (s.emit e).prot = s.prot := rfl
@[simp] theorem State.emit_alarm (s : State) (e : Emission) : (s.emit e).alarm = s.alarm := rfl
@[simp] theorem State.emit_slots (s : State) (e : Emission) : (s.emit e).slots = s.slots := rfl
@[simp] theorem State.emit_msix (s : State) (e : Emission) : (s.emit e).msix = s.msix := rfl
@[simp] theorem State.emit_ft (s : State) (e : Emission) : (s.emit e).ft = s.ft := rfl
@[simp] theorem State.emit_cmem (s : State) (e : Emission) : (s.emit e).cmem = s.cmem := rfl
@[simp] theorem State.emit_cm (s : State) (e : Emission) : (s.emit e).cm = s.cm := rfl
@[simp] theorem State.emit_af (s : State) (e : Emission) : (s.emit e).af = s.af := rfl
@[simp] theorem State.emit_ca (s : State) (e : Emission) : (s.emit e).ca = s.ca := rfl
@[simp] theorem State.emit_qu (s : State) (e : Emission) : (s.emit e).qu = s.qu := rfl
@[simp] theorem State.emit_zp (s : State) (e : Emission) : (s.emit e).zp = s.zp := rfl
@[simp] theorem State.emit_ztu (s : State) (e : Emission) : (s.emit e).ztu = s.ztu := rfl
@[simp] theorem State.emit_bt (s : State) (e : Emission) : (s.emit e).bt = s.bt := rfl
@[simp] theorem State.emit_dc (s : State) (e : Emission) : (s.emit e).dc = s.dc := rfl
@[simp] theorem State.emit_tg (s : State) (e : Emission) : (s.emit e).tg = s.tg := rfl
@[simp] theorem State.emit_et (s : State) (e : Emission) : (s.emit e).et = s.et := rfl
@[simp] theorem State.emit_im (s : State) (e : Emission) : (s.emit e).im = s.im := rfl
@[simp] theorem State.emit_ce (s : State) (e : Emission) : (s.emit e).ce = s.ce := rfl
@[simp] theorem State.emit_kl (s : State) (e : Emission) : (s.emit e).kl = s.kl := rfl
@[simp] theorem State.emit_kh (s : State) (e : Emission) : (s.emit e).kh = s.kh := rfl
@[simp] theorem State.emit_bd (s : State) (e : Emission) : (s.emit e).bd = s.bd := rfl
@[simp] theorem State.emit_hs (s : State) (e : Emission) : (s.emit e).hs = s.hs := rfl
@[simp] theorem State.emit_mport (s : State) (e : Emission) : (s.emit e).mport = s.mport := rfl
@[simp] theorem State.emit_ds (s : State) (e : Emission) : (s.emit e).ds = s.ds := rfl
@[simp] theorem State.emit_freshCount (s : State) (e : Emission) : (s.emit e).freshCount = s.freshCount := rfl
@[simp] theorem State.emit_pending (s : State) (e : Emission) : (s.emit e).pending = s.pending := rfl

@[simp] theorem State.useFree_variant (s : State) : (s.useFree).variant = s.variant := rfl
@[simp] theorem State.useFree_regs (s : State) : (s.useFree).regs = s.regs := rfl
@[simp] theorem State.useFree_power (s : State) : (s.useFree).power = s.power := rfl
@[simp] theorem State.useFree_flow (s : State) : (s.useFree).flow = s.flow := rfl
@[simp] theorem State.useFree_time (s : State) : (s.useFree).time = s.time := rfl
@[simp] theorem State.useFree_prot (s : State) : (s.useFree).prot = s.prot := rfl
@[simp] theorem State.useFree_alarm (s : State) : (s.useFree).alarm = s.alarm := rfl
@[simp] theorem State.useFree_slots (s : State) : (s.useFree).slots = s.slots := rfl
@[simp] theorem State.useFree_msix (s : State) : (s.useFree).msix = s.msix := rfl
@[simp] theorem State.useFree_ft (s : State) : (s.useFree).ft = s.ft := rfl
@[simp] theorem State.useFree_cmem (s : State) : (s.useFree).cmem = s.cmem := rfl
@[simp] theorem State.useFree_cm (s : State) : (s.useFree).cm = s.cm := rfl
@[simp] theorem State.useFree_af (s : State) : (s.useFree).af = s.af := rfl
@[simp] theorem State.useFree_ca (s : State) : (s.useFree).ca = s.ca := rfl
@[simp] theorem State.useFree_qu (s : State) : (s.useFree).qu = s.qu := rfl
@[simp] theorem State.useFree_zp (s : State) : (s.useFree).zp = s.zp := rfl
@[simp] theorem State.useFree_ztu (s : State) : (s.useFree).ztu = s.ztu := rfl
@[simp] theorem State.useFree_bt (s : State) : (s.useFree).bt = s.bt := rfl
@[simp] theorem State.useFree_dc (s : State) : (s.useFree).dc = s.dc := rfl
@[simp] theorem State.useFree_tg (s : State) : (s.useFree).tg = s.tg := rfl
@[simp] theorem State.useFree_et (s : State) : (s.useFree).et = s.et := rfl
@[simp] theorem State.useFree_im (s : State) : (s.useFree).im = s.im := rfl
@[simp] theorem State.useFree_ce (s : State) : (s.useFree).ce = s.ce := rfl
@[simp] theorem State.useFree_kl (s : State) : (s.useFree).kl = s.kl := rfl
@[simp] theorem State.useFree_kh (s : State) : (s.useFree).kh = s.kh := rfl
@[simp] theorem State.useFree_bd (s : State) : (s.useFree).bd = s.bd := rfl
@[simp] theorem State.useFree_hs (s : State) : (s.useFree).hs = s.hs := rfl
@[simp] theorem State.useFree_mport (s : State) : (s.useFree).mport = s.mport := rfl
@[simp] theorem State.useFree_ds (s : State) : (s.useFree).ds = s.ds := rfl
@[simp] theorem State.useFree_out (s : State) : (s.useFree).out = s.out := rfl
@[simp] theorem State.useFree_pending (s : State) : (s.useFree).pending = s.pending := rfl

@[simp] theorem State.useFrees_variant (s : State) (n : Nat) : (s.useFrees n).variant = s.variant := rfl
@[simp] theorem State.useFrees_regs (s : State) (n : Nat) : (s.useFrees n).regs = s.regs := rfl
@[simp] theorem State.useFrees_power (s : State) (n : Nat) : (s.useFrees n).power = s.power := rfl
@[simp] theorem State.useFrees_flow (s : State) (n : Nat) : (s.useFrees n).flow = s.flow := rfl
@[simp] theorem State.useFrees_time (s : State) (n : Nat) : (s.useFrees n).time = s.time := rfl
@[simp] theorem State.useFrees_prot (s : State) (n : Nat) : (s.useFrees n).prot = s.prot := rfl
@[simp] theorem State.useFrees_alarm (s : State) (n : Nat) : (s.useFrees n).alarm = s.alarm := rfl
@[simp] theorem State.useFrees_slots (s : State) (n : Nat) : (s.useFrees n).slots = s.slots := rfl
@[simp] theorem State.useFrees_msix (s : State) (n : Nat) : (s.useFrees n).msix = s.msix := rfl
@[simp] theorem State.useFrees_ft (s : State) (n : Nat) : (s.useFrees n).ft = s.ft := rfl
@[simp] theorem State.useFrees_cmem (s : State) (n : Nat) : (s.useFrees n).cmem = s.cmem := rfl
@[simp] theorem State.useFrees_cm (s : State) (n : Nat) : (s.useFrees n).cm = s.cm := rfl
@[simp] theorem State.useFrees_af (s : State) (n : Nat) : (s.useFrees n).af = s.af := rfl
@[simp] theorem State.useFrees_ca (s : State) (n : Nat) : (s.useFrees n).ca = s.ca := rfl
@[simp] theorem State.useFrees_qu (s : State) (n : Nat) : (s.useFrees n).qu = s.qu := rfl
@[simp] theorem State.useFrees_zp (s : State) (n : Nat) : (s.useFrees n).zp = s.zp := rfl
@[simp] theorem State.useFrees_ztu (s : State) (n : Nat) : (s.useFrees n).ztu = s.ztu := rfl
@[simp] theorem State.useFrees_bt (s : State) (n : Nat) : (s.useFrees n).bt = s.bt := rfl
@[simp] theorem State.useFrees_dc (s : State) (n : Nat) : (s.useFrees n).dc = s.dc := rfl
@[simp] theorem State.useFrees_tg (s : State) (n : Nat) : (s.useFrees n).tg = s.tg := rfl
@[simp] theorem State.useFrees_et (s : State) (n : Nat) : (s.useFrees n).et = s.et := rfl
@[simp] theorem State.useFrees_im (s : State) (n : Nat) : (s.useFrees n).im = s.im := rfl
@[simp] theorem State.useFrees_ce (s : State) (n : Nat) : (s.useFrees n).ce = s.ce := rfl
@[simp] theorem State.useFrees_kl (s : State) (n : Nat) : (s.useFrees n).kl = s.kl := rfl
@[simp] theorem State.useFrees_kh (s : State) (n : Nat) : (s.useFrees n).kh = s.kh := rfl
@[simp] theorem State.useFrees_bd (s : State) (n : Nat) : (s.useFrees n).bd = s.bd := rfl
@[simp] theorem State.useFrees_hs (s : State) (n : Nat) : (s.useFrees n).hs = s.hs := rfl
@[simp] theorem State.useFrees_mport (s : State) (n : Nat) : (s.useFrees n).mport = s.mport := rfl
@[simp] theorem State.useFrees_ds (s : State) (n : Nat) : (s.useFrees n).ds = s.ds := rfl
@[simp] theorem State.useFrees_out (s : State) (n : Nat) : (s.useFrees n).out = s.out := rfl
@[simp] theorem State.useFrees_pending (s : State) (n : Nat) : (s.useFrees n).pending = s.pending := rfl

@[simp] theorem State.modTime_variant (s : State) (f : TimeSt → TimeSt) : (s.modTime f).variant = s.variant := rfl
@[simp] theorem State.modTime_regs (s : State) (f : TimeSt → TimeSt) : (s.modTime f).regs = s.regs := rfl
@[simp] theorem State.modTime_power (s : State) (f : TimeSt → TimeSt) : (s.modTime f).power = s.power := rfl
@[simp] theorem State.modTime_flow (s : State) (f : TimeSt → TimeSt) : (s.modTime f).flow = s.flow := rfl
@[simp] theorem State.modTime_prot (s : State) (f : TimeSt → TimeSt) : (s.modTime f).prot = s.prot := rfl
@[simp] theorem State.modTime_alarm (s : State) (f : TimeSt → TimeSt) : (s.modTime f).alarm = s.alarm := rfl
@[simp] theorem State.modTime_slots (s : State) (f : TimeSt → TimeSt) : (s.modTime f).slots = s.slots := rfl
@[simp] theorem State.modTime_msix (s : State) (f : TimeSt → TimeSt) : (s.modTime f).msix = s.msix := rfl
@[simp] theorem State.modTime_ft (s : State) (f : TimeSt → TimeSt) : (s.modTime f).ft = s.ft := rfl
@[simp] theorem State.modTime_cmem (s : State) (f : TimeSt → TimeSt) : (s.modTime f).cmem = s.cmem := rfl
@[simp] theorem State.modTime_cm (s : State) (f : TimeSt → TimeSt) : (s.modTime f).cm = s.cm := rfl
@[simp] theorem State.modTime_af (s : State) (f : TimeSt → TimeSt) : (s.modTime f).af = s.af := rfl
@[simp] theorem State.modTime_ca (s : State) (f : TimeSt → TimeSt) : (s.modTime f).ca = s.ca := rfl
@[simp] theorem State.modTime_qu (s : State) (f : TimeSt → TimeSt) : (s.modTime f).qu = s.qu := rfl
@[simp] theorem State.modTime_zp (s : State) (f : TimeSt → TimeSt) : (s.modTime f).zp = s.zp := rfl
@[simp] theorem State.modTime_ztu (s : State) (f : TimeSt → TimeSt) : (s.modTime f).ztu = s.ztu := rfl
@[simp] theorem State.modTime_bt (s : State) (f : TimeSt → TimeSt) : (s.modTime f).bt = s.bt := rfl
@[simp] theorem State.modTime_dc (s : State) (f : TimeSt → TimeSt) : (s.modTime f).dc = s.dc := rfl
@[simp] theorem State.modTime_tg (s : State) (f : TimeSt → TimeSt) : (s.modTime f).tg = s.tg := rfl
@[simp] theorem State.modTime_et (s : State) (f : TimeSt → TimeSt) : (s.modTime f).et = s.et := rfl
@[simp] theorem State.modTime_im (s : State) (f : TimeSt → TimeSt) : (s.modTime f).im = s.im := rfl
@[simp] theorem State.modTime_ce (s : State) (f : TimeSt → TimeSt) : (s.modTime f).ce = s.ce := rfl
@[simp] theorem State.modTime_kl (s : State) (f : TimeSt → TimeSt) : (s.modTime f).kl = s.kl := rfl
@[simp] theorem State.modTime_kh (s : State) (f : TimeSt → TimeSt) : (s.modTime f).kh = s.kh := rfl
@[simp] theorem State.modTime_bd (s : State) (f : TimeSt → TimeSt) : (s.modTime f).bd = s.bd := rfl
@[simp] theorem State.modTime_hs (s : State) (f : TimeSt → TimeSt) : (s.modTime f).hs = s.hs := rfl
@[simp] theorem State.modTime_mport (s : State) (f : TimeSt → TimeSt) : (s.modTime f).mport = s.mport := rfl
@[simp] theorem State.modTime_ds (s : State) (f : TimeSt → TimeSt) : (s.modTime f).ds = s.ds := rfl
@[simp] theorem State.modTime_out (s : State) (f : TimeSt → TimeSt) : (s.modTime f).out = s.out := rfl
@[simp] theorem State.modTime_freshCount (s : State) (f : TimeSt → TimeSt) : (s.modTime f).freshCount = s.freshCount := rfl
@[simp] theorem State.modTime_pending (s : State) (f : TimeSt → TimeSt) : (s.modTime f).pending = s.pending := rfl

@[simp] theorem State.modIm_variant (s : State) (f : ImSt → ImSt) : (s.modIm f).variant = s.variant := rfl
@[simp] theorem State.modIm_regs (s : State) (f : ImSt → ImSt) : (s.modIm f).regs = s.regs := rfl
@[simp] theorem State.modIm_power (s : State) (f : ImSt → ImSt) : (s.modIm f).power = s.power := rfl
@[simp] theorem State.modIm_flow (s : State) (f : ImSt → ImSt) : (s.modIm f).flow = s.flow := rfl
@[simp] theorem State.modIm_time (s : State) (f : ImSt → ImSt) : (s.modIm f).time = s.time := rfl
@[simp] theorem State.modIm_prot (s : State) (f : ImSt → ImSt) : (s.modIm f).prot = s.prot := rfl
@[simp] theorem State.modIm_alarm (s : State) (f : ImSt → ImSt) : (s.modIm f).alarm = s.alarm := rfl
@[simp] theorem State.modIm_slots (s : State) (f : ImSt → ImSt) : (s.modIm f).slots = s.slots := rfl
@[simp] theorem State.modIm_msix (s : State) (f : ImSt → ImSt) : (s.modIm f).msix = s.msix := rfl
@[simp] theorem State.modIm_ft (s : State) (f : ImSt → ImSt) : (s.modIm f).ft = s.ft := rfl
@[simp] theorem State.modIm_cmem (s : State) (f : ImSt → ImSt) : (s.modIm f).cmem = s.cmem := rfl
@[simp] theorem State.modIm_cm (s : State) (f : ImSt → ImSt) : (s.modIm f).cm = s.cm := rfl
@[simp] theorem State.modIm_af (s : State) (f : ImSt → ImSt) : (s.modIm f).af = s.af := rfl
@[simp] theorem State.modIm_ca (s : State) (f : ImSt → ImSt) : (s.modIm f).ca = s.ca := rfl
@[simp] theorem State.modIm_qu (s : State) (f : ImSt → ImSt) : (s.modIm f).qu = s.qu := rfl
@[simp] theorem State.modIm_zp (s : State) (f : ImSt → ImSt) : (s.modIm f).zp = s.zp := rfl
@[simp] theorem State.modIm_ztu (s : State) (f : ImSt → ImSt) : (s.modIm f).ztu = s.ztu := rfl
@[simp] theorem State.modIm_bt (s : State) (f : ImSt → ImSt) : (s.modIm f).bt = s.bt := rfl
@[simp] theorem State.modIm_dc (s : State) (f : ImSt → ImSt) : (s.modIm f).dc = s.dc := rfl
@[simp] theorem State.modIm_tg (s : State) (f : ImSt → ImSt) : (s.modIm f).tg = s.tg := rfl
@[simp] theorem State.modIm_et (s : State) (f : ImSt → ImSt) : (s.modIm f).et = s.et := rfl
@[simp] theorem State.modIm_ce (s : State) (f : ImSt → ImSt) : (s.modIm f).ce = s.ce := rfl
@[simp] theorem State.modIm_kl (s : State) (f : ImSt → ImSt) : (s.modIm f).kl = s.kl := rfl
@[simp] theorem State.modIm_kh (s : State) (f : ImSt → ImSt) : (s.modIm f).kh = s.kh := rfl
@[simp] theorem State.modIm_bd (s : State) (f : ImSt → ImSt) : (s.modIm f).bd = s.bd := rfl
@[simp] theorem State.modIm_hs (s : State) (f : ImSt → ImSt) : (s.modIm f).hs = s.hs := rfl
@[simp] theorem State.modIm_mport (s : State) (f : ImSt → ImSt) : (s.modIm f).mport = s.mport := rfl
@[simp] theorem State.modIm_ds (s : State) (f : ImSt → ImSt) : (s.modIm f).ds = s.ds := rfl
@[simp] theorem State.modIm_out (s : State) (f : ImSt → ImSt) : (s.modIm f).out = s.out := rfl
@[simp] theorem State.modIm_freshCount (s : State) (f : ImSt → ImSt) : (s.modIm f).freshCount = s.freshCount := rfl
@[simp] theorem State.modIm_pending (s : State) (f : ImSt → ImSt) : (s.modIm f).pending = s.pending := rfl

@[simp] theorem State.modKl_variant (s : State) (f : KlSt → KlSt) : (s.modKl f).variant = s.variant := rfl
@[simp] theorem State.modKl_regs (s : State) (f : KlSt → KlSt) : (s.modKl f).regs = s.regs := rfl
@[simp] theorem State.modKl_power (s : State) (f : KlSt → KlSt) : (s.modKl f).power = s.power := rfl
@[simp] theorem State.modKl_flow (s : State) (f : KlSt → KlSt) : (s.modKl f).flow = s.flow := rfl
@[simp] theorem State.modKl_time (s : State) (f : KlSt → KlSt) : (s.modKl f).time = s.time := rfl
@[simp] theorem State.modKl_prot (s : State) (f : KlSt → KlSt) : (s.modKl f).prot = s.prot := rfl
@[simp] theorem State.modKl_alarm (s : State) (f : KlSt → KlSt) : (s.modKl f).alarm = s.alarm := rfl
@[simp] theorem State.modKl_slots (s : State) (f : KlSt → KlSt) : (s.modKl f).slots = s.slots := rfl
@[simp] theorem State.modKl_msix (s : State) (f : KlSt → KlSt) : (s.modKl f).msix = s.msix := rfl
@[simp] theorem State.modKl_ft (s : State) (f : KlSt → KlSt) : (s.modKl f).ft = s.ft := rfl
@[simp] theorem State.modKl_cmem (s : State) (f : KlSt → KlSt) : (s.modKl f).cmem = s.cmem := rfl
@[simp] theorem State.modKl_cm (s : State) (f : KlSt → KlSt) : (s.modKl f).cm = s.cm := rfl
@[simp] theorem State.modKl_af (s : State) (f : KlSt → KlSt) : (s.modKl f).af = s.af := rfl
@[simp] theorem State.modKl_ca (s : State) (f : KlSt → KlSt) : (s.modKl f).ca = s.ca := rfl
@[simp] theorem State.modKl_qu (s : State) (f : KlSt → KlSt) : (s.modKl f).qu = s.qu := rfl
@[simp] theorem State.modKl_zp (s : State) (f : KlSt → KlSt) : (s.modKl f).zp = s.zp := rfl
@[simp] theorem State.modKl_ztu (s : State) (f : KlSt → KlSt) : (s.modKl f).ztu = s.ztu := rfl
@[simp] theorem State.modKl_bt (s : State) (f : KlSt → KlSt) : (s.modKl f).bt = s.bt := rfl
@[simp] theorem State.modKl_dc (s : State) (f : KlSt → KlSt) : (s.modKl f).dc = s.dc := rfl
@[simp] theorem State.modKl_tg (s : State) (f : KlSt → KlSt) : (s.modKl f).tg = s.tg := rfl
@[simp] theorem State.modKl_et (s : State) (f : KlSt → KlSt) : (s.modKl f).et = s.et := rfl
@[simp] theorem State.modKl_im (s : State) (f : KlSt → KlSt) : (s.modKl f).im = s.im := rfl
@[simp] theorem State.modKl_ce (s : State) (f : KlSt → KlSt) : (s.modKl f).ce = s.ce := rfl
@[simp] theorem State.modKl_kh (s : State) (f : KlSt → KlSt) : (s.modKl f).kh = s.kh := rfl
@[simp] theorem State.modKl_bd (s : State) (f : KlSt → KlSt) : (s.modKl f).bd = s.bd := rfl
@[simp] theorem State.modKl_hs (s : State) (f : KlSt → KlSt) : (s.modKl f).hs = s.hs := rfl
@[simp] theorem State.modKl_mport (s : State) (f : KlSt → KlSt) : (s.modKl f).mport = s.mport := rfl
@[simp] theorem State.modKl_ds (s : State) (f : KlSt → KlSt) : (s.modKl f).ds = s.ds := rfl
@[simp] theorem State.modKl_out (s : State) (f : KlSt → KlSt) : (s.modKl f).out = s.out := rfl
@[simp] theorem State.modKl_freshCount (s : State) (f : KlSt → KlSt) : (s.modKl f).freshCount = s.freshCount := rfl
@[simp] theorem State.modKl_pending (s : State) (f : KlSt → KlSt) : (s.modKl f).pending = s.pending := rfl

@[simp] theorem State.modCe_variant (s : State) (f : CeSt → CeSt) : (s.modCe f).variant = s.variant := rfl
@[simp] theorem State.modCe_regs (s : State) (f : CeSt → CeSt) : (s.modCe f).regs = s.regs := rfl
@[simp] theorem State.modCe_power (s : State) (f : CeSt → CeSt) : (s.modCe f).power = s.power := rfl
@[simp] theorem State.modCe_flow (s : State) (f : CeSt → CeSt) : (s.modCe f).flow = s.flow := rfl
@[simp] theorem State.modCe_time (s : State) (f : CeSt → CeSt) : (s.modCe f).time = s.time := rfl
@[simp] theorem State.modCe_prot (s : State) (f : CeSt → CeSt) : (s.modCe f).prot = s.prot := rfl
@[simp] theorem State.modCe_alarm (s : State) (f : CeSt → CeSt) : (s.modCe f).alarm = s.alarm := rfl
@[simp] theorem State.modCe_slots (s : State) (f : CeSt → CeSt) : (s.modCe f).slots = s.slots := rfl
@[simp] theorem State.modCe_msix (s : State) (f : CeSt → CeSt) : (s.modCe f).msix = s.msix := rfl
@[simp] theorem State.modCe_ft (s : State) (f : CeSt → CeSt) : (s.modCe f).ft = s.ft := rfl
@[simp] theorem State.modCe_cmem (s : State) (f : CeSt → CeSt) : (s.modCe f).cmem = s.cmem := rfl
@[simp] theorem State.modCe_cm (s : State) (f : CeSt → CeSt) : (s.modCe f).cm = s.cm := rfl
@[simp] theorem State.modCe_af (s : State) (f : CeSt → CeSt) : (s.modCe f).af = s.af := rfl
@[simp] theorem State.modCe_ca (s : State) (f : CeSt → CeSt) : (s.modCe f).ca = s.ca := rfl
@[simp] theorem State.modCe_qu (s : State) (f : CeSt → CeSt) : (s.modCe f).qu = s.qu := rfl
@[simp] theorem State.modCe_zp (s : State) (f : CeSt → CeSt) : (s.modCe f).zp = s.zp := rfl
@[simp] theorem State.modCe_ztu (s : State) (f : CeSt → CeSt) : (s.modCe f).ztu = s.ztu := rfl
@[simp] theorem State.modCe_bt (s : State) (f : CeSt → CeSt) : (s.modCe f).bt = s.bt := rfl
@[simp] theorem State.modCe_dc (s : State) (f : CeSt → CeSt) : (s.modCe f).dc = s.dc := rfl
@[simp] theorem State.modCe_tg (s : State) (f : CeSt → CeSt) : (s.modCe f).tg = s.tg := rfl
@[simp] theorem State.modCe_et (s : State) (f : CeSt → CeSt) : (s.modCe f).et = s.et := rfl
@[simp] theorem State.modCe_im (s : State) (f : CeSt → CeSt) : (s.modCe f).im = s.im := rfl
@[simp] theorem State.modCe_kl (s : State) (f : CeSt → CeSt) : (s.modCe f).kl = s.kl := rfl
@[simp] theorem State.modCe_kh (s : State) (f : CeSt → CeSt) : (s.modCe f).kh = s.kh := rfl
@[simp] theorem State.modCe_bd (s : State) (f : CeSt → CeSt) : (s.modCe f).bd = s.bd := rfl
@[simp] theorem State.modCe_hs (s : State) (f : CeSt → CeSt) : (s.modCe f).hs = s.hs := rfl
@[simp] theorem State.modCe_mport (s : State) (f : CeSt → CeSt) : (s.modCe f).mport = s.mport := rfl
@[simp] theorem State.modCe_ds (s : State) (f : CeSt → CeSt) : (s.modCe f).ds = s.ds := rfl
@[simp] theorem State.modCe_out (s : State) (f : CeSt → CeSt) : (s.modCe f).out = s.out := rfl
@[simp] theorem State.modCe_freshCount (s : State) (f : CeSt → CeSt) : (s.modCe f).freshCount = s.freshCount := rfl
@[simp] theorem State.modCe_pending (s : State) (f : CeSt → CeSt) : (s.modCe f).pending = s.pending := rfl

@[simp] theorem State.modKh_variant (s : State) (f : KhSt → KhSt) : (s.modKh f).variant = s.variant := rfl
@[simp] theorem State.modKh_regs (s : State) (f : KhSt → KhSt) : (s.modKh f).regs = s.regs := rfl
@[simp] theorem State.modKh_power (s : State) (f : KhSt → KhSt) : (s.modKh f).power = s.power := rfl
@[simp] theorem State.modKh_flow (s : State) (f : KhSt → KhSt) : (s.modKh f).flow = s.flow := rfl
@[simp] theorem State.modKh_time (s : State) (f : KhSt → KhSt) : (s.modKh f).time = s.time := rfl
@[simp] theorem State.modKh_prot (s : State) (f : KhSt → KhSt) : (s.modKh f).prot = s.prot := rfl
@[simp] theorem State.modKh_alarm (s : State) (f : KhSt → KhSt) : (s.modKh f).alarm = s.alarm := rfl
@[simp] theorem State.modKh_slots (s : State) (f : KhSt → KhSt) : (s.modKh f).slots = s.slots := rfl
@[simp] theorem State.modKh_msix (s : State) (f : KhSt → KhSt) : (s.modKh f).msix = s.msix := rfl
@[simp] theorem State.modKh_ft (s : State) (f : KhSt → KhSt) : (s.modKh f).ft = s.ft := rfl
@[simp] theorem State.modKh_cmem (s : State) (f : KhSt → KhSt) : (s.modKh f).cmem = s.cmem := rfl
@[simp] theorem State.modKh_cm (s : State) (f : KhSt → KhSt) : (s.modKh f).cm = s.cm := rfl
@[simp] theorem State.modKh_af (s : State) (f : KhSt → KhSt) : (s.modKh f).af = s.af := rfl
@[simp] theorem State.modKh_ca (s : State) (f : KhSt → KhSt) : (s.modKh f).ca = s.ca := rfl
@[simp] theorem State.modKh_qu (s : State) (f : KhSt → KhSt) : (s.modKh f).qu = s.qu := rfl
@[simp] theorem State.modKh_zp (s : State) (f : KhSt → KhSt) : (s.modKh f).zp = s.zp := rfl
@[simp] theorem State.modKh_ztu (s : State) (f : KhSt → KhSt) : (s.modKh f).ztu = s.ztu := rfl
@[simp] theorem State.modKh_bt (s : State) (f : KhSt → KhSt) : (s.modKh f).bt = s.bt := rfl
@[simp] theorem State.modKh_dc (s : State) (f : KhSt → KhSt) : (s.modKh f).dc = s.dc := rfl
@[simp] theorem State.modKh_tg (s : State) (f : KhSt → KhSt) : (s.modKh f).tg = s.tg := rfl
@[simp] theorem State.modKh_et (s : State) (f : KhSt → KhSt) : (s.modKh f).et = s.et := rfl
@[simp] theorem State.modKh_im (s : State) (f : KhSt → KhSt) : (s.modKh f).im = s.im := rfl
@[simp] theorem State.modKh_ce (s : State) (f : KhSt → KhSt) : (s.modKh f).ce = s.ce := rfl
@[simp] theorem State.modKh_kl (s : State) (f : KhSt → KhSt) : (s.modKh f).kl = s.kl := rfl
@[simp] theorem State.modKh_bd (s : State) (f : KhSt → KhSt) : (s.modKh f).bd = s.bd := rfl
@[simp] theorem State.modKh_hs (s : State) (f : KhSt → KhSt) : (s.modKh f).hs = s.hs := rfl
@[simp] theorem State.modKh_mport (s : State) (f : KhSt → KhSt) : (s.modKh f).mport = s.mport := rfl
@[simp] theorem State.modKh_ds (s : State) (f : KhSt → KhSt) : (s.modKh f).ds = s.ds := rfl
@[simp] theorem State.modKh_out (s : State) (f : KhSt → KhSt) : (s.modKh f).out = s.out := rfl
@[simp] theorem State.modKh_freshCount (s : State) (f : KhSt → KhSt) : (s.modKh f).freshCount = s.freshCount := rfl
@[simp] theorem State.modKh_pending (s : State) (f : KhSt → KhSt) : (s.modKh f).pending = s.pending := rfl

@[simp] theorem State.modHs_variant (s : State) (f : HsSt → HsSt) : (s.modHs f).variant = s.variant := rfl
@[simp] theorem State.modHs_regs (s : State) (f : HsSt → HsSt) : (s.modHs f).regs = s.regs := rfl
@[simp] theorem State.modHs_power (s : State) (f : HsSt → HsSt) : (s.modHs f).power = s.power := rfl
@[simp] theorem State.modHs_flow (s : State) (f : HsSt → HsSt) : (s.modHs f).flow = s.flow := rfl
@[simp] theorem State.modHs_time (s : State) (f : HsSt → HsSt) : (s.modHs f).time = s.time := rfl
@[simp] theorem State.modHs_prot (s : State) (f : HsSt → HsSt) : (s.modHs f).prot = s.prot := rfl
@[simp] theorem State.modHs_alarm (s : State) (f : HsSt → HsSt) : (s.modHs f).alarm = s.alarm := rfl
@[simp] theorem State.modHs_slots (s : State) (f : HsSt → HsSt) : (s.modHs f).slots = s.slots := rfl
@[simp] theorem State.modHs_msix (s : State) (f : HsSt → HsSt) : (s.modHs f).msix = s.msix := rfl
@[simp] theorem State.modHs_ft (s : State) (f : HsSt → HsSt) : (s.modHs f).ft = s.ft := rfl
@[simp] theorem State.modHs_cmem (s : State) (f : HsSt → HsSt) : (s.modHs f).cmem = s.cmem := rfl
@[simp] theorem State.modHs_cm (s : State) (f : HsSt → HsSt) : (s.modHs f).cm = s.cm := rfl
@[simp] theorem State.modHs_af (s : State) (f : HsSt → HsSt) : (s.modHs f).af = s.af := rfl
@[simp] theorem State.modHs_ca (s : State) (f : HsSt → HsSt) : (s.modHs f).ca = s.ca := rfl
@[simp] theorem State.modHs_qu (s : State) (f : HsSt → HsSt) : (s.modHs f).qu = s.qu := rfl
@[simp] theorem State.modHs_zp (s : State) (f : HsSt → HsSt) : (s.modHs f).zp = s.zp := rfl
@[simp] theorem State.modHs_ztu (s : State) (f : HsSt → HsSt) : (s.modHs f).ztu = s.ztu := rfl
@[simp] theorem State.modHs_bt (s : State) (f : HsSt → HsSt) : (s.modHs f).bt = s.bt := rfl
@[simp] theorem State.modHs_dc (s : State) (f : HsSt → HsSt) : (s.modHs f).dc = s.dc := rfl
@[simp] theorem State.modHs_tg (s : State) (f : HsSt → HsSt) : (s.modHs f).tg = s.tg := rfl
@[simp] theorem State.modHs_et (s : State) (f : HsSt → HsSt) : (s.modHs f).et = s.et := rfl
@[simp] theorem State.modHs_im (s : State) (f : HsSt → HsSt) : (s.modHs f).im = s.im := rfl
@[simp] theorem State.modHs_ce (s : State) (f : HsSt → HsSt) : (s.modHs f).ce = s.ce := rfl
@[simp] theorem State.modHs_kl (s : State) (f : HsSt → HsSt) : (s.modHs f).kl = s.kl := rfl
@[simp] theorem State.modHs_kh (s : State) (f : HsSt → HsSt) : (s.modHs f).kh = s.kh := rfl
@[simp] theorem State.modHs_bd (s : State) (f : HsSt → HsSt) : (s.modHs f).bd = s.bd := rfl
@[simp] theorem State.modHs_mport (s : State) (f : HsSt → HsSt) : (s.modHs f).mport = s.mport := rfl
@[simp] theorem State.modHs_ds (s : State) (f : HsSt → HsSt) : (s.modHs f).ds = s.ds := rfl
@[simp] theorem State.modHs_out (s : State) (f : HsSt → HsSt) : (s.modHs f).out = s.out := rfl
@[simp] theorem State.modHs_freshCount (s : State) (f : HsSt → HsSt) : (s.modHs f).freshCount = s.freshCount := rfl
@[simp] theorem State.modHs_pending (s : State) (f : HsSt → HsSt) : (s.modHs f).pending = s.pending := rfl

@[simp] theorem State.modBd_variant (s : State) (f : BdSt → BdSt) : (s.modBd f).variant = s.variant := rfl
@[simp] theorem State.modBd_regs (s : State) (f : BdSt → BdSt) : (s.modBd f).regs = s.regs := rfl
@[simp] theorem State.modBd_power (s : State) (f : BdSt → BdSt) : (s.modBd f).power = s.power := rfl
@[simp] theorem State.modBd_flow (s : State) (f : BdSt → BdSt) : (s.modBd f).flow = s.flow := rfl
@[simp] theorem State.modBd_time (s : State) (f : BdSt → BdSt) : (s.modBd f).time = s.time := rfl
@[simp] theorem State.modBd_prot (s : State) (f : BdSt → BdSt) : (s.modBd f).prot = s.prot := rfl
@[simp] theorem State.modBd_alarm (s : State) (f : BdSt → BdSt) : (s.modBd f).alarm = s.alarm := rfl
@[simp] theorem State.modBd_slots (s : State) (f : BdSt → BdSt) : (s.modBd f).slots = s.slots := rfl
@[simp] theorem State.modBd_msix (s : State) (f : BdSt → BdSt) : (s.modBd f).msix = s.msix := rfl
@[simp] theorem State.modBd_ft (s : State) (f : BdSt → BdSt) : (s.modBd f).ft = s.ft := rfl
@[simp] theorem State.modBd_cmem (s : State) (f : BdSt → BdSt) : (s.modBd f).cmem = s.cmem := rfl
@[simp] theorem State.modBd_cm (s : State) (f : BdSt → BdSt) : (s.modBd f).cm = s.cm := rfl
@[simp] theorem State.modBd_af (s : State) (f : BdSt → BdSt) : (s.modBd f).af = s.af := rfl
@[simp] theorem State.modBd_ca (s : State) (f : BdSt → BdSt) : (s.modBd f).ca = s.ca := rfl
@[simp] theorem State.modBd_qu (s : State) (f : BdSt → BdSt) : (s.modBd f).qu = s.qu := rfl
@[simp] theorem State.modBd_zp (s : State) (f : BdSt → BdSt) : (s.modBd f).zp = s.zp := rfl
@[simp] theorem State.modBd_ztu (s : State) (f : BdSt → BdSt) : (s.modBd f).ztu = s.ztu := rfl
@[simp] theorem State.modBd_bt (s : State) (f : BdSt → BdSt) : (s.modBd f).bt = s.bt := rfl
@[simp] theorem State.modBd_dc (s : State) (f : BdSt → BdSt) : (s.modBd f).dc = s.dc := rfl
@[simp] theorem State.modBd_tg (s : State) (f : BdSt → BdSt) : (s.modBd f).tg = s.tg := rfl
@[simp] theorem State.modBd_et (s : State) (f : BdSt → BdSt) : (s.modBd f).et = s.et := rfl
@[simp] theorem State.modBd_im (s : State) (f : BdSt → BdSt) : (s.modBd f).im = s.im := rfl
@[simp] theorem State.modBd_ce (s : State) (f : BdSt → BdSt) : (s.modBd f).ce = s.ce := rfl
@[simp] theorem State.modBd_kl (s : State) (f : BdSt → BdSt) : (s.modBd f).kl = s.kl := rfl
@[simp] theorem State.modBd_kh (s : State) (f : BdSt → BdSt) : (s.modBd f).kh = s.kh := rfl
@[simp] theorem State.modBd_hs (s : State) (f : BdSt → BdSt) : (s.modBd f).hs = s.hs := rfl
@[simp] theorem State.modBd_mport (s : State) (f : BdSt → BdSt) : (s.modBd f).mport = s.mport := rfl
@[simp] theorem State.modBd_ds (s : State) (f : BdSt → BdSt) : (s.modBd f).ds = s.ds := rfl
@[simp] theorem State.modBd_out (s : State) (f : BdSt → BdSt) : (s.modBd f).out = s.out := rfl
@[simp] theorem State.modBd_freshCount (s : State) (f : BdSt → BdSt) : (s.modBd f).freshCount = s.freshCount := rfl
@[simp] theorem State.modBd_pending (s : State) (f : BdSt → BdSt) : (s.modBd f).pending = s.pending := rfl

@[simp] theorem State.modIn_variant (s : State) (n : Nat) (f : AfIn → AfIn) : (s.modIn n f).variant = s.variant := rfl
@[simp] theorem State.modIn_regs (s : State) (n : Nat) (f : AfIn → AfIn) : (s.modIn n f).regs = s.regs := rfl
@[simp] theorem State.modIn_power (s : State) (n : Nat) (f : AfIn → AfIn) : (s.modIn n f).power = s.power := rfl
@[simp] theorem State.modIn_flow (s : State) (n : Nat) (f : AfIn → AfIn) : (s.modIn n f).flow = s.flow := rfl
@[simp] theorem State.modIn_time (s : State) (n : Nat) (f : AfIn → AfIn) : (s.modIn n f).time = s.time := rfl
@[simp] theorem State.modIn_prot (s : State) (n : Nat) (f : AfIn → AfIn) : (s.modIn n f).prot = s.prot := rfl
@[simp] theorem State.modIn_alarm (s : State) (n : Nat) (f : AfIn → AfIn) : (s.modIn n f).alarm = s.alarm := rfl
@[simp] theorem State.modIn_slots (s : State) (n : Nat) (f : AfIn → AfIn) : (s.modIn n f).slots = s.slots := rfl
@[simp] theorem State.modIn_msix (s : State) (n : Nat) (f : AfIn → AfIn) : (s.modIn n f).msix = s.msix := rfl
@[simp] theorem State.modIn_ft (s : State) (n : Nat) (f : AfIn → AfIn) : (s.modIn n f).ft = s.ft := rfl
@[simp] theorem State.modIn_cmem (s : State) (n : Nat) (f : AfIn → AfIn) : (s.modIn n f).cmem = s.cmem := rfl
@[simp] theorem State.modIn_cm (s : State) (n : Nat) (f : AfIn → AfIn) : (s.modIn n f).cm = s.cm := rfl
@[simp] theorem State.modIn_ca (s : State) (n : Nat) (f : AfIn → AfIn) : (s.modIn n f).ca = s.ca := rfl
@[simp] theorem State.modIn_qu (s : State) (n : Nat) (f : AfIn → AfIn) : (s.modIn n f).qu = s.qu := rfl
@[simp] theorem State.modIn_zp (s : State) (n : Nat) (f : AfIn → AfIn) : (s.modIn n f).zp = s.zp := rfl
@[simp] theorem State.modIn_ztu (s : State) (n : Nat) (f : AfIn → AfIn) : (s.modIn n f).ztu = s.ztu := rfl
@[simp] theorem State.modIn_bt (s : State) (n : Nat) (f : AfIn → AfIn) : (s.modIn n f).bt = s.bt := rfl
@[simp] theorem State.modIn_dc (s : State) (n : Nat) (f : AfIn → AfIn) : (s.modIn n f).dc = s.dc := rfl
@[simp] theorem State.modIn_tg (s : State) (n : Nat) (f : AfIn → AfIn) : (s.modIn n f).tg = s.tg := rfl
@[simp] theorem State.modIn_et (s : State) (n : Nat) (f : AfIn → AfIn) : (s.modIn n f).et = s.et := rfl
@[simp] theorem State.modIn_im (s : State) (n : Nat) (f : AfIn → AfIn) : (s.modIn n f).im = s.im := rfl
@[simp] theorem State.modIn_ce (s : State) (n : Nat) (f : AfIn → AfIn) : (s.modIn n f).ce = s.ce := rfl
@[simp] theorem State.modIn_kl (s : State) (n : Nat) (f : AfIn → AfIn) : (s.modIn n f).kl = s.kl := rfl
@[simp] theorem State.modIn_kh (s : State) (n : Nat) (f : AfIn → AfIn) : (s.modIn n f).kh = s.kh := rfl
@[simp] theorem State.modIn_bd (s : State) (n : Nat) (f : AfIn → AfIn) : (s.modIn n f).bd = s.bd := rfl
@[simp] theorem State.modIn_hs (s : State) (n : Nat) (f : AfIn → AfIn) : (s.modIn n f).hs = s.hs := rfl
@[simp] theorem State.modIn_mport (s : State) (n : Nat) (f : AfIn → AfIn) : (s.modIn n f).mport = s.mport := rfl
@[simp] theorem State.modIn_ds (s : State) (n : Nat) (f : AfIn → AfIn) : (s.modIn n f).ds = s.ds := rfl
@[simp] theorem State.modIn_out (s : State) (n : Nat) (f : AfIn → AfIn) : (s.modIn n f).out = s.out := rfl
@[simp] theorem State.modIn_freshCount (s : State) (n : Nat) (f : AfIn → AfIn) : (s.modIn n f).freshCount = s.freshCount := rfl
@[simp] theorem State.modIn_pending (s : State) (n : Nat) (f : AfIn → AfIn) : (s.modIn n f).pending = s.pending := rfl

@[simp] theorem State.modZp_variant (s : State) (n : Nat) (f : ZpSt → ZpSt) : (s.modZp n f).variant = s.variant := rfl
@[simp] theorem State.modZp_regs (s : State) (n : Nat) (f : ZpSt → ZpSt) : (s.modZp n f).regs = s.regs := rfl
@[simp] theorem State.modZp_power (s : State) (n : Nat) (f : ZpSt → ZpSt) : (s.modZp n f).power = s.power := rfl
@[simp] theorem State.modZp_flow (s : State) (n : Nat) (f : ZpSt → ZpSt) : (s.modZp n f).flow = s.flow := rfl
@[simp] theorem State.modZp_time (s : State) (n : Nat) (f : ZpSt → ZpSt) : (s.modZp n f).time = s.time := rfl
@[simp] theorem State.modZp_prot (s : State) (n : Nat) (f : ZpSt → ZpSt) : (s.modZp n f).prot = s.prot := rfl
@[simp] theorem State.modZp_alarm (s : State) (n : Nat) (f : ZpSt → ZpSt) : (s.modZp n f).alarm = s.alarm := rfl
@[simp] theorem State.modZp_slots (s : State) (n : Nat) (f : ZpSt → ZpSt) : (s.modZp n f).slots = s.slots := rfl
@[simp] theorem State.modZp_msix (s : State) (n : Nat) (f : ZpSt → ZpSt) : (s.modZp n f).msix = s.msix := rfl
@[simp] theorem State.modZp_ft (s : State) (n : Nat) (f : ZpSt → ZpSt) : (s.modZp n f).ft = s.ft := rfl
@[simp] theorem State.modZp_cmem (s : State) (n : Nat) (f : ZpSt → ZpSt) : (s.modZp n f).cmem = s.cmem := rfl
@[simp] theorem State.modZp_cm (s : State) (n : Nat) (f : ZpSt → ZpSt) : (s.modZp n f).cm = s.cm := rfl
@[simp] theorem State.modZp_af (s : State) (n : Nat) (f : ZpSt → ZpSt) : (s.modZp n f).af = s.af := rfl
@[simp] theorem State.modZp_ca (s : State) (n : Nat) (f : ZpSt → ZpSt) : (s.modZp n f).ca = s.ca := rfl
@[simp] theorem State.modZp_qu (s : State) (n : Nat) (f : ZpSt → ZpSt) : (s.modZp n f).qu = s.qu := rfl
@[simp] theorem State.modZp_ztu (s : State) (n : Nat) (f : ZpSt → ZpSt) : (s.modZp n f).ztu = s.ztu := rfl
@[simp] theorem State.modZp_bt (s : State) (n : Nat) (f : ZpSt → ZpSt) : (s.modZp n f).bt = s.bt := rfl
@[simp] theorem State.modZp_dc (s : State) (n : Nat) (f : ZpSt → ZpSt) : (s.modZp n f).dc = s.dc := rfl
@[simp] theorem State.modZp_tg (s : State) (n : Nat) (f : ZpSt → ZpSt) : (s.modZp n f).tg = s.tg := rfl
@[simp] theorem State.modZp_et (s : State) (n : Nat) (f : ZpSt → ZpSt) : (s.modZp n f).et = s.et := rfl
@[simp] theorem State.modZp_im (s : State) (n : Nat) (f : ZpSt → ZpSt) : (s.modZp n f).im = s.im := rfl
@[simp] theorem State.modZp_ce (s : State) (n : Nat) (f : ZpSt → ZpSt) : (s.modZp n f).ce = s.ce := rfl
@[simp] theorem State.modZp_kl (s : State) (n : Nat) (f : ZpSt → ZpSt) : (s.modZp n f).kl = s.kl := rfl
@[simp] theorem State.modZp_kh (s : State) (n : Nat) (f : ZpSt → ZpSt) : (s.modZp n f).kh = s.kh := rfl
@[simp] theorem State.modZp_bd (s : State) (n : Nat) (f : ZpSt → ZpSt) : (s.modZp n f).bd = s.bd := rfl
@[simp] theorem State.modZp_hs (s : State) (n : Nat) (f : ZpSt → ZpSt) : (s.modZp n f).hs = s.hs := rfl
@[simp] theorem State.modZp_mport (s : State) (n : Nat) (f : ZpSt → ZpSt) : (s.modZp n f).mport = s.mport := rfl
@[simp] theorem State.modZp_ds (s : State) (n : Nat) (f : ZpSt → ZpSt) : (s.modZp n f).ds = s.ds := rfl
@[simp] theorem State.modZp_out (s : State) (n : Nat) (f : ZpSt → ZpSt) : (s.modZp n f).out = s.out := rfl
@[simp] theorem State.modZp_freshCount (s : State) (n : Nat) (f : ZpSt → ZpSt) : (s.modZp n f).freshCount = s.freshCount := rfl
@[simp] theorem State.modZp_pending (s : State) (n : Nat) (f : ZpSt → ZpSt) : (s.modZp n f).pending = s.pending := rfl

@[simp] theorem State.modBt_variant (s : State) (n : Nat) (f : BtSt → BtSt) : (s.modBt n f).variant = s.variant := rfl
@[simp] theorem State.modBt_regs (s : State) (n : Nat) (f : BtSt → BtSt) : (s.modBt n f).regs = s.regs := rfl
@[simp] theorem State.modBt_power (s : State) (n : Nat) (f : BtSt → BtSt) : (s.modBt n f).power = s.power := rfl
@[simp] theorem State.modBt_flow (s : State) (n : Nat) (f : BtSt → BtSt) : (s.modBt n f).flow = s.flow := rfl
@[simp] theorem State.modBt_time (s : State) (n : Nat) (f : BtSt → BtSt) : (s.modBt n f).time = s.time := rfl
@[simp] theorem State.modBt_prot (s : State) (n : Nat) (f : BtSt → BtSt) : (s.modBt n f).prot = s.prot := rfl
@[simp] theorem State.modBt_alarm (s : State) (n : Nat) (f : BtSt → BtSt) : (s.modBt n f).alarm = s.alarm := rfl
@[simp] theorem State.modBt_slots (s : State) (n : Nat) (f : BtSt → BtSt) : (s.modBt n f).slots = s.slots := rfl
@[simp] theorem State.modBt_msix (s : State) (n : Nat) (f : BtSt → BtSt) : (s.modBt n f).msix = s.msix := rfl
@[simp] theorem State.modBt_ft (s : State) (n : Nat) (f : BtSt → BtSt) : (s.modBt n f).ft = s.ft := rfl
@[simp] theorem State.modBt_cmem (s : State) (n : Nat) (f : BtSt → BtSt) : (s.modBt n f).cmem = s.cmem := rfl
@[simp] theorem State.modBt_cm (s : State) (n : Nat) (f : BtSt → BtSt) : (s.modBt n f).cm = s.cm := rfl
@[simp] theorem State.modBt_af (s : State) (n : Nat) (f : BtSt → BtSt) : (s.modBt n f).af = s.af := rfl
@[simp] theorem State.modBt_ca (s : State) (n : Nat) (f : BtSt → BtSt) : (s.modBt n f).ca = s.ca := rfl
@[simp] theorem State.modBt_qu (s : State) (n : Nat) (f : BtSt → BtSt) : (s.modBt n f).qu = s.qu := rfl
@[simp] theorem State.modBt_zp (s : State) (n : Nat) (f : BtSt → BtSt) : (s.modBt n f).zp = s.zp := rfl
@[simp] theorem State.modBt_ztu (s : State) (n : Nat) (f : BtSt → BtSt) : (s.modBt n f).ztu = s.ztu := rfl
@[simp] theorem State.modBt_dc (s : State) (n : Nat) (f : BtSt → BtSt) : (s.modBt n f).dc = s.dc := rfl
@[simp] theorem State.modBt_tg (s : State) (n : Nat) (f : BtSt → BtSt) : (s.modBt n f).tg = s.tg := rfl
@[simp] theorem State.modBt_et (s : State) (n : Nat) (f : BtSt → BtSt) : (s.modBt n f).et = s.et := rfl
@[simp] theorem State.modBt_im (s : State) (n : Nat) (f : BtSt → BtSt) : (s.modBt n f).im = s.im := rfl
@[simp] theorem State.modBt_ce (s : State) (n : Nat) (f : BtSt → BtSt) : (s.modBt n f).ce = s.ce := rfl
@[simp] theorem State.modBt_kl (s : State) (n : Nat) (f : BtSt → BtSt) : (s.modBt n f).kl = s.kl := rfl
@[simp] theorem State.modBt_kh (s : State) (n : Nat) (f : BtSt → BtSt) : (s.modBt n f).kh = s.kh := rfl
@[simp] theorem State.modBt_bd (s : State) (n : Nat) (f : BtSt → BtSt) : (s.modBt n f).bd = s.bd := rfl
@[simp] theorem State.modBt_hs (s : State) (n : Nat) (f : BtSt → BtSt) : (s.modBt n f).hs = s.hs := rfl
@[simp] theorem State.modBt_mport (s : State) (n : Nat) (f : BtSt → BtSt) : (s.modBt n f).mport = s.mport := rfl
@[simp] theorem State.modBt_ds (s : State) (n : Nat) (f : BtSt → BtSt) : (s.modBt n f).ds = s.ds := rfl
@[simp] theorem State.modBt_out (s : State) (n : Nat) (f : BtSt → BtSt) : (s.modBt n f).out = s.out := rfl
@[simp] theorem State.modBt_freshCount (s : State) (n : Nat) (f : BtSt → BtSt) : (s.modBt n f).freshCount = s.freshCount := rfl
@[simp] theorem State.modBt_pending (s : State) (n : Nat) (f : BtSt → BtSt) : (s.modBt n f).pending = s.pending := rfl

@[simp] theorem State.modHead_variant (s : State) (n : Nat) (f : DsHead → DsHead) : (s.modHead n f).variant = s.variant := rfl
@[simp] theorem State.modHead_regs (s : State) (n : Nat) (f : DsHead → DsHead) : (s.modHead n f).regs = s.regs := rfl
@[simp] theorem State.modHead_power (s : State) (n : Nat) (f : DsHead → DsHead) : (s.modHead n f).power = s.power := rfl
@[simp] theorem State.modHead_flow (s : State) (n : Nat) (f : DsHead → DsHead) : (s.modHead n f).flow = s.flow := rfl
@[simp] theorem State.modHead_time (s : State) (n : Nat) (f : DsHead → DsHead) : (s.modHead n f).time = s.time := rfl
@[simp] theorem State.modHead_prot (s : State) (n : Nat) (f : DsHead → DsHead) : (s.modHead n f).prot = s.prot := rfl
@[simp] theorem State.modHead_alarm (s : State) (n : Nat) (f : DsHead → DsHead) : (s.modHead n f).alarm = s.alarm := rfl
@[simp] theorem State.modHead_slots (s : State) (n : Nat) (f : DsHead → DsHead) : (s.modHead n f).slots = s.slots := rfl
@[simp] theorem State.modHead_msix (s : State) (n : Nat) (f : DsHead → DsHead) : (s.modHead n f).msix = s.msix := rfl
@[simp] theorem State.modHead_ft (s : State) (n : Nat) (f : DsHead → DsHead) : (s.modHead n f).ft = s.ft := rfl
@[simp] theorem State.modHead_cmem (s : State) (n : Nat) (f : DsHead → DsHead) : (s.modHead n f).cmem = s.cmem := rfl
@[simp] theorem State.modHead_cm (s : State) (n : Nat) (f : DsHead → DsHead) : (s.modHead n f).cm = s.cm := rfl
@[simp] theorem State.modHead_af (s : State) (n : Nat) (f : DsHead → DsHead) : (s.modHead n f).af = s.af := rfl
@[simp] theorem State.modHead_ca (s : State) (n : Nat) (f : DsHead → DsHead) : (s.modHead n f).ca = s.ca := rfl
@[simp] theorem State.modHead_qu (s : State) (n : Nat) (f : DsHead → DsHead) : (s.modHead n f).qu = s.qu := rfl
@[simp] theorem State.modHead_zp (s : State) (n : Nat) (f : DsHead → DsHead) : (s.modHead n f).zp = s.zp := rfl
@[simp] theorem State.modHead_ztu (s : State) (n : Nat) (f : DsHead → DsHead) : (s.modHead n f).ztu = s.ztu := rfl
@[simp] theorem State.modHead_bt (s : State) (n : Nat) (f : DsHead → DsHead) : (s.modHead n f).bt = s.bt := rfl
@[simp] theorem State.modHead_dc (s : State) (n : Nat) (f : DsHead → DsHead) : (s.modHead n f).dc = s.dc := rfl
@[simp] theorem State.modHead_tg (s : State) (n : Nat) (f : DsHead → DsHead) : (s.modHead n f).tg = s.tg := rfl
@[simp] theorem State.modHead_et (s : State) (n : Nat) (f : DsHead → DsHead) : (s.modHead n f).et = s.et := rfl
@[simp] theorem State.modHead_im (s : State) (n : Nat) (f : DsHead → DsHead) : (s.modHead n f).im = s.im := rfl
@[simp] theorem State.modHead_ce (s : State) (n : Nat) (f : DsHead → DsHead) : (s.modHead n f).ce = s.ce := rfl
@[simp] theorem State.modHead_kl (s : State) (n : Nat) (f : DsHead → DsHead) : (s.modHead n f).kl = s.kl := rfl
@[simp] theorem State.modHead_kh (s : State) (n : Nat) (f : DsHead → DsHead) : (s.modHead n f).kh = s.kh := rfl
@[simp] theorem State.modHead_bd (s : State) (n : Nat) (f : DsHead → DsHead) : (s.modHead n f).bd = s.bd := rfl
@[simp] theorem State.modHead_hs (s : State) (n : Nat) (f : DsHead → DsHead) : (s.modHead n f).hs = s.hs := rfl
@[simp] theorem State.modHead_mport (s : State) (n : Nat) (f : DsHead → DsHead) : (s.modHead n f).mport = s.mport := rfl
@[simp] theorem State.modHead_out (s : State) (n : Nat) (f : DsHead → DsHead) : (s.modHead n f).out = s.out := rfl
@[simp] theorem State.modHead_freshCount (s : State) (n : Nat) (f : DsHead → DsHead) : (s.modHead n f).freshCount = s.freshCount := rfl
@[simp] theorem State.modHead_pending (s : State) (n : Nat) (f : DsHead → DsHead) : (s.modHead n f).pending = s.pending := rfl

@[simp] theorem State.emit_out (s : State) (e : Emission) : (s.emit e).out = s.out ++ [e] := rfl
@[simp] theorem State.emit_reg (s : State) (e : Emission) (a : Nat) : (s.emit e).reg a = s.reg a := rfl
@[simp] theorem State.emit_get (s : State) (e : Emission) (f : Fld) : (s.emit e).get f = s.get f := rfl
@[simp] theorem State.useFree_reg (s : State) (a : Nat) : s.useFree.reg a = s.reg a := rfl
@[simp] theorem State.useFree_get (s : State) (f : Fld) : s.useFree.get f = s.get f := rfl
@[simp] theorem State.modTime_reg (s : State) (f : TimeSt → TimeSt) (a : Nat) : (s.modTime f).reg a = s.reg a := rfl
@[simp] theorem State.modTime_get (s : State) (f : TimeSt → TimeSt) (g : Fld) : (s.modTime f).get g = s.get g := rfl
@[simp] theorem State.modTime_time (s : State) (f : TimeSt → TimeSt) : (s.modTime f).time = f s.time := rfl
@[simp] theorem State.modIm_reg (s : State) (f : ImSt → ImSt) (a : Nat) : (s.modIm f).reg a = s.reg a := rfl
@[simp] theorem State.modIm_get (s : State) (f : ImSt → ImSt) (g : Fld) : (s.modIm f).get g = s.get g := rfl
@[simp] theorem State.modIm_im (s : State) (f : ImSt → ImSt) : (s.modIm f).im = f s.im := rfl
@[simp] theorem State.modKl_reg (s : State) (f : KlSt → KlSt) (a : Nat) : (s.modKl f).reg a = s.reg a := rfl
@[simp] theorem State.modKl_get (s : State) (f : KlSt → KlSt) (g : Fld) : (s.modKl f).get g = s.get g := rfl
@[simp] theorem State.modKl_kl (s : State) (f : KlSt → KlSt) : (s.modKl f).kl = f s.kl := rfl
@[simp] theorem State.modCe_reg (s : State) (f : CeSt → CeSt) (a : Nat) : (s.modCe f).reg a = s.reg a := rfl
@[simp] theorem State.modCe_get (s : State) (f : CeSt → CeSt) (g : Fld) : (s.modCe f).get g = s.get g := rfl
@[simp] theorem State.modCe_ce (s : State) (f : CeSt → CeSt) : (s.modCe f).ce = f s.ce := rfl
@[simp] theorem State.modKh_reg (s : State) (f : KhSt → KhSt) (a : Nat) : (s.modKh f).reg a = s.reg a := rfl
@[simp] theorem State.modKh_get (s : State) (f : KhSt → KhSt) (g : Fld) : (s.modKh f).get g = s.get g := rfl
@[simp] theorem State.modKh_kh (s : State) (f : KhSt → KhSt) : (s.modKh f).kh = f s.kh := rfl
@[simp] theorem State.modHs_reg (s : State) (f : HsSt → HsSt) (a : Nat) : (s.modHs f).reg a = s.reg a := rfl
@[simp] theorem State.modHs_get (s : State) (f : HsSt → HsSt) (g : Fld) : (s.modHs f).get g = s.get g := rfl
@[simp] theorem State.modHs_hs (s : State) (f : HsSt → HsSt) : (s.modHs f).hs = f s.hs := rfl
@[simp] theorem State.modBd_reg (s : State) (f : BdSt → BdSt) (a : Nat) : (s.modBd f).reg a = s.reg a := rfl
@[simp] theorem State.modBd_get (s : State) (f : BdSt → BdSt) (g : Fld) : (s.modBd f).get g = s.get g := rfl
@[simp] theorem State.modBd_bd (s : State) (f : BdSt → BdSt) : (s.modBd f).bd = f s.bd := rfl
@[simp] theorem State.modIn_reg (s : State) (n : Nat) (f : AfIn → AfIn) (a : Nat) : (s.modIn n f).reg a = s.reg a := rfl
@[simp] theorem State.modIn_get (s : State) (n : Nat) (f : AfIn → AfIn) (g : Fld) : (s.modIn n f).get g = s.get g := rfl
@[simp] theorem State.modZp_reg (s : State) (n : Nat) (f : ZpSt → ZpSt) (a : Nat) : (s.modZp n f).reg a = s.reg a := rfl
@[simp] theorem State.modZp_get (s : State) (n : Nat) (f : ZpSt → ZpSt) (g : Fld) : (s.modZp n f).get g = s.get g := rfl
@[simp] theorem State.modBt_reg (s : State) (n : Nat) (f : BtSt → BtSt) (a : Nat) : (s.modBt n f).reg a = s.reg a := rfl
@[simp] theorem State.modBt_get (s : State) (n : Nat) (f : BtSt → BtSt) (g : Fld) : (s.modBt n f).get g = s.get g := rfl
@[simp] theorem State.modHead_reg (s : State) (n : Nat) (f : DsHead → DsHead) (a : Nat) : (s.modHead n f).reg a = s.reg a := rfl
@[simp] theorem State.modHead_get (s : State) (n : Nat) (f : DsHead → DsHead) (g : Fld) : (s.modHead n f).get g = s.get g := rfl

end Sys2Proof.Machine
end

