-- ==== Sys2Proof/WellFormed.lean ====
section
/-! DEFINITION. WellFormed.lean: which operands of a command a sender can give. The types bound most of them; these checks bound
the rest (assumption 1). No meaning relies on them: an ill-formed command has the effect its meaning computes. -/

namespace Sys2Proof

/-- A capture-memory request carries the data of its length when it writes, and none when it reads. -/
def wfArrival (r : CmArrival) : Bool := if r.write then r.data.length = r.len else r.data.isEmpty

/-- The first stage exists: inputs are 0 to 15. -/
def wfStage : FirstStage → Bool
  | .input n => decide (n < 16)
  | .cb => true
  | .et => true

/-- A phase error fits the 16 bits of SYN_STATUS.PHASE_ERR. -/
def wfPhase (e : Int) : Bool := decide (-32768 ≤ e) && decide (e ≤ 32767)

/-- The operands are ones a sender can give. -/
def Instr.wf : Instr → Bool
  | .powerGood => true
  | .supplyOutOfRange => true
  | .powerFail => true
  | .fuseReadDone => true
  | .loaderSlotChoice .. => true
  | .startBistDone .. => true
  | .setupFirstPass => true
  | .dramTrainingDone found => decide (found.length ≤ 16)
  | .flashTrainingDone fs _ _ _ _ _ => decide (fs.length ≤ 32)
  | .fabricTrainingDone => true
  | .regionLoadDone .. => true
  | .setupSecondPass => true
  | .stateReqRun .. => true
  | .stateReqWatch .. => true
  | .stateReqSafe .. => true
  | .stateReqReset .. => true
  | .chipLevelFault .. => true
  | .registerWrite .. => true
  | .rcRegisterRead .. => true
  | .counterSnapshotRead .. => true
  | .devtimeSnapshot .. => true
  | .markerInsert stage _ _ _ => wfStage stage
  | .markerEpoch _ _ m => m.type = .epoch
  | .markerTimeStep m => m.type = .timeStep
  | .markerSyncResetNotch .. => true
  | .markerSyncResetZoom .. => true
  | .markerSyncResetBroad .. => true
  | .markerCoefSwapNotch .. => true
  | .markerCoefSwapZoom .. => true
  | .markerGainSwitch .. => true
  | .markerCalRampInput .. => true
  | .markerCalRampBeam .. => true
  | .exitFrameReceive .. => true
  | .outputBufferFull .. => true
  | .gapRecordEmit .. => true
  | .synLockDeclared _ err _ _ => wfPhase err
  | .synLockLost _ err => wfPhase err
  | .synEnable .. => true
  | .synLockWrite .. => true
  | .synRampGo .. => true
  | .synRampSegmentEnd .. => true
  | .dcoCeilUpdate .. => true
  | .refCtlWrite .. => true
  | .refQualified .. => true
  | .refLost .. => true
  | .coastSecond => true
  | .coastExhausted => true
  | .exhaustedClear .. => true
  | .slewEnd => true
  | .timeStepExecute => true
  | .xoCorrection .. => true
  | .xoAgeLearn .. => true
  | .xoAgeWrite .. => true
  | .timeSetArm .. => true
  | .timeLoad => true
  | .ppsEdge .. => true
  | .ppsTimeout => true
  | .ppsOutRise => true
  | .ppsOutFall => true
  | .syncOutWrite .. => true
  | .syncOutEdge .. => true
  | .etCtlWrite .. => true
  | .etEdge .. => true
  | .etStuckTimeout .. => true
  | .ivEnable .. => true
  | .ivWindowExpire .. => true
  | .freqGateBoundary .. => true
  | .etQw0Read .. => true
  | .etQw3Read .. => true
  | .etQueueSpaceReturn .. => true
  | .etFrameClose .. => true
  | .etBlindEnd .. => true
  | .afInputEnable .. => true
  | .afInputSettled .. => true
  | .afInputDisable .. => true
  | .afSourceChange .. => true
  | .afSkewWrite .. => true
  | .afRawFrameClose _ xs _ => xs.all fun x => decide (-2048 ≤ x) && decide (x ≤ 2047)
  | .over6Trip .. => true
  | .notchSwapArm .. => true
  | .syscalGo .. => true
  | .syscalMeasDone .. => true
  | .syscalApply .. => true
  | .syscalRampStep .. => true
  | .afToneCtlWrite .. => true
  | .zpEnable .. => true
  | .zpDisable .. => true
  | .zpSwapArm .. => true
  | .zpSyncArm .. => true
  | .zpFadeEnd .. => true
  | .zpInputGap .. => true
  | .zpFrameClose .. => true
  | .ztuEnable .. => true
  | .ztuTransformDone .. => true
  | .btEnable .. => true
  | .btDisable .. => true
  | .btEqArm .. => true
  | .btSyncArm .. => true
  | .btEqFadeEnd .. => true
  | .btInputGap .. => true
  | .btSpectrumDone .. => true
  | .btEqDataAccess .. => true
  | .btWinDataAccess .. => true
  | .pipelineCheckFail .. => true
  | .detectionSpectrum .. => true
  | .dcIntFlush .. => true
  | .dcIntEnable .. => true
  | .dcSourceDisabled .. => true
  | .dcSourceGap .. => true
  | .dcPlEnable .. => true
  | .dcPlClear .. => true
  | .densSnapshot .. => true
  | .dcMaskDataAccess .. => true
  | .tgUnitEnable .. => true
  | .tgUnitDisable .. => true
  | .tgUnitArm .. => true
  | .tgLevelCrossing .. => true
  | .tgMaskEval .. => true
  | .tgDensityOverEval .. => true
  | .tgBandEval .. => true
  | .tgDriftStepEval .. => true
  | .tgDriftClusterEnd .. => true
  | .tgHoldoffEnd .. => true
  | .tgFabricReceive .. => true
  | .tgHostFire .. => true
  | .tgHostDue => true
  | .tgSeqHoldRelease .. => true
  | .tgSeqTimeout .. => true
  | .tgSourceGap .. => true
  | .tgQw0Read .. => true
  | .tgQw7Read .. => true
  | .tgQueueSpaceReturn .. => true
  | .tgFrameClose .. => true
  | .quVrEnable .. => true
  | .quRingWriteLoss .. => true
  | .quGroupEnable .. => true
  | .quGroupDisable .. => true
  | .quTriggerOffer .. => true
  | .quCopyStart .. => true
  | .quQuireClose .. => true
  | .quRelease .. => true
  | .quExportSlice .. => true
  | .ceXsEnable .. => true
  | .ceBmEnable .. => true
  | .ceSpectrumArrive .. => true
  | .ceAlignTimeout => true
  | .ceDumpTimeout => true
  | .ceChildRecord .. => true
  | .ceSlotDeadline .. => true
  | .ceBmArm .. => true
  | .ceBmRampStep .. => true
  | .ceWtDataAccess .. => true
  | .klPortEnable .. => true
  | .klPortUp .. => true
  | .klPortDown .. => true
  | .klCodewordReceive .. => true
  | .klRecordReceive .. => true
  | .klRecordAbort .. => true
  | .klAlignSend .. => true
  | .klSbAlign _ _ role _ _ _ => decide (role < 68)
  | .klSbSwap _ role spare _ => decide (role < 68) && decide (spare < 68)
  | .klSbAck _ role _ => decide (role < 68)
  | .klSbNarrow _ _ roles _ => roles.all fun r => decide (r < 68)
  | .klLaneFail .. => true
  | .klSpareSwitch .. => true
  | .klSpareEnable .. => true
  | .klFlowOn .. => true
  | .klTimeSend .. => true
  | .klSbTime .. => true
  | .klTtCal .. => true
  | .klTtCalDone .. => true
  | .klExArp .. => true
  | .klExNeighborSolicit .. => true
  | .klExRxDrop .. => true
  | .klExRecordSend .. => true
  | .khWaggleSend => true
  | .khWaggleReceive .. => true
  | .khNeighbourLost .. => true
  | .khLsaSend => true
  | .khLsaReceive .. => true
  | .khSwarmsReceive .. => true
  | .khRootTimeout => true
  | .khRootTakeover => true
  | .khRouteInstall => true
  | .khAddrReq .. => true
  | .khAddrGrant .. => true
  | .khScOn .. => true
  | .khAnnounce .. => true
  | .khAnswer .. => true
  | .khCreditSend .. => true
  | .khCreditReceive .. => true
  | .khRecordStart .. => true
  | .khRecordDeliver .. => true
  | .khMgGo .. => true
  | .khMreq .. => true
  | .khMrsp .. => true
  | .khMgTimeout => true
  | .khNodeQuery .. => true
  | .cmRequest r => wfArrival r
  | .cmRefreshDue .. => true
  | .cmMr4Poll .. => true
  | .cmRowIdleClose _ bank => decide (bank < 32)
  | .cmSrEntry .. => true
  | .cmPatrolRead .. => true
  | .cmWckOscCheck .. => true
  | .cmInitDone => true
  | .bdVsOpen .. => true
  | .bdVsClose .. => true
  | .bdRecordReceive .. => true
  | .bdProgramDone .. => true
  | .bdOperationFail _ _ k => decide (k < 65536)
  | .bdLunTimeout .. => true
  | .bdSectionFull .. => true
  | .bdEraseDone .. => true
  | .bdCheckpoint => true
  | .bdCatDel .. => true
  | .bdPatrolRead .. => true
  | .bdAgeTick => true
  | .bdFlashTempWrite .. => true
  | .bdFlashTempTimeout => true
  | .bdRelocateDone .. => true
  | .bdRebuildDone .. => true
  | .bdSpineSnapshot .. => true
  | .bdRecovery .. => true
  | .bdFormat .. => true
  | .bdQuiesce .. => true
  | .bdRsGo .. => true
  | .bdRsStop .. => true
  | .bdLeafRead .. => true
  | .pcieLinkUp .. => true
  | .pePerst => true
  | .pcieFunctionReset => true
  | .windowMRequest write _ len bs => !write || decide (bs.length = len.val)
  | .windowDRead .. => true
  | .windowDWrite _ bs => decide (bs.length ≤ 4096)
  | .dmaEnable .. => true
  | .dmaDisable .. => true
  | .dmaGo .. => true
  | .dmaAbort .. => true
  | .dmaDescriptorFetched .. => true
  | .dmaRequestCompletion .. => true
  | .dmaDescriptorConfirmed .. => true
  | .dmaSinkRecord .. => true
  | .dmaSinkFlush .. => true
  | .dmaCompletionRoom .. => true
  | .hqEnable .. => true
  | .hqLoRead .. => true
  | .hqHiRead .. => true
  | .hqCmdMark .. => true
  | .hqCmdRewind .. => true
  | .hqCmdRelease .. => true
  | .hqLoWrite .. => true
  | .hqHiWrite .. => true
  | .hqDescStart .. => true
  | .hqMgmtExecute .. => true
  | .msixUnmask .. => true
  | .dsHeadEnable .. => true
  | .dsHpdRise .. => true
  | .dsHpdFall .. => true
  | .dsIrqHpd .. => true
  | .dsTrainRetry .. => true
  | .dsAuxGo .. => true
  | .dsAuxReply _ _ data => decide (data.length ≤ 16)
  | .dsAuxTimeout .. => true
  | .dsFrameStart .. => true
  | .dsUnderrun .. => true
  | .dsDensSnapshot .. => true
  | .dsSpecIntegration .. => true
  | .dsPalDataAccess .. => true
  | .biOpen .. => true
  | .biEraseDone => true
  | .biDataWrite .. => true
  | .biCommit .. => true
  | .biCheckDone => true
  | .biClose .. => true
  | .biSessionExpire => true
  | .biBoot .. => true
  | .biHoldNext .. => true
  | .biFuseBlow .. => true
  | .biFuseRevoke .. => true
  | .i2cTransaction .. => true
  | .jtagMgmtAccess .. => true
  | .uartRequest .. => true
  | .protStageWrite .. => true
  | .protCommit .. => true
  | .protDiscard .. => true
  | .protStageExpire => true
  | .alarmHoldExpire .. => true
  | .alarmClear .. => true
  | .caGo .. => true
  | .caInputMeasDone .. => true
  | .caInterpolatorExchange _ widths _ => widths.length = 64
  | .caRunStore syn => syn.length = 16
  | .caRampStep .. => true
  | .caTempEval .. => true
  | .sramCorrection .. => true
  | .blockCheckFail .. => true
  | .blockTakeoverDone .. => true
  | .regionPollMiss .. => true
  | .patrolTestStart .. => true
  | .patrolTestDone .. => true
  | .ftReadmit .. => true
  | .ftReadmitDone .. => true
  | .ftFuseBlow .. => true
  | .ftTempRead .. => true
  | .ftThermalAccount => true
  | .dmaCompletionTimeout .. => true
  | .dsLinkTrainingDone .. => true
  | .biPageProgramDone .. => true
  | .freqGateEmptyEnd .. => true

end Sys2Proof
end

