-- ==== Sys2Proof/Tests/Slice0.lean ====
section
/-! SUPPORT. Tests/Slice0.lean: small checks of the model: what reset leaves, ill-formed commands refused by the well-formedness
checks, worked examples of the spec, and for every obligation with hypotheses a state and operands that meet them. -/

set_option Elab.async false

namespace Sys2Proof.Machine

theorem test_reset_canonical : State.reset.canonical = true := by decide +kernel

/-! ### Ill-formed commands -/

theorem test_illformed_dramTrainingDone : Instr.wf (.dramTrainingDone (List.replicate 17 none)) = false := by decide +kernel
theorem test_illformed_flashTrainingDone : Instr.wf (.flashTrainingDone (List.replicate 33 ⟨0, true, [], []⟩) 1 1 1 true true) = false := by decide +kernel
theorem test_illformed_markerInsert : Instr.wf (.markerInsert (.input 16) 0 1 0) = false := by decide +kernel
theorem test_illformed_markerEpoch : Instr.wf (.markerEpoch 2 0 ⟨.syncReset, false, 0xFFFF, 0, 0, 0, 0⟩) = false := by decide +kernel
theorem test_illformed_markerTimeStep : Instr.wf (.markerTimeStep ⟨.epoch, false, 0xFFFF, 0, 0, 0, 0⟩) = false := by decide +kernel
theorem test_illformed_synLockDeclared : Instr.wf (.synLockDeclared 1 32768 0 0) = false := by decide +kernel
theorem test_illformed_synLockLost : Instr.wf (.synLockLost 1 (-32769)) = false := by decide +kernel
theorem test_illformed_afRawFrameClose : Instr.wf (.afRawFrameClose 0 [2048] {}) = false := by decide +kernel
theorem test_illformed_klSbAlign : Instr.wf (.klSbAlign 0 0 68 0 0 0) = false := by decide +kernel
theorem test_illformed_klSbSwap : Instr.wf (.klSbSwap 0 0 68 0) = false := by decide +kernel
theorem test_illformed_klSbAck : Instr.wf (.klSbAck 0 68 0) = false := by decide +kernel
theorem test_illformed_klSbNarrow : Instr.wf (.klSbNarrow 0 0 [1, 68] 0) = false := by decide +kernel
theorem test_illformed_cmRequest : Instr.wf (.cmRequest ⟨0, 0, true, false, 0, 2, [1], []⟩) = false := by decide +kernel
theorem test_illformed_cmRequestRead : Instr.wf (.cmRequest ⟨0, 0, false, false, 0, 1, [1], []⟩) = false := by decide +kernel
theorem test_illformed_cmRowIdleClose : Instr.wf (.cmRowIdleClose 0 32) = false := by decide +kernel
theorem test_illformed_bdOperationFail : Instr.wf (.bdOperationFail 0 0 65536) = false := by decide +kernel
theorem test_illformed_windowMRequest : Instr.wf (.windowMRequest true 0 4 [1, 2]) = false := by decide +kernel
theorem test_illformed_windowDWrite : Instr.wf (.windowDWrite 0 (List.replicate 4097 0)) = false := by decide +kernel
theorem test_illformed_dsAuxReply : Instr.wf (.dsAuxReply 0 0 (List.replicate 17 0)) = false := by decide +kernel
theorem test_illformed_caInterpolatorExchange : Instr.wf (.caInterpolatorExchange 0 [1] 0) = false := by decide +kernel
theorem test_illformed_caRunStore : Instr.wf (.caRunStore []) = false := by decide +kernel

/-! ### States the witnesses use -/

/-- A state that is as reset but for the registers listed (addresses rising). -/
def withRegs (l : KV Word) : State := { regs := l }

/-- A device in state `d` with nothing else set. -/
def devIn (d : Nat) : State := withRegs [(0x100, BitVec.ofNat 32 d)]

/-- Registers of a device in RUN: every region runs, every synthesiser is locked and clocks its island. -/
def runRegs : KV Word := [
  (0x100, 0x45#32), (0x100004, 5#32), (0x100108, 1#32), (0x100148, 1#32), (0x200004, 5#32),
  (0x200108, 1#32), (0x300004, 5#32), (0x300108, 1#32), (0x400004, 5#32), (0x400108, 1#32),
  (0x500004, 5#32), (0x500108, 1#32), (0x600004, 5#32), (0x600108, 1#32), (0x700004, 5#32),
  (0x700108, 1#32), (0x800004, 5#32), (0x800108, 1#32), (0x900004, 5#32), (0x900108, 1#32),
  (0xa00004, 5#32), (0xa00108, 1#32), (0xb00004, 5#32), (0xb00108, 1#32), (0xc00004, 5#32),
  (0xc00108, 1#32), (0xd00004, 5#32), (0xd00108, 1#32), (0xe00004, 5#32), (0xe00108, 1#32),
  (0xf00004, 5#32), (0xf00108, 1#32)]

/-- A device in RUN, its time started at 100 s. -/
def runState : State := { regs := runRegs, time := { started := true, now := atSec 100 } }

/-- A state with one more register set. -/
def setR (s : State) (a v : Nat) : State := { s with regs := kvPut s.regs a (BitVec.ofNat 32 v) }

/-- An image whose section table has one entry, a program of a signal-processing region. -/
def progImage : List Byte :=
  (List.replicate 7 0 ++ [1]) ++ List.replicate 248 0 ++ (0x11 :: List.replicate 59 0)

/-- An image whose section table has one entry, a setup record of mode LENIENT with one entry, at offset 0. -/
def setupImage : List Byte :=
  (List.replicate 7 0 ++ [1]) ++ List.replicate 248 0 ++ [0x20, 0, 0, 0, 0x3C, 1, 0, 0, 28, 0, 0, 0] ++ List.replicate 48 0 ++
    [0x53, 0x52, 1, 0, 1, 0, 0, 0, 1, 0, 0, 0, 0, 0, 0, 0] ++ List.replicate 12 0

/-- Index of the next sample of `afRun`. -/
def afNext : Int := 1279999999000

/-- A device in RUN with input 3 enabled, its RAW stream open, its samples delivered up to 1,000 before the present. -/
def afRun : State :=
  { setR (setR runState (AF_IN_CTL 3) 1) (AF_IN_STATUS 3) 1 with
    af := [(3, { runs := true, ranBefore := true, lastSample := instTime 12800000000 (afNext - 1) })]
    flow := { streams := [(3, { opened := true })] } }

/-- The same with the run of samples at its end: 16 samples are left. -/
def afEnd : State :=
  { afRun with af := [(3, { runs := true, ranBefore := true, lastSample := instTime 12800000000 (afNext - 1), endAt := some (instTime 12800000000 (afNext + 16)) })] }

/-- A complete FULL measurement of amplitude 0.68 of full scale. -/
def fullMeas : SysMeas := ⟨true, 0, 0, 16777216, 0, 13292279957849158729038070602803445760000, 0, 0, 0⟩

/-- A device in RUN with zoom path 13 enabled and its stream open, D = 1, one tap. -/
def zoomRun : State :=
  { setR (setR runState (ZP_CTL 13) 1) (ZP_CFG 13) 0x10001 with flow := { streams := [(0x100D, { opened := true, seq := 9 })] } }

/-- A device in RUN with the broad transform of input 3 enabled and its stream open. -/
def btRun : State :=
  { setR runState (BT_CTL 3) 1 with flow := { streams := [(0x2003, { opened := true, seq := 9 })] } }

/-- A device in RUN whose capture memory serves: 4,096 MiB. -/
def memState : State := { setR (setR runState CM_STATUS 0x1) CM_SIZE_MIB 4096 with cm := { usable := true } }

/-- A device in RUN with address 7 in the hive, its device port 3 UP. -/
def hiveState : State := { setR (setR (setR (setR runState KH_CFG 1) KH_ADDR 7) (KL_PORT_CTL 13 3) 1) (KL_PORT_STATUS 13 3) 3 with
  kl := { ports := [(3, { map := [5, 6] })] } }

/-- A neighbour at address 9 that follows the root of serial 5. -/
def testWaggle : KhWaggle := ⟨9, 5, 4, 0, 2, 16, 5, 9, 2, 16, 0, 1⟩

/-- The same with context 5 set up for its own trigger stream 8003h to address 11, routed by port 3. -/
def ctxState : State := { setR (setR hiveState (KH_SC_KEY 5) 0x8003) (KH_SC_DEST 5) 0x400000B with kh := { routes := [(11, ⟨3, 2, 20⟩)] } }

/-- The same set up for the stream of zoom path 3. -/
def zoomCtx : State := setR ctxState (KH_SC_KEY 5) 0x1003

/-- A record of the trigger stream 8003h of address 9. -/
def testRec : YRec := ⟨8, 0x8003, 9, 7, 77, 0, 0x0A00, 0, 0, 0, 0, 0, List.replicate 32 9⟩

/-- A device in RUN with two trained flash channels of one LUN of 2 units, mounted; slot 3 has one front and a key. -/
def bdState : State :=
  { setR (setR (setR (setR runState BD_STATUS 0x20001) (BD_VS_CFG 3) 1) (BD_VS_KEYS 3) 1) (BD_VS_KEY 3 0) 0x98003 with
    bd := {
      begun := true
      chans := [(0, { trained := true, luns := [{ target := 0 }, { target := 0 }] }),
        (1, { trained := true, luns := [{ target := 0 }, { target := 0 }] })]
      blocks := 2
      pages := 1
      rated := 3000
      spine0 := { valid := true }
      spine1 := { valid := true } } }

/-- The same with volume 5 recording in slot 3. -/
def volState : State :=
  { setR bdState (BD_VS_CTL 3) 0x40 with bd := { bdState.bd with
    secs := [(0, { vol := some 5, members := [⟨0, 0, 0, false⟩, ⟨1, 0, 0, false⟩] })], nextSec := 1, nextVol := 6
    vols := [(5, { state := .recording, keys := [(9, 0x8003)], secs := [0], durable := 4, bytes := 70000 })]
    slots := [(3, { vol := 5, fronts := [{ sec := 0, pos := 0, rounds := [⟨4, 12, 0, 0, [0, 1], atSec 100⟩] }] })] } }

/-- The same bindery with volume 5 closed, its section to be relocated with one retired member, and session 2 at leaf 1. -/
def readState : State :=
  { bdState with bd := { bdState.bd with
    secs := [(0, { vol := some 5, members := [⟨0, 0, 0, false⟩, ⟨1, 0, 0, true⟩], full := true, age := 7, move := true })], nextSec := 1, nextVol := 6
    vols := [(5, { state := .closed, keys := [(9, 0x8003)], secs := [0], durable := 4, bytes := 65536, recs := [⟨16384, 0, 1, testRec⟩] })]
    reads := [(2, { vol := 5, leaf := 1, from_ := 16384 })] } }
/-- Path 13 before the sample that ends its fade, and before the one that fills its frame. -/
def zoomFade : State :=
  { setR zoomRun (ZP_STATUS 13) 0x8 with
    zp := [(13, { stages := [{ odd := true }], out := 15, fade := some ⟨[], 0, 16⟩, inq := [.x 5 false false] })] }
def zoomFull : State :=
  { zoomRun with
    zp := [(13, { stages := [{ odd := true }], out := 4095, buf := List.replicate 4095 (1, 2), inq := [.x 5 false false] })] }
/-- What leaves the half-band stages of path 13 with its next sample. -/
def zoomOut (s : State) : Option (Int × Int) :=
  (halfBands (s.get (ZP_CFG_PRESET 13)) (s.zpath 13).stages (zpMix (s.zpath 13).nco 5).1).2.2
theorem some_of_isSome {o : Option (Int × Int)} (h : o.isSome = true) : o = some (o.getD (0, 0)) := by
  cases o with
  | none => cases h
  | some _ => rfl
/-- The state a command leaves. -/
def nextOf (c : Instr) (s : State) : State :=
  match exec c s with
  | .next t => t
  | _ => s

/-! ### Worked examples of the spec -/

/-- The block idles on an empty queue. -/
theorem test_idle : (match step State.reset with | .next t => t.pending | _ => [.ppsOutFall]) = [] := by decide +kernel

/-- Chapter 00: 16.25 s. -/
theorem test_time_format : atSec 16 + 0x400000000000 = (0x10400000000000 : BitVec 80) := by decide +kernel

/-- Chapter 13, R392: with N = 16, G = 4,096 and HASH = 1, address 1234_5600h is in channel 1, with HASH = 0 in channel 5. -/
theorem test_channel_hashed : (setR runState CM_CFG 0x1248).cmChannel 0x12345600 = 1 := by decide +kernel
theorem test_channel_plain : (setR runState CM_CFG 0x1048).cmChannel 0x12345600 = 5 := by decide +kernel
theorem test_channel_offset : (setR runState CM_CFG 0x1248).cmOffset 0x12345600 = 0x01234600 := by decide +kernel

/-- Chapter 08, R240: LEVEL 400, samples -300, 100, 700, 900: the crossing is at 123/256. -/
theorem test_level_crossing :
    (match exec (.tgLevelCrossing 0 3)
        { setR (setR runState (TG_U_CTL 6 3) 0x11) (TG_LV_LEVEL 6 3) 400 with tg := { units := [(3, {
          inq := [.x 900 0 false false], rate := 12800000000, at_ := 66, crossing := some true
          hist := [(⟨700, 1⟩, false, false), (⟨100, 1⟩, false, false), (⟨-300, 1⟩, false, false)] })] } } with
      | .next t => (kvGetD t.tg.queue 0 [] : List TrigRec).map fun (x : TrigRec) => (x.time, x.detail.toNat / 256)
      | _ => []) = [(instTime (256 * 12800000000) (256 * 64 + 123), 123)] := by decide +kernel

/-- Chapter 18, R537: the set 31Dh passes the checks of COMMIT; with path 1 lowered too it does not. -/
theorem test_commit_example : ProtSet.commitCheck { pathDomain := 0x31D } = 0 := by decide +kernel
theorem test_commit_lockout : ProtSet.commitCheck { pathDomain := 0x315 } = 0x0301 := by decide +kernel

/-- Chapter 18: after the example's commit a write of ZP_CFG_20 on path 0 is refused with 0401h at 0070_0080h. -/
theorem test_refused_after_commit :
    (match exec (.registerWrite 0 0x704004 5)
        { runState with prot := { active := { pathDomain := 0x31D, pages := (List.range 256).map fun i => (1792 + i, 0xD) } } } with
      | .next t => (t.get (REGION_REFUSAL_REASON 7 0), t.val (REGION_REFUSAL_OFFS 7 0), t.reg (ZP_CFG 20))
      | _ => (0, 0, 0)) = (0x0401, 0x80004004, runState.reg (ZP_CFG 20)) := by decide +kernel

/-- Chapter 19, R568: slots at 31.0 and 47.0 degrees with core-A offsets of -2.5 and -1.7 LSB; at 41.0 degrees CA_IN_OFF_6.A
reads FF80h. -/
theorem test_calibration_mix :
    unsign 16 (ratioRound (slotValue [(0, { tags := [496, 400, 400], inputs := [(6, { offA := -160 })] }),
      (3, { tags := [752, 400, 400], inputs := [(6, { offA := -109 })] })] 0 656 fun x => ratioOf (x.inputOf 6).offA)) = 0xFF80 := by
  decide +kernel

/-- Chapter 20: SP1, epoch 03h, pipeline 2 under patrol with spare 4 standing in. -/
def patrolState : State :=
  { setR (setR runState (REGION_EPOCH 7) 3) (BT_PIPE_MAP 7) 0x2 with ft := { regions := [(7, {
    blocks := [(2, ⟨.underPatrol, none⟩), (4, ⟨.standingIn, some 2⟩)], patrol := some ⟨2, some 4⟩ })] } }

/-- The takeover ends: BT_STATUS_4.PIPE = 2, RETIRED bit 0 set, FREE 4 to 3, no REPLACE. -/
theorem test_takeover_example :
    (match exec (.blockTakeoverDone 7) { patrolState with ft := { regions := [(7, {
        blocks := [(0, ⟨.quarantined, none⟩), (2, ⟨.serving, some 0⟩), (4, ⟨.serving, some 2⟩)]
        takeover := some ⟨0, 2, 0, atSec 99⟩ })] } } with
      | .next t => (t.get (BT_STATUS_PIPE 4), t.get (BT_PIPE_MAP_RETIRED 7), t.get (BT_PIPE_MAP_SPARE_FOR 7), t.get (REGION_SPARES_FREE 7),
          t.val ST_FT_REPLACE)
      | _ => (0, 0, 0, 0, 1)) = (2, 1, 2, 3, 0) := by decide +kernel

/-! ### Witnesses: the hypotheses of each clause are met -/

/-- States and operands that meet the hypotheses of EveryCommandsFrame, clause by clause. -/
theorem witness_EveryCommandsFrame :
    (∃ (c : Instr) (s : State) (t : State), exec c s = .next t) :=
  ⟨.outputBufferFull 3, runState, nextOf (.outputBufferFull 3) runState, rfl⟩

/-- States and operands that meet the hypotheses of CommandsKeepQueueAndOutput, clause by clause. -/
theorem witness_CommandsKeepQueueAndOutput :
    (∃ (c : Instr) (s : State) (t : State), exec c s = .next t) :=
  ⟨.outputBufferFull 3, runState, nextOf (.outputBufferFull 3) runState, rfl⟩

/-- States and operands that meet the hypotheses of EveryStepKeepsCanonicalForm, clause by clause. -/
theorem witness_EveryStepKeepsCanonicalForm :
    (∃ (s : State) (t : State), s.canonical = true ∧
      step s = .next t) :=
  ⟨{ runState with pending := [.outputBufferFull 3] }, nextOf (.outputBufferFull 3) runState, by decide +kernel, rfl⟩

/-- States and operands that meet the hypotheses of SuppliesMoveDeviceState, clause by clause. -/
theorem witness_SuppliesMoveDeviceState :
    (∃ (s : State), s.devState = 0) ∧
    (∃ (s : State), s.devState ≠ 0) ∧
    (∃ (s : State), s.devState ≠ 0 ∧
      s.power.powerFailN = true) ∧
    (∃ (s : State), s.devState = 1 ∧
      s.power.resetHeld = false) :=
  ⟨⟨devIn 0, by decide +kernel⟩,
   ⟨runState, by decide +kernel⟩,
   ⟨runState, by decide +kernel⟩,
   ⟨devIn 1, by decide +kernel⟩⟩

/-- States and operands that meet the hypotheses of LoaderChoosesSlot, clause by clause. -/
theorem witness_LoaderChoosesSlot :
    (∃ (s : State), s.devState = 2 ∧
      s.im.booted = none ∧
      s.power.chipHeld = false) ∧
    (∃ (s : State) (n : Word), s.devState = 2 ∧
      s.im.booted = none ∧
      s.power.chipHeld = false ∧
      33554432 ≤ n.toNat ∧
      n.toNat ≤ 536870912 ∧
      s.devRec.holdNext = false ∧
      s.devRec.armed = false) ∧
    (∃ (s : State) (n : Word), s.devState = 2 ∧
      s.im.booted = none ∧
      s.power.chipHeld = false ∧
      33554432 ≤ n.toNat ∧
      n.toNat ≤ 536870912 ∧
      s.devRec.holdNext = true) :=
  ⟨⟨devIn 2, by decide +kernel⟩,
   ⟨devIn 2, 0x4000000#32, by decide +kernel⟩,
   ⟨{ devIn 2 with im := { sector0 := [⟨6, 0, { holdNext := true }⟩] } }, 0x4000000#32, by decide +kernel⟩⟩

/-- States and operands that meet the hypotheses of StartupReachesRun, clause by clause. -/
theorem witness_StartupReachesRun :
    (∃ (s : State), s.devState = 3 ∧
      s.power.chipHeld = false ∧
      s.on (SYN_STATUS_LOCKED 0) = true ∧
      ((∀ k ∈ allRegions, absentRegion s.variant k = false → s.on (SYN_STATUS_LOCKED k) = true))) ∧
    (∃ (s : State), s.devState = 4) ∧
    (∃ (s : State) (k : Fin 16) (b : BootedImage) (x : ImgSec), s.devState = 4 ∧
      2 ≤ k.val ∧
      absentRegion s.variant k = false ∧
      s.lost k = false ∧
      s.regionState k < 4 ∧
      s.memTrained = true ∧
      s.power.fabricTrained = true ∧
      s.im.booted = some b ∧
      (imgSections (s.slotOf b.slot)).find? (fun y => y.type = programSection k) = some x) ∧
    (∃ (s : State), s.devState = 4 ∧
      s.power.setupFirst = false ∧
      s.power.setupStopped = false ∧
      setupHeaderOk s.setupBytes = true ∧
      s.lost 11 = false ∧
      s.get GLOBAL_SETUP_STATUS_REFUSALS = 0 ∧
      ((∀ i, i < imgField s.setupBytes 4 4 → firstPass (setupEntry s.setupBytes i).1 = false))) ∧
    (∃ (s : State), s.devState = 4 ∧
      s.power.setupFirst = false ∧
      setupHeaderOk s.setupBytes = false ∧
      s.lost 11 = false ∧
      s.get GLOBAL_SETUP_STATUS_REFUSALS = 0) ∧
    (∃ (s : State), s.devState = 4 ∧
      s.power.setupFirst = true ∧
      s.power.setupSecond = false ∧
      ((∀ k ∈ allRegions.drop 1, absentRegion s.variant k = false → 4 ≤ s.regionState k)) ∧
      (s.cmServes = false ∨ s.cm.initDone = true) ∧
      setupHeaderOk s.setupBytes = false) :=
  ⟨⟨setR runState 0x100 0x13, by decide +kernel⟩,
   ⟨devIn 4, by decide +kernel⟩,
   ⟨{ devIn 4 with cm := { begun := true }, power := { fabricTrained := true }, im := { booted := some ⟨0, 0, 1, 1, false⟩, slotBytes := [(0, progImage)] } }, 6, ⟨0, 0, 1, 1, false⟩, ⟨0x11, 0, 0, 0⟩, by decide +kernel⟩,
   ⟨{ devIn 4 with im := { booted := some ⟨0, 0, 1, 1, false⟩, slotBytes := [(0, setupImage)] } }, by decide +kernel⟩,
   ⟨{ devIn 4 with power := { } }, by decide +kernel⟩,
   ⟨{ setR runState 0x100 0x34 with power := { setupFirst := true } }, by decide +kernel⟩⟩

/-- States and operands that meet the hypotheses of StateRequestsFollowTable, clause by clause. -/
theorem witness_StateRequestsFollowTable :
    (∃ (s : State) (p : Fin 5), s.mayWrite p GLOBAL_STATE_REQ = true ∧
      s.devState = 6) ∧
    (∃ (s : State) (p : Fin 5), s.mayWrite p GLOBAL_STATE_REQ = true ∧
      s.devState = 5) ∧
    (∃ (s : State) (p : Fin 5), s.mayWrite p GLOBAL_STATE_REQ = true ∧
      (s.devState = 5 ∨ s.devState = 6)) ∧
    (∃ (s : State) (p : Fin 5), s.mayWrite p GLOBAL_STATE_REQ = true ∧
      (s.devState = 2 ∨ s.devState = 4 ∨ s.devState = 5 ∨ s.devState = 6 ∨ s.devState = 7 ∨ (s.devState = 3 ∧ s.power.chipHeld = true))) ∧
    (∃ (s : State) (p : Fin 5), s.mayWrite p GLOBAL_STATE_REQ = true ∧
      s.devState ≠ 6) ∧
    (∃ (s : State) (p : Fin 5), s.mayWrite p GLOBAL_STATE_REQ = true ∧
      s.devState ≠ 5) ∧
    (∃ (s : State) (p : Fin 5), s.mayWrite p GLOBAL_STATE_REQ = true ∧
      s.devState ≠ 5 ∧
      s.devState ≠ 6) ∧
    (∃ (s : State) (p : Fin 5), s.mayWrite p GLOBAL_STATE_REQ = true ∧
      s.devState = 3 ∧
      s.power.chipHeld = false) ∧
    (∃ (s : State) (kind : Fin 8), kind.val ≠ 0 ∧
      4 ≤ s.devState ∧
      s.devState ≠ 7) ∧
    (∃ (s : State) (kind : Fin 8), kind.val ≠ 0 ∧
      (s.devState = 2 ∨ s.devState = 3)) :=
  ⟨⟨setR runState 0x100 6, 1, by decide +kernel⟩,
   ⟨runState, 1, by decide +kernel⟩,
   ⟨runState, 1, by decide +kernel⟩,
   ⟨runState, 1, by decide +kernel⟩,
   ⟨runState, 1, by decide +kernel⟩,
   ⟨setR runState 0x100 6, 1, by decide +kernel⟩,
   ⟨devIn 4, 1, by decide +kernel⟩,
   ⟨devIn 3, 1, by decide +kernel⟩,
   ⟨runState, 3, by decide +kernel⟩,
   ⟨devIn 3, 2, by decide +kernel⟩⟩

/-- States and operands that meet the hypotheses of MarkerInsertionOrder, clause by clause. -/
theorem witness_MarkerInsertionOrder :
    (∃ (s : State) (st : FirstStage) (t : DevTime) (q : MarkerReq), (st = .cb ∨ st = .et) ∧
      firstDue st t s.flow.requests = some q) ∧
    (∃ (st : FirstStage) (t : DevTime) (l : List MarkerReq) (q : MarkerReq), firstDue st t l = some q) ∧
    (∃ (s : State) (st : FirstStage) (t : DevTime), (st = .cb ∨ st = .et) ∧
      firstDue st t s.flow.requests = none) ∧
    (∃ (s : State) (n : Nat) (k : Int) (q : MarkerReq), (s.inp n).runs = true ∧
      (s.inp n).firstDue n (s.insertLimit n) s.flow.requests = some (k, q)) ∧
    (∃ (x : AfIn) (n : Nat) (lim : Int) (l : List MarkerReq) (k : Int) (q : MarkerReq), x.firstDue n lim l = some (k, q)) :=
  ⟨⟨{ flow := { requests := [⟨.cb, .calRamp, 3, 10, 0, false⟩, ⟨.cb, .epoch, 3, 10, 7, false⟩] } }, .cb, 11, ⟨.cb, .epoch, 3, 10, 7, false⟩, by decide +kernel⟩,
   ⟨.cb, 11, [⟨.cb, .calRamp, 3, 10, 0, false⟩, ⟨.cb, .epoch, 3, 10, 7, false⟩], ⟨.cb, .epoch, 3, 10, 7, false⟩, by decide +kernel⟩,
   ⟨{}, .et, 0, by decide +kernel⟩,
   ⟨{ afRun with flow := { requests := [⟨.input 3, .syncReset, 0x1003, 10, 0, false⟩] } }, 3, afNext, ⟨.input 3, .syncReset, 0x1003, 10, 0, false⟩, by decide +kernel⟩,
   ⟨{}, 3, 9, [⟨.input 3, .syncReset, 0x1003, 0, 0, false⟩], 1, ⟨.input 3, .syncReset, 0x1003, 0, 0, false⟩, by decide +kernel⟩⟩

/-- States and operands that meet the hypotheses of ExitsFenceAndCount, clause by clause. -/
theorem witness_ExitsFenceAndCount :
    (∃ (m : Marker), m.type = .epoch) ∧
    (∃ (m : Marker), m.type = .timeStep) ∧
    (∃ (s : State) (e : Exit) (inst : Nat) (f : Frame), s.accepts (exitRegion e inst) = true ∧
      s.swHeld (4 * exitRegion e inst + s.portOf (16 + exitRegion e inst) f.stream) = [] ∧
      ((∀ m ∈ f.markers, m.type ≠ .epoch)) ∧
      s.heldEpoch (s.fenceRegion e inst f.stream) f.stream = f.epoch) ∧
    (∃ (s : State) (e : Exit) (inst : Nat) (f : Frame), s.accepts (exitRegion e inst) = true ∧
      s.swHeld (4 * exitRegion e inst + s.portOf (16 + exitRegion e inst) f.stream) = [] ∧
      ((∀ m ∈ f.markers, m.type ≠ .epoch)) ∧
      s.heldEpoch (s.fenceRegion e inst f.stream) f.stream ≠ f.epoch) ∧
    (∃ (s : State) (e : Exit) (inst : Nat) (g : GapRec), s.accepts (exitRegion e inst) = true ∧
      s.swHeld (4 * exitRegion e inst + s.portOf (16 + exitRegion e inst) g.stream) = []) ∧
    (∃ (s : State) (e : Exit) (inst : Nat), s.accepts (exitRegion e inst) = false) ∧
    (∃ (s : State) (id : BitVec 16), (s.stream id).full = false) ∧
    (∃ (s : State) (id : BitVec 16), (s.stream id).full = true ∧
      s.stoppedAll = false) :=
  ⟨⟨⟨.epoch, false, 0, 0, 0, 9, 0⟩, by decide +kernel⟩,
   ⟨⟨.timeStep, false, 0, 0, 0, 9, 0⟩, by decide +kernel⟩,
   ⟨{ runState with flow := { held := [(15 * 65536 + 0x1001, 4)] } }, .dma, 2, ⟨0x1001, 4, 0, 0, 0, 0, 0, 0, 6, [], [1, 2]⟩, by decide +kernel⟩,
   ⟨{ runState with flow := { held := [(15 * 65536 + 0x1001, 4)] } }, .dma, 2, ⟨0x1001, 5, 0, 0, 0, 0, 0, 0, 6, [], [1, 2]⟩, by decide +kernel⟩,
   ⟨runState, .volume, 2, ⟨1, 4, 7, 3, true⟩, by decide +kernel⟩,
   ⟨{}, .volume, 2, by decide +kernel⟩,
   ⟨{}, 0x2001, by decide +kernel⟩,
   ⟨{ flow := { streams := [(0x2001, { opened := true, full := true, lost := 5, lostCause := 1 })] } }, 0x2001, by decide +kernel⟩⟩

/-- States and operands that meet the hypotheses of ReferencesSelectAndCoast, clause by clause. -/
theorem witness_ReferencesSelectAndCoast :
    (∃ (s : State) (r : Fin 3), s.get ST_REF_CTL_SOURCE = 0 ∧
      s.following = none ∧
      s.qualified 1 = false ∧
      s.qualified 2 = false ∧
      s.qualified 3 = false ∧
      ((r.val = 2 → s.hiveStable = true))) ∧
    (∃ (s : State) (r : Fin 3), s.get ST_REF_CTL_SOURCE < 4 ∧
      s.time.followed = true ∧
      s.qualified (r + 1) = true ∧
      ((∀ k ∈ [1, 2, 3], k ≠ r.val + 1 → s.qualified k = false))) ∧
    (∃ (s : State) (p : Fin 5) (v : Word), s.mayWrite p ST_REF_CTL = true ∧
      bits v.toNat 2 0 ≤ 4 ∧
      bits v.toNat 27 16 ≠ 0) ∧
    (∃ (s : State) (p : Fin 5) (v : Word), s.mayWrite p ST_REF_CTL = true ∧
      (4 < bits v.toNat 2 0 ∨ bits v.toNat 27 16 = 0)) ∧
    (∃ (s : State), s.on ST_REF_STATUS_COASTING = true) ∧
    (∃ (s : State), s.on ST_REF_STATUS_COASTING = true ∧
      s.get ST_REF_STATUS_COAST_LEFT = 0 ∧
      s.on ST_REF_STATUS_EXHAUSTED = false) ∧
    (∃ (s : State) (p : Fin 5), s.mayWrite p ST_REF_STATUS = true ∧
      s.on ST_REF_STATUS_EXHAUSTED = true) ∧
    (∃ (s : State), s.on ST_REF_STATUS_SLEWING = true) :=
  ⟨⟨setR runState ST_REF_STATUS 0, 1, by decide +kernel⟩,
   ⟨{ setR runState ST_REF_STATUS 0x9 with time := { followed := true, lastRef := 1 } }, 0, by decide +kernel⟩,
   ⟨runState, 1, 0x00051002, by decide +kernel⟩,
   ⟨runState, 1, 0x00000002, by decide +kernel⟩,
   ⟨setR runState ST_REF_STATUS 0x00500100, by decide +kernel⟩,
   ⟨setR runState ST_REF_STATUS 0x100, by decide +kernel⟩,
   ⟨setR runState ST_REF_STATUS 0x408, 1, by decide +kernel⟩,
   ⟨setR runState ST_REF_STATUS 0x200, by decide +kernel⟩⟩

/-- States and operands that meet the hypotheses of DeviceTimeMoves, clause by clause. -/
theorem witness_DeviceTimeMoves :
    (∃ (s : State) (r : StepReq), s.time.step = some r ∧
      tLt s.now r.time = false) ∧
    (∃ (s : State) (r : StepReq), s.time.step = some r ∧
      tLt s.now r.time = true) ∧
    (∃ (s : State) (p : Fin 5) (v : Word), s.mayWrite p GLOBAL_TIME_SET_CTL = true ∧
      s.running = true ∧
      bits v.toNat 0 0 = 1 ∧
      bits v.toNat 2 2 = 0 ∧
      s.time.timeSet = none ∧
      s.time.step = none) ∧
    (∃ (s : State) (p : Fin 5) (v : Word), s.mayWrite p GLOBAL_TIME_SET_CTL = true ∧
      s.running = false ∧
      bits v.toNat 0 0 = 1 ∧
      bits v.toNat 2 2 = 0 ∧
      s.time.timeSet = none ∧
      s.time.step = none) ∧
    (∃ (s : State) (p : Fin 5) (v : Word), s.mayWrite p GLOBAL_TIME_SET_CTL = true ∧
      bits v.toNat 0 0 = 1 ∧
      (s.time.timeSet ≠ none ∨ s.time.step ≠ none)) ∧
    (∃ (s : State) (x : TimeSet) (e : DevTime), s.time.timeSet = some x ∧
      x.edge = some e ∧
      tLt s.now e = false) ∧
    (∃ (s : State) (x : TimeSet), s.time.timeSet = some x ∧
      (x.edge = none ∨ x.edge.any (fun e => tLt s.now e) = true)) ∧
    (∃ (s : State) (p : Fin 5), s.mayRead p GLOBAL_DEVTIME_0 = true) ∧
    (∃ (s : State) (d : Int) (e : DevTime), s.time.followFrom = some e ∧
      s.on ST_REF_CTL_AGE_LEARN = true ∧
      s.following.isSome = true ∧
      tLt s.now (tAdd e (1000 * 2 ^ 48)) = false ∧
      d % 8 = 0) ∧
    (∃ (s : State) (p : Fin 5), s.mayWrite p ST_XO_AGE = true) ∧
    (∃ (s : State), s.pending = [] ∧
      s.time.started = true ∧
      s.devState ≠ 0 ∧
      s.time.cyc + 1 = 3200000000 ∧
      s.time.slewAt = none) :=
  ⟨⟨{ runState with time := { now := atSec 100, step := some ⟨atSec 100, -5⟩ } }, ⟨atSec 100, -5⟩, by decide +kernel⟩,
   ⟨{ runState with time := { now := atSec 100, step := some ⟨atSec 101, -5⟩ } }, ⟨atSec 101, -5⟩, by decide +kernel⟩,
   ⟨setR runState GLOBAL_TIME_SET_SEC 77, 1, 1, by decide +kernel⟩,
   ⟨setR (setR runState 0x100 4) GLOBAL_TIME_SET_SEC 77, 1, 1, by decide +kernel⟩,
   ⟨{ runState with time := { now := atSec 100, timeSet := some ⟨77, false, some (atSec 99)⟩ } }, 1, 5, by decide +kernel⟩,
   ⟨{ runState with time := { now := atSec 100, timeSet := some ⟨77, false, some (atSec 99)⟩ } }, ⟨77, false, some (atSec 99)⟩, atSec 99, by decide +kernel⟩,
   ⟨{ runState with time := { now := atSec 100, timeSet := some ⟨77, true, none⟩ } }, ⟨77, true, none⟩, by decide +kernel⟩,
   ⟨runState, 2, by decide +kernel⟩,
   ⟨{ setR (setR runState ST_REF_STATUS 0x9) ST_REF_CTL 0x10010000 with time := { now := atSec 5000, followFrom := some (atSec 3000) } }, -16, atSec 3000, by decide +kernel⟩,
   ⟨runState, 1, by decide +kernel⟩,
   ⟨{ runState with time := { started := true, now := tAdd (atSec 4) (2 ^ 48 - 1), cyc := 3199999999 } }, by decide +kernel⟩⟩

/-- States and operands that meet the hypotheses of PulsesInAndOut, clause by clause. -/
theorem witness_PulsesInAndOut :
    (∃ (s : State) (t0 : DevTime) (l : DevTime), s.on ST_REF_CTL_PPS_EN = true ∧
      s.time.ppsLast = some l ∧
      2 ≤ s.time.ppsGood ∧
      (tDiff (tAddI t0 (-(psTicks (signed 32 (s.val ST_PPS_DELAY))))) l - 2 ^ 48).natAbs ≤ usTicks 1) ∧
    (∃ (s : State), s.on ST_REF_STATUS_PPS_OK = true ∧
      s.time.ppsLast.all (fun l => decide (4 * 2 ^ 48 ≤ tDiff (atSec (secOf s.now)) (atSec (secOf l)))) = true) ∧
    (∃ (s : State), 2 ≤ s.devState ∧
      fracOf s.now = 0) ∧
    (∃ (s : State), s.time.ppsOutHigh = true ∧
      tLe (tAdd s.time.ppsOutRise (usTicks 100000)) s.now = true) ∧
    (∃ (s : State) (p : Fin 5) (i : Fin 4) (v : Word), s.mayWrite p (ST_SYNC_CTL i) = true ∧
      bits v.toNat 0 0 = 1 ∧
      s.on (ST_SYNC_CTL_ENABLE i) = false ∧
      bits v.toNat 31 16 < s.val (ST_SYNC_PERIOD i)) ∧
    (∃ (s : State) (p : Fin 5) (i : Fin 4) (v : Word), s.mayWrite p (ST_SYNC_CTL i) = true ∧
      bits v.toNat 0 0 = 1 ∧
      s.val (ST_SYNC_PERIOD i) ≤ bits v.toNat 31 16) ∧
    (∃ (s : State) (i : Fin 4) (b : DevTime), (s.syncOut i).base = some b ∧
      (s.syncOut i).high = false ∧
      tLt s.now (cycTime b (s.syncOut i).riseCyc) = false) ∧
    (∃ (s : State) (i : Fin 4) (b : DevTime), (s.syncOut i).base = some b ∧
      (s.syncOut i).high = true ∧
      tLt s.now (cycTime b ((s.syncOut i).riseCyc + (s.syncOut i).width)) = false) :=
  ⟨⟨{ setR runState ST_REF_CTL 0x11000 with time := { now := atSec 5, ppsLast := some (atSec 4), ppsGood := 2 } }, atSec 5, atSec 4, by decide +kernel⟩,
   ⟨setR runState ST_REF_STATUS 0x40, by decide +kernel⟩,
   ⟨runState, by decide +kernel⟩,
   ⟨{ runState with time := { now := atSec 5, ppsOutHigh := true, ppsOutRise := atSec 4 } }, by decide +kernel⟩,
   ⟨setR runState (ST_SYNC_PERIOD 1) 100, 1, 1, 0x00200001, by decide +kernel⟩,
   ⟨runState, 1, 1, 0xFFFF0001, by decide +kernel⟩,
   ⟨{ runState with time := { now := atSec 5, sync := [(1, ⟨4, 9, false, some (atSec 4), 0⟩)] } }, 1, atSec 4, by decide +kernel⟩,
   ⟨{ runState with time := { now := atSec 5, sync := [(1, ⟨4, 9, true, some (atSec 4), 0⟩)] } }, 1, atSec 4, by decide +kernel⟩⟩

/-- States and operands that meet the hypotheses of SynthesisersLockAndRamp, clause by clause. -/
theorem witness_SynthesisersLockAndRamp :
    (∃ (s : State) (b : Fin 16) (e : Int), s.synGone b = false ∧
      s.on (SYN_CTL_ENABLE b) = true ∧
      s.on (SYN_STATUS_LOCKED b) = false ∧
      s.on (SYN_STATUS_RAMPING b) = false ∧
      e.natAbs < 4 * s.get (SYN_LOCK_LOCK_WINDOW b) ∧
      s.devState ≠ 0) ∧
    (∃ (s : State) (b : Fin 16) (e : Int), s.synGone b = false ∧
      s.on (SYN_STATUS_LOCKED b) = true ∧
      2 ≤ b.val ∧
      4 * s.get (SYN_LOCK_LOSS_WINDOW b) < e.natAbs ∧
      s.following = none) ∧
    (∃ (s : State) (p : Fin 5) (b : Fin 16), s.mayWrite p (SYN_CTL b) = true ∧
      s.on (SYN_CTL_ENABLE b) = true ∧
      (2 ≤ b.val ∧ b.val ≤ 10)) ∧
    (∃ (s : State) (p : Fin 5) (b : Fin 16), s.mayWrite p (SYN_CTL b) = true ∧
      s.on (SYN_CTL_ENABLE b) = true ∧
      (b.val < 2 ∨ 10 < b.val)) ∧
    (∃ (s : State) (p : Fin 5) (b : Fin 16), s.mayWrite p (SYN_CTL b) = true ∧
      s.on (SYN_CTL_ENABLE b) = false) ∧
    (∃ (s : State) (p : Fin 5) (b : Fin 16) (v : Word), s.mayWrite p (SYN_LOCK b) = true ∧
      16 ≤ bits v.toNat 31 16 ∧
      bits v.toNat 7 0 ≠ 0 ∧
      2 * bits v.toNat 7 0 ≤ bits v.toNat 15 8) ∧
    (∃ (s : State) (p : Fin 5) (b : Fin 16) (v : Word), s.mayWrite p (SYN_LOCK b) = true ∧
      (bits v.toNat 31 16 < 16 ∨ bits v.toNat 7 0 = 0 ∨ bits v.toNat 15 8 < 2 * bits v.toNat 7 0)) ∧
    (∃ (s : State) (p : Fin 5) (b : Fin 16), s.mayWrite p (SYN_CTL b) = true ∧
      s.on (SYN_STATUS_RAMPING b) = false ∧
      synRange b = none) ∧
    (∃ (s : State) (p : Fin 5) (b : Fin 16), s.mayWrite p (SYN_CTL b) = true ∧
      s.on (SYN_STATUS_RAMPING b) = false ∧
      s.on (SYN_CTL_ENABLE b) = true ∧
      6 ≤ b.val ∧
      b.val ≤ 10 ∧
      s.get (SYN_RAMP_SEGMENTS b) = 0 ∧
      s.val (SYN_SEG_KHZ b 0) = s.val (SYN_TARGET b) ∧
      600000 ≤ s.val (SYN_TARGET b) ∧
      s.val (SYN_TARGET b) ≤ 1200000 ∧
      (s.synKhz b - s.val (SYN_TARGET b)) + (s.val (SYN_TARGET b) - s.synKhz b) ≤ 1320000 * s.val (SYN_SEG_NS b 0) / 1000000) ∧
    (∃ (s : State) (b : Fin 16), s.on (SYN_STATUS_RAMPING b) = true ∧
      tLt s.now (s.syn b).segEnd = false) ∧
    (∃ (s : State) (k : Fin 16), 3 ≤ s.devState ∧
      2 ≤ k.val ∧
      s.synGone k = false) ∧
    (∃ (s : State), 3 ≤ s.devState ∧
      s.synGone 1 = false) :=
  ⟨⟨setR runState (SYN_STATUS 6) 0x10, 6, -9, by decide +kernel⟩,
   ⟨setR runState ST_REF_STATUS 0, 6, 50000, by decide +kernel⟩,
   ⟨runState, 1, 7, by decide +kernel⟩,
   ⟨runState, 1, 12, by decide +kernel⟩,
   ⟨setR runState (SYN_CTL 7) 0, 1, 7, by decide +kernel⟩,
   ⟨runState, 1, 7, 0x00200804, by decide +kernel⟩,
   ⟨runState, 1, 7, 0x00200104, by decide +kernel⟩,
   ⟨runState, 1, 13, by decide +kernel⟩,
   ⟨setR (setR (setR runState (SYN_SEG_KHZ 7 0) 1200000) (SYN_SEG_NS 7 0) 1000) (SYN_TARGET 7) 1200000, 1, 7, by decide +kernel⟩,
   ⟨setR runState (SYN_STATUS 7) 0x1F, 7, by decide +kernel⟩,
   ⟨runState, 4, by decide +kernel⟩,
   ⟨runState, by decide +kernel⟩⟩

/-- States and operands that meet the hypotheses of InputsStartAndStop, clause by clause. -/
theorem witness_InputsStartAndStop :
    (∃ (s : State) (p : Fin 5) (n : Fin 16) (v : Word), s.mayWrite p (AF_IN_CTL n) = true ∧
      s.on (AF_IN_CTL_ENABLE n) = false ∧
      bits v.toNat 0 0 = 1 ∧
      bits v.toNat 2 1 ≠ 3 ∧
      bits v.toNat 7 6 ≠ 3 ∧
      s.dutyDead (AF_IN_CTL n) = false ∧
      (s.inp n).endGap = none ∧
      (s.plainWrite (AF_IN_CTL n) (v.toNat / 2 * 2)).inputCheck n = 0) ∧
    (∃ (s : State) (p : Fin 5) (n : Fin 16) (v : Word), s.mayWrite p (AF_IN_CTL n) = true ∧
      s.on (AF_IN_CTL_ENABLE n) = false ∧
      bits v.toNat 0 0 = 1 ∧
      bits v.toNat 2 1 ≠ 3 ∧
      bits v.toNat 7 6 ≠ 3 ∧
      s.dutyDead (AF_IN_CTL n) = false ∧
      (s.plainWrite (AF_IN_CTL n) (v.toNat / 2 * 2)).inputCheck n ≠ 0) ∧
    (∃ (s : State) (p : Fin 5) (n : Fin 16) (v : Word), s.mayWrite p (AF_IN_CTL n) = true ∧
      (bits v.toNat 2 1 = 3 ∨ bits v.toNat 7 6 = 3)) ∧
    (∃ (s : State) (n : Fin 16) (e : DevTime), (s.inp n).settling = some e ∧
      tLt s.now e = false ∧
      s.stoppedAll = false ∧
      ((s.openStream (sid 0 n)).modIn n fun x => { x with settling := none, runs := true }).mayDeliver n = true ∧
      (s.inp n).endGap = none) ∧
    (∃ (s : State) (n : Fin 16) (e : DevTime), (s.inp n).settling = some e ∧
      tLt s.now e = true) ∧
    (∃ (s : State) (p : Fin 5) (n : Fin 16), s.mayWrite p (AF_IN_CTL n) = true ∧
      s.on (AF_IN_CTL_ENABLE n) = true ∧
      s.get (AF_IN_CTL_FS n) ≠ 3 ∧
      s.source n ≠ 3) ∧
    (∃ (s : State) (p : Fin 5) (n : Fin 16) (src : Fin 4), s.mayWrite p (AF_IN_CTL n) = true ∧
      s.on (AF_IN_CTL_ENABLE n) = true ∧
      (s.inp n).runs = true ∧
      s.get (AF_IN_CTL_FS n) ≠ 3 ∧
      src ≠ 3 ∧
      src.val ≠ s.source n ∧
      ((src = 1 → s.on (AF_TONE_CTL_ENABLE (2 + n / 4)) = true))) ∧
    (∃ (x : AfIn) (at_ : DevTime) (src : Nat), x.srcs = [(at_, src)]) :=
  ⟨⟨runState, 1, 3, 0x1, by decide +kernel⟩,
   ⟨{ runState with variant := .yn9616, regs := runState.regs }, 1, 3, 0x41, by decide +kernel⟩,
   ⟨runState, 1, 3, 0x7, by decide +kernel⟩,
   ⟨{ setR runState (AF_IN_CTL 5) 1 with af := [(5, { settling := some (atSec 99) })] }, 5, atSec 99, by decide +kernel⟩,
   ⟨{ setR runState (AF_IN_CTL 5) 1 with af := [(5, { settling := some (atSec 101) })] }, 5, atSec 101, by decide +kernel⟩,
   ⟨afRun, 1, 3, by decide +kernel⟩,
   ⟨afRun, 1, 3, 2, by decide +kernel⟩,
   ⟨{ srcs := [(9, 2)] }, 9, 2, by decide +kernel⟩⟩

/-- States and operands that meet the hypotheses of RawFramesAndOverRange, clause by clause. -/
theorem witness_RawFramesAndOverRange :
    (∃ (s : State) (n : Fin 16) (xs : List Int), s.rawCount n xs.length ≠ 0 ∧
      (s.inp n).endGap = none ∧
      ((∀ q ∈ s.flow.requests, q.stage ≠ .input n)) ∧
      (s.inp n).todo = [] ∧
      s.delivers (sid 0 n) = true ∧
      (s.stream (sid 0 n)).markers = [] ∧
      s.frameMarkersOf (.input n) = [] ∧
      s.heldEpoch (6 + n / 4) (sid 0 n) = s.epoch (2 + n / 4)) ∧
    (∃ (s : State) (n : Fin 16) (xs : List Int), s.rawCount n xs.length = 0) ∧
    (∃ (x : AfIn) (c : AfCfg), x.src = 2 ∧
      x.srcs = [] ∧
      x.evts = [] ∧
      c.kind = 0) ∧
    (∃ (s : State) (p : Fin 5) (n : Fin 16) (v : Word), s.mayWrite p (AF_IN_SKEW n) = true ∧
      -1000 ≤ signed 16 (bits v.toNat 15 0) ∧
      signed 16 (bits v.toNat 15 0) ≤ 1000) ∧
    (∃ (s : State) (p : Fin 5) (n : Fin 16) (v : Word), s.mayWrite p (AF_IN_SKEW n) = true ∧
      (signed 16 (bits v.toNat 15 0) < -1000 ∨ 1000 < signed 16 (bits v.toNat 15 0))) :=
  ⟨⟨afEnd, 3, [1, 2, 3, 4, 5, 6, 7, 8, 9, 10, 11, 12, 13, 14, 15, 3000, 9], by decide +kernel⟩,
   ⟨afRun, 3, [1, 2, 3, 4], by decide +kernel⟩,
   ⟨{ src := 2, patIdx := 4097 }, ⟨12800000000, false, false, 8, 0, 0, fun _ => 0, 0⟩, by decide +kernel⟩,
   ⟨runState, 1, 2, 0xFC18, by decide +kernel⟩,
   ⟨runState, 1, 2, 1001, by decide +kernel⟩⟩

/-- States and operands that meet the hypotheses of NotchesAndSystemCalibration, clause by clause. -/
theorem witness_NotchesAndSystemCalibration :
    (∃ (s : State) (p : Fin 5) (n : Fin 16) (v : Word), s.mayWrite p (AF_NOTCH_SWAP_CTL n) = true ∧
      bits v.toNat 0 0 = 1 ∧
      firstNotchFault (s.fsHz n) ((upto 4).map (s.shadowNotch n)) = 0 ∧
      tLt (atSecFrac (s.val (AF_NOTCH_SWAP_SEC n)) (s.val (AF_NOTCH_SWAP_FRAC n))) s.now = false ∧
      tLt (atSecFrac (s.val (AF_NOTCH_SWAP_SEC n)) (s.val (AF_NOTCH_SWAP_FRAC n))) (tAdd s.now (usTicks 100)) = false ∧
      s.flow.requests.any (fun q => q.stage = .input n && q.type = .coefSwap && q.target = sid 0 n) = false) ∧
    (∃ (s : State) (p : Fin 5) (n : Fin 16) (v : Word), s.mayWrite p (AF_NOTCH_SWAP_CTL n) = true ∧
      bits v.toNat 0 0 = 1 ∧
      firstNotchFault (s.fsHz n) ((upto 4).map (s.shadowNotch n)) = 0 ∧
      tLt (atSecFrac (s.val (AF_NOTCH_SWAP_SEC n)) (s.val (AF_NOTCH_SWAP_FRAC n))) s.now = true) ∧
    (∃ (s : State) (n : Fin 16) (i : DevTime) (m : Marker) (rest : List (DevTime × Marker)), (s.inp n).todo = (i, m) :: rest ∧
      m.type = .coefSwap) ∧
    (∃ (s : State) (n : Fin 16) (i : DevTime) (m : Marker) (rest : List (DevTime × Marker)), (s.inp n).todo = (i, m) :: rest ∧
      m.type = .syncReset) ∧
    (∃ (s : State) (n : Fin 16), (s.inp n).todo.head?.all (fun p => p.2.type != .coefSwap && p.2.type != .syncReset) = true) ∧
    (∃ (s : State) (p : Fin 5) (n : Fin 16) (v : Word), s.mayWrite p (AF_SYSCAL_CTL n) = true ∧
      bits v.toNat 0 0 = 1 ∧
      bits v.toNat 2 1 = 1 ∧
      s.on (AF_IN_CTL_ENABLE n) = true ∧
      s.source n = 0 ∧
      s.on (AF_SYSCAL_CTL_BUSY n) = false ∧
      s.on (AF_IN_STATUS_RAMPING n) = false ∧
      s.calOn n = false) ∧
    (∃ (s : State) (p : Fin 5) (n : Fin 16) (v : Word), s.mayWrite p (AF_SYSCAL_CTL n) = true ∧
      bits v.toNat 0 0 = 1 ∧
      bits v.toNat 2 1 = 1 ∧
      s.on (AF_IN_CTL_ENABLE n) = false) ∧
    (∃ (s : State) (n : Fin 16) (m : SysMeas), (s.inp n).meas = some m ∧
      m.full = false ∧
      m.count = 2 ^ 24 ∧
      m.result.natAbs ≤ 2048) ∧
    (∃ (s : State) (n : Fin 16) (m : SysMeas), (s.inp n).meas = some m ∧
      m.full = false ∧
      m.count = 2 ^ 24 ∧
      2048 < m.result.natAbs) ∧
    (∃ (s : State) (n : Fin 16) (m : SysMeas) (g : Nat), (s.inp n).meas = some m ∧
      m.full = true ∧
      m.count = 2 ^ 24 ∧
      0 < m.result.toNat ∧
      g = (ratioRound (ratio (2048 * s.val (AF_SYSCAL_AMPL n) * 256 * 2 ^ 20)
      (fullScaleUv (s.get (AF_IN_CTL_FS n)) * m.result.toNat))).toNat) ∧
    (∃ (s : State) (p : Fin 5) (n : Fin 16), s.mayWrite p (AF_SYSCAL_CTL n) = true ∧
      s.on (AF_SYSCAL_CTL_BUSY n) = false ∧
      s.on (AF_IN_STATUS_RAMPING n) = false ∧
      s.calOn n = false ∧
      (s.inp n).applyPending = false ∧
      tLt (calRampTime s.now) s.now = false ∧
      tLt (calRampTime s.now) (tAdd s.now (usTicks 100)) = false ∧
      s.flow.requests.any (fun q => q.stage = .input n && q.type = .calRamp && q.target = sid 0 n) = false) ∧
    (∃ (s : State) (n : Fin 16) (k : Nat) (m : SysMove) (rest : List SysMove), (s.inp n).ramp = some k ∧
      (s.inp n).sys = m :: rest ∧
      tLt (s.inputNow n) (tAdd m.start ((k + 1) * 2 ^ 42)) = false) ∧
    (∃ (s : State) (n : Fin 16) (k : Nat) (m : SysMove) (rest : List SysMove), (s.inp n).ramp = some k ∧
      (s.inp n).sys = m :: rest ∧
      tLt (s.inputNow n) (tAdd m.start ((k + 1) * 2 ^ 42)) = true) ∧
    (∃ (s : State) (p : Fin 5) (i : Fin 4) (v : Word), s.mayWrite p (AF_TONE_CTL (afWin i)) = true ∧
      s.on (AF_TONE_CTL_ENABLE (afWin i)) = false ∧
      bits v.toNat 0 0 = 1 ∧
      s.dutyDead (AF_TONE_CTL (afWin i)) = false) ∧
    (∃ (s : State) (p : Fin 5) (i : Fin 4) (v : Word) (n : Nat), s.mayWrite p (AF_TONE_CTL (afWin i)) = true ∧
      s.on (AF_TONE_CTL_ENABLE (afWin i)) = true ∧
      bits v.toNat 0 0 = 0 ∧
      n ∈ afInputs (afWin i) ∧
      s.source n = 1) :=
  ⟨⟨setR runState (AF_NOTCH_SWAP_SEC 3) 101, 1, 3, 1, by decide +kernel⟩,
   ⟨setR runState (AF_NOTCH_SWAP_SEC 3) 99, 1, 3, 1, by decide +kernel⟩,
   ⟨{ setR (setR runState (AF_NOTCH_FREQ 3 1) 77) (AF_NOTCH_SHAPE 3 2) 0x10004001 with af := [(3, { todo := [(atSec 100, ⟨.coefSwap, false, 3, 0, atSec 100, 0, 0⟩)] })] }, 3, atSec 100, ⟨.coefSwap, false, 3, 0, atSec 100, 0, 0⟩, [], by decide +kernel⟩,
   ⟨{ runState with af := [(3, { todo := [(atSec 100, ⟨.syncReset, false, 3, 0, atSec 100, 0, 0⟩)] })] }, 3, atSec 100, ⟨.syncReset, false, 3, 0, atSec 100, 0, 0⟩, [], by decide +kernel⟩,
   ⟨runState, 3, by decide +kernel⟩,
   ⟨setR runState (AF_IN_CTL 3) 1, 1, 3, 3, by decide +kernel⟩,
   ⟨runState, 1, 3, 3, by decide +kernel⟩,
   ⟨{ setR runState (AF_SYSCAL_CTL 3) 3 with af := [(3, { meas := some ⟨false, 0, 0, 16777216, -562949953421312, 0, 0, 0, 0⟩ })] }, 3, ⟨false, 0, 0, 16777216, -562949953421312, 0, 0, 0, 0⟩, by decide +kernel⟩,
   ⟨{ setR runState (AF_SYSCAL_CTL 3) 3 with af := [(3, { meas := some ⟨false, 0, 0, 16777216, -563224831328256, 0, 0, 0, 0⟩ })] }, 3, ⟨false, 0, 0, 16777216, -563224831328256, 0, 0, 0, 0⟩, by decide +kernel⟩,
   ⟨{ setR (setR runState (AF_SYSCAL_CTL 3) 5) (AF_SYSCAL_AMPL 3) 700000 with af := [(3, { meas := some fullMeas })] }, 3, fullMeas, (ratioRound (ratio (2048 * 700000 * 256 * 2 ^ 20) (1000000 * fullMeas.result.toNat))).toNat, by decide +kernel⟩,
   ⟨setR runState (AF_IN_CTL 3) 1, 1, 3, by decide +kernel⟩,
   ⟨{ setR runState (AF_IN_STATUS 3) 4 with af := [(3, { ramp := some 62, sys := [⟨0, ⟨0, 1⟩, ⟨1048576, 1⟩, 5, 1048570⟩] })] }, 3, 62, ⟨0, ⟨0, 1⟩, ⟨1048576, 1⟩, 5, 1048570⟩, [], by decide +kernel⟩,
   ⟨{ setR runState (AF_IN_STATUS 3) 4 with af := [(3, { ramp := some 62, sys := [⟨atSec 100, ⟨0, 1⟩, ⟨1048576, 1⟩, 5, 1048570⟩] })] }, 3, 62, ⟨atSec 100, ⟨0, 1⟩, ⟨1048576, 1⟩, 5, 1048570⟩, [], by decide +kernel⟩,
   ⟨runState, 1, 2, 1, by decide +kernel⟩,
   ⟨setR (setR runState (AF_IN_CTL 9) 0x41) (AF_TONE_CTL 4) 1, 1, 2, 0, 9, by decide +kernel⟩⟩

/-- States and operands that meet the hypotheses of ZoomPathsAreCommanded, clause by clause. -/
theorem witness_ZoomPathsAreCommanded :
    (∃ (s : State) (p : Fin 5) (z : Fin 64) (v : Word), s.mayWrite p (ZP_CTL z) = true ∧
      s.on (ZP_CTL_ENABLE z) = false ∧
      bits v.toNat 0 0 = 1 ∧
      s.dutyDead (ZP_CTL z) = false ∧
      s.inputExists (z / 4) = true ∧
      s.inputRuns (z / 4) = true) ∧
    (∃ (s : State) (p : Fin 5) (z : Fin 64) (v : Word), s.mayWrite p (ZP_CTL z) = true ∧
      s.on (ZP_CTL_ENABLE z) = false ∧
      bits v.toNat 0 0 = 1 ∧
      s.dutyDead (ZP_CTL z) = false ∧
      s.inputExists (z / 4) = true ∧
      s.inputRuns (z / 4) = false) ∧
    (∃ (s : State) (p : Fin 5) (z : Fin 64), s.mayWrite p (ZP_CTL z) = true ∧
      s.on (ZP_CTL_ENABLE z) = true ∧
      s.ztuUses z = false ∧
      (s.zpath z).buf = []) ∧
    (∃ (s : State) (p : Fin 5) (z : Fin 64), s.mayWrite p (ZP_CTL z) = true ∧
      s.on (ZP_CTL_ENABLE z) = true ∧
      s.ztuUses z = true) ∧
    (∃ (s : State) (p : Fin 5) (z : Fin 64) (v : Word), s.mayWrite p (ZP_SWAP_CTL z) = true ∧
      bits v.toNat 0 0 = 1 ∧
      bits v.toNat 2 2 = 0 ∧
      s.on (ZP_CTL_ENABLE z) = true ∧
      s.on (ZP_SWAP_CTL_PENDING z) = false ∧
      tLt (atSecFrac (s.val (ZP_SWAP_SEC z)) (s.val (ZP_SWAP_FRAC z))) s.now = false ∧
      tLt (atSecFrac (s.val (ZP_SWAP_SEC z)) (s.val (ZP_SWAP_FRAC z))) (tAdd s.now (usTicks 100)) = false ∧
      s.flow.requests.any (fun q => q.stage = .input (z / 4) && q.type = .coefSwap && q.target = zoomSid z) = false) ∧
    (∃ (s : State) (p : Fin 5) (z : Fin 64) (v : Word), s.mayWrite p (ZP_SWAP_CTL z) = true ∧
      bits v.toNat 0 0 = 1 ∧
      bits v.toNat 2 2 = 0 ∧
      (s.on (ZP_CTL_ENABLE z) = false ∨ s.on (ZP_SWAP_CTL_PENDING z) = true)) ∧
    (∃ (s : State) (p : Fin 5) (z : Fin 64), s.mayWrite p (ZP_SWAP_CTL z) = true ∧
      s.on (ZP_CTL_ENABLE z) = true ∧
      tLt (atSecFrac (s.val (ZP_SWAP_SEC z)) (s.val (ZP_SWAP_FRAC z))) s.now = false ∧
      tLt (atSecFrac (s.val (ZP_SWAP_SEC z)) (s.val (ZP_SWAP_FRAC z))) (tAdd s.now (usTicks 100)) = false ∧
      s.flow.requests.any (fun q => q.stage = .input (z / 4) && q.type = .syncReset && q.target = zoomSid z) = false) ∧
    (∃ (s : State) (p : Fin 5) (i : Fin 4) (v : Word), s.mayWrite p (ZP_ZTU_CTL (spWin i)) = true ∧
      s.on (ZP_ZTU_CTL_ENABLE (spWin i)) = false ∧
      bits v.toNat 0 0 = 1 ∧
      s.dutyDead (ZP_ZTU_CTL (spWin i)) = false ∧
      (s.plainWrite (ZP_ZTU_CTL (spWin i)) (v.toNat / 2 * 2)).ztuCheck (spWin i) = 0) :=
  ⟨⟨afRun, 1, 13, 1, by decide +kernel⟩,
   ⟨runState, 1, 13, 1, by decide +kernel⟩,
   ⟨setR (setR runState (ZP_CTL 13) 1) (ZP_STATUS 13) 0x1F, 1, 13, by decide +kernel⟩,
   ⟨setR (setR (setR runState (ZP_CTL 13) 1) (ZP_ZTU_CTL 6) 1) (ZP_ZTU_SLOT 6 4) 0x8000014D, 1, 13, by decide +kernel⟩,
   ⟨setR (setR runState (ZP_CTL 13) 1) (ZP_SWAP_SEC 13) 101, 1, 13, 1, by decide +kernel⟩,
   ⟨setR runState (ZP_CTL 13) 0, 1, 13, 1, by decide +kernel⟩,
   ⟨setR (setR runState (ZP_CTL 13) 1) (ZP_SWAP_SEC 13) 101, 1, 13, by decide +kernel⟩,
   ⟨runState, 1, 2, 1, by decide +kernel⟩⟩

/-- States and operands that meet the hypotheses of ZoomPathsSwapAndSend, clause by clause. -/
theorem witness_ZoomPathsSwapAndSend :
    (∃ (s : State) (z : Fin 64) (m : Marker) (rest : List InTok), s.zpWorks z = true ∧
      (s.zpath z).inq = .mark m :: rest ∧
      (s.zpath z).wait = .none ∧
      m.type = .coefSwap ∧
      m.target = zoomSid z ∧
      (s.zpath z).swapAt = some m.time ∧
      s.on (ZP_STATUS_FADING z) = false) ∧
    (∃ (s : State) (z : Fin 64) (m : Marker) (rest : List InTok), s.zpWorks z = true ∧
      (s.zpath z).inq = .mark m :: rest ∧
      (s.zpath z).wait = .none ∧
      m.type = .coefSwap ∧
      m.target = zoomSid z ∧
      (s.zpath z).swapAt = some m.time ∧
      s.on (ZP_STATUS_FADING z) = true) ∧
    (∃ (s : State) (z : Fin 64) (m : Marker) (rest : List InTok), s.zpWorks z = true ∧
      (s.zpath z).inq = .mark m :: rest ∧
      m.type = .syncReset ∧
      m.target = 0xFFFF ∧
      s.on (ZP_STATUS_HELD z) = false ∧
      s.stoppedAll = false) ∧
    (∃ (s : State) (z : Fin 64) (m : Marker) (rest : List InTok), s.zpWorks z = true ∧
      (s.zpath z).inq = .mark m :: rest ∧
      (s.zpath z).wait = .none ∧
      m.type = .syncReset ∧
      m.target ≠ 0xFFFF ∧
      m.target ≠ zoomSid z) ∧
    (∃ (s : State) (z : Fin 64) (g : GapRec) (rest : List InTok), s.zpWorks z = true ∧
      (s.zpath z).inq = .gap g :: rest ∧
      (s.zpath z).wait = .none ∧
      (s.zpath z).buf = [] ∧
      g.final = false ∧
      s.stoppedAll = false ∧
      (s.zpath z).k = (s.zpath z).origin + ((s.zpath z).out * s.zpDec z : Nat)) ∧
    (∃ (s : State) (z : Nat), (s.zpath z).wait = .gap ∧
      s.on (ZP_STATUS_HELD z) = false) ∧
    (∃ (s : State) (z : Fin 64) (g : GapRec) (rest : List InTok), s.zpWorks z = true ∧
      (s.zpath z).inq = .gap g :: rest ∧
      (s.zpath z).wait = .none ∧
      g.final = true) ∧
    (∃ (s : State) (z : Fin 64) (v : Int) (ovr : Bool) (cal : Bool) (rest : List InTok) (f : ZpFade) (c : Int × Int), s.zpWorks z = true ∧
      (s.zpath z).inq = .x v ovr cal :: rest ∧
      (s.zpath z).wait = .none ∧
      (halfBands (s.get (ZP_CFG_PRESET z)) (s.zpath z).stages (zpMix (s.zpath z).nco v).1).2.2 = some c ∧
      (s.zpath z).fade = some f ∧
      f.from_ + f.len ≤ (s.zpath z).out + 1 ∧
      s.on (ZP_STATUS_FADING z) = true ∧
      s.on (ZP_STATUS_HELD z) = false) ∧
    (∃ (s : State) (z : Fin 64) (rest : List InTok), s.zpWorks z = true ∧
      (s.zpath z).inq = .pause :: rest ∧
      (s.zpath z).buf ≠ [] ∧
      s.delivers (zoomSid z) = true ∧
      (s.stream (zoomSid z)).markers = []) ∧
    (∃ (s : State) (z : Fin 64) (v : Int) (ovr : Bool) (cal : Bool) (rest : List InTok) (c : Int × Int), s.zpWorks z = true ∧
      (s.zpath z).inq = .x v ovr cal :: rest ∧
      (s.zpath z).wait = .none ∧
      (halfBands (s.get (ZP_CFG_PRESET z)) (s.zpath z).stages (zpMix (s.zpath z).nco v).1).2.2 = some c ∧
      (s.zpath z).buf.length = 4095 ∧
      (s.zpath z).fade = none ∧
      s.delivers (zoomSid z) = true) ∧
    (∃ (s : State) (i : Fin 4) (k : Fin 16) (x : ZtuSlot), s.on (ZP_ZTU_CTL_ENABLE (spWin i)) = true ∧
      s.on (ZP_ZTU_SLOT_ON (spWin i) k) = true ∧
      s.lost (spWin i) = false ∧
      s.gated (spWin i) = false ∧
      kvGet s.ztu (spWin i * 16 + k) = some x ∧
      x.first ≤ x.j * s.slotHop (spWin i) k ∧
      x.j * s.slotHop (spWin i) k + s.slotPoints (spWin i) k ≤ x.first + x.pts.length) ∧
    (∃ (s : State) (i : Fin 4) (k : Fin 16) (x : ZtuSlot), kvGet s.ztu (spWin i * 16 + k) = some x ∧
      x.first + x.pts.length < x.j * s.slotHop (spWin i) k + s.slotPoints (spWin i) k) :=
  ⟨⟨{ setR (setR (setR zoomRun (ZP_SH_FTW_LO 13) 77) (ZP_SH_COEF 13 2) 5) (ZP_CFG 13) 0x4010001 with zp := [(13, { swapAt := some (atSec 101), inq := [.mark ⟨.coefSwap, false, zoomSid 13, 0, atSec 101, 0, 0⟩] })] }, 13, ⟨.coefSwap, false, zoomSid 13, 0, atSec 101, 0, 0⟩, [], by decide +kernel⟩,
   ⟨{ setR zoomRun (ZP_STATUS 13) 0x0F with zp := [(13, { swapAt := some (atSec 101), inq := [.mark ⟨.coefSwap, false, zoomSid 13, 0, atSec 101, 0, 0⟩] })] }, 13, ⟨.coefSwap, false, zoomSid 13, 0, atSec 101, 0, 0⟩, [], by decide +kernel⟩,
   ⟨{ zoomRun with zp := [(13, { wait := .sync, k := 77, inq := [.mark ⟨.syncReset, false, 0xFFFF, 0, atSec 101, 0, 0⟩] })] }, 13, ⟨.syncReset, false, 0xFFFF, 0, atSec 101, 0, 0⟩, [], by decide +kernel⟩,
   ⟨{ zoomRun with zp := [(13, { k := 77, buf := [(1, 2)], inq := [.mark ⟨.syncReset, false, 3, 0, atSec 101, 0, 0⟩] })] }, 13, ⟨.syncReset, false, 3, 0, atSec 101, 0, 0⟩, [], by decide +kernel⟩,
   ⟨{ zoomRun with zp := [(13, { k := 77, origin := 77, inq := [.gap ⟨3, atSec 1, 77, 6, false⟩, .pause] })] }, 13, ⟨3, atSec 1, 77, 6, false⟩, [.pause], by decide +kernel⟩,
   ⟨{ zoomRun with zp := [(13, { wait := .gap })] }, 13, by decide +kernel⟩,
   ⟨{ zoomRun with zp := [(13, { k := 77, origin := 77, inq := [.gap ⟨3, atSec 1, 77, 6, true⟩] })] }, 13, ⟨3, atSec 1, 77, 6, true⟩, [], by decide +kernel⟩,
   ⟨zoomFade, 13, 5, false, false, [], ⟨[], 0, 16⟩, (zoomOut zoomFade).getD (0, 0), by decide +kernel, by decide +kernel, by decide +kernel, some_of_isSome (o := zoomOut zoomFade) (by decide +kernel), by decide +kernel, by decide +kernel, by decide +kernel, by decide +kernel⟩,
   ⟨{ zoomRun with zp := [(13, { out := 2, buf := [(1, 2), (3, 4)], inq := [.pause] })] }, 13, [], by decide +kernel⟩,
   ⟨zoomFull, 13, 5, false, false, [], (zoomOut zoomFull).getD (0, 0), by decide +kernel, by decide +kernel, by decide +kernel, some_of_isSome (o := zoomOut zoomFull) (by decide +kernel), by decide +kernel, by decide +kernel, by decide +kernel⟩,
   ⟨{ setR (setR zoomRun (ZP_ZTU_CTL 6) 1) (ZP_ZTU_SLOT 6 4) 0x8000014D with ztu := [(100, { pts := List.replicate 1024 (0, 0, false, false, false) })] }, 0, 4, { pts := List.replicate 1024 (0, 0, false, false, false) }, by decide +kernel⟩,
   ⟨{ setR (setR zoomRun (ZP_ZTU_CTL 6) 1) (ZP_ZTU_SLOT 6 4) 0x8000014D with ztu := [(100, { pts := List.replicate 1023 (0, 0, false, false, false) })] }, 0, 4, { pts := List.replicate 1023 (0, 0, false, false, false) }, by decide +kernel⟩⟩

/-- States and operands that meet the hypotheses of BroadTransformsAreCommanded, clause by clause. -/
theorem witness_BroadTransformsAreCommanded :
    (∃ (s : State) (p : Fin 5) (n : Fin 16) (v : Word), s.mayWrite p (BT_CTL n) = true ∧
      s.on (BT_CTL_ENABLE n) = false ∧
      bits v.toNat 0 0 = 1 ∧
      s.dutyDead (BT_CTL n) = false ∧
      (s.plainWrite (BT_CTL n) (v.toNat / 2 * 2)).btCheck n = 0 ∧
      s.inputRuns n = true) ∧
    (∃ (s : State) (p : Fin 5) (n : Fin 16) (v : Word), s.mayWrite p (BT_CTL n) = true ∧
      s.on (BT_CTL_ENABLE n) = false ∧
      bits v.toNat 0 0 = 1 ∧
      s.dutyDead (BT_CTL n) = false ∧
      (s.plainWrite (BT_CTL n) (v.toNat / 2 * 2)).btCheck n ≠ 0) ∧
    (∃ (s : State) (p : Fin 5) (n : Fin 16), s.mayWrite p (BT_CTL n) = true ∧
      s.on (BT_CTL_ENABLE n) = true) ∧
    (∃ (s : State) (p : Fin 5) (n : Fin 16) (v : Word), s.mayWrite p (BT_MK_CTL n) = true ∧
      bits v.toNat 0 0 = 1 ∧
      bits v.toNat 2 2 = 0 ∧
      s.on (BT_CTL_ENABLE n) = true ∧
      s.on (BT_MK_CTL_PENDING n) = false ∧
      tLt (atSecFrac (s.val (BT_MK_SEC n)) (s.val (BT_MK_FRAC n))) s.now = false ∧
      tLt (atSecFrac (s.val (BT_MK_SEC n)) (s.val (BT_MK_FRAC n))) (tAdd s.now (usTicks 100)) = false ∧
      s.flow.requests.any (fun q => q.stage = .input n && q.type = .gainSwitch && q.target = chanSid n) = false) ∧
    (∃ (s : State) (p : Fin 5) (n : Fin 16) (v : Word), s.mayWrite p (BT_MK_CTL n) = true ∧
      bits v.toNat 0 0 = 1 ∧
      bits v.toNat 2 2 = 0 ∧
      (s.on (BT_CTL_ENABLE n) = false ∨ s.on (BT_MK_CTL_PENDING n) = true)) ∧
    (∃ (s : State) (p : Fin 5) (n : Fin 16), s.mayWrite p (BT_MK_CTL n) = true ∧
      s.on (BT_CTL_ENABLE n) = true ∧
      tLt (atSecFrac (s.val (BT_MK_SEC n)) (s.val (BT_MK_FRAC n))) s.now = false ∧
      tLt (atSecFrac (s.val (BT_MK_SEC n)) (s.val (BT_MK_FRAC n))) (tAdd s.now (usTicks 100)) = false ∧
      s.flow.requests.any (fun q => q.stage = .input n && q.type = .syncReset && q.target = chanSid n) = false) :=
  ⟨⟨afRun, 1, 3, 1, by decide +kernel⟩,
   ⟨setR (setR runState (BT_CFG 3) 0x14D) (AF_IN_STATUS 3) 1, 1, 3, 0x1, by decide +kernel⟩,
   ⟨setR (setR runState (BT_CTL 3) 3) (BT_STATUS 3) 0x31F, 1, 3, by decide +kernel⟩,
   ⟨setR (setR runState (BT_CTL 3) 1) (BT_MK_SEC 3) 101, 1, 3, 1, by decide +kernel⟩,
   ⟨runState, 1, 3, 1, by decide +kernel⟩,
   ⟨setR (setR runState (BT_CTL 3) 1) (BT_MK_SEC 3) 101, 1, 3, by decide +kernel⟩⟩

/-- States and operands that meet the hypotheses of BroadTransformsRun, clause by clause. -/
theorem witness_BroadTransformsRun :
    (∃ (s : State) (n : Fin 16) (m : Marker) (rest : List InTok), s.btWorks n = true ∧
      (s.btx n).inq = .mark m :: rest ∧
      (s.btx n).wait = .none ∧
      m.type = .gainSwitch ∧
      m.target = chanSid n ∧
      (s.btx n).swapAt = some m.time ∧
      s.on (BT_STATUS_FADING n) = false) ∧
    (∃ (s : State) (n : Nat), (s.btx n).swapDue = true) ∧
    (∃ (s : State) (n : Fin 16) (m : Marker) (rest : List InTok), s.btWorks n = true ∧
      (s.btx n).inq = .mark m :: rest ∧
      (s.btx n).wait = .none ∧
      m.type = .gainSwitch ∧
      m.target = chanSid n ∧
      (s.btx n).swapAt = some m.time ∧
      s.on (BT_STATUS_FADING n) = true) ∧
    (∃ (s : State) (n : Fin 16) (m : Marker) (rest : List InTok), s.btWorks n = true ∧
      (s.btx n).inq = .mark m :: rest ∧
      m.type = .syncReset ∧
      m.target = 0xFFFF ∧
      s.stoppedAll = false) ∧
    (∃ (s : State) (n : Fin 16) (g : GapRec) (rest : List InTok), s.btWorks n = true ∧
      (s.btx n).inq = .gap g :: rest ∧
      (s.btx n).wait = .none ∧
      g.final = false) ∧
    (∃ (s : State) (n : Nat), (s.btx n).wait = .gap) ∧
    (∃ (s : State) (n : Fin 16) (g : GapRec) (rest : List InTok), s.btWorks n = true ∧
      (s.btx n).inq = .gap g :: rest ∧
      (s.btx n).wait = .none ∧
      g.final = true ∧
      s.stoppedAll = false) ∧
    (∃ (s : State) (n : Fin 16) (v : Int) (ovr : Bool) (cal : Bool) (rest : List InTok), s.btWorks n = true ∧
      (s.btx n).inq = .x v ovr cal :: rest ∧
      (s.btx n).wait = .none ∧
      (s.btx n).skipTo = none ∧
      (s.btx n).swapDue = false ∧
      (s.btx n).gapCause = none ∧
      (s.btx n).takeGap = none ∧
      (s.btx n).k + 1 = (s.btx n).origin + (s.btx n).next * (s.btH n : Int) + (s.btL n : Int)) ∧
    (∃ (s : State) (n : Fin 16) (v : Int) (ovr : Bool) (cal : Bool) (rest : List InTok), s.btWorks n = true ∧
      (s.btx n).inq = .x v ovr cal :: rest ∧
      (s.btx n).wait = .none ∧
      (s.btx n).skipTo = none ∧
      (s.btx n).swapDue = false ∧
      (s.btx n).k + 1 = (s.btx n).origin + (s.btx n).next * (s.btH n : Int) + (s.btL n : Int) ∧
      s.on (BT_STATUS_FADING n) = true ∧
      s.on (BT_STATUS_HELD n) = false ∧
      (s.btx n).active.from_ + (s.btx n).active.fade ≤ (s.btx n).cnt + 1) ∧
    (∃ (s : State) (p : Fin 5) (n : Fin 16), s.mayWrite p (BT_EQ_DATA n) = true ∧
      s.on (BT_EQ_ADDR_BANK n) = false ∧
      s.on (BT_MK_CTL_PENDING n) = false ∧
      s.on (BT_STATUS_FADING n) = false) ∧
    (∃ (s : State) (p : Fin 5) (n : Fin 16), s.mayWrite p (BT_EQ_DATA n) = true ∧
      s.on (BT_EQ_ADDR_BANK n) = true) ∧
    (∃ (s : State) (p : Fin 5) (n : Fin 16), s.mayRead p (BT_EQ_DATA n) = true ∧
      s.on (BT_EQ_ADDR_BANK n) = false) ∧
    (∃ (s : State) (p : Fin 5) (n : Fin 16), s.mayWrite p (BT_WIN_DATA n) = true ∧
      s.on (BT_CTL_ENABLE n) = false) ∧
    (∃ (s : State) (p : Fin 5) (n : Fin 16), s.mayRead p (BT_WIN_DATA n) = true) ∧
    (∃ (s : State) (p : Fin 5) (n : Fin 16), s.mayWrite p (DC_MASK_DATA n) = true ∧
      s.on (DC_MASK_ADDR_BANK n) = false ∧
      s.on (BT_MK_CTL_PENDING n) = false ∧
      s.on (BT_STATUS_FADING n) = false) ∧
    (∃ (s : State) (p : Fin 5) (n : Fin 16), s.mayWrite p (DC_MASK_DATA n) = true ∧
      s.on (DC_MASK_ADDR_BANK n) = true) ∧
    (∃ (s : State) (p : Fin 5) (n : Fin 16), s.mayRead p (DC_MASK_DATA n) = true ∧
      s.on (DC_MASK_ADDR_BANK n) = false) :=
  ⟨⟨{ btRun with bt := [(3, { swapAt := some (atSec 101), eqSh := [(3, 5)], maskSh := [(1, 9)], inq := [.mark ⟨.gainSwitch, false, chanSid 3, 0, atSec 101, 0, 0⟩] })] }, 3, ⟨.gainSwitch, false, chanSid 3, 0, atSec 101, 0, 0⟩, [], by decide +kernel⟩,
   ⟨{ setR btRun (BT_CFG 3) 0x4000D with bt := [(3, { swapDue := true, eqSh := [(3, 5)], maskSh := [(1, 9)] })] }, 3, by decide +kernel⟩,
   ⟨{ setR btRun (BT_STATUS 3) 0x0F with bt := [(3, { swapAt := some (atSec 101), eqSh := [(3, 5)], maskSh := [(1, 9)], inq := [.mark ⟨.gainSwitch, false, chanSid 3, 0, atSec 101, 0, 0⟩] })] }, 3, ⟨.gainSwitch, false, chanSid 3, 0, atSec 101, 0, 0⟩, [], by decide +kernel⟩,
   ⟨{ btRun with bt := [(3, { k := 88, wait := .sync, inq := [.mark ⟨.syncReset, false, 0xFFFF, 0, atSec 101, 0, 0⟩] })] }, 3, ⟨.syncReset, false, 0xFFFF, 0, atSec 101, 0, 0⟩, [], by decide +kernel⟩,
   ⟨{ btRun with bt := [(3, { lastMid := some (7, 9), inq := [.gap ⟨3, atSec 1, 77, 6, false⟩] })] }, 3, ⟨3, atSec 1, 77, 6, false⟩, [], by decide +kernel⟩,
   ⟨{ btRun with bt := [(3, { wait := .gap })] }, 3, by decide +kernel⟩,
   ⟨{ btRun with bt := [(3, { inq := [.gap ⟨3, atSec 1, 77, 6, true⟩] })] }, 3, ⟨3, atSec 1, 77, 6, true⟩, [], by decide +kernel⟩,
   ⟨{ setR btRun (BT_CFG 3) 7 with bt := [(3, { k := 255, inq := [.x 1500 false true] })] }, 3, 1500, false, true, [], by decide +kernel⟩,
   ⟨{ setR (setR btRun (BT_CFG 3) 7) (BT_STATUS 3) 0x8 with bt := [(3, { k := 255, cnt := 15, banks := [⟨0, 16, [], []⟩, ⟨0, 0, [], []⟩], inq := [.x 1500 false true] })] }, 3, 1500, false, true, [], by decide +kernel⟩,
   ⟨setR runState (BT_EQ_ADDR 3) 5, 1, 3, by decide +kernel⟩,
   ⟨setR runState (BT_EQ_ADDR 3) 0x80000005, 1, 3, by decide +kernel⟩,
   ⟨{ setR runState (BT_EQ_ADDR 3) 5 with bt := [(3, { eqSh := [(4, 3), (5, 7)] })] }, 1, 3, by decide +kernel⟩,
   ⟨setR runState (BT_WIN_ADDR 3) 9, 1, 3, by decide +kernel⟩,
   ⟨{ setR runState (BT_WIN_ADDR 3) 9 with bt := [(3, { win := [(8, 3), (9, 7)] })] }, 1, 3, by decide +kernel⟩,
   ⟨setR runState (DC_MASK_ADDR 3) 9, 1, 3, by decide +kernel⟩,
   ⟨setR runState (DC_MASK_ADDR 3) 0x80000009, 1, 3, by decide +kernel⟩,
   ⟨{ setR runState (DC_MASK_ADDR 3) 9 with bt := [(3, { maskSh := [(9, 7)] })] }, 1, 3, by decide +kernel⟩⟩

/-- States and operands that meet the hypotheses of DetectionIntegrates, clause by clause. -/
theorem witness_DetectionIntegrates :
    (∃ (s : State) (q : Fin 4) (src : Fin 32) (d : DetSpec) (rest : List DetTok) (i : Nat), s.gated (spWin q) = false ∧
      s.lost (spWin q) = false ∧
      kvGetD s.dc.queue (detKey (spWin q) src) [] = .spec d :: rest ∧
      d.bad = false ∧
      s.intsOf (spWin q) src = [i] ∧
      s.planesOf (spWin q) src = [] ∧
      (s.intg (spWin q) i).opened = false ∧
      ((s.intg (spWin q) i).seek = false ∨ d.j % ((s.intCfg (spWin q) i).m : Int) = 0)) ∧
    (∃ (s : State) (q : Fin 4) (src : Fin 32) (d : DetSpec) (rest : List DetTok), s.gated (spWin q) = false ∧
      s.lost (spWin q) = false ∧
      kvGetD s.dc.queue (detKey (spWin q) src) [] = .spec d :: rest ∧
      d.bad = true ∧
      ((∀ i ∈ s.intsOf (spWin q) src, (s.intg (spWin q) i).opened = false))) ∧
    (∃ (s : State) (q : Fin 4) (i : Fin 16), (s.intg (spWin q) i).opened = true ∧
      0 < (s.intg (spWin q) i).n) ∧
    (∃ (s : State) (q : Fin 4) (i : Fin 16), (s.intg (spWin q) i).opened = false) ∧
    (∃ (s : State) (p : Fin 5) (q : Fin 4) (i : Fin 16) (v : Word), s.mayWrite p (DC_INT_CTL (spWin q) i) = true ∧
      s.on (DC_INT_CTL_ENABLE (spWin q) i) = false ∧
      bits v.toNat 0 0 = 1 ∧
      s.dutyDead (DC_INT_CTL (spWin q) i) = false ∧
      (s.plainWrite (DC_INT_CTL (spWin q) i) (v.toNat / 2 * 2)).intCheck (spWin q) i = 0 ∧
      s.stoppedAll = false) ∧
    (∃ (s : State) (p : Fin 5) (q : Fin 4) (i : Fin 16) (v : Word), s.mayWrite p (DC_INT_CTL (spWin q) i) = true ∧
      s.on (DC_INT_CTL_ENABLE (spWin q) i) = false ∧
      bits v.toNat 0 0 = 1 ∧
      s.dutyDead (DC_INT_CTL (spWin q) i) = false ∧
      (s.plainWrite (DC_INT_CTL (spWin q) i) (v.toNat / 2 * 2)).intCheck (spWin q) i ≠ 0) ∧
    (∃ (s : State) (q : Fin 4) (src : Fin 32) (i : Nat), s.srcOn (spWin q) src = false ∧
      s.intsOf (spWin q) src = [i] ∧
      s.planesOf (spWin q) src = []) ∧
    (∃ (s : State) (q : Fin 4) (src : Fin 32), s.srcOn (spWin q) src = true) ∧
    (∃ (s : State) (q : Fin 4) (src : Fin 32) (g : GapRec) (rest : List DetTok) (i : Nat), s.gated (spWin q) = false ∧
      s.lost (spWin q) = false ∧
      kvGetD s.dc.queue (detKey (spWin q) src) [] = .gap g :: rest ∧
      s.intsOf (spWin q) src = [i] ∧
      s.planesOf (spWin q) src = [] ∧
      (s.intg (spWin q) i).opened = false ∧
      (s.intg (spWin q) i).begun = true ∧
      s.stoppedAll = false) ∧
    (∃ (s : State) (q : Fin 4) (src : Fin 32), kvGetD s.dc.queue (detKey (spWin q) src) [] = []) :=
  ⟨⟨{ setR (setR runState (DC_INT_CTL 7 3) 1) (DC_INT_M 7 3) 4 with dc := { queue := [(detKey 7 0, [.spec ⟨0x2004, -8, 77, [1], false, false, false, 2, 70, 79, [], []⟩])] } }, 1, 0, ⟨0x2004, -8, 77, [1], false, false, false, 2, 70, 79, [], []⟩, [], 3, by decide +kernel⟩,
   ⟨{ setR (setR runState (DC_INT_CTL 7 3) 1) (DC_INT_M 7 3) 4 with dc := { queue := [(detKey 7 0, [.spec ⟨0x2004, -8, 77, [1], false, false, true, 2, 70, 79, [], []⟩])] } }, 1, 0, ⟨0x2004, -8, 77, [1], false, false, true, 2, 70, 79, [], []⟩, [], by decide +kernel⟩,
   ⟨{ setR (setR (setR runState (DC_INT_CTL 7 3) 1) (DC_INT_M 7 3) 4) (DC_INT_CFG 7 3) 1 with dc := { ints := [(115, { opened := true, n := 3 })] } }, 1, 3, by decide +kernel⟩,
   ⟨runState, 1, 3, by decide +kernel⟩,
   ⟨setR (setR runState (BT_CTL 4) 1) (DC_INT_CFG 7 3) 7, 1, 1, 3, 1, by decide +kernel⟩,
   ⟨runState, 1, 1, 3, 1, by decide +kernel⟩,
   ⟨setR (setR runState (DC_INT_CTL 7 3) 1) (DC_INT_CFG 7 3) 1, 1, 0, 3, by decide +kernel⟩,
   ⟨setR runState (BT_CTL 4) 1, 1, 0, by decide +kernel⟩,
   ⟨{ setR (setR runState (DC_INT_CTL 7 3) 1) (DC_INT_M 7 3) 4 with dc := { ints := [(115, { begun := true })], queue := [(detKey 7 0, [.gap ⟨0x2004, 55, 17, 6, false⟩])] } }, 1, 0, ⟨0x2004, 55, 17, 6, false⟩, [], 3, by decide +kernel⟩,
   ⟨runState, 1, 0, by decide +kernel⟩⟩

/-- States and operands that meet the hypotheses of DensityPlanesAreSent, clause by clause. -/
theorem witness_DensityPlanesAreSent :
    (∃ (s : State) (p : Fin 5) (q : Fin 4) (i : Fin 4) (v : Word), s.mayWrite p (DC_PL_CTL (spWin q) i) = true ∧
      s.on (DC_PL_CTL_ENABLE (spWin q) i) = false ∧
      bits v.toNat 0 0 = 1 ∧
      bits v.toNat 2 2 = 0 ∧
      s.stoppedAll = false ∧
      s.dutyDead (DC_PL_CTL (spWin q) i) = false ∧
      (s.plainWrite (DC_PL_CTL (spWin q) i) 0).planeCheck (spWin q) i = 0) ∧
    (∃ (s : State) (p : Fin 5) (q : Fin 4) (i : Fin 4) (v : Word), s.mayWrite p (DC_PL_CTL (spWin q) i) = true ∧
      s.on (DC_PL_CTL_ENABLE (spWin q) i) = false ∧
      bits v.toNat 0 0 = 1 ∧
      bits v.toNat 2 2 = 0 ∧
      s.dutyDead (DC_PL_CTL (spWin q) i) = false ∧
      (s.plainWrite (DC_PL_CTL (spWin q) i) 0).planeCheck (spWin q) i ≠ 0) ∧
    (∃ (s : State) (p : Fin 5) (q : Fin 4) (i : Fin 4), s.mayWrite p (DC_PL_CTL (spWin q) i) = true) ∧
    (∃ (s : State) (q : Fin 4) (i : Fin 4), s.on (DC_PL_CTL_ENABLE (spWin q) i) = true ∧
      s.on (DC_PL_DUMP_PERIOD_US (spWin q) i) = true ∧
      s.delivers (densSid (spWin q) i) = true ∧
      (s.plane (spWin q) i).missed = none ∧
      (s.plane (spWin q) i).markers = [] ∧
      (s.stream (densSid (spWin q) i)).markers = []) ∧
    (∃ (s : State) (q : Fin 4) (i : Fin 4) (at_ : DevTime) (c : Nat), s.on (DC_PL_CTL_ENABLE (spWin q) i) = true ∧
      s.on (DC_PL_DUMP_PERIOD_US (spWin q) i) = true ∧
      s.delivers (densSid (spWin q) i) = true ∧
      (s.plane (spWin q) i).missed = some (at_, c)) ∧
    (∃ (s : State) (q : Fin 4) (i : Fin 4), s.on (DC_PL_CTL_ENABLE (spWin q) i) = true ∧
      s.on (DC_PL_DUMP_PERIOD_US (spWin q) i) = true ∧
      s.delivers (densSid (spWin q) i) = false ∧
      (s.stream (densSid (spWin q) i)).full = true ∧
      (s.plane (spWin q) i).missed = none) ∧
    (∃ (s : State) (q : Fin 4) (i : Fin 4), s.get (DC_PL_DUMP_PERIOD_US (spWin q) i) = 0) :=
  ⟨⟨setR (setR (setR runState (BT_CTL 4) 1) (DC_PL_SRC 7 2) 0x1000000) (DC_PL_CFG 7 2) 0x1007, 1, 1, 2, 1, by decide +kernel⟩,
   ⟨runState, 1, 1, 2, 1, by decide +kernel⟩,
   ⟨{ setR runState (DC_PL_CTL 7 2) 0 with dc := { planes := [(30, { counts := [(5, 6)], u := 7, snap := 3 })] } }, 1, 1, 2, by decide +kernel⟩,
   ⟨{ setR (setR runState (DC_PL_CTL 7 2) 1) (DC_PL_DUMP 7 2) 1000 with flow := { streams := [((densSid 7 2).toNat, { opened := true, seq := 0xFFFFFFFE })] }, dc := { planes := [(30, { counts := [(5, 6)], u := 7, snap := 3 })] } }, 1, 2, by decide +kernel⟩,
   ⟨{ setR (setR runState (DC_PL_CTL 7 2) 1) (DC_PL_DUMP 7 2) 1000 with flow := { streams := [((densSid 7 2).toNat, { opened := true, seq := 0xFFFFFFFE })] }, dc := { planes := [(30, { counts := [(5, 6)], u := 7, snap := 3, added := 44, missed := some (9, 3) })] } }, 1, 2, 9, 3, by decide +kernel⟩,
   ⟨{ setR (setR runState (DC_PL_CTL 7 2) 1) (DC_PL_DUMP 7 2) 1000 with flow := { streams := [((densSid 7 2).toNat, { opened := true, full := true, lostCause := 2 })] }, dc := { planes := [(30, { counts := [(5, 6)], u := 7, snap := 3, added := 44, lastTime := 5 })] } }, 1, 2, by decide +kernel⟩,
   ⟨setR runState (DC_PL_DUMP 7 2) 0, 1, 2, by decide +kernel⟩⟩

/-- States and operands that meet the hypotheses of TriggerUnitsRun, clause by clause. -/
theorem witness_TriggerUnitsRun :
    (∃ (s : State) (p : Fin 5) (r : Fin 5) (u : Fin 16) (v : Word), ((r = 4 → u.val ≤ 9)) ∧
      s.mayWrite p (TG_U_CTL (tgWin r) u) = true ∧
      s.tgOn r u = false ∧
      bits v.toNat 0 0 = 1 ∧
      bits v.toNat 6 6 = 0 ∧
      (s.plainWrite (TG_U_CTL (tgWin r) u) (setBits v.toNat 0 0 0)).tgCheck r u = 0) ∧
    (∃ (s : State) (p : Fin 5) (r : Fin 5) (u : Fin 16) (v : Word), ((r = 4 → u.val ≤ 9)) ∧
      s.mayWrite p (TG_U_CTL (tgWin r) u) = true ∧
      s.tgOn r u = false ∧
      bits v.toNat 0 0 = 1 ∧
      bits v.toNat 6 6 = 0 ∧
      (s.plainWrite (TG_U_CTL (tgWin r) u) (setBits v.toNat 0 0 0)).tgCheck r u ≠ 0) ∧
    (∃ (s : State) (p : Fin 5) (r : Fin 5) (u : Fin 16), ((r = 4 → u.val ≤ 9)) ∧
      s.mayWrite p (TG_U_CTL (tgWin r) u) = true ∧
      s.tgOn r u = true ∧
      s.tgNamed r u = false ∧
      (s.tgu r u).out = []) ∧
    (∃ (s : State) (p : Fin 5) (r : Fin 5) (u : Fin 16), ((r = 4 → u.val ≤ 9)) ∧
      s.mayWrite p (TG_U_CTL (tgWin r) u) = true ∧
      s.tgOn r u = true ∧
      s.on (TG_U_CTL_ARM_MODE (tgWin r) u) = true ∧
      s.on (TG_U_STATUS_ARMED (tgWin r) u) = false) ∧
    (∃ (s : State) (p : Fin 5) (r : Fin 5) (u : Fin 16), ((r = 4 → u.val ≤ 9)) ∧
      s.mayWrite p (TG_U_CTL (tgWin r) u) = true ∧
      s.on (TG_U_CTL_ARM_MODE (tgWin r) u) = false) ∧
    (∃ (s : State) (r : Fin 5) (u : Fin 16) (e : DevTime), s.on (TG_U_STATUS_HOLDOFF (tgWin r) u) = true ∧
      (s.tgu r u).holdEnd = some e ∧
      tLe e s.now = true ∧
      (r = 4 ∨ u ≠ 12)) ∧
    (∃ (s : State) (r : Fin 5) (u : Fin 16) (e : DevTime), (s.tgu r u).holdEnd = some e ∧
      tLe e s.now = false) ∧
    (∃ (s : State) (q : Fin 5) (u : Fin 16) (b : DevTime) (cause : BitVec 16) (rest : List TgTok), q.val < 4 ∧
      u.val < 12 ∧
      s.tgOn q u = true ∧
      s.gated (tgWin q) = false ∧
      s.lost (tgWin q) = false ∧
      (s.tgu q u).inq = .gap b cause :: rest) ∧
    (∃ (s : State) (q : Fin 4) (u : Fin 8) (re : Int) (im : Int) (ovr : Bool) (cal : Bool) (b : DevTime) (cause : BitVec 16), s.tgOn q u = true ∧
      s.gated (tgWin q) = false ∧
      s.lost (tgWin q) = false ∧
      (s.tgu q u).inq = [.x re im ovr cal] ∧
      (s.tgu q u).crossing = none ∧
      (s.tgu q u).blind = some (b, cause) ∧
      (s.tgu q u).out = [] ∧
      (s.tgQueue q).length < 16384 ∧
      (s.tgLost q).1 = 0 ∧
      nsBetween b (s.levelTime q u (s.tgu q u).at_ 0) < 0xFFFFFFFF) ∧
    (∃ (s : State) (r : Nat) (u : Nat), s.tgOn r u = true ∧
      s.tgSourceOn r u = false) ∧
    (∃ (s : State) (q : Fin 4) (u : Fin 2) (h : Nat × DevTime), s.tgOn q (14 + u) = true ∧
      (s.tgu q (14 + u)).held = [h] ∧
      tLe (tAdd h.2 (s.seqHold q (14 + u))) s.now = true ∧
      s.seqState q (14 + u) = 0 ∧
      s.seqNames q (14 + u) 0 h.1 = true ∧
      1 < s.seqStates q (14 + u)) ∧
    (∃ (s : State) (q : Fin 4) (u : Fin 2) (l : Nat × DevTime), s.seqState q (14 + u) ≠ 0 ∧
      (s.tgu q (14 + u)).times.getLast? = some l ∧
      tLt (tAdd (s.seqWinEnd q (14 + u) (s.seqState q (14 + u)) l.2) (s.seqHold q (14 + u))) s.now = true) :=
  ⟨⟨setR runState (AF_IN_CTL 4) 1, 1, 1, 3, 1, by decide +kernel⟩,
   ⟨runState, 1, 1, 3, 1, by decide +kernel⟩,
   ⟨setR (setR runState (TG_U_CTL 7 3) 1) (TG_U_STATUS 7 3) 3, 1, 1, 3, by decide +kernel⟩,
   ⟨setR runState (TG_U_CTL 7 3) 9, 1, 1, 3, by decide +kernel⟩,
   ⟨setR runState (TG_U_CTL 7 3) 1, 1, 1, 3, by decide +kernel⟩,
   ⟨{ setR (setR runState (TG_U_CTL 7 3) 1) (TG_U_STATUS 7 3) 7 with tg := { units := [(19, { holdEnd := some (atSec 99) })] } }, 1, 3, atSec 99, by decide +kernel⟩,
   ⟨{ setR (setR runState (TG_U_CTL 7 3) 1) (TG_U_STATUS 7 3) 7 with tg := { units := [(19, { holdEnd := some (atSec 101) })] } }, 1, 3, atSec 101, by decide +kernel⟩,
   ⟨{ setR (setR runState (TG_U_CTL 7 3) 1) (AF_IN_CTL 4) 1 with tg := { units := [(19, { inq := [.gap (atSec 99) 6], hist := [(⟨1, 1⟩, false, false)] })] } }, 1, 3, atSec 99, 6, [], by decide +kernel⟩,
   ⟨{ setR (setR runState (TG_U_CTL 7 3) 1) (AF_IN_CTL 4) 1 with tg := { units := [(19, { inq := [.x 5 0 false false], rate := 1000, at_ := 99001, blind := some (atSec 99, 6) })] } }, 1, 3, 5, 0, false, false, atSec 99, 6, by decide +kernel⟩,
   ⟨setR runState (TG_U_CTL 7 3) 1, 1, 3, by decide +kernel⟩,
   ⟨{ setR (setR (setR runState (TG_U_CTL 7 15) 1) (TG_SQ_CFG 7 1) 2) (TG_SQ_MEMBER 7 1 0) 8 with tg := { units := [(31, { held := [(3, atSec 99)] })] } }, 1, 1, (3, atSec 99), by decide +kernel⟩,
   ⟨{ setR (setR runState (TG_U_CTL 7 15) 1) (TG_SQ_STATE 7 1) 1 with tg := { units := [(31, { times := [(3, atSec 99)] })] } }, 1, 1, (3, atSec 99), by decide +kernel⟩⟩

/-- States and operands that meet the hypotheses of ConditionsFireTriggers, clause by clause. -/
theorem witness_ConditionsFireTriggers :
    (∃ (s : State) (q : Fin 4) (u : Fin 8) (re : Int) (im : Int) (ovr : Bool) (cal : Bool) (rest : List TgTok) (x0 : Ratio × Bool × Bool) (x1 : Ratio × Bool × Bool) (x2 : Ratio × Bool × Bool), s.gated (tgWin q) = false ∧
      s.lost (tgWin q) = false ∧
      (s.tgu q u).inq = .x re im ovr cal :: rest ∧
      (s.tgu q u).hist = [x2, x1, x0] ∧
      (s.tgu q u).crossing = some true ∧
      (s.tgu q u).blind = none ∧
      ((∀ m ∈ List.range 257, s.mayFire q u (s.levelTime q u ((s.tgu q u).at_ - 2 * ((s.tgu q u).step : Int)) m) = true))) ∧
    (∃ (s : State) (r : Nat) (u : Nat) (v : Ratio × Bool × Bool) (p : Ratio × Bool × Bool) (l : List (Ratio × Bool × Bool)), (s.tgu r u).hist = p :: l ∧
      (s.tgu r u).qualUp = true ∧
      s.get (TG_LV_SRC_SLOPE (tgWin r) u) ≠ 1 ∧
      ratioLt p.1 (ratioOf (signed 32 (s.val (TG_LV_LEVEL (tgWin r) u)))) = true ∧
      ratioLt v.1 (ratioOf (signed 32 (s.val (TG_LV_LEVEL (tgWin r) u)))) = false) ∧
    (∃ (s : State) (q : Fin 4) (u : Fin 4) (d : DetSpec) (rest : List TgTok), s.gated (tgWin q) = false ∧
      s.lost (tgWin q) = false ∧
      (s.tgu q (8 + u)).inq = .spec d :: rest ∧
      d.bad = false ∧
      (s.tgu q (8 + u)).blind = none ∧
      s.get (TG_MK_SRC_KIND (tgWin q) u) ≠ 2 ∧
      s.get (TG_MK_SRC_COND (tgWin q) u) = 3 ∧
      s.get (TG_MK_MIN_MIN_CH (tgWin q) u) ≤ (s.maskViols q (8 + u) d).length ∧
      s.mayFire q (8 + u) d.time = true) ∧
    (∃ (s : State) (q : Fin 4) (u : Fin 4) (c : KV Nat) (time : DevTime) (lo : DevTime) (hi : DevTime) (ovr : Bool) (cal : Bool) (rest : List TgTok), s.gated (tgWin q) = false ∧
      s.lost (tgWin q) = false ∧
      (s.tgu q (8 + u)).inq = .plane c time lo hi ovr cal :: rest ∧
      (s.tgu q (8 + u)).blind = none ∧
      s.get (TG_MK_SRC_KIND (tgWin q) u) = 2 ∧
      s.get (TG_MK_MIN_MIN_CH (tgWin q) u) ≤
      ((s.densSums q (8 + u) (tgWin q) (s.get (TG_MK_SRC_INDEX (tgWin q) u) % 4) c).filter fun n =>
        decide (s.get (TG_MK_MIN_DENS_MIN (tgWin q) u) ≤ n)).length ∧
      s.mayFire q (8 + u) time = true) ∧
    (∃ (s : State) (q : Fin 4) (b : Fin 64) (d : DetSpec) (rest : List TgTok), s.gated (tgWin q) = false ∧
      s.lost (tgWin q) = false ∧
      (s.band q b).inq = .spec d :: rest ∧
      d.bad = false ∧
      (s.band q b).blind = none ∧
      ((∀ k : Fin 64, k ≠ b → s.on (TG_BP_SRC_ON (tgWin q) k) = false)) ∧
      s.get (TG_BP_AVG_AVG_LOG (tgWin q)) = 0 ∧
      s.on (TG_BP_SRC_DIR (tgWin q) b) = false ∧
      (s.band q b).qual = true ∧
      dbReaches (ratioMul (((d.p.drop (s.get ⟨TG_BP_FIRST (tgWin q) b, 19, 0⟩)).take (s.get ⟨TG_BP_LAST (tgWin q) b, 19, 0⟩ + 1
      - s.get ⟨TG_BP_FIRST (tgWin q) b, 19, 0⟩)).foldl (fun a v => ratioAdd a (f32Num v)) ⟨0, 1⟩) (ratio 1 1))
      (s.getS (TG_BP_LEVEL_LEVEL (tgWin q) b)) 8 = true ∧
      s.tgJudge q 12 (s.band q b).holdEnd d.time = .fire ∧
      s.on (TG_U_CTL_RECORD (tgWin q) 12) = true ∧
      (s.tgu q 12).out = [] ∧
      (s.tgQueue q).length < 16384 ∧
      (s.tgLost q).1 = 0) ∧
    (∃ (s : State) (swarm : Fin 4096) (r : YRec), s.on ST_TG_FB_CFG_RX_EN = true ∧
      swarm.val = s.get ST_TG_FB_CFG_RX_SWARM ∧
      r.hive ≠ s.hive ∧
      r.type = 8 ∧
      r.format = 0x0900 ∧
      r.payload.length = 32 ∧
      8 ≤ r.stream.toNat % 4096 ∧
      s.mayFire 4 8 (BitVec.ofNat 80 (fromLe (r.payload.take 10))) = true) ∧
    (∃ (s : State) (p : Fin 5), s.mayWrite p ST_TG_HO_FIRE = true ∧
      tLe (atSecFrac (s.val ST_TG_HO_SEC) (s.val ST_TG_HO_FRAC)) s.now = true ∧
      tLt (tAdd s.now (10 * 2 ^ 48)) (atSecFrac (s.val ST_TG_HO_SEC) (s.val ST_TG_HO_FRAC)) = false ∧
      s.mayFire 4 9 (atSecFrac (s.val ST_TG_HO_SEC) (s.val ST_TG_HO_FRAC)) = true) ∧
    (∃ (s : State) (p : Fin 5), s.mayWrite p ST_TG_HO_FIRE = true ∧
      tLe (atSecFrac (s.val ST_TG_HO_SEC) (s.val ST_TG_HO_FRAC)) s.now = false) ∧
    (∃ (s : State) (h : DevTime × Nat), s.tg.host = some h ∧
      tLe h.1 s.now = true ∧
      s.mayFire 4 9 h.1 = true) ∧
    (∃ (s : State) (h : DevTime × Nat), s.tg.host = some h ∧
      tLe h.1 s.now = false) ∧
    (∃ (s : State) (q : Fin 4) (c : Nat × DrHit), (s.drift q).cluster = some c ∧
      c.1 + s.drCluster q ≤ (s.drift q).next ∧
      s.mayFire q 13 (s.drTime q c.1) = true ∧
      (s.drift q).blindFrom = none ∧
      (s.drift q).warmFrom = none) ∧
    (∃ (s : State) (q : Fin 4) (f : Nat), s.gated (tgWin q) = false ∧
      s.lost (tgWin q) = false ∧
      s.tgOn q 13 = true ∧
      (s.drift q).first = some f ∧
      (s.drift q).next + s.drSpan q ≤ s.drDone q) ∧
    (∃ (s : State) (q : Fin 4), (s.drift q).inq = [] ∧
      s.drDone q < (s.drift q).next + s.drSpan q) :=
  ⟨⟨{ setR (setR runState (TG_U_CTL 7 3) 0x11) (TG_LV_LEVEL 7 3) 100 with tg := { units := [(19, { inq := [.x 130 0 false false], hist := [(⟨120, 1⟩, false, false), (⟨50, 1⟩, false, false), (⟨0, 1⟩, true, false)], crossing := some true, at_ := 99 })] } }, 1, 3, 130, 0, false, false, [], (⟨0, 1⟩, true, false), (⟨50, 1⟩, false, false), (⟨120, 1⟩, false, false), by decide +kernel⟩,
   ⟨{ setR (setR runState (TG_U_CTL 7 3) 0x11) (TG_LV_LEVEL 7 3) 100 with tg := { units := [(19, { hist := [(⟨99, 1⟩, false, false)], qualUp := true })] } }, 1, 3, (⟨100, 1⟩, false, true), (⟨99, 1⟩, false, false), [], by decide +kernel⟩,
   ⟨{ setR (setR (setR runState (TG_U_CTL 7 9) 0x11) (TG_MK_SRC 7 1) 0x30000) (TG_MK_MIN 7 1) 0 with tg := { units := [(25, { inq := [.spec ⟨0x2004, 3, 77, [5, 6], false, false, false, 1, 70, 79, [], []⟩] })] } }, 1, 1, ⟨0x2004, 3, 77, [5, 6], false, false, false, 1, 70, 79, [], []⟩, [], by decide +kernel⟩,
   ⟨{ setR (setR (setR (setR runState (TG_U_CTL 7 9) 0x11) (TG_MK_SRC 7 1) 0x80040000) (TG_MK_MIN 7 1) 0) (DC_PL_ROWS 7 0) 0x10 with tg := { units := [(25, { inq := [.plane [(3, 4)] 88 80 89 true false] })] } }, 1, 1, [(3, 4)], 88, 80, 89, true, false, [], by decide +kernel⟩,
   ⟨{ setR (setR (setR runState (TG_U_CTL 7 12) 0x11) (TG_BP_SRC 7 5) 0x80000000) (TG_BP_LEVEL 7 5) 0 with tg := { bands := [(69, { qual := true, inq := [.spec ⟨0x2004, 3, 77, [0x41200000, 6], false, false, false, 1, 70, 79, [], []⟩] })] } }, 1, 5, ⟨0x2004, 3, 77, [0x41200000, 6], false, false, false, 1, 70, 79, [], []⟩, [], by decide +kernel⟩,
   ⟨setR (setR runState (TG_U_CTL 1 8) 0x11) ST_TG_FB_CFG 0x8005, 5, ⟨8, 0x8009, 77, 0, 5, 0, 0x0900, 0, 0, 0, 0, 0, List.replicate 32 3⟩, by decide +kernel⟩,
   ⟨setR (setR runState (TG_U_CTL 1 9) 0x11) ST_TG_HO_SEC 90, 1, by decide +kernel⟩,
   ⟨setR (setR runState (TG_U_CTL 1 9) 0x11) ST_TG_HO_SEC 105, 1, by decide +kernel⟩,
   ⟨{ setR runState (TG_U_CTL 1 9) 0x11 with tg := { host := some (atSec 99, 2) } }, (atSec 99, 2), by decide +kernel⟩,
   ⟨{ setR runState (TG_U_CTL 1 9) 0x11 with tg := { host := some (atSec 101, 2) } }, (atSec 101, 2), by decide +kernel⟩,
   ⟨{ setR runState (TG_U_CTL 7 13) 0x11 with tg := { drift := [(1, { cluster := some (0, ⟨0, 0, 0, none⟩), next := 300, rows := [(0, ⟨atSec 50, 40, 60, false, false, [1]⟩)] })] } }, 1, (0, ⟨0, 0, 0, none⟩), by decide +kernel⟩,
   ⟨{ setR (setR runState (TG_U_CTL 7 13) 0x11) (TG_DR_SRC 7) 0x80000000 with tg := { drift := [(1, { first := some 0, at_ := [(16, 100000)] })] } }, 1, 0, by decide +kernel⟩,
   ⟨setR runState (TG_U_CTL 7 13) 0x11, 1, by decide +kernel⟩⟩

/-- States and operands that meet the hypotheses of TriggerQueuesAreRead, clause by clause. -/
theorem witness_TriggerQueuesAreRead :
    (∃ (s : State) (p : Fin 5) (r : Fin 5) (x : TrigRec) (l : List TrigRec), s.mayRead p (TG_QW (tgWin r) 0) = true ∧
      s.tgQueue r = x :: l ∧
      s.on (TG_QCTL_ROUTE (tgWin r)) = false) ∧
    (∃ (s : State) (p : Fin 5) (r : Fin 5), s.mayRead p (TG_QW (tgWin r) 0) = true ∧
      s.tgQueue r = []) ∧
    (∃ (s : State) (p : Fin 5) (r : Fin 5) (x : TrigRec) (l : List TrigRec), s.mayRead p (TG_QW (tgWin r) 7) = true ∧
      s.tgQueue r = x :: l ∧
      s.on (TG_QCTL_ROUTE (tgWin r)) = false ∧
      (s.tgLatch p r).rec_ = some (x, kvGetD s.tg.popped r 0)) ∧
    (∃ (s : State) (p : Fin 5) (r : Fin 5) (x : TrigRec) (k : Nat), s.mayRead p (TG_QW (tgWin r) 7) = true ∧
      (s.tgLatch p r).rec_ = some (x, k) ∧
      k ≠ kvGetD s.tg.popped r 0) ∧
    (∃ (s : State) (r : Fin 5), (s.tgLost r).1 ≠ 0 ∧
      (s.tgQueue r).length < 16384 ∧
      s.on (TG_QCTL_ROUTE (tgWin r)) = false) ∧
    (∃ (s : State) (r : Fin 5), (s.tgLost r).1 ≠ 0 ∧
      (s.tgQueue r).length < 16384 ∧
      s.trigLive r = true) ∧
    (∃ (s : State) (r : Fin 5) (x : TrigRec) (l : List TrigRec), s.tgQueue r = x :: l ∧
      s.trigLive r = true ∧
      s.tgFrameDue r = true ∧
      (s.stream (trigSid r)).markers = [] ∧
      (s.tgLost r).1 = 0) ∧
    (∃ (s : State) (r : Fin 5), s.on (TG_QCTL_ROUTE (tgWin r)) = false) :=
  ⟨⟨{ runState with tg := { queue := [(1, [⟨atSec 3, 0, 3, 0x80, 4, 1, 5, 6, 7, 8⟩])] } }, 1, 1, ⟨atSec 3, 0, 3, 0x80, 4, 1, 5, 6, 7, 8⟩, [], by decide +kernel⟩,
   ⟨runState, 1, 4, by decide +kernel⟩,
   ⟨{ setR runState (TG_QLEVEL 7) 1 with tg := { queue := [(1, [⟨atSec 3, 0, 3, 0x80, 4, 1, 5, 6, 7, 8⟩])], popped := [(1, 9)], latch := [(17, ⟨some (⟨atSec 3, 0, 3, 0x80, 4, 1, 5, 6, 7, 8⟩, 9)⟩)] } }, 1, 1, ⟨atSec 3, 0, 3, 0x80, 4, 1, 5, 6, 7, 8⟩, [], by decide +kernel⟩,
   ⟨{ setR runState (TG_QLEVEL 7) 1 with tg := { queue := [(1, [⟨atSec 3, 0, 3, 0x80, 4, 1, 5, 6, 7, 8⟩])], popped := [(1, 10)], latch := [(17, ⟨some (⟨atSec 3, 0, 3, 0x80, 4, 1, 5, 6, 7, 8⟩, 9)⟩)] } }, 1, 1, ⟨atSec 3, 0, 3, 0x80, 4, 1, 5, 6, 7, 8⟩, 9, by decide +kernel⟩,
   ⟨{ runState with tg := { lost := [(1, (5, 77))] } }, 1, by decide +kernel⟩,
   ⟨{ setR runState (TG_QCTL 7) 1 with flow := { streams := [((trigSid 1).toNat, { opened := true, seq := 9 })] }, tg := { lost := [(1, (5, 77))] } }, 1, by decide +kernel⟩,
   ⟨{ setR runState (TG_QCTL 7) 1 with flow := { streams := [((trigSid 1).toNat, { opened := true, seq := 9 })] }, tg := { frameAt := [(1, atSec 99)], queue := [(1, [⟨atSec 3, 0, 3, 0x80, 4, 1, 5, 6, 7, 8⟩])] } }, 1, ⟨atSec 3, 0, 3, 0x80, 4, 1, 5, 6, 7, 8⟩, [], by decide +kernel⟩,
   ⟨runState, 1, by decide +kernel⟩⟩

/-- States and operands that meet the hypotheses of EventChannelsStamp, clause by clause. -/
theorem witness_EventChannelsStamp :
    (∃ (s : State) (p : Fin 5) (c : Fin 32) (v : Word), s.mayWrite p (ST_ET_CTL c) = true ∧
      bits v.toNat 11 10 ≠ 3 ∧
      bits v.toNat 9 8 ≠ 3 ∧
      s.dutyDead (ST_ET_CTL c) = false) ∧
    (∃ (s : State) (p : Fin 5) (c : Fin 32) (v : Word), s.mayWrite p (ST_ET_CTL c) = true ∧
      (bits v.toNat 11 10 = 3 ∨ bits v.toNat 9 8 = 3)) ∧
    (∃ (c : Fin 32), c.val < 16) ∧
    (∃ (s : State) (c : Fin 32) (v : Int) (f : Bool) (t0 : DevTime) (b : Fin 64), (s.etLevel c v).2 = !f ∧
      (s.etc c).high = f ∧
      s.etRuns c = true ∧
      s.etSelected c f = true ∧
      (s.etc c).blind = none ∧
      s.get (ST_ET_CTL_MODE c) = 1 ∧
      (match (s.etc c).lastEdge with | some p => deadOver p (s.etStamp c t0 b) | none => true) = true ∧
      (s.etc c).since = 0 ∧
      s.on (ST_ET_CTL_STAMP_OUT c) = true ∧
      (s.etc c).queue.length < 4096 ∧
      (s.etc c).lost = 0) ∧
    (∃ (s : State) (c : Fin 32) (v : Int) (f : Bool) (t0 : DevTime) (e : DevTime) (b : Fin 64), (s.etLevel c v).2 = !f ∧
      (s.etc c).high = f ∧
      s.etRuns c = true ∧
      s.etSelected c f = true ∧
      (s.etc c).blind = none ∧
      s.get (ST_ET_CTL_MODE c) = 1 ∧
      (s.etc c).lastEdge = some e ∧
      deadOver e (s.etStamp c t0 b) = false) ∧
    (∃ (s : State) (c : Fin 32) (v : Int) (f : Bool), (s.etLevel c v).2 = !f ∧
      (s.etc c).high = f ∧
      s.etSelected c f = false) ∧
    (∃ (s : State) (c : Fin 32) (v : Int) (f : Bool) (t0 : DevTime) (b : Fin 64) (g : EtGate), (s.etLevel c v).2 = !f ∧
      (s.etc c).high = f ∧
      s.etRuns c = true ∧
      s.etSelected c f = true ∧
      (s.etc c).blind = none ∧
      s.get (ST_ET_CTL_MODE c) = 2 ∧
      (s.etc c).begun = true ∧
      s.etPassed c (s.etStamp c t0 b) = 0 ∧
      1 ≤ (s.etc c).inGate ∧
      (s.etc c).gate = some g) ∧
    (∃ (s : State) (c : Fin 32) (v : Int) (f : Bool) (t0 : DevTime) (b : Fin 64) (g : EtGate) (q : Nat), (s.etLevel c v).2 = !f ∧
      (s.etc c).high = f ∧
      s.etRuns c = true ∧
      s.etSelected c f = true ∧
      (s.etc c).blind = none ∧
      s.get (ST_ET_CTL_MODE c) = 2 ∧
      (s.etc c).begun = true ∧
      (s.etc c).bound = some q ∧
      s.etPassed c (s.etStamp c t0 b) = 1 ∧
      2 ≤ (s.etc c).inGate ∧
      (s.etc c).gate = some g ∧
      s.on (ST_ET_CTL_STAMP_OUT c) = true ∧
      (s.etc c).queue.length < 4095 ∧
      (s.etc c).lost = 0) ∧
    (∃ (s : State) (c : Fin 32) (t0 : DevTime) (b : Fin 64) (q : Nat), (s.etc c).bound = some q ∧
      tLe (usTime q) (s.etStamp c t0 b) = false) ∧
    (∃ (s : State) (c : Fin 32) (q : Nat), s.etRuns c = true ∧
      s.get (ST_ET_CTL_MODE c) = 2 ∧
      (s.etc c).bound = some q ∧
      tLe (usTime q) s.now = true ∧
      (s.etc c).begun = true ∧
      (s.etc c).inGate < 2 ∧
      s.on (ST_ET_CTL_STAMP_OUT c) = true ∧
      (s.etc c).queue.length < 4095 ∧
      (s.etc c).lost = 0) ∧
    (∃ (s : State) (c : Fin 32), s.etRuns c = true ∧
      s.val (ST_ET_STUCK c) ≠ 0 ∧
      s.etActive c (s.etc c).high = true ∧
      (s.etc c).stuck = false ∧
      tLe (tAdd (s.etc c).levelFrom (nsTicks (100 * s.val (ST_ET_STUCK c)))) s.now = true ∧
      (s.etc c).queue.length < 4096 ∧
      (s.etc c).lost = 0) ∧
    (∃ (s : State) (c : Fin 32), s.val (ST_ET_STUCK c) = 0) :=
  ⟨⟨runState, 1, 3, 0x501, by decide +kernel⟩,
   ⟨runState, 1, 3, 0xD01, by decide +kernel⟩,
   ⟨3, by decide +kernel⟩,
   ⟨setR runState (ST_ET_CTL 3) 0x141, 3, 9000000, false, atSec 100, 5, by decide +kernel⟩,
   ⟨{ setR runState (ST_ET_CTL 3) 0x141 with et := { chans := [(3, { lastEdge := some (atSec 100), since := 4 })] } }, 3, 9000000, false, atSec 100, atSec 100, 5, by decide +kernel⟩,
   ⟨{ setR runState (ST_ET_CTL 3) 0x141 with et := { chans := [(3, { high := true })] } }, 3, -9000000, true, by decide +kernel⟩,
   ⟨{ setR runState (ST_ET_CTL 3) 0x241 with et := { chans := [(3, { begun := true, inGate := 4, bound := some 200000000, gate := some ⟨atSec 98, false, 7, false⟩ })] } }, 3, 9000000, false, atSec 100, 5, ⟨atSec 98, false, 7, false⟩, by decide +kernel⟩,
   ⟨{ setR (setR runState (ST_ET_GATE 3) 1000000) (ST_ET_CTL 3) 0x241 with et := { chans := [(3, { begun := true, inGate := 8, bound := some 99500000, gate := some ⟨atSec 98, false, 7, false⟩ })] } }, 3, 9000000, false, atSec 100, 5, ⟨atSec 98, false, 7, false⟩, 99500000, by decide +kernel⟩,
   ⟨{ setR runState (ST_ET_CTL 3) 0x241 with et := { chans := [(3, { bound := some 199000000 })] } }, 3, atSec 100, 5, 199000000, by decide +kernel⟩,
   ⟨{ setR runState (ST_ET_CTL 3) 0x241 with et := { chans := [(3, { begun := true, bound := some 99000000 })] } }, 3, 99000000, by decide +kernel⟩,
   ⟨{ setR (setR runState (ST_ET_CTL 3) 0x141) (ST_ET_STUCK 3) 100 with et := { chans := [(3, { high := true, levelFrom := atSec 99 })] } }, 3, by decide +kernel⟩,
   ⟨setR runState (ST_ET_STUCK 3) 0, 3, by decide +kernel⟩⟩

/-- States and operands that meet the hypotheses of EventQueuesAndIntervals, clause by clause. -/
theorem witness_EventQueuesAndIntervals :
    (∃ (s : State) (p : Fin 5) (k : Fin 16) (v : Word), s.mayWrite p (ST_IV_CTL k) = true ∧
      s.on (ST_IV_CTL_ENABLE k) = false ∧
      bits v.toNat 0 0 = 1 ∧
      s.dutyDead (ST_IV_CTL k) = false ∧
      (s.plainWrite (ST_IV_CTL k) (v.toNat / 2 * 2)).ivCheck k = 0) ∧
    (∃ (s : State) (p : Fin 5) (k : Fin 16) (v : Word), s.mayWrite p (ST_IV_CTL k) = true ∧
      s.on (ST_IV_CTL_ENABLE k) = false ∧
      bits v.toNat 0 0 = 1 ∧
      s.dutyDead (ST_IV_CTL k) = false ∧
      (s.plainWrite (ST_IV_CTL k) (v.toNat / 2 * 2)).ivCheck k ≠ 0) ∧
    (∃ (s : State) (k : Fin 16) (a : DevTime), (s.iv k).starts = [a] ∧
      (s.iv k).stops = [] ∧
      s.on (ST_IV_CTL_ENABLE k) = true ∧
      tLt s.now (tAdd a (nsTicks (s.val (ST_IV_WINDOW k)))) = false ∧
      (s.etc (s.get (ST_IV_CTL_START_CH k))).queue.length < 4096 ∧
      (s.etc (s.get (ST_IV_CTL_START_CH k))).lost = 0) ∧
    (∃ (s : State) (k : Fin 16) (a : DevTime) (b : DevTime), (s.iv k).starts = [a] ∧
      (s.iv k).stops = [b] ∧
      s.on (ST_IV_CTL_ENABLE k) = true ∧
      tLt s.now (tAdd a (nsTicks (s.val (ST_IV_WINDOW k)))) = false ∧
      (tDiff b a).natAbs ≤ nsTicks (s.val (ST_IV_WINDOW k)) ∧
      withinBin a b = false ∧
      (s.etc (s.get (ST_IV_CTL_START_CH k))).queue.length < 4096 ∧
      (s.etc (s.get (ST_IV_CTL_START_CH k))).lost = 0) ∧
    (∃ (s : State) (p : Fin 5) (c : Fin 32) (e : EtEntry) (l : List EtEntry), s.mayRead p (ST_ET_QW c 0) = true ∧
      (s.etc c).queue = e :: l ∧
      s.on (ST_ET_CTL_ROUTE c) = false) ∧
    (∃ (s : State) (p : Fin 5) (c : Fin 32) (e : EtEntry) (l : List EtEntry), s.mayRead p (ST_ET_QW c 3) = true ∧
      (s.etc c).queue = e :: l ∧
      s.on (ST_ET_CTL_ROUTE c) = false ∧
      kvGetD s.et.latch (32 * p + c) none = some (e, (s.etc c).popped)) ∧
    (∃ (s : State) (k : Fin 16) (a : DevTime) (b : DevTime), (s.iv k).starts = [a] ∧
      (s.iv k).stops = [b] ∧
      s.on (ST_IV_CTL_ENABLE k) = true ∧
      tLt s.now (tAdd a (nsTicks (s.val (ST_IV_WINDOW k)))) = false ∧
      (tDiff b a).natAbs ≤ nsTicks (s.val (ST_IV_WINDOW k)) ∧
      withinBin a b = true ∧
      (s.etc (s.get (ST_IV_CTL_START_CH k))).queue.length < 4096 ∧
      (s.etc (s.get (ST_IV_CTL_START_CH k))).lost = 0) ∧
    (∃ (s : State) (c : Fin 32), (s.etc c).lost ≠ 0 ∧
      (s.etc c).queue.length < 4096) ∧
    (∃ (s : State) (c : Fin 32), (s.etc c).lost = 0) ∧
    (∃ (s : State) (c : Fin 32) (e : EtEntry), s.evntOpen c = true ∧
      s.etFrameDue c = true ∧
      (s.stream (evntSid c)).markers = [] ∧
      (s.etc c).queue = [e] ∧
      e.kind = 0 ∧
      (s.etc c).lost = 0 ∧
      (s.etc c).markers = []) ∧
    (∃ (s : State) (c : Fin 32) (e : EtEntry), s.evntOpen c = true ∧
      (s.etc c).queue = [e] ∧
      e.kind = 5 ∧
      (s.etc c).lost = 0) ∧
    (∃ (s : State) (c : Fin 32) (q : DevTime × Nat), s.etRuns c = true ∧
      (s.etc c).blind = some q ∧
      tLt s.now q.1 = false ∧
      (s.etc c).queue.length < 4096 ∧
      (s.etc c).lost = 0) :=
  ⟨⟨setR (setR runState (ST_ET_CTL 0) 0x101) (ST_ET_CTL 1) 0x101, 1, 3, 0x1, by decide +kernel⟩,
   ⟨runState, 1, 3, 0x1, by decide +kernel⟩,
   ⟨{ setR runState (ST_IV_CTL 3) 1 with et := { units := [(3, { starts := [atSec 98] })] } }, 3, atSec 98, by decide +kernel⟩,
   ⟨{ setR (setR runState (ST_IV_CTL 3) 1) (ST_IV_WINDOW 3) 1000 with et := { units := [(3, { starts := [atSec 98], stops := [tAdd (atSec 98) (2 ^ 26)] })] } }, 3, atSec 98, tAdd (atSec 98) (2 ^ 26), by decide +kernel⟩,
   ⟨{ runState with et := { chans := [(3, { queue := [⟨atSec 7, 0, 128, 0⟩] })] } }, 1, 3, ⟨atSec 7, 0, 128, 0⟩, [], by decide +kernel⟩,
   ⟨{ runState with et := { chans := [(3, { queue := [⟨atSec 7, 0, 128, 0⟩], popped := 5 })], latch := [(35, some (⟨atSec 7, 0, 128, 0⟩, 5))] } }, 1, 3, ⟨atSec 7, 0, 128, 0⟩, [], by decide +kernel⟩,
   ⟨{ setR (setR runState (ST_IV_CTL 3) 1) (ST_IV_WINDOW 3) 1000 with et := { units := [(3, { starts := [atSec 98], stops := [tAdd (atSec 98) 1375] })] } }, 3, atSec 98, tAdd (atSec 98) 1375, by decide +kernel⟩,
   ⟨{ runState with et := { chans := [(3, { lost := 9, lastTime := 5 })] } }, 3, by decide +kernel⟩,
   ⟨runState, 3, by decide +kernel⟩,
   ⟨{ setR runState (ST_ET_CTL 3) 0x81 with flow := { streams := [((evntSid 3).toNat, { opened := true, seq := 4 })] }, et := { chans := [(3, { frameAt := some (atSec 99), queue := [⟨atSec 7, 0, 128, 0⟩] })] } }, 3, ⟨atSec 7, 0, 128, 0⟩, by decide +kernel⟩,
   ⟨{ setR runState (ST_ET_CTL 3) 0x81 with flow := { streams := [((evntSid 3).toNat, { opened := true, seq := 4 })] }, et := { chans := [(3, { queue := [⟨atSec 7, 5, 131, 0⟩] })] } }, 3, ⟨atSec 7, 5, 131, 0⟩, by decide +kernel⟩,
   ⟨{ setR runState (ST_ET_CTL 3) 0x101 with et := { chans := [(3, { blind := some (atSec 99, 4) })] } }, 3, (atSec 99, 4), by decide +kernel⟩⟩

/-- States and operands that meet the hypotheses of RingsHoldAndGroupsAccept, clause by clause. -/
theorem witness_RingsHoldAndGroupsAccept :
    (∃ (s : State) (p : Fin 5) (n : Fin 16) (v : Word), s.mayWrite p (QU_VR_CTL n) = true ∧
      s.on (QU_VR_CTL_ENABLE n) = false ∧
      bits v.toNat 0 0 = 1 ∧
      s.dutyDead (QU_VR_CTL n) = false ∧
      (s.plainWrite (QU_VR_CTL n) (v.toNat / 2 * 2)).ringCheck n = 0) ∧
    (∃ (s : State) (p : Fin 5) (n : Fin 16) (v : Word), s.mayWrite p (QU_VR_CTL n) = true ∧
      s.on (QU_VR_CTL_ENABLE n) = false ∧
      bits v.toNat 0 0 = 1 ∧
      s.dutyDead (QU_VR_CTL n) = false ∧
      (s.plainWrite (QU_VR_CTL n) (v.toNat / 2 * 2)).ringCheck n ≠ 0) ∧
    (∃ (s : State) (n : Fin 16) (q : RingRun), (s.ring n).runs.getLast? = some q ∧
      (s.ring n).log.length < 256) ∧
    (∃ (s : State) (n : Fin 16), (s.ring n).runs = []) ∧
    (∃ (s : State) (g : Fin 64) (x : TrigRec), s.on (QU_G_CTL_ENABLE g) = true ∧
      x.unit < 16 ∧
      bits (s.get (QU_G_TRIG_UNITS x.region g)) x.unit x.unit = 1 ∧
      (s.group g).last = none ∧
      (s.group g).quires = []) ∧
    (∃ (s : State) (g : Fin 64) (x : TrigRec) (k : Nat) (f : Int), s.on (QU_G_CTL_ENABLE g) = true ∧
      bits (s.get (QU_G_TRIG_UNITS x.region g)) x.unit x.unit = 1 ∧
      s.on (QU_G_CTL_RETRIG g) = false ∧
      (s.group g).last = some (k, f) ∧
      f < instAt (s.fsHz ((s.quInputs g).headD 0)) x.time - s.quPre g + s.quLen g ∧
      instAt (s.fsHz ((s.quInputs g).headD 0)) x.time - s.quPre g < f + s.quLen g) ∧
    (∃ (s : State) (g : Fin 64) (x : TrigRec), s.on (QU_G_CTL_ENABLE g) = true ∧
      bits (s.get (QU_G_TRIG_UNITS x.region g)) x.unit x.unit = 1 ∧
      s.on (QU_G_CTL_RETRIG g) = true ∧
      16 ≤ (s.group g).quires.length ∧
      s.on (QU_G_CTL_KEEP g) = false ∧
      s.stoppedAll = false) :=
  ⟨⟨memState, 1, 3, 1, by decide +kernel⟩,
   ⟨runState, 1, 3, 1, by decide +kernel⟩,
   ⟨{ runState with qu := { rings := [(3, { len := 1000, fs := 7, runs := [⟨10, [1, 2, 3], [], false⟩], next := some 13 })] } }, 3, ⟨10, [1, 2, 3], [], false⟩, by decide +kernel⟩,
   ⟨runState, 3, by decide +kernel⟩,
   ⟨setR (setR (setR runState (QU_G_CTL 3) 1) (QU_G_TRIG 1 3) 8) (QU_G_INPUTS 3) 2, 3, ⟨atSec 3, 0, 3, 0x80, 4, 1, 5, 6, 7, 8⟩, by decide +kernel⟩,
   ⟨{ setR (setR (setR (setR runState (QU_G_CTL 3) 1) (QU_G_TRIG 1 3) 8) (QU_G_INPUTS 3) 2) (QU_G_LEN 3) 2 with qu := { groups := [(3, { last := some (0, 12800000000 * 3) })] } }, 3, ⟨atSec 3, 0, 3, 0x80, 4, 1, 5, 6, 7, 8⟩, 0, 12800000000 * 3, by decide +kernel⟩,
   ⟨{ setR (setR (setR runState (QU_G_CTL 3) 5) (QU_G_TRIG 1 3) 8) (QU_G_INPUTS 3) 2 with qu := { groups := [(3, { quires := List.replicate 16 { num := 0, first := 0, fs := 1, trig := [], coasting := false, ins := [], len256 := 1, pre256 := 0, addr := 0, colo := 0 } })] } }, 3, ⟨atSec 3, 0, 3, 0x80, 4, 1, 5, 6, 7, 8⟩, by decide +kernel⟩⟩

/-- States and operands that meet the hypotheses of QuiresCloseAndLeave, clause by clause. -/
theorem witness_QuiresCloseAndLeave :
    (∃ (s : State) (g : Fin 64) (q : Quire) (l : List Quire), s.gated 11 = false ∧
      s.lost 11 = false ∧
      s.on CM_STATUS_LOST = false ∧
      (s.group g).quires = q :: l ∧
      q.began = none ∧
      s.slotFree g q.num = true ∧
      ((∀ k ∈ List.range 128, s.chanLost k = false))) ∧
    (∃ (s : State) (g : Fin 64) (q : Quire) (l : List Quire), (s.group g).quires = q :: l ∧
      q.began = none ∧
      s.slotFree g q.num = false) ∧
    (∃ (s : State) (g : Fin 64) (q : Quire) (l : List Quire), s.gated 11 = false ∧
      s.lost 11 = false ∧
      s.on CM_STATUS_LOST = false ∧
      (s.group g).quires = q :: l ∧
      q.began.isSome = true ∧
      q.done = q.len ∧
      q.num < 2 ^ 56 ∧
      ((∀ k ∈ List.range 128, s.chanLost k = false))) ∧
    (∃ (s : State) (g : Fin 64) (q : Quire) (l : List Quire), (s.group g).quires = q :: l ∧
      q.began = none) ∧
    (∃ (s : State) (p : Fin 5) (g : Fin 64) (v : Word) (c : Nat), s.mayWrite p (QU_G_RELEASE_HI g) = true ∧
      (s.group g).closed = some c ∧
      (s.group g).relLo.toNat + 2 ^ 32 * v.toNat ≤ c ∧
      c < 2 ^ 64 - 1 ∧
      ((∀ x, (s.group g).released = some x → x ≤ (s.group g).relLo.toNat + 2 ^ 32 * v.toNat))) ∧
    (∃ (s : State) (p : Fin 5) (g : Fin 64) (v : Word) (c : Nat), s.mayWrite p (QU_G_RELEASE_HI g) = true ∧
      (s.group g).closed = some c ∧
      c < (s.group g).relLo.toNat + 2 ^ 32 * v.toNat) ∧
    (∃ (s : State) (g : Fin 64) (e : QExport) (l : List QExport), s.gated 11 = false ∧
      s.lost 11 = false ∧
      s.on CM_STATUS_LOST = false ∧
      (s.group g).exports = e :: l ∧
      e.slice < ceilDiv e.quire.len sliceMax * e.quire.ins.length ∧
      (s.stream (sid 9 g)).full = false ∧
      (s.stream (sid 9 g)).lost = 0) ∧
    (∃ (s : State) (g : Fin 64) (e : QExport) (l : List QExport), s.gated 11 = false ∧
      s.lost 11 = false ∧
      s.on CM_STATUS_LOST = false ∧
      (s.group g).exports = e :: l ∧
      ceilDiv e.quire.len sliceMax * e.quire.ins.length ≤ e.slice ∧
      (s.stream (sid 10 g)).full = false ∧
      (s.stream (sid 10 g)).lost = 0 ∧
      e.lost = 0) ∧
    (∃ (s : State) (p : Fin 5) (g : Fin 64) (v : Word), s.mayWrite p (QU_G_CTL g) = true ∧
      s.on (QU_G_CTL_ENABLE g) = false ∧
      bits v.toNat 0 0 = 1 ∧
      s.dutyDead (QU_G_CTL g) = false ∧
      (s.plainWrite (QU_G_CTL g) (v.toNat / 2 * 2)).groupCheck g = 0 ∧
      s.stoppedAll = false) ∧
    (∃ (s : State) (p : Fin 5) (g : Fin 64), s.mayWrite p (QU_G_CTL g) = true ∧
      s.on (QU_G_CTL_ENABLE g) = true ∧
      (s.group g).quires = []) :=
  ⟨⟨{ setR runState (QU_G_NQ 3) 4 with qu := { groups := [(3, { quires := [{ num := 5, first := 0, fs := 1, trig := [], coasting := false, ins := [(0, false)], len256 := 1, pre256 := 0, addr := 8192, colo := 4096 }] })] } }, 3, { num := 5, first := 0, fs := 1, trig := [], coasting := false, ins := [(0, false)], len256 := 1, pre256 := 0, addr := 8192, colo := 4096 }, [], by decide +kernel⟩,
   ⟨{ setR (setR runState (QU_G_NQ 3) 4) (QU_G_CTL 3) 2 with qu := { groups := [(3, { quires := [{ num := 5, first := 0, fs := 1, trig := [], coasting := false, ins := [(0, false)], len256 := 1, pre256 := 0, addr := 8192, colo := 4096 }] })] } }, 3, { num := 5, first := 0, fs := 1, trig := [], coasting := false, ins := [(0, false)], len256 := 1, pre256 := 0, addr := 8192, colo := 4096 }, [], by decide +kernel⟩,
   ⟨{ setR (setR runState (QU_G_NQ 3) 4) (QU_G_LEN 3) 0 with qu := { groups := [(3, { quires := [{ num := 5, first := 0, fs := 1, trig := [], coasting := false, ins := [(0, false)], len256 := 0, pre256 := 0, addr := 8192, colo := 4096, began := some 4, data := [[]] }] })] } }, 3, { num := 5, first := 0, fs := 1, trig := [], coasting := false, ins := [(0, false)], len256 := 0, pre256 := 0, addr := 8192, colo := 4096, began := some 4, data := [[]] }, [], by decide +kernel⟩,
   ⟨{ runState with qu := { groups := [(3, { quires := [{ num := 5, first := 0, fs := 1, trig := [], coasting := false, ins := [(0, false)], len256 := 1, pre256 := 0, addr := 8192, colo := 4096 }] })] } }, 3, { num := 5, first := 0, fs := 1, trig := [], coasting := false, ins := [(0, false)], len256 := 1, pre256 := 0, addr := 8192, colo := 4096 }, [], by decide +kernel⟩,
   ⟨{ runState with qu := { groups := [(3, { closed := some 7, relLo := 7, released := some 5 })] } }, 1, 3, 0, 7, by decide +kernel⟩,
   ⟨{ runState with qu := { groups := [(3, { closed := some 7, relLo := 8 })] } }, 1, 3, 0, 7, by decide +kernel⟩,
   ⟨{ setR (setR runState (QU_G_LEN 3) 1) (QU_G_INPUTS 3) 5 with qu := { groups := [(3, { exports := [⟨{ num := 5, first := 0, fs := 1, trig := [], coasting := false, ins := [(0, false), (2, true)], len256 := 1, pre256 := 0, addr := 8192, colo := 4096, data := [[], []] }, [], [], 1, 0⟩] })] } }, 3, ⟨{ num := 5, first := 0, fs := 1, trig := [], coasting := false, ins := [(0, false), (2, true)], len256 := 1, pre256 := 0, addr := 8192, colo := 4096, data := [[], []] }, [], [], 1, 0⟩, [], by decide +kernel⟩,
   ⟨{ setR (setR runState (QU_G_LEN 3) 1) (QU_G_INPUTS 3) 5 with qu := { groups := [(3, { exports := [⟨{ num := 5, first := 0, fs := 1, trig := [], coasting := false, ins := [(0, false), (2, true)], len256 := 1, pre256 := 0, addr := 8192, colo := 4096, data := [[], []] }, [], [], 2, 0⟩] })] } }, 3, ⟨{ num := 5, first := 0, fs := 1, trig := [], coasting := false, ins := [(0, false), (2, true)], len256 := 1, pre256 := 0, addr := 8192, colo := 4096, data := [[], []] }, [], [], 2, 0⟩, [], by decide +kernel⟩,
   ⟨{ setR (setR (setR (setR (setR memState (QU_VR_CTL 0) 1) (QU_G_INPUTS 3) 1) (QU_G_LEN 3) 16) (QU_G_TRIG 1 3) 1) (QU_G_AREA 3) 16 with qu := { rings := [(0, { len := 100000 })] } }, 1, 3, 1, by decide +kernel⟩,
   ⟨setR runState (QU_G_CTL 3) 1, 1, 3, by decide +kernel⟩⟩

/-- States and operands that meet the hypotheses of CrossSpectraAlignAndDump, clause by clause. -/
theorem witness_CrossSpectraAlignAndDump :
    (∃ (s : State) (p : Fin 5) (v : Word), s.mayWrite p CE_XS_CTL = true ∧
      s.on CE_XS_CTL_ENABLE = false ∧
      bits v.toNat 0 0 = 1 ∧
      s.dutyDead CE_XS_CTL = false ∧
      (s.plainWrite CE_XS_CTL (v.toNat / 2 * 2)).xsCheck = 0 ∧
      s.stoppedAll = false) ∧
    (∃ (s : State) (p : Fin 5) (v : Word), s.mayWrite p CE_XS_CTL = true ∧
      s.on CE_XS_CTL_ENABLE = false ∧
      bits v.toNat 0 0 = 1 ∧
      s.dutyDead CE_XS_CTL = false ∧
      (s.plainWrite CE_XS_CTL (v.toNat / 2 * 2)).xsCheck ≠ 0) ∧
    (∃ (s : State) (x : Fin 32) (d : CeSpec), s.gated 10 = false ∧
      s.lost 10 = false ∧
      kvGetD s.ce.inq x [] = [.spec d (s.heldEpoch 10 (sid 2 x)) []] ∧
      d.x = x.val ∧
      s.ceOn x = true ∧
      s.flow.requests.all (fun q => q.stage != .cb) = true ∧
      s.on CE_XS_STATUS_RUNNING = true ∧
      x.val ∈ s.xsNamed ∧
      timeDone s.ce.done d.time = false ∧
      s.ce.times = [] ∧
      ((∀ b ∈ List.range 32, s.on (CE_BM_CTL_ENABLE b) = false)) ∧
      s.xsNamed.any (fun y => decide (y ≠ x.val) && (s.xsRemote || !(s.cePast y d.time))) = true) ∧
    (∃ (s : State) (x : Fin 32) (d : CeSpec), s.gated 10 = false ∧
      s.lost 10 = false ∧
      kvGetD s.ce.inq x [] = [.spec d (s.heldEpoch 10 (sid 2 x)) []] ∧
      d.x = x.val ∧
      x.val < 16 ∧
      s.ceOn x = true ∧
      s.flow.requests.all (fun q => q.stage != .cb) = true ∧
      s.on CE_XS_STATUS_RUNNING = true ∧
      x.val ∈ s.xsNamed ∧
      d.time ∈ s.ce.done ∧
      ((∀ b ∈ List.range 32, s.on (CE_BM_CTL_ENABLE b) = false))) ∧
    (∃ (s : State) (x : Fin 32) (d : CeSpec) (e : Byte), s.gated 10 = false ∧
      s.lost 10 = false ∧
      kvGetD s.ce.inq x [] = [.spec d e []] ∧
      s.heldEpoch 10 (sid 2 x) ≠ e) ∧
    (∃ (s : State) (x : Fin 32) (r : YRec), s.gated 10 = false ∧
      s.lost 10 = false ∧
      16 ≤ x.val ∧
      s.ceOn x = true ∧
      kvGetD s.ce.inq x [] = [] ∧
      r.hive.toNat = s.get (CE_RIN_SRC_HIVE (x - 16)) ∧
      r.stream.toNat = s.get (CE_RIN_SRC_STREAM (x - 16)) ∧
      r.type ≠ 0x0B ∧
      r.format.toNat ≠ (chanFormat (s.ceCfg x).bits).1) ∧
    (∃ (s : State) (x : Fin 32), s.ceOn x = false ∧
      kvGetD s.ce.inq x [] = []) ∧
    (∃ (s : State) (g : CeTime), s.gated 10 = false ∧
      s.lost 10 = false ∧
      s.xsRemote = true ∧
      s.ce.times = [g] ∧
      tLe (tAdd g.first (usTicks (s.get CE_XS_CFG_ALIGN_US))) s.now = true) ∧
    (∃ (s : State), s.xsRemote = false) ∧
    (∃ (s : State) (k : Nat), s.gated 10 = false ∧
      s.lost 10 = false ∧
      s.on CE_XS_STATUS_RUNNING = true ∧
      s.pairsOn = [k] ∧
      s.ce.times = [] ∧
      (s.cePair k).n ≠ 0 ∧
      (s.cePair k).moved = false ∧
      (s.cePair k).gap = 0 ∧
      (s.cePair k).markers = [] ∧
      (s.cePair k).dump < s.dumpOf (tAddI s.now (-(usTicks 10 : Int))) ∧
      s.pairAccs k ≤ 4096 ∧
      s.delivers (xspcSid k) = true ∧
      (s.stream (xspcSid k)).markers = []) :=
  ⟨⟨setR (setR (setR (setR (setR (setR runState (CE_XP_SEL 3) 0x80000100) (BT_CTL 0) 3) (BT_CTL 1) 3) (BT_CFG 0) 0x200D) (BT_CFG 1) 0x200D) (CE_XP_RANGE 3) 0x700000, 1, 1, by decide +kernel⟩,
   ⟨runState, 1, 1, by decide +kernel⟩,
   ⟨{ setR (setR (setR runState (CE_XP_SEL 3) 0x80001100) (BT_CTL 0) 3) CE_XS_STATUS 1 with ce := { inq := [(0, [.spec ⟨0, atSec 99, 5, 7, [], [], false, false, false, false, none⟩ 0 []])] } }, 0, ⟨0, atSec 99, 5, 7, [], [], false, false, false, false, none⟩, by decide +kernel⟩,
   ⟨{ setR (setR (setR runState (CE_XP_SEL 3) 0x80000100) (BT_CTL 0) 3) CE_XS_STATUS 1 with ce := { done := [atSec 99], inq := [(0, [.spec ⟨0, atSec 99, 5, 7, [], [], false, false, false, false, none⟩ 0 []])] } }, 0, ⟨0, atSec 99, 5, 7, [], [], false, false, false, false, none⟩, by decide +kernel⟩,
   ⟨{ setR (setR (setR runState (CE_XP_SEL 3) 0x80000100) (BT_CTL 0) 3) CE_XS_STATUS 1 with ce := { inq := [(0, [.spec ⟨0, atSec 99, 5, 7, [], [], false, false, false, false, none⟩ 4 []])] } }, 0, ⟨0, atSec 99, 5, 7, [], [], false, false, false, false, none⟩, 4, by decide +kernel⟩,
   ⟨setR (setR runState (CE_RIN_SRC 2) 0x00072005) (CE_RIN_CFG 2) 0x8000A00D, 18, ⟨2, 0x2005, 7, 0, 77, 0, 0x0999, 0, 0, 0, 0, 0, []⟩, by decide +kernel⟩,
   ⟨runState, 0, by decide +kernel⟩,
   ⟨{ setR runState (CE_XP_SEL 3) 0x80001100 with ce := { times := [⟨atSec 99, atSec 98, [], false⟩] } }, ⟨atSec 99, atSec 98, [], false⟩, by decide +kernel⟩,
   ⟨runState, by decide +kernel⟩,
   ⟨{ setR (setR runState (CE_XP_SEL 3) 0x80000100) CE_XS_STATUS 1 with ce := { pairs := [(3, { n := 2, dump := 4, time := 77 })] }, flow := { streams := [((xspcSid 3).toNat, { opened := true, seq := 6 })] } }, 3, by decide +kernel⟩⟩

/-- States and operands that meet the hypotheses of BeamsWeighAndSend, clause by clause. -/
theorem witness_BeamsWeighAndSend :
    (∃ (s : State) (p : Fin 5) (b : Fin 32) (v : Word), s.mayWrite p (CE_BM_CTL b) = true ∧
      s.on (CE_BM_CTL_ENABLE b) = false ∧
      bits v.toNat 1 0 = 3 ∧
      s.dutyDead (CE_BM_CTL b) = false ∧
      (s.plainWrite (CE_BM_CTL b) (v.toNat / 2 * 2)).beamCheck b = 0 ∧
      s.stoppedAll = false) ∧
    (∃ (s : State) (b : Fin 32) (r : YRec) (k : Nat), s.gated 10 = false ∧
      s.lost 10 = false ∧
      kvGetD s.ce.kidq b [] = [] ∧
      s.on (CE_BM_CTL_ENABLE b) = true ∧
      s.beamChild b r.hive = some k ∧
      r.type ≠ 0x0B ∧
      r.format.toNat = 0x0510 + s.get (CE_BM_RED_PS_FRAC b) ∧
      r.payload.length = 8 + 4 * s.beamS b ∧
      fromLe ((r.payload.drop 7).take 1) = (s.beamCfg b).logC ∧
      fromLe ((r.payload.drop 4).take 2) < s.beamSlices b ∧
      (r.time, fromLe ((r.payload.drop 4).take 2)) ∈ (s.ceBeam b).done) ∧
    (∃ (s : State) (b : Fin 32) (r : YRec) (k : Nat), s.gated 10 = false ∧
      s.lost 10 = false ∧
      kvGetD s.ce.kidq b [] = [] ∧
      s.on (CE_BM_CTL_ENABLE b) = true ∧
      s.beamChild b r.hive = some k ∧
      r.type ≠ 0x0B ∧
      r.format.toNat = 0x0510 + s.get (CE_BM_RED_PS_FRAC b) ∧
      r.payload.length = 8 + 4 * s.beamS b ∧
      fromLe ((r.payload.drop 7).take 1) = (s.beamCfg b).logC ∧
      fromLe ((r.payload.drop 4).take 2) < s.beamSlices b ∧
      (s.ceBeam b).slotDone r.time (fromLe ((r.payload.drop 4).take 2)) = false ∧
      (s.ceBeam b).slots = [] ∧
      (s.beamInputs b).all (fun i => s.cePast i r.time) = false) ∧
    (∃ (s : State) (b : Fin 32) (r : YRec) (k : Nat), s.gated 10 = false ∧
      s.lost 10 = false ∧
      kvGetD s.ce.kidq b [] = [] ∧
      s.on (CE_BM_CTL_ENABLE b) = true ∧
      s.beamChild b r.hive = some k ∧
      r.type ≠ 0x0B ∧
      r.format.toNat ≠ 0x0510 + s.get (CE_BM_RED_PS_FRAC b)) ∧
    (∃ (s : State) (b : Fin 32) (x : CeSlot) (q : CePart), s.gated 10 = false ∧
      s.lost 10 = false ∧
      (s.ceBeam b).slots = [x] ∧
      x.own = some q ∧
      x.kids = [] ∧
      (s.ceBeam b).lastJ = none ∧
      tLe (tAdd x.first (usTicks (s.get (CE_BM_RED_ALIGN_US b)))) s.now = true ∧
      s.on (CE_BM_CTL_ROOT b) = true ∧
      s.delivers (beamSid b) = true ∧
      (s.stream (beamSid b)).markers = [] ∧
      (s.ceBeam b).markers = []) ∧
    (∃ (s : State) (p : Fin 5) (b : Fin 32) (v : Word), s.mayWrite p (CE_BM_MK_CTL b) = true ∧
      bits v.toNat 0 0 = 1 ∧
      s.on (CE_BM_CTL_ENABLE b) = true ∧
      s.on (CE_BM_MK_CTL_PENDING b) = false ∧
      (s.ceBeam b).armAt = none ∧
      tLt (atSecFrac (s.val (CE_BM_MK_SEC b)) (s.val (CE_BM_MK_FRAC b))) s.now = false ∧
      tLt (atSecFrac (s.val (CE_BM_MK_SEC b)) (s.val (CE_BM_MK_FRAC b))) (tAdd s.now (usTicks 100)) = false ∧
      s.flow.requests.any (fun q => q.stage = .cb && q.type = .calRamp && q.target = beamSid b) = false) ∧
    (∃ (s : State) (p : Fin 5) (b : Fin 32) (v : Word), s.mayWrite p (CE_BM_MK_CTL b) = true ∧
      bits v.toNat 0 0 = 1 ∧
      s.on (CE_BM_CTL_ENABLE b) = false) ∧
    (∃ (s : State) (b : Fin 32) (m : Marker) (u : DevTime), s.gated 10 = false ∧
      s.lost 10 = false ∧
      s.beamNext b = some u ∧
      (s.ceBeam b).acts = [m] ∧
      tLe m.time u = true ∧
      (s.ceBeam b).held = none ∧
      s.on (CE_BM_MK_CTL_RAMPING b) = false ∧
      bits m.arg.toNat 47 16 = 0) ∧
    (∃ (s : State) (b : Fin 32) (m : Marker) (u : DevTime), s.gated 10 = false ∧
      s.lost 10 = false ∧
      s.beamNext b = some u ∧
      (s.ceBeam b).acts = [m] ∧
      tLe m.time u = true ∧
      (s.ceBeam b).held = none ∧
      s.on (CE_BM_MK_CTL_RAMPING b) = false ∧
      bits m.arg.toNat 47 16 ≠ 0 ∧
      bits m.arg.toNat 15 0 ≠ 0) ∧
    (∃ (s : State) (b : Fin 32) (m : Marker) (u : DevTime), s.gated 10 = false ∧
      s.lost 10 = false ∧
      s.beamNext b = some u ∧
      (s.ceBeam b).acts = [m] ∧
      tLe m.time u = true ∧
      s.on (CE_BM_MK_CTL_RAMPING b) = true) ∧
    (∃ (s : State) (b : Fin 32), s.beamNext b = none) ∧
    (∃ (s : State) (b : Fin 32) (u : DevTime) (r : CeRamp), s.gated 10 = false ∧
      s.lost 10 = false ∧
      s.beamNext b = some u ∧
      (s.ceBeam b).ramp = some r ∧
      (tDiff u r.tx).toNat * r.steps * 1000000000 / (r.ns * 2 ^ 48) < r.steps) ∧
    (∃ (s : State) (b : Fin 32) (u : DevTime) (r : CeRamp), s.gated 10 = false ∧
      s.lost 10 = false ∧
      s.beamNext b = some u ∧
      (s.ceBeam b).ramp = some r ∧
      r.steps ≤ (tDiff u r.tx).toNat * r.steps * 1000000000 / (r.ns * 2 ^ 48)) ∧
    (∃ (s : State) (p : Fin 5), s.mayWrite p CE_WT_DATA = true ∧
      s.on CE_WT_ADDR_BANK = false ∧
      s.on (CE_BM_MK_CTL_PENDING (s.get CE_WT_ADDR_BEAM)) = false ∧
      s.on (CE_BM_MK_CTL_RAMPING (s.get CE_WT_ADDR_BEAM)) = false) ∧
    (∃ (s : State) (p : Fin 5), s.mayRead p CE_WT_DATA = true ∧
      s.on CE_WT_ADDR_BANK = false) :=
  ⟨⟨setR (setR (setR (setR (setR (setR runState (CE_BM_INPUTS 3) 1) (BT_CTL 0) 3) (BT_CFG 0) 0x200D) (CE_BM_RANGE 3) 0x700000) (CE_BM_RED 3) 0x1000000) (CE_BM_MK_CTL 3) 0, 1, 3, 3, by decide +kernel⟩,
   ⟨{ setR (setR (setR (setR (setR runState (CE_BM_RANGE 3) 0) (BT_CFG 0) 0x200D) (CE_BM_CTL 3) 1) (CE_BM_RED 3) 1) (CE_BM_CHILD 3 0) 0x10007 with ce := { beams := [(3, { done := [(77, 0)] })] } }, 3, ⟨6, 0x6003, 7, 0, 77, 0, 0x0510, 0, 0, 0, 0, 0, List.replicate 7 0 ++ [13] ++ List.replicate 4 9⟩, 0, by decide +kernel⟩,
   ⟨{ setR (setR (setR (setR (setR (setR (setR runState (CE_BM_RANGE 3) 0) (BT_CFG 0) 0x200D) (CE_BM_CTL 3) 1) (CE_BM_INPUTS 3) 1) (BT_CTL 0) 3) (CE_BM_RED 3) 1) (CE_BM_CHILD 3 0) 0x10007 with flow := { streams := [(0x2000, { opened := true })] } }, 3, ⟨6, 0x6003, 7, 0, 77, 0, 0x0510, 0, 0, 0, 0, 0, List.replicate 7 0 ++ [13] ++ List.replicate 4 9⟩, 0, by decide +kernel⟩,
   ⟨setR (setR (setR runState (CE_BM_CTL 3) 1) (CE_BM_RED 3) 1) (CE_BM_CHILD 3 0) 0x10007, 3, ⟨6, 0x6003, 7, 0, 77, 0, 0x0511, 0, 0, 0, 0, 0, List.replicate 7 0 ++ [13] ++ List.replicate 4 9⟩, 0, by decide +kernel⟩,
   ⟨{ setR runState (CE_BM_CTL 3) 3 with flow := { streams := [((beamSid 3).toNat, { opened := true, seq := 6 })] }, ce := { beams := [(3, { slots := [{ time := 77, slice := 0, j := 5, first := atSec 98, own := some ⟨[(3, 4)], 1, false, false, false, none⟩ }] })] } }, 3, { time := 77, slice := 0, j := 5, first := atSec 98, own := some ⟨[(3, 4)], 1, false, false, false, none⟩ }, ⟨[(3, 4)], 1, false, false, false, none⟩, by decide +kernel⟩,
   ⟨setR (setR runState (CE_BM_CTL 3) 1) (CE_BM_MK_SEC 3) 101, 1, 3, 1, by decide +kernel⟩,
   ⟨runState, 1, 3, 1, by decide +kernel⟩,
   ⟨{ setR runState (CE_BM_CTL 3) 1 with ce := { beams := [(3, { times := [⟨atSec 101, 5, [], false⟩], acts := [⟨.calRamp, false, beamSid 3, 0, atSec 100, 9, 0⟩] })], wtS := [((16 * 3 + 1) * 4096 + 17, 5)], wtA := [((16 * 3 + 2) * 4096 + 34, 6)] } }, 3, ⟨.calRamp, false, beamSid 3, 0, atSec 100, 9, 0⟩, atSec 101, by decide +kernel⟩,
   ⟨{ setR runState (CE_BM_CTL 3) 1 with ce := { beams := [(3, { times := [⟨atSec 101, 5, [], false⟩], acts := [⟨.calRamp, false, beamSid 3, 0, atSec 100, 0x50009, 0⟩] })] } }, 3, ⟨.calRamp, false, beamSid 3, 0, atSec 100, 0x50009, 0⟩, atSec 101, by decide +kernel⟩,
   ⟨{ setR (setR runState (CE_BM_CTL 3) 1) (CE_BM_MK_CTL 3) 8 with ce := { beams := [(3, { times := [⟨atSec 101, 5, [], false⟩], acts := [⟨.calRamp, false, beamSid 3, 0, atSec 100, 0x50009, 0⟩] })] } }, 3, ⟨.calRamp, false, beamSid 3, 0, atSec 100, 0x50009, 0⟩, atSec 101, by decide +kernel⟩,
   ⟨runState, 3, by decide +kernel⟩,
   ⟨{ setR runState (CE_BM_MK_CTL 3) 8 with ce := { beams := [(3, { times := [⟨atSec 101, 5, [], false⟩], ramp := some ⟨atSec 101 - 2 ^ 24, 4, 100000, 1⟩ })], wtS := [((16 * 3 + 1) * 4096 + 17, 5)] } }, 3, atSec 101, ⟨atSec 101 - 2 ^ 24, 4, 100000, 1⟩, by decide +kernel⟩,
   ⟨{ setR runState (CE_BM_MK_CTL 3) 8 with ce := { beams := [(3, { times := [⟨atSec 101, 5, [], false⟩], ramp := some ⟨atSec 90, 4, 1000, 2⟩ })], wtS := [((16 * 3 + 1) * 4096 + 17, 5)] } }, 3, atSec 101, ⟨atSec 90, 4, 1000, 2⟩, by decide +kernel⟩,
   ⟨setR runState CE_WT_ADDR 0x31FFF, 1, by decide +kernel⟩,
   ⟨{ setR runState CE_WT_ADDR 0x31FFF with ce := { wtS := [(((16 * 3 + 1) * 4096 + 4095), 5)] } }, 1, by decide +kernel⟩⟩

/-- States and operands that meet the hypotheses of PortsAlignSwapAndNarrow, clause by clause. -/
theorem witness_PortsAlignSwapAndNarrow :
    (∃ (s : State) (u : State) (p : Fin 5) (dp : Fin 64) (v : Word), s.mayWrite p (KL_PORT_CTL (kw dp) (kq dp)) = true ∧
      s.on (KL_PORT_CTL_ENABLE (kw dp) (kq dp)) = false ∧
      bits v.toNat 0 0 = 1 ∧
      bits v.toNat 13 13 = 0 ∧
      s.dutyDead (KL_PORT_CTL (kw dp) (kq dp)) = false ∧
      u = s.plainWrite (KL_PORT_CTL (kw dp) (kq dp)) (v.toNat / 2 * 2) ∧
      u.klPortCheck dp = 0 ∧
      ((∀ i ∈ List.range (u.klWidth dp), s.laneDead (kw dp) (u.klFirst dp + i) = false ∧
      s.laneFor (kw dp) (u.klFirst dp + i) = u.klFirst dp + i))) ∧
    (∃ (s : State) (p : Fin 5) (dp : Fin 64) (v : Word), s.mayWrite p (KL_PORT_CTL (kw dp) (kq dp)) = true ∧
      s.on (KL_PORT_CTL_ENABLE (kw dp) (kq dp)) = false ∧
      bits v.toNat 0 0 = 1 ∧
      bits v.toNat 13 13 = 0 ∧
      s.dutyDead (KL_PORT_CTL (kw dp) (kq dp)) = false ∧
      (s.plainWrite (KL_PORT_CTL (kw dp) (kq dp)) (v.toNat / 2 * 2)).klPortCheck dp ≠ 0) ∧
    (∃ (s : State) (dp : Fin 64), s.klOn dp = true ∧
      s.klState dp ≠ 3 ∧
      s.klState dp ≠ 0 ∧
      s.klAligned dp = true) ∧
    (∃ (s : State) (dp : Fin 64), s.klEther dp = false ∧
      s.klAligned dp = false) ∧
    (∃ (s : State) (dp : Fin 64), s.klOn dp = true ∧
      s.klState dp ≠ 0) ∧
    (∃ (s : State) (dp : Fin 64), s.klUp dp = true) ∧
    (∃ (s : State) (dp : Fin 64), s.klUp dp = false) ∧
    (∃ (s : State) (r : Fin 2) (i : Fin 68) (dp : Nat) (role : Nat), i.val < 64 ∧
      s.laneRole (13 + r) i = some (dp, role) ∧
      2 ≤ s.klState dp ∧
      s.laneDead (13 + r) i = false ∧
      (s.klLane r i).sent ≠ some (s.txCount dp / 16384)) ∧
    (∃ (s : State) (r : Fin 2) (i : Fin 68) (dp : Nat) (role : Nat), i.val < 64 ∧
      s.laneRole (13 + r) i = some (dp, role) ∧
      (s.klLane r i).sent = some (s.txCount dp / 16384)) ∧
    (∃ (s : State) (r : Fin 2) (i : Fin 68) (k : Nat) (dp : Nat), i.val = 64 + k ∧
      s.on (KL_SPARE_ENABLE (13 + r) k) = true ∧
      s.laneRole (13 + r) i = none ∧
      dp = 32 * r + s.get (KL_SPARE_PORT (13 + r) k) ∧
      s.laneDead (13 + r) i = false ∧
      (s.klLane r i).sent ≠ some (s.txCount dp / 16384)) ∧
    (∃ (s : State) (r : Fin 2) (i : Fin 68) (role : Nat) (dp : Nat) (port : Fin 64) (h : BitVec 16), i.val < 64 ∧
      s.laneDead (13 + r) i = false ∧
      s.laneRole (13 + r) i = some (dp, role) ∧
      (s.klPort dp).seen.all (fun x => x.1 = role || x.2 = (h.toNat, port.val)) = true ∧
      s.on (KL_PORT_STATUS_MISWIRED (kw dp) (kq dp)) = false ∧
      s.get (KL_PORT_CTL_WIDTH (kw dp) (kq dp)) ≤ s.get (KL_PORT_STATUS_WIDTH_NOW (kw dp) (kq dp))) ∧
    (∃ (s : State) (r : Fin 2) (i : Fin 68) (role : Nat) (own : Nat) (dp : Nat), i.val < 64 ∧
      s.laneDead (13 + r) i = false ∧
      s.laneRole (13 + r) i = some (dp, own) ∧
      role ≠ own ∧
      s.klState dp ≠ 3) ∧
    (∃ (s : State) (r : Fin 2) (i : Fin 68) (k : Nat) (role : Nat) (dp : Nat), i.val = 64 + k ∧
      dp = 32 * r + s.get (KL_SPARE_PORT (13 + r) k) ∧
      s.on (KL_SPARE_ENABLE (13 + r) k) = true ∧
      s.laneDead (13 + r) i = false ∧
      s.laneRole (13 + r) i = none ∧
      8 ≤ role) ∧
    (∃ (s : State) (r : Fin 2) (i : Fin 68) (dp : Nat) (role : Nat) (k : Nat), i.val < 64 ∧
      s.laneDead (13 + r) i = false ∧
      s.laneRole (13 + r) i = some (dp, role) ∧
      s.freeSpareLane dp = some k ∧
      (s.klPort dp).swap = none ∧
      ((∀ q ∈ List.range 32, (s.klOn (32 * r + q) && s.klEther (32 * r + q) && (s.klPort (32 * r + q)).map.contains i) = false))) ∧
    (∃ (s : State) (r : Fin 2) (i : Fin 68) (dp : Nat) (role : Nat) (good : List Nat), i.val < 64 ∧
      s.laneDead (13 + r) i = false ∧
      s.laneRole (13 + r) i = some (dp, role) ∧
      s.freeSpareLane dp = none ∧
      (s.klPort dp).swap = none ∧
      (s.klPort dp).map.all (fun x => decide (x < 68)) = true ∧
      good = (s.klPort dp).map.filter (fun x => !(s.laneOut (13 + r) x) && x != i.val) ∧
      good ≠ [] ∧
      ((∀ q ∈ List.range 32, (s.klOn (32 * r + q) && s.klEther (32 * r + q) && (s.klPort (32 * r + q)).map.contains i) = false))) ∧
    (∃ (s : State) (r : Fin 2) (i : Fin 68) (k : Nat) (dp : Nat) (x : KlSwap) (good : List Nat), i.val = 64 + k ∧
      s.laneDead (13 + r) i = false ∧
      dp = 32 * r + s.get (KL_SPARE_PORT (13 + r) k) ∧
      (s.klPort dp).swap = some x ∧
      x.spare = k ∧
      (s.klPort dp).map.all (fun j => decide (j < 68)) = true ∧
      good = (s.klPort dp).map.filter (fun j => !(s.laneOut (13 + r) j) && j != i.val) ∧
      good ≠ [] ∧
      ((∀ q ∈ List.range 32, (s.klOn (32 * r + q) && s.klEther (32 * r + q) && (s.klPort (32 * r + q)).map.contains i) = false))) ∧
    (∃ (s : State) (r : Fin 2) (i : Fin 68), s.laneDead (13 + r) i = true) ∧
    (∃ (s : State) (dp : Fin 64) (x : KlSwap), (s.klPort dp).swap = some x ∧
      x.rxDone = false ∧
      x.tx ≤ s.txCount dp) ∧
    (∃ (s : State) (dp : Fin 64) (x : KlSwap) (c : Nat), (s.klPort dp).swap = some x ∧
      x.txDone = false ∧
      x.rx = some c ∧
      c ≤ s.peerCount dp) ∧
    (∃ (s : State) (dp : Fin 64) (x : KlSwap) (c : Nat), (s.klPort dp).swap = some x ∧
      x.txDone = true ∧
      x.rx = some c ∧
      c ≤ s.peerCount dp ∧
      x.spare < 4 ∧
      x.lane < 64 ∧
      (s.klPort dp).fails = []) ∧
    (∃ (s : State) (dp : Fin 64) (x : KlSwap), (s.klPort dp).swap = some x ∧
      s.txCount dp < x.tx) ∧
    (∃ (s : State) (dp : Fin 64), (s.klPort dp).swap = none) ∧
    (∃ (s : State) (dp : Fin 64) (role : Nat) (k : Nat) (i : Nat), s.klOn dp = true ∧
      k < 4 ∧
      (s.klPort dp).swap = none ∧
      (s.klPort dp).map[role]? = some i ∧
      i < 68) ∧
    (∃ (s : State) (dp : Fin 64) (x : KlSwap), (s.klPort dp).swap = some x) ∧
    (∃ (s : State) (dp : Fin 64) (roles : List Nat) (i : Nat), s.klOn dp = true ∧
      (s.klPort dp).map.all (fun x => decide (x < 68)) = true ∧
      i < 64 ∧
      (roles.filterMap fun r => (s.klPort dp).map[r]?).head? = some i ∧
      s.laneDead (kw dp) i = false) ∧
    (∃ (s : State) (r : Fin 2) (i : Fin 68) (cw : Codeword) (n : Nat), s.lost (13 + r) = false ∧
      absentRegion s.variant (13 + r) = false ∧
      s.laneDead (13 + r) i = false ∧
      s.laneRole (13 + r) i = none ∧
      cw.corrected = some n ∧
      2 ≤ cw.sbctl.val ∧
      ((s.klLane r i).watch cw.corrected (s.get (KL_LANE_LIMIT_UNCORR_MAX (13 + r) i)) (s.get (KL_LANE_LIMIT_CORR_AVG (13 + r) i))).2 = false) ∧
    (∃ (s : State) (r : Fin 2) (i : Fin 68) (cw : Codeword) (dp : Nat), s.lost (13 + r) = false ∧
      absentRegion s.variant (13 + r) = false ∧
      s.laneDead (13 + r) i = false ∧
      s.laneRole (13 + r) i = some (dp, 0) ∧
      cw.corrected = none ∧
      s.klUp dp = true ∧
      (s.klPort dp).map = [i.val] ∧
      (s.klPort dp).turn = 0 ∧
      (s.klLane r i).words = [] ∧
      (s.klPort dp).cur ≠ [] ∧
      ((s.klLane r i).watch cw.corrected (s.get (KL_LANE_LIMIT_UNCORR_MAX (13 + r) i)) (s.get (KL_LANE_LIMIT_CORR_AVG (13 + r) i))).2 = false) ∧
    (∃ (s : State) (r : Fin 2) (i : Fin 68) (cw : Codeword) (n : Nat) (l : List Byte) (m : List Byte), s.lost (13 + r) = false ∧
      absentRegion s.variant (13 + r) = false ∧
      s.laneDead (13 + r) i = false ∧
      s.laneRole (13 + r) i = none ∧
      cw.corrected = some n ∧
      cw.sbctl = 0 ∧
      (s.klLane r i).sb = some l ∧
      m = l ++ [cw.sb] ∧
      (m.getD 1 0).toNat ≤ 60 ∧
      m.length = (m.getD 1 0).toNat + 4 ∧
      fromLe (m.drop ((m.getD 1 0).toNat + 2)) = crc16 (m.take ((m.getD 1 0).toNat + 2)) ∧
      sbKnown (m.getD 0 0).toNat = true ∧
      ((s.klLane r i).watch cw.corrected (s.get (KL_LANE_LIMIT_UNCORR_MAX (13 + r) i)) (s.get (KL_LANE_LIMIT_CORR_AVG (13 + r) i))).2 = false) :=
  ⟨⟨runState, (setR runState (KL_PORT_CTL 13 3) 0x210), 1, 3, 0x211, by decide +kernel⟩,
   ⟨runState, 1, 3, 0x203, by decide +kernel⟩,
   ⟨{ setR (setR runState (KL_PORT_CTL 13 3) 1) (KL_PORT_STATUS 13 3) 2 with kl := { ports := [(3, { map := [0], seen := [(0, (7, 9))] })] } }, 3, by decide +kernel⟩,
   ⟨setR (setR runState (KL_PORT_CTL 13 3) 1) (KL_PORT_STATUS 13 3) 2, 3, by decide +kernel⟩,
   ⟨{ setR (setR runState (KL_PORT_CTL 13 3) 1) (KL_PORT_STATUS 13 3) 3 with kl := { ports := [(3, { map := [0], cur := [1], seen := [(0, (7, 9))] })] } }, 3, by decide +kernel⟩,
   ⟨{ setR (setR runState (KL_PORT_CTL 13 3) 1) (KL_PORT_STATUS 13 3) 3 with kl := { ports := [(3, { map := [0], cur := [1] })] } }, 3, by decide +kernel⟩,
   ⟨runState, 3, by decide +kernel⟩,
   ⟨{ setR (setR runState (KL_PORT_CTL 13 3) 1) (KL_PORT_STATUS 13 3) 3 with kl := { ports := [(3, { map := [5, 6] })] } }, 0, 6, 3, 1, by decide +kernel⟩,
   ⟨{ setR (setR runState (KL_PORT_CTL 13 3) 1) (KL_PORT_STATUS 13 3) 3 with kl := { ports := [(3, { map := [5, 6], txAt := atSec 100 })], lanes := [(6, { sent := some 0 })] } }, 0, 6, 3, 1, by decide +kernel⟩,
   ⟨setR runState (KL_SPARE 14 2) 0x31, 1, 66, 2, 35, by decide +kernel⟩,
   ⟨{ setR (setR runState (KL_PORT_CTL 13 3) 1) (KL_PORT_STATUS 13 3) 1 with kl := { ports := [(3, { map := [5, 6], seen := [(0, (7, 9))] })] } }, 0, 6, 1, 3, 9, 7, by decide +kernel⟩,
   ⟨{ setR (setR runState (KL_PORT_CTL 13 3) 1) (KL_PORT_STATUS 13 3) 1 with kl := { ports := [(3, { map := [5, 6], seen := [(0, (7, 9))] })] } }, 0, 6, 0, 1, 3, by decide +kernel⟩,
   ⟨setR (setR runState (KL_SPARE 14 2) 0x31) (KL_PORT_PEER 14 3) 0x70009, 1, 66, 2, 10, 35, by decide +kernel⟩,
   ⟨{ setR (setR (setR runState (KL_PORT_CTL 13 3) 1) (KL_PORT_STATUS 13 3) 3) (KL_SPARE 13 2) 0x33 with kl := { ports := [(3, { map := [5, 6] })] } }, 0, 6, 3, 1, 2, by decide +kernel⟩,
   ⟨{ setR (setR runState (KL_PORT_CTL 13 3) 0x201) (KL_PORT_STATUS 13 3) 3 with kl := { ports := [(3, { map := [5, 6] })] } }, 0, 6, 3, 1, [5], by decide +kernel⟩,
   ⟨{ setR (setR runState (KL_PORT_CTL 13 3) 0x201) (KL_SPARE 13 2) 0x33 with kl := { ports := [(3, { map := [5, 66], swap := some { role := 1, lane := 6, spare := 2, tx := 16, rxDone := true } })] } }, 0, 66, 2, 3, { role := 1, lane := 6, spare := 2, tx := 16, rxDone := true }, [5], by decide +kernel⟩,
   ⟨setR runState (KL_LANE_STATUS 13 6) 8, 0, 6, by decide +kernel⟩,
   ⟨{ runState with kl := { ports := [(3, { map := [5, 6], swap := some { role := 1, lane := 6, spare := 2, tx := 16, rx := some 32 } })] } }, 3, { role := 1, lane := 6, spare := 2, tx := 16, rx := some 32 }, by decide +kernel⟩,
   ⟨{ runState with kl := { ports := [(3, { map := [5, 6], swap := some { role := 1, lane := 6, spare := 2, tx := 16, rx := some 32 } })] } }, 3, { role := 1, lane := 6, spare := 2, tx := 16, rx := some 32 }, 32, by decide +kernel⟩,
   ⟨{ runState with kl := { ports := [(3, { map := [5, 6], swap := some { role := 1, lane := 6, spare := 2, tx := 16, rx := some 32, txDone := true } })] } }, 3, { role := 1, lane := 6, spare := 2, tx := 16, rx := some 32, txDone := true }, 32, by decide +kernel⟩,
   ⟨{ runState with kl := { ports := [(3, { map := [5, 6], txAt := atSec 100, swap := some { role := 1, lane := 6, spare := 2, tx := 16, rx := some 32 } })] } }, 3, { role := 1, lane := 6, spare := 2, tx := 16, rx := some 32 }, by decide +kernel⟩,
   ⟨runState, 3, by decide +kernel⟩,
   ⟨{ setR (setR runState (KL_PORT_CTL 13 3) 1) (KL_PORT_STATUS 13 3) 3 with kl := { ports := [(3, { map := [5, 6] })] } }, 3, 1, 2, 6, by decide +kernel⟩,
   ⟨{ setR (setR runState (KL_PORT_CTL 13 3) 1) (KL_PORT_STATUS 13 3) 3 with kl := { ports := [(3, { map := [5, 6], swap := some { role := 1, lane := 6, spare := 2, tx := 16 } })] } }, 3, { role := 1, lane := 6, spare := 2, tx := 16 }, by decide +kernel⟩,
   ⟨{ setR (setR runState (KL_PORT_CTL 13 3) 0x201) (KL_PORT_STATUS 13 3) 3 with kl := { ports := [(3, { map := [5, 6] })] } }, 3, [1], 6, by decide +kernel⟩,
   ⟨setR runState (KL_LANE_LIMIT 13 6) 0x00100040, 0, 6, ⟨some 3, [], [], 2, 0⟩, 3, by decide +kernel⟩,
   ⟨{ setR (setR (setR runState (KL_PORT_CTL 13 3) 1) (KL_PORT_STATUS 13 3) 3) (KL_LANE_LIMIT 13 6) 0x00100040 with kl := { ports := [(3, { map := [6], cur := [1] })] } }, 0, 6, ⟨none, [], [], 2, 0⟩, 3, by decide +kernel⟩,
   ⟨{ setR runState (KL_LANE_LIMIT 13 6) 0x00100040 with kl := { lanes := [(6, { sb := some ([4, 0] ++ (leBytes 2 (crc16 [4, 0])).take 1) })] } }, 0, 6, ⟨some 0, [], [], 0, (leBytes 2 (crc16 [4, 0])).getD 1 0⟩, 0, [4, 0] ++ (leBytes 2 (crc16 [4, 0])).take 1, [4, 0] ++ leBytes 2 (crc16 [4, 0]), by decide +kernel⟩⟩

/-- States and operands that meet the hypotheses of SparesAndFlowsNeedTheirPort, clause by clause. -/
theorem witness_SparesAndFlowsNeedTheirPort :
    (∃ (s : State) (p : Fin 5) (r : Fin 2) (k : Fin 4) (v : Word), s.mayWrite p (KL_SPARE (13 + r) k) = true ∧
      s.on (KL_SPARE_ENABLE (13 + r) k) = false ∧
      bits v.toNat 0 0 = 1 ∧
      s.dutyDead (KL_SPARE (13 + r) k) = false ∧
      (s.on (KL_PORT_CTL_ENABLE (13 + r) (bits v.toNat 8 4)) = false ∨ s.on (KL_PORT_CTL_MODE (13 + r) (bits v.toNat 8 4)) = true)) ∧
    (∃ (s : State) (p : Fin 5) (r : Fin 2) (k : Fin 4) (v : Word), s.mayWrite p (KL_SPARE (13 + r) k) = true ∧
      s.on (KL_SPARE_ENABLE (13 + r) k) = false ∧
      bits v.toNat 0 0 = 1 ∧
      s.dutyDead (KL_SPARE (13 + r) k) = false ∧
      s.on (KL_PORT_CTL_ENABLE (13 + r) (bits v.toNat 8 4)) = true ∧
      s.on (KL_PORT_CTL_MODE (13 + r) (bits v.toNat 8 4)) = false ∧
      s.lost (13 + r) = false) ∧
    (∃ (s : State) (p : Fin 5) (r : Fin 2) (f : Fin 64) (v : Word), s.mayWrite p (KL_XF_CTL (13 + r) f) = true ∧
      s.on (KL_XF_CTL_ON (13 + r) f) = false ∧
      bits v.toNat 0 0 = 1 ∧
      (s.on (KL_PORT_CTL_ENABLE (13 + r) (bits v.toNat 12 8)) = false ∨ s.on (KL_PORT_CTL_MODE (13 + r) (bits v.toNat 12 8)) = false)) ∧
    (∃ (s : State) (p : Fin 5) (r : Fin 2) (f : Fin 64) (v : Word), s.mayWrite p (KL_XF_CTL (13 + r) f) = true ∧
      s.on (KL_XF_CTL_ON (13 + r) f) = false ∧
      bits v.toNat 0 0 = 1 ∧
      s.on (KL_PORT_CTL_ENABLE (13 + r) (bits v.toNat 12 8)) = true ∧
      s.on (KL_PORT_CTL_MODE (13 + r) (bits v.toNat 12 8)) = true ∧
      s.lost (13 + r) = false) :=
  ⟨⟨runState, 1, 0, 2, 0x31, by decide +kernel⟩,
   ⟨setR runState (KL_PORT_CTL 13 3) 1, 1, 0, 2, 0x31, by decide +kernel⟩,
   ⟨setR runState (KL_PORT_CTL 13 3) 1, 1, 0, 2, 0x301, by decide +kernel⟩,
   ⟨setR runState (KL_PORT_CTL 13 3) 0x801, 1, 0, 2, 0x301, by decide +kernel⟩⟩

/-- States and operands that meet the hypotheses of TimeIsTransferredAndRecordsExported, clause by clause. -/
theorem witness_TimeIsTransferredAndRecordsExported :
    (∃ (s : State) (dp : Fin 64) (i : Nat), s.klUp dp = true ∧
      s.on (KL_TT_CTL_TT_EN (kw dp) (kq dp)) = true ∧
      s.due (s.klPort dp).ttAt 10 = true ∧
      (s.klPort dp).map.head? = some i) ∧
    (∃ (s : State) (dp : Fin 64), s.klUp dp = false) ∧
    (∃ (s : State) (dp : Fin 64), s.klUp dp = true ∧
      s.on (KL_TT_CTL_TT_EN (kw dp) (kq dp)) = true ∧
      (s.klPort dp).peerLast = none ∧
      s.qualified 3 = false) ∧
    (∃ (s : State) (dp : Fin 64) (m : TimeMsg) (t1 : DevTime) (t4 : DevTime) (n : Nat), s.klUp dp = true ∧
      s.on (KL_TT_CTL_TT_EN (kw dp) (kq dp)) = true ∧
      (s.klPort dp).peerLast = some (n, t4) ∧
      kvGet (s.klPort dp).sent m.rxSeq.toNat = some t1 ∧
      (n + 1) % 65536 = m.seq.toNat ∧
      (s.klPort dp).exch = [] ∧
      s.qualified 3 = false) ∧
    (∃ (s : State) (p : Fin 5) (dp : Fin 64), s.mayWrite p (KL_TT_CTL (kw dp) (kq dp)) = true ∧
      calStatus s.timeStatus = true ∧
      calStatus (s.klPort dp).peerStatus = true ∧
      s.on (KL_TT_STATUS_CAL_BUSY (kw dp) (kq dp)) = false) ∧
    (∃ (s : State) (p : Fin 5) (dp : Fin 64), s.mayWrite p (KL_TT_CTL (kw dp) (kq dp)) = true ∧
      (calStatus s.timeStatus && calStatus (s.klPort dp).peerStatus) = false) ∧
    (∃ (s : State) (p : Fin 5) (dp : Fin 64), s.mayWrite p (KL_TT_CTL (kw dp) (kq dp)) = true ∧
      calStatus s.timeStatus = true ∧
      calStatus (s.klPort dp).peerStatus = true ∧
      s.on (KL_TT_STATUS_CAL_BUSY (kw dp) (kq dp)) = true) ∧
    (∃ (s : State) (dp : Fin 64) (a : DevTime) (n : Nat) (sum : Int), (s.klPort dp).cal = some (a, n, sum, false) ∧
      n ≠ 0 ∧
      calStatus s.timeStatus = true ∧
      calStatus (s.klPort dp).peerStatus = true ∧
      tLt s.now (tAdd a (2 ^ 48)) = false) ∧
    (∃ (s : State) (dp : Fin 64) (a : DevTime) (n : Nat) (sum : Int), (s.klPort dp).cal = some (a, n, sum, true)) ∧
    (∃ (s : State) (dp : Fin 64), (s.klPort dp).cal = none) ∧
    (∃ (s : State) (dp : Fin 64) (x : BitVec 32), s.exUp dp = true ∧
      s.reg (KL_EX_IP4 (kw dp) (kq dp)) = x) ∧
    (∃ (s : State) (dp : Fin 64) (x : BitVec 32), s.exUp dp = true ∧
      s.reg (KL_EX_IP4 (kw dp) (kq dp)) ≠ x) ∧
    (∃ (s : State) (dp : Fin 64) (x : BitVec 128), s.exUp dp = true ∧
      s.exIp6 dp = x.toNat) ∧
    (∃ (s : State) (dp : Fin 64), s.exUp dp = true) ∧
    (∃ (s : State) (r : Fin 2) (f : Fin 64) (y : YRec), s.lost (13 + r) = false ∧
      s.gated (13 + r) = false ∧
      s.on (KL_XF_CTL_ON (13 + r) f) = true ∧
      s.exUp (32 * r + s.get (KL_XF_CTL_PORT (13 + r) f)) = true ∧
      (recBytes y).length ≤ s.exChunk (32 * r + s.get (KL_XF_CTL_PORT (13 + r) f)) ∧
      kvGetD s.kl.owed (64 * r + f) [] = []) ∧
    (∃ (s : State) (r : Fin 2) (f : Fin 64), s.lost (13 + r) = false ∧
      s.gated (13 + r) = false ∧
      s.on (KL_XF_CTL_ON (13 + r) f) = true ∧
      s.exUp (32 * r + s.get (KL_XF_CTL_PORT (13 + r) f)) = true) ∧
    (∃ (s : State) (r : Fin 2) (f : Fin 64), s.on (KL_XF_CTL_ON (13 + r) f) = false) :=
  ⟨⟨{ setR (setR runState (KL_PORT_CTL 13 3) 1) (KL_PORT_STATUS 13 3) 3 with kl := { ports := [(3, { map := [5, 6] })] } }, 3, 5, by decide +kernel⟩,
   ⟨runState, 3, by decide +kernel⟩,
   ⟨setR (setR runState (KL_PORT_CTL 13 3) 1) (KL_PORT_STATUS 13 3) 3, 3, by decide +kernel⟩,
   ⟨{ setR (setR runState (KL_PORT_CTL 13 3) 1) (KL_PORT_STATUS 13 3) 3 with kl := { ports := [(3, { sent := [(6, 70000)], peerLast := some (4, 140000) })] } }, 3, ⟨5, 120000, 90100, 6, 1⟩, 70000, 140000, 4, by decide +kernel⟩,
   ⟨{ setR runState ST_REF_STATUS 0x41 with kl := { ports := [(3, { peerStatus := 7 })] } }, 1, 3, by decide +kernel⟩,
   ⟨runState, 1, 3, by decide +kernel⟩,
   ⟨{ setR (setR runState (KL_TT_STATUS 13 3) 4) ST_REF_STATUS 0x41 with kl := { ports := [(3, { peerStatus := 7 })] } }, 1, 3, by decide +kernel⟩,
   ⟨{ setR (setR runState (KL_TT_STATUS 13 3) 4) ST_REF_STATUS 0x41 with kl := { ports := [(3, { peerStatus := 7, cal := some (atSec 9, 5, 7000, false) })] } }, 3, atSec 9, 5, 7000, by decide +kernel⟩,
   ⟨{ setR runState (KL_TT_STATUS 13 3) 4 with kl := { ports := [(3, { cal := some (atSec 9, 5, 7, true) })] } }, 3, atSec 9, 5, 7, by decide +kernel⟩,
   ⟨runState, 3, by decide +kernel⟩,
   ⟨setR (setR (setR runState (KL_PORT_CTL 13 3) 0x801) (KL_PORT_STATUS 13 3) 3) (KL_EX_IP4 13 3) 77, 3, 77, by decide +kernel⟩,
   ⟨setR (setR (setR runState (KL_PORT_CTL 13 3) 0x801) (KL_PORT_STATUS 13 3) 3) (KL_EX_IP4 13 3) 77, 3, 78, by decide +kernel⟩,
   ⟨setR (setR (setR (setR runState (KL_PORT_CTL 13 3) 0x801) (KL_PORT_STATUS 13 3) 3) (KL_EX_IP6 13 3 3) 77) (KL_EX_CTL 13 3) 0xA328, 3, 77, by decide +kernel⟩,
   ⟨setR (setR runState (KL_PORT_CTL 13 3) 0x801) (KL_PORT_STATUS 13 3) 3, 3, by decide +kernel⟩,
   ⟨setR (setR (setR runState (KL_PORT_CTL 13 3) 0x801) (KL_PORT_STATUS 13 3) 3) (KL_XF_CTL 13 5) 0x301, 0, 5, ⟨6, 0x6003, 7, 0, 77, 0, 0x0510, 0, 0, 0, 0, 0, List.replicate 12 9⟩, by decide +kernel⟩,
   ⟨setR (setR (setR runState (KL_PORT_CTL 13 3) 0x801) (KL_PORT_STATUS 13 3) 3) (KL_XF_CTL 13 5) 0x301, 0, 5, by decide +kernel⟩,
   ⟨runState, 0, 5, by decide +kernel⟩⟩

/-- States and operands that meet the hypotheses of CapMemRequests, clause by clause. -/
theorem witness_CapMemRequests :
    (∃ (s : State) (r : CmArrival), s.gated 11 = false ∧
      ((∀ c ∈ List.range 16, s.on (CM_CH_STATUS_IN_SR c) = false)) ∧
      (s.chan (s.cmChannel r.addr)).waiting.any (fun x => decide (x.port = r.port)) = false ∧
      s.chanLost (s.cmChannel r.addr) = false ∧
      r.write = true ∧
      (s.chan (s.cmChannel r.addr)).writes.length < 256 ∧
      r.addr % 32 = 0 ∧
      r.len % 32 = 0 ∧
      r.data.length = r.len ∧
      (sectors r.addr r.len).any (fun k => s.chanLost (s.cmChannel (32 * k))) = false) ∧
    (∃ (s : State) (r : CmArrival), s.gated 11 = false ∧
      ((∀ c ∈ List.range 16, s.on (CM_CH_STATUS_IN_SR c) = false)) ∧
      (s.chan (s.cmChannel r.addr)).waiting.any (fun x => decide (x.port = r.port)) = false ∧
      s.chanLost (s.cmChannel r.addr) = false ∧
      r.write = false ∧
      (s.chan (s.cmChannel r.addr)).reads.length < 128 ∧
      r.errs = [] ∧
      (sectors r.addr r.len).any s.sectorPoisoned = false) ∧
    (∃ (s : State) (r : CmArrival), s.gated 11 = false ∧
      s.on (CM_CH_STATUS_IN_SR (s.cmChannel r.addr)) = false ∧
      s.chanLost (s.cmChannel r.addr) = true ∧
      r.write = true) ∧
    (∃ (s : State), s.cm.usable = true) :=
  ⟨⟨runState, ⟨0, 5, true, false, 64, 32, List.replicate 32 7#8, []⟩, by decide +kernel⟩,
   ⟨{ runState with cmem := [(3, 4), (64, 9)] }, ⟨0, 5, false, false, 60, 8, [], []⟩, by decide +kernel⟩,
   ⟨setR runState (CM_CH_STATUS 0) 0xFFF7, ⟨0, 5, true, false, 0, 32, List.replicate 32 7#8, []⟩, by decide +kernel⟩,
   ⟨{ runState with cmem := [(3, 4)], cm := { usable := true } }, by decide +kernel⟩⟩

/-- States and operands that meet the hypotheses of CapMemUpkeep, clause by clause. -/
theorem witness_CapMemUpkeep :
    (∃ (s : State) (c : Fin 16) (k : Fin 2), s.gated 11 = false ∧
      s.lost 11 = false ∧
      s.on (CM_CH_STATUS_IN_SR c) = false ∧
      s.chanLost c = false ∧
      s.rankReads (s.chan c) k = true ∧
      (kvGetD (s.chan c).ranks k {}).owed < s.get CM_REF_POSTPONE_MAX) ∧
    (∃ (s : State) (c : Fin 16) (k : Fin 2), s.gated 11 = false ∧
      s.lost 11 = false ∧
      s.on (CM_CH_STATUS_IN_SR c) = false ∧
      s.chanLost c = false ∧
      s.rankReads (s.chan c) k = false) ∧
    (∃ (s : State), s.gated 11 = false ∧
      s.lost 11 = false) ∧
    (∃ (s : State) (c : Fin 16) (k : Fin 2), s.gated 11 = false ∧
      s.lost 11 = false ∧
      (kvGetD (s.chan c).ranks k {}).fails = 2 ∧
      s.chanLost c = false) ∧
    (∃ (s : State) (c : Fin 16) (b : Nat) (r : Nat), s.gated 11 = false ∧
      s.lost 11 = false ∧
      (kvGetD (s.chan c).banks b {}).row = some r ∧
      ((s.chan c).reads ++ (s.chan c).writes).any (fun q => s.bankKey q = (b, r)) = false) ∧
    (∃ (s : State) (c : Fin 16), s.gated 11 = false ∧
      s.lost 11 = false ∧
      s.on CM_SR_SR_EN = true ∧
      s.on CM_STATUS_TRAINED = true ∧
      (s.chan c).reads = [] ∧
      (s.chan c).writes = [] ∧
      (s.chan c).waiting = [] ∧
      (s.chan c).ranks.any (fun p => decide (0 < p.2.owed)) = false ∧
      s.chanLost c = false ∧
      s.on (CM_CH_STATUS_IN_SR c) = false ∧
      s.wakeBoundNs ≤ s.val DS_TOL_NS) ∧
    (∃ (s : State) (k : Nat), s.gated 11 = false ∧
      s.lost 11 = false ∧
      s.on CM_REF_PATROL = true ∧
      s.on CM_CFG_ECC = true ∧
      s.cm.initDone = true ∧
      s.nextSector s.cm.patrolNext = some k ∧
      s.sectorPoisoned k = false) ∧
    (∃ (s : State) (k : Nat), s.gated 11 = false ∧
      s.lost 11 = false ∧
      s.on CM_REF_PATROL = true ∧
      s.on CM_CFG_ECC = true ∧
      s.cm.initDone = true ∧
      s.nextSector s.cm.patrolNext = some k) ∧
    (∃ (s : State) (drift : Nat), s.gated 11 = false ∧
      s.lost 11 = false ∧
      16 < drift) ∧
    (∃ (s : State), s.devState = 4 ∧
      s.power.setupFirst = true ∧
      s.on (SYN_STATUS_LOCKED 11) = true) :=
  ⟨⟨setR { runState with cm := { chans := [(0, { reads := [⟨0, 0, 0, false, false, 0, 32, [], false, []⟩] })] } } CM_REF 0x8, 0, 0, by decide +kernel⟩,
   ⟨{ runState with cm := { chans := [(0, { banks := [(3, { row := some 5 }), (17, { row := some 1 })] })] } }, 0, 0, by decide +kernel⟩,
   ⟨{ runState with cm := { chans := [(0, { ranks := [(0, { owed := 2 })] })] } }, by decide +kernel⟩,
   ⟨{ runState with cm := { chans := [(0, { ranks := [(1, { fails := 2 })] })] } }, 0, 1, by decide +kernel⟩,
   ⟨{ runState with cm := { chans := [(0, { banks := [(3, { row := some 5 })] })] } }, 0, 3, 5, by decide +kernel⟩,
   ⟨setR (setR (setR runState CM_SR 0x1000001) CM_STATUS 0xFF) DS_TOL_NS 1000, 0, by decide +kernel⟩,
   ⟨{ runState with cm := { initDone := true, allocs := [⟨.ring, 0, 0, 16⟩] } }, 0, by decide +kernel⟩,
   ⟨{ runState with cm := { initDone := true, allocs := [⟨.ring, 0, 0, 16⟩] } }, 0, by decide +kernel⟩,
   ⟨runState, 17, by decide +kernel⟩,
   ⟨{ setR runState 0x100 0x44 with power := { setupFirst := true } }, by decide +kernel⟩⟩

/-- States and operands that meet the hypotheses of HiveFindsRootAndRoutes, clause by clause. -/
theorem witness_HiveFindsRootAndRoutes :
    (∃ (s : State), s.khIn = true ∧
      s.due s.kh.wagAt 1000 = true) ∧
    (∃ (s : State), (s.khIn = false ∨ s.due s.kh.wagAt 1000 = false)) ∧
    (∃ (s : State) (dp : Fin 64) (w : KhWaggle), s.khIn = true ∧
      s.klUp dp = true ∧
      s.kh.root = none ∧
      s.kh.nbrs = [] ∧
      s.get KH_CFG_PRIORITY = 0 ∧
      w.rootHops < 64 ∧
      w.rootPrio ≠ 0 ∧
      w.rootSerial.toNat ≠ s.khSerial ∧
      s.khAddr ≠ 0 ∧
      s.qualified 3 = false ∧
      s.following ≠ some 3) ∧
    (∃ (s : State) (dp : Fin 64) (w : KhWaggle), s.khIn = true ∧
      s.klUp dp = true ∧
      s.kh.root = none ∧
      s.kh.nbrs = [] ∧
      s.get KH_CFG_PRIORITY = 0 ∧
      w.rootHops < 64 ∧
      w.rootPrio ≠ 0 ∧
      w.rootSerial.toNat ≠ s.khSerial ∧
      s.khAddr = 0 ∧
      s.on KH_CFG_ADDR_MODE = false ∧
      s.kh.routes = [] ∧
      s.qualified 3 = false ∧
      s.following ≠ some 3) ∧
    (∃ (s : State) (dp : Fin 64) (w : KhWaggle), s.khIn = true ∧
      s.klUp dp = true ∧
      s.kh.root = none ∧
      s.kh.nbrs = [] ∧
      s.get KH_CFG_PRIORITY ≠ 0 ∧
      w.rootPrio = 0 ∧
      s.khAddr ≠ 0 ∧
      s.qualified 3 = false ∧
      s.following ≠ some 3) ∧
    (∃ (s : State) (dp : Fin 64), s.klUp dp = false) ∧
    (∃ (s : State) (dp : Fin 64) (n : KhNbr), kvGet s.kh.nbrs dp = some n ∧
      s.khIn = true ∧
      s.khAddr ≠ 0 ∧
      tLt s.now (tAdd n.at_ (usTicks 3000)) = false) ∧
    (∃ (s : State) (dp : Fin 64) (n : KhNbr), kvGet s.kh.nbrs dp = some n ∧
      tLt s.now (tAdd n.at_ (usTicks 3000)) = true) ∧
    (∃ (s : State), s.khIn = true ∧
      s.khAddr ≠ 0 ∧
      (s.due s.kh.lsaAt 100000 = true ∨ s.kh.lsaWas ≠ s.lsaSays) ∧
      s.khLinks.length ≤ 7) ∧
    (∃ (s : State) (dp : Fin 64) (m : KhLsa) (n : KhNode), s.khIn = true ∧
      s.klUp dp = true ∧
      m.origin.toNat ≠ s.khAddr ∧
      n = kvGetD s.kh.nodes m.origin.toNat {} ∧
      (n.links = [] ∨ seqNewer m.seq n.seq = true) ∧
      bits m.health.toNat 2 2 = 0) ∧
    (∃ (s : State) (m : KhLsa) (n : KhNode), m.origin.toNat ≠ s.khAddr ∧
      n = kvGetD s.kh.nodes m.origin.toNat {} ∧
      n.links ≠ [] ∧
      seqNewer m.seq n.seq = false ∧
      m.seq ≠ n.seq) ∧
    (∃ (s : State) (dp : Fin 64) (m : KhLsa), s.khIn = true ∧
      s.klUp dp = true ∧
      m.origin.toNat = s.khAddr ∧
      m.serial.toNat < s.khSerial ∧
      s.khIsRoot = false) ∧
    (∃ (s : State) (dp : Fin 64) (m : KhSwarms) (n : KhNode), s.khIn = true ∧
      s.klUp dp = true ∧
      m.origin.toNat ≠ s.khAddr ∧
      n = kvGetD s.kh.nodes m.origin.toNat {} ∧
      (n.swarms = [] ∨ seqNewer m.seq n.swSeq = true)) ∧
    (∃ (s : State) (r : KhRoot), s.kh.root = some r ∧
      s.khIn = true ∧
      s.khIsRoot = false ∧
      tLt s.now (tAdd s.kh.rootSeen (usTicks 300000)) = false ∧
      s.kh.nbrs = [] ∧
      s.get KH_CFG_PRIORITY = 0 ∧
      s.qualified 3 = false) ∧
    (∃ (s : State) (r : KhRoot), s.kh.root = some r ∧
      tLt s.now (tAdd s.kh.rootSeen (usTicks 300000)) = true) ∧
    (∃ (s : State) (b : KhRoot) (u : DevTime), s.kh.higher = some (b, u) ∧
      s.khIn = true ∧
      tLe (tAdd u (2 ^ 48)) s.now = true ∧
      s.khAddr ≠ 0 ∧
      s.qualified 3 = false ∧
      s.following ≠ some 3) ∧
    (∃ (s : State) (b : KhRoot) (u : DevTime), s.kh.higher = some (b, u) ∧
      tLe (tAdd u (2 ^ 48)) s.now = false) ∧
    (∃ (s : State), s.khIn = true ∧
      s.khRoutes ≠ s.kh.routes) ∧
    (∃ (s : State), s.khRoutes = s.kh.routes) ∧
    (∃ (s : State) (dp : Fin 64) (n : BitVec 64), s.khIn = true ∧
      s.klUp dp = true ∧
      s.khIsRoot = true ∧
      kvGet s.kh.grants n.toNat = none ∧
      s.get KH_POOL_LO ≤ s.get KH_POOL_HI ∧
      s.khAddr ≠ s.get KH_POOL_LO ∧
      kvGet s.kh.nodes (s.get KH_POOL_LO) = none ∧
      s.kh.grants.any (fun q => q.2 = s.get KH_POOL_LO) = false) ∧
    (∃ (s : State) (dp : Fin 64) (n : BitVec 64) (a : Nat), s.khIn = true ∧
      s.klUp dp = true ∧
      s.khIsRoot = true ∧
      kvGet s.kh.grants n.toNat = some a) ∧
    (∃ (s : State) (dp : Fin 64) (q : Nat), s.khIn = true ∧
      s.klUp dp = true ∧
      s.khIsRoot = false ∧
      s.khRootPort = some q) ∧
    (∃ (s : State) (dp : Fin 64) (n : BitVec 64) (a : BitVec 16), s.khIn = true ∧
      s.klUp dp = true ∧
      n.toNat = s.khSerial ∧
      s.khAddr = 0 ∧
      s.on KH_CFG_ADDR_MODE = false ∧
      1 ≤ a.toNat ∧
      a.toNat ≤ 0xFEFF) ∧
    (∃ (s : State) (dp : Fin 64) (n : BitVec 64) (q : Nat) (u : DevTime), s.khIn = true ∧
      s.klUp dp = true ∧
      n.toNat ≠ s.khSerial ∧
      kvGet s.kh.reqs n.toNat = some (q, u)) ∧
    (∃ (s : State) (p : Fin 5) (v : Word), s.mayWrite p KH_NODE_Q = true ∧
      bits v.toNat 15 0 ≠ 0 ∧
      bits v.toNat 15 0 = s.khAddr) ∧
    (∃ (s : State) (p : Fin 5) (v : Word) (r : KhRoute), s.mayWrite p KH_NODE_Q = true ∧
      bits v.toNat 15 0 ≠ s.khAddr ∧
      kvGet s.kh.routes (bits v.toNat 15 0) = some r) ∧
    (∃ (s : State) (p : Fin 5) (v : Word), s.mayWrite p KH_NODE_Q = true ∧
      bits v.toNat 15 0 ≠ s.khAddr ∧
      kvGet s.kh.routes (bits v.toNat 15 0) = none) :=
  ⟨⟨hiveState, by decide +kernel⟩,
   ⟨setR runState KH_CFG 0, by decide +kernel⟩,
   ⟨hiveState, 3, testWaggle, by decide +kernel⟩,
   ⟨setR hiveState KH_ADDR 0, 3, testWaggle, by decide +kernel⟩,
   ⟨setR hiveState KH_CFG 0x1001, 3, { testWaggle with rootPrio := 0 }, by decide +kernel⟩,
   ⟨runState, 3, by decide +kernel⟩,
   ⟨{ hiveState with kh := { nbrs := [(3, ⟨testWaggle, atSec 99⟩)] } }, 3, ⟨testWaggle, atSec 99⟩, by decide +kernel⟩,
   ⟨{ hiveState with kh := { nbrs := [(3, ⟨testWaggle, atSec 100⟩)] } }, 3, ⟨testWaggle, atSec 100⟩, by decide +kernel⟩,
   ⟨hiveState, by decide +kernel⟩,
   ⟨hiveState, 3, ⟨9, 8, 7, 0, 1, 0, [⟨1, 2, 3, 1, true⟩]⟩, {}, by decide +kernel⟩,
   ⟨{ hiveState with kh := { nodes := [(9, { seq := 8, links := [(0, [])] })] } }, ⟨9, 8, 7, 0, 1, 0, [⟨1, 2, 3, 1, true⟩]⟩, { seq := 8, links := [(0, [])] }, by decide +kernel⟩,
   ⟨setR hiveState KH_SERIAL_LO 50, 3, ⟨7, 8, 7, 0, 1, 0, []⟩, by decide +kernel⟩,
   ⟨hiveState, 3, ⟨9, 8, 0, [4]⟩, {}, by decide +kernel⟩,
   ⟨{ hiveState with kh := { root := some ⟨5, 5, 2, 16, 1⟩, rootSeen := atSec 99 } }, ⟨5, 5, 2, 16, 1⟩, by decide +kernel⟩,
   ⟨{ hiveState with kh := { root := some ⟨5, 5, 2, 16, 1⟩, rootSeen := atSec 100 } }, ⟨5, 5, 2, 16, 1⟩, by decide +kernel⟩,
   ⟨{ hiveState with kh := { higher := some (⟨5, 5, 2, 16, 1⟩, atSec 99) } }, ⟨5, 5, 2, 16, 1⟩, atSec 99, by decide +kernel⟩,
   ⟨{ hiveState with kh := { higher := some (⟨5, 5, 2, 16, 1⟩, atSec 100) } }, ⟨5, 5, 2, 16, 1⟩, atSec 100, by decide +kernel⟩,
   ⟨{ hiveState with kh := { routes := [(9, ⟨3, 1, 18⟩)] } }, by decide +kernel⟩,
   ⟨hiveState, by decide +kernel⟩,
   ⟨{ setR hiveState KH_POOL 0x200010 with kh := { root := some ⟨0, 7, 2, 16, 0⟩ } }, 3, 77, by decide +kernel⟩,
   ⟨{ setR hiveState KH_POOL 0x200010 with kh := { root := some ⟨0, 7, 2, 16, 0⟩, grants := [(77, 18)] } }, 3, 77, 18, by decide +kernel⟩,
   ⟨{ hiveState with kh := { root := some ⟨5, 9, 2, 16, 1⟩, routes := [(9, ⟨4, 1, 18⟩)] } }, 3, 4, by decide +kernel⟩,
   ⟨setR hiveState KH_ADDR 0, 3, 0, 18, by decide +kernel⟩,
   ⟨{ hiveState with kh := { reqs := [(77, (4, atSec 100))] } }, 3, 77, 4, atSec 100, by decide +kernel⟩,
   ⟨hiveState, 1, 7, by decide +kernel⟩,
   ⟨{ hiveState with kh := { routes := [(9, ⟨4, 1, 18⟩)], nodes := [(9, { health := 4 })] } }, 1, 9, ⟨4, 1, 18⟩, by decide +kernel⟩,
   ⟨hiveState, 1, 9, by decide +kernel⟩⟩

/-- States and operands that meet the hypotheses of ContextsOpenAndClose, clause by clause. -/
theorem witness_ContextsOpenAndClose :
    (∃ (s : State) (u : State) (p : Fin 5) (c : Fin 4096) (v : Word) (dp : Nat) (i : Nat), s.mayWrite p (KH_SC_CTL c) = true ∧
      s.ctxOn c = false ∧
      bits v.toNat 0 0 = 1 ∧
      u = (s.setVal (KH_SC_MAXREC c) (s.streamMax (s.ctxStream c))).setVal (KH_SC_RATE c) (s.streamRate (s.ctxStream c)) ∧
      u.ctxCheck c = 0 ∧
      s.on (KH_SC_DEST_SWARM c) = false ∧
      s.get (KH_SC_DEST_ADDR c) ≠ s.khAddr ∧
      s.routePort (s.get (KH_SC_DEST_ADDR c)) = some dp ∧
      (s.klPort dp).map.getLast? = some i) ∧
    (∃ (s : State) (u : State) (p : Fin 5) (c : Fin 4096) (v : Word), s.mayWrite p (KH_SC_CTL c) = true ∧
      s.ctxOn c = false ∧
      bits v.toNat 0 0 = 1 ∧
      u = (s.setVal (KH_SC_MAXREC c) (s.streamMax (s.ctxStream c))).setVal (KH_SC_RATE c) (s.streamRate (s.ctxStream c)) ∧
      u.ctxCheck c ≠ 0) ∧
    (∃ (s : State) (p : Fin 5) (c : Fin 4096) (v : Word), s.mayWrite p (KH_SC_CTL c) = true ∧
      s.ctxOn c = true ∧
      s.on (KH_SC_CTL_AUTO c) = false ∧
      s.ctxRole c = 0 ∧
      bits v.toNat 0 0 = 0) ∧
    (∃ (s : State) (p : Fin 5) (c : Fin 4096), s.mayWrite p (KH_SC_CTL c) = true ∧
      s.ctxOn c = true ∧
      s.on (KH_SC_CTL_AUTO c) = true) ∧
    (∃ (s : State) (p : Fin 5) (c : Fin 4096) (v : Word), s.mayWrite p (KH_SC_CTL c) = true ∧
      s.ctxOn c = decide (bits v.toNat 0 0 = 1) ∧
      s.on (KH_SC_CTL_AUTO c) = false ∧
      s.ctxRole c = 0) ∧
    (∃ (s : State) (dp : Fin 64) (m : KhAnnounce) (k : Nat) (i : Nat) (c : Nat), s.khIn = true ∧
      s.klUp dp = true ∧
      m.hive.toNat ≠ s.khAddr ∧
      m.opening = true ∧
      m.swarm = false ∧
      m.dest.toNat = s.khAddr ∧
      s.ctxFind m.hive.toNat m.stream = none ∧
      s.sinkOf m.hive.toNat m.stream none = some (k, i, some c) ∧
      s.sinkCheck k i c m.rate m.maxrec (ratio (m.rate * 1000000 : Nat) (max 1 m.maxrec)) = 0 ∧
      (s.ctxTied c m.rate (s.ctxPorts m.stream (some dp.val) [] true k i)).isSome = true ∧
      m.budget = 0) ∧
    (∃ (s : State) (dp : Fin 64) (m : KhAnnounce) (c : Nat), s.khIn = true ∧
      s.klUp dp = true ∧
      m.hive.toNat ≠ s.khAddr ∧
      m.opening = true ∧
      m.swarm = false ∧
      m.dest.toNat = s.khAddr ∧
      s.ctxFind m.hive.toNat m.stream = none ∧
      s.ctxFree = some c ∧
      s.sinkOf m.hive.toNat m.stream none = none) ∧
    (∃ (s : State) (dp : Fin 64) (m : KhAnnounce) (c : Nat) (q : Nat) (i : Nat), s.khIn = true ∧
      s.klUp dp = true ∧
      m.hive.toNat ≠ s.khAddr ∧
      m.opening = true ∧
      m.swarm = false ∧
      m.dest.toNat ≠ s.khAddr ∧
      s.ctxFind m.hive.toNat m.stream = none ∧
      s.ctxFree = some c ∧
      s.routePort m.dest.toNat = some q ∧
      s.portFits q c m.rate = true ∧
      (s.klPort q).map.getLast? = some i ∧
      (s.ctxTied c m.rate (s.ctxPorts m.stream (some dp.val) [q] false 0 0)).isSome = true) ∧
    (∃ (s : State) (dp : Fin 64) (m : KhAnnounce) (c : Nat), s.khIn = true ∧
      s.klUp dp = true ∧
      m.hive.toNat ≠ s.khAddr ∧
      m.opening = false ∧
      s.ctxFind m.hive.toNat m.stream = some c ∧
      (s.ctxOf c).inPort = some dp.val) ∧
    (∃ (s : State) (dp : Fin 64), s.klUp dp = false) ∧
    (∃ (s : State) (dp : Fin 64) (m : KhAnswer) (c : Nat), s.khIn = true ∧
      s.klUp dp = true ∧
      s.ctxFind m.hive.toNat m.stream = some c ∧
      (s.ctxOf c).wait = 1 ∧
      (s.ctxOf c).outs = [dp.val] ∧
      (s.ctxOf c).inPort = none ∧
      (s.ctxOf c).bad = 0 ∧
      (s.ctxOf c).bound = 0 ∧
      m.reason = 0) ∧
    (∃ (s : State) (dp : Fin 64) (m : KhAnswer) (c : Nat), s.khIn = true ∧
      s.klUp dp = true ∧
      s.ctxFind m.hive.toNat m.stream = some c ∧
      (s.ctxOf c).wait = 1 ∧
      (s.ctxOf c).outs = [dp.val] ∧
      (s.ctxOf c).inPort = none ∧
      (s.ctxOf c).bad = 0 ∧
      (s.ctxOf c).good = 0 ∧
      m.reason ≠ 0 ∧
      s.on (KH_SC_CTL_AUTO c) = false ∧
      s.ctxRole c = 0) ∧
    (∃ (s : State) (m : KhAnswer), s.ctxFind m.hive.toNat m.stream = none) :=
  ⟨⟨zoomCtx, (zoomCtx.setVal (KH_SC_MAXREC 5) (zoomCtx.streamMax 0x1003)).setVal (KH_SC_RATE 5) (zoomCtx.streamRate 0x1003), 1, 5, 1, 3, 6, by decide +kernel⟩,
   ⟨hiveState, ((hiveState.setVal (KH_SC_MAXREC 5) (hiveState.streamMax (hiveState.ctxStream 5))).setVal (KH_SC_RATE 5) (hiveState.streamRate (hiveState.ctxStream 5))), 1, 5, 1, by decide +kernel⟩,
   ⟨{ setR ctxState (KH_SC_CTL 5) 1 with kh := { ctx := [(5, { outs := [3, 4] })] }, kl := { ports := [(3, { map := [5, 6] }), (4, { map := [7] })] } }, 1, 5, 0, by decide +kernel⟩,
   ⟨setR ctxState (KH_SC_CTL 5) 9, 1, 5, by decide +kernel⟩,
   ⟨setR ctxState (KH_SC_CTL 5) 1, 1, 5, 1, by decide +kernel⟩,
   ⟨setR (setR hiveState (KH_SC_KEY 5) 0x98003) (KH_SC_SINK 5) 3, 3, ⟨9, 0x8003, false, 7, 1, 0, 0, 96, 1, 2, 5, 4, true⟩, 3, 0, 5, by decide +kernel⟩,
   ⟨hiveState, 3, ⟨9, 0x8003, false, 7, 1, 0, 0, 96, 1, 2, 5, 4, true⟩, 0, by decide +kernel⟩,
   ⟨{ hiveState with kh := { routes := [(11, ⟨4, 1, 18⟩)] }, kl := { ports := [(3, { map := [5, 6] }), (4, { map := [7] })] } }, 3, ⟨9, 0x8003, false, 11, 1, 0, 0, 96, 1, 2, 5, 4, true⟩, 0, 4, 7, by decide +kernel⟩,
   ⟨{ setR (setR hiveState (KH_SC_KEY 5) 0x98003) (KH_SC_CTL 5) 0x11 with kh := { ctx := [(5, { outs := [4], inPort := some 3 })] } }, 3, ⟨9, 0x8003, false, 11, 1, 0, 0, 96, 1, 2, 5, 4, false⟩, 5, by decide +kernel⟩,
   ⟨runState, 3, by decide +kernel⟩,
   ⟨{ setR (setR ctxState (KH_SC_CTL 5) 1) (KH_SC_STATUS 5) 1 with kh := { ctx := [(5, { outs := [3], wait := 1 })] } }, 3, ⟨7, 0x8003, 0, 0, 123456⟩, 5, by decide +kernel⟩,
   ⟨{ setR (setR ctxState (KH_SC_CTL 5) 1) (KH_SC_STATUS 5) 1 with kh := { ctx := [(5, { outs := [3], wait := 1 })] } }, 3, ⟨7, 0x8003, 0x3B1, 9, 0⟩, 5, by decide +kernel⟩,
   ⟨ctxState, ⟨7, 0x8003, 0x3B1, 9, 0⟩, by decide +kernel⟩⟩

/-- States and operands that meet the hypotheses of RecordsPassTheHive, clause by clause. -/
theorem witness_RecordsPassTheHive :
    (∃ (s : State) (dp : Fin 64) (r : YRec) (c : Nat), s.gated (kw dp) = false ∧
      s.klUp dp = true ∧
      s.khIn = true ∧
      s.running = true ∧
      r.hive.toNat ≠ s.khAddr ∧
      s.ctxFind r.hive.toNat r.stream = some c ∧
      s.on (KH_SC_STATUS_SHED c) = false ∧
      (s.ctxOf c).outs = [] ∧
      (s.ctxOf c).here = true) ∧
    (∃ (s : State) (dp : Fin 64) (r : YRec), s.gated (kw dp) = false ∧
      s.klUp dp = true ∧
      s.khIn = true ∧
      s.running = true ∧
      s.ctxFind r.hive.toNat r.stream = none) ∧
    (∃ (s : State) (dp : Fin 64), s.klUp dp = false) ∧
    (∃ (s : State) (dp : Fin 64) (o : KhOut), s.gated (kw dp) = false ∧
      s.khIn = true ∧
      s.klUp dp = true ∧
      s.running = true ∧
      s.flow.hiveOut = [] ∧
      kvGetD s.kh.outs dp [] = [o] ∧
      o.cls < 3 ∧
      s.khCredit dp o.cls o.rec_ = true ∧
      s.khExpired o.ctx o.rec_ = false) ∧
    (∃ (s : State) (dp : Fin 64) (o : KhOut), s.gated (kw dp) = false ∧
      s.khIn = true ∧
      s.klUp dp = true ∧
      s.running = true ∧
      s.flow.hiveOut = [] ∧
      kvGetD s.kh.outs dp [] = [o] ∧
      o.cls < 3 ∧
      s.khCredit dp o.cls o.rec_ = true ∧
      s.khExpired o.ctx o.rec_ = true ∧
      o.ctx < 4096) ∧
    (∃ (s : State) (c : Fin 4096) (f : Option Nat) (r : YRec) (l : List (Option Nat × YRec)), s.khIn = true ∧
      s.running = true ∧
      s.ctxOn c = true ∧
      s.flow.hiveOut = [] ∧
      (s.ctxOf c).queue = (f, r) :: l ∧
      (s.ctxOf c).track.last = none ∧
      (s.ctxOf c).owed = [] ∧
      isNote r = false ∧
      s.khExpired c r = false) ∧
    (∃ (s : State) (c : Fin 4096) (f : Option Nat) (r : YRec) (a : YRec) (l : List (Option Nat × YRec)), s.khIn = true ∧
      s.running = true ∧
      s.ctxOn c = true ∧
      s.flow.hiveOut = [] ∧
      (s.ctxOf c).queue = (f, r) :: l ∧
      (s.ctxOf c).track.last = some a ∧
      (s.ctxOf c).owed = [] ∧
      (s.ctxOf c).noted = false ∧
      a.seq < r.seq ∧
      r.seq ≠ a.seq + 1 ∧
      isNote r = false ∧
      s.khExpired c r = false) ∧
    (∃ (s : State) (c : Fin 4096) (f : Option Nat) (r : YRec) (a : YRec) (l : List (Option Nat × YRec)), s.khIn = true ∧
      s.running = true ∧
      s.ctxOn c = true ∧
      s.flow.hiveOut = [] ∧
      (s.ctxOf c).queue = (f, r) :: l ∧
      (s.ctxOf c).track.last = some a ∧
      r.seq ≤ a.seq ∧
      isNote r = false) ∧
    (∃ (s : State) (dp : Fin 64), s.khIn = true ∧
      s.klUp dp = true ∧
      s.due (s.klPort dp).creditAt 2 = true) ∧
    (∃ (s : State) (dp : Fin 64), s.khIn = true ∧
      s.klUp dp = true) ∧
    (∃ (s : State) (p : Fin 5) (v : Word) (dp : Nat), s.mayWrite p KH_MG_CTL = true ∧
      bits v.toNat 0 0 = 1 ∧
      s.on KH_MG_CTL_BUSY = false ∧
      s.khIn = true ∧
      s.khAddr ≠ 0 ∧
      s.routePort (s.val KH_MG_DEST % 65536) = some dp) ∧
    (∃ (s : State) (p : Fin 5) (v : Word), s.mayWrite p KH_MG_CTL = true ∧
      bits v.toNat 0 0 = 1 ∧
      s.on KH_MG_CTL_BUSY = true) ∧
    (∃ (s : State) (dp : Fin 64) (m : KhMrsp) (tag : Nat) (u : DevTime), s.khIn = true ∧
      s.klUp dp = true ∧
      m.requester.toNat = s.khAddr ∧
      s.kh.mg = some (tag, u) ∧
      tag = m.tag.toNat) ∧
    (∃ (s : State) (dp : Fin 64) (m : KhMrsp) (q : Nat), s.khIn = true ∧
      s.klUp dp = true ∧
      m.requester.toNat ≠ s.khAddr ∧
      s.routePort m.requester.toNat = some q) ∧
    (∃ (s : State) (tag : Nat) (u : DevTime), s.kh.mg = some (tag, u) ∧
      tLt s.now (tAdd u (usTicks 10000)) = false) ∧
    (∃ (s : State) (tag : Nat) (u : DevTime), s.kh.mg = some (tag, u) ∧
      tLt s.now (tAdd u (usTicks 10000)) = true) :=
  ⟨⟨{ setR (setR hiveState (KH_SC_KEY 5) 0x98003) (KH_SC_CTL 5) 0x21 with kh := { ctx := [(5, { here := true, inPort := some 3 })] } }, 3, testRec, 5, by decide +kernel⟩,
   ⟨hiveState, 3, testRec, by decide +kernel⟩,
   ⟨runState, 3, by decide +kernel⟩,
   ⟨{ hiveState with kh := { outs := [(3, [⟨1, 5, some 4, testRec⟩])] } }, 3, ⟨1, 5, some 4, testRec⟩, by decide +kernel⟩,
   ⟨{ setR hiveState (KH_SC_LAT 5) 3 with kh := { outs := [(3, [⟨1, 5, some 4, testRec⟩])] } }, 3, ⟨1, 5, some 4, testRec⟩, by decide +kernel⟩,
   ⟨{ setR hiveState (KH_SC_CTL 5) 0x21 with kh := { ctx := [(5, { here := true, queue := [(some 3, testRec)] })] } }, 5, some 3, testRec, [], by decide +kernel⟩,
   ⟨{ setR hiveState (KH_SC_CTL 5) 0x21 with kh := { ctx := [(5, { here := true, queue := [(some 3, testRec)], track := { last := some { testRec with seq := 3 } } })] } }, 5, some 3, testRec, { testRec with seq := 3 }, [], by decide +kernel⟩,
   ⟨{ setR hiveState (KH_SC_CTL 5) 0x21 with kh := { ctx := [(5, { here := true, queue := [(some 3, testRec)], track := { last := some { testRec with seq := 13 } } })] } }, 5, some 3, testRec, { testRec with seq := 13 }, [], by decide +kernel⟩,
   ⟨hiveState, 3, by decide +kernel⟩,
   ⟨hiveState, 3, by decide +kernel⟩,
   ⟨{ setR (setR hiveState KH_MG_DEST 11) KH_MG_ADDR 0x108004 with kh := { routes := [(11, ⟨4, 1, 18⟩)] } }, 1, 1, 4, by decide +kernel⟩,
   ⟨setR hiveState KH_MG_CTL 4, 1, 1, by decide +kernel⟩,
   ⟨{ setR hiveState KH_MG_CTL 4 with kh := { mg := some (5, atSec 99) } }, 3, ⟨7, 5, 0x1234, 0⟩, 5, atSec 99, by decide +kernel⟩,
   ⟨{ hiveState with kh := { routes := [(11, ⟨4, 1, 18⟩)] } }, 3, ⟨11, 5, 0x1234, 0⟩, 4, by decide +kernel⟩,
   ⟨{ setR hiveState KH_MG_CTL 4 with kh := { mg := some (5, atSec 99) } }, 5, atSec 99, by decide +kernel⟩,
   ⟨{ setR hiveState KH_MG_CTL 4 with kh := { mg := some (5, atSec 100) } }, 5, atSec 100, by decide +kernel⟩⟩

/-- States and operands that meet the hypotheses of VolumesRecordAndClose, clause by clause. -/
theorem witness_VolumesRecordAndClose :
    (∃ (s : State), s.devState = 4 ∧
      s.power.setupFirst = true ∧
      s.bd.begun = false ∧
      s.bd.chans.all (fun q => decide (q.1 < 32)) = true) ∧
    (∃ (s : State), s.bd.begun = true) ∧
    (∃ (s : State) (p : Fin 5) (i : Fin 32) (v : Word), s.mayWrite p (BD_VS_CTL i) = true ∧
      s.get (BD_VS_CTL_STATE i) = 0 ∧
      bits v.toNat 0 0 = 1 ∧
      (s.put (BD_VS_CTL_FULL_MODE i) (bits v.toNat 5 5)).volCheck i = 0 ∧
      s.bd.chans.all (fun q => decide (q.1 < 32)) = true) ∧
    (∃ (s : State) (p : Fin 5) (i : Fin 32) (v : Word), s.mayWrite p (BD_VS_CTL i) = true ∧
      s.get (BD_VS_CTL_STATE i) = 0 ∧
      bits v.toNat 0 0 = 1 ∧
      (s.put (BD_VS_CTL_FULL_MODE i) (bits v.toNat 5 5)).volCheck i ≠ 0) ∧
    (∃ (s : State) (p : Fin 5) (i : Fin 32) (x : BdSlot) (v : BdVol), s.mayWrite p (BD_VS_CTL i) = true ∧
      s.on BD_STATUS_LOST = false ∧
      kvGet s.bd.slots i = some x ∧
      kvGet s.bd.vols x.vol = some v ∧
      s.bd.chans.all (fun q => decide (q.1 < 32)) = true ∧
      s.kh.ctx.all (fun q => decide (q.1 < 4096)) = true) ∧
    (∃ (s : State) (p : Fin 5) (i : Fin 32), s.mayWrite p (BD_VS_CTL i) = true ∧
      s.on BD_STATUS_LOST = true) ∧
    (∃ (s : State) (i : Fin 32) (r : YRec) (x : BdSlot) (v : BdVol) (q : (Nat × Nat) × Nat), s.gated 12 = false ∧
      s.lost 12 = false ∧
      kvGet s.bd.slots i = some x ∧
      kvGet s.bd.vols x.vol = some v ∧
      s.bd.failing = false ∧
      (v.keys.zip (List.range 16)).find? (fun k => k.1.2 = r.stream.toNat && (k.1.1 = r.hive.toNat || (k.1.1 = 0 && r.hive.toNat = s.khAddr))) =
      some q ∧
      owedFor x.lost r = none ∧
      ((∀ f ∈ x.fronts, (v.bytes + recSize r) / 16384 < x.next + (s.bdSec f.sec).perRound)) ∧
      (s.on (BD_VS_CTL_FULL_MODE i) = false ∨ x.fronts.all (fun f => decide (2 * f.pos < s.secStripes)) = true)) ∧
    (∃ (s : State) (i : Fin 32) (r : YRec) (x : BdSlot) (v : BdVol) (q : (Nat × Nat) × Nat), s.gated 12 = false ∧
      s.lost 12 = false ∧
      kvGet s.bd.slots i = some x ∧
      kvGet s.bd.vols x.vol = some v ∧
      s.bd.failing = false ∧
      (v.keys.zip (List.range 16)).find? (fun k => k.1.2 = r.stream.toNat && (k.1.1 = r.hive.toNat || (k.1.1 = 0 && r.hive.toNat = s.khAddr))) =
      some q) ∧
    (∃ (s : State) (i : Fin 32) (r : YRec) (x : BdSlot) (v : BdVol) (q : (Nat × Nat) × Nat), s.gated 12 = false ∧
      s.lost 12 = false ∧
      kvGet s.bd.slots i = some x ∧
      kvGet s.bd.vols x.vol = some v ∧
      s.bd.failing = false ∧
      (v.keys.zip (List.range 16)).find? (fun k => k.1.2 = r.stream.toNat && (k.1.1 = r.hive.toNat || (k.1.1 = 0 && r.hive.toNat = s.khAddr))) =
      some q ∧
      x.lost = []) ∧
    (∃ (s : State) (i : Fin 32), kvGet s.bd.slots i = none) ∧
    (∃ (s : State) (i : Fin 32) (f : Fin 31) (x : BdSlot) (v : BdVol) (fr : BdFront) (rd : BdRound) (l : List BdRound), s.gated 12 = false ∧
      s.lost 12 = false ∧
      kvGet s.bd.slots i = some x ∧
      kvGet s.bd.vols x.vol = some v ∧
      x.fronts[f.val]? = some fr ∧
      fr.rounds = rd :: l ∧
      x.done = [] ∧
      v.durable = rd.lo ∧
      s.bd.failing = false) ∧
    (∃ (s : State) (w : State) (i : Fin 32) (f : Fin 31) (x : BdSlot) (v : BdVol) (fr : BdFront) (k : Nat), s.gated 12 = false ∧
      s.lost 12 = false ∧
      kvGet s.bd.slots i = some x ∧
      kvGet s.bd.vols x.vol = some v ∧
      x.fronts[f.val]? = some fr ∧
      s.secStripes < fr.pos + 12 ∧
      s.get (BD_VS_CFG_MAX_SECTIONS i) = 0 ∧
      s.on (BD_VS_CTL_FULL_MODE i) = false ∧
      (s.modSec fr.sec fun y => { y with full := true }).formSection x.vol ((x.fronts.map (·.sec)).filter (· != fr.sec)) = some (k, w)) ∧
    (∃ (s : State) (i : Fin 32) (f : Fin 31) (x : BdSlot) (v : BdVol) (fr : BdFront), s.gated 12 = false ∧
      s.lost 12 = false ∧
      kvGet s.bd.slots i = some x ∧
      kvGet s.bd.vols x.vol = some v ∧
      x.fronts[f.val]? = some fr ∧
      s.secStripes < fr.pos + 12 ∧
      s.get (BD_VS_CFG_MAX_SECTIONS i) ≠ 0 ∧
      s.get (BD_VS_CFG_MAX_SECTIONS i) ≤ v.secs.length ∧
      s.on (BD_VS_CTL_FULL_MODE i) = false ∧
      s.bd.chans.all (fun q => decide (q.1 < 32)) = true ∧
      s.kh.ctx.all (fun q => decide (q.1 < 4096)) = true) ∧
    (∃ (s : State) (w : State) (u : State) (i : Fin 32) (f : Fin 31) (x : BdSlot) (v : BdVol) (fr : BdFront) (k : Nat), s.gated 12 = false ∧
      s.lost 12 = false ∧
      kvGet s.bd.slots i = some x ∧
      kvGet s.bd.vols x.vol = some v ∧
      x.fronts[f.val]? = some fr ∧
      s.secStripes < fr.pos + 12 ∧
      s.get (BD_VS_CFG_MAX_SECTIONS i) ≠ 0 ∧
      s.get (BD_VS_CFG_MAX_SECTIONS i) ≤ v.secs.length ∧
      s.on (BD_VS_CTL_FULL_MODE i) = true ∧
      (fr.rounds.any fun r => some r.sec = v.secs.head?) = false ∧
      (s.modSec fr.sec fun y => { y with full := true }).wrapDrop i (some f) = some w ∧
      w.formSection x.vol ((x.fronts.map (·.sec)).filter (· != fr.sec)) = some (k, u)) ∧
    (∃ (s : State) (i : Fin 32) (f : Fin 31) (x : BdSlot) (fr : BdFront), kvGet s.bd.slots i = some x ∧
      x.fronts[f.val]? = some fr ∧
      fr.pos + 12 ≤ s.secStripes) ∧
    (∃ (s : State), s.gated 12 = false ∧
      s.lost 12 = false ∧
      s.bd.slots ≠ [] ∧
      tLe (tAdd s.bd.ckptAt (2 ^ 48)) s.now = true) ∧
    (∃ (s : State), s.bd.slots = []) ∧
    (∃ (s : State) (p : Fin 5) (v : Word) (x : BdVol), s.mayWrite p BD_CAT_DEL = true ∧
      s.on BD_STATUS_LOST = false ∧
      s.on BD_STATUS_MOUNTED = true ∧
      s.volMayDelete (s.domain p) v.toNat = true ∧
      s.volRead v.toNat = false ∧
      kvGet s.bd.vols v.toNat = some x ∧
      x.state = .closed) ∧
    (∃ (s : State) (p : Fin 5) (v : Word), s.mayWrite p BD_CAT_DEL = true ∧
      s.on BD_STATUS_LOST = false ∧
      s.on BD_STATUS_MOUNTED = true ∧
      s.volMayDelete (s.domain p) v.toNat = false) ∧
    (∃ (s : State) (n : Nat) (x : BdSec) (m : BdMember), s.gated 12 = false ∧
      s.lost 12 = false ∧
      kvGet s.bd.secs n = some x ∧
      x.vol = none ∧
      s.secRead x = false ∧
      x.members = [m] ∧
      (s.bdUnit (unitKey m.chan m.lun m.blk)).bad = false) ∧
    (∃ (s : State) (n : Nat) (k : Nat) (x : BdSec), kvGet s.bd.secs n = some x ∧
      x.vol = some k) ∧
    (∃ (s : State) (v : Word) (x : BdVol), kvGet s.bd.vols v.toNat = some x ∧
      x.state = .recovering) ∧
    (∃ (s : State) (v : Word) (x : BdVol), kvGet s.bd.vols v.toNat = some x ∧
      x.state ≠ .recovering) :=
  ⟨⟨{ devIn 4 with power := { setupFirst := true } }, by decide +kernel⟩,
   ⟨{ devIn 4 with bd := { begun := true } }, by decide +kernel⟩,
   ⟨bdState, 1, 3, 1, by decide +kernel⟩,
   ⟨runState, 1, 3, 1, by decide +kernel⟩,
   ⟨volState, 1, 3, { vol := 5, fronts := [{ sec := 0, pos := 0, rounds := [⟨4, 12, 0, 0, [0, 1], atSec 100⟩] }] }, { state := .recording, keys := [(9, 0x8003)], secs := [0], durable := 4, bytes := 70000 }, by decide +kernel⟩,
   ⟨setR runState BD_STATUS 0x80, 1, 3, by decide +kernel⟩,
   ⟨volState, 3, testRec, { vol := 5, fronts := [{ sec := 0, pos := 0, rounds := [⟨4, 12, 0, 0, [0, 1], atSec 100⟩] }] }, { state := .recording, keys := [(9, 0x8003)], secs := [0], durable := 4, bytes := 70000 }, ((9, 0x8003), 0), by decide +kernel⟩,
   ⟨volState, 3, testRec, { vol := 5, fronts := [{ sec := 0, pos := 0, rounds := [⟨4, 12, 0, 0, [0, 1], atSec 100⟩] }] }, { state := .recording, keys := [(9, 0x8003)], secs := [0], durable := 4, bytes := 70000 }, ((9, 0x8003), 0), by decide +kernel⟩,
   ⟨volState, 3, testRec, { vol := 5, fronts := [{ sec := 0, pos := 0, rounds := [⟨4, 12, 0, 0, [0, 1], atSec 100⟩] }] }, { state := .recording, keys := [(9, 0x8003)], secs := [0], durable := 4, bytes := 70000 }, ((9, 0x8003), 0), by decide +kernel⟩,
   ⟨volState, 4, by decide +kernel⟩,
   ⟨volState, 3, 0, { vol := 5, fronts := [{ sec := 0, pos := 0, rounds := [⟨4, 12, 0, 0, [0, 1], atSec 100⟩] }] }, { state := .recording, keys := [(9, 0x8003)], secs := [0], durable := 4, bytes := 70000 }, { sec := 0, pos := 0, rounds := [⟨4, 12, 0, 0, [0, 1], atSec 100⟩] }, ⟨4, 12, 0, 0, [0, 1], atSec 100⟩, [], by decide +kernel⟩,
   ⟨volState, (((volState.modSec 0 fun y => { y with full := true }).formSection 5 []).getD (0, volState)).2, 3, 0, { vol := 5, fronts := [{ sec := 0, pos := 0, rounds := [⟨4, 12, 0, 0, [0, 1], atSec 100⟩] }] }, { state := .recording, keys := [(9, 0x8003)], secs := [0], durable := 4, bytes := 70000 }, { sec := 0, pos := 0, rounds := [⟨4, 12, 0, 0, [0, 1], atSec 100⟩] }, 1, by decide +kernel⟩,
   ⟨setR volState (BD_VS_CFG 3) 0x101, 3, 0, { vol := 5, fronts := [{ sec := 0, pos := 0, rounds := [⟨4, 12, 0, 0, [0, 1], atSec 100⟩] }] }, { state := .recording, keys := [(9, 0x8003)], secs := [0], durable := 4, bytes := 70000 }, { sec := 0, pos := 0, rounds := [⟨4, 12, 0, 0, [0, 1], atSec 100⟩] }, by decide +kernel⟩,
   ⟨{ setR (setR volState (BD_VS_CFG 3) 0x101) (BD_VS_CTL 3) 0x60 with bd := { volState.bd with slots := [(3, { vol := 5, fronts := [{ sec := 0, pos := 0 }] })] } }, (((({ setR (setR volState (BD_VS_CFG 3) 0x101) (BD_VS_CTL 3) 0x60 with bd := { volState.bd with slots := [(3, { vol := 5, fronts := [{ sec := 0, pos := 0 }] })] } }).modSec 0 fun y => { y with full := true }).wrapDrop 3 (some 0)).getD runState), ((((((({ setR (setR volState (BD_VS_CFG 3) 0x101) (BD_VS_CTL 3) 0x60 with bd := { volState.bd with slots := [(3, { vol := 5, fronts := [{ sec := 0, pos := 0 }] })] } }).modSec 0 fun y => { y with full := true }).wrapDrop 3 (some 0)).getD runState).formSection 5 []).getD (0, runState)).2), 3, 0, { vol := 5, fronts := [{ sec := 0, pos := 0 }] }, { state := .recording, keys := [(9, 0x8003)], secs := [0], durable := 4, bytes := 70000 }, { sec := 0, pos := 0 }, 1, by decide +kernel⟩,
   ⟨{ volState with bd := { volState.bd with pages := 3 } }, 3, 0, { vol := 5, fronts := [{ sec := 0, pos := 0, rounds := [⟨4, 12, 0, 0, [0, 1], atSec 100⟩] }] }, { sec := 0, pos := 0, rounds := [⟨4, 12, 0, 0, [0, 1], atSec 100⟩] }, by decide +kernel⟩,
   ⟨volState, by decide +kernel⟩,
   ⟨runState, by decide +kernel⟩,
   ⟨{ setR runState BD_STATUS 1 with bd := { vols := [(5, { state := .closed, keys := [], secs := [2] })], secs := [(2, ⟨some 5, [], true, 0, false, none⟩)] }, prot := { active := { volDefault := 0 } } }, 1, 5, { state := .closed, keys := [], secs := [2] }, by decide +kernel⟩,
   ⟨{ setR runState BD_STATUS 1 with prot := { active := { runState.prot.active with volDefault := 0xF } } }, 2, 5, by decide +kernel⟩,
   ⟨{ runState with bd := { secs := [(2, ⟨none, [⟨0, 1, 1, false⟩], true, 0, false, none⟩)], units := [(unitKey 0 1 1, { erases := 4, owner := some 2, dirty := true })] } }, 2, ⟨none, [⟨0, 1, 1, false⟩], true, 0, false, none⟩, ⟨0, 1, 1, false⟩, by decide +kernel⟩,
   ⟨{ runState with bd := { secs := [(2, ⟨some 5, [⟨0, 1, 1, false⟩], true, 0, false, none⟩)] } }, 2, 5, ⟨some 5, [⟨0, 1, 1, false⟩], true, 0, false, none⟩, by decide +kernel⟩,
   ⟨{ runState with bd := { vols := [(5, { state := .recovering, keys := [(9, 0x8003)], recs := [⟨0, 0, 1, testRec⟩, ⟨16380, 0, 1, testRec⟩] })] } }, 5, { state := .recovering, keys := [(9, 0x8003)], recs := [⟨0, 0, 1, testRec⟩, ⟨16380, 0, 1, testRec⟩] }, by decide +kernel⟩,
   ⟨{ runState with bd := { vols := [(5, { state := .closed, keys := [] })] } }, 5, { state := .closed, keys := [] }, by decide +kernel⟩⟩

/-- States and operands that meet the hypotheses of FlashAgesAndIsRead, clause by clause. -/
theorem witness_FlashAgesAndIsRead :
    (∃ (s : State) (c : Fin 32) (l : Fin 32) (k : Nat) (x : BdLun), (s.bdChan c).luns[l.val]? = some x ∧
      k < s.bd.blocks ∧
      x.grown < 15 ∧
      (s.bdUnit (unitKey c l k)).bad = false) ∧
    (∃ (s : State) (c : Fin 32) (l : Fin 32) (k : Nat), (s.bdUnit (unitKey c l k)).bad = true) ∧
    (∃ (s : State) (c : Fin 32) (l : Fin 32) (x : BdLun), (s.bdChan c).luns[l.val]? = some x ∧
      x.failed = false ∧
      x.spine = false) ∧
    (∃ (s : State) (c : Fin 32) (l : Fin 32) (x : BdLun), (s.bdChan c).luns[l.val]? = some x ∧
      x.failed = true) ∧
    (∃ (s : State) (n : Nat) (v : Nat) (x : BdSec), s.gated 12 = false ∧
      s.lost 12 = false ∧
      kvGet s.bd.secs n = some x ∧
      x.vol = some v ∧
      s.on BD_STATUS_QUIET = false ∧
      (kvGet s.bd.vols v).map (·.state) = some .closed) ∧
    (∃ (s : State), s.on BD_STATUS_QUIET = true) ∧
    (∃ (s : State) (p : Fin 5), s.mayWrite p BD_FLASH_TEMP = true) ∧
    (∃ (s : State) (w : State) (n : Nat) (v : Nat) (k : Nat) (x : BdSec) (y : BdVol), s.gated 12 = false ∧
      s.lost 12 = false ∧
      kvGet s.bd.secs n = some x ∧
      x.vol = some v ∧
      x.move = true ∧
      s.secOpen n = false ∧
      s.on BD_STATUS_QUIET = false ∧
      s.formSection v [] = some (k, w) ∧
      k ≠ n ∧
      kvGet s.bd.vols v = some y) ∧
    (∃ (s : State), s.on BD_STATUS_QUIET = true) ∧
    (∃ (s : State) (n : Nat) (v : Nat) (l : Nat) (k : Nat) (x : BdSec) (m : BdMember), s.gated 12 = false ∧
      s.lost 12 = false ∧
      kvGet s.bd.secs n = some x ∧
      x.vol = some v ∧
      s.secOpen n = false ∧
      s.on BD_STATUS_QUIET = false ∧
      (x.members.filter fun q => q.retired) = [m] ∧
      (s.bdChan m.chan).failed = false ∧
      s.pickUnit m.chan [] = some (l, k)) ∧
    (∃ (s : State), s.on BD_STATUS_QUIET = true) ∧
    (∃ (s : State), s.on BD_STATUS_MOUNTED = true ∧
      s.on BD_STATUS_LOST = false ∧
      s.spineClear 0 = true ∧
      s.bd.chans.all (fun q => decide (q.1 < 32)) = true) ∧
    (∃ (s : State), s.on BD_STATUS_MOUNTED = true ∧
      s.on BD_STATUS_LOST = false ∧
      s.spineClear 16 = true ∧
      s.bd.chans.all (fun q => decide (q.1 < 32)) = true) ∧
    (∃ (s : State), s.on BD_STATUS_MOUNTED = false) ∧
    (∃ (s : State) (p : Fin 5), s.mayWrite p BD_CTL = true ∧
      s.domain p = 3 ∧
      s.on BD_STATUS_LOST = false ∧
      s.bd.reads = [] ∧
      s.bd.vols.all (fun q => decide (q.2.state ≠ .recording) && decide (q.2.state ≠ .recovering)) = true ∧
      s.bd.chans.all (fun q => decide (q.1 < 32)) = true) ∧
    (∃ (s : State) (p : Fin 5), s.mayWrite p BD_CTL = true ∧
      s.domain p ≠ 3 ∧
      s.on BD_STATUS_LOST = false) ∧
    (∃ (s : State) (p : Fin 5), s.mayWrite p BD_CTL = true ∧
      s.on BD_STATUS_LOST = false ∧
      s.on BD_CTL_QUIESCE = false) ∧
    (∃ (s : State) (u : State) (p : Fin 5) (r : Fin 4) (v : Word) (y : BdVol), s.mayWrite p (BD_RS_CTL r) = true ∧
      s.on (BD_RS_CTL_RUNNING r) = false ∧
      bits v.toNat 3 2 ≠ 3 ∧
      bits v.toNat 1 0 = 1 ∧
      s.on BD_STATUS_LOST = false ∧
      s.rsSink r = true ∧
      s.on BD_STATUS_MOUNTED = true ∧
      kvGet s.bd.vols (s.val (BD_RS_VOL r)) = some y ∧
      y.state ≠ .recovering ∧
      y.state ≠ .deleting ∧
      s.volMayRead (s.domain p) (s.val (BD_RS_VOL r)) = true ∧
      u = s.put (BD_RS_CTL_FROM r) (bits v.toNat 3 2)) ∧
    (∃ (s : State) (p : Fin 5) (r : Fin 4) (v : Word) (y : BdVol), s.mayWrite p (BD_RS_CTL r) = true ∧
      s.on (BD_RS_CTL_RUNNING r) = false ∧
      bits v.toNat 3 2 ≠ 3 ∧
      bits v.toNat 1 0 = 1 ∧
      s.on BD_STATUS_LOST = false ∧
      s.rsSink r = true ∧
      s.on BD_STATUS_MOUNTED = true ∧
      kvGet s.bd.vols (s.val (BD_RS_VOL r)) = some y ∧
      y.state = .closed ∧
      s.volMayRead (s.domain p) (s.val (BD_RS_VOL r)) = false) ∧
    (∃ (s : State) (p : Fin 5) (r : Fin 4), s.mayWrite p (BD_RS_CTL r) = true ∧
      s.get (BD_RS_CTL_FROM r) ≠ 3) ∧
    (∃ (s : State) (r : Fin 4) (y : BdRead) (v : BdVol) (x : BdRec), s.gated 12 = false ∧
      s.lost 12 = false ∧
      kvGet s.bd.reads r = some y ∧
      kvGet s.bd.vols y.vol = some v ∧
      v.first ≤ y.leaf ∧
      y.leaf + 1 < v.durable ∧
      v.recs = [x] ∧
      y.from_ ≤ x.at_ ∧
      16384 * v.first ≤ x.at_ ∧
      16384 * y.leaf ≤ x.at_ ∧
      x.at_ + recSize x.r ≤ 16384 * (y.leaf + 1) ∧
      y.cut = [] ∧
      (kvGetD s.bd.lostLeaves y.vol []).contains y.leaf = false ∧
      v.erased y.leaf = false) ∧
    (∃ (s : State) (r : Fin 4) (y : BdRead) (v : BdVol), s.gated 12 = false ∧
      s.lost 12 = false ∧
      kvGet s.bd.reads r = some y ∧
      kvGet s.bd.vols y.vol = some v ∧
      v.first ≤ y.leaf ∧
      y.leaf + 1 < v.durable ∧
      s.bd.chans.all (fun q => decide (q.1 < 32)) = true ∧
      (kvGetD s.bd.lostLeaves y.vol []).contains y.leaf = false ∧
      v.erased y.leaf = false) ∧
    (∃ (s : State) (r : Fin 4) (y : BdRead) (v : BdVol), s.gated 12 = false ∧
      s.lost 12 = false ∧
      kvGet s.bd.reads r = some y ∧
      kvGet s.bd.vols y.vol = some v ∧
      v.first ≤ y.leaf ∧
      v.durable ≤ y.leaf ∧
      v.state = .closed) ∧
    (∃ (s : State) (r : Fin 4), kvGet s.bd.reads r = none) :=
  ⟨⟨volState, 1, 1, 1, { target := 0 }, by decide +kernel⟩,
   ⟨{ runState with bd := { units := [(unitKey 1 1 1, { bad := true })] } }, 1, 1, 1, by decide +kernel⟩,
   ⟨volState, 1, 1, { target := 0 }, by decide +kernel⟩,
   ⟨{ runState with bd := { chans := [(1, { luns := [{ target := 0, failed := true }] })] } }, 1, 0, { target := 0, failed := true }, by decide +kernel⟩,
   ⟨readState, 0, 5, ⟨some 5, [⟨0, 0, 0, false⟩, ⟨1, 0, 0, true⟩], true, 7, true, none⟩, by decide +kernel⟩,
   ⟨setR runState BD_STATUS 8, by decide +kernel⟩,
   ⟨runState, 1, by decide +kernel⟩,
   ⟨readState, ((readState.formSection 5 []).getD (0, readState)).2, 0, 5, 1, ⟨some 5, [⟨0, 0, 0, false⟩, ⟨1, 0, 0, true⟩], true, 7, true, none⟩, { state := .closed, keys := [(9, 0x8003)], secs := [0], durable := 4, bytes := 65536, recs := [⟨16384, 0, 1, testRec⟩] }, by decide +kernel⟩,
   ⟨setR runState BD_STATUS 8, by decide +kernel⟩,
   ⟨readState, 0, 5, 0, 0, ⟨some 5, [⟨0, 0, 0, false⟩, ⟨1, 0, 0, true⟩], true, 7, true, none⟩, ⟨1, 0, 0, true⟩, by decide +kernel⟩,
   ⟨setR runState BD_STATUS 8, by decide +kernel⟩,
   ⟨readState, by decide +kernel⟩,
   ⟨readState, by decide +kernel⟩,
   ⟨runState, by decide +kernel⟩,
   ⟨{ readState with bd := { readState.bd with reads := [] } }, 1, by decide +kernel⟩,
   ⟨readState, 2, by decide +kernel⟩,
   ⟨volState, 1, by decide +kernel⟩,
   ⟨setR (setR (setR readState (BD_RS_VOL 1) 5) (DMA_CTL 4) 3) (BD_RS_SINK 1) 0x402, (setR (setR (setR readState (BD_RS_VOL 1) 5) (DMA_CTL 4) 3) (BD_RS_SINK 1) 0x402).put (BD_RS_CTL_FROM 1) 0, 1, 1, 1, { state := .closed, keys := [(9, 0x8003)], secs := [0], durable := 4, bytes := 65536, recs := [⟨16384, 0, 1, testRec⟩] }, by decide +kernel⟩,
   ⟨{ setR (setR (setR readState (BD_RS_VOL 1) 5) (DMA_CTL 4) 3) (BD_RS_SINK 1) 0x402 with prot := { active := { volDefault := 0xF } } }, 2, 1, 1, { state := .closed, keys := [(9, 0x8003)], secs := [0], durable := 4, bytes := 65536, recs := [⟨16384, 0, 1, testRec⟩] }, by decide +kernel⟩,
   ⟨setR readState (BD_RS_CTL 2) 0x10, 1, 2, by decide +kernel⟩,
   ⟨readState, 2, { vol := 5, leaf := 1, from_ := 16384 }, { state := .closed, keys := [(9, 0x8003)], secs := [0], durable := 4, bytes := 65536, recs := [⟨16384, 0, 1, testRec⟩] }, ⟨16384, 0, 1, testRec⟩, by decide +kernel⟩,
   ⟨readState, 2, { vol := 5, leaf := 1, from_ := 16384 }, { state := .closed, keys := [(9, 0x8003)], secs := [0], durable := 4, bytes := 65536, recs := [⟨16384, 0, 1, testRec⟩] }, by decide +kernel⟩,
   ⟨{ readState with bd := { readState.bd with reads := [(2, { vol := 5, leaf := 4, from_ := 16384 })] } }, 2, { vol := 5, leaf := 4, from_ := 16384 }, { state := .closed, keys := [(9, 0x8003)], secs := [0], durable := 4, bytes := 65536, recs := [⟨16384, 0, 1, testRec⟩] }, by decide +kernel⟩,
   ⟨runState, 2, by decide +kernel⟩⟩

/-- States and operands that meet the hypotheses of WindowDIsGuarded, clause by clause. -/
theorem witness_WindowDIsGuarded :
    (∃ (s : State) (o : BitVec 36) (n : Fin 4097) (a : Nat), s.gated 15 = false ∧
      s.lost 15 = false ∧
      s.gated 11 = false ∧
      s.lost 11 = false ∧
      s.answers 0 = true ∧
      a = s.get HS_WD_BASE_BASE_GIB * 2 ^ 30 + o.toNat ∧
      (s.cmSize < a + n.val ∨ s.cmAllowed (s.domain 0) a n false = false)) ∧
    (∃ (s : State) (o : BitVec 36) (bs : List Byte) (a : Nat), s.gated 15 = false ∧
      s.lost 15 = false ∧
      s.gated 11 = false ∧
      s.lost 11 = false ∧
      s.answers 0 = true ∧
      a = s.get HS_WD_BASE_BASE_GIB * 2 ^ 30 + o.toNat ∧
      (s.cmSize < a + bs.length ∨ s.cmAllowed (s.domain 0) a bs.length true = false)) ∧
    (∃ (s : State) (o : BitVec 36) (n : Fin 4097) (a : Nat), s.gated 15 = false ∧
      s.lost 15 = false ∧
      s.gated 11 = false ∧
      s.lost 11 = false ∧
      s.answers 0 = true ∧
      a = s.get HS_WD_BASE_BASE_GIB * 2 ^ 30 + o.toNat ∧
      a + n.val ≤ s.cmSize ∧
      s.cmAllowed (s.domain 0) a n false = true ∧
      (s.memRead a n).2 = false ∧
      ((∀ c ∈ List.range 16, s.on (CM_CH_STATUS_IN_SR c) = false))) ∧
    (∃ (s : State) (o : BitVec 36) (bs : List Byte) (a : Nat), s.gated 15 = false ∧
      s.lost 15 = false ∧
      s.gated 11 = false ∧
      s.lost 11 = false ∧
      s.answers 0 = true ∧
      a = s.get HS_WD_BASE_BASE_GIB * 2 ^ 30 + o.toNat ∧
      a + bs.length ≤ s.cmSize ∧
      s.cmAllowed (s.domain 0) a bs.length true = true ∧
      (sectors a bs.length).any s.sectorPoisoned = false ∧
      ((∀ c ∈ List.range 16, s.on (CM_CH_STATUS_IN_SR c) = false))) :=
  ⟨⟨{ memState with prot := { active := { cmDefault := 0 } } }, 0x100000001, 8, 0x100000001, by decide +kernel⟩,
   ⟨{ memState with prot := { active := { cmDefault := 0 } } }, 0x100000001, [1, 2], 0x100000001, by decide +kernel⟩,
   ⟨{ memState with cmem := [(0x10, 7)] }, 0x10, 8, 0x10, by decide +kernel⟩,
   ⟨memState, 0x10, [1, 2], 0x10, by decide +kernel⟩⟩

/-- States and operands that meet the hypotheses of DmaChannelsRun, clause by clause. -/
theorem witness_DmaChannelsRun :
    (∃ (s : State), 2 ≤ s.devState ∧
      s.dutyUp 15 20 = true) ∧
    (∃ (s : State), 2 ≤ s.devState) ∧
    (∃ (s : State), 2 ≤ s.devState) ∧
    (∃ (s : State) (u : State) (p : Fin 5) (c : Fin 64) (v : Word), s.mayWrite p (DMA_CTL c) = true ∧
      s.on (DMA_CTL_ENABLE c) = false ∧
      bits v.toNat 0 0 = 1 ∧
      bits v.toNat 4 3 = 0 ∧
      u = s.plainWrite (DMA_CTL c) (setBits (setBits v.toNat 4 3 0) 0 0 0) ∧
      u.dmaCheck c = 0) ∧
    (∃ (s : State) (u : State) (p : Fin 5) (c : Fin 64) (v : Word), s.mayWrite p (DMA_CTL c) = true ∧
      s.on (DMA_CTL_ENABLE c) = false ∧
      bits v.toNat 0 0 = 1 ∧
      u = s.plainWrite (DMA_CTL c) (setBits (setBits v.toNat 4 3 0) 0 0 0) ∧
      u.dmaCheck c ≠ 0) ∧
    (∃ (s : State) (p : Fin 5) (c : Fin 64), s.mayWrite p (DMA_CTL c) = true ∧
      s.on (DMA_CTL_ENABLE c) = true) ∧
    (∃ (s : State) (p : Fin 5) (c : Fin 64) (a : Nat), s.mayWrite p (DMA_CTL c) = true ∧
      s.dmaIdle c = true ∧
      bits (s.val (DMA_CTL c)) 4 4 = 0 ∧
      a = s.pair (DMA_DESC_ADDR_LO c) (DMA_DESC_ADDR_HI c) ∧
      bits a 1 1 = 0) ∧
    (∃ (s : State) (p : Fin 5) (c : Fin 64), s.mayWrite p (DMA_CTL c) = true ∧
      s.dmaIdle c = false ∧
      s.on (DMA_CTL_ENABLE c) = true ∧
      bits (s.val (DMA_CTL c)) 4 4 = 0) ∧
    (∃ (s : State) (p : Fin 5) (c : Fin 64), s.mayWrite p (DMA_CTL c) = true ∧
      s.on (DMA_CTL_ENABLE c) = true ∧
      bits (s.val (DMA_CTL c)) 3 3 = 0) ∧
    (∃ (s : State) (c : Fin 64) (d : DmaDesc) (bs : List Byte), s.gated 15 = false ∧
      s.lost 15 = false ∧
      s.dutyUp 15 (c % 8) = true ∧
      (s.dma c).phase = .fetch ∧
      bits (s.dma c).at_ 0 0 = 0 ∧
      bs = leBytes 8 d.next ++ leBytes 8 d.src ++ leBytes 8 d.dst ++ leBytes 4 d.len ++ leBytes 4 d.ctl ++ leBytes 4 d.tag ++ leBytes 28 0 ∧
      d.next < 2 ^ 64 ∧
      d.src < 2 ^ 64 ∧
      d.dst < 2 ^ 64 ∧
      d.len < 2 ^ 32 ∧
      d.tag < 2 ^ 32 ∧
      d.ctl < 64 ∧
      s.dmaSink c = false ∧
      d.len ≠ 0 ∧
      bits d.next 5 2 = 0 ∧
      bits d.ctl 0 0 = 0 ∧
      bits d.ctl 1 1 = 1 ∧
      d.dst + d.len ≤ s.cmSize ∧
      s.cmAllowed (s.domain (s.dma c).path) d.dst d.len true = true) ∧
    (∃ (s : State) (c : Fin 64) (bs : List Byte), s.gated 15 = false ∧
      s.lost 15 = false ∧
      s.dutyUp 15 (c % 8) = true ∧
      (s.dma c).phase = .fetch ∧
      bits (s.dma c).at_ 0 0 = 0 ∧
      bs.length = 64 ∧
      fromLe ((bs.drop 24).take 4) = 0) ∧
    (∃ (s : State) (c : Fin 64), s.gated 15 = false ∧
      s.lost 15 = false ∧
      s.dutyUp 15 (c % 8) = true ∧
      (s.dma c).phase = .fetch ∧
      bits (s.dma c).at_ 0 0 = 0) ∧
    (∃ (s : State) (c : Fin 64), (s.dma c).phase = .idle) ∧
    (∃ (s : State) (c : Fin 64) (d : DmaDesc) (bs : List Byte), s.gated 15 = false ∧
      s.lost 15 = false ∧
      s.dutyUp 15 (c % 8) = true ∧
      (s.dma c).desc = some d ∧
      (s.dma c).phase = .move ∧
      bits d.ctl 0 0 = 0 ∧
      bits d.ctl 1 1 = 1 ∧
      bs.length = (d.part (s.dma c).off).2 ∧
      d.len ≤ (s.dma c).off + bs.length ∧
      s.gated 11 = false ∧
      s.memGone (d.dst + (d.part (s.dma c).off).1) bs.length = false) ∧
    (∃ (s : State) (c : Fin 64) (d : DmaDesc), s.gated 15 = false ∧
      s.lost 15 = false ∧
      s.dutyUp 15 (c % 8) = true ∧
      (s.dma c).desc = some d ∧
      (s.dma c).phase = .move ∧
      bits d.ctl 0 0 = 0 ∧
      s.gated 11 = false) ∧
    (∃ (s : State) (c : Fin 64), (s.dma c).desc = none) ∧
    (∃ (s : State) (c : Fin 64) (d : DmaDesc), s.gated 15 = false ∧
      s.lost 15 = false ∧
      s.dutyUp 15 (c % 8) = true ∧
      (s.dma c).desc = some d ∧
      (s.dma c).phase = .confirm ∧
      bits d.ctl 5 4 = 0 ∧
      bits d.next 1 1 = 1) ∧
    (∃ (s : State) (c : Fin 64) (d : DmaDesc), s.gated 15 = false ∧
      s.lost 15 = false ∧
      s.dutyUp 15 (c % 8) = true ∧
      (s.dma c).desc = some d ∧
      (s.dma c).phase = .confirm ∧
      bits d.ctl 5 4 = 2 ∧
      bits d.next 1 1 = 1 ∧
      (s.hq (s.get (DMA_CTL_CQ c))).entries.length < s.hqDepth (s.get (DMA_CTL_CQ c))) ∧
    (∃ (s : State) (c : Fin 64) (d : DmaDesc), s.gated 15 = false ∧
      s.lost 15 = false ∧
      s.dutyUp 15 (c % 8) = true ∧
      (s.dma c).desc = some d ∧
      (s.dma c).phase = .confirm) ∧
    (∃ (s : State) (c : Fin 64) (d : DmaDesc) (r : YRec), s.gated 15 = false ∧
      s.lost 15 = false ∧
      s.dutyUp 15 (c % 8) = true ∧
      s.dmaSink c = true ∧
      s.on (DMA_CTL_ENABLE c) = true ∧
      (s.dma c).desc = some d ∧
      (s.dma c).phase = .buffer ∧
      (s.dma c).carry = [] ∧
      (s.dma c).lost = [] ∧
      bits d.ctl 1 1 = 0 ∧
      d.dst % 8 = 0 ∧
      (s.dma c).off % 8 = 0 ∧
      (s.dma c).off + (recBytes r).length < d.len) ∧
    (∃ (s : State) (c : Fin 64), s.gated 15 = false ∧
      s.lost 15 = false ∧
      s.dutyUp 15 (c % 8) = true ∧
      s.dmaSink c = true ∧
      (s.dma c).desc = none ∧
      (s.dma c).lost = []) ∧
    (∃ (s : State) (c : Fin 64), s.dmaSink c = false) ∧
    (∃ (s : State) (c : Fin 64) (d : DmaDesc) (u : DevTime), s.gated 15 = false ∧
      s.lost 15 = false ∧
      s.dutyUp 15 (c % 8) = true ∧
      (s.dma c).desc = some d ∧
      (s.dma c).first = some u ∧
      (s.dma c).phase = .buffer ∧
      tLt s.now (tAdd u (usTicks (s.get (DMA_FLUSH_FLUSH_US c)))) = false ∧
      bits d.ctl 1 1 = 1) ∧
    (∃ (s : State) (c : Fin 64), (s.dma c).first = none) ∧
    (∃ (s : State) (c : Fin 64) (d : DmaDesc) (e : HqEntry), s.gated 15 = false ∧
      s.lost 15 = false ∧
      (s.dma c).phase = .post ∧
      (s.dma c).entry = some e ∧
      (s.dma c).desc = some d ∧
      bits d.next 1 1 = 1 ∧
      (s.hq (s.get (DMA_CTL_CQ c))).entries.length < s.hqDepth (s.get (DMA_CTL_CQ c))) ∧
    (∃ (s : State) (q : Fin 32) (e : HqEntry), s.gated 15 = false ∧
      s.lost 15 = false ∧
      (s.hq q).result = some e ∧
      s.get (HQ_CTL_CQ q) ≠ q.val ∧
      (s.hq (s.get (HQ_CTL_CQ q))).entries.length < s.hqDepth (s.get (HQ_CTL_CQ q))) ∧
    (∃ (s : State) (c : Fin 64), (s.dma c).phase = .fetch ∧
      bits (s.dma c).at_ 0 0 = 0) ∧
    (∃ (s : State) (c : Fin 64), (s.dma c).phase = .idle) :=
  ⟨⟨runState, by decide +kernel⟩,
   ⟨setR runState HS_PCIE_STATUS 0x8B, by decide +kernel⟩,
   ⟨setR runState (DMA_CTL 4) 3, by decide +kernel⟩,
   ⟨setR runState (HQ_CTL 2) 0x11, (setR runState (HQ_CTL 2) 0x11).plainWrite (DMA_CTL 4) 0x200, 1, 4, 0x201, by decide +kernel⟩,
   ⟨runState, runState.plainWrite (DMA_CTL 4) 0x200, 1, 4, 0x201, by decide +kernel⟩,
   ⟨setR runState (DMA_CTL 4) 0x1, 1, 4, by decide +kernel⟩,
   ⟨setR (setR runState (DMA_CTL 4) 0x1) (DMA_DESC_ADDR_LO 4) 0x1000, 1, 4, 0x1000, by decide +kernel⟩,
   ⟨setR (setR runState (DMA_CTL 4) 0x1) (DMA_STATUS 4) 1, 1, 4, by decide +kernel⟩,
   ⟨setR (setR runState (DMA_CTL 4) 0x1) (DMA_STATUS 4) 0x1E00BB, 1, 4, by decide +kernel⟩,
   ⟨{ memState with hs := { dma := [(4, { phase := .fetch, path := 1, at_ := 0x1000 })] } }, 4, ⟨2, 0x8000, 0x100, 600, 2, 5⟩, leBytes 8 2 ++ leBytes 8 0x8000 ++ leBytes 8 0x100 ++ leBytes 4 600 ++ leBytes 4 2 ++ leBytes 4 5 ++ leBytes 28 0, by decide +kernel⟩,
   ⟨{ memState with hs := { dma := [(4, { phase := .fetch, path := 1, at_ := 0x1000 })] } }, 4, List.replicate 64 0, by decide +kernel⟩,
   ⟨{ memState with hs := { dma := [(4, { phase := .fetch, path := 1, at_ := 0x1000 })] } }, 4, by decide +kernel⟩,
   ⟨runState, 4, by decide +kernel⟩,
   ⟨{ memState with hs := { dma := [(4, { phase := .move, desc := some ⟨2, 0x8000, 0x100, 514, 2, 5⟩, off := 512 })] } }, 4, ⟨2, 0x8000, 0x100, 514, 2, 5⟩, [8, 9], by decide +kernel⟩,
   ⟨{ memState with hs := { dma := [(4, { phase := .move, desc := some ⟨2, 0x8000, 0x100, 514, 2, 5⟩, off := 512 })] } }, 4, ⟨2, 0x8000, 0x100, 514, 2, 5⟩, by decide +kernel⟩,
   ⟨runState, 4, by decide +kernel⟩,
   ⟨{ memState with hs := { dma := [(4, { phase := .confirm, desc := some ⟨2, 0x8000, 0x100, 514, 2, 5⟩, off := 514 })] } }, 4, ⟨2, 0x8000, 0x100, 514, 2, 5⟩, by decide +kernel⟩,
   ⟨{ setR memState (HQ_CTL 0) 0x11 with hs := { dma := [(4, { phase := .confirm, desc := some ⟨2, 0x8000, 0x100, 514, 0x22, 5⟩, off := 514 })] } }, 4, ⟨2, 0x8000, 0x100, 514, 0x22, 5⟩, by decide +kernel⟩,
   ⟨{ memState with hs := { dma := [(4, { phase := .confirm, desc := some ⟨2, 0x8000, 0x100, 514, 2, 5⟩, off := 514 })] } }, 4, ⟨2, 0x8000, 0x100, 514, 2, 5⟩, by decide +kernel⟩,
   ⟨{ setR memState (DMA_CTL 4) 3 with hs := { dma := [(4, { phase := .buffer, desc := some ⟨2, 0, 0x100, 4096, 0, 5⟩, off := 512 })] } }, 4, ⟨2, 0, 0x100, 4096, 0, 5⟩, testRec, by decide +kernel⟩,
   ⟨setR memState (DMA_CTL 4) 3, 4, by decide +kernel⟩,
   ⟨runState, 4, by decide +kernel⟩,
   ⟨{ setR memState (DMA_CTL 4) 3 with hs := { dma := [(4, { phase := .buffer, desc := some ⟨2, 0, 0x100, 4096, 2, 5⟩, off := 512, first := some (atSec 9) })] } }, 4, ⟨2, 0, 0x100, 4096, 2, 5⟩, atSec 9, by decide +kernel⟩,
   ⟨runState, 4, by decide +kernel⟩,
   ⟨{ setR memState (HQ_CTL 0) 0x11 with hs := { dma := [(4, { phase := .post, entry := some ⟨5, 6⟩, desc := some ⟨2, 0x8000, 0x100, 514, 0x22, 5⟩, off := 514 })] } }, 4, ⟨2, 0x8000, 0x100, 514, 0x22, 5⟩, ⟨5, 6⟩, by decide +kernel⟩,
   ⟨{ setR memState (HQ_CTL 0) 0x11 with hs := { queues := [(3, { result := some ⟨5, 6⟩ })] } }, 3, ⟨5, 6⟩, by decide +kernel⟩,
   ⟨{ memState with hs := { dma := [(4, { phase := .fetch, path := 1, at_ := 0x1000 })] } }, 4, by decide +kernel⟩,
   ⟨runState, 4, by decide +kernel⟩⟩

/-- States and operands that meet the hypotheses of QueuePortsServe, clause by clause. -/
theorem witness_QueuePortsServe :
    (∃ (s : State) (p : Fin 5) (q : Fin 32) (v : Word), s.mayWrite p (HQ_CTL q) = true ∧
      s.hqOn q = false ∧
      bits v.toNat 0 0 = 1 ∧
      (s.plainWrite (HQ_CTL q) (v.toNat / 2 * 2)).hqCheck q = 0) ∧
    (∃ (s : State) (p : Fin 5) (q : Fin 32) (v : Word), s.mayWrite p (HQ_CTL q) = true ∧
      s.hqOn q = false ∧
      bits v.toNat 0 0 = 1 ∧
      (s.plainWrite (HQ_CTL q) (v.toNat / 2 * 2)).hqCheck q ≠ 0) ∧
    (∃ (s : State) (q : Fin 32) (e : HqEntry), s.gated 15 = false ∧
      s.lost 15 = false ∧
      s.windowQ q false = (s, true) ∧
      s.hqKind q = 0 ∧
      s.hqOn q = true ∧
      (s.hq q).entries[(s.hq q).p]? = some e) ∧
    (∃ (s : State) (q : Fin 32), s.gated 15 = false ∧
      s.lost 15 = false ∧
      s.windowQ q false = (s, true) ∧
      s.hqKind q = 0 ∧
      s.hqOn q = true ∧
      (s.hq q).entries[(s.hq q).p]? = none) ∧
    (∃ (s : State) (q : Fin 32) (e : HqEntry), s.gated 15 = false ∧
      s.lost 15 = false ∧
      s.windowQ q false = (s, true) ∧
      s.hqKind q = 0 ∧
      s.hqOn q = true ∧
      (s.hq q).entries[(s.hq q).p]? = some e) ∧
    (∃ (s : State) (q : Fin 32) (e : HqEntry) (b : Bool), s.gated 15 = false ∧
      s.lost 15 = false ∧
      s.windowQ q false = (s, true) ∧
      s.hqKind q = 0 ∧
      s.hqOn q = true ∧
      (s.hq q).latch = some (e, b) ∧
      e.valid = true) ∧
    (∃ (s : State) (q : Fin 32) (e : HqEntry) (b : Bool), s.gated 15 = false ∧
      s.lost 15 = false ∧
      s.windowQ q false = (s, true) ∧
      s.hqKind q = 0 ∧
      s.hqOn q = true ∧
      (s.hq q).latch = some (e, b) ∧
      e.valid = false) ∧
    (∃ (s : State) (q : Fin 32), s.gated 15 = false ∧
      s.lost 15 = false ∧
      s.windowQ q true = (s, true) ∧
      s.hqKind q = 0 ∧
      s.hqOn q = true) ∧
    (∃ (s : State) (q : Fin 32), s.gated 15 = false ∧
      s.lost 15 = false ∧
      s.windowQ q true = (s, true) ∧
      s.hqKind q = 0 ∧
      s.hqOn q = true) ∧
    (∃ (s : State) (q : Fin 32), s.gated 15 = false ∧
      s.lost 15 = false ∧
      s.windowQ q true = (s, true) ∧
      s.hqKind q = 0 ∧
      s.hqOn q = true) ∧
    (∃ (s : State) (q : Fin 32), s.gated 15 = false ∧
      s.lost 15 = false ∧
      s.windowQ q true = (s, true) ∧
      s.hqKind q ≠ 0 ∧
      s.hqOn q = true) ∧
    (∃ (s : State) (q : Fin 32), s.gated 15 = false ∧
      s.lost 15 = false ∧
      s.windowQ q true = (s, true) ∧
      s.hqKind q = 0) ∧
    (∃ (s : State) (q : Fin 32) (w : BitVec 64), s.gated 15 = false ∧
      s.lost 15 = false ∧
      s.windowQ q true = (s, true) ∧
      s.hqKind q ≠ 0 ∧
      s.hqOn q = true ∧
      s.devState ≠ 7 ∧
      (s.hq q).lo = some w ∧
      (s.hq q).entries.length < s.hqDepth q) ∧
    (∃ (s : State) (q : Fin 32) (w : BitVec 64), s.gated 15 = false ∧
      s.lost 15 = false ∧
      s.windowQ q true = (s, true) ∧
      s.hqKind q ≠ 0 ∧
      s.hqOn q = true ∧
      s.devState ≠ 7 ∧
      (s.hq q).lo = some w ∧
      s.hqDepth q ≤ (s.hq q).entries.length) ∧
    (∃ (s : State) (q : Fin 32) (e : HqEntry) (l : List HqEntry), s.gated 15 = false ∧
      s.lost 15 = false ∧
      s.hqOn q = true ∧
      s.hqKind q = 1 ∧
      (s.hq q).entries = e :: l ∧
      (s.hq q).held = [] ∧
      e.valid = true ∧
      s.dmaIdle (e.hiByte 0 % 64) = true ∧
      bits e.lo.toNat 1 1 = 0) ∧
    (∃ (s : State) (q : Fin 32) (e : HqEntry) (l : List HqEntry), s.gated 15 = false ∧
      s.lost 15 = false ∧
      s.hqOn q = true ∧
      s.hqKind q = 1 ∧
      (s.hq q).entries = e :: l ∧
      (s.hq q).held = [] ∧
      e.valid = false) ∧
    (∃ (s : State) (q : Fin 32) (e : HqEntry) (l : List HqEntry), s.hqOn q = true ∧
      s.hqKind q = 1 ∧
      (s.hq q).entries = e :: l ∧
      e.valid = true ∧
      s.dmaIdle (e.hiByte 0 % 64) = false) ∧
    (∃ (s : State) (v : Fin 256), kvGet s.msix.pendingVec v = some ()) ∧
    (∃ (s : State) (v : Fin 256), kvGet s.msix.pendingVec v = none) :=
  ⟨⟨runState, 1, 3, 0x11, by decide +kernel⟩,
   ⟨runState, 1, 3, 0x3, by decide +kernel⟩,
   ⟨{ setR runState (HQ_CTL 3) 0x11 with hs := { queues := [(3, { entries := [⟨5, 0x80000000⟩] })] } }, 3, ⟨5, 0x80000000⟩, by decide +kernel⟩,
   ⟨setR runState (HQ_CTL 3) 0x11, 3, by decide +kernel⟩,
   ⟨{ setR runState (HQ_CTL 3) 0x11 with hs := { queues := [(3, { entries := [⟨5, 0x80000000⟩] })] } }, 3, ⟨5, 0x80000000⟩, by decide +kernel⟩,
   ⟨{ setR runState (HQ_CTL 3) 0x11 with hs := { queues := [(3, { entries := [⟨5, 0x80000000⟩], latch := some (⟨5, 0x80000000⟩, false) })] } }, 3, ⟨5, 0x80000000⟩, false, by decide +kernel⟩,
   ⟨{ setR runState (HQ_CTL 3) 0x11 with hs := { queues := [(3, { latch := some (⟨0, 0⟩, false) })] } }, 3, ⟨0, 0⟩, false, by decide +kernel⟩,
   ⟨{ setR runState (HQ_CTL 3) 0x11 with hs := { queues := [(3, { entries := [⟨5, 0x80000000⟩], p := 1 })] } }, 3, by decide +kernel⟩,
   ⟨{ setR runState (HQ_CTL 3) 0x11 with hs := { queues := [(3, { entries := [⟨5, 0x80000000⟩], p := 1 })] } }, 3, by decide +kernel⟩,
   ⟨{ setR runState (HQ_CTL 3) 0x11 with hs := { queues := [(3, { entries := [⟨5, 0x80000000⟩, ⟨6, 7⟩], p := 1 })] } }, 3, by decide +kernel⟩,
   ⟨setR (setR runState (HQ_CTL 3) 0x11) (HQ_STATUS 3) 0x40000000, 3, by decide +kernel⟩,
   ⟨setR runState (HQ_CTL 3) 0x11, 3, by decide +kernel⟩,
   ⟨{ setR (setR runState (HQ_CTL 3) 0x11) (HQ_STATUS 3) 0x40000000 with hs := { queues := [(3, { lo := some 9 })] } }, 3, 9, by decide +kernel⟩,
   ⟨{ setR (setR runState (HQ_CTL 3) 0x11) (HQ_STATUS 3) 0x40000000 with hs := { queues := [(3, { lo := some 9, entries := List.replicate 256 ⟨1, 2⟩ })] } }, 3, 9, by decide +kernel⟩,
   ⟨{ setR (setR (setR runState (HQ_CTL 3) 0x11) (HQ_STATUS 3) 0x40000000) (DMA_CTL 4) 1 with hs := { queues := [(3, { entries := [⟨0x1000, 0x80000004⟩, ⟨6, 7⟩] })] } }, 3, ⟨0x1000, 0x80000004⟩, [⟨6, 7⟩], by decide +kernel⟩,
   ⟨{ setR (setR runState (HQ_CTL 3) 0x11) (HQ_STATUS 3) 0x40000000 with hs := { queues := [(3, { entries := [⟨0x1000, 0x00000004⟩, ⟨6, 7⟩] })] } }, 3, ⟨0x1000, 0x00000004⟩, [⟨6, 7⟩], by decide +kernel⟩,
   ⟨{ setR (setR runState (HQ_CTL 3) 0x11) (HQ_STATUS 3) 0x40000000 with hs := { queues := [(3, { entries := [⟨0x1000, 0x80000004⟩, ⟨6, 7⟩] })] } }, 3, ⟨0x1000, 0x80000004⟩, [⟨6, 7⟩], by decide +kernel⟩,
   ⟨{ runState with msix := { pendingVec := [(9, ())] } }, 9, by decide +kernel⟩,
   ⟨runState, 9, by decide +kernel⟩⟩

/-- States and operands that meet the hypotheses of DisplayLinksTrain, clause by clause. -/
theorem witness_DisplayLinksTrain :
    (∃ (s : State) (p : Fin 5) (h : Fin 2) (v : Word), s.mayWrite p (DS_CTL h) = true ∧
      s.on (DS_CTL_ENABLE h) = false ∧
      bits v.toNat 0 0 = 1 ∧
      s.dutyDead (DS_CTL h) = false ∧
      (s.plainWrite (DS_CTL h) (v.toNat / 2 * 2)).dsCheck h = 0) ∧
    (∃ (s : State) (p : Fin 5) (h : Fin 2) (v : Word), s.mayWrite p (DS_CTL h) = true ∧
      s.on (DS_CTL_ENABLE h) = false ∧
      bits v.toNat 0 0 = 1 ∧
      s.dutyDead (DS_CTL h) = false ∧
      (s.plainWrite (DS_CTL h) (v.toNat / 2 * 2)).dsCheck h ≠ 0) ∧
    (∃ (s : State) (h : Fin 2), s.on (DS_CTL_ENABLE h) = true) ∧
    (∃ (s : State) (h : Fin 2), s.on (DS_CTL_ENABLE h) = false) ∧
    (∃ (s : State) (h : Fin 2), s.on (DS_STATUS_HPD h) = true ∧
      s.on (DS_CTL_ENABLE h) = true ∧
      s.on (DS_STATUS_TRAINED h) = true) ∧
    (∃ (s : State) (h : Fin 2), (s.dsHead h).training = true) ∧
    (∃ (s : State) (h : Fin 2), (s.dsHead h).training = true) ∧
    (∃ (s : State) (h : Fin 2), (s.dsHead h).training = false) ∧
    (∃ (s : State) (h : Fin 2) (u : DevTime), (s.dsHead h).retry = some u ∧
      tLe u s.now = true ∧
      s.on (DS_CTL_ENABLE h) = true ∧
      s.on (DS_STATUS_HPD h) = true) ∧
    (∃ (s : State) (h : Fin 2) (u : DevTime), (s.dsHead h).retry = some u ∧
      tLe u s.now = false) ∧
    (∃ (s : State) (p : Fin 5) (h : Fin 2), s.mayWrite p (DS_AUX_CMD h) = true ∧
      s.on (DS_AUX_STAT_BUSY h) = false) ∧
    (∃ (s : State) (p : Fin 5) (h : Fin 2), s.mayWrite p (DS_AUX_CMD h) = true ∧
      s.on (DS_AUX_STAT_BUSY h) = true) ∧
    (∃ (s : State) (h : Fin 2) (d : List Byte), s.auxRuns h = true ∧
      d ≠ []) ∧
    (∃ (s : State) (h : Fin 2), s.auxRuns h = false) ∧
    (∃ (s : State) (h : Fin 2), s.auxRuns h = true ∧
      tLe (tAdd (s.dsHead h).auxAt (usTicks 400)) s.now = true) ∧
    (∃ (s : State) (h : Fin 2), tLe (tAdd (s.dsHead h).auxAt (usTicks 400)) s.now = false) ∧
    (∃ (s : State) (p : Fin 5) (h : Fin 2), s.mayWrite p (DS_PAL_DATA h) = true) ∧
    (∃ (s : State) (p : Fin 5) (h : Fin 2), s.mayRead p (DS_PAL_DATA h) = true) :=
  ⟨⟨setR (setR (setR (setR (setR (setR runState (DS_HTIM 1) 0x8980780) (DS_VTIM 1) 0x4650438) (DS_HSYNC 1) 0x2C0058) (DS_VSYNC 1) 0x50004) (DS_PCLK 1) 148500) (DS_LINK 1) 0xB, 1, 1, 0x301, by decide +kernel⟩,
   ⟨setR runState (DS_PCLK 1) 1000, 1, 1, 1, by decide +kernel⟩,
   ⟨setR runState (DS_CTL 1) 1, 1, by decide +kernel⟩,
   ⟨runState, 1, by decide +kernel⟩,
   ⟨setR (setR runState (DS_CTL 1) 1) (DS_STATUS 1) 0xD, 1, by decide +kernel⟩,
   ⟨{ setR (setR runState (DS_CTL 1) 1) (DS_STATUS 1) 0x9 with ds := [(1, { training := true })] }, 1, by decide +kernel⟩,
   ⟨{ setR (setR runState (DS_CTL 1) 1) (DS_STATUS 1) 0x9 with ds := [(1, { training := true })] }, 1, by decide +kernel⟩,
   ⟨runState, 1, by decide +kernel⟩,
   ⟨{ setR (setR runState (DS_CTL 1) 1) (DS_STATUS 1) 0x9 with ds := [(1, { retry := some (atSec 99) })] }, 1, atSec 99, by decide +kernel⟩,
   ⟨{ setR (setR runState (DS_CTL 1) 1) (DS_STATUS 1) 0x9 with ds := [(1, { retry := some (atSec 109) })] }, 1, atSec 109, by decide +kernel⟩,
   ⟨runState, 1, 1, by decide +kernel⟩,
   ⟨setR runState (DS_AUX_STAT 1) 1, 1, 1, by decide +kernel⟩,
   ⟨setR runState (DS_AUX_STAT 1) 1, 1, [1, 2, 3, 4, 5], by decide +kernel⟩,
   ⟨runState, 1, by decide +kernel⟩,
   ⟨{ setR runState (DS_AUX_STAT 1) 1 with ds := [(1, { auxAt := atSec 99 })] }, 1, by decide +kernel⟩,
   ⟨{ setR runState (DS_AUX_STAT 1) 1 with ds := [(1, { auxAt := atSec 100 })] }, 1, by decide +kernel⟩,
   ⟨setR runState (DS_PAL_ADDR 1) 0x1FF, 1, 1, by decide +kernel⟩,
   ⟨setR runState (DS_PAL_ADDR 1) 0x1FF, 1, 1, by decide +kernel⟩⟩

/-- States and operands that meet the hypotheses of DisplayFramesCompose, clause by clause. -/
theorem witness_DisplayFramesCompose :
    (∃ (s : State) (h : Fin 2), s.on (DS_STATUS_RUNNING h) = true ∧
      s.dutyUp 15 (16 + h) = true) ∧
    (∃ (s : State) (h : Fin 2) (l : Fin 3) (bs : List Byte), s.on (DS_STATUS_RUNNING h) = true ∧
      s.dutyUp 15 (16 + h) = true ∧
      (s.dsHead h).inFrame = true ∧
      (s.dsLayer h l).seen = some bs ∧
      (s.dsLayer h l).cut = none) ∧
    (∃ (s : State) (h : Fin 2), s.on (DS_STATUS_RUNNING h) = false) ∧
    (∃ (s : State) (h : Fin 2) (l : Fin 4) (bs : List Byte), s.on (DS_STATUS_RUNNING h) = true ∧
      (s.dsHead h).inFrame = true ∧
      (s.dsLayer h l).seen = some bs ∧
      (s.dsLayer h l).cut = none) ∧
    (∃ (s : State) (h : Fin 2) (l : Fin 4), (s.dsLayer h l).seen = none) ∧
    (∃ (s : State) (h : Fin 2) (fs : List Frame), s.gated 15 = false ∧
      s.lost 15 = false ∧
      s.on (DS_STATUS_RUNNING h) = true ∧
      s.on (DS_L_CTL_ON h 0) = true ∧
      fs.all (fun f => decide (f.stream.toNat = s.get (DS_L_SRC_STREAM h 0))) = true ∧
      densWhole fs = true ∧
      fs.all (fun f => f.markers.isEmpty && decide (s.heldEpoch 15 f.stream = f.epoch)) = true ∧
      s.anyPoison = false ∧
      ((∀ c ∈ List.range 16, s.on (CM_CH_STATUS_IN_SR c) = false))) ∧
    (∃ (s : State) (h : Fin 2) (f : Frame), s.gated 15 = false ∧
      s.lost 15 = false ∧
      s.on (DS_STATUS_RUNNING h) = true ∧
      s.on (DS_L_CTL_ON h 0) = true ∧
      f.stream.toNat = s.get (DS_L_SRC_STREAM h 0) ∧
      f.markers = [] ∧
      s.heldEpoch 15 f.stream ≠ f.epoch) ∧
    (∃ (s : State) (h : Fin 2), s.on (DS_STATUS_RUNNING h) = false) ∧
    (∃ (s : State) (h : Fin 2) (g : GapRec), s.gated 15 = false ∧
      s.lost 15 = false ∧
      s.on (DS_STATUS_RUNNING h) = true ∧
      s.on (DS_L_CTL_ON h 1) = true ∧
      s.get (DS_L_SRC_STREAM h 1) = g.stream.toNat) ∧
    (∃ (s : State) (h : Fin 2) (f : Frame) (fs : List Frame), s.gated 15 = false ∧
      s.lost 15 = false ∧
      s.on (DS_STATUS_RUNNING h) = true ∧
      s.on (DS_L_CTL_ON h 1) = true ∧
      s.get (DS_L_SRC_STREAM h 1) = f.stream.toNat ∧
      (f :: fs).all (fun f => f.markers.isEmpty && decide (s.heldEpoch 15 f.stream = f.epoch)) = true) ∧
    (∃ (s : State) (h : Fin 2), s.on (DS_STATUS_RUNNING h) = false) :=
  ⟨⟨{ setR (setR runState (DS_STATUS 1) 1) (DS_L_CTL 1 3) 1 with ds := [(1, { palS := [(5, 7)] })] }, 1, by decide +kernel⟩,
   ⟨{ setR (setR (setR runState (DS_STATUS 1) 1) (DS_HTIM 1) 0x8980002) (DS_VTIM 1) 0x4650001 with ds := [(1, { inFrame := true, layers := [(2, { seen := some [1, 2] })] })] }, 1, 2, [1, 2], by decide +kernel⟩,
   ⟨runState, 1, by decide +kernel⟩,
   ⟨{ setR runState (DS_STATUS 1) 1 with ds := [(1, { inFrame := true, layers := [(2, { seen := some [1, 2] })] })] }, 1, 2, [1, 2], by decide +kernel⟩,
   ⟨runState, 1, 2, by decide +kernel⟩,
   ⟨setR (setR (setR runState (DS_STATUS 1) 1) (DS_L_CTL 1 0) 1) (DS_L_SRC 1 0) 0x4003, 1, (List.range 64).map fun k => ⟨0x4003, 0, 0, 0, 0, 0, 0, 0, 0, [], leBytes 4 0 ++ leBytes 2 (32 * k)⟩, by decide +kernel⟩,
   ⟨setR (setR (setR runState (DS_STATUS 1) 1) (DS_L_CTL 1 0) 1) (DS_L_SRC 1 0) 0x4003, 1, ⟨0x4003, 1, 0, 0, 0, 0, 0, 0, 0, [], []⟩, by decide +kernel⟩,
   ⟨runState, 1, by decide +kernel⟩,
   ⟨setR (setR (setR (setR runState (DS_STATUS 1) 1) (DS_L_CTL 1 1) 1) (DS_L_SRC 1 1) 0x3003) (DS_L_SIZE 1 1) 0x20002, 1, ⟨0x3003, 0, 5, 1, false⟩, by decide +kernel⟩,
   ⟨setR (setR (setR (setR runState (DS_STATUS 1) 1) (DS_L_CTL 1 1) 1) (DS_L_SRC 1 1) 0x3003) (DS_L_SIZE 1 1) 0x20002, 1, ⟨0x3003, 0, 0, 0, 0, 0, 0, 0, 0, [], leBytes 24 (2 ^ 56) ++ leBytes 8 0x40000000⟩, [], by decide +kernel⟩,
   ⟨runState, 1, by decide +kernel⟩⟩

/-- States and operands that meet the hypotheses of OnePathHoldsTheUpdateSession, clause by clause. -/
theorem witness_OnePathHoldsTheUpdateSession :
    (∃ (s : State) (p : Fin 5) (v : Word), s.mayWrite p BI_CTL = true ∧
      s.im.session = none ∧
      s.biMayOpen p = true ∧
      4096 ≤ s.val BI_SIZE ∧
      s.val BI_SIZE ≤ s.imageMax ∧
      bits v.toNat 3 1 = 0 ∧
      bits v.toNat 5 5 = 0) ∧
    (∃ (s : State) (p : Fin 5) (x : BiSession), s.mayWrite p BI_CTL = true ∧
      s.im.session = some x ∧
      x.holder = p.val) ∧
    (∃ (s : State) (p : Fin 5) (x : BiSession), s.mayWrite p BI_CTL = true ∧
      s.im.session = some x ∧
      x.holder ≠ p.val ∧
      x.holder < 5) ∧
    (∃ (s : State) (p : Fin 5) (q : Fin 5) (v : Word), s.mayWrite p BI_CTL = true ∧
      s.mayWrite q BI_CTL = true ∧
      s.im.session = none ∧
      s.biMayOpen p = true ∧
      p ≠ q ∧
      4096 ≤ s.val BI_SIZE ∧
      s.val BI_SIZE ≤ s.imageMax ∧
      bits v.toNat 3 1 = 0 ∧
      bits v.toNat 5 5 = 0) :=
  ⟨⟨{ setR runState BI_SIZE 8192 with im := { flashSize := 33554432 } }, 1, 0x11, by decide +kernel⟩,
   ⟨{ setR runState BI_SESSION 2 with im := { session := some ⟨1, 1, atSec 99, 0, []⟩ } }, 1, ⟨1, 1, atSec 99, 0, []⟩, by decide +kernel⟩,
   ⟨{ setR runState BI_SESSION 0x302 with im := { session := some ⟨3, 1, atSec 99, 0, []⟩ } }, 1, ⟨3, 1, atSec 99, 0, []⟩, by decide +kernel⟩,
   ⟨{ setR runState BI_SIZE 8192 with im := { flashSize := 33554432 } }, 1, 3, 1, by decide +kernel⟩⟩

/-- States and operands that meet the hypotheses of ImagesAreWrittenAndCommitted, clause by clause. -/
theorem witness_ImagesAreWrittenAndCommitted :
    (∃ (s : State) (p : Fin 5), s.mayWrite p BI_CTL = true ∧
      s.im.session = none ∧
      (s.biMayOpen p = false ∨ s.val BI_SIZE < 4096 ∨ s.imageMax < s.val BI_SIZE)) ∧
    (∃ (s : State) (x : BiSession), s.im.session = some x ∧
      s.get BI_SESSION_STATE = 1) ∧
    (∃ (s : State) (p : Fin 5) (x : BiSession), s.mayWrite p BI_DATA = true ∧
      s.im.session = some x ∧
      x.holder = p.val ∧
      s.get BI_SESSION_STATE = 2 ∧
      s.val BI_WRITTEN + 4 ≤ s.val BI_SIZE ∧
      x.held = [] ∧
      x.buffered + 4 ≤ 4096) ∧
    (∃ (s : State) (p : Fin 5) (x : BiSession), s.mayWrite p BI_DATA = true ∧
      s.im.session = some x ∧
      x.holder = p.val ∧
      s.get BI_SESSION_STATE = 2 ∧
      s.val BI_SIZE < s.val BI_WRITTEN + 4) ∧
    (∃ (s : State) (p : Fin 5) (x : BiSession), s.mayWrite p BI_DATA = true ∧
      s.im.session = some x ∧
      x.holder = p.val ∧
      s.get BI_SESSION_STATE = 2 ∧
      s.val BI_WRITTEN + 4 ≤ s.val BI_SIZE ∧
      x.held = [] ∧
      4096 < x.buffered + 4) ∧
    (∃ (s : State) (n : Fin 4097) (v : Word) (x : BiSession), s.im.session = some x ∧
      x.held = [v] ∧
      x.buffered - n.val + 4 ≤ 4096 ∧
      s.val BI_WRITTEN + 4 < 2 ^ 32) ∧
    (∃ (s : State) (x : BiSession), s.im.session = some x ∧
      x.held = []) ∧
    (∃ (s : State) (p : Fin 5) (x : BiSession) (r : Bool), s.mayWrite p BI_CTL = true ∧
      s.im.session = some x ∧
      x.holder = p.val ∧
      ((r = false ∨ s.domain p = 3)) ∧
      s.get BI_SESSION_STATE = 2 ∧
      s.val BI_WRITTEN = s.val BI_SIZE ∧
      x.held = []) ∧
    (∃ (s : State) (p : Fin 5) (x : BiSession), s.mayWrite p BI_CTL = true ∧
      s.im.session = some x ∧
      x.holder = p.val ∧
      s.domain p ≠ 3) ∧
    (∃ (s : State) (x : BiSession), s.im.session = some x ∧
      s.get BI_SESSION_STATE = 3 ∧
      crc32c (s.slotOf x.slot) = s.val BI_CRC ∧
      (s.slotOf x.slot).take 4 = [0x59, 0x4E, 0x42, 0x49]) ∧
    (∃ (s : State) (x : BiSession), s.im.session = some x ∧
      s.get BI_SESSION_STATE = 3 ∧
      crc32c (s.slotOf x.slot) ≠ s.val BI_CRC) ∧
    (∃ (s : State) (p : Fin 5) (x : BiSession), s.mayWrite p BI_CTL = true ∧
      s.im.session = some x ∧
      x.holder = p.val ∧
      bits (s.val BI_CTL) 3 0 = 0) ∧
    (∃ (s : State) (x : BiSession), s.im.session = some x ∧
      s.get BI_SESSION_STATE = 2 ∧
      x.held = [] ∧
      tLe (tAdd x.lastAccess (10 * 2 ^ 48)) s.now = true) ∧
    (∃ (s : State), s.get BI_SESSION_STATE = 1) ∧
    (∃ (s : State) (p : Fin 5), s.mayWrite p BI_CTL = true ∧
      s.im.session = none ∧
      4 ≤ s.devState ∧
      bits (s.val BI_CTL) 3 0 = 0 ∧
      bits (s.val BI_CTL) 5 5 = 0) ∧
    (∃ (s : State) (p : Fin 5), s.mayWrite p BI_CTL = true ∧
      (s.devState ≠ 2 ∨ s.im.session.isSome = true) ∧
      bits (s.val BI_CTL) 3 0 = 0) ∧
    (∃ (s : State) (p : Fin 5), s.mayWrite p BI_CTL = true ∧
      s.devState = 2 ∧
      s.im.session = none ∧
      bits (s.val BI_CTL) 3 0 = 0 ∧
      bits (s.val BI_CTL) 5 5 = 0 ∧
      s.im.flashSize ≠ 0 ∧
      s.devRec.armed = false ∧
      s.devRec.active < 2) ∧
    (∃ (s : State) (p : Fin 5), s.mayWrite p BI_CTL = true ∧
      s.devState = 2 ∧
      s.im.session = none ∧
      bits (s.val BI_CTL) 3 0 = 0 ∧
      bits (s.val BI_CTL) 5 5 = 0 ∧
      s.im.flashSize = 0) :=
  ⟨⟨runState, 1, by decide +kernel⟩,
   ⟨{ setR runState BI_SESSION 1 with im := { session := some ⟨0, 1, atSec 9, 0, []⟩, slotBytes := [(1, [7])] } }, ⟨0, 1, atSec 9, 0, []⟩, by decide +kernel⟩,
   ⟨{ setR (setR (setR runState BI_SESSION 2) BI_SIZE 8192) BI_WRITTEN 8188 with im := { session := some ⟨0, 1, atSec 99, 0, []⟩, slotBytes := [(1, [7])] } }, 0, ⟨0, 1, atSec 99, 0, []⟩, by decide +kernel⟩,
   ⟨{ setR (setR (setR runState BI_SESSION 2) BI_SIZE 8192) BI_WRITTEN 8192 with im := { session := some ⟨0, 1, atSec 99, 0, []⟩, slotBytes := [(1, [7])] } }, 0, ⟨0, 1, atSec 99, 0, []⟩, by decide +kernel⟩,
   ⟨{ setR (setR (setR runState BI_SESSION 2) BI_SIZE 8192) BI_WRITTEN 4096 with im := { session := some ⟨0, 1, atSec 99, 4096, []⟩, slotBytes := [(1, [7])] } }, 0, ⟨0, 1, atSec 99, 4096, []⟩, by decide +kernel⟩,
   ⟨{ setR (setR (setR runState BI_SESSION 2) BI_SIZE 8192) BI_WRITTEN 4096 with im := { session := some ⟨0, 1, atSec 99, 4096, [9]⟩, slotBytes := [(1, [7])] } }, 256, 9, ⟨0, 1, atSec 99, 4096, [9]⟩, by decide +kernel⟩,
   ⟨{ runState with im := { session := some ⟨0, 1, atSec 99, 4096, []⟩ } }, ⟨0, 1, atSec 99, 4096, []⟩, by decide +kernel⟩,
   ⟨{ setR (setR (setR runState BI_SESSION 2) BI_SIZE 8192) BI_WRITTEN 8192 with im := { session := some ⟨0, 1, atSec 99, 0, []⟩ } }, 0, ⟨0, 1, atSec 99, 0, []⟩, true, by decide +kernel⟩,
   ⟨{ setR (setR (setR runState BI_SESSION 0x202) BI_SIZE 8192) BI_WRITTEN 8192 with im := { session := some ⟨2, 1, atSec 99, 0, []⟩ } }, 2, ⟨2, 1, atSec 99, 0, []⟩, by decide +kernel⟩,
   ⟨{ setR (setR runState BI_SESSION 3) BI_CRC (crc32c [0x59, 0x4E, 0x42, 0x49, 7]) with im := { session := some ⟨0, 1, atSec 99, 0, []⟩, slotBytes := [(1, [0x59, 0x4E, 0x42, 0x49, 7])] } }, ⟨0, 1, atSec 99, 0, []⟩, by decide +kernel⟩,
   ⟨{ setR (setR runState BI_SESSION 3) BI_CRC 1 with im := { session := some ⟨0, 1, atSec 99, 0, []⟩, slotBytes := [(1, [0x59, 0x4E, 0x42, 0x49, 7])] } }, ⟨0, 1, atSec 99, 0, []⟩, by decide +kernel⟩,
   ⟨{ setR (setR runState BI_SESSION 2) BI_SIZE 8192 with im := { session := some ⟨0, 1, atSec 99, 0, []⟩ } }, 0, ⟨0, 1, atSec 99, 0, []⟩, by decide +kernel⟩,
   ⟨{ setR runState BI_SESSION 2 with im := { session := some ⟨0, 1, atSec 90, 0, []⟩ } }, ⟨0, 1, atSec 90, 0, []⟩, by decide +kernel⟩,
   ⟨{ setR runState BI_SESSION 1 with im := { session := some ⟨0, 1, atSec 90, 0, []⟩ } }, by decide +kernel⟩,
   ⟨runState, 0, by decide +kernel⟩,
   ⟨runState, 0, by decide +kernel⟩,
   ⟨{ devIn 2 with im := { flashSize := 33554432 } }, 1, by decide +kernel⟩,
   ⟨devIn 2, 1, by decide +kernel⟩⟩

/-- States and operands that meet the hypotheses of KeySlotsAreBlownAndRevoked, clause by clause. -/
theorem witness_KeySlotsAreBlownAndRevoked :
    (∃ (s : State) (p : Fin 5) (k : Fin 4), s.mayWrite p BI_FUSE = true ∧
      s.ft.fuseVpp = true ∧
      s.domain p = 3 ∧
      (kvGetD s.im.keys k {}).hash = none) ∧
    (∃ (s : State) (p : Fin 5) (k : Fin 4), s.mayWrite p BI_FUSE = true ∧
      s.ft.fuseVpp = true ∧
      s.domain p = 3 ∧
      (s.im.booted.map fun b => b.keySlot) ≠ some k.val) ∧
    (∃ (s : State) (p : Fin 5), s.mayWrite p BI_FUSE = true ∧
      s.ft.fuseVpp = false) ∧
    (∃ (s : State) (p : Fin 5), s.mayWrite p BI_FUSE = true ∧
      s.ft.fuseVpp = true ∧
      s.domain p ≠ 3) ∧
    (∃ (s : State) (p : Fin 5) (k : Fin 4), s.mayWrite p BI_FUSE = true ∧
      s.ft.fuseVpp = true ∧
      s.domain p = 3 ∧
      (kvGetD s.im.keys k {}).hash ≠ none) ∧
    (∃ (s : State) (p : Fin 5) (k : Fin 4), s.mayWrite p BI_FUSE = true ∧
      s.ft.fuseVpp = true ∧
      s.domain p = 3 ∧
      (s.im.booted.map fun b => b.keySlot) = some k.val) :=
  ⟨⟨{ setR runState (BI_KEYHASH 11) 0x12345678 with ft := { fuseVpp := true } }, 0, 3, by decide +kernel⟩,
   ⟨{ runState with ft := { fuseVpp := true }, im := { booted := some ⟨0, 0, 5, 5, false⟩ } }, 0, 3, by decide +kernel⟩,
   ⟨runState, 0, by decide +kernel⟩,
   ⟨{ runState with ft := { fuseVpp := true } }, 2, by decide +kernel⟩,
   ⟨{ runState with ft := { fuseVpp := true }, im := { keys := [(1, { hash := some 5 })] } }, 0, 1, by decide +kernel⟩,
   ⟨{ runState with ft := { fuseVpp := true }, im := { booted := some ⟨0, 2, 5, 5, false⟩ } }, 0, 2, by decide +kernel⟩⟩

/-- States and operands that meet the hypotheses of AccessesAreJudgedByThePageMap, clause by clause. -/
theorem witness_AccessesAreJudgedByThePageMap :
    (∃ (s : State) (p : Fin 5) (a : BitVec 24), s.answers p = true ∧
      a.toNat % 4 = 0 ∧
      absentRegion s.variant (winOf a.toNat) = false ∧
      noRegister a.toNat = false ∧
      isProt a.toNat = false ∧
      (s.domain p < bits (s.prot.active.page a.toNat) 3 2 ∨ s.domain p = 0)) ∧
    (∃ (s : State) (p : Fin 5) (a : BitVec 24), s.answers p = true ∧
      a.toNat % 4 = 0 ∧
      absentRegion s.variant (winOf a.toNat) = false ∧
      noRegister a.toNat = false ∧
      ((s.domain p < bits (s.prot.active.page a.toNat) 1 0 ∧ s.domain p ≠ 0) ∨
      (s.domain p = 0 ∧ a.toNat ≠ GLOBAL_IDENT ∧ a.toNat ≠ GLOBAL_WHOAMI))) ∧
    (∃ (s : State) (p : Fin 5) (a : BitVec 24) (o : BitVec 12), s.answers p = true ∧
      o.toNat % 4 = 0 ∧
      isProt o.toNat = true ∧
      a.toNat = o.toNat ∧
      noRegister a.toNat = false ∧
      s.domain p ≠ 3) ∧
    (∃ (s : State) (p : Fin 5), s.domain p = 3) ∧
    (∃ (s : State) (p : Fin 5) (a : BitVec 24), s.answers p = true ∧
      a.toNat % 4 = 0 ∧
      absentRegion s.variant (winOf a.toNat) = false ∧
      s.lost (winOf a.toNat) = true ∧
      noRegister a.toNat = false ∧
      bits (s.prot.active.page a.toNat) 3 2 ≤ s.domain p ∧
      s.domain p ≠ 0) ∧
    (∃ (s : State) (p : Fin 5) (a : BitVec 24), s.answers p = true ∧
      a.toNat % 4 = 0 ∧
      absentRegion s.variant (winOf a.toNat) = false ∧
      s.lost (winOf a.toNat) = true ∧
      offOf a.toNat ≠ 0 ∧
      offOf a.toNat ≠ 4 ∧
      noRegister a.toNat = false ∧
      bits (s.prot.active.page a.toNat) 1 0 ≤ s.domain p ∧
      s.domain p ≠ 0) ∧
    (∃ (s : State) (p : Fin 5) (k : Fin 16), k ≠ 0 ∧
      s.lost k = true ∧
      s.answers p = true ∧
      absentRegion s.variant k = false ∧
      bits (s.prot.active.page (REGION_STATE k)) 1 0 ≤ s.domain p ∧
      s.domain p ≠ 0) ∧
    (∃ (s : State) (p : Fin 5) (a : BitVec 24), s.answers p = true ∧
      absentRegion s.variant (winOf a.toNat) = true) ∧
    (∃ (s : State) (p : Fin 5) (a : BitVec 24), s.answers p = true ∧
      a.toNat % 4 = 0 ∧
      noRegister a.toNat = true) ∧
    (∃ (a : Nat), a < 2 ^ 24) :=
  ⟨⟨{ runState with prot := { active := { pathDomain := 0x3ED } } }, 0, BitVec.ofNat 24 (REGION_ALARM_MASK 2), by decide +kernel⟩,
   ⟨{ runState with prot := { active := { pages := [(0x200, 0xE)], pathDomain := 0x3ED } } }, 0, BitVec.ofNat 24 (REGION_ALARM_MASK 2), by decide +kernel⟩,
   ⟨{ runState with prot := { active := { pathDomain := 0x3EE } } }, 0, 0x420, 0x420, by decide +kernel⟩,
   ⟨runState, 1, by decide +kernel⟩,
   ⟨setR runState (REGION_STATE 7) 6, 1, BitVec.ofNat 24 (REGION_ALARM_MASK 7), by decide +kernel⟩,
   ⟨setR runState (REGION_STATE 7) 6, 1, BitVec.ofNat 24 (REGION_ALARM_MASK 7), by decide +kernel⟩,
   ⟨setR runState (REGION_STATE 7) 6, 1, 7, by decide +kernel⟩,
   ⟨{ runState with variant := .yn9608 }, 1, 0x804000, by decide +kernel⟩,
   ⟨{ runState with prot := { active := { pathDomain := 0x3EC } } }, 0, 0x204000, by decide +kernel⟩,
   ⟨5, by decide +kernel⟩⟩

/-- States and operands that meet the hypotheses of TheStageHasOneOwner, clause by clause. -/
theorem witness_TheStageHasOneOwner :
    (∃ (s : State) (p : Fin 5), s.mayWrite p 0x400 = true ∧
      (s.prot.owner = .none ∨ s.prot.owner = .path p)) ∧
    (∃ (s : State) (p : Fin 5), s.mayWrite p 0x400 = true ∧
      (s.prot.owner = .none ∨ s.prot.owner = .path p)) ∧
    (∃ (s : State) (p : Fin 5) (o : BitVec 12), s.mayWrite p o.toNat = true ∧
      (o.toNat = PROT_CM_DEFAULT ∨ o.toNat = PROT_VOL_DEFAULT ∨ o.toNat = PROT_PATH_DOMAIN ∨ o.toNat = PROT_PG_DATA) ∧
      s.stageHeld p = true) ∧
    (∃ (s : State) (p : Fin 5), s.mayWrite p PROT_COMMIT = true ∧
      s.stageHeld p = true) ∧
    (∃ (s : State) (p : Fin 5) (v : Word), s.mayWrite p PROT_COMMIT = true ∧
      s.stageHeld p = false ∧
      bits v.toNat 1 1 = 0 ∧
      s.prot.staged ≠ s.prot.active ∧
      s.prot.staged.commitCheck = 0) ∧
    (∃ (s : State) (p : Fin 5) (v : Word), s.mayWrite p PROT_COMMIT = true ∧
      s.stageHeld p = false ∧
      bits v.toNat 1 1 = 0 ∧
      s.prot.staged ≠ s.prot.active ∧
      s.prot.staged.commitCheck ≠ 0) ∧
    (∃ (s : State) (p : Fin 5) (v : Word), s.mayWrite p PROT_COMMIT = true ∧
      s.stageHeld p = false ∧
      bits v.toNat 1 1 = 1) ∧
    (∃ (s : State) (p : Fin 5) (v : Word), s.mayWrite p PROT_COMMIT = true ∧
      s.stageHeld p = false ∧
      bits v.toNat 1 1 = 0 ∧
      s.prot.staged = s.prot.active) ∧
    (∃ (m : ProtSet), bits m.pathDomain.toNat 1 0 ≠ 3 ∧
      bits m.pathDomain.toNat 3 2 ≠ 3 ∧
      bits m.pathDomain.toNat 5 4 ≠ 3) ∧
    (∃ (m : ProtSet), bits m.pathDomain.toNat 1 0 = 3 ∧
      (bits m.cmDefault.toNat 1 0 = 0 ∨ bits m.cmDefault.toNat 3 2 = 0)) ∧
    (∃ (s : State) (p : Fin 5), s.mayWrite p PROT_COMMIT = true ∧
      s.stageHeld p = false) ∧
    (∃ (s : State) (p : Nat), s.prot.owner = .path p ∧
      tLe (tAdd s.prot.lastAccess (10 * 2 ^ 48)) s.now = true) ∧
    (∃ (s : State) (p : Nat), s.prot.owner = .path p ∧
      tLe (tAdd s.prot.lastAccess (10 * 2 ^ 48)) s.now = false) ∧
    (∃ (s : State), (s.prot.owner = .record ∨ s.prot.owner = .none)) :=
  ⟨⟨runState, 1, by decide +kernel⟩,
   ⟨runState, 1, by decide +kernel⟩,
   ⟨{ runState with prot := { owner := .path 0 } }, 1, BitVec.ofNat 12 PROT_PG_DATA, by decide +kernel⟩,
   ⟨{ runState with prot := { owner := .record } }, 1, by decide +kernel⟩,
   ⟨{ runState with prot := { owner := .path 1, staged := { pathDomain := 0x31D } } }, 1, 0x9, by decide +kernel⟩,
   ⟨{ runState with prot := { owner := .path 1, staged := { cmDefault := 0xC } } }, 1, 0x9, by decide +kernel⟩,
   ⟨{ runState with prot := { owner := .path 1, staged := { pathDomain := 0x31D } } }, 1, 2, by decide +kernel⟩,
   ⟨{ runState with prot := { owner := .path 1 } }, 1, 0, by decide +kernel⟩,
   ⟨{ pathDomain := 0x305 }, by decide +kernel⟩,
   ⟨{ cmDefault := 0xC }, by decide +kernel⟩,
   ⟨{ runState with prot := { owner := .path 1, staged := { pathDomain := 0x31D } } }, 1, by decide +kernel⟩,
   ⟨{ runState with prot := { owner := .path 1, staged := { pathDomain := 0x31D }, lastAccess := atSec 90 } }, 1, by decide +kernel⟩,
   ⟨{ runState with prot := { owner := .path 1, lastAccess := atSec 91 } }, 1, by decide +kernel⟩,
   ⟨{ runState with prot := { owner := .record } }, by decide +kernel⟩⟩

/-- States and operands that meet the hypotheses of AlarmsAreCollapsedAndRaisedAgain, clause by clause. -/
theorem witness_AlarmsAreCollapsedAndRaisedAgain :
    (∃ (s : State) (r : Fin 16) (a : Fin 16) (h : AlarmHold) (u : DevTime), kvGetD s.alarm.holds (16 * r + a) {} = h ∧
      h.lastEmit = some u ∧
      h.count ≠ 0 ∧
      tLe (tAdd u (usTicks 1000)) s.now = true) ∧
    (∃ (s : State) (r : Fin 16) (a : Fin 16) (h : AlarmHold) (u : DevTime), kvGetD s.alarm.holds (16 * r + a) {} = h ∧
      h.lastEmit = some u ∧
      (h.count = 0 ∨ tLe (tAdd u (usTicks 1000)) s.now = false)) ∧
    (∃ (s : State) (p : Fin 5) (k : Fin 16), k ≠ 0 ∧
      s.mayWrite p (REGION_ALARM_STATUS k) = true ∧
      s.alarm.conds.all (fun c => decide (c.region ≠ k.val)) = true) ∧
    (∃ (s : State) (p : Fin 5) (k : Fin 16) (v : BitVec 16) (c : LevelCond), k ≠ 0 ∧
      s.mayWrite p (REGION_ALARM_STATUS k) = true ∧
      c ∈ s.alarm.conds ∧
      c.region = k.val ∧
      bits (s.get (REGION_ALARM_STATUS_ALARMS k)) c.kind.num c.kind.num = 1 ∧
      bits v.toNat c.kind.num c.kind.num = 1) :=
  ⟨⟨{ runState with alarm := { holds := [(16 * 6 + 2, { lastEmit := some (atSec 99), count := 3, time := atSec 99, reason := 0x0370, arg := 5 })] } }, 6, 2, { lastEmit := some (atSec 99), count := 3, time := atSec 99, reason := 0x0370, arg := 5 }, atSec 99, by decide +kernel⟩,
   ⟨{ runState with alarm := { holds := [(16 * 6 + 2, { lastEmit := some (atSec 100), count := 3 })] } }, 6, 2, { lastEmit := some (atSec 100), count := 3 }, atSec 100, by decide +kernel⟩,
   ⟨setR runState (REGION_ALARM_STATUS 6) 0x33, 1, 6, by decide +kernel⟩,
   ⟨{ setR runState (REGION_ALARM_STATUS 6) 0x33 with alarm := { conds := [⟨6, .memory, 3, 0x0370⟩] } }, 1, 6, 0x31, ⟨6, .memory, 3, 0x0370⟩, by decide +kernel⟩⟩

/-- States and operands that meet the hypotheses of CountersAreReadWhole, clause by clause. -/
theorem witness_CountersAreReadWhole :
    (∃ (s : State) (p : Fin 5) (n : Fin 32), s.mayRead p (ST_ET_EDGES_LO n) = true) ∧
    (∃ (s : State) (p : Fin 5) (n : Fin 32), s.mayRead p (ST_ET_EDGES_HI n) = true) ∧
    (∃ (s : State) (p : Fin 5) (q : Fin 5) (n : Fin 32), s.mayRead p (ST_ET_EDGES_LO n) = true ∧
      q ≠ p ∧
      s.mayRead q (ST_ET_EDGES_LO n) = true) :=
  ⟨⟨setR (setR runState (ST_ET_EDGES_LO 31) 7) (ST_ET_EDGES_HI 31) 9, 1, 31, by decide +kernel⟩,
   ⟨{ setR runState (ST_ET_EDGES_HI 31) 8 with slots := { pairs := [(0x1000000 + ST_ET_EDGES_LO 31, 9)] } }, 1, 31, by decide +kernel⟩,
   ⟨{ setR (setR runState (ST_ET_EDGES_LO 31) 7) (ST_ET_EDGES_HI 31) 9 with prot := { active := { pathDomain := 0x3FF } } }, 1, 3, 31, by decide +kernel⟩⟩

/-- States and operands that meet the hypotheses of ManagementPathsReachTheRegisters, clause by clause. -/
theorem witness_ManagementPathsReachTheRegisters :
    (∃ (s : State) (p : Fin 5), s.mayWrite p (BT_WIN_ADDR 5) = true) ∧
    (∃ (s : State) (p : Fin 5) (a : BitVec 24), s.mayWrite p a.toNat = true ∧
      findReg a.toNat = none ∧
      isMsix a.toNat = false) ∧
    (∃ (o : BitVec 12), isProt o.toNat = true) ∧
    (∃ (s : State) (p : Fin 5) (k : Fin 2) (i : Fin 68) (v : Word), s.mayWrite p (KL_LANE_LIMIT (13 + k) i) = true ∧
      (bits v.toNat 31 16 = 0 ∨ bits v.toNat 7 0 < 16 ∨ 240 < bits v.toNat 7 0)) ∧
    (∃ (s : State) (p : Fin 5) (k : Fin 2) (i : Fin 68) (v : Word), s.mayWrite p (KL_LANE_LIMIT (13 + k) i) = true ∧
      bits v.toNat 31 16 ≠ 0 ∧
      16 ≤ bits v.toNat 7 0 ∧
      bits v.toNat 7 0 ≤ 240) ∧
    (∃ (s : State) (p : Fin 5) (k : Fin 16), k ≠ 0 ∧
      s.mayRead p (FT_CORR k) = true) ∧
    (∃ (s : State) (p : Fin 5) (a : BitVec 24), s.mayRead p a.toNat = true ∧
      findReg a.toNat = none ∧
      (a.toNat < 0xF80000 ∨ 0xF81020 ≤ a.toNat)) ∧
    (∃ (s : State) (u : State) (c : Nat) (dp : Fin 64) (m : KhMreq), s.khIn = true ∧
      s.klUp dp = true ∧
      m.target.toNat = s.khAddr ∧
      m.write = true ∧
      s.answers 2 = true ∧
      s.mgmtWrite 2 m.offset.toNat m.data.toNat = (u, c)) ∧
    (∃ (s : State) (u : State) (w : Word) (c : Nat) (dp : Fin 64) (m : KhMreq), s.khIn = true ∧
      s.klUp dp = true ∧
      m.target.toNat = s.khAddr ∧
      m.write = false ∧
      s.answers 2 = true ∧
      s.mgmtRead 2 m.offset.toNat = (u, w, c)) ∧
    (∃ (s : State) (dp : Fin 64) (m : KhMreq) (q : Nat), s.khIn = true ∧
      s.klUp dp = true ∧
      m.target.toNat ≠ s.khAddr ∧
      s.routePort m.target.toNat = some q) ∧
    (∃ (a : BitVec 24), a.toNat % 4 = 0 ∧
      a.toNat + 8 ≤ 2 ^ 24) ∧
    (∃ (a : BitVec 24), a.toNat % 4 = 0) ∧
    (∃ (a : BitVec 24) (bs : List Byte), a.toNat % 4 = 0 ∧
      bs.length < 4) ∧
    (∃ (s : State) (q : Fin 32) (e : HqEntry), s.hqOn q = true ∧
      s.hqKind q = 2 ∧
      s.lost 15 = false ∧
      s.answers 0 = true ∧
      s.devState ≠ 7 ∧
      (s.hq q).result = none ∧
      (s.hq q).entries = [e] ∧
      (s.hq q).held = [] ∧
      e.valid = false ∧
      0 < s.hqDepth q ∧
      s.get (HQ_CTL_WM_M1 q) + 1 ≤ s.hqDepth q - 1) ∧
    (∃ (s : State) (q : Fin 32) (e : HqEntry) (a : Nat), s.hqOn q = true ∧
      s.hqKind q = 2 ∧
      s.lost 15 = false ∧
      s.answers 0 = true ∧
      s.devState ≠ 7 ∧
      (s.hq q).result = none ∧
      (s.hq q).entries = [e] ∧
      (s.hq q).held = [] ∧
      e.valid = true ∧
      e.hiByte 0 = 2 ∧
      bits e.hi.toNat 24 24 = 1 ∧
      a = ST_XO_AGE ∧
      bits e.lo.toNat 23 0 = a ∧
      s.mayRead 0 a = true ∧
      s.get (HQ_CTL_CQ q) ≠ q.val ∧
      s.get (HQ_CTL_CQ q) < 32 ∧
      (s.hq (s.get (HQ_CTL_CQ q))).entries.length < s.hqDepth (s.get (HQ_CTL_CQ q))) ∧
    (∃ (s : State) (q : Fin 32), s.hqOn q = false) ∧
    (∃ (s : State), s.answers 1 = true) ∧
    (∃ (s : State), s.answers 1 = true) ∧
    (∃ (s : State), s.answers 1 = true ∧
      s.mayRead 1 ST_XO_AGE = true ∧
      s.mport.i2c = BitVec.ofNat 24 ST_XO_AGE) ∧
    (∃ (s : State), s.power.debugFuse = true) ∧
    (∃ (s : State) (dr : BitVec 64), s.power.debugFuse = false ∧
      bits dr.toNat 24 24 = 0 ∧
      bits dr.toNat 23 0 = ST_XO_AGE ∧
      s.mayRead 3 ST_XO_AGE = true) ∧
    (∃ (s : State), s.answers 4 = true) ∧
    (∃ (s : State), s.answers 4 = true) ∧
    (∃ (s : State) (op : Byte), (s.answers 4 = false ∨ op.toNat = 0 ∨ 2 < op.toNat)) :=
  ⟨⟨runState, 1, by decide +kernel⟩,
   ⟨runState, 1, 0x601004, by decide +kernel⟩,
   ⟨0x404, by decide +kernel⟩,
   ⟨runState, 1, 1, 67, 0x4000F, by decide +kernel⟩,
   ⟨runState, 1, 1, 67, 0x10010, by decide +kernel⟩,
   ⟨setR runState (FT_CORR 9) 77, 1, 9, by decide +kernel⟩,
   ⟨runState, 1, 0x60B000, by decide +kernel⟩,
   ⟨{ hiveState with kh := { routes := [(9, ⟨3, 2, 20⟩)] } }, ((({ hiveState with kh := { routes := [(9, ⟨3, 2, 20⟩)] } } : State).mgmtWrite 2 0x60C034 5).1), 0, 3, { target := 7, requester := 9, tag := 1, write := true, offset := 0x60C034, data := 5 }, by decide +kernel⟩,
   ⟨{ hiveState with kh := { routes := [(9, ⟨3, 2, 20⟩)] } }, { hiveState with kh := { routes := [(9, ⟨3, 2, 20⟩)] } }, 0, 0, 3, { target := 7, requester := 9, tag := 1, write := false, offset := 0x60C034, data := 5 }, by decide +kernel⟩,
   ⟨{ hiveState with kh := { routes := [(9, ⟨3, 2, 20⟩)] } }, 3, { target := 9, requester := 8, tag := 1, write := false, offset := 0x60C034, data := 5 }, 3, by decide +kernel⟩,
   ⟨0x60C034, by decide +kernel⟩,
   ⟨0x60C034, by decide +kernel⟩,
   ⟨0x60C034, [1, 2], by decide +kernel⟩,
   ⟨{ setR (setR runState (HQ_CTL 4) 0x9) (HQ_STATUS 4) 0x80000001 with hs := { queues := [(4, { entries := [⟨5, 0⟩] })] } }, 4, ⟨5, 0⟩, by decide +kernel⟩,
   ⟨{ setR (setR (setR runState (HQ_CTL 4) 0xA9) (HQ_STATUS 4) 0x80000001) ST_XO_AGE 9 with hs := { queues := [(4, { entries := [⟨BitVec.ofNat 64 ST_XO_AGE, 0x581000002⟩] })] } }, 4, ⟨BitVec.ofNat 64 ST_XO_AGE, 0x581000002⟩, ST_XO_AGE, by decide +kernel⟩,
   ⟨runState, 4, by decide +kernel⟩,
   ⟨runState, by decide +kernel⟩,
   ⟨runState, by decide +kernel⟩,
   ⟨{ setR runState ST_XO_AGE 9 with mport := { i2c := BitVec.ofNat 24 ST_XO_AGE } }, by decide +kernel⟩,
   ⟨{ runState with power := { debugFuse := true }, mport := { jtag := 5 } }, by decide +kernel⟩,
   ⟨{ setR runState ST_XO_AGE 9 with prot := { active := { pathDomain := 0x3FF } } }, BitVec.ofNat 64 ST_XO_AGE, by decide +kernel⟩,
   ⟨devIn 2, by decide +kernel⟩,
   ⟨devIn 2, by decide +kernel⟩,
   ⟨runState, 1, by decide +kernel⟩⟩

/-- States and operands that meet the hypotheses of CalibrationRunsMeasureStoreAndRamp, clause by clause. -/
theorem witness_CalibrationRunsMeasureStoreAndRamp :
    (∃ (s : State) (p : Fin 5), s.mayWrite p CA_CTL = true ∧
      s.val CA_SCOPE % 2 ^ 18 ≠ 0 ∧
      1 ≤ s.get CA_RAMP_STEPS_STEPS ∧
      s.get CA_RAMP_STEPS_STEPS ≤ 4096 ∧
      s.running = true ∧
      s.on CA_STATUS_BUSY = false ∧
      s.caInputs.all (fun n => s.inputExists n && !(s.on (SYN_STATUS_RAMPING (2 + n / 4))) && !(s.sysCalRuns n)) = true) ∧
    (∃ (s : State) (p : Fin 5), s.mayWrite p CA_CTL = true ∧
      (s.val CA_SCOPE % 2 ^ 18 = 0 ∨ s.get CA_RAMP_STEPS_STEPS < 1 ∨ 4096 < s.get CA_RAMP_STEPS_STEPS)) ∧
    (∃ (s : State) (p : Fin 5), s.mayWrite p CA_CTL = true ∧
      s.val CA_SCOPE % 2 ^ 18 ≠ 0 ∧
      1 ≤ s.get CA_RAMP_STEPS_STEPS ∧
      s.get CA_RAMP_STEPS_STEPS ≤ 4096 ∧
      s.caInputs.any (fun n => !(s.inputExists n)) = true) ∧
    (∃ (s : State) (p : Fin 5), s.mayWrite p CA_CTL = true ∧
      s.val CA_SCOPE % 2 ^ 18 ≠ 0 ∧
      1 ≤ s.get CA_RAMP_STEPS_STEPS ∧
      s.get CA_RAMP_STEPS_STEPS ≤ 4096 ∧
      s.caInputs.all (fun n => s.inputExists n) = true ∧
      (s.running = false ∨ s.caInputs.any (fun n => s.on (SYN_STATUS_RAMPING (2 + n / 4))) = true)) ∧
    (∃ (s : State) (p : Fin 5), s.mayWrite p CA_CTL = true ∧
      s.val CA_SCOPE % 2 ^ 18 ≠ 0 ∧
      1 ≤ s.get CA_RAMP_STEPS_STEPS ∧
      s.get CA_RAMP_STEPS_STEPS ≤ 4096 ∧
      s.running = true ∧
      s.caInputs.all (fun n => s.inputExists n && !(s.on (SYN_STATUS_RAMPING (2 + n / 4)))) = true ∧
      (s.on CA_STATUS_BUSY = true ∨ s.caInputs.any (fun n => s.sysCalRuns n) = true)) ∧
    (∃ (s : State) (i : Fin 4) (x : InCal) (n : Nat) (l : List Nat), kvGetD s.ca.todo i [] = n :: l ∧
      n < 16 ∧
      inTolerance x = true ∧
      tLt s.now (tAdd (kvGetD s.ca.lossFrom n s.now) (s.caTicks n)) = false) ∧
    (∃ (s : State) (i : Fin 4) (x : InCal) (n : Nat) (l : List Nat), kvGetD s.ca.todo i [] = n :: l ∧
      n < 16 ∧
      inTolerance x = false ∧
      tLt s.now (tAdd (kvGetD s.ca.lossFrom n s.now) (s.caTicks n)) = false) ∧
    (∃ (s : State) (i : Fin 4), (kvGetD s.ca.todo i []).head?.all (fun n => tLt s.now (tAdd (kvGetD s.ca.lossFrom n s.now) (s.caTicks n))) = true) ∧
    (∃ (s : State) (ws : List Nat), s.on CA_STATUS_MEASURING = true ∧
      bits s.ca.scope 17 17 = 1 ∧
      ws.length = 64) ∧
    (∃ (s : State), (s.on CA_STATUS_MEASURING = false ∨ bits s.ca.scope 17 17 = 0)) ∧
    (∃ (s : State), s.on CA_STATUS_MEASURING = true ∧
      s.ca.todo = [] ∧
      (bits s.ca.scope 17 17 = 0 ∨ 32 ≤ s.ca.binRes.length)) ∧
    (∃ (s : State), (s.on CA_STATUS_MEASURING = false ∨ s.ca.todo ≠ [])) ∧
    (∃ (s : State) (n : Fin 16) (i : DevTime) (m : Marker) (rest : List (DevTime × Marker)) (r : CalRamp), (s.inp n).todo = (i, m) :: rest ∧
      m.type = .calRamp ∧
      (s.inp n).applyPending = false ∧
      kvGet s.ca.ramps n = some r ∧
      s.ca.rampNs ≠ 0) ∧
    (∃ (s : State) (n : Fin 16) (i : DevTime) (m : Marker) (rest : List (DevTime × Marker)), (s.inp n).todo = (i, m) :: rest ∧
      m.type = .calRamp ∧
      (s.inp n).applyPending = true) ∧
    (∃ (s : State) (n : Fin 16), (s.inp n).todo.head?.all (fun p => p.2.type != .calRamp) = true) ∧
    (∃ (s : State) (n : Fin 16) (r : CalRamp), kvGet s.ca.ramps n = some r ∧
      r.begun = true ∧
      tLe (tAdd r.start (s.caStepTicks (r.k + 1))) s.now = true ∧
      r.k + 1 < s.ca.steps) ∧
    (∃ (s : State) (n : Fin 16) (r : CalRamp), s.ca.ramps = [(n.val, r)] ∧
      r.begun = true ∧
      tLe (tAdd r.start (s.caStepTicks (r.k + 1))) s.now = true ∧
      s.ca.steps ≤ r.k + 1) ∧
    (∃ (s : State) (n : Fin 16) (r : CalRamp), kvGet s.ca.ramps n = some r ∧
      r.begun = false) :=
  ⟨⟨{ setR (setR runState CA_SCOPE 0x9) (AF_IN_CTL 3) 1 with af := [(3, { runs := true })] }, 1, by decide +kernel⟩,
   ⟨setR runState CA_SCOPE 0, 1, by decide +kernel⟩,
   ⟨{ setR runState CA_SCOPE 0x8000 with variant := .yn9608 }, 1, by decide +kernel⟩,
   ⟨setR (setR runState CA_SCOPE 0x8) (SYN_STATUS 2) 9, 1, by decide +kernel⟩,
   ⟨setR (setR runState CA_SCOPE 0x8) CA_STATUS 1, 1, by decide +kernel⟩,
   ⟨{ setR (setR (setR runState (AF_IN_CTL 5) 1) (AF_IN_STATUS 5) 1) CA_TOL 0x20 with ca := { todo := [(1, [5])], lossFrom := [(5, atSec 99)] }, af := [(5, { runs := true })] }, 1, {}, 5, [], by decide +kernel⟩,
   ⟨{ setR (setR runState (AF_IN_CTL 5) 1) (AF_IN_STATUS 5) 1 with ca := { todo := [(1, [5])], lossFrom := [(5, atSec 99)] } }, 1, { skew := 101 }, 5, [], by decide +kernel⟩,
   ⟨runState, 1, by decide +kernel⟩,
   ⟨{ setR runState CA_STATUS 0x5 with ca := { scope := 0x20000 } }, List.replicate 64 16384, by decide +kernel⟩,
   ⟨runState, by decide +kernel⟩,
   ⟨{ setR runState CA_STATUS 0x5 with ca := { scope := 8, results := [(3, {})], ends := [(3, atSec 99)], slots := [(0, { tags := [800, 800, 800] })] } }, by decide +kernel⟩,
   ⟨runState, by decide +kernel⟩,
   ⟨{ runState with ca := { ramps := [(3, {})] }, af := [(3, { todo := [(atSec 99, ⟨.calRamp, false, 3, 0, atSec 100, 0, 0⟩)] })] }, 3, atSec 99, ⟨.calRamp, false, 3, 0, atSec 100, 0, 0⟩, [], {}, by decide +kernel⟩,
   ⟨{ runState with af := [(3, { applyPending := true, todo := [(atSec 99, ⟨.calRamp, false, 3, 0, atSec 100, 0, 0⟩)] })] }, 3, atSec 99, ⟨.calRamp, false, 3, 0, atSec 100, 0, 0⟩, [], by decide +kernel⟩,
   ⟨runState, 3, by decide +kernel⟩,
   ⟨{ runState with ca := { ramps := [(3, { begun := true, start := atSec 98, k := 5 })], slots := [(0, { tags := [400, 400, 400], inputs := [(3, { offA := 64 })] })] } }, 3, { begun := true, start := atSec 98, k := 5 }, by decide +kernel⟩,
   ⟨{ setR runState CA_STATUS 9 with ca := { ramps := [(3, { begun := true, start := atSec 98, k := 63 })] } }, 3, { begun := true, start := atSec 98, k := 63 }, by decide +kernel⟩,
   ⟨{ runState with ca := { ramps := [(3, {})] } }, 3, {}, by decide +kernel⟩⟩

/-- States and operands that meet the hypotheses of FailedBlocksAreTakenOver, clause by clause. -/
theorem witness_FailedBlocksAreTakenOver :
    (∃ (s : State) (k : Fin 16) (b : Fin 256) (c : Fin 256) (d : Nat) (g : BlkKind), 2 ≤ k.val ∧
      2 ≤ s.devState ∧
      (¬(13 ≤ k.val ∧ k.val ≤ 14 ∧ b.val ≤ 67)) ∧
      (¬(k.val = 12 ∧ 16 ≤ b.val ∧ b.val ≤ 47)) ∧
      absentRegion s.variant k = false ∧
      s.lost k = false ∧
      kindOf k b = some g ∧
      s.blk k b = ⟨.serving, some d⟩ ∧
      d ≠ dcoOf k ∧
      (s.ftr k).takeover = none ∧
      (s.ftr k).waiting = [] ∧
      g.all.find? (fun j => (s.blk k j).state = .freeSpare) = some c.val) ∧
    (∃ (s : State) (k : Fin 16) (b : Fin 256) (g : BlkKind) (x : Takeover), 2 ≤ k.val ∧
      2 ≤ s.devState ∧
      (¬(13 ≤ k.val ∧ k.val ≤ 14 ∧ b.val ≤ 67)) ∧
      (¬(k.val = 12 ∧ 16 ≤ b.val ∧ b.val ≤ 47)) ∧
      absentRegion s.variant k = false ∧
      s.lost k = false ∧
      kindOf k b = some g ∧
      (s.blk k b).state = .serving ∧
      (s.ftr k).takeover = some x ∧
      (s.ftr k).waiting.contains b.val = false) ∧
    (∃ (s : State) (k : Fin 16) (b : Fin 256) (d : Nat) (g : BlkKind), 2 ≤ k.val ∧
      2 ≤ s.devState ∧
      (¬(13 ≤ k.val ∧ k.val ≤ 14 ∧ b.val ≤ 67)) ∧
      (¬(k.val = 12 ∧ 16 ≤ b.val ∧ b.val ≤ 47)) ∧
      absentRegion s.variant k = false ∧
      s.lost k = false ∧
      kindOf k b = some g ∧
      s.blk k b = ⟨.serving, some d⟩ ∧
      d ≠ dcoOf k ∧
      (s.ftr k).takeover = none ∧
      (s.ftr k).waiting = [] ∧
      (s.ftr k).patrol = none ∧
      g.all.find? (fun j => (s.blk k j).state = .freeSpare) = none) ∧
    (∃ (s : State) (b : Fin 256), (b.val = 0 ∨ b.val = 2) ∧
      4 ≤ s.devState ∧
      s.devState ≤ 6) ∧
    (∃ (s : State) (k : Fin 16), (k.val = 0 ∨ s.devState < 2)) ∧
    (∃ (s : State) (n : Fin 16) (k : Fin 16) (b : Fin 256) (c : Fin 256), k.val = 6 + n.val / 4 ∧
      2 ≤ s.devState ∧
      absentRegion s.variant k = false ∧
      s.lost k = false ∧
      s.server k (n % 4) = some b.val ∧
      b.val ≤ 4 ∧
      s.blk k b = ⟨.serving, some (n % 4)⟩ ∧
      (s.ftr k).takeover = none ∧
      (s.ftr k).waiting = [] ∧
      (List.range 5).find? (fun j => (s.blk k j).state = .freeSpare) = some c.val) ∧
    (∃ (s : State) (n : Fin 16), s.server (6 + n / 4) (n % 4) = none) ∧
    (∃ (s : State) (k : Fin 16) (x : Takeover), k ≠ 0 ∧
      (s.ftr k).takeover = some x ∧
      (s.ftr k).waiting = [] ∧
      x.spare < 256) ∧
    (∃ (s : State) (k : Fin 16), (s.ftr k).takeover = none) ∧
    (∃ (s : State) (k : Fin 16), 2 ≤ k.val ∧
      2 ≤ s.devState ∧
      s.lost k = false ∧
      absentRegion s.variant k = false) ∧
    (∃ (s : State) (k : Fin 16), (k.val = 0 ∨ s.devState < 2 ∨ (2 ≤ k.val ∧ s.lost k = true))) ∧
    (∃ (s : State) (k : Fin 16) (b : Fin 256) (ar : Fin 65536) (row : Word) (l : List DevTime), k ≠ 0 ∧
      2 ≤ s.devState ∧
      absentRegion s.variant k = false ∧
      s.lost k = false ∧
      l = (kvGetD (s.ftr k).rowCorr ((b * 65536 + ar) * 2 ^ 32 + row.toNat) []).filter
      (fun u => tLt s.now (tAdd u (usTicks 1000000))) ∧
      l.length < 15) ∧
    (∃ (s : State) (k : Fin 16) (b : Fin 256) (ar : Fin 65536) (row : Word) (l : List DevTime), k ≠ 0 ∧
      2 ≤ s.devState ∧
      absentRegion s.variant k = false ∧
      s.lost k = false ∧
      l = (kvGetD (s.ftr k).rowCorr ((b * 65536 + ar) * 2 ^ 32 + row.toNat) []).filter
      (fun u => tLt s.now (tAdd u (usTicks 1000000))) ∧
      15 ≤ l.length) :=
  ⟨⟨runState, 7, 1, 4, 1, ⟨0, 3, 4, 1, true⟩, by decide +kernel⟩,
   ⟨{ runState with ft := { regions := [(7, { takeover := some ⟨2, 4, 2, 0⟩ })] } }, 7, 1, ⟨0, 3, 4, 1, true⟩, ⟨2, 4, 2, 0⟩, by decide +kernel⟩,
   ⟨runState, 15, 17, 17, ⟨16, 17, 0, 0, false⟩, by decide +kernel⟩,
   ⟨runState, 2, by decide +kernel⟩,
   ⟨devIn 1, 3, by decide +kernel⟩,
   ⟨runState, 5, 7, 1, 4, by decide +kernel⟩,
   ⟨{ runState with ft := { regions := [(7, { blocks := [(1, ⟨.quarantined, none⟩)] })] } }, 5, by decide +kernel⟩,
   ⟨{ runState with ft := { regions := [(7, { blocks := [(1, ⟨.quarantined, none⟩), (4, ⟨.serving, some 1⟩)], takeover := some ⟨1, 4, 1, atSec 99⟩ })] } }, 7, ⟨1, 4, 1, atSec 99⟩, by decide +kernel⟩,
   ⟨runState, 7, by decide +kernel⟩,
   ⟨runState, 7, by decide +kernel⟩,
   ⟨devIn 1, 3, by decide +kernel⟩,
   ⟨runState, 7, 1, 3, 99, [], by decide +kernel⟩,
   ⟨{ runState with ft := { regions := [(7, { rowCorr := [((65536 + 3) * 2 ^ 32 + 99, List.replicate 15 (atSec 100))] })] } }, 7, 1, 3, 99, List.replicate 15 (atSec 100), by decide +kernel⟩⟩

/-- States and operands that meet the hypotheses of ReadmissionTestsFusesAndHeat, clause by clause. -/
theorem witness_ReadmissionTestsFusesAndHeat :
    (∃ (s : State) (p : Fin 5) (k : Fin 16) (v : Word) (b : Nat), k ≠ 0 ∧
      s.mayWrite p (REGION_BIST_CTL k) = true ∧
      bits v.toNat 0 0 = 1 ∧
      b = bits v.toNat 15 8 ∧
      s.domain p = 3 ∧
      (kindOf k b).isSome = true ∧
      (s.blk k b).state = .quarantined ∧
      (s.ftr k).readmit = none) ∧
    (∃ (s : State) (u : State) (p : Fin 5) (k : Fin 16) (v : Word), k ≠ 0 ∧
      s.mayWrite p (REGION_BIST_CTL k) = true ∧
      bits v.toNat 0 0 = 1 ∧
      u = (s.put (REGION_BIST_CTL_BLOCK k) (bits v.toNat 15 8)).put (REGION_BIST_CTL_PATROL_EN k) (bits v.toNat 2 2) ∧
      s.domain p ≠ 3) ∧
    (∃ (s : State) (u : State) (p : Fin 5) (k : Fin 16) (v : Word), k ≠ 0 ∧
      s.mayWrite p (REGION_BIST_CTL k) = true ∧
      bits v.toNat 0 0 = 1 ∧
      u = (s.put (REGION_BIST_CTL_BLOCK k) (bits v.toNat 15 8)).put (REGION_BIST_CTL_PATROL_EN k) (bits v.toNat 2 2) ∧
      s.domain p = 3 ∧
      kindOf k (bits v.toNat 15 8) = none) ∧
    (∃ (s : State) (u : State) (p : Fin 5) (k : Fin 16) (v : Word), k ≠ 0 ∧
      s.mayWrite p (REGION_BIST_CTL k) = true ∧
      bits v.toNat 0 0 = 1 ∧
      u = (s.put (REGION_BIST_CTL_BLOCK k) (bits v.toNat 15 8)).put (REGION_BIST_CTL_PATROL_EN k) (bits v.toNat 2 2) ∧
      s.domain p = 3 ∧
      (kindOf k (bits v.toNat 15 8)).isSome = true ∧
      (s.blk k (bits v.toNat 15 8)).state ≠ .quarantined) ∧
    (∃ (s : State) (u : State) (p : Fin 5) (k : Fin 16) (v : Word), k ≠ 0 ∧
      s.mayWrite p (REGION_BIST_CTL k) = true ∧
      bits v.toNat 0 0 = 1 ∧
      u = (s.put (REGION_BIST_CTL_BLOCK k) (bits v.toNat 15 8)).put (REGION_BIST_CTL_PATROL_EN k) (bits v.toNat 2 2) ∧
      s.domain p = 3 ∧
      (kindOf k (bits v.toNat 15 8)).isSome = true ∧
      (s.blk k (bits v.toNat 15 8)).state = .quarantined ∧
      (s.ftr k).readmit.isSome = true) ∧
    (∃ (s : State) (p : Fin 5) (k : Fin 16) (v : Word), k ≠ 0 ∧
      s.mayWrite p (FT_PATROL k) = true ∧
      bits v.toNat 31 16 < 60) ∧
    (∃ (s : State) (p : Fin 5), s.mayWrite p ST_FT_THERM_BUDGET = true) ∧
    (∃ (s : State) (p : Fin 5) (c : Nat), s.mayWrite p ST_FT_FUSE = true ∧
      c = (if s.ft.fuseVpp = false then 0x030E else if s.domain p ≠ 3 then 0x040E else if s.get ST_FT_FUSE_USE_FREE = 0 then 0x0228 else 0) ∧
      c ≠ 0) ∧
    (∃ (s : State) (p : Fin 5) (n : Nat), s.mayWrite p ST_FT_FUSE = true ∧
      s.ft.fuseVpp = true ∧
      s.domain p = 3 ∧
      s.get ST_FT_FUSE_USE_FREE ≠ 0 ∧
      n = (s.ft.repairs.filter (fun r => !r.fused)).length ∧
      n ≤ s.get ST_FT_FUSE_USE_FREE) ∧
    (∃ (s : State) (k : Fin 16) (b : Nat), k ≠ 0 ∧
      (s.ftr k).readmit = some b ∧
      kindOf k b ≠ none ∧
      absentRegion s.variant k = false) ∧
    (∃ (s : State) (k : Fin 16) (b : Nat), k ≠ 0 ∧
      (s.ftr k).readmit = some b) ∧
    (∃ (s : State) (k : Fin 16), (s.ftr k).readmit = none) ∧
    (∃ (s : State) (k : Fin 16) (b : Nat) (sp : Nat) (d : Nat) (m : Bool), k ≠ 0 ∧
      absentRegion s.variant k = false ∧
      s.lost k = false ∧
      s.running = true ∧
      s.on (REGION_BIST_CTL_PATROL_EN k) = true ∧
      (s.ftr k).patrol = none ∧
      (s.ftr k).takeover = none ∧
      tLt s.now (s.ftr k).patrolDue = false ∧
      s.patrolPick k = some b ∧
      s.blk k b = ⟨.serving, some d⟩ ∧
      s.spareFor k b = some sp ∧
      ((m = true ∨ k.val < 6 ∨ 9 < k.val ∨ b < 8 ∨ 12 < b))) ∧
    (∃ (s : State) (k : Fin 16), (tLt s.now (s.ftr k).patrolDue = true ∨ s.running = false ∨
    s.on (REGION_BIST_CTL_PATROL_EN k) = false)) ∧
    (∃ (s : State) (k : Fin 16) (b : Nat) (sp : Nat) (d : Nat), k ≠ 0 ∧
      absentRegion s.variant k = false ∧
      (s.ftr k).patrol = some ⟨b, some sp⟩ ∧
      b ≠ sp ∧
      s.blk k sp = ⟨.standingIn, some d⟩) ∧
    (∃ (s : State) (k : Fin 16) (b : Nat) (sp : Nat) (d : Nat), k ≠ 0 ∧
      absentRegion s.variant k = false ∧
      (s.ftr k).patrol = some ⟨b, some sp⟩ ∧
      b ≠ sp ∧
      s.blk k sp = ⟨.standingIn, some d⟩) ∧
    (∃ (s : State) (k : Fin 16), (s.ftr k).patrol = none) ∧
    (∃ (s : State) (a : BitVec 16) (b : BitVec 16) (c : BitVec 16), 2 ≤ s.devState ∧
      a.toInt ≤ 2400 ∧
      b.toInt ≤ 2400 ∧
      c.toInt ≤ 2400) ∧
    (∃ (s : State) (a : BitVec 16) (b : BitVec 16) (c : BitVec 16), 2 ≤ s.devState ∧
      2400 < max a.toInt (max b.toInt c.toInt) ∧
      (max a.toInt (max b.toInt c.toInt) ≤ 2560 ∨ s.ft.hot160 ≠ 9)) ∧
    (∃ (s : State) (a : BitVec 16) (b : BitVec 16) (c : BitVec 16), 4 ≤ s.devState ∧
      s.devState ≤ 6 ∧
      2560 < max a.toInt (max b.toInt c.toInt) ∧
      s.ft.hot160 = 9) ∧
    (∃ (s : State), 2 ≤ s.devState ∧
      s.ft.record.length < 10751) :=
  ⟨⟨{ runState with ft := { regions := [(7, { blocks := [(1, ⟨.quarantined, none⟩)] })] } }, 1, 7, 0x105, 1, by decide +kernel⟩,
   ⟨runState, (runState.put (REGION_BIST_CTL_BLOCK 7) 1).put (REGION_BIST_CTL_PATROL_EN 7) 1, 2, 7, 0x105, by decide +kernel⟩,
   ⟨runState, (runState.put (REGION_BIST_CTL_BLOCK 7) 5).put (REGION_BIST_CTL_PATROL_EN 7) 1, 1, 7, 0x505, by decide +kernel⟩,
   ⟨runState, (runState.put (REGION_BIST_CTL_BLOCK 7) 1).put (REGION_BIST_CTL_PATROL_EN 7) 1, 1, 7, 0x105, by decide +kernel⟩,
   ⟨{ runState with ft := { regions := [(7, { readmit := some 2, blocks := [(1, ⟨.quarantined, none⟩)] })] } }, ((({ runState with ft := { regions := [(7, { readmit := some 2, blocks := [(1, ⟨.quarantined, none⟩)] })] } } : State).put (REGION_BIST_CTL_BLOCK 7) 1).put (REGION_BIST_CTL_PATROL_EN 7) 1), 1, 7, 0x105, by decide +kernel⟩,
   ⟨runState, 1, 7, 0x3B0000, by decide +kernel⟩,
   ⟨runState, 1, by decide +kernel⟩,
   ⟨runState, 1, 0x030E, by decide +kernel⟩,
   ⟨{ runState with ft := { fuseVpp := true, repairs := [⟨7, 1, 3, false, 99, 0, false⟩, ⟨7, 1, 3, false, 98, 1, true⟩] } }, 1, 1, by decide +kernel⟩,
   ⟨{ runState with ft := { regions := [(7, { readmit := some 1, blocks := [(1, ⟨.quarantined, none⟩)] })] } }, 7, 1, by decide +kernel⟩,
   ⟨{ runState with ft := { regions := [(7, { readmit := some 1, blocks := [(1, ⟨.quarantined, none⟩)] })] } }, 7, 1, by decide +kernel⟩,
   ⟨runState, 7, by decide +kernel⟩,
   ⟨runState, 7, 0, 4, 0, false, by decide +kernel⟩,
   ⟨{ runState with ft := { regions := [(7, { patrolDue := atSec 101 })] } }, 7, by decide +kernel⟩,
   ⟨{ runState with ft := { regions := [(7, { blocks := [(1, ⟨.underPatrol, none⟩), (4, ⟨.standingIn, some 1⟩)], patrol := some ⟨1, some 4⟩ })] } }, 7, 1, 4, 1, by decide +kernel⟩,
   ⟨{ runState with ft := { regions := [(7, { blocks := [(1, ⟨.underPatrol, none⟩), (4, ⟨.standingIn, some 1⟩)], patrol := some ⟨1, some 4⟩ })] } }, 7, 1, 4, 1, by decide +kernel⟩,
   ⟨runState, 7, by decide +kernel⟩,
   ⟨runState, 2400, 0xFFF0, 5, by decide +kernel⟩,
   ⟨runState, 2401, 0xFFF0, 5, by decide +kernel⟩,
   ⟨{ runState with ft := { hot160 := 9 } }, 2401, 2561, 5, by decide +kernel⟩,
   ⟨runState, by decide +kernel⟩⟩

end Sys2Proof.Machine
end

section
/-! ### What a command keeps

`Keeps` and the frame of every command, in one lemma over the commands: the laws of the commands
(Laws/Keeps*.lean) gathered along `exec`. -/

namespace Sys2Proof.Machine

/-- A list of parts as the mask that `Fr` takes. -/
def partsMask (l : List Part) : Nat := l.foldl (fun m p => m ||| 2 ^ p.bit) 0

/-- A command keeps what `Keeps` says and changes no part outside those that `touches` lists. -/
theorem exec_frame : ∀ (c : Instr) {s t : State}, exec c s = .next t → Fr (partsMask (touches c)) s t
  | .powerGood, _, _, h => keeps_execPowerGood h
  | .supplyOutOfRange, _, _, h => keeps_execSupplyOutOfRange h
  | .powerFail, _, _, h => keeps_execPowerFail h
  | .fuseReadDone, _, _, h => keeps_execFuseReadDone h
  | .loaderSlotChoice .., _, _, h => keeps_execLoaderSlotChoice h
  | .startBistDone .., _, _, h => keeps_execStartBistDone h
  | .setupFirstPass, _, _, h => keeps_execSetupFirstPass h
  | .dramTrainingDone .., _, _, h => keeps_execDramTrainingDone h
  | .flashTrainingDone .., _, _, h => keeps_execFlashTrainingDone h
  | .fabricTrainingDone, _, _, h => keeps_execFabricTrainingDone h
  | .regionLoadDone .., _, _, h => keeps_execRegionLoadDone h
  | .setupSecondPass, _, _, h => keeps_execSetupSecondPass h
  | .stateReqRun .., _, _, h => keeps_execStateReqRun h
  | .stateReqWatch .., _, _, h => keeps_execStateReqWatch h
  | .stateReqSafe .., _, _, h => keeps_execStateReqSafe h
  | .stateReqReset .., _, _, h => keeps_execStateReqReset h
  | .chipLevelFault .., _, _, h => keeps_execChipLevelFault h
  | .registerWrite .., _, _, h => keeps_execRegisterWrite h
  | .rcRegisterRead .., _, _, h => keeps_execRcRegisterRead h
  | .counterSnapshotRead .., _, _, h => keeps_execCounterSnapshotRead h
  | .devtimeSnapshot .., _, _, h => keeps_execDevtimeSnapshot h
  | .markerInsert .., _, _, h => keeps_execMarkerInsert h
  | .markerEpoch .., _, _, h => keeps_execMarkerEpoch h
  | .markerTimeStep .., _, _, h => keeps_execMarkerTimeStep h
  | .markerSyncResetNotch .., _, _, h => keeps_execMarkerSyncResetNotch h
  | .markerSyncResetZoom .., _, _, h => keeps_execMarkerSyncResetZoom h
  | .markerSyncResetBroad .., _, _, h => keeps_execMarkerSyncResetBroad h
  | .markerCoefSwapNotch .., _, _, h => keeps_execMarkerCoefSwapNotch h
  | .markerCoefSwapZoom .., _, _, h => keeps_execMarkerCoefSwapZoom h
  | .markerGainSwitch .., _, _, h => keeps_execMarkerGainSwitch h
  | .markerCalRampInput .., _, _, h => keeps_execMarkerCalRampInput h
  | .markerCalRampBeam .., _, _, h => keeps_execMarkerCalRampBeam h
  | .exitFrameReceive .., _, _, h => keeps_execExitFrameReceive h
  | .outputBufferFull .., _, _, h => keeps_execOutputBufferFull h
  | .gapRecordEmit .., _, _, h => keeps_execGapRecordEmit h
  | .synLockDeclared .., _, _, h => keeps_execSynLockDeclared h
  | .synLockLost .., _, _, h => keeps_execSynLockLost h
  | .synEnable .., _, _, h => keeps_execSynEnable h
  | .synLockWrite .., _, _, h => keeps_execSynLockWrite h
  | .synRampGo .., _, _, h => keeps_execSynRampGo h
  | .synRampSegmentEnd .., _, _, h => keeps_execSynRampSegmentEnd h
  | .dcoCeilUpdate .., _, _, h => keeps_execDcoCeilUpdate h
  | .refCtlWrite .., _, _, h => keeps_execRefCtlWrite h
  | .refQualified .., _, _, h => keeps_execRefQualified h
  | .refLost .., _, _, h => keeps_execRefLost h
  | .coastSecond, _, _, h => keeps_execCoastSecond h
  | .coastExhausted, _, _, h => keeps_execCoastExhausted h
  | .exhaustedClear .., _, _, h => keeps_execExhaustedClear h
  | .slewEnd, _, _, h => keeps_execSlewEnd h
  | .timeStepExecute, _, _, h => keeps_execTimeStepExecute h
  | .xoCorrection .., _, _, h => keeps_execXoCorrection h
  | .xoAgeLearn .., _, _, h => keeps_execXoAgeLearn h
  | .xoAgeWrite .., _, _, h => keeps_execXoAgeWrite h
  | .timeSetArm .., _, _, h => keeps_execTimeSetArm h
  | .timeLoad, _, _, h => keeps_execTimeLoad h
  | .ppsEdge .., _, _, h => keeps_execPpsEdge h
  | .ppsTimeout, _, _, h => keeps_execPpsTimeout h
  | .ppsOutRise, _, _, h => keeps_execPpsOutRise h
  | .ppsOutFall, _, _, h => keeps_execPpsOutFall h
  | .syncOutWrite .., _, _, h => keeps_execSyncOutWrite h
  | .syncOutEdge .., _, _, h => keeps_execSyncOutEdge h
  | .etCtlWrite .., _, _, h => keeps_execEtCtlWrite h
  | .etEdge .., _, _, h => keeps_execEtEdge h
  | .etStuckTimeout .., _, _, h => keeps_execEtStuckTimeout h
  | .ivEnable .., _, _, h => keeps_execIvEnable h
  | .ivWindowExpire .., _, _, h => keeps_execIvWindowExpire h
  | .freqGateBoundary .., _, _, h => keeps_execFreqGateBoundary h
  | .etQw0Read .., _, _, h => keeps_execEtQw0Read h
  | .etQw3Read .., _, _, h => keeps_execEtQw3Read h
  | .etQueueSpaceReturn .., _, _, h => keeps_execEtQueueSpaceReturn h
  | .etFrameClose .., _, _, h => keeps_execEtFrameClose h
  | .etBlindEnd .., _, _, h => keeps_execEtBlindEnd h
  | .afInputEnable .., _, _, h => keeps_execAfInputEnable h
  | .afInputSettled .., _, _, h => keeps_execAfInputSettled h
  | .afInputDisable .., _, _, h => keeps_execAfInputDisable h
  | .afSourceChange .., _, _, h => keeps_execAfSourceChange h
  | .afSkewWrite .., _, _, h => keeps_execAfSkewWrite h
  | .afRawFrameClose .., _, _, h => keeps_execAfRawFrameClose h
  | .over6Trip .., _, _, h => keeps_execOver6Trip h
  | .notchSwapArm .., _, _, h => keeps_execNotchSwapArm h
  | .syscalGo .., _, _, h => keeps_execSyscalGo h
  | .syscalMeasDone .., _, _, h => keeps_execSyscalMeasDone h
  | .syscalApply .., _, _, h => keeps_execSyscalApply h
  | .syscalRampStep .., _, _, h => keeps_execSyscalRampStep h
  | .afToneCtlWrite .., _, _, h => keeps_execAfToneCtlWrite h
  | .zpEnable .., _, _, h => keeps_execZpEnable h
  | .zpDisable .., _, _, h => keeps_execZpDisable h
  | .zpSwapArm .., _, _, h => keeps_execZpSwapArm h
  | .zpSyncArm .., _, _, h => keeps_execZpSyncArm h
  | .zpFadeEnd .., _, _, h => keeps_execZpFadeEnd h
  | .zpInputGap .., _, _, h => keeps_execZpInputGap h
  | .zpFrameClose .., _, _, h => keeps_execZpFrameClose h
  | .ztuEnable .., _, _, h => keeps_execZtuEnable h
  | .ztuTransformDone .., _, _, h => keeps_execZtuTransformDone h
  | .btEnable .., _, _, h => keeps_execBtEnable h
  | .btDisable .., _, _, h => keeps_execBtDisable h
  | .btEqArm .., _, _, h => keeps_execBtEqArm h
  | .btSyncArm .., _, _, h => keeps_execBtSyncArm h
  | .btEqFadeEnd .., _, _, h => keeps_execBtEqFadeEnd h
  | .btInputGap .., _, _, h => keeps_execBtInputGap h
  | .btSpectrumDone .., _, _, h => keeps_execBtSpectrumDone h
  | .btEqDataAccess .., _, _, h => keeps_execBtEqDataAccess h
  | .btWinDataAccess .., _, _, h => keeps_execBtWinDataAccess h
  | .pipelineCheckFail .., _, _, h => keeps_execPipelineCheckFail h
  | .detectionSpectrum .., _, _, h => keeps_execDetectionSpectrum h
  | .dcIntFlush .., _, _, h => keeps_execDcIntFlush h
  | .dcIntEnable .., _, _, h => keeps_execDcIntEnable h
  | .dcSourceDisabled .., _, _, h => keeps_execDcSourceDisabled h
  | .dcSourceGap .., _, _, h => keeps_execDcSourceGap h
  | .dcPlEnable .., _, _, h => keeps_execDcPlEnable h
  | .dcPlClear .., _, _, h => keeps_execDcPlClear h
  | .densSnapshot .., _, _, h => keeps_execDensSnapshot h
  | .dcMaskDataAccess .., _, _, h => keeps_execDcMaskDataAccess h
  | .tgUnitEnable .., _, _, h => keeps_execTgUnitEnable h
  | .tgUnitDisable .., _, _, h => keeps_execTgUnitDisable h
  | .tgUnitArm .., _, _, h => keeps_execTgUnitArm h
  | .tgLevelCrossing .., _, _, h => keeps_execTgLevelCrossing h
  | .tgMaskEval .., _, _, h => keeps_execTgMaskEval h
  | .tgDensityOverEval .., _, _, h => keeps_execTgDensityOverEval h
  | .tgBandEval .., _, _, h => keeps_execTgBandEval h
  | .tgDriftStepEval .., _, _, h => keeps_execTgDriftStepEval h
  | .tgDriftClusterEnd .., _, _, h => keeps_execTgDriftClusterEnd h
  | .tgHoldoffEnd .., _, _, h => keeps_execTgHoldoffEnd h
  | .tgFabricReceive .., _, _, h => keeps_execTgFabricReceive h
  | .tgHostFire .., _, _, h => keeps_execTgHostFire h
  | .tgHostDue, _, _, h => keeps_execTgHostDue h
  | .tgSeqHoldRelease .., _, _, h => keeps_execTgSeqHoldRelease h
  | .tgSeqTimeout .., _, _, h => keeps_execTgSeqTimeout h
  | .tgSourceGap .., _, _, h => keeps_execTgSourceGap h
  | .tgQw0Read .., _, _, h => keeps_execTgQw0Read h
  | .tgQw7Read .., _, _, h => keeps_execTgQw7Read h
  | .tgQueueSpaceReturn .., _, _, h => keeps_execTgQueueSpaceReturn h
  | .tgFrameClose .., _, _, h => keeps_execTgFrameClose h
  | .quVrEnable .., _, _, h => keeps_execQuVrEnable h
  | .quRingWriteLoss .., _, _, h => keeps_execQuRingWriteLoss h
  | .quGroupEnable .., _, _, h => keeps_execQuGroupEnable h
  | .quGroupDisable .., _, _, h => keeps_execQuGroupDisable h
  | .quTriggerOffer .., _, _, h => keeps_execQuTriggerOffer h
  | .quCopyStart .., _, _, h => keeps_execQuCopyStart h
  | .quQuireClose .., _, _, h => keeps_execQuQuireClose h
  | .quRelease .., _, _, h => keeps_execQuRelease h
  | .quExportSlice .., _, _, h => keeps_execQuExportSlice h
  | .ceXsEnable .., _, _, h => keeps_execCeXsEnable h
  | .ceBmEnable .., _, _, h => keeps_execCeBmEnable h
  | .ceSpectrumArrive .., _, _, h => keeps_execCeSpectrumArrive h
  | .ceAlignTimeout, _, _, h => keeps_execCeAlignTimeout h
  | .ceDumpTimeout, _, _, h => keeps_execCeDumpTimeout h
  | .ceChildRecord .., _, _, h => keeps_execCeChildRecord h
  | .ceSlotDeadline .., _, _, h => keeps_execCeSlotDeadline h
  | .ceBmArm .., _, _, h => keeps_execCeBmArm h
  | .ceBmRampStep .., _, _, h => keeps_execCeBmRampStep h
  | .ceWtDataAccess .., _, _, h => keeps_execCeWtDataAccess h
  | .klPortEnable .., _, _, h => keeps_execKlPortEnable h
  | .klPortUp .., _, _, h => keeps_execKlPortUp h
  | .klPortDown .., _, _, h => keeps_execKlPortDown h
  | .klCodewordReceive .., _, _, h => keeps_execKlCodewordReceive h
  | .klRecordReceive .., _, _, h => keeps_execKlRecordReceive h
  | .klRecordAbort .., _, _, h => keeps_execKlRecordAbort h
  | .klAlignSend .., _, _, h => keeps_execKlAlignSend h
  | .klSbAlign .., _, _, h => keeps_execKlSbAlign h
  | .klSbSwap .., _, _, h => keeps_execKlSbSwap h
  | .klSbAck .., _, _, h => keeps_execKlSbAck h
  | .klSbNarrow _ _ _ count, _, _, h => keeps_execKlSbNarrow (_count := count) h
  | .klLaneFail .., _, _, h => keeps_execKlLaneFail h
  | .klSpareSwitch .., _, _, h => keeps_execKlSpareSwitch h
  | .klSpareEnable .., _, _, h => keeps_execKlSpareEnable h
  | .klFlowOn .., _, _, h => keeps_execKlFlowOn h
  | .klTimeSend .., _, _, h => keeps_execKlTimeSend h
  | .klSbTime .., _, _, h => keeps_execKlSbTime h
  | .klTtCal .., _, _, h => keeps_execKlTtCal h
  | .klTtCalDone .., _, _, h => keeps_execKlTtCalDone h
  | .klExArp .., _, _, h => keeps_execKlExArp h
  | .klExNeighborSolicit .., _, _, h => keeps_execKlExNeighborSolicit h
  | .klExRxDrop .., _, _, h => keeps_execKlExRxDrop h
  | .klExRecordSend .., _, _, h => keeps_execKlExRecordSend h
  | .khWaggleSend, _, _, h => keeps_execKhWaggleSend h
  | .khWaggleReceive .., _, _, h => keeps_execKhWaggleReceive h
  | .khNeighbourLost .., _, _, h => keeps_execKhNeighbourLost h
  | .khLsaSend, _, _, h => keeps_execKhLsaSend h
  | .khLsaReceive .., _, _, h => keeps_execKhLsaReceive h
  | .khSwarmsReceive .., _, _, h => keeps_execKhSwarmsReceive h
  | .khRootTimeout, _, _, h => keeps_execKhRootTimeout h
  | .khRootTakeover, _, _, h => keeps_execKhRootTakeover h
  | .khRouteInstall, _, _, h => keeps_execKhRouteInstall h
  | .khAddrReq .., _, _, h => keeps_execKhAddrReq h
  | .khAddrGrant .., _, _, h => keeps_execKhAddrGrant h
  | .khScOn .., _, _, h => keeps_execKhScOn h
  | .khAnnounce .., _, _, h => keeps_execKhAnnounce h
  | .khAnswer .., _, _, h => keeps_execKhAnswer h
  | .khCreditSend .., _, _, h => keeps_execKhCreditSend h
  | .khCreditReceive .., _, _, h => keeps_execKhCreditReceive h
  | .khRecordStart .., _, _, h => keeps_execKhRecordStart h
  | .khRecordDeliver .., _, _, h => keeps_execKhRecordDeliver h
  | .khMgGo .., _, _, h => keeps_execKhMgGo h
  | .khMreq .., _, _, h => keeps_execKhMreq h
  | .khMrsp .., _, _, h => keeps_execKhMrsp h
  | .khMgTimeout, _, _, h => keeps_execKhMgTimeout h
  | .khNodeQuery .., _, _, h => keeps_execKhNodeQuery h
  | .cmRequest .., _, _, h => keeps_execCmRequest h
  | .cmRefreshDue .., _, _, h => keeps_execCmRefreshDue h
  | .cmMr4Poll .., _, _, h => keeps_execCmMr4Poll h
  | .cmRowIdleClose .., _, _, h => keeps_execCmRowIdleClose h
  | .cmSrEntry .., _, _, h => keeps_execCmSrEntry h
  | .cmPatrolRead .., _, _, h => keeps_execCmPatrolRead h
  | .cmWckOscCheck _ rank _ _, _, _, h => keeps_execCmWckOscCheck (_rank := rank) h
  | .cmInitDone, _, _, h => keeps_execCmInitDone h
  | .bdVsOpen .., _, _, h => keeps_execBdVsOpen h
  | .bdVsClose .., _, _, h => keeps_execBdVsClose h
  | .bdRecordReceive .., _, _, h => keeps_execBdRecordReceive h
  | .bdProgramDone .., _, _, h => keeps_execBdProgramDone h
  | .bdOperationFail .., _, _, h => keeps_execBdOperationFail h
  | .bdLunTimeout .., _, _, h => keeps_execBdLunTimeout h
  | .bdSectionFull .., _, _, h => keeps_execBdSectionFull h
  | .bdEraseDone .., _, _, h => keeps_execBdEraseDone h
  | .bdCheckpoint, _, _, h => keeps_execBdCheckpoint h
  | .bdCatDel .., _, _, h => keeps_execBdCatDel h
  | .bdPatrolRead .., _, _, h => keeps_execBdPatrolRead h
  | .bdAgeTick, _, _, h => keeps_execBdAgeTick h
  | .bdFlashTempWrite .., _, _, h => keeps_execBdFlashTempWrite h
  | .bdFlashTempTimeout, _, _, h => keeps_execBdFlashTempTimeout h
  | .bdRelocateDone .., _, _, h => keeps_execBdRelocateDone h
  | .bdRebuildDone .., _, _, h => keeps_execBdRebuildDone h
  | .bdSpineSnapshot .., _, _, h => keeps_execBdSpineSnapshot h
  | .bdRecovery .., _, _, h => keeps_execBdRecovery h
  | .bdFormat .., _, _, h => keeps_execBdFormat h
  | .bdQuiesce .., _, _, h => keeps_execBdQuiesce h
  | .bdRsGo .., _, _, h => keeps_execBdRsGo h
  | .bdRsStop .., _, _, h => keeps_execBdRsStop h
  | .bdLeafRead .., _, _, h => keeps_execBdLeafRead h
  | .pcieLinkUp .., _, _, h => keeps_execPcieLinkUp h
  | .pePerst, _, _, h => keeps_execPePerst h
  | .pcieFunctionReset, _, _, h => keeps_execPcieFunctionReset h
  | .windowMRequest .., _, _, h => keeps_execWindowMRequest h
  | .windowDRead .., _, _, h => keeps_execWindowDRead h
  | .windowDWrite .., _, _, h => keeps_execWindowDWrite h
  | .dmaEnable .., _, _, h => keeps_execDmaEnable h
  | .dmaDisable .., _, _, h => keeps_execDmaDisable h
  | .dmaGo .., _, _, h => keeps_execDmaGo h
  | .dmaAbort .., _, _, h => keeps_execDmaAbort h
  | .dmaDescriptorFetched .., _, _, h => keeps_execDmaDescriptorFetched h
  | .dmaRequestCompletion .., _, _, h => keeps_execDmaRequestCompletion h
  | .dmaDescriptorConfirmed .., _, _, h => keeps_execDmaDescriptorConfirmed h
  | .dmaSinkRecord .., _, _, h => keeps_execDmaSinkRecord h
  | .dmaSinkFlush .., _, _, h => keeps_execDmaSinkFlush h
  | .dmaCompletionRoom .., _, _, h => keeps_execDmaCompletionRoom h
  | .hqEnable .., _, _, h => keeps_execHqEnable h
  | .hqLoRead .., _, _, h => keeps_execHqLoRead h
  | .hqHiRead .., _, _, h => keeps_execHqHiRead h
  | .hqCmdMark .., _, _, h => keeps_execHqCmdMark h
  | .hqCmdRewind .., _, _, h => keeps_execHqCmdRewind h
  | .hqCmdRelease .., _, _, h => keeps_execHqCmdRelease h
  | .hqLoWrite .., _, _, h => keeps_execHqLoWrite h
  | .hqHiWrite .., _, _, h => keeps_execHqHiWrite h
  | .hqDescStart .., _, _, h => keeps_execHqDescStart h
  | .hqMgmtExecute .., _, _, h => keeps_execHqMgmtExecute h
  | .msixUnmask .., _, _, h => keeps_execMsixUnmask h
  | .dsHeadEnable .., _, _, h => keeps_execDsHeadEnable h
  | .dsHpdRise .., _, _, h => keeps_execDsHpdRise h
  | .dsHpdFall .., _, _, h => keeps_execDsHpdFall h
  | .dsIrqHpd .., _, _, h => keeps_execDsIrqHpd h
  | .dsTrainRetry .., _, _, h => keeps_execDsTrainRetry h
  | .dsAuxGo .., _, _, h => keeps_execDsAuxGo h
  | .dsAuxReply .., _, _, h => keeps_execDsAuxReply h
  | .dsAuxTimeout .., _, _, h => keeps_execDsAuxTimeout h
  | .dsFrameStart .., _, _, h => keeps_execDsFrameStart h
  | .dsUnderrun .., _, _, h => keeps_execDsUnderrun h
  | .dsDensSnapshot .., _, _, h => keeps_execDsDensSnapshot h
  | .dsSpecIntegration .., _, _, h => keeps_execDsSpecIntegration h
  | .dsPalDataAccess .., _, _, h => keeps_execDsPalDataAccess h
  | .biOpen .., _, _, h => keeps_execBiOpen h
  | .biEraseDone, _, _, h => keeps_execBiEraseDone h
  | .biDataWrite .., _, _, h => keeps_execBiDataWrite h
  | .biCommit .., _, _, h => keeps_execBiCommit h
  | .biCheckDone, _, _, h => keeps_execBiCheckDone h
  | .biClose .., _, _, h => keeps_execBiClose h
  | .biSessionExpire, _, _, h => keeps_execBiSessionExpire h
  | .biBoot .., _, _, h => keeps_execBiBoot h
  | .biHoldNext .., _, _, h => keeps_execBiHoldNext h
  | .biFuseBlow .., _, _, h => keeps_execBiFuseBlow h
  | .biFuseRevoke .., _, _, h => keeps_execBiFuseRevoke h
  | .i2cTransaction .., _, _, h => keeps_execI2cTransaction h
  | .jtagMgmtAccess .., _, _, h => keeps_execJtagMgmtAccess h
  | .uartRequest .., _, _, h => keeps_execUartRequest h
  | .protStageWrite .., _, _, h => keeps_execProtStageWrite h
  | .protCommit .., _, _, h => keeps_execProtCommit h
  | .protDiscard .., _, _, h => keeps_execProtDiscard h
  | .protStageExpire, _, _, h => keeps_execProtStageExpire h
  | .alarmHoldExpire .., _, _, h => keeps_execAlarmHoldExpire h
  | .alarmClear .., _, _, h => keeps_execAlarmClear h
  | .caGo .., _, _, h => keeps_execCaGo h
  | .caInputMeasDone .., _, _, h => keeps_execCaInputMeasDone h
  | .caInterpolatorExchange .., _, _, h => keeps_execCaInterpolatorExchange h
  | .caRunStore .., _, _, h => keeps_execCaRunStore h
  | .caRampStep .., _, _, h => keeps_execCaRampStep h
  | .caTempEval .., _, _, h => keeps_execCaTempEval h
  | .sramCorrection .., _, _, h => keeps_execSramCorrection h
  | .blockCheckFail .., _, _, h => keeps_execBlockCheckFail h
  | .blockTakeoverDone .., _, _, h => keeps_execBlockTakeoverDone h
  | .regionPollMiss .., _, _, h => keeps_execRegionPollMiss h
  | .patrolTestStart .., _, _, h => keeps_execPatrolTestStart h
  | .patrolTestDone .., _, _, h => keeps_execPatrolTestDone h
  | .ftReadmit .., _, _, h => keeps_execFtReadmit h
  | .ftReadmitDone .., _, _, h => keeps_execFtReadmitDone h
  | .ftFuseBlow .., _, _, h => keeps_execFtFuseBlow h
  | .ftTempRead .., _, _, h => keeps_execFtTempRead h
  | .ftThermalAccount, _, _, h => keeps_execFtThermalAccount h
  | .dmaCompletionTimeout .., _, _, h => keeps_execDmaCompletionTimeout h
  | .dsLinkTrainingDone .., _, _, h => keeps_execDsLinkTrainingDone h
  | .biPageProgramDone .., _, _, h => keeps_execBiPageProgramDone h
  | .freqGateEmptyEnd .., _, _, h => keeps_execFreqGateEmptyEnd h

end Sys2Proof.Machine

open Sys2Proof Sys2Proof.Machine

/-- Settles O4, from the frame of every command. -/
theorem commandsKeepQueueAndOutput : Obligations.CommandsKeepQueueAndOutput := by
  intro c s t h
  obtain ⟨hvariant, hpending, hout, hfresh, -, -⟩ := (exec_frame c h).keeps
  exact ⟨hvariant, hpending, hout, hfresh⟩

end

section
/-! ### The I2C port's offset through a RESET

R525 has a write transaction set the port's offset, and the model's `State.cold` has RESET put every piece of state that
does not outlive it, the port's offset with it, back to its value at reset. The two meet in a write transaction that
requests RESET (R40). -/

namespace Sys2Proof.Machine

/-- The word that requests RESET, written to GLOBAL_STATE_REQ over I2C in LOADER: the offset it set is gone. -/
theorem i2c_requestReset_offset :
    (State.reset.i2c false (leBytes 3 GLOBAL_STATE_REQ ++ leBytes 4 1)).mport.i2c = 0 := by decide +kernel

end Sys2Proof.Machine

open Sys2Proof Sys2Proof.Machine

/-- Refutes O57: its clause on an I2C write of 7 bytes says that the port's offset is then the address written, whatever the
register. From the state after reset (LOADER, where I2C answers as CUSTODIAN), a write of 1, RESET, to GLOBAL_STATE_REQ takes
the device to RESET, and the offset is 0. -/
theorem not_managementPathsReachTheRegisters : ¬ Obligations.ManagementPathsReachTheRegisters := by
  unfold Obligations.ManagementPathsReachTheRegisters
  intro h
  obtain ⟨-, -, -, -, -, -, -, -, -, -, -, -, -, -, -, -, -, hI2cWrite, -⟩ := h
  obtain ⟨t, hexec, hoffset, -⟩ := hI2cWrite State.reset (BitVec.ofNat 24 GLOBAL_STATE_REQ) 1 (by decide)
  have hrun : State.reset.i2c false (leBytes 3 GLOBAL_STATE_REQ ++ leBytes 4 1) = t := Host.Outcome.next.inj hexec
  have hzero : t.mport.i2c = 0 := hrun ▸ i2c_requestReset_offset
  exact absurd (hoffset.symm.trans hzero) (by decide)

end

section
/-! ### A broad transform's enable and capture memory

After every write that can enable or disable a source, `State.sourcesOff` lets each unit whose source is off take what still waits
of it (R267). A write of ZP_ZTU_SLOT_s can clear ON without such a pass, so the enable of an unrelated transform may be the write
that finds the drift unit of a zoom slot with spectra waiting. The drift unit puts a spectrum in its sweep buffer, which wakes the
channels of capture memory that hold it (R408), and a channel that leaves self-refresh reads zeros in its masked segments (R410). -/

namespace Sys2Proof.Machine

/-- The spectrum that waits at the drift unit: number 0 of zoom slot 0 of SP0. -/
def waitingSpectrum : DetSpec where
  stream := 0x1000
  j := 0
  time := atSec 99
  p := []
  ovr := false
  cal := false
  bad := false
  grid := 0
  lo := atSec 99
  hi := atSec 99

/-- Registers of a device in RUN: input 3 is enabled; the drift unit of SP0 is enabled on zoom slot 0, which is not in use; channel
0 of a capture memory of 4,096 MiB is in self-refresh. -/
def sleepingSweepRegs : State :=
  ((((((({} : State).setVal GLOBAL_DEVSTATE 0x45).setVal (REGION_STATE 6) 5).setVal (AF_IN_CTL 3) 1).setVal (TG_U_CTL 6 13) 1).setVal
    (TG_DR_SRC 6) 0x80000000).setVal CM_SIZE_MIB 4096).setVal (CM_CH_STATUS 0) 8

/-- The same with input 3 running, a spectrum waiting at the drift unit, segment 0 masked, and 7 stored at address 0 of it. -/
def sleepingSweep : State :=
  { sleepingSweepRegs with
    af := [(3, { runs := true })]
    tg := { drift := [(0, { inq := [(16, .spec waitingSpectrum)] })] }
    cm := { chans := [(0, { masked := [0] })] }
    cmem := [(0, 7)] }

/-- BT_ENABLE of transform 3 there passes its checks. -/
theorem sleepingSweep_passes : sleepingSweep.mayWrite 1 (BT_CTL 3) = true ∧ sleepingSweep.on (BT_CTL_ENABLE 3) = false ∧
    sleepingSweep.dutyDead (BT_CTL 3) = false ∧ (sleepingSweep.plainWrite (BT_CTL 3) 0).btCheck 3 = 0 ∧
    sleepingSweep.inputRuns 3 = true := by decide +kernel

/-- It empties capture memory. -/
theorem sleepingSweep_btEnable_cmem :
    (sleepingSweep.sourceWrite 1 (BT_CTL 3) fun s => s.btCtlWrite 3 1).cmem = [] := by decide +kernel

end Sys2Proof.Machine

open Sys2Proof Sys2Proof.Machine

/-- Refutes O22: its first clause says that BT_ENABLE leaves the bytes of capture memory. In `sleepingSweep` the write lets the drift
unit take its waiting spectrum, which wakes channel 0, and the byte at address 0 is gone. -/
theorem not_broadTransformsAreCommanded : ¬ Obligations.BroadTransformsAreCommanded := by
  unfold Obligations.BroadTransformsAreCommanded
  rintro ⟨hEnable, -⟩
  obtain ⟨hWrite, hOff, hDuty, hCheck, hRuns⟩ := sleepingSweep_passes
  obtain ⟨t, hExec, -, -, -, -, -, -, -, -, hKept⟩ :=
    hEnable sleepingSweep 1 3 1 hWrite hOff (by decide) hDuty hCheck hRuns
  have hRun : sleepingSweep.sourceWrite 1 (BT_CTL 3) (fun s => s.btCtlWrite 3 1) = t := Host.Outcome.next.inj hExec
  have hEmpty : t.cmem = [] := hRun ▸ sleepingSweep_btEnable_cmem
  exact absurd (hKept.symm.trans hEmpty) (by decide)

end

section
/-! ### Broad transforms: state, registers, streams

What the operations of chapter 06 read and change, one rule each: a transform's own state, the fields of its registers, the CHAN
stream. Everything an operation leaves of the other parts of the state comes from its frame (Laws/KeepsSignal.lean). -/

namespace Sys2Proof.Machine

/-! #### The transform's own state -/

theorem State.btx_congr {s t : State} (h : t.bt = s.bt) (n : Nat) : t.btx n = s.btx n := by
  simp only [State.btx, h]

@[simp] theorem State.btx_modBt (s : State) (n : Nat) (f : BtSt → BtSt) : (s.modBt n f).btx n = f (s.btx n) :=
  kvGetD_kvMod_self ..

@[simp] theorem State.btx_put (s : State) (f : Fld) (x n : Nat) : (s.put f x).btx n = s.btx n :=
  State.btx_congr (s.put_bt f x) n

@[simp] theorem State.btx_setVal (s : State) (a x n : Nat) : (s.setVal a x).btx n = s.btx n :=
  State.btx_congr (s.setVal_bt a x) n

@[simp] theorem State.btx_toDetection (s : State) (r src : Nat) (d : DetTok) (n : Nat) :
    (s.toDetection r src d).btx n = s.btx n := State.btx_congr rfl n

/-! #### Fields -/

theorem State.on_congr {s t : State} (hv : t.variant = s.variant) (hr : t.regs = s.regs) (f : Fld) : t.on f = s.on f := by
  simp only [State.on, State.get_congr hv hr]

theorem State.get_of_reg {s t : State} {f : Fld} (h : t.reg f.addr = s.reg f.addr) : t.get f = s.get f := by
  simp only [State.get, h]

theorem State.on_of_reg {s t : State} {f : Fld} (h : t.reg f.addr = s.reg f.addr) : t.on f = s.on f := by
  simp only [State.on, State.get_of_reg h]

@[simp] theorem State.modBt_on (s : State) (n : Nat) (f : BtSt → BtSt) (g : Fld) : (s.modBt n f).on g = s.on g :=
  State.on_congr rfl rfl g

theorem State.on_put_flag_self (s : State) (a x : Nat) {i : Nat} (hi : i < 32) : (s.put ⟨a, i, i⟩ x).on ⟨a, i, i⟩ = (x % 2 != 0) := by
  rw [State.on, s.get_put_self ⟨a, i, i⟩ x (Nat.le_refl i) hi, Nat.add_sub_cancel_left, Nat.pow_one]

/-- Another flag of the same register. -/
theorem State.on_put_flag_off (s : State) (a x : Nat) {i j : Nat} (hi : i < 32) (h : j ≠ i) :
    (s.put ⟨a, i, i⟩ x).on ⟨a, j, j⟩ = s.on ⟨a, j, j⟩ := by
  rw [State.on, s.get_put_off (f := ⟨a, i, i⟩) (g := ⟨a, j, j⟩) x rfl (Nat.le_refl i) hi (Nat.lt_or_gt_of_ne h), State.on]

theorem State.reg_setVal_ne (s : State) {a b : Nat} (x : Nat) (h : b ≠ a) : (s.setVal a x).reg b = s.reg b :=
  s.reg_setReg_ne _ h

/-! #### Sizes and times of a transform -/

section
variable {s t : State} {n : Nat} (hcfg : t.reg (BT_CFG n) = s.reg (BT_CFG n))
include hcfg

theorem State.btC_congr : t.btC n = s.btC n := by
  simp only [State.btC, State.get, BT_CFG_LOG_C, hcfg]

theorem State.btT_congr : t.btT n = s.btT n := by
  simp only [State.btT, State.get, BT_CFG_TAPS, hcfg]

theorem State.btH_congr : t.btH n = s.btH n := by
  rw [State.btH, State.btH, State.btC_congr hcfg, State.on_of_reg (f := BT_CFG_HOP n) hcfg]

theorem State.btL_congr : t.btL n = s.btL n := by
  simp only [State.btL, State.btT_congr hcfg, State.btC_congr hcfg]

theorem State.btFirst_congr : t.btFirst n = s.btFirst n := by
  simp only [State.btFirst, State.btL_congr hcfg, State.btH_congr hcfg]

theorem State.btMid_congr (ho : (t.btx n).origin = (s.btx n).origin) (j : Int) : t.btMid n j = s.btMid n j := by
  simp only [State.btMid, State.btL_congr hcfg, State.btH_congr hcfg, ho]

theorem State.btTime_congr (ho : (t.btx n).origin = (s.btx n).origin) (hf : (t.btx n).fs = (s.btx n).fs) (j : Int) :
    t.btTime n j = s.btTime n j := by
  simp only [State.btTime, State.btMid_congr hcfg ho, hf]

/-- The words of a spectrum are a function of BT_CFG, BT_SHIFT, the user window and the samples. -/
theorem State.btWords_congr (hshift : t.reg (BT_SHIFT n) = s.reg (BT_SHIFT n)) (hwin : (t.btx n).win = (s.btx n).win)
    (xs : List Int) : t.btWords n xs = s.btWords n xs := by
  have hpoint : (t.btx n).winPoint = (s.btx n).winPoint := by
    funext i
    simp only [BtSt.winPoint, hwin]
  simp only [State.btWords, State.btC_congr hcfg, State.btT_congr hcfg, hpoint, State.get, BT_CFG_WINDOW, BT_CFG_LOG_C,
    BT_SHIFT_SHIFT, hcfg, hshift]

end

/-! #### Streams -/

theorem State.stream_congr {s t : State} (h : t.flow = s.flow) (id : BitVec 16) : t.stream id = s.stream id := by
  simp only [State.stream, h]

@[simp] theorem State.stream_modStream (s : State) (id : BitVec 16) (f : StreamSt → StreamSt) :
    (s.modStream id f).stream id = f (s.stream id) := kvGetD_kvMod_self ..

theorem State.openStream_opened {s : State} (h : s.stoppedAll = false) (id : BitVec 16) :
    ((s.openStream id).stream id).opened = true := by
  simp [State.openStream, h]

theorem State.openStream_regs (s : State) (id : BitVec 16) : (s.openStream id).regs = s.regs :=
  (keeps_openStream id (Fr.refl 4 s) (Sub.refl 4)).same .regs rfl

theorem State.openStream_variant (s : State) (id : BitVec 16) : (s.openStream id).variant = s.variant :=
  (keeps_openStream id (Fr.refl 4 s) (Sub.refl 4)).keeps.variant

theorem State.openStream_bt (s : State) (id : BitVec 16) : (s.openStream id).bt = s.bt :=
  (keeps_openStream id (Fr.refl 4 s) (Sub.refl 4)).same .bt rfl

/-- Outside SAFE a gap record is sent (R30, R38). -/
theorem State.gap_out {s : State} (h : s.stoppedAll = false) (id : BitVec 16) (t : DevTime) (len cause : Nat) (final : Bool) :
    (s.gap id t len cause final).out = s.out ++ [.gap ⟨id, t, BitVec.ofNat 48 len, BitVec.ofNat 16 cause, final⟩] := by
  cases final <;> simp [State.gap, State.ifThen, h, State.closeStream, State.modStream]

/-- A final gap record ends its stream (R31). -/
theorem State.gap_final_closed (s : State) (id : BitVec 16) (t : DevTime) (len cause : Nat) :
    ((s.gap id t len cause true).stream id).opened = false := by
  simp [State.gap, State.ifThen, State.closeStream]

/-! #### Refusals -/

/-- A refusal outside window 0 changes the region's refusal slots only, which lie below offset 100h (R534). -/
theorem State.reg_recordRefusal (s : State) {p a b : Nat} (write : Bool) (code : Nat) (ha : winOf a ≠ 0) (hp : p < 5)
    (hb : 0x100 ≤ offOf b) : (s.recordRefusal p a write code).reg b = s.reg b := by
  have hslot : b ≠ REGION_REFUSAL (winOf a) p ∧ b ≠ REGION_REFUSAL_OFFS (winOf a) p := by
    simp only [offOf, REGION_REFUSAL, REGION_REFUSAL_OFFS, winBase] at hb ⊢
    omega
  simp only [State.recordRefusal, if_neg ha]
  rw [State.reg_setVal_ne _ _ hslot.2, State.countF, State.reg_put_ne _ _ hslot.1, State.reg_put_ne _ _ hslot.1]

theorem State.recordRefusal_bt (s : State) (p a : Nat) (write : Bool) (code : Nat) :
    (s.recordRefusal p a write code).bt = s.bt :=
  (keeps_recordRefusal p a write code (Fr.refl 1 s) (Sub.refl 1)).same .bt rfl

end Sys2Proof.Machine

end

section
/-! ### Broad transforms: markers, gaps, restarts, table ports

One rule per operation of Machine/Broad.lean: the case it takes, and what it leaves. -/

namespace Sys2Proof.Machine

/-! #### Restart (R183) -/

theorem State.btReset_btx (s : State) (n : Nat) : (s.btReset n).btx n = { s.btx n with
    wait := .none, origin := (s.btx n).k, grid := (s.btx n).grid + 1, next := s.btFirst n, hist := [] } := by
  simp [State.btReset]

theorem State.btReset_running (s : State) (n : Nat) : (s.btReset n).on (BT_STATUS_RUNNING n) = true := by
  rw [State.btReset]
  exact (State.on_put_flag_self _ (BT_STATUS n) 1 (by decide)).trans (by decide)

theorem State.btReset_reg (s : State) {n a : Nat} (h : a ≠ BT_STATUS n) : (s.btReset n).reg a = s.reg a := by
  rw [State.btReset, State.reg_put_ne _ _ h, State.reg_put_ne _ _ h, State.modBt_reg]

@[simp] theorem State.btReset_flow (s : State) (n : Nat) : (s.btReset n).flow = s.flow :=
  (keeps_btReset n (Fr.refl 65537 s) (Sub.refl 65537)).same .flow rfl

theorem State.btOweGap_btx (s : State) (n cause : Nat) : (s.btOweGap n cause).btx n = { s.btx n with
    gapCause := if (s.btx n).lastMid.isNone then none else some ((s.btx n).gapCause.getD cause) } := by
  simp [State.btOweGap]

/-- The restart at an input sample with the stream open: a new grid from the next input sample on (R183, R185). -/
theorem State.openStream_btReset {s : State} {n : Nat} (k : Int) (hk : (s.btx n).k = k) :
    (((s.openStream (chanSid n)).btReset n).btx n).origin = k ∧
    (((s.openStream (chanSid n)).btReset n).btx n).next = s.btFirst n ∧
    (((s.openStream (chanSid n)).btReset n).btx n).wait = .none := by
  have hcfg : (s.openStream (chanSid n)).reg (BT_CFG n) = s.reg (BT_CFG n) :=
    State.reg_congr (s.openStream_variant _) (s.openStream_regs _) _
  rw [State.btReset_btx, State.btx_congr (s.openStream_bt _), State.btFirst_congr hcfg]
  exact ⟨hk, rfl, rfl⟩

/-! #### Markers (R27, R183, R190) -/

/-- Marker m stands before the next spectrum; `own` says that the transform asked for it as a SYNC_RESET of its own. -/
def State.btPutMark (s : State) (n : Nat) (m : Marker) (own : Bool) : State :=
  s.modBt n fun x => { x with
    markers := x.markers ++ [{ m with offset := 0 }], syncAt := if own then x.syncAt.erase m.time else x.syncAt }

/-- Marker m is the transform's own request of a SYNC_RESET. -/
def State.btOwnSync (s : State) (n : Nat) (m : Marker) : Bool := m.target = chanSid n && (s.btx n).syncAt.contains m.time

@[simp] theorem State.btPutMark_btx (s : State) (n : Nat) (m : Marker) (own : Bool) : (s.btPutMark n m own).btx n =
    { s.btx n with
      markers := (s.btx n).markers ++ [{ m with offset := 0 }]
      syncAt := if own then (s.btx n).syncAt.erase m.time else (s.btx n).syncAt } := by
  simp [State.btPutMark]

@[simp] theorem State.btPutMark_on (s : State) (n : Nat) (m : Marker) (own : Bool) (f : Fld) :
    (s.btPutMark n m own).on f = s.on f := rfl

@[simp] theorem State.btPutMark_reg (s : State) (n : Nat) (m : Marker) (own : Bool) (a : Nat) :
    (s.btPutMark n m own).reg a = s.reg a := rfl

@[simp] theorem State.btPutMark_flow (s : State) (n : Nat) (m : Marker) (own : Bool) : (s.btPutMark n m own).flow = s.flow := rfl

/-- A SYNC_RESET to all stages restarts the transform, whatever it waited for (R183). -/
theorem State.btMark_syncReset {s : State} {n : Nat} {m : Marker} (ht : m.type = .syncReset) (hall : m.target = 0xFFFF) :
    s.btMark n m = (((s.openStream (chanSid n)).btOweGap n 5).btReset n).btPutMark n m (s.btOwnSync n m) := by
  simp only [State.btMark]
  rw [if_pos (by simp [ht, hall])]
  rfl

/-- The GAIN_SWITCH the transform asked for: its swap is due, or held behind a running fade (R190). -/
theorem State.btMark_gainSwitch {s : State} {n : Nat} {m : Marker} (hw : (s.btx n).wait = .none) (ht : m.type = .gainSwitch)
    (htarget : m.target = chanSid n) (hat : (s.btx n).swapAt = some m.time) :
    s.btMark n m = if s.on (BT_STATUS_FADING n) then (s.btPutMark n m (s.btOwnSync n m)).put (BT_STATUS_HELD n) 1
      else (s.btPutMark n m (s.btOwnSync n m)).modBt n fun x => { x with swapDue := true } := by
  simp [State.btMark, hw, ht, htarget, hat, State.btPutMark, State.btOwnSync]

/-! #### Gaps (R31, R185) -/

theorem State.btGap_final {s : State} {n : Nat} {g : GapRec} (hw : (s.btx n).wait = .none) (hf : g.final = true) :
    s.btGap n g = ((s.btLoss n g.time 0 g.cause.toNat true).put (BT_STATUS_RUNNING n) 0).modBt n fun x => { x with wait := .sync } := by
  simp [State.btGap, hw, hf]

theorem State.btGap_open {s : State} {n : Nat} {g : GapRec} (hw : (s.btx n).wait = .none) (hf : g.final = false) :
    s.btGap n g = (s.btOweGap n g.cause.toNat).modBt n fun x => { x with wait := .gap, k := x.k + g.length.toNat } := by
  simp [State.btGap, hw, hf]

theorem State.btLoss_out (s : State) (n : Nat) (t : DevTime) (len cause : Nat) (final : Bool) :
    (s.btLoss n t len cause final).out = (s.gap (chanSid n) t len cause final).out := by
  simp only [State.btLoss]
  split <;> rfl

theorem State.btLoss_flow (s : State) (n : Nat) (t : DevTime) (len cause : Nat) (final : Bool) :
    (s.btLoss n t len cause final).flow = (s.gap (chanSid n) t len cause final).flow := by
  simp only [State.btLoss]
  split <;> rfl

theorem State.btLoss_frame (s : State) (n : Nat) (t : DevTime) (len cause : Nat) (final : Bool) :
    Fr 270663684 s (s.btLoss n t len cause final) :=
  keeps_btLoss n t len cause final (Fr.refl _ s) (Sub.refl _)

theorem State.btLoss_bt (s : State) (n : Nat) (t : DevTime) (len cause : Nat) (final : Bool) :
    (s.btLoss n t len cause final).bt = s.bt := (s.btLoss_frame n t len cause final).same .bt rfl

/-! #### The swap (R190) -/

theorem State.btSwap_btx {s : State} {n : Nat} (h : (s.btx n).swapDue = true) : (s.btSwap n).btx n = { s.btx n with
    banks := [⟨(s.btx n).cnt, if s.get (BT_CFG_FADE_LOG n) = 0 then 0 else 2 ^ s.get (BT_CFG_FADE_LOG n), (s.btx n).eqSh,
      (s.btx n).maskSh⟩, (s.btx n).active]
    eqSh := (s.btx n).active.eq, maskSh := (s.btx n).active.mask, swapAt := none, swapDue := false } := by
  simp [State.btSwap, h, State.putTime, State.btx_congr (State.setVal_bt ..)]

theorem State.btSwap_of_not_due {s : State} {n : Nat} (h : (s.btx n).swapDue = false) : s.btSwap n = s := by
  simp [State.btSwap, h]

theorem State.btSwap_pending {s : State} {n : Nat} (h : (s.btx n).swapDue = true) :
    (s.btSwap n).on (BT_MK_CTL_PENDING n) = false := by
  have hoff (u : State) (x y : Nat) (d : DevTime) : (((u.putTime (BT_EQ_DONE_SEC n) (BT_EQ_DONE_FRAC n) d).put
      (BT_STATUS_FADING n) x).put (BT_STATUS_HELD n) y).on (BT_MK_CTL_PENDING n) = u.on (BT_MK_CTL_PENDING n) := by
    apply State.on_of_reg
    rw [State.reg_put_ne, State.reg_put_ne, State.putTime, State.reg_setVal_ne, State.reg_setVal_ne] <;>
      simp [BT_MK_CTL_PENDING, BT_STATUS_FADING, BT_STATUS_HELD, BT_MK_CTL, BT_STATUS, BT_EQ_DONE_SEC, BT_EQ_DONE_FRAC]
  simp only [State.btSwap, h, Bool.not_true, Bool.false_eq_true, if_false, hoff]
  exact State.on_put_flag_self _ _ 0 (by decide)

theorem State.btSwap_fading {s : State} {n : Nat} (h : (s.btx n).swapDue = true) :
    (s.btSwap n).on (BT_STATUS_FADING n) = decide (s.get (BT_CFG_FADE_LOG n) ≠ 0) := by
  simp only [State.btSwap, h, Bool.not_true, Bool.false_eq_true, if_false]
  refine (State.on_put_flag_off _ _ _ (by decide) (by decide)).trans ((State.on_put_flag_self _ _ _ (by decide)).trans ?_)
  by_cases hf : s.get (BT_CFG_FADE_LOG n) = 0 <;> simp [hf]

theorem State.btSwap_out (s : State) (n : Nat) : (s.btSwap n).out = s.out :=
  (keeps_btSwap n (Fr.refl 65537 s) (Sub.refl 65537)).same .out rfl

/-! #### Work on the input queue (R47, R168) -/

theorem State.btRun_of_works {s : State} {n : Nat} (p : PullStop) (h : s.btWorks n = true) :
    s.btRun n p = State.btPull n p (s.btx n).inq s := by
  simp only [State.btWorks, State.works, Bool.and_eq_true, Bool.not_eq_true'] at h
  obtain ⟨hon, ⟨hgated, hlost⟩, hup⟩ := h
  simp [State.btRun, State.inIsland, hon, hgated, hlost, hup]

/-- A token that is looked for is the last one taken. -/
theorem State.btPull_of_stops {s : State} {n : Nat} {p : PullStop} {t : InTok} (rest : List InTok) (h : t.stops p = true) :
    State.btPull n p (t :: rest) s = (s.btToken n t).modBt n fun x => { x with inq := rest } := by
  simp [State.btPull, h]

/-- A token with which a spectrum leaves is the last one taken. -/
theorem State.btPull_of_spectrum {s : State} {n : Nat} {t : InTok} (rest : List InTok)
    (h : (s.btx n).cnt < ((s.btToken n t).btx n).cnt) :
    State.btPull n .out (t :: rest) s = (s.btToken n t).modBt n fun x => { x with inq := rest } := by
  simp [State.btPull, h]

/-- A token with which the fade ends is the last one taken. -/
theorem State.btPull_of_fadeEnd {s : State} {n : Nat} {t : InTok} (rest : List InTok) (h : s.on (BT_STATUS_FADING n) = true)
    (hend : (s.btToken n t).on (BT_STATUS_FADING n) = false) :
    State.btPull n .fade (t :: rest) s = (s.btToken n t).modBt n fun x => { x with inq := rest } := by
  simp [State.btPull, h, hend]

/-! #### Table ports (R189, R193, R194, R211) -/

/-- The equaliser's shadow table with the two entries of a write at channel c. -/
def BtSt.storeEq (x : BtSt) (c v : Nat) : BtSt :=
  { x with eqSh := kvSetD 0x8800 (kvSetD 0x8800 x.eqSh c (BitVec.ofNat 16 v)) (c + 1) (BitVec.ofNat 16 (v / 65536)) }

/-- The user window with the two points of a write at point c. -/
def BtSt.storeWin (x : BtSt) (c v : Nat) : BtSt :=
  { x with win := kvSetD 0xFFFF (kvSetD 0xFFFF x.win c (BitVec.ofNat 16 v)) (c + 1) (BitVec.ofNat 16 (v / 65536)) }

/-- The two halves of a word written to neighbouring entries of a table of 16-bit entries. -/
theorem halves_of_store (m : KV (BitVec 16)) (d : BitVec 16) (c : Nat) (v : Word) :
    (kvGetD (kvSetD d (kvSetD d m c (BitVec.ofNat 16 v.toNat)) (c + 1) (BitVec.ofNat 16 (v.toNat / 65536))) c d).toNat =
      v.toNat % 65536 ∧
    (kvGetD (kvSetD d (kvSetD d m c (BitVec.ofNat 16 v.toNat)) (c + 1) (BitVec.ofNat 16 (v.toNat / 65536))) (c + 1) d).toNat =
      v.toNat / 65536 := by
  have hv := v.isLt
  rw [kvGetD_kvSetD_ne d d _ _ _ _ (by omega), kvGetD_kvSetD_self, kvGetD_kvSetD_self, BitVec.toNat_ofNat, BitVec.toNat_ofNat]
  exact ⟨rfl, Nat.mod_eq_of_lt (by omega)⟩

theorem State.shadowShut_eq_zero {s : State} {n : Nat} (hp : s.on (BT_MK_CTL_PENDING n) = false)
    (hf : s.on (BT_STATUS_FADING n) = false) : s.shadowShut n = 0 := by
  simp [State.shadowShut, hp, hf]

theorem State.eqDataWrite_shadow {s : State} {n : Nat} (v : Nat) (hb : s.on (BT_EQ_ADDR_BANK n) = false) (hs : s.shadowShut n = 0) :
    s.eqDataWrite n v =
      (((s.modBt n fun x => x.storeEq (s.get (BT_EQ_ADDR_CH n) / 2 * 2) v).put (BT_MK_CTL_REASON n) 0).eqAdvance n, 0) := by
  simp only [State.eqDataWrite, hb, hs, Bool.false_eq_true, if_false, bne_self_eq_false]
  rfl

theorem State.eqDataWrite_active {s : State} {n : Nat} (v : Nat) (hb : s.on (BT_EQ_ADDR_BANK n) = true) :
    s.eqDataWrite n v = s.answer (BT_MK_CTL_REASON n) 0x0753 := by
  simp [State.eqDataWrite, hb]

theorem State.maskDataWrite_shadow {s : State} {n : Nat} (v : Nat) (hb : s.on (DC_MASK_ADDR_BANK n) = false)
    (hs : s.shadowShut n = 0) :
    s.maskDataWrite n v = (((s.modBt n fun x => { x with
      maskSh := kvSetD 0 x.maskSh (s.get (DC_MASK_ADDR_W n)) (BitVec.ofNat 32 v) }).put (BT_MK_CTL_REASON n) 0).maskAdvance n, 0) := by
  simp only [State.maskDataWrite, hb, hs, Bool.false_eq_true, if_false, bne_self_eq_false]

theorem State.maskDataWrite_active {s : State} {n : Nat} (v : Nat) (hb : s.on (DC_MASK_ADDR_BANK n) = true) :
    s.maskDataWrite n v = s.answer (BT_MK_CTL_REASON n) 0x0761 := by
  simp [State.maskDataWrite, hb]

theorem State.winDataWrite_off {s : State} {n : Nat} (v : Nat) (he : s.on (BT_CTL_ENABLE n) = false) :
    s.winDataWrite n v =
      (((s.modBt n fun x => x.storeWin (s.get (BT_WIN_ADDR_I n) / 2 * 2) v).put (BT_CTL_REASON n) 0).winAdvance n, 0) := by
  simp only [State.winDataWrite, he, Bool.false_and, Bool.false_eq_true, if_false]
  rfl

theorem State.eqDataRead_shadow {s : State} {n : Nat} (hb : s.on (BT_EQ_ADDR_BANK n) = false) : s.eqDataRead n =
    (s.put (BT_EQ_ADDR_CH n) ((s.get (BT_EQ_ADDR_CH n) / 2 * 2 + 2) % 131072),
      BitVec.ofNat 32 ((eqEntry (s.btx n).eqSh (s.get (BT_EQ_ADDR_CH n) / 2 * 2)).toNat
        + 65536 * (eqEntry (s.btx n).eqSh (s.get (BT_EQ_ADDR_CH n) / 2 * 2 + 1)).toNat)) := by
  simp only [State.eqDataRead, hb, Bool.false_eq_true, if_false, State.eqAdvance]

theorem State.winDataRead_eq (s : State) (n : Nat) : s.winDataRead n =
    (s.put (BT_WIN_ADDR_I n) ((s.get (BT_WIN_ADDR_I n) / 2 * 2 + 2) % 16384),
      BitVec.ofNat 32 ((s.btx n).winPoint (s.get (BT_WIN_ADDR_I n) / 2 * 2)
        + 65536 * (s.btx n).winPoint (s.get (BT_WIN_ADDR_I n) / 2 * 2 + 1))) := by
  simp only [State.winDataRead, State.winAdvance, BtSt.winPoint]

theorem State.maskDataRead_shadow {s : State} {n : Nat} (hb : s.on (DC_MASK_ADDR_BANK n) = false) : s.maskDataRead n =
    (s.put (DC_MASK_ADDR_W n) ((s.get (DC_MASK_ADDR_W n) + 1) % 4096),
      kvGetD (s.btx n).maskSh (s.get (DC_MASK_ADDR_W n)) 0) := by
  simp only [State.maskDataRead, hb, Bool.false_eq_true, if_false, State.maskAdvance]

theorem State.eqAdvance_get (s : State) (n : Nat) :
    (s.eqAdvance n).get (BT_EQ_ADDR_CH n) = (s.get (BT_EQ_ADDR_CH n) / 2 * 2 + 2) % 131072 := by
  rw [State.eqAdvance, State.get_put_self _ _ _ (by simp [BT_EQ_ADDR_CH]) (by simp [BT_EQ_ADDR_CH])]
  simp [BT_EQ_ADDR_CH]

theorem State.winAdvance_get (s : State) (n : Nat) :
    (s.winAdvance n).get (BT_WIN_ADDR_I n) = (s.get (BT_WIN_ADDR_I n) / 2 * 2 + 2) % 16384 := by
  rw [State.winAdvance, State.get_put_self _ _ _ (by simp [BT_WIN_ADDR_I]) (by simp [BT_WIN_ADDR_I])]
  simp [BT_WIN_ADDR_I]

theorem State.maskAdvance_get (s : State) (n : Nat) :
    (s.maskAdvance n).get (DC_MASK_ADDR_W n) = (s.get (DC_MASK_ADDR_W n) + 1) % 4096 := by
  rw [State.maskAdvance, State.get_put_self _ _ _ (by simp [DC_MASK_ADDR_W]) (by simp [DC_MASK_ADDR_W])]
  simp [DC_MASK_ADDR_W]

/-- A field of 16 bits at the top of a register holds the code written to it. -/
theorem State.get_put_reason (s : State) (a c : Nat) : (s.put ⟨a, 31, 16⟩ c).get ⟨a, 31, 16⟩ = c % 65536 :=
  s.get_put_self ⟨a, 31, 16⟩ c (by simp) (by simp)

/-- A refused write at address a leaves its code in the REASON of register r; beside the refusal slots nothing else changes. -/
theorem State.refused_write {s : State} {p a r : Nat} {c : Nat} (ha : winOf a ≠ 0) (hp : p < 5) (hr : 0x100 ≤ offOf r) (hc : c < 65536) :
    ((s.put ⟨r, 31, 16⟩ c).recordRefusal p a true c).bt = s.bt ∧
    ((s.put ⟨r, 31, 16⟩ c).recordRefusal p a true c).get ⟨r, 31, 16⟩ = c ∧
    ∀ b, b ≠ r → 0x100 ≤ offOf b → ((s.put ⟨r, 31, 16⟩ c).recordRefusal p a true c).reg b = s.reg b := by
  refine ⟨?_, ?_, fun b hb ho => ?_⟩
  · rw [State.recordRefusal_bt, State.put_bt]
  · have hslot := State.reg_recordRefusal (s.put ⟨r, 31, 16⟩ c) true c ha hp hr
    rw [State.get_of_reg (f := ⟨r, 31, 16⟩) hslot, State.get_put_reason, Nat.mod_eq_of_lt hc]
  · rw [State.reg_recordRefusal _ _ _ ha hp ho, State.reg_put_ne _ _ hb]

end Sys2Proof.Machine

end

section
/-! ### Broad transforms: a spectrum leaves (R169 to R186, R190)

The emission of a spectrum is cut at the places where it touches one part of the state each: the counts, the routes, the transform's
own step to the next spectrum, the fade. -/

namespace Sys2Proof.Machine

/-! #### The window -/

/-- The samples of a window of length l, oldest first, 0 before the grid origin; `hist` is newest first (R169, R183). -/
def windowOf (l : Nat) (hist : List (Int × Bool × Bool)) : List Int :=
  List.replicate (l - (hist.take l).reverse.length) 0 ++ (hist.take l).reverse.map (·.1)

theorem windowOf_push (s : State) (n : Nat) (v : Int) (ovr cal : Bool) :
    windowOf (s.btL n) (((if (s.btx n).w8 then 16 * v else v, ovr, cal) :: (s.btx n).hist).take (s.btL n)) = s.btWindow n v := by
  simp only [windowOf, State.btWindow, List.take_take, Nat.min_self, List.map_reverse, List.map_take, List.map_cons,
    List.length_reverse, List.length_take, List.length_cons, List.length_map]

/-- The transform has taken a sample that completes a window, with no takeover to wait for. -/
def State.btTaken (s : State) (n : Nat) (v : Int) (ovr cal : Bool) : State :=
  (s.modBt n fun x => { x with
    k := x.k + 1, hist := ((if x.w8 then 16 * v else v, ovr, cal) :: x.hist).take (s.btL n) }).modBt n fun x => { x with skipTo := none }

theorem State.btTaken_btx (s : State) (n : Nat) (v : Int) (ovr cal : Bool) : (s.btTaken n v ovr cal).btx n = { s.btx n with
    k := (s.btx n).k + 1
    hist := ((if (s.btx n).w8 then 16 * v else v, ovr, cal) :: (s.btx n).hist).take (s.btL n)
    skipTo := none } := by
  simp [State.btTaken]

theorem State.btTaken_reg (s : State) (n : Nat) (v : Int) (ovr cal : Bool) (a : Nat) :
    (s.btTaken n v ovr cal).reg a = s.reg a := by
  rw [State.btTaken, State.modBt_reg, State.modBt_reg]

theorem State.btTaken_dc (s : State) (n : Nat) (v : Int) (ovr cal : Bool) : (s.btTaken n v ovr cal).dc = s.dc := rfl

/-- The sample that completes a window lets its spectrum leave. -/
theorem State.btSample_of_complete {s : State} {n : Nat} (v : Int) (ovr cal : Bool) (hskip : (s.btx n).skipTo = none)
    (hk : (s.btx n).k + 1 = (s.btx n).origin + (s.btx n).next * (s.btH n : Int) + (s.btL n : Int)) :
    s.btSample n v ovr cal = (s.btTaken n v ovr cal).btEmit n := by
  have hsize (f : BtSt → BtSt) : (s.modBt n f).btH n = s.btH n ∧ (s.modBt n f).btL n = s.btL n :=
    ⟨State.btH_congr (State.modBt_reg ..), State.btL_congr (State.modBt_reg ..)⟩
  simp [State.btSample, State.btTaken, hsize, hskip, hk]

/-! #### The parts of an emission -/

/-- The counts of a spectrum: `sats` saturated elements, `ovf` a saturated FFT (R176, R180). -/
def State.btCounted (s : State) (n sats : Nat) (ovf : Bool) : State :=
  let s := s.count (BT_SAT_COUNT n) sats
  if ovf then (s.put (BT_STATUS_OVF n) 1).count (BT_OVF_COUNT n) 1 else s

/-- The spectrum's slices, where the transform feeds a route (R180, R181). -/
def State.btRouted (s : State) (n : Nat) (j : Int) (els : List (Int × Int × Bool × Bool)) (ovr ovf cal : Bool)
    (ms : List Marker) : State :=
  if s.on (BT_CTL_TO_CB n) || s.on (BT_CTL_TO_SWITCH n) then s.btSlices n j els ovr ovf cal ms else s

/-- The transform goes on to spectrum j + 1. -/
def State.btAdvance (s : State) (n : Nat) (j : Int) : State :=
  (s.modBt n fun y => { y with
    next := j + 1, cnt := y.cnt + 1, lastMid := some (s.btMid n j, s.btTime n j), markers := [] }).put (BT_STATUS_SETTLING n)
    (if j + 1 < 0 then 1 else 0)

/-- A spectrum with no swap due: what is owed is paid, the spectrum is counted and routed, `d` goes to detection, and the transform
goes on. -/
theorem State.btEmit_eq {s : State} {n : Nat} (h : (s.btx n).swapDue = false) :
    ∃ (p u : State) (sats : Nat) (els : List (Int × Int × Bool × Bool)) (ovr ovf cal : Bool) (d : DetSpec),
      s.btEmit n = ((u.toDetection (6 + n / 4) (n % 4) (.spec d)).btAdvance n (s.btx n).next).btFadeStep n ∧
      p = s.btPayGap n (s.btx n).next ∧
      u = (p.btCounted n sats ovf).btRouted n (s.btx n).next els ovr ovf cal (s.btx n).markers ∧
      ovf = (p.btWords n (windowOf (p.btL n) (s.btx n).hist)).2 ∧
      DetTok.brief (.spec d) = some (chanSid n, (s.btx n).next, u.btTime n (s.btx n).next) := by
  rw [State.btEmit, State.btSwap_of_not_due h]
  exact ⟨_, _, _, _, _, _, _, _, rfl, rfl, rfl, rfl, rfl⟩

/-! #### What is owed -/

theorem State.btPayGap_of_none {s : State} {n : Nat} (j : Int) (hg : (s.btx n).gapCause = none) (ht : (s.btx n).takeGap = none) :
    s.btPayGap n j = s := by
  simp [State.btPayGap, hg, ht]

theorem State.btPayGap_reg (s : State) (n : Nat) (j : Int) (a : Nat) : (s.btPayGap n j).reg a = s.reg a :=
  have hframe := keeps_btPayGap n j (Fr.refl 270729220 s) (Sub.refl _)
  State.reg_congr hframe.keeps.variant (hframe.same .regs rfl) a

/-- Paying leaves of the transform everything but what was owed. -/
theorem State.btPayGap_btx (s : State) (n : Nat) (j : Int) :
    ∃ k g, (s.btPayGap n j).btx n = { s.btx n with takeGap := k, gapCause := g } := by
  have hloss (u : State) (t : DevTime) (len c : Nat) (f : BtSt → BtSt) : ((u.btLoss n t len c).modBt n f).btx n = f (u.btx n) := by
    rw [State.btx_modBt, State.btx_congr (State.btLoss_bt ..)]
  simp only [State.btPayGap]
  split <;> split
  · exact ⟨_, _, by rw [hloss, hloss]⟩
  · exact ⟨_, _, hloss ..⟩
  · exact ⟨_, _, hloss ..⟩
  · exact ⟨_, _, rfl⟩

/-! #### Counts and routes -/

theorem State.btCounted_frame (s : State) (n sats : Nat) (ovf : Bool) : Fr 1 s (s.btCounted n sats ovf) := by
  have hm : Sub 1 1 := Sub.refl 1
  have hsat := keeps_count (BT_SAT_COUNT n) sats (Fr.refl 1 s) hm
  cases ovf
  · exact hsat
  · exact keeps_count (BT_OVF_COUNT n) 1 (keeps_put (BT_STATUS_OVF n) 1 hsat hm) hm

theorem State.btCounted_cfg (s : State) (n sats : Nat) (ovf : Bool) :
    (s.btCounted n sats ovf).reg (BT_CFG n) = s.reg (BT_CFG n) := by
  have h : BT_CFG n ≠ BT_SAT_COUNT n ∧ BT_CFG n ≠ BT_OVF_COUNT n ∧ BT_CFG n ≠ BT_STATUS n := by
    simp [BT_CFG, BT_SAT_COUNT, BT_OVF_COUNT, BT_STATUS]
  obtain ⟨hsat, hovf, hstatus⟩ := h
  cases ovf
  · exact State.reg_setVal_ne _ _ hsat
  · exact (State.reg_setVal_ne _ _ hovf).trans ((State.reg_put_ne _ _ hstatus).trans (State.reg_setVal_ne _ _ hsat))

/-- A flag of BT_STATUS other than OVF. -/
theorem State.btCounted_flag (s : State) (n sats : Nat) (ovf : Bool) {i : Nat} (hi : i ≠ 5) :
    (s.btCounted n sats ovf).on ⟨BT_STATUS n, i, i⟩ = s.on ⟨BT_STATUS n, i, i⟩ := by
  have h : BT_STATUS n ≠ BT_SAT_COUNT n ∧ BT_STATUS n ≠ BT_OVF_COUNT n := by
    simp [BT_SAT_COUNT, BT_OVF_COUNT, BT_STATUS]
  obtain ⟨hsat, hovf⟩ := h
  have hcount : (s.count (BT_SAT_COUNT n) sats).on ⟨BT_STATUS n, i, i⟩ = s.on ⟨BT_STATUS n, i, i⟩ :=
    State.on_of_reg (State.reg_setVal_ne _ _ hsat)
  cases ovf
  · exact hcount
  · exact (State.on_of_reg (State.reg_setVal_ne _ _ hovf)).trans ((State.on_put_flag_off _ _ _ (by decide) hi).trans hcount)

/-- OVF_COUNT counts the spectra with a saturated FFT (R176). -/
theorem State.btCounted_ovfCount (s : State) (n sats : Nat) (ovf : Bool) :
    (s.btCounted n sats ovf).val (BT_OVF_COUNT n) = (s.val (BT_OVF_COUNT n) + if ovf then 1 else 0) % 2 ^ 32 := by
  have hsat : BT_OVF_COUNT n ≠ BT_SAT_COUNT n := by simp [BT_SAT_COUNT, BT_OVF_COUNT]
  have hstatus : BT_OVF_COUNT n ≠ BT_STATUS n := by simp [BT_STATUS, BT_OVF_COUNT]
  have hcount : (s.count (BT_SAT_COUNT n) sats).val (BT_OVF_COUNT n) = s.val (BT_OVF_COUNT n) := State.val_setVal_ne _ _ hsat
  have hput (u : State) : (u.put (BT_STATUS_OVF n) 1).val (BT_OVF_COUNT n) = u.val (BT_OVF_COUNT n) :=
    congrArg BitVec.toNat (u.reg_put_ne 1 hstatus)
  cases ovf
  · exact hcount.trans (Nat.mod_eq_of_lt (s.val_lt _)).symm
  · refine (State.val_setVal_self ..).trans ?_
    rw [hput, hcount, if_pos rfl]

theorem State.btRouted_frame (s : State) (n : Nat) (j : Int) (els : List (Int × Int × Bool × Bool)) (ovr ovf cal : Bool)
    (ms : List Marker) : Fr 270532612 s (s.btRouted n j els ovr ovf cal ms) := by
  unfold State.btRouted
  split
  · exact keeps_btSlices n j els ovr ovf cal ms (Fr.refl _ s) (Sub.refl _)
  · exact Fr.refl _ s

theorem State.btRouted_reg (s : State) (n : Nat) (j : Int) (els : List (Int × Int × Bool × Bool)) (ovr ovf cal : Bool)
    (ms : List Marker) (a : Nat) : (s.btRouted n j els ovr ovf cal ms).reg a = s.reg a :=
  have hframe := s.btRouted_frame n j els ovr ovf cal ms
  State.reg_congr hframe.keeps.variant (hframe.same .regs rfl) a

/-! #### The step to the next spectrum -/

theorem State.btAdvance_btx (s : State) (n : Nat) (j : Int) : (s.btAdvance n j).btx n = { s.btx n with
    next := j + 1, cnt := (s.btx n).cnt + 1, lastMid := some (s.btMid n j, s.btTime n j), markers := [] } := by
  simp [State.btAdvance]

theorem State.btAdvance_reg (s : State) {n a : Nat} (j : Int) (h : a ≠ BT_STATUS n) : (s.btAdvance n j).reg a = s.reg a := by
  rw [State.btAdvance, State.reg_put_ne _ _ h, State.modBt_reg]

theorem State.btAdvance_settling (s : State) (n : Nat) (j : Int) :
    (s.btAdvance n j).on (BT_STATUS_SETTLING n) = decide (j + 1 < 0) := by
  rw [State.btAdvance]
  refine (State.on_put_flag_self _ (BT_STATUS n) _ (by decide)).trans ?_
  by_cases hj : j + 1 < 0 <;> simp [hj]

theorem State.btAdvance_fading (s : State) (n : Nat) (j : Int) :
    (s.btAdvance n j).on (BT_STATUS_FADING n) = s.on (BT_STATUS_FADING n) := by
  rw [State.btAdvance]
  exact (State.on_put_flag_off _ (BT_STATUS n) _ (by decide) (by decide)).trans (State.modBt_on ..)

theorem State.btAdvance_dc (s : State) (n : Nat) (j : Int) : (s.btAdvance n j).dc = s.dc := by
  rw [State.btAdvance, State.put_dc, State.modBt_dc]

/-! #### The fade -/

theorem State.btFadeStep_btx (s : State) (n : Nat) :
    ∃ banks due, (s.btFadeStep n).btx n = { s.btx n with banks := banks, swapDue := due } := by
  simp only [State.btFadeStep]
  split
  · exact ⟨_, _, by rw [State.btx_modBt, State.btx_put]⟩
  · exact ⟨_, _, rfl⟩

theorem State.btFadeStep_dc (s : State) (n : Nat) : (s.btFadeStep n).dc = s.dc :=
  (keeps_btFadeStep n (Fr.refl 65537 s) (Sub.refl 65537)).same .dc rfl

theorem State.btFadeStep_reg (s : State) {n a : Nat} (h : a ≠ BT_STATUS n) : (s.btFadeStep n).reg a = s.reg a := by
  simp only [State.btFadeStep]
  split
  · rw [State.modBt_reg, State.reg_put_ne _ _ h]
  · rfl

theorem State.btFadeStep_settling (s : State) (n : Nat) :
    (s.btFadeStep n).on (BT_STATUS_SETTLING n) = s.on (BT_STATUS_SETTLING n) := by
  simp only [State.btFadeStep]
  split
  · exact (State.modBt_on ..).trans (State.on_put_flag_off _ (BT_STATUS n) _ (by decide) (by decide))
  · rfl

/-- The fade's last spectrum ends it, and the bank it left goes (R190). -/
theorem State.btFadeStep_end {s : State} {n : Nat} (hf : s.on (BT_STATUS_FADING n) = true)
    (hend : (s.btx n).active.from_ + (s.btx n).active.fade ≤ (s.btx n).cnt) :
    (s.btFadeStep n).on (BT_STATUS_FADING n) = false ∧ ((s.btFadeStep n).btx n).banks = (s.btx n).banks.take 1 := by
  simp only [State.btFadeStep, hf, hend, decide_true, Bool.and_true, if_true]
  refine ⟨(State.modBt_on ..).trans ((State.on_put_flag_self _ (BT_STATUS n) _ (by decide)).trans (by decide)), ?_⟩
  rw [State.btx_modBt, State.btx_put]

end Sys2Proof.Machine

end

section
/-! ### Broad transforms: their commands (O23)

A theorem per command and case, then the obligation put together from them. -/

namespace Sys2Proof.Machine

/-! #### Tokens the transform takes -/

section
variable {s : State} {n : Fin 16}

/-- A command that works up to a marker takes the marker next in the queue, and no more. -/
theorem exec_markerGainSwitch {m : Marker} {rest : List InTok} (hw : s.btWorks n = true) (hq : (s.btx n).inq = .mark m :: rest)
    (ht : m.type = .gainSwitch) :
    exec (.markerGainSwitch n) s = .next ((s.btMark n m).modBt n fun x => { x with inq := rest }) := by
  have hrun := State.btPull_of_stops (s := s) (n := n) (p := .mark .gainSwitch) (t := .mark m) rest (by simp [InTok.stops, ht])
  exact congrArg Host.Outcome.next ((State.btRun_of_works _ hw).trans (hq ▸ hrun))

theorem exec_markerSyncResetBroad {m : Marker} {rest : List InTok} (hw : s.btWorks n = true)
    (hq : (s.btx n).inq = .mark m :: rest) (ht : m.type = .syncReset) :
    exec (.markerSyncResetBroad n) s = .next ((s.btMark n m).modBt n fun x => { x with inq := rest }) := by
  have hrun := State.btPull_of_stops (s := s) (n := n) (p := .mark .syncReset) (t := .mark m) rest (by simp [InTok.stops, ht])
  exact congrArg Host.Outcome.next ((State.btRun_of_works _ hw).trans (hq ▸ hrun))

theorem exec_btInputGap {g : GapRec} {rest : List InTok} (hw : s.btWorks n = true) (hq : (s.btx n).inq = .gap g :: rest) :
    exec (.btInputGap n) s = .next ((s.btGap n g).modBt n fun x => { x with inq := rest }) := by
  have hrun := State.btPull_of_stops (s := s) (n := n) (p := .gap) (t := .gap g) rest rfl
  exact congrArg Host.Outcome.next ((State.btRun_of_works _ hw).trans (hq ▸ hrun))

/-! #### The equaliser's switch (R190) -/

theorem gainSwitch_makes_swap_due {m : Marker} {rest : List InTok} (hw : s.btWorks n = true) (hq : (s.btx n).inq = .mark m :: rest)
    (hwait : (s.btx n).wait = .none) (ht : m.type = .gainSwitch) (htarget : m.target = chanSid n)
    (hat : (s.btx n).swapAt = some m.time) (hf : s.on (BT_STATUS_FADING n) = false) :
    ∃ t, exec (.markerGainSwitch n) s = .next t ∧ (t.btx n).swapDue = true ∧ (t.btx n).inq = rest ∧ t.regs = s.regs ∧
      (t.btx n).markers = (s.btx n).markers ++ [{ m with offset := 0 }] ∧ t.out = s.out := by
  refine ⟨_, exec_markerGainSwitch hw hq ht, ?_⟩
  rw [State.btMark_gainSwitch hwait ht htarget hat, hf, if_neg Bool.false_ne_true]
  simp only [State.btx_modBt, State.btPutMark_btx]
  exact ⟨trivial, trivial, rfl, trivial, rfl⟩

theorem gainSwitch_is_held {m : Marker} {rest : List InTok} (hw : s.btWorks n = true) (hq : (s.btx n).inq = .mark m :: rest)
    (hwait : (s.btx n).wait = .none) (ht : m.type = .gainSwitch) (htarget : m.target = chanSid n)
    (hat : (s.btx n).swapAt = some m.time) (hf : s.on (BT_STATUS_FADING n) = true) :
    ∃ t, exec (.markerGainSwitch n) s = .next t ∧ t.on (BT_STATUS_HELD n) = true ∧ (t.btx n).eqSh = (s.btx n).eqSh ∧
      (∀ a, a ≠ BT_STATUS n → t.reg a = s.reg a) := by
  refine ⟨_, exec_markerGainSwitch hw hq ht, ?_⟩
  rw [State.btMark_gainSwitch hwait ht htarget hat, hf, if_pos rfl]
  refine ⟨?_, ?_, fun a ha => ?_⟩
  · exact (State.modBt_on ..).trans ((State.on_put_flag_self _ (BT_STATUS n) 1 (by decide)).trans (by decide))
  · rw [State.btx_modBt, State.btx_put, State.btPutMark_btx]
  · rw [State.modBt_reg, State.reg_put_ne _ _ ha, State.btPutMark_reg]

theorem swap_exchanges_tables (s : State) (n : Nat) (h : (s.btx n).swapDue = true) :
    (s.btSwap n).on (BT_MK_CTL_PENDING n) = false ∧
      (s.btSwap n).on (BT_STATUS_FADING n) = decide (s.get (BT_CFG_FADE_LOG n) ≠ 0) ∧
      ((s.btSwap n).btx n).active.eq = (s.btx n).eqSh ∧ ((s.btSwap n).btx n).active.mask = (s.btx n).maskSh ∧
      ((s.btSwap n).btx n).eqSh = (s.btx n).active.eq ∧ ((s.btSwap n).btx n).maskSh = (s.btx n).active.mask ∧
      ((s.btSwap n).btx n).swapAt = none ∧ ((s.btSwap n).btx n).swapDue = false ∧ (s.btSwap n).out = s.out := by
  rw [State.btSwap_btx h]
  exact ⟨State.btSwap_pending h, State.btSwap_fading h, rfl, rfl, rfl, rfl, rfl, rfl, State.btSwap_out s n⟩

/-! #### Restarts (R183, R185) -/

theorem syncReset_restarts {m : Marker} {rest : List InTok} (hw : s.btWorks n = true) (hq : (s.btx n).inq = .mark m :: rest)
    (ht : m.type = .syncReset) (hall : m.target = 0xFFFF) (hrun : s.stoppedAll = false) :
    ∃ t, exec (.markerSyncResetBroad n) s = .next t ∧ t.on (BT_STATUS_RUNNING n) = true ∧
      (t.btx n).origin = (s.btx n).k ∧ (t.btx n).next = s.btFirst n ∧ (t.btx n).hist = [] ∧ (t.btx n).wait = .none ∧
      (t.stream (chanSid n)).opened = true ∧ (t.btx n).markers = (s.btx n).markers ++ [{ m with offset := 0 }] ∧
      (∀ a, a ≠ BT_STATUS n → t.reg a = s.reg a) := by
  refine ⟨_, exec_markerSyncResetBroad hw hq ht, ?_⟩
  rw [State.btMark_syncReset ht hall]
  have hopen : (s.openStream (chanSid n)).btx n = s.btx n := State.btx_congr (s.openStream_bt _) n
  have hreg (a : Nat) : ((s.openStream (chanSid n)).btOweGap n 5).reg a = s.reg a :=
    (State.modBt_reg ..).trans (State.reg_congr (s.openStream_variant _) (s.openStream_regs _) a)
  simp only [State.btx_modBt, State.btPutMark_btx, State.btReset_btx, State.btOweGap_btx, hopen, State.btFirst_congr (hreg _)]
  refine ⟨?_, trivial, trivial, trivial, trivial, ?_, trivial, fun a ha => ?_⟩
  · exact (State.modBt_on ..).trans ((State.btPutMark_on ..).trans (State.btReset_running ..))
  · rw [State.stream_congr ((State.modBt_flow ..).trans ((State.btPutMark_flow ..).trans (State.btReset_flow ..)))]
    exact State.openStream_opened hrun _
  · rw [State.modBt_reg, State.btPutMark_reg, State.btReset_reg _ ha, hreg]

theorem inputGap_waits {g : GapRec} {rest : List InTok} (hw : s.btWorks n = true) (hq : (s.btx n).inq = .gap g :: rest)
    (hwait : (s.btx n).wait = .none) (hfinal : g.final = false) :
    ∃ t, exec (.btInputGap n) s = .next t ∧ (t.btx n).wait = .gap ∧ (t.btx n).k = (s.btx n).k + g.length.toNat ∧ t.out = s.out ∧
      t.regs = s.regs ∧
      ((s.btx n).lastMid.isSome = true → (t.btx n).gapCause = some ((s.btx n).gapCause.getD g.cause.toNat)) := by
  refine ⟨_, exec_btInputGap hw hq, ?_⟩
  rw [State.btGap_open hwait hfinal]
  simp only [State.btx_modBt, State.btOweGap_btx]
  refine ⟨trivial, trivial, rfl, rfl, fun hlast => ?_⟩
  rw [if_neg (by rw [Option.isNone_iff_eq_none]; exact Option.isSome_iff_ne_none.mp hlast)]

theorem inputGap_ends {g : GapRec} {rest : List InTok} (hw : s.btWorks n = true) (hq : (s.btx n).inq = .gap g :: rest)
    (hwait : (s.btx n).wait = .none) (hfinal : g.final = true) (hrun : s.stoppedAll = false) :
    ∃ t, exec (.btInputGap n) s = .next t ∧ t.on (BT_STATUS_RUNNING n) = false ∧
      t.out = s.out ++ [.gap ⟨chanSid n, g.time, 0, g.cause, true⟩] ∧ (t.stream (chanSid n)).opened = false := by
  refine ⟨_, exec_btInputGap hw hq, ?_⟩
  rw [State.btGap_final hwait hfinal]
  refine ⟨?_, ?_, ?_⟩
  · exact (State.modBt_on ..).trans ((State.modBt_on ..).trans
      ((State.on_put_flag_self _ (BT_STATUS n) 0 (by decide)).trans (by decide)))
  · rw [State.modBt_out, State.modBt_out, State.put_out, State.btLoss_out, State.gap_out hrun, BitVec.ofNat_toNat,
      BitVec.setWidth_eq]
    rfl
  · have hflow := (s.btLoss_flow n g.time 0 g.cause.toNat true)
    rw [State.stream_congr ((State.modBt_flow ..).trans ((State.modBt_flow ..).trans ((State.put_flow ..).trans hflow)))]
    exact State.gap_final_closed ..

theorem frameStart_restarts (s : State) (n : Nat) (k : Int) (fs : Nat) (w8 : Bool) (hwait : (s.btx n).wait = .gap) :
    ((s.btFrameStart n k fs w8).btx n).origin = k ∧ ((s.btFrameStart n k fs w8).btx n).next = s.btFirst n ∧
      ((s.btFrameStart n k fs w8).btx n).wait = .none ∧ (s.btFrameStart n k fs w8).on (BT_STATUS_RUNNING n) = true := by
  have hfirst (f : BtSt → BtSt) : (s.modBt n f).btFirst n = s.btFirst n := State.btFirst_congr (State.modBt_reg ..)
  simp only [State.btFrameStart, State.btx_modBt, hwait, if_true]
  obtain ⟨horigin, hnext, hnone⟩ := State.openStream_btReset (n := n) k (congrArg BtSt.k (State.btx_modBt s n fun x => { x with
    k := k, fs := fs, w8 := w8, lastMid := x.lastMid.map fun m => (m.1 + (k - x.k), m.2) }))
  exact ⟨horigin, hnext.trans (hfirst _), hnone, State.btReset_running ..⟩

/-! #### Spectra (R171, R176, R190) -/

/-- The sample that completes a window of a working transform. -/
theorem btToken_complete {v : Int} {ovr cal : Bool} (hwait : (s.btx n).wait = .none) (hskip : (s.btx n).skipTo = none)
    (hk : (s.btx n).k + 1 = (s.btx n).origin + (s.btx n).next * (s.btH n : Int) + (s.btL n : Int)) :
    s.btToken n (.x v ovr cal) = (s.btTaken n v ovr cal).btEmit n :=
  (if_pos hwait).trans (State.btSample_of_complete v ovr cal hskip hk)

end

/-- What a spectrum that leaves with nothing owed does to the transform, to detection and to the counts. -/
theorem State.btEmit_spectrum {s : State} {n : Nat} (hdue : (s.btx n).swapDue = false) (hg : (s.btx n).gapCause = none)
    (ht : (s.btx n).takeGap = none) :
    ((s.btEmit n).btx n).next = (s.btx n).next + 1 ∧ ((s.btEmit n).btx n).cnt = (s.btx n).cnt + 1 ∧
      ((s.btEmit n).btx n).lastMid = some (s.btMid n (s.btx n).next, s.btTime n (s.btx n).next) ∧
      ((s.btEmit n).btx n).markers = [] ∧
      (kvGetD (s.btEmit n).dc.queue (detKey (6 + n / 4) (n % 4)) []).map DetTok.brief =
        (kvGetD s.dc.queue (detKey (6 + n / 4) (n % 4)) []).map DetTok.brief ++
          [some (chanSid n, (s.btx n).next, s.btTime n (s.btx n).next)] ∧
      (s.btEmit n).val (BT_OVF_COUNT n) =
        (s.val (BT_OVF_COUNT n) + if (s.btWords n (windowOf (s.btL n) (s.btx n).hist)).2 then 1 else 0) % 2 ^ 32 ∧
      (s.btEmit n).on (BT_STATUS_SETTLING n) = decide ((s.btx n).next + 1 < 0) := by
  obtain ⟨p, u, sats, els, ovr, ovf, cal, d, hemit, hp, hu, hovf, hbrief⟩ := State.btEmit_eq hdue
  rw [State.btPayGap_of_none _ hg ht] at hp
  rw [hp] at hu hovf
  have hcounted := s.btCounted_frame n sats ovf
  have hrouted := (s.btCounted n sats ovf).btRouted_frame n (s.btx n).next els ovr ovf cal (s.btx n).markers
  have hreg (a : Nat) : u.reg a = (s.btCounted n sats ovf).reg a := by rw [hu, State.btRouted_reg]
  have hcfg : u.reg (BT_CFG n) = s.reg (BT_CFG n) := (hreg _).trans (s.btCounted_cfg n sats ovf)
  have hx : u.btx n = s.btx n := State.btx_congr (by rw [hu, hrouted.same .bt rfl, hcounted.same .bt rfl]) n
  have hdc : u.dc = s.dc := by rw [hu, hrouted.same .dc rfl, hcounted.same .dc rfl]
  have hmid (j : Int) : u.btMid n j = s.btMid n j := State.btMid_congr hcfg (by rw [hx]) j
  have htime (j : Int) : u.btTime n j = s.btTime n j := State.btTime_congr hcfg (by rw [hx]) (by rw [hx]) j
  have hne : BT_OVF_COUNT n ≠ BT_STATUS n := by simp [BT_STATUS, BT_OVF_COUNT]
  rw [htime] at hbrief
  -- The fade's step touches only the banks and the swap that is due.
  have hstep : ∃ banks due, (s.btEmit n).btx n = { s.btx n with
      next := (s.btx n).next + 1, cnt := (s.btx n).cnt + 1
      lastMid := some (s.btMid n (s.btx n).next, s.btTime n (s.btx n).next), markers := [], banks := banks, swapDue := due } := by
    obtain ⟨banks, due, hfade⟩ := State.btFadeStep_btx
      ((u.toDetection (6 + n / 4) (n % 4) (.spec d)).btAdvance n (s.btx n).next) n
    refine ⟨banks, due, ?_⟩
    rw [hemit, hfade, State.btAdvance_btx, State.btx_toDetection, hx, ← hmid, ← htime]
    rfl
  obtain ⟨banks, due, hstep⟩ := hstep
  rw [hstep]
  refine ⟨rfl, rfl, rfl, rfl, ?_, ?_, ?_⟩
  · rw [hemit, State.btFadeStep_dc, State.btAdvance_dc, State.toDetection, hdc]
    simp only [kvGetD_kvPut_self, List.map_append, List.map_cons, List.map_nil, hbrief]
  · rw [← hovf, ← State.btCounted_ovfCount s n sats ovf, hemit]
    simp only [State.val, State.btFadeStep_reg _ hne, State.btAdvance_reg _ _ hne]
    exact congrArg BitVec.toNat (hreg _)
  · rw [hemit, State.btFadeStep_settling, State.btAdvance_settling]

/-- The last spectrum of a fade ends it, whatever was owed before it. -/
theorem State.btEmit_fadeEnd {s : State} {n : Nat} (hdue : (s.btx n).swapDue = false) (hf : s.on (BT_STATUS_FADING n) = true)
    (hend : (s.btx n).active.from_ + (s.btx n).active.fade ≤ (s.btx n).cnt + 1) :
    (s.btEmit n).on (BT_STATUS_FADING n) = false ∧ ((s.btEmit n).btx n).banks = (s.btx n).banks.take 1 ∧
      ((s.btEmit n).btx n).next = (s.btx n).next + 1 := by
  obtain ⟨p, u, sats, els, ovr, ovf, cal, d, hemit, hp, hu, -, -⟩ := State.btEmit_eq hdue
  obtain ⟨takeGap, gapCause, hpay⟩ := s.btPayGap_btx n (s.btx n).next
  have hcounted := p.btCounted_frame n sats ovf
  have hrouted := (p.btCounted n sats ovf).btRouted_frame n (s.btx n).next els ovr ovf cal (s.btx n).markers
  have hx : u.btx n = { s.btx n with takeGap := takeGap, gapCause := gapCause } := by
    rw [← hpay, ← hp]
    exact State.btx_congr (by rw [hu, hrouted.same .bt rfl, hcounted.same .bt rfl]) n
  have hfading : u.on (BT_STATUS_FADING n) = true := by
    rw [hu, State.on_of_reg (State.btRouted_reg ..)]
    refine (p.btCounted_flag n sats ovf (by decide)).trans ?_
    rw [hp]
    exact (State.on_of_reg (State.btPayGap_reg ..)).trans hf
  have hnext := State.btAdvance_btx (u.toDetection (6 + n / 4) (n % 4) (.spec d)) n (s.btx n).next
  rw [State.btx_toDetection, hx] at hnext
  have hstill : ((u.toDetection (6 + n / 4) (n % 4) (.spec d)).btAdvance n (s.btx n).next).on (BT_STATUS_FADING n) = true :=
    (State.btAdvance_fading ..).trans ((State.on_congr rfl rfl _).trans hfading)
  obtain ⟨hoff, hbanks⟩ := State.btFadeStep_end hstill (by rw [hnext]; exact hend)
  obtain ⟨banks, due, hfade⟩ := State.btFadeStep_btx
    ((u.toDetection (6 + n / 4) (n % 4) (.spec d)).btAdvance n (s.btx n).next) n
  rw [hemit]
  refine ⟨hoff, ?_, ?_⟩
  · rw [hbanks, hnext]
  · rw [hfade, hnext]

section
variable {s : State} {n : Fin 16} {v : Int} {ovr cal : Bool} {rest : List InTok}

theorem spectrumDone_leaves (hw : s.btWorks n = true) (hq : (s.btx n).inq = .x v ovr cal :: rest) (hwait : (s.btx n).wait = .none)
    (hskip : (s.btx n).skipTo = none) (hdue : (s.btx n).swapDue = false) (hg : (s.btx n).gapCause = none)
    (ht : (s.btx n).takeGap = none)
    (hk : (s.btx n).k + 1 = (s.btx n).origin + (s.btx n).next * (s.btH n : Int) + (s.btL n : Int)) :
    ∃ t, exec (.btSpectrumDone n) s = .next t ∧ (t.btx n).next = (s.btx n).next + 1 ∧ (t.btx n).cnt = (s.btx n).cnt + 1 ∧
      (t.btx n).lastMid = some (s.btMid n (s.btx n).next, s.btTime n (s.btx n).next) ∧ (t.btx n).markers = [] ∧
      (kvGetD t.dc.queue (detKey (6 + n / 4) (n % 4)) []).map DetTok.brief =
        (kvGetD s.dc.queue (detKey (6 + n / 4) (n % 4)) []).map DetTok.brief ++
          [some (chanSid n, (s.btx n).next, s.btTime n (s.btx n).next)] ∧
      t.val (BT_OVF_COUNT n) = (s.val (BT_OVF_COUNT n) + if (s.btWords n (s.btWindow n v)).2 then 1 else 0) % 2 ^ 32 ∧
      t.on (BT_STATUS_SETTLING n) = decide ((s.btx n).next + 1 < 0) := by
  have hx := s.btTaken_btx n v ovr cal
  have hreg := s.btTaken_reg n v ovr cal
  have hcount : (s.btTaken n v ovr cal).val (BT_OVF_COUNT n) = s.val (BT_OVF_COUNT n) := congrArg BitVec.toNat (hreg _)
  have hspec := State.btEmit_spectrum (s := s.btTaken n v ovr cal) (n := n) (by rw [hx]; exact hdue) (by rw [hx]; exact hg)
    (by rw [hx]; exact ht)
  rw [State.btWords_congr (hreg _) (hreg _) (by rw [hx]), State.btL_congr (hreg _),
    hcount, State.btTaken_dc, State.btMid_congr (hreg _) (by rw [hx]),
    State.btTime_congr (hreg _) (by rw [hx]) (by rw [hx]), hx, windowOf_push] at hspec
  rw [← btToken_complete hwait hskip hk] at hspec
  obtain ⟨hnext, hcnt, hlast, hmarks, hqueue, hovf, hsettling⟩ := hspec
  have hmore : (s.btx n).cnt < ((s.btToken n (.x v ovr cal)).btx n).cnt := by rw [hcnt]; exact Nat.lt_succ_self _
  refine ⟨_, congrArg Host.Outcome.next ((State.btRun_of_works .out hw).trans
    (hq ▸ State.btPull_of_spectrum rest hmore)), ?_⟩
  rw [State.btx_modBt, State.modBt_on]
  exact ⟨hnext, hcnt, hlast, hmarks, hqueue, hovf, hsettling⟩

theorem fadeEnd_ends (hw : s.btWorks n = true) (hq : (s.btx n).inq = .x v ovr cal :: rest) (hwait : (s.btx n).wait = .none)
    (hskip : (s.btx n).skipTo = none) (hdue : (s.btx n).swapDue = false)
    (hk : (s.btx n).k + 1 = (s.btx n).origin + (s.btx n).next * (s.btH n : Int) + (s.btL n : Int))
    (hf : s.on (BT_STATUS_FADING n) = true)
    (hend : (s.btx n).active.from_ + (s.btx n).active.fade ≤ (s.btx n).cnt + 1) :
    ∃ t, exec (.btEqFadeEnd n) s = .next t ∧ t.on (BT_STATUS_FADING n) = false ∧ (t.btx n).banks = (s.btx n).banks.take 1 ∧
      (t.btx n).next = (s.btx n).next + 1 ∧ (t.btx n).inq = rest := by
  have hx := s.btTaken_btx n v ovr cal
  have hemit := State.btEmit_fadeEnd (s := s.btTaken n v ovr cal) (n := n) (by rw [hx]; exact hdue)
    ((State.on_of_reg (s.btTaken_reg n v ovr cal _)).trans hf) (by rw [hx]; exact hend)
  rw [hx, ← btToken_complete hwait hskip hk] at hemit
  obtain ⟨hoff, hbanks, hnext⟩ := hemit
  refine ⟨_, congrArg Host.Outcome.next ((State.btRun_of_works .fade hw).trans
    (hq ▸ State.btPull_of_fadeEnd rest hf hoff)), ?_⟩
  rw [State.btx_modBt, State.modBt_on]
  exact ⟨hoff, hbanks, hnext, rfl⟩

end

/-! #### Table ports (R189, R193, R194, R211) -/

section
variable {s : State} {p : Fin 5} {n : Fin 16} {v : Word}

theorem offOf_mkCtl (n : Fin 16) : 0x100 ≤ offOf (BT_MK_CTL n) := by
  simp only [offOf, BT_MK_CTL, btBase, winBase]
  omega

/-- An accepted write on a path that may make it. -/
theorem gatedWrite_accepted {a : Nat} {h : State → State × Nat} {t : State} (hw : s.mayWrite p a = true) (ht : h s = (t, 0)) :
    s.gatedWrite p a h = t := by
  rw [State.gatedWrite_of_mayWrite h hw, ht]
  rfl

/-- A refused write on a path that may make it: REASON is set and the refusal recorded. -/
theorem gatedWrite_refused {a c : Nat} {h : State → State × Nat} {f : Fld} (hw : s.mayWrite p a = true)
    (ht : h s = s.answer f c) (hc : c ≠ 0) : s.gatedWrite p a h = (s.put f c).recordRefusal p a true c := by
  rw [State.gatedWrite_of_mayWrite h hw, ht]
  exact if_neg hc

/-- A read on a path that may make it: the value is sent, and the port's address field goes on. -/
theorem readOut_advances {a x : Nat} {h : State → State × Word} {f : Fld} {w : Word} (hr : s.mayRead p a = true)
    (hread : h s = (s.put f x, w)) :
    (s.readOut p a h).out = s.out ++ [.answer p a w 0] ∧ (s.readOut p a h).get f = (s.put f x).get f ∧
      (s.readOut p a h).bt = s.bt := by
  rw [State.readOut_of_mayRead h hr, hread]
  exact ⟨by rw [State.emit_out, State.put_out], State.emit_get .., by rw [State.emit_bt, State.put_bt]⟩

theorem eqData_write (hw : s.mayWrite p (BT_EQ_DATA n) = true) (hb : s.on (BT_EQ_ADDR_BANK n) = false)
    (hp : s.on (BT_MK_CTL_PENDING n) = false) (hf : s.on (BT_STATUS_FADING n) = false) :
    ∃ t, exec (.btEqDataAccess p n (some v)) s = .next t ∧
      (eqEntry (t.btx n).eqSh (s.get (BT_EQ_ADDR_CH n) / 2 * 2)).toNat = v.toNat % 65536 ∧
      (eqEntry (t.btx n).eqSh (s.get (BT_EQ_ADDR_CH n) / 2 * 2 + 1)).toNat = v.toNat / 65536 ∧
      t.get (BT_EQ_ADDR_CH n) = (s.get (BT_EQ_ADDR_CH n) / 2 * 2 + 2) % 131072 ∧ t.get (BT_MK_CTL_REASON n) = 0 ∧
      (t.btx n).active = (s.btx n).active := by
  refine ⟨_, congrArg Host.Outcome.next (gatedWrite_accepted hw
    (State.eqDataWrite_shadow v.toNat hb (State.shadowShut_eq_zero hp hf))), ?_⟩
  have hreason : BT_EQ_ADDR n ≠ BT_MK_CTL n := by simp [BT_EQ_ADDR, BT_MK_CTL]
  obtain ⟨heven, hodd⟩ := halves_of_store (s.btx n).eqSh 0x8800 (s.get (BT_EQ_ADDR_CH n) / 2 * 2) v
  refine ⟨?_, ?_, ?_, ?_, ?_⟩
  · rw [State.eqAdvance, State.btx_put, State.btx_put, State.btx_modBt]
    exact heven
  · rw [State.eqAdvance, State.btx_put, State.btx_put, State.btx_modBt]
    exact hodd
  · rw [State.eqAdvance_get, State.get_put_ne _ _ hreason, State.modBt_get]
  · rw [State.eqAdvance, State.get_put_ne _ _ hreason.symm]
    exact State.get_put_reason _ (BT_MK_CTL n) 0
  · rw [State.eqAdvance, State.btx_put, State.btx_put, State.btx_modBt]
    rfl

theorem eqData_write_refused (hw : s.mayWrite p (BT_EQ_DATA n) = true) (hb : s.on (BT_EQ_ADDR_BANK n) = true) :
    ∃ t, exec (.btEqDataAccess p n (some v)) s = .next t ∧ t.bt = s.bt ∧ t.get (BT_MK_CTL_REASON n) = 0x0753 ∧
      t.reg (BT_EQ_ADDR n) = s.reg (BT_EQ_ADDR n) := by
  refine ⟨_, congrArg Host.Outcome.next (gatedWrite_refused hw (State.eqDataWrite_active v.toNat hb) (by decide)), ?_⟩
  have hwin : winOf (BT_EQ_DATA n) ≠ 0 := by simp only [winOf, BT_EQ_DATA, btBase, winBase]; omega
  have hoff : 0x100 ≤ offOf (BT_EQ_ADDR n) := by simp only [offOf, BT_EQ_ADDR, btBase, winBase]; omega
  obtain ⟨hbt, hcode, hreg⟩ := State.refused_write (s := s) (c := 0x0753) hwin p.isLt (offOf_mkCtl n) (by decide)
  exact ⟨hbt, hcode, hreg _ (by simp [BT_EQ_ADDR, BT_MK_CTL]) hoff⟩

theorem eqData_read (hr : s.mayRead p (BT_EQ_DATA n) = true) (hb : s.on (BT_EQ_ADDR_BANK n) = false) :
    ∃ t, exec (.btEqDataAccess p n none) s = .next t ∧
      t.out = s.out ++ [.answer p (BT_EQ_DATA n) (BitVec.ofNat 32 ((eqEntry (s.btx n).eqSh (s.get (BT_EQ_ADDR_CH n) / 2 * 2)).toNat
        + 65536 * (eqEntry (s.btx n).eqSh (s.get (BT_EQ_ADDR_CH n) / 2 * 2 + 1)).toNat)) 0] ∧
      t.get (BT_EQ_ADDR_CH n) = (s.get (BT_EQ_ADDR_CH n) / 2 * 2 + 2) % 131072 ∧ t.bt = s.bt := by
  obtain ⟨hout, hget, hbt⟩ := readOut_advances (h := (·.eqDataRead n)) hr (State.eqDataRead_shadow hb)
  exact ⟨_, rfl, hout, hget.trans (State.eqAdvance_get s n), hbt⟩

theorem winData_write (hw : s.mayWrite p (BT_WIN_DATA n) = true) (he : s.on (BT_CTL_ENABLE n) = false) :
    ∃ t, exec (.btWinDataAccess p n (some v)) s = .next t ∧
      (kvGetD (t.btx n).win (s.get (BT_WIN_ADDR_I n) / 2 * 2) 0xFFFF).toNat = v.toNat % 65536 ∧
      (kvGetD (t.btx n).win (s.get (BT_WIN_ADDR_I n) / 2 * 2 + 1) 0xFFFF).toNat = v.toNat / 65536 ∧
      t.get (BT_WIN_ADDR_I n) = (s.get (BT_WIN_ADDR_I n) / 2 * 2 + 2) % 16384 ∧ t.get (BT_CTL_REASON n) = 0 := by
  refine ⟨_, congrArg Host.Outcome.next (gatedWrite_accepted hw (State.winDataWrite_off v.toNat he)), ?_⟩
  have hreason : BT_WIN_ADDR n ≠ BT_CTL n := by simp [BT_WIN_ADDR, BT_CTL]
  obtain ⟨heven, hodd⟩ := halves_of_store (s.btx n).win 0xFFFF (s.get (BT_WIN_ADDR_I n) / 2 * 2) v
  refine ⟨?_, ?_, ?_, ?_⟩
  · rw [State.winAdvance, State.btx_put, State.btx_put, State.btx_modBt]
    exact heven
  · rw [State.winAdvance, State.btx_put, State.btx_put, State.btx_modBt]
    exact hodd
  · rw [State.winAdvance_get, State.get_put_ne _ _ hreason, State.modBt_get]
  · rw [State.winAdvance, State.get_put_ne _ _ hreason.symm]
    exact State.get_put_reason _ (BT_CTL n) 0

theorem winData_read (hr : s.mayRead p (BT_WIN_DATA n) = true) :
    ∃ t, exec (.btWinDataAccess p n none) s = .next t ∧
      t.out = s.out ++ [.answer p (BT_WIN_DATA n) (BitVec.ofNat 32 ((s.btx n).winPoint (s.get (BT_WIN_ADDR_I n) / 2 * 2)
        + 65536 * (s.btx n).winPoint (s.get (BT_WIN_ADDR_I n) / 2 * 2 + 1))) 0] ∧
      t.get (BT_WIN_ADDR_I n) = (s.get (BT_WIN_ADDR_I n) / 2 * 2 + 2) % 16384 ∧ t.bt = s.bt := by
  obtain ⟨hout, hget, hbt⟩ := readOut_advances (h := (·.winDataRead n)) hr (State.winDataRead_eq s n)
  exact ⟨_, rfl, hout, hget.trans (State.winAdvance_get s n), hbt⟩

theorem maskData_write (hw : s.mayWrite p (DC_MASK_DATA n) = true) (hb : s.on (DC_MASK_ADDR_BANK n) = false)
    (hp : s.on (BT_MK_CTL_PENDING n) = false) (hf : s.on (BT_STATUS_FADING n) = false) :
    ∃ t, exec (.dcMaskDataAccess p n (some v)) s = .next t ∧ kvGetD (t.btx n).maskSh (s.get (DC_MASK_ADDR_W n)) 0 = v ∧
      (∀ k, k ≠ s.get (DC_MASK_ADDR_W n) → kvGetD (t.btx n).maskSh k 0 = kvGetD (s.btx n).maskSh k 0) ∧
      t.get (DC_MASK_ADDR_W n) = (s.get (DC_MASK_ADDR_W n) + 1) % 4096 ∧ (t.btx n).active = (s.btx n).active := by
  refine ⟨_, congrArg Host.Outcome.next (gatedWrite_accepted hw
    (State.maskDataWrite_shadow v.toNat hb (State.shadowShut_eq_zero hp hf))), ?_⟩
  have hreason : DC_MASK_ADDR n ≠ BT_MK_CTL n := by
    simp only [DC_MASK_ADDR, BT_MK_CTL, mkBase, btBase]
    omega
  refine ⟨?_, fun k hk => ?_, ?_, ?_⟩
  · rw [State.maskAdvance, State.btx_put, State.btx_put, State.btx_modBt, kvGetD_kvSetD_self, BitVec.ofNat_toNat,
      BitVec.setWidth_eq]
  · rw [State.maskAdvance, State.btx_put, State.btx_put, State.btx_modBt]
    exact kvGetD_kvSetD_ne _ _ _ _ _ _ hk
  · rw [State.maskAdvance_get, State.get_put_ne _ _ hreason, State.modBt_get]
  · rw [State.maskAdvance, State.btx_put, State.btx_put, State.btx_modBt]
    rfl

theorem maskData_write_refused (hw : s.mayWrite p (DC_MASK_DATA n) = true) (hb : s.on (DC_MASK_ADDR_BANK n) = true) :
    ∃ t, exec (.dcMaskDataAccess p n (some v)) s = .next t ∧ t.bt = s.bt ∧ t.get (BT_MK_CTL_REASON n) = 0x0761 ∧
      t.reg (DC_MASK_ADDR n) = s.reg (DC_MASK_ADDR n) := by
  refine ⟨_, congrArg Host.Outcome.next (gatedWrite_refused hw (State.maskDataWrite_active v.toNat hb) (by decide)), ?_⟩
  have hwin : winOf (DC_MASK_DATA n) ≠ 0 := by simp only [winOf, DC_MASK_DATA, mkBase, winBase]; omega
  have hoff : 0x100 ≤ offOf (DC_MASK_ADDR n) := by simp only [offOf, DC_MASK_ADDR, mkBase, winBase]; omega
  have hreason : DC_MASK_ADDR n ≠ BT_MK_CTL n := by simp only [DC_MASK_ADDR, BT_MK_CTL, mkBase, btBase]; omega
  obtain ⟨hbt, hcode, hreg⟩ := State.refused_write (s := s) (c := 0x0761) hwin p.isLt (offOf_mkCtl n) (by decide)
  exact ⟨hbt, hcode, hreg _ hreason hoff⟩

theorem maskData_read (hr : s.mayRead p (DC_MASK_DATA n) = true) (hb : s.on (DC_MASK_ADDR_BANK n) = false) :
    ∃ t, exec (.dcMaskDataAccess p n none) s = .next t ∧
      t.out = s.out ++ [.answer p (DC_MASK_DATA n) (kvGetD (s.btx n).maskSh (s.get (DC_MASK_ADDR_W n)) 0) 0] ∧
      t.get (DC_MASK_ADDR_W n) = (s.get (DC_MASK_ADDR_W n) + 1) % 4096 ∧ t.bt = s.bt := by
  obtain ⟨hout, hget, hbt⟩ := readOut_advances (h := (·.maskDataRead n)) hr (State.maskDataRead_shadow hb)
  exact ⟨_, rfl, hout, hget.trans (State.maskAdvance_get s n), hbt⟩

end

end Sys2Proof.Machine

open Sys2Proof Sys2Proof.Machine

/-- Settles O23, a theorem per command and case. -/
theorem broadTransformsRun : Obligations.BroadTransformsRun :=
  ⟨fun _ _ _ _ hw hq hwait ht htarget hat hf => gainSwitch_makes_swap_due hw hq hwait ht htarget hat hf,
    swap_exchanges_tables,
    fun _ _ _ _ hw hq hwait ht htarget hat hf => gainSwitch_is_held hw hq hwait ht htarget hat hf,
    fun _ _ _ _ hw hq ht hall hrun => syncReset_restarts hw hq ht hall hrun,
    fun _ _ _ _ hw hq hwait hfinal => inputGap_waits hw hq hwait hfinal,
    frameStart_restarts,
    fun _ _ _ _ hw hq hwait hfinal hrun => inputGap_ends hw hq hwait hfinal hrun,
    fun _ _ _ _ _ _ hw hq hwait hskip hdue hg ht hk => spectrumDone_leaves hw hq hwait hskip hdue hg ht hk,
    fun _ _ _ _ _ _ hw hq hwait hskip hdue hk hf _ hend => fadeEnd_ends hw hq hwait hskip hdue hk hf hend,
    fun _ _ _ _ hw hb hp hf => eqData_write hw hb hp hf,
    fun _ _ _ _ hw hb => eqData_write_refused hw hb,
    fun _ _ _ hr hb => eqData_read hr hb,
    fun _ _ _ _ hw he => winData_write hw he,
    fun _ _ _ hr => winData_read hr,
    fun _ _ _ _ hw hb hp hf => maskData_write hw hb hp hf,
    fun _ _ _ _ hw hb => maskData_write_refused hw hb,
    fun _ _ _ hr hb => maskData_read hr hb⟩

end
